-- ==== Sys2Proof/Word.lean ====
section
/-!
DEFINITION. The word types of the model and their plainest arithmetic: 32-bit register words (R353), bytes, and the
conversions between numbers and byte strings that the manual's record layouts use.
-/

namespace Sys2Proof

/-- A register word (R353: registers are 32-bit). -/
abbrev Word := BitVec 32

/-- A byte of host memory, of a frame or of a record. -/
abbrev Byte := BitVec 8

/-- A byte string: a frame, a record or a block of host memory. -/
abbrev Bytes := List Byte

/-- A number as a word, modulo 2^32. -/
def word (n : Nat) : Word := BitVec.ofNat 32 n

/-- A number as a byte, modulo 256. -/
def byte (n : Nat) : Byte := BitVec.ofNat 8 n

/-- A signed number as a word, two's complement, modulo 2^32. -/
def wordOfInt (i : Int) : Word := BitVec.ofInt 32 i

end Sys2Proof
end

