-- ==== Sys2Proof/Syntax.lean ====
section
/-!
DEFINITION. The commands that the outside sends to the module: one constructor for each row of spec/opcode_table.json.
Every command carries first `dt`, the fabric cycles that have passed since the command before it (notes/assumptions/1).
-/

namespace Sys2Proof

/-- What PD7's comparators and sensors show at a RADIUS_TICK: the frequency of the recovered clock of each SyncE input against
the timescale over the tick (10^-15), and at a whole second the cartridge's frequency minus the keeper's (10^-15), the two
temperatures (m°C), and whether the keeper is out of warm-up. -/
structure TickMeas where
  synce0 : Option Int
  synce1 : Option Int
  cartDiff : Option Int
  tempKeeper : Int
  tempCart : Option Int
  keeperWarm : Bool
  deriving DecidableEq, Repr

/-- A signal that the side processor expects in the sky (R132): signal code, satellite, predicted elevation and azimuth in degrees. -/
structure SkyObs where
  signal : Nat
  sv : Nat
  elev : Nat
  azim : Nat
  deriving DecidableEq, Repr

/-- What one tracking channel measures at an epoch's latch (R139). -/
structure ChanObs where
  chan : Nat
  /-- C/N0 in 0.1 dB-Hz, elevation and azimuth in degrees. -/
  cn0 : Nat
  elev : Nat
  azim : Nat
  /-- The instant of transmission that the code shows at the latch, and the one that the carrier shows but for a constant: ps of the
  constellation's own time, GLONASS's of UTC, with the broadcast clock of the satellite applied. -/
  code : Int
  carrier : Int
  /-- The carrier slipped a cycle since the last epoch (R133). -/
  slip : Bool
  /-- The broadcast group delay of the signal in ps (R141). -/
  group : Int
  /-- The satellite's position at the transmission by its ephemeris, ECEF in cm. -/
  sat : Int × Int × Int
  /-- The early correlator amplitude over the late one, minus 1, in 10^-3 (R148). -/
  earlyLate : Int
  deriving DecidableEq, Repr

/-- What a side processor has at an epoch (R132, R139 to R148): the signals it expects, its channels' measurements, the position that
the last iteration of its solution starts from where none is in force (ECEF, cm), and the between-antenna carrier phases:
constellation, satellites, spread and predicted spread in 10^-3 cycle. -/
structure GnssSolution where
  sky : List SkyObs
  obs : List ChanObs
  point : Int × Int × Int
  dir : List (Nat × Nat × Nat × Nat)
  deriving DecidableEq, Repr

/-- A decoded navigation message (R136 to R138). -/
structure NavMessage where
  chan : Nat
  kind : Nat
  result : Nat
  /-- Words that failed parity or were corrected. -/
  words : Nat
  /-- The first bit at the antenna, in 2^-16 ns. -/
  tFirst : Nat
  cn0 : Nat
  payload : Bytes
  /-- It completes the satellite's ephemeris, or an almanac. -/
  ephemeris : Bool
  almanac : Bool
  /-- The parameters of the constellation's ionospheric model. -/
  iono : Option Bytes
  /-- A0 in 2^-50 s, A1 in 2^-50, and the TAI second they refer to (R140). -/
  utc : Option (Int × Int × Nat)
  /-- The leap announcement it carries: TAI second and new offset. -/
  leap : Option (Nat × Int)
  deriving DecidableEq, Repr

/-- What a spectrum and the front end of one band of a side show (R151, R152). -/
structure RfiObs where
  /-- Continuous-wave interferers: bin and dB above the noise floor. -/
  peaks : List (Nat × Nat)
  /-- Noise floor above its 24 h median, dB; AGC gain, 0.1 dB; blanking duty, 0.1 %; bias current, mA. -/
  floor : Nat
  gain : Nat
  blank : Nat
  biasMa : Nat
  deriving DecidableEq, Repr

/-- How bytes on a receiving line begin (R206): an express frame; the first fragment of preemptable frame `frame` modulo 4, or
the fragment with count `count` modulo 4 that continues it; more bytes of what has begun on the express or the preemptable MAC;
a start delimiter that is none of these. -/
inductive RxSmd
  | express
  | start (frame : Nat)
  | cont (frame count : Nat)
  | rest (express : Bool)
  | unknown
  deriving DecidableEq, Repr

/-- How they end: they go on later, with the mCRC of a fragment that another one follows, or with the frame's FCS, each of the
two right or wrong. -/
inductive RxEnd
  | goesOn
  | fragment (good : Bool)
  | frame (good : Bool)
  deriving DecidableEq, Repr

/-- What the MAC sees of bytes on a receiving line (R193, R194, R206): how they begin and end, the frame's bytes among them
without mCRC and FCS, the ps since the first bit after the SFD or SMD was captured, an error control character or uncorrectable
codeword in them, and the codewords corrected and not correctable on the way. -/
structure RxPhys where
  smd : RxSmd
  stop : RxEnd
  data : Bytes
  ago : Nat
  phyErr : Bool
  fecCorr : Nat
  fecUncorr : Nat
  deriving DecidableEq, Repr


/-- A descriptor as the module fetched it (R333), and for a PKE_JOB ring the job record and IN that were read with it, each
none where the read failed. -/
structure FetchedDesc where
  desc : Bytes
  job : Option Bytes
  input : Option Bytes
  deriving DecidableEq, Repr

/-- One ring's doorbell word as a doorbell read found it (R327), the descriptors that were fetched then, in order, and
whether the read of the next one failed. -/
structure DoorbellWord where
  ring : Nat
  prod : Nat
  cons : Nat
  descs : List FetchedDesc
  readFailed : Bool
  deriving DecidableEq, Repr

/-- What the sensors of the supplies and of temperature show (R474): 0.1 V, 0.1 W, 0.1 °C. -/
structure PowerSense where
  vAc : Nat
  vDca : Nat
  vDcb : Nat
  vKa : Nat
  pIn : Nat
  tZafel : Int
  tInlet : Int
  tBoard : Int
  deriving DecidableEq, Repr

/-- What an attempt of a start-up step finds (R465): fabric cycles it takes, whether its check passes (rails; the bank's
signature; training; keeper; lock; the copy's CRC; the hot-start record's CRC; L0), what fails in it (step 2: regions 0
timescale and anchor, 1 models, 2 sample rings, 3 NTS keys, 4 boot record, 5 its copy in flash; step 7: units as kind times 256
plus index, noise sources as kind 6; step 8: copies of the key store), whether a cartridge is present (step 5), and the link's
speed and width (step 11). -/
structure StepObs where
  took : Nat
  ok : Bool
  fails : List Nat
  cart : Bool
  speed : Nat
  width : Nat
  deriving DecidableEq, Repr

/-- A client message of the management protocol but for its TYPE (R383): the header fields MAGIC, VERSION, LEN and TAG, and the body
that came with it. -/
structure MpMsg where
  magic : Nat
  version : Nat
  len : Nat
  tag : Nat
  body : Bytes
  deriving DecidableEq, Repr

/-- What a link or lane locks to (R185): blocks, alignment markers, FEC codewords. -/
inductive LineLock where
  | block
  | marker
  | fec
  deriving DecidableEq, Repr

/-- The commands. -/
inductive Instr where
  /-- REGISTER_WRITE (R353). A write to a BAR0 register that has no row of its own is handled by its width, alignment and byte
    enables, and faults are logged. -/
  | registerWrite (dt : Nat) (src addr : Nat) (lanes : List (Nat × Word))
  /-- CR_CLEARING_READ (R354). A full-width read of a CR counter or counter pair returns its count, clears it and sets stolen
    bits in other sources' views. -/
  | crClearingRead (dt : Nat) (src addr : Nat) (wide : Bool)
  /-- SQ_ACKNOWLEDGE (R363). A write to an SQ EVENT register clears the named bits when its SEQ matches, otherwise counts
    STALE_ACK. -/
  | sqAcknowledge (dt : Nat) (src addr : Nat) (value : Word)
  /-- STAGE_WRITE (R369). A full-width write to an ST word lands in the group's staging copy and advances STAGE_SEQ. -/
  | stageWrite (dt : Nat) (src addr : Nat) (value : Word)
  /-- LK_WRITE (R367). A write to an LK field latches the first value after a start at step 1 and drops later writes with
    LOCK_VIOLATION. -/
  | lkWrite (dt : Nat) (src addr : Nat) (value : Word)
  /-- GUARD_TIMEOUT (R365). An open guarded pair whose complement has not arrived within 1 µs or 16 writes is discarded with
    GUARD_FAULT. -/
  | guardTimeout (dt : Nat) (src : Nat)
  /-- SLU_COMMIT (R371). A COMMIT write captures the staging copy into the pending copy after the commit-time refusals,
    superseding any pending commit. -/
  | sluCommit (dt : Nat) (src group : Nat) (value : Word)
  /-- SLU_CANCEL (R371). A CANCEL write ends a pending commit CANCELLED and keeps the staging copy. -/
  | sluCancel (dt : Nat) (src group : Nat)
  /-- SLU_REVERT (R371). A REVERT write copies the live copy into staging, advances STAGE_SEQ and cancels a pending commit. -/
  | sluRevert (dt : Nat) (src group : Nat)
  /-- FLOW_ADOPT (R216). Each link direction adopts applied MAC FLOW values at its own next point between frames, raising
    FLOW_APPLIED when all have. -/
  | flowAdopt (dt : Nat) (link dir : Nat)
  /-- ADDR_APPLY (R230). A waiting HRC_ADDR commit applies once the last request of the previous address generation has
    departed or been dropped. -/
  | addrApply (dt : Nat)
  /-- PARITY_SCRUB (R377). Every 1 ms each domain supervisor checks the parity of its live ST words. -/
  | parityScrub (dt : Nat) (live staging pending : List Nat)
  /-- NOW_SEC_LO_READ (R23). A full-width read of TSC.NOW_SEC_LO latches a coherent snapshot of time, state, radius, phase
    error and slew. -/
  | nowSecLoRead (dt : Nat) (src : Nat)
  /-- HOST_EVENT (R32). A host calendar entry fires, posts one event ring record and re-arms or is freed. -/
  | hostEvent (dt : Nat)
  /-- SLU_APPLY (R372). The SLU calendar entry fires at a whole second or AT instant and applies the pending groups due there. -/
  | sluApply (dt : Nat)
  /-- OUT_EDGE (R29). An OUT_EDGE entry is dispatched 10 µs early and its output unit places the leading edge or realigns
    FREQ-OUT to 1 ps. -/
  | outEdge (dt : Nat) (output : Nat)
  /-- PULSE_END (R26). An output pulse ends when its configured width has elapsed on the measurement scale. -/
  | pulseEnd (dt : Nat) (output : Nat)
  /-- PTP_SYNC (R259). A PTP_SYNC entry fires, books reserved slots for the Syncs or Delay_Req due and queues the Announces
    due. -/
  | ptpSync (dt : Nat)
  /-- RCP_WINDOW (R276). The receipt window entry fires, closes the open window and opens the next. -/
  | rcpWindow (dt : Nat)
  /-- TAL_WINDOW (R494). The counter window entry fires, latches running totals and writes the tallies and header into the
    LAST bank. -/
  | talWindow (dt : Nat)
  /-- NTS_EPOCH (R243). The key-epoch entry fires and rotates the NTS master keys. -/
  | ntsEpoch (dt : Nat)
  /-- LEAP (R50). A LEAP entry fires to mark announcement start, smear start, the leap or smear end. -/
  | leap (dt : Nat)
  /-- HIF_DB_POLL (R328). The doorbell poll entry fires and triggers a doorbell read of the enabled rings' lines. -/
  | hifDbPoll (dt : Nat)
  /-- RADIUS_TICK (R51). Every 1 ms the radius is recomputed, slew and loop updated, and holdover frequency set. -/
  | radiusTick (dt : Nat) (meas : TickMeas)
  /-- TSC_STEP (R40). A scheduled step fires last at its instant and applies the whole-ns offset after checking the measured
    offset. -/
  | tscStep (dt : Nat)
  /-- QUAL_TIME_EXPIRE (R75). A CANDIDATE's qualification timer expires and it becomes QUALIFIED or WAIT_RESTORE. -/
  | qualTimeExpire (dt : Nat) (ref : Nat)
  /-- WTR_EXPIRE (R75). A WAIT_RESTORE reference's wait-to-restore timer expires and it becomes QUALIFIED. -/
  | wtrExpire (dt : Nat) (ref : Nat)
  /-- DISTRUST_HOLD_EXPIRE (R77). A DISTRUSTED reference's hold expires and it is released to CANDIDATE when its statistics
    stayed at 0. -/
  | distrustHoldExpire (dt : Nat) (ref : Nat)
  /-- PREPARE_END (R96). A switch's one-second PREPARE ends, the build-out is taken and SLEW begins with the target SELECTED. -/
  | prepareEnd (dt : Nat)
  /-- REF_LOSS_TIMEOUT (R60). A reference's loss timer or count expires and it is lost. -/
  | refLossTimeout (dt : Nat) (ref : Nat)
  /-- FORCE (R95). A guarded write to REF.FORCE forces a reference or cancels the force. -/
  | refForce (dt : Nat) (src : Nat) (value complement : Word)
  /-- CLEAR_DISTRUST (R77). A guarded write of a reference index to CLEAR_DISTRUST releases that DISTRUSTED reference to
    CANDIDATE. -/
  | clearDistrust (dt : Nat) (src : Nat) (value complement : Word)
  /-- OFFSET_LO_READ (R99). A full-width read of REF.INn.OFFSET_LO latches that page's offset and residual words. -/
  | offsetLoRead (dt : Nat) (src ref : Nat)
  /-- QCONTACT_CHANGE (R72). A quality contact change stable for 10 ms is accepted and the bound reference's class follows. -/
  | qcontactChange (dt : Nat) (closed : Bool)
  /-- TOD_SENTENCE_RX (R445). A ToD sentence received on TOD-IN is validated and counted, and valid ones label PPS-IN edges. -/
  | todSentenceRx (dt : Nat) (text : Bytes) (framing : Bool)
  /-- STEP_APPROVE (R38). A guarded STEP_APPROVE with ACTION APPROVE naming the current SEQ schedules the pending step. -/
  | stepApprove (dt : Nat) (src seq : Nat) (complement : Word)
  /-- STEP_APPROVE_SLEW (R38). A guarded STEP_APPROVE with ACTION SLEW naming the current SEQ removes the offset by slewing. -/
  | stepApproveSlew (dt : Nat) (src seq : Nat) (complement : Word)
  /-- CAL_CREATE (R31). A TSC_CAL application with OP CREATE checks and creates a host calendar entry. -/
  | calCreate (dt : Nat) (src : Nat) (cmd : Word) (words : List (Nat × Word)) (commit : Word)
  /-- CAL_CANCEL (R31). A TSC_CAL application with OP CANCEL checks and frees a host calendar entry. -/
  | calCancel (dt : Nat) (src : Nat) (cmd : Word) (words : List (Nat × Word)) (commit : Word)
  /-- CAL_MODIFY (R59). A TSC_CAL application with OP MODIFY checks and changes a host entry at the application instant. -/
  | calModify (dt : Nat) (src : Nat) (cmd : Word) (words : List (Nat × Word)) (commit : Word)
  /-- CAL_NONE (R31). A TSC_CAL application with OP 0b00 changes no entry but advances CAL_RESULT.SEQ. -/
  | calNone (dt : Nat) (src : Nat) (cmd : Word) (words : List (Nat × Word)) (commit : Word)
  /-- CART_LOSS (R104). An active cartridge's presence opens or its 10 MHz stops and the PLL switches to the keeper within 1
    µs. -/
  | cartLoss (dt : Nat) (opened : Bool)
  /-- MODEL_SAMPLE (R106). At each multiple of 1,000 s an oscillator sample is formed and the models refitted. -/
  | modelSample (dt : Nat)
  /-- MODEL_FLASH_WRITE (R109). Every 24 h the models are copied to flash and the cartridge model block. -/
  | modelFlashWrite (dt : Nat)
  /-- CART_INSERT (R118). The presence contact closed for 100 ms powers the cartridge slot and the cartridge enters POWERING. -/
  | cartInsert (dt : Nat)
  /-- CART_REMOVE (R118). The presence contact open for 100 ms makes the cartridge ABSENT. -/
  | cartRemove (dt : Nat)
  /-- CART_IDENTIFIED (R121). The cartridge identity and model block are read and the cartridge enters WARMING. -/
  | cartIdentified (dt : Nat) (code rev serial : Nat) (block : Bytes)
  /-- CART_ID_TIMEOUT (R118). No valid identity within 2 s sends the cartridge to FAULT. -/
  | cartIdTimeout (dt : Nat)
  /-- CART_STATUS_POLL (R450). Every 100 ms the module polls the cartridge STATUS for lock or fault. -/
  | cartStatusPoll (dt : Nat) (lock fault : Bool)
  /-- CART_WARM_TIMEOUT (R118). Warm-up exceeding its type's limit sends the cartridge to FAULT with WARM_TIMEOUT. -/
  | cartWarmTimeout (dt : Nat)
  /-- CART_MEAS_DONE (R119). CART_MEAS elapses with checks passed and the cartridge becomes READY. -/
  | cartMeasDone (dt : Nat)
  /-- CART_OVERCURRENT (R449). Cartridge current above 2.0 A for 10 ms switches PD2 off and sends the cartridge to FAULT. -/
  | cartOvercurrent (dt : Nat)
  /-- CART_RELEASE (R120). A guarded RELEASE hands over to the keeper if needed and writes the model block. -/
  | cartRelease (dt : Nat) (src : Nat) (complement : Word)
  /-- CART_PD2_OFF (R120). 100 ms after the model block write PD2 switches off and the cartridge enters RELEASED. -/
  | cartPd2Off (dt : Nat)
  /-- CART_RESUME (R120). A guarded RESUME powers a RELEASED cartridge back to POWERING. -/
  | cartResume (dt : Nat) (src : Nat) (complement : Word)
  /-- CART_FORGET (R120). A guarded FORGET discards the cartridge's model in cistern, flash and model block. -/
  | cartForget (dt : Nat) (src : Nat) (complement : Word)
  /-- KA_TICK (R123). Every second in keep-alive mode the cistern counter applies the holdover correction and radius. -/
  | kaTick (dt : Nat) (tempKeeper : Int) (tempCart : Option Int)
  /-- KA_GNSS_WAKE (R153). Every KA_GNSS minutes a GNSS side wakes to refresh ephemeris and almanac. -/
  | kaGnssWake (dt : Nat)
  /-- KA_WAKE_END (R153). A keep-alive wake ends on current ephemerides or after 120 s and the hot-start record is written. -/
  | kaWakeEnd (dt : Nat) (sky : List SkyObs)
  /-- GNSS_SOLUTION_DONE (R139). A side completes the timing solution of an epoch and runs its consistency checks. -/
  | gnssSolutionDone (dt : Nat) (side : Nat) (sol : GnssSolution)
  /-- GNSS_ALARM_CLEAR (R150). An alarm ends after its trip condition is absent for ALARM_CLEAR. -/
  | gnssAlarmClear (dt : Nat) (side check : Nat)
  /-- GNSS_EXCL_END (R149). An exclusion ends after XCL_HOLD. -/
  | gnssExclEnd (dt : Nat) (side : Nat) (constellation : Bool) (key check : Nat)
  /-- CHANNEL_LOSS_OF_LOCK (R133). A channel's C/N0 stays below threshold for 2 s and it loses lock. -/
  | channelLossOfLock (dt : Nat) (side chan : Nat)
  /-- NAV_RECORD (R136). A decoded navigation message is written as a record to its ring or dropped. -/
  | navRecord (dt : Nat) (side : Nat) (msg : NavMessage)
  /-- HOTSTART_WRITE (R135). Every 30 min while a side reports T_SINGLE or T_DUAL the hot-start record is written to flash. -/
  | hotstartWrite (dt : Nat)
  /-- SURVEY_START (R145). GNS_CMD SURVEY_START starts a survey on the named side. -/
  | surveyStart (dt : Nat) (src : Nat) (cmd : Word) (words : List (Nat × Word)) (commit : Word)
  /-- SURVEY_ABORT (R145). GNS_CMD SURVEY_ABORT ends a running survey with ABORTED. -/
  | surveyAbort (dt : Nat) (src : Nat) (cmd : Word) (words : List (Nat × Word)) (commit : Word)
  /-- SURVEY_PROGRESS (R146). Every 60 s a running survey writes its progress record and partial result. -/
  | surveyProgress (dt : Nat) (side : Nat)
  /-- SURVEY_COMPLETE (R145). A survey meeting time and accuracy puts its mean in force at the next whole second. -/
  | surveyComplete (dt : Nat) (side : Nat)
  /-- SURVEY_TIMEOUT (R145). A survey incomplete at SURVEY_MAX ends with SURVEY_TIMEOUT. -/
  | surveyTimeout (dt : Nat) (side : Nat)
  /-- POS_FIX (R147). GNS_CMD POS_FIX puts a fixed position in force on the side. -/
  | posFix (dt : Nat) (src : Nat) (cmd : Word) (words : List (Nat × Word)) (commit : Word)
  /-- POS_CLEAR (R147). GNS_CMD POS_CLEAR removes the position in force. -/
  | posClear (dt : Nat) (src : Nat) (cmd : Word) (words : List (Nat × Word)) (commit : Word)
  /-- SNAP_ARM (R154). GNS_CMD SNAP_ARM arms a snapshot capture with an AT or event trigger. -/
  | snapArm (dt : Nat) (src : Nat) (cmd : Word) (words : List (Nat × Word)) (commit : Word)
  /-- SNAP_ABORT (R154). GNS_CMD SNAP_ABORT ends a capture keeping samples with an abort header. -/
  | snapAbort (dt : Nat) (src : Nat) (cmd : Word) (words : List (Nat × Word)) (commit : Word)
  /-- SNAP_TRIGGER (R154). The AT instant or first qualifying alarm or jam event starts or fixes the end of the capture. -/
  | snapTrigger (dt : Nat)
  /-- SNAP_CAPTURE_END (R154). A capture reaches its length and the snapshot is DONE. -/
  | snapCaptureEnd (dt : Nat)
  /-- REPLAY_START (R156). GNS_CMD REPLAY_START feeds a side's baseband from the snapshot. -/
  | replayStart (dt : Nat) (src : Nat) (cmd : Word) (words : List (Nat × Word)) (commit : Word)
  /-- REPLAY_STOP (R156). GNS_CMD REPLAY_STOP ends replay and the side restarts from live signals. -/
  | replayStop (dt : Nat) (src : Nat) (cmd : Word) (words : List (Nat × Word)) (commit : Word)
  /-- REPLAY_END (R156). Replay reaches the end of the snapshot and the side restarts live. -/
  | replayEnd (dt : Nat) (side : Nat)
  /-- CLEAR_EXCL (R149). GNS_CMD CLEAR_EXCL ends exclusions on both sides. -/
  | clearExcl (dt : Nat) (src : Nat) (cmd : Word) (words : List (Nat × Word)) (commit : Word)
  /-- THETA_LO_READ (R158). A full-width read of SIDEa.THETA_LO latches that side's solution words. -/
  | thetaLoRead (dt : Nat) (src side : Nat)
  /-- RFI_SPECTRUM (R151). Every 100 ms a spectrum places or releases notches and tests for jamming. -/
  | rfiSpectrum (dt : Nat) (side band : Nat) (obs : RfiObs)
  /-- BIAS_SHORT (R152). Antenna bias current above 90 mA switches bias off and raises BIAS_FAULT. -/
  | biasShort (dt : Nat) (side ma : Nat)
  /-- BIAS_RETRY (R152). Every 10 s a shorted bias is retried. -/
  | biasRetry (dt : Nat) (side ma : Nat)
  /-- GNSS_FW_LOAD (R488). A side loads its slot firmware, falling back to the kept copy if the start check fails. -/
  | gnssFwLoad (dt : Nat) (side : Nat) (startOk : Bool)
  /-- TAG_EDGE (R166). A selected edge on a channel is tagged or lost to dead time and stored subject to decimation. -/
  | tagEdge (dt : Nat) (chan : Nat) (rising : Bool) (sub cycles : Nat)
  /-- TAG_FORWARD (R168). Stored tag records are forwarded from the tag buffer into ring buffers as room allows. -/
  | tagForward (dt : Nat)
  /-- MEAS_CLOSE (R171). An INTERVAL measurement closes at POST, TIMEOUT or its last stop. -/
  | measClose (dt : Nat) (prog : Nat)
  /-- MEAS_GATE_CLOSE (R174). A FREQUENCY gate or PHASE grid range ends and its result is formed. -/
  | measGateClose (dt : Nat) (prog : Nat)
  /-- MEAS_FORWARD (R176). Measurement records are forwarded to their ring as room allows. -/
  | measForward (dt : Nat)
  /-- CAL_BURST (R179). A calibration burst drives 64 pulses into eligible channels to measure skew. -/
  | calBurst (dt : Nat) (skews : List (Nat × Int))
  /-- FRAME_RX (R194). A frame received on a service link is accepted or counted by the ordered checks and classified by the
    headrace. -/
  | frameRx (dt : Nat) (link : Nat) (phys : RxPhys)
  /-- WEIR_LOW (R199). Occupancy falling to weir low sends a zero-quanta pause and clears WEIR. -/
  | weirLow (dt : Nat) (link occupancy : Nat)
  /-- PAUSE_REFRESH (R199). While above weir low the pause frame is repeated every REFRESH. -/
  | pauseRefresh (dt : Nat) (link : Nat)
  /-- PAUSE_EFFECT (R201). 40 ns after a received pause frame the link is held for its quanta. -/
  | pauseEffect (dt : Nat) (link : Nat)
  /-- PAUSE_HOLD_END (R201). A received pause hold expires and the link is released. -/
  | pauseHoldEnd (dt : Nat) (link : Nat)
  /-- PAUSE_OVERLIMIT (R202). PAUSE_HELD reaching PAUSE_LIMIT ends the hold and ignores pause until the next second. -/
  | pauseOverlimit (dt : Nat) (link : Nat)
  /-- LINK_UP (R185). A link meeting its lock conditions for 10 ms measures RX_DYN and TX_DYN and comes UP. -/
  | linkUp (dt : Nat) (link rxDyn txDyn : Nat)
  /-- LINK_DOWN (R185). A link loses a lock condition, goes DOWN and discards booked responses. -/
  | linkDown (dt : Nat) (link : Nat) (lost : LineLock)
  /-- CAGE_INSERT (R186). An inserted optic is identified and released from low-power mode when acceptable. -/
  | cageInsert (dt : Nat) (cage : Nat) (responded : Bool) (ident pclass : Nat)
  /-- CAGE_REMOVE (R490). An optic removal switches the cage's Vcc off and takes its links DOWN. -/
  | cageRemove (dt : Nat) (cage : Nat)
  /-- VERIFY_SEND (R204). Every 10 ms a verify mPacket is sent, and three unanswered ones fail preemption. -/
  | verifySend (dt : Nat) (link : Nat)
  /-- VERIFY_RESPONSE (R204). A verify response makes preemption ACTIVE. -/
  | verifyResponse (dt : Nat) (link : Nat)
  /-- PROBE_START (R191). A CM write of PROBE_CTL.START sends one probe frame on the link. -/
  | probeStart (dt : Nat) (src link : Nat)
  /-- PROBE_RETURN (R191). A returning probe records its round trip in PROBE_RESULT and raises PROBE_DONE. -/
  | probeReturn (dt : Nat) (link nonce captured : Nat)
  /-- PROBE_TIMEOUT (R191). No probe return within 1 ms sets PROBE_RESULT to none. -/
  | probeTimeout (dt : Nat) (link : Nat)
  /-- RESPONSE_BOOK (R208). A response handed over is booked on the earliest free slot at least 500 ns ahead or dropped. -/
  | responseBook (dt : Nat) (link : Nat)
  /-- FINALISE (R209). Before the slot the pipeline writes slot-dependent fields, tag and checksums. -/
  | finalise (dt : Nat) (link : Nat)
  /-- COMMIT_POINT (R210). At slot − 300 ns the MAC commits the frame unless the link is held. -/
  | commitPoint (dt : Nat) (link : Nat)
  /-- SLOT_START (R210). A committed frame starts at its slot and is sent. -/
  | slotStart (dt : Nat) (link : Nat)
  /-- AGE_DROP (R213). A response not departed within SLOT_AGE_MAX of its first slot is dropped. -/
  | ageDrop (dt : Nat) (link : Nat)
  /-- ARP_REQUEST (R221). An ARP request for a service address is answered in hardware. -/
  | arpRequest (dt : Nat)
  /-- NEIGHBOR_SOLICITATION (R221). A Neighbor Solicitation for a service address is answered with an advertisement. -/
  | neighborSolicitation (dt : Nat)
  /-- EXCEPTION_FRAME (R220). A frame of an exception class is passed to its ring or dropped. -/
  | exceptionFrame (dt : Nat)
  /-- NTP_REQUEST (R226). A plain NTP request is rate-checked and answered, sent a Kiss-o'-Death or dropped. -/
  | ntpRequest (dt : Nat) (pipe : Nat)
  /-- NTS_REQUEST (R238). An NTS request is rate-checked, its cookie opened and authenticator verified, and answered, NAKed or
    dropped. -/
  | ntsRequest (dt : Nat) (pipe : Nat)
  /-- BUCKET_MOVE_DONE (R223). A moved bucket's held requests are forwarded to the new pipeline once the old has none in
    flight. -/
  | bucketMoveDone (dt : Nat) (bucket : Nat)
  /-- CLIENT_QUERY (R249). An HRC_QUERY commit looks up a key address and copies its client record. -/
  | clientQuery (dt : Nat) (src : Nat) (cmd : Word) (words : List (Nat × Word)) (commit : Word)
  /-- NTS_ROTATE_NOW (R244). A guarded ROTATE_NOW rotates NTS keys at the next whole second. -/
  | ntsRotateNow (dt : Nat) (src : Nat) (complement : Word)
  /-- NTS_PURGE (R244). A guarded PURGE wipes all NTS keys and draws a new current key. -/
  | ntsPurge (dt : Nat) (src : Nat) (complement : Word)
  /-- NTS_KEY_DRAWN (R244). The new current key drawn after a purge is in place within 1 ms. -/
  | ntsKeyDrawn (dt : Nat)
  /-- KEY_DEFER_RETRY (R244). A deferred key rotation is retried at each whole second. -/
  | keyDeferRetry (dt : Nat)
  /-- MINT_JOB (R246). A mint job seals the requested cookies for the host and posts its completion. -/
  | mintJob (dt : Nat) (mint : Option Bytes)
  /-- DRAIN (R486). A UCODE_CTL DRAIN moves a pipeline's buckets away and lets it finish its requests. -/
  | drain (dt : Nat) (src pipe : Nat)
  /-- DRAIN_COMPLETE (R486). A draining pipeline's last response departs and it is fenced. -/
  | drainComplete (dt : Nat) (pipe : Nat)
  /-- RELOAD (R487). A UCODE_CTL RELOAD loads microcode into a fenced pipeline and self-tests it. -/
  | reload (dt : Nat) (src pipe : Nat) (held : Bool)
  /-- RELOAD_COMPLETE (R487). The reload self-test ends and the pipeline returns to FENCED with its outcome. -/
  | reloadComplete (dt : Nat) (pipe : Nat) (pass : Bool)
  /-- DELAY_REQ_RX (R261). A Delay_Req is answered by a Delay_Resp within 1 ms or dropped. -/
  | delayReqRx (dt : Nat)
  /-- UNICAST_REQUEST_RX (R263). A unicast transmission request is granted or denied in a Signaling message. -/
  | unicastRequestRx (dt : Nat)
  /-- UNICAST_CANCEL_RX (R263). A CANCEL_UNICAST_TRANSMISSION ends a grant and is acknowledged. -/
  | unicastCancelRx (dt : Nat)
  /-- GRANT_EXPIRE (R263). A grant reaches the end of its duration and lapses. -/
  | grantExpire (dt : Nat)
  /-- SLAVE_MESSAGE_RX (R267). A Sync, Follow_Up, Announce or Delay_Resp reaches its slave instance for measurement and master
    choice. -/
  | slaveMessageRx (dt : Nat)
  /-- ANN_TIMEOUT (R266). A slave instance misses ANN_TIMEOUT Announce intervals and returns to LISTENING. -/
  | annTimeout (dt : Nat) (slave : Nat)
  /-- SLAVE_GRANT_RENEW (R265). A unicast slave renews its grants at half their duration. -/
  | slaveGrantRenew (dt : Nat) (slave : Nat)
  /-- ESMC_RX (R271). A received ESMC PDU sets the SyncE input's class or is counted malformed. -/
  | esmcRx (dt : Nat)
  /-- ETXEL_REQUEST (R283). An Etxel request is checked, rate-charged and admitted to the open window or refused. -/
  | etxelRequest (dt : Nat) (pipe : Nat)
  /-- ROUGHTIME_REQUEST (R292). A Roughtime request is checked and admitted to its revision's tree or dropped. -/
  | roughtimeRequest (dt : Nat) (pipe : Nat)
  /-- SEAL_DONE (R281). A window's signatures complete, it is sealed and its log records posted. -/
  | sealDone (dt : Nat)
  /-- SEAL_TIMEOUT (R281). A window not signed 1 ms after close is abandoned and its leaves refused SEAL_FAIL. -/
  | sealTimeout (dt : Nat)
  /-- RECEIPT_RELEASE (R282). Sealed responses are released to pipelines in admission order at the paced rate. -/
  | receiptRelease (dt : Nat)
  /-- ONLINE_KEY_EXPIRE (R290). An online key reaches MAXT and requests are refused KEY_ABSENT until a new key is current. -/
  | onlineKeyExpire (dt : Nat)
  /-- RCP_ROTATE_NOW (R290). A guarded RCP ROTATE_NOW makes and certifies a key and rotates at the next window close. -/
  | rcpRotateNow (dt : Nat) (src : Nat) (complement : Word)
  /-- LT_SLOT (R289). A write to RCP.LT_SLOT latches the long-term key slot binding once. -/
  | ltSlot (dt : Nat) (src : Nat) (value : Word)
  /-- ED25519_SIGN (R302). A PKE job signs a message with Ed25519. -/
  | ed25519Sign (dt : Nat) (core : Nat)
  /-- ED25519_VERIFY (R304). A PKE job verifies an Ed25519 signature. -/
  | ed25519Verify (dt : Nat) (core : Nat)
  /-- ED448_SIGN (R302). A PKE job signs a message with Ed448 and context. -/
  | ed448Sign (dt : Nat) (core : Nat)
  /-- ED448_VERIFY (R304). A PKE job verifies an Ed448 signature. -/
  | ed448Verify (dt : Nat) (core : Nat)
  /-- X25519 (R301). A PKE job computes an X25519 shared secret. -/
  | x25519 (dt : Nat) (core : Nat)
  /-- X448 (R301). A PKE job computes an X448 shared secret. -/
  | x448 (dt : Nat) (core : Nat)
  /-- ECDSA_SIGN (R297). A PKE job signs a digest with ECDSA using a hedged nonce. -/
  | ecdsaSign (dt : Nat) (core : Nat)
  /-- ECDSA_VERIFY (R301). A PKE job verifies an ECDSA signature. -/
  | ecdsaVerify (dt : Nat) (core : Nat)
  /-- ECDH (R301). A PKE job computes an ECDH shared x-coordinate. -/
  | ecdh (dt : Nat) (core : Nat)
  /-- RSA_PRIVATE (R304). A PKE job performs an RSA private operation with CRT and fault check. -/
  | rsaPrivate (dt : Nat) (core : Nat)
  /-- RSA_PUBLIC (R302). A PKE job performs an RSA public operation. -/
  | rsaPublic (dt : Nat) (core : Nat)
  /-- KEYGEN (R313). A PKE job generates a key into a key store slot. -/
  | keygen (dt : Nat) (core : Nat)
  /-- KEY_IMPORT (R316). A PKE job validates and loads a key into a slot. -/
  | keyImport (dt : Nat) (core : Nat)
  /-- KEY_WIPE (R316). A PKE job empties a slot and overwrites its flash copy. -/
  | keyWipe (dt : Nat)
  /-- KEY_PUBLIC (R316). A PKE job reads a slot's public key. -/
  | keyPublic (dt : Nat)
  /-- PKE_DISPATCH (R305). A queued job is dispatched to a free core in priority order. -/
  | pkeDispatch (dt : Nat) (core : Nat)
  /-- PKE_YIELD (R307). At a boundary a short job saves its state and yields to a higher-ranked queued job. -/
  | pkeYield (dt : Nat) (core : Nat)
  /-- PKE_JOB_AGED (R308). A job waiting more than AGE_MS becomes aged and moves ahead of its priority. -/
  | pkeJobAged (dt : Nat)
  /-- PKE_JOB_COMPLETE (R309). A job reaches its completion point, wipes its core, writes output and posts its completion. -/
  | pkeJobComplete (dt : Nat) (core : Nat) (wiped : Bool)
  /-- PKE_ABORT (R310). A guarded PKE.ABORT aborts every job carrying the named tag. -/
  | pkeAbort (dt : Nat) (src : Nat) (tag complement : Word)
  /-- KEYGEN_PROGRESS (R314). Every 100 ms and at each phase change an RSA KEYGEN writes its progress record. -/
  | keygenProgress (dt : Nat) (core phase tested : Nat)
  /-- DRBG_RESEED (R318). Every 1 ms the TRNG's DRBG is reseeded from full-entropy output. -/
  | drbgReseed (dt : Nat)
  /-- TRNG_SOURCE_FAIL (R319). A noise source fails a health test and becomes FAILED. -/
  | trngSourceFail (dt : Nat) (source : Nat) (repetition : Bool)
  /-- TRNG_SOURCE_RETEST (R319). One second after failing a source repeats its start-up test. -/
  | trngSourceRetest (dt : Nat) (source : Nat) (pass : Bool)
  /-- FENCE (R396). A guarded FENCE_CMD FENCE fences the named unit. -/
  | fence (dt : Nat) (src kind unit : Nat) (complement : Word)
  /-- RETURN (R396). A guarded FENCE_CMD RETURN starts the named fenced unit's self-test. -/
  | returnUnit (dt : Nat) (src kind unit : Nat) (complement : Word)
  /-- UNIT_SELFTEST_DONE (R396). A returning unit's self-test ends and it returns to service or stays fenced. -/
  | unitSelftestDone (dt : Nat) (kind unit : Nat) (pass : Bool)
  /-- KICK (R329). A write to BAR2 triggers a doorbell read within 200 ns. -/
  | kick (dt : Nat)
  /-- DOORBELL_READ_DONE (R328). A doorbell read completes or fails and rings fetch newly announced descriptors. -/
  | doorbellReadDone (dt : Nat) (words : Option (List DoorbellWord))
  /-- HOST_FRAME_TX (R336). A TX_FRAME descriptor is checked and its frame sent on the preemptable MAC. -/
  | hostFrameTx (dt : Nat) (ring : Nat) (data : Option Bytes)
  /-- HOST_FRAME_TIMEOUT (R336). A host frame not started within 100 ms of fetch completes with TX_TIMEOUT. -/
  | hostFrameTimeout (dt : Nat)
  /-- RECORD_FLUSH (R338). An RX_RECORD buffer completes when FLUSH has passed since its first record. -/
  | recordFlush (dt : Nat) (ring : Nat)
  /-- XFER (R340). An XFER descriptor copies a span between host memory and a module region. -/
  | xfer (dt : Nat) (ring : Nat) (data : Bytes) (readOk : Bool) (checked : Option Bool)
  /-- VECTOR_TIMER (R343). A vector's TIME elapses since its first pending item and its MSI-X message is sent. -/
  | vectorTimer (dt : Nat) (vector : Nat)
  /-- BLOCK_EVENT_COALESCE (R342). At the end of 100 µs after a BLOCK_EVENT record, bits set meanwhile are reported in one
    record. -/
  | blockEventCoalesce (dt : Nat)
  /-- RING_QUIESCED (R346). A quiescing ring's last completion is posted and it enters OFF. -/
  | ringQuiesced (dt : Nat) (ring : Nat)
  /-- HOST_DETACH (R347). A link down, reset, FLR, PERST# or D3hot stops all rings and host work and is journalled. -/
  | hostDetach (dt : Nat) (cause : Nat)
  /-- PCIE_LINK_UP (R325). The PCIe link reaches L0 and presents the function. -/
  | pcieLinkUp (dt : Nat) (speed width : Nat)
  /-- PCIE_RETRAIN (R325). Every 10 s without L0 the module retries link training. -/
  | pcieRetrain (dt : Nat)
  /-- JOURNAL_FLASH_WRITE (R389). Persistent journal record kinds are written to the flash journal within 1 s. -/
  | journalFlashWrite (dt : Nat)
  /-- SESSION_OPEN (R381). A TLS 1.3 connection on port MP authenticates a client and opens a session. -/
  | sessionOpen (dt : Nat) (fingerprint : Bytes) (proof : Bool) (issuers : List Bytes) (notBefore notAfter : Int)
  /-- SESSION_IDLE (R382). 300 s without a client message ends a session. -/
  | sessionIdle (dt : Nat) (session : Nat)
  /-- SESSION_CLOSED (R382). A TCP close or TLS alert ends a session and discards its pair, view and streams. -/
  | sessionClosed (dt : Nat) (session : Nat) (alert : Bool)
  /-- HELLO (R384). A HELLO message starts a session and returns identity and bank. -/
  | celenHello (dt : Nat) (session type : Nat) (msg : MpMsg)
  /-- READ (R384). A READ message returns consecutive register words. -/
  | celenRead (dt : Nat) (session : Nat) (msg : MpMsg)
  /-- WRITE (R384). A WRITE message writes consecutive register words in ascending order. -/
  | celenWrite (dt : Nat) (session : Nat) (msg : MpMsg)
  /-- READ64 (R384). A READ64 message reads one counter pair atomically. -/
  | celenRead64 (dt : Nat) (session : Nat) (msg : MpMsg)
  /-- SUBSCRIBE (R384). A SUBSCRIBE message starts EVENT and JOURNAL streams for the session. -/
  | celenSubscribe (dt : Nat) (session : Nat) (msg : MpMsg)
  /-- UNSUBSCRIBE (R384). An UNSUBSCRIBE message ends the session's streams. -/
  | celenUnsubscribe (dt : Nat) (session : Nat) (msg : MpMsg)
  /-- JOURNAL_READ (R384). A JOURNAL_READ message returns journal records from a SEQ. -/
  | journalRead (dt : Nat) (session : Nat) (msg : MpMsg)
  /-- STAGE (R384). A STAGE message transfers data to or from a module region as an XFER would. -/
  | celenStage (dt : Nat) (session : Nat) (msg : MpMsg) (checked : Option Bool)
  /-- NET (R384). A NET message sets MP addressing, applied when the session ends. -/
  | celenNet (dt : Nat) (session : Nat) (msg : MpMsg)
  /-- TRUST (R384). A TRUST message sets the trusted-issuer list for later sessions. -/
  | celenTrust (dt : Nat) (session : Nat) (msg : MpMsg)
  /-- BYE (R384). A BYE message ends the session. -/
  | celenBye (dt : Nat) (session : Nat) (msg : MpMsg)
  /-- INPUT_QUALIFIED (R458). A supply input meeting its condition for 100 ms becomes qualified. -/
  | inputQualified (dt : Nat) (input : Nat) (sense : PowerSense)
  /-- INPUT_LOST (R458). A supply input meets its lost condition and loses qualification. -/
  | inputLost (dt : Nat) (input : Nat) (sense : PowerSense)
  /-- MAIN_POWER_LOST (R460). Loss of all main inputs leads within the hold-up to keep-alive mode or securing the cistern. -/
  | mainPowerLost (dt : Nat)
  /-- KA_LOST (R460). Loss of KA in keep-alive mode invalidates the timescale region and falls to PD0 retention. -/
  | kaLost (dt : Nat)
  /-- POWER_START (R465). Main power qualifying after loss begins start-up at step 1. -/
  | powerStart (dt : Nat) (steps : List StepObs)
  /-- STEP_TIMEOUT (R465). A start-up step exceeding its limit fails with TIMEOUT. -/
  | stepTimeout (dt : Nat) (steps : List StepObs)
  /-- SAFE_HOLD_RETRY (R471). Every 60 s in safe hold, except thermal hold, a new start begins at step 1. -/
  | safeHoldRetry (dt : Nat) (steps : List StepObs)
  /-- STABILITY_REACHED (R468). STABLE seconds after step 12 without reset the start is stable and the copy becomes last-
    known-good. -/
  | stabilityReached (dt : Nat)
  /-- FULL (R472). A guarded FULL to PWR.RESET_CMD restarts the module at step 1 after 10 ms. -/
  | resetFull (dt : Nat) (src : Nat) (complement : Word) (acts : Option (List StepObs))
  /-- MGMT (R473). A guarded MGMT to PWR.RESET_CMD restarts only the management controller. -/
  | resetMgmt (dt : Nat) (src : Nat) (complement : Word) (ends : Option (List Bool))
  /-- WATCHDOG (R472). The management controller's watchdog causes a MGMT reset. -/
  | watchdog (dt : Nat) (ends : Option (List Bool))
  /-- SUPERVISOR_SILENT (R472). A domain supervisor silent for 1 s causes a FULL reset. -/
  | supervisorSilent (dt : Nat) (steps : List StepObs)
  /-- THERM_WARN (R464). The junction reaching THERM_WARN raises THERM_WARN. -/
  | thermWarn (dt : Nat) (sense : PowerSense)
  /-- THERMAL_HOLD (R464). The junction reaching 115 °C enters thermal hold. -/
  | thermalHold (dt : Nat) (sense : PowerSense)
  /-- THERMAL_RECOVER (R464). The junction below 95 °C for 60 s ends thermal hold with a FULL start. -/
  | thermalRecover (dt : Nat) (sense : PowerSense) (steps : List StepObs)
  /-- STORE (R469). A guarded BOOT.CMD STORE captures live configuration into the current copy in flash. -/
  | bootStore (dt : Nat) (src : Nat) (complement : Word) (ends : Option Bool)
  /-- CLEAR (R477). A guarded BOOT.CMD CLEAR zeroes attempt counts, failures and FAILED_STARTS. -/
  | bootClear (dt : Nat) (src : Nat) (complement : Word)
  /-- RETRAIN (R477). A guarded BOOT.CMD RETRAIN clears DDR_CONSERVATIVE. -/
  | bootRetrain (dt : Nat) (src : Nat) (complement : Word)
  /-- ALARM_CONDITION_CHANGE (R442). A selected alarm condition arising opens its contact within 20 ms. -/
  | alarmConditionChange (dt : Nat)
  /-- ALARM_CLOSE_TIMER (R442). One second after the last selected condition ends the alarm contact closes. -/
  | alarmCloseTimer (dt : Nat) (contact : Nat)
  /-- NO_SELECTION_TIMER (R442). REF.STATUS.SEL reading 0xFF for 2 s raises alarm condition bit 2. -/
  | noSelectionTimer (dt : Nat)
  /-- CAS_LINK_TICK (R408). At each of 64 ticks per second a LINK frame is booked per UP lane and the position chosen. -/
  | casLinkTick (dt : Nat)
  /-- LINK_FRAME_RX (R407). A received LINK frame updates the lane's offer, roles, subtree values and transfer pairs. -/
  | linkFrameRx (dt : Nat) (lane : Nat) (frame : Bytes) (ago fecUncorr : Nat)
  /-- OP_REQ_RX (R422). An OP_REQ is forwarded upstream or issued or refused at the ridge. -/
  | opReqRx (dt : Nat) (lane : Nat) (frame : Bytes)
  /-- OP_RX (R423). An OP is forwarded downstream and a one-shot entry created at its T or marked LATE. -/
  | opRx (dt : Nat) (lane : Nat) (frame : Bytes)
  /-- BARRIER (R421). A BARRIER operation executes at T and raises BARRIER. -/
  | casBarrier (dt : Nat)
  /-- BROADCAST (R421). A BROADCAST operation copies its data into BCAST at T. -/
  | casBroadcast (dt : Nat)
  /-- SNAPSHOT (R497). A SNAPSHOT operation latches the TSC snapshot and running totals into the SNAP bank at T. -/
  | casSnapshot (dt : Nat)
  /-- SERVICE_RESET (R425). A SERVICE_RESET at T closes the receipt window, empties the client table and clears service
    counters. -/
  | serviceReset (dt : Nat)
  /-- RESULT_RX (R426). A RESULT from a recorded child is aggregated into the module's result. -/
  | resultRx (dt : Nat) (lane : Nat) (frame : Bytes)
  /-- RESULT_DEADLINE (R426). At T + GATHER + SUB_DELAY a module sends its RESULT with missing children counted. -/
  | resultDeadline (dt : Nat)
  /-- DONE_RX (R427). A DONE is forwarded downstream and updates OP_RESULT for the requester. -/
  | doneRx (dt : Nat) (lane : Nat) (frame : Bytes)
  /-- REQUEST_TIMEOUT (R427). A request without OP or DONE in time ends INCOMPLETE or NO_RIDGE. -/
  | requestTimeout (dt : Nat)
  /-- THETA_LO_LANE_READ (R430). A full-width read of CMAC lane THETA_LO latches its measurement words. -/
  | thetaLoLaneRead (dt : Nat) (src lane : Nat)
  /-- OP_RESULT0_READ (R431). A full-width read of CAS.OP_RESULT0 latches OP_RESULT1–11. -/
  | opResult0Read (dt : Nat) (src : Nat)
  /-- TALLY_SEL (R498). A write to TALLY_SEL latches a bank entry's value and address. -/
  | tallySel (dt : Nat) (src : Nat) (value : Word)
  /-- STOLEN_CLEAR (R500). A CM write to STOLEN0 or STOLEN1 clears bits in the writer's stolen-count view. -/
  | stolenClear (dt : Nat) (src word : Nat) (value : Word)
  /-- SAMPLE_INDEX (R504). A write to SAMPLE_INDEX copies a sample slot into SAMPLE_READ. -/
  | sampleIndex (dt : Nat) (src : Nat) (value : Word)
  /-- GRANT_UNICAST_TRANSMISSION_RX (R266). A GRANT or ACKNOWLEDGE_CANCEL unicast-negotiation TLV from a foreign master
    reaches a unicast slave instance, which takes up the grant or goes UNCALIBRATED when the grant is denied. -/
  | grantUnicastTransmissionRx (dt : Nat)
  /-- PREEMPTABLE_FRAME_SENT (R336). The tailrace starts a queued preemptable frame when line time is free, and on its last
    byte a host frame posts its completion. -/
  | preemptableFrameSent (dt : Nat) (link : Nat) (last : Bool)
  /-- SIGNAL_ACQUIRED (R133). A GNSS channel finds its signal above the acquisition threshold, pulls in and reaches tracking
    or bit synchronisation, or re-acquires after an outage. -/
  | signalAcquired (dt : Nat) (side chan cn0 state : Nat)
  /-- KEEPER_FAULT (R126). The keeper OCXO's oven current leaves its range and HOL.EVENT.KEEPER_FAULT is raised. -/
  | keeperFault (dt : Nat)
  deriving DecidableEq, Repr

end Sys2Proof
end

