-- ==== Sys2Proof/Decode.lean ====
section
/-!
DEFINITION. Commands spelled by words: spec/opcode_table.json gives none of its rows bits, so no word spells a command.
-/

namespace Sys2Proof

/-- The command that a word of `nbits` bits spells. -/
def decodeTableWord (_nbits _w : Nat) : Option Instr := none

end Sys2Proof
end

