-- ==== Sys2Proof/Config.lean ====
section
/-!
DEFINITION. What an implementation fixes and what the manual leaves open, as constants without a body: nothing in Lean
can evaluate one or prove a value of one, so a statement holds for every value they may have (notes/assumptions).
-/

namespace Sys2Proof.Config

/-- The factory part of a register's reset value, by BAR0 offset (every field whose reset is "Factory" or "From bank"). -/
opaque factory (addr : Nat) : Word

/-- FREE VALUES: the n-th value drawn where the manual calls a value undefined or states none. -/
opaque freeValue (n : Nat) : Nat

/-- The rounding of an inexact quotient `num / den` where the manual states none: true rounds up, false down. -/
opaque roundsUp (num : Int) (den : Nat) : Bool

/-- What the FREQ-IN of a pair adds to the loop's frequency state over one tick, in 10^-42 of 2^-48: R64 says that the FREQ-IN gives
the frequency and leaves open how. From the bandwidth in microhertz, the phase error in ps and the frequency offset in 10^-15. -/
opaque pairFrequency (bandwidth : Nat) (phi : Int) (freq : Option Int) : Int

/-- The OUTCOME of the journal record of a distrust, which names the statistic that fired (R89); R388 gives no code. 0 for a
consistency alarm, 1 for the phase statistic, 2 for the frequency statistic, 3 for both. -/
opaque statisticCode (which : Nat) : Nat

/-- The weight of a range by its satellite's elevation in degrees (R141), less 1, in 10^-12 of 1/ps^2. -/
opaque elevationWeight (elev : Nat) : Nat

/-- The delay of a range in ps through the standard atmosphere (R141): elevation, antenna position in cm. -/
opaque troposphere (elev : Nat) (point : Int × Int × Int) : Int

/-- The delay of a single-frequency range in ps by the broadcast ionospheric model (R141): constellation, its parameters (none where
none was received), signal, elevation, azimuth, antenna position in cm, TAI second. -/
opaque broadcastIono (system : Nat) (par : Option Bytes) (signal elev azim : Nat) (point : Int × Int × Int) (sec : Nat) : Int

/-- The clock of the combined solution, from the clocks of the constellations in ps (R148), which the manual does not state. -/
opaque combinedClock (own : List (Option Int)) : Int

/-- The code of an unplanned (true) or planned handover in an OSCILLATOR journal record, which R388 does not state. -/
opaque handoverCode (unplanned : Bool) : Byte

/-- The code of a step's source in a TIMESCALE journal record, which R388 does not state; true for a host step. -/
opaque stepSourceCode (host : Bool) : Byte

/-- The raw sample byte that capture `n` left at offset `a` of the snapshot region: what the antennas received. -/
opaque capturedByte (n a : Nat) : Byte

/-- The phase of a link's slot grid against the timescale, in ps, after the given lock (R207: fixed while the link stays locked,
not stated). -/
opaque gridPhase (sl lock : Nat) : Nat

/-- The phase of a link's alignment markers against the timescale, in ps, after the given lock (R207: neither reported nor
fixed). -/
opaque markerPhase (sl lock : Nat) : Nat

/-- The code of a rotation (0), a purge (1) or a loss (2) in a SERVICE_KEY journal record, which R388 does not state. -/
opaque serviceKeyCode (what : Nat) : Byte

/-- The originTimestamp of an Announce composed at an instant, which the manual does not state (seconds and ns as one number). -/
opaque announceOrigin (stamp : Nat) : Nat

/-- The MAC address of the next hop toward an IP address, for a frame that answers no received one: the manual does not say how a
unicast slave finds it. -/
opaque nextHopMac (ip : Nat) : Nat

/-- The QL of a SyncE output where no row of R269 applies: SSM and enhanced code. -/
opaque unstatedQl (option2 : Bool) : Nat × Nat

/-- A prime that FIPS 186-5 accepts, of a number of bits with its top two bits set, from a drawn value (R313): which one is the
TRNG's. -/
opaque prime (bits draw : Nat) : Nat

/-- The test value of an RSA KEY_IMPORT (R316), which the manual does not state. -/
opaque rsaTest (n : Nat) : Nat

/-- Roughtime revisions 08 to 12, which the manual names without giving them (R292): the hash of a leaf from the request's
payload, of a node, the signed bytes of a response (root, midpoint as twice the instant in 2^-16 ns of UTC, radius as twice the
span's half in 2^-16 ns plus the window's radius in ps), the delegation bytes (public key, MINT, MAXT), and the response from the
request, signed bytes, signature, public key, MINT, MAXT, delegation signature, index and path. -/
opaque rtLeaf (rev : Nat) (request : Bytes) : Bytes
opaque rtNode (rev : Nat) (left right : Bytes) : Bytes
opaque rtSigned (rev : Nat) (root : Bytes) (midpoint : Int) (span rho : Nat) : Bytes
opaque rtDele (rev : Nat) (pub : Bytes) (mint maxt : Nat) : Bytes
opaque rtResponse (rev : Nat) (request signed sig pub : Bytes) (mint maxt : Nat) (dele : Bytes) (index : Nat) (path : List Bytes) : Bytes

/-- The body of a journal record whose content R388 does not state: a TRNG failure (0), a lost key store (1), MP settings (2), the
trusted-issuer list (3). -/
opaque journalBody (what : Nat) : Bytes

/-- Core cycles that R302 does not give: the expected duration of an RSA KEYGEN of `nwords` that R313 does not name, and those of a
KEY_IMPORT. -/
opaque keygenCycles (nwords : Nat) : Nat
opaque importCycles (alg nwords : Nat) : Nat

/-- OUTCOME and DETAIL of a sample record for a drop that R503 does not list: a Roughtime request that is not admitted, with the
status an Etxel request would have been refused with (R292). -/
opaque unlistedOutcome (status : Nat) : Nat × Nat

/-- The outward delay in ns of a Peorel lane that has no measurement yet (R415). -/
opaque laneDelay (lane : Nat) : Nat

/-- MIN and MAX of an operation at which no module executed (R410). -/
opaque emptyMin : Int
opaque emptyMax : Int

/-- KIND of the journal record of MP settings (0) and of the trusted-issuer list (1), which R388 does not name. -/
opaque settingsKind (what : Nat) : Nat

/-- The Nimzal release key fused into the ASIC (R479). -/
opaque releaseKey : Bytes

/-- The detach cause (0 link down, 1 hot reset, 2 FLR, 3 PERST#, 4 D3hot) and the new link state as a HOST journal record codes them,
which R388 does not state. -/
opaque detachCause (cause : Nat) : Byte
opaque detachState : Byte

/-- The TYPE of an ERROR message of the management protocol, which R383 and R384 do not state. -/
opaque errorType : Nat

end Sys2Proof.Config
end

