-- ==== Sys2Proof/Machine/Bits.lean ====
section
/-!
DEFINITION. Bit fields of words, byte order of records, sparse storage in canonical form, and exact arithmetic with
explicit rounding: the plain helpers that every unit's meaning uses.
-/

namespace Sys2Proof.Machine

/-- Bits `lo` to `lo + n - 1` of a word. -/
def fld (w : Word) (lo n : Nat) : Nat := (w.toNat >>> lo) % 2 ^ n

/-- Two's complement reading of the low `n` bits of a number. -/
def signed (v n : Nat) : Int := if 2 * (v % 2 ^ n) < 2 ^ n then ((v % 2 ^ n : Nat) : Int) else ((v % 2 ^ n : Nat) : Int) - (2 : Int) ^ n

/-- The signed field at bits `lo` to `lo + n - 1`. -/
def sfld (w : Word) (lo n : Nat) : Int := signed (fld w lo n) n

/-- One bit of a word. -/
def bitOf (w : Word) (i : Nat) : Bool := w.toNat.testBit i

/-- A word with bits `lo` to `lo + n - 1` replaced by the low bits of `v`. -/
def putFld (w : Word) (lo n v : Nat) : Word :=
  (w &&& ~~~(word (2 ^ n - 1) <<< lo)) ||| ((word v &&& word (2 ^ n - 1)) <<< lo)

/-- The two's complement code of a signed number in `n` bits. -/
def unsigned (i : Int) (n : Nat) : Nat := (i % (2 : Int) ^ n).toNat

/-- A number as a bit. -/
def b2n (b : Bool) : Nat := if b then 1 else 0

/-- Clamping of a signed number. -/
def clamp (lo hi x : Int) : Int := if x < lo then lo else if hi < x then hi else x

/-- A signed number saturated into 32 bits at plus and minus 2^31 - 1 (R57). -/
def sat32 (x : Int) : Word := wordOfInt (clamp (-2147483647) 2147483647 x)

/-- An unsigned number saturated into 32 bits. -/
def satU32 (x : Nat) : Word := word (min x 0xFFFFFFFF)

/-- The exact quotient where there is one, else one of its two neighbours, as `Config.roundsUp` has it: the manual states
no rounding for it. -/
def qdiv (num : Int) (den : Nat) : Int :=
  if den = 0 then 0
  else if num % (den : Int) = 0 then num / (den : Int)
  else if Config.roundsUp num den then num / (den : Int) + 1 else num / (den : Int)

/-- Rounding up of a quotient of natural numbers. -/
def ceilDiv (n d : Nat) : Nat := if d = 0 then 0 else (n + d - 1) / d

/-- The integer square root, rounded down. -/
def isqrt (n : Nat) : Nat := Nat.sqrt n

/-! ### Byte order -/

/-- `n` bytes, little-endian. -/
def le (n v : Nat) : Bytes := (List.range n).map (fun i => byte (v >>> (8 * i)))

/-- `n` bytes, network byte order. -/
def be (n v : Nat) : Bytes := (le n v).reverse

/-- The number that little-endian bytes spell. -/
def ofLe : Bytes → Nat
  | [] => 0
  | b :: t => b.toNat + 256 * ofLe t

/-- The number that network-order bytes spell. -/
def ofBe (b : Bytes) : Nat := b.foldl (fun n x => 256 * n + x.toNat) 0

/-- Bytes `off` to `off + n - 1`, zero beyond the end. -/
def slice (b : Bytes) (off n : Nat) : Bytes :=
  let t := (b.drop off).take n
  t ++ List.replicate (n - t.length) 0

/-- A little-endian field of a record. -/
def leAt (b : Bytes) (off n : Nat) : Nat := ofLe (slice b off n)

/-- A network-order field of a frame. -/
def beAt (b : Bytes) (off n : Nat) : Nat := ofBe (slice b off n)

/-- Bytes with `d` written at offset `off`. -/
def patch (b : Bytes) (off : Nat) (d : Bytes) : Bytes := slice b 0 off ++ d ++ b.drop (off + d.length)

/-- `n` zero bytes. -/
def zeros (n : Nat) : Bytes := List.replicate n 0

/-- One byte through a reflected 32-bit CRC. -/
def crcByte (poly : Nat) (c : Nat) (b : Byte) : Nat :=
  (List.range 8).foldl (fun x _ => if x % 2 = 1 then (x / 2) ^^^ poly else x / 2) (c ^^^ b.toNat)

/-- A reflected 32-bit CRC with all-ones start and final complement. -/
def crc32With (poly : Nat) (d : Bytes) : Nat := (d.foldl (crcByte poly) 0xFFFFFFFF) ^^^ 0xFFFFFFFF

/-- CRC-32, in the parameters of IEEE 802.3 (PRESUMED: the manual names it without them). -/
def crc32 (d : Bytes) : Nat := crc32With 0xEDB88320 d

/-! ### Sparse storage -/

namespace CellList

variable {β : Type}

/-- What a key reads as: its entry, or the default where it is not listed. -/
def get (d : Nat → β) : List (Nat × β) → Nat → β
  | [], a => d a
  | (k, v) :: t, a => if a = k then v else get d t a

/-- Insertion of an entry into a list with rising keys. -/
def insert (a : Nat) (v : β) : List (Nat × β) → List (Nat × β)
  | [] => [(a, v)]
  | (k, w) :: t => if a < k then (a, v) :: (k, w) :: t else if a = k then (a, v) :: t else (k, w) :: insert a v t

/-- Removal of a key. -/
def erase (a : Nat) : List (Nat × β) → List (Nat × β)
  | [] => []
  | (k, w) :: t => if a = k then t else (k, w) :: erase a t

/-- Writing a key: an entry equal to the default is not kept. -/
def set [DecidableEq β] (d : Nat → β) (l : List (Nat × β)) (a : Nat) (v : β) : List (Nat × β) :=
  if v = d a then erase a l else insert a v l

/-- The keys rise strictly: each is listed once, in order. -/
def rising (l : List (Nat × β)) : Bool := decide (l.Pairwise (fun x y => x.1 < y.1))

/-- The canonical form: keys strictly rising, no entry equal to the default. -/
def wf [DecidableEq β] (d : Nat → β) (l : List (Nat × β)) : Bool :=
  l.all (fun e => decide (e.2 ≠ d e.1)) && decide (l.Pairwise (fun x y => x.1 < y.1))

end CellList

/-- Changing one element of a list, nothing where there is none. -/
def modAt {α : Type} (l : List α) (i : Nat) (f : α → α) : List α :=
  match l, i with
  | [], _ => []
  | x :: t, 0 => f x :: t
  | x :: t, i + 1 => x :: modAt t i f

/-- The indices below `n` that satisfy a test, rising. -/
def indices (n : Nat) (p : Nat → Bool) : List Nat := (List.range n).filter p

end Sys2Proof.Machine
end

