-- ==== Sys2Proof/Machine/Addr.lean ====
section
/-!
DEFINITION. The BAR0 byte offsets of the manual's registers, by name: block, page and register.
An argument is the index of a page or of an array word; a service link SL names a link page of its MAC complex (R183).
-/

namespace Sys2Proof.Machine.A

abbrev tscState : Nat := 0x10000
abbrev tscEvent : Nat := 0x10004
abbrev tscStaleAck : Nat := 0x10008
abbrev tscNowSecLo : Nat := 0x10010
abbrev tscNowSecHi : Nat := 0x10014
abbrev tscNowNs : Nat := 0x10018
abbrev tscNowFrac : Nat := 0x1001c
abbrev tscSnapState : Nat := 0x10020
abbrev tscSnapRadius : Nat := 0x10024
abbrev tscSnapPhase : Nat := 0x10028
abbrev tscSnapSlew : Nat := 0x1002c
abbrev tscFreqCorr : Nat := 0x10030
abbrev tscStepCtl : Nat := 0x10040
abbrev tscStepThreshold : Nat := 0x10044
abbrev tscSlewMax : Nat := 0x10048
abbrev tscLockPhase : Nat := 0x1004c
abbrev tscLockHold : Nat := 0x10050
abbrev tscUnlockPhase : Nat := 0x10054
abbrev tscRadiusFix : Nat := 0x10058
abbrev tscCalHostMax : Nat := 0x1005c
abbrev tscStepSeq : Nat := 0x10060
abbrev tscStepStale : Nat := 0x10064
abbrev tscStepOffsetLo : Nat := 0x10068
abbrev tscStepOffsetHi : Nat := 0x1006c
abbrev tscStepApprove : Nat := 0x10070
abbrev tscHostStepLo : Nat := 0x10078
abbrev tscHostStepHi : Nat := 0x1007c
abbrev tscLeapCur : Nat := 0x10100
abbrev tscLeapLearnt (i : Nat) : Nat := 0x10180 + 0x4 * i
abbrev tscLeapTable (i : Nat) : Nat := 0x10200 + 0x4 * i
abbrev tscCalW (i : Nat) : Nat := 0x10500 + 0x4 * i
abbrev tscCalCmd : Nat := 0x10520
abbrev tscCalResult : Nat := 0x10524
abbrev tscCalIndex : Nat := 0x10528
abbrev tscCalRead (i : Nat) : Nat := 0x10540 + 0x4 * i
abbrev tscCalUsed : Nat := 0x10560
abbrev tscCalSkipped : Nat := 0x10568
abbrev tscCalLate : Nat := 0x1056c
abbrev refStatus : Nat := 0x14000
abbrev refEvent : Nat := 0x14004
abbrev refStaleAck : Nat := 0x14008
abbrev refCtl : Nat := 0x14010
abbrev refTolPhase : Nat := 0x14014
abbrev refTolFreq : Nat := 0x14018
abbrev refCusumHPhase : Nat := 0x1401c
abbrev refCusumHFreq : Nat := 0x14020
abbrev refCusumSpan : Nat := 0x14024
abbrev refWtr : Nat := 0x14028
abbrev refDistrustHold : Nat := 0x1402c
abbrev refQcontact : Nat := 0x14030
abbrev refTodCfg : Nat := 0x14034
abbrev refMqPbound (i : Nat) : Nat := 0x14040 + 0x4 * i
abbrev refMqFbound (i : Nat) : Nat := 0x14060 + 0x4 * i
abbrev refForce : Nat := 0x14080
abbrev refClearDistrust : Nat := 0x14088
abbrev refBuildout : Nat := 0x14090
abbrev refSwitchCount : Nat := 0x14094
abbrev refQcontactState : Nat := 0x14098
abbrev refInCfg (i : Nat) : Nat := 0x15000 + 0x100 * i
abbrev refInBw (i : Nat) : Nat := 0x15004 + 0x100 * i
abbrev refInDelay (i : Nat) : Nat := 0x15008 + 0x100 * i
abbrev refInPathUnc (i : Nat) : Nat := 0x1500c + 0x100 * i
abbrev refInQualTime (i : Nat) : Nat := 0x15010 + 0x100 * i
abbrev refInNominal (i : Nat) : Nat := 0x15014 + 0x100 * i
abbrev refInState (i : Nat) : Nat := 0x15020 + 0x100 * i
abbrev refInEvent (i : Nat) : Nat := 0x15024 + 0x100 * i
abbrev refInOffsetLo (i : Nat) : Nat := 0x15028 + 0x100 * i
abbrev refInOffsetHi (i : Nat) : Nat := 0x1502c + 0x100 * i
abbrev refInResid (i : Nat) : Nat := 0x15030 + 0x100 * i
abbrev refInFresid (i : Nat) : Nat := 0x15034 + 0x100 * i
abbrev refInSigma (i : Nat) : Nat := 0x15038 + 0x100 * i
abbrev refInCusumP (i : Nat) : Nat := 0x1503c + 0x100 * i
abbrev refInCusumF (i : Nat) : Nat := 0x15040 + 0x100 * i
abbrev refInTimer (i : Nat) : Nat := 0x15044 + 0x100 * i
abbrev refInRhoRef (i : Nat) : Nat := 0x15048 + 0x100 * i
abbrev refInLosCount (i : Nat) : Nat := 0x15050 + 0x100 * i
abbrev refInDistrustCount (i : Nat) : Nat := 0x15054 + 0x100 * i
abbrev refInQfailCount (i : Nat) : Nat := 0x15058 + 0x100 * i
abbrev holStatus : Nat := 0x18000
abbrev holEvent : Nat := 0x18004
abbrev holStaleAck : Nat := 0x18008
abbrev holCtl : Nat := 0x18010
abbrev holLostRadius : Nat := 0x18014
abbrev holEntryAvg : Nat := 0x18018
abbrev holAgeSpan : Nat := 0x1801c
abbrev holModelMin : Nat := 0x18020
abbrev holCartMeas : Nat := 0x18024
abbrev holKaGnss : Nat := 0x18028
abbrev holCartCmd : Nat := 0x18030
abbrev holHoElapsed : Nat := 0x18040
abbrev holRho0 : Nat := 0x18044
abbrev holUy : Nat := 0x18048
abbrev holUa : Nat := 0x1804c
abbrev holUt : Nat := 0x18050
abbrev holAnchor : Nat := 0x18054
abbrev holAnchorCount : Nat := 0x18058
abbrev holTempKeeper : Nat := 0x18060
abbrev holTempCart : Nat := 0x18064
abbrev holCartDiff : Nat := 0x18068
abbrev holKmodel (i : Nat) : Nat := 0x18100 + 0x4 * i
abbrev holCmodel (i : Nat) : Nat := 0x18140 + 0x4 * i
abbrev holCartId : Nat := 0x18200
abbrev holCartSerialLo : Nat := 0x18204
abbrev holCartSerialHi : Nat := 0x18208
abbrev holCartTimer : Nat := 0x1820c
abbrev holCartFault : Nat := 0x18210
abbrev holSwapCount : Nat := 0x18214
abbrev holHandoverCount : Nat := 0x18218
abbrev gnsStatus : Nat := 0x20000
abbrev gnsEvent : Nat := 0x20004
abbrev gnsStaleAck : Nat := 0x20008
abbrev gnsCfg : Nat := 0x20010
abbrev gnsMask : Nat := 0x20014
abbrev gnsSolve : Nat := 0x20018
abbrev gnsCheckEn : Nat := 0x2001c
abbrev gnsXsigTol : Nat := 0x20020
abbrev gnsXconTol : Nat := 0x20024
abbrev gnsXantTol : Nat := 0x20028
abbrev gnsPosTol : Nat := 0x2002c
abbrev gnsJumpTol : Nat := 0x20030
abbrev gnsCn0High : Nat := 0x20034
abbrev gnsXclHold : Nat := 0x20038
abbrev gnsAlarmClear : Nat := 0x2003c
abbrev gnsSurveyTime : Nat := 0x20040
abbrev gnsSurveyAcc : Nat := 0x20044
abbrev gnsSurveyMax : Nat := 0x20048
abbrev gnsNavCfg : Nat := 0x2004c
abbrev gnsRfiCfg : Nat := 0x20050
abbrev gnsCmd : Nat := 0x20080
abbrev gnsProgAddrLo : Nat := 0x20084
abbrev gnsProgAddrHi : Nat := 0x20088
abbrev gnsBufAddrLo : Nat := 0x2008c
abbrev gnsBufAddrHi : Nat := 0x20090
abbrev gnsFixX : Nat := 0x20094
abbrev gnsFixY : Nat := 0x20098
abbrev gnsFixZ : Nat := 0x2009c
abbrev gnsFixSigma : Nat := 0x200a0
abbrev gnsSnapCfg : Nat := 0x200a4
abbrev gnsSnapAtSecLo : Nat := 0x200a8
abbrev gnsSnapAtSecHi : Nat := 0x200ac
abbrev gnsSnapAtNs : Nat := 0x200b0
abbrev gnsSnapPre : Nat := 0x200b4
abbrev gnsCmdResult : Nat := 0x200c0
abbrev gnsSnapStatus : Nat := 0x200c4
abbrev gnsNavCount : Nat := 0x200d0
abbrev gnsNavDrop : Nat := 0x200d4
abbrev gnsNavFail : Nat := 0x200d8
abbrev gnsBlockMap : Nat := 0x200dc
abbrev gnsSideStatus (i : Nat) : Nat := 0x21000 + 0x1000 * i
abbrev gnsSideEvent (i : Nat) : Nat := 0x21004 + 0x1000 * i
abbrev gnsSideStaleAck (i : Nat) : Nat := 0x21008 + 0x1000 * i
abbrev gnsSideAntCfg (i : Nat) : Nat := 0x21010 + 0x1000 * i
abbrev gnsSideDelayL1 (i : Nat) : Nat := 0x21014 + 0x1000 * i
abbrev gnsSideDelayL5 (i : Nat) : Nat := 0x21018 + 0x1000 * i
abbrev gnsSideRxdlyL1 (i : Nat) : Nat := 0x2101c + 0x1000 * i
abbrev gnsSideRxdlyL5 (i : Nat) : Nat := 0x21020 + 0x1000 * i
abbrev gnsSidePosX (i : Nat) : Nat := 0x21030 + 0x1000 * i
abbrev gnsSidePosY (i : Nat) : Nat := 0x21034 + 0x1000 * i
abbrev gnsSidePosZ (i : Nat) : Nat := 0x21038 + 0x1000 * i
abbrev gnsSidePosSigma (i : Nat) : Nat := 0x2103c + 0x1000 * i
abbrev gnsSideThetaLo (i : Nat) : Nat := 0x21040 + 0x1000 * i
abbrev gnsSideThetaHi (i : Nat) : Nat := 0x21044 + 0x1000 * i
abbrev gnsSideBound (i : Nat) : Nat := 0x21048 + 0x1000 * i
abbrev gnsSideTdop (i : Nat) : Nat := 0x2104c + 0x1000 * i
abbrev gnsSideSvUsed (i : Nat) : Nat := 0x21050 + 0x1000 * i
abbrev gnsSideAlarm (i : Nat) : Nat := 0x21054 + 0x1000 * i
abbrev gnsSideExcl (i : Nat) : Nat := 0x21058 + 0x1000 * i
abbrev gnsSideIntersys (i : Nat) (j : Nat) : Nat := 0x21060 + 0x1000 * i + 0x4 * j
abbrev gnsSideSurveyElapsed (i : Nat) : Nat := 0x21070 + 0x1000 * i
abbrev gnsSideSurveySigma (i : Nat) : Nat := 0x21074 + 0x1000 * i
abbrev gnsSideRfL1 (i : Nat) : Nat := 0x21080 + 0x1000 * i
abbrev gnsSideRfL5 (i : Nat) : Nat := 0x21084 + 0x1000 * i
abbrev gnsSideRfi (i : Nat) : Nat := 0x21088 + 0x1000 * i
abbrev gnsSideBias (i : Nat) : Nat := 0x2108c + 0x1000 * i
abbrev gnsSideSolutionCount (i : Nat) : Nat := 0x21090 + 0x1000 * i
abbrev gnsSideDiscardCount (i : Nat) : Nat := 0x21094 + 0x1000 * i
abbrev gnsSideAlarmCount (i : Nat) : Nat := 0x21098 + 0x1000 * i
abbrev gnsSideExclCount (i : Nat) : Nat := 0x2109c + 0x1000 * i
abbrev gnsSideChan (i : Nat) (j : Nat) : Nat := 0x21200 + 0x1000 * i + 0x4 * j
abbrev ttuStatus : Nat := 0x30000
abbrev ttuEvent : Nat := 0x30004
abbrev ttuStaleAck : Nat := 0x30008
abbrev ttuTagCfg : Nat := 0x30010
abbrev ttuMeasCfg : Nat := 0x30014
abbrev ttuCalCfg : Nat := 0x30018
abbrev ttuCalMask : Nat := 0x3001c
abbrev ttuTagLost : Nat := 0x30020
abbrev ttuMeasDrop : Nat := 0x30024
abbrev ttuChCfg (i : Nat) : Nat := 0x30100 + 0x40 * i
abbrev ttuChStore (i : Nat) : Nat := 0x30104 + 0x40 * i
abbrev ttuChLoop (i : Nat) : Nat := 0x30108 + 0x40 * i
abbrev ttuChIndly (i : Nat) : Nat := 0x3010c + 0x40 * i
abbrev ttuChTags (i : Nat) : Nat := 0x30110 + 0x40 * i
abbrev ttuChDeadtime (i : Nat) : Nat := 0x30118 + 0x40 * i
abbrev ttuChOverflow (i : Nat) : Nat := 0x3011c + 0x40 * i
abbrev ttuChCalofs (i : Nat) : Nat := 0x30120 + 0x40 * i
abbrev ttuChRate (i : Nat) : Nat := 0x30124 + 0x40 * i
abbrev ttuMpCtl (i : Nat) : Nat := 0x30800 + 0x40 * i
abbrev ttuMpStopMask (i : Nat) : Nat := 0x30804 + 0x40 * i
abbrev ttuMpPre (i : Nat) : Nat := 0x30808 + 0x40 * i
abbrev ttuMpPost (i : Nat) : Nat := 0x3080c + 0x40 * i
abbrev ttuMpTimeout (i : Nat) : Nat := 0x30810 + 0x40 * i
abbrev ttuMpPeriod (i : Nat) : Nat := 0x30814 + 0x40 * i
abbrev ttuMpOffset (i : Nat) : Nat := 0x30818 + 0x40 * i
abbrev ttuMpStatus (i : Nat) : Nat := 0x30820 + 0x40 * i
abbrev ttuMpMeasCount (i : Nat) : Nat := 0x30824 + 0x40 * i
abbrev ttuMpStray (i : Nat) : Nat := 0x30828 + 0x40 * i
abbrev ttuMpExcess (i : Nat) : Nat := 0x3082c + 0x40 * i
abbrev ttuMpStartDrop (i : Nat) : Nat := 0x30830 + 0x40 * i
abbrev ttuMpMissing (i : Nat) : Nat := 0x30834 + 0x40 * i
abbrev macStatus (c : Nat) : Nat := 0x40000 + 0x4000 * c
abbrev macEvent (c : Nat) : Nat := 0x40004 + 0x4000 * c
abbrev macStaleAck (c : Nat) : Nat := 0x40008 + 0x4000 * c
abbrev macPortCfg (c : Nat) : Nat := 0x40010 + 0x4000 * c
abbrev macMaxFrame (c : Nat) : Nat := 0x40014 + 0x4000 * c
abbrev macPauseLimit (c : Nat) : Nat := 0x40018 + 0x4000 * c
abbrev macSlotAgeMax (c : Nat) : Nat := 0x4001c + 0x4000 * c
abbrev macTailHorizon (c : Nat) : Nat := 0x40020 + 0x4000 * c
abbrev macCage (c : Nat) : Nat := 0x40030 + 0x4000 * c
abbrev macCageFault (c : Nat) : Nat := 0x40034 + 0x4000 * c
abbrev macLinkStatus (sl : Nat) : Nat := 0x40400 + 0x4000 * (sl / 4) + 0x400 * (sl % 4)
abbrev macLinkEvent (sl : Nat) : Nat := 0x40404 + 0x4000 * (sl / 4) + 0x400 * (sl % 4)
abbrev macLinkMacAddrLo (sl : Nat) : Nat := 0x40410 + 0x4000 * (sl / 4) + 0x400 * (sl % 4)
abbrev macLinkMacAddrHi (sl : Nat) : Nat := 0x40414 + 0x4000 * (sl / 4) + 0x400 * (sl % 4)
abbrev macLinkWeirHigh (sl : Nat) : Nat := 0x40418 + 0x4000 * (sl / 4) + 0x400 * (sl % 4)
abbrev macLinkWeirLow (sl : Nat) : Nat := 0x4041c + 0x4000 * (sl / 4) + 0x400 * (sl % 4)
abbrev macLinkPauseCfg (sl : Nat) : Nat := 0x40420 + 0x4000 * (sl / 4) + 0x400 * (sl % 4)
abbrev macLinkPreemptCfg (sl : Nat) : Nat := 0x40424 + 0x4000 * (sl / 4) + 0x400 * (sl % 4)
abbrev macLinkUserRxDly (sl : Nat) : Nat := 0x40430 + 0x4000 * (sl / 4) + 0x400 * (sl % 4)
abbrev macLinkUserTxDly (sl : Nat) : Nat := 0x40434 + 0x4000 * (sl / 4) + 0x400 * (sl % 4)
abbrev macLinkRxFixed (sl : Nat) : Nat := 0x40438 + 0x4000 * (sl / 4) + 0x400 * (sl % 4)
abbrev macLinkTxFixed (sl : Nat) : Nat := 0x4043c + 0x4000 * (sl / 4) + 0x400 * (sl % 4)
abbrev macLinkRxDyn (sl : Nat) : Nat := 0x40440 + 0x4000 * (sl / 4) + 0x400 * (sl % 4)
abbrev macLinkTxDyn (sl : Nat) : Nat := 0x40444 + 0x4000 * (sl / 4) + 0x400 * (sl % 4)
abbrev macLinkProbeCtl (sl : Nat) : Nat := 0x40448 + 0x4000 * (sl / 4) + 0x400 * (sl % 4)
abbrev macLinkProbeResult (sl : Nat) : Nat := 0x4044c + 0x4000 * (sl / 4) + 0x400 * (sl % 4)
abbrev macLinkBufOcc (sl : Nat) : Nat := 0x40450 + 0x4000 * (sl / 4) + 0x400 * (sl % 4)
abbrev macLinkPauseHeld (sl : Nat) : Nat := 0x40454 + 0x4000 * (sl / 4) + 0x400 * (sl % 4)
abbrev macLinkRxFrames (sl : Nat) : Nat := 0x40500 + 0x4000 * (sl / 4) + 0x400 * (sl % 4)
abbrev macLinkRxOctets (sl : Nat) : Nat := 0x40508 + 0x4000 * (sl / 4) + 0x400 * (sl % 4)
abbrev macLinkTxFrames (sl : Nat) : Nat := 0x40510 + 0x4000 * (sl / 4) + 0x400 * (sl % 4)
abbrev macLinkTxOctets (sl : Nat) : Nat := 0x40518 + 0x4000 * (sl / 4) + 0x400 * (sl % 4)
abbrev macLinkRxToPipe (sl : Nat) : Nat := 0x40520 + 0x4000 * (sl / 4) + 0x400 * (sl % 4)
abbrev macLinkRxToHost (sl : Nat) : Nat := 0x40528 + 0x4000 * (sl / 4) + 0x400 * (sl % 4)
abbrev macLinkTxHost (sl : Nat) : Nat := 0x40530 + 0x4000 * (sl / 4) + 0x400 * (sl % 4)
abbrev macLinkFecCorrCw (sl : Nat) : Nat := 0x40538 + 0x4000 * (sl / 4) + 0x400 * (sl % 4)
abbrev macLinkRunt (sl : Nat) : Nat := 0x40540 + 0x4000 * (sl / 4) + 0x400 * (sl % 4)
abbrev macLinkOversize (sl : Nat) : Nat := 0x40544 + 0x4000 * (sl / 4) + 0x400 * (sl % 4)
abbrev macLinkPhyErr (sl : Nat) : Nat := 0x40548 + 0x4000 * (sl / 4) + 0x400 * (sl % 4)
abbrev macLinkFcsErr (sl : Nat) : Nat := 0x4054c + 0x4000 * (sl / 4) + 0x400 * (sl % 4)
abbrev macLinkFullDrop (sl : Nat) : Nat := 0x40550 + 0x4000 * (sl / 4) + 0x400 * (sl % 4)
abbrev macLinkIpCsum (sl : Nat) : Nat := 0x40554 + 0x4000 * (sl / 4) + 0x400 * (sl % 4)
abbrev macLinkUdpCsum (sl : Nat) : Nat := 0x40558 + 0x4000 * (sl / 4) + 0x400 * (sl % 4)
abbrev macLinkUnclaimed (sl : Nat) : Nat := 0x4055c + 0x4000 * (sl / 4) + 0x400 * (sl % 4)
abbrev macLinkPauseRx (sl : Nat) : Nat := 0x40560 + 0x4000 * (sl / 4) + 0x400 * (sl % 4)
abbrev macLinkPauseTx (sl : Nat) : Nat := 0x40564 + 0x4000 * (sl / 4) + 0x400 * (sl % 4)
abbrev macLinkPauseOverlimit (sl : Nat) : Nat := 0x40568 + 0x4000 * (sl / 4) + 0x400 * (sl % 4)
abbrev macLinkCtrlOther (sl : Nat) : Nat := 0x4056c + 0x4000 * (sl / 4) + 0x400 * (sl % 4)
abbrev macLinkFragRx (sl : Nat) : Nat := 0x40570 + 0x4000 * (sl / 4) + 0x400 * (sl % 4)
abbrev macLinkAssyErr (sl : Nat) : Nat := 0x40574 + 0x4000 * (sl / 4) + 0x400 * (sl % 4)
abbrev macLinkSmdErr (sl : Nat) : Nat := 0x40578 + 0x4000 * (sl / 4) + 0x400 * (sl % 4)
abbrev macLinkFragTx (sl : Nat) : Nat := 0x4057c + 0x4000 * (sl / 4) + 0x400 * (sl % 4)
abbrev macLinkReslot (sl : Nat) : Nat := 0x40580 + 0x4000 * (sl / 4) + 0x400 * (sl % 4)
abbrev macLinkAgeDrop (sl : Nat) : Nat := 0x40584 + 0x4000 * (sl / 4) + 0x400 * (sl % 4)
abbrev macLinkTailDrop (sl : Nat) : Nat := 0x40588 + 0x4000 * (sl / 4) + 0x400 * (sl % 4)
abbrev macLinkLinkDrop (sl : Nat) : Nat := 0x4058c + 0x4000 * (sl / 4) + 0x400 * (sl % 4)
abbrev macLinkTooLong (sl : Nat) : Nat := 0x40590 + 0x4000 * (sl / 4) + 0x400 * (sl % 4)
abbrev macLinkFecUncorrCw (sl : Nat) : Nat := 0x40594 + 0x4000 * (sl / 4) + 0x400 * (sl % 4)
abbrev macLinkLinkDown (sl : Nat) : Nat := 0x40598 + 0x4000 * (sl / 4) + 0x400 * (sl % 4)
abbrev hrcStatus : Nat := 0x50000
abbrev hrcEvent : Nat := 0x50004
abbrev hrcStaleAck : Nat := 0x50008
abbrev hrcCfg : Nat := 0x50010
abbrev hrcClientIdle : Nat := 0x50014
abbrev hrcUntracked : Nat := 0x50018
abbrev hrcExcMap0 : Nat := 0x50020
abbrev hrcExcMap1 : Nat := 0x50024
abbrev hrcHashSeed : Nat := 0x50030
abbrev hrcBadSource : Nat := 0x50040
abbrev hrcNtpShort : Nat := 0x50044
abbrev hrcNtpVersion : Nat := 0x50048
abbrev hrcNtpMode : Nat := 0x5004c
abbrev hrcQueueDrop : Nat := 0x50050
abbrev hrcFenceLost : Nat := 0x50054
abbrev hrcArpReply : Nat := 0x50058
abbrev hrcNdReply : Nat := 0x5005c
abbrev hrcBucketMoves : Nat := 0x50060
abbrev hrcQueryAddr (i : Nat) : Nat := 0x50080 + 0x4 * i
abbrev hrcQueryCmd : Nat := 0x50090
abbrev hrcQueryResult : Nat := 0x50094
abbrev hrcQueryRec (i : Nat) : Nat := 0x500a0 + 0x4 * i
abbrev hrcBucketMap (i : Nat) : Nat := 0x50100 + 0x4 * i
abbrev hrcAddrIp (i : Nat) (j : Nat) : Nat := 0x50800 + 0x20 * i + 0x4 * j
abbrev hrcAddrVlan (i : Nat) : Nat := 0x50810 + 0x20 * i
abbrev hrcAddrSvc (i : Nat) : Nat := 0x50814 + 0x20 * i
abbrev hrcAddrPolicy (i : Nat) : Nat := 0x50818 + 0x20 * i
abbrev hrcAddrRefid (i : Nat) : Nat := 0x5081c + 0x20 * i
abbrev svpStatus : Nat := 0x5c000
abbrev svpEvent : Nat := 0x5c004
abbrev svpStaleAck : Nat := 0x5c008
abbrev svpProfInterval (i : Nat) : Nat := 0x5c040 + 0x10 * i
abbrev svpProfBurst (i : Nat) : Nat := 0x5c044 + 0x10 * i
abbrev svpProfCtl (i : Nat) : Nat := 0x5c048 + 0x10 * i
abbrev svpPipeStatus (i : Nat) : Nat := 0x58000 + 0x400 * i
abbrev svpPipeReqNtp (i : Nat) : Nat := 0x58100 + 0x400 * i
abbrev svpPipeReqNts (i : Nat) : Nat := 0x58108 + 0x400 * i
abbrev svpPipeAnswered (i : Nat) : Nat := 0x58110 + 0x400 * i
abbrev svpPipeSlots (i : Nat) : Nat := 0x58118 + 0x400 * i
abbrev svpPipeKodRate (i : Nat) : Nat := 0x58120 + 0x400 * i
abbrev svpPipeRateDrop (i : Nat) : Nat := 0x58124 + 0x400 * i
abbrev svpPipeRateAnswer (i : Nat) : Nat := 0x58128 + 0x400 * i
abbrev svpPipeNtsnSent (i : Nat) : Nat := 0x5812c + 0x400 * i
abbrev svpPipeCookieKey (i : Nat) : Nat := 0x58130 + 0x400 * i
abbrev svpPipeCookieFail (i : Nat) : Nat := 0x58134 + 0x400 * i
abbrev svpPipeAuthFail (i : Nat) : Nat := 0x58138 + 0x400 * i
abbrev svpPipeNtsMalformed (i : Nat) : Nat := 0x5813c + 0x400 * i
abbrev svpPipeNtsOff (i : Nat) : Nat := 0x58140 + 0x400 * i
abbrev svpPipePlainRefused (i : Nat) : Nat := 0x58144 + 0x400 * i
abbrev svpPipeSuppressed (i : Nat) : Nat := 0x58148 + 0x400 * i
abbrev svpPipeUntracked (i : Nat) : Nat := 0x5814c + 0x400 * i
abbrev svpPipeUntrackedDrop (i : Nat) : Nat := 0x58150 + 0x400 * i
abbrev svpPipeEvict (i : Nat) : Nat := 0x58154 + 0x400 * i
abbrev svpPipeStepAdj (i : Nat) : Nat := 0x58158 + 0x400 * i
abbrev ntsStatus : Nat := 0x60000
abbrev ntsEvent : Nat := 0x60004
abbrev ntsStaleAck : Nat := 0x60008
abbrev ntsCfg : Nat := 0x60010
abbrev ntsEpochPeriod : Nat := 0x60014
abbrev ntsEpochOffset : Nat := 0x60018
abbrev ntsMintCfg : Nat := 0x6001c
abbrev ntsCmd : Nat := 0x60020
abbrev ntsKeyCur : Nat := 0x60030
abbrev ntsKeyPrev (i : Nat) : Nat := 0x60034 + 0x4 * i
abbrev ntsNextRotateLo : Nat := 0x60040
abbrev ntsNextRotateHi : Nat := 0x60044
abbrev ntsMinted : Nat := 0x60050
abbrev ntsMintJobs : Nat := 0x60058
abbrev ntsMintFail : Nat := 0x6005c
abbrev ntsRotations : Nat := 0x60060
abbrev ptpStatus : Nat := 0x68000
abbrev ptpEvent : Nat := 0x68004
abbrev ptpStaleAck : Nat := 0x68008
abbrev ptpCfg : Nat := 0x68010
abbrev ptpClass6Radius : Nat := 0x68014
abbrev ptpClass7Radius : Nat := 0x68018
abbrev ptpCatRadius : Nat := 0x6801c
abbrev ptpClockIdLo : Nat := 0x68020
abbrev ptpClockIdHi : Nat := 0x68024
abbrev ptpGmDs : Nat := 0x68028
abbrev ptpSynceCfg : Nat := 0x68030
abbrev ptpSynceIn : Nat := 0x68034
abbrev ptpSynceQl : Nat := 0x68038
abbrev ptpCtxIndex : Nat := 0x68040
abbrev ptpCtxUsed : Nat := 0x68044
abbrev ptpTxEvent : Nat := 0x68050
abbrev ptpRxEvent : Nat := 0x68058
abbrev ptpGrants : Nat := 0x68060
abbrev ptpGrantDenied : Nat := 0x68064
abbrev ptpGrantExpired : Nat := 0x68068
abbrev ptpCancelled : Nat := 0x6806c
abbrev ptpNoGrant : Nat := 0x68070
abbrev ptpDreqExcess : Nat := 0x68074
abbrev ptpToHost : Nat := 0x68078
abbrev ptpProtoDrop : Nat := 0x6807c
abbrev ptpEsmcTx : Nat := 0x68080
abbrev ptpEsmcRx : Nat := 0x68084
abbrev ptpEsmcBad : Nat := 0x68088
abbrev ptpCtxRead (i : Nat) : Nat := 0x680c0 + 0x4 * i
abbrev ptpInstCfg (i : Nat) : Nat := 0x68200 + 0x20 * i
abbrev ptpInstLinks (i : Nat) : Nat := 0x68204 + 0x20 * i
abbrev ptpInstRates (i : Nat) : Nat := 0x68208 + 0x20 * i
abbrev ptpInstDs (i : Nat) : Nat := 0x6820c + 0x20 * i
abbrev ptpInstContexts (i : Nat) : Nat := 0x68210 + 0x20 * i
abbrev ptpInstSyncTx (i : Nat) : Nat := 0x68214 + 0x20 * i
abbrev ptpInstDrespTx (i : Nat) : Nat := 0x68218 + 0x20 * i
abbrev ptpInstAnnTx (i : Nat) : Nat := 0x6821c + 0x20 * i
abbrev ptpSlvCfg (i : Nat) : Nat := 0x68600 + 0x100 * i
abbrev ptpSlvRates (i : Nat) : Nat := 0x68604 + 0x100 * i
abbrev ptpSlvPrio (i : Nat) : Nat := 0x68608 + 0x100 * i
abbrev ptpSlvMaster (i : Nat) (j : Nat) : Nat := 0x68610 + 0x100 * i + 0x4 * j
abbrev ptpSlvState (i : Nat) : Nat := 0x68680 + 0x100 * i
abbrev ptpSlvEvent (i : Nat) : Nat := 0x68684 + 0x100 * i
abbrev ptpSlvGmIdLo (i : Nat) : Nat := 0x68688 + 0x100 * i
abbrev ptpSlvGmIdHi (i : Nat) : Nat := 0x6868c + 0x100 * i
abbrev ptpSlvDelay (i : Nat) : Nat := 0x68690 + 0x100 * i
abbrev ptpSlvSyncRx (i : Nat) : Nat := 0x68694 + 0x100 * i
abbrev ptpSlvDreqTx (i : Nat) : Nat := 0x68698 + 0x100 * i
abbrev ptpSlvUtc (i : Nat) : Nat := 0x6869c + 0x100 * i
abbrev rcpStatus : Nat := 0x70000
abbrev rcpEvent : Nat := 0x70004
abbrev rcpStaleAck : Nat := 0x70008
abbrev rcpWindowUs : Nat := 0x70010
abbrev rcpPorts : Nat := 0x70014
abbrev rcpPace : Nat := 0x70018
abbrev rcpOnlinePeriod : Nat := 0x7001c
abbrev rcpOnlineGrace : Nat := 0x70020
abbrev rcpLogCfg : Nat := 0x70024
abbrev rcpLtSlot : Nat := 0x70030
abbrev rcpCmd : Nat := 0x70034
abbrev rcpWindowLo : Nat := 0x70040
abbrev rcpWindowHi : Nat := 0x70044
abbrev rcpKeyId : Nat := 0x70048
abbrev rcpRotateLo : Nat := 0x7004c
abbrev rcpRotateHi : Nat := 0x70050
abbrev rcpLtPub (i : Nat) : Nat := 0x70060 + 0x4 * i
abbrev rcpOnlinePub (i : Nat) : Nat := 0x70080 + 0x4 * i
abbrev rcpCert (i : Nat) : Nat := 0x700a0 + 0x4 * i
abbrev rcpEtxelOk : Nat := 0x70140
abbrev rcpRtOk : Nat := 0x70148
abbrev rcpWindows : Nat := 0x70150
abbrev rcpUnsync : Nat := 0x70154
abbrev rcpWindowFull : Nat := 0x70158
abbrev rcpKeyRefused : Nat := 0x7015c
abbrev rcpBadReq : Nat := 0x70160
abbrev rcpShort : Nat := 0x70164
abbrev rcpRtVersion : Nat := 0x70168
abbrev rcpReleaseDrop : Nat := 0x7016c
abbrev rcpSealFail : Nat := 0x70170
abbrev rcpEarlyClose : Nat := 0x70174
abbrev rcpLogDrop : Nat := 0x70178
abbrev rcpRotations : Nat := 0x7017c
abbrev pkeStatus : Nat := 0x78000
abbrev pkeEvent : Nat := 0x78004
abbrev pkeStaleAck : Nat := 0x78008
abbrev pkeCfg : Nat := 0x78010
abbrev pkeAbort : Nat := 0x78020
abbrev pkeQueue : Nat := 0x78030
abbrev pkeTrngStatus : Nat := 0x78040
abbrev pkeTrngSrc : Nat := 0x78044
abbrev pkeJobsOk : Nat := 0x78050
abbrev pkeJobsFail : Nat := 0x78058
abbrev pkeAborted : Nat := 0x7805c
abbrev pkeAbortMiss : Nat := 0x78060
abbrev pkeYields : Nat := 0x78064
abbrev pkeFencedJobs : Nat := 0x78068
abbrev pkeRctFail : Nat := 0x7806c
abbrev pkeAptFail : Nat := 0x78070
abbrev pkeFeDenied : Nat := 0x78074
abbrev pkeSeeds : Nat := 0x78078
abbrev pkeSlot (i : Nat) : Nat := 0x78100 + 0x4 * i
abbrev pkeCoreStatus (i : Nat) : Nat := 0x78400 + 0x400 * i
abbrev pkeCoreTag (i : Nat) : Nat := 0x78404 + 0x400 * i
abbrev pkeCoreJobs (i : Nat) : Nat := 0x78408 + 0x400 * i
abbrev pkeCoreWipes (i : Nat) : Nat := 0x7840c + 0x400 * i
abbrev pkeCoreCycles (i : Nat) : Nat := 0x78410 + 0x400 * i
abbrev hifStatus : Nat := 0x4000
abbrev hifEvent : Nat := 0x4004
abbrev hifStaleAck : Nat := 0x4008
abbrev hifDbPoll : Nat := 0x4010
abbrev hifDbAddrLo : Nat := 0x4014
abbrev hifDbAddrHi : Nat := 0x4018
abbrev hifEvtBlocks : Nat := 0x401c
abbrev hifDbReads : Nat := 0x4040
abbrev hifKicks : Nat := 0x4044
abbrev hifDbFaults : Nat := 0x4048
abbrev hifEvtDrop : Nat := 0x404c
abbrev hifDetaches : Nat := 0x4050
abbrev hifVec (i : Nat) : Nat := 0x4100 + 0x4 * i
abbrev hifRingDbaseLo (i : Nat) : Nat := 0x5000 + 0x20 * i
abbrev hifRingDbaseHi (i : Nat) : Nat := 0x5004 + 0x20 * i
abbrev hifRingCbaseLo (i : Nat) : Nat := 0x5008 + 0x20 * i
abbrev hifRingCbaseHi (i : Nat) : Nat := 0x500c + 0x20 * i
abbrev hifRingCfg (i : Nat) : Nat := 0x5010 + 0x20 * i
abbrev hifRingFlush (i : Nat) : Nat := 0x5014 + 0x20 * i
abbrev hifRingState (i : Nat) : Nat := 0x5018 + 0x20 * i
abbrev hifRingDrop (i : Nat) : Nat := 0x501c + 0x20 * i
abbrev hifRingFetched (i : Nat) : Nat := 0x7000 + 0x8 * i
abbrev hifRingPosted (i : Nat) : Nat := 0x7004 + 0x8 * i
abbrev glbIdent : Nat := 0x0
abbrev glbEvent : Nat := 0x4
abbrev glbStaleAck : Nat := 0x8
abbrev glbSerialLo : Nat := 0x10
abbrev glbSerialHi : Nat := 0x14
abbrev glbCap : Nat := 0x18
abbrev glbUnitsBuilt0 : Nat := 0x20
abbrev glbUnitsBuilt1 : Nat := 0x24
abbrev glbUnitsActive0 : Nat := 0x28
abbrev glbUnitsActive1 : Nat := 0x2c
abbrev glbFencePipe : Nat := 0x40
abbrev glbFenceCrypto : Nat := 0x44
abbrev glbFenceGnss : Nat := 0x48
abbrev glbFenceTtu : Nat := 0x4c
abbrev glbFenceCmd : Nat := 0x60
abbrev glbFenceResult : Nat := 0x68
abbrev glbFaultSeq : Nat := 0x80
abbrev glbFaultOverwrite : Nat := 0x84
abbrev glbJournalSeq : Nat := 0x88
abbrev glbJournalLost : Nat := 0x8c
abbrev glbFaultLog (i : Nat) : Nat := 0x1000 + 0x4 * i
abbrev sluStatus : Nat := 0x2000
abbrev sluEvent : Nat := 0x2004
abbrev sluStaleAck : Nat := 0x2008
abbrev sluView : Nat := 0x2010
abbrev sluPending0 : Nat := 0x2014
abbrev sluPending1 : Nat := 0x2018
abbrev sluRejects : Nat := 0x2020
abbrev sluGroupCommit (i : Nat) : Nat := 0x2100 + 0x20 * i
abbrev sluGroupStatus (i : Nat) : Nat := 0x2104 + 0x20 * i
abbrev sluGroupAtSecLo (i : Nat) : Nat := 0x2108 + 0x20 * i
abbrev sluGroupAtSecHi (i : Nat) : Nat := 0x210c + 0x20 * i
abbrev sluGroupAtNs (i : Nat) : Nat := 0x2110 + 0x20 * i
abbrev sluGroupInfo (i : Nat) : Nat := 0x2114 + 0x20 * i
abbrev cmacStatus : Nat := 0x48000
abbrev cmacEvent : Nat := 0x48004
abbrev cmacStaleAck : Nat := 0x48008
abbrev cmacCage0 : Nat := 0x48030
abbrev cmacCage1 : Nat := 0x48034
abbrev cmacCageFault : Nat := 0x48038
abbrev cmacLaneStatus (i : Nat) : Nat := 0x48400 + 0x100 * i
abbrev cmacLaneEvent (i : Nat) : Nat := 0x48404 + 0x100 * i
abbrev cmacLaneCfg (i : Nat) : Nat := 0x48410 + 0x100 * i
abbrev cmacLaneMacAddrLo (i : Nat) : Nat := 0x48414 + 0x100 * i
abbrev cmacLaneMacAddrHi (i : Nat) : Nat := 0x48418 + 0x100 * i
abbrev cmacLaneAsym (i : Nat) : Nat := 0x48420 + 0x100 * i
abbrev cmacLaneAsymUnc (i : Nat) : Nat := 0x48424 + 0x100 * i
abbrev cmacLaneRxFixed (i : Nat) : Nat := 0x48430 + 0x100 * i
abbrev cmacLaneTxFixed (i : Nat) : Nat := 0x48434 + 0x100 * i
abbrev cmacLaneRxDyn (i : Nat) : Nat := 0x48438 + 0x100 * i
abbrev cmacLaneTxDyn (i : Nat) : Nat := 0x4843c + 0x100 * i
abbrev cmacLaneThetaLo (i : Nat) : Nat := 0x48440 + 0x100 * i
abbrev cmacLaneThetaHi (i : Nat) : Nat := 0x48444 + 0x100 * i
abbrev cmacLaneDelta (i : Nat) : Nat := 0x48448 + 0x100 * i
abbrev cmacLanePairs (i : Nat) : Nat := 0x4844c + 0x100 * i
abbrev cmacLanePeerLo (i : Nat) : Nat := 0x48450 + 0x100 * i
abbrev cmacLanePeerHi (i : Nat) : Nat := 0x48454 + 0x100 * i
abbrev cmacLanePeerInfo (i : Nat) : Nat := 0x48458 + 0x100 * i
abbrev cmacLanePeerAsym (i : Nat) : Nat := 0x4845c + 0x100 * i
abbrev cmacLaneLinkTx (i : Nat) : Nat := 0x48480 + 0x100 * i
abbrev cmacLaneLinkRx (i : Nat) : Nat := 0x48484 + 0x100 * i
abbrev cmacLaneLinkMiss (i : Nat) : Nat := 0x48488 + 0x100 * i
abbrev cmacLaneBadFrame (i : Nat) : Nat := 0x4848c + 0x100 * i
abbrev cmacLaneForeign (i : Nat) : Nat := 0x48490 + 0x100 * i
abbrev cmacLaneOtherRx (i : Nat) : Nat := 0x48494 + 0x100 * i
abbrev cmacLaneLinkDown (i : Nat) : Nat := 0x48498 + 0x100 * i
abbrev cmacLaneFecUncorrCw (i : Nat) : Nat := 0x4849c + 0x100 * i
abbrev casStatus : Nat := 0x80000
abbrev casEvent : Nat := 0x80004
abbrev casStaleAck : Nat := 0x80008
abbrev casCfg : Nat := 0x80010
abbrev casMargin : Nat := 0x80014
abbrev casGather : Nat := 0x80018
abbrev casSystemIdLo : Nat := 0x80020
abbrev casSystemIdHi : Nat := 0x80024
abbrev casRidgeLo : Nat := 0x80030
abbrev casRidgeHi : Nat := 0x80034
abbrev casRidgeInfo : Nat := 0x80038
abbrev casRidgeSeq : Nat := 0x8003c
abbrev casSubCount : Nat := 0x80040
abbrev casSubDelay : Nat := 0x80044
abbrev casSubDepth : Nat := 0x80048
abbrev casPath (i : Nat) : Nat := 0x80050 + 0x4 * i
abbrev casOpCmd : Nat := 0x800a0
abbrev casOpTSecLo : Nat := 0x800a4
abbrev casOpTSecHi : Nat := 0x800a8
abbrev casOpTNs : Nat := 0x800ac
abbrev casOpTag : Nat := 0x800b0
abbrev casOpResult (i : Nat) : Nat := 0x800c0 + 0x4 * i
abbrev casOpData (i : Nat) : Nat := 0x80100 + 0x4 * i
abbrev casBcast (i : Nat) : Nat := 0x80200 + 0x4 * i
abbrev casBcastInfo : Nat := 0x80300
abbrev casBcastId : Nat := 0x80304
abbrev casReroots : Nat := 0x80400
abbrev casOpsIssued : Nat := 0x80404
abbrev casOpsRefused : Nat := 0x80408
abbrev casOpsExecuted : Nat := 0x8040c
abbrev casOpsLate : Nat := 0x80410
abbrev casChildRefused : Nat := 0x80414
abbrev pwrPpsOutCfg (i : Nat) : Nat := 0x9000 + 0x10 * i
abbrev pwrPpsOutWidth (i : Nat) : Nat := 0x9004 + 0x10 * i
abbrev pwrPpsOutOffset (i : Nat) : Nat := 0x9008 + 0x10 * i
abbrev pwrFreqOutCfg (i : Nat) : Nat := 0x9040 + 0x10 * i
abbrev pwrFreqOutHz (i : Nat) : Nat := 0x9044 + 0x10 * i
abbrev pwrTodIn : Nat := 0x9060
abbrev pwrTodOut : Nat := 0x9064
abbrev pwrAlm0Mask : Nat := 0x9068
abbrev pwrAlm1Mask : Nat := 0x906c
abbrev pwrIoStatus : Nat := 0x9070
abbrev pwrTodRx : Nat := 0x9074
abbrev pwrTodBad : Nat := 0x9078
abbrev pwrTodTx : Nat := 0x907c
abbrev pwrStatus : Nat := 0x8000
abbrev pwrEvent : Nat := 0x8004
abbrev pwrStaleAck : Nat := 0x8008
abbrev pwrCfg : Nat := 0x8010
abbrev pwrDomainEn : Nat := 0x8014
abbrev pwrThermWarn : Nat := 0x8018
abbrev pwrDomState : Nat := 0x8020
abbrev pwrVAc : Nat := 0x8030
abbrev pwrVDca : Nat := 0x8034
abbrev pwrVDcb : Nat := 0x8038
abbrev pwrVKa : Nat := 0x803c
abbrev pwrPIn : Nat := 0x8040
abbrev pwrTZafel : Nat := 0x8044
abbrev pwrTInlet : Nat := 0x8048
abbrev pwrTBoard : Nat := 0x804c
abbrev pwrResetCmd : Nat := 0x8080
abbrev pwrKaEntries : Nat := 0x80a0
abbrev pwrInputLoss : Nat := 0x80a4
abbrev pwrThermWarns : Nat := 0x80a8
abbrev bootStatus : Nat := 0xa000
abbrev bootEvent : Nat := 0xa004
abbrev bootStaleAck : Nat := 0xa008
abbrev bootCfg : Nat := 0xa010
abbrev bootStable : Nat := 0xa014
abbrev bootCmd : Nat := 0xa020
abbrev bootRecStarts : Nat := 0xa040
abbrev bootRecFlags : Nat := 0xa044
abbrev bootStepCount (i : Nat) : Nat := 0xa100 + 0x8 * i
abbrev bootStepLastT (i : Nat) : Nat := 0xa104 + 0x8 * i
abbrev svpPipeUcodeCtl (i : Nat) : Nat := 0x58200 + 0x400 * i
abbrev svpPipeUcodeResult (i : Nat) : Nat := 0x58204 + 0x400 * i
abbrev svpPipeUcodeBuild (i : Nat) : Nat := 0x58208 + 0x400 * i
abbrev svpPipeUcodeSrc (i : Nat) : Nat := 0x5820c + 0x400 * i
abbrev svpPipeReloads (i : Nat) : Nat := 0x58210 + 0x400 * i
abbrev svpPipeUcodeDigest (i : Nat) (j : Nat) : Nat := 0x58220 + 0x400 * i + 0x4 * j
abbrev talStatus : Nat := 0xc000
abbrev talEvent : Nat := 0xc004
abbrev talStaleAck : Nat := 0xc008
abbrev talCfg : Nat := 0xc010
abbrev talWindowMs : Nat := 0xc014
abbrev talSampleCfg : Nat := 0xc020
abbrev talSampleRate : Nat := 0xc024
abbrev talSampleLimit : Nat := 0xc028
abbrev talSampleAddrLo : Nat := 0xc02c
abbrev talSampleAddrHi : Nat := 0xc030
abbrev talSamplePlen : Nat := 0xc034
abbrev talSampleClient (i : Nat) : Nat := 0xc040 + 0x4 * i
abbrev talStolen0 : Nat := 0xc060
abbrev talStolen1 : Nat := 0xc064
abbrev talWinNumber : Nat := 0xc080
abbrev talWinTCloseSecLo : Nat := 0xc084
abbrev talWinTCloseSecHi : Nat := 0xc088
abbrev talWinTCloseNs : Nat := 0xc08c
abbrev talWinDurLo : Nat := 0xc090
abbrev talWinDurHi : Nat := 0xc094
abbrev talWinInfo : Nat := 0xc098
abbrev talWinDomains : Nat := 0xc09c
abbrev talSnapTSecLo : Nat := 0xc0a0
abbrev talSnapTSecHi : Nat := 0xc0a4
abbrev talSnapTNs : Nat := 0xc0a8
abbrev talTallySel : Nat := 0xc0c0
abbrev talTallyAddr : Nat := 0xc0c4
abbrev talTallyLo : Nat := 0xc0c8
abbrev talTallyHi : Nat := 0xc0cc
abbrev talTallyCount : Nat := 0xc0d0
abbrev talTallySeq : Nat := 0xc0d4
abbrev talBwRx (i : Nat) : Nat := 0xc100 + 0x8 * i
abbrev talBwTx (i : Nat) : Nat := 0xc104 + 0x8 * i
abbrev talSampleIndex : Nat := 0xc200
abbrev talSampleSeq : Nat := 0xc208
abbrev talSampleCand : Nat := 0xc210
abbrev talSampleFiltered : Nat := 0xc214
abbrev talSampleMissed : Nat := 0xc218
abbrev talWindows : Nat := 0xc21c
abbrev talSampleRead (i : Nat) : Nat := 0xc400 + 0x4 * i

end Sys2Proof.Machine.A
end

