-- ==== Sys2Proof/Machine/RegTable.lean ====
section
/-!
DEFINITION. The register tables of the manual as data: one row per register word (or array of words), taken from the
register and field tables of every block's chapter (R57, R99, R126, R158, R181, R216, R249, R250, R251, R274, R295, R322,
R349, R393, R401, R430, R431, R455, R475, R476, R486, R506).
-/

namespace Sys2Proof.Machine

/-- The register types of R353 to R368. -/
inductive RegKind
  | ro | st | cr | sq | cm | gd | lk | wo
  deriving DecidableEq, Repr

/-- The range the manual states for one field of a staged word: bits `lo` to `lo + width - 1`. -/
structure FieldRange where
  lo : Nat
  width : Nat
  signed : Bool
  min : Int
  max : Int
  deriving DecidableEq, Repr

/-- One row of a register table: the words `base + i * s1 + j * s2` for `i < n1` and `j < n2`.
`group` is the sluice group (R400) of a staged word, 100 for the AT words of group `i`, 255 for none.
`rv` marks the reserved bits, `reset` is the reset value, `factory` marks the bits that the manual calls a factory value,
and `pair` says that the row is a 64-bit counter pair. -/
structure RegRow where
  base : Nat
  n1 : Nat
  s1 : Nat
  n2 : Nat
  s2 : Nat
  kind : RegKind
  group : Nat
  rv : Nat
  reset : Nat
  factory : Nat
  pair : Bool
  ranges : List FieldRange
  deriving DecidableEq, Repr

/-- The register rows of block GLB. -/
def rowsGlb : List RegRow := [
  ⟨0, 1, 1048576, 1, 4, .ro, 255, 0xff000000, 0x6160, 0xff0000, false, []⟩,
  ⟨4, 1, 1048576, 1, 4, .sq, 255, 0xffffc0, 0, 0, false, []⟩,
  ⟨8, 1, 1048576, 1, 4, .cr, 255, 0, 0, 0, false, []⟩,
  ⟨0x10, 1, 1048576, 1, 4, .ro, 255, 0, 0, 0xffffffff, false, []⟩,
  ⟨0x14, 1, 1048576, 1, 4, .ro, 255, 0, 0, 0xffffffff, false, []⟩,
  ⟨0x18, 1, 1048576, 1, 4, .ro, 255, 0xfffff000, 0xfff, 0, false, []⟩,
  ⟨0x20, 1, 1048576, 1, 4, .ro, 255, 0, 0x10081010, 0, false, []⟩,
  ⟨0x24, 1, 1048576, 1, 4, .ro, 255, 0xffff0000, 0x1014, 0, false, []⟩,
  ⟨0x28, 1, 1048576, 1, 4, .ro, 255, 0, 0x10081010, 0, false, []⟩,
  ⟨0x2c, 1, 1048576, 1, 4, .ro, 255, 0xffff0000, 0x1014, 0, false, []⟩,
  ⟨0x40, 1, 1048576, 1, 4, .ro, 255, 0, 0, 0, false, []⟩,
  ⟨0x44, 1, 1048576, 1, 4, .ro, 255, 0xff00, 0, 0, false, []⟩,
  ⟨0x48, 1, 1048576, 1, 4, .ro, 255, 0xfff00000, 0, 0, false, []⟩,
  ⟨0x4c, 1, 1048576, 1, 4, .ro, 255, 0xffff0000, 0, 0, false, []⟩,
  ⟨0x60, 1, 1048576, 1, 4, .gd, 255, 0, 0, 0, false, []⟩,
  ⟨0x68, 1, 1048576, 1, 4, .ro, 255, 0x800c, 0, 0, false, []⟩,
  ⟨0x80, 1, 1048576, 1, 4, .ro, 255, 0, 0, 0, false, []⟩,
  ⟨0x84, 1, 1048576, 1, 4, .cr, 255, 0, 0, 0, false, []⟩,
  ⟨0x88, 1, 1048576, 1, 4, .ro, 255, 0, 0, 0, false, []⟩,
  ⟨0x8c, 1, 1048576, 1, 4, .cr, 255, 0, 0, 0, false, []⟩,
  ⟨0x1000, 512, 4, 1, 4, .ro, 255, 0, 0, 0, false, []⟩
]

/-- The register rows of block SLU, part 0. -/
def rowsSluPart0 : List RegRow := [
  ⟨0x2000, 1, 1048576, 1, 4, .ro, 255, 0xffff8080, 0, 0, false, []⟩,
  ⟨0x2004, 1, 1048576, 1, 4, .sq, 255, 0xffffe0, 0, 0, false, []⟩,
  ⟨0x2008, 1, 1048576, 1, 4, .cr, 255, 0, 0, 0, false, []⟩,
  ⟨0x2010, 1, 1048576, 1, 4, .cm, 255, 0xfffe, 0, 0, false, []⟩,
  ⟨0x2014, 1, 1048576, 1, 4, .ro, 255, 0, 0, 0, false, []⟩,
  ⟨0x2018, 1, 1048576, 1, 4, .ro, 255, 0, 0, 0, false, []⟩,
  ⟨0x2020, 1, 1048576, 1, 4, .cr, 255, 0, 0, 0, false, []⟩,
  ⟨0x2100, 35, 32, 1, 4, .wo, 255, 0xffff00f0, 0, 0, false, []⟩,
  ⟨0x2104, 35, 32, 1, 4, .ro, 255, 0xf0, 0, 0, false, []⟩,
  ⟨0x2108, 35, 32, 1, 4, .st, 100, 0, 0, 0, false, []⟩,
  ⟨0x210c, 35, 32, 1, 4, .st, 100, 0xffff0000, 0, 0, false, []⟩,
  ⟨0x2110, 35, 32, 1, 4, .st, 100, 0xc0000000, 0, 0, false, []⟩,
  ⟨0x2114, 1, 1048576, 1, 4, .ro, 255, 0x7fff0c00, 0x80007206, 0, false, []⟩,
  ⟨0x2134, 1, 1048576, 1, 4, .ro, 255, 0x7fff0c00, 0x80007006, 0, false, []⟩,
  ⟨0x2154, 1, 1048576, 1, 4, .ro, 255, 0x7fff0c00, 0x80007006, 0, false, []⟩,
  ⟨0x2174, 1, 1048576, 1, 4, .ro, 255, 0x7fff0c00, 0x80007206, 0, false, []⟩,
  ⟨0x2194, 1, 1048576, 1, 4, .ro, 255, 0x7fff0c00, 0x80007207, 0, false, []⟩,
  ⟨0x21b4, 1, 1048576, 1, 4, .ro, 255, 0x7fff0c00, 0x80007208, 0, false, []⟩,
  ⟨0x21d4, 1, 1048576, 1, 4, .ro, 255, 0x7fff0c00, 0x80005209, 0, false, []⟩,
  ⟨0x21f4, 1, 1048576, 1, 4, .ro, 255, 0x7fff0c00, 0x80005009, 0, false, []⟩,
  ⟨0x2214, 1, 1048576, 1, 4, .ro, 255, 0x7fff0c00, 0x8000620a, 0, false, []⟩,
  ⟨0x2234, 1, 1048576, 1, 4, .ro, 255, 0x7fff0c00, 0x8000600a, 0, false, []⟩,
  ⟨0x2254, 1, 1048576, 1, 4, .ro, 255, 0x7fff0c00, 0x8000c00b, 0, false, []⟩,
  ⟨0x2274, 1, 1048576, 1, 4, .ro, 255, 0x7fff0c00, 0x8000c10b, 0, false, []⟩,
  ⟨0x2294, 1, 1048576, 1, 4, .ro, 255, 0x7fff0c00, 0x8000c20b, 0, false, []⟩,
  ⟨0x22b4, 1, 1048576, 1, 4, .ro, 255, 0x7fff0c00, 0x8000c00c, 0, false, []⟩,
  ⟨0x22d4, 1, 1048576, 1, 4, .ro, 255, 0x7fff0c00, 0x8000c10c, 0, false, []⟩,
  ⟨0x22f4, 1, 1048576, 1, 4, .ro, 255, 0x7fff0c00, 0x8000c20c, 0, false, []⟩,
  ⟨0x2314, 1, 1048576, 1, 4, .ro, 255, 0x7fff0c00, 0x8000c00e, 0, false, []⟩,
  ⟨0x2334, 1, 1048576, 1, 4, .ro, 255, 0x7fff0c00, 0x8000c00e, 0, false, []⟩,
  ⟨0x2354, 1, 1048576, 1, 4, .ro, 255, 0x7fff0c00, 0x8000c00e, 0, false, []⟩,
  ⟨0x2374, 1, 1048576, 1, 4, .ro, 255, 0x7fff0c00, 0x8000c00e, 0, false, []⟩,
  ⟨0x2394, 1, 1048576, 1, 4, .ro, 255, 0x7fff0c00, 0x8000c00f, 0, false, []⟩,
  ⟨0x23b4, 1, 1048576, 1, 4, .ro, 255, 0x7fff0c00, 0x8000a210, 0, false, []⟩,
  ⟨0x23d4, 1, 1048576, 1, 4, .ro, 255, 0x7fff0c00, 0x8000c211, 0, false, []⟩,
  ⟨0x23f4, 1, 1048576, 1, 4, .ro, 255, 0x7fff0c00, 0x8000a312, 0, false, []⟩,
  ⟨0x2414, 1, 1048576, 1, 4, .ro, 255, 0x7fff0c00, 0x8000b013, 0, false, []⟩,
  ⟨0x2434, 1, 1048576, 1, 4, .ro, 255, 0x7fff0c00, 0x8000f002, 0, false, []⟩,
  ⟨0x2454, 1, 1048576, 1, 4, .ro, 255, 0x7fff0c00, 0x8000f002, 0, false, []⟩,
  ⟨0x2474, 1, 1048576, 1, 4, .ro, 255, 0x7fff0c00, 0x8000f203, 0, false, []⟩
]

/-- The register rows of block SLU, part 1. -/
def rowsSluPart1 : List RegRow := [
  ⟨0x2494, 1, 1048576, 1, 4, .ro, 255, 0x7fff0c00, 0x8000f004, 0, false, []⟩,
  ⟨0x24b4, 1, 1048576, 1, 4, .ro, 255, 0x7fff0c00, 0x8000f305, 0, false, []⟩,
  ⟨0x24d4, 1, 1048576, 1, 4, .ro, 255, 0x7fff0c00, 0x8000f005, 0, false, []⟩,
  ⟨0x24f4, 1, 1048576, 1, 4, .ro, 255, 0x7fff0c00, 0x8000d00d, 0, false, []⟩,
  ⟨0x2514, 1, 1048576, 1, 4, .ro, 255, 0x7fff0c00, 0x8000d20d, 0, false, []⟩,
  ⟨0x2534, 1, 1048576, 1, 4, .ro, 255, 0x7fff0c00, 0x8000d214, 0, false, []⟩,
  ⟨0x2554, 1, 1048576, 1, 4, .ro, 255, 0x7fff0c00, 0x8000d014, 0, false, []⟩
]

/-- The register rows of block SLU. -/
def rowsSlu : List RegRow := rowsSluPart0 ++ rowsSluPart1

/-- The register rows of block HIF. -/
def rowsHif : List RegRow := [
  ⟨0x4000, 1, 1048576, 1, 4, .ro, 255, 0xffe00800, 0, 0, false, []⟩,
  ⟨0x4004, 1, 1048576, 1, 4, .sq, 255, 0xffffc0, 0, 0, false, []⟩,
  ⟨0x4008, 1, 1048576, 1, 4, .cr, 255, 0, 0, 0, false, []⟩,
  ⟨0x4010, 1, 1048576, 1, 4, .st, 25, 0xfffe0000, 0x3e8, 0, false, [⟨0, 17, false, 250, 100000⟩]⟩,
  ⟨0x4014, 1, 1048576, 1, 4, .st, 25, 0, 0, 0, false, []⟩,
  ⟨0x4018, 1, 1048576, 1, 4, .st, 25, 0, 0, 0, false, []⟩,
  ⟨0x401c, 1, 1048576, 1, 4, .st, 25, 0xffe00000, 0, 0, false, []⟩,
  ⟨0x4040, 1, 1048576, 1, 4, .cr, 255, 0, 0, 0, false, []⟩,
  ⟨0x4044, 1, 1048576, 1, 4, .cr, 255, 0, 0, 0, false, []⟩,
  ⟨0x4048, 1, 1048576, 1, 4, .cr, 255, 0, 0, 0, false, []⟩,
  ⟨0x404c, 1, 1048576, 1, 4, .cr, 255, 0, 0, 0, false, []⟩,
  ⟨0x4050, 1, 1048576, 1, 4, .cr, 255, 0, 0, 0, false, []⟩,
  ⟨0x4100, 64, 4, 1, 4, .st, 25, 0xc000ff00, 1, 0, false, [⟨0, 8, false, 1, 255⟩, ⟨16, 14, false, 0, 10000⟩]⟩,
  ⟨0x5000, 256, 32, 1, 4, .st, 26, 0, 0, 0, false, []⟩,
  ⟨0x5004, 256, 32, 1, 4, .st, 26, 0, 0, 0, false, []⟩,
  ⟨0x5008, 256, 32, 1, 4, .st, 26, 0, 0, 0, false, []⟩,
  ⟨0x500c, 256, 32, 1, 4, .st, 26, 0, 0, 0, false, []⟩,
  ⟨0x5010, 256, 32, 1, 4, .st, 26, 0xfff88000, 0, 0, false, [⟨4, 4, false, 0, 10⟩, ⟨16, 3, false, 0, 4⟩]⟩,
  ⟨0x5014, 256, 32, 1, 4, .st, 26, 0xffffc000, 0x64, 0, false, [⟨0, 14, false, 1, 10000⟩]⟩,
  ⟨0x5018, 256, 32, 1, 4, .ro, 255, 0xfc, 0, 0, false, []⟩,
  ⟨0x501c, 256, 32, 1, 4, .cr, 255, 0, 0, 0, false, []⟩,
  ⟨0x7000, 256, 8, 1, 4, .ro, 255, 0, 0, 0, false, []⟩,
  ⟨0x7004, 256, 8, 1, 4, .ro, 255, 0, 0, 0, false, []⟩
]

/-- The register rows of block PWR. -/
def rowsPwr : List RegRow := [
  ⟨0x9000, 4, 16, 1, 4, .st, 27, 0xfffffffc, 0, 0, false, []⟩,
  ⟨0x9004, 4, 16, 1, 4, .st, 27, 0xc0000000, 0x5f5e100, 0, false, [⟨0, 30, false, 100, 400000000⟩]⟩,
  ⟨0x9008, 4, 16, 1, 4, .st, 27, 0, 0, 0, false, [⟨0, 32, true, (-5000000), 5000000⟩]⟩,
  ⟨0x9040, 2, 16, 1, 4, .st, 27, 0xfffffffc, 0, 0, false, []⟩,
  ⟨0x9044, 2, 16, 1, 4, .st, 27, 0xf0000000, 0x989680, 0, false, [⟨0, 28, false, 1, 250000000⟩]⟩,
  ⟨0x9060, 1, 1048576, 1, 4, .st, 27, 0xfffffff0, 8, 0, false, [⟨0, 3, false, 0, 4⟩]⟩,
  ⟨0x9064, 1, 1048576, 1, 4, .st, 27, 0xffffffc0, 0, 0, false, [⟨1, 3, false, 0, 4⟩]⟩,
  ⟨0x9068, 1, 1048576, 1, 4, .st, 27, 0xfffffc00, 1, 0, false, []⟩,
  ⟨0x906c, 1, 1048576, 1, 4, .st, 27, 0xfffffc00, 0x3f8, 0, false, []⟩,
  ⟨0x9070, 1, 1048576, 1, 4, .ro, 255, 0xfffff0f0, 0xf00, 0, false, []⟩,
  ⟨0x9074, 1, 1048576, 1, 4, .cr, 255, 0, 0, 0, false, []⟩,
  ⟨0x9078, 1, 1048576, 1, 4, .cr, 255, 0, 0, 0, false, []⟩,
  ⟨0x907c, 1, 1048576, 1, 4, .cr, 255, 0, 0, 0, false, []⟩,
  ⟨0x8000, 1, 1048576, 1, 4, .ro, 255, 0xffffffc0, 0, 0, false, []⟩,
  ⟨0x8004, 1, 1048576, 1, 4, .sq, 255, 0xffffc0, 0, 0, false, []⟩,
  ⟨0x8008, 1, 1048576, 1, 4, .cr, 255, 0, 0, 0, false, []⟩,
  ⟨0x8010, 1, 1048576, 1, 4, .st, 27, 0xfffffff0, 0, 0, false, []⟩,
  ⟨0x8014, 1, 1048576, 1, 4, .st, 27, 0xffff0000, 0xffff, 0, false, []⟩,
  ⟨0x8018, 1, 1048576, 1, 4, .st, 27, 0xffffff80, 0x64, 0, false, [⟨0, 7, false, 80, 105⟩]⟩,
  ⟨0x8020, 1, 1048576, 1, 4, .ro, 255, 0xffff0000, 0, 0, false, []⟩,
  ⟨0x8030, 1, 1048576, 1, 4, .ro, 255, 0xffff0000, 0, 0, false, []⟩,
  ⟨0x8034, 1, 1048576, 1, 4, .ro, 255, 0xffff0000, 0, 0, false, []⟩,
  ⟨0x8038, 1, 1048576, 1, 4, .ro, 255, 0xffff0000, 0, 0, false, []⟩,
  ⟨0x803c, 1, 1048576, 1, 4, .ro, 255, 0xffff0000, 0, 0, false, []⟩,
  ⟨0x8040, 1, 1048576, 1, 4, .ro, 255, 0xffff0000, 0, 0, false, []⟩,
  ⟨0x8044, 1, 1048576, 1, 4, .ro, 255, 0xffff0000, 0x8000, 0, false, []⟩,
  ⟨0x8048, 1, 1048576, 1, 4, .ro, 255, 0xffff0000, 0x8000, 0, false, []⟩,
  ⟨0x804c, 1, 1048576, 1, 4, .ro, 255, 0xffff0000, 0x8000, 0, false, []⟩,
  ⟨0x8080, 1, 1048576, 1, 4, .gd, 255, 0, 0, 0, false, []⟩,
  ⟨0x80a0, 1, 1048576, 1, 4, .cr, 255, 0, 0, 0, false, []⟩,
  ⟨0x80a4, 1, 1048576, 1, 4, .cr, 255, 0, 0, 0, false, []⟩,
  ⟨0x80a8, 1, 1048576, 1, 4, .cr, 255, 0, 0, 0, false, []⟩
]

/-- The register rows of block BOOT. -/
def rowsBoot : List RegRow := [
  ⟨0xa000, 1, 1048576, 1, 4, .ro, 255, 0xfffc0000, 0, 0, false, []⟩,
  ⟨0xa004, 1, 1048576, 1, 4, .sq, 255, 0xffff00, 0, 0, false, []⟩,
  ⟨0xa008, 1, 1048576, 1, 4, .cr, 255, 0, 0, 0, false, []⟩,
  ⟨0xa010, 1, 1048576, 1, 4, .st, 28, 0xfffffff0, 6, 0, false, [⟨1, 3, false, 1, 7⟩]⟩,
  ⟨0xa014, 1, 1048576, 1, 4, .st, 28, 0xfffe0000, 0x258, 0, false, [⟨0, 17, false, 60, 86400⟩]⟩,
  ⟨0xa020, 1, 1048576, 1, 4, .gd, 255, 0, 0, 0, false, []⟩,
  ⟨0xa040, 1, 1048576, 1, 4, .ro, 255, 0, 0, 0, false, []⟩,
  ⟨0xa044, 1, 1048576, 1, 4, .ro, 255, 0xfffffe00, 0, 0, false, []⟩,
  ⟨0xa100, 12, 8, 1, 4, .ro, 255, 0xf00000, 0, 0, false, []⟩,
  ⟨0xa104, 12, 8, 1, 4, .ro, 255, 0, 0, 0, false, []⟩
]

/-- The register rows of block TAL. -/
def rowsTal : List RegRow := [
  ⟨0xc000, 1, 1048576, 1, 4, .ro, 255, 0xfffffff8, 0, 0, false, []⟩,
  ⟨0xc004, 1, 1048576, 1, 4, .sq, 255, 0xffffe0, 0, 0, false, []⟩,
  ⟨0xc008, 1, 1048576, 1, 4, .cr, 255, 0, 0, 0, false, []⟩,
  ⟨0xc010, 1, 1048576, 1, 4, .st, 29, 0xfffffffe, 1, 0, false, []⟩,
  ⟨0xc014, 1, 1048576, 1, 4, .st, 29, 0xffff0000, 0x3e8, 0, false, [⟨0, 16, false, 10, 60000⟩]⟩,
  ⟨0xc020, 1, 1048576, 1, 4, .st, 30, 0xff00fe00, 0xff01fe, 0, false, []⟩,
  ⟨0xc024, 1, 1048576, 1, 4, .st, 30, 0xff000000, 0x3e8, 0, false, [⟨0, 24, false, 1, 16777215⟩]⟩,
  ⟨0xc028, 1, 1048576, 1, 4, .st, 30, 0xffff0000, 0, 0, false, []⟩,
  ⟨0xc02c, 1, 1048576, 1, 4, .st, 30, 0, 0xffffffff, 0, false, []⟩,
  ⟨0xc030, 1, 1048576, 1, 4, .st, 30, 0, 0xffffffff, 0, false, []⟩,
  ⟨0xc034, 1, 1048576, 1, 4, .st, 30, 0xffffff00, 0, 0, false, [⟨0, 8, false, 0, 128⟩]⟩,
  ⟨0xc040, 4, 4, 1, 4, .st, 30, 0, 0, 0, false, []⟩,
  ⟨0xc060, 1, 1048576, 1, 4, .cm, 255, 0, 0xffff, 0, false, []⟩,
  ⟨0xc064, 1, 1048576, 1, 4, .cm, 255, 0xffe0, 0x1f, 0, false, []⟩,
  ⟨0xc080, 1, 1048576, 1, 4, .ro, 255, 0, 0, 0, false, []⟩,
  ⟨0xc084, 1, 1048576, 1, 4, .ro, 255, 0, 0, 0, false, []⟩,
  ⟨0xc088, 1, 1048576, 1, 4, .ro, 255, 0xffff0000, 0, 0, false, []⟩,
  ⟨0xc08c, 1, 1048576, 1, 4, .ro, 255, 0xc0000000, 0, 0, false, []⟩,
  ⟨0xc090, 1, 1048576, 1, 4, .ro, 255, 0, 0, 0, false, []⟩,
  ⟨0xc094, 1, 1048576, 1, 4, .ro, 255, 0, 0, 0, false, []⟩,
  ⟨0xc098, 1, 1048576, 1, 4, .ro, 255, 0xfffffff8, 0, 0, false, []⟩,
  ⟨0xc09c, 1, 1048576, 1, 4, .ro, 255, 0xffff0000, 0, 0, false, []⟩,
  ⟨0xc0a0, 1, 1048576, 1, 4, .ro, 255, 0, 0, 0, false, []⟩,
  ⟨0xc0a4, 1, 1048576, 1, 4, .ro, 255, 0xffff0000, 0, 0, false, []⟩,
  ⟨0xc0a8, 1, 1048576, 1, 4, .ro, 255, 0xc0000000, 0, 0, false, []⟩,
  ⟨0xc0c0, 1, 1048576, 1, 4, .cm, 255, 0xf800, 0, 0, false, []⟩,
  ⟨0xc0c4, 1, 1048576, 1, 4, .ro, 255, 0xffc00000, 0, 0, false, []⟩,
  ⟨0xc0c8, 1, 1048576, 1, 4, .ro, 255, 0, 0, 0, false, []⟩,
  ⟨0xc0cc, 1, 1048576, 1, 4, .ro, 255, 0, 0, 0, false, []⟩,
  ⟨0xc0d0, 1, 1048576, 1, 4, .ro, 255, 0xfffff800, 0x30e, 0, false, []⟩,
  ⟨0xc0d4, 1, 1048576, 1, 4, .ro, 255, 0xffff0000, 0, 0, false, []⟩,
  ⟨0xc100, 8, 8, 1, 4, .ro, 255, 0x80000000, 0, 0, false, []⟩,
  ⟨0xc104, 8, 8, 1, 4, .ro, 255, 0x80000000, 0, 0, false, []⟩,
  ⟨0xc200, 1, 1048576, 1, 4, .cm, 255, 0xf000, 0, 0, false, []⟩,
  ⟨0xc208, 1, 1048576, 1, 4, .ro, 255, 0, 0, 0, false, []⟩,
  ⟨0xc210, 1, 1048576, 1, 4, .cr, 255, 0, 0, 0, false, []⟩,
  ⟨0xc214, 1, 1048576, 1, 4, .cr, 255, 0, 0, 0, false, []⟩,
  ⟨0xc218, 1, 1048576, 1, 4, .cr, 255, 0, 0, 0, false, []⟩,
  ⟨0xc21c, 1, 1048576, 1, 4, .cr, 255, 0, 0, 0, false, []⟩,
  ⟨0xc400, 128, 4, 1, 4, .ro, 255, 0, 0, 0, false, []⟩
]

/-- The register rows of block TSC, part 0. -/
def rowsTscPart0 : List RegRow := [
  ⟨0x10000, 1, 1048576, 1, 4, .ro, 255, 0xffff0080, 0xff10, 0, false, []⟩,
  ⟨0x10004, 1, 1048576, 1, 4, .sq, 255, 0xfff000, 0, 0, false, []⟩,
  ⟨0x10008, 1, 1048576, 1, 4, .cr, 255, 0, 0, 0, false, []⟩,
  ⟨0x10010, 1, 1048576, 1, 4, .ro, 255, 0, 0, 0, false, []⟩,
  ⟨0x10014, 1, 1048576, 1, 4, .ro, 255, 0xffff0000, 0, 0, false, []⟩,
  ⟨0x10018, 1, 1048576, 1, 4, .ro, 255, 0xc0000000, 0, 0, false, []⟩,
  ⟨0x1001c, 1, 1048576, 1, 4, .ro, 255, 0xffff0000, 0, 0, false, []⟩,
  ⟨0x10020, 1, 1048576, 1, 4, .ro, 255, 0xffff0080, 0xff10, 0, false, []⟩,
  ⟨0x10024, 1, 1048576, 1, 4, .ro, 255, 0, 0xffffffff, 0, false, []⟩,
  ⟨0x10028, 1, 1048576, 1, 4, .ro, 255, 0, 0, 0, false, []⟩,
  ⟨0x1002c, 1, 1048576, 1, 4, .ro, 255, 0, 0, 0, false, []⟩,
  ⟨0x10030, 1, 1048576, 1, 4, .ro, 255, 0, 0, 0, false, []⟩,
  ⟨0x10040, 1, 1048576, 1, 4, .st, 0, 0xfffffff8, 4, 0, false, []⟩,
  ⟨0x10044, 1, 1048576, 1, 4, .st, 0, 0, 0x3e8, 0, false, [⟨0, 32, false, 100, 100000000⟩]⟩,
  ⟨0x10048, 1, 1048576, 1, 4, .st, 0, 0xfffffc00, 0xc8, 0, false, [⟨0, 10, false, 1, 1000⟩]⟩,
  ⟨0x1004c, 1, 1048576, 1, 4, .st, 0, 0xffffc000, 0x32, 0, false, [⟨0, 14, false, 1, 10000⟩]⟩,
  ⟨0x10050, 1, 1048576, 1, 4, .st, 0, 0xfffff000, 0x78, 0, false, [⟨0, 12, false, 10, 3600⟩]⟩,
  ⟨0x10054, 1, 1048576, 1, 4, .st, 0, 0xfffe0000, 0x3e8, 0, false, [⟨0, 17, false, 10, 100000⟩]⟩,
  ⟨0x10058, 1, 1048576, 1, 4, .st, 0, 0xfffe0000, 0x190, 0, false, [⟨0, 17, false, 0, 100000⟩]⟩,
  ⟨0x1005c, 1, 1048576, 1, 4, .st, 0, 0xfffff800, 0x200, 0, false, [⟨0, 11, false, 0, 1024⟩]⟩,
  ⟨0x10060, 1, 1048576, 1, 4, .ro, 255, 0xffffff00, 0, 0, false, []⟩,
  ⟨0x10064, 1, 1048576, 1, 4, .cr, 255, 0, 0, 0, false, []⟩,
  ⟨0x10068, 1, 1048576, 1, 4, .ro, 255, 0, 0, 0, false, []⟩,
  ⟨0x1006c, 1, 1048576, 1, 4, .ro, 255, 0, 0, 0, false, []⟩,
  ⟨0x10070, 1, 1048576, 1, 4, .gd, 255, 0, 0, 0, false, []⟩,
  ⟨0x10078, 1, 1048576, 1, 4, .st, 3, 0, 0, 0, false, []⟩,
  ⟨0x1007c, 1, 1048576, 1, 4, .st, 3, 0, 0, 0, false, []⟩,
  ⟨0x10100, 1, 1048576, 1, 4, .ro, 255, 0xffff0000, 0, 0, false, []⟩,
  ⟨0x10180, 8, 16, 1, 4, .ro, 255, 0, 0, 0, false, []⟩,
  ⟨0x10184, 8, 16, 1, 4, .ro, 255, 0xffff0000, 0, 0, false, []⟩,
  ⟨0x10188, 8, 16, 1, 4, .ro, 255, 0x7ffc0000, 0, 0, false, []⟩,
  ⟨0x1018c, 8, 16, 1, 4, .ro, 255, 0xffffffff, 0, 0, false, []⟩,
  ⟨0x10200, 32, 16, 1, 4, .st, 2, 0, 0, 0, false, []⟩,
  ⟨0x10204, 32, 16, 1, 4, .st, 2, 0xffff0000, 0, 0, false, []⟩,
  ⟨0x10208, 32, 16, 1, 4, .st, 2, 0x7ffc0000, 0, 0, false, []⟩,
  ⟨0x1020c, 32, 16, 1, 4, .st, 2, 0xffffffff, 0, 0, false, []⟩,
  ⟨0x10500, 8, 4, 1, 4, .st, 1, 0, 0, 0, false, []⟩,
  ⟨0x10520, 1, 1048576, 1, 4, .st, 1, 0xf000fffc, 0, 0, false, []⟩,
  ⟨0x10524, 1, 1048576, 1, 4, .ro, 255, 0xf000, 0, 0, false, []⟩,
  ⟨0x10528, 1, 1048576, 1, 4, .cm, 255, 0xf000, 0, 0, false, []⟩
]

/-- The register rows of block TSC, part 1. -/
def rowsTscPart1 : List RegRow := [
  ⟨0x10540, 8, 4, 1, 4, .ro, 255, 0, 0, 0, false, []⟩,
  ⟨0x10560, 1, 1048576, 1, 4, .ro, 255, 0xf800e000, 0, 0, false, []⟩,
  ⟨0x10568, 1, 1048576, 1, 4, .cr, 255, 0, 0, 0, false, []⟩,
  ⟨0x1056c, 1, 1048576, 1, 4, .cr, 255, 0, 0, 0, false, []⟩
]

/-- The register rows of block TSC. -/
def rowsTsc : List RegRow := rowsTscPart0 ++ rowsTscPart1

/-- The register rows of block REF, part 0. -/
def rowsRefPart0 : List RegRow := [
  ⟨0x14000, 1, 1048576, 1, 4, .ro, 255, 0xff000000, 0xffff, 0, false, []⟩,
  ⟨0x14004, 1, 1048576, 1, 4, .sq, 255, 0xfffc00, 0, 0, false, []⟩,
  ⟨0x14008, 1, 1048576, 1, 4, .cr, 255, 0, 0, 0, false, []⟩,
  ⟨0x14010, 1, 1048576, 1, 4, .st, 4, 0xffffff8e, 0x61, 0, false, [⟨4, 3, false, 0, 6⟩]⟩,
  ⟨0x14014, 1, 1048576, 1, 4, .st, 4, 0xffffc000, 0x28, 0, false, [⟨0, 14, false, 1, 10000⟩]⟩,
  ⟨0x14018, 1, 1048576, 1, 4, .st, 4, 0xfffe0000, 0x32, 0, false, [⟨0, 17, false, 1, 10000⟩]⟩,
  ⟨0x1401c, 1, 1048576, 1, 4, .st, 4, 0xfff00000, 0x190, 0, false, [⟨0, 20, false, 10, 1000000⟩]⟩,
  ⟨0x14020, 1, 1048576, 1, 4, .st, 4, 0xfff00000, 0x1f4, 0, false, [⟨0, 20, false, 10, 1000000⟩]⟩,
  ⟨0x14024, 1, 1048576, 1, 4, .st, 4, 0xffffc000, 0x3e8, 0, false, [⟨0, 14, false, 200, 10000⟩]⟩,
  ⟨0x14028, 1, 1048576, 1, 4, .st, 4, 0xfffff000, 0x12c, 0, false, [⟨0, 12, false, 0, 3600⟩]⟩,
  ⟨0x1402c, 1, 1048576, 1, 4, .st, 4, 0xfffe0000, 0xe10, 0, false, [⟨0, 17, false, 60, 86400⟩]⟩,
  ⟨0x14030, 1, 1048576, 1, 4, .st, 4, 0xfffff0fc, 0, 0, false, [⟨8, 4, false, 0, 12⟩]⟩,
  ⟨0x14034, 1, 1048576, 1, 4, .st, 4, 0xfffff0fe, 0x200, 0, false, [⟨8, 4, false, 2, 5⟩]⟩,
  ⟨0x14040, 1, 1048576, 1, 4, .st, 4, 0, 0x7530, 0, false, []⟩,
  ⟨0x14044, 1, 1048576, 1, 4, .st, 4, 0, 0x9c40, 0, false, []⟩,
  ⟨0x14048, 1, 1048576, 1, 4, .st, 4, 0, 0x186a0, 0, false, []⟩,
  ⟨0x1404c, 1, 1048576, 1, 4, .st, 4, 0, 0xf4240, 0, false, []⟩,
  ⟨0x14050, 1, 1048576, 1, 4, .st, 4, 0, 0x989680, 0, false, []⟩,
  ⟨0x14054, 1, 1048576, 1, 4, .st, 4, 0, 0x5f5e100, 0, false, []⟩,
  ⟨0x14058, 1, 1048576, 1, 4, .st, 4, 0, 0x3b9aca00, 0, false, []⟩,
  ⟨0x1405c, 1, 1048576, 1, 4, .ro, 4, 0, 0xffffffff, 0, false, []⟩,
  ⟨0x14060, 1, 1048576, 1, 4, .st, 4, 0, 0xa, 0, false, []⟩,
  ⟨0x14064, 1, 1048576, 1, 4, .st, 4, 0, 0x64, 0, false, []⟩,
  ⟨0x14068, 1, 1048576, 1, 4, .st, 4, 0, 0x64, 0, false, []⟩,
  ⟨0x1406c, 1, 1048576, 1, 4, .st, 4, 0, 0x3e8, 0, false, []⟩,
  ⟨0x14070, 1, 1048576, 1, 4, .st, 4, 0, 0x2710, 0, false, []⟩,
  ⟨0x14074, 1, 1048576, 1, 4, .st, 4, 0, 0x2bde780, 0, false, []⟩,
  ⟨0x14078, 1, 1048576, 1, 4, .st, 4, 0, 0x5f5e100, 0, false, []⟩,
  ⟨0x1407c, 1, 1048576, 1, 4, .ro, 4, 0, 0xffffffff, 0, false, []⟩,
  ⟨0x14080, 1, 1048576, 1, 4, .gd, 255, 0, 0xff, 0, false, []⟩,
  ⟨0x14088, 1, 1048576, 1, 4, .gd, 255, 0, 0, 0, false, []⟩,
  ⟨0x14090, 1, 1048576, 1, 4, .ro, 255, 0, 0, 0, false, []⟩,
  ⟨0x14094, 1, 1048576, 1, 4, .cr, 255, 0, 0, 0, false, []⟩,
  ⟨0x14098, 1, 1048576, 1, 4, .ro, 255, 0xfffffffc, 0, 0, false, []⟩,
  ⟨0x15000, 1, 1048576, 1, 4, .st, 4, 0xfc0e000e, 0x1f03181, 0, false, [⟨12, 3, false, 0, 6⟩, ⟨15, 2, false, 0, 2⟩, ⟨24, 2, false, 0, 1⟩]⟩,
  ⟨0x15100, 1, 1048576, 1, 4, .st, 4, 0xfc0e000e, 0x1f03181, 0, false, [⟨12, 3, false, 0, 6⟩, ⟨15, 2, false, 0, 2⟩, ⟨24, 2, false, 0, 1⟩]⟩,
  ⟨0x15200, 1, 1048576, 1, 4, .st, 4, 0xfc0e000e, 0x1f0b080, 0, false, [⟨12, 3, false, 0, 6⟩, ⟨15, 2, false, 0, 2⟩, ⟨24, 2, false, 0, 1⟩]⟩,
  ⟨0x15300, 1, 1048576, 1, 4, .st, 4, 0xfc0e000e, 0x1f0b080, 0, false, [⟨12, 3, false, 0, 6⟩, ⟨15, 2, false, 0, 2⟩, ⟨24, 2, false, 0, 1⟩]⟩,
  ⟨0x15400, 1, 1048576, 1, 4, .st, 4, 0xfc0e000e, 0x1f0b080, 0, false, [⟨12, 3, false, 0, 6⟩, ⟨15, 2, false, 0, 2⟩, ⟨24, 2, false, 0, 1⟩]⟩,
  ⟨0x15500, 1, 1048576, 1, 4, .st, 4, 0xfc0e000e, 0x1f0b080, 0, false, [⟨12, 3, false, 0, 6⟩, ⟨15, 2, false, 0, 2⟩, ⟨24, 2, false, 0, 1⟩]⟩
]

/-- The register rows of block REF, part 1. -/
def rowsRefPart1 : List RegRow := [
  ⟨0x15600, 1, 1048576, 1, 4, .st, 4, 0xfc0e000e, 0x1f0b080, 0, false, [⟨12, 3, false, 0, 6⟩, ⟨15, 2, false, 0, 2⟩, ⟨24, 2, false, 0, 1⟩]⟩,
  ⟨0x15700, 1, 1048576, 1, 4, .st, 4, 0xfc0e000e, 0x1f0b080, 0, false, [⟨12, 3, false, 0, 6⟩, ⟨15, 2, false, 0, 2⟩, ⟨24, 2, false, 0, 1⟩]⟩,
  ⟨0x15800, 1, 1048576, 1, 4, .st, 4, 0xfc0e000e, 0x1f03080, 0, false, [⟨12, 3, false, 0, 6⟩, ⟨15, 2, false, 0, 2⟩, ⟨24, 2, false, 0, 1⟩]⟩,
  ⟨0x15900, 1, 1048576, 1, 4, .st, 4, 0xfc0e000e, 0x1f03080, 0, false, [⟨12, 3, false, 0, 6⟩, ⟨15, 2, false, 0, 2⟩, ⟨24, 2, false, 0, 1⟩]⟩,
  ⟨0x15a00, 1, 1048576, 1, 4, .st, 4, 0xfc0e000e, 0x1f03080, 0, false, [⟨12, 3, false, 0, 6⟩, ⟨15, 2, false, 0, 2⟩, ⟨24, 2, false, 0, 1⟩]⟩,
  ⟨0x15b00, 1, 1048576, 1, 4, .st, 4, 0xfc0e000e, 0x1f03080, 0, false, [⟨12, 3, false, 0, 6⟩, ⟨15, 2, false, 0, 2⟩, ⟨24, 2, false, 0, 1⟩]⟩,
  ⟨0x15c00, 1, 1048576, 1, 4, .st, 4, 0xfc0e000e, 0x1f03080, 0, false, [⟨12, 3, false, 0, 6⟩, ⟨15, 2, false, 0, 2⟩, ⟨24, 2, false, 0, 1⟩]⟩,
  ⟨0x15d00, 1, 1048576, 1, 4, .st, 4, 0xfc0e000e, 0x1f03080, 0, false, [⟨12, 3, false, 0, 6⟩, ⟨15, 2, false, 0, 2⟩, ⟨24, 2, false, 0, 1⟩]⟩,
  ⟨0x15004, 1, 1048576, 1, 4, .st, 4, 0xffe00000, 0x7d0, 0, false, [⟨0, 21, false, 100, 20000⟩]⟩,
  ⟨0x15104, 1, 1048576, 1, 4, .st, 4, 0xffe00000, 0x7d0, 0, false, [⟨0, 21, false, 100, 20000⟩]⟩,
  ⟨0x15204, 1, 1048576, 1, 4, .st, 4, 0xffe00000, 0x3e8, 0, false, []⟩,
  ⟨0x15304, 1, 1048576, 1, 4, .st, 4, 0xffe00000, 0x3e8, 0, false, []⟩,
  ⟨0x15404, 1, 1048576, 1, 4, .st, 4, 0xffe00000, 0x3e8, 0, false, []⟩,
  ⟨0x15504, 1, 1048576, 1, 4, .st, 4, 0xffe00000, 0x3e8, 0, false, []⟩,
  ⟨0x15604, 1, 1048576, 1, 4, .st, 4, 0xffe00000, 0x32, 0, false, []⟩,
  ⟨0x15704, 1, 1048576, 1, 4, .st, 4, 0xffe00000, 0x32, 0, false, []⟩,
  ⟨0x15804, 1, 1048576, 1, 4, .st, 4, 0xffe00000, 0x1388, 0, false, []⟩,
  ⟨0x15904, 1, 1048576, 1, 4, .st, 4, 0xffe00000, 0x1388, 0, false, []⟩,
  ⟨0x15a04, 1, 1048576, 1, 4, .st, 4, 0xffe00000, 0xf4240, 0, false, []⟩,
  ⟨0x15b04, 1, 1048576, 1, 4, .st, 4, 0xffe00000, 0xf4240, 0, false, []⟩,
  ⟨0x15c04, 1, 1048576, 1, 4, .st, 4, 0xffe00000, 0x7a120, 0, false, []⟩,
  ⟨0x15d04, 1, 1048576, 1, 4, .st, 4, 0xffe00000, 0, 0, false, []⟩,
  ⟨0x15008, 14, 256, 1, 4, .st, 4, 0, 0, 0, false, [⟨0, 32, true, (-1000000000), 1000000000⟩]⟩,
  ⟨0x1500c, 1, 1048576, 1, 4, .st, 4, 0, 0x12c, 0, false, [⟨0, 32, false, 0, 1000000000⟩]⟩,
  ⟨0x1510c, 1, 1048576, 1, 4, .st, 4, 0, 0x12c, 0, false, [⟨0, 32, false, 0, 1000000000⟩]⟩,
  ⟨0x1520c, 1, 1048576, 1, 4, .st, 4, 0, 0x1f4, 0, false, [⟨0, 32, false, 0, 1000000000⟩]⟩,
  ⟨0x1530c, 1, 1048576, 1, 4, .st, 4, 0, 0x1f4, 0, false, [⟨0, 32, false, 0, 1000000000⟩]⟩,
  ⟨0x1540c, 1, 1048576, 1, 4, .st, 4, 0, 0x1f4, 0, false, [⟨0, 32, false, 0, 1000000000⟩]⟩,
  ⟨0x1550c, 1, 1048576, 1, 4, .st, 4, 0, 0x1f4, 0, false, [⟨0, 32, false, 0, 1000000000⟩]⟩,
  ⟨0x1560c, 1, 1048576, 1, 4, .st, 4, 0, 0, 0, false, [⟨0, 32, false, 0, 1000000000⟩]⟩,
  ⟨0x1570c, 1, 1048576, 1, 4, .st, 4, 0, 0, 0, false, [⟨0, 32, false, 0, 1000000000⟩]⟩,
  ⟨0x1580c, 1, 1048576, 1, 4, .st, 4, 0, 0x3e8, 0, false, [⟨0, 32, false, 0, 1000000000⟩]⟩,
  ⟨0x1590c, 1, 1048576, 1, 4, .st, 4, 0, 0x3e8, 0, false, [⟨0, 32, false, 0, 1000000000⟩]⟩,
  ⟨0x15a0c, 1, 1048576, 1, 4, .st, 4, 0, 0, 0, false, [⟨0, 32, false, 0, 1000000000⟩]⟩,
  ⟨0x15b0c, 1, 1048576, 1, 4, .st, 4, 0, 0, 0, false, [⟨0, 32, false, 0, 1000000000⟩]⟩,
  ⟨0x15c0c, 1, 1048576, 1, 4, .st, 4, 0, 0x32, 0, false, [⟨0, 32, false, 0, 1000000000⟩]⟩,
  ⟨0x15d0c, 1, 1048576, 1, 4, .st, 4, 0, 0, 0, false, [⟨0, 32, false, 0, 1000000000⟩]⟩,
  ⟨0x15010, 1, 1048576, 1, 4, .st, 4, 0xfffff000, 0x3c, 0, false, [⟨0, 12, false, 1, 3600⟩]⟩,
  ⟨0x15110, 1, 1048576, 1, 4, .st, 4, 0xfffff000, 0x3c, 0, false, [⟨0, 12, false, 1, 3600⟩]⟩,
  ⟨0x15210, 1, 1048576, 1, 4, .st, 4, 0xfffff000, 0xa, 0, false, [⟨0, 12, false, 1, 3600⟩]⟩
]

/-- The register rows of block REF, part 2. -/
def rowsRefPart2 : List RegRow := [
  ⟨0x15310, 1, 1048576, 1, 4, .st, 4, 0xfffff000, 0xa, 0, false, [⟨0, 12, false, 1, 3600⟩]⟩,
  ⟨0x15410, 1, 1048576, 1, 4, .st, 4, 0xfffff000, 0xa, 0, false, [⟨0, 12, false, 1, 3600⟩]⟩,
  ⟨0x15510, 1, 1048576, 1, 4, .st, 4, 0xfffff000, 0xa, 0, false, [⟨0, 12, false, 1, 3600⟩]⟩,
  ⟨0x15610, 1, 1048576, 1, 4, .st, 4, 0xfffff000, 0x3c, 0, false, [⟨0, 12, false, 1, 3600⟩]⟩,
  ⟨0x15710, 1, 1048576, 1, 4, .st, 4, 0xfffff000, 0x3c, 0, false, [⟨0, 12, false, 1, 3600⟩]⟩,
  ⟨0x15810, 1, 1048576, 1, 4, .st, 4, 0xfffff000, 0x1e, 0, false, [⟨0, 12, false, 1, 3600⟩]⟩,
  ⟨0x15910, 1, 1048576, 1, 4, .st, 4, 0xfffff000, 0x1e, 0, false, [⟨0, 12, false, 1, 3600⟩]⟩,
  ⟨0x15a10, 1, 1048576, 1, 4, .st, 4, 0xfffff000, 0xa, 0, false, [⟨0, 12, false, 1, 3600⟩]⟩,
  ⟨0x15b10, 1, 1048576, 1, 4, .st, 4, 0xfffff000, 0xa, 0, false, [⟨0, 12, false, 1, 3600⟩]⟩,
  ⟨0x15c10, 1, 1048576, 1, 4, .st, 4, 0xfffff000, 1, 0, false, [⟨0, 12, false, 1, 3600⟩]⟩,
  ⟨0x15d10, 1, 1048576, 1, 4, .st, 4, 0xfffff000, 2, 0, false, [⟨0, 12, false, 1, 3600⟩]⟩,
  ⟨0x15014, 14, 256, 1, 4, .st, 4, 0x80000000, 0x989680, 0, false, [⟨0, 31, false, 1000000, 1500000000⟩]⟩,
  ⟨0x15020, 1, 1048576, 1, 4, .ro, 255, 0xffe00008, 0xf0, 0, false, []⟩,
  ⟨0x15120, 1, 1048576, 1, 4, .ro, 255, 0xffe00008, 0xf0, 0, false, []⟩,
  ⟨0x15220, 1, 1048576, 1, 4, .ro, 255, 0xffe00008, 0xf0, 0, false, []⟩,
  ⟨0x15320, 1, 1048576, 1, 4, .ro, 255, 0xffe00008, 0xf0, 0, false, []⟩,
  ⟨0x15420, 1, 1048576, 1, 4, .ro, 255, 0xffe00008, 0xf0, 0, false, []⟩,
  ⟨0x15520, 1, 1048576, 1, 4, .ro, 255, 0xffe00008, 0xf0, 0, false, []⟩,
  ⟨0x15620, 1, 1048576, 1, 4, .ro, 255, 0xffe00008, 0x70, 0, false, []⟩,
  ⟨0x15720, 1, 1048576, 1, 4, .ro, 255, 0xffe00008, 0x70, 0, false, []⟩,
  ⟨0x15820, 1, 1048576, 1, 4, .ro, 255, 0xffe00008, 0xf0, 0, false, []⟩,
  ⟨0x15920, 1, 1048576, 1, 4, .ro, 255, 0xffe00008, 0xf0, 0, false, []⟩,
  ⟨0x15a20, 1, 1048576, 1, 4, .ro, 255, 0xffe00008, 0x70, 0, false, []⟩,
  ⟨0x15b20, 1, 1048576, 1, 4, .ro, 255, 0xffe00008, 0x70, 0, false, []⟩,
  ⟨0x15c20, 1, 1048576, 1, 4, .ro, 255, 0xffe00008, 0xf0, 0, false, []⟩,
  ⟨0x15d20, 1, 1048576, 1, 4, .ro, 255, 0xffe00008, 0x70, 0, false, []⟩,
  ⟨0x15024, 14, 256, 1, 4, .sq, 255, 0xffff00, 0, 0, false, []⟩,
  ⟨0x15028, 14, 256, 1, 4, .ro, 255, 0, 0, 0, false, []⟩,
  ⟨0x1502c, 14, 256, 1, 4, .ro, 255, 0, 0, 0, false, []⟩,
  ⟨0x15030, 14, 256, 1, 4, .ro, 255, 0, 0x80000000, 0, false, []⟩,
  ⟨0x15034, 14, 256, 1, 4, .ro, 255, 0, 0x80000000, 0, false, []⟩,
  ⟨0x15038, 14, 256, 1, 4, .ro, 255, 0, 0, 0, false, []⟩,
  ⟨0x1503c, 14, 256, 1, 4, .ro, 255, 0, 0, 0, false, []⟩,
  ⟨0x15040, 14, 256, 1, 4, .ro, 255, 0, 0, 0, false, []⟩,
  ⟨0x15044, 14, 256, 1, 4, .ro, 255, 0xfffe0000, 0, 0, false, []⟩,
  ⟨0x15048, 14, 256, 1, 4, .ro, 255, 0, 0xffffffff, 0, false, []⟩,
  ⟨0x15050, 14, 256, 1, 4, .cr, 255, 0, 0, 0, false, []⟩,
  ⟨0x15054, 14, 256, 1, 4, .cr, 255, 0, 0, 0, false, []⟩,
  ⟨0x15058, 14, 256, 1, 4, .cr, 255, 0, 0, 0, false, []⟩
]

/-- The register rows of block REF. -/
def rowsRef : List RegRow := rowsRefPart0 ++ rowsRefPart1 ++ rowsRefPart2

/-- The register rows of block HOL, part 0. -/
def rowsHolPart0 : List RegRow := [
  ⟨0x18000, 1, 1048576, 1, 4, .ro, 255, 0xfffffe00, 0, 0, false, []⟩,
  ⟨0x18004, 1, 1048576, 1, 4, .sq, 255, 0xffc000, 0, 0, false, []⟩,
  ⟨0x18008, 1, 1048576, 1, 4, .cr, 255, 0, 0, 0, false, []⟩,
  ⟨0x18010, 1, 1048576, 1, 4, .st, 5, 0xfffffff0, 1, 0, false, []⟩,
  ⟨0x18014, 1, 1048576, 1, 4, .st, 5, 0xffc00000, 0x186a0, 0, false, [⟨0, 22, false, 1000, 4000000⟩]⟩,
  ⟨0x18018, 1, 1048576, 1, 4, .st, 5, 0xfffff000, 0x12c, 0, false, [⟨0, 12, false, 10, 3600⟩]⟩,
  ⟨0x1801c, 1, 1048576, 1, 4, .st, 5, 0xffffff00, 0xa8, 0, false, [⟨0, 8, false, 24, 192⟩]⟩,
  ⟨0x18020, 1, 1048576, 1, 4, .st, 5, 0xffffff00, 0x18, 0, false, [⟨0, 8, false, 6, 168⟩]⟩,
  ⟨0x18024, 1, 1048576, 1, 4, .st, 5, 0xfffe0000, 0x258, 0, false, [⟨0, 17, false, 60, 86400⟩]⟩,
  ⟨0x18028, 1, 1048576, 1, 4, .st, 5, 0xfffff800, 0x78, 0, false, [⟨0, 11, false, 0, 1440⟩]⟩,
  ⟨0x18030, 1, 1048576, 1, 4, .gd, 255, 0, 0, 0, false, []⟩,
  ⟨0x18040, 1, 1048576, 1, 4, .ro, 255, 0, 0, 0, false, []⟩,
  ⟨0x18044, 1, 1048576, 1, 4, .ro, 255, 0, 0xffffffff, 0, false, []⟩,
  ⟨0x18048, 1, 1048576, 1, 4, .ro, 255, 0, 0, 0, false, []⟩,
  ⟨0x1804c, 1, 1048576, 1, 4, .ro, 255, 0, 0, 0, false, []⟩,
  ⟨0x18050, 1, 1048576, 1, 4, .ro, 255, 0, 0, 0, false, []⟩,
  ⟨0x18054, 1, 1048576, 1, 4, .ro, 255, 0, 0x80000000, 0, false, []⟩,
  ⟨0x18058, 1, 1048576, 1, 4, .cr, 255, 0, 0, 0, false, []⟩,
  ⟨0x18060, 1, 1048576, 1, 4, .ro, 255, 0, 0x80000000, 0, false, []⟩,
  ⟨0x18064, 1, 1048576, 1, 4, .ro, 255, 0, 0x80000000, 0, false, []⟩,
  ⟨0x18068, 1, 1048576, 1, 4, .ro, 255, 0, 0x80000000, 0, false, []⟩,
  ⟨0x18100, 1, 1048576, 1, 4, .ro, 255, 0xfffff000, 0, 0, false, []⟩,
  ⟨0x18104, 1, 1048576, 1, 4, .ro, 255, 0, 0, 0, false, []⟩,
  ⟨0x18108, 1, 1048576, 1, 4, .ro, 255, 0, 0, 0, false, []⟩,
  ⟨0x1810c, 1, 1048576, 1, 4, .ro, 255, 0, 0, 0, false, []⟩,
  ⟨0x18110, 1, 1048576, 1, 4, .ro, 255, 0, 0, 0, false, []⟩,
  ⟨0x18114, 1, 1048576, 1, 4, .ro, 255, 0, 0, 0, false, []⟩,
  ⟨0x18118, 1, 1048576, 1, 4, .ro, 255, 0, 0, 0, false, []⟩,
  ⟨0x1811c, 1, 1048576, 1, 4, .ro, 255, 0, 0, 0, false, []⟩,
  ⟨0x18120, 1, 1048576, 1, 4, .ro, 255, 0, 0, 0, false, []⟩,
  ⟨0x18124, 1, 1048576, 1, 4, .ro, 255, 0xffff0000, 0, 0, false, []⟩,
  ⟨0x18128, 1, 1048576, 1, 4, .ro, 255, 0, 0, 0, false, []⟩,
  ⟨0x1812c, 1, 1048576, 1, 4, .ro, 255, 0, 0, 0, false, []⟩,
  ⟨0x18130, 1, 1048576, 1, 4, .ro, 255, 0, 0, 0, false, []⟩,
  ⟨0x18134, 1, 1048576, 1, 4, .ro, 255, 0, 0, 0, false, []⟩,
  ⟨0x18138, 1, 1048576, 1, 4, .ro, 255, 0xffffffff, 0, 0, false, []⟩,
  ⟨0x1813c, 1, 1048576, 1, 4, .ro, 255, 0xffffffff, 0, 0, false, []⟩,
  ⟨0x18140, 1, 1048576, 1, 4, .ro, 255, 0xfffff000, 0, 0, false, []⟩,
  ⟨0x18144, 1, 1048576, 1, 4, .ro, 255, 0, 0, 0, false, []⟩,
  ⟨0x18148, 1, 1048576, 1, 4, .ro, 255, 0, 0, 0, false, []⟩
]

/-- The register rows of block HOL, part 1. -/
def rowsHolPart1 : List RegRow := [
  ⟨0x1814c, 1, 1048576, 1, 4, .ro, 255, 0, 0, 0, false, []⟩,
  ⟨0x18150, 1, 1048576, 1, 4, .ro, 255, 0, 0, 0, false, []⟩,
  ⟨0x18154, 1, 1048576, 1, 4, .ro, 255, 0, 0, 0, false, []⟩,
  ⟨0x18158, 1, 1048576, 1, 4, .ro, 255, 0, 0, 0, false, []⟩,
  ⟨0x1815c, 1, 1048576, 1, 4, .ro, 255, 0, 0, 0, false, []⟩,
  ⟨0x18160, 1, 1048576, 1, 4, .ro, 255, 0, 0, 0, false, []⟩,
  ⟨0x18164, 1, 1048576, 1, 4, .ro, 255, 0xffff0000, 0, 0, false, []⟩,
  ⟨0x18168, 1, 1048576, 1, 4, .ro, 255, 0, 0, 0, false, []⟩,
  ⟨0x1816c, 1, 1048576, 1, 4, .ro, 255, 0, 0, 0, false, []⟩,
  ⟨0x18170, 1, 1048576, 1, 4, .ro, 255, 0, 0, 0, false, []⟩,
  ⟨0x18174, 1, 1048576, 1, 4, .ro, 255, 0, 0, 0, false, []⟩,
  ⟨0x18178, 1, 1048576, 1, 4, .ro, 255, 0xffffffff, 0, 0, false, []⟩,
  ⟨0x1817c, 1, 1048576, 1, 4, .ro, 255, 0xffffffff, 0, 0, false, []⟩,
  ⟨0x18200, 1, 1048576, 1, 4, .ro, 255, 0xffff0000, 0, 0, false, []⟩,
  ⟨0x18204, 1, 1048576, 1, 4, .ro, 255, 0, 0, 0, false, []⟩,
  ⟨0x18208, 1, 1048576, 1, 4, .ro, 255, 0, 0, 0, false, []⟩,
  ⟨0x1820c, 1, 1048576, 1, 4, .ro, 255, 0xfffe0000, 0, 0, false, []⟩,
  ⟨0x18210, 1, 1048576, 1, 4, .ro, 255, 0xffffff00, 0, 0, false, []⟩,
  ⟨0x18214, 1, 1048576, 1, 4, .cr, 255, 0, 0, 0, false, []⟩,
  ⟨0x18218, 1, 1048576, 1, 4, .cr, 255, 0, 0, 0, false, []⟩
]

/-- The register rows of block HOL. -/
def rowsHol : List RegRow := rowsHolPart0 ++ rowsHolPart1

/-- The register rows of block GNS, part 0. -/
def rowsGnsPart0 : List RegRow := [
  ⟨0x20000, 1, 1048576, 1, 4, .ro, 255, 0xffffe000, 0, 0, false, []⟩,
  ⟨0x20004, 1, 1048576, 1, 4, .sq, 255, 0xffffc0, 0, 0, false, []⟩,
  ⟨0x20008, 1, 1048576, 1, 4, .cr, 255, 0, 0, 0, false, []⟩,
  ⟨0x20010, 1, 1048576, 1, 4, .st, 6, 0xfffff0c0, 0xc3f, 0, false, [⟨8, 2, false, 0, 2⟩]⟩,
  ⟨0x20014, 1, 1048576, 1, 4, .st, 6, 0xffffc0c0, 0x1e0a, 0, false, [⟨0, 6, false, 0, 30⟩, ⟨8, 6, false, 20, 45⟩]⟩,
  ⟨0x20018, 1, 1048576, 1, 4, .st, 6, 0xffffff00, 0x44, 0, false, [⟨0, 4, false, 1, 8⟩, ⟨4, 4, false, 2, 8⟩]⟩,
  ⟨0x2001c, 1, 1048576, 1, 4, .st, 6, 0xffffff00, 0xff, 0, false, []⟩,
  ⟨0x20020, 1, 1048576, 1, 4, .st, 6, 0xffffffc0, 3, 0, false, [⟨0, 6, false, 1, 50⟩]⟩,
  ⟨0x20024, 1, 1048576, 1, 4, .st, 6, 0xfffffc00, 0x14, 0, false, [⟨0, 10, false, 5, 1000⟩]⟩,
  ⟨0x20028, 1, 1048576, 1, 4, .st, 6, 0xfffffc00, 0xa, 0, false, [⟨0, 10, false, 2, 1000⟩]⟩,
  ⟨0x2002c, 1, 1048576, 1, 4, .st, 6, 0xffffe000, 0x32, 0, false, [⟨0, 13, false, 5, 5000⟩]⟩,
  ⟨0x20030, 1, 1048576, 1, 4, .st, 6, 0xfffff000, 0x32, 0, false, [⟨0, 12, false, 5, 4000⟩]⟩,
  ⟨0x20034, 1, 1048576, 1, 4, .st, 6, 0xffffffc0, 0x37, 0, false, [⟨0, 6, false, 45, 63⟩]⟩,
  ⟨0x20038, 1, 1048576, 1, 4, .st, 6, 0xfffe0000, 0x258, 0, false, [⟨0, 17, false, 60, 86400⟩]⟩,
  ⟨0x2003c, 1, 1048576, 1, 4, .st, 6, 0xfffe0000, 0x258, 0, false, [⟨0, 17, false, 60, 86400⟩]⟩,
  ⟨0x20040, 1, 1048576, 1, 4, .st, 6, 0xfff00000, 0x5460, 0, false, [⟨0, 20, false, 600, 604800⟩]⟩,
  ⟨0x20044, 1, 1048576, 1, 4, .st, 6, 0xffffc000, 0x64, 0, false, [⟨0, 14, false, 10, 10000⟩]⟩,
  ⟨0x20048, 1, 1048576, 1, 4, .st, 6, 0xffe00000, 0x2a300, 0, false, [⟨0, 21, false, 0, 1209600⟩]⟩,
  ⟨0x2004c, 1, 1048576, 1, 4, .st, 6, 0xfffe00fe, 0x10000, 0, false, []⟩,
  ⟨0x20050, 1, 1048576, 1, 4, .st, 6, 0xffe0e0fc, 0xa0c03, 0, false, [⟨8, 5, false, 6, 30⟩, ⟨16, 5, false, 3, 30⟩]⟩,
  ⟨0x20080, 1, 1048576, 1, 4, .st, 7, 0xffffffe0, 0, 0, false, []⟩,
  ⟨0x20084, 1, 1048576, 1, 4, .st, 7, 0, 0, 0, false, []⟩,
  ⟨0x20088, 1, 1048576, 1, 4, .st, 7, 0, 0, 0, false, []⟩,
  ⟨0x2008c, 1, 1048576, 1, 4, .st, 7, 0, 0, 0, false, []⟩,
  ⟨0x20090, 1, 1048576, 1, 4, .st, 7, 0, 0, 0, false, []⟩,
  ⟨0x20094, 3, 4, 1, 4, .st, 7, 0, 0, 0, false, []⟩,
  ⟨0x200a0, 1, 1048576, 1, 4, .st, 7, 0xffffc000, 0x64, 0, false, [⟨0, 14, false, 1, 10000⟩]⟩,
  ⟨0x200a4, 1, 1048576, 1, 4, .st, 7, 0xffc000c0, 0x3e805, 0, false, [⟨8, 14, false, 1, 11650⟩]⟩,
  ⟨0x200a8, 1, 1048576, 1, 4, .st, 7, 0, 0, 0, false, []⟩,
  ⟨0x200ac, 1, 1048576, 1, 4, .st, 7, 0xffff0000, 0, 0, false, []⟩,
  ⟨0x200b0, 1, 1048576, 1, 4, .st, 7, 0xc0000000, 0, 0, false, [⟨0, 30, false, 0, 999999999⟩]⟩,
  ⟨0x200b4, 1, 1048576, 1, 4, .st, 7, 0xffffc000, 0, 0, false, []⟩,
  ⟨0x200c0, 1, 1048576, 1, 4, .ro, 255, 0xff00f0, 0, 0, false, []⟩,
  ⟨0x200c4, 1, 1048576, 1, 4, .ro, 255, 0xffc00000, 0, 0, false, []⟩,
  ⟨0x200d0, 1, 1048576, 1, 4, .cr, 255, 0, 0, 0, false, []⟩,
  ⟨0x200d4, 1, 1048576, 1, 4, .cr, 255, 0, 0, 0, false, []⟩,
  ⟨0x200d8, 1, 1048576, 1, 4, .cr, 255, 0, 0, 0, false, []⟩,
  ⟨0x200dc, 1, 1048576, 1, 4, .ro, 255, 0xfff00000, 0, 0, false, []⟩,
  ⟨0x21000, 2, 4096, 1, 4, .ro, 255, 0xff000000, 0, 0, false, []⟩,
  ⟨0x21004, 2, 4096, 1, 4, .sq, 255, 0xffff00, 0, 0, false, []⟩
]

/-- The register rows of block GNS, part 1. -/
def rowsGnsPart1 : List RegRow := [
  ⟨0x21008, 2, 4096, 1, 4, .cr, 255, 0, 0, 0, false, []⟩,
  ⟨0x21010, 2, 4096, 1, 4, .st, 6, 0xfffffff8, 3, 0, false, []⟩,
  ⟨0x21014, 2, 4096, 1, 4, .st, 6, 0, 0, 0, false, [⟨0, 32, true, (-10000000), 10000000⟩]⟩,
  ⟨0x21018, 2, 4096, 1, 4, .st, 6, 0, 0, 0, false, [⟨0, 32, true, (-10000000), 10000000⟩]⟩,
  ⟨0x2101c, 2, 4096, 1, 4, .ro, 255, 0, 0, 0xffffffff, false, []⟩,
  ⟨0x21020, 2, 4096, 1, 4, .ro, 255, 0, 0, 0xffffffff, false, []⟩,
  ⟨0x21030, 2, 4096, 3, 4, .ro, 255, 0, 0, 0, false, []⟩,
  ⟨0x2103c, 2, 4096, 1, 4, .ro, 255, 0, 0xffffffff, 0, false, []⟩,
  ⟨0x21040, 2, 4096, 1, 4, .ro, 255, 0, 0, 0, false, []⟩,
  ⟨0x21044, 2, 4096, 1, 4, .ro, 255, 0, 0, 0, false, []⟩,
  ⟨0x21048, 2, 4096, 1, 4, .ro, 255, 0, 0xffffffff, 0, false, []⟩,
  ⟨0x2104c, 2, 4096, 1, 4, .ro, 255, 0xffff0000, 0, 0, false, []⟩,
  ⟨0x21050, 2, 4096, 1, 4, .ro, 255, 0xe0000000, 0, 0, false, []⟩,
  ⟨0x21054, 2, 4096, 1, 4, .ro, 255, 0xffffff00, 0, 0, false, []⟩,
  ⟨0x21058, 2, 4096, 1, 4, .ro, 255, 0xffffe000, 0, 0, false, []⟩,
  ⟨0x21060, 2, 4096, 4, 4, .ro, 255, 0, 0x80000000, 0, false, []⟩,
  ⟨0x21070, 2, 4096, 1, 4, .ro, 255, 0xffe00000, 0, 0, false, []⟩,
  ⟨0x21074, 2, 4096, 1, 4, .ro, 255, 0, 0xffffffff, 0, false, []⟩,
  ⟨0x21080, 2, 4096, 1, 4, .ro, 255, 0xffc0fc00, 0, 0, false, []⟩,
  ⟨0x21084, 2, 4096, 1, 4, .ro, 255, 0xffc0fc00, 0, 0, false, []⟩,
  ⟨0x21088, 2, 4096, 1, 4, .ro, 255, 0xffff00c0, 0, 0, false, []⟩,
  ⟨0x2108c, 2, 4096, 1, 4, .ro, 255, 0xffff80fc, 0, 0, false, []⟩,
  ⟨0x21090, 2, 4096, 1, 4, .cr, 255, 0, 0, 0, false, []⟩,
  ⟨0x21094, 2, 4096, 1, 4, .cr, 255, 0, 0, 0, false, []⟩,
  ⟨0x21098, 2, 4096, 1, 4, .cr, 255, 0, 0, 0, false, []⟩,
  ⟨0x2109c, 2, 4096, 1, 4, .cr, 255, 0, 0, 0, false, []⟩,
  ⟨0x21200, 2, 4096, 640, 4, .ro, 255, 0, 0, 0, false, []⟩
]

/-- The register rows of block GNS. -/
def rowsGns : List RegRow := rowsGnsPart0 ++ rowsGnsPart1

/-- The register rows of block TTU, part 0. -/
def rowsTtuPart0 : List RegRow := [
  ⟨0x30000, 1, 1048576, 1, 4, .ro, 255, 0xfffffff8, 0, 0, false, []⟩,
  ⟨0x30004, 1, 1048576, 1, 4, .sq, 255, 0xffff80, 0, 0, false, []⟩,
  ⟨0x30008, 1, 1048576, 1, 4, .cr, 255, 0, 0, 0, false, []⟩,
  ⟨0x30010, 1, 1048576, 1, 4, .st, 8, 0xffff00fe, 0, 0, false, []⟩,
  ⟨0x30014, 1, 1048576, 1, 4, .st, 9, 0xffff00fe, 0, 0, false, []⟩,
  ⟨0x30018, 1, 1048576, 1, 4, .st, 8, 0xfffc0000, 0x4b1, 0, false, [⟨1, 17, false, 60, 86400⟩]⟩,
  ⟨0x3001c, 1, 1048576, 1, 4, .st, 8, 0xffff0000, 0x3fff, 0, false, []⟩,
  ⟨0x30020, 1, 1048576, 1, 4, .cr, 255, 0, 0, 0, false, []⟩,
  ⟨0x30024, 1, 1048576, 1, 4, .cr, 255, 0, 0, 0, false, []⟩,
  ⟨0x30100, 1, 1048576, 1, 4, .st, 8, 0xffe00000, 0x1a896, 0, false, [⟨0, 10, true, (-200), 400⟩, ⟨17, 4, false, 0, 10⟩]⟩,
  ⟨0x30140, 1, 1048576, 1, 4, .st, 8, 0xffe00000, 0x1a896, 0, false, [⟨0, 10, true, (-200), 400⟩, ⟨17, 4, false, 0, 10⟩]⟩,
  ⟨0x30180, 1, 1048576, 1, 4, .st, 8, 0xffe00000, 0x1a896, 0, false, [⟨0, 10, true, (-200), 400⟩, ⟨17, 4, false, 0, 10⟩]⟩,
  ⟨0x301c0, 1, 1048576, 1, 4, .st, 8, 0xffe00000, 0x1a896, 0, false, [⟨0, 10, true, (-200), 400⟩, ⟨17, 4, false, 0, 10⟩]⟩,
  ⟨0x30200, 1, 1048576, 1, 4, .st, 8, 0xffe00000, 0x1a896, 0, false, [⟨0, 10, true, (-200), 400⟩, ⟨17, 4, false, 0, 10⟩]⟩,
  ⟨0x30240, 1, 1048576, 1, 4, .st, 8, 0xffe00000, 0x1a896, 0, false, [⟨0, 10, true, (-200), 400⟩, ⟨17, 4, false, 0, 10⟩]⟩,
  ⟨0x30280, 1, 1048576, 1, 4, .st, 8, 0xffe00000, 0x1a896, 0, false, [⟨0, 10, true, (-200), 400⟩, ⟨17, 4, false, 0, 10⟩]⟩,
  ⟨0x302c0, 1, 1048576, 1, 4, .st, 8, 0xffe00000, 0x1a896, 0, false, [⟨0, 10, true, (-200), 400⟩, ⟨17, 4, false, 0, 10⟩]⟩,
  ⟨0x30300, 1, 1048576, 1, 4, .st, 8, 0xffe00000, 0x2896, 0, false, [⟨0, 10, true, (-200), 400⟩, ⟨17, 4, false, 0, 10⟩]⟩,
  ⟨0x30340, 1, 1048576, 1, 4, .st, 8, 0xffe00000, 0x2896, 0, false, [⟨0, 10, true, (-200), 400⟩, ⟨17, 4, false, 0, 10⟩]⟩,
  ⟨0x30380, 1, 1048576, 1, 4, .st, 8, 0xffe00000, 0x2896, 0, false, [⟨0, 10, true, (-200), 400⟩, ⟨17, 4, false, 0, 10⟩]⟩,
  ⟨0x303c0, 1, 1048576, 1, 4, .st, 8, 0xffe00000, 0x2896, 0, false, [⟨0, 10, true, (-200), 400⟩, ⟨17, 4, false, 0, 10⟩]⟩,
  ⟨0x30400, 1, 1048576, 1, 4, .st, 8, 0xffe00000, 0x6800, 0, false, [⟨0, 10, true, (-200), 400⟩, ⟨17, 4, false, 0, 10⟩]⟩,
  ⟨0x30440, 1, 1048576, 1, 4, .st, 8, 0xffe00000, 0x6800, 0, false, [⟨0, 10, true, (-200), 400⟩, ⟨17, 4, false, 0, 10⟩]⟩,
  ⟨0x30480, 1, 1048576, 1, 4, .st, 8, 0xffe00000, 0, 0, false, [⟨0, 10, true, (-200), 400⟩, ⟨17, 4, false, 0, 10⟩]⟩,
  ⟨0x304c0, 1, 1048576, 1, 4, .st, 8, 0xffe00000, 0, 0, false, [⟨0, 10, true, (-200), 400⟩, ⟨17, 4, false, 0, 10⟩]⟩,
  ⟨0x30104, 16, 64, 1, 4, .st, 8, 0xfffe0000, 0, 0, false, [⟨0, 17, false, 0, 65536⟩]⟩,
  ⟨0x30108, 14, 64, 1, 4, .st, 8, 0xffffffff, 0, 0, false, []⟩,
  ⟨0x30488, 1, 1048576, 1, 4, .st, 8, 0xfffffff8, 7, 0, false, []⟩,
  ⟨0x304c8, 1, 1048576, 1, 4, .st, 8, 0xffffffff, 0, 0, false, []⟩,
  ⟨0x3010c, 16, 64, 1, 4, .ro, 255, 0, 0, 0xffffffff, false, []⟩,
  ⟨0x30110, 16, 64, 1, 4, .cr, 255, 0, 0, 0, true, []⟩,
  ⟨0x30118, 16, 64, 1, 4, .cr, 255, 0, 0, 0, false, []⟩,
  ⟨0x3011c, 16, 64, 1, 4, .cr, 255, 0, 0, 0, false, []⟩,
  ⟨0x30120, 16, 64, 1, 4, .ro, 255, 0, 0, 0, false, []⟩,
  ⟨0x30124, 16, 64, 1, 4, .ro, 255, 0, 0, 0, false, []⟩,
  ⟨0x30800, 8, 64, 1, 4, .st, 9, 0xffffc00c, 0x2000, 0, false, [⟨8, 6, false, 1, 32⟩]⟩,
  ⟨0x30804, 8, 64, 1, 4, .st, 9, 0xffff0000, 0, 0, false, []⟩,
  ⟨0x30808, 8, 64, 1, 4, .st, 9, 0xff000000, 0, 0, false, [⟨0, 24, false, 0, 10000000⟩]⟩,
  ⟨0x3080c, 8, 64, 1, 4, .st, 9, 0xc0000000, 0x3e8, 0, false, [⟨0, 30, false, 0, 1000000000⟩]⟩,
  ⟨0x30810, 8, 64, 1, 4, .st, 9, 0xc0000000, 0, 0, false, [⟨0, 30, false, 0, 1000000000⟩]⟩,
  ⟨0x30814, 8, 64, 1, 4, .st, 9, 0xfff00000, 0x3e8, 0, false, [⟨0, 20, false, 1, 1000000⟩]⟩,
  ⟨0x30818, 8, 64, 1, 4, .st, 9, 0xc0000000, 0, 0, false, [⟨0, 30, false, 0, 999999999⟩]⟩
]

/-- The register rows of block TTU, part 1. -/
def rowsTtuPart1 : List RegRow := [
  ⟨0x30820, 8, 64, 1, 4, .ro, 255, 0, 0, 0, false, []⟩,
  ⟨0x30824, 8, 64, 1, 4, .cr, 255, 0, 0, 0, false, []⟩,
  ⟨0x30828, 8, 64, 1, 4, .cr, 255, 0, 0, 0, false, []⟩,
  ⟨0x3082c, 8, 64, 1, 4, .cr, 255, 0, 0, 0, false, []⟩,
  ⟨0x30830, 8, 64, 1, 4, .cr, 255, 0, 0, 0, false, []⟩,
  ⟨0x30834, 8, 64, 1, 4, .cr, 255, 0, 0, 0, false, []⟩
]

/-- The register rows of block TTU. -/
def rowsTtu : List RegRow := rowsTtuPart0 ++ rowsTtuPart1

/-- The register rows of block MAC, part 0. -/
def rowsMacPart0 : List RegRow := [
  ⟨0x40000, 1, 1048576, 1, 4, .ro, 255, 0xfffffe00, 0, 0, false, []⟩,
  ⟨0x40004, 1, 1048576, 1, 4, .sq, 255, 0xffffe0, 0, 0, false, []⟩,
  ⟨0x40008, 1, 1048576, 1, 4, .cr, 255, 0, 0, 0, false, []⟩,
  ⟨0x40010, 1, 1048576, 1, 4, .st, 10, 0xfffffc00, 0x3c0, 0, false, [⟨0, 2, false, 0, 2⟩]⟩,
  ⟨0x40014, 1, 1048576, 1, 4, .st, 11, 0xffffc000, 0x600, 0, false, [⟨0, 14, false, 64, 9600⟩]⟩,
  ⟨0x40018, 1, 1048576, 1, 4, .st, 11, 0xfffffc00, 0x64, 0, false, [⟨0, 10, false, 1, 1000⟩]⟩,
  ⟨0x4001c, 1, 1048576, 1, 4, .st, 11, 0xfffe0000, 0x3e8, 0, false, [⟨0, 17, false, 10, 100000⟩]⟩,
  ⟨0x40020, 1, 1048576, 1, 4, .st, 11, 0xffffff80, 0x14, 0, false, [⟨0, 7, false, 6, 100⟩]⟩,
  ⟨0x40030, 1, 1048576, 1, 4, .ro, 255, 0xffffc000, 0x2800, 0, false, []⟩,
  ⟨0x40034, 1, 1048576, 1, 4, .ro, 255, 0xffffff00, 0, 0, false, []⟩,
  ⟨0x40400, 4, 1024, 1, 4, .ro, 255, 0xffffff00, 0, 0, false, []⟩,
  ⟨0x40404, 4, 1024, 1, 4, .sq, 255, 0xfffe00, 0, 0, false, []⟩,
  ⟨0x40410, 4, 1024, 1, 4, .st, 10, 0, 0, 0xffffffff, false, []⟩,
  ⟨0x40414, 4, 1024, 1, 4, .st, 10, 0xffff0000, 0, 0xffff, false, []⟩,
  ⟨0x40418, 4, 1024, 1, 4, .st, 11, 0xffffc000, 0xc00, 0, false, [⟨0, 14, false, 1, 16383⟩]⟩,
  ⟨0x4041c, 4, 1024, 1, 4, .st, 11, 0xffffc000, 0x800, 0, false, [⟨0, 14, false, 0, 16382⟩]⟩,
  ⟨0x40420, 4, 1024, 1, 4, .st, 11, 0xc00c, 0xffff0642, 0, false, [⟨4, 10, false, 1, 1000⟩, ⟨16, 16, false, 1, 65535⟩]⟩,
  ⟨0x40424, 4, 1024, 1, 4, .st, 11, 0xfffffff0, 3, 0, false, []⟩,
  ⟨0x40430, 4, 1024, 1, 4, .st, 12, 0, 0, 0, false, [⟨0, 32, true, (-100000000), 100000000⟩]⟩,
  ⟨0x40434, 4, 1024, 1, 4, .st, 12, 0, 0, 0, false, [⟨0, 32, true, (-100000000), 100000000⟩]⟩,
  ⟨0x40438, 4, 1024, 1, 4, .ro, 255, 0, 0, 0xffffffff, false, []⟩,
  ⟨0x4043c, 4, 1024, 1, 4, .ro, 255, 0, 0, 0xffffffff, false, []⟩,
  ⟨0x40440, 4, 1024, 1, 4, .ro, 255, 0xffff0000, 0, 0, false, []⟩,
  ⟨0x40444, 4, 1024, 1, 4, .ro, 255, 0xffff0000, 0, 0, false, []⟩,
  ⟨0x40448, 4, 1024, 1, 4, .cm, 255, 0xfffe, 0, 0, false, []⟩,
  ⟨0x4044c, 4, 1024, 1, 4, .ro, 255, 0, 0xffffffff, 0, false, []⟩,
  ⟨0x40450, 4, 1024, 1, 4, .ro, 255, 0xffffc000, 0, 0, false, []⟩,
  ⟨0x40454, 4, 1024, 1, 4, .ro, 255, 0xfff00000, 0, 0, false, []⟩,
  ⟨0x40500, 4, 1024, 1, 4, .cr, 255, 0, 0, 0, true, []⟩,
  ⟨0x40508, 4, 1024, 1, 4, .cr, 255, 0, 0, 0, true, []⟩,
  ⟨0x40510, 4, 1024, 1, 4, .cr, 255, 0, 0, 0, true, []⟩,
  ⟨0x40518, 4, 1024, 1, 4, .cr, 255, 0, 0, 0, true, []⟩,
  ⟨0x40520, 4, 1024, 1, 4, .cr, 255, 0, 0, 0, true, []⟩,
  ⟨0x40528, 4, 1024, 1, 4, .cr, 255, 0, 0, 0, true, []⟩,
  ⟨0x40530, 4, 1024, 1, 4, .cr, 255, 0, 0, 0, true, []⟩,
  ⟨0x40538, 4, 1024, 1, 4, .cr, 255, 0, 0, 0, true, []⟩,
  ⟨0x40540, 4, 1024, 1, 4, .cr, 255, 0, 0, 0, false, []⟩,
  ⟨0x40544, 4, 1024, 1, 4, .cr, 255, 0, 0, 0, false, []⟩,
  ⟨0x40548, 4, 1024, 1, 4, .cr, 255, 0, 0, 0, false, []⟩,
  ⟨0x4054c, 4, 1024, 1, 4, .cr, 255, 0, 0, 0, false, []⟩
]

/-- The register rows of block MAC, part 1. -/
def rowsMacPart1 : List RegRow := [
  ⟨0x40550, 4, 1024, 1, 4, .cr, 255, 0, 0, 0, false, []⟩,
  ⟨0x40554, 4, 1024, 1, 4, .cr, 255, 0, 0, 0, false, []⟩,
  ⟨0x40558, 4, 1024, 1, 4, .cr, 255, 0, 0, 0, false, []⟩,
  ⟨0x4055c, 4, 1024, 1, 4, .cr, 255, 0, 0, 0, false, []⟩,
  ⟨0x40560, 4, 1024, 1, 4, .cr, 255, 0, 0, 0, false, []⟩,
  ⟨0x40564, 4, 1024, 1, 4, .cr, 255, 0, 0, 0, false, []⟩,
  ⟨0x40568, 4, 1024, 1, 4, .cr, 255, 0, 0, 0, false, []⟩,
  ⟨0x4056c, 4, 1024, 1, 4, .cr, 255, 0, 0, 0, false, []⟩,
  ⟨0x40570, 4, 1024, 1, 4, .cr, 255, 0, 0, 0, false, []⟩,
  ⟨0x40574, 4, 1024, 1, 4, .cr, 255, 0, 0, 0, false, []⟩,
  ⟨0x40578, 4, 1024, 1, 4, .cr, 255, 0, 0, 0, false, []⟩,
  ⟨0x4057c, 4, 1024, 1, 4, .cr, 255, 0, 0, 0, false, []⟩,
  ⟨0x40580, 4, 1024, 1, 4, .cr, 255, 0, 0, 0, false, []⟩,
  ⟨0x40584, 4, 1024, 1, 4, .cr, 255, 0, 0, 0, false, []⟩,
  ⟨0x40588, 4, 1024, 1, 4, .cr, 255, 0, 0, 0, false, []⟩,
  ⟨0x4058c, 4, 1024, 1, 4, .cr, 255, 0, 0, 0, false, []⟩,
  ⟨0x40590, 4, 1024, 1, 4, .cr, 255, 0, 0, 0, false, []⟩,
  ⟨0x40594, 4, 1024, 1, 4, .cr, 255, 0, 0, 0, false, []⟩,
  ⟨0x40598, 4, 1024, 1, 4, .cr, 255, 0, 0, 0, false, []⟩
]

/-- The register rows of block MAC. -/
def rowsMac : List RegRow := rowsMacPart0 ++ rowsMacPart1

/-- The register rows of block MAC1, part 0. -/
def rowsMac1Part0 : List RegRow := [
  ⟨0x44000, 1, 1048576, 1, 4, .ro, 255, 0xfffffe00, 0, 0, false, []⟩,
  ⟨0x44004, 1, 1048576, 1, 4, .sq, 255, 0xffffe0, 0, 0, false, []⟩,
  ⟨0x44008, 1, 1048576, 1, 4, .cr, 255, 0, 0, 0, false, []⟩,
  ⟨0x44010, 1, 1048576, 1, 4, .st, 13, 0xfffffc00, 0x3c0, 0, false, [⟨0, 2, false, 0, 2⟩]⟩,
  ⟨0x44014, 1, 1048576, 1, 4, .st, 14, 0xffffc000, 0x600, 0, false, [⟨0, 14, false, 64, 9600⟩]⟩,
  ⟨0x44018, 1, 1048576, 1, 4, .st, 14, 0xfffffc00, 0x64, 0, false, [⟨0, 10, false, 1, 1000⟩]⟩,
  ⟨0x4401c, 1, 1048576, 1, 4, .st, 14, 0xfffe0000, 0x3e8, 0, false, [⟨0, 17, false, 10, 100000⟩]⟩,
  ⟨0x44020, 1, 1048576, 1, 4, .st, 14, 0xffffff80, 0x14, 0, false, [⟨0, 7, false, 6, 100⟩]⟩,
  ⟨0x44030, 1, 1048576, 1, 4, .ro, 255, 0xffffc000, 0x2800, 0, false, []⟩,
  ⟨0x44034, 1, 1048576, 1, 4, .ro, 255, 0xffffff00, 0, 0, false, []⟩,
  ⟨0x44400, 4, 1024, 1, 4, .ro, 255, 0xffffff00, 0, 0, false, []⟩,
  ⟨0x44404, 4, 1024, 1, 4, .sq, 255, 0xfffe00, 0, 0, false, []⟩,
  ⟨0x44410, 4, 1024, 1, 4, .st, 13, 0, 0, 0xffffffff, false, []⟩,
  ⟨0x44414, 4, 1024, 1, 4, .st, 13, 0xffff0000, 0, 0xffff, false, []⟩,
  ⟨0x44418, 4, 1024, 1, 4, .st, 14, 0xffffc000, 0xc00, 0, false, [⟨0, 14, false, 1, 16383⟩]⟩,
  ⟨0x4441c, 4, 1024, 1, 4, .st, 14, 0xffffc000, 0x800, 0, false, [⟨0, 14, false, 0, 16382⟩]⟩,
  ⟨0x44420, 4, 1024, 1, 4, .st, 14, 0xc00c, 0xffff0642, 0, false, [⟨4, 10, false, 1, 1000⟩, ⟨16, 16, false, 1, 65535⟩]⟩,
  ⟨0x44424, 4, 1024, 1, 4, .st, 14, 0xfffffff0, 3, 0, false, []⟩,
  ⟨0x44430, 4, 1024, 1, 4, .st, 15, 0, 0, 0, false, [⟨0, 32, true, (-100000000), 100000000⟩]⟩,
  ⟨0x44434, 4, 1024, 1, 4, .st, 15, 0, 0, 0, false, [⟨0, 32, true, (-100000000), 100000000⟩]⟩,
  ⟨0x44438, 4, 1024, 1, 4, .ro, 255, 0, 0, 0xffffffff, false, []⟩,
  ⟨0x4443c, 4, 1024, 1, 4, .ro, 255, 0, 0, 0xffffffff, false, []⟩,
  ⟨0x44440, 4, 1024, 1, 4, .ro, 255, 0xffff0000, 0, 0, false, []⟩,
  ⟨0x44444, 4, 1024, 1, 4, .ro, 255, 0xffff0000, 0, 0, false, []⟩,
  ⟨0x44448, 4, 1024, 1, 4, .cm, 255, 0xfffe, 0, 0, false, []⟩,
  ⟨0x4444c, 4, 1024, 1, 4, .ro, 255, 0, 0xffffffff, 0, false, []⟩,
  ⟨0x44450, 4, 1024, 1, 4, .ro, 255, 0xffffc000, 0, 0, false, []⟩,
  ⟨0x44454, 4, 1024, 1, 4, .ro, 255, 0xfff00000, 0, 0, false, []⟩,
  ⟨0x44500, 4, 1024, 1, 4, .cr, 255, 0, 0, 0, true, []⟩,
  ⟨0x44508, 4, 1024, 1, 4, .cr, 255, 0, 0, 0, true, []⟩,
  ⟨0x44510, 4, 1024, 1, 4, .cr, 255, 0, 0, 0, true, []⟩,
  ⟨0x44518, 4, 1024, 1, 4, .cr, 255, 0, 0, 0, true, []⟩,
  ⟨0x44520, 4, 1024, 1, 4, .cr, 255, 0, 0, 0, true, []⟩,
  ⟨0x44528, 4, 1024, 1, 4, .cr, 255, 0, 0, 0, true, []⟩,
  ⟨0x44530, 4, 1024, 1, 4, .cr, 255, 0, 0, 0, true, []⟩,
  ⟨0x44538, 4, 1024, 1, 4, .cr, 255, 0, 0, 0, true, []⟩,
  ⟨0x44540, 4, 1024, 1, 4, .cr, 255, 0, 0, 0, false, []⟩,
  ⟨0x44544, 4, 1024, 1, 4, .cr, 255, 0, 0, 0, false, []⟩,
  ⟨0x44548, 4, 1024, 1, 4, .cr, 255, 0, 0, 0, false, []⟩,
  ⟨0x4454c, 4, 1024, 1, 4, .cr, 255, 0, 0, 0, false, []⟩
]

/-- The register rows of block MAC1, part 1. -/
def rowsMac1Part1 : List RegRow := [
  ⟨0x44550, 4, 1024, 1, 4, .cr, 255, 0, 0, 0, false, []⟩,
  ⟨0x44554, 4, 1024, 1, 4, .cr, 255, 0, 0, 0, false, []⟩,
  ⟨0x44558, 4, 1024, 1, 4, .cr, 255, 0, 0, 0, false, []⟩,
  ⟨0x4455c, 4, 1024, 1, 4, .cr, 255, 0, 0, 0, false, []⟩,
  ⟨0x44560, 4, 1024, 1, 4, .cr, 255, 0, 0, 0, false, []⟩,
  ⟨0x44564, 4, 1024, 1, 4, .cr, 255, 0, 0, 0, false, []⟩,
  ⟨0x44568, 4, 1024, 1, 4, .cr, 255, 0, 0, 0, false, []⟩,
  ⟨0x4456c, 4, 1024, 1, 4, .cr, 255, 0, 0, 0, false, []⟩,
  ⟨0x44570, 4, 1024, 1, 4, .cr, 255, 0, 0, 0, false, []⟩,
  ⟨0x44574, 4, 1024, 1, 4, .cr, 255, 0, 0, 0, false, []⟩,
  ⟨0x44578, 4, 1024, 1, 4, .cr, 255, 0, 0, 0, false, []⟩,
  ⟨0x4457c, 4, 1024, 1, 4, .cr, 255, 0, 0, 0, false, []⟩,
  ⟨0x44580, 4, 1024, 1, 4, .cr, 255, 0, 0, 0, false, []⟩,
  ⟨0x44584, 4, 1024, 1, 4, .cr, 255, 0, 0, 0, false, []⟩,
  ⟨0x44588, 4, 1024, 1, 4, .cr, 255, 0, 0, 0, false, []⟩,
  ⟨0x4458c, 4, 1024, 1, 4, .cr, 255, 0, 0, 0, false, []⟩,
  ⟨0x44590, 4, 1024, 1, 4, .cr, 255, 0, 0, 0, false, []⟩,
  ⟨0x44594, 4, 1024, 1, 4, .cr, 255, 0, 0, 0, false, []⟩,
  ⟨0x44598, 4, 1024, 1, 4, .cr, 255, 0, 0, 0, false, []⟩
]

/-- The register rows of block MAC1. -/
def rowsMac1 : List RegRow := rowsMac1Part0 ++ rowsMac1Part1

/-- The register rows of block CMAC. -/
def rowsCmac : List RegRow := [
  ⟨0x48000, 1, 1048576, 1, 4, .ro, 255, 0xffffe000, 0, 0, false, []⟩,
  ⟨0x48004, 1, 1048576, 1, 4, .sq, 255, 0xfffff0, 0, 0, false, []⟩,
  ⟨0x48008, 1, 1048576, 1, 4, .cr, 255, 0, 0, 0, false, []⟩,
  ⟨0x48030, 1, 1048576, 1, 4, .ro, 255, 0xffffc000, 0x2800, 0, false, []⟩,
  ⟨0x48034, 1, 1048576, 1, 4, .ro, 255, 0xffffc000, 0x2800, 0, false, []⟩,
  ⟨0x48038, 1, 1048576, 1, 4, .ro, 255, 0xffff0000, 0, 0, false, []⟩,
  ⟨0x48400, 8, 256, 1, 4, .ro, 255, 0xfffffe00, 0, 0, false, []⟩,
  ⟨0x48404, 8, 256, 1, 4, .sq, 255, 0xffff80, 0, 0, false, []⟩,
  ⟨0x48410, 8, 256, 1, 4, .st, 31, 0xffffff08, 0x80, 0, false, [⟨1, 2, false, 0, 2⟩]⟩,
  ⟨0x48414, 8, 256, 1, 4, .st, 31, 0, 0, 0xffffffff, false, []⟩,
  ⟨0x48418, 8, 256, 1, 4, .st, 31, 0xffff0000, 0, 0xffff, false, []⟩,
  ⟨0x48420, 8, 256, 1, 4, .st, 32, 0, 0, 0, false, [⟨0, 32, true, (-10000000), 10000000⟩]⟩,
  ⟨0x48424, 8, 256, 1, 4, .st, 32, 0, 0x2710, 0, false, [⟨0, 32, false, 0, 10000000⟩]⟩,
  ⟨0x48430, 8, 256, 1, 4, .ro, 255, 0, 0, 0xffffffff, false, []⟩,
  ⟨0x48434, 8, 256, 1, 4, .ro, 255, 0, 0, 0xffffffff, false, []⟩,
  ⟨0x48438, 8, 256, 1, 4, .ro, 255, 0xffff0000, 0, 0, false, []⟩,
  ⟨0x4843c, 8, 256, 1, 4, .ro, 255, 0xffff0000, 0, 0, false, []⟩,
  ⟨0x48440, 8, 256, 1, 4, .ro, 255, 0, 0, 0, false, []⟩,
  ⟨0x48444, 8, 256, 1, 4, .ro, 255, 0, 0, 0, false, []⟩,
  ⟨0x48448, 8, 256, 1, 4, .ro, 255, 0, 0xffffffff, 0, false, []⟩,
  ⟨0x4844c, 8, 256, 1, 4, .ro, 255, 0xffffff80, 0, 0, false, []⟩,
  ⟨0x48450, 8, 256, 1, 4, .ro, 255, 0, 0, 0, false, []⟩,
  ⟨0x48454, 8, 256, 1, 4, .ro, 255, 0, 0, 0, false, []⟩,
  ⟨0x48458, 8, 256, 1, 4, .ro, 255, 0xffff0008, 0xff00, 0, false, []⟩,
  ⟨0x4845c, 8, 256, 1, 4, .ro, 255, 0, 0, 0, false, []⟩,
  ⟨0x48480, 8, 256, 1, 4, .cr, 255, 0, 0, 0, false, []⟩,
  ⟨0x48484, 8, 256, 1, 4, .cr, 255, 0, 0, 0, false, []⟩,
  ⟨0x48488, 8, 256, 1, 4, .cr, 255, 0, 0, 0, false, []⟩,
  ⟨0x4848c, 8, 256, 1, 4, .cr, 255, 0, 0, 0, false, []⟩,
  ⟨0x48490, 8, 256, 1, 4, .cr, 255, 0, 0, 0, false, []⟩,
  ⟨0x48494, 8, 256, 1, 4, .cr, 255, 0, 0, 0, false, []⟩,
  ⟨0x48498, 8, 256, 1, 4, .cr, 255, 0, 0, 0, false, []⟩,
  ⟨0x4849c, 8, 256, 1, 4, .cr, 255, 0, 0, 0, false, []⟩
]

/-- The register rows of block HRC. -/
def rowsHrc : List RegRow := [
  ⟨0x50000, 1, 1048576, 1, 4, .ro, 255, 0xf8000000, 0, 0, false, []⟩,
  ⟨0x50004, 1, 1048576, 1, 4, .sq, 255, 0xffffe0, 0, 0, false, []⟩,
  ⟨0x50008, 1, 1048576, 1, 4, .cr, 255, 0, 0, 0, false, []⟩,
  ⟨0x50010, 1, 1048576, 1, 4, .st, 17, 0xfffffff8, 3, 0, false, []⟩,
  ⟨0x50014, 1, 1048576, 1, 4, .st, 17, 0xfffff000, 0x40, 0, false, [⟨0, 12, false, 1, 3600⟩]⟩,
  ⟨0x50018, 1, 1048576, 1, 4, .st, 17, 0, 0x10010000, 0, false, [⟨0, 20, false, 0, 1000000⟩, ⟨20, 12, false, 1, 4095⟩]⟩,
  ⟨0x50020, 1, 1048576, 1, 4, .st, 17, 0, 0xffffffff, 0, false, []⟩,
  ⟨0x50024, 1, 1048576, 1, 4, .st, 17, 0, 0xffffffff, 0, false, []⟩,
  ⟨0x50030, 1, 1048576, 1, 4, .ro, 255, 0, 0, 0, false, []⟩,
  ⟨0x50040, 1, 1048576, 1, 4, .cr, 255, 0, 0, 0, false, []⟩,
  ⟨0x50044, 1, 1048576, 1, 4, .cr, 255, 0, 0, 0, false, []⟩,
  ⟨0x50048, 1, 1048576, 1, 4, .cr, 255, 0, 0, 0, false, []⟩,
  ⟨0x5004c, 1, 1048576, 1, 4, .cr, 255, 0, 0, 0, false, []⟩,
  ⟨0x50050, 1, 1048576, 1, 4, .cr, 255, 0, 0, 0, false, []⟩,
  ⟨0x50054, 1, 1048576, 1, 4, .cr, 255, 0, 0, 0, false, []⟩,
  ⟨0x50058, 1, 1048576, 1, 4, .cr, 255, 0, 0, 0, false, []⟩,
  ⟨0x5005c, 1, 1048576, 1, 4, .cr, 255, 0, 0, 0, false, []⟩,
  ⟨0x50060, 1, 1048576, 1, 4, .cr, 255, 0, 0, 0, false, []⟩,
  ⟨0x50080, 4, 4, 1, 4, .st, 19, 0, 0, 0, false, []⟩,
  ⟨0x50090, 1, 1048576, 1, 4, .st, 19, 0xfffffffe, 0, 0, false, []⟩,
  ⟨0x50094, 1, 1048576, 1, 4, .ro, 255, 0xc00000fe, 0, 0, false, []⟩,
  ⟨0x500a0, 16, 4, 1, 4, .ro, 255, 0, 0, 0, false, []⟩,
  ⟨0x50100, 16, 8, 1, 4, .st, 18, 0, 0x76543210, 0, false, []⟩,
  ⟨0x50104, 16, 8, 1, 4, .st, 18, 0, 0xfedcba98, 0, false, []⟩,
  ⟨0x50800, 64, 32, 4, 4, .st, 16, 0, 0, 0, false, []⟩,
  ⟨0x50810, 64, 32, 1, 4, .st, 16, 0xe000c000, 0, 0, false, [⟨0, 12, false, 0, 4094⟩, ⟨16, 12, false, 0, 4094⟩]⟩,
  ⟨0x50814, 64, 32, 1, 4, .st, 16, 0xffff00e0, 0xff02, 0, false, []⟩,
  ⟨0x50818, 64, 32, 1, 4, .st, 16, 0xfffffe00, 0x104, 0, false, [⟨2, 4, false, 1, 15⟩]⟩,
  ⟨0x5081c, 64, 32, 1, 4, .st, 16, 0, 0, 0, false, []⟩
]

/-- The register rows of block SVP. -/
def rowsSvp : List RegRow := [
  ⟨0x5c000, 1, 1048576, 1, 4, .ro, 255, 0xfffe0000, 0, 0, false, []⟩,
  ⟨0x5c004, 1, 1048576, 1, 4, .sq, 255, 0xfffff0, 0, 0, false, []⟩,
  ⟨0x5c008, 1, 1048576, 1, 4, .cr, 255, 0, 0, 0, false, []⟩,
  ⟨0x5c040, 4, 16, 1, 4, .st, 20, 0xfffe0000, 0x3e8, 0, false, [⟨0, 17, false, 0, 100000⟩]⟩,
  ⟨0x5c044, 4, 16, 1, 4, .st, 20, 0xffffff00, 0x10, 0, false, [⟨0, 8, false, 1, 255⟩]⟩,
  ⟨0x5c048, 4, 16, 1, 4, .st, 20, 0xf000fe0c, 0x100041, 0, false, [⟨0, 2, false, 0, 2⟩, ⟨4, 5, false, 0, 17⟩, ⟨16, 12, false, 1, 3600⟩]⟩,
  ⟨0x58000, 16, 1024, 1, 4, .ro, 255, 0xfe00c0fc, 0x100000, 0, false, []⟩,
  ⟨0x58100, 16, 1024, 1, 4, .cr, 255, 0, 0, 0, true, []⟩,
  ⟨0x58108, 16, 1024, 1, 4, .cr, 255, 0, 0, 0, true, []⟩,
  ⟨0x58110, 16, 1024, 1, 4, .cr, 255, 0, 0, 0, true, []⟩,
  ⟨0x58118, 16, 1024, 1, 4, .cr, 255, 0, 0, 0, true, []⟩,
  ⟨0x58120, 16, 1024, 1, 4, .cr, 255, 0, 0, 0, false, []⟩,
  ⟨0x58124, 16, 1024, 1, 4, .cr, 255, 0, 0, 0, false, []⟩,
  ⟨0x58128, 16, 1024, 1, 4, .cr, 255, 0, 0, 0, false, []⟩,
  ⟨0x5812c, 16, 1024, 1, 4, .cr, 255, 0, 0, 0, false, []⟩,
  ⟨0x58130, 16, 1024, 1, 4, .cr, 255, 0, 0, 0, false, []⟩,
  ⟨0x58134, 16, 1024, 1, 4, .cr, 255, 0, 0, 0, false, []⟩,
  ⟨0x58138, 16, 1024, 1, 4, .cr, 255, 0, 0, 0, false, []⟩,
  ⟨0x5813c, 16, 1024, 1, 4, .cr, 255, 0, 0, 0, false, []⟩,
  ⟨0x58140, 16, 1024, 1, 4, .cr, 255, 0, 0, 0, false, []⟩,
  ⟨0x58144, 16, 1024, 1, 4, .cr, 255, 0, 0, 0, false, []⟩,
  ⟨0x58148, 16, 1024, 1, 4, .cr, 255, 0, 0, 0, false, []⟩,
  ⟨0x5814c, 16, 1024, 1, 4, .cr, 255, 0, 0, 0, false, []⟩,
  ⟨0x58150, 16, 1024, 1, 4, .cr, 255, 0, 0, 0, false, []⟩,
  ⟨0x58154, 16, 1024, 1, 4, .cr, 255, 0, 0, 0, false, []⟩,
  ⟨0x58158, 16, 1024, 1, 4, .cr, 255, 0, 0, 0, false, []⟩,
  ⟨0x58200, 16, 1024, 1, 4, .cm, 255, 0xfff8, 0, 0, false, []⟩,
  ⟨0x58204, 16, 1024, 1, 4, .ro, 255, 0xff00fc, 0, 0, false, []⟩,
  ⟨0x58208, 16, 1024, 1, 4, .ro, 255, 0, 0, 0xffffffff, false, []⟩,
  ⟨0x5820c, 16, 1024, 1, 4, .ro, 255, 0xfffffffe, 0, 0, false, []⟩,
  ⟨0x58210, 16, 1024, 1, 4, .cr, 255, 0, 0, 0, false, []⟩,
  ⟨0x58220, 16, 1024, 8, 4, .ro, 255, 0, 0, 0xffffffff, false, []⟩
]

/-- The register rows of block NTS. -/
def rowsNts : List RegRow := [
  ⟨0x60000, 1, 1048576, 1, 4, .ro, 255, 0xfffffff0, 0, 0, false, []⟩,
  ⟨0x60004, 1, 1048576, 1, 4, .sq, 255, 0xffffc0, 0, 0, false, []⟩,
  ⟨0x60008, 1, 1048576, 1, 4, .cr, 255, 0, 0, 0, false, []⟩,
  ⟨0x60010, 1, 1048576, 1, 4, .st, 21, 0xfffffff8, 5, 0, false, [⟨1, 2, false, 1, 3⟩]⟩,
  ⟨0x60014, 1, 1048576, 1, 4, .st, 21, 0xfff00000, 0x15180, 0, false, [⟨0, 20, false, 3600, 604800⟩]⟩,
  ⟨0x60018, 1, 1048576, 1, 4, .st, 21, 0xfff00000, 0, 0, false, []⟩,
  ⟨0x6001c, 1, 1048576, 1, 4, .st, 21, 0xfffe00fe, 0x10000, 0, false, []⟩,
  ⟨0x60020, 1, 1048576, 1, 4, .gd, 255, 0, 0, 0, false, []⟩,
  ⟨0x60030, 1, 1048576, 1, 4, .ro, 255, 0, 0, 0, false, []⟩,
  ⟨0x60034, 3, 4, 1, 4, .ro, 255, 0, 0, 0, false, []⟩,
  ⟨0x60040, 1, 1048576, 1, 4, .ro, 255, 0, 0, 0, false, []⟩,
  ⟨0x60044, 1, 1048576, 1, 4, .ro, 255, 0xffff0000, 0, 0, false, []⟩,
  ⟨0x60050, 1, 1048576, 1, 4, .cr, 255, 0, 0, 0, true, []⟩,
  ⟨0x60058, 1, 1048576, 1, 4, .cr, 255, 0, 0, 0, false, []⟩,
  ⟨0x6005c, 1, 1048576, 1, 4, .cr, 255, 0, 0, 0, false, []⟩,
  ⟨0x60060, 1, 1048576, 1, 4, .cr, 255, 0, 0, 0, false, []⟩
]

/-- The register rows of block PTP, part 0. -/
def rowsPtpPart0 : List RegRow := [
  ⟨0x68000, 1, 1048576, 1, 4, .ro, 255, 0xfffffe00, 0xf8, 0, false, []⟩,
  ⟨0x68004, 1, 1048576, 1, 4, .sq, 255, 0xffffe0, 0, 0, false, []⟩,
  ⟨0x68008, 1, 1048576, 1, 4, .cr, 255, 0, 0, 0, false, []⟩,
  ⟨0x68010, 1, 1048576, 1, 4, .st, 22, 0xc0008000, 0x20000aff, 0, false, [⟨8, 7, false, 2, 100⟩, ⟨16, 14, false, 0, 8192⟩]⟩,
  ⟨0x68014, 1, 1048576, 1, 4, .st, 22, 0xfffe0000, 0x64, 0, false, [⟨0, 17, false, 1, 100000⟩]⟩,
  ⟨0x68018, 1, 1048576, 1, 4, .st, 22, 0xffc00000, 0x3e8, 0, false, [⟨0, 22, false, 1, 4000000⟩]⟩,
  ⟨0x6801c, 1, 1048576, 1, 4, .st, 22, 0xffc00000, 0x2710, 0, false, [⟨0, 22, false, 1, 4000000⟩]⟩,
  ⟨0x68020, 1, 1048576, 1, 4, .ro, 255, 0, 0, 0xffffffff, false, []⟩,
  ⟨0x68024, 1, 1048576, 1, 4, .ro, 255, 0, 0, 0xffffffff, false, []⟩,
  ⟨0x68028, 1, 1048576, 1, 4, .ro, 255, 0, 0xffffa0fe, 0, false, []⟩,
  ⟨0x68030, 1, 1048576, 1, 4, .st, 22, 0xffff00fc, 2, 0, false, []⟩,
  ⟨0x68034, 1, 1048576, 1, 4, .st, 22, 0xfffff8f8, 0x400, 0, false, []⟩,
  ⟨0x68038, 1, 1048576, 1, 4, .ro, 255, 0xff0000f0, 0xff0f, 0, false, []⟩,
  ⟨0x68040, 1, 1048576, 1, 4, .cm, 255, 0xffffe000, 0, 0, false, []⟩,
  ⟨0x68044, 1, 1048576, 1, 4, .ro, 255, 0xffffc000, 0, 0, false, []⟩,
  ⟨0x68050, 1, 1048576, 1, 4, .cr, 255, 0, 0, 0, true, []⟩,
  ⟨0x68058, 1, 1048576, 1, 4, .cr, 255, 0, 0, 0, true, []⟩,
  ⟨0x68060, 1, 1048576, 1, 4, .cr, 255, 0, 0, 0, false, []⟩,
  ⟨0x68064, 1, 1048576, 1, 4, .cr, 255, 0, 0, 0, false, []⟩,
  ⟨0x68068, 1, 1048576, 1, 4, .cr, 255, 0, 0, 0, false, []⟩,
  ⟨0x6806c, 1, 1048576, 1, 4, .cr, 255, 0, 0, 0, false, []⟩,
  ⟨0x68070, 1, 1048576, 1, 4, .cr, 255, 0, 0, 0, false, []⟩,
  ⟨0x68074, 1, 1048576, 1, 4, .cr, 255, 0, 0, 0, false, []⟩,
  ⟨0x68078, 1, 1048576, 1, 4, .cr, 255, 0, 0, 0, false, []⟩,
  ⟨0x6807c, 1, 1048576, 1, 4, .cr, 255, 0, 0, 0, false, []⟩,
  ⟨0x68080, 1, 1048576, 1, 4, .cr, 255, 0, 0, 0, false, []⟩,
  ⟨0x68084, 1, 1048576, 1, 4, .cr, 255, 0, 0, 0, false, []⟩,
  ⟨0x68088, 1, 1048576, 1, 4, .cr, 255, 0, 0, 0, false, []⟩,
  ⟨0x680c0, 12, 4, 1, 4, .ro, 255, 0, 0, 0, false, []⟩,
  ⟨0x68200, 16, 32, 1, 4, .st, 22, 0xffc00040, 8, 0, false, [⟨3, 2, false, 0, 2⟩]⟩,
  ⟨0x68204, 16, 32, 1, 4, .st, 22, 0xffff0000, 0, 0, false, []⟩,
  ⟨0x68208, 16, 32, 1, 4, .st, 22, 0, 0x12c99010, 0, false, [⟨0, 4, true, (-7), 1⟩, ⟨4, 4, true, (-3), 3⟩, ⟨8, 4, true, (-7), 6⟩, ⟨12, 4, true, (-7), 1⟩, ⟨16, 4, true, (-7), 1⟩, ⟨20, 12, false, 60, 1000⟩]⟩,
  ⟨0x6820c, 16, 32, 1, 4, .st, 22, 0xff000000, 0x800080, 0, false, []⟩,
  ⟨0x68210, 16, 32, 1, 4, .ro, 255, 0xffffc000, 0, 0, false, []⟩,
  ⟨0x68214, 16, 32, 1, 4, .cr, 255, 0, 0, 0, false, []⟩,
  ⟨0x68218, 16, 32, 1, 4, .cr, 255, 0, 0, 0, false, []⟩,
  ⟨0x6821c, 16, 32, 1, 4, .cr, 255, 0, 0, 0, false, []⟩,
  ⟨0x68600, 2, 256, 1, 4, .st, 22, 0xc0f80020, 8, 0, false, [⟨3, 2, false, 0, 2⟩]⟩,
  ⟨0x68604, 2, 256, 1, 4, .st, 22, 0xf0000000, 0x12c3c0c, 0, false, [⟨12, 4, false, 2, 10⟩, ⟨16, 12, false, 60, 1000⟩]⟩,
  ⟨0x68608, 2, 256, 1, 4, .st, 22, 0, 0x80808080, 0, false, []⟩
]

/-- The register rows of block PTP, part 1. -/
def rowsPtpPart1 : List RegRow := [
  ⟨0x68610, 2, 256, 16, 4, .st, 22, 0, 0, 0, false, []⟩,
  ⟨0x68680, 2, 256, 1, 4, .ro, 255, 0xc8, 0xfeff00, 0, false, []⟩,
  ⟨0x68684, 2, 256, 1, 4, .sq, 255, 0xffffc0, 0, 0, false, []⟩,
  ⟨0x68688, 2, 256, 1, 4, .ro, 255, 0, 0, 0, false, []⟩,
  ⟨0x6868c, 2, 256, 1, 4, .ro, 255, 0, 0, 0, false, []⟩,
  ⟨0x68690, 2, 256, 1, 4, .ro, 255, 0, 0xffffffff, 0, false, []⟩,
  ⟨0x68694, 2, 256, 1, 4, .cr, 255, 0, 0, 0, false, []⟩,
  ⟨0x68698, 2, 256, 1, 4, .cr, 255, 0, 0, 0, false, []⟩,
  ⟨0x6869c, 2, 256, 1, 4, .ro, 255, 0xfff80000, 0, 0, false, []⟩
]

/-- The register rows of block PTP. -/
def rowsPtp : List RegRow := rowsPtpPart0 ++ rowsPtpPart1

/-- The register rows of block RCP. -/
def rowsRcp : List RegRow := [
  ⟨0x70000, 1, 1048576, 1, 4, .ro, 255, 0xffc00000, 0x200080, 0, false, []⟩,
  ⟨0x70004, 1, 1048576, 1, 4, .sq, 255, 0xffff00, 0, 0, false, []⟩,
  ⟨0x70008, 1, 1048576, 1, 4, .cr, 255, 0, 0, 0, false, []⟩,
  ⟨0x70010, 1, 1048576, 1, 4, .st, 23, 0xfffe0000, 0x3e8, 0, false, [⟨0, 17, false, 250, 100000⟩]⟩,
  ⟨0x70014, 1, 1048576, 1, 4, .st, 23, 0, 0x7d21177, 0, false, []⟩,
  ⟨0x70018, 1, 1048576, 1, 4, .st, 23, 0xffffff80, 0x32, 0, false, [⟨0, 7, false, 10, 90⟩]⟩,
  ⟨0x7001c, 1, 1048576, 1, 4, .st, 23, 0xffc00000, 0x15180, 0, false, [⟨0, 22, false, 3600, 2592000⟩]⟩,
  ⟨0x70020, 1, 1048576, 1, 4, .st, 23, 0xffff0000, 0xe10, 0, false, [⟨0, 16, false, 60, 43200⟩]⟩,
  ⟨0x70024, 1, 1048576, 1, 4, .st, 23, 0xffff00fe, 0, 0, false, []⟩,
  ⟨0x70030, 1, 1048576, 1, 4, .lk, 255, 0, 0, 0, false, []⟩,
  ⟨0x70034, 1, 1048576, 1, 4, .gd, 255, 0, 0, 0, false, []⟩,
  ⟨0x70040, 1, 1048576, 1, 4, .ro, 255, 0, 0, 0, false, []⟩,
  ⟨0x70044, 1, 1048576, 1, 4, .ro, 255, 0, 0, 0, false, []⟩,
  ⟨0x70048, 1, 1048576, 1, 4, .ro, 255, 0, 0, 0, false, []⟩,
  ⟨0x7004c, 1, 1048576, 1, 4, .ro, 255, 0, 0, 0, false, []⟩,
  ⟨0x70050, 1, 1048576, 1, 4, .ro, 255, 0xffff0000, 0, 0, false, []⟩,
  ⟨0x70060, 8, 4, 1, 4, .ro, 255, 0, 0, 0, false, []⟩,
  ⟨0x70080, 8, 4, 1, 4, .ro, 255, 0, 0, 0, false, []⟩,
  ⟨0x700a0, 32, 4, 1, 4, .ro, 255, 0, 0, 0, false, []⟩,
  ⟨0x70140, 1, 1048576, 1, 4, .cr, 255, 0, 0, 0, true, []⟩,
  ⟨0x70148, 1, 1048576, 1, 4, .cr, 255, 0, 0, 0, true, []⟩,
  ⟨0x70150, 1, 1048576, 1, 4, .cr, 255, 0, 0, 0, false, []⟩,
  ⟨0x70154, 1, 1048576, 1, 4, .cr, 255, 0, 0, 0, false, []⟩,
  ⟨0x70158, 1, 1048576, 1, 4, .cr, 255, 0, 0, 0, false, []⟩,
  ⟨0x7015c, 1, 1048576, 1, 4, .cr, 255, 0, 0, 0, false, []⟩,
  ⟨0x70160, 1, 1048576, 1, 4, .cr, 255, 0, 0, 0, false, []⟩,
  ⟨0x70164, 1, 1048576, 1, 4, .cr, 255, 0, 0, 0, false, []⟩,
  ⟨0x70168, 1, 1048576, 1, 4, .cr, 255, 0, 0, 0, false, []⟩,
  ⟨0x7016c, 1, 1048576, 1, 4, .cr, 255, 0, 0, 0, false, []⟩,
  ⟨0x70170, 1, 1048576, 1, 4, .cr, 255, 0, 0, 0, false, []⟩,
  ⟨0x70174, 1, 1048576, 1, 4, .cr, 255, 0, 0, 0, false, []⟩,
  ⟨0x70178, 1, 1048576, 1, 4, .cr, 255, 0, 0, 0, false, []⟩,
  ⟨0x7017c, 1, 1048576, 1, 4, .cr, 255, 0, 0, 0, false, []⟩
]

/-- The register rows of block PKE. -/
def rowsPke : List RegRow := [
  ⟨0x78000, 1, 1048576, 1, 4, .ro, 255, 0xffc00000, 0, 0, false, []⟩,
  ⟨0x78004, 1, 1048576, 1, 4, .sq, 255, 0xfffe00, 0, 0, false, []⟩,
  ⟨0x78008, 1, 1048576, 1, 4, .cr, 255, 0, 0, 0, false, []⟩,
  ⟨0x78010, 1, 1048576, 1, 4, .st, 24, 0xfffc00f0, 0x1402, 0, false, [⟨0, 4, false, 1, 15⟩, ⟨8, 10, false, 1, 1000⟩]⟩,
  ⟨0x78020, 1, 1048576, 1, 4, .gd, 255, 0, 0, 0, false, []⟩,
  ⟨0x78030, 1, 1048576, 1, 4, .ro, 255, 0xfffff800, 0, 0, false, []⟩,
  ⟨0x78040, 1, 1048576, 1, 4, .ro, 255, 0xffffffc0, 0, 0, false, []⟩,
  ⟨0x78044, 1, 1048576, 1, 4, .ro, 255, 0xffff0000, 0, 0, false, []⟩,
  ⟨0x78050, 1, 1048576, 1, 4, .cr, 255, 0, 0, 0, true, []⟩,
  ⟨0x78058, 1, 1048576, 1, 4, .cr, 255, 0, 0, 0, false, []⟩,
  ⟨0x7805c, 1, 1048576, 1, 4, .cr, 255, 0, 0, 0, false, []⟩,
  ⟨0x78060, 1, 1048576, 1, 4, .cr, 255, 0, 0, 0, false, []⟩,
  ⟨0x78064, 1, 1048576, 1, 4, .cr, 255, 0, 0, 0, false, []⟩,
  ⟨0x78068, 1, 1048576, 1, 4, .cr, 255, 0, 0, 0, false, []⟩,
  ⟨0x7806c, 1, 1048576, 1, 4, .cr, 255, 0, 0, 0, false, []⟩,
  ⟨0x78070, 1, 1048576, 1, 4, .cr, 255, 0, 0, 0, false, []⟩,
  ⟨0x78074, 1, 1048576, 1, 4, .cr, 255, 0, 0, 0, false, []⟩,
  ⟨0x78078, 1, 1048576, 1, 4, .cr, 255, 0, 0, 0, true, []⟩,
  ⟨0x78100, 64, 4, 1, 4, .ro, 255, 0xc00000fc, 0, 0, false, []⟩,
  ⟨0x78400, 16, 1024, 1, 4, .ro, 255, 0xffff00c0, 0, 0, false, []⟩,
  ⟨0x78404, 16, 1024, 1, 4, .ro, 255, 0, 0, 0, false, []⟩,
  ⟨0x78408, 16, 1024, 1, 4, .cr, 255, 0, 0, 0, false, []⟩,
  ⟨0x7840c, 16, 1024, 1, 4, .cr, 255, 0, 0, 0, false, []⟩,
  ⟨0x78410, 16, 1024, 1, 4, .cr, 255, 0, 0, 0, true, []⟩
]

/-- The register rows of block CAS. -/
def rowsCas : List RegRow := [
  ⟨0x80000, 1, 1048576, 1, 4, .ro, 255, 0xfff08000, 0xf0, 0, false, []⟩,
  ⟨0x80004, 1, 1048576, 1, 4, .sq, 255, 0xfff000, 0, 0, false, []⟩,
  ⟨0x80008, 1, 1048576, 1, 4, .cr, 255, 0, 0, 0, false, []⟩,
  ⟨0x80010, 1, 1048576, 1, 4, .st, 33, 0xffff00fe, 0xff00, 0, false, []⟩,
  ⟨0x80014, 1, 1048576, 1, 4, .st, 33, 0xfffe0000, 0x64, 0, false, [⟨0, 17, false, 10, 100000⟩]⟩,
  ⟨0x80018, 1, 1048576, 1, 4, .st, 33, 0xffffc000, 0x14, 0, false, [⟨0, 14, false, 10, 10000⟩]⟩,
  ⟨0x80020, 1, 1048576, 1, 4, .lk, 255, 0, 0, 0, false, []⟩,
  ⟨0x80024, 1, 1048576, 1, 4, .lk, 255, 0, 0, 0, false, []⟩,
  ⟨0x80030, 1, 1048576, 1, 4, .ro, 255, 0, 0, 0, false, []⟩,
  ⟨0x80034, 1, 1048576, 1, 4, .ro, 255, 0, 0, 0, false, []⟩,
  ⟨0x80038, 1, 1048576, 1, 4, .ro, 255, 0xfffff000, 0xff, 0, false, []⟩,
  ⟨0x8003c, 1, 1048576, 1, 4, .ro, 255, 0, 0, 0, false, []⟩,
  ⟨0x80040, 1, 1048576, 1, 4, .ro, 255, 0, 0, 0, false, []⟩,
  ⟨0x80044, 1, 1048576, 1, 4, .ro, 255, 0, 0, 0, false, []⟩,
  ⟨0x80048, 1, 1048576, 1, 4, .ro, 255, 0xfffffff0, 0, 0, false, []⟩,
  ⟨0x80050, 18, 4, 1, 4, .ro, 255, 0, 0, 0, false, []⟩,
  ⟨0x800a0, 1, 1048576, 1, 4, .st, 34, 0xfe00fff8, 0, 0, false, [⟨16, 9, false, 0, 256⟩]⟩,
  ⟨0x800a4, 1, 1048576, 1, 4, .st, 34, 0, 0, 0, false, []⟩,
  ⟨0x800a8, 1, 1048576, 1, 4, .st, 34, 0xffff0000, 0, 0, false, []⟩,
  ⟨0x800ac, 1, 1048576, 1, 4, .st, 34, 0xc0000000, 0, 0, false, [⟨0, 30, false, 0, 999999999⟩]⟩,
  ⟨0x800b0, 1, 1048576, 1, 4, .st, 34, 0, 0, 0, false, []⟩,
  ⟨0x800c0, 12, 4, 1, 4, .ro, 255, 0, 0, 0, false, []⟩,
  ⟨0x80100, 64, 4, 1, 4, .st, 34, 0, 0, 0, false, []⟩,
  ⟨0x80200, 64, 4, 1, 4, .ro, 255, 0, 0, 0, false, []⟩,
  ⟨0x80300, 1, 1048576, 1, 4, .ro, 255, 0xfffffe00, 0, 0, false, []⟩,
  ⟨0x80304, 1, 1048576, 1, 4, .ro, 255, 0, 0, 0, false, []⟩,
  ⟨0x80400, 1, 1048576, 1, 4, .cr, 255, 0, 0, 0, false, []⟩,
  ⟨0x80404, 1, 1048576, 1, 4, .cr, 255, 0, 0, 0, false, []⟩,
  ⟨0x80408, 1, 1048576, 1, 4, .cr, 255, 0, 0, 0, false, []⟩,
  ⟨0x8040c, 1, 1048576, 1, 4, .cr, 255, 0, 0, 0, false, []⟩,
  ⟨0x80410, 1, 1048576, 1, 4, .cr, 255, 0, 0, 0, false, []⟩,
  ⟨0x80414, 1, 1048576, 1, 4, .cr, 255, 0, 0, 0, false, []⟩
]


/-- The rows of the block that an address lies in (R390). -/
def rowsAt (a : Nat) : List RegRow :=
  if a < 0x2000 then rowsGlb
  else if a < 0x4000 then rowsSlu
  else if a < 0x8000 then rowsHif
  else if a < 0xa000 then rowsPwr
  else if a < 0xc000 then rowsBoot
  else if a < 0x10000 then rowsTal
  else if a < 0x14000 then rowsTsc
  else if a < 0x18000 then rowsRef
  else if a < 0x20000 then rowsHol
  else if a < 0x30000 then rowsGns
  else if a < 0x40000 then rowsTtu
  else if a < 0x44000 then rowsMac
  else if a < 0x48000 then rowsMac1
  else if a < 0x50000 then rowsCmac
  else if a < 0x58000 then rowsHrc
  else if a < 0x60000 then rowsSvp
  else if a < 0x68000 then rowsNts
  else if a < 0x70000 then rowsPtp
  else if a < 0x78000 then rowsRcp
  else if a < 0x80000 then rowsPke
  else if a < 0x90000 then rowsCas
  else []

/-- The row covers this word address. -/
def RegRow.covers (r : RegRow) (a : Nat) : Bool :=
  decide (r.base ≤ a) &&
  (let o := a - r.base
   let i := o / r.s1
   let q := o % r.s1
   decide (i < r.n1) && decide (q % r.s2 = 0) && decide (q / r.s2 < r.n2))

/-- The index of the page (first array index) that a word of a row lies in. -/
def RegRow.page (r : RegRow) (a : Nat) : Nat := (a - r.base) / r.s1

/-- The register row of a word address; none where no table lists the offset (R357). -/
def rowOf (a : Nat) : Option RegRow := (rowsAt a).find? (fun r => r.covers a)

/-- The high half of a 64-bit counter pair: the row of the pair, which is listed at its low half. -/
def pairRowOf (a : Nat) : Option RegRow :=
  match rowOf a with
  | some r => if r.pair then some r else none
  | none => none

/-- The value a register holds after reset, as its field table gives it; a factory value is the constant of `Config`. -/
def resetOf (a : Nat) : Word :=
  match rowOf a with
  | some r =>
    if r.factory = 0 then BitVec.ofNat 32 r.reset
    else BitVec.ofNat 32 r.reset ||| (Config.factory a &&& BitVec.ofNat 32 r.factory)
  | none => 0

end Sys2Proof.Machine
end

