-- ==== Sys2Proof/Machine/State.lean ====
section
/-!
DEFINITION. The state of the module as plain data: the register file, and one structure for each unit's internal state
that is no register. `State.reset` is the module right after reset (R352 to R402 for the registers; the log names every
value that the manual does not give).
-/

namespace Sys2Proof.Machine

/-- Why a step stops. -/
inductive Fault
  /-- Raised by every command that names a unit which does not exist (an index beyond the number of units the manual
  gives): no such command can reach the hardware, so stopping is SAFE. -/
  | noSuchUnit
  deriving DecidableEq, Repr

/-- Why a command has no meaning. -/
inductive Refusal
  /-- Raised by `exec` for a command whose meaning is not written: the model stops, which is SAFE. -/
  | notModelled (mnemonic : String)
  deriving DecidableEq, Repr

/-! ### The register file -/

/-- Sparse storage in one canonical form: keys strictly rising, no entry equal to what an unlisted key reads as. -/
abbrev Cells (β : Type) := List (Nat × β)

/-! ### Sources, guarded pairs and sluice groups (R352, R365, R369 to R375) -/

/-- Who makes an access or causes a happening: the sources of R352, with the codes of SRC in R388. -/
inductive Source
  | module
  | host
  | session (i : Nat)
  | calendar
  | cascade
  deriving DecidableEq, Repr

/-- An open guarded pair (R365): the register, the value, when it was opened and how many writes of the source followed. -/
structure OpenPair where
  addr : Nat
  value : Word
  openedAt : Nat
  writes : Nat
  deriving DecidableEq, Repr

/-- What the register fabric keeps for one source: its open pair (R366), its SLU.VIEW (R369) and its stolen-count view,
one bit per block code (R500). -/
structure SourceView where
  pair : Option OpenPair
  staged : Bool
  stolen : Nat
  deriving DecidableEq, Repr

/-- A pending commit of a sluice group (R371): its AT instant in ns if AT_EN was set, and by whom it was made. -/
structure Commit where
  atNs : Option Nat
  source : Source
  /-- A NOW or WINDOW commit that waits behind a drain still in progress (R372). -/
  draining : Bool
  deriving DecidableEq, Repr

/-- The commit machinery of one group: the pending commit, the live words whose parity failed (R377), the staging words
whose parity failed and whether a pending word's parity failed (R378). -/
structure GroupState where
  pend : Option Commit
  parity : List Nat
  stageParity : List Nat
  pendParity : Bool
  deriving DecidableEq, Repr

/-! ### Journal, sessions and what leaves the module -/

/-- One audit journal record (R388), bytes 32 onward as `body`. -/
structure JRecord where
  seq : Nat
  kind : Nat
  stamp : Nat
  src : Nat
  session : Nat
  block : Nat
  addr : Nat
  outcome : Nat
  body : Bytes
  deriving DecidableEq, Repr

/-- The audit journal (R387, R389): the records in memory and in flash, newest first, the sequence number of the oldest
record not yet delivered to the JOURNAL ring, and the records that wait for the flash write. -/
structure Journal where
  records : List JRecord
  nextRing : Nat
  flash : List JRecord
  toFlash : List JRecord
  deriving DecidableEq, Repr

/-- The streams a SUBSCRIBE started (R384). -/
structure Subscription where
  blocks : Nat
  faults : Bool
  hostEvents : Bool
  journal : Bool
  tag : Nat
  nextSeq : Nat
  dropped : Nat
  deriving DecidableEq, Repr

/-- One open management session (R381, R382). -/
structure Session where
  fingerprint : Bytes
  hello : Bool
  sub : Option Subscription
  lastMsg : Nat
  /-- NET settings that apply when the session ends (R384). -/
  net : Option Bytes
  deriving DecidableEq, Repr

/-- The management controller's network service (R380 to R386). -/
structure Celen where
  sessions : List (Option Session)
  net : Bytes
  trust : List Bytes
  /-- The recovery loader serves MP (R386). -/
  recovery : Bool
  deriving DecidableEq, Repr

/-- What leaves the module, in the order it left (newest first in `State.out`). -/
inductive Emission
  /-- A posted DMA write to host memory (R326). -/
  | hostWrite (addr : Nat) (data : Bytes)
  /-- An MSI-X message (R343). -/
  | msix (vector : Nat)
  /-- A frame on a service link: link, the instant of its first bit after the SFD in 2^-16 ns, bytes with FCS (R196). -/
  | frame (sl : Nat) (stamp : Nat) (data : Bytes)
  /-- A pause frame with its quanta (R199). -/
  | pause (sl : Nat) (quanta : Nat)
  /-- A verify or respond mPacket (R204): 0 verify, 1 respond. -/
  | mpacket (sl : Nat) (kind : Nat)
  /-- A frame on a Peorel lane: lane, the instant of its first bit after the SFD in 2^-16 ns, bytes with FCS. -/
  | lane (lane : Nat) (stamp : Nat) (data : Bytes)
  /-- A message on port MP: session, type, tag, body. -/
  | mp (session type tag : Nat) (body : Bytes)
  /-- A leading or trailing edge of an output: 0 to 3 PPS-OUT, 4 and 5 FREQ-OUT; the instant in ps and the level. -/
  | edge (output : Nat) (ps : Int) (rising : Bool)
  /-- A FREQ-OUT runs at a frequency in Hz, 0 while it is low. -/
  | wave (output hz : Nat)
  /-- An alarm contact closes or opens (R442). -/
  | contact (n : Nat) (closed : Bool)
  /-- A ToD sentence on TOD-OUT. -/
  | tod (text : Bytes)
  /-- A doorbell read request issued (R328). -/
  | doorbellRead
  /-- Link training of the PCIe link starts (R325). -/
  | pcieTrain
  /-- The PCIe function is presented with its Vendor ID and Device ID (R16, R325). -/
  | pcieFunction (vendor device : Nat)
  /-- What a register read returns to the host, least significant byte first (R353). -/
  | readData (addr : Nat) (data : Bytes)
  /-- A cartridge serial command or model block write (R121, R120). -/
  | cartridge (data : Bytes)
  deriving DecidableEq, Repr

/-! ### The timescale and the calendar (R18 to R59) -/

/-- A calendar entry (R25). Instants and periods are in ns since the TAI epoch. -/
structure CalEntry where
  atNs : Nat
  ps : Nat
  action : Nat
  target : Nat
  period : Nat
  count : Nat
  arg : Nat
  host : Bool
  /-- The instant of the forward step that passed over the entry, until it fires there SKIPPED (R43). -/
  skipAt : Option Nat
  skipped : Bool
  late : Bool
  deriving DecidableEq, Repr

/-- A step posted or scheduled by the module (R36, R38): its offset in ps, the reference it comes from, whether the host's
answer is awaited, and the instant it is scheduled for. -/
structure PostedStep where
  ps : Int
  ref : Nat
  awaiting : Bool
  atNs : Option Nat
  deriving DecidableEq, Repr

/-- The timescale's internal state. -/
structure Timescale where
  /-- The accumulator (R20), in 2^-48 ns since 1970-01-01 00:00:00 TAI. -/
  acc : Nat
  /-- The measurement scale (R170), in 2^-48 ns. -/
  meas : Nat
  /-- The slew rate in force, y_slew, in 2^-48. -/
  ySlew : Int
  /-- The offset still to be slewed, in 2^-16 ns (R35). -/
  slewRem : Int
  /-- LOCKED has been reached since power-up (R37). -/
  everLocked : Bool
  step : Option PostedStep
  /-- The amount of a host step waiting for its TSC_STEP entry, in ns (R42). -/
  hostStep : Option Int
  /-- The loop's phase error in ps (R51). -/
  phiE : Int
  /-- The reported radius and the computed radius in ps (R51 to R53). -/
  rho : Nat
  rhoComputed : Nat
  /-- The reported radius in 2^-16 ps, so that the fall of R53 is not lost to rounding. -/
  rhoFine : Nat
  /-- The radius computed at the last tick was saturated while the timescale was not FREE_RUN (R53). -/
  rhoSat : Bool
  /-- When |phi_e| has stayed within LOCK_PHASE since (R55). -/
  lockSince : Option Nat
  /-- Start of the holdover on the measurement scale, in 2^-48 ns (R52). -/
  holdStart : Nat
  /-- The offset measured at the last evaluation by the selected reference, in ps, none when it delivered none (R39). -/
  measured : Option Int
  /-- The steering applied so far, the sum of the cycles times y, in 2^-48 ns (R82). -/
  steer : Int
  /-- The last leading edge of each output on the measurement scale, in 2^-48 ns (R45). -/
  lastEdge : List (Option Nat)
  /-- FREQ_CORR and the active oscillator's temperature in m°C at the last ticks, newest first, with the instant of each in
  ns (R110). -/
  freqHist : List (Nat × Int × Int)
  calendar : Cells CalEntry
  /-- Fabric cycles since power-up. -/
  cycles : Nat
  deriving DecidableEq, Repr

/-! ### The host interface (R324 to R351) -/

/-- A descriptor fetched and not completed (R333). -/
structure Desc where
  slot : Nat
  addr : Nat
  len : Nat
  ctl : Nat
  user : Bytes
  arg : Nat
  fetchedAt : Nat
  /-- It breaks the table of R333: its turn ends with BAD_DESCRIPTOR. -/
  bad : Bool
  deriving DecidableEq, Repr

/-- One ring (R330, R331). -/
structure Ring where
  prod : Nat
  cons : Nat
  fetched : Nat
  posted : Nat
  /-- Descriptors fetched and not yet started: free buffers of an RX ring, waiting work of the others. -/
  waiting : List Desc
  /-- Started work not yet completed, in descriptor order; a completion that is ready waits for its elders (R335). -/
  started : List (Desc × Option (Nat × Nat))
  /-- Bytes already in the first waiting buffer of an RX_RECORD ring, and when its first record came (R338). -/
  fill : Nat
  fillSince : Nat
  /-- Items dropped since the last DROP record of the ring, and when that record was posted (R339). -/
  dropped : Nat
  lastDrop : Option Nat
  deriving DecidableEq, Repr

/-- A BLOCK_EVENT coalescing window (R342): destination (0 host, otherwise a session), EVENT register, end, bits waiting. -/
structure Coalesce where
  dest : Nat
  reg : Nat
  endAt : Nat
  more : Bool
  deriving DecidableEq, Repr

/-- An MSI-X vector's pending items (R343): how many, when the first came, and whether a message waits for unmasking. -/
structure Vec where
  items : Nat
  since : Nat
  waiting : Bool
  deriving DecidableEq, Repr

/-- The host interface. -/
structure Hif where
  attached : Bool
  rings : List Ring
  vecs : List Vec
  /-- A doorbell read is outstanding; triggers came meanwhile (R328). -/
  dbOutstanding : Bool
  dbAgain : Bool
  coalesce : List Coalesce
  /-- When the module last started link training, on the measurement scale (R325). -/
  trainAt : Option Nat
  deriving DecidableEq, Repr

/-! ### References (R60 to R100) -/

/-- One reference input. -/
structure RefIn where
  /-- The offset delivered since the last evaluation, in ps, before DELAY. -/
  fresh : Option Int
  /-- The frequency offset delivered since the last evaluation, in 10^-15. -/
  freqFresh : Option Int
  /-- The prescaled edges of a FREQ-IN since the last evaluation, and the first and last of them in ps (R60). -/
  edges : Nat
  firstEdge : Option Int
  lastEdge : Option Int
  /-- The offset of the present evaluation, and the latest one, in ps (R61). -/
  theta : Option Int
  last : Option Int
  freq : Option Int
  /-- The pseudo-phase of a frequency-only reference, in fs (R61). -/
  pseudo : Int
  resid : Option Int
  fres : Option Int
  /-- The samples of R84, newest first, in ps. -/
  samples : List Int
  /-- The last 64 evaluations that delivered an offset: number, residual, offset (R85). -/
  hist : List (Nat × Option Int × Int)
  /-- The reference had voters at the last evaluation (R85). -/
  voted : Bool
  /-- The drift statistics, in ps·s and in 10^-15 s (R86). -/
  cp : Int
  cf : Int
  timerEnd : Option Nat
  /-- QUALIFIED since power-up or since the last requalifying change (R75, R79). -/
  qualified : Bool
  /-- The evaluations of the run that release from DISTRUSTED needs (R77). -/
  clean : Nat
  lost : Bool
  /-- The rate of a FREQ-IN was off NOMINAL when last measured (R60). -/
  rateOff : Bool
  /-- Evaluations without an offset, and when the last one came (R60). -/
  missed : Nat
  lastSeen : Nat
  /-- The advertised class and value and, for GNSS and Peorel, the stated bound in ps (R68 to R73). -/
  adv : Nat
  raw : Nat
  bound : Nat
  /-- A GNSS consistency alarm waits for the next evaluation (R88). -/
  alarm : Bool
  /-- The evaluation at which the reference last entered SELECTED (R89). -/
  selEval : Nat
  /-- The instant in ns of the last evaluation at which the reference delivered an offset (R226). -/
  evalAt : Option Nat
  deriving DecidableEq, Repr

/-- The ticks at which an oscillator was the active one, so far: how many, and the sums of the instant in ns, of the temperature in
m°C and of its square. The integral of a model frequency follows from them (R82). -/
structure OscSums where
  n : Int
  t : Int
  temp : Int
  temp2 : Int
  deriving DecidableEq, Repr

/-- What each evaluation leaves for R82 and R89: FREQ_CORR, the ensemble offset in ps, the ticks of the keeper and of the cartridge,
the steering in 2^-48 ns and the steps in ps so far. -/
structure EvalRec where
  freq : Int
  ens : Option Int
  keeper : OscSums
  cart : OscSums
  steer : Int
  steps : Int
  deriving DecidableEq, Repr

/-- The reference block. -/
structure Refs where
  ins : List RefIn
  evalNo : Nat
  hist : List EvalRec
  /-- The ticks of the keeper and of the cartridge as the active oscillator (R82). -/
  keeperTicks : OscSums
  cartTicks : OscSums
  steps : Int
  /-- A reference was chosen at the last evaluation; none before the first (R94). -/
  chose : Option Bool
  /-- FORCE has replaced the target of this switch, and the value of FORCE that acts (R97). -/
  forcedOnce : Bool
  forceAct : Nat
  /-- The evaluation at which PREPARE began (R96). -/
  prepEval : Nat
  /-- The next offset of the selected reference is handled afresh (R39, R96). -/
  waitOffset : Bool
  /-- The loop's frequency state, in 10^-42 of 2^-48 (R74), and the pseudo-phase in ps that a frequency-only reference had when it was
  SELECTED. -/
  integ : Int
  phaseZero : Int
  /-- The instant of the last evaluation with an offset of the selected reference, in ns (R110). -/
  lastGood : Nat
  /-- The entry into HOLDOVER follows a distrust of the selected reference (R110). -/
  afterDistrust : Bool
  /-- The phase reference that is selected or was selected last (R228). -/
  lastPhase : Option Nat
  /-- The last valid ToD sentences, newest first: the second each names, when it ended, and its class (R63, R445). -/
  tod : List (Nat × Nat × Nat)
  /-- A SyncE input: ticks since the last evaluation and the sum of their frequency offsets, in 10^-15. -/
  synce : List (Nat × Int)
  deriving DecidableEq, Repr

/-- A reference that has delivered nothing. -/
def RefIn.empty : RefIn where
  fresh := none
  freqFresh := none
  edges := 0
  firstEdge := none
  lastEdge := none
  theta := none
  last := none
  freq := none
  pseudo := 0
  resid := none
  fres := none
  samples := []
  hist := []
  voted := false
  cp := 0
  cf := 0
  timerEnd := none
  qualified := false
  clean := 0
  lost := true
  rateOff := false
  missed := 0
  lastSeen := 0
  adv := 7
  raw := 0
  bound := 0xFFFFFFFF
  alarm := false
  selEval := 0
  evalAt := none

/-- The reference block at power-up. -/
def Refs.empty : Refs where
  ins := List.replicate 14 RefIn.empty
  evalNo := 0
  hist := []
  keeperTicks := ⟨0, 0, 0, 0⟩
  cartTicks := ⟨0, 0, 0, 0⟩
  steps := 0
  chose := none
  forcedOnce := false
  forceAct := 0xFF
  prepEval := 0
  waitOffset := false
  integ := 0
  phaseZero := 0
  lastGood := 0
  afterDistrust := false
  lastPhase := none
  tod := []
  synce := [(0, 0), (0, 0)]

/-! ### Oscillators and holdover (R101 to R128) -/

/-- A sample of an oscillator (R106): TAI second, frequency in 10^-15, temperature in m°C. -/
structure OscSample where
  sec : Nat
  freq : Int
  temp : Int
  deriving DecidableEq, Repr

/-- The anchor of R110: y_e in 10^-15, t_e in ns, T_e in m°C, rho_0 in ps. -/
structure Anchor where
  y : Int
  t : Nat
  temp : Int
  rho0 : Nat
  deriving DecidableEq, Repr

/-- What the cistern or the flash holds of the models (R109). -/
structure ModelStore where
  /-- The two model pages, sixteen words each. -/
  keeper : List Word
  cart : List Word
  /-- The serial number of the cartridge the second model belongs to. -/
  serial : Nat
  keeperRing : List OscSample
  cartRing : List OscSample
  deriving DecidableEq, Repr

/-- The accumulation of the present 1,000 s interval for one oscillator (R106): ticks, the sum of its frequency in 2^-48
times 10^-15, the sum of its temperature. -/
structure SampleSum where
  n : Nat
  freq : Int
  temp : Int
  /-- LOCKED, no handover, no step and no warm-up so far. -/
  good : Bool
  deriving DecidableEq, Repr

/-- Oscillators, holdover and the cartridge. -/
structure Hol where
  keeperRing : List OscSample
  cartRing : List OscSample
  keeperSum : SampleSum
  cartSum : SampleSum
  anchor : Option Anchor
  /-- Bounds in force (R108, R112), in 10^-15, 10^-18/s and 10^-15. -/
  uY : Nat
  uA : Nat
  uT : Nat
  /-- A frequency-only reference was selected at the last evaluation (R112). -/
  freqAided : Bool
  cartTimerEnd : Option Nat
  /-- The cartridge's one-second frequencies against the timescale in MEASURING, newest first, in 10^-15 (R119), and the
  least and greatest 100 s mean so far, times 100. -/
  cartMeas : List Int
  cartMean : Option (Int × Int)
  /-- RELEASE waits for the handover; PD2 goes off then (R120). -/
  releasing : Bool
  pd2OffAt : Option Nat
  /-- The model block of the fitted cartridge (R121). -/
  modelBlock : Bytes
  cistern : ModelStore
  flash : ModelStore
  /-- The cistern's timescale and anchor region is valid (R125): the reported radius and the state it was written with. -/
  cisternTime : Option (Nat × Nat)
  /-- Keep-alive mode (R122). -/
  keepAlive : Bool
  /-- The next GNSS wake of keep-alive mode on the measurement scale, in 2^-48 ns (R123). -/
  kaNext : Nat
  deriving DecidableEq, Repr

/-- An empty model store. -/
def ModelStore.empty : ModelStore := ⟨List.replicate 16 0, List.replicate 16 0, 0, [], []⟩

/-- The oscillator block at power-up. -/
def Hol.empty : Hol where
  keeperRing := []
  cartRing := []
  keeperSum := ⟨0, 0, 0, false⟩
  cartSum := ⟨0, 0, 0, false⟩
  anchor := none
  uY := 0
  uA := 0
  uT := 0
  freqAided := false
  cartTimerEnd := none
  cartMeas := []
  cartMean := none
  releasing := false
  pd2OffAt := none
  modelBlock := []
  cistern := ModelStore.empty
  flash := ModelStore.empty
  cisternTime := none
  keepAlive := false
  kaNext := 0

/-! ### GNSS (R129 to R159) -/

/-- An exclusion (R149): of a satellite (its key: system code times 256 plus number) or of a constellation, its check, its
end on the measurement scale. -/
structure Exclusion where
  const : Bool
  key : Nat
  check : Nat
  endAt : Nat
  deriving DecidableEq, Repr

/-- A running survey (R145, R146): start, epochs averaged, sums of the coordinates and of their squares in cm, the progress
record and buffer addresses, the record's sequence, its next instant on the measurement scale, and once the survey is complete the
whole second (ns) at which its mean comes in force, with the mean and its sigma. -/
structure Survey where
  startAt : Nat
  n : Nat
  sx : Int
  sy : Int
  sz : Int
  sq : Nat
  prog : Nat
  buf : Nat
  seq : Nat
  ionoFree : Bool
  reportAt : Nat
  done : Option (Nat × (Int × Int × Int) × Nat)
  deriving DecidableEq, Repr

/-- What a channel holds beside its status words (R133): the epochs its code has been smoothed over, the smoothed instant of
transmission and the last one of its carrier in ps, since when its C/N0 is below the loss threshold, when it lost lock. -/
structure ChanLoop where
  n : Nat
  code : Int
  carrier : Int
  lowSince : Option Nat
  lostAt : Option Nat
  deriving DecidableEq, Repr

/-- The latch of an epoch (R139): the instant in ps, on the timescale or, replaying, on the snapshot's (R156), the measurement
scale, the number of the epoch. -/
structure GnssLatch where
  at_ : Int
  meas : Nat
  epoch : Nat
  deriving DecidableEq, Repr

/-- What one side has in the hot-start record (R135): ephemerides, almanac, ionospheric and UTC parameters by constellation, its
satellites. -/
structure HotSide where
  ephem : List (Nat × Nat)
  almanac : Option Nat
  iono : List (Nat × Bytes)
  utc : List (Nat × Int × Int × Nat)
  sats : List Nat
  deriving DecidableEq, Repr

/-- What a snapshot's header says of an instant (R155): measurement scale, timescale state, radius, AGC gains of the streams. -/
structure SnapContext where
  at_ : Nat
  mode : Nat
  rho : Nat
  agc : List Nat
  deriving DecidableEq, Repr

/-- A replay (R156): its start and end on the measurement scale, and T_FIRST of its snapshot in 2^-16 ns. -/
structure Replay where
  since : Nat
  endAt : Nat
  first : Nat
  deriving DecidableEq, Repr

/-- One side of the GNSS receiver. -/
structure GnssSide where
  /-- Its channels' loops by channel, the latch of the present epoch (R139). -/
  loops : Cells ChanLoop
  latch : Option GnssLatch
  /-- The side loads its firmware until then (R488). -/
  loadingUntil : Option Nat
  /-- The latest solution: theta and bound in ps, TDOP, SV_USED, INTERSYS (R158), and whether it is delivered to REF. -/
  theta : Int
  bound : Nat
  tdop : Nat
  svUsed : Nat
  intersys : List (Option Int)
  /-- Epochs the trip condition of each check has persisted, by its bit in CHECK_EN, and for each satellite (R148). -/
  persist : List Nat
  svPersist : List (Nat × Nat × Nat)
  alarms : Nat
  /-- When each check's trip condition was last present (R150). -/
  lastTrip : List Nat
  alarmAtEval : Bool
  excl : List Exclusion
  /-- The discards of JUMP, newest first (R148). -/
  discards : List Nat
  /-- The number of the last epoch completed; the last theta with its epoch's number, and the last ionospheric delay of each pair in mm
  (R148). -/
  epoch : Nat
  prev : Option (Nat × Int)
  iono : List (Nat × Int)
  /-- The constellations' own clocks against the combined solution in ps, for XCON at an exclusion's end (R149). -/
  own : List (Option Int)
  /-- The last ten seconds (R148): measurement scale, C/N0 of each signal of a satellite in 0.1 dB-Hz, AGC gains of the bands in 0.1 dB. -/
  strength : List (Nat × List (Nat × Nat × Nat) × List Nat)
  survey : Option Survey
  /-- Notches placed: band, bin, when the interferer was last above the threshold (R151). -/
  notches : List (Nat × Nat × Nat)
  jammed : List Bool
  biasRetry : Option Nat
  /-- Ephemerides held: satellite key and TAI second; the latest almanac; a known position (R134). -/
  ephem : List (Nat × Nat)
  almanac : Option Nat
  posKnown : Bool
  /-- Broadcast parameters by constellation: of the ionospheric model, and A0, A1 and reference second towards UTC (R140, R141). -/
  ionoPar : List (Nat × Bytes)
  utcPar : List (Nat × Int × Int × Nat)
  /-- The satellites of the loaded hot-start record. -/
  sats : List Nat
  /-- The firmware slot's image digest and the fallback copy's (R481, R488). -/
  slot : Bytes
  fallback : Bytes
  deriving DecidableEq, Repr

/-- The GNSS block's common state. -/
structure Gnss where
  sides : List GnssSide
  /-- Leap announcements decoded: second, offset, satellite keys (R138). -/
  votes : List (Nat × Int × List Nat)
  /-- The snapshot region (R154, R340): the bytes that differ from what an unlisted byte reads as, and the number of the
  capture whose samples unlisted bytes are (0 none). -/
  snapMem : Cells Byte
  snapBase : Nat
  /-- The epochs latched so far. -/
  epoch : Nat
  /-- The capture: its start and its end on the measurement scale, the first qualifying event (kind, instant in 2^-16 ns, measurement
  scale), T_FIRST at the antenna connector, what the header says of T_FIRST, and, while a circular buffer runs, of earlier instants. -/
  snapSince : Nat
  snapEnd : Option Nat
  snapEvent : Option (Nat × Nat × Nat)
  snapFirst : Nat
  snapContext : SnapContext
  snapHist : List SnapContext
  /-- The staged command words of the armed capture: SNAP_CFG, SNAP_PRE, the AT instant in ns. -/
  snapCfg : Word
  snapPre : Nat
  snapAt : Nat
  replay : Option Replay
  /-- The hot-start record in flash (R135) of both sides, its CRC good; when the next periodic one is due. -/
  hotStart : Option (List HotSide)
  hotStartAt : Nat
  /-- The side of a keep-alive wake and its end at the latest (R153). -/
  wake : Option (Nat × Nat)
  deriving DecidableEq, Repr

/-- A side at power-up. -/
def GnssSide.empty : GnssSide where
  loops := []
  latch := none
  loadingUntil := none
  theta := 0
  bound := 0xFFFFFFFF
  tdop := 0
  svUsed := 0
  intersys := List.replicate 4 none
  persist := List.replicate 8 0
  svPersist := []
  alarms := 0
  lastTrip := List.replicate 8 0
  alarmAtEval := false
  excl := []
  discards := []
  epoch := 0
  prev := none
  iono := []
  own := List.replicate 4 none
  strength := []
  survey := none
  notches := []
  jammed := [false, false]
  biasRetry := none
  ephem := []
  almanac := none
  posKnown := false
  ionoPar := []
  utcPar := []
  sats := []
  slot := []
  fallback := []

/-- The GNSS block at power-up. -/
def Gnss.empty : Gnss where
  sides := List.replicate 2 GnssSide.empty
  votes := []
  snapMem := []
  snapBase := 0
  epoch := 0
  snapSince := 0
  snapEnd := none
  snapEvent := none
  snapFirst := 0
  snapContext := ⟨0, 0, 0, []⟩
  snapHist := []
  snapCfg := 0
  snapPre := 0
  snapAt := 0
  replay := none
  hotStart := none
  hotStartAt := 0
  wake := none


/-! ### Time tags (R160 to R182) -/

/-- A tag as the programs see it: channel, edge (true rising), instants in 1/16 ps on the timescale and on the measurement
scale, DEADTIME, SEQ, and whether some window of the program held it (R171 to R173). -/
structure Tag where
  ch : Nat
  rising : Bool
  ts : Int
  ms : Int
  dead : Bool
  seq : Nat
  index : Nat
  paired : Bool
  deriving DecidableEq, Repr

/-- A stop of a measurement (R177). -/
structure Stop where
  interval : Int
  coincident : Bool
  neg : Bool
  ch : Nat
  dead : Bool
  rising : Bool
  deriving DecidableEq, Repr

/-- An open INTERVAL measurement (R171), or one closed on MAX_STOPS whose window still counts EXCESS (R172). -/
structure Meas where
  start : Tag
  stops : List Stop
  full : Bool
  stepped : Bool
  calChanged : Bool
  deriving DecidableEq, Repr

/-- The sums of a FREQUENCY gate (R174): edges, first edge, and the sums of index, instant and their products. -/
structure Gate where
  k : Nat
  n : Nat
  first : Tag
  si : Int
  sx : Int
  sii : Int
  six : Int
  sxx : Int
  calChanged : Bool
  deriving DecidableEq, Repr

/-- One program MP0 to MP7. -/
structure Prog where
  recent : List Tag
  open_ : List Meas
  gates : List Gate
  /-- The next gate or grid number to close. -/
  gate : Nat
  calChanged : Bool
  seq : Nat
  /-- Closed records that wait for the next RADIUS_TICK (R176). -/
  closed : List Bytes
  deriving DecidableEq, Repr

/-- One channel. -/
structure TtuCh where
  /-- The last tagged edge in 1/16 ps on the measurement scale (R166). -/
  last : Option Int
  seq : Nat
  presc : Nat
  decim : Nat
  deadPending : Bool
  lostSince : Nat
  overflow : Bool
  /-- The next forwarded record of the channel carries OVERFLOW (R169). -/
  overwritten : Bool
  stepped : Bool
  calChanged : Bool
  calPending : Option Int
  rateCount : Nat
  index : Nat
  /-- The first pulse of its last calibration burst, in 1/16 ps on the measurement scale (R166, R179); when its linearity table was
  built or refreshed, on the measurement scale (R178). -/
  burst : Option Int
  table : Option Nat
  deriving DecidableEq, Repr

/-- The time-tag unit. -/
structure Ttu where
  chans : List TtuCh
  progs : List Prog
  /-- Records in the FIFO and when that was counted, on the measurement scale (R168, R169). -/
  fifo : Nat
  fifoAt : Nat
  /-- The tag buffer and the measurement buffer, oldest first. -/
  tags : List Bytes
  measures : List Bytes
  /-- The latest timescale steps: the measurement scale, the timescale before and after, in 1/16 ps (R176). -/
  steps : List (Int × Int × Int)
  /-- The grid number of the last calibration burst, and its end on the measurement scale (R179). -/
  calGrid : Nat
  calUntil : Nat
  deriving DecidableEq, Repr

/-- A channel at power-up. -/
def TtuCh.empty : TtuCh := ⟨none, 0, 0, 0, false, 0, false, false, false, false, none, 0, 0, none, none⟩

/-- A program at power-up. -/
def Prog.empty : Prog := ⟨[], [], [], 0, false, 0, []⟩

/-- The time-tag unit at power-up. -/
def Ttu.empty : Ttu := ⟨List.replicate 16 TtuCh.empty, List.replicate 8 Prog.empty, 0, 0, [], [], [], 0, 0⟩


/-! ### Tallies and sampling (R492 to R507) -/

/-- The tally engine and the sample store. -/
structure Tal where
  /-- The running totals latched at the last close, and the two banks, by counter address. -/
  openTotals : Cells Nat
  last : Cells Nat
  snap : Cells Nat
  /-- The open window: its number, when it began on the measurement scale and on the timescale in ns, and whether a step
  applied since. -/
  number : Nat
  openAt : Nat
  openNs : Nat
  stepped : Bool
  /-- Requests counted since the last candidate, and records written since the last application (R501, R502). -/
  rateCount : Nat
  written : Nat
  /-- Records written in the present second of the measurement scale. -/
  second : Nat
  inSecond : Nat
  seq : Nat
  store : Cells Bytes
  deriving DecidableEq, Repr

/-- The tally engine at power-up. -/
def Tal.empty : Tal := ⟨[], [], [], 0, 0, 0, false, 0, 0, 0, 0, 0, []⟩

/-- What a sampled request takes along (R503): KIND, the timescale state at t_rx, UNTRACKED, the outcome that its response
stands for, LATENCY_NS and RADIUS. -/
structure SampleTag where
  kind : Nat
  state : Nat
  untracked : Bool
  outcome : Nat
  detail : Nat
  latency : Nat
  radius : Nat
  deriving DecidableEq, Repr



/-! ### Frames, responses and departure slots (R183 to R217) -/

/-- A frame accepted on a service link: link, t_rx in ps (R187), bytes from the destination address without FCS. -/
structure RxFrame where
  sl : Nat
  tRx : Nat
  data : Bytes
  deriving DecidableEq, Repr

/-- What a request or claim asks for. -/
inductive ReqKind
  | ntp
  | nts
  | etxel
  | roughtime
  deriving DecidableEq, Repr

/-- A request that the headrace handed on, with what it took along at classification: the address entry's index and words
SVC, POLICY and REFID, the generation (R230), the bucket and key address (R222), and the words of the rate profile in force at
t_rx (R250). `steps` is the sum of the steps, in ns, up to its t_rx (R229). -/
structure Request where
  kind : ReqKind
  frame : RxFrame
  entry : Nat
  svc : Word
  policy : Word
  refid : Word
  gen : Nat
  bucket : Nat
  pipe : Nat
  key : Bytes
  profile : List Word
  steps : Int
  adjusted : Bool
  /-- The request is a sampling candidate (R501). -/
  sample : Option SampleTag
  deriving DecidableEq, Repr

/-- The addressing of a frame the module composes (R225, R255): `v` 0 for L2, 4 or 6. -/
structure Addressing where
  dst : Bytes
  src : Bytes
  tags : List (Nat × Nat)
  v : Nat
  etype : Nat
  sip : Bytes
  dip : Bytes
  sport : Nat
  dport : Nat
  tos : Nat
  ttl : Nat
  deriving DecidableEq, Repr

/-- What a booked frame carries (R208, R209). -/
inductive Answer
  /-- An NTP answer (R226). -/
  | ntp (req : Request) (addr : Addressing)
  /-- A payload fixed before finalisation: a Kiss-o'-Death, an NTS NAK, a receipt or a refusal. -/
  | fixed (addr : Addressing) (payload : Bytes)
  /-- An NTS answer, or an authenticated Kiss-o'-Death: Unique Identifier field, keys, cookies (R239). -/
  | nts (req : Request) (addr : Addressing) (uid : Bytes) (c2s : Bytes) (s2c : Bytes) (cookies : Nat) (kod : Bool)
  /-- A Sync of an instance and context (R260). -/
  | sync (inst : Nat) (ctx : Option Nat) (addr : Addressing) (seq : Nat)
  /-- A Delay_Req of a slave instance. -/
  | delayReq (slv : Nat) (addr : Addressing) (seq : Nat)
  deriving DecidableEq, Repr

/-- A response handed over and not yet booked: its instant h in ps (R208), its frame length without FCS. -/
structure Handed where
  answer : Answer
  req : Option Request
  len : Nat
  h : Nat
  deriving DecidableEq, Repr

/-- A booked slot (R208 to R213), instants in ps. -/
structure Slot where
  answer : Answer
  req : Option Request
  len : Nat
  slot : Nat
  first : Nat
  reserved : Bool
  /-- The finalised frame and its t_tx. -/
  final : Option (Bytes × Nat)
  committed : Bool
  deriving DecidableEq, Repr

/-- A preemptable frame that waits (R208): its bytes, for a host frame its ring, descriptor slot and fetch instant, and the
counter of frames of its kind that are sent. -/
structure PreFrame where
  data : Bytes
  ring : Option (Nat × Nat × Nat)
  counter : Option Nat
  deriving DecidableEq, Repr

/-- A preemptable frame on the line (R205): it, the instant of its first preamble byte in ps, whether it may be cut, and the cuts
counted so far. -/
structure OnLine where
  frame : PreFrame
  start : Nat
  active : Bool
  cuts : Nat
  deriving DecidableEq, Repr

/-- A frame in reception or reassembly (R192, R206): the number of its SMD, the fragments that have ended, the instant its first
bit was captured in ps, its bytes so far, whether it has been dropped and counted already, and whether the line failed in it. -/
structure RxOpen where
  frame : Nat
  frags : Nat
  first : Nat
  data : Bytes
  dead : Bool
  phy : Bool
  deriving DecidableEq, Repr

/-- One service link. -/
structure Link where
  /-- The end of the pause hold, in ps (R201), and when its part of the present second began. -/
  hold : Option Nat
  heldSince : Nat
  heldPs : Nat
  heldSec : Nat
  /-- Received pause frames that take effect at an instant, in ps, with their quanta, in the order of arrival. -/
  pauseAt : List (Nat × Nat)
  ignoreUntil : Nat
  /-- When the next pause frame and the next verify mPacket are due, on the measurement scale (R199, R204, R4). -/
  refreshAt : Nat
  verifyAt : Nat
  verifySent : Nat
  /-- The outstanding probe: nonce, t_tx in ps, start on the measurement scale (R191). -/
  probe : Option (Nat × Nat × Nat)
  /-- How many times the link has locked: the phases of R207 are taken afresh at each lock. -/
  lock : Nat
  ready : List Handed
  slots : List Slot
  /-- Slots of the module's own pause and probe frames: instant and duration in ps. -/
  express : List (Nat × Nat)
  queue : List PreFrame
  onLine : Option OnLine
  /-- The frame that the express MAC receives, and the one that the preemptable MAC receives or reassembles. -/
  rxExpress : Option RxOpen
  rxPre : Option RxOpen
  /-- The transmitter is squelched (R272). -/
  squelched : Bool
  deriving DecidableEq, Repr

/-- One MAC complex: the FLOW words before the application under way (R216) and the link directions (2 l for receive,
2 l + 1 for transmit) that have yet to adopt it. -/
structure Complex where
  flowOld : Cells Word
  flowWait : List Nat
  /-- The CAL words before the last MACn_CAL application, and its instant in ns (R190). -/
  calOld : Cells Word
  calAt : Nat
  deriving DecidableEq, Repr

/-- What the headrace passes to the exception rings and the engines. -/
inductive ClaimKind
  | arp
  | nd
  | exc (cls : Nat)
  | ptp
  /-- The TLVs of one kind in a Signaling message: 0 requests, 1 cancellations, 2 grants and acknowledgements. -/
  | signal (what : Nat)
  | esmc
  deriving DecidableEq, Repr

/-- A frame that waits for its engine or ring (R219, R220). -/
structure Claim where
  kind : ClaimKind
  frame : RxFrame
  deriving DecidableEq, Repr

/-- The service ports. -/
structure Ports where
  links : List Link
  complexes : List Complex
  claims : List Claim
  /-- The sum of every step so far, in ns (R229). -/
  steps : Int
  deriving DecidableEq, Repr

/-- A link at power-up. -/
def Link.empty : Link where
  hold := none
  heldSince := 0
  heldPs := 0
  heldSec := 0
  pauseAt := []
  ignoreUntil := 0
  refreshAt := 0
  verifyAt := 0
  verifySent := 0
  probe := none
  lock := 0
  ready := []
  slots := []
  express := []
  queue := []
  onLine := none
  rxExpress := none
  rxPre := none
  squelched := false

/-- The service ports at power-up. -/
def Ports.empty : Ports := ⟨List.replicate 8 Link.empty, List.replicate 2 ⟨[], [], [], 0⟩, [], 0⟩

/-! ### The headrace, the pipelines and NTS (R218 to R252) -/

/-- A client record (R232, R233). -/
structure ClientRec where
  client : Bytes
  gen : Nat
  valid : Bool
  ipv4 : Bool
  nts : Bool
  overRate : Bool
  addr : Nat
  poll : Nat
  /-- Tokens in 1/256. -/
  tokens : Nat
  /-- The last request's t_rx in ns. -/
  tLast : Nat
  tKod : Nat
  tFirst : Nat
  reqs : Nat
  overs : Nat
  ntsFails : Nat
  deriving DecidableEq, Repr

/-- A bucket that moves (R223): from pipeline, to pipeline, the requests held, when the hold ends at the latest. -/
structure BucketMove where
  bucket : Nat
  src : Nat
  dst : Nat
  held : List Request
  endAt : Nat
  deriving DecidableEq, Repr

/-- Headrace and pipelines. -/
structure Hrc where
  /-- The address-table generation in force (R230). -/
  gen : Nat
  moves : List BucketMove
  queues : List (List Request)
  /-- The client table, by record index. -/
  table : Cells ClientRec
  /-- The untracked bucket of each pipeline: tokens in 1/256 and the last request's t_rx in ns (R234). -/
  untracked : List (Nat × Nat)
  /-- The rate profiles before the last SVP_PROF application, and its instant in ps (R250). -/
  oldProfiles : List Word
  profilesAt : Nat
  deriving DecidableEq, Repr

/-- An empty client record. -/
def ClientRec.empty : ClientRec where
  client := List.replicate 16 0
  gen := 0
  valid := false
  ipv4 := false
  nts := false
  overRate := false
  addr := 0
  poll := 0
  tokens := 0
  tLast := 0
  tKod := 0
  tFirst := 0
  reqs := 0
  overs := 0
  ntsFails := 0

/-- The headrace at power-up. -/
def Hrc.empty : Hrc where
  gen := 0
  moves := []
  queues := List.replicate 16 []
  table := []
  untracked := List.replicate 16 (256 * 256, 0)
  oldProfiles := []
  profilesAt := 0

/-- The NTS master keys, newest first (R242): identifier and key; whether the first is the current key. -/
structure Nts where
  keys : List (Nat × Bytes)
  current : Bool
  /-- The latest KEY_ID used; none before the first draw. -/
  lastId : Option Nat
  /-- A rotation asked for at a second and by whom, and a draw deferred for want of entropy until a second (R244), in ns. -/
  rotateAt : Option (Nat × Source)
  deferred : Option Nat
  /-- The keys mirrored in the cistern, none where the region is not valid. -/
  mirror : Option (List (Nat × Bytes))
  deriving DecidableEq, Repr

/-! ### PTP and SyncE (R253 to R275) -/

/-- A unicast grant: its log interval and when it ends, in ns of the measurement scale (R4). -/
structure Grant where
  log : Int
  exp : Nat
  deriving DecidableEq, Repr

/-- A context (R262): instance, link, its addressing (R255), the client's address and portIdentity, up to three grants, one
sequenceId for each message type (R261), and the Delay_Req bucket: credit in ns and when it was last filled, in ns. -/
structure PtpCtx where
  inst : Nat
  sl : Nat
  addr : Addressing
  client : Bytes
  port : Bytes
  sync : Option Grant
  ann : Option Grant
  dresp : Option Grant
  seqSync : Nat
  seqAnn : Nat
  seqSig : Nat
  credit : Nat
  creditAt : Nat
  deriving DecidableEq, Repr

/-- A foreign master of a slave instance (R265): its portIdentity, its latest Announce (from the PTP header on), and when its last
two Announces came, on the measurement scale. -/
structure Foreign where
  port : Bytes
  ann : Bytes
  last : Nat
  before : Option Nat
  deriving DecidableEq, Repr

/-- A grant that a master gave a unicast slave: master slot, message type, its end and when it is to be renewed, in ns
of the measurement scale (R4). -/
structure SlaveGrant where
  master : Nat
  mtype : Nat
  exp : Nat
  renewAt : Option Nat
  deriving DecidableEq, Repr

/-- A slave instance. Times of measurements are in 2^-16 ps. -/
structure PtpSlave where
  masters : List (Option Foreign)
  chosen : Option Nat
  /-- Complete exchanges of the last 16 s, newest first: when (measurement scale), and t4 - t3 + t2 - t1. -/
  exchanges : List (Nat × Int)
  /-- Forward delays of the Syncs of the last 16 s, newest first: when, and t2 - t1. -/
  syncs : List (Nat × Int)
  /-- A two-step Sync that waits for its Follow_Up: sequenceId, t2, correction. -/
  pendSync : Option (Nat × Int × Int)
  /-- Delay_Reqs sent and not answered: sequenceId and t3. -/
  dreqs : List (Nat × Int)
  seqDreq : Nat
  seqSig : Nat
  noOffset : Nat
  grants : List SlaveGrant
  deriving DecidableEq, Repr

/-- What the last well-formed ESMC PDU of a SyncE input said (R271): SSM code, enhanced code, cascaded eEECs; and the second and
count of PDUs in it. -/
structure EsmcIn where
  ssm : Nat
  enh : Nat
  eeecs : Nat
  sec : Nat
  count : Nat
  deriving DecidableEq, Repr

/-- PTP and SyncE. -/
structure Ptp where
  /-- Contexts by index. -/
  ctxs : Cells PtpCtx
  /-- The next sequenceId of an instance binding and message type. -/
  seqs : Cells Nat
  slaves : List PtpSlave
  esmc : List EsmcIn
  /-- The QL each output sent last: SSM and enhanced code. -/
  sentQl : List (Option (Nat × Nat))
  deriving DecidableEq, Repr

/-- A slave instance at power-up. -/
def PtpSlave.empty : PtpSlave := ⟨List.replicate 4 none, none, [], [], none, [], 0, 0, 0, []⟩

/-- PTP and SyncE at power-up. -/
def Ptp.empty : Ptp :=
  ⟨[], [], List.replicate 2 PtpSlave.empty, List.replicate 2 ⟨0xF, 0xFF, 0, 0, 0⟩, List.replicate 8 none⟩


/-! ### The public-key engine and the receipt engine (R276 to R323) -/

/-- A key store slot (R315): STATE 0 EMPTY, 1 GENERATING, 2 READY, with the key it holds. -/
structure KeySlot where
  state : Nat
  alg : Nat
  usage : Nat
  imported : Bool
  nwords : Nat
  priv : Bytes
  pub : Bytes
  deriving DecidableEq, Repr

/-- A job (R299): its ring and descriptor slot (none for the receipt engine's own), its record and where it lies, its input, the
copy of the slot key it took at dispatch, its place in fetch order, when its present wait began, whether it has aged, the
cycles spent on it, its yields, its result (status, DETAIL, output) once the core has it, and the window and tree whose
signature it makes. -/
structure PkeJob where
  ring : Option (Nat × Nat)
  recAddr : Nat
  rec_ : Bytes
  input : Bytes
  key : Option KeySlot
  order : Nat
  waitSince : Nat
  aged : Bool
  urgent : Bool
  spent : Nat
  yields : Nat
  result : Option (Nat × Nat × Bytes)
  tree : Option (Nat × Nat)
  /-- SEQ of the progress record and its phase (R314). -/
  progSeq : Nat
  phase : Nat
  /-- When that record was last written, on the measurement scale. -/
  progAt : Nat
  deriving DecidableEq, Repr

/-- One core: the job it runs, the cycle at which that began, and its save area, the most recent first (R307). -/
structure PkeCore where
  running : Option PkeJob
  startedAt : Nat
  saved : List PkeJob
  deriving DecidableEq, Repr

/-- The engine, the key store and the TRNG. -/
structure Pke where
  queue : List PkeJob
  cores : List PkeCore
  slots : List KeySlot
  /-- The two copies in flash of the slots with PERSIST, newest first. -/
  flash : List (List KeySlot)
  fetchNo : Nat
  /-- When each noise source failed, newest first, and when a FAILED one repeats the start-up test (R319). -/
  srcFails : List (List Nat)
  srcRetest : List (Option Nat)
  /-- Samples of the conditioning block under way by their source, and the cycle up to which samples are counted (R318, R319). -/
  samples : List Nat
  sampledAt : Nat
  deriving DecidableEq, Repr

/-- An EMPTY slot. -/
def KeySlot.empty : KeySlot := ⟨0, 0, 0, false, 0, [], []⟩

/-- The engine at power-up. -/
def Pke.empty : Pke where
  queue := []
  cores := List.replicate 16 ⟨none, 0, []⟩
  slots := List.replicate 64 KeySlot.empty
  flash := []
  fetchNo := 0
  srcFails := List.replicate 8 []
  srcRetest := List.replicate 8 none
  samples := List.replicate 8 0
  sampledAt := 0

/-- A leaf (R286): its request, its instant in 2^-16 ns, its tree (0 Etxel, else the Roughtime revision), its hash. -/
structure Leaf where
  req : Request
  tRx : Nat
  tree : Nat
  hash : Bytes
  deriving DecidableEq, Repr

/-- An online key (R290): identifier, seed, public key, MINT and MAXT in 2^-16 ns, certificate, and the long-term key's signatures
over DELE for each Roughtime revision. -/
structure OnlineKey where
  id : Nat
  seed : Bytes
  pub : Bytes
  mint : Nat
  maxt : Nat
  cert : Bytes
  deles : List (Nat × Bytes)
  deriving DecidableEq, Repr

/-- The signature of one tree of a closed window: the tree, the record with its root, the signed bytes, and the signature with the
instant it was complete. -/
structure TreeSig where
  tree : Nat
  record : Bytes
  signed : Bytes
  done : Option (Bytes × Nat)
  deriving DecidableEq, Repr

/-- A closed window that is not sealed (R279, R281). -/
structure ClosedWindow where
  number : Nat
  closedAt : Nat
  key : OnlineKey
  leaves : List Leaf
  trees : List TreeSig
  deriving DecidableEq, Repr

/-- A response that waits for its release (R282): its request, payload, and 0 Etxel receipt, 1 Roughtime response, 2 refusal. -/
structure Release where
  req : Request
  payload : Bytes
  kind : Nat
  deriving DecidableEq, Repr

/-- The receipt engine. -/
structure Rcp where
  number : Nat
  /-- The open window's leaves, newest first, and its largest radius so far in ps. -/
  leaves : List Leaf
  rho : Nat
  closed : List ClosedWindow
  queue : List Release
  /-- When each link may release again, on the measurement scale. -/
  paceAt : List Nat
  online : Option OnlineKey
  /-- The next key, made and not yet current: seed and public key. -/
  next : Option (Bytes × Bytes)
  lastId : Option Nat
  /-- The next rotation instant in s; a rotation that ROTATE_NOW asked for; a rotation that is deferred. -/
  rotateAt : Nat
  rotateNow : Bool
  deferred : Bool
  /-- The source of the ROTATE_NOW. -/
  rotateSrc : Source
  deriving DecidableEq, Repr

/-- The receipt engine at power-up. -/
def Rcp.empty : Rcp where
  number := 0
  leaves := []
  rho := 0
  closed := []
  queue := []
  paceAt := List.replicate 8 0
  online := none
  next := none
  lastId := none
  rotateAt := 0
  rotateNow := false
  deferred := false
  rotateSrc := .module


/-! ### The cascade (R403 to R432) -/

/-- A LINK payload (R407), its instants in 2^-16 ns. -/
structure PeorelLink where
  serial : Nat
  lane : Nat
  full : Bool
  seq : Nat
  tTx : Nat
  rxSeq : Nat
  role : Nat
  depth : Nat
  tRx : Nat
  prio : Nat
  state : Nat
  mq : Nat
  subDepth : Nat
  ridge : Nat
  ridgeSeq : Nat
  radius : Nat
  asym : Int
  subDelay : Nat
  subCount : Nat
  path : List Nat
  deriving DecidableEq, Repr

/-- A booked LINK frame (R408): its slot in ps, its SEQ, from its finalisation on t_tx in 2^-16 ns and its bytes, and whether it is
committed. -/
structure LinkSlot where
  slot : Nat
  seq : Nat
  final : Option (Nat × Bytes)
  committed : Bool
  deriving DecidableEq, Repr

/-- A Peorel lane (R403 to R419). -/
structure PeorelLane where
  /-- When it came UP, on the measurement scale, and how many times it has locked. -/
  upSince : Nat
  lock : Nat
  /-- The latest LINK received, when it arrived, and its t_rx (R411). -/
  offer : Option (PeorelLink × Nat × Nat)
  /-- A LINK came since the last tick. -/
  heard : Bool
  /-- The next SEQ of each TYPE, 1 to 5. -/
  seqs : List Nat
  /-- RIDGE_SEQ as last received, and when it last advanced (R411). -/
  ridgeSeq : Option Nat
  ridgeSeqAt : Option Nat
  /-- When the peer last showed ROLE = REFUSED (R411). -/
  refusedAt : Option Nat
  /-- The child's last SUB_COUNT (R426). -/
  lastSub : Nat
  /-- LINK frames sent: SEQ, tick index, t3; LINK frames received: tick index, t1, t2 (R416). -/
  sent : List (Nat × Nat × Int)
  got : List (Nat × Int × Int)
  /-- The pairs: tick index, (t4 - t3) - (t2 - t1) and (t2 - t1) + (t4 - t3), in 2^-16 ns. -/
  pairs : List (Nat × Int × Int)
  /-- The measurement of the last evaluation: theta and delta in ps, pairs (R417). -/
  meas : Option (Int × Int × Nat)
  /-- The two ends' ASYM have disagreed since the last evaluation (R419). -/
  apart : Bool
  /-- Booked line time: start and length in ps (R207, R208). -/
  busy : List (Nat × Nat)
  /-- Booked LINK frames, the earliest first. -/
  links : List LinkSlot
  deriving DecidableEq, Repr

/-- A result of an operation (R410): the counts and, where a module executed, SUM, MIN and MAX. -/
structure OpResult where
  ok : Nat
  late : Nat
  unaligned : Nat
  missing : Nat
  sum : Int
  range : Option (Int × Int)
  deriving DecidableEq, Repr

/-- An operation held (R423): its T in ns, the local slot of its calendar entry, the lanes and SUB_DELAY recorded, its own
contribution once it is known, and the results received. -/
structure CasOp where
  id : Nat
  op : Nat
  atNs : Nat
  requester : Nat
  tag : Nat
  bound : Nat
  data : Bytes
  slot : Option Nat
  lanes : List Nat
  delay : Nat
  own : Option OpResult
  results : List (Nat × OpResult)
  sent : Bool
  /-- Issued here, as the ridge (R422). -/
  issued : Bool
  deriving DecidableEq, Repr

/-- This module's own outstanding request (R427): when it was made on the measurement scale, and BOUND once its OP came. -/
structure CasRequest where
  op : Nat
  atNs : Nat
  tag : Nat
  madeAt : Nat
  bound : Option Nat
  deriving DecidableEq, Repr

/-- The cascade. -/
structure Cas where
  lanes : List PeorelLane
  /-- Serial numbers from the ridge to this module; empty when it is in no tree. -/
  path : List Nat
  ops : List CasOp
  /-- Every OP_ID that came, so that a repeated one is discarded (R423). -/
  seen : List Nat
  nextId : Nat
  req : Option CasRequest
  /-- The live OP_RESULT words; the registers 1 to 11 hold what the last read of word 0 latched (R431). -/
  result : List Word
  deriving DecidableEq, Repr

/-- A lane at power-up. -/
def PeorelLane.empty : PeorelLane := ⟨0, 0, none, false, List.replicate 6 0, none, none, none, 0, [], [], [], none, true, [], []⟩

/-- The cascade at power-up. -/
def Cas.empty : Cas := ⟨List.replicate 8 PeorelLane.empty, [], [], [], 1, none, List.replicate 12 0⟩


/-! ### Connectors, supplies, start-up and firmware (R433 to R491) -/

/-- A timing output, 0 to 3 PPS-OUT, 4 and 5 FREQ-OUT (R437 to R439, R116): the end of the pulse under way on the measurement
scale, the amplitude taken with the last edge, whether R116 withholds its edges, and the frequency a FREQ-OUT runs at, 0 low. -/
structure Output where
  pulseEnd : Option Nat
  ampl : Bool
  squelched : Bool
  hz : Nat
  deriving DecidableEq, Repr

/-- Connectors and supplies. -/
structure Pwr where
  outs : List Output
  /-- The outputs and contacts are driven (R452). -/
  driven : Bool
  /-- The end of each alarm contact's close timer, on the measurement scale (R442). -/
  alarmEnd : List (Option Nat)
  /-- SEL has read 0xFF since, and has done so for 2 s (R442 bit 2). -/
  noSelAt : Option Nat
  noSel : Bool
  /-- When the last valid ToD sentence came, on the measurement scale. -/
  todAt : Option Nat
  /-- The inputs qualified at step 1: the reset value of EXPECT (R461). -/
  expect : Nat
  /-- The cistern counter has counted without a break (R460, R472). -/
  counting : Bool
  /-- When an accepted FULL acts, on the measurement scale (R474). -/
  resetAt : Option Nat
  /-- Self-tests after a domain's switch-on run until then (R463), and the groups applied while their domain was off (R374). -/
  testUntil : Nat
  heldGroups : List Nat
  /-- The last reading of the junction at or above 95 °C, on the measurement scale (R464). -/
  hotAt : Nat
  deriving DecidableEq, Repr

/-- A copy of the stored configuration (R469): the staged words, the latched LK words, and the GNSS positions in force (cm) with
POS_SIGMA. -/
structure ConfigCopy where
  words : Cells Word
  locks : List (Nat × Word)
  positions : List (Option (Int × Int × Int × Nat))
  deriving DecidableEq, Repr

/-- A firmware image as its holder knows it: BUILD and DIGEST (R479). -/
structure FwImage where
  build : Nat
  digest : Bytes
  deriving DecidableEq, Repr

/-- The step under way in a start (R465): step, attempts it has failed in this start, the bank or the copy it tried first, when the
present attempt began on the measurement scale, and the reset kind. -/
structure StartPoint where
  step : Nat
  failed : Nat
  first : Nat
  since : Nat
  kind : Nat
  deriving DecidableEq, Repr

/-- Start-up (R465 to R473). -/
structure Boot where
  /-- The start under way. -/
  at_ : Option StartPoint
  /-- The boot record's copy in flash (R467). -/
  flashRecord : Cells Word
  /-- The current and the last-known-good copy (R469). -/
  current : Option ConfigCopy
  good : Option ConfigCopy
  /-- The images of banks A and B. -/
  banks : List FwImage
  /-- The copy that a STORE captured and that is being written to flash (R469). -/
  storing : Option ConfigCopy
  /-- When stability is reached, and when a safe hold is retried, on the measurement scale (R468, R471). -/
  stableAt : Option Nat
  retryAt : Option Nat
  /-- This start takes one copy lower, and the other bank (R468). -/
  lower : Bool
  /-- A MGMT reset under way: 0 commanded, 1 the watchdog, 2 a bank switch. -/
  mgmt : Option Nat
  /-- When the last bank switch was, on the measurement scale (R484). -/
  switchedAt : Option Nat
  deriving DecidableEq, Repr

/-- Whose transfer awaits the end of an image check (R480): a descriptor, or a session's message. -/
inductive FwOwner
  | ring (n : Nat) (d : Desc)
  | session (i tag : Nat)
  deriving DecidableEq, Repr

/-- Staged firmware (R479 to R482). -/
structure Fw where
  /-- The bytes of FW_STAGE that are not 0. -/
  mem : Cells Byte
  /-- The 64-byte lines written since the last check, rising. -/
  lines : List Nat
  checking : Option FwOwner
  held : Option FwImage
  deriving DecidableEq, Repr

/-- A timing output at power-up. -/
def Output.empty : Output := ⟨none, false, false, 0⟩

/-- Connectors and supplies at power-up. -/
def Pwr.empty : Pwr := ⟨List.replicate 6 Output.empty, false, [none, none], none, false, none, 0, false, none, 0, [], 0⟩

/-- The digest of a bank's microcode as it left the factory. -/
def factoryDigest (bank : Nat) : Bytes :=
  ((List.range 8).map (fun w => (List.range 4).map (fun b =>
    byte ((Config.factory (0x58220 + 4 * w + 0x100000 * bank)).toNat >>> (8 * b))))).flatten

/-- Start-up before the first start. -/
def Boot.empty : Boot where
  at_ := none
  flashRecord := []
  current := none
  good := none
  storing := none
  banks := [⟨(Config.factory 0x58208).toNat, factoryDigest 0⟩, ⟨(Config.factory 0x158208).toNat, factoryDigest 1⟩]
  stableAt := none
  retryAt := none
  lower := false
  mgmt := none
  switchedAt := none

/-- No staged firmware. -/
def Fw.empty : Fw := ⟨[], [], none, none⟩

/-! ### The whole state -/

/-- MP settings from the factory (R380): DHCPv4 and autoconfiguration on, no static address; the NET body of R384. -/
def celenNetFactory : Bytes := 3 :: List.replicate 43 0

/-- The state of the module. -/
structure State where
  /-- The live register words that differ from their reset value (R369, R390). -/
  regs : Cells Word
  /-- The staging copies of the staged words (R369). -/
  stage : Cells Word
  /-- The pending copies of the staged words (R371). -/
  pendRegs : Cells Word
  /-- When the next parity check is due, on the measurement scale (R377). -/
  scrubAt : Nat
  /-- The sluice groups 0 to 34 (R400). -/
  groups : List GroupState
  /-- The views of the host, of sessions 1 to 4 and of the module (R352, R366, R369, R500). -/
  sources : List SourceView
  /-- The LK words latched since the last start at step 1 (R367). -/
  latched : List Nat
  /-- FAULT_SEQ as the host last read it (R397). -/
  faultRead : Nat
  /-- The running totals of the tally set (R492). -/
  totals : Cells Nat
  /-- The MSI-X table, four words for each vector (R349). -/
  msix : List Word
  /-- The audit journal. -/
  journal : Journal
  /-- The management protocol. -/
  celen : Celen
  /-- The timescale and the calendar. -/
  ts : Timescale
  /-- The host interface. -/
  hif : Hif
  /-- The reference inputs. -/
  refs : Refs
  /-- Oscillators, holdover and the cartridge. -/
  hol : Hol
  /-- The GNSS receiver. -/
  gnss : Gnss
  /-- The time-tag unit. -/
  ttu : Ttu
  /-- The service ports. -/
  ports : Ports
  /-- The headrace and the pipelines. -/
  hrc : Hrc
  /-- The NTS master keys. -/
  nts : Nts
  /-- PTP and SyncE. -/
  ptp : Ptp
  /-- The public-key engine, the key store and the TRNG. -/
  pke : Pke
  /-- The receipt engine. -/
  rcp : Rcp
  /-- Tallies and sampling. -/
  tal : Tal
  /-- The cascade. -/
  cas : Cas
  /-- Connectors and supplies. -/
  pwr : Pwr
  /-- Start-up and stored configuration. -/
  boot : Boot
  /-- Staged firmware. -/
  fw : Fw
  /-- The cause of each fenced unit, by kind times 256 plus index (R394, R395). -/
  fences : Cells Nat
  /-- The unit whose return is being tested, kind and index (R396). -/
  testing : Option (Nat × Nat)
  /-- What has left the module, newest first. -/
  out : List Emission
  /-- The counter of free values drawn (the model's own field: no value of the manual). -/
  fresh : Nat
  /-- The commands that wait, first in, first out. -/
  pending : List Instr
  deriving DecidableEq, Repr

/-- The machine right after reset: every register at its reset value, no power yet, an empty queue (R465, R472). -/
def State.reset : State where
  regs := []
  stage := []
  pendRegs := []
  scrubAt := 0
  groups := List.replicate 35 ⟨none, [], [], false⟩
  sources := List.replicate 6 ⟨none, false, 0x1FFFFF⟩
  latched := []
  faultRead := 0
  totals := []
  msix := (List.replicate 64 [0, 0, 0, 1]).flatten
  journal := ⟨[], 0, [], []⟩
  celen := ⟨List.replicate 4 none, celenNetFactory, [], true⟩
  ts := ⟨0, 0, 0, 0, false, none, none, 0, 0xFFFFFFFF, 0xFFFFFFFF, 0xFFFFFFFF * 65536, false, none, 0, none, 0, List.replicate 6 none, [], [], 0⟩
  hif := ⟨false, List.replicate 256 ⟨0, 0, 0, 0, [], [], 0, 0, 0, none⟩, List.replicate 64 ⟨0, 0, false⟩, false, false, [], none⟩
  refs := Refs.empty
  hol := Hol.empty
  gnss := Gnss.empty
  ttu := Ttu.empty
  ports := Ports.empty
  hrc := Hrc.empty
  nts := ⟨[], false, none, none, none, none⟩
  ptp := Ptp.empty
  pke := Pke.empty
  rcp := Rcp.empty
  tal := Tal.empty
  cas := Cas.empty
  pwr := Pwr.empty
  boot := Boot.empty
  fw := Fw.empty
  fences := []
  testing := none
  out := []
  fresh := 0
  pending := []

end Sys2Proof.Machine
end

