-- ==== Sys2Proof/Machine/Ops.lean ====
section
/-!
DEFINITION. The named operations that every unit shares: reading and writing registers and their fields, the passage of
time (R20, R170), counters (R361, R492), what leaves the module, event rings and interrupts (R331, R332, R341 to R343),
EVENT registers (R363), the fault log (R397, R398) and the audit journal (R387 to R389).
-/

namespace Sys2Proof.Machine

/-! ### Registers -/

/-- The live value of a register word. -/
def State.rd (s : State) (a : Nat) : Word := CellList.get resetOf s.regs a

/-- Setting the live value of a register word; the register file keeps its one canonical form. -/
def State.wr (s : State) (a : Nat) (v : Word) : State := { s with regs := CellList.set resetOf s.regs a v }

/-- An unsigned field of a register. -/
def State.f (s : State) (a lo n : Nat) : Nat := fld (s.rd a) lo n

/-- A signed field of a register. -/
def State.sf (s : State) (a lo n : Nat) : Int := sfld (s.rd a) lo n

/-- One bit of a register. -/
def State.bit (s : State) (a i : Nat) : Bool := bitOf (s.rd a) i

/-- Setting a field of a register. -/
def State.sfW (s : State) (a lo n v : Nat) : State := s.wr a (putFld (s.rd a) lo n v)

/-- Setting one bit of a register. -/
def State.setBit (s : State) (a i : Nat) (b : Bool) : State := s.sfW a i 1 (b2n b)

/-- A signed 64-bit quantity over two words, low word first. -/
def State.wr64 (s : State) (a : Nat) (v : Int) : State :=
  (s.wr a (word (unsigned v 64))).wr (a + 4) (word (unsigned v 64 >>> 32))

/-- A 64-bit quantity over two words, low word first. -/
def State.rd64 (s : State) (a : Nat) : Nat := (s.rd a).toNat + 2 ^ 32 * (s.rd (a + 4)).toNat

/-- The staging value of a staged word (R369). -/
def State.rdStage (s : State) (a : Nat) : Word := CellList.get resetOf s.stage a

/-- The pending value of a staged word (R371). -/
def State.rdPend (s : State) (a : Nat) : Word := CellList.get resetOf s.pendRegs a

/-- Applying a function only where a condition holds. -/
def State.when (s : State) (c : Bool) (f : State → State) : State := if c then f s else s

/-- One change for each element of a list, in order. -/
def State.each {α : Type} (s : State) (l : List α) (f : α → State → State) : State := l.foldl (fun t x => f x t) s

/-! ### Time -/

/-- The fabric cycle adds 1 ns times (1 + y) to the timescale (R20); y in units of 2^-48. -/
def rate (freq slew : Int) : Nat := ((2 : Int) ^ 48 + freq + slew).toNat

/-- `dt` fabric cycles pass: the timescale advances with its frequency correction and slew (R20), the measurement scale
with the frequency correction alone (R170). -/
def State.advance (s : State) (dt : Nat) : State :=
  { s with ts := { s.ts with
      acc := s.ts.acc + dt * rate (s.sf A.tscFreqCorr 0 32) s.ts.ySlew
      steer := s.ts.steer + dt * (s.sf A.tscFreqCorr 0 32 + s.ts.ySlew)
      meas := s.ts.meas + dt * rate (s.sf A.tscFreqCorr 0 32) 0
      cycles := s.ts.cycles + dt } }

/-- The timescale in whole ns. -/
def State.nowNs (s : State) : Nat := s.ts.acc / 2 ^ 48

/-- The timescale in units of 2^-16 ns: SEC, NS and FRAC of R18 as one count. -/
def State.stamp (s : State) : Nat := s.ts.acc / 2 ^ 32

/-- The timescale in ps, rounded down. -/
def State.nowPs (s : State) : Nat := s.ts.acc * 1000 / 2 ^ 48

/-- The measurement scale in ns. -/
def State.measNs (s : State) : Nat := s.ts.meas / 2 ^ 48

/-- The 96-bit value of R18 of a count of 2^-16 ns. -/
def tai96 (stamp : Nat) : Nat :=
  let ns := stamp / 65536
  (ns / 1000000000) * 2 ^ 48 + (ns % 1000000000) * 2 ^ 16 + stamp % 65536

/-- The 96-bit value as a record carries it in host memory (R19). -/
def taiLe (stamp : Nat) : Bytes := le 12 (tai96 stamp)

/-- The 96-bit value as the wire carries it (R19). -/
def taiBe (stamp : Nat) : Bytes := be 12 (tai96 stamp)

/-- An instant in whole ns as the fields of an AT or result triple of words. -/
def State.wrInstant (s : State) (secLo secHi ns : Nat) (atNs : Nat) : State :=
  let t := atNs / 1000000000
  ((s.wr secLo (word t)).wr secHi (word (t / 2 ^ 32 % 65536))).wr ns (word (atNs % 1000000000))

/-! ### Free values -/

/-- Drawing a free value: the counter of State advances, the value is `Config.freeValue`'s. -/
def State.draw (s : State) : Nat × State := (Config.freeValue s.fresh, { s with fresh := s.fresh + 1 })

/-- Drawing a free byte string of a given length. -/
def State.drawBytes (s : State) (n : Nat) : Bytes × State := (le n (Config.freeValue s.fresh), { s with fresh := s.fresh + 1 })

/-! ### Counters (R361, R492) -/

/-- The counters of the tally set (R492): the CR words and pairs of blocks MAC0, MAC1, CMAC, HRC, SVP, NTS, PTP, RCP and
PKE, but for each block's STALE_ACK. -/
def inTallySet (a : Nat) : Bool :=
  decide (0x40000 ≤ a) && decide (a < 0x80000) &&
  (match rowOf a with
   | some r => decide (r.kind = .cr) &&
      !([0x40008, 0x44008, 0x48008, 0x50008, 0x5C008, 0x60008, 0x68008, 0x70008, 0x78008].contains a)
   | none => false)

/-- Counting `n` occurrences: the visible counter saturates (R361), the running total does not (R492). -/
def State.count (s : State) (a n : Nat) : State :=
  let total := (CellList.get (fun _ => 0) s.totals a + n) % 2 ^ 64
  let t := { s with totals := if inTallySet a then CellList.set (fun _ => 0) s.totals a total else s.totals }
  if (pairRowOf a).isSome then t.wr64 a ((min (t.rd64 a + n) (2 ^ 64 - 1) : Nat) : Int)
  else t.wr a (word (min ((t.rd a).toNat + n) (2 ^ 32 - 1)))

/-- Counting one occurrence. -/
def State.inc (s : State) (a : Nat) : State := s.count a 1

/-! ### What leaves the module -/

/-- One emission more. -/
def State.emit (s : State) (e : Emission) : State := { s with out := e :: s.out }

/-- A posted write to host memory, of anything (R326). -/
def State.hostWrite (s : State) (addr : Nat) (d : Bytes) : State := s.emit (.hostWrite addr d)

/-! ### Blocks and domains (R342, R390) -/

/-- The block code of an address (R342); 255 outside every block. -/
def blockOf (a : Nat) : Nat :=
  if a < 0x2000 then 0 else if a < 0x4000 then 1 else if a < 0x8000 then 2 else if a < 0xA000 then 3
  else if a < 0xC000 then 4 else if a < 0x10000 then 5 else if a < 0x14000 then 6 else if a < 0x18000 then 7
  else if a < 0x20000 then 8 else if a < 0x30000 then 9 else if a < 0x40000 then 10 else if a < 0x44000 then 11
  else if a < 0x48000 then 12 else if a < 0x50000 then 13 else if a < 0x58000 then 14 else if a < 0x60000 then 15
  else if a < 0x68000 then 16 else if a < 0x70000 then 17 else if a < 0x78000 then 18 else if a < 0x80000 then 19
  else if a < 0x90000 then 20 else 255

/-- The power domain that holds an address (R390). -/
def domainOf (a : Nat) : Nat :=
  if a < 0x10000 then (if 0xA040 ≤ a ∧ a < 0xA160 then 0 else 15)
  else if a < 0x20000 then 7 else if a < 0x30000 then 5 else if a < 0x40000 then 6 else if a < 0x48000 then 12
  else if a < 0x50000 then 13 else if a < 0x58000 then 12
  else if a < 0x5A000 then 8 else if a < 0x5C000 then 9 else if a < 0x60000 then 12
  else if a < 0x68000 then 10 else if a < 0x70000 then 12 else if a < 0x78000 then 10 else if a < 0x80000 then 11
  else 13

/-- A domain is switched on. -/
def State.domainOn (s : State) (d : Nat) : Bool := s.bit A.pwrDomState d

/-- The STALE_ACK counter of the block that holds an EVENT register (R363, R391). -/
def staleAckOf (a : Nat) : Nat :=
  match blockOf a with
  | 0 => A.glbStaleAck | 1 => A.sluStaleAck | 2 => A.hifStaleAck | 3 => A.pwrStaleAck | 4 => A.bootStaleAck
  | 5 => A.talStaleAck | 6 => A.tscStaleAck | 7 => A.refStaleAck | 8 => A.holStaleAck
  | 9 => if a < 0x21000 then A.gnsStaleAck else if a < 0x22000 then A.gnsSideStaleAck 0 else A.gnsSideStaleAck 1
  | 10 => A.ttuStaleAck | 11 => A.macStaleAck 0 | 12 => A.macStaleAck 1 | 13 => A.cmacStaleAck | 14 => A.hrcStaleAck
  | 15 => A.svpStaleAck | 16 => A.ntsStaleAck | 17 => A.ptpStaleAck | 18 => A.rcpStaleAck | 19 => A.pkeStaleAck
  | _ => A.casStaleAck

/-! ### Rings: completions, event records, interrupts (R331, R332, R343) -/

/-- The default of a ring that is OFF. -/
def Ring.off : Ring := ⟨0, 0, 0, 0, [], [], 0, 0, 0, none⟩

/-- A ring. -/
def State.ring (s : State) (n : Nat) : Ring := s.hif.rings.getD n Ring.off

/-- Changing a ring. -/
def State.setRing (s : State) (n : Nat) (f : Ring → Ring) : State :=
  { s with hif := { s.hif with rings := modAt s.hif.rings n f } }

/-- STATE of a ring (R346): 0 OFF, 1 RUNNING, 2 QUIESCING, 3 ERROR. -/
def State.ringState (s : State) (n : Nat) : Nat := s.f (A.hifRingState n) 0 2

/-- TYPE of a ring (R330). -/
def State.ringType (s : State) (n : Nat) : Nat := s.f (A.hifRingCfg n) 0 3

/-- ENTRIES of a ring (R330). -/
def State.ringEntries (s : State) (n : Nat) : Nat := 2 ^ (6 + s.f (A.hifRingCfg n) 4 4)

/-- PHASE of the entry with count `j` (R331). -/
def phaseOf (j entries : Nat) : Nat := if (j / entries) % 2 = 0 then 1 else 0

/-- CBASE of a ring. -/
def State.cbase (s : State) (n : Nat) : Nat := s.rd64 (A.hifRingCbaseLo n)

/-- COUNT and TIME of a vector; the parity safe state of its word makes them 1 and 0 (R343, R350). -/
def State.vecCount (s : State) (v : Nat) : Nat :=
  if ((s.groups.getD 25 ⟨none, [], [], false⟩).parity.contains (A.hifVec v)) then 1 else s.f (A.hifVec v) 0 8

/-- TIME of a vector in microseconds. -/
def State.vecTime (s : State) (v : Nat) : Nat :=
  if ((s.groups.getD 25 ⟨none, [], [], false⟩).parity.contains (A.hifVec v)) then 0 else s.f (A.hifVec v) 16 14

/-- The mask bit of a vector in the MSI-X table at 0x3800 of HIF (R349, laid out as PCIe gives it). -/
def State.vecMasked (s : State) (v : Nat) : Bool := bitOf (s.msix.getD (4 * v + 3) 1) 0

/-- Sending a vector's message; while it is masked the message waits in the pending-bit array (R343). -/
def State.sendVec (s : State) (v : Nat) : State :=
  if s.vecMasked v then
    { s with hif := { s.hif with vecs := modAt s.hif.vecs v (fun x => { x with items := 0, waiting := true }) } }
  else
    ({ s with hif := { s.hif with vecs := modAt s.hif.vecs v (fun x => { x with items := 0, waiting := false }) } }).emit (.msix v)

/-- One pending item of a ring's vector (R343): the message goes out when COUNT is reached. -/
def State.pendItem (s : State) (n : Nat) : State :=
  if s.bit (A.hifRingCfg n) 14 then
    let v := s.f (A.hifRingCfg n) 8 6
    let add : Vec → Vec := fun x => { x with items := x.items + 1, since := if x.items = 0 then s.ts.meas else x.since }
    let t := { s with hif := { s.hif with vecs := modAt s.hif.vecs v add } }
    if t.vecCount v ≤ (t.hif.vecs.getD v ⟨0, 0, false⟩).items then t.sendVec v else t
  else s

/-- Writing POSTED and its register (R331). -/
def State.bumpPosted (s : State) (n : Nat) : State :=
  let p := (s.ring n).posted + 1
  (s.setRing n (fun r => { r with posted := p })).wr (A.hifRingPosted n) (word p)

/-- Posting one completion on a ring (R331, R334, R343). -/
def State.postCompletion (s : State) (n slot status flags length : Nat) (user : Bytes) : State :=
  let e := s.ringEntries n
  let j := (s.ring n).posted
  let d := le 2 slot ++ le 1 status ++ le 1 (phaseOf j e + flags) ++ le 4 length ++ slice user 0 8
  ((s.hostWrite (s.cbase n + 16 * (j % e)) d).bumpPosted n).pendItem n

/-- The EVENT ring that is RUNNING, if there is one (R332). -/
def State.eventRing (s : State) : Option Nat :=
  (List.range 256).find? (fun n => decide (s.ringType n = 7) && decide (s.ringState n = 1))

/-- The EVENT ring is full (R332). -/
def State.eventFull (s : State) (n : Nat) : Bool :=
  decide (s.ringEntries n ≤ ((s.ring n).posted + 2 ^ 32 - (s.ring n).cons % 2 ^ 32) % 2 ^ 32)

/-- The destination's coalescing window of an EVENT register (R342). -/
def State.coalescing (s : State) (dest reg : Nat) : Bool :=
  s.hif.coalesce.any (fun c => decide (c.dest = dest) && decide (c.reg = reg))

/-- EVT_BLOCKS as it acts; its parity safe state makes it 0 (R350). -/
def State.evtBlocks (s : State) : Nat :=
  if ((s.groups.getD 25 ⟨none, [], [], false⟩).parity.contains A.hifEvtBlocks) then 0 else s.f A.hifEvtBlocks 0 21

/-- Setting an event bit: SEQ advances at every occurrence (R363). -/
def State.raiseBit (s : State) (reg b : Nat) : State :=
  (s.sfW reg b 1 1).sfW reg 24 8 (s.f reg 24 8 + 1)

/-- A dropped event record counts in EVT_DROP and raises HIF.EVENT.EVT_DROP (R332, R349). A BLOCK_EVENT record of that
newly set bit would meet the same full ring, so it is dropped and counted too. -/
def State.evtDropped (s : State) : State :=
  let fresh := !(s.bit A.hifEvent 4) && s.evtBlocks.testBit 2 && !(s.coalescing 0 A.hifEvent)
  let t := (s.inc A.hifEvtDrop).raiseBit A.hifEvent 4
  if fresh then (t.inc A.hifEvtDrop).raiseBit A.hifEvent 4 else t

/-- Posting a 32-byte event record, its FLAGS without PHASE (R332, R341). Without an enabled EVENT ring it is dropped. -/
def State.postEvent (s : State) (type flags source : Nat) (stamp : Nat) (body : Bytes) : State :=
  match s.eventRing with
  | none => s.evtDropped
  | some n =>
    if s.eventFull n then s.evtDropped
    else
      let e := s.ringEntries n
      let j := (s.ring n).posted
      let d := le 1 type ++ le 1 (phaseOf j e + flags) ++ le 2 source ++ taiLe stamp ++ slice body 0 16
      ((s.hostWrite (s.cbase n + 32 * (j % e)) d).bumpPosted n).pendItem n

/-- The event record of R341 without PHASE, as a session's EVENT message carries it (R384). -/
def eventBytes (type flags source stamp : Nat) (body : Bytes) : Bytes :=
  le 1 type ++ le 1 flags ++ le 2 source ++ taiLe stamp ++ slice body 0 16

/-- An EVENT stream message to a session (R384, R385). -/
def State.sendEventMsg (s : State) (i : Nat) (sub : Subscription) (data : Bytes) : State :=
  let t := s.emit (.mp i 0x90 sub.tag (be 4 sub.dropped ++ data))
  { t with celen := { t.celen with sessions := modAt t.celen.sessions (i - 1) (fun o => o.map (fun x =>
      { x with sub := x.sub.map (fun q => { q with dropped := 0 }) })) } }

/-- The subscription of session `i`, 1 to 4. -/
def State.subOf (s : State) (i : Nat) : Option Subscription :=
  match s.celen.sessions.getD (i - 1) none with
  | some x => x.sub
  | none => none

/-- A BLOCK_EVENT record for one destination, 0 the host and 1 to 4 a session, opening its 100 microsecond window (R342). -/
def State.blockEvent (s : State) (dest reg : Nat) : State :=
  let body := le 4 (s.rd reg).toNat ++ le 4 reg ++ zeros 8
  let t := { s with hif := { s.hif with coalesce :=
    ⟨dest, reg, 100000 * 2 ^ 48 + s.ts.meas, false⟩ :: s.hif.coalesce } }
  if dest = 0 then t.postEvent 2 0 (blockOf reg) s.stamp body
  else match t.subOf dest with
    | some q => t.sendEventMsg dest q (eventBytes 2 0 (blockOf reg) s.stamp body)
    | none => t

/-- A newly set bit for one destination: a record at once, or the mark that the window's end reports it (R342). -/
def State.noteEvent (s : State) (dest reg : Nat) : State :=
  if s.coalescing dest reg then
    { s with hif := { s.hif with coalesce := s.hif.coalesce.map (fun c =>
      if c.dest = dest ∧ c.reg = reg then { c with more := true } else c) } }
  else s.blockEvent dest reg

/-- An occurrence of an event (R363): SEQ advances and the bit is set; a bit that was clear is reported to the host while
its block is enabled in EVT_BLOCKS (R342), and to every session that subscribed to the block (R385). GLB's FAULT_LOGGED
has the FAULT record in its place (R399). -/
def State.raise (s : State) (reg b : Nat) : State :=
  let was := s.bit reg b
  let t := s.raiseBit reg b
  if was || (decide (reg = A.glbEvent) && decide (b = 0)) then t
  else
    let t := if t.evtBlocks.testBit (blockOf reg) then t.noteEvent 0 reg else t
    t.each [1, 2, 3, 4] (fun i u => match u.subOf i with
      | some q => if q.blocks.testBit (blockOf reg) then u.noteEvent i reg else u
      | none => u)

/-! ### Progress records (R344) -/

/-- Writing a progress record: operation's phase, status, progress, partial result, owner and tag. -/
def State.progressRecord (s : State) (addr seq phase status progress resAddr resLen owner tag : Nat) : State :=
  s.hostWrite addr (le 4 seq ++ le 1 phase ++ le 1 status ++ le 2 progress ++ taiLe s.stamp ++ zeros 4 ++ le 8 resAddr ++
    le 4 resLen ++ le 1 owner ++ zeros 3 ++ le 4 tag ++ zeros 16 ++ le 4 seq)

/-! ### Dropping items of a ring (R339) -/

/-- An item dropped on a ring: DROP counts it, and a DROP record is posted at most once per ms. -/
def State.ringDrop (s : State) (n : Nat) : State :=
  let t := (s.inc (A.hifRingDrop n)).setRing n (fun r => { r with dropped := r.dropped + 1 })
  let due := match (t.ring n).lastDrop with
    | none => true
    | some m => decide (1000000 * 2 ^ 48 + m ≤ t.ts.meas)
  if due then
    let k := (t.ring n).dropped
    (t.setRing n (fun r => { r with dropped := 0, lastDrop := some t.ts.meas })).postEvent 4 0 n t.stamp
      (le 1 0x0A ++ zeros 3 ++ le 4 k ++ zeros 8)
  else t

/-! ### Records to RX_RECORD rings (R338) -/

/-- The running ring that serves a record source, if the ring exists (R338, R339). -/
def State.recordRing (s : State) (n source : Nat) : Bool :=
  decide (s.ringType n = 3) && decide (s.f (A.hifRingCfg n) 16 3 = source) && decide (s.ringState n = 1)

/-- Descriptors at the head of a ring that break the table of R333 end with BAD_DESCRIPTOR: on the rings of buffers at once,
on the others in their turn (R335). -/
def State.settleBad (s : State) (n : Nat) : State :=
  let bad := (s.ring n).waiting.takeWhile (fun d => d.bad)
  let t := s.setRing n (fun r => { r with waiting := r.waiting.dropWhile (fun d => d.bad) })
  if t.ringType n = 2 ∨ t.ringType n = 3 then t.each bad (fun d u => u.postCompletion n d.slot 0xB 0 0 d.user)
  else t.setRing n (fun r => { r with started := r.started ++ bad.map (fun d => (d, some (0xB, 0))) })

/-- Completing the first waiting buffer of an RX_RECORD ring with the bytes it holds (R338). -/
def State.flushBuffer (s : State) (n : Nat) : State :=
  match (s.ring n).waiting with
  | [] => s
  | b :: _ =>
    let k := (s.ring n).fill
    ((s.setRing n (fun r => { r with waiting := r.waiting.tail, fill := 0, fillSince := 0 })).postCompletion n b.slot 0 0 k
      b.user).settleBad n

/-- A record finds room on a ring: a buffer is free, after completing a buffer that the record does not fit into (R338). -/
def State.makeRoom (s : State) (n len : Nat) : State :=
  match (s.ring n).waiting with
  | [] => s
  | b :: _ => if b.len < (s.ring n).fill + len then s.flushBuffer n else s

/-- Writing one record to an RX_RECORD ring: the new state and whether the record was taken (R338). -/
def State.putRecord (s : State) (n : Nat) (d : Bytes) : State × Bool :=
  let t := s.makeRoom n d.length
  match (t.ring n).waiting with
  | [] => (t, false)
  | b :: _ =>
    if d.length ≤ b.len then
      let off := (t.ring n).fill
      ((t.hostWrite (b.addr + off) d).setRing n (fun r =>
        { r with fill := off + d.length, fillSince := if off = 0 then t.ts.meas else r.fillSince }), true)
    else (t, false)

/-- A record of a source that drops: written, or dropped and counted on the ring it names (R339). -/
def State.recordOrDrop (s : State) (n source : Nat) (d : Bytes) : State × Bool :=
  if s.recordRing n source then
    let r := s.putRecord n d
    if r.2 then r else (r.1.ringDrop n, false)
  else (s.ringDrop n, false)

/-! ### The audit journal (R387 to R389) -/

/-- The SRC code and SESSION byte of a source (R388). -/
def Source.code : Source → Nat × Nat
  | .module => (0, 0)
  | .host => (1, 0)
  | .session i => (2, i)
  | .calendar => (3, 0)
  | .cascade => (4, 0)

/-- The bytes of a journal record (R388). -/
def JRecord.bytes (r : JRecord) : Bytes :=
  let body := r.body ++ zeros ((4 - r.body.length % 4) % 4)
  le 2 (32 + body.length) ++ le 1 6 ++ le 1 r.kind ++ le 4 r.seq ++ taiLe r.stamp ++ le 1 r.src ++ le 1 r.session ++
  le 2 r.block ++ le 4 r.addr ++ le 4 r.outcome ++ body

/-- The RX_RECORD ring with SOURCE 4, if one runs (R339). -/
def State.journalRing (s : State) : Option Nat := (List.range 256).find? (fun n => s.recordRing n 4)

/-- Delivering undelivered journal records to the JOURNAL ring, oldest first, as far as buffers reach (R339). -/
def State.pumpJournal (s : State) : State :=
  match s.journalRing with
  | none => s
  | some n =>
    (s.journal.records.reverse.filter (fun r => decide (s.journal.nextRing ≤ r.seq))).foldl (fun t r =>
      if t.journal.nextRing ≤ r.seq then
        let q := t.putRecord n r.bytes
        if q.2 then { q.1 with journal := { q.1.journal with nextRing := r.seq + 1 } } else q.1
      else t) s

/-- JOURNAL stream messages to the sessions that subscribed (R384, R385). -/
def State.streamJournal (s : State) : State :=
  s.each [1, 2, 3, 4] (fun i t => match t.subOf i with
    | none => t
    | some q =>
      if q.journal then
        let new := t.journal.records.reverse.filter (fun r => decide (q.nextSeq ≤ r.seq))
        let u := t.each new (fun r u => u.emit (.mp i 0x91 q.tag r.bytes))
        { u with celen := { u.celen with sessions := modAt u.celen.sessions (i - 1) (fun o => o.map (fun x =>
          { x with sub := x.sub.map (fun z => { z with nextSeq := max z.nextSeq (t.f A.glbJournalSeq 0 32) }) })) } }
      else t)

/-- The kinds that are also written to flash (R389): COMMIT, GUARDED, LOCK, KEY, FIRMWARE, TIMESCALE. -/
def flashKind (k : Nat) : Bool := decide (1 ≤ k ∧ k ≤ 5) || decide (k = 7)

/-- Dropping the oldest records beyond a buffer's size (R389): what stays. -/
def keepWithin (limit : Nat) : List JRecord → Nat → List JRecord
  | [], _ => []
  | r :: t, n => if n + r.bytes.length ≤ limit then r :: keepWithin limit t (n + r.bytes.length) else []

/-- Writing one audit journal record (R387, R388). Records overwritten before delivery count in JOURNAL_LOST (R389). -/
def State.journalize (s : State) (kind : Nat) (src : Source) (addr outcome : Nat) (body : Bytes) : State :=
  let seq := s.f A.glbJournalSeq 0 32
  let r : JRecord := ⟨seq, kind, s.stamp, src.code.1, src.code.2, blockOf addr, addr, outcome, body⟩
  let all := r :: s.journal.records
  let kept := keepWithin (64 * 2 ^ 20) all 0
  let lost := (all.drop kept.length).filter (fun x => decide (s.journal.nextRing ≤ x.seq))
  let t := { s with journal := { s.journal with
      records := kept
      toFlash := if flashKind kind then r :: s.journal.toFlash else s.journal.toFlash } }
  let t := t.wr A.glbJournalSeq (word (seq + 1))
  let t := if lost.length = 0 then t else (t.count A.glbJournalLost lost.length).raise A.glbEvent 4
  t.pumpJournal.streamJournal

/-- A journal record whose block the manual gives by another field than its address. -/
def State.journalBlock (s : State) (kind : Nat) (src : Source) (block addr outcome : Nat) (body : Bytes) : State :=
  let t := s.journalize kind src addr outcome body
  { t with journal := { t.journal with
      records := t.journal.records.map (fun r => if r.seq = s.f A.glbJournalSeq 0 32 then { r with block := block } else r)
      toFlash := t.journal.toFlash.map (fun r => if r.seq = s.f A.glbJournalSeq 0 32 then { r with block := block } else r) } }

/-! ### The fault log (R397 to R399) -/

/-- Logging a fault: entry SEQ mod 64, FAULT_SEQ, FAULT_LOGGED, the FAULT event record and the journal record. -/
def State.logFault (s : State) (code : Nat) (src : Source) (block addr value access detail : Nat) : State :=
  let seq := s.f A.glbFaultSeq 0 32 + 1
  let head := le 1 code ++ le 1 src.code.1 ++ le 1 src.code.2 ++ le 1 block ++ le 4 addr ++ le 4 value ++
    le 1 access ++ le 1 detail ++ zeros 2
  let entry := head ++ taiLe s.stamp ++ le 4 seq
  let base := 0x1000 + 0x20 * (seq % 64)
  let old := (s.rd (base + 28)).toNat
  let t := if old ≠ 0 ∧ s.faultRead < old then (s.inc A.glbFaultOverwrite).raise A.glbEvent 5 else s
  let t := t.each [0, 1, 2, 3, 4, 5, 6, 7] (fun w u => u.wr (base + 4 * w) (word (leAt entry (4 * w) 4)))
  let t := (t.wr A.glbFaultSeq (word seq)).raise A.glbEvent 0
  let t := if t.evtBlocks.testBit 0 then t.postEvent 5 0 code s.stamp head else t
  let t := t.each [1, 2, 3, 4] (fun i u => match u.subOf i with
    | some q => if q.faults then u.sendEventMsg i q (eventBytes 5 0 code s.stamp head) else u
    | none => u)
  t.journalBlock 0x0B src block addr 0 head

/-- ACCESS of a fault log entry: byte enables and direction (R398). -/
def accessByte (be : Nat) (write : Bool) : Nat := be % 16 + 16 * b2n write

/-! ### Calendar entries (R25 to R33) -/

/-- The lowest entry index not in use. -/
def freeIndex (l : Cells CalEntry) : Nat → Nat → Nat
  | 0, k => k
  | n + 1, k => if l.any (fun e => decide (e.1 = k)) then freeIndex l n (k + 1) else k

/-- CAL_USED after a change of the calendar (R57). -/
def State.calUsed (s : State) : State :=
  (s.sfW A.tscCalUsed 0 13 s.ts.calendar.length).sfW A.tscCalUsed 16 11
    (s.ts.calendar.filter (fun e => e.2.host)).length

/-- Setting calendar entry `i`. -/
def State.calPut (s : State) (i : Nat) (e : CalEntry) : State :=
  ({ s with ts := { s.ts with calendar := CellList.insert i e s.ts.calendar } }).calUsed

/-- Freeing calendar entry `i`. -/
def State.calFree (s : State) (i : Nat) : State :=
  ({ s with ts := { s.ts with calendar := CellList.erase i s.ts.calendar } }).calUsed

/-- Creating an entry at the lowest free index: the index and the new state. -/
def State.calNew (s : State) (e : CalEntry) : Nat × State :=
  let i := freeIndex s.ts.calendar 4096 0
  (i, s.calPut i e)

/-- A module-owned entry. -/
def ownEntry (action target atNs period count arg : Nat) : CalEntry :=
  ⟨atNs, 0, action, target, period, count, arg, false, none, false, false⟩

/-- Removing every entry of an action and target. -/
def State.calDrop (s : State) (action target : Nat) : State :=
  let kept := s.ts.calendar.filter (fun e => !(decide (e.2.action = action) && decide (e.2.target = target)))
  ({ s with ts := { s.ts with calendar := kept } }).calUsed

/-- Creating an entry of an action and target in place of those it had. -/
def State.calOwn (s : State) (e : CalEntry) : State := ((s.calDrop e.action e.target).calNew e).2

/-- The firing class of an action (R25). -/
def actionClass (action : Nat) : Nat :=
  match action with
  | 0x10 => 1
  | 0x11 => 2
  | 0x12 => 3
  | 0x13 => 4
  | 0x14 => 4
  | 0x15 => 5
  | 0x16 => 5
  | 0x17 => 6
  | 0x1F => 8
  | _ => 7

/-- Entry `x` fires before entry `y` (R27, R43): the earlier scheduled instant, then the lower class, then the lower index. -/
def firesBefore (x y : Nat × CalEntry) : Bool :=
  decide (x.2.atNs < y.2.atNs) || (decide (x.2.atNs = y.2.atNs) &&
    (decide (actionClass x.2.action < actionClass y.2.action) ||
      (decide (actionClass x.2.action = actionClass y.2.action) && decide (x.1 < y.1))))

/-- An entry put into a list that is in firing order. -/
def insertFiring (x : Nat × CalEntry) : List (Nat × CalEntry) → List (Nat × CalEntry)
  | [] => [x]
  | y :: l => if firesBefore x y then x :: y :: l else y :: insertFiring x l

/-- When an entry that a forward step passed over, or one that is reached, is due: its own instant or the step's. -/
def CalEntry.due (e : CalEntry) (now : Nat) : Bool := e.skipAt.isSome || decide (e.atNs ≤ now)

/-- The entries due now in the order they fire (R27, R43). -/
def State.dueEntries (s : State) : List (Nat × CalEntry) :=
  (s.ts.calendar.filter (fun e => e.2.due s.nowNs)).foldl (fun l e => insertFiring e l) []

/-- The due entry of some kind that fires first: least scheduled instant, then least index (R27, R43). -/
def dueEntry (l : Cells CalEntry) (now : Nat) (p : CalEntry → Bool) : Option (Nat × CalEntry) :=
  l.foldl (fun best e => if p e.2 && e.2.due now then
    (match best with
     | none => some e
     | some b => if e.2.atNs < b.2.atNs then some e else some b) else best) none

/-- The instant a fired entry is re-armed to (R28, R43). -/
def CalEntry.next (e : CalEntry) : Nat :=
  match e.skipAt with
  | none => e.atNs + e.period
  | some t => if t < e.atNs + e.period then e.atNs + e.period else e.atNs + e.period * ((t - e.atNs) / e.period + 1)

/-- Re-arming or freeing after a firing (R28). -/
def State.rearm (s : State) (i : Nat) (e : CalEntry) : State :=
  if e.count = 1 ∨ e.period = 0 then s.calFree i
  else s.calPut i { e with atNs := e.next, count := e.count - 1, skipAt := none }

/-- An entry fires LATE where it executes more than 1 microsecond after its firing instant (R29). -/
def State.isLate (s : State) (e : CalEntry) : Bool := decide (((e.skipAt.getD e.atNs) + 1000) * 2 ^ 48 < s.ts.acc)

/-- A firing of an entry: CAL_SKIPPED and CAL_LATE (R29, R43), then it is re-armed or freed (R28). -/
def State.fireEntry (s : State) (i : Nat) (e : CalEntry) : State :=
  let late := s.isLate e
  let skipped := e.skipAt.isSome
  let t := if skipped then (s.inc A.tscCalSkipped).raise A.tscEvent 7 else s
  let t := if late then (t.inc A.tscCalLate).raise A.tscEvent 8 else t
  t.rearm i { e with late := late, skipped := skipped }

/-- The due entry of an action and target fires; `f` is the action. Nothing happens while none is due. -/
def State.fireDue (s : State) (p : CalEntry → Bool) (f : CalEntry → State → State) : State :=
  match dueEntry s.ts.calendar s.nowNs p with
  | none => s
  | some (i, e) => f e (s.fireEntry i e)

/-- The next multiple of `p` strictly after `t`. -/
def nextMultiple (t p : Nat) : Nat := if p = 0 then t else (t / p + 1) * p

/-- The first whole second at least `ahead` ns after now (R36, R38). -/
def State.secondAfter (s : State) (ahead : Nat) : Nat :=
  ceilDiv (s.nowNs + ahead + (if s.ts.acc % 2 ^ 48 = 0 then 0 else 1)) 1000000000 * 1000000000

/-- State of the timescale (R55): 0 FREE_RUN, 1 ACQUIRING, 2 LOCKED, 3 HOLDOVER, 4 LOST. -/
def State.tscMode (s : State) : Nat := s.f A.tscState 0 3

/-- A meaning that always completes: time passes, then the effect. -/
def after (dt : Nat) (s : State) (f : State → State) : Host.Outcome State Fault Refusal := .next (f (s.advance dt))

/-- A meaning of a command whose operands name units (an index, a source): one that does not exist stops the machine by name. -/
def afterIf (c : Bool) (dt : Nat) (s : State) (f : State → State) : Host.Outcome State Fault Refusal :=
  if c then .next (f (s.advance dt)) else .fault .noSuchUnit

end Sys2Proof.Machine
end

