-- ==== Sys2Proof/Machine/Frames.lean ====
section
/-!
DEFINITION. Ethernet, VLAN, IP and UDP as the module reads and composes them: checksums (R195, R196), the parts of a received
frame that the headrace looks at (R219), and frames composed from an addressing and a payload (R225, R255).
-/

namespace Sys2Proof.Machine

/-- The one's complement sum of 16-bit words in network order. -/
def sum16 (d : Bytes) : Nat :=
  let t := (List.range ((d.length + 1) / 2)).foldl (fun n i => n + beAt d (2 * i) 2) 0
  let u := t % 65536 + t / 65536
  let v := u % 65536 + u / 65536
  v % 65536 + v / 65536

/-- The Internet checksum of a byte string. -/
def inetSum (d : Bytes) : Nat := 65535 - sum16 d % 65536

/-- The VLAN tags at the front of what follows the source address: TPID and TCI of each, and the rest. -/
def vlanTags : Nat → Bytes → List (Nat × Nat) × Bytes
  | 0, d => ([], d)
  | n + 1, d =>
    if (beAt d 0 2 = 0x8100 ∨ beAt d 0 2 = 0x88A8) ∧ 4 ≤ d.length then
      let r := vlanTags n (d.drop 4)
      ((beAt d 0 2, beAt d 2 2) :: r.1, r.2)
    else ([], d)

/-- The parts of a received frame. -/
structure Packet where
  dst : Bytes
  src : Bytes
  tags : List (Nat × Nat)
  etype : Nat
  /-- What follows the EtherType. -/
  body : Bytes
  deriving DecidableEq, Repr

/-- Reading a frame's headers. -/
def packetOf (d : Bytes) : Packet :=
  let r := vlanTags 4 (d.drop 12)
  ⟨slice d 0 6, slice d 6 6, r.1, beAt r.2 0 2, r.2.drop 2⟩

/-- IPv4 with a header that can be read. -/
def Packet.v4 (p : Packet) : Bool := decide (p.etype = 0x0800) && decide (20 ≤ p.body.length) && decide (beAt p.body 0 1 / 16 = 4)

/-- IPv6 with a header that can be read. -/
def Packet.v6 (p : Packet) : Bool := decide (p.etype = 0x86DD) && decide (40 ≤ p.body.length) && decide (beAt p.body 0 1 / 16 = 6)

/-- The bytes of the IPv4 header. -/
def Packet.ihl (p : Packet) : Nat := 4 * (beAt p.body 0 1 % 16)

/-- An IPv4 fragment. -/
def Packet.fragment (p : Packet) : Bool := p.v4 && decide (beAt p.body 6 2 % 16384 ≠ 0)

/-- IPv4 options are present. -/
def Packet.options (p : Packet) : Bool := p.v4 && decide (20 < p.ihl)

/-- An IPv6 next header that is an extension header. -/
def isExtension (n : Nat) : Bool := [0, 43, 44, 50, 51, 60, 135, 139, 140].contains n

/-- An IPv6 extension header is present. -/
def Packet.extension (p : Packet) : Bool := p.v6 && isExtension (beAt p.body 6 1)

/-- The protocol above IP; 255 outside IP. -/
def Packet.proto (p : Packet) : Nat := if p.v4 then beAt p.body 9 1 else if p.v6 then beAt p.body 6 1 else 255

/-- IPv4-mapped form of an IPv4 address (R218). -/
def mapped (a : Bytes) : Bytes := zeros 10 ++ [0xFF, 0xFF] ++ a

/-- The source address in 16 bytes. -/
def Packet.sip (p : Packet) : Bytes := if p.v4 then mapped (slice p.body 12 4) else slice p.body 8 16

/-- The destination address in 16 bytes. -/
def Packet.dip (p : Packet) : Bytes := if p.v4 then mapped (slice p.body 16 4) else slice p.body 24 16

/-- The IP payload, bounded by the length field. -/
def Packet.l4 (p : Packet) : Bytes :=
  if p.v4 then (p.body.take (beAt p.body 2 2)).drop p.ihl else (p.body.drop 40).take (beAt p.body 4 2)

/-- The protocol and the bytes behind a chain of IPv6 extension headers (R195); a fragment stays what it is, 44. -/
def upperOf : Nat → Nat → Bytes → Nat × Bytes
  | 0, n, d => (n, d)
  | fuel + 1, n, d =>
    if n = 51 then upperOf fuel (beAt d 0 1) (d.drop (4 * (beAt d 1 1 + 2)))
    else if n = 44 then (if beAt d 2 2 / 8 = 0 ∧ beAt d 2 2 % 2 = 0 then upperOf fuel (beAt d 0 1) (d.drop 8) else (44, d))
    else if n ≠ 50 ∧ isExtension n = true then upperOf fuel (beAt d 0 1) (d.drop (8 * (beAt d 1 1 + 1)))
    else (n, d)

/-- The protocol above IP and every extension header, and its bytes. -/
def Packet.upper (p : Packet) : Nat × Bytes := if p.v6 then upperOf 16 p.proto p.l4 else (p.proto, p.l4)

/-- The pseudo-header of UDP over IPv4 or IPv6. -/
def pseudo (v : Nat) (sip dip : Bytes) (proto len : Nat) : Bytes :=
  if v = 4 then slice sip 12 4 ++ slice dip 12 4 ++ [0, byte proto] ++ be 2 len
  else sip ++ dip ++ be 4 len ++ [0, 0, 0, byte proto]

/-- The UDP payload. -/
def Packet.udp (p : Packet) : Bytes := (p.l4.take (beAt p.l4 4 2)).drop 8

/-- The IPv4 header checksum is right, or the frame is not IPv4 (R195). -/
def Packet.ipSumOk (p : Packet) : Bool :=
  if p.etype = 0x0800 then p.v4 && decide (20 ≤ p.ihl) && decide (p.ihl ≤ p.body.length) && decide (sum16 (p.body.take p.ihl) = 65535)
  else true

/-- The UDP checksum is right, or the frame is no whole UDP datagram (R195): zero passes in IPv4 and fails in IPv6. -/
def Packet.udpSumOk (p : Packet) : Bool :=
  let u := p.upper
  if u.1 = 17 ∧ p.fragment = false ∧ 8 ≤ u.2.length then
    let d := u.2.take (beAt u.2 4 2)
    if beAt d 6 2 = 0 then p.v4
    else decide (sum16 (pseudo (if p.v4 then 4 else 6) p.sip p.dip 17 d.length ++ d) = 65535)
  else true

/-! ### Composing -/

/-- The tags and EtherType of a composed frame. -/
def tagBytes (l : List (Nat × Nat)) (etype : Nat) : Bytes := l.flatMap (fun t => be 2 t.1 ++ be 2 t.2) ++ be 2 etype

/-- A UDP datagram with its checksum, 0x0000 sent as 0xFFFF (R196). -/
def udpBytes (a : Addressing) (payload : Bytes) : Bytes :=
  let len := 8 + payload.length
  let head : Nat → Bytes := fun c => be 2 a.sport ++ be 2 a.dport ++ be 2 len ++ be 2 c
  let c := inetSum (pseudo a.v a.sip a.dip 17 len ++ head 0 ++ payload)
  head (if c = 0 then 65535 else c) ++ payload

/-- An IPv4 header: DF set, identification 0 (R225), with its checksum. -/
def ipv4Header (sip dip : Bytes) (tos ttl proto len : Nat) : Bytes :=
  let h : Nat → Bytes := fun c => [0x45, byte tos] ++ be 2 (20 + len) ++ [0, 0, 0x40, 0, byte ttl, byte proto] ++ be 2 c ++
    slice sip 12 4 ++ slice dip 12 4
  h (inetSum (h 0))

/-- An IPv6 header. -/
def ipv6Header (sip dip : Bytes) (tos ttl proto len : Nat) : Bytes :=
  be 4 (6 * 2 ^ 28 + tos * 2 ^ 20) ++ be 2 len ++ [byte proto, byte ttl] ++ sip ++ dip

/-- A frame without FCS. -/
def frameOf (a : Addressing) (payload : Bytes) : Bytes :=
  let l2 := a.dst ++ a.src
  if a.v = 0 then l2 ++ tagBytes a.tags a.etype ++ payload
  else if a.v = 4 then
    l2 ++ tagBytes a.tags 0x0800 ++ ipv4Header a.sip a.dip a.tos a.ttl 17 (8 + payload.length) ++ udpBytes a payload
  else l2 ++ tagBytes a.tags 0x86DD ++ ipv6Header a.sip a.dip a.tos a.ttl 17 (8 + payload.length) ++ udpBytes a payload

/-- The checksums of a frame that is already composed: the IPv4 header's and the UDP datagram's (R196). -/
def fillSums (d : Bytes) : Bytes :=
  let p := packetOf d
  let off := d.length - p.body.length
  let d := if p.v4 then
      let h := patch (p.body.take p.ihl) 10 [0, 0]
      patch d (off + 10) (be 2 (inetSum h))
    else d
  let w := p.upper
  if w.1 = 17 ∧ p.fragment = false ∧ 8 ≤ w.2.length then
    let g := w.2.take (beAt w.2 4 2)
    let c := inetSum (pseudo (if p.v4 then 4 else 6) p.sip p.dip 17 g.length ++ patch g 6 [0, 0])
    patch d (off + (if p.v4 then p.ihl else 40) + (p.l4.length - w.2.length) + 6) (be 2 (if c = 0 then 65535 else c))
  else d

/-- A frame with its FCS, least significant byte first (R196; the polynomial is PRESUMED from IEEE 802.3). -/
def withFcs (d : Bytes) : Bytes := d ++ le 4 (crc32 d)

/-- A frame shorter than 60 bytes is padded with zero bytes (R197). -/
def padFrame (d : Bytes) : Bytes := d ++ zeros (60 - d.length)

/-- DSCP of a received IP frame, ECN 0. -/
def Packet.tos (p : Packet) : Nat :=
  if p.v4 then beAt p.body 1 1 / 4 * 4 else (beAt p.body 0 2 / 16 % 256) / 4 * 4

/-- The addressing of a response: its request's reversed (R225). -/
def replyTo (p : Packet) (station : Bytes) (sport : Nat) : Addressing where
  dst := p.src
  src := station
  tags := p.tags
  v := if p.v4 then 4 else if p.v6 then 6 else 0
  etype := p.etype
  sip := p.dip
  dip := p.sip
  sport := sport
  dport := beAt p.l4 0 2
  tos := p.tos
  ttl := 64

end Sys2Proof.Machine
end

