-- ==== Sys2Proof/Machine/Registers.lean ====
section
/-!
DEFINITION. What registers do whoever accesses them (R352 to R370): the SQ acknowledgement, masked writes, staging writes,
LK latches, guarded pairs, clearing reads and the faults of an access. The registers whose write or read acts on a unit
are completed in Access.lean, once every unit's operations stand.
-/

namespace Sys2Proof.Machine

/-! ### Sources -/

/-- The index of a source's view: the host 0, sessions 1 to 4, everything else 5. -/
def Source.index : Source → Nat
  | .host => 0
  | .session i => if 1 ≤ i ∧ i ≤ 4 then i else 5
  | _ => 5

/-- A source's view at its start: no open pair, VIEW clear, every stolen bit set (R500). -/
def SourceView.fresh : SourceView := ⟨none, false, 0x1FFFFF⟩

/-- A source's view. -/
def State.view (s : State) (src : Source) : SourceView := s.sources.getD src.index SourceView.fresh

/-- Changing a source's view. -/
def State.setView (s : State) (src : Source) (f : SourceView → SourceView) : State :=
  { s with sources := modAt s.sources src.index f }

/-! ### Groups -/

/-- The default of a group. -/
def GroupState.idle : GroupState := ⟨none, [], [], false⟩

/-- A group. -/
def State.group (s : State) (g : Nat) : GroupState := s.groups.getD g GroupState.idle

/-- Changing a group. -/
def State.setGroup (s : State) (g : Nat) (f : GroupState → GroupState) : State := { s with groups := modAt s.groups g f }

/-- The sluice group of a staged word (R370, R400). -/
def groupOf (a : Nat) : Option Nat :=
  match rowOf a with
  | some r => if r.kind = .st then (if r.group = 100 then some (r.page a) else some r.group) else none
  | none => none

/-- Every word of a row. -/
def RegRow.words (r : RegRow) : List Nat :=
  (List.range r.n1).flatMap (fun i => (List.range r.n2).map (fun j => r.base + i * r.s1 + j * r.s2))

/-- Every register row of the module. -/
def allRows : List RegRow :=
  rowsGlb ++ rowsSlu ++ rowsHif ++ rowsPwr ++ rowsBoot ++ rowsTal ++ rowsTsc ++ rowsRef ++ rowsHol ++ rowsGns ++ rowsTtu ++
  rowsMac ++ rowsMac1 ++ rowsCmac ++ rowsHrc ++ rowsSvp ++ rowsNts ++ rowsPtp ++ rowsRcp ++ rowsPke ++ rowsCas

/-- The AT words of group `g` (R370). -/
def atWords (g : Nat) : List Nat := [A.sluGroupAtSecLo g, A.sluGroupAtSecHi g, A.sluGroupAtNs g]

/-- The rows of a group's own block words. -/
def groupRows (g : Nat) : List RegRow := allRows.filter (fun r => decide (r.kind = .st) && decide (r.group = g))

/-- Every word of a group, its AT words included. -/
def groupWords (g : Nat) : List Nat := atWords g ++ (groupRows g).flatMap RegRow.words

/-- STAGE_SEQ of a group advances (R369). -/
def State.stageMoved (s : State) (g : Nat) : State :=
  s.sfW (A.sluGroupStatus g) 24 8 (s.f (A.sluGroupStatus g) 24 8 + 1)

/-! ### Faults of an access (R356, R358, R359) -/

/-- An ACCESS_FAULT (R356, R399). -/
def State.accessFault (s : State) (src : Source) (a value be : Nat) (write : Bool) : State :=
  s.logFault 1 src (blockOf a) a value (accessByte be write) 0

/-- An access to a register whose domain is off logs DOMAIN_OFF (R359). -/
def State.domainFault (s : State) (src : Source) (a value : Nat) (write : Bool) : State :=
  s.logFault 6 src (blockOf a) a value (accessByte 15 write) (domainOf a)

/-- A write that sets an RV bit to a value other than its reset value (R358): TEST_CONTROL is logged and the write is
journalled; `old` is the value the word held. -/
def State.testControl (s : State) (src : Source) (a : Nat) (old v : Word) : State :=
  match rowOf a with
  | none => s
  | some r =>
    let m := BitVec.ofNat 32 r.rv
    if v &&& m = resetOf a &&& m then s
    else (s.logFault 7 src (blockOf a) a v.toNat (accessByte 15 true) 0).journalize 0x0C src a 0
      (le 4 v.toNat ++ le 4 ((v ^^^ old) &&& m).toNat)

/-! ### Writes by register type -/

/-- The write to an SQ register (R363): the named bits clear when SEQ matches, otherwise STALE_ACK counts once. -/
def State.sqWrite (s : State) (a : Nat) (v : Word) : State :=
  let bits := fld v 0 16
  if bits = 0 then s
  else if fld v 24 8 = s.f a 24 8 then s.wr a (s.rd a &&& ~~~(word bits))
  else s.inc (staleAckOf a)

/-- The value a CM write leaves (R362): bit i of [15:0] changes only where mask bit 16 + i is set. -/
def cmValue (old v : Word) : Word :=
  let m := v >>> 16
  (old &&& ~~~m &&& 0xFFFF) ||| (v &&& m)

/-- A staging write (R369): the word's staging copy, STAGE_SEQ; a fresh write of a faulty staging word mends it (R378). -/
def State.stageWrite (s : State) (src : Source) (g a : Nat) (v : Word) : State :=
  let t := { s with stage := CellList.set resetOf s.stage a v }
  let t := t.setGroup g (fun x => { x with stageParity := x.stageParity.filter (fun b => decide (b ≠ a)) })
  (t.stageMoved g).testControl src a (s.rdStage a) v

/-- The write to an LK word (R367): the first after a start at step 1 latches, a later one is a LOCK_VIOLATION. The latch
and every violation are journalled. -/
def State.lkWrite (s : State) (src : Source) (a : Nat) (v : Word) (onLatch : State → State) : State :=
  if s.latched.contains a then
    (s.logFault 2 src (blockOf a) a v.toNat (accessByte 15 true) 0).journalize 3 src a 1 (le 4 v.toNat ++ le 1 1)
  else
    onLatch (({ s with latched := a :: s.latched }.wr a v).journalize 3 src a 0 (le 4 v.toNat ++ le 1 0))

/-! ### Guarded pairs (R365, R366) -/

/-- A GUARD_FAULT with its DETAIL of R399. -/
def State.guardFault (s : State) (src : Source) (x value detail : Nat) : State :=
  s.logFault 3 src (blockOf x) x value (accessByte 15 true) detail

/-- Discarding the open pair of a source. -/
def State.closePair (s : State) (src : Source) : State := s.setView src (fun w => { w with pair := none })

/-- The pair has timed out (R365): 1 microsecond, or 16 further writes of the source, have passed. -/
def OpenPair.expired (p : OpenPair) (meas : Nat) : Bool :=
  decide (1000 * 2 ^ 48 + p.openedAt < meas) || decide (16 < p.writes)

/-- Every register write of a source counts against its open pair (R365); one that passes the limit discards it. -/
def State.countWrite (s : State) (src : Source) : State :=
  match (s.view src).pair with
  | none => s
  | some p =>
    let q := { p with writes := p.writes + 1 }
    if q.expired s.ts.meas then (s.closePair src).guardFault src p.addr p.value.toNat 4
    else s.setView src (fun w => { w with pair := some q })

/-- The value of a guarded pair is written to X (R365); an older open pair is discarded (R366). -/
def State.gdValue (s : State) (src : Source) (x : Nat) (v : Word) : State :=
  let t := match (s.view src).pair with
    | some p => (s.closePair src).guardFault src p.addr p.value.toNat 1
    | none => s
  t.setView src (fun w => { w with pair := some ⟨x, v, t.ts.meas, 0⟩ })

/-- The complement is written to X + 4 (R365, R366): `ok` says whether the register accepts the value, `act` is its action.
The register keeps the value where `keep` says so. -/
def State.gdComplement (s : State) (src : Source) (x : Nat) (c : Word) (ok : Word → Bool)
    (act : Word → State → State) : State :=
  match (s.view src).pair with
  | none => s.guardFault src x c.toNat 2
  | some p =>
    let t := s.closePair src
    if p.addr ≠ x then t.guardFault src p.addr p.value.toNat 6
    else if c ≠ ~~~p.value then t.guardFault src x p.value.toNat 3
    else if !(ok p.value) then t.guardFault src x p.value.toNat 5
    else act p.value ((t.wr x p.value).journalize 2 src x 0 (le 4 p.value.toNat))

/-- A guarded pair as its two writes, one after the other (R353: one aligned 64-bit write). -/
def State.guarded (s : State) (src : Source) (x : Nat) (v c : Word) (ok : Word → Bool)
    (act : Word → State → State) : State :=
  let t := (s.countWrite src).gdValue src x v
  (t.countWrite src).gdComplement src x c ok act

/-! ### Reads -/

/-- Another source's full-width read of a CR counter of block b sets bit b in every other view (R500). -/
def State.stolen (s : State) (src : Source) (b : Nat) : State :=
  { s with sources := (List.range s.sources.length).map (fun i =>
      let w := s.sources.getD i SourceView.fresh
      if i = src.index then w else { w with stolen := w.stolen ||| (2 ^ b) }) }

/-- The clearing read of a counter or counter pair (R353, R354, R361): the count, and the state with it cleared. -/
def State.crRead (s : State) (src : Source) (a : Nat) : Nat × State :=
  match rowOf a with
  | some r =>
    if r.kind = .cr then
      let v := if r.pair then s.rd64 a else (s.rd a).toNat
      let t := if r.pair then (s.wr a 0).wr (a + 4) 0 else s.wr a 0
      (v, t.stolen src (blockOf a))
    else ((s.rd a).toNat, s)
  | none => (0, s)

/-- A word that some register table lists, the second word of a pair or of a guarded register included. -/
def listed (a : Nat) : Bool :=
  (rowOf a).isSome || (decide (4 ≤ a) && (rowOf (a - 4)).any (fun r => decide (r.kind = .gd) || r.pair))

/-- The RV bits of a word as they read back (R358). -/
def State.rvBits (s : State) (a : Nat) : Word :=
  match rowOf a with
  | some r => s.rd a &&& BitVec.ofNat 32 r.rv
  | none => 0

/-- The value a full-width 32-bit read returns, and the fault log and clearing it causes, for every register whose read
latches nothing (R353, R354, R357, R359, R362, R366, R368, R369). -/
def State.readWord (s : State) (src : Source) (a : Nat) : Word × State :=
  if listed a && !(s.domainOn (domainOf a)) then (0, s.domainFault src a 0 false)
  else if a = A.sluView then (word (b2n (s.view src).staged) ||| (s.rvBits a &&& 0xFFFF), s)
  else if a = A.talStolen0 then (word ((s.view src).stolen % 65536), s)
  else if a = A.talStolen1 then (word ((s.view src).stolen / 65536) ||| (s.rvBits a &&& 0xFFFF), s)
  else match rowOf a with
    | some r => match r.kind with
      | .st => (if (s.view src).staged then s.rdStage a else s.rd a, s)
      | .cr => if r.pair then (s.rd a, s) else
          let q := s.crRead src a
          (word q.1, q.2)
      | .cm => (s.rd a &&& 0xFFFF, s)
      | .wo => (0, s)
      | .ro => (s.rd a, if a = A.glbFaultSeq ∧ src = .host then { s with faultRead := s.f A.glbFaultSeq 0 32 } else s)
      | _ => (s.rd a, s)
    | none =>
      if (rowOf (a - 4)).any (fun r => decide (r.kind = .gd) || r.pair) ∧ 4 ≤ a then
        (if (rowOf (a - 4)).any (fun r => decide (r.kind = .gd)) then ~~~(s.rd (a - 4)) else s.rd a, s)
      else if 0x7800 ≤ a ∧ a < 0x7C00 then (s.msix.getD ((a - 0x7800) / 4) 0, s)
      else if a = 0x7C00 ∨ a = 0x7C04 then
        (word ((indices 32 (fun i => (s.hif.vecs.getD (8 * (a - 0x7C00) + i) ⟨0, 0, false⟩).waiting)).foldl
          (fun n i => n + 2 ^ i) 0), s)
      else (0, s)

end Sys2Proof.Machine
end

