-- ==== Sys2Proof/Machine/Rings.lean ====
section
/-!
DEFINITION. Rings between the units and the host (R330 to R339, R346): ring states, completions in descriptor order,
frames to RX_FRAME rings, and the quiescing of a ring.
-/

namespace Sys2Proof.Machine

/-- INFLIGHT of a ring: fetched descriptors not completed, saturating (R349). -/
def State.showRing (s : State) (n : Nat) : State :=
  s.sfW (A.hifRingState n) 16 16 (min 65535 ((s.ring n).waiting.length + (s.ring n).started.length))

/-- How many rings are RUNNING. -/
def State.runningRings (s : State) : Nat := (indices 256 (fun n => decide (s.ringState n = 1))).length

/-- A change of a ring's state and reason: STATUS.RUNNING, RING_ERROR and the RING_STATE record (R341, R346). -/
def State.setRingState (s : State) (n st reason : Nat) : State :=
  if s.ringState n = st then s else
  let t := ((s.sfW (A.hifRingState n) 0 2 st).sfW (A.hifRingState n) 8 8 reason)
  let t := t.sfW A.hifStatus 12 9 t.runningRings
  let t := t.when (decide (st = 3)) (fun u => u.raise A.hifEvent 3)
  t.postEvent 3 0 n t.stamp
    (le 1 st ++ le 1 reason ++ zeros 2 ++ le 4 (t.ring n).fetched ++ le 4 (t.ring n).posted ++ zeros 4)

/-- A ring error (R346): only a ring that is RUNNING or QUIESCING enters ERROR. -/
def State.ringError (s : State) (n reason : Nat) : State :=
  if s.ringState n = 1 ∨ s.ringState n = 2 then s.setRingState n 3 reason else s

/-- A ring's work goes on: no completion is written in ERROR or OFF (R346). -/
def State.ringLive (s : State) (n : Nat) : Bool := decide (s.ringState n = 1) || decide (s.ringState n = 2)

/-- QUIESCING ends when the last completion is posted (R346). -/
def State.ringIdle (s : State) (n : Nat) : State :=
  if s.ringState n = 2 ∧ (s.ring n).waiting = [] ∧ (s.ring n).started = [] then s.setRingState n 0 0 else s

/-- The completions that are ready at the head of a ring's started work, in descriptor order (R335). -/
def readyHead : List (Desc × Option (Nat × Nat)) → List (Desc × Nat × Nat)
  | (d, some r) :: t => (d, r.1, r.2) :: readyHead t
  | _ => []

/-- Posting every completion that no elder holds back (R335). -/
def State.drainRing (s : State) (n : Nat) : State :=
  if s.ringLive n then
    let ready := readyHead (s.ring n).started
    let t := s.setRing n (fun r => { r with started := r.started.drop ready.length })
    let t := t.each ready (fun x u => u.postCompletion n x.1.slot x.2.1 0 x.2.2 x.1.user)
    t.showRing n
  else s.showRing n

/-- Started work of a ring ends with a status and a length. -/
def State.endWork (s : State) (n slot status length : Nat) : State :=
  (s.setRing n (fun r => { r with started := r.started.map (fun x =>
    if x.1.slot = slot ∧ x.2 = none then (x.1, some (status, length)) else x) })).drainRing n

/-- Started work of a PKE_JOB ring ends: its completion is posted at once (R335). -/
def State.endJob (s : State) (n slot status length : Nat) : State :=
  match (s.ring n).started.find? (fun x => decide (x.1.slot = slot)) with
  | none => s
  | some x =>
    let t := s.setRing n (fun r => { r with started := r.started.filter (fun y => decide (y.1.slot ≠ slot)) })
    let t := if t.ringLive n then t.postCompletion n slot status 0 length x.1.user else t
    t.showRing n

/-- The first waiting descriptor of a ring starts. -/
def State.startWork (s : State) (n : Nat) : Option Desc × State :=
  match (s.ring n).waiting with
  | [] => (none, s)
  | d :: _ => (some d,
      (s.setRing n (fun r => { r with waiting := r.waiting.tail, started := r.started ++ [(d, none)] })).settleBad n)

/-! ### Frames to the host (R337) -/

/-- Filling buffers with the bytes of a frame: each buffer takes what it holds; the completions' flags. A bad descriptor
between them takes nothing. -/
def fillBuffers : List Desc → Bytes → Bool → List (Desc × Bytes × Nat)
  | [], _, _ => []
  | b :: t, d, first =>
    if b.bad then (b, [], 0) :: fillBuffers t d first
    else if d.length ≤ b.len then [(b, d, if first then 2 else 0)]
    else (b, d.take b.len, (if first then 2 else 0) + 4) :: fillBuffers t (d.drop b.len) false

/-- The free buffers of a ring hold so many bytes. -/
def bufferRoom (l : List Desc) : Nat := l.foldl (fun n b => if b.bad then n else n + b.len) 0

/-- One buffer of a frame: its bytes and its completion. -/
def State.giveBuffer (s : State) (n : Nat) (p : Desc × Bytes × Nat) : State :=
  if p.1.bad then s.postCompletion n p.1.slot 0xB 0 0 p.1.user
  else (s.hostWrite p.1.addr p.2.1).postCompletion n p.1.slot 0 p.2.2 p.2.1.length p.1.user

/-- A frame to an RX_FRAME ring with its receive header (R337); dropped whole and counted where the buffers do not reach or
the ring does not run (R339). -/
def State.deliverFrame (s : State) (n cls sl tRxStamp : Nat) (frame : Bytes) : State :=
  let d := taiLe tRxStamp ++ le 1 sl ++ le 1 cls ++ le 2 frame.length ++ frame
  if s.ringType n = 2 ∧ s.ringState n = 1 ∧ d.length ≤ bufferRoom (s.ring n).waiting then
    let parts := fillBuffers (s.ring n).waiting d true
    let t := s.setRing n (fun r => { r with waiting := r.waiting.drop parts.length })
    ((t.each parts (fun p u => u.giveBuffer n p)).settleBad n).showRing n
  else s.ringDrop n

/-! ### Quiescing and ending (R346) -/

/-- Fetching stops: unused buffers complete with LENGTH 0, a buffer with records completes with them, and descriptors not
started complete with ABORTED. -/
def State.quiesce (s : State) (n : Nat) : State :=
  let t := s.setRingState n 2 0
  let t := if (t.ring n).fill = 0 then t else t.flushBuffer n
  let rest := (t.ring n).waiting
  let t := t.setRing n (fun r => { r with
    waiting := [], fill := 0, started := r.started ++ rest.map (fun d => (d, some (if d.bad then 0xB else 1, 0))) })
  t.drainRing n

/-- The ring is emptied without completions and is OFF (R346, R347). -/
def State.ringOff (s : State) (n : Nat) : State :=
  let t := s.setRingState n 0 0
  (t.setRing n (fun r => { r with waiting := [], started := [], fill := 0 })).showRing n

/-- A ring enabled from OFF: both counts 0 (R331, R346). -/
def State.ringStart (s : State) (n : Nat) : State :=
  let t := s.setRing n (fun _ => Ring.off)
  let t := (t.wr (A.hifRingFetched n) 0).wr (A.hifRingPosted n) 0
  (t.setRingState n 1 0).pumpJournal

end Sys2Proof.Machine
end

