-- ==== Sys2Proof/Machine/Sampling.lean ====
section
/-!
DEFINITION. Request sampling (R501 to R504): which requests are candidates, and what their records hold.
-/

namespace Sys2Proof.Machine

/-- Changing the tally engine. -/
def State.setTal (s : State) (f : Tal → Tal) : State := { s with tal := f s.tal }

/-- The parity of a TAL_SAMPLE word holds sampling off (R505). -/
def State.samplesFaulty (s : State) : Bool := decide ((s.groups.getD 30 ⟨none, [], [], false⟩).parity ≠ [])

/-- The limit of the present application is reached (R502). -/
def State.sampleLimited (s : State) : Bool :=
  decide (s.f A.talSampleLimit 0 16 ≠ 0) && decide (s.f A.talSampleLimit 0 16 ≤ s.tal.written)

/-- Sampling is active. -/
def State.sampling (s : State) : Bool := s.bit A.talSampleCfg 0 && !s.samplesFaulty && !s.sampleLimited

/-- STATUS.SAMPLING. -/
def State.showSampling (s : State) : State := s.setBit A.talStatus 1 s.sampling

/-- The 128 bits of SAMPLE_CLIENT, most significant word first. -/
def State.sampleClient (s : State) : Nat :=
  ((s.rd (A.talSampleClient 0)).toNat * 2 ^ 96 + (s.rd (A.talSampleClient 1)).toNat * 2 ^ 64 +
    (s.rd (A.talSampleClient 2)).toNat * 2 ^ 32 + (s.rd (A.talSampleClient 3)).toNat)

/-- KIND of a request (R503). -/
def ReqKind.sampleKind : ReqKind → Nat
  | .ntp => 1 | .nts => 2 | .roughtime => 3 | .etxel => 4

/-- The filters of R501 before the rate. -/
def State.sampleFilter (s : State) (kind : Nat) (fr : RxFrame) (k : Nat) : Bool :=
  let low := 2 ^ (128 - s.f A.talSamplePlen 0 8)
  s.bit A.talSampleCfg (16 + fr.sl) && s.bit A.talSampleCfg kind &&
  (if k < 32 then s.bit A.talSampleAddrLo k else s.bit A.talSampleAddrHi (k - 32)) &&
  decide (ofBe (packetOf fr.data).sip / low = s.sampleClient / low)

/-- An eligible request is classified: its tag where it is the N-th that passes the filters (R501). -/
def State.sampleStart (s : State) (kind : ReqKind) (fr : RxFrame) (k : Nat) : Option SampleTag × State :=
  if s.sampling ∧ s.sampleFilter kind.sampleKind fr k then
    if s.tal.rateCount + 1 < s.f A.talSampleRate 0 24 then
      (none, s.setTal (fun t => { t with rateCount := t.rateCount + 1 }))
    else
      (some ⟨kind.sampleKind, s.tscMode, false, 0x01, 0, 0, 0⟩,
        (s.setTal (fun t => { t with rateCount := 0 })).inc A.talSampleCand)
  else (none, s)

/-- A request's tag with the outcome that its response will stand for. -/
def Request.outcome (r : Request) (outcome detail : Nat) : Request :=
  { r with sample := r.sample.map (fun t => { t with outcome := outcome, detail := detail }) }

/-- The class of an outcome: 0 ANSWERED, 1 KOD, 2 REFUSED, 3 DROPPED. -/
def outcomeClass (o : Nat) : Nat := if o = 1 then 0 else if o = 2 ∨ o = 3 then 1 else if o = 4 then 2 else 3

/-- The instant t_rx of a request in ps, as a step has moved it when its response says so (R229). -/
def State.sampleRx (s : State) (r : Request) : Nat :=
  if r.adjusted then ((r.frame.tRx : Int) + 1000 * (s.ports.steps - r.steps)).toNat else r.frame.tRx

/-- A sample record (R503): `tx` is the departure in ps, the held time in ps and whether the response was re-slotted. -/
def State.sampleRecord (s : State) (r : Request) (t : SampleTag) (tx : Option (Nat × Nat × Bool)) : Bytes :=
  let rx := s.sampleRx r
  let stampPs : Nat → Nat := fun ps => ps * 65536 / 1000
  let d := r.frame.data
  let cap := min d.length 432
  let times := match tx with
    | some (at_, held, _) => taiLe (stampPs at_) ++ le 8 (unsigned ((at_ : Int) - rx) 64) ++ le 4 (min held 0xFFFFFFFF)
    | none => zeros 12 ++ List.replicate 8 0xFF ++ zeros 4
  let again := match tx with
    | some (_, _, b) => b
    | none => false
  let flags := b2n t.untracked + 2 * b2n again + 4 * b2n r.adjusted + 8 * b2n (decide (432 < d.length)) + 16 * t.state
  le 2 (80 + cap) ++ [7, byte t.kind] ++ le 4 s.tal.seq ++ taiLe (stampPs rx) ++ times ++ le 4 t.latency ++
  [byte r.frame.sl, byte r.entry, byte (if t.outcome = 5 then 0xFF else r.pipe), byte t.outcome, byte t.detail, byte flags] ++
  le 2 d.length ++ le 2 cap ++ le 2 (beAt (packetOf d).l4 0 2) ++ le 4 t.radius ++ (packetOf d).sip ++ slice d 0 432

/-- The outcome of a candidate is final (R501, R502): filtered, missed, or written to the store. -/
def State.sampleFinal (s : State) (r : Request) (tx : Option (Nat × Nat × Bool)) (cls : Nat) : State :=
  match r.sample with
  | none => s
  | some t =>
    if s.sampling = false then s
    else if s.bit A.talSampleCfg (5 + cls) = false then s.inc A.talSampleFiltered
    else
      let sec := s.measNs / 1000000000
      let n := if s.tal.second = sec then s.tal.inSecond else 0
      if 2000000 ≤ n then (s.inc A.talSampleMissed).raise A.talEvent 3
      else
        let d := s.sampleRecord r t tx
        let u := s.setTal (fun x => { x with
          second := sec, inSecond := n + 1, written := x.written + 1, seq := (x.seq + 1) % 2 ^ 32
          store := CellList.set (fun _ => zeros 512) x.store (x.seq % 4096) d })
        let u := u.wr A.talSampleSeq (word u.tal.seq)
        (u.when u.sampleLimited (fun v => v.raise A.talEvent 2)).showSampling

/-- A request or response is dropped with an outcome of R503. -/
def State.sampleDrop (s : State) (r : Request) (outcome detail : Nat) : State :=
  s.sampleFinal (r.outcome outcome detail) none (outcomeClass outcome)

/-- The same for a response that may belong to no request. -/
def State.sampleLost (s : State) (r : Option Request) (detail : Nat) : State :=
  match r with
  | some q => s.sampleDrop q 9 detail
  | none => s

/-- A drop that R503 does not list (R292): its codes are free values, its class DROPPED. -/
def State.sampleUnlisted (s : State) (r : Request) (status : Nat) : State :=
  let o := Config.unlistedOutcome status
  s.sampleFinal (r.outcome o.1 o.2) none 3

/-- A response departs: its tag says what it stands for. -/
def State.sampleSent (s : State) (r : Option Request) (tTx held : Nat) (again : Bool) : State :=
  match r with
  | some q => s.sampleFinal q (some (tTx, held, again)) (outcomeClass ((q.sample.map (fun t => t.outcome)).getD 1))
  | none => s

end Sys2Proof.Machine
end

