-- ==== Sys2Proof/Machine/Timescale.lean ====
section
/-!
DEFINITION. The timescale: snapshot (R23), host calendar (R31, R32, R59), UTC and the leap table (R46 to R50), slew and
step (R34 to R45), and the changes of its state (R55).
-/

namespace Sys2Proof.Machine

/-! ### Consistency checks -/

/-- A field lies within its range. -/
def FieldRange.ok (r : FieldRange) (w : Word) : Bool :=
  let v : Int := if r.signed then sfld w r.lo r.width else (fld w r.lo r.width : Int)
  decide (r.min ≤ v) && decide (v ≤ r.max)

/-- Every field of a group that has a range lies within it; `w` gives the words to be applied. -/
def rangesOk (g : Nat) (w : Nat → Word) : Bool :=
  (groupRows g).all (fun r => r.words.all (fun a => r.ranges.all (fun x => x.ok (w a))))

/-- The first reason whose condition holds. -/
def firstReason : List (Bool × Nat) → Option Nat
  | [] => none
  | (c, r) :: t => if c then some r else firstReason t

/-- The reasons of TSC_CTL (R58). -/
def checkTscCtl (s : State) (w : Nat → Word) : Option Nat :=
  firstReason [(!rangesOk 0 w, 0x48), (decide (fld (w A.tscUnlockPhase) 0 17 ≤ fld (w A.tscLockPhase) 0 14), 0x49),
    (decide (fld (w A.tscCalHostMax) 0 11 < s.f A.tscCalUsed 16 11), 0x06)]

/-! ### Reading the time (R23) -/

/-- Latching the snapshot. SNAP_SLEW holds whole ns of a slew that is kept in 2^-16 ns: the fraction is cut toward minus infinity,
which R57 does not say (notes/assumptions/120). -/
def State.snapshot (s : State) : State :=
  let v := tai96 s.stamp
  (((((((s.wr A.tscNowSecLo (word (v >>> 48))).wr A.tscNowSecHi (word (v >>> 80))).wr A.tscNowNs
    (word (v >>> 16))).wr A.tscNowFrac (word (v % 65536))).wr A.tscSnapState (s.rd A.tscState)).wr A.tscSnapRadius
    (word s.ts.rho)).wr A.tscSnapPhase (sat32 s.ts.phiE)).wr A.tscSnapSlew (sat32 (s.ts.slewRem / 65536))

/-! ### The host's calendar entries (R31, R59) -/

/-- Word `k` of a calendar entry, as CAL_READ shows it. A period is shown in whole seconds and ns below 10^9, also where the host
wrote a PERIOD_NS of 10^9 or more, for which the manual has no rule (notes/assumptions/121). -/
def CalEntry.word (e : CalEntry) (k : Nat) : Word :=
  let sec := e.atNs / 1000000000
  match k with
  | 0 => Sys2Proof.word sec
  | 1 => Sys2Proof.word (sec / 2 ^ 32 % 65536 + e.action * 2 ^ 16 + 2 ^ 24 + b2n e.host * 2 ^ 25 + b2n e.skipped * 2 ^ 26 +
      b2n e.late * 2 ^ 27)
  | 2 => Sys2Proof.word (e.atNs % 1000000000)
  | 3 => Sys2Proof.word (e.ps % 1024 + e.target % 4096 * 2 ^ 10)
  | 4 => Sys2Proof.word (e.period % 1000000000)
  | 5 => Sys2Proof.word (e.period / 1000000000)
  | 6 => Sys2Proof.word e.count
  | _ => Sys2Proof.word e.arg

/-- The entry that eight words describe. A PERIOD_NS of 10^9 or more is taken as it is: R31 has no reason against it
(notes/assumptions/121). -/
def calOfWords (w : Nat → Word) : CalEntry :=
  { atNs := ((w (A.tscCalW 0)).toNat + 2 ^ 32 * fld (w (A.tscCalW 1)) 0 16) * 1000000000 + fld (w (A.tscCalW 2)) 0 30
    ps := fld (w (A.tscCalW 3)) 0 10
    action := fld (w (A.tscCalW 1)) 16 8
    target := fld (w (A.tscCalW 3)) 10 12
    period := (w (A.tscCalW 5)).toNat * 1000000000 + fld (w (A.tscCalW 4)) 0 30
    count := (w (A.tscCalW 6)).toNat
    arg := (w (A.tscCalW 7)).toNat
    host := true
    skipAt := none
    skipped := false
    late := false }

/-- A calendar entry by its index. -/
def State.calAt (s : State) (i : Nat) : Option CalEntry := (s.ts.calendar.find? (fun e => decide (e.1 = i))).map Prod.snd

/-- The reserved bits of the words of a host entry are 0. -/
def calReservedOk (w : Nat → Word) : Bool :=
  decide (fld (w (A.tscCalW 1)) 28 4 = 0) && decide (fld (w (A.tscCalW 2)) 30 2 = 0) &&
  decide (fld (w (A.tscCalW 3)) 22 10 = 0) && decide (fld (w (A.tscCalW 4)) 30 2 = 0)

/-- The check of TSC_CAL at application, in the order of its table (R31). -/
def checkTscCal (s : State) (w : Nat → Word) : Option Nat :=
  let op := fld (w A.tscCalCmd) 0 2
  let host := match s.calAt (fld (w A.tscCalCmd) 16 12) with
    | some e => e.host
    | none => false
  let e := calOfWords w
  let writes := decide (op = 1) || decide (op = 3)
  firstReason [((decide (op = 2) || decide (op = 3)) && !host, 0x43),
    (writes && !(decide (e.action = 1) && calReservedOk w), 0x42),
    (writes && ((decide (0 < e.period) && decide (e.period < 1000000)) || decide (1000000000 ≤ fld (w (A.tscCalW 2)) 0 30)),
      0x44),
    (writes && decide (e.atNs * 2 ^ 48 < 2000 * 2 ^ 48 + s.ts.acc), 0x40),
    (decide (op = 1) && decide (s.f A.tscCalHostMax 0 11 ≤ s.f A.tscCalUsed 16 11), 0x06)]

/-- CAL_RESULT (R31): index, reason and a sequence number that advances with each application. -/
def State.calResult (s : State) (i reason : Nat) : State :=
  s.wr A.tscCalResult (word (i % 4096 + reason % 256 * 2 ^ 16 + (s.f A.tscCalResult 24 8 + 1) % 256 * 2 ^ 24))

/-- The application of TSC_CAL: the operation of CAL_CMD on the calendar (R31, R59). -/
def State.applyTscCal (s : State) : State :=
  let op := s.f A.tscCalCmd 0 2
  let i := s.f A.tscCalCmd 16 12
  let e := calOfWords s.rd
  if op = 1 then
    let q := s.calNew e
    q.2.calResult q.1 0
  else if op = 2 then (s.calFree i).calResult i 0
  else if op = 3 then (s.calPut i e).calResult i 0
  else s.calResult 0 0

/-- A refused application of TSC_CAL reports its reason. Which INDEX it names R59 leaves open: here 0 for a CREATE, which affects no
entry, and CAL_CMD.INDEX for a CANCEL or MODIFY (notes/assumptions/17). -/
def State.refuseTscCal (s : State) (w : Nat → Word) (reason : Nat) : State :=
  s.calResult (if fld (w A.tscCalCmd) 0 2 = 1 then 0 else fld (w A.tscCalCmd) 16 12) reason

/-- The event ring record of a HOST_EVENT firing (R32, R341), which subscribed sessions receive too (R384). -/
def State.hostEventRecord (s : State) (i : Nat) (e : CalEntry) : State :=
  let flags := 2 * b2n e.skipAt.isSome + 4 * b2n (s.isLate e)
  let at_ := (e.skipAt.getD e.atNs) * 65536
  let body := taiLe (e.atNs * 65536) ++ le 4 e.arg
  (s.postEvent 1 flags i at_ body).each [1, 2, 3, 4] (fun n u => match u.subOf n with
    | some q => if q.hostEvents then u.sendEventMsg n q (eventBytes 1 flags i at_ body) else u
    | none => u)

/-- A due HOST_EVENT entry fires (R28, R32). -/
def State.fireHostEvent (s : State) : State :=
  match dueEntry s.ts.calendar s.nowNs (fun e => decide (e.action = 1)) with
  | none => s
  | some (i, e) => (s.hostEventRecord i e).fireEntry i e

/-! ### UTC (R46 to R50) -/

/-- A leap entry: the TAI second it takes effect at, the new offset, its source code. -/
structure LeapEntry where
  sec : Nat
  offset : Int
  source : Nat
  deriving DecidableEq, Repr

/-- The valid leap entries among `n` entries of four words each. -/
def leapEntries (w : Nat → Word) (base n : Nat) : List LeapEntry :=
  ((List.range n).filter (fun i => bitOf (w (base + 16 * i + 8)) 31)).map (fun i =>
    ⟨(w (base + 16 * i)).toNat + 2 ^ 32 * fld (w (base + 16 * i + 4)) 0 16, sfld (w (base + 16 * i + 8)) 0 16,
      fld (w (base + 16 * i + 8)) 16 2⟩)

/-- The valid entries of the host table. -/
def State.hostLeaps (s : State) : List LeapEntry := leapEntries s.rd (A.tscLeapTable 0) 32

/-- The learnt announcements that are held. -/
def State.learntLeaps (s : State) : List LeapEntry := leapEntries s.rd (A.tscLeapLearnt 0) 8

/-- The entry with the latest instant at or before a second. -/
def latestAt (l : List LeapEntry) (sec : Nat) : Option LeapEntry :=
  l.foldl (fun b e => if e.sec ≤ sec then (match b with
    | none => some e
    | some x => if x.sec ≤ e.sec then some e else some x) else b) none

/-- The offset that a host table gives at a second (R47). -/
def hostOffset (l : List LeapEntry) (sec : Nat) : Int :=
  match latestAt l sec with
  | some e => e.offset
  | none => match l with
    | [] => 0
    | e :: _ => e.offset

/-- The host table covers a second (R48). -/
def covered (l : List LeapEntry) (sec : Nat) : Bool := l.any (fun e => decide (sec ≤ e.sec))

/-- The offset at a second by a host table and learnt announcements beyond it. -/
def offsetBy (host learnt : List LeapEntry) (sec : Nat) : Int :=
  match latestAt (learnt.filter (fun e => !covered host e.sec)) sec with
  | some e => e.offset
  | none => hostOffset host sec

/-- The learnt announcements in use: none under HOST_ONLY (R48). -/
def State.usedLeaps (s : State) : List LeapEntry :=
  if s.bit A.tscStepCtl 2 then s.learntLeaps.filter (fun e => !covered s.hostLeaps e.sec) else []

/-- TAI - UTC in force at a TAI second (R46 to R48). -/
def State.utcOffset (s : State) (sec : Nat) : Int := offsetBy s.hostLeaps s.usedLeaps sec

/-- The leaps of the module: every entry in use whose offset differs from the one before it. -/
def State.leaps (s : State) : List (LeapEntry × Int) :=
  ((s.hostLeaps ++ s.usedLeaps).map (fun e => (e, e.offset - s.utcOffset (e.sec - 1)))).filter (fun e => decide (e.2 ≠ 0))

/-- The four markers of a leap (R50): start of the announcement, start of the smear, the leap, end of the smear. -/
def leapMarkers (sec : Nat) : List (Nat × Nat) :=
  [(sec - 86400, 0), (sec - 43200, 1), (sec, 2), (43200 + sec, 3)]

/-- LEAP_CUR follows the offset in force; LEAP_APPLIED when it changes (R46, R47). -/
def State.refreshLeap (s : State) : State :=
  let now := s.utcOffset (s.nowNs / 1000000000)
  if s.sf A.tscLeapCur 0 16 = now then s
  else (s.sfW A.tscLeapCur 0 16 (unsigned now 16)).raise A.tscEvent 5

/-- The LEAP entries of the calendar are those of the leaps now known (R33, R50). -/
def State.rebuildLeaps (s : State) : State :=
  let t := s.calDrop 0x16 0
  t.each ((t.leaps.flatMap (fun l => leapMarkers l.1.sec)).filter (fun m => decide (t.nowNs < m.1 * 1000000000)))
    (fun m u => (u.calNew (ownEntry 0x16 0 (m.1 * 1000000000) 0 1 m.2)).2)

/-- What follows a change of the leap tables or of their use. -/
def State.leapsChanged (s : State) : State := s.rebuildLeaps.refreshLeap

/-- The valid entries are in ascending order, one second apart, each at the start of a UTC day (R47). -/
def leapOrderOk : List LeapEntry → Bool
  | [] => true
  | [e] => decide (((e.sec : Int) - e.offset) % 86400 = 0)
  | e :: f :: t => decide (((e.sec : Int) - e.offset) % 86400 = 0) && decide (e.sec < f.sec) &&
      decide (f.offset - e.offset = 1 ∨ f.offset - e.offset = -1) && leapOrderOk (f :: t)

/-- The reasons of TSC_LEAP (R47). -/
def checkTscLeap (s : State) (w : Nat → Word) : Option Nat :=
  let new := leapEntries w (A.tscLeapTable 0) 32
  let old := s.hostLeaps
  let soon : LeapEntry → Bool := fun e =>
    decide (s.ts.acc ≤ e.sec * 1000000000 * 2 ^ 48) && decide (e.sec * 1000000000 * 2 ^ 48 < 46800000000000 * 2 ^ 48 + s.ts.acc)
  firstReason [(!leapOrderOk new, 0x46),
    ((new.filter (fun e => !old.contains e)).any soon || (old.filter (fun e => !new.contains e)).any soon, 0x47)]

/-- A TIMESCALE journal record (R388). -/
def State.journalTsc (s : State) (old new : Nat) (amount : Int) (host : Bool) : State :=
  s.journalize 7 .module A.tscState 0
    (le 1 old ++ le 1 new ++ zeros 2 ++ le 8 (unsigned amount 64) ++ [Config.stepSourceCode host])

/-- Writing learnt entry `i`. -/
def State.putLearnt (s : State) (i : Nat) (e : LeapEntry) : State :=
  ((s.wr (A.tscLeapLearnt (4 * i)) (word e.sec)).wr (A.tscLeapLearnt (4 * i + 1)) (word (e.sec / 2 ^ 32 % 65536))).wr
    (A.tscLeapLearnt (4 * i + 2)) (word (unsigned e.offset 16 + e.source * 2 ^ 16 + 2 ^ 31))

/-- The second of learnt entry `i`, none while it is not valid. -/
def State.learntSec (s : State) (i : Nat) : Option Nat :=
  if s.bit (A.tscLeapLearnt (4 * i + 2)) 31 then
    some (s.f (A.tscLeapLearnt (4 * i)) 0 32 + 2 ^ 32 * s.f (A.tscLeapLearnt (4 * i + 1)) 0 16) else none

/-- The place of a new announcement (R48): that of the same instant, else the first free one, else that of the earliest. -/
def State.learntPlace (s : State) (sec : Nat) : Nat :=
  match (List.range 8).find? (fun i => decide (s.learntSec i = some sec)) with
  | some i => i
  | none => match (List.range 8).find? (fun i => decide (s.learntSec i = none)) with
    | some i => i
    | none => (List.range 8).foldl (fun b i => if (s.learntSec i).getD 0 < (s.learntSec b).getD 0 then i else b) 0

/-- The host table stands against an announcement: LEAP_CONFLICT and the journal (R48). -/
def State.leapConflict (s : State) : State := (s.raise A.tscEvent 6).journalTsc s.tscMode s.tscMode 0 false

/-- A host table covers an announcement and puts another offset in force from its instant (R48). -/
def contradicts (host : List LeapEntry) (e : LeapEntry) : Bool := covered host e.sec && decide (hostOffset host e.sec ≠ e.offset)

/-- The application of TSC_LEAP: a held announcement that the new host table contradicts and the old one did not is a conflict
(R48). -/
def State.applyTscLeap (s : State) (old : Nat → Word) : State :=
  let was := leapEntries old (A.tscLeapTable 0) 32
  (s.each (s.learntLeaps.filter (fun e => contradicts s.hostLeaps e && !contradicts was e)) (fun _ t => t.leapConflict)).leapsChanged

/-- A leap announcement from GNSS (source 1) or PTP (2): learnt, ignored, or in conflict with the host table (R48). -/
def State.learnLeap (s : State) (sec : Nat) (offset : Int) (source : Nat) : State :=
  let before := offsetBy s.hostLeaps s.learntLeaps (sec - 1)
  if offset - before = 1 ∨ offset - before = -1 then
    let t := s.putLearnt (s.learntPlace sec) ⟨sec, offset, source⟩
    (t.when (contradicts t.hostLeaps ⟨sec, offset, source⟩) State.leapConflict).leapsChanged
  else s

/-- A due LEAP entry fires (R50). -/
def State.fireLeap (s : State) : State := s.fireDue (fun e => decide (e.action = 0x16)) (fun _ t => t.refreshLeap)

/-! ### Policy, state and step (R34 to R45, R55) -/

/-- The effective step policy (R37): 1 AUTO, 2 HOST_APPROVE, 3 NEVER. -/
def State.effPolicy (s : State) : Nat :=
  let p := s.f A.tscStepCtl 0 2
  if p = 0 then (if s.ts.everLocked then 2 else 1) else p

/-- STATE.EFF_POLICY shows it. -/
def State.showPolicy (s : State) : State := s.sfW A.tscState 4 2 s.effPolicy

/-- What the application of TSC_CTL changes besides the words. -/
def State.applyTscCtl (s : State) : State := s.leapsChanged.showPolicy

/-- A change of the timescale's state (R55): STATE_CHANGE and the journal. LOCKED ends FOLLOW's AUTO (R37). -/
def State.setMode (s : State) (m : Nat) : State :=
  let old := s.tscMode
  if old = m then s
  else
    let t := s.sfW A.tscState 0 3 m
    let t := { t with ts := { t.ts with everLocked := t.ts.everLocked || decide (m = 2), lockSince := none } }
    (t.showPolicy.raise A.tscEvent 0).journalTsc old m 0 false

/-- A TSC staged word is in its parity safe state (R56). -/
def State.tscSafe (s : State) : Bool :=
  [0, 1, 2, 3].any (fun g => decide ((s.group g).parity ≠ []))

/-- STEP_THRESHOLD in ps. -/
def State.stepLimit (s : State) : Nat := s.f A.tscStepThreshold 0 32 * 1000

/-- A slew of an offset in ps begins (R34). -/
def State.slew (s : State) (theta : Int) : State := { s with ts := { s.ts with slewRem := qdiv (theta * 65536) 1000 } }

/-- STEP_PENDING clears and no step is posted any more. -/
def State.clearStep (s : State) : State :=
  ({ s with ts := { s.ts with step := none } }.calDrop 0x1F 0).setBit A.tscState 3 false

/-- A scheduled step is abandoned (R39). -/
def State.expireStep (s : State) : State := s.clearStep.raise A.tscEvent 3

/-- Scheduling the posted step at the first whole second at least `ahead` ns from now (R36, R38). -/
def State.scheduleStep (s : State) (ahead : Nat) : State :=
  let at_ := s.secondAfter ahead
  let t := { s with ts := { s.ts with step := s.ts.step.map (fun (p : PostedStep) => { p with awaiting := false, atNs := some at_ }) } }
  t.calOwn (ownEntry 0x1F 0 at_ 0 1 0)

/-- An offset in ps rounded to whole ns (R38); a tie as the model's rounding has it. -/
def roundNs (ps : Int) : Int :=
  if ps % 1000 < 500 then ps / 1000 else if ps % 1000 = 500 then qdiv ps 1000 else ps / 1000 + 1

/-- Posting an offset under a new SEQ (R36, R38): scheduled under AUTO, awaiting the host under HOST_APPROVE. A pending step
takes a LOCKED timescale to ACQUIRING (R55). -/
def State.postStep (s : State) (theta : Int) (ref : Nat) : State :=
  let t := s.sfW A.tscStepSeq 0 8 (s.f A.tscStepSeq 0 8 + 1)
  let t := (t.wr64 A.tscStepOffsetLo (roundNs theta)).setBit A.tscState 3 true
  let t := { t with ts := { t.ts with step := some ⟨theta, ref, true, none⟩, slewRem := 0 } }
  let t := if t.tscMode = 2 then t.setMode 1 else t
  if t.effPolicy = 1 then t.scheduleStep 10000000 else t.raise A.tscEvent 1

/-- An offset of the selected reference that is to be removed: by slewing (R34), or as the effective policy says (R36). -/
def State.handleOffset (s : State) (theta : Int) (ref : Nat) : State :=
  if s.tscSafe then s
  else if theta.natAbs ≤ s.stepLimit ∨ s.effPolicy = 3 then s.slew theta
  else s.postStep theta ref

/-- The answer to a pending step (R38): a stale one counts, APPROVE schedules it, SLEW slews the offset. -/
def State.answerStep (s : State) (v : Word) : State :=
  match s.ts.step with
  | some p =>
    if p.awaiting && decide (fld v 0 8 = s.f A.tscStepSeq 0 8) then
      if fld v 8 2 = 1 then s.scheduleStep 100000000 else s.clearStep.slew p.ps
    else s.inc A.tscStepStale
  | none => s.inc A.tscStepStale

/-- The values that STEP_APPROVE accepts (R57). -/
def stepApproveOk (v : Word) : Bool := decide (fld v 8 2 = 1 ∨ fld v 8 2 = 2) && decide (fld v 10 22 = 0)

/-- The reasons of TSC_STEP (R42). -/
def checkTscStep (s : State) (w : Nat → Word) : Option Nat :=
  let amount := signed ((w A.tscHostStepLo).toNat + 2 ^ 32 * (w A.tscHostStepHi).toNat) 64
  firstReason [([0, 1, 2].any (fun g => decide ((s.group g).parity ≠ [])), 0x4A),
    (decide (amount ≠ 0) && (decide (s.tscMode = 2) || decide (s.tscMode = 1)), 0x45)]

/-- The application of TSC_STEP: a TSC_STEP entry at the second it applies at, the last of its instant (R27, R42). -/
def State.applyTscStep (s : State) : State :=
  let amount := signed (s.rd64 A.tscHostStepLo) 64
  if amount = 0 then s
  else ({ s with ts := { s.ts with hostStep := some amount } }).calOwn (ownEntry 0x1F 1 (s.nowNs / 1000000000 * 1000000000) 0 1 0)

/-- A forward step from `t` passes over every entry up to its target; each fires once there, SKIPPED (R43). -/
def State.skipEntries (s : State) (t d : Nat) : State :=
  { s with ts := { s.ts with calendar := s.ts.calendar.map (fun e =>
      if t < e.2.atNs ∧ e.2.atNs ≤ t + d ∧ e.2.skipAt.isNone then (e.1, { e.2 with skipAt := some (t + d) }) else e) } }

/-- A reference through a step of whole ns: every offset and pseudo-phase falls by it (R61, R83); the instants of a FREQ-IN's edges
move with the timescale, so that its rate is not measured across the step. -/
def RefIn.stepped (r : RefIn) (amount : Int) : RefIn :=
  let sh : Option Int → Option Int := fun o => o.map (fun x => x - amount * 1000)
  { r with
    fresh := sh r.fresh
    theta := sh r.theta
    last := sh r.last
    firstEdge := r.firstEdge.map (fun x => x + amount * 1000)
    lastEdge := r.lastEdge.map (fun x => x + amount * 1000)
    pseudo := r.pseudo - amount * 1000000
    hist := r.hist.map (fun (h : Nat × Option Int × Int) => (h.1, h.2.1, h.2.2 - amount * 1000)) }

/-- A step of whole ns is applied to the accumulator, to every offset (R83) and to the calendar (R40, R43, R44); the offset in force
is that of the new instant (R46). A backward step beyond instant 0 leaves the timescale at 0, and SEC does not wrap at 2^48: R18
gives neither case (notes/assumptions/122). -/
def State.applyStep (s : State) (amount : Int) (host : Bool) : State :=
  let t := s.nowNs
  let u := { s with
    ts := { s.ts with acc := ((s.ts.acc : Int) + amount * 2 ^ 48).toNat }
    refs := { s.refs with
      steps := s.refs.steps + amount * 1000
      ins := s.refs.ins.map (fun (r : RefIn) => r.stepped amount) }
    hol := { s.hol with
      keeperSum := { s.hol.keeperSum with good := false }
      cartSum := { s.hol.cartSum with good := false } } }
  let u := if 0 < amount then u.skipEntries t amount.toNat else u
  ((u.raise A.tscEvent 2).journalTsc u.tscMode u.tscMode amount host).refreshLeap

end Sys2Proof.Machine
end

