-- ==== Sys2Proof/Machine/Ports.lean ====
section
/-!
DEFINITION. The service cages and their MAC complexes (R183 to R217): links, instants at the reference plane, pause and
weirs, departure slots, preemptable frames, probes, optics, and the groups MACn_PORT, MACn_FLOW and MACn_CAL.
-/

namespace Sys2Proof.Machine

/-! ### Links -/

/-- The default of a link index that does not exist. -/
def State.lnk (s : State) (sl : Nat) : Link := s.ports.links.getD sl Link.empty

/-- Changing a link. -/
def State.setLink (s : State) (sl : Nat) (f : Link → Link) : State :=
  { s with ports := { s.ports with links := modAt s.ports.links sl f } }

/-- A complex. -/
def State.complex (s : State) (c : Nat) : Complex := s.ports.complexes.getD c ⟨[], [], [], 0⟩

/-- Changing a complex. -/
def State.setComplex (s : State) (c : Nat) (f : Complex → Complex) : State :=
  { s with ports := { s.ports with complexes := modAt s.ports.complexes c f } }

/-- The mode in force of a complex (R183). -/
def State.macMode (s : State) (c : Nat) : Nat := s.f (A.macStatus c) 0 2

/-- A link exists in a mode (R183). -/
def linkInMode (mode l : Nat) : Bool := (decide (mode = 1) && decide (l = 0)) || decide (mode = 2)

/-- A link exists in its complex's mode. -/
def State.linkExists (s : State) (sl : Nat) : Bool := linkInMode (s.macMode (sl / 4)) (sl % 4)

/-- STATUS.UP of a link. -/
def State.linkUp (s : State) (sl : Nat) : Bool := s.bit (A.macLinkStatus sl) 0

/-- One byte-time of a link in ps: 100 Gbit/s or 25 Gbit/s (R183). -/
def State.byteTime (s : State) (sl : Nat) : Nat := if s.macMode (sl / 4) = 1 then 80 else 320

/-- The line time of a frame of `n` bytes without FCS, in ps: preamble, FCS and gap included. -/
def State.lineTime (s : State) (sl n : Nat) : Nat := s.byteTime sl * (n + 24)

/-- The grid spacing of slots in ps (R207). -/
def State.gridStep (s : State) (sl : Nat) : Nat := if s.macMode (sl / 4) = 1 then 640 else 2560

/-- The sluice groups of a complex. -/
def macGroup (c kind : Nat) : Nat := 10 + 3 * c + kind

/-- A word of MACn_FLOW as a link direction sees it, 0 receive and 1 transmit: its safe state makes it act at its reset
value (R215), and a direction that has not adopted an application still sees the old value (R216). -/
def State.flowWord (s : State) (sl dir a : Nat) : Word :=
  if (s.group (macGroup (sl / 4) 1)).parity.contains a then resetOf a
  else if (s.complex (sl / 4)).flowWait.contains (2 * (sl % 4) + dir) then
    CellList.get (fun b => s.rd b) (s.complex (sl / 4)).flowOld a
  else s.rd a

/-- MAX_FRAME of a link direction. -/
def State.maxFrame (s : State) (sl dir : Nat) : Nat := fld (s.flowWord sl dir (A.macMaxFrame (sl / 4))) 0 14

/-- A link's station address. -/
def State.station (s : State) (sl : Nat) : Bytes :=
  be 6 (s.f (A.macLinkMacAddrHi sl) 0 16 * 2 ^ 32 + (s.rd (A.macLinkMacAddrLo sl)).toNat)

/-- The plane delay D_tx of a link in ps (R187). -/
def State.dTx (s : State) (sl : Nat) : Int :=
  (s.rd (A.macLinkTxFixed sl)).toNat + s.f (A.macLinkTxDyn sl) 0 16 + (s.rd (A.macLinkUserTxDly sl)).toInt

/-- t_rx of a frame captured at an instant in ps: the USER value is the one in force when the frame crossed the cage plane
(R187, R190). -/
def State.rxInstant (s : State) (sl cap : Nat) : Nat :=
  let plane : Int := cap - (s.rd (A.macLinkRxFixed sl)).toNat - s.f (A.macLinkRxDyn sl) 0 16
  let user := if plane < (s.complex (sl / 4)).calAt * 1000 then
      CellList.get (fun b => s.rd b) (s.complex (sl / 4)).calOld (A.macLinkUserRxDly sl)
    else s.rd (A.macLinkUserRxDly sl)
  (plane - user.toInt).toNat

/-- An instant in ps as a count of 2^-16 ns (R18, R22). -/
def stampOfPs (ps : Nat) : Nat := ps * 65536 / 1000

/-- A frame leaves with its FCS: the emission and the counters of frames sent (R196, R216). -/
def State.sendFrame (s : State) (sl tTx : Nat) (data : Bytes) : State :=
  ((s.emit (.frame sl (stampOfPs tTx) (withFcs data))).inc (A.macLinkTxFrames sl)).count (A.macLinkTxOctets sl) (data.length + 4)

/-- Responses dropped: a counter and RESP_DROP. -/
def State.dropResponses (s : State) (sl reg n : Nat) : State :=
  if n = 0 then s else (s.count reg n).raise (A.macLinkEvent sl) 8

/-! ### Slots (R207 to R213) -/

/-- Two stretches of line time overlap. -/
def overlaps (a la b lb : Nat) : Bool := decide (a < b + lb) && decide (b < a + la)

/-- The line time that is taken: reserved slots and, for a response, every booked slot. -/
def State.taken (s : State) (sl : Nat) (all : Bool) : List (Nat × Nat) :=
  (s.lnk sl).express ++ ((s.lnk sl).slots.filter (fun x => all || x.reserved || x.committed)).map
    (fun x => (x.slot, s.lineTime sl x.len))

/-- Alignment markers are inserted on a link (R207): at 100G, and on a 25G link with RS-FEC. -/
def State.hasMarkers (s : State) (sl : Nat) : Bool :=
  decide (s.macMode (sl / 4) = 1) || s.bit (A.macPortCfg (sl / 4)) (6 + sl % 4)

/-- The block times from one marker insertion to the next: at 100G 16,384 blocks on each of 20 PCS lanes, at 25G 1,024 RS-FEC
codewords of 80 blocks (R207; the numbers are PRESUMED from IEEE 802.3 clauses 82, 91 and 108, which the rule names). -/
def markerBlocks (mode : Nat) : Nat := if mode = 1 then 327680 else 81920

/-- An instant lies within two blocks of `g` ps before a marker insertion (R207); markers are `n` blocks apart. -/
def nearMarker (sl lock g n at_ : Nat) : Bool :=
  let d := (Config.markerPhase sl lock % (n * g) + n * g - at_ % (n * g)) % (n * g)
  decide (0 < d) && decide (d ≤ 2 * g)

/-! ### The preemptable frame on the line (R205) -/

/-- Stretches of line time in the order of their starts. -/
def insertStretch (x : Nat × Nat) : List (Nat × Nat) → List (Nat × Nat)
  | [] => [x]
  | y :: l => if x.1 ≤ y.1 then x :: y :: l else y :: insertStretch x l

/-- A preemptable frame with `left` bytes from `at_` on, among express stretches in the order of their starts (R205): the
instant after its last byte and the instants of its cuts; none where bytes on the line by `now` would have to wait. A fragment
that another follows has at least `frag` bytes with its mCRC, the last one at least 64; a cut costs 24 byte-times of `bt` ps. -/
def fragments (bt frag : Nat) (cuttable : Bool) (now : Nat) : List (Nat × Nat) → Nat → Nat → List Nat → Option (Nat × List Nat)
  | [], at_, left, cuts => some (at_ + bt * (8 + left), cuts)
  | e :: l, at_, left, cuts =>
    if at_ + bt * (20 + left) ≤ e.1 then some (at_ + bt * (8 + left), cuts)
    else if e.1 + e.2 ≤ at_ then fragments bt frag cuttable now l at_ left cuts
    else
      let k := min ((e.1 - at_) / bt - 24) (left - 64)
      if cuttable = true ∧ frag ≤ k + 4 then
        fragments bt frag cuttable now l (e.1 + e.2) (left - k) (cuts ++ [at_ + bt * (8 + k + 4)])
      else if at_ ≤ now then none
      else fragments bt frag cuttable now l (e.1 + e.2) left cuts

/-- PREEMPT of a link: 0 DISABLED, 1 VERIFYING, 2 ACTIVE, 3 FAILED. -/
def State.preempt (s : State) (sl : Nat) : Nat := s.f (A.macLinkStatus sl) 6 2

/-- The express stretches of a link: its own frames, booked slots and what has left since the frame on the line began. -/
def State.expressTimes (s : State) (sl : Nat) : List (Nat × Nat) := (s.taken sl true).foldl (fun l x => insertStretch x l) []

/-- A preemptable frame begun at `start` among express stretches (R205). -/
def State.preCourse (s : State) (sl : Nat) (busy : List (Nat × Nat)) (o : OnLine) : Option (Nat × List Nat) :=
  fragments (s.byteTime sl) (64 * (1 + fld (s.flowWord sl 1 (A.macLinkPreemptCfg sl)) 2 2)) o.active s.nowPs
    busy o.start (o.frame.data.length + 4) []

/-- The last byte and the cuts of the frame on the line. -/
def State.lineCourse (s : State) (sl : Nat) (o : OnLine) : Nat × List Nat :=
  (s.preCourse sl (s.expressTimes sl) o).getD (o.start + s.byteTime sl * (12 + o.frame.data.length), [])

/-- The frame on the line leaves room for an express stretch: it ends before, or it may be cut there. -/
def State.preLeaves (s : State) (sl : Nat) (x : Nat × Nat) : Bool :=
  match (s.lnk sl).onLine with
  | none => true
  | some o => (s.preCourse sl (insertStretch x (s.expressTimes sl)) o).isSome

/-- The cuts that have been made up to now count in FRAG_TX. -/
def State.settleCuts (s : State) (sl : Nat) : State :=
  match (s.lnk sl).onLine with
  | none => s
  | some o =>
    let n := ((s.lineCourse sl o).2.filter (fun c => decide (c ≤ s.nowPs))).length
    (s.count (A.macLinkFragTx sl) (n - o.cuts)).setLink sl (fun l => { l with onLine := some { o with cuts := max n o.cuts } })

/-- Express stretches are kept while they, or a preemptable frame that was on the line with them, last. -/
def State.keepStretch (s : State) (sl : Nat) (e : Nat × Nat) : Bool :=
  decide (s.nowPs ≤ e.1 + e.2) || (s.lnk sl).onLine.any (fun o => decide (o.start ≤ e.1 + e.2))

/-! ### Free slots -/

/-- The first grid instant that is free, among `fuel` instants from `at_`. -/
def findSlot (free : Nat → Bool) (step : Nat) : Nat → Nat → Option Nat
  | 0, _ => none
  | fuel + 1, at_ => if free at_ then some at_ else findSlot free step fuel (at_ + step)

/-- The first instant of a link's block grid at or after `lo` (R207). -/
def State.gridFrom (s : State) (sl lo : Nat) : Nat :=
  let g := s.gridStep sl
  let ph := Config.gridPhase sl (s.lnk sl).lock % g
  lo + (ph + g - lo % g) % g

/-- The earliest free slot at or after `lo` and no later than `hi`, for a frame of `n` bytes (R207, R208). -/
def State.freeSlot (s : State) (sl lo hi n : Nat) (all : Bool) : Option Nat :=
  let busy := s.taken sl all
  let occ := s.lineTime sl n
  let marks := s.hasMarkers sl
  let free : Nat → Bool := fun a => !(busy.any (fun b => overlaps a occ b.1 b.2)) &&
    !(marks && nearMarker sl (s.lnk sl).lock (s.gridStep sl) (markerBlocks (s.macMode (sl / 4))) a) && s.preLeaves sl (a, occ)
  if hi < s.gridFrom sl lo then none
  else findSlot free (s.gridStep sl) ((hi - s.gridFrom sl lo) / s.gridStep sl + 1) (s.gridFrom sl lo)

/-- The link is held by received pause at an instant in ps (R201). -/
def State.heldAt (s : State) (sl now : Nat) : Bool :=
  match (s.lnk sl).hold with
  | some e => decide (now < e)
  | none => false

/-- SLOT_AGE_MAX and TAIL_HORIZON of a link in ps (R208, R213). -/
def State.slotAge (s : State) (sl : Nat) : Nat := 1000000 * fld (s.flowWord sl 1 (A.macSlotAgeMax (sl / 4))) 0 17
def State.tailHorizon (s : State) (sl : Nat) : Nat := 1000000 * fld (s.flowWord sl 1 (A.macTailHorizon (sl / 4))) 0 7

/-- How far ahead a slot is looked for where no rule sets a horizon, in ps: 100 ms, the longest SLOT_AGE_MAX. -/
def slotReach : Nat := 100000000000

/-- Re-slotting (R211) the booked frame with slot `at_`: the new slot is the earliest free one no earlier than the end of the
hold plus 300 ns and the decision plus 500 ns. -/
def State.reslot (s : State) (sl at_ : Nat) : State :=
  match (s.lnk sl).slots.find? (fun x => decide (x.slot = at_)) with
  | none => s
  | some x =>
    let t := s.setLink sl (fun l => { l with slots := l.slots.filter (fun y => decide (y.slot ≠ at_)) })
    let holdEnd := match (s.lnk sl).hold with
      | some e => 300000 + e
      | none => 0
    let lo := max holdEnd (500000 + s.nowPs)
    match t.freeSlot sl lo (slotReach + lo) x.len true with
    | none => (t.dropResponses sl (A.macLinkAgeDrop sl) 1).sampleLost x.req 2
    | some z =>
      ((t.setLink sl (fun l => { l with slots := { x with slot := z, final := none } :: l.slots })).inc
        (A.macLinkReslot sl)).raise (A.macLinkEvent sl) 7

/-- Re-slotting every uncommitted frame of a link that satisfies a test. -/
def State.reslotAll (s : State) (sl : Nat) (p : Slot → Bool) : State :=
  s.each (((s.lnk sl).slots.filter (fun x => !x.committed && p x)).map (fun x => x.slot)) (fun a t => t.reslot sl a)

/-- Booking a reserved slot (R208): only reserved and committed slots are in its way, and an uncommitted response that it
overlaps is re-slotted (R259). -/
def State.reserve (s : State) (sl lo n : Nat) (f : Nat → Link → Link) : Option Nat × State :=
  match s.freeSlot sl lo (slotReach + lo) n false with
  | none => (none, s)
  | some z =>
    let hit : Slot → Bool := fun x => !x.reserved && overlaps x.slot (s.lineTime sl x.len) z (s.lineTime sl n)
    (some z, (s.setLink sl (f z)).reslotAll sl hit)

/-- A reserved slot for a frame of the module's own that leaves as it is booked: a pause or a probe frame (R200, R203). -/
def State.expressSlot (s : State) (sl n : Nat) : Option Nat × State :=
  s.reserve sl (100000 + s.nowPs) n (fun z l => { l with
    express := (z, s.lineTime sl n) :: l.express.filter (s.keepStretch sl) })

/-- RESPONSE_BOOK (R208): the first response handed over is booked on the earliest free slot at least 500 ns after h, or
dropped where none lies within TAIL_HORIZON of h. -/
def State.bookNext (s : State) (sl : Nat) : State :=
  match (s.lnk sl).ready with
  | [] => s
  | x :: rest =>
    let t := s.setLink sl (fun l => { l with ready := rest })
    match t.freeSlot sl (500000 + x.h) (x.h + t.tailHorizon sl) x.len true with
    | none => (t.dropResponses sl (A.macLinkTailDrop sl) 1).sampleLost x.req 1
    | some z => t.setLink sl (fun l => { l with slots := ⟨x.answer, x.req, x.len, z, z, false, none, false⟩ :: l.slots })

/-- Handing a response over to the tailrace at this instant (R208); nothing is sent on a link that is not UP, and one that does
not exist counts nothing (R183). -/
def State.handOver (s : State) (sl : Nat) (answer : Answer) (req : Option Request) (len : Nat) : State :=
  if s.linkUp sl then s.setLink sl (fun l => { l with ready := l.ready ++ [⟨answer, req, len, s.nowPs⟩] })
  else (s.when (s.linkExists sl) (fun t => t.dropResponses sl (A.macLinkLinkDrop sl) 1)).sampleLost req 3

/-- The earliest slot that satisfies a test. -/
def earliestSlot (l : List Slot) (p : Slot → Bool) : Option Slot :=
  (l.filter p).foldl (fun b x => match b with
    | none => some x
    | some y => if x.slot < y.slot then some x else some y) none

/-- COMMIT_POINT (R210, R211): 300 ns before its slot a finalised frame is committed, or re-slotted while the link is held. -/
def State.commitSlot (s : State) (sl : Nat) : State :=
  match earliestSlot (s.lnk sl).slots (fun x => !x.committed && x.final.isSome && decide (x.slot ≤ 300000 + s.nowPs)) with
  | none => s
  | some x =>
    if s.heldAt sl s.nowPs then s.reslot sl x.slot
    else s.setLink sl (fun l => { l with slots := l.slots.map (fun y =>
      if y.slot = x.slot then { y with committed := true } else y) })

/-- AGE_DROP (R213): every uncommitted frame SLOT_AGE_MAX after its first booked slot is dropped. -/
def State.ageDrop (s : State) (sl : Nat) : State :=
  let old : Slot → Bool := fun x => !x.committed && decide (x.first + s.slotAge sl ≤ s.nowPs)
  let gone := (s.lnk sl).slots.filter old
  ((s.setLink sl (fun l => { l with slots := l.slots.filter (fun x => !(old x)) })).dropResponses sl (A.macLinkAgeDrop sl)
    gone.length).each gone (fun x t => t.sampleLost x.req 2)

/-! ### Pause and weirs (R198 to R202) -/

/-- PAUSE_HELD accounts up to now (R202): it restarts at each whole second. -/
def State.settleHeld (s : State) (sl : Nat) : State :=
  let now := s.nowPs
  let sec := now / 1000000000000
  let l := s.lnk sl
  let base := if l.heldSec = sec then l.heldPs else 0
  let since := if l.heldSec = sec then l.heldSince else max l.heldSince (sec * 1000000000000)
  let upTo := match l.hold with
    | some e => min e now
    | none => since
  let total := base + (upTo - since)
  (s.setLink sl (fun x => { x with heldPs := total, heldSince := max since upTo, heldSec := sec })).wr
    (A.macLinkPauseHeld sl) (word (min (total / 1000000) 1000000))

/-- Ending the hold. -/
def State.endHold (s : State) (sl : Nat) : State :=
  ((s.settleHeld sl).setLink sl (fun l => { l with hold := none })).setBit (A.macLinkStatus sl) 4 false

/-- PAUSE_EFFECT (R201): the oldest received pause frame takes effect; while pause is ignored it does not (R202). -/
def State.pauseEffect (s : State) (sl : Nat) : State :=
  match (s.lnk sl).pauseAt with
  | [] => s
  | (at_, q) :: rest =>
    if s.nowPs < at_ then s
    else
      let t := s.setLink sl (fun l => { l with pauseAt := rest })
      if s.nowNs < (s.lnk sl).ignoreUntil then t
      else if q = 0 then t.endHold sl
      else
        let u := t.settleHeld sl
        ((u.setLink sl (fun l => { l with
          hold := some (at_ + q * 64 * s.byteTime sl), heldSince := max l.heldSince at_ })).setBit (A.macLinkStatus sl) 4 true)

/-- PAUSE_HOLD_END (R201). -/
def State.pauseHoldEnd (s : State) (sl : Nat) : State :=
  match (s.lnk sl).hold with
  | some e => if e ≤ s.nowPs then s.endHold sl else s
  | none => s

/-- PAUSE_OVERLIMIT (R202): the hold ends and pause is ignored until the next whole second. -/
def State.pauseOverlimit (s : State) (sl : Nat) : State :=
  let t := s.settleHeld sl
  let limit := fld (s.flowWord sl 0 (A.macPauseLimit (sl / 4))) 0 10
  if (s.lnk sl).hold.isSome ∧ limit * 1000000000 ≤ (t.lnk sl).heldPs then
    (((t.endHold sl).setLink sl (fun l => { l with ignoreUntil := (s.nowNs / 1000000000 + 1) * 1000000000 })).inc
      (A.macLinkPauseOverlimit sl)).raise (A.macLinkEvent sl) 4
  else t

/-- A received pause frame (R201, R202): counted by the caller; obeyed 40 ns after its last byte while RX_EN = 1. -/
def State.pauseReceived (s : State) (sl quanta : Nat) : State :=
  if bitOf (s.flowWord sl 0 (A.macLinkPauseCfg sl)) 1 then
    s.setLink sl (fun l => { l with pauseAt := l.pauseAt ++ [(40000 + s.nowPs, quanta)] })
  else s

/-- Sending a pause frame (R199, R200); a link that is not UP sends none. -/
def State.sendPause (s : State) (sl quanta : Nat) : State :=
  if s.linkUp sl = false then s
  else match s.expressSlot sl 60 with
  | (none, t) => t
  | (some z, t) =>
    let d := padFrame ([1, 0x80, 0xC2, 0, 0, 1] ++ s.station sl ++ be 2 0x8808 ++ be 2 1 ++ be 2 quanta)
    (((t.sendFrame sl (z + (t.dTx sl).toNat) d).emit (.pause sl quanta)).inc (A.macLinkPauseTx sl)).setLink sl
      (fun l => { l with refreshAt := s.ts.meas + 1000 * 2 ^ 48 * fld (s.flowWord sl 1 (A.macLinkPauseCfg sl)) 4 10 })

/-- The cells that so many bytes of a frame take (R192): the first cell is allocated with the 64th byte. -/
def cellsFor (n : Nat) : Nat := if n < 64 then 0 else (n + 255) / 256

/-- The cells of a frame in reception; one that has been dropped holds none. -/
def openCells : Option RxOpen → Nat
  | some r => if r.dead then 0 else cellsFor r.data.length
  | none => 0

/-- The cells that a link holds (R198): frames in reception or reassembly, and frames not yet handed on to a pipeline, an
exception ring or an engine. A link that does not exist holds none (R183). -/
def State.cellsHeld (s : State) (sl : Nat) : Nat :=
  let waiting := (s.ports.claims.map (fun c => c.frame)) ++ s.hrc.moves.flatMap (fun m => m.held.map (fun r => r.frame))
  if s.linkExists sl then
    ((waiting.filter (fun f => decide (f.sl = sl))).map (fun f => cellsFor (f.data.length + 4))).sum +
      openCells (s.lnk sl).rxExpress + openCells (s.lnk sl).rxPre
  else 0

/-- BUF_OCC shows the cells held (R198). -/
def State.showCells (s : State) (sl : Nat) : State := s.sfW (A.macLinkBufOcc sl) 0 14 (s.cellsHeld sl)

/-- Occupancy has reached `occ` cells: at weir high WEIR is set, and a pause frame goes out with TX_EN (R199). -/
def State.weirHigh (s : State) (sl occ : Nat) : State :=
  let cfg := s.flowWord sl 1 (A.macLinkPauseCfg sl)
  if fld (s.flowWord sl 0 (A.macLinkWeirHigh sl)) 0 14 ≤ occ ∧ s.bit (A.macLinkStatus sl) 5 = false then
    ((s.setBit (A.macLinkStatus sl) 5 true).raise (A.macLinkEvent sl) 3).when (bitOf cfg 0) (fun u => u.sendPause sl (fld cfg 16 16))
  else s

/-- WEIR_LOW (R199): occupancy has fallen to `occ` cells, at or below weir low; one pause frame with quanta 0 goes out with TX_EN.
Nothing happens where the cells held are others by now. -/
def State.weirLow (s : State) (sl occ : Nat) : State :=
  let cfg := s.flowWord sl 1 (A.macLinkPauseCfg sl)
  let t := s.showCells sl
  if s.cellsHeld sl = occ ∧ occ ≤ fld (s.flowWord sl 0 (A.macLinkWeirLow sl)) 0 14 ∧ s.bit (A.macLinkStatus sl) 5 = true then
    (t.setBit (A.macLinkStatus sl) 5 false).when (bitOf cfg 0) (fun u => u.sendPause sl 0)
  else t

/-- PAUSE_REFRESH (R199): the pause frame repeated every REFRESH, on the measurement scale, while WEIR stays set. -/
def State.pauseRefresh (s : State) (sl : Nat) : State :=
  let cfg := s.flowWord sl 1 (A.macLinkPauseCfg sl)
  if s.bit (A.macLinkStatus sl) 5 = true ∧ bitOf cfg 0 = true ∧ (s.lnk sl).refreshAt ≤ s.ts.meas then
    s.sendPause sl (fld cfg 16 16)
  else s

/-- Receive cells of a link (R198). -/
def cellsOf (mode : Nat) : Nat := if mode = 1 then 16384 else 4096

/-! ### Preemption and preemptable frames (R203 to R206) -/

/-- Preemption starts over: at UP, and when PREEMPT_CFG changes (R204). -/
def State.restartVerify (s : State) (sl : Nat) : State :=
  let cfg := s.flowWord sl 1 (A.macLinkPreemptCfg sl)
  let st := if bitOf cfg 0 = false then 0 else if bitOf cfg 1 = true then 1 else 2
  (s.sfW (A.macLinkStatus sl) 6 2 st).setLink sl (fun l => { l with verifySent := 0, verifyAt := s.ts.meas })

/-- VERIFY_SEND (R204): a verify mPacket every 10 ms of the measurement scale; three unanswered ones fail preemption. -/
def State.verifySend (s : State) (sl : Nat) : State :=
  if s.preempt sl = 1 ∧ (s.lnk sl).verifyAt ≤ s.ts.meas then
    if 3 ≤ (s.lnk sl).verifySent then (s.sfW (A.macLinkStatus sl) 6 2 3).raise (A.macLinkEvent sl) 5
    else (s.emit (.mpacket sl 0)).setLink sl (fun l => { l with
      verifySent := l.verifySent + 1, verifyAt := s.ts.meas + 10000000 * 2 ^ 48 })
  else s

/-- VERIFY_RESPONSE (R204): a response makes preemption ACTIVE. -/
def State.verifyResponse (s : State) (sl : Nat) : State :=
  if s.preempt sl = 1 then s.sfW (A.macLinkStatus sl) 6 2 2 else s

/-- A preemptable frame queued on a link (R203). -/
def State.queuePre (s : State) (sl : Nat) (d : Bytes) (ring : Option (Nat × Nat × Nat)) (counter : Option Nat := none) : State :=
  s.setLink sl (fun l => { l with queue := l.queue ++ [⟨d, ring, counter⟩] })

/-- The last byte of the frame on the line is out: it counts, and a host frame's completion is posted (R205, R336). -/
def State.endOnLine (s : State) (sl : Nat) : State :=
  match (s.lnk sl).onLine with
  | none => s
  | some o =>
    let last := (s.lineCourse sl o).1
    if s.nowPs < last then s
    else
      let t := (s.settleCuts sl).setLink sl (fun l => { l with
        onLine := none, express := (last, 12 * s.byteTime sl) :: l.express.filter (fun e => decide (s.nowPs ≤ e.1 + e.2)) })
      let t := t.sendFrame sl ((o.start : Int) + s.dTx sl).toNat o.frame.data
      let t := match o.frame.counter with
        | some r => t.inc r
        | none => t
      match o.frame.ring with
      | none => t
      | some (n, slot, _) => (t.inc (A.macLinkTxHost sl)).endWork n slot 0 (o.frame.data.length + 4)

/-- The first queued frame starts when line time is free: not on a link that is held, and not where an express frame would have
to wait for it (R205, R208). -/
def State.startOnLine (s : State) (sl : Nat) : State :=
  match (s.lnk sl).queue with
  | [] => s
  | x :: rest =>
    let o : OnLine := ⟨x, s.nowPs, decide (s.preempt sl = 2), 0⟩
    if s.linkUp sl = true ∧ (s.lnk sl).onLine = none ∧ s.heldAt sl s.nowPs = false ∧
        (s.preCourse sl (s.expressTimes sl) o).isSome = true then
      s.setLink sl (fun l => { l with queue := rest, onLine := some o })
    else s

/-- PREEMPTABLE_FRAME_SENT (R205, R336): with `last` the frame on the line ends where its last byte is out; the next queued one
starts where line time is free. -/
def State.sendPreemptable (s : State) (sl : Nat) (last : Bool) : State := (s.when last (fun t => t.endOnLine sl)).startOnLine sl

/-! ### Links up and down (R185) -/

/-- Dropping what a link that goes DOWN still had to send: responses in LINK_DROP, host frames with LINK_DOWN (R185, R336). -/
def State.clearLink (s : State) (sl : Nat) : State :=
  let l := s.lnk sl
  let n := l.ready.length + (l.slots.filter (fun x => !x.reserved)).length
  let queue := l.onLine.toList.map (fun o => o.frame) ++ l.queue
  let t := s.setLink sl (fun x => { x with
    ready := [], slots := [], express := [], queue := [], onLine := none, hold := none, pauseAt := [] })
  let t := t.dropResponses sl (A.macLinkLinkDrop sl) n
  let t := t.each (l.ready.map (fun x => x.req) ++ l.slots.map (fun x => x.req)) (fun r u => u.sampleLost r 3)
  t.each queue (fun x u => match x.ring with
    | some (r, slot, _) => u.endWork r slot 0x40 0
    | none => u)

/-- The frames that are being received, and have not been dropped already. -/
def Link.receiving (l : Link) : Nat := ((l.rxExpress.toList ++ l.rxPre.toList).filter (fun r => !r.dead)).length

/-- A link goes DOWN (R185): a frame being received counts in PHY_ERR. -/
def State.linkDown (s : State) (sl : Nat) : State :=
  if s.linkUp sl then
    let t := (s.settleHeld sl).settleCuts sl
    let t := t.sfW (A.macLinkStatus sl) 0 8 (b2n (s.bit (A.macLinkStatus sl) 5) * 32)
    let t := t.setBit (A.macStatus (sl / 4)) (4 + sl % 4) false
    let t := (t.count (A.macLinkPhyErr sl) (s.lnk sl).receiving).setLink sl (fun l => { l with rxExpress := none, rxPre := none })
    ((t.inc (A.macLinkLinkDown sl)).raise (A.macLinkEvent sl) 1).clearLink sl
  else s

/-- A link may come UP: it exists, is enabled, its complex's domain is on, and no safe state keeps it DOWN (R185, R215). -/
def State.linkAllowed (s : State) (sl : Nat) : Bool :=
  let c := sl / 4
  let bad := (s.group (macGroup c 0)).parity
  let badCal := (s.group (macGroup c 2)).parity
  s.linkExists sl && s.bit (A.macPortCfg c) (2 + sl % 4) && s.domainOn 12 && !(bad.contains (A.macPortCfg c)) &&
  !(bad.contains (A.macLinkMacAddrLo sl)) && !(bad.contains (A.macLinkMacAddrHi sl)) &&
  !(badCal.contains (A.macLinkUserRxDly sl)) && !(badCal.contains (A.macLinkUserTxDly sl))

/-- LINK_UP (R185, R188): the lock conditions have held for 10 ms; RX_DYN and TX_DYN are measured, in ps. -/
def State.linkComesUp (s : State) (sl rxDyn txDyn : Nat) : State :=
  if s.linkAllowed sl = true ∧ s.linkUp sl = false then
    let m1 := decide (s.macMode (sl / 4) = 1)
    let fec := m1 || s.bit (A.macPortCfg (sl / 4)) (6 + sl % 4)
    let changed := decide (0 < (s.lnk sl).lock) &&
      (decide (s.f (A.macLinkRxDyn sl) 0 16 ≠ rxDyn % 65536) || decide (s.f (A.macLinkTxDyn sl) 0 16 ≠ txDyn % 65536))
    let t := s.sfW (A.macLinkStatus sl) 0 4 (3 + 4 * b2n m1 + 8 * b2n fec)
    let t := (t.sfW (A.macLinkRxDyn sl) 0 16 rxDyn).sfW (A.macLinkTxDyn sl) 0 16 txDyn
    let t := t.setLink sl (fun l => { l with lock := l.lock + 1 })
    let t := (t.setBit (A.macStatus (sl / 4)) (4 + sl % 4) true).raise (A.macLinkEvent sl) 0
    (t.when changed (fun u => u.raise (A.macLinkEvent sl) 2)).restartVerify sl
  else s

/-! ### Probes (R191) -/

/-- A returned probe with its nonce, captured at an instant in ps. -/
def State.probeReturn (s : State) (sl nonce cap : Nat) : State :=
  match (s.lnk sl).probe with
  | none => s
  | some (n, tTx, start) =>
    if n = nonce ∧ s.ts.meas ≤ 1000000 * 2 ^ 48 + start then
      let t := s.setLink sl (fun l => { l with probe := none })
      ((t.setBit (A.macLinkProbeCtl sl) 0 false).wr (A.macLinkProbeResult sl)
        (wordOfInt ((s.rxInstant sl cap : Int) - tTx))).raise (A.macLinkEvent sl) 6
    else s

/-- PROBE_START: one 64-byte probe frame on an express slot; ignored while one is outstanding. The nonce is a free value. On a
link that is not UP no frame leaves, and none returns. -/
def State.probeStart (s : State) (sl : Nat) : State :=
  let none_ : State → State := fun t => t.when (t.linkExists sl) (fun u => u.wr (A.macLinkProbeResult sl) 0xFFFFFFFF)
  if (s.lnk sl).probe.isSome then s
  else if s.linkUp sl = false then none_ s
  else
    let q := s.draw
    let nonce := q.1 % 65536
    match q.2.expressSlot sl 60 with
    | (none, t) => none_ t
    | (some z, t) =>
      let tTx := (z + t.dTx sl).toNat
      let d := padFrame (List.replicate 6 0xFF ++ s.station sl ++ be 2 0x88B5 ++ be 2 nonce)
      ((t.sendFrame sl tTx d).setLink sl (fun l => { l with probe := some (nonce, tTx, s.ts.meas) })).setBit
        (A.macLinkProbeCtl sl) 0 true

/-- PROBE_TIMEOUT: no return within 1 ms leaves PROBE_RESULT 0xFFFF_FFFF. -/
def State.probeTimeout (s : State) (sl : Nat) : State :=
  match (s.lnk sl).probe with
  | none => s
  | some (_, _, start) =>
    if 1000000 * 2 ^ 48 + start ≤ s.ts.meas then
      ((s.setLink sl (fun l => { l with probe := none })).setBit (A.macLinkProbeCtl sl) 0 false).wr
        (A.macLinkProbeResult sl) 0xFFFFFFFF
    else s

/-! ### A timescale step (R229) -/

/-- The instants of a link move with a step of `d` ns, and every frame not committed is re-slotted. -/
def State.linkStepped (s : State) (d : Int) (sl : Nat) : State :=
  let mv : Nat → Nat := fun ps => ((ps : Int) + d * 1000).toNat
  let t := s.setLink sl (fun l => { l with
    hold := l.hold.map mv
    heldSince := mv l.heldSince
    pauseAt := l.pauseAt.map (fun p => (mv p.1, p.2))
    onLine := l.onLine.map (fun (o : OnLine) => { o with start := mv o.start })
    rxExpress := l.rxExpress.map (fun (r : RxOpen) => { r with first := mv r.first })
    rxPre := l.rxPre.map (fun (r : RxOpen) => { r with first := mv r.first })
    ready := l.ready.map (fun (x : Handed) => { x with h := mv x.h })
    slots := l.slots.map (fun (x : Slot) => { x with slot := mv x.slot, first := mv x.first })
    express := l.express.map (fun e => (mv e.1, e.2)) })
  t.reslotAll sl (fun _ => true)

/-- A step of `d` ns has applied; the boundaries of the last MACn_CAL and SVP_PROF applications move with it (R190, R250). -/
def State.portsStepped (s : State) (d : Int) : State :=
  let t := { s with hrc := { s.hrc with profilesAt := ((s.hrc.profilesAt : Int) + 1000 * d).toNat }, ports := { s.ports with
    steps := s.ports.steps + d
    complexes := s.ports.complexes.map (fun (c : Complex) => { c with calAt := ((c.calAt : Int) + d).toNat }) } }
  t.each (List.range 8) (fun sl u => u.linkStepped d sl)

/-! ### The groups MACn_PORT, MACn_FLOW and MACn_CAL (R216, R217) -/

/-- WEIR_ORDER for one link under values `w` and a mode: WEIR_LOW below WEIR_HIGH, and at least 512 cells of headroom. -/
def weirBad (w : Nat → Word) (mode sl : Nat) : Bool :=
  let high := fld (w (A.macLinkWeirHigh sl)) 0 14
  let low := fld (w (A.macLinkWeirLow sl)) 0 14
  decide (high ≤ low) || (linkInMode mode (sl % 4) && decide (cellsOf mode < high + 512))

/-- Links of a complex. -/
def linksOf (c : Nat) : List Nat := [4 * c, 4 * c + 1, 4 * c + 2, 4 * c + 3]

/-- The check of MACn_PORT (R217). -/
def checkMacPort (s : State) (c : Nat) (w : Nat → Word) : Option Nat :=
  let mode := fld (w (A.macPortCfg c)) 0 2
  let en := fld (w (A.macPortCfg c)) 2 4
  firstReason [
    (!(rangesOk (macGroup c 0) w) || decide (mode = 3), 0x40),
    ((decide (mode = 1) && decide (en / 2 ≠ 0)) || (decide (mode = 0) && decide (en ≠ 0)), 0x41),
    ((linksOf c).any (fun sl => weirBad (fun a => s.rd a) mode sl), 0x42),
    ((linksOf c).any (fun sl =>
      let a := fld (w (A.macLinkMacAddrHi sl)) 0 16 * 2 ^ 32 + (w (A.macLinkMacAddrLo sl)).toNat
      decide (a = 0) || decide (a / 2 ^ 40 % 2 = 1)), 0x45)]

/-- The check of MACn_FLOW (R217). -/
def checkMacFlow (s : State) (c : Nat) (w : Nat → Word) : Option Nat :=
  let mode := s.macMode c
  let quantum := if mode = 1 then 5120 else 20480
  firstReason [
    (!(rangesOk (macGroup c 1) w), 0x40),
    ((linksOf c).any (fun sl => weirBad w mode sl), 0x42),
    (decide (fld (w (A.macSlotAgeMax c)) 0 17 ≤ fld (w (A.macTailHorizon c)) 0 7), 0x43),
    ((linksOf c).any (fun sl => decide
      (fld (w (A.macLinkPauseCfg sl)) 16 16 * quantum ≤ fld (w (A.macLinkPauseCfg sl)) 4 10 * 1000000)), 0x44)]

/-- The check of MACn_CAL (R217). -/
def checkMacCal (c : Nat) (w : Nat → Word) : Option Nat := firstReason [(!(rangesOk (macGroup c 2) w), 0x40)]

/-- A link's transmitter is enabled (R186, R215, R272): only while its optic is accepted, the link is in LINK_EN, no
transmit-disabling safe state holds and it is not squelched. -/
def State.transmits (s : State) (sl : Nat) : Bool :=
  s.bit (A.macStatus (sl / 4)) 3 && s.linkAllowed sl && !(s.lnk sl).squelched

/-- CAGE.TX_DISABLED: every transmitter is disabled. -/
def State.showTransmitters (s : State) (c : Nat) : State :=
  s.setBit (A.macCage c) 13 (!((linksOf c).any (fun sl => s.transmits sl)))

/-- FROZEN of a complex: a word of one of its groups is in its safe state, which may disable transmitters (R215). -/
def State.macFrozen (s : State) (c : Nat) : State :=
  (s.setBit (A.macStatus c) 8 ([0, 1, 2].any (fun k => decide ((s.group (macGroup c k)).parity ≠ [])))).showTransmitters c

/-- The links that a MACn_PORT application takes DOWN: those with a change to MODE, LINK_EN or, but for 100G, which ignores it,
FEC25 (R185). -/
def State.portTouches (s : State) (c : Nat) (old : Nat → Word) (sl : Nat) : Bool :=
  let o := old (A.macPortCfg c)
  let n := s.rd (A.macPortCfg c)
  let l := sl % 4
  decide (fld o 0 2 ≠ fld n 0 2) || bitOf o (2 + l) != bitOf n (2 + l) ||
    (decide (fld n 0 2 ≠ 1) && bitOf o (6 + l) != bitOf n (6 + l))

/-- A MACn_PORT application after its links went DOWN: the mode in force; links that do not exist in it read 0 (R183). -/
def State.applyMacPort (s : State) (c : Nat) : State :=
  let t := (s.sfW (A.macStatus c) 0 2 (s.f (A.macPortCfg c) 0 2)).macFrozen c
  t.each (linksOf c) (fun sl u =>
    if u.linkExists sl = true then u
    else u.each [A.macLinkStatus sl, A.macLinkRxDyn sl, A.macLinkTxDyn sl, A.macLinkBufOcc sl, A.macLinkPauseHeld sl]
      (fun a v => v.wr a 0))

/-- The end of an adoption: every link direction has adopted the values (R216). -/
def State.flowDone (s : State) (c : Nat) : State :=
  if (s.complex c).flowWait = [] then
    (s.setComplex c (fun (x : Complex) => { x with flowOld := [] })).raise (A.macEvent c) 3
  else s

/-- A MACn_FLOW application (R216): a direction of a link that is not UP adopts at once, every other at its own next point
between frames. -/
def State.applyMacFlow (s : State) (c : Nat) (old : Nat → Word) : State :=
  let dirs := (List.range 8).filter (fun d => s.linkUp (4 * c + d / 2))
  let words := (groupWords (macGroup c 1)).map (fun a => (a, old a))
  let t := s.setComplex c (fun (x : Complex) => { x with
    flowOld := words.foldl (fun l e => CellList.insert e.1 e.2 l) [], flowWait := dirs })
  (t.macFrozen c).flowDone c

/-- A link direction is between frames (R216): it receives none, or none is on its line. -/
def State.betweenFrames (s : State) (sl dir : Nat) : Bool :=
  let l := s.lnk sl
  if dir = 0 then l.rxExpress.isNone && l.rxPre.isNone else l.onLine.isNone

/-- FLOW_ADOPT (R216): one link direction is between frames and adopts the values; a new PREEMPT_CFG starts preemption over
(R204). -/
def State.flowAdopt (s : State) (sl dir : Nat) : State :=
  let c := sl / 4
  let d := 2 * (sl % 4) + dir
  if (s.complex c).flowWait.contains d ∧ s.betweenFrames sl dir = true then
    let old := s.flowWord sl 1 (A.macLinkPreemptCfg sl)
    let t := s.setComplex c (fun (x : Complex) => { x with flowWait := x.flowWait.filter (fun y => decide (y ≠ d)) })
    (t.when (decide (old ≠ t.flowWord sl 1 (A.macLinkPreemptCfg sl)) && s.linkUp sl) (fun u => u.restartVerify sl)).flowDone c
  else s

/-- A MACn_CAL application (R190, R212): a frame between its finalisation and its commit point whose D_tx changes is
re-slotted. -/
def State.applyMacCal (s : State) (c : Nat) (old : Nat → Word) : State :=
  let words := (groupWords (macGroup c 2)).map (fun a => (a, old a))
  let t := s.setComplex c (fun (x : Complex) => { x with
    calOld := words.foldl (fun l e => CellList.insert e.1 e.2 l) [], calAt := s.nowNs })
  (t.macFrozen c).each (linksOf c) (fun sl u =>
    if old (A.macLinkUserTxDly sl) = s.rd (A.macLinkUserTxDly sl) then u
    else u.reslotAll sl (fun x => x.final.isSome))

/-- The links that a CONFIG_PARITY fault in a MAC word takes DOWN (R215). -/
def macParityDown (a : Nat) : List Nat :=
  let c := (a - 0x40000) / 0x4000
  let o := (a - 0x40000) % 0x4000
  if o = 0x10 then linksOf c
  else if 0x400 ≤ o ∧ ([0x10, 0x14, 0x30, 0x34].contains (o % 0x400)) then [4 * c + (o - 0x400) / 0x400]
  else []

/-! ### Optics (R186) -/

/-- CAGE_INSERT (R186): the optic's identifier and power class, or no response within 2 s. -/
def State.cageInsert (s : State) (c : Nat) (responded : Bool) (ident pclass : Nat) : State :=
  let reason := if responded = false then 0x42 else if ident ≠ 0x11 then 0x40
    else if pclass < 1 ∨ 4 < pclass then 0x41 else 0
  let t := (s.setBit (A.macStatus c) 2 true).raise (A.macEvent c) 0
  let t := t.wr (A.macCageFault c) (word reason)
  let t := if responded then (t.sfW (A.macCage c) 0 8 ident).sfW (A.macCage c) 8 3 pclass else t
  let t := t.setBit (A.macCage c) 11 (decide (reason ≠ 0))
  let t := (t.setBit (A.macStatus c) 3 (decide (reason = 0))).showTransmitters c
  t.when (decide (reason ≠ 0)) (fun u => u.raise (A.macEvent c) 2)

/-- CAGE_REMOVE after its links went DOWN (R490). -/
def State.cageRemove (s : State) (c : Nat) : State :=
  let t := ((s.setBit (A.macStatus c) 2 false).setBit (A.macStatus c) 3 false).raise (A.macEvent c) 1
  (t.wr (A.macCage c) (resetOf (A.macCage c))).wr (A.macCageFault c) 0

end Sys2Proof.Machine
end

