-- ==== Sys2Proof/Machine/References.lean ====
section
/-!
DEFINITION. References: offsets (R60 to R65), quality classes (R66 to R73), qualification (R75 to R79), residuals and drift
statistics (R81 to R88), selection and switching (R93 to R97).
-/

namespace Sys2Proof.Machine

/-! ### Reference inputs -/

/-- Reference input `i`. -/
def State.refIn (s : State) (i : Nat) : RefIn := s.refs.ins.getD i RefIn.empty

/-- Changing reference input `i`. -/
def State.setRef (s : State) (i : Nat) (f : RefIn → RefIn) : State :=
  { s with refs := { s.refs with ins := modAt s.refs.ins i f } }

/-- The phase references (R60). -/
def phaseRef (i : Nat) : Bool := decide (i ≤ 5) || decide (i = 8) || decide (i = 9) || decide (i = 12)

/-- The frequency-only references (R60). -/
def freqRef (i : Nat) : Bool := decide (i = 6) || decide (i = 7) || decide (i = 10) || decide (i = 11)

/-- QSTATE: 0 UNAVAILABLE, 1 CANDIDATE, 2 QUALIFIED, 3 SELECTED, 4 WAIT_RESTORE, 5 DISTRUSTED. -/
def State.qstate (s : State) (i : Nat) : Nat := s.f (A.refInState i) 0 3

/-- QUALIFIED or SELECTED. -/
def State.isQual (s : State) (i : Nat) : Bool := decide (s.qstate i = 2) || decide (s.qstate i = 3)

/-- The current class of a reference. -/
def State.refMq (s : State) (i : Nat) : Nat := s.f (A.refInState i) 4 3

/-- PRIORITY. -/
def State.refPrio (s : State) (i : Nat) : Nat := s.f (A.refInCfg i) 4 4

/-- GROUP. -/
def State.refGroup (s : State) (i : Nat) : Nat := s.f (A.refInCfg i) 8 4

/-- The FREQ-IN that a PPS-IN is paired with (R64). -/
def State.refPair (s : State) (i : Nat) : Option Nat :=
  let p := s.f (A.refInCfg i) 20 4
  if 2 ≤ i ∧ i ≤ 5 ∧ (p = 6 ∨ p = 7) then some p else none

/-- A FREQ-IN that a pair consumes (R64). -/
def State.isPaired (s : State) (i : Nat) : Bool := [2, 3, 4, 5].any (fun p => decide (s.refPair p = some i))

/-- The words of REF whose parity failed. -/
def State.refParity (s : State) : List Nat := (s.group 4).parity

/-- A parity fault in a word of the reference's own page (R98). -/
def State.refStruck (s : State) (i : Nat) : Bool :=
  s.refParity.any (fun a => decide (A.refInCfg i ≤ a) && decide (a < A.refInCfg i + 0x100))

/-- Selection is frozen by a parity fault in a common word (R98). -/
def State.refFrozen (s : State) : Bool := s.refParity.any (fun a => decide (a < 0x15000))

/-- The selected reference (R99): 255 for none. -/
def State.sel (s : State) : Nat := s.f A.refStatus 0 8

/-- TARGET of the switch. -/
def State.target (s : State) : Nat := s.f A.refStatus 8 8

/-- PHASE of the switch machine: 0 IDLE, 1 PREPARE, 2 SLEW. -/
def State.switchPhase (s : State) : Nat := s.f A.refStatus 16 2

/-- The FREQ-IN of a paired PPS-IN is lost, and with it the pair (R64). -/
def State.pairLost (s : State) (i : Nat) : Bool :=
  match s.refPair i with
  | some p => (s.refIn p).lost
  | none => false

/-- A reference delivers an offset in ps (R61); it is present again, a pair only with both members (R64). -/
def State.deliver (s : State) (i : Nat) (theta : Int) : State :=
  s.setRef i (fun r => { r with fresh := some theta, lost := s.pairLost i, missed := 0, lastSeen := s.ts.meas })

/-- One index is lost (R60): LOS and its count. The edges of a FREQ-IN count anew when it returns. -/
def State.loseIndex (s : State) (i : Nat) : State :=
  if (s.refIn i).lost then s
  else ((s.setRef i (fun r => { r with lost := true, edges := 0, firstEdge := none, lastEdge := none })).inc
    (A.refInLosCount i)).raise (A.refInEvent i) 2

/-- A reference is lost (R60), and with a FREQ-IN the pair that it belongs to (R64). -/
def State.lose (s : State) (i : Nat) : State :=
  (s.loseIndex i).each [2, 3, 4, 5] (fun p t => t.when (decide (t.refPair p = some i)) (fun u => u.loseIndex p))

/-- Seconds on the measurement scale. -/
def secs (n : Nat) : Nat := n * 1000000000 * 2 ^ 48

/-- TIMER shows the seconds left. -/
def State.showTimer (s : State) (i : Nat) : State :=
  let left := match (s.refIn i).timerEnd with
    | none => 0
    | some t => ceilDiv (t - s.ts.meas) (secs 1)
  s.sfW (A.refInTimer i) 0 17 left

/-- Starting a reference's timer of `n` seconds. -/
def State.startTimer (s : State) (i n : Nat) : State :=
  (s.setRef i (fun r => { r with timerEnd := some (s.ts.meas + secs n) })).showTimer i

/-- Stopping a reference's timer. -/
def State.stopTimer (s : State) (i : Nat) : State := (s.setRef i (fun r => { r with timerEnd := none })).showTimer i

/-- The timer has expired at an evaluation: its end is the evaluation nearest to it. -/
def State.timerDue (s : State) (i : Nat) : Bool :=
  match (s.refIn i).timerEnd with
  | some t => decide (t ≤ 500000000 * 2 ^ 48 + s.ts.meas)
  | none => false

/-- The reference has become a voter or ceased to be one (R81). -/
def State.showVoter (s : State) (i : Nat) : State := s.setBit (A.refInState i) 17 (phaseRef i && s.isQual i)

/-- NQUAL counts the QUALIFIED and SELECTED references 0 to 12. -/
def State.showQual (s : State) : State := s.sfW A.refStatus 18 5 (indices 13 s.isQual).length

/-- What entering a state clears (R86). -/
def RefIn.entering (r : RefIn) (q : Nat) : RefIn :=
  { r with
    cp := if q ≤ 1 then 0 else r.cp
    cf := if q ≤ 1 then 0 else r.cf
    samples := if q = 0 then [] else r.samples
    hist := if q = 0 then [] else r.hist
    clean := 0
    qualified := r.qualified || decide (q = 2) }

/-- A change of a reference's qualification state (R75): STATE_CHANGE and the journal, with the value of the statistic that alarmed
and, as OUTCOME, which one it was (R89). -/
def State.setQ (s : State) (i q : Nat) (stat : Nat := 0) (which : Nat := 0) : State :=
  let old := s.qstate i
  if old = q then s
  else
    let t := (s.sfW (A.refInState i) 0 3 q).setRef i (fun r => r.entering q)
    let t := if q ≤ 1 then (t.wr (A.refInCusumP i) 0).wr (A.refInCusumF i) 0 else t
    ((((t.showVoter i).showQual).raise (A.refInEvent i) 0).journalize 6 .module (A.refInState i) which
      (le 1 i ++ le 1 old ++ le 1 q ++ le 1 t.sel ++ le 4 stat))

/-- To CANDIDATE with QUAL_TIME running (R75). -/
def State.toCandidate (s : State) (i : Nat) : State :=
  (s.setQ i 1).startTimer i (s.f (A.refInQualTime i) 0 12)

/-- To UNAVAILABLE (R75); a DISTRUSTED reference stays (R76). -/
def State.toUnavailable (s : State) (i : Nat) : State :=
  if s.qstate i = 5 then s else (s.setQ i 0).stopTimer i

/-- A reference returns to UNAVAILABLE and its next qualification counts as its first (R79). -/
def State.requalify (s : State) (i : Nat) : State :=
  (s.setRef i (fun r => { r with qualified := false })).toUnavailable i

/-! ### Quality classes (R66 to R73) -/

/-- The class of a SyncE code (R68): option 2, enhanced code (255 for none), SSM code. -/
def ssmClass (option2 : Bool) (enhanced ssm : Nat) : Nat :=
  if option2 then
    match ssm with
    | 0x1 => 1 | 0x0 => 6 | 0x7 => 3 | 0x4 => 4 | 0xD => 4 | 0xA => 5 | 0xE => 6 | _ => 7
  else if enhanced ≠ 0xFF then
    match enhanced with
    | 0x21 => 0 | 0x23 => 0 | 0x20 => 1 | 0x22 => 5 | _ => 7
  else
    match ssm with
    | 0x2 => 1 | 0x4 => 3 | 0x8 => 4 | 0xB => 5 | _ => 7

/-- The class of a clockAccuracy in the rows of clockClass 6 and 13 (R69). -/
def accuracyClass (acc : Nat) : Nat :=
  if acc ≤ 0x20 then 0 else if acc = 0x21 then 2 else if acc ≤ 0x23 then 3 else if acc ≤ 0x25 then 4 else 5

/-- The class that R69 maps from a grandmaster's clockClass and clockAccuracy. -/
def ptpClass (cls acc : Nat) : Nat :=
  if cls = 6 ∨ cls = 13 then accuracyClass acc
  else if cls = 7 ∨ cls = 14 then accuracyClass acc + 1
  else if cls = 135 ∨ cls = 140 then 4
  else if cls = 150 ∨ cls = 160 then 5
  else if cls = 52 ∨ cls = 58 ∨ cls = 165 ∨ cls = 187 ∨ cls = 193 then 6
  else 7

/-- The class of a GNSS status and bound in ps (R70): 0 NO_FIX, 1 NAV, 2 SURVEYING, 3 T_SINGLE, 4 T_DUAL. -/
def gnssClass (status bound : Nat) : Nat :=
  match status with
  | 4 => if bound ≤ 30000 then 0 else 1
  | 3 => 1
  | 2 => 3
  | 1 => 3
  | _ => 7

/-- The class of a ToD sentence's quality digit (R71). -/
def todClass (digit : Nat) : Nat := if digit ≤ 7 then digit else 7

/-- The contacts show FAULT for the reference they are bound to (R67, R72). -/
def State.contactFault (s : State) (i : Nat) : Bool :=
  s.bit A.refQcontact 0 && decide (s.f A.refQcontact 8 4 = i) && s.bit A.refQcontactState 1

/-- The class that the ToD sentences advertise: that of the last valid one, MQ7 once they are lost (R71). -/
def State.todAdv (s : State) : Nat :=
  match s.refs.tod with
  | (_, _, c) :: _ => if (s.refIn 13).lost then 7 else c
  | [] => 7

/-- The class that a reference advertises; PPS-IN and FREQ-IN advertise nothing (R67). -/
def State.advClass (s : State) (i : Nat) : Nat :=
  if 2 ≤ i ∧ i ≤ 7 then 7 else if i = 13 then s.todAdv else (s.refIn i).adv

/-- The class of a reference by its MQ_SRC (R67). -/
def State.srcClass (s : State) (i : Nat) : Nat :=
  let stat := s.f (A.refInCfg i) 12 3
  match s.f (A.refInCfg i) 15 2 with
  | 0 => s.advClass i
  | 1 => stat
  | _ => max (s.advClass i) stat

/-- The class of a reference by its MQ_SRC and what worsens it (R67): the ToD class for a TOD-labelled PPS-IN, the contacts. -/
def State.classOf (s : State) (i : Nat) : Nat :=
  let m := if 2 ≤ i ∧ i ≤ 5 ∧ s.f (A.refInCfg i) 24 2 = 0 then max (s.srcClass i) (s.srcClass 13) else s.srcClass i
  if s.contactFault i then 7 else m

/-- The phase bound of a class in ps (R66); MQ7 has none. -/
def State.mqPhase (s : State) (m : Nat) : Nat := s.f (A.refMqPbound m) 0 32

/-- The frequency bound of a class in 10^-15 (R66). -/
def State.mqFreq (s : State) (m : Nat) : Nat := s.f (A.refMqFbound m) 0 32 * 100

/-- rho_ref of a reference (R73), saturating. A frequency-only reference has none; its RHO_REF shows 0xFFFF_FFFF
(notes/assumptions/124). -/
def State.rhoRef (s : State) (i : Nat) : Nat :=
  if i ≤ 1 then max 2000 (s.refIn i).bound
  else if i = 12 then (s.refIn i).bound
  else if phaseRef i then s.mqPhase (s.refMq i)
  else 0xFFFFFFFF

/-- Mapping the class of a reference (R62, step 2): STATE.MQ, RAW, MQ_CHANGE, RHO_REF. -/
def State.mapQuality (s : State) (i : Nat) : State :=
  let c := s.classOf i
  let t := if c = s.refMq i then s else (s.sfW (A.refInState i) 4 3 c).raise (A.refInEvent i) 1
  let t := (t.sfW (A.refInState i) 8 8 (s.refIn i).raw).setBit (A.refInState i) 18 (s.contactFault i)
  t.wr (A.refInRhoRef i) (satU32 (t.rhoRef i))

/-! ### Offsets (R61) -/

/-- The fractional frequency of a FREQ-IN over its edges since the last evaluation, in 10^-15 (R60, R174). -/
def State.freqOf (s : State) (i prescale : Nat) : Option Int :=
  match (s.refIn i).firstEdge, (s.refIn i).lastEdge with
  | some a, some b =>
    let den := (s.f (A.refInNominal i) 0 31) * (b - a).toNat
    if (s.refIn i).edges = 0 ∨ den = 0 then none
    else some (qdiv ((((s.refIn i).edges * prescale * 10 ^ 12 : Nat) : Int) * 10 ^ 15 - (den : Int) * 10 ^ 15) den)
  | _, _ => none

/-- Taking the offset of a reference (R62, step 1). DELAY is added to a pseudo-phase as it is to a phase offset, and a pair whose
FREQ-IN has ENABLE = 0 goes on without a frequency: the manual says neither (notes/assumptions/125). -/
def State.takeOffset (s : State) (i : Nat) : State :=
  let r := s.refIn i
  let off := !(s.bit (A.refInCfg i) 0) || s.refStruck i || r.lost
  let delay := s.sf (A.refInDelay i) 0 32
  let theta : Option Int :=
    if off then none
    else if phaseRef i then r.fresh.map (fun x => x + delay)
    else if freqRef i then r.freqFresh.map (fun f => qdiv (r.pseudo + f) 1000 + delay)
    else none
  let t := s.setRef i (fun r => { r with
    fresh := none
    freqFresh := none
    freq := if off then none else r.freqFresh
    pseudo := if freqRef i then (if off then 0 else r.pseudo + r.freqFresh.getD 0) else r.pseudo
    theta := theta
    last := theta.orElse (fun _ => r.last)
    evalAt := if theta.isSome then some (s.nowNs / 1000000000 * 1000000000) else r.evalAt
    missed := if theta.isSome then 0 else r.missed + 1 })
  if i ≤ 1 ∧ 3 ≤ (t.refIn i).missed then t.lose i else t

/-! ### Residuals and statistics (R81 to R86) -/

/-- Insertion into a rising list. -/
def insertInt (x : Int) : List Int → List Int
  | [] => [x]
  | y :: t => if x ≤ y then x :: y :: t else y :: insertInt x t

/-- The median; of an even count the mean of the two middle values (R83). -/
def median (l : List Int) : Option Int :=
  let r := l.foldr insertInt []
  let n := r.length
  if n = 0 then none
  else if n % 2 = 1 then some (r.getD (n / 2) 0)
  else some (qdiv (r.getD (n / 2 - 1) 0 + r.getD (n / 2) 0) 2)

/-- The values of the voters other than the oscillator for reference `i`, with references `out` left out (R81). -/
def State.voterValues (s : State) (voters : List Nat) (i : Nat) : List Int :=
  let grp := s.refGroup i
  let mem := voters.filter (fun j => decide (j ≠ i) && !(decide (grp ≠ 0) && decide (s.refGroup j = grp)))
  let alone := (mem.filter (fun j => decide (s.refGroup j = 0))).filterMap (fun j => (s.refIn j).theta)
  let groups := (List.range 15).filterMap (fun g =>
    median ((mem.filter (fun j => decide (s.refGroup j = g + 1))).filterMap (fun j => (s.refIn j).theta)))
  alone ++ groups

/-- Word `k` of the keeper's or the cartridge's model page. -/
def modelWord (cart : Bool) (k : Nat) : Nat := if cart then A.holCmodel k else A.holKmodel k

/-- A model is VALID. -/
def State.modelValid (s : State) (cart : Bool) : Bool := s.bit (modelWord cart 0) 8

/-- One tick more of an oscillator as the active one, at an instant in ns and a temperature in m°C. -/
def OscSums.add (x : OscSums) (t temp : Int) : OscSums := ⟨x.n + 1, x.t + t, x.temp + temp, x.temp2 + temp * temp⟩

/-- The integral of an oscillator's model frequency over its ticks from `x` to `y` (R82), in 10^-18 ps. -/
def State.modelIntegral (s : State) (cart : Bool) (x y : OscSums) : Int :=
  let n := y.n - x.n
  let temp := y.temp - x.temp
  let epoch : Int := (s.f (modelWord cart 2) 0 32 + s.nowNs / 1000000000 / 2 ^ 32 * 2 ^ 32 : Nat) * 1000000000
  let tr := s.sf (modelWord cart 6) 0 32
  s.sf (modelWord cart 1) 0 32 * 10 ^ 12 * n + s.sf (modelWord cart 3) 0 32 * (y.t - x.t - epoch * n) +
    s.sf (modelWord cart 4) 0 32 * (temp - tr * n) * 10 ^ 9 +
    s.sf (modelWord cart 5) 0 32 * (y.temp2 - x.temp2 - 2 * tr * temp + tr * tr * n) * 10 ^ 6

/-- The model of an oscillator that was active in an interval is VALID now. -/
def State.spanModelled (s : State) (r : EvalRec) : Bool :=
  s.modelValid (s.bit A.holStatus 0) && (decide (r.keeper.n = s.refs.keeperTicks.n) || s.modelValid false) &&
    (decide (r.cart.n = s.refs.cartTicks.n) || s.modelValid true)

/-- The oscillator voter (R82), in ps: the models as they stand, over the ticks since the evaluation CUSUM_SPAN before. -/
def State.oscVoter (s : State) : Option Int :=
  let span := s.f A.refCusumSpan 0 14
  match s.refs.hist[span - 1]? with
  | some r =>
    if s.spanModelled r then
      let hat := s.modelIntegral false r.keeper s.refs.keeperTicks + s.modelIntegral true r.cart s.refs.cartTicks
      r.ens.map (fun e =>
        e - qdiv (hat * 2 ^ 48 + (s.ts.steer - r.steer) * 10 ^ 21) (10 ^ 18 * 2 ^ 48) - (s.refs.steps - r.steps))
    else none
  | none => none

/-- The frequency residual of R84 from the samples, newest first, in 10^-15. -/
def freqResidual (samples : List Int) (span : Nat) : Option Int :=
  let n := min samples.length span
  if n < 200 then none
  else
    let new := (samples.take 100).sum
    let old := ((samples.drop (n - 100)).take 100).sum
    some (qdiv ((new - old) * 10) (n - 100))

/-- The square root of a quotient, one of its two neighbours where it is not whole. -/
def qsqrt (num den : Nat) : Nat :=
  if den = 0 then 0
  else
    let r := isqrt (num / den)
    if r * r * den = num then r else if Config.roundsUp num den then r + 1 else r

/-- The root mean square of a list. -/
def rms (l : List Int) : Nat := qsqrt ((l.map (fun x => x.natAbs * x.natAbs)).sum) l.length

/-- The rms of points about their own least-squares line (R85). -/
def lineRms (p : List (Nat × Int)) : Nat :=
  let n : Int := p.length
  let sx : Int := (p.map (fun q => (q.1 : Int))).sum
  let sy : Int := (p.map (fun q => q.2)).sum
  let sxx : Int := (p.map (fun q => (q.1 : Int) * q.1)).sum
  let sxy : Int := (p.map (fun q => (q.1 : Int) * q.2)).sum
  let syy : Int := (p.map (fun q => q.2 * q.2)).sum
  let d := n * sxx - sx * sx
  if d ≤ 0 then 0
  else qsqrt (((n * syy - sy * sy) * d - (n * sxy - sx * sy) * (n * sxy - sx * sy)).toNat) ((n * n * d).toNat)

/-- sigma_res of a reference (R85), in ps. -/
def RefIn.sigma (r : RefIn) : Nat :=
  if r.voted then rms (r.hist.filterMap (fun h => h.2.1)) else lineRms (r.hist.map (fun h => (h.1, h.2.2)))

/-- One reference's residual against a set of voters, its samples and its history (R83 to R85). -/
def RefIn.withResidual (r : RefIn) (evalNo span : Nat) (votes : List Int) : RefIn :=
  match r.theta with
  | none => { r with
      resid := none
      fres := none
      voted := !votes.isEmpty
      hist := r.hist.filter (fun h => decide (evalNo < h.1 + 64)) }
  | some th =>
    let res := (median votes).map (fun m => th - m)
    let samples := match res with
      | some x => (x :: r.samples).take 10000
      | none => r.samples
    { r with
      resid := res
      fres := if res.isSome then freqResidual samples span else none
      voted := !votes.isEmpty
      samples := samples
      hist := (((evalNo, res, th) :: r.hist).filter (fun h => decide (evalNo < h.1 + 64))) }

/-- One reference's drift statistics (R86): tolerances in ps and 10^-15. -/
def RefIn.withCusum (r : RefIn) (tolP tolF : Int) : RefIn :=
  match r.resid with
  | none => r
  | some x => { r with
      cp := max 0 (r.cp + x.natAbs - tolP)
      cf := match r.fres with
        | some f => max 0 (r.cf + f.natAbs - tolF)
        | none => r.cf }

/-- Forming the residuals of every reference 0 to 12 (R62, step 3). -/
def State.formResiduals (s : State) (voters : List Nat) : State :=
  let osc := s.oscVoter.toList
  let span := s.f A.refCusumSpan 0 14
  { s with refs := { s.refs with
      ins := (List.range 14).map (fun i =>
        let r := s.refIn i
        if i ≤ 12 then r.withResidual s.refs.evalNo span (s.voterValues voters i ++ osc) else r) } }

/-- Updating the statistics of the references that keep them (R77, R86). -/
def State.updateStats (s : State) : State :=
  let tolP : Int := s.f A.refTolPhase 0 14 * 1000
  let tolF : Int := s.f A.refTolFreq 0 17 * 100
  { s with refs := { s.refs with
      ins := (List.range 14).map (fun i =>
        let r := s.refIn i
        if i ≤ 12 ∧ 2 ≤ s.qstate i then r.withCusum tolP tolF else r) } }

/-- The registers that show a reference's residuals and statistics. -/
def State.showStats (s : State) (i : Nat) : State :=
  let r := s.refIn i
  let t := s.setBit (A.refInState i) 19 (!r.voted)
  ((t.wr (A.refInSigma i) (satU32 r.sigma)).wr (A.refInCusumP i) (satU32 (r.cp / 1000).toNat)).wr (A.refInCusumF i)
    (satU32 (r.cf / 1000).toNat)

/-- The full-width read of OFFSET_LO latches the page's offset and residual words (R99). -/
def State.latchOffset (s : State) (i : Nat) : State :=
  let r := s.refIn i
  ((s.wr64 (A.refInOffsetLo i) (r.last.getD 0)).wr (A.refInResid i)
    (match r.resid with
     | some x => sat32 x
     | none => 0x80000000)).wr (A.refInFresid i)
    (match r.fres with
     | some x => sat32 x
     | none => 0x80000000)

/-! ### Qualification (R75 to R79) -/

/-- A qualification check fails (R78). -/
def State.checkFails (s : State) (i : Nat) : Bool :=
  let r := s.refIn i
  match r.resid with
  | none => false
  | some x =>
    (decide (s.ts.rho ≠ 0xFFFFFFFF) && decide (s.f A.refTolPhase 0 14 * 1000 + s.ts.rho < x.natAbs)) ||
    (decide (s.f A.refCusumSpan 0 14 ≤ r.samples.length) &&
      (match r.fres with
       | some f => decide (s.f A.refTolFreq 0 17 * 100 < f.natAbs)
       | none => false))

/-- The reference may not be used: disabled, lost, of a class beyond MQ_LIMIT, or struck (R75, R98). -/
def State.unusable (s : State) (i : Nat) : Bool :=
  !(s.bit (A.refInCfg i) 0) || (s.refIn i).lost || decide (s.refMq i = 7) || decide (s.f A.refCtl 4 3 < s.refMq i) ||
  s.refStruck i || s.isPaired i || s.pairLost i

/-- A CANDIDATE whose timer expires (R75). -/
def State.qualTimeExpire (s : State) (i : Nat) : State :=
  if s.switchPhase ≠ 2 ∧ !(s.refIn i).qualified then (s.setQ i 2).stopTimer i
  else (s.setQ i 4).startTimer i (s.f A.refWtr 0 12)

/-- A WAIT_RESTORE reference whose timer expires (R75). -/
def State.wtrExpire (s : State) (i : Nat) : State := (s.setQ i 2).stopTimer i

/-- A failed check (R75, R78). -/
def State.qualFail (s : State) (i : Nat) : State :=
  ((s.toCandidate i).inc (A.refInQfailCount i)).raise (A.refInEvent i) 3

/-- A NEAREST-labelled PPS-IN stays CANDIDATE in FREE_RUN (R63). -/
def State.heldCandidate (s : State) (i : Nat) : Bool :=
  decide (2 ≤ i) && decide (i ≤ 5) && decide (s.f (A.refInCfg i) 24 2 = 1) && decide (s.tscMode = 0)

/-- The release from DISTRUSTED is due (R77). -/
def State.releaseDue (s : State) (i : Nat) : Bool :=
  s.timerDue i && decide (s.f A.refCusumSpan 0 14 ≤ (s.refIn i).clean)

/-- The qualification state of one reference at an evaluation (R75). -/
def State.qualify (s : State) (i : Nat) : State :=
  if i = 13 then
    if (s.bit (A.refInCfg 13) 0) && !(s.refIn 13).lost && !(s.refStruck 13) then s.setQ 13 2 else s.setQ 13 0
  else
    let t := s.setBit (A.refInState i) 16 (s.isPaired i)
    let t := if t.qstate i = 5 then t
      else if t.unusable i then t.toUnavailable i
      else if t.qstate i = 0 then t.toCandidate i
      else if (t.qstate i = 1 ∨ t.qstate i = 4) ∧ t.checkFails i then t.qualFail i
      else if t.qstate i = 1 ∧ t.timerDue i ∧ !(t.heldCandidate i) then t.qualTimeExpire i
      else if t.qstate i = 4 ∧ t.timerDue i then t.wtrExpire i
      else t
    t.showTimer i

/-- The run that release needs, after the statistics of the evaluation (R77). -/
def State.cleanRun (s : State) (i : Nat) : State :=
  if s.qstate i = 5 then
    let r := s.refIn i
    let ok := r.resid.isSome && decide (r.cp = 0) && decide (r.cf = 0)
    let t := s.setRef i (fun r => { r with clean := if ok then r.clean + 1 else 0 })
    if t.releaseDue i then t.toCandidate i else t
  else s

/-! ### Distrust (R86 to R89) -/

/-- The unit of the loop's frequency state in 2^-48 (R74). -/
def integUnit : Nat := 10 ^ 42

/-- A reference becomes DISTRUSTED (R75), by the statistic `which` of R89. -/
def State.distrust (s : State) (i stat which : Nat) : State :=
  let wasSel := decide (s.qstate i = 3)
  let t := ((s.setQ i 5 stat (Config.statisticCode which)).startTimer i (s.f A.refDistrustHold 0 17)).inc (A.refInDistrustCount i)
  let t := t.raise A.refEvent 5
  if wasSel then
    let from_ := max (t.refs.evalNo - t.f A.refCusumSpan 0 14) (t.refIn i).selEval
    let back := t.refs.evalNo - from_
    let freq := match t.refs.hist[back - 1]? with
      | some r => r.freq
      | none => t.sf A.tscFreqCorr 0 32
    let freq := if back = 0 then t.sf A.tscFreqCorr 0 32 else freq
    { (t.wr A.tscFreqCorr (wordOfInt freq)) with refs := { t.refs with integ := freq * integUnit, afterDistrust := true } }
  else t

/-- The consistency alarms that are due, ascending (R88). -/
def State.dueConsistency (s : State) : List Nat :=
  [0, 1].filter (fun i => (s.refIn i).alarm && (decide (2 ≤ s.qstate i) && decide (s.qstate i ≤ 4)))

/-- The drift alarms of an evaluation (R86). -/
def State.driftAlarm (s : State) (i : Nat) : Bool :=
  let r := s.refIn i
  decide (2 ≤ s.qstate i) && decide (s.qstate i ≤ 4) && r.resid.isSome &&
  (decide ((s.f A.refCusumHPhase 0 20 * 1000 : Nat) ≤ r.cp) || decide ((s.f A.refCusumHFreq 0 20 * 1000 : Nat) ≤ r.cf))

/-- Alarm `i` is taken before alarm `j` (R87): a larger max(cp/H_P, cf/H_F), compared without division. -/
def State.alarmBefore (s : State) (i j : Nat) : Bool :=
  let hp : Int := s.f A.refCusumHPhase 0 20
  let hf : Int := s.f A.refCusumHFreq 0 20
  let v : Nat → Int := fun k => max ((s.refIn k).cp * hf) ((s.refIn k).cf * hp)
  decide (v j < v i)

/-- The drift alarm that is taken first (R87). -/
def State.firstAlarm (s : State) : Option Nat :=
  (indices 13 s.driftAlarm).foldl (fun b i => match b with
    | none => some i
    | some j => if s.alarmBefore i j then some i else some j) none

/-- The residuals and statistics anew without the references `out` (R87, R88), from the statistics of before the
evaluation. -/
def State.recompute (s : State) (pre : List RefIn) (voters out : List Nat) : State :=
  let osc := s.oscVoter.toList
  let span := s.f A.refCusumSpan 0 14
  let tolP : Int := s.f A.refTolPhase 0 14 * 1000
  let tolF : Int := s.f A.refTolFreq 0 17 * 100
  { s with refs := { s.refs with
      ins := (List.range 14).map (fun i =>
        let r := s.refIn i
        let p := pre.getD i RefIn.empty
        if i = 13 ∨ out.contains i then r
        else
          let q := ({ r with
            cp := if s.qstate i ≤ 1 then 0 else p.cp
            cf := if s.qstate i ≤ 1 then 0 else p.cf
            samples := if r.samples.isEmpty then [] else p.samples
            hist := if r.hist.isEmpty then [] else p.hist } : RefIn).withResidual s.refs.evalNo span
              (s.voterValues voters i ++ osc)
          if 2 ≤ s.qstate i then q.withCusum tolP tolF else q) } }

/-- Taking the alarms of an evaluation one at a time (R87); at most 13 can be taken. -/
def State.takeAlarms (pre : List RefIn) : Nat → List Nat → List Nat → State → State
  | 0, _, _, s => s
  | n + 1, voters, out, s =>
    match s.firstAlarm with
    | none => s
    | some i =>
      let r := s.refIn i
      let phase := decide ((s.f A.refCusumHPhase 0 20 * 1000 : Nat) ≤ r.cp)
      let freq := decide ((s.f A.refCusumHFreq 0 20 * 1000 : Nat) ≤ r.cf)
      let stat := if phase then (r.cp / 1000).toNat else (r.cf / 1000).toNat
      let t := ((s.when phase (fun t => t.raise (A.refInEvent i) 4)).when freq (fun t => t.raise (A.refInEvent i) 5)).distrust i stat
        (b2n phase + 2 * b2n freq)
      let left := voters.filter (fun j => decide (j ≠ i))
      State.takeAlarms pre n left (i :: out) (t.recompute pre left (i :: out))

/-- Step 5 of an evaluation: consistency alarms first, then drift alarms (R87, R88). `pre` holds the statistics of before
the evaluation. -/
def State.distrustDecisions (s : State) (pre : List RefIn) (voters : List Nat) : State :=
  let due := s.dueConsistency
  let t := s.each due (fun i u => (u.raise (A.refInEvent i) 6).distrust i 0 0)
  let t := t.each [0, 1] (fun i u => u.setRef i (fun r => { r with alarm := false }))
  let left := voters.filter (fun j => !due.contains j)
  let t := t.when (!due.isEmpty) (fun t => t.recompute pre left due)
  State.takeAlarms pre 13 left due t

/-! ### Selection (R93, R94) -/

/-- Reference `i` ranks above `j`: phase before frequency, then class, then priority. -/
def State.ranksAbove (s : State) (i j : Nat) : Bool :=
  let pi := b2n (phaseRef i)
  let pj := b2n (phaseRef j)
  decide (pj < pi) ||
  (decide (pi = pj) && decide (s.refMq i < s.refMq j)) ||
  (decide (pi = pj) && decide (s.refMq i = s.refMq j) && decide (s.refPrio i < s.refPrio j))

/-- The best reference without a force. -/
def State.bestRef (s : State) : Option Nat :=
  (indices 13 s.isQual).foldl (fun b i => match b with
    | none => some i
    | some j => if s.ranksAbove i j then some i else some j) none

/-- The choice of an evaluation (R93); `force` is the force that acts. -/
def State.choose (s : State) (force : Nat) : Option Nat :=
  if force ≠ 0xFF ∧ s.isQual force then some force
  else
    match s.bestRef with
    | none => none
    | some b =>
      if !(s.bit A.refCtl 0) && decide (s.sel ≠ 0xFF) && decide (s.qstate s.sel = 3) &&
        decide (phaseRef s.sel = phaseRef b) && decide (s.refMq s.sel = s.refMq b) then some s.sel else some b

/-- SEL changes: STATUS, TSC.STATE.SEL_REF and FREQ_ONLY, SELECT_CHANGE; the 2 s of R442 bit 2 begin or end. -/
def State.setSel (s : State) (i : Nat) : State :=
  if s.sel = i then s
  else
    let t := (s.sfW A.refStatus 0 8 i).sfW A.tscState 8 8 i
    let t := t.setBit A.tscState 6 (freqRef i)
    let t := if phaseRef i then { t with refs := { t.refs with lastPhase := some i } } else t
    let t := { t with pwr := { t.pwr with noSelAt := if i = 0xFF then some t.ts.meas else none, noSel := false } }
    t.raise A.refEvent 0

/-- The loop's bandwidth for the selected reference, in microhertz (R74). -/
def State.loopBw (s : State) (i : Nat) : Nat :=
  if (s.refPair i).isSome then 50 else s.f (A.refInBw i) 0 21

/-- BUILDOUT in ns (R99): b of the current or last switch, rounded as R38 rounds. -/
def State.showBuildout (s : State) (b : Int) : State := s.wr A.refBuildout (sat32 (roundNs b))

/-- PREPARE toward a reference begins (R96). -/
def State.startPrepare (s : State) (c : Nat) (ev : Nat) : State :=
  let t := (s.sfW A.refStatus 8 8 c).sfW A.refStatus 16 2 1
  let t := { t with refs := { t.refs with prepEval := t.refs.evalNo } }
  (t.showBuildout (if phaseRef c then (t.refIn c).last.getD 0 else 0)).raise A.refEvent ev

/-- The switch machine returns to IDLE. -/
def State.switchIdle (s : State) : State :=
  let t := (s.sfW A.refStatus 8 8 0xFF).sfW A.refStatus 16 2 0
  { t with refs := { t.refs with forcedOnce := false } }

/-- The switch completes (R96). -/
def State.switchDone (s : State) : State := (s.switchIdle.inc A.refSwitchCount).raise A.refEvent 2

/-- R90 withholds a step from the offset of the selected reference. -/
def State.stepVetoed (s : State) : Bool :=
  match (s.refIn s.sel).resid with
  | some x => decide (s.f A.refTolPhase 0 14 * 1000 < x.natAbs)
  | none => false

/-- An offset of the selected reference under R90: a step is withheld while the residual is out of tolerance. -/
def State.handleSelected (s : State) (theta : Int) : State :=
  if s.stepLimit < theta.natAbs ∧ s.stepVetoed ∧ s.effPolicy ≠ 3 then
    let t := (s.raise A.refEvent 9).setBit (A.refInState s.sel) 20 true
    { t with refs := { t.refs with waitOffset := true } }
  else
    let t := s.setBit (A.refInState s.sel) 20 false
    ({ t with refs := { t.refs with waitOffset := false } }).handleOffset theta t.sel

/-- The anchor and the terms of the holdover radius are dropped (R117); their registers read as after reset. -/
def State.dropAnchor (s : State) : State :=
  ({ s with hol := { s.hol with anchor := none, uY := 0, uA := 0, uT := 0, freqAided := false } }).each
    [A.holAnchor, A.holRho0, A.holUy, A.holUa, A.holUt, A.holHoElapsed] (fun a t => t.wr a (resetOf a))

/-- A phase reference is SELECTED and its offsets steer: ACQUIRING (R55, R117). -/
def State.acquire (s : State) : State := s.dropAnchor.setMode 1

/-- The loop steers: from the selected phase reference, or from a frequency-only one (R74). -/
def State.loopRuns (s : State) : Bool :=
  decide (s.tscMode = 1) || decide (s.tscMode = 2) || (freqRef s.sel && decide (s.qstate s.sel = 3))

/-- PREPARE ends (R96): the target is SELECTED, the build-out is taken, SLEW begins; a frequency-only target completes. The loop
keeps its frequency state, and starts from FREQ_CORR where it did not run (R74, R117). -/
def State.endPrepare (s : State) : State :=
  let c := s.target
  let old := s.sel
  let t := if old ≠ 0xFF ∧ s.qstate old = 3 then s.setQ old 2 else s
  let t := (t.setQ c 3).setSel c
  let t := t.setRef c (fun r => { r with selEval := t.refs.evalNo })
  let t := { t with refs := { t.refs with
    integ := if s.loopRuns then t.refs.integ else t.sf A.tscFreqCorr 0 32 * integUnit
    afterDistrust := false
    phaseZero := if phaseRef c then 0 else (t.refIn c).last.getD 0 } }
  let t := t.sfW A.refStatus 16 2 2
  if phaseRef c then
    let b := (t.refIn c).last.getD 0
    let t := t.showBuildout b
    let t := if t.tscSafe ∨ t.tscMode = 1 ∨ t.tscMode = 2 then t else t.acquire
    t.handleSelected b
  else (t.showBuildout 0).switchDone

/-- A slew or a switch's SLEW is over: the switch completes when nothing is left (R96). -/
def State.slewOver (s : State) : State :=
  if s.switchPhase = 2 ∧ s.ts.slewRem = 0 ∧ s.ts.step.isNone ∧ !s.refs.waitOffset then s.switchDone else s

/-- Starting or not starting a switch toward the choice with the machine idle (R94). -/
def State.switchFrom (s : State) (c : Option Nat) : State :=
  match c with
  | none => s
  | some c => if c = s.sel ∨ s.refFrozen then s else s.startPrepare c 1

/-- The target of a switch ranks below a reference that was already QUALIFIED before this evaluation (R97). -/
def State.overtaken (s : State) (was : List Nat) : Bool :=
  was.any (fun j => s.isQual j && decide (j ≠ s.target) && s.ranksAbove j s.target)

/-- The switch is abandoned, and selection runs again (R97). -/
def State.abandonSwitch (s : State) (c : Option Nat) : State := (s.switchIdle.raise A.refEvent 3).switchFrom c

/-- The switch machine at an evaluation (R94, R97). `c` is the choice, `was` the references that were QUALIFIED or SELECTED
before this evaluation, `force` the force that acts. PREPARE lasts one evaluation interval. Two happenings have no row in R97: a
force that is cancelled in PREPARE so that another reference, QUALIFIED before, is chosen: the switch is abandoned; and a posted
step that awaits the host when its reference is lost or distrusted in SLEW: it stays pending (notes/assumptions/126). -/
def State.switchMachine (s : State) (c : Option Nat) (was : List Nat) (force : Nat) : State :=
  match s.switchPhase with
  | 1 =>
    let g := s.target
    if !(s.isQual g) then s.abandonSwitch c
    else
      match c with
      | none => s
      | some c =>
        if s.refFrozen ∨ (c = g ∧ (g = force ∨ s.overtaken was = false)) then
          (if s.refs.prepEval < s.refs.evalNo then s.endPrepare else s)
        else if c = force then
          let t := s.startPrepare c 4
          { t with refs := { t.refs with forcedOnce := true } }
        else if s.overtaken was ∨ was.contains c then s.abandonSwitch (some c)
        else s.startPrepare c 4
  | 2 =>
    if s.qstate s.sel = 3 then s
    else ({ s with ts := { s.ts with slewRem := 0, ySlew := 0 } }.switchIdle).switchFrom c
  | _ => s.switchFrom c

/-- The force that acts (R95, R97): a change after FORCE has replaced a target is held until the switch completes. -/
def State.forceNow (s : State) : Nat :=
  if s.switchPhase ≠ 0 ∧ s.refs.forcedOnce then s.refs.forceAct else s.f A.refForce 0 8

/-- The force takes part in this evaluation: FORCE_IGNORED where it cannot be honoured (R95). -/
def State.noteForce (s : State) (force : Nat) : State :=
  ({ s with refs := { s.refs with forceAct := force } }).when (decide (force ≠ 0xFF) && !(s.isQual force))
    (fun t => t.raise A.refEvent 6)

/-- A selected reference that is no longer SELECTED leaves SEL at 255. -/
def State.dropSel (s : State) : State :=
  s.when (decide (s.sel ≠ 0xFF) && decide (s.qstate s.sel ≠ 3)) (fun t => t.setSel 0xFF)

/-- NO_REFERENCE (R94). -/
def State.noteChoice (s : State) (chosen : Bool) : State :=
  let t := s.when (!chosen && decide (s.refs.chose ≠ some false)) (fun t => t.raise A.refEvent 8)
  { t with refs := { t.refs with chose := some chosen } }

/-- Steps 6 and 7 of an evaluation: selection, NO_REFERENCE and the switch machine (R93 to R97). -/
def State.selection (s : State) (was : List Nat) : State :=
  let t := (s.noteForce s.forceNow).dropSel
  (t.noteChoice (t.choose s.forceNow).isSome).switchMachine (t.choose s.forceNow) was s.forceNow

/-! ### Labels and contacts (R63, R72) -/

/-- A PPS-IN edge at a timescale instant in ps is labelled with its second (R63), by the last valid sentence that ended 10 to 990 ms
before it or by the timescale, or is unlabelled. -/
def State.labelPps (s : State) (i : Nat) (ps : Int) : Option Int :=
  if s.f (A.refInCfg i) 24 2 = 0 then
    let at_ := s.ts.meas - ((s.nowPs : Int) - ps).toNat * 2 ^ 48 / 1000
    if s.bit A.refTodCfg 0 ∧ s.f A.refTodCfg 8 4 = i then
      (s.refs.tod.find? (fun e => decide (10000000 * 2 ^ 48 + e.2.1 ≤ at_) && decide (at_ ≤ 990000000 * 2 ^ 48 + e.2.1))).map
        (fun e => e.1)
    else none
  else
    let r := ps % 1000000000000
    if (r - 500000000000).natAbs ≤ 1000 then none
    else if r < 500000000000 then some (ps / 1000000000000) else some (ps / 1000000000000 + 1)

/-- A leading edge of PPS-IN tagged at `ps` on the timescale: its offset, or a missing edge (R61, R63). -/
def State.ppsEdge (s : State) (i : Nat) (ps : Int) : State :=
  match s.labelPps i ps with
  | some sec => s.deliver i (sec * 1000000000000 - ps)
  | none => s.lose i

/-- The loss limit of a reference in ns, where a time gives it (R60). -/
def lossLimit (i : Nat) : Option Nat :=
  if 2 ≤ i ∧ i ≤ 5 then some 1500000000
  else if i = 6 ∨ i = 7 then some 10000000
  else if i = 10 ∨ i = 11 then some 5000000000
  else if i = 12 ∨ i = 13 then some 2000000000
  else none

/-- The loss timer of a reference has expired (R60). -/
def State.lossDue (s : State) (i : Nat) : Bool :=
  match lossLimit i with
  | some n => decide ((s.refIn i).lastSeen + n * 2 ^ 48 < s.ts.meas)
  | none => decide (i ≤ 1) && decide (3 ≤ (s.refIn i).missed)

/-- A FREQ-IN whose rate departs from NOMINAL by more than 10^-6 is lost (R60). -/
def freqOff (f : Option Int) : Bool := f.any (fun x => decide (1000000000 < x.natAbs))

/-! ### REF_CFG (R79, R86, R100) -/

/-- The fixed bandwidth of a reference (R74), none for GNSS. -/
def fixedBw (i : Nat) : Option Nat :=
  if i ≤ 1 then none
  else if i ≤ 5 then some 1000
  else if i ≤ 7 then some 50
  else if i ≤ 9 then some 5000
  else if i ≤ 11 then some 1000000
  else if i = 12 then some 500000
  else some 0

/-- The reasons of REF_CFG (R100). -/
def checkRefCfg (w : Nat → Word) : Option Nat :=
  let pair : Nat → Nat := fun i => fld (w (A.refInCfg i)) 20 4
  let idx := List.range 14
  let tod := bitOf (w A.refTodCfg) 0
  let bound := fld (w A.refTodCfg) 8 4
  firstReason [
    (!rangesOk 4 w, 0x40),
    (idx.any (fun i => decide (pair i ≠ 15) && !(decide (2 ≤ i ∧ i ≤ 5) && decide (pair i = 6 ∨ pair i = 7))) ||
      [2, 3, 4, 5].any (fun i => [2, 3, 4, 5].any (fun j => decide (i < j) && decide (pair i = pair j) && decide (pair i ≠ 15))),
      0x41),
    (idx.any (fun i => match fixedBw i with
      | some b => decide (fld (w (A.refInBw i)) 0 21 ≠ b)
      | none => false), 0x42),
    ([2, 3, 4, 5].any (fun i => decide (fld (w (A.refInCfg i)) 24 2 = 0) && !(tod && decide (bound = i))) ||
      (tod && !decide (2 ≤ bound ∧ bound ≤ 5)), 0x43),
    ((List.range 6).any (fun k => decide ((w (A.refMqPbound (k + 1))).toNat < (w (A.refMqPbound k)).toNat) ||
      decide ((w (A.refMqFbound (k + 1))).toNat < (w (A.refMqFbound k)).toNat)), 0x44),
    (decide (12 < fld (w A.refQcontact) 8 4), 0x45)]

/-- A change that makes a reference qualify anew (R79): ENABLE, GROUP, PAIR, LABEL, DELAY, PATH_UNC, NOMINAL. -/
def requalifies (old new : Nat → Word) (i : Nat) : Bool :=
  let m : Word := 0x03F00F01
  decide (old (A.refInCfg i) &&& m ≠ new (A.refInCfg i) &&& m) || decide (old (A.refInDelay i) ≠ new (A.refInDelay i)) ||
  decide (old (A.refInPathUnc i) ≠ new (A.refInPathUnc i)) || decide (old (A.refInNominal i) ≠ new (A.refInNominal i))

/-- The drift parameters differ (R86). -/
def driftChanged (old new : Nat → Word) : Bool :=
  [A.refTolPhase, A.refTolFreq, A.refCusumHPhase, A.refCusumHFreq, A.refCusumSpan].any (fun a => decide (old a ≠ new a))

/-- QCONTACT_STATE.FAULT follows the pair and POLARITY; the bound reference's CONTACT_FAULT event (R72). -/
def State.showContact (s : State) : State :=
  let closed := s.bit A.refQcontactState 0
  let fault := s.bit A.refQcontact 0 && (closed == s.bit A.refQcontact 1)
  let was := s.bit A.refQcontactState 1
  let t := s.setBit A.refQcontactState 1 fault
  if fault && !was then t.raise (A.refInEvent (s.f A.refQcontact 8 4)) 7 else t

/-- What the application of REF_CFG changes besides the words (R79, R86, R98); `old` gives the words before it. -/
def State.applyRefCfg (s : State) (old : Nat → Word) : State :=
  let t := s.each (List.range 14) (fun i u => if requalifies old u.rd i then u.requalify i else u)
  let t := if driftChanged old t.rd then
    { t with refs := { t.refs with ins := t.refs.ins.map (fun (r : RefIn) => { r with cp := 0, cf := 0, clean := 0 }) } }
    else t
  (t.setBit A.refStatus 23 false).showContact

/-- A parity fault in a REF word (R98). -/
def State.refParityFault (s : State) (a : Nat) : State :=
  let t := s.raise A.refEvent 7
  if a < 0x15000 then t.setBit A.refStatus 23 true else t.toUnavailable ((a - 0x15000) / 0x100)

end Sys2Proof.Machine
end

