-- ==== Sys2Proof/Machine/Holdover.lean ====
section
/-!
DEFINITION. Oscillators, their models, holdover and the cartridge (R101 to R128): bounds (R108), anchor (R110 to R112),
handover (R103 to R105), samples and fits (R106, R107), the cartridge's states (R118 to R121).
-/

namespace Sys2Proof.Machine

/-! ### Oscillators and their bounds (R101, R108) -/

/-- The cartridge is the active oscillator (R101). -/
def State.cartActive (s : State) : Bool := s.bit A.holStatus 0

/-- CART_STATE (R118). -/
def State.cartState (s : State) : Nat := s.f A.holStatus 1 3

/-- The bounds of an oscillator type (R108): UY floor, UA floor, UT floor, TCO, UY and UA without a model; in 10^-15,
10^-18/s, 10^-15, 10^-15/K, 10^-15, 10^-18/s. -/
structure OscBounds where
  uy : Nat
  ua : Nat
  ut : Nat
  tco : Nat
  uyNone : Nat
  uaNone : Nat
  deriving DecidableEq, Repr

/-- The keeper. -/
def keeperBounds : OscBounds := ⟨10000, 1000, 5000, 10000, 100000, 10000⟩

/-- A cartridge by its code: 0x41 ZC-A, otherwise ZC-Q. -/
def cartBounds (code : Nat) : OscBounds :=
  if code = 0x41 then ⟨2500, 15, 500, 1000, 20000, 100⟩ else ⟨3000, 100, 1000, 2000, 50000, 2000⟩

/-- The bounds of the keeper or of the cartridge fitted. -/
def State.oscBounds (s : State) (cart : Bool) : OscBounds :=
  if cart then cartBounds (s.f A.holCartId 0 8) else keeperBounds

/-- u_y of an oscillator in 10^-15 (R108). -/
def State.oscUy (s : State) (cart : Bool) : Nat :=
  if s.modelValid cart then s.f (modelWord cart 11) 0 32 else (s.oscBounds cart).uyNone

/-- u_a of an oscillator in 10^-18/s (R108). -/
def State.oscUa (s : State) (cart : Bool) : Nat :=
  if s.modelValid cart then s.f (modelWord cart 12) 0 32 else (s.oscBounds cart).uaNone

/-- The temperature of an oscillator in m°C. -/
def State.oscTemp (s : State) (cart : Bool) : Int := if cart then s.sf A.holTempCart 0 32 else s.sf A.holTempKeeper 0 32

/-- How far an oscillator's temperature lies outside its fitted range widened by 0.5 K, in mK (R108). -/
def State.tempOutside (s : State) (cart : Bool) : Nat :=
  let t := s.oscTemp cart
  ((max (s.sf (modelWord cart 7) 0 32 - 500 - t) (t - (s.sf (modelWord cart 8) 0 32 + 500))).toNat)

/-- u_T of an oscillator in 10^-15 (R108). -/
def State.oscUt (s : State) (cart : Bool) : Nat :=
  let b := s.oscBounds cart
  if s.modelValid cart then b.ut + (qdiv ((b.tco * s.tempOutside cart : Nat) : Int) 1000).toNat else b.ut

/-- A frequency-only reference is selected. -/
def State.freqOnly (s : State) : Bool := freqRef s.sel && decide (s.qstate s.sel = 3)

/-- u_y and u_a in force: of the frequency-only reference selected, or of the active oscillator (R52, R73). -/
def State.boundsNow (s : State) : Nat × Nat :=
  if s.freqOnly then (s.mqFreq (s.refMq s.sel), 0) else (s.oscUy s.cartActive, s.oscUa s.cartActive)

/-! ### The model's prediction (R111) -/

/-- AGE, C1 and C2 of an oscillator, 0 while its model is not VALID (R108). -/
def State.modelTerm (s : State) (cart : Bool) (k : Nat) : Int :=
  if s.modelValid cart then s.sf (modelWord cart k) 0 32 else 0

/-- y_h of R111 in 10^-27 from an anchor. -/
def State.holdFreq (s : State) (a : Anchor) : Int :=
  let c := s.cartActive
  let t := s.oscTemp c
  let tr := s.sf (modelWord c 6) 0 32
  a.y * 10 ^ 12 + s.modelTerm c 3 * ((s.nowNs : Int) - a.t) + s.modelTerm c 4 * (t - a.temp) * 10 ^ 9 +
    s.modelTerm c 5 * ((t - tr) * (t - tr) - (a.temp - tr) * (a.temp - tr)) * 10 ^ 6

/-- The limit of FREQ_CORR, 5.0 × 10^-6 in 2^-48 (R21). -/
def freqMax : Int := 1407374883

/-- Setting FREQ_CORR within its limit; FREQ_LIMIT where it is clamped (R21). -/
def State.setFreq (s : State) (x : Int) : State :=
  (s.wr A.tscFreqCorr (wordOfInt (clamp (-freqMax) freqMax x))).when (decide (freqMax < x.natAbs)) (fun t => t.raise A.tscEvent 10)

/-- FREQ_CORR follows the model in holdover (R111). -/
def State.holdSteer (s : State) : State :=
  match s.hol.anchor with
  | some a => s.setFreq (qdiv (-(s.holdFreq a) * 2 ^ 48) (10 ^ 27))
  | none => s

/-! ### Anchor and radius (R52, R110 to R112) -/

/-- Changing the oscillator block's internal state. -/
def State.setHol (s : State) (f : Hol → Hol) : State := { s with hol := f s.hol }

/-- The cistern's timescale and anchor region holds the present radius and state (R110, R125). -/
def State.cisternStamp (s : State) : State := s.setHol (fun h => { h with cisternTime := some (s.ts.rho, s.tscMode) })

/-- The anchoring registers show what R52 uses. -/
def State.showAnchor (s : State) : State :=
  let y := match s.hol.anchor with
    | some a => sat32 a.y
    | none => 0x80000000
  let rho0 := match s.hol.anchor with
    | some a => a.rho0
    | none => 0xFFFFFFFF
  (((((s.wr A.holAnchor y).wr A.holRho0 (satU32 rho0)).wr A.holUy (satU32 s.hol.uY)).wr A.holUa (satU32 s.hol.uA)).wr A.holUt
    (satU32 s.hol.uT)).wr A.holHoElapsed 0

/-- R52 starts anew from `rho0` with the bounds in force now; u_T never falls where `keepUt` holds it (R112). -/
def State.startHold (s : State) (a : Anchor) (keepUt : Nat) : State :=
  let b := s.boundsNow
  let ut := max keepUt (s.oscUt s.cartActive)
  let t := { s with
    ts := { s.ts with holdStart := s.ts.meas }
    hol := { s.hol with anchor := some a, uY := b.1, uA := b.2, uT := ut, freqAided := s.freqOnly } }
  t.showAnchor.cisternStamp

/-- The ticks of ENTRY_AVG up to the last evaluation with an offset (R110). -/
def State.entryTicks (s : State) : List (Nat × Int × Int) :=
  s.ts.freqHist.filter (fun h => decide (h.1 ≤ s.refs.lastGood) &&
    decide (s.refs.lastGood ≤ h.1 + s.f A.holEntryAvg 0 12 * 1000000000))

/-- The mean of -FREQ_CORR over ticks, in 10^-15. -/
def meanFreq (l : List (Nat × Int × Int)) : Int :=
  qdiv (-((l.map (fun h => h.2.1)).sum) * 10 ^ 15) (l.length * 2 ^ 48)

/-- The anchor of an entry into HOLDOVER (R110). -/
def State.entryAnchor (s : State) : Anchor :=
  let l := s.entryTicks
  let now : Int := -(s.sf A.tscFreqCorr 0 32)
  let y := if s.refs.afterDistrust ∨ l.isEmpty then qdiv (now * 10 ^ 15) (2 ^ 48) else meanFreq l
  let back := s.measNs - (s.refs.lastGood - s.f A.holEntryAvg 0 12 * 500000000)
  let temp := if l.isEmpty then s.oscTemp s.cartActive else qdiv ((l.map (fun h => h.2.2)).sum) l.length
  ⟨y, s.nowNs - back, temp, s.ts.rho⟩

/-- Entry into HOLDOVER from LOCKED or ACQUIRING (R55, R110). -/
def State.enterHoldover (s : State) : State :=
  let t := (s.startHold s.entryAnchor 0).raise A.holEvent 0
  { t.setMode 3 with refs := { t.refs with afterDistrust := false }, ts := { (t.setMode 3).ts with slewRem := 0, ySlew := 0 } }

/-- A re-anchoring (R112): rho_0 is the present radius plus an increment. -/
def State.reanchorWith (s : State) (f : Anchor → Anchor) (inc : Nat) : State :=
  match s.hol.anchor with
  | some a =>
    let t := s.startHold { f a with rho0 := min 0xFFFFFFFF (s.ts.rho + inc) } s.hol.uT
    (t.inc A.holAnchorCount).raise A.holEvent 1
  | none => s

/-- A re-anchoring that keeps the model's anchor. -/
def State.reanchor (s : State) (inc : Nat) : State := s.reanchorWith (fun a => a) inc

/-- The new anchor after the deselection of a frequency-only reference (R112). -/
def State.freshAnchor (s : State) (a : Anchor) : Anchor :=
  let l := s.ts.freqHist.filter (fun h => decide (s.measNs ≤ 1000000000 + h.1))
  { a with
    y := if l.isEmpty then qdiv (-(s.sf A.tscFreqCorr 0 32) * 10 ^ 15) (2 ^ 48) else meanFreq l
    t := s.nowNs
    temp := s.oscTemp s.cartActive }

/-- u_y and u_a follow the class of the frequency-only reference that is selected now (R73). -/
def State.aidBounds (s : State) : State :=
  let b := s.boundsNow
  let t := s.setHol (fun h => { h with uY := b.1, uA := b.2 })
  (t.wr A.holUy (satU32 b.1)).wr A.holUa (satU32 b.2)

/-- The selection between no reference and a frequency-only reference changes in HOLDOVER or LOST (R112). While one stays selected,
its class gives the bounds. -/
def State.aidChange (s : State) : State :=
  if s.tscMode = 3 ∨ s.tscMode = 4 then
    if s.freqOnly = s.hol.freqAided then s.when s.freqOnly State.aidBounds
    else if s.freqOnly then s.reanchor 0
    else s.reanchorWith s.freshAnchor 0
  else s

/-- A frequency-only selection ends with the power of the references, or with a start (R112). -/
def State.endAid (s : State) : State := s.when s.hol.freqAided (fun t => (t.setSel 0xFF).aidChange)

/-- u_T rises with the temperature: re-anchoring, and TEMP_EXCURSION when the fitted range is left (R112). -/
def State.tempCheck (s : State) : State :=
  let out := s.modelValid s.cartActive && decide (0 < s.tempOutside s.cartActive)
  let was := s.bit A.holStatus 6
  let t := (s.setBit A.holStatus 6 out).when (out && !was) (fun t => t.raise A.holEvent 10)
  t.when ((decide (t.tscMode = 3) || decide (t.tscMode = 4)) && decide (t.hol.uT < t.oscUt t.cartActive)) (fun t => t.reanchor 0)

/-- R52 in ps, before rho_fix. -/
def State.holdRadius (s : State) : Nat :=
  let t := (s.ts.meas - s.ts.holdStart) / 2 ^ 48
  let rho0 := match s.hol.anchor with
    | some a => a.rho0
    | none => 0xFFFFFFFF
  rho0 + (qdiv (((s.hol.uY + s.hol.uT) * t * (2 * 10 ^ 12) + s.hol.uA * t * t : Nat) : Int) (2 * 10 ^ 24)).toNat

/-! ### Handover (R103 to R105) -/

/-- CART_DIFF as last measured, in 2^-48. -/
def State.cartDiff48 (s : State) : Int :=
  if s.rd A.holCartDiff = 0x80000000 then 0 else qdiv (s.sf A.holCartDiff 0 32 * 2 ^ 48) (10 ^ 15)

/-- The active oscillator changes to the cartridge or to the keeper: FREQ_CORR keeps the accumulator rate (R103). The ticks before a
planned handover are corrected for the mean of R110. -/
def State.handover (s : State) (toCart unplanned : Bool) : State :=
  let diff : Int := if s.rd A.holCartDiff = 0x80000000 then 0 else s.sf A.holCartDiff 0 32
  let d := if toCart then -s.cartDiff48 else s.cartDiff48
  let dy := if toCart then diff else -diff
  let t := s.setBit A.holStatus 0 toCart
  let t := { t with
    refs := { t.refs with integ := t.refs.integ + d * integUnit }
    ts := { t.ts with freqHist := if unplanned then t.ts.freqHist
      else t.ts.freqHist.map (fun (h : Nat × Int × Int) => (h.1, h.2.1 + d, h.2.2)) }
    hol := { t.hol with
      anchor := t.hol.anchor.map (fun (a : Anchor) => { a with y := a.y + dy })
      keeperSum := { t.hol.keeperSum with good := false }
      cartSum := { t.hol.cartSum with good := false } } }
  let t := t.setFreq (t.sf A.tscFreqCorr 0 32 + d)
  let t := ((t.inc A.holHandoverCount).raise A.holEvent 3).journalize 8 .module A.holStatus 0
    (le 1 (b2n (!toCart)) ++ le 1 (b2n toCart) ++ [Config.handoverCode unplanned] ++ le 1 t.cartState)
  t.when (decide (t.tscMode = 3) || decide (t.tscMode = 4)) (fun t => t.reanchor (if unplanned then 1000 else 200))

/-! ### Storage (R109, R121, R125) -/

/-- The sixteen words of a model page. -/
def State.modelPage (s : State) (cart : Bool) : List Word := (List.range 16).map (fun k => s.rd (modelWord cart k))

/-- Writing a model page. -/
def State.putModel (s : State) (cart : Bool) (p : List Word) : State :=
  s.each (List.range 16) (fun k t => t.wr (modelWord cart k) (p.getD k 0))

/-- The cartridge's serial number. -/
def State.cartSerial (s : State) : Nat := s.rd64 A.holCartSerialLo

/-- The models, the rings and the serial as they stand. -/
def State.modelStore (s : State) (rings : Bool) : ModelStore :=
  ⟨s.modelPage false, s.modelPage true, s.cartSerial, if rings then s.hol.keeperRing else [],
    if rings then s.hol.cartRing else []⟩

/-- Writing the models to the cistern (R109). -/
def State.cisternModels (s : State) : State := s.setHol (fun h => { h with cistern := s.modelStore true })

/-- The copy of both models in flash (R109). -/
def State.flashModels (s : State) : State := s.setHol (fun h => { h with flash := s.modelStore false })

/-- The cartridge's model block (R121): words 1 to 13, serial, CRC-32; multi-byte fields big-endian (R450). -/
def State.modelBlockBytes (s : State) : Bytes :=
  let d := ((List.range 13).flatMap (fun k => be 4 (s.f (A.holCmodel (k + 1)) 0 32))) ++ be 8 s.cartSerial
  d ++ be 4 (crc32 d)

/-- Writing the model block to the cartridge: SPI WRITE to 0x0100 (R121, R450). -/
def State.writeModelBlock (s : State) : State :=
  let d := s.modelBlockBytes
  (s.setHol (fun h => { h with modelBlock := d })).emit (.cartridge (le 1 2 ++ be 2 0x0100 ++ d))

/-! ### Samples and fits (R106 to R108) -/

/-- The determinant of a square matrix of size at most `n`, by expansion along the first row. -/
def det : Nat → List (List Int) → Int
  | 0, _ => 1
  | _, [] => 1
  | n + 1, r :: t =>
    (r.mapIdx (fun j x => (if j % 2 = 0 then x else -x) * det n (t.map (fun q => q.eraseIdx j)))).sum

/-- The normal equations of points (basis values, observation): the matrix and the right-hand side. -/
def normalEq (k : Nat) (pts : List (List Int × Int)) : List (List Int) × List Int :=
  ((List.range k).map (fun i => (List.range k).map (fun j => (pts.map (fun p => p.1.getD i 0 * p.1.getD j 0)).sum)),
    (List.range k).map (fun i => (pts.map (fun p => p.1.getD i 0 * p.2)).sum))

/-- A least-squares fit (R107) by Cramer's rule: the determinant and the numerators of the coefficients. -/
def lsq (k : Nat) (pts : List (List Int × Int)) : Int × List Int :=
  let q := normalEq k pts
  (det k q.1, (List.range k).map (fun c => det k (q.1.mapIdx (fun i row => row.set c (q.2.getD i 0)))))

/-- What a fit yields: Y_FIT, AGE, C1, C2 in their units, the rms residual and three standard errors of AGE. -/
structure Fit where
  y : Int
  age : Int
  c1 : Int
  c2 : Int
  sigma : Nat
  age3 : Nat
  deriving DecidableEq, Repr

/-- Fitting samples about an epoch and a reference temperature (R107). -/
def fitSamples (l : List OscSample) (epoch : Nat) (tref : Int) (useC1 useC2 : Bool) : Fit :=
  let cols : List Nat := [0, 1] ++ (if useC1 then [2] else []) ++ (if useC2 then [3] else [])
  let basis : OscSample → List Int := fun p =>
    let d := p.temp - tref
    cols.map (fun c => match c with
      | 0 => 1
      | 1 => (p.sec : Int) - epoch
      | 2 => d
      | _ => d * d)
  let pts := l.map (fun p => (basis p, p.freq))
  let k := cols.length
  let q := lsq k pts
  let d := q.1
  if d ≤ 0 then
    let y := qdiv ((l.map (fun p => p.freq)).sum) l.length
    ⟨y, 0, 0, 0, rms (l.map (fun p => p.freq - y)), 0⟩
  else
    let coef : Nat → Int → Int := fun c scale => match cols.findIdx? (fun x => x == c) with
      | some i => qdiv (q.2.getD i 0 * scale) d.toNat
      | none => 0
    let rs := pts.map (fun p => p.2 * d - ((List.range k).map (fun i => q.2.getD i 0 * p.1.getD i 0)).sum)
    let ssr := (rs.map (fun r => r.natAbs * r.natAbs)).sum
    let minor := (det (k - 1) (((normalEq k pts).1.eraseIdx 1).map (fun row => row.eraseIdx 1))).toNat
    ⟨coef 0 1, coef 1 1000, coef 2 1000, coef 3 1000000, qsqrt ssr (d.toNat * d.toNat * l.length),
      if l.length ≤ k then 0 else qsqrt (9 * 1000000 * ssr * minor) (d.toNat * d.toNat * d.toNat * (l.length - k))⟩

/-- The samples a refit uses (R107): within AGE_SPAN and older than CUSUM_SPAN. -/
def State.fitRing (s : State) (cart : Bool) : List OscSample :=
  let now := s.nowNs / 1000000000
  (if cart then s.hol.cartRing else s.hol.keeperRing).filter (fun p =>
    decide (now ≤ p.sec + s.f A.holAgeSpan 0 8 * 3600) && decide (p.sec + s.f A.refCusumSpan 0 14 < now))

/-- The last and the first of a list by a measure. -/
def spanOf (l : List Int) : Int := match l with
  | [] => 0
  | x :: t => t.foldl max x - t.foldl min x

/-- A model has become VALID or ceased to be (R99, R126): STATUS and the event. -/
def State.showValid (s : State) (cart was now : Bool) : State :=
  let t := s.setBit A.holStatus (if cart then 5 else 4) now
  (t.when (!was && now) (fun t => t.raise A.holEvent 8)).when (was && !now) (fun t => t.raise A.holEvent 9)

/-- Writing a refitted page: SEQ advances (R126). `flags` are bits 8 to 11 of word 0. -/
def State.putFit (s : State) (cart : Bool) (flags : Nat) (w : List Word) : State :=
  let seq := (s.f (modelWord cart 0) 0 8 + 1) % 256
  let was := s.modelValid cart
  (s.putModel cart ((word (seq + flags * 256)) :: w)).showValid cart was (flags % 2 = 1)

/-- A model that is not VALID any more keeps its terms; its bounds are the no-model values (R108). -/
def State.unfit (s : State) (cart : Bool) : State :=
  let b := s.oscBounds cart
  s.putFit cart (s.f (modelWord cart 0) 9 3 * 2)
    ((List.range 15).map (fun k => if k = 10 then satU32 b.uyNone else if k = 11 then satU32 b.uaNone else s.rd (modelWord cart (k + 1))))

/-- The refit of a model (R107, R108, R121). A LOADED model keeps all but Y_FIT until its own samples span MODEL_MIN; it is
VALID after 6 h of samples. -/
def State.refit (s : State) (cart : Bool) : State :=
  let l := s.fitRing cart
  if l.isEmpty then s.when (s.modelValid cart) (fun t => t.unfit cart)
  else
    let b := s.oscBounds cart
    let sec := s.nowNs / 1000000000
    let span := (spanOf (l.map (fun p => (p.sec : Int)))).toNat
    let full := decide (s.f A.holModelMin 0 8 * 3600 ≤ span)
    let loaded := s.bit (modelWord cart 0) 11 && !full
    if loaded then
      let c : Nat → Int := fun k => s.sf (modelWord cart k) 0 32
      let dev : OscSample → Int := fun p =>
        let d := p.temp - c 6
        p.freq * 10 ^ 6 - (c 3 * ((p.sec : Int) - sec) * 1000 + c 4 * d * 1000 + c 5 * d * d)
      let y := qdiv ((l.map dev).sum) (l.length * 10 ^ 6)
      let sig := qsqrt ((l.map (fun p => (dev p - y * 10 ^ 6).natAbs * (dev p - y * 10 ^ 6).natAbs)).sum) (l.length * 10 ^ 12)
      let valid := b2n (decide (6 * 3600 ≤ span))
      s.putFit cart (valid + s.f (modelWord cart 0) 9 2 * 2 + 8)
        [sat32 y, word sec, s.rd (modelWord cart 3), s.rd (modelWord cart 4), s.rd (modelWord cart 5),
          s.rd (modelWord cart 6), s.rd (modelWord cart 7), s.rd (modelWord cart 8), word (span / 3600 % 65536),
          satU32 sig, satU32 (if valid = 1 then max b.uy (3 * sig) else b.uyNone), satU32 b.uaNone, satU32 b.ut]
    else
      let temps := l.map (fun p => p.temp)
      let tref := qdiv temps.sum l.length
      let useC1 := decide (2000 ≤ spanOf temps)
      let useC2 := decide (6000 ≤ spanOf temps)
      let fit := fitSamples l sec tref useC1 useC2
      let lo := temps.foldl min (temps.getD 0 0)
      let hi := temps.foldl max (temps.getD 0 0)
      s.putFit cart (b2n full + b2n useC1 * 2 + b2n useC2 * 4)
        [sat32 fit.y, word sec, sat32 fit.age, sat32 fit.c1, sat32 fit.c2, sat32 tref, sat32 lo, sat32 hi,
          word (span / 3600 % 65536), satU32 fit.sigma, satU32 (if full then max b.uy (3 * fit.sigma) else b.uyNone),
          satU32 (if full then max b.ua fit.age3 else b.uaNone), satU32 b.ut]

/-- Adding one tick to the interval of an oscillator (R106). -/
def SampleSum.add (x : SampleSum) (freq temp : Int) (good : Bool) : SampleSum :=
  ⟨x.n + 1, x.freq + freq, x.temp + temp, x.good && good⟩

/-- The cartridge is powered (R118). -/
def State.cartPowered (s : State) : Bool := decide (1 ≤ s.cartState) && decide (s.cartState ≤ 5)

/-- One tick of both oscillators' intervals: the active one's frequency is -FREQ_CORR, the other's follows from CART_DIFF. -/
def State.sampleTick (s : State) : State :=
  let base : Int := -(s.sf A.tscFreqCorr 0 32) * 10 ^ 15
  let diff : Int := if s.rd A.holCartDiff = 0x80000000 then 0 else s.sf A.holCartDiff 0 32 * 2 ^ 48
  let locked := decide (s.tscMode = 2)
  s.setHol (fun h => { h with
    keeperSum := h.keeperSum.add (if s.cartActive then base - diff else base) (s.oscTemp false) (locked && s.bit A.holStatus 7)
    cartSum := h.cartSum.add (if s.cartActive then base else base + diff) (s.oscTemp true)
      (locked && decide (3 ≤ s.cartState) && decide (s.cartState ≤ 5)) })

/-- The sample of an interval, if it is kept (R106). -/
def SampleSum.sample (x : SampleSum) (sec : Nat) : Option OscSample :=
  if x.good && decide (0 < x.n) then some ⟨sec, qdiv x.freq (x.n * 2 ^ 48), qdiv x.temp x.n⟩ else none

/-- A new interval of samples begins (R106). -/
def State.newInterval (s : State) : State :=
  s.setHol (fun h => { h with keeperSum := ⟨0, 0, 0, true⟩, cartSum := ⟨0, 0, 0, true⟩ })

/-- The samples of an interval enter their rings of 768 and, after a sample, each model is refitted (R106, R107, R109). In the parity
safe state neither model learns (R128). -/
def State.modelSample (s : State) : State :=
  if s.bit A.holStatus 8 then s.newInterval
  else
    let sec := s.nowNs / 1000000000
    let k := s.hol.keeperSum.sample sec
    let c := if s.cartPowered then s.hol.cartSum.sample sec else none
    let t := s.setHol (fun h => { h with
      keeperRing := (k.toList ++ h.keeperRing).take 768
      cartRing := (c.toList ++ h.cartRing).take 768 })
    (t.newInterval.when (k.isSome || c.isSome) (fun t => (t.refit false).when (decide (t.cartState ≠ 0)) (fun t => t.refit true))).cisternModels

/-! ### The cartridge (R118 to R121) -/

/-- CART_TIMER shows the seconds left. -/
def State.showCartTimer (s : State) : State :=
  s.sfW A.holCartTimer 0 17 (match s.hol.cartTimerEnd with
    | some t => ceilDiv (t - s.ts.meas) (secs 1)
    | none => 0)

/-- A cartridge state with its time limit in seconds, if it has one. -/
def State.setCart (s : State) (st : Nat) (limit : Option Nat) : State :=
  ((s.sfW A.holStatus 1 3 st).setHol (fun h => { h with
    cartTimerEnd := limit.map (fun n => s.ts.meas + secs n), cartMeas := [], cartMean := none })).showCartTimer

/-- The timer of the cartridge's state has expired. -/
def State.cartTimerDue (s : State) : Bool :=
  match s.hol.cartTimerEnd with
  | some t => decide (t ≤ s.ts.meas)
  | none => false

/-- PD2 on or off (R118, R462). -/
def State.setPd2 (s : State) (on : Bool) : State := s.setBit A.pwrDomState 2 on

/-- CART_DIFF and TEMP_CART read 0x8000_0000 without a powered cartridge (R102, R126). -/
def State.cartUnpowered (s : State) : State := (s.wr A.holCartDiff 0x80000000).wr A.holTempCart 0x80000000

/-- A cartridge enters FAULT with a reason: PD2 off, the keeper takes over where it was ACTIVE (R104, R118). -/
def State.cartFault (s : State) (reason : Nat) : State :=
  let t := s.when s.cartActive (fun t => t.handover false true)
  let t := ((t.setCart 7 none).setPd2 false).sfW A.holCartFault 0 8 reason
  (t.cartUnpowered.setHol (fun h => { h with releasing := false, pd2OffAt := none })).raise A.holEvent 7

/-- The cartridge slot is powered (R118). -/
def State.cartPower (s : State) : State := (s.setPd2 true).setCart 1 (some 2)

/-- The warm-up limit of a cartridge type in s (R118 and the table of oscillators). -/
def warmLimit (code : Nat) : Nat := if code = 0x41 then 480 else 600

/-- The model block read at insertion is used (R121): CRC good, EPOCH less than 30 days before the present instant. -/
def State.blockUsable (s : State) (b : Bytes) : Bool :=
  decide (b.length = 64) && decide (beAt b 60 4 = crc32 (slice b 0 60)) &&
  decide ((s.nowNs / 1000000000 + 2 ^ 32 - beAt b 4 4) % 2 ^ 32 < 30 * 86400)

/-- Words 2 to 8 of a model block (R121): EPOCH, AGE, C1, C2, T_REF, T_MIN, T_MAX. -/
def blockTerms (b : Bytes) : List Word := (List.range 7).map (fun k => word (beAt b (4 + 4 * k) 4))

/-- Words 1 to 15 of a model that is taken over and has no samples of its own (R121, R125): Y_FIT is learnt afresh, the terms are kept,
the bounds are the no-model values. -/
def State.takenOver (s : State) (cart : Bool) (terms : List Word) : List Word :=
  let b := s.oscBounds cart
  [0] ++ terms ++ [0, 0, satU32 b.uyNone, satU32 b.uaNone, satU32 b.ut, 0, 0]

/-- Identity and model block are read (R118, R121). A model of another serial number is discarded. -/
def State.cartIdentify (s : State) (code rev serial : Nat) (b : Bytes) : State :=
  let other := decide (s.hol.cistern.serial ≠ serial)
  let t := (s.wr A.holCartId (word (code % 256 + rev % 256 * 256))).wr64 A.holCartSerialLo serial
  if code = 0x51 ∨ code = 0x41 then
    let t := t.setHol (fun h => { h with
      modelBlock := b
      cartRing := if other then [] else h.cartRing
      cistern := if other then { h.cistern with cart := List.replicate 16 0, serial := serial, cartRing := [] } else h.cistern })
    let t := t.when other (fun t =>
      if t.blockUsable b then t.putFit true 8 (t.takenOver true (blockTerms b)) else t.putFit true 0 (List.replicate 15 0))
    t.setCart 2 (some (warmLimit code))
  else t.cartFault 0x41

/-- RELEASE of a powered cartridge: at once, or at the next whole second where it is ACTIVE (R120). -/
def State.releaseNow (s : State) : State :=
  s.writeModelBlock.setHol (fun h => { h with releasing := false, pd2OffAt := some (100000000 * 2 ^ 48 + s.ts.meas) })

/-- RELEASE (R120). -/
def State.cartRelease (s : State) : State :=
  if s.cartState = 5 then s.setHol (fun h => { h with releasing := true }) else s.releaseNow

/-- PD2 goes off 100 ms after the model block was written and the cartridge is RELEASED (R120). -/
def State.cartReleased (s : State) : State :=
  (((s.setPd2 false).setCart 6 none).cartUnpowered).setHol (fun h => { h with pd2OffAt := none })

/-- FORGET discards the cartridge's model in the cistern, in flash and in the model block (R120). -/
def State.cartForget (s : State) : State :=
  let z := List.replicate 16 (0 : Word)
  let t := (s.putFit true 0 (List.replicate 15 0)).setHol (fun h => { h with
    cartRing := [], modelBlock := zeros 64
    cistern := { h.cistern with cart := z, cartRing := [] }
    flash := { h.flash with cart := z } })
  t.when t.cartPowered (fun t => t.emit (.cartridge (le 1 2 ++ be 2 0x0100 ++ zeros 64)))

/-- The values CART_CMD accepts (R120, R126): RELEASE, RESUME and FORGET where they apply. -/
def State.cartCmdOk (s : State) (v : Word) : Bool :=
  let st := s.cartState
  decide (fld v 2 30 = 0) &&
  (match fld v 0 2 with
   | 1 => !(decide (st = 0) || decide (st = 6) || decide (st = 7))
   | 2 => decide (st = 6)
   | 3 => decide (st ≠ 5)
   | _ => false)

/-- The action of an accepted CART_CMD. -/
def State.cartCmd (s : State) (v : Word) : State :=
  match fld v 0 2 with
  | 1 => s.cartRelease
  | 2 => s.cartPower
  | _ => s.cartForget

/-- One second of a cartridge in MEASURING (R119): its frequency against the timescale in 10^-15, that of the active oscillator,
-FREQ_CORR, and CART_DIFF. -/
def State.cartMeasure (s : State) : State :=
  if s.cartState = 3 ∧ s.rd A.holCartDiff ≠ 0x80000000 then
    let osc : Int := qdiv (-(s.sf A.tscFreqCorr 0 32) * 10 ^ 15) (2 ^ 48)
    let y := if s.cartActive then osc else osc + s.sf A.holCartDiff 0 32
    let l := (y :: s.hol.cartMeas).take 100
    let mean : Option (Int × Int) := if l.length = 100 then
      (match s.hol.cartMean with
       | none => some (l.sum, l.sum)
       | some m => some (min m.1 l.sum, max m.2 l.sum)) else s.hol.cartMean
    let t := s.setHol (fun h => { h with cartMeas := l, cartMean := mean })
    if 4000000000 < y.natAbs then t.cartFault 0x43
    else if mean.any (fun m => decide (100 * 100000 < m.2 - m.1)) then t.cartFault 0x44
    else t
  else s

/-- A planned handover that is due at this evaluation (R101, R103): to the cartridge, to the keeper, or none. -/
def State.handoverDue (s : State) : Option Bool :=
  if s.bit A.holStatus 8 then none
  else if s.cartActive then (if s.hol.releasing || !(s.bit A.holCtl 0) then some false else none)
  else if s.cartState = 4 ∧ s.bit A.holCtl 0 ∧ s.hol.pd2OffAt.isNone then some true else none

/-- The planned handover of a whole second, after its evaluation; deferred where a TSC_STEP entry stands at it (R103). -/
def State.plannedHandover (s : State) (sec : Nat) : State :=
  if s.ts.calendar.any (fun e => decide (e.2.action = 0x1F) && decide (e.2.atNs = sec * 1000000000)) then s
  else match s.handoverDue with
    | none => s
    | some true => ((s.handover true false).setCart 5 none).flashModels
    | some false =>
      let t := ((s.handover false false).setCart 4 none).flashModels
      t.when s.hol.releasing (fun t => t.releaseNow)

/-! ### HOL_CFG (R127, R128) -/

/-- The reasons of HOL_CFG (R127). -/
def checkHolCfg (w : Nat → Word) : Option Nat :=
  let ka := fld (w A.holKaGnss) 0 11
  firstReason [(!rangesOk 5 w || (decide (ka ≠ 0) && (decide (ka < 15) || decide (1440 < ka))), 0x40),
    (decide (fld (w A.holAgeSpan) 0 8 < fld (w A.holModelMin) 0 8), 0x41)]

/-- A model's VALID judged on the span of its fitted samples against MODEL_MIN as it is now; where it changes, the model is fitted
anew (R108, notes/assumptions/127). -/
def State.rejudge (s : State) (cart : Bool) : State :=
  let least := if s.bit (modelWord cart 0) 11 then min 6 (s.f A.holModelMin 0 8) else s.f A.holModelMin 0 8
  s.when (decide (s.modelValid cart ≠ decide (least ≤ s.f (modelWord cart 9) 0 16))) (fun t => t.refit cart)

/-- What the application of HOL_CFG changes besides the words: the safe state ends (R128), and VALID follows MODEL_MIN (R108). -/
def State.applyHolCfg (s : State) : State := ((s.setBit A.holStatus 8 false).rejudge false).rejudge true

/-- A parity fault in a HOL word (R128). -/
def State.holParityFault (s : State) : State := (s.setBit A.holStatus 8 true).raise A.holEvent 12

/-- LOST_RADIUS in ps; 100,000 ns in the safe state (R128). -/
def State.lostRadius (s : State) : Nat := (if s.bit A.holStatus 8 then 100000 else s.f A.holLostRadius 0 22) * 1000

/-- PPS_POLICY is SQUELCH (R116, R128). -/
def State.ppsSquelch (s : State) : Bool := s.bit A.holCtl 1 && !(s.bit A.holStatus 8)

/-- FREQ_SQUELCH (R116, R128). -/
def State.freqSquelch (s : State) : Bool := s.bit A.holCtl 2 && !(s.bit A.holStatus 8)

end Sys2Proof.Machine
end

