-- ==== Sys2Proof/Machine/Discipline.lean ====
section
/-!
DEFINITION. The disciplining of the timescale: the evaluation of each whole second (R62), the steering loop (R74), the slew
(R35), the radius (R51 to R53), the state transitions of a tick (R55), the step at its instant (R39), the safe state (R56)
and keep-alive mode (R122 to R124).
-/

namespace Sys2Proof.Machine

/-! ### The evaluation (R62) -/

/-- The slew remaining in ps. -/
def State.slewPs (s : State) : Int := qdiv (s.ts.slewRem * 1000) 65536

/-- The offset of a step not yet applied, in ps (R51). -/
def State.thetaPending (s : State) : Int :=
  match s.ts.step with
  | some p => p.ps
  | none => 0

/-- The selected reference is SELECTED and steers phase. -/
def State.phaseSel (s : State) : Bool := phaseRef s.sel && decide (s.qstate s.sel = 3)

/-- The module is in PREPARE toward a phase reference (R96). -/
def State.preparing (s : State) : Bool := decide (s.switchPhase = 1) && phaseRef s.target

/-- The median of the offsets of the phase references QUALIFIED or SELECTED (R82). -/
def State.ensOffset (s : State) : Option Int :=
  median ((indices 13 (fun i => phaseRef i && s.isQual i)).filterMap (fun i => (s.refIn i).theta))

/-- What the evaluation records (R82, R89). -/
def State.recordEval (s : State) : State :=
  { s with refs := { s.refs with
      hist := (⟨s.sf A.tscFreqCorr 0 32, s.ensOffset, s.refs.keeperTicks, s.refs.cartTicks, s.ts.steer, s.refs.steps⟩ ::
        s.refs.hist).take 10001 } }

/-- The pseudo-phase of the selected frequency-only reference since it was SELECTED, in ps; a SyncE input's ticks since the
evaluation count at once (R74). -/
def State.pseudoPhase (s : State) : Int :=
  let r := s.refIn s.sel
  let part : Int := if s.sel = 10 ∨ s.sel = 11 then (s.refs.synce.getD (s.sel - 10) (0, 0)).2 else 0
  qdiv (r.pseudo * 1000 + part) 1000000 + s.sf (A.refInDelay s.sel) 0 32 - s.refs.phaseZero

/-- The loop's phase error from a measured offset (R51): what neither the slew nor a step will remove. -/
def State.setPhi (s : State) (theta : Int) : State :=
  { s with ts := { s.ts with phiE := theta - s.slewPs - s.thetaPending } }

/-- The offset of the selected reference after selection: what a fresh offset or one beyond STEP_THRESHOLD asks for (R36,
R39, R96), then the phase error. -/
def State.steerOffset (s : State) : State :=
  if s.phaseSel then
    match (s.refIn s.sel).theta with
    | some th =>
      let open_ := decide (s.stepLimit < (th - s.slewPs - s.thetaPending).natAbs) && s.ts.step.isNone
      let t := s.when (s.refs.waitOffset || open_) (fun t => t.handleSelected th)
      { t.setPhi th with refs := { (t.setPhi th).refs with lastGood := t.measNs } }
    | none => s
  else s

/-- What the selected reference delivered at this evaluation, for a step due at this second (R39). -/
def State.noteMeasured (s : State) : State :=
  { s with ts := { s.ts with measured := if s.phaseSel then (s.refIn s.sel).theta else none } }

/-- The changes of the timescale's state that an evaluation decides (R55, R94): HOLDOVER when no phase reference is selected
or being prepared, ACQUIRING when one is selected. -/
def State.evalMode (s : State) : State :=
  let m := s.tscMode
  if (m = 1 ∨ m = 2) ∧ !s.phaseSel ∧ !s.preparing then s.enterHoldover
  else if s.phaseSel && !s.tscSafe && (decide (m = 0) || decide (m = 3) || decide (m = 4)) then s.acquire
  else s.aidChange

/-- HO_ELAPSED in s (R126). -/
def State.showElapsed (s : State) : State :=
  s.when (decide (s.tscMode = 3) || decide (s.tscMode = 4)) (fun t =>
    t.wr A.holHoElapsed (satU32 ((t.ts.meas - t.ts.holdStart) / secs 1)))

/-- The frequencies of the frequency-only references over the second before the evaluation (R61): FREQ-IN from its edges,
SyncE from its ticks. -/
def State.takeFrequencies (s : State) : State :=
  let presc : Nat → Nat := fun j => 2 ^ (s.f (A.ttuChCfg (12 + j)) 17 4)
  let t := s.each [0, 1] (fun j u =>
    let f := u.freqOf (6 + j) (presc j)
    (u.setRef (6 + j) (fun r => { r with
      freqFresh := f
      edges := 0
      firstEdge := r.lastEdge
      rateOff := if f.isSome then freqOff f else r.rateOff
      lost := r.lost && !(r.rateOff && f.isSome && !(freqOff f)) })).when (freqOff f) (fun u => u.lose (6 + j)))
  let t := t.each [0, 1] (fun j u =>
    let a := u.refs.synce.getD j (0, 0)
    u.setRef (10 + j) (fun r => { r with freqFresh := if a.1 = 0 then none else some (qdiv a.2 a.1) }))
  { t with refs := { t.refs with synce := [(0, 0), (0, 0)] } }

/-- Losses that the time since the last edge or frame decides, at an evaluation (R60). -/
def State.lossCheck (s : State) : State :=
  s.each [2, 3, 4, 5, 6, 7, 10, 11, 12, 13] (fun i t => t.when (!(t.refIn i).lost && (t.lossDue i || t.pairLost i)) (fun t => t.lose i))

/-- Steps 1 to 4 of an evaluation (R62). -/
def State.evalMeasure (s : State) (voters : List Nat) : State :=
  let t := s.formResiduals voters
  (t.each (List.range 14) (fun i u => u.qualify i)).updateStats

/-- The evaluation at a whole second (R62). -/
def State.evaluate (s : State) : State :=
  let t := { s with refs := { s.refs with evalNo := s.refs.evalNo + 1 } }
  let t := t.takeFrequencies.lossCheck
  let t := t.each (List.range 14) (fun i u => u.takeOffset i)
  let t := t.each (List.range 14) (fun i u => u.mapQuality i)
  let was := indices 13 t.isQual
  let voters := was.filter phaseRef
  let pre := t.refs.ins
  let t := (t.evalMeasure voters).distrustDecisions pre voters
  let t := t.each (List.range 13) (fun i u => (u.cleanRun i).showStats i)
  (((t.selection was).noteMeasured.steerOffset.evalMode.cartMeasure.tempCheck).recordEval.slewOver.showElapsed).showCartTimer

/-! ### A tick (R35, R51 to R55, R74, R111) -/

/-- SLEW_MAX per tick in 2^-16 ns (R35), rounded down: the phase never moves faster than SLEW_MAX. -/
def State.slewLimit (s : State) : Int := (s.f A.tscSlewMax 0 10 * 65536 / 1000 : Nat)

/-- SLEW_MAX as a rate in 2^-48, rounded down (R21). -/
def State.slewMax48 (s : State) : Int := (s.f A.tscSlewMax 0 10 * 2 ^ 48 / 1000000000 : Nat)

/-- The slew of one tick (R35); SLEW_DONE when it ends, and the switch that waits for it completes (R96). -/
def State.slewTick (s : State) : State :=
  let rem := s.ts.slewRem
  let now := clamp (-s.slewLimit) s.slewLimit rem
  let t := { s with ts := { s.ts with slewRem := rem - now, ySlew := clamp (-s.slewMax48) s.slewMax48 (qdiv (now * 2 ^ 32) 1000000) } }
  t.when (decide (rem ≠ 0) && decide (rem = now)) (fun t => (t.raise A.tscEvent 4).slewOver)

/-- The proportional term of the loop, 2 omega_n phi with omega_n = 2 pi B, in 2^-48 (R74): a bandwidth in microhertz, a phase error in
ps; pi to sixteen digits. -/
def loopProp (bw : Nat) (phi : Int) : Int := qdiv (4 * 3141592653589793 * bw * phi * 2 ^ 48) (10 ^ 33)

/-- What one tick adds to the loop's frequency state, omega_n^2 phi times 1 ms, in 10^-42 of 2^-48 (R74). -/
def loopGain (bw : Nat) (phi : Int) : Int := 4 * 9869604401089358 * bw * bw * phi * 2 ^ 48

/-- What a tick adds to the frequency state with the selected reference: a pair's FREQ-IN gives the frequency (R64). -/
def State.loopIncrement (s : State) (phi : Int) : Int :=
  match s.refPair s.sel with
  | some p => Config.pairFrequency (s.loopBw s.sel) phi (s.refIn p).freq
  | none => loopGain (s.loopBw s.sel) phi

/-- The loop filter of one tick on a phase error in ps (R74), type 2 with damping 1: the frequency state and a phase correction that,
with the slew, never exceeds SLEW_MAX (R35). A pending step holds the phase correction back (R38). FREQ_LIMIT where the loop needs
more than FREQ_CORR can hold (R21). -/
def State.loopTick (s : State) (phi : Int) : State :=
  let raw := s.refs.integ + s.loopIncrement phi
  let room := s.slewMax48 - s.ts.ySlew.natAbs
  let prop := if s.ts.step.isSome then 0 else clamp (-room) room (loopProp (s.loopBw s.sel) phi)
  ({ s with refs := { s.refs with integ := clamp (-freqMax * integUnit) (freqMax * integUnit) raw } }).setFreq
    (qdiv raw integUnit + prop)

/-- The steering of one tick: the selected reference (R74), the holdover model (R111), or the frequency held (R56, R96). -/
def State.steerTick (s : State) : State :=
  let m := s.tscMode
  if s.tscSafe then s.when (decide (m = 3) || decide (m = 4)) (fun t => t.holdSteer)
  else if s.phaseSel && (decide (m = 1) || decide (m = 2)) then s.loopTick s.ts.phiE
  else if s.freqOnly then s.loopTick s.pseudoPhase
  else if m = 3 ∨ m = 4 then s.holdSteer
  else if m = 0 then s
  else s.setFreq (qdiv s.refs.integ integUnit)

/-- R51 for one reference and one pending offset, saturating. -/
def State.lockRadius (s : State) (i : Nat) (pending : Int) : Nat :=
  s.rhoRef i + s.f (A.refInPathUnc i) 0 32 + 3 * (s.refIn i).sigma + s.ts.phiE.natAbs + s.slewPs.natAbs + pending.natAbs +
    s.f A.tscRadiusFix 0 17

/-- The computed radius (R51, R52, R96) in ps, saturating. -/
def State.computeRadius (s : State) : Nat :=
  let m := s.tscMode
  if m = 0 then 0xFFFFFFFF
  else if s.preparing && !s.tscSafe then min 0xFFFFFFFF (s.lockRadius s.target ((s.refIn s.target).last.getD 0))
  else if m = 1 ∨ m = 2 then
    (if s.phaseSel then min 0xFFFFFFFF (s.lockRadius s.sel s.thetaPending) else s.ts.rhoComputed)
  else min 0xFFFFFFFF (s.holdRadius + s.f A.tscRadiusFix 0 17)

/-- A computed radius saturates in a state other than FREE_RUN, whose 0xFFFF_FFFF stands for unknown: RADIUS_SAT (R53). -/
def State.noteSaturation (s : State) (c : Nat) : State :=
  let sat := decide (c = 0xFFFFFFFF) && decide (s.tscMode ≠ 0)
  ({ s with ts := { s.ts with rhoSat := sat } }).when (sat && !s.ts.rhoSat) (fun t => t.raise A.tscEvent 9)

/-- The reported radius (R53): a rise at once, a fall of at most 5 % of its value per second; RADIUS_SAT at saturation. -/
def State.reportRadius (s : State) (c : Nat) : State :=
  if s.ts.rho ≤ c then ({ s with ts := { s.ts with rho := c, rhoComputed := c, rhoFine := c * 65536 } }).noteSaturation c
  else
    let fine := max (c * 65536) (s.ts.rhoFine - s.ts.rhoFine / 20000)
    ({ s with ts := { s.ts with rho := ceilDiv fine 65536, rhoComputed := c, rhoFine := fine } }).noteSaturation c

/-- LOCKED after LOCK_HOLD within LOCK_PHASE, ACQUIRING beyond UNLOCK_PHASE, LOST beyond LOST_RADIUS (R55). -/
def State.modeTick (s : State) : State :=
  let m := s.tscMode
  let phi := s.ts.phiE.natAbs
  if m = 3 then s.when (decide (s.lostRadius < s.ts.rho)) (fun t => (t.setMode 4).raise A.holEvent 2)
  else if s.tscSafe then s
  else if m = 1 then
    let ok := decide (phi ≤ s.f A.tscLockPhase 0 14 * 1000) && decide (s.ts.slewRem = 0) && s.ts.step.isNone && s.phaseSel
    if ok then
      match s.ts.lockSince with
      | none => { s with ts := { s.ts with lockSince := some s.ts.meas } }
      | some t => s.when (decide (t + secs (s.f A.tscLockHold 0 12) ≤ s.ts.meas)) (fun u => u.setMode 2)
    else { s with ts := { s.ts with lockSince := none } }
  else if m = 2 ∧ s.phaseSel then s.when (decide (s.f A.tscUnlockPhase 0 17 * 1000 < phi)) (fun t => t.setMode 1)
  else s

/-- What a tick keeps for the anchor, the samples and the oscillator voter (R82, R106, R110). -/
def State.tickHistory (s : State) : State :=
  let hist := ((s.measNs, s.sf A.tscFreqCorr 0 32, s.oscTemp s.cartActive) :: s.ts.freqHist).filter
    (fun h => decide (s.measNs ≤ 7200000000000 + h.1))
  let t := { s with
    ts := { s.ts with freqHist := hist }
    refs := { s.refs with
      keeperTicks := if s.cartActive then s.refs.keeperTicks else s.refs.keeperTicks.add s.nowNs (s.oscTemp false)
      cartTicks := if s.cartActive then s.refs.cartTicks.add s.nowNs (s.oscTemp true) else s.refs.cartTicks } }
  t.sampleTick

/-- What a sensor of the cartridge shows: 0x8000_0000 without a powered cartridge (R102, R126). -/
def State.cartReading (s : State) (x : Option Int) : Word :=
  match x with
  | some v => if s.cartPowered then sat32 v else 0x80000000
  | none => 0x80000000

/-- The sensors of a tick (R102, R108): temperatures, the keeper's warm-up, and CART_DIFF at a whole second. -/
def State.sense (s : State) (m : TickMeas) (second : Bool) : State :=
  let t := (s.wr A.holTempKeeper (sat32 m.tempKeeper)).wr A.holTempCart (s.cartReading m.tempCart)
  let t := t.setBit A.holStatus 7 m.keeperWarm
  t.when second (fun t => t.wr A.holCartDiff (t.cartReading m.cartDiff))

/-- The SyncE comparisons of a tick (R74, R271). -/
def State.synceTick (s : State) (m : TickMeas) : State :=
  let add : Nat × Int → Option Int → Nat × Int := fun a o => match o with
    | some x => (a.1 + 1, a.2 + x)
    | none => a
  { s with refs := { s.refs with synce :=
      [add (s.refs.synce.getD 0 (0, 0)) m.synce0, add (s.refs.synce.getD 1 (0, 0)) m.synce1] } }

/-- Everything of a tick but the evaluation (R35, R51 to R55, R74, R111). -/
def State.tickWork (s : State) : State :=
  let t := s.slewTick.steerTick
  (t.reportRadius t.computeRadius).modeTick.tickHistory

/-- The whole second whose evaluation a firing of the RADIUS_TICK entry runs (R62): its own, or, SKIPPED, the latest that the
step passed over. -/
def evalSecond (e : CalEntry) : Option Nat :=
  match e.skipAt with
  | none => if e.atNs % 1000000000 = 0 then some (e.atNs / 1000000000) else none
  | some t => if e.atNs ≤ t / 1000000000 * 1000000000 then some (t / 1000000000) else none

/-- One firing of the RADIUS_TICK entry: sensors, the evaluation and the handover of a whole second, then the tick. -/
def State.tick (s : State) (m : TickMeas) (e : CalEntry) : State :=
  match evalSecond e with
  | some sec => ((((s.sense m true).synceTick m).evaluate).plannedHandover sec).tickWork
  | none => ((s.sense m false).synceTick m).tickWork

/-! ### The step at its instant (R39 to R41, R90) -/

/-- The loop's phase error after a decision at a step's instant: what is left of the offset, 0 where there is none to take (R40, R51). -/
def State.settlePhi (s : State) (theta : Option Int) : State := s.setPhi (theta.getD (s.slewPs + s.thetaPending))

/-- What a module step's instant decides (R39, R41, R90): the amount that is to be applied now, in ns, if any. The whole-ns part of a
negative offset is cut toward zero; the loop is left with the remainder (notes/assumptions/20). -/
def State.stepDecision (s : State) (p : PostedStep) : State × Option Int :=
  if s.sel ≠ p.ref ∨ s.qstate p.ref ≠ 3 then (s.expireStep.settlePhi none, none)
  else
    match s.ts.measured with
    | none =>
      let t := s.expireStep.settlePhi none
      ({ t with refs := { t.refs with waitOffset := true } }, none)
    | some th =>
      if th.natAbs ≤ s.stepLimit then ((s.expireStep.slew th).settlePhi (some th), none)
      else if s.stepLimit < (th - p.ps).natAbs then ((s.expireStep.handleSelected th).settlePhi (some th), none)
      else (s.clearStep.settlePhi (some (th - th.tdiv 1000 * 1000)), some (th.tdiv 1000))

/-- The answer to a pending step (R38); while R90 withholds steps an APPROVE schedules none and the step keeps waiting. -/
def State.answerSelected (s : State) (v : Word) : State :=
  if fld v 8 2 = 1 ∧ (s.ts.step.any (fun p => p.awaiting && decide (p.ref = s.sel))) = true ∧ fld v 0 8 = s.f A.tscStepSeq 0 8 ∧
      s.stepVetoed = true then
    (s.raise A.refEvent 9).setBit (A.refInState s.sel) 20 true
  else s.answerStep v

/-! ### The safe state of TSC (R56) -/

/-- A parity fault in a TSC staged word (R56). -/
def State.tscParityFault (s : State) : State :=
  let t := s.raise A.tscEvent 11
  let t := t.when t.ts.step.isSome (fun t => t.expireStep)
  let t := t.when t.ts.hostStep.isSome (fun t =>
    ({ t with ts := { t.ts with hostStep := none } }.calDrop 0x1F 1).raise A.tscEvent 3)
  let t := { t with ts := { t.ts with slewRem := 0, ySlew := 0 } }
  t.when (decide (t.tscMode = 1) || decide (t.tscMode = 2)) (fun t => t.enterHoldover)

/-! ### Keep-alive mode (R122 to R124) -/

/-- Entry into keep-alive mode (R122): the cartridge stays only with KA_CART, with the increment of a planned handover where the keeper
takes over, holdover is anchored, the cistern written. -/
def State.kaEnter (s : State) : State :=
  let t := s.setHol (fun h => { h with
    releasing := false
    keepAlive := true
    kaNext := s.ts.meas + secs (60 * s.f A.holKaGnss 0 11) })
  let locked := decide (t.tscMode = 1) || decide (t.tscMode = 2)
  let t := t.when (t.cartActive && !(t.bit A.holCtl 3)) (fun t =>
    let u := (t.handover false false).setCart 4 none
    if locked then { u with ts := { u.ts with rho := min 0xFFFFFFFF (u.ts.rho + 200) } } else u)
  let t := (t.when locked (fun t => t.enterHoldover)).endAid
  t.cisternModels.cisternStamp

/-- A second of the cistern counter while a start has cleared TSC and not reached step 10 (R124): the correction and the radius go on,
in the cistern alone. -/
def State.cisternSecond (s : State) : State :=
  match s.hol.cisternTime with
  | none => s
  | some (_, mode) =>
    let t := s.when (decide (mode = 3) || decide (mode = 4)) (fun t => t.holdSteer)
    let c := if mode = 0 then 0xFFFFFFFF else min 0xFFFFFFFF (t.holdRadius + t.f A.tscRadiusFix 0 17)
    let t := { t with ts := { t.ts with rho := c, rhoComputed := c, rhoFine := c * 65536 } }
    t.setHol (fun h => { h with cisternTime := some (c, if mode = 3 ∧ t.lostRadius < c then 4 else mode) })

/-- One second of keep-alive mode (R123): the correction of R111, the radius of R52, LOST under R55. -/
def State.kaTick (s : State) (tempKeeper : Int) (tempCart : Option Int) : State :=
  if s.boot.at_.isSome then s.cisternSecond
  else
  let t := s.sense ⟨none, none, none, tempKeeper, tempCart, s.bit A.holStatus 7⟩ false
  let t := t.when (decide (t.tscMode = 3) || decide (t.tscMode = 4)) (fun t => t.tempCheck.holdSteer)
  let c := t.computeRadius
  let t := { t with ts := { t.ts with rho := c, rhoComputed := c, rhoFine := c * 65536 } }
  t.modeTick.showElapsed.cisternStamp

/-! ### ToD (R65, R445) -/

/-- A valid ToD sentence: the second it names, and its quality digit (R65, R71). -/
def State.todValid (s : State) (sec q : Nat) : State :=
  let recent := s.refs.tod.filter (fun e => decide (s.ts.meas ≤ secs 1 + e.2.1))
  let t := { s with refs := { s.refs with tod := (sec, s.ts.meas, todClass q) :: recent } }
  t.setRef 13 (fun r => { r with lost := false, missed := 0, lastSeen := s.ts.meas, adv := todClass q, raw := q })

end Sys2Proof.Machine
end

