-- ==== Sys2Proof/Machine/Crypto.lean ====
section
/-!
DEFINITION. The cryptographic primitives that the manual takes from published standards, written from those standards
(PRESUMED: FIPS 180-4 SHA-512, FIPS 202 SHAKE256, FIPS 197 AES-128, RFC 5297 AES-SIV-CMAC-256, RFC 8032 Ed25519 and Ed448,
RFC 7748 X25519 and X448, the NIST P curves, RFC 8017 RSA primitives).
-/

namespace Sys2Proof.Machine

/-- Exclusive or of two byte strings of one length. -/
def xorBytes (a b : Bytes) : Bytes := List.zipWith (fun x y => x ^^^ y) a b

/-! ### SHA-512 -/

/-- A 64-bit lane. -/
abbrev Lane := BitVec 64

/-- The 80 round constants of SHA-512, in four parts. -/
def shaK0 : List Lane := [0x428a2f98d728ae22, 0x7137449123ef65cd, 0xb5c0fbcfec4d3b2f, 0xe9b5dba58189dbbc, 0x3956c25bf348b538,
   0x59f111f1b605d019, 0x923f82a4af194f9b, 0xab1c5ed5da6d8118, 0xd807aa98a3030242, 0x12835b0145706fbe,
   0x243185be4ee4b28c, 0x550c7dc3d5ffb4e2, 0x72be5d74f27b896f, 0x80deb1fe3b1696b1, 0x9bdc06a725c71235,
   0xc19bf174cf692694, 0xe49b69c19ef14ad2, 0xefbe4786384f25e3, 0x0fc19dc68b8cd5b5, 0x240ca1cc77ac9c65]
/-- Round constants 20 to 39. -/
def shaK1 : List Lane := [0x2de92c6f592b0275, 0x4a7484aa6ea6e483, 0x5cb0a9dcbd41fbd4, 0x76f988da831153b5, 0x983e5152ee66dfab,
   0xa831c66d2db43210, 0xb00327c898fb213f, 0xbf597fc7beef0ee4, 0xc6e00bf33da88fc2, 0xd5a79147930aa725,
   0x06ca6351e003826f, 0x142929670a0e6e70, 0x27b70a8546d22ffc, 0x2e1b21385c26c926, 0x4d2c6dfc5ac42aed,
   0x53380d139d95b3df, 0x650a73548baf63de, 0x766a0abb3c77b2a8, 0x81c2c92e47edaee6, 0x92722c851482353b]
/-- Round constants 40 to 59. -/
def shaK2 : List Lane := [0xa2bfe8a14cf10364, 0xa81a664bbc423001, 0xc24b8b70d0f89791, 0xc76c51a30654be30, 0xd192e819d6ef5218,
   0xd69906245565a910, 0xf40e35855771202a, 0x106aa07032bbd1b8, 0x19a4c116b8d2d0c8, 0x1e376c085141ab53,
   0x2748774cdf8eeb99, 0x34b0bcb5e19b48a8, 0x391c0cb3c5c95a63, 0x4ed8aa4ae3418acb, 0x5b9cca4f7763e373,
   0x682e6ff3d6b2b8a3, 0x748f82ee5defb2fc, 0x78a5636f43172f60, 0x84c87814a1f0ab72, 0x8cc702081a6439ec]
/-- Round constants 60 to 79. -/
def shaK3 : List Lane := [0x90befffa23631e28, 0xa4506cebde82bde9, 0xbef9a3f7b2c67915, 0xc67178f2e372532b, 0xca273eceea26619c,
   0xd186b8c721c0c207, 0xeada7dd6cde0eb1e, 0xf57d4f7fee6ed178, 0x06f067aa72176fba, 0x0a637dc5a2c898a6,
   0x113f9804bef90dae, 0x1b710b35131c471b, 0x28db77f523047d84, 0x32caab7b40c72493, 0x3c9ebe0a15c9bebc,
   0x431d67c49c100d4c, 0x4cc5d4becb3e42b6, 0x597f299cfc657e2a, 0x5fcb6fab3ad6faec, 0x6c44198c4a475817]

/-- The initial hash value of SHA-512. -/
def shaInit : List Lane := [0x6a09e667f3bcc908, 0xbb67ae8584caa73b, 0x3c6ef372fe94f82b, 0xa54ff53a5f1d36f1,
   0x510e527fade682d1, 0x9b05688c2b3e6c1f, 0x1f83d9abfb41bd6b, 0x5be0cd19137e2179]

/-- The message schedule, newest word first: `n` words more. -/
def shaExpand : Nat → List Lane → List Lane
  | 0, w => w
  | n + 1, w =>
    let a := w.getD 1 0
    let b := w.getD 14 0
    let s1 := a.rotateRight 19 ^^^ a.rotateRight 61 ^^^ (a >>> 6)
    let s0 := b.rotateRight 1 ^^^ b.rotateRight 8 ^^^ (b >>> 7)
    shaExpand n ((s1 + w.getD 6 0 + s0 + w.getD 15 0) :: w)

/-- One round. -/
def shaRound (h : List Lane) (k w : Lane) : List Lane :=
  match h with
  | [a, b, c, d, e, f, g, x] =>
    let t1 := x + (e.rotateRight 14 ^^^ e.rotateRight 18 ^^^ e.rotateRight 41) + ((e &&& f) ^^^ (~~~e &&& g)) + k + w
    let t2 := (a.rotateRight 28 ^^^ a.rotateRight 34 ^^^ a.rotateRight 39) + ((a &&& b) ^^^ (a &&& c) ^^^ (b &&& c))
    [t1 + t2, a, b, c, d + t1, e, f, g]
  | _ => h

/-- One block of 128 bytes. -/
def shaBlock (h : List Lane) (d : Bytes) : List Lane :=
  let w := (List.range 16).map (fun i => BitVec.ofNat 64 (beAt d (8 * i) 8))
  let ws := (shaExpand 64 w.reverse).reverse
  let r := (List.zip (shaK0 ++ shaK1 ++ shaK2 ++ shaK3) ws).foldl (fun s p => shaRound s p.1 p.2) h
  List.zipWith (fun x y => x + y) h r

/-- The padded message. -/
def shaPad (d : Bytes) : Bytes :=
  d ++ [0x80] ++ zeros ((111 + 128 - d.length % 128) % 128) ++ be 16 (8 * d.length)

/-- SHA-512. -/
def sha512 (d : Bytes) : Bytes :=
  let m := shaPad d
  ((List.range (m.length / 128)).foldl (fun h i => shaBlock h (slice m (128 * i) 128)) shaInit).flatMap (fun x => be 8 x.toNat)

/-- SHA-512 blocks of a message of `n` bytes (R302). -/
def shaBlocks (n : Nat) : Nat := (n + 17 + 127) / 128

/-- H32 of R286: SHA-512 truncated to 32 bytes. -/
def h32 (d : Bytes) : Bytes := (sha512 d).take 32

/-! ### SHAKE256 -/

/-- The round constants of Keccak-f[1600]. -/
def keccakRc : List Lane := [0x0000000000000001, 0x0000000000008082, 0x800000000000808a, 0x8000000080008000, 0x000000000000808b,
   0x0000000080000001, 0x8000000080008081, 0x8000000000008009, 0x000000000000008a, 0x0000000000000088,
   0x0000000080008009, 0x000000008000000a, 0x000000008000808b, 0x800000000000008b, 0x8000000000008089,
   0x8000000000008003, 0x8000000000008002, 0x8000000000000080, 0x000000000000800a, 0x800000008000000a,
   0x8000000080008081, 0x8000000000008080, 0x0000000080000001, 0x8000000080008008]

/-- The rotation of lane `x + 5 y`. -/
def keccakRot : List Nat := [0, 1, 62, 28, 27, 36, 44, 6, 55, 20, 3, 10, 43, 25, 39, 41, 45, 15, 21, 8, 18, 2, 61, 56, 14]

/-- One round over the 25 lanes, lane `x + 5 y`. -/
def keccakRound (a : List Lane) (rc : Lane) : List Lane :=
  let at_ : Nat → Lane := fun i => a.getD i 0
  let c := (List.range 5).map (fun x => at_ x ^^^ at_ (x + 5) ^^^ at_ (x + 10) ^^^ at_ (x + 15) ^^^ at_ (x + 20))
  let d : Nat → Lane := fun x => c.getD ((x + 4) % 5) 0 ^^^ (c.getD ((x + 1) % 5) 0).rotateLeft 1
  let rp : Nat → Lane := fun i => (at_ i ^^^ d (i % 5)).rotateLeft (keccakRot.getD i 0)
  let b := (List.range 25).map (fun i => let x := i % 5; let y := i / 5; rp ((x + 3 * y) % 5 + 5 * x))
  let bt : Nat → Lane := fun i => b.getD i 0
  (List.range 25).map (fun i =>
    let y := 5 * (i / 5)
    let v := bt i ^^^ (~~~(bt (y + (i + 1) % 5)) &&& bt (y + (i + 2) % 5))
    if i = 0 then v ^^^ rc else v)

/-- Keccak-f[1600]. -/
def keccakF (a : List Lane) : List Lane := keccakRc.foldl keccakRound a

/-- One block of 136 bytes absorbed. -/
def keccakAbsorb (a : List Lane) (d : Bytes) : List Lane :=
  keccakF ((List.range 25).map (fun i => if i < 17 then a.getD i 0 ^^^ BitVec.ofNat 64 (leAt d (8 * i) 8) else a.getD i 0))

/-- SHAKE256 with an output of at most 136 bytes. -/
def shake256 (n : Nat) (d : Bytes) : Bytes :=
  let k := 136 - d.length % 136
  let m := d ++ (if k = 1 then [0x9F] else [0x1F] ++ zeros (k - 2) ++ [0x80])
  let a := (List.range (m.length / 136)).foldl (fun h i => keccakAbsorb h (slice m (136 * i) 136)) (List.replicate 25 0)
  (a.flatMap (fun x => le 8 x.toNat)).take n

/-- SHAKE256 blocks of a message of `n` bytes (R302). -/
def shakeBlocks (n : Nat) : Nat := n / 136 + 1

/-! ### AES-128 and AES-SIV-CMAC-256 -/

/-- Doubling in the AES field. -/
def gfDouble (b : Byte) : Byte := if b.msb then (b <<< 1) ^^^ 0x1B else b <<< 1

/-- The product in the AES field. -/
def gfMul (a b : Byte) : Byte :=
  ((List.range 8).foldl (fun p i => (if b.getLsbD i then p.1 ^^^ p.2 else p.1, gfDouble p.2)) ((0 : Byte), a)).1

/-- The inverse in the AES field, 0 for 0: the 254th power. -/
def gfInv (a : Byte) : Byte :=
  let sq : Byte → Byte := fun x => gfMul x x
  let a2 := sq a
  let a4 := sq a2
  let a8 := sq a4
  let a16 := sq a8
  let a32 := sq a16
  let a64 := sq a32
  let a128 := sq a64
  gfMul a2 (gfMul a4 (gfMul a8 (gfMul a16 (gfMul a32 (gfMul a64 a128)))))

/-- The S-box of one byte. -/
def aesSubOf (a : Byte) : Byte :=
  let x := gfInv a
  x ^^^ x.rotateLeft 1 ^^^ x.rotateLeft 2 ^^^ x.rotateLeft 3 ^^^ x.rotateLeft 4 ^^^ 0x63

/-- The S-box as a table. -/
def aesTable : List Byte := (List.range 256).map (fun i => aesSubOf (byte i))

/-- The S-box looked up. -/
def aesSub (t : List Byte) (a : Byte) : Byte := t.getD a.toNat 0

/-- Key expansion: the four words that follow (newest word first). -/
def aesExpand (t : List Byte) : Nat → Byte → List Bytes → List Bytes
  | 0, _, w => w
  | n + 1, rc, w =>
    let prev := w.getD 0 []
    let r := (prev.drop 1 ++ prev.take 1).map (aesSub t)
    let w0 := xorBytes (xorBytes (w.getD 3 []) r) [rc, 0, 0, 0]
    let w1 := xorBytes (w.getD 2 []) w0
    let w2 := xorBytes (w.getD 1 []) w1
    let w3 := xorBytes prev w2
    aesExpand t n (gfDouble rc) (w3 :: w2 :: w1 :: w0 :: w)

/-- The eleven round keys of a 16-byte key. -/
def aesKeys (t : List Byte) (k : Bytes) : List Bytes :=
  let w := (aesExpand t 10 1 [slice k 12 4, slice k 8 4, slice k 4 4, slice k 0 4]).reverse
  (List.range 11).map (fun i => ((w.drop (4 * i)).take 4).flatten)

/-- SubBytes and ShiftRows. -/
def aesShift (t : List Byte) (s : Bytes) : Bytes :=
  (List.range 16).map (fun i => aesSub t (s.getD ((i + 4 * (i % 4)) % 16) 0))

/-- MixColumns. -/
def aesMix (s : Bytes) : Bytes :=
  (List.range 16).map (fun i =>
    let c := 4 * (i / 4)
    let g : Nat → Byte := fun j => s.getD (c + (i + j) % 4) 0
    gfDouble (g 0) ^^^ gfDouble (g 1) ^^^ g 1 ^^^ g 2 ^^^ g 3)

/-- One block encrypted under expanded round keys. -/
def aesBlock (t : List Byte) (ks : List Bytes) (d : Bytes) : Bytes :=
  let s0 := xorBytes d (ks.getD 0 [])
  let s9 := (List.range 9).foldl (fun s i => xorBytes (aesMix (aesShift t s)) (ks.getD (i + 1) [])) s0
  xorBytes (aesShift t s9) (ks.getD 10 [])

/-- A cipher: one block in, one block out. -/
def aesCipher (k : Bytes) : Bytes → Bytes :=
  let t := aesTable
  let ks := aesKeys t k
  aesBlock t ks

/-- Doubling of a 16-byte string (RFC 5297). -/
def dbl (d : Bytes) : Bytes :=
  let v := ofBe d
  be 16 (if v < 2 ^ 127 then 2 * v else (2 * v) ^^^ 0x87)

/-- AES-CMAC under a cipher. -/
def cmac (e : Bytes → Bytes) (d : Bytes) : Bytes :=
  let k1 := dbl (e (zeros 16))
  let n := if d.length = 0 then 1 else (d.length + 15) / 16
  let last := d.drop (16 * (n - 1))
  let tail := if last.length = 16 then xorBytes last k1 else xorBytes (slice (last ++ [0x80]) 0 16) (dbl k1)
  let x := (List.range (n - 1)).foldl (fun s i => e (xorBytes s (slice d (16 * i) 16))) (zeros 16)
  e (xorBytes x tail)

/-- S2V: associated data components, then the plaintext. -/
def s2v (e : Bytes → Bytes) (ad : List Bytes) (p : Bytes) : Bytes :=
  let d := ad.foldl (fun x a => xorBytes (dbl x) (cmac e a)) (cmac e (zeros 16))
  if 16 ≤ p.length then cmac e (p.take (p.length - 16) ++ xorBytes (p.drop (p.length - 16)) d)
  else cmac e (xorBytes (dbl d) (slice (p ++ [0x80]) 0 16))

/-- CTR encryption from a starting block. -/
def ctr (e : Bytes → Bytes) (iv : Bytes) (d : Bytes) : Bytes :=
  let ks := (List.range ((d.length + 15) / 16)).flatMap (fun i => e (be 16 (ofBe iv + i)))
  xorBytes d ks

/-- The counter block of a synthetic IV: bits 31 and 63 from the right cleared. -/
def sivCounter (v : Bytes) : Bytes :=
  (v.take 8) ++ [(v.getD 8 0) &&& 0x7F] ++ slice v 9 3 ++ [(v.getD 12 0) &&& 0x7F] ++ slice v 13 3

/-- AES-SIV-CMAC-256 sealing with a 32-byte key: synthetic IV, then ciphertext. -/
def sivSeal (key : Bytes) (ad : List Bytes) (p : Bytes) : Bytes :=
  let v := s2v (aesCipher (slice key 0 16)) ad p
  v ++ ctr (aesCipher (slice key 16 16)) (sivCounter v) p

/-- Opening: the plaintext, or none where the synthetic IV does not match. -/
def sivOpen (key : Bytes) (ad : List Bytes) (c : Bytes) : Option Bytes :=
  let v := slice c 0 16
  let p := ctr (aesCipher (slice key 16 16)) (sivCounter v) (c.drop 16)
  if c.length < 16 then none
  else if s2v (aesCipher (slice key 0 16)) ad p = v then some p else none

/-! ### Modular arithmetic -/

/-- The bits of a number, highest first, `n` of them. -/
def bitsOf (n k : Nat) : List Bool := ((List.range n).map (fun i => k.testBit i)).reverse

/-- Powers modulo `m`, the exponent given with its number of bits. -/
def powMod (b e m bits : Nat) : Nat :=
  (bitsOf bits e).foldl (fun x c => if c then x * x % m * b % m else x * x % m) (1 % m)

/-- The inverse modulo a prime `p` below 2^`bits`. -/
def invMod (a p bits : Nat) : Nat := powMod a (p - 2) p bits

/-- Subtraction modulo `p` of numbers below `p`. -/
def subMod (a b p : Nat) : Nat := (a + p - b % p) % p

/-! ### Edwards curves -/

/-- A twisted Edwards curve a x² + y² = 1 + d x² y² with base point and order. -/
structure Edwards where
  p : Nat
  bits : Nat
  a : Nat
  d : Nat
  bx : Nat
  by_ : Nat
  order : Nat
  deriving DecidableEq, Repr

/-- edwards25519 (RFC 8032). -/
def ed25519 : Edwards where
  p := 2 ^ 255 - 19
  bits := 255
  a := 2 ^ 255 - 20
  d := 37095705934669439343138083508754565189542113879843219016388785533085940283555
  bx := 15112221349535400772501151409588531511454012693041857206046113283949847762202
  by_ := 46316835694926478169428394003475163141307993866256225615783033603165251855960
  order := 2 ^ 252 + 27742317777372353535851937790883648493

/-- edwards448 (RFC 8032). -/
def ed448 : Edwards where
  p := 2 ^ 448 - 2 ^ 224 - 1
  bits := 448
  a := 1
  d := 2 ^ 448 - 2 ^ 224 - 1 - 39081
  bx := 224580040295924300187604334099896036246789641632564134246125461686950415467406032909029192869357953282578032075146446173674602635247710
  by_ := 298819210078481492676017930443930673437544040154080242095928241372331506189835876003536878655418784733982303233503462500531545062832660
  order := 2 ^ 446 - 13818066809895115352007386748515426880336692474882178609894547503885

/-- The sum of two points of an Edwards curve. -/
def Edwards.add (c : Edwards) (s t : Nat × Nat) : Nat × Nat :=
  let e := c.d * (s.1 * t.1 % c.p) % c.p * (s.2 * t.2 % c.p) % c.p
  let x := (s.1 * t.2 + s.2 * t.1) % c.p * invMod ((1 + e) % c.p) c.p c.bits % c.p
  let y := subMod (s.2 * t.2 % c.p) (c.a * (s.1 * t.1 % c.p) % c.p) c.p * invMod (subMod 1 e c.p) c.p c.bits % c.p
  (x, y)

/-- A multiple of a point. -/
def Edwards.mul (c : Edwards) (k : Nat) (s : Nat × Nat) : Nat × Nat :=
  (bitsOf (c.bits + 1) k).foldl (fun q b => let r := c.add q q; if b then c.add r s else r) (0, 1)

/-- The base point. -/
def Edwards.base (c : Edwards) : Nat × Nat := (c.bx, c.by_)

/-- The bytes of an encoded point: 32 or 57. -/
def Edwards.size (c : Edwards) : Nat := if c.bits = 255 then 32 else 57

/-- The position of the sign bit. -/
def Edwards.signBit (c : Edwards) : Nat := 8 * c.size - 1

/-- The encoding of a point. -/
def Edwards.encode (c : Edwards) (s : Nat × Nat) : Bytes := le c.size (s.2 + 2 ^ c.signBit * (s.1 % 2))

/-- The encoded y. -/
def Edwards.yOf (c : Edwards) (b : Bytes) : Nat := ofLe b % 2 ^ c.signBit

/-- A square root modulo the prime of a curve, if there is one. -/
def Edwards.sqrt (c : Edwards) (n : Nat) : Option Nat :=
  let r := if c.bits = 255 then
      (let x := powMod n ((c.p + 3) / 8) c.p c.bits
       if x * x % c.p = n then x else x * powMod 2 ((c.p - 1) / 4) c.p c.bits % c.p)
    else powMod n ((c.p + 1) / 4) c.p c.bits
  if r * r % c.p = n then some r else none

/-- Decoding of a point: none where there is no square root, or x is 0 with the sign bit set. -/
def Edwards.decode (c : Edwards) (b : Bytes) : Option (Nat × Nat) :=
  let y := c.yOf b
  let sign := ofLe b / 2 ^ c.signBit % 2
  let y2 := y * y % c.p
  let x2 := subMod y2 1 c.p * invMod (subMod (c.d * y2 % c.p) c.a c.p) c.p c.bits % c.p
  match c.sqrt x2 with
  | none => none
  | some x =>
    if x = 0 ∧ sign = 1 then none
    else some (if x % 2 = sign then x else (c.p - x) % c.p, y)

/-- The hash of EdDSA over parts, with the context of Ed448. -/
def Edwards.hash (c : Edwards) (ctx : Bytes) (d : Bytes) : Bytes :=
  if c.bits = 255 then sha512 d
  else shake256 114 ("SigEd448".toUTF8.toList.map (fun x => byte x.toNat) ++ [0, byte ctx.length] ++ ctx ++ d)

/-- The secret scalar and prefix of a seed. -/
def Edwards.expand (c : Edwards) (seed : Bytes) : Nat × Bytes :=
  if c.bits = 255 then
    let h := sha512 seed
    (ofLe (slice h 0 32) % 2 ^ 254 / 8 * 8 + 2 ^ 254, slice h 32 32)
  else
    let h := shake256 114 seed
    (ofLe (slice h 0 56) % 2 ^ 447 / 4 * 4 + 2 ^ 447, slice h 57 57)

/-- The public key of a seed. -/
def Edwards.public (c : Edwards) (seed : Bytes) : Bytes := c.encode (c.mul (c.expand seed).1 c.base)

/-- EdDSA signing (RFC 8032). -/
def Edwards.sign (c : Edwards) (seed ctx m : Bytes) : Bytes :=
  let k := c.expand seed
  let pub := c.encode (c.mul k.1 c.base)
  let r := ofLe (c.hash ctx (k.2 ++ m)) % c.order
  let rEnc := c.encode (c.mul r c.base)
  let h := ofLe (c.hash ctx (rEnc ++ pub ++ m)) % c.order
  rEnc ++ le c.size ((r + h * k.1) % c.order)

/-- EdDSA cofactorless verification of decoded points (R297). -/
def Edwards.verify (c : Edwards) (pub sig ctx m : Bytes) : Bool :=
  match c.decode pub, c.decode (slice sig 0 c.size) with
  | some a, some r =>
    let h := ofLe (c.hash ctx (slice sig 0 c.size ++ pub ++ m)) % c.order
    decide (c.mul (ofLe (slice sig c.size c.size)) c.base = c.add r (c.mul h a))
  | _, _ => false

/-! ### Montgomery ladders (RFC 7748) -/

/-- One step of the ladder on (x2, z2, x3, z3). -/
def ladderStep (p a24 u : Nat) (s : Nat × Nat × Nat × Nat) : Nat × Nat × Nat × Nat :=
  let a := (s.1 + s.2.1) % p
  let aa := a * a % p
  let b := subMod s.1 s.2.1 p
  let bb := b * b % p
  let e := subMod aa bb p
  let c := (s.2.2.1 + s.2.2.2) % p
  let d := subMod s.2.2.1 s.2.2.2 p
  let da := d * a % p
  let cb := c * b % p
  let x3 := (da + cb) % p
  let z3 := subMod da cb p
  (aa * bb % p, e * ((aa + a24 * e) % p) % p, x3 * x3 % p, u * (z3 * z3 % p) % p)

/-- The Montgomery ladder: the u-coordinate of a multiple. -/
def ladder (p bits a24 k u : Nat) : Nat :=
  let r := (bitsOf bits k).foldl (fun s b =>
    if b then
      let t := ladderStep p a24 u (s.2.2.1, s.2.2.2, s.1, s.2.1)
      (t.2.2.1, t.2.2.2, t.1, t.2.1)
    else ladderStep p a24 u s) (1, 0, u, 1)
  r.1 * invMod r.2.1 p bits % p

/-- X25519 on byte strings. -/
def x25519Fn (k u : Bytes) : Bytes :=
  le 32 (ladder (2 ^ 255 - 19) 255 121665 (ofLe k % 2 ^ 254 / 8 * 8 + 2 ^ 254) (ofLe u % 2 ^ 255))

/-- X448 on byte strings. -/
def x448Fn (k u : Bytes) : Bytes :=
  le 56 (ladder (2 ^ 448 - 2 ^ 224 - 1) 448 39081 (ofLe k % 2 ^ 447 / 4 * 4 + 2 ^ 447) (ofLe u))

/-! ### The P curves -/

/-- A short Weierstrass curve y² = x³ - 3x + b. -/
structure PCurve where
  p : Nat
  bits : Nat
  b : Nat
  gx : Nat
  gy : Nat
  n : Nat
  deriving DecidableEq, Repr

/-- P-256. -/
def p256 : PCurve where
  p := 0xffffffff00000001000000000000000000000000ffffffffffffffffffffffff
  bits := 256
  b := 0x5ac635d8aa3a93e7b3ebbd55769886bc651d06b0cc53b0f63bce3c3e27d2604b
  gx := 0x6b17d1f2e12c4247f8bce6e563a440f277037d812deb33a0f4a13945d898c296
  gy := 0x4fe342e2fe1a7f9b8ee7eb4a7c0f9e162bce33576b315ececbb6406837bf51f5
  n := 0xffffffff00000000ffffffffffffffffbce6faada7179e84f3b9cac2fc632551

/-- P-384. -/
def p384 : PCurve where
  p := 2 ^ 384 - 2 ^ 128 - 2 ^ 96 + 2 ^ 32 - 1
  bits := 384
  b := 0xb3312fa7e23ee7e4988e056be3f82d19181d9c6efe8141120314088f5013875ac656398d8a2ed19d2a85c8edd3ec2aef
  gx := 0xaa87ca22be8b05378eb1c71ef320ad746e1d3b628ba79b9859f741e082542a385502f25dbf55296c3a545e3872760ab7
  gy := 0x3617de4a96262c6f5d9e98bf9292dc29f8f41dbd289a147ce9da3113b5f0b8c00a60b1ce1d7e819d7a431d7c90ea0e5f
  n := 0xffffffffffffffffffffffffffffffffffffffffffffffffc7634d81f4372ddf581a0db248b0a77aecec196accc52973

/-- P-521. -/
def p521 : PCurve where
  p := 2 ^ 521 - 1
  bits := 521
  b := 0x0051953eb9618e1c9a1f929a21a0b68540eea2da725b99b315f3b8b489918ef109e156193951ec7e937b1652c0bd3bb1bf073573df883d2c34f1ef451fd46b503f00
  gx := 0x00c6858e06b70404e9cd9e3ecb662395b4429c648139053fb521f828af606b4d3dbaa14b5e77efe75928fe1dc127a2ffa8de3348b3c1856a429bf97e7e31c2e5bd66
  gy := 0x011839296a789a3bc0045c8a5fb42c7d1bd998f54449579b446817afbd17273e662c97ee72995ef42640c550b9013fad0761353c7086a272c24088be94769fd16650
  n := 0x1fffffffffffffffffffffffffffffffffffffffffffffffffffffffffffffffffa51868783bf2f966b7fcc0148f709a5d03bb5c9b8899c47aebb6fb71e91386409

/-- The curve of a code (R297). -/
def pCurveOf (code : Nat) : PCurve := if code = 0x11 then p256 else if code = 0x12 then p384 else p521

/-- Bytes of a scalar or a coordinate. -/
def PCurve.size (c : PCurve) : Nat := (c.bits + 7) / 8

/-- A point is on the curve. -/
def PCurve.on (c : PCurve) (x y : Nat) : Bool :=
  decide (y * y % c.p = (x * x % c.p * x + c.b + (c.p - 3) * x) % c.p)

/-- The sum of two points; none is the neutral element. -/
def PCurve.add (c : PCurve) : Option (Nat × Nat) → Option (Nat × Nat) → Option (Nat × Nat)
  | none, q => q
  | some s, none => some s
  | some s, some t =>
    if s.1 = t.1 ∧ (s.2 + t.2) % c.p = 0 then none
    else
      let m := if s.1 = t.1 then (3 * (s.1 * s.1 % c.p) + c.p - 3) % c.p * invMod (2 * s.2 % c.p) c.p c.bits % c.p
        else subMod t.2 s.2 c.p * invMod (subMod t.1 s.1 c.p) c.p c.bits % c.p
      let x := subMod (m * m % c.p) ((s.1 + t.1) % c.p) c.p
      some (x, subMod (m * subMod s.1 x c.p % c.p) s.2 c.p)

/-- A multiple of a point. -/
def PCurve.mul (c : PCurve) (k : Nat) (s : Nat × Nat) : Option (Nat × Nat) :=
  (bitsOf (c.bits + 1) k).foldl (fun q b => let r := c.add q q; if b then c.add r (some s) else r) none

/-- The leftmost bits of a digest as a number (FIPS 186-5). -/
def PCurve.digest (c : PCurve) (e : Bytes) : Nat :=
  if 8 * e.length ≤ c.bits then ofBe e else ofBe e >>> (8 * e.length - c.bits)

/-- ECDSA signing with a nonce: r and s. -/
def PCurve.sign (c : PCurve) (d k : Nat) (e : Bytes) : Nat × Nat :=
  match c.mul k (c.gx, c.gy) with
  | none => (0, 0)
  | some q =>
    let r := q.1 % c.n
    (r, invMod k c.n c.bits * ((c.digest e + r * d) % c.n) % c.n)

/-- ECDSA verification. -/
def PCurve.verify (c : PCurve) (q : Nat × Nat) (r s : Nat) (e : Bytes) : Bool :=
  let w := invMod s c.n c.bits
  match c.add (c.mul (c.digest e * w % c.n) (c.gx, c.gy)) (c.mul (r * w % c.n) q) with
  | none => false
  | some x => decide (x.1 % c.n = r)

end Sys2Proof.Machine
end

