-- ==== Sys2Proof/Machine/Headrace.lean ====
section
/-!
DEFINITION. The headrace (R218 to R224, R230, R232, R233, R249): service addresses, classification, buckets and pipelines,
client records, and the groups HRC_ADDR, HRC_CFG, HRC_MAP and HRC_QUERY.
-/

namespace Sys2Proof.Machine

/-! ### Service addresses (R218, R248) -/

/-- The words of an address entry. -/
def addrWords (k : Nat) : List Nat :=
  [A.hrcAddrIp k 0, A.hrcAddrIp k 1, A.hrcAddrIp k 2, A.hrcAddrIp k 3, A.hrcAddrVlan k, A.hrcAddrSvc k, A.hrcAddrPolicy k, A.hrcAddrRefid k]

/-- A word of the entry is in its safe state: the entry acts as VALID = 0. -/
def State.addrFaulty (s : State) (k : Nat) : Bool := (addrWords k).any (fun a => (s.group 16).parity.contains a)

/-- The 16 address bytes of four words, byte 0 in [31:24] of the first (R249). -/
def ipBytes (w : Nat → Word) : Bytes := be 4 (w 0).toNat ++ be 4 (w 1).toNat ++ be 4 (w 2).toNat ++ be 4 (w 3).toNat

/-- An entry's service address. -/
def State.addrIp (s : State) (k : Nat) : Bytes := ipBytes (fun j => s.rd (A.hrcAddrIp k j))

/-- The tags of a frame agree with a VLAN word (R218). -/
def vlanOk (v : Word) (tags : List (Nat × Nat)) : Bool :=
  let outer := if bitOf v 13 then 0x88A8 else 0x8100
  if bitOf v 12 = false then
    (match tags with
     | [] => true
     | [t] => decide (t.2 % 4096 = 0)
     | _ => false)
  else if bitOf v 28 = false then
    (match tags with
     | [t] => decide (t.1 = outer) && decide (t.2 % 4096 = fld v 0 12)
     | _ => false)
  else
    (match tags with
     | [t, u] => decide (t.1 = outer) && decide (t.2 % 4096 = fld v 0 12) && decide (u.1 = 0x8100) &&
         decide (u.2 % 4096 = fld v 16 12)
     | _ => false)

/-- An entry is valid and its address, link and tags match. -/
def State.addrMatches (s : State) (k sl : Nat) (ip : Bytes) (tags : List (Nat × Nat)) : Bool :=
  s.bit (A.hrcAddrSvc k) 0 && s.bit (A.hrcAddrSvc k) (8 + sl) && decide (s.addrIp k = ip) && vlanOk (s.rd (A.hrcAddrVlan k)) tags

/-- The entry a frame with this address matches (R218). -/
def State.matchAddr (s : State) (sl : Nat) (ip : Bytes) (tags : List (Nat × Nat)) : Option Nat :=
  (List.range 64).find? (fun k => !s.addrFaulty k && s.addrMatches k sl ip tags)

/-- The frame is for an entry in its safe state: nothing at its address is answered, claimed or passed on (R248). -/
def State.atFaulty (s : State) (sl : Nat) (ip : Bytes) (tags : List (Nat × Nat)) : Bool :=
  (List.range 64).any (fun k => s.addrFaulty k && s.addrMatches k sl ip tags)

/-- A word of HRC_CFG as it acts (R248). -/
def State.hrcWord (s : State) (a : Nat) : Word := if (s.group 17).parity = [] then s.rd a else resetOf a

/-- The ring of an exception class (R220, R248). -/
def State.excRing (s : State) (cls : Nat) : Nat :=
  if (s.group 17).parity = [] then fld (s.rd (if cls < 4 then A.hrcExcMap0 else A.hrcExcMap1)) (8 * (cls % 4)) 8 else 0xFF

/-- An address that no client may have: multicast, unspecified, loopback, IPv4 broadcast (R224, R252). -/
def badAddress (a : Bytes) : Bool :=
  if a.take 12 = zeros 10 ++ [0xFF, 0xFF] then
    let b := beAt a 12 1
    decide (224 ≤ b ∧ b < 240) || decide (b = 127) || decide (beAt a 12 4 = 0) || decide (beAt a 12 4 = 0xFFFFFFFF)
  else decide (beAt a 0 1 = 0xFF) || decide (ofBe a = 0) || decide (ofBe a = 1)

/-! ### Key addresses, buckets, pipelines (R222, R223) -/

/-- The key address of a source (R222): the low 64 bits are zero with V6_KEY64 = 1, for an IPv6 source. -/
def State.keyAddress (s : State) (ip : Bytes) : Bytes :=
  if bitOf (s.hrcWord A.hrcCfg) 2 = true ∧ ip.take 12 ≠ zeros 10 ++ [0xFF, 0xFF] then ip.take 8 ++ zeros 8 else ip

/-- The CRC-32C of a key address, preset to HASH_SEED (R222). -/
def State.keyHash (s : State) (key : Bytes) : Nat :=
  (key.foldl (crcByte 0x82F63B78) (s.rd A.hrcHashSeed).toNat) ^^^ 0xFFFFFFFF

/-- The bucket and the record index of a key address. -/
def State.bucketOf (s : State) (key : Bytes) : Nat := s.keyHash key % 256
def State.recordIndex (s : State) (key : Bytes) : Nat := s.keyHash key % 256 * 16384 + s.keyHash key / 256 % 16384

/-- STATE of a pipeline: 0 ACTIVE, 1 DRAINING, 2 FENCED, 3 RELOADING. -/
def State.pipeState (s : State) (p : Nat) : Nat := s.f (A.svpPipeStatus p) 0 2

/-- The next active pipeline in ascending order, with wrap-around (R223). -/
def State.nextActive (s : State) (p : Nat) : Option Nat :=
  ((List.range 15).map (fun i => (p + 1 + i) % 16)).find? (fun q => decide (s.pipeState q = 0))

/-- The pipeline of a bucket; a faulty map word acts at the reset mapping, from which a bucket of a pipeline that is not active
has moved on (R223, R248). -/
def State.bucketPipe (s : State) (b : Nat) : Nat :=
  let a := A.hrcBucketMap (b / 8)
  if (s.group 18).parity.contains a then
    (if s.pipeState (b % 16) = 0 then b % 16 else (s.nextActive (b % 16)).getD (b % 16))
  else s.f a (4 * (b % 8)) 4

/-- The queue of a pipeline. -/
def State.queue (s : State) (p : Nat) : List Request := s.hrc.queues.getD p []

/-- Changing a queue; QUEUE of the pipeline's STATUS follows. -/
def State.setQueue (s : State) (p : Nat) (f : List Request → List Request) : State :=
  let t := { s with hrc := { s.hrc with queues := modAt s.hrc.queues p f } }
  t.sfW (A.svpPipeStatus p) 8 6 (t.queue p).length

/-- BUCKETS of every pipeline, HRC.STATUS.ACTIVE and MAP_DRAINING. -/
def State.showPipes (s : State) : State :=
  let n : Nat → Nat := fun p => (indices 256 (fun b => decide (s.bucketPipe b = p))).length
  let t := s.each (List.range 16) (fun p u => u.sfW (A.svpPipeStatus p) 16 9 (n p))
  let act := (List.range 16).foldl (fun m p => if 0 < n p then m + 2 ^ p else m) 0
  (t.sfW A.hrcStatus 0 16 act).setBit A.hrcStatus 25 (decide (s.hrc.moves ≠ []))

/-- A request dropped for want of room (R224). -/
def State.queueDrop (s : State) : State := (s.inc A.hrcQueueDrop).raise A.hrcEvent 2

/-- A request goes to its pipeline's queue: the new state and whether there was room. -/
def State.enqueue (s : State) (p : Nat) (r : Request) : State × Bool :=
  if (s.pipeState p = 0 ∨ s.pipeState p = 1) ∧ (s.queue p).length < 32 then
    (s.setQueue p (fun l => l ++ [{ r with pipe := p }]), true)
  else (s.queueDrop.sampleDrop r 5 0x20, false)

/-- A request is handed to a pipeline, and counted where there was room (R194). -/
def State.handToPipe (s : State) (p : Nat) (r : Request) : State :=
  let q := s.enqueue p r
  if q.2 then q.1.inc (A.macLinkRxToPipe r.frame.sl) else q.1

/-- The old pipeline has no request of a moving bucket in flight, or the hold has lasted 4 microseconds. -/
def State.moveOver (s : State) (m : BucketMove) : Bool :=
  !((s.queue m.src).any (fun r => decide (r.bucket = m.bucket))) || decide (m.endAt ≤ s.ts.meas)

/-- The held requests of a bucket go to its new pipeline (R223). -/
def State.endMove (s : State) (b : Nat) : State :=
  match s.hrc.moves.find? (fun m => decide (m.bucket = b)) with
  | none => s
  | some m =>
    if s.moveOver m then
      let t := { s with hrc := { s.hrc with moves := s.hrc.moves.filter (fun x => decide (x.bucket ≠ b)) } }
      (t.each m.held (fun r u => u.handToPipe m.dst r)).showPipes
    else s

/-- A bucket moves from one pipeline to another (R223). A bucket that is moving already keeps its held requests. -/
def State.moveBucket (s : State) (b p q : Nat) : State :=
  if p = q then s
  else
    let old := s.hrc.moves.find? (fun m => decide (m.bucket = b))
    let m : BucketMove := match old with
      | some x => { x with dst := q }
      | none => ⟨b, p, q, [], s.ts.meas + 4000 * 2 ^ 48⟩
    let t := { s with hrc := { s.hrc with moves := m :: s.hrc.moves.filter (fun x => decide (x.bucket ≠ b)) } }
    (((t.inc A.hrcBucketMoves).raise A.hrcEvent 0).endMove b).showPipes

/-- Every bucket of a pipeline moves to the next active one, and the live map shows it (R223). -/
def State.moveAway (s : State) (p : Nat) : State :=
  match s.nextActive p with
  | none => s
  | some q =>
    s.each (indices 256 (fun b => decide (s.bucketPipe b = p))) (fun b u =>
      (u.sfW (A.hrcBucketMap (b / 8)) (4 * (b % 8)) 4 q).moveBucket b p q)

/-- Requests inside a pipeline at its fence are lost (R223). -/
def State.losePipe (s : State) (p : Nat) : State :=
  let lost := s.queue p
  ((s.setQueue p (fun _ => [])).count A.hrcFenceLost lost.length).each lost (fun r t => t.sampleDrop r 9 5)

/-! ### Requests (R224, R230) -/

/-- The three words of a rate profile as they act; a faulty word puts the whole profile at its reset values (R248). -/
def State.profileWords (s : State) (q : Nat) : List Word :=
  let a := [A.svpProfInterval q, A.svpProfBurst q, A.svpProfCtl q]
  if a.any (fun x => (s.group 20).parity.contains x) then a.map resetOf else a.map s.rd

/-- The profile in force at an instant in ps (R250). -/
def State.profileAt (s : State) (q ps : Nat) : List Word :=
  if ps < s.hrc.profilesAt then (s.hrc.oldProfiles.drop (3 * q)).take 3 else s.profileWords q

/-- A request of a frame at an entry, with what it takes along. -/
def State.requestOf (s : State) (kind : ReqKind) (fr : RxFrame) (k : Nat) : Request :=
  let key := s.keyAddress (packetOf fr.data).sip
  let pol := s.rd (A.hrcAddrPolicy k)
  { kind := kind, frame := fr, entry := k, svc := s.rd (A.hrcAddrSvc k), policy := pol, refid := s.rd (A.hrcAddrRefid k)
    gen := s.hrc.gen, bucket := s.bucketOf key, pipe := s.bucketPipe (s.bucketOf key), key := key
    profile := s.profileAt (fld pol 6 2) fr.tRx, steps := s.ports.steps, adjusted := false, sample := none }

/-- A request that the headrace drops is counted, and sampled where it is a candidate (R501). -/
def State.headDrop (s : State) (kind : ReqKind) (fr : RxFrame) (k counter outcome detail : Nat) : State :=
  let c := s.sampleStart kind fr k
  (c.2.inc counter).sampleDrop { s.requestOf kind fr k with sample := c.1 } outcome detail

/-- A request that passed the headrace's checks goes to its pipeline, or waits with its moving bucket (R223, R224). -/
def State.admitRequest (s : State) (kind : ReqKind) (fr : RxFrame) (k : Nat) : State :=
  let c := s.sampleStart kind fr k
  let r : Request := { s.requestOf kind fr k with sample := c.1 }
  let s := c.2
  match s.hrc.moves.find? (fun m => decide (m.bucket = r.bucket)) with
  | some m =>
    if m.held.length < 64 then
      { s with hrc := { s.hrc with moves := s.hrc.moves.map (fun (x : BucketMove) =>
        if x.bucket = r.bucket then { x with held := x.held ++ [r] } else x) } }
    else s.queueDrop.sampleDrop r 5 0x20
  | none => s.handToPipe r.pipe r

/-- A claimed frame waits for its engine or ring. -/
def State.claim (s : State) (kind : ClaimKind) (fr : RxFrame) : State :=
  { s with ports := { s.ports with claims := s.ports.claims ++ [⟨kind, fr⟩] } }

/-- The oldest claim of a kind, taken out. -/
def State.takeClaim (s : State) (p : Claim → Bool) : Option (Claim × State) :=
  match s.ports.claims.find? p with
  | none => none
  | some c => some (c, { s with ports := { s.ports with claims := s.ports.claims.erase c } })

/-- Extension fields of an NTP request (R224, R237): type and whole bytes of each; none where they do not parse. -/
def extFields : Nat → Bytes → Option (List (Nat × Bytes))
  | 0, d => if d = [] then some [] else none
  | n + 1, d =>
    if d = [] then some []
    else
      let len := beAt d 2 2
      if len < 4 ∨ d.length < len then none
      else (extFields n (d.drop len)).map (fun r => (beAt d 0 2, d.take len) :: r)

/-- The bytes after the header parse as extension fields of which one is an NTS Cookie (R224 order 7). -/
def hasCookie (d : Bytes) : Bool :=
  match extFields 400 d with
  | some l => l.any (fun e => decide (e.1 = 0x0204))
  | none => false

/-- The headrace's checks of an NTP datagram (R224). -/
def State.classifyNtp (s : State) (fr : RxFrame) (p : Packet) (k : Nat) : State :=
  let d := p.udp
  let vn := beAt d 0 1 / 8 % 8
  let mode := beAt d 0 1 % 8
  if badAddress p.sip ∨ beAt p.l4 0 2 = 0 then s.headDrop .ntp fr k A.hrcBadSource 5 1
  else if d.length < 48 then s.headDrop .ntp fr k A.hrcNtpShort 5 2
  else if vn ≠ 3 ∧ vn ≠ 4 then s.headDrop .ntp fr k A.hrcNtpVersion 5 3
  else if mode = 6 ∨ mode = 7 then s.claim (.exc 4) fr
  else if mode ≠ 3 then s.headDrop .ntp fr k A.hrcNtpMode 5 5
  else if d.length = 68 ∨ d.length = 72 then s.claim (.exc 5) fr
  else if vn = 4 ∧ hasCookie (d.drop 48) then s.admitRequest .nts fr k
  else s.admitRequest .ntp fr k

/-- The headrace's checks of an Etxel request (R283). -/
def State.classifyEtxel (s : State) (fr : RxFrame) (p : Packet) (k : Nat) : State :=
  let d := p.udp
  if badAddress p.sip ∨ beAt p.l4 0 2 = 0 then s.headDrop .etxel fr k A.hrcBadSource 5 0x11
  else if d.length < 256 then s.headDrop .etxel fr k A.rcpShort 5 0x12
  else if beAt d 0 4 ≠ 0x4554584C ∨ beAt d 4 1 ≠ 1 ∨ beAt d 5 1 ≠ 1 ∨ (beAt d 6 1 ≠ 32 ∧ beAt d 6 1 ≠ 64) ∨
      (beAt d 6 1 = 32 ∧ beAt d 60 32 ≠ 0) then s.headDrop .etxel fr k A.rcpBadReq 5 0x13
  else s.admitRequest .etxel fr k

/-! ### Roughtime messages (R292; the message format is PRESUMED from the Internet-Draft) -/

/-- The tags and values of a Roughtime message. -/
def rtFields (d : Bytes) : Option (List (Nat × Bytes)) :=
  let n := leAt d 0 4
  if d.length < 4 ∨ n = 0 ∨ d.length < 8 * n then none
  else
    let off : Nat → Nat := fun i => if i = 0 then 0 else leAt d (4 * i) 4
    let start := 8 * n
    let stop : Nat → Nat := fun i => if i + 1 < n then off (i + 1) else d.length - start
    if (List.range n).all (fun i => decide (off i ≤ stop i) && decide (stop i ≤ d.length - start) && decide (off i % 4 = 0)) then
      some ((List.range n).map (fun i => (leAt d (4 * n + 4 * i) 4, slice d (start + off i) (stop i - off i))))
    else none

/-- A four-letter tag. -/
def rtTag (a b c d : Char) : Nat := a.toNat + 256 * (b.toNat + 256 * (c.toNat + 256 * d.toNat))

/-- A request's message: its versions, as draft numbers, and its nonce; none where it cannot be parsed or lacks NONC. -/
def rtRequest (d : Bytes) : Option (List Nat × Bytes) :=
  if beAt d 0 8 ≠ 0x524F55474854494D then none
  else match rtFields (slice d 12 (leAt d 8 4)) with
    | none => none
    | some l =>
      match l.find? (fun e => decide (e.1 = rtTag 'N' 'O' 'N' 'C')) with
      | none => none
      | some n =>
        let v := (l.find? (fun e => decide (e.1 = rtTag 'V' 'E' 'R' (Char.ofNat 0)))).map Prod.snd
        some ((indices 16 (fun k => (List.range ((v.getD []).length / 4)).any (fun i =>
          decide (leAt (v.getD []) (4 * i) 4 = 0x80000000 + k)))), n.2)

/-- The highest revision of 08 to 12 that a version list offers. -/
def rtRevision (l : List Nat) : Option Nat := [12, 11, 10, 9, 8].find? (fun r => l.contains r)

/-- The headrace's checks of a Roughtime request (R292). -/
def State.classifyRoughtime (s : State) (fr : RxFrame) (p : Packet) (k : Nat) : State :=
  let d := p.udp
  if badAddress p.sip ∨ beAt p.l4 0 2 = 0 then s.headDrop .roughtime fr k A.hrcBadSource 5 0x11
  else if d.length < 1024 then s.headDrop .roughtime fr k A.rcpShort 5 0x12
  else match rtRequest d with
    | none => s.headDrop .roughtime fr k A.rcpBadReq 5 0x13
    | some (v, _) => if (rtRevision v).isNone then s.headDrop .roughtime fr k A.rcpRtVersion 8 4 else s.admitRequest .roughtime fr k

/-! ### Classification (R219) -/

/-- An accepted destination of a PTP message, event messages on port 319 and general ones on port 320 (R254). -/
def State.ptpDest (s : State) (sl : Nat) (p : Packet) : Bool :=
  if p.etype = 0x88F7 then decide (ofBe p.dst = 0x011B19000000) || decide (ofBe p.dst = 0x0180C200000E)
  else if p.proto = 17 ∧ p.fragment = false ∧ beAt p.l4 2 2 = (if beAt p.udp 0 1 % 16 < 4 then 319 else 320) then
    decide (p.dip = mapped [224, 0, 1, 129]) || decide (ofBe p.dip = 0xFF0E * 2 ^ 112 + 0x181) ||
    (List.range 64).any (fun k => !s.addrFaulty k && s.bit (A.hrcAddrSvc k) 0 && s.bit (A.hrcAddrSvc k) (8 + sl) &&
      decide (s.addrIp k = p.dip))
  else false

/-- An ESMC PDU (R270). -/
def isEsmc (p : Packet) : Bool :=
  decide (ofBe p.dst = 0x0180C2000002) && decide (p.etype = 0x8809) && decide (beAt p.body 0 1 = 0x0A)

/-- An ICMPv6 neighbor-discovery message: types 133 to 137. -/
def Packet.nd (p : Packet) : Bool :=
  p.v6 && decide (p.proto = 58) && decide (133 ≤ beAt p.l4 0 1) && decide (beAt p.l4 0 1 ≤ 137)

/-- A frame addressed to the link's station, a service address or its solicited-node group (R219). -/
def State.addressed (s : State) (sl : Nat) (p : Packet) : Bool :=
  decide (p.dst = s.station sl) ||
  ((p.v4 || p.v6) && (List.range 64).any (fun k => !s.addrFaulty k && s.bit (A.hrcAddrSvc k) 0 &&
    (decide (s.addrIp k = p.dip) ||
     (decide (beAt p.dip 0 13 = 0xFF0200000000000000000001FF) && decide (beAt (s.addrIp k) 13 3 = beAt p.dip 13 3) &&
      decide ((s.addrIp k).take 12 ≠ zeros 10 ++ [0xFF, 0xFF])))))

/-- A matching frame (R219). -/
def State.classifyMatch (s : State) (fr : RxFrame) (p : Packet) (k : Nat) : Option State :=
  let svc : Nat → Bool := fun i => s.bit (A.hrcAddrSvc k) i
  let dport := beAt p.l4 2 2
  if p.options ∨ p.fragment ∨ p.extension then some (s.claim (.exc 6) fr)
  else if p.proto = 6 then some (s.claim (.exc (if dport = 4460 then 0 else 1)) fr)
  else if p.proto = 1 ∨ p.proto = 58 then some (s.claim (.exc 2) fr)
  else if p.proto = 17 ∧ dport = 123 ∧ (svc 1 ∨ svc 2) then some (s.classifyNtp fr p k)
  else if p.proto = 17 ∧ dport = s.f A.rcpPorts 0 16 ∧ svc 4 then some (s.classifyEtxel fr p k)
  else if p.proto = 17 ∧ dport = s.f A.rcpPorts 16 16 ∧ svc 3 then some (s.classifyRoughtime fr p k)
  else none

/-- The headrace's classification of a frame that passed orders 1 to 10 of R194 (R219). -/
def State.classify (s : State) (fr : RxFrame) (p : Packet) : State :=
  let unclaimed : State → State := fun t => t.inc (A.macLinkUnclaimed fr.sl)
  let target := if p.etype = 0x0806 then mapped (slice p.body 24 4)
    else if p.nd ∧ beAt p.l4 0 1 = 135 then slice p.l4 8 16 else p.dip
  if (p.etype = 0x0806 ∨ p.v4 ∨ p.v6) ∧ s.atFaulty fr.sl target p.tags then unclaimed s
  else if p.etype = 0x0806 then
    (if beAt p.body 6 2 = 1 ∧ (s.matchAddr fr.sl target p.tags).isSome ∧ bitOf (s.hrcWord A.hrcCfg) 0 then s.claim .arp fr
     else s.claim (.exc 3) fr)
  else if p.nd then
    (if beAt p.l4 0 1 = 135 ∧ ofBe p.sip ≠ 0 ∧ (s.matchAddr fr.sl target p.tags).isSome ∧ bitOf (s.hrcWord A.hrcCfg) 1 then
       s.claim .nd fr
     else s.claim (.exc 3) fr)
  else if isEsmc p then s.claim .esmc fr
  else if s.ptpDest fr.sl p then s.claim .ptp fr
  else
    let byMatch := if p.v4 ∨ p.v6 then
        (match s.matchAddr fr.sl p.dip p.tags with
         | some k => s.classifyMatch fr p k
         | none => none)
      else none
    match byMatch with
    | some t => t
    | none => if s.addressed fr.sl p then s.claim (.exc 7) fr else unclaimed s

/-- A good frame (R194 orders 7 to 11) whose first bit was captured at an instant in ps. -/
def State.goodFrame (s : State) (sl cap : Nat) (d : Bytes) : State :=
  let p := packetOf d
  let fr : RxFrame := ⟨sl, s.rxInstant sl cap, d⟩
  let t := (s.inc (A.macLinkRxFrames sl)).count (A.macLinkRxOctets sl) (d.length + 4)
  if p.etype = 0x8808 then
    (if beAt p.body 0 2 = 1 then (t.inc (A.macLinkPauseRx sl)).pauseReceived sl (beAt p.body 2 2)
     else t.inc (A.macLinkCtrlOther sl))
  else if p.ipSumOk = false then t.inc (A.macLinkIpCsum sl)
  else if p.udpSumOk = false then t.inc (A.macLinkUdpCsum sl)
  else if p.etype = 0x88B5 ∧ ((s.lnk sl).probe.any (fun q => decide (q.1 = beAt p.body 0 2))) = true then
    t.probeReturn sl (beAt p.body 0 2) cap
  else t.classify fr p

/-! ### Reception (R192 to R194, R206) -/

/-- The frame that a MAC of a link receives: the express one, or the preemptable one. -/
def State.rxOpen (s : State) (sl : Nat) (ex : Bool) : Option RxOpen := if ex then (s.lnk sl).rxExpress else (s.lnk sl).rxPre

/-- Changing it. -/
def State.setRx (s : State) (sl : Nat) (ex : Bool) (r : Option RxOpen) : State :=
  s.setLink sl (fun l => if ex then { l with rxExpress := r } else { l with rxPre := r })

/-- Bytes of a frame arrive, `n` with the FCS (R192, R194): cells are allocated for them as far as MAX_FRAME + 1; a cell that is
not there, and then byte MAX_FRAME + 1, drops the frame at once. -/
def State.rxBytes (s : State) (sl : Nat) (ex : Bool) (r : RxOpen) (d : Bytes) (n : Nat) : State :=
  let m := r.data.length + n
  let max := s.maxFrame sl 0
  let occ := (s.setRx sl ex none).cellsHeld sl + cellsFor (min m (max + 1))
  if r.dead then s.setRx sl ex (some r)
  else if cellsOf (s.macMode (sl / 4)) < occ then (s.inc (A.macLinkFullDrop sl)).setRx sl ex (some { r with dead := true })
  else if max < m then ((s.weirHigh sl occ).inc (A.macLinkOversize sl)).setRx sl ex (some { r with dead := true })
  else (s.weirHigh sl occ).setRx sl ex (some { r with data := r.data ++ d })

/-- A frame that ends without its FCS (R194 orders 1, 4 and 5): `reg` counts it where it is neither a runt nor struck by the
line. -/
def State.rxFail (s : State) (sl : Nat) (ex : Bool) (reg : Nat) : State :=
  match s.rxOpen sl ex with
  | none => s
  | some r =>
    let t := s.setRx sl ex none
    if r.dead then t
    else if r.data.length < 64 then t.inc (A.macLinkRunt sl)
    else if r.phy then t.inc (A.macLinkPhyErr sl)
    else t.inc reg

/-- A frame ends with its FCS (R194 orders 1, 4 and 6), or goes on to the checks of a good frame. -/
def State.rxFinish (s : State) (sl : Nat) (ex good : Bool) : State :=
  match s.rxOpen sl ex with
  | none => s
  | some r =>
    let t := s.setRx sl ex none
    if r.dead then t
    else if r.data.length + 4 < 64 then t.inc (A.macLinkRunt sl)
    else if r.phy then t.inc (A.macLinkPhyErr sl)
    else if good then t.goodFrame sl r.first r.data
    else t.inc (A.macLinkFcsErr sl)

/-- Bytes of the frame that a MAC receives, and how they end (R206): each fragment counts in FRAG_RX. -/
def State.rxPiece (s : State) (sl : Nat) (ex : Bool) (r : RxOpen) (x : RxPhys) : State :=
  let r := { r with phy := r.phy || x.phyErr }
  match x.stop with
  | .goesOn => s.rxBytes sl ex r x.data x.data.length
  | .fragment good =>
    let t := s.rxBytes sl ex { r with frags := r.frags + 1 } x.data x.data.length
    if ex then t.rxFinish sl ex false
    else
      let t := t.inc (A.macLinkFragRx sl)
      if good then t else t.rxFail sl ex (A.macLinkAssyErr sl)
  | .frame good =>
    let t := s.rxBytes sl ex r x.data (x.data.length + 4)
    (t.when (!ex && decide (0 < r.frags)) (fun u => u.inc (A.macLinkFragRx sl))).rxFinish sl ex good

/-- A start delimiter, and what follows it (R206): one that is unknown or misplaced counts in SMD_ERR; a fragment out of
sequence, and a frame whose continuation does not come, in ASSY_ERR. -/
def State.rxSmd (s : State) (sl : Nat) (x : RxPhys) : State :=
  let cap := s.nowPs - x.ago
  match x.smd with
  | .unknown => s.inc (A.macLinkSmdErr sl)
  | .express => (s.rxFail sl true (A.macLinkPhyErr sl)).rxPiece sl true ⟨0, 0, cap, [], false, false⟩ x
  | .start f => (s.rxFail sl false (A.macLinkAssyErr sl)).rxPiece sl false ⟨f % 4, 0, cap, [], false, false⟩ x
  | .cont f n =>
    (match s.rxOpen sl false with
     | none => s.inc (A.macLinkSmdErr sl)
     | some r =>
       if r.frame = f % 4 ∧ 0 < r.frags ∧ (r.frags - 1) % 4 = n % 4 then s.rxPiece sl false r x
       else (s.inc (A.macLinkFragRx sl)).rxFail sl false (A.macLinkAssyErr sl))
  | .rest ex =>
    (match s.rxOpen sl ex with
     | none => s
     | some r => s.rxPiece sl ex r x)

/-- FRAME_RX (R192 to R195, R199, R206): the ordered checks, each frame in one counter. -/
def State.frameRx (s : State) (sl : Nat) (x : RxPhys) : State :=
  if s.linkUp sl = false then s
  else ((s.count (A.macLinkFecCorrCw sl) x.fecCorr).count (A.macLinkFecUncorrCw sl) x.fecUncorr).rxSmd sl x

/-! ### ARP, Neighbor Solicitations and exception frames (R220, R221) -/

/-- ARP_REQUEST: the oldest ARP request that the headrace claimed is answered on the preemptable MAC. -/
def State.answerArp (s : State) : State :=
  match s.takeClaim (fun c => decide (c.kind = .arp)) with
  | none => s
  | some (c, t) =>
    let p := packetOf c.frame.data
    let me := t.station c.frame.sl
    let d := p.src ++ me ++ tagBytes p.tags 0x0806 ++ be 2 1 ++ be 2 0x0800 ++ [6, 4] ++ be 2 2 ++ me ++ slice p.body 24 4 ++
      slice p.body 8 6 ++ slice p.body 14 4
    t.queuePre c.frame.sl (padFrame d) none (some A.hrcArpReply)

/-- NEIGHBOR_SOLICITATION: answered by an advertisement with Solicited and Override set and hop limit 255 (R221, R518). -/
def State.answerNd (s : State) : State :=
  match s.takeClaim (fun c => decide (c.kind = .nd)) with
  | none => s
  | some (c, t) =>
    let p := packetOf c.frame.data
    let me := t.station c.frame.sl
    let target := slice p.l4 8 16
    let body : Nat → Bytes := fun sum => [136, 0] ++ be 2 sum ++ be 4 0x60000000 ++ target ++ [2, 1] ++ me
    let sum := inetSum (pseudo 6 target p.sip 58 32 ++ body 0)
    let d := p.src ++ me ++ tagBytes p.tags 0x86DD ++ ipv6Header target p.sip 0 255 58 32 ++ body sum
    t.queuePre c.frame.sl (padFrame d) none (some A.hrcNdReply)

/-- EXCEPTION_FRAME: the oldest frame of an exception class goes to the class's ring, or is unclaimed (R220). -/
def State.exceptionFrame (s : State) : State :=
  match s.takeClaim (fun c => match c.kind with
    | .exc _ => true
    | _ => false) with
  | none => s
  | some (c, t) =>
    let cls := match c.kind with
      | .exc k => k
      | _ => 0
    let ring := t.excRing cls
    if ring = 0xFF then t.inc (A.macLinkUnclaimed c.frame.sl)
    else (t.inc (A.macLinkRxToHost c.frame.sl)).deliverFrame ring cls c.frame.sl (stampOfPs c.frame.tRx) c.frame.data

/-! ### Client records (R232, R233) -/

/-- The record at an index. -/
def State.client (s : State) (i : Nat) : ClientRec := CellList.get (fun _ => ClientRec.empty) s.hrc.table i

/-- Writing a record back. -/
def State.setClient (s : State) (i : Nat) (r : ClientRec) : State :=
  { s with hrc := { s.hrc with table := CellList.set (fun _ => ClientRec.empty) s.hrc.table i r } }

/-- The 64 bytes of a record. -/
def ClientRec.bytes (r : ClientRec) : Bytes :=
  slice r.client 0 16 ++ le 1 r.gen ++ le 1 (b2n r.valid + 2 * b2n r.ipv4 + 4 * b2n r.nts + 8 * b2n r.overRate) ++ le 1 r.addr ++
  le 1 r.poll ++ le 2 r.tokens ++ zeros 2 ++ le 4 (r.tLast / 1000000000) ++ le 4 (r.tLast % 1000000000) ++ le 4 r.tKod ++
  le 4 r.tFirst ++ le 4 r.reqs ++ le 4 r.overs ++ le 4 r.ntsFails ++ zeros 12

/-- TABLE_GEN advances, which empties every record (R232). -/
def State.emptyTable (s : State) : State :=
  { s.sfW A.hrcStatus 16 8 (s.f A.hrcStatus 16 8 + 1) with hrc := { s.hrc with table := [] } }

/-! ### The groups of HRC (R249, R252) -/

/-- FROZEN of HRC. -/
def State.hrcFrozen (s : State) : State :=
  s.setBit A.hrcStatus 26 ([16, 17, 18, 19].any (fun g => decide ((s.group g).parity ≠ [])))

/-- The check of HRC_ADDR. -/
def checkHrcAddr (w : Nat → Word) : Option Nat :=
  let valid := indices 64 (fun k => bitOf (w (A.hrcAddrSvc k)) 0)
  let ip : Nat → Bytes := fun k => ipBytes (fun j => w (A.hrcAddrIp k j))
  firstReason [
    (!(rangesOk 16 w), 0x40),
    (valid.any (fun k => valid.any (fun j => decide (k < j) && decide (ip k = ip j) &&
      decide (w (A.hrcAddrVlan k) = w (A.hrcAddrVlan j)))), 0x41),
    (valid.any (fun k => badAddress (ip k)), 0x42),
    (valid.any (fun k => decide (fld (w (A.hrcAddrSvc k)) 1 4 = 0) || decide (fld (w (A.hrcAddrSvc k)) 8 8 = 0)), 0x43)]

/-- The check of HRC_CFG. -/
def checkHrcCfg (w : Nat → Word) : Option Nat := firstReason [(!(rangesOk 17 w), 0x40)]

/-- The check of HRC_MAP. -/
def checkHrcMap (s : State) (w : Nat → Word) : Option Nat :=
  firstReason [
    (!(rangesOk 18 w), 0x40),
    ((List.range 256).any (fun b => decide (2 ≤ s.pipeState (fld (w (A.hrcBucketMap (b / 8))) (4 * (b % 8)) 4))), 0x44)]

/-- The check of HRC_QUERY; the address counts where GO asks for a lookup. -/
def checkHrcQuery (w : Nat → Word) : Option Nat :=
  firstReason [
    (!(rangesOk 19 w), 0x40),
    (bitOf (w A.hrcQueryCmd) 0 && badAddress (ipBytes (fun j => w (A.hrcQueryAddr j))), 0x42)]

/-- An HRC_ADDR application (R230). -/
def State.applyHrcAddr (s : State) : State :=
  (({ s with hrc := { s.hrc with gen := s.hrc.gen + 1 } }.setBit A.hrcStatus 24 false).raise A.hrcEvent 1).hrcFrozen

/-- An HRC_CFG application: a change of V6_KEY64 empties the client table (R232). -/
def State.applyHrcCfg (s : State) (old : Nat → Word) : State :=
  (if bitOf (old A.hrcCfg) 2 = s.bit A.hrcCfg 2 then s else s.emptyTable).hrcFrozen

/-- An HRC_MAP application: each changed bucket moves (R223). `pipes` is the mapping that acted before. -/
def State.applyHrcMap (s : State) (pipes : Nat → Nat) : State :=
  ((s.each (List.range 256) (fun b u => u.moveBucket b (pipes b) (s.bucketPipe b))).showPipes).hrcFrozen

/-- An HRC_QUERY application: a lookup that changes nothing (R249). -/
def State.applyHrcQuery (s : State) : State :=
  let t := s.hrcFrozen
  if s.bit A.hrcQueryCmd 0 then
    let key := s.keyAddress (ipBytes (fun j => s.rd (A.hrcQueryAddr j)))
    let i := s.recordIndex key
    let r := s.client i
    let found := r.valid && decide (r.gen = s.f A.hrcStatus 16 8) && decide (r.client = key)
    let d := if found then r.bytes else zeros 64
    let u := (t.setBit A.hrcQueryCmd 0 false).wr A.hrcQueryResult (word (b2n found + 256 * i))
    (u.each (List.range 16) (fun j v => v.wr (A.hrcQueryRec j) (word (leAt d (4 * j) 4)))).raise A.hrcEvent 4
  else t

end Sys2Proof.Machine
end

