-- ==== Sys2Proof/Machine/Ntp.lean ====
section
/-!
DEFINITION. Plain NTP service (R225 to R235): the rate policy, the header of an answer, Kiss-o'-Death, and group SVP_PROF.
-/

namespace Sys2Proof.Machine

/-! ### The rate policy (R232 to R234) -/

/-- Fields of a profile's words. -/
def profInterval (r : Request) : Nat := fld (r.profile.getD 0 0) 0 17
def profBurst (r : Request) : Nat := fld (r.profile.getD 1 0) 0 8
def profAction (r : Request) : Nat := fld (r.profile.getD 2 0) 0 2
def profKodPoll (r : Request) : Nat := fld (r.profile.getD 2 0) 4 5
def profKodMin (r : Request) : Nat := fld (r.profile.getD 2 0) 16 12

/-- The token bucket of R234 in 1/256 token: `num / den` tokens for each ns; the tokens left, and whether over rate. -/
def takeToken (tokens dt num den burst : Nat) : Nat × Bool :=
  let t := min (256 * burst) (tokens + (qdiv (dt * num * 256 : Nat) den).toNat)
  if 256 ≤ t then (t - 256, false) else (t, true)

/-- A saturating 32-bit field of a record. -/
def satInc (n : Nat) : Nat := min 0xFFFFFFFF (n + 1)

/-- The poll field of an NTP request. -/
def requestPoll (r : Request) : Nat := beAt (packetOf r.frame.data).udp 2 1

/-- An untracked request and its pipeline's untracked bucket (R232, R234). -/
def State.chargeUntracked (s : State) (r : Request) : State × Nat :=
  let u := s.hrc.untracked.getD r.pipe (0, 0)
  let w := s.hrcWord A.hrcUntracked
  let now := r.frame.tRx / 1000
  let q := takeToken u.1 (now - u.2) (fld w 0 20) 1000000000 (fld w 20 12)
  let t := { s with hrc := { s.hrc with untracked := modAt s.hrc.untracked r.pipe (fun _ => (q.1, now)) } }
  let t := t.inc (A.svpPipeUntracked r.pipe)
  if q.2 then (t.inc (A.svpPipeUntrackedDrop r.pipe), 2) else (t, 0)

/-- A request that no client record can take: its record serves another client that is not idle (R232). -/
def State.untracked (s : State) (r : Request) : Bool :=
  let x := s.client (s.recordIndex r.key)
  x.valid && decide (x.gen = s.f A.hrcStatus 16 8) && decide (x.client ≠ r.key) &&
  !(decide (fld (s.hrcWord A.hrcClientIdle) 0 12 * 1000000000 < r.frame.tRx / 1000 - x.tLast))

/-- A request as its pipeline takes it: a sampled one notes whether it is untracked (R503). -/
def State.noteTracked (s : State) (r : Request) : Request :=
  { r with sample := r.sample.map (fun t => { t with untracked := s.untracked r }) }

/-- Charging a request at its t_rx: 0 within the rate or answered all the same, 1 over the rate with ACTION KOD, 2 dropped. -/
def State.charge (s : State) (r : Request) : State × Nat :=
  let i := s.recordIndex r.key
  let rec_ := s.client i
  let now := r.frame.tRx / 1000
  let sec := now / 1000000000
  let live := rec_.valid && decide (rec_.gen = s.f A.hrcStatus 16 8)
  let own := live && decide (rec_.client = r.key)
  let idle := decide (fld (s.hrcWord A.hrcClientIdle) 0 12 * 1000000000 < now - rec_.tLast)
  if live && !own && !idle then s.chargeUntracked r
  else
    let base : ClientRec := if own then rec_ else { ClientRec.empty with
      client := r.key, gen := s.f A.hrcStatus 16 8, valid := true, ipv4 := decide (r.key.take 12 = zeros 10 ++ [0xFF, 0xFF])
      tokens := 256 * profBurst r, tLast := now, tFirst := sec % 2 ^ 32 }
    let q := if profInterval r = 0 then (base.tokens, false)
      else takeToken base.tokens (now - base.tLast) 1 (profInterval r * 1000000) (profBurst r)
    let nr : ClientRec := { base with
      tokens := q.1, tLast := now, addr := r.entry, nts := decide (r.kind = .nts), overRate := q.2
      poll := if r.kind = .ntp ∨ r.kind = .nts then requestPoll r else base.poll
      reqs := satInc base.reqs, overs := if q.2 then satInc base.overs else base.overs }
    let t := s.setClient i nr
    let t := if live && !own then t.inc (A.svpPipeEvict r.pipe) else t
    if q.2 = false then (t, 0)
    else if profAction r = 0 then (t.inc (A.svpPipeRateAnswer r.pipe), 0)
    else if profAction r = 1 then (t, 1)
    else ((t.inc (A.svpPipeRateDrop r.pipe)).raise A.svpEvent 1, 2)

/-- A RATE Kiss-o'-Death is allowed KOD_MIN after the last one; T_KOD is updated, or the request is dropped (R234). -/
def State.kodOk (s : State) (r : Request) : State × Bool :=
  let i := s.recordIndex r.key
  let rec_ := s.client i
  let sec := r.frame.tRx / 1000000000000 % 2 ^ 32
  if rec_.tKod = 0 ∨ profKodMin r ≤ sec - rec_.tKod then
    (((s.setClient i { rec_ with tKod := sec }).inc (A.svpPipeKodRate r.pipe)).raise A.svpEvent 0, true)
  else ((s.inc (A.svpPipeRateDrop r.pipe)).raise A.svpEvent 1, false)

/-! ### Time in an NTP header (R227) -/

/-- The denominator of a UTC offset in units of 1 / (86,400 s × 2^16 / ns): smeared offsets are exact in it. -/
def utcDen : Nat := 86400 * 65536000000000

/-- The UTC offset u at an instant, times `utcDen` (R227). -/
def State.utcNum (s : State) (smear : Bool) (stamp : Nat) : Int :=
  let sec := stamp / 65536000000000
  if smear then
    match s.leaps.find? (fun l => decide (l.1.sec ≤ 43200 + sec) && decide (sec < 43200 + l.1.sec)) with
    | none => s.utcOffset sec * utcDen
    | some (e, d) => (e.offset - d) * utcDen + d * ((stamp : Int) - (e.sec - 43200 : Int) * 65536000000000)
  else
    match s.leaps.find? (fun l => decide (0 < l.2) && decide (l.1.sec = sec + 1)) with
    | none => s.utcOffset sec * utcDen
    | some (e, _) => e.offset * utcDen

/-- An instant as an NTP timestamp under an offset (R227): rounded to nearest, a carry propagated. -/
def ntpTime (stamp : Nat) (u : Int) : Bytes :=
  be 8 (unsigned ((2 * ((stamp : Int) * 86400 - u) * 2 ^ 32 + utcDen) / (2 * utcDen : Nat) + 2208988800 * 2 ^ 32) 64)

/-- The leap indicator (R231). -/
def State.leapIndicator (s : State) (smear : Bool) : Nat :=
  let sec := s.stamp / 65536000000000
  if smear then 0
  else match s.leaps.find? (fun l => decide (sec < l.1.sec) && decide (l.1.sec ≤ 86400 + sec)) with
    | some (_, d) => if 0 < d then 1 else 2
    | none => 0

/-- Root dispersion of a radius in ps (R226, R54). -/
def rootDispersion (rho : Nat) : Nat := if rho = 0xFFFFFFFF then 0xFFFFFFFF else min 0xFFFFFFFF (ceilDiv (rho * 65536) (10 ^ 12))

/-- The reference ID of a named phase reference (R228). -/
def State.refIdOf (s : State) : Nat :=
  match s.refs.lastPhase with
  | none => 0x484F4C44
  | some i =>
    if i ≤ 1 then 0x474E5353 else if i ≤ 5 then (if (s.refPair i).isSome then 0x41544F4D else 0x50505300)
    else if i = 8 ∨ i = 9 then 0x50545000 else 0x50454F52

/-- t_rx of a request in the timescale after every step since (R229). -/
def State.rxNow (s : State) (r : Request) : Nat := ((r.frame.tRx : Int) + 1000 * (s.ports.steps - r.steps)).toNat

/-- The timescale does not serve: FREE_RUN or LOST (R231). -/
def State.unserved (s : State) : Bool := decide (s.tscMode = 0) || decide (s.tscMode = 4)

/-- The 48-byte header of an answer at finalisation (R226 to R231). -/
def State.ntpHeader (s : State) (r : Request) (tTx : Nat) : Bytes :=
  let d := (packetOf r.frame.data).udp
  let smear := bitOf r.policy 1
  let u := s.utcNum smear s.stamp
  let lost := s.unserved
  let li := if lost then 3 else s.leapIndicator smear
  let stratum := if lost then 16 else fld r.policy 2 4
  let disp := if s.tscMode = 0 then 0xFFFFFFFF else rootDispersion s.ts.rho
  let refid := if s.tscMode = 4 then 0x4C4F5354 else if s.tscMode = 0 then 0x494E4954
    else if r.refid ≠ 0 then r.refid.toNat else s.refIdOf
  let tRef : Option Nat := if lost then none else (match s.refs.lastPhase with
    | none => none
    | some i => (s.refIn i).evalAt)
  let ref := match tRef with
    | none => zeros 8
    | some t => ntpTime (t * 65536) u
  be 1 (li * 64 + beAt d 0 1 / 8 % 8 * 8 + 4) ++ be 1 stratum ++ slice d 2 1 ++ [0xE1] ++ zeros 4 ++ be 4 disp ++
  be 4 refid ++ ref ++ slice d 40 8 ++ ntpTime (stampOfPs (s.rxNow r)) u ++ ntpTime (stampOfPs tTx) u

/-- The header of a Kiss-o'-Death (R235): it gives away no time. -/
def kodHeader (r : Request) (code : Nat) : Bytes :=
  let d := (packetOf r.frame.data).udp
  let poll := max (signed (beAt d 2 1) 8) (profKodPoll r)
  be 1 (3 * 64 + beAt d 0 1 / 8 % 8 * 8 + 4) ++ [0] ++ be 1 (unsigned poll 8) ++ [0xE1] ++ zeros 8 ++ be 4 code ++ zeros 8 ++
  slice d 40 8 ++ slice d 40 8 ++ slice d 40 8

/-- The addressing of a response to a request (R225). -/
def State.answerAddr (s : State) (r : Request) : Addressing :=
  replyTo (packetOf r.frame.data) (s.station r.frame.sl) (beAt (packetOf r.frame.data).l4 2 2)

/-- A frame's length on the link, without FCS. -/
def wireLength (a : Addressing) (n : Nat) : Nat := (padFrame (frameOf a (zeros n))).length

/-- A response with a fixed payload is handed over. -/
def State.sendFixed (s : State) (r : Request) (payload : Bytes) : State :=
  let a := s.answerAddr r
  s.handOver r.frame.sl (.fixed a payload) (some r) (wireLength a payload.length)

/-- A pipeline takes the request at the front of its queue when it is of a kind; slots are counted (R247). -/
def State.popRequest (s : State) (p : Nat) (kind : ReqKind) : Option (Request × State) :=
  match s.queue p with
  | [] => none
  | r :: rest => if r.kind = kind then some (r, s.setQueue p (fun _ => rest)) else none

/-- A request is not answered in this state (R231). -/
def State.suppressed (s : State) (r : Request) : Bool := s.unserved && bitOf r.policy 0

/-- NTP_REQUEST (R224, R226, R231, R234): the plain request at the front of a pipeline's queue. -/
def State.ntpRequest (s : State) (p : Nat) : State :=
  match s.popRequest p .ntp with
  | none => s
  | some (r, t) =>
    let t := (t.inc (A.svpPipeReqNtp p)).inc (A.svpPipeSlots p)
    let r := t.noteTracked r
    if bitOf r.svc 1 = false then (t.inc (A.svpPipePlainRefused p)).sampleDrop r 8 3
    else
      let q := t.charge r
      if q.2 = 2 then q.1.sampleDrop r 6 0
      else if q.2 = 1 then
        (let k := q.1.kodOk r
         if k.2 then k.1.sendFixed (r.outcome 2 0) (kodHeader r 0x52415445) else k.1.sampleDrop r 6 0)
      else if q.1.suppressed r then (q.1.inc (A.svpPipeSuppressed p)).sampleDrop r 7 0
      else
        let a := q.1.answerAddr r
        (q.1.inc (A.svpPipeAnswered p)).handOver r.frame.sl (.ntp r a) (some r) (wireLength a 48)

/-! ### Group SVP_PROF (R250) -/

/-- The check of SVP_PROF. -/
def checkSvpProf (w : Nat → Word) : Option Nat := firstReason [(!(rangesOk 20 w), 0x40)]

/-- FROZEN of SVP. -/
def State.svpFrozen (s : State) : State := s.setBit A.svpStatus 16 (decide ((s.group 20).parity ≠ []))

/-- An SVP_PROF application: a request uses the profile in force at its t_rx. -/
def State.applySvpProf (s : State) (oldActing : List Word) : State :=
  ({ s with hrc := { s.hrc with oldProfiles := oldActing, profilesAt := s.nowPs } }).svpFrozen

end Sys2Proof.Machine
end

