-- ==== Sys2Proof/Machine/Nts.lean ====
section
/-!
DEFINITION. NTS (R236 to R246): requests, cookies, master keys and their rotation, minting for the host, group NTS_CFG.
-/

namespace Sys2Proof.Machine

/-! ### Master keys (R242 to R245) -/

/-- The full-entropy output is available: the TRNG state is OK (R318). -/
def State.entropyOk (s : State) : Bool := decide (s.f A.pkeTrngStatus 0 2 = 1)

/-- KEEP as it acts. -/
def State.ntsKeep (s : State) : Nat := s.f A.ntsCfg 1 2

/-- ROTATE_EN as it acts: 0 in the parity safe state (R248). -/
def State.rotateEn (s : State) : Bool := decide ((s.group 21).parity = []) && s.bit A.ntsCfg 0

/-- KEYS, KEY_CUR and KEY_PREV show the keys held; the mirror in the cistern follows. -/
def State.showKeys (s : State) : State :=
  let ids := s.nts.keys.map Prod.fst
  let ids := if s.nts.current then ids else 0 :: ids
  let t := (s.sfW A.ntsStatus 0 3 s.nts.keys.length).wr A.ntsKeyCur (word (ids.getD 0 0))
  let t := t.each [0, 1, 2] (fun j u => u.wr (A.ntsKeyPrev j) (word (ids.getD (j + 1) 0)))
  { t with nts := { t.nts with mirror := some t.nts.keys } }

/-- The next KEY_ID: the first is drawn, each later one is the previous plus 1, skipping 0 (R242). -/
def State.nextKeyId (s : State) : Nat × State :=
  match s.nts.lastId with
  | some i => (if (i + 1) % 2 ^ 32 = 0 then 1 else (i + 1) % 2 ^ 32, s)
  | none =>
    let q := s.draw
    (if q.1 % 2 ^ 32 = 0 then 1 else q.1 % 2 ^ 32, q.2)

/-- A SERVICE_KEY journal record (R388). -/
def State.journalKey (s : State) (src : Source) (engine : Nat) (what : Nat) (reg old new : Nat) : State :=
  s.journalize 9 src reg 0 (le 1 engine ++ [Config.serviceKeyCode what] ++ zeros 2 ++ le 4 old ++ le 4 new)

/-- A new current key (R242, R243). -/
def State.newKey (s : State) : State :=
  let i := s.nextKeyId
  let k := i.2.drawBytes 32
  { k.2 with nts := { k.2.nts with keys := ((i.1, k.1) :: k.2.nts.keys).take (1 + k.2.ntsKeep), current := true, lastId := some i.1 } }

/-- A full-entropy request is refused or deferred (R318, R322). -/
def State.denyEntropy (s : State) : State := s.inc A.pkeFeDenied

/-- The next whole TAI second, in ns. -/
def State.nextSecond (s : State) : Nat := (s.nowNs / 1000000000 + 1) * 1000000000

/-- A rotation (R243): without full-entropy output it is deferred (R244). -/
def State.rotateNts (s : State) (src : Source) : State :=
  if s.entropyOk then
    let old := if s.nts.current then ((s.nts.keys.map Prod.fst).getD 0 0) else 0
    let t := { s with nts := { s.nts with rotateAt := none, deferred := none } }.newKey
    let t := (t.showKeys.inc A.ntsRotations).raise A.ntsEvent 0
    t.journalKey src 0 0 A.ntsCmd old ((t.nts.keys.map Prod.fst).getD 0 0)
  else
    ({ s with nts := { s.nts with rotateAt := none, deferred := some s.nextSecond } }.denyEntropy).raise A.ntsEvent 3

/-- NEXT_ROTATE shows the epoch entry's instant (R251). -/
def State.showRotate (s : State) : State :=
  match s.ts.calendar.find? (fun e => decide (e.2.action = 0x15)) with
  | none => (s.wr A.ntsNextRotateLo 0).wr A.ntsNextRotateHi 0
  | some e =>
    let sec := e.2.atNs / 1000000000
    (s.wr A.ntsNextRotateLo (word sec)).wr A.ntsNextRotateHi (word (sec / 2 ^ 32 % 65536))

/-- The epoch entry at the first instant of the grid strictly after now (R243). -/
def State.armEpoch (s : State) : State :=
  let p := s.f A.ntsEpochPeriod 0 20
  let o := s.f A.ntsEpochOffset 0 20
  let t := s.calDrop 0x15 0
  if s.rotateEn then
    let sec := (if s.nowNs / 1000000000 < o then 0 else (s.nowNs / 1000000000 - o) / p + 1) * p + o
    ((t.calNew (ownEntry 0x15 0 (sec * 1000000000) (p * 1000000000) 0 0)).2).showRotate
  else t.showRotate

/-- NTS_EPOCH (R243): the due epoch entry fires; one that a forward step skipped rotates once. -/
def State.ntsEpoch (s : State) : State :=
  s.fireDue (fun e => decide (e.action = 0x15)) (fun _ t => (t.rotateNts .calendar).showRotate)

/-- PURGE (R244): every key is wiped at once. -/
def State.ntsPurge (s : State) (src : Source) : State :=
  let old := (s.nts.keys.map Prod.fst).getD 0 0
  let t := { s with nts := { s.nts with keys := [], current := false } }
  ((t.showKeys).raise A.ntsEvent 1).journalKey src 0 1 A.ntsCmd old 0

/-- NTS_KEY_DRAWN (R244): the new current key after a purge is in place; without entropy it is deferred. -/
def State.ntsKeyDrawn (s : State) : State :=
  if s.nts.current then s
  else if s.entropyOk then s.newKey.showKeys
  else ({ s with nts := { s.nts with deferred := some s.nextSecond } }.denyEntropy).raise A.ntsEvent 3

/-- KEY_DEFER_RETRY (R244): a deferred draw is retried at each whole second. -/
def State.keyDeferRetry (s : State) : State :=
  if s.nts.deferred.any (fun at_ => decide (at_ ≤ s.nowNs)) then
    if s.entropyOk = false then { s with nts := { s.nts with deferred := some s.nextSecond } }.denyEntropy
    else if s.nts.current then s.rotateNts .module
    else ({ s with nts := { s.nts with deferred := none } }.newKey).showKeys
  else s

/-- At a whole second a rotation that ROTATE_NOW asked for takes place (R244). -/
def State.ntsSecond (s : State) : State :=
  match s.nts.rotateAt with
  | some (at_, src) => if at_ ≤ s.nowNs then s.rotateNts src else s
  | none => s

/-- NTS.CMD accepts ROTATE_NOW and PURGE alone (R244, R251). -/
def ntsCmdOk (v : Word) : Bool := decide (v = 1) || decide (v = 2)

/-- What an accepted NTS.CMD does. -/
def State.ntsCmd (s : State) (src : Source) (v : Word) : State :=
  if v = 1 then { s with nts := { s.nts with rotateAt := some (s.nextSecond, src) } }
  else s.ntsPurge src

/-- Start-up step 10 (R242): the held keys are restored from the cistern, or a new current key is drawn and KEY_LOST raised. -/
def State.restoreNts (s : State) : State :=
  match s.nts.mirror with
  | some (k :: l) => ({ s with nts := { s.nts with keys := k :: l, current := true, lastId := some k.1 } }.showKeys).armEpoch
  | _ =>
    let t := { s with nts := { s.nts with keys := [], current := false, lastId := none } }
    let t := (t.raise A.ntsEvent 2).journalKey .module 0 2 A.ntsCmd 0 0
    (t.ntsKeyDrawn.showKeys).armEpoch

/-! ### Group NTS_CFG (R245, R251, R252) -/

/-- A ring set up with a type, by values `w` or live. -/
def State.ringSetUp (s : State) (n type : Nat) : Bool := decide (s.ringType n = type)

/-- The check of NTS_CFG. -/
def checkNtsCfg (s : State) (w : Nat → Word) : Option Nat :=
  firstReason [
    (!(rangesOk 21 w), 0x40),
    (decide (fld (w A.ntsEpochPeriod) 0 20 ≤ fld (w A.ntsEpochOffset) 0 20), 0x45),
    (bitOf (w A.ntsMintCfg) 0 && !(s.ringSetUp (fld (w A.ntsMintCfg) 8 8) 5), 0x46)]

/-- FROZEN of NTS. -/
def State.ntsFrozen (s : State) : State := s.setBit A.ntsStatus 3 (decide ((s.group 21).parity ≠ []))

/-- An NTS_CFG application: previous keys beyond KEEP are wiped, oldest first, each journalled; the epoch entry is re-armed. -/
def State.applyNtsCfg (s : State) : State :=
  let surplus := (s.nts.keys.drop (1 + s.ntsKeep)).reverse
  let t := { s with nts := { s.nts with keys := s.nts.keys.take (1 + s.ntsKeep) } }
  let t := t.each surplus (fun k u => u.journalKey .module 0 1 A.ntsCfg k.1 0)
  (t.showKeys.armEpoch).ntsFrozen

/-! ### NTS requests (R237 to R240) -/

/-- The parts of an Authenticator: nonce and ciphertext. -/
def authParts (f : Bytes) : Bytes × Bytes :=
  let n := beAt f 4 2
  (slice f 8 n, slice f (8 + ceilDiv n 4 * 4) (beAt f 6 2))

/-- The extension fields of an NTS request are well formed (R237). -/
def ntsWellFormed (l : List (Nat × Bytes)) : Bool :=
  let count : Nat → Nat := fun t => (l.filter (fun e => decide (e.1 = t))).length
  let last := (l.getLast?).getD (0, [])
  let a := last.2
  decide (l.length ≤ 16) && l.all (fun e => decide (e.2.length % 4 = 0) && decide (16 ≤ e.2.length)) &&
  decide (count 0x0104 = 1) && decide (count 0x0204 = 1) && decide (count 0x0304 ≤ 7) && decide (count 0x0404 = 1) &&
  decide (last.1 = 0x0404) &&
  l.all (fun e => if e.1 = 0x0104 then decide (36 ≤ e.2.length) && decide (e.2.length ≤ 260) else true) &&
  decide (16 ≤ beAt a 4 2) && decide (beAt a 4 2 ≤ 32) && decide (16 ≤ beAt a 6 2) && decide (beAt a 6 2 ≤ 256) &&
  decide (8 + ceilDiv (beAt a 4 2) 4 * 4 + beAt a 6 2 ≤ a.length)

/-- A held master key of a KEY_ID. -/
def State.masterKey (s : State) (id : Nat) : Option Bytes := (s.nts.keys.find? (fun k => decide (k.1 = id))).map Prod.snd

/-- A cookie opened under the key it names: C2S and S2C (R241). -/
def State.openCookie (s : State) (c : Bytes) : Option (Option (Bytes × Bytes)) :=
  match s.masterKey (beAt c 0 4) with
  | none => none
  | some k =>
    if c.length = 100 then
      some ((sivOpen k [slice c 0 4, slice c 4 16] (c.drop 20)).map (fun p => (slice p 0 32, slice p 32 32)))
    else some none

/-- One cookie under the current key (R241); the nonce is a free value of the nonce generator. -/
def State.mintCookie (s : State) (c2s s2c : Bytes) : Bytes × State :=
  match s.nts.keys with
  | [] => ([], s)
  | (id, k) :: _ =>
    let n := s.drawBytes 16
    (be 4 id ++ n.1 ++ sivSeal k [be 4 id, n.1] (c2s ++ s2c), n.2)

/-- `n` cookies, each in an NTS Cookie field where `field` says so. -/
def State.mintCookies (s : State) (c2s s2c : Bytes) (field : Bool) : Nat → Bytes × State
  | 0 => ([], s)
  | n + 1 =>
    let r := s.mintCookies c2s s2c field n
    let c := r.2.mintCookie c2s s2c
    (r.1 ++ (if field then be 2 0x0204 ++ be 2 (4 + c.1.length) else []) ++ c.1, c.2)

/-- A failure of steps 3 to 5 of R238: the record's NTS_FAILS, and an NTS NAK where the entry sends one and the request is not
over rate. -/
def State.ntsFailure (s : State) (r : Request) (counter : Nat) (uid : Bytes) (overRate : Bool) (step : Nat) : State :=
  let i := s.recordIndex r.key
  let rec_ := s.client i
  let t := if rec_.client = r.key then s.setClient i { rec_ with ntsFails := satInc rec_.ntsFails } else s
  let t := t.inc counter
  if bitOf r.policy 8 = true ∧ overRate = false then
    (t.inc (A.svpPipeNtsnSent r.pipe)).sendFixed (r.outcome 3 step) (kodHeader r 0x4E54534E ++ uid)
  else t.sampleDrop r 8 5

/-- The payload length of an NTS answer: header, Unique Identifier, Authenticator with `n` cookie fields (R239). -/
def ntsLength (uid : Bytes) (n : Nat) : Nat := 48 + uid.length + 8 + 16 + 16 + 104 * n

/-- An NTS request whose rate decision stands: steps 3 to 6 of R238. -/
def State.ntsOpen (s : State) (r : Request) (l : List (Nat × Bytes)) (overRate kod : Bool) : State :=
  let p := r.pipe
  let d := (packetOf r.frame.data).udp
  let field : Nat → Bytes := fun t => ((l.find? (fun e => decide (e.1 = t))).map Prod.snd).getD []
  let uid := field 0x0104
  let auth := field 0x0404
  let n := 1 + (l.filter (fun e => decide (e.1 = 0x0304) && decide (e.2.length = 104))).length
  match s.openCookie ((field 0x0204).drop 4) with
  | none => (s.inc (A.svpPipeSlots p)).ntsFailure r (A.svpPipeCookieKey p) uid overRate 3
  | some none => (s.count (A.svpPipeSlots p) (1 + n)).ntsFailure r (A.svpPipeCookieFail p) uid overRate 4
  | some (some (c2s, s2c)) =>
    let t := s.count (A.svpPipeSlots p) (1 + n)
    let a := authParts auth
    match sivOpen c2s [d.take (d.length - auth.length), a.1] a.2 with
    | none => t.ntsFailure r (A.svpPipeAuthFail p) uid overRate 5
    | some _ =>
      let addr := t.answerAddr r
      let len := wireLength addr (ntsLength uid n)
      if kod then
        let k := t.kodOk r
        if k.2 then k.1.handOver r.frame.sl (.nts r addr uid c2s s2c n true) (some (r.outcome 2 0)) len else k.1.sampleDrop r 6 0
      else (t.inc (A.svpPipeAnswered p)).handOver r.frame.sl (.nts r addr uid c2s s2c n false) (some r) len

/-- NTS_REQUEST (R237, R238): the NTS request at the front of a pipeline's queue. -/
def State.ntsRequest (s : State) (p : Nat) : State :=
  match s.popRequest p .nts with
  | none => s
  | some (r, t) =>
    let t := t.inc (A.svpPipeReqNts p)
    let r := t.noteTracked r
    let l := (extFields 400 ((packetOf r.frame.data).udp.drop 48)).getD []
    if bitOf r.svc 2 = false then ((t.inc (A.svpPipeSlots p)).inc (A.svpPipeNtsOff p)).sampleDrop r 8 2
    else if ntsWellFormed l = false then ((t.inc (A.svpPipeSlots p)).inc (A.svpPipeNtsMalformed p)).sampleDrop r 8 1
    else
      let q := t.charge r
      if q.2 = 2 then (q.1.inc (A.svpPipeSlots p)).sampleDrop r 6 0
      else if q.2 = 0 ∧ q.1.suppressed r then ((q.1.inc (A.svpPipeSlots p)).inc (A.svpPipeSuppressed p)).sampleDrop r 7 0
      else
        let c := q.1.client (q.1.recordIndex r.key)
        q.1.ntsOpen r l (decide (q.2 = 1) || (c.overRate && decide (c.client = r.key))) (decide (q.2 = 1))

/-- The payload of an NTS answer at finalisation (R239): header, Unique Identifier and Authenticator over the final bytes. -/
def State.ntsPayload (s : State) (r : Request) (uid c2s s2c : Bytes) (n : Nat) (kod : Bool) (tTx : Nat) : Bytes × State :=
  let head := if kod then kodHeader r 0x52415445 else s.ntpHeader r tTx
  let c := s.mintCookies c2s s2c true n
  let nonce := c.2.drawBytes 16
  let ct := sivSeal s2c [head ++ uid, nonce.1] c.1
  (head ++ uid ++ be 2 0x0404 ++ be 2 (8 + 16 + ct.length) ++ be 2 16 ++ be 2 ct.length ++ nonce.1 ++ ct, nonce.2)

/-! ### Minting for the host (R246) -/

/-- The outcome of a mint record. -/
def State.mintStatus (s : State) (m : Bytes) : Nat :=
  if s.nts.current = false then 7
  else if leAt m 0 2 ≠ 15 then 0x40
  else if leAt m 2 1 = 0 ∨ 8 < leAt m 2 1 then 0x41
  else if leAt m 80 4 < 100 * leAt m 2 1 then 0x42
  else 0

/-- MINT_JOB (R246): the first waiting descriptor of the mint ring; `m` is the mint record read from host memory, none where
the read failed. -/
def State.mintJob (s : State) (m : Option Bytes) : State :=
  let n := s.f A.ntsMintCfg 8 8
  if s.bit A.ntsMintCfg 0 = false ∨ s.ringType n ≠ 5 ∨ s.ringLive n = false then s
  else match s.startWork n with
    | (none, t) => t
    | (some d, t) =>
      match m with
      | none => t.endWork n d.slot 0x41 0
      | some m =>
        let st := t.mintStatus m
        let t := if s.bit A.ntsMintCfg 16 then t.hostWrite (d.addr + 8) (zeros 64) else t
        let t := t.inc A.ntsMintJobs
        if st = 0 then
          let k := leAt m 2 1
          let c := t.mintCookies (slice m 8 32) (slice m 40 32) false k
          let u := (c.2.hostWrite (leAt m 72 8) c.1).hostWrite (d.addr + 84) (le 4 ((c.2.nts.keys.map Prod.fst).getD 0 0))
          (u.count A.ntsMinted k).endWork n d.slot 0 (100 * k)
        else ((t.inc A.ntsMintFail).raise A.ntsEvent 5).endWork n d.slot st 0

end Sys2Proof.Machine
end

