-- ==== Sys2Proof/Machine/Ptp.lean ====
section
/-!
DEFINITION. PTP (R253 to R263): the dataset, the messages and their addressing, emission on departure slots, Delay_Req and
unicast grants.
-/

namespace Sys2Proof.Machine

/-! ### Words as they act (R273) -/

/-- A word of PTP_CFG failed its parity. -/
def State.ptpFaulty (s : State) (a : Nat) : Bool := (s.group 22).parity.contains a

/-- CFG and the radius words act at their reset values in the safe state. -/
def State.ptpWord (s : State) (a : Nat) : Word := if s.ptpFaulty a then resetOf a else s.rd a

/-- Instance `i` is enabled and none of its words is in the safe state. -/
def State.instOn (s : State) (i : Nat) : Bool :=
  s.bit (A.ptpInstCfg i) 0 &&
  !([A.ptpInstCfg i, A.ptpInstLinks i, A.ptpInstRates i, A.ptpInstDs i].any (fun a => s.ptpFaulty a))

/-- The words of slave instance `n`. -/
def slvWords (n : Nat) : List Nat :=
  [A.ptpSlvCfg n, A.ptpSlvRates n, A.ptpSlvPrio n] ++ (List.range 16).map (fun j => A.ptpSlvMaster n j)

/-- Slave instance `n` is enabled and none of its words is in the safe state. -/
def State.slvOn (s : State) (n : Nat) : Bool := s.bit (A.ptpSlvCfg n) 0 && !((slvWords n).any (fun a => s.ptpFaulty a))

/-- The period of a log interval in ns. -/
def logPeriod (l : Int) : Nat := if 0 ≤ l then 1000000000 * 2 ^ l.toNat else 1000000000 / 2 ^ (-l).toNat

/-- PROFILE, TRANSPORT and DOMAIN of an INST or SLV CFG word. -/
def cfgProfile (w : Word) : Nat := fld w 1 2
def cfgTransport (w : Word) : Nat := fld w 3 2
def cfgDomain (w : Word) : Nat := fld w 8 8

/-- Multicast Sync, Announce and Delay_Req intervals of an instance: fixed under profile 1 (R253). -/
def State.instLogSync (s : State) (i : Nat) : Int :=
  if cfgProfile (s.rd (A.ptpInstCfg i)) = 1 then -4 else s.sf (A.ptpInstRates i) 0 4
def State.instLogAnn (s : State) (i : Nat) : Int :=
  if cfgProfile (s.rd (A.ptpInstCfg i)) = 1 then -3 else s.sf (A.ptpInstRates i) 4 4
def State.instLogDreq (s : State) (i : Nat) : Int :=
  if cfgProfile (s.rd (A.ptpInstCfg i)) = 1 then -4 else s.sf (A.ptpInstRates i) 8 4

/-- The intervals of a slave instance. -/
def State.slvLogSync (s : State) (n : Nat) : Int :=
  if cfgProfile (s.rd (A.ptpSlvCfg n)) = 1 then -4 else s.sf (A.ptpSlvRates n) 0 4
def State.slvLogAnn (s : State) (n : Nat) : Int :=
  if cfgProfile (s.rd (A.ptpSlvCfg n)) = 1 then -3 else s.sf (A.ptpSlvRates n) 4 4
def State.slvLogDreq (s : State) (n : Nat) : Int :=
  if cfgProfile (s.rd (A.ptpSlvCfg n)) = 1 then -4 else s.sf (A.ptpSlvRates n) 8 4

/-- LINK of a slave instance. -/
def State.slvLink (s : State) (n : Nat) : Nat := s.f (A.ptpSlvCfg n) 16 3

/-! ### The grandmaster dataset (R256 to R258) -/

/-- The selected phase reference steers at a class no worse than MQ2. -/
def State.primeSelected (s : State) : Bool := s.phaseSel && decide (s.refMq s.sel ≤ 2)

/-- clockClass in force (R256). -/
def State.clockClass (s : State) : Nat :=
  let rho := s.ts.rho
  if s.unserved then 248
  else if s.tscMode = 2 ∧ s.primeSelected = true ∧ rho ≤ fld (s.ptpWord A.ptpClass6Radius) 0 17 * 1000 then 6
  else if rho ≤ fld (s.ptpWord A.ptpClass7Radius) 0 22 * 1000 then 7
  else if rho ≤ fld (s.ptpWord A.ptpCatRadius) 0 22 * 1000 then 140
  else 150

/-- The bounds of IEEE 1588-2019 Table 5 in ps times 10 from code 0x17 on (R257; the values between those that the manual names
are PRESUMED from that table). -/
def accuracyBounds : List Nat :=
  [10, 25, 100, 250, 1000, 2500, 10000, 25000, 100000, 250000, 1000000, 2500000, 10000000, 25000000, 100000000, 250000000,
    1000000000, 2500000000, 10000000000, 25000000000, 100000000000]

/-- clockAccuracy of a radius in ps, without the floor. -/
def accuracyCode (rho : Nat) : Nat :=
  if rho = 0xFFFFFFFF then 0xFE
  else match (List.range 21).find? (fun i => decide (10 * rho ≤ accuracyBounds.getD i 0)) with
    | some i => 0x17 + i
    | none => 0x2C

/-- clockAccuracy with ACC_FLOOR (R257); without a radius it is 0xFE all the same. -/
def accuracyFor (rho floor : Nat) : Nat := if rho = 0xFFFFFFFF then 0xFE else max (accuracyCode rho) floor

/-- offsetScaledLogVariance (R257). -/
def varianceOf (cls : Nat) : Nat := if cls = 6 ∨ cls = 7 then 0x4E5D else 0xFFFF

/-- timeSource (R257), of the reference named under R228. -/
def State.timeSource (s : State) : Nat :=
  match s.refs.lastPhase with
  | none => 0xA0
  | some i => if i ≤ 1 then 0x20 else if 2 ≤ i ∧ i ≤ 5 then (if (s.refPair i).isSome then 0x10 else 0x90)
    else if i = 8 ∨ i = 9 then 0x40 else 0x90

/-- STATUS.CLASS and GM_DS follow the dataset; CLASS_CHANGE. -/
def State.showDataset (s : State) : State :=
  let c := s.clockClass
  let t := if s.f A.ptpStatus 0 8 = c then s else (s.sfW A.ptpStatus 0 8 c).raise A.ptpEvent 0
  t.wr A.ptpGmDs (word (accuracyCode s.ts.rho + 256 * s.timeSource + 65536 * varianceOf c))

/-- A leap with a sign lies at most 43,200 s ahead (R258). -/
def State.leapAhead (s : State) (positive : Bool) : Bool :=
  let sec := s.nowNs / 1000000000
  s.leaps.any (fun l => decide (0 < l.2) == positive && decide (sec < l.1.sec) && decide (l.1.sec ≤ 43200 + sec))

/-- currentUtcOffsetValid (R258). -/
def State.utcValid (s : State) : Bool :=
  (s.hostLeaps ++ s.learntLeaps).any (fun e => decide (e.sec ≤ s.nowNs / 1000000000))

/-- A frequency-only reference is selected. -/
def State.freqSelected (s : State) : Bool := freqRef s.sel && decide (s.qstate s.sel = 3)

/-- The second byte of flagField (R258): leap61, leap59, currentUtcOffsetValid, ptpTimescale, timeTraceable, frequencyTraceable. -/
def State.flagByte (s : State) : Nat :=
  let tr := decide (s.clockClass = 6) || decide (s.clockClass = 7)
  b2n (s.leapAhead true) + 2 * b2n (s.leapAhead false) + 4 * b2n s.utcValid + 8 + 16 * b2n tr + 32 * b2n (tr || s.freqSelected)

/-! ### Messages (R254, R256) -/

/-- The module's clockIdentity. -/
def State.clockId (s : State) : Bytes := be 8 (s.rd64 A.ptpClockIdLo)

/-- The module's portIdentity with a port number. -/
def State.portId (s : State) (n : Nat) : Bytes := s.clockId ++ be 2 n

/-- A PTP message: messageType, domain, flags, correctionField (in 2^-16 ns), port, sequenceId, logMessageInterval, body. The
fields that the manual does not describe are those of IEEE 1588-2019 (PRESUMED). -/
def State.ptpMessage (s : State) (mtype domain flags0 : Nat) (corr : Int) (port seq : Nat) (log : Int) (body : Bytes) : Bytes :=
  let control := match mtype with
    | 0 => 0 | 1 => 1 | 8 => 2 | 9 => 3 | 13 => 4 | _ => 5
  [byte mtype, 0x12] ++ be 2 (34 + body.length) ++ [byte domain, 0, byte flags0, byte s.flagByte] ++ be 8 (unsigned corr 64) ++
  zeros 4 ++ s.portId port ++ be 2 seq ++ [byte control, byte (unsigned log 8)] ++ body

/-- secondsField and nanosecondsField of an instant in 2^-16 ns. -/
def ptpTime (stamp : Nat) : Bytes :=
  let ns := stamp / 65536
  be 6 (ns / 1000000000) ++ be 4 (ns % 1000000000)

/-- logMessageInterval of a unicast message other than a Delay_Resp. -/
def logUnicast : Int := 0x7F

/-- The VLAN tags that an address entry's VLAN word gives (R218). -/
def tagsOf (v : Word) : List (Nat × Nat) :=
  if bitOf v 12 then
    (if bitOf v 13 then 0x88A8 else 0x8100, fld v 0 12) :: (if bitOf v 28 then [(0x8100, fld v 16 12)] else [])
  else []

/-- The addressing of the module's multicast messages on a link (R255). -/
def State.mcastAddr (s : State) (sl : Nat) (cfg : Word) (idx port : Nat) : Addressing :=
  let tr := cfgTransport cfg
  let l2 : Bytes := if bitOf cfg 7 then [1, 0x80, 0xC2, 0, 0, 0x0E] else [1, 0x1B, 0x19, 0, 0, 0]
  { dst := if tr = 0 then l2 else if tr = 1 then [1, 0, 0x5E, 0, 1, 0x81] else [0x33, 0x33, 0, 0, 1, 0x81]
    src := s.station sl
    tags := if tr = 0 then [] else tagsOf (s.rd (A.hrcAddrVlan idx))
    v := if tr = 0 then 0 else if tr = 1 then 4 else 6
    etype := 0x88F7
    sip := s.addrIp idx
    dip := if tr = 1 then mapped [224, 0, 1, 129] else be 16 (0xFF0E * 2 ^ 112 + 0x181)
    sport := port
    dport := port
    tos := 0
    ttl := 64 }

/-- Unicast addressing with the ports of an event or a general message (R255). -/
def withPort (a : Addressing) (port : Nat) : Addressing := { a with sport := port, dport := port }

/-- The reversed addressing of a received PTP frame (R255): DSCP 0. -/
def State.ptpReply (s : State) (fr : RxFrame) (port : Nat) : Addressing :=
  { replyTo (packetOf fr.data) (s.station fr.sl) port with tos := 0, dport := port }

/-- The PTP message of a received frame. -/
def ptpBytes (fr : RxFrame) : Bytes :=
  let p := packetOf fr.data
  let d := if p.etype = 0x88F7 then p.body else p.udp
  d.take (beAt d 2 2)

/-- The transport of a received frame: 0 L2, 1 UDP/IPv4, 2 UDP/IPv6. -/
def ptpTransport (fr : RxFrame) : Nat :=
  let p := packetOf fr.data
  if p.v4 then 1 else if p.v6 then 2 else 0

/-- A received frame came to a multicast destination. -/
def ptpMulticast (fr : RxFrame) : Bool :=
  let p := packetOf fr.data
  decide (p.etype = 0x88F7) || decide (p.dip = mapped [224, 0, 1, 129]) || decide (ofBe p.dip = 0xFF0E * 2 ^ 112 + 0x181)

/-- Parts of a PTP message. -/
def mType (d : Bytes) : Nat := beAt d 0 1 % 16
def mDomain (d : Bytes) : Nat := beAt d 4 1
def mCorr (d : Bytes) : Int := signed (beAt d 8 8) 64
def mPort (d : Bytes) : Bytes := slice d 20 10
def mSeq (d : Bytes) : Nat := beAt d 30 2

/-- The seconds and nanoseconds at byte 34, in ns. -/
def mTime (d : Bytes) : Nat := beAt d 34 6 * 1000000000 + beAt d 40 4

/-- The TLVs of a message: type and whole bytes of each. -/
def tlvs : Nat → Bytes → List (Nat × Bytes)
  | 0, _ => []
  | n + 1, d => if d.length < 4 then [] else (beAt d 0 2, d.take (4 + beAt d 2 2)) :: tlvs n (d.drop (4 + beAt d 2 2))

/-- Where the TLVs of a message type begin. -/
def tlvStart (t : Nat) : Nat := if t = 11 then 64 else if t = 9 then 54 else if t = 13 then 48 else 44

/-- The TLVs of a message. -/
def mTlvs (d : Bytes) : List (Nat × Bytes) := tlvs 400 (d.drop (tlvStart (mType d)))

/-- The next sequenceId of an instance binding and message type (R261). -/
def State.nextSeq (s : State) (inst sl mtype : Nat) : Nat × State :=
  let k := (inst * 8 + sl) * 16 + mtype
  let n := CellList.get (fun _ => 0) s.ptp.seqs k
  (n, { s with ptp := { s.ptp with seqs := CellList.set (fun _ => 0) s.ptp.seqs k ((n + 1) % 65536) } })

/-! ### Contexts (R262 to R264) -/

/-- A context. -/
def State.ctx (s : State) (k : Nat) : Option PtpCtx := (s.ptp.ctxs.find? (fun e => decide (e.1 = k))).map Prod.snd

/-- The log interval of a grant as CTX_READ shows it. -/
def logByte (g : Option Grant) : Nat := match g with
  | some x => unsigned x.log 8
  | none => 0x7F

/-- The TAI second at which a grant expires, as CTX_READ shows it; `now` and `meas` are the two scales' ns (R4). -/
def expWord (now meas : Nat) (g : Option Grant) : Nat := match g with
  | some x => ((now + x.exp : Nat) - meas) / 1000000000
  | none => 0

/-- Word `j` of a context (R264), at an instant of the two scales. -/
def PtpCtx.word (c : PtpCtx) (now meas j : Nat) : Word :=
  Sys2Proof.word (match j with
  | 0 => beAt c.client 0 4
  | 1 => beAt c.client 4 4
  | 2 => beAt c.client 8 4
  | 3 => beAt c.client 12 4
  | 4 => beAt c.port 4 4
  | 5 => beAt c.port 0 4
  | 6 => beAt c.port 8 2 + c.inst * 2 ^ 16 + c.sl % 4 * 2 ^ 20 + c.sl / 4 * 2 ^ 23 + 2 ^ 31
  | 7 => logByte c.sync + 256 * logByte c.ann + 65536 * logByte c.dresp
  | 8 => expWord now meas c.sync
  | 9 => expWord now meas c.ann
  | 10 => expWord now meas c.dresp
  | _ => 0)

/-- CTX_READ shows the context that CTX_INDEX names. -/
def State.showCtx (s : State) : State :=
  let c := s.ctx (s.f A.ptpCtxIndex 0 13)
  s.each (List.range 12) (fun j t => t.wr (A.ptpCtxRead j) (match c with
    | some x => x.word s.nowNs s.measNs j
    | none => 0))

/-- CTX_USED and INST CONTEXTS after a change of the contexts, and the shown one. -/
def State.showCtxs (s : State) : State :=
  let t := s.sfW A.ptpCtxUsed 0 14 s.ptp.ctxs.length
  (t.each (List.range 16) (fun i u =>
    u.sfW (A.ptpInstContexts i) 0 14 (s.ptp.ctxs.filter (fun e => decide (e.2.inst = i))).length)).showCtx

/-- Changing context `k`; one without a live grant is freed (R262). -/
def State.setCtx (s : State) (k : Nat) (c : PtpCtx) : State :=
  let l := if c.sync.isNone ∧ c.ann.isNone ∧ c.dresp.isNone then CellList.erase k s.ptp.ctxs else CellList.insert k c s.ptp.ctxs
  { s with ptp := { s.ptp with ctxs := l } }

/-- The lowest free context index. -/
def freeCtx (l : Cells PtpCtx) : Nat → Nat → Nat
  | 0, k => k
  | n + 1, k => if l.any (fun e => decide (e.1 = k)) then freeCtx l n (k + 1) else k

/-- The bytes that name a client: its IP, or its MAC in bytes 10 to 15 for L2 (R264). -/
def clientOf (p : Packet) : Bytes := if p.v4 ∨ p.v6 then p.sip else zeros 10 ++ p.src

/-- The context of a client port. -/
def State.findCtx (s : State) (inst : Nat) (client port : Bytes) : Option (Nat × PtpCtx) :=
  s.ptp.ctxs.find? (fun e => decide (e.2.inst = inst) && decide (e.2.client = client) && decide (e.2.port = port))

/-! ### Emission (R259) -/

/-- Some binding or grant on a link sends Sync or Announce at a log interval. -/
def State.syncNeeded (s : State) (sl : Nat) (l : Int) : Bool :=
  (List.range 16).any (fun i => s.instOn i && s.bit (A.ptpInstLinks i) sl &&
    (decide (s.instLogSync i = l) || decide (s.instLogAnn i = l))) ||
  s.ptp.ctxs.any (fun e => decide (e.2.sl = sl) &&
    (e.2.sync.any (fun g => decide (g.log = l)) || e.2.ann.any (fun g => decide (g.log = l))))

/-- An entry that is needed exists at the next instant of its grid; one that is not needed does not. -/
def State.armSync (s : State) (target : Nat) (need : Bool) (period : Nat) : State :=
  let there := s.ts.calendar.any (fun e => decide (e.2.action = 0x12) && decide (e.2.target = target))
  if need then
    (if there then s else (s.calNew (ownEntry 0x12 target (nextMultiple s.nowNs period) period 0 0)).2)
  else if there then s.calDrop 0x12 target else s

/-- The engine's calendar entries (R259): one for each link and log interval in use, and one for each slave instance. -/
def State.armPtp (s : State) : State :=
  let t := s.each (List.range 8) (fun sl u => u.each (List.range 11) (fun j v =>
    v.armSync (16 * sl + j) (v.syncNeeded sl ((j : Int) - 7)) (logPeriod ((j : Int) - 7))))
  t.each [0, 1] (fun n u =>
    let p := logPeriod (u.slvLogDreq n)
    let t := if u.ts.calendar.any (fun e => decide (e.2.action = 0x12) && decide (e.2.target = 128 + n) && decide (e.2.period ≠ p))
      then u.calDrop 0x12 (128 + n) else u
    t.armSync (128 + n) (t.slvOn n) p)

/-- Booking a reserved slot for an event message at or after an instant in ps (R208, R259). -/
def State.bookEvent (s : State) (sl lo : Nat) (answer : Answer) (addr : Addressing) : State :=
  let n := wireLength addr 44
  (s.reserve sl lo n (fun z l => { l with slots := ⟨answer, none, n, z, z, true, none, false⟩ :: l.slots })).2

/-- SYNC_LEAD in ps. -/
def State.syncLead (s : State) : Nat := fld (s.ptpWord A.ptpCfg) 8 7 * 1000000

/-- An instance's address entry for multicast UDP. -/
def State.instAddr (s : State) (i sl port : Nat) : Addressing :=
  s.mcastAddr sl (s.rd (A.ptpInstCfg i)) (s.f (A.ptpInstCfg i) 16 6) port

/-- An Announce's body (R256 to R258). -/
def State.announceBody (s : State) (i : Nat) : Bytes :=
  let c := s.clockClass
  be 10 (Config.announceOrigin s.stamp) ++ be 2 (unsigned (s.sf A.tscLeapCur 0 16) 16) ++ [0, byte (s.f (A.ptpInstDs i) 16 8),
    byte c, byte (accuracyFor s.ts.rho (s.f (A.ptpInstDs i) 8 8))] ++ be 2 (varianceOf c) ++ [byte (s.f (A.ptpInstDs i) 0 8)] ++
  s.clockId ++ be 2 0 ++ [byte s.timeSource]

/-- A general message queued on the preemptable MAC of a link that is UP. -/
def State.sendGeneral (s : State) (sl : Nat) (a : Addressing) (d : Bytes) (counter : Option Nat) : State :=
  if s.linkUp sl then s.queuePre sl (padFrame (frameOf a d)) none counter else s

/-- A multicast Announce of a binding. -/
def State.sendAnnounce (s : State) (i sl : Nat) : State :=
  let q := s.nextSeq i sl 11
  let d := s.ptpMessage 11 (cfgDomain (s.rd (A.ptpInstCfg i))) 0 0 (sl + 1) q.1 (s.instLogAnn i) (s.announceBody i)
  q.2.sendGeneral sl (s.instAddr i sl 320) d (some (A.ptpInstAnnTx i))

/-- The Sync of a binding is booked. -/
def State.bookSync (s : State) (i sl lo : Nat) : State :=
  let q := s.nextSeq i sl 0
  let a := s.instAddr i sl 319
  q.2.bookEvent sl lo (.sync i none a q.1) a

/-- The Sync of a context is booked. -/
def State.bookCtxSync (s : State) (k : Nat) (c : PtpCtx) (lo : Nat) : State :=
  let a := withPort c.addr 319
  (s.setCtx k { c with seqSync := (c.seqSync + 1) % 65536 }).bookEvent c.sl lo (.sync c.inst (some k) a c.seqSync) a

/-- The Announce of a context. -/
def State.sendCtxAnnounce (s : State) (k : Nat) (c : PtpCtx) : State :=
  let d := s.ptpMessage 11 (cfgDomain (s.rd (A.ptpInstCfg c.inst))) 4 0 (c.sl + 1) c.seqAnn logUnicast (s.announceBody c.inst)
  (s.setCtx k { c with seqAnn := (c.seqAnn + 1) % 65536 }).sendGeneral c.sl (withPort c.addr 320) d (some (A.ptpInstAnnTx c.inst))

/-- What one firing of a link's entry does (R259): Syncs of instances, then of contexts, then the Announces. -/
def State.syncRound (s : State) (sl : Nat) (l : Int) (lo : Nat) : State :=
  if s.linkUp sl = false then s
  else
    let insts := (indices 16 (fun i => s.instOn i && s.bit (A.ptpInstLinks i) sl))
    let ctxs := s.ptp.ctxs.filter (fun e => decide (e.2.sl = sl) && s.instOn e.2.inst)
    let t := s.each (insts.filter (fun i => decide (s.instLogSync i = l))) (fun i u => u.bookSync i sl lo)
    let t := t.each (ctxs.filter (fun e => e.2.sync.any (fun g => decide (g.log = l)))) (fun e u => u.bookCtxSync e.1 e.2 lo)
    let t := t.each (insts.filter (fun i => decide (s.instLogAnn i = l))) (fun i u => u.sendAnnounce i sl)
    t.each (ctxs.filter (fun e => e.2.ann.any (fun g => decide (g.log = l)))) (fun e u =>
      match u.ctx e.1 with
      | some c => u.sendCtxAnnounce e.1 c
      | none => u)

/-! ### Unicast grants (R262, R263) -/

/-- An enabled instance that serves a domain and transport with unicast grants on a link (R262). -/
def State.ucastInst (s : State) (sl domain transport : Nat) : Option Nat :=
  (List.range 16).find? (fun i => s.instOn i && s.bit (A.ptpInstLinks i) (8 + sl) &&
    decide (cfgDomain (s.rd (A.ptpInstCfg i)) = domain) && decide (cfgTransport (s.rd (A.ptpInstCfg i)) = transport))

/-- A Signaling message to a context's client. -/
def State.sendSignal (s : State) (sl domain : Nat) (a : Addressing) (target : Bytes) (seq : Nat) (tl : Bytes) : State :=
  s.sendGeneral sl (withPort a 320) (s.ptpMessage 12 domain 4 0 (sl + 1) seq logUnicast (target ++ tl)) none

/-- The intervals that may be granted for a message type (R263). -/
def State.grantable (s : State) (i mt : Nat) (log : Int) : Bool :=
  if mt = 11 then decide (-3 ≤ log ∧ log ≤ 3)
  else if mt = 0 then decide (s.sf (A.ptpInstRates i) 12 4 ≤ log ∧ -7 ≤ log ∧ log ≤ 3)
  else if mt = 9 then decide (s.sf (A.ptpInstRates i) 16 4 ≤ log ∧ -7 ≤ log ∧ log ≤ 3)
  else false

/-- Putting a grant of a message type into a context. -/
def PtpCtx.grant (c : PtpCtx) (mt : Nat) (g : Option Grant) : PtpCtx :=
  if mt = 11 then { c with ann := g } else if mt = 0 then { c with sync := g } else { c with dresp := g }

/-- Deciding one REQUEST TLV (R263): the granted duration, 0 where it is refused. -/
def State.decideGrant (s : State) (i : Nat) (fr : RxFrame) (tlv : Bytes) : Nat × State :=
  let d := ptpBytes fr
  let p := packetOf fr.data
  let mt := beAt tlv 4 1 / 16
  let log := signed (beAt tlv 5 1) 8
  let found := s.findCtx i (clientOf p) (mPort d)
  let limit := fld (s.ptpWord A.ptpCfg) 16 14
  let deny : State → Nat × State := fun t => (0, (t.inc A.ptpGrantDenied).raise A.ptpEvent 1)
  if s.grantable i mt log = false then deny s
  else if found.isNone ∧ limit ≤ s.ptp.ctxs.length then deny (s.raise A.ptpEvent 2)
  else
    let dur := max 10 (min (beAt tlv 6 4) (s.f (A.ptpInstRates i) 20 12))
    let g : Grant := ⟨log, s.measNs + dur * 1000000000⟩
    let k := match found with
      | some e => e.1
      | none => freeCtx s.ptp.ctxs 8192 0
    let base : PtpCtx := match found with
      | some e => e.2
      | none => ⟨i, fr.sl, s.ptpReply fr 320, clientOf p, mPort d, none, none, none, 0, 0, 0, 0, 0⟩
    let c := base.grant mt (some g)
    let c := if mt = 9 then { c with credit := 4 * logPeriod log, creditAt := s.measNs } else c
    let t := (s.setCtx k c).inc A.ptpGrants
    (dur, if found.isNone ∧ t.ptp.ctxs.length = limit then t.raise A.ptpEvent 2 else t)

/-- A GRANT TLV that answers a REQUEST TLV. -/
def grantTlv (tlv : Bytes) (dur : Nat) : Bytes := be 2 5 ++ be 2 8 ++ slice tlv 4 2 ++ be 4 dur ++ [0, 1]

/-- The sequenceId of the Signaling messages to a client: its context's, or its binding's. -/
def State.signalSeq (s : State) (i sl : Nat) (client port : Bytes) : Nat × State :=
  match s.findCtx i client port with
  | some (k, c) => (c.seqSig, s.setCtx k { c with seqSig := (c.seqSig + 1) % 65536 })
  | none => s.nextSeq i sl 12

/-- UNICAST_REQUEST_RX (R262, R263): the oldest Signaling message with requests is answered by one Signaling message. -/
def State.unicastRequest (s : State) : State :=
  match s.takeClaim (fun c => decide (c.kind = .signal 0)) with
  | none => s
  | some (c, t) =>
    let d := ptpBytes c.frame
    match t.ucastInst c.frame.sl (mDomain d) (ptpTransport c.frame) with
    | none => t.inc A.ptpProtoDrop
    | some i =>
      let req := (mTlvs d).filter (fun e => decide (e.1 = 4))
      let r := req.foldl (fun (q : Bytes × State) e =>
        let g := q.2.decideGrant i c.frame e.2
        (q.1 ++ grantTlv e.2 g.1, g.2)) ([], t)
      let n := r.2.signalSeq i c.frame.sl (clientOf (packetOf c.frame.data)) (mPort d)
      ((n.2.sendSignal c.frame.sl (mDomain d) (t.ptpReply c.frame 320) (mPort d) n.1 r.1).showCtxs).armPtp

/-- GRANT_EXPIRE (R263): every grant whose duration is over lapses; a context without one is freed. -/
def State.grantExpire (s : State) : State :=
  let ended : Option Grant → Bool := fun g => g.any (fun x => decide (x.exp ≤ s.measNs))
  let keep : Option Grant → Option Grant := fun g => if ended g then none else g
  let t := s.each s.ptp.ctxs (fun e u =>
    let n := b2n (ended e.2.sync) + b2n (ended e.2.ann) + b2n (ended e.2.dresp)
    if n = 0 then u
    else (u.setCtx e.1 { e.2 with sync := keep e.2.sync, ann := keep e.2.ann, dresp := keep e.2.dresp }).count A.ptpGrantExpired n)
  t.showCtxs.armPtp

/-- A CANCEL TLV, or its acknowledgement, for a message type. -/
def cancelTlv (type mt : Nat) : Bytes := be 2 type ++ be 2 2 ++ [byte (mt * 16), 0]

/-- The grant of a message type that a context holds. -/
def PtpCtx.held (c : PtpCtx) (mt : Nat) : Option Grant :=
  if mt = 11 then c.ann else if mt = 0 then c.sync else if mt = 9 then c.dresp else none

/-- CANCEL for every grant of a context, which is freed; nothing is sent on a link that is DOWN (R263). -/
def State.cancelCtx (s : State) (domain k : Nat) (c : PtpCtx) : State :=
  let tl := ([11, 0, 9].filter (fun m => (c.held m).isSome)).flatMap (cancelTlv 6)
  let t := { s with ptp := { s.ptp with ctxs := CellList.erase k s.ptp.ctxs } }
  t.sendSignal c.sl domain c.addr c.port c.seqSig tl

/-- The contexts of a link are freed without CANCEL: its MAC mode changes (R263). -/
def State.freeLinkCtxs (s : State) (sl : Nat) : State :=
  ({ s with ptp := { s.ptp with ctxs := s.ptp.ctxs.filter (fun e => decide (e.2.sl ≠ sl)) } }.showCtxs).armPtp

/-! ### Delay_Req (R261) -/

/-- A Delay_Resp's body and correction for a Delay_Req. -/
def delayRespBody (fr : RxFrame) : Bytes := ptpTime (stampOfPs fr.tRx) ++ mPort (ptpBytes fr)

/-- A multicast Delay_Req of an instance is answered at the multicast address it used. -/
def State.delayRespMulticast (s : State) (i : Nat) (fr : RxFrame) : State :=
  let p := packetOf fr.data
  let d := ptpBytes fr
  let a : Addressing := { s.instAddr i fr.sl 320 with dst := p.dst, dip := p.dip }
  let m := s.ptpMessage 9 (mDomain d) 0 (mCorr d - stampOfPs fr.tRx % 65536) (fr.sl + 1) (mSeq d) (s.instLogDreq i) (delayRespBody fr)
  s.sendGeneral fr.sl a m (some (A.ptpInstDrespTx i))

/-- A unicast Delay_Req of a context: the grant and the bucket of depth 4, which fills on the measurement scale (R4). -/
def State.delayRespUnicast (s : State) (k : Nat) (c : PtpCtx) (g : Grant) (fr : RxFrame) : State :=
  let d := ptpBytes fr
  let p := logPeriod g.log
  let credit := min (4 * p) (c.credit + (s.measNs - c.creditAt))
  if credit < p then (s.setCtx k { c with credit := credit, creditAt := s.measNs }).inc A.ptpDreqExcess
  else
    let m := s.ptpMessage 9 (mDomain d) 4 (mCorr d - stampOfPs fr.tRx % 65536) (fr.sl + 1) (mSeq d) g.log (delayRespBody fr)
    (s.setCtx k { c with credit := credit - p, creditAt := s.measNs }).sendGeneral fr.sl (s.ptpReply fr 320) m
      (some (A.ptpInstDrespTx c.inst))

/-- An enabled instance that serves a domain and transport on a link: bit `base` + SL of its LINKS. -/
def State.servingInst (s : State) (sl domain transport : Nat) (multicast : Bool) : Option Nat :=
  (List.range 16).find? (fun i => s.instOn i && decide (cfgDomain (s.rd (A.ptpInstCfg i)) = domain) &&
    decide (cfgTransport (s.rd (A.ptpInstCfg i)) = transport) &&
    (if multicast then s.bit (A.ptpInstLinks i) sl else s.bit (A.ptpInstLinks i) sl || s.bit (A.ptpInstLinks i) (8 + sl)))

/-- DELAY_REQ_RX (R261). -/
def State.delayReq (s : State) : State :=
  match s.takeClaim (fun c => decide (c.kind = .ptp) && decide (mType (ptpBytes c.frame) = 1)) with
  | none => s
  | some (c, t) =>
    let fr := c.frame
    let d := ptpBytes fr
    let p := packetOf fr.data
    let ucast := (List.range 16).findSome? (fun i => if t.instOn i then
      (t.findCtx i (clientOf p) (mPort d)).filter (fun e => decide (e.2.sl = fr.sl) &&
        decide (cfgDomain (t.rd (A.ptpInstCfg i)) = mDomain d)) else none)
    if ptpMulticast fr ∧ (ucast.isNone ∨ ptpTransport fr ≠ 0) then
      (match t.servingInst fr.sl (mDomain d) (ptpTransport fr) true with
       | some i => t.delayRespMulticast i fr
       | none => t.inc A.ptpProtoDrop)
    else match ucast with
      | none => t.inc A.ptpNoGrant
      | some (k, x) =>
        match x.dresp with
        | none => if ptpMulticast fr then
            (match t.servingInst fr.sl (mDomain d) (ptpTransport fr) true with
             | some i => t.delayRespMulticast i fr
             | none => t.inc A.ptpNoGrant)
          else t.inc A.ptpNoGrant
        | some g => if g.exp ≤ t.measNs then t.inc A.ptpNoGrant else t.delayRespUnicast k x g fr

/-! ### Intake (R254) -/

/-- Some enabled instance or slave serves a message's domain on its link and transport. -/
def State.ptpServed (s : State) (sl domain transport : Nat) : Bool :=
  (s.servingInst sl domain transport false).isSome ||
  [0, 1].any (fun n => s.slvOn n && decide (s.slvLink n = sl) && decide (cfgDomain (s.rd (A.ptpSlvCfg n)) = domain) &&
    decide (cfgTransport (s.rd (A.ptpSlvCfg n)) = transport))

/-- The first rows of R254, at reception; the other messages wait for their commands. -/
def State.ptpIntake (s : State) (fr : RxFrame) : State :=
  let d := ptpBytes fr
  let mt := mType d
  let tl := mTlvs d
  if d.length < 34 ∨ beAt d 1 1 % 16 ≠ 2 ∨ 1 < beAt d 1 1 / 16 ∨ s.ptpServed fr.sl (mDomain d) (ptpTransport fr) = false then s.inc A.ptpProtoDrop
  else
    let t := if mt < 4 then s.inc A.ptpRxEvent else s
    if mt = 2 ∨ mt = 3 ∨ mt = 10 then t.inc A.ptpProtoDrop
    else if mt = 13 ∨ tl.any (fun e => decide (e.1 = 0x8009)) ∨
        (mt = 12 ∧ tl.any (fun e => !(decide (4 ≤ e.1) && decide (e.1 ≤ 7)))) then
      (let ring := fld (t.ptpWord A.ptpCfg) 0 8
       if ring = 0xFF then t else (t.inc A.ptpToHost).deliverFrame ring 8 fr.sl (stampOfPs fr.tRx) fr.data)
    else if mt = 12 then
      let has : Nat → Bool := fun k => tl.any (fun e => decide (e.1 = k))
      let t := if has 4 then t.claim (.signal 0) fr else t
      let t := if has 6 then t.claim (.signal 1) fr else t
      if has 5 || has 7 then t.claim (.signal 2) fr else t
    else t.claim .ptp fr

/-- FRAME_RX with the PTP engine's intake of a message that the headrace passed to it. -/
def State.frameIn (s : State) (sl : Nat) (x : RxPhys) : State :=
  let n := s.ports.claims.length
  let t := s.frameRx sl x
  match (t.ports.claims.drop n).head? with
  | some c => if c.kind = .ptp then
      ({ t with ports := { t.ports with claims := t.ports.claims.take n } }).ptpIntake c.frame else t
  | none => t

end Sys2Proof.Machine
end

