-- ==== Sys2Proof/Machine/Cascade.lean ====
section
/-!
DEFINITION. The cascade over the Peorel link (R403 to R420, R428 to R432): lanes, Peorel frames, the tree, two-way time
transfer, and the frames of the operations; the operations themselves are in CasOps.lean.
-/

namespace Sys2Proof.Machine

/-! ### Accessors -/

/-- A lane. -/
def State.lane (s : State) (l : Nat) : PeorelLane := s.cas.lanes.getD l PeorelLane.empty

/-- Changing a lane. -/
def State.setLane (s : State) (l : Nat) (f : PeorelLane → PeorelLane) : State :=
  { s with cas := { s.cas with lanes := modAt s.cas.lanes l f } }

/-- Changing the cascade. -/
def State.setCas (s : State) (f : Cas → Cas) : State := { s with cas := f s.cas }

/-- The module's serial number. -/
def State.serial (s : State) : Nat := s.rd64 A.glbSerialLo

/-- CAS.SYSTEM_ID. -/
def State.systemId (s : State) : Nat := s.rd64 A.casSystemIdLo

/-- The lane is UP. -/
def State.laneUp (s : State) (l : Nat) : Bool := s.bit (A.cmacLaneStatus l) 0

/-- The lane's role: 0 NONE, 1 UPSTREAM, 2 DOWNSTREAM, 3 STANDBY, 4 REFUSED. -/
def State.laneRole (s : State) (l : Nat) : Nat := s.f (A.cmacLaneStatus l) 3 3

/-- A lane's ASYM and its peer's, in ps. -/
def State.laneAsym (s : State) (l : Nat) : Int := s.sf (A.cmacLaneAsym l) 0 32
def State.peerAsym (s : State) (l : Nat) : Int := s.sf (A.cmacLanePeerAsym l) 0 32

/-- ASYM or ASYM_UNC of the lane is in its safe state (R429). -/
def State.laneStruck (s : State) (l : Nat) : Bool :=
  [A.cmacLaneAsym l, A.cmacLaneAsymUnc l].any (fun a => (s.group 32).parity.contains a)

/-- CFG or MAC_ADDR of the lane is in its safe state (R429). -/
def State.laneDark (s : State) (l : Nat) : Bool :=
  [A.cmacLaneCfg l, A.cmacLaneMacAddrLo l, A.cmacLaneMacAddrHi l].any (fun a => (s.group 31).parity.contains a)

/-- The lane may be UP (R403, R429). -/
def State.laneAllowed (s : State) (l : Nat) : Bool := s.bit (A.cmacLaneCfg l) 0 && s.domainOn 13 && !(s.laneDark l)

/-- A word of CAS_CFG is in its safe state: the cascade acts as ENABLE = 0 (R429). -/
def State.casFaulty (s : State) : Bool := decide ((s.group 33).parity ≠ [])

/-- The cascade is enabled. -/
def State.casOn (s : State) : Bool := s.bit A.casCfg 0 && !s.casFaulty && s.domainOn 13 && decide (s.systemId ≠ 0)

/-- Position codes: OFF, ORPHAN, RIDGE, RAFTER, BATTEN (R404). -/
def State.position (s : State) : Nat := s.f A.casStatus 0 3

/-- The UPSTREAM lane. -/
def State.upLane (s : State) : Option Nat := if s.bit A.casStatus 11 then some (s.f A.casStatus 8 3) else none

/-- The DOWNSTREAM lanes. -/
def State.downLanes (s : State) : List Nat := indices 8 (fun l => decide (s.laneRole l = 2))

/-- DEPTH as LINK frames carry it. -/
def State.depth (s : State) : Nat := if s.f A.casStatus 4 4 = 15 then 0xFF else s.f A.casStatus 4 4

/-- A lane's offer: the latest LINK, no more than 47 ms old (R411). -/
def State.offer (s : State) (l : Nat) : Option PeorelLink :=
  match (s.lane l).offer with
  | some (o, at_, _) => if s.ts.meas ≤ 47000000 * 2 ^ 48 + at_ then some o else none
  | none => none

/-! ### Peorel frames (R405, R406) -/

/-- The first free slot of a lane at or after an instant in ps, and the line booked for a frame of `n` bytes (R207, R208). -/
def State.laneSlot (s : State) (l lo n : Nat) : Nat × State :=
  let k := (s.lane l).lock
  let ph := Config.gridPhase (8 + l) k % 2560
  let first := lo + (ph + 2560 - lo % 2560) % 2560
  let len := 320 * (n + 24)
  let free : Nat → Bool := fun a => !(nearMarker (8 + l) k 2560 81920 a) &&
    (s.lane l).busy.all (fun b => decide (a + len ≤ b.1) || decide (b.1 + b.2 ≤ a))
  let z := (findSlot free 2560 4096 first).getD first
  (z, s.setLane l (fun x => { x with busy := (z, len) :: x.busy.filter (fun b => decide (s.nowPs < b.1 + b.2)) }))

/-- The plane delay of a lane in ps (R187, the USER values taken as 0). -/
def State.laneTx (s : State) (l : Nat) : Nat := (s.rd (A.cmacLaneTxFixed l)).toNat + s.f (A.cmacLaneTxDyn l) 0 16

/-- t_rx of a frame captured on a lane at an instant in ps, in 2^-16 ns. -/
def State.laneRx (s : State) (l cap : Nat) : Nat :=
  stampOfPs (cap - (s.rd (A.cmacLaneRxFixed l)).toNat - s.f (A.cmacLaneRxDyn l) 0 16)

/-- A Peorel frame of a type with its body after the header (R405, R406). -/
def State.peorelFrame (s : State) (l type : Nat) (full : Bool) (len seq : Nat) (body : Bytes) : Bytes :=
  let addr := be 6 (s.f (A.cmacLaneMacAddrHi l) 0 16 * 2 ^ 32 + (s.rd (A.cmacLaneMacAddrLo l)).toNat)
  padFrame ([1, 0x80, 0xC2, 0, 0, 0x0E] ++ addr ++ be 2 0x88B6 ++ [1, byte type] ++ be 2 len ++ be 8 s.systemId ++ be 8 s.serial ++
    [byte l, byte (b2n full)] ++ be 2 seq ++ body)

/-- The next SEQ of a type on a lane. -/
def State.laneSeq (s : State) (l type : Nat) : Nat × State :=
  ((s.lane l).seqs.getD type 0, s.setLane l (fun x => { x with seqs := modAt x.seqs type (fun n => (n + 1) % 65536) }))

/-- Sending a Peorel frame that carries no stamp of its own, on the first free slot (R405, R406, R422). -/
def State.sendPeorel (s : State) (l type len : Nat) (body : Bytes) : State :=
  let q := s.laneSlot l s.nowPs (max 60 (14 + len))
  let r := q.2.laneSeq l type
  r.2.emit (.lane l (stampOfPs (q.1 + s.laneTx l)) (withFcs (r.2.peorelFrame l type false len r.1 body)))

/-- The length that a type must have (R406): none for an unknown type. -/
def peorelLength (d : Bytes) : Option Nat :=
  match beAt d 1 1 with
  | 1 => some 156
  | 2 => some (60 + (beAt d 30 2 + 3) / 4 * 4)
  | 3 => some (60 + (beAt d 30 2 + 3) / 4 * 4)
  | 4 => some 88
  | 5 => some 88
  | _ => none

/-- A lane loses its offer. -/
def State.dropOffer (s : State) (l : Nat) : State :=
  let t := s.setLane l (fun x => { x with offer := none })
  (t.wr64 (A.cmacLanePeerLo l) 0).wr (A.cmacLanePeerInfo l) (resetOf (A.cmacLanePeerInfo l))

/-- A lane takes a role (R404). -/
def State.setRole (s : State) (l r : Nat) : State :=
  if s.laneRole l = r then s else (s.sfW (A.cmacLaneStatus l) 3 3 r).raise (A.cmacLaneEvent l) 3

/-! ### Operations in frames (R409, R410) -/

/-- The body of an OP_REQ or OP. -/
def opBody (id op atNs requester tag bound : Nat) (data : Bytes) : Bytes :=
  be 4 id ++ [byte op, 0] ++ be 2 data.length ++ taiBe (atNs * 65536) ++ be 8 requester ++ be 4 tag ++ be 4 bound ++ data ++
  zeros ((4 - data.length % 4) % 4)

/-- The payload length of an operation with so many data bytes. -/
def opLength (n : Nat) : Nat := 60 + (n + 3) / 4 * 4

/-- Sending an operation, as OP_REQ (2) or OP (3), now. -/
def State.sendOp (s : State) (l type : Nat) (o : CasOp) : State :=
  s.sendPeorel l type (opLength o.data.length) (opBody o.id o.op o.atNs o.requester o.tag o.bound o.data)

/-- An operation as a payload carries it. -/
def opOf (d : Bytes) : CasOp :=
  { id := beAt d 24 4, op := beAt d 28 1, atNs := beAt d 32 6 * 1000000000 + beAt d 38 4, requester := beAt d 44 8, tag := beAt d 52 4
    bound := beAt d 56 4, data := slice d 60 (beAt d 30 2), slot := none, lanes := [], delay := 0, own := none, results := []
    sent := false, issued := false }

/-! ### The subtree (R415) -/

/-- d_out of a lane rounded up to whole ns (R416, R417). -/
def State.outDelay (s : State) (l : Nat) : Nat :=
  match (s.lane l).meas with
  | some (_, d, _) => ceilDiv (d - s.laneAsym l).toNat 2000
  | none => Config.laneDelay l

/-- The offers of the children. -/
def State.children (s : State) : List (Nat × PeorelLink) := s.downLanes.filterMap (fun l => (s.offer l).map (fun o => (l, o)))

/-- SUB_COUNT, SUB_DEPTH and SUB_DELAY, and the position of an attached module (R404, R415). -/
def State.showTree (s : State) : State :=
  let c := s.children
  let n := s.downLanes.length
  let t := s.sfW A.casStatus 12 3 n
  let t := t.wr A.casSubCount (word (1 + (c.map (fun x => x.2.subCount)).sum))
  let t := t.sfW A.casSubDepth 0 4 (c.foldl (fun m x => max m (1 + x.2.subDepth)) 0)
  let t := t.wr A.casSubDelay (word (c.foldl (fun m x => max m (s.outDelay x.1 + 2000 + x.2.subDelay)) 0))
  let p := if s.upLane.isSome then (if n = 0 then 4 else 3) else s.position
  if p = s.position then t else (t.sfW A.casStatus 0 3 p).raise A.casEvent 0

/-! ### Roles (R413) -/

/-- This module may take children: RIDGE, or attached at a depth of 7 or less. -/
def State.mayParent (s : State) : Bool := decide (s.position = 2) || (s.upLane.isSome && decide (s.depth ≤ 7))

/-- The role of a lane other than UPSTREAM, when `n` lanes below it are DOWNSTREAM. -/
def State.roleFor (s : State) (l n : Nat) : Nat :=
  match s.offer l with
  | none => 0
  | some o =>
    if s.laneUp l = false then 0
    else if o.role = 1 then (if s.mayParent ∧ n < 7 ∧ s.f (A.cmacLaneCfg l) 1 2 ≠ 1 then 2 else 4)
    else 3

/-- Sending a new child every operation held whose T is at least 2 microseconds ahead (R423). -/
def State.greetChild (s : State) (l : Nat) : State :=
  s.each (s.cas.ops.filter (fun o => decide (2000 + s.nowNs ≤ o.atNs))) (fun o t => t.sendOp l 3 o)

/-- One lane's role, and how many lanes are DOWNSTREAM so far. -/
def State.assignRole (s : State) (l n : Nat) : Nat × State :=
  if s.upLane = some l then (n, s.setRole l 1)
  else
    let r := s.roleFor l n
    let was := s.laneRole l
    let t := s.setRole l r
    let t := if r = 2 ∧ was ≠ 2 then t.greetChild l
      else if r = 4 ∧ was ≠ 4 then (t.inc A.casChildRefused).raise A.casEvent 11 else t
    (if r = 2 then n + 1 else n, t)

/-- The roles of all lanes, in ascending index. -/
def State.assignRoles (s : State) : State :=
  ((List.range 8).foldl (fun (p : Nat × State) l => p.2.assignRole l p.1) (0, s)).2.showTree

/-! ### The tree (R411, R412, R414) -/

/-- An offer is usable as a parent (R411). -/
def State.usable (s : State) (l : Nat) (o : PeorelLink) : Bool :=
  s.laneUp l && decide (s.f (A.cmacLaneCfg l) 1 2 ≤ 1) && decide (o.depth ≤ 7) && (!o.full || decide (s.laneRole l = 1)) &&
  !(o.path.contains s.serial) && !(s.laneStruck l) &&
  (match (s.lane l).ridgeSeqAt with
   | some m => decide (s.ts.meas ≤ 125000000 * 2 ^ 48 + m)
   | none => false) &&
  (match (s.lane l).refusedAt with
   | some m => decide (1000000000 * 2 ^ 48 + m ≤ s.ts.meas)
   | none => true)

/-- The usable offers. -/
def State.usableOffers (s : State) : List (Nat × PeorelLink) :=
  (List.range 8).filterMap (fun l => match s.offer l with
    | some o => if s.usable l o then some (l, o) else none
    | none => none)

/-- Lexicographic order. -/
def lexLess : List Nat → List Nat → Bool
  | a :: t, b :: u => decide (a < b) || (decide (a = b) && lexLess t u)
  | _, _ => false

/-- The least of several keyed things. -/
def leastBy {α : Type} (key : α → List Nat) (l : List α) : Option α :=
  l.foldl (fun b x => match b with
    | none => some x
    | some y => if lexLess (key x) (key y) then some x else some y) none

/-- The parent's lane among the usable offers that name the best ridge (R412). -/
def State.chooseParent (s : State) (l : List (Nat × PeorelLink)) : Option (Nat × PeorelLink) :=
  let best := leastBy (fun (x : Nat × PeorelLink) => [x.2.depth, s.f (A.cmacLaneCfg x.1) 4 4, x.2.serial, x.1]) l
  match l.find? (fun x => decide (s.upLane = some x.1)) with
  | some cur => if l.any (fun x => decide (x.2.depth + 2 ≤ cur.2.depth)) then best else some cur
  | none => best

/-- RIDGE_LO, RIDGE_INFO, RIDGE_SEQ and PATH (R431). -/
def State.showRidge (s : State) (ridge prio seq : Nat) (path : List Nat) : State :=
  let t := if s.rd64 A.casRidgeLo = ridge then s
    else ((s.wr64 A.casRidgeLo (ridge : Nat)).raise A.casEvent 1).toUnavailable 12
  let t := (t.wr A.casRidgeInfo (word (prio + 256 * path.length))).wr A.casRidgeSeq (word seq)
  (t.each (List.range 9) (fun i u => u.wr64 (A.casPath (2 * i)) (path.getD i 0 : Nat))).setCas (fun c => { c with path := path })

/-- Taking a position: its code, the UPSTREAM lane and the depth (15 for none). -/
def State.takePlace (s : State) (pos : Nat) (up : Option Nat) (depth : Nat) : State :=
  let moved := decide (s.upLane ≠ up)
  let t := (s.sfW A.casStatus 8 3 (up.getD 0)).setBit A.casStatus 11 up.isSome
  let t := t.sfW A.casStatus 4 4 depth
  let t := if pos = s.position ∨ (up.isSome ∧ 3 ≤ s.position) then t else (t.sfW A.casStatus 0 3 pos).raise A.casEvent 0
  if moved then (t.inc A.casReroots).raise A.casEvent 2 else t

/-- The cascade is off: POSITION OFF, every lane NONE (R404, R429). -/
def State.casOff (s : State) : State :=
  let t := (s.takePlace 0 none 15).showRidge 0 255 (s.f A.casRidgeSeq 0 32) []
  let t := t.each (List.range 8) (fun l u => (u.setRole l 0).setLane l (fun x => { x with links := [] }))
  (((t.sfW A.casStatus 12 3 0).wr A.casSubCount 0).wr A.casSubDelay 0).wr A.casSubDepth 0

/-- Choosing the position (R412): at every tick, and at once when the UPSTREAM lane is lost. -/
def State.choosePosition (s : State) (tick : Bool) : State :=
  if s.casOn = false then s.casOff
  else
    let prio := s.f A.casCfg 8 8
    let offers := s.usableOffers
    let own : List (List Nat) := if prio ≤ 254 then [[prio, s.serial]] else []
    match leastBy id (own ++ offers.map (fun x => [x.2.prio, x.2.ridge])) with
    | none => ((s.takePlace 1 none 15).showRidge 0 255 (s.f A.casRidgeSeq 0 32) []).assignRoles
    | some b =>
      if own = [b] then
        ((s.takePlace 2 none 0).showRidge s.serial prio (s.f A.casRidgeSeq 0 32 + b2n tick) [s.serial]).assignRoles
      else match s.chooseParent (offers.filter (fun x => decide ([x.2.prio, x.2.ridge] = b))) with
        | none => s
        | some (l, o) =>
          let p := if s.position = 3 then 3 else 4
          ((s.takePlace p (some l) (o.depth + 1)).showRidge o.ridge o.prio o.ridgeSeq (o.path ++ [s.serial])).assignRoles

/-! ### LINK frames (R407, R408, R416 to R418) -/

/-- The MQ field (R418). -/
def State.linkMq (s : State) : Nat :=
  match s.tscMode with
  | 1 => if s.sel = 0xFF then 7 else s.refMq s.sel
  | 2 => if s.sel = 0xFF then 7 else s.refMq s.sel
  | 3 => ((List.range 7).find? (fun k => decide (s.ts.rho ≤ s.mqPhase k))).getD 6
  | _ => 7

/-- FULL (R413). -/
def State.full (s : State) : Bool := decide (s.downLanes.length = 7) || decide (s.depth = 8) || decide (s.position = 1)

/-- The body of this module's LINK on a lane. -/
def State.linkBody (s : State) (l : Nat) (tTx : Nat) : Bytes :=
  let peer := (s.lane l).offer
  let path := s.cas.path
  taiBe tTx ++ be 2 ((peer.map (fun p => p.1.seq)).getD 0) ++ [byte (s.laneRole l), byte s.depth] ++
  (match peer with
   | some p => taiBe p.2.2
   | none => zeros 12) ++
  [byte (s.f A.casRidgeInfo 0 8), byte (s.tscMode + 16 * s.linkMq), byte (s.f A.casSubDepth 0 4), byte path.length] ++
  be 8 (s.rd64 A.casRidgeLo) ++ be 4 (s.f A.casRidgeSeq 0 32) ++ be 4 s.ts.rho ++ be 4 (s.rd (A.cmacLaneAsym l)).toNat ++
  be 4 (s.f A.casSubDelay 0 32) ++ be 4 (s.f A.casSubCount 0 32) ++ path.flatMap (be 8) ++ zeros (72 - 8 * path.length)

/-- The index of the tick that a LINK belongs to: the ticks stand at multiples of 15.625 ms (R408). -/
def tickOf (stamp : Nat) : Nat := stamp / (15625000 * 65536)

/-- A slot for a LINK frame of SEQ `seq` at or after an instant in ps. -/
def State.slotLink (s : State) (l lo seq : Nat) : State :=
  let q := s.laneSlot l lo 170
  q.2.setLane l (fun x => { x with links := x.links ++ [⟨q.1, seq, none, false⟩] })

/-- One LINK frame is booked on a lane, on the first free slot at or after the firing plus 5 microseconds (R408). -/
def State.bookLink (s : State) (l : Nat) : State :=
  let q := s.laneSeq l 1
  q.2.slotLink l (5000000 + s.nowPs) q.1

/-- Changing the booked LINK frame at a slot. -/
def State.setBooked (s : State) (l z : Nat) (f : LinkSlot → LinkSlot) : State :=
  s.setLane l (fun x => { x with links := x.links.map (fun y => if y.slot = z then f y else y) })

/-- FINALISE on a lane (R209, R408): from 500 ns before its slot a LINK frame takes its stamp and every field. -/
def State.finaliseLink (s : State) (l : Nat) : State :=
  match (s.lane l).links.find? (fun x => x.final.isNone && decide (x.slot ≤ 500000 + s.nowPs)) with
  | none => s
  | some x =>
    let tTx := stampOfPs (x.slot + s.laneTx l)
    s.setBooked l x.slot (fun y => { y with final := some (tTx, s.peorelFrame l 1 s.full 156 x.seq (s.linkBody l tTx)) })

/-- COMMIT_POINT on a lane (R210). -/
def State.commitLink (s : State) (l : Nat) : State :=
  match (s.lane l).links.find? (fun x => !x.committed && x.final.isSome && decide (x.slot ≤ 300000 + s.nowPs)) with
  | none => s
  | some x => s.setBooked l x.slot (fun y => { y with committed := true })

/-- SLOT_START on a lane (R210, R408): the committed LINK frame leaves; its t_tx is t3 of its tick (R416). -/
def State.startLink (s : State) (l : Nat) : State :=
  match (s.lane l).links.find? (fun x => x.committed && decide (x.slot ≤ s.nowPs)) with
  | none => s
  | some x =>
    let t := s.setLane l (fun y => { y with links := y.links.filter (fun z => decide (z.slot ≠ x.slot)) })
    match x.final with
    | none => t
    | some (tTx, d) =>
      ((t.setLane l (fun y => { y with sent := (x.seq, tickOf tTx, (tTx : Int)) :: y.sent.take 7 })).inc
        (A.cmacLaneLinkTx l)).emit (.lane l tTx (withFcs d))

/-- A LINK payload. -/
def linkOf (d : Bytes) : PeorelLink :=
  let stamp : Nat → Nat := fun o => (beAt d o 6 * 1000000000 + beAt d (o + 6) 4) * 65536 + beAt d (o + 10) 2
  { serial := beAt d 12 8, lane := beAt d 20 1 % 8, full := (beAt d 21 1).testBit 0, seq := beAt d 22 2, tTx := stamp 24
    rxSeq := beAt d 36 2, role := beAt d 38 1, depth := beAt d 39 1, tRx := stamp 40, prio := beAt d 52 1
    state := beAt d 53 1 % 8, mq := beAt d 53 1 / 16 % 8, subDepth := beAt d 54 1, ridge := beAt d 56 8, ridgeSeq := beAt d 64 4
    radius := beAt d 68 4, asym := signed (beAt d 72 4) 32, subDelay := beAt d 76 4, subCount := beAt d 80 4
    path := (List.range (min 9 (beAt d 55 1))).map (fun i => beAt d (84 + 8 * i) 8) }

/-- The pair that a LINK completes (R416): the peer reports t4 for a LINK of ours, and its own LINK of that tick came. -/
def PeorelLane.withPair (x : PeorelLane) (o : PeorelLink) : PeorelLane :=
  if o.tRx = 0 then x
  else match x.sent.find? (fun e => decide (e.1 = o.rxSeq)) with
    | none => x
    | some (_, k, t3) =>
      match x.got.find? (fun e => decide (e.1 = k)) with
      | none => x
      | some (_, t1, t2) =>
        if x.pairs.any (fun e => decide (e.1 = k)) then x
        else { x with pairs := (k, ((o.tRx : Int) - t3) - (t2 - t1), (t2 - t1) + ((o.tRx : Int) - t3)) :: x.pairs.take 127 }

/-- What a LINK leaves on its lane. -/
def PeorelLane.withLink (x : PeorelLane) (o : PeorelLink) (meas tRx : Nat) : PeorelLane :=
  let ahead : Bool := match x.ridgeSeq with
    | some n => decide (0 < (o.ridgeSeq + 2 ^ 32 - n) % 2 ^ 32) && decide ((o.ridgeSeq + 2 ^ 32 - n) % 2 ^ 32 < 2 ^ 31)
    | none => false
  let y : PeorelLane := { x with
    offer := some (o, meas, tRx), heard := true, ridgeSeq := some o.ridgeSeq, lastSub := o.subCount
    ridgeSeqAt := if ahead then some meas else x.ridgeSeqAt
    refusedAt := if o.role = 4 then some meas else x.refusedAt
    got := (tickOf o.tTx, (o.tTx : Int), (tRx : Int)) :: x.got.take 7 }
  y.withPair o

/-- PEER_LO, PEER_INFO and PEER_ASYM of a lane. -/
def State.showPeer (s : State) (l : Nat) (o : PeorelLink) : State :=
  let t := s.wr64 (A.cmacLanePeerLo l) (o.serial : Nat)
  let t := t.wr (A.cmacLanePeerInfo l) (word (o.lane + 16 * o.role + 128 * b2n o.full + 256 * o.depth))
  t.wr (A.cmacLanePeerAsym l) (wordOfInt o.asym)

/-- The two ends' ASYM differ by more than 20 ps (R419). -/
def State.asymApart (s : State) (l : Nat) : Bool := decide (20 < (s.laneAsym l + s.peerAsym l).natAbs)

/-- The quality that the parent's LINK carries to the Peorel reference (R71, R73, R418). -/
def State.parentQuality (s : State) (o : PeorelLink) : State :=
  s.setRef 12 (fun r => { r with adv := if o.state = 4 then 7 else o.mq, raw := o.mq, bound := o.radius })

/-- A LINK received on a lane. -/
def State.linkRx (s : State) (l : Nat) (d : Bytes) (cap : Nat) : State :=
  let o := linkOf d
  let tRx := s.laneRx l cap
  let t := (s.inc (A.cmacLaneLinkRx l)).setLane l (fun x => x.withLink o s.ts.meas tRx)
  let t := t.showPeer l o
  let t := if t.asymApart l then t else t.setLane l (fun x => { x with apart := false })
  let t := if t.upLane = some l then
      (let u := t.parentQuality o
       if u.rd64 A.casRidgeLo = o.ridge then u.wr A.casRidgeSeq (word o.ridgeSeq) else u)
    else t
  if t.casOn then t.assignRoles else t

/-! ### Receiving (R403, R405) -/

/-- What a received frame is: the Peorel payload of a well-formed frame of this system. The lane's counters tell the rest; a
foreign frame's lane takes role NONE. -/
def State.laneIntake (s : State) (l : Nat) (frame : Bytes) : Option Bytes × State :=
  if s.laneUp l = false then (none, s)
  else if beAt frame 12 2 ≠ 0x88B6 ∨ beAt frame 0 6 ≠ 0x0180C200000E then (none, s.inc (A.cmacLaneOtherRx l))
  else
    let d := frame.drop 14
    if beAt d 0 1 ≠ 1 ∨ peorelLength d ≠ some (beAt d 2 2) ∨ d.length < beAt d 2 2 then (none, s.inc (A.cmacLaneBadFrame l))
    else if beAt d 4 8 ≠ s.systemId then
      (let t := ((s.inc (A.cmacLaneForeign l)).raise (A.cmacLaneEvent l) 4).dropOffer l
       let up := decide (t.upLane = some l)
       let u := t.setRole l 0
       (none, if up then u.choosePosition false else u))
    else (some d, s)

/-- LINK_FRAME_RX (R407): a frame received on a lane, and the ps since its first bit after the SFD was captured. -/
def State.laneLink (s : State) (l : Nat) (frame : Bytes) (ago fecUncorr : Nat) : State :=
  match (s.count (A.cmacLaneFecUncorrCw l) fecUncorr).laneIntake l frame with
  | (some d, t) => if beAt d 1 1 = 1 then t.linkRx l d (s.nowPs - ago) else t
  | (none, t) => t

/-! ### Ticks (R408, R411) -/

/-- What a tick finds on a lane: an offer older than 47 ms, and a peer that sent no LINK. -/
def State.laneTick (s : State) (l : Nat) : State :=
  let t := if (s.lane l).offer.isSome ∧ s.offer l = none then (s.dropOffer l).raise (A.cmacLaneEvent l) 6 else s
  let t := if t.laneUp l ∧ (t.lane l).heard = false then t.inc (A.cmacLaneLinkMiss l) else t
  t.setLane l (fun x => { x with heard := false })

/-- CAS_LINK_TICK (R408): the CAS_OP entry with ARG 0x00 fires. -/
def State.linkTick (s : State) : State :=
  s.fireDue (fun e => decide (e.action = 0x17) && decide (e.arg % 256 = 0)) (fun _ t =>
    let u := (t.each (List.range 8) (fun l v => v.laneTick l)).choosePosition true
    let u := u.setCas (fun c => { c with ops := c.ops.filter (fun o => !(o.sent && decide (o.atNs < u.nowNs))) })
    u.each (indices 8 (fun l => u.laneUp l && u.casOn)) (fun l v => v.bookLink l))

/-! ### Measurements (R417, R419) -/

/-- A lane's measurement at the evaluation of second `sec`. -/
def State.laneEvaluate (s : State) (sec l : Nat) : State :=
  let x := s.lane l
  let ps := x.pairs.filter (fun e => decide ((sec - 1) * 64 ≤ e.1) && decide (e.1 < sec * 64))
  let n := ps.length
  let asym := s.laneAsym l
  let theta := qdiv ((ps.map (fun e => e.2.1)).sum * 1000 + (n : Int) * asym * 65536) (2 * n * 65536)
  let delta := qdiv ((ps.map (fun e => e.2.2)).sum * 1000) (n * 65536)
  let valid := decide (16 ≤ n) && s.laneUp l && decide (x.upSince + secs 1 ≤ s.ts.meas) && !(s.laneStruck l) && !(s.laneDark l)
  let bad := x.apart && (s.offer l).isSome && s.asymApart l
  let t := s.setLane l (fun y => { y with
    meas := if n = 0 then y.meas.map (fun q => (q.1, q.2.1, 0)) else some (theta, delta, n), apart := true, pairs := y.pairs.filter (fun e => decide (sec * 64 ≤ e.1)) })
  let t := if n = 0 then t else t.wr (A.cmacLaneThetaLo l) (word (unsigned theta 64))
  let t := (t.setBit (A.cmacLaneStatus l) 6 valid).setBit (A.cmacLaneStatus l) 7 bad
  let t := if bad then t.raise (A.cmacLaneEvent l) 5 else t
  if valid ∧ t.upLane = some l then t.deliver 12 theta else t

/-- The lanes at an evaluation. -/
def State.lanesEvaluate (s : State) (sec : Nat) : State := (s.each (List.range 8) (fun l t => t.laneEvaluate sec l)).showTree

/-- THETA_LO_LANE_READ (R430): the measurement's other words are latched. -/
def State.latchLane (s : State) (l : Nat) : State :=
  match (s.lane l).meas with
  | none => s
  | some (theta, delta, n) =>
    ((s.wr (A.cmacLaneThetaHi l) (word (unsigned theta 64 / 2 ^ 32))).wr (A.cmacLaneDelta l)
      (if n = 0 then 0xFFFFFFFF else satU32 delta.toNat)).wr (A.cmacLanePairs l) (word (min n 64))

/-- LINK frames not committed are re-slotted on a lane, as though they had been held for 0 ns (R211, R229, R408). -/
def State.relink (s : State) (l : Nat) : State :=
  let open_ := (s.lane l).links.filter (fun x => !x.committed)
  (s.setLane l (fun x => { x with
      links := x.links.filter (fun y => y.committed)
      busy := x.busy.filter (fun b => !(open_.any (fun y => decide (y.slot = b.1)))) })).each open_ (fun y u =>
    u.slotLink l (500000 + u.nowPs) y.seq)

/-- A timescale step of `d` ns moves this module's instants of the transfer (R90), and LINK frames take new slots (R408). -/
def State.casStepped (s : State) (d : Int) : State :=
  let x := d * 65536
  let mv : Nat → Nat := fun ps => ((ps : Int) + d * 1000).toNat
  let t := s.setCas (fun c => { c with lanes := c.lanes.map (fun (l : PeorelLane) => { l with
    sent := l.sent.map (fun e => (e.1, e.2.1, e.2.2 + x))
    got := l.got.map (fun e => (e.1, e.2.1, e.2.2 + x))
    pairs := l.pairs.map (fun e => (e.1, e.2.1 - 2 * x, e.2.2))
    busy := l.busy.map (fun b => (mv b.1, b.2))
    links := l.links.map (fun (y : LinkSlot) => { y with slot := mv y.slot }) }) })
  t.each (List.range 8) (fun l u => u.relink l)

/-! ### Lanes up and down (R403, R185, R414) -/

/-- A lane comes UP: its delays are measured, in ps (R188). -/
def State.laneComesUp (s : State) (l rxDyn txDyn : Nat) : State :=
  if s.laneAllowed l ∧ s.laneUp l = false then
    let changed := decide (0 < (s.lane l).lock) &&
      (decide (s.f (A.cmacLaneRxDyn l) 0 16 ≠ rxDyn % 65536) || decide (s.f (A.cmacLaneTxDyn l) 0 16 ≠ txDyn % 65536))
    let t := ((s.sfW (A.cmacLaneStatus l) 0 3 7).setBit A.cmacStatus (4 + l) true)
    let t := (t.sfW (A.cmacLaneRxDyn l) 0 16 rxDyn).sfW (A.cmacLaneTxDyn l) 0 16 txDyn
    let t := (t.setLane l (fun x => { x with lock := x.lock + 1, upSince := s.ts.meas })).raise (A.cmacLaneEvent l) 0
    t.when changed (fun u => u.raise (A.cmacLaneEvent l) 2)
  else s

/-- A lane goes DOWN; the loss of the UPSTREAM lane makes the module choose at once (R412). -/
def State.laneDown (s : State) (l : Nat) : State :=
  if s.laneUp l then
    let up := decide (s.upLane = some l)
    let t := ((s.sfW (A.cmacLaneStatus l) 0 3 0).setBit A.cmacStatus (4 + l) false).setBit (A.cmacLaneStatus l) 6 false
    let t := (t.inc (A.cmacLaneLinkDown l)).raise (A.cmacLaneEvent l) 1
    let t := t.dropOffer l
    let t := t.setLane l (fun x => { x with ridgeSeq := none, ridgeSeqAt := none, sent := [], got := [], pairs := [], links := [] })
    let t := t.setRole l 0
    if up then t.choosePosition false else t.showTree
  else s

/-- Every lane that may not be UP any more goes DOWN. -/
def State.dropLanes (s : State) : State :=
  s.each (List.range 8) (fun l t => if t.laneUp l = true ∧ t.laneAllowed l = false then t.laneDown l else t)

/-! ### Optics of CP0 and CP1 (R186, R430) -/

/-- A lane's transmitter is enabled (R186, R429): its optic is accepted, the lane is enabled and no safe state holds it. -/
def State.laneTransmits (s : State) (l : Nat) : Bool := s.bit A.cmacStatus (2 * (l / 4) + 1) && s.laneAllowed l

/-- CAGE0 and CAGE1.TX_DISABLED: every transmitter of the cage is disabled. -/
def State.showLaneTransmitters (s : State) : State :=
  (s.setBit A.cmacCage0 13 (!([0, 1, 2, 3].any (fun l => s.laneTransmits l)))).setBit A.cmacCage1 13
    (!([4, 5, 6, 7].any (fun l => s.laneTransmits l)))

/-- CAGE_INSERT for a Peorel cage. -/
def State.laneCageInsert (s : State) (c : Nat) (responded : Bool) (ident pclass : Nat) : State :=
  let a := if c = 0 then A.cmacCage0 else A.cmacCage1
  let reason := if responded = false then 0x42 else if ident ≠ 0x11 then 0x40
    else if pclass < 1 ∨ 4 < pclass then 0x41 else 0
  let t := (s.setBit A.cmacStatus (2 * c) true).raise A.cmacEvent 0
  let t := t.sfW A.cmacCageFault (8 * c) 8 reason
  let t := if responded then (t.sfW a 0 8 ident).sfW a 8 3 pclass else t
  let t := t.setBit a 11 (decide (reason ≠ 0))
  let t := (t.setBit A.cmacStatus (2 * c + 1) (decide (reason = 0))).showLaneTransmitters
  t.when (decide (reason ≠ 0)) (fun u => u.raise A.cmacEvent 2)

/-- CAGE_REMOVE for a Peorel cage: its lanes go DOWN first. -/
def State.laneCageRemove (s : State) (c : Nat) : State :=
  let a := if c = 0 then A.cmacCage0 else A.cmacCage1
  let t := s.each [4 * c, 4 * c + 1, 4 * c + 2, 4 * c + 3] (fun l u => u.laneDown l)
  let t := ((t.setBit A.cmacStatus (2 * c) false).setBit A.cmacStatus (2 * c + 1) false).raise A.cmacEvent 1
  (t.wr a (resetOf a)).sfW A.cmacCageFault (8 * c) 8 0

/-! ### Groups CMAC_PORT, CMAC_CAL and CAS_CFG (R429, R430, R432) -/

/-- STATUS.FROZEN of CMAC, of its lanes and of CAS. -/
def State.casFrozen (s : State) : State :=
  let bad : Nat → Bool := fun g => decide ((s.group g).parity ≠ [])
  let t := (s.setBit A.cmacStatus 12 (bad 31 || bad 32)).setBit A.casStatus 3 (bad 33 || bad 34)
  (t.each (List.range 8) (fun l u => u.setBit (A.cmacLaneStatus l) 8 (s.laneStruck l || s.laneDark l))).showLaneTransmitters

/-- CMAC_PORT applied: a lane whose CFG changed goes DOWN; LINK_UP brings it up again. -/
def State.applyCmacPort (s : State) (old : Nat → Word) : State :=
  let t := s.each (indices 8 (fun l => decide (old (A.cmacLaneCfg l) ≠ s.rd (A.cmacLaneCfg l)))) (fun l u => u.laneDown l)
  t.casFrozen

/-- CMAC_CAL applied: an interval in which the two ends agree is not one of disagreement (R419). -/
def State.applyCmacCal (s : State) : State :=
  (s.each (List.range 8) (fun l t => if t.asymApart l then t else t.setLane l (fun x => { x with apart := false }))).casFrozen

/-- The checks of CMAC_PORT. -/
def checkCmacPort (w : Nat → Word) : Option Nat :=
  firstReason [
    (!(rangesOk 31 w) || (List.range 8).any (fun l => decide (fld (w (A.cmacLaneCfg l)) 1 2 = 3)), 0x40),
    ((List.range 8).any (fun l =>
      let a := fld (w (A.cmacLaneMacAddrHi l)) 0 16 * 2 ^ 32 + (w (A.cmacLaneMacAddrLo l)).toNat
      decide (a = 0) || decide (a / 2 ^ 40 % 2 = 1)), 0x41)]

/-- The check of CMAC_CAL. -/
def checkCmacCal (w : Nat → Word) : Option Nat :=
  firstReason [(!(rangesOk 32 w) || (List.range 8).any (fun l => decide (10000000 < (w (A.cmacLaneAsym l)).toInt.natAbs)), 0x40)]

/-- The tick entry of the cascade: present while it is enabled (R408). -/
def State.armTick (s : State) : State :=
  let tick : Nat × CalEntry → Bool := fun e => decide (e.2.action = 0x17) && decide (e.2.arg % 256 = 0)
  if s.casOn then
    if s.ts.calendar.any tick then s
    else (s.calNew (ownEntry 0x17 0 (nextMultiple s.nowNs 15625000) 15625000 0 0)).2
  else ({ s with ts := { s.ts with calendar := s.ts.calendar.filter (fun e => !(tick e)) } }).calUsed

/-- CAS_CFG applied: position OFF becomes ORPHAN until the next tick chooses. -/
def State.applyCasCfg (s : State) : State :=
  let t := s.casFrozen.armTick
  if t.casOn then (if t.position = 0 then t.choosePosition false else t) else t.casOff

/-- The checks of CAS_CFG. -/
def checkCasCfg (s : State) (w : Nat → Word) : Option Nat :=
  firstReason [(!(rangesOk 33 w), 0x40), (bitOf (w A.casCfg) 0 && decide (s.systemId = 0), 0x42)]

/-- A parity fault in a CMAC word (R429). -/
def State.cmacParityFault (s : State) : State := ((s.raise A.cmacEvent 3).casFrozen).dropLanes

/-- A parity fault in a CAS word (R429). -/
def State.casParityFault (s : State) : State :=
  let t := (s.raise A.casEvent 10).casFrozen
  if t.casFaulty then t.armTick.casOff else t

end Sys2Proof.Machine
end

