-- ==== Sys2Proof/Machine/Pke.lean ====
section
/-!
DEFINITION. The public-key engine (R297 to R323): job records and their checks, validation and results of each operation,
scheduling, completion, abort, the key store, and the TRNG.
-/

namespace Sys2Proof.Machine

/-! ### Job records (R297 to R299) -/

/-- Fields of a job record. -/
def jOp (r : Bytes) : Nat := leAt r 0 1
def jParam (r : Bytes) : Nat := leAt r 1 1
def jPrio (r : Bytes) : Nat := leAt r 2 1 % 4
def jWipeIn (r : Bytes) : Bool := (leAt r 2 1).testBit 2
def jSlot (r : Bytes) : Nat := leAt r 3 1
def jNwords (r : Bytes) : Nat := leAt r 4 2
def jUsage (r : Bytes) : Nat := leAt r 6 1
def jIn (r : Bytes) : Nat := leAt r 8 8
def jInLen (r : Bytes) : Nat := leAt r 16 4
def jOutLen (r : Bytes) : Nat := leAt r 20 4
def jOut (r : Bytes) : Nat := leAt r 24 8
def jProg (r : Bytes) : Nat := leAt r 32 8
def jTag (r : Bytes) : Nat := leAt r 40 4

/-- A job with an inline key. -/
def jInline (r : Bytes) : Bool := decide (jSlot r = 0xFF)

/-- The algorithm of a job (R297): from its operation, or its PARAM. -/
def jAlg (r : Bytes) : Nat :=
  match jOp r with
  | 1 => 1 | 2 => 1 | 3 => 2 | 4 => 2 | 5 => 3 | 6 => 4 | 0xA => 0x21 | 0xB => 0x21
  | _ => jParam r

/-- Scalar bytes L of an algorithm; k for RSA. -/
def algBytes (alg nwords : Nat) : Nat :=
  match alg with
  | 1 => 32 | 2 => 57 | 3 => 32 | 4 => 56 | 0x11 => 32 | 0x12 => 48 | 0x13 => 66 | _ => 8 * nwords

/-- A P-curve code. -/
def isPCurve (alg : Nat) : Bool := decide (alg = 0x11) || decide (alg = 0x12) || decide (alg = 0x13)

/-- NWORDS that an algorithm has (R297). -/
def nwordsOk (alg n : Nat) : Bool :=
  match alg with
  | 1 => decide (n = 4) | 2 => decide (n = 8) | 3 => decide (n = 4) | 4 => decide (n = 7)
  | 0x11 => decide (n = 4) | 0x12 => decide (n = 6) | 0x13 => decide (n = 9)
  | 0x21 => decide (16 ≤ n ∧ n ≤ 64)
  | _ => false

/-- Bytes of the RSA private form (R298). -/
def rsaFormBytes (nwords : Nat) : Nat := 8 * nwords + 8 + 5 * (4 * nwords)

/-- Bytes of a private key as KEY_IMPORT takes it. -/
def privBytes (alg nwords : Nat) : Nat := if alg = 0x21 then rsaFormBytes nwords else algBytes alg nwords

/-- Bytes of a public key as it is output (R298). -/
def pubBytes (alg nwords : Nat) : Nat :=
  if isPCurve alg then 2 * algBytes alg nwords + 1 else if alg = 0x21 then 8 * nwords + 8 else algBytes alg nwords

/-- Bytes of the inline key that IN begins with. -/
def inlineBytes (r : Bytes) : Nat :=
  let n := jNwords r
  match jOp r with
  | 8 => pubBytes (jAlg r) n
  | 0xA => rsaFormBytes n
  | 0xB => 8 * n + 8
  | _ => algBytes (jAlg r) n

/-- The least and the greatest length of IN after the key (R298). -/
def restBounds (r : Bytes) : Nat × Nat :=
  let l := algBytes (jAlg r) (jNwords r)
  let c := jParam r
  match jOp r with
  | 1 => (0, 4096)
  | 2 => (64, 4160)
  | 3 => (c, 4096 + c)
  | 4 => (114 + c, 4210 + c)
  | 5 => (32, 32)
  | 6 => (56, 56)
  | 7 => (1, 64)
  | 8 => (2 * l + 1, 2 * l + 64)
  | 9 => (2 * l + 1, 2 * l + 1)
  | 0xA => (l, l)
  | 0xB => (l, l)
  | 0x11 => (privBytes (jAlg r) (jNwords r), privBytes (jAlg r) (jNwords r))
  | _ => (0, 0)

/-- Output bytes of an operation (R298). -/
def outBytes (r : Bytes) : Nat :=
  let l := algBytes (jAlg r) (jNwords r)
  match jOp r with
  | 1 => 64 | 3 => 114 | 5 => 32 | 6 => 56 | 7 => 2 * l | 9 => l | 0xA => l | 0xB => l
  | _ => 0

/-- A known operation. -/
def opKnown (op : Nat) : Bool := decide (1 ≤ op ∧ op ≤ 0x0B) || decide (0x10 ≤ op ∧ op ≤ 0x13)

/-- An operation that uses a key: those of the curves and RSA, and KEY_PUBLIC. -/
def opUsesKey (op : Nat) : Bool := decide (1 ≤ op ∧ op ≤ 0x0B) || decide (op = 0x13)

/-- KEYGEN and KEY_IMPORT. -/
def opFills (op : Nat) : Bool := decide (op = 0x10) || decide (op = 0x11)

/-! ### The key store (R315) -/

/-- Slot `k`. -/
def State.slot (s : State) (k : Nat) : KeySlot := s.pke.slots.getD k KeySlot.empty

/-- The SLOT register of a slot. -/
def State.showSlot (s : State) (k : Nat) : State :=
  let x := s.slot k
  let bound := s.bit A.rcpLtSlot 6 && decide (s.f A.rcpLtSlot 0 6 = k)
  s.wr (A.pkeSlot k) (word (x.state + x.alg * 2 ^ 8 + x.usage * 2 ^ 16 + b2n x.imported * 2 ^ 21 + b2n bound * 2 ^ 22 + x.nwords * 2 ^ 23))

/-- Setting a slot. -/
def State.setSlot (s : State) (k : Nat) (x : KeySlot) : State :=
  ({ s with pke := { s.pke with slots := modAt s.pke.slots k (fun _ => x) } }).showSlot k

/-- A valid USAGE for an algorithm (R315): [0] SIGN, [1] DERIVE, [2] DECRYPT, [3] RECEIPT, [4] PERSIST. -/
def usageOk (alg usage : Nat) : Bool :=
  let u := usage % 16
  match alg with
  | 1 => decide (u = 1) || decide (u = 8)
  | 2 => decide (u = 1)
  | 3 => decide (u = 2)
  | 4 => decide (u = 2)
  | 0x21 => decide (u = 1) || decide (u = 4) || decide (u = 5)
  | _ => isPCurve alg && (decide (u = 1) || decide (u = 2) || decide (u = 3))

/-- A slot's key fits an operation (R315): algorithm, length, usage; a RECEIPT key serves no host job. -/
def keyFits (r : Bytes) (x : KeySlot) : Bool :=
  let op := jOp r
  let sign := x.usage.testBit 0
  !(x.usage.testBit 3) &&
  (decide (op = 0x13) ||
   (decide (x.alg = jAlg r) && decide (x.nwords = jNwords r) &&
    (match op with
     | 1 => sign | 3 => sign | 7 => sign
     | 5 => x.usage.testBit 1 | 6 => x.usage.testBit 1 | 9 => x.usage.testBit 1
     | 0xA => sign || x.usage.testBit 2
     | _ => true)))

/-- The flash copies of the slots with PERSIST follow (R317). -/
def State.saveKeys (s : State) : State :=
  let keep := s.pke.slots.map (fun x => if x.state = 2 ∧ x.usage.testBit 4 = true then x else KeySlot.empty)
  { s with pke := { s.pke with flash := keep :: s.pke.flash.take 1 } }

/-- A KEY journal record (R316, R388). -/
def State.journalKeyOp (s : State) (r : Bytes) (alg usage status : Nat) : State :=
  s.journalize 4 .host (A.pkeSlot (jSlot r)) status (le 1 (jSlot r) ++ le 1 alg ++ le 1 usage ++ le 1 (jOp r) ++ le 1 status)

/-! ### Cores and the queue -/

/-- A core is active: not fenced. -/
def State.coreOn (s : State) (c : Nat) : Bool := s.bit A.pkeStatus c

/-- Active cores. -/
def State.coresOn (s : State) : Nat := (indices 16 s.coreOn).length

/-- CFG as it acts (R321). -/
def State.pkeCfg (s : State) : Word := if (s.group 24).parity = [] then s.rd A.pkeCfg else resetOf A.pkeCfg

/-- A core. -/
def State.core (s : State) (c : Nat) : PkeCore := s.pke.cores.getD c ⟨none, 0, []⟩

/-- A long job (R306). -/
def jLong (r : Bytes) : Bool := decide (16 < jNwords r)

/-- Cores that hold long jobs. -/
def State.longCores (s : State) : Nat :=
  (indices 16 (fun c => (s.core c).running.any (fun j => jLong j.rec_))).length

/-- What QUEUE, STATUS.LONG and a core's page show. -/
def State.showCore (s : State) (c : Nat) : State :=
  let x := s.core c
  let run := x.running.isSome
  let r := match x.running with
    | some j => j.rec_
    | none => []
  let st := if s.coreOn c = false then 3 else if run then 1 else 0
  let t := s.wr (A.pkeCoreStatus c) (word (st + 4 * b2n (run && jLong r) + 8 * x.saved.length + (if run then jOp r * 256 else 0)))
  let t := t.wr (A.pkeCoreTag c) (word (if run then jTag r else 0))
  (t.sfW A.pkeStatus 16 5 t.longCores).sfW A.pkeQueue 0 11 t.pke.queue.length

/-- Changing a core. -/
def State.setCore (s : State) (c : Nat) (f : PkeCore → PkeCore) : State :=
  ({ s with pke := { s.pke with cores := modAt s.pke.cores c f } }).showCore c

/-- Changing the queue. -/
def State.setQueuePke (s : State) (f : List PkeJob → List PkeJob) : State :=
  let t := { s with pke := { s.pke with queue := f s.pke.queue } }
  t.sfW A.pkeQueue 0 11 t.pke.queue.length

/-! ### Durations (R302) -/

/-- The message of an EdDSA job, without key, signature and context. -/
def jMessage (r input : Bytes) : Bytes :=
  let k := if jInline r then inlineBytes r else 0
  match jOp r with
  | 1 => input.drop k
  | 2 => input.drop (k + 64)
  | 3 => input.drop (k + jParam r)
  | _ => input.drop (k + 114 + jParam r)

/-- Hash blocks of an EdDSA job over its hashes. -/
def jBlocks (r input : Bytes) : Nat :=
  let m := (jMessage r input).length
  let dom := 10 + jParam r
  match jOp r with
  | 1 => shaBlocks (32 + m) + shaBlocks (64 + m)
  | 2 => shaBlocks (64 + m)
  | 3 => shakeBlocks (dom + 57 + m) + shakeBlocks (dom + 114 + m)
  | _ => shakeBlocks (dom + 114 + m)

/-- Validation cycles (R302). -/
def validCycles (r : Bytes) : Nat :=
  match jAlg r with
  | 2 => 9216 | 4 => 9216 | 0x12 => 6912 | 0x13 => 15552 | 0x21 => 256 + 16 * jNwords r | _ => 3072

/-- One of three totals by curve. -/
def byCurve (alg a b c : Nat) : Nat := if alg = 0x11 then a else if alg = 0x12 then b else c

/-- Total cycles of an operation, given the hash blocks (R302, R313, R316). -/
def totalCycles (op alg w blocks : Nat) : Nat :=
  match op with
  | 1 => 19456 + 96 * blocks
  | 2 => 110592 + 96 * blocks
  | 3 => 86016 + 160 * blocks
  | 4 => 491520 + 160 * blocks
  | 5 => 71680
  | 6 => 368640
  | 7 => byCurve alg 32768 90112 196608
  | 8 => byCurve alg 122880 344064 786432
  | 9 => byCurve alg 81920 229376 524288
  | 0xA => (61 * w ^ 3 + 1094 * w ^ 2) / 2
  | 0xB => 130 * (w ^ 2 + 64) + 512
  | 0x10 =>
    (match alg with
     | 1 => 19456 + 96
     | 2 => 86016 + 160
     | 3 => 71680
     | 4 => 368640
     | 0x21 => if w = 32 then 120000000 else if w = 48 then 500000000 else if w = 64 then 1500000000 else Config.keygenCycles w
     | _ => byCurve alg 81920 229376 524288)
  | 0x11 => Config.importCycles alg w
  | _ => 0

/-- The total of a job. -/
def PkeJob.total (j : PkeJob) : Nat := totalCycles (jOp j.rec_) (jAlg j.rec_) (jNwords j.rec_) (jBlocks j.rec_ j.input)

/-- The cycles a job has left. -/
def PkeJob.remaining (j : PkeJob) : Nat := j.total - j.spent

/-- A total that the manual fixes: not that of an RSA KEYGEN or a KEY_IMPORT. -/
def fixedTotal (r : Bytes) : Bool := !(decide (jOp r = 0x11) || (decide (jOp r = 0x10) && decide (jAlg r = 0x21)))

/-- The cycle at which a job with a result is due: a failed validation ends after the wipe (R301), a KEYGEN without full-entropy
output at once (R313). -/
def PkeJob.dueCycles (j : PkeJob) : Nat :=
  match j.result with
  | some (2, _, _) => validCycles j.rec_ + 1024
  | some (3, _, _) => validCycles j.rec_ + 1024
  | some (0x46, _, _) => 0
  | _ => if fixedTotal j.rec_ then j.total else 0

/-! ### Completion (R309, R312) -/

/-- The private bytes of IN that WIPE_IN zeroes: an inline private key, or the key that KEY_IMPORT loads. -/
def wipeBytes (r : Bytes) : Nat :=
  let op := jOp r
  if jWipeIn r = false then 0
  else if op = 0x11 then jInLen r
  else if jInline r ∧ (op = 1 ∨ op = 3 ∨ op = 5 ∨ op = 6 ∨ op = 7 ∨ op = 9 ∨ op = 0xA) then min (inlineBytes r) (jInLen r)
  else 0

/-- The final progress record of an RSA KEYGEN (R314). -/
def State.finalProgress (s : State) (j : PkeJob) (status : Nat) : State :=
  let r := j.rec_
  if jOp r = 0x10 ∧ jAlg r = 0x21 ∧ jProg r ≠ 0 then
    s.progressRecord (jProg r) (j.progSeq + 1) (if status = 0 then 4 else j.phase) status (if status = 0 then 10000 else 0) 0 0 3 (jTag r)
  else s

/-- A job ends with a status: output, the record's bytes 44 to 51, the completion, and the counters. `core` is 0xFF and `cycles`
0 where no core ran it. A job of the receipt engine leaves its result to that engine. -/
def State.finishJob (s : State) (j : PkeJob) (status detail : Nat) (out : Bytes) (core cycles : Nat) : State :=
  let r := j.rec_
  let t := if status = 0 then s.inc A.pkeJobsOk else s.inc A.pkeJobsFail
  let t := if status = 1 then t.inc A.pkeAborted else if status = 6 then t.inc A.pkeFencedJobs else t
  match j.ring with
  | none => t
  | some (n, d) =>
    let live := t.ringLive n && t.hif.attached
    let t := if live && decide (0 < wipeBytes r) then t.hostWrite (jIn r) (zeros (wipeBytes r)) else t
    let t := if live && decide (status = 0) && decide (out ≠ []) then t.hostWrite (jOut r) out else t
    let t := if live then t.finalProgress j status else t
    let t := if live then t.hostWrite (j.recAddr + 44) (le 4 cycles ++ le 1 core ++ le 1 (min 255 j.yields) ++ le 2 detail) else t
    t.endJob n d status (if status = 0 then out.length else 0)

/-! ### Fetch and its checks (R300) -/

/-- The first failing check of a job record, orders 1 to 8. -/
def State.jobCheck (s : State) (r : Bytes) : Option Nat :=
  let op := jOp r
  let fills := opFills op
  let alg := jAlg r
  let w := jNwords r
  let inl := jInline r
  let x := s.slot (jSlot r)
  let rest := jInLen r - (if inl then inlineBytes r else 0)
  let keyOps := decide (op = 0x12) || decide (op = 0x13)
  let paramOk := if keyOps then decide (jParam r = 0)
    else if fills then nwordsOk (jParam r) w
    else if op = 7 ∨ op = 8 ∨ op = 9 then isPCurve (jParam r)
    else if op = 3 ∨ op = 4 then true else decide (jParam r = 0)
  let wOk := if keyOps then decide (w = 0) else nwordsOk alg w
  let lenOk := decide ((if inl then inlineBytes r else 0) ≤ jInLen r) && decide ((restBounds r).1 ≤ rest) &&
    decide (rest ≤ (restBounds r).2)
  let outNeed := if fills then (if jOutLen r = 0 then 0 else pubBytes alg w)
    else if op = 0x13 then pubBytes x.alg x.nwords else outBytes r
  let reserve := fld s.pkeCfg 0 4
  firstReason [
    (!(opKnown op) || decide (8 ≤ leAt r 2 1) || decide (leAt r 7 1 ≠ 0) || decide (leAt r 52 12 ≠ 0) ||
      (if fills then decide (32 ≤ jUsage r) else decide (jUsage r ≠ 0)), 0x47),
    (!paramOk || !wOk || !lenOk || (decide (64 ≤ jSlot r) && !inl) || (inl && decide (0x10 ≤ op)), 0x44),
    (!inl && opUsesKey op && decide (x.state ≠ 2), 0x07),
    (fills && decide (x.state ≠ 0), 0x0C),
    ((!inl && opUsesKey op && !(keyFits r x)) || (fills && !(usageOk alg (jUsage r))), 0x43),
    (decide (jOutLen r < outNeed), 0x45),
    (decide (s.coresOn = 0) || (jLong r && decide (s.coresOn ≤ reserve)), 0x06),
    (decide (op = 0x10) && decide (s.f A.pkeTrngStatus 0 2 ≠ 1), 0x46)]

/-- A job as fetched. -/
def State.newJob (s : State) (ring : Option (Nat × Nat)) (addr : Nat) (r input : Bytes) (urgent : Bool) (tree : Option (Nat × Nat)) :
    PkeJob :=
  { ring := ring, recAddr := addr, rec_ := r, input := input, key := none, order := s.pke.fetchNo, waitSince := s.ts.meas
    aged := false, urgent := urgent, spent := 0, yields := 0, result := none, tree := tree, progSeq := 0, phase := 0, progAt := 0 }

/-- A job enters the central queue. -/
def State.queueJob (s : State) (j : PkeJob) : State :=
  ({ s with pke := { s.pke with fetchNo := s.pke.fetchNo + 1 } }).setQueuePke (fun q => q ++ [j])

/-- The central queue has room for a host job. -/
def State.queueRoom (s : State) : Bool := decide ((s.pke.queue.filter (fun j => j.ring.isSome)).length < 1024)

/-- A fetched job: `rec` its record and `input` its IN, each none where the read failed. -/
def State.fetchJob (s : State) (n : Nat) (d : Desc) (rec_ input : Option Bytes) : State :=
  match rec_, input with
  | some r, some i =>
    let j := s.newJob (some (n, d.slot)) d.addr (slice r 0 64) (slice i 0 (jInLen r)) false none
    (match s.jobCheck (slice r 0 64) with
     | some st =>
       let t := if st = 0x46 then s.inc A.pkeFeDenied else s
       let t := if opFills (jOp r) ∧ jSlot r < 64 then t.journalKeyOp r (jParam r) (jUsage r) st else t
       t.finishJob j st 0 [] 0xFF 0
     | none => s.queueJob j)
  | _, _ => s.endJob n d.slot 0x41 0

/-! ### Validation (R301) -/

/-- The first failing check: status and the index of the operand. -/
abbrev Invalid := Option (Nat × Nat)

/-- The first of several checks that fails. -/
def firstBad : List (Bool × Nat × Nat) → Invalid
  | [] => none
  | (c, r) :: t => if c then some r else firstBad t

/-- Where IN goes on after an inline key, and the operand index that follows. -/
def PkeJob.base (j : PkeJob) : Nat := if jInline j.rec_ then inlineBytes j.rec_ else 0
def PkeJob.next (j : PkeJob) : Nat := b2n (jInline j.rec_)

/-- The private key bytes of a job. -/
def PkeJob.priv (j : PkeJob) : Bytes :=
  if jInline j.rec_ then slice j.input 0 (inlineBytes j.rec_) else (j.key.getD KeySlot.empty).priv

/-- The public key bytes of a job. -/
def PkeJob.pub (j : PkeJob) : Bytes :=
  if jInline j.rec_ then slice j.input 0 (inlineBytes j.rec_) else (j.key.getD KeySlot.empty).pub

/-- A point 0x04, X, Y. -/
def pointOf (c : PCurve) (b : Bytes) : Nat × Nat := (beAt b 1 c.size, beAt b (1 + c.size) c.size)

/-- A point's coordinates are below p. -/
def pointInRange (c : PCurve) (b : Bytes) : Bool := decide ((pointOf c b).1 < c.p) && decide ((pointOf c b).2 < c.p)

/-- A point's prefix is 0x04 and it lies on the curve. -/
def pointOk (c : PCurve) (b : Bytes) : Bool := decide (beAt b 0 1 = 4) && c.on (pointOf c b).1 (pointOf c b).2

/-- A scalar lies in [1, n - 1]. -/
def scalarOk (n v : Nat) : Bool := decide (0 < v) && decide (v < n)

/-- The components of the RSA private form: n, e, p, q, dP, dQ, qInv. -/
structure RsaKey where
  n : Nat
  e : Nat
  p : Nat
  q : Nat
  dp : Nat
  dq : Nat
  qinv : Nat
  deriving DecidableEq, Repr

/-- Reading the RSA private form (R298). -/
def rsaOf (w : Nat) (b : Bytes) : RsaKey :=
  let k := 8 * w
  let h := 4 * w
  ⟨beAt b 0 k, beAt b k 8, beAt b (k + 8) h, beAt b (k + 8 + h) h, beAt b (k + 8 + 2 * h) h, beAt b (k + 8 + 3 * h) h,
    beAt b (k + 8 + 4 * h) h⟩

/-- Writing it. -/
def RsaKey.bytes (x : RsaKey) (w : Nat) : Bytes :=
  be (8 * w) x.n ++ be 8 x.e ++ be (4 * w) x.p ++ be (4 * w) x.q ++ be (4 * w) x.dp ++ be (4 * w) x.dq ++ be (4 * w) x.qinv

/-- No component is 0 or not below its own modulus. -/
def RsaKey.inRange (x : RsaKey) : Bool :=
  decide (0 < x.n) && scalarOk x.n x.e && scalarOk x.n x.p && scalarOk x.n x.q && scalarOk (x.p - 1) x.dp && scalarOk (x.q - 1) x.dq &&
  scalarOk x.p x.qinv

/-- The RSA private operation with the CRT (RFC 8017). -/
def RsaKey.private_ (x : RsaKey) (w c : Nat) : Nat :=
  let m1 := powMod (c % x.p) x.dp x.p (32 * w)
  let m2 := powMod (c % x.q) x.dq x.q (32 * w)
  m2 + x.q * (x.qinv * subMod m1 (m2 % x.p) x.p % x.p)

/-- The public operation. -/
def rsaPublicFn (n e m : Nat) : Nat := powMod m e n 64

/-- Validation of a job whose slot key has been taken (R301). -/
def PkeJob.invalid (j : PkeJob) : Invalid :=
  let r := j.rec_
  let inl := jInline r
  let b := j.base
  let i := j.next
  let w := jNwords r
  match jOp r with
  | 2 => edInvalid ed25519 inl i b j
  | 4 => edInvalid ed448 inl i b j
  | 5 => firstBad [
      (inl && decide (ofLe j.priv = 0), 2, 0),
      (decide (2 ^ 255 - 19 ≤ ofLe (slice j.input b 32) % 2 ^ 255), 2, i)]
  | 6 => firstBad [
      (inl && decide (ofLe j.priv = 0), 2, 0),
      (decide (2 ^ 448 - 2 ^ 224 - 1 ≤ ofLe (slice j.input b 56)), 2, i)]
  | 7 => firstBad [(!(scalarOk (pCurveOf (jParam r)).n (ofBe j.priv)), 2, 0)]
  | 8 =>
    let c := pCurveOf (jParam r)
    firstBad [
      (!(pointInRange c j.pub), 2, 0),
      (!(scalarOk c.n (beAt j.input b c.size)), 2, i),
      (!(scalarOk c.n (beAt j.input (b + c.size) c.size)), 2, i + 1),
      (!(pointOk c j.pub), 3, 0)]
  | 9 =>
    let c := pCurveOf (jParam r)
    let q := slice j.input b (2 * c.size + 1)
    firstBad [
      (!(scalarOk c.n (ofBe j.priv)), 2, 0),
      (!(pointInRange c q), 2, i),
      (!(pointOk c q), 3, i)]
  | 0xA =>
    let x := rsaOf w j.priv
    firstBad [
      (inl && !x.inRange, 2, 0),
      (!(scalarOk x.n (beAt j.input b (8 * w))), 2, i)]
  | 0xB =>
    let n := beAt j.pub 0 (8 * w)
    let e := beAt j.pub (8 * w) 8
    firstBad [
      (decide (n % 2 = 0) || decide (n < 2 ^ (64 * w - 64)), 2, 0),
      (decide (e % 2 = 0) || decide (e < 3), 2, 1),
      (!(scalarOk n (beAt j.input b (8 * w))), 2, if inl then 2 else 0)]
  | 0x11 =>
    (match jAlg r with
     | 1 => none
     | 2 => none
     | 3 => firstBad [(decide (ofLe j.input = 0), 2, 0)]
     | 4 => firstBad [(decide (ofLe j.input = 0), 2, 0)]
     | 0x21 => firstBad [(!(rsaOf w j.input).inRange, 2, 0)]
     | a => firstBad [(!(scalarOk (pCurveOf a).n (ofBe j.input)), 2, 0)])
  | _ => none
where
  /-- Verification of EdDSA: the public key and the signature's R and S. -/
  edInvalid (c : Edwards) (inl : Bool) (i b : Nat) (j : PkeJob) : Invalid :=
    let a := slice j.pub 0 c.size
    let sig := slice j.input b (2 * c.size)
    firstBad [
      (inl && decide (c.p ≤ c.yOf a), 2, 0),
      (decide (c.p ≤ c.yOf (slice sig 0 c.size)) || decide (c.order ≤ ofLe (slice sig c.size c.size)), 2, i),
      (inl && (c.decode a).isNone, 3, 0),
      ((c.decode (slice sig 0 c.size)).isNone, 3, i)]

/-! ### Results (R297, R304, R313, R316) -/

/-- The context of an Ed448 job. -/
def PkeJob.context (j : PkeJob) : Bytes :=
  if jOp j.rec_ = 3 then slice j.input j.base (jParam j.rec_) else slice j.input (j.base + 114) (jParam j.rec_)

/-- EdDSA signing. -/
def PkeJob.edSign (j : PkeJob) (c : Edwards) (ctx : Bytes) : Nat × Bytes :=
  (0, c.sign (slice j.priv 0 c.size) ctx (jMessage j.rec_ j.input))

/-- EdDSA verification. -/
def PkeJob.edVerify (j : PkeJob) (c : Edwards) (ctx : Bytes) : Nat × Bytes :=
  (if c.verify (slice j.pub 0 c.size) (slice j.input j.base (2 * c.size)) ctx (jMessage j.rec_ j.input) then 0 else 0x40, [])

/-- An all-zero shared secret gives ZERO_SECRET. -/
def secretResult (b : Bytes) : Nat × Bytes := if b = zeros b.length then (4, []) else (0, b)

/-- ECDSA signing with a nonce in [1, n - 1]: r = 0 or s = 0 is a fault. -/
def PkeJob.ecSign (j : PkeJob) (draw : Nat) : Nat × Bytes :=
  let c := pCurveOf (jParam j.rec_)
  let q := c.sign (ofBe j.priv) (draw % (c.n - 1) + 1) (j.input.drop j.base)
  if q.1 = 0 ∨ q.2 = 0 then (0x41, []) else (0, be c.size q.1 ++ be c.size q.2)

/-- ECDSA verification. -/
def PkeJob.ecVerify (j : PkeJob) : Nat × Bytes :=
  let c := pCurveOf (jParam j.rec_)
  let b := j.base
  (if c.verify (pointOf c j.pub) (beAt j.input b c.size) (beAt j.input (b + c.size) c.size) (j.input.drop (b + 2 * c.size)) then 0
   else 0x40, [])

/-- The ECDH primitive: the shared x. -/
def PkeJob.ecdhOf (j : PkeJob) : Nat × Bytes :=
  let c := pCurveOf (jParam j.rec_)
  match c.mul (ofBe j.priv) (pointOf c (slice j.input j.base (2 * c.size + 1))) with
  | none => (0, zeros c.size)
  | some x => (0, be c.size x.1)

/-- The RSA private operation, whose result is raised to e and compared with the input (R304). -/
def PkeJob.rsaPrivateOf (j : PkeJob) : Nat × Bytes :=
  let w := jNwords j.rec_
  let x := rsaOf w j.priv
  let c := beAt j.input j.base (8 * w)
  let m := x.private_ w c
  if rsaPublicFn x.n x.e m = c then (0, be (8 * w) m) else (0x41, [])

/-- The RSA public operation. -/
def PkeJob.rsaPublicOf (j : PkeJob) : Nat × Bytes :=
  let w := jNwords j.rec_
  (0, be (8 * w) (rsaPublicFn (beAt j.pub 0 (8 * w)) (beAt j.pub (8 * w) 8) (beAt j.input j.base (8 * w))))

/-- The public key of a private key (R298). -/
def publicOf (alg w : Nat) (priv : Bytes) : Bytes :=
  match alg with
  | 1 => ed25519.public priv
  | 2 => ed448.public priv
  | 3 => x25519Fn priv (le 32 9)
  | 4 => x448Fn priv (le 56 5)
  | 0x21 => slice priv 0 (8 * w + 8)
  | a =>
    let c := pCurveOf a
    match c.mul (ofBe priv) (c.gx, c.gy) with
    | none => zeros (2 * c.size + 1)
    | some q => [4] ++ be c.size q.1 ++ be c.size q.2

/-- The extended Euclidean algorithm: the inverse of `a` modulo `m`. -/
def euclid : Nat → Int → Int → Int → Int → Int
  | 0, _, _, _, y => y
  | n + 1, a, b, x, y => if b = 0 then x else euclid n b (a % b) y (x - a / b * y)

/-- The inverse of a number modulo any `m` it is prime to. -/
def inverseMod (a m bits : Nat) : Nat := (euclid (3 * bits) a m 1 0 % (m : Int)).toNat

/-- An RSA key of drawn primes with e = 65,537 (R313). -/
def rsaKeygen (w draw : Nat) : RsaKey :=
  let p := Config.prime (32 * w) (2 * draw)
  let q := Config.prime (32 * w) (2 * draw + 1)
  ⟨p * q, 65537, p, q, inverseMod 65537 (p - 1) (32 * w), inverseMod 65537 (q - 1) (32 * w), inverseMod q p (32 * w)⟩

/-- A drawn private key of an algorithm (R313). -/
def drawnKey (alg w draw : Nat) : Bytes :=
  if alg = 0x21 then (rsaKeygen w draw).bytes w
  else if isPCurve alg then be (pCurveOf alg).size (draw % ((pCurveOf alg).n - 1) + 1)
  else le (algBytes alg w) draw

/-- KEY_IMPORT's consistency of an RSA key (R316). -/
def rsaConsistent (w : Nat) (x : RsaKey) : Bool :=
  let v := Config.rsaTest x.n % x.n
  decide (x.n = x.p * x.q) && decide (x.private_ w (rsaPublicFn x.n x.e v) = v)

/-- The result of a validated job: status and output. `draw` is a free value: the ECDSA nonce, or a generated key. -/
def PkeJob.compute (j : PkeJob) (draw : Nat) : Nat × Bytes :=
  let r := j.rec_
  let w := jNwords r
  match jOp r with
  | 1 => j.edSign ed25519 []
  | 2 => j.edVerify ed25519 []
  | 3 => j.edSign ed448 j.context
  | 4 => j.edVerify ed448 j.context
  | 5 => secretResult (x25519Fn j.priv (slice j.input j.base 32))
  | 6 => secretResult (x448Fn j.priv (slice j.input j.base 56))
  | 7 => j.ecSign draw
  | 8 => j.ecVerify
  | 9 => j.ecdhOf
  | 0xA => j.rsaPrivateOf
  | 0xB => j.rsaPublicOf
  | 0x10 => (0, drawnKey (jAlg r) w draw)
  | 0x11 => if jAlg r = 0x21 ∧ rsaConsistent w (rsaOf w j.input) = false then (0x48, []) else (0, j.input)
  | _ => (0, [])

/-- An operation of the running job of core `c` (the command of its OP): the job is validated and its result is made. Any other
job, and one that has its result, is left as it is. -/
def State.runOp (s : State) (op c : Nat) : State :=
  match (s.core c).running with
  | none => s
  | some j =>
    if jOp j.rec_ ≠ op ∨ j.result.isSome then s
    else
      let set : State → Nat × Nat × Bytes → State := fun t v =>
        t.setCore c (fun (x : PkeCore) => { x with running := some { j with result := some v } })
      if op = 0x10 ∧ s.f A.pkeTrngStatus 0 2 ≠ 1 then set (s.inc A.pkeFeDenied) (0x46, 0, [])
      else match j.invalid with
        | some (st, d) => set s (st, d, [])
        | none =>
          let q := s.draw
          let v := j.compute q.1
          set q.2 (v.1, 0, v.2)

/-! ### Scheduling (R305 to R308) -/

/-- The order of R305 and R308: URGENT, priority, aged, remaining cycles, fetch order; smaller goes first. -/
def PkeJob.rank (j : PkeJob) : List Nat :=
  [if j.urgent then 0 else 1, 3 - jPrio j.rec_, if j.aged then 0 else 1, j.remaining, j.order]

/-- Lexicographic order of ranks. -/
def rankBefore : List Nat → List Nat → Bool
  | [], _ => false
  | _ :: _, [] => false
  | a :: s, b :: t => if a < b then true else if b < a then false else rankBefore s t

/-- Another long job may be held (R306). -/
def State.longRoom (s : State) : Bool := decide (s.longCores + fld s.pkeCfg 0 4 < s.coresOn)

/-- A queued job may be dispatched to a core: the slot operations KEY_WIPE and KEY_PUBLIC need none. -/
def State.mayDispatch (s : State) (j : PkeJob) : Bool :=
  decide (jOp j.rec_ ≠ 0x12) && decide (jOp j.rec_ ≠ 0x13) && (!(jLong j.rec_) || s.longRoom)

/-- The head of the queue. -/
def State.queueHead (s : State) : Option PkeJob :=
  (s.pke.queue.filter s.mayDispatch).foldl (fun b j => match b with
    | none => some j
    | some x => if rankBefore j.rank x.rank then some j else some x) none

/-- A job leaves the queue for a core with its copy of the slot key (R316): one whose slot is not fit any more ends at once. -/
def State.takeJob (s : State) (j : PkeJob) : Option PkeJob × State :=
  let r := j.rec_
  let t := s.setQueuePke (fun q => q.filter (fun x => decide (x.order ≠ j.order)))
  let x := s.slot (jSlot r)
  if opFills (jOp r) then
    (if x.state ≠ 0 then (none, t.finishJob j 0x0C 0 [] 0xFF 0)
     else if jOp r = 0x10 then
       (some j, t.setSlot (jSlot r) { KeySlot.empty with state := 1, alg := jAlg r, usage := jUsage r, nwords := jNwords r })
     else (some j, t))
  else if jInline r then (some j, t)
  else if x.state ≠ 2 then (none, t.finishJob j 7 0 [] 0xFF 0)
  else if keyFits r x = false then (none, t.finishJob j 0x43 0 [] 0xFF 0)
  else (some { j with key := some x }, t)

/-- A queued job starts on a core. -/
def State.startJob (s : State) (c : Nat) (j : PkeJob) (delay : Nat) : State :=
  match s.takeJob j with
  | (none, t) => t
  | (some x, t) => t.setCore c (fun y => { y with running := some x, startedAt := t.ts.cycles + delay })

/-- AGE_MS has passed. -/
def State.ageDue (s : State) (j : PkeJob) : Bool := decide (j.waitSince + fld s.pkeCfg 8 10 * 1000000 * 2 ^ 48 < s.ts.meas)

/-- PKE_JOB_AGED (R308): every job that has waited longer than AGE_MS is aged. -/
def State.ageJobs (s : State) : State :=
  let age : PkeJob → PkeJob := fun j => if s.ageDue j then { j with aged := true } else j
  { s with pke := { s.pke with
      queue := s.pke.queue.map age
      cores := s.pke.cores.map (fun (x : PkeCore) => { x with saved := x.saved.map age }) } }

/-- PKE_DISPATCH (R305, R307, R308): a free core takes the queue's head or its most recently saved job. -/
def State.dispatch (s : State) (c : Nat) : State :=
  let s := s.ageJobs
  let x := s.core c
  if s.coreOn c = false ∨ x.running.isSome then s
  else
    match s.queueHead, x.saved with
    | none, [] => s
    | some h, [] => s.startJob c h 0
    | none, v :: rest => s.setCore c (fun _ => ⟨some v, s.ts.cycles + 256, rest⟩)
    | some h, v :: rest => if rankBefore h.rank v.rank then s.startJob c h 0 else s.setCore c (fun _ => ⟨some v, s.ts.cycles + 256, rest⟩)

/-- Cycles of the present run. -/
def State.runCycles (s : State) (c : Nat) : Nat := s.ts.cycles - (s.core c).startedAt

/-- The running job yields to the head (R307). -/
def mayYield (h j : PkeJob) (left saved : Nat) : Bool :=
  let pr : PkeJob → Nat := fun x => if x.urgent then 4 else jPrio x.rec_
  (decide (pr j < pr h) || (decide (pr j = pr h) && decide (h.total < left))) &&
  decide (saved < (if h.urgent then 5 else 4)) && (!j.aged || h.urgent)

/-- PKE_YIELD (R307, R308): at a boundary a short job saves its state and the head of the queue takes the core. -/
def State.yieldJob (s : State) (c : Nat) : State :=
  let s := s.ageJobs
  match (s.core c).running, s.queueHead with
  | some j, some h =>
    let spent := j.spent + s.runCycles c
    if jLong j.rec_ = false ∧ jOp j.rec_ ≠ 0x11 ∧ j.result.isNone ∧ jLong h.rec_ = false ∧
        mayYield h j (j.total - spent) (s.core c).saved.length = true then
      let t := s.count (A.pkeCoreCycles c) (s.runCycles c)
      let saved : PkeJob := { j with spent := spent, yields := j.yields + 1, waitSince := s.ts.meas }
      ((t.setCore c (fun x => { x with running := none, saved := saved :: x.saved })).inc A.pkeYields).startJob c h 256
    else s
  | _, _ => s

/-- CYCLES of a core up to now: the cycles of the present run are counted and charged to its job. -/
def State.settleCycles (s : State) (c : Nat) : State :=
  match (s.core c).running with
  | none => s
  | some j => (s.count (A.pkeCoreCycles c) (s.runCycles c)).setCore c (fun x => { x with
      running := some { j with spent := j.spent + s.runCycles c }, startedAt := max x.startedAt s.ts.cycles })

/-! ### The completion point, abort and fence (R309 to R311) -/

/-- What a completed KEYGEN or KEY_IMPORT leaves in its slot, with its journal record. -/
def State.fillSlot (s : State) (j : PkeJob) (status : Nat) (priv : Bytes) : State :=
  let r := j.rec_
  let k := jSlot r
  let alg := jAlg r
  let w := jNwords r
  let t := if status = 0 then
      let x : KeySlot := ⟨2, alg, jUsage r, decide (jOp r = 0x11), w, priv, publicOf alg w priv⟩
      let u := (s.setSlot k x).raise A.pkeEvent 0
      if (jUsage r).testBit 4 then u.saveKeys else u
    else if jOp r = 0x10 then s.setSlot k KeySlot.empty else s
  t.journalKeyOp r alg (jUsage r) status

/-- The core is wiped and free. -/
def State.wipeCore (s : State) (c : Nat) : State :=
  ((s.count (A.pkeCoreCycles c) (s.runCycles c)).inc (A.pkeCoreWipes c)).setCore c (fun x => { x with running := none })

/-- PKE_JOB_COMPLETE (R309): the running job of core `c` has its result and its cycles. `wiped` says whether the read-back found
only zeros; if not, the job ends with WIPE_FAIL. The job that ended is returned with its status and output. -/
def State.completeJob (s : State) (c : Nat) (wiped : Bool) : Option (PkeJob × Nat × Bytes) × State :=
  match (s.core c).running with
  | none => (none, s)
  | some j =>
    match j.result with
    | none => (none, s)
    | some (st, d, out) =>
      let spent := j.spent + s.runCycles c
      if spent < j.dueCycles then (none, s)
      else
        let status := if wiped then st else 0x42
        let fills := opFills (jOp j.rec_)
        let t := (s.wipeCore c).inc (A.pkeCoreJobs c)
        let t := if fills then t.fillSlot j status out else t
        let shown := if fills then (if status = 0 ∧ jOutLen j.rec_ ≠ 0 then publicOf (jAlg j.rec_) (jNwords j.rec_) out else []) else out
        let cyc := if fixedTotal j.rec_ then j.dueCycles else spent
        (some (j, status, out), t.finishJob j status d (if status = 0 then shown else []) c cyc)

/-- A job ends before its completion point, with ABORTED or FENCED: an aborted KEYGEN returns its slot to EMPTY. -/
def State.stopJob (s : State) (j : PkeJob) (status core cycles : Nat) : State :=
  let t := if opFills (jOp j.rec_) ∧ core ≠ 0xFF then s.fillSlot j status [] else s
  t.finishJob j status 0 [] core cycles

/-- Every job of a test that a core holds, running or saved, ends. -/
def State.stopCore (s : State) (c status : Nat) (p : PkeJob → Bool) : State :=
  let x := s.core c
  let t := match x.running with
    | some j => if p j then (s.wipeCore c).stopJob j status c (j.spent + s.runCycles c) else s
    | none => s
  let hit := x.saved.filter p
  let t := if hit = [] then t else t.setCore c (fun y => { y with saved := y.saved.filter (fun j => !(p j)) })
  t.each hit (fun j u => u.stopJob j status c j.spent)

/-- The jobs of a test: how many. -/
def State.countJobs (s : State) (p : PkeJob → Bool) : Nat :=
  (s.pke.queue.filter p).length + (s.pke.cores.map (fun x => (x.saved.filter p).length + b2n (x.running.any p))).sum

/-- Ending every job of a test with ABORTED (R310). -/
def State.abortJobs (s : State) (p : PkeJob → Bool) : State :=
  let t := s.setQueuePke (fun q => q.filter (fun j => !(p j)))
  let t := t.each (s.pke.queue.filter p) (fun j u => u.stopJob j 1 0xFF 0)
  t.each (List.range 16) (fun c u => u.stopCore c 1 p)

/-- PKE_ABORT (R310). -/
def State.abortTag (s : State) (tag : Nat) : State :=
  let p : PkeJob → Bool := fun j => decide (jTag j.rec_ = tag) && j.ring.isSome
  if tag = 0 ∨ s.countJobs p = 0 then (s.inc A.pkeAbortMiss).raise A.pkeEvent 8 else s.abortJobs p

/-- A core is fenced (R311): its jobs end with FENCED. -/
def State.fenceCore (s : State) (c : Nat) : State :=
  let t := s.stopCore c 6 (fun _ => true)
  ((t.setBit A.pkeStatus c false).showCore c).raise A.pkeEvent 3

/-- A core is returned (R396). -/
def State.returnCore (s : State) (c : Nat) : State := (s.setBit A.pkeStatus c true).showCore c

/-! ### Slot operations without a core (R316) -/

/-- The first queued job of an operation, in the order of R305. -/
def State.slotJob (s : State) (op : Nat) : Option PkeJob :=
  (s.pke.queue.filter (fun j => decide (jOp j.rec_ = op))).foldl (fun b j => match b with
    | none => some j
    | some x => if rankBefore j.rank x.rank then some j else some x) none

/-- KEY_WIPE: the slot is EMPTY, a KEYGEN into it is aborted, the flash copy is overwritten. -/
def State.keyWipe (s : State) : State :=
  match s.slotJob 0x12 with
  | none => s
  | some j =>
    let k := jSlot j.rec_
    let x := s.slot k
    let t := s.setQueuePke (fun q => q.filter (fun y => decide (y.order ≠ j.order)))
    let t := if x.state = 1 then t.abortJobs (fun y => decide (jOp y.rec_ = 0x10) && decide (jSlot y.rec_ = k) && y.ring.isSome) else t
    let t := if x.state = 0 then t else ((t.setSlot k KeySlot.empty).saveKeys).raise A.pkeEvent 0
    (t.journalKeyOp j.rec_ x.alg x.usage 0).finishJob j 0 0 [] 0xFF 0

/-- KEY_PUBLIC: the slot's public key. -/
def State.keyPublic (s : State) : State :=
  match s.slotJob 0x13 with
  | none => s
  | some j =>
    let x := s.slot (jSlot j.rec_)
    let t := s.setQueuePke (fun q => q.filter (fun y => decide (y.order ≠ j.order)))
    if x.state ≠ 2 then t.finishJob j 7 0 [] 0xFF 0 else t.finishJob j 0 0 x.pub 0xFF 0

/-- KEYGEN_PROGRESS (R314): an RSA KEYGEN on core `c` is in a phase with so many candidates tested; its record is written at a change
of phase and every 100 ms. -/
def State.keygenProgress (s : State) (c phase tested : Nat) : State :=
  match (s.core c).running with
  | none => s
  | some j =>
    let r := j.rec_
    if jOp r ≠ 0x10 ∨ jAlg r ≠ 0x21 ∨ j.result.isSome ∨ phase = 0 ∨ phase < j.phase ∨ 3 < phase ∨
        (phase = j.phase ∧ s.ts.meas < j.progAt + 100 * 1000000 * 2 ^ 48) then s
    else
      let e := ceilDiv (32 * jNwords r) 14
      let part := min 4499 (4500 * tested / e)
      let p := if phase = 1 then part else if phase = 2 then 4500 + part else 9000
      let x : PkeJob := { j with progSeq := j.progSeq + 1, phase := phase, progAt := s.ts.meas }
      let t := s.setCore c (fun y => { y with running := some x })
      let live := match j.ring with
        | some (n, _) => s.ringLive n && s.hif.attached
        | none => false
      if jProg r ≠ 0 ∧ live = true then t.progressRecord (jProg r) x.progSeq phase 0xFF p 0 0 3 (jTag r) else t

/-! ### The TRNG (R318 to R320) -/

/-- The state of noise source `i`: 0 TESTING, 1 HEALTHY, 2 FAILED, 3 FENCED. -/
def State.srcState (s : State) (i : Nat) : Nat := s.f A.pkeTrngSrc (2 * i) 2

/-- The HEALTHY sources. -/
def State.healthy (s : State) : List Nat := indices 8 (fun i => decide (s.srcState i = 1))

/-- Full-entropy blocks since the last count: one sample of each healthy source every ten cycles, 1,024 samples a block. What a
begun block holds of each source stands beside it; its last samples are those of the lower sources. -/
def State.countSeeds (s : State) : State :=
  let h := s.healthy
  let k := (s.ts.cycles - s.pke.sampledAt) / 10
  let n := s.pke.samples.sum + h.length * k
  let left := n % 1024
  let l := if n < 1024 then (List.range 8).map (fun i => s.pke.samples.getD i 0 + (if h.contains i then k else 0))
    else (List.range 8).map (fun i => if h.contains i then left / h.length + b2n (decide (h.idxOf i < left % h.length)) else 0)
  ({ s with pke := { s.pke with samples := l, sampledAt := s.pke.sampledAt + 10 * k } }).count A.pkeSeeds (n / 1024)

/-- Full-entropy output is lost: every KEYGEN on a core, running or saved, that has not ended does so with NO_ENTROPY (R313). -/
def State.keygensStarve (s : State) : State :=
  let starves : PkeJob → Bool := fun j => decide (jOp j.rec_ = 0x10) && j.result.isNone
  let set : PkeJob → PkeJob := fun j => if starves j then { j with result := some (0x46, 0, []) } else j
  let n := (s.pke.cores.map (fun x => (x.saved.filter starves).length + b2n (x.running.any starves))).sum
  ({ s with pke := { s.pke with cores := s.pke.cores.map (fun (x : PkeCore) =>
      { x with running := x.running.map set, saved := x.saved.map set }) } }).count A.pkeFeDenied n

/-- HEALTHY and the TRNG's state follow its sources; FAIL is raised and journalled, and the return to OK raised. -/
def State.showTrng (s : State) : State :=
  let h := s.healthy.length
  let was := s.f A.pkeTrngStatus 0 2
  let st := if 0 < h then 1 else 2
  let t := (s.sfW A.pkeTrngStatus 0 2 st).sfW A.pkeTrngStatus 2 4 h
  if st = 2 ∧ was ≠ 2 then (t.keygensStarve.raise A.pkeEvent 4).journalize 0x0B .module A.pkeTrngStatus 0 (slice (Config.journalBody 0) 0 16)
  else if st = 1 ∧ was = 2 then t.raise A.pkeEvent 5 else t

/-- TRNG_SOURCE_FAIL (R319): a health test of source `i` failed, the repetition count or the adaptive proportion test; the third
failure within 3,600 s fences it. -/
def State.sourceFail (s : State) (i : Nat) (rct : Bool) : State :=
  let s := s.countSeeds
  if s.srcState i = 3 ∨ s.srcState i = 2 then s
  else
    let recent := (s.pke.srcFails.getD i []).filter (fun t => decide (s.ts.meas ≤ 3600 * 1000000000 * 2 ^ 48 + t))
    let fenced := decide (2 ≤ recent.length)
    let t := { s with pke := { s.pke with
      samples := modAt s.pke.samples i (fun _ => 0)
      srcFails := modAt s.pke.srcFails i (fun _ => s.ts.meas :: recent)
      srcRetest := modAt s.pke.srcRetest i (fun _ => if fenced then none else some (1000000000 * 2 ^ 48 + s.ts.meas)) } }
    ((t.sfW A.pkeTrngSrc (2 * i) 2 (if fenced then 3 else 2)).inc (if rct then A.pkeRctFail else A.pkeAptFail)).raise A.pkeEvent 6
      |>.showTrng

/-- TRNG_SOURCE_RETEST (R319): 1 s after its failure the source repeats the start-up test. -/
def State.sourceRetest (s : State) (i : Nat) (pass : Bool) : State :=
  match s.pke.srcRetest.getD i none with
  | none => s
  | some at_ =>
    if s.ts.meas < at_ then s
    else if pass then
      let t := s.countSeeds
      (({ t with pke := { t.pke with srcRetest := modAt t.pke.srcRetest i (fun _ => none) } }).sfW A.pkeTrngSrc (2 * i) 2 1).showTrng
    else
      { s with pke := { s.pke with srcRetest := modAt s.pke.srcRetest i (fun _ => some (1000000000 * 2 ^ 48 + s.ts.meas)) } }

/-! ### Group PKE_CFG (R321 to R323) -/

/-- The check of PKE_CFG. -/
def checkPkeCfg (w : Nat → Word) : Option Nat := firstReason [(!(rangesOk 24 w), 0x40)]

/-- FROZEN of PKE. -/
def State.pkeFrozen (s : State) : State := s.setBit A.pkeStatus 21 (decide ((s.group 24).parity ≠ []))

end Sys2Proof.Machine
end

