-- ==== Sys2Proof/Machine/Receipts.lean ====
section
/-!
DEFINITION. The receipt engine (R276 to R296): admission, windows, trees, sealing, release, online keys, Roughtime, and group
RCP_CFG.
-/

namespace Sys2Proof.Machine

/-- Changing the receipt engine. -/
def State.setRcp (s : State) (f : Rcp → Rcp) : State := { s with rcp := f s.rcp }

/-! ### Keys (R289, R290) -/

/-- RCP is in its parity safe state (R294). -/
def State.rcpSafe (s : State) : Bool := decide ((s.group 23).parity ≠ [])

/-- The long-term key: the READY Ed25519 slot marked for receipt use that LT_SLOT binds. -/
def State.ltKey (s : State) : Option KeySlot :=
  let x := s.slot (s.f A.rcpLtSlot 0 6)
  if s.bit A.rcpLtSlot 6 ∧ x.state = 2 ∧ x.alg = 1 ∧ x.usage.testBit 3 = true then some x else none

/-- Writing a byte string into consecutive words, byte 4w in [7:0]. -/
def State.wrBytes (s : State) (a n : Nat) (b : Bytes) : State :=
  s.each (List.range n) (fun w t => t.wr (a + 4 * w) (word (leAt b (4 * w) 4)))

/-- LT_KEY and LT_PUB. -/
def State.showLt (s : State) : State :=
  match s.ltKey with
  | some x => (s.setBit A.rcpStatus 1 true).wrBytes (A.rcpLtPub 0) 8 x.pub
  | none => (s.setBit A.rcpStatus 1 false).wrBytes (A.rcpLtPub 0) 8 []

/-- CAP (R277). -/
def State.rcpCap (s : State) : Nat :=
  let full := min 8192 (8192 * s.f A.rcpWindowUs 0 17 / 1000)
  let u := s.f A.rcpStatus 4 4
  if 2 ≤ u then full else if u = 1 then 3 * full / 4 else 0

/-- An online key is current; none is after its MAXT (R290). -/
def State.onlineKey (s : State) : Bool := s.rcp.online.any (fun k => decide (s.stamp ≤ k.maxt))

/-- The first condition of admission that fails (R278): the status of the refusal. -/
def State.admitCheck (s : State) : Option Nat :=
  if s.f A.rcpStatus 4 4 = 0 ∨ s.rcpSafe = true then some 0x06
  else if s.unserved then some 0x08
  else if s.onlineKey = false then some 0x07
  else if s.rcpCap ≤ s.rcp.leaves.length then some 0x41
  else none

/-- STATUS of RCP. -/
def State.showRcp (s : State) : State :=
  let t := (s.sfW A.rcpStatus 8 14 s.rcpCap).setBit A.rcpStatus 2 s.rcp.online.isSome
  (t.setBit A.rcpStatus 0 (s.admitCheck.isNone)).setBit A.rcpStatus 3 s.rcpSafe

/-- KEY_ID, ONLINE_PUB, CERT and the next rotation instant. -/
def State.showOnline (s : State) : State :=
  let t := match s.rcp.online with
    | some k => ((s.wr A.rcpKeyId (word k.id)).wrBytes (A.rcpOnlinePub 0) 8 k.pub).wrBytes (A.rcpCert 0) 32 k.cert
    | none => ((s.wr A.rcpKeyId 0).wrBytes (A.rcpOnlinePub 0) 8 []).wrBytes (A.rcpCert 0) 32 []
  ((t.wr A.rcpRotateLo (word s.rcp.rotateAt)).wr A.rcpRotateHi (word (s.rcp.rotateAt / 2 ^ 32 % 65536))).showRcp

/-- A context string with its 0x00 byte (R291). -/
def contextBytes (c : String) : Bytes := c.toUTF8.toList.map (fun x => byte x.toNat) ++ [0]

/-- The certificate of an online key (R290). -/
def certOf (lt : KeySlot) (pub : Bytes) (id mint maxt : Nat) : Bytes :=
  let d := pub ++ be 4 id ++ (sha512 lt.pub).take 4 ++ taiBe mint ++ taiBe maxt
  d ++ ed25519.sign lt.priv [] (contextBytes "ETXEL-DELEG-1" ++ d)

/-- The first rotation instant after an instant, in s. -/
def State.rotationAfter (s : State) (stamp : Nat) : Nat :=
  nextMultiple (stamp / 65536000000000) (s.f A.rcpOnlinePeriod 0 22)

/-- Making the next key (R290): it needs the long-term key, an active core and full-entropy output. The seed is a free value. -/
def State.prepareKey (s : State) : State :=
  if s.rcp.next.isSome then s
  else if s.ltKey.isSome ∧ 0 < s.coresOn ∧ s.entropyOk = true then
    let q := s.drawBytes 32
    q.2.setRcp (fun r => { r with next := some (q.1, ed25519.public q.1) })
  else if s.ltKey.isSome ∧ s.entropyOk = false then s.denyEntropy else s

/-- The next KEY_ID: the first is drawn, each later one is the previous plus 1, skipping 0. -/
def State.nextOnlineId (s : State) : Nat × State :=
  match s.rcp.lastId with
  | some i => (if (i + 1) % 2 ^ 32 = 0 then 1 else (i + 1) % 2 ^ 32, s)
  | none =>
    let q := s.draw
    (if q.1 % 2 ^ 32 = 0 then 1 else q.1 % 2 ^ 32, q.2)

/-- The key that was made becomes current at an instant, certified for MINT to MAXT; none where there is no such key. -/
def State.installKey (s : State) (mint : Nat) : Option State :=
  match s.rcp.next, s.ltKey with
  | some (seed, pub), some lt =>
    let i := s.nextOnlineId
    let rot := s.rotationAfter mint
    let maxt := (rot + s.f A.rcpOnlineGrace 0 16) * 65536000000000
    let deles := [8, 9, 10, 11, 12].map (fun v => (v, ed25519.sign lt.priv [] (Config.rtDele v pub mint maxt)))
    let k : OnlineKey := ⟨i.1, seed, pub, mint, maxt, certOf lt pub i.1 mint maxt, deles⟩
    some ((i.2.setRcp (fun r => { r with
      online := some k, next := none, lastId := some i.1, rotateAt := rot, rotateNow := false, deferred := false })).showOnline)
  | _, _ => none

/-- A key at start-up step 12, or when a long-term key first appears in the bound slot (R290). -/
def State.firstKey (s : State) : State :=
  let t := s.showLt
  if t.ltKey.isSome ∧ t.rcp.online.isNone then
    let u := t.prepareKey
    match u.installKey u.stamp with
    | some v => v
    | none => (u.setRcp (fun r => { r with deferred := true })).raise A.rcpEvent 3
  else t.showRcp

/-! ### Trees (R286, R292) -/

/-- One level up: pairs are joined, a last node without a partner is carried up. -/
def levelUp (node : Bytes → Bytes → Bytes) : List Bytes → List Bytes
  | a :: b :: t => node a b :: levelUp node t
  | l => l

/-- The root of a tree over at most 2^n leaves. -/
def rootOf (node : Bytes → Bytes → Bytes) : Nat → List Bytes → Bytes
  | 0, l => l.headD []
  | n + 1, l => match l with
    | [] => []
    | [x] => x
    | _ => rootOf node n (levelUp node l)

/-- The path of a leaf: its siblings, lowest level first; a level where it has none gives no entry. -/
def pathOf (node : Bytes → Bytes → Bytes) : Nat → List Bytes → Nat → List Bytes
  | 0, _, _ => []
  | n + 1, l, i =>
    if l.length ≤ 1 then []
    else
      let sib := if i % 2 = 1 then l[i - 1]? else l[i + 1]?
      sib.toList ++ pathOf node n (levelUp node l) (i / 2)

/-- An Etxel node. -/
def etxelNode (l r : Bytes) : Bytes := h32 (1 :: (l ++ r))

/-- An Etxel leaf: T_RX in 2^-16 ns and the request's payload. -/
def etxelLeaf (tRx : Nat) (d : Bytes) : Bytes :=
  let n := beAt d 6 1
  h32 (0 :: (taiBe tRx ++ [byte n] ++ slice d 28 n ++ slice d 12 16))

/-- The node function of a tree: 0 Etxel, else a Roughtime revision. -/
def nodeFn (tree : Nat) : Bytes → Bytes → Bytes := if tree = 0 then etxelNode else Config.rtNode tree

/-- The leaves of one tree, in order of admission. -/
def treeLeaves (tree : Nat) (l : List Leaf) : List Leaf := l.filter (fun x => decide (x.tree = tree))

/-! ### Admission (R278, R280, R283 to R285, R292) -/

/-- A refusal of an Etxel request (R285). -/
def refusalBytes (r : Request) (status : Nat) : Bytes :=
  be 4 0x4554584C ++ [1, 2, byte status, 0] ++ slice (packetOf r.frame.data).udp 8 4 ++ zeros 16

/-- The counter of a refusal. -/
def refusalCounter (status : Nat) : Nat :=
  if status = 0x07 then A.rcpKeyRefused else if status = 0x08 then A.rcpUnsync else A.rcpWindowFull

/-- A request becomes a leaf of a tree of the open window; its t_rx lies in the timescale of the window (R280). -/
def State.admitLeaf (s : State) (r : Request) (tree : Nat) : State :=
  let t := if r.steps ≠ s.ports.steps then s.inc (A.svpPipeStepAdj r.pipe) else s
  let at_ := stampOfPs (s.rxNow r)
  let d := (packetOf r.frame.data).udp
  let r : Request := { r with adjusted := r.adjusted || decide (r.steps ≠ s.ports.steps) }
  let x : Leaf := ⟨r, at_, tree, if tree = 0 then etxelLeaf at_ d else Config.rtLeaf tree d⟩
  (t.setRcp (fun q => { q with leaves := x :: q.leaves })).showRcp

/-- ETXEL_REQUEST (R284, R285): the receipt request at the front of a pipeline's queue is charged, then admitted or refused. -/
def State.etxelRequest (s : State) (p : Nat) : State :=
  match s.popRequest p .etxel with
  | none => s
  | some (r, t) =>
    let r := t.noteTracked r
    let q := (t.inc (A.svpPipeSlots p)).charge r
    if q.2 = 2 then q.1.sampleDrop r 6 0
    else if q.2 = 1 then
      (let k := q.1.kodOk r
       if k.2 then k.1.sendFixed (r.outcome 2 0) (refusalBytes r 0x40) else k.1.sampleDrop r 6 0)
    else match q.1.admitCheck with
      | some st => (q.1.inc (refusalCounter st)).sendFixed (r.outcome 4 st) (refusalBytes r st)
      | none => q.1.admitLeaf r 0

/-- ROUGHTIME_REQUEST (R292): charged, then admitted to its revision's tree; what an Etxel request would be refused for drops it. -/
def State.roughtimeRequest (s : State) (p : Nat) : State :=
  match s.popRequest p .roughtime with
  | none => s
  | some (r, t) =>
    let r := t.noteTracked r
    let q := (t.inc (A.svpPipeSlots p)).charge r
    if q.2 = 2 then q.1.sampleDrop r 6 0
    else if q.2 = 1 then (q.1.kodOk r).1.sampleDrop r 6 0
    else match q.1.admitCheck with
      | some st => (q.1.inc (refusalCounter st)).sampleUnlisted r st
      | none =>
        let rev := (rtRequest (packetOf r.frame.data).udp).bind (fun x => rtRevision x.1)
        q.1.admitLeaf r (rev.getD 8)

/-! ### Closing and sealing (R279, R281, R287, R288, R293) -/

/-- The window record (R288). -/
def State.windowRecord (s : State) (n close tClose rho keyId : Nat) (root : Bytes) : Bytes :=
  [1, byte (s.tscMode + 8 * close)] ++ be 2 n ++ be 8 (s.rd64 A.ptpClockIdLo) ++ be 8 s.rcp.number ++ taiBe tClose ++ be 4 rho ++ be 4 keyId ++ root

/-- The signed bytes of a Roughtime tree: the midpoint of its leaves in UTC and half their span with the radius (R292). -/
def State.rtSignedOf (s : State) (tree : Nat) (l : List Leaf) (root : Bytes) (rho : Nat) : Bytes :=
  let lo := l.foldl (fun m x => min m x.tRx) ((l.head?.map (fun x => x.tRx)).getD 0)
  let hi := l.foldl (fun m x => max m x.tRx) 0
  let utc : Int := s.utcOffset (((lo + hi) / 2) / 65536000000000)
  Config.rtSigned tree root (((lo + hi : Nat) : Int) - 2 * utc * 65536000000000) (hi - lo) rho

/-- The signature that a tree of the closing window needs. -/
def State.treeSig (s : State) (tree close tClose rho keyId : Nat) (leaves : List Leaf) : TreeSig :=
  let l := treeLeaves tree leaves
  let root := rootOf (nodeFn tree) 14 (l.map (fun x => x.hash))
  let record := s.windowRecord l.length close tClose rho keyId (slice root 0 32)
  ⟨tree, record, if tree = 0 then contextBytes "ETXEL-WINDOW-1" ++ record else s.rtSignedOf tree l root rho, none⟩

/-- The job record of a window signature: Ed25519 with an inline key, the highest priority. -/
def sealRecord (n : Nat) : Bytes := [1, 0, 3, 0xFF, 4, 0, 0, 0] ++ zeros 8 ++ le 4 n ++ le 4 64 ++ zeros 40

/-- Submitting the signature of a tree to the public-key engine (R281, R305). -/
def State.submitSeal (s : State) (number : Nat) (seed : Bytes) (x : TreeSig) : State :=
  let input := seed ++ x.signed
  s.queueJob (s.newJob none 0 (sealRecord input.length) input true (some (number, x.tree)))

/-- Rotation at a window close (R290): the key that was made becomes current, or the rotation is deferred. -/
def State.rotateAtClose (s : State) (tClose : Nat) : State :=
  let due := s.rcp.rotateNow || s.rcp.deferred ||
    (decide (s.rcp.rotateAt * 65536000000000 ≤ tClose) && decide (s.rcp.rotateAt ≠ 0))
  if due = false ∨ s.rcpSafe = true ∨ (s.rcp.online.isNone ∧ s.ltKey.isNone) then s
  else
    let t := if s.rcp.deferred then s.prepareKey else s
    let old := match t.rcp.online with
      | some k => k.id
      | none => 0
    let src := if t.rcp.rotateNow then t.rcp.rotateSrc else .module
    match t.installKey tClose with
    | some u =>
      let u := (u.inc A.rcpRotations).raise A.rcpEvent 2
      u.journalKey src 1 0 A.rcpCmd old (u.f A.rcpKeyId 0 32)
    | none => (t.setRcp (fun r => { r with deferred := true })).raise A.rcpEvent 3

/-- WINDOW shows the open window's number. -/
def State.showWindow (s : State) : State := s.wr64 A.rcpWindowLo (s.rcp.number : Nat)

/-- What stands in a window whose key has expired: nothing is ever signed with it. -/
def OnlineKey.absent : OnlineKey := ⟨0, [], [], 0, 0, [], []⟩

/-- The open window closes at an instant, for a CLOSE reason (R279, R281): the next one opens. A window whose key has passed its
MAXT is not signed. -/
def State.closeWindow (s : State) (close tClose : Nat) : State :=
  let leaves := s.rcp.leaves.reverse
  let t := if close = 0 then s else (s.inc A.rcpEarlyClose).raise A.rcpEvent 0
  let t := if leaves = [] then t
    else
      let k := s.rcp.online.getD OnlineKey.absent
      let trees := ([0, 8, 9, 10, 11, 12].filter (fun v => leaves.any (fun x => decide (x.tree = v)))).map (fun v =>
        s.treeSig v close tClose s.rcp.rho k.id leaves)
      let u := t.setRcp (fun r => { r with closed := r.closed ++ [(⟨r.number, s.ts.meas, k, leaves, trees⟩ : ClosedWindow)] })
      if s.rcp.online.isNone ∨ k.maxt < tClose then u else u.each trees (fun x v => v.submitSeal s.rcp.number k.seed x)
  let t := t.setRcp (fun r => { r with number := (r.number + 1) % 2 ^ 64, leaves := [], rho := s.ts.rho })
  ((t.rotateAtClose tClose).showWindow).showRcp

/-- An instant at which no RCP_WINDOW firing has closed the window already: it does not lie on the grid (R279, R425). -/
def State.windowCloses (s : State) (atNs : Nat) : Bool :=
  s.ts.calendar.any (fun e => decide (e.2.action = 0x13) && decide (e.2.period ≠ 0) &&
    decide (e.2.atNs % e.2.period ≠ atNs % e.2.period))

/-- The preparation of a key at the firing of the entry (R290). -/
def State.prepareAt (s : State) (nowNs : Nat) : State :=
  if s.rcpSafe then s
  else if s.rcp.rotateNow ∨ s.rcp.deferred ∨ (s.rcp.rotateAt ≠ 0 ∧ s.rcp.rotateAt * 1000000000 ≤ 10000000000 + nowNs) then s.prepareKey
  else s

/-- The radius of the open window follows the reported radius (R278). -/
def State.rcpRadius (s : State) : State := s.setRcp (fun r => { r with rho := max r.rho s.ts.rho })

/-- A signature that a core has made reaches its window. -/
def State.sealSignature (s : State) (j : PkeJob) (status : Nat) (sig : Bytes) : State :=
  match j.tree with
  | none => s
  | some (n, v) =>
    if status ≠ 0 then s
    else s.setRcp (fun r => { r with closed := r.closed.map (fun (w : ClosedWindow) =>
      if w.number = n then { w with trees := w.trees.map (fun (x : TreeSig) =>
        if x.tree = v then { x with done := some (sig, s.ts.meas) } else x) } else w) })

/-- The payload of an Etxel receipt (R287). -/
def receiptBytes (k : OnlineKey) (x : TreeSig) (sig : Bytes) (l : Leaf) (index : Nat) (path : List Bytes) : Bytes :=
  let d := (packetOf l.req.frame.data).udp
  let cert := (beAt d 7 1).testBit 0
  be 4 0x4554584C ++ [1, 2, 0, byte (b2n cert)] ++ slice d 8 4 ++ taiBe l.tRx ++ be 2 index ++ [byte path.length, 0] ++ x.record ++ sig ++
  path.flatten ++ (if cert then k.cert else [])

/-- The responses of one tree, in order of admission. -/
def treeReleases (w : ClosedWindow) (x : TreeSig) (sig : Bytes) : List Release :=
  let l := treeLeaves x.tree w.leaves
  let hs := l.map (fun y => y.hash)
  (List.range l.length).filterMap (fun i => (l[i]?).map (fun y =>
    let path := pathOf (nodeFn x.tree) 14 hs i
    let r : Request := { y.req with sample := y.req.sample.map (fun (g : SampleTag) => { g with radius := beAt x.record 32 4 }) }
    (⟨r, if x.tree = 0 then receiptBytes w.key x sig y i path
      else Config.rtResponse x.tree (packetOf y.req.frame.data).udp x.signed sig w.key.pub w.key.mint w.key.maxt
        ((w.key.deles.find? (fun e => decide (e.1 = x.tree))).map Prod.snd |>.getD []) i path,
      if x.tree = 0 then 0 else 1⟩ : Release)))

/-- A response enters the release queue, or is dropped (R282). -/
def State.queueRelease (s : State) (x : Release) : State :=
  if s.rcp.queue.length < 32768 then s.setRcp (fun r => { r with queue := r.queue ++ [x] })
  else ((s.inc A.rcpReleaseDrop).raise A.rcpEvent 5).sampleDrop x.req 9 4

/-- A window log record (R293). -/
def State.logWindow (s : State) (w : ClosedWindow) (x : TreeSig) (sig : Bytes) (doneAt : Nat) : State :=
  if s.bit A.rcpLogCfg 0 then
    let d := le 2 144 ++ [5, byte x.tree] ++ le 4 ((doneAt - w.closedAt) / 2 ^ 48) ++ x.record ++ sig
    let q := s.recordOrDrop (s.f A.rcpLogCfg 8 8) 3 d
    if q.2 then q.1 else (q.1.inc A.rcpLogDrop).raise A.rcpEvent 6
  else s

/-- The responses of a window in order of admission over all its trees. -/
def windowReleases (w : ClosedWindow) : List Release :=
  let per : List (Nat × List Release) := w.trees.map (fun x => (x.tree, treeReleases w x ((x.done.getD ([], 0)).1)))
  (List.range w.leaves.length).filterMap (fun i => match w.leaves[i]? with
    | none => none
    | some l =>
      let k := (treeLeaves l.tree (w.leaves.take i)).length
      (per.find? (fun e => decide (e.1 = l.tree))).bind (fun e => e.2[k]?))

/-- SEAL_DONE (R281): the oldest window whose signatures are all complete is sealed. -/
def State.sealDone (s : State) : State :=
  match s.rcp.closed.find? (fun w => w.trees.all (fun x => x.done.isSome)) with
  | none => s
  | some w =>
    let t := (s.setRcp (fun r => { r with closed := r.closed.filter (fun y => decide (y.number ≠ w.number)) })).inc A.rcpWindows
    let t := t.each w.trees (fun x u => match x.done with
      | some (sig, at_) => u.logWindow w x sig at_
      | none => u)
    t.each (windowReleases w) (fun x u => u.queueRelease x)

/-- SEAL_TIMEOUT (R281): a window not signed 1 ms after its close is abandoned, and its Etxel leaves are refused at release. -/
def State.sealTimeout (s : State) : State :=
  match s.rcp.closed.find? (fun w => decide (1000000 * 2 ^ 48 + w.closedAt ≤ s.ts.meas) && !(w.trees.all (fun x => x.done.isSome))) with
  | none => s
  | some w =>
    let t := s.setRcp (fun r => { r with closed := r.closed.filter (fun y => decide (y.number ≠ w.number)) })
    let t := t.setQueuePke (fun q => q.filter (fun j => match j.tree with
      | some (n, _) => decide (n ≠ w.number)
      | none => true))
    let t := (t.inc A.rcpSealFail).raise A.rcpEvent 1
    let t := t.each (w.leaves.filter (fun l => decide (l.tree ≠ 0))) (fun l u => u.sampleUnlisted l.req 0x42)
    t.each (treeLeaves 0 w.leaves) (fun l u => u.queueRelease ⟨l.req.outcome 4 0x42, refusalBytes l.req 0x42, 2⟩)

/-- RECEIPT_RELEASE (R282): the first response whose link's pace, on the measurement scale (R4), allows it is handed over. -/
def State.receiptRelease (s : State) : State :=
  match s.rcp.queue.find? (fun x => decide (s.rcp.paceAt.getD x.req.frame.sl 0 ≤ s.ts.meas)) with
  | none => s
  | some x =>
    let sl := x.req.frame.sl
    let n := wireLength (s.answerAddr x.req) x.payload.length
    let pct := max 1 (s.f A.rcpPace 0 7)
    let t := s.setRcp (fun r => { r with
      queue := r.queue.erase x
      paceAt := modAt r.paceAt sl (fun _ => s.ts.meas + ceilDiv (s.lineTime sl n * 100 * 2 ^ 48) (pct * 1000)) })
    let t := t.inc (A.svpPipeSlots x.req.pipe)
    let t := if x.kind = 0 then t.inc A.rcpEtxelOk else if x.kind = 1 then t.inc A.rcpRtOk else t
    let ns := (s.nowPs - s.sampleRx x.req) / 1000
    t.sendFixed { x.req with sample := x.req.sample.map (fun (g : SampleTag) => { g with latency := ns }) } x.payload

/-- ONLINE_KEY_EXPIRE (R290): a key is never used after its MAXT. -/
def State.onlineExpire (s : State) : State :=
  match s.rcp.online with
  | none => s
  | some k =>
    if k.maxt < s.stamp then
      ((s.setRcp (fun r => { r with online := none, deferred := true })).showOnline).raise A.rcpEvent 4
    else s

/-! ### RCP.CMD, LT_SLOT, steps, group RCP_CFG (R289 to R296) -/

/-- RCP.CMD accepts ROTATE_NOW alone. -/
def rcpCmdOk (v : Word) : Bool := decide (v = 1)

/-- ROTATE_NOW (R290): a key is made at once and rotates at the next window close. -/
def State.rotateNow (s : State) (src : Source) : State :=
  let t := s.setRcp (fun r => { r with rotateNow := true, rotateSrc := src })
  if t.rcpSafe then t else t.prepareKey

/-- LT_SLOT has latched a binding (R289). -/
def State.ltBound (s : State) : State :=
  let t := s.showSlot (s.f A.rcpLtSlot 0 6)
  t.firstKey

/-- The receipt entry of the calendar on the grid of W (R276, R295): the first multiple of W after an instant. -/
def State.armWindow (s : State) (afterNs : Nat) : State :=
  let w := s.f A.rcpWindowUs 0 17 * 1000
  s.calOwn (ownEntry 0x13 0 (nextMultiple afterNs w) w 0 0)

/-- An RCP_CFG application at a window close (R295). -/
def State.applyRcpCfg (s : State) (old : Nat → Word) (closeNs : Nat) : State :=
  let t := if old A.rcpWindowUs = s.rd A.rcpWindowUs then s else s.armWindow closeNs
  let t := if old A.rcpOnlinePeriod = t.rd A.rcpOnlinePeriod ∨ t.rcp.online.isNone then t
    else t.setRcp (fun r => { r with rotateAt := t.rotationAfter (closeNs * 65536) })
  t.showOnline

/-- The check of RCP_CFG (R296). -/
def checkRcpCfg (s : State) (w : Nat → Word) : Option Nat :=
  let e := fld (w A.rcpPorts) 0 16
  let r := fld (w A.rcpPorts) 16 16
  let n := fld (w A.rcpLogCfg) 8 8
  firstReason [
    (!(rangesOk 23 w), 0x40),
    (decide (e = r) || [0, 123, 319, 320, 4460].any (fun p => decide (e = p) || decide (r = p)), 0x41),
    (bitOf (w A.rcpLogCfg) 0 && !(decide (s.ringType n = 3) && decide (s.f (A.hifRingCfg n) 16 3 = 3)), 0x42),
    (decide (fld (w A.rcpOnlinePeriod) 0 22 ≤ fld (w A.rcpOnlineGrace) 0 16), 0x43)]

/-- A CONFIG_PARITY fault in an RCP word (R294). -/
def State.rcpParityFault (s : State) : State := (s.raise A.rcpEvent 7).showRcp

end Sys2Proof.Machine
end

