-- ==== Sys2Proof/Machine/Tallies.lean ====
section
/-!
DEFINITION. The tally engine (R492 to R499, R504 to R507): counter windows, the two banks, per-link bandwidth, and the checks
and safe states of its groups.
-/

namespace Sys2Proof.Machine

/-! ### The tally set (R493) -/

/-- The counters of the tally set in the order of their indices: ascending address. -/
def tallySet : List Nat :=
  (((allRows.flatMap RegRow.words).filter inTallySet).foldl (fun l a => CellList.insert a () l) []).map Prod.fst

/-- TAL_CFG as it acts (R505). -/
def State.talOn (s : State) : Bool := if (s.group 29).parity.contains A.talCfg then true else s.bit A.talCfg 0

/-- WINDOW_MS as it acts, in ns. -/
def State.talPeriod (s : State) : Nat :=
  1000000 * (if (s.group 29).parity.contains A.talWindowMs then 1000 else s.f A.talWindowMs 0 16)

/-- The running total of a counter. -/
def State.total (s : State) (a : Nat) : Nat := CellList.get (fun _ => 0) s.totals a

/-! ### Windows (R494 to R496) -/

/-- The totals of the whole tally set, as a bank. -/
def bankOf (f : Nat → Nat) : Cells Nat := tallySet.filterMap (fun a => if f a = 0 then none else some (a, f a))

/-- The tally of a counter at a close; 0 where its domain is off. -/
def State.tally (s : State) (a : Nat) : Nat :=
  if s.domainOn (domainOf a) then (s.total a + 2 ^ 64 - CellList.get (fun _ => 0) s.tal.openTotals a) % 2 ^ 64 else 0

/-- Line occupancy in whole Mbit/s and in 0.01 % of the line rate (R499). -/
def occupancy (octets frames durNs rate : Nat) : Nat × Nat :=
  let bits := (octets + 20 * frames) * 8
  if durNs = 0 then (0, 0) else (bits * 1000 / durNs, bits * 10 ^ 13 / (durNs * rate))

/-- BW_RX and BW_TX of a link from a window's tallies. -/
def State.showBandwidth (s : State) (dur sl : Nat) : State :=
  let t : Nat → Nat := fun a => CellList.get (fun _ => 0) s.tal.last a
  let rate := if s.macMode (sl / 4) = 1 then 100000000000 else 25000000000
  let w : Nat × Nat → Word := fun p => word (p.1 % 2 ^ 17 + 2 ^ 17 * (p.2 % 2 ^ 14))
  let rx := if s.linkExists sl then occupancy (t (A.macLinkRxOctets sl)) (t (A.macLinkRxFrames sl)) dur rate else (0, 0)
  let tx := if s.linkExists sl then occupancy (t (A.macLinkTxOctets sl)) (t (A.macLinkTxFrames sl)) dur rate else (0, 0)
  (s.wr (A.talBwRx sl) (w rx)).wr (A.talBwTx sl) (w tx)

/-- Opening a window at an instant in ns with a number. -/
def State.openWindow (s : State) (number atNs : Nat) : State :=
  s.setTal (fun t => { t with
    number := number % 2 ^ 32, openAt := s.ts.meas, openNs := atNs, stepped := false, openTotals := s.totals })

/-- The open window closes (R494, R495): the LAST bank and its header are written, and the next window opens. -/
def State.closeTally (s : State) (reset skipped : Bool) (atNs : Nat) : State :=
  let dur := (s.ts.meas - s.tal.openAt) / 2 ^ 48
  let t := s.setTal (fun x => { x with last := bankOf s.tally })
  let t := t.wr A.talWinNumber (word s.tal.number)
  let t := t.wrInstant A.talWinTCloseSecLo A.talWinTCloseSecHi A.talWinTCloseNs atNs
  let t := t.wr64 A.talWinDurLo (dur : Nat)
  let t := t.wr A.talWinInfo (word (b2n reset + 2 * b2n skipped + 4 * b2n s.tal.stepped))
  let t := t.wr A.talWinDomains (word (s.f A.pwrDomState 0 16))
  let t := t.each (List.range 8) (fun sl u => u.showBandwidth dur sl)
  let t := (t.sfW A.talTallySeq 0 8 (t.f A.talTallySeq 0 8 + 1)).inc A.talWindows
  (t.raise A.talEvent 0).openWindow (if reset then 0 else s.tal.number + 1) atNs

/-- The TAL_WINDOW entry on the grid of W (R494). -/
def State.armTally (s : State) (afterNs : Nat) : State :=
  if s.talOn then s.calOwn (ownEntry 0x14 0 (nextMultiple afterNs s.talPeriod) s.talPeriod 0 0) else s.calDrop 0x14 0

/-- STATUS.TALLY_ON and FROZEN (R505, R506). -/
def State.showTal (s : State) : State :=
  let t := s.setBit A.talStatus 0 s.talOn
  (t.setBit A.talStatus 2 (decide ((s.group 29).parity ≠ []) || s.samplesFaulty)).showSampling

/-- A step applies in the open window (R495). -/
def State.talStepped (s : State) : State := s.setTal (fun t => { t with stepped := true })

/-- A SERVICE_RESET at an instant in ns (R496). -/
def State.talReset (s : State) (atNs : Nat) : State :=
  if s.talOn = false ∨ s.tal.openNs = atNs then s.setTal (fun t => { t with number := 0 })
  else s.closeTally true false atNs

/-- A SNAPSHOT at T (R497): the running totals into the SNAP bank. -/
def State.talSnapshot (s : State) (atNs : Nat) : State :=
  let t := s.setTal (fun x => { x with snap := bankOf s.total })
  let t := t.wrInstant A.talSnapTSecLo A.talSnapTSecHi A.talSnapTNs atNs
  (t.sfW A.talTallySeq 8 8 (t.f A.talTallySeq 8 8 + 1)).raise A.talEvent 1

/-! ### Reading the banks and samples (R498, R504) -/

/-- A write to TALLY_SEL (R498): the entry's value and address are latched. -/
def State.tallySelect (s : State) (v : Word) : State :=
  let t := s.wr A.talTallySel (cmValue (s.rd A.talTallySel) v)
  let i := t.f A.talTallySel 1 10
  match tallySet[i]? with
  | none => ((t.wr A.talTallyAddr 0).wr A.talTallyLo 0).wr A.talTallyHi 0
  | some a =>
    let x := CellList.get (fun _ => 0) (if t.bit A.talTallySel 0 then t.tal.snap else t.tal.last) a
    (t.wr A.talTallyAddr (word (a + 2 ^ 20 * b2n (pairRowOf a).isSome + 2 ^ 21))).wr64 A.talTallyLo (x : Nat)

/-- A write of an index to SAMPLE_INDEX (R504): the slot is copied. -/
def State.sampleSelect (s : State) (v : Word) : State :=
  let t := s.wr A.talSampleIndex (cmValue (s.rd A.talSampleIndex) v)
  let d := CellList.get (fun _ => zeros 512) t.tal.store (t.f A.talSampleIndex 0 12)
  t.each (List.range 128) (fun w u => u.wr (A.talSampleRead w) (word (leAt d (4 * w) 4)))

/-! ### Groups (R505 to R507) -/

/-- TAL_CFG applied at `atNs` (R506): enabling opens the first window there; a changed W starts its grid at that close. -/
def State.applyTalCfg (s : State) (old : Nat → Word) (atNs : Nat) : State :=
  let t := s.showTal
  let t := if bitOf (old A.talCfg) 0 = false ∧ t.talOn = true then t.openWindow t.tal.number atNs else t
  if old A.talCfg = t.rd A.talCfg ∧ old A.talWindowMs = t.rd A.talWindowMs then t else t.armTally atNs

/-- TAL_SAMPLE applied: the rate count and the limit count restart (R501). -/
def State.applyTalSample (s : State) : State := (s.setTal (fun t => { t with rateCount := 0, written := 0 })).showTal

/-- The check of TAL_CFG. -/
def checkTalCfg (w : Nat → Word) : Option Nat := firstReason [(!(rangesOk 29 w), 0x40)]

/-- The checks of TAL_SAMPLE. -/
def checkTalSample (w : Nat → Word) : Option Nat :=
  let plen := fld (w A.talSamplePlen) 0 8
  let c := (w (A.talSampleClient 0)).toNat * 2 ^ 96 + (w (A.talSampleClient 1)).toNat * 2 ^ 64 +
    (w (A.talSampleClient 2)).toNat * 2 ^ 32 + (w (A.talSampleClient 3)).toNat
  let cfg := w A.talSampleCfg
  firstReason [
    (!(rangesOk 30 w), 0x40),
    (decide (c % 2 ^ (128 - plen) ≠ 0), 0x41),
    (bitOf cfg 0 && (decide (fld cfg 1 4 = 0) || decide (fld cfg 5 4 = 0) || decide (fld cfg 16 8 = 0) ||
      (decide (w A.talSampleAddrLo = 0) && decide (w A.talSampleAddrHi = 0))), 0x42)]

/-- A parity fault in a TAL word (R505). -/
def State.talParityFault (s : State) (a : Nat) : State :=
  let t := (s.raise A.talEvent 4).showTal
  if groupOf a = some 29 then t.armTally t.nowNs else t

end Sys2Proof.Machine
end

