-- ==== Sys2Proof/Machine/CasOps.lean ====
section
/-!
DEFINITION. The cascade's global operations (R409, R410, R421 to R427, R432): requests, issuing at the ridge, forwarding, execution
at T, and the gathering of results.
-/

namespace Sys2Proof.Machine

/-! ### Results (R410, R426) -/

/-- A result that adds nothing. -/
def OpResult.zero : OpResult := ⟨0, 0, 0, 0, 0, none⟩

/-- A signed 64-bit sum that saturates. -/
def satSum (x : Int) : Int := clamp (-(2 ^ 63)) (2 ^ 63 - 1) x

/-- Two results as one: counts add, SUM adds with saturation, MIN and MAX combine. -/
def OpResult.add (a b : OpResult) : OpResult :=
  { ok := a.ok + b.ok, late := a.late + b.late, unaligned := a.unaligned + b.unaligned, missing := a.missing + b.missing
    sum := satSum (a.sum + b.sum)
    range := match a.range, b.range with
      | some x, some y => some (min x.1 y.1, max x.2 y.2)
      | some x, none => some x
      | none, y => y }

/-- MIN and MAX as a frame or register carries them; without a VALUE they are free values. -/
def OpResult.min (r : OpResult) : Int := (r.range.map Prod.fst).getD Config.emptyMin
def OpResult.max (r : OpResult) : Int := (r.range.map Prod.snd).getD Config.emptyMax

/-- The body of a RESULT or DONE. -/
def resultBody (id op status : Nat) (r : OpResult) (requester tag : Nat) : Bytes :=
  be 4 id ++ [byte op, byte status, 0, 0] ++ be 4 r.ok ++ be 4 r.late ++ be 4 r.unaligned ++ be 4 r.missing ++
  be 8 (unsigned r.sum 64) ++ be 8 (unsigned r.min 64) ++ be 8 (unsigned r.max 64) ++ be 8 requester ++ be 4 tag ++ zeros 4

/-- A result as a payload carries it; it holds a MIN and MAX where a module executed. -/
def resultOf (d : Bytes) : OpResult :=
  let ok := beAt d 32 4
  let un := beAt d 40 4
  ⟨ok, beAt d 36 4, un, beAt d 44 4, signed (beAt d 48 8) 64,
    if ok + un = 0 then none else some (signed (beAt d 56 8) 64, signed (beAt d 64 8) 64)⟩

/-- Sending a RESULT (4) or DONE (5). -/
def State.sendResult (s : State) (l type id op status : Nat) (r : OpResult) (requester tag : Nat) : State :=
  s.sendPeorel l type 88 (resultBody id op status r requester tag)

/-! ### OP_RESULT (R427, R431) -/

/-- Updating OP_RESULT; only word 0 shows at once, the others wait for the latching read. -/
def State.putResult (s : State) (id op status : Nat) (rest : List Word) : State :=
  let seq := (fld (s.cas.result.getD 1 0) 16 8 + 1) % 256
  let w := [word id, word (op + 256 * status + 65536 * seq)] ++ rest
  ((s.setCas (fun c => { c with result := w, req := none })).wr (A.casOpResult 0) (word id)).setBit A.casStatus 19 false |>.raise A.casEvent 5

/-- Words 2 to 11 of a result. -/
def OpResult.words (r : OpResult) : List Word :=
  [word r.ok, word r.late, word r.unaligned, word r.missing] ++
  [r.sum, r.min, r.max].flatMap (fun x => [word (unsigned x 64), word (unsigned x 64 / 2 ^ 32)])

/-- OP_RESULT0_READ (R431): words 1 to 11 are latched. -/
def State.latchResult (s : State) : State :=
  s.each (List.range 12) (fun i t => t.wr (A.casOpResult i) (s.cas.result.getD i 0))

/-- A DONE reaches this module: its own request's outcome. -/
def State.doneHere (s : State) (id op status : Nat) (r : OpResult) (requester tag : Nat) : State :=
  if requester ≠ s.serial then s
  else
    let keep := s.cas.req.filter (fun q => decide (q.tag ≠ tag))
    let t := s.putResult id op status r.words
    (t.setCas (fun c => { c with req := keep })).setBit A.casStatus 19 keep.isSome

/-- A DONE goes down the tree. -/
def State.floodDone (s : State) (id op status : Nat) (r : OpResult) (requester tag : Nat) : State :=
  (s.each s.downLanes (fun l t => t.sendResult l 5 id op status r requester tag)).doneHere id op status r requester tag

/-! ### Holding operations (R423) -/

/-- The operations outstanding at the ridge (R422). -/
def State.showOutstanding (s : State) : State :=
  s.sfW A.casStatus 16 3 (min 4 (s.cas.ops.filter (fun o => o.issued && !o.sent)).length)

/-- Changing an operation. -/
def State.setOp (s : State) (id : Nat) (f : CasOp → CasOp) : State :=
  s.setCas (fun c => { c with ops := c.ops.map (fun o => if o.id = id then f o else o) })

/-- An own contribution to a result: 0 OK, 1 LATE, 2 UNALIGNED. -/
def ownResult (kind : Nat) (value : Int) : OpResult :=
  if kind = 0 then ⟨1, 0, 0, 0, value, some (value, value)⟩
  else if kind = 1 then ⟨0, 1, 0, 0, 0, none⟩ else ⟨0, 0, 1, 0, value, some (value, value)⟩

/-- The aggregate of an operation: children whose result did not come count with their last SUB_COUNT (R426). -/
def State.aggregate (s : State) (o : CasOp) : OpResult :=
  o.lanes.foldl (fun r l => match o.results.find? (fun x => decide (x.1 = l)) with
    | some x => r.add x.2
    | none => r.add ⟨0, 0, 0, (s.lane l).lastSub, 0, none⟩) (o.own.getD OpResult.zero)

/-- An operation's result leaves this module: DONE at the ridge, RESULT to the parent, nothing without one (R426, R427). -/
def State.reportOp (s : State) (o : CasOp) : State :=
  let r := s.aggregate o
  let t := (s.setOp o.id (fun x => { x with sent := true })).showOutstanding
  if t.position = 2 then t.floodDone o.id o.op 0 r o.requester o.tag
  else match t.upLane with
    | some l => t.sendResult l 4 o.id o.op 0 r o.requester o.tag
    | none => t

/-- The operations with an identifier. -/
def State.findOp (s : State) (id : Nat) : Option CasOp := s.cas.ops.find? (fun o => decide (o.id = id))

/-- Reporting an operation all of whose inputs have come. -/
def State.reportIfReady (s : State) (id : Nat) : State :=
  match s.findOp id with
  | some o => if o.sent = false ∧ o.own.isSome ∧ o.lanes.all (fun l => o.results.any (fun x => decide (x.1 = l))) then s.reportOp o else s
  | none => s

/-- A free one of the four entries for operations. -/
def State.freeOpSlot (s : State) : Option Nat :=
  [0, 1, 2, 3].find? (fun k => !(s.ts.calendar.any (fun e => decide (e.2.action = 0x17) && decide (e.2.arg = 1 + 256 * k))))

/-- An OP comes, or is issued here (R423): it goes down every DOWNSTREAM lane and gets its entry at T, or is LATE. -/
def State.holdOp (s : State) (o : CasOp) : State :=
  let lanes := s.downLanes
  let t := s.each lanes (fun l u => u.sendOp l 3 o)
  let slot := if 2000 + s.nowNs ≤ o.atNs then s.freeOpSlot else none
  let x : CasOp := { o with
    lanes := lanes, delay := s.f A.casSubDelay 0 32, slot := slot
    own := if slot.isSome then none else some (ownResult 1 0) }
  let t := t.setCas (fun c => { c with ops := c.ops ++ [x], seen := o.id :: c.seen, nextId := max c.nextId (o.id + 1) })
  let t := match slot with
    | some k => ((t.calNew (ownEntry 0x17 0 o.atNs 0 1 (1 + 256 * k))).2).raise A.casEvent 3
    | none => t.inc A.casOpsLate
  t.showOutstanding.reportIfReady o.id

/-! ### Requests (R422) -/

/-- CAS.MARGIN and GATHER in ns; a faulty word of CAS_CFG turns the cascade off, so that they act at their live values. -/
def State.casMargin (s : State) : Nat := s.f A.casMargin 0 17 * 1000
def State.casGather (s : State) : Nat := s.f A.casGather 0 14 * 1000

/-- The ridge issues a requested operation, or refuses it (R422). -/
def State.issueOp (s : State) (o : CasOp) : State :=
  let sub := s.f A.casSubDelay 0 32
  let refuse : Nat → State := fun st => (s.inc A.casOpsRefused).floodDone 0 o.op st OpResult.zero o.requester o.tag
  if o.atNs < s.nowNs + sub + s.casMargin then refuse 0x40
  else if 4 ≤ (s.cas.ops.filter (fun x => x.issued && !x.sent)).length then refuse 0x0C
  else
    let id := s.cas.nextId
    ((s.inc A.casOpsIssued).setCas (fun c => { c with req := c.req.map (fun (q : CasRequest) =>
      if o.requester = s.serial ∧ q.tag = o.tag then { q with bound := some sub } else q) })).holdOp
      { o with id := id, bound := sub, issued := true }

/-- A request goes towards the ridge. -/
def State.requestOp (s : State) (o : CasOp) : State :=
  if s.position = 2 then s.issueOp o
  else match s.upLane with
    | some l => s.sendOp l 2 o
    | none => s

/-- The data bytes of CAS_OP. -/
def State.opData (s : State) (n : Nat) : Bytes := ((List.range 64).flatMap (fun w => le 4 (s.rd (A.casOpData w)).toNat)).take n

/-- The T words of CAS_OP in ns. -/
def casT (w : Nat → Word) : Nat :=
  (fld (w A.casOpTSecHi) 0 16 * 2 ^ 32 + (w A.casOpTSecLo).toNat) * 1000000000 + fld (w A.casOpTNs) 0 30

/-- CAS_OP applied (R422): this module's own request. -/
def State.applyCasOp (s : State) : State :=
  let op := s.f A.casOpCmd 0 3
  if op = 0 then s.casFrozen
  else
    let tag := (s.rd A.casOpTag).toNat
    let t := s.casFrozen.setCas (fun c => { c with req := some ⟨op, casT s.rd, tag, s.ts.meas, none⟩ })
    (t.setBit A.casStatus 19 true).requestOp
      { id := 0, op := op, atNs := casT s.rd, requester := s.serial, tag := tag, bound := 0
        data := s.opData (s.f A.casOpCmd 16 9), slot := none, lanes := [], delay := 0, own := none, results := [], sent := false
        issued := false }

/-- The checks of CAS_OP (R432). -/
def checkCasOp (s : State) (w : Nat → Word) : Option Nat :=
  let op := fld (w A.casOpCmd) 0 3
  let dlen := fld (w A.casOpCmd) 16 9
  firstReason [
    (!(rangesOk 34 w) || decide (4 < op) || decide (256 < dlen) || decide (1000000000 ≤ fld (w A.casOpTNs) 0 30), 0x40),
    (decide (s.position ≤ 1), 0x43),
    (decide (dlen ≠ 0) && decide (op ≠ 2), 0x44),
    (decide (casT w < s.nowNs + s.casMargin), 0x45),
    (s.bit A.casStatus 19, 0x46)]

/-! ### Received operations (R422, R423, R426, R427) -/

/-- OP_REQ_RX (R422). -/
def State.opReqRx (s : State) (l : Nat) (frame : Bytes) : State :=
  match s.laneIntake l frame with
  | (none, t) => t
  | (some d, t) => if beAt d 1 1 = 2 ∧ t.casOn = true then t.requestOp (opOf d) else t

/-- OP_RX (R423): a repeated OP_ID is discarded. -/
def State.opRx (s : State) (l : Nat) (frame : Bytes) : State :=
  match s.laneIntake l frame with
  | (none, t) => t
  | (some d, t) =>
    if beAt d 1 1 ≠ 3 ∨ t.casOn = false ∨ t.cas.seen.contains (beAt d 24 4) then t
    else
      let o := opOf d
      (t.setCas (fun c => { c with req := c.req.map (fun (q : CasRequest) =>
        if o.requester = t.serial ∧ q.tag = o.tag then { q with bound := some o.bound } else q) })).holdOp o

/-- The deadline of an operation at this module, in ns (R426). -/
def State.opDeadline (s : State) (o : CasOp) : Nat := o.atNs + s.casGather + o.delay

/-- RESULT_RX (R426): a result from a lane not recorded, or after the deadline, is discarded. -/
def State.resultRx (s : State) (l : Nat) (frame : Bytes) : State :=
  match s.laneIntake l frame with
  | (none, t) => t
  | (some d, t) =>
    if beAt d 1 1 ≠ 4 ∨ t.casOn = false then t
    else
      let id := beAt d 24 4
      (t.setOp id (fun o => if o.lanes.contains l ∧ o.sent = false ∧ t.nowNs ≤ t.opDeadline o ∧ (o.results.any (fun x => decide (x.1 = l))) = false then
        { o with results := o.results ++ [(l, resultOf d)] } else o)).reportIfReady id

/-- DONE_RX (R427). -/
def State.doneRx (s : State) (l : Nat) (frame : Bytes) : State :=
  match s.laneIntake l frame with
  | (none, t) => t
  | (some d, t) =>
    if beAt d 1 1 ≠ 5 ∨ t.casOn = false then t
    else t.floodDone (beAt d 24 4) (beAt d 28 1) (beAt d 29 1) (resultOf d) (beAt d 72 8) (beAt d 80 4)

/-- RESULT_DEADLINE (R426): operations whose deadline has passed report with the missing children counted. -/
def State.resultDeadline (s : State) : State :=
  s.each (s.cas.ops.filter (fun o => !o.sent && o.own.isSome && decide (s.opDeadline o ≤ s.nowNs))) (fun o t => t.reportOp o)

/-- REQUEST_TIMEOUT (R427): the request's OP or DONE did not come in time. The words the manual does not state are free. -/
def State.requestTimeout (s : State) : State :=
  match s.cas.req with
  | none => s
  | some q =>
    let fail : Nat → State := fun st =>
      let d := s.drawBytes 44
      d.2.putResult (leAt d.1 0 4) q.op st ((List.range 10).map (fun i => word (leAt d.1 (4 + 4 * i) 4)))
    match q.bound with
    | some b => if q.atNs + s.casGather + 2 * b + 10000000 ≤ s.nowNs then fail 0x41 else s
    | none => if 10000000 * 2 ^ 48 + q.madeAt ≤ s.ts.meas then fail 0x42 else s

/-! ### Execution at T (R421, R424, R425) -/

/-- The order of operations that share one T: SNAPSHOT, BARRIER, BROADCAST, SERVICE_RESET (R424). -/
def opRank (op : Nat) : Nat := if op = 3 then 0 else if op = 1 then 1 else if op = 2 then 2 else 3

/-- The entry of an operation is due. -/
def State.opEntry (s : State) (o : CasOp) : Option (Nat × CalEntry) :=
  match o.slot with
  | none => none
  | some k => dueEntry s.ts.calendar s.nowNs (fun e => decide (e.action = 0x17) && decide (e.arg = 1 + 256 * k))

/-- The operation that executes next: least T, then the order of R424, then OP_ID. -/
def State.nextOp (s : State) : Option CasOp :=
  leastBy (fun (o : CasOp) => [o.atNs, opRank o.op, o.id]) (s.cas.ops.filter (fun o => o.own.isNone && (s.opEntry o).isSome))

/-- An operation executes: its entry fires, `act` is its action at the firing instant and `value` its VALUE at T. -/
def State.execOp (s : State) (op : Nat) (value : State → Int) (act : CasOp → Nat → State → State) : State :=
  match s.nextOp with
  | none => s
  | some o =>
    match s.opEntry o with
    | none => s
    | some (i, e) =>
      if o.op ≠ op then s
      else
        let t := s.fireEntry i e
        let skipped := e.skipAt.isSome
        let v := value t
        let kind := if skipped then 1 else if t.tscMode = 1 ∨ t.tscMode = 2 then 0 else 2
        let t := (act o (e.skipAt.getD e.atNs) t).setOp o.id (fun x => { x with slot := none, own := some (ownResult kind v) })
        let t := if skipped then t.inc A.casOpsLate else t
        ((t.inc A.casOpsExecuted).raise A.casEvent 4).reportIfReady o.id

/-- VALUE of most operations: the radius at T, in ps. -/
def State.rhoValue (s : State) : Int := (s.ts.rho : Nat)

/-- BARRIER. -/
def State.barrier (s : State) : State := s.execOp 1 State.rhoValue (fun _ _ t => t.raise A.casEvent 6)

/-- BROADCAST: DATA into CAS.BCAST0 to 63. -/
def State.broadcast (s : State) : State :=
  s.execOp 2 State.rhoValue (fun o _ t =>
    let u := t.each (List.range 64) (fun w v => v.wr (A.casBcast w) (word (leAt o.data (4 * w) 4)))
    ((u.wr A.casBcastInfo (word o.data.length)).wr A.casBcastId (word o.id)).raise A.casEvent 7)

/-- VALUE of a SNAPSHOT: the sum of the running totals of SVP ANSWERED. -/
def State.answeredValue (s : State) : Int := (((List.range 16).map (fun p => s.total (A.svpPipeAnswered p))).sum : Nat)

/-- SNAPSHOT (R421, R497). -/
def State.casSnapshot (s : State) : State :=
  s.execOp 3 State.answeredValue (fun _ at_ t => ((t.snapshot).talSnapshot at_).raise A.casEvent 8)

/-- The blocks whose counters a SERVICE_RESET clears: MAC0, MAC1, HRC, SVP, NTS, PTP, RCP (R425). -/
def resetBlocks : List Nat := [11, 12, 14, 15, 16, 17, 18]

/-- Clearing every CR counter of the service blocks; the running totals stay (R425, R492). -/
def State.clearCounters (s : State) : State :=
  let l := (allRows.filter (fun r => decide (r.kind = .cr))).flatMap (fun r => r.words.map (fun a => (a, r.pair)))
  let t := s.each (l.filter (fun e => resetBlocks.contains (blockOf e.1))) (fun e t =>
    if e.2 then (t.wr e.1 0).wr (e.1 + 4) 0 else t.wr e.1 0)
  { t with sources := t.sources.map (fun (v : SourceView) =>
      { v with stolen := v.stolen ||| resetBlocks.foldl (fun n b => n + 2 ^ b) 0 }) }

/-- The receipt window at a SERVICE_RESET (R425): it closes with CLOSE 3 unless a close at T came first, and numbering restarts. -/
def State.rcpServiceReset (s : State) (atNs : Nat) : State :=
  let t := if s.windowCloses atNs then s.closeWindow 3 (atNs * 65536) else s
  (t.setRcp (fun r => { r with number := 0 })).showWindow

/-- What a SERVICE_RESET does at T (R425). -/
def State.serviceResetNow (s : State) (atNs : Nat) : State :=
  let t := (s.rcpServiceReset atNs).emptyTable
  let t := { t with hrc := { t.hrc with untracked := t.hrc.untracked.map (fun _ => (256 * fld (t.hrcWord A.hrcUntracked) 20 12, t.nowNs)) } }
  t.clearCounters.talReset atNs

/-- SERVICE_RESET (R425). -/
def State.serviceReset (s : State) : State :=
  s.execOp 4 State.rhoValue (fun _ at_ t => (t.serviceResetNow at_).raise A.casEvent 9)

end Sys2Proof.Machine
end

