-- ==== Sys2Proof/Machine/Hif.lean ====
section
/-!
DEFINITION. The host interface (R324 to R351): doorbell reads, fetching and its checks, host frames, moderation and
coalescing, ring states, and the checks and safe state of its groups.
-/

namespace Sys2Proof.Machine

/-! ### Doorbells (R327 to R329) -/

/-- A ring whose doorbell word is read: enabled, with a doorbell page and a host. -/
def State.dbWanted (s : State) : Bool :=
  s.hif.attached && decide (s.rd64 A.hifDbAddrLo ≠ 0) && (List.range 256).any (fun n => s.bit (A.hifRingCfg n) 3)

/-- A trigger of a doorbell read (R328): at most one read is outstanding, and triggers meanwhile make one further read. -/
def State.triggerRead (s : State) : State :=
  if s.hif.dbOutstanding then { s with hif := { s.hif with dbAgain := true } }
  else if s.dbWanted then
    (({ s with hif := { s.hif with dbOutstanding := true } }).inc A.hifDbReads).emit .doorbellRead
  else s

/-- HIF_DB_POLL (R328): the calendar entry fires. -/
def State.dbPoll (s : State) : State := s.fireDue (fun e => decide (e.action = 0x18)) (fun _ t => t.triggerRead)

/-- DB_POLL as it acts (R350). -/
def State.dbPeriod (s : State) : Nat :=
  if (s.group 25).parity.contains A.hifDbPoll then 1000 else s.f A.hifDbPoll 0 17

/-- The HIF_DB_POLL entry of the calendar. -/
def State.armPoll (s : State) : State :=
  s.calOwn (ownEntry 0x18 0 (nextMultiple s.nowNs s.dbPeriod) s.dbPeriod 0 0)

/-- KICK (R329): a write to BAR2. -/
def State.kick (s : State) : State := (s.inc A.hifKicks).triggerRead

/-! ### Descriptors (R333) -/

/-- A descriptor breaks the table of R333 for its ring's type. -/
def descBad (type : Nat) (d : Bytes) : Bool :=
  let addr := leAt d 0 8
  let len := leAt d 8 4
  let ctl := leAt d 12 2
  let arg := leAt d 24 8
  let form :=
    if type = 1 then decide (1 ≤ len ∧ len ≤ 9596) && decide (ctl < 16) && decide (arg = 0)
    else if type = 2 ∨ type = 3 then
      decide (addr % 64 = 0) && decide (len % 64 = 0) && decide (len ≤ 65536) && decide ((if type = 2 then 256 else 512) ≤ len) &&
      decide (ctl = 0) && decide (arg = 0)
    else if type = 4 then decide (addr % 64 = 0) && decide (len = 64) && decide (ctl = 0) && decide (arg = 0)
    else if type = 5 then decide (addr % 8 = 0) && decide (len = 96) && decide (ctl = 0) && decide (arg = 0)
    else decide (addr % 64 = 0) && decide (len % 64 = 0) && decide (64 ≤ len ∧ len ≤ 16777216) && decide (ctl < 16) &&
      decide (arg % 64 = 0)
  !form || decide (leAt d 14 2 ≠ 0)

/-- A descriptor as fetched into slot `slot`. -/
def State.descOf (s : State) (type slot : Nat) (d : Bytes) : Desc :=
  ⟨slot, leAt d 0 8, leAt d 8 4, leAt d 12 2, slice d 16 8, leAt d 24 8, s.ts.meas, descBad type d⟩

/-- One descriptor is fetched (R331, R333): a public-key job is checked at once (R300), the others wait. -/
def State.fetchDesc (s : State) (n : Nat) (x : FetchedDesc) : State :=
  let k := (s.ring n).fetched
  let d := s.descOf (s.ringType n) (k % s.ringEntries n) x.desc
  let t := (s.setRing n (fun r => { r with fetched := k + 1, waiting := r.waiting ++ [d] })).wr (A.hifRingFetched n)
    (word (k + 1))
  if t.ringType n = 4 then
    match t.startWork n with
    | (none, u) => u
    | (some d, u) => if d.bad then u.endJob n d.slot 0xB 0 else u.fetchJob n d x.job x.input
  else t.settleBad n

/-- Fetching goes on: the ring is RUNNING, descriptors are announced, and the job queue has room for a job (R305, R331). -/
def State.mayFetch (s : State) (n : Nat) : Bool :=
  decide (s.ringState n = 1) && decide (s.ringType n ≠ 7) &&
  decide (((s.ring n).prod + 2 ^ 32 - (s.ring n).fetched % 2 ^ 32) % 2 ^ 32 ≠ 0) &&
  (decide (s.ringType n ≠ 4) || s.queueRoom)

/-- Fetching the announced descriptors in order; a failed descriptor read is a ring error (R346). -/
def State.fetchAll (s : State) (n : Nat) (failed : Bool) : List FetchedDesc → State
  | [] => if failed && s.mayFetch n then s.ringError n 0x42 else s
  | x :: l => if s.mayFetch n then (s.fetchDesc n x).fetchAll n failed l else s

/-- One ring's doorbell word (R327, R331): its counts are checked, kept, and what it announces is fetched. -/
def State.doorbellWord (s : State) (w : DoorbellWord) : State :=
  let n := w.ring
  if !(s.ringLive n) then s
  else
    let used := (w.prod + 2 ^ 32 - w.cons % 2 ^ 32) % 2 ^ 32
    let ahead := ((s.ring n).posted + 2 ^ 32 - w.cons % 2 ^ 32) % 2 ^ 32
    if s.ringType n ≠ 7 ∧ s.ringEntries n < used then s.ringError n 0x40
    else if 2 ^ 31 ≤ ahead then s.ringError n 0x41
    else
      let t := s.setRing n (fun r => { r with prod := w.prod % 2 ^ 32, cons := w.cons % 2 ^ 32 })
      let u := (t.fetchAll n w.readFailed w.descs).showRing n
      if u.ringType n = 3 ∧ u.f (A.hifRingCfg n) 16 3 = 4 then u.pumpJournal
      else if u.ringType n = 4 then u else u.drainRing n

/-- DOORBELL_READ_DONE (R328): the outstanding read completes with the words it found, or fails. -/
def State.doorbellDone (s : State) (words : Option (List DoorbellWord)) : State :=
  if s.hif.dbOutstanding = false then s
  else
    let t := match words with
      | none => ((s.inc A.hifDbFaults).raise A.hifEvent 2).setBit A.hifStatus 10 true
      | some l => (s.setBit A.hifStatus 10 false).each l (fun w u => u.doorbellWord w)
    let again := t.hif.dbAgain
    let t := { t with hif := { t.hif with dbOutstanding := false, dbAgain := false } }
    t.when again State.triggerRead

/-! ### Host frames (R336, R197) -/

/-- HOST_FRAME_TX (R336): the first waiting descriptor of TX_FRAME ring `n` and the frame read for it, none where the read
failed. -/
def State.hostFrame (s : State) (n : Nat) (data : Option Bytes) : State :=
  if s.ringType n ≠ 1 ∨ s.ringState n ≠ 1 then s
  else match s.startWork n with
    | (none, t) => t
    | (some d, t) =>
      let sl := d.ctl % 8
      if t.linkExists sl = false ∨ t.linkUp sl = false then t.endWork n d.slot 0x40 0
      else if t.maxFrame sl 1 < max d.len 60 + 4 then (t.inc (A.macLinkTooLong sl)).endWork n d.slot 5 0
      else match data with
        | none => t.endWork n d.slot 0x41 0
        | some x =>
          let f := padFrame (slice x 0 d.len)
          t.queuePre sl (if d.ctl.testBit 3 then fillSums f else f) (some (n, d.slot, d.fetchedAt))

/-- 100 ms after a fetch, on the measurement scale. -/
def frameDeadline (fetchedAt : Nat) : Nat := 100000000 * 2 ^ 48 + fetchedAt

/-- Host frames of a link's queue that pass a test end with a status. -/
def State.dropQueued (s : State) (sl status : Nat) (p : Nat × Nat × Nat → Bool) : State :=
  let hit := (s.lnk sl).queue.filter (fun x => x.ring.any p)
  let t := s.setLink sl (fun l => { l with queue := l.queue.filter (fun x => !(x.ring.any p)) })
  t.each hit (fun x u => match x.ring with
    | some (n, slot, _) => u.endWork n slot status 0
    | none => u)

/-- Waiting TX_FRAME descriptors whose 100 ms have passed end with TX_TIMEOUT. -/
def State.expireWaiting (s : State) (n : Nat) : State :=
  let late : Desc → Bool := fun d => decide (frameDeadline d.fetchedAt ≤ s.ts.meas)
  let hit := (s.ring n).waiting.takeWhile late
  if s.ringType n ≠ 1 ∨ hit = [] then s
  else (((s.setRing n (fun r => { r with
    waiting := r.waiting.dropWhile late
    started := r.started ++ hit.map (fun d => (d, some (if d.bad then 0xB else 0x43, 0))) })).settleBad n).drainRing n)

/-- HOST_FRAME_TIMEOUT (R336): host frames not started within 100 ms of their fetch. -/
def State.hostFrameTimeout (s : State) : State :=
  let t := s.each (List.range 8) (fun sl u => u.dropQueued sl 0x43 (fun r => decide (frameDeadline r.2.2 ≤ u.ts.meas)))
  t.each (List.range 256) (fun n u => u.expireWaiting n)

/-! ### Records, vectors and coalescing (R338, R342, R343) -/

/-- FLUSH of a ring in microseconds. -/
def State.ringFlush (s : State) (n : Nat) : Nat := s.f (A.hifRingFlush n) 0 14

/-- RECORD_FLUSH (R338): FLUSH has passed since the buffer's first record. -/
def State.recordFlush (s : State) (n : Nat) : State :=
  if s.ringType n = 3 ∧ s.ringState n = 1 ∧ (s.ring n).fill ≠ 0 ∧
      (s.ring n).fillSince + s.ringFlush n * 1000 * 2 ^ 48 ≤ s.ts.meas then
    (s.flushBuffer n).showRing n
  else s

/-- VECTOR_TIMER (R343): TIME has passed since the vector's first pending item. -/
def State.vectorTimer (s : State) (v : Nat) : State :=
  let x := s.hif.vecs.getD v ⟨0, 0, false⟩
  if s.vecTime v ≠ 0 ∧ x.items ≠ 0 ∧ x.since + s.vecTime v * 1000 * 2 ^ 48 ≤ s.ts.meas then s.sendVec v else s

/-- BLOCK_EVENT_COALESCE (R342): windows that ended report the bits set meanwhile in one further record. -/
def State.coalesceEnd (s : State) : State :=
  let due := s.hif.coalesce.filter (fun c => decide (c.endAt ≤ s.ts.meas))
  let t := { s with hif := { s.hif with coalesce := s.hif.coalesce.filter (fun c => decide (s.ts.meas < c.endAt)) } }
  t.each (due.filter (fun c => c.more)) (fun c u => u.blockEvent c.dest c.reg)

/-! ### Ring states (R346) -/

/-- A job of ring `n`. -/
def PkeJob.ofRing (n : Nat) (j : PkeJob) : Bool := j.ring.any (fun r => decide (r.1 = n))

/-- A ring begins to quiesce (R346): work not yet started ends with ABORTED, wherever it waits. -/
def State.quiesceRing (s : State) (n : Nat) : State :=
  let t := s.quiesce n
  if t.ringType n = 4 then
    let jobs := t.pke.queue.filter (PkeJob.ofRing n)
    (t.setQueuePke (fun q => q.filter (fun j => !(j.ofRing n)))).each jobs (fun j u => u.stopJob j 1 0xFF 0)
  else if t.ringType n = 1 then
    t.each (List.range 8) (fun sl u => u.dropQueued sl 1 (fun r => decide (r.1 = n)))
  else t

/-- A ring leaves ERROR (R346), or its host is gone (R347): its frames are discarded, its jobs aborted and wiped, and it
is OFF. -/
def State.stopRing (s : State) (n : Nat) : State :=
  let t := s.abortJobs (PkeJob.ofRing n)
  let t := t.each (List.range 8) (fun sl u => u.setLink sl (fun l => { l with
    queue := l.queue.filter (fun x => !(x.ring.any (fun r => decide (r.1 = n))))
    onLine := l.onLine.map (fun (x : OnLine) =>
      if x.frame.ring.any (fun r => decide (r.1 = n)) then { x with frame := { x.frame with ring := none } } else x) }))
  t.ringOff n

/-- RING_QUIESCED (R346): the last completion of a quiescing ring is posted. -/
def State.ringQuiesced (s : State) (n : Nat) : State := s.ringIdle n

/-- An applied HIF_RING group acts on ring `n`; `was` is its ENABLE before. -/
def State.applyRing (s : State) (n : Nat) (was : Bool) : State :=
  let on := s.bit (A.hifRingCfg n) 3
  if s.ringState n = 0 then (if on then s.ringStart n else s)
  else if on then s
  else if s.ringState n = 1 then (if was then s.quiesceRing n else s)
  else if s.ringState n = 3 then s.stopRing n
  else s

/-- HIF_RING applied (R346). -/
def State.applyHifRing (s : State) (old : Nat → Word) : State :=
  s.each (List.range 256) (fun n t => t.applyRing n (bitOf (old (A.hifRingCfg n)) 3))

/-- STATUS.FROZEN follows the parity of the HIF groups (R350). -/
def State.hifFrozen (s : State) : State :=
  s.setBit A.hifStatus 9 (decide ((s.group 25).parity ≠ []) || decide ((s.group 26).parity ≠ []))

/-- HIF_CFG applied: the poll entry follows DB_POLL. -/
def State.applyHifCfg (s : State) (old : Nat → Word) : State :=
  let t := s.hifFrozen
  if fld (old A.hifDbPoll) 0 17 = t.dbPeriod then t else t.armPoll

/-! ### Consistency checks (R351) -/

/-- The ring page words of ring `n` that may not change while it is not OFF: all but ENABLE, VECTOR, IRQ_EN and FLUSH. -/
def ringChanged (old w : Nat → Word) (n : Nat) : Bool :=
  let m : Word := 0xFFFF80F7
  decide (old (A.hifRingDbaseLo n) ≠ w (A.hifRingDbaseLo n)) || decide (old (A.hifRingDbaseHi n) ≠ w (A.hifRingDbaseHi n)) ||
  decide (old (A.hifRingCbaseLo n) ≠ w (A.hifRingCbaseLo n)) || decide (old (A.hifRingCbaseHi n) ≠ w (A.hifRingCbaseHi n)) ||
  decide (old (A.hifRingCfg n) &&& m ≠ w (A.hifRingCfg n) &&& m)

/-- RING_BUSY of a ring. -/
def State.ringBusy (s : State) (w : Nat → Word) (n : Nat) : Bool :=
  let st := s.ringState n
  (decide (st ≠ 0) && ringChanged s.rd w n) ||
  ((decide (st = 2) || decide (st = 3)) && bitOf (w (A.hifRingCfg n)) 3 && !(s.bit (A.hifRingCfg n) 3))

/-- Two enabled rings serve one source. -/
def sourceDup (w : Nat → Word) (n m : Nat) : Bool :=
  let a := w (A.hifRingCfg n)
  let b := w (A.hifRingCfg m)
  decide (n < m) && bitOf a 3 && bitOf b 3 && decide (fld a 0 3 = fld b 0 3) &&
  (decide (fld a 0 3 = 7) || (decide (fld a 0 3 = 3) && decide (fld a 16 3 = fld b 16 3)))

/-- The consistency checks of HIF_RING. -/
def checkHifRing (s : State) (w : Nat → Word) : Option Nat :=
  let l := List.range 256
  let on := l.filter (fun n => bitOf (w (A.hifRingCfg n)) 3)
  firstReason [
    (!(rangesOk 26 w) || on.any (fun n => decide (fld (w (A.hifRingCfg n)) 0 3 = 0)), 0x40),
    (l.any (fun n => decide (fld (w (A.hifRingDbaseLo n)) 0 12 ≠ 0) || decide (fld (w (A.hifRingCbaseLo n)) 0 12 ≠ 0)), 0x41),
    (l.any (fun n => s.ringBusy w n), 0x42),
    (on.any (fun n => on.any (fun m => sourceDup w n m)), 0x43),
    (decide (on ≠ []) && decide (s.rd64 A.hifDbAddrLo = 0), 0x44)]

/-- The consistency checks of HIF_CFG. -/
def checkHifCfg (s : State) (w : Nat → Word) : Option Nat :=
  let moved := decide (w A.hifDbAddrLo ≠ s.rd A.hifDbAddrLo) || decide (w A.hifDbAddrHi ≠ s.rd A.hifDbAddrHi)
  firstReason [
    (!(rangesOk 25 w), 0x40),
    (decide (fld (w A.hifDbAddrLo) 0 12 ≠ 0), 0x41),
    (moved && (List.range 256).any (fun n => decide (s.ringState n ≠ 0)), 0x45),
    ((List.range 64).any (fun v => decide (fld (w (A.hifVec v)) 16 14 = 0) && decide (1 < fld (w (A.hifVec v)) 0 8)), 0x46)]

/-- A parity fault in an HIF word (R350). -/
def State.hifParityFault (s : State) (a : Nat) : State :=
  let t := (s.raise A.hifEvent 5).hifFrozen
  if a = A.hifDbAddrLo ∨ a = A.hifDbAddrHi then t.each (List.range 256) (fun n u => u.ringError n 0x43)
  else if a = A.hifDbPoll then t.armPoll
  else if 0x5000 ≤ a ∧ a < 0x7000 then t.ringError ((a - 0x5000) / 32) 0x43
  else t

/-! ### The PCIe link (R325) -/

/-- PCIE_LINK_UP (R325): L0 at a speed code and width; the function shows the module's IDs (R16). -/
def State.pcieUp (s : State) (speed width : Nat) : State :=
  let t := { s with hif := { s.hif with attached := true, trainAt := none } }.emit (.pcieFunction 0x1F3B 0x6160)
  ((((t.setBit A.hifStatus 0 true).sfW A.hifStatus 1 3 speed).sfW A.hifStatus 4 5 width).raise A.hifEvent 0)

/-- Link training starts. -/
def State.startTraining (s : State) : State :=
  ({ s with hif := { s.hif with trainAt := some s.ts.meas } }).emit .pcieTrain

/-- PCIE_RETRAIN (R325): 10 s after the last attempt without L0. -/
def State.pcieRetrain (s : State) : State :=
  match s.hif.trainAt with
  | none => s
  | some m => if s.hif.attached = false ∧ 10 * 1000000000 * 2 ^ 48 + m ≤ s.ts.meas then s.startTraining else s

end Sys2Proof.Machine
end

