-- ==== Sys2Proof/Machine/GnssSignals.lean ====
section
/-!
DEFINITION. The GNSS signals (R129), their dual-frequency pairs (R130) and their navigation messages (R137).
-/

namespace Sys2Proof.Machine

/-- A row of the table of R129: code, constellation in the bit order of CFG.CONST, whether in the L5 band, carrier in Hz (GLONASS: of
k = 0), whether a pilot is tracked, and the kinds of its messages (R137). -/
structure Signal where
  code : Nat
  system : Nat
  l5 : Bool
  carrier : Nat
  pilot : Bool
  kinds : List Nat
  deriving DecidableEq, Repr

/-- The signals that a side tracks (R129). -/
def signals : List Signal := [
  ⟨0x01, 0, false, 1575420000, false, [0x01]⟩,
  ⟨0x02, 0, false, 1575420000, true, [0x03, 0x04]⟩,
  ⟨0x03, 0, true, 1176450000, true, [0x02]⟩,
  ⟨0x11, 1, false, 1575420000, true, [0x11]⟩,
  ⟨0x12, 1, true, 1176450000, true, [0x12]⟩,
  ⟨0x21, 2, false, 1561098000, false, [0x21, 0x22]⟩,
  ⟨0x22, 2, false, 1575420000, true, [0x23, 0x24]⟩,
  ⟨0x23, 2, true, 1176450000, true, [0x25]⟩,
  ⟨0x31, 3, false, 1602000000, false, [0x31]⟩,
  ⟨0x41, 4, false, 1575420000, false, [0x01]⟩,
  ⟨0x42, 4, false, 1575420000, true, [0x03, 0x04]⟩,
  ⟨0x43, 4, true, 1176450000, true, [0x02]⟩,
  ⟨0x51, 5, false, 1575420000, false, [0x51]⟩]

/-- The row of a signal code. -/
def signalOf (code : Nat) : Option Signal := signals.find? (fun g => decide (g.code = code))

/-- The L5 signal that forms a dual-frequency pair with an L1 signal of the same satellite (R130). -/
def partner (code : Nat) : Option Nat :=
  match code with
  | 0x01 => some 0x03
  | 0x02 => some 0x03
  | 0x11 => some 0x12
  | 0x22 => some 0x23
  | 0x41 => some 0x43
  | 0x42 => some 0x43
  | _ => none

/-- The squares of the carriers of a pair, the same for every pair (R144). -/
def f1Square : Nat := 1575420000 ^ 2
def f5Square : Nat := 1176450000 ^ 2

/-- A message's length in bits and its check, by its kind (R137). -/
def messageForm (kind : Nat) : Option (Nat × Nat) :=
  match kind with
  | 0x01 => some (300, 1)
  | 0x02 => some (276, 2)
  | 0x03 => some (600, 2)
  | 0x04 => some (274, 2)
  | 0x11 => some (234, 2)
  | 0x12 => some (238, 2)
  | 0x21 => some (300, 3)
  | 0x22 => some (300, 3)
  | 0x23 => some (600, 2)
  | 0x24 => some (264, 2)
  | 0x25 => some (288, 2)
  | 0x31 => some (85, 4)
  | 0x51 => some (226, 2)
  | _ => none

/-- The first `n` bits of a payload from bit 7 of its first byte on, in 128 bytes whose other bits are 0 (R137). -/
def firstBits (n : Nat) (d : Bytes) : Bytes :=
  (slice d 0 128).mapIdx (fun i b => byte (b.toNat / 2 ^ (8 - min 8 (n - 8 * i)) * 2 ^ (8 - min 8 (n - 8 * i))))

/-- A satellite's key: its constellation times 256 and its number. -/
def satKey (code sv : Nat) : Nat := (code / 16) * 256 + sv % 256

/-- The clock unknown of a constellation: QZSS shares the GPS unknown (R140). -/
def clockOf (system : Nat) : Nat := if system = 4 then 0 else system

end Sys2Proof.Machine
end

