-- ==== Sys2Proof/Machine/GnssSolve.lean ====
section
/-!
DEFINITION. The GNSS solution (R140, R141, R144): corrected ranges, dual-frequency combinations, weighted least squares for the clocks
and, where no position is in force, for position and clocks together.
-/

namespace Sys2Proof.Machine

/-! ### Weighted least squares -/

/-- An equation: its coefficients, its weight, its right side. -/
structure Equation where
  row : List Int
  weight : Nat
  value : Int
  deriving DecidableEq, Repr

/-- The normal matrix of the equations for `n` unknowns. -/
def normalMatrix (n : Nat) (l : List Equation) : List (List Int) :=
  (List.range n).map (fun i => (List.range n).map (fun j =>
    (l.map (fun e => (e.weight : Int) * e.row.getD i 0 * e.row.getD j 0)).sum))

/-- A least-squares solution: the determinant, the numerators of the unknowns over it, and those of the diagonal of the inverse of the
normal matrix. -/
structure LeastSquares where
  den : Int
  num : List Int
  inv : List Int
  deriving DecidableEq, Repr

/-- The weighted least-squares solution by Cramer's rule; none where the equations do not determine the unknowns. -/
def leastSquares (n : Nat) (l : List Equation) : Option LeastSquares :=
  let m := normalMatrix n l
  let b := (List.range n).map (fun i => (l.map (fun e => (e.weight : Int) * e.row.getD i 0 * e.value)).sum)
  let d := det n m
  if d ≤ 0 then none
  else some ⟨d, (List.range n).map (fun j => det n (m.mapIdx (fun i r => r.set j (b.getD i 0)))),
    (List.range n).map (fun j => det (n - 1) ((m.eraseIdx j).map (fun r => r.eraseIdx j)))⟩

/-- The residual of an equation, as the numerator over `den`. -/
def LeastSquares.residual (f : LeastSquares) (e : Equation) : Int :=
  e.value * f.den - ((e.row.zip f.num).map (fun p => p.1 * p.2)).sum

/-! ### Ranges -/

/-- A channel's measurement of the epoch with the signal it tracks: the smoothed instant of transmission (R133) and the range in ps,
from the transmission by the satellite's TAI to the latch, less the delay of its band and the group delay of its signal. -/
structure Ranging where
  obs : ChanObs
  signal : Nat
  sv : Nat
  range : Int
  deriving DecidableEq, Repr

/-- The satellite of a measurement. -/
def Ranging.key (r : Ranging) : Nat := satKey r.signal r.sv

/-- A range of the solution: its channels, its satellite and clock, its value in ps free of ionosphere and troposphere. -/
structure GnssRange where
  chans : List Nat
  key : Nat
  clock : Nat
  value : Int
  sat : Int × Int × Int
  elev : Nat
  pair : Bool
  deriving DecidableEq, Repr

/-- What turns a time of a constellation, in ps, into TAI (R129, R140): 19 s for GPS, QZSS and Galileo, 33 s for BeiDou; GLONASS through
TSC.LEAP_CUR. -/
def State.toTai (s : State) (system : Nat) : Int :=
  if system = 2 then 33000000000000
  else if system = 3 then s.sf A.tscLeapCur 0 16 * 1000000000000
  else 19000000000000

/-- The delay of a band of a side in ps (R144). -/
def State.bandDelay (s : State) (a : Nat) (l5 : Bool) : Int :=
  if l5 then s.sf (A.gnsSideDelayL5 a) 0 32 + s.sf (A.gnsSideRxdlyL5 a) 0 32
  else s.sf (A.gnsSideDelayL1 a) 0 32 + s.sf (A.gnsSideRxdlyL1 a) 0 32

/-- The square of the distance of two positions, in cm². -/
def dist2 (p q : Int × Int × Int) : Nat :=
  ((p.1 - q.1) * (p.1 - q.1) + (p.2.1 - q.2.1) * (p.2.1 - q.2.1) + (p.2.2 - q.2.2) * (p.2.2 - q.2.2)).toNat

/-- The time of light between two positions, in ps. -/
def lightTime (p q : Int × Int × Int) : Int := (qsqrt (dist2 p q * 10 ^ 20) (299792458 ^ 2) : Nat)

/-- The line of sight to a satellite as a vector of length 10^6. -/
def sight (p q : Int × Int × Int) : List Int :=
  let d := qsqrt (dist2 p q) 1
  [qdiv ((q.1 - p.1) * 1000000) d, qdiv ((q.2.1 - p.2.1) * 1000000) d, qdiv ((q.2.2 - p.2.2) * 1000000) d]

/-- The range free of ionosphere of a pair (R141, R144). -/
def ionoFree (r1 r5 : Int) : Int := qdiv (r1 * f1Square - r5 * f5Square) (f1Square - f5Square)

/-- The L5 measurement that pairs with an L1 measurement of the same satellite (R130). -/
def pairOf (l : List Ranging) (r : Ranging) : Option Ranging :=
  match partner r.signal with
  | some c => l.find? (fun q => decide (q.signal = c) && decide (q.sv = r.sv))
  | none => none

/-- The range of a pair of a satellite, its lowest-numbered L1 signal with L5 (R130, R141). -/
def pairRange (p : Int × Int × Int) (l : List Ranging) (key : Nat) : Option GnssRange :=
  ((l.filter (fun r => decide (r.key = key))).filterMap (fun r => (pairOf l r).map (fun q =>
    (⟨[r.obs.chan, q.obs.chan], key, clockOf (r.signal / 16),
      ionoFree r.range q.range - Config.troposphere r.obs.elev p, r.obs.sat, r.obs.elev, true⟩ : GnssRange)))).head?

/-- The range of one signal alone, with the ionospheric model of its constellation (R141). -/
def State.singleRange (s : State) (a : Nat) (p : Int × Int × Int) (r : Ranging) : GnssRange :=
  let par := ((s.gnss.sides.getD a GnssSide.empty).ionoPar.find? (fun e => decide (e.1 = r.signal / 16))).map (fun e => e.2)
  ⟨[r.obs.chan], r.key, clockOf (r.signal / 16),
    r.range - Config.broadcastIono (r.signal / 16) par r.signal r.obs.elev r.obs.azim p (s.nowNs / 1000000000) -
      Config.troposphere r.obs.elev p, r.obs.sat, r.obs.elev, false⟩

/-- The satellites of measurements. -/
def satellites (l : List Ranging) : List Nat := (l.map Ranging.key).eraseDups

/-- The ranges of measurements at a position (R141): of each satellite its pair, otherwise every signal; only pairs in T_DUAL (R142). -/
def State.rangesOf (s : State) (a : Nat) (p : Int × Int × Int) (dual : Bool) (l : List Ranging) : List GnssRange :=
  (satellites l).flatMap (fun k => match pairRange p l k with
    | some g => [g]
    | none => if dual then [] else (l.filter (fun r => decide (r.key = k))).map (s.singleRange a p))

/-- The clock unknowns that ranges determine. -/
def clocksIn (l : List GnssRange) : List Nat := [0, 1, 2, 3].filter (fun c => l.any (fun g => decide (g.clock = c)))

/-- The equation of a range: one column for each clock, before them three for the position where it is solved for (R141). -/
def equation (free : Bool) (p : Int × Int × Int) (clocks : List Nat) (g : GnssRange) : Equation :=
  ⟨(if free then (sight p g.sat).map (fun x => -x) else []) ++ clocks.map (fun c => if g.clock = c then 1 else 0),
    1 + Config.elevationWeight g.elev, g.value - lightTime p g.sat⟩

/-- A solution at a position: the ranges, the clocks solved for, whether the position is, the least-squares fit. -/
structure GnssFix where
  ranges : List GnssRange
  clocks : List Nat
  free : Bool
  point : Int × Int × Int
  fit : LeastSquares
  deriving DecidableEq, Repr

/-- The equations of a solution. -/
def GnssFix.equations (x : GnssFix) : List Equation := x.ranges.map (equation x.free x.point x.clocks)

/-- Solving ranges at a position, which stays fixed or is solved for with the clocks (R141). -/
def solveRanges (free : Bool) (p : Int × Int × Int) (l : List GnssRange) : Option GnssFix :=
  let cs := clocksIn l
  (leastSquares ((if free then 3 else 0) + cs.length) (l.map (equation free p cs))).map (fun f => ⟨l, cs, free, p, f⟩)

/-- Where a clock stands among the unknowns. -/
def GnssFix.column (x : GnssFix) (c : Nat) : Nat := (if x.free then 3 else 0) + (x.clocks.takeWhile (fun k => decide (k ≠ c))).length

/-- The timescale minus a constellation's time, in ps. -/
def GnssFix.clock (x : GnssFix) (c : Nat) : Option Int :=
  if x.clocks.contains c then some (qdiv (x.fit.num.getD (x.column c) 0) x.fit.den.toNat) else none

/-- The position of a solution in cm: light goes 29979.2458 cm in 10^6 ps. -/
def GnssFix.position (x : GnssFix) : Int × Int × Int :=
  let off : Nat → Int := fun j => if x.free then qdiv (x.fit.num.getD j 0 * 299792458) (x.fit.den.toNat * 10000) else 0
  (x.point.1 + off 0, x.point.2.1 + off 1, x.point.2.2 + off 2)

/-- The position of a solution is known within 100 km by its formal deviation (R134). -/
def GnssFix.within100km (x : GnssFix) : Bool :=
  decide ((x.fit.inv.take 3).sum * 299792458 ^ 2 ≤ 10 ^ 10 * x.fit.den)

/-- The residual of a range in ps. -/
def GnssFix.residual (x : GnssFix) (g : GnssRange) : Int :=
  qdiv (x.fit.residual (equation x.free x.point x.clocks g)) x.fit.den.toNat

/-- The channels of the ranges whose residual, normalised by its weight, exceeds 5 (R148), and how many ranges those are. -/
def GnssFix.outliers (x : GnssFix) : List GnssRange :=
  x.ranges.filter (fun g =>
    let e := equation x.free x.point x.clocks g
    let v := (x.fit.residual e).natAbs
    decide (25 * 10 ^ 12 * (x.fit.den.natAbs * x.fit.den.natAbs) < v * v * e.weight))

/-- sigma of a clock unknown in ps (R143): its formal deviation, scaled by the rms of the post-fit residuals. -/
def GnssFix.sigmaClock (x : GnssFix) (c : Nat) : Nat :=
  let sum := (x.equations.map (fun e => e.weight * ((x.fit.residual e).natAbs * (x.fit.residual e).natAbs))).sum
  qsqrt ((x.fit.inv.getD (x.column c) 0).natAbs * sum) (x.fit.den.natAbs * x.fit.den.natAbs * x.fit.den.natAbs * x.ranges.length)

/-- The time dilution of precision of a clock, times 100: the equations with weight 1. -/
def GnssFix.tdop (x : GnssFix) (c : Nat) : Nat :=
  match leastSquares x.fit.num.length (x.equations.map (fun e => { e with weight := 1 })) with
  | some f => qsqrt (10000 * (f.inv.getD (x.column c) 0).natAbs) f.den.natAbs
  | none => 0

/-- A constellation's own clock at a position in ps, with its weighted mean range alone (R148). -/
def ownClock (p : Int × Int × Int) (l : List GnssRange) (c : Nat) : Option Int :=
  let m := (l.filter (fun g => decide (g.clock = c))).map (equation false p [c])
  if m = [] then none else some (qdiv (m.map (fun e => (e.weight : Int) * e.value)).sum (m.map (fun e => e.weight)).sum)

end Sys2Proof.Machine
end

