-- ==== Sys2Proof/Machine/Gnss.lean ====
section
/-!
DEFINITION. The GNSS receiver (R129 to R159): channels (R131 to R133), solutions and their status (R139 to R144), surveys and
positions (R145 to R147),
consistency checks, exclusions and alarms (R148 to R150), interference and bias (R151, R152), wakes (R153), snapshots and
replay (R154 to R156), navigation records (R136 to R138).
-/

namespace Sys2Proof.Machine

/-! ### Sides -/

/-- Side `a`: 0 A, 1 B. -/
def State.side (s : State) (a : Nat) : GnssSide := s.gnss.sides.getD a GnssSide.empty

/-- Changing side `a`. -/
def State.setSide (s : State) (a : Nat) (f : GnssSide → GnssSide) : State :=
  { s with gnss := { s.gnss with sides := modAt s.gnss.sides a f } }

/-- ANT_CFG.ENABLE of a side. -/
def State.sideEnabled (s : State) (a : Nat) : Bool := s.bit (A.gnsSideAntCfg a) 0

/-- A side replays a snapshot (R156). -/
def State.sideReplaying (s : State) (a : Nat) : Bool := s.bit (A.gnsSideStatus a) 10

/-- A position is in force on a side. -/
def State.posInForce (s : State) (a : Nat) : Bool := s.bit (A.gnsSideStatus a) 4

/-- The position in force, in cm. -/
def State.sidePos (s : State) (a : Nat) : Int × Int × Int :=
  (s.sf (A.gnsSidePosX a) 0 32, s.sf (A.gnsSidePosY a) 0 32, s.sf (A.gnsSidePosZ a) 0 32)

/-- A side is in a parity safe state: its own, or both by a common word, until GNS_CFG is committed again (R157). -/
def State.gnsStruck (s : State) (a : Nat) : Bool := s.bit A.gnsStatus 7 || s.bit (A.gnsSideStatus a) 15

/-- The antenna baseline is known and at least 1 m (R148). -/
def State.baselineOk (s : State) : Bool :=
  s.posInForce 0 && s.posInForce 1 && decide (10000 ≤ dist2 (s.sidePos 0) (s.sidePos 1))

/-! ### Channels (R131 to R133) -/

/-- The first status word of a channel. -/
def chanWord (a c : Nat) : Nat := A.gnsSideChan a (4 * c)

/-- The block of a channel is fenced. -/
def State.chanFenced (s : State) (a c : Nat) : Bool := s.bit A.gnsBlockMap (10 * a + c / 16)

/-- The signal, satellite and state that a channel shows. -/
def State.chanSignal (s : State) (a c : Nat) : Nat := s.f (chanWord a c) 0 8
def State.chanSv (s : State) (a c : Nat) : Nat := s.f (chanWord a c) 8 8
def State.chanState (s : State) (a c : Nat) : Nat := s.f (chanWord a c) 16 3

/-- A channel with nothing tracked yet. -/
def ChanLoop.empty : ChanLoop := ⟨0, 0, 0, none, none⟩

/-- The loop of a channel. -/
def State.chanLoop (s : State) (a c : Nat) : ChanLoop := CellList.get (fun _ => ChanLoop.empty) (s.side a).loops c

/-- Setting the loop of a channel. -/
def State.setLoop (s : State) (a c : Nat) (l : ChanLoop) : State :=
  s.setSide a (fun x => { x with loops := CellList.set (fun _ => ChanLoop.empty) x.loops c l })

/-- A channel's words with no signal; a fenced channel takes none (R131). -/
def State.freeChan (s : State) (a c : Nat) : State :=
  (((((s.wr (chanWord a c) (word (b2n (s.chanFenced a c) * 2 ^ 24))).wr (chanWord a c + 4) 0).wr (chanWord a c + 8) 0).wr
    (chanWord a c + 12) 0).setLoop a c ChanLoop.empty)

/-- Every channel of a side free. -/
def State.freeChans (s : State) (a : Nat) : State :=
  s.each ((List.range 160).filter (fun c => decide (s.chanSignal a c ≠ 0))) (fun c t => t.freeChan a c)

/-- A channel block is fenced or comes back (R131): its map bit, its channels without signal, FENCED; BLOCK_FENCED at a fence. -/
def State.fenceBlock (s : State) (b : Nat) (on : Bool) : State :=
  let t := s.setBit A.gnsBlockMap b on
  let t := t.each ((List.range 16).map (fun i => 16 * (b % 10) + i)) (fun c u => u.freeChan (b / 10) c)
  let n := ((List.range 20).filter (fun i => t.bit A.gnsBlockMap i)).length
  (t.sfW A.gnsStatus 8 5 n).when on (fun u => u.raise A.gnsEvent 5)

/-- A constellation is enabled (CFG.CONST). -/
def State.constOn (s : State) (system : Nat) : Bool := s.bit A.gnsCfg system

/-- A signal into a list in descending elevation, behind those of its own elevation. -/
def insertSky (o : SkyObs) : List SkyObs → List SkyObs
  | [] => [o]
  | x :: l => if x.elev < o.elev then o :: x :: l else x :: insertSky o l

/-- Descending elevation. -/
def sortSky (l : List SkyObs) : List SkyObs := l.foldl (fun m o => insertSky o m) []

/-- The signals to be allocated, in their order (R132): those of enabled constellations above the elevation mask in descending
elevation, then those below it but above 0°. -/
def State.candidates (s : State) (sky : List SkyObs) : List SkyObs :=
  let l := sky.filter (fun o => (signalOf o.signal).isSome && s.constOn (o.signal / 16) && decide (0 < o.elev))
  let up : SkyObs → Bool := fun o => decide (s.f A.gnsMask 0 6 ≤ o.elev)
  sortSky (l.filter up) ++ sortSky (l.filter (fun o => !(up o)))

/-- A channel holds a signal of the sky. -/
def State.holds (s : State) (a c : Nat) (o : SkyObs) : Bool := decide (s.chanSignal a c = o.signal) && decide (s.chanSv a c = o.sv % 256)

/-- A signal takes the lowest free channel, which begins to acquire it. -/
def State.takeChan (s : State) (a : Nat) (o : SkyObs) : State :=
  match (List.range 160).find? (fun c => decide (s.chanSignal a c = 0) && !(s.chanFenced a c)) with
  | none => s
  | some c =>
    ((s.freeChan a c).wr (chanWord a c) (word (o.signal % 256 + o.sv % 256 * 2 ^ 8 + 2 ^ 16))).wr (chanWord a c + 4)
      (word (o.elev % 128 * 2 ^ 16 + o.azim % 512 * 2 ^ 23))

/-- The allocation of channels to signals (R132): the first candidates, as many as there are channels, keep or take a channel; the
lowest are left out. -/
def State.allocate (s : State) (a : Nat) (sky : List SkyObs) : State :=
  let room := ((List.range 160).filter (fun c => !(s.chanFenced a c))).length
  let want := (s.candidates sky).take room
  let t := s.each ((List.range 160).filter (fun c => decide (s.chanSignal a c ≠ 0) && !(want.any (s.holds a c)))) (fun c u => u.freeChan a c)
  t.each want (fun o u => if (List.range 160).any (fun c => u.holds a c o) then u else u.takeChan a o)

/-- The C/N0 in 0.1 dB-Hz below which a signal is lost (R133): 18 dB-Hz for a pilot, 22 for data. -/
def lossThreshold (code : Nat) : Nat :=
  match signalOf code with
  | some g => if g.pilot then 180 else 220
  | none => 220

/-- A channel's loop over one epoch (R133): the code smoothed by the carrier over up to 100 s, anew at a cycle slip; since when C/N0 is
below the threshold. -/
def ChanLoop.next (l : ChanLoop) (o : ChanObs) (threshold meas : Nat) : ChanLoop :=
  let n := if o.slip then 1 else min (l.n + 1) 100
  ⟨n, if n ≤ 1 then o.code else qdiv (o.code + (n - 1 : Nat) * (l.code + o.carrier - l.carrier)) n, o.carrier,
    if o.cn0 < threshold then some (l.lowSince.getD meas) else none, none⟩

/-- A channel finds its signal, or finds it again within 10 s of losing it (R133): at or above the acquisition threshold, 28 dB-Hz with
the almanac's aid and 32 dB-Hz without; then it pulls in and reaches tracking and bit synchronisation. -/
def State.signalAcquired (s : State) (a c cn0 st : Nat) : State :=
  let again : Bool := match (s.chanLoop a c).lostAt with
    | some t => decide (s.ts.meas ≤ t + secs 10)
    | none => false
  let found := again || decide ((if (s.side a).almanac.isSome then 280 else 320) ≤ cn0)
  let old := s.chanState a c
  if s.bit A.gnsStatus a && decide (s.chanSignal a c ≠ 0) && !(s.chanFenced a c) && decide (2 ≤ st) && decide (st ≤ 4) &&
    (decide (2 ≤ old) || found) then
    ((s.sfW (chanWord a c) 16 3 st).sfW (chanWord a c + 4) 0 10 (min cn0 1023)).setLoop a c { s.chanLoop a c with lostAt := none }
  else s

/-- A channel whose C/N0 has been below the threshold for 2 s loses lock (R133): it acquires again, from its last state. -/
def State.lossOfLock (s : State) (a c : Nat) : State :=
  match (s.chanLoop a c).lowSince with
  | some t =>
    if 2 ≤ s.chanState a c ∧ t + secs 2 ≤ s.ts.meas then
      (((s.sfW (chanWord a c) 16 3 1).sfW (chanWord a c) 19 1 0).sfW (chanWord a c + 12) 0 16 0).setLoop a c
        { s.chanLoop a c with n := 0, lowSince := none, lostAt := some s.ts.meas }
    else s
  | none => s

/-! ### Start (R134) -/

/-- An ephemeris held is less than 4 h old. -/
def State.ephemCurrent (s : State) (a key : Nat) : Bool :=
  (s.side a).ephem.any (fun e => decide (e.1 = key) && decide (s.nowNs / 1000000000 < 14400 + e.2))

/-- The satellites whose ephemerides are less than 4 h old. -/
def State.freshEphem (s : State) (a : Nat) : Nat :=
  ((s.side a).ephem.filter (fun e => decide (s.nowNs / 1000000000 < 14400 + e.2))).length

/-- The radius beyond the 32 bits of RADIUS, for the 2 s of a WARM start: in holdover what R52 gives before it saturates. -/
def State.wideRadius (s : State) : Option Nat :=
  if s.ts.rho < 0xFFFFFFFF then some s.ts.rho
  else if s.tscMode = 3 ∨ s.tscMode = 4 ∨ (s.tscMode = 0 ∧ s.hol.cisternTime.isSome = true) then some s.holdRadius
  else none

/-- The start kind of a side from what it holds (R134): 2 HOT, 1 WARM, 0 COLD. -/
def State.startKind (s : State) (a : Nat) : Nat :=
  let alm : Bool := match (s.side a).almanac with
    | some t => decide (s.nowNs / 1000000000 < 2592000 + t)
    | none => false
  let near : Bool := match s.wideRadius with
    | some r => decide (r ≤ 2000000000000)
    | none => false
  if s.f A.gnsSolve 0 4 ≤ s.freshEphem a ∧ s.posInForce a ∧ s.ts.rho ≤ 10000000 then 2
  else if alm ∧ ((s.side a).posKnown || s.posInForce a) ∧ near then 1
  else 0

/-- The bias of a side's antenna with its front end (R152): 0 OFF, 1 OK; off on a disabled side. -/
def State.biasOn (s : State) (a : Nat) (on : Bool) : State :=
  (s.wr (A.gnsSideBias a) (if on && s.sideEnabled a && s.bit (A.gnsSideAntCfg a) 1 then 1 else 0)).setSide a (fun x =>
    { x with biasRetry := none })

/-- A side starts (R134), every channel free. -/
def State.startSide (s : State) (a : Nat) : State :=
  let k := s.startKind a
  let t := ((s.setBit A.gnsStatus a true).sfW (A.gnsSideStatus a) 8 2 k).freeChans a
  (t.setSide a (fun x => { x with
    loadingUntil := none
    latch := none
    prev := none
    iono := []
    strength := []
    persist := List.replicate 8 0
    svPersist := [] })).biasOn a true

/-- The elapsed time of a survey in s. -/
def State.surveyElapsed (s : State) (v : Survey) : Nat := (s.ts.meas - v.startAt) / secs 1

/-- sigma of a survey in mm: the rms scatter over the root of elapsed / 300 s (R145); unknown before 300 s (R146). -/
def State.surveySigma (s : State) (v : Survey) : Nat :=
  let t := s.surveyElapsed v
  if t < 300 ∨ v.n = 0 then 0xFFFFFFFF
  else qsqrt (30000 * (v.n * v.sq - dist2 (v.sx, v.sy, v.sz) (0, 0, 0))) (v.n * v.n * t)

/-- The mean of a survey in cm. -/
def Survey.mean (v : Survey) : Int × Int × Int := (qdiv v.sx v.n, qdiv v.sy v.n, qdiv v.sz v.n)

/-- The partial result of a survey (R146). -/
def State.surveyResult (s : State) (a : Nat) (v : Survey) : Bytes :=
  let m := v.mean
  le 4 (unsigned m.1 32) ++ le 4 (unsigned m.2.1 32) ++ le 4 (unsigned m.2.2 32) ++ le 4 (s.surveySigma v) ++
  le 4 (s.surveyElapsed v) ++ le 4 v.n ++ le 1 a ++ le 1 (b2n v.ionoFree) ++ zeros 6

/-- The progress of a survey before its end (R146). -/
def State.surveyProgress (s : State) (v : Survey) : Nat :=
  let time := s.f A.gnsSurveyTime 0 20
  let acc := s.f A.gnsSurveyAcc 0 14
  let el := min (s.surveyElapsed v) time
  let sg := max (s.surveySigma v) acc
  min 9999 ((5000 * el * sg + 5000 * acc * time) / (time * sg))

/-- The progress record of a survey with its partial result (R146). -/
def State.surveyRecord (s : State) (a : Nat) (v : Survey) (phase status progress : Nat) : State :=
  s.when (decide (v.prog ≠ 0)) (fun t =>
    (t.when (decide (v.buf ≠ 0)) (fun u => u.hostWrite v.buf (u.surveyResult a v))).progressRecord v.prog v.seq phase status progress
      v.buf 32 (1 + a) 0)

/-- A survey ends with a final status (R145, R146): 10,000 at completion. -/
def State.endSurvey (s : State) (a status : Nat) : State :=
  match (s.side a).survey with
  | none => s
  | some v =>
    let t := s.surveyRecord a v 3 status (if status = 0 then 10000 else s.surveyProgress v)
    ((t.setSide a (fun x => { x with survey := none })).sfW (A.gnsSideStatus a) 6 2 0).raise (A.gnsSideEvent a) 4

/-- A side has no power or is disabled: it does not run, its channels are free, its bias is off (R123, R152). -/
def State.haltSide (s : State) (a : Nat) : State := ((s.setBit A.gnsStatus a false).freeChans a).biasOn a false

/-- A side stops: its survey ends with ABORTED and its bias goes off (R145, R152). -/
def State.stopSide (s : State) (a : Nat) : State := (s.endSurvey a 1).haltSide a

/-! ### Status (R142) -/

/-- The status of a solution, ignoring alarm and safe state (R142). -/
def State.solnStatus (s : State) (a : Nat) (used dual clocks : Nat) : Nat :=
  if s.posInForce a then
    (if s.f A.gnsSolve 4 4 ≤ dual then 4 else if s.f A.gnsSolve 0 4 ≤ used then 3 else 0)
  else if used < 3 + clocks then 0
  else if (s.side a).survey.isSome then 2 else 1

/-- A side delivers nothing to REF: disabled, not running, replaying, loading firmware, in its safe state, or awake in
keep-alive mode only (R142, R150, R153). -/
def State.sideSilent (s : State) (a : Nat) : Bool :=
  !(s.sideEnabled a) || !(s.bit A.gnsStatus a) || s.sideReplaying a || (s.side a).loadingUntil.isSome || s.gnsStruck a ||
  s.gnss.wake.isSome

/-- The status a side reports to REF (R142, R150). -/
def State.reportStatus (s : State) (a : Nat) : Nat :=
  if s.sideSilent a || ((s.side a).alarmAtEval && decide ((s.side a).alarms ≠ 0)) then 0 else s.f (A.gnsSideStatus a) 12 3

/-- What both sides report to the evaluation (R70, R142, R150). -/
def State.gnssReport (s : State) : State :=
  s.each [0, 1] (fun a t =>
    let st := t.reportStatus a
    let b := (t.side a).bound
    let u := (t.setRef a (fun r => { r with adv := gnssClass st b, raw := st, bound := b })).setSide a (fun x =>
      { x with alarmAtEval := decide (x.alarms ≠ 0) })
    if u.f (A.gnsSideStatus a) 0 3 = st then u else (u.sfW (A.gnsSideStatus a) 0 3 st).raise (A.gnsSideEvent a) 0)

/-! ### Exclusions and alarms (R148 to R150) -/

/-- A satellite or constellation is excluded. -/
def GnssSide.excluded (x : GnssSide) (const : Bool) (key : Nat) : Bool :=
  x.excl.any (fun e => decide (e.const = const) && decide (e.key = key))

/-- An exclusion begins for XCL_HOLD (R149). -/
def State.exclude (s : State) (a : Nat) (const : Bool) (key check : Nat) : State :=
  if (s.side a).excluded const key then s
  else
    let e : Exclusion := ⟨const, key, check, s.ts.meas + secs (s.f A.gnsXclHold 0 17)⟩
    ((s.setSide a (fun x => { x with excl := e :: x.excl })).inc (A.gnsSideExclCount a)).raise (A.gnsSideEvent a) 3

/-- The first qualifying event of an armed snapshot (R154): 1 an alarm, 2 jamming. -/
def State.snapQualify (s : State) (kind : Nat) : State :=
  let k := fld s.gnss.snapCfg 4 2
  if s.f A.gnsStatus 4 3 = 1 ∧ (k = kind ∨ k = 3) ∧ s.gnss.snapEvent.isNone = true then
    { s with gnss := { s.gnss with snapEvent := some (kind, s.stamp, s.ts.meas) } }
  else s

/-- An alarm becomes active on a side (R150): STATUS.ALARM, the event, the consistency alarm for the next evaluation (none
while replaying, R156). -/
def State.alarm (s : State) (a check : Nat) : State :=
  let t := s.setSide a (fun x => { x with lastTrip := x.lastTrip.set check s.ts.meas })
  if (t.side a).alarms.testBit check then t
  else
    let t := (t.setSide a (fun x => { x with alarms := x.alarms + 2 ^ check })).setBit (A.gnsSideStatus a) 3 true
    let t := (t.inc (A.gnsSideAlarmCount a)).raise (A.gnsSideEvent a) 1
    let t := t.when (!(t.sideReplaying a)) (fun t => t.setRef a (fun r => { r with alarm := true }))
    t.snapQualify 1

/-- The trip condition of an alarming check at an epoch: counted, and the alarm once it has persisted (R148, R150). -/
def State.tripped (s : State) (a check persist : Nat) (trip : Bool) : State :=
  if trip then
    let n := (s.side a).persist.getD check 0 + 1
    let t := s.setSide a (fun x => { x with
      persist := x.persist.set check n
      lastTrip := x.lastTrip.set check s.ts.meas })
    t.when (decide (persist ≤ n)) (fun t => t.alarm a check)
  else s.setSide a (fun x => { x with persist := x.persist.set check 0 })

/-- A satellite check at an epoch: satellites whose condition persists are excluded (R148). -/
def State.svTripped (s : State) (a check persist : Nat) (keys : List Nat) : State :=
  let old := (s.side a).svPersist
  let count : Nat → Nat := fun k => match old.find? (fun e => decide (e.1 = check) && decide (e.2.1 = k)) with
    | some e => e.2.2 + 1
    | none => 1
  let new := keys.map (fun k => (check, k, count k))
  let t := s.setSide a (fun x => { x with svPersist := new ++ x.svPersist.filter (fun e => decide (e.1 ≠ check)) })
  t.each (new.filter (fun e => decide (persist ≤ e.2.2))) (fun e u => u.exclude a false e.2.1 (check + 2))

/-- An alarm's end (R150): its trip condition has been absent for ALARM_CLEAR. -/
def State.alarmClear (s : State) (a check : Nat) : State :=
  let x := s.side a
  if x.alarms.testBit check && decide (x.lastTrip.getD check 0 + secs (s.f A.gnsAlarmClear 0 17) ≤ s.ts.meas) then
    let left := x.alarms - 2 ^ check
    let t := s.setSide a (fun x => { x with alarms := left })
    (t.setBit (A.gnsSideStatus a) 3 (decide (left ≠ 0))).raise (A.gnsSideEvent a) 2
  else s

/-- The trip condition of an exclusion holds (R149): at the last epoch, for the satellite or for the constellation's clock. -/
def State.stillTrips (s : State) (a : Nat) (e : Exclusion) : Bool :=
  let x := s.side a
  if e.const then
    (match x.own.getD e.key none with
    | some v => s.bit A.gnsCheckEn 1 && decide (s.f A.gnsXconTol 0 10 * 1000 < v.natAbs)
    | none => false)
  else x.svPersist.any (fun p => decide (p.1 + 2 = e.check) && decide (p.2.1 = e.key))

/-- The end of the exclusion that a check made (R149); where its trip condition holds again it starts afresh. -/
def State.exclEnd (s : State) (a : Nat) (const : Bool) (key check : Nat) : State :=
  match (s.side a).excl.find? (fun e => decide (e.const = const) && decide (e.key = key) && decide (e.check = check)) with
  | none => s
  | some e =>
    if e.endAt ≤ s.ts.meas then
      let t := s.setSide a (fun x => { x with excl := x.excl.filter (fun y => !(decide (y.const = const) && decide (y.key = key))) })
      t.when (s.stillTrips a e) (fun t => t.exclude a const key check)
    else s

/-- CHECK_EN of a check. -/
def State.checkOn (s : State) (c : Nat) : Bool := s.bit A.gnsCheckEn c

/-- Both sides run and neither replays (R148). -/
def State.bothRun (s : State) : Bool :=
  s.bit A.gnsStatus 0 && s.bit A.gnsStatus 1 && !(s.sideReplaying 0) && !(s.sideReplaying 1)

/-- XCON (R148): the constellation furthest off, its distance, and how many have a solution. -/
def furthest (l : List (Option Int)) : Nat × Nat × Nat :=
  (l.mapIdx (fun i o => (i, o))).foldl (fun b e => match e.2 with
    | some x => (if b.2.1 < x.natAbs then (e.1, x.natAbs, b.2.2 + 1) else (b.1, b.2.1, b.2.2 + 1))
    | none => b) (0, 0, 0)

/-- The XCON check of an epoch, on the constellations that are not excluded. -/
def State.xcon (s : State) (a : Nat) (l : List (Option Int)) : State :=
  let w := furthest (l.mapIdx (fun i o => if (s.side a).excluded true i then none else o))
  let trip := s.checkOn 1 && decide (s.f A.gnsXconTol 0 10 * 1000 < w.2.1)
  let n := if trip then (s.side a).persist.getD 1 0 + 1 else 0
  let t := s.setSide a (fun x => { x with
    own := l
    persist := x.persist.set 1 n
    lastTrip := if trip then x.lastTrip.set 1 s.ts.meas else x.lastTrip })
  if n < 10 then t
  else if 3 ≤ w.2.2 ∧ w.1 ≠ s.f A.gnsCfg 8 2 then t.exclude a true w.1 3
  else t.alarm a 1

/-- The XANT check, once the epoch's solutions of both sides stand (R148). -/
def State.xant (s : State) : State :=
  match (s.side 0).prev, (s.side 1).prev with
  | some p, some q =>
    if p.1 = q.1 then
      let trip := s.checkOn 2 && s.bothRun && decide (s.f A.gnsXantTol 0 10 * 1000 < (p.2 - q.2).natAbs)
      (s.tripped 0 2 10 trip).tripped 1 2 10 trip
    else s
  | _, _ => s

/-- DIR_INHIBIT on both sides (R148). -/
def State.showInhibit (s : State) : State := s.each [0, 1] (fun a t => t.setBit (A.gnsSideStatus a) 11 (!s.baselineOk))

/-- The DIR check of an epoch on both sides (R148). -/
def State.dirCheck (s : State) (l : List (Nat × Nat × Nat × Nat)) : State :=
  let trip := s.checkOn 3 && s.bit A.gnsCfg 11 && s.bothRun && s.baselineOk &&
    l.any (fun d => decide (5 ≤ d.2.1) && decide (d.2.2.1 < 50) && decide (250 ≤ d.2.2.2))
  (s.tripped 0 3 30 trip).tripped 1 3 30 trip

/-- The phase steering applied over the second before an epoch, slew and step included, in ps (R148). -/
def State.steeredSecond (s : State) : Int :=
  match s.refs.hist with
  | r :: q :: _ => qdiv ((r.steer - q.steer) * 1000) (2 ^ 48) + (r.steps - q.steps)
  | _ => 0

/-- The JUMP check of an epoch: the change of theta against the steering (R148). -/
def State.jumped (s : State) (a epoch : Nat) (theta : Int) : Bool :=
  match (s.side a).prev with
  | some p => s.checkOn 5 && decide (p.1 + 1 = epoch) &&
      decide (s.f A.gnsJumpTol 0 12 * 1000 < (theta - p.2 + s.steeredSecond).natAbs)
  | none => false

/-- A discard by JUMP; the third within 60 s is an alarm (R148). -/
def State.jumpDiscard (s : State) (a : Nat) : State :=
  let t := s.setSide a (fun x => { x with
    discards := s.ts.meas :: x.discards.filter (fun d => decide (s.ts.meas ≤ d + secs 60)) })
  t.when (decide (3 ≤ (t.side a).discards.length)) (fun t => t.alarm a 5)

/-! ### A solution (R139 to R144) -/

/-- The stated bound of a solution (R143). -/
def statedBound (status sigma : Nat) : Nat :=
  3 * sigma + (if status = 4 then 3000 else if status = 3 then 15000 else 50000)

/-- A survey that meets time and accuracy is complete (R145). -/
def State.surveyDone (s : State) (v : Survey) : Bool :=
  decide (s.f A.gnsSurveyTime 0 20 ≤ s.surveyElapsed v) && decide (s.surveySigma v ≤ s.f A.gnsSurveyAcc 0 14)

/-- One epoch of a running survey (R145): the position solution is averaged. -/
def Survey.add (v : Survey) (p : Int × Int × Int) (ionoFree : Bool) : Survey :=
  { v with
    n := v.n + 1
    sx := v.sx + p.1
    sy := v.sy + p.2.1
    sz := v.sz + p.2.2
    sq := v.sq + dist2 p (0, 0, 0)
    ionoFree := ionoFree }

/-- The registers that show a survey: phase, elapsed time, sigma. -/
def State.showSurvey (s : State) (a : Nat) (v : Survey) : State :=
  let t := s.surveyElapsed v
  ((s.sfW (A.gnsSideStatus a) 6 2 (if t < s.f A.gnsSurveyTime 0 20 then 1 else 2)).sfW (A.gnsSideSurveyElapsed a) 0 21 t).wr
    (A.gnsSideSurveySigma a) (satU32 (s.surveySigma v))

/-- The survey takes an epoch's position solution; when it is complete, its mean waits for the next whole second (R145). -/
def State.surveyEpoch (s : State) (a : Nat) (p : Option (Int × Int × Int)) (ionoFree : Bool) : State :=
  match (s.side a).survey, p with
  | some v, some q =>
    if v.done.isSome then s
    else
      let w := v.add q ionoFree
      let w := if s.surveyDone w then { w with done := some (nextMultiple s.nowNs 1000000000, w.mean, s.surveySigma w) } else w
      (s.setSide a (fun x => { x with survey := some w })).showSurvey a w
  | _, _ => s

/-- Each running side latches its channels at a whole second (R139); a replaying side at its sample of that instant (R156). -/
def State.gnssLatch (s : State) : State :=
  let t := { s with gnss := { s.gnss with epoch := s.gnss.epoch + 1 } }
  t.each [0, 1] (fun a u =>
    if u.bit A.gnsStatus a && (u.side a).loadingUntil.isNone then
      let at_ : Int := match u.gnss.replay with
        | some p => if u.sideReplaying a then qdiv (p.first * 1000) 65536 + qdiv ((u.ts.meas - p.since) * 1000) (2 ^ 48) else u.nowPs
        | none => u.nowPs
      u.setSide a (fun x => { x with latch := some ⟨at_, u.ts.meas, u.gnss.epoch⟩ })
    else u)

/-- A step moves the instants of epochs latched and not yet solved with the timescale (R40). -/
def State.gnssStepped (s : State) (amount : Int) : State :=
  s.each [0, 1] (fun a t => t.when (!(t.sideReplaying a)) (fun u => u.setSide a (fun x =>
    { x with latch := x.latch.map (fun l => { l with at_ := l.at_ + amount * 1000 }) })))

/-- A channel tracks, so that its measurements count. -/
def State.tracks (s : State) (a : Nat) (o : ChanObs) : Bool :=
  decide (o.chan < 160) && decide (3 ≤ s.chanState a o.chan) && decide (s.chanSignal a o.chan ≠ 0) && !(s.chanFenced a o.chan)

/-- The loops of the tracking channels take an epoch's measurements. -/
def State.takeObs (s : State) (a : Nat) (l : List ChanObs) : State :=
  s.each (l.filter (s.tracks a)) (fun o t =>
    t.setLoop a o.chan ((t.chanLoop a o.chan).next o (lossThreshold (t.chanSignal a o.chan)) t.ts.meas))

/-- The ranges of the tracking channels at a latch (R140, R141, R144). -/
def State.rangings (s : State) (a : Nat) (latch : GnssLatch) (l : List ChanObs) : List Ranging :=
  (l.filter (s.tracks a)).map (fun o =>
    let g := s.chanSignal a o.chan
    let l5 : Bool := match signalOf g with
      | some r => r.l5
      | none => false
    ⟨o, g, s.chanSv a o.chan, latch.at_ - (s.chanLoop a o.chan).code - s.toTai (g / 16) - s.bandDelay a l5 - o.group⟩)

/-- A measurement passes both masks (R133). -/
def State.passesMasks (s : State) (r : Ranging) : Bool :=
  decide (s.f A.gnsMask 0 6 ≤ r.obs.elev) && decide (s.f A.gnsMask 8 6 * 10 ≤ r.obs.cn0)

/-- A measurement may be used (R129, R133): both masks, a current ephemeris, an enabled constellation other than SBAS. -/
def State.rangeUsable (s : State) (a : Nat) (r : Ranging) : Bool :=
  s.passesMasks r && s.ephemCurrent a r.key && s.constOn (r.signal / 16) && decide (r.signal / 16 < 5)

/-- The exclusion of a measurement's satellite or constellation (R149). -/
def GnssSide.exclusionOf (x : GnssSide) (r : Ranging) : Option Exclusion :=
  x.excl.find? (fun e => (!e.const && decide (e.key = r.key)) || (e.const && decide (e.key = r.signal / 16)))

/-- The clock unknowns C (R140): one for each enabled constellation, QZSS with GPS. -/
def State.clockUnknowns (s : State) : Nat :=
  b2n (s.constOn 0 || s.constOn 4) + b2n (s.constOn 1) + b2n (s.constOn 2) + b2n (s.constOn 3)

/-- The satellites of measurements used as pairs. -/
def dualCount (p : Int × Int × Int) (l : List Ranging) : Nat := ((satellites l).filter (fun k => (pairRange p l k).isSome)).length

/-- What an epoch gives: the measurements that may be used, those in the solution, the channels that RAIM left out, how many ranges
that was, the status, the solution, the instantaneous position solution. -/
structure Epoch where
  good : List Ranging
  kept : List Ranging
  raim : List Nat
  outliers : Nat
  status : Nat
  fix : Option GnssFix
  place : Option GnssFix

/-- The solution of an epoch (R141, R142, R148): solved once, then without the ranges that RAIM leaves out. -/
def State.solveEpoch (s : State) (a : Nat) (point : Int × Int × Int) (l : List Ranging) : Epoch :=
  let held := s.posInForce a
  let p := if held then s.sidePos a else point
  let good := l.filter (s.rangeUsable a)
  let mine := good.filter (fun r => ((s.side a).exclusionOf r).isNone)
  let status : List Ranging → Nat := fun m => s.solnStatus a (satellites m).length (dualCount p m) s.clockUnknowns
  let solve : List Ranging → Option GnssFix := fun m => solveRanges (!held) p (s.rangesOf a p (decide (status m = 4)) m)
  let out := match solve mine with
    | some x => x.outliers
    | none => []
  let raim := out.flatMap (fun g => g.chans)
  let kept := mine.filter (fun r => !(raim.contains r.obs.chan))
  let fix := solve kept
  ⟨good, kept, raim, out.length, status kept, fix,
    if held then solveRanges true p (s.rangesOf a p false kept) else fix⟩

/-- The correction towards UTC(k) in ps (R140): A0 + A1 dt of TIMEREF's message, where UTC_ALIGN asks for it and one was received. -/
def State.utcCorrection (s : State) (a : Nat) : Int :=
  match (s.side a).utcPar.find? (fun u => decide (u.1 = s.f A.gnsCfg 8 2)) with
  | some u => if s.bit A.gnsCfg 10 then
      qdiv ((u.2.1 + u.2.2.1 * ((s.nowNs / 1000000000 : Nat) - (u.2.2.2 : Int))) * 1000000000000) (2 ^ 50) else 0
  | none => 0

/-- theta of a solution (R140): the time of TIMEREF, converted, minus the timescale. -/
def State.solutionTheta (s : State) (a : Nat) (x : GnssFix) : Option Int :=
  (x.clock (s.f A.gnsCfg 8 2)).map (fun b => s.utcCorrection a - b)

/-- The constellations' own clocks against the combined solution (R140, R148), at the position of the epoch's solution. -/
def State.ownClocks (s : State) (a : Nat) (e : Epoch) : List (Option Int) :=
  match e.fix with
  | none => List.replicate 4 none
  | some x =>
    let l := s.rangesOf a x.position false (e.good.filter (fun r => !((s.side a).excluded false r.key)))
    let own := [0, 1, 2, 3].map (ownClock x.position l)
    own.map (fun o => o.map (fun v => v - Config.combinedClock own))

/-- The ionospheric delay of each pair in mm (R148). -/
def ionoDelays (l : List Ranging) : List (Nat × Int) :=
  l.filterMap (fun r => (pairOf l r).map (fun q =>
    (r.key, qdiv ((q.range - r.range) * -(f5Square * 299792458 : Nat)) ((f1Square - f5Square) * 1000000000))))

/-- One channel's status words at an epoch (R158). -/
def State.putChan (s : State) (a : Nat) (e : Epoch) (r : Ranging) : State :=
  let ex := (s.side a).exclusionOf r
  let range := e.fix.bind (fun x => x.ranges.find? (fun g => g.chans.contains r.obs.chan))
  let reason := match ex with
    | some x => (if x.check = 9 then 4 else x.check)
    | none => if e.raim.contains r.obs.chan then 1 else if s.passesMasks r then 0 else 5
  let resid : Int := match e.fix, range with
    | some x, some g => qdiv (x.residual g * 299792458) 1000000000
    | _, _ => 0
  let w := chanWord a r.obs.chan
  let t := (((s.sfW w 19 1 (b2n (range.isSome && decide (e.status ≠ 0)))).sfW w 20 1 (b2n ex.isSome)).sfW w 21 3 reason).wr (w + 4)
    (word (min r.obs.cn0 1023 + r.obs.elev % 128 * 2 ^ 16 + r.obs.azim % 512 * 2 ^ 23))
  (t.wr (w + 8) (wordOfInt resid)).wr (w + 12) (word (min (s.f (w + 12) 0 16 + 1) 65535))

/-- The AGC gains of a side's bands in 0.1 dB. -/
def State.gains (s : State) (a : Nat) : List Nat := [s.f (A.gnsSideRfL1 a) 0 10, s.f (A.gnsSideRfL5 a) 0 10]

/-- POWER's second condition (R148): against some epoch of the last 10 s, C/N0 is 6 dB higher on at least 4 satellites in a band whose
AGC gain fell by 3 dB. -/
def powerRise (old : List (Nat × List (Nat × Nat × Nat) × List Nat)) (now : List (Nat × Nat × Nat)) (gain : List Nat) : Bool :=
  old.any (fun h => [0, 1].any (fun b =>
    decide (gain.getD b 0 + 30 ≤ h.2.2.getD b 0) &&
    decide (4 ≤ ((now.filter (fun n => decide (b2n (match signalOf n.2.1 with | some g => g.l5 | none => false) = b) &&
      h.2.1.any (fun m => decide (m.1 = n.1) && decide (m.2.1 = n.2.1) && decide (m.2.2 + 60 ≤ n.2.2)))).map (fun n => n.1)).eraseDups.length)))

/-- XSIG's condition (R148) on a pair's delay in mm: outside its band, or changed by more than 0.5 m since the last epoch's delays. -/
def xsigTrips (tol : Int) (last : List (Nat × Int)) (i : Nat × Int) : Bool :=
  decide (i.2 < -tol) || decide (60000 + tol < i.2) || last.any (fun p => decide (p.1 = i.1) && decide (500 < (i.2 - p.2).natAbs))

/-- The checks of an epoch (R148) on the measurements of a side, XANT and DIR excepted. -/
def State.runChecks (s : State) (a epoch : Nat) (l : List Ranging) (e : Epoch) : State :=
  let tol : Int := s.f A.gnsXsigTol 0 6 * 1000
  let iono := ionoDelays e.good
  let x := s.side a
  let t := s.when (s.checkOn 0) (fun t => t.svTripped a 0 3 ((iono.filter (fun i => xsigTrips tol
    (if x.epoch + 1 = epoch then x.iono else []) i)).map (fun i => i.1)).eraseDups)
  let t := t.when (s.checkOn 7) (fun t => t.svTripped a 7 30
    ((e.good.filter (fun r => decide (150 < r.obs.earlyLate.natAbs))).map Ranging.key).eraseDups)
  let t := t.xcon a (s.ownClocks a e)
  let t := match e.place with
    | some p => t.tripped a 4 10 (t.checkOn 4 && t.posInForce a &&
        decide ((s.f A.gnsPosTol 0 13 * 100) ^ 2 < dist2 p.position (t.sidePos a)))
    | none => t
  let high := (satellites (l.filter (fun r => decide (s.f A.gnsCn0High 0 6 * 10 < r.obs.cn0)))).length
  let now := l.map (fun r => (r.key, r.signal, r.obs.cn0))
  let old := x.strength.filter (fun h => decide (s.ts.meas ≤ h.1 + secs 10))
  let t := t.tripped a 6 5 (t.checkOn 6 && (decide (4 ≤ high) || powerRise old now (s.gains a)))
  t.setSide a (fun y => { y with
    iono := iono
    strength := (s.ts.meas, now, s.gains a) :: old })

/-- XANT and DIR, once both sides have completed the same epoch (R148). -/
def State.pairChecks (s : State) (l : List (Nat × Nat × Nat × Nat)) : State :=
  if (s.side 0).epoch = (s.side 1).epoch then (s.xant).dirCheck l else s

/-- Used satellites of a constellation. -/
def usedOf (l : List Ranging) (system : Nat) : Nat := ((satellites l).filter (fun k => decide (k / 256 = system))).length

/-- The measurements that enter a solution. -/
def Epoch.entered (e : Epoch) : List Ranging :=
  match e.fix with
  | some x => e.kept.filter (fun r => x.ranges.any (fun g => g.chans.contains r.obs.chan))
  | none => []

/-- The words of a solution that THETA_LO latches (R143, R158). -/
def State.putSolution (s : State) (a : Nat) (e : Epoch) (x : GnssFix) (theta : Int) : State :=
  let ref := s.f A.gnsCfg 8 2
  let l := e.entered
  s.setSide a (fun y => { y with
    theta := theta
    bound := statedBound e.status (x.sigmaClock ref)
    tdop := x.tdop ref
    svUsed := min (usedOf l 0) 31 + min (usedOf l 1) 31 * 2 ^ 5 + min (usedOf l 2) 31 * 2 ^ 10 + min (usedOf l 3) 31 * 2 ^ 15 +
      min (usedOf l 4) 15 * 2 ^ 20 + min (dualCount x.point l) 31 * 2 ^ 24
    intersys := y.own })

/-- A side completes the solution of an epoch within 500 ms of its latch (R139): channels, status, theta, bound, checks, survey,
delivery to REF. -/
def State.solveLatched (s : State) (a : Nat) (m : GnssSolution) (la : GnssLatch) : State :=
  let t := (s.setSide a (fun x => { x with latch := none })).takeObs a m.obs
  let l := t.rangings a la m.obs
  let e := t.solveEpoch a m.point l
  let theta := e.fix.bind (t.solutionTheta a)
  let jump : Bool := match theta with
    | some v => t.jumped a la.epoch v
    | none => false
  let u := t.runChecks a la.epoch l e
  let u := u.setSide a (fun x => { x with
    epoch := la.epoch
    prev := (theta.map (fun v => (la.epoch, v))).orElse (fun _ => x.prev)
    posKnown := x.posKnown || (match e.fix with
      | some f => f.free && f.within100km
      | none => false) })
  let u := (u.showInhibit).pairChecks m.dir
  let u := u.each l (fun r v => v.putChan a e r)
  let u := (u.sfW (A.gnsSideStatus a) 12 3 e.status).sfW (A.gnsSideStatus a) 16 8 (satellites e.entered).length
  let u := u.surveyEpoch a (e.place.map GnssFix.position) (match e.place with
    | some f => f.ranges.any (fun g => g.pair)
    | none => false)
  if decide (3 < e.outliers) || jump then (u.inc (A.gnsSideDiscardCount a)).when jump (fun v => v.jumpDiscard a)
  else
    match e.fix, theta with
    | some x, some v =>
      if e.status = 0 then u
      else ((u.putSolution a e x v).inc (A.gnsSideSolutionCount a)).when (!(u.sideSilent a)) (fun w => w.deliver a v)
    | _, _ => u

/-- GNSS_SOLUTION_DONE: the side allocates its channels for the signals it expects (R132), then solves the epoch that it latched. -/
def State.solutionDone (s : State) (a : Nat) (m : GnssSolution) : State :=
  if s.bit A.gnsStatus a then
    let t := s.allocate a m.sky
    match (t.side a).latch with
    | some h => if t.ts.meas ≤ h.meas + secs 1 / 2 then t.solveLatched a m h else t
    | none => t
  else s

/-- The full-width read of THETA_LO latches the page's solution (R158). -/
def State.latchTheta (s : State) (a : Nat) : State :=
  let x := s.side a
  let svs := (x.excl.filter (fun e => !e.const)).length
  let cons := (List.range 5).foldl (fun n i => n + b2n (x.excluded true i) * 2 ^ (8 + i)) 0
  let t := (((((s.wr64 (A.gnsSideThetaLo a) x.theta).wr (A.gnsSideBound a) (satU32 x.bound)).wr (A.gnsSideTdop a)
    (word (min x.tdop 65535))).wr (A.gnsSideSvUsed a) (word x.svUsed)).wr (A.gnsSideAlarm a) (word x.alarms)).wr
    (A.gnsSideExcl a) (word (min svs 255 + cons))
  t.each [0, 1, 2, 3] (fun j u => u.wr (A.gnsSideIntersys a j) (match x.intersys.getD j none with
    | some v => sat32 v
    | none => 0x80000000))

/-! ### Hot-start record (R135) -/

/-- What a side puts into the hot-start record; the satellites of its channels, or before it has any those of the record it loaded. -/
def State.hotSide (s : State) (a : Nat) : HotSide :=
  let x := s.side a
  let l := ((List.range 160).filterMap (fun c =>
    if s.chanSignal a c = 0 then none else some (satKey (s.chanSignal a c) (s.chanSv a c)))).eraseDups
  ⟨x.ephem, x.almanac, x.ionoPar, x.utcPar, if l.isEmpty then x.sats else l⟩

/-- Writing the hot-start record to flash. -/
def State.writeHotStart (s : State) : State := { s with gnss := { s.gnss with hotStart := some [s.hotSide 0, s.hotSide 1] } }

/-- The half-hourly hot-start record, while either side reports T_SINGLE or T_DUAL. -/
def State.hotStartDue (s : State) : State :=
  if s.gnss.hotStartAt ≤ s.ts.meas ∧ (3 ≤ s.f (A.gnsSideStatus 0) 0 3 ∨ 3 ≤ s.f (A.gnsSideStatus 1) 0 3) then
    let t := s.writeHotStart
    { t with gnss := { t.gnss with hotStartAt := t.ts.meas + secs 1800 } }
  else s

/-- Loading the hot-start record at start-up step 9: nothing where it is absent or bad, and both sides start COLD. -/
def State.loadHotStart (s : State) : State :=
  let l := s.gnss.hotStart.getD []
  s.each [0, 1] (fun a t =>
    let h := l.getD a ⟨[], none, [], [], []⟩
    t.setSide a (fun x => { x with
      ephem := h.ephem
      almanac := h.almanac
      ionoPar := h.iono
      utcPar := h.utc
      sats := h.sats }))

/-! ### Positions and surveys (R145 to R147) -/

/-- A position in force on a side (R145, R147, R470). -/
def State.putPosition (s : State) (a : Nat) (p : Int × Int × Int) (sigma : Nat) (fixed : Bool) : State :=
  let t := (((s.wr (A.gnsSidePosX a) (wordOfInt p.1)).wr (A.gnsSidePosY a) (wordOfInt p.2.1)).wr (A.gnsSidePosZ a)
    (wordOfInt p.2.2)).wr (A.gnsSidePosSigma a) (satU32 sigma)
  let t := (t.setBit (A.gnsSideStatus a) 4 true).setBit (A.gnsSideStatus a) 5 fixed
  t.setSide a (fun x => { x with posKnown := true })

/-- Removing the position in force (R147). -/
def State.clearPosition (s : State) (a : Nat) : State :=
  ((((s.wr (A.gnsSidePosX a) 0).wr (A.gnsSidePosY a) 0).wr (A.gnsSidePosZ a) 0).wr (A.gnsSidePosSigma a) 0xFFFFFFFF).sfW
    (A.gnsSideStatus a) 4 2 0

/-- The progress record of a running survey with its partial result, every 60 s (R146). -/
def State.surveyReport (s : State) (a : Nat) : State :=
  match (s.side a).survey with
  | none => s
  | some v =>
    if v.reportAt ≤ s.ts.meas then
      let t := s.surveyRecord a v (if s.surveyElapsed v < s.f A.gnsSurveyTime 0 20 then 1 else 2) 0xFF (s.surveyProgress v)
      t.setSide a (fun x => { x with survey := some { v with seq := v.seq + 1, reportAt := v.reportAt + secs 60 } })
    else s

/-- Starting a survey (R145, R146). -/
def State.surveyStart (s : State) (a prog buf : Nat) : State :=
  let v : Survey := ⟨s.ts.meas, 0, 0, 0, 0, 0, prog, buf, 1, false, s.ts.meas + secs 60, none⟩
  (s.setSide a (fun x => { x with survey := some v })).showSurvey a v

/-- The whole second after a survey's completion: the mean in force, the final progress record, the hot-start record (R145, R146). -/
def State.surveyComplete (s : State) (a : Nat) : State :=
  match (s.side a).survey with
  | none => s
  | some v =>
    match v.done with
    | some (at_, mean, sigma) => if at_ ≤ s.nowNs then ((s.endSurvey a 0).putPosition a mean sigma false).writeHotStart else s
    | none => s

/-- A survey still incomplete at SURVEY_MAX (R145). -/
def State.surveyTimeout (s : State) (a : Nat) : State :=
  match (s.side a).survey with
  | none => s
  | some v => if s.f A.gnsSurveyMax 0 21 ≤ s.surveyElapsed v ∧ v.done.isNone = true then s.endSurvey a 0x40 else s

/-! ### Snapshots and replay (R154 to R156) -/

/-- What an unlisted byte of the snapshot region reads as: nothing written, or a sample of a capture. -/
def snapByte (base a : Nat) : Byte := if base = 0 then 0 else Config.capturedByte base a

/-- A byte of the snapshot region. -/
def State.snapRead (s : State) (a : Nat) : Byte := CellList.get (snapByte s.gnss.snapBase) s.gnss.snapMem a

/-- Writing bytes into the snapshot region. -/
def State.snapWrite (s : State) (off : Nat) (d : Bytes) : State :=
  let base := s.gnss.snapBase
  { s with gnss := { s.gnss with snapMem :=
      (d.mapIdx (fun i b => (off + i, b))).foldl (fun m e => CellList.set (snapByte base) m e.1 e.2) s.gnss.snapMem } }

/-- SNAP_STATE in both registers: 0 IDLE, 1 ARMED, 2 CAPTURING, 3 DONE, 4 ABORTED. -/
def State.setSnap (s : State) (st : Nat) : State := (s.sfW A.gnsStatus 4 3 st).sfW A.gnsSnapStatus 0 3 st

/-- SNAP_STATE. -/
def State.snapState (s : State) : Nat := s.f A.gnsStatus 4 3

/-- The bytes per ms of a stream (R154). -/
def streamRate (i : Nat) : Nat := if i % 2 = 0 then 61440 else 30720

/-- The streams of a mask. -/
def streamsOf (m : Nat) : List Nat := (List.range 4).filter (fun i => m.testBit i)

/-- Byte offsets of the streams, each 4 KiB aligned, for `ms` of capture (R155). -/
def streamOffsets (m ms : Nat) : List (Nat × Nat) :=
  ((streamsOf m).foldl (fun (p : Nat × List (Nat × Nat)) i =>
    (ceilDiv (p.1 + streamRate i * ms) 4096 * 4096, p.2 ++ [(i, p.1)])) (4096, [])).2

/-- What a header says of the present instant (R155): timescale state, radius, AGC gains in 0.01 dB. -/
def State.snapNow (s : State) : SnapContext :=
  ⟨s.ts.meas, s.tscMode, s.ts.rho, (s.gains 0 ++ s.gains 1).map (fun g => g * 10)⟩

/-- T_FIRST at the antenna connector, through RXDLY of the first stream (R155). -/
def State.atConnector (s : State) (m first : Nat) : Nat :=
  let i := (streamsOf m).headD 0
  ((first : Int) - qdiv (s.sf (if i % 2 = 0 then A.gnsSideRxdlyL1 (i / 2) else A.gnsSideRxdlyL5 (i / 2)) 0 32 * 65536) 1000).toNat

/-- The 128-byte header of a snapshot (R155): trigger code, T_FIRST and T_TRIGGER in 2^-16 ns, ms held. -/
def State.snapHeader (s : State) (trigger tFirst tTrigger ms : Nat) : Bytes :=
  let m := fld s.gnss.snapCfg 0 4
  let off := streamOffsets m ms
  let offOf : Nat → Nat := fun i => match off.find? (fun e => decide (e.1 = i)) with
    | some e => e.2
    | none => 0
  let c := s.gnss.snapContext
  let h := le 4 0x47534E50 ++ le 2 1 ++ le 1 m ++ le 1 trigger ++ taiLe tFirst ++ taiLe tTrigger ++ le 1 c.mode ++ zeros 3 ++
    le 4 c.rho ++ zeros 8 ++
    ([0, 1, 2, 3].flatMap (fun i => le 4 (if m.testBit i then streamRate i * ms else 0))) ++
    ([0, 1, 2, 3].flatMap (fun i => le 2 (if m.testBit i then c.agc.getD i 0 else 0))) ++ zeros 8 ++
    ([0, 1, 2, 3].flatMap (fun i => le 4 (offOf i))) ++ zeros 28
  h ++ le 4 (crc32 h)

/-- HEADER_OK follows the header in the region, and what SNAP_STATUS holds of a good header: its streams and their length (R155, R340). -/
def State.checkHeader (s : State) : State :=
  let h := (List.range 128).map s.snapRead
  let m := leAt h 6 1 % 16
  let i := (streamsOf m).headD 0
  if leAt h 0 4 = 0x47534E50 ∧ leAt h 124 4 = crc32 (slice h 0 124) then
    ((s.setBit A.gnsSnapStatus 3 true).sfW A.gnsSnapStatus 4 4 m).sfW A.gnsSnapStatus 8 14
      (min 16383 (leAt h (48 + 4 * i) 4 / streamRate i))
  else s.setBit A.gnsSnapStatus 3 false

/-- The capture ends with `ms` held and its header is written (R154, R155). -/
def State.snapFinish (s : State) (trigger ms st : Nat) : State :=
  let m := fld s.gnss.snapCfg 0 4
  let t := { s with gnss := { s.gnss with snapBase := s.gnss.snapBase + 1, snapMem := [], snapEnd := none, snapHist := [] } }
  let first := s.atConnector m s.gnss.snapFirst
  let trigAt := match s.gnss.snapEvent with
    | some e => if trigger = 0 then first else e.2.1
    | none => first
  let t := t.snapWrite 0 (s.snapHeader trigger first trigAt ms)
  (((t.setSnap st).sfW A.gnsSnapStatus 4 4 m).sfW A.gnsSnapStatus 8 14 ms).checkHeader.raise A.gnsEvent 1

/-- Arming a capture (R154); a circular buffer begins at once. -/
def State.snapArm (s : State) : State :=
  let at_ := (s.f A.gnsSnapAtSecLo 0 32 + 2 ^ 32 * s.f A.gnsSnapAtSecHi 0 16) * 1000000000 + s.f A.gnsSnapAtNs 0 30
  ({ s with gnss := { s.gnss with
    snapCfg := s.rd A.gnsSnapCfg
    snapPre := s.f A.gnsSnapPre 0 14
    snapAt := at_
    snapEvent := none
    snapEnd := none
    snapSince := s.ts.meas
    snapFirst := s.stamp
    snapContext := s.snapNow
    snapHist := [] } }).setSnap 1

/-- A millisecond on the measurement scale. -/
def msecs (n : Nat) : Nat := n * 1000000 * 2 ^ 48

/-- While a circular buffer runs, what a header would say of each instant is kept, as far back as the longest capture (R154, R155). -/
def State.snapKeep (s : State) : State :=
  if s.snapState = 1 ∧ fld s.gnss.snapCfg 4 2 ≠ 0 then
    { s with gnss := { s.gnss with snapHist := s.snapNow :: s.gnss.snapHist.filter (fun c => decide (s.ts.meas ≤ c.at_ + msecs 11651)) } }
  else s

/-- What a header says of an instant of the buffer. -/
def State.snapAtInstant (s : State) (meas : Nat) : SnapContext :=
  (s.gnss.snapHist.find? (fun c => decide (c.at_ ≤ meas))).getD s.gnss.snapContext

/-- The samples from an instant of the measurement scale on are kept: T_FIRST and its context. -/
def State.snapFrom (s : State) (meas : Nat) : State :=
  { s with gnss := { s.gnss with
    snapContext := s.snapAtInstant meas
    snapSince := meas
    snapFirst := s.stamp - (s.ts.meas - meas) / 2 ^ 32 } }

/-- The trigger of an armed capture (R154): the AT instant starts it; the first qualifying event fixes its end, LENGTH - SNAP_PRE
later, and its start, SNAP_PRE earlier or as far back as the buffer goes. -/
def State.snapTrigger (s : State) : State :=
  let kind := fld s.gnss.snapCfg 4 2
  let len := fld s.gnss.snapCfg 8 14
  if s.snapState ≠ 1 then s
  else if kind = 0 then
    (if s.gnss.snapAt ≤ s.nowNs then
      ({ s with gnss := { s.gnss with
        snapEnd := some (s.ts.meas + msecs len)
        snapSince := s.ts.meas
        snapFirst := s.stamp
        snapContext := s.snapNow } }).setSnap 2
     else s)
  else
    match s.gnss.snapEvent with
    | some (_, _, at_) =>
      let t := s.snapFrom (max s.gnss.snapSince (at_ - msecs s.gnss.snapPre))
      ({ t with gnss := { t.gnss with snapEnd := some (at_ + msecs (len - s.gnss.snapPre)) } }).setSnap 2
    | none => s

/-- The ms of samples since the first one. -/
def State.snapHeld (s : State) (until_ : Nat) : Nat := min (fld s.gnss.snapCfg 8 14) ((until_ - s.gnss.snapSince) / msecs 1)

/-- The capture's end (R154). -/
def State.snapCaptureEnd (s : State) : State :=
  match s.gnss.snapEnd with
  | some e =>
    if s.snapState = 2 ∧ e ≤ s.ts.meas then
      s.snapFinish (match s.gnss.snapEvent with
        | some v => v.1
        | none => 0) (s.snapHeld e) 3
    else s
  | none => s

/-- Ending a capture early (R154): the samples taken stay, none of a capture that its instant has not started, the last of a circular
buffer; the header marks the abort. -/
def State.snapAbort (s : State) : State :=
  let kind := fld s.gnss.snapCfg 4 2
  if s.snapState = 2 then s.snapFinish 3 (s.snapHeld s.ts.meas) 4
  else if s.snapState = 1 then
    (if kind = 0 then s.snapFinish 3 0 4
     else
      let t := s.snapFrom (max s.gnss.snapSince (s.ts.meas - msecs (fld s.gnss.snapCfg 8 14)))
      t.snapFinish 3 (t.snapHeld t.ts.meas) 4)
  else s

/-- A timescale value of a record as a count of 2^-16 ns (R19). -/
def ofTai (b : Bytes) (off : Nat) : Nat := (leAt b (off + 6) 6 * 1000000000 + leAt b (off + 2) 4) * 65536 + leAt b off 2

/-- Replay begins on a side, from the snapshot's header (R156). -/
def State.replayStart (s : State) (a : Nat) : State :=
  let h := (List.range 128).map s.snapRead
  let ms := leAt h (48 + 8 * a) 4 / streamRate 0
  let t := ((s.setBit A.gnsStatus (2 + a) true).setBit (A.gnsSideStatus a) 10 true).setSide a (fun x => { x with latch := none })
  { t with gnss := { t.gnss with replay := some ⟨t.ts.meas, t.ts.meas + msecs ms, ofTai h 8⟩ } }

/-- The sample that a replay feeds to a side's band at an instant of the measurement scale, where its header holds that stream (R156):
its byte and its instant in 2^-16 ns, T_FIRST plus its index over the rate. -/
def State.replaySample (s : State) (a band meas : Nat) : Option (Byte × Nat) :=
  match s.gnss.replay with
  | none => none
  | some p =>
    let i := 2 * a + band
    let n := (meas - p.since) * streamRate i / msecs 1
    let count := ofLe ((List.range 4).map (fun k => s.snapRead (48 + 4 * i + k)))
    let off := ofLe ((List.range 4).map (fun k => s.snapRead (80 + 4 * i + k)))
    if n < count then some (s.snapRead (off + n), p.first + n * 1000000 * 65536 / streamRate i) else none

/-- Replay ends on a side, which starts from live signals (R156). -/
def State.replayStop (s : State) (a : Nat) : State :=
  if s.sideReplaying a then
    let t := (s.setBit A.gnsStatus (2 + a) false).setBit (A.gnsSideStatus a) 10 false
    ({ t with gnss := { t.gnss with replay := none } }).startSide a
  else s

/-- The end of the snapshot ends the replay (R156). -/
def State.replayDue (s : State) (a : Nat) : State :=
  match s.gnss.replay with
  | some p => if p.endAt ≤ s.ts.meas then s.replayStop a else s
  | none => s

/-! ### Interference and bias (R151, R152) -/

/-- The antenna bias current of a side (R152): OPEN below 3 mA, OK up to 90 mA; above, SHORT: bias off, retried after 10 s. -/
def State.biasCurrent (s : State) (a ma : Nat) : State :=
  if 90 < ma then
    ((s.wr (A.gnsSideBias a) (word (3 + min ma 127 * 2 ^ 8))).setSide a (fun x => { x with biasRetry := some (s.ts.meas + secs 10) })).raise
      (A.gnsSideEvent a) 6
  else (s.wr (A.gnsSideBias a) (word ((if ma < 3 then 2 else 1) + ma * 2 ^ 8))).setSide a (fun x => { x with biasRetry := none })

/-- The bias current of a side whose bias is on rises above 90 mA (R152). -/
def State.biasShort (s : State) (a ma : Nat) : State :=
  s.when (decide (90 < ma) && (decide (s.f (A.gnsSideBias a) 0 2 = 1) || decide (s.f (A.gnsSideBias a) 0 2 = 2))) (fun t =>
    t.biasCurrent a ma)

/-- A spectrum of one band of a side (R151): notches placed and released, jamming; the bias current is seen with it (R152). -/
def State.spectrum (s : State) (a band : Nat) (o : RfiObs) : State :=
  let thr := s.f A.gnsRfiCfg 8 5
  let strong := if s.bit A.gnsRfiCfg 0 then o.peaks.filter (fun p => decide (thr ≤ p.2)) else []
  let old := (s.side a).notches
  let mine := old.filter (fun n => decide (n.1 = band))
  let kept := (mine.filter (fun n => strong.any (fun p => decide (p.1 = n.2.1)) || decide (s.ts.meas < n.2.2 + secs 1))).map
    (fun n => if strong.any (fun p => decide (p.1 = n.2.1)) then (n.1, n.2.1, s.ts.meas) else n)
  let fresh := (strong.filter (fun p => !(kept.any (fun n => decide (n.2.1 = p.1))))).map (fun p => (band, p.1, s.ts.meas))
  let now := (kept ++ fresh).take 4
  let t := s.setSide a (fun x => { x with notches := old.filter (fun n => decide (n.1 ≠ band)) ++ now })
  let moved := decide (now.map (fun n => n.2.1) ≠ mine.map (fun n => n.2.1))
  let t := t.when moved (fun t => t.raise (A.gnsSideEvent a) 7)
  let t := (t.sfW (A.gnsSideRfi a) (3 * band) 3 now.length).sfW (A.gnsSideRfi a) 8 8 (if s.bit A.gnsRfiCfg 1 then min o.blank 255 else 0)
  let rf := if band = 0 then A.gnsSideRfL1 a else A.gnsSideRfL5 a
  let t := t.wr rf (word (min o.gain 600 + min o.floor 63 * 2 ^ 16))
  let jam := decide (s.f A.gnsRfiCfg 16 5 < o.floor)
  let t := t.when (jam && !((s.side a).jammed.getD band false)) (fun t => (t.raise (A.gnsSideEvent a) 5).snapQualify 2)
  let t := t.setSide a (fun x => { x with jammed := x.jammed.set band jam })
  t.when (decide (t.f (A.gnsSideBias a) 0 2 = 1) || decide (t.f (A.gnsSideBias a) 0 2 = 2)) (fun u => u.biasCurrent a o.biasMa)

/-- A retry of the bias 10 s after a SHORT (R152). -/
def State.biasRetry (s : State) (a ma : Nat) : State :=
  match (s.side a).biasRetry with
  | some t => if t ≤ s.ts.meas ∧ s.sideEnabled a ∧ s.bit (A.gnsSideAntCfg a) 1 then s.biasCurrent a ma else s
  | none => s

/-! ### Navigation records (R136 to R138) -/

/-- The 160-byte record of a message (R137): its length in bits and its check are those of its kind. -/
def State.navRecord (s : State) (a : Nat) (m : NavMessage) (nbits check : Nat) : Bytes :=
  let g := s.chanSignal a m.chan
  let sv := s.chanSv a m.chan
  let flags := b2n (s.sideReplaying a) + 2 * b2n ((s.side a).excluded false (satKey g sv) || (s.side a).excluded true (g / 16)) +
    4 * b2n (decide ((s.side a).alarms ≠ 0))
  le 2 160 ++ le 1 1 ++ le 1 1 ++ le 1 g ++ le 1 sv ++ le 1 a ++ le 1 m.kind ++ le 2 m.chan ++ le 2 nbits ++
  le 1 check ++ le 1 m.result ++ le 2 (if check = 1 ∨ check = 3 ∨ check = 4 then m.words else 0) ++ taiLe m.tFirst ++ le 2 m.cn0 ++
  le 1 flags ++ zeros 1 ++ firstBits nbits m.payload

/-- A leap announcement decoded from a satellite (R138): learnt with three satellites or two constellations. -/
def State.leapVote (s : State) (key : Nat) (sec : Nat) (offset : Int) : State :=
  let old := match s.gnss.votes.find? (fun v => decide (v.1 = sec) && decide (v.2.1 = offset)) with
    | some v => v.2.2
    | none => []
  let new := if old.contains key then old else key :: old
  let t := { s with gnss := { s.gnss with votes :=
    (sec, offset, new) :: s.gnss.votes.filter (fun v => !(decide (v.1 = sec) && decide (v.2.1 = offset))) } }
  let enough := decide (3 ≤ new.length) || new.any (fun k => new.any (fun j => decide (k / 256 ≠ j / 256)))
  t.when (enough && decide (new ≠ old)) (fun t => (t.learnLeap sec offset 1).raise A.gnsEvent 3)

/-- What a side learns from a message that passed its check: ephemeris, almanac, parameters, leap announcement (R135, R138, R140). -/
def State.learnNav (s : State) (a : Nat) (m : NavMessage) : State :=
  let g := s.chanSignal a m.chan
  let key := satKey g (s.chanSv a m.chan)
  let now := s.nowNs / 1000000000
  let t := s.setSide a (fun x => { x with
    ephem := if m.ephemeris then (key, now) :: x.ephem.filter (fun e => decide (e.1 ≠ key)) else x.ephem
    almanac := if m.almanac then some now else x.almanac
    ionoPar := match m.iono with
      | some p => (g / 16, p) :: x.ionoPar.filter (fun e => decide (e.1 ≠ g / 16))
      | none => x.ionoPar
    utcPar := match m.utc with
      | some u => (g / 16, u) :: x.utcPar.filter (fun e => decide (e.1 ≠ g / 16))
      | none => x.utcPar })
  match m.leap with
  | some l => if s.sideReplaying a then t else t.leapVote key l.1 l.2
  | none => t

/-- A message of a channel: written to its ring, dropped, or, failed or cut off and not wanted, not written (R136, R137). -/
def State.navMessage (s : State) (a : Nat) (m : NavMessage) : State :=
  match signalOf (s.chanSignal a m.chan), messageForm m.kind with
  | some g, some (nbits, check) =>
    if g.kinds.contains m.kind ∧ m.chan < 160 then
      let pass := decide (m.result = 0) || decide (m.result = 2)
      let t := (s.when (decide (m.result = 1)) (fun t => t.inc A.gnsNavFail)).when pass (fun t => t.learnNav a m)
      if s.bit A.gnsNavCfg 0 && (pass || s.bit A.gnsNavCfg 16) then
        let q := t.recordOrDrop (s.f A.gnsNavCfg 8 8) 0 (t.navRecord a m nbits check)
        if q.2 then q.1.inc A.gnsNavCount else (q.1.inc A.gnsNavDrop).raise A.gnsEvent 0
      else t
    else s
  | _, _ => s

/-! ### Wakes (R153) -/

/-- The side of a wake: A, or B when A is disabled. -/
def State.wakeSide (s : State) : Nat := if s.sideEnabled 0 then 0 else 1

/-- A keep-alive wake begins, every KA_GNSS minutes (R123, R153); 0 disables the wakes. -/
def State.kaWake (s : State) : State :=
  let period := s.f A.holKaGnss 0 11
  if s.hol.keepAlive ∧ period ≠ 0 ∧ s.hol.kaNext ≤ s.ts.meas ∧ s.gnss.wake.isNone = true ∧ s.sideEnabled s.wakeSide = true then
    let a := s.wakeSide
    let t := s.setHol (fun h => { h with kaNext := h.kaNext + secs (60 * period) })
    let t := ((t.setBit A.pwrDomState 3 (a = 0)).setBit A.pwrDomState 4 (a = 1)).setBit A.pwrDomState 5 true
    let t := { t with gnss := { t.gnss with wake := some (a, t.ts.meas + secs 120) } }
    t.startSide a
  else s

/-- Current ephemerides are held for every satellite above the mask (R153), of the signals in view. -/
def State.skyCurrent (s : State) (a : Nat) (sky : List SkyObs) : Bool :=
  let l := sky.filter (fun o => decide (s.f A.gnsMask 0 6 ≤ o.elev) && s.constOn (o.signal / 16) && decide (o.signal / 16 < 5))
  !l.isEmpty && l.all (fun o => s.ephemCurrent a (satKey o.signal o.sv))

/-- A keep-alive wake ends: on current ephemerides of the signals in view or after 120 s; the hot-start record is written (R153). -/
def State.kaWakeEnd (s : State) (sky : List SkyObs) : State :=
  match s.gnss.wake with
  | some (a, e) =>
    if s.skyCurrent a sky = true ∨ e ≤ s.ts.meas then
      let t := s.writeHotStart.haltSide a
      let t := { t with gnss := { t.gnss with wake := none } }
      ((t.setBit A.pwrDomState 3 false).setBit A.pwrDomState 4 false).setBit A.pwrDomState 5 false
    else s
  | none => s

/-! ### GNS_CFG and GNS_CMD (R158, R159) -/

/-- The reasons of GNS_CFG (R159). -/
def checkGnsCfg (w : Nat → Word) : Option Nat :=
  let ref := fld (w A.gnsCfg) 8 2
  firstReason [(!rangesOk 6 w, 0x40), (!(bitOf (w A.gnsCfg) ref), 0x41),
    (decide (fld (w A.gnsSurveyMax) 0 21 < fld (w A.gnsSurveyTime) 0 20), 0x42)]

/-- What the application of GNS_CFG changes besides the words (R152, R157, R488); `old` gives the words before it. -/
def State.applyGnsCfg (s : State) (old : Nat → Word) : State :=
  let t := s.setBit A.gnsStatus 7 false
  t.each [0, 1] (fun a u =>
    let u := u.setBit (A.gnsSideStatus a) 15 false
    let was := bitOf (old (A.gnsSideAntCfg a)) 0
    if u.sideEnabled a && !was then
      (u.setBit A.gnsStatus a false).setSide a (fun x => { x with loadingUntil := some (u.ts.meas + secs 2) })
    else if !(u.sideEnabled a) && was then u.stopSide a
    else if old (A.gnsSideAntCfg a) ≠ u.rd (A.gnsSideAntCfg a) then u.biasOn a (u.sideEnabled a)
    else u)

/-- The instant of SNAP_AT in words, in ns. -/
def snapAtNs (w : Nat → Word) : Nat :=
  ((w A.gnsSnapAtSecLo).toNat + 2 ^ 32 * fld (w A.gnsSnapAtSecHi) 0 16) * 1000000000 + fld (w A.gnsSnapAtNs) 0 30

/-- The reasons of GNS_CMD, in the order of their codes (R159). -/
def checkGnsCmd (s : State) (w : Nat → Word) : Option Nat :=
  let op := fld (w A.gnsCmd) 0 4
  let a := fld (w A.gnsCmd) 4 1
  let replays := s.sideReplaying 0 || s.sideReplaying 1
  let capturing := decide (s.snapState = 1) || decide (s.snapState = 2)
  let p : Int × Int × Int := (sfld (w A.gnsFixX) 0 32, sfld (w A.gnsFixY) 0 32, sfld (w A.gnsFixZ) 0 32)
  let r2 := dist2 p (0, 0, 0)
  let m := fld (w A.gnsSnapCfg) 0 4
  let len := fld (w A.gnsSnapCfg) 8 14
  let pre := fld (w A.gnsSnapPre) 0 14
  let bytes := ((streamsOf m).map (fun i => streamRate i * len)).sum
  let prog := (w A.gnsProgAddrLo).toNat
  let buf := (w A.gnsBufAddrLo).toNat
  firstReason [
    (!rangesOk 7 w || decide (9 < op), 0x40),
    ((decide (op = 1) && (s.side a).survey.isSome) || (decide (op = 5) && (capturing || replays)) ||
      (decide (op = 7) && (replays || capturing)), 0x43),
    (decide (op = 3) && !(decide (630000000 ^ 2 ≤ r2) && decide (r2 ≤ 650000000 ^ 2)), 0x44),
    (decide (op = 7) && (decide (s.sel = a) || decide (s.target = a)), 0x45),
    (decide (op = 7) && !(s.bit A.gnsSnapStatus 3 && s.bit A.gnsSnapStatus (4 + 2 * a)), 0x46),
    (decide (op = 5) && (decide (2147483648 < bytes) || decide (m = 0) || decide (len ≤ pre)), 0x47),
    (decide (prog % 64 ≠ 0) || decide (buf % 32 ≠ 0), 0x48),
    (decide (op = 5) && decide (fld (w A.gnsSnapCfg) 4 2 = 0) &&
      decide (snapAtNs w * 2 ^ 48 < 10000000 * 2 ^ 48 + s.ts.acc), 0x49)]

/-- CMD_RESULT (R158). -/
def State.gnsResult (s : State) (op reason : Nat) : State :=
  (s.wr A.gnsCmdResult (word (op % 16 + reason % 256 * 2 ^ 8 + (s.f A.gnsCmdResult 24 8 + 1) % 256 * 2 ^ 24))).raise A.gnsEvent 2

/-- The operation of a GNS_CMD application (R145, R147, R154, R156), after which the live OP reads 0. -/
def State.applyGnsCmd (s : State) : State :=
  let op := s.f A.gnsCmd 0 4
  let a := s.f A.gnsCmd 4 1
  let t := match op with
    | 1 => s.surveyStart a (s.rd64 A.gnsProgAddrLo) (s.rd64 A.gnsBufAddrLo)
    | 2 => s.endSurvey a 1
    | 3 =>
      let p := (s.sf A.gnsFixX 0 32, s.sf A.gnsFixY 0 32, s.sf A.gnsFixZ 0 32)
      ((s.endSurvey a 1).putPosition a p (s.f A.gnsFixSigma 0 14) true).writeHotStart
    | 4 => s.clearPosition a
    | 5 => s.snapArm
    | 6 => s.snapAbort
    | 7 => s.replayStart a
    | 8 => s.replayStop a
    | 9 => (s.setSide 0 (fun x => { x with excl := [] })).setSide 1 (fun x => { x with excl := [] })
    | _ => s
  (t.gnsResult op 0).sfW A.gnsCmd 0 4 0

/-- A refused GNS_CMD reports its reason (R159). -/
def State.refuseGnsCmd (s : State) (w : Nat → Word) (reason : Nat) : State := s.gnsResult (fld (w A.gnsCmd) 0 4) reason

/-- A parity fault in a GNS word (R157). -/
def State.gnsParityFault (s : State) (a : Nat) : State :=
  let t := s.raise A.gnsEvent 4
  if a < 0x21000 then t.setBit A.gnsStatus 7 true else t.setBit (A.gnsSideStatus (a / 0x1000 - 0x21)) 15 true

/-- A side loads its slot's image (R488), journalled LOADED; where its start check fails, the fallback copy, journalled
FALLBACK (R482); then it starts under R134. -/
def State.gnssLoad (s : State) (a : Nat) (startOk : Bool) : State :=
  let x := s.side a
  let image := if startOk then x.slot else x.fallback
  ((s.setSide a (fun x => { x with slot := image })).journalize 5 .module (A.gnsSideStatus a) (if startOk then 4 else 3)
    (le 1 3 ++ le 1 a ++ zeros 2 ++ slice image 0 32)).startSide a

end Sys2Proof.Machine
end

