-- ==== Sys2Proof/Machine/TimeTags.lean ====
section
/-!
DEFINITION. The time-tag unit (R160 to R182): tags and dead time, storage and forwarding, the measurement programs,
self-calibration.
-/

namespace Sys2Proof.Machine

/-! ### Channels -/

/-- Channel `c`. -/
def State.chan (s : State) (c : Nat) : TtuCh := s.ttu.chans.getD c TtuCh.empty

/-- Changing channel `c`. -/
def State.setChan (s : State) (c : Nat) (f : TtuCh → TtuCh) : State :=
  { s with ttu := { s.ttu with chans := modAt s.ttu.chans c f } }

/-- Program `p`. -/
def State.prog (s : State) (p : Nat) : Prog := s.ttu.progs.getD p Prog.empty

/-- Changing program `p`. -/
def State.setProg (s : State) (p : Nat) (f : Prog → Prog) : State :=
  { s with ttu := { s.ttu with progs := modAt s.ttu.progs p f } }

/-- A common TTU word's parity failed (R180). -/
def State.ttuFrozen (s : State) : Bool := ((s.group 8).parity ++ (s.group 9).parity).any (fun a => decide (a < 0x30100))

/-- A word of channel `c` failed its parity: its slope acts as off (R180). -/
def State.chanStruck (s : State) (c : Nat) : Bool :=
  (s.group 8).parity.any (fun a => decide (A.ttuChCfg c ≤ a) && decide (a < A.ttuChCfg c + 0x40))

/-- A word of program `p` failed its parity: its mode acts as off (R180). -/
def State.progStruck (s : State) (p : Nat) : Bool :=
  (s.group 9).parity.any (fun a => decide (A.ttuMpCtl p ≤ a) && decide (a < A.ttuMpCtl p + 0x40))

/-- The loopback selector of TC14 passes an output's edges (R160): not where it selects the calibration pulse or nothing. -/
def State.loopsOutput (s : State) : Bool := decide (s.f (A.ttuChLoop 14) 0 3 ≤ 5)

/-- A channel tags an edge of a direction: it is active, its domain is on and its slope selects the edge (R160, R163, R180, R394). -/
def State.selects (s : State) (c : Nat) (rising : Bool) : Bool :=
  let sl := s.f (A.ttuChCfg c) 15 2
  !(s.bit A.glbFenceTtu c) && s.domainOn 6 && !(s.chanStruck c) && (decide (c ≠ 14) || s.loopsOutput) &&
  (if rising then decide (sl = 0) || decide (sl = 2) else decide (sl = 1) || decide (sl = 2))

/-- The correction of a channel's tags in 1/16 ps: factory delay for the termination in use and skew (R161). -/
def State.tagDelay (s : State) (c : Nat) : Int :=
  let indly := if s.bit (A.ttuChCfg c) 13 then s.f (A.ttuChIndly c) 0 16 else s.f (A.ttuChIndly c) 16 16
  (indly : Int) * 16 + qdiv (s.sf (A.ttuChCalofs c) 0 32 * 16) 100

/-- The timescale and the measurement scale in 1/16 ps, `sub` beyond the last fabric cycle. -/
def scale16 (acc sub : Nat) : Int := ((acc * 16000 / 2 ^ 48 + sub : Nat) : Int)

/-- An instant in 1/16 ps rounded to the nearest ps (R170). -/
def toPs (x : Int) : Int := (x + 8) / 16

/-- The tag instant format (R167). -/
def tagInstant (ps : Int) : Bytes :=
  let ns := (ps / 1000).toNat
  le 6 (ns / 1000000000) ++ le 4 (ns % 1000000000) ++ le 2 (ps % 1000).toNat

/-! ### Storage (R168, R169) -/

/-- The records that have left the FIFO since it was last counted, 100 M per second (R169). -/
def State.fifoGone (s : State) : Nat := (s.ts.meas - s.ttu.fifoAt) / (10 * 2 ^ 48)

/-- The FIFO brought up to date; the part of a record's time that has passed still counts. -/
def State.drainFifo (s : State) : State :=
  let n := s.fifoGone
  { s with ttu := { s.ttu with
    fifo := s.ttu.fifo - n
    fifoAt := if s.ttu.fifo ≤ n then s.ts.meas else s.ttu.fifoAt + n * (10 * 2 ^ 48) } }

/-- Appending to the tag buffer; the oldest unforwarded record is discarded when it is full (R169). -/
def State.bufferTag (s : State) (d : Bytes) : State :=
  match s.ttu.tags with
  | old :: rest =>
    if s.ttu.tags.length < 33554432 then { s with ttu := { s.ttu with tags := s.ttu.tags ++ [d] } }
    else
      let t := { s with ttu := { s.ttu with tags := rest ++ [d] } }
      ((t.setChan (leAt old 12 1 % 16) (fun x => { x with overwritten := true })).inc A.ttuTagLost).raise A.ttuEvent 1
  | [] => { s with ttu := { s.ttu with tags := [d] } }

/-- Storing a tag record through the FIFO (R168, R169). -/
def State.storeTag (s : State) (c : Nat) (d : Bytes) : State :=
  let s := s.drainFifo
  if 16384 ≤ s.ttu.fifo then
    ((s.setChan c (fun x => { x with overflow := true })).inc (A.ttuChOverflow c)).raise A.ttuEvent 0
  else
    let t := { s with ttu := { s.ttu with fifo := s.ttu.fifo + 1 } }
    (t.bufferTag d).setChan c (fun x => { x with overflow := false })

/-- Forwarding one record into its ring; false where there is no room (R168, R339). -/
def State.forwardOne (s : State) (n source : Nat) (d : Bytes) : State × Bool :=
  if s.recordRing n source then s.putRecord n d else (s, false)

/-- Forwarding the tag buffer, oldest first, as far as the ring has room (R168, R169). -/
def State.forwardTags (s : State) : State :=
  if s.ttuFrozen then s
  else
    s.ttu.tags.foldl (fun t d =>
      if t.ttu.tags.head? = some d then
        let c := leAt d 12 1 % 16
        let fl := leAt d 13 1
        let d2 := if (t.chan c).overwritten ∧ fl / 2 % 2 = 0 then patch d 13 (le 1 (fl + 2)) else d
        let q := t.forwardOne (t.f A.ttuTagCfg 8 8) 1 d2
        if q.2 then { q.1 with ttu := { q.1.ttu with tags := q.1.ttu.tags.tail } }.setChan c (fun x => { x with overwritten := false })
        else q.1
      else t) s

/-- Forwarding the measurement buffer (R176). -/
def State.forwardMeas (s : State) : State :=
  if s.ttuFrozen then s
  else
    s.ttu.measures.foldl (fun t d =>
      if t.ttu.measures.head? = some d then
        let q := t.forwardOne (t.f A.ttuMeasCfg 8 8) 2 d
        if q.2 then { q.1 with ttu := { q.1.ttu with measures := q.1.ttu.measures.tail } } else q.1
      else t) s

/-! ### Programs (R171 to R177) -/

/-- MODE of a program as it acts: 0 off, 1 INTERVAL, 2 FREQUENCY, 3 PHASE. -/
def State.mpMode (s : State) (p : Nat) : Nat := if s.progStruck p then 0 else s.f (A.ttuMpCtl p) 0 2

/-- START_CH. -/
def State.mpStart (s : State) (p : Nat) : Nat := s.f (A.ttuMpCtl p) 4 4

/-- MAX_STOPS. -/
def State.mpMax (s : State) (p : Nat) : Nat := s.f (A.ttuMpCtl p) 8 6

/-- Nanoseconds in 1/16 ps. -/
def ns16 (n : Nat) : Int := ((n * 16000 : Nat) : Int)

/-- PRE in 1/16 ps. -/
def State.mpPre (s : State) (p : Nat) : Int := ns16 (s.f (A.ttuMpPre p) 0 24)

/-- POST in 1/16 ps. -/
def State.mpPost (s : State) (p : Nat) : Int := ns16 (s.f (A.ttuMpPost p) 0 30)

/-- The end of a window that ends at POST or, shorter, at TIMEOUT (R171), and whether TIMEOUT ends it. -/
def State.mpEnd (s : State) (p : Nat) : Int × Bool :=
  let t := s.f (A.ttuMpTimeout p) 0 30
  if 0 < t ∧ ns16 t < s.mpPost p then (ns16 t, true) else (s.mpPost p, false)

/-- The 32-byte header of a measurement record (R177). -/
def State.mpHeader (s : State) (len type p : Nat) (start : Tag) (nstop close flags : Nat) (tstart : Int) (seq : Nat) : Bytes :=
  le 2 len ++ le 1 type ++ le 1 p ++ le 1 (start.ch + 16 * b2n (!start.rising)) ++ le 1 nstop ++ le 1 close ++
  le 1 (flags + 32 * s.tscMode) ++ tagInstant tstart ++ le 4 seq ++ le 4 s.ts.rho ++ zeros 4

/-- A stop entry (R177). -/
def Stop.bytes (x : Stop) : Bytes :=
  le 6 (unsigned x.interval 48) ++
  le 2 (x.ch + 16 * b2n x.coincident + 32 * b2n x.neg + 64 * b2n x.dead + 128 * b2n (!x.rising))

/-- A closed record waits for the next RADIUS_TICK; the program's record count advances (R176, R177). -/
def State.closeRecord (s : State) (p : Nat) (d : Nat → Bytes) : State :=
  s.setProg p (fun x => { x with seq := (x.seq + 1) % 2 ^ 32, closed := x.closed ++ [d x.seq] })

/-- Closing an INTERVAL measurement (R171, R173): 0 POST, 1 TIMEOUT, 2 FULL. -/
def State.closeMeas (s : State) (p : Nat) (m : Meas) (close : Nat) : State :=
  let n := m.stops.length
  let flags := b2n (decide (close = 1)) + 2 * b2n m.stepped + 4 * b2n m.calChanged + 8 * b2n m.start.dead
  s.closeRecord p (fun seq => s.mpHeader (32 + 8 * n) 2 p m.start n close flags (toPs m.start.ts) seq ++
    m.stops.flatMap Stop.bytes)

/-- Open measurements of a program (R172). -/
def openCount (l : List Meas) : Nat := (l.filter (fun m => !m.full)).length

/-- STATUS of a program. -/
def State.showProg (s : State) (p : Nat) : State := s.sfW (A.ttuMpStatus p) 0 7 (openCount (s.prog p).open_)

/-- What the passage of time closes and forgets in an INTERVAL program at a timescale instant in 1/16 ps (R171, R173):
windows that have ended close, tags older than PRE are forgotten and, unpaired, counted in STRAY. -/
def State.mpAge (s : State) (p : Nat) (now : Int) : State :=
  let x := s.prog p
  let e := s.mpEnd p
  let ended := x.open_.filter (fun m => !m.full && decide (m.start.ts + e.1 < now))
  let t := s.setProg p (fun y => { y with open_ := y.open_.filter (fun m =>
    !(decide (m.start.ts + (if m.full then s.mpPost p else e.1) < now))) })
  let t := t.each ended (fun m u => u.closeMeas p m (if e.2 then 1 else 0))
  let old := x.recent.filter (fun g => decide (g.ts + s.mpPre p < now))
  let stray := (old.filter (fun g => !g.paired)).length
  let t := t.setProg p (fun y => { y with recent := y.recent.filter (fun g => !(decide (g.ts + s.mpPre p < now))) })
  (t.when (decide (0 < stray)) (fun u => u.count (A.ttuMpStray p) stray)).showProg p

/-- The stop that a tag is of a measurement (R173). -/
def stopOf (start g : Tag) : Stop :=
  let d := g.ms - start.ms
  let c := decide (d.natAbs < 16)
  ⟨if c then 0 else toPs d, c, decide (d < 0) && !c, g.ch, g.dead, g.rising⟩

/-- A stop into a list in time order, behind those of its own instant (R171). -/
def insertStop (x : Stop) : List Stop → List Stop
  | [] => [x]
  | y :: l => if x.interval < y.interval then x :: y :: l else y :: insertStop x l

/-- A tagged edge as a stop of the open measurements of a program (R171, R172). -/
def State.mpStop (s : State) (p : Nat) (g : Tag) : State :=
  let x := s.prog p
  let last := s.mpMax p
  let inWin : Meas → Bool := fun m => decide (g.ts ≤ m.start.ts + (if m.full then s.mpPost p else (s.mpEnd p).1))
  let excess := (x.open_.filter (fun m => m.full && inWin m)).length
  let add : Meas → Meas := fun m => if !m.full && inWin m then { m with stops := insertStop (stopOf m.start g) m.stops } else m
  let now := x.open_.map add
  let filled := now.filter (fun m => !m.full && decide (m.stops.length = last))
  let t := s.setProg p (fun y => { y with
    open_ := now.map (fun m => if !m.full && decide (m.stops.length = last) then { m with full := true } else m)
    recent := y.recent ++ [{ g with paired := x.open_.any inWin }] })
  let t := t.each filled (fun m u => u.closeMeas p m 2)
  t.when (decide (0 < excess)) (fun u => u.count (A.ttuMpExcess p) excess)

/-- A step of the timescale lies in a window of it, in 1/16 ps (R176). -/
def State.stepIn (s : State) (lo hi : Int) : Bool :=
  s.ttu.steps.any (fun x => decide (min x.2.1 x.2.2 ≤ hi) && decide (lo ≤ max x.2.1 x.2.2))

/-- A step of the timescale fell within the last `n` sixteenths of a ps before an instant of the measurement scale. -/
def State.stepBefore (s : State) (ms n : Int) : Bool := s.ttu.steps.any (fun x => decide (ms - n < x.1) && decide (x.1 ≤ ms))

/-- A tagged edge of the start channel opens a measurement (R171, R172): the stops since s - PRE are taken in time order. -/
def State.mpOpen (s : State) (p : Nat) (g : Tag) (calChanged : Bool) : State :=
  let x := s.prog p
  if 64 ≤ openCount x.open_ then (s.inc (A.ttuMpStartDrop p)).raise A.ttuEvent 3
  else
    let inPre : Tag → Bool := fun r => decide (g.ts - s.mpPre p ≤ r.ts) && decide (r.index ≠ g.index ∨ r.ch ≠ g.ch)
    let pre := ((x.recent.filter inPre).map (stopOf g)).foldl (fun l y => insertStop y l) []
    let full := decide (s.mpMax p ≤ pre.length)
    let m : Meas := ⟨g, pre.take (s.mpMax p), full, s.stepBefore g.ms (s.mpPre p), calChanged⟩
    let t := s.setProg p (fun y => { y with
      open_ := y.open_ ++ [m]
      recent := y.recent.map (fun r => if inPre r then { r with paired := true } else r) })
    t.when full (fun u => u.closeMeas p m 2)

/-- The grid number of a timescale instant in 1/16 ps, for PERIOD and OFFSET of a program (R175). -/
def State.gridOf (s : State) (p : Nat) (x : Int) : Nat :=
  ((x - ns16 (s.f (A.ttuMpOffset p) 0 30)) / ns16 (s.f (A.ttuMpPeriod p) 0 20 * 1000000)).toNat

/-- The grid instant g_k in 1/16 ps (R175). -/
def State.gridAt (s : State) (p k : Nat) : Int :=
  ns16 (s.f (A.ttuMpOffset p) 0 30 + k * (s.f (A.ttuMpPeriod p) 0 20 * 1000000))

/-- An edge enters its FREQUENCY gate (R174); its index closes gaps that lost edges leave. -/
def State.mpGate (s : State) (p : Nat) (g : Tag) (calChanged : Bool) : State :=
  let k := s.gridOf p g.ts
  let x := s.prog p
  match x.gates.find? (fun q => decide (q.k = k)) with
  | none => s.setProg p (fun y => { y with gates := y.gates ++ [⟨k, 1, g, 0, 0, 0, 0, 0, calChanged⟩] })
  | some q =>
    let i : Int := ((g.index - q.first.index : Nat) : Int)
    let d := g.ms - q.first.ms
    let q2 : Gate := { q with n := q.n + 1, si := q.si + i, sx := q.sx + d, sii := q.sii + i * i, six := q.six + i * d, sxx := q.sxx + d * d, calChanged := q.calChanged || calChanged }
    s.setProg p (fun y => { y with gates := y.gates.map (fun z => if z.k = k then q2 else z) })

/-- A missing record counts in MISSING. -/
def State.mpMissing (s : State) (p : Nat) (missing : Bool) : State := s.when missing (fun t => t.inc (A.ttuMpMissing p))

/-- Closing the next gate of a FREQUENCY program (R174): the slope of the least-squares line is the mean period. -/
def State.closeGate (s : State) (p : Nat) : State :=
  let x := s.prog p
  let k := x.gate
  let g : Gate := (x.gates.find? (fun q => decide (q.k = k))).getD
    ⟨k, 0, ⟨s.mpStart p, true, s.gridAt p k, 0, false, 0, 0, false⟩, 0, 0, 0, 0, 0, false⟩
  let n : Int := g.n
  let den := n * g.sii - g.si * g.si
  let missing := decide (g.n < 2) || decide (den ≤ 0)
  let num := n * g.six - g.si * g.sx
  let period := if missing then 0 else (qdiv (num * 1000) (16 * den).toNat).toNat
  let resid := if missing then 0
    else qsqrt (((n * g.sxx - g.sx * g.sx) * den - num * num).toNat) ((n * n * den * 256).toNat)
  let flags := 2 * b2n (s.stepIn (s.gridAt p k) (s.gridAt p (k + 1) - 1)) + 4 * b2n g.calChanged + 8 * b2n g.first.dead + 16 * b2n missing
  let t := s.closeRecord p (fun seq => s.mpHeader 48 3 p g.first 0 0 flags (toPs g.first.ts) seq ++
    le 8 period ++ le 4 g.n ++ le 4 resid)
  ((t.setProg p (fun y => { y with
    gate := k + 1
    gates := y.gates.filter (fun q => decide (k < q.k)) })).mpMissing p missing)

/-- The tag of a list that is nearest to an instant, the earlier on a tie. -/
def nearestTag (l : List Tag) (x : Int) : Option Tag :=
  l.foldl (fun b g => match b with
    | none => some g
    | some h => if (g.ts - x).natAbs < (h.ts - x).natAbs then some g else some h) none

/-- Closing the next grid instant of a PHASE program (R175). -/
def State.closePhase (s : State) (p : Nat) : State :=
  let x := s.prog p
  let k := x.gate
  let gk := s.gridAt p k
  let near := nearestTag (x.recent.filter (fun g => decide (gk - s.mpPre p ≤ g.ts) && decide (g.ts ≤ gk + s.mpPost p))) gk
  let tag : Tag := near.getD ⟨s.mpStart p, true, gk, 0, false, 0, 0, false⟩
  let missing := near.isNone
  let phase : Int := if missing then 0 else toPs (tag.ts - gk)
  let flags := 2 * b2n (s.stepIn (gk - s.mpPre p) (gk + s.mpPost p)) + 4 * b2n x.calChanged + 8 * b2n tag.dead + 16 * b2n missing
  let t := s.closeRecord p (fun seq => s.mpHeader 48 4 p tag 0 0 flags (toPs gk) seq ++ le 8 (unsigned phase 64) ++
    le 4 (if missing then 0 else tag.seq) ++ zeros 4)
  (t.setProg p (fun y => { y with
    gate := k + 1
    calChanged := false
    recent := y.recent.filter (fun g => decide (gk - s.mpPre p ≤ g.ts)) })).mpMissing p missing

/-- The close instant of the next gate or grid instant has come: g_k + PERIOD, g_k + POST (R176). -/
def State.gateDue (s : State) (p : Nat) : Bool :=
  let now := scale16 s.ts.acc 0
  match s.mpMode p with
  | 2 => decide (s.gridAt p ((s.prog p).gate + 1) ≤ now)
  | 3 => decide (s.gridAt p (s.prog p).gate + s.mpPost p ≤ now)
  | _ => false

/-- A program's gate or grid instant closes when it is due (R174, R175). -/
def State.measGateClose (s : State) (p : Nat) : State :=
  if s.gateDue p then (if s.mpMode p = 2 then s.closeGate p else s.closePhase p) else s

/-- The windows of an INTERVAL program that have ended close (R171). -/
def State.measClose (s : State) (p : Nat) : State :=
  if s.mpMode p = 1 then s.mpAge p (scale16 s.ts.acc 0 + 1) else s

/-- A tagged edge reaches one program (R168). -/
def State.mpTag (s : State) (p : Nat) (g : Tag) (calChanged : Bool) : State :=
  match s.mpMode p with
  | 1 =>
    let t := s.mpAge p g.ts
    let t := t.when (bitOf (t.rd (A.ttuMpStopMask p)) g.ch) (fun u => u.mpStop p g)
    (t.when (decide (t.mpStart p = g.ch)) (fun u => u.mpOpen p g calChanged)).showProg p
  | 2 => s.when (decide (s.mpStart p = g.ch)) (fun u => u.mpGate p g calChanged)
  | 3 => s.when (decide (s.mpStart p = g.ch)) (fun u => u.setProg p (fun y => { y with
      recent := y.recent ++ [g], calChanged := y.calChanged || calChanged }))
  | _ => s

/-! ### Tags (R161 to R169) -/

/-- A tagged edge reaches the reference on its channel (R60, R61): PPS-IN, FREQ-IN (one whose rate was off NOMINAL returns at the
evaluation that finds it within), or the cartridge's PPS, which is checked
against its count of 10 MHz cycles (R118). -/
def State.tagReference (s : State) (g : Tag) (cycles : Nat) : State :=
  if 8 ≤ g.ch ∧ g.ch ≤ 11 then s.ppsEdge (g.ch - 6) (toPs g.ts)
  else if g.ch = 12 ∨ g.ch = 13 then
    s.setRef (g.ch - 6) (fun r => { r with
      edges := if r.firstEdge.isSome then r.edges + 1 else 0
      firstEdge := r.firstEdge.orElse (fun _ => some (toPs g.ts))
      lastEdge := some (toPs g.ts)
      lost := r.rateOff
      lastSeen := s.ts.meas })
  else if g.ch = 15 ∧ s.cartPowered ∧ cycles ≠ 0 ∧ (cycles < 9999999 ∨ 10000001 < cycles) then s.cartFault 0x44
  else s

/-- The record of a tag (R167). -/
def State.tagRecord (s : State) (g : Tag) (x : TtuCh) : Bytes :=
  tagInstant (toPs g.ts) ++ le 1 (g.ch + 16 * b2n (!g.rising) + 32) ++
  le 1 (b2n g.dead + 2 * b2n x.overflow + 4 * b2n x.stepped + 8 * b2n x.calChanged + 32 * s.tscMode) ++ le 2 g.seq

/-- An edge that passed the prescaler and the dead time is tagged (R166 to R168). -/
def State.tagIt (s : State) (c : Nat) (rising : Bool) (ts ms : Int) (cycles : Nat) : State :=
  let x := s.chan c
  let g : Tag := ⟨c, rising, ts, ms, x.deadPending, (x.seq + 1) % 65536, x.index + x.lostSince + 1, false⟩
  let d := s.f (A.ttuChStore c) 0 17
  let store := decide (d ≠ 0) && decide (d ≤ x.decim + 1) && s.bit A.ttuTagCfg 0 && !(s.ttuFrozen)
  let t := s.setChan c (fun y => { y with
    last := some ms
    seq := g.seq
    index := g.index
    lostSince := 0
    deadPending := false
    stepped := false
    calChanged := false
    decim := if d = 0 ∨ d ≤ x.decim + 1 then 0 else x.decim + 1
    rateCount := y.rateCount + 1 })
  let t := (t.inc (A.ttuChTags c)).when store (fun u => u.storeTag c (s.tagRecord g x))
  let t := t.each (List.range 8) (fun p u => u.mpTag p g x.calChanged)
  t.tagReference g cycles

/-- An edge lost to dead time (R166). -/
def State.deadEdge (s : State) (c : Nat) : State :=
  ((s.setChan c (fun y => { y with deadPending := true, lostSince := y.lostSince + 1 })).inc (A.ttuChDeadtime c)).raise A.ttuEvent 6

/-- The last tagged edge of a channel before an instant, in 1/16 ps: an edge, or one of the 64 pulses, 1 µs apart, of its last
calibration burst (R166, R179). -/
def TtuCh.lastBefore (x : TtuCh) (ms : Int) : Option Int :=
  match x.burst with
  | some b =>
    if ms < b then x.last
    else
      let p := b + min 63 ((ms - b) / 16000000) * 16000000
      match x.last with
      | some l => some (max l p)
      | none => some p
  | none => x.last

/-- An edge at a channel's connector, `sub` sixteenths of a ps after the last fabric cycle: selected, prescaled, lost to dead
time or tagged (R161 to R167). `cycles` is the cartridge's 10 MHz count since its last PPS (TC15). -/
def State.tagEdge (s : State) (c : Nat) (rising : Bool) (sub cycles : Nat) : State :=
  if s.selects c rising then
    let x := s.chan c
    let t := s.setChan c (fun y => { y with presc := if y.presc = 0 then 2 ^ s.f (A.ttuChCfg c) 17 4 - 1 else y.presc - 1 })
    if x.presc ≠ 0 then t
    else
      let ms := scale16 s.ts.meas sub - s.tagDelay c
      let ts := scale16 s.ts.acc sub - s.tagDelay c
      match x.lastBefore ms with
      | some l => if ms < 32000 + l then t.deadEdge c else t.tagIt c rising ts ms cycles
      | none => t.tagIt c rising ts ms cycles
  else s

/-! ### What ticks and seconds do -/

/-- Posting the closed measurements at a RADIUS_TICK (R176). -/
def State.measPost (s : State) : State :=
  s.each (List.range 8) (fun p t =>
    let l := (t.prog p).closed
    let t := t.setProg p (fun y => { y with closed := [] })
    if t.bit A.ttuMeasCfg 0 then
      t.each l (fun d u =>
        if u.ttu.measures.length < 65536 then
          ({ u with ttu := { u.ttu with measures := u.ttu.measures ++ [d] } }.inc (A.ttuMpMeasCount p)).sfW (A.ttuMpStatus p) 8 24
            (leAt d 20 4)
        else (u.inc A.ttuMeasDrop).raise A.ttuEvent 2)
    else t)

/-- RATE of every channel at a whole second (R181). -/
def State.ttuRates (s : State) : State :=
  s.each (List.range 16) (fun c t => (t.wr (A.ttuChRate c) (satU32 (t.chan c).rateCount)).setChan c (fun y => { y with rateCount := 0 }))

/-- New skews take effect at a SECOND boundary (R179). -/
def State.ttuSkews (s : State) : State :=
  s.each (List.range 16) (fun c t => match (t.chan c).calPending with
    | some v => ((t.wr (A.ttuChCalofs c) (sat32 v)).setChan c (fun y => { y with calPending := none, calChanged := true })).raise
        A.ttuEvent 4
    | none => t)

/-- A timescale step: the first tag of every channel and every window and gate that holds it carry STEPPED (R167, R176). -/
def State.ttuStepped (s : State) (before : Nat) : State :=
  let now := scale16 s.ts.meas 0
  { s with ttu := { s.ttu with
      steps := (now, scale16 before 0, scale16 s.ts.acc 0) ::
        s.ttu.steps.filter (fun x => decide (now ≤ x.1 + ns16 1100000000000))
      chans := s.ttu.chans.map (fun (x : TtuCh) => { x with stepped := true })
      progs := s.ttu.progs.map (fun (x : Prog) => { x with
        open_ := x.open_.map (fun (m : Meas) => { m with stepped := true }) }) } }

/-- A calibration burst reaches a channel (R179): CAL_MASK, slope not off, at most 1,000 edges in the last second; TC14 where its
loopback selector takes the calibration pulse (R160). -/
def State.calibrated (s : State) (c : Nat) : Bool :=
  (decide (c < 14) && s.bit A.ttuCalMask c && decide (s.f (A.ttuChCfg c) 15 2 ≠ 3) && !(s.chanStruck c) &&
    decide (s.f (A.ttuChRate c) 0 32 ≤ 1000)) || (decide (c = 14) && decide (s.f (A.ttuChLoop 14) 0 3 = 6))

/-- The grid number of the calibration burst whose RADIUS_TICK firing, at k CAL_PERIOD + 0.5 s, is the present one (R179). -/
def State.burstGrid (s : State) : Option Nat :=
  let t := s.nowNs
  let p := 1000000000 * s.f A.ttuCalCfg 1 17
  if p ≠ 0 ∧ 500000000 ≤ t % p ∧ t % p < 501000000 then some (t / p + 1) else none

/-- From the first to the last of the 64 pulses of a burst, 1 µs apart (R179). -/
def burstLength : Nat := 63000 * 2 ^ 48

/-- A calibration burst (R179): 64 pulses, 1 µs apart; `skews` are the skews that it measures, in 0.01 ps. The tables of the channels
that it reaches are refreshed (R178). -/
def State.calBurst (s : State) (skews : List (Nat × Int)) : State :=
  match s.burstGrid with
  | some k =>
    if s.bit A.ttuCalCfg 0 && !s.ttuFrozen && s.domainOn 6 && decide (s.ttu.calGrid ≠ k) then
      let t := { s with ttu := { s.ttu with calGrid := k, calUntil := s.ts.meas + burstLength } }
      let t := t.each ((List.range 16).filter s.calibrated) (fun c u => u.setChan c (fun y => { y with
        burst := some (scale16 s.ts.meas 0 - s.tagDelay c)
        table := some s.ts.meas }))
      t.each (skews.filter (fun e => decide (e.1 < 14) && s.calibrated e.1)) (fun e u => u.setChan e.1 (fun y => { y with
        calPending := if 50 < (e.2 - s.sf (A.ttuChCalofs e.1) 0 32).natAbs then some e.2 else y.calPending }))
    else s
  | none => s

/-- CAL_RUNNING while a burst's pulses go on (R181). -/
def State.showBurst (s : State) : State := s.setBit A.ttuStatus 1 (decide (s.ts.meas < s.ttu.calUntil))

/-- The linearity tables are built at start-up step 7, or after PD6 was off; the channels whose table failed are fenced (R178). -/
def State.buildTables (s : State) : State :=
  { s with ttu := { s.ttu with chans := s.ttu.chans.map (fun (x : TtuCh) => { x with table := some s.ts.meas }) } }.setBit A.ttuStatus 2 true

/-- Every program starts at its next grid instant (R174, R175). -/
def State.armProgs (s : State) : State :=
  s.each (List.range 8) (fun p t => t.setProg p (fun y => { y with gate := t.gridOf p (scale16 t.ts.acc 0) + 1 }))

/-! ### TTU_CH and TTU_PROG (R165, R181, R182) -/

/-- The reasons of TTU_CH (R182). -/
def checkTtuCh (s : State) (w : Nat → Word) : Option Nat :=
  let slope : Nat → Nat := fun c => fld (w (A.ttuChCfg c)) 15 2
  let k : Nat → Nat := fun c => fld (w (A.ttuChCfg c)) 17 4
  firstReason [(!rangesOk 8 w, 0x40),
    ([8, 9, 10, 11].any (fun c => decide (k c ≠ 0) || decide (2 ≤ slope c)) ||
      [12, 13].any (fun c => decide (2 ≤ slope c) || decide (250000000 * 2 ^ k c < s.f (A.refInNominal (c - 6)) 0 31)), 0x41),
    (decide (w (A.ttuChCfg 14) ≠ 0) || decide (w (A.ttuChCfg 15) ≠ 0) ||
      (List.range 16).any (fun c => decide (c ≠ 12 ∧ c ≠ 13) && bitOf (w (A.ttuChCfg c)) 14), 0x42)]

/-- The reasons of TTU_PROG (R182). -/
def checkTtuProg (s : State) (w : Nat → Word) : Option Nat :=
  let mode : Nat → Nat := fun p => fld (w (A.ttuMpCtl p)) 0 2
  let per : Nat → Nat := fun p => fld (w (A.ttuMpPeriod p)) 0 20
  let ps := List.range 8
  firstReason [(!rangesOk 9 w, 0x40),
    (ps.any (fun p => (decide (mode p = 3) &&
        decide (per p * 1000000 ≤ fld (w (A.ttuMpPre p)) 0 24 + fld (w (A.ttuMpPost p)) 0 30)) ||
      (decide (mode p = 2) && decide (1000 < per p) &&
        decide (100000000 < s.f (A.ttuChRate (fld (w (A.ttuMpCtl p)) 4 4)) 0 32))), 0x43),
    (ps.any (fun p => decide (mode p = 1) && decide (fld (w (A.ttuMpStopMask p)) 0 16 = 0)), 0x44)]

/-- What the application of TTU_CH changes besides the words (R164, R165, R180). -/
def State.applyTtuCh (s : State) (old : Nat → Word) : State :=
  let m : Word := 0x001F83FF
  let t := s.setBit A.ttuStatus 0 s.ttuFrozen
  t.each (List.range 16) (fun c u =>
    let was := old (A.ttuChCfg c)
    let now := u.rd (A.ttuChCfg c)
    let u := u.when (decide (was &&& m ≠ now &&& m)) (fun u => u.setChan c (fun y => { y with presc := 0 }))
    if decide (was ≠ now) && decide (8 ≤ c ∧ c ≤ 13) then
      let v := u.requalify (c - 6)
      v.each [2, 3, 4, 5] (fun p z => if z.refPair p = some (c - 6) then z.requalify p else z)
    else u)

/-- A program changes in an application (R181). -/
def progChanged (old new : Nat → Word) (p : Nat) : Bool :=
  (List.range 7).any (fun k => decide (old (A.ttuMpCtl p + 4 * k) ≠ new (A.ttuMpCtl p + 4 * k)))

/-- What the application of TTU_PROG changes besides the words: the changed programs discard what they hold and start at the
next grid instant. -/
def State.applyTtuProg (s : State) (old : Nat → Word) : State :=
  (s.setBit A.ttuStatus 0 s.ttuFrozen).each (List.range 8) (fun p u =>
    let u := u.setBit (A.ttuMpStatus p) 7 false
    u.when (progChanged old u.rd p) (fun u =>
      (u.setProg p (fun y => { y with
        recent := [], open_ := [], gates := [], calChanged := false
        gate := u.gridOf p (scale16 u.ts.acc 0) + 1 })).showProg p))

/-- A parity fault in a TTU word (R180). -/
def State.ttuParityFault (s : State) (a : Nat) : State :=
  let t := s.raise A.ttuEvent 5
  if a < 0x30100 then t.setBit A.ttuStatus 0 true
  else if 0x30800 ≤ a then
    let p := (a - 0x30800) / 0x40
    ((t.setProg p (fun y => { y with open_ := [], recent := [] })).setBit (A.ttuMpStatus p) 7 true).showProg p
  else t

end Sys2Proof.Machine
end

