-- ==== Sys2Proof/Machine/Units.lean ====
section
/-!
DEFINITION. The replicated units (R3, R394 to R396, R486, R487, R491): fencing and returning them, and the drain and reload of
a pipeline.
-/

namespace Sys2Proof.Machine

/-! ### Fences (R394, R395) -/

/-- How many units of a kind there are. -/
def unitCount (kind : Nat) : Nat :=
  match kind with
  | 0 => 16 | 1 => 16 | 2 => 8 | 3 => 16 | 4 => 20 | 5 => 16
  | _ => 0

/-- The bit of a unit in the fence maps (R393). -/
def fenceBit (kind i : Nat) : Nat × Nat :=
  match kind with
  | 0 => (A.glbFencePipe, i) | 1 => (A.glbFencePipe, 16 + i) | 2 => (A.glbFenceCrypto, i) | 3 => (A.glbFenceCrypto, 16 + i)
  | 4 => (A.glbFenceGnss, i)
  | _ => (A.glbFenceTtu, i)

/-- The block code of a unit (R398, R342). -/
def unitBlock (kind : Nat) : Nat :=
  match kind with
  | 0 => 15 | 1 => 15 | 2 => 18 | 3 => 19 | 4 => 9
  | _ => 10

/-- A unit is fenced. -/
def State.fenced (s : State) (kind i : Nat) : Bool := s.bit (fenceBit kind i).1 (fenceBit kind i).2

/-- The key of a unit in `State.fences`. -/
def unitKey (kind i : Nat) : Nat := kind * 256 + i

/-- Units of a kind that are not fenced. -/
def State.activeUnits (s : State) (kind : Nat) : Nat := (indices (unitCount kind) (fun i => !(s.fenced kind i))).length

/-- UNITS_ACTIVE (R393). -/
def State.showUnits (s : State) : State :=
  let t := ((s.sfW A.glbUnitsActive0 0 8 (s.activeUnits 0)).sfW A.glbUnitsActive0 8 8 (s.activeUnits 1)).sfW
    A.glbUnitsActive0 16 8 (s.activeUnits 2)
  ((t.sfW A.glbUnitsActive0 24 8 (s.activeUnits 3)).sfW A.glbUnitsActive1 0 8 (s.activeUnits 4)).sfW
    A.glbUnitsActive1 8 8 (s.activeUnits 5)

/-- SHA_UNITS and what follows from CAP (R277). -/
def State.showSha (s : State) : State := (s.sfW A.rcpStatus 4 4 (s.activeUnits 2)).showRcp

/-- UCODE_RESULT of a pipeline (R485): operation, reason, SEQ. -/
def State.ucodeResult (s : State) (p op reason : Nat) : State :=
  let a := A.svpPipeUcodeResult p
  ((s.sfW a 0 2 op).sfW a 8 8 reason).sfW a 24 8 (s.f a 24 8 + 1)

/-- STATE of a pipeline. -/
def State.setPipe (s : State) (p st : Nat) : State := s.sfW (A.svpPipeStatus p) 0 2 st

/-- What the fence of a pipeline does (R223, R486): a drain under way ends FENCED_EARLY, its buckets move, its requests are
lost. -/
def State.pipeFenced (s : State) (p : Nat) (drained : Bool) : State :=
  let t := s.when (decide (s.pipeState p = 1) && !drained) (fun t => t.ucodeResult p 1 0x45)
  (((t.setPipe p 2).moveAway p).losePipe p).showPipes

/-- What the fence of a unit does in its own block (R394). -/
def State.unitLost (s : State) (kind i : Nat) (drained : Bool) : State :=
  match kind with
  | 0 => s.pipeFenced i drained
  | 1 => s
  | 2 => s.showSha
  | 3 => s.fenceCore i
  | 4 => s.fenceBlock i true
  | _ => s.when (decide (8 ≤ i ∧ i ≤ 13)) (fun t => t.lose (i - 6))

/-- One unit is fenced (R395): its bit, UNITS_ACTIVE, UNIT_FENCED, the log; a fenced unit stays as it is. -/
def State.fenceOne (s : State) (src : Source) (kind i cause : Nat) (drained : Bool) : State :=
  if s.fenced kind i then s
  else
    let t := s.setBit (fenceBit kind i).1 (fenceBit kind i).2 true
    let t := { t with fences := CellList.insert (unitKey kind i) cause t.fences }
    let t := (t.showUnits.unitLost kind i drained).raise A.glbEvent 1
    t.logFault 9 src (unitBlock kind) 0 (kind * 256 + i) 0 cause

/-- A unit is fenced, and with a pipeline or AES-SIV unit its partner (R394). -/
def State.fenceUnit (s : State) (src : Source) (kind i cause : Nat) (drained : Bool) : State :=
  let t := s.fenceOne src kind i cause drained
  if kind = 0 then t.fenceOne src 1 i 4 drained else if kind = 1 then t.fenceOne src 0 i 4 drained else t

/-- What the return of a unit does in its own block (R396). -/
def State.unitBack (s : State) (kind i : Nat) : State :=
  match kind with
  | 0 => (s.setPipe i 0).showPipes
  | 1 => s
  | 2 => s.showSha
  | 3 => s.returnCore i
  | 4 => s.fenceBlock i false
  | _ => s.when (decide (8 ≤ i ∧ i ≤ 13)) (fun t => t.requalify (i - 6))

/-- One unit returns to service. -/
def State.returnOne (s : State) (src : Source) (kind i : Nat) : State :=
  if s.fenced kind i then
    let t := s.setBit (fenceBit kind i).1 (fenceBit kind i).2 false
    let t := { t with fences := CellList.erase (unitKey kind i) t.fences }
    ((t.showUnits.unitBack kind i).raise A.glbEvent 2).logFault 0x0A src (unitBlock kind) 0 (kind * 256 + i) 0 0
  else s

/-- A unit returns, and with a pipeline or AES-SIV unit its partner. -/
def State.returnPair (s : State) (src : Source) (kind i : Nat) : State :=
  let t := s.returnOne src kind i
  if kind = 0 then t.returnOne src 1 i else if kind = 1 then t.returnOne src 0 i else t

/-! ### FENCE_CMD (R396) -/

/-- The values FENCE_CMD accepts (R393). -/
def fenceCmdOk (v : Word) : Bool :=
  (decide (fld v 0 2 = 1) || decide (fld v 0 2 = 2)) && decide (fld v 2 2 = 0) && decide (fld v 13 19 = 0)

/-- FENCE_RESULT: the command answered, STATE, REASON, SEQ; FENCE_DONE. -/
def State.fenceResult (s : State) (op kind i st reason : Nat) : State :=
  let seq := s.f A.glbFenceResult 24 8 + 1
  let v := op + 16 * kind + 256 * i + 8192 * st + 65536 * reason + 2 ^ 24 * (seq % 256)
  (s.wr A.glbFenceResult (word v)).raise A.glbEvent 3

/-- The unit is fenced for parity and its group's STATUS.PARITY is set: only TTU channels have words of their own. -/
def State.parityFenced (s : State) (kind i : Nat) : Bool :=
  decide (CellList.get (fun _ => 0) s.fences (unitKey kind i) = 2) && decide (kind = 5) && s.bit (A.sluGroupStatus 8) 3

/-- An accepted FENCE_CMD (R396). -/
def State.fenceCmd (s : State) (src : Source) (v : Word) : State :=
  let op := fld v 0 2
  let kind := fld v 4 4
  let i := fld v 8 5
  if unitCount kind ≤ i then s.fenceResult op kind i 2 0x40
  else if s.testing.isSome then s.fenceResult op kind i 2 0x42
  else if op = 1 then (s.fenceUnit src kind i 5 false).fenceResult op kind i 2 0
  else if s.fenced kind i = false then s.fenceResult op kind i 2 0
  else if s.parityFenced kind i then s.fenceResult op kind i 2 0x43
  else { s with testing := some (kind, i) }.fenceResult op kind i 1 0

/-- The self-test of a returning unit ends (R396). -/
def State.selftestDone (s : State) (pass : Bool) : State :=
  match s.testing with
  | none => s
  | some (kind, i) =>
    let t := { s with testing := none }
    if pass then (t.returnPair .module kind i).fenceResult 2 kind i 2 0 else t.fenceResult 2 kind i 2 0x41

/-! ### Drain and reload (R486, R487) -/

/-- DRAIN (R486). -/
def State.drainPipe (s : State) (p : Nat) : State :=
  if (s.nextActive p).isNone then s.ucodeResult p 1 0x40
  else if s.pipeState p ≠ 0 then s.ucodeResult p 1 0x44
  else ((s.setPipe p 1).moveAway p).showPipes

/-- A response of a request that pipeline `p` took has neither departed nor been dropped. -/
def State.pipeBusy (s : State) (p : Nat) : Bool :=
  decide (s.queue p ≠ []) ||
  s.ports.links.any (fun l => l.ready.any (fun h => h.req.any (fun r => decide (r.pipe = p))) ||
    l.slots.any (fun x => x.req.any (fun r => decide (r.pipe = p))))

/-- The last response of a draining pipeline has departed or been dropped: it is fenced (R486). -/
def State.drainDone (s : State) (p : Nat) : State :=
  if s.pipeState p = 1 ∧ s.pipeBusy p = false then (s.fenceUnit .module 0 p 5 true).ucodeResult p 1 0 else s

/-- A FIRMWARE record (R482, R388): event, target, bank, side or pipeline, digest. Its ADDR is UCODE_CTL for a load into a
pipeline, otherwise BOOT.STATUS. -/
def State.journalFirmware (s : State) (src : Source) (event target index : Nat) (digest : Bytes) : State :=
  s.journalize 5 src (if event = 4 ∧ target = 2 then A.svpPipeUcodeCtl index else A.bootStatus) event
    (le 1 target ++ le 1 index ++ zeros 2 ++ slice digest 0 32)

/-- The bank that runs (R477). -/
def State.bankRunning (s : State) : Nat := s.f A.bootRecFlags 0 1

/-- The image of a bank. -/
def State.bankImage (s : State) (b : Nat) : FwImage := s.boot.banks.getD b ⟨0, zeros 32⟩

/-- A pipeline loads microcode: BUILD, SRC and DIGEST, and the LOADED record (R485, R487). -/
def State.loadUcode (s : State) (p : Nat) (held : Bool) (x : FwImage) : State :=
  let t := ((s.wr (A.svpPipeUcodeBuild p) (word x.build)).wr (A.svpPipeUcodeSrc p) (word (b2n held)))
  (t.each (List.range 8) (fun w u => u.wr (A.svpPipeUcodeDigest p w) (word (leAt x.digest (4 * w) 4)))).journalFirmware
    .module 4 2 p x.digest

/-- RELOAD (R487). -/
def State.reloadPipe (s : State) (p : Nat) (stage : Bool) : State :=
  if s.pipeState p ≠ 2 then s.ucodeResult p 2 0x41
  else
    match (if stage then s.fw.held else some (s.bankImage s.bankRunning)) with
    | none => s.ucodeResult p 2 0x42
    | some x => (s.setPipe p 3).loadUcode p stage x

/-- The self-test after a reload ends (R487). -/
def State.reloadDone (s : State) (p : Nat) (pass : Bool) : State :=
  if s.pipeState p = 3 then
    let t := (s.setPipe p 2).inc (A.svpPipeReloads p)
    if pass then t.ucodeResult p 2 0
    else (t.loadUcode p false (t.bankImage t.bankRunning)).ucodeResult p 2 0x43
  else s

/-- A write to UCODE_CTL: DRAIN, then RELOAD with SOURCE as it then stands (R485 to R487, R362). -/
def State.ucodeWrite (s : State) (p : Nat) (v : Word) : State :=
  let c := cmValue (s.rd (A.svpPipeUcodeCtl p)) v
  let t := s.wr (A.svpPipeUcodeCtl p) (c &&& 4)
  let t := t.when (bitOf v 0 && bitOf v 16) (fun t => t.drainPipe p)
  t.when (bitOf v 1 && bitOf v 17) (fun t => t.reloadPipe p (bitOf c 2))

end Sys2Proof.Machine
end

