-- ==== Sys2Proof/Machine/Firmware.lean ====
section
/-!
DEFINITION. Module memory as XFER and STAGE reach it (R340, R384), and the check and installation of a staged image (R479 to
R482).
-/

namespace Sys2Proof.Machine

/-! ### The regions (R340) -/

/-- Changing what is known of staged firmware. -/
def State.setFw (s : State) (f : Fw → Fw) : State := { s with fw := f s.fw }

/-- The size of a region, none where there is no such region. -/
def regionSize (r : Nat) : Option Nat :=
  if r = 0 then some (2 * 2 ^ 30) else if r = 1 then some (64 * 2 ^ 20) else none

/-- The span lies in the region. -/
def regionOk (r off len : Nat) : Bool :=
  match regionSize r with
  | some n => decide (off + len ≤ n)
  | none => false

/-- A byte of FW_STAGE; one that nothing has written reads 0. -/
def State.fwRead (s : State) (a : Nat) : Byte := CellList.get (fun _ => 0) s.fw.mem a

/-- Bytes of a region. -/
def State.regionRead (s : State) (r off len : Nat) : Bytes :=
  (List.range len).map (fun i => if r = 0 then s.snapRead (off + i) else s.fwRead (off + i))

/-- The lines that `k` bytes written from `off` on cover, added to those written since the last check (R480). -/
def addLines (l : List Nat) (off k : Nat) : List Nat :=
  let first := off / 64
  let n := k / 64
  l.filter (fun x => decide (x < first)) ++ (List.range n).map (fun i => first + i) ++ l.filter (fun x => decide (first + n ≤ x))

/-- Writing into FW_STAGE: the bytes, the map of lines; held microcode is gone (R480, R481). -/
def State.fwWrite (s : State) (off : Nat) (d : Bytes) : State :=
  s.setFw (fun w => { w with
    mem := (d.mapIdx (fun i b => (off + i, b))).foldl (fun m e => CellList.set (fun _ => 0) m e.1 e.2) w.mem
    lines := addLines w.lines off d.length
    held := none })

/-- Either side replays. -/
def State.anyReplay (s : State) : Bool := s.sideReplaying 0 || s.sideReplaying 1

/-- The region is busy for a transfer into it, or out of it (R340, R480). -/
def State.regionBusy (s : State) (r : Nat) (into : Bool) : Bool :=
  if r = 0 then
    (if into then decide (s.snapState = 1) || decide (s.snapState = 2) || s.anyReplay else decide (s.snapState = 2))
  else into && s.fw.checking.isSome

/-- Writing into a region; a write of any of bytes 0 to 127 of SNAPSHOT has the header checked again (R340). -/
def State.regionWrite (s : State) (r off : Nat) (d : Bytes) : State :=
  if r = 0 then (s.snapWrite off d).when (decide (off < 128) && decide (d ≠ [])) State.checkHeader else s.fwWrite off d

/-! ### The image check (R479, R480) -/

/-- The header of the staged image. -/
def State.fwHeader (s : State) : Bytes := s.regionRead 1 0 256

/-- IMAGE_LEN as received. -/
def imageLen (h : Bytes) : Nat := leAt h 8 4

/-- The header carries MAGIC and VERSION, and every line of the image has been written. -/
def State.imageComplete (s : State) : Bool :=
  let h := s.fwHeader
  decide (leAt h 0 4 = 0x4E5A4657) && decide (leAt h 4 1 = 1) && decide (imageLen h ≤ 64 * 2 ^ 20) &&
  (List.range (ceilDiv (imageLen h) 64)).all (fun i => s.fw.lines.contains i)

/-- The header has the form of R479. -/
def headerForm (h : Bytes) : Bool :=
  let target := leAt h 5 1
  decide (1 ≤ target ∧ target ≤ 3) && decide (leAt h 6 1 ≤ (if target = 3 then 1 else 0)) && decide (leAt h 7 1 = 0) &&
  decide (imageLen h % 64 = 0) && decide (4096 ≤ imageLen h) && decide (imageLen h ≤ 64 * 2 ^ 20) &&
  decide (slice h 112 144 = zeros 144)

/-- The outcome of the check: 0, or the code of R480. -/
def State.imageCheck (s : State) : Nat :=
  let h := s.fwHeader
  if !(headerForm h) then 0x40
  else if h32 (s.regionRead 1 256 (imageLen h - 256)) ≠ slice h 16 32 then 0x41
  else if !(ed25519.verify Config.releaseKey (slice h 48 64) [] (slice h 0 48)) then 0x42
  else 0

/-- A bank's BAD flag. -/
def State.setBad (s : State) (b : Nat) (bad : Bool) : State := s.setBit A.bootRecFlags (1 + b) bad

/-- The boot record's image of an installation's bank is BAD while it is written (R481). -/
def State.beginInstall (s : State) : State :=
  if s.imageCheck = 0 ∧ leAt s.fwHeader 5 1 = 1 then s.setBad (1 - s.bankRunning) true else s

/-- The check of a complete image begins: the XFER or STAGE that completed it waits (R480). -/
def State.beginCheck (s : State) (o : FwOwner) : State := (s.setFw (fun w => { w with checking := some o })).beginInstall

/-- An image that passed its check is installed (R481): the status, and the state. -/
def State.install (s : State) (src : Source) (flashOk : Bool) : Nat × State :=
  let h := s.fwHeader
  let target := leAt h 5 1
  let x : FwImage := ⟨leAt h 12 4, slice h 16 32⟩
  if target = 2 then (0, (s.setFw (fun w => { w with held := some x })).journalFirmware src 1 2 0 x.digest)
  else if !flashOk then (0x43, s)
  else if target = 1 then
    let b := 1 - s.bankRunning
    let t := { s with boot := { s.boot with banks := modAt s.boot.banks b (fun _ => x) } }
    (0, (t.setBad b false).journalFirmware src 1 1 b x.digest)
  else
    let a := leAt h 6 1
    let t := s.setSide a (fun y => { y with slot := x.digest, fallback := y.slot })
    (0, t.journalFirmware src 1 3 a x.digest)

/-- The check and installation end: the status of the transfer that waited (R480 to R482). -/
def State.endCheck (s : State) (src : Source) (flashOk : Bool) : Nat × State :=
  let h := s.fwHeader
  let c := s.imageCheck
  let r := if c = 0 then s.install src flashOk
    else (c, s.journalFirmware src 5 (leAt h 5 1) (leAt h 6 1) (slice h 16 32))
  (r.1, r.2.setFw (fun w => { w with lines := [], checking := none }))

/-! ### XFER (R340, R480) -/

/-- A transfer of the ring is under way: it waits for the end of a check. -/
def State.xferRunning (s : State) (n : Nat) : Bool :=
  match s.fw.checking with
  | some (.ring m _) => decide (m = n)
  | _ => false

/-- XFER: the first waiting descriptor of XFER ring `n`, with the host bytes that could be read for it and whether all could. -/
def State.xfer (s : State) (n : Nat) (data : Bytes) (ok : Bool) : State :=
  if s.ringType n ≠ 6 ∨ s.ringLive n = false ∨ s.xferRunning n = true then s
  else match s.startWork n with
    | (none, t) => t
    | (some d, t) =>
      let r := d.ctl / 2 % 8
      let into := d.ctl.testBit 0
      if !(regionOk r d.arg d.len) then t.endWork n d.slot 0x42 0
      else if t.regionBusy r into then t.endWork n d.slot 0x0C 0
      else if !into then (t.hostWrite d.addr (t.regionRead r d.arg d.len)).endWork n d.slot 0 d.len
      else if !ok then
        let part := data.take d.len
        (t.regionWrite r d.arg part).endWork n d.slot 0x41 part.length
      else
        let t := t.regionWrite r d.arg (slice data 0 d.len)
        if r = 1 ∧ t.imageComplete = true then t.beginCheck (.ring n d) else t.endWork n d.slot 0 d.len

/-- The check that an XFER began ends, and the XFER completes (R480). -/
def State.xferChecked (s : State) (flashOk : Bool) : State :=
  match s.fw.checking with
  | some (.ring n d) =>
    let r := s.endCheck .host flashOk
    r.2.endWork n d.slot r.1 d.len
  | _ => s

end Sys2Proof.Machine
end

