-- ==== Sys2Proof/Machine/PtpSlave.lean ====
section
/-!
DEFINITION. PTP as a reference (R265 to R268), SyncE and ESMC (R269 to R272), group PTP_CFG (R273 to R275).
-/

namespace Sys2Proof.Machine

/-! ### Slave instances (R265, R266) -/

/-- Slave instance `n`. -/
def State.slave (s : State) (n : Nat) : PtpSlave := s.ptp.slaves.getD n PtpSlave.empty

/-- Changing a slave instance. -/
def State.setSlave (s : State) (n : Nat) (f : PtpSlave → PtpSlave) : State :=
  { s with ptp := { s.ptp with slaves := modAt s.ptp.slaves n f } }

/-- STATE of a slave instance: 0 DISABLED, 1 LISTENING, 2 UNCALIBRATED, 3 SLAVE. -/
def State.slvState (s : State) (n : Nat) : Nat := s.f (A.ptpSlvState n) 0 3

/-- A change of state: outside SLAVE the reference is lost (R266). -/
def State.setSlv (s : State) (n st : Nat) : State :=
  let was := s.slvState n
  let t := s.sfW (A.ptpSlvState n) 0 3 st
  let t := if st = 3 then t else t.lose (8 + n)
  if was = 3 ∧ st ≠ 3 then t.raise (A.ptpSlvEvent n) 1 else t

/-- The dataset fields of an Announce. -/
def annClass (d : Bytes) : Nat := beAt d 48 1
def annAcc (d : Bytes) : Nat := beAt d 49 1
def annVar (d : Bytes) : Nat := beAt d 50 2
def annPrio1 (d : Bytes) : Nat := beAt d 47 1
def annPrio2 (d : Bytes) : Nat := beAt d 52 1
def annGm (d : Bytes) : Nat := beAt d 53 8
def annSteps (d : Bytes) : Nat := beAt d 61 2
def annUtc (d : Bytes) : Int := signed (beAt d 44 2) 16
def annFlags (d : Bytes) : Nat := beAt d 7 1

/-- A foreign master counts (R265): it is not one of those ignored, and two Announces came within four intervals (PRESUMED, the
qualification of IEEE 1588). -/
def State.foreignOk (s : State) (n : Nat) (f : Foreign) : Bool :=
  let d := f.ann
  let window := 4 * logPeriod (s.slvLogAnn n) * 2 ^ 48
  !(decide (annClass d = 255) || decide (255 ≤ annSteps d) || decide (be 8 (annGm d) = s.clockId)) &&
  (match f.before with
   | some b => decide (f.last ≤ b + window) && decide (s.ts.meas ≤ f.last + window)
   | none => false)

/-- The comparison key of a foreign master in slot `m` (R265): smaller is better (the orders within the named comparisons are
PRESUMED from IEEE 1588 and G.8275.1/G.8275.2). -/
def State.foreignKey (s : State) (n m : Nat) (f : Foreign) : List Nat :=
  let d := f.ann
  if cfgProfile (s.rd (A.ptpSlvCfg n)) = 0 then
    [annPrio1 d, annClass d, annAcc d, annVar d, annPrio2 d, annGm d, annSteps d, ofBe f.port]
  else
    let head := [annClass d, annAcc d, annVar d, annPrio2 d, s.f (A.ptpSlvPrio n) (8 * m) 8]
    if annClass d ≤ 127 then head ++ [annSteps d, annGm d, ofBe f.port] else head ++ [annGm d, annSteps d, ofBe f.port]

/-- Lexicographic order. -/
def keyBefore : List Nat → List Nat → Bool
  | [], _ => false
  | _ :: _, [] => false
  | a :: s, b :: t => if a < b then true else if b < a then false else keyBefore s t

/-- The same grandmaster is compared by stepsRemoved and the sender alone (PRESUMED from IEEE 1588). -/
def State.betterForeign (s : State) (n i j : Nat) (f g : Foreign) : Bool :=
  if annGm f.ann = annGm g.ann then keyBefore [annSteps f.ann, ofBe f.port] [annSteps g.ann, ofBe g.port]
  else keyBefore (s.foreignKey n i f) (s.foreignKey n j g)

/-- The best foreign master that counts. -/
def State.bestMaster (s : State) (n : Nat) : Option Nat :=
  (List.range 4).foldl (fun b m => match (s.slave n).masters.getD m none with
    | none => b
    | some f =>
      if s.foreignOk n f then
        (match b with
         | none => some m
         | some k => match (s.slave n).masters.getD k none with
           | some g => if s.betterForeign n m k f g then some m else b
           | none => some m)
      else b) none

/-- The module's port on a slave instance. -/
def slvPort (n : Nat) : Nat := 9 + n

/-- MASTERm as 16 bytes. -/
def State.masterIp (s : State) (n m : Nat) : Bytes := ipBytes (fun j => s.rd (A.ptpSlvMaster n (4 * m + j)))

/-- A slave's unicast addressing toward MASTERm. -/
def State.masterAddr (s : State) (n m port : Nat) : Addressing :=
  let cfg := s.rd (A.ptpSlvCfg n)
  { s.mcastAddr (s.slvLink n) cfg (fld cfg 24 6) port with
    dst := be 6 (Config.nextHopMac (ofBe (s.masterIp n m))), dip := s.masterIp n m }

/-- UNICAST of a slave instance. -/
def State.slvUnicast (s : State) (n : Nat) : Bool := s.bit (A.ptpSlvCfg n) 6

/-- A REQUEST TLV of a slave instance: GRANT_DUR and the interval of the message type. -/
def State.requestTlv (s : State) (n mt : Nat) : Bytes :=
  let log := if mt = 11 then s.slvLogAnn n else if mt = 0 then s.slvLogSync n else s.slvLogDreq n
  be 2 4 ++ be 2 6 ++ [byte (mt * 16), byte (unsigned log 8)] ++ be 4 (s.f (A.ptpSlvRates n) 16 12)

/-- A Signaling message of a slave instance to MASTERm. -/
def State.slaveSignal (s : State) (n m : Nat) (tl : Bytes) : State :=
  let target := match (s.slave n).masters.getD m none with
    | some f => f.port
    | none => List.replicate 10 0xFF
  let d := s.ptpMessage 12 (cfgDomain (s.rd (A.ptpSlvCfg n))) 4 0 (slvPort n) (s.slave n).seqSig logUnicast (target ++ tl)
  (s.setSlave n (fun x => { x with seqSig := (x.seqSig + 1) % 65536 })).sendGeneral (s.slvLink n) (s.masterAddr n m 320) d none

/-- The grants a unicast slave wants: Announce from every configured master, Sync and Delay_Resp from the chosen one (R265). -/
def State.wantedGrants (s : State) (n : Nat) : List (Nat × Nat) :=
  if s.slvOn n && s.slvUnicast n && decide (s.slvState n ≠ 0) then
    (indices 4 (fun m => decide (s.masterIp n m ≠ zeros 16))).map (fun m => (m, 11)) ++
    (match (s.slave n).chosen with
     | some m => [(m, 0), (m, 9)]
     | none => [])
  else []

/-- Requests for every wanted grant that is neither held nor in its first half (R265). -/
def State.requestGrants (s : State) (n : Nat) : State :=
  let due : Nat × Nat → Bool := fun w =>
    match (s.slave n).grants.find? (fun g => decide (g.master = w.1) && decide (g.mtype = w.2)) with
    | none => true
    | some g => g.renewAt.any (fun t => decide (t ≤ s.measNs))
  let l := (s.wantedGrants n).filter due
  let t := s.setSlave n (fun x => { x with grants := x.grants.map (fun (g : SlaveGrant) =>
    if l.contains (g.master, g.mtype) then { g with renewAt := none } else g) })
  t.each (List.range 4) (fun m u =>
    let tl := (l.filter (fun w => decide (w.1 = m))).flatMap (fun w => u.requestTlv n w.2)
    if tl = [] then u else u.slaveSignal n m tl)

/-- A chosen master: what STATE, GM_ID and UTC show, and the class of the reference (R267). -/
def State.showMaster (s : State) (n m : Nat) (d : Bytes) : State :=
  let t := s.sfW (A.ptpSlvState n) 4 2 m
  let t := ((t.sfW (A.ptpSlvState n) 8 8 (annClass d)).sfW (A.ptpSlvState n) 16 8 (annAcc d)).sfW (A.ptpSlvState n) 24 8
    (min 255 (annSteps d))
  let t := (t.wr (A.ptpSlvGmIdLo n) (word (annGm d))).wr (A.ptpSlvGmIdHi n) (word (annGm d / 2 ^ 32))
  let fl := annFlags d
  let t := t.wr (A.ptpSlvUtc n) (word (unsigned (annUtc d) 16 + (fl / 4 % 2) * 2 ^ 16 + (fl % 2) * 2 ^ 17 + (fl / 2 % 2) * 2 ^ 18))
  t.setRef (8 + n) (fun r => { r with adv := ptpClass (annClass d) (annAcc d), raw := annClass d })

/-- Measurements start anew. -/
def PtpSlave.anew (x : PtpSlave) : PtpSlave :=
  { x with exchanges := [], syncs := [], pendSync := none, dreqs := [], noOffset := 0 }

/-- Choosing the master (R265, R266): a change always passes through UNCALIBRATED. -/
def State.chooseMaster (s : State) (n : Nat) : State :=
  if s.slvState n = 0 then s
  else
    let best := s.bestMaster n
    if best = (s.slave n).chosen then s
    else match best with
      | none => (s.setSlave n (fun x => { x.anew with chosen := none })).setSlv n 1
      | some m =>
        let t := s.setSlave n (fun x => { x.anew with chosen := some m, grants := x.grants.filter (fun g => decide (g.mtype = 11)) })
        let t := (t.setSlv n 2).raise (A.ptpSlvEvent n) 0
        let t := t.wr (A.ptpSlvDelay n) 0xFFFFFFFF
        let t := match (s.slave n).masters.getD m none with
          | some f => t.showMaster n m f.ann
          | none => t
        t.requestGrants n

/-- R268: what the chosen master says of UTC. -/
def State.slaveUtc (s : State) (n : Nat) (d : Bytes) : State :=
  let fl := annFlags d
  let u := annUtc d
  if fl / 4 % 2 = 0 then s
  else if fl % 4 = 0 then (if u = s.sf A.tscLeapCur 0 16 then s else s.raise (A.ptpSlvEvent n) 4)
  else if s.qstate (8 + n) = 3 then
    let off := if fl % 2 = 1 then u + 1 else u - 1
    let sec := ((((s.nowNs / 1000000000 : Nat) : Int) - u) / 86400 + 1) * 86400 + off
    let e : LeapEntry := ⟨sec.toNat, off, 2⟩
    if s.learntLeaps.contains e then s else (s.learnLeap sec.toNat off 2).raise (A.ptpSlvEvent n) 5
  else s

/-- The slot of a foreign master: its own, in unicast that of its address, else a free one. -/
def State.masterSlot (s : State) (n : Nat) (sip port : Bytes) : Option Nat :=
  if s.slvUnicast n then (List.range 4).find? (fun m => decide (s.masterIp n m = sip) && decide (sip ≠ zeros 16))
  else match (List.range 4).find? (fun m => ((s.slave n).masters.getD m none).any (fun f => decide (f.port = port))) with
    | some m => some m
    | none => (List.range 4).find? (fun m => match (s.slave n).masters.getD m none with
        | none => true
        | some f => decide (f.last + 4 * logPeriod (s.slvLogAnn n) * 2 ^ 48 < s.ts.meas) && decide ((s.slave n).chosen ≠ some m))

/-- An Announce reaches a slave instance. -/
def State.slaveAnnounce (s : State) (n : Nat) (sip d : Bytes) : State :=
  match s.masterSlot n sip (mPort d) with
  | none => s
  | some m =>
    let old := (s.slave n).masters.getD m none
    let f : Foreign := ⟨mPort d, d, s.ts.meas, old.bind (fun o => if o.port = mPort d then some o.last else none)⟩
    let t := (s.setSlave n (fun x => { x with masters := modAt x.masters m (fun _ => some f) })).chooseMaster n
    if (t.slave n).chosen = some m then (t.showMaster n m d).slaveUtc n d else t

/-- The chosen master's portIdentity. -/
def State.chosenPort (s : State) (n : Nat) : Option Bytes :=
  match (s.slave n).chosen with
  | none => none
  | some m => ((s.slave n).masters.getD m none).map (fun f => f.port)

/-- A completed Sync measurement: t2 - t1 in 2^-16 ps. -/
def State.slaveForward (s : State) (n : Nat) (fwd : Int) : State :=
  (s.setSlave n (fun x => { x with pendSync := none, syncs := (s.ts.meas, fwd) :: x.syncs.filter (fun e =>
    decide (s.ts.meas ≤ e.1 + secs 16)) })).inc (A.ptpSlvSyncRx n)

/-- t1 with its correction in 2^-16 ps. -/
def fineTime (d : Bytes) : Int := (mTime d : Int) * 65536000

/-- A Sync from the chosen master (R267): one-step, or two-step that waits for its Follow_Up. -/
def State.slaveSync (s : State) (n tRx : Nat) (d : Bytes) : State :=
  let t2 : Int := (tRx : Int) * 65536
  if beAt d 6 1 / 2 % 2 = 0 then s.slaveForward n (t2 - fineTime d - mCorr d * 1000)
  else s.setSlave n (fun x => { x with pendSync := some (mSeq d, t2, mCorr d) })

/-- A Follow_Up completes its Sync. -/
def State.slaveFollowUp (s : State) (n : Nat) (d : Bytes) : State :=
  match (s.slave n).pendSync with
  | some (q, t2, c) => if q = mSeq d then s.slaveForward n (t2 - fineTime d - (c + mCorr d) * 1000) else s
  | none => s

/-- A Delay_Resp completes an exchange with the latest Sync (R267). -/
def State.slaveDelayResp (s : State) (n : Nat) (d : Bytes) : State :=
  if slice d 44 10 = s.portId (slvPort n) then
    match (s.slave n).dreqs.find? (fun e => decide (e.1 = mSeq d)) with
    | none => s
    | some (q, t3) =>
      let t := s.setSlave n (fun x => { x with dreqs := x.dreqs.filter (fun e => decide (e.1 ≠ q)) })
      match (s.slave n).syncs with
      | [] => t
      | f :: _ =>
        let rev := fineTime d - mCorr d * 1000 - t3
        t.setSlave n (fun x => { x with exchanges := (s.ts.meas, rev + f.2) :: x.exchanges.filter (fun e =>
          decide (s.ts.meas ≤ e.1 + secs 16)) })
  else s

/-- SLAVE_MESSAGE_RX (R254, R265, R267): the oldest Sync, Follow_Up, Announce or Delay_Resp. -/
def State.slaveMessage (s : State) : State :=
  match s.takeClaim (fun c => decide (c.kind = .ptp) && decide (mType (ptpBytes c.frame) ≠ 1)) with
  | none => s
  | some (c, t) =>
    let d := ptpBytes c.frame
    match [0, 1].find? (fun n => t.slvOn n && decide (t.slvState n ≠ 0) && decide (t.slvLink n = c.frame.sl) &&
        decide (cfgDomain (t.rd (A.ptpSlvCfg n)) = mDomain d) &&
        decide (cfgTransport (t.rd (A.ptpSlvCfg n)) = ptpTransport c.frame)) with
    | none => t.inc A.ptpProtoDrop
    | some n =>
      if mType d = 11 then t.slaveAnnounce n (packetOf c.frame.data).sip d
      else if t.chosenPort n = some (mPort d) then
        (match mType d with
         | 0 => t.slaveSync n c.frame.tRx d
         | 8 => t.slaveFollowUp n d
         | 9 => t.slaveDelayResp n d
         | _ => t)
      else t

/-- ANN_TIMEOUT (R266). -/
def State.annTimeout (s : State) (n : Nat) : State :=
  match (s.slave n).chosen with
  | none => s
  | some m =>
    match (s.slave n).masters.getD m none with
    | none => s
    | some f =>
      if f.last + s.f (A.ptpSlvRates n) 12 4 * logPeriod (s.slvLogAnn n) * 2 ^ 48 ≤ s.ts.meas then
        ((s.setSlave n (fun x => { x.anew with masters := modAt x.masters m (fun _ => none), chosen := none })).setSlv n 1).raise
          (A.ptpSlvEvent n) 3
      else s

/-- Grants of a slave that have lapsed (R266). -/
def State.slaveLapse (s : State) (n : Nat) : State :=
  let ended := (s.slave n).grants.filter (fun g => decide (g.exp ≤ s.measNs))
  if ended = [] then s
  else
    let t := s.setSlave n (fun x => { x with grants := x.grants.filter (fun g => decide (s.measNs < g.exp)) })
    if t.slvState n ≠ 0 ∧ (t.slave n).chosen.isSome = true then t.setSlv n 2 else t

/-- SLAVE_GRANT_RENEW (R265). -/
def State.slaveRenew (s : State) (n : Nat) : State := (s.slaveLapse n).requestGrants n

/-- A grant, a refusal or a cancellation of a master for a message type (R265, R266). -/
def State.slaveGrant (s : State) (n m mt dur : Nat) : State :=
  let t := s.setSlave n (fun x => { x with grants := x.grants.filter (fun g => !(decide (g.master = m) && decide (g.mtype = mt))) })
  if dur = 0 then (t.raise (A.ptpSlvEvent n) 2).when (s.slave n).chosen.isSome (fun u => u.setSlv n 2)
  else t.setSlave n (fun x => { x with grants := x.grants ++
    [⟨m, mt, s.measNs + dur * 1000000000, some (s.measNs + dur * 500000000)⟩] })

/-- The unicast slave and master slot that a frame's source and domain name. -/
def State.slaveOf (s : State) (fr : RxFrame) : Option (Nat × Nat) :=
  let d := ptpBytes fr
  [0, 1].findSome? (fun n =>
    if s.slvOn n && s.slvUnicast n && decide (s.slvState n ≠ 0) && decide (s.slvLink n = fr.sl) &&
        decide (cfgDomain (s.rd (A.ptpSlvCfg n)) = mDomain d) &&
        decide (cfgTransport (s.rd (A.ptpSlvCfg n)) = ptpTransport fr) then
      ((List.range 4).find? (fun m => decide (s.masterIp n m = (packetOf fr.data).sip) &&
        decide (s.masterIp n m ≠ zeros 16))).map (fun m => (n, m))
    else none)

/-- GRANT_UNICAST_TRANSMISSION_RX (R266): the oldest Signaling message with GRANT or acknowledgement TLVs. -/
def State.grantReceived (s : State) : State :=
  match s.takeClaim (fun c => decide (c.kind = .signal 2)) with
  | none => s
  | some (c, t) =>
    match t.slaveOf c.frame with
    | none => t
    | some (n, m) =>
      t.each ((mTlvs (ptpBytes c.frame)).filter (fun e => decide (e.1 = 5))) (fun e u =>
        u.slaveGrant n m (beAt e.2 4 1 / 16) (beAt e.2 6 4))

/-- A CANCEL TLV for a context: the grant ends. -/
def State.cancelGrant (s : State) (i : Nat) (client port : Bytes) (mt : Nat) : State :=
  match s.findCtx i client port with
  | none => s
  | some (k, c) =>
    if (c.held mt).isSome then (s.setCtx k (c.grant mt none)).inc A.ptpCancelled else s

/-- UNICAST_CANCEL_RX (R263): the grants end and the cancellation is acknowledged; a slave's master may cancel too (R266). -/
def State.unicastCancel (s : State) : State :=
  match s.takeClaim (fun c => decide (c.kind = .signal 1)) with
  | none => s
  | some (c, t) =>
    let d := ptpBytes c.frame
    let tl := (mTlvs d).filter (fun e => decide (e.1 = 6))
    let ack := tl.flatMap (fun e => cancelTlv 7 (beAt e.2 4 1 / 16))
    match t.slaveOf c.frame with
    | some (n, m) =>
      let u := t.each tl (fun e u => u.setSlave n (fun x => { x with grants := x.grants.filter (fun g =>
        !(decide (g.master = m) && decide (g.mtype = beAt e.2 4 1 / 16))) }))
      (u.when (u.slave n).chosen.isSome (fun v => v.setSlv n 2)).slaveSignal n m ack
    | none =>
      match t.ucastInst c.frame.sl (mDomain d) (ptpTransport c.frame) with
      | none => t.inc A.ptpProtoDrop
      | some i =>
        let client := clientOf (packetOf c.frame.data)
        let q := t.signalSeq i c.frame.sl client (mPort d)
        let u := q.2.each tl (fun e u => u.cancelGrant i client (mPort d) (beAt e.2 4 1 / 16))
        ((u.sendSignal c.frame.sl (mDomain d) (t.ptpReply c.frame 320) (mPort d) q.1 ack).showCtxs).armPtp

/-! ### The slave's measurement (R267) -/

/-- How many entries are the smallest 25 % of `n`: the quotient's rounding is not stated; at least one. -/
def quarter (n : Nat) : Nat := max 1 (qdiv (n : Nat) 4).toNat

/-- The evaluation of a slave instance at a whole second: the offset of the reference, or one second more without. -/
def State.slaveEvaluate (s : State) (n : Nat) : State :=
  let t := s.slaveLapse n
  let x := t.slave n
  if x.chosen.isNone ∨ t.slvState n < 2 then t
  else
    let recent : List (Nat × Int) → List (Nat × Int) := fun l => l.filter (fun e => decide (t.ts.meas ≤ e.1 + secs 16))
    let ds := ((recent x.exchanges).map Prod.snd).foldr insertInt []
    let fw := ((recent x.syncs).map Prod.snd).foldr insertInt []
    let k := quarter ds.length
    let limit := fw.getD (quarter fw.length - 1) 0
    let mine := ((x.syncs.filter (fun e => decide (t.ts.meas ≤ e.1 + secs 1))).map Prod.snd).filter (fun f => decide (f ≤ limit))
    if ds = [] ∨ mine = [] then
      let u := t.setSlave n (fun y => { y with noOffset := y.noOffset + 1 })
      if 3 ≤ (u.slave n).noOffset ∧ u.slvState n = 3 then u.setSlv n 2 else u
    else
      let sum := (ds.take k).sum
      let m := mine.length
      let d := qdiv sum (2 * k * 65536)
      let theta := qdiv (sum * m - 2 * k * mine.sum) (2 * k * m * 65536)
      let u := (t.setSlave n (fun y => { y with noOffset := 0 })).wr (A.ptpSlvDelay n) (wordOfInt d)
      (u.setSlv n 3).deliver (8 + n) theta

/-- The firing of a slave's entry (R259): its Delay_Req is booked while a master is chosen. -/
def State.slaveRound (s : State) (n lo : Nat) : State :=
  match (s.slave n).chosen with
  | none => s
  | some m =>
    let sl := s.slvLink n
    let live := !(s.slvUnicast n) || (s.slave n).grants.any (fun g => decide (g.master = m) && decide (g.mtype = 9) &&
      decide (s.measNs < g.exp))
    if s.slvOn n = false ∨ s.linkUp sl = false ∨ live = false then s
    else
      let cfg := s.rd (A.ptpSlvCfg n)
      let a := if s.slvUnicast n then s.masterAddr n m 319 else s.mcastAddr sl cfg (fld cfg 24 6) 319
      let q := (s.slave n).seqDreq
      (s.setSlave n (fun x => { x with seqDreq := (q + 1) % 65536 })).bookEvent sl lo (.delayReq n a q) a

/-- PTP_SYNC (R259): the due entry fires, a link's or a slave's. -/
def State.ptpSync (s : State) : State :=
  s.fireDue (fun e => decide (e.action = 0x12)) (fun e t =>
    let lo := (e.skipAt.getD e.atNs) * 1000 + t.syncLead
    if e.target < 128 then t.syncRound (e.target / 16) ((e.target % 16 : Nat) - 7) lo
    else t.slaveRound (e.target - 128) lo)

/-- A slave instance starts anew, DISABLED or LISTENING as its words and its link have it (R266). -/
def State.slaveReset (s : State) (n : Nat) : State :=
  let t := s.setSlave n (fun x => { PtpSlave.empty with seqDreq := x.seqDreq, seqSig := x.seqSig })
  let t := t.setSlv n (if s.slvOn n && s.linkUp (s.slvLink n) then 1 else 0)
  let t := t.sfW (A.ptpSlvState n) 4 28 (resetOf (A.ptpSlvState n) >>> 4).toNat
  let t := ((t.wr (A.ptpSlvGmIdLo n) 0).wr (A.ptpSlvGmIdHi n) 0).wr (A.ptpSlvDelay n) 0xFFFFFFFF
  (t.wr (A.ptpSlvUtc n) 0).requestGrants n

/-- A timescale step of `d` ns: received and sent instants move with it (R261, R267). -/
def State.ptpStepped (s : State) (d : Int) : State :=
  let fine := d * 65536000
  let t := { s with ports := { s.ports with claims := s.ports.claims.map (fun (c : Claim) =>
    if c.kind = ClaimKind.ptp then { c with frame := { c.frame with tRx := ((c.frame.tRx : Int) + 1000 * d).toNat } } else c) } }
  t.each [0, 1] (fun n u => u.setSlave n (fun (x : PtpSlave) => { x with
    syncs := x.syncs.map (fun e => (e.1, e.2 + fine))
    pendSync := x.pendSync.map (fun p => (p.1, p.2.1 + fine, p.2.2))
    dreqs := x.dreqs.map (fun e => (e.1, e.2 + fine)) }))

/-! ### SyncE (R269 to R272) -/

/-- A SyncE word is in its safe state. -/
def State.synceFaulty (s : State) : Bool := s.ptpFaulty A.ptpSynceCfg || s.ptpFaulty A.ptpSynceIn

/-- OPTION 2. -/
def State.option2 (s : State) : Bool := s.bit A.ptpSynceCfg 0

/-- The link of SyncE input `x`. -/
def State.synceLink (s : State) (x : Nat) : Nat := s.f A.ptpSynceIn (8 * x) 3

/-- A link is a SyncE output. -/
def State.synceOut (s : State) (sl : Nat) : Bool := s.bit A.ptpSynceCfg (8 + sl)

/-- The class of the selected reference. -/
def State.selMq (s : State) : Option Nat := if s.sel ≠ 0xFF ∧ s.qstate s.sel = 3 then some (s.refMq s.sel) else none

/-- The QL of outputs that do not carry the selected input (R269): SSM and enhanced code, and whether it is DNU. -/
def State.outputQl (s : State) : Nat × Nat :=
  let o2 := s.option2
  let dnu := (0xF, 0xFF)
  let m := s.tscMode
  let enhSent := !o2 && s.bit A.ptpSynceCfg 1
  if s.unserved ∨ s.synceFaulty then dnu
  else if s.freqSelected ∧ (s.sel = 10 ∨ s.sel = 11) then
    let e := s.ptp.esmc.getD (s.sel - 10) ⟨0xF, 0xFF, 0, 0, 0⟩
    (e.ssm, if enhSent then e.enh else 0xFF)
  else
    let byClass : Option (Nat × Nat) := match s.selMq with
      | none => none
      | some c =>
        if c = 0 then (if m = 1 ∨ m = 2 then some (if o2 then (1, 0xFF) else (2, 0x21)) else none)
        else if c ≤ 2 then some (if o2 then (1, 0xFF) else (2, 0x20))
        else if c = 3 then some (if o2 then (7, 0xFF) else (4, 0xFF))
        else if c = 4 then some (if o2 then (4, 0xFF) else (8, 0xFF))
        else if c ≤ 6 then some (if o2 then (0xA, 0xFF) else (0xB, 0xFF))
        else none
    match byClass with
    | some q => (q.1, if enhSent then q.2 else 0xFF)
    | none =>
      if m = 3 then
        (if s.cartActive ∧ s.f A.holCartId 0 8 = 0x41 then (if o2 then (7, 0xFF) else (4, 0xFF))
         else (if o2 then (0xD, 0xFF) else (8, 0xFF)))
      else ((Config.unstatedQl o2).1 % 16, (Config.unstatedQl o2).2 % 256)

/-- The QL of one output: DNU on the link that carries the selected SyncE reference. -/
def State.linkQl (s : State) (sl : Nat) : Nat × Nat :=
  if s.freqSelected ∧ (s.sel = 10 ∨ s.sel = 11) ∧ s.synceLink (s.sel - 10) = sl then (0xF, 0xFF) else s.outputQl

/-- The enhanced TLV (R270): cascaded counts 1 and 0 for the module's own QL, one more eEEC than received when it passes on. -/
def State.enhancedTlv (s : State) (enh : Nat) : Bytes :=
  let counts : Bytes := if s.freqSelected ∧ (s.sel = 10 ∨ s.sel = 11) then
      [byte (min 255 ((s.ptp.esmc.getD (s.sel - 10) ⟨0, 0, 0, 0, 0⟩).eeecs + 1)), 0] else [1, 0]
  [2, 0, 0x14, byte enh] ++ s.clockId ++ [0] ++ counts ++ zeros 5

/-- An ESMC PDU (R270). -/
def State.esmcFrame (s : State) (sl : Nat) (event : Bool) (q : Nat × Nat) : Bytes :=
  let enh := if !s.option2 && s.bit A.ptpSynceCfg 1 then s.enhancedTlv q.2 else []
  padFrame ([1, 0x80, 0xC2, 0, 0, 2] ++ s.station sl ++ [0x88, 0x09, 0x0A, 0, 0x19, 0xA7, 0, 1, byte (16 + 8 * b2n event)] ++ zeros 3 ++
    [1, 0, 4, byte q.1] ++ enh)

/-- One ESMC PDU on an output that is UP. -/
def State.sendEsmc (s : State) (sl : Nat) (event : Bool) : State :=
  if s.linkUp sl then
    let q := s.linkQl sl
    ({ s with ptp := { s.ptp with sentQl := modAt s.ptp.sentQl sl (fun _ => some q) } }).queuePre sl (s.esmcFrame sl event q) none
      (some A.ptpEsmcTx)
  else s

/-- SYNCE_QL shows what is sent; QL_CHANGE. -/
def State.showQl (s : State) : State :=
  let q := s.outputQl
  let dnu := indices 8 (fun sl => s.synceOut sl && decide ((s.linkQl sl).1 = 0xF))
  let v := word (q.1 + 256 * q.2 + 65536 * (dnu.foldl (fun m sl => m + 2 ^ sl) 0))
  if s.rd A.ptpSynceQl = v then s else (s.wr A.ptpSynceQl v).raise A.ptpEvent 3

/-- After an evaluation the information PDUs, at other ticks an event PDU on each output whose QL has changed (R269). -/
def State.esmcTick (s : State) (second : Bool) : State :=
  let t := s.showQl
  t.each (indices 8 t.synceOut) (fun sl u =>
    if second then u.sendEsmc sl false
    else match u.ptp.sentQl.getD sl none with
      | some q => if q = u.linkQl sl then u else u.sendEsmc sl true
      | none => u)

/-- The enhanced code and eEEC count of a received PDU's enhanced TLV. -/
def esmcEnhanced (b : Bytes) : Nat × Nat :=
  if beAt b 14 1 = 2 ∧ beAt b 15 2 = 0x14 then (beAt b 17 1, beAt b 27 1) else (0xFF, 0)

/-- A well-formed ESMC PDU, from its subtype on (R270). -/
def esmcOk (b : Bytes) : Bool :=
  decide (beAt b 0 1 = 0x0A) && decide (beAt b 1 3 = 0x0019A7) && decide (beAt b 4 2 = 1) && decide (beAt b 6 1 / 16 = 1) &&
  decide (beAt b 10 1 = 1) && decide (beAt b 11 2 = 4) && decide (14 ≤ b.length)

/-- A PDU of SyncE input `x` sets its class (R271), and is counted the first time it is accepted; beyond 10 in one second it is
ignored. -/
def State.esmcInput (s : State) (x : Nat) (b : Bytes) (first : Bool) : State :=
  let sec := s.nowNs / 1000000000
  let old := s.ptp.esmc.getD x ⟨0xF, 0xFF, 0, 0, 0⟩
  let n := if old.sec = sec then old.count else 0
  if 10 ≤ n then s
  else
    let ssm := beAt b 13 1 % 16
    let e := esmcEnhanced b
    let enh := e.1
    let t := { s with ptp := { s.ptp with esmc := modAt s.ptp.esmc x (fun _ => ⟨ssm, enh, e.2, sec, n + 1⟩) } }
    (t.when first (fun u => u.inc A.ptpEsmcRx)).setRef (10 + x) (fun r => { r with
      adv := ssmClass t.option2 enh ssm, raw := ssm, lost := s.synceFaulty, lastSeen := t.ts.meas })

/-- ESMC_RX: the oldest ESMC PDU. -/
def State.esmcReceived (s : State) : State :=
  match s.takeClaim (fun c => decide (c.kind = .esmc)) with
  | none => s
  | some (c, t) =>
    let b := (packetOf c.frame.data).body
    if esmcOk b = false then t.inc A.ptpEsmcBad
    else t.each [0, 1] (fun x u =>
      if u.synceLink x = c.frame.sl then u.esmcInput x b (decide (x = 0) || decide (u.synceLink 0 ≠ c.frame.sl)) else u)

/-! ### Links going UP and DOWN, safe states, PTP_CFG -/

/-- What a link's change does to slaves and SyncE inputs (R266, R271). -/
def State.ptpLinkDown (s : State) (sl : Nat) : State :=
  let t := s.each [0, 1] (fun n u => if u.slvLink n = sl ∧ u.slvState n ≠ 0 then u.slaveReset n else u)
  t.each [0, 1] (fun x u => if u.synceLink x = sl then u.lose (10 + x) else u)

/-- A link has come UP: a slave on it listens. -/
def State.ptpLinkUp (s : State) (sl : Nat) : State :=
  s.each [0, 1] (fun n u => if u.slvLink n = sl ∧ u.slvOn n = true then u.slaveReset n else u)

/-- FROZEN of PTP. -/
def State.ptpFrozen (s : State) : State := s.setBit A.ptpStatus 8 (decide ((s.group 22).parity ≠ []))

/-- A CONFIG_PARITY fault in a PTP word (R273). -/
def State.ptpParityFault (s : State) (a : Nat) : State :=
  let t := (s.ptpFrozen).raise A.ptpEvent 4
  let t := t.each [0, 1] (fun n u => if (slvWords n).contains a then u.slaveReset n else u)
  let t := if t.synceFaulty then t.each [0, 1] (fun x u => u.lose (10 + x)) else t
  t.armPtp.showDataset

/-- The words of instance `i`. -/
def instWords (i : Nat) : List Nat := [A.ptpInstCfg i, A.ptpInstLinks i, A.ptpInstRates i, A.ptpInstDs i]

/-- A PTP_CFG application (R263): grants of changed instances are cancelled, changed slaves start anew, a changed SyncE input is
lost until its PDUs come, and the entries follow. -/
def State.applyPtpCfg (s : State) (old : Nat → Word) : State :=
  let changed : Nat → Bool := fun i => (instWords i).any (fun a => decide (old a ≠ s.rd a)) || !s.bit (A.ptpInstCfg i) 0
  let t := s.each (s.ptp.ctxs.filter (fun e => changed e.2.inst)) (fun e u =>
    u.cancelCtx (cfgDomain (old (A.ptpInstCfg e.2.inst))) e.1 e.2)
  let t := t.each [0, 1] (fun n u =>
    if (slvWords n).any (fun a => decide (old a ≠ u.rd a)) ∨ u.slvOn n ≠ decide (u.slvState n ≠ 0) then u.slaveReset n else u)
  let t := t.each [0, 1] (fun x u =>
    let u := u.setRef (10 + x) (fun r => { r with
      adv := ssmClass u.option2 (u.ptp.esmc.getD x ⟨0xF, 0xFF, 0, 0, 0⟩).enh (u.ptp.esmc.getD x ⟨0xF, 0xFF, 0, 0, 0⟩).ssm })
    if fld (old A.ptpSynceIn) (8 * x) 3 ≠ u.synceLink x then u.lose (10 + x) else u)
  (((t.ptpFrozen).showCtxs).armPtp).showDataset

/-- The check of PTP_CFG (R253, R275). -/
def checkPtpCfg (s : State) (w : Nat → Word) : Option Nat :=
  let inst := List.range 16
  let cfg : Nat → Word := fun i => w (A.ptpInstCfg i)
  let on : Nat → Bool := fun i => bitOf (cfg i) 0
  let links : Nat → Nat := fun i => fld (w (A.ptpInstLinks i)) 0 16
  let slv : Nat → Word := fun n => w (A.ptpSlvCfg n)
  let son : Nat → Bool := fun n => bitOf (slv n) 0
  let serves : Nat → Nat → Bool := fun i sl => (links i).testBit sl || (links i).testBit (8 + sl)
  let profileBad : Word → Bool → Bool → Bool := fun c mc uc =>
    let d := cfgDomain c
    match cfgProfile c with
    | 0 => decide (127 < d)
    | 1 => decide (cfgTransport c ≠ 0) || uc || decide (d < 24) || decide (43 < d)
    | _ => decide (cfgTransport c = 0) || mc || decide (d < 44) || decide (63 < d)
  let addrBad : Nat → Nat → Bool := fun idx tr =>
    !(s.bit (A.hrcAddrSvc idx) 0) || (decide (tr = 1) != decide ((s.addrIp idx).take 12 = zeros 10 ++ [0xFF, 0xFF]))
  firstReason [
    (!(rangesOk 22 w) || inst.any (fun i => decide (cfgProfile (cfg i) = 3) || decide (cfgTransport (cfg i) = 3) ||
        (decide (cfgProfile (cfg i) ≠ 0) && decide (fld (w (A.ptpInstDs i)) 16 8 ≠ 128))) ||
      [0, 1].any (fun n => decide (cfgProfile (slv n) = 3) || decide (cfgTransport (slv n) = 3)), 0x40),
    ((List.range 8).any (fun sl => decide (8 < (inst.filter (fun i => on i && (links i).testBit sl)).length)), 0x41),
    (inst.any (fun i => on i && profileBad (cfg i) (decide (links i % 256 ≠ 0)) (decide (links i / 256 ≠ 0))) ||
      [0, 1].any (fun n => son n && profileBad (slv n) (!(bitOf (slv n) 6)) (bitOf (slv n) 6)), 0x42),
    (inst.any (fun i => on i && (List.range 8).any (fun sl => serves i sl && !s.linkExists sl)) ||
      [0, 1].any (fun n => son n && !s.linkExists (fld (slv n) 16 3)) ||
      [0, 1].any (fun x => !s.linkExists (fld (w A.ptpSynceIn) (8 * x) 3)), 0x43),
    (decide (fld (w A.ptpClass7Radius) 0 22 ≤ fld (w A.ptpClass6Radius) 0 17) ||
      decide (fld (w A.ptpCatRadius) 0 22 ≤ fld (w A.ptpClass7Radius) 0 22), 0x44),
    ([0, 1].any (fun n => son n && inst.any (fun i => on i && serves i (fld (slv n) 16 3) &&
        decide (cfgDomain (cfg i) = cfgDomain (slv n)) && decide (cfgTransport (cfg i) = cfgTransport (slv n)))) ||
      (son 0 && son 1 && decide (fld (slv 0) 16 3 = fld (slv 1) 16 3) && decide (cfgDomain (slv 0) = cfgDomain (slv 1))), 0x45),
    (inst.any (fun i => on i && decide (cfgTransport (cfg i) ≠ 0) && decide (links i % 256 ≠ 0) &&
        addrBad (fld (cfg i) 16 6) (cfgTransport (cfg i))) ||
      [0, 1].any (fun n => son n && decide (cfgTransport (slv n) ≠ 0) && addrBad (fld (slv n) 24 6) (cfgTransport (slv n))), 0x46)]

end Sys2Proof.Machine
end

