-- ==== Sys2Proof/Machine/Tailrace.lean ====
section
/-!
DEFINITION. The tailrace's finalisation and departure (R209, R210, R229, R260), and what a link going UP or DOWN means to
every unit that uses it (R185, R266, R271, R272).
-/

namespace Sys2Proof.Machine

/-- The flags of an event message: two-step, and unicast for a context. -/
def eventFlags (two ctx : Bool) : Nat := 2 * b2n two + 4 * b2n ctx

/-- TWO_STEP of an instance. -/
def State.twoStep (s : State) (i : Nat) : Bool := s.bit (A.ptpInstCfg i) 5

/-- The log interval of a Sync: multicast, or 0x7F in unicast. -/
def State.syncLog (s : State) (i : Nat) (ctx : Option Nat) : Int := if ctx.isSome then logUnicast else s.instLogSync i

/-- The frame of an answer at finalisation, stamped with t_tx in ps (R209, R226, R239, R260). -/
def State.compose (s : State) (sl : Nat) (a : Answer) (tTx : Nat) : Bytes × State :=
  let st := stampOfPs tTx
  match a with
  | .ntp r addr => (padFrame (frameOf addr (s.ntpHeader r tTx)), s)
  | .fixed addr d => (padFrame (frameOf addr d), s)
  | .nts r addr uid c2s s2c n kod =>
    let q := s.ntsPayload r uid c2s s2c n kod tTx
    (padFrame (frameOf addr q.1), q.2)
  | .sync i ctx addr seq =>
    let two := s.twoStep i
    (padFrame (frameOf addr (s.ptpMessage 0 (cfgDomain (s.rd (A.ptpInstCfg i))) (eventFlags two ctx.isSome)
      (if two then 0 else (st % 65536 : Nat)) (sl + 1) seq (s.syncLog i ctx) (ptpTime st))), s)
  | .delayReq n addr seq =>
    (padFrame (frameOf addr (s.ptpMessage 1 (cfgDomain (s.rd (A.ptpSlvCfg n))) (4 * b2n (s.slvUnicast n)) 0 (slvPort n) seq
      logUnicast (ptpTime st))), s)

/-- A request whose receive timestamp a step has moved counts once in STEP_ADJ (R229). -/
def State.stepAdjust (s : State) (r : Option Request) : Option Request × State :=
  match r with
  | none => (none, s)
  | some q => if q.steps ≠ s.ports.steps ∧ q.adjusted = false then
      (some { q with adjusted := true }, s.inc (A.svpPipeStepAdj q.pipe)) else (some q, s)

/-- A sampled request notes the radius that its answer carries (R503). -/
def State.noteRadius (s : State) (r : Option Request) : Option Request :=
  r.map (fun q => { q with sample := q.sample.map (fun (t : SampleTag) => { t with radius := s.ts.rho }) })

/-- An answer carries a receive timestamp that a step moves. -/
def Answer.stamped : Answer → Bool
  | .ntp .. => true
  | .nts _ _ _ _ _ _ kod => !kod
  | _ => false

/-- FINALISE (R209): the earliest booked frame that is not final, from 500 ns before its slot. -/
def State.finalise (s : State) (sl : Nat) : State :=
  match earliestSlot (s.lnk sl).slots (fun x => x.final.isNone && decide (x.slot ≤ 500000 + s.nowPs)) with
  | none => s
  | some x =>
    let tTx := (x.slot + s.dTx sl).toNat
    let c := s.compose sl x.answer tTx
    let q := if x.answer.stamped then c.2.stepAdjust x.req else (x.req, c.2)
    q.2.setLink sl (fun l => { l with slots := l.slots.map (fun y =>
      if y.slot = x.slot then { y with final := some (c.1, tTx), req := if x.answer.stamped then q.2.noteRadius q.1 else q.1 } else y) })

/-- What follows a Sync that has left: its counters, and a two-step Sync's Follow_Up with the instant of actual departure. -/
def State.syncSent (s : State) (sl i : Nat) (ctx : Option Nat) (addr : Addressing) (seq tTx : Nat) : State :=
  let t := (s.inc A.ptpTxEvent).inc (A.ptpInstSyncTx i)
  if t.twoStep i then
    let st := stampOfPs tTx
    t.sendGeneral sl (if addr.v = 0 then addr else withPort addr 320) (t.ptpMessage 8 (cfgDomain (t.rd (A.ptpInstCfg i)))
      (eventFlags false ctx.isSome) (st % 65536 : Nat) (sl + 1) seq (t.syncLog i ctx) (ptpTime st)) none
  else t

/-- SLOT_START (R210): the committed frame whose slot has come leaves. -/
def State.slotStart (s : State) (sl : Nat) : State :=
  match earliestSlot (s.lnk sl).slots (fun x => x.committed && decide (x.slot ≤ s.nowPs)) with
  | none => s
  | some x =>
    let t := s.setLink sl (fun l => { l with
      slots := l.slots.filter (fun y => decide (y.slot ≠ x.slot))
      express := (x.slot, s.lineTime sl x.len) :: l.express.filter (s.keepStretch sl) })
    match x.final with
    | none => t
    | some (d, tTx) =>
      let t := t.sendFrame sl tTx d
      match x.answer with
      | .sync i ctx addr seq => t.syncSent sl i ctx addr seq tTx
      | .delayReq n _ seq =>
        ((t.inc A.ptpTxEvent).inc (A.ptpSlvDreqTx n)).setSlave n (fun y => { y with
          dreqs := (seq, (tTx : Int) * 65536) :: y.dreqs.take 63 })
      | _ => t.sampleSent x.req tTx (x.slot - x.first) (decide (x.slot ≠ x.first))

/-! ### Links -/

/-- A link goes DOWN: the port, the PTP slaves on it and its SyncE inputs. -/
def State.portDown (s : State) (sl : Nat) : State := (s.linkDown sl).ptpLinkDown sl

/-- LINK_UP: a squelched transmitter stays off (R272). -/
def State.portUp (s : State) (sl rxDyn txDyn : Nat) : State :=
  if (s.lnk sl).squelched then s
  else
    let t := s.linkComesUp sl rxDyn txDyn
    if s.linkUp sl = false ∧ t.linkUp sl = true then t.ptpLinkUp sl else t

/-- A MACn_PORT application (R185, R263): its changed links go DOWN, then the mode and words are in force. -/
def State.portApplied (s : State) (c : Nat) (old : Nat → Word) : State :=
  let t := s.each ((linksOf c).filter (fun sl => s.portTouches c old sl)) (fun sl u => u.portDown sl)
  let t := t.applyMacPort c
  if fld (old (A.macPortCfg c)) 0 2 = t.f (A.macPortCfg c) 0 2 then t
  else (linksOf c).foldl (fun u sl => u.freeLinkCtxs sl) t

/-- The SyncE outputs are squelched while the timescale is LOST and FREQ_SQUELCH is set (R272). -/
def State.squelchSynce (s : State) : State :=
  if s.tscMode = 4 ∧ s.freqSquelch = true then
    s.each (indices 8 (fun sl => s.synceOut sl && !(s.lnk sl).squelched)) (fun sl t =>
      ((t.portDown sl).setLink sl (fun l => { l with squelched := true })).showTransmitters (sl / 4))
  else s

/-- The restart condition of R116 holds: the transmitters are enabled again. -/
def State.unsquelchSynce (s : State) : State :=
  s.each (indices 8 (fun sl => (s.lnk sl).squelched)) (fun sl t =>
    (t.setLink sl (fun l => { l with squelched := false })).showTransmitters (sl / 4))

end Sys2Proof.Machine
end

