-- ==== Sys2Proof/Machine/Outputs.lean ====
section
/-!
DEFINITION. The connectors (R433 to R457): PPS-OUT and FREQ-OUT, pulses and their squelch (R26, R29, R45, R116), the ToD
sentences in and out (R444 to R446), the alarm contacts (R442) and the connector words of PWR_CFG.
-/

namespace Sys2Proof.Machine

/-! ### Outputs (R437 to R439, R116) -/

/-- A timing output. -/
def State.outUnit (s : State) (k : Nat) : Output := s.pwr.outs.getD k Output.empty

/-- Changing a timing output. -/
def State.setOut (s : State) (k : Nat) (f : Output → Output) : State :=
  { s with pwr := { s.pwr with outs := modAt s.pwr.outs k f } }

/-- The words of an output. -/
def outWords (k : Nat) : List Nat :=
  if k < 4 then [A.pwrPpsOutCfg k, A.pwrPpsOutWidth k, A.pwrPpsOutOffset k] else [A.pwrFreqOutCfg (k - 4), A.pwrFreqOutHz (k - 4)]

/-- The CFG word of an output. -/
def outCfg (k : Nat) : Nat := if k < 4 then A.pwrPpsOutCfg k else A.pwrFreqOutCfg (k - 4)

/-- An output in the safe state of R457 holds low. -/
def State.outHeld (s : State) (k : Nat) : Bool := (outWords k).any (fun a => (s.group 27).parity.contains a)

/-- An output is enabled and driven (R439, R452, R457). -/
def State.outOn (s : State) (k : Nat) : Bool := s.bit (outCfg k) 0 && s.pwr.driven && !(s.outHeld k)

/-- R116 withholds the next edge of an output: since LOST, until an edge at which the timescale is ACQUIRING or LOCKED and no step
is pending. -/
def State.withheld (s : State) (k : Nat) : Bool :=
  (if k < 4 then s.ppsSquelch else s.freqSquelch) &&
  (decide (s.tscMode = 4) || ((s.outUnit k).squelched &&
    !((decide (s.tscMode = 1) || decide (s.tscMode = 2)) && !(s.bit A.tscState 3))))

/-- The measurement scale, in 2^-48 ns, when the timescale reaches an instant given in ps. -/
def State.measAt (s : State) (ps : Int) : Int :=
  (s.ts.meas : Int) + qdiv ((ps * 2 ^ 48 - (s.ts.acc : Int) * 1000) * (rate (s.sf A.tscFreqCorr 0 32) 0 : Nat))
    (1000 * rate (s.sf A.tscFreqCorr 0 32) s.ts.ySlew)

/-- The edge would come less than 0.5 s after the last one of the output (R45). -/
def State.tooSoon (s : State) (k : Nat) (m : Int) : Bool :=
  match s.ts.lastEdge.getD k none with
  | some x => decide (m < (x : Int) + 500000000 * 2 ^ 48)
  | none => false

/-- A wave of a FREQ-OUT starts, changes or stops. -/
def State.setWave (s : State) (k hz : Nat) : State :=
  if (s.outUnit k).hz = hz then s else (s.setOut k (fun o => { o with hz := hz })).emit (.wave k hz)

/-- The output unit places an edge, with the values in force at the dispatch (R29, R437 to R439). -/
def State.placeEdge (s : State) (k base : Nat) : State :=
  if s.outOn k then
    let held := s.withheld k
    let t := s.setOut k (fun o => { o with squelched := held })
    if held then t.when (decide (4 ≤ k)) (fun t => t.setWave k 0)
    else if k < 4 then
      let ps : Int := (base : Int) * 1000 + s.sf (A.pwrPpsOutOffset k) 0 32
      let m := s.measAt ps
      if s.tooSoon k m then t
      else
        let w := s.f (A.pwrPpsOutWidth k) 0 30
        let t := { t with ts := { t.ts with lastEdge := modAt t.ts.lastEdge k (fun _ => some m.toNat) } }
        (t.setOut k (fun o => { o with pulseEnd := some (m.toNat + w * 2 ^ 48), ampl := s.bit (outCfg k) 1 })).emit
          (.edge k ps true)
    else
      let t := t.setOut k (fun o => { o with ampl := s.bit (outCfg k) 1 })
      (t.setWave k (s.f (A.pwrFreqOutHz (k - 4)) 0 28)).emit (.edge k ((base : Int) * 1000) true)
  else s

/-- OUT_EDGE of an output: dispatched 10 microseconds early, or SKIPPED at a step (R29, R43). -/
def State.outEdge (s : State) (k : Nat) : State :=
  match dueEntry s.ts.calendar (10000 + s.nowNs) (fun e => decide (e.action = 0x11) && decide (e.target = k)) with
  | none => s
  | some (i, e) => (s.fireEntry i e).placeEdge k (e.skipAt.getD e.atNs)

/-- The end of a pulse, when its width has elapsed on the measurement scale (R26). -/
def State.pulseEnd (s : State) (k : Nat) : State :=
  match (s.outUnit k).pulseEnd with
  | none => s
  | some e =>
    if e ≤ s.ts.meas then (s.setOut k (fun o => { o with pulseEnd := none })).emit (.edge k (s.nowPs : Int) false) else s

/-- The OUT_EDGE entry of an output exists while the output is enabled; `fresh` places it anew, at the first whole second
dispatched from now on (R439). -/
def State.armOut (s : State) (k : Nat) : State :=
  if s.outOn k then
    if s.ts.calendar.any (fun e => decide (e.2.action = 0x11) && decide (e.2.target = k)) then s
    else s.calOwn (ownEntry 0x11 k (s.secondAfter 10000) 1000000000 0 0)
  else (s.calDrop 0x11 k).when (decide (4 ≤ k)) (fun t => t.setWave k 0)

/-- Every output after a change of its words; a FREQ-OUT whose HZ changed holds low until its next OUT_EDGE (R439). -/
def State.armOuts (s : State) (old : Nat → Word) : State :=
  s.each (List.range 6) (fun k t =>
    (t.when (decide (4 ≤ k) && decide (old (A.pwrFreqOutHz (k - 4)) ≠ t.rd (A.pwrFreqOutHz (k - 4))))
      (fun t => t.setWave k 0)).armOut k)

/-- On entry into LOST with FREQ_SQUELCH the waves of FREQ-OUT stop (R116). -/
def State.squelchWaves (s : State) : State :=
  if s.tscMode = 4 ∧ s.freqSquelch = true then
    s.each [4, 5] (fun k t => (t.setOut k (fun o => { o with squelched := true })).setWave k 0)
  else s

/-- R116's restart condition, on the SyncE transmitters. -/
def State.squelchEnds (s : State) : State :=
  s.when ((decide (s.tscMode = 1) || decide (s.tscMode = 2)) && !(s.bit A.tscState 3) || !s.freqSquelch) (fun t => t.unsquelchSynce)

/-! ### ToD in (R444, R445) -/

/-- Bytes cut at every separator. -/
def cutAt (sep : Nat) : Bytes → List Bytes
  | [] => [[]]
  | b :: t => if b.toNat = sep then [] :: cutAt sep t else
    match cutAt sep t with
    | h :: r => (b :: h) :: r
    | [] => [[b]]

/-- A decimal digit's code. -/
def isDigit (b : Byte) : Bool := decide (48 ≤ b.toNat ∧ b.toNat ≤ 57)

/-- The number that decimal digits spell. -/
def ofDigits (d : Bytes) : Nat := d.foldl (fun n b => 10 * n + (b.toNat - 48)) 0

/-- The code of an uppercase hexadecimal digit. -/
def hexCode (n : Nat) : Nat := if n < 10 then 48 + n else 55 + n

/-- HH of the bytes between "$" and "*". -/
def todHash (d : Bytes) : Bytes :=
  let x := d.foldl (fun n b => n ^^^ b.toNat) 0
  [byte (hexCode (x / 16)), byte (hexCode (x % 16))]

/-- U: digits with an optional sign. -/
def isSigned (d : Bytes) : Bool :=
  let n := if d.head? = some (byte 45) ∨ d.head? = some (byte 43) then d.tail else d
  decide (n ≠ []) && n.all isDigit

/-- The characters of "NZTOD". -/
def todName : Bytes := [byte 78, byte 90, byte 84, byte 79, byte 68]

/-- A ToD sentence's S and Q where it is well formed (R444, R445). -/
def todParse (d : Bytes) : Option (Nat × Nat) :=
  if d.length ≤ 82 ∧ d.head? = some (byte 36) then
    match cutAt 42 d.tail with
    | [a, z] =>
      if z = todHash a ++ [byte 13, byte 10] then
        match cutAt 44 a with
        | [n, x, u, q, f] =>
          if n = todName ∧ 1 ≤ x.length ∧ x.length ≤ 15 ∧ x.all isDigit = true ∧ isSigned u = true ∧ q.length = 1 ∧
              q.all isDigit = true ∧ f.length = 1 ∧ f.all (fun b => isDigit b && decide (b.toNat ≤ 55)) = true then
            some (ofDigits x, ofDigits q)
          else none
        | _ => none
      else none
    | _ => none
  else none

/-- A TOD word in the safe state of R457. -/
def State.todHeld (s : State) : Bool :=
  (s.group 27).parity.contains A.pwrTodIn || (s.group 27).parity.contains A.pwrTodOut

/-- A sentence on TOD-IN (R445): counted, and a valid one labels the PPS that follows (R65). -/
def State.todRx (s : State) (text : Bytes) (framing : Bool) : State :=
  match (if framing || s.todHeld then none else todParse text) with
  | none => s.inc A.pwrTodBad
  | some (sec, q) =>
    let t := (s.inc A.pwrTodRx).sfW A.pwrIoStatus 8 4 q
    let t := { t with pwr := { t.pwr with todAt := some t.ts.meas } }
    (t.setBit A.pwrIoStatus 2 true).todValid sec q

/-- TOD_ACTIVE: a valid sentence came within the last 2 s (R455). -/
def State.todActive (s : State) : Bool :=
  match s.pwr.todAt with
  | some m => decide (s.ts.meas ≤ 2000000000 * 2 ^ 48 + m)
  | none => false

/-! ### ToD out (R446) -/

/-- The decimal digits of a number. -/
def digitsOf : Nat → Nat → Bytes
  | 0, _ => []
  | fuel + 1, n => (if n < 10 then [] else digitsOf fuel (n / 10)) ++ [byte (48 + n % 10)]

/-- A signed decimal number. -/
def signedDigits (i : Int) : Bytes := (if i < 0 then [byte 45] else []) ++ digitsOf 20 i.natAbs

/-- The sentence of R444. -/
def todText (sec : Nat) (u : Int) (q f : Nat) : Bytes :=
  let a := todName ++ [byte 44] ++ digitsOf 20 sec ++ [byte 44] ++ signedDigits u ++ [byte 44] ++ digitsOf 20 q ++ [byte 44] ++
    [byte (hexCode f)]
  [byte 36] ++ a ++ [byte 42] ++ todHash a ++ [byte 13, byte 10]

/-- The sentence sent at the RADIUS_TICK 500 ms after a whole second (R446). -/
def State.todOut (s : State) : State :=
  let k := s.f A.pwrTodOut 4 2
  if s.bit A.pwrTodOut 0 = true ∧ s.todHeld = false ∧ s.outOn k = true then
    match s.ts.calendar.find? (fun e => decide (e.2.action = 0x11) && decide (e.2.target = k)) with
    | none => s
    | some (_, e) =>
      let sec := e.atNs / 1000000000
      let step := s.ts.calendar.any (fun x => decide (x.2.action = 0x1F) && decide (x.2.atNs = e.atNs))
      let soon := s.tooSoon k (s.measAt ((e.atNs : Int) * 1000 + s.sf (A.pwrPpsOutOffset k) 0 32))
      if step || soon || s.withheld k then s
      else
        let tr := decide (s.clockClass = 6) || decide (s.clockClass = 7)
        let f := b2n (s.leapAhead true) + 2 * b2n (s.leapAhead false) + 4 * b2n tr
        (s.inc A.pwrTodTx).emit (.tod (todText sec (s.sf A.tscLeapCur 0 16) s.linkMq f))
  else s

/-! ### Alarm contacts (R442) -/

/-- EXPECT as it acts (R476). -/
def State.expected (s : State) : Nat := if (s.group 27).parity.contains A.pwrCfg then s.pwr.expect else s.f A.pwrCfg 0 4

/-- A service link in LINK_EN is not UP. -/
def State.linkMissing (s : State) : Bool :=
  (List.range 8).any (fun sl => decide (s.f (A.macPortCfg (sl / 4)) 0 2 ≠ 0) && s.bit (A.macPortCfg (sl / 4)) (2 + sl % 4) &&
    !(s.linkUp sl))

/-- The ten conditions of R442. -/
def State.alarmBits (s : State) : Nat :=
  let sides := (List.range 2).any (fun a => decide ((s.side a).alarms ≠ 0))
  let lostInput := (List.range 4).any (fun i => s.expected.testBit i && !(s.bit A.pwrStatus i))
  b2n (decide (s.tscMode = 4) || decide (s.tscMode = 0)) + 2 * b2n (decide (s.tscMode = 3)) +
  4 * b2n (decide (s.sel = 0xFF) && s.pwr.noSel) + 8 * b2n ((List.range 13).any (fun i => decide (s.qstate i = 5))) +
  16 * b2n sides + 32 * b2n (decide (s.fences ≠ [])) + 64 * b2n (decide (s.cartState = 7)) + 128 * b2n lostInput +
  256 * b2n s.linkMissing + 512 * b2n (s.groups.any (fun g => decide (g.parity ≠ [])))

/-- The mask of a contact; a faulty mask word acts as 0x3FF (R457). -/
def State.alarmMask (s : State) (c : Nat) : Nat :=
  let a := if c = 0 then A.pwrAlm0Mask else A.pwrAlm1Mask
  if (s.group 27).parity.contains a then 0x3FF else s.f a 0 10

/-- A condition that a contact's mask selects holds. -/
def State.alarmed (s : State) (c : Nat) : Bool := decide (s.alarmBits &&& s.alarmMask c ≠ 0)

/-- A contact moves. -/
def State.setContact (s : State) (c : Nat) (closed : Bool) : State :=
  if s.bit A.pwrIoStatus c = closed then s else (s.setBit A.pwrIoStatus c closed).emit (.contact c closed)

/-- The close timer of a contact. -/
def State.setCloseAt (s : State) (c : Nat) (e : Option Nat) : State :=
  { s with pwr := { s.pwr with alarmEnd := modAt s.pwr.alarmEnd c (fun _ => e) } }

/-- A contact examined at a change of the conditions: it opens, or its close timer starts once no selected condition holds. -/
def State.examine (s : State) (c : Nat) : State :=
  if s.pwr.driven then
    if s.alarmed c then (s.setContact c false).setCloseAt c none
    else if s.bit A.pwrIoStatus c = false ∧ s.pwr.alarmEnd.getD c none = none then
      s.setCloseAt c (some (1000000000 * 2 ^ 48 + s.ts.meas))
    else s
  else s

/-- Both contacts examined. -/
def State.alarmChange (s : State) : State := (s.examine 0).examine 1

/-- A contact closes 1 s after the last selected condition ended. -/
def State.alarmClose (s : State) (c : Nat) : State :=
  match s.pwr.alarmEnd.getD c none with
  | none => s
  | some e =>
    if e ≤ s.ts.meas then
      if s.alarmed c then s.setCloseAt c none else (s.setContact c true).setCloseAt c none
    else s

/-- SEL has read 0xFF for 2 s: condition 2 arises. -/
def State.noSelection (s : State) : State :=
  match s.pwr.noSelAt with
  | none => s
  | some m =>
    if 2000000000 * 2 ^ 48 + m ≤ s.ts.meas ∧ s.sel = 0xFF then
      { s with pwr := { s.pwr with noSel := true } }.alarmChange
    else s

/-- Contacts and outputs in the state of R452 for reset, safe hold and keep-alive mode. -/
def State.undriven (s : State) : State :=
  let t := { s with pwr := { s.pwr with driven := false, alarmEnd := [none, none], outs := List.replicate 6 Output.empty } }
  (t.setContact 0 false).setContact 1 false

end Sys2Proof.Machine
end

