-- ==== Sys2Proof/Machine/Sessions.lean ====
section
/-!
DEFINITION. Opening and ending a management session (R381, R382), as a MGMT reset and the protocol both need it.
-/

namespace Sys2Proof.Machine

/-- Session `i`, 1 to 4. -/
def State.session (s : State) (i : Nat) : Option Session := s.celen.sessions.getD (i - 1) none

/-- Changing the session at index `i`. -/
def State.setSession (s : State) (i : Nat) (f : Option Session → Option Session) : State :=
  { s with celen := { s.celen with sessions := modAt s.celen.sessions (i - 1) f } }

/-- The SESSION record (R388). -/
def State.journalSession (s : State) (i ended cause : Nat) (x : Session) : State :=
  s.journalBlock 0x0D (.session i) 0xFF 0 0 (le 1 ended ++ le 1 cause ++ zeros 2 ++ slice x.fingerprint 0 32)

/-- A session ends (R382): its view starts over, its streams end, its MP settings apply (R384), the end is journalled. -/
def State.endSession (s : State) (i cause : Nat) : State :=
  match s.session i with
  | none => s
  | some x =>
    let t := (s.setSession i (fun _ => none)).setView (.session i) (fun _ => SourceView.fresh)
    let t := { t with hif := { t.hif with coalesce := t.hif.coalesce.filter (fun c => decide (c.dest ≠ i)) } }
    let t := match x.net with
      | none => t
      | some b => { t with celen := { t.celen with net := b } }.journalBlock (Config.settingsKind 0) (.session i) 0xFF 0 0
        (Config.journalBody 2)
    t.journalSession i 1 cause x

/-- The lowest free session index (R382). -/
def State.freeSession (s : State) : Option Nat := [1, 2, 3, 4].find? (fun i => (s.session i).isNone)

/-- A session opens: every stolen bit of its view set (R500), the opening journalled. -/
def State.openSession (s : State) (i : Nat) (fingerprint : Bytes) : State :=
  let x : Session := ⟨fingerprint, false, none, s.ts.meas, none⟩
  ((s.setSession i (fun _ => some x)).setView (.session i) (fun _ => SourceView.fresh)).journalSession i 0 0 x

/-- Every session ends. -/
def State.endSessions (s : State) (cause : Nat) : State := s.each [1, 2, 3, 4] (fun i t => t.endSession i cause)

end Sys2Proof.Machine
end

