-- ==== Sys2Proof/Machine/Domains.lean ====
section
/-!
DEFINITION. Supplies, sensors and power domains (R458 to R464), the boot record (R467, R468), and the MGMT reset with the
choice of a firmware bank (R468, R473, R483, R484); the check of PWR_CFG and what its application does (R456, R463, R475).
-/

namespace Sys2Proof.Machine

/-! ### Supplies and sensors (R458, R461, R464, R474) -/

/-- THERM_WARN as it acts, in 0.1 °C (R476). -/
def State.thermWarn (s : State) : Int :=
  10 * (if (s.group 27).parity.contains A.pwrThermWarn then (100 : Int) else (s.f A.pwrThermWarn 0 7 : Nat))

/-- The sensors of the supplies and of temperature (R474), and HOT. -/
def State.showSense (s : State) (m : PowerSense) : State :=
  let t := ((((s.sfW A.pwrVAc 0 16 m.vAc).sfW A.pwrVDca 0 16 m.vDca).sfW A.pwrVDcb 0 16 m.vDcb).sfW A.pwrVKa 0 16 m.vKa).sfW
    A.pwrPIn 0 16 m.pIn
  let t := ((t.sfW A.pwrTZafel 0 16 (unsigned m.tZafel 16)).sfW A.pwrTInlet 0 16 (unsigned m.tInlet 16)).sfW
    A.pwrTBoard 0 16 (unsigned m.tBoard 16)
  let t := t.setBit A.pwrStatus 4 (decide (t.thermWarn ≤ m.tZafel))
  if m.tZafel < 950 then t else { t with pwr := { t.pwr with hotAt := t.ts.meas } }

/-- Main power is present (R459). -/
def State.mainPower (s : State) : Bool := s.bit A.pwrStatus 0 || s.bit A.pwrStatus 1 || s.bit A.pwrStatus 2

/-- Input `i` measures within its rated range (R458). -/
def State.inputRated (s : State) (i : Nat) : Bool :=
  let within : Nat → Nat → Nat → Bool := fun a lo hi => decide (lo ≤ s.f a 0 16) && decide (s.f a 0 16 ≤ hi)
  match i with
  | 0 => within A.pwrVAc 850 3050
  | 1 => within A.pwrVDca 400 720
  | 2 => within A.pwrVDcb 400 720
  | _ => within A.pwrVKa 90 360

/-- A supply input is qualified: 0 AC, 1 DC A, 2 DC B, 3 KA (R458, R461). The management controller then has its supply (R462). -/
def State.inputQualified (s : State) (i : Nat) : State :=
  if s.bit A.pwrStatus i = true ∨ s.inputRated i = false then s
  else ((s.setBit A.pwrStatus i true).setBit A.pwrDomState 15 true).raise A.pwrEvent 1

/-- A supply input is lost (R458, R461). -/
def State.inputLost (s : State) (i : Nat) : State :=
  if s.bit A.pwrStatus i then ((s.setBit A.pwrStatus i false).inc A.pwrInputLoss).raise A.pwrEvent 0 else s

/-- The junction reaches THERM_WARN (R464). -/
def State.thermReached (s : State) (m : PowerSense) : State :=
  let was := s.bit A.pwrStatus 4
  let t := s.showSense m
  if t.bit A.pwrStatus 4 = true ∧ was = false then (t.inc A.pwrThermWarns).raise A.pwrEvent 2 else t

/-! ### Domains (R462, R463) -/

/-- Switching a domain. -/
def State.setDomain (s : State) (d : Nat) (on : Bool) : State := s.setBit A.pwrDomState d on

/-- DOMAIN_EN as it acts (R476). -/
def State.domainEn (s : State) (d : Nat) : Bool :=
  (s.group 27).parity.contains A.pwrDomainEn || s.bit A.pwrDomainEn d

/-- A GNSS side stops with its domain, and its reference is lost. -/
def State.sideOff (s : State) (a : Nat) : State := (s.stopSide a).lose a

/-- What stops with an optional domain (R463). -/
def State.domainOff (s : State) (d : Nat) : State :=
  let t := s.setDomain d false
  let t := match d with
    | 3 => t.sideOff 0
    | 4 => t.sideOff 1
    | 5 => (t.sideOff 0).sideOff 1
    | 6 =>
      let t := { t with ttu := { Ttu.empty with tags := t.ttu.tags, measures := t.ttu.measures } }.setBit A.ttuStatus 2 false
      t.each [2, 3, 4, 5, 6, 7] (fun i u => u.lose i)
    | 13 => ((t.dropLanes).casOff).lose 12
    | _ => t
  t.raise A.pwrEvent 3

/-- A side whose front end and baseband are on loads its firmware and starts (R463, R488). -/
def State.sideBack (s : State) (a : Nat) : State :=
  if s.domainOn (3 + a) && s.domainOn 5 && s.sideEnabled a then
    s.setSide a (fun x => { x with loadingUntil := some (s.ts.meas + secs 2) })
  else s

/-- What starts with an optional domain: its self-tests run for at most 100 ms (R463). -/
def State.domainBack (s : State) (d : Nat) : State :=
  let t := s.setDomain d true
  let t := { t with pwr := { t.pwr with testUntil := t.ts.meas + 100000000 * 2 ^ 48 } }
  let t := match d with
    | 3 => t.sideBack 0
    | 4 => t.sideBack 1
    | 5 => (t.sideBack 0).sideBack 1
    | 6 => t.buildTables.armProgs
    | 13 => t.armTick.choosePosition false
    | _ => t
  t.raise A.pwrEvent 3

/-- A self-test after a domain's switch-on fails: its unit is fenced (R395, R463). -/
def State.domainTestFailed (s : State) (kind i : Nat) : State :=
  if s.ts.meas ≤ s.pwr.testUntil ∧ i < unitCount kind ∧ ((kind = 4 ∧ s.domainOn 5 = true) ∨ (kind = 5 ∧ s.domainOn 6 = true)) then
    s.fenceUnit .module kind i 1 false
  else s

/-- The optional domains follow DOMAIN_EN (R463). -/
def State.switchDomains (s : State) : State :=
  s.each [3, 4, 5, 6, 13] (fun d t =>
    if t.domainOn d then (if t.domainEn d then t else t.domainOff d) else (if t.domainEn d then t.domainBack d else t))

/-! ### Group PWR_CFG (R456, R475, R476, R457) -/

/-- The checks of PWR_CFG. -/
def checkPwrCfg (w : Nat → Word) : Option Nat :=
  let k := fld (w A.pwrTodOut) 4 2
  let off := 0xFFFF - fld (w A.pwrDomainEn) 0 16
  firstReason [(!(rangesOk 27 w), 0x40), (bitOf (w A.pwrTodOut) 0 && !(bitOf (w (A.pwrPpsOutCfg k)) 0), 0x41),
    (decide (off &&& 0xDF87 ≠ 0), 0x42)]

/-- FROZEN of the connector words and of the other words of PWR. -/
def State.pwrFrozen (s : State) : State :=
  let l := (s.group 27).parity
  (s.setBit A.pwrIoStatus 3 (l.any (fun a => decide (0x9000 ≤ a)))).setBit A.pwrStatus 5 (l.any (fun a => decide (a < 0x9000)))

/-- The application of PWR_CFG: outputs, contacts, domains. -/
def State.applyPwrCfg (s : State) (old : Nat → Word) : State := (((s.pwrFrozen).armOuts old).switchDomains).alarmChange

/-- A parity fault in a PWR word (R457, R476). -/
def State.pwrParityFault (s : State) : State :=
  let t := (s.raise A.pwrEvent 4).pwrFrozen
  ((t.each (List.range 6) (fun k u => if u.outHeld k then u.armOut k else u)).switchDomains).alarmChange

/-! ### The boot record (R467) -/

/-- The instant that the record carries: SEC[31:0], 0 while the counter is invalid. -/
def State.recordSec (s : State) : Nat :=
  if s.tscMode = 0 ∧ s.hol.cisternTime.isNone = true then 0 else s.nowNs / 1000000000 % 2 ^ 32

/-- An attempt of step `n` begins: it counts. -/
def State.countAttempt (s : State) (n : Nat) : State :=
  let a := A.bootStepCount (n - 1)
  s.sfW a 0 16 (min 65535 (s.f a 0 16 + 1))

/-- An attempt of step `n` fails with a code of R466. -/
def State.stepFailed (s : State) (n code : Nat) : State :=
  let a := A.bootStepCount (n - 1)
  (((s.sfW a 16 4 (min 15 (s.f a 16 4 + 1))).sfW a 24 8 code).wr (A.bootStepLastT (n - 1)) (word s.recordSec)).raise
    A.bootEvent 1

/-- Step `n` passes. -/
def State.stepPassed (s : State) (n : Nat) : State := s.sfW (A.bootStepCount (n - 1)) 16 4 0

/-- A word of the boot record (R477). -/
def inRecord (a : Nat) : Bool := decide (0xA040 ≤ a) && decide (a < 0xA160)

/-- The boot record as it stands. -/
def State.bootRecord (s : State) : Cells Word := s.regs.filter (fun e => inRecord e.1)

/-- Writing the record's copy in flash. -/
def State.flashBootRecord (s : State) : State := { s with boot := { s.boot with flashRecord := s.bootRecord } }

/-! ### Banks and the MGMT reset (R468, R472, R473, R483, R484) -/

/-- A word of BOOT_CFG as it acts (R478). -/
def State.bootWord (s : State) (a : Nat) : Word := if (s.group 28).parity.contains a then resetOf a else s.rd a

/-- BOOT.STABLE in 2^-48 ns. -/
def State.stableTime (s : State) : Nat := secs (fld (s.bootWord A.bootStable) 0 17)

/-- A bank is BAD. -/
def State.bankBad (s : State) (b : Nat) : Bool := s.bit A.bootRecFlags (1 + b)

/-- The banks in the order in which step 3 tries them (R468). -/
def State.bankOrder (s : State) : List Nat :=
  let pref := if s.boot.lower then 1 - s.bankRunning else fld (s.bootWord A.bootCfg) 0 1
  if s.bankBad pref = true ∧ s.bankBad (1 - pref) = false then [1 - pref, pref] else [pref, 1 - pref]

/-- A bank begins to run (R468): BANK, the full firmware serves MP. -/
def State.runBank (s : State) (b : Nat) : State :=
  let t := (s.sfW A.bootRecFlags 0 1 b).stepPassed 3
  { t with celen := { t.celen with recovery := false } }

/-- A bank fails its check: BAD, and the attempt failed (R468). -/
def State.bankFails (s : State) (b code : Nat) : State := (s.stepFailed 3 code).setBad b true

/-- The other bank is taken (R468, R482). -/
def State.bankFallback (s : State) (b : Nat) : State :=
  (s.raise A.bootEvent 3).journalFirmware .module 3 1 b (s.bankImage b).digest

/-- A MGMT reset begins (R472, R473): 0 commanded, 1 by the watchdog, 2 a bank switch. The watchdog within STABLE of a switch marks
the bank BAD (R484). The seconds of stability are counted afresh (R468). -/
def State.mgmtBegin (s : State) (cause : Nat) : State :=
  let t := (s.endSessions 4).sfW A.bootStatus 6 2 2
  let early := match s.boot.switchedAt with
    | some m => decide (s.ts.meas ≤ m + s.stableTime)
    | none => false
  let t := t.when (decide (cause = 1) && early) (fun t => t.setBad t.bankRunning true)
  { t with
    boot := { t.boot with mgmt := some cause, stableAt := t.boot.stableAt.map (fun _ => t.ts.meas + t.stableTime) }
    celen := { t.celen with recovery := true } }

/-- The MGMT reset ends: whether each bank tried passes its check, in the order tried (R473, R483, R484). -/
def State.mgmtEnd (s : State) (ok : List Bool) : State :=
  match s.boot.mgmt with
  | none => s
  | some cause =>
    let was := s.bankRunning
    let b0 := s.bankOrder.getD 0 0
    let b1 := s.bankOrder.getD 1 1
    let t := { s with boot := { s.boot with mgmt := none } }.countAttempt 3
    let t :=
      if ok.getD 0 false then
        let u := t.runBank b0
        if cause = 2 ∧ b0 ≠ was then
          { u with boot := { u.boot with switchedAt := some u.ts.meas } }.journalFirmware .module 2 1 b0 (u.bankImage b0).digest
        else if cause = 1 ∧ b0 ≠ was then u.bankFallback b0
        else u
      else
        let u := (t.bankFails b0 4).countAttempt 3
        if ok.getD 1 false then (u.runBank b1).bankFallback b1 else (u.bankFails b1 4).raise A.bootEvent 6
    t.raise A.pwrEvent 5

/-! ### Group BOOT_CFG (R478, R483) -/

/-- The check of BOOT_CFG. -/
def checkBootCfg (w : Nat → Word) : Option Nat := firstReason [(!(rangesOk 28 w), 0x40)]

/-- The application of BOOT_CFG: a change of BANK_PREF to a good bank that is not running switches the bank (R483). -/
def State.applyBootCfg (s : State) (old : Nat → Word) : State :=
  let t := s.setBit A.bootStatus 17 (decide ((s.group 28).parity ≠ []))
  let b := t.f A.bootCfg 0 1
  if fld (old A.bootCfg) 0 1 ≠ b ∧ b ≠ t.bankRunning ∧ t.bankBad b = false then t.mgmtBegin 2 else t

/-- A parity fault in a BOOT_CFG word (R478). -/
def State.bootParityFault (s : State) : State := (s.raise A.bootEvent 7).setBit A.bootStatus 17 true

end Sys2Proof.Machine
end

