-- ==== Sys2Proof/Machine/Sluice.lean ====
section
/-!
DEFINITION. The sluice (R369 to R378, R400 to R402): capture of the staging copy, the boundaries, the checks and
applications of every group, outcomes, and parity faults of staged words.
-/

namespace Sys2Proof.Machine

/-! ### Groups as R400 lists them -/

/-- The boundary of a group: 0 NOW, 1 FRAME, 2 SECOND, 3 WINDOW. -/
def groupBoundary (g : Nat) : Nat := fld (resetOf (A.sluGroupInfo g)) 8 2

/-- The block code of a group. -/
def groupBlock (g : Nat) : Nat := fld (resetOf (A.sluGroupInfo g)) 0 8

/-- The power domain of a group. -/
def groupDomain (g : Nat) : Nat := fld (resetOf (A.sluGroupInfo g)) 12 4

/-- The MAC complex of the groups 10 to 15. -/
def groupComplex (g : Nat) : Nat := (g - 10) / 3

/-! ### Checks (R373) -/

/-- The consistency check of a group on the pending words `w`, against the live values of the others (R373). -/
def checkGroup (s : State) (g : Nat) (w : Nat → Word) : Option Nat :=
  match g with
  | 0 => checkTscCtl s w
  | 1 => checkTscCal s w
  | 2 => checkTscLeap s w
  | 3 => checkTscStep s w
  | 4 => checkRefCfg w
  | 5 => checkHolCfg w
  | 6 => checkGnsCfg w
  | 7 => checkGnsCmd s w
  | 8 => checkTtuCh s w
  | 9 => checkTtuProg s w
  | 10 => checkMacPort s 0 w
  | 11 => checkMacFlow s 0 w
  | 12 => checkMacCal 0 w
  | 13 => checkMacPort s 1 w
  | 14 => checkMacFlow s 1 w
  | 15 => checkMacCal 1 w
  | 16 => checkHrcAddr w
  | 17 => checkHrcCfg w
  | 18 => checkHrcMap s w
  | 19 => checkHrcQuery w
  | 20 => checkSvpProf w
  | 21 => checkNtsCfg s w
  | 22 => checkPtpCfg s w
  | 23 => checkRcpCfg s w
  | 24 => checkPkeCfg w
  | 25 => checkHifCfg s w
  | 26 => checkHifRing s w
  | 27 => checkPwrCfg w
  | 28 => checkBootCfg w
  | 29 => checkTalCfg w
  | 30 => checkTalSample w
  | 31 => checkCmacPort w
  | 32 => checkCmacCal w
  | 33 => checkCasCfg s w
  | 34 => checkCasOp s w
  | _ => none

/-! ### What an application does in its block -/

/-- What acted before an application besides the words themselves: the service rate profiles (R250) and the mapping of the
buckets (R223), either of them with the safe states of the words. -/
structure Before where
  old : Nat → Word
  profiles : List Word
  pipes : Nat → Nat

/-- What acts now. -/
def State.before (s : State) : Before := ⟨s.rd, (List.range 16).flatMap s.profileWords, s.bucketPipe⟩

/-- The block takes up the new words of group `g`, applied at `atNs`. -/
def State.applyHook (s : State) (g : Nat) (b : Before) (atNs : Nat) : State :=
  match g with
  | 0 => s.applyTscCtl
  | 1 => s.applyTscCal
  | 2 => s.applyTscLeap b.old
  | 3 => s.applyTscStep
  | 4 => s.applyRefCfg b.old
  | 5 => s.applyHolCfg
  | 6 => s.applyGnsCfg b.old
  | 7 => s.applyGnsCmd
  | 8 => s.applyTtuCh b.old
  | 9 => s.applyTtuProg b.old
  | 10 => s.portApplied 0 b.old
  | 11 => s.applyMacFlow 0 b.old
  | 12 => s.applyMacCal 0 b.old
  | 13 => s.portApplied 1 b.old
  | 14 => s.applyMacFlow 1 b.old
  | 15 => s.applyMacCal 1 b.old
  | 16 => s.applyHrcAddr
  | 17 => s.applyHrcCfg b.old
  | 18 => s.applyHrcMap b.pipes
  | 19 => s.applyHrcQuery
  | 20 => s.applySvpProf b.profiles
  | 21 => s.applyNtsCfg
  | 22 => s.applyPtpCfg b.old
  | 23 => s.applyRcpCfg b.old atNs
  | 24 => s.pkeFrozen
  | 25 => s.applyHifCfg b.old
  | 26 => s.applyHifRing b.old
  | 27 => s.applyPwrCfg b.old
  | 28 => s.applyBootCfg b.old
  | 29 => s.applyTalCfg b.old atNs
  | 30 => s.applyTalSample
  | 31 => s.applyCmacPort b.old
  | 32 => s.applyCmacCal
  | 33 => s.applyCasCfg
  | 34 => s.applyCasOp
  | _ => s

/-- What a refused application does in its block (R59, R158). -/
def State.refuseHook (s : State) (g : Nat) (w : Nat → Word) (reason : Nat) : State :=
  match g with
  | 1 => s.refuseTscCal w reason
  | 7 => s.refuseGnsCmd w reason
  | _ => s

/-! ### Results, the pending set and its calendar entries (R372, R375, R401) -/

/-- The AT instants that pending commits name, each once. -/
def State.atInstants (s : State) : List Nat :=
  ((List.range 35).filterMap (fun g => (s.group g).pend.bind (fun c => c.atNs))).eraseDups

/-- The groups with a pending commit. -/
def State.pendingGroups (s : State) : List Nat := indices 35 (fun g => (s.group g).pend.isSome)

/-- STATUS, PENDING0 and PENDING1 of SLU (R401). -/
def State.showSluice (s : State) : State :=
  let l := s.pendingGroups
  let t := (s.sfW A.sluStatus 0 7 l.length).sfW A.sluStatus 8 7 s.atInstants.length
  (t.wr A.sluPending0 (word ((l.filter (fun g => decide (g < 32))).foldl (fun n g => n + 2 ^ g) 0))).wr A.sluPending1
    (word ((l.filter (fun g => decide (32 ≤ g))).foldl (fun n g => n + 2 ^ (g - 32)) 0))

/-- SLU's own calendar entries: one SLU_APPLY entry for each distinct AT instant pending (R33, R372). -/
def State.sluEntries (s : State) : State :=
  let gone := s.ts.calendar.filter (fun e => decide (e.2.action = 0x10) && decide (e.2.target = 1) &&
    !(s.atInstants.contains e.2.atNs))
  let t := s.each gone (fun e u => u.calFree e.1)
  let have_ := (t.ts.calendar.filter (fun e => decide (e.2.action = 0x10) && decide (e.2.target = 1))).map (fun e => e.2.atNs)
  t.each (t.atInstants.filter (fun a => decide (t.nowNs < a) && !(have_.contains a)))
    (fun a u => (u.calNew (ownEntry 0x10 1 a 0 1 0)).2)

/-- After a change of the pending set. -/
def State.sluChanged (s : State) : State := s.showSluice.sluEntries

/-- RESULT and REASON of a group; SEQ advances (R375). -/
def State.setResult (s : State) (g result reason : Nat) : State :=
  let a := A.sluGroupStatus g
  ((s.sfW a 0 3 result).sfW a 8 8 reason).sfW a 16 8 (s.f a 16 8 + 1)

/-- The body of a COMMIT record (R388). -/
def commitBody (g result reason : Nat) (changes : List (Nat × Word × Word)) : Bytes :=
  le 2 g ++ le 1 (groupBoundary g) ++ le 1 result ++ le 1 reason ++ le 1 (b2n (decide (18 < changes.length))) ++
  le 2 changes.length ++ (changes.take 18).flatMap (fun c => le 4 c.1 ++ le 4 c.2.1.toNat ++ le 4 c.2.2.toNat)

/-- The event bit of an outcome (R401). -/
def outcomeEvent (result : Nat) : Nat := match result with
  | 2 => 0
  | 3 => 1
  | 4 => 2
  | _ => 3

/-- An outcome of a commit (R373 to R376, R402): RESULT, the event, REJECTS, the journal. -/
def State.commitOutcome (s : State) (g : Nat) (src : Source) (result reason : Nat) (changes : List (Nat × Word × Word)) : State :=
  let t := (s.setResult g result reason).raise A.sluEvent (outcomeEvent result)
  let t := if result = 3 then t.inc A.sluRejects else t
  t.journalBlock 1 src (groupBlock g) g result (commitBody g result reason changes)

/-- The pending commit of a group ends without applying: 4 SUPERSEDED, 5 CANCELLED (R371). -/
def State.dropPending (s : State) (g result : Nat) : State :=
  match (s.group g).pend with
  | none => s
  | some c =>
    let t := s.setGroup g (fun x => { x with pend := none, pendParity := false })
    (if g = 16 then t.setBit A.hrcStatus 24 false else t).commitOutcome g c.source result 0 []

/-! ### Application (R373, R374, R377) -/

/-- Every live word of a group takes its new value, and the group's safe state ends (R373, R377). -/
def State.installWords (s : State) (g : Nat) (w : Nat → Word) : State :=
  let t := s.each (groupWords g) (fun a u => u.wr a (w a))
  (t.setGroup g (fun x => { x with parity := [] })).setBit (A.sluGroupStatus g) 3 false

/-- The words of a group that an application changes: offset, old value, new value. -/
def State.changesOf (s : State) (g : Nat) (w : Nat → Word) : List (Nat × Word × Word) :=
  ((groupWords g).filter (fun a => decide (s.rd a ≠ w a))).map (fun a => (a, s.rd a, w a))

/-- The blocks take up what was applied while their domain was off (R374). -/
def State.takeHeld (s : State) : State :=
  s.each (s.pwr.heldGroups.filter (fun g => s.domainOn (groupDomain g))) (fun g u =>
    ({ u with pwr := { u.pwr with heldGroups := u.pwr.heldGroups.filter (fun x => decide (x ≠ g)) } }).applyHook g u.before u.nowNs)

/-- A group takes new words in one step (R373), held in the domain supervisor's image while its domain is off (R374). -/
def State.takeGroup (s : State) (g : Nat) (w : Nat → Word) (atNs : Nat) : State :=
  let b := s.before
  let t := s.installWords g w
  let t := if t.domainOn (groupDomain g) then t.applyHook g b atNs
    else { t with pwr := { t.pwr with heldGroups := g :: t.pwr.heldGroups.filter (fun x => decide (x ≠ g)) } }
  t.takeHeld.alarmChange

/-- A boundary of a group with a pending commit (R373): parity, then the block's check, then the application or the
refusal. -/
def State.reachBoundary (s : State) (g : Nat) (atNs : Nat) : State :=
  match (s.group g).pend with
  | none => s
  | some c =>
    let x := s.group g
    let w := s.rdPend
    let reason := if x.pendParity || decide (x.stageParity ≠ []) then some 4 else checkGroup s g w
    let t := s.setGroup g (fun y => { y with pend := none, pendParity := false })
    let t := if g = 16 then t.setBit A.hrcStatus 24 false else t
    match reason with
    | some r => ((t.refuseHook g w r).commitOutcome g c.source 3 r []).sluChanged
    | none =>
      let ch := s.changesOf g w
      ((t.takeGroup g w atNs).commitOutcome g c.source 2 0 ch).sluChanged

/-! ### Drains (R216, R230, R372) -/

/-- A request of an address-table generation other than the present one is in flight (R230). -/
def State.genBusy (s : State) : Bool :=
  let p : Request → Bool := fun r => decide (r.gen ≠ s.hrc.gen)
  s.hrc.queues.any (fun q => q.any p) || s.hrc.moves.any (fun m => m.held.any p) ||
  s.ports.links.any (fun l => l.ready.any (fun h => h.req.any p) || l.slots.any (fun x => x.req.any p)) ||
  s.rcp.leaves.any (fun l => p l.req) || s.rcp.closed.any (fun w => w.leaves.any (fun l => p l.req)) ||
  s.rcp.queue.any (fun r => p r.req)

/-- The previous use of a group's working copy still drains, so that a commit waits (R216, R230). -/
def State.groupDraining (s : State) (g : Nat) : Bool :=
  match g with
  | 11 => decide ((s.complex 0).flowWait ≠ [])
  | 14 => decide ((s.complex 1).flowWait ≠ [])
  | 16 => s.genBusy
  | _ => false

/-- Some link direction of a complex is between frames at every instant: a link is not UP (R216). -/
def State.someIdle (s : State) (c : Nat) : Bool := (linksOf c).any (fun sl => !(s.linkUp sl))

/-- A NOW or FRAME group comes to its boundary unless it drains; ADDR_DRAINING shows a waiting HRC_ADDR (R230, R372). -/
def State.reachNow (s : State) (g : Nat) (atNs : Nat) : State :=
  if s.groupDraining g then
    let t := s.setGroup g (fun x => { x with pend := x.pend.map (fun (c : Commit) => { c with draining := true }) })
    if g = 16 then t.setBit A.hrcStatus 24 true else t
  else if groupBoundary g = 1 ∧ s.someIdle (groupComplex g) = false then
    s.setGroup g (fun x => { x with pend := x.pend.map (fun (c : Commit) => { c with draining := true }) })
  else s.reachBoundary g atNs

/-- ADDR_APPLY (R230): the last request of the previous generation has departed or been dropped. -/
def State.addrApply (s : State) : State :=
  match (s.group 16).pend with
  | some c => if c.draining && !(s.genBusy) then s.reachBoundary 16 s.nowNs else s
  | none => s

/-- A waiting MACn_FLOW commit comes to the frame boundary of a link direction (R216). -/
def State.flowBoundary (s : State) (c : Nat) : State :=
  let g := macGroup c 1
  match (s.group g).pend with
  | some x => if x.draining && !(s.groupDraining g) then s.reachBoundary g s.nowNs else s
  | none => s

/-- Link directions that are not UP adopt MACn_FLOW values at once, and a waiting commit then finds its boundary (R216). -/
def State.settleFlow (s : State) : State :=
  s.each [0, 1] (fun c t =>
    let down := (t.complex c).flowWait.filter (fun d => !(t.linkUp (4 * c + d / 2)))
    let t := t.each down (fun d u => u.flowAdopt (4 * c + d / 2) (d % 2))
    if t.someIdle c then t.flowBoundary c else t)

/-- FLOW_ADOPT (R216): the direction adopts the values in force; where none is under way it is the first boundary of a waiting
commit, and then adopts that. -/
def State.flowPoint (s : State) (sl dir : Nat) : State :=
  if (s.complex (sl / 4)).flowWait.contains (2 * (sl % 4) + dir) then (s.flowAdopt sl dir).settleFlow
  else if (s.complex (sl / 4)).flowWait = [] ∧ s.betweenFrames sl dir = true then (s.flowBoundary (sl / 4)).flowAdopt sl dir
  else s

/-! ### The COMMIT word (R371, R372) -/

/-- The AT words of a group's staging copy in ns. -/
def State.stagedAt (s : State) (g : Nat) : Nat :=
  ((s.rdStage (A.sluGroupAtSecLo g)).toNat + 2 ^ 32 * fld (s.rdStage (A.sluGroupAtSecHi g)) 0 16) * 1000000000 +
    fld (s.rdStage (A.sluGroupAtNs g)) 0 30

/-- The refusals decided at the commit write, in their order (R372). -/
def State.commitRefusal (s : State) (g : Nat) (v : Word) : Option Nat :=
  let at_ := s.stagedAt g
  let others := (s.setGroup g (fun x => { x with pend := none })).atInstants
  let en := bitOf v 2
  firstReason [
    (bitOf v 3 && decide (fld v 8 8 ≠ s.f (A.sluGroupStatus g) 24 8), 1),
    (en && decide (1000000000 ≤ fld (s.rdStage (A.sluGroupAtNs g)) 0 30), 5),
    (en && decide (at_ * 2 ^ 48 < 2000 * 2 ^ 48 + s.ts.acc), 2),
    (en && !(others.contains at_) && decide (64 ≤ others.length), 3)]

/-- The staging copy is captured into the pending copy (R371). -/
def State.capture (s : State) (g : Nat) : State :=
  { s with pendRegs := (groupWords g).foldl (fun l a => CellList.set resetOf l a (s.rdStage a)) s.pendRegs }

/-- COMMIT (R371, R372). -/
def State.sluCommit (s : State) (src : Source) (g : Nat) (v : Word) : State :=
  match s.commitRefusal g v with
  | some r => s.commitOutcome g src 3 r []
  | none =>
    let at_ := if bitOf v 2 then some (s.stagedAt g) else none
    let t := (s.dropPending g 4).capture g
    let t := t.setGroup g (fun x => { x with pend := some ⟨at_, src, false⟩, pendParity := decide (x.stageParity ≠ []) })
    let t := (t.setResult g 1 0).sluChanged
    if at_.isNone ∧ (groupBoundary g = 0 ∨ groupBoundary g = 1) then t.reachNow g t.nowNs else t

/-- CANCEL (R371). -/
def State.sluCancel (s : State) (g : Nat) : State := (s.dropPending g 5).sluChanged

/-- REVERT (R371): live into staging, STAGE_SEQ once, the pending commit ends CANCELLED; faulty staging words are mended (R378). -/
def State.sluRevert (s : State) (g : Nat) : State :=
  let t := { s with stage := (groupWords g).foldl (fun l a => CellList.set resetOf l a (s.rd a)) s.stage }
  ((t.setGroup g (fun x => { x with stageParity := [] })).stageMoved g).sluCancel g

/-- A write to the COMMIT word of group `g`; a page that is not implemented ignores it (R371, R402). -/
def State.commitWrite (s : State) (src : Source) (g : Nat) (v : Word) : State :=
  if 35 ≤ g then s
  else match fld v 0 2 with
    | 1 => s.sluCommit src g v
    | 2 => s.sluCancel g
    | 3 => s.sluRevert g
    | _ => s

/-! ### SLU_APPLY and the window closes (R372, R373) -/

/-- A group comes to a boundary at the firing of entry `e` (R372): a NOW or FRAME group with that AT instant, a SECOND group at a
whole second not before its AT instant; TAL_CFG while no window runs applies with the SECOND groups. -/
def State.sluReaches (s : State) (e : CalEntry) (second : Option Nat) (g : Nat) : Bool :=
  match (s.group g).pend with
  | none => false
  | some c =>
    let b := groupBoundary g
    if b = 0 ∨ b = 1 then decide (c.atNs = some e.atNs) && !c.draining
    else if b = 2 ∨ (g = 29 ∧ s.talOn = false) then
      match second with
      | some t => (match c.atNs with
        | none => true
        | some a => decide (a ≤ t))
      | none => decide (c.atNs = some e.atNs) && decide (e.atNs % 1000000000 = 0)
    else false

/-- The whole second that a firing of an SLU_APPLY entry stands for: the periodic entry's own, the latest one passed over for a
SKIPPED firing (R43), and that of a periodic entry due at the same instant. -/
def State.sluSecond (s : State) (e : CalEntry) : Option Nat :=
  if e.target = 0 then some (match e.skipAt with
    | some t => t / 1000000000 * 1000000000
    | none => e.atNs)
  else if e.skipAt.isNone && s.ts.calendar.any (fun x => decide (x.2.action = 0x10) && decide (x.2.target = 0) &&
    decide (x.2.atNs = e.atNs)) then some e.atNs
  else none

/-- An SLU_APPLY entry fires (R373): the groups of its instant one at a time in ascending index; at a whole second skews applied
by calibration take effect too (R179). -/
def State.sluFire (s : State) (e : CalEntry) : State :=
  let second := s.sluSecond e
  let now := e.skipAt.getD e.atNs
  let t := s.each (List.range 35) (fun g u =>
    if u.sluReaches e second g then (if groupBoundary g < 2 then u.reachNow g now else u.reachBoundary g now) else u)
  if second.isSome then t.ttuSkews else t

/-- SLU_APPLY: the due entry of SLU fires. -/
def State.sluApply (s : State) : State := s.fireDue (fun e => decide (e.action = 0x10)) (fun e t => t.sluFire e)

/-- A close of the owning block's window at `atNs` is the boundary of a WINDOW group (R372). -/
def State.windowBoundary (s : State) (g atNs : Nat) : State :=
  match (s.group g).pend with
  | none => s
  | some c => if (match c.atNs with
      | none => true
      | some a => decide (a ≤ atNs)) then s.reachBoundary g atNs else s

/-- RCP_WINDOW (R278, R290): the next online key is prepared, the window closes, and RCP_CFG has its boundary there. -/
def State.rcpWindow (s : State) : State :=
  s.fireDue (fun e => decide (e.action = 0x13)) (fun e t =>
    let at_ := e.skipAt.getD e.atNs
    ((t.prepareAt at_).closeWindow 0 (at_ * 65536)).windowBoundary 23 at_)

/-- TAL_WINDOW (R494): the counter window closes, and TAL_CFG has its boundary there. -/
def State.talWindow (s : State) : State :=
  s.fireDue (fun e => decide (e.action = 0x14)) (fun e t =>
    let at_ := e.skipAt.getD e.atNs
    (t.closeTally false e.skipAt.isSome at_).windowBoundary 29 at_)

/-! ### Parity (R377, R378, R402) -/

/-- The safe state of a live word in its owning block (R377). -/
def State.parityHook (s : State) (g a : Nat) : State :=
  match g with
  | 0 => s.tscParityFault
  | 1 => s.tscParityFault
  | 2 => s.tscParityFault
  | 3 => s.tscParityFault
  | 4 => s.refParityFault a
  | 5 => s.holParityFault
  | 6 => s.gnsParityFault a
  | 7 => s.gnsParityFault a
  | 8 =>
    let t := s.ttuParityFault a
    if 0x30100 ≤ a ∧ a < 0x30800 then t.fenceUnit .module 5 ((a - 0x30100) / 0x40) 2 false else t
  | 9 => s.ttuParityFault a
  | 16 => s.hrcFrozen.raise A.hrcEvent 3
  | 17 => s.hrcFrozen.raise A.hrcEvent 3
  | 18 => (s.hrcFrozen.raise A.hrcEvent 3).showPipes
  | 19 => s.hrcFrozen.raise A.hrcEvent 3
  | 20 => s.svpFrozen.raise A.svpEvent 2
  | 21 => s.ntsFrozen.armEpoch.raise A.ntsEvent 4
  | 22 => s.ptpParityFault a
  | 23 => s.rcpParityFault
  | 24 => s.pkeFrozen.raise A.pkeEvent 7
  | 25 => s.hifParityFault a
  | 26 => s.hifParityFault a
  | 27 => s.pwrParityFault
  | 28 => s.bootParityFault
  | 29 => s.talParityFault a
  | 30 => s.talParityFault a
  | 31 => s.cmacParityFault
  | 32 => s.cmacParityFault
  | 33 => s.casParityFault
  | 34 => s.casParityFault
  | _ =>
    let c := groupComplex g
    let t := (s.macFrozen c).raise (A.macEvent c) 4
    let t := t.each (linksOf c) (fun sl u =>
      u.when (decide (a = A.macLinkPreemptCfg sl) && u.linkUp sl && decide (u.rd a ≠ resetOf a)) (fun v => v.restartVerify sl))
    (t.each (macParityDown a) (fun sl u => if u.linkUp sl then u.portDown sl else u)).settleFlow

/-- A mismatch in a live staged word (R377, R402). A word already in its safe state is not reported again. -/
def State.liveParity (s : State) (a : Nat) : State :=
  match groupOf a with
  | none => s
  | some g =>
    if (s.group g).parity.contains a then s
    else
      let b := s.bucketPipe
      let fresh := (s.group g).parity = []
      let t := s.setGroup g (fun x => { x with parity := a :: x.parity })
      let t := (t.logFault 4 .module (groupBlock g) a 0 0 g).setBit (A.sluGroupStatus g) 3 true
      let t := if fresh then t.raise A.sluEvent 4 else t
      let t := t.parityHook g a
      let t := if g = 18 then t.each (List.range 256) (fun k u => u.moveBucket k (b k) (u.bucketPipe k)) else t
      t.alarmChange

/-- A mismatch in a staging word (R378). -/
def State.stageFault (s : State) (a : Nat) : State :=
  match groupOf a with
  | none => s
  | some g =>
    if (s.group g).stageParity.contains a then s
    else (s.setGroup g (fun x => { x with stageParity := a :: x.stageParity })).logFault 5 .module (groupBlock g) a 0 0 g

/-- A mismatch in a pending word (R378). -/
def State.pendFault (s : State) (a : Nat) : State :=
  match groupOf a with
  | none => s
  | some g =>
    if (s.group g).pend.isNone ∨ (s.group g).pendParity = true then s
    else (s.setGroup g (fun x => { x with pendParity := true })).logFault 5 .module (groupBlock g) a 0 0 g

/-- The order in which faults of one cycle reach the log (R397): the block code of a word's group, then the word. -/
def parityKey (a : Nat) : Nat := 0x100000 * (match groupOf a with
  | some g => groupBlock g
  | none => 0xFF) + a

/-- A faulty word, 0 live, 1 staging, 2 pending, into a list in that order, behind those of its own place. -/
def insertFaulty (x : Nat × Nat) : List (Nat × Nat) → List (Nat × Nat)
  | [] => [x]
  | y :: l => if parityKey x.2 < parityKey y.2 then x :: y :: l else y :: insertFaulty x l

/-- PARITY_SCRUB (R377, R378, R397): the domain supervisors' check, every 1 ms of the measurement scale, finds the words named. -/
def State.parityScrub (s : State) (live staging pend : List Nat) : State :=
  if s.ts.meas < s.scrubAt then s
  else
    let found := live.map (fun a => (0, a)) ++ staging.map (fun a => (1, a)) ++ pend.map (fun a => (2, a))
    ({ s with scrubAt := s.ts.meas + 1000000 * 2 ^ 48 }).each (found.foldl (fun l x => insertFaulty x l) []) (fun x u =>
      if x.1 = 0 then u.liveParity x.2 else if x.1 = 1 then u.stageFault x.2 else u.pendFault x.2)

end Sys2Proof.Machine
end

