-- ==== Sys2Proof/Machine/Power.lean ====
section
/-!
DEFINITION. Host detach (R347), loss of main power (R460), the stored configuration (R469, R470), start-up and safe hold
(R465 to R472), thermal hold (R464).
-/

namespace Sys2Proof.Machine

/-! ### Host detach (R347) -/

/-- The words of HIF_CFG and HIF_RING that a detach resets: ring pages, DB_ADDR and VEC words, and the AT words. -/
def detachWords (g : Nat) : List Nat :=
  (groupWords g).filter (fun a => decide (a ≠ A.hifDbPoll) && decide (a ≠ A.hifEvtBlocks) && !((atWords g).contains a))

/-- A group's words of a detach return to their reset values in the live and the staging copies, a pending commit ends CANCELLED,
STAGE_SEQ advances by 1. -/
def State.detachGroup (s : State) (g : Nat) : State :=
  let l := detachWords g
  let t := (s.dropPending g 5).each l (fun a u => u.wr a (resetOf a))
  let t := { t with stage := l.foldl (fun m a => CellList.set resetOf m a (resetOf a)) t.stage }
  (t.setGroup g (fun x => { x with
    stageParity := x.stageParity.filter (fun a => !(l.contains a))
    parity := x.parity.filter (fun a => !(l.contains a)) })).stageMoved g

/-- HOST_DETACH (R347): the cause is 0 link down, 1 hot reset, 2 FLR, 3 PERST#, 4 D3hot; without its own cause code in the manual. -/
def State.hostDetach (s : State) (cause : Nat) : State :=
  if s.hif.attached = false then s
  else
    let ev := s.eventRing.toList
    let t := s.each (ev ++ (List.range 256).filter (fun n => !(ev.contains n))) (fun n u =>
      if u.ringState n = 0 then u else u.stopRing n)
    let t := ((t.detachGroup 25).detachGroup 26).sluChanged.hifFrozen
    let t := { t with
      msix := State.reset.msix
      hif := { t.hif with
        attached := false
        vecs := State.reset.hif.vecs
        dbOutstanding := false
        dbAgain := false
        coalesce := t.hif.coalesce.filter (fun c => decide (c.dest ≠ 0))
        trainAt := some t.ts.meas } }
    let t := (t.setView .host (fun _ => SourceView.fresh)).sfW A.hifStatus 0 9 0
    ((t.raise A.hifEvent 1).inc A.hifDetaches).journalize 0x0A .host A.hifStatus 0
      [Config.detachCause cause, Config.detachState]

/-! ### Loss of power (R122, R123, R460) -/

/-- The units outside the management controller and the oscillators lose what they hold; the antenna bias goes off (R123). -/
def State.unitsOff (s : State) : State :=
  let t := (s.undriven.haltSide 0).haltSide 1
  { t with
    ts := { t.ts with calendar := [], step := none, hostStep := none }
    ttu := Ttu.empty
    ports := { Ports.empty with steps := s.ports.steps }
    hrc := Hrc.empty
    ptp := Ptp.empty
    pke := { Pke.empty with flash := s.pke.flash }
    rcp := Rcp.empty
    tal := Tal.empty
    cas := Cas.empty
    fw := Fw.empty
    boot := { s.boot with at_ := none, stableAt := none, retryAt := none, mgmt := none, storing := none } }

/-- Exactly these domains are on; a cartridge without PD2 is measured no more (R102). -/
def State.domainsOnly (s : State) (l : List Nat) : State :=
  (s.when (!l.contains 2) State.cartUnpowered).sfW A.pwrDomState 0 16 (l.foldl (fun n d => n + 2 ^ d) 0)

/-- The timescale and its anchor are in the cistern, its counter carries them (R110, R122, R472). -/
def State.toCistern (s : State) : State :=
  let t := s.when (decide (s.tscMode = 1) || decide (s.tscMode = 2)) (fun t => t.enterHoldover)
  t.endAid.cisternModels.cisternStamp

/-- MAIN_POWER_LOST (R122, R123, R460): keep-alive mode while KA is qualified, otherwise retention in PD0. -/
def State.mainPowerLost (s : State) : State :=
  if s.mainPower = true ∨ s.domainOn 15 = false ∨ s.hol.keepAlive = true then s
  else
    let t := ((s.endSessions 1).hostDetach 0).sfW A.bootStatus 4 2 0
    let t := { t with journal := { t.journal with toFlash := [] } }
    if t.bit A.pwrStatus 3 then
      let u := (t.kaEnter.inc A.pwrKaEntries).unitsOff
      (u.domainsOnly ([0, 1] ++ (if u.cartActive then [2] else []) ++ [15])).flashBootRecord
    else
      let u := t.cisternModels.unitsOff
      let u := u.setHol (fun h => { h with cisternTime := none })
      ({ u with pwr := { u.pwr with counting := false } }.domainsOnly [0]).flashBootRecord

/-- KA_LOST (R460): the timescale region is invalid and only PD0 retains. -/
def State.kaLost (s : State) : State :=
  if s.hol.keepAlive then
    let t := (s.setHol (fun h => { h with keepAlive := false, cisternTime := none })).haltSide s.wakeSide
    { t with
      gnss := { t.gnss with wake := none }
      pwr := { t.pwr with counting := false } }.domainsOnly [0]
  else s

/-! ### Stored configuration (R469, R470) -/

/-- The groups that a stored configuration holds (R469). -/
def storedGroups : List Nat := (List.range 35).filter (fun g => !([1, 3, 7, 19, 25, 26, 30, 34].contains g))

/-- The GNSS position in force on a side, with its POS_SIGMA. -/
def State.positionOf (s : State) (a : Nat) : Option (Int × Int × Int × Nat) :=
  if s.posInForce a then
    let p := s.sidePos a
    some (p.1, p.2.1, p.2.2, s.f (A.gnsSidePosSigma a) 0 32)
  else none

/-- The live configuration as a copy (R469). -/
def State.captureConfig (s : State) : ConfigCopy where
  words := (storedGroups.flatMap groupWords).foldl (fun l a => CellList.set resetOf l a (s.rd a)) []
  locks := s.latched.map (fun a => (a, s.rd a))
  positions := [s.positionOf 0, s.positionOf 1]

/-- An accepted STORE (R469): the live configuration is captured, and its writing to flash begins. -/
def State.storeAccepted (s : State) : State := { s with boot := { s.boot with storing := some s.captureConfig } }

/-- The write of a STORE ends (R469): the current copy is written, or the flash write failed and the previous copy stands. -/
def State.storeEnds (s : State) (flashOk : Bool) : State :=
  match s.boot.storing with
  | none => s
  | some c =>
    let t := { s with boot := { s.boot with storing := none } }
    if flashOk then ({ t with boot := { t.boot with current := some c } }).raise A.bootEvent 4 else t.raise A.bootEvent 5

/-- A survey that completes updates the positions in the current copy (R469). -/
def State.storePositions (s : State) : State :=
  { s with boot := { s.boot with current := s.boot.current.map (fun (c : ConfigCopy) =>
    { c with positions := [s.positionOf 0, s.positionOf 1] }) } }

/-- Words written to staging and to the live copy of a group without a boundary (R470). -/
def State.putGroup (s : State) (g : Nat) (w : Nat → Word) : State :=
  let t := { s with stage := (groupWords g).foldl (fun l a => CellList.set resetOf l a (w a)) s.stage }
  t.takeGroup g w t.nowNs

/-- EXPECT at its reset value: the inputs qualified at step 1 (R461). -/
def State.resetExpect (s : State) : State :=
  let v := word s.pwr.expect
  { s with stage := CellList.set resetOf s.stage A.pwrCfg v }.wr A.pwrCfg v

/-- Restoring the groups of a copy in ascending index, up to the first that is refused (R470): the groups restored, whether all
passed, and the state. -/
def State.restoreGroups (s : State) (c : ConfigCopy) : List Nat → List Nat → List Nat × Bool × State
  | [], done => (done, true, s)
  | g :: l, done =>
    let w := CellList.get resetOf c.words
    match checkGroup s g w with
    | some r => (done, false, s.commitOutcome g .module 3 r [])
    | none =>
      let ch := s.changesOf g w
      (State.restoreGroups ((s.putGroup g w).commitOutcome g .module 2 0 ch) c l (g :: done))

/-- LK values are written under R367. LT_SLOT binds the receipt engine (R289). -/
def State.restoreLock (s : State) (a : Nat) (v : Word) : State :=
  s.lkWrite .module a v (fun t => if a = A.rcpLtSlot then t.ltBound else t)

/-- Restoring a copy (R470): whether it stands. A refused one leaves every group at its reset values. -/
def State.restoreCopy (s : State) (c : ConfigCopy) : Bool × State :=
  let q := s.restoreGroups c storedGroups []
  if q.2.1 then
    let t := q.2.2.each c.locks (fun x u => u.restoreLock x.1 x.2)
    (true, t.each [0, 1] (fun a u => match c.positions.getD a none with
      | some p => u.putPosition a (p.1, p.2.1, p.2.2.1) p.2.2.2 false
      | none => u))
  else (false, (q.2.2.each q.1.reverse (fun g u => u.putGroup g resetOf)).resetExpect)

/-- The copy number `k`: 0 current, 1 last-known-good, 2 factory (every register at its reset value). -/
def State.configCopy (s : State) (k : Nat) : Option ConfigCopy :=
  match k with
  | 0 => s.boot.current
  | 1 => s.boot.good
  | _ => none

/-- The key store restored (R317): the newer copy that authenticates, else the other; otherwise every slot EMPTY. -/
def State.restoreKeys (s : State) (bad : List Nat) : State :=
  let ok := (List.range s.pke.flash.length).filter (fun k => !(bad.contains k))
  let t := match ok with
    | k :: _ => { s with pke := { s.pke with slots := s.pke.flash.getD k (List.replicate 64 KeySlot.empty) } }
    | [] =>
      if s.pke.flash = [] then s
      else (s.raise A.pkeEvent 1).journalize 4 .module (A.pkeSlot 0) 0 (Config.journalBody 1)
  (t.each (List.range 64) (fun k u => u.showSlot k)).showLt

/-! ### The steps of a start (R465 to R468) -/

/-- The start under way. -/
def State.setPoint (s : State) (p : Option StartPoint) : State := { s with boot := { s.boot with at_ := p } }

/-- A step may take so long for each attempt, in ms (R465). -/
def startLimit (n : Nat) : Nat := [0, 50, 10, 800, 400, 200, 100, 2000, 1000, 100, 10, 1000, 100].getD n 0

/-- The code of a failed attempt that is no timeout (R466). -/
def stepCode (n : Nat) : Nat := [0, 2, 3, 4, 5, 6, 7, 8, 3, 3, 1, 0xA, 1].getD n 1

/-- The domains switched on at the start of a step (R462). -/
def stepDomains (n : Nat) : List Nat :=
  match n with
  | 4 => [14]
  | 5 => [1]
  | 6 => [7]
  | 7 => [6, 8, 9, 10, 11, 12, 13]
  | 9 => [3, 4, 5]
  | _ => []

/-- Safe hold with a code (R471). -/
def State.safeHold (s : State) (code : Nat) : State :=
  let t := s.unitsOff
  let on := [0] ++ (if t.domainOn 1 then [1] else []) ++ (if t.domainOn 2 && t.cartActive then [2] else []) ++ [15]
  let t := ((t.domainsOnly on).sfW A.bootStatus 4 2 2).sfW A.bootStatus 8 8 code
  { t with boot := { t.boot with retryAt := if code = 0xB then none else some (t.ts.meas + secs 60) } }

/-- A start that ends short of stability has failed (R468): at MAX_FAILED in succession the next one takes the other bank and one
copy lower. -/
def State.startFails (s : State) : State :=
  if s.bit A.bootStatus 16 then s
  else
    let n := min 7 (s.f A.bootRecFlags 6 3 + 1)
    { s.sfW A.bootRecFlags 6 3 n with boot := { s.boot with lower := decide (fld (s.bootWord A.bootCfg) 1 3 ≤ n) } }

/-- A start ends in safe hold. -/
def State.holdStart (s : State) (code : Nat) : State := (s.startFails.safeHold code).flashBootRecord

/-- Entering a step (R462, R465, R467): the attempt counts, its domains are switched on, STEP shows it. -/
def State.enterStep (s : State) (n kind : Nat) : State :=
  let t := (s.sfW A.bootStatus 0 4 n).countAttempt n
  let t := t.each (stepDomains n) (fun d u => if u.domainEn d then u.setDomain d true else u)
  let t := if n = 11 then t.startTraining else t
  let first := if n = 3 then t.bankOrder.getD 0 0
    else if n = 8 then (if t.boot.lower then min 2 (t.f A.bootRecFlags 4 2 + 1) else 0) else 0
  let t := if n = 8 ∧ first ≠ 0 then t.raise A.bootEvent 3 else t
  t.setPoint (some ⟨n, 0, first, t.ts.meas, kind⟩)

/-- A further attempt of the step under way. -/
def State.retryStep (s : State) (p : StartPoint) : State :=
  (s.countAttempt p.step).setPoint (some { p with failed := p.failed + 1, since := s.ts.meas })

/-- A FREE_RUN start of the timescale: what it counts from is not stated (R55). -/
def State.freeRun (s : State) : State :=
  let q := s.draw
  let t := q.2.wr A.tscFreqCorr 0
  { t with
    ts := { t.ts with acc := q.1 % (2 ^ 48 * 1000000000 * 2 ^ 48) }
    pwr := { t.pwr with counting := true } }

/-- The timescale from the cistern (R55, R124): HOLDOVER or LOST with the anchor kept and 500 ps more. -/
def State.cisternTimescale (s : State) (rho mode : Nat) : State :=
  let r := min 0xFFFFFFFF (rho + 500)
  let t := s.setHol (fun h => { h with anchor := h.anchor.map (fun (a : Anchor) => { a with rho0 := a.rho0 + 500 }) })
  let t := { t with ts := { t.ts with rho := r, rhoComputed := r, rhoFine := r * 65536 } }
  (t.showAnchor.setMode (if mode = 4 then 4 else 3)).cisternStamp

/-- The module's own entries of a calendar that starts empty (R33, R517). -/
def State.startCalendar (s : State) : State :=
  let t := ({ s with ts := { s.ts with calendar := [] } }.calNew
    (ownEntry 0x19 0 (nextMultiple s.nowNs 1000000) 1000000 0 0)).2
  let t := (t.calNew (ownEntry 0x10 0 (nextMultiple t.nowNs 1000000000) 1000000000 0 0)).2
  let t := ((((t.sluEntries.armPoll).armTally t.nowNs).armWindow t.nowNs).armPtp).leapsChanged
  t.armTick.choosePosition false

/-- Step 10 (R55, R124, R242, R465): timescale, NTS keys, acquisition. -/
def State.restoreTime (s : State) : State :=
  let ka := s.hol.keepAlive
  let t := match s.hol.cisternTime with
    | some (rho, mode) => s.cisternTimescale rho mode
    | none => s.freeRun
  let t := t.setHol (fun h => { h with keepAlive := false })
  let t := t.when ka (fun u => u.raise A.holEvent 11)
  t.startCalendar.restoreNts

/-- The models and sample rings come from the cistern, or where its models fail from the flash copy without samples (R125): one whose
EPOCH is less than 30 days old LOADED, an older one with its terms and not VALID. -/
def State.restoreModels (s : State) (bad : List Nat) : State :=
  let fresh : List Word → Bool := fun p => decide ((s.nowNs / 1000000000 + 2 ^ 32 - (p.getD 2 0).toNat) % 2 ^ 32 < 30 * 86400)
  let mark : Bool → List Word → List Word := fun cart p =>
    if fresh p then word (8 * 256) :: s.takenOver cart ((p.drop 2).take 7)
    else (p.getD 0 0 &&& 0x6FF) :: p.drop 1
  let m := if bad.contains 1 then ⟨mark false s.hol.flash.keeper, mark true s.hol.flash.cart, s.hol.flash.serial, [], []⟩
    else s.hol.cistern
  let rings := !(bad.contains 1) && !(bad.contains 2)
  let t := ((s.putModel false m.keeper).putModel true m.cart).wr64 A.holCartSerialLo m.serial
  let t := (t.setBit A.holStatus 4 (t.modelValid false)).setBit A.holStatus 5 (t.modelValid true)
  t.setHol (fun h => { h with
    cistern := m
    keeperRing := if rings then m.keeperRing else []
    cartRing := if rings then m.cartRing else [] })

/-- Step 2 (R125, R465, R467): the regions of the cistern whose CRC fails: 0 timescale and anchor, 1 models, 2 sample rings, 3 NTS
keys, 4 boot record, 5 the record's copy in flash. -/
def State.readCistern (s : State) (bad : List Nat) : State :=
  let t := s.when (bad.contains 0) (fun t => t.setHol (fun h => { h with cisternTime := none, anchor := none }))
  let t := t.restoreModels bad
  let t := t.when (bad.contains 3) (fun t => { t with nts := { t.nts with mirror := none } })
  t.when (bad.contains 4) (fun t =>
    let old := if bad.contains 5 then [] else t.boot.flashRecord
    { t with regs := old.foldl (fun l e => CellList.set resetOf l e.1 e.2) (t.regs.filter (fun e => !(inRecord e.1))) })

/-- Step 7 (R222, R311, R319, R320, R395, R465): failed units are fenced, HASH_SEED is drawn, the pipelines run the bank's
microcode. -/
def State.testUnits (s : State) (bad : List Nat) : State :=
  let t := (s.each (bad.filter (fun k => decide (k / 256 < 6) && decide (k % 256 < unitCount (k / 256))))
    (fun k u => u.fenceUnit .module (k / 256) (k % 256) 1 true)).showUnits.buildTables
  let q := t.draw
  let t := q.2.wr A.hrcHashSeed (word q.1)
  let t := t.each (List.range 8) (fun i u =>
    if bad.contains (6 * 256 + i) then
      { u.sfW A.pkeTrngSrc (2 * i) 2 2 with pke := { u.pke with
        srcRetest := modAt u.pke.srcRetest i (fun _ => some (u.ts.meas + secs 1)) } }
    else u.sfW A.pkeTrngSrc (2 * i) 2 1)
  let t := t.each (List.range 16) (fun p u => u.loadUcode p false (u.bankImage u.bankRunning))
  let t := { t with pke := { t.pke with sampledAt := t.ts.cycles } }
  (t.showTrng.showPipes).showSha

/-- Step 12 (R290, R452, R465): outputs, contacts, service, the online key. -/
def State.enableService (s : State) : State :=
  let t := { s with
    pwr := { s.pwr with driven := true, noSelAt := if s.sel = 0xFF then some s.ts.meas else none, noSel := false }
    boot := { s.boot with at_ := none, stableAt := some (s.ts.meas + s.stableTime), lower := false } }
  let t := ((t.armOuts t.rd).alarmChange).firstKey
  ((t.sfW A.bootStatus 4 2 1).raise A.bootEvent 0).flashBootRecord

/-- A step passes and the next begins. -/
def State.nextStep (s : State) (p : StartPoint) : State :=
  let t := s.stepPassed p.step
  if p.step = 12 then t.enableService else t.enterStep (p.step + 1) p.kind

/-- A step goes on without its check (R465: steps 2, 7, 9, 10, 11 and 12 have no attempt to repeat). -/
def State.goOn (s : State) (p : StartPoint) : State :=
  if p.step = 12 then s.enableService else s.enterStep (p.step + 1) p.kind

/-- Step 8 with the copy it tries now (R470): a copy that is not there or fails its CRC, one that is refused, or one that stands. -/
def State.tryCopy (s : State) (p : StartPoint) (crcOk : Bool) (badKeys : List Nat) : State :=
  let k := min 2 (p.first + p.failed)
  let stands : State → State := fun t => ((t.sfW A.bootRecFlags 4 2 k).restoreKeys badKeys).nextStep p
  if k = 2 then stands s
  else
    let fails : State → Nat → State := fun t code => ((t.stepFailed 8 code).raise A.bootEvent 3).retryStep p
    match s.configCopy k with
    | none => fails s 3
    | some c =>
      if crcOk then
        let q := s.restoreCopy c
        if q.1 then stands q.2 else fails q.2 9
      else fails s 3

/-- A failed attempt of the step under way, with its code (R465, R468). -/
def State.attemptFails (s : State) (p : StartPoint) (code : Nat) : State :=
  match p.step with
  | 3 =>
    if p.failed = 0 then (s.bankFails p.first code).retryStep p
    else (s.bankFails (1 - p.first) code).holdStart code
  | 4 =>
    let t := s.stepFailed 4 code
    if t.bit A.bootRecFlags 3 then t.holdStart code
    else if p.failed = 0 then t.retryStep p
    else ((t.setBit A.bootRecFlags 3 true).raise A.bootEvent 3).retryStep p
  | 8 => ((s.stepFailed 8 code).raise A.bootEvent 3).retryStep p
  | 1 => (s.stepFailed 1 code).holdStart code
  | 5 => (s.stepFailed 5 code).holdStart code
  | 6 => (s.stepFailed 6 code).holdStart code
  | 7 => (s.stepFailed 7 code).goOn p
  | _ => (s.stepFailed p.step code).goOn p

/-- An attempt of the step under way whose check passes in time. -/
def State.attemptPasses (s : State) (p : StartPoint) (o : StepObs) : State :=
  match p.step with
  | 1 =>
    let t := { s with pwr := { s.pwr with expect := s.f A.pwrStatus 0 4 } }
    t.resetExpect.nextStep p
  | 2 =>
    let t := s.readCistern o.fails
    if o.fails = [] then t.nextStep p else (t.stepFailed 2 3).goOn p
  | 3 =>
    let b := if p.failed = 0 then p.first else 1 - p.first
    let t := s.runBank b
    (if p.failed = 0 then t else t.bankFallback b).nextStep p
  | 5 => (if o.cart then s.cartPower else s).nextStep p
  | 7 =>
    let t := s.testUnits o.fails
    let t := if o.fails.any (fun k => decide (k / 256 < 6)) then
        (t.sfW (A.bootStepCount 6) 24 8 8).wr (A.bootStepLastT 6) (word t.recordSec)
      else t
    t.nextStep p
  | 8 => s.tryCopy p true o.fails
  | 9 => (((s.loadHotStart.sideBack 0).sideBack 1)).nextStep p
  | 10 => s.restoreTime.nextStep p
  | 11 => (s.pcieUp o.speed o.width).nextStep p
  | _ => s.nextStep p

/-- Step 9 without its record: both sides start cold (R134, R465). -/
def State.coldSides (s : State) : State :=
  ({ s with gnss := { s.gnss with hotStart := none } }.sideBack 0).sideBack 1

/-- What a failed attempt leaves done: GNSS, timescale and units are started all the same (R465). -/
def State.beforeFailure (s : State) (p : StartPoint) (o : StepObs) : State :=
  match p.step with
  | 2 => s.readCistern [0, 1, 2, 3, 4]
  | 7 => s.testUnits o.fails
  | 9 => s.coldSides
  | 10 => s.restoreTime
  | _ => s

/-- One attempt of the step under way: what it found (R465). -/
def State.attempt (s : State) (o : StepObs) : State :=
  match s.boot.at_ with
  | none => s
  | some p =>
    let t := s.advance (min o.took (startLimit p.step * 1000000))
    if startLimit p.step * 1000000 < o.took then (t.beforeFailure p o).attemptFails p 1
    else if o.ok then t.attemptPasses p o
    else if p.step = 8 then t.tryCopy p false o.fails
    else (t.beforeFailure p o).attemptFails p (stepCode p.step)

/-- Attempts one after the other, as long as the start goes on. -/
def State.attempts (s : State) (l : List StepObs) : State := s.each l (fun o t => t.attempt o)

/-! ### Starts (R468, R472) -/

/-- What a start clears: everything outside PD0 and flash (R472). -/
def State.cleared (s : State) : State :=
  let r := State.reset
  let kept : Nat → Bool := fun a => inRecord a || (decide (0x8030 ≤ a) && decide (a < 0x8050)) || decide (a = A.tscFreqCorr) ||
    decide (a = A.glbJournalSeq)
  let t := { r with
    regs := s.regs.filter (fun e => kept e.1)
    journal := { s.journal with records := s.journal.flash }
    celen := { s.celen with sessions := r.celen.sessions, recovery := true }
    ts := { r.ts with
      acc := s.ts.acc
      meas := s.ts.meas
      cycles := s.ts.cycles
      steer := s.ts.steer
      holdStart := s.ts.holdStart
      rho := s.ts.rho
      rhoComputed := s.ts.rhoComputed
      rhoFine := s.ts.rhoFine }
    hol := { r.hol with
      anchor := s.hol.anchor
      uY := s.hol.uY
      uA := s.hol.uA
      uT := s.hol.uT
      modelBlock := s.hol.modelBlock
      cistern := s.hol.cistern
      flash := s.hol.flash
      cisternTime := s.hol.cisternTime
      keepAlive := s.hol.keepAlive }
    gnss := { r.gnss with
      hotStart := s.gnss.hotStart
      sides := s.gnss.sides.map (fun (x : GnssSide) => { GnssSide.empty with slot := x.slot, fallback := x.fallback }) }
    nts := { r.nts with mirror := s.nts.mirror }
    pke := { r.pke with flash := s.pke.flash }
    pwr := { r.pwr with counting := s.pwr.counting }
    boot := { s.boot with at_ := none, stableAt := none, retryAt := none, mgmt := none, switchedAt := none, storing := none }
    out := s.out
    fresh := s.fresh
    pending := s.pending }
  let t := if t.hol.cisternTime.isSome then t
    else { t with ts := { t.ts with rho := r.ts.rho, rhoComputed := r.ts.rhoComputed, rhoFine := r.ts.rhoFine } }
  t.sfW A.pwrStatus 0 4 (s.f A.pwrStatus 0 4)

/-- A start begins at step 1 (R465, R468, R472): kind 0 POWER, 1 FULL. A FULL start leaves PD1 and PD2 with an ACTIVE cartridge
on, and the cistern counter runs through it. PCIe and port MP lose what is open (R347, R382, R474). -/
def State.beginStart (s : State) (kind : Nat) : State :=
  let on := if kind = 1 then (if s.domainOn 1 then [1] else []) ++ (if s.domainOn 2 && s.cartActive then [2] else []) else []
  let s := (s.endSessions 1).hostDetach 0
  let t := if kind = 1 ∧ s.pwr.counting = true ∧ s.domainOn 7 = true then s.toCistern else s
  let t := t.when t.cartActive (fun u => u.handover false false)
  let t := (t.endSurvey 0 1).endSurvey 1 1
  let t := (t.undriven.cleared).domainsOnly ([0] ++ on ++ [15])
  let t := t.sfW A.bootStatus 6 2 kind
  let t := if t.boot.lower then t.sfW A.bootRecFlags 6 3 0 else t
  (t.wr A.bootRecStarts (word ((t.rd A.bootRecStarts).toNat + 1))).enterStep 1 kind

/-- A start with what its attempts find. -/
def State.start (s : State) (kind : Nat) (l : List StepObs) : State := (s.beginStart kind).attempts l

/-- POWER_START (R465, R472): main power qualifies after its loss. -/
def State.powerStart (s : State) (l : List StepObs) : State :=
  if s.mainPower = true ∧ s.domainOn 7 = false ∧ s.boot.at_.isNone = true ∧ s.f A.bootStatus 4 2 ≠ 2 then s.start 0 l else s

/-- STEP_TIMEOUT (R465): the attempt under way has passed its limit; what the following attempts find. -/
def State.stepTimeout (s : State) (l : List StepObs) : State :=
  match s.boot.at_ with
  | none => s
  | some p =>
    if p.since + startLimit p.step * 1000000 * 2 ^ 48 ≤ s.ts.meas then
      ((s.beforeFailure p ⟨0, false, [], false, 0, 0⟩).attemptFails p 1).attempts l
    else s

/-- SAFE_HOLD_RETRY (R471): 60 s of safe hold have passed. -/
def State.safeHoldRetry (s : State) (l : List StepObs) : State :=
  match s.boot.retryAt with
  | none => s
  | some m => if m ≤ s.ts.meas ∧ s.f A.bootStatus 4 2 = 2 then s.start 1 l else s

/-- STABILITY_REACHED (R468): FAILED_STARTS is 0 and the copy in use becomes the last-known-good copy. -/
def State.stabilityReached (s : State) : State :=
  match s.boot.stableAt with
  | none => s
  | some m =>
    if m ≤ s.ts.meas then
      let used := s.configCopy (s.f A.bootRecFlags 4 2)
      let t := { s with boot := { s.boot with stableAt := none, good := if used.isSome then used else s.boot.good } }
      ((t.sfW A.bootRecFlags 6 3 0).setBit A.bootStatus 16 true).raise A.bootEvent 2
    else s

/-- An accepted FULL: it acts 10 ms later (R474). -/
def State.fullAccepted (s : State) : State :=
  { s with pwr := { s.pwr with resetAt := some (10000000 * 2 ^ 48 + s.ts.meas) } }

/-- FULL acts (R472). -/
def State.fullActs (s : State) (l : List StepObs) : State :=
  match s.pwr.resetAt with
  | none => s
  | some m => if m ≤ s.ts.meas then s.start 1 l else s

/-- SUPERVISOR_SILENT (R472): a FULL reset that ends a start short of stability. -/
def State.supervisorSilent (s : State) (l : List StepObs) : State :=
  if s.f A.bootStatus 4 2 = 1 ∨ s.boot.at_.isSome = true then s.startFails.start 1 l else s

/-! ### Thermal hold (R464) -/

/-- THERMAL_HOLD: the junction has reached 115 °C. The cistern counter carries the timescale. -/
def State.thermalHold (s : State) (m : PowerSense) : State :=
  let t := s.showSense m
  if m.tZafel < 1150 ∨ (t.f A.bootStatus 4 2 ≠ 1 ∧ t.boot.at_.isNone = true) then t
  else
    let u := if t.domainOn 7 && t.pwr.counting then t.toCistern else t
    (u.hostDetach 0).holdStart 0xB

/-- THERMAL_RECOVER: the junction has been below 95 °C for 60 s, in which no reading showed otherwise. -/
def State.thermalRecover (s : State) (m : PowerSense) (l : List StepObs) : State :=
  let t := s.showSense m
  if t.f A.bootStatus 4 2 = 2 ∧ t.f A.bootStatus 8 8 = 0xB ∧ m.tZafel < 950 ∧ t.pwr.hotAt + secs 60 ≤ t.ts.meas then t.start 1 l else t

/-! ### BOOT.CMD (R477) -/

/-- CLEAR: attempt counts, CONSEC_FAIL, LAST_T and FAILED_STARTS to 0. -/
def State.bootClear (s : State) : State :=
  let t := s.each (List.range 12) (fun n u => (u.sfW (A.bootStepCount n) 0 20 0).wr (A.bootStepLastT n) 0)
  t.sfW A.bootRecFlags 6 3 0

/-- RETRAIN: DDR_CONSERVATIVE to 0. -/
def State.bootRetrain (s : State) : State := s.setBit A.bootRecFlags 3 false

end Sys2Proof.Machine
end

