-- ==== Sys2Proof/Machine/Access.lean ====
section
/-!
DEFINITION. Register access as a source makes it (R352 to R368): which register acts on which unit, reads that latch, and the
handling of a BAR0 transaction by its width and byte enables (R353).
-/

namespace Sys2Proof.Machine

/-- The source that a command names: 0 the host, 1 to 4 a management session. -/
def srcOf (n : Nat) : Source := if n = 0 then .host else .session n

/-! ### Guarded registers (R365, R366) -/

/-- CLEAR_DISTRUST (R77): a DISTRUSTED reference is released to CANDIDATE; any other index is accepted without effect. -/
def State.clearDistrust (s : State) (i : Nat) : State :=
  if i < 13 ∧ s.qstate i = 5 then s.toCandidate i else s

/-- The registers that take a guarded pair. -/
def guardedRegs : List Nat :=
  [A.tscStepApprove, A.refForce, A.refClearDistrust, A.holCartCmd, A.ntsCmd, A.rcpCmd, A.pkeAbort, A.glbFenceCmd,
    A.pwrResetCmd, A.bootCmd]

/-- The values that a guarded register accepts (R366). -/
def State.guardOk (s : State) (x : Nat) (v : Word) : Bool :=
  if x = A.tscStepApprove then stepApproveOk v
  else if x = A.refForce then decide (v.toNat ≤ 12) || decide (v = 0xFF)
  else if x = A.refClearDistrust then decide (v.toNat ≤ 255)
  else if x = A.holCartCmd then s.cartCmdOk v
  else if x = A.ntsCmd then ntsCmdOk v
  else if x = A.rcpCmd then rcpCmdOk v
  else if x = A.glbFenceCmd then fenceCmdOk v
  else if x = A.pwrResetCmd then decide (v = 1) || decide (v = 2)
  else if x = A.bootCmd then decide (v = 1) || decide (v = 2) || decide (v = 3)
  else true

/-- What an accepted value does. -/
def State.guardAct (s : State) (src : Source) (x : Nat) (v : Word) : State :=
  if x = A.tscStepApprove then s.answerSelected v
  else if x = A.refClearDistrust then s.clearDistrust v.toNat
  else if x = A.holCartCmd then s.cartCmd v
  else if x = A.ntsCmd then s.ntsCmd src v
  else if x = A.rcpCmd then s.rotateNow src
  else if x = A.pkeAbort then s.abortTag v.toNat
  else if x = A.glbFenceCmd then s.fenceCmd src v
  else if x = A.pwrResetCmd then (if v = 1 then s.fullAccepted else s.mgmtBegin 0)
  else if x = A.bootCmd then (if v = 1 then s.storeAccepted else if v = 2 then s.bootClear else s.bootRetrain)
  else s

/-- A guarded pair of a source on register `x` as its two writes (R365). While the register's domain is off both are dropped
(R359). -/
def State.guardPair (s : State) (src : Source) (x : Nat) (v c : Word) : State :=
  if s.domainOn (domainOf x) then s.guarded src x v c (s.guardOk x) (fun w t => t.guardAct src x w)
  else ((s.countWrite src).domainFault src x v.toNat true).countWrite src |>.domainFault src (x + 4) c.toNat true

/-! ### Masked registers (R362) -/

/-- A CM write stored in its register: the masked bits. -/
def State.cmStore (s : State) (a : Nat) (v : Word) : State :=
  s.wr a (cmValue (s.rd a) v)

/-- STOLEN0 or STOLEN1 written (R500): a mask bit with value 0 clears the writer's bit. -/
def State.stolenWrite (s : State) (src : Source) (a : Nat) (v : Word) : State :=
  let lo := if a = A.talStolen0 then 0 else 16
  let clear := fld v 16 16 &&& (0xFFFF - fld v 0 16)
  s.setView src (fun w => { w with stolen := w.stolen - (w.stolen &&& (clear <<< lo)) })

/-- SLU.VIEW written (R369). -/
def State.viewWrite (s : State) (src : Source) (v : Word) : State :=
  if bitOf v 16 then s.setView src (fun w => { w with staged := bitOf v 0 }) else s

/-- The RV bits of a CM write alone (R358, R362). -/
def State.cmRv (s : State) (src : Source) (a : Nat) (v : Word) : State :=
  let m : Word := match rowOf a with
    | some r => BitVec.ofNat 32 r.rv &&& 0xFFFF
    | none => 0
  let old := s.rd a
  let n := (old &&& ~~~m) ||| (cmValue old v &&& m)
  (if n = old then s else s.wr a n).testControl src a old n

/-- A CM write (R362): the register, and what it starts. -/
def State.cmWrite (s : State) (src : Source) (a : Nat) (v : Word) : State :=
  let s := s.cmRv src a v
  if a = A.sluView then s.viewWrite src v
  else if a = A.talStolen0 ∨ a = A.talStolen1 then s.stolenWrite src a v
  else if a = A.talTallySel then s.tallySelect v
  else if a = A.talSampleIndex then s.sampleSelect v
  else if a = A.ptpCtxIndex then (s.cmStore a v).showCtx
  else if 0x58000 ≤ a ∧ a < 0x5C000 then s.ucodeWrite ((a - 0x58000) / 0x400) v
  else if 0x40000 ≤ a ∧ a < 0x48000 then
    (if bitOf v 0 && bitOf v 16 then s.probeStart (4 * ((a - 0x40000) / 0x4000) + ((a - 0x40000) % 0x4000 - 0x400) / 0x400) else s)
  else s.cmStore a v

/-! ### Write-once registers (R367) -/

/-- An LK write (R289, R367, R428): LT_SLOT binds the long-term key, SYSTEM_ID lets the cascade start. -/
def State.lockWrite (s : State) (src : Source) (a : Nat) (v : Word) : State :=
  s.lkWrite src a v (fun t =>
    let t := t.testControl src a (resetOf a) v
    if a = A.rcpLtSlot then t.ltBound
    else if t.casOn ∧ t.position = 0 then t.armTick.choosePosition false
    else t)

/-! ### Event registers (R363) -/

/-- An SQ write: the acknowledgement, and RV bits as R358 has them. -/
def State.eventWrite (s : State) (src : Source) (a : Nat) (v : Word) : State :=
  let m : Word := match rowOf a with
    | some r => BitVec.ofNat 32 r.rv
    | none => 0
  let old := s.rd a
  let t := s.sqWrite a (v &&& ~~~m)
  if (v ^^^ old) &&& m = 0 then t else (t.wr a ((t.rd a &&& ~~~m) ||| (v &&& m))).testControl src a old v

/-! ### One full-width write -/

/-- The MSI-X table and pending-bit array (R349). -/
def State.msixWrite (s : State) (a : Nat) (v : Word) : State :=
  let k := (a - 0x7800) / 4
  let t := { s with msix := modAt s.msix k (fun _ => if k % 4 = 3 then v &&& 1 else if k % 4 = 0 then v &&& 0xFFFFFFFC else v) }
  if k % 4 = 3 ∧ bitOf v 0 = false ∧ (t.hif.vecs.getD (k / 4) ⟨0, 0, false⟩).waiting = true then t.sendVec (k / 4) else t

/-- A write to an address that no register row lists: the complement of a guarded register, the high half of a pair, the MSI-X
table, or nothing (R353, R357). -/
def State.otherWrite (s : State) (src : Source) (a : Nat) (v : Word) : State :=
  if guardedRegs.any (fun x => decide (x + 4 = a)) then
    if s.domainOn (domainOf a) then
      s.gdComplement src (a - 4) v (s.guardOk (a - 4)) (fun w t => t.guardAct src (a - 4) w)
    else s.domainFault src a v.toNat true
  else if 0x7800 ≤ a ∧ a < 0x7C00 then s.msixWrite a v
  else s

/-- A full-width 32-bit write of a source (R353, R357, R359, R361 to R369). -/
def State.writeWord (s : State) (src : Source) (a : Nat) (v : Word) : State :=
  let s := s.countWrite src
  match rowOf a with
  | none => s.otherWrite src a v
  | some r =>
    if r.kind = .st then
      match groupOf a with
      | some g => s.stageWrite src g a v
      | none => s
    else if !(s.domainOn (domainOf a)) then s.domainFault src a v.toNat true
    else match r.kind with
      | .sq => s.eventWrite src a v
      | .cm => s.cmWrite src a v
      | .gd => s.gdValue src a v
      | .lk => s.lockWrite src a v
      | .wo => (s.testControl src a (resetOf a) v).commitWrite src ((a - 0x2100) / 0x20) v
      | _ => s

/-- Full-width writes one after the other. -/
def State.writeWords (s : State) (src : Source) (l : List (Nat × Word)) : State := s.each l (fun x t => t.writeWord src x.1 x.2)

/-! ### A BAR0 write transaction (R353) -/

/-- One word of a transaction judged alone by its byte enables: a full one is written, any other with a byte enabled is dropped with
ACCESS_FAULT. -/
def State.writeLane (s : State) (src : Source) (a be : Nat) (v : Word) : State :=
  if be % 16 = 15 then s.writeWord src a v
  else if be % 16 = 0 then s
  else s.accessFault src a v.toNat be true

/-- Each word of a long transaction, in ascending order. -/
def State.writeLanes (s : State) (src : Source) (a : Nat) : List (Nat × Word) → State
  | [] => s
  | x :: l => (s.writeLane src a x.1 x.2).writeLanes src (a + 4) l

/-- A write transaction: byte enables and data of each 32-bit word from `a` on. A 64-bit write is two writes, lower address first;
one that crosses a word boundary is dropped with ACCESS_FAULT. -/
def State.busWrite (s : State) (src : Source) (a : Nat) (l : List (Nat × Word)) : State :=
  match l with
  | [x, y] =>
    if x.1 % 16 = 15 ∧ y.1 % 16 = 15 ∧ a % 8 = 0 then (s.writeWord src a x.2).writeWord src (a + 4) y.2
    else s.accessFault src a x.2.toNat x.1 true
  | _ => s.writeLanes src a l

/-! ### Reads -/

/-- Words that show a state of their unit as it is at the read: the calendar entry that CAL_INDEX selects, TOD_ACTIVE. Of an entry not
in use CAL_READ0 to 7 read 0, for which R57 has no words (notes/assumptions/123). -/
def State.refreshRead (s : State) (a : Nat) : State :=
  if A.tscCalRead 0 ≤ a ∧ a ≤ A.tscCalRead 7 then
    s.wr a (match s.calAt (s.f A.tscCalIndex 0 12) with
      | some e => e.word ((a - A.tscCalRead 0) / 4)
      | none => 0)
  else if a = A.pwrIoStatus then s.setBit A.pwrIoStatus 2 s.todActive
  else if a = A.ttuStatus then s.showBurst
  else if a = A.pkeSeeds ∨ a = A.pkeSeeds + 4 then s.countSeeds
  else if A.pkeCoreCycles 0 ≤ a ∧ a ≤ A.pkeCoreCycles 15 + 4 ∧ (a - A.pkeCoreCycles 0) % 0x400 < 8 then
    s.settleCycles ((a - A.pkeCoreCycles 0) / 0x400)
  else match (List.range 8).find? (fun sl => [A.macLinkBufOcc sl, A.macLinkPauseHeld sl, A.macLinkFragTx sl].contains a) with
    | none => s
    | some sl =>
      if s.linkExists sl = false then s
      else if a = A.macLinkBufOcc sl then s.showCells sl
      else if a = A.macLinkPauseHeld sl then s.settleHeld sl
      else s.settleCuts sl

/-- Words whose full-width read latches others (R23, R99, R158, R430, R431). -/
def State.latchRead (s : State) (a : Nat) : State :=
  if a = A.tscNowSecLo then s.snapshot
  else if a = A.casOpResult 0 then s.latchResult
  else if (List.range 14).any (fun i => decide (a = A.refInOffsetLo i)) then s.latchOffset ((a - A.refInOffsetLo 0) / 0x100)
  else if a = A.gnsSideThetaLo 0 then s.latchTheta 0
  else if a = A.gnsSideThetaLo 1 then s.latchTheta 1
  else if (List.range 8).any (fun l => decide (a = A.cmacLaneThetaLo l)) then s.latchLane ((a - A.cmacLaneThetaLo 0) / 0x100)
  else s

/-- A full-width 32-bit read of a source: its value and the state after it (R353, R354, R359). -/
def State.readReg (s : State) (src : Source) (a : Nat) : Word × State :=
  if s.domainOn (domainOf a) then ((s.latchRead a).refreshRead a).readWord src a else s.readWord src a

/-- A 64-bit read: a counter pair is read and cleared at once, anything else is two reads (R353, R354). -/
def State.readReg64 (s : State) (src : Source) (a : Nat) : Nat × State :=
  if (rowOf a).any (fun r => r.pair) ∧ a % 8 = 0 ∧ s.domainOn (domainOf a) = true then (s.refreshRead a).crRead src a
  else
    let q := s.readReg src a
    let r := q.2.readReg src (a + 4)
    (q.1.toNat + 2 ^ 32 * r.1.toNat, r.2)

/-- Byte enables that name contiguous bytes of a word, at least one. -/
def contiguous (be : Nat) : Bool := [1, 2, 3, 4, 6, 7, 8, 12, 14, 15].contains (be % 16)

/-- The enabled bytes of a value. -/
def laneBytes (be : Nat) (v : Word) : Bytes :=
  ((List.range 4).filter (fun i => be.testBit i)).map (fun i => byte (v.toNat >>> (8 * i)))

/-- What a word reads as without a side effect, for a narrower read (R353); an off domain logs all the same (R359). -/
def State.peek (s : State) (src : Source) (a : Nat) : Word × State :=
  if listed a && !(s.domainOn (domainOf a)) then (0, s.domainFault src a 0 false)
  else (((s.refreshRead a).readWord src a).1, s)

/-- One word read by its byte enables (R353). -/
def State.readLane (s : State) (src : Source) (a be : Nat) : Word × State :=
  if be % 16 = 15 then s.readReg src a
  else if contiguous be then s.peek src a
  else if be % 16 = 0 then (0, s)
  else (0xFFFFFFFF, s.accessFault src a 0 be false)

/-- The words of a long read, each judged alone, in ascending order. -/
def State.readLanes (s : State) (src : Source) (a : Nat) : List Nat → Bytes × State
  | [] => ([], s)
  | b :: l =>
    let q := s.readLane src a b
    let r := q.2.readLanes src (a + 4) l
    (laneBytes b q.1 ++ r.1, r.2)

/-- A read transaction: the byte enables of each word from `a` on; what it returns (R353). -/
def State.busReadOf (s : State) (src : Source) (a : Nat) (l : List Nat) : Bytes × State :=
  match l with
  | [x, y] =>
    if x % 16 = 15 ∧ y % 16 = 15 ∧ a % 8 = 0 then
      let q := s.readReg64 src a
      (le 8 q.1, q.2)
    else (List.replicate 8 0xFF, s.accessFault src a 0 x false)
  | _ => s.readLanes src a l

/-- A read transaction of a source; what the host reads leaves the module. -/
def State.busRead (s : State) (src : Source) (a : Nat) (l : List Nat) : State :=
  let q := s.busReadOf src a l
  if src = .host then q.2.emit (.readData a q.1) else q.2

end Sys2Proof.Machine
end

