-- ==== Sys2Proof/Machine/Celen.lean ====
section
/-!
DEFINITION. The Celen management protocol (R379 to R386): sessions on port MP, their messages, streams and staging.
-/

namespace Sys2Proof.Machine

/-! ### Replies -/

/-- A reply to a client message. -/
def State.reply (s : State) (i type tag : Nat) (body : Bytes) : State := s.emit (.mp i type tag body)

/-- An ERROR with its code and DETAIL (R383). -/
def State.mpError (s : State) (i tag code detail : Nat) : State :=
  s.reply i Config.errorType tag (le 1 code ++ zeros 3 ++ be 4 detail)

/-- The message types that the recovery loader serves (R386). -/
def recoveryServes (type : Nat) : Bool := [1, 2, 3, 4, 7, 8, 0xF].contains type

/-- A client message before its body is looked at (R383, R386): the header, then `f` on a message that may be served. -/
def State.message (s : State) (i type : Nat) (m : MpMsg) (f : State → State) : State :=
  match s.session i with
  | none => s
  | some x =>
    let t := s.setSession i (fun o => o.map (fun (y : Session) => { y with lastMsg := s.ts.meas }))
    if m.magic ≠ 0x434C then t.mpError i m.tag 1 0
    else if m.version ≠ 1 then t.mpError i m.tag 3 0
    else if !([1, 2, 3, 4, 5, 6, 7, 8, 9, 10, 15].contains type) then t.mpError i m.tag 2 type
    else if x.hello = false ∧ type ≠ 1 then t.mpError i m.tag 4 0
    else if 65600 < m.len ∨ m.len ≠ m.body.length then t.mpError i m.tag 1 4
    else if t.celen.recovery ∧ recoveryServes type = false then t.mpError i m.tag 8 type
    else f t

/-- A client message whose body must have a given length. -/
def State.sized (s : State) (i type n : Nat) (m : MpMsg) (f : State → State) : State :=
  s.message i type m (fun t => if m.body.length = n then f t else t.mpError i m.tag 1 4)

/-! ### Sessions (R381, R382) -/

/-- The present UTC second, for a certificate's validity. -/
def State.utcNow (s : State) : Int := (s.nowNs / 1000000000 : Nat) - s.utcOffset (s.nowNs / 1000000000)

/-- SESSION_OPEN (R381, R382): a client whose certificate has this fingerprint proves possession of its key or not; the issuers it
chains to, and its validity in UTC seconds. -/
def State.sessionOpen (s : State) (fingerprint : Bytes) (proof : Bool) (issuers : List Bytes) (notBefore notAfter : Int) : State :=
  let trusted := decide (s.celen.trust = []) || issuers.any (fun c => s.celen.trust.contains c)
  let timed := decide (s.tscMode = 1) || decide (s.tscMode = 2) || decide (s.tscMode = 3)
  let valid := !timed || (decide (notBefore ≤ s.utcNow) && decide (s.utcNow ≤ notAfter))
  if s.domainOn 15 = false ∨ s.hol.keepAlive = true ∨ s.mainPower = false ∨ !(proof && trusted && valid) then s
  else match s.freeSession with
    | some i => s.openSession i fingerprint
    | none =>
      let q := s.draw
      q.2.mpError 0 (q.1 % 2 ^ 32) 7 0

/-- SESSION_IDLE (R382): 300 s without a message. -/
def State.sessionIdle (s : State) (i : Nat) : State :=
  match s.session i with
  | none => s
  | some x => if x.lastMsg + secs 300 ≤ s.ts.meas then s.endSession i 3 else s

/-- SESSION_CLOSED (R382): the TCP connection closes, or either side sends a TLS alert. -/
def State.sessionClosed (s : State) (i : Nat) (alert : Bool) : State := s.endSession i (if alert then 2 else 1)

/-! ### Messages (R384) -/

/-- HELLO: identity, session and bank. A message of unknown TYPE is answered here too. -/
def State.hello (s : State) (i type : Nat) (m : MpMsg) : State :=
  if type ≠ 1 then
    (if [2, 3, 4, 5, 6, 7, 8, 9, 10, 15].contains type then s else s.message i type m (fun t => t))
  else s.sized i 1 4 m (fun t =>
    let u := t.setSession i (fun o => o.map (fun (y : Session) => { y with hello := true }))
    u.reply i 0x81 m.tag (be 4 (u.rd A.glbIdent).toNat ++ be 8 (u.rd64 A.glbSerialLo) ++ be 1 i ++ be 1 u.bankRunning ++
      be 1 (b2n u.celen.recovery) ++ [0] ++ be 4 (u.bankImage u.bankRunning).build))

/-- An address and count that READ or WRITE refuses with RANGE. -/
def State.rangeBad (s : State) (a n : Nat) : Bool :=
  decide (a % 4 ≠ 0) || decide (n = 0) || decide (64 < n) || decide (0x100000 < a + 4 * n) ||
  (s.celen.recovery && (List.range n).any (fun k => !([0, 3, 4].contains (blockOf (a + 4 * k)))))

/-- One word of a READ: bytes that the byte enables do not name have no stated value. -/
def State.readMasked (s : State) (src : Source) (a be_ : Nat) : Bytes × State :=
  let q := s.readLane src a be_
  if be_ % 16 = 15 ∨ (contiguous be_ = false ∧ be_ % 16 ≠ 0) then (be 4 q.1.toNat, q.2)
  else
    let d := q.2.draw
    ((List.range 4).map (fun k =>
      if be_.testBit (3 - k) then byte (q.1.toNat >>> (8 * (3 - k))) else byte (d.1 >>> (8 * (3 - k)))), d.2)

/-- The words of a READ. -/
def State.readRun (s : State) (src : Source) (a be_ : Nat) : Nat → Bytes × State
  | 0 => ([], s)
  | n + 1 =>
    let q := s.readMasked src a be_
    let r := q.2.readRun src (a + 4) be_ n
    (q.1 ++ r.1, r.2)

/-- READ. -/
def State.mpRead (s : State) (i : Nat) (m : MpMsg) : State :=
  s.sized i 2 8 m (fun t =>
    let a := beAt m.body 0 4
    let n := beAt m.body 4 1
    let e := beAt m.body 5 1
    if 16 ≤ e then t.mpError i m.tag 1 5
    else if beAt m.body 6 2 ≠ 0 then t.mpError i m.tag 1 6
    else if t.rangeBad a n then t.mpError i m.tag 5 a
    else
      let q := t.readRun (.session i) a e n
      q.2.reply i 0x82 m.tag q.1)

/-- WRITE: the words in ascending address order. -/
def State.mpWrite (s : State) (i : Nat) (m : MpMsg) : State :=
  s.message i 3 m (fun t =>
    let a := beAt m.body 0 4
    let n := beAt m.body 4 1
    let e := beAt m.body 5 1
    if m.body.length < 8 ∨ m.body.length ≠ 8 + 4 * n then t.mpError i m.tag 1 4
    else if 16 ≤ e then t.mpError i m.tag 1 5
    else if beAt m.body 6 2 ≠ 0 then t.mpError i m.tag 1 6
    else if t.rangeBad a n then t.mpError i m.tag 5 a
    else
      (t.writeLanes (.session i) a ((List.range n).map (fun k => (e, word (beAt m.body (8 + 4 * k) 4))))).reply i 0x83 m.tag [])

/-- READ64. -/
def State.mpRead64 (s : State) (i : Nat) (m : MpMsg) : State :=
  s.sized i 4 4 m (fun t =>
    let a := beAt m.body 0 4
    if a % 8 ≠ 0 ∨ t.rangeBad a 2 = true then t.mpError i m.tag 5 a
    else
      let q := t.readReg64 (.session i) a
      q.2.reply i 0x82 m.tag (be 8 q.1))

/-- SUBSCRIBE. -/
def State.mpSubscribe (s : State) (i : Nat) (m : MpMsg) : State :=
  s.sized i 5 12 m (fun t =>
    let k := beAt m.body 4 1
    if 8 ≤ k then t.mpError i m.tag 1 4
    else if beAt m.body 5 3 ≠ 0 then t.mpError i m.tag 1 5
    else
      let sub : Subscription :=
        ⟨beAt m.body 0 4, k.testBit 0, k.testBit 1, k.testBit 2, m.tag, beAt m.body 8 4, 0⟩
      ((t.setSession i (fun o => o.map (fun (y : Session) => { y with sub := some sub }))).reply i 0x83 m.tag []).streamJournal)

/-- UNSUBSCRIBE. -/
def State.mpUnsubscribe (s : State) (i : Nat) (m : MpMsg) : State :=
  s.sized i 6 0 m (fun t =>
    let u := t.setSession i (fun o => o.map (fun (y : Session) => { y with sub := none }))
    ({ u with hif := { u.hif with coalesce := u.hif.coalesce.filter (fun c => decide (c.dest ≠ i)) } }).reply i 0x83 m.tag [])

/-- JOURNAL_READ: records from the oldest held at or after the SEQ named. -/
def State.mpJournal (s : State) (i : Nat) (m : MpMsg) : State :=
  s.sized i 7 8 m (fun t =>
    let n := beAt m.body 4 2
    if n = 0 ∨ 256 < n then t.mpError i m.tag 1 4
    else if beAt m.body 6 2 ≠ 0 then t.mpError i m.tag 1 6
    else
      let l := (t.journal.records.reverse.filter (fun r => decide (beAt m.body 0 4 ≤ r.seq))).take n
      t.reply i 0x84 m.tag (be 4 l.length ++ l.flatMap JRecord.bytes))

/-- STAGE (R340, R384, R480): a transfer as an XFER would make it. -/
def State.mpStage (s : State) (i : Nat) (m : MpMsg) : State :=
  s.message i 8 m (fun t =>
    let r := beAt m.body 0 1
    let dir := beAt m.body 1 1
    let off := beAt m.body 4 8
    let len := beAt m.body 12 4
    if m.body.length < 16 then t.mpError i m.tag 1 4
    else if 2 ≤ dir then t.mpError i m.tag 1 1
    else if beAt m.body 2 2 ≠ 0 then t.mpError i m.tag 1 2
    else if off % 64 ≠ 0 then t.mpError i m.tag 1 4
    else if len % 64 ≠ 0 ∨ len = 0 ∨ 65536 < len then t.mpError i m.tag 1 12
    else if m.body.length ≠ 16 + (if dir = 1 then len else 0) then t.mpError i m.tag 1 4
    else if t.celen.recovery ∧ ¬ (dir = 1 ∧ r = 1) then t.mpError i m.tag 8 8
    else if !(regionOk r off len) then t.mpError i m.tag 9 0x42
    else if t.regionBusy r (dir = 1) then t.mpError i m.tag 6 0
    else if dir = 0 then t.reply i 0x82 m.tag (t.regionRead r off len)
    else
      let u := t.regionWrite r off (m.body.drop 16)
      if r = 1 ∧ u.imageComplete = true then u.beginCheck (.session i m.tag) else u.reply i 0x83 m.tag [])

/-- The check that a STAGE began ends, and its reply leaves (R384, R480). -/
def State.mpStaged (s : State) (flashOk : Bool) : State :=
  match s.fw.checking with
  | some (.session i tag) =>
    let q := s.endCheck (.session i) flashOk
    if q.1 = 0 then q.2.reply i 0x83 tag [] else q.2.mpError i tag 9 q.1
  | _ => s

/-- NET: settings that apply when the session ends. -/
def State.mpNet (s : State) (i : Nat) (m : MpMsg) : State :=
  s.sized i 9 44 m (fun t =>
    if 16 ≤ beAt m.body 0 1 then t.mpError i m.tag 1 0
    else if beAt m.body 3 1 ≠ 0 then t.mpError i m.tag 1 3
    else (t.setSession i (fun o => o.map (fun (y : Session) => { y with net := some m.body }))).reply i 0x83 m.tag [])

/-- Length-prefixed certificates, and what follows them. -/
def certList : Nat → Bytes → Option (List Bytes × Bytes)
  | 0, d => some ([], d)
  | n + 1, d =>
    let k := beAt d 0 2
    if d.length < 2 + k then none
    else (certList n (d.drop (2 + k))).map (fun q => ((d.drop 2).take k :: q.1, q.2))

/-- TRUST: the list applies to sessions opened afterwards and is journalled. -/
def State.mpTrust (s : State) (i : Nat) (m : MpMsg) : State :=
  s.message i 10 m (fun t =>
    if m.body.length < 4 then t.mpError i m.tag 1 4
    else if 8 < beAt m.body 0 1 then t.mpError i m.tag 1 0
    else if beAt m.body 1 3 ≠ 0 then t.mpError i m.tag 1 1
    else match certList (beAt m.body 0 1) (m.body.drop 4) with
      | some (l, []) =>
        (({ t with celen := { t.celen with trust := l } }).journalBlock (Config.settingsKind 1) (.session i) 0xFF 0 0
          (Config.journalBody 3)).reply i 0x83 m.tag []
      | _ => t.mpError i m.tag 1 4)

/-- BYE: the reply, then the session ends. -/
def State.mpBye (s : State) (i : Nat) (m : MpMsg) : State :=
  s.sized i 15 0 m (fun t => (t.reply i 0x83 m.tag []).endSession i 0)

end Sys2Proof.Machine
end

