-- ==== Sys2Proof/Machine/Steps.lean ====
section
/-!
DEFINITION. What several units do together at one happening: the RADIUS_TICK and TSC_STEP entries, the ends of links and optics,
the cartridge's contacts, the end of a public-key job, and the writes that make up a command of several registers.
-/

namespace Sys2Proof.Machine

/-! ### The receipt window closed early (R279, R295) -/

/-- A close of the open window that no RCP_WINDOW firing makes; RCP_CFG has its boundary there too. -/
def State.earlyClose (s : State) (close atNs : Nat) : State := (s.closeWindow close (atNs * 65536)).windowBoundary 23 atNs

/-! ### RADIUS_TICK (R51, R62) -/

/-- What the evaluation of a whole second takes in: the reports of the GNSS sides, the PTP slaves and the Peorel lanes. -/
def State.beforeEvaluation (s : State) (sec : Nat) : State :=
  (((s.gnssReport).slaveEvaluate 0).slaveEvaluate 1).lanesEvaluate sec

/-- What follows a tick in the units that use the timescale: the entry into LOST (R55, R116, R272, R279), the radius of the open
window, the PTP data set, the SyncE outputs, the measurements that closed, the ToD sentence. -/
def State.afterTick (s : State) (was : Nat) (e : CalEntry) : State :=
  let at_ := e.skipAt.getD e.atNs
  let second := (evalSecond e).isSome
  let lost := decide (was ≠ 4) && decide (s.tscMode = 4)
  let t := s.when lost (fun t => (t.when (t.windowCloses at_) (fun u => u.earlyClose 2 at_)).squelchWaves)
  let t := ((t.squelchSynce.squelchEnds.rcpRadius).showRcp).showDataset
  let t := t.when second (fun t => t.ttuRates.ntsSecond)
  let t := (t.esmcTick second).measPost
  t.when (decide (e.atNs % 1000000000 = 500000000) && e.skipAt.isNone) (fun t => t.todOut)

/-- RADIUS_TICK: the entry fires; at a whole second the evaluation runs first. -/
def State.radiusTick (s : State) (m : TickMeas) : State :=
  s.fireDue (fun e => decide (e.action = 0x19)) (fun e t =>
    let u := match evalSecond e with
      | some sec => (t.beforeEvaluation sec).when e.skipAt.isNone State.gnssLatch
      | none => t
    ((u.tick m e).afterTick u.tscMode e).settleFlow.snapKeep)

/-! ### TSC_STEP (R39 to R44) -/

/-- A step of whole ns at its instant: the receipt window closes early, the timescale moves, and every unit that holds instants
of it follows (R40, R90, R208, R229, R424, R495). -/
def State.stepNow (s : State) (atNs : Nat) (amount : Int) (host : Bool) : State :=
  let t := s.when (s.windowCloses atNs) (fun u => u.earlyClose 1 atNs)
  ((((((t.applyStep amount host).gnssStepped amount).ttuStepped t.ts.acc).portsStepped amount).ptpStepped amount).casStepped amount).talStepped

/-- TSC_STEP: the entry fires and the pending step of its target is decided. -/
def State.tscStep (s : State) : State :=
  s.fireDue (fun e => decide (e.action = 0x1F)) (fun e t =>
    let at_ := e.skipAt.getD e.atNs
    if e.target = 0 then
      match t.ts.step with
      | none => t
      | some p =>
        let q := t.stepDecision p
        match q.2 with
        | none => q.1
        | some n => q.1.stepNow at_ n false
    else
      match t.ts.hostStep with
      | none => t
      | some n => ({ t with ts := { t.ts with hostStep := none } }).stepNow at_ n true)

/-! ### References (R60, R72) -/

/-- A loss timer or count of a reference expires. -/
def State.refLossTimeout (s : State) (i : Nat) : State := s.when (s.lossDue i) (fun t => t.lose i)

/-- The quality contact pair has read closed or open for 10 ms (R72). The bound reference's class follows at the evaluation (R62). -/
def State.contactChange (s : State) (closed : Bool) : State := (s.setBit A.refQcontactState 0 closed).showContact

/-! ### The cartridge (R104, R118, R449, R450) -/

/-- An unplanned loss of an active cartridge: the contact opened, or its 10 MHz stopped with the contact closed. -/
def State.cartLoss (s : State) (opened : Bool) : State :=
  if s.cartActive then (if opened then s.handover false true else s.cartFault 0x45) else s

/-- The presence contact has been closed for 100 ms. -/
def State.cartInsert (s : State) : State := if s.cartState = 0 then (s.cartPower).raise A.holEvent 4 else s

/-- The presence contact has been open for 100 ms. -/
def State.cartRemove (s : State) : State :=
  if s.cartState = 0 then s
  else
    let t := s.when s.cartActive (fun t => t.handover false true)
    let t := (((t.setPd2 false).setCart 0 none).cartUnpowered).wr A.holCartId 0
    ((t.setHol (fun h => { h with releasing := false, pd2OffAt := none })).inc A.holSwapCount).raise A.holEvent 6

/-- Identity and model block are read within the 2 s of POWERING. -/
def State.cartRead (s : State) (code rev serial : Nat) (b : Bytes) : State :=
  if s.cartState = 1 then s.cartIdentify code rev serial b else s

/-- The state's timer has expired in state `st`: FAULT with a reason. -/
def State.cartTimeout (s : State) (st reason : Nat) : State :=
  if s.cartState = st ∧ s.cartTimerDue = true then s.cartFault reason else s

/-- A poll of STATUS: FAULT, and in WARMING the lock that ends it. -/
def State.cartStatus (s : State) (lock fault : Bool) : State :=
  if s.cartPowered = false then s
  else if fault then s.cartFault 0x44
  else if lock ∧ s.cartState = 2 then s.setCart 3 (some (s.f A.holCartMeas 0 17))
  else s

/-- CART_MEAS has elapsed with the checks passed. -/
def State.cartMeasured (s : State) : State :=
  if s.cartState = 3 ∧ s.cartTimerDue = true then (s.setCart 4 none).raise A.holEvent 5 else s

/-- More than 2.0 A for 10 ms. -/
def State.cartOvercurrent (s : State) : State := s.when s.cartPowered (fun t => t.cartFault 0x46)

/-- PD2 goes off 100 ms after the model block was written. -/
def State.cartPd2Off (s : State) : State :=
  match s.hol.pd2OffAt with
  | some m => if m ≤ s.ts.meas then s.cartReleased else s
  | none => s

/-- MODEL_SAMPLE at a multiple of 1,000 s. -/
def State.modelSampleAt (s : State) : State := if s.nowNs / 1000000000 % 1000 = 0 then s.modelSample else s

/-- The daily copy of the models to flash, and of the cartridge's to its model block (R109). -/
def State.modelFlash (s : State) : State := (s.flashModels).when s.cartPowered (fun t => t.writeModelBlock)

/-- A second of keep-alive mode or of thermal hold (R123, R464). -/
def State.kaSecond (s : State) (tempKeeper : Int) (tempCart : Option Int) : State :=
  if s.hol.keepAlive || (decide (s.f A.bootStatus 4 2 = 2) && decide (s.f A.bootStatus 8 8 = 0xB)) then s.kaTick tempKeeper tempCart else s

/-! ### GNSS -/

/-- A survey completes, and the positions of the stored configuration follow (R145, R469). -/
def State.surveyEnds (s : State) (a : Nat) : State :=
  let t := s.surveyComplete a
  if (s.side a).survey.isSome ∧ (t.side a).survey.isNone then t.storePositions else t

/-! ### Links and optics (R185, R186, R490) -/

/-- A link or lane has met its lock conditions for 10 ms: links 0 to 7 are the service links, 8 to 15 the Peorel lanes. -/
def State.anyUp (s : State) (l rxDyn txDyn : Nat) : State :=
  if l < 8 then s.portUp l rxDyn txDyn else s.laneComesUp (l - 8) rxDyn txDyn

/-- A lock that a link or lane needs to stay UP (R184, R185, R403): block lock; alignment-marker lock on 100G only; FEC alignment lock
where FEC is on, as it always is on 100G and on a lane. -/
def State.needsLock (s : State) (l : Nat) (k : LineLock) : Bool :=
  let wide := decide (l < 8) && decide (s.macMode (l / 4) = 1)
  match k with
  | .block => true
  | .marker => wide
  | .fec => wide || decide (8 ≤ l) || s.bit (A.macPortCfg (l / 4)) (6 + l % 4)

/-- A link or lane loses a lock: one that needs it goes DOWN (R185). -/
def State.anyDown (s : State) (l : Nat) (k : LineLock) : State :=
  s.when (s.needsLock l k) (fun t => if l < 8 then (t.portDown l).settleFlow else t.laneDown (l - 8))

/-- FINALISE, COMMIT_POINT and SLOT_START of a link or a lane (R209, R210, R403). -/
def State.anyFinalise (s : State) (l : Nat) : State := if l < 8 then s.finalise l else s.finaliseLink (l - 8)
def State.anyCommit (s : State) (l : Nat) : State := if l < 8 then s.commitSlot l else s.commitLink (l - 8)
def State.anyStart (s : State) (l : Nat) : State := if l < 8 then s.slotStart l else s.startLink (l - 8)

/-- An optic is inserted: cages 0 and 1 of the service links, 2 and 3 of the Peorel lanes. -/
def State.opticIn (s : State) (c : Nat) (responded : Bool) (ident pclass : Nat) : State :=
  if c < 2 then s.cageInsert c responded ident pclass else s.laneCageInsert (c - 2) responded ident pclass

/-- An optic is removed: its links go DOWN first. -/
def State.opticOut (s : State) (c : Nat) : State :=
  if c < 2 then ((s.each (linksOf c) (fun sl t => t.portDown sl)).cageRemove c).settleFlow else s.laneCageRemove (c - 2)

/-- The loop's phase error from the LINK pair that a lane has just completed, while the Peorel reference is selected (R74, R416):
θ_L with the reference's DELAY, in ps. -/
def State.pairPhase (s : State) (l : Nat) : State :=
  match (s.lane l).pairs with
  | [] => s
  | p :: _ =>
    if s.sel = 12 ∧ s.phaseSel = true ∧ s.upLane = some l then
      s.setPhi (qdiv (p.2.1 * 1000 + s.laneAsym l * 65536) (2 * 65536) + s.sf (A.refInDelay 12) 0 32)
    else s

/-- LINK_FRAME_RX (R407), and the loop's measurement where it completes a pair (R74). -/
def State.linkIn (s : State) (l : Nat) (frame : Bytes) (ago fecUncorr : Nat) : State :=
  let t := s.laneLink l frame ago fecUncorr
  t.when (decide ((t.lane l).pairs ≠ (s.lane l).pairs)) (fun u => u.pairPhase l)

/-! ### Buckets (R223) -/

/-- The move of a bucket is over: its old pipeline has no request of it, or 4 µs have passed. -/
def State.bucketMoved (s : State) (b : Nat) : State :=
  s.when (s.hrc.moves.any (fun m => decide (m.bucket = b) && s.moveOver m)) (fun t => t.endMove b)

/-! ### Public keys (R309, R316) -/

/-- The end of a job on core `c`: an online-key signature goes to its window, a read-back that was not zero fences the core
(R309), and the long-term key may have become usable (R290). -/
def State.jobCompletes (s : State) (c : Nat) (wiped : Bool) : State :=
  match s.completeJob c wiped with
  | (none, t) => t
  | (some (j, st, out), t) =>
    let t := t.sealSignature j st out
    let t := t.when (opFills (jOp j.rec_)) (fun t => t.firstKey)
    if wiped then t
    else ((t.raise A.pkeEvent 2).logFault 8 .module 19 (A.pkeCoreStatus c) c 0 (jOp j.rec_)).fenceUnit .module 3 c 3 false

/-- A KEY_WIPE, which may take the long-term key. -/
def State.wipeKey (s : State) : State := (s.keyWipe).showLt

/-! ### The journal in flash (R389) -/

/-- The records that wait are written to the 16 MiB of flash; records overwritten there before delivery are lost. -/
def State.journalFlash (s : State) : State :=
  let all := s.journal.toFlash ++ s.journal.flash
  let kept := keepWithin (16 * 2 ^ 20) all 0
  let lost := (all.drop kept.length).filter (fun x => decide (s.journal.nextRing ≤ x.seq))
  let t := { s with journal := { s.journal with flash := kept, toFlash := [] } }
  if lost.length = 0 then t else (t.count A.glbJournalLost lost.length).raise A.glbEvent 4

/-! ### Cascade -/

/-- SERVICE_RESET, and the boundaries of the windows it closes (R295, R425, R496). -/
def State.serviceResetAt (s : State) : State :=
  match s.nextOp with
  | none => s
  | some o =>
    match s.opEntry o with
    | none => s
    | some (_, e) =>
      let at_ := e.skipAt.getD e.atNs
      let t := s.serviceReset
      if o.op ≠ 4 then t
      else
        let t := t.when (s.windowCloses at_) (fun u => u.windowBoundary 23 at_)
        t.when (s.talOn && decide (s.tal.openNs ≠ at_)) (fun u => u.windowBoundary 29 at_)

/-! ### Self-tests (R396, R463) -/

/-- The self-test of a returning unit ends, or one of the tests that follow the switch-on of a domain. -/
def State.unitTested (s : State) (kind i : Nat) (pass : Bool) : State :=
  if s.testing = some (kind, i) then s.selftestDone pass
  else if pass then s else s.domainTestFailed kind i

/-! ### Open pairs -/

/-- An open pair of a source has run out (R365): it is discarded. -/
def State.guardTimeout (s : State) (src : Source) : State :=
  match (s.view src).pair with
  | none => s
  | some p => if p.expired s.ts.meas then (s.closePair src).guardFault src p.addr p.value.toNat 4 else s

end Sys2Proof.Machine
end

