-- ==== Sys2Proof/Machine/Firing.lean ====
section
/-!
DEFINITION. The order of firings: entries due together fire by scheduled instant, class and index (R27, R43), and before a register
write that comes at their instant (R30). The commands that are register writes.
-/

namespace Sys2Proof.Machine

/-- What the sensors show now, for a RADIUS_TICK entry that fires ahead of another entry or of a write. -/
def State.quietMeas (s : State) : TickMeas :=
  let temp : Nat → Option Int := fun a => if s.rd a = 0x80000000 then none else some (s.sf a 0 32)
  ⟨none, none, temp A.holCartDiff, s.oscTemp false, temp A.holTempCart, s.bit A.holStatus 7⟩

/-- The operation that executes next at its T (R421 to R425). -/
def State.casFire (s : State) : State :=
  match s.nextOp with
  | none => s
  | some o =>
    match o.op with
    | 1 => s.barrier
    | 2 => s.broadcast
    | 3 => s.casSnapshot
    | _ => s.serviceResetAt

/-- A due entry fires with the action of its code (R25). -/
def State.fireAction (s : State) (e : CalEntry) : State :=
  match e.action with
  | 0x01 => s.fireHostEvent
  | 0x10 => s.sluApply
  | 0x11 => s.outEdge e.target
  | 0x12 => s.ptpSync
  | 0x13 => s.rcpWindow
  | 0x14 => s.talWindow
  | 0x15 => s.ntsEpoch
  | 0x16 => s.fireLeap
  | 0x17 => if e.arg % 256 = 0 then s.linkTick else s.casFire
  | 0x18 => s.dbPoll
  | 0x19 => s.radiusTick s.quietMeas
  | 0x1F => s.tscStep
  | _ => s

/-- The entry with an index still stands as it did and is due. -/
def State.standsDue (s : State) (x : Nat × CalEntry) : Bool :=
  s.ts.calendar.any (fun e => decide (e.1 = x.1) && decide (e.2.action = x.2.action) && decide (e.2.atNs = x.2.atNs) &&
    e.2.due s.nowNs)

/-- Entries fire one after the other, those that still stand. -/
def State.fireEach (s : State) (l : List (Nat × CalEntry)) : State :=
  s.each l (fun x t => t.when (t.standsDue x) (fun u => u.fireAction x.2))

/-- Every entry that is due fires, in order (R27): what acts at an instant before a register write that comes then (R30). -/
def State.dueFirst (s : State) : State := s.fireEach s.dueEntries

/-- The entries that are due before the first one of a kind fire ahead of it (R27, R43). -/
def State.inOrder (s : State) (p : CalEntry → Bool) : State :=
  match s.dueEntries.find? (fun e => p e.2) with
  | none => s
  | some x => s.fireEach (s.dueEntries.takeWhile (fun e => firesBefore e x))

/-- The entries of an action. -/
def ofAction (action : Nat) (e : CalEntry) : Bool := decide (e.action = action)

/-- The operations of a cascade: the CAS_OP entries but the periodic one. -/
def isCasOp (e : CalEntry) : Bool := decide (e.action = 0x17) && decide (e.arg % 256 ≠ 0)

/-! ### Timers of references (R62, R75 to R77, R96) -/

/-- A timer of a reference is over: TIMER shows 0. The decision is the evaluation's (R62), the one nearest to the timer's end, and runs
here where that evaluation is due. -/
def State.refTimerOver (s : State) (i : Nat) : State := s.dueFirst.showTimer i

/-- The one evaluation interval of PREPARE is over (R96): the evaluation that ends it runs where it is due. -/
def State.prepareOver (s : State) : State := s.dueFirst

/-! ### Commands of several writes -/

/-- A full-width write of a source (R30, R353). -/
def State.writeCmd (s : State) (src a : Nat) (v : Word) : State := s.dueFirst.writeWord (srcOf src) a v

/-- A guarded command: its value and the complement that follows it (R365). -/
def State.guardedCmd (s : State) (src x : Nat) (v c : Word) : State := s.dueFirst.guardPair (srcOf src) x v c

/-- A group's command word and operand words are staged, the field of its operation set, and the group is committed (R369, R371). -/
def State.groupCommand (s : State) (src g x lo n op : Nat) (w : Word) (l : List (Nat × Word)) (v : Word) : State :=
  let t := s.dueFirst.writeWords (srcOf src) (l.filter (fun e => decide (groupOf e.1 = some g) && decide (e.1 ≠ x)))
  (t.writeWord (srcOf src) x (putFld w lo n op)).writeWord (srcOf src) (A.sluGroupCommit g) (putFld v 0 2 1)


end Sys2Proof.Machine
end

