-- ==== Sys2Proof/Machine/CmdAntennas.lean ====
section
/-!
DEFINITION. The meanings of the commands: the GNSS sides.
-/

namespace Sys2Proof.Machine

/-- KA_GNSS_WAKE (R153). Every KA_GNSS minutes a GNSS side wakes to refresh ephemeris and almanac. -/
def execKaGnssWake (dt : Nat) (s : State) : Host.Outcome State Fault Refusal :=
  after dt s (fun t => t.kaWake)

/-- KA_WAKE_END (R153). A keep-alive wake ends on current ephemerides or after 120 s and the hot-start record is written. -/
def execKaWakeEnd (dt : Nat) (sky : List SkyObs) (s : State) : Host.Outcome State Fault Refusal :=
  after dt s (fun t => t.kaWakeEnd sky)

/-- GNSS_SOLUTION_DONE (R139). A side completes the timing solution of an epoch and runs its consistency checks. -/
def execGnssSolutionDone (dt : Nat) (side : Nat) (sol : GnssSolution) (s : State) : Host.Outcome State Fault Refusal :=
  afterIf (decide (side < 2)) dt s (fun t => t.solutionDone side sol)

/-- GNSS_ALARM_CLEAR (R150). An alarm ends after its trip condition is absent for ALARM_CLEAR. -/
def execGnssAlarmClear (dt : Nat) (side check : Nat) (s : State) : Host.Outcome State Fault Refusal :=
  afterIf (decide (side < 2)) dt s (fun t => t.alarmClear side check)

/-- GNSS_EXCL_END (R149). An exclusion ends after XCL_HOLD. -/
def execGnssExclEnd (dt : Nat) (side : Nat) (constellation : Bool) (key check : Nat)
    (s : State) : Host.Outcome State Fault Refusal :=
  afterIf (decide (side < 2)) dt s (fun t => t.exclEnd side constellation key check)

/-- CHANNEL_LOSS_OF_LOCK (R133). A channel's C/N0 stays below threshold for 2 s and it loses lock. -/
def execChannelLossOfLock (dt : Nat) (side chan : Nat) (s : State) : Host.Outcome State Fault Refusal :=
  afterIf (decide (side < 2) && decide (chan < 160)) dt s (fun t => t.lossOfLock side chan)

/-- SIGNAL_ACQUIRED (R133). A GNSS channel finds its signal above the acquisition threshold, pulls in and reaches tracking or bit
synchronisation, or re-acquires after an outage. -/
def execSignalAcquired (dt : Nat) (side chan cn0 state : Nat) (s : State) : Host.Outcome State Fault Refusal :=
  afterIf (decide (side < 2) && decide (chan < 160)) dt s (fun t => t.signalAcquired side chan cn0 state)

/-- NAV_RECORD (R136). A decoded navigation message is written as a record to its ring or dropped. -/
def execNavRecord (dt : Nat) (side : Nat) (msg : NavMessage) (s : State) : Host.Outcome State Fault Refusal :=
  afterIf (decide (side < 2)) dt s (fun t => t.navMessage side msg)

/-- HOTSTART_WRITE (R135). Every 30 min while a side reports T_SINGLE or T_DUAL the hot-start record is written to flash. -/
def execHotstartWrite (dt : Nat) (s : State) : Host.Outcome State Fault Refusal :=
  after dt s (fun t => t.hotStartDue)

/-- SURVEY_START (R145). GNS_CMD SURVEY_START starts a survey on the named side. -/
def execSurveyStart (dt : Nat) (src : Nat) (cmd : Word) (words : List (Nat × Word)) (commit : Word)
    (s : State) : Host.Outcome State Fault Refusal :=
  afterIf (decide (src < 5)) dt s (fun t => t.groupCommand src 7 A.gnsCmd 0 4 1 cmd words commit)

/-- SURVEY_ABORT (R145). GNS_CMD SURVEY_ABORT ends a running survey with ABORTED. -/
def execSurveyAbort (dt : Nat) (src : Nat) (cmd : Word) (words : List (Nat × Word)) (commit : Word)
    (s : State) : Host.Outcome State Fault Refusal :=
  afterIf (decide (src < 5)) dt s (fun t => t.groupCommand src 7 A.gnsCmd 0 4 2 cmd words commit)

/-- SURVEY_PROGRESS (R146). Every 60 s a running survey writes its progress record and partial result. -/
def execSurveyProgress (dt : Nat) (side : Nat) (s : State) : Host.Outcome State Fault Refusal :=
  afterIf (decide (side < 2)) dt s (fun t => t.surveyReport side)

/-- SURVEY_COMPLETE (R145). A survey meeting time and accuracy puts its mean in force at the next whole second. -/
def execSurveyComplete (dt : Nat) (side : Nat) (s : State) : Host.Outcome State Fault Refusal :=
  afterIf (decide (side < 2)) dt s (fun t => t.surveyEnds side)

/-- SURVEY_TIMEOUT (R145). A survey incomplete at SURVEY_MAX ends with SURVEY_TIMEOUT. -/
def execSurveyTimeout (dt : Nat) (side : Nat) (s : State) : Host.Outcome State Fault Refusal :=
  afterIf (decide (side < 2)) dt s (fun t => t.surveyTimeout side)

/-- POS_FIX (R147). GNS_CMD POS_FIX puts a fixed position in force on the side. -/
def execPosFix (dt : Nat) (src : Nat) (cmd : Word) (words : List (Nat × Word)) (commit : Word)
    (s : State) : Host.Outcome State Fault Refusal :=
  afterIf (decide (src < 5)) dt s (fun t => t.groupCommand src 7 A.gnsCmd 0 4 3 cmd words commit)

/-- POS_CLEAR (R147). GNS_CMD POS_CLEAR removes the position in force. -/
def execPosClear (dt : Nat) (src : Nat) (cmd : Word) (words : List (Nat × Word)) (commit : Word)
    (s : State) : Host.Outcome State Fault Refusal :=
  afterIf (decide (src < 5)) dt s (fun t => t.groupCommand src 7 A.gnsCmd 0 4 4 cmd words commit)

/-- SNAP_ARM (R154). GNS_CMD SNAP_ARM arms a snapshot capture with an AT or event trigger. -/
def execSnapArm (dt : Nat) (src : Nat) (cmd : Word) (words : List (Nat × Word)) (commit : Word)
    (s : State) : Host.Outcome State Fault Refusal :=
  afterIf (decide (src < 5)) dt s (fun t => t.groupCommand src 7 A.gnsCmd 0 4 5 cmd words commit)

/-- SNAP_ABORT (R154). GNS_CMD SNAP_ABORT ends a capture keeping samples with an abort header. -/
def execSnapAbort (dt : Nat) (src : Nat) (cmd : Word) (words : List (Nat × Word)) (commit : Word)
    (s : State) : Host.Outcome State Fault Refusal :=
  afterIf (decide (src < 5)) dt s (fun t => t.groupCommand src 7 A.gnsCmd 0 4 6 cmd words commit)

/-- SNAP_TRIGGER (R154). The AT instant or first qualifying alarm or jam event starts or fixes the end of the capture. -/
def execSnapTrigger (dt : Nat) (s : State) : Host.Outcome State Fault Refusal :=
  after dt s (fun t => t.snapTrigger)

/-- SNAP_CAPTURE_END (R154). A capture reaches its length and the snapshot is DONE. -/
def execSnapCaptureEnd (dt : Nat) (s : State) : Host.Outcome State Fault Refusal :=
  after dt s (fun t => t.snapCaptureEnd)

/-- REPLAY_START (R156). GNS_CMD REPLAY_START feeds a side's baseband from the snapshot. -/
def execReplayStart (dt : Nat) (src : Nat) (cmd : Word) (words : List (Nat × Word)) (commit : Word)
    (s : State) : Host.Outcome State Fault Refusal :=
  afterIf (decide (src < 5)) dt s (fun t => t.groupCommand src 7 A.gnsCmd 0 4 7 cmd words commit)

/-- REPLAY_STOP (R156). GNS_CMD REPLAY_STOP ends replay and the side restarts from live signals. -/
def execReplayStop (dt : Nat) (src : Nat) (cmd : Word) (words : List (Nat × Word)) (commit : Word)
    (s : State) : Host.Outcome State Fault Refusal :=
  afterIf (decide (src < 5)) dt s (fun t => t.groupCommand src 7 A.gnsCmd 0 4 8 cmd words commit)

/-- REPLAY_END (R156). Replay reaches the end of the snapshot and the side restarts live. -/
def execReplayEnd (dt : Nat) (side : Nat) (s : State) : Host.Outcome State Fault Refusal :=
  afterIf (decide (side < 2)) dt s (fun t => t.replayDue side)

/-- CLEAR_EXCL (R149). GNS_CMD CLEAR_EXCL ends exclusions on both sides. -/
def execClearExcl (dt : Nat) (src : Nat) (cmd : Word) (words : List (Nat × Word)) (commit : Word)
    (s : State) : Host.Outcome State Fault Refusal :=
  afterIf (decide (src < 5)) dt s (fun t => t.groupCommand src 7 A.gnsCmd 0 4 9 cmd words commit)

/-- THETA_LO_READ (R158). A full-width read of SIDEa.THETA_LO latches that side's solution words. -/
def execThetaLoRead (dt : Nat) (src side : Nat) (s : State) : Host.Outcome State Fault Refusal :=
  afterIf (decide (src < 5) && decide (side < 2)) dt s (fun t => t.busRead (srcOf src) (A.gnsSideThetaLo side) [15])

/-- RFI_SPECTRUM (R151). Every 100 ms a spectrum places or releases notches and tests for jamming. -/
def execRfiSpectrum (dt : Nat) (side band : Nat) (obs : RfiObs) (s : State) : Host.Outcome State Fault Refusal :=
  afterIf (decide (side < 2) && decide (band < 2)) dt s (fun t => t.spectrum side band obs)

/-- BIAS_SHORT (R152). Antenna bias current above 90 mA switches bias off and raises BIAS_FAULT. -/
def execBiasShort (dt : Nat) (side ma : Nat) (s : State) : Host.Outcome State Fault Refusal :=
  afterIf (decide (side < 2)) dt s (fun t => t.biasShort side ma)

/-- BIAS_RETRY (R152). Every 10 s a shorted bias is retried. -/
def execBiasRetry (dt : Nat) (side ma : Nat) (s : State) : Host.Outcome State Fault Refusal :=
  afterIf (decide (side < 2)) dt s (fun t => t.biasRetry side ma)

/-- GNSS_FW_LOAD (R488). A side loads its slot firmware, falling back to the kept copy if the start check fails. -/
def execGnssFwLoad (dt : Nat) (side : Nat) (startOk : Bool) (s : State) : Host.Outcome State Fault Refusal :=
  afterIf (decide (side < 2)) dt s (fun t => t.gnssLoad side startOk)

end Sys2Proof.Machine
end

