-- ==== Sys2Proof/Machine/CmdHostQueues.lean ====
section
/-!
DEFINITION. The meanings of the commands: the host interface.
-/

namespace Sys2Proof.Machine

/-- KICK (R329). A write to BAR2 triggers a doorbell read within 200 ns. -/
def execKick (dt : Nat) (s : State) : Host.Outcome State Fault Refusal :=
  after dt s (fun t => t.dueFirst.kick)

/-- DOORBELL_READ_DONE (R328). A doorbell read completes or fails and rings fetch newly announced descriptors. -/
def execDoorbellReadDone (dt : Nat) (words : Option (List DoorbellWord)) (s : State) : Host.Outcome State Fault Refusal :=
  after dt s (fun t => t.doorbellDone words)

/-- HOST_FRAME_TX (R336). A TX_FRAME descriptor is checked and its frame sent on the preemptable MAC. -/
def execHostFrameTx (dt : Nat) (ring : Nat) (data : Option Bytes) (s : State) : Host.Outcome State Fault Refusal :=
  afterIf (decide (ring < 256)) dt s (fun t => t.hostFrame ring data)

/-- HOST_FRAME_TIMEOUT (R336). A host frame not started within 100 ms of fetch completes with TX_TIMEOUT. -/
def execHostFrameTimeout (dt : Nat) (s : State) : Host.Outcome State Fault Refusal :=
  after dt s (fun t => t.hostFrameTimeout)

/-- RECORD_FLUSH (R338). An RX_RECORD buffer completes when FLUSH has passed since its first record. -/
def execRecordFlush (dt : Nat) (ring : Nat) (s : State) : Host.Outcome State Fault Refusal :=
  afterIf (decide (ring < 256)) dt s (fun t => t.recordFlush ring)

/-- XFER (R340). An XFER descriptor copies a span between host memory and a module region. -/
def execXfer (dt : Nat) (ring : Nat) (data : Bytes) (readOk : Bool) (checked : Option Bool)
    (s : State) : Host.Outcome State Fault Refusal :=
  afterIf (decide (ring < 256)) dt s
    (fun t => (match checked with | none => t.xfer ring data readOk | some flashOk => t.xferChecked flashOk))

/-- VECTOR_TIMER (R343). A vector's TIME elapses since its first pending item and its MSI-X message is sent. -/
def execVectorTimer (dt : Nat) (vector : Nat) (s : State) : Host.Outcome State Fault Refusal :=
  afterIf (decide (vector < 64)) dt s (fun t => t.vectorTimer vector)

/-- BLOCK_EVENT_COALESCE (R342). At the end of 100 µs after a BLOCK_EVENT record, bits set meanwhile are reported in one record. -/
def execBlockEventCoalesce (dt : Nat) (s : State) : Host.Outcome State Fault Refusal :=
  after dt s (fun t => t.coalesceEnd)

/-- RING_QUIESCED (R346). A quiescing ring's last completion is posted and it enters OFF. -/
def execRingQuiesced (dt : Nat) (ring : Nat) (s : State) : Host.Outcome State Fault Refusal :=
  afterIf (decide (ring < 256)) dt s (fun t => t.ringQuiesced ring)

/-- HOST_DETACH (R347). A link down, reset, FLR, PERST# or D3hot stops all rings and host work and is journalled. -/
def execHostDetach (dt : Nat) (cause : Nat) (s : State) : Host.Outcome State Fault Refusal :=
  afterIf (decide (cause < 5)) dt s (fun t => t.hostDetach cause)

/-- PCIE_LINK_UP (R325). The PCIe link reaches L0 and presents the function. -/
def execPcieLinkUp (dt : Nat) (speed width : Nat) (s : State) : Host.Outcome State Fault Refusal :=
  after dt s (fun t => t.pcieUp speed width)

/-- PCIE_RETRAIN (R325). Every 10 s without L0 the module retries link training. -/
def execPcieRetrain (dt : Nat) (s : State) : Host.Outcome State Fault Refusal :=
  after dt s (fun t => t.pcieRetrain)

/-- JOURNAL_FLASH_WRITE (R389). Persistent journal record kinds are written to the flash journal within 1 s. -/
def execJournalFlashWrite (dt : Nat) (s : State) : Host.Outcome State Fault Refusal :=
  after dt s (fun t => t.journalFlash)

end Sys2Proof.Machine
end

