-- ==== Sys2Proof/Machine/CmdKeyJobs.lean ====
section
/-!
DEFINITION. The meanings of the commands: the public-key engine, the TRNG and the replicated units.
-/

namespace Sys2Proof.Machine

/-- ED25519_SIGN (R302). A PKE job signs a message with Ed25519. -/
def execEd25519Sign (dt : Nat) (core : Nat) (s : State) : Host.Outcome State Fault Refusal :=
  afterIf (decide (core < 16)) dt s (fun t => t.runOp 0x01 core)

/-- ED25519_VERIFY (R304). A PKE job verifies an Ed25519 signature. -/
def execEd25519Verify (dt : Nat) (core : Nat) (s : State) : Host.Outcome State Fault Refusal :=
  afterIf (decide (core < 16)) dt s (fun t => t.runOp 0x02 core)

/-- ED448_SIGN (R302). A PKE job signs a message with Ed448 and context. -/
def execEd448Sign (dt : Nat) (core : Nat) (s : State) : Host.Outcome State Fault Refusal :=
  afterIf (decide (core < 16)) dt s (fun t => t.runOp 0x03 core)

/-- ED448_VERIFY (R304). A PKE job verifies an Ed448 signature. -/
def execEd448Verify (dt : Nat) (core : Nat) (s : State) : Host.Outcome State Fault Refusal :=
  afterIf (decide (core < 16)) dt s (fun t => t.runOp 0x04 core)

/-- X25519 (R301). A PKE job computes an X25519 shared secret. -/
def execX25519 (dt : Nat) (core : Nat) (s : State) : Host.Outcome State Fault Refusal :=
  afterIf (decide (core < 16)) dt s (fun t => t.runOp 0x05 core)

/-- X448 (R301). A PKE job computes an X448 shared secret. -/
def execX448 (dt : Nat) (core : Nat) (s : State) : Host.Outcome State Fault Refusal :=
  afterIf (decide (core < 16)) dt s (fun t => t.runOp 0x06 core)

/-- ECDSA_SIGN (R297). A PKE job signs a digest with ECDSA using a hedged nonce. -/
def execEcdsaSign (dt : Nat) (core : Nat) (s : State) : Host.Outcome State Fault Refusal :=
  afterIf (decide (core < 16)) dt s (fun t => t.runOp 0x07 core)

/-- ECDSA_VERIFY (R301). A PKE job verifies an ECDSA signature. -/
def execEcdsaVerify (dt : Nat) (core : Nat) (s : State) : Host.Outcome State Fault Refusal :=
  afterIf (decide (core < 16)) dt s (fun t => t.runOp 0x08 core)

/-- ECDH (R301). A PKE job computes an ECDH shared x-coordinate. -/
def execEcdh (dt : Nat) (core : Nat) (s : State) : Host.Outcome State Fault Refusal :=
  afterIf (decide (core < 16)) dt s (fun t => t.runOp 0x09 core)

/-- RSA_PRIVATE (R304). A PKE job performs an RSA private operation with CRT and fault check. -/
def execRsaPrivate (dt : Nat) (core : Nat) (s : State) : Host.Outcome State Fault Refusal :=
  afterIf (decide (core < 16)) dt s (fun t => t.runOp 0x0A core)

/-- RSA_PUBLIC (R302). A PKE job performs an RSA public operation. -/
def execRsaPublic (dt : Nat) (core : Nat) (s : State) : Host.Outcome State Fault Refusal :=
  afterIf (decide (core < 16)) dt s (fun t => t.runOp 0x0B core)

/-- KEYGEN (R313). A PKE job generates a key into a key store slot. -/
def execKeygen (dt : Nat) (core : Nat) (s : State) : Host.Outcome State Fault Refusal :=
  afterIf (decide (core < 16)) dt s (fun t => t.runOp 0x10 core)

/-- KEY_IMPORT (R316). A PKE job validates and loads a key into a slot. -/
def execKeyImport (dt : Nat) (core : Nat) (s : State) : Host.Outcome State Fault Refusal :=
  afterIf (decide (core < 16)) dt s (fun t => t.runOp 0x11 core)

/-- KEY_WIPE (R316). A PKE job empties a slot and overwrites its flash copy. -/
def execKeyWipe (dt : Nat) (s : State) : Host.Outcome State Fault Refusal :=
  after dt s (fun t => t.wipeKey)

/-- KEY_PUBLIC (R316). A PKE job reads a slot's public key. -/
def execKeyPublic (dt : Nat) (s : State) : Host.Outcome State Fault Refusal :=
  after dt s (fun t => t.keyPublic)

/-- PKE_DISPATCH (R305). A queued job is dispatched to a free core in priority order. -/
def execPkeDispatch (dt : Nat) (core : Nat) (s : State) : Host.Outcome State Fault Refusal :=
  afterIf (decide (core < 16)) dt s (fun t => t.dispatch core)

/-- PKE_YIELD (R307). At a boundary a short job saves its state and yields to a higher-ranked queued job. -/
def execPkeYield (dt : Nat) (core : Nat) (s : State) : Host.Outcome State Fault Refusal :=
  afterIf (decide (core < 16)) dt s (fun t => t.yieldJob core)

/-- PKE_JOB_AGED (R308). A job waiting more than AGE_MS becomes aged and moves ahead of its priority. -/
def execPkeJobAged (dt : Nat) (s : State) : Host.Outcome State Fault Refusal :=
  after dt s (fun t => t.ageJobs)

/-- PKE_JOB_COMPLETE (R309). A job reaches its completion point, wipes its core, writes output and posts its completion. -/
def execPkeJobComplete (dt : Nat) (core : Nat) (wiped : Bool) (s : State) : Host.Outcome State Fault Refusal :=
  afterIf (decide (core < 16)) dt s (fun t => t.jobCompletes core wiped)

/-- PKE_ABORT (R310). A guarded PKE.ABORT aborts every job carrying the named tag. -/
def execPkeAbort (dt : Nat) (src : Nat) (tag complement : Word) (s : State) : Host.Outcome State Fault Refusal :=
  afterIf (decide (src < 5)) dt s (fun t => t.guardedCmd src A.pkeAbort tag complement)

/-- KEYGEN_PROGRESS (R314). Every 100 ms and at each phase change an RSA KEYGEN writes its progress record. -/
def execKeygenProgress (dt : Nat) (core phase tested : Nat) (s : State) : Host.Outcome State Fault Refusal :=
  afterIf (decide (core < 16)) dt s (fun t => t.keygenProgress core phase tested)

/-- DRBG_RESEED (R318). Every 1 ms the TRNG's DRBG is reseeded from full-entropy output. -/
def execDrbgReseed (dt : Nat) (s : State) : Host.Outcome State Fault Refusal :=
  after dt s (fun t => t.countSeeds)

/-- TRNG_SOURCE_FAIL (R319). A noise source fails a health test and becomes FAILED. -/
def execTrngSourceFail (dt : Nat) (source : Nat) (repetition : Bool) (s : State) : Host.Outcome State Fault Refusal :=
  afterIf (decide (source < 8)) dt s (fun t => t.sourceFail source repetition)

/-- TRNG_SOURCE_RETEST (R319). One second after failing a source repeats its start-up test. -/
def execTrngSourceRetest (dt : Nat) (source : Nat) (pass : Bool) (s : State) : Host.Outcome State Fault Refusal :=
  afterIf (decide (source < 8)) dt s (fun t => t.sourceRetest source pass)

/-- FENCE (R396). A guarded FENCE_CMD FENCE fences the named unit. -/
def execFence (dt : Nat) (src kind unit : Nat) (complement : Word) (s : State) : Host.Outcome State Fault Refusal :=
  afterIf (decide (src < 5)) dt s
    (fun t => t.guardedCmd src A.glbFenceCmd (word (1 + kind % 16 * 16 + unit % 32 * 256)) complement)

/-- RETURN (R396). A guarded FENCE_CMD RETURN starts the named fenced unit's self-test. -/
def execReturnUnit (dt : Nat) (src kind unit : Nat) (complement : Word) (s : State) : Host.Outcome State Fault Refusal :=
  afterIf (decide (src < 5)) dt s
    (fun t => t.guardedCmd src A.glbFenceCmd (word (2 + kind % 16 * 16 + unit % 32 * 256)) complement)

/-- UNIT_SELFTEST_DONE (R396). A returning unit's self-test ends and it returns to service or stays fenced. -/
def execUnitSelftestDone (dt : Nat) (kind unit : Nat) (pass : Bool) (s : State) : Host.Outcome State Fault Refusal :=
  after dt s (fun t => t.unitTested kind unit pass)

end Sys2Proof.Machine
end

