-- ==== Sys2Proof/Machine/CmdLanes.lean ====
section
/-!
DEFINITION. The meanings of the commands: the cascade and the tallies.
-/

namespace Sys2Proof.Machine

/-- CAS_LINK_TICK (R408). At each of 64 ticks per second a LINK frame is booked per UP lane and the position chosen. -/
def execCasLinkTick (dt : Nat) (s : State) : Host.Outcome State Fault Refusal :=
  after dt s (fun t => (t.inOrder (fun e => decide (e.action = 0x17) && decide (e.arg % 256 = 0))).linkTick)

/-- LINK_FRAME_RX (R407). A received LINK frame updates the lane's offer, roles, subtree values and transfer pairs. -/
def execLinkFrameRx (dt : Nat) (lane : Nat) (frame : Bytes) (ago fecUncorr : Nat)
    (s : State) : Host.Outcome State Fault Refusal :=
  afterIf (decide (lane < 8)) dt s (fun t => t.linkIn lane frame ago fecUncorr)

/-- OP_REQ_RX (R422). An OP_REQ is forwarded upstream or issued or refused at the ridge. -/
def execOpReqRx (dt : Nat) (lane : Nat) (frame : Bytes) (s : State) : Host.Outcome State Fault Refusal :=
  afterIf (decide (lane < 8)) dt s (fun t => t.opReqRx lane frame)

/-- OP_RX (R423). An OP is forwarded downstream and a one-shot entry created at its T or marked LATE. -/
def execOpRx (dt : Nat) (lane : Nat) (frame : Bytes) (s : State) : Host.Outcome State Fault Refusal :=
  afterIf (decide (lane < 8)) dt s (fun t => t.opRx lane frame)

/-- BARRIER (R421). A BARRIER operation executes at T and raises BARRIER. -/
def execCasBarrier (dt : Nat) (s : State) : Host.Outcome State Fault Refusal :=
  after dt s (fun t => (t.inOrder isCasOp).barrier)

/-- BROADCAST (R421). A BROADCAST operation copies its data into BCAST at T. -/
def execCasBroadcast (dt : Nat) (s : State) : Host.Outcome State Fault Refusal :=
  after dt s (fun t => (t.inOrder isCasOp).broadcast)

/-- SNAPSHOT (R497). A SNAPSHOT operation latches the TSC snapshot and running totals into the SNAP bank at T. -/
def execCasSnapshot (dt : Nat) (s : State) : Host.Outcome State Fault Refusal :=
  after dt s (fun t => (t.inOrder isCasOp).casSnapshot)

/-- SERVICE_RESET (R425). A SERVICE_RESET at T closes the receipt window, empties the client table and clears service counters. -/
def execServiceReset (dt : Nat) (s : State) : Host.Outcome State Fault Refusal :=
  after dt s (fun t => (t.inOrder isCasOp).serviceResetAt)

/-- RESULT_RX (R426). A RESULT from a recorded child is aggregated into the module's result. -/
def execResultRx (dt : Nat) (lane : Nat) (frame : Bytes) (s : State) : Host.Outcome State Fault Refusal :=
  afterIf (decide (lane < 8)) dt s (fun t => t.resultRx lane frame)

/-- RESULT_DEADLINE (R426). At T + GATHER + SUB_DELAY a module sends its RESULT with missing children counted. -/
def execResultDeadline (dt : Nat) (s : State) : Host.Outcome State Fault Refusal :=
  after dt s (fun t => t.resultDeadline)

/-- DONE_RX (R427). A DONE is forwarded downstream and updates OP_RESULT for the requester. -/
def execDoneRx (dt : Nat) (lane : Nat) (frame : Bytes) (s : State) : Host.Outcome State Fault Refusal :=
  afterIf (decide (lane < 8)) dt s (fun t => t.doneRx lane frame)

/-- REQUEST_TIMEOUT (R427). A request without OP or DONE in time ends INCOMPLETE or NO_RIDGE. -/
def execRequestTimeout (dt : Nat) (s : State) : Host.Outcome State Fault Refusal :=
  after dt s (fun t => t.requestTimeout)

/-- THETA_LO_LANE_READ (R430). A full-width read of CMAC lane THETA_LO latches its measurement words. -/
def execThetaLoLaneRead (dt : Nat) (src lane : Nat) (s : State) : Host.Outcome State Fault Refusal :=
  afterIf (decide (src < 5) && decide (lane < 8)) dt s (fun t => t.busRead (srcOf src) (A.cmacLaneThetaLo lane) [15])

/-- OP_RESULT0_READ (R431). A full-width read of CAS.OP_RESULT0 latches OP_RESULT1–11. -/
def execOpResult0Read (dt : Nat) (src : Nat) (s : State) : Host.Outcome State Fault Refusal :=
  afterIf (decide (src < 5)) dt s (fun t => t.busRead (srcOf src) (A.casOpResult 0) [15])

/-- TALLY_SEL (R498). A write to TALLY_SEL latches a bank entry's value and address. -/
def execTallySel (dt : Nat) (src : Nat) (value : Word) (s : State) : Host.Outcome State Fault Refusal :=
  afterIf (decide (src < 5)) dt s (fun t => t.writeCmd src A.talTallySel value)

/-- STOLEN_CLEAR (R500). A CM write to STOLEN0 or STOLEN1 clears bits in the writer's stolen-count view. -/
def execStolenClear (dt : Nat) (src word : Nat) (value : Word) (s : State) : Host.Outcome State Fault Refusal :=
  afterIf (decide (src < 5) && decide (word < 2)) dt s
    (fun t => t.writeCmd src (if word = 0 then A.talStolen0 else A.talStolen1) value)

/-- SAMPLE_INDEX (R504). A write to SAMPLE_INDEX copies a sample slot into SAMPLE_READ. -/
def execSampleIndex (dt : Nat) (src : Nat) (value : Word) (s : State) : Host.Outcome State Fault Refusal :=
  afterIf (decide (src < 5)) dt s (fun t => t.writeCmd src A.talSampleIndex value)

end Sys2Proof.Machine
end

