-- ==== Sys2Proof/Machine/CmdLinks.lean ====
section
/-!
DEFINITION. The meanings of the commands: the service links, their optics and their frames.
-/

namespace Sys2Proof.Machine

/-- FRAME_RX (R194). A frame received on a service link is accepted or counted by the ordered checks and classified by the
headrace. -/
def execFrameRx (dt : Nat) (link : Nat) (phys : RxPhys) (s : State) : Host.Outcome State Fault Refusal :=
  afterIf (decide (link < 8)) dt s (fun t => t.frameIn link phys)

/-- WEIR_LOW (R199). Occupancy falling to weir low sends a zero-quanta pause and clears WEIR. -/
def execWeirLow (dt : Nat) (link occupancy : Nat) (s : State) : Host.Outcome State Fault Refusal :=
  afterIf (decide (link < 8)) dt s (fun t => t.weirLow link occupancy)

/-- PAUSE_REFRESH (R199). While above weir low the pause frame is repeated every REFRESH. -/
def execPauseRefresh (dt : Nat) (link : Nat) (s : State) : Host.Outcome State Fault Refusal :=
  afterIf (decide (link < 8)) dt s (fun t => t.pauseRefresh link)

/-- PAUSE_EFFECT (R201). 40 ns after a received pause frame the link is held for its quanta. -/
def execPauseEffect (dt : Nat) (link : Nat) (s : State) : Host.Outcome State Fault Refusal :=
  afterIf (decide (link < 8)) dt s (fun t => t.pauseEffect link)

/-- PAUSE_HOLD_END (R201). A received pause hold expires and the link is released. -/
def execPauseHoldEnd (dt : Nat) (link : Nat) (s : State) : Host.Outcome State Fault Refusal :=
  afterIf (decide (link < 8)) dt s (fun t => t.pauseHoldEnd link)

/-- PAUSE_OVERLIMIT (R202). PAUSE_HELD reaching PAUSE_LIMIT ends the hold and ignores pause until the next second. -/
def execPauseOverlimit (dt : Nat) (link : Nat) (s : State) : Host.Outcome State Fault Refusal :=
  afterIf (decide (link < 8)) dt s (fun t => t.pauseOverlimit link)

/-- LINK_UP (R185). A link meeting its lock conditions for 10 ms measures RX_DYN and TX_DYN and comes UP. -/
def execLinkUp (dt : Nat) (link rxDyn txDyn : Nat) (s : State) : Host.Outcome State Fault Refusal :=
  afterIf (decide (link < 16)) dt s (fun t => t.anyUp link rxDyn txDyn)

/-- LINK_DOWN (R185). A link loses a lock condition, goes DOWN and discards booked responses. -/
def execLinkDown (dt : Nat) (link : Nat) (lost : LineLock) (s : State) : Host.Outcome State Fault Refusal :=
  afterIf (decide (link < 16)) dt s (fun t => t.anyDown link lost)

/-- CAGE_INSERT (R186). An inserted optic is identified and released from low-power mode when acceptable. -/
def execCageInsert (dt : Nat) (cage : Nat) (responded : Bool) (ident pclass : Nat)
    (s : State) : Host.Outcome State Fault Refusal :=
  afterIf (decide (cage < 4)) dt s (fun t => t.opticIn cage responded ident pclass)

/-- CAGE_REMOVE (R490). An optic removal switches the cage's Vcc off and takes its links DOWN. -/
def execCageRemove (dt : Nat) (cage : Nat) (s : State) : Host.Outcome State Fault Refusal :=
  afterIf (decide (cage < 4)) dt s (fun t => t.opticOut cage)

/-- VERIFY_SEND (R204). Every 10 ms a verify mPacket is sent, and three unanswered ones fail preemption. -/
def execVerifySend (dt : Nat) (link : Nat) (s : State) : Host.Outcome State Fault Refusal :=
  afterIf (decide (link < 8)) dt s (fun t => t.verifySend link)

/-- VERIFY_RESPONSE (R204). A verify response makes preemption ACTIVE. -/
def execVerifyResponse (dt : Nat) (link : Nat) (s : State) : Host.Outcome State Fault Refusal :=
  afterIf (decide (link < 8)) dt s (fun t => t.verifyResponse link)

/-- PROBE_START (R191). A CM write of PROBE_CTL.START sends one probe frame on the link. -/
def execProbeStart (dt : Nat) (src link : Nat) (s : State) : Host.Outcome State Fault Refusal :=
  afterIf (decide (src < 5) && decide (link < 8)) dt s (fun t => t.writeCmd src (A.macLinkProbeCtl link) 0x10001)

/-- PROBE_RETURN (R191). A returning probe records its round trip in PROBE_RESULT and raises PROBE_DONE. -/
def execProbeReturn (dt : Nat) (link nonce captured : Nat) (s : State) : Host.Outcome State Fault Refusal :=
  afterIf (decide (link < 8)) dt s (fun t => t.probeReturn link nonce captured)

/-- PROBE_TIMEOUT (R191). No probe return within 1 ms sets PROBE_RESULT to none. -/
def execProbeTimeout (dt : Nat) (link : Nat) (s : State) : Host.Outcome State Fault Refusal :=
  afterIf (decide (link < 8)) dt s (fun t => t.probeTimeout link)

/-- RESPONSE_BOOK (R208). A response handed over is booked on the earliest free slot at least 500 ns ahead or dropped. -/
def execResponseBook (dt : Nat) (link : Nat) (s : State) : Host.Outcome State Fault Refusal :=
  afterIf (decide (link < 8)) dt s (fun t => t.bookNext link)

/-- FINALISE (R209). Before the slot the pipeline writes slot-dependent fields, tag and checksums. -/
def execFinalise (dt : Nat) (link : Nat) (s : State) : Host.Outcome State Fault Refusal :=
  afterIf (decide (link < 16)) dt s (fun t => t.anyFinalise link)

/-- COMMIT_POINT (R210). At slot − 300 ns the MAC commits the frame unless the link is held. -/
def execCommitPoint (dt : Nat) (link : Nat) (s : State) : Host.Outcome State Fault Refusal :=
  afterIf (decide (link < 16)) dt s (fun t => t.anyCommit link)

/-- SLOT_START (R210). A committed frame starts at its slot and is sent. -/
def execSlotStart (dt : Nat) (link : Nat) (s : State) : Host.Outcome State Fault Refusal :=
  afterIf (decide (link < 16)) dt s (fun t => t.anyStart link)

/-- AGE_DROP (R213). A response not departed within SLOT_AGE_MAX of its first slot is dropped. -/
def execAgeDrop (dt : Nat) (link : Nat) (s : State) : Host.Outcome State Fault Refusal :=
  afterIf (decide (link < 8)) dt s (fun t => t.ageDrop link)

/-- PREEMPTABLE_FRAME_SENT (R336). The tailrace starts a queued preemptable frame when line time is free, and on its last byte a
host frame posts its completion. -/
def execPreemptableFrameSent (dt : Nat) (link : Nat) (last : Bool) (s : State) : Host.Outcome State Fault Refusal :=
  afterIf (decide (link < 8)) dt s (fun t => t.sendPreemptable link last)

end Sys2Proof.Machine
end

