-- ==== Sys2Proof/Machine/CmdManagement.lean ====
section
/-!
DEFINITION. The meanings of the commands: the management port.
-/

namespace Sys2Proof.Machine

/-- SESSION_OPEN (R381). A TLS 1.3 connection on port MP authenticates a client and opens a session. -/
def execSessionOpen (dt : Nat) (fingerprint : Bytes) (proof : Bool) (issuers : List Bytes) (notBefore notAfter : Int)
    (s : State) : Host.Outcome State Fault Refusal :=
  after dt s (fun t => t.sessionOpen fingerprint proof issuers notBefore notAfter)

/-- SESSION_IDLE (R382). 300 s without a client message ends a session. -/
def execSessionIdle (dt : Nat) (session : Nat) (s : State) : Host.Outcome State Fault Refusal :=
  afterIf (decide (1 ≤ session) && decide (session < 5)) dt s (fun t => t.sessionIdle session)

/-- SESSION_CLOSED (R382). A TCP close or TLS alert ends a session and discards its pair, view and streams. -/
def execSessionClosed (dt : Nat) (session : Nat) (alert : Bool) (s : State) : Host.Outcome State Fault Refusal :=
  afterIf (decide (1 ≤ session) && decide (session < 5)) dt s (fun t => t.sessionClosed session alert)

/-- HELLO (R384). A HELLO message starts a session and returns identity and bank. -/
def execCelenHello (dt : Nat) (session type : Nat) (msg : MpMsg) (s : State) : Host.Outcome State Fault Refusal :=
  afterIf (decide (1 ≤ session) && decide (session < 5)) dt s (fun t => t.hello session type msg)

/-- READ (R384). A READ message returns consecutive register words. -/
def execCelenRead (dt : Nat) (session : Nat) (msg : MpMsg) (s : State) : Host.Outcome State Fault Refusal :=
  afterIf (decide (1 ≤ session) && decide (session < 5)) dt s (fun t => t.mpRead session msg)

/-- WRITE (R384). A WRITE message writes consecutive register words in ascending order. -/
def execCelenWrite (dt : Nat) (session : Nat) (msg : MpMsg) (s : State) : Host.Outcome State Fault Refusal :=
  afterIf (decide (1 ≤ session) && decide (session < 5)) dt s (fun t => t.dueFirst.mpWrite session msg)

/-- READ64 (R384). A READ64 message reads one counter pair atomically. -/
def execCelenRead64 (dt : Nat) (session : Nat) (msg : MpMsg) (s : State) : Host.Outcome State Fault Refusal :=
  afterIf (decide (1 ≤ session) && decide (session < 5)) dt s (fun t => t.mpRead64 session msg)

/-- SUBSCRIBE (R384). A SUBSCRIBE message starts EVENT and JOURNAL streams for the session. -/
def execCelenSubscribe (dt : Nat) (session : Nat) (msg : MpMsg) (s : State) : Host.Outcome State Fault Refusal :=
  afterIf (decide (1 ≤ session) && decide (session < 5)) dt s (fun t => t.mpSubscribe session msg)

/-- UNSUBSCRIBE (R384). An UNSUBSCRIBE message ends the session's streams. -/
def execCelenUnsubscribe (dt : Nat) (session : Nat) (msg : MpMsg) (s : State) : Host.Outcome State Fault Refusal :=
  afterIf (decide (1 ≤ session) && decide (session < 5)) dt s (fun t => t.mpUnsubscribe session msg)

/-- JOURNAL_READ (R384). A JOURNAL_READ message returns journal records from a SEQ. -/
def execJournalRead (dt : Nat) (session : Nat) (msg : MpMsg) (s : State) : Host.Outcome State Fault Refusal :=
  afterIf (decide (1 ≤ session) && decide (session < 5)) dt s (fun t => t.mpJournal session msg)

/-- STAGE (R384). A STAGE message transfers data to or from a module region as an XFER would. -/
def execCelenStage (dt : Nat) (session : Nat) (msg : MpMsg) (checked : Option Bool)
    (s : State) : Host.Outcome State Fault Refusal :=
  afterIf (decide (1 ≤ session) && decide (session < 5)) dt s
    (fun t => (match checked with | none => t.mpStage session msg | some flashOk => t.mpStaged flashOk))

/-- NET (R384). A NET message sets MP addressing, applied when the session ends. -/
def execCelenNet (dt : Nat) (session : Nat) (msg : MpMsg) (s : State) : Host.Outcome State Fault Refusal :=
  afterIf (decide (1 ≤ session) && decide (session < 5)) dt s (fun t => t.mpNet session msg)

/-- TRUST (R384). A TRUST message sets the trusted-issuer list for later sessions. -/
def execCelenTrust (dt : Nat) (session : Nat) (msg : MpMsg) (s : State) : Host.Outcome State Fault Refusal :=
  afterIf (decide (1 ≤ session) && decide (session < 5)) dt s (fun t => t.mpTrust session msg)

/-- BYE (R384). A BYE message ends the session. -/
def execCelenBye (dt : Nat) (session : Nat) (msg : MpMsg) (s : State) : Host.Outcome State Fault Refusal :=
  afterIf (decide (1 ≤ session) && decide (session < 5)) dt s (fun t => t.mpBye session msg)

end Sys2Proof.Machine
end

