-- ==== Sys2Proof/Machine/CmdOscillators.lean ====
section
/-!
DEFINITION. The meanings of the commands: the oscillators, the cartridge and keep-alive mode.
-/

namespace Sys2Proof.Machine

/-- CART_LOSS (R104). An active cartridge's presence opens or its 10 MHz stops and the PLL switches to the keeper within 1 µs. -/
def execCartLoss (dt : Nat) (opened : Bool) (s : State) : Host.Outcome State Fault Refusal :=
  after dt s (fun t => t.cartLoss opened)

/-- MODEL_SAMPLE (R106). At each multiple of 1,000 s an oscillator sample is formed and the models refitted. -/
def execModelSample (dt : Nat) (s : State) : Host.Outcome State Fault Refusal :=
  after dt s (fun t => t.modelSampleAt)

/-- MODEL_FLASH_WRITE (R109). Every 24 h the models are copied to flash and the cartridge model block. -/
def execModelFlashWrite (dt : Nat) (s : State) : Host.Outcome State Fault Refusal :=
  after dt s (fun t => t.modelFlash)

/-- CART_INSERT (R118). The presence contact closed for 100 ms powers the cartridge slot and the cartridge enters POWERING. -/
def execCartInsert (dt : Nat) (s : State) : Host.Outcome State Fault Refusal :=
  after dt s (fun t => t.cartInsert)

/-- CART_REMOVE (R118). The presence contact open for 100 ms makes the cartridge ABSENT. -/
def execCartRemove (dt : Nat) (s : State) : Host.Outcome State Fault Refusal :=
  after dt s (fun t => t.cartRemove)

/-- CART_IDENTIFIED (R121). The cartridge identity and model block are read and the cartridge enters WARMING. -/
def execCartIdentified (dt : Nat) (code rev serial : Nat) (block : Bytes) (s : State) : Host.Outcome State Fault Refusal :=
  after dt s (fun t => t.cartRead code rev serial block)

/-- CART_ID_TIMEOUT (R118). No valid identity within 2 s sends the cartridge to FAULT. -/
def execCartIdTimeout (dt : Nat) (s : State) : Host.Outcome State Fault Refusal :=
  after dt s (fun t => t.cartTimeout 1 0x40)

/-- CART_STATUS_POLL (R450). Every 100 ms the module polls the cartridge STATUS for lock or fault. -/
def execCartStatusPoll (dt : Nat) (lock fault : Bool) (s : State) : Host.Outcome State Fault Refusal :=
  after dt s (fun t => t.cartStatus lock fault)

/-- CART_WARM_TIMEOUT (R118). Warm-up exceeding its type's limit sends the cartridge to FAULT with WARM_TIMEOUT. -/
def execCartWarmTimeout (dt : Nat) (s : State) : Host.Outcome State Fault Refusal :=
  after dt s (fun t => t.cartTimeout 2 0x42)

/-- CART_MEAS_DONE (R119). CART_MEAS elapses with checks passed and the cartridge becomes READY. -/
def execCartMeasDone (dt : Nat) (s : State) : Host.Outcome State Fault Refusal :=
  after dt s (fun t => t.cartMeasured)

/-- CART_OVERCURRENT (R449). Cartridge current above 2.0 A for 10 ms switches PD2 off and sends the cartridge to FAULT. -/
def execCartOvercurrent (dt : Nat) (s : State) : Host.Outcome State Fault Refusal :=
  after dt s (fun t => t.cartOvercurrent)

/-- CART_RELEASE (R120). A guarded RELEASE hands over to the keeper if needed and writes the model block. -/
def execCartRelease (dt : Nat) (src : Nat) (complement : Word) (s : State) : Host.Outcome State Fault Refusal :=
  afterIf (decide (src < 5)) dt s (fun t => t.guardedCmd src A.holCartCmd 1 complement)

/-- CART_PD2_OFF (R120). 100 ms after the model block write PD2 switches off and the cartridge enters RELEASED. -/
def execCartPd2Off (dt : Nat) (s : State) : Host.Outcome State Fault Refusal :=
  after dt s (fun t => t.cartPd2Off)

/-- CART_RESUME (R120). A guarded RESUME powers a RELEASED cartridge back to POWERING. -/
def execCartResume (dt : Nat) (src : Nat) (complement : Word) (s : State) : Host.Outcome State Fault Refusal :=
  afterIf (decide (src < 5)) dt s (fun t => t.guardedCmd src A.holCartCmd 2 complement)

/-- CART_FORGET (R120). A guarded FORGET discards the cartridge's model in cistern, flash and model block. -/
def execCartForget (dt : Nat) (src : Nat) (complement : Word) (s : State) : Host.Outcome State Fault Refusal :=
  afterIf (decide (src < 5)) dt s (fun t => t.guardedCmd src A.holCartCmd 3 complement)

/-- KA_TICK (R123). Every second in keep-alive mode the cistern counter applies the holdover correction and radius. -/
def execKaTick (dt : Nat) (tempKeeper : Int) (tempCart : Option Int) (s : State) : Host.Outcome State Fault Refusal :=
  after dt s (fun t => t.kaSecond tempKeeper tempCart)

/-- KEEPER_FAULT (R126). The keeper OCXO's oven current leaves its range and HOL.EVENT.KEEPER_FAULT is raised. -/
def execKeeperFault (dt : Nat) (s : State) : Host.Outcome State Fault Refusal :=
  after dt s (fun t => t.raise A.holEvent 13)

end Sys2Proof.Machine
end

