-- ==== Sys2Proof/Machine/CmdPtpEvents.lean ====
section
/-!
DEFINITION. The meanings of the commands: pTP and SyncE.
-/

namespace Sys2Proof.Machine

/-- DELAY_REQ_RX (R261). A Delay_Req is answered by a Delay_Resp within 1 ms or dropped. -/
def execDelayReqRx (dt : Nat) (s : State) : Host.Outcome State Fault Refusal :=
  after dt s (fun t => t.delayReq)

/-- UNICAST_REQUEST_RX (R263). A unicast transmission request is granted or denied in a Signaling message. -/
def execUnicastRequestRx (dt : Nat) (s : State) : Host.Outcome State Fault Refusal :=
  after dt s (fun t => t.unicastRequest)

/-- UNICAST_CANCEL_RX (R263). A CANCEL_UNICAST_TRANSMISSION ends a grant and is acknowledged. -/
def execUnicastCancelRx (dt : Nat) (s : State) : Host.Outcome State Fault Refusal :=
  after dt s (fun t => t.unicastCancel)

/-- GRANT_EXPIRE (R263). A grant reaches the end of its duration and lapses. -/
def execGrantExpire (dt : Nat) (s : State) : Host.Outcome State Fault Refusal :=
  after dt s (fun t => t.grantExpire)

/-- SLAVE_MESSAGE_RX (R267). A Sync, Follow_Up, Announce or Delay_Resp reaches its slave instance for measurement and master
choice. -/
def execSlaveMessageRx (dt : Nat) (s : State) : Host.Outcome State Fault Refusal :=
  after dt s (fun t => t.slaveMessage)

/-- ANN_TIMEOUT (R266). A slave instance misses ANN_TIMEOUT Announce intervals and returns to LISTENING. -/
def execAnnTimeout (dt : Nat) (slave : Nat) (s : State) : Host.Outcome State Fault Refusal :=
  afterIf (decide (slave < 2)) dt s (fun t => t.annTimeout slave)

/-- SLAVE_GRANT_RENEW (R265). A unicast slave renews its grants at half their duration. -/
def execSlaveGrantRenew (dt : Nat) (slave : Nat) (s : State) : Host.Outcome State Fault Refusal :=
  afterIf (decide (slave < 2)) dt s (fun t => t.slaveRenew slave)

/-- ESMC_RX (R271). A received ESMC PDU sets the SyncE input's class or is counted malformed. -/
def execEsmcRx (dt : Nat) (s : State) : Host.Outcome State Fault Refusal :=
  after dt s (fun t => t.esmcReceived)

/-- GRANT_UNICAST_TRANSMISSION_RX (R266). A GRANT or ACKNOWLEDGE_CANCEL unicast-negotiation TLV from a foreign master reaches a
unicast slave instance, which takes up the grant or goes UNCALIBRATED when the grant is denied. -/
def execGrantUnicastTransmissionRx (dt : Nat) (s : State) : Host.Outcome State Fault Refusal :=
  after dt s (fun t => t.grantReceived)

end Sys2Proof.Machine
end

