-- ==== Sys2Proof/Machine/CmdReceiptEvents.lean ====
section
/-!
DEFINITION. The meanings of the commands: receipts and Roughtime.
-/

namespace Sys2Proof.Machine

/-- ETXEL_REQUEST (R283). An Etxel request is checked, rate-charged and admitted to the open window or refused. -/
def execEtxelRequest (dt : Nat) (pipe : Nat) (s : State) : Host.Outcome State Fault Refusal :=
  afterIf (decide (pipe < 16)) dt s (fun t => t.etxelRequest pipe)

/-- ROUGHTIME_REQUEST (R292). A Roughtime request is checked and admitted to its revision's tree or dropped. -/
def execRoughtimeRequest (dt : Nat) (pipe : Nat) (s : State) : Host.Outcome State Fault Refusal :=
  afterIf (decide (pipe < 16)) dt s (fun t => t.roughtimeRequest pipe)

/-- SEAL_DONE (R281). A window's signatures complete, it is sealed and its log records posted. -/
def execSealDone (dt : Nat) (s : State) : Host.Outcome State Fault Refusal :=
  after dt s (fun t => t.sealDone)

/-- SEAL_TIMEOUT (R281). A window not signed 1 ms after close is abandoned and its leaves refused SEAL_FAIL. -/
def execSealTimeout (dt : Nat) (s : State) : Host.Outcome State Fault Refusal :=
  after dt s (fun t => t.sealTimeout)

/-- RECEIPT_RELEASE (R282). Sealed responses are released to pipelines in admission order at the paced rate. -/
def execReceiptRelease (dt : Nat) (s : State) : Host.Outcome State Fault Refusal :=
  after dt s (fun t => t.receiptRelease)

/-- ONLINE_KEY_EXPIRE (R290). An online key reaches MAXT and requests are refused KEY_ABSENT until a new key is current. -/
def execOnlineKeyExpire (dt : Nat) (s : State) : Host.Outcome State Fault Refusal :=
  after dt s (fun t => t.onlineExpire)

/-- RCP_ROTATE_NOW (R290). A guarded RCP ROTATE_NOW makes and certifies a key and rotates at the next window close. -/
def execRcpRotateNow (dt : Nat) (src : Nat) (complement : Word) (s : State) : Host.Outcome State Fault Refusal :=
  afterIf (decide (src < 5)) dt s (fun t => t.guardedCmd src A.rcpCmd 1 complement)

/-- LT_SLOT (R289). A write to RCP.LT_SLOT latches the long-term key slot binding once. -/
def execLtSlot (dt : Nat) (src : Nat) (value : Word) (s : State) : Host.Outcome State Fault Refusal :=
  afterIf (decide (src < 5)) dt s (fun t => t.writeCmd src A.rcpLtSlot value)

end Sys2Proof.Machine
end

