-- ==== Sys2Proof/Machine/CmdReferences.lean ====
section
/-!
DEFINITION. The meanings of the commands: the references.
-/

namespace Sys2Proof.Machine

/-- QUAL_TIME_EXPIRE (R75). A CANDIDATE's qualification timer expires and it becomes QUALIFIED or WAIT_RESTORE. -/
def execQualTimeExpire (dt : Nat) (ref : Nat) (s : State) : Host.Outcome State Fault Refusal :=
  afterIf (decide (ref < 14)) dt s (fun t => t.refTimerOver ref)

/-- WTR_EXPIRE (R75). A WAIT_RESTORE reference's wait-to-restore timer expires and it becomes QUALIFIED. -/
def execWtrExpire (dt : Nat) (ref : Nat) (s : State) : Host.Outcome State Fault Refusal :=
  afterIf (decide (ref < 14)) dt s (fun t => t.refTimerOver ref)

/-- DISTRUST_HOLD_EXPIRE (R77). A DISTRUSTED reference's hold expires and it is released to CANDIDATE when its statistics stayed
at 0. -/
def execDistrustHoldExpire (dt : Nat) (ref : Nat) (s : State) : Host.Outcome State Fault Refusal :=
  afterIf (decide (ref < 14)) dt s (fun t => t.refTimerOver ref)

/-- PREPARE_END (R96). A switch's one-second PREPARE ends, the build-out is taken and SLEW begins with the target SELECTED. -/
def execPrepareEnd (dt : Nat) (s : State) : Host.Outcome State Fault Refusal :=
  after dt s (fun t => t.prepareOver)

/-- REF_LOSS_TIMEOUT (R60). A reference's loss timer or count expires and it is lost. -/
def execRefLossTimeout (dt : Nat) (ref : Nat) (s : State) : Host.Outcome State Fault Refusal :=
  afterIf (decide (ref < 14)) dt s (fun t => t.refLossTimeout ref)

/-- FORCE (R95). A guarded write to REF.FORCE forces a reference or cancels the force. -/
def execRefForce (dt : Nat) (src : Nat) (value complement : Word) (s : State) : Host.Outcome State Fault Refusal :=
  afterIf (decide (src < 5)) dt s (fun t => t.guardedCmd src A.refForce value complement)

/-- CLEAR_DISTRUST (R77). A guarded write of a reference index to CLEAR_DISTRUST releases that DISTRUSTED reference to CANDIDATE. -/
def execClearDistrust (dt : Nat) (src : Nat) (value complement : Word) (s : State) : Host.Outcome State Fault Refusal :=
  afterIf (decide (src < 5)) dt s (fun t => t.guardedCmd src A.refClearDistrust value complement)

/-- OFFSET_LO_READ (R99). A full-width read of REF.INn.OFFSET_LO latches that page's offset and residual words. -/
def execOffsetLoRead (dt : Nat) (src ref : Nat) (s : State) : Host.Outcome State Fault Refusal :=
  afterIf (decide (src < 5) && decide (ref < 14)) dt s (fun t => t.busRead (srcOf src) (A.refInOffsetLo ref) [15])

/-- QCONTACT_CHANGE (R72). A quality contact change stable for 10 ms is accepted and the bound reference's class follows. -/
def execQcontactChange (dt : Nat) (closed : Bool) (s : State) : Host.Outcome State Fault Refusal :=
  after dt s (fun t => t.contactChange closed)

/-- TOD_SENTENCE_RX (R445). A ToD sentence received on TOD-IN is validated and counted, and valid ones label PPS-IN edges. -/
def execTodSentenceRx (dt : Nat) (text : Bytes) (framing : Bool) (s : State) : Host.Outcome State Fault Refusal :=
  after dt s (fun t => t.todRx text framing)

end Sys2Proof.Machine
end

