-- ==== Sys2Proof/Machine/CmdRegister.lean ====
section
/-!
DEFINITION. The meanings of the commands: register accesses and the sluice.
-/

namespace Sys2Proof.Machine

/-- REGISTER_WRITE (R353). A write to a BAR0 register that has no row of its own is handled by its width, alignment and byte
enables, and faults are logged. -/
def execRegisterWrite (dt : Nat) (src addr : Nat) (lanes : List (Nat × Word)) (s : State) : Host.Outcome State Fault Refusal :=
  afterIf (decide (src < 5)) dt s (fun t => t.dueFirst.busWrite (srcOf src) addr lanes)

/-- CR_CLEARING_READ (R354). A full-width read of a CR counter or counter pair returns its count, clears it and sets stolen bits
in other sources' views. -/
def execCrClearingRead (dt : Nat) (src addr : Nat) (wide : Bool) (s : State) : Host.Outcome State Fault Refusal :=
  afterIf (decide (src < 5)) dt s (fun t => t.busRead (srcOf src) addr (if wide then [15, 15] else [15]))

/-- SQ_ACKNOWLEDGE (R363). A write to an SQ EVENT register clears the named bits when its SEQ matches, otherwise counts
STALE_ACK. -/
def execSqAcknowledge (dt : Nat) (src addr : Nat) (value : Word) (s : State) : Host.Outcome State Fault Refusal :=
  afterIf (decide (src < 5)) dt s (fun t => t.writeCmd src addr value)

/-- STAGE_WRITE (R369). A full-width write to an ST word lands in the group's staging copy and advances STAGE_SEQ. -/
def execStageWrite (dt : Nat) (src addr : Nat) (value : Word) (s : State) : Host.Outcome State Fault Refusal :=
  afterIf (decide (src < 5)) dt s (fun t => t.writeCmd src addr value)

/-- LK_WRITE (R367). A write to an LK field latches the first value after a start at step 1 and drops later writes with
LOCK_VIOLATION. -/
def execLkWrite (dt : Nat) (src addr : Nat) (value : Word) (s : State) : Host.Outcome State Fault Refusal :=
  afterIf (decide (src < 5)) dt s (fun t => t.writeCmd src addr value)

/-- GUARD_TIMEOUT (R365). An open guarded pair whose complement has not arrived within 1 µs or 16 writes is discarded with
GUARD_FAULT. -/
def execGuardTimeout (dt : Nat) (src : Nat) (s : State) : Host.Outcome State Fault Refusal :=
  afterIf (decide (src < 5)) dt s (fun t => t.guardTimeout (srcOf src))

/-- SLU_COMMIT (R371). A COMMIT write captures the staging copy into the pending copy after the commit-time refusals, superseding
any pending commit. -/
def execSluCommit (dt : Nat) (src group : Nat) (value : Word) (s : State) : Host.Outcome State Fault Refusal :=
  afterIf (decide (src < 5) && decide (group < 64)) dt s (fun t => t.writeCmd src (A.sluGroupCommit group) (putFld value 0 2 1))

/-- SLU_CANCEL (R371). A CANCEL write ends a pending commit CANCELLED and keeps the staging copy. -/
def execSluCancel (dt : Nat) (src group : Nat) (s : State) : Host.Outcome State Fault Refusal :=
  afterIf (decide (src < 5) && decide (group < 64)) dt s (fun t => t.writeCmd src (A.sluGroupCommit group) 2)

/-- SLU_REVERT (R371). A REVERT write copies the live copy into staging, advances STAGE_SEQ and cancels a pending commit. -/
def execSluRevert (dt : Nat) (src group : Nat) (s : State) : Host.Outcome State Fault Refusal :=
  afterIf (decide (src < 5) && decide (group < 64)) dt s (fun t => t.writeCmd src (A.sluGroupCommit group) 3)

/-- FLOW_ADOPT (R216). Each link direction adopts applied MAC FLOW values at its own next point between frames, raising
FLOW_APPLIED when all have. -/
def execFlowAdopt (dt : Nat) (link dir : Nat) (s : State) : Host.Outcome State Fault Refusal :=
  afterIf (decide (link < 8) && decide (dir < 2)) dt s (fun t => t.flowPoint link dir)

/-- ADDR_APPLY (R230). A waiting HRC_ADDR commit applies once the last request of the previous address generation has departed or
been dropped. -/
def execAddrApply (dt : Nat) (s : State) : Host.Outcome State Fault Refusal :=
  after dt s (fun t => t.addrApply)

/-- PARITY_SCRUB (R377). Every 1 ms each domain supervisor checks the parity of its live ST words. -/
def execParityScrub (dt : Nat) (live staging pending : List Nat) (s : State) : Host.Outcome State Fault Refusal :=
  after dt s (fun t => t.parityScrub live staging pending)

/-- NOW_SEC_LO_READ (R23). A full-width read of TSC.NOW_SEC_LO latches a coherent snapshot of time, state, radius, phase error
and slew. -/
def execNowSecLoRead (dt : Nat) (src : Nat) (s : State) : Host.Outcome State Fault Refusal :=
  afterIf (decide (src < 5)) dt s (fun t => t.busRead (srcOf src) A.tscNowSecLo [15])

end Sys2Proof.Machine
end

