-- ==== Sys2Proof/Machine/CmdRequests.lean ====
section
/-!
DEFINITION. The meanings of the commands: the headrace, NTP and NTS, and the pipelines.
-/

namespace Sys2Proof.Machine

/-- ARP_REQUEST (R221). An ARP request for a service address is answered in hardware. -/
def execArpRequest (dt : Nat) (s : State) : Host.Outcome State Fault Refusal :=
  after dt s (fun t => t.answerArp)

/-- NEIGHBOR_SOLICITATION (R221). A Neighbor Solicitation for a service address is answered with an advertisement. -/
def execNeighborSolicitation (dt : Nat) (s : State) : Host.Outcome State Fault Refusal :=
  after dt s (fun t => t.answerNd)

/-- EXCEPTION_FRAME (R220). A frame of an exception class is passed to its ring or dropped. -/
def execExceptionFrame (dt : Nat) (s : State) : Host.Outcome State Fault Refusal :=
  after dt s (fun t => t.exceptionFrame)

/-- NTP_REQUEST (R226). A plain NTP request is rate-checked and answered, sent a Kiss-o'-Death or dropped. -/
def execNtpRequest (dt : Nat) (pipe : Nat) (s : State) : Host.Outcome State Fault Refusal :=
  afterIf (decide (pipe < 16)) dt s (fun t => t.ntpRequest pipe)

/-- NTS_REQUEST (R238). An NTS request is rate-checked, its cookie opened and authenticator verified, and answered, NAKed or
dropped. -/
def execNtsRequest (dt : Nat) (pipe : Nat) (s : State) : Host.Outcome State Fault Refusal :=
  afterIf (decide (pipe < 16)) dt s (fun t => t.ntsRequest pipe)

/-- BUCKET_MOVE_DONE (R223). A moved bucket's held requests are forwarded to the new pipeline once the old has none in flight. -/
def execBucketMoveDone (dt : Nat) (bucket : Nat) (s : State) : Host.Outcome State Fault Refusal :=
  afterIf (decide (bucket < 256)) dt s (fun t => t.bucketMoved bucket)

/-- CLIENT_QUERY (R249). An HRC_QUERY commit looks up a key address and copies its client record. -/
def execClientQuery (dt : Nat) (src : Nat) (cmd : Word) (words : List (Nat × Word)) (commit : Word)
    (s : State) : Host.Outcome State Fault Refusal :=
  afterIf (decide (src < 5)) dt s (fun t => t.groupCommand src 19 A.hrcQueryCmd 0 1 1 cmd words commit)

/-- NTS_ROTATE_NOW (R244). A guarded ROTATE_NOW rotates NTS keys at the next whole second. -/
def execNtsRotateNow (dt : Nat) (src : Nat) (complement : Word) (s : State) : Host.Outcome State Fault Refusal :=
  afterIf (decide (src < 5)) dt s (fun t => t.guardedCmd src A.ntsCmd 1 complement)

/-- NTS_PURGE (R244). A guarded PURGE wipes all NTS keys and draws a new current key. -/
def execNtsPurge (dt : Nat) (src : Nat) (complement : Word) (s : State) : Host.Outcome State Fault Refusal :=
  afterIf (decide (src < 5)) dt s (fun t => t.guardedCmd src A.ntsCmd 2 complement)

/-- NTS_KEY_DRAWN (R244). The new current key drawn after a purge is in place within 1 ms. -/
def execNtsKeyDrawn (dt : Nat) (s : State) : Host.Outcome State Fault Refusal :=
  after dt s (fun t => t.ntsKeyDrawn)

/-- KEY_DEFER_RETRY (R244). A deferred key rotation is retried at each whole second. -/
def execKeyDeferRetry (dt : Nat) (s : State) : Host.Outcome State Fault Refusal :=
  after dt s (fun t => t.keyDeferRetry)

/-- MINT_JOB (R246). A mint job seals the requested cookies for the host and posts its completion. -/
def execMintJob (dt : Nat) (mint : Option Bytes) (s : State) : Host.Outcome State Fault Refusal :=
  after dt s (fun t => t.mintJob mint)

/-- DRAIN (R486). A UCODE_CTL DRAIN moves a pipeline's buckets away and lets it finish its requests. -/
def execDrain (dt : Nat) (src pipe : Nat) (s : State) : Host.Outcome State Fault Refusal :=
  afterIf (decide (src < 5) && decide (pipe < 16)) dt s (fun t => t.writeCmd src (A.svpPipeUcodeCtl pipe) 0x10001)

/-- DRAIN_COMPLETE (R486). A draining pipeline's last response departs and it is fenced. -/
def execDrainComplete (dt : Nat) (pipe : Nat) (s : State) : Host.Outcome State Fault Refusal :=
  afterIf (decide (pipe < 16)) dt s (fun t => t.drainDone pipe)

/-- RELOAD (R487). A UCODE_CTL RELOAD loads microcode into a fenced pipeline and self-tests it. -/
def execReload (dt : Nat) (src pipe : Nat) (held : Bool) (s : State) : Host.Outcome State Fault Refusal :=
  afterIf (decide (src < 5) && decide (pipe < 16)) dt s
    (fun t => t.writeCmd src (A.svpPipeUcodeCtl pipe) (if held then 0x60006 else 0x60002))

/-- RELOAD_COMPLETE (R487). The reload self-test ends and the pipeline returns to FENCED with its outcome. -/
def execReloadComplete (dt : Nat) (pipe : Nat) (pass : Bool) (s : State) : Host.Outcome State Fault Refusal :=
  afterIf (decide (pipe < 16)) dt s (fun t => t.reloadDone pipe pass)

end Sys2Proof.Machine
end

