-- ==== Sys2Proof/Machine/CmdSupplies.lean ====
section
/-!
DEFINITION. The meanings of the commands: supplies, start-up, resets, stored configuration and alarms.
-/

namespace Sys2Proof.Machine

/-- INPUT_QUALIFIED (R458). A supply input meeting its condition for 100 ms becomes qualified. -/
def execInputQualified (dt : Nat) (input : Nat) (sense : PowerSense) (s : State) : Host.Outcome State Fault Refusal :=
  afterIf (decide (input < 4)) dt s (fun t => (t.showSense sense).inputQualified input)

/-- INPUT_LOST (R458). A supply input meets its lost condition and loses qualification. -/
def execInputLost (dt : Nat) (input : Nat) (sense : PowerSense) (s : State) : Host.Outcome State Fault Refusal :=
  afterIf (decide (input < 4)) dt s (fun t => (t.showSense sense).inputLost input)

/-- MAIN_POWER_LOST (R460). Loss of all main inputs leads within the hold-up to keep-alive mode or securing the cistern. -/
def execMainPowerLost (dt : Nat) (s : State) : Host.Outcome State Fault Refusal :=
  after dt s (fun t => t.mainPowerLost)

/-- KA_LOST (R460). Loss of KA in keep-alive mode invalidates the timescale region and falls to PD0 retention. -/
def execKaLost (dt : Nat) (s : State) : Host.Outcome State Fault Refusal :=
  after dt s (fun t => t.kaLost)

/-- POWER_START (R465). Main power qualifying after loss begins start-up at step 1. -/
def execPowerStart (dt : Nat) (steps : List StepObs) (s : State) : Host.Outcome State Fault Refusal :=
  after dt s (fun t => t.powerStart steps)

/-- STEP_TIMEOUT (R465). A start-up step exceeding its limit fails with TIMEOUT. -/
def execStepTimeout (dt : Nat) (steps : List StepObs) (s : State) : Host.Outcome State Fault Refusal :=
  after dt s (fun t => t.stepTimeout steps)

/-- SAFE_HOLD_RETRY (R471). Every 60 s in safe hold, except thermal hold, a new start begins at step 1. -/
def execSafeHoldRetry (dt : Nat) (steps : List StepObs) (s : State) : Host.Outcome State Fault Refusal :=
  after dt s (fun t => t.safeHoldRetry steps)

/-- STABILITY_REACHED (R468). STABLE seconds after step 12 without reset the start is stable and the copy becomes last-known-
good. -/
def execStabilityReached (dt : Nat) (s : State) : Host.Outcome State Fault Refusal :=
  after dt s (fun t => t.stabilityReached)

/-- FULL (R472). A guarded FULL to PWR.RESET_CMD restarts the module at step 1 after 10 ms. -/
def execResetFull (dt : Nat) (src : Nat) (complement : Word) (acts : Option (List StepObs))
    (s : State) : Host.Outcome State Fault Refusal :=
  afterIf (decide (src < 5)) dt s
    (fun t => (match acts with | none => t.guardedCmd src A.pwrResetCmd 1 complement | some steps => t.fullActs steps))

/-- MGMT (R473). A guarded MGMT to PWR.RESET_CMD restarts only the management controller. -/
def execResetMgmt (dt : Nat) (src : Nat) (complement : Word) (ends : Option (List Bool))
    (s : State) : Host.Outcome State Fault Refusal :=
  afterIf (decide (src < 5)) dt s
    (fun t => (match ends with | none => t.guardedCmd src A.pwrResetCmd 2 complement | some ok => t.mgmtEnd ok))

/-- WATCHDOG (R472). The management controller's watchdog causes a MGMT reset. -/
def execWatchdog (dt : Nat) (ends : Option (List Bool)) (s : State) : Host.Outcome State Fault Refusal :=
  after dt s (fun t => (match ends with | none => t.mgmtBegin 1 | some ok => t.mgmtEnd ok))

/-- SUPERVISOR_SILENT (R472). A domain supervisor silent for 1 s causes a FULL reset. -/
def execSupervisorSilent (dt : Nat) (steps : List StepObs) (s : State) : Host.Outcome State Fault Refusal :=
  after dt s (fun t => t.supervisorSilent steps)

/-- THERM_WARN (R464). The junction reaching THERM_WARN raises THERM_WARN. -/
def execThermWarn (dt : Nat) (sense : PowerSense) (s : State) : Host.Outcome State Fault Refusal :=
  after dt s (fun t => t.thermReached sense)

/-- THERMAL_HOLD (R464). The junction reaching 115 °C enters thermal hold. -/
def execThermalHold (dt : Nat) (sense : PowerSense) (s : State) : Host.Outcome State Fault Refusal :=
  after dt s (fun t => t.thermalHold sense)

/-- THERMAL_RECOVER (R464). The junction below 95 °C for 60 s ends thermal hold with a FULL start. -/
def execThermalRecover (dt : Nat) (sense : PowerSense) (steps : List StepObs) (s : State) : Host.Outcome State Fault Refusal :=
  after dt s (fun t => t.thermalRecover sense steps)

/-- STORE (R469). A guarded BOOT.CMD STORE captures live configuration into the current copy in flash. -/
def execBootStore (dt : Nat) (src : Nat) (complement : Word) (ends : Option Bool)
    (s : State) : Host.Outcome State Fault Refusal :=
  afterIf (decide (src < 5)) dt s
    (fun t => (match ends with | none => t.guardedCmd src A.bootCmd 1 complement | some flashOk => t.storeEnds flashOk))

/-- CLEAR (R477). A guarded BOOT.CMD CLEAR zeroes attempt counts, failures and FAILED_STARTS. -/
def execBootClear (dt : Nat) (src : Nat) (complement : Word) (s : State) : Host.Outcome State Fault Refusal :=
  afterIf (decide (src < 5)) dt s (fun t => t.guardedCmd src A.bootCmd 2 complement)

/-- RETRAIN (R477). A guarded BOOT.CMD RETRAIN clears DDR_CONSERVATIVE. -/
def execBootRetrain (dt : Nat) (src : Nat) (complement : Word) (s : State) : Host.Outcome State Fault Refusal :=
  afterIf (decide (src < 5)) dt s (fun t => t.guardedCmd src A.bootCmd 3 complement)

/-- ALARM_CONDITION_CHANGE (R442). A selected alarm condition arising opens its contact within 20 ms. -/
def execAlarmConditionChange (dt : Nat) (s : State) : Host.Outcome State Fault Refusal :=
  after dt s (fun t => t.alarmChange)

/-- ALARM_CLOSE_TIMER (R442). One second after the last selected condition ends the alarm contact closes. -/
def execAlarmCloseTimer (dt : Nat) (contact : Nat) (s : State) : Host.Outcome State Fault Refusal :=
  afterIf (decide (contact < 2)) dt s (fun t => t.alarmClose contact)

/-- NO_SELECTION_TIMER (R442). REF.STATUS.SEL reading 0xFF for 2 s raises alarm condition bit 2. -/
def execNoSelectionTimer (dt : Nat) (s : State) : Host.Outcome State Fault Refusal :=
  after dt s (fun t => t.noSelection)

end Sys2Proof.Machine
end

