-- ==== Sys2Proof/Machine/CmdTags.lean ====
section
/-!
DEFINITION. The meanings of the commands: time tags and measurements.
-/

namespace Sys2Proof.Machine

/-- TAG_EDGE (R166). A selected edge on a channel is tagged or lost to dead time and stored subject to decimation. -/
def execTagEdge (dt : Nat) (chan : Nat) (rising : Bool) (sub cycles : Nat) (s : State) : Host.Outcome State Fault Refusal :=
  afterIf (decide (chan < 16)) dt s (fun t => t.tagEdge chan rising sub cycles)

/-- TAG_FORWARD (R168). Stored tag records are forwarded from the tag buffer into ring buffers as room allows. -/
def execTagForward (dt : Nat) (s : State) : Host.Outcome State Fault Refusal :=
  after dt s (fun t => t.forwardTags)

/-- MEAS_CLOSE (R171). An INTERVAL measurement closes at POST, TIMEOUT or its last stop. -/
def execMeasClose (dt : Nat) (prog : Nat) (s : State) : Host.Outcome State Fault Refusal :=
  afterIf (decide (prog < 8)) dt s (fun t => t.measClose prog)

/-- MEAS_GATE_CLOSE (R174). A FREQUENCY gate or PHASE grid range ends and its result is formed. -/
def execMeasGateClose (dt : Nat) (prog : Nat) (s : State) : Host.Outcome State Fault Refusal :=
  afterIf (decide (prog < 8)) dt s (fun t => t.measGateClose prog)

/-- MEAS_FORWARD (R176). Measurement records are forwarded to their ring as room allows. -/
def execMeasForward (dt : Nat) (s : State) : Host.Outcome State Fault Refusal :=
  after dt s (fun t => t.forwardMeas)

/-- CAL_BURST (R179). A calibration burst drives 64 pulses into eligible channels to measure skew. -/
def execCalBurst (dt : Nat) (skews : List (Nat × Int)) (s : State) : Host.Outcome State Fault Refusal :=
  after dt s (fun t => t.calBurst skews)

end Sys2Proof.Machine
end

