-- ==== Sys2Proof/Machine/CmdTimescale.lean ====
section
/-!
DEFINITION. The meanings of the commands: the calendar, the timescale and its steps.
-/

namespace Sys2Proof.Machine

/-- HOST_EVENT (R32). A host calendar entry fires, posts one event ring record and re-arms or is freed. -/
def execHostEvent (dt : Nat) (s : State) : Host.Outcome State Fault Refusal :=
  after dt s (fun t => (t.inOrder (ofAction 0x01)).fireHostEvent)

/-- SLU_APPLY (R372). The SLU calendar entry fires at a whole second or AT instant and applies the pending groups due there. -/
def execSluApply (dt : Nat) (s : State) : Host.Outcome State Fault Refusal :=
  after dt s (fun t => (t.inOrder (ofAction 0x10)).sluApply)

/-- OUT_EDGE (R29). An OUT_EDGE entry is dispatched 10 µs early and its output unit places the leading edge or realigns FREQ-OUT
to 1 ps. -/
def execOutEdge (dt : Nat) (output : Nat) (s : State) : Host.Outcome State Fault Refusal :=
  afterIf (decide (output < 6)) dt s
    (fun t => (t.inOrder (fun e => decide (e.action = 0x11) && decide (e.target = output))).outEdge output)

/-- PULSE_END (R26). An output pulse ends when its configured width has elapsed on the measurement scale. -/
def execPulseEnd (dt : Nat) (output : Nat) (s : State) : Host.Outcome State Fault Refusal :=
  afterIf (decide (output < 4)) dt s (fun t => t.pulseEnd output)

/-- PTP_SYNC (R259). A PTP_SYNC entry fires, books reserved slots for the Syncs or Delay_Req due and queues the Announces due. -/
def execPtpSync (dt : Nat) (s : State) : Host.Outcome State Fault Refusal :=
  after dt s (fun t => (t.inOrder (ofAction 0x12)).ptpSync)

/-- RCP_WINDOW (R276). The receipt window entry fires, closes the open window and opens the next. -/
def execRcpWindow (dt : Nat) (s : State) : Host.Outcome State Fault Refusal :=
  after dt s (fun t => (t.inOrder (ofAction 0x13)).rcpWindow)

/-- TAL_WINDOW (R494). The counter window entry fires, latches running totals and writes the tallies and header into the LAST
bank. -/
def execTalWindow (dt : Nat) (s : State) : Host.Outcome State Fault Refusal :=
  after dt s (fun t => (t.inOrder (ofAction 0x14)).talWindow)

/-- NTS_EPOCH (R243). The key-epoch entry fires and rotates the NTS master keys. -/
def execNtsEpoch (dt : Nat) (s : State) : Host.Outcome State Fault Refusal :=
  after dt s (fun t => (t.inOrder (ofAction 0x15)).ntsEpoch)

/-- LEAP (R50). A LEAP entry fires to mark announcement start, smear start, the leap or smear end. -/
def execLeap (dt : Nat) (s : State) : Host.Outcome State Fault Refusal :=
  after dt s (fun t => (t.inOrder (ofAction 0x16)).fireLeap)

/-- HIF_DB_POLL (R328). The doorbell poll entry fires and triggers a doorbell read of the enabled rings' lines. -/
def execHifDbPoll (dt : Nat) (s : State) : Host.Outcome State Fault Refusal :=
  after dt s (fun t => (t.inOrder (ofAction 0x18)).dbPoll)

/-- RADIUS_TICK (R51). Every 1 ms the radius is recomputed, slew and loop updated, and holdover frequency set. -/
def execRadiusTick (dt : Nat) (meas : TickMeas) (s : State) : Host.Outcome State Fault Refusal :=
  after dt s (fun t => (t.inOrder (ofAction 0x19)).radiusTick meas)

/-- TSC_STEP (R40). A scheduled step fires last at its instant and applies the whole-ns offset after checking the measured
offset. -/
def execTscStep (dt : Nat) (s : State) : Host.Outcome State Fault Refusal :=
  after dt s (fun t => (t.inOrder (ofAction 0x1F)).tscStep)

/-- STEP_APPROVE (R38). A guarded STEP_APPROVE with ACTION APPROVE naming the current SEQ schedules the pending step. -/
def execStepApprove (dt : Nat) (src seq : Nat) (complement : Word) (s : State) : Host.Outcome State Fault Refusal :=
  afterIf (decide (src < 5)) dt s (fun t => t.guardedCmd src A.tscStepApprove (word (seq % 256 + 0x100)) complement)

/-- STEP_APPROVE_SLEW (R38). A guarded STEP_APPROVE with ACTION SLEW naming the current SEQ removes the offset by slewing. -/
def execStepApproveSlew (dt : Nat) (src seq : Nat) (complement : Word) (s : State) : Host.Outcome State Fault Refusal :=
  afterIf (decide (src < 5)) dt s (fun t => t.guardedCmd src A.tscStepApprove (word (seq % 256 + 0x200)) complement)

/-- CAL_CREATE (R31). A TSC_CAL application with OP CREATE checks and creates a host calendar entry. -/
def execCalCreate (dt : Nat) (src : Nat) (cmd : Word) (words : List (Nat × Word)) (commit : Word)
    (s : State) : Host.Outcome State Fault Refusal :=
  afterIf (decide (src < 5)) dt s (fun t => t.groupCommand src 1 A.tscCalCmd 0 2 1 cmd words commit)

/-- CAL_CANCEL (R31). A TSC_CAL application with OP CANCEL checks and frees a host calendar entry. -/
def execCalCancel (dt : Nat) (src : Nat) (cmd : Word) (words : List (Nat × Word)) (commit : Word)
    (s : State) : Host.Outcome State Fault Refusal :=
  afterIf (decide (src < 5)) dt s (fun t => t.groupCommand src 1 A.tscCalCmd 0 2 2 cmd words commit)

/-- CAL_MODIFY (R59). A TSC_CAL application with OP MODIFY checks and changes a host entry at the application instant. -/
def execCalModify (dt : Nat) (src : Nat) (cmd : Word) (words : List (Nat × Word)) (commit : Word)
    (s : State) : Host.Outcome State Fault Refusal :=
  afterIf (decide (src < 5)) dt s (fun t => t.groupCommand src 1 A.tscCalCmd 0 2 3 cmd words commit)

/-- CAL_NONE (R31). A TSC_CAL application with OP 0b00 changes no entry but advances CAL_RESULT.SEQ. -/
def execCalNone (dt : Nat) (src : Nat) (cmd : Word) (words : List (Nat × Word)) (commit : Word)
    (s : State) : Host.Outcome State Fault Refusal :=
  afterIf (decide (src < 5)) dt s (fun t => t.groupCommand src 1 A.tscCalCmd 0 2 0 cmd words commit)

end Sys2Proof.Machine
end

