-- ==== Sys2Proof/Machine/Dispatch.lean ====
section
/-!
DEFINITION. The effect of a command on everything but the queue: one arm for each constructor of Instr, each a call of the
command's own meaning.
-/

namespace Sys2Proof.Machine

def exec (i : Instr) (s : State) : Host.Outcome State Fault Refusal :=
  match i with
  | .registerWrite dt src addr lanes => Sys2Proof.Machine.execRegisterWrite dt src addr lanes s
  | .crClearingRead dt src addr wide => Sys2Proof.Machine.execCrClearingRead dt src addr wide s
  | .sqAcknowledge dt src addr value => Sys2Proof.Machine.execSqAcknowledge dt src addr value s
  | .stageWrite dt src addr value => Sys2Proof.Machine.execStageWrite dt src addr value s
  | .lkWrite dt src addr value => Sys2Proof.Machine.execLkWrite dt src addr value s
  | .guardTimeout dt src => Sys2Proof.Machine.execGuardTimeout dt src s
  | .sluCommit dt src group value => Sys2Proof.Machine.execSluCommit dt src group value s
  | .sluCancel dt src group => Sys2Proof.Machine.execSluCancel dt src group s
  | .sluRevert dt src group => Sys2Proof.Machine.execSluRevert dt src group s
  | .flowAdopt dt link dir => Sys2Proof.Machine.execFlowAdopt dt link dir s
  | .addrApply dt => Sys2Proof.Machine.execAddrApply dt s
  | .parityScrub dt live staging pending => Sys2Proof.Machine.execParityScrub dt live staging pending s
  | .nowSecLoRead dt src => Sys2Proof.Machine.execNowSecLoRead dt src s
  | .hostEvent dt => Sys2Proof.Machine.execHostEvent dt s
  | .sluApply dt => Sys2Proof.Machine.execSluApply dt s
  | .outEdge dt output => Sys2Proof.Machine.execOutEdge dt output s
  | .pulseEnd dt output => Sys2Proof.Machine.execPulseEnd dt output s
  | .ptpSync dt => Sys2Proof.Machine.execPtpSync dt s
  | .rcpWindow dt => Sys2Proof.Machine.execRcpWindow dt s
  | .talWindow dt => Sys2Proof.Machine.execTalWindow dt s
  | .ntsEpoch dt => Sys2Proof.Machine.execNtsEpoch dt s
  | .leap dt => Sys2Proof.Machine.execLeap dt s
  | .hifDbPoll dt => Sys2Proof.Machine.execHifDbPoll dt s
  | .radiusTick dt meas => Sys2Proof.Machine.execRadiusTick dt meas s
  | .tscStep dt => Sys2Proof.Machine.execTscStep dt s
  | .qualTimeExpire dt ref => Sys2Proof.Machine.execQualTimeExpire dt ref s
  | .wtrExpire dt ref => Sys2Proof.Machine.execWtrExpire dt ref s
  | .distrustHoldExpire dt ref => Sys2Proof.Machine.execDistrustHoldExpire dt ref s
  | .prepareEnd dt => Sys2Proof.Machine.execPrepareEnd dt s
  | .refLossTimeout dt ref => Sys2Proof.Machine.execRefLossTimeout dt ref s
  | .refForce dt src value complement => Sys2Proof.Machine.execRefForce dt src value complement s
  | .clearDistrust dt src value complement => Sys2Proof.Machine.execClearDistrust dt src value complement s
  | .offsetLoRead dt src ref => Sys2Proof.Machine.execOffsetLoRead dt src ref s
  | .qcontactChange dt closed => Sys2Proof.Machine.execQcontactChange dt closed s
  | .todSentenceRx dt text framing => Sys2Proof.Machine.execTodSentenceRx dt text framing s
  | .stepApprove dt src seq complement => Sys2Proof.Machine.execStepApprove dt src seq complement s
  | .stepApproveSlew dt src seq complement => Sys2Proof.Machine.execStepApproveSlew dt src seq complement s
  | .calCreate dt src cmd words commit => Sys2Proof.Machine.execCalCreate dt src cmd words commit s
  | .calCancel dt src cmd words commit => Sys2Proof.Machine.execCalCancel dt src cmd words commit s
  | .calModify dt src cmd words commit => Sys2Proof.Machine.execCalModify dt src cmd words commit s
  | .calNone dt src cmd words commit => Sys2Proof.Machine.execCalNone dt src cmd words commit s
  | .cartLoss dt opened => Sys2Proof.Machine.execCartLoss dt opened s
  | .modelSample dt => Sys2Proof.Machine.execModelSample dt s
  | .modelFlashWrite dt => Sys2Proof.Machine.execModelFlashWrite dt s
  | .cartInsert dt => Sys2Proof.Machine.execCartInsert dt s
  | .cartRemove dt => Sys2Proof.Machine.execCartRemove dt s
  | .cartIdentified dt code rev serial block => Sys2Proof.Machine.execCartIdentified dt code rev serial block s
  | .cartIdTimeout dt => Sys2Proof.Machine.execCartIdTimeout dt s
  | .cartStatusPoll dt lock fault => Sys2Proof.Machine.execCartStatusPoll dt lock fault s
  | .cartWarmTimeout dt => Sys2Proof.Machine.execCartWarmTimeout dt s
  | .cartMeasDone dt => Sys2Proof.Machine.execCartMeasDone dt s
  | .cartOvercurrent dt => Sys2Proof.Machine.execCartOvercurrent dt s
  | .cartRelease dt src complement => Sys2Proof.Machine.execCartRelease dt src complement s
  | .cartPd2Off dt => Sys2Proof.Machine.execCartPd2Off dt s
  | .cartResume dt src complement => Sys2Proof.Machine.execCartResume dt src complement s
  | .cartForget dt src complement => Sys2Proof.Machine.execCartForget dt src complement s
  | .kaTick dt tempKeeper tempCart => Sys2Proof.Machine.execKaTick dt tempKeeper tempCart s
  | .kaGnssWake dt => Sys2Proof.Machine.execKaGnssWake dt s
  | .kaWakeEnd dt sky => Sys2Proof.Machine.execKaWakeEnd dt sky s
  | .gnssSolutionDone dt side sol => Sys2Proof.Machine.execGnssSolutionDone dt side sol s
  | .gnssAlarmClear dt side check => Sys2Proof.Machine.execGnssAlarmClear dt side check s
  | .gnssExclEnd dt side constellation key check => Sys2Proof.Machine.execGnssExclEnd dt side constellation key check s
  | .channelLossOfLock dt side chan => Sys2Proof.Machine.execChannelLossOfLock dt side chan s
  | .navRecord dt side msg => Sys2Proof.Machine.execNavRecord dt side msg s
  | .hotstartWrite dt => Sys2Proof.Machine.execHotstartWrite dt s
  | .surveyStart dt src cmd words commit => Sys2Proof.Machine.execSurveyStart dt src cmd words commit s
  | .surveyAbort dt src cmd words commit => Sys2Proof.Machine.execSurveyAbort dt src cmd words commit s
  | .surveyProgress dt side => Sys2Proof.Machine.execSurveyProgress dt side s
  | .surveyComplete dt side => Sys2Proof.Machine.execSurveyComplete dt side s
  | .surveyTimeout dt side => Sys2Proof.Machine.execSurveyTimeout dt side s
  | .posFix dt src cmd words commit => Sys2Proof.Machine.execPosFix dt src cmd words commit s
  | .posClear dt src cmd words commit => Sys2Proof.Machine.execPosClear dt src cmd words commit s
  | .snapArm dt src cmd words commit => Sys2Proof.Machine.execSnapArm dt src cmd words commit s
  | .snapAbort dt src cmd words commit => Sys2Proof.Machine.execSnapAbort dt src cmd words commit s
  | .snapTrigger dt => Sys2Proof.Machine.execSnapTrigger dt s
  | .snapCaptureEnd dt => Sys2Proof.Machine.execSnapCaptureEnd dt s
  | .replayStart dt src cmd words commit => Sys2Proof.Machine.execReplayStart dt src cmd words commit s
  | .replayStop dt src cmd words commit => Sys2Proof.Machine.execReplayStop dt src cmd words commit s
  | .replayEnd dt side => Sys2Proof.Machine.execReplayEnd dt side s
  | .clearExcl dt src cmd words commit => Sys2Proof.Machine.execClearExcl dt src cmd words commit s
  | .thetaLoRead dt src side => Sys2Proof.Machine.execThetaLoRead dt src side s
  | .rfiSpectrum dt side band obs => Sys2Proof.Machine.execRfiSpectrum dt side band obs s
  | .biasShort dt side ma => Sys2Proof.Machine.execBiasShort dt side ma s
  | .biasRetry dt side ma => Sys2Proof.Machine.execBiasRetry dt side ma s
  | .gnssFwLoad dt side startOk => Sys2Proof.Machine.execGnssFwLoad dt side startOk s
  | .tagEdge dt chan rising sub cycles => Sys2Proof.Machine.execTagEdge dt chan rising sub cycles s
  | .tagForward dt => Sys2Proof.Machine.execTagForward dt s
  | .measClose dt prog => Sys2Proof.Machine.execMeasClose dt prog s
  | .measGateClose dt prog => Sys2Proof.Machine.execMeasGateClose dt prog s
  | .measForward dt => Sys2Proof.Machine.execMeasForward dt s
  | .calBurst dt skews => Sys2Proof.Machine.execCalBurst dt skews s
  | .frameRx dt link phys => Sys2Proof.Machine.execFrameRx dt link phys s
  | .weirLow dt link occupancy => Sys2Proof.Machine.execWeirLow dt link occupancy s
  | .pauseRefresh dt link => Sys2Proof.Machine.execPauseRefresh dt link s
  | .pauseEffect dt link => Sys2Proof.Machine.execPauseEffect dt link s
  | .pauseHoldEnd dt link => Sys2Proof.Machine.execPauseHoldEnd dt link s
  | .pauseOverlimit dt link => Sys2Proof.Machine.execPauseOverlimit dt link s
  | .linkUp dt link rxDyn txDyn => Sys2Proof.Machine.execLinkUp dt link rxDyn txDyn s
  | .linkDown dt link lost => Sys2Proof.Machine.execLinkDown dt link lost s
  | .cageInsert dt cage responded ident pclass => Sys2Proof.Machine.execCageInsert dt cage responded ident pclass s
  | .cageRemove dt cage => Sys2Proof.Machine.execCageRemove dt cage s
  | .verifySend dt link => Sys2Proof.Machine.execVerifySend dt link s
  | .verifyResponse dt link => Sys2Proof.Machine.execVerifyResponse dt link s
  | .probeStart dt src link => Sys2Proof.Machine.execProbeStart dt src link s
  | .probeReturn dt link nonce captured => Sys2Proof.Machine.execProbeReturn dt link nonce captured s
  | .probeTimeout dt link => Sys2Proof.Machine.execProbeTimeout dt link s
  | .responseBook dt link => Sys2Proof.Machine.execResponseBook dt link s
  | .finalise dt link => Sys2Proof.Machine.execFinalise dt link s
  | .commitPoint dt link => Sys2Proof.Machine.execCommitPoint dt link s
  | .slotStart dt link => Sys2Proof.Machine.execSlotStart dt link s
  | .ageDrop dt link => Sys2Proof.Machine.execAgeDrop dt link s
  | .arpRequest dt => Sys2Proof.Machine.execArpRequest dt s
  | .neighborSolicitation dt => Sys2Proof.Machine.execNeighborSolicitation dt s
  | .exceptionFrame dt => Sys2Proof.Machine.execExceptionFrame dt s
  | .ntpRequest dt pipe => Sys2Proof.Machine.execNtpRequest dt pipe s
  | .ntsRequest dt pipe => Sys2Proof.Machine.execNtsRequest dt pipe s
  | .bucketMoveDone dt bucket => Sys2Proof.Machine.execBucketMoveDone dt bucket s
  | .clientQuery dt src cmd words commit => Sys2Proof.Machine.execClientQuery dt src cmd words commit s
  | .ntsRotateNow dt src complement => Sys2Proof.Machine.execNtsRotateNow dt src complement s
  | .ntsPurge dt src complement => Sys2Proof.Machine.execNtsPurge dt src complement s
  | .ntsKeyDrawn dt => Sys2Proof.Machine.execNtsKeyDrawn dt s
  | .keyDeferRetry dt => Sys2Proof.Machine.execKeyDeferRetry dt s
  | .mintJob dt mint => Sys2Proof.Machine.execMintJob dt mint s
  | .drain dt src pipe => Sys2Proof.Machine.execDrain dt src pipe s
  | .drainComplete dt pipe => Sys2Proof.Machine.execDrainComplete dt pipe s
  | .reload dt src pipe held => Sys2Proof.Machine.execReload dt src pipe held s
  | .reloadComplete dt pipe pass => Sys2Proof.Machine.execReloadComplete dt pipe pass s
  | .delayReqRx dt => Sys2Proof.Machine.execDelayReqRx dt s
  | .unicastRequestRx dt => Sys2Proof.Machine.execUnicastRequestRx dt s
  | .unicastCancelRx dt => Sys2Proof.Machine.execUnicastCancelRx dt s
  | .grantExpire dt => Sys2Proof.Machine.execGrantExpire dt s
  | .slaveMessageRx dt => Sys2Proof.Machine.execSlaveMessageRx dt s
  | .annTimeout dt slave => Sys2Proof.Machine.execAnnTimeout dt slave s
  | .slaveGrantRenew dt slave => Sys2Proof.Machine.execSlaveGrantRenew dt slave s
  | .esmcRx dt => Sys2Proof.Machine.execEsmcRx dt s
  | .etxelRequest dt pipe => Sys2Proof.Machine.execEtxelRequest dt pipe s
  | .roughtimeRequest dt pipe => Sys2Proof.Machine.execRoughtimeRequest dt pipe s
  | .sealDone dt => Sys2Proof.Machine.execSealDone dt s
  | .sealTimeout dt => Sys2Proof.Machine.execSealTimeout dt s
  | .receiptRelease dt => Sys2Proof.Machine.execReceiptRelease dt s
  | .onlineKeyExpire dt => Sys2Proof.Machine.execOnlineKeyExpire dt s
  | .rcpRotateNow dt src complement => Sys2Proof.Machine.execRcpRotateNow dt src complement s
  | .ltSlot dt src value => Sys2Proof.Machine.execLtSlot dt src value s
  | .ed25519Sign dt core => Sys2Proof.Machine.execEd25519Sign dt core s
  | .ed25519Verify dt core => Sys2Proof.Machine.execEd25519Verify dt core s
  | .ed448Sign dt core => Sys2Proof.Machine.execEd448Sign dt core s
  | .ed448Verify dt core => Sys2Proof.Machine.execEd448Verify dt core s
  | .x25519 dt core => Sys2Proof.Machine.execX25519 dt core s
  | .x448 dt core => Sys2Proof.Machine.execX448 dt core s
  | .ecdsaSign dt core => Sys2Proof.Machine.execEcdsaSign dt core s
  | .ecdsaVerify dt core => Sys2Proof.Machine.execEcdsaVerify dt core s
  | .ecdh dt core => Sys2Proof.Machine.execEcdh dt core s
  | .rsaPrivate dt core => Sys2Proof.Machine.execRsaPrivate dt core s
  | .rsaPublic dt core => Sys2Proof.Machine.execRsaPublic dt core s
  | .keygen dt core => Sys2Proof.Machine.execKeygen dt core s
  | .keyImport dt core => Sys2Proof.Machine.execKeyImport dt core s
  | .keyWipe dt => Sys2Proof.Machine.execKeyWipe dt s
  | .keyPublic dt => Sys2Proof.Machine.execKeyPublic dt s
  | .pkeDispatch dt core => Sys2Proof.Machine.execPkeDispatch dt core s
  | .pkeYield dt core => Sys2Proof.Machine.execPkeYield dt core s
  | .pkeJobAged dt => Sys2Proof.Machine.execPkeJobAged dt s
  | .pkeJobComplete dt core wiped => Sys2Proof.Machine.execPkeJobComplete dt core wiped s
  | .pkeAbort dt src tag complement => Sys2Proof.Machine.execPkeAbort dt src tag complement s
  | .keygenProgress dt core phase tested => Sys2Proof.Machine.execKeygenProgress dt core phase tested s
  | .drbgReseed dt => Sys2Proof.Machine.execDrbgReseed dt s
  | .trngSourceFail dt source repetition => Sys2Proof.Machine.execTrngSourceFail dt source repetition s
  | .trngSourceRetest dt source pass => Sys2Proof.Machine.execTrngSourceRetest dt source pass s
  | .fence dt src kind unit complement => Sys2Proof.Machine.execFence dt src kind unit complement s
  | .returnUnit dt src kind unit complement => Sys2Proof.Machine.execReturnUnit dt src kind unit complement s
  | .unitSelftestDone dt kind unit pass => Sys2Proof.Machine.execUnitSelftestDone dt kind unit pass s
  | .kick dt => Sys2Proof.Machine.execKick dt s
  | .doorbellReadDone dt words => Sys2Proof.Machine.execDoorbellReadDone dt words s
  | .hostFrameTx dt ring data => Sys2Proof.Machine.execHostFrameTx dt ring data s
  | .hostFrameTimeout dt => Sys2Proof.Machine.execHostFrameTimeout dt s
  | .recordFlush dt ring => Sys2Proof.Machine.execRecordFlush dt ring s
  | .xfer dt ring data readOk checked => Sys2Proof.Machine.execXfer dt ring data readOk checked s
  | .vectorTimer dt vector => Sys2Proof.Machine.execVectorTimer dt vector s
  | .blockEventCoalesce dt => Sys2Proof.Machine.execBlockEventCoalesce dt s
  | .ringQuiesced dt ring => Sys2Proof.Machine.execRingQuiesced dt ring s
  | .hostDetach dt cause => Sys2Proof.Machine.execHostDetach dt cause s
  | .pcieLinkUp dt speed width => Sys2Proof.Machine.execPcieLinkUp dt speed width s
  | .pcieRetrain dt => Sys2Proof.Machine.execPcieRetrain dt s
  | .journalFlashWrite dt => Sys2Proof.Machine.execJournalFlashWrite dt s
  | .sessionOpen dt fingerprint proof issuers notBefore notAfter => Sys2Proof.Machine.execSessionOpen dt fingerprint proof issuers notBefore notAfter s
  | .sessionIdle dt session => Sys2Proof.Machine.execSessionIdle dt session s
  | .sessionClosed dt session alert => Sys2Proof.Machine.execSessionClosed dt session alert s
  | .celenHello dt session type msg => Sys2Proof.Machine.execCelenHello dt session type msg s
  | .celenRead dt session msg => Sys2Proof.Machine.execCelenRead dt session msg s
  | .celenWrite dt session msg => Sys2Proof.Machine.execCelenWrite dt session msg s
  | .celenRead64 dt session msg => Sys2Proof.Machine.execCelenRead64 dt session msg s
  | .celenSubscribe dt session msg => Sys2Proof.Machine.execCelenSubscribe dt session msg s
  | .celenUnsubscribe dt session msg => Sys2Proof.Machine.execCelenUnsubscribe dt session msg s
  | .journalRead dt session msg => Sys2Proof.Machine.execJournalRead dt session msg s
  | .celenStage dt session msg checked => Sys2Proof.Machine.execCelenStage dt session msg checked s
  | .celenNet dt session msg => Sys2Proof.Machine.execCelenNet dt session msg s
  | .celenTrust dt session msg => Sys2Proof.Machine.execCelenTrust dt session msg s
  | .celenBye dt session msg => Sys2Proof.Machine.execCelenBye dt session msg s
  | .inputQualified dt input sense => Sys2Proof.Machine.execInputQualified dt input sense s
  | .inputLost dt input sense => Sys2Proof.Machine.execInputLost dt input sense s
  | .mainPowerLost dt => Sys2Proof.Machine.execMainPowerLost dt s
  | .kaLost dt => Sys2Proof.Machine.execKaLost dt s
  | .powerStart dt steps => Sys2Proof.Machine.execPowerStart dt steps s
  | .stepTimeout dt steps => Sys2Proof.Machine.execStepTimeout dt steps s
  | .safeHoldRetry dt steps => Sys2Proof.Machine.execSafeHoldRetry dt steps s
  | .stabilityReached dt => Sys2Proof.Machine.execStabilityReached dt s
  | .resetFull dt src complement acts => Sys2Proof.Machine.execResetFull dt src complement acts s
  | .resetMgmt dt src complement ends => Sys2Proof.Machine.execResetMgmt dt src complement ends s
  | .watchdog dt ends => Sys2Proof.Machine.execWatchdog dt ends s
  | .supervisorSilent dt steps => Sys2Proof.Machine.execSupervisorSilent dt steps s
  | .thermWarn dt sense => Sys2Proof.Machine.execThermWarn dt sense s
  | .thermalHold dt sense => Sys2Proof.Machine.execThermalHold dt sense s
  | .thermalRecover dt sense steps => Sys2Proof.Machine.execThermalRecover dt sense steps s
  | .bootStore dt src complement ends => Sys2Proof.Machine.execBootStore dt src complement ends s
  | .bootClear dt src complement => Sys2Proof.Machine.execBootClear dt src complement s
  | .bootRetrain dt src complement => Sys2Proof.Machine.execBootRetrain dt src complement s
  | .alarmConditionChange dt => Sys2Proof.Machine.execAlarmConditionChange dt s
  | .alarmCloseTimer dt contact => Sys2Proof.Machine.execAlarmCloseTimer dt contact s
  | .noSelectionTimer dt => Sys2Proof.Machine.execNoSelectionTimer dt s
  | .casLinkTick dt => Sys2Proof.Machine.execCasLinkTick dt s
  | .linkFrameRx dt lane frame ago fecUncorr => Sys2Proof.Machine.execLinkFrameRx dt lane frame ago fecUncorr s
  | .opReqRx dt lane frame => Sys2Proof.Machine.execOpReqRx dt lane frame s
  | .opRx dt lane frame => Sys2Proof.Machine.execOpRx dt lane frame s
  | .casBarrier dt => Sys2Proof.Machine.execCasBarrier dt s
  | .casBroadcast dt => Sys2Proof.Machine.execCasBroadcast dt s
  | .casSnapshot dt => Sys2Proof.Machine.execCasSnapshot dt s
  | .serviceReset dt => Sys2Proof.Machine.execServiceReset dt s
  | .resultRx dt lane frame => Sys2Proof.Machine.execResultRx dt lane frame s
  | .resultDeadline dt => Sys2Proof.Machine.execResultDeadline dt s
  | .doneRx dt lane frame => Sys2Proof.Machine.execDoneRx dt lane frame s
  | .requestTimeout dt => Sys2Proof.Machine.execRequestTimeout dt s
  | .thetaLoLaneRead dt src lane => Sys2Proof.Machine.execThetaLoLaneRead dt src lane s
  | .opResult0Read dt src => Sys2Proof.Machine.execOpResult0Read dt src s
  | .tallySel dt src value => Sys2Proof.Machine.execTallySel dt src value s
  | .stolenClear dt src word value => Sys2Proof.Machine.execStolenClear dt src word value s
  | .sampleIndex dt src value => Sys2Proof.Machine.execSampleIndex dt src value s
  | .grantUnicastTransmissionRx dt => Sys2Proof.Machine.execGrantUnicastTransmissionRx dt s
  | .preemptableFrameSent dt link last => Sys2Proof.Machine.execPreemptableFrameSent dt link last s
  | .signalAcquired dt side chan cn0 state => Sys2Proof.Machine.execSignalAcquired dt side chan cn0 state s
  | .keeperFault dt => Sys2Proof.Machine.execKeeperFault dt s

end Sys2Proof.Machine
end

