-- ==== Sys2Proof/Safety.lean ====
section
/-!
DEFINITION. What counts as a safe run: no step stops, and the storage of registers, staging, pending copies and running totals
keeps its canonical form, so that equal contents are equal data.
-/

namespace Sys2Proof.Machine

/-- The canonical form of the sparse storage (registers, staging, pending copies, running totals, snapshot region, client
table): keys strictly rising, no entry equal to what an unlisted key reads as. The calendar's entries stand in the order of their
indices, each once. -/
def State.canonical (s : State) : Bool :=
  CellList.wf resetOf s.regs && CellList.wf resetOf s.stage && CellList.wf resetOf s.pendRegs &&
  CellList.wf (fun _ => 0) s.totals && CellList.wf (snapByte s.gnss.snapBase) s.gnss.snapMem &&
  CellList.wf (fun _ => ClientRec.empty) s.hrc.table && CellList.rising s.ts.calendar

/-- A run of `n` steps stops nowhere. -/
def State.runs (s : State) (n : Nat) : Prop := ∃ t, Sys2Proof.core.run n s = .next t

/-- A command completes: it answers a next state, and that state has a property. -/
def Completes (c : Instr) (s : State) (p : State → Prop) : Prop := ∃ t, exec c s = .next t ∧ p t

/-- A source writes registers without disturbing anything: it exists, has its view in the state, and has no guarded pair open
(R365). -/
abbrev State.clearSource (s : State) (src : Nat) : Prop := src < 5 ∧ src < s.sources.length ∧ (s.view (srcOf src)).pair = none

/-- A guarded register takes a source's pair (R365, R366): no older pair is open, the register's domain is on, the second word is
the complement of the first, and the register accepts the value. -/
abbrev State.takesPair (s : State) (src x : Nat) (v c : Word) : Prop :=
  s.clearSource src ∧ s.domainOn (domainOf x) = true ∧ c = ~~~v ∧ s.guardOk x v = true

/-- The words that a command of several registers commits when it stages none but its own: the command's word with its field
set, every other word of the group as it is staged. -/
def State.commandWords (s : State) (x lo n op : Nat) (w : Word) (a : Nat) : Word :=
  if a = x then putFld w lo n op else s.rdStage a

/-- A plain COMMIT of a group is carried out at once (R371 to R373): nothing of the group waits or is faulty, its domain and that
of the sluice are on, its boundary is NOW, and its block's check passes on the words `w`. -/
abbrev State.takesCommit (s : State) (src g : Nat) (w : Nat → Word) : Prop :=
  s.clearSource src ∧ g < s.groups.length ∧ s.domainOn 15 = true ∧ s.domainOn (groupDomain g) = true ∧ groupBoundary g = 0 ∧
  (s.group g).pend = none ∧ (s.group g).stageParity = [] ∧ s.groupDraining g = false ∧ checkGroup s g w = none

/-- The parts of the state that the frames of the commands name: its fields, the timescale without the passage of time, and the
queue of commands. -/
inductive Part
  | regs | stage | pendRegs | groups | sources | latched | faultRead | totals | msix | journal | celen | ts | hif
  | refs | hol | gnss | ttu | ports | hrc | nts | ptp | pke | rcp | tal | cas | pwr | boot | fw | fences | testing
  | out | fresh | queue
  deriving DecidableEq, Repr

/-- Two states agree on a part. -/
def Part.same (s t : State) : Part → Prop
  | .regs => t.regs = s.regs
  | .stage => t.stage = s.stage
  | .pendRegs => t.pendRegs = s.pendRegs
  | .groups => t.groups = s.groups
  | .sources => t.sources = s.sources
  | .latched => t.latched = s.latched
  | .faultRead => t.faultRead = s.faultRead
  | .totals => t.totals = s.totals
  | .msix => t.msix = s.msix
  | .journal => t.journal = s.journal
  | .celen => t.celen = s.celen
  | .ts => { t.ts with acc := s.ts.acc, steer := s.ts.steer, meas := s.ts.meas, cycles := s.ts.cycles } = s.ts
  | .hif => t.hif = s.hif
  | .refs => t.refs = s.refs
  | .hol => t.hol = s.hol
  | .gnss => t.gnss = s.gnss
  | .ttu => t.ttu = s.ttu
  | .ports => t.ports = s.ports
  | .hrc => t.hrc = s.hrc
  | .nts => t.nts = s.nts
  | .ptp => t.ptp = s.ptp
  | .pke => t.pke = s.pke
  | .rcp => t.rcp = s.rcp
  | .tal => t.tal = s.tal
  | .cas => t.cas = s.cas
  | .pwr => t.pwr = s.pwr
  | .boot => t.boot = s.boot
  | .fw => t.fw = s.fw
  | .fences => t.fences = s.fences
  | .testing => t.testing = s.testing
  | .out => t.out = s.out
  | .fresh => t.fresh = s.fresh
  | .queue => t.pending = s.pending

/-- Whatever a command answers next differs from the state it found in the named parts alone; time passes in every case. -/
def ChangesOnly (c : Instr) (l : List Part) : Prop := ∀ s t p, exec c s = .next t → p ∉ l → p.same s t

/-- Whatever a command answers next holds in every register what the state it found held, but for the registers `l k`, `k` any
number: the command's own register, or every register of an array. -/
def WritesOnly (c : Instr) (l : Nat → List Nat) : Prop :=
  ∀ s t a, s.canonical = true → exec c s = .next t → (∀ k, a ∉ l k) → t.rd a = s.rd a

/-- The same against the state `b s`: time has passed, and the calendar's entries that are due before the command have fired
(R27, R30). -/
def ChangesAfter (b : State → State) (c : Instr) (l : List Part) : Prop := ∀ s t p, exec c s = .next t → p ∉ l → p.same (b s) t

/-- And for registers. -/
def WritesAfter (b : State → State) (c : Instr) (l : Nat → List Nat) : Prop :=
  ∀ s t a, s.canonical = true → exec c s = .next t → (∀ k, a ∉ l k) → t.rd a = (b s).rd a

/-- Every address from `lo` to below `hi`, for `k` any number: a block of registers (R390). -/
abbrev span (lo hi k : Nat) : Nat := lo + k % (hi - lo)

/-- The registers that posting on a ring writes (R331). -/
abbrev ringWords (k : Nat) : List Nat := [A.hifRingPosted k, A.hifRingState k]

/-- The registers that reporting an event writes beside the event's own (R332, R342, R349). -/
abbrev reportWords (k : Nat) : List Nat := [A.hifEvent, A.hifEvtDrop, A.hifRingPosted (k % 256)]

/-- The registers that an audit journal record writes (R387 to R389). -/
abbrev journalWords (k : Nat) : List Nat := [A.glbJournalSeq, A.glbJournalLost, A.glbEvent] ++ reportWords k

/-- The registers that a logged fault writes (R397 to R399). -/
abbrev faultWords (k : Nat) : List Nat := [A.glbFaultSeq, A.glbFaultOverwrite, 0x1000 + 4 * (k % 512)] ++ journalWords k

/-- A state differs from another in the named parts alone, and in the registers `l k`, `k` any number, alone. -/
def State.keeps (u t : State) (ps : List Part) (l : Nat → List Nat) : Prop :=
  (∀ p, p ∉ ps → p.same u t) ∧ ∀ a, (∀ k, a ∉ l k) → t.rd a = u.rd a

/-- The calendar after an entry has fired (R28): a last firing frees the entry, any other re-arms it. -/
def State.calendarAfter (s : State) (i : Nat) (e : CalEntry) : Cells CalEntry :=
  if e.count = 1 ∨ e.period = 0 then CellList.erase i s.ts.calendar
  else CellList.insert i { e with
    atNs := e.next, count := e.count - 1, late := s.isLate e, skipped := e.skipAt.isSome, skipAt := none } s.ts.calendar

end Sys2Proof.Machine
end

