-- ==== Sys2Proof/WellFormed.lean ====
section
/-!
DEFINITION. Well-formed commands: every unit that a command names exists (a source is the host or one of four sessions, a link one
of eight, and so on). The model stops on any other by name (Fault.noSuchUnit).
-/

namespace Sys2Proof

/-- The units a command names exist. -/
def Instr.wf (i : Instr) : Bool :=
  match i with
  | .registerWrite _ src _ _ => decide (src < 5)
  | .crClearingRead _ src _ _ => decide (src < 5)
  | .sqAcknowledge _ src _ _ => decide (src < 5)
  | .stageWrite _ src _ _ => decide (src < 5)
  | .lkWrite _ src _ _ => decide (src < 5)
  | .guardTimeout _ src => decide (src < 5)
  | .sluCommit _ src group _ => decide (src < 5) && decide (group < 64)
  | .sluCancel _ src group => decide (src < 5) && decide (group < 64)
  | .sluRevert _ src group => decide (src < 5) && decide (group < 64)
  | .flowAdopt _ link dir => decide (link < 8) && decide (dir < 2)
  | .addrApply _ => true
  | .parityScrub _ _ _ _ => true
  | .nowSecLoRead _ src => decide (src < 5)
  | .hostEvent _ => true
  | .sluApply _ => true
  | .outEdge _ output => decide (output < 6)
  | .pulseEnd _ output => decide (output < 4)
  | .ptpSync _ => true
  | .rcpWindow _ => true
  | .talWindow _ => true
  | .ntsEpoch _ => true
  | .leap _ => true
  | .hifDbPoll _ => true
  | .radiusTick _ _ => true
  | .tscStep _ => true
  | .qualTimeExpire _ ref => decide (ref < 14)
  | .wtrExpire _ ref => decide (ref < 14)
  | .distrustHoldExpire _ ref => decide (ref < 14)
  | .prepareEnd _ => true
  | .refLossTimeout _ ref => decide (ref < 14)
  | .refForce _ src _ _ => decide (src < 5)
  | .clearDistrust _ src _ _ => decide (src < 5)
  | .offsetLoRead _ src ref => decide (src < 5) && decide (ref < 14)
  | .qcontactChange _ _ => true
  | .todSentenceRx _ _ _ => true
  | .stepApprove _ src _ _ => decide (src < 5)
  | .stepApproveSlew _ src _ _ => decide (src < 5)
  | .calCreate _ src _ _ _ => decide (src < 5)
  | .calCancel _ src _ _ _ => decide (src < 5)
  | .calModify _ src _ _ _ => decide (src < 5)
  | .calNone _ src _ _ _ => decide (src < 5)
  | .cartLoss _ _ => true
  | .modelSample _ => true
  | .modelFlashWrite _ => true
  | .cartInsert _ => true
  | .cartRemove _ => true
  | .cartIdentified _ _ _ _ _ => true
  | .cartIdTimeout _ => true
  | .cartStatusPoll _ _ _ => true
  | .cartWarmTimeout _ => true
  | .cartMeasDone _ => true
  | .cartOvercurrent _ => true
  | .cartRelease _ src _ => decide (src < 5)
  | .cartPd2Off _ => true
  | .cartResume _ src _ => decide (src < 5)
  | .cartForget _ src _ => decide (src < 5)
  | .kaTick _ _ _ => true
  | .kaGnssWake _ => true
  | .kaWakeEnd _ _ => true
  | .gnssSolutionDone _ side _ => decide (side < 2)
  | .gnssAlarmClear _ side _ => decide (side < 2)
  | .gnssExclEnd _ side _ _ _ => decide (side < 2)
  | .channelLossOfLock _ side chan => decide (side < 2) && decide (chan < 160)
  | .navRecord _ side _ => decide (side < 2)
  | .hotstartWrite _ => true
  | .surveyStart _ src _ _ _ => decide (src < 5)
  | .surveyAbort _ src _ _ _ => decide (src < 5)
  | .surveyProgress _ side => decide (side < 2)
  | .surveyComplete _ side => decide (side < 2)
  | .surveyTimeout _ side => decide (side < 2)
  | .posFix _ src _ _ _ => decide (src < 5)
  | .posClear _ src _ _ _ => decide (src < 5)
  | .snapArm _ src _ _ _ => decide (src < 5)
  | .snapAbort _ src _ _ _ => decide (src < 5)
  | .snapTrigger _ => true
  | .snapCaptureEnd _ => true
  | .replayStart _ src _ _ _ => decide (src < 5)
  | .replayStop _ src _ _ _ => decide (src < 5)
  | .replayEnd _ side => decide (side < 2)
  | .clearExcl _ src _ _ _ => decide (src < 5)
  | .thetaLoRead _ src side => decide (src < 5) && decide (side < 2)
  | .rfiSpectrum _ side band _ => decide (side < 2) && decide (band < 2)
  | .biasShort _ side _ => decide (side < 2)
  | .biasRetry _ side _ => decide (side < 2)
  | .gnssFwLoad _ side _ => decide (side < 2)
  | .tagEdge _ chan _ _ _ => decide (chan < 16)
  | .tagForward _ => true
  | .measClose _ prog => decide (prog < 8)
  | .measGateClose _ prog => decide (prog < 8)
  | .measForward _ => true
  | .calBurst _ _ => true
  | .frameRx _ link _ => decide (link < 8)
  | .weirLow _ link _ => decide (link < 8)
  | .pauseRefresh _ link => decide (link < 8)
  | .pauseEffect _ link => decide (link < 8)
  | .pauseHoldEnd _ link => decide (link < 8)
  | .pauseOverlimit _ link => decide (link < 8)
  | .linkUp _ link _ _ => decide (link < 16)
  | .linkDown _ link _ => decide (link < 16)
  | .cageInsert _ cage _ _ _ => decide (cage < 4)
  | .cageRemove _ cage => decide (cage < 4)
  | .verifySend _ link => decide (link < 8)
  | .verifyResponse _ link => decide (link < 8)
  | .probeStart _ src link => decide (src < 5) && decide (link < 8)
  | .probeReturn _ link _ _ => decide (link < 8)
  | .probeTimeout _ link => decide (link < 8)
  | .responseBook _ link => decide (link < 8)
  | .finalise _ link => decide (link < 16)
  | .commitPoint _ link => decide (link < 16)
  | .slotStart _ link => decide (link < 16)
  | .ageDrop _ link => decide (link < 8)
  | .arpRequest _ => true
  | .neighborSolicitation _ => true
  | .exceptionFrame _ => true
  | .ntpRequest _ pipe => decide (pipe < 16)
  | .ntsRequest _ pipe => decide (pipe < 16)
  | .bucketMoveDone _ bucket => decide (bucket < 256)
  | .clientQuery _ src _ _ _ => decide (src < 5)
  | .ntsRotateNow _ src _ => decide (src < 5)
  | .ntsPurge _ src _ => decide (src < 5)
  | .ntsKeyDrawn _ => true
  | .keyDeferRetry _ => true
  | .mintJob _ _ => true
  | .drain _ src pipe => decide (src < 5) && decide (pipe < 16)
  | .drainComplete _ pipe => decide (pipe < 16)
  | .reload _ src pipe _ => decide (src < 5) && decide (pipe < 16)
  | .reloadComplete _ pipe _ => decide (pipe < 16)
  | .delayReqRx _ => true
  | .unicastRequestRx _ => true
  | .unicastCancelRx _ => true
  | .grantExpire _ => true
  | .slaveMessageRx _ => true
  | .annTimeout _ slave => decide (slave < 2)
  | .slaveGrantRenew _ slave => decide (slave < 2)
  | .esmcRx _ => true
  | .etxelRequest _ pipe => decide (pipe < 16)
  | .roughtimeRequest _ pipe => decide (pipe < 16)
  | .sealDone _ => true
  | .sealTimeout _ => true
  | .receiptRelease _ => true
  | .onlineKeyExpire _ => true
  | .rcpRotateNow _ src _ => decide (src < 5)
  | .ltSlot _ src _ => decide (src < 5)
  | .ed25519Sign _ core => decide (core < 16)
  | .ed25519Verify _ core => decide (core < 16)
  | .ed448Sign _ core => decide (core < 16)
  | .ed448Verify _ core => decide (core < 16)
  | .x25519 _ core => decide (core < 16)
  | .x448 _ core => decide (core < 16)
  | .ecdsaSign _ core => decide (core < 16)
  | .ecdsaVerify _ core => decide (core < 16)
  | .ecdh _ core => decide (core < 16)
  | .rsaPrivate _ core => decide (core < 16)
  | .rsaPublic _ core => decide (core < 16)
  | .keygen _ core => decide (core < 16)
  | .keyImport _ core => decide (core < 16)
  | .keyWipe _ => true
  | .keyPublic _ => true
  | .pkeDispatch _ core => decide (core < 16)
  | .pkeYield _ core => decide (core < 16)
  | .pkeJobAged _ => true
  | .pkeJobComplete _ core _ => decide (core < 16)
  | .pkeAbort _ src _ _ => decide (src < 5)
  | .keygenProgress _ core _ _ => decide (core < 16)
  | .drbgReseed _ => true
  | .trngSourceFail _ source _ => decide (source < 8)
  | .trngSourceRetest _ source _ => decide (source < 8)
  | .fence _ src _ _ _ => decide (src < 5)
  | .returnUnit _ src _ _ _ => decide (src < 5)
  | .unitSelftestDone _ _ _ _ => true
  | .kick _ => true
  | .doorbellReadDone _ _ => true
  | .hostFrameTx _ ring _ => decide (ring < 256)
  | .hostFrameTimeout _ => true
  | .recordFlush _ ring => decide (ring < 256)
  | .xfer _ ring _ _ _ => decide (ring < 256)
  | .vectorTimer _ vector => decide (vector < 64)
  | .blockEventCoalesce _ => true
  | .ringQuiesced _ ring => decide (ring < 256)
  | .hostDetach _ cause => decide (cause < 5)
  | .pcieLinkUp _ _ _ => true
  | .pcieRetrain _ => true
  | .journalFlashWrite _ => true
  | .sessionOpen _ _ _ _ _ _ => true
  | .sessionIdle _ session => decide (1 ≤ session) && decide (session < 5)
  | .sessionClosed _ session _ => decide (1 ≤ session) && decide (session < 5)
  | .celenHello _ session _ _ => decide (1 ≤ session) && decide (session < 5)
  | .celenRead _ session _ => decide (1 ≤ session) && decide (session < 5)
  | .celenWrite _ session _ => decide (1 ≤ session) && decide (session < 5)
  | .celenRead64 _ session _ => decide (1 ≤ session) && decide (session < 5)
  | .celenSubscribe _ session _ => decide (1 ≤ session) && decide (session < 5)
  | .celenUnsubscribe _ session _ => decide (1 ≤ session) && decide (session < 5)
  | .journalRead _ session _ => decide (1 ≤ session) && decide (session < 5)
  | .celenStage _ session _ _ => decide (1 ≤ session) && decide (session < 5)
  | .celenNet _ session _ => decide (1 ≤ session) && decide (session < 5)
  | .celenTrust _ session _ => decide (1 ≤ session) && decide (session < 5)
  | .celenBye _ session _ => decide (1 ≤ session) && decide (session < 5)
  | .inputQualified _ input _ => decide (input < 4)
  | .inputLost _ input _ => decide (input < 4)
  | .mainPowerLost _ => true
  | .kaLost _ => true
  | .powerStart _ _ => true
  | .stepTimeout _ _ => true
  | .safeHoldRetry _ _ => true
  | .stabilityReached _ => true
  | .resetFull _ src _ _ => decide (src < 5)
  | .resetMgmt _ src _ _ => decide (src < 5)
  | .watchdog _ _ => true
  | .supervisorSilent _ _ => true
  | .thermWarn _ _ => true
  | .thermalHold _ _ => true
  | .thermalRecover _ _ _ => true
  | .bootStore _ src _ _ => decide (src < 5)
  | .bootClear _ src _ => decide (src < 5)
  | .bootRetrain _ src _ => decide (src < 5)
  | .alarmConditionChange _ => true
  | .alarmCloseTimer _ contact => decide (contact < 2)
  | .noSelectionTimer _ => true
  | .casLinkTick _ => true
  | .linkFrameRx _ lane _ _ _ => decide (lane < 8)
  | .opReqRx _ lane _ => decide (lane < 8)
  | .opRx _ lane _ => decide (lane < 8)
  | .casBarrier _ => true
  | .casBroadcast _ => true
  | .casSnapshot _ => true
  | .serviceReset _ => true
  | .resultRx _ lane _ => decide (lane < 8)
  | .resultDeadline _ => true
  | .doneRx _ lane _ => decide (lane < 8)
  | .requestTimeout _ => true
  | .thetaLoLaneRead _ src lane => decide (src < 5) && decide (lane < 8)
  | .opResult0Read _ src => decide (src < 5)
  | .tallySel _ src _ => decide (src < 5)
  | .stolenClear _ src word _ => decide (src < 5) && decide (word < 2)
  | .sampleIndex _ src _ => decide (src < 5)
  | .grantUnicastTransmissionRx _ => true
  | .preemptableFrameSent _ link _ => decide (link < 8)
  | .signalAcquired _ side chan _ _ => decide (side < 2) && decide (chan < 160)
  | .keeperFault _ => true

end Sys2Proof
end

