-- ==== Sys2Proof/Certificates/Slice0/Obligations.lean ====
section
/-!
DEFINITION. The statements for the provers: every clause says that a command completes, under hypotheses on the state and the
operands alone, and what the state it answers holds; `s` is the state before the command, `u` the same state after the passage of
`dt` fabric cycles.
-/

open Sys2Proof Sys2Proof.Machine

/-- Register accesses complete: R353, R354, R363, R367, R369. -/
def Obligations.RegisterAccessesComplete : Prop :=
  (∀ (s u : State) (dt src addr g : Nat) (v : Word), s.canonical = true → u = (s.advance dt).dueFirst →
    src < 5 →
    groupOf addr = some g →
    Completes (.registerWrite dt src addr [(15, v)]) s (fun t => t.rdStage addr = v ∧ t.f (A.sluGroupStatus g) 24 8 = (u.f (A.sluGroupStatus g) 24 8 + 1) % 256)) ∧
  (∀ (s u : State) (dt src addr g : Nat) (v : Word), s.canonical = true → u = (s.advance dt).dueFirst →
    src < 5 →
    groupOf addr = some g →
    Completes (.stageWrite dt src addr v) s (fun t => t.rdStage addr = v ∧ t.f (A.sluGroupStatus g) 24 8 = (u.f (A.sluGroupStatus g) 24 8 + 1) % 256)) ∧
  (∀ (s u : State) (dt src addr : Nat) (r : RegRow), s.canonical = true → u = s.advance dt →
    src < 5 →
    rowOf addr = some r →
    r.kind = .cr →
    r.pair = false →
    u.domainOn (domainOf addr) = true →
    Completes (.crClearingRead dt src addr false) s (fun t => t.rd addr = 0)) ∧
  (∀ (s u : State) (dt src addr : Nat) (r : RegRow) (v : Word), s.canonical = true → u = (s.advance dt).dueFirst →
    u.clearSource src →
    rowOf addr = some r →
    r.kind = .sq →
    u.domainOn (domainOf addr) = true →
    fld v 24 8 = u.f addr 24 8 →
    (v ^^^ u.rd addr) &&& BitVec.ofNat 32 r.rv = 0 →
    Completes (.sqAcknowledge dt src addr v) s (fun t => ∀ i, i < 16 → (BitVec.ofNat 32 r.rv).getLsbD i = false → t.bit addr i = (u.bit addr i && !bitOf v i))) ∧
  (∀ (s u : State) (dt src addr : Nat) (r : RegRow) (v : Word), s.canonical = true → u = (s.advance dt).dueFirst →
    u.clearSource src →
    rowOf addr = some r →
    r.kind = .lk →
    u.latched.contains addr = false →
    u.domainOn (domainOf addr) = true →
    Completes (.lkWrite dt src addr v) s (fun t => t.rd addr = v ∧ t.latched.contains addr = true))

/-- The sluice: R371 to R378; R216 and R230 for the boundaries that wait; R365 for the guard timer. -/
def Obligations.SluiceCommandsComplete : Prop :=
  (∀ (s u : State) (dt src g : Nat) (v : Word), s.canonical = true → u = (s.advance dt).dueFirst →
    u.clearSource src →
    g < 35 →
    2 ≤ groupBoundary g →
    u.domainOn 15 = true →
    u.commitRefusal g (putFld v 0 2 1) = none →
    Completes (.sluCommit dt src g v) s (fun t => t.f (A.sluGroupStatus g) 0 3 = 1 ∧ ∀ a ∈ groupWords g, t.rdPend a = u.rdStage a)) ∧
  (∀ (s u : State) (dt src g : Nat) (c : Commit), s.canonical = true → u = (s.advance dt).dueFirst →
    u.clearSource src →
    g < 35 →
    u.domainOn 15 = true →
    (u.group g).pend = some c →
    Completes (.sluCancel dt src g) s (fun t => t.f (A.sluGroupStatus g) 0 3 = 5 ∧ (t.group g).pend = none)) ∧
  (∀ (s u : State) (dt src g : Nat), s.canonical = true → u = (s.advance dt).dueFirst →
    u.clearSource src →
    g < 35 →
    u.domainOn 15 = true →
    Completes (.sluRevert dt src g) s (fun t => ∀ a ∈ groupWords g, t.rdStage a = u.rd a)) ∧
  (∀ (s u : State) (dt link dir : Nat), s.canonical = true → u = s.advance dt →
    link < 8 →
    dir < 2 →
    (u.complex (link / 4)).flowWait.contains (2 * (link % 4) + dir) = true →
    (u.group 11).pend = none →
    (u.group 14).pend = none →
    Completes (.flowAdopt dt link dir) s (fun t => (t.complex (link / 4)).flowWait.contains (2 * (link % 4) + dir) = false)) ∧
  (∀ (s u : State) (dt : Nat) (c : Commit), s.canonical = true → u = s.advance dt →
    (u.group 16).pend = some c →
    c.draining = true →
    u.genBusy = false →
    (u.group 16).pendParity = false →
    (u.group 16).stageParity = [] →
    checkHrcAddr u.rdPend = none →
    u.domainOn 12 = true →
    Completes (.addrApply dt) s (fun t => t.f (A.sluGroupStatus 16) 0 3 = 2 ∧ (t.group 16).pend = none)) ∧
  (∀ (s u : State) (dt a g : Nat), s.canonical = true → u = s.advance dt →
    u.scrubAt ≤ u.ts.meas →
    groupOf a = some g →
    (u.group g).stageParity.contains a = false →
    Completes (.parityScrub dt [] [a] []) s (fun t => t.f A.glbFaultSeq 0 32 = (u.f A.glbFaultSeq 0 32 + 1) % 2 ^ 32)) ∧
  (∀ (s u : State) (dt src : Nat) (p : OpenPair), s.canonical = true → u = s.advance dt →
    src < 5 →
    (u.view (srcOf src)).pair = some p →
    p.expired u.ts.meas = true →
    Completes (.guardTimeout dt src) s (fun t => (t.view (srcOf src)).pair = none))

/-- The latching reads: R23, R99, R158, R430, R431. -/
def Obligations.LatchingReadsComplete : Prop :=
  (∀ (s u : State) (dt src : Nat), s.canonical = true → u = s.advance dt →
    src < 5 →
    u.domainOn 7 = true →
    Completes (.nowSecLoRead dt src) s (fun t => t.rd A.tscNowSecLo = word (tai96 u.stamp >>> 48) ∧ t.rd A.tscNowSecHi = word (tai96 u.stamp >>> 80) ∧ t.rd A.tscNowNs = word (tai96 u.stamp >>> 16) ∧ t.rd A.tscNowFrac = word (tai96 u.stamp % 65536) ∧ t.rd A.tscSnapState = u.rd A.tscState ∧ t.rd A.tscSnapRadius = word u.ts.rho ∧ t.rd A.tscSnapPhase = sat32 u.ts.phiE ∧ t.rd A.tscSnapSlew = sat32 (u.ts.slewRem / 65536) ∧ t.ts = u.ts)) ∧
  (∀ (s u : State) (dt src ref : Nat), s.canonical = true → u = s.advance dt →
    src < 5 →
    ref < 14 →
    u.domainOn 7 = true →
    Completes (.offsetLoRead dt src ref) s (fun t => t.rd (A.refInOffsetLo ref) = word (unsigned ((u.refIn ref).last.getD 0) 64) ∧ t.rd (A.refInOffsetLo ref + 4) = word (unsigned ((u.refIn ref).last.getD 0) 64 >>> 32) ∧ t.rd (A.refInResid ref) = (match (u.refIn ref).resid with | some x => sat32 x | none => 0x80000000) ∧ t.rd (A.refInFresid ref) = (match (u.refIn ref).fres with | some x => sat32 x | none => 0x80000000))) ∧
  (∀ (s u : State) (dt src side : Nat), s.canonical = true → u = s.advance dt →
    src < 5 →
    side < 2 →
    u.domainOn 5 = true →
    Completes (.thetaLoRead dt src side) s (fun t => t.rd (A.gnsSideThetaLo side) = word (unsigned (u.side side).theta 64) ∧ t.rd (A.gnsSideThetaLo side + 4) = word (unsigned (u.side side).theta 64 >>> 32) ∧ t.rd (A.gnsSideBound side) = satU32 (u.side side).bound ∧ t.rd (A.gnsSideTdop side) = word (min (u.side side).tdop 65535) ∧ t.rd (A.gnsSideSvUsed side) = word (u.side side).svUsed ∧ t.rd (A.gnsSideAlarm side) = word (u.side side).alarms ∧ t.f (A.gnsSideExcl side) 0 8 = min ((u.side side).excl.filter (fun e => !e.const)).length 255 ∧ (∀ j, j < 4 → t.rd (A.gnsSideIntersys side j) = (match (u.side side).intersys.getD j none with | some v => sat32 v | none => 0x80000000)))) ∧
  (∀ (s u : State) (dt src lane n : Nat) (th de : Int), s.canonical = true → u = s.advance dt →
    src < 5 →
    lane < 8 →
    u.domainOn 13 = true →
    (u.lane lane).meas = some (th, de, n) →
    Completes (.thetaLoLaneRead dt src lane) s (fun t => t.rd (A.cmacLaneThetaHi lane) = word (unsigned th 64 / 2 ^ 32) ∧ t.rd (A.cmacLaneDelta lane) = (if n = 0 then 0xFFFFFFFF else satU32 de.toNat) ∧ t.rd (A.cmacLanePairs lane) = word (min n 64))) ∧
  (∀ (s u : State) (dt src : Nat), s.canonical = true → u = s.advance dt →
    src < 5 →
    u.domainOn 13 = true →
    Completes (.opResult0Read dt src) s (fun t => ∀ i, i < 12 → t.rd (A.casOpResult i) = u.cas.result.getD i 0))

/-- R38, R95, R77: the guarded registers of the timescale and of the references. -/
def Obligations.StepAndForceAnswersComplete : Prop :=
  (∀ (s u : State) (dt src seq : Nat) (c : Word) (p : PostedStep), s.canonical = true → u = (s.advance dt).dueFirst →
    u.takesPair src A.tscStepApprove (word (seq % 256 + 0x100)) c →
    u.ts.step = some p →
    p.awaiting = true →
    seq % 256 = u.f A.tscStepSeq 0 8 →
    u.stepVetoed = false →
    Completes (.stepApprove dt src seq c) s (fun t => t.ts.step = some { p with awaiting := false, atNs := some (u.secondAfter 100000000) })) ∧
  (∀ (s u : State) (dt src seq : Nat) (c : Word) (p : PostedStep), s.canonical = true → u = (s.advance dt).dueFirst →
    u.takesPair src A.tscStepApprove (word (seq % 256 + 0x200)) c →
    u.ts.step = some p →
    p.awaiting = true →
    seq % 256 = u.f A.tscStepSeq 0 8 →
    Completes (.stepApproveSlew dt src seq c) s (fun t => t.ts.step = none ∧ t.ts.slewRem = qdiv (p.ps * 65536) 1000)) ∧
  (∀ (s u : State) (dt src : Nat) (v c : Word), s.canonical = true → u = (s.advance dt).dueFirst →
    u.takesPair src A.refForce v c →
    Completes (.refForce dt src v c) s (fun t => t.rd A.refForce = v)) ∧
  (∀ (s u : State) (dt src i : Nat) (c : Word), s.canonical = true → u = (s.advance dt).dueFirst →
    u.takesPair src A.refClearDistrust (word i) c →
    i < 13 →
    u.qstate i = 5 →
    Completes (.clearDistrust dt src (word i) c) s (fun t => t.qstate i = 1))

/-- R27 and R28, with the effects of R32, R50, R244 and R328, and R26 for a pulse. -/
def Obligations.CalendarFiringsComplete : Prop :=
  (∀ (s u : State) (dt i : Nat) (e : CalEntry), s.canonical = true → u = (s.advance dt).inOrder (ofAction 0x01) →
    dueEntry u.ts.calendar u.nowNs (fun x => decide (x.action = 1)) = some (i, e) →
    Completes (.hostEvent dt) s (fun t => t.ts.calendar = u.calendarAfter i e)) ∧
  (∀ (s u : State) (dt i : Nat) (e : CalEntry), s.canonical = true → u = (s.advance dt).inOrder (ofAction 0x16) →
    dueEntry u.ts.calendar u.nowNs (fun x => decide (x.action = 0x16)) = some (i, e) →
    Completes (.leap dt) s (fun t => t.ts.calendar = u.calendarAfter i e ∧ t.sf A.tscLeapCur 0 16 = signed (unsigned (u.utcOffset (u.nowNs / 1000000000)) 16) 16)) ∧
  (∀ (s u : State) (dt i : Nat) (e : CalEntry), s.canonical = true → u = (s.advance dt).inOrder (ofAction 0x18) →
    dueEntry u.ts.calendar u.nowNs (fun x => decide (x.action = 0x18)) = some (i, e) →
    Completes (.hifDbPoll dt) s (fun t => t.ts.calendar = u.calendarAfter i e)) ∧
  (∀ (s u : State) (dt i : Nat) (e : CalEntry), s.canonical = true → u = (s.advance dt).inOrder (ofAction 0x15) →
    dueEntry u.ts.calendar u.nowNs (fun x => decide (x.action = 0x15)) = some (i, e) →
    Completes (.ntsEpoch dt) s (fun t => t.ts.calendar = u.calendarAfter i e)) ∧
  (∀ (s u : State) (dt k e : Nat), s.canonical = true → u = s.advance dt →
    k < 4 →
    (u.outUnit k).pulseEnd = some e →
    e ≤ u.ts.meas →
    Completes (.pulseEnd dt k) s (fun t => (t.outUnit k).pulseEnd = none ∧ t.out = Emission.edge k (u.nowPs : Int) false :: u.out ∧ t.regs = u.regs))

/-- R373, R439, R258, R278, R494, R62 and R44: what one firing does, in order and in figures. -/
def Obligations.FiringOrder : Prop :=
  (∀ (s u : State) (dt i : Nat) (e : CalEntry), s.canonical = true → u = (s.advance dt).inOrder (ofAction 0x10) →
    dueEntry u.ts.calendar u.nowNs (fun x => decide (x.action = 0x10)) = some (i, e) →
    exec (.sluApply dt) s = .next ((u.fireEntry i e).sluFire e)) ∧
  (∀ (s u : State) (dt k i : Nat) (e : CalEntry), s.canonical = true → u = (s.advance dt).inOrder (fun e => decide (e.action = 0x11) && decide (e.target = k)) →
    k < 6 →
    dueEntry u.ts.calendar (10000 + u.nowNs) (fun x => decide (x.action = 0x11) && decide (x.target = k)) = some (i, e) →
    exec (.outEdge dt k) s = .next ((u.fireEntry i e).placeEdge k (e.skipAt.getD e.atNs))) ∧
  (∀ (s u : State) (dt i : Nat) (e : CalEntry), s.canonical = true → u = (s.advance dt).inOrder (ofAction 0x12) →
    dueEntry u.ts.calendar u.nowNs (fun x => decide (x.action = 0x12)) = some (i, e) →
    e.target < 128 →
    exec (.ptpSync dt) s = .next ((u.fireEntry i e).syncRound (e.target / 16) ((e.target % 16 : Nat) - 7) ((e.skipAt.getD e.atNs) * 1000 + (u.fireEntry i e).syncLead))) ∧
  (∀ (s u : State) (dt i : Nat) (e : CalEntry), s.canonical = true → u = (s.advance dt).inOrder (ofAction 0x12) →
    dueEntry u.ts.calendar u.nowNs (fun x => decide (x.action = 0x12)) = some (i, e) →
    128 ≤ e.target →
    exec (.ptpSync dt) s = .next ((u.fireEntry i e).slaveRound (e.target - 128) ((e.skipAt.getD e.atNs) * 1000 + (u.fireEntry i e).syncLead))) ∧
  (∀ (s u : State) (dt i : Nat) (e : CalEntry), s.canonical = true → u = (s.advance dt).inOrder (ofAction 0x13) →
    dueEntry u.ts.calendar u.nowNs (fun x => decide (x.action = 0x13)) = some (i, e) →
    exec (.rcpWindow dt) s = .next (((((u.fireEntry i e).prepareAt (e.skipAt.getD e.atNs)).closeWindow 0 ((e.skipAt.getD e.atNs) * 65536)).windowBoundary 23 (e.skipAt.getD e.atNs)))) ∧
  (∀ (s u : State) (dt i : Nat) (e : CalEntry), s.canonical = true → u = (s.advance dt).inOrder (ofAction 0x14) →
    dueEntry u.ts.calendar u.nowNs (fun x => decide (x.action = 0x14)) = some (i, e) →
    exec (.talWindow dt) s = .next (((u.fireEntry i e).closeTally false e.skipAt.isSome (e.skipAt.getD e.atNs)).windowBoundary 29 (e.skipAt.getD e.atNs))) ∧
  (∀ (s u : State) (dt i : Nat) (e : CalEntry) (m : TickMeas), s.canonical = true → u = (s.advance dt).inOrder (ofAction 0x19) →
    dueEntry u.ts.calendar u.nowNs (fun x => decide (x.action = 0x19)) = some (i, e) →
    evalSecond e = none →
    exec (.radiusTick dt m) s = .next (((((((u.fireEntry i e).sense m false).synceTick m).tickWork).afterTick (u.fireEntry i e).tscMode e).settleFlow).snapKeep)) ∧
  (∀ (s u : State) (dt i : Nat) (e : CalEntry) (m : TickMeas) (sec : Nat), s.canonical = true → u = (s.advance dt).inOrder (ofAction 0x19) →
    dueEntry u.ts.calendar u.nowNs (fun x => decide (x.action = 0x19)) = some (i, e) →
    evalSecond e = some sec →
    exec (.radiusTick dt m) s = .next ((((((((((((u.fireEntry i e).beforeEvaluation sec).when e.skipAt.isNone State.gnssLatch).sense m true).synceTick m).evaluate).plannedHandover sec).tickWork).afterTick (((u.fireEntry i e).beforeEvaluation sec).when e.skipAt.isNone State.gnssLatch).tscMode e).settleFlow).snapKeep))) ∧
  (∀ (s u : State) (dt i : Nat) (e : CalEntry) (n : Int), s.canonical = true → u = (s.advance dt).inOrder (ofAction 0x1F) →
    dueEntry u.ts.calendar u.nowNs (fun x => decide (x.action = 0x1F)) = some (i, e) →
    e.target ≠ 0 →
    (u.fireEntry i e).ts.hostStep = some n →
    exec (.tscStep dt) s = .next (({ u.fireEntry i e with ts := { (u.fireEntry i e).ts with hostStep := none } }).stepNow (e.skipAt.getD e.atNs) n true)) ∧
  (∀ (s u : State) (dt i : Nat) (e : CalEntry) (c : Commit), s.canonical = true → u = (s.advance dt).inOrder (ofAction 0x10) →
    dueEntry u.ts.calendar u.nowNs (fun x => decide (x.action = 0x10)) = some (i, e) →
    ∀ g, g < 34 → (u.group g).pend = none →
    (u.group 34).pend = some c →
    c.atNs = some e.atNs →
    c.draining = false →
    u.groupDraining 34 = false →
    (u.group 34).pendParity = false →
    (u.group 34).stageParity = [] →
    checkGroup (u.fireEntry i e) 34 u.rdPend = none →
    Completes (.sluApply dt) s (fun t => t.f (A.sluGroupStatus 34) 0 3 = 2 ∧ (t.group 34).pend = none)) ∧
  (∀ (s u : State) (dt k i : Nat) (e : CalEntry), s.canonical = true → u = (s.advance dt).inOrder (fun e => decide (e.action = 0x11) && decide (e.target = k)) →
    k < 4 →
    k < u.pwr.outs.length →
    dueEntry u.ts.calendar (10000 + u.nowNs) (fun x => decide (x.action = 0x11) && decide (x.target = k)) = some (i, e) →
    u.outOn k = true →
    (u.fireEntry i e).withheld k = false →
    (u.fireEntry i e).tooSoon k ((u.fireEntry i e).measAt ((((e.skipAt.getD e.atNs) : Nat) : Int) * 1000 + u.sf (A.pwrPpsOutOffset k) 0 32)) = false →
    Completes (.outEdge dt k) s (fun t => t.out = Emission.edge k ((((e.skipAt.getD e.atNs) : Nat) : Int) * 1000 + u.sf (A.pwrPpsOutOffset k) 0 32) true :: (u.fireEntry i e).out ∧ (t.outUnit k).pulseEnd = some (((u.fireEntry i e).measAt ((((e.skipAt.getD e.atNs) : Nat) : Int) * 1000 + u.sf (A.pwrPpsOutOffset k) 0 32)).toNat + u.f (A.pwrPpsOutWidth k) 0 30 * 2 ^ 48))) ∧
  (∀ (s u : State) (dt k i : Nat) (e : CalEntry), s.canonical = true → u = (s.advance dt).inOrder (fun e => decide (e.action = 0x11) && decide (e.target = k)) →
    k < 6 →
    k < u.pwr.outs.length →
    dueEntry u.ts.calendar (10000 + u.nowNs) (fun x => decide (x.action = 0x11) && decide (x.target = k)) = some (i, e) →
    u.outOn k = true →
    (u.fireEntry i e).withheld k = true →
    Completes (.outEdge dt k) s (fun t => (k < 4 → t.out = (u.fireEntry i e).out) ∧ (4 ≤ k → (t.outUnit k).hz = 0) ∧ (t.outUnit k).squelched = true)) ∧
  (∀ (s u : State) (dt i n : Nat) (e : CalEntry) (m : Nat), s.canonical = true → u = (s.advance dt).inOrder (ofAction 0x12) →
    dueEntry u.ts.calendar u.nowNs (fun x => decide (x.action = 0x12)) = some (i, e) →
    e.target = 128 + n →
    n < 2 →
    (u.slave n).chosen = some m →
    u.slvOn n = true →
    u.linkUp (u.slvLink n) = true →
    u.slvUnicast n = false →
    Completes (.ptpSync dt) s (fun t => (t.slave n).seqDreq = ((u.slave n).seqDreq + 1) % 65536)) ∧
  (∀ (s u : State) (dt i : Nat) (e : CalEntry), s.canonical = true → u = (s.advance dt).inOrder (ofAction 0x12) →
    dueEntry u.ts.calendar u.nowNs (fun x => decide (x.action = 0x12)) = some (i, e) →
    e.target < 128 →
    u.linkUp (e.target / 16) = false →
    Completes (.ptpSync dt) s (fun t => t.ports = u.ports ∧ t.ptp = u.ptp ∧ t.ts.calendar = u.calendarAfter i e)) ∧
  (∀ (s u : State) (dt i : Nat) (e : CalEntry), s.canonical = true → u = (s.advance dt).inOrder (ofAction 0x13) →
    dueEntry u.ts.calendar u.nowNs (fun x => decide (x.action = 0x13)) = some (i, e) →
    (u.group 23).pend = none →
    Completes (.rcpWindow dt) s (fun t => t.rcp.number = (u.rcp.number + 1) % 2 ^ 64 ∧ t.rcp.leaves = [])) ∧
  (∀ (s u : State) (dt i : Nat) (e : CalEntry), s.canonical = true → u = (s.advance dt).inOrder (ofAction 0x14) →
    dueEntry u.ts.calendar u.nowNs (fun x => decide (x.action = 0x14)) = some (i, e) →
    (u.group 29).pend = none →
    Completes (.talWindow dt) s (fun t => t.rd A.talWinNumber = word u.tal.number ∧ t.tal.number = (u.tal.number + 1) % 2 ^ 32 ∧ t.tal.openNs = (e.skipAt.getD e.atNs) ∧ t.f A.talTallySeq 0 8 = (u.f A.talTallySeq 0 8 + 1) % 256 ∧ t.bit A.talEvent 0 = true)) ∧
  (∀ (s u : State) (dt i : Nat) (e : CalEntry) (m : TickMeas), s.canonical = true → u = (s.advance dt).inOrder (ofAction 0x19) →
    dueEntry u.ts.calendar u.nowNs (fun x => decide (x.action = 0x19)) = some (i, e) →
    evalSecond e = none →
    Completes (.radiusTick dt m) s (fun t => t.ts.rhoComputed ≤ t.ts.rho ∧ (u.ts.rho ≤ t.ts.rhoComputed → t.ts.rho = t.ts.rhoComputed))) ∧
  (∀ (s u : State) (dt i : Nat) (e : CalEntry) (m : TickMeas) (sec : Nat), s.canonical = true → u = (s.advance dt).inOrder (ofAction 0x19) →
    dueEntry u.ts.calendar u.nowNs (fun x => decide (x.action = 0x19)) = some (i, e) →
    evalSecond e = some sec →
    Completes (.radiusTick dt m) s (fun t => t.refs.evalNo = u.refs.evalNo + 1 ∧ t.ts.rhoComputed ≤ t.ts.rho)) ∧
  (∀ (s u : State) (dt i : Nat) (e : CalEntry) (n : Nat), s.canonical = true → u = (s.advance dt).inOrder (ofAction 0x1F) →
    dueEntry u.ts.calendar u.nowNs (fun x => decide (x.action = 0x1F)) = some (i, e) →
    e.target ≠ 0 →
    u.ts.hostStep = some (n : Int) →
    Completes (.tscStep dt) s (fun t => t.ts.acc = u.ts.acc + n * 2 ^ 48 ∧ t.ts.hostStep = none ∧ t.bit A.tscEvent 2 = true))

/-- R31 and R59 for the operations, R371 to R373 for the commit. -/
def Obligations.CalendarCommandsComplete : Prop :=
  (∀ (s u : State) (dt src : Nat) (cmd : Word), s.canonical = true → u = (s.advance dt).dueFirst →
    u.takesCommit src 1 (u.commandWords A.tscCalCmd 0 2 1 cmd) →
    Completes (.calCreate dt src cmd [] 1) s (fun t => t.f (A.sluGroupStatus 1) 0 3 = 2 ∧ t.f A.tscCalResult 16 8 = 0 ∧ ∃ i, t.calAt i = some (calOfWords (u.commandWords A.tscCalCmd 0 2 1 cmd)))) ∧
  (∀ (s u : State) (dt src : Nat) (cmd : Word), s.canonical = true → u = (s.advance dt).dueFirst →
    u.takesCommit src 1 (u.commandWords A.tscCalCmd 0 2 2 cmd) →
    Completes (.calCancel dt src cmd [] 1) s (fun t => t.f (A.sluGroupStatus 1) 0 3 = 2 ∧ t.f A.tscCalResult 16 8 = 0 ∧ t.calAt (fld cmd 16 12) = none)) ∧
  (∀ (s u : State) (dt src : Nat) (cmd : Word), s.canonical = true → u = (s.advance dt).dueFirst →
    u.takesCommit src 1 (u.commandWords A.tscCalCmd 0 2 3 cmd) →
    Completes (.calModify dt src cmd [] 1) s (fun t => t.f (A.sluGroupStatus 1) 0 3 = 2 ∧ t.f A.tscCalResult 16 8 = 0 ∧ t.calAt (fld cmd 16 12) = some (calOfWords (u.commandWords A.tscCalCmd 0 2 3 cmd)))) ∧
  (∀ (s u : State) (dt src : Nat) (cmd : Word), s.canonical = true → u = (s.advance dt).dueFirst →
    u.takesCommit src 1 (u.commandWords A.tscCalCmd 0 2 0 cmd) →
    Completes (.calNone dt src cmd [] 1) s (fun t => t.f (A.sluGroupStatus 1) 0 3 = 2 ∧ t.f A.tscCalResult 16 8 = 0 ∧ t.f A.tscCalResult 0 12 = 0))

/-- R75, R77, R60, R96, R72. -/
def Obligations.ReferenceTimersComplete : Prop :=
  (∀ (s u : State) (dt ref : Nat), s.canonical = true → u = (s.advance dt).dueFirst →
    ref < 14 →
    Completes (.qualTimeExpire dt ref) s (fun t => t.f (A.refInTimer ref) 0 17 = (match (u.refIn ref).timerEnd with | none => 0 | some e => ceilDiv (e - u.ts.meas) (secs 1)) % 2 ^ 17 ∧ t.qstate ref = u.qstate ref ∧ t.refs = u.refs)) ∧
  (∀ (s u : State) (dt ref : Nat), s.canonical = true → u = (s.advance dt).dueFirst →
    ref < 14 →
    Completes (.wtrExpire dt ref) s (fun t => t.f (A.refInTimer ref) 0 17 = (match (u.refIn ref).timerEnd with | none => 0 | some e => ceilDiv (e - u.ts.meas) (secs 1)) % 2 ^ 17 ∧ t.qstate ref = u.qstate ref ∧ t.refs = u.refs)) ∧
  (∀ (s u : State) (dt ref : Nat), s.canonical = true → u = (s.advance dt).dueFirst →
    ref < 14 →
    Completes (.distrustHoldExpire dt ref) s (fun t => t.f (A.refInTimer ref) 0 17 = (match (u.refIn ref).timerEnd with | none => 0 | some e => ceilDiv (e - u.ts.meas) (secs 1)) % 2 ^ 17 ∧ t.qstate ref = u.qstate ref ∧ t.refs = u.refs)) ∧
  (∀ (s : State) (ref : Nat), s.canonical = true →
    ref < 13 →
    s.qstate ref = 1 →
    s.unusable ref = false →
    s.checkFails ref = false →
    s.timerDue ref = true →
    s.heldCandidate ref = false →
    s.switchPhase ≠ 2 →
    (s.refIn ref).qualified = false →
    (s.qualify ref).qstate ref = 2 ∧ (s.qualify ref).f (A.refInTimer ref) 0 17 = 0) ∧
  (∀ (s : State) (ref : Nat), s.canonical = true →
    ref < 13 →
    s.qstate ref = 1 →
    s.unusable ref = false →
    s.checkFails ref = false →
    s.timerDue ref = true →
    s.heldCandidate ref = false →
    (s.switchPhase = 2 ∨ (s.refIn ref).qualified = true) →
    (s.qualify ref).qstate ref = 4) ∧
  (∀ (s : State) (ref : Nat), s.canonical = true →
    ref < 13 →
    s.qstate ref = 4 →
    s.unusable ref = false →
    s.checkFails ref = false →
    s.timerDue ref = true →
    (s.qualify ref).qstate ref = 2 ∧ (s.qualify ref).f (A.refInTimer ref) 0 17 = 0) ∧
  (∀ (s : State) (ref : Nat) (x : Int), s.canonical = true →
    ref < 13 →
    ref < s.refs.ins.length →
    s.qstate ref = 5 →
    (s.refIn ref).resid = some x →
    (s.refIn ref).cp = 0 →
    (s.refIn ref).cf = 0 →
    s.timerDue ref = true →
    s.f A.refCusumSpan 0 14 ≤ (s.refIn ref).clean + 1 →
    (s.cleanRun ref).qstate ref = 1) ∧
  (∀ (s u : State) (dt ref : Nat), s.canonical = true → u = s.advance dt →
    ref < 14 →
    ref < u.refs.ins.length →
    u.lossDue ref = true →
    (u.refIn ref).lost = false →
    Completes (.refLossTimeout dt ref) s (fun t => (t.refIn ref).lost = true ∧ t.bit (A.refInEvent ref) 2 = true)) ∧
  (∀ (s u : State) (dt : Nat), s.canonical = true → u = (s.advance dt).dueFirst →
    exec (.prepareEnd dt) s = .next (u)) ∧
  (∀ (s : State) (was : List Nat) (force : Nat), s.canonical = true →
    s.switchPhase = 1 →
    s.isQual s.target = true →
    s.target < 13 →
    (s.target = force ∨ s.overtaken was = false) →
    s.refs.prepEval < s.refs.evalNo →
    (s.switchMachine (some s.target) was force).sel = s.target) ∧
  (∀ (s u : State) (dt : Nat) (closed : Bool), s.canonical = true → u = s.advance dt →
    Completes (.qcontactChange dt closed) s (fun t => t.bit A.refQcontactState 0 = closed)) ∧
  (∀ (s u : State) (dt : Nat) (text : Bytes) (framing : Bool), s.canonical = true → u = s.advance dt →
    (framing = true ∨ todParse text = none) →
    Completes (.todSentenceRx dt text framing) s (fun t => (t.rd (A.pwrTodBad)).toNat = min ((u.rd (A.pwrTodBad)).toNat + 1) 0xFFFFFFFF)) ∧
  (∀ (s u : State) (dt sec q : Nat) (text : Bytes), s.canonical = true → u = s.advance dt →
    u.todHeld = false →
    todParse text = some (sec, q) →
    Completes (.todSentenceRx dt text false) s (fun t => (t.rd (A.pwrTodRx)).toNat = min ((u.rd (A.pwrTodRx)).toNat + 1) 0xFFFFFFFF ∧ t.bit A.pwrIoStatus 2 = true ∧ t.f A.pwrIoStatus 8 4 = q % 16 ∧ t.pwr.todAt = some u.ts.meas))

/-- R118 to R121, R104, R449 and R450: every state of the cartridge and what ends it. -/
def Obligations.CartridgeCommandsComplete : Prop :=
  (∀ (s u : State) (dt : Nat) (opened : Bool), s.canonical = true → u = s.advance dt →
    u.cartActive = true →
    Completes (.cartLoss dt opened) s (fun t => t.cartActive = false ∧ t.cartState = (if opened = true then u.cartState else 7) ∧ t.bit A.holEvent 3 = true)) ∧
  (∀ (s u : State) (dt : Nat), s.canonical = true → u = s.advance dt →
    u.cartState = 0 →
    Completes (.cartInsert dt) s (fun t => t.cartState = 1 ∧ t.bit A.pwrDomState 2 = true ∧ t.bit A.holEvent 4 = true)) ∧
  (∀ (s u : State) (dt : Nat), s.canonical = true → u = s.advance dt →
    u.cartState ≠ 0 →
    Completes (.cartRemove dt) s (fun t => t.cartState = 0 ∧ t.cartActive = false ∧ t.bit A.pwrDomState 2 = false ∧ t.bit A.holEvent 6 = true)) ∧
  (∀ (s u : State) (dt code rev serial : Nat) (block : Bytes), s.canonical = true → u = s.advance dt →
    u.cartState = 1 →
    (code = 0x51 ∨ code = 0x41) →
    Completes (.cartIdentified dt code rev serial block) s (fun t => t.cartState = 2 ∧ t.f A.holCartId 0 8 = code ∧ t.hol.modelBlock = block)) ∧
  (∀ (s u : State) (dt code rev serial : Nat) (block : Bytes), s.canonical = true → u = s.advance dt →
    u.cartState = 1 →
    code ≠ 0x51 →
    code ≠ 0x41 →
    Completes (.cartIdentified dt code rev serial block) s (fun t => t.cartState = 7 ∧ t.f A.holCartFault 0 8 = 0x41 ∧ t.bit A.pwrDomState 2 = false)) ∧
  (∀ (s u : State) (dt : Nat), s.canonical = true → u = s.advance dt →
    u.cartState = 1 →
    u.cartTimerDue = true →
    Completes (.cartIdTimeout dt) s (fun t => t.cartState = 7 ∧ t.f A.holCartFault 0 8 = 0x40)) ∧
  (∀ (s u : State) (dt : Nat) (lock : Bool), s.canonical = true → u = s.advance dt →
    1 ≤ u.cartState →
    u.cartState ≤ 5 →
    Completes (.cartStatusPoll dt lock true) s (fun t => t.cartState = 7 ∧ t.f A.holCartFault 0 8 = 0x44 ∧ t.bit A.holEvent 7 = true)) ∧
  (∀ (s u : State) (dt : Nat), s.canonical = true → u = s.advance dt →
    u.cartState = 2 →
    Completes (.cartStatusPoll dt true false) s (fun t => t.cartState = 3)) ∧
  (∀ (s u : State) (dt : Nat), s.canonical = true → u = s.advance dt →
    u.cartState = 2 →
    u.cartTimerDue = true →
    Completes (.cartWarmTimeout dt) s (fun t => t.cartState = 7 ∧ t.f A.holCartFault 0 8 = 0x42)) ∧
  (∀ (s u : State) (dt : Nat), s.canonical = true → u = s.advance dt →
    u.cartState = 3 →
    u.cartTimerDue = true →
    Completes (.cartMeasDone dt) s (fun t => t.cartState = 4 ∧ t.bit A.holEvent 5 = true)) ∧
  (∀ (s u : State) (dt : Nat), s.canonical = true → u = s.advance dt →
    1 ≤ u.cartState →
    u.cartState ≤ 5 →
    Completes (.cartOvercurrent dt) s (fun t => t.cartState = 7 ∧ t.f A.holCartFault 0 8 = 0x46 ∧ t.bit A.pwrDomState 2 = false)) ∧
  (∀ (s u : State) (dt m : Nat), s.canonical = true → u = s.advance dt →
    u.hol.pd2OffAt = some m →
    m ≤ u.ts.meas →
    Completes (.cartPd2Off dt) s (fun t => t.cartState = 6 ∧ t.bit A.pwrDomState 2 = false ∧ t.hol.pd2OffAt = none))

/-- R120 with the guarded pairs of R365. -/
def Obligations.CartridgeGuardedCommandsComplete : Prop :=
  (∀ (s u : State) (dt src : Nat) (c : Word), s.canonical = true → u = (s.advance dt).dueFirst →
    u.takesPair src A.holCartCmd 1 c →
    u.cartState = 5 →
    Completes (.cartRelease dt src c) s (fun t => t.hol.releasing = true ∧ t.cartState = 5)) ∧
  (∀ (s u : State) (dt src : Nat) (c : Word), s.canonical = true → u = (s.advance dt).dueFirst →
    u.takesPair src A.holCartCmd 1 c →
    u.cartState ≠ 5 →
    Completes (.cartRelease dt src c) s (fun t => t.hol.pd2OffAt = some (100000000 * 2 ^ 48 + u.ts.meas) ∧ t.hol.modelBlock = u.modelBlockBytes)) ∧
  (∀ (s u : State) (dt src : Nat) (c : Word), s.canonical = true → u = (s.advance dt).dueFirst →
    u.takesPair src A.holCartCmd 2 c →
    Completes (.cartResume dt src c) s (fun t => t.cartState = 1 ∧ t.bit A.pwrDomState 2 = true)) ∧
  (∀ (s u : State) (dt src : Nat) (c : Word), s.canonical = true → u = (s.advance dt).dueFirst →
    u.takesPair src A.holCartCmd 3 c →
    Completes (.cartForget dt src c) s (fun t => t.rd (A.holCmodel 0) = word ((u.f (A.holCmodel 0) 0 8 + 1) % 256) ∧ ∀ k, k < 16 → k ≠ 0 → t.rd (A.holCmodel k) = 0 ∧ t.hol.cistern.cart = List.replicate 16 0 ∧ t.hol.flash.cart = List.replicate 16 0))

/-- R106, R109, R123 with R125, and R126 with the rule of R363. -/
def Obligations.OscillatorUpkeepCompletes : Prop :=
  (∀ (s u : State) (dt : Nat), s.canonical = true → u = s.advance dt →
    u.nowNs / 1000000000 % 1000 = 0 →
    u.bit A.holStatus 8 = false →
    Completes (.modelSample dt) s (fun t => t.hol.keeperSum = ⟨0, 0, 0, true⟩ ∧ t.hol.cartSum = ⟨0, 0, 0, true⟩ ∧ t.hol.keeperRing = ((u.hol.keeperSum.sample (u.nowNs / 1000000000)).toList ++ u.hol.keeperRing).take 768 ∧ t.hol.cartRing = ((if u.cartPowered then u.hol.cartSum.sample (u.nowNs / 1000000000) else none).toList ++ u.hol.cartRing).take 768)) ∧
  (∀ (s u : State) (dt : Nat), s.canonical = true → u = s.advance dt →
    Completes (.modelFlashWrite dt) s (fun t => t.hol.flash.keeper = u.modelPage false ∧ t.hol.flash.cart = u.modelPage true ∧ t.hol.flash.serial = u.cartSerial)) ∧
  (∀ (s u : State) (dt : Nat) (tk : Int) (tc : Option Int), s.canonical = true → u = s.advance dt →
    u.hol.keepAlive = true →
    u.boot.at_ = none →
    Completes (.kaTick dt tk tc) s (fun t => t.hol.cisternTime = some (t.ts.rho, t.tscMode) ∧ t.sf A.holTempKeeper 0 32 = clamp (-2147483647) 2147483647 tk)) ∧
  (∀ (s u : State) (dt r m : Nat) (b : StartPoint) (tk : Int) (tc : Option Int), s.canonical = true → u = s.advance dt →
    u.hol.keepAlive = true →
    u.boot.at_ = some b →
    u.hol.cisternTime = some (r, m) →
    Completes (.kaTick dt tk tc) s (fun t => t.hol.cisternTime = some (t.ts.rho, (if m = 3 ∧ u.lostRadius < t.ts.rho then 4 else m)))) ∧
  (∀ (s u : State) (dt : Nat), s.canonical = true → u = s.advance dt →
    Completes (.keeperFault dt) s (fun t => t.bit A.holEvent 13 = true ∧ t.f A.holEvent 24 8 = (u.f A.holEvent 24 8 + 1) % 256))

/-- R133 to R136, R139, R142, R149 to R153 and R488, one clause each. -/
def Obligations.GnssEventsComplete : Prop :=
  (∀ (s u : State) (dt side : Nat) (m : GnssSolution) (h : GnssLatch), s.canonical = true → u = s.advance dt →
    side < 2 →
    side < u.gnss.sides.length →
    u.bit A.gnsStatus side = true →
    (u.side side).latch = some h →
    u.ts.meas ≤ h.meas + secs 1 / 2 →
    Completes (.gnssSolutionDone dt side m) s (fun t => t.f (A.gnsSideStatus side) 12 3 = ((((u.allocate side m.sky).setSide side (fun x => { x with latch := none })).takeObs side m.obs).solveEpoch side m.point ((((u.allocate side m.sky).setSide side (fun x => { x with latch := none })).takeObs side m.obs).rangings side h m.obs)).status % 8 ∧ t.f (A.gnsSideStatus side) 16 8 = (satellites ((((u.allocate side m.sky).setSide side (fun x => { x with latch := none })).takeObs side m.obs).solveEpoch side m.point ((((u.allocate side m.sky).setSide side (fun x => { x with latch := none })).takeObs side m.obs).rangings side h m.obs)).entered).length % 256 ∧ (t.side side).latch = none ∧ (t.side side).epoch = h.epoch)) ∧
  (∀ (s u : State) (dt side : Nat) (m : GnssSolution), s.canonical = true → u = s.advance dt →
    side < 2 →
    u.bit A.gnsStatus side = true →
    (u.side side).latch = none →
    exec (.gnssSolutionDone dt side m) s = .next (u.allocate side m.sky)) ∧
  (∀ (s u : State) (dt side : Nat) (m : GnssSolution), s.canonical = true → u = s.advance dt →
    side < 2 →
    u.bit A.gnsStatus side = false →
    exec (.gnssSolutionDone dt side m) s = .next (u)) ∧
  (∀ (s u : State) (dt side check : Nat), s.canonical = true → u = s.advance dt →
    side < 2 →
    (u.side side).alarms.testBit check = true →
    (u.side side).lastTrip.getD check 0 + secs (u.f A.gnsAlarmClear 0 17) ≤ u.ts.meas →
    Completes (.gnssAlarmClear dt side check) s (fun t => (t.side side).alarms + 2 ^ check = (u.side side).alarms ∧ t.bit (A.gnsSideEvent side) 2 = true)) ∧
  (∀ (s u : State) (dt side key check : Nat) (k : Bool) (e : Exclusion), s.canonical = true → u = s.advance dt →
    side < 2 →
    (u.side side).excl.find? (fun x => decide (x.const = k) && decide (x.key = key) && decide (x.check = check)) = some e →
    e.endAt ≤ u.ts.meas →
    u.stillTrips side e = false →
    Completes (.gnssExclEnd dt side k key check) s (fun t => (t.side side).excluded k key = false)) ∧
  (∀ (s u : State) (dt side key check : Nat) (k : Bool) (e : Exclusion), s.canonical = true → u = s.advance dt →
    side < 2 →
    (u.side side).excl.find? (fun x => decide (x.const = k) && decide (x.key = key) && decide (x.check = check)) = some e →
    e.endAt ≤ u.ts.meas →
    u.stillTrips side e = true →
    Completes (.gnssExclEnd dt side k key check) s (fun t => (t.side side).excluded k key = true ∧ (t.side side).excl.head? = some ⟨k, key, check, u.ts.meas + secs (u.f A.gnsXclHold 0 17)⟩)) ∧
  (∀ (s u : State) (dt side chan m : Nat), s.canonical = true → u = s.advance dt →
    side < 2 →
    chan < 160 →
    (u.chanLoop side chan).lowSince = some m →
    2 ≤ u.chanState side chan →
    m + secs 2 ≤ u.ts.meas →
    Completes (.channelLossOfLock dt side chan) s (fun t => t.chanState side chan = 1 ∧ t.bit (chanWord side chan) 19 = false ∧ t.f (chanWord side chan + 12) 0 16 = 0 ∧ (side < u.gnss.sides.length → (t.chanLoop side chan).lostAt = some u.ts.meas))) ∧
  (∀ (s u : State) (dt side chan cn0 st : Nat), s.canonical = true → u = s.advance dt →
    side < 2 →
    chan < 160 →
    u.bit A.gnsStatus side = true →
    u.chanSignal side chan ≠ 0 →
    u.chanFenced side chan = false →
    2 ≤ st →
    st ≤ 4 →
    (2 ≤ u.chanState side chan ∨ (if (u.side side).almanac.isSome then 280 else 320) ≤ cn0 ∨ (u.chanLoop side chan).lostAt.any (fun m => decide (u.ts.meas ≤ m + secs 10)) = true) →
    Completes (.signalAcquired dt side chan cn0 st) s (fun t => t.chanState side chan = st ∧ t.f (chanWord side chan + 4) 0 10 = min cn0 1023)) ∧
  (∀ (s u : State) (dt side : Nat) (m : NavMessage) (g : Signal) (f : Nat × Nat), s.canonical = true → u = s.advance dt →
    side < 2 →
    side < u.gnss.sides.length →
    m.chan < 160 →
    signalOf (u.chanSignal side m.chan) = some g →
    messageForm m.kind = some f →
    g.kinds.contains m.kind = true →
    (m.result = 0 ∨ m.result = 2) →
    m.ephemeris = true →
    Completes (.navRecord dt side m) s (fun t => (satKey (u.chanSignal side m.chan) (u.chanSv side m.chan), u.nowNs / 1000000000) ∈ (t.side side).ephem)) ∧
  (∀ (s u : State) (dt side : Nat) (m : NavMessage) (g : Signal) (f : Nat × Nat), s.canonical = true → u = s.advance dt →
    side < 2 →
    side < u.gnss.sides.length →
    m.chan < 160 →
    signalOf (u.chanSignal side m.chan) = some g →
    messageForm m.kind = some f →
    g.kinds.contains m.kind = true →
    m.result = 1 →
    Completes (.navRecord dt side m) s (fun t => (t.rd (A.gnsNavFail)).toNat = min ((u.rd (A.gnsNavFail)).toNat + 1) 0xFFFFFFFF ∧ t.gnss.sides = u.gnss.sides)) ∧
  (∀ (s u : State) (dt side : Nat), s.canonical = true → u = s.advance dt →
    side < 2 →
    u.gnss.hotStartAt ≤ u.ts.meas →
    3 ≤ u.f (A.gnsSideStatus side) 0 3 →
    Completes (.hotstartWrite dt) s (fun t => t.gnss.hotStart = some [u.hotSide 0, u.hotSide 1] ∧ t.gnss.hotStartAt = u.ts.meas + secs 1800)) ∧
  (∀ (s u : State) (dt side band : Nat) (o : RfiObs), s.canonical = true → u = s.advance dt →
    side < 2 →
    band < 2 →
    Completes (.rfiSpectrum dt side band o) s (fun t => t.rd (if band = 0 then A.gnsSideRfL1 side else A.gnsSideRfL5 side) = word (min o.gain 600 + min o.floor 63 * 2 ^ 16) ∧ t.f (A.gnsSideRfi side) (3 * band) 3 ≤ 4)) ∧
  (∀ (s u : State) (dt side ma : Nat), s.canonical = true → u = s.advance dt →
    side < 2 →
    side < u.gnss.sides.length →
    (u.f (A.gnsSideBias side) 0 2 = 1 ∨ u.f (A.gnsSideBias side) 0 2 = 2) →
    90 < ma →
    Completes (.biasShort dt side ma) s (fun t => t.f (A.gnsSideBias side) 0 2 = 3 ∧ t.bit (A.gnsSideEvent side) 6 = true ∧ (t.side side).biasRetry = some (u.ts.meas + secs 10))) ∧
  (∀ (s u : State) (dt side ma m : Nat), s.canonical = true → u = s.advance dt →
    side < 2 →
    side < u.gnss.sides.length →
    (u.side side).biasRetry = some m →
    m ≤ u.ts.meas →
    u.sideEnabled side = true →
    u.bit (A.gnsSideAntCfg side) 1 = true →
    ma ≤ 90 →
    Completes (.biasRetry dt side ma) s (fun t => t.f (A.gnsSideBias side) 0 2 = (if ma < 3 then 2 else 1) ∧ (t.side side).biasRetry = none)) ∧
  (∀ (s u : State) (dt : Nat), s.canonical = true → u = s.advance dt →
    u.hol.keepAlive = true →
    u.f A.holKaGnss 0 11 ≠ 0 →
    u.hol.kaNext ≤ u.ts.meas →
    u.gnss.wake = none →
    u.sideEnabled u.wakeSide = true →
    Completes (.kaGnssWake dt) s (fun t => t.gnss.wake = some (u.wakeSide, u.ts.meas + secs 120) ∧ t.bit A.gnsStatus u.wakeSide = true ∧ t.bit A.pwrDomState 5 = true ∧ t.hol.kaNext = u.hol.kaNext + secs (60 * u.f A.holKaGnss 0 11))) ∧
  (∀ (s u : State) (dt a e : Nat) (sky : List SkyObs), s.canonical = true → u = s.advance dt →
    a < 2 →
    u.gnss.wake = some (a, e) →
    (u.skyCurrent a sky = true ∨ e ≤ u.ts.meas) →
    Completes (.kaWakeEnd dt sky) s (fun t => t.gnss.wake = none ∧ t.bit A.gnsStatus a = false ∧ t.bit A.pwrDomState 5 = false ∧ t.gnss.hotStart = some [u.hotSide 0, u.hotSide 1])) ∧
  (∀ (s u : State) (dt side : Nat) (ok : Bool), s.canonical = true → u = s.advance dt →
    side < 2 →
    side < u.gnss.sides.length →
    Completes (.gnssFwLoad dt side ok) s (fun t => (t.side side).slot = (if ok = true then (u.side side).slot else (u.side side).fallback) ∧ t.bit A.gnsStatus side = true ∧ (t.side side).loadingUntil = none))

/-- R145, R146, R154 and R156. -/
def Obligations.SurveyAndSnapshotEventsComplete : Prop :=
  (∀ (s u : State) (dt side : Nat) (v : Survey), s.canonical = true → u = s.advance dt →
    side < 2 →
    side < u.gnss.sides.length →
    (u.side side).survey = some v →
    v.reportAt ≤ u.ts.meas →
    Completes (.surveyProgress dt side) s (fun t => (t.side side).survey = some { v with seq := v.seq + 1, reportAt := v.reportAt + secs 60 })) ∧
  (∀ (s u : State) (dt side n : Nat) (v : Survey) (p : Int × Int × Int) (sg : Nat), s.canonical = true → u = s.advance dt →
    side < 2 →
    side < u.gnss.sides.length →
    (u.side side).survey = some v →
    v.done = some (n, p, sg) →
    n ≤ u.nowNs →
    Completes (.surveyComplete dt side) s (fun t => (t.side side).survey = none ∧ t.bit (A.gnsSideStatus side) 4 = true ∧ t.bit (A.gnsSideEvent side) 4 = true ∧ t.rd (A.gnsSidePosX side) = wordOfInt p.1 ∧ t.rd (A.gnsSidePosSigma side) = satU32 sg)) ∧
  (∀ (s u : State) (dt side : Nat) (v : Survey), s.canonical = true → u = s.advance dt →
    side < 2 →
    side < u.gnss.sides.length →
    (u.side side).survey = some v →
    u.f A.gnsSurveyMax 0 21 ≤ u.surveyElapsed v →
    v.done = none →
    Completes (.surveyTimeout dt side) s (fun t => (t.side side).survey = none ∧ t.bit (A.gnsSideEvent side) 4 = true ∧ t.bit (A.gnsSideStatus side) 4 = u.bit (A.gnsSideStatus side) 4)) ∧
  (∀ (s u : State) (dt : Nat), s.canonical = true → u = s.advance dt →
    u.snapState = 1 →
    fld u.gnss.snapCfg 4 2 = 0 →
    u.gnss.snapAt ≤ u.nowNs →
    Completes (.snapTrigger dt) s (fun t => t.snapState = 2 ∧ t.gnss.snapSince = u.ts.meas ∧ t.gnss.snapEnd = some (u.ts.meas + msecs (fld u.gnss.snapCfg 8 14)))) ∧
  (∀ (s u : State) (dt k i m : Nat), s.canonical = true → u = s.advance dt →
    u.snapState = 1 →
    fld u.gnss.snapCfg 4 2 ≠ 0 →
    u.gnss.snapEvent = some (k, i, m) →
    Completes (.snapTrigger dt) s (fun t => t.snapState = 2 ∧ t.gnss.snapEnd = some (m + msecs (fld u.gnss.snapCfg 8 14 - u.gnss.snapPre)))) ∧
  (∀ (s u : State) (dt e : Nat), s.canonical = true → u = s.advance dt →
    u.snapState = 2 →
    u.gnss.snapEnd = some e →
    e ≤ u.ts.meas →
    Completes (.snapCaptureEnd dt) s (fun t => t.snapState = 3 ∧ t.gnss.snapEnd = none ∧ t.bit A.gnsEvent 1 = true)) ∧
  (∀ (s u : State) (dt side : Nat) (p : Replay), s.canonical = true → u = s.advance dt →
    side < 2 →
    u.sideReplaying side = true →
    u.gnss.replay = some p →
    p.endAt ≤ u.ts.meas →
    Completes (.replayEnd dt side) s (fun t => t.sideReplaying side = false ∧ t.gnss.replay = none ∧ t.bit A.gnsStatus side = true))

/-- R145, R147, R149, R154, R156 for the operations, R158 for CMD_RESULT, R371 to R373 for the commit. -/
def Obligations.GnssCommandsComplete : Prop :=
  (∀ (s u : State) (dt src : Nat) (cmd : Word), s.canonical = true → u = (s.advance dt).dueFirst →
    u.takesCommit src 7 (u.commandWords A.gnsCmd 0 4 1 cmd) →
    u.gnss.sides.length = 2 →
    Completes (.surveyStart dt src cmd [] 1) s (fun t => t.f (A.sluGroupStatus 7) 0 3 = 2 ∧ t.f A.gnsCmdResult 0 4 = 1 ∧ t.f A.gnsCmdResult 8 8 = 0 ∧ (t.side (fld cmd 4 1)).survey.isSome = true)) ∧
  (∀ (s u : State) (dt src : Nat) (cmd : Word), s.canonical = true → u = (s.advance dt).dueFirst →
    u.takesCommit src 7 (u.commandWords A.gnsCmd 0 4 2 cmd) →
    Completes (.surveyAbort dt src cmd [] 1) s (fun t => t.f (A.sluGroupStatus 7) 0 3 = 2 ∧ t.f A.gnsCmdResult 0 4 = 2 ∧ t.f A.gnsCmdResult 8 8 = 0 ∧ (t.side (fld cmd 4 1)).survey = none)) ∧
  (∀ (s u : State) (dt src : Nat) (cmd : Word), s.canonical = true → u = (s.advance dt).dueFirst →
    u.takesCommit src 7 (u.commandWords A.gnsCmd 0 4 3 cmd) →
    Completes (.posFix dt src cmd [] 1) s (fun t => t.f (A.sluGroupStatus 7) 0 3 = 2 ∧ t.f A.gnsCmdResult 0 4 = 3 ∧ t.f A.gnsCmdResult 8 8 = 0 ∧ t.posInForce (fld cmd 4 1) = true ∧ t.rd (A.gnsSidePosX (fld cmd 4 1)) = u.rdStage A.gnsFixX)) ∧
  (∀ (s u : State) (dt src : Nat) (cmd : Word), s.canonical = true → u = (s.advance dt).dueFirst →
    u.takesCommit src 7 (u.commandWords A.gnsCmd 0 4 4 cmd) →
    Completes (.posClear dt src cmd [] 1) s (fun t => t.f (A.sluGroupStatus 7) 0 3 = 2 ∧ t.f A.gnsCmdResult 0 4 = 4 ∧ t.f A.gnsCmdResult 8 8 = 0 ∧ t.posInForce (fld cmd 4 1) = false)) ∧
  (∀ (s u : State) (dt src : Nat) (cmd : Word), s.canonical = true → u = (s.advance dt).dueFirst →
    u.takesCommit src 7 (u.commandWords A.gnsCmd 0 4 5 cmd) →
    Completes (.snapArm dt src cmd [] 1) s (fun t => t.f (A.sluGroupStatus 7) 0 3 = 2 ∧ t.f A.gnsCmdResult 0 4 = 5 ∧ t.f A.gnsCmdResult 8 8 = 0 ∧ t.snapState = 1)) ∧
  (∀ (s u : State) (dt src : Nat) (cmd : Word), s.canonical = true → u = (s.advance dt).dueFirst →
    u.takesCommit src 7 (u.commandWords A.gnsCmd 0 4 6 cmd) →
    (u.snapState = 1 ∨ u.snapState = 2) →
    Completes (.snapAbort dt src cmd [] 1) s (fun t => t.f (A.sluGroupStatus 7) 0 3 = 2 ∧ t.f A.gnsCmdResult 0 4 = 6 ∧ t.f A.gnsCmdResult 8 8 = 0 ∧ t.snapState = 4)) ∧
  (∀ (s u : State) (dt src : Nat) (cmd : Word), s.canonical = true → u = (s.advance dt).dueFirst →
    u.takesCommit src 7 (u.commandWords A.gnsCmd 0 4 7 cmd) →
    Completes (.replayStart dt src cmd [] 1) s (fun t => t.f (A.sluGroupStatus 7) 0 3 = 2 ∧ t.f A.gnsCmdResult 0 4 = 7 ∧ t.f A.gnsCmdResult 8 8 = 0 ∧ t.sideReplaying (fld cmd 4 1) = true)) ∧
  (∀ (s u : State) (dt src : Nat) (cmd : Word), s.canonical = true → u = (s.advance dt).dueFirst →
    u.takesCommit src 7 (u.commandWords A.gnsCmd 0 4 8 cmd) →
    Completes (.replayStop dt src cmd [] 1) s (fun t => t.f (A.sluGroupStatus 7) 0 3 = 2 ∧ t.f A.gnsCmdResult 0 4 = 8 ∧ t.f A.gnsCmdResult 8 8 = 0 ∧ t.sideReplaying (fld cmd 4 1) = false)) ∧
  (∀ (s u : State) (dt src : Nat) (cmd : Word), s.canonical = true → u = (s.advance dt).dueFirst →
    u.takesCommit src 7 (u.commandWords A.gnsCmd 0 4 9 cmd) →
    Completes (.clearExcl dt src cmd [] 1) s (fun t => t.f (A.sluGroupStatus 7) 0 3 = 2 ∧ t.f A.gnsCmdResult 0 4 = 9 ∧ t.f A.gnsCmdResult 8 8 = 0 ∧ (t.side 0).excl = [] ∧ (t.side 1).excl = []))

/-- R166, R168, R171, R174 to R176 and R179. -/
def Obligations.TimeTagEventsComplete : Prop :=
  (∀ (s u : State) (dt chan sub cyc : Nat) (rising : Bool), s.canonical = true → u = s.advance dt →
    chan < 16 →
    chan < u.ttu.chans.length →
    u.selects chan rising = true →
    (u.chan chan).presc = 0 →
    (u.chan chan).last = none →
    (u.chan chan).burst = none →
    Completes (.tagEdge dt chan rising sub cyc) s (fun t => (t.chan chan).seq = ((u.chan chan).seq + 1) % 65536 ∧ (t.chan chan).last = some (scale16 u.ts.meas sub - u.tagDelay chan))) ∧
  (∀ (s u : State) (dt chan sub cyc : Nat) (rising : Bool) (l : Int), s.canonical = true → u = s.advance dt →
    chan < 16 →
    u.selects chan rising = true →
    (u.chan chan).presc = 0 →
    (u.chan chan).last = some l →
    (u.chan chan).burst = none →
    scale16 u.ts.meas sub - u.tagDelay chan < 32000 + l →
    Completes (.tagEdge dt chan rising sub cyc) s (fun t => (t.chan chan).deadPending = true ∧ (t.chan chan).seq = (u.chan chan).seq ∧ t.bit A.ttuEvent 6 = true)) ∧
  (∀ (s u : State) (dt : Nat) (d : Bytes) (b : Desc) (l : List Desc), s.canonical = true → u = s.advance dt →
    u.ttuFrozen = false →
    u.ttu.tags = [d] →
    u.recordRing (u.f A.ttuTagCfg 8 8) 1 = true →
    (u.ring (u.f A.ttuTagCfg 8 8)).waiting = b :: l →
    (u.ring (u.f A.ttuTagCfg 8 8)).fill = 0 →
    d.length ≤ b.len →
    d.length = 16 →
    (u.chan (leAt d 12 1 % 16)).overwritten = false →
    Completes (.tagForward dt) s (fun t => t.ttu.tags = [] ∧ Emission.hostWrite b.addr d ∈ t.out)) ∧
  (∀ (s u : State) (dt : Nat) (d : Bytes), s.canonical = true → u = s.advance dt →
    u.ttuFrozen = false →
    u.ttu.tags = [d] →
    u.recordRing (u.f A.ttuTagCfg 8 8) 1 = false →
    Completes (.tagForward dt) s (fun t => t.ttu.tags = [d])) ∧
  (∀ (s u : State) (dt : Nat) (d : Bytes) (b : Desc) (l : List Desc), s.canonical = true → u = s.advance dt →
    u.ttuFrozen = false →
    u.ttu.measures = [d] →
    u.recordRing (u.f A.ttuMeasCfg 8 8) 2 = true →
    (u.ring (u.f A.ttuMeasCfg 8 8)).waiting = b :: l →
    (u.ring (u.f A.ttuMeasCfg 8 8)).fill = 0 →
    d.length ≤ b.len →
    Completes (.measForward dt) s (fun t => t.ttu.measures = [] ∧ Emission.hostWrite b.addr d ∈ t.out)) ∧
  (∀ (s u : State) (dt : Nat) (d : Bytes), s.canonical = true → u = s.advance dt →
    u.ttuFrozen = false →
    u.ttu.measures = [d] →
    u.recordRing (u.f A.ttuMeasCfg 8 8) 2 = false →
    Completes (.measForward dt) s (fun t => t.ttu.measures = [d])) ∧
  (∀ (s u : State) (dt p : Nat), s.canonical = true → u = s.advance dt →
    p < 8 →
    u.mpMode p = 1 →
    Completes (.measClose dt p) s (fun t => ∀ m ∈ (t.prog p).open_, m.full = true ∨ scale16 u.ts.acc 0 < m.start.ts + (u.mpEnd p).1 ∧ (t.prog p).closed.length = (u.prog p).closed.length + ((u.prog p).open_.filter (fun m => !m.full && decide (m.start.ts + (u.mpEnd p).1 ≤ scale16 u.ts.acc 0))).length)) ∧
  (∀ (s u : State) (dt p : Nat), s.canonical = true → u = s.advance dt →
    p < 8 →
    p < u.ttu.progs.length →
    u.gateDue p = true →
    Completes (.measGateClose dt p) s (fun t => (t.prog p).gate = (u.prog p).gate + 1 ∧ (t.prog p).seq = ((u.prog p).seq + 1) % 2 ^ 32 ∧ (t.prog p).closed.length = (u.prog p).closed.length + 1)) ∧
  (∀ (s u : State) (dt c k : Nat) (v : Int), s.canonical = true → u = s.advance dt →
    c < 14 →
    c < u.ttu.chans.length →
    u.bit A.ttuCalCfg 0 = true →
    u.ttuFrozen = false →
    u.domainOn 6 = true →
    u.burstGrid = some k →
    u.ttu.calGrid ≠ k →
    u.calibrated c = true →
    Completes (.calBurst dt [(c, v)]) s (fun t => (t.chan c).burst = some (scale16 u.ts.meas 0 - u.tagDelay c) ∧ (t.chan c).table = some u.ts.meas ∧ (t.chan c).calPending = (if 50 < (v - u.sf (A.ttuChCalofs c) 0 32).natAbs then some v else (u.chan c).calPending) ∧ t.ttu.calGrid = k ∧ t.ttu.calUntil = u.ts.meas + burstLength)) ∧
  (∀ (s u : State) (dt : Nat) (l : List (Nat × Int)), s.canonical = true → u = s.advance dt →
    u.burstGrid = none →
    Completes (.calBurst dt l) s (fun t => t = u))

/-- R192 to R194, R198 and R206 with the classification of R219. -/
def Obligations.FrameReceptionCompletes : Prop :=
  (∀ (s u : State) (dt link : Nat) (x : RxPhys), s.canonical = true → u = s.advance dt →
    link < 8 →
    u.linkUp link = false →
    Completes (.frameRx dt link x) s (fun t => t = u)) ∧
  (∀ (s u : State) (dt link ago : Nat) (d : Bytes) (g : Bool), s.canonical = true → u = s.advance dt →
    link < 8 →
    link < u.ports.links.length →
    u.linkUp link = true →
    (u.lnk link).rxExpress = none →
    u.cellsHeld link + cellsFor (min (d.length + 4) (u.maxFrame link 0 + 1)) ≤ cellsOf (u.macMode (link / 4)) →
    d.length + 4 < 64 →
    d.length + 4 ≤ u.maxFrame link 0 →
    Completes (.frameRx dt link ⟨.express, .frame g, d, ago, false, 0, 0⟩) s (fun t => (t.rd (A.macLinkRunt link)).toNat = min ((u.rd (A.macLinkRunt link)).toNat + 1) 0xFFFFFFFF ∧ (t.lnk link).rxExpress = none)) ∧
  (∀ (s u : State) (dt link ago : Nat) (d : Bytes) (g : Bool), s.canonical = true → u = s.advance dt →
    link < 8 →
    link < u.ports.links.length →
    u.linkUp link = true →
    (u.lnk link).rxExpress = none →
    u.cellsHeld link + cellsFor (min (d.length + 4) (u.maxFrame link 0 + 1)) ≤ cellsOf (u.macMode (link / 4)) →
    u.maxFrame link 0 < d.length + 4 →
    Completes (.frameRx dt link ⟨.express, .frame g, d, ago, false, 0, 0⟩) s (fun t => (t.rd (A.macLinkOversize link)).toNat = min ((u.rd (A.macLinkOversize link)).toNat + 1) 0xFFFFFFFF ∧ (t.lnk link).rxExpress = none)) ∧
  (∀ (s u : State) (dt link ago : Nat) (d : Bytes) (g : Bool), s.canonical = true → u = s.advance dt →
    link < 8 →
    link < u.ports.links.length →
    u.linkUp link = true →
    (u.lnk link).rxExpress = none →
    cellsOf (u.macMode (link / 4)) < u.cellsHeld link + cellsFor (min (d.length + 4) (u.maxFrame link 0 + 1)) →
    Completes (.frameRx dt link ⟨.express, .frame g, d, ago, false, 0, 0⟩) s (fun t => (t.rd (A.macLinkFullDrop link)).toNat = min ((u.rd (A.macLinkFullDrop link)).toNat + 1) 0xFFFFFFFF)) ∧
  (∀ (s u : State) (dt link ago : Nat) (d : Bytes), s.canonical = true → u = s.advance dt →
    link < 8 →
    link < u.ports.links.length →
    u.linkUp link = true →
    (u.lnk link).rxExpress = none →
    u.cellsHeld link + cellsFor (min (d.length + 4) (u.maxFrame link 0 + 1)) ≤ cellsOf (u.macMode (link / 4)) →
    60 ≤ d.length →
    d.length + 4 ≤ u.maxFrame link 0 →
    Completes (.frameRx dt link ⟨.express, .frame false, d, ago, false, 0, 0⟩) s (fun t => (t.rd (A.macLinkFcsErr link)).toNat = min ((u.rd (A.macLinkFcsErr link)).toNat + 1) 0xFFFFFFFF ∧ t.ports.claims = u.ports.claims)) ∧
  (∀ (s u : State) (dt link ago : Nat) (d : Bytes), s.canonical = true → u = s.advance dt →
    link < 8 →
    link < u.ports.links.length →
    u.linkUp link = true →
    (u.lnk link).rxExpress = none →
    u.cellsHeld link + cellsFor (min (d.length + 4) (u.maxFrame link 0 + 1)) ≤ cellsOf (u.macMode (link / 4)) →
    60 ≤ d.length →
    d.length + 4 ≤ u.maxFrame link 0 →
    (packetOf d).etype = 0x8808 →
    beAt (packetOf d).body 0 2 ≠ 1 →
    Completes (.frameRx dt link ⟨.express, .frame true, d, ago, false, 0, 0⟩) s (fun t => (t.rd (A.macLinkCtrlOther link)).toNat = min ((u.rd (A.macLinkCtrlOther link)).toNat + 1) 0xFFFFFFFF ∧ t.ports.claims = u.ports.claims)) ∧
  (∀ (s u : State) (dt link ago k : Nat) (d : Bytes), s.canonical = true → u = s.advance dt →
    link < 8 →
    link < u.ports.links.length →
    u.linkUp link = true →
    (u.lnk link).rxExpress = none →
    u.cellsHeld link + cellsFor (min (d.length + 4) (u.maxFrame link 0 + 1)) ≤ cellsOf (u.macMode (link / 4)) →
    60 ≤ d.length →
    d.length + 4 ≤ u.maxFrame link 0 →
    (packetOf d).etype = 0x0806 →
    (packetOf d).ipSumOk = true →
    (packetOf d).udpSumOk = true →
    beAt (packetOf d).body 6 2 = 1 →
    u.atFaulty link (mapped (slice (packetOf d).body 24 4)) (packetOf d).tags = false →
    u.matchAddr link (mapped (slice (packetOf d).body 24 4)) (packetOf d).tags = some k →
    bitOf (u.hrcWord A.hrcCfg) 0 = true →
    Completes (.frameRx dt link ⟨.express, .frame true, d, ago, false, 0, 0⟩) s (fun t => t.ports.claims = u.ports.claims ++ [⟨.arp, ⟨link, u.rxInstant link (u.nowPs - ago), d⟩⟩])) ∧
  (∀ (s u : State) (dt link ago fc fu : Nat) (e : RxEnd) (d : Bytes) (p : Bool), s.canonical = true → u = s.advance dt →
    link < 8 →
    u.linkUp link = true →
    Completes (.frameRx dt link ⟨.unknown, e, d, ago, p, fc, fu⟩) s (fun t => (t.rd (A.macLinkSmdErr link)).toNat = min ((u.rd (A.macLinkSmdErr link)).toNat + 1) 0xFFFFFFFF ∧ t.ports = u.ports)) ∧
  (∀ (s u : State) (dt link ago f : Nat) (d : Bytes), s.canonical = true → u = s.advance dt →
    link < 8 →
    link < u.ports.links.length →
    u.linkUp link = true →
    (u.lnk link).rxPre = none →
    u.cellsHeld link + cellsFor (min d.length (u.maxFrame link 0 + 1)) ≤ cellsOf (u.macMode (link / 4)) →
    d.length ≤ u.maxFrame link 0 →
    Completes (.frameRx dt link ⟨.start f, .fragment true, d, ago, false, 0, 0⟩) s (fun t => (t.rd (A.macLinkFragRx link)).toNat = min ((u.rd (A.macLinkFragRx link)).toNat + 1) 0xFFFFFFFF ∧ (t.lnk link).rxPre = some ⟨f % 4, 1, u.nowPs - ago, d, false, false⟩)) ∧
  (∀ (s u : State) (dt link ago f n : Nat) (d : Bytes) (e : RxEnd) (x : RxOpen) (p : Bool), s.canonical = true → u = s.advance dt →
    link < 8 →
    u.linkUp link = true →
    (u.lnk link).rxPre = some x →
    x.dead = false →
    x.phy = false →
    64 ≤ x.data.length →
    (x.frame ≠ f % 4 ∨ x.frags = 0 ∨ (x.frags - 1) % 4 ≠ n % 4) →
    Completes (.frameRx dt link ⟨.cont f n, e, d, ago, p, 0, 0⟩) s (fun t => (t.rd (A.macLinkAssyErr link)).toNat = min ((u.rd (A.macLinkAssyErr link)).toNat + 1) 0xFFFFFFFF ∧ (t.lnk link).rxPre = none))

/-- R185, R186, R191, R199, R201, R202, R204, R430 and R490. -/
def Obligations.LinkEventsComplete : Prop :=
  (∀ (s u : State) (dt link occ : Nat), s.canonical = true → u = s.advance dt →
    link < 8 →
    u.bit (A.macLinkStatus link) 5 = true →
    u.cellsHeld link = occ →
    occ ≤ fld (u.flowWord link 0 (A.macLinkWeirLow link)) 0 14 →
    Completes (.weirLow dt link occ) s (fun t => t.bit (A.macLinkStatus link) 5 = false ∧ t.f (A.macLinkBufOcc link) 0 14 = u.cellsHeld link)) ∧
  (∀ (s u : State) (dt link : Nat), s.canonical = true → u = s.advance dt →
    link < 8 →
    u.bit (A.macLinkStatus link) 5 = true →
    bitOf (u.flowWord link 1 (A.macLinkPauseCfg link)) 0 = true →
    u.linkUp link = true →
    (u.lnk link).refreshAt ≤ u.ts.meas →
    (u.expressSlot link 60).1.isSome = true →
    Completes (.pauseRefresh dt link) s (fun t => Emission.pause link (fld (u.flowWord link 1 (A.macLinkPauseCfg link)) 16 16) ∈ t.out)) ∧
  (∀ (s u : State) (dt link a q : Nat) (l : List (Nat × Nat)), s.canonical = true → u = s.advance dt →
    link < 8 →
    (u.lnk link).pauseAt = (a, q) :: l →
    a ≤ u.nowPs →
    (u.lnk link).ignoreUntil ≤ u.nowNs →
    q ≠ 0 →
    Completes (.pauseEffect dt link) s (fun t => (t.lnk link).hold = some (a + q * 64 * u.byteTime link) ∧ t.bit (A.macLinkStatus link) 4 = true ∧ (t.lnk link).pauseAt = l)) ∧
  (∀ (s u : State) (dt link a : Nat) (l : List (Nat × Nat)), s.canonical = true → u = s.advance dt →
    link < 8 →
    (u.lnk link).pauseAt = (a, 0) :: l →
    a ≤ u.nowPs →
    (u.lnk link).ignoreUntil ≤ u.nowNs →
    Completes (.pauseEffect dt link) s (fun t => (t.lnk link).hold = none ∧ t.bit (A.macLinkStatus link) 4 = false)) ∧
  (∀ (s u : State) (dt link e : Nat), s.canonical = true → u = s.advance dt →
    link < 8 →
    (u.lnk link).hold = some e →
    e ≤ u.nowPs →
    Completes (.pauseHoldEnd dt link) s (fun t => (t.lnk link).hold = none ∧ t.bit (A.macLinkStatus link) 4 = false)) ∧
  (∀ (s u : State) (dt link e : Nat), s.canonical = true → u = s.advance dt →
    link < 8 →
    (u.lnk link).hold = some e →
    fld (u.flowWord link 0 (A.macPauseLimit (link / 4))) 0 10 * 1000000000 ≤ ((u.settleHeld link).lnk link).heldPs →
    Completes (.pauseOverlimit dt link) s (fun t => (t.lnk link).hold = none ∧ (t.lnk link).ignoreUntil = (u.nowNs / 1000000000 + 1) * 1000000000 ∧ t.bit (A.macLinkEvent link) 4 = true)) ∧
  (∀ (s u : State) (dt link rx tx : Nat), s.canonical = true → u = s.advance dt →
    link < 8 →
    (u.lnk link).squelched = false →
    u.linkAllowed link = true →
    u.linkUp link = false →
    Completes (.linkUp dt link rx tx) s (fun t => t.linkUp link = true ∧ t.f (A.macLinkRxDyn link) 0 16 = rx % 65536 ∧ t.f (A.macLinkTxDyn link) 0 16 = tx % 65536)) ∧
  (∀ (s u : State) (dt l rx tx : Nat), s.canonical = true → u = s.advance dt →
    l < 8 →
    u.laneAllowed l = true →
    u.laneUp l = false →
    Completes (.linkUp dt (8 + l) rx tx) s (fun t => t.laneUp l = true ∧ t.f (A.cmacLaneRxDyn l) 0 16 = rx % 65536)) ∧
  (∀ (s u : State) (dt link : Nat) (lost : LineLock), s.canonical = true → u = s.advance dt →
    link < 8 →
    u.needsLock link lost = true →
    u.linkUp link = true →
    Completes (.linkDown dt link lost) s (fun t => t.linkUp link = false ∧ (t.rd (A.macLinkPhyErr link)).toNat = min ((u.rd (A.macLinkPhyErr link)).toNat + (u.lnk link).receiving) 0xFFFFFFFF ∧ t.bit (A.macLinkEvent link) 1 = true)) ∧
  (∀ (s u : State) (dt : Nat) (lost : LineLock) (link : Nat), s.canonical = true → u = s.advance dt →
    link < 16 →
    u.needsLock link lost = false →
    exec (.linkDown dt link lost) s = .next (u)) ∧
  (∀ (s u : State) (dt l : Nat) (lost : LineLock), s.canonical = true → u = s.advance dt →
    l < 8 →
    lost ≠ .marker →
    u.laneUp l = true →
    Completes (.linkDown dt (8 + l) lost) s (fun t => t.laneUp l = false ∧ t.bit (A.cmacLaneEvent l) 1 = true)) ∧
  (∀ (s u : State) (dt c p : Nat), s.canonical = true → u = s.advance dt →
    c < 2 →
    1 ≤ p →
    p ≤ 4 →
    Completes (.cageInsert dt c true 0x11 p) s (fun t => t.bit (A.macStatus c) 2 = true ∧ t.bit (A.macStatus c) 3 = true ∧ t.rd (A.macCageFault c) = 0)) ∧
  (∀ (s u : State) (dt c i p : Nat), s.canonical = true → u = s.advance dt →
    c < 2 →
    Completes (.cageInsert dt c false i p) s (fun t => t.bit (A.macStatus c) 2 = true ∧ t.bit (A.macStatus c) 3 = false ∧ t.rd (A.macCageFault c) = 0x42)) ∧
  (∀ (s u : State) (dt c p : Nat), s.canonical = true → u = s.advance dt →
    c < 2 →
    1 ≤ p →
    p ≤ 4 →
    Completes (.cageInsert dt (2 + c) true 0x11 p) s (fun t => t.bit A.cmacStatus (2 * c) = true ∧ t.bit A.cmacStatus (2 * c + 1) = true)) ∧
  (∀ (s u : State) (dt c : Nat), s.canonical = true → u = s.advance dt →
    c < 2 →
    Completes (.cageRemove dt c) s (fun t => t.bit (A.macStatus c) 2 = false ∧ t.bit (A.macStatus c) 3 = false)) ∧
  (∀ (s u : State) (dt c : Nat), s.canonical = true → u = s.advance dt →
    c < 2 →
    Completes (.cageRemove dt (2 + c)) s (fun t => t.bit A.cmacStatus (2 * c) = false ∧ t.bit A.cmacStatus (2 * c + 1) = false)) ∧
  (∀ (s u : State) (dt link : Nat), s.canonical = true → u = s.advance dt →
    link < 8 →
    link < u.ports.links.length →
    u.preempt link = 1 →
    (u.lnk link).verifyAt ≤ u.ts.meas →
    (u.lnk link).verifySent < 3 →
    Completes (.verifySend dt link) s (fun t => (t.lnk link).verifySent = (u.lnk link).verifySent + 1 ∧ (t.lnk link).verifyAt = u.ts.meas + 10000000 * 2 ^ 48 ∧ Emission.mpacket link 0 ∈ t.out)) ∧
  (∀ (s u : State) (dt link : Nat), s.canonical = true → u = s.advance dt →
    link < 8 →
    u.preempt link = 1 →
    (u.lnk link).verifyAt ≤ u.ts.meas →
    3 ≤ (u.lnk link).verifySent →
    Completes (.verifySend dt link) s (fun t => t.preempt link = 3 ∧ t.bit (A.macLinkEvent link) 5 = true)) ∧
  (∀ (s u : State) (dt link : Nat), s.canonical = true → u = s.advance dt →
    link < 8 →
    u.preempt link = 1 →
    Completes (.verifyResponse dt link) s (fun t => t.preempt link = 2)) ∧
  (∀ (s u : State) (dt src link : Nat), s.canonical = true → u = (s.advance dt).dueFirst →
    u.clearSource src →
    link < 8 →
    link < u.ports.links.length →
    u.domainOn 12 = true →
    u.linkUp link = true →
    (u.lnk link).probe = none →
    (u.draw.2.expressSlot link 60).1.isSome = true →
    Completes (.probeStart dt src link) s (fun t => (t.lnk link).probe.isSome = true ∧ t.bit (A.macLinkProbeCtl link) 0 = true)) ∧
  (∀ (s u : State) (dt link nonce cap tx start : Nat), s.canonical = true → u = s.advance dt →
    link < 8 →
    (u.lnk link).probe = some (nonce, tx, start) →
    u.ts.meas ≤ 1000000 * 2 ^ 48 + start →
    Completes (.probeReturn dt link nonce cap) s (fun t => (t.lnk link).probe = none ∧ t.rd (A.macLinkProbeResult link) = wordOfInt ((u.rxInstant link cap : Int) - tx) ∧ t.bit (A.macLinkEvent link) 6 = true)) ∧
  (∀ (s u : State) (dt link nonce tx start : Nat), s.canonical = true → u = s.advance dt →
    link < 8 →
    (u.lnk link).probe = some (nonce, tx, start) →
    1000000 * 2 ^ 48 + start ≤ u.ts.meas →
    Completes (.probeTimeout dt link) s (fun t => (t.lnk link).probe = none ∧ t.rd (A.macLinkProbeResult link) = 0xFFFFFFFF ∧ t.bit (A.macLinkProbeCtl link) 0 = false))

/-- R208 to R210, R213, R205 and R336. -/
def Obligations.DepartureEventsComplete : Prop :=
  (∀ (s u : State) (dt link z : Nat) (x : Handed) (l : List Handed), s.canonical = true → u = s.advance dt →
    link < 8 →
    (u.lnk link).ready = x :: l →
    (u.setLink link (fun y => { y with ready := l })).freeSlot link (500000 + x.h) (x.h + u.tailHorizon link) x.len true = some z →
    Completes (.responseBook dt link) s (fun t => (t.lnk link).ready = l ∧ (t.lnk link).slots = ⟨x.answer, x.req, x.len, z, z, false, none, false⟩ :: (u.lnk link).slots)) ∧
  (∀ (s u : State) (dt link : Nat) (x : Handed) (l : List Handed), s.canonical = true → u = s.advance dt →
    link < 8 →
    (u.lnk link).ready = x :: l →
    (u.setLink link (fun y => { y with ready := l })).freeSlot link (500000 + x.h) (x.h + u.tailHorizon link) x.len true = none →
    Completes (.responseBook dt link) s (fun t => (t.lnk link).ready = l ∧ (t.rd (A.macLinkTailDrop link)).toNat = min ((u.rd (A.macLinkTailDrop link)).toNat + 1) 0xFFFFFFFF)) ∧
  (∀ (s u : State) (dt link : Nat) (x : Slot), s.canonical = true → u = s.advance dt →
    link < 8 →
    earliestSlot (u.lnk link).slots (fun y => y.final.isNone && decide (y.slot ≤ 500000 + u.nowPs)) = some x →
    Completes (.finalise dt link) s (fun t => ∀ y ∈ (t.lnk link).slots, y.slot = x.slot → y.final.isSome = true)) ∧
  (∀ (s u : State) (dt link : Nat) (x : Slot), s.canonical = true → u = s.advance dt →
    link < 8 →
    earliestSlot (u.lnk link).slots (fun y => !y.committed && y.final.isSome && decide (y.slot ≤ 300000 + u.nowPs)) = some x →
    u.heldAt link u.nowPs = false →
    Completes (.commitPoint dt link) s (fun t => ∀ y ∈ (t.lnk link).slots, y.slot = x.slot → y.committed = true)) ∧
  (∀ (s u : State) (dt link tx : Nat) (x : Slot) (d : Bytes), s.canonical = true → u = s.advance dt →
    link < 8 →
    earliestSlot (u.lnk link).slots (fun y => y.committed && decide (y.slot ≤ u.nowPs)) = some x →
    x.final = some (d, tx) →
    Completes (.slotStart dt link) s (fun t => Emission.frame link (stampOfPs tx) (withFcs d) ∈ t.out)) ∧
  (∀ (s u : State) (dt link : Nat), s.canonical = true → u = s.advance dt →
    link < 8 →
    Completes (.ageDrop dt link) s (fun t => ∀ y ∈ (t.lnk link).slots, y.committed = true ∨ u.nowPs < y.first + u.slotAge link)) ∧
  (∀ (s u : State) (dt link : Nat) (last : Bool) (x : PreFrame) (l : List PreFrame), s.canonical = true → u = s.advance dt →
    link < 8 →
    (u.lnk link).queue = x :: l →
    (u.lnk link).onLine = none →
    u.linkUp link = true →
    u.heldAt link u.nowPs = false →
    (u.preCourse link (u.expressTimes link) ⟨x, u.nowPs, decide (u.preempt link = 2), 0⟩).isSome = true →
    Completes (.preemptableFrameSent dt link last) s (fun t => (t.lnk link).onLine = some ⟨x, u.nowPs, decide (u.preempt link = 2), 0⟩ ∧ (t.lnk link).queue = l)) ∧
  (∀ (s u : State) (dt link : Nat) (o : OnLine), s.canonical = true → u = s.advance dt →
    link < 8 →
    (u.lnk link).onLine = some o →
    (u.lineCourse link o).1 ≤ u.nowPs →
    Completes (.preemptableFrameSent dt link true) s (fun t => Emission.frame link (stampOfPs ((o.start : Int) + u.dTx link).toNat) (withFcs o.frame.data) ∈ t.out))

/-- R220, R221, R223, R224, R238 and R246. -/
def Obligations.RequestEventsComplete : Prop :=
  (∀ (s u : State) (dt : Nat) (c : Claim), s.canonical = true → u = s.advance dt →
    u.ports.claims.find? (fun x => decide (x.kind = .arp)) = some c →
    c.frame.sl < u.ports.links.length →
    Completes (.arpRequest dt) s (fun t => t.ports.claims = u.ports.claims.erase c ∧ (t.lnk c.frame.sl).queue.length = (u.lnk c.frame.sl).queue.length + 1)) ∧
  (∀ (s u : State) (dt : Nat) (c : Claim), s.canonical = true → u = s.advance dt →
    u.ports.claims.find? (fun x => decide (x.kind = .nd)) = some c →
    c.frame.sl < u.ports.links.length →
    Completes (.neighborSolicitation dt) s (fun t => t.ports.claims = u.ports.claims.erase c ∧ (t.lnk c.frame.sl).queue.length = (u.lnk c.frame.sl).queue.length + 1)) ∧
  (∀ (s u : State) (dt k : Nat) (c : Claim), s.canonical = true → u = s.advance dt →
    u.ports.claims.find? (fun x => match x.kind with | .exc _ => true | _ => false) = some c →
    c.kind = .exc k →
    u.excRing k = 0xFF →
    c.frame.sl < 8 →
    Completes (.exceptionFrame dt) s (fun t => t.ports.claims = u.ports.claims.erase c ∧ (t.rd (A.macLinkUnclaimed c.frame.sl)).toNat = min ((u.rd (A.macLinkUnclaimed c.frame.sl)).toNat + 1) 0xFFFFFFFF)) ∧
  (∀ (s u : State) (dt k : Nat) (c : Claim), s.canonical = true → u = s.advance dt →
    u.ports.claims.find? (fun x => match x.kind with | .exc _ => true | _ => false) = some c →
    c.kind = .exc k →
    u.excRing k ≠ 0xFF →
    c.frame.sl < 8 →
    Completes (.exceptionFrame dt) s (fun t => t.ports.claims = u.ports.claims.erase c ∧ t.rd64 (A.macLinkRxToHost c.frame.sl) = min (u.rd64 (A.macLinkRxToHost c.frame.sl) + 1) (2 ^ 64 - 1))) ∧
  (∀ (s u : State) (dt p : Nat) (r : Request) (l : List Request), s.canonical = true → u = s.advance dt →
    p < 16 →
    u.queue p = r :: l →
    r.kind = .ntp →
    r.pipe < 16 →
    r.frame.sl < 8 →
    Completes (.ntpRequest dt p) s (fun t => t.queue p = l ∧ t.rd64 (A.svpPipeReqNtp p) = min (u.rd64 (A.svpPipeReqNtp p) + 1) (2 ^ 64 - 1))) ∧
  (∀ (s u : State) (dt p : Nat) (r : Request) (l : List Request), s.canonical = true → u = s.advance dt →
    p < 16 →
    u.queue p = r :: l →
    r.kind = .nts →
    r.pipe < 16 →
    r.frame.sl < 8 →
    Completes (.ntsRequest dt p) s (fun t => t.queue p = l ∧ t.rd64 (A.svpPipeReqNts p) = min (u.rd64 (A.svpPipeReqNts p) + 1) (2 ^ 64 - 1))) ∧
  (∀ (s u : State) (dt b : Nat) (m : BucketMove), s.canonical = true → u = s.advance dt →
    b < 256 →
    u.hrc.moves.find? (fun x => decide (x.bucket = b)) = some m →
    u.moveOver m = true →
    Completes (.bucketMoveDone dt b) s (fun t => ∀ x ∈ t.hrc.moves, x.bucket ≠ b)) ∧
  (∀ (s u : State) (dt : Nat) (m : Bytes) (d : Desc), s.canonical = true → u = s.advance dt →
    u.bit A.ntsMintCfg 0 = true →
    u.ringType (u.f A.ntsMintCfg 8 8) = 5 →
    u.ringLive (u.f A.ntsMintCfg 8 8) = true →
    (u.startWork (u.f A.ntsMintCfg 8 8)).1 = some d →
    Completes (.mintJob dt (some m)) s (fun t => (t.rd (A.ntsMintJobs)).toNat = min ((u.rd (A.ntsMintJobs)).toNat + 1) 0xFFFFFFFF))

/-- R249, R242, R244, R486 and R487. -/
def Obligations.RequestCommandsComplete : Prop :=
  (∀ (s u : State) (dt src : Nat) (cmd : Word), s.canonical = true → u = (s.advance dt).dueFirst →
    u.takesCommit src 19 (u.commandWords A.hrcQueryCmd 0 1 1 cmd) →
    Completes (.clientQuery dt src cmd [] 1) s (fun t => t.f (A.sluGroupStatus 19) 0 3 = 2 ∧ t.bit A.hrcQueryCmd 0 = false ∧ t.bit A.hrcEvent 4 = true)) ∧
  (∀ (s u : State) (dt src : Nat) (c : Word), s.canonical = true → u = (s.advance dt).dueFirst →
    u.takesPair src A.ntsCmd 1 c →
    Completes (.ntsRotateNow dt src c) s (fun t => t.nts.rotateAt = some (u.nextSecond, srcOf src))) ∧
  (∀ (s u : State) (dt src : Nat) (c : Word), s.canonical = true → u = (s.advance dt).dueFirst →
    u.takesPair src A.ntsCmd 2 c →
    Completes (.ntsPurge dt src c) s (fun t => t.nts.keys = [] ∧ t.nts.current = false ∧ t.bit A.ntsEvent 1 = true)) ∧
  (∀ (s u : State) (dt : Nat), s.canonical = true → u = s.advance dt →
    u.nts.current = false →
    u.entropyOk = true →
    Completes (.ntsKeyDrawn dt) s (fun t => t.nts.current = true ∧ t.nts.keys ≠ [])) ∧
  (∀ (s u : State) (dt a : Nat), s.canonical = true → u = s.advance dt →
    u.nts.deferred = some a →
    a ≤ u.nowNs →
    u.nts.current = false →
    u.entropyOk = true →
    Completes (.keyDeferRetry dt) s (fun t => t.nts.deferred = none ∧ t.nts.current = true ∧ t.nts.keys ≠ [])) ∧
  (∀ (s u : State) (dt a : Nat), s.canonical = true → u = s.advance dt →
    u.nts.deferred = some a →
    a ≤ u.nowNs →
    u.nts.current = true →
    u.entropyOk = true →
    Completes (.keyDeferRetry dt) s (fun t => t.nts.deferred = none ∧ t.nts.rotateAt = none ∧ (t.rd (A.ntsRotations)).toNat = min ((u.rd (A.ntsRotations)).toNat + 1) 0xFFFFFFFF)) ∧
  (∀ (s u : State) (dt a : Nat), s.canonical = true → u = s.advance dt →
    u.nts.deferred = some a →
    a ≤ u.nowNs →
    u.entropyOk = false →
    Completes (.keyDeferRetry dt) s (fun t => t.nts.deferred = some u.nextSecond ∧ (t.rd (A.pkeFeDenied)).toNat = min ((u.rd (A.pkeFeDenied)).toNat + 1) 0xFFFFFFFF)) ∧
  (∀ (s u : State) (dt src p : Nat), s.canonical = true → u = (s.advance dt).dueFirst →
    u.clearSource src →
    p < 16 →
    u.domainOn (domainOf (A.svpPipeUcodeCtl p)) = true →
    u.pipeState p = 0 →
    (u.nextActive p).isSome = true →
    Completes (.drain dt src p) s (fun t => t.pipeState p = 1)) ∧
  (∀ (s u : State) (dt p : Nat), s.canonical = true → u = s.advance dt →
    p < 16 →
    u.pipeState p = 1 →
    u.pipeBusy p = false →
    u.fenced 0 p = false →
    Completes (.drainComplete dt p) s (fun t => t.pipeState p = 2 ∧ t.f (A.svpPipeUcodeResult p) 0 2 = 1 ∧ t.f (A.svpPipeUcodeResult p) 8 8 = 0 ∧ t.fenced 0 p = true)) ∧
  (∀ (s u : State) (dt src p : Nat), s.canonical = true → u = (s.advance dt).dueFirst →
    u.clearSource src →
    p < 16 →
    u.domainOn (domainOf (A.svpPipeUcodeCtl p)) = true →
    u.pipeState p = 2 →
    Completes (.reload dt src p false) s (fun t => t.pipeState p = 3 ∧ t.f (A.svpPipeUcodeSrc p) 0 1 = 0)) ∧
  (∀ (s u : State) (dt p : Nat) (pass : Bool), s.canonical = true → u = s.advance dt →
    p < 16 →
    u.pipeState p = 3 →
    Completes (.reloadComplete dt p pass) s (fun t => t.pipeState p = 2 ∧ t.f (A.svpPipeUcodeResult p) 0 2 = 2 ∧ t.f (A.svpPipeUcodeResult p) 8 8 = (if pass = true then 0 else 0x43)))

/-- R254, R261 to R263, R265 to R267, R270 and R271. -/
def Obligations.PtpMessagesComplete : Prop :=
  (∀ (s u : State) (dt : Nat) (c : Claim), s.canonical = true → u = s.advance dt →
    u.ports.claims.find? (fun x => decide (x.kind = .ptp) && decide (mType (ptpBytes x.frame) = 1)) = some c →
    c.frame.sl < u.ports.links.length →
    u.linkUp c.frame.sl = true →
    ptpMulticast c.frame = true →
    u.ptp.ctxs = [] →
    (u.servingInst c.frame.sl (mDomain (ptpBytes c.frame)) (ptpTransport c.frame) true).isSome = true →
    Completes (.delayReqRx dt) s (fun t => t.ports.claims = u.ports.claims.erase c ∧ (t.lnk c.frame.sl).queue.length = (u.lnk c.frame.sl).queue.length + 1)) ∧
  (∀ (s u : State) (dt k : Nat) (c : Claim) (x : PtpCtx) (g : Grant), s.canonical = true → u = s.advance dt →
    u.ports.claims.find? (fun x => decide (x.kind = .ptp) && decide (mType (ptpBytes x.frame) = 1)) = some c →
    c.frame.sl < u.ports.links.length →
    u.linkUp c.frame.sl = true →
    u.ptp.ctxs = [(k, x)] →
    u.instOn x.inst = true →
    x.inst < 16 →
    x.client = clientOf (packetOf c.frame.data) →
    x.port = mPort (ptpBytes c.frame) →
    x.sl = c.frame.sl →
    cfgDomain (u.rd (A.ptpInstCfg x.inst)) = mDomain (ptpBytes c.frame) →
    x.dresp = some g →
    u.measNs < g.exp →
    logPeriod g.log ≤ x.credit →
    logPeriod g.log ≠ 0 →
    Completes (.delayReqRx dt) s (fun t => t.ports.claims = u.ports.claims.erase c ∧ (t.lnk c.frame.sl).queue.length = (u.lnk c.frame.sl).queue.length + 1)) ∧
  (∀ (s u : State) (dt : Nat) (c : Claim), s.canonical = true → u = s.advance dt →
    u.ports.claims.find? (fun x => decide (x.kind = .ptp) && decide (mType (ptpBytes x.frame) = 1)) = some c →
    ptpMulticast c.frame = false →
    u.ptp.ctxs = [] →
    Completes (.delayReqRx dt) s (fun t => t.ports.claims = u.ports.claims.erase c ∧ (t.rd (A.ptpNoGrant)).toNat = min ((u.rd (A.ptpNoGrant)).toNat + 1) 0xFFFFFFFF)) ∧
  (∀ (s u : State) (dt i : Nat) (c : Claim) (e : Nat × Bytes), s.canonical = true → u = s.advance dt →
    u.ports.claims.find? (fun x => decide (x.kind = .signal 0)) = some c →
    c.frame.sl < u.ports.links.length →
    u.linkUp c.frame.sl = true →
    u.ucastInst c.frame.sl (mDomain (ptpBytes c.frame)) (ptpTransport c.frame) = some i →
    (mTlvs (ptpBytes c.frame)).filter (fun y => decide (y.1 = 4)) = [e] →
    u.grantable i (beAt e.2 4 1 / 16) (signed (beAt e.2 5 1) 8) = true →
    u.ptp.ctxs = [] →
    fld (u.ptpWord A.ptpCfg) 16 14 ≠ 0 →
    Completes (.unicastRequestRx dt) s (fun t => t.ports.claims = u.ports.claims.erase c ∧ (t.lnk c.frame.sl).queue.length = (u.lnk c.frame.sl).queue.length + 1 ∧ (t.rd (A.ptpGrants)).toNat = min ((u.rd (A.ptpGrants)).toNat + 1) 0xFFFFFFFF ∧ t.ptp.ctxs.length = 1)) ∧
  (∀ (s u : State) (dt i : Nat) (c : Claim) (e : Nat × Bytes), s.canonical = true → u = s.advance dt →
    u.ports.claims.find? (fun x => decide (x.kind = .signal 0)) = some c →
    c.frame.sl < u.ports.links.length →
    u.linkUp c.frame.sl = true →
    u.ucastInst c.frame.sl (mDomain (ptpBytes c.frame)) (ptpTransport c.frame) = some i →
    (mTlvs (ptpBytes c.frame)).filter (fun y => decide (y.1 = 4)) = [e] →
    u.grantable i (beAt e.2 4 1 / 16) (signed (beAt e.2 5 1) 8) = false →
    Completes (.unicastRequestRx dt) s (fun t => t.ports.claims = u.ports.claims.erase c ∧ (t.lnk c.frame.sl).queue.length = (u.lnk c.frame.sl).queue.length + 1 ∧ (t.rd (A.ptpGrantDenied)).toNat = min ((u.rd (A.ptpGrantDenied)).toNat + 1) 0xFFFFFFFF ∧ t.bit A.ptpEvent 1 = true)) ∧
  (∀ (s u : State) (dt i k : Nat) (c : Claim) (x : PtpCtx) (e : Nat × Bytes), s.canonical = true → u = s.advance dt →
    u.ports.claims.find? (fun x => decide (x.kind = .signal 1)) = some c →
    c.frame.sl < u.ports.links.length →
    u.linkUp c.frame.sl = true →
    u.slaveOf c.frame = none →
    u.ucastInst c.frame.sl (mDomain (ptpBytes c.frame)) (ptpTransport c.frame) = some i →
    (mTlvs (ptpBytes c.frame)).filter (fun y => decide (y.1 = 6)) = [e] →
    u.ptp.ctxs = [(k, x)] →
    x.inst = i →
    x.client = clientOf (packetOf c.frame.data) →
    x.port = mPort (ptpBytes c.frame) →
    (x.held (beAt e.2 4 1 / 16)).isSome = true →
    Completes (.unicastCancelRx dt) s (fun t => t.ports.claims = u.ports.claims.erase c ∧ (t.lnk c.frame.sl).queue.length = (u.lnk c.frame.sl).queue.length + 1 ∧ (t.rd (A.ptpCancelled)).toNat = min ((u.rd (A.ptpCancelled)).toNat + 1) 0xFFFFFFFF ∧ ∀ y ∈ t.ptp.ctxs, y.2.held (beAt e.2 4 1 / 16) = none)) ∧
  (∀ (s u : State) (dt n m : Nat) (c : Claim), s.canonical = true → u = s.advance dt →
    u.ports.claims.find? (fun x => decide (x.kind = .signal 1)) = some c →
    u.slaveOf c.frame = some (n, m) →
    (u.slave n).chosen.isSome = true →
    Completes (.unicastCancelRx dt) s (fun t => t.ports.claims = u.ports.claims.erase c ∧ t.slvState n = 2)) ∧
  (∀ (s u : State) (dt : Nat), s.canonical = true → u = s.advance dt →
    CellList.rising u.ptp.ctxs = true →
    Completes (.grantExpire dt) s (fun t => ∀ e ∈ t.ptp.ctxs, ∀ g ∈ e.2.sync.toList ++ e.2.ann.toList ++ e.2.dresp.toList, u.measNs < g.exp)) ∧
  (∀ (s u : State) (dt n m : Nat) (c : Claim), s.canonical = true → u = s.advance dt →
    u.ports.claims.find? (fun x => decide (x.kind = .ptp) && decide (mType (ptpBytes x.frame) ≠ 1)) = some c →
    [0, 1].find? (fun y => u.slvOn y && decide (u.slvState y ≠ 0) && decide (u.slvLink y = c.frame.sl) && decide (cfgDomain (u.rd (A.ptpSlvCfg y)) = mDomain (ptpBytes c.frame)) && decide (cfgTransport (u.rd (A.ptpSlvCfg y)) = ptpTransport c.frame)) = some n →
    n < u.ptp.slaves.length →
    mType (ptpBytes c.frame) = 11 →
    u.masterSlot n (packetOf c.frame.data).sip (mPort (ptpBytes c.frame)) = some m →
    m < (u.slave n).masters.length →
    Completes (.slaveMessageRx dt) s (fun t => t.ports.claims = u.ports.claims.erase c ∧ ((t.slave n).masters.getD m none).map (fun f => f.ann) = some (ptpBytes c.frame))) ∧
  (∀ (s u : State) (dt n : Nat) (c : Claim), s.canonical = true → u = s.advance dt →
    u.ports.claims.find? (fun x => decide (x.kind = .ptp) && decide (mType (ptpBytes x.frame) ≠ 1)) = some c →
    [0, 1].find? (fun y => u.slvOn y && decide (u.slvState y ≠ 0) && decide (u.slvLink y = c.frame.sl) && decide (cfgDomain (u.rd (A.ptpSlvCfg y)) = mDomain (ptpBytes c.frame)) && decide (cfgTransport (u.rd (A.ptpSlvCfg y)) = ptpTransport c.frame)) = some n →
    n < u.ptp.slaves.length →
    mType (ptpBytes c.frame) = 0 →
    u.chosenPort n = some (mPort (ptpBytes c.frame)) →
    beAt (ptpBytes c.frame) 6 1 / 2 % 2 = 0 →
    Completes (.slaveMessageRx dt) s (fun t => t.ports.claims = u.ports.claims.erase c ∧ (t.rd (A.ptpSlvSyncRx n)).toNat = min ((u.rd (A.ptpSlvSyncRx n)).toNat + 1) 0xFFFFFFFF ∧ (t.slave n).pendSync = none)) ∧
  (∀ (s u : State) (dt n q : Nat) (c : Claim) (t2 k : Int), s.canonical = true → u = s.advance dt →
    u.ports.claims.find? (fun x => decide (x.kind = .ptp) && decide (mType (ptpBytes x.frame) ≠ 1)) = some c →
    [0, 1].find? (fun y => u.slvOn y && decide (u.slvState y ≠ 0) && decide (u.slvLink y = c.frame.sl) && decide (cfgDomain (u.rd (A.ptpSlvCfg y)) = mDomain (ptpBytes c.frame)) && decide (cfgTransport (u.rd (A.ptpSlvCfg y)) = ptpTransport c.frame)) = some n →
    n < u.ptp.slaves.length →
    mType (ptpBytes c.frame) = 8 →
    u.chosenPort n = some (mPort (ptpBytes c.frame)) →
    (u.slave n).pendSync = some (q, t2, k) →
    q = mSeq (ptpBytes c.frame) →
    Completes (.slaveMessageRx dt) s (fun t => t.ports.claims = u.ports.claims.erase c ∧ (t.rd (A.ptpSlvSyncRx n)).toNat = min ((u.rd (A.ptpSlvSyncRx n)).toNat + 1) 0xFFFFFFFF ∧ (t.slave n).pendSync = none)) ∧
  (∀ (s u : State) (dt n : Nat) (c : Claim), s.canonical = true → u = s.advance dt →
    u.ports.claims.find? (fun x => decide (x.kind = .ptp) && decide (mType (ptpBytes x.frame) ≠ 1)) = some c →
    [0, 1].find? (fun y => u.slvOn y && decide (u.slvState y ≠ 0) && decide (u.slvLink y = c.frame.sl) && decide (cfgDomain (u.rd (A.ptpSlvCfg y)) = mDomain (ptpBytes c.frame)) && decide (cfgTransport (u.rd (A.ptpSlvCfg y)) = ptpTransport c.frame)) = some n →
    n < u.ptp.slaves.length →
    mType (ptpBytes c.frame) = 9 →
    u.chosenPort n = some (mPort (ptpBytes c.frame)) →
    slice (ptpBytes c.frame) 44 10 = u.portId (slvPort n) →
    Completes (.slaveMessageRx dt) s (fun t => t.ports.claims = u.ports.claims.erase c ∧ ∀ e ∈ (t.slave n).dreqs, e.1 ≠ mSeq (ptpBytes c.frame))) ∧
  (∀ (s u : State) (dt n m : Nat) (f : Foreign), s.canonical = true → u = s.advance dt →
    n < 2 →
    (u.slave n).chosen = some m →
    (u.slave n).masters.getD m none = some f →
    f.last + u.f (A.ptpSlvRates n) 12 4 * logPeriod (u.slvLogAnn n) * 2 ^ 48 ≤ u.ts.meas →
    Completes (.annTimeout dt n) s (fun t => (t.slave n).chosen = none ∧ t.slvState n = 1 ∧ t.bit (A.ptpSlvEvent n) 3 = true)) ∧
  (∀ (s u : State) (dt n : Nat), s.canonical = true → u = s.advance dt →
    n < 2 →
    Completes (.slaveGrantRenew dt n) s (fun t => ∀ g ∈ (t.slave n).grants, u.measNs < g.exp)) ∧
  (∀ (s u : State) (dt n r : Nat) (g : SlaveGrant), s.canonical = true → u = s.advance dt →
    n < 2 →
    (u.slave n).grants = [g] →
    u.measNs < g.exp →
    g.renewAt = some r →
    r ≤ u.measNs →
    g.master < 4 →
    (g.master, g.mtype) ∈ u.wantedGrants n →
    u.slvLink n < u.ports.links.length →
    u.linkUp (u.slvLink n) = true →
    Completes (.slaveGrantRenew dt n) s (fun t => (t.slave n).grants = [{ g with renewAt := none }] ∧ (u.lnk (u.slvLink n)).queue.length < (t.lnk (u.slvLink n)).queue.length)) ∧
  (∀ (s u : State) (dt n m : Nat) (c : Claim) (e : Nat × Bytes), s.canonical = true → u = s.advance dt →
    u.ports.claims.find? (fun x => decide (x.kind = .signal 2)) = some c →
    u.slaveOf c.frame = some (n, m) →
    n < u.ptp.slaves.length →
    (mTlvs (ptpBytes c.frame)).filter (fun y => decide (y.1 = 5)) = [e] →
    beAt e.2 6 4 ≠ 0 →
    Completes (.grantUnicastTransmissionRx dt) s (fun t => t.ports.claims = u.ports.claims.erase c ∧ ⟨m, beAt e.2 4 1 / 16, u.measNs + beAt e.2 6 4 * 1000000000, some (u.measNs + beAt e.2 6 4 * 500000000)⟩ ∈ (t.slave n).grants)) ∧
  (∀ (s u : State) (dt n m : Nat) (c : Claim) (e : Nat × Bytes), s.canonical = true → u = s.advance dt →
    u.ports.claims.find? (fun x => decide (x.kind = .signal 2)) = some c →
    u.slaveOf c.frame = some (n, m) →
    (u.slave n).chosen.isSome = true →
    (mTlvs (ptpBytes c.frame)).filter (fun y => decide (y.1 = 5)) = [e] →
    beAt e.2 6 4 = 0 →
    Completes (.grantUnicastTransmissionRx dt) s (fun t => t.ports.claims = u.ports.claims.erase c ∧ t.slvState n = 2 ∧ t.bit (A.ptpSlvEvent n) 2 = true)) ∧
  (∀ (s u : State) (dt x : Nat) (c : Claim), s.canonical = true → u = s.advance dt →
    u.ports.claims.find? (fun x => decide (x.kind = .esmc)) = some c →
    esmcOk (packetOf c.frame.data).body = true →
    x < 2 →
    x < u.ptp.esmc.length →
    u.synceLink x = c.frame.sl →
    u.synceLink (1 - x) ≠ c.frame.sl →
    (u.ptp.esmc.getD x ⟨0xF, 0xFF, 0, 0, 0⟩).sec ≠ u.nowNs / 1000000000 →
    Completes (.esmcRx dt) s (fun t => t.ports.claims = u.ports.claims.erase c ∧ (t.rd (A.ptpEsmcRx)).toNat = min ((u.rd (A.ptpEsmcRx)).toNat + 1) 0xFFFFFFFF ∧ (t.ptp.esmc.getD x ⟨0xF, 0xFF, 0, 0, 0⟩).ssm = beAt (packetOf c.frame.data).body 13 1 % 16)) ∧
  (∀ (s u : State) (dt : Nat) (c : Claim), s.canonical = true → u = s.advance dt →
    u.ports.claims.find? (fun x => decide (x.kind = .esmc)) = some c →
    esmcOk (packetOf c.frame.data).body = false →
    Completes (.esmcRx dt) s (fun t => t.ports.claims = u.ports.claims.erase c ∧ (t.rd (A.ptpEsmcBad)).toNat = min ((u.rd (A.ptpEsmcBad)).toNat + 1) 0xFFFFFFFF))

/-- R278, R281, R282, R284, R285, R289, R290, R292. -/
def Obligations.ReceiptCommandsComplete : Prop :=
  (∀ (s u : State) (dt p : Nat) (r : Request) (l : List Request), s.canonical = true → u = s.advance dt →
    p < 16 →
    p < u.hrc.queues.length →
    u.queue p = r :: l →
    u.untracked r = false →
    profInterval r = 0 →
    r.pipe < 16 →
    r.frame.sl < 8 →
    r.kind = .etxel →
    u.admitCheck = none →
    Completes (.etxelRequest dt p) s (fun t => t.queue p = l ∧ t.rcp.leaves.length = u.rcp.leaves.length + 1)) ∧
  (∀ (s u : State) (dt p : Nat) (r : Request) (l : List Request), s.canonical = true → u = s.advance dt →
    p < 16 →
    p < u.hrc.queues.length →
    u.queue p = r :: l →
    u.untracked r = false →
    profInterval r = 0 →
    r.pipe < 16 →
    r.frame.sl < 8 →
    r.kind = .roughtime →
    u.admitCheck = none →
    Completes (.roughtimeRequest dt p) s (fun t => t.queue p = l ∧ t.rcp.leaves.length = u.rcp.leaves.length + 1)) ∧
  (∀ (s u : State) (dt p st : Nat) (r : Request) (l : List Request), s.canonical = true → u = s.advance dt →
    p < 16 →
    p < u.hrc.queues.length →
    u.queue p = r :: l →
    u.untracked r = false →
    profInterval r = 0 →
    r.pipe < 16 →
    r.frame.sl < 8 →
    r.kind = .etxel →
    u.admitCheck = some st →
    r.frame.sl < u.ports.links.length →
    u.linkUp r.frame.sl = true →
    Completes (.etxelRequest dt p) s (fun t => t.queue p = l ∧ t.rcp.leaves = u.rcp.leaves ∧ (t.lnk r.frame.sl).ready.length = (u.lnk r.frame.sl).ready.length + 1 ∧ (t.rd (refusalCounter st)).toNat = min ((u.rd (refusalCounter st)).toNat + 1) 0xFFFFFFFF)) ∧
  (∀ (s u : State) (dt : Nat) (w : ClosedWindow), s.canonical = true → u = s.advance dt →
    u.rcp.closed.find? (fun x => x.trees.all (fun y => y.done.isSome)) = some w →
    u.rcp.queue.length + (windowReleases w).length ≤ 32768 →
    Completes (.sealDone dt) s (fun t => t.rcp.closed = u.rcp.closed.filter (fun x => decide (x.number ≠ w.number)) ∧ t.rcp.queue = u.rcp.queue ++ windowReleases w ∧ (t.rd (A.rcpWindows)).toNat = min ((u.rd (A.rcpWindows)).toNat + 1) 0xFFFFFFFF)) ∧
  (∀ (s u : State) (dt : Nat) (w : ClosedWindow), s.canonical = true → u = s.advance dt →
    u.rcp.closed.find? (fun x => decide (1000000 * 2 ^ 48 + x.closedAt ≤ u.ts.meas) && !(x.trees.all (fun y => y.done.isSome))) = some w →
    u.rcp.queue.length + (treeLeaves 0 w.leaves).length ≤ 32768 →
    Completes (.sealTimeout dt) s (fun t => t.rcp.closed = u.rcp.closed.filter (fun x => decide (x.number ≠ w.number)) ∧ t.rcp.queue.length = u.rcp.queue.length + (treeLeaves 0 w.leaves).length ∧ t.bit A.rcpEvent 1 = true ∧ (t.rd (A.rcpSealFail)).toNat = min ((u.rd (A.rcpSealFail)).toNat + 1) 0xFFFFFFFF)) ∧
  (∀ (s u : State) (dt : Nat) (x : Release), s.canonical = true → u = s.advance dt →
    u.rcp.queue.find? (fun y => decide (u.rcp.paceAt.getD y.req.frame.sl 0 ≤ u.ts.meas)) = some x →
    x.req.frame.sl < u.ports.links.length →
    u.linkUp x.req.frame.sl = true →
    Completes (.receiptRelease dt) s (fun t => t.rcp.queue = u.rcp.queue.erase x ∧ (t.lnk x.req.frame.sl).ready.length = (u.lnk x.req.frame.sl).ready.length + 1)) ∧
  (∀ (s u : State) (dt : Nat) (k : OnlineKey), s.canonical = true → u = s.advance dt →
    u.rcp.online = some k →
    k.maxt < u.stamp →
    Completes (.onlineKeyExpire dt) s (fun t => t.rcp.online = none ∧ t.bit A.rcpStatus 2 = false ∧ t.bit A.rcpEvent 4 = true)) ∧
  (∀ (s u : State) (dt src : Nat) (c : Word), s.canonical = true → u = (s.advance dt).dueFirst →
    u.takesPair src A.rcpCmd 1 c →
    Completes (.rcpRotateNow dt src c) s (fun t => t.rcp.rotateNow = true)) ∧
  (∀ (s u : State) (dt src : Nat) (c : Word), s.canonical = true → u = (s.advance dt).dueFirst →
    u.takesPair src A.rcpCmd 1 c →
    u.rcpSafe = false →
    u.ltKey.isSome = true →
    0 < u.coresOn →
    u.entropyOk = true →
    Completes (.rcpRotateNow dt src c) s (fun t => t.rcp.next.isSome = true)) ∧
  (∀ (s u : State) (dt src : Nat) (v : Word), s.canonical = true → u = (s.advance dt).dueFirst →
    u.clearSource src →
    u.latched.contains A.rcpLtSlot = false →
    u.domainOn (domainOf A.rcpLtSlot) = true →
    Completes (.ltSlot dt src v) s (fun t => t.rd A.rcpLtSlot = v ∧ t.latched.contains A.rcpLtSlot = true))

/-- R297, R301, R302, R304, R313, R316: one clause for each operation's result and one for each failing validation. -/
def Obligations.KeyOperationsComplete : Prop :=
  (∀ (s u : State) (dt core : Nat) (j : PkeJob), s.canonical = true → u = s.advance dt →
    core < 16 →
    (u.core core).running = some j →
    j.result = none →
    jOp j.rec_ = 1 →
    j.invalid = none →
    Completes (.ed25519Sign dt core) s (fun t => (t.core core).running = some { j with result := some ((j.compute (Config.freeValue u.fresh)).1, 0, (j.compute (Config.freeValue u.fresh)).2) })) ∧
  (∀ (s u : State) (dt core : Nat) (j : PkeJob), s.canonical = true → u = s.advance dt →
    core < 16 →
    (u.core core).running = some j →
    j.result = none →
    jOp j.rec_ = 2 →
    j.invalid = none →
    Completes (.ed25519Verify dt core) s (fun t => (t.core core).running = some { j with result := some ((j.compute (Config.freeValue u.fresh)).1, 0, (j.compute (Config.freeValue u.fresh)).2) })) ∧
  (∀ (s u : State) (dt core st d : Nat) (j : PkeJob), s.canonical = true → u = s.advance dt →
    core < 16 →
    (u.core core).running = some j →
    j.result = none →
    jOp j.rec_ = 2 →
    j.invalid = some (st, d) →
    Completes (.ed25519Verify dt core) s (fun t => (t.core core).running = some { j with result := some (st, d, []) })) ∧
  (∀ (s u : State) (dt core : Nat) (j : PkeJob), s.canonical = true → u = s.advance dt →
    core < 16 →
    (u.core core).running = some j →
    j.result = none →
    jOp j.rec_ = 3 →
    j.invalid = none →
    Completes (.ed448Sign dt core) s (fun t => (t.core core).running = some { j with result := some ((j.compute (Config.freeValue u.fresh)).1, 0, (j.compute (Config.freeValue u.fresh)).2) })) ∧
  (∀ (s u : State) (dt core : Nat) (j : PkeJob), s.canonical = true → u = s.advance dt →
    core < 16 →
    (u.core core).running = some j →
    j.result = none →
    jOp j.rec_ = 4 →
    j.invalid = none →
    Completes (.ed448Verify dt core) s (fun t => (t.core core).running = some { j with result := some ((j.compute (Config.freeValue u.fresh)).1, 0, (j.compute (Config.freeValue u.fresh)).2) })) ∧
  (∀ (s u : State) (dt core st d : Nat) (j : PkeJob), s.canonical = true → u = s.advance dt →
    core < 16 →
    (u.core core).running = some j →
    j.result = none →
    jOp j.rec_ = 4 →
    j.invalid = some (st, d) →
    Completes (.ed448Verify dt core) s (fun t => (t.core core).running = some { j with result := some (st, d, []) })) ∧
  (∀ (s u : State) (dt core : Nat) (j : PkeJob), s.canonical = true → u = s.advance dt →
    core < 16 →
    (u.core core).running = some j →
    j.result = none →
    jOp j.rec_ = 5 →
    j.invalid = none →
    Completes (.x25519 dt core) s (fun t => (t.core core).running = some { j with result := some ((j.compute (Config.freeValue u.fresh)).1, 0, (j.compute (Config.freeValue u.fresh)).2) })) ∧
  (∀ (s u : State) (dt core st d : Nat) (j : PkeJob), s.canonical = true → u = s.advance dt →
    core < 16 →
    (u.core core).running = some j →
    j.result = none →
    jOp j.rec_ = 5 →
    j.invalid = some (st, d) →
    Completes (.x25519 dt core) s (fun t => (t.core core).running = some { j with result := some (st, d, []) })) ∧
  (∀ (s u : State) (dt core : Nat) (j : PkeJob), s.canonical = true → u = s.advance dt →
    core < 16 →
    (u.core core).running = some j →
    j.result = none →
    jOp j.rec_ = 6 →
    j.invalid = none →
    Completes (.x448 dt core) s (fun t => (t.core core).running = some { j with result := some ((j.compute (Config.freeValue u.fresh)).1, 0, (j.compute (Config.freeValue u.fresh)).2) })) ∧
  (∀ (s u : State) (dt core st d : Nat) (j : PkeJob), s.canonical = true → u = s.advance dt →
    core < 16 →
    (u.core core).running = some j →
    j.result = none →
    jOp j.rec_ = 6 →
    j.invalid = some (st, d) →
    Completes (.x448 dt core) s (fun t => (t.core core).running = some { j with result := some (st, d, []) })) ∧
  (∀ (s u : State) (dt core : Nat) (j : PkeJob), s.canonical = true → u = s.advance dt →
    core < 16 →
    (u.core core).running = some j →
    j.result = none →
    jOp j.rec_ = 7 →
    j.invalid = none →
    Completes (.ecdsaSign dt core) s (fun t => (t.core core).running = some { j with result := some ((j.compute (Config.freeValue u.fresh)).1, 0, (j.compute (Config.freeValue u.fresh)).2) })) ∧
  (∀ (s u : State) (dt core st d : Nat) (j : PkeJob), s.canonical = true → u = s.advance dt →
    core < 16 →
    (u.core core).running = some j →
    j.result = none →
    jOp j.rec_ = 7 →
    j.invalid = some (st, d) →
    Completes (.ecdsaSign dt core) s (fun t => (t.core core).running = some { j with result := some (st, d, []) })) ∧
  (∀ (s u : State) (dt core : Nat) (j : PkeJob), s.canonical = true → u = s.advance dt →
    core < 16 →
    (u.core core).running = some j →
    j.result = none →
    jOp j.rec_ = 8 →
    j.invalid = none →
    Completes (.ecdsaVerify dt core) s (fun t => (t.core core).running = some { j with result := some ((j.compute (Config.freeValue u.fresh)).1, 0, (j.compute (Config.freeValue u.fresh)).2) })) ∧
  (∀ (s u : State) (dt core st d : Nat) (j : PkeJob), s.canonical = true → u = s.advance dt →
    core < 16 →
    (u.core core).running = some j →
    j.result = none →
    jOp j.rec_ = 8 →
    j.invalid = some (st, d) →
    Completes (.ecdsaVerify dt core) s (fun t => (t.core core).running = some { j with result := some (st, d, []) })) ∧
  (∀ (s u : State) (dt core : Nat) (j : PkeJob), s.canonical = true → u = s.advance dt →
    core < 16 →
    (u.core core).running = some j →
    j.result = none →
    jOp j.rec_ = 9 →
    j.invalid = none →
    Completes (.ecdh dt core) s (fun t => (t.core core).running = some { j with result := some ((j.compute (Config.freeValue u.fresh)).1, 0, (j.compute (Config.freeValue u.fresh)).2) })) ∧
  (∀ (s u : State) (dt core st d : Nat) (j : PkeJob), s.canonical = true → u = s.advance dt →
    core < 16 →
    (u.core core).running = some j →
    j.result = none →
    jOp j.rec_ = 9 →
    j.invalid = some (st, d) →
    Completes (.ecdh dt core) s (fun t => (t.core core).running = some { j with result := some (st, d, []) })) ∧
  (∀ (s u : State) (dt core : Nat) (j : PkeJob), s.canonical = true → u = s.advance dt →
    core < 16 →
    (u.core core).running = some j →
    j.result = none →
    jOp j.rec_ = 10 →
    j.invalid = none →
    Completes (.rsaPrivate dt core) s (fun t => (t.core core).running = some { j with result := some ((j.compute (Config.freeValue u.fresh)).1, 0, (j.compute (Config.freeValue u.fresh)).2) })) ∧
  (∀ (s u : State) (dt core st d : Nat) (j : PkeJob), s.canonical = true → u = s.advance dt →
    core < 16 →
    (u.core core).running = some j →
    j.result = none →
    jOp j.rec_ = 10 →
    j.invalid = some (st, d) →
    Completes (.rsaPrivate dt core) s (fun t => (t.core core).running = some { j with result := some (st, d, []) })) ∧
  (∀ (s u : State) (dt core : Nat) (j : PkeJob), s.canonical = true → u = s.advance dt →
    core < 16 →
    (u.core core).running = some j →
    j.result = none →
    jOp j.rec_ = 11 →
    j.invalid = none →
    Completes (.rsaPublic dt core) s (fun t => (t.core core).running = some { j with result := some ((j.compute (Config.freeValue u.fresh)).1, 0, (j.compute (Config.freeValue u.fresh)).2) })) ∧
  (∀ (s u : State) (dt core st d : Nat) (j : PkeJob), s.canonical = true → u = s.advance dt →
    core < 16 →
    (u.core core).running = some j →
    j.result = none →
    jOp j.rec_ = 11 →
    j.invalid = some (st, d) →
    Completes (.rsaPublic dt core) s (fun t => (t.core core).running = some { j with result := some (st, d, []) })) ∧
  (∀ (s u : State) (dt core : Nat) (j : PkeJob), s.canonical = true → u = s.advance dt →
    core < 16 →
    (u.core core).running = some j →
    j.result = none →
    jOp j.rec_ = 16 →
    u.f A.pkeTrngStatus 0 2 = 1 →
    j.invalid = none →
    Completes (.keygen dt core) s (fun t => (t.core core).running = some { j with result := some ((j.compute (Config.freeValue u.fresh)).1, 0, (j.compute (Config.freeValue u.fresh)).2) })) ∧
  (∀ (s u : State) (dt core : Nat) (j : PkeJob), s.canonical = true → u = s.advance dt →
    core < 16 →
    (u.core core).running = some j →
    j.result = none →
    jOp j.rec_ = 17 →
    j.invalid = none →
    Completes (.keyImport dt core) s (fun t => (t.core core).running = some { j with result := some ((j.compute (Config.freeValue u.fresh)).1, 0, (j.compute (Config.freeValue u.fresh)).2) })) ∧
  (∀ (s u : State) (dt core st d : Nat) (j : PkeJob), s.canonical = true → u = s.advance dt →
    core < 16 →
    (u.core core).running = some j →
    j.result = none →
    jOp j.rec_ = 17 →
    j.invalid = some (st, d) →
    Completes (.keyImport dt core) s (fun t => (t.core core).running = some { j with result := some (st, d, []) })) ∧
  (∀ (s u : State) (dt core : Nat) (j : PkeJob), s.canonical = true → u = s.advance dt →
    core < 16 →
    (u.core core).running = some j →
    j.result = none →
    jOp j.rec_ = 16 →
    u.f A.pkeTrngStatus 0 2 ≠ 1 →
    Completes (.keygen dt core) s (fun t => (t.core core).running = some { j with result := some (0x46, 0, []) } ∧ (t.rd (A.pkeFeDenied)).toNat = min ((u.rd (A.pkeFeDenied)).toNat + 1) 0xFFFFFFFF))

/-- R305, R307 to R310, R314 to R316, R318 and R319. -/
def Obligations.KeyEngineCompletes : Prop :=
  (∀ (s u : State) (dt core : Nat) (h : PkeJob), s.canonical = true → u = s.advance dt →
    core < 16 →
    core < u.pke.cores.length →
    u.coreOn core = true →
    (u.core core).running = none →
    (u.core core).saved = [] →
    u.ageJobs.queueHead = some h →
    opFills (jOp h.rec_) = false →
    jInline h.rec_ = true →
    Completes (.pkeDispatch dt core) s (fun t => (t.core core).running = some h ∧ (t.core core).startedAt = u.ts.cycles)) ∧
  (∀ (s u : State) (dt core : Nat) (h : PkeJob), s.canonical = true → u = s.advance dt →
    core < 16 →
    core < u.pke.cores.length →
    u.coreOn core = true →
    (u.core core).running = none →
    (u.core core).saved = [] →
    u.ageJobs.queueHead = some h →
    opFills (jOp h.rec_) = false →
    jInline h.rec_ = false →
    (u.slot (jSlot h.rec_)).state = 2 →
    keyFits h.rec_ (u.slot (jSlot h.rec_)) = true →
    Completes (.pkeDispatch dt core) s (fun t => (t.core core).running = some { h with key := some (u.slot (jSlot h.rec_)) })) ∧
  (∀ (s u : State) (dt core : Nat) (h : PkeJob), s.canonical = true → u = s.advance dt →
    core < 16 →
    core < u.pke.cores.length →
    u.coreOn core = true →
    (u.core core).running = none →
    (u.core core).saved = [] →
    u.ageJobs.queueHead = some h →
    jOp h.rec_ = 0x10 →
    jSlot h.rec_ < u.pke.slots.length →
    (u.slot (jSlot h.rec_)).state = 0 →
    Completes (.pkeDispatch dt core) s (fun t => (t.core core).running = some h ∧ (t.slot (jSlot h.rec_)).state = 1)) ∧
  (∀ (s u : State) (dt core : Nat) (v : PkeJob) (l : List PkeJob), s.canonical = true → u = s.advance dt →
    core < 16 →
    u.coreOn core = true →
    (u.core core).running = none →
    (u.ageJobs.core core).saved = v :: l →
    u.ageJobs.queueHead = none →
    Completes (.pkeDispatch dt core) s (fun t => (t.core core).running = some v ∧ (t.core core).saved = l ∧ (t.core core).startedAt = u.ts.cycles + 256)) ∧
  (∀ (s u : State) (dt core : Nat) (j h : PkeJob), s.canonical = true → u = s.advance dt →
    core < 16 →
    (u.core core).running = some j →
    u.ageJobs.queueHead = some h →
    jLong j.rec_ = false →
    jOp j.rec_ ≠ 0x11 →
    j.result = none →
    jLong h.rec_ = false →
    mayYield h j (j.total - (j.spent + u.runCycles core)) (u.core core).saved.length = true →
    opFills (jOp h.rec_) = false →
    jInline h.rec_ = true →
    Completes (.pkeYield dt core) s (fun t => (t.core core).running = some h ∧ (t.core core).saved = { j with spent := j.spent + u.runCycles core, yields := j.yields + 1, waitSince := u.ts.meas } :: (u.ageJobs.core core).saved ∧ (t.rd (A.pkeYields)).toNat = min ((u.rd (A.pkeYields)).toNat + 1) 0xFFFFFFFF)) ∧
  (∀ (s u : State) (dt : Nat), s.canonical = true → u = s.advance dt →
    Completes (.pkeJobAged dt) s (fun t => ∀ j ∈ t.pke.queue, u.ageDue j = true → j.aged = true ∧ t.pke.queue.length = u.pke.queue.length ∧ ∀ x ∈ t.pke.cores, ∀ j ∈ x.saved, u.ageDue j = true → j.aged = true)) ∧
  (∀ (s u : State) (dt core st d : Nat) (j : PkeJob) (out : Bytes), s.canonical = true → u = s.advance dt →
    core < 16 →
    (u.core core).running = some j →
    j.result = some (st, d, out) →
    j.dueCycles ≤ j.spent + u.runCycles core →
    opFills (jOp j.rec_) = false →
    j.ring.all (fun x => decide (x.1 < 256)) = true →
    Completes (.pkeJobComplete dt core true) s (fun t => (t.core core).running = none ∧ (if st = 0 then t.rd64 (A.pkeJobsOk) = min (u.rd64 (A.pkeJobsOk) + 1) (2 ^ 64 - 1) else (t.rd (A.pkeJobsFail)).toNat = min ((u.rd (A.pkeJobsFail)).toNat + 1) 0xFFFFFFFF))) ∧
  (∀ (s u : State) (dt core d : Nat) (j : PkeJob) (out : Bytes), s.canonical = true → u = s.advance dt →
    core < 16 →
    (u.core core).running = some j →
    j.result = some (0, d, out) →
    j.dueCycles ≤ j.spent + u.runCycles core →
    opFills (jOp j.rec_) = true →
    jSlot j.rec_ < u.pke.slots.length →
    j.ring.all (fun x => decide (x.1 < 256)) = true →
    Completes (.pkeJobComplete dt core true) s (fun t => (t.core core).running = none ∧ (t.slot (jSlot j.rec_)).state = 2 ∧ (t.slot (jSlot j.rec_)).priv = out ∧ t.rd64 (A.pkeJobsOk) = min (u.rd64 (A.pkeJobsOk) + 1) (2 ^ 64 - 1))) ∧
  (∀ (s u : State) (dt core st d : Nat) (j : PkeJob) (out : Bytes), s.canonical = true → u = s.advance dt →
    core < 16 →
    (u.core core).running = some j →
    j.result = some (st, d, out) →
    j.dueCycles ≤ j.spent + u.runCycles core →
    opFills (jOp j.rec_) = false →
    j.ring.all (fun x => decide (x.1 < 256)) = true →
    (u.core core).saved = [] →
    Completes (.pkeJobComplete dt core false) s (fun t => t.fenced 3 core = true ∧ t.bit A.pkeEvent 2 = true ∧ (t.rd (A.pkeJobsFail)).toNat = min ((u.rd (A.pkeJobsFail)).toNat + 1) 0xFFFFFFFF)) ∧
  (∀ (s u : State) (dt src : Nat) (v c : Word), s.canonical = true → u = (s.advance dt).dueFirst →
    u.takesPair src A.pkeAbort v c →
    v ≠ 0 →
    u.countJobs (fun j => decide (jTag j.rec_ = v.toNat) && j.ring.isSome) ≠ 0 →
    Completes (.pkeAbort dt src v c) s (fun t => ∀ j ∈ t.pke.queue, jTag j.rec_ = v.toNat → j.ring = none ∧ ∀ k, k < 16 → ∀ j ∈ (t.core k).running.toList ++ (t.core k).saved, jTag j.rec_ = v.toNat → j.ring = none)) ∧
  (∀ (s u : State) (dt : Nat) (j : PkeJob), s.canonical = true → u = s.advance dt →
    u.slotJob 0x12 = some j →
    Completes (.keyWipe dt) s (fun t => (t.slot (jSlot j.rec_)).state = 0 ∧ ∀ y ∈ t.pke.queue, y.order ≠ j.order)) ∧
  (∀ (s u : State) (dt : Nat) (j : PkeJob), s.canonical = true → u = s.advance dt →
    u.slotJob 0x13 = some j →
    (u.slot (jSlot j.rec_)).state = 2 →
    j.ring.all (fun x => decide (x.1 < 256)) = true →
    Completes (.keyPublic dt) s (fun t => ∀ y ∈ t.pke.queue, y.order ≠ j.order ∧ t.rd64 (A.pkeJobsOk) = min (u.rd64 (A.pkeJobsOk) + 1) (2 ^ 64 - 1))) ∧
  (∀ (s u : State) (dt core phase tested : Nat) (j : PkeJob), s.canonical = true → u = s.advance dt →
    core < 16 →
    (u.core core).running = some j →
    jOp j.rec_ = 0x10 →
    jAlg j.rec_ = 0x21 →
    j.result = none →
    1 ≤ phase →
    phase ≤ 3 →
    (j.phase < phase ∨ j.phase = phase ∧ j.progAt + 100 * 1000000 * 2 ^ 48 ≤ u.ts.meas) →
    Completes (.keygenProgress dt core phase tested) s (fun t => (t.core core).running = some { j with progSeq := j.progSeq + 1, phase := phase, progAt := u.ts.meas })) ∧
  (∀ (s u : State) (dt : Nat), s.canonical = true → u = s.advance dt →
    u.pke.samples.length = 8 →
    u.pke.samples.sum < 1024 →
    Completes (.drbgReseed dt) s (fun t => t.pke.sampledAt = u.pke.sampledAt + 10 * ((u.ts.cycles - u.pke.sampledAt) / 10) ∧ t.pke.samples.sum = (u.pke.samples.sum + u.healthy.length * ((u.ts.cycles - u.pke.sampledAt) / 10)) % 1024 ∧ t.rd64 A.pkeSeeds = min (u.rd64 A.pkeSeeds + (u.pke.samples.sum + u.healthy.length * ((u.ts.cycles - u.pke.sampledAt) / 10)) / 1024) (2 ^ 64 - 1))) ∧
  (∀ (s u : State) (dt source : Nat) (rep : Bool), s.canonical = true → u = s.advance dt →
    source < 8 →
    u.srcState source < 2 →
    Completes (.trngSourceFail dt source rep) s (fun t => t.srcState source = (if ((u.pke.srcFails.getD source []).filter (fun x => decide (u.ts.meas ≤ 3600 * 1000000000 * 2 ^ 48 + x))).length < 2 then 2 else 3) ∧ t.bit A.pkeEvent 6 = true)) ∧
  (∀ (s u : State) (dt source a : Nat), s.canonical = true → u = s.advance dt →
    source < 8 →
    u.pke.srcRetest.getD source none = some a →
    a ≤ u.ts.meas →
    Completes (.trngSourceRetest dt source true) s (fun t => t.srcState source = 1 ∧ t.f A.pkeTrngStatus 0 2 = 1)) ∧
  (∀ (s u : State) (dt source a : Nat), s.canonical = true → u = s.advance dt →
    source < 8 →
    u.pke.srcRetest.getD source none = some a →
    a ≤ u.ts.meas →
    Completes (.trngSourceRetest dt source false) s (fun t => t.pke.srcRetest.getD source none = some (1000000000 * 2 ^ 48 + u.ts.meas) ∧ t.srcState source = u.srcState source))

/-- R393 to R396 and R463. -/
def Obligations.FenceCommandsComplete : Prop :=
  (∀ (s u : State) (dt src kind unit : Nat) (c : Word), s.canonical = true → u = (s.advance dt).dueFirst →
    u.takesPair src A.glbFenceCmd (word (1 + kind % 16 * 16 + unit % 32 * 256)) c →
    kind < 6 →
    unit < unitCount kind →
    u.testing = none →
    Completes (.fence dt src kind unit c) s (fun t => t.fenced kind unit = true ∧ t.f A.glbFenceResult 13 2 = 2 ∧ t.f A.glbFenceResult 16 8 = 0 ∧ t.bit A.glbEvent 3 = true)) ∧
  (∀ (s u : State) (dt src kind unit : Nat) (c : Word), s.canonical = true → u = (s.advance dt).dueFirst →
    u.takesPair src A.glbFenceCmd (word (2 + kind % 16 * 16 + unit % 32 * 256)) c →
    kind < 6 →
    unit < unitCount kind →
    u.testing = none →
    u.fenced kind unit = true →
    u.parityFenced kind unit = false →
    Completes (.returnUnit dt src kind unit c) s (fun t => t.testing = some (kind, unit) ∧ t.f A.glbFenceResult 13 2 = 1 ∧ t.fenced kind unit = true)) ∧
  (∀ (s u : State) (dt kind unit : Nat), s.canonical = true → u = s.advance dt →
    kind < 6 →
    unit < unitCount kind →
    u.testing = some (kind, unit) →
    u.fenced kind unit = true →
    Completes (.unitSelftestDone dt kind unit true) s (fun t => t.testing = none ∧ t.fenced kind unit = false ∧ t.f A.glbFenceResult 16 8 = 0)) ∧
  (∀ (s u : State) (dt kind unit : Nat), s.canonical = true → u = s.advance dt →
    kind < 6 →
    unit < unitCount kind →
    u.testing = some (kind, unit) →
    u.fenced kind unit = true →
    Completes (.unitSelftestDone dt kind unit false) s (fun t => t.testing = none ∧ t.fenced kind unit = true ∧ t.f A.glbFenceResult 16 8 = 0x41)) ∧
  (∀ (s u : State) (dt kind unit : Nat), s.canonical = true → u = s.advance dt →
    unit < unitCount kind →
    u.testing ≠ some (kind, unit) →
    u.ts.meas ≤ u.pwr.testUntil →
    (kind = 4 ∧ u.domainOn 5 = true ∨ kind = 5 ∧ u.domainOn 6 = true) →
    Completes (.unitSelftestDone dt kind unit false) s (fun t => t.fenced kind unit = true))

/-- R325, R328, R329, R331, R336, R338, R340, R342, R343, R346, R347 and R389. -/
def Obligations.HostQueuesComplete : Prop :=
  (∀ (s u : State) (dt : Nat), s.canonical = true → u = (s.advance dt).dueFirst →
    u.hif.dbOutstanding = false →
    u.dbWanted = true →
    Completes (.kick dt) s (fun t => t.hif.dbOutstanding = true ∧ Emission.doorbellRead ∈ t.out ∧ (t.rd (A.hifKicks)).toNat = min ((u.rd (A.hifKicks)).toNat + 1) 0xFFFFFFFF)) ∧
  (∀ (s u : State) (dt : Nat), s.canonical = true → u = (s.advance dt).dueFirst →
    u.hif.dbOutstanding = true →
    Completes (.kick dt) s (fun t => t.hif.dbAgain = true ∧ t.out = u.out ∧ (t.rd (A.hifKicks)).toNat = min ((u.rd (A.hifKicks)).toNat + 1) 0xFFFFFFFF)) ∧
  (∀ (s u : State) (dt : Nat), s.canonical = true → u = s.advance dt →
    u.hif.dbOutstanding = true →
    u.hif.dbAgain = false →
    Completes (.doorbellReadDone dt none) s (fun t => t.hif.dbOutstanding = false ∧ t.bit A.hifStatus 10 = true ∧ (t.rd (A.hifDbFaults)).toNat = min ((u.rd (A.hifDbFaults)).toNat + 1) 0xFFFFFFFF)) ∧
  (∀ (s u : State) (dt : Nat) (w : DoorbellWord) (x : FetchedDesc), s.canonical = true → u = s.advance dt →
    u.hif.dbOutstanding = true →
    u.hif.dbAgain = false →
    w.ring < u.hif.rings.length →
    w.ring < 256 →
    w.descs = [x] →
    w.readFailed = false →
    u.ringType w.ring ≠ 3 →
    u.ringType w.ring ≠ 4 →
    u.ringType w.ring ≠ 7 →
    u.ringState w.ring = 1 →
    (w.prod + 2 ^ 32 - w.cons % 2 ^ 32) % 2 ^ 32 ≤ u.ringEntries w.ring →
    ((u.ring w.ring).posted + 2 ^ 32 - w.cons % 2 ^ 32) % 2 ^ 32 < 2 ^ 31 →
    (w.prod % 2 ^ 32 + 2 ^ 32 - (u.ring w.ring).fetched % 2 ^ 32) % 2 ^ 32 ≠ 0 →
    Completes (.doorbellReadDone dt (some [w])) s (fun t => (t.ring w.ring).prod = w.prod % 2 ^ 32 ∧ (t.ring w.ring).cons = w.cons % 2 ^ 32 ∧ (t.ring w.ring).fetched = (u.ring w.ring).fetched + 1 ∧ t.hif.dbOutstanding = false)) ∧
  (∀ (s u : State) (dt ring : Nat) (d : Desc) (l : List Desc) (x : Bytes), s.canonical = true → u = s.advance dt →
    ring < 256 →
    u.ringType ring = 1 →
    u.ringState ring = 1 →
    (u.ring ring).waiting = d :: l →
    d.ctl % 8 < u.ports.links.length →
    u.linkExists (d.ctl % 8) = true →
    u.linkUp (d.ctl % 8) = true →
    max d.len 60 + 4 ≤ u.maxFrame (d.ctl % 8) 1 →
    Completes (.hostFrameTx dt ring (some x)) s (fun t => (t.lnk (d.ctl % 8)).queue.length = (u.lnk (d.ctl % 8)).queue.length + 1 ∧ (t.ring ring).waiting = l.dropWhile (fun y => y.bad))) ∧
  (∀ (s u : State) (dt : Nat), s.canonical = true → u = s.advance dt →
    Completes (.hostFrameTimeout dt) s (fun t => ∀ sl, sl < 8 → ∀ x ∈ (t.lnk sl).queue, ∀ r ∈ x.ring.toList, u.ts.meas < frameDeadline r.2.2)) ∧
  (∀ (s u : State) (dt ring : Nat) (b : Desc) (l : List Desc), s.canonical = true → u = s.advance dt →
    ring < 256 →
    ring < u.hif.rings.length →
    u.ringType ring = 3 →
    u.ringState ring = 1 →
    (u.ring ring).waiting = b :: l →
    (u.ring ring).fill ≠ 0 →
    (u.ring ring).fillSince + u.ringFlush ring * 1000 * 2 ^ 48 ≤ u.ts.meas →
    Completes (.recordFlush dt ring) s (fun t => (t.ring ring).fill = 0 ∧ (t.ring ring).waiting = l.dropWhile (fun y => y.bad))) ∧
  (∀ (s u : State) (dt ring : Nat) (d : Desc) (l : List Desc) (data : Bytes) (ok : Bool), s.canonical = true → u = s.advance dt →
    ring < 256 →
    u.ringType ring = 6 →
    u.ringLive ring = true →
    u.xferRunning ring = false →
    (u.ring ring).waiting = d :: l →
    regionOk (d.ctl / 2 % 8) d.arg d.len = true →
    d.ctl.testBit 0 = false →
    (u.startWork ring).2.regionBusy (d.ctl / 2 % 8) false = false →
    Completes (.xfer dt ring data ok none) s (fun t => Emission.hostWrite d.addr ((u.startWork ring).2.regionRead (d.ctl / 2 % 8) d.arg d.len) ∈ t.out ∧ (t.ring ring).waiting = l.dropWhile (fun y => y.bad))) ∧
  (∀ (s u : State) (dt ring : Nat) (d : Desc) (l : List Desc) (data : Bytes), s.canonical = true → u = s.advance dt →
    ring < 256 →
    u.ringType ring = 6 →
    u.ringLive ring = true →
    u.xferRunning ring = false →
    (u.ring ring).waiting = d :: l →
    regionOk (d.ctl / 2 % 8) d.arg d.len = true →
    d.ctl.testBit 0 = true →
    d.ctl / 2 % 8 = 1 →
    u.fw.checking = none →
    ((u.startWork ring).2.regionWrite 1 d.arg (slice data 0 d.len)).imageComplete = false →
    Completes (.xfer dt ring data true none) s (fun t => t.fw.lines = addLines u.fw.lines d.arg d.len ∧ t.fw.held = none ∧ (t.ring ring).waiting = l.dropWhile (fun y => y.bad))) ∧
  (∀ (s u : State) (dt ring n : Nat) (d : Desc) (data : Bytes) (ok flash : Bool), s.canonical = true → u = s.advance dt →
    ring < 256 →
    u.fw.checking = some (.ring n d) →
    Completes (.xfer dt ring data ok (some flash)) s (fun t => t.fw.checking = none ∧ t.fw.lines = [])) ∧
  (∀ (s u : State) (dt v : Nat), s.canonical = true → u = s.advance dt →
    v < 64 →
    v < u.hif.vecs.length →
    u.vecTime v ≠ 0 →
    (u.hif.vecs.getD v ⟨0, 0, false⟩).items ≠ 0 →
    (u.hif.vecs.getD v ⟨0, 0, false⟩).since + u.vecTime v * 1000 * 2 ^ 48 ≤ u.ts.meas →
    u.vecMasked v = false →
    Completes (.vectorTimer dt v) s (fun t => Emission.msix v ∈ t.out ∧ (t.hif.vecs.getD v ⟨0, 0, false⟩).items = 0)) ∧
  (∀ (s u : State) (dt v : Nat), s.canonical = true → u = s.advance dt →
    v < 64 →
    v < u.hif.vecs.length →
    u.vecTime v ≠ 0 →
    (u.hif.vecs.getD v ⟨0, 0, false⟩).items ≠ 0 →
    (u.hif.vecs.getD v ⟨0, 0, false⟩).since + u.vecTime v * 1000 * 2 ^ 48 ≤ u.ts.meas →
    u.vecMasked v = true →
    Completes (.vectorTimer dt v) s (fun t => (t.hif.vecs.getD v ⟨0, 0, false⟩).waiting = true ∧ (t.hif.vecs.getD v ⟨0, 0, false⟩).items = 0 ∧ t.out = u.out)) ∧
  (∀ (s u : State) (dt : Nat), s.canonical = true → u = s.advance dt →
    Completes (.blockEventCoalesce dt) s (fun t => ∀ c ∈ t.hif.coalesce, u.ts.meas < c.endAt)) ∧
  (∀ (s u : State) (dt ring : Nat), s.canonical = true → u = s.advance dt →
    ring < 256 →
    u.ringState ring = 2 →
    (u.ring ring).waiting = [] →
    (u.ring ring).started = [] →
    Completes (.ringQuiesced dt ring) s (fun t => t.ringState ring = 0)) ∧
  (∀ (s u : State) (dt cause : Nat), s.canonical = true → u = s.advance dt →
    cause < 5 →
    u.hif.attached = true →
    Completes (.hostDetach dt cause) s (fun t => t.hif.attached = false ∧ ∀ n, n < 256 → t.ringState n = 0 ∧ (t.rd (A.hifDetaches)).toNat = min ((u.rd (A.hifDetaches)).toNat + 1) 0xFFFFFFFF ∧ t.hif.dbOutstanding = false)) ∧
  (∀ (s u : State) (dt speed width : Nat), s.canonical = true → u = s.advance dt →
    speed < 8 →
    width < 32 →
    Completes (.pcieLinkUp dt speed width) s (fun t => t.hif.attached = true ∧ t.bit A.hifStatus 0 = true ∧ t.f A.hifStatus 1 3 = speed ∧ t.f A.hifStatus 4 5 = width ∧ t.bit A.hifEvent 0 = true)) ∧
  (∀ (s u : State) (dt m : Nat), s.canonical = true → u = s.advance dt →
    u.hif.trainAt = some m →
    u.hif.attached = false →
    10 * 1000000000 * 2 ^ 48 + m ≤ u.ts.meas →
    Completes (.pcieRetrain dt) s (fun t => t.hif.trainAt = some u.ts.meas ∧ t.out = Emission.pcieTrain :: u.out)) ∧
  (∀ (s u : State) (dt : Nat), s.canonical = true → u = s.advance dt →
    Completes (.journalFlashWrite dt) s (fun t => t.journal.toFlash = [] ∧ t.journal.flash = keepWithin (16 * 2 ^ 20) (u.journal.toFlash ++ u.journal.flash) 0))

/-- R381 to R384, with R340 for STAGE and R369 for a staged word. -/
def Obligations.SessionMessagesComplete : Prop :=
  (∀ (s u : State) (dt i : Nat) (fp : Bytes) (is : List Bytes) (nb na : Int), s.canonical = true → u = s.advance dt →
    u.domainOn 15 = true →
    u.hol.keepAlive = false →
    u.mainPower = true →
    (u.celen.trust = [] ∨ is.any (fun c => u.celen.trust.contains c) = true) →
    (1 ≤ u.tscMode ∧ u.tscMode ≤ 3 → nb ≤ u.utcNow ∧ u.utcNow ≤ na) →
    u.celen.sessions.length = 4 →
    u.freeSession = some i →
    Completes (.sessionOpen dt fp true is nb na) s (fun t => (t.session i).map (fun x => x.fingerprint) = some fp ∧ (t.session i).map (fun x => x.hello) = some false)) ∧
  (∀ (s u : State) (dt i : Nat) (x : Session), s.canonical = true → u = s.advance dt →
    1 ≤ i →
    i < 5 →
    u.session i = some x →
    x.lastMsg + secs 300 ≤ u.ts.meas →
    Completes (.sessionIdle dt i) s (fun t => t.session i = none)) ∧
  (∀ (s u : State) (dt i : Nat) (alert : Bool), s.canonical = true → u = s.advance dt →
    1 ≤ i →
    i < 5 →
    (u.session i).isSome = true →
    Completes (.sessionClosed dt i alert) s (fun t => t.session i = none ∧ (t.view (.session i)).staged = false ∨ u.sources.length ≤ i)) ∧
  (∀ (s u : State) (dt i : Nat) (x : Session) (m : MpMsg), s.canonical = true → u = s.advance dt →
    1 ≤ i →
    i < 5 →
    u.session i = some x →
    m.magic = 0x434C →
    m.version = 1 →
    m.len = m.body.length →
    m.len ≤ 65600 →
    m.body.length = 4 →
    Completes (.celenHello dt i 1 m) s (fun t => t.out = Emission.mp i 0x81 m.tag (be 4 (u.rd A.glbIdent).toNat ++ be 8 (u.rd64 A.glbSerialLo) ++ be 1 i ++ be 1 u.bankRunning ++ be 1 (b2n u.celen.recovery) ++ [0] ++ be 4 (u.bankImage u.bankRunning).build) :: u.out ∧ (t.session i).map (fun y => y.hello) = some true)) ∧
  (∀ (s u : State) (dt i : Nat) (x : Session) (m : MpMsg), s.canonical = true → u = s.advance dt →
    1 ≤ i →
    i < 5 →
    u.session i = some x →
    m.magic = 0x434C →
    m.version = 1 →
    m.len = m.body.length →
    m.len ≤ 65600 →
    x.hello = true →
    m.body.length = 8 →
    beAt m.body 5 1 < 16 →
    beAt m.body 6 2 = 0 →
    u.rangeBad (beAt m.body 0 4) (beAt m.body 4 1) = false →
    Completes (.celenRead dt i m) s (fun t => ∃ d : Bytes, d.length = 4 * (beAt m.body 4 1) ∧ Emission.mp i 0x82 m.tag d ∈ t.out)) ∧
  (∀ (s u : State) (dt i g : Nat) (x : Session) (m : MpMsg), s.canonical = true → u = (s.advance dt).dueFirst →
    1 ≤ i →
    i < 5 →
    u.session i = some x →
    m.magic = 0x434C →
    m.version = 1 →
    m.len = m.body.length →
    m.len ≤ 65600 →
    x.hello = true →
    u.celen.recovery = false →
    m.body.length = 12 →
    beAt m.body 4 1 = 1 →
    beAt m.body 5 1 = 15 →
    beAt m.body 6 2 = 0 →
    u.rangeBad (beAt m.body 0 4) 1 = false →
    groupOf (beAt m.body 0 4) = some g →
    (u.view (.session i)).pair = none →
    Completes (.celenWrite dt i m) s (fun t => t.rdStage (beAt m.body 0 4) = word (beAt m.body 8 4) ∧ Emission.mp i 0x83 m.tag [] ∈ t.out)) ∧
  (∀ (s u : State) (dt i : Nat) (x : Session) (m : MpMsg), s.canonical = true → u = s.advance dt →
    1 ≤ i →
    i < 5 →
    u.session i = some x →
    m.magic = 0x434C →
    m.version = 1 →
    m.len = m.body.length →
    m.len ≤ 65600 →
    x.hello = true →
    m.body.length = 4 →
    (beAt m.body 0 4) % 8 = 0 →
    u.rangeBad (beAt m.body 0 4) 2 = false →
    Completes (.celenRead64 dt i m) s (fun t => ∃ d : Bytes, d.length = 8 ∧ Emission.mp i 0x82 m.tag d ∈ t.out)) ∧
  (∀ (s u : State) (dt i : Nat) (x : Session) (m : MpMsg), s.canonical = true → u = s.advance dt →
    1 ≤ i →
    i < 5 →
    u.session i = some x →
    m.magic = 0x434C →
    m.version = 1 →
    m.len = m.body.length →
    m.len ≤ 65600 →
    x.hello = true →
    u.celen.recovery = false →
    m.body.length = 12 →
    beAt m.body 4 1 < 8 →
    beAt m.body 5 3 = 0 →
    Completes (.celenSubscribe dt i m) s (fun t => ((t.session i).bind (fun y => y.sub)).map (fun y => (y.blocks, y.tag)) = some (beAt m.body 0 4, m.tag) ∧ Emission.mp i 0x83 m.tag [] ∈ t.out)) ∧
  (∀ (s u : State) (dt i : Nat) (x : Session) (m : MpMsg), s.canonical = true → u = s.advance dt →
    1 ≤ i →
    i < 5 →
    u.session i = some x →
    m.magic = 0x434C →
    m.version = 1 →
    m.len = m.body.length →
    m.len ≤ 65600 →
    x.hello = true →
    u.celen.recovery = false →
    m.body.length = 0 →
    Completes (.celenUnsubscribe dt i m) s (fun t => (t.session i).map (fun y => y.sub) = some none ∧ t.out = Emission.mp i 0x83 m.tag [] :: u.out ∧ ∀ c ∈ t.hif.coalesce, c.dest ≠ i)) ∧
  (∀ (s u : State) (dt i : Nat) (x : Session) (m : MpMsg) (l : List JRecord), s.canonical = true → u = s.advance dt →
    1 ≤ i →
    i < 5 →
    u.session i = some x →
    m.magic = 0x434C →
    m.version = 1 →
    m.len = m.body.length →
    m.len ≤ 65600 →
    x.hello = true →
    m.body.length = 8 →
    1 ≤ beAt m.body 4 2 →
    beAt m.body 4 2 ≤ 256 →
    beAt m.body 6 2 = 0 →
    l = (u.journal.records.reverse.filter (fun r => decide (beAt m.body 0 4 ≤ r.seq))).take (beAt m.body 4 2) →
    Completes (.journalRead dt i m) s (fun t => t.out = Emission.mp i 0x84 m.tag (be 4 l.length ++ l.flatMap JRecord.bytes) :: u.out)) ∧
  (∀ (s u : State) (dt i : Nat) (x : Session) (m : MpMsg), s.canonical = true → u = s.advance dt →
    1 ≤ i →
    i < 5 →
    u.session i = some x →
    m.magic = 0x434C →
    m.version = 1 →
    m.len = m.body.length →
    m.len ≤ 65600 →
    x.hello = true →
    u.celen.recovery = false →
    16 ≤ m.body.length →
    beAt m.body 2 2 = 0 →
    (beAt m.body 4 8) % 64 = 0 →
    (beAt m.body 12 4) % 64 = 0 →
    1 ≤ beAt m.body 12 4 →
    beAt m.body 12 4 ≤ 65536 →
    regionOk (beAt m.body 0 1) (beAt m.body 4 8) (beAt m.body 12 4) = true →
    beAt m.body 1 1 = 0 →
    m.body.length = 16 →
    u.regionBusy (beAt m.body 0 1) false = false →
    Completes (.celenStage dt i m none) s (fun t => t.out = Emission.mp i 0x82 m.tag (u.regionRead (beAt m.body 0 1) (beAt m.body 4 8) (beAt m.body 12 4)) :: u.out)) ∧
  (∀ (s u : State) (dt i : Nat) (x : Session) (m : MpMsg), s.canonical = true → u = s.advance dt →
    1 ≤ i →
    i < 5 →
    u.session i = some x →
    m.magic = 0x434C →
    m.version = 1 →
    m.len = m.body.length →
    m.len ≤ 65600 →
    x.hello = true →
    u.celen.recovery = false →
    16 ≤ m.body.length →
    beAt m.body 2 2 = 0 →
    (beAt m.body 4 8) % 64 = 0 →
    (beAt m.body 12 4) % 64 = 0 →
    1 ≤ beAt m.body 12 4 →
    beAt m.body 12 4 ≤ 65536 →
    regionOk (beAt m.body 0 1) (beAt m.body 4 8) (beAt m.body 12 4) = true →
    beAt m.body 0 1 = 1 →
    beAt m.body 1 1 = 1 →
    m.body.length = 16 + beAt m.body 12 4 →
    u.fw.checking = none →
    (u.regionWrite 1 (beAt m.body 4 8) (m.body.drop 16)).imageComplete = false →
    Completes (.celenStage dt i m none) s (fun t => t.out = Emission.mp i 0x83 m.tag [] :: u.out ∧ t.fw.held = none ∧ t.fw.lines = addLines u.fw.lines (beAt m.body 4 8) (beAt m.body 12 4))) ∧
  (∀ (s u : State) (dt i k tag : Nat) (m : MpMsg) (ok : Bool), s.canonical = true → u = s.advance dt →
    1 ≤ i →
    i < 5 →
    u.fw.checking = some (.session k tag) →
    Completes (.celenStage dt i m (some ok)) s (fun t => t.fw.checking = none ∧ t.fw.lines = [] ∧ t.out ≠ u.out)) ∧
  (∀ (s u : State) (dt i : Nat) (x : Session) (m : MpMsg), s.canonical = true → u = s.advance dt →
    1 ≤ i →
    i < 5 →
    u.session i = some x →
    m.magic = 0x434C →
    m.version = 1 →
    m.len = m.body.length →
    m.len ≤ 65600 →
    x.hello = true →
    u.celen.recovery = false →
    m.body.length = 44 →
    beAt m.body 0 1 < 16 →
    beAt m.body 3 1 = 0 →
    Completes (.celenNet dt i m) s (fun t => (t.session i).map (fun y => y.net) = some (some m.body) ∧ t.out = Emission.mp i 0x83 m.tag [] :: u.out)) ∧
  (∀ (s u : State) (dt i : Nat) (x : Session) (m : MpMsg) (l : List Bytes), s.canonical = true → u = s.advance dt →
    1 ≤ i →
    i < 5 →
    u.session i = some x →
    m.magic = 0x434C →
    m.version = 1 →
    m.len = m.body.length →
    m.len ≤ 65600 →
    x.hello = true →
    u.celen.recovery = false →
    4 ≤ m.body.length →
    beAt m.body 0 1 ≤ 8 →
    beAt m.body 1 3 = 0 →
    certList (beAt m.body 0 1) (m.body.drop 4) = some (l, []) →
    Completes (.celenTrust dt i m) s (fun t => t.celen.trust = l ∧ Emission.mp i 0x83 m.tag [] ∈ t.out)) ∧
  (∀ (s u : State) (dt i : Nat) (x : Session) (m : MpMsg), s.canonical = true → u = s.advance dt →
    1 ≤ i →
    i < 5 →
    u.session i = some x →
    m.magic = 0x434C →
    m.version = 1 →
    m.len = m.body.length →
    m.len ≤ 65600 →
    x.hello = true →
    m.body.length = 0 →
    Completes (.celenBye dt i m) s (fun t => t.session i = none ∧ Emission.mp i 0x83 m.tag [] ∈ t.out))

/-- R442, R458 to R461 and R464. -/
def Obligations.SupplyEventsComplete : Prop :=
  (∀ (s u : State) (dt i : Nat) (m : PowerSense), s.canonical = true → u = s.advance dt →
    i < 4 →
    u.bit A.pwrStatus i = false →
    (u.showSense m).inputRated i = true →
    Completes (.inputQualified dt i m) s (fun t => t.bit A.pwrStatus i = true ∧ t.bit A.pwrEvent 1 = true)) ∧
  (∀ (s u : State) (dt i : Nat) (m : PowerSense), s.canonical = true → u = s.advance dt →
    i < 4 →
    u.bit A.pwrStatus i = true →
    Completes (.inputLost dt i m) s (fun t => t.bit A.pwrStatus i = false ∧ t.bit A.pwrEvent 0 = true ∧ (t.rd (A.pwrInputLoss)).toNat = min ((u.rd (A.pwrInputLoss)).toNat + 1) 0xFFFFFFFF)) ∧
  (∀ (s u : State) (dt : Nat), s.canonical = true → u = s.advance dt →
    u.mainPower = false →
    u.domainOn 15 = true →
    u.hol.keepAlive = false →
    u.bit A.pwrStatus 3 = true →
    Completes (.mainPowerLost dt) s (fun t => t.hol.keepAlive = true ∧ t.domainOn 7 = false ∧ t.domainOn 0 = true ∧ t.ts.calendar = [] ∧ t.hif.attached = false)) ∧
  (∀ (s u : State) (dt : Nat), s.canonical = true → u = s.advance dt →
    u.mainPower = false →
    u.domainOn 15 = true →
    u.hol.keepAlive = false →
    u.bit A.pwrStatus 3 = false →
    Completes (.mainPowerLost dt) s (fun t => t.f A.pwrDomState 0 16 = 1 ∧ t.hol.cisternTime = none ∧ t.ts.calendar = [])) ∧
  (∀ (s u : State) (dt : Nat), s.canonical = true → u = s.advance dt →
    u.hol.keepAlive = true →
    Completes (.kaLost dt) s (fun t => t.hol.keepAlive = false ∧ t.hol.cisternTime = none ∧ t.f A.pwrDomState 0 16 = 1)) ∧
  (∀ (s u : State) (dt : Nat) (m : PowerSense), s.canonical = true → u = s.advance dt →
    u.thermWarn ≤ m.tZafel →
    u.bit A.pwrStatus 4 = false →
    Completes (.thermWarn dt m) s (fun t => t.bit A.pwrStatus 4 = true ∧ t.bit A.pwrEvent 2 = true ∧ (t.rd (A.pwrThermWarns)).toNat = min ((u.rd (A.pwrThermWarns)).toNat + 1) 0xFFFFFFFF)) ∧
  (∀ (s u : State) (dt : Nat) (m : PowerSense), s.canonical = true → u = s.advance dt →
    1150 ≤ m.tZafel →
    (u.f A.bootStatus 4 2 = 1 ∨ u.boot.at_.isSome = true) →
    Completes (.thermalHold dt m) s (fun t => t.f A.bootStatus 4 2 = 2 ∧ t.f A.bootStatus 8 8 = 0xB ∧ t.domainOn 7 = false ∧ t.boot.retryAt = none)) ∧
  (∀ (s u : State) (dt : Nat), s.canonical = true → u = s.advance dt →
    u.pwr.driven = true →
    Completes (.alarmConditionChange dt) s (fun t => (u.alarmed 0 = true → t.bit A.pwrIoStatus 0 = false) ∧ (u.alarmed 1 = true → t.bit A.pwrIoStatus 1 = false))) ∧
  (∀ (s u : State) (dt c e : Nat), s.canonical = true → u = s.advance dt →
    c < 2 →
    u.pwr.alarmEnd.getD c none = some e →
    e ≤ u.ts.meas →
    u.alarmed c = false →
    Completes (.alarmCloseTimer dt c) s (fun t => t.bit A.pwrIoStatus c = true ∧ t.pwr.alarmEnd.getD c none = none)) ∧
  (∀ (s u : State) (dt m : Nat), s.canonical = true → u = s.advance dt →
    u.pwr.noSelAt = some m →
    2000000000 * 2 ^ 48 + m ≤ u.ts.meas →
    u.sel = 0xFF →
    Completes (.noSelectionTimer dt) s (fun t => t.pwr.noSel = true))

/-- R464, R465, R468, R469, R471 to R474, R477 and R484. -/
def Obligations.StartsComplete : Prop :=
  (∀ (s u : State) (dt : Nat), s.canonical = true → u = s.advance dt →
    u.mainPower = true →
    u.domainOn 7 = false →
    u.boot.at_ = none →
    u.f A.bootStatus 4 2 ≠ 2 →
    Completes (.powerStart dt []) s (fun t => t.boot.at_ = some ⟨1, 0, 0, u.ts.meas, 0⟩ ∧ t.f A.bootStatus 0 4 = 1)) ∧
  (∀ (s u : State) (dt : Nat) (p : StartPoint), s.canonical = true → u = s.advance dt →
    u.boot.at_ = some p →
    p.since + startLimit p.step * 1000000 * 2 ^ 48 ≤ u.ts.meas →
    (p.step = 1 ∨ p.step = 5 ∨ p.step = 6) →
    Completes (.stepTimeout dt []) s (fun t => t.f A.bootStatus 4 2 = 2 ∧ t.f A.bootStatus 8 8 = 1 ∧ t.boot.at_ = none ∧ t.boot.retryAt = some (u.ts.meas + secs 60))) ∧
  (∀ (s u : State) (dt : Nat) (p : StartPoint), s.canonical = true → u = s.advance dt →
    u.boot.at_ = some p →
    p.since + startLimit p.step * 1000000 * 2 ^ 48 ≤ u.ts.meas →
    (p.step = 3 ∨ p.step = 8) →
    p.failed = 0 →
    Completes (.stepTimeout dt []) s (fun t => t.boot.at_ = some { p with failed := 1, since := u.ts.meas })) ∧
  (∀ (s u : State) (dt : Nat) (p : StartPoint), s.canonical = true → u = s.advance dt →
    u.boot.at_ = some p →
    p.since + startLimit p.step * 1000000 * 2 ^ 48 ≤ u.ts.meas →
    (p.step = 2 ∨ p.step = 7 ∨ p.step = 9 ∨ p.step = 11) →
    Completes (.stepTimeout dt []) s (fun t => t.boot.at_.map (fun q => (q.step, q.kind)) = some (p.step + 1, p.kind))) ∧
  (∀ (s u : State) (dt m : Nat), s.canonical = true → u = s.advance dt →
    u.boot.retryAt = some m →
    m ≤ u.ts.meas →
    u.f A.bootStatus 4 2 = 2 →
    Completes (.safeHoldRetry dt []) s (fun t => t.boot.at_ = some ⟨1, 0, 0, u.ts.meas, 1⟩ ∧ t.f A.bootStatus 0 4 = 1)) ∧
  (∀ (s u : State) (dt m : Nat), s.canonical = true → u = s.advance dt →
    u.boot.stableAt = some m →
    m ≤ u.ts.meas →
    Completes (.stabilityReached dt) s (fun t => t.boot.stableAt = none ∧ t.bit A.bootStatus 16 = true ∧ t.f A.bootRecFlags 6 3 = 0 ∧ t.bit A.bootEvent 2 = true)) ∧
  (∀ (s u : State) (dt src : Nat) (c : Word), s.canonical = true → u = (s.advance dt).dueFirst →
    u.takesPair src A.pwrResetCmd 1 c →
    Completes (.resetFull dt src c none) s (fun t => t.pwr.resetAt = some (10000000 * 2 ^ 48 + u.ts.meas))) ∧
  (∀ (s u : State) (dt src m : Nat) (c : Word), s.canonical = true → u = s.advance dt →
    src < 5 →
    u.pwr.resetAt = some m →
    m ≤ u.ts.meas →
    Completes (.resetFull dt src c (some [])) s (fun t => t.boot.at_ = some ⟨1, 0, 0, u.ts.meas, 1⟩ ∧ t.f A.bootStatus 0 4 = 1)) ∧
  (∀ (s u : State) (dt src : Nat) (c : Word), s.canonical = true → u = (s.advance dt).dueFirst →
    u.takesPair src A.pwrResetCmd 2 c →
    Completes (.resetMgmt dt src c none) s (fun t => t.boot.mgmt = some 0 ∧ t.celen.recovery = true ∧ t.f A.bootStatus 6 2 = 2)) ∧
  (∀ (s u : State) (dt src k : Nat) (c : Word) (ok : List Bool), s.canonical = true → u = s.advance dt →
    src < 5 →
    u.boot.mgmt = some k →
    ok.getD 0 false = true →
    Completes (.resetMgmt dt src c (some ok)) s (fun t => t.boot.mgmt = none ∧ t.celen.recovery = false ∧ t.bit A.pwrEvent 5 = true)) ∧
  (∀ (s u : State) (dt : Nat), s.canonical = true → u = s.advance dt →
    Completes (.watchdog dt none) s (fun t => t.boot.mgmt = some 1 ∧ t.celen.recovery = true ∧ t.f A.bootStatus 6 2 = 2)) ∧
  (∀ (s u : State) (dt k : Nat) (ok : List Bool), s.canonical = true → u = s.advance dt →
    u.boot.mgmt = some k →
    ok.getD 0 false = true →
    Completes (.watchdog dt (some ok)) s (fun t => t.boot.mgmt = none ∧ t.celen.recovery = false ∧ t.bit A.pwrEvent 5 = true)) ∧
  (∀ (s u : State) (dt : Nat), s.canonical = true → u = s.advance dt →
    (u.f A.bootStatus 4 2 = 1 ∨ u.boot.at_.isSome = true) →
    Completes (.supervisorSilent dt []) s (fun t => t.boot.at_ = some ⟨1, 0, 0, u.ts.meas, 1⟩ ∧ t.f A.bootStatus 0 4 = 1)) ∧
  (∀ (s u : State) (dt : Nat) (m : PowerSense), s.canonical = true → u = s.advance dt →
    u.f A.bootStatus 4 2 = 2 →
    u.f A.bootStatus 8 8 = 0xB →
    m.tZafel < 950 →
    (u.showSense m).pwr.hotAt + secs 60 ≤ u.ts.meas →
    Completes (.thermalRecover dt m []) s (fun t => t.boot.at_ = some ⟨1, 0, 0, u.ts.meas, 1⟩ ∧ t.f A.bootStatus 0 4 = 1)) ∧
  (∀ (s u : State) (dt src : Nat) (c : Word), s.canonical = true → u = (s.advance dt).dueFirst →
    u.takesPair src A.bootCmd 1 c →
    Completes (.bootStore dt src c none) s (fun t => t.boot.storing.isSome = true)) ∧
  (∀ (s u : State) (dt src : Nat) (c : Word) (k : ConfigCopy), s.canonical = true → u = s.advance dt →
    src < 5 →
    u.boot.storing = some k →
    Completes (.bootStore dt src c (some true)) s (fun t => t.boot.storing = none ∧ t.boot.current = some k ∧ t.bit A.bootEvent 4 = true)) ∧
  (∀ (s u : State) (dt src : Nat) (c : Word) (k : ConfigCopy), s.canonical = true → u = s.advance dt →
    src < 5 →
    u.boot.storing = some k →
    Completes (.bootStore dt src c (some false)) s (fun t => t.boot.storing = none ∧ t.boot.current = u.boot.current ∧ t.bit A.bootEvent 5 = true)) ∧
  (∀ (s u : State) (dt src : Nat) (c : Word), s.canonical = true → u = (s.advance dt).dueFirst →
    u.takesPair src A.bootCmd 2 c →
    Completes (.bootClear dt src c) s (fun t => ∀ n, n < 12 → t.f (A.bootStepCount n) 0 20 = 0 ∧ ∀ n, n < 12 → t.rd (A.bootStepLastT n) = 0 ∧ t.f A.bootRecFlags 6 3 = 0)) ∧
  (∀ (s u : State) (dt src : Nat) (c : Word), s.canonical = true → u = (s.advance dt).dueFirst →
    u.takesPair src A.bootCmd 3 c →
    Completes (.bootRetrain dt src c) s (fun t => t.bit A.bootRecFlags 3 = false))

/-- R405, R407, R408, R422 to R424, R426, R427, R497, R498, R500 and R504. -/
def Obligations.LaneEventsComplete : Prop :=
  (∀ (s u : State) (dt i l : Nat) (e : CalEntry), s.canonical = true → u = (s.advance dt).inOrder (fun e => decide (e.action = 0x17) && decide (e.arg % 256 = 0)) →
    dueEntry u.ts.calendar u.nowNs (fun x => decide (x.action = 0x17) && decide (x.arg % 256 = 0)) = some (i, e) →
    l < 8 →
    l < u.cas.lanes.length →
    u.laneUp l = true →
    u.casOn = true →
    Completes (.casLinkTick dt) s (fun t => (t.lane l).links.length = (u.lane l).links.length + 1 ∧ (t.lane l).heard = false)) ∧
  (∀ (s u : State) (dt l : Nat) (x : LinkSlot), s.canonical = true → u = s.advance dt →
    l < 8 →
    (u.lane l).links.find? (fun x => x.final.isNone && decide (x.slot ≤ 500000 + u.nowPs)) = some x →
    Completes (.finalise dt (8 + l)) s (fun t => ∀ y ∈ (t.lane l).links, y.slot = x.slot → y.final.map Prod.fst = some (stampOfPs (x.slot + u.laneTx l)))) ∧
  (∀ (s u : State) (dt l : Nat) (x : LinkSlot), s.canonical = true → u = s.advance dt →
    l < 8 →
    (u.lane l).links.find? (fun x => !x.committed && x.final.isSome && decide (x.slot ≤ 300000 + u.nowPs)) = some x →
    Completes (.commitPoint dt (8 + l)) s (fun t => ∀ y ∈ (t.lane l).links, y.slot = x.slot → y.committed = true)) ∧
  (∀ (s u : State) (dt l tx : Nat) (x : LinkSlot) (d : Bytes), s.canonical = true → u = s.advance dt →
    l < 8 →
    (u.lane l).links.find? (fun x => x.committed && decide (x.slot ≤ u.nowPs)) = some x →
    x.final = some (tx, d) →
    Completes (.slotStart dt (8 + l)) s (fun t => Emission.lane l tx (withFcs d) ∈ t.out ∧ (t.rd (A.cmacLaneLinkTx l)).toNat = min ((u.rd (A.cmacLaneLinkTx l)).toNat + 1) 0xFFFFFFFF)) ∧
  (∀ (s u : State) (dt lane ago fec : Nat) (fr : Bytes), s.canonical = true → u = s.advance dt →
    lane < 8 →
    u.laneUp lane = true →
    beAt fr 12 2 = 0x88B6 →
    beAt fr 0 6 = 0x0180C200000E →
    beAt (fr.drop 14) 0 1 = 1 →
    peorelLength (fr.drop 14) = some (beAt (fr.drop 14) 2 2) →
    beAt (fr.drop 14) 2 2 ≤ (fr.drop 14).length →
    beAt (fr.drop 14) 4 8 = u.systemId →
    beAt (fr.drop 14) 1 1 = 1 →
    lane < u.cas.lanes.length →
    Completes (.linkFrameRx dt lane fr ago fec) s (fun t => (t.rd (A.cmacLaneLinkRx lane)).toNat = min ((u.rd (A.cmacLaneLinkRx lane)).toNat + 1) 0xFFFFFFFF ∧ (t.lane lane).offer.map (fun x => x.1) = some (linkOf (fr.drop 14)))) ∧
  (∀ (s u : State) (dt lane ago fec : Nat) (fr : Bytes), s.canonical = true → u = s.advance dt →
    lane < 8 →
    u.laneUp lane = true →
    beAt fr 12 2 ≠ 0x88B6 →
    Completes (.linkFrameRx dt lane fr ago fec) s (fun t => (t.rd (A.cmacLaneOtherRx lane)).toNat = min ((u.rd (A.cmacLaneOtherRx lane)).toNat + 1) 0xFFFFFFFF)) ∧
  (∀ (s u : State) (dt lane : Nat) (fr : Bytes), s.canonical = true → u = s.advance dt →
    lane < 8 →
    u.laneUp lane = true →
    beAt fr 12 2 = 0x88B6 →
    beAt fr 0 6 = 0x0180C200000E →
    beAt (fr.drop 14) 0 1 = 1 →
    peorelLength (fr.drop 14) = some (beAt (fr.drop 14) 2 2) →
    beAt (fr.drop 14) 2 2 ≤ (fr.drop 14).length →
    beAt (fr.drop 14) 4 8 = u.systemId →
    beAt (fr.drop 14) 1 1 = 2 →
    u.casOn = true →
    u.position = 2 →
    u.nowNs + u.f A.casSubDelay 0 32 + u.casMargin ≤ (opOf (fr.drop 14)).atNs →
    (u.cas.ops.filter (fun x => x.issued && !x.sent)).length < 4 →
    Completes (.opReqRx dt lane fr) s (fun t => (t.rd (A.casOpsIssued)).toNat = min ((u.rd (A.casOpsIssued)).toNat + 1) 0xFFFFFFFF ∧ ∃ x ∈ t.cas.ops, x.id = u.cas.nextId)) ∧
  (∀ (s u : State) (dt lane l : Nat) (fr : Bytes), s.canonical = true → u = s.advance dt →
    lane < 8 →
    u.laneUp lane = true →
    beAt fr 12 2 = 0x88B6 →
    beAt fr 0 6 = 0x0180C200000E →
    beAt (fr.drop 14) 0 1 = 1 →
    peorelLength (fr.drop 14) = some (beAt (fr.drop 14) 2 2) →
    beAt (fr.drop 14) 2 2 ≤ (fr.drop 14).length →
    beAt (fr.drop 14) 4 8 = u.systemId →
    beAt (fr.drop 14) 1 1 = 2 →
    u.casOn = true →
    u.position ≠ 2 →
    u.upLane = some l →
    Completes (.opReqRx dt lane fr) s (fun t => t.out.length = u.out.length + 1)) ∧
  (∀ (s u : State) (dt lane : Nat) (fr : Bytes), s.canonical = true → u = s.advance dt →
    lane < 8 →
    u.laneUp lane = true →
    beAt fr 12 2 = 0x88B6 →
    beAt fr 0 6 = 0x0180C200000E →
    beAt (fr.drop 14) 0 1 = 1 →
    peorelLength (fr.drop 14) = some (beAt (fr.drop 14) 2 2) →
    beAt (fr.drop 14) 2 2 ≤ (fr.drop 14).length →
    beAt (fr.drop 14) 4 8 = u.systemId →
    beAt (fr.drop 14) 1 1 = 3 →
    u.casOn = true →
    u.cas.seen.contains (beAt (fr.drop 14) 24 4) = false →
    Completes (.opRx dt lane fr) s (fun t => t.cas.seen.contains (beAt (fr.drop 14) 24 4) = true ∧ ∃ x ∈ t.cas.ops, x.id = beAt (fr.drop 14) 24 4)) ∧
  (∀ (s u : State) (dt i : Nat) (o : CasOp) (e : CalEntry), s.canonical = true → u = (s.advance dt).inOrder isCasOp →
    u.nextOp = some o →
    u.opEntry o = some (i, e) →
    o.op = 1 →
    Completes (.casBarrier dt) s (fun t => (t.rd (A.casOpsExecuted)).toNat = min ((u.rd (A.casOpsExecuted)).toNat + 1) 0xFFFFFFFF ∧ ∀ x ∈ t.cas.ops, x.id = o.id → x.own.isSome = true ∧ t.bit A.casEvent 6 = true)) ∧
  (∀ (s u : State) (dt i : Nat) (o : CasOp) (e : CalEntry), s.canonical = true → u = (s.advance dt).inOrder isCasOp →
    u.nextOp = some o →
    u.opEntry o = some (i, e) →
    o.op = 2 →
    Completes (.casBroadcast dt) s (fun t => (t.rd (A.casOpsExecuted)).toNat = min ((u.rd (A.casOpsExecuted)).toNat + 1) 0xFFFFFFFF ∧ ∀ x ∈ t.cas.ops, x.id = o.id → x.own.isSome = true ∧ ∀ w, w < 64 → t.rd (A.casBcast w) = word (leAt o.data (4 * w) 4) ∧ t.rd A.casBcastId = word o.id ∧ t.bit A.casEvent 7 = true)) ∧
  (∀ (s u : State) (dt i : Nat) (o : CasOp) (e : CalEntry), s.canonical = true → u = (s.advance dt).inOrder isCasOp →
    u.nextOp = some o →
    u.opEntry o = some (i, e) →
    o.op = 3 →
    Completes (.casSnapshot dt) s (fun t => (t.rd (A.casOpsExecuted)).toNat = min ((u.rd (A.casOpsExecuted)).toNat + 1) 0xFFFFFFFF ∧ ∀ x ∈ t.cas.ops, x.id = o.id → x.own.isSome = true ∧ t.bit A.casEvent 8 = true ∧ t.f A.talTallySeq 8 8 = (u.f A.talTallySeq 8 8 + 1) % 256)) ∧
  (∀ (s u : State) (dt i : Nat) (o : CasOp) (e : CalEntry), s.canonical = true → u = (s.advance dt).inOrder isCasOp →
    u.nextOp = some o →
    u.opEntry o = some (i, e) →
    o.op = 4 →
    Completes (.serviceReset dt) s (fun t => (t.rd (A.casOpsExecuted)).toNat = min ((u.rd (A.casOpsExecuted)).toNat + 1) 0xFFFFFFFF ∧ ∀ x ∈ t.cas.ops, x.id = o.id → x.own.isSome = true ∧ t.bit A.casEvent 9 = true ∧ t.rcp.number = 0)) ∧
  (∀ (s u : State) (dt lane : Nat) (fr : Bytes) (o : CasOp), s.canonical = true → u = s.advance dt →
    lane < 8 →
    u.laneUp lane = true →
    beAt fr 12 2 = 0x88B6 →
    beAt fr 0 6 = 0x0180C200000E →
    beAt (fr.drop 14) 0 1 = 1 →
    peorelLength (fr.drop 14) = some (beAt (fr.drop 14) 2 2) →
    beAt (fr.drop 14) 2 2 ≤ (fr.drop 14).length →
    beAt (fr.drop 14) 4 8 = u.systemId →
    beAt (fr.drop 14) 1 1 = 4 →
    u.casOn = true →
    u.findOp (beAt (fr.drop 14) 24 4) = some o →
    o.lanes.contains lane = true →
    o.sent = false →
    u.nowNs ≤ u.opDeadline o →
    o.results.any (fun x => decide (x.1 = lane)) = false →
    Completes (.resultRx dt lane fr) s (fun t => (t.findOp (beAt (fr.drop 14) 24 4)).map (fun x => x.results.any (fun y => decide (y.1 = lane))) = some true)) ∧
  (∀ (s u : State) (dt : Nat) (o : CasOp), s.canonical = true → u = s.advance dt →
    o ∈ u.cas.ops →
    o.sent = false →
    o.own.isSome = true →
    u.opDeadline o ≤ u.nowNs →
    Completes (.resultDeadline dt) s (fun t => ∀ x ∈ t.cas.ops, x.id = o.id → x.sent = true)) ∧
  (∀ (s u : State) (dt lane : Nat) (fr : Bytes) (q : CasRequest), s.canonical = true → u = s.advance dt →
    lane < 8 →
    u.laneUp lane = true →
    beAt fr 12 2 = 0x88B6 →
    beAt fr 0 6 = 0x0180C200000E →
    beAt (fr.drop 14) 0 1 = 1 →
    peorelLength (fr.drop 14) = some (beAt (fr.drop 14) 2 2) →
    beAt (fr.drop 14) 2 2 ≤ (fr.drop 14).length →
    beAt (fr.drop 14) 4 8 = u.systemId →
    beAt (fr.drop 14) 1 1 = 5 →
    u.casOn = true →
    u.cas.req = some q →
    beAt (fr.drop 14) 72 8 = u.serial →
    beAt (fr.drop 14) 80 4 = q.tag →
    Completes (.doneRx dt lane fr) s (fun t => t.cas.req = none ∧ t.bit A.casStatus 19 = false ∧ t.bit A.casEvent 5 = true)) ∧
  (∀ (s u : State) (dt : Nat) (q : CasRequest), s.canonical = true → u = s.advance dt →
    u.cas.req = some q →
    q.bound = none →
    q.op < 256 →
    10000000 * 2 ^ 48 + q.madeAt ≤ u.ts.meas →
    Completes (.requestTimeout dt) s (fun t => t.cas.req = none ∧ t.bit A.casStatus 19 = false ∧ fld (t.cas.result.getD 1 0) 8 8 = 0x42)) ∧
  (∀ (s u : State) (dt b : Nat) (q : CasRequest), s.canonical = true → u = s.advance dt →
    u.cas.req = some q →
    q.bound = some b →
    q.op < 256 →
    q.atNs + u.casGather + 2 * b + 10000000 ≤ u.nowNs →
    Completes (.requestTimeout dt) s (fun t => t.cas.req = none ∧ t.bit A.casStatus 19 = false ∧ fld (t.cas.result.getD 1 0) 8 8 = 0x41)) ∧
  (∀ (s u : State) (dt src a : Nat) (v : Word), s.canonical = true → u = (s.advance dt).dueFirst →
    u.clearSource src →
    u.domainOn 15 = true →
    tallySet[fld (cmValue (u.rd A.talTallySel) v) 1 10]? = some a →
    Completes (.tallySel dt src v) s (fun t => t.rd A.talTallyAddr = word (a + 2 ^ 20 * b2n (pairRowOf a).isSome + 2 ^ 21) ∧ t.rd64 A.talTallyLo = CellList.get (fun _ => 0) (if bitOf (cmValue (u.rd A.talTallySel) v) 0 = true then u.tal.snap else u.tal.last) a % 2 ^ 64)) ∧
  (∀ (s u : State) (dt src w : Nat) (v : Word), s.canonical = true → u = (s.advance dt).dueFirst →
    u.clearSource src →
    w < 2 →
    u.domainOn 15 = true →
    src < u.sources.length →
    Completes (.stolenClear dt src w v) s (fun t => ∀ i, i < 16 → bitOf v (16 + i) = true → bitOf v i = false → (t.view (srcOf src)).stolen.testBit (16 * w + i) = false)) ∧
  (∀ (s u : State) (dt src : Nat) (v : Word), s.canonical = true → u = (s.advance dt).dueFirst →
    u.clearSource src →
    u.domainOn 15 = true →
    Completes (.sampleIndex dt src v) s (fun t => ∀ k, k < 128 → t.rd (A.talSampleRead k) = word (leAt (CellList.get (fun _ => zeros 512) u.tal.store (fld (cmValue (u.rd A.talSampleIndex) v) 0 12)) (4 * k) 4)))

/-- Frames of the timescale, the calendar, the references and the register file: the parts of the state that each command may change. -/
def Obligations.TimescaleFrames : Prop :=
  (∀ dt src addr wide, ChangesOnly (.crClearingRead dt src addr wide) [.regs, .sources, .faultRead, .totals, .journal, .celen, .hif, .ports, .pke, .out]) ∧
  (∀ dt src, ChangesOnly (.guardTimeout dt src) [.regs, .sources, .totals, .journal, .celen, .hif, .out]) ∧
  (∀ dt src, ChangesOnly (.nowSecLoRead dt src) [.regs, .sources, .faultRead, .totals, .journal, .celen, .hif, .ports, .pke, .out]) ∧
  (∀ dt, ChangesAfter (fun s => (s.advance dt).inOrder (ofAction 0x01)) (.hostEvent dt) [.regs, .totals, .celen, .hif, .out, .ts]) ∧
  (∀ dt output, ChangesAfter (fun s => (s.advance dt).inOrder (fun e => decide (e.action = 0x11) && decide (e.target = output))) (.outEdge dt output) [.regs, .totals, .celen, .hif, .pwr, .out, .ts]) ∧
  (∀ dt output, ChangesOnly (.pulseEnd dt output) [.pwr, .out]) ∧
  (∀ dt, ChangesAfter (fun s => (s.advance dt).inOrder (ofAction 0x12)) (.ptpSync dt) [.regs, .totals, .celen, .hif, .ports, .ptp, .tal, .out, .ts]) ∧
  (∀ dt, ChangesAfter (fun s => (s.advance dt).inOrder (ofAction 0x15)) (.ntsEpoch dt) [.regs, .totals, .journal, .celen, .hif, .nts, .out, .fresh, .ts]) ∧
  (∀ dt, ChangesAfter (fun s => (s.advance dt).inOrder (ofAction 0x16)) (.leap dt) [.regs, .totals, .celen, .hif, .out, .ts]) ∧
  (∀ dt, ChangesAfter (fun s => (s.advance dt).inOrder (ofAction 0x18)) (.hifDbPoll dt) [.regs, .totals, .celen, .hif, .out, .ts]) ∧
  (∀ dt ref, ChangesAfter (fun s => (s.advance dt).dueFirst) (.qualTimeExpire dt ref) [.regs]) ∧
  (∀ dt ref, ChangesAfter (fun s => (s.advance dt).dueFirst) (.wtrExpire dt ref) [.regs]) ∧
  (∀ dt ref, ChangesAfter (fun s => (s.advance dt).dueFirst) (.distrustHoldExpire dt ref) [.regs]) ∧
  (∀ dt, ChangesAfter (fun s => (s.advance dt).dueFirst) (.prepareEnd dt) []) ∧
  (∀ dt ref, ChangesOnly (.refLossTimeout dt ref) [.regs, .totals, .celen, .hif, .refs, .out]) ∧
  (∀ dt src ref, ChangesOnly (.offsetLoRead dt src ref) [.regs, .sources, .faultRead, .totals, .journal, .celen, .hif, .ports, .pke, .out]) ∧
  (∀ dt closed, ChangesOnly (.qcontactChange dt closed) [.regs, .totals, .celen, .hif, .out]) ∧
  (∀ dt text framing, ChangesOnly (.todSentenceRx dt text framing) [.regs, .totals, .refs, .pwr])

/-- Register frames of the timescale, the calendar, the references and the register file. -/
def Obligations.TimescaleRegisterFrames : Prop :=
  (∀ dt src, WritesOnly (.guardTimeout dt src) (fun k => faultWords k)) ∧
  (∀ dt src, WritesOnly (.nowSecLoRead dt src) (fun k => [span 0x10000 0x14000 k] ++ faultWords k)) ∧
  (∀ dt, WritesAfter (fun s => (s.advance dt).inOrder (ofAction 0x01)) (.hostEvent dt) (fun k => [A.tscEvent, A.tscCalSkipped, A.tscCalLate, A.tscCalUsed] ++ reportWords k)) ∧
  (∀ dt output, WritesAfter (fun s => (s.advance dt).inOrder (fun e => decide (e.action = 0x11) && decide (e.target = output))) (.outEdge dt output) (fun k => [A.tscEvent, A.tscCalSkipped, A.tscCalLate, A.tscCalUsed] ++ reportWords k)) ∧
  (∀ dt output, WritesOnly (.pulseEnd dt output) (fun _ => [])) ∧
  (∀ dt, WritesAfter (fun s => (s.advance dt).inOrder (ofAction 0x15)) (.ntsEpoch dt) (fun k => [span 0x60000 0x68000 k, span 0x78000 0x80000 k, span 0x10000 0x14000 k] ++ journalWords k)) ∧
  (∀ dt, WritesAfter (fun s => (s.advance dt).inOrder (ofAction 0x16)) (.leap dt) (fun k => [A.tscEvent, A.tscCalSkipped, A.tscCalLate, A.tscCalUsed, A.tscLeapCur] ++ reportWords k)) ∧
  (∀ dt, WritesAfter (fun s => (s.advance dt).inOrder (ofAction 0x18)) (.hifDbPoll dt) (fun k => [A.tscEvent, A.tscCalSkipped, A.tscCalLate, A.tscCalUsed, A.hifDbReads] ++ reportWords k)) ∧
  (∀ dt ref, WritesAfter (fun s => (s.advance dt).dueFirst) (.qualTimeExpire dt ref) (fun k => [span 0x14000 0x18000 k] ++ journalWords k)) ∧
  (∀ dt ref, WritesAfter (fun s => (s.advance dt).dueFirst) (.wtrExpire dt ref) (fun k => [span 0x14000 0x18000 k] ++ journalWords k)) ∧
  (∀ dt ref, WritesAfter (fun s => (s.advance dt).dueFirst) (.distrustHoldExpire dt ref) (fun k => [span 0x14000 0x18000 k] ++ journalWords k)) ∧
  (∀ dt, WritesAfter (fun s => (s.advance dt).dueFirst) (.prepareEnd dt) (fun k => [span 0x14000 0x18000 k, span 0x10000 0x14000 k] ++ journalWords k)) ∧
  (∀ dt ref, WritesOnly (.refLossTimeout dt ref) (fun k => [A.refInEvent ref, A.refInLosCount ref] ++ reportWords k)) ∧
  (∀ dt src ref, WritesOnly (.offsetLoRead dt src ref) (fun k => [span 0x14000 0x18000 k] ++ faultWords k)) ∧
  (∀ dt closed, WritesOnly (.qcontactChange dt closed) (fun k => [A.refQcontactState, A.refInEvent (k % 16), A.refInState (k % 16), A.refInRhoRef (k % 16)] ++ reportWords k)) ∧
  (∀ dt text framing, WritesOnly (.todSentenceRx dt text framing) (fun _ => [A.pwrTodBad, A.pwrIoStatus, A.pwrTodRx]))

/-- Frames of the oscillators and the cartridge, the GNSS antennas and the time tags: the parts of the state that each command may change. -/
def Obligations.OscillatorFrames : Prop :=
  (∀ dt opened, ChangesOnly (.cartLoss dt opened) [.regs, .totals, .journal, .celen, .hif, .refs, .hol, .out, .ts]) ∧
  (∀ dt, ChangesOnly (.modelSample dt) [.regs, .totals, .celen, .hif, .hol, .out]) ∧
  (∀ dt, ChangesOnly (.modelFlashWrite dt) [.hol, .out]) ∧
  (∀ dt, ChangesOnly (.cartInsert dt) [.regs, .totals, .celen, .hif, .hol, .out]) ∧
  (∀ dt, ChangesOnly (.cartRemove dt) [.regs, .totals, .journal, .celen, .hif, .refs, .hol, .out, .ts]) ∧
  (∀ dt code rev serial block, ChangesOnly (.cartIdentified dt code rev serial block) [.regs, .totals, .journal, .celen, .hif, .refs, .hol, .out, .ts]) ∧
  (∀ dt, ChangesOnly (.cartIdTimeout dt) [.regs, .totals, .journal, .celen, .hif, .refs, .hol, .out, .ts]) ∧
  (∀ dt lock fault, ChangesOnly (.cartStatusPoll dt lock fault) [.regs, .totals, .journal, .celen, .hif, .refs, .hol, .out, .ts]) ∧
  (∀ dt, ChangesOnly (.cartWarmTimeout dt) [.regs, .totals, .journal, .celen, .hif, .refs, .hol, .out, .ts]) ∧
  (∀ dt, ChangesOnly (.cartMeasDone dt) [.regs, .totals, .celen, .hif, .hol, .out]) ∧
  (∀ dt, ChangesOnly (.cartOvercurrent dt) [.regs, .totals, .journal, .celen, .hif, .refs, .hol, .out, .ts]) ∧
  (∀ dt, ChangesOnly (.cartPd2Off dt) [.regs, .hol]) ∧
  (∀ dt tempKeeper tempCart, ChangesOnly (.kaTick dt tempKeeper tempCart) [.regs, .totals, .journal, .celen, .hif, .hol, .out, .ts]) ∧
  (∀ dt, ChangesOnly (.keeperFault dt) [.regs, .totals, .celen, .hif, .out]) ∧
  (∀ dt, ChangesOnly (.kaGnssWake dt) [.regs, .hol, .gnss]) ∧
  (∀ dt sky, ChangesOnly (.kaWakeEnd dt sky) [.regs, .gnss]) ∧
  (∀ dt side sol, ChangesOnly (.gnssSolutionDone dt side sol) [.regs, .totals, .celen, .hif, .refs, .gnss, .out]) ∧
  (∀ dt side check, ChangesOnly (.gnssAlarmClear dt side check) [.regs, .totals, .celen, .hif, .gnss, .out]) ∧
  (∀ dt side constellation key check, ChangesOnly (.gnssExclEnd dt side constellation key check) [.regs, .totals, .celen, .hif, .gnss, .out]) ∧
  (∀ dt side chan, ChangesOnly (.channelLossOfLock dt side chan) [.regs, .gnss]) ∧
  (∀ dt side chan cn0 state, ChangesOnly (.signalAcquired dt side chan cn0 state) [.regs, .gnss]) ∧
  (∀ dt side msg, ChangesOnly (.navRecord dt side msg) [.regs, .totals, .journal, .celen, .hif, .gnss, .out, .ts]) ∧
  (∀ dt, ChangesOnly (.hotstartWrite dt) [.gnss]) ∧
  (∀ dt side, ChangesOnly (.surveyProgress dt side) [.gnss, .out]) ∧
  (∀ dt side, ChangesOnly (.surveyComplete dt side) [.regs, .totals, .celen, .hif, .gnss, .boot, .out]) ∧
  (∀ dt side, ChangesOnly (.surveyTimeout dt side) [.regs, .totals, .celen, .hif, .gnss, .out]) ∧
  (∀ dt, ChangesOnly (.snapTrigger dt) [.regs, .gnss]) ∧
  (∀ dt, ChangesOnly (.snapCaptureEnd dt) [.regs, .totals, .celen, .hif, .gnss, .out]) ∧
  (∀ dt side, ChangesOnly (.replayEnd dt side) [.regs, .gnss]) ∧
  (∀ dt src side, ChangesOnly (.thetaLoRead dt src side) [.regs, .sources, .faultRead, .totals, .journal, .celen, .hif, .ports, .pke, .out]) ∧
  (∀ dt side band obs, ChangesOnly (.rfiSpectrum dt side band obs) [.regs, .totals, .celen, .hif, .gnss, .out]) ∧
  (∀ dt side ma, ChangesOnly (.biasShort dt side ma) [.regs, .totals, .celen, .hif, .gnss, .out]) ∧
  (∀ dt side ma, ChangesOnly (.biasRetry dt side ma) [.regs, .totals, .celen, .hif, .gnss, .out]) ∧
  (∀ dt side startOk, ChangesOnly (.gnssFwLoad dt side startOk) [.regs, .totals, .journal, .celen, .hif, .gnss, .out]) ∧
  (∀ dt chan rising sub cycles, ChangesOnly (.tagEdge dt chan rising sub cycles) [.regs, .totals, .journal, .celen, .hif, .refs, .hol, .ttu, .out, .ts]) ∧
  (∀ dt, ChangesOnly (.tagForward dt) [.regs, .hif, .ttu, .out]) ∧
  (∀ dt prog, ChangesOnly (.measClose dt prog) [.regs, .totals, .ttu]) ∧
  (∀ dt prog, ChangesOnly (.measGateClose dt prog) [.regs, .totals, .ttu]) ∧
  (∀ dt, ChangesOnly (.measForward dt) [.regs, .hif, .ttu, .out]) ∧
  (∀ dt skews, ChangesOnly (.calBurst dt skews) [.ttu])

/-- Register frames of the oscillators and the cartridge, the GNSS antennas and the time tags. -/
def Obligations.OscillatorRegisterFrames : Prop :=
  (∀ dt opened, WritesOnly (.cartLoss dt opened) (fun k => [span 0x18000 0x20000 k, span 0x8000 0xA000 k, span 0x10000 0x14000 k] ++ journalWords k)) ∧
  (∀ dt, WritesOnly (.modelSample dt) (fun k => [A.holStatus, A.holEvent, A.holKmodel (k % 16), A.holCmodel (k % 16)] ++ reportWords k)) ∧
  (∀ dt, WritesOnly (.modelFlashWrite dt) (fun _ => [])) ∧
  (∀ dt, WritesOnly (.cartInsert dt) (fun k => [A.holEvent, A.pwrDomState, A.holStatus, A.holCartTimer] ++ reportWords k)) ∧
  (∀ dt, WritesOnly (.cartRemove dt) (fun k => [span 0x18000 0x20000 k, span 0x8000 0xA000 k, span 0x10000 0x14000 k] ++ journalWords k)) ∧
  (∀ dt code rev serial block, WritesOnly (.cartIdentified dt code rev serial block) (fun k => [span 0x18000 0x20000 k, span 0x8000 0xA000 k, span 0x10000 0x14000 k] ++ journalWords k)) ∧
  (∀ dt, WritesOnly (.cartIdTimeout dt) (fun k => [span 0x18000 0x20000 k, span 0x8000 0xA000 k, span 0x10000 0x14000 k] ++ journalWords k)) ∧
  (∀ dt lock fault, WritesOnly (.cartStatusPoll dt lock fault) (fun k => [span 0x18000 0x20000 k, span 0x8000 0xA000 k, span 0x10000 0x14000 k] ++ journalWords k)) ∧
  (∀ dt, WritesOnly (.cartWarmTimeout dt) (fun k => [span 0x18000 0x20000 k, span 0x8000 0xA000 k, span 0x10000 0x14000 k] ++ journalWords k)) ∧
  (∀ dt, WritesOnly (.cartMeasDone dt) (fun k => [A.holEvent, A.holStatus, A.holCartTimer] ++ reportWords k)) ∧
  (∀ dt, WritesOnly (.cartOvercurrent dt) (fun k => [span 0x18000 0x20000 k, span 0x8000 0xA000 k, span 0x10000 0x14000 k] ++ journalWords k)) ∧
  (∀ dt, WritesOnly (.cartPd2Off dt) (fun _ => [A.holTempCart, A.holCartDiff, A.pwrDomState, A.holStatus, A.holCartTimer])) ∧
  (∀ dt tempKeeper tempCart, WritesOnly (.kaTick dt tempKeeper tempCart) (fun k => [span 0x18000 0x20000 k, span 0x10000 0x14000 k] ++ journalWords k)) ∧
  (∀ dt, WritesOnly (.keeperFault dt) (fun k => [A.holEvent] ++ reportWords k)) ∧
  (∀ dt, WritesOnly (.kaGnssWake dt) (fun k => [A.pwrDomState, A.gnsStatus, A.gnsSideStatus (k % 2), A.gnsSideBias (k % 2), A.gnsSideChan (k % 2) (k / 2 % 640)])) ∧
  (∀ dt sky, WritesOnly (.kaWakeEnd dt sky) (fun k => [A.gnsStatus, A.pwrDomState, A.gnsSideBias (k % 2), A.gnsSideChan (k % 2) (k / 2 % 640)])) ∧
  (∀ dt side sol, WritesOnly (.gnssSolutionDone dt side sol) (fun k => [span 0x20000 0x30000 k] ++ reportWords k)) ∧
  (∀ dt side check, WritesOnly (.gnssAlarmClear dt side check) (fun k => [A.gnsSideEvent side, A.gnsSideStatus side] ++ reportWords k)) ∧
  (∀ dt side constellation key check, WritesOnly (.gnssExclEnd dt side constellation key check) (fun k => [A.gnsSideEvent side, A.gnsSideExclCount side] ++ reportWords k)) ∧
  (∀ dt side chan, WritesOnly (.channelLossOfLock dt side chan) (fun _ => [A.gnsSideChan side (4 * chan), A.gnsSideChan side (4 * chan + 3)])) ∧
  (∀ dt side chan cn0 state, WritesOnly (.signalAcquired dt side chan cn0 state) (fun _ => [A.gnsSideChan side (4 * chan), A.gnsSideChan side (4 * chan + 1), A.gnsSideChan side (4 * chan + 2), A.gnsSideChan side (4 * chan + 3)])) ∧
  (∀ dt side msg, WritesOnly (.navRecord dt side msg) (fun k => [span 0x20000 0x30000 k, span 0x10000 0x14000 k, span 0x4000 0x8000 k] ++ journalWords k)) ∧
  (∀ dt, WritesOnly (.hotstartWrite dt) (fun _ => [])) ∧
  (∀ dt side, WritesOnly (.surveyProgress dt side) (fun _ => [])) ∧
  (∀ dt side, WritesOnly (.surveyComplete dt side) (fun k => [A.gnsSidePosSigma side, A.gnsSidePosZ side, A.gnsSidePosY side, A.gnsSidePosX side, A.gnsSideStatus side, A.gnsSideEvent side] ++ reportWords k)) ∧
  (∀ dt side, WritesOnly (.surveyTimeout dt side) (fun k => [A.gnsSideStatus side, A.gnsSideEvent side] ++ reportWords k)) ∧
  (∀ dt, WritesOnly (.snapTrigger dt) (fun _ => [A.gnsSnapStatus, A.gnsStatus])) ∧
  (∀ dt, WritesOnly (.snapCaptureEnd dt) (fun k => [A.gnsEvent, A.gnsSnapStatus, A.gnsStatus] ++ reportWords k)) ∧
  (∀ dt side, WritesOnly (.replayEnd dt side) (fun k => [A.gnsStatus, A.gnsSideStatus side, A.gnsSideBias side, A.gnsSideChan side (k % 640)])) ∧
  (∀ dt src side, WritesOnly (.thetaLoRead dt src side) (fun k => [span 0x20000 0x30000 k] ++ faultWords k)) ∧
  (∀ dt side band obs, WritesOnly (.rfiSpectrum dt side band obs) (fun k => [span 0x20000 0x30000 k] ++ reportWords k)) ∧
  (∀ dt side ma, WritesOnly (.biasShort dt side ma) (fun k => [A.gnsSideEvent side, A.gnsSideBias side] ++ reportWords k)) ∧
  (∀ dt side ma, WritesOnly (.biasRetry dt side ma) (fun k => [A.gnsSideEvent side, A.gnsSideBias side] ++ reportWords k)) ∧
  (∀ dt side startOk, WritesOnly (.gnssFwLoad dt side startOk) (fun k => [A.gnsSideStatus side, A.gnsStatus, A.gnsSideBias side, A.gnsSideChan side (k % 640)] ++ journalWords k)) ∧
  (∀ dt chan rising sub cycles, WritesOnly (.tagEdge dt chan rising sub cycles) (fun k => [span 0x30000 0x40000 k, span 0x18000 0x20000 k, span 0x8000 0xA000 k, span 0x14000 0x18000 k, span 0x10000 0x14000 k] ++ journalWords k)) ∧
  (∀ dt, WritesOnly (.tagForward dt) (fun k => [A.hifRingPosted (k % 256)])) ∧
  (∀ dt prog, WritesOnly (.measClose dt prog) (fun _ => [A.ttuMpStray prog, A.ttuMpStatus prog])) ∧
  (∀ dt prog, WritesOnly (.measGateClose dt prog) (fun _ => [A.ttuMpMissing prog])) ∧
  (∀ dt, WritesOnly (.measForward dt) (fun k => [A.hifRingPosted (k % 256)])) ∧
  (∀ dt skews, WritesOnly (.calBurst dt skews) (fun _ => []))

/-- Frames of frames, links and requests: the parts of the state that each command may change. -/
def Obligations.LinkFrames : Prop :=
  (∀ dt link phys, ChangesOnly (.frameRx dt link phys) [.regs, .totals, .celen, .hif, .ports, .hrc, .tal, .out]) ∧
  (∀ dt link occupancy, ChangesOnly (.weirLow dt link occupancy) [.regs, .totals, .celen, .hif, .ports, .tal, .out]) ∧
  (∀ dt link, ChangesOnly (.pauseRefresh dt link) [.regs, .totals, .celen, .hif, .ports, .tal, .out]) ∧
  (∀ dt link, ChangesOnly (.pauseEffect dt link) [.regs, .ports]) ∧
  (∀ dt link, ChangesOnly (.pauseHoldEnd dt link) [.regs, .ports]) ∧
  (∀ dt link, ChangesOnly (.pauseOverlimit dt link) [.regs, .totals, .celen, .hif, .ports, .out]) ∧
  (∀ dt link rxDyn txDyn, ChangesOnly (.linkUp dt link rxDyn txDyn) [.regs, .totals, .celen, .hif, .refs, .ports, .ptp, .cas, .out]) ∧
  (∀ dt cage responded ident pclass, ChangesOnly (.cageInsert dt cage responded ident pclass) [.regs, .totals, .celen, .hif, .out]) ∧
  (∀ dt link, ChangesOnly (.verifySend dt link) [.regs, .totals, .celen, .hif, .ports, .out]) ∧
  (∀ dt link, ChangesOnly (.verifyResponse dt link) [.regs]) ∧
  (∀ dt link nonce captured, ChangesOnly (.probeReturn dt link nonce captured) [.regs, .totals, .celen, .hif, .ports, .out]) ∧
  (∀ dt link, ChangesOnly (.probeTimeout dt link) [.regs, .ports]) ∧
  (∀ dt link, ChangesOnly (.responseBook dt link) [.regs, .totals, .celen, .hif, .ports, .tal, .out]) ∧
  (∀ dt link, ChangesOnly (.finalise dt link) [.regs, .totals, .ports, .cas, .fresh]) ∧
  (∀ dt link, ChangesOnly (.commitPoint dt link) [.regs, .totals, .celen, .hif, .ports, .tal, .cas, .out]) ∧
  (∀ dt link, ChangesOnly (.slotStart dt link) [.regs, .totals, .celen, .hif, .ports, .ptp, .tal, .cas, .out]) ∧
  (∀ dt link, ChangesOnly (.ageDrop dt link) [.regs, .totals, .celen, .hif, .ports, .tal, .out]) ∧
  (∀ dt link last, ChangesOnly (.preemptableFrameSent dt link last) [.regs, .totals, .hif, .ports, .out]) ∧
  (∀ dt, ChangesOnly (.arpRequest dt) [.ports]) ∧
  (∀ dt, ChangesOnly (.neighborSolicitation dt) [.ports]) ∧
  (∀ dt, ChangesOnly (.exceptionFrame dt) [.regs, .totals, .hif, .ports, .out]) ∧
  (∀ dt pipe, ChangesOnly (.ntpRequest dt pipe) [.regs, .totals, .celen, .hif, .ports, .hrc, .tal, .out]) ∧
  (∀ dt pipe, ChangesOnly (.ntsRequest dt pipe) [.regs, .totals, .celen, .hif, .ports, .hrc, .tal, .out]) ∧
  (∀ dt bucket, ChangesOnly (.bucketMoveDone dt bucket) [.regs, .totals, .celen, .hif, .hrc, .tal, .out]) ∧
  (∀ dt, ChangesOnly (.ntsKeyDrawn dt) [.regs, .totals, .celen, .hif, .nts, .out, .fresh]) ∧
  (∀ dt, ChangesOnly (.keyDeferRetry dt) [.regs, .totals, .journal, .celen, .hif, .nts, .out, .fresh]) ∧
  (∀ dt mint, ChangesOnly (.mintJob dt mint) [.regs, .totals, .celen, .hif, .out, .fresh]) ∧
  (∀ dt pipe, ChangesOnly (.drainComplete dt pipe) [.regs, .totals, .journal, .celen, .hif, .refs, .gnss, .hrc, .pke, .tal, .fences, .out]) ∧
  (∀ dt pipe pass, ChangesOnly (.reloadComplete dt pipe pass) [.regs, .totals, .journal, .celen, .hif, .out])

/-- Register frames of frames, links and requests. -/
def Obligations.LinkRegisterFrames : Prop :=
  (∀ dt link phys, WritesOnly (.frameRx dt link phys) (fun k => [span 0x40000 0x48000 k, span 0x50000 0x58000 k, span 0x58000 0x60000 k, span 0x68000 0x70000 k, span 0xC000 0x10000 k, span 0x4000 0x8000 k] ++ reportWords k)) ∧
  (∀ dt link occupancy, WritesOnly (.weirLow dt link occupancy) (fun k => [span 0x40000 0x48000 k, span 0xC000 0x10000 k] ++ reportWords k)) ∧
  (∀ dt link, WritesOnly (.pauseRefresh dt link) (fun k => [span 0x40000 0x48000 k, span 0xC000 0x10000 k] ++ reportWords k)) ∧
  (∀ dt link, WritesOnly (.pauseEffect dt link) (fun _ => [A.macLinkStatus link, A.macLinkPauseHeld link])) ∧
  (∀ dt link, WritesOnly (.pauseHoldEnd dt link) (fun _ => [A.macLinkStatus link, A.macLinkPauseHeld link])) ∧
  (∀ dt link, WritesOnly (.pauseOverlimit dt link) (fun k => [A.macLinkEvent link, A.macLinkPauseOverlimit link, A.macLinkStatus link, A.macLinkPauseHeld link] ++ reportWords k)) ∧
  (∀ dt link rxDyn txDyn, WritesOnly (.linkUp dt link rxDyn txDyn) (fun k => [span 0x40000 0x48000 k, span 0x48000 0x50000 k, span 0x68000 0x70000 k, span 0x14000 0x18000 k] ++ reportWords k)) ∧
  (∀ dt cage responded ident pclass, WritesOnly (.cageInsert dt cage responded ident pclass) (fun k => [A.macEvent cage, A.macStatus cage, A.macCageFault cage, A.macCage cage, A.cmacEvent, A.cmacStatus, A.cmacCageFault, A.cmacCage0, A.cmacCage1] ++ reportWords k)) ∧
  (∀ dt link, WritesOnly (.verifySend dt link) (fun k => [A.macLinkEvent link, A.macLinkStatus link] ++ reportWords k)) ∧
  (∀ dt link, WritesOnly (.verifyResponse dt link) (fun _ => [A.macLinkStatus link])) ∧
  (∀ dt link nonce captured, WritesOnly (.probeReturn dt link nonce captured) (fun k => [A.macLinkEvent link, A.macLinkProbeResult link, A.macLinkProbeCtl link] ++ reportWords k)) ∧
  (∀ dt link, WritesOnly (.probeTimeout dt link) (fun _ => [A.macLinkProbeResult link, A.macLinkProbeCtl link])) ∧
  (∀ dt link, WritesOnly (.responseBook dt link) (fun k => [span 0x40000 0x48000 k, span 0xC000 0x10000 k] ++ reportWords k)) ∧
  (∀ dt link, WritesOnly (.finalise dt link) (fun k => [A.svpPipeStepAdj k])) ∧
  (∀ dt link, WritesOnly (.commitPoint dt link) (fun k => [span 0x40000 0x48000 k, span 0xC000 0x10000 k] ++ reportWords k)) ∧
  (∀ dt link, WritesOnly (.ageDrop dt link) (fun k => [span 0x40000 0x48000 k, span 0xC000 0x10000 k] ++ reportWords k)) ∧
  (∀ dt, WritesOnly (.arpRequest dt) (fun _ => [])) ∧
  (∀ dt, WritesOnly (.neighborSolicitation dt) (fun _ => [])) ∧
  (∀ dt, WritesOnly (.exceptionFrame dt) (fun k => [A.macLinkUnclaimed k, A.macLinkRxToHost k, A.macLinkRxToHost k + 4, A.hifRingState (k % 256), A.hifRingDrop (k % 256)] ++ reportWords k)) ∧
  (∀ dt bucket, WritesOnly (.bucketMoveDone dt bucket) (fun k => [span 0x40000 0x48000 k, span 0x50000 0x58000 k, span 0x58000 0x60000 k, span 0xC000 0x10000 k, A.macLinkRxToPipe k, A.macLinkRxToPipe k + 4, A.svpPipeStatus k] ++ reportWords k)) ∧
  (∀ dt, WritesOnly (.ntsKeyDrawn dt) (fun k => [A.ntsEvent, A.pkeFeDenied, A.ntsKeyCur, A.ntsStatus, A.ntsKeyPrev (k % 3)] ++ reportWords k)) ∧
  (∀ dt, WritesOnly (.keyDeferRetry dt) (fun k => [span 0x60000 0x68000 k, span 0x78000 0x80000 k] ++ journalWords k)) ∧
  (∀ dt mint, WritesOnly (.mintJob dt mint) (fun k => [A.ntsMintJobs, A.ntsMinted, A.ntsMinted + 4, A.ntsEvent, A.ntsMintFail, A.hifRingState (k % 256)] ++ reportWords k)) ∧
  (∀ dt pipe pass, WritesOnly (.reloadComplete dt pipe pass) (fun k => [span 0x58000 0x60000 k] ++ journalWords k))

/-- Frames of PTP, NTS, receipts and public keys: the parts of the state that each command may change. -/
def Obligations.ProtocolFrames : Prop :=
  (∀ dt, ChangesOnly (.delayReqRx dt) [.regs, .totals, .ports, .ptp]) ∧
  (∀ dt, ChangesOnly (.unicastRequestRx dt) [.regs, .totals, .celen, .hif, .ports, .ptp, .out, .ts]) ∧
  (∀ dt, ChangesOnly (.unicastCancelRx dt) [.regs, .totals, .celen, .hif, .refs, .ports, .ptp, .out, .ts]) ∧
  (∀ dt, ChangesOnly (.grantExpire dt) [.regs, .totals, .ptp, .ts]) ∧
  (∀ dt, ChangesOnly (.slaveMessageRx dt) [.regs, .totals, .journal, .celen, .hif, .refs, .ports, .ptp, .out, .ts]) ∧
  (∀ dt slave, ChangesOnly (.annTimeout dt slave) [.regs, .totals, .celen, .hif, .refs, .ptp, .out]) ∧
  (∀ dt slave, ChangesOnly (.slaveGrantRenew dt slave) [.regs, .totals, .celen, .hif, .refs, .ports, .ptp, .out]) ∧
  (∀ dt, ChangesOnly (.esmcRx dt) [.regs, .totals, .refs, .ports, .ptp]) ∧
  (∀ dt, ChangesOnly (.grantUnicastTransmissionRx dt) [.regs, .totals, .celen, .hif, .refs, .ports, .ptp, .out]) ∧
  (∀ dt pipe, ChangesOnly (.etxelRequest dt pipe) [.regs, .totals, .celen, .hif, .ports, .hrc, .rcp, .tal, .out]) ∧
  (∀ dt pipe, ChangesOnly (.roughtimeRequest dt pipe) [.regs, .totals, .celen, .hif, .hrc, .rcp, .tal, .out]) ∧
  (∀ dt, ChangesOnly (.sealDone dt) [.regs, .totals, .celen, .hif, .rcp, .tal, .out]) ∧
  (∀ dt, ChangesOnly (.sealTimeout dt) [.regs, .totals, .celen, .hif, .pke, .rcp, .tal, .out]) ∧
  (∀ dt, ChangesOnly (.receiptRelease dt) [.regs, .totals, .celen, .hif, .ports, .rcp, .tal, .out]) ∧
  (∀ dt, ChangesOnly (.onlineKeyExpire dt) [.regs, .totals, .celen, .hif, .rcp, .out]) ∧
  (∀ dt core, ChangesOnly (.ed25519Sign dt core) [.regs, .totals, .pke, .fresh]) ∧
  (∀ dt core, ChangesOnly (.ed25519Verify dt core) [.regs, .totals, .pke, .fresh]) ∧
  (∀ dt core, ChangesOnly (.ed448Sign dt core) [.regs, .totals, .pke, .fresh]) ∧
  (∀ dt core, ChangesOnly (.ed448Verify dt core) [.regs, .totals, .pke, .fresh]) ∧
  (∀ dt core, ChangesOnly (.x25519 dt core) [.regs, .totals, .pke, .fresh]) ∧
  (∀ dt core, ChangesOnly (.x448 dt core) [.regs, .totals, .pke, .fresh]) ∧
  (∀ dt core, ChangesOnly (.ecdsaSign dt core) [.regs, .totals, .pke, .fresh]) ∧
  (∀ dt core, ChangesOnly (.ecdsaVerify dt core) [.regs, .totals, .pke, .fresh]) ∧
  (∀ dt core, ChangesOnly (.ecdh dt core) [.regs, .totals, .pke, .fresh]) ∧
  (∀ dt core, ChangesOnly (.rsaPrivate dt core) [.regs, .totals, .pke, .fresh]) ∧
  (∀ dt core, ChangesOnly (.rsaPublic dt core) [.regs, .totals, .pke, .fresh]) ∧
  (∀ dt core, ChangesOnly (.keygen dt core) [.regs, .totals, .pke, .fresh]) ∧
  (∀ dt core, ChangesOnly (.keyImport dt core) [.regs, .totals, .pke, .fresh]) ∧
  (∀ dt, ChangesOnly (.keyWipe dt) [.regs, .totals, .journal, .celen, .hif, .pke, .out]) ∧
  (∀ dt, ChangesOnly (.keyPublic dt) [.regs, .totals, .hif, .pke, .out]) ∧
  (∀ dt core, ChangesOnly (.pkeDispatch dt core) [.regs, .totals, .hif, .pke, .out]) ∧
  (∀ dt core, ChangesOnly (.pkeYield dt core) [.regs, .totals, .hif, .pke, .out]) ∧
  (∀ dt, ChangesOnly (.pkeJobAged dt) [.pke]) ∧
  (∀ dt core wiped, ChangesOnly (.pkeJobComplete dt core wiped) [.regs, .totals, .journal, .celen, .hif, .refs, .gnss, .hrc, .pke, .rcp, .tal, .fences, .out, .fresh]) ∧
  (∀ dt core phase tested, ChangesOnly (.keygenProgress dt core phase tested) [.regs, .pke, .out]) ∧
  (∀ dt, ChangesOnly (.drbgReseed dt) [.regs, .totals, .pke]) ∧
  (∀ dt source repetition, ChangesOnly (.trngSourceFail dt source repetition) [.regs, .totals, .journal, .celen, .hif, .pke, .out]) ∧
  (∀ dt source pass, ChangesOnly (.trngSourceRetest dt source pass) [.regs, .totals, .journal, .celen, .hif, .pke, .out]) ∧
  (∀ dt kind unit pass, ChangesOnly (.unitSelftestDone dt kind unit pass) [.regs, .totals, .journal, .celen, .hif, .refs, .gnss, .hrc, .pke, .tal, .fences, .testing, .out])

/-- Register frames of PTP, NTS, receipts and public keys. -/
def Obligations.ProtocolRegisterFrames : Prop :=
  (∀ dt, WritesOnly (.delayReqRx dt) (fun _ => [A.ptpProtoDrop, A.ptpNoGrant, A.ptpDreqExcess])) ∧
  (∀ dt, WritesOnly (.unicastRequestRx dt) (fun k => [span 0x68000 0x70000 k, span 0x10000 0x14000 k] ++ reportWords k)) ∧
  (∀ dt, WritesOnly (.unicastCancelRx dt) (fun k => [span 0x68000 0x70000 k, span 0x10000 0x14000 k, span 0x14000 0x18000 k] ++ reportWords k)) ∧
  (∀ dt, WritesOnly (.grantExpire dt) (fun k => [A.ptpGrantExpired, A.tscCalUsed, A.ptpCtxUsed, A.ptpInstContexts (k % 16), A.ptpCtxRead (k % 12)])) ∧
  (∀ dt, WritesOnly (.slaveMessageRx dt) (fun k => [span 0x68000 0x70000 k, span 0x10000 0x14000 k, span 0x14000 0x18000 k] ++ journalWords k)) ∧
  (∀ dt slave, WritesOnly (.annTimeout dt slave) (fun k => [A.ptpSlvState slave, A.ptpSlvEvent slave, A.refInEvent (k % 16), A.refInLosCount (k % 16)] ++ reportWords k)) ∧
  (∀ dt slave, WritesOnly (.slaveGrantRenew dt slave) (fun k => [A.ptpSlvState slave, A.ptpSlvEvent slave, A.refInEvent (k % 16), A.refInLosCount (k % 16)] ++ reportWords k)) ∧
  (∀ dt, WritesOnly (.esmcRx dt) (fun _ => [A.ptpEsmcBad, A.ptpEsmcRx])) ∧
  (∀ dt, WritesOnly (.grantUnicastTransmissionRx dt) (fun k => [A.ptpSlvState (k % 2), A.ptpSlvEvent (k % 2), A.refInEvent (k % 16), A.refInLosCount (k % 16)] ++ reportWords k)) ∧
  (∀ dt, WritesOnly (.sealDone dt) (fun k => [span 0x70000 0x78000 k, span 0xC000 0x10000 k, span 0x4000 0x8000 k] ++ reportWords k)) ∧
  (∀ dt, WritesOnly (.sealTimeout dt) (fun k => [span 0x70000 0x78000 k, span 0xC000 0x10000 k, span 0x78000 0x80000 k] ++ reportWords k)) ∧
  (∀ dt, WritesOnly (.receiptRelease dt) (fun k => [A.svpPipeSlots k, A.rcpEtxelOk, A.rcpRtOk, A.macLinkEvent k, A.macLinkLinkDrop k, A.talSampleFiltered, A.talEvent, A.talSampleMissed, A.talSampleSeq, A.talStatus] ++ reportWords k)) ∧
  (∀ dt, WritesOnly (.onlineKeyExpire dt) (fun k => [A.rcpEvent, A.rcpKeyId, A.rcpRotateHi, A.rcpRotateLo, A.rcpStatus, A.rcpOnlinePub (k % 8), A.rcpCert (k % 32)] ++ reportWords k)) ∧
  (∀ dt core, WritesOnly (.ed25519Sign dt core) (fun _ => [A.pkeFeDenied, A.pkeCoreStatus core, A.pkeCoreTag core, A.pkeQueue, A.pkeStatus])) ∧
  (∀ dt core, WritesOnly (.ed25519Verify dt core) (fun _ => [A.pkeFeDenied, A.pkeCoreStatus core, A.pkeCoreTag core, A.pkeQueue, A.pkeStatus])) ∧
  (∀ dt core, WritesOnly (.ed448Sign dt core) (fun _ => [A.pkeFeDenied, A.pkeCoreStatus core, A.pkeCoreTag core, A.pkeQueue, A.pkeStatus])) ∧
  (∀ dt core, WritesOnly (.ed448Verify dt core) (fun _ => [A.pkeFeDenied, A.pkeCoreStatus core, A.pkeCoreTag core, A.pkeQueue, A.pkeStatus])) ∧
  (∀ dt core, WritesOnly (.x25519 dt core) (fun _ => [A.pkeFeDenied, A.pkeCoreStatus core, A.pkeCoreTag core, A.pkeQueue, A.pkeStatus])) ∧
  (∀ dt core, WritesOnly (.x448 dt core) (fun _ => [A.pkeFeDenied, A.pkeCoreStatus core, A.pkeCoreTag core, A.pkeQueue, A.pkeStatus])) ∧
  (∀ dt core, WritesOnly (.ecdsaSign dt core) (fun _ => [A.pkeFeDenied, A.pkeCoreStatus core, A.pkeCoreTag core, A.pkeQueue, A.pkeStatus])) ∧
  (∀ dt core, WritesOnly (.ecdsaVerify dt core) (fun _ => [A.pkeFeDenied, A.pkeCoreStatus core, A.pkeCoreTag core, A.pkeQueue, A.pkeStatus])) ∧
  (∀ dt core, WritesOnly (.ecdh dt core) (fun _ => [A.pkeFeDenied, A.pkeCoreStatus core, A.pkeCoreTag core, A.pkeQueue, A.pkeStatus])) ∧
  (∀ dt core, WritesOnly (.rsaPrivate dt core) (fun _ => [A.pkeFeDenied, A.pkeCoreStatus core, A.pkeCoreTag core, A.pkeQueue, A.pkeStatus])) ∧
  (∀ dt core, WritesOnly (.rsaPublic dt core) (fun _ => [A.pkeFeDenied, A.pkeCoreStatus core, A.pkeCoreTag core, A.pkeQueue, A.pkeStatus])) ∧
  (∀ dt core, WritesOnly (.keygen dt core) (fun _ => [A.pkeFeDenied, A.pkeCoreStatus core, A.pkeCoreTag core, A.pkeQueue, A.pkeStatus])) ∧
  (∀ dt core, WritesOnly (.keyImport dt core) (fun _ => [A.pkeFeDenied, A.pkeCoreStatus core, A.pkeCoreTag core, A.pkeQueue, A.pkeStatus])) ∧
  (∀ dt, WritesOnly (.keyPublic dt) (fun k => [A.pkeJobsOk, A.pkeJobsOk + 4, A.pkeJobsFail, A.pkeAborted, A.pkeFencedJobs, A.pkeQueue] ++ ringWords k)) ∧
  (∀ dt, WritesOnly (.pkeJobAged dt) (fun _ => [])) ∧
  (∀ dt core phase tested, WritesOnly (.keygenProgress dt core phase tested) (fun _ => [A.pkeCoreStatus core, A.pkeCoreTag core, A.pkeQueue, A.pkeStatus])) ∧
  (∀ dt, WritesOnly (.drbgReseed dt) (fun _ => [A.pkeSeeds])) ∧
  (∀ dt source repetition, WritesOnly (.trngSourceFail dt source repetition) (fun k => [span 0x78000 0x80000 k] ++ journalWords k)) ∧
  (∀ dt source pass, WritesOnly (.trngSourceRetest dt source pass) (fun k => [span 0x78000 0x80000 k] ++ journalWords k))

/-- Frames of host queues, management sessions, supplies and lanes: the parts of the state that each command may change. -/
def Obligations.SystemFrames : Prop :=
  (∀ dt, ChangesAfter (fun s => (s.advance dt).dueFirst) (.kick dt) [.regs, .totals, .hif, .out]) ∧
  (∀ dt words, ChangesOnly (.doorbellReadDone dt words) [.regs, .totals, .journal, .celen, .hif, .pke, .out]) ∧
  (∀ dt ring data, ChangesOnly (.hostFrameTx dt ring data) [.regs, .totals, .hif, .ports, .out]) ∧
  (∀ dt, ChangesOnly (.hostFrameTimeout dt) [.regs, .hif, .ports, .out]) ∧
  (∀ dt ring, ChangesOnly (.recordFlush dt ring) [.regs, .hif, .out]) ∧
  (∀ dt ring data readOk checked, ChangesOnly (.xfer dt ring data readOk checked) [.regs, .totals, .journal, .celen, .hif, .gnss, .boot, .fw, .out]) ∧
  (∀ dt vector, ChangesOnly (.vectorTimer dt vector) [.hif, .out]) ∧
  (∀ dt, ChangesOnly (.blockEventCoalesce dt) [.regs, .totals, .celen, .hif, .out]) ∧
  (∀ dt ring, ChangesOnly (.ringQuiesced dt ring) [.regs, .totals, .celen, .hif, .out]) ∧
  (∀ dt speed width, ChangesOnly (.pcieLinkUp dt speed width) [.regs, .totals, .celen, .hif, .out]) ∧
  (∀ dt, ChangesOnly (.pcieRetrain dt) [.hif, .out]) ∧
  (∀ dt, ChangesOnly (.journalFlashWrite dt) [.regs, .totals, .journal, .celen, .hif, .out]) ∧
  (∀ dt fingerprint proof issuers notBefore notAfter, ChangesOnly (.sessionOpen dt fingerprint proof issuers notBefore notAfter) [.regs, .sources, .totals, .journal, .celen, .hif, .out, .fresh]) ∧
  (∀ dt session, ChangesOnly (.sessionIdle dt session) [.regs, .sources, .totals, .journal, .celen, .hif, .out]) ∧
  (∀ dt session alert, ChangesOnly (.sessionClosed dt session alert) [.regs, .sources, .totals, .journal, .celen, .hif, .out]) ∧
  (∀ dt session type msg, ChangesOnly (.celenHello dt session type msg) [.celen, .out]) ∧
  (∀ dt session msg, ChangesOnly (.celenRead dt session msg) [.regs, .sources, .faultRead, .totals, .journal, .celen, .hif, .ports, .pke, .out, .fresh]) ∧
  (∀ dt session msg, ChangesOnly (.celenRead64 dt session msg) [.regs, .sources, .faultRead, .totals, .journal, .celen, .hif, .ports, .pke, .out]) ∧
  (∀ dt session msg, ChangesOnly (.celenSubscribe dt session msg) [.celen, .out]) ∧
  (∀ dt session msg, ChangesOnly (.celenUnsubscribe dt session msg) [.celen, .hif, .out]) ∧
  (∀ dt session msg, ChangesOnly (.journalRead dt session msg) [.celen, .out]) ∧
  (∀ dt session msg checked, ChangesOnly (.celenStage dt session msg checked) [.regs, .totals, .journal, .celen, .hif, .gnss, .boot, .fw, .out]) ∧
  (∀ dt session msg, ChangesOnly (.celenNet dt session msg) [.celen, .out]) ∧
  (∀ dt session msg, ChangesOnly (.celenTrust dt session msg) [.regs, .totals, .journal, .celen, .hif, .out]) ∧
  (∀ dt session msg, ChangesOnly (.celenBye dt session msg) [.regs, .sources, .totals, .journal, .celen, .hif, .out]) ∧
  (∀ dt input sense, ChangesOnly (.inputQualified dt input sense) [.regs, .totals, .celen, .hif, .pwr, .out]) ∧
  (∀ dt input sense, ChangesOnly (.inputLost dt input sense) [.regs, .totals, .celen, .hif, .pwr, .out]) ∧
  (∀ dt, ChangesOnly (.kaLost dt) [.regs, .hol, .gnss, .pwr]) ∧
  (∀ dt, ChangesOnly (.stabilityReached dt) [.regs, .totals, .celen, .hif, .boot, .out]) ∧
  (∀ dt ends, ChangesOnly (.watchdog dt ends) [.regs, .sources, .totals, .journal, .celen, .hif, .boot, .out]) ∧
  (∀ dt sense, ChangesOnly (.thermWarn dt sense) [.regs, .totals, .celen, .hif, .pwr, .out]) ∧
  (∀ dt, ChangesOnly (.alarmConditionChange dt) [.regs, .pwr, .out]) ∧
  (∀ dt contact, ChangesOnly (.alarmCloseTimer dt contact) [.regs, .pwr, .out]) ∧
  (∀ dt, ChangesOnly (.noSelectionTimer dt) [.regs, .pwr, .out]) ∧
  (∀ dt, ChangesAfter (fun s => (s.advance dt).inOrder (fun e => decide (e.action = 0x17) && decide (e.arg % 256 = 0))) (.casLinkTick dt) [.regs, .totals, .journal, .celen, .hif, .refs, .cas, .out, .ts]) ∧
  (∀ dt lane frame ago fecUncorr, ChangesOnly (.linkFrameRx dt lane frame ago fecUncorr) [.regs, .totals, .journal, .celen, .hif, .refs, .cas, .out, .ts]) ∧
  (∀ dt lane frame, ChangesOnly (.opReqRx dt lane frame) [.regs, .totals, .journal, .celen, .hif, .refs, .cas, .out, .ts]) ∧
  (∀ dt lane frame, ChangesOnly (.opRx dt lane frame) [.regs, .totals, .journal, .celen, .hif, .refs, .cas, .out, .ts]) ∧
  (∀ dt, ChangesAfter (fun s => (s.advance dt).inOrder isCasOp) (.casBarrier dt) [.regs, .totals, .celen, .hif, .cas, .out, .ts]) ∧
  (∀ dt, ChangesAfter (fun s => (s.advance dt).inOrder isCasOp) (.casBroadcast dt) [.regs, .totals, .celen, .hif, .cas, .out, .ts]) ∧
  (∀ dt, ChangesAfter (fun s => (s.advance dt).inOrder isCasOp) (.casSnapshot dt) [.regs, .totals, .celen, .hif, .tal, .cas, .out, .ts]) ∧
  (∀ dt lane frame, ChangesOnly (.resultRx dt lane frame) [.regs, .totals, .journal, .celen, .hif, .refs, .cas, .out]) ∧
  (∀ dt, ChangesOnly (.resultDeadline dt) [.regs, .totals, .celen, .hif, .cas, .out]) ∧
  (∀ dt lane frame, ChangesOnly (.doneRx dt lane frame) [.regs, .totals, .journal, .celen, .hif, .refs, .cas, .out]) ∧
  (∀ dt, ChangesOnly (.requestTimeout dt) [.regs, .totals, .celen, .hif, .cas, .out, .fresh]) ∧
  (∀ dt src lane, ChangesOnly (.thetaLoLaneRead dt src lane) [.regs, .sources, .faultRead, .totals, .journal, .celen, .hif, .ports, .pke, .out]) ∧
  (∀ dt src, ChangesOnly (.opResult0Read dt src) [.regs, .sources, .faultRead, .totals, .journal, .celen, .hif, .ports, .pke, .out])

/-- Register frames of host queues, management sessions, supplies and lanes. -/
def Obligations.SystemRegisterFrames : Prop :=
  (∀ dt, WritesAfter (fun s => (s.advance dt).dueFirst) (.kick dt) (fun _ => [A.hifKicks, A.hifDbReads])) ∧
  (∀ dt ring data, WritesOnly (.hostFrameTx dt ring data) (fun k => [A.macLinkTooLong (k % 8)] ++ ringWords k)) ∧
  (∀ dt, WritesOnly (.hostFrameTimeout dt) (fun k => ringWords k)) ∧
  (∀ dt ring, WritesOnly (.recordFlush dt ring) (fun _ => [A.hifRingPosted ring, A.hifRingState ring])) ∧
  (∀ dt vector, WritesOnly (.vectorTimer dt vector) (fun _ => [])) ∧
  (∀ dt, WritesOnly (.blockEventCoalesce dt) (fun k => reportWords k)) ∧
  (∀ dt ring, WritesOnly (.ringQuiesced dt ring) (fun k => [A.hifRingState ring, A.hifStatus] ++ reportWords k)) ∧
  (∀ dt speed width, WritesOnly (.pcieLinkUp dt speed width) (fun k => [A.hifStatus] ++ reportWords k)) ∧
  (∀ dt, WritesOnly (.pcieRetrain dt) (fun _ => [])) ∧
  (∀ dt, WritesOnly (.journalFlashWrite dt) (fun k => [A.glbEvent, A.glbJournalLost] ++ reportWords k)) ∧
  (∀ dt fingerprint proof issuers notBefore notAfter, WritesOnly (.sessionOpen dt fingerprint proof issuers notBefore notAfter) (fun k => journalWords k)) ∧
  (∀ dt session, WritesOnly (.sessionIdle dt session) (fun k => journalWords k)) ∧
  (∀ dt session alert, WritesOnly (.sessionClosed dt session alert) (fun k => journalWords k)) ∧
  (∀ dt session type msg, WritesOnly (.celenHello dt session type msg) (fun _ => [])) ∧
  (∀ dt session msg, WritesOnly (.celenSubscribe dt session msg) (fun _ => [])) ∧
  (∀ dt session msg, WritesOnly (.celenUnsubscribe dt session msg) (fun _ => [])) ∧
  (∀ dt session msg, WritesOnly (.journalRead dt session msg) (fun _ => [])) ∧
  (∀ dt session msg checked, WritesOnly (.celenStage dt session msg checked) (fun k => [A.bootRecFlags, A.gnsSnapStatus] ++ journalWords k)) ∧
  (∀ dt session msg, WritesOnly (.celenNet dt session msg) (fun _ => [])) ∧
  (∀ dt session msg, WritesOnly (.celenTrust dt session msg) (fun k => journalWords k)) ∧
  (∀ dt session msg, WritesOnly (.celenBye dt session msg) (fun k => journalWords k)) ∧
  (∀ dt input sense, WritesOnly (.inputQualified dt input sense) (fun k => [A.pwrPIn, A.pwrVKa, A.pwrVDcb, A.pwrVDca, A.pwrVAc, A.pwrTBoard, A.pwrTInlet, A.pwrTZafel, A.pwrStatus, A.pwrEvent, A.pwrDomState] ++ reportWords k)) ∧
  (∀ dt input sense, WritesOnly (.inputLost dt input sense) (fun k => [A.pwrPIn, A.pwrVKa, A.pwrVDcb, A.pwrVDca, A.pwrVAc, A.pwrTBoard, A.pwrTInlet, A.pwrTZafel, A.pwrStatus, A.pwrEvent, A.pwrInputLoss] ++ reportWords k)) ∧
  (∀ dt, WritesOnly (.kaLost dt) (fun k => [A.pwrDomState, A.gnsStatus, A.gnsSideBias (k % 2), A.gnsSideChan (k % 2) (k / 2 % 640), A.holTempCart, A.holCartDiff])) ∧
  (∀ dt, WritesOnly (.stabilityReached dt) (fun k => [A.bootEvent, A.bootStatus, A.bootRecFlags] ++ reportWords k)) ∧
  (∀ dt ends, WritesOnly (.watchdog dt ends) (fun k => [span 0xA000 0xC000 k, span 0x8000 0xA000 k] ++ journalWords k)) ∧
  (∀ dt sense, WritesOnly (.thermWarn dt sense) (fun k => [A.pwrPIn, A.pwrVKa, A.pwrVDcb, A.pwrVDca, A.pwrVAc, A.pwrTBoard, A.pwrTInlet, A.pwrTZafel, A.pwrStatus, A.pwrEvent, A.pwrThermWarns] ++ reportWords k)) ∧
  (∀ dt, WritesOnly (.alarmConditionChange dt) (fun _ => [A.pwrIoStatus])) ∧
  (∀ dt contact, WritesOnly (.alarmCloseTimer dt contact) (fun _ => [A.pwrIoStatus])) ∧
  (∀ dt, WritesOnly (.noSelectionTimer dt) (fun _ => [A.pwrIoStatus])) ∧
  (∀ dt, WritesAfter (fun s => (s.advance dt).inOrder (fun e => decide (e.action = 0x17) && decide (e.arg % 256 = 0))) (.casLinkTick dt) (fun k => [span 0x80000 0x90000 k, span 0x48000 0x50000 k, span 0x14000 0x18000 k, span 0x10000 0x14000 k] ++ journalWords k)) ∧
  (∀ dt lane frame ago fecUncorr, WritesOnly (.linkFrameRx dt lane frame ago fecUncorr) (fun k => [span 0x80000 0x90000 k, span 0x48000 0x50000 k, span 0x14000 0x18000 k] ++ journalWords k)) ∧
  (∀ dt lane frame, WritesOnly (.opReqRx dt lane frame) (fun k => [span 0x80000 0x90000 k, span 0x48000 0x50000 k, span 0x14000 0x18000 k, span 0x10000 0x14000 k] ++ journalWords k)) ∧
  (∀ dt lane frame, WritesOnly (.opRx dt lane frame) (fun k => [span 0x80000 0x90000 k, span 0x48000 0x50000 k, span 0x14000 0x18000 k, span 0x10000 0x14000 k] ++ journalWords k)) ∧
  (∀ dt, WritesAfter (fun s => (s.advance dt).inOrder isCasOp) (.casBarrier dt) (fun k => [span 0x80000 0x90000 k, span 0x10000 0x14000 k] ++ reportWords k)) ∧
  (∀ dt, WritesAfter (fun s => (s.advance dt).inOrder isCasOp) (.casBroadcast dt) (fun k => [span 0x80000 0x90000 k, span 0x10000 0x14000 k] ++ reportWords k)) ∧
  (∀ dt, WritesAfter (fun s => (s.advance dt).inOrder isCasOp) (.casSnapshot dt) (fun k => [span 0x80000 0x90000 k, span 0x10000 0x14000 k, span 0xC000 0x10000 k] ++ reportWords k)) ∧
  (∀ dt lane frame, WritesOnly (.resultRx dt lane frame) (fun k => [span 0x80000 0x90000 k, span 0x48000 0x50000 k, span 0x14000 0x18000 k] ++ journalWords k)) ∧
  (∀ dt, WritesOnly (.resultDeadline dt) (fun k => [A.casStatus, A.casEvent, A.casOpResult 0] ++ reportWords k)) ∧
  (∀ dt lane frame, WritesOnly (.doneRx dt lane frame) (fun k => [span 0x80000 0x90000 k, span 0x48000 0x50000 k, span 0x14000 0x18000 k] ++ journalWords k)) ∧
  (∀ dt, WritesOnly (.requestTimeout dt) (fun k => [A.casEvent, A.casStatus, A.casOpResult 0] ++ reportWords k)) ∧
  (∀ dt src lane, WritesOnly (.thetaLoLaneRead dt src lane) (fun k => [span 0x48000 0x50000 k] ++ faultWords k)) ∧
  (∀ dt src, WritesOnly (.opResult0Read dt src) (fun k => [span 0x80000 0x90000 k] ++ faultWords k))

/-- R366: discarded pairs. -/
def Obligations.GuardedPairsRefused : Prop :=
  (∀ (s u : State) (dt src : Nat) (v : Word) (c : Word), s.canonical = true → u = (s.advance dt).dueFirst →
    u.clearSource src →
    u.domainOn (domainOf A.refForce) = true →
    c ≠ ~~~(v) →
    Completes (.refForce dt src v c) s (fun t => t.rd A.refForce = u.rd A.refForce ∧ t.f A.glbFaultSeq 0 32 = (u.f A.glbFaultSeq 0 32 + 1) % 2 ^ 32 ∧ (t.view (srcOf src)).pair = none ∧ t.refs = u.refs)) ∧
  (∀ (s u : State) (dt src : Nat) (v : Word) (c : Word), s.canonical = true → u = (s.advance dt).dueFirst →
    u.clearSource src →
    u.domainOn (domainOf A.refClearDistrust) = true →
    c ≠ ~~~(v) →
    Completes (.clearDistrust dt src v c) s (fun t => t.rd A.refClearDistrust = u.rd A.refClearDistrust ∧ t.f A.glbFaultSeq 0 32 = (u.f A.glbFaultSeq 0 32 + 1) % 2 ^ 32 ∧ (t.view (srcOf src)).pair = none ∧ t.refs = u.refs)) ∧
  (∀ (s u : State) (dt src seq : Nat) (c : Word), s.canonical = true → u = (s.advance dt).dueFirst →
    u.clearSource src →
    u.domainOn (domainOf A.tscStepApprove) = true →
    c ≠ ~~~(word (seq % 256 + 0x100)) →
    Completes (.stepApprove dt src seq c) s (fun t => t.rd A.tscStepApprove = u.rd A.tscStepApprove ∧ t.f A.glbFaultSeq 0 32 = (u.f A.glbFaultSeq 0 32 + 1) % 2 ^ 32 ∧ (t.view (srcOf src)).pair = none ∧ t.ts.step = u.ts.step)) ∧
  (∀ (s u : State) (dt src seq : Nat) (c : Word), s.canonical = true → u = (s.advance dt).dueFirst →
    u.clearSource src →
    u.domainOn (domainOf A.tscStepApprove) = true →
    c ≠ ~~~(word (seq % 256 + 0x200)) →
    Completes (.stepApproveSlew dt src seq c) s (fun t => t.rd A.tscStepApprove = u.rd A.tscStepApprove ∧ t.f A.glbFaultSeq 0 32 = (u.f A.glbFaultSeq 0 32 + 1) % 2 ^ 32 ∧ (t.view (srcOf src)).pair = none ∧ t.ts.step = u.ts.step ∧ t.ts.slewRem = u.ts.slewRem)) ∧
  (∀ (s u : State) (dt src : Nat) (c : Word), s.canonical = true → u = (s.advance dt).dueFirst →
    u.clearSource src →
    u.domainOn (domainOf A.holCartCmd) = true →
    c ≠ ~~~(1 : Word) →
    Completes (.cartRelease dt src c) s (fun t => t.rd A.holCartCmd = u.rd A.holCartCmd ∧ t.f A.glbFaultSeq 0 32 = (u.f A.glbFaultSeq 0 32 + 1) % 2 ^ 32 ∧ (t.view (srcOf src)).pair = none ∧ t.hol = u.hol)) ∧
  (∀ (s u : State) (dt src : Nat) (c : Word), s.canonical = true → u = (s.advance dt).dueFirst →
    u.clearSource src →
    u.domainOn (domainOf A.holCartCmd) = true →
    c ≠ ~~~(2 : Word) →
    Completes (.cartResume dt src c) s (fun t => t.rd A.holCartCmd = u.rd A.holCartCmd ∧ t.f A.glbFaultSeq 0 32 = (u.f A.glbFaultSeq 0 32 + 1) % 2 ^ 32 ∧ (t.view (srcOf src)).pair = none ∧ t.hol = u.hol)) ∧
  (∀ (s u : State) (dt src : Nat) (c : Word), s.canonical = true → u = (s.advance dt).dueFirst →
    u.clearSource src →
    u.domainOn (domainOf A.holCartCmd) = true →
    c ≠ ~~~(3 : Word) →
    Completes (.cartForget dt src c) s (fun t => t.rd A.holCartCmd = u.rd A.holCartCmd ∧ t.f A.glbFaultSeq 0 32 = (u.f A.glbFaultSeq 0 32 + 1) % 2 ^ 32 ∧ (t.view (srcOf src)).pair = none ∧ t.hol = u.hol)) ∧
  (∀ (s u : State) (dt src : Nat) (c : Word), s.canonical = true → u = (s.advance dt).dueFirst →
    u.clearSource src →
    u.domainOn (domainOf A.ntsCmd) = true →
    c ≠ ~~~(1 : Word) →
    Completes (.ntsRotateNow dt src c) s (fun t => t.rd A.ntsCmd = u.rd A.ntsCmd ∧ t.f A.glbFaultSeq 0 32 = (u.f A.glbFaultSeq 0 32 + 1) % 2 ^ 32 ∧ (t.view (srcOf src)).pair = none ∧ t.nts = u.nts)) ∧
  (∀ (s u : State) (dt src : Nat) (c : Word), s.canonical = true → u = (s.advance dt).dueFirst →
    u.clearSource src →
    u.domainOn (domainOf A.ntsCmd) = true →
    c ≠ ~~~(2 : Word) →
    Completes (.ntsPurge dt src c) s (fun t => t.rd A.ntsCmd = u.rd A.ntsCmd ∧ t.f A.glbFaultSeq 0 32 = (u.f A.glbFaultSeq 0 32 + 1) % 2 ^ 32 ∧ (t.view (srcOf src)).pair = none ∧ t.nts = u.nts)) ∧
  (∀ (s u : State) (dt src : Nat) (c : Word), s.canonical = true → u = (s.advance dt).dueFirst →
    u.clearSource src →
    u.domainOn (domainOf A.rcpCmd) = true →
    c ≠ ~~~(1 : Word) →
    Completes (.rcpRotateNow dt src c) s (fun t => t.rd A.rcpCmd = u.rd A.rcpCmd ∧ t.f A.glbFaultSeq 0 32 = (u.f A.glbFaultSeq 0 32 + 1) % 2 ^ 32 ∧ (t.view (srcOf src)).pair = none ∧ t.rcp = u.rcp)) ∧
  (∀ (s u : State) (dt src : Nat) (v : Word) (c : Word), s.canonical = true → u = (s.advance dt).dueFirst →
    u.clearSource src →
    u.domainOn (domainOf A.pkeAbort) = true →
    c ≠ ~~~(v) →
    Completes (.pkeAbort dt src v c) s (fun t => t.rd A.pkeAbort = u.rd A.pkeAbort ∧ t.f A.glbFaultSeq 0 32 = (u.f A.glbFaultSeq 0 32 + 1) % 2 ^ 32 ∧ (t.view (srcOf src)).pair = none ∧ t.pke = u.pke)) ∧
  (∀ (s u : State) (dt src : Nat) (c : Word), s.canonical = true → u = (s.advance dt).dueFirst →
    u.clearSource src →
    u.domainOn (domainOf A.pwrResetCmd) = true →
    c ≠ ~~~(1 : Word) →
    Completes (.resetFull dt src c none) s (fun t => t.rd A.pwrResetCmd = u.rd A.pwrResetCmd ∧ t.f A.glbFaultSeq 0 32 = (u.f A.glbFaultSeq 0 32 + 1) % 2 ^ 32 ∧ (t.view (srcOf src)).pair = none ∧ t.pwr = u.pwr)) ∧
  (∀ (s u : State) (dt src : Nat) (c : Word), s.canonical = true → u = (s.advance dt).dueFirst →
    u.clearSource src →
    u.domainOn (domainOf A.pwrResetCmd) = true →
    c ≠ ~~~(2 : Word) →
    Completes (.resetMgmt dt src c none) s (fun t => t.rd A.pwrResetCmd = u.rd A.pwrResetCmd ∧ t.f A.glbFaultSeq 0 32 = (u.f A.glbFaultSeq 0 32 + 1) % 2 ^ 32 ∧ (t.view (srcOf src)).pair = none ∧ t.boot.mgmt = u.boot.mgmt)) ∧
  (∀ (s u : State) (dt src : Nat) (c : Word), s.canonical = true → u = (s.advance dt).dueFirst →
    u.clearSource src →
    u.domainOn (domainOf A.bootCmd) = true →
    c ≠ ~~~(1 : Word) →
    Completes (.bootStore dt src c none) s (fun t => t.rd A.bootCmd = u.rd A.bootCmd ∧ t.f A.glbFaultSeq 0 32 = (u.f A.glbFaultSeq 0 32 + 1) % 2 ^ 32 ∧ (t.view (srcOf src)).pair = none ∧ t.boot.storing = u.boot.storing)) ∧
  (∀ (s u : State) (dt src : Nat) (c : Word), s.canonical = true → u = (s.advance dt).dueFirst →
    u.clearSource src →
    u.domainOn (domainOf A.bootCmd) = true →
    c ≠ ~~~(2 : Word) →
    Completes (.bootClear dt src c) s (fun t => t.rd A.bootCmd = u.rd A.bootCmd ∧ t.f A.glbFaultSeq 0 32 = (u.f A.glbFaultSeq 0 32 + 1) % 2 ^ 32 ∧ (t.view (srcOf src)).pair = none ∧ t.rd A.bootRecFlags = u.rd A.bootRecFlags)) ∧
  (∀ (s u : State) (dt src : Nat) (c : Word), s.canonical = true → u = (s.advance dt).dueFirst →
    u.clearSource src →
    u.domainOn (domainOf A.bootCmd) = true →
    c ≠ ~~~(3 : Word) →
    Completes (.bootRetrain dt src c) s (fun t => t.rd A.bootCmd = u.rd A.bootCmd ∧ t.f A.glbFaultSeq 0 32 = (u.f A.glbFaultSeq 0 32 + 1) % 2 ^ 32 ∧ (t.view (srcOf src)).pair = none ∧ t.rd A.bootRecFlags = u.rd A.bootRecFlags))

/-- R353, R357, R359, R366, R367, R372. -/
def Obligations.RefusedAccesses : Prop :=
  (∀ (s u : State) (dt src g r : Nat) (v : Word), s.canonical = true → u = (s.advance dt).dueFirst →
    u.clearSource src →
    g < 35 →
    u.domainOn 15 = true →
    u.commitRefusal g (putFld v 0 2 1) = some r →
    Completes (.sluCommit dt src g v) s (fun t => t.f (A.sluGroupStatus g) 0 3 = 3 ∧ t.f (A.sluGroupStatus g) 8 8 = r % 256 ∧ (t.group g).pend = (u.group g).pend ∧ ∀ a ∈ groupWords g, t.rd a = u.rd a ∧ t.pendRegs = u.pendRegs)) ∧
  (∀ (s u : State) (dt src addr : Nat) (r : RegRow) (v : Word), s.canonical = true → u = (s.advance dt).dueFirst →
    u.clearSource src →
    rowOf addr = some r →
    r.kind = .lk →
    u.latched.contains addr = true →
    u.domainOn (domainOf addr) = true →
    Completes (.lkWrite dt src addr v) s (fun t => t.rd addr = u.rd addr ∧ t.latched = u.latched ∧ t.f A.glbFaultSeq 0 32 = (u.f A.glbFaultSeq 0 32 + 1) % 2 ^ 32)) ∧
  (∀ (s u : State) (dt src : Nat) (v c : Word), s.canonical = true → u = (s.advance dt).dueFirst →
    u.clearSource src →
    u.domainOn (domainOf A.refForce) = true →
    c = ~~~v →
    12 < v.toNat →
    v ≠ 0xFF →
    Completes (.refForce dt src v c) s (fun t => t.rd A.refForce = u.rd A.refForce ∧ t.refs = u.refs ∧ t.f A.glbFaultSeq 0 32 = (u.f A.glbFaultSeq 0 32 + 1) % 2 ^ 32)) ∧
  (∀ (s u : State) (dt src addr : Nat) (v : Word), s.canonical = true → u = (s.advance dt).dueFirst →
    u.clearSource src →
    rowOf addr = none →
    (guardedRegs.any (fun x => decide (x + 4 = addr))) = false →
    ¬ (0x7800 ≤ addr ∧ addr < 0x7C00) →
    Completes (.registerWrite dt src addr [(15, v)]) s (fun t => t = u)) ∧
  (∀ (s u : State) (dt src addr : Nat) (r : RegRow) (v : Word), s.canonical = true → u = (s.advance dt).dueFirst →
    u.clearSource src →
    rowOf addr = some r →
    (r.kind = .ro ∨ r.kind = .cr) →
    u.domainOn (domainOf addr) = true →
    Completes (.registerWrite dt src addr [(15, v)]) s (fun t => t = u)) ∧
  (∀ (s u : State) (dt src addr : Nat) (r : RegRow) (v : Word), s.canonical = true → u = (s.advance dt).dueFirst →
    u.clearSource src →
    rowOf addr = some r →
    r.kind ≠ .st →
    r.kind ≠ .cr →
    r.kind ≠ .ro →
    r.kind ≠ .sq →
    u.domainOn (domainOf addr) = false →
    Completes (.registerWrite dt src addr [(15, v)]) s (fun t => t.rd addr = u.rd addr ∧ t.f A.glbFaultSeq 0 32 = (u.f A.glbFaultSeq 0 32 + 1) % 2 ^ 32)) ∧
  (∀ (s u : State) (dt src addr be : Nat) (r : RegRow) (v : Word), s.canonical = true → u = (s.advance dt).dueFirst →
    src < 5 →
    rowOf addr = some r →
    r.kind ≠ .cr →
    r.kind ≠ .ro →
    r.kind ≠ .sq →
    0 < be →
    be < 15 →
    Completes (.registerWrite dt src addr [(be, v)]) s (fun t => t.rd addr = u.rd addr ∧ t.rdStage addr = u.rdStage addr ∧ t.f A.glbFaultSeq 0 32 = (u.f A.glbFaultSeq 0 32 + 1) % 2 ^ 32))

/-- R363, whole. -/
def Obligations.EventRegisters : Prop :=
  (∀ (s : State) (reg b : Nat) (r : RegRow), s.canonical = true → rowOf reg = some r → r.kind = .sq → b < 16 →
      (s.raiseBit reg b).bit reg b = true ∧ (s.raiseBit reg b).f reg 24 8 = (s.f reg 24 8 + 1) % 256 ∧
      (∀ i, i < 24 → i ≠ b → (s.raiseBit reg b).bit reg i = s.bit reg i)) ∧
  (∀ (s : State) (reg b : Nat) (r : RegRow), s.canonical = true → rowOf reg = some r → r.kind = .sq → b < 16 →
      reg ≠ A.hifEvent →
      (s.raise reg b).bit reg b = true ∧ (s.raise reg b).f reg 24 8 = (s.f reg 24 8 + 1) % 256) ∧
  (∀ (s u : State) (dt src addr : Nat) (r : RegRow) (v : Word), s.canonical = true → u = (s.advance dt).dueFirst → u.clearSource src →
      rowOf addr = some r → r.kind = .sq → u.domainOn (domainOf addr) = true →
      (v ^^^ u.rd addr) &&& BitVec.ofNat 32 (r.rv / 2 ^ 16 * 2 ^ 16) = 0 → (∀ i, i < 16 → r.rv.testBit i = true → bitOf v i = u.bit addr i) →
      fld v 24 8 = u.f addr 24 8 →
      Completes (.sqAcknowledge dt src addr v) s (fun t =>
        (∀ i, i < 16 → r.rv.testBit i = false → t.bit addr i = (u.bit addr i && !(bitOf v i))) ∧ t.f addr 24 8 = u.f addr 24 8)) ∧
  (∀ (s u : State) (dt src addr : Nat) (r : RegRow) (v : Word), s.canonical = true → u = (s.advance dt).dueFirst → u.clearSource src →
      rowOf addr = some r → r.kind = .sq → u.domainOn (domainOf addr) = true →
      (v ^^^ u.rd addr) &&& BitVec.ofNat 32 r.rv = 0 → fld v 24 8 ≠ u.f addr 24 8 → v &&& ~~~(BitVec.ofNat 32 r.rv) &&& 0xFFFF ≠ 0 →
      Completes (.sqAcknowledge dt src addr v) s (fun t => t.rd addr = u.rd addr ∧
        (t.rd (staleAckOf addr)).toNat = min ((u.rd (staleAckOf addr)).toNat + 1) 0xFFFFFFFF)) ∧
  (∀ (s u : State) (dt src addr : Nat) (r : RegRow) (v : Word), s.canonical = true → u = (s.advance dt).dueFirst → u.clearSource src →
      rowOf addr = some r → r.kind = .sq → u.domainOn (domainOf addr) = true →
      (v ^^^ u.rd addr) &&& BitVec.ofNat 32 r.rv = 0 → v &&& ~~~(BitVec.ofNat 32 r.rv) &&& 0xFFFF = 0 →
      Completes (.sqAcknowledge dt src addr v) s (fun t => t.regs = u.regs))

/-- R354, whole. -/
def Obligations.ClearingReads : Prop :=
  (∀ (s u : State) (dt src addr : Nat) (r : RegRow), s.canonical = true → u = s.advance dt → src < 5 → rowOf addr = some r →
      r.kind = .cr → u.domainOn (domainOf addr) = true → r.pair = false →
      Completes (.crClearingRead dt src addr false) s (fun t => t.rd addr = 0 ∧ ((t.inc addr).rd addr).toNat = 1)) ∧
  (∀ (s u : State) (dt src addr : Nat) (r : RegRow), s.canonical = true → u = s.advance dt → src < 5 → rowOf addr = some r →
      r.kind = .cr → u.domainOn (domainOf addr) = true → r.pair = true →
      Completes (.crClearingRead dt src addr true) s (fun t => t.rd64 addr = 0 ∧ (t.inc addr).rd64 addr = 1)) ∧
  (∀ (s u : State) (dt src addr : Nat) (r : RegRow), s.canonical = true → u = s.advance dt → src < 5 → rowOf addr = some r →
      r.kind = .cr → u.domainOn (domainOf addr) = true → r.pair = true →
      Completes (.crClearingRead dt src addr false) s (fun t => t.regs = (u.refreshRead addr).regs ∧ u.rd64 addr ≤ t.rd64 addr) ∧
      Completes (.crClearingRead dt src (addr + 4) false) s (fun t => t.regs = (u.refreshRead (addr + 4)).regs ∧ u.rd64 addr ≤ t.rd64 addr)) ∧
  (∀ (s u : State) (dt src addr be : Nat) (r : RegRow), s.canonical = true → u = s.advance dt → src < 5 → rowOf addr = some r →
      r.kind = .cr → u.domainOn (domainOf addr) = true → contiguous be = true →
      be % 16 ≠ 15 → (u.busRead (srcOf src) addr [be]).regs = u.regs)

/-- R20. The accumulator counts in units of 2^-48 ns. -/
def Obligations.AccumulatorAdvances : Prop :=
  (∀ (s : State), 0 ≤ (2 : Int) ^ 48 + s.sf A.tscFreqCorr 0 32 + s.ts.ySlew →
      ((s.advance 1).ts.acc : Int) = s.ts.acc + ((2 : Int) ^ 48 + (s.sf A.tscFreqCorr 0 32 + s.ts.ySlew))) ∧
  (∀ (s : State) (m n : Nat), (s.advance m).advance n = s.advance (m + n)) ∧
  (∀ (s : State) (m : Nat), (s.advance m).rd A.tscFreqCorr = s.rd A.tscFreqCorr ∧ (s.advance m).ts.ySlew = s.ts.ySlew)

/-- R493, whole. -/
def Obligations.TallyIndices : Prop :=
  (tallySet.Pairwise (· < ·) ∧ tallySet.length ≤ 1024 ∧ (∀ a, a ∈ tallySet ↔ inTallySet a = true) ∧
      (∀ a, a ∈ tallySet → (pairRowOf a).isSome = true → a + 4 ∉ tallySet) ∧
      (State.reset.rd A.talTallyCount).toNat = tallySet.length) ∧
  (∀ (s u : State) (dt src i a : Nat) (v : Word), s.canonical = true → u = (s.advance dt).dueFirst → u.clearSource src →
      u.domainOn 15 = true → i = fld (cmValue (u.rd A.talTallySel) v) 1 10 → tallySet[i]? = some a →
      Completes (.tallySel dt src v) s (fun t => t.f A.talTallyAddr 0 20 = a))

/-- R361 and R492. -/
def Obligations.CounterSaturates : Prop :=
  (∀ (s : State) (a n : Nat), s.canonical = true → pairRowOf a = none →
      ((s.count a n).rd a).toNat = min ((s.rd a).toNat + n) (2 ^ 32 - 1) ∧ (∀ b, b ≠ a → (s.count a n).rd b = s.rd b)) ∧
  (∀ (s : State) (a n : Nat), s.canonical = true → (pairRowOf a).isSome = true →
      (s.count a n).rd64 a = min (s.rd64 a + n) (2 ^ 64 - 1) ∧ (∀ b, b ≠ a → b ≠ a + 4 → (s.count a n).rd b = s.rd b)) ∧
  (∀ (s : State) (a n : Nat), s.canonical = true → inTallySet a = true →
      CellList.get (fun _ => 0) (s.count a n).totals a = (CellList.get (fun _ => 0) s.totals a + n) % 2 ^ 64)

/-- R28, with R43 for SKIPPED firings. -/
def Obligations.FiringRearms : Prop :=
  (∀ (s : State) (i : Nat) (e : CalEntry), s.canonical = true → (i, e) ∈ s.ts.calendar → (e.count = 1 ∨ e.period = 0) →
      ∀ x ∈ (s.fireEntry i e).ts.calendar, x.1 ≠ i) ∧
  (∀ (s : State) (i : Nat) (e : CalEntry), s.canonical = true → (i, e) ∈ s.ts.calendar → e.count ≠ 1 → e.period ≠ 0 →
      ∃ x n, (i, x) ∈ (s.fireEntry i e).ts.calendar ∧ x.count = e.count - 1 ∧ x.atNs = e.atNs + e.period * n ∧ 0 < n ∧
        (e.skipAt = none → n = 1) ∧ (∀ t, e.skipAt = some t → t < x.atNs ∧ (n = 1 ∨ x.atNs ≤ t + e.period))) ∧
  (∀ (s : State) (i : Nat) (e : CalEntry) (y : Nat × CalEntry), s.canonical = true → (i, e) ∈ s.ts.calendar → y.1 ≠ i →
      (y ∈ (s.fireEntry i e).ts.calendar ↔ y ∈ s.ts.calendar))

/-- R27, within one class. -/
def Obligations.LeastEntryFires : Prop :=
  (∀ (l : Cells CalEntry) (now : Nat) (p : CalEntry → Bool) (i : Nat) (e : CalEntry), CellList.rising l = true →
      dueEntry l now p = some (i, e) → (i, e) ∈ l ∧ p e = true ∧ e.due now = true ∧
      ∀ j x, (j, x) ∈ l → p x = true → x.due now = true → e.atNs < x.atNs ∨ (e.atNs = x.atNs ∧ i ≤ j)) ∧
  (∀ (l : Cells CalEntry) (now : Nat) (p : CalEntry → Bool), dueEntry l now p = none → ∀ x ∈ l, p x.2 = true → x.2.due now = false)

/-- R231. -/
def Obligations.AnswerHeaders : Prop :=
  ∀ (s : State) (r : Request) (tTx : Nat), 3 ≤ (packetOf r.frame.data).udp.length →
    (s.unserved = true → beAt (s.ntpHeader r tTx) 0 1 / 64 = 3 ∧ beAt (s.ntpHeader r tTx) 1 1 = 16) ∧
    (s.tscMode = 0 → beAt (s.ntpHeader r tTx) 12 4 = 0x494E4954 ∧ beAt (s.ntpHeader r tTx) 8 4 = 0xFFFFFFFF) ∧
    (s.tscMode = 4 → beAt (s.ntpHeader r tTx) 12 4 = 0x4C4F5354) ∧
    (s.unserved = false → beAt (s.ntpHeader r tTx) 0 1 / 64 = s.leapIndicator (bitOf r.policy 1) ∧
      s.leapIndicator (bitOf r.policy 1) ≤ 2 ∧ beAt (s.ntpHeader r tTx) 1 1 = fld r.policy 2 4) ∧
    beAt (s.ntpHeader r tTx) 0 1 % 8 = 4

/-- Every command completes; a command that names no unit of the module stops by name (notes/assumptions/5). -/
def Obligations.UnitsThatExist : Prop :=
  ∀ (c : Instr) (s : State), ((∃ t, exec c s = .next t) ↔ c.wf = true) ∧ (c.wf = false → exec c s = .fault .noSuchUnit)

/-- The step of the block. That an empty queue idles is the model's choice (notes/assumptions/2). -/
def Obligations.StepRunsTheFront : Prop :=
  (∀ (s : State) (c : Instr) (rest : List Instr), s.pending = c :: rest → step s = exec c { s with pending := rest }) ∧
  (∀ (s : State), s.pending = [] → step s = .next s)

/-- The invariant of the storage. -/
def Obligations.EveryStepKeepsStorageCanonical : Prop :=
  ∀ (s t : State), s.canonical = true → step s = .next t → t.canonical = true

/-- The machine right after reset (notes/assumptions/12 for values the manual does not give). -/
def Obligations.ResetIsCanonical : Prop :=
  State.reset.canonical = true ∧ State.reset.pending = [] ∧ State.reset.out = [] ∧
  (∀ a, State.reset.rd a = resetOf a ∧ State.reset.rdStage a = resetOf a ∧ State.reset.rdPend a = resetOf a) ∧
  (∀ a, rowOf a = none → State.reset.rd a = 0)

/-- What a refused write leaves alone, under the hypotheses of `Obligations.GuardedPairsRefused` and `Obligations.RefusedAccesses`. -/
def Obligations.RefusedAccessFrames : Prop :=
  (∀ (s u : State) (dt src : Nat) (v : Word) (c : Word), s.canonical = true → u = (s.advance dt).dueFirst →
    u.clearSource src →
    u.domainOn (domainOf A.refForce) = true →
    c ≠ ~~~(v) →
    Completes (.refForce dt src v c) s (fun t => u.keeps t [.regs, .journal, .celen, .hif, .out] (fun k => faultWords k))) ∧
  (∀ (s u : State) (dt src : Nat) (v : Word) (c : Word), s.canonical = true → u = (s.advance dt).dueFirst →
    u.clearSource src →
    u.domainOn (domainOf A.refClearDistrust) = true →
    c ≠ ~~~(v) →
    Completes (.clearDistrust dt src v c) s (fun t => u.keeps t [.regs, .journal, .celen, .hif, .out] (fun k => faultWords k))) ∧
  (∀ (s u : State) (dt src seq : Nat) (c : Word), s.canonical = true → u = (s.advance dt).dueFirst →
    u.clearSource src →
    u.domainOn (domainOf A.tscStepApprove) = true →
    c ≠ ~~~(word (seq % 256 + 0x100)) →
    Completes (.stepApprove dt src seq c) s (fun t => u.keeps t [.regs, .journal, .celen, .hif, .out] (fun k => faultWords k))) ∧
  (∀ (s u : State) (dt src seq : Nat) (c : Word), s.canonical = true → u = (s.advance dt).dueFirst →
    u.clearSource src →
    u.domainOn (domainOf A.tscStepApprove) = true →
    c ≠ ~~~(word (seq % 256 + 0x200)) →
    Completes (.stepApproveSlew dt src seq c) s (fun t => u.keeps t [.regs, .journal, .celen, .hif, .out] (fun k => faultWords k))) ∧
  (∀ (s u : State) (dt src : Nat) (c : Word), s.canonical = true → u = (s.advance dt).dueFirst →
    u.clearSource src →
    u.domainOn (domainOf A.holCartCmd) = true →
    c ≠ ~~~(1 : Word) →
    Completes (.cartRelease dt src c) s (fun t => u.keeps t [.regs, .journal, .celen, .hif, .out] (fun k => faultWords k))) ∧
  (∀ (s u : State) (dt src : Nat) (c : Word), s.canonical = true → u = (s.advance dt).dueFirst →
    u.clearSource src →
    u.domainOn (domainOf A.holCartCmd) = true →
    c ≠ ~~~(2 : Word) →
    Completes (.cartResume dt src c) s (fun t => u.keeps t [.regs, .journal, .celen, .hif, .out] (fun k => faultWords k))) ∧
  (∀ (s u : State) (dt src : Nat) (c : Word), s.canonical = true → u = (s.advance dt).dueFirst →
    u.clearSource src →
    u.domainOn (domainOf A.holCartCmd) = true →
    c ≠ ~~~(3 : Word) →
    Completes (.cartForget dt src c) s (fun t => u.keeps t [.regs, .journal, .celen, .hif, .out] (fun k => faultWords k))) ∧
  (∀ (s u : State) (dt src : Nat) (c : Word), s.canonical = true → u = (s.advance dt).dueFirst →
    u.clearSource src →
    u.domainOn (domainOf A.ntsCmd) = true →
    c ≠ ~~~(1 : Word) →
    Completes (.ntsRotateNow dt src c) s (fun t => u.keeps t [.regs, .journal, .celen, .hif, .out] (fun k => faultWords k))) ∧
  (∀ (s u : State) (dt src : Nat) (c : Word), s.canonical = true → u = (s.advance dt).dueFirst →
    u.clearSource src →
    u.domainOn (domainOf A.ntsCmd) = true →
    c ≠ ~~~(2 : Word) →
    Completes (.ntsPurge dt src c) s (fun t => u.keeps t [.regs, .journal, .celen, .hif, .out] (fun k => faultWords k))) ∧
  (∀ (s u : State) (dt src : Nat) (c : Word), s.canonical = true → u = (s.advance dt).dueFirst →
    u.clearSource src →
    u.domainOn (domainOf A.rcpCmd) = true →
    c ≠ ~~~(1 : Word) →
    Completes (.rcpRotateNow dt src c) s (fun t => u.keeps t [.regs, .journal, .celen, .hif, .out] (fun k => faultWords k))) ∧
  (∀ (s u : State) (dt src : Nat) (v : Word) (c : Word), s.canonical = true → u = (s.advance dt).dueFirst →
    u.clearSource src →
    u.domainOn (domainOf A.pkeAbort) = true →
    c ≠ ~~~(v) →
    Completes (.pkeAbort dt src v c) s (fun t => u.keeps t [.regs, .journal, .celen, .hif, .out] (fun k => faultWords k))) ∧
  (∀ (s u : State) (dt src : Nat) (c : Word), s.canonical = true → u = (s.advance dt).dueFirst →
    u.clearSource src →
    u.domainOn (domainOf A.pwrResetCmd) = true →
    c ≠ ~~~(1 : Word) →
    Completes (.resetFull dt src c none) s (fun t => u.keeps t [.regs, .journal, .celen, .hif, .out] (fun k => faultWords k))) ∧
  (∀ (s u : State) (dt src : Nat) (c : Word), s.canonical = true → u = (s.advance dt).dueFirst →
    u.clearSource src →
    u.domainOn (domainOf A.pwrResetCmd) = true →
    c ≠ ~~~(2 : Word) →
    Completes (.resetMgmt dt src c none) s (fun t => u.keeps t [.regs, .journal, .celen, .hif, .out] (fun k => faultWords k))) ∧
  (∀ (s u : State) (dt src : Nat) (c : Word), s.canonical = true → u = (s.advance dt).dueFirst →
    u.clearSource src →
    u.domainOn (domainOf A.bootCmd) = true →
    c ≠ ~~~(1 : Word) →
    Completes (.bootStore dt src c none) s (fun t => u.keeps t [.regs, .journal, .celen, .hif, .out] (fun k => faultWords k))) ∧
  (∀ (s u : State) (dt src : Nat) (c : Word), s.canonical = true → u = (s.advance dt).dueFirst →
    u.clearSource src →
    u.domainOn (domainOf A.bootCmd) = true →
    c ≠ ~~~(2 : Word) →
    Completes (.bootClear dt src c) s (fun t => u.keeps t [.regs, .journal, .celen, .hif, .out] (fun k => faultWords k))) ∧
  (∀ (s u : State) (dt src : Nat) (c : Word), s.canonical = true → u = (s.advance dt).dueFirst →
    u.clearSource src →
    u.domainOn (domainOf A.bootCmd) = true →
    c ≠ ~~~(3 : Word) →
    Completes (.bootRetrain dt src c) s (fun t => u.keeps t [.regs, .journal, .celen, .hif, .out] (fun k => faultWords k))) ∧
  (∀ (s u : State) (dt src g r : Nat) (v : Word), s.canonical = true → u = (s.advance dt).dueFirst →
    u.clearSource src →
    g < 35 →
    u.domainOn 15 = true →
    u.commitRefusal g (putFld v 0 2 1) = some r →
    Completes (.sluCommit dt src g v) s (fun t => u.keeps t [.regs, .groups, .journal, .celen, .hif, .out] (fun k => [A.sluGroupStatus g, A.sluStatus, A.sluEvent, A.sluRejects] ++ faultWords k))) ∧
  (∀ (s u : State) (dt src addr : Nat) (r : RegRow) (v : Word), s.canonical = true → u = (s.advance dt).dueFirst →
    u.clearSource src →
    rowOf addr = some r →
    r.kind = .lk →
    u.latched.contains addr = true →
    u.domainOn (domainOf addr) = true →
    Completes (.lkWrite dt src addr v) s (fun t => u.keeps t [.regs, .journal, .celen, .hif, .out] (fun k => faultWords k))) ∧
  (∀ (s u : State) (dt src : Nat) (v c : Word), s.canonical = true → u = (s.advance dt).dueFirst →
    u.clearSource src →
    u.domainOn (domainOf A.refForce) = true →
    c = ~~~v →
    12 < v.toNat →
    v ≠ 0xFF →
    Completes (.refForce dt src v c) s (fun t => u.keeps t [.regs, .journal, .celen, .hif, .out] (fun k => faultWords k))) ∧
  (∀ (s u : State) (dt src addr : Nat) (r : RegRow) (v : Word), s.canonical = true → u = (s.advance dt).dueFirst →
    u.clearSource src →
    rowOf addr = some r →
    r.kind ≠ .st →
    r.kind ≠ .cr →
    r.kind ≠ .ro →
    r.kind ≠ .sq →
    u.domainOn (domainOf addr) = false →
    Completes (.registerWrite dt src addr [(15, v)]) s (fun t => u.keeps t [.regs, .journal, .celen, .hif, .out] (fun k => faultWords k))) ∧
  (∀ (s u : State) (dt src addr be : Nat) (r : RegRow) (v : Word), s.canonical = true → u = (s.advance dt).dueFirst →
    src < 5 →
    rowOf addr = some r →
    r.kind ≠ .cr →
    r.kind ≠ .ro →
    r.kind ≠ .sq →
    0 < be →
    be < 15 →
    Completes (.registerWrite dt src addr [(be, v)]) s (fun t => u.keeps t [.regs, .journal, .celen, .hif, .out] (fun k => faultWords k)))

/-- What register writes leave alone, under the hypotheses of `Obligations.RegisterAccessesComplete`, `Obligations.SluiceCommandsComplete` and `Obligations.LaneEventsComplete`. -/
def Obligations.RegisterCommandFrames : Prop :=
  (∀ (s u : State) (dt src addr g : Nat) (v : Word), s.canonical = true → u = (s.advance dt).dueFirst →
    src < 5 →
    groupOf addr = some g →
    Completes (.registerWrite dt src addr [(15, v)]) s (fun t => u.keeps t [.regs, .journal, .celen, .hif, .out, .stage, .groups, .sources] (fun k => [A.sluGroupStatus g] ++ faultWords k))) ∧
  (∀ (s u : State) (dt src addr g : Nat) (v : Word), s.canonical = true → u = (s.advance dt).dueFirst →
    src < 5 →
    groupOf addr = some g →
    Completes (.stageWrite dt src addr v) s (fun t => u.keeps t [.regs, .journal, .celen, .hif, .out, .stage, .groups, .sources] (fun k => [A.sluGroupStatus g] ++ faultWords k))) ∧
  (∀ (s u : State) (dt src addr : Nat) (r : RegRow) (v : Word), s.canonical = true → u = (s.advance dt).dueFirst →
    u.clearSource src →
    rowOf addr = some r →
    r.kind = .sq →
    u.domainOn (domainOf addr) = true →
    fld v 24 8 = u.f addr 24 8 →
    (v ^^^ u.rd addr) &&& BitVec.ofNat 32 r.rv = 0 →
    Completes (.sqAcknowledge dt src addr v) s (fun t => u.keeps t [.regs] (fun _ => [addr]))) ∧
  (∀ (s u : State) (dt src addr : Nat) (r : RegRow) (v : Word), s.canonical = true → u = (s.advance dt).dueFirst →
    u.clearSource src →
    rowOf addr = some r →
    r.kind = .lk →
    u.latched.contains addr = false →
    u.domainOn (domainOf addr) = true →
    Completes (.lkWrite dt src addr v) s (fun t => u.keeps t [.regs, .journal, .celen, .hif, .out, .latched, .ts, .refs, .rcp, .cas, .fresh, .totals] (fun k => [addr, span 0x70000 0x78000 k, span 0x80000 0x90000 k, span 0x48000 0x50000 k, span 0x14000 0x18000 k, span 0x10000 0x14000 k, span 0x78000 0x80000 k] ++ faultWords k))) ∧
  (∀ (s u : State) (dt src g : Nat) (v : Word), s.canonical = true → u = (s.advance dt).dueFirst →
    u.clearSource src →
    g < 35 →
    2 ≤ groupBoundary g →
    u.domainOn 15 = true →
    u.commitRefusal g (putFld v 0 2 1) = none →
    Completes (.sluCommit dt src g v) s (fun t => u.keeps t [.regs, .journal, .celen, .hif, .out, .pendRegs, .groups, .ts] (fun k => [A.tscCalUsed, A.hrcStatus, span 0x2000 0x4000 k] ++ faultWords k))) ∧
  (∀ (s u : State) (dt src g : Nat) (c : Commit), s.canonical = true → u = (s.advance dt).dueFirst →
    u.clearSource src →
    g < 35 →
    u.domainOn 15 = true →
    (u.group g).pend = some c →
    Completes (.sluCancel dt src g) s (fun t => u.keeps t [.regs, .journal, .celen, .hif, .out, .stage, .pendRegs, .groups, .ts] (fun k => [A.tscCalUsed, A.hrcStatus, span 0x2000 0x4000 k] ++ faultWords k))) ∧
  (∀ (s u : State) (dt src g : Nat), s.canonical = true → u = (s.advance dt).dueFirst →
    u.clearSource src →
    g < 35 →
    u.domainOn 15 = true →
    Completes (.sluRevert dt src g) s (fun t => u.keeps t [.regs, .journal, .celen, .hif, .out, .stage, .pendRegs, .groups, .ts] (fun k => [A.tscCalUsed, A.hrcStatus, span 0x2000 0x4000 k] ++ faultWords k))) ∧
  (∀ (s u : State) (dt a g : Nat), s.canonical = true → u = s.advance dt →
    u.scrubAt ≤ u.ts.meas →
    groupOf a = some g →
    (u.group g).stageParity.contains a = false →
    Completes (.parityScrub dt [] [a] []) s (fun t => u.keeps t [.regs, .journal, .celen, .hif, .out, .groups] (fun k => faultWords k))) ∧
  (∀ (s u : State) (dt src a : Nat) (v : Word), s.canonical = true → u = (s.advance dt).dueFirst →
    u.clearSource src →
    u.domainOn 15 = true →
    tallySet[fld (cmValue (u.rd A.talTallySel) v) 1 10]? = some a →
    Completes (.tallySel dt src v) s (fun t => u.keeps t [.regs, .journal, .celen, .hif, .out] (fun k => [span 0xC000 0x10000 k] ++ faultWords k))) ∧
  (∀ (s u : State) (dt src : Nat) (v : Word), s.canonical = true → u = (s.advance dt).dueFirst →
    u.clearSource src →
    u.domainOn 15 = true →
    Completes (.sampleIndex dt src v) s (fun t => u.keeps t [.regs, .journal, .celen, .hif, .out] (fun k => [span 0xC000 0x10000 k] ++ faultWords k))) ∧
  (∀ (s u : State) (dt src w : Nat) (v : Word), s.canonical = true → u = (s.advance dt).dueFirst →
    u.clearSource src →
    w < 2 →
    u.domainOn 15 = true →
    src < u.sources.length →
    Completes (.stolenClear dt src w v) s (fun t => u.keeps t [.regs, .journal, .celen, .hif, .out, .sources] (fun k => [A.talStolen0, A.talStolen1] ++ faultWords k))) ∧
  (∀ (s u : State) (dt src : Nat) (v : Word), s.canonical = true → u = (s.advance dt).dueFirst →
    u.clearSource src →
    u.latched.contains A.rcpLtSlot = false →
    u.domainOn (domainOf A.rcpLtSlot) = true →
    Completes (.ltSlot dt src v) s (fun t => u.keeps t [.regs, .journal, .celen, .hif, .out, .latched, .rcp, .fresh, .totals] (fun k => [span 0x70000 0x78000 k, span 0x78000 0x80000 k] ++ faultWords k))) ∧
  (∀ (s u : State) (dt i g : Nat) (x : Session) (m : MpMsg), s.canonical = true → u = (s.advance dt).dueFirst →
    1 ≤ i →
    i < 5 →
    u.session i = some x →
    m.magic = 0x434C →
    m.version = 1 →
    m.len = m.body.length →
    m.len ≤ 65600 →
    x.hello = true →
    u.celen.recovery = false →
    m.body.length = 12 →
    beAt m.body 4 1 = 1 →
    beAt m.body 5 1 = 15 →
    beAt m.body 6 2 = 0 →
    u.rangeBad (beAt m.body 0 4) 1 = false →
    groupOf (beAt m.body 0 4) = some g →
    (u.view (.session i)).pair = none →
    Completes (.celenWrite dt i m) s (fun t => u.keeps t [.regs, .journal, .celen, .hif, .out, .stage, .groups, .sources] (fun k => [A.sluGroupStatus g] ++ faultWords k)))

/-- What the guarded commands leave alone, under the hypotheses of their completion. -/
def Obligations.GuardedCommandFrames : Prop :=
  (∀ (s u : State) (dt src seq : Nat) (c : Word) (p : PostedStep), s.canonical = true → u = (s.advance dt).dueFirst →
    u.takesPair src A.tscStepApprove (word (seq % 256 + 0x100)) c →
    u.ts.step = some p →
    p.awaiting = true →
    seq % 256 = u.f A.tscStepSeq 0 8 →
    u.stepVetoed = false →
    Completes (.stepApprove dt src seq c) s (fun t => u.keeps t [.regs, .journal, .celen, .hif, .out, .ts] (fun k => [A.tscStepApprove, A.tscState, A.tscStepStale, A.tscCalUsed] ++ journalWords k))) ∧
  (∀ (s u : State) (dt src seq : Nat) (c : Word) (p : PostedStep), s.canonical = true → u = (s.advance dt).dueFirst →
    u.takesPair src A.tscStepApprove (word (seq % 256 + 0x200)) c →
    u.ts.step = some p →
    p.awaiting = true →
    seq % 256 = u.f A.tscStepSeq 0 8 →
    Completes (.stepApproveSlew dt src seq c) s (fun t => u.keeps t [.regs, .journal, .celen, .hif, .out, .ts] (fun k => [A.tscStepApprove, A.tscState, A.tscStepStale, A.tscCalUsed] ++ journalWords k))) ∧
  (∀ (s u : State) (dt src : Nat) (v c : Word), s.canonical = true → u = (s.advance dt).dueFirst →
    u.takesPair src A.refForce v c →
    Completes (.refForce dt src v c) s (fun t => u.keeps t [.regs, .journal, .celen, .hif, .out] (fun k => [A.refForce] ++ journalWords k))) ∧
  (∀ (s u : State) (dt src i : Nat) (c : Word), s.canonical = true → u = (s.advance dt).dueFirst →
    u.takesPair src A.refClearDistrust (word i) c →
    i < 13 →
    u.qstate i = 5 →
    Completes (.clearDistrust dt src (word i) c) s (fun t => u.keeps t [.regs, .journal, .celen, .hif, .out, .refs] (fun k => [A.refClearDistrust, span 0x14000 0x18000 k] ++ journalWords k))) ∧
  (∀ (s u : State) (dt src : Nat) (c : Word), s.canonical = true → u = (s.advance dt).dueFirst →
    u.takesPair src A.holCartCmd 1 c →
    u.cartState = 5 →
    Completes (.cartRelease dt src c) s (fun t => u.keeps t [.regs, .journal, .celen, .hif, .out, .hol] (fun k => [A.holCartCmd] ++ journalWords k))) ∧
  (∀ (s u : State) (dt src : Nat) (c : Word), s.canonical = true → u = (s.advance dt).dueFirst →
    u.takesPair src A.holCartCmd 1 c →
    u.cartState ≠ 5 →
    Completes (.cartRelease dt src c) s (fun t => u.keeps t [.regs, .journal, .celen, .hif, .out, .hol] (fun k => [A.holCartCmd] ++ journalWords k))) ∧
  (∀ (s u : State) (dt src : Nat) (c : Word), s.canonical = true → u = (s.advance dt).dueFirst →
    u.takesPair src A.holCartCmd 2 c →
    Completes (.cartResume dt src c) s (fun t => u.keeps t [.regs, .journal, .celen, .hif, .out, .hol] (fun k => [A.holCartCmd, A.holStatus, A.holCartTimer, A.pwrDomState] ++ journalWords k))) ∧
  (∀ (s u : State) (dt src : Nat) (c : Word), s.canonical = true → u = (s.advance dt).dueFirst →
    u.takesPair src A.holCartCmd 3 c →
    Completes (.cartForget dt src c) s (fun t => u.keeps t [.regs, .journal, .celen, .hif, .out, .hol] (fun k => [span 0x18000 0x20000 k] ++ journalWords k))) ∧
  (∀ (s u : State) (dt src : Nat) (c : Word), s.canonical = true → u = (s.advance dt).dueFirst →
    u.takesPair src A.ntsCmd 1 c →
    Completes (.ntsRotateNow dt src c) s (fun t => u.keeps t [.regs, .journal, .celen, .hif, .out, .nts] (fun k => [A.ntsCmd] ++ journalWords k))) ∧
  (∀ (s u : State) (dt src : Nat) (c : Word), s.canonical = true → u = (s.advance dt).dueFirst →
    u.takesPair src A.ntsCmd 2 c →
    Completes (.ntsPurge dt src c) s (fun t => u.keeps t [.regs, .journal, .celen, .hif, .out, .nts] (fun k => [span 0x60000 0x68000 k] ++ journalWords k))) ∧
  (∀ (s u : State) (dt src : Nat) (c : Word), s.canonical = true → u = (s.advance dt).dueFirst →
    u.takesPair src A.rcpCmd 1 c →
    Completes (.rcpRotateNow dt src c) s (fun t => u.keeps t [.regs, .journal, .celen, .hif, .out, .rcp, .fresh, .totals] (fun k => [A.rcpCmd, A.pkeFeDenied] ++ journalWords k))) ∧
  (∀ (s u : State) (dt src : Nat) (c : Word), s.canonical = true → u = (s.advance dt).dueFirst →
    u.takesPair src A.rcpCmd 1 c →
    u.rcpSafe = false →
    u.ltKey.isSome = true →
    0 < u.coresOn →
    u.entropyOk = true →
    Completes (.rcpRotateNow dt src c) s (fun t => u.keeps t [.regs, .journal, .celen, .hif, .out, .rcp, .fresh, .totals] (fun k => [A.rcpCmd, A.pkeFeDenied] ++ journalWords k))) ∧
  (∀ (s u : State) (dt src : Nat) (v c : Word), s.canonical = true → u = (s.advance dt).dueFirst →
    u.takesPair src A.pkeAbort v c →
    v ≠ 0 →
    u.countJobs (fun j => decide (jTag j.rec_ = v.toNat) && j.ring.isSome) ≠ 0 →
    Completes (.pkeAbort dt src v c) s (fun t => u.keeps t [.regs, .journal, .celen, .hif, .out, .pke, .totals] (fun k => [span 0x4000 0x8000 k, span 0x78000 0x80000 k] ++ journalWords k))) ∧
  (∀ (s u : State) (dt src : Nat) (c : Word), s.canonical = true → u = (s.advance dt).dueFirst →
    u.takesPair src A.pwrResetCmd 1 c →
    Completes (.resetFull dt src c none) s (fun t => u.keeps t [.regs, .journal, .celen, .hif, .out, .pwr] (fun k => [A.pwrResetCmd] ++ journalWords k))) ∧
  (∀ (s u : State) (dt src : Nat) (c : Word), s.canonical = true → u = (s.advance dt).dueFirst →
    u.takesPair src A.pwrResetCmd 2 c →
    Completes (.resetMgmt dt src c none) s (fun t => u.keeps t [.regs, .journal, .celen, .hif, .out, .boot, .sources] (fun k => [A.pwrResetCmd, A.bootStatus, A.bootRecFlags] ++ journalWords k))) ∧
  (∀ (s u : State) (dt src : Nat) (c : Word), s.canonical = true → u = (s.advance dt).dueFirst →
    u.takesPair src A.bootCmd 1 c →
    Completes (.bootStore dt src c none) s (fun t => u.keeps t [.regs, .journal, .celen, .hif, .out, .boot] (fun k => [A.bootCmd] ++ journalWords k))) ∧
  (∀ (s u : State) (dt src : Nat) (c : Word), s.canonical = true → u = (s.advance dt).dueFirst →
    u.takesPair src A.bootCmd 2 c →
    Completes (.bootClear dt src c) s (fun t => u.keeps t [.regs, .journal, .celen, .hif, .out, .boot] (fun k => [A.bootCmd, A.bootRecFlags, A.bootStepLastT (k % 12), A.bootStepCount (k % 12)] ++ journalWords k))) ∧
  (∀ (s u : State) (dt src : Nat) (c : Word), s.canonical = true → u = (s.advance dt).dueFirst →
    u.takesPair src A.bootCmd 3 c →
    Completes (.bootRetrain dt src c) s (fun t => u.keeps t [.regs, .journal, .celen, .hif, .out, .boot] (fun k => [A.bootCmd, A.bootRecFlags] ++ journalWords k))) ∧
  (∀ (s u : State) (dt src kind unit : Nat) (c : Word), s.canonical = true → u = (s.advance dt).dueFirst →
    u.takesPair src A.glbFenceCmd (word (2 + kind % 16 * 16 + unit % 32 * 256)) c →
    kind < 6 →
    unit < unitCount kind →
    u.testing = none →
    u.fenced kind unit = true →
    u.parityFenced kind unit = false →
    Completes (.returnUnit dt src kind unit c) s (fun t => u.keeps t [.regs, .journal, .celen, .hif, .out, .testing] (fun k => [A.glbFenceCmd, A.glbFenceResult] ++ journalWords k)))

/-- What the commands of a group leave alone, under the hypotheses of their completion and with no group held for power. -/
def Obligations.GroupCommandFrames : Prop :=
  (∀ (s u : State) (dt src : Nat) (cmd : Word), s.canonical = true → u = (s.advance dt).dueFirst →
    u.takesCommit src 1 (u.commandWords A.tscCalCmd 0 2 1 cmd) →
    u.pwr.heldGroups = [] →
    Completes (.calCreate dt src cmd [] 1) s (fun t => u.keeps t [.regs, .journal, .celen, .hif, .out, .stage, .pendRegs, .groups, .ts, .pwr] (fun k => [span 0x2000 0x4000 k] ++ groupWords 1 ++ [A.tscCalResult, A.tscCalUsed, A.pwrIoStatus] ++ faultWords k))) ∧
  (∀ (s u : State) (dt src : Nat) (cmd : Word), s.canonical = true → u = (s.advance dt).dueFirst →
    u.takesCommit src 1 (u.commandWords A.tscCalCmd 0 2 2 cmd) →
    u.pwr.heldGroups = [] →
    Completes (.calCancel dt src cmd [] 1) s (fun t => u.keeps t [.regs, .journal, .celen, .hif, .out, .stage, .pendRegs, .groups, .ts, .pwr] (fun k => [span 0x2000 0x4000 k] ++ groupWords 1 ++ [A.tscCalResult, A.tscCalUsed, A.pwrIoStatus] ++ faultWords k))) ∧
  (∀ (s u : State) (dt src : Nat) (cmd : Word), s.canonical = true → u = (s.advance dt).dueFirst →
    u.takesCommit src 1 (u.commandWords A.tscCalCmd 0 2 3 cmd) →
    u.pwr.heldGroups = [] →
    Completes (.calModify dt src cmd [] 1) s (fun t => u.keeps t [.regs, .journal, .celen, .hif, .out, .stage, .pendRegs, .groups, .ts, .pwr] (fun k => [span 0x2000 0x4000 k] ++ groupWords 1 ++ [A.tscCalResult, A.tscCalUsed, A.pwrIoStatus] ++ faultWords k))) ∧
  (∀ (s u : State) (dt src : Nat) (cmd : Word), s.canonical = true → u = (s.advance dt).dueFirst →
    u.takesCommit src 1 (u.commandWords A.tscCalCmd 0 2 0 cmd) →
    u.pwr.heldGroups = [] →
    Completes (.calNone dt src cmd [] 1) s (fun t => u.keeps t [.regs, .journal, .celen, .hif, .out, .stage, .pendRegs, .groups, .ts, .pwr] (fun k => [span 0x2000 0x4000 k] ++ groupWords 1 ++ [A.tscCalResult, A.tscCalUsed, A.pwrIoStatus] ++ faultWords k))) ∧
  (∀ (s u : State) (dt src : Nat) (cmd : Word), s.canonical = true → u = (s.advance dt).dueFirst →
    u.takesCommit src 7 (u.commandWords A.gnsCmd 0 4 1 cmd) →
    u.gnss.sides.length = 2 →
    u.pwr.heldGroups = [] →
    Completes (.surveyStart dt src cmd [] 1) s (fun t => u.keeps t [.regs, .journal, .celen, .hif, .out, .stage, .pendRegs, .groups, .ts, .pwr, .gnss] (fun k => [A.tscCalUsed, A.pwrIoStatus, span 0x20000 0x30000 k, span 0x2000 0x4000 k] ++ faultWords k))) ∧
  (∀ (s u : State) (dt src : Nat) (cmd : Word), s.canonical = true → u = (s.advance dt).dueFirst →
    u.takesCommit src 7 (u.commandWords A.gnsCmd 0 4 2 cmd) →
    u.pwr.heldGroups = [] →
    Completes (.surveyAbort dt src cmd [] 1) s (fun t => u.keeps t [.regs, .journal, .celen, .hif, .out, .stage, .pendRegs, .groups, .ts, .pwr, .gnss] (fun k => [A.tscCalUsed, A.pwrIoStatus, span 0x20000 0x30000 k, span 0x2000 0x4000 k] ++ faultWords k))) ∧
  (∀ (s u : State) (dt src : Nat) (cmd : Word), s.canonical = true → u = (s.advance dt).dueFirst →
    u.takesCommit src 7 (u.commandWords A.gnsCmd 0 4 3 cmd) →
    u.pwr.heldGroups = [] →
    Completes (.posFix dt src cmd [] 1) s (fun t => u.keeps t [.regs, .journal, .celen, .hif, .out, .stage, .pendRegs, .groups, .ts, .pwr, .gnss] (fun k => [A.tscCalUsed, A.pwrIoStatus, span 0x20000 0x30000 k, span 0x2000 0x4000 k] ++ faultWords k))) ∧
  (∀ (s u : State) (dt src : Nat) (cmd : Word), s.canonical = true → u = (s.advance dt).dueFirst →
    u.takesCommit src 7 (u.commandWords A.gnsCmd 0 4 4 cmd) →
    u.pwr.heldGroups = [] →
    Completes (.posClear dt src cmd [] 1) s (fun t => u.keeps t [.regs, .journal, .celen, .hif, .out, .stage, .pendRegs, .groups, .ts, .pwr, .gnss] (fun k => [A.tscCalUsed, A.pwrIoStatus, span 0x20000 0x30000 k, span 0x2000 0x4000 k] ++ faultWords k))) ∧
  (∀ (s u : State) (dt src : Nat) (cmd : Word), s.canonical = true → u = (s.advance dt).dueFirst →
    u.takesCommit src 7 (u.commandWords A.gnsCmd 0 4 5 cmd) →
    u.pwr.heldGroups = [] →
    Completes (.snapArm dt src cmd [] 1) s (fun t => u.keeps t [.regs, .journal, .celen, .hif, .out, .stage, .pendRegs, .groups, .ts, .pwr, .gnss] (fun k => [A.tscCalUsed, A.pwrIoStatus, span 0x20000 0x30000 k, span 0x2000 0x4000 k] ++ faultWords k))) ∧
  (∀ (s u : State) (dt src : Nat) (cmd : Word), s.canonical = true → u = (s.advance dt).dueFirst →
    u.takesCommit src 7 (u.commandWords A.gnsCmd 0 4 6 cmd) →
    (u.snapState = 1 ∨ u.snapState = 2) →
    u.pwr.heldGroups = [] →
    Completes (.snapAbort dt src cmd [] 1) s (fun t => u.keeps t [.regs, .journal, .celen, .hif, .out, .stage, .pendRegs, .groups, .ts, .pwr, .gnss] (fun k => [A.tscCalUsed, A.pwrIoStatus, span 0x20000 0x30000 k, span 0x2000 0x4000 k] ++ faultWords k))) ∧
  (∀ (s u : State) (dt src : Nat) (cmd : Word), s.canonical = true → u = (s.advance dt).dueFirst →
    u.takesCommit src 7 (u.commandWords A.gnsCmd 0 4 7 cmd) →
    u.pwr.heldGroups = [] →
    Completes (.replayStart dt src cmd [] 1) s (fun t => u.keeps t [.regs, .journal, .celen, .hif, .out, .stage, .pendRegs, .groups, .ts, .pwr, .gnss] (fun k => [A.tscCalUsed, A.pwrIoStatus, span 0x20000 0x30000 k, span 0x2000 0x4000 k] ++ faultWords k))) ∧
  (∀ (s u : State) (dt src : Nat) (cmd : Word), s.canonical = true → u = (s.advance dt).dueFirst →
    u.takesCommit src 7 (u.commandWords A.gnsCmd 0 4 8 cmd) →
    u.pwr.heldGroups = [] →
    Completes (.replayStop dt src cmd [] 1) s (fun t => u.keeps t [.regs, .journal, .celen, .hif, .out, .stage, .pendRegs, .groups, .ts, .pwr, .gnss] (fun k => [A.tscCalUsed, A.pwrIoStatus, span 0x20000 0x30000 k, span 0x2000 0x4000 k] ++ faultWords k))) ∧
  (∀ (s u : State) (dt src : Nat) (cmd : Word), s.canonical = true → u = (s.advance dt).dueFirst →
    u.takesCommit src 7 (u.commandWords A.gnsCmd 0 4 9 cmd) →
    u.pwr.heldGroups = [] →
    Completes (.clearExcl dt src cmd [] 1) s (fun t => u.keeps t [.regs, .journal, .celen, .hif, .out, .stage, .pendRegs, .groups, .ts, .pwr, .gnss] (fun k => [A.tscCalUsed, A.pwrIoStatus, span 0x20000 0x30000 k, span 0x2000 0x4000 k] ++ faultWords k))) ∧
  (∀ (s u : State) (dt src : Nat) (cmd : Word), s.canonical = true → u = (s.advance dt).dueFirst →
    u.takesCommit src 19 (u.commandWords A.hrcQueryCmd 0 1 1 cmd) →
    u.pwr.heldGroups = [] →
    Completes (.clientQuery dt src cmd [] 1) s (fun t => u.keeps t [.regs, .journal, .celen, .hif, .out, .stage, .pendRegs, .groups, .ts, .pwr] (fun k => [A.tscCalUsed, A.pwrIoStatus, span 0x50000 0x58000 k, span 0x2000 0x4000 k] ++ faultWords k))) ∧
  (∀ (s u : State) (dt src p : Nat), s.canonical = true → u = (s.advance dt).dueFirst →
    u.clearSource src →
    p < 16 →
    u.domainOn (domainOf (A.svpPipeUcodeCtl p)) = true →
    u.pipeState p = 0 →
    (u.nextActive p).isSome = true →
    Completes (.drain dt src p) s (fun t => u.keeps t [.regs, .journal, .celen, .hif, .out, .totals, .hrc, .tal] (fun k => [span 0x58000 0x60000 k, span 0x50000 0x58000 k, span 0xC000 0x10000 k] ++ faultWords k))) ∧
  (∀ (s u : State) (dt src p : Nat), s.canonical = true → u = (s.advance dt).dueFirst →
    u.clearSource src →
    p < 16 →
    u.domainOn (domainOf (A.svpPipeUcodeCtl p)) = true →
    u.pipeState p = 2 →
    Completes (.reload dt src p false) s (fun t => u.keeps t [.regs, .journal, .celen, .hif, .out, .totals, .hrc, .tal] (fun k => [span 0x58000 0x60000 k, span 0x50000 0x58000 k, span 0xC000 0x10000 k] ++ faultWords k))) ∧
  (∀ (s u : State) (dt link : Nat), s.canonical = true → u = s.advance dt →
    link < 8 →
    u.preempt link = 1 →
    Completes (.verifyResponse dt link) s (fun t => u.keeps t [.regs, .journal, .celen, .hif, .out, .totals, .ports, .tal, .fresh] (fun k => [span 0x40000 0x48000 k, span 0xC000 0x10000 k] ++ faultWords k)))

/-- R41 whole; the other clauses follow R39 and R90 (notes/assumptions/119). -/
def Obligations.ScheduledStepInstant : Prop :=
  (∀ (s u : State) (dt i : Nat) (e : CalEntry) (p : PostedStep) (th : Int), s.canonical = true → u = (s.advance dt).inOrder (ofAction 0x1F) →
    dueEntry u.ts.calendar u.nowNs (fun x => decide (x.action = 0x1F)) = some (i, e) →
    e.target = 0 →
    u.ts.step = some p →
    u.sel = p.ref →
    u.qstate p.ref = 3 →
    u.ts.measured = some th →
    th.natAbs ≤ u.f A.tscStepThreshold 0 32 * 1000 →
    Completes (.tscStep dt) s (fun t => t.ts.step = none ∧ t.bit A.tscState 3 = false ∧ t.bit A.tscEvent 3 = true ∧ t.f A.tscStepSeq 0 8 = u.f A.tscStepSeq 0 8 ∧ t.ts.acc = u.ts.acc ∧ t.ts.slewRem = qdiv (th * 65536) 1000)) ∧
  (∀ (s u : State) (dt i : Nat) (e : CalEntry) (p : PostedStep), s.canonical = true → u = (s.advance dt).inOrder (ofAction 0x1F) →
    dueEntry u.ts.calendar u.nowNs (fun x => decide (x.action = 0x1F)) = some (i, e) →
    e.target = 0 →
    u.ts.step = some p →
    u.sel = p.ref →
    u.qstate p.ref = 3 →
    u.ts.measured = none →
    Completes (.tscStep dt) s (fun t => t.ts.step = none ∧ t.bit A.tscState 3 = false ∧ t.bit A.tscEvent 3 = true ∧ t.f A.tscStepSeq 0 8 = u.f A.tscStepSeq 0 8 ∧ t.ts.acc = u.ts.acc ∧ t.refs.waitOffset = true ∧ t.ts.slewRem = u.ts.slewRem)) ∧
  (∀ (s u : State) (dt i : Nat) (e : CalEntry) (p : PostedStep) (th : Int), s.canonical = true → u = (s.advance dt).inOrder (ofAction 0x1F) →
    dueEntry u.ts.calendar u.nowNs (fun x => decide (x.action = 0x1F)) = some (i, e) →
    e.target = 0 →
    u.ts.step = some p →
    u.sel = p.ref →
    u.qstate p.ref = 3 →
    u.ts.measured = some th →
    u.f A.tscStepThreshold 0 32 * 1000 < th.natAbs →
    u.f A.tscStepThreshold 0 32 * 1000 < (th - p.ps).natAbs →
    u.tscSafe = false →
    u.stepVetoed = false →
    u.effPolicy = 1 →
    Completes (.tscStep dt) s (fun t => t.bit A.tscEvent 3 = true ∧ t.f A.tscStepSeq 0 8 = (u.f A.tscStepSeq 0 8 + 1) % 256 ∧ t.rd64 A.tscStepOffsetLo = unsigned (roundNs th) 64 ∧ t.bit A.tscState 3 = true ∧ t.ts.acc = u.ts.acc ∧ t.ts.step = some ⟨th, p.ref, false, some (u.secondAfter 10000000)⟩)) ∧
  (∀ (s u : State) (dt i : Nat) (e : CalEntry) (p : PostedStep) (th : Int), s.canonical = true → u = (s.advance dt).inOrder (ofAction 0x1F) →
    dueEntry u.ts.calendar u.nowNs (fun x => decide (x.action = 0x1F)) = some (i, e) →
    e.target = 0 →
    u.ts.step = some p →
    u.sel = p.ref →
    u.qstate p.ref = 3 →
    u.ts.measured = some th →
    u.f A.tscStepThreshold 0 32 * 1000 < th.natAbs →
    u.f A.tscStepThreshold 0 32 * 1000 < (th - p.ps).natAbs →
    u.tscSafe = false →
    u.stepVetoed = false →
    u.effPolicy = 2 →
    Completes (.tscStep dt) s (fun t => t.bit A.tscEvent 3 = true ∧ t.f A.tscStepSeq 0 8 = (u.f A.tscStepSeq 0 8 + 1) % 256 ∧ t.rd64 A.tscStepOffsetLo = unsigned (roundNs th) 64 ∧ t.bit A.tscState 3 = true ∧ t.ts.acc = u.ts.acc ∧ t.ts.step = some ⟨th, p.ref, true, none⟩ ∧ t.bit A.tscEvent 1 = true)) ∧
  (∀ (s u : State) (dt i : Nat) (e : CalEntry) (p : PostedStep) (th : Int), s.canonical = true → u = (s.advance dt).inOrder (ofAction 0x1F) →
    dueEntry u.ts.calendar u.nowNs (fun x => decide (x.action = 0x1F)) = some (i, e) →
    e.target = 0 →
    u.ts.step = some p →
    u.sel = p.ref →
    u.qstate p.ref = 3 →
    u.ts.measured = some th →
    u.f A.tscStepThreshold 0 32 * 1000 < th.natAbs →
    u.f A.tscStepThreshold 0 32 * 1000 < (th - p.ps).natAbs →
    u.stepVetoed = true →
    u.effPolicy ≠ 3 →
    Completes (.tscStep dt) s (fun t => t.ts.step = none ∧ t.bit A.tscState 3 = false ∧ t.bit A.tscEvent 3 = true ∧ t.f A.tscStepSeq 0 8 = u.f A.tscStepSeq 0 8 ∧ t.ts.acc = u.ts.acc ∧ t.bit A.refEvent 9 = true ∧ t.refs.waitOffset = true)) ∧
  (∀ (s u : State) (dt i : Nat) (e : CalEntry) (p : PostedStep) (th : Int), s.canonical = true → u = (s.advance dt).inOrder (ofAction 0x1F) →
    dueEntry u.ts.calendar u.nowNs (fun x => decide (x.action = 0x1F)) = some (i, e) →
    e.target = 0 →
    u.ts.step = some p →
    u.sel = p.ref →
    u.qstate p.ref = 3 →
    u.ts.measured = some th →
    u.f A.tscStepThreshold 0 32 * 1000 < th.natAbs →
    (th - p.ps).natAbs ≤ u.f A.tscStepThreshold 0 32 * 1000 →
    exec (.tscStep dt) s = .next (((u.fireEntry i e).clearStep).stepNow (e.skipAt.getD e.atNs) (th.tdiv 1000) false))

/-- Completion, command by command: the hypotheses are that the units named exist (R3, R352, R381; notes/assumptions/5) and that the storage is canonical. -/
def Obligations.EveryCommandCompletes : Prop :=
  (∀ (s : State) (dt : Nat) (src addr : Nat) (lanes : List (Nat × Word)), s.canonical = true → src < 5 → Completes (.registerWrite dt src addr lanes) s (fun t => t.canonical = true)) ∧
  (∀ (s : State) (dt : Nat) (src addr : Nat) (wide : Bool), s.canonical = true → src < 5 → Completes (.crClearingRead dt src addr wide) s (fun t => t.canonical = true)) ∧
  (∀ (s : State) (dt : Nat) (src addr : Nat) (value : Word), s.canonical = true → src < 5 → Completes (.sqAcknowledge dt src addr value) s (fun t => t.canonical = true)) ∧
  (∀ (s : State) (dt : Nat) (src addr : Nat) (value : Word), s.canonical = true → src < 5 → Completes (.stageWrite dt src addr value) s (fun t => t.canonical = true)) ∧
  (∀ (s : State) (dt : Nat) (src addr : Nat) (value : Word), s.canonical = true → src < 5 → Completes (.lkWrite dt src addr value) s (fun t => t.canonical = true)) ∧
  (∀ (s : State) (dt : Nat) (src : Nat), s.canonical = true → src < 5 → Completes (.guardTimeout dt src) s (fun t => t.canonical = true)) ∧
  (∀ (s : State) (dt : Nat) (src group : Nat) (value : Word), s.canonical = true → src < 5 → group < 64 → Completes (.sluCommit dt src group value) s (fun t => t.canonical = true)) ∧
  (∀ (s : State) (dt : Nat) (src group : Nat), s.canonical = true → src < 5 → group < 64 → Completes (.sluCancel dt src group) s (fun t => t.canonical = true)) ∧
  (∀ (s : State) (dt : Nat) (src group : Nat), s.canonical = true → src < 5 → group < 64 → Completes (.sluRevert dt src group) s (fun t => t.canonical = true)) ∧
  (∀ (s : State) (dt : Nat) (link dir : Nat), s.canonical = true → link < 8 → dir < 2 → Completes (.flowAdopt dt link dir) s (fun t => t.canonical = true)) ∧
  (∀ (s : State) (dt : Nat), s.canonical = true → Completes (.addrApply dt) s (fun t => t.canonical = true)) ∧
  (∀ (s : State) (dt : Nat) (live staging pending : List Nat), s.canonical = true → Completes (.parityScrub dt live staging pending) s (fun t => t.canonical = true)) ∧
  (∀ (s : State) (dt : Nat) (src : Nat), s.canonical = true → src < 5 → Completes (.nowSecLoRead dt src) s (fun t => t.canonical = true)) ∧
  (∀ (s : State) (dt : Nat), s.canonical = true → Completes (.hostEvent dt) s (fun t => t.canonical = true)) ∧
  (∀ (s : State) (dt : Nat), s.canonical = true → Completes (.sluApply dt) s (fun t => t.canonical = true)) ∧
  (∀ (s : State) (dt : Nat) (output : Nat), s.canonical = true → output < 6 → Completes (.outEdge dt output) s (fun t => t.canonical = true)) ∧
  (∀ (s : State) (dt : Nat) (output : Nat), s.canonical = true → output < 4 → Completes (.pulseEnd dt output) s (fun t => t.canonical = true)) ∧
  (∀ (s : State) (dt : Nat), s.canonical = true → Completes (.ptpSync dt) s (fun t => t.canonical = true)) ∧
  (∀ (s : State) (dt : Nat), s.canonical = true → Completes (.rcpWindow dt) s (fun t => t.canonical = true)) ∧
  (∀ (s : State) (dt : Nat), s.canonical = true → Completes (.talWindow dt) s (fun t => t.canonical = true)) ∧
  (∀ (s : State) (dt : Nat), s.canonical = true → Completes (.ntsEpoch dt) s (fun t => t.canonical = true)) ∧
  (∀ (s : State) (dt : Nat), s.canonical = true → Completes (.leap dt) s (fun t => t.canonical = true)) ∧
  (∀ (s : State) (dt : Nat), s.canonical = true → Completes (.hifDbPoll dt) s (fun t => t.canonical = true)) ∧
  (∀ (s : State) (dt : Nat) (meas : TickMeas), s.canonical = true → Completes (.radiusTick dt meas) s (fun t => t.canonical = true)) ∧
  (∀ (s : State) (dt : Nat), s.canonical = true → Completes (.tscStep dt) s (fun t => t.canonical = true)) ∧
  (∀ (s : State) (dt : Nat) (ref : Nat), s.canonical = true → ref < 14 → Completes (.qualTimeExpire dt ref) s (fun t => t.canonical = true)) ∧
  (∀ (s : State) (dt : Nat) (ref : Nat), s.canonical = true → ref < 14 → Completes (.wtrExpire dt ref) s (fun t => t.canonical = true)) ∧
  (∀ (s : State) (dt : Nat) (ref : Nat), s.canonical = true → ref < 14 → Completes (.distrustHoldExpire dt ref) s (fun t => t.canonical = true)) ∧
  (∀ (s : State) (dt : Nat), s.canonical = true → Completes (.prepareEnd dt) s (fun t => t.canonical = true)) ∧
  (∀ (s : State) (dt : Nat) (ref : Nat), s.canonical = true → ref < 14 → Completes (.refLossTimeout dt ref) s (fun t => t.canonical = true)) ∧
  (∀ (s : State) (dt : Nat) (src : Nat) (value complement : Word), s.canonical = true → src < 5 → Completes (.refForce dt src value complement) s (fun t => t.canonical = true)) ∧
  (∀ (s : State) (dt : Nat) (src : Nat) (value complement : Word), s.canonical = true → src < 5 → Completes (.clearDistrust dt src value complement) s (fun t => t.canonical = true)) ∧
  (∀ (s : State) (dt : Nat) (src ref : Nat), s.canonical = true → src < 5 → ref < 14 → Completes (.offsetLoRead dt src ref) s (fun t => t.canonical = true)) ∧
  (∀ (s : State) (dt : Nat) (closed : Bool), s.canonical = true → Completes (.qcontactChange dt closed) s (fun t => t.canonical = true)) ∧
  (∀ (s : State) (dt : Nat) (text : Bytes) (framing : Bool), s.canonical = true → Completes (.todSentenceRx dt text framing) s (fun t => t.canonical = true)) ∧
  (∀ (s : State) (dt : Nat) (src seq : Nat) (complement : Word), s.canonical = true → src < 5 → Completes (.stepApprove dt src seq complement) s (fun t => t.canonical = true)) ∧
  (∀ (s : State) (dt : Nat) (src seq : Nat) (complement : Word), s.canonical = true → src < 5 → Completes (.stepApproveSlew dt src seq complement) s (fun t => t.canonical = true)) ∧
  (∀ (s : State) (dt : Nat) (src : Nat) (cmd : Word) (words : List (Nat × Word)) (commit : Word), s.canonical = true → src < 5 → Completes (.calCreate dt src cmd words commit) s (fun t => t.canonical = true)) ∧
  (∀ (s : State) (dt : Nat) (src : Nat) (cmd : Word) (words : List (Nat × Word)) (commit : Word), s.canonical = true → src < 5 → Completes (.calCancel dt src cmd words commit) s (fun t => t.canonical = true)) ∧
  (∀ (s : State) (dt : Nat) (src : Nat) (cmd : Word) (words : List (Nat × Word)) (commit : Word), s.canonical = true → src < 5 → Completes (.calModify dt src cmd words commit) s (fun t => t.canonical = true)) ∧
  (∀ (s : State) (dt : Nat) (src : Nat) (cmd : Word) (words : List (Nat × Word)) (commit : Word), s.canonical = true → src < 5 → Completes (.calNone dt src cmd words commit) s (fun t => t.canonical = true)) ∧
  (∀ (s : State) (dt : Nat) (opened : Bool), s.canonical = true → Completes (.cartLoss dt opened) s (fun t => t.canonical = true)) ∧
  (∀ (s : State) (dt : Nat), s.canonical = true → Completes (.modelSample dt) s (fun t => t.canonical = true)) ∧
  (∀ (s : State) (dt : Nat), s.canonical = true → Completes (.modelFlashWrite dt) s (fun t => t.canonical = true)) ∧
  (∀ (s : State) (dt : Nat), s.canonical = true → Completes (.cartInsert dt) s (fun t => t.canonical = true)) ∧
  (∀ (s : State) (dt : Nat), s.canonical = true → Completes (.cartRemove dt) s (fun t => t.canonical = true)) ∧
  (∀ (s : State) (dt : Nat) (code rev serial : Nat) (block : Bytes), s.canonical = true → Completes (.cartIdentified dt code rev serial block) s (fun t => t.canonical = true)) ∧
  (∀ (s : State) (dt : Nat), s.canonical = true → Completes (.cartIdTimeout dt) s (fun t => t.canonical = true)) ∧
  (∀ (s : State) (dt : Nat) (lock fault : Bool), s.canonical = true → Completes (.cartStatusPoll dt lock fault) s (fun t => t.canonical = true)) ∧
  (∀ (s : State) (dt : Nat), s.canonical = true → Completes (.cartWarmTimeout dt) s (fun t => t.canonical = true)) ∧
  (∀ (s : State) (dt : Nat), s.canonical = true → Completes (.cartMeasDone dt) s (fun t => t.canonical = true)) ∧
  (∀ (s : State) (dt : Nat), s.canonical = true → Completes (.cartOvercurrent dt) s (fun t => t.canonical = true)) ∧
  (∀ (s : State) (dt : Nat) (src : Nat) (complement : Word), s.canonical = true → src < 5 → Completes (.cartRelease dt src complement) s (fun t => t.canonical = true)) ∧
  (∀ (s : State) (dt : Nat), s.canonical = true → Completes (.cartPd2Off dt) s (fun t => t.canonical = true)) ∧
  (∀ (s : State) (dt : Nat) (src : Nat) (complement : Word), s.canonical = true → src < 5 → Completes (.cartResume dt src complement) s (fun t => t.canonical = true)) ∧
  (∀ (s : State) (dt : Nat) (src : Nat) (complement : Word), s.canonical = true → src < 5 → Completes (.cartForget dt src complement) s (fun t => t.canonical = true)) ∧
  (∀ (s : State) (dt : Nat) (tempKeeper : Int) (tempCart : Option Int), s.canonical = true → Completes (.kaTick dt tempKeeper tempCart) s (fun t => t.canonical = true)) ∧
  (∀ (s : State) (dt : Nat), s.canonical = true → Completes (.kaGnssWake dt) s (fun t => t.canonical = true)) ∧
  (∀ (s : State) (dt : Nat) (sky : List SkyObs), s.canonical = true → Completes (.kaWakeEnd dt sky) s (fun t => t.canonical = true)) ∧
  (∀ (s : State) (dt : Nat) (side : Nat) (sol : GnssSolution), s.canonical = true → side < 2 → Completes (.gnssSolutionDone dt side sol) s (fun t => t.canonical = true)) ∧
  (∀ (s : State) (dt : Nat) (side check : Nat), s.canonical = true → side < 2 → Completes (.gnssAlarmClear dt side check) s (fun t => t.canonical = true)) ∧
  (∀ (s : State) (dt : Nat) (side : Nat) (constellation : Bool) (key check : Nat), s.canonical = true → side < 2 → Completes (.gnssExclEnd dt side constellation key check) s (fun t => t.canonical = true)) ∧
  (∀ (s : State) (dt : Nat) (side chan : Nat), s.canonical = true → side < 2 → chan < 160 → Completes (.channelLossOfLock dt side chan) s (fun t => t.canonical = true)) ∧
  (∀ (s : State) (dt : Nat) (side : Nat) (msg : NavMessage), s.canonical = true → side < 2 → Completes (.navRecord dt side msg) s (fun t => t.canonical = true)) ∧
  (∀ (s : State) (dt : Nat), s.canonical = true → Completes (.hotstartWrite dt) s (fun t => t.canonical = true)) ∧
  (∀ (s : State) (dt : Nat) (src : Nat) (cmd : Word) (words : List (Nat × Word)) (commit : Word), s.canonical = true → src < 5 → Completes (.surveyStart dt src cmd words commit) s (fun t => t.canonical = true)) ∧
  (∀ (s : State) (dt : Nat) (src : Nat) (cmd : Word) (words : List (Nat × Word)) (commit : Word), s.canonical = true → src < 5 → Completes (.surveyAbort dt src cmd words commit) s (fun t => t.canonical = true)) ∧
  (∀ (s : State) (dt : Nat) (side : Nat), s.canonical = true → side < 2 → Completes (.surveyProgress dt side) s (fun t => t.canonical = true)) ∧
  (∀ (s : State) (dt : Nat) (side : Nat), s.canonical = true → side < 2 → Completes (.surveyComplete dt side) s (fun t => t.canonical = true)) ∧
  (∀ (s : State) (dt : Nat) (side : Nat), s.canonical = true → side < 2 → Completes (.surveyTimeout dt side) s (fun t => t.canonical = true)) ∧
  (∀ (s : State) (dt : Nat) (src : Nat) (cmd : Word) (words : List (Nat × Word)) (commit : Word), s.canonical = true → src < 5 → Completes (.posFix dt src cmd words commit) s (fun t => t.canonical = true)) ∧
  (∀ (s : State) (dt : Nat) (src : Nat) (cmd : Word) (words : List (Nat × Word)) (commit : Word), s.canonical = true → src < 5 → Completes (.posClear dt src cmd words commit) s (fun t => t.canonical = true)) ∧
  (∀ (s : State) (dt : Nat) (src : Nat) (cmd : Word) (words : List (Nat × Word)) (commit : Word), s.canonical = true → src < 5 → Completes (.snapArm dt src cmd words commit) s (fun t => t.canonical = true)) ∧
  (∀ (s : State) (dt : Nat) (src : Nat) (cmd : Word) (words : List (Nat × Word)) (commit : Word), s.canonical = true → src < 5 → Completes (.snapAbort dt src cmd words commit) s (fun t => t.canonical = true)) ∧
  (∀ (s : State) (dt : Nat), s.canonical = true → Completes (.snapTrigger dt) s (fun t => t.canonical = true)) ∧
  (∀ (s : State) (dt : Nat), s.canonical = true → Completes (.snapCaptureEnd dt) s (fun t => t.canonical = true)) ∧
  (∀ (s : State) (dt : Nat) (src : Nat) (cmd : Word) (words : List (Nat × Word)) (commit : Word), s.canonical = true → src < 5 → Completes (.replayStart dt src cmd words commit) s (fun t => t.canonical = true)) ∧
  (∀ (s : State) (dt : Nat) (src : Nat) (cmd : Word) (words : List (Nat × Word)) (commit : Word), s.canonical = true → src < 5 → Completes (.replayStop dt src cmd words commit) s (fun t => t.canonical = true)) ∧
  (∀ (s : State) (dt : Nat) (side : Nat), s.canonical = true → side < 2 → Completes (.replayEnd dt side) s (fun t => t.canonical = true)) ∧
  (∀ (s : State) (dt : Nat) (src : Nat) (cmd : Word) (words : List (Nat × Word)) (commit : Word), s.canonical = true → src < 5 → Completes (.clearExcl dt src cmd words commit) s (fun t => t.canonical = true)) ∧
  (∀ (s : State) (dt : Nat) (src side : Nat), s.canonical = true → src < 5 → side < 2 → Completes (.thetaLoRead dt src side) s (fun t => t.canonical = true)) ∧
  (∀ (s : State) (dt : Nat) (side band : Nat) (obs : RfiObs), s.canonical = true → side < 2 → band < 2 → Completes (.rfiSpectrum dt side band obs) s (fun t => t.canonical = true)) ∧
  (∀ (s : State) (dt : Nat) (side ma : Nat), s.canonical = true → side < 2 → Completes (.biasShort dt side ma) s (fun t => t.canonical = true)) ∧
  (∀ (s : State) (dt : Nat) (side ma : Nat), s.canonical = true → side < 2 → Completes (.biasRetry dt side ma) s (fun t => t.canonical = true)) ∧
  (∀ (s : State) (dt : Nat) (side : Nat) (startOk : Bool), s.canonical = true → side < 2 → Completes (.gnssFwLoad dt side startOk) s (fun t => t.canonical = true)) ∧
  (∀ (s : State) (dt : Nat) (chan : Nat) (rising : Bool) (sub cycles : Nat), s.canonical = true → chan < 16 → Completes (.tagEdge dt chan rising sub cycles) s (fun t => t.canonical = true)) ∧
  (∀ (s : State) (dt : Nat), s.canonical = true → Completes (.tagForward dt) s (fun t => t.canonical = true)) ∧
  (∀ (s : State) (dt : Nat) (prog : Nat), s.canonical = true → prog < 8 → Completes (.measClose dt prog) s (fun t => t.canonical = true)) ∧
  (∀ (s : State) (dt : Nat) (prog : Nat), s.canonical = true → prog < 8 → Completes (.measGateClose dt prog) s (fun t => t.canonical = true)) ∧
  (∀ (s : State) (dt : Nat), s.canonical = true → Completes (.measForward dt) s (fun t => t.canonical = true)) ∧
  (∀ (s : State) (dt : Nat) (skews : List (Nat × Int)), s.canonical = true → Completes (.calBurst dt skews) s (fun t => t.canonical = true)) ∧
  (∀ (s : State) (dt : Nat) (link : Nat) (phys : RxPhys), s.canonical = true → link < 8 → Completes (.frameRx dt link phys) s (fun t => t.canonical = true)) ∧
  (∀ (s : State) (dt : Nat) (link occupancy : Nat), s.canonical = true → link < 8 → Completes (.weirLow dt link occupancy) s (fun t => t.canonical = true)) ∧
  (∀ (s : State) (dt : Nat) (link : Nat), s.canonical = true → link < 8 → Completes (.pauseRefresh dt link) s (fun t => t.canonical = true)) ∧
  (∀ (s : State) (dt : Nat) (link : Nat), s.canonical = true → link < 8 → Completes (.pauseEffect dt link) s (fun t => t.canonical = true)) ∧
  (∀ (s : State) (dt : Nat) (link : Nat), s.canonical = true → link < 8 → Completes (.pauseHoldEnd dt link) s (fun t => t.canonical = true)) ∧
  (∀ (s : State) (dt : Nat) (link : Nat), s.canonical = true → link < 8 → Completes (.pauseOverlimit dt link) s (fun t => t.canonical = true)) ∧
  (∀ (s : State) (dt : Nat) (link rxDyn txDyn : Nat), s.canonical = true → link < 16 → Completes (.linkUp dt link rxDyn txDyn) s (fun t => t.canonical = true)) ∧
  (∀ (s : State) (dt : Nat) (link : Nat) (lost : LineLock), s.canonical = true → link < 16 → Completes (.linkDown dt link lost) s (fun t => t.canonical = true)) ∧
  (∀ (s : State) (dt : Nat) (cage : Nat) (responded : Bool) (ident pclass : Nat), s.canonical = true → cage < 4 → Completes (.cageInsert dt cage responded ident pclass) s (fun t => t.canonical = true)) ∧
  (∀ (s : State) (dt : Nat) (cage : Nat), s.canonical = true → cage < 4 → Completes (.cageRemove dt cage) s (fun t => t.canonical = true)) ∧
  (∀ (s : State) (dt : Nat) (link : Nat), s.canonical = true → link < 8 → Completes (.verifySend dt link) s (fun t => t.canonical = true)) ∧
  (∀ (s : State) (dt : Nat) (link : Nat), s.canonical = true → link < 8 → Completes (.verifyResponse dt link) s (fun t => t.canonical = true)) ∧
  (∀ (s : State) (dt : Nat) (src link : Nat), s.canonical = true → src < 5 → link < 8 → Completes (.probeStart dt src link) s (fun t => t.canonical = true)) ∧
  (∀ (s : State) (dt : Nat) (link nonce captured : Nat), s.canonical = true → link < 8 → Completes (.probeReturn dt link nonce captured) s (fun t => t.canonical = true)) ∧
  (∀ (s : State) (dt : Nat) (link : Nat), s.canonical = true → link < 8 → Completes (.probeTimeout dt link) s (fun t => t.canonical = true)) ∧
  (∀ (s : State) (dt : Nat) (link : Nat), s.canonical = true → link < 8 → Completes (.responseBook dt link) s (fun t => t.canonical = true)) ∧
  (∀ (s : State) (dt : Nat) (link : Nat), s.canonical = true → link < 16 → Completes (.finalise dt link) s (fun t => t.canonical = true)) ∧
  (∀ (s : State) (dt : Nat) (link : Nat), s.canonical = true → link < 16 → Completes (.commitPoint dt link) s (fun t => t.canonical = true)) ∧
  (∀ (s : State) (dt : Nat) (link : Nat), s.canonical = true → link < 16 → Completes (.slotStart dt link) s (fun t => t.canonical = true)) ∧
  (∀ (s : State) (dt : Nat) (link : Nat), s.canonical = true → link < 8 → Completes (.ageDrop dt link) s (fun t => t.canonical = true)) ∧
  (∀ (s : State) (dt : Nat), s.canonical = true → Completes (.arpRequest dt) s (fun t => t.canonical = true)) ∧
  (∀ (s : State) (dt : Nat), s.canonical = true → Completes (.neighborSolicitation dt) s (fun t => t.canonical = true)) ∧
  (∀ (s : State) (dt : Nat), s.canonical = true → Completes (.exceptionFrame dt) s (fun t => t.canonical = true)) ∧
  (∀ (s : State) (dt : Nat) (pipe : Nat), s.canonical = true → pipe < 16 → Completes (.ntpRequest dt pipe) s (fun t => t.canonical = true)) ∧
  (∀ (s : State) (dt : Nat) (pipe : Nat), s.canonical = true → pipe < 16 → Completes (.ntsRequest dt pipe) s (fun t => t.canonical = true)) ∧
  (∀ (s : State) (dt : Nat) (bucket : Nat), s.canonical = true → bucket < 256 → Completes (.bucketMoveDone dt bucket) s (fun t => t.canonical = true)) ∧
  (∀ (s : State) (dt : Nat) (src : Nat) (cmd : Word) (words : List (Nat × Word)) (commit : Word), s.canonical = true → src < 5 → Completes (.clientQuery dt src cmd words commit) s (fun t => t.canonical = true)) ∧
  (∀ (s : State) (dt : Nat) (src : Nat) (complement : Word), s.canonical = true → src < 5 → Completes (.ntsRotateNow dt src complement) s (fun t => t.canonical = true)) ∧
  (∀ (s : State) (dt : Nat) (src : Nat) (complement : Word), s.canonical = true → src < 5 → Completes (.ntsPurge dt src complement) s (fun t => t.canonical = true)) ∧
  (∀ (s : State) (dt : Nat), s.canonical = true → Completes (.ntsKeyDrawn dt) s (fun t => t.canonical = true)) ∧
  (∀ (s : State) (dt : Nat), s.canonical = true → Completes (.keyDeferRetry dt) s (fun t => t.canonical = true)) ∧
  (∀ (s : State) (dt : Nat) (mint : Option Bytes), s.canonical = true → Completes (.mintJob dt mint) s (fun t => t.canonical = true)) ∧
  (∀ (s : State) (dt : Nat) (src pipe : Nat), s.canonical = true → src < 5 → pipe < 16 → Completes (.drain dt src pipe) s (fun t => t.canonical = true)) ∧
  (∀ (s : State) (dt : Nat) (pipe : Nat), s.canonical = true → pipe < 16 → Completes (.drainComplete dt pipe) s (fun t => t.canonical = true)) ∧
  (∀ (s : State) (dt : Nat) (src pipe : Nat) (held : Bool), s.canonical = true → src < 5 → pipe < 16 → Completes (.reload dt src pipe held) s (fun t => t.canonical = true)) ∧
  (∀ (s : State) (dt : Nat) (pipe : Nat) (pass : Bool), s.canonical = true → pipe < 16 → Completes (.reloadComplete dt pipe pass) s (fun t => t.canonical = true)) ∧
  (∀ (s : State) (dt : Nat), s.canonical = true → Completes (.delayReqRx dt) s (fun t => t.canonical = true)) ∧
  (∀ (s : State) (dt : Nat), s.canonical = true → Completes (.unicastRequestRx dt) s (fun t => t.canonical = true)) ∧
  (∀ (s : State) (dt : Nat), s.canonical = true → Completes (.unicastCancelRx dt) s (fun t => t.canonical = true)) ∧
  (∀ (s : State) (dt : Nat), s.canonical = true → Completes (.grantExpire dt) s (fun t => t.canonical = true)) ∧
  (∀ (s : State) (dt : Nat), s.canonical = true → Completes (.slaveMessageRx dt) s (fun t => t.canonical = true)) ∧
  (∀ (s : State) (dt : Nat) (slave : Nat), s.canonical = true → slave < 2 → Completes (.annTimeout dt slave) s (fun t => t.canonical = true)) ∧
  (∀ (s : State) (dt : Nat) (slave : Nat), s.canonical = true → slave < 2 → Completes (.slaveGrantRenew dt slave) s (fun t => t.canonical = true)) ∧
  (∀ (s : State) (dt : Nat), s.canonical = true → Completes (.esmcRx dt) s (fun t => t.canonical = true)) ∧
  (∀ (s : State) (dt : Nat) (pipe : Nat), s.canonical = true → pipe < 16 → Completes (.etxelRequest dt pipe) s (fun t => t.canonical = true)) ∧
  (∀ (s : State) (dt : Nat) (pipe : Nat), s.canonical = true → pipe < 16 → Completes (.roughtimeRequest dt pipe) s (fun t => t.canonical = true)) ∧
  (∀ (s : State) (dt : Nat), s.canonical = true → Completes (.sealDone dt) s (fun t => t.canonical = true)) ∧
  (∀ (s : State) (dt : Nat), s.canonical = true → Completes (.sealTimeout dt) s (fun t => t.canonical = true)) ∧
  (∀ (s : State) (dt : Nat), s.canonical = true → Completes (.receiptRelease dt) s (fun t => t.canonical = true)) ∧
  (∀ (s : State) (dt : Nat), s.canonical = true → Completes (.onlineKeyExpire dt) s (fun t => t.canonical = true)) ∧
  (∀ (s : State) (dt : Nat) (src : Nat) (complement : Word), s.canonical = true → src < 5 → Completes (.rcpRotateNow dt src complement) s (fun t => t.canonical = true)) ∧
  (∀ (s : State) (dt : Nat) (src : Nat) (value : Word), s.canonical = true → src < 5 → Completes (.ltSlot dt src value) s (fun t => t.canonical = true)) ∧
  (∀ (s : State) (dt : Nat) (core : Nat), s.canonical = true → core < 16 → Completes (.ed25519Sign dt core) s (fun t => t.canonical = true)) ∧
  (∀ (s : State) (dt : Nat) (core : Nat), s.canonical = true → core < 16 → Completes (.ed25519Verify dt core) s (fun t => t.canonical = true)) ∧
  (∀ (s : State) (dt : Nat) (core : Nat), s.canonical = true → core < 16 → Completes (.ed448Sign dt core) s (fun t => t.canonical = true)) ∧
  (∀ (s : State) (dt : Nat) (core : Nat), s.canonical = true → core < 16 → Completes (.ed448Verify dt core) s (fun t => t.canonical = true)) ∧
  (∀ (s : State) (dt : Nat) (core : Nat), s.canonical = true → core < 16 → Completes (.x25519 dt core) s (fun t => t.canonical = true)) ∧
  (∀ (s : State) (dt : Nat) (core : Nat), s.canonical = true → core < 16 → Completes (.x448 dt core) s (fun t => t.canonical = true)) ∧
  (∀ (s : State) (dt : Nat) (core : Nat), s.canonical = true → core < 16 → Completes (.ecdsaSign dt core) s (fun t => t.canonical = true)) ∧
  (∀ (s : State) (dt : Nat) (core : Nat), s.canonical = true → core < 16 → Completes (.ecdsaVerify dt core) s (fun t => t.canonical = true)) ∧
  (∀ (s : State) (dt : Nat) (core : Nat), s.canonical = true → core < 16 → Completes (.ecdh dt core) s (fun t => t.canonical = true)) ∧
  (∀ (s : State) (dt : Nat) (core : Nat), s.canonical = true → core < 16 → Completes (.rsaPrivate dt core) s (fun t => t.canonical = true)) ∧
  (∀ (s : State) (dt : Nat) (core : Nat), s.canonical = true → core < 16 → Completes (.rsaPublic dt core) s (fun t => t.canonical = true)) ∧
  (∀ (s : State) (dt : Nat) (core : Nat), s.canonical = true → core < 16 → Completes (.keygen dt core) s (fun t => t.canonical = true)) ∧
  (∀ (s : State) (dt : Nat) (core : Nat), s.canonical = true → core < 16 → Completes (.keyImport dt core) s (fun t => t.canonical = true)) ∧
  (∀ (s : State) (dt : Nat), s.canonical = true → Completes (.keyWipe dt) s (fun t => t.canonical = true)) ∧
  (∀ (s : State) (dt : Nat), s.canonical = true → Completes (.keyPublic dt) s (fun t => t.canonical = true)) ∧
  (∀ (s : State) (dt : Nat) (core : Nat), s.canonical = true → core < 16 → Completes (.pkeDispatch dt core) s (fun t => t.canonical = true)) ∧
  (∀ (s : State) (dt : Nat) (core : Nat), s.canonical = true → core < 16 → Completes (.pkeYield dt core) s (fun t => t.canonical = true)) ∧
  (∀ (s : State) (dt : Nat), s.canonical = true → Completes (.pkeJobAged dt) s (fun t => t.canonical = true)) ∧
  (∀ (s : State) (dt : Nat) (core : Nat) (wiped : Bool), s.canonical = true → core < 16 → Completes (.pkeJobComplete dt core wiped) s (fun t => t.canonical = true)) ∧
  (∀ (s : State) (dt : Nat) (src : Nat) (tag complement : Word), s.canonical = true → src < 5 → Completes (.pkeAbort dt src tag complement) s (fun t => t.canonical = true)) ∧
  (∀ (s : State) (dt : Nat) (core phase tested : Nat), s.canonical = true → core < 16 → Completes (.keygenProgress dt core phase tested) s (fun t => t.canonical = true)) ∧
  (∀ (s : State) (dt : Nat), s.canonical = true → Completes (.drbgReseed dt) s (fun t => t.canonical = true)) ∧
  (∀ (s : State) (dt : Nat) (source : Nat) (repetition : Bool), s.canonical = true → source < 8 → Completes (.trngSourceFail dt source repetition) s (fun t => t.canonical = true)) ∧
  (∀ (s : State) (dt : Nat) (source : Nat) (pass : Bool), s.canonical = true → source < 8 → Completes (.trngSourceRetest dt source pass) s (fun t => t.canonical = true)) ∧
  (∀ (s : State) (dt : Nat) (src kind unit : Nat) (complement : Word), s.canonical = true → src < 5 → Completes (.fence dt src kind unit complement) s (fun t => t.canonical = true)) ∧
  (∀ (s : State) (dt : Nat) (src kind unit : Nat) (complement : Word), s.canonical = true → src < 5 → Completes (.returnUnit dt src kind unit complement) s (fun t => t.canonical = true)) ∧
  (∀ (s : State) (dt : Nat) (kind unit : Nat) (pass : Bool), s.canonical = true → Completes (.unitSelftestDone dt kind unit pass) s (fun t => t.canonical = true)) ∧
  (∀ (s : State) (dt : Nat), s.canonical = true → Completes (.kick dt) s (fun t => t.canonical = true)) ∧
  (∀ (s : State) (dt : Nat) (words : Option (List DoorbellWord)), s.canonical = true → Completes (.doorbellReadDone dt words) s (fun t => t.canonical = true)) ∧
  (∀ (s : State) (dt : Nat) (ring : Nat) (data : Option Bytes), s.canonical = true → ring < 256 → Completes (.hostFrameTx dt ring data) s (fun t => t.canonical = true)) ∧
  (∀ (s : State) (dt : Nat), s.canonical = true → Completes (.hostFrameTimeout dt) s (fun t => t.canonical = true)) ∧
  (∀ (s : State) (dt : Nat) (ring : Nat), s.canonical = true → ring < 256 → Completes (.recordFlush dt ring) s (fun t => t.canonical = true)) ∧
  (∀ (s : State) (dt : Nat) (ring : Nat) (data : Bytes) (readOk : Bool) (checked : Option Bool), s.canonical = true → ring < 256 → Completes (.xfer dt ring data readOk checked) s (fun t => t.canonical = true)) ∧
  (∀ (s : State) (dt : Nat) (vector : Nat), s.canonical = true → vector < 64 → Completes (.vectorTimer dt vector) s (fun t => t.canonical = true)) ∧
  (∀ (s : State) (dt : Nat), s.canonical = true → Completes (.blockEventCoalesce dt) s (fun t => t.canonical = true)) ∧
  (∀ (s : State) (dt : Nat) (ring : Nat), s.canonical = true → ring < 256 → Completes (.ringQuiesced dt ring) s (fun t => t.canonical = true)) ∧
  (∀ (s : State) (dt : Nat) (cause : Nat), s.canonical = true → cause < 5 → Completes (.hostDetach dt cause) s (fun t => t.canonical = true)) ∧
  (∀ (s : State) (dt : Nat) (speed width : Nat), s.canonical = true → Completes (.pcieLinkUp dt speed width) s (fun t => t.canonical = true)) ∧
  (∀ (s : State) (dt : Nat), s.canonical = true → Completes (.pcieRetrain dt) s (fun t => t.canonical = true)) ∧
  (∀ (s : State) (dt : Nat), s.canonical = true → Completes (.journalFlashWrite dt) s (fun t => t.canonical = true)) ∧
  (∀ (s : State) (dt : Nat) (fingerprint : Bytes) (proof : Bool) (issuers : List Bytes) (notBefore notAfter : Int), s.canonical = true → Completes (.sessionOpen dt fingerprint proof issuers notBefore notAfter) s (fun t => t.canonical = true)) ∧
  (∀ (s : State) (dt : Nat) (session : Nat), s.canonical = true → 1 ≤ session → session < 5 → Completes (.sessionIdle dt session) s (fun t => t.canonical = true)) ∧
  (∀ (s : State) (dt : Nat) (session : Nat) (alert : Bool), s.canonical = true → 1 ≤ session → session < 5 → Completes (.sessionClosed dt session alert) s (fun t => t.canonical = true)) ∧
  (∀ (s : State) (dt : Nat) (session type : Nat) (msg : MpMsg), s.canonical = true → 1 ≤ session → session < 5 → Completes (.celenHello dt session type msg) s (fun t => t.canonical = true)) ∧
  (∀ (s : State) (dt : Nat) (session : Nat) (msg : MpMsg), s.canonical = true → 1 ≤ session → session < 5 → Completes (.celenRead dt session msg) s (fun t => t.canonical = true)) ∧
  (∀ (s : State) (dt : Nat) (session : Nat) (msg : MpMsg), s.canonical = true → 1 ≤ session → session < 5 → Completes (.celenWrite dt session msg) s (fun t => t.canonical = true)) ∧
  (∀ (s : State) (dt : Nat) (session : Nat) (msg : MpMsg), s.canonical = true → 1 ≤ session → session < 5 → Completes (.celenRead64 dt session msg) s (fun t => t.canonical = true)) ∧
  (∀ (s : State) (dt : Nat) (session : Nat) (msg : MpMsg), s.canonical = true → 1 ≤ session → session < 5 → Completes (.celenSubscribe dt session msg) s (fun t => t.canonical = true)) ∧
  (∀ (s : State) (dt : Nat) (session : Nat) (msg : MpMsg), s.canonical = true → 1 ≤ session → session < 5 → Completes (.celenUnsubscribe dt session msg) s (fun t => t.canonical = true)) ∧
  (∀ (s : State) (dt : Nat) (session : Nat) (msg : MpMsg), s.canonical = true → 1 ≤ session → session < 5 → Completes (.journalRead dt session msg) s (fun t => t.canonical = true)) ∧
  (∀ (s : State) (dt : Nat) (session : Nat) (msg : MpMsg) (checked : Option Bool), s.canonical = true → 1 ≤ session → session < 5 → Completes (.celenStage dt session msg checked) s (fun t => t.canonical = true)) ∧
  (∀ (s : State) (dt : Nat) (session : Nat) (msg : MpMsg), s.canonical = true → 1 ≤ session → session < 5 → Completes (.celenNet dt session msg) s (fun t => t.canonical = true)) ∧
  (∀ (s : State) (dt : Nat) (session : Nat) (msg : MpMsg), s.canonical = true → 1 ≤ session → session < 5 → Completes (.celenTrust dt session msg) s (fun t => t.canonical = true)) ∧
  (∀ (s : State) (dt : Nat) (session : Nat) (msg : MpMsg), s.canonical = true → 1 ≤ session → session < 5 → Completes (.celenBye dt session msg) s (fun t => t.canonical = true)) ∧
  (∀ (s : State) (dt : Nat) (input : Nat) (sense : PowerSense), s.canonical = true → input < 4 → Completes (.inputQualified dt input sense) s (fun t => t.canonical = true)) ∧
  (∀ (s : State) (dt : Nat) (input : Nat) (sense : PowerSense), s.canonical = true → input < 4 → Completes (.inputLost dt input sense) s (fun t => t.canonical = true)) ∧
  (∀ (s : State) (dt : Nat), s.canonical = true → Completes (.mainPowerLost dt) s (fun t => t.canonical = true)) ∧
  (∀ (s : State) (dt : Nat), s.canonical = true → Completes (.kaLost dt) s (fun t => t.canonical = true)) ∧
  (∀ (s : State) (dt : Nat) (steps : List StepObs), s.canonical = true → Completes (.powerStart dt steps) s (fun t => t.canonical = true)) ∧
  (∀ (s : State) (dt : Nat) (steps : List StepObs), s.canonical = true → Completes (.stepTimeout dt steps) s (fun t => t.canonical = true)) ∧
  (∀ (s : State) (dt : Nat) (steps : List StepObs), s.canonical = true → Completes (.safeHoldRetry dt steps) s (fun t => t.canonical = true)) ∧
  (∀ (s : State) (dt : Nat), s.canonical = true → Completes (.stabilityReached dt) s (fun t => t.canonical = true)) ∧
  (∀ (s : State) (dt : Nat) (src : Nat) (complement : Word) (acts : Option (List StepObs)), s.canonical = true → src < 5 → Completes (.resetFull dt src complement acts) s (fun t => t.canonical = true)) ∧
  (∀ (s : State) (dt : Nat) (src : Nat) (complement : Word) (ends : Option (List Bool)), s.canonical = true → src < 5 → Completes (.resetMgmt dt src complement ends) s (fun t => t.canonical = true)) ∧
  (∀ (s : State) (dt : Nat) (ends : Option (List Bool)), s.canonical = true → Completes (.watchdog dt ends) s (fun t => t.canonical = true)) ∧
  (∀ (s : State) (dt : Nat) (steps : List StepObs), s.canonical = true → Completes (.supervisorSilent dt steps) s (fun t => t.canonical = true)) ∧
  (∀ (s : State) (dt : Nat) (sense : PowerSense), s.canonical = true → Completes (.thermWarn dt sense) s (fun t => t.canonical = true)) ∧
  (∀ (s : State) (dt : Nat) (sense : PowerSense), s.canonical = true → Completes (.thermalHold dt sense) s (fun t => t.canonical = true)) ∧
  (∀ (s : State) (dt : Nat) (sense : PowerSense) (steps : List StepObs), s.canonical = true → Completes (.thermalRecover dt sense steps) s (fun t => t.canonical = true)) ∧
  (∀ (s : State) (dt : Nat) (src : Nat) (complement : Word) (ends : Option Bool), s.canonical = true → src < 5 → Completes (.bootStore dt src complement ends) s (fun t => t.canonical = true)) ∧
  (∀ (s : State) (dt : Nat) (src : Nat) (complement : Word), s.canonical = true → src < 5 → Completes (.bootClear dt src complement) s (fun t => t.canonical = true)) ∧
  (∀ (s : State) (dt : Nat) (src : Nat) (complement : Word), s.canonical = true → src < 5 → Completes (.bootRetrain dt src complement) s (fun t => t.canonical = true)) ∧
  (∀ (s : State) (dt : Nat), s.canonical = true → Completes (.alarmConditionChange dt) s (fun t => t.canonical = true)) ∧
  (∀ (s : State) (dt : Nat) (contact : Nat), s.canonical = true → contact < 2 → Completes (.alarmCloseTimer dt contact) s (fun t => t.canonical = true)) ∧
  (∀ (s : State) (dt : Nat), s.canonical = true → Completes (.noSelectionTimer dt) s (fun t => t.canonical = true)) ∧
  (∀ (s : State) (dt : Nat), s.canonical = true → Completes (.casLinkTick dt) s (fun t => t.canonical = true)) ∧
  (∀ (s : State) (dt : Nat) (lane : Nat) (frame : Bytes) (ago fecUncorr : Nat), s.canonical = true → lane < 8 → Completes (.linkFrameRx dt lane frame ago fecUncorr) s (fun t => t.canonical = true)) ∧
  (∀ (s : State) (dt : Nat) (lane : Nat) (frame : Bytes), s.canonical = true → lane < 8 → Completes (.opReqRx dt lane frame) s (fun t => t.canonical = true)) ∧
  (∀ (s : State) (dt : Nat) (lane : Nat) (frame : Bytes), s.canonical = true → lane < 8 → Completes (.opRx dt lane frame) s (fun t => t.canonical = true)) ∧
  (∀ (s : State) (dt : Nat), s.canonical = true → Completes (.casBarrier dt) s (fun t => t.canonical = true)) ∧
  (∀ (s : State) (dt : Nat), s.canonical = true → Completes (.casBroadcast dt) s (fun t => t.canonical = true)) ∧
  (∀ (s : State) (dt : Nat), s.canonical = true → Completes (.casSnapshot dt) s (fun t => t.canonical = true)) ∧
  (∀ (s : State) (dt : Nat), s.canonical = true → Completes (.serviceReset dt) s (fun t => t.canonical = true)) ∧
  (∀ (s : State) (dt : Nat) (lane : Nat) (frame : Bytes), s.canonical = true → lane < 8 → Completes (.resultRx dt lane frame) s (fun t => t.canonical = true)) ∧
  (∀ (s : State) (dt : Nat), s.canonical = true → Completes (.resultDeadline dt) s (fun t => t.canonical = true)) ∧
  (∀ (s : State) (dt : Nat) (lane : Nat) (frame : Bytes), s.canonical = true → lane < 8 → Completes (.doneRx dt lane frame) s (fun t => t.canonical = true)) ∧
  (∀ (s : State) (dt : Nat), s.canonical = true → Completes (.requestTimeout dt) s (fun t => t.canonical = true)) ∧
  (∀ (s : State) (dt : Nat) (src lane : Nat), s.canonical = true → src < 5 → lane < 8 → Completes (.thetaLoLaneRead dt src lane) s (fun t => t.canonical = true)) ∧
  (∀ (s : State) (dt : Nat) (src : Nat), s.canonical = true → src < 5 → Completes (.opResult0Read dt src) s (fun t => t.canonical = true)) ∧
  (∀ (s : State) (dt : Nat) (src : Nat) (value : Word), s.canonical = true → src < 5 → Completes (.tallySel dt src value) s (fun t => t.canonical = true)) ∧
  (∀ (s : State) (dt : Nat) (src word : Nat) (value : Word), s.canonical = true → src < 5 → word < 2 → Completes (.stolenClear dt src word value) s (fun t => t.canonical = true)) ∧
  (∀ (s : State) (dt : Nat) (src : Nat) (value : Word), s.canonical = true → src < 5 → Completes (.sampleIndex dt src value) s (fun t => t.canonical = true)) ∧
  (∀ (s : State) (dt : Nat), s.canonical = true → Completes (.grantUnicastTransmissionRx dt) s (fun t => t.canonical = true)) ∧
  (∀ (s : State) (dt : Nat) (link : Nat) (last : Bool), s.canonical = true → link < 8 → Completes (.preemptableFrameSent dt link last) s (fun t => t.canonical = true)) ∧
  (∀ (s : State) (dt : Nat) (side chan cn0 state : Nat), s.canonical = true → side < 2 → chan < 160 → Completes (.signalAcquired dt side chan cn0 state) s (fun t => t.canonical = true)) ∧
  (∀ (s : State) (dt : Nat), s.canonical = true → Completes (.keeperFault dt) s (fun t => t.canonical = true))
end

