-- ==== Sys2Proof/Laws/Cells.lean ====
section
/-!
SUPPORT. Sparse storage: what a write is read back as, that it leaves every other key alone, and that every operation keeps the
canonical form.
-/

set_option Elab.async false

namespace Sys2Proof.Machine.CellList

variable {β : Type} [DecidableEq β]

/-- The canonical form as a proposition. -/
theorem wf_iff (d : Nat → β) (l : List (Nat × β)) :
    wf d l = true ↔ (∀ e ∈ l, e.2 ≠ d e.1) ∧ l.Pairwise (fun x y => x.1 < y.1) := by
  simp [wf]

omit [DecidableEq β] in
/-- The entries of a list with one more. -/
theorem mem_insert {a : Nat} {v : β} {l : List (Nat × β)} {e : Nat × β} (h : e ∈ insert a v l) : e = (a, v) ∨ e ∈ l := by
  induction l with
  | nil => simp [insert] at h; exact .inl h
  | cons x t ih =>
    obtain ⟨k, w⟩ := x
    simp only [insert] at h
    split at h
    · simp at h ⊢; tauto
    · split at h
      · simp at h ⊢; tauto
      · simp at h ⊢
        rcases h with h | h
        · tauto
        · rcases ih h with h | h <;> tauto

omit [DecidableEq β] in
/-- Removal adds nothing. -/
theorem mem_erase {a : Nat} {l : List (Nat × β)} {e : Nat × β} (h : e ∈ erase a l) : e ∈ l := by
  induction l with
  | nil => simp [erase] at h
  | cons x t ih =>
    obtain ⟨k, w⟩ := x
    simp only [erase] at h
    split at h
    · exact List.mem_cons_of_mem _ h
    · simp at h ⊢
      rcases h with h | h
      · exact .inl h
      · exact .inr (ih h)

omit [DecidableEq β] in
/-- Insertion keeps the keys rising. -/
theorem pairwise_insert (a : Nat) (v : β) (l : List (Nat × β)) (h : l.Pairwise (fun x y => x.1 < y.1)) :
    (insert a v l).Pairwise (fun x y => x.1 < y.1) := by
  induction l with
  | nil => simp [insert]
  | cons x t ih =>
    obtain ⟨k, w⟩ := x
    have hc := List.pairwise_cons.mp h
    simp only [insert]
    split
    · rename_i hak
      refine List.pairwise_cons.mpr ⟨fun y hy => ?_, h⟩
      rcases List.mem_cons.mp hy with rfl | hy
      · exact hak
      · exact Nat.lt_trans hak (hc.1 y hy)
    · split
      · rename_i _ hak
        subst hak
        exact List.pairwise_cons.mpr ⟨hc.1, hc.2⟩
      · rename_i h1 h2
        refine List.pairwise_cons.mpr ⟨fun y hy => ?_, ih hc.2⟩
        rcases mem_insert hy with rfl | hy
        · simp only; omega
        · exact hc.1 y hy

omit [DecidableEq β] in
/-- Removal keeps the keys rising. -/
theorem pairwise_erase (a : Nat) (l : List (Nat × β)) (h : l.Pairwise (fun x y => x.1 < y.1)) :
    (erase a l).Pairwise (fun x y => x.1 < y.1) := by
  induction l with
  | nil => simp [erase]
  | cons x t ih =>
    obtain ⟨k, w⟩ := x
    have hc := List.pairwise_cons.mp h
    simp only [erase]
    split
    · exact hc.2
    · exact List.pairwise_cons.mpr ⟨fun y hy => hc.1 y (mem_erase hy), ih hc.2⟩

/-- A write keeps the canonical form. -/
theorem wf_set (d : Nat → β) (l : List (Nat × β)) (a : Nat) (v : β) (h : wf d l = true) : wf d (set d l a v) = true := by
  rw [wf_iff] at h ⊢
  unfold set
  split
  · exact ⟨fun e he => h.1 e (mem_erase he), pairwise_erase a l h.2⟩
  · rename_i hv
    refine ⟨fun e he => ?_, pairwise_insert a v l h.2⟩
    rcases mem_insert he with rfl | he
    · exact hv
    · exact h.1 e he

/-- A selection of entries keeps the canonical form. -/
theorem wf_filter (d : Nat → β) (l : List (Nat × β)) (p : Nat × β → Bool) (h : wf d l = true) : wf d (l.filter p) = true := by
  rw [wf_iff] at h ⊢
  exact ⟨fun e he => h.1 e (List.mem_filter.mp he).1, h.2.filter _⟩

/-- Writes one after the other keep the canonical form. -/
theorem wf_foldl {γ : Type} (d : Nat → β) (f : γ → Nat) (g : γ → β) (xs : List γ) (l : List (Nat × β)) (h : wf d l = true) :
    wf d (xs.foldl (fun m x => set d m (f x) (g x)) l) = true := by
  induction xs generalizing l with
  | nil => exact h
  | cons x t ih => exact ih _ (wf_set d l (f x) (g x) h)

omit [DecidableEq β] in
/-- What a key reads as after an insertion. -/
theorem get_insert (d : Nat → β) (l : List (Nat × β)) (a b : Nat) (v : β) (h : l.Pairwise (fun x y => x.1 < y.1)) :
    get d (insert a v l) b = if b = a then v else get d l b := by
  induction l with
  | nil => simp [insert, get]
  | cons x t ih =>
    obtain ⟨k, w⟩ := x
    have hc := List.pairwise_cons.mp h
    simp only [insert]
    split
    · simp [get]
    · split
      · rename_i _ hak
        subst hak
        simp only [get]
        split <;> rfl
      · rename_i h1 h2
        simp only [get, ih hc.2]
        split
        · rename_i hbk; subst hbk
          rw [if_neg (by omega)]
        · rfl

omit [DecidableEq β] in
/-- A key below every listed key reads as the default. -/
theorem get_absent (d : Nat → β) (l : List (Nat × β)) (a : Nat) (h : ∀ e ∈ l, a < e.1) : get d l a = d a := by
  induction l with
  | nil => rfl
  | cons x t ih =>
    obtain ⟨k, w⟩ := x
    have h1 := h (k, w) (by simp)
    simp only [get]
    rw [if_neg (by simp at h1; omega)]
    exact ih fun e he => h e (List.mem_cons_of_mem _ he)

omit [DecidableEq β] in
/-- What a key reads as after a removal. -/
theorem get_erase (d : Nat → β) (l : List (Nat × β)) (a b : Nat) (h : l.Pairwise (fun x y => x.1 < y.1)) :
    get d (erase a l) b = if b = a then d a else get d l b := by
  induction l with
  | nil => simp [erase, get]; rintro rfl; rfl
  | cons x t ih =>
    obtain ⟨k, w⟩ := x
    have hc := List.pairwise_cons.mp h
    simp only [erase]
    split
    · rename_i hak
      subst hak
      split
      · rename_i hba; subst hba; exact get_absent d t _ hc.1
      · rename_i hba; simp [get, hba]
    · rename_i hak
      simp only [get, ih hc.2]
      split
      · rename_i hbk; subst hbk; rw [if_neg (by omega)]
      · rfl

/-- A write is read back. -/
theorem get_set (d : Nat → β) (l : List (Nat × β)) (a b : Nat) (v : β) (h : wf d l = true) :
    get d (set d l a v) b = if b = a then v else get d l b := by
  have hp := ((wf_iff d l).mp h).2
  unfold set
  split
  · rename_i hv
    rw [get_erase d l a b hp, hv]
  · exact get_insert d l a b v hp

end Sys2Proof.Machine.CellList
end

