-- ==== Sys2Proof/Laws/CanonBase.lean ====
section
/-!
SUPPORT. The canonical form of the sparse storage as a property of the state, and how a state made of parts has it.
-/

set_option Elab.async false

namespace Sys2Proof.Machine

/-- Registers, staging, pending copies: the canonical form of a word store. -/
def WordsOk (l : Cells Word) : Prop := CellList.wf resetOf l = true

/-- The canonical form of the running totals. -/
def TotalsOk (l : Cells Nat) : Prop := CellList.wf (fun _ => 0) l = true

/-- The canonical form of the snapshot region. -/
def SnapOk (g : Gnss) : Prop := CellList.wf (snapByte g.snapBase) g.snapMem = true

/-- The canonical form of the client table. -/
def TableOk (l : Cells ClientRec) : Prop := CellList.wf (fun _ => ClientRec.empty) l = true

/-- The calendar's entries stand in the order of their indices, each once. -/
def CalOk (l : Cells CalEntry) : Prop := CellList.rising l = true

/-- What every operation keeps, from a state `Q` on: the sparse storage is canonical, the queue is that of `Q`, and what had
left the module by `Q` stays as it is. -/
structure Can (Q s : State) : Prop where
  regs : WordsOk s.regs
  stage : WordsOk s.stage
  pendRegs : WordsOk s.pendRegs
  totals : TotalsOk s.totals
  snap : SnapOk s.gnss
  table : TableOk s.hrc.table
  cal : CalOk s.ts.calendar
  pending : s.pending = Q.pending
  out : Q.out <:+ s.out

/-- A canonical state has it from itself on. -/
theorem Can.start {s : State} (h : s.canonical = true) : Can s s := by
  simp only [State.canonical, Bool.and_eq_true] at h
  exact ⟨h.1.1.1.1.1.1, h.1.1.1.1.1.2, h.1.1.1.1.2, h.1.1.1.2, h.1.1.2, h.1.2, h.2, rfl, List.suffix_rfl⟩

/-- The form is that of Safety. -/
theorem Can.canonical {Q s : State} (h : Can Q s) : s.canonical = true := by
  simp only [State.canonical, Bool.and_eq_true]
  exact ⟨⟨⟨⟨⟨⟨h.regs, h.stage⟩, h.pendRegs⟩, h.totals⟩, h.snap⟩, h.table⟩, h.cal⟩

/-- A state with other fields changed. -/
theorem Can.with_ {Q : State} {s : State} {scrubAt : Nat} {groups : List GroupState} {sources : List SourceView}
    {latched : List Nat} {faultRead : Nat} {msix : List Word} {journal : Journal} {celen : Celen} {ts :
    Timescale} {hif : Hif} {refs : Refs} {hol : Hol} {gnss : Gnss} {ttu : Ttu} {ports : Ports} {hrc : Hrc} {nts : Nts} {ptp
    : Ptp} {pke : Pke} {rcp : Rcp} {tal : Tal} {cas : Cas} {pwr : Pwr} {boot : Boot} {fw : Fw} {fences : Cells Nat} {testing
    : Option (Nat × Nat)} {fresh : Nat} (h : Can Q s) (hc : ts.calendar = s.ts.calendar := by rfl)
    (hm : gnss.snapMem = s.gnss.snapMem := by rfl) (hb : gnss.snapBase = s.gnss.snapBase := by rfl)
    (ht : hrc.table = s.hrc.table := by rfl) :
    Can Q (State.mk s.regs s.stage s.pendRegs scrubAt groups sources latched faultRead s.totals msix journal celen ts hif refs hol gnss ttu ports
      hrc nts ptp pke rcp tal cas pwr boot fw fences testing s.out fresh s.pending) := ⟨h.regs, h.stage, h.pendRegs, h.totals, by
  unfold SnapOk; rw [hm, hb]; exact h.snap, ht ▸ h.table, hc ▸ h.cal, h.pending, h.out⟩

/-- A state with other staging words changed. -/
theorem Can.withStage {Q : State} {s : State} {scrubAt : Nat} {groups : List GroupState} {sources : List SourceView}
    {latched : List Nat} {faultRead : Nat} {msix : List Word} {journal : Journal} {celen : Celen} {ts :
    Timescale} {hif : Hif} {refs : Refs} {hol : Hol} {gnss : Gnss} {ttu : Ttu} {ports : Ports} {hrc : Hrc} {nts : Nts} {ptp
    : Ptp} {pke : Pke} {rcp : Rcp} {tal : Tal} {cas : Cas} {pwr : Pwr} {boot : Boot} {fw : Fw} {fences : Cells Nat} {testing
    : Option (Nat × Nat)} {fresh : Nat} (h : Can Q s) {x : Cells Word} (hx : WordsOk x) (hc : ts.calendar = s.ts.calendar := by rfl)
    (hm : gnss.snapMem = s.gnss.snapMem := by rfl) (hb : gnss.snapBase = s.gnss.snapBase := by rfl)
    (ht : hrc.table = s.hrc.table := by rfl) :
    Can Q (State.mk s.regs x s.pendRegs scrubAt groups sources latched faultRead s.totals msix journal celen ts hif refs hol gnss ttu ports
      hrc nts ptp pke rcp tal cas pwr boot fw fences testing s.out fresh s.pending) := ⟨h.regs, hx, h.pendRegs, h.totals, by
  unfold SnapOk; rw [hm, hb]; exact h.snap, ht ▸ h.table, hc ▸ h.cal, h.pending, h.out⟩

/-- A state with other registers changed. -/
theorem Can.withRegs {Q : State} {s : State} {scrubAt : Nat} {groups : List GroupState} {sources : List SourceView}
    {latched : List Nat} {faultRead : Nat} {msix : List Word} {journal : Journal} {celen : Celen} {ts :
    Timescale} {hif : Hif} {refs : Refs} {hol : Hol} {gnss : Gnss} {ttu : Ttu} {ports : Ports} {hrc : Hrc} {nts : Nts} {ptp
    : Ptp} {pke : Pke} {rcp : Rcp} {tal : Tal} {cas : Cas} {pwr : Pwr} {boot : Boot} {fw : Fw} {fences : Cells Nat} {testing
    : Option (Nat × Nat)} {fresh : Nat} (h : Can Q s) {x : Cells Word} (hx : WordsOk x) (hc : ts.calendar = s.ts.calendar := by rfl)
    (hm : gnss.snapMem = s.gnss.snapMem := by rfl) (hb : gnss.snapBase = s.gnss.snapBase := by rfl)
    (ht : hrc.table = s.hrc.table := by rfl) :
    Can Q (State.mk x s.stage s.pendRegs scrubAt groups sources latched faultRead s.totals msix journal celen ts hif refs hol gnss ttu ports
      hrc nts ptp pke rcp tal cas pwr boot fw fences testing s.out fresh s.pending) := ⟨hx, h.stage, h.pendRegs, h.totals, by
  unfold SnapOk; rw [hm, hb]; exact h.snap, ht ▸ h.table, hc ▸ h.cal, h.pending, h.out⟩

/-- A state with other pending copies changed. -/
theorem Can.withPend {Q : State} {s : State} {scrubAt : Nat} {groups : List GroupState} {sources : List SourceView}
    {latched : List Nat} {faultRead : Nat} {msix : List Word} {journal : Journal} {celen : Celen} {ts :
    Timescale} {hif : Hif} {refs : Refs} {hol : Hol} {gnss : Gnss} {ttu : Ttu} {ports : Ports} {hrc : Hrc} {nts : Nts} {ptp
    : Ptp} {pke : Pke} {rcp : Rcp} {tal : Tal} {cas : Cas} {pwr : Pwr} {boot : Boot} {fw : Fw} {fences : Cells Nat} {testing
    : Option (Nat × Nat)} {fresh : Nat} (h : Can Q s) {x : Cells Word} (hx : WordsOk x) (hc : ts.calendar = s.ts.calendar := by rfl)
    (hm : gnss.snapMem = s.gnss.snapMem := by rfl) (hb : gnss.snapBase = s.gnss.snapBase := by rfl)
    (ht : hrc.table = s.hrc.table := by rfl) :
    Can Q (State.mk s.regs s.stage x scrubAt groups sources latched faultRead s.totals msix journal celen ts hif refs hol gnss ttu ports
      hrc nts ptp pke rcp tal cas pwr boot fw fences testing s.out fresh s.pending) := ⟨h.regs, h.stage, hx, h.totals, by
  unfold SnapOk; rw [hm, hb]; exact h.snap, ht ▸ h.table, hc ▸ h.cal, h.pending, h.out⟩

/-- A state with the calendar changed. -/
theorem Can.withCal {Q : State} {s : State} {ts : Timescale} (h : Can Q s) (hc : CalOk ts.calendar) : Can Q { s with ts := ts } :=
  ⟨h.regs, h.stage, h.pendRegs, h.totals, h.snap, h.table, hc, h.pending, h.out⟩

/-- A state with the snapshot region changed. -/
theorem Can.withSnap {Q : State} {s : State} {gnss : Gnss} (h : Can Q s) (hm : SnapOk gnss) : Can Q { s with gnss := gnss } :=
  ⟨h.regs, h.stage, h.pendRegs, h.totals, hm, h.table, h.cal, h.pending, h.out⟩

/-- A state with the client table changed. -/
theorem Can.withTable {Q : State} {s : State} {hrc : Hrc} (h : Can Q s) (ht : TableOk hrc.table) : Can Q { s with hrc := hrc } :=
  ⟨h.regs, h.stage, h.pendRegs, h.totals, h.snap, ht, h.cal, h.pending, h.out⟩

/-- An entry put in. -/
theorem CalOk.insert {l : Cells CalEntry} (h : CalOk l) (a : Nat) (v : CalEntry) : CalOk (CellList.insert a v l) :=
  decide_eq_true (CellList.pairwise_insert _ _ _ (of_decide_eq_true h))

/-- An entry taken out. -/
theorem CalOk.erase {l : Cells CalEntry} (h : CalOk l) (a : Nat) : CalOk (CellList.erase a l) :=
  decide_eq_true (CellList.pairwise_erase _ _ (of_decide_eq_true h))

/-- A selection of entries. -/
theorem CalOk.filter {l : Cells CalEntry} (h : CalOk l) (p : Nat × CalEntry → Bool) : CalOk (l.filter p) :=
  decide_eq_true ((of_decide_eq_true h).filter _)

/-- Entries changed under their indices. -/
theorem CalOk.map {l : Cells CalEntry} (h : CalOk l) (f : Nat × CalEntry → Nat × CalEntry) (hf : ∀ e, (f e).1 = e.1) :
    CalOk (l.map f) :=
  decide_eq_true (List.pairwise_map.mpr ((of_decide_eq_true h).imp (fun k => by simpa [hf] using k)))

/-- A choice between two states. -/
theorem Can.ite {Q : State} {c : Prop} [Decidable c] {a b : State} (ha : Can Q a) (hb : Can Q b) : Can Q (if c then a else b) := by
  split <;> assumption

/-- A choice between two results with a state first. -/
theorem Can.ite1 {Q : State} {α : Type} {c : Prop} [Decidable c] {a b : State × α} (ha : Can Q a.1) (hb : Can Q b.1) :
    Can Q (if c then a else b).1 := by
  split <;> assumption

/-- A choice between two results with a state second. -/
theorem Can.ite2 {Q : State} {α : Type} {c : Prop} [Decidable c] {a b : α × State} (ha : Can Q a.2) (hb : Can Q b.2) :
    Can Q (if c then a else b).2 := by
  split <;> assumption

/-- A state that may be there is canonical if it is there. -/
def OptCan (Q : State) (o : Option State) : Prop := ∀ u, o = some u → Can Q u

/-- No state. -/
theorem OptCan.none {Q : State} : OptCan Q Option.none := fun _ h => nomatch h

/-- One state. -/
theorem OptCan.some {Q : State} {u : State} (h : Can Q u) : OptCan Q (Option.some u) := fun _ e => Option.some.inj e ▸ h

/-- A choice. -/
theorem OptCan.ite {Q : State} {c : Prop} [Decidable c] {a b : Option State} (ha : OptCan Q a) (hb : OptCan Q b) :
    OptCan Q (if c then a else b) := by
  split <;> assumption

/-- A word written. -/
theorem WordsOk.set {l : Cells Word} (h : WordsOk l) (a : Nat) (v : Word) : WordsOk (CellList.set resetOf l a v) :=
  CellList.wf_set _ _ _ _ h

/-- Words written one after the other. -/
theorem WordsOk.foldl {γ : Type} (f : γ → Nat) (g : γ → Word) (xs : List γ) {l : Cells Word} (h : WordsOk l) :
    WordsOk (xs.foldl (fun m x => CellList.set resetOf m (f x) (g x)) l) := CellList.wf_foldl _ _ _ _ _ h

/-- A selection of words. -/
theorem WordsOk.filter {l : Cells Word} (h : WordsOk l) (p : Nat × Word → Bool) : WordsOk (l.filter p) :=
  CellList.wf_filter _ _ _ h

/-- A total written. -/
theorem TotalsOk.set {l : Cells Nat} (h : TotalsOk l) (a v : Nat) : TotalsOk (CellList.set (fun _ => 0) l a v) :=
  CellList.wf_set _ _ _ _ h

/-- A command that always completes. -/
theorem after_can {Q : State} {dt : Nat} {s t : State} {f : State → State} (h : Can Q s) (e : after dt s f = .next t)
    (hf : ∀ u, Can Q u → Can Q (f u)) : Can Q t := by
  have k : Can Q (f (s.advance dt)) := hf _ h.with_
  unfold after at e
  injection e with e
  exact e ▸ k

/-- A command whose operands name units. -/
theorem afterIf_can {Q : State} {c : Bool} {dt : Nat} {s t : State} {f : State → State} (h : Can Q s) (e : afterIf c dt s f = .next t)
    (hf : ∀ u, Can Q u → Can Q (f u)) : Can Q t := by
  unfold afterIf at e
  split at e
  · exact after_can (dt := dt) h e hf
  · cases e

/-- A fold of operations that each keep the form. -/
theorem foldl_can {Q : State} {α : Type} (f : State → α → State) (hf : ∀ t x, Can Q t → Can Q (f t x)) :
    ∀ (l : List α) (s : State), Can Q s → Can Q (l.foldl f s)
  | [], _, h => h
  | x :: l, s, h => foldl_can f hf l (f s x) (hf s x h)

/-- A fold that carries a state second. -/
theorem foldl_can2 {Q : State} {α β : Type} (f : β × State → α → β × State) (hf : ∀ q x, Can Q q.2 → Can Q (f q x).2) :
    ∀ (l : List α) (q : β × State), Can Q q.2 → Can Q (l.foldl f q).2
  | [], _, h => h
  | x :: l, q, h => foldl_can2 f hf l (f q x) (hf q x h)

end Sys2Proof.Machine
end

