-- ==== Sys2Proof/Laws/CanonOps.lean ====
section
/-!
SUPPORT. The canonical form of the sparse storage through every operation of Machine/Ops.lean.
-/

set_option Elab.async false

namespace Sys2Proof.Machine

theorem State.wr_can (s : State) (a : Nat) (v : Word) {Q : State} (h : Can Q s) : Can Q (s.wr a v) :=
  ⟨h.regs.set a v, h.stage, h.pendRegs, h.totals, h.snap, h.table, h.cal, h.pending, h.out⟩

theorem State.sfW_can (s : State) (a lo n v : Nat) {Q : State} (h : Can Q s) : Can Q (State.sfW s a lo n v) := by
  unfold State.sfW
  repeat' first
    | with_reducible assumption
    | with_reducible apply State.wr_can

theorem State.setBit_can (s : State) (a i : Nat) (b : Bool) {Q : State} (h : Can Q s) : Can Q (State.setBit s a i b) := by
  unfold State.setBit
  repeat' first
    | with_reducible assumption
    | with_reducible apply State.sfW_can

theorem State.wr64_can (s : State) (a : Nat) (v : Int) {Q : State} (h : Can Q s) : Can Q (State.wr64 s a v) := by
  unfold State.wr64
  repeat' first
    | with_reducible assumption
    | with_reducible apply State.wr_can

theorem State.when_can (s : State) (c : Bool) (f : State → State) {Q : State} (h : Can Q s) (hf : ∀ t, Can Q t → Can Q (f t)) : Can Q (s.when c f) := by
  unfold State.when
  split
  · exact hf s h
  · exact h

theorem State.each_can {α : Type} (s : State) (l : List α) (f : α → State → State) {Q : State} (h : Can Q s)
    (hf : ∀ x t, Can Q t → Can Q (f x t)) : Can Q (s.each l f) := by
  unfold State.each
  induction l generalizing s with
  | nil => exact h
  | cons x t ih => exact ih (f x s) (hf x s h)

theorem State.advance_can (s : State) (dt : Nat) {Q : State} (h : Can Q s) : Can Q (State.advance s dt) := by
  unfold State.advance
  repeat' first
    | (extract_lets +onlyGivenNames z; rename' z => z')
    | with_reducible exact Can.with_ ‹_›

theorem State.wrInstant_can (s : State) (secLo secHi ns : Nat) (atNs : Nat) {Q : State} (h : Can Q s) : Can Q (State.wrInstant s secLo secHi ns atNs) := by
  unfold State.wrInstant
  repeat' first
    | with_reducible assumption
    | (extract_lets +onlyGivenNames z; rename' z => z')
    | with_reducible apply State.wr_can

theorem State.draw_can (s : State) {Q : State} (h : Can Q s) : Can Q (State.draw s).2 := by
  unfold State.draw
  repeat' first
    | with_reducible exact Can.with_ ‹_›

theorem State.draw_pair (s : State) {u : State} {x : _} (hq : (State.draw s) = (x, u)) {Q : State} (h : Can Q s) : Can Q u := by
  have k := State.draw_can s h
  rw [hq] at k
  exact k

theorem State.drawBytes_can (s : State) (n : Nat) {Q : State} (h : Can Q s) : Can Q (State.drawBytes s n).2 := by
  unfold State.drawBytes
  repeat' first
    | with_reducible exact Can.with_ ‹_›

theorem State.drawBytes_pair (s : State) (n : Nat) {u : State} {x : _} (hq : (State.drawBytes s n) = (x, u)) {Q : State} (h : Can Q s) : Can Q u := by
  have k := State.drawBytes_can s n h
  rw [hq] at k
  exact k

theorem State.count_can (s : State) (a n : Nat) {Q : State} (h : Can Q s) : Can Q (s.count a n) := by
  have key : ∀ v, Can Q { s with totals := if inTallySet a then CellList.set (fun _ => 0) s.totals a v else s.totals } := by
    intro v
    refine ⟨h.regs, h.stage, h.pendRegs, ?_, h.snap, h.table, h.cal, h.pending, h.out⟩
    dsimp only
    split
    · exact h.totals.set _ _
    · exact h.totals
  unfold State.count
  extract_lets total t
  have ht : Can Q t := key total
  clear_value t
  split
  · exact State.wr64_can _ _ _ ht
  · exact State.wr_can _ _ _ ht

theorem State.inc_can (s : State) (a : Nat) {Q : State} (h : Can Q s) : Can Q (State.inc s a) := by
  unfold State.inc
  repeat' first
    | with_reducible assumption
    | with_reducible apply State.count_can

theorem State.emit_can (s : State) (e : Emission) {Q : State} (h : Can Q s) : Can Q (State.emit s e) :=
  ⟨h.regs, h.stage, h.pendRegs, h.totals, h.snap, h.table, h.cal, h.pending, h.out.trans (List.suffix_cons _ _)⟩

theorem State.hostWrite_can (s : State) (addr : Nat) (d : Bytes) {Q : State} (h : Can Q s) : Can Q (State.hostWrite s addr d) := by
  unfold State.hostWrite
  repeat' first
    | with_reducible assumption
    | with_reducible apply State.emit_can

theorem State.setRing_can (s : State) (n : Nat) (f : Ring → Ring) {Q : State} (h : Can Q s) : Can Q (State.setRing s n f) := by
  unfold State.setRing
  repeat' first
    | (extract_lets +onlyGivenNames z; rename' z => z')
    | with_reducible exact Can.with_ ‹_›

theorem State.sendVec_can (s : State) (v : Nat) {Q : State} (h : Can Q s) : Can Q (State.sendVec s v) := by
  unfold State.sendVec
  repeat' first
    | (extract_lets +onlyGivenNames z; rename' z => z')
    | with_reducible apply Can.ite
    | with_reducible apply State.emit_can
    | with_reducible exact Can.with_ ‹_›

theorem State.pendItem_can (s : State) (n : Nat) {Q : State} (h : Can Q s) : Can Q (State.pendItem s n) := by
  unfold State.pendItem
  repeat' first
    | with_reducible assumption
    | (extract_lets +onlyGivenNames z; refine (fun (_ : Can Q z) => ?_) ?_; (on_goal 2 => (dsimp -zeta only [z]; clear z)); (on_goal 1 => rename' z => z'))
    | (extract_lets +onlyGivenNames z; rename' z => z')
    | with_reducible apply Can.ite
    | with_reducible apply State.sendVec_can
    | with_reducible exact Can.with_ ‹_›

theorem State.bumpPosted_can (s : State) (n : Nat) {Q : State} (h : Can Q s) : Can Q (State.bumpPosted s n) := by
  unfold State.bumpPosted
  repeat' first
    | with_reducible assumption
    | (extract_lets +onlyGivenNames z; rename' z => z')
    | with_reducible apply State.wr_can
    | with_reducible apply State.setRing_can

theorem State.postCompletion_can (s : State) (n slot status flags length : Nat) (user : Bytes) {Q : State} (h : Can Q s) : Can Q (State.postCompletion s n slot status flags length user) := by
  unfold State.postCompletion
  repeat' first
    | with_reducible assumption
    | (extract_lets +onlyGivenNames z; rename' z => z')
    | with_reducible apply State.hostWrite_can
    | with_reducible apply State.pendItem_can
    | with_reducible apply State.bumpPosted_can

theorem State.raiseBit_can (s : State) (reg b : Nat) {Q : State} (h : Can Q s) : Can Q (State.raiseBit s reg b) := by
  unfold State.raiseBit
  repeat' first
    | with_reducible assumption
    | with_reducible apply State.sfW_can

theorem State.evtDropped_can (s : State) {Q : State} (h : Can Q s) : Can Q (State.evtDropped s) := by
  unfold State.evtDropped
  repeat' first
    | with_reducible assumption
    | (extract_lets +onlyGivenNames z; refine (fun (_ : Can Q z) => ?_) ?_; (on_goal 2 => (dsimp -zeta only [z]; clear z)); (on_goal 1 => rename' z => z'))
    | (extract_lets +onlyGivenNames z; rename' z => z')
    | with_reducible apply Can.ite
    | with_reducible apply State.inc_can
    | with_reducible apply State.raiseBit_can

theorem State.postEvent_can (s : State) (type flags source : Nat) (stamp : Nat) (body : Bytes) {Q : State} (h : Can Q s) : Can Q (State.postEvent s type flags source stamp body) := by
  unfold State.postEvent
  repeat' first
    | with_reducible assumption
    | (extract_lets +onlyGivenNames z; rename' z => z')
    | with_reducible apply Can.ite
    | with_reducible apply State.hostWrite_can
    | with_reducible apply State.pendItem_can
    | with_reducible apply State.bumpPosted_can
    | with_reducible apply State.evtDropped_can
    | split

theorem State.sendEventMsg_can (s : State) (i : Nat) (sub : Subscription) (data : Bytes) {Q : State} (h : Can Q s) : Can Q (State.sendEventMsg s i sub data) := by
  unfold State.sendEventMsg
  repeat' first
    | with_reducible assumption
    | (extract_lets +onlyGivenNames z; refine (fun (_ : Can Q z) => ?_) ?_; (on_goal 2 => (dsimp -zeta only [z]; clear z)); (on_goal 1 => rename' z => z'))
    | (extract_lets +onlyGivenNames z; rename' z => z')
    | with_reducible apply State.emit_can
    | with_reducible exact Can.with_ ‹_›

theorem State.blockEvent_can (s : State) (dest reg : Nat) {Q : State} (h : Can Q s) : Can Q (State.blockEvent s dest reg) := by
  unfold State.blockEvent
  repeat' first
    | with_reducible assumption
    | (extract_lets +onlyGivenNames z; refine (fun (_ : Can Q z) => ?_) ?_; (on_goal 2 => (dsimp -zeta only [z]; clear z)); (on_goal 1 => rename' z => z'))
    | (extract_lets +onlyGivenNames z; rename' z => z')
    | with_reducible apply Can.ite
    | with_reducible apply State.postEvent_can
    | with_reducible apply State.sendEventMsg_can
    | with_reducible exact Can.with_ ‹_›
    | split

theorem State.noteEvent_can (s : State) (dest reg : Nat) {Q : State} (h : Can Q s) : Can Q (State.noteEvent s dest reg) := by
  unfold State.noteEvent
  repeat' first
    | with_reducible assumption
    | (extract_lets +onlyGivenNames z; rename' z => z')
    | with_reducible apply Can.ite
    | with_reducible apply State.blockEvent_can
    | with_reducible exact Can.with_ ‹_›

theorem State.raise_can (s : State) (reg b : Nat) {Q : State} (h : Can Q s) : Can Q (State.raise s reg b) := by
  unfold State.raise
  repeat' first
    | with_reducible assumption
    | intro _
    | (extract_lets +onlyGivenNames z; refine (fun (_ : Can Q z) => ?_) ?_; (on_goal 2 => (dsimp -zeta only [z]; clear z)); (on_goal 1 => rename' z => z'))
    | (extract_lets +onlyGivenNames z; rename' z => z')
    | with_reducible apply Can.ite
    | with_reducible apply State.each_can
    | with_reducible apply State.raiseBit_can
    | with_reducible apply State.noteEvent_can
    | split

theorem State.progressRecord_can (s : State) (addr seq phase status progress resAddr resLen owner tag : Nat) {Q : State} (h : Can Q s) : Can Q (State.progressRecord s addr seq phase status progress resAddr resLen owner tag) := by
  unfold State.progressRecord
  repeat' first
    | with_reducible assumption
    | with_reducible apply State.hostWrite_can

theorem State.ringDrop_can (s : State) (n : Nat) {Q : State} (h : Can Q s) : Can Q (State.ringDrop s n) := by
  unfold State.ringDrop
  repeat' first
    | with_reducible assumption
    | (extract_lets +onlyGivenNames z; refine (fun (_ : Can Q z) => ?_) ?_; (on_goal 2 => (dsimp -zeta only [z]; clear z)); (on_goal 1 => rename' z => z'))
    | (extract_lets +onlyGivenNames z; rename' z => z')
    | with_reducible apply Can.ite
    | with_reducible apply State.inc_can
    | with_reducible apply State.setRing_can
    | with_reducible apply State.postEvent_can

theorem State.settleBad_can (s : State) (n : Nat) {Q : State} (h : Can Q s) : Can Q (State.settleBad s n) := by
  unfold State.settleBad
  repeat' first
    | with_reducible assumption
    | intro _
    | (extract_lets +onlyGivenNames z; refine (fun (_ : Can Q z) => ?_) ?_; (on_goal 2 => (dsimp -zeta only [z]; clear z)); (on_goal 1 => rename' z => z'))
    | (extract_lets +onlyGivenNames z; rename' z => z')
    | with_reducible apply Can.ite
    | with_reducible apply State.each_can
    | with_reducible apply State.setRing_can
    | with_reducible apply State.postCompletion_can

theorem State.flushBuffer_can (s : State) (n : Nat) {Q : State} (h : Can Q s) : Can Q (State.flushBuffer s n) := by
  unfold State.flushBuffer
  repeat' first
    | with_reducible assumption
    | (extract_lets +onlyGivenNames z; rename' z => z')
    | with_reducible apply State.setRing_can
    | with_reducible apply State.postCompletion_can
    | with_reducible apply State.settleBad_can
    | split

theorem State.makeRoom_can (s : State) (n len : Nat) {Q : State} (h : Can Q s) : Can Q (State.makeRoom s n len) := by
  unfold State.makeRoom
  repeat' first
    | with_reducible assumption
    | with_reducible apply Can.ite
    | with_reducible apply State.flushBuffer_can
    | split

theorem State.putRecord_can (s : State) (n : Nat) (d : Bytes) {Q : State} (h : Can Q s) : Can Q (State.putRecord s n d).1 := by
  unfold State.putRecord
  repeat' first
    | with_reducible assumption
    | (extract_lets +onlyGivenNames z; refine (fun (_ : Can Q z) => ?_) ?_; (on_goal 2 => (dsimp -zeta only [z]; clear z)); (on_goal 1 => rename' z => z'))
    | (extract_lets +onlyGivenNames z; rename' z => z')
    | with_reducible apply Can.ite1
    | with_reducible apply State.hostWrite_can
    | with_reducible apply State.setRing_can
    | with_reducible apply State.makeRoom_can
    | split

theorem State.putRecord_pair (s : State) (n : Nat) (d : Bytes) {u : State} {x : _} (hq : (State.putRecord s n d) = (u, x)) {Q : State} (h : Can Q s) : Can Q u := by
  have k := State.putRecord_can s n d h
  rw [hq] at k
  exact k

theorem State.recordOrDrop_can (s : State) (n source : Nat) (d : Bytes) {Q : State} (h : Can Q s) : Can Q (State.recordOrDrop s n source d).1 := by
  unfold State.recordOrDrop
  repeat' first
    | with_reducible assumption
    | (extract_lets +onlyGivenNames z; refine (fun (_ : Can Q z.1) => ?_) ?_; (on_goal 2 => (dsimp -zeta only [z]; clear z)); (on_goal 1 => rename' z => z'))
    | with_reducible apply Can.ite1
    | with_reducible apply State.ringDrop_can
    | with_reducible apply State.putRecord_can

theorem State.recordOrDrop_pair (s : State) (n source : Nat) (d : Bytes) {u : State} {x : _} (hq : (State.recordOrDrop s n source d) = (u, x)) {Q : State} (h : Can Q s) : Can Q u := by
  have k := State.recordOrDrop_can s n source d h
  rw [hq] at k
  exact k

theorem State.pumpJournal_can (s : State) {Q : State} (h : Can Q s) : Can Q (State.pumpJournal s) := by
  unfold State.pumpJournal
  repeat' first
    | with_reducible assumption
    | intro _
    | (extract_lets +onlyGivenNames z; refine (fun (_ : Can Q z) => ?_) ?_; (on_goal 2 => (dsimp -zeta only [z]; clear z)); (on_goal 1 => rename' z => z'))
    | (extract_lets +onlyGivenNames z; refine (fun (_ : Can Q z.1) => ?_) ?_; (on_goal 2 => (dsimp -zeta only [z]; clear z)); (on_goal 1 => rename' z => z'))
    | (extract_lets +onlyGivenNames z; rename' z => z')
    | with_reducible apply Can.ite
    | with_reducible apply State.putRecord_can
    | with_reducible apply foldl_can
    | with_reducible exact Can.with_ ‹_›
    | split

theorem State.streamJournal_can (s : State) {Q : State} (h : Can Q s) : Can Q (State.streamJournal s) := by
  unfold State.streamJournal
  repeat' first
    | with_reducible assumption
    | intro _
    | (extract_lets +onlyGivenNames z; refine (fun (_ : Can Q z) => ?_) ?_; (on_goal 2 => (dsimp -zeta only [z]; clear z)); (on_goal 1 => rename' z => z'))
    | (extract_lets +onlyGivenNames z; rename' z => z')
    | with_reducible apply Can.ite
    | with_reducible apply State.each_can
    | with_reducible apply State.emit_can
    | with_reducible exact Can.with_ ‹_›
    | split

theorem State.journalize_can (s : State) (kind : Nat) (src : Source) (addr outcome : Nat) (body : Bytes) {Q : State} (h : Can Q s) : Can Q (State.journalize s kind src addr outcome body) := by
  unfold State.journalize
  repeat' first
    | with_reducible assumption
    | (extract_lets +onlyGivenNames z; refine (fun (_ : Can Q z) => ?_) ?_; (on_goal 2 => (dsimp -zeta only [z]; clear z)); (on_goal 1 => rename' z => z'))
    | (extract_lets +onlyGivenNames z; rename' z => z')
    | with_reducible apply Can.ite
    | with_reducible apply State.wr_can
    | with_reducible apply State.count_can
    | with_reducible apply State.raise_can
    | with_reducible apply State.pumpJournal_can
    | with_reducible apply State.streamJournal_can
    | with_reducible exact Can.with_ ‹_›

theorem State.journalBlock_can (s : State) (kind : Nat) (src : Source) (block addr outcome : Nat) (body : Bytes) {Q : State} (h : Can Q s) : Can Q (State.journalBlock s kind src block addr outcome body) := by
  unfold State.journalBlock
  repeat' first
    | with_reducible assumption
    | (extract_lets +onlyGivenNames z; refine (fun (_ : Can Q z) => ?_) ?_; (on_goal 2 => (dsimp -zeta only [z]; clear z)); (on_goal 1 => rename' z => z'))
    | (extract_lets +onlyGivenNames z; rename' z => z')
    | with_reducible apply State.journalize_can
    | with_reducible exact Can.with_ ‹_›

theorem State.logFault_can (s : State) (code : Nat) (src : Source) (block addr value access detail : Nat) {Q : State} (h : Can Q s) : Can Q (State.logFault s code src block addr value access detail) := by
  unfold State.logFault
  repeat' first
    | with_reducible assumption
    | intro _
    | (extract_lets +onlyGivenNames z; refine (fun (_ : Can Q z) => ?_) ?_; (on_goal 2 => (dsimp -zeta only [z]; clear z)); (on_goal 1 => rename' z => z'))
    | (extract_lets +onlyGivenNames z; rename' z => z')
    | with_reducible apply Can.ite
    | with_reducible apply State.wr_can
    | with_reducible apply State.each_can
    | with_reducible apply State.inc_can
    | with_reducible apply State.postEvent_can
    | with_reducible apply State.sendEventMsg_can
    | with_reducible apply State.raise_can
    | with_reducible apply State.journalBlock_can
    | split

theorem State.calUsed_can (s : State) {Q : State} (h : Can Q s) : Can Q (State.calUsed s) := by
  unfold State.calUsed
  repeat' first
    | with_reducible assumption
    | with_reducible apply State.sfW_can

theorem State.calPut_can (s : State) (i : Nat) (e : CalEntry) {Q : State} (h : Can Q s) : Can Q (State.calPut s i e) :=
  State.calUsed_can _ (Can.withCal h (h.cal.insert _ _))

theorem State.calFree_can (s : State) (i : Nat) {Q : State} (h : Can Q s) : Can Q (State.calFree s i) :=
  State.calUsed_can _ (Can.withCal h (h.cal.erase _))

theorem State.calNew_can (s : State) (e : CalEntry) {Q : State} (h : Can Q s) : Can Q (State.calNew s e).2 := by
  unfold State.calNew
  repeat' first
    | with_reducible assumption
    | (extract_lets +onlyGivenNames z; rename' z => z')
    | with_reducible apply State.calPut_can

theorem State.calNew_pair (s : State) (e : CalEntry) {u : State} {x : _} (hq : (State.calNew s e) = (x, u)) {Q : State} (h : Can Q s) : Can Q u := by
  have k := State.calNew_can s e h
  rw [hq] at k
  exact k

theorem State.calDrop_can (s : State) (action target : Nat) {Q : State} (h : Can Q s) : Can Q (State.calDrop s action target) :=
  State.calUsed_can _ (Can.withCal h (h.cal.filter _))

theorem State.calOwn_can (s : State) (e : CalEntry) {Q : State} (h : Can Q s) : Can Q (State.calOwn s e) := by
  unfold State.calOwn
  repeat' first
    | with_reducible assumption
    | with_reducible apply State.calNew_can
    | with_reducible apply State.calDrop_can

theorem State.rearm_can (s : State) (i : Nat) (e : CalEntry) {Q : State} (h : Can Q s) : Can Q (State.rearm s i e) := by
  unfold State.rearm
  repeat' first
    | with_reducible assumption
    | with_reducible apply Can.ite
    | with_reducible apply State.calPut_can
    | with_reducible apply State.calFree_can

theorem State.fireEntry_can (s : State) (i : Nat) (e : CalEntry) {Q : State} (h : Can Q s) : Can Q (State.fireEntry s i e) := by
  unfold State.fireEntry
  repeat' first
    | with_reducible assumption
    | (extract_lets +onlyGivenNames z; refine (fun (_ : Can Q z) => ?_) ?_; (on_goal 2 => (dsimp -zeta only [z]; clear z)); (on_goal 1 => rename' z => z'))
    | (extract_lets +onlyGivenNames z; rename' z => z')
    | with_reducible apply Can.ite
    | with_reducible apply State.inc_can
    | with_reducible apply State.raise_can
    | with_reducible apply State.rearm_can

theorem State.fireDue_can (s : State) (p : CalEntry → Bool) (f : CalEntry → State → State) {Q : State} (h : Can Q s) (hf : ∀ x0 t, Can Q t → Can Q (f x0 t)) : Can Q (State.fireDue s p f) := by
  unfold State.fireDue
  repeat' first
    | with_reducible assumption
    | with_reducible apply hf
    | with_reducible apply State.fireEntry_can
    | split



end Sys2Proof.Machine
end

