-- ==== Sys2Proof/Laws/CanonRegisters.lean ====
section
/-!
SUPPORT. The canonical form of the sparse storage through every operation of Machine/Registers.lean.
-/

set_option Elab.async false

namespace Sys2Proof.Machine

theorem State.setView_can (s : State) (src : Source) (f : SourceView → SourceView) {Q : State} (h : Can Q s) : Can Q (State.setView s src f) := by
  unfold State.setView
  repeat' first
    | with_reducible exact Can.with_ ‹_›

theorem State.setGroup_can (s : State) (g : Nat) (f : GroupState → GroupState) {Q : State} (h : Can Q s) : Can Q (State.setGroup s g f) := by
  unfold State.setGroup
  repeat' first
    | with_reducible exact Can.with_ ‹_›

theorem State.stageMoved_can (s : State) (g : Nat) {Q : State} (h : Can Q s) : Can Q (State.stageMoved s g) := by
  unfold State.stageMoved
  repeat' first
    | with_reducible assumption
    | with_reducible apply State.sfW_can

theorem State.accessFault_can (s : State) (src : Source) (a value be : Nat) (write : Bool) {Q : State} (h : Can Q s) : Can Q (State.accessFault s src a value be write) := by
  unfold State.accessFault
  repeat' first
    | with_reducible assumption
    | with_reducible apply State.logFault_can

theorem State.domainFault_can (s : State) (src : Source) (a value : Nat) (write : Bool) {Q : State} (h : Can Q s) : Can Q (State.domainFault s src a value write) := by
  unfold State.domainFault
  repeat' first
    | with_reducible assumption
    | with_reducible apply State.logFault_can

theorem State.testControl_can (s : State) (src : Source) (a : Nat) (old v : Word) {Q : State} (h : Can Q s) : Can Q (State.testControl s src a old v) := by
  unfold State.testControl
  repeat' first
    | with_reducible assumption
    | (extract_lets +onlyGivenNames z; rename' z => z')
    | with_reducible apply Can.ite
    | with_reducible apply State.journalize_can
    | with_reducible apply State.logFault_can
    | split

theorem State.sqWrite_can (s : State) (a : Nat) (v : Word) {Q : State} (h : Can Q s) : Can Q (State.sqWrite s a v) := by
  unfold State.sqWrite
  repeat' first
    | with_reducible assumption
    | (extract_lets +onlyGivenNames z; rename' z => z')
    | with_reducible apply Can.ite
    | with_reducible apply State.wr_can
    | with_reducible apply State.inc_can

theorem State.stageWrite_can (s : State) (src : Source) (g a : Nat) (v : Word) {Q : State} (h : Can Q s) : Can Q (State.stageWrite s src g a v) := by
  unfold State.stageWrite
  repeat' first
    | with_reducible assumption
    | (extract_lets +onlyGivenNames z; refine (fun (_ : Can Q z) => ?_) ?_; (on_goal 2 => (dsimp -zeta only [z]; clear z)); (on_goal 1 => rename' z => z'))
    | with_reducible apply State.setGroup_can
    | with_reducible apply State.stageMoved_can
    | with_reducible apply State.testControl_can
    | (with_reducible refine Can.withStage ‹_› ?_)
    | with_reducible exact Can.stage ‹_›
    | with_reducible apply WordsOk.set

theorem State.lkWrite_can (s : State) (src : Source) (a : Nat) (v : Word) (onLatch : State → State) {Q : State} (h : Can Q s) (honLatch : ∀ t, Can Q t → Can Q (onLatch t)) : Can Q (State.lkWrite s src a v onLatch) := by
  unfold State.lkWrite
  repeat' first
    | with_reducible assumption
    | with_reducible apply honLatch
    | with_reducible apply Can.ite
    | with_reducible apply State.wr_can
    | with_reducible apply State.journalize_can
    | with_reducible apply State.logFault_can
    | with_reducible exact Can.with_ ‹_›

theorem State.guardFault_can (s : State) (src : Source) (x value detail : Nat) {Q : State} (h : Can Q s) : Can Q (State.guardFault s src x value detail) := by
  unfold State.guardFault
  repeat' first
    | with_reducible assumption
    | with_reducible apply State.logFault_can

theorem State.closePair_can (s : State) (src : Source) {Q : State} (h : Can Q s) : Can Q (State.closePair s src) := by
  unfold State.closePair
  repeat' first
    | with_reducible assumption
    | with_reducible apply State.setView_can

theorem State.countWrite_can (s : State) (src : Source) {Q : State} (h : Can Q s) : Can Q (State.countWrite s src) := by
  unfold State.countWrite
  repeat' first
    | with_reducible assumption
    | (extract_lets +onlyGivenNames z; rename' z => z')
    | with_reducible apply Can.ite
    | with_reducible apply State.setView_can
    | with_reducible apply State.guardFault_can
    | with_reducible apply State.closePair_can
    | split

theorem State.gdValue_can (s : State) (src : Source) (x : Nat) (v : Word) {Q : State} (h : Can Q s) : Can Q (State.gdValue s src x v) := by
  unfold State.gdValue
  repeat' first
    | with_reducible assumption
    | (extract_lets +onlyGivenNames z; refine (fun (_ : Can Q z) => ?_) ?_; (on_goal 2 => (dsimp -zeta only [z]; clear z)); (on_goal 1 => rename' z => z'))
    | with_reducible apply State.setView_can
    | with_reducible apply State.guardFault_can
    | with_reducible apply State.closePair_can
    | split

theorem State.gdComplement_can (s : State) (src : Source) (x : Nat) (c : Word) (ok : Word → Bool) (act : Word → State → State) {Q : State} (h : Can Q s) (hact : ∀ x0 t, Can Q t → Can Q (act x0 t)) : Can Q (State.gdComplement s src x c ok act) := by
  unfold State.gdComplement
  repeat' first
    | with_reducible assumption
    | (extract_lets +onlyGivenNames z; refine (fun (_ : Can Q z) => ?_) ?_; (on_goal 2 => (dsimp -zeta only [z]; clear z)); (on_goal 1 => rename' z => z'))
    | with_reducible apply hact
    | with_reducible apply Can.ite
    | with_reducible apply State.wr_can
    | with_reducible apply State.journalize_can
    | with_reducible apply State.guardFault_can
    | with_reducible apply State.closePair_can
    | split

theorem State.guarded_can (s : State) (src : Source) (x : Nat) (v c : Word) (ok : Word → Bool) (act : Word → State → State) {Q : State} (h : Can Q s) (hact : ∀ x0 t, Can Q t → Can Q (act x0 t)) : Can Q (State.guarded s src x v c ok act) := by
  unfold State.guarded
  repeat' first
    | with_reducible assumption
    | (extract_lets +onlyGivenNames z; refine (fun (_ : Can Q z) => ?_) ?_; (on_goal 2 => (dsimp -zeta only [z]; clear z)); (on_goal 1 => rename' z => z'))
    | with_reducible apply State.countWrite_can
    | with_reducible apply State.gdValue_can
    | with_reducible apply State.gdComplement_can

theorem State.stolen_can (s : State) (src : Source) (b : Nat) {Q : State} (h : Can Q s) : Can Q (State.stolen s src b) := by
  unfold State.stolen
  repeat' first
    | with_reducible exact Can.with_ ‹_›

theorem State.crRead_can (s : State) (src : Source) (a : Nat) {Q : State} (h : Can Q s) : Can Q (State.crRead s src a).2 := by
  unfold State.crRead
  repeat' first
    | with_reducible assumption
    | (extract_lets +onlyGivenNames z; refine (fun (_ : Can Q z) => ?_) ?_; (on_goal 2 => (dsimp -zeta only [z]; clear z)); (on_goal 1 => rename' z => z'))
    | (extract_lets +onlyGivenNames z; rename' z => z')
    | with_reducible apply Can.ite2
    | with_reducible apply Can.ite
    | with_reducible apply State.wr_can
    | with_reducible apply State.stolen_can
    | split

theorem State.crRead_pair (s : State) (src : Source) (a : Nat) {u : State} {x : _} (hq : (State.crRead s src a) = (x, u)) {Q : State} (h : Can Q s) : Can Q u := by
  have k := State.crRead_can s src a h
  rw [hq] at k
  exact k

theorem State.readWord_can (s : State) (src : Source) (a : Nat) {Q : State} (h : Can Q s) : Can Q (State.readWord s src a).2 := by
  unfold State.readWord
  repeat' first
    | with_reducible assumption
    | (extract_lets +onlyGivenNames z; refine (fun (_ : Can Q z.2) => ?_) ?_; (on_goal 2 => (dsimp -zeta only [z]; clear z)); (on_goal 1 => rename' z => z'))
    | with_reducible apply Can.ite2
    | with_reducible apply Can.ite
    | with_reducible apply State.domainFault_can
    | with_reducible apply State.crRead_can
    | with_reducible exact Can.with_ ‹_›
    | split

theorem State.readWord_pair (s : State) (src : Source) (a : Nat) {u : State} {x : _} (hq : (State.readWord s src a) = (x, u)) {Q : State} (h : Can Q s) : Can Q u := by
  have k := State.readWord_can s src a h
  rw [hq] at k
  exact k

end Sys2Proof.Machine
end

