-- ==== Sys2Proof/Laws/CanonRings.lean ====
section
/-!
SUPPORT. The canonical form of the sparse storage through every operation of Machine/Rings.lean.
-/

set_option Elab.async false

namespace Sys2Proof.Machine

theorem State.showRing_can (s : State) (n : Nat) {Q : State} (h : Can Q s) : Can Q (State.showRing s n) := by
  unfold State.showRing
  repeat' first
    | with_reducible assumption
    | with_reducible apply State.sfW_can

theorem State.setRingState_can (s : State) (n st reason : Nat) {Q : State} (h : Can Q s) : Can Q (State.setRingState s n st reason) := by
  unfold State.setRingState
  repeat' first
    | with_reducible assumption
    | intro _
    | (extract_lets +onlyGivenNames z; refine (fun (_ : Can Q z) => ?_) ?_; (on_goal 2 => (dsimp -zeta only [z]; clear z)); (on_goal 1 => rename' z => z'))
    | with_reducible apply Can.ite
    | with_reducible apply State.sfW_can
    | with_reducible apply State.when_can
    | with_reducible apply State.postEvent_can
    | with_reducible apply State.raise_can

theorem State.ringError_can (s : State) (n reason : Nat) {Q : State} (h : Can Q s) : Can Q (State.ringError s n reason) := by
  unfold State.ringError
  repeat' first
    | with_reducible assumption
    | with_reducible apply Can.ite
    | with_reducible apply State.setRingState_can

theorem State.ringIdle_can (s : State) (n : Nat) {Q : State} (h : Can Q s) : Can Q (State.ringIdle s n) := by
  unfold State.ringIdle
  repeat' first
    | with_reducible assumption
    | with_reducible apply Can.ite
    | with_reducible apply State.setRingState_can

theorem State.drainRing_can (s : State) (n : Nat) {Q : State} (h : Can Q s) : Can Q (State.drainRing s n) := by
  unfold State.drainRing
  repeat' first
    | with_reducible assumption
    | intro _
    | (extract_lets +onlyGivenNames z; refine (fun (_ : Can Q z) => ?_) ?_; (on_goal 2 => (dsimp -zeta only [z]; clear z)); (on_goal 1 => rename' z => z'))
    | (extract_lets +onlyGivenNames z; rename' z => z')
    | with_reducible apply Can.ite
    | with_reducible apply State.each_can
    | with_reducible apply State.setRing_can
    | with_reducible apply State.postCompletion_can
    | with_reducible apply State.showRing_can

theorem State.endWork_can (s : State) (n slot status length : Nat) {Q : State} (h : Can Q s) : Can Q (State.endWork s n slot status length) := by
  unfold State.endWork
  repeat' first
    | with_reducible assumption
    | with_reducible apply State.setRing_can
    | with_reducible apply State.drainRing_can

theorem State.endJob_can (s : State) (n slot status length : Nat) {Q : State} (h : Can Q s) : Can Q (State.endJob s n slot status length) := by
  unfold State.endJob
  repeat' first
    | with_reducible assumption
    | (extract_lets +onlyGivenNames z; refine (fun (_ : Can Q z) => ?_) ?_; (on_goal 2 => (dsimp -zeta only [z]; clear z)); (on_goal 1 => rename' z => z'))
    | with_reducible apply Can.ite
    | with_reducible apply State.setRing_can
    | with_reducible apply State.postCompletion_can
    | with_reducible apply State.showRing_can
    | split

theorem State.startWork_can (s : State) (n : Nat) {Q : State} (h : Can Q s) : Can Q (State.startWork s n).2 := by
  unfold State.startWork
  repeat' first
    | with_reducible assumption
    | with_reducible apply State.setRing_can
    | with_reducible apply State.settleBad_can
    | split

theorem State.startWork_pair (s : State) (n : Nat) {u : State} {x : _} (hq : (State.startWork s n) = (x, u)) {Q : State} (h : Can Q s) : Can Q u := by
  have k := State.startWork_can s n h
  rw [hq] at k
  exact k

theorem State.giveBuffer_can (s : State) (n : Nat) (p : Desc × Bytes × Nat) {Q : State} (h : Can Q s) : Can Q (State.giveBuffer s n p) := by
  unfold State.giveBuffer
  repeat' first
    | with_reducible assumption
    | with_reducible apply Can.ite
    | with_reducible apply State.hostWrite_can
    | with_reducible apply State.postCompletion_can

theorem State.deliverFrame_can (s : State) (n cls sl tRxStamp : Nat) (frame : Bytes) {Q : State} (h : Can Q s) : Can Q (State.deliverFrame s n cls sl tRxStamp frame) := by
  unfold State.deliverFrame
  repeat' first
    | with_reducible assumption
    | intro _
    | (extract_lets +onlyGivenNames z; refine (fun (_ : Can Q z) => ?_) ?_; (on_goal 2 => (dsimp -zeta only [z]; clear z)); (on_goal 1 => rename' z => z'))
    | (extract_lets +onlyGivenNames z; rename' z => z')
    | with_reducible apply Can.ite
    | with_reducible apply State.each_can
    | with_reducible apply State.setRing_can
    | with_reducible apply State.ringDrop_can
    | with_reducible apply State.settleBad_can
    | with_reducible apply State.showRing_can
    | with_reducible apply State.giveBuffer_can

theorem State.quiesce_can (s : State) (n : Nat) {Q : State} (h : Can Q s) : Can Q (State.quiesce s n) := by
  unfold State.quiesce
  repeat' first
    | with_reducible assumption
    | (extract_lets +onlyGivenNames z; refine (fun (_ : Can Q z) => ?_) ?_; (on_goal 2 => (dsimp -zeta only [z]; clear z)); (on_goal 1 => rename' z => z'))
    | (extract_lets +onlyGivenNames z; rename' z => z')
    | with_reducible apply Can.ite
    | with_reducible apply State.setRing_can
    | with_reducible apply State.flushBuffer_can
    | with_reducible apply State.setRingState_can
    | with_reducible apply State.drainRing_can

theorem State.ringOff_can (s : State) (n : Nat) {Q : State} (h : Can Q s) : Can Q (State.ringOff s n) := by
  unfold State.ringOff
  repeat' first
    | with_reducible assumption
    | (extract_lets +onlyGivenNames z; refine (fun (_ : Can Q z) => ?_) ?_; (on_goal 2 => (dsimp -zeta only [z]; clear z)); (on_goal 1 => rename' z => z'))
    | with_reducible apply State.setRing_can
    | with_reducible apply State.showRing_can
    | with_reducible apply State.setRingState_can

theorem State.ringStart_can (s : State) (n : Nat) {Q : State} (h : Can Q s) : Can Q (State.ringStart s n) := by
  unfold State.ringStart
  repeat' first
    | with_reducible assumption
    | (extract_lets +onlyGivenNames z; refine (fun (_ : Can Q z) => ?_) ?_; (on_goal 2 => (dsimp -zeta only [z]; clear z)); (on_goal 1 => rename' z => z'))
    | with_reducible apply State.wr_can
    | with_reducible apply State.setRing_can
    | with_reducible apply State.pumpJournal_can
    | with_reducible apply State.setRingState_can

end Sys2Proof.Machine
end

