-- ==== Sys2Proof/Laws/CanonSampling.lean ====
section
/-!
SUPPORT. The canonical form of the sparse storage through every operation of Machine/Sampling.lean.
-/

set_option Elab.async false

namespace Sys2Proof.Machine

theorem State.setTal_can (s : State) (f : Tal → Tal) {Q : State} (h : Can Q s) : Can Q (State.setTal s f) := by
  unfold State.setTal
  repeat' first
    | with_reducible exact Can.with_ ‹_›

theorem State.showSampling_can (s : State) {Q : State} (h : Can Q s) : Can Q (State.showSampling s) := by
  unfold State.showSampling
  repeat' first
    | with_reducible assumption
    | with_reducible apply State.setBit_can

theorem State.sampleStart_can (s : State) (kind : ReqKind) (fr : RxFrame) (k : Nat) {Q : State} (h : Can Q s) : Can Q (State.sampleStart s kind fr k).2 := by
  unfold State.sampleStart
  repeat' first
    | with_reducible assumption
    | with_reducible apply Can.ite2
    | with_reducible apply State.inc_can
    | with_reducible apply State.setTal_can

theorem State.sampleStart_pair (s : State) (kind : ReqKind) (fr : RxFrame) (k : Nat) {u : State} {x : _} (hq : (State.sampleStart s kind fr k) = (x, u)) {Q : State} (h : Can Q s) : Can Q u := by
  have k := State.sampleStart_can s kind fr k h
  rw [hq] at k
  exact k

theorem State.sampleFinal_can (s : State) (r : Request) (tx : Option (Nat × Nat × Bool)) (cls : Nat) {Q : State} (h : Can Q s) : Can Q (State.sampleFinal s r tx cls) := by
  unfold State.sampleFinal
  repeat' first
    | with_reducible assumption
    | intro _
    | (extract_lets +onlyGivenNames z; refine (fun (_ : Can Q z) => ?_) ?_; (on_goal 2 => (dsimp -zeta only [z]; clear z)); (on_goal 1 => rename' z => z'))
    | (extract_lets +onlyGivenNames z; rename' z => z')
    | with_reducible apply Can.ite
    | with_reducible apply State.wr_can
    | with_reducible apply State.when_can
    | with_reducible apply State.inc_can
    | with_reducible apply State.raise_can
    | with_reducible apply State.setTal_can
    | with_reducible apply State.showSampling_can
    | split

theorem State.sampleDrop_can (s : State) (r : Request) (outcome detail : Nat) {Q : State} (h : Can Q s) : Can Q (State.sampleDrop s r outcome detail) := by
  unfold State.sampleDrop
  repeat' first
    | with_reducible assumption
    | with_reducible apply State.sampleFinal_can

theorem State.sampleLost_can (s : State) (r : Option Request) (detail : Nat) {Q : State} (h : Can Q s) : Can Q (State.sampleLost s r detail) := by
  unfold State.sampleLost
  repeat' first
    | with_reducible assumption
    | with_reducible apply State.sampleDrop_can
    | split

theorem State.sampleUnlisted_can (s : State) (r : Request) (status : Nat) {Q : State} (h : Can Q s) : Can Q (State.sampleUnlisted s r status) := by
  unfold State.sampleUnlisted
  repeat' first
    | with_reducible assumption
    | (extract_lets +onlyGivenNames z; rename' z => z')
    | with_reducible apply State.sampleFinal_can

theorem State.sampleSent_can (s : State) (r : Option Request) (tTx held : Nat) (again : Bool) {Q : State} (h : Can Q s) : Can Q (State.sampleSent s r tTx held again) := by
  unfold State.sampleSent
  repeat' first
    | with_reducible assumption
    | with_reducible apply State.sampleFinal_can
    | split

end Sys2Proof.Machine
end

