-- ==== Sys2Proof/Laws/CanonTimescale.lean ====
section
/-!
SUPPORT. The canonical form of the sparse storage through every operation of Machine/Timescale.lean.
-/

set_option Elab.async false

namespace Sys2Proof.Machine

theorem State.snapshot_can (s : State) {Q : State} (h : Can Q s) : Can Q (State.snapshot s) := by
  unfold State.snapshot
  repeat' first
    | with_reducible assumption
    | (extract_lets +onlyGivenNames z; rename' z => z')
    | with_reducible apply State.wr_can

theorem State.calResult_can (s : State) (i reason : Nat) {Q : State} (h : Can Q s) : Can Q (State.calResult s i reason) := by
  unfold State.calResult
  repeat' first
    | with_reducible assumption
    | with_reducible apply State.wr_can

theorem State.applyTscCal_can (s : State) {Q : State} (h : Can Q s) : Can Q (State.applyTscCal s) := by
  unfold State.applyTscCal
  repeat' first
    | with_reducible assumption
    | (extract_lets +onlyGivenNames z; refine (fun (_ : Can Q z.2) => ?_) ?_; (on_goal 2 => (dsimp -zeta only [z]; clear z)); (on_goal 1 => rename' z => z'))
    | (extract_lets +onlyGivenNames z; rename' z => z')
    | with_reducible apply Can.ite
    | with_reducible apply State.calPut_can
    | with_reducible apply State.calFree_can
    | with_reducible apply State.calNew_can
    | with_reducible apply State.calResult_can

theorem State.refuseTscCal_can (s : State) (w : Nat → Word) (reason : Nat) {Q : State} (h : Can Q s) : Can Q (State.refuseTscCal s w reason) := by
  unfold State.refuseTscCal
  repeat' first
    | with_reducible assumption
    | with_reducible apply State.calResult_can

theorem State.hostEventRecord_can (s : State) (i : Nat) (e : CalEntry) {Q : State} (h : Can Q s) : Can Q (State.hostEventRecord s i e) := by
  unfold State.hostEventRecord
  repeat' first
    | with_reducible assumption
    | intro _
    | (extract_lets +onlyGivenNames z; rename' z => z')
    | with_reducible apply Can.ite
    | with_reducible apply State.each_can
    | with_reducible apply State.postEvent_can
    | with_reducible apply State.sendEventMsg_can
    | split

theorem State.fireHostEvent_can (s : State) {Q : State} (h : Can Q s) : Can Q (State.fireHostEvent s) := by
  unfold State.fireHostEvent
  repeat' first
    | with_reducible assumption
    | with_reducible apply State.fireEntry_can
    | with_reducible apply State.hostEventRecord_can
    | split

theorem State.refreshLeap_can (s : State) {Q : State} (h : Can Q s) : Can Q (State.refreshLeap s) := by
  unfold State.refreshLeap
  repeat' first
    | with_reducible assumption
    | (extract_lets +onlyGivenNames z; rename' z => z')
    | with_reducible apply Can.ite
    | with_reducible apply State.sfW_can
    | with_reducible apply State.raise_can

theorem State.rebuildLeaps_can (s : State) {Q : State} (h : Can Q s) : Can Q (State.rebuildLeaps s) := by
  unfold State.rebuildLeaps
  repeat' first
    | with_reducible assumption
    | intro _
    | (extract_lets +onlyGivenNames z; refine (fun (_ : Can Q z) => ?_) ?_; (on_goal 2 => (dsimp -zeta only [z]; clear z)); (on_goal 1 => rename' z => z'))
    | with_reducible apply State.each_can
    | with_reducible apply State.calNew_can
    | with_reducible apply State.calDrop_can

theorem State.leapsChanged_can (s : State) {Q : State} (h : Can Q s) : Can Q (State.leapsChanged s) := by
  unfold State.leapsChanged
  repeat' first
    | with_reducible assumption
    | with_reducible apply State.refreshLeap_can
    | with_reducible apply State.rebuildLeaps_can

theorem State.journalTsc_can (s : State) (old new : Nat) (amount : Int) (host : Bool) {Q : State} (h : Can Q s) : Can Q (State.journalTsc s old new amount host) := by
  unfold State.journalTsc
  repeat' first
    | with_reducible assumption
    | with_reducible apply State.journalize_can

theorem State.putLearnt_can (s : State) (i : Nat) (e : LeapEntry) {Q : State} (h : Can Q s) : Can Q (State.putLearnt s i e) := by
  unfold State.putLearnt
  repeat' first
    | with_reducible assumption
    | with_reducible apply State.wr_can

theorem State.leapConflict_can (s : State) {Q : State} (h : Can Q s) : Can Q (State.leapConflict s) := by
  unfold State.leapConflict
  repeat' first
    | with_reducible assumption
    | with_reducible apply State.raise_can
    | with_reducible apply State.journalTsc_can

theorem State.applyTscLeap_can (s : State) (old : Nat → Word) {Q : State} (h : Can Q s) : Can Q (State.applyTscLeap s old) := by
  unfold State.applyTscLeap
  repeat' first
    | with_reducible assumption
    | intro _
    | (extract_lets +onlyGivenNames z; rename' z => z')
    | with_reducible apply State.each_can
    | with_reducible apply State.leapsChanged_can
    | with_reducible apply State.leapConflict_can

theorem State.learnLeap_can (s : State) (sec : Nat) (offset : Int) (source : Nat) {Q : State} (h : Can Q s) : Can Q (State.learnLeap s sec offset source) := by
  unfold State.learnLeap
  repeat' first
    | with_reducible assumption
    | intro _
    | (extract_lets +onlyGivenNames z; refine (fun (_ : Can Q z) => ?_) ?_; (on_goal 2 => (dsimp -zeta only [z]; clear z)); (on_goal 1 => rename' z => z'))
    | (extract_lets +onlyGivenNames z; rename' z => z')
    | with_reducible apply Can.ite
    | with_reducible apply State.when_can
    | with_reducible apply State.leapsChanged_can
    | with_reducible apply State.putLearnt_can
    | with_reducible apply State.leapConflict_can

theorem State.fireLeap_can (s : State) {Q : State} (h : Can Q s) : Can Q (State.fireLeap s) := by
  unfold State.fireLeap
  repeat' first
    | with_reducible assumption
    | intro _
    | with_reducible apply State.fireDue_can
    | with_reducible apply State.refreshLeap_can

theorem State.showPolicy_can (s : State) {Q : State} (h : Can Q s) : Can Q (State.showPolicy s) := by
  unfold State.showPolicy
  repeat' first
    | with_reducible assumption
    | with_reducible apply State.sfW_can

theorem State.applyTscCtl_can (s : State) {Q : State} (h : Can Q s) : Can Q (State.applyTscCtl s) := by
  unfold State.applyTscCtl
  repeat' first
    | with_reducible assumption
    | with_reducible apply State.leapsChanged_can
    | with_reducible apply State.showPolicy_can

theorem State.setMode_can (s : State) (m : Nat) {Q : State} (h : Can Q s) : Can Q (State.setMode s m) := by
  unfold State.setMode
  repeat' first
    | with_reducible assumption
    | (extract_lets +onlyGivenNames z; refine (fun (_ : Can Q z) => ?_) ?_; (on_goal 2 => (dsimp -zeta only [z]; clear z)); (on_goal 1 => rename' z => z'))
    | (extract_lets +onlyGivenNames z; rename' z => z')
    | with_reducible apply Can.ite
    | with_reducible apply State.sfW_can
    | with_reducible apply State.raise_can
    | with_reducible apply State.journalTsc_can
    | with_reducible apply State.showPolicy_can
    | with_reducible exact Can.with_ ‹_›

theorem State.slew_can (s : State) (theta : Int) {Q : State} (h : Can Q s) : Can Q (State.slew s theta) := by
  unfold State.slew
  repeat' first
    | (extract_lets +onlyGivenNames z; rename' z => z')
    | with_reducible exact Can.with_ ‹_›

theorem State.clearStep_can (s : State) {Q : State} (h : Can Q s) : Can Q (State.clearStep s) := by
  unfold State.clearStep
  repeat' first
    | (extract_lets +onlyGivenNames z; rename' z => z')
    | with_reducible apply State.setBit_can
    | with_reducible apply State.calDrop_can
    | with_reducible exact Can.with_ ‹_›

theorem State.expireStep_can (s : State) {Q : State} (h : Can Q s) : Can Q (State.expireStep s) := by
  unfold State.expireStep
  repeat' first
    | with_reducible assumption
    | with_reducible apply State.raise_can
    | with_reducible apply State.clearStep_can

theorem State.scheduleStep_can (s : State) (ahead : Nat) {Q : State} (h : Can Q s) : Can Q (State.scheduleStep s ahead) := by
  unfold State.scheduleStep
  repeat' first
    | with_reducible assumption
    | (extract_lets +onlyGivenNames z; refine (fun (_ : Can Q z) => ?_) ?_; (on_goal 2 => (dsimp -zeta only [z]; clear z)); (on_goal 1 => rename' z => z'))
    | (extract_lets +onlyGivenNames z; rename' z => z')
    | with_reducible apply State.calOwn_can
    | with_reducible exact Can.with_ ‹_›

theorem State.postStep_can (s : State) (theta : Int) (ref : Nat) {Q : State} (h : Can Q s) : Can Q (State.postStep s theta ref) := by
  unfold State.postStep
  repeat' first
    | with_reducible assumption
    | (extract_lets +onlyGivenNames z; refine (fun (_ : Can Q z) => ?_) ?_; (on_goal 2 => (dsimp -zeta only [z]; clear z)); (on_goal 1 => rename' z => z'))
    | (extract_lets +onlyGivenNames z; rename' z => z')
    | with_reducible apply Can.ite
    | with_reducible apply State.sfW_can
    | with_reducible apply State.setBit_can
    | with_reducible apply State.wr64_can
    | with_reducible apply State.raise_can
    | with_reducible apply State.setMode_can
    | with_reducible apply State.scheduleStep_can
    | with_reducible exact Can.with_ ‹_›

theorem State.handleOffset_can (s : State) (theta : Int) (ref : Nat) {Q : State} (h : Can Q s) : Can Q (State.handleOffset s theta ref) := by
  unfold State.handleOffset
  repeat' first
    | with_reducible assumption
    | with_reducible apply Can.ite
    | with_reducible apply State.slew_can
    | with_reducible apply State.postStep_can

theorem State.answerStep_can (s : State) (v : Word) {Q : State} (h : Can Q s) : Can Q (State.answerStep s v) := by
  unfold State.answerStep
  repeat' first
    | with_reducible assumption
    | with_reducible apply Can.ite
    | with_reducible apply State.inc_can
    | with_reducible apply State.slew_can
    | with_reducible apply State.clearStep_can
    | with_reducible apply State.scheduleStep_can
    | split

theorem State.applyTscStep_can (s : State) {Q : State} (h : Can Q s) : Can Q (State.applyTscStep s) := by
  unfold State.applyTscStep
  repeat' first
    | with_reducible assumption
    | (extract_lets +onlyGivenNames z; rename' z => z')
    | with_reducible apply Can.ite
    | with_reducible apply State.calOwn_can
    | with_reducible exact Can.with_ ‹_›

theorem State.skipEntries_can (s : State) (t d : Nat) {Q : State} (h : Can Q s) : Can Q (State.skipEntries s t d) :=
  Can.withCal h (h.cal.map _ (fun e => by split <;> rfl))

theorem State.applyStep_can (s : State) (amount : Int) (host : Bool) {Q : State} (h : Can Q s) : Can Q (State.applyStep s amount host) := by
  unfold State.applyStep
  repeat' first
    | with_reducible assumption
    | (extract_lets +onlyGivenNames z; refine (fun (_ : Can Q z) => ?_) ?_; (on_goal 2 => (dsimp -zeta only [z]; clear z)); (on_goal 1 => rename' z => z'))
    | (extract_lets +onlyGivenNames z; rename' z => z')
    | with_reducible apply Can.ite
    | with_reducible apply State.raise_can
    | with_reducible apply State.refreshLeap_can
    | with_reducible apply State.journalTsc_can
    | with_reducible apply State.skipEntries_can
    | with_reducible exact Can.with_ ‹_›

end Sys2Proof.Machine
end

