-- ==== Sys2Proof/Laws/CanonPorts.lean ====
section
/-!
SUPPORT. The canonical form of the sparse storage through every operation of Machine/Ports.lean.
-/

set_option Elab.async false

namespace Sys2Proof.Machine

theorem State.setLink_can (s : State) (sl : Nat) (f : Link → Link) {Q : State} (h : Can Q s) : Can Q (State.setLink s sl f) := by
  unfold State.setLink
  repeat' first
    | (extract_lets +onlyGivenNames z; rename' z => z')
    | with_reducible exact Can.with_ ‹_›

theorem State.setComplex_can (s : State) (c : Nat) (f : Complex → Complex) {Q : State} (h : Can Q s) : Can Q (State.setComplex s c f) := by
  unfold State.setComplex
  repeat' first
    | (extract_lets +onlyGivenNames z; rename' z => z')
    | with_reducible exact Can.with_ ‹_›

theorem State.sendFrame_can (s : State) (sl tTx : Nat) (data : Bytes) {Q : State} (h : Can Q s) : Can Q (State.sendFrame s sl tTx data) := by
  unfold State.sendFrame
  repeat' first
    | with_reducible assumption
    | with_reducible apply State.count_can
    | with_reducible apply State.inc_can
    | with_reducible apply State.emit_can

theorem State.dropResponses_can (s : State) (sl reg n : Nat) {Q : State} (h : Can Q s) : Can Q (State.dropResponses s sl reg n) := by
  unfold State.dropResponses
  repeat' first
    | with_reducible assumption
    | with_reducible apply Can.ite
    | with_reducible apply State.count_can
    | with_reducible apply State.raise_can

theorem State.settleCuts_can (s : State) (sl : Nat) {Q : State} (h : Can Q s) : Can Q (State.settleCuts s sl) := by
  unfold State.settleCuts
  repeat' first
    | with_reducible assumption
    | (extract_lets +onlyGivenNames z; rename' z => z')
    | with_reducible apply State.count_can
    | with_reducible apply State.setLink_can
    | split

theorem State.reslot_can (s : State) (sl at_ : Nat) {Q : State} (h : Can Q s) : Can Q (State.reslot s sl at_) := by
  unfold State.reslot
  repeat' first
    | with_reducible assumption
    | (extract_lets +onlyGivenNames z; refine (fun (_ : Can Q z) => ?_) ?_; (on_goal 2 => (dsimp -zeta only [z]; clear z)); (on_goal 1 => rename' z => z'))
    | (extract_lets +onlyGivenNames z; rename' z => z')
    | with_reducible apply State.inc_can
    | with_reducible apply State.raise_can
    | with_reducible apply State.sampleLost_can
    | with_reducible apply State.setLink_can
    | with_reducible apply State.dropResponses_can
    | split

theorem State.reslotAll_can (s : State) (sl : Nat) (p : Slot → Bool) {Q : State} (h : Can Q s) : Can Q (State.reslotAll s sl p) := by
  unfold State.reslotAll
  repeat' first
    | with_reducible assumption
    | intro _
    | with_reducible apply State.each_can
    | with_reducible apply State.reslot_can

theorem State.reserve_can (s : State) (sl lo n : Nat) (f : Nat → Link → Link) {Q : State} (h : Can Q s) : Can Q (State.reserve s sl lo n f).2 := by
  unfold State.reserve
  repeat' first
    | with_reducible assumption
    | (extract_lets +onlyGivenNames z; rename' z => z')
    | with_reducible apply State.setLink_can
    | with_reducible apply State.reslotAll_can
    | split

theorem State.reserve_pair (s : State) (sl lo n : Nat) (f : Nat → Link → Link) {u : State} {x : _} (hq : (State.reserve s sl lo n f) = (x, u)) {Q : State} (h : Can Q s) : Can Q u := by
  have k := State.reserve_can s sl lo n f h
  rw [hq] at k
  exact k

theorem State.expressSlot_can (s : State) (sl n : Nat) {Q : State} (h : Can Q s) : Can Q (State.expressSlot s sl n).2 := by
  unfold State.expressSlot
  repeat' first
    | with_reducible assumption
    | with_reducible apply State.reserve_can

theorem State.expressSlot_pair (s : State) (sl n : Nat) {u : State} {x : _} (hq : (State.expressSlot s sl n) = (x, u)) {Q : State} (h : Can Q s) : Can Q u := by
  have k := State.expressSlot_can s sl n h
  rw [hq] at k
  exact k

theorem State.bookNext_can (s : State) (sl : Nat) {Q : State} (h : Can Q s) : Can Q (State.bookNext s sl) := by
  unfold State.bookNext
  repeat' first
    | with_reducible assumption
    | (extract_lets +onlyGivenNames z; refine (fun (_ : Can Q z) => ?_) ?_; (on_goal 2 => (dsimp -zeta only [z]; clear z)); (on_goal 1 => rename' z => z'))
    | with_reducible apply State.sampleLost_can
    | with_reducible apply State.setLink_can
    | with_reducible apply State.dropResponses_can
    | split

theorem State.handOver_can (s : State) (sl : Nat) (answer : Answer) (req : Option Request) (len : Nat) {Q : State} (h : Can Q s) : Can Q (State.handOver s sl answer req len) := by
  unfold State.handOver
  repeat' first
    | with_reducible assumption
    | intro _
    | with_reducible apply Can.ite
    | with_reducible apply State.when_can
    | with_reducible apply State.sampleLost_can
    | with_reducible apply State.setLink_can
    | with_reducible apply State.dropResponses_can

theorem State.commitSlot_can (s : State) (sl : Nat) {Q : State} (h : Can Q s) : Can Q (State.commitSlot s sl) := by
  unfold State.commitSlot
  repeat' first
    | with_reducible assumption
    | with_reducible apply Can.ite
    | with_reducible apply State.setLink_can
    | with_reducible apply State.reslot_can
    | split

theorem State.ageDrop_can (s : State) (sl : Nat) {Q : State} (h : Can Q s) : Can Q (State.ageDrop s sl) := by
  unfold State.ageDrop
  repeat' first
    | with_reducible assumption
    | intro _
    | (extract_lets +onlyGivenNames z; rename' z => z')
    | with_reducible apply State.each_can
    | with_reducible apply State.sampleLost_can
    | with_reducible apply State.setLink_can
    | with_reducible apply State.dropResponses_can

theorem State.settleHeld_can (s : State) (sl : Nat) {Q : State} (h : Can Q s) : Can Q (State.settleHeld s sl) := by
  unfold State.settleHeld
  repeat' first
    | with_reducible assumption
    | (extract_lets +onlyGivenNames z; rename' z => z')
    | with_reducible apply State.wr_can
    | with_reducible apply State.setLink_can

theorem State.endHold_can (s : State) (sl : Nat) {Q : State} (h : Can Q s) : Can Q (State.endHold s sl) := by
  unfold State.endHold
  repeat' first
    | with_reducible assumption
    | with_reducible apply State.setBit_can
    | with_reducible apply State.setLink_can
    | with_reducible apply State.settleHeld_can

theorem State.pauseEffect_can (s : State) (sl : Nat) {Q : State} (h : Can Q s) : Can Q (State.pauseEffect s sl) := by
  unfold State.pauseEffect
  repeat' first
    | with_reducible assumption
    | (extract_lets +onlyGivenNames z; refine (fun (_ : Can Q z) => ?_) ?_; (on_goal 2 => (dsimp -zeta only [z]; clear z)); (on_goal 1 => rename' z => z'))
    | with_reducible apply Can.ite
    | with_reducible apply State.setBit_can
    | with_reducible apply State.setLink_can
    | with_reducible apply State.settleHeld_can
    | with_reducible apply State.endHold_can
    | split

theorem State.pauseHoldEnd_can (s : State) (sl : Nat) {Q : State} (h : Can Q s) : Can Q (State.pauseHoldEnd s sl) := by
  unfold State.pauseHoldEnd
  repeat' first
    | with_reducible assumption
    | with_reducible apply Can.ite
    | with_reducible apply State.endHold_can
    | split

theorem State.pauseOverlimit_can (s : State) (sl : Nat) {Q : State} (h : Can Q s) : Can Q (State.pauseOverlimit s sl) := by
  unfold State.pauseOverlimit
  repeat' first
    | with_reducible assumption
    | (extract_lets +onlyGivenNames z; refine (fun (_ : Can Q z) => ?_) ?_; (on_goal 2 => (dsimp -zeta only [z]; clear z)); (on_goal 1 => rename' z => z'))
    | (extract_lets +onlyGivenNames z; rename' z => z')
    | with_reducible apply Can.ite
    | with_reducible apply State.inc_can
    | with_reducible apply State.raise_can
    | with_reducible apply State.setLink_can
    | with_reducible apply State.settleHeld_can
    | with_reducible apply State.endHold_can

theorem State.pauseReceived_can (s : State) (sl quanta : Nat) {Q : State} (h : Can Q s) : Can Q (State.pauseReceived s sl quanta) := by
  unfold State.pauseReceived
  repeat' first
    | with_reducible assumption
    | with_reducible apply Can.ite
    | with_reducible apply State.setLink_can

theorem State.sendPause_can (s : State) (sl quanta : Nat) {Q : State} (h : Can Q s) : Can Q (State.sendPause s sl quanta) := by
  unfold State.sendPause
  repeat' first
    | with_reducible assumption
    | (extract_lets +onlyGivenNames z; rename' z => z')
    | with_reducible apply Can.ite
    | with_reducible apply State.inc_can
    | with_reducible apply State.emit_can
    | with_reducible apply State.setLink_can
    | with_reducible apply State.sendFrame_can
    | (with_reducible refine State.expressSlot_pair _ _ _ (by assumption) ?_)
    | split

theorem State.showCells_can (s : State) (sl : Nat) {Q : State} (h : Can Q s) : Can Q (State.showCells s sl) := by
  unfold State.showCells
  repeat' first
    | with_reducible assumption
    | with_reducible apply State.sfW_can

theorem State.weirHigh_can (s : State) (sl occ : Nat) {Q : State} (h : Can Q s) : Can Q (State.weirHigh s sl occ) := by
  unfold State.weirHigh
  repeat' first
    | with_reducible assumption
    | intro _
    | (extract_lets +onlyGivenNames z; rename' z => z')
    | with_reducible apply Can.ite
    | with_reducible apply State.setBit_can
    | with_reducible apply State.when_can
    | with_reducible apply State.raise_can
    | with_reducible apply State.sendPause_can

theorem State.weirLow_can (s : State) (sl occ : Nat) {Q : State} (h : Can Q s) : Can Q (State.weirLow s sl occ) := by
  unfold State.weirLow
  repeat' first
    | with_reducible assumption
    | intro _
    | (extract_lets +onlyGivenNames z; refine (fun (_ : Can Q z) => ?_) ?_; (on_goal 2 => (dsimp -zeta only [z]; clear z)); (on_goal 1 => rename' z => z'))
    | (extract_lets +onlyGivenNames z; rename' z => z')
    | with_reducible apply Can.ite
    | with_reducible apply State.setBit_can
    | with_reducible apply State.when_can
    | with_reducible apply State.sendPause_can
    | with_reducible apply State.showCells_can

theorem State.pauseRefresh_can (s : State) (sl : Nat) {Q : State} (h : Can Q s) : Can Q (State.pauseRefresh s sl) := by
  unfold State.pauseRefresh
  repeat' first
    | with_reducible assumption
    | (extract_lets +onlyGivenNames z; rename' z => z')
    | with_reducible apply Can.ite
    | with_reducible apply State.sendPause_can

theorem State.restartVerify_can (s : State) (sl : Nat) {Q : State} (h : Can Q s) : Can Q (State.restartVerify s sl) := by
  unfold State.restartVerify
  repeat' first
    | with_reducible assumption
    | (extract_lets +onlyGivenNames z; rename' z => z')
    | with_reducible apply State.sfW_can
    | with_reducible apply State.setLink_can

theorem State.verifySend_can (s : State) (sl : Nat) {Q : State} (h : Can Q s) : Can Q (State.verifySend s sl) := by
  unfold State.verifySend
  repeat' first
    | with_reducible assumption
    | with_reducible apply Can.ite
    | with_reducible apply State.sfW_can
    | with_reducible apply State.emit_can
    | with_reducible apply State.raise_can
    | with_reducible apply State.setLink_can

theorem State.verifyResponse_can (s : State) (sl : Nat) {Q : State} (h : Can Q s) : Can Q (State.verifyResponse s sl) := by
  unfold State.verifyResponse
  repeat' first
    | with_reducible assumption
    | with_reducible apply Can.ite
    | with_reducible apply State.sfW_can

theorem State.queuePre_can (s : State) (sl : Nat) (d : Bytes) (ring : Option (Nat × Nat × Nat)) (counter : Option Nat) {Q : State} (h : Can Q s) : Can Q (State.queuePre s sl d ring counter) := by
  unfold State.queuePre
  repeat' first
    | with_reducible assumption
    | with_reducible apply State.setLink_can

theorem State.endOnLine_can (s : State) (sl : Nat) {Q : State} (h : Can Q s) : Can Q (State.endOnLine s sl) := by
  unfold State.endOnLine
  repeat' first
    | with_reducible assumption
    | (extract_lets +onlyGivenNames z; refine (fun (_ : Can Q z) => ?_) ?_; (on_goal 2 => (dsimp -zeta only [z]; clear z)); (on_goal 1 => rename' z => z'))
    | (extract_lets +onlyGivenNames z; rename' z => z')
    | with_reducible apply Can.ite
    | with_reducible apply State.inc_can
    | with_reducible apply State.endWork_can
    | with_reducible apply State.setLink_can
    | with_reducible apply State.sendFrame_can
    | with_reducible apply State.settleCuts_can
    | split

theorem State.startOnLine_can (s : State) (sl : Nat) {Q : State} (h : Can Q s) : Can Q (State.startOnLine s sl) := by
  unfold State.startOnLine
  repeat' first
    | with_reducible assumption
    | (extract_lets +onlyGivenNames z; rename' z => z')
    | with_reducible apply Can.ite
    | with_reducible apply State.setLink_can
    | split

theorem State.sendPreemptable_can (s : State) (sl : Nat) (last : Bool) {Q : State} (h : Can Q s) : Can Q (State.sendPreemptable s sl last) := by
  unfold State.sendPreemptable
  repeat' first
    | with_reducible apply State.when_can
    | with_reducible assumption
    | intro _
    | with_reducible apply State.endOnLine_can
    | with_reducible apply State.startOnLine_can

theorem State.clearLink_can (s : State) (sl : Nat) {Q : State} (h : Can Q s) : Can Q (State.clearLink s sl) := by
  unfold State.clearLink
  repeat' first
    | with_reducible assumption
    | intro _
    | (extract_lets +onlyGivenNames z; refine (fun (_ : Can Q z) => ?_) ?_; (on_goal 2 => (dsimp -zeta only [z]; clear z)); (on_goal 1 => rename' z => z'))
    | (extract_lets +onlyGivenNames z; rename' z => z')
    | with_reducible apply State.each_can
    | with_reducible apply State.endWork_can
    | with_reducible apply State.sampleLost_can
    | with_reducible apply State.setLink_can
    | with_reducible apply State.dropResponses_can
    | split

theorem State.linkDown_can (s : State) (sl : Nat) {Q : State} (h : Can Q s) : Can Q (State.linkDown s sl) := by
  unfold State.linkDown
  repeat' first
    | with_reducible assumption
    | (extract_lets +onlyGivenNames z; refine (fun (_ : Can Q z) => ?_) ?_; (on_goal 2 => (dsimp -zeta only [z]; clear z)); (on_goal 1 => rename' z => z'))
    | with_reducible apply Can.ite
    | with_reducible apply State.sfW_can
    | with_reducible apply State.setBit_can
    | with_reducible apply State.count_can
    | with_reducible apply State.inc_can
    | with_reducible apply State.raise_can
    | with_reducible apply State.setLink_can
    | with_reducible apply State.settleCuts_can
    | with_reducible apply State.settleHeld_can
    | with_reducible apply State.clearLink_can

theorem State.linkComesUp_can (s : State) (sl rxDyn txDyn : Nat) {Q : State} (h : Can Q s) : Can Q (State.linkComesUp s sl rxDyn txDyn) := by
  unfold State.linkComesUp
  repeat' first
    | with_reducible assumption
    | intro _
    | (extract_lets +onlyGivenNames z; refine (fun (_ : Can Q z) => ?_) ?_; (on_goal 2 => (dsimp -zeta only [z]; clear z)); (on_goal 1 => rename' z => z'))
    | (extract_lets +onlyGivenNames z; rename' z => z')
    | with_reducible apply Can.ite
    | with_reducible apply State.sfW_can
    | with_reducible apply State.setBit_can
    | with_reducible apply State.when_can
    | with_reducible apply State.raise_can
    | with_reducible apply State.setLink_can
    | with_reducible apply State.restartVerify_can

theorem State.probeReturn_can (s : State) (sl nonce cap : Nat) {Q : State} (h : Can Q s) : Can Q (State.probeReturn s sl nonce cap) := by
  unfold State.probeReturn
  repeat' first
    | with_reducible assumption
    | (extract_lets +onlyGivenNames z; refine (fun (_ : Can Q z) => ?_) ?_; (on_goal 2 => (dsimp -zeta only [z]; clear z)); (on_goal 1 => rename' z => z'))
    | with_reducible apply Can.ite
    | with_reducible apply State.wr_can
    | with_reducible apply State.setBit_can
    | with_reducible apply State.raise_can
    | with_reducible apply State.setLink_can
    | split

theorem State.probeStart_can (s : State) (sl : Nat) {Q : State} (h : Can Q s) : Can Q (State.probeStart s sl) := by
  unfold State.probeStart
  repeat' first
    | with_reducible assumption
    | intro _
    | (extract_lets +onlyGivenNames z; refine (fun (_ : Can Q z.2) => ?_) ?_; (on_goal 2 => (dsimp -zeta only [z]; clear z)); (on_goal 1 => rename' z => z'))
    | (extract_lets +onlyGivenNames z; rename' z => z')
    | with_reducible apply Can.ite
    | with_reducible apply State.wr_can
    | with_reducible apply State.setBit_can
    | with_reducible apply State.when_can
    | with_reducible apply State.draw_can
    | with_reducible apply State.setLink_can
    | with_reducible apply State.sendFrame_can
    | (with_reducible refine State.expressSlot_pair _ _ _ (by assumption) ?_)
    | split

theorem State.probeTimeout_can (s : State) (sl : Nat) {Q : State} (h : Can Q s) : Can Q (State.probeTimeout s sl) := by
  unfold State.probeTimeout
  repeat' first
    | with_reducible assumption
    | with_reducible apply Can.ite
    | with_reducible apply State.wr_can
    | with_reducible apply State.setBit_can
    | with_reducible apply State.setLink_can
    | split

theorem State.linkStepped_can (s : State) (d : Int) (sl : Nat) {Q : State} (h : Can Q s) : Can Q (State.linkStepped s d sl) := by
  unfold State.linkStepped
  repeat' first
    | with_reducible assumption
    | (extract_lets +onlyGivenNames z; refine (fun (_ : Can Q z) => ?_) ?_; (on_goal 2 => (dsimp -zeta only [z]; clear z)); (on_goal 1 => rename' z => z'))
    | (extract_lets +onlyGivenNames z; rename' z => z')
    | with_reducible apply State.setLink_can
    | with_reducible apply State.reslotAll_can

theorem State.portsStepped_can (s : State) (d : Int) {Q : State} (h : Can Q s) : Can Q (State.portsStepped s d) := by
  unfold State.portsStepped
  repeat' first
    | with_reducible assumption
    | intro _
    | (extract_lets +onlyGivenNames z; refine (fun (_ : Can Q z) => ?_) ?_; (on_goal 2 => (dsimp -zeta only [z]; clear z)); (on_goal 1 => rename' z => z'))
    | (extract_lets +onlyGivenNames z; rename' z => z')
    | with_reducible apply State.each_can
    | with_reducible apply State.linkStepped_can
    | with_reducible exact Can.with_ ‹_›

theorem State.showTransmitters_can (s : State) (c : Nat) {Q : State} (h : Can Q s) : Can Q (State.showTransmitters s c) := by
  unfold State.showTransmitters
  repeat' first
    | with_reducible assumption
    | with_reducible apply State.setBit_can

theorem State.macFrozen_can (s : State) (c : Nat) {Q : State} (h : Can Q s) : Can Q (State.macFrozen s c) := by
  unfold State.macFrozen
  repeat' first
    | with_reducible assumption
    | with_reducible apply State.setBit_can
    | with_reducible apply State.showTransmitters_can

theorem State.applyMacPort_can (s : State) (c : Nat) {Q : State} (h : Can Q s) : Can Q (State.applyMacPort s c) := by
  unfold State.applyMacPort
  repeat' first
    | with_reducible assumption
    | intro _
    | (extract_lets +onlyGivenNames z; refine (fun (_ : Can Q z) => ?_) ?_; (on_goal 2 => (dsimp -zeta only [z]; clear z)); (on_goal 1 => rename' z => z'))
    | with_reducible apply Can.ite
    | with_reducible apply State.wr_can
    | with_reducible apply State.sfW_can
    | with_reducible apply State.each_can
    | with_reducible apply State.macFrozen_can

theorem State.flowDone_can (s : State) (c : Nat) {Q : State} (h : Can Q s) : Can Q (State.flowDone s c) := by
  unfold State.flowDone
  repeat' first
    | with_reducible assumption
    | with_reducible apply Can.ite
    | with_reducible apply State.raise_can
    | with_reducible apply State.setComplex_can

theorem State.applyMacFlow_can (s : State) (c : Nat) (old : Nat → Word) {Q : State} (h : Can Q s) : Can Q (State.applyMacFlow s c old) := by
  unfold State.applyMacFlow
  repeat' first
    | with_reducible assumption
    | (extract_lets +onlyGivenNames z; refine (fun (_ : Can Q z) => ?_) ?_; (on_goal 2 => (dsimp -zeta only [z]; clear z)); (on_goal 1 => rename' z => z'))
    | (extract_lets +onlyGivenNames z; rename' z => z')
    | with_reducible apply State.setComplex_can
    | with_reducible apply State.macFrozen_can
    | with_reducible apply State.flowDone_can

theorem State.flowAdopt_can (s : State) (sl dir : Nat) {Q : State} (h : Can Q s) : Can Q (State.flowAdopt s sl dir) := by
  unfold State.flowAdopt
  repeat' first
    | with_reducible assumption
    | intro _
    | (extract_lets +onlyGivenNames z; refine (fun (_ : Can Q z) => ?_) ?_; (on_goal 2 => (dsimp -zeta only [z]; clear z)); (on_goal 1 => rename' z => z'))
    | (extract_lets +onlyGivenNames z; rename' z => z')
    | with_reducible apply Can.ite
    | with_reducible apply State.when_can
    | with_reducible apply State.setComplex_can
    | with_reducible apply State.restartVerify_can
    | with_reducible apply State.flowDone_can

theorem State.applyMacCal_can (s : State) (c : Nat) (old : Nat → Word) {Q : State} (h : Can Q s) : Can Q (State.applyMacCal s c old) := by
  unfold State.applyMacCal
  repeat' first
    | with_reducible assumption
    | intro _
    | (extract_lets +onlyGivenNames z; refine (fun (_ : Can Q z) => ?_) ?_; (on_goal 2 => (dsimp -zeta only [z]; clear z)); (on_goal 1 => rename' z => z'))
    | (extract_lets +onlyGivenNames z; rename' z => z')
    | with_reducible apply Can.ite
    | with_reducible apply State.each_can
    | with_reducible apply State.setComplex_can
    | with_reducible apply State.reslotAll_can
    | with_reducible apply State.macFrozen_can

theorem State.cageInsert_can (s : State) (c : Nat) (responded : Bool) (ident pclass : Nat) {Q : State} (h : Can Q s) : Can Q (State.cageInsert s c responded ident pclass) := by
  unfold State.cageInsert
  repeat' first
    | with_reducible assumption
    | intro _
    | (extract_lets +onlyGivenNames z; refine (fun (_ : Can Q z) => ?_) ?_; (on_goal 2 => (dsimp -zeta only [z]; clear z)); (on_goal 1 => rename' z => z'))
    | (extract_lets +onlyGivenNames z; rename' z => z')
    | with_reducible apply Can.ite
    | with_reducible apply State.wr_can
    | with_reducible apply State.sfW_can
    | with_reducible apply State.setBit_can
    | with_reducible apply State.when_can
    | with_reducible apply State.raise_can
    | with_reducible apply State.showTransmitters_can

theorem State.cageRemove_can (s : State) (c : Nat) {Q : State} (h : Can Q s) : Can Q (State.cageRemove s c) := by
  unfold State.cageRemove
  repeat' first
    | with_reducible assumption
    | (extract_lets +onlyGivenNames z; refine (fun (_ : Can Q z) => ?_) ?_; (on_goal 2 => (dsimp -zeta only [z]; clear z)); (on_goal 1 => rename' z => z'))
    | with_reducible apply State.wr_can
    | with_reducible apply State.setBit_can
    | with_reducible apply State.raise_can

end Sys2Proof.Machine
end

