-- ==== Sys2Proof/Laws/CanonReferences.lean ====
section
/-!
SUPPORT. The canonical form of the sparse storage through every operation of Machine/References.lean.
-/

set_option Elab.async false

namespace Sys2Proof.Machine

theorem State.setRef_can (s : State) (i : Nat) (f : RefIn → RefIn) {Q : State} (h : Can Q s) : Can Q (State.setRef s i f) := by
  unfold State.setRef
  repeat' first
    | (extract_lets +onlyGivenNames z; rename' z => z')
    | with_reducible exact Can.with_ ‹_›

theorem State.deliver_can (s : State) (i : Nat) (theta : Int) {Q : State} (h : Can Q s) : Can Q (State.deliver s i theta) := by
  unfold State.deliver
  repeat' first
    | with_reducible assumption
    | with_reducible apply State.setRef_can

theorem State.loseIndex_can (s : State) (i : Nat) {Q : State} (h : Can Q s) : Can Q (State.loseIndex s i) := by
  unfold State.loseIndex
  repeat' first
    | with_reducible assumption
    | with_reducible apply Can.ite
    | with_reducible apply State.inc_can
    | with_reducible apply State.raise_can
    | with_reducible apply State.setRef_can

theorem State.lose_can (s : State) (i : Nat) {Q : State} (h : Can Q s) : Can Q (State.lose s i) := by
  unfold State.lose
  repeat' first
    | with_reducible assumption
    | intro _
    | with_reducible apply State.when_can
    | with_reducible apply State.each_can
    | with_reducible apply State.loseIndex_can

theorem State.showTimer_can (s : State) (i : Nat) {Q : State} (h : Can Q s) : Can Q (State.showTimer s i) := by
  unfold State.showTimer
  repeat' first
    | with_reducible assumption
    | (extract_lets +onlyGivenNames z; rename' z => z')
    | with_reducible apply State.sfW_can

theorem State.startTimer_can (s : State) (i n : Nat) {Q : State} (h : Can Q s) : Can Q (State.startTimer s i n) := by
  unfold State.startTimer
  repeat' first
    | with_reducible assumption
    | with_reducible apply State.setRef_can
    | with_reducible apply State.showTimer_can

theorem State.stopTimer_can (s : State) (i : Nat) {Q : State} (h : Can Q s) : Can Q (State.stopTimer s i) := by
  unfold State.stopTimer
  repeat' first
    | with_reducible assumption
    | with_reducible apply State.setRef_can
    | with_reducible apply State.showTimer_can

theorem State.showVoter_can (s : State) (i : Nat) {Q : State} (h : Can Q s) : Can Q (State.showVoter s i) := by
  unfold State.showVoter
  repeat' first
    | with_reducible assumption
    | with_reducible apply State.setBit_can

theorem State.showQual_can (s : State) {Q : State} (h : Can Q s) : Can Q (State.showQual s) := by
  unfold State.showQual
  repeat' first
    | with_reducible assumption
    | with_reducible apply State.sfW_can

theorem State.setQ_can (s : State) (i q : Nat) (stat : Nat) (which : Nat) {Q : State} (h : Can Q s) : Can Q (State.setQ s i q stat which) := by
  unfold State.setQ
  repeat' first
    | with_reducible assumption
    | (extract_lets +onlyGivenNames z; refine (fun (_ : Can Q z) => ?_) ?_; (on_goal 2 => (dsimp -zeta only [z]; clear z)); (on_goal 1 => rename' z => z'))
    | (extract_lets +onlyGivenNames z; rename' z => z')
    | with_reducible apply Can.ite
    | with_reducible apply State.wr_can
    | with_reducible apply State.sfW_can
    | with_reducible apply State.raise_can
    | with_reducible apply State.journalize_can
    | with_reducible apply State.setRef_can
    | with_reducible apply State.showVoter_can
    | with_reducible apply State.showQual_can

theorem State.toCandidate_can (s : State) (i : Nat) {Q : State} (h : Can Q s) : Can Q (State.toCandidate s i) := by
  unfold State.toCandidate
  repeat' first
    | with_reducible assumption
    | with_reducible apply State.startTimer_can
    | with_reducible apply State.setQ_can

theorem State.toUnavailable_can (s : State) (i : Nat) {Q : State} (h : Can Q s) : Can Q (State.toUnavailable s i) := by
  unfold State.toUnavailable
  repeat' first
    | with_reducible assumption
    | with_reducible apply Can.ite
    | with_reducible apply State.stopTimer_can
    | with_reducible apply State.setQ_can

theorem State.requalify_can (s : State) (i : Nat) {Q : State} (h : Can Q s) : Can Q (State.requalify s i) := by
  unfold State.requalify
  repeat' first
    | with_reducible assumption
    | with_reducible apply State.setRef_can
    | with_reducible apply State.toUnavailable_can

theorem State.mapQuality_can (s : State) (i : Nat) {Q : State} (h : Can Q s) : Can Q (State.mapQuality s i) := by
  unfold State.mapQuality
  repeat' first
    | with_reducible assumption
    | (extract_lets +onlyGivenNames z; refine (fun (_ : Can Q z) => ?_) ?_; (on_goal 2 => (dsimp -zeta only [z]; clear z)); (on_goal 1 => rename' z => z'))
    | (extract_lets +onlyGivenNames z; rename' z => z')
    | with_reducible apply Can.ite
    | with_reducible apply State.wr_can
    | with_reducible apply State.sfW_can
    | with_reducible apply State.setBit_can
    | with_reducible apply State.raise_can

theorem State.takeOffset_can (s : State) (i : Nat) {Q : State} (h : Can Q s) : Can Q (State.takeOffset s i) := by
  unfold State.takeOffset
  repeat' first
    | with_reducible assumption
    | (extract_lets +onlyGivenNames z; refine (fun (_ : Can Q z) => ?_) ?_; (on_goal 2 => (dsimp -zeta only [z]; clear z)); (on_goal 1 => rename' z => z'))
    | (extract_lets +onlyGivenNames z; rename' z => z')
    | with_reducible apply Can.ite
    | with_reducible apply State.setRef_can
    | with_reducible apply State.lose_can

theorem State.formResiduals_can (s : State) (voters : List Nat) {Q : State} (h : Can Q s) : Can Q (State.formResiduals s voters) := by
  unfold State.formResiduals
  repeat' first
    | (extract_lets +onlyGivenNames z; rename' z => z')
    | with_reducible exact Can.with_ ‹_›

theorem State.updateStats_can (s : State) {Q : State} (h : Can Q s) : Can Q (State.updateStats s) := by
  unfold State.updateStats
  repeat' first
    | (extract_lets +onlyGivenNames z; rename' z => z')
    | with_reducible exact Can.with_ ‹_›

theorem State.showStats_can (s : State) (i : Nat) {Q : State} (h : Can Q s) : Can Q (State.showStats s i) := by
  unfold State.showStats
  repeat' first
    | with_reducible assumption
    | (extract_lets +onlyGivenNames z; refine (fun (_ : Can Q z) => ?_) ?_; (on_goal 2 => (dsimp -zeta only [z]; clear z)); (on_goal 1 => rename' z => z'))
    | (extract_lets +onlyGivenNames z; rename' z => z')
    | with_reducible apply State.wr_can
    | with_reducible apply State.setBit_can

theorem State.latchOffset_can (s : State) (i : Nat) {Q : State} (h : Can Q s) : Can Q (State.latchOffset s i) := by
  unfold State.latchOffset
  repeat' first
    | with_reducible assumption
    | (extract_lets +onlyGivenNames z; rename' z => z')
    | with_reducible apply State.wr_can
    | with_reducible apply State.wr64_can

theorem State.qualTimeExpire_can (s : State) (i : Nat) {Q : State} (h : Can Q s) : Can Q (State.qualTimeExpire s i) := by
  unfold State.qualTimeExpire
  repeat' first
    | with_reducible assumption
    | with_reducible apply Can.ite
    | with_reducible apply State.startTimer_can
    | with_reducible apply State.stopTimer_can
    | with_reducible apply State.setQ_can

theorem State.wtrExpire_can (s : State) (i : Nat) {Q : State} (h : Can Q s) : Can Q (State.wtrExpire s i) := by
  unfold State.wtrExpire
  repeat' first
    | with_reducible assumption
    | with_reducible apply State.stopTimer_can
    | with_reducible apply State.setQ_can

theorem State.qualFail_can (s : State) (i : Nat) {Q : State} (h : Can Q s) : Can Q (State.qualFail s i) := by
  unfold State.qualFail
  repeat' first
    | with_reducible assumption
    | with_reducible apply State.inc_can
    | with_reducible apply State.raise_can
    | with_reducible apply State.toCandidate_can

theorem State.qualify_can (s : State) (i : Nat) {Q : State} (h : Can Q s) : Can Q (State.qualify s i) := by
  unfold State.qualify
  repeat' first
    | with_reducible assumption
    | (extract_lets +onlyGivenNames z; refine (fun (_ : Can Q z) => ?_) ?_; (on_goal 2 => (dsimp -zeta only [z]; clear z)); (on_goal 1 => rename' z => z'))
    | with_reducible apply Can.ite
    | with_reducible apply State.setBit_can
    | with_reducible apply State.showTimer_can
    | with_reducible apply State.setQ_can
    | with_reducible apply State.toCandidate_can
    | with_reducible apply State.toUnavailable_can
    | with_reducible apply State.qualTimeExpire_can
    | with_reducible apply State.wtrExpire_can
    | with_reducible apply State.qualFail_can

theorem State.cleanRun_can (s : State) (i : Nat) {Q : State} (h : Can Q s) : Can Q (State.cleanRun s i) := by
  unfold State.cleanRun
  repeat' first
    | with_reducible assumption
    | (extract_lets +onlyGivenNames z; refine (fun (_ : Can Q z) => ?_) ?_; (on_goal 2 => (dsimp -zeta only [z]; clear z)); (on_goal 1 => rename' z => z'))
    | (extract_lets +onlyGivenNames z; rename' z => z')
    | with_reducible apply Can.ite
    | with_reducible apply State.setRef_can
    | with_reducible apply State.toCandidate_can

theorem State.distrust_can (s : State) (i stat which : Nat) {Q : State} (h : Can Q s) : Can Q (State.distrust s i stat which) := by
  unfold State.distrust
  repeat' first
    | with_reducible assumption
    | (extract_lets +onlyGivenNames z; refine (fun (_ : Can Q z) => ?_) ?_; (on_goal 2 => (dsimp -zeta only [z]; clear z)); (on_goal 1 => rename' z => z'))
    | (extract_lets +onlyGivenNames z; rename' z => z')
    | with_reducible apply Can.ite
    | with_reducible apply State.wr_can
    | with_reducible apply State.inc_can
    | with_reducible apply State.raise_can
    | with_reducible apply State.startTimer_can
    | with_reducible apply State.setQ_can
    | with_reducible exact Can.with_ ‹_›

theorem State.recompute_can (s : State) (pre : List RefIn) (voters out : List Nat) {Q : State} (h : Can Q s) : Can Q (State.recompute s pre voters out) := by
  unfold State.recompute
  repeat' first
    | (extract_lets +onlyGivenNames z; rename' z => z')
    | with_reducible exact Can.with_ ‹_›

theorem State.takeAlarms_can {Q : State} (pre : List RefIn) : ∀ (n : Nat) (voters out : List Nat) (s : State), Can Q s →
    Can Q (State.takeAlarms pre n voters out s)
  | 0, _, _, _, h => h
  | n + 1, voters, out, s, h => by
    unfold State.takeAlarms
    split
    · exact h
    · extract_lets r phase freq stat t left
      refine State.takeAlarms_can pre n _ _ _ (State.recompute_can _ _ _ _ (State.distrust_can _ _ _ _ ?_))
      exact State.when_can _ _ _ (State.when_can _ _ _ h (fun _ k => State.raise_can _ _ _ k)) (fun _ k => State.raise_can _ _ _ k)

theorem State.distrustDecisions_can (s : State) (pre : List RefIn) (voters : List Nat) {Q : State} (h : Can Q s) : Can Q (State.distrustDecisions s pre voters) := by
  unfold State.distrustDecisions
  repeat' first
    | with_reducible assumption
    | intro _
    | (extract_lets +onlyGivenNames z; refine (fun (_ : Can Q z) => ?_) ?_; (on_goal 2 => (dsimp -zeta only [z]; clear z)); (on_goal 1 => rename' z => z'))
    | (extract_lets +onlyGivenNames z; rename' z => z')
    | with_reducible apply State.when_can
    | with_reducible apply State.each_can
    | with_reducible apply State.raise_can
    | with_reducible apply State.setRef_can
    | with_reducible apply State.distrust_can
    | with_reducible apply State.recompute_can
    | with_reducible apply State.takeAlarms_can

theorem State.setSel_can (s : State) (i : Nat) {Q : State} (h : Can Q s) : Can Q (State.setSel s i) := by
  unfold State.setSel
  repeat' first
    | with_reducible assumption
    | (extract_lets +onlyGivenNames z; refine (fun (_ : Can Q z) => ?_) ?_; (on_goal 2 => (dsimp -zeta only [z]; clear z)); (on_goal 1 => rename' z => z'))
    | (extract_lets +onlyGivenNames z; rename' z => z')
    | with_reducible apply Can.ite
    | with_reducible apply State.sfW_can
    | with_reducible apply State.setBit_can
    | with_reducible apply State.raise_can
    | with_reducible exact Can.with_ ‹_›

theorem State.showBuildout_can (s : State) (b : Int) {Q : State} (h : Can Q s) : Can Q (State.showBuildout s b) := by
  unfold State.showBuildout
  repeat' first
    | with_reducible assumption
    | with_reducible apply State.wr_can

theorem State.startPrepare_can (s : State) (c : Nat) (ev : Nat) {Q : State} (h : Can Q s) : Can Q (State.startPrepare s c ev) := by
  unfold State.startPrepare
  repeat' first
    | with_reducible assumption
    | (extract_lets +onlyGivenNames z; refine (fun (_ : Can Q z) => ?_) ?_; (on_goal 2 => (dsimp -zeta only [z]; clear z)); (on_goal 1 => rename' z => z'))
    | (extract_lets +onlyGivenNames z; rename' z => z')
    | with_reducible apply State.sfW_can
    | with_reducible apply State.raise_can
    | with_reducible apply State.showBuildout_can
    | with_reducible exact Can.with_ ‹_›

theorem State.switchIdle_can (s : State) {Q : State} (h : Can Q s) : Can Q (State.switchIdle s) := by
  unfold State.switchIdle
  repeat' first
    | with_reducible assumption
    | (extract_lets +onlyGivenNames z; refine (fun (_ : Can Q z) => ?_) ?_; (on_goal 2 => (dsimp -zeta only [z]; clear z)); (on_goal 1 => rename' z => z'))
    | (extract_lets +onlyGivenNames z; rename' z => z')
    | with_reducible apply State.sfW_can
    | with_reducible exact Can.with_ ‹_›

theorem State.switchDone_can (s : State) {Q : State} (h : Can Q s) : Can Q (State.switchDone s) := by
  unfold State.switchDone
  repeat' first
    | with_reducible assumption
    | with_reducible apply State.inc_can
    | with_reducible apply State.raise_can
    | with_reducible apply State.switchIdle_can

theorem State.handleSelected_can (s : State) (theta : Int) {Q : State} (h : Can Q s) : Can Q (State.handleSelected s theta) := by
  unfold State.handleSelected
  repeat' first
    | with_reducible assumption
    | (extract_lets +onlyGivenNames z; refine (fun (_ : Can Q z) => ?_) ?_; (on_goal 2 => (dsimp -zeta only [z]; clear z)); (on_goal 1 => rename' z => z'))
    | (extract_lets +onlyGivenNames z; rename' z => z')
    | with_reducible apply Can.ite
    | with_reducible apply State.setBit_can
    | with_reducible apply State.raise_can
    | with_reducible apply State.handleOffset_can
    | with_reducible exact Can.with_ ‹_›

theorem State.dropAnchor_can (s : State) {Q : State} (h : Can Q s) : Can Q (State.dropAnchor s) := by
  unfold State.dropAnchor
  repeat' first
    | with_reducible assumption
    | intro _
    | (extract_lets +onlyGivenNames z; rename' z => z')
    | with_reducible apply State.wr_can
    | with_reducible apply State.each_can
    | with_reducible exact Can.with_ ‹_›

theorem State.acquire_can (s : State) {Q : State} (h : Can Q s) : Can Q (State.acquire s) := by
  unfold State.acquire
  repeat' first
    | with_reducible assumption
    | with_reducible apply State.setMode_can
    | with_reducible apply State.dropAnchor_can

theorem State.endPrepare_can (s : State) {Q : State} (h : Can Q s) : Can Q (State.endPrepare s) := by
  unfold State.endPrepare
  repeat' first
    | with_reducible assumption
    | (extract_lets +onlyGivenNames z; refine (fun (_ : Can Q z) => ?_) ?_; (on_goal 2 => (dsimp -zeta only [z]; clear z)); (on_goal 1 => rename' z => z'))
    | (extract_lets +onlyGivenNames z; rename' z => z')
    | with_reducible apply Can.ite
    | with_reducible apply State.sfW_can
    | with_reducible apply State.setRef_can
    | with_reducible apply State.setQ_can
    | with_reducible apply State.setSel_can
    | with_reducible apply State.showBuildout_can
    | with_reducible apply State.switchDone_can
    | with_reducible apply State.handleSelected_can
    | with_reducible apply State.acquire_can
    | with_reducible exact Can.with_ ‹_›

theorem State.slewOver_can (s : State) {Q : State} (h : Can Q s) : Can Q (State.slewOver s) := by
  unfold State.slewOver
  repeat' first
    | with_reducible assumption
    | with_reducible apply Can.ite
    | with_reducible apply State.switchDone_can

theorem State.switchFrom_can (s : State) (c : Option Nat) {Q : State} (h : Can Q s) : Can Q (State.switchFrom s c) := by
  unfold State.switchFrom
  repeat' first
    | with_reducible assumption
    | with_reducible apply Can.ite
    | with_reducible apply State.startPrepare_can
    | split

theorem State.abandonSwitch_can (s : State) (c : Option Nat) {Q : State} (h : Can Q s) : Can Q (State.abandonSwitch s c) := by
  unfold State.abandonSwitch
  repeat' first
    | with_reducible assumption
    | with_reducible apply State.raise_can
    | with_reducible apply State.switchIdle_can
    | with_reducible apply State.switchFrom_can

theorem State.switchMachine_can (s : State) (c : Option Nat) (was : List Nat) (force : Nat) {Q : State} (h : Can Q s) : Can Q (State.switchMachine s c was force) := by
  unfold State.switchMachine
  repeat' first
    | with_reducible assumption
    | (extract_lets +onlyGivenNames z; refine (fun (_ : Can Q z) => ?_) ?_; (on_goal 2 => (dsimp -zeta only [z]; clear z)); (on_goal 1 => rename' z => z'))
    | (extract_lets +onlyGivenNames z; rename' z => z')
    | with_reducible apply Can.ite
    | with_reducible apply State.startPrepare_can
    | with_reducible apply State.switchIdle_can
    | with_reducible apply State.endPrepare_can
    | with_reducible apply State.switchFrom_can
    | with_reducible apply State.abandonSwitch_can
    | with_reducible exact Can.with_ ‹_›
    | split

theorem State.noteForce_can (s : State) (force : Nat) {Q : State} (h : Can Q s) : Can Q (State.noteForce s force) := by
  unfold State.noteForce
  repeat' first
    | with_reducible assumption
    | intro _
    | (extract_lets +onlyGivenNames z; rename' z => z')
    | with_reducible apply State.when_can
    | with_reducible apply State.raise_can
    | with_reducible exact Can.with_ ‹_›

theorem State.dropSel_can (s : State) {Q : State} (h : Can Q s) : Can Q (State.dropSel s) := by
  unfold State.dropSel
  repeat' first
    | with_reducible assumption
    | intro _
    | with_reducible apply State.when_can
    | with_reducible apply State.setSel_can

theorem State.noteChoice_can (s : State) (chosen : Bool) {Q : State} (h : Can Q s) : Can Q (State.noteChoice s chosen) := by
  unfold State.noteChoice
  repeat' first
    | with_reducible assumption
    | intro _
    | (extract_lets +onlyGivenNames z; refine (fun (_ : Can Q z) => ?_) ?_; (on_goal 2 => (dsimp -zeta only [z]; clear z)); (on_goal 1 => rename' z => z'))
    | (extract_lets +onlyGivenNames z; rename' z => z')
    | with_reducible apply State.when_can
    | with_reducible apply State.raise_can
    | with_reducible exact Can.with_ ‹_›

theorem State.selection_can (s : State) (was : List Nat) {Q : State} (h : Can Q s) : Can Q (State.selection s was) := by
  unfold State.selection
  repeat' first
    | with_reducible assumption
    | (extract_lets +onlyGivenNames z; refine (fun (_ : Can Q z) => ?_) ?_; (on_goal 2 => (dsimp -zeta only [z]; clear z)); (on_goal 1 => rename' z => z'))
    | with_reducible apply State.switchMachine_can
    | with_reducible apply State.noteForce_can
    | with_reducible apply State.dropSel_can
    | with_reducible apply State.noteChoice_can

theorem State.ppsEdge_can (s : State) (i : Nat) (ps : Int) {Q : State} (h : Can Q s) : Can Q (State.ppsEdge s i ps) := by
  unfold State.ppsEdge
  repeat' first
    | with_reducible assumption
    | with_reducible apply State.deliver_can
    | with_reducible apply State.lose_can
    | split

theorem State.showContact_can (s : State) {Q : State} (h : Can Q s) : Can Q (State.showContact s) := by
  unfold State.showContact
  repeat' first
    | with_reducible assumption
    | (extract_lets +onlyGivenNames z; refine (fun (_ : Can Q z) => ?_) ?_; (on_goal 2 => (dsimp -zeta only [z]; clear z)); (on_goal 1 => rename' z => z'))
    | (extract_lets +onlyGivenNames z; rename' z => z')
    | with_reducible apply Can.ite
    | with_reducible apply State.setBit_can
    | with_reducible apply State.raise_can

theorem State.applyRefCfg_can (s : State) (old : Nat → Word) {Q : State} (h : Can Q s) : Can Q (State.applyRefCfg s old) := by
  unfold State.applyRefCfg
  repeat' first
    | with_reducible assumption
    | intro _
    | (extract_lets +onlyGivenNames z; refine (fun (_ : Can Q z) => ?_) ?_; (on_goal 2 => (dsimp -zeta only [z]; clear z)); (on_goal 1 => rename' z => z'))
    | (extract_lets +onlyGivenNames z; rename' z => z')
    | with_reducible apply Can.ite
    | with_reducible apply State.setBit_can
    | with_reducible apply State.each_can
    | with_reducible apply State.requalify_can
    | with_reducible apply State.showContact_can
    | with_reducible exact Can.with_ ‹_›

theorem State.refParityFault_can (s : State) (a : Nat) {Q : State} (h : Can Q s) : Can Q (State.refParityFault s a) := by
  unfold State.refParityFault
  repeat' first
    | with_reducible assumption
    | (extract_lets +onlyGivenNames z; refine (fun (_ : Can Q z) => ?_) ?_; (on_goal 2 => (dsimp -zeta only [z]; clear z)); (on_goal 1 => rename' z => z'))
    | with_reducible apply Can.ite
    | with_reducible apply State.setBit_can
    | with_reducible apply State.raise_can
    | with_reducible apply State.toUnavailable_can

end Sys2Proof.Machine
end

