-- ==== Sys2Proof/Laws/CanonHoldover.lean ====
section
/-!
SUPPORT. The canonical form of the sparse storage through every operation of Machine/Holdover.lean.
-/

set_option Elab.async false

namespace Sys2Proof.Machine

theorem State.setFreq_can (s : State) (x : Int) {Q : State} (h : Can Q s) : Can Q (State.setFreq s x) := by
  unfold State.setFreq
  repeat' first
    | with_reducible assumption
    | intro _
    | with_reducible apply State.wr_can
    | with_reducible apply State.when_can
    | with_reducible apply State.raise_can

theorem State.holdSteer_can (s : State) {Q : State} (h : Can Q s) : Can Q (State.holdSteer s) := by
  unfold State.holdSteer
  repeat' first
    | with_reducible assumption
    | with_reducible apply State.setFreq_can
    | split

theorem State.setHol_can (s : State) (f : Hol → Hol) {Q : State} (h : Can Q s) : Can Q (State.setHol s f) := by
  unfold State.setHol
  repeat' first
    | with_reducible exact Can.with_ ‹_›

theorem State.cisternStamp_can (s : State) {Q : State} (h : Can Q s) : Can Q (State.cisternStamp s) := by
  unfold State.cisternStamp
  repeat' first
    | with_reducible assumption
    | with_reducible apply State.setHol_can

theorem State.showAnchor_can (s : State) {Q : State} (h : Can Q s) : Can Q (State.showAnchor s) := by
  unfold State.showAnchor
  repeat' first
    | with_reducible assumption
    | (extract_lets +onlyGivenNames z; rename' z => z')
    | with_reducible apply State.wr_can

theorem State.startHold_can (s : State) (a : Anchor) (keepUt : Nat) {Q : State} (h : Can Q s) : Can Q (State.startHold s a keepUt) := by
  unfold State.startHold
  repeat' first
    | with_reducible assumption
    | (extract_lets +onlyGivenNames z; refine (fun (_ : Can Q z) => ?_) ?_; (on_goal 2 => (dsimp -zeta only [z]; clear z)); (on_goal 1 => rename' z => z'))
    | (extract_lets +onlyGivenNames z; rename' z => z')
    | with_reducible apply State.cisternStamp_can
    | with_reducible apply State.showAnchor_can
    | with_reducible exact Can.with_ ‹_›

theorem State.enterHoldover_can (s : State) {Q : State} (h : Can Q s) : Can Q (State.enterHoldover s) := by
  unfold State.enterHoldover
  repeat' first
    | with_reducible assumption
    | (extract_lets +onlyGivenNames z; refine (fun (_ : Can Q z) => ?_) ?_; (on_goal 2 => (dsimp -zeta only [z]; clear z)); (on_goal 1 => rename' z => z'))
    | (extract_lets +onlyGivenNames z; rename' z => z')
    | with_reducible apply State.raise_can
    | with_reducible apply State.setMode_can
    | with_reducible apply State.startHold_can
    | with_reducible exact Can.with_ ‹_›

theorem State.reanchorWith_can (s : State) (f : Anchor → Anchor) (inc : Nat) {Q : State} (h : Can Q s) : Can Q (State.reanchorWith s f inc) := by
  unfold State.reanchorWith
  repeat' first
    | with_reducible assumption
    | (extract_lets +onlyGivenNames z; refine (fun (_ : Can Q z) => ?_) ?_; (on_goal 2 => (dsimp -zeta only [z]; clear z)); (on_goal 1 => rename' z => z'))
    | (extract_lets +onlyGivenNames z; rename' z => z')
    | with_reducible apply State.inc_can
    | with_reducible apply State.raise_can
    | with_reducible apply State.startHold_can
    | split

theorem State.reanchor_can (s : State) (inc : Nat) {Q : State} (h : Can Q s) : Can Q (State.reanchor s inc) := by
  unfold State.reanchor
  repeat' first
    | with_reducible assumption
    | with_reducible apply State.reanchorWith_can

theorem State.aidBounds_can (s : State) {Q : State} (h : Can Q s) : Can Q (State.aidBounds s) := by
  unfold State.aidBounds
  repeat' first
    | with_reducible assumption
    | (extract_lets +onlyGivenNames z; refine (fun (_ : Can Q z) => ?_) ?_; (on_goal 2 => (dsimp -zeta only [z]; clear z)); (on_goal 1 => rename' z => z'))
    | (extract_lets +onlyGivenNames z; rename' z => z')
    | with_reducible apply State.wr_can
    | with_reducible apply State.setHol_can

theorem State.aidChange_can (s : State) {Q : State} (h : Can Q s) : Can Q (State.aidChange s) := by
  unfold State.aidChange
  repeat' first
    | with_reducible assumption
    | intro _
    | with_reducible apply Can.ite
    | with_reducible apply State.when_can
    | with_reducible apply State.reanchorWith_can
    | with_reducible apply State.reanchor_can
    | with_reducible apply State.aidBounds_can

theorem State.endAid_can (s : State) {Q : State} (h : Can Q s) : Can Q (State.endAid s) := by
  unfold State.endAid
  repeat' first
    | with_reducible assumption
    | intro _
    | with_reducible apply State.when_can
    | with_reducible apply State.setSel_can
    | with_reducible apply State.aidChange_can

theorem State.tempCheck_can (s : State) {Q : State} (h : Can Q s) : Can Q (State.tempCheck s) := by
  unfold State.tempCheck
  repeat' first
    | with_reducible assumption
    | intro _
    | (extract_lets +onlyGivenNames z; refine (fun (_ : Can Q z) => ?_) ?_; (on_goal 2 => (dsimp -zeta only [z]; clear z)); (on_goal 1 => rename' z => z'))
    | (extract_lets +onlyGivenNames z; rename' z => z')
    | with_reducible apply State.setBit_can
    | with_reducible apply State.when_can
    | with_reducible apply State.raise_can
    | with_reducible apply State.reanchor_can

theorem State.handover_can (s : State) (toCart unplanned : Bool) {Q : State} (h : Can Q s) : Can Q (State.handover s toCart unplanned) := by
  unfold State.handover
  repeat' first
    | with_reducible assumption
    | intro _
    | (extract_lets +onlyGivenNames z; refine (fun (_ : Can Q z) => ?_) ?_; (on_goal 2 => (dsimp -zeta only [z]; clear z)); (on_goal 1 => rename' z => z'))
    | (extract_lets +onlyGivenNames z; rename' z => z')
    | with_reducible apply State.setBit_can
    | with_reducible apply State.when_can
    | with_reducible apply State.inc_can
    | with_reducible apply State.raise_can
    | with_reducible apply State.journalize_can
    | with_reducible apply State.setFreq_can
    | with_reducible apply State.reanchor_can
    | with_reducible exact Can.with_ ‹_›

theorem State.putModel_can (s : State) (cart : Bool) (p : List Word) {Q : State} (h : Can Q s) : Can Q (State.putModel s cart p) := by
  unfold State.putModel
  repeat' first
    | with_reducible assumption
    | intro _
    | with_reducible apply State.wr_can
    | with_reducible apply State.each_can

theorem State.cisternModels_can (s : State) {Q : State} (h : Can Q s) : Can Q (State.cisternModels s) := by
  unfold State.cisternModels
  repeat' first
    | with_reducible assumption
    | with_reducible apply State.setHol_can

theorem State.flashModels_can (s : State) {Q : State} (h : Can Q s) : Can Q (State.flashModels s) := by
  unfold State.flashModels
  repeat' first
    | with_reducible assumption
    | with_reducible apply State.setHol_can

theorem State.writeModelBlock_can (s : State) {Q : State} (h : Can Q s) : Can Q (State.writeModelBlock s) := by
  unfold State.writeModelBlock
  repeat' first
    | with_reducible assumption
    | (extract_lets +onlyGivenNames z; rename' z => z')
    | with_reducible apply State.emit_can
    | with_reducible apply State.setHol_can

theorem State.showValid_can (s : State) (cart was now : Bool) {Q : State} (h : Can Q s) : Can Q (State.showValid s cart was now) := by
  unfold State.showValid
  repeat' first
    | with_reducible assumption
    | intro _
    | (extract_lets +onlyGivenNames z; refine (fun (_ : Can Q z) => ?_) ?_; (on_goal 2 => (dsimp -zeta only [z]; clear z)); (on_goal 1 => rename' z => z'))
    | with_reducible apply State.setBit_can
    | with_reducible apply State.when_can
    | with_reducible apply State.raise_can

theorem State.putFit_can (s : State) (cart : Bool) (flags : Nat) (w : List Word) {Q : State} (h : Can Q s) : Can Q (State.putFit s cart flags w) := by
  unfold State.putFit
  repeat' first
    | with_reducible assumption
    | (extract_lets +onlyGivenNames z; rename' z => z')
    | with_reducible apply State.putModel_can
    | with_reducible apply State.showValid_can

theorem State.unfit_can (s : State) (cart : Bool) {Q : State} (h : Can Q s) : Can Q (State.unfit s cart) := by
  unfold State.unfit
  repeat' first
    | with_reducible assumption
    | (extract_lets +onlyGivenNames z; rename' z => z')
    | with_reducible apply State.putFit_can

theorem State.refit_can (s : State) (cart : Bool) {Q : State} (h : Can Q s) : Can Q (State.refit s cart) := by
  unfold State.refit
  repeat' first
    | with_reducible assumption
    | intro _
    | (extract_lets +onlyGivenNames z; rename' z => z')
    | with_reducible apply Can.ite
    | with_reducible apply State.when_can
    | with_reducible apply State.putFit_can
    | with_reducible apply State.unfit_can

theorem State.sampleTick_can (s : State) {Q : State} (h : Can Q s) : Can Q (State.sampleTick s) := by
  unfold State.sampleTick
  repeat' first
    | with_reducible assumption
    | (extract_lets +onlyGivenNames z; rename' z => z')
    | with_reducible apply State.setHol_can

theorem State.newInterval_can (s : State) {Q : State} (h : Can Q s) : Can Q (State.newInterval s) := by
  unfold State.newInterval
  repeat' first
    | with_reducible assumption
    | with_reducible apply State.setHol_can

theorem State.modelSample_can (s : State) {Q : State} (h : Can Q s) : Can Q (State.modelSample s) := by
  unfold State.modelSample
  repeat' first
    | with_reducible assumption
    | intro _
    | (extract_lets +onlyGivenNames z; refine (fun (_ : Can Q z) => ?_) ?_; (on_goal 2 => (dsimp -zeta only [z]; clear z)); (on_goal 1 => rename' z => z'))
    | (extract_lets +onlyGivenNames z; rename' z => z')
    | with_reducible apply Can.ite
    | with_reducible apply State.when_can
    | with_reducible apply State.setHol_can
    | with_reducible apply State.cisternModels_can
    | with_reducible apply State.refit_can
    | with_reducible apply State.newInterval_can

theorem State.showCartTimer_can (s : State) {Q : State} (h : Can Q s) : Can Q (State.showCartTimer s) := by
  unfold State.showCartTimer
  repeat' first
    | with_reducible assumption
    | with_reducible apply State.sfW_can

theorem State.setCart_can (s : State) (st : Nat) (limit : Option Nat) {Q : State} (h : Can Q s) : Can Q (State.setCart s st limit) := by
  unfold State.setCart
  repeat' first
    | with_reducible assumption
    | with_reducible apply State.sfW_can
    | with_reducible apply State.setHol_can
    | with_reducible apply State.showCartTimer_can

theorem State.setPd2_can (s : State) (on : Bool) {Q : State} (h : Can Q s) : Can Q (State.setPd2 s on) := by
  unfold State.setPd2
  repeat' first
    | with_reducible assumption
    | with_reducible apply State.setBit_can

theorem State.cartUnpowered_can (s : State) {Q : State} (h : Can Q s) : Can Q (State.cartUnpowered s) := by
  unfold State.cartUnpowered
  repeat' first
    | with_reducible assumption
    | with_reducible apply State.wr_can

theorem State.cartFault_can (s : State) (reason : Nat) {Q : State} (h : Can Q s) : Can Q (State.cartFault s reason) := by
  unfold State.cartFault
  repeat' first
    | with_reducible assumption
    | intro _
    | (extract_lets +onlyGivenNames z; refine (fun (_ : Can Q z) => ?_) ?_; (on_goal 2 => (dsimp -zeta only [z]; clear z)); (on_goal 1 => rename' z => z'))
    | with_reducible apply State.sfW_can
    | with_reducible apply State.when_can
    | with_reducible apply State.raise_can
    | with_reducible apply State.setHol_can
    | with_reducible apply State.handover_can
    | with_reducible apply State.setCart_can
    | with_reducible apply State.setPd2_can
    | with_reducible apply State.cartUnpowered_can

theorem State.cartPower_can (s : State) {Q : State} (h : Can Q s) : Can Q (State.cartPower s) := by
  unfold State.cartPower
  repeat' first
    | with_reducible assumption
    | with_reducible apply State.setCart_can
    | with_reducible apply State.setPd2_can

theorem State.cartIdentify_can (s : State) (code rev serial : Nat) (b : Bytes) {Q : State} (h : Can Q s) : Can Q (State.cartIdentify s code rev serial b) := by
  unfold State.cartIdentify
  repeat' first
    | with_reducible assumption
    | intro _
    | (extract_lets +onlyGivenNames z; refine (fun (_ : Can Q z) => ?_) ?_; (on_goal 2 => (dsimp -zeta only [z]; clear z)); (on_goal 1 => rename' z => z'))
    | (extract_lets +onlyGivenNames z; rename' z => z')
    | with_reducible apply Can.ite
    | with_reducible apply State.wr_can
    | with_reducible apply State.wr64_can
    | with_reducible apply State.when_can
    | with_reducible apply State.setHol_can
    | with_reducible apply State.putFit_can
    | with_reducible apply State.setCart_can
    | with_reducible apply State.cartFault_can

theorem State.releaseNow_can (s : State) {Q : State} (h : Can Q s) : Can Q (State.releaseNow s) := by
  unfold State.releaseNow
  repeat' first
    | with_reducible assumption
    | with_reducible apply State.setHol_can
    | with_reducible apply State.writeModelBlock_can

theorem State.cartRelease_can (s : State) {Q : State} (h : Can Q s) : Can Q (State.cartRelease s) := by
  unfold State.cartRelease
  repeat' first
    | with_reducible assumption
    | with_reducible apply Can.ite
    | with_reducible apply State.setHol_can
    | with_reducible apply State.releaseNow_can

theorem State.cartReleased_can (s : State) {Q : State} (h : Can Q s) : Can Q (State.cartReleased s) := by
  unfold State.cartReleased
  repeat' first
    | with_reducible assumption
    | with_reducible apply State.setHol_can
    | with_reducible apply State.setCart_can
    | with_reducible apply State.setPd2_can
    | with_reducible apply State.cartUnpowered_can

theorem State.cartForget_can (s : State) {Q : State} (h : Can Q s) : Can Q (State.cartForget s) := by
  unfold State.cartForget
  repeat' first
    | with_reducible assumption
    | intro _
    | (extract_lets +onlyGivenNames z; refine (fun (_ : Can Q z) => ?_) ?_; (on_goal 2 => (dsimp -zeta only [z]; clear z)); (on_goal 1 => rename' z => z'))
    | (extract_lets +onlyGivenNames z; rename' z => z')
    | with_reducible apply State.when_can
    | with_reducible apply State.emit_can
    | with_reducible apply State.setHol_can
    | with_reducible apply State.putFit_can

theorem State.cartCmd_can (s : State) (v : Word) {Q : State} (h : Can Q s) : Can Q (State.cartCmd s v) := by
  unfold State.cartCmd
  repeat' first
    | with_reducible assumption
    | with_reducible apply State.cartPower_can
    | with_reducible apply State.cartRelease_can
    | with_reducible apply State.cartForget_can
    | split

theorem State.cartMeasure_can (s : State) {Q : State} (h : Can Q s) : Can Q (State.cartMeasure s) := by
  unfold State.cartMeasure
  repeat' first
    | with_reducible assumption
    | (extract_lets +onlyGivenNames z; refine (fun (_ : Can Q z) => ?_) ?_; (on_goal 2 => (dsimp -zeta only [z]; clear z)); (on_goal 1 => rename' z => z'))
    | (extract_lets +onlyGivenNames z; rename' z => z')
    | with_reducible apply Can.ite
    | with_reducible apply State.setHol_can
    | with_reducible apply State.cartFault_can

theorem State.plannedHandover_can (s : State) (sec : Nat) {Q : State} (h : Can Q s) : Can Q (State.plannedHandover s sec) := by
  unfold State.plannedHandover
  repeat' first
    | with_reducible assumption
    | intro _
    | (extract_lets +onlyGivenNames z; refine (fun (_ : Can Q z) => ?_) ?_; (on_goal 2 => (dsimp -zeta only [z]; clear z)); (on_goal 1 => rename' z => z'))
    | with_reducible apply Can.ite
    | with_reducible apply State.when_can
    | with_reducible apply State.handover_can
    | with_reducible apply State.flashModels_can
    | with_reducible apply State.setCart_can
    | with_reducible apply State.releaseNow_can
    | split

theorem State.rejudge_can (s : State) (cart : Bool) {Q : State} (h : Can Q s) : Can Q (State.rejudge s cart) := by
  unfold State.rejudge
  repeat' first
    | with_reducible assumption
    | intro _
    | (extract_lets +onlyGivenNames z; rename' z => z')
    | with_reducible apply State.when_can
    | with_reducible apply State.refit_can

theorem State.applyHolCfg_can (s : State) {Q : State} (h : Can Q s) : Can Q (State.applyHolCfg s) := by
  unfold State.applyHolCfg
  repeat' first
    | with_reducible assumption
    | with_reducible apply State.setBit_can
    | with_reducible apply State.rejudge_can

theorem State.holParityFault_can (s : State) {Q : State} (h : Can Q s) : Can Q (State.holParityFault s) := by
  unfold State.holParityFault
  repeat' first
    | with_reducible assumption
    | with_reducible apply State.setBit_can
    | with_reducible apply State.raise_can

end Sys2Proof.Machine
end

