-- ==== Sys2Proof/Laws/CanonDiscipline.lean ====
section
/-!
SUPPORT. The canonical form of the sparse storage through every operation of Machine/Discipline.lean.
-/

set_option Elab.async false

namespace Sys2Proof.Machine

theorem State.recordEval_can (s : State) {Q : State} (h : Can Q s) : Can Q (State.recordEval s) := by
  unfold State.recordEval
  repeat' first
    | (extract_lets +onlyGivenNames z; rename' z => z')
    | with_reducible exact Can.with_ ‹_›

theorem State.setPhi_can (s : State) (theta : Int) {Q : State} (h : Can Q s) : Can Q (State.setPhi s theta) := by
  unfold State.setPhi
  repeat' first
    | (extract_lets +onlyGivenNames z; rename' z => z')
    | with_reducible exact Can.with_ ‹_›

theorem State.steerOffset_can (s : State) {Q : State} (h : Can Q s) : Can Q (State.steerOffset s) := by
  unfold State.steerOffset
  repeat' first
    | with_reducible assumption
    | intro _
    | (extract_lets +onlyGivenNames z; refine (fun (_ : Can Q z) => ?_) ?_; (on_goal 2 => (dsimp -zeta only [z]; clear z)); (on_goal 1 => rename' z => z'))
    | (extract_lets +onlyGivenNames z; rename' z => z')
    | with_reducible apply Can.ite
    | with_reducible apply State.when_can
    | with_reducible apply State.handleSelected_can
    | with_reducible apply State.setPhi_can
    | with_reducible exact Can.with_ ‹_›
    | split

theorem State.noteMeasured_can (s : State) {Q : State} (h : Can Q s) : Can Q (State.noteMeasured s) := by
  unfold State.noteMeasured
  repeat' first
    | (extract_lets +onlyGivenNames z; rename' z => z')
    | with_reducible exact Can.with_ ‹_›

theorem State.evalMode_can (s : State) {Q : State} (h : Can Q s) : Can Q (State.evalMode s) := by
  unfold State.evalMode
  repeat' first
    | with_reducible assumption
    | (extract_lets +onlyGivenNames z; rename' z => z')
    | with_reducible apply Can.ite
    | with_reducible apply State.acquire_can
    | with_reducible apply State.enterHoldover_can
    | with_reducible apply State.aidChange_can

theorem State.showElapsed_can (s : State) {Q : State} (h : Can Q s) : Can Q (State.showElapsed s) := by
  unfold State.showElapsed
  repeat' first
    | with_reducible assumption
    | intro _
    | with_reducible apply State.wr_can
    | with_reducible apply State.when_can

theorem State.takeFrequencies_can (s : State) {Q : State} (h : Can Q s) : Can Q (State.takeFrequencies s) := by
  unfold State.takeFrequencies
  repeat' first
    | with_reducible assumption
    | intro _
    | (extract_lets +onlyGivenNames z; refine (fun (_ : Can Q z) => ?_) ?_; (on_goal 2 => (dsimp -zeta only [z]; clear z)); (on_goal 1 => rename' z => z'))
    | (extract_lets +onlyGivenNames z; rename' z => z')
    | with_reducible apply State.when_can
    | with_reducible apply State.each_can
    | with_reducible apply State.setRef_can
    | with_reducible apply State.lose_can
    | with_reducible exact Can.with_ ‹_›

theorem State.lossCheck_can (s : State) {Q : State} (h : Can Q s) : Can Q (State.lossCheck s) := by
  unfold State.lossCheck
  repeat' first
    | with_reducible assumption
    | intro _
    | with_reducible apply State.when_can
    | with_reducible apply State.each_can
    | with_reducible apply State.lose_can

theorem State.evalMeasure_can (s : State) (voters : List Nat) {Q : State} (h : Can Q s) : Can Q (State.evalMeasure s voters) := by
  unfold State.evalMeasure
  repeat' first
    | with_reducible assumption
    | intro _
    | (extract_lets +onlyGivenNames z; refine (fun (_ : Can Q z) => ?_) ?_; (on_goal 2 => (dsimp -zeta only [z]; clear z)); (on_goal 1 => rename' z => z'))
    | with_reducible apply State.each_can
    | with_reducible apply State.formResiduals_can
    | with_reducible apply State.updateStats_can
    | with_reducible apply State.qualify_can

theorem State.evaluate_can (s : State) {Q : State} (h : Can Q s) : Can Q (State.evaluate s) := by
  unfold State.evaluate
  repeat' first
    | with_reducible assumption
    | intro _
    | (extract_lets +onlyGivenNames z; refine (fun (_ : Can Q z) => ?_) ?_; (on_goal 2 => (dsimp -zeta only [z]; clear z)); (on_goal 1 => rename' z => z'))
    | (extract_lets +onlyGivenNames z; rename' z => z')
    | with_reducible apply State.each_can
    | with_reducible apply State.mapQuality_can
    | with_reducible apply State.takeOffset_can
    | with_reducible apply State.showStats_can
    | with_reducible apply State.cleanRun_can
    | with_reducible apply State.distrustDecisions_can
    | with_reducible apply State.slewOver_can
    | with_reducible apply State.selection_can
    | with_reducible apply State.tempCheck_can
    | with_reducible apply State.showCartTimer_can
    | with_reducible apply State.cartMeasure_can
    | with_reducible apply State.recordEval_can
    | with_reducible apply State.steerOffset_can
    | with_reducible apply State.noteMeasured_can
    | with_reducible apply State.evalMode_can
    | with_reducible apply State.showElapsed_can
    | with_reducible apply State.takeFrequencies_can
    | with_reducible apply State.lossCheck_can
    | with_reducible apply State.evalMeasure_can
    | with_reducible exact Can.with_ ‹_›

theorem State.slewTick_can (s : State) {Q : State} (h : Can Q s) : Can Q (State.slewTick s) := by
  unfold State.slewTick
  repeat' first
    | with_reducible assumption
    | intro _
    | (extract_lets +onlyGivenNames z; refine (fun (_ : Can Q z) => ?_) ?_; (on_goal 2 => (dsimp -zeta only [z]; clear z)); (on_goal 1 => rename' z => z'))
    | (extract_lets +onlyGivenNames z; rename' z => z')
    | with_reducible apply State.when_can
    | with_reducible apply State.raise_can
    | with_reducible apply State.slewOver_can
    | with_reducible exact Can.with_ ‹_›

theorem State.loopTick_can (s : State) (phi : Int) {Q : State} (h : Can Q s) : Can Q (State.loopTick s phi) := by
  unfold State.loopTick
  repeat' first
    | (extract_lets +onlyGivenNames z; rename' z => z')
    | with_reducible apply State.setFreq_can
    | with_reducible exact Can.with_ ‹_›

theorem State.steerTick_can (s : State) {Q : State} (h : Can Q s) : Can Q (State.steerTick s) := by
  unfold State.steerTick
  repeat' first
    | with_reducible assumption
    | intro _
    | (extract_lets +onlyGivenNames z; rename' z => z')
    | with_reducible apply Can.ite
    | with_reducible apply State.when_can
    | with_reducible apply State.setFreq_can
    | with_reducible apply State.holdSteer_can
    | with_reducible apply State.loopTick_can

theorem State.noteSaturation_can (s : State) (c : Nat) {Q : State} (h : Can Q s) : Can Q (State.noteSaturation s c) := by
  unfold State.noteSaturation
  repeat' first
    | with_reducible assumption
    | intro _
    | (extract_lets +onlyGivenNames z; rename' z => z')
    | with_reducible apply State.when_can
    | with_reducible apply State.raise_can
    | with_reducible exact Can.with_ ‹_›

theorem State.reportRadius_can (s : State) (c : Nat) {Q : State} (h : Can Q s) : Can Q (State.reportRadius s c) := by
  unfold State.reportRadius
  repeat' first
    | (extract_lets +onlyGivenNames z; rename' z => z')
    | with_reducible apply Can.ite
    | with_reducible apply State.noteSaturation_can
    | with_reducible exact Can.with_ ‹_›

theorem State.modeTick_can (s : State) {Q : State} (h : Can Q s) : Can Q (State.modeTick s) := by
  unfold State.modeTick
  repeat' first
    | with_reducible assumption
    | intro _
    | (extract_lets +onlyGivenNames z; rename' z => z')
    | with_reducible apply Can.ite
    | with_reducible apply State.when_can
    | with_reducible apply State.raise_can
    | with_reducible apply State.setMode_can
    | with_reducible exact Can.with_ ‹_›
    | split

theorem State.tickHistory_can (s : State) {Q : State} (h : Can Q s) : Can Q (State.tickHistory s) := by
  unfold State.tickHistory
  repeat' first
    | with_reducible assumption
    | (extract_lets +onlyGivenNames z; refine (fun (_ : Can Q z) => ?_) ?_; (on_goal 2 => (dsimp -zeta only [z]; clear z)); (on_goal 1 => rename' z => z'))
    | (extract_lets +onlyGivenNames z; rename' z => z')
    | with_reducible apply State.sampleTick_can
    | with_reducible exact Can.with_ ‹_›

theorem State.sense_can (s : State) (m : TickMeas) (second : Bool) {Q : State} (h : Can Q s) : Can Q (State.sense s m second) := by
  unfold State.sense
  repeat' first
    | with_reducible assumption
    | intro _
    | (extract_lets +onlyGivenNames z; refine (fun (_ : Can Q z) => ?_) ?_; (on_goal 2 => (dsimp -zeta only [z]; clear z)); (on_goal 1 => rename' z => z'))
    | with_reducible apply State.wr_can
    | with_reducible apply State.setBit_can
    | with_reducible apply State.when_can

theorem State.synceTick_can (s : State) (m : TickMeas) {Q : State} (h : Can Q s) : Can Q (State.synceTick s m) := by
  unfold State.synceTick
  repeat' first
    | (extract_lets +onlyGivenNames z; rename' z => z')
    | with_reducible exact Can.with_ ‹_›

theorem State.tickWork_can (s : State) {Q : State} (h : Can Q s) : Can Q (State.tickWork s) := by
  unfold State.tickWork
  repeat' first
    | with_reducible assumption
    | (extract_lets +onlyGivenNames z; refine (fun (_ : Can Q z) => ?_) ?_; (on_goal 2 => (dsimp -zeta only [z]; clear z)); (on_goal 1 => rename' z => z'))
    | with_reducible apply State.slewTick_can
    | with_reducible apply State.steerTick_can
    | with_reducible apply State.reportRadius_can
    | with_reducible apply State.modeTick_can
    | with_reducible apply State.tickHistory_can

theorem State.tick_can (s : State) (m : TickMeas) (e : CalEntry) {Q : State} (h : Can Q s) : Can Q (State.tick s m e) := by
  unfold State.tick
  repeat' first
    | with_reducible assumption
    | with_reducible apply State.plannedHandover_can
    | with_reducible apply State.evaluate_can
    | with_reducible apply State.sense_can
    | with_reducible apply State.synceTick_can
    | with_reducible apply State.tickWork_can
    | split

theorem State.settlePhi_can (s : State) (theta : Option Int) {Q : State} (h : Can Q s) : Can Q (State.settlePhi s theta) := by
  unfold State.settlePhi
  repeat' first
    | with_reducible assumption
    | with_reducible apply State.setPhi_can

theorem State.stepDecision_can (s : State) (p : PostedStep) {Q : State} (h : Can Q s) : Can Q (State.stepDecision s p).1 := by
  unfold State.stepDecision
  repeat' first
    | with_reducible assumption
    | (extract_lets +onlyGivenNames z; refine (fun (_ : Can Q z) => ?_) ?_; (on_goal 2 => (dsimp -zeta only [z]; clear z)); (on_goal 1 => rename' z => z'))
    | (extract_lets +onlyGivenNames z; rename' z => z')
    | with_reducible apply Can.ite1
    | with_reducible apply State.slew_can
    | with_reducible apply State.clearStep_can
    | with_reducible apply State.expireStep_can
    | with_reducible apply State.handleSelected_can
    | with_reducible apply State.settlePhi_can
    | with_reducible exact Can.with_ ‹_›
    | split

theorem State.stepDecision_pair (s : State) (p : PostedStep) {u : State} {x : _} (hq : (State.stepDecision s p) = (u, x)) {Q : State} (h : Can Q s) : Can Q u := by
  have k := State.stepDecision_can s p h
  rw [hq] at k
  exact k

theorem State.answerSelected_can (s : State) (v : Word) {Q : State} (h : Can Q s) : Can Q (State.answerSelected s v) := by
  unfold State.answerSelected
  repeat' first
    | with_reducible assumption
    | with_reducible apply Can.ite
    | with_reducible apply State.setBit_can
    | with_reducible apply State.raise_can
    | with_reducible apply State.answerStep_can

theorem State.tscParityFault_can (s : State) {Q : State} (h : Can Q s) : Can Q (State.tscParityFault s) := by
  unfold State.tscParityFault
  repeat' first
    | with_reducible assumption
    | intro _
    | (extract_lets +onlyGivenNames z; refine (fun (_ : Can Q z) => ?_) ?_; (on_goal 2 => (dsimp -zeta only [z]; clear z)); (on_goal 1 => rename' z => z'))
    | (extract_lets +onlyGivenNames z; rename' z => z')
    | with_reducible apply State.when_can
    | with_reducible apply State.raise_can
    | with_reducible apply State.calDrop_can
    | with_reducible apply State.expireStep_can
    | with_reducible apply State.enterHoldover_can
    | with_reducible exact Can.with_ ‹_›

theorem State.kaEnter_can (s : State) {Q : State} (h : Can Q s) : Can Q (State.kaEnter s) := by
  unfold State.kaEnter
  repeat' first
    | with_reducible assumption
    | intro _
    | (extract_lets +onlyGivenNames z; refine (fun (_ : Can Q z) => ?_) ?_; (on_goal 2 => (dsimp -zeta only [z]; clear z)); (on_goal 1 => rename' z => z'))
    | (extract_lets +onlyGivenNames z; rename' z => z')
    | with_reducible apply Can.ite
    | with_reducible apply State.when_can
    | with_reducible apply State.setHol_can
    | with_reducible apply State.cisternStamp_can
    | with_reducible apply State.enterHoldover_can
    | with_reducible apply State.endAid_can
    | with_reducible apply State.handover_can
    | with_reducible apply State.cisternModels_can
    | with_reducible apply State.setCart_can
    | with_reducible exact Can.with_ ‹_›

theorem State.cisternSecond_can (s : State) {Q : State} (h : Can Q s) : Can Q (State.cisternSecond s) := by
  unfold State.cisternSecond
  repeat' first
    | with_reducible assumption
    | intro _
    | (extract_lets +onlyGivenNames z; refine (fun (_ : Can Q z) => ?_) ?_; (on_goal 2 => (dsimp -zeta only [z]; clear z)); (on_goal 1 => rename' z => z'))
    | (extract_lets +onlyGivenNames z; rename' z => z')
    | with_reducible apply State.when_can
    | with_reducible apply State.holdSteer_can
    | with_reducible apply State.setHol_can
    | with_reducible exact Can.with_ ‹_›
    | split

theorem State.kaTick_can (s : State) (tempKeeper : Int) (tempCart : Option Int) {Q : State} (h : Can Q s) : Can Q (State.kaTick s tempKeeper tempCart) := by
  unfold State.kaTick
  repeat' first
    | with_reducible assumption
    | intro _
    | (extract_lets +onlyGivenNames z; refine (fun (_ : Can Q z) => ?_) ?_; (on_goal 2 => (dsimp -zeta only [z]; clear z)); (on_goal 1 => rename' z => z'))
    | (extract_lets +onlyGivenNames z; rename' z => z')
    | with_reducible apply Can.ite
    | with_reducible apply State.when_can
    | with_reducible apply State.holdSteer_can
    | with_reducible apply State.cisternStamp_can
    | with_reducible apply State.tempCheck_can
    | with_reducible apply State.showElapsed_can
    | with_reducible apply State.modeTick_can
    | with_reducible apply State.sense_can
    | with_reducible apply State.cisternSecond_can
    | with_reducible exact Can.with_ ‹_›

theorem State.todValid_can (s : State) (sec q : Nat) {Q : State} (h : Can Q s) : Can Q (State.todValid s sec q) := by
  unfold State.todValid
  repeat' first
    | with_reducible assumption
    | (extract_lets +onlyGivenNames z; refine (fun (_ : Can Q z) => ?_) ?_; (on_goal 2 => (dsimp -zeta only [z]; clear z)); (on_goal 1 => rename' z => z'))
    | (extract_lets +onlyGivenNames z; rename' z => z')
    | with_reducible apply State.setRef_can
    | with_reducible exact Can.with_ ‹_›

end Sys2Proof.Machine
end

