-- ==== Sys2Proof/Laws/CanonHeadrace.lean ====
section
/-!
SUPPORT. The canonical form of the sparse storage through every operation of Machine/Headrace.lean.
-/

set_option Elab.async false

namespace Sys2Proof.Machine

theorem State.setQueue_can (s : State) (p : Nat) (f : List Request → List Request) {Q : State} (h : Can Q s) : Can Q (State.setQueue s p f) := by
  unfold State.setQueue
  repeat' first
    | with_reducible assumption
    | (extract_lets +onlyGivenNames z; refine (fun (_ : Can Q z) => ?_) ?_; (on_goal 2 => (dsimp -zeta only [z]; clear z)); (on_goal 1 => rename' z => z'))
    | (extract_lets +onlyGivenNames z; rename' z => z')
    | with_reducible apply State.sfW_can
    | with_reducible exact Can.with_ ‹_›

theorem State.showPipes_can (s : State) {Q : State} (h : Can Q s) : Can Q (State.showPipes s) := by
  unfold State.showPipes
  repeat' first
    | with_reducible assumption
    | intro _
    | (extract_lets +onlyGivenNames z; refine (fun (_ : Can Q z) => ?_) ?_; (on_goal 2 => (dsimp -zeta only [z]; clear z)); (on_goal 1 => rename' z => z'))
    | (extract_lets +onlyGivenNames z; rename' z => z')
    | with_reducible apply State.sfW_can
    | with_reducible apply State.setBit_can
    | with_reducible apply State.each_can

theorem State.queueDrop_can (s : State) {Q : State} (h : Can Q s) : Can Q (State.queueDrop s) := by
  unfold State.queueDrop
  repeat' first
    | with_reducible assumption
    | with_reducible apply State.inc_can
    | with_reducible apply State.raise_can

theorem State.enqueue_can (s : State) (p : Nat) (r : Request) {Q : State} (h : Can Q s) : Can Q (State.enqueue s p r).1 := by
  unfold State.enqueue
  repeat' first
    | with_reducible assumption
    | with_reducible apply Can.ite1
    | with_reducible apply State.sampleDrop_can
    | with_reducible apply State.setQueue_can
    | with_reducible apply State.queueDrop_can

theorem State.enqueue_pair (s : State) (p : Nat) (r : Request) {u : State} {x : _} (hq : (State.enqueue s p r) = (u, x)) {Q : State} (h : Can Q s) : Can Q u := by
  have k := State.enqueue_can s p r h
  rw [hq] at k
  exact k

theorem State.handToPipe_can (s : State) (p : Nat) (r : Request) {Q : State} (h : Can Q s) : Can Q (State.handToPipe s p r) := by
  unfold State.handToPipe
  repeat' first
    | with_reducible assumption
    | (extract_lets +onlyGivenNames z; refine (fun (_ : Can Q z.1) => ?_) ?_; (on_goal 2 => (dsimp -zeta only [z]; clear z)); (on_goal 1 => rename' z => z'))
    | with_reducible apply Can.ite
    | with_reducible apply State.inc_can
    | with_reducible apply State.enqueue_can

theorem State.endMove_can (s : State) (b : Nat) {Q : State} (h : Can Q s) : Can Q (State.endMove s b) := by
  unfold State.endMove
  repeat' first
    | with_reducible assumption
    | intro _
    | (extract_lets +onlyGivenNames z; refine (fun (_ : Can Q z) => ?_) ?_; (on_goal 2 => (dsimp -zeta only [z]; clear z)); (on_goal 1 => rename' z => z'))
    | (extract_lets +onlyGivenNames z; rename' z => z')
    | with_reducible apply Can.ite
    | with_reducible apply State.each_can
    | with_reducible apply State.showPipes_can
    | with_reducible apply State.handToPipe_can
    | with_reducible exact Can.with_ ‹_›
    | split

theorem State.moveBucket_can (s : State) (b p q : Nat) {Q : State} (h : Can Q s) : Can Q (State.moveBucket s b p q) := by
  unfold State.moveBucket
  repeat' first
    | with_reducible assumption
    | (extract_lets +onlyGivenNames z; refine (fun (_ : Can Q z) => ?_) ?_; (on_goal 2 => (dsimp -zeta only [z]; clear z)); (on_goal 1 => rename' z => z'))
    | (extract_lets +onlyGivenNames z; rename' z => z')
    | with_reducible apply Can.ite
    | with_reducible apply State.inc_can
    | with_reducible apply State.raise_can
    | with_reducible apply State.showPipes_can
    | with_reducible apply State.endMove_can
    | with_reducible exact Can.with_ ‹_›

theorem State.moveAway_can (s : State) (p : Nat) {Q : State} (h : Can Q s) : Can Q (State.moveAway s p) := by
  unfold State.moveAway
  repeat' first
    | with_reducible assumption
    | intro _
    | with_reducible apply State.sfW_can
    | with_reducible apply State.each_can
    | with_reducible apply State.moveBucket_can
    | split

theorem State.losePipe_can (s : State) (p : Nat) {Q : State} (h : Can Q s) : Can Q (State.losePipe s p) := by
  unfold State.losePipe
  repeat' first
    | with_reducible assumption
    | intro _
    | (extract_lets +onlyGivenNames z; rename' z => z')
    | with_reducible apply State.each_can
    | with_reducible apply State.count_can
    | with_reducible apply State.sampleDrop_can
    | with_reducible apply State.setQueue_can

theorem State.headDrop_can (s : State) (kind : ReqKind) (fr : RxFrame) (k counter outcome detail : Nat) {Q : State} (h : Can Q s) : Can Q (State.headDrop s kind fr k counter outcome detail) := by
  unfold State.headDrop
  repeat' first
    | with_reducible assumption
    | (extract_lets +onlyGivenNames z; refine (fun (_ : Can Q z.2) => ?_) ?_; (on_goal 2 => (dsimp -zeta only [z]; clear z)); (on_goal 1 => rename' z => z'))
    | (extract_lets +onlyGivenNames z; rename' z => z')
    | with_reducible apply State.inc_can
    | with_reducible apply State.sampleStart_can
    | with_reducible apply State.sampleDrop_can

theorem State.admitRequest_can (s : State) (kind : ReqKind) (fr : RxFrame) (k : Nat) {Q : State} (h : Can Q s) : Can Q (State.admitRequest s kind fr k) := by
  unfold State.admitRequest
  repeat' first
    | with_reducible assumption
    | (extract_lets +onlyGivenNames z; refine (fun (_ : Can Q z) => ?_) ?_; (on_goal 2 => (dsimp -zeta only [z]; clear z)); (on_goal 1 => rename' z => z'))
    | (extract_lets +onlyGivenNames z; refine (fun (_ : Can Q z.2) => ?_) ?_; (on_goal 2 => (dsimp -zeta only [z]; clear z)); (on_goal 1 => rename' z => z'))
    | (extract_lets +onlyGivenNames z; rename' z => z')
    | with_reducible apply Can.ite
    | with_reducible apply State.sampleStart_can
    | with_reducible apply State.sampleDrop_can
    | with_reducible apply State.queueDrop_can
    | with_reducible apply State.handToPipe_can
    | with_reducible exact Can.with_ ‹_›
    | split

theorem State.claim_can (s : State) (kind : ClaimKind) (fr : RxFrame) {Q : State} (h : Can Q s) : Can Q (State.claim s kind fr) := by
  unfold State.claim
  repeat' first
    | (extract_lets +onlyGivenNames z; rename' z => z')
    | with_reducible exact Can.with_ ‹_›

theorem State.takeClaim_some (s : State) (p : Claim → Bool) {x : _} {u : State} (hq : State.takeClaim s p = some (x, u))
    {Q : State} (h : Can Q s) : Can Q u := by
  unfold State.takeClaim at hq
  split at hq
  · cases hq
  · cases hq
    exact h.with_

theorem State.classifyNtp_can (s : State) (fr : RxFrame) (p : Packet) (k : Nat) {Q : State} (h : Can Q s) : Can Q (State.classifyNtp s fr p k) := by
  unfold State.classifyNtp
  repeat' first
    | with_reducible assumption
    | (extract_lets +onlyGivenNames z; rename' z => z')
    | with_reducible apply Can.ite
    | with_reducible apply State.headDrop_can
    | with_reducible apply State.admitRequest_can
    | with_reducible apply State.claim_can

theorem State.classifyEtxel_can (s : State) (fr : RxFrame) (p : Packet) (k : Nat) {Q : State} (h : Can Q s) : Can Q (State.classifyEtxel s fr p k) := by
  unfold State.classifyEtxel
  repeat' first
    | with_reducible assumption
    | (extract_lets +onlyGivenNames z; rename' z => z')
    | with_reducible apply Can.ite
    | with_reducible apply State.headDrop_can
    | with_reducible apply State.admitRequest_can

theorem State.classifyRoughtime_can (s : State) (fr : RxFrame) (p : Packet) (k : Nat) {Q : State} (h : Can Q s) : Can Q (State.classifyRoughtime s fr p k) := by
  unfold State.classifyRoughtime
  repeat' first
    | with_reducible assumption
    | (extract_lets +onlyGivenNames z; rename' z => z')
    | with_reducible apply Can.ite
    | with_reducible apply State.headDrop_can
    | with_reducible apply State.admitRequest_can
    | split

theorem State.classifyMatch_opt (s : State) (fr : RxFrame) (p : Packet) (k : Nat) {Q : State} (h : Can Q s) :
    OptCan Q (State.classifyMatch s fr p k) := by
  unfold State.classifyMatch
  extract_lets svc dport
  clear_value svc dport
  repeat' with_reducible first
    | apply OptCan.ite
    | exact OptCan.none
    | apply OptCan.some
  all_goals with_reducible first
    | exact State.claim_can _ _ _ h
    | exact State.classifyNtp_can _ _ _ _ h
    | exact State.classifyEtxel_can _ _ _ _ h
    | exact State.classifyRoughtime_can _ _ _ _ h

theorem State.classify_can (s : State) (fr : RxFrame) (p : Packet) {Q : State} (h : Can Q s) : Can Q (State.classify s fr p) := by
  unfold State.classify
  extract_lets unclaimed target byMatch
  have hu : Can Q (unclaimed s) := State.inc_can _ _ h
  have hm : OptCan Q byMatch := by
    refine OptCan.ite ?_ OptCan.none
    split
    · exact State.classifyMatch_opt _ _ _ _ h
    · exact OptCan.none
  clear_value byMatch unclaimed target
  have hc : ∀ k, Can Q (s.claim k fr) := fun k => State.claim_can _ _ _ h
  repeat' first
    | exact hu
    | exact hc _
    | with_reducible apply Can.ite
    | split
  exact hm _ rfl

theorem State.goodFrame_can (s : State) (sl cap : Nat) (d : Bytes) {Q : State} (h : Can Q s) : Can Q (State.goodFrame s sl cap d) := by
  unfold State.goodFrame
  repeat' first
    | with_reducible assumption
    | (extract_lets +onlyGivenNames z; refine (fun (_ : Can Q z) => ?_) ?_; (on_goal 2 => (dsimp -zeta only [z]; clear z)); (on_goal 1 => rename' z => z'))
    | (extract_lets +onlyGivenNames z; rename' z => z')
    | with_reducible apply Can.ite
    | with_reducible apply State.count_can
    | with_reducible apply State.inc_can
    | with_reducible apply State.pauseReceived_can
    | with_reducible apply State.probeReturn_can
    | with_reducible apply State.classify_can

theorem State.setRx_can (s : State) (sl : Nat) (ex : Bool) (r : Option RxOpen) {Q : State} (h : Can Q s) : Can Q (State.setRx s sl ex r) := by
  unfold State.setRx
  repeat' first
    | with_reducible assumption
    | with_reducible apply State.setLink_can

theorem State.rxBytes_can (s : State) (sl : Nat) (ex : Bool) (r : RxOpen) (d : Bytes) (n : Nat) {Q : State} (h : Can Q s) : Can Q (State.rxBytes s sl ex r d n) := by
  unfold State.rxBytes
  repeat' first
    | with_reducible assumption
    | (extract_lets +onlyGivenNames z; rename' z => z')
    | with_reducible apply Can.ite
    | with_reducible apply State.inc_can
    | with_reducible apply State.weirHigh_can
    | with_reducible apply State.setRx_can

theorem State.rxFail_can (s : State) (sl : Nat) (ex : Bool) (reg : Nat) {Q : State} (h : Can Q s) : Can Q (State.rxFail s sl ex reg) := by
  unfold State.rxFail
  repeat' first
    | with_reducible assumption
    | (extract_lets +onlyGivenNames z; refine (fun (_ : Can Q z) => ?_) ?_; (on_goal 2 => (dsimp -zeta only [z]; clear z)); (on_goal 1 => rename' z => z'))
    | with_reducible apply Can.ite
    | with_reducible apply State.inc_can
    | with_reducible apply State.setRx_can
    | split

theorem State.rxFinish_can (s : State) (sl : Nat) (ex good : Bool) {Q : State} (h : Can Q s) : Can Q (State.rxFinish s sl ex good) := by
  unfold State.rxFinish
  repeat' first
    | with_reducible assumption
    | (extract_lets +onlyGivenNames z; refine (fun (_ : Can Q z) => ?_) ?_; (on_goal 2 => (dsimp -zeta only [z]; clear z)); (on_goal 1 => rename' z => z'))
    | with_reducible apply Can.ite
    | with_reducible apply State.inc_can
    | with_reducible apply State.goodFrame_can
    | with_reducible apply State.setRx_can
    | split

theorem State.rxPiece_can (s : State) (sl : Nat) (ex : Bool) (r : RxOpen) (x : RxPhys) {Q : State} (h : Can Q s) : Can Q (State.rxPiece s sl ex r x) := by
  unfold State.rxPiece
  repeat' first
    | with_reducible assumption
    | intro _
    | (extract_lets +onlyGivenNames z; refine (fun (_ : Can Q z) => ?_) ?_; (on_goal 2 => (dsimp -zeta only [z]; clear z)); (on_goal 1 => rename' z => z'))
    | (extract_lets +onlyGivenNames z; rename' z => z')
    | with_reducible apply Can.ite
    | with_reducible apply State.when_can
    | with_reducible apply State.inc_can
    | with_reducible apply State.rxBytes_can
    | with_reducible apply State.rxFail_can
    | with_reducible apply State.rxFinish_can
    | split

theorem State.rxSmd_can (s : State) (sl : Nat) (x : RxPhys) {Q : State} (h : Can Q s) : Can Q (State.rxSmd s sl x) := by
  unfold State.rxSmd
  repeat' first
    | with_reducible assumption
    | (extract_lets +onlyGivenNames z; rename' z => z')
    | with_reducible apply Can.ite
    | with_reducible apply State.inc_can
    | with_reducible apply State.rxFail_can
    | with_reducible apply State.rxPiece_can
    | split

theorem State.frameRx_can (s : State) (sl : Nat) (x : RxPhys) {Q : State} (h : Can Q s) : Can Q (State.frameRx s sl x) := by
  unfold State.frameRx
  repeat' first
    | with_reducible assumption
    | with_reducible apply Can.ite
    | with_reducible apply State.count_can
    | with_reducible apply State.rxSmd_can

theorem State.answerArp_can (s : State) {Q : State} (h : Can Q s) : Can Q (State.answerArp s) := by
  unfold State.answerArp
  repeat' first
    | with_reducible assumption
    | (extract_lets +onlyGivenNames z; rename' z => z')
    | with_reducible apply State.queuePre_can
    | (with_reducible refine State.takeClaim_some _ _ (by assumption) ?_)
    | split

theorem State.answerNd_can (s : State) {Q : State} (h : Can Q s) : Can Q (State.answerNd s) := by
  unfold State.answerNd
  repeat' first
    | with_reducible assumption
    | (extract_lets +onlyGivenNames z; rename' z => z')
    | with_reducible apply State.queuePre_can
    | (with_reducible refine State.takeClaim_some _ _ (by assumption) ?_)
    | split

theorem State.exceptionFrame_can (s : State) {Q : State} (h : Can Q s) : Can Q (State.exceptionFrame s) := by
  unfold State.exceptionFrame
  repeat' first
    | with_reducible assumption
    | (extract_lets +onlyGivenNames z; rename' z => z')
    | with_reducible apply Can.ite
    | with_reducible apply State.inc_can
    | with_reducible apply State.deliverFrame_can
    | (with_reducible refine State.takeClaim_some _ _ (by assumption) ?_)
    | split

theorem State.setClient_can (s : State) (i : Nat) (r : ClientRec) {Q : State} (h : Can Q s) : Can Q (State.setClient s i r) :=
  Can.withTable h (CellList.wf_set _ _ _ _ h.table)

theorem State.emptyTable_can (s : State) {Q : State} (h : Can Q s) : Can Q (State.emptyTable s) :=
  Can.withTable (State.sfW_can _ _ _ _ _ h) rfl

theorem State.hrcFrozen_can (s : State) {Q : State} (h : Can Q s) : Can Q (State.hrcFrozen s) := by
  unfold State.hrcFrozen
  repeat' first
    | with_reducible assumption
    | with_reducible apply State.setBit_can

theorem State.applyHrcAddr_can (s : State) {Q : State} (h : Can Q s) : Can Q (State.applyHrcAddr s) := by
  unfold State.applyHrcAddr
  repeat' first
    | (extract_lets +onlyGivenNames z; rename' z => z')
    | with_reducible apply State.setBit_can
    | with_reducible apply State.raise_can
    | with_reducible apply State.hrcFrozen_can
    | with_reducible exact Can.with_ ‹_›

theorem State.applyHrcCfg_can (s : State) (old : Nat → Word) {Q : State} (h : Can Q s) : Can Q (State.applyHrcCfg s old) := by
  unfold State.applyHrcCfg
  repeat' first
    | with_reducible assumption
    | with_reducible apply Can.ite
    | with_reducible apply State.emptyTable_can
    | with_reducible apply State.hrcFrozen_can

theorem State.applyHrcMap_can (s : State) (pipes : Nat → Nat) {Q : State} (h : Can Q s) : Can Q (State.applyHrcMap s pipes) := by
  unfold State.applyHrcMap
  repeat' first
    | with_reducible assumption
    | intro _
    | with_reducible apply State.each_can
    | with_reducible apply State.showPipes_can
    | with_reducible apply State.moveBucket_can
    | with_reducible apply State.hrcFrozen_can

theorem State.applyHrcQuery_can (s : State) {Q : State} (h : Can Q s) : Can Q (State.applyHrcQuery s) := by
  unfold State.applyHrcQuery
  repeat' first
    | with_reducible assumption
    | intro _
    | (extract_lets +onlyGivenNames z; refine (fun (_ : Can Q z) => ?_) ?_; (on_goal 2 => (dsimp -zeta only [z]; clear z)); (on_goal 1 => rename' z => z'))
    | (extract_lets +onlyGivenNames z; rename' z => z')
    | with_reducible apply Can.ite
    | with_reducible apply State.wr_can
    | with_reducible apply State.setBit_can
    | with_reducible apply State.each_can
    | with_reducible apply State.raise_can
    | with_reducible apply State.hrcFrozen_can

end Sys2Proof.Machine
end

