-- ==== Sys2Proof/Laws/CanonNtp.lean ====
section
/-!
SUPPORT. The canonical form of the sparse storage through every operation of Machine/Ntp.lean.
-/

set_option Elab.async false

namespace Sys2Proof.Machine

theorem State.chargeUntracked_can (s : State) (r : Request) {Q : State} (h : Can Q s) : Can Q (State.chargeUntracked s r).1 := by
  unfold State.chargeUntracked
  repeat' first
    | with_reducible assumption
    | (extract_lets +onlyGivenNames z; refine (fun (_ : Can Q z) => ?_) ?_; (on_goal 2 => (dsimp -zeta only [z]; clear z)); (on_goal 1 => rename' z => z'))
    | (extract_lets +onlyGivenNames z; rename' z => z')
    | with_reducible apply Can.ite1
    | with_reducible apply State.inc_can
    | with_reducible exact Can.with_ ‹_›

theorem State.chargeUntracked_pair (s : State) (r : Request) {u : State} {x : _} (hq : (State.chargeUntracked s r) = (u, x)) {Q : State} (h : Can Q s) : Can Q u := by
  have k := State.chargeUntracked_can s r h
  rw [hq] at k
  exact k

theorem State.charge_can (s : State) (r : Request) {Q : State} (h : Can Q s) : Can Q (State.charge s r).1 := by
  unfold State.charge
  repeat' first
    | with_reducible assumption
    | (extract_lets +onlyGivenNames z; refine (fun (_ : Can Q z) => ?_) ?_; (on_goal 2 => (dsimp -zeta only [z]; clear z)); (on_goal 1 => rename' z => z'))
    | (extract_lets +onlyGivenNames z; rename' z => z')
    | with_reducible apply Can.ite1
    | with_reducible apply Can.ite
    | with_reducible apply State.inc_can
    | with_reducible apply State.raise_can
    | with_reducible apply State.setClient_can
    | with_reducible apply State.chargeUntracked_can

theorem State.charge_pair (s : State) (r : Request) {u : State} {x : _} (hq : (State.charge s r) = (u, x)) {Q : State} (h : Can Q s) : Can Q u := by
  have k := State.charge_can s r h
  rw [hq] at k
  exact k

theorem State.kodOk_can (s : State) (r : Request) {Q : State} (h : Can Q s) : Can Q (State.kodOk s r).1 := by
  unfold State.kodOk
  repeat' first
    | with_reducible assumption
    | (extract_lets +onlyGivenNames z; rename' z => z')
    | with_reducible apply Can.ite1
    | with_reducible apply State.inc_can
    | with_reducible apply State.raise_can
    | with_reducible apply State.setClient_can

theorem State.kodOk_pair (s : State) (r : Request) {u : State} {x : _} (hq : (State.kodOk s r) = (u, x)) {Q : State} (h : Can Q s) : Can Q u := by
  have k := State.kodOk_can s r h
  rw [hq] at k
  exact k

theorem State.sendFixed_can (s : State) (r : Request) (payload : Bytes) {Q : State} (h : Can Q s) : Can Q (State.sendFixed s r payload) := by
  unfold State.sendFixed
  repeat' first
    | with_reducible assumption
    | (extract_lets +onlyGivenNames z; rename' z => z')
    | with_reducible apply State.handOver_can

theorem State.popRequest_some (s : State) (p : Nat) (kind : ReqKind) {x : _} {u : State}
    (hq : State.popRequest s p kind = some (x, u)) {Q : State} (h : Can Q s) : Can Q u := by
  unfold State.popRequest at hq
  split at hq
  · cases hq
  · split at hq
    · cases hq
      exact State.setQueue_can _ _ _ h
    · cases hq

theorem State.ntpRequest_can (s : State) (p : Nat) {Q : State} (h : Can Q s) : Can Q (State.ntpRequest s p) := by
  unfold State.ntpRequest
  repeat' first
    | with_reducible assumption
    | (extract_lets +onlyGivenNames z; refine (fun (_ : Can Q z) => ?_) ?_; (on_goal 2 => (dsimp -zeta only [z]; clear z)); (on_goal 1 => rename' z => z'))
    | (extract_lets +onlyGivenNames z; refine (fun (_ : Can Q z.1) => ?_) ?_; (on_goal 2 => (dsimp -zeta only [z]; clear z)); (on_goal 1 => rename' z => z'))
    | (extract_lets +onlyGivenNames z; rename' z => z')
    | with_reducible apply Can.ite
    | with_reducible apply State.inc_can
    | with_reducible apply State.sampleDrop_can
    | with_reducible apply State.handOver_can
    | with_reducible apply State.charge_can
    | with_reducible apply State.kodOk_can
    | with_reducible apply State.sendFixed_can
    | (with_reducible refine State.popRequest_some _ _ _ (by assumption) ?_)
    | split

theorem State.svpFrozen_can (s : State) {Q : State} (h : Can Q s) : Can Q (State.svpFrozen s) := by
  unfold State.svpFrozen
  repeat' first
    | with_reducible assumption
    | with_reducible apply State.setBit_can

theorem State.applySvpProf_can (s : State) (oldActing : List Word) {Q : State} (h : Can Q s) : Can Q (State.applySvpProf s oldActing) := by
  unfold State.applySvpProf
  repeat' first
    | (extract_lets +onlyGivenNames z; rename' z => z')
    | with_reducible apply State.svpFrozen_can
    | with_reducible exact Can.with_ ‹_›

end Sys2Proof.Machine
end

