-- ==== Sys2Proof/Laws/CanonNts.lean ====
section
/-!
SUPPORT. The canonical form of the sparse storage through every operation of Machine/Nts.lean.
-/

set_option Elab.async false

namespace Sys2Proof.Machine

theorem State.showKeys_can (s : State) {Q : State} (h : Can Q s) : Can Q (State.showKeys s) := by
  unfold State.showKeys
  repeat' first
    | with_reducible assumption
    | intro _
    | (extract_lets +onlyGivenNames z; refine (fun (_ : Can Q z) => ?_) ?_; (on_goal 2 => (dsimp -zeta only [z]; clear z)); (on_goal 1 => rename' z => z'))
    | (extract_lets +onlyGivenNames z; rename' z => z')
    | with_reducible apply State.wr_can
    | with_reducible apply State.sfW_can
    | with_reducible apply State.each_can
    | with_reducible exact Can.with_ ‹_›

theorem State.nextKeyId_can (s : State) {Q : State} (h : Can Q s) : Can Q (State.nextKeyId s).2 := by
  unfold State.nextKeyId
  repeat' first
    | with_reducible assumption
    | (extract_lets +onlyGivenNames z; refine (fun (_ : Can Q z.2) => ?_) ?_; (on_goal 2 => (dsimp -zeta only [z]; clear z)); (on_goal 1 => rename' z => z'))
    | with_reducible apply State.draw_can
    | split

theorem State.nextKeyId_pair (s : State) {u : State} {x : _} (hq : (State.nextKeyId s) = (x, u)) {Q : State} (h : Can Q s) : Can Q u := by
  have k := State.nextKeyId_can s h
  rw [hq] at k
  exact k

theorem State.journalKey_can (s : State) (src : Source) (engine : Nat) (what : Nat) (reg old new : Nat) {Q : State} (h : Can Q s) : Can Q (State.journalKey s src engine what reg old new) := by
  unfold State.journalKey
  repeat' first
    | with_reducible assumption
    | with_reducible apply State.journalize_can

theorem State.newKey_can (s : State) {Q : State} (h : Can Q s) : Can Q (State.newKey s) := by
  unfold State.newKey
  repeat' first
    | with_reducible assumption
    | (extract_lets +onlyGivenNames z; refine (fun (_ : Can Q z) => ?_) ?_; (on_goal 2 => (dsimp -zeta only [z]; clear z)); (on_goal 1 => rename' z => z'))
    | (extract_lets +onlyGivenNames z; refine (fun (_ : Can Q z.2) => ?_) ?_; (on_goal 2 => (dsimp -zeta only [z]; clear z)); (on_goal 1 => rename' z => z'))
    | (extract_lets +onlyGivenNames z; rename' z => z')
    | with_reducible apply State.drawBytes_can
    | with_reducible apply State.nextKeyId_can
    | with_reducible exact Can.with_ ‹_›

theorem State.denyEntropy_can (s : State) {Q : State} (h : Can Q s) : Can Q (State.denyEntropy s) := by
  unfold State.denyEntropy
  repeat' first
    | with_reducible assumption
    | with_reducible apply State.inc_can

theorem State.rotateNts_can (s : State) (src : Source) {Q : State} (h : Can Q s) : Can Q (State.rotateNts s src) := by
  unfold State.rotateNts
  repeat' first
    | with_reducible assumption
    | (extract_lets +onlyGivenNames z; refine (fun (_ : Can Q z) => ?_) ?_; (on_goal 2 => (dsimp -zeta only [z]; clear z)); (on_goal 1 => rename' z => z'))
    | (extract_lets +onlyGivenNames z; rename' z => z')
    | with_reducible apply Can.ite
    | with_reducible apply State.inc_can
    | with_reducible apply State.raise_can
    | with_reducible apply State.showKeys_can
    | with_reducible apply State.journalKey_can
    | with_reducible apply State.newKey_can
    | with_reducible apply State.denyEntropy_can
    | with_reducible exact Can.with_ ‹_›

theorem State.showRotate_can (s : State) {Q : State} (h : Can Q s) : Can Q (State.showRotate s) := by
  unfold State.showRotate
  repeat' first
    | with_reducible assumption
    | (extract_lets +onlyGivenNames z; rename' z => z')
    | with_reducible apply State.wr_can
    | split

theorem State.armEpoch_can (s : State) {Q : State} (h : Can Q s) : Can Q (State.armEpoch s) := by
  unfold State.armEpoch
  repeat' first
    | with_reducible assumption
    | (extract_lets +onlyGivenNames z; refine (fun (_ : Can Q z) => ?_) ?_; (on_goal 2 => (dsimp -zeta only [z]; clear z)); (on_goal 1 => rename' z => z'))
    | (extract_lets +onlyGivenNames z; rename' z => z')
    | with_reducible apply Can.ite
    | with_reducible apply State.calNew_can
    | with_reducible apply State.calDrop_can
    | with_reducible apply State.showRotate_can

theorem State.ntsEpoch_can (s : State) {Q : State} (h : Can Q s) : Can Q (State.ntsEpoch s) := by
  unfold State.ntsEpoch
  repeat' first
    | with_reducible assumption
    | intro _
    | with_reducible apply State.fireDue_can
    | with_reducible apply State.rotateNts_can
    | with_reducible apply State.showRotate_can

theorem State.ntsPurge_can (s : State) (src : Source) {Q : State} (h : Can Q s) : Can Q (State.ntsPurge s src) := by
  unfold State.ntsPurge
  repeat' first
    | with_reducible assumption
    | (extract_lets +onlyGivenNames z; refine (fun (_ : Can Q z) => ?_) ?_; (on_goal 2 => (dsimp -zeta only [z]; clear z)); (on_goal 1 => rename' z => z'))
    | (extract_lets +onlyGivenNames z; rename' z => z')
    | with_reducible apply State.raise_can
    | with_reducible apply State.showKeys_can
    | with_reducible apply State.journalKey_can
    | with_reducible exact Can.with_ ‹_›

theorem State.ntsKeyDrawn_can (s : State) {Q : State} (h : Can Q s) : Can Q (State.ntsKeyDrawn s) := by
  unfold State.ntsKeyDrawn
  repeat' first
    | with_reducible assumption
    | (extract_lets +onlyGivenNames z; rename' z => z')
    | with_reducible apply Can.ite
    | with_reducible apply State.raise_can
    | with_reducible apply State.showKeys_can
    | with_reducible apply State.newKey_can
    | with_reducible apply State.denyEntropy_can
    | with_reducible exact Can.with_ ‹_›

theorem State.keyDeferRetry_can (s : State) {Q : State} (h : Can Q s) : Can Q (State.keyDeferRetry s) := by
  unfold State.keyDeferRetry
  repeat' first
    | with_reducible assumption
    | (extract_lets +onlyGivenNames z; rename' z => z')
    | with_reducible apply Can.ite
    | with_reducible apply State.showKeys_can
    | with_reducible apply State.newKey_can
    | with_reducible apply State.denyEntropy_can
    | with_reducible apply State.rotateNts_can
    | with_reducible exact Can.with_ ‹_›

theorem State.ntsSecond_can (s : State) {Q : State} (h : Can Q s) : Can Q (State.ntsSecond s) := by
  unfold State.ntsSecond
  repeat' first
    | with_reducible assumption
    | with_reducible apply Can.ite
    | with_reducible apply State.rotateNts_can
    | split

theorem State.ntsCmd_can (s : State) (src : Source) (v : Word) {Q : State} (h : Can Q s) : Can Q (State.ntsCmd s src v) := by
  unfold State.ntsCmd
  repeat' first
    | with_reducible assumption
    | (extract_lets +onlyGivenNames z; rename' z => z')
    | with_reducible apply Can.ite
    | with_reducible apply State.ntsPurge_can
    | with_reducible exact Can.with_ ‹_›

theorem State.restoreNts_can (s : State) {Q : State} (h : Can Q s) : Can Q (State.restoreNts s) := by
  unfold State.restoreNts
  repeat' first
    | with_reducible assumption
    | (extract_lets +onlyGivenNames z; refine (fun (_ : Can Q z) => ?_) ?_; (on_goal 2 => (dsimp -zeta only [z]; clear z)); (on_goal 1 => rename' z => z'))
    | (extract_lets +onlyGivenNames z; rename' z => z')
    | with_reducible apply State.raise_can
    | with_reducible apply State.showKeys_can
    | with_reducible apply State.journalKey_can
    | with_reducible apply State.armEpoch_can
    | with_reducible apply State.ntsKeyDrawn_can
    | with_reducible exact Can.with_ ‹_›
    | split

theorem State.ntsFrozen_can (s : State) {Q : State} (h : Can Q s) : Can Q (State.ntsFrozen s) := by
  unfold State.ntsFrozen
  repeat' first
    | with_reducible assumption
    | with_reducible apply State.setBit_can

theorem State.applyNtsCfg_can (s : State) {Q : State} (h : Can Q s) : Can Q (State.applyNtsCfg s) := by
  unfold State.applyNtsCfg
  repeat' first
    | with_reducible assumption
    | intro _
    | (extract_lets +onlyGivenNames z; refine (fun (_ : Can Q z) => ?_) ?_; (on_goal 2 => (dsimp -zeta only [z]; clear z)); (on_goal 1 => rename' z => z'))
    | (extract_lets +onlyGivenNames z; rename' z => z')
    | with_reducible apply State.each_can
    | with_reducible apply State.showKeys_can
    | with_reducible apply State.journalKey_can
    | with_reducible apply State.armEpoch_can
    | with_reducible apply State.ntsFrozen_can
    | with_reducible exact Can.with_ ‹_›

theorem State.mintCookie_can (s : State) (c2s s2c : Bytes) {Q : State} (h : Can Q s) : Can Q (State.mintCookie s c2s s2c).2 := by
  unfold State.mintCookie
  repeat' first
    | with_reducible assumption
    | (extract_lets +onlyGivenNames z; refine (fun (_ : Can Q z.2) => ?_) ?_; (on_goal 2 => (dsimp -zeta only [z]; clear z)); (on_goal 1 => rename' z => z'))
    | with_reducible apply State.drawBytes_can
    | split

theorem State.mintCookie_pair (s : State) (c2s s2c : Bytes) {u : State} {x : _} (hq : (State.mintCookie s c2s s2c) = (x, u)) {Q : State} (h : Can Q s) : Can Q u := by
  have k := State.mintCookie_can s c2s s2c h
  rw [hq] at k
  exact k

theorem State.mintCookies_can (s : State) (c2s s2c : Bytes) (field : Bool) (n : Nat) {Q : State} (h : Can Q s) :
    Can Q (State.mintCookies s c2s s2c field n).2 := by
  induction n with
  | zero => exact h
  | succ n ih => exact State.mintCookie_can _ _ _ ih

theorem State.mintCookies_pair (s : State) (c2s s2c : Bytes) (field : Bool) (n : Nat) {u : State} {x : _} (hq : State.mintCookies s c2s s2c field n = (x, u)) {Q : State} (h : Can Q s) : Can Q u := by
  have k := State.mintCookies_can s c2s s2c field n h
  rw [hq] at k
  exact k

theorem State.ntsFailure_can (s : State) (r : Request) (counter : Nat) (uid : Bytes) (ovr : Bool) (step : Nat) {Q : State} (h : Can Q s) : Can Q (State.ntsFailure s r counter uid ovr step) := by
  unfold State.ntsFailure
  repeat' first
    | with_reducible assumption
    | (extract_lets +onlyGivenNames z; refine (fun (_ : Can Q z) => ?_) ?_; (on_goal 2 => (dsimp -zeta only [z]; clear z)); (on_goal 1 => rename' z => z'))
    | (extract_lets +onlyGivenNames z; rename' z => z')
    | with_reducible apply Can.ite
    | with_reducible apply State.inc_can
    | with_reducible apply State.sampleDrop_can
    | with_reducible apply State.setClient_can
    | with_reducible apply State.sendFixed_can

theorem State.ntsOpen_can (s : State) (r : Request) (l : List (Nat × Bytes)) (ovr kod : Bool) {Q : State} (h : Can Q s) : Can Q (State.ntsOpen s r l ovr kod) := by
  unfold State.ntsOpen
  repeat' first
    | with_reducible assumption
    | (extract_lets +onlyGivenNames z; refine (fun (_ : Can Q z) => ?_) ?_; (on_goal 2 => (dsimp -zeta only [z]; clear z)); (on_goal 1 => rename' z => z'))
    | (extract_lets +onlyGivenNames z; refine (fun (_ : Can Q z.1) => ?_) ?_; (on_goal 2 => (dsimp -zeta only [z]; clear z)); (on_goal 1 => rename' z => z'))
    | (extract_lets +onlyGivenNames z; rename' z => z')
    | with_reducible apply Can.ite
    | with_reducible apply State.count_can
    | with_reducible apply State.inc_can
    | with_reducible apply State.sampleDrop_can
    | with_reducible apply State.handOver_can
    | with_reducible apply State.kodOk_can
    | with_reducible apply State.ntsFailure_can
    | split

theorem State.ntsRequest_can (s : State) (p : Nat) {Q : State} (h : Can Q s) : Can Q (State.ntsRequest s p) := by
  unfold State.ntsRequest
  repeat' first
    | with_reducible assumption
    | (extract_lets +onlyGivenNames z; refine (fun (_ : Can Q z) => ?_) ?_; (on_goal 2 => (dsimp -zeta only [z]; clear z)); (on_goal 1 => rename' z => z'))
    | (extract_lets +onlyGivenNames z; refine (fun (_ : Can Q z.1) => ?_) ?_; (on_goal 2 => (dsimp -zeta only [z]; clear z)); (on_goal 1 => rename' z => z'))
    | (extract_lets +onlyGivenNames z; rename' z => z')
    | with_reducible apply Can.ite
    | with_reducible apply State.inc_can
    | with_reducible apply State.sampleDrop_can
    | with_reducible apply State.charge_can
    | (with_reducible refine State.popRequest_some _ _ _ (by assumption) ?_)
    | with_reducible apply State.ntsOpen_can
    | split

theorem State.ntsPayload_can (s : State) (r : Request) (uid c2s s2c : Bytes) (n : Nat) (kod : Bool) (tTx : Nat) {Q : State} (h : Can Q s) : Can Q (State.ntsPayload s r uid c2s s2c n kod tTx).2 := by
  unfold State.ntsPayload
  repeat' first
    | with_reducible assumption
    | (extract_lets +onlyGivenNames z; refine (fun (_ : Can Q z.2) => ?_) ?_; (on_goal 2 => (dsimp -zeta only [z]; clear z)); (on_goal 1 => rename' z => z'))
    | (extract_lets +onlyGivenNames z; rename' z => z')
    | with_reducible apply State.drawBytes_can
    | with_reducible apply State.mintCookies_can

theorem State.ntsPayload_pair (s : State) (r : Request) (uid c2s s2c : Bytes) (n : Nat) (kod : Bool) (tTx : Nat) {u : State} {x : _} (hq : (State.ntsPayload s r uid c2s s2c n kod tTx) = (x, u)) {Q : State} (h : Can Q s) : Can Q u := by
  have k := State.ntsPayload_can s r uid c2s s2c n kod tTx h
  rw [hq] at k
  exact k

theorem State.mintJob_can (s : State) (m : Option Bytes) {Q : State} (h : Can Q s) : Can Q (State.mintJob s m) := by
  unfold State.mintJob
  repeat' first
    | with_reducible assumption
    | (extract_lets +onlyGivenNames z; refine (fun (_ : Can Q z) => ?_) ?_; (on_goal 2 => (dsimp -zeta only [z]; clear z)); (on_goal 1 => rename' z => z'))
    | (extract_lets +onlyGivenNames z; refine (fun (_ : Can Q z.2) => ?_) ?_; (on_goal 2 => (dsimp -zeta only [z]; clear z)); (on_goal 1 => rename' z => z'))
    | (extract_lets +onlyGivenNames z; rename' z => z')
    | with_reducible apply Can.ite
    | with_reducible apply State.count_can
    | with_reducible apply State.inc_can
    | with_reducible apply State.hostWrite_can
    | with_reducible apply State.raise_can
    | with_reducible apply State.endWork_can
    | with_reducible apply State.mintCookies_can
    | (with_reducible refine State.startWork_pair _ _ (by assumption) ?_)
    | split

end Sys2Proof.Machine
end

