-- ==== Sys2Proof/Laws/CanonPtp.lean ====
section
/-!
SUPPORT. The canonical form of the sparse storage through every operation of Machine/Ptp.lean.
-/

set_option Elab.async false

namespace Sys2Proof.Machine

theorem State.showDataset_can (s : State) {Q : State} (h : Can Q s) : Can Q (State.showDataset s) := by
  unfold State.showDataset
  repeat' first
    | with_reducible assumption
    | (extract_lets +onlyGivenNames z; refine (fun (_ : Can Q z) => ?_) ?_; (on_goal 2 => (dsimp -zeta only [z]; clear z)); (on_goal 1 => rename' z => z'))
    | (extract_lets +onlyGivenNames z; rename' z => z')
    | with_reducible apply Can.ite
    | with_reducible apply State.wr_can
    | with_reducible apply State.sfW_can
    | with_reducible apply State.raise_can

theorem State.nextSeq_can (s : State) (inst sl mtype : Nat) {Q : State} (h : Can Q s) : Can Q (State.nextSeq s inst sl mtype).2 := by
  unfold State.nextSeq
  repeat' first
    | (extract_lets +onlyGivenNames z; rename' z => z')
    | with_reducible exact Can.with_ ‹_›

theorem State.nextSeq_pair (s : State) (inst sl mtype : Nat) {u : State} {x : _} (hq : (State.nextSeq s inst sl mtype) = (x, u)) {Q : State} (h : Can Q s) : Can Q u := by
  have k := State.nextSeq_can s inst sl mtype h
  rw [hq] at k
  exact k

theorem State.showCtx_can (s : State) {Q : State} (h : Can Q s) : Can Q (State.showCtx s) := by
  unfold State.showCtx
  repeat' first
    | with_reducible assumption
    | intro _
    | (extract_lets +onlyGivenNames z; rename' z => z')
    | with_reducible apply State.wr_can
    | with_reducible apply State.each_can

theorem State.showCtxs_can (s : State) {Q : State} (h : Can Q s) : Can Q (State.showCtxs s) := by
  unfold State.showCtxs
  repeat' first
    | with_reducible assumption
    | intro _
    | (extract_lets +onlyGivenNames z; refine (fun (_ : Can Q z) => ?_) ?_; (on_goal 2 => (dsimp -zeta only [z]; clear z)); (on_goal 1 => rename' z => z'))
    | with_reducible apply State.sfW_can
    | with_reducible apply State.each_can
    | with_reducible apply State.showCtx_can

theorem State.setCtx_can (s : State) (k : Nat) (c : PtpCtx) {Q : State} (h : Can Q s) : Can Q (State.setCtx s k c) := by
  unfold State.setCtx
  repeat' first
    | (extract_lets +onlyGivenNames z; rename' z => z')
    | with_reducible exact Can.with_ ‹_›

theorem State.armSync_can (s : State) (target : Nat) (need : Bool) (period : Nat) {Q : State} (h : Can Q s) : Can Q (State.armSync s target need period) := by
  unfold State.armSync
  repeat' first
    | with_reducible assumption
    | (extract_lets +onlyGivenNames z; rename' z => z')
    | with_reducible apply Can.ite
    | with_reducible apply State.calNew_can
    | with_reducible apply State.calDrop_can

theorem State.armPtp_can (s : State) {Q : State} (h : Can Q s) : Can Q (State.armPtp s) := by
  unfold State.armPtp
  repeat' first
    | with_reducible assumption
    | intro _
    | (extract_lets +onlyGivenNames z; refine (fun (_ : Can Q z) => ?_) ?_; (on_goal 2 => (dsimp -zeta only [z]; clear z)); (on_goal 1 => rename' z => z'))
    | (extract_lets +onlyGivenNames z; rename' z => z')
    | with_reducible apply Can.ite
    | with_reducible apply State.each_can
    | with_reducible apply State.calDrop_can
    | with_reducible apply State.armSync_can

theorem State.bookEvent_can (s : State) (sl lo : Nat) (answer : Answer) (addr : Addressing) {Q : State} (h : Can Q s) : Can Q (State.bookEvent s sl lo answer addr) := by
  unfold State.bookEvent
  repeat' first
    | with_reducible assumption
    | (extract_lets +onlyGivenNames z; rename' z => z')
    | with_reducible apply State.reserve_can

theorem State.sendGeneral_can (s : State) (sl : Nat) (a : Addressing) (d : Bytes) (counter : Option Nat) {Q : State} (h : Can Q s) : Can Q (State.sendGeneral s sl a d counter) := by
  unfold State.sendGeneral
  repeat' first
    | with_reducible assumption
    | with_reducible apply Can.ite
    | with_reducible apply State.queuePre_can

theorem State.sendAnnounce_can (s : State) (i sl : Nat) {Q : State} (h : Can Q s) : Can Q (State.sendAnnounce s i sl) := by
  unfold State.sendAnnounce
  repeat' first
    | with_reducible assumption
    | (extract_lets +onlyGivenNames z; refine (fun (_ : Can Q z.2) => ?_) ?_; (on_goal 2 => (dsimp -zeta only [z]; clear z)); (on_goal 1 => rename' z => z'))
    | (extract_lets +onlyGivenNames z; rename' z => z')
    | with_reducible apply State.nextSeq_can
    | with_reducible apply State.sendGeneral_can

theorem State.bookSync_can (s : State) (i sl lo : Nat) {Q : State} (h : Can Q s) : Can Q (State.bookSync s i sl lo) := by
  unfold State.bookSync
  repeat' first
    | with_reducible assumption
    | (extract_lets +onlyGivenNames z; refine (fun (_ : Can Q z.2) => ?_) ?_; (on_goal 2 => (dsimp -zeta only [z]; clear z)); (on_goal 1 => rename' z => z'))
    | (extract_lets +onlyGivenNames z; rename' z => z')
    | with_reducible apply State.nextSeq_can
    | with_reducible apply State.bookEvent_can

theorem State.bookCtxSync_can (s : State) (k : Nat) (c : PtpCtx) (lo : Nat) {Q : State} (h : Can Q s) : Can Q (State.bookCtxSync s k c lo) := by
  unfold State.bookCtxSync
  repeat' first
    | with_reducible assumption
    | (extract_lets +onlyGivenNames z; rename' z => z')
    | with_reducible apply State.setCtx_can
    | with_reducible apply State.bookEvent_can

theorem State.sendCtxAnnounce_can (s : State) (k : Nat) (c : PtpCtx) {Q : State} (h : Can Q s) : Can Q (State.sendCtxAnnounce s k c) := by
  unfold State.sendCtxAnnounce
  repeat' first
    | with_reducible assumption
    | (extract_lets +onlyGivenNames z; rename' z => z')
    | with_reducible apply State.setCtx_can
    | with_reducible apply State.sendGeneral_can

theorem State.syncRound_can (s : State) (sl : Nat) (l : Int) (lo : Nat) {Q : State} (h : Can Q s) : Can Q (State.syncRound s sl l lo) := by
  unfold State.syncRound
  repeat' first
    | with_reducible assumption
    | intro _
    | (extract_lets +onlyGivenNames z; refine (fun (_ : Can Q z) => ?_) ?_; (on_goal 2 => (dsimp -zeta only [z]; clear z)); (on_goal 1 => rename' z => z'))
    | (extract_lets +onlyGivenNames z; rename' z => z')
    | with_reducible apply Can.ite
    | with_reducible apply State.each_can
    | with_reducible apply State.sendAnnounce_can
    | with_reducible apply State.bookSync_can
    | with_reducible apply State.bookCtxSync_can
    | with_reducible apply State.sendCtxAnnounce_can
    | split

theorem State.sendSignal_can (s : State) (sl domain : Nat) (a : Addressing) (target : Bytes) (seq : Nat) (tl : Bytes) {Q : State} (h : Can Q s) : Can Q (State.sendSignal s sl domain a target seq tl) := by
  unfold State.sendSignal
  repeat' first
    | with_reducible assumption
    | with_reducible apply State.sendGeneral_can

theorem State.decideGrant_can (s : State) (i : Nat) (fr : RxFrame) (tlv : Bytes) {Q : State} (h : Can Q s) : Can Q (State.decideGrant s i fr tlv).2 := by
  unfold State.decideGrant
  repeat' first
    | with_reducible assumption
    | (extract_lets +onlyGivenNames z; refine (fun (_ : Can Q z) => ?_) ?_; (on_goal 2 => (dsimp -zeta only [z]; clear z)); (on_goal 1 => rename' z => z'))
    | (extract_lets +onlyGivenNames z; rename' z => z')
    | with_reducible apply Can.ite2
    | with_reducible apply Can.ite
    | with_reducible apply State.inc_can
    | with_reducible apply State.raise_can
    | with_reducible apply State.setCtx_can

theorem State.decideGrant_pair (s : State) (i : Nat) (fr : RxFrame) (tlv : Bytes) {u : State} {x : _} (hq : (State.decideGrant s i fr tlv) = (x, u)) {Q : State} (h : Can Q s) : Can Q u := by
  have k := State.decideGrant_can s i fr tlv h
  rw [hq] at k
  exact k

theorem State.signalSeq_can (s : State) (i sl : Nat) (client port : Bytes) {Q : State} (h : Can Q s) : Can Q (State.signalSeq s i sl client port).2 := by
  unfold State.signalSeq
  repeat' first
    | with_reducible assumption
    | with_reducible apply State.nextSeq_can
    | with_reducible apply State.setCtx_can
    | split

theorem State.signalSeq_pair (s : State) (i sl : Nat) (client port : Bytes) {u : State} {x : _} (hq : (State.signalSeq s i sl client port) = (x, u)) {Q : State} (h : Can Q s) : Can Q u := by
  have k := State.signalSeq_can s i sl client port h
  rw [hq] at k
  exact k

theorem State.unicastRequest_can (s : State) {Q : State} (h : Can Q s) : Can Q (State.unicastRequest s) := by
  unfold State.unicastRequest
  repeat' first
    | with_reducible assumption
    | intro _
    | (extract_lets +onlyGivenNames z; refine (fun (_ : Can Q z.2) => ?_) ?_; (on_goal 2 => (dsimp -zeta only [z]; clear z)); (on_goal 1 => rename' z => z'))
    | (extract_lets +onlyGivenNames z; rename' z => z')
    | with_reducible apply State.inc_can
    | (with_reducible refine State.takeClaim_some _ _ (by assumption) ?_)
    | with_reducible apply State.showCtxs_can
    | with_reducible apply State.armPtp_can
    | with_reducible apply State.sendSignal_can
    | with_reducible apply State.decideGrant_can
    | with_reducible apply State.signalSeq_can
    | with_reducible apply foldl_can2
    | split

theorem State.grantExpire_can (s : State) {Q : State} (h : Can Q s) : Can Q (State.grantExpire s) := by
  unfold State.grantExpire
  repeat' first
    | with_reducible assumption
    | intro _
    | (extract_lets +onlyGivenNames z; refine (fun (_ : Can Q z) => ?_) ?_; (on_goal 2 => (dsimp -zeta only [z]; clear z)); (on_goal 1 => rename' z => z'))
    | (extract_lets +onlyGivenNames z; rename' z => z')
    | with_reducible apply Can.ite
    | with_reducible apply State.each_can
    | with_reducible apply State.count_can
    | with_reducible apply State.showCtxs_can
    | with_reducible apply State.setCtx_can
    | with_reducible apply State.armPtp_can

theorem State.cancelCtx_can (s : State) (domain k : Nat) (c : PtpCtx) {Q : State} (h : Can Q s) : Can Q (State.cancelCtx s domain k c) := by
  unfold State.cancelCtx
  repeat' first
    | with_reducible assumption
    | (extract_lets +onlyGivenNames z; refine (fun (_ : Can Q z) => ?_) ?_; (on_goal 2 => (dsimp -zeta only [z]; clear z)); (on_goal 1 => rename' z => z'))
    | (extract_lets +onlyGivenNames z; rename' z => z')
    | with_reducible apply State.sendSignal_can
    | with_reducible exact Can.with_ ‹_›

theorem State.freeLinkCtxs_can (s : State) (sl : Nat) {Q : State} (h : Can Q s) : Can Q (State.freeLinkCtxs s sl) := by
  unfold State.freeLinkCtxs
  repeat' first
    | (extract_lets +onlyGivenNames z; rename' z => z')
    | with_reducible apply State.showCtxs_can
    | with_reducible apply State.armPtp_can
    | with_reducible exact Can.with_ ‹_›

theorem State.delayRespMulticast_can (s : State) (i : Nat) (fr : RxFrame) {Q : State} (h : Can Q s) : Can Q (State.delayRespMulticast s i fr) := by
  unfold State.delayRespMulticast
  repeat' first
    | with_reducible assumption
    | (extract_lets +onlyGivenNames z; rename' z => z')
    | with_reducible apply State.sendGeneral_can

theorem State.delayRespUnicast_can (s : State) (k : Nat) (c : PtpCtx) (g : Grant) (fr : RxFrame) {Q : State} (h : Can Q s) : Can Q (State.delayRespUnicast s k c g fr) := by
  unfold State.delayRespUnicast
  repeat' first
    | with_reducible assumption
    | (extract_lets +onlyGivenNames z; rename' z => z')
    | with_reducible apply Can.ite
    | with_reducible apply State.inc_can
    | with_reducible apply State.setCtx_can
    | with_reducible apply State.sendGeneral_can

theorem State.delayReq_can (s : State) {Q : State} (h : Can Q s) : Can Q (State.delayReq s) := by
  unfold State.delayReq
  repeat' first
    | with_reducible assumption
    | (extract_lets +onlyGivenNames z; clear_value z; rename' z => z')
    | with_reducible apply Can.ite
    | with_reducible apply State.inc_can
    | with_reducible apply State.delayRespMulticast_can
    | with_reducible apply State.delayRespUnicast_can
    | (with_reducible refine State.takeClaim_some _ _ (by assumption) ?_)
    | split

theorem State.ptpIntake_can (s : State) (fr : RxFrame) {Q : State} (h : Can Q s) : Can Q (State.ptpIntake s fr) := by
  unfold State.ptpIntake
  repeat' first
    | with_reducible assumption
    | (extract_lets +onlyGivenNames z; refine (fun (_ : Can Q z) => ?_) ?_; (on_goal 2 => (dsimp -zeta only [z]; clear z)); (on_goal 1 => rename' z => z'))
    | (extract_lets +onlyGivenNames z; rename' z => z')
    | with_reducible apply Can.ite
    | with_reducible apply State.inc_can
    | with_reducible apply State.deliverFrame_can
    | with_reducible apply State.claim_can

theorem State.frameIn_can (s : State) (sl : Nat) (x : RxPhys) {Q : State} (h : Can Q s) : Can Q (State.frameIn s sl x) := by
  unfold State.frameIn
  repeat' first
    | with_reducible assumption
    | (extract_lets +onlyGivenNames z; refine (fun (_ : Can Q z) => ?_) ?_; (on_goal 2 => (dsimp -zeta only [z]; clear z)); (on_goal 1 => rename' z => z'))
    | (extract_lets +onlyGivenNames z; rename' z => z')
    | with_reducible apply Can.ite
    | with_reducible apply State.frameRx_can
    | with_reducible apply State.ptpIntake_can
    | with_reducible exact Can.with_ ‹_›
    | split

end Sys2Proof.Machine
end

