-- ==== Sys2Proof/Laws/CanonCascade.lean ====
section
/-!
SUPPORT. The canonical form of the sparse storage through every operation of Machine/Cascade.lean.
-/

set_option Elab.async false

namespace Sys2Proof.Machine

theorem State.setLane_can (s : State) (l : Nat) (f : PeorelLane → PeorelLane) {Q : State} (h : Can Q s) : Can Q (State.setLane s l f) := by
  unfold State.setLane
  repeat' first
    | (extract_lets +onlyGivenNames z; rename' z => z')
    | with_reducible exact Can.with_ ‹_›

theorem State.setCas_can (s : State) (f : Cas → Cas) {Q : State} (h : Can Q s) : Can Q (State.setCas s f) := by
  unfold State.setCas
  repeat' first
    | with_reducible exact Can.with_ ‹_›

theorem State.laneSlot_can (s : State) (l lo n : Nat) {Q : State} (h : Can Q s) : Can Q (State.laneSlot s l lo n).2 := by
  unfold State.laneSlot
  repeat' first
    | with_reducible assumption
    | (extract_lets +onlyGivenNames z; rename' z => z')
    | with_reducible apply State.setLane_can

theorem State.laneSlot_pair (s : State) (l lo n : Nat) {u : State} {x : _} (hq : (State.laneSlot s l lo n) = (x, u)) {Q : State} (h : Can Q s) : Can Q u := by
  have k := State.laneSlot_can s l lo n h
  rw [hq] at k
  exact k

theorem State.laneSeq_can (s : State) (l type : Nat) {Q : State} (h : Can Q s) : Can Q (State.laneSeq s l type).2 := by
  unfold State.laneSeq
  repeat' first
    | with_reducible assumption
    | with_reducible apply State.setLane_can

theorem State.laneSeq_pair (s : State) (l type : Nat) {u : State} {x : _} (hq : (State.laneSeq s l type) = (x, u)) {Q : State} (h : Can Q s) : Can Q u := by
  have k := State.laneSeq_can s l type h
  rw [hq] at k
  exact k

theorem State.sendPeorel_can (s : State) (l type len : Nat) (body : Bytes) {Q : State} (h : Can Q s) : Can Q (State.sendPeorel s l type len body) := by
  unfold State.sendPeorel
  repeat' first
    | with_reducible assumption
    | (extract_lets +onlyGivenNames z; refine (fun (_ : Can Q z.2) => ?_) ?_; (on_goal 2 => (dsimp -zeta only [z]; clear z)); (on_goal 1 => rename' z => z'))
    | with_reducible apply State.emit_can
    | with_reducible apply State.laneSlot_can
    | with_reducible apply State.laneSeq_can

theorem State.dropOffer_can (s : State) (l : Nat) {Q : State} (h : Can Q s) : Can Q (State.dropOffer s l) := by
  unfold State.dropOffer
  repeat' first
    | with_reducible assumption
    | (extract_lets +onlyGivenNames z; refine (fun (_ : Can Q z) => ?_) ?_; (on_goal 2 => (dsimp -zeta only [z]; clear z)); (on_goal 1 => rename' z => z'))
    | with_reducible apply State.wr_can
    | with_reducible apply State.wr64_can
    | with_reducible apply State.setLane_can

theorem State.setRole_can (s : State) (l r : Nat) {Q : State} (h : Can Q s) : Can Q (State.setRole s l r) := by
  unfold State.setRole
  repeat' first
    | with_reducible assumption
    | with_reducible apply Can.ite
    | with_reducible apply State.sfW_can
    | with_reducible apply State.raise_can

theorem State.sendOp_can (s : State) (l type : Nat) (o : CasOp) {Q : State} (h : Can Q s) : Can Q (State.sendOp s l type o) := by
  unfold State.sendOp
  repeat' first
    | with_reducible assumption
    | with_reducible apply State.sendPeorel_can

theorem State.showTree_can (s : State) {Q : State} (h : Can Q s) : Can Q (State.showTree s) := by
  unfold State.showTree
  repeat' first
    | with_reducible assumption
    | (extract_lets +onlyGivenNames z; refine (fun (_ : Can Q z) => ?_) ?_; (on_goal 2 => (dsimp -zeta only [z]; clear z)); (on_goal 1 => rename' z => z'))
    | (extract_lets +onlyGivenNames z; rename' z => z')
    | with_reducible apply Can.ite
    | with_reducible apply State.wr_can
    | with_reducible apply State.sfW_can
    | with_reducible apply State.raise_can

theorem State.greetChild_can (s : State) (l : Nat) {Q : State} (h : Can Q s) : Can Q (State.greetChild s l) := by
  unfold State.greetChild
  repeat' first
    | with_reducible assumption
    | intro _
    | with_reducible apply State.each_can
    | with_reducible apply State.sendOp_can

theorem State.assignRole_can (s : State) (l n : Nat) {Q : State} (h : Can Q s) : Can Q (State.assignRole s l n).2 := by
  unfold State.assignRole
  repeat' first
    | with_reducible assumption
    | (extract_lets +onlyGivenNames z; refine (fun (_ : Can Q z) => ?_) ?_; (on_goal 2 => (dsimp -zeta only [z]; clear z)); (on_goal 1 => rename' z => z'))
    | (extract_lets +onlyGivenNames z; rename' z => z')
    | with_reducible apply Can.ite2
    | with_reducible apply Can.ite
    | with_reducible apply State.inc_can
    | with_reducible apply State.raise_can
    | with_reducible apply State.setRole_can
    | with_reducible apply State.greetChild_can

theorem State.assignRole_pair (s : State) (l n : Nat) {u : State} {x : _} (hq : (State.assignRole s l n) = (x, u)) {Q : State} (h : Can Q s) : Can Q u := by
  have k := State.assignRole_can s l n h
  rw [hq] at k
  exact k

theorem State.assignRoles_can (s : State) {Q : State} (h : Can Q s) : Can Q (State.assignRoles s) := by
  unfold State.assignRoles
  repeat' first
    | with_reducible assumption
    | intro _
    | with_reducible apply State.showTree_can
    | with_reducible apply State.assignRole_can
    | with_reducible apply foldl_can2

theorem State.showRidge_can (s : State) (ridge prio seq : Nat) (path : List Nat) {Q : State} (h : Can Q s) : Can Q (State.showRidge s ridge prio seq path) := by
  unfold State.showRidge
  repeat' first
    | with_reducible assumption
    | intro _
    | (extract_lets +onlyGivenNames z; refine (fun (_ : Can Q z) => ?_) ?_; (on_goal 2 => (dsimp -zeta only [z]; clear z)); (on_goal 1 => rename' z => z'))
    | with_reducible apply Can.ite
    | with_reducible apply State.wr_can
    | with_reducible apply State.wr64_can
    | with_reducible apply State.each_can
    | with_reducible apply State.raise_can
    | with_reducible apply State.toUnavailable_can
    | with_reducible apply State.setCas_can

theorem State.takePlace_can (s : State) (pos : Nat) (up : Option Nat) (depth : Nat) {Q : State} (h : Can Q s) : Can Q (State.takePlace s pos up depth) := by
  unfold State.takePlace
  repeat' first
    | with_reducible assumption
    | (extract_lets +onlyGivenNames z; refine (fun (_ : Can Q z) => ?_) ?_; (on_goal 2 => (dsimp -zeta only [z]; clear z)); (on_goal 1 => rename' z => z'))
    | (extract_lets +onlyGivenNames z; rename' z => z')
    | with_reducible apply Can.ite
    | with_reducible apply State.sfW_can
    | with_reducible apply State.setBit_can
    | with_reducible apply State.inc_can
    | with_reducible apply State.raise_can

theorem State.casOff_can (s : State) {Q : State} (h : Can Q s) : Can Q (State.casOff s) := by
  unfold State.casOff
  repeat' first
    | with_reducible assumption
    | intro _
    | (extract_lets +onlyGivenNames z; refine (fun (_ : Can Q z) => ?_) ?_; (on_goal 2 => (dsimp -zeta only [z]; clear z)); (on_goal 1 => rename' z => z'))
    | with_reducible apply State.wr_can
    | with_reducible apply State.sfW_can
    | with_reducible apply State.each_can
    | with_reducible apply State.setLane_can
    | with_reducible apply State.setRole_can
    | with_reducible apply State.showRidge_can
    | with_reducible apply State.takePlace_can

theorem State.choosePosition_can (s : State) (tick : Bool) {Q : State} (h : Can Q s) : Can Q (State.choosePosition s tick) := by
  unfold State.choosePosition
  repeat' first
    | with_reducible assumption
    | (extract_lets +onlyGivenNames z; rename' z => z')
    | with_reducible apply Can.ite
    | with_reducible apply State.assignRoles_can
    | with_reducible apply State.showRidge_can
    | with_reducible apply State.takePlace_can
    | with_reducible apply State.casOff_can
    | split

theorem State.slotLink_can (s : State) (l lo seq : Nat) {Q : State} (h : Can Q s) : Can Q (State.slotLink s l lo seq) := by
  unfold State.slotLink
  repeat' first
    | with_reducible assumption
    | (extract_lets +onlyGivenNames z; refine (fun (_ : Can Q z.2) => ?_) ?_; (on_goal 2 => (dsimp -zeta only [z]; clear z)); (on_goal 1 => rename' z => z'))
    | with_reducible apply State.setLane_can
    | with_reducible apply State.laneSlot_can

theorem State.bookLink_can (s : State) (l : Nat) {Q : State} (h : Can Q s) : Can Q (State.bookLink s l) := by
  unfold State.bookLink
  repeat' first
    | with_reducible assumption
    | (extract_lets +onlyGivenNames z; refine (fun (_ : Can Q z.2) => ?_) ?_; (on_goal 2 => (dsimp -zeta only [z]; clear z)); (on_goal 1 => rename' z => z'))
    | with_reducible apply State.laneSeq_can
    | with_reducible apply State.slotLink_can

theorem State.setBooked_can (s : State) (l z : Nat) (f : LinkSlot → LinkSlot) {Q : State} (h : Can Q s) : Can Q (State.setBooked s l z f) := by
  unfold State.setBooked
  repeat' first
    | with_reducible assumption
    | with_reducible apply State.setLane_can

theorem State.finaliseLink_can (s : State) (l : Nat) {Q : State} (h : Can Q s) : Can Q (State.finaliseLink s l) := by
  unfold State.finaliseLink
  repeat' first
    | with_reducible assumption
    | (extract_lets +onlyGivenNames z; rename' z => z')
    | with_reducible apply State.setBooked_can
    | split

theorem State.commitLink_can (s : State) (l : Nat) {Q : State} (h : Can Q s) : Can Q (State.commitLink s l) := by
  unfold State.commitLink
  repeat' first
    | with_reducible assumption
    | with_reducible apply State.setBooked_can
    | split

theorem State.startLink_can (s : State) (l : Nat) {Q : State} (h : Can Q s) : Can Q (State.startLink s l) := by
  unfold State.startLink
  repeat' first
    | with_reducible assumption
    | (extract_lets +onlyGivenNames z; refine (fun (_ : Can Q z) => ?_) ?_; (on_goal 2 => (dsimp -zeta only [z]; clear z)); (on_goal 1 => rename' z => z'))
    | with_reducible apply State.inc_can
    | with_reducible apply State.emit_can
    | with_reducible apply State.setLane_can
    | split

theorem State.showPeer_can (s : State) (l : Nat) (o : PeorelLink) {Q : State} (h : Can Q s) : Can Q (State.showPeer s l o) := by
  unfold State.showPeer
  repeat' first
    | with_reducible assumption
    | (extract_lets +onlyGivenNames z; refine (fun (_ : Can Q z) => ?_) ?_; (on_goal 2 => (dsimp -zeta only [z]; clear z)); (on_goal 1 => rename' z => z'))
    | with_reducible apply State.wr_can
    | with_reducible apply State.wr64_can

theorem State.parentQuality_can (s : State) (o : PeorelLink) {Q : State} (h : Can Q s) : Can Q (State.parentQuality s o) := by
  unfold State.parentQuality
  repeat' first
    | with_reducible assumption
    | with_reducible apply State.setRef_can

theorem State.linkRx_can (s : State) (l : Nat) (d : Bytes) (cap : Nat) {Q : State} (h : Can Q s) : Can Q (State.linkRx s l d cap) := by
  unfold State.linkRx
  repeat' first
    | with_reducible assumption
    | (extract_lets +onlyGivenNames z; refine (fun (_ : Can Q z) => ?_) ?_; (on_goal 2 => (dsimp -zeta only [z]; clear z)); (on_goal 1 => rename' z => z'))
    | (extract_lets +onlyGivenNames z; rename' z => z')
    | with_reducible apply Can.ite
    | with_reducible apply State.wr_can
    | with_reducible apply State.inc_can
    | with_reducible apply State.setLane_can
    | with_reducible apply State.assignRoles_can
    | with_reducible apply State.showPeer_can
    | with_reducible apply State.parentQuality_can

theorem State.laneIntake_can (s : State) (l : Nat) (frame : Bytes) {Q : State} (h : Can Q s) : Can Q (State.laneIntake s l frame).2 := by
  unfold State.laneIntake
  repeat' first
    | with_reducible assumption
    | (extract_lets +onlyGivenNames z; refine (fun (_ : Can Q z) => ?_) ?_; (on_goal 2 => (dsimp -zeta only [z]; clear z)); (on_goal 1 => rename' z => z'))
    | (extract_lets +onlyGivenNames z; rename' z => z')
    | with_reducible apply Can.ite2
    | with_reducible apply Can.ite
    | with_reducible apply State.inc_can
    | with_reducible apply State.raise_can
    | with_reducible apply State.dropOffer_can
    | with_reducible apply State.setRole_can
    | with_reducible apply State.choosePosition_can

theorem State.laneIntake_pair (s : State) (l : Nat) (frame : Bytes) {u : State} {x : _} (hq : (State.laneIntake s l frame) = (x, u)) {Q : State} (h : Can Q s) : Can Q u := by
  have k := State.laneIntake_can s l frame h
  rw [hq] at k
  exact k

theorem State.laneLink_can (s : State) (l : Nat) (frame : Bytes) (ago fecUncorr : Nat) {Q : State} (h : Can Q s) : Can Q (State.laneLink s l frame ago fecUncorr) := by
  unfold State.laneLink
  repeat' first
    | with_reducible assumption
    | with_reducible apply Can.ite
    | with_reducible apply State.count_can
    | with_reducible apply State.linkRx_can
    | (with_reducible refine State.laneIntake_pair _ _ _ (by assumption) ?_)
    | split

theorem State.laneTick_can (s : State) (l : Nat) {Q : State} (h : Can Q s) : Can Q (State.laneTick s l) := by
  unfold State.laneTick
  repeat' first
    | with_reducible assumption
    | (extract_lets +onlyGivenNames z; refine (fun (_ : Can Q z) => ?_) ?_; (on_goal 2 => (dsimp -zeta only [z]; clear z)); (on_goal 1 => rename' z => z'))
    | with_reducible apply Can.ite
    | with_reducible apply State.inc_can
    | with_reducible apply State.raise_can
    | with_reducible apply State.setLane_can
    | with_reducible apply State.dropOffer_can

theorem State.linkTick_can (s : State) {Q : State} (h : Can Q s) : Can Q (State.linkTick s) := by
  unfold State.linkTick
  repeat' first
    | with_reducible assumption
    | intro _
    | (extract_lets +onlyGivenNames z; refine (fun (_ : Can Q z) => ?_) ?_; (on_goal 2 => (dsimp -zeta only [z]; clear z)); (on_goal 1 => rename' z => z'))
    | with_reducible apply State.each_can
    | with_reducible apply State.fireDue_can
    | with_reducible apply State.setCas_can
    | with_reducible apply State.choosePosition_can
    | with_reducible apply State.bookLink_can
    | with_reducible apply State.laneTick_can

theorem State.laneEvaluate_can (s : State) (sec l : Nat) {Q : State} (h : Can Q s) : Can Q (State.laneEvaluate s sec l) := by
  unfold State.laneEvaluate
  repeat' first
    | with_reducible assumption
    | (extract_lets +onlyGivenNames z; refine (fun (_ : Can Q z) => ?_) ?_; (on_goal 2 => (dsimp -zeta only [z]; clear z)); (on_goal 1 => rename' z => z'))
    | (extract_lets +onlyGivenNames z; rename' z => z')
    | with_reducible apply Can.ite
    | with_reducible apply State.wr_can
    | with_reducible apply State.setBit_can
    | with_reducible apply State.raise_can
    | with_reducible apply State.deliver_can
    | with_reducible apply State.setLane_can

theorem State.lanesEvaluate_can (s : State) (sec : Nat) {Q : State} (h : Can Q s) : Can Q (State.lanesEvaluate s sec) := by
  unfold State.lanesEvaluate
  repeat' first
    | with_reducible assumption
    | intro _
    | with_reducible apply State.each_can
    | with_reducible apply State.showTree_can
    | with_reducible apply State.laneEvaluate_can

theorem State.latchLane_can (s : State) (l : Nat) {Q : State} (h : Can Q s) : Can Q (State.latchLane s l) := by
  unfold State.latchLane
  repeat' first
    | with_reducible assumption
    | with_reducible apply State.wr_can
    | split

theorem State.relink_can (s : State) (l : Nat) {Q : State} (h : Can Q s) : Can Q (State.relink s l) := by
  unfold State.relink
  repeat' first
    | with_reducible assumption
    | intro _
    | (extract_lets +onlyGivenNames z; rename' z => z')
    | with_reducible apply State.each_can
    | with_reducible apply State.setLane_can
    | with_reducible apply State.slotLink_can

theorem State.casStepped_can (s : State) (d : Int) {Q : State} (h : Can Q s) : Can Q (State.casStepped s d) := by
  unfold State.casStepped
  repeat' first
    | with_reducible assumption
    | intro _
    | (extract_lets +onlyGivenNames z; refine (fun (_ : Can Q z) => ?_) ?_; (on_goal 2 => (dsimp -zeta only [z]; clear z)); (on_goal 1 => rename' z => z'))
    | (extract_lets +onlyGivenNames z; rename' z => z')
    | with_reducible apply State.each_can
    | with_reducible apply State.setCas_can
    | with_reducible apply State.relink_can

theorem State.laneComesUp_can (s : State) (l rxDyn txDyn : Nat) {Q : State} (h : Can Q s) : Can Q (State.laneComesUp s l rxDyn txDyn) := by
  unfold State.laneComesUp
  repeat' first
    | with_reducible assumption
    | intro _
    | (extract_lets +onlyGivenNames z; refine (fun (_ : Can Q z) => ?_) ?_; (on_goal 2 => (dsimp -zeta only [z]; clear z)); (on_goal 1 => rename' z => z'))
    | (extract_lets +onlyGivenNames z; rename' z => z')
    | with_reducible apply Can.ite
    | with_reducible apply State.sfW_can
    | with_reducible apply State.setBit_can
    | with_reducible apply State.when_can
    | with_reducible apply State.raise_can
    | with_reducible apply State.setLane_can

theorem State.laneDown_can (s : State) (l : Nat) {Q : State} (h : Can Q s) : Can Q (State.laneDown s l) := by
  unfold State.laneDown
  repeat' first
    | with_reducible assumption
    | (extract_lets +onlyGivenNames z; refine (fun (_ : Can Q z) => ?_) ?_; (on_goal 2 => (dsimp -zeta only [z]; clear z)); (on_goal 1 => rename' z => z'))
    | (extract_lets +onlyGivenNames z; rename' z => z')
    | with_reducible apply Can.ite
    | with_reducible apply State.sfW_can
    | with_reducible apply State.setBit_can
    | with_reducible apply State.inc_can
    | with_reducible apply State.raise_can
    | with_reducible apply State.setLane_can
    | with_reducible apply State.dropOffer_can
    | with_reducible apply State.setRole_can
    | with_reducible apply State.showTree_can
    | with_reducible apply State.choosePosition_can

theorem State.dropLanes_can (s : State) {Q : State} (h : Can Q s) : Can Q (State.dropLanes s) := by
  unfold State.dropLanes
  repeat' first
    | with_reducible assumption
    | intro _
    | with_reducible apply Can.ite
    | with_reducible apply State.each_can
    | with_reducible apply State.laneDown_can

theorem State.showLaneTransmitters_can (s : State) {Q : State} (h : Can Q s) : Can Q (State.showLaneTransmitters s) := by
  unfold State.showLaneTransmitters
  repeat' first
    | with_reducible assumption
    | with_reducible apply State.setBit_can

theorem State.laneCageInsert_can (s : State) (c : Nat) (responded : Bool) (ident pclass : Nat) {Q : State} (h : Can Q s) : Can Q (State.laneCageInsert s c responded ident pclass) := by
  unfold State.laneCageInsert
  repeat' first
    | with_reducible assumption
    | intro _
    | (extract_lets +onlyGivenNames z; refine (fun (_ : Can Q z) => ?_) ?_; (on_goal 2 => (dsimp -zeta only [z]; clear z)); (on_goal 1 => rename' z => z'))
    | (extract_lets +onlyGivenNames z; rename' z => z')
    | with_reducible apply Can.ite
    | with_reducible apply State.sfW_can
    | with_reducible apply State.setBit_can
    | with_reducible apply State.when_can
    | with_reducible apply State.raise_can
    | with_reducible apply State.showLaneTransmitters_can

theorem State.laneCageRemove_can (s : State) (c : Nat) {Q : State} (h : Can Q s) : Can Q (State.laneCageRemove s c) := by
  unfold State.laneCageRemove
  repeat' first
    | with_reducible assumption
    | intro _
    | (extract_lets +onlyGivenNames z; refine (fun (_ : Can Q z) => ?_) ?_; (on_goal 2 => (dsimp -zeta only [z]; clear z)); (on_goal 1 => rename' z => z'))
    | (extract_lets +onlyGivenNames z; rename' z => z')
    | with_reducible apply State.wr_can
    | with_reducible apply State.sfW_can
    | with_reducible apply State.setBit_can
    | with_reducible apply State.each_can
    | with_reducible apply State.raise_can
    | with_reducible apply State.laneDown_can

theorem State.casFrozen_can (s : State) {Q : State} (h : Can Q s) : Can Q (State.casFrozen s) := by
  unfold State.casFrozen
  repeat' first
    | with_reducible assumption
    | intro _
    | (extract_lets +onlyGivenNames z; refine (fun (_ : Can Q z) => ?_) ?_; (on_goal 2 => (dsimp -zeta only [z]; clear z)); (on_goal 1 => rename' z => z'))
    | (extract_lets +onlyGivenNames z; rename' z => z')
    | with_reducible apply State.setBit_can
    | with_reducible apply State.each_can
    | with_reducible apply State.showLaneTransmitters_can

theorem State.applyCmacPort_can (s : State) (old : Nat → Word) {Q : State} (h : Can Q s) : Can Q (State.applyCmacPort s old) := by
  unfold State.applyCmacPort
  repeat' first
    | with_reducible assumption
    | intro _
    | (extract_lets +onlyGivenNames z; refine (fun (_ : Can Q z) => ?_) ?_; (on_goal 2 => (dsimp -zeta only [z]; clear z)); (on_goal 1 => rename' z => z'))
    | with_reducible apply State.each_can
    | with_reducible apply State.laneDown_can
    | with_reducible apply State.casFrozen_can

theorem State.applyCmacCal_can (s : State) {Q : State} (h : Can Q s) : Can Q (State.applyCmacCal s) := by
  unfold State.applyCmacCal
  repeat' first
    | with_reducible assumption
    | intro _
    | with_reducible apply Can.ite
    | with_reducible apply State.each_can
    | with_reducible apply State.setLane_can
    | with_reducible apply State.casFrozen_can

theorem State.armTick_can (s : State) {Q : State} (h : Can Q s) : Can Q (State.armTick s) := by
  unfold State.armTick
  repeat' first
    | with_reducible assumption
    | (extract_lets +onlyGivenNames z; rename' z => z')
    | with_reducible apply Can.ite
    | with_reducible apply State.calUsed_can
    | with_reducible apply State.calNew_can
    | exact Can.withCal ‹_› (Can.cal ‹_› |>.filter _)

theorem State.applyCasCfg_can (s : State) {Q : State} (h : Can Q s) : Can Q (State.applyCasCfg s) := by
  unfold State.applyCasCfg
  repeat' first
    | with_reducible assumption
    | (extract_lets +onlyGivenNames z; refine (fun (_ : Can Q z) => ?_) ?_; (on_goal 2 => (dsimp -zeta only [z]; clear z)); (on_goal 1 => rename' z => z'))
    | with_reducible apply Can.ite
    | with_reducible apply State.casOff_can
    | with_reducible apply State.choosePosition_can
    | with_reducible apply State.casFrozen_can
    | with_reducible apply State.armTick_can

theorem State.cmacParityFault_can (s : State) {Q : State} (h : Can Q s) : Can Q (State.cmacParityFault s) := by
  unfold State.cmacParityFault
  repeat' first
    | with_reducible assumption
    | with_reducible apply State.raise_can
    | with_reducible apply State.dropLanes_can
    | with_reducible apply State.casFrozen_can

theorem State.casParityFault_can (s : State) {Q : State} (h : Can Q s) : Can Q (State.casParityFault s) := by
  unfold State.casParityFault
  repeat' first
    | with_reducible assumption
    | (extract_lets +onlyGivenNames z; refine (fun (_ : Can Q z) => ?_) ?_; (on_goal 2 => (dsimp -zeta only [z]; clear z)); (on_goal 1 => rename' z => z'))
    | with_reducible apply Can.ite
    | with_reducible apply State.raise_can
    | with_reducible apply State.casOff_can
    | with_reducible apply State.casFrozen_can
    | with_reducible apply State.armTick_can

end Sys2Proof.Machine
end

