-- ==== Sys2Proof/Laws/CanonPke.lean ====
section
/-!
SUPPORT. The canonical form of the sparse storage through every operation of Machine/Pke.lean.
-/

set_option Elab.async false

namespace Sys2Proof.Machine

theorem State.showSlot_can (s : State) (k : Nat) {Q : State} (h : Can Q s) : Can Q (State.showSlot s k) := by
  unfold State.showSlot
  repeat' first
    | with_reducible assumption
    | (extract_lets +onlyGivenNames z; rename' z => z')
    | with_reducible apply State.wr_can

theorem State.setSlot_can (s : State) (k : Nat) (x : KeySlot) {Q : State} (h : Can Q s) : Can Q (State.setSlot s k x) := by
  unfold State.setSlot
  repeat' first
    | (extract_lets +onlyGivenNames z; rename' z => z')
    | with_reducible apply State.showSlot_can
    | with_reducible exact Can.with_ ‹_›

theorem State.saveKeys_can (s : State) {Q : State} (h : Can Q s) : Can Q (State.saveKeys s) := by
  unfold State.saveKeys
  repeat' first
    | (extract_lets +onlyGivenNames z; rename' z => z')
    | with_reducible exact Can.with_ ‹_›

theorem State.journalKeyOp_can (s : State) (r : Bytes) (alg usage status : Nat) {Q : State} (h : Can Q s) : Can Q (State.journalKeyOp s r alg usage status) := by
  unfold State.journalKeyOp
  repeat' first
    | with_reducible assumption
    | with_reducible apply State.journalize_can

theorem State.showCore_can (s : State) (c : Nat) {Q : State} (h : Can Q s) : Can Q (State.showCore s c) := by
  unfold State.showCore
  repeat' first
    | with_reducible assumption
    | (extract_lets +onlyGivenNames z; refine (fun (_ : Can Q z) => ?_) ?_; (on_goal 2 => (dsimp -zeta only [z]; clear z)); (on_goal 1 => rename' z => z'))
    | (extract_lets +onlyGivenNames z; rename' z => z')
    | with_reducible apply State.wr_can
    | with_reducible apply State.sfW_can

theorem State.setCore_can (s : State) (c : Nat) (f : PkeCore → PkeCore) {Q : State} (h : Can Q s) : Can Q (State.setCore s c f) := by
  unfold State.setCore
  repeat' first
    | (extract_lets +onlyGivenNames z; rename' z => z')
    | with_reducible apply State.showCore_can
    | with_reducible exact Can.with_ ‹_›

theorem State.setQueuePke_can (s : State) (f : List PkeJob → List PkeJob) {Q : State} (h : Can Q s) : Can Q (State.setQueuePke s f) := by
  unfold State.setQueuePke
  repeat' first
    | with_reducible assumption
    | (extract_lets +onlyGivenNames z; refine (fun (_ : Can Q z) => ?_) ?_; (on_goal 2 => (dsimp -zeta only [z]; clear z)); (on_goal 1 => rename' z => z'))
    | (extract_lets +onlyGivenNames z; rename' z => z')
    | with_reducible apply State.sfW_can
    | with_reducible exact Can.with_ ‹_›

theorem State.finalProgress_can (s : State) (j : PkeJob) (status : Nat) {Q : State} (h : Can Q s) : Can Q (State.finalProgress s j status) := by
  unfold State.finalProgress
  repeat' first
    | with_reducible assumption
    | (extract_lets +onlyGivenNames z; rename' z => z')
    | with_reducible apply Can.ite
    | with_reducible apply State.progressRecord_can

theorem State.finishJob_can (s : State) (j : PkeJob) (status detail : Nat) (out : Bytes) (core cycles : Nat) {Q : State} (h : Can Q s) : Can Q (State.finishJob s j status detail out core cycles) := by
  unfold State.finishJob
  repeat' first
    | with_reducible assumption
    | (extract_lets +onlyGivenNames z; refine (fun (_ : Can Q z) => ?_) ?_; (on_goal 2 => (dsimp -zeta only [z]; clear z)); (on_goal 1 => rename' z => z'))
    | (extract_lets +onlyGivenNames z; rename' z => z')
    | with_reducible apply Can.ite
    | with_reducible apply State.inc_can
    | with_reducible apply State.hostWrite_can
    | with_reducible apply State.endJob_can
    | with_reducible apply State.finalProgress_can
    | split

theorem State.queueJob_can (s : State) (j : PkeJob) {Q : State} (h : Can Q s) : Can Q (State.queueJob s j) := by
  unfold State.queueJob
  repeat' first
    | (extract_lets +onlyGivenNames z; rename' z => z')
    | with_reducible apply State.setQueuePke_can
    | with_reducible exact Can.with_ ‹_›

theorem State.fetchJob_can (s : State) (n : Nat) (d : Desc) (rec_ input : Option Bytes) {Q : State} (h : Can Q s) : Can Q (State.fetchJob s n d rec_ input) := by
  unfold State.fetchJob
  repeat' first
    | with_reducible assumption
    | (extract_lets +onlyGivenNames z; refine (fun (_ : Can Q z) => ?_) ?_; (on_goal 2 => (dsimp -zeta only [z]; clear z)); (on_goal 1 => rename' z => z'))
    | (extract_lets +onlyGivenNames z; rename' z => z')
    | with_reducible apply Can.ite
    | with_reducible apply State.inc_can
    | with_reducible apply State.endJob_can
    | with_reducible apply State.journalKeyOp_can
    | with_reducible apply State.finishJob_can
    | with_reducible apply State.queueJob_can
    | split

theorem State.runOp_can (s : State) (op c : Nat) {Q : State} (h : Can Q s) : Can Q (State.runOp s op c) := by
  unfold State.runOp
  repeat' first
    | with_reducible assumption
    | (extract_lets +onlyGivenNames z; refine (fun (_ : Can Q z.2) => ?_) ?_; (on_goal 2 => (dsimp -zeta only [z]; clear z)); (on_goal 1 => rename' z => z'))
    | (extract_lets +onlyGivenNames z; rename' z => z')
    | with_reducible apply Can.ite
    | with_reducible apply State.draw_can
    | with_reducible apply State.inc_can
    | with_reducible apply State.setCore_can
    | split

theorem State.takeJob_can (s : State) (j : PkeJob) {Q : State} (h : Can Q s) : Can Q (State.takeJob s j).2 := by
  unfold State.takeJob
  repeat' first
    | with_reducible assumption
    | (extract_lets +onlyGivenNames z; refine (fun (_ : Can Q z) => ?_) ?_; (on_goal 2 => (dsimp -zeta only [z]; clear z)); (on_goal 1 => rename' z => z'))
    | (extract_lets +onlyGivenNames z; rename' z => z')
    | with_reducible apply Can.ite2
    | with_reducible apply State.setSlot_can
    | with_reducible apply State.setQueuePke_can
    | with_reducible apply State.finishJob_can

theorem State.takeJob_pair (s : State) (j : PkeJob) {u : State} {x : _} (hq : (State.takeJob s j) = (x, u)) {Q : State} (h : Can Q s) : Can Q u := by
  have k := State.takeJob_can s j h
  rw [hq] at k
  exact k

theorem State.startJob_can (s : State) (c : Nat) (j : PkeJob) (delay : Nat) {Q : State} (h : Can Q s) : Can Q (State.startJob s c j delay) := by
  unfold State.startJob
  repeat' first
    | with_reducible assumption
    | with_reducible apply State.setCore_can
    | (with_reducible refine State.takeJob_pair _ _ (by assumption) ?_)
    | split

theorem State.ageJobs_can (s : State) {Q : State} (h : Can Q s) : Can Q (State.ageJobs s) := by
  unfold State.ageJobs
  repeat' first
    | (extract_lets +onlyGivenNames z; rename' z => z')
    | with_reducible exact Can.with_ ‹_›

theorem State.dispatch_can (s : State) (c : Nat) {Q : State} (h : Can Q s) : Can Q (State.dispatch s c) := by
  unfold State.dispatch
  repeat' first
    | with_reducible assumption
    | (extract_lets +onlyGivenNames z; refine (fun (_ : Can Q z) => ?_) ?_; (on_goal 2 => (dsimp -zeta only [z]; clear z)); (on_goal 1 => rename' z => z'))
    | (extract_lets +onlyGivenNames z; rename' z => z')
    | with_reducible apply Can.ite
    | with_reducible apply State.setCore_can
    | with_reducible apply State.startJob_can
    | with_reducible apply State.ageJobs_can
    | split

theorem State.yieldJob_can (s : State) (c : Nat) {Q : State} (h : Can Q s) : Can Q (State.yieldJob s c) := by
  unfold State.yieldJob
  repeat' first
    | with_reducible assumption
    | (extract_lets +onlyGivenNames z; refine (fun (_ : Can Q z) => ?_) ?_; (on_goal 2 => (dsimp -zeta only [z]; clear z)); (on_goal 1 => rename' z => z'))
    | (extract_lets +onlyGivenNames z; rename' z => z')
    | with_reducible apply Can.ite
    | with_reducible apply State.count_can
    | with_reducible apply State.inc_can
    | with_reducible apply State.setCore_can
    | with_reducible apply State.startJob_can
    | with_reducible apply State.ageJobs_can
    | split

theorem State.settleCycles_can (s : State) (c : Nat) {Q : State} (h : Can Q s) : Can Q (State.settleCycles s c) := by
  unfold State.settleCycles
  repeat' first
    | with_reducible assumption
    | with_reducible apply State.count_can
    | with_reducible apply State.setCore_can
    | split

theorem State.fillSlot_can (s : State) (j : PkeJob) (status : Nat) (priv : Bytes) {Q : State} (h : Can Q s) : Can Q (State.fillSlot s j status priv) := by
  unfold State.fillSlot
  repeat' first
    | with_reducible assumption
    | (extract_lets +onlyGivenNames z; refine (fun (_ : Can Q z) => ?_) ?_; (on_goal 2 => (dsimp -zeta only [z]; clear z)); (on_goal 1 => rename' z => z'))
    | (extract_lets +onlyGivenNames z; rename' z => z')
    | with_reducible apply Can.ite
    | with_reducible apply State.raise_can
    | with_reducible apply State.setSlot_can
    | with_reducible apply State.saveKeys_can
    | with_reducible apply State.journalKeyOp_can

theorem State.wipeCore_can (s : State) (c : Nat) {Q : State} (h : Can Q s) : Can Q (State.wipeCore s c) := by
  unfold State.wipeCore
  repeat' first
    | with_reducible assumption
    | with_reducible apply State.count_can
    | with_reducible apply State.inc_can
    | with_reducible apply State.setCore_can

theorem State.completeJob_can (s : State) (c : Nat) (wiped : Bool) {Q : State} (h : Can Q s) : Can Q (State.completeJob s c wiped).2 := by
  unfold State.completeJob
  repeat' first
    | with_reducible assumption
    | (extract_lets +onlyGivenNames z; refine (fun (_ : Can Q z) => ?_) ?_; (on_goal 2 => (dsimp -zeta only [z]; clear z)); (on_goal 1 => rename' z => z'))
    | (extract_lets +onlyGivenNames z; rename' z => z')
    | with_reducible apply Can.ite2
    | with_reducible apply Can.ite
    | with_reducible apply State.inc_can
    | with_reducible apply State.finishJob_can
    | with_reducible apply State.fillSlot_can
    | with_reducible apply State.wipeCore_can
    | split

theorem State.completeJob_pair (s : State) (c : Nat) (wiped : Bool) {u : State} {x : _} (hq : (State.completeJob s c wiped) = (x, u)) {Q : State} (h : Can Q s) : Can Q u := by
  have k := State.completeJob_can s c wiped h
  rw [hq] at k
  exact k

theorem State.stopJob_can (s : State) (j : PkeJob) (status core cycles : Nat) {Q : State} (h : Can Q s) : Can Q (State.stopJob s j status core cycles) := by
  unfold State.stopJob
  repeat' first
    | with_reducible assumption
    | (extract_lets +onlyGivenNames z; refine (fun (_ : Can Q z) => ?_) ?_; (on_goal 2 => (dsimp -zeta only [z]; clear z)); (on_goal 1 => rename' z => z'))
    | with_reducible apply Can.ite
    | with_reducible apply State.finishJob_can
    | with_reducible apply State.fillSlot_can

theorem State.stopCore_can (s : State) (c status : Nat) (p : PkeJob → Bool) {Q : State} (h : Can Q s) : Can Q (State.stopCore s c status p) := by
  unfold State.stopCore
  repeat' first
    | with_reducible assumption
    | intro _
    | (extract_lets +onlyGivenNames z; refine (fun (_ : Can Q z) => ?_) ?_; (on_goal 2 => (dsimp -zeta only [z]; clear z)); (on_goal 1 => rename' z => z'))
    | (extract_lets +onlyGivenNames z; rename' z => z')
    | with_reducible apply Can.ite
    | with_reducible apply State.each_can
    | with_reducible apply State.setCore_can
    | with_reducible apply State.wipeCore_can
    | with_reducible apply State.stopJob_can
    | split

theorem State.abortJobs_can (s : State) (p : PkeJob → Bool) {Q : State} (h : Can Q s) : Can Q (State.abortJobs s p) := by
  unfold State.abortJobs
  repeat' first
    | with_reducible assumption
    | intro _
    | (extract_lets +onlyGivenNames z; refine (fun (_ : Can Q z) => ?_) ?_; (on_goal 2 => (dsimp -zeta only [z]; clear z)); (on_goal 1 => rename' z => z'))
    | with_reducible apply State.each_can
    | with_reducible apply State.setQueuePke_can
    | with_reducible apply State.stopJob_can
    | with_reducible apply State.stopCore_can

theorem State.abortTag_can (s : State) (tag : Nat) {Q : State} (h : Can Q s) : Can Q (State.abortTag s tag) := by
  unfold State.abortTag
  repeat' first
    | with_reducible assumption
    | (extract_lets +onlyGivenNames z; rename' z => z')
    | with_reducible apply Can.ite
    | with_reducible apply State.inc_can
    | with_reducible apply State.raise_can
    | with_reducible apply State.abortJobs_can

theorem State.fenceCore_can (s : State) (c : Nat) {Q : State} (h : Can Q s) : Can Q (State.fenceCore s c) := by
  unfold State.fenceCore
  repeat' first
    | with_reducible assumption
    | (extract_lets +onlyGivenNames z; refine (fun (_ : Can Q z) => ?_) ?_; (on_goal 2 => (dsimp -zeta only [z]; clear z)); (on_goal 1 => rename' z => z'))
    | with_reducible apply State.setBit_can
    | with_reducible apply State.raise_can
    | with_reducible apply State.showCore_can
    | with_reducible apply State.stopCore_can

theorem State.returnCore_can (s : State) (c : Nat) {Q : State} (h : Can Q s) : Can Q (State.returnCore s c) := by
  unfold State.returnCore
  repeat' first
    | with_reducible assumption
    | with_reducible apply State.setBit_can
    | with_reducible apply State.showCore_can

theorem State.keyWipe_can (s : State) {Q : State} (h : Can Q s) : Can Q (State.keyWipe s) := by
  unfold State.keyWipe
  repeat' first
    | with_reducible assumption
    | (extract_lets +onlyGivenNames z; refine (fun (_ : Can Q z) => ?_) ?_; (on_goal 2 => (dsimp -zeta only [z]; clear z)); (on_goal 1 => rename' z => z'))
    | (extract_lets +onlyGivenNames z; rename' z => z')
    | with_reducible apply Can.ite
    | with_reducible apply State.raise_can
    | with_reducible apply State.setSlot_can
    | with_reducible apply State.saveKeys_can
    | with_reducible apply State.journalKeyOp_can
    | with_reducible apply State.setQueuePke_can
    | with_reducible apply State.finishJob_can
    | with_reducible apply State.abortJobs_can
    | split

theorem State.keyPublic_can (s : State) {Q : State} (h : Can Q s) : Can Q (State.keyPublic s) := by
  unfold State.keyPublic
  repeat' first
    | with_reducible assumption
    | (extract_lets +onlyGivenNames z; refine (fun (_ : Can Q z) => ?_) ?_; (on_goal 2 => (dsimp -zeta only [z]; clear z)); (on_goal 1 => rename' z => z'))
    | (extract_lets +onlyGivenNames z; rename' z => z')
    | with_reducible apply Can.ite
    | with_reducible apply State.setQueuePke_can
    | with_reducible apply State.finishJob_can
    | split

theorem State.keygenProgress_can (s : State) (c phase tested : Nat) {Q : State} (h : Can Q s) : Can Q (State.keygenProgress s c phase tested) := by
  unfold State.keygenProgress
  repeat' first
    | with_reducible assumption
    | (extract_lets +onlyGivenNames z; refine (fun (_ : Can Q z) => ?_) ?_; (on_goal 2 => (dsimp -zeta only [z]; clear z)); (on_goal 1 => rename' z => z'))
    | (extract_lets +onlyGivenNames z; rename' z => z')
    | with_reducible apply Can.ite
    | with_reducible apply State.progressRecord_can
    | with_reducible apply State.setCore_can
    | split

theorem State.countSeeds_can (s : State) {Q : State} (h : Can Q s) : Can Q (State.countSeeds s) := by
  unfold State.countSeeds
  repeat' first
    | (extract_lets +onlyGivenNames z; rename' z => z')
    | with_reducible apply State.count_can
    | with_reducible exact Can.with_ ‹_›

theorem State.keygensStarve_can (s : State) {Q : State} (h : Can Q s) : Can Q (State.keygensStarve s) := by
  unfold State.keygensStarve
  repeat' first
    | (extract_lets +onlyGivenNames z; rename' z => z')
    | with_reducible apply State.count_can
    | with_reducible exact Can.with_ ‹_›

theorem State.showTrng_can (s : State) {Q : State} (h : Can Q s) : Can Q (State.showTrng s) := by
  unfold State.showTrng
  repeat' first
    | with_reducible assumption
    | (extract_lets +onlyGivenNames z; refine (fun (_ : Can Q z) => ?_) ?_; (on_goal 2 => (dsimp -zeta only [z]; clear z)); (on_goal 1 => rename' z => z'))
    | (extract_lets +onlyGivenNames z; rename' z => z')
    | with_reducible apply Can.ite
    | with_reducible apply State.sfW_can
    | with_reducible apply State.raise_can
    | with_reducible apply State.journalize_can
    | with_reducible apply State.keygensStarve_can

theorem State.sourceFail_can (s : State) (i : Nat) (rct : Bool) {Q : State} (h : Can Q s) : Can Q (State.sourceFail s i rct) := by
  unfold State.sourceFail
  repeat' first
    | with_reducible assumption
    | (extract_lets +onlyGivenNames z; refine (fun (_ : Can Q z) => ?_) ?_; (on_goal 2 => (dsimp -zeta only [z]; clear z)); (on_goal 1 => rename' z => z'))
    | (extract_lets +onlyGivenNames z; rename' z => z')
    | with_reducible apply Can.ite
    | with_reducible apply State.sfW_can
    | with_reducible apply State.inc_can
    | with_reducible apply State.raise_can
    | with_reducible apply State.countSeeds_can
    | with_reducible apply State.showTrng_can
    | with_reducible exact Can.with_ ‹_›

theorem State.sourceRetest_can (s : State) (i : Nat) (pass : Bool) {Q : State} (h : Can Q s) : Can Q (State.sourceRetest s i pass) := by
  unfold State.sourceRetest
  repeat' first
    | with_reducible assumption
    | (extract_lets +onlyGivenNames z; refine (fun (_ : Can Q z) => ?_) ?_; (on_goal 2 => (dsimp -zeta only [z]; clear z)); (on_goal 1 => rename' z => z'))
    | (extract_lets +onlyGivenNames z; rename' z => z')
    | with_reducible apply Can.ite
    | with_reducible apply State.sfW_can
    | with_reducible apply State.countSeeds_can
    | with_reducible apply State.showTrng_can
    | with_reducible exact Can.with_ ‹_›
    | split

theorem State.pkeFrozen_can (s : State) {Q : State} (h : Can Q s) : Can Q (State.pkeFrozen s) := by
  unfold State.pkeFrozen
  repeat' first
    | with_reducible assumption
    | with_reducible apply State.setBit_can

end Sys2Proof.Machine
end

