-- ==== Sys2Proof/Laws/CanonReceipts.lean ====
section
/-!
SUPPORT. The canonical form of the sparse storage through every operation of Machine/Receipts.lean.
-/

set_option Elab.async false

namespace Sys2Proof.Machine

theorem State.setRcp_can (s : State) (f : Rcp → Rcp) {Q : State} (h : Can Q s) : Can Q (State.setRcp s f) := by
  unfold State.setRcp
  repeat' first
    | with_reducible exact Can.with_ ‹_›

theorem State.wrBytes_can (s : State) (a n : Nat) (b : Bytes) {Q : State} (h : Can Q s) : Can Q (State.wrBytes s a n b) := by
  unfold State.wrBytes
  repeat' first
    | with_reducible assumption
    | intro _
    | with_reducible apply State.wr_can
    | with_reducible apply State.each_can

theorem State.showLt_can (s : State) {Q : State} (h : Can Q s) : Can Q (State.showLt s) := by
  unfold State.showLt
  repeat' first
    | with_reducible assumption
    | with_reducible apply State.setBit_can
    | with_reducible apply State.wrBytes_can
    | split

theorem State.showRcp_can (s : State) {Q : State} (h : Can Q s) : Can Q (State.showRcp s) := by
  unfold State.showRcp
  repeat' first
    | with_reducible assumption
    | (extract_lets +onlyGivenNames z; refine (fun (_ : Can Q z) => ?_) ?_; (on_goal 2 => (dsimp -zeta only [z]; clear z)); (on_goal 1 => rename' z => z'))
    | with_reducible apply State.sfW_can
    | with_reducible apply State.setBit_can

theorem State.showOnline_can (s : State) {Q : State} (h : Can Q s) : Can Q (State.showOnline s) := by
  unfold State.showOnline
  repeat' first
    | with_reducible assumption
    | (extract_lets +onlyGivenNames z; refine (fun (_ : Can Q z) => ?_) ?_; (on_goal 2 => (dsimp -zeta only [z]; clear z)); (on_goal 1 => rename' z => z'))
    | with_reducible apply State.wr_can
    | with_reducible apply State.wrBytes_can
    | with_reducible apply State.showRcp_can
    | split

theorem State.prepareKey_can (s : State) {Q : State} (h : Can Q s) : Can Q (State.prepareKey s) := by
  unfold State.prepareKey
  repeat' first
    | with_reducible assumption
    | (extract_lets +onlyGivenNames z; refine (fun (_ : Can Q z.2) => ?_) ?_; (on_goal 2 => (dsimp -zeta only [z]; clear z)); (on_goal 1 => rename' z => z'))
    | with_reducible apply Can.ite
    | with_reducible apply State.drawBytes_can
    | with_reducible apply State.denyEntropy_can
    | with_reducible apply State.setRcp_can

theorem State.nextOnlineId_can (s : State) {Q : State} (h : Can Q s) : Can Q (State.nextOnlineId s).2 := by
  unfold State.nextOnlineId
  repeat' first
    | with_reducible assumption
    | (extract_lets +onlyGivenNames z; refine (fun (_ : Can Q z.2) => ?_) ?_; (on_goal 2 => (dsimp -zeta only [z]; clear z)); (on_goal 1 => rename' z => z'))
    | with_reducible apply State.draw_can
    | split

theorem State.nextOnlineId_pair (s : State) {u : State} {x : _} (hq : (State.nextOnlineId s) = (x, u)) {Q : State} (h : Can Q s) : Can Q u := by
  have k := State.nextOnlineId_can s h
  rw [hq] at k
  exact k

theorem State.installKey_some (s : State) (mint : Nat) {u : State} (hq : State.installKey s mint = some u) {Q : State} (h : Can Q s) :
    Can Q u := by
  unfold State.installKey at hq
  split at hq
  · extract_lets i rot maxt deles k at hq
    injection hq with hq
    rw [← hq]
    exact State.showOnline_can _ (State.setRcp_can _ _ (State.nextOnlineId_can _ h))
  · cases hq

theorem State.firstKey_can (s : State) {Q : State} (h : Can Q s) : Can Q (State.firstKey s) := by
  unfold State.firstKey
  repeat' first
    | with_reducible assumption
    | (extract_lets +onlyGivenNames z; refine (fun (_ : Can Q z) => ?_) ?_; (on_goal 2 => (dsimp -zeta only [z]; clear z)); (on_goal 1 => rename' z => z'))
    | with_reducible apply Can.ite
    | with_reducible apply State.raise_can
    | with_reducible apply State.setRcp_can
    | with_reducible apply State.showLt_can
    | with_reducible apply State.showRcp_can
    | with_reducible apply State.prepareKey_can
    | (with_reducible refine State.installKey_some _ _ (by assumption) ?_)
    | split

theorem State.admitLeaf_can (s : State) (r : Request) (tree : Nat) {Q : State} (h : Can Q s) : Can Q (State.admitLeaf s r tree) := by
  unfold State.admitLeaf
  repeat' first
    | with_reducible assumption
    | (extract_lets +onlyGivenNames z; refine (fun (_ : Can Q z) => ?_) ?_; (on_goal 2 => (dsimp -zeta only [z]; clear z)); (on_goal 1 => rename' z => z'))
    | (extract_lets +onlyGivenNames z; rename' z => z')
    | with_reducible apply Can.ite
    | with_reducible apply State.inc_can
    | with_reducible apply State.setRcp_can
    | with_reducible apply State.showRcp_can

theorem State.etxelRequest_can (s : State) (p : Nat) {Q : State} (h : Can Q s) : Can Q (State.etxelRequest s p) := by
  unfold State.etxelRequest
  repeat' first
    | with_reducible assumption
    | (extract_lets +onlyGivenNames z; refine (fun (_ : Can Q z.1) => ?_) ?_; (on_goal 2 => (dsimp -zeta only [z]; clear z)); (on_goal 1 => rename' z => z'))
    | (extract_lets +onlyGivenNames z; rename' z => z')
    | with_reducible apply Can.ite
    | with_reducible apply State.inc_can
    | with_reducible apply State.sampleDrop_can
    | with_reducible apply State.charge_can
    | with_reducible apply State.kodOk_can
    | with_reducible apply State.sendFixed_can
    | (with_reducible refine State.popRequest_some _ _ _ (by assumption) ?_)
    | with_reducible apply State.admitLeaf_can
    | split

theorem State.roughtimeRequest_can (s : State) (p : Nat) {Q : State} (h : Can Q s) : Can Q (State.roughtimeRequest s p) := by
  unfold State.roughtimeRequest
  repeat' first
    | with_reducible assumption
    | (extract_lets +onlyGivenNames z; refine (fun (_ : Can Q z.1) => ?_) ?_; (on_goal 2 => (dsimp -zeta only [z]; clear z)); (on_goal 1 => rename' z => z'))
    | (extract_lets +onlyGivenNames z; rename' z => z')
    | with_reducible apply Can.ite
    | with_reducible apply State.inc_can
    | with_reducible apply State.sampleDrop_can
    | with_reducible apply State.sampleUnlisted_can
    | with_reducible apply State.charge_can
    | with_reducible apply State.kodOk_can
    | (with_reducible refine State.popRequest_some _ _ _ (by assumption) ?_)
    | with_reducible apply State.admitLeaf_can
    | split

theorem State.submitSeal_can (s : State) (number : Nat) (seed : Bytes) (x : TreeSig) {Q : State} (h : Can Q s) : Can Q (State.submitSeal s number seed x) := by
  unfold State.submitSeal
  repeat' first
    | with_reducible assumption
    | (extract_lets +onlyGivenNames z; rename' z => z')
    | with_reducible apply State.queueJob_can

theorem State.rotateAtClose_can (s : State) (tClose : Nat) {Q : State} (h : Can Q s) : Can Q (State.rotateAtClose s tClose) := by
  unfold State.rotateAtClose
  repeat' first
    | with_reducible assumption
    | (extract_lets +onlyGivenNames z; refine (fun (_ : Can Q z) => ?_) ?_; (on_goal 2 => (dsimp -zeta only [z]; clear z)); (on_goal 1 => rename' z => z'))
    | (extract_lets +onlyGivenNames z; rename' z => z')
    | with_reducible apply Can.ite
    | with_reducible apply State.inc_can
    | with_reducible apply State.raise_can
    | with_reducible apply State.journalKey_can
    | with_reducible apply State.setRcp_can
    | with_reducible apply State.prepareKey_can
    | (with_reducible refine State.installKey_some _ _ (by assumption) ?_)
    | split

theorem State.showWindow_can (s : State) {Q : State} (h : Can Q s) : Can Q (State.showWindow s) := by
  unfold State.showWindow
  repeat' first
    | with_reducible assumption
    | with_reducible apply State.wr64_can

theorem State.closeWindow_can (s : State) (close tClose : Nat) {Q : State} (h : Can Q s) : Can Q (State.closeWindow s close tClose) := by
  unfold State.closeWindow
  repeat' first
    | with_reducible assumption
    | intro _
    | (extract_lets +onlyGivenNames z; refine (fun (_ : Can Q z) => ?_) ?_; (on_goal 2 => (dsimp -zeta only [z]; clear z)); (on_goal 1 => rename' z => z'))
    | (extract_lets +onlyGivenNames z; rename' z => z')
    | with_reducible apply Can.ite
    | with_reducible apply State.each_can
    | with_reducible apply State.inc_can
    | with_reducible apply State.raise_can
    | with_reducible apply State.setRcp_can
    | with_reducible apply State.showRcp_can
    | with_reducible apply State.submitSeal_can
    | with_reducible apply State.rotateAtClose_can
    | with_reducible apply State.showWindow_can

theorem State.prepareAt_can (s : State) (nowNs : Nat) {Q : State} (h : Can Q s) : Can Q (State.prepareAt s nowNs) := by
  unfold State.prepareAt
  repeat' first
    | with_reducible assumption
    | with_reducible apply Can.ite
    | with_reducible apply State.prepareKey_can

theorem State.rcpRadius_can (s : State) {Q : State} (h : Can Q s) : Can Q (State.rcpRadius s) := by
  unfold State.rcpRadius
  repeat' first
    | with_reducible assumption
    | with_reducible apply State.setRcp_can

theorem State.sealSignature_can (s : State) (j : PkeJob) (status : Nat) (sig : Bytes) {Q : State} (h : Can Q s) : Can Q (State.sealSignature s j status sig) := by
  unfold State.sealSignature
  repeat' first
    | with_reducible assumption
    | with_reducible apply Can.ite
    | with_reducible apply State.setRcp_can
    | split

theorem State.queueRelease_can (s : State) (x : Release) {Q : State} (h : Can Q s) : Can Q (State.queueRelease s x) := by
  unfold State.queueRelease
  repeat' first
    | with_reducible assumption
    | with_reducible apply Can.ite
    | with_reducible apply State.inc_can
    | with_reducible apply State.raise_can
    | with_reducible apply State.sampleDrop_can
    | with_reducible apply State.setRcp_can

theorem State.logWindow_can (s : State) (w : ClosedWindow) (x : TreeSig) (sig : Bytes) (doneAt : Nat) {Q : State} (h : Can Q s) : Can Q (State.logWindow s w x sig doneAt) := by
  unfold State.logWindow
  repeat' first
    | with_reducible assumption
    | (extract_lets +onlyGivenNames z; refine (fun (_ : Can Q z.1) => ?_) ?_; (on_goal 2 => (dsimp -zeta only [z]; clear z)); (on_goal 1 => rename' z => z'))
    | (extract_lets +onlyGivenNames z; rename' z => z')
    | with_reducible apply Can.ite
    | with_reducible apply State.inc_can
    | with_reducible apply State.raise_can
    | with_reducible apply State.recordOrDrop_can

theorem State.sealDone_can (s : State) {Q : State} (h : Can Q s) : Can Q (State.sealDone s) := by
  unfold State.sealDone
  repeat' first
    | with_reducible assumption
    | intro _
    | (extract_lets +onlyGivenNames z; refine (fun (_ : Can Q z) => ?_) ?_; (on_goal 2 => (dsimp -zeta only [z]; clear z)); (on_goal 1 => rename' z => z'))
    | with_reducible apply State.each_can
    | with_reducible apply State.inc_can
    | with_reducible apply State.setRcp_can
    | with_reducible apply State.queueRelease_can
    | with_reducible apply State.logWindow_can
    | split

theorem State.sealTimeout_can (s : State) {Q : State} (h : Can Q s) : Can Q (State.sealTimeout s) := by
  unfold State.sealTimeout
  repeat' first
    | with_reducible assumption
    | intro _
    | (extract_lets +onlyGivenNames z; refine (fun (_ : Can Q z) => ?_) ?_; (on_goal 2 => (dsimp -zeta only [z]; clear z)); (on_goal 1 => rename' z => z'))
    | with_reducible apply State.each_can
    | with_reducible apply State.inc_can
    | with_reducible apply State.raise_can
    | with_reducible apply State.sampleUnlisted_can
    | with_reducible apply State.setQueuePke_can
    | with_reducible apply State.setRcp_can
    | with_reducible apply State.queueRelease_can
    | split

theorem State.receiptRelease_can (s : State) {Q : State} (h : Can Q s) : Can Q (State.receiptRelease s) := by
  unfold State.receiptRelease
  repeat' first
    | with_reducible assumption
    | (extract_lets +onlyGivenNames z; refine (fun (_ : Can Q z) => ?_) ?_; (on_goal 2 => (dsimp -zeta only [z]; clear z)); (on_goal 1 => rename' z => z'))
    | (extract_lets +onlyGivenNames z; rename' z => z')
    | with_reducible apply Can.ite
    | with_reducible apply State.inc_can
    | with_reducible apply State.sendFixed_can
    | with_reducible apply State.setRcp_can
    | split

theorem State.onlineExpire_can (s : State) {Q : State} (h : Can Q s) : Can Q (State.onlineExpire s) := by
  unfold State.onlineExpire
  repeat' first
    | with_reducible assumption
    | with_reducible apply Can.ite
    | with_reducible apply State.raise_can
    | with_reducible apply State.setRcp_can
    | with_reducible apply State.showOnline_can
    | split

theorem State.rotateNow_can (s : State) (src : Source) {Q : State} (h : Can Q s) : Can Q (State.rotateNow s src) := by
  unfold State.rotateNow
  repeat' first
    | with_reducible assumption
    | (extract_lets +onlyGivenNames z; refine (fun (_ : Can Q z) => ?_) ?_; (on_goal 2 => (dsimp -zeta only [z]; clear z)); (on_goal 1 => rename' z => z'))
    | with_reducible apply Can.ite
    | with_reducible apply State.setRcp_can
    | with_reducible apply State.prepareKey_can

theorem State.ltBound_can (s : State) {Q : State} (h : Can Q s) : Can Q (State.ltBound s) := by
  unfold State.ltBound
  repeat' first
    | with_reducible assumption
    | (extract_lets +onlyGivenNames z; refine (fun (_ : Can Q z) => ?_) ?_; (on_goal 2 => (dsimp -zeta only [z]; clear z)); (on_goal 1 => rename' z => z'))
    | with_reducible apply State.showSlot_can
    | with_reducible apply State.firstKey_can

theorem State.armWindow_can (s : State) (afterNs : Nat) {Q : State} (h : Can Q s) : Can Q (State.armWindow s afterNs) := by
  unfold State.armWindow
  repeat' first
    | with_reducible assumption
    | (extract_lets +onlyGivenNames z; rename' z => z')
    | with_reducible apply State.calOwn_can

theorem State.applyRcpCfg_can (s : State) (old : Nat → Word) (closeNs : Nat) {Q : State} (h : Can Q s) : Can Q (State.applyRcpCfg s old closeNs) := by
  unfold State.applyRcpCfg
  repeat' first
    | with_reducible assumption
    | (extract_lets +onlyGivenNames z; refine (fun (_ : Can Q z) => ?_) ?_; (on_goal 2 => (dsimp -zeta only [z]; clear z)); (on_goal 1 => rename' z => z'))
    | with_reducible apply Can.ite
    | with_reducible apply State.setRcp_can
    | with_reducible apply State.showOnline_can
    | with_reducible apply State.armWindow_can

theorem State.rcpParityFault_can (s : State) {Q : State} (h : Can Q s) : Can Q (State.rcpParityFault s) := by
  unfold State.rcpParityFault
  repeat' first
    | with_reducible assumption
    | with_reducible apply State.raise_can
    | with_reducible apply State.showRcp_can

end Sys2Proof.Machine
end

