-- ==== Sys2Proof/Laws/CanonTallies.lean ====
section
/-!
SUPPORT. The canonical form of the sparse storage through every operation of Machine/Tallies.lean.
-/

set_option Elab.async false

namespace Sys2Proof.Machine

theorem State.showBandwidth_can (s : State) (dur sl : Nat) {Q : State} (h : Can Q s) : Can Q (State.showBandwidth s dur sl) := by
  unfold State.showBandwidth
  repeat' first
    | with_reducible assumption
    | (extract_lets +onlyGivenNames z; rename' z => z')
    | with_reducible apply State.wr_can

theorem State.openWindow_can (s : State) (number atNs : Nat) {Q : State} (h : Can Q s) : Can Q (State.openWindow s number atNs) := by
  unfold State.openWindow
  repeat' first
    | with_reducible assumption
    | with_reducible apply State.setTal_can

theorem State.closeTally_can (s : State) (reset skipped : Bool) (atNs : Nat) {Q : State} (h : Can Q s) : Can Q (State.closeTally s reset skipped atNs) := by
  unfold State.closeTally
  repeat' first
    | with_reducible assumption
    | intro _
    | (extract_lets +onlyGivenNames z; refine (fun (_ : Can Q z) => ?_) ?_; (on_goal 2 => (dsimp -zeta only [z]; clear z)); (on_goal 1 => rename' z => z'))
    | (extract_lets +onlyGivenNames z; rename' z => z')
    | with_reducible apply State.wr_can
    | with_reducible apply State.sfW_can
    | with_reducible apply State.wr64_can
    | with_reducible apply State.each_can
    | with_reducible apply State.wrInstant_can
    | with_reducible apply State.inc_can
    | with_reducible apply State.raise_can
    | with_reducible apply State.setTal_can
    | with_reducible apply State.showBandwidth_can
    | with_reducible apply State.openWindow_can

theorem State.armTally_can (s : State) (afterNs : Nat) {Q : State} (h : Can Q s) : Can Q (State.armTally s afterNs) := by
  unfold State.armTally
  repeat' first
    | with_reducible assumption
    | with_reducible apply Can.ite
    | with_reducible apply State.calDrop_can
    | with_reducible apply State.calOwn_can

theorem State.showTal_can (s : State) {Q : State} (h : Can Q s) : Can Q (State.showTal s) := by
  unfold State.showTal
  repeat' first
    | with_reducible assumption
    | (extract_lets +onlyGivenNames z; refine (fun (_ : Can Q z) => ?_) ?_; (on_goal 2 => (dsimp -zeta only [z]; clear z)); (on_goal 1 => rename' z => z'))
    | with_reducible apply State.setBit_can
    | with_reducible apply State.showSampling_can

theorem State.talStepped_can (s : State) {Q : State} (h : Can Q s) : Can Q (State.talStepped s) := by
  unfold State.talStepped
  repeat' first
    | with_reducible assumption
    | with_reducible apply State.setTal_can

theorem State.talReset_can (s : State) (atNs : Nat) {Q : State} (h : Can Q s) : Can Q (State.talReset s atNs) := by
  unfold State.talReset
  repeat' first
    | with_reducible assumption
    | with_reducible apply Can.ite
    | with_reducible apply State.setTal_can
    | with_reducible apply State.closeTally_can

theorem State.talSnapshot_can (s : State) (atNs : Nat) {Q : State} (h : Can Q s) : Can Q (State.talSnapshot s atNs) := by
  unfold State.talSnapshot
  repeat' first
    | with_reducible assumption
    | (extract_lets +onlyGivenNames z; refine (fun (_ : Can Q z) => ?_) ?_; (on_goal 2 => (dsimp -zeta only [z]; clear z)); (on_goal 1 => rename' z => z'))
    | with_reducible apply State.sfW_can
    | with_reducible apply State.wrInstant_can
    | with_reducible apply State.raise_can
    | with_reducible apply State.setTal_can

theorem State.tallySelect_can (s : State) (v : Word) {Q : State} (h : Can Q s) : Can Q (State.tallySelect s v) := by
  unfold State.tallySelect
  repeat' first
    | with_reducible assumption
    | (extract_lets +onlyGivenNames z; refine (fun (_ : Can Q z) => ?_) ?_; (on_goal 2 => (dsimp -zeta only [z]; clear z)); (on_goal 1 => rename' z => z'))
    | (extract_lets +onlyGivenNames z; rename' z => z')
    | with_reducible apply State.wr_can
    | with_reducible apply State.wr64_can
    | split

theorem State.sampleSelect_can (s : State) (v : Word) {Q : State} (h : Can Q s) : Can Q (State.sampleSelect s v) := by
  unfold State.sampleSelect
  repeat' first
    | with_reducible assumption
    | intro _
    | (extract_lets +onlyGivenNames z; refine (fun (_ : Can Q z) => ?_) ?_; (on_goal 2 => (dsimp -zeta only [z]; clear z)); (on_goal 1 => rename' z => z'))
    | (extract_lets +onlyGivenNames z; rename' z => z')
    | with_reducible apply State.wr_can
    | with_reducible apply State.each_can

theorem State.applyTalCfg_can (s : State) (old : Nat → Word) (atNs : Nat) {Q : State} (h : Can Q s) : Can Q (State.applyTalCfg s old atNs) := by
  unfold State.applyTalCfg
  repeat' first
    | with_reducible assumption
    | (extract_lets +onlyGivenNames z; refine (fun (_ : Can Q z) => ?_) ?_; (on_goal 2 => (dsimp -zeta only [z]; clear z)); (on_goal 1 => rename' z => z'))
    | with_reducible apply Can.ite
    | with_reducible apply State.openWindow_can
    | with_reducible apply State.armTally_can
    | with_reducible apply State.showTal_can

theorem State.applyTalSample_can (s : State) {Q : State} (h : Can Q s) : Can Q (State.applyTalSample s) := by
  unfold State.applyTalSample
  repeat' first
    | with_reducible assumption
    | with_reducible apply State.setTal_can
    | with_reducible apply State.showTal_can

theorem State.talParityFault_can (s : State) (a : Nat) {Q : State} (h : Can Q s) : Can Q (State.talParityFault s a) := by
  unfold State.talParityFault
  repeat' first
    | with_reducible assumption
    | (extract_lets +onlyGivenNames z; refine (fun (_ : Can Q z) => ?_) ?_; (on_goal 2 => (dsimp -zeta only [z]; clear z)); (on_goal 1 => rename' z => z'))
    | with_reducible apply Can.ite
    | with_reducible apply State.raise_can
    | with_reducible apply State.armTally_can
    | with_reducible apply State.showTal_can

end Sys2Proof.Machine
end

