-- ==== Sys2Proof/Laws/CanonCasOps.lean ====
section
/-!
SUPPORT. The canonical form of the sparse storage through every operation of Machine/CasOps.lean.
-/

set_option Elab.async false

namespace Sys2Proof.Machine

theorem State.sendResult_can (s : State) (l type id op status : Nat) (r : OpResult) (requester tag : Nat) {Q : State} (h : Can Q s) : Can Q (State.sendResult s l type id op status r requester tag) := by
  unfold State.sendResult
  repeat' first
    | with_reducible assumption
    | with_reducible apply State.sendPeorel_can

theorem State.putResult_can (s : State) (id op status : Nat) (rest : List Word) {Q : State} (h : Can Q s) : Can Q (State.putResult s id op status rest) := by
  unfold State.putResult
  repeat' first
    | with_reducible assumption
    | (extract_lets +onlyGivenNames z; rename' z => z')
    | with_reducible apply State.wr_can
    | with_reducible apply State.setBit_can
    | with_reducible apply State.raise_can
    | with_reducible apply State.setCas_can

theorem State.latchResult_can (s : State) {Q : State} (h : Can Q s) : Can Q (State.latchResult s) := by
  unfold State.latchResult
  repeat' first
    | with_reducible assumption
    | intro _
    | with_reducible apply State.wr_can
    | with_reducible apply State.each_can

theorem State.doneHere_can (s : State) (id op status : Nat) (r : OpResult) (requester tag : Nat) {Q : State} (h : Can Q s) : Can Q (State.doneHere s id op status r requester tag) := by
  unfold State.doneHere
  repeat' first
    | with_reducible assumption
    | (extract_lets +onlyGivenNames z; refine (fun (_ : Can Q z) => ?_) ?_; (on_goal 2 => (dsimp -zeta only [z]; clear z)); (on_goal 1 => rename' z => z'))
    | (extract_lets +onlyGivenNames z; rename' z => z')
    | with_reducible apply Can.ite
    | with_reducible apply State.setBit_can
    | with_reducible apply State.setCas_can
    | with_reducible apply State.putResult_can

theorem State.floodDone_can (s : State) (id op status : Nat) (r : OpResult) (requester tag : Nat) {Q : State} (h : Can Q s) : Can Q (State.floodDone s id op status r requester tag) := by
  unfold State.floodDone
  repeat' first
    | with_reducible assumption
    | intro _
    | with_reducible apply State.each_can
    | with_reducible apply State.sendResult_can
    | with_reducible apply State.doneHere_can

theorem State.showOutstanding_can (s : State) {Q : State} (h : Can Q s) : Can Q (State.showOutstanding s) := by
  unfold State.showOutstanding
  repeat' first
    | with_reducible assumption
    | with_reducible apply State.sfW_can

theorem State.setOp_can (s : State) (id : Nat) (f : CasOp → CasOp) {Q : State} (h : Can Q s) : Can Q (State.setOp s id f) := by
  unfold State.setOp
  repeat' first
    | with_reducible assumption
    | with_reducible apply State.setCas_can

theorem State.reportOp_can (s : State) (o : CasOp) {Q : State} (h : Can Q s) : Can Q (State.reportOp s o) := by
  unfold State.reportOp
  repeat' first
    | with_reducible assumption
    | (extract_lets +onlyGivenNames z; refine (fun (_ : Can Q z) => ?_) ?_; (on_goal 2 => (dsimp -zeta only [z]; clear z)); (on_goal 1 => rename' z => z'))
    | (extract_lets +onlyGivenNames z; rename' z => z')
    | with_reducible apply Can.ite
    | with_reducible apply State.sendResult_can
    | with_reducible apply State.floodDone_can
    | with_reducible apply State.showOutstanding_can
    | with_reducible apply State.setOp_can
    | split

theorem State.reportIfReady_can (s : State) (id : Nat) {Q : State} (h : Can Q s) : Can Q (State.reportIfReady s id) := by
  unfold State.reportIfReady
  repeat' first
    | with_reducible assumption
    | with_reducible apply Can.ite
    | with_reducible apply State.reportOp_can
    | split

theorem State.holdOp_can (s : State) (o : CasOp) {Q : State} (h : Can Q s) : Can Q (State.holdOp s o) := by
  unfold State.holdOp
  repeat' first
    | with_reducible assumption
    | intro _
    | (extract_lets +onlyGivenNames z; refine (fun (_ : Can Q z) => ?_) ?_; (on_goal 2 => (dsimp -zeta only [z]; clear z)); (on_goal 1 => rename' z => z'))
    | (extract_lets +onlyGivenNames z; clear_value z; rename' z => z')
    | with_reducible apply State.each_can
    | with_reducible apply State.inc_can
    | with_reducible apply State.raise_can
    | with_reducible apply State.calNew_can
    | with_reducible apply State.setCas_can
    | with_reducible apply State.sendOp_can
    | with_reducible apply State.showOutstanding_can
    | with_reducible apply State.reportIfReady_can
    | split

theorem State.issueOp_can (s : State) (o : CasOp) {Q : State} (h : Can Q s) : Can Q (State.issueOp s o) := by
  unfold State.issueOp
  repeat' first
    | with_reducible assumption
    | (extract_lets +onlyGivenNames z; rename' z => z')
    | with_reducible apply Can.ite
    | with_reducible apply State.inc_can
    | with_reducible apply State.setCas_can
    | with_reducible apply State.floodDone_can
    | with_reducible apply State.holdOp_can

theorem State.requestOp_can (s : State) (o : CasOp) {Q : State} (h : Can Q s) : Can Q (State.requestOp s o) := by
  unfold State.requestOp
  repeat' first
    | with_reducible assumption
    | with_reducible apply Can.ite
    | with_reducible apply State.sendOp_can
    | with_reducible apply State.issueOp_can
    | split

theorem State.applyCasOp_can (s : State) {Q : State} (h : Can Q s) : Can Q (State.applyCasOp s) := by
  unfold State.applyCasOp
  repeat' first
    | with_reducible assumption
    | (extract_lets +onlyGivenNames z; refine (fun (_ : Can Q z) => ?_) ?_; (on_goal 2 => (dsimp -zeta only [z]; clear z)); (on_goal 1 => rename' z => z'))
    | (extract_lets +onlyGivenNames z; rename' z => z')
    | with_reducible apply Can.ite
    | with_reducible apply State.setBit_can
    | with_reducible apply State.setCas_can
    | with_reducible apply State.casFrozen_can
    | with_reducible apply State.requestOp_can

theorem State.opReqRx_can (s : State) (l : Nat) (frame : Bytes) {Q : State} (h : Can Q s) : Can Q (State.opReqRx s l frame) := by
  unfold State.opReqRx
  repeat' first
    | with_reducible assumption
    | with_reducible apply Can.ite
    | with_reducible apply State.requestOp_can
    | (with_reducible refine State.laneIntake_pair _ _ _ (by assumption) ?_)
    | split

theorem State.opRx_can (s : State) (l : Nat) (frame : Bytes) {Q : State} (h : Can Q s) : Can Q (State.opRx s l frame) := by
  unfold State.opRx
  repeat' first
    | with_reducible assumption
    | (extract_lets +onlyGivenNames z; rename' z => z')
    | with_reducible apply Can.ite
    | with_reducible apply State.setCas_can
    | with_reducible apply State.holdOp_can
    | (with_reducible refine State.laneIntake_pair _ _ _ (by assumption) ?_)
    | split

theorem State.resultRx_can (s : State) (l : Nat) (frame : Bytes) {Q : State} (h : Can Q s) : Can Q (State.resultRx s l frame) := by
  unfold State.resultRx
  repeat' first
    | with_reducible assumption
    | (extract_lets +onlyGivenNames z; rename' z => z')
    | with_reducible apply Can.ite
    | with_reducible apply State.setOp_can
    | with_reducible apply State.reportIfReady_can
    | (with_reducible refine State.laneIntake_pair _ _ _ (by assumption) ?_)
    | split

theorem State.doneRx_can (s : State) (l : Nat) (frame : Bytes) {Q : State} (h : Can Q s) : Can Q (State.doneRx s l frame) := by
  unfold State.doneRx
  repeat' first
    | with_reducible assumption
    | with_reducible apply Can.ite
    | with_reducible apply State.floodDone_can
    | (with_reducible refine State.laneIntake_pair _ _ _ (by assumption) ?_)
    | split

theorem State.resultDeadline_can (s : State) {Q : State} (h : Can Q s) : Can Q (State.resultDeadline s) := by
  unfold State.resultDeadline
  repeat' first
    | with_reducible assumption
    | intro _
    | with_reducible apply State.each_can
    | with_reducible apply State.reportOp_can

theorem State.requestTimeout_can (s : State) {Q : State} (h : Can Q s) : Can Q (State.requestTimeout s) := by
  unfold State.requestTimeout
  repeat' first
    | with_reducible assumption
    | (extract_lets +onlyGivenNames z; refine (fun (_ : Can Q z.2) => ?_) ?_; (on_goal 2 => (dsimp -zeta only [z]; clear z)); (on_goal 1 => rename' z => z'))
    | (extract_lets +onlyGivenNames z; rename' z => z')
    | with_reducible apply Can.ite
    | with_reducible apply State.drawBytes_can
    | with_reducible apply State.putResult_can
    | split

theorem State.execOp_can (s : State) (op : Nat) (value : State → Int) (act : CasOp → Nat → State → State) {Q : State} (h : Can Q s) (hact : ∀ x0 x1 t, Can Q t → Can Q (act x0 x1 t)) : Can Q (State.execOp s op value act) := by
  unfold State.execOp
  repeat' first
    | with_reducible assumption
    | (extract_lets +onlyGivenNames z; refine (fun (_ : Can Q z) => ?_) ?_; (on_goal 2 => (dsimp -zeta only [z]; clear z)); (on_goal 1 => rename' z => z'))
    | (extract_lets +onlyGivenNames z; rename' z => z')
    | with_reducible apply hact
    | with_reducible apply Can.ite
    | with_reducible apply State.inc_can
    | with_reducible apply State.raise_can
    | with_reducible apply State.fireEntry_can
    | with_reducible apply State.setOp_can
    | with_reducible apply State.reportIfReady_can
    | split

theorem State.barrier_can (s : State) {Q : State} (h : Can Q s) : Can Q (State.barrier s) := by
  unfold State.barrier
  repeat' first
    | with_reducible assumption
    | intro _
    | with_reducible apply State.raise_can
    | with_reducible apply State.execOp_can

theorem State.broadcast_can (s : State) {Q : State} (h : Can Q s) : Can Q (State.broadcast s) := by
  unfold State.broadcast
  repeat' first
    | with_reducible assumption
    | intro _
    | (extract_lets +onlyGivenNames z; refine (fun (_ : Can Q z) => ?_) ?_; (on_goal 2 => (dsimp -zeta only [z]; clear z)); (on_goal 1 => rename' z => z'))
    | with_reducible apply State.wr_can
    | with_reducible apply State.each_can
    | with_reducible apply State.raise_can
    | with_reducible apply State.execOp_can

theorem State.casSnapshot_can (s : State) {Q : State} (h : Can Q s) : Can Q (State.casSnapshot s) := by
  unfold State.casSnapshot
  repeat' first
    | with_reducible assumption
    | intro _
    | with_reducible apply State.raise_can
    | with_reducible apply State.snapshot_can
    | with_reducible apply State.talSnapshot_can
    | with_reducible apply State.execOp_can

theorem State.clearCounters_can (s : State) {Q : State} (h : Can Q s) : Can Q (State.clearCounters s) := by
  unfold State.clearCounters
  repeat' first
    | with_reducible assumption
    | intro _
    | (extract_lets +onlyGivenNames z; refine (fun (_ : Can Q z) => ?_) ?_; (on_goal 2 => (dsimp -zeta only [z]; clear z)); (on_goal 1 => rename' z => z'))
    | (extract_lets +onlyGivenNames z; rename' z => z')
    | with_reducible apply Can.ite
    | with_reducible apply State.wr_can
    | with_reducible apply State.each_can
    | with_reducible exact Can.with_ ‹_›

theorem State.rcpServiceReset_can (s : State) (atNs : Nat) {Q : State} (h : Can Q s) : Can Q (State.rcpServiceReset s atNs) := by
  unfold State.rcpServiceReset
  repeat' first
    | with_reducible assumption
    | (extract_lets +onlyGivenNames z; refine (fun (_ : Can Q z) => ?_) ?_; (on_goal 2 => (dsimp -zeta only [z]; clear z)); (on_goal 1 => rename' z => z'))
    | with_reducible apply Can.ite
    | with_reducible apply State.setRcp_can
    | with_reducible apply State.showWindow_can
    | with_reducible apply State.closeWindow_can

theorem State.serviceResetNow_can (s : State) (atNs : Nat) {Q : State} (h : Can Q s) : Can Q (State.serviceResetNow s atNs) := by
  unfold State.serviceResetNow
  repeat' first
    | with_reducible assumption
    | (extract_lets +onlyGivenNames z; refine (fun (_ : Can Q z) => ?_) ?_; (on_goal 2 => (dsimp -zeta only [z]; clear z)); (on_goal 1 => rename' z => z'))
    | (extract_lets +onlyGivenNames z; rename' z => z')
    | with_reducible apply State.emptyTable_can
    | with_reducible apply State.talReset_can
    | with_reducible apply State.clearCounters_can
    | with_reducible apply State.rcpServiceReset_can
    | with_reducible exact Can.with_ ‹_›

theorem State.serviceReset_can (s : State) {Q : State} (h : Can Q s) : Can Q (State.serviceReset s) := by
  unfold State.serviceReset
  repeat' first
    | with_reducible assumption
    | intro _
    | with_reducible apply State.raise_can
    | with_reducible apply State.execOp_can
    | with_reducible apply State.serviceResetNow_can

end Sys2Proof.Machine
end

