-- ==== Sys2Proof/Laws/CanonHif.lean ====
section
/-!
SUPPORT. The canonical form of the sparse storage through every operation of Machine/Hif.lean.
-/

set_option Elab.async false

namespace Sys2Proof.Machine

theorem State.triggerRead_can (s : State) {Q : State} (h : Can Q s) : Can Q (State.triggerRead s) := by
  unfold State.triggerRead
  repeat' first
    | with_reducible assumption
    | (extract_lets +onlyGivenNames z; rename' z => z')
    | with_reducible apply Can.ite
    | with_reducible apply State.inc_can
    | with_reducible apply State.emit_can
    | with_reducible exact Can.with_ ‹_›

theorem State.dbPoll_can (s : State) {Q : State} (h : Can Q s) : Can Q (State.dbPoll s) := by
  unfold State.dbPoll
  repeat' first
    | with_reducible assumption
    | intro _
    | with_reducible apply State.fireDue_can
    | with_reducible apply State.triggerRead_can

theorem State.armPoll_can (s : State) {Q : State} (h : Can Q s) : Can Q (State.armPoll s) := by
  unfold State.armPoll
  repeat' first
    | with_reducible assumption
    | with_reducible apply State.calOwn_can

theorem State.kick_can (s : State) {Q : State} (h : Can Q s) : Can Q (State.kick s) := by
  unfold State.kick
  repeat' first
    | with_reducible assumption
    | with_reducible apply State.inc_can
    | with_reducible apply State.triggerRead_can

theorem State.fetchDesc_can (s : State) (n : Nat) (x : FetchedDesc) {Q : State} (h : Can Q s) : Can Q (State.fetchDesc s n x) := by
  unfold State.fetchDesc
  repeat' first
    | with_reducible assumption
    | (extract_lets +onlyGivenNames z; refine (fun (_ : Can Q z) => ?_) ?_; (on_goal 2 => (dsimp -zeta only [z]; clear z)); (on_goal 1 => rename' z => z'))
    | (extract_lets +onlyGivenNames z; rename' z => z')
    | with_reducible apply Can.ite
    | with_reducible apply State.wr_can
    | with_reducible apply State.setRing_can
    | with_reducible apply State.settleBad_can
    | with_reducible apply State.endJob_can
    | with_reducible apply State.fetchJob_can
    | (with_reducible refine State.startWork_pair _ _ (by assumption) ?_)
    | split

theorem State.fetchAll_can (s : State) (n : Nat) (failed : Bool) (l : List FetchedDesc) {Q : State} (h : Can Q s) :
    Can Q (State.fetchAll s n failed l) := by
  induction l generalizing s with
  | nil =>
    unfold State.fetchAll
    exact Can.ite (State.ringError_can _ _ _ h) h
  | cons x l ih =>
    unfold State.fetchAll
    exact Can.ite (ih _ (State.fetchDesc_can _ _ _ h)) h

theorem State.doorbellWord_can (s : State) (w : DoorbellWord) {Q : State} (h : Can Q s) : Can Q (State.doorbellWord s w) := by
  unfold State.doorbellWord
  repeat' first
    | with_reducible assumption
    | (extract_lets +onlyGivenNames z; refine (fun (_ : Can Q z) => ?_) ?_; (on_goal 2 => (dsimp -zeta only [z]; clear z)); (on_goal 1 => rename' z => z'))
    | (extract_lets +onlyGivenNames z; rename' z => z')
    | with_reducible apply Can.ite
    | with_reducible apply State.setRing_can
    | with_reducible apply State.pumpJournal_can
    | with_reducible apply State.showRing_can
    | with_reducible apply State.ringError_can
    | with_reducible apply State.drainRing_can
    | with_reducible apply State.fetchAll_can

theorem State.doorbellDone_can (s : State) (words : Option (List DoorbellWord)) {Q : State} (h : Can Q s) : Can Q (State.doorbellDone s words) := by
  unfold State.doorbellDone
  repeat' first
    | with_reducible assumption
    | intro _
    | (extract_lets +onlyGivenNames z; refine (fun (_ : Can Q z) => ?_) ?_; (on_goal 2 => (dsimp -zeta only [z]; clear z)); (on_goal 1 => rename' z => z'))
    | (extract_lets +onlyGivenNames z; rename' z => z')
    | with_reducible apply Can.ite
    | with_reducible apply State.setBit_can
    | with_reducible apply State.when_can
    | with_reducible apply State.each_can
    | with_reducible apply State.inc_can
    | with_reducible apply State.raise_can
    | with_reducible apply State.triggerRead_can
    | with_reducible apply State.doorbellWord_can
    | with_reducible exact Can.with_ ‹_›
    | split

theorem State.hostFrame_can (s : State) (n : Nat) (data : Option Bytes) {Q : State} (h : Can Q s) : Can Q (State.hostFrame s n data) := by
  unfold State.hostFrame
  repeat' first
    | with_reducible assumption
    | (extract_lets +onlyGivenNames z; rename' z => z')
    | with_reducible apply Can.ite
    | with_reducible apply State.inc_can
    | with_reducible apply State.endWork_can
    | with_reducible apply State.queuePre_can
    | (with_reducible refine State.startWork_pair _ _ (by assumption) ?_)
    | split

theorem State.dropQueued_can (s : State) (sl status : Nat) (p : Nat × Nat × Nat → Bool) {Q : State} (h : Can Q s) : Can Q (State.dropQueued s sl status p) := by
  unfold State.dropQueued
  repeat' first
    | with_reducible assumption
    | intro _
    | (extract_lets +onlyGivenNames z; refine (fun (_ : Can Q z) => ?_) ?_; (on_goal 2 => (dsimp -zeta only [z]; clear z)); (on_goal 1 => rename' z => z'))
    | (extract_lets +onlyGivenNames z; rename' z => z')
    | with_reducible apply State.each_can
    | with_reducible apply State.endWork_can
    | with_reducible apply State.setLink_can
    | split

theorem State.expireWaiting_can (s : State) (n : Nat) {Q : State} (h : Can Q s) : Can Q (State.expireWaiting s n) := by
  unfold State.expireWaiting
  repeat' first
    | with_reducible assumption
    | (extract_lets +onlyGivenNames z; rename' z => z')
    | with_reducible apply Can.ite
    | with_reducible apply State.setRing_can
    | with_reducible apply State.settleBad_can
    | with_reducible apply State.drainRing_can

theorem State.hostFrameTimeout_can (s : State) {Q : State} (h : Can Q s) : Can Q (State.hostFrameTimeout s) := by
  unfold State.hostFrameTimeout
  repeat' first
    | with_reducible assumption
    | intro _
    | (extract_lets +onlyGivenNames z; refine (fun (_ : Can Q z) => ?_) ?_; (on_goal 2 => (dsimp -zeta only [z]; clear z)); (on_goal 1 => rename' z => z'))
    | with_reducible apply State.each_can
    | with_reducible apply State.dropQueued_can
    | with_reducible apply State.expireWaiting_can

theorem State.recordFlush_can (s : State) (n : Nat) {Q : State} (h : Can Q s) : Can Q (State.recordFlush s n) := by
  unfold State.recordFlush
  repeat' first
    | with_reducible assumption
    | with_reducible apply Can.ite
    | with_reducible apply State.flushBuffer_can
    | with_reducible apply State.showRing_can

theorem State.vectorTimer_can (s : State) (v : Nat) {Q : State} (h : Can Q s) : Can Q (State.vectorTimer s v) := by
  unfold State.vectorTimer
  repeat' first
    | with_reducible assumption
    | (extract_lets +onlyGivenNames z; rename' z => z')
    | with_reducible apply Can.ite
    | with_reducible apply State.sendVec_can

theorem State.coalesceEnd_can (s : State) {Q : State} (h : Can Q s) : Can Q (State.coalesceEnd s) := by
  unfold State.coalesceEnd
  repeat' first
    | with_reducible assumption
    | intro _
    | (extract_lets +onlyGivenNames z; refine (fun (_ : Can Q z) => ?_) ?_; (on_goal 2 => (dsimp -zeta only [z]; clear z)); (on_goal 1 => rename' z => z'))
    | (extract_lets +onlyGivenNames z; rename' z => z')
    | with_reducible apply State.each_can
    | with_reducible apply State.blockEvent_can
    | with_reducible exact Can.with_ ‹_›

theorem State.quiesceRing_can (s : State) (n : Nat) {Q : State} (h : Can Q s) : Can Q (State.quiesceRing s n) := by
  unfold State.quiesceRing
  repeat' first
    | with_reducible assumption
    | intro _
    | (extract_lets +onlyGivenNames z; refine (fun (_ : Can Q z) => ?_) ?_; (on_goal 2 => (dsimp -zeta only [z]; clear z)); (on_goal 1 => rename' z => z'))
    | (extract_lets +onlyGivenNames z; rename' z => z')
    | with_reducible apply Can.ite
    | with_reducible apply State.each_can
    | with_reducible apply State.quiesce_can
    | with_reducible apply State.setQueuePke_can
    | with_reducible apply State.stopJob_can
    | with_reducible apply State.dropQueued_can

theorem State.stopRing_can (s : State) (n : Nat) {Q : State} (h : Can Q s) : Can Q (State.stopRing s n) := by
  unfold State.stopRing
  repeat' first
    | with_reducible assumption
    | intro _
    | (extract_lets +onlyGivenNames z; refine (fun (_ : Can Q z) => ?_) ?_; (on_goal 2 => (dsimp -zeta only [z]; clear z)); (on_goal 1 => rename' z => z'))
    | with_reducible apply State.each_can
    | with_reducible apply State.ringOff_can
    | with_reducible apply State.setLink_can
    | with_reducible apply State.abortJobs_can

theorem State.ringQuiesced_can (s : State) (n : Nat) {Q : State} (h : Can Q s) : Can Q (State.ringQuiesced s n) := by
  unfold State.ringQuiesced
  repeat' first
    | with_reducible assumption
    | with_reducible apply State.ringIdle_can

theorem State.applyRing_can (s : State) (n : Nat) (was : Bool) {Q : State} (h : Can Q s) : Can Q (State.applyRing s n was) := by
  unfold State.applyRing
  repeat' first
    | with_reducible assumption
    | (extract_lets +onlyGivenNames z; rename' z => z')
    | with_reducible apply Can.ite
    | with_reducible apply State.ringStart_can
    | with_reducible apply State.quiesceRing_can
    | with_reducible apply State.stopRing_can

theorem State.applyHifRing_can (s : State) (old : Nat → Word) {Q : State} (h : Can Q s) : Can Q (State.applyHifRing s old) := by
  unfold State.applyHifRing
  repeat' first
    | with_reducible assumption
    | intro _
    | with_reducible apply State.each_can
    | with_reducible apply State.applyRing_can

theorem State.hifFrozen_can (s : State) {Q : State} (h : Can Q s) : Can Q (State.hifFrozen s) := by
  unfold State.hifFrozen
  repeat' first
    | with_reducible assumption
    | with_reducible apply State.setBit_can

theorem State.applyHifCfg_can (s : State) (old : Nat → Word) {Q : State} (h : Can Q s) : Can Q (State.applyHifCfg s old) := by
  unfold State.applyHifCfg
  repeat' first
    | with_reducible assumption
    | (extract_lets +onlyGivenNames z; refine (fun (_ : Can Q z) => ?_) ?_; (on_goal 2 => (dsimp -zeta only [z]; clear z)); (on_goal 1 => rename' z => z'))
    | with_reducible apply Can.ite
    | with_reducible apply State.armPoll_can
    | with_reducible apply State.hifFrozen_can

theorem State.hifParityFault_can (s : State) (a : Nat) {Q : State} (h : Can Q s) : Can Q (State.hifParityFault s a) := by
  unfold State.hifParityFault
  repeat' first
    | with_reducible assumption
    | intro _
    | (extract_lets +onlyGivenNames z; refine (fun (_ : Can Q z) => ?_) ?_; (on_goal 2 => (dsimp -zeta only [z]; clear z)); (on_goal 1 => rename' z => z'))
    | with_reducible apply Can.ite
    | with_reducible apply State.each_can
    | with_reducible apply State.raise_can
    | with_reducible apply State.ringError_can
    | with_reducible apply State.armPoll_can
    | with_reducible apply State.hifFrozen_can

theorem State.pcieUp_can (s : State) (speed width : Nat) {Q : State} (h : Can Q s) : Can Q (State.pcieUp s speed width) := by
  unfold State.pcieUp
  repeat' first
    | with_reducible assumption
    | (extract_lets +onlyGivenNames z; refine (fun (_ : Can Q z) => ?_) ?_; (on_goal 2 => (dsimp -zeta only [z]; clear z)); (on_goal 1 => rename' z => z'))
    | (extract_lets +onlyGivenNames z; rename' z => z')
    | with_reducible apply State.sfW_can
    | with_reducible apply State.setBit_can
    | with_reducible apply State.emit_can
    | with_reducible apply State.raise_can
    | with_reducible exact Can.with_ ‹_›

theorem State.startTraining_can (s : State) {Q : State} (h : Can Q s) : Can Q (State.startTraining s) := by
  unfold State.startTraining
  repeat' first
    | (extract_lets +onlyGivenNames z; rename' z => z')
    | with_reducible apply State.emit_can
    | with_reducible exact Can.with_ ‹_›

theorem State.pcieRetrain_can (s : State) {Q : State} (h : Can Q s) : Can Q (State.pcieRetrain s) := by
  unfold State.pcieRetrain
  repeat' first
    | with_reducible assumption
    | with_reducible apply Can.ite
    | with_reducible apply State.startTraining_can
    | split

end Sys2Proof.Machine
end

