-- ==== Sys2Proof/Laws/CanonGnss.lean ====
section
/-!
SUPPORT. The canonical form of the sparse storage through every operation of Machine/Gnss.lean.
-/

set_option Elab.async false

namespace Sys2Proof.Machine

theorem State.setSide_can (s : State) (a : Nat) (f : GnssSide → GnssSide) {Q : State} (h : Can Q s) : Can Q (State.setSide s a f) := by
  unfold State.setSide
  repeat' first
    | (extract_lets +onlyGivenNames z; rename' z => z')
    | with_reducible exact Can.with_ ‹_›

theorem State.setLoop_can (s : State) (a c : Nat) (l : ChanLoop) {Q : State} (h : Can Q s) : Can Q (State.setLoop s a c l) := by
  unfold State.setLoop
  repeat' first
    | with_reducible assumption
    | with_reducible apply State.setSide_can

theorem State.freeChan_can (s : State) (a c : Nat) {Q : State} (h : Can Q s) : Can Q (State.freeChan s a c) := by
  unfold State.freeChan
  repeat' first
    | with_reducible assumption
    | with_reducible apply State.wr_can
    | with_reducible apply State.setLoop_can

theorem State.freeChans_can (s : State) (a : Nat) {Q : State} (h : Can Q s) : Can Q (State.freeChans s a) := by
  unfold State.freeChans
  repeat' first
    | with_reducible assumption
    | intro _
    | with_reducible apply State.each_can
    | with_reducible apply State.freeChan_can

theorem State.fenceBlock_can (s : State) (b : Nat) (on : Bool) {Q : State} (h : Can Q s) : Can Q (State.fenceBlock s b on) := by
  unfold State.fenceBlock
  repeat' first
    | with_reducible assumption
    | intro _
    | (extract_lets +onlyGivenNames z; refine (fun (_ : Can Q z) => ?_) ?_; (on_goal 2 => (dsimp -zeta only [z]; clear z)); (on_goal 1 => rename' z => z'))
    | (extract_lets +onlyGivenNames z; rename' z => z')
    | with_reducible apply State.sfW_can
    | with_reducible apply State.setBit_can
    | with_reducible apply State.when_can
    | with_reducible apply State.each_can
    | with_reducible apply State.raise_can
    | with_reducible apply State.freeChan_can

theorem State.takeChan_can (s : State) (a : Nat) (o : SkyObs) {Q : State} (h : Can Q s) : Can Q (State.takeChan s a o) := by
  unfold State.takeChan
  repeat' first
    | with_reducible assumption
    | with_reducible apply State.wr_can
    | with_reducible apply State.freeChan_can
    | split

theorem State.allocate_can (s : State) (a : Nat) (sky : List SkyObs) {Q : State} (h : Can Q s) : Can Q (State.allocate s a sky) := by
  unfold State.allocate
  repeat' first
    | with_reducible assumption
    | intro _
    | (extract_lets +onlyGivenNames z; refine (fun (_ : Can Q z) => ?_) ?_; (on_goal 2 => (dsimp -zeta only [z]; clear z)); (on_goal 1 => rename' z => z'))
    | (extract_lets +onlyGivenNames z; rename' z => z')
    | with_reducible apply Can.ite
    | with_reducible apply State.each_can
    | with_reducible apply State.freeChan_can
    | with_reducible apply State.takeChan_can

theorem State.signalAcquired_can (s : State) (a c cn0 st : Nat) {Q : State} (h : Can Q s) : Can Q (State.signalAcquired s a c cn0 st) := by
  unfold State.signalAcquired
  repeat' first
    | with_reducible assumption
    | (extract_lets +onlyGivenNames z; rename' z => z')
    | with_reducible apply Can.ite
    | with_reducible apply State.sfW_can
    | with_reducible apply State.setLoop_can

theorem State.lossOfLock_can (s : State) (a c : Nat) {Q : State} (h : Can Q s) : Can Q (State.lossOfLock s a c) := by
  unfold State.lossOfLock
  repeat' first
    | with_reducible assumption
    | (extract_lets +onlyGivenNames z; rename' z => z')
    | with_reducible apply Can.ite
    | with_reducible apply State.sfW_can
    | with_reducible apply State.setLoop_can
    | split

theorem State.biasOn_can (s : State) (a : Nat) (on : Bool) {Q : State} (h : Can Q s) : Can Q (State.biasOn s a on) := by
  unfold State.biasOn
  repeat' first
    | with_reducible assumption
    | with_reducible apply State.wr_can
    | with_reducible apply State.setSide_can

theorem State.startSide_can (s : State) (a : Nat) {Q : State} (h : Can Q s) : Can Q (State.startSide s a) := by
  unfold State.startSide
  repeat' first
    | with_reducible assumption
    | (extract_lets +onlyGivenNames z; refine (fun (_ : Can Q z) => ?_) ?_; (on_goal 2 => (dsimp -zeta only [z]; clear z)); (on_goal 1 => rename' z => z'))
    | (extract_lets +onlyGivenNames z; rename' z => z')
    | with_reducible apply State.sfW_can
    | with_reducible apply State.setBit_can
    | with_reducible apply State.setSide_can
    | with_reducible apply State.freeChans_can
    | with_reducible apply State.biasOn_can

theorem State.surveyRecord_can (s : State) (a : Nat) (v : Survey) (phase status progress : Nat) {Q : State} (h : Can Q s) : Can Q (State.surveyRecord s a v phase status progress) := by
  unfold State.surveyRecord
  repeat' first
    | with_reducible assumption
    | intro _
    | with_reducible apply State.when_can
    | with_reducible apply State.hostWrite_can
    | with_reducible apply State.progressRecord_can

theorem State.endSurvey_can (s : State) (a status : Nat) {Q : State} (h : Can Q s) : Can Q (State.endSurvey s a status) := by
  unfold State.endSurvey
  repeat' first
    | with_reducible assumption
    | (extract_lets +onlyGivenNames z; refine (fun (_ : Can Q z) => ?_) ?_; (on_goal 2 => (dsimp -zeta only [z]; clear z)); (on_goal 1 => rename' z => z'))
    | with_reducible apply State.sfW_can
    | with_reducible apply State.raise_can
    | with_reducible apply State.setSide_can
    | with_reducible apply State.surveyRecord_can
    | split

theorem State.haltSide_can (s : State) (a : Nat) {Q : State} (h : Can Q s) : Can Q (State.haltSide s a) := by
  unfold State.haltSide
  repeat' first
    | with_reducible assumption
    | with_reducible apply State.setBit_can
    | with_reducible apply State.freeChans_can
    | with_reducible apply State.biasOn_can

theorem State.stopSide_can (s : State) (a : Nat) {Q : State} (h : Can Q s) : Can Q (State.stopSide s a) := by
  unfold State.stopSide
  repeat' first
    | with_reducible assumption
    | with_reducible apply State.endSurvey_can
    | with_reducible apply State.haltSide_can

theorem State.gnssReport_can (s : State) {Q : State} (h : Can Q s) : Can Q (State.gnssReport s) := by
  unfold State.gnssReport
  repeat' first
    | with_reducible assumption
    | intro _
    | (extract_lets +onlyGivenNames z; refine (fun (_ : Can Q z) => ?_) ?_; (on_goal 2 => (dsimp -zeta only [z]; clear z)); (on_goal 1 => rename' z => z'))
    | (extract_lets +onlyGivenNames z; rename' z => z')
    | with_reducible apply Can.ite
    | with_reducible apply State.sfW_can
    | with_reducible apply State.each_can
    | with_reducible apply State.raise_can
    | with_reducible apply State.setRef_can
    | with_reducible apply State.setSide_can

theorem State.exclude_can (s : State) (a : Nat) (const : Bool) (key check : Nat) {Q : State} (h : Can Q s) : Can Q (State.exclude s a const key check) := by
  unfold State.exclude
  repeat' first
    | with_reducible assumption
    | (extract_lets +onlyGivenNames z; rename' z => z')
    | with_reducible apply Can.ite
    | with_reducible apply State.inc_can
    | with_reducible apply State.raise_can
    | with_reducible apply State.setSide_can

theorem State.snapQualify_can (s : State) (kind : Nat) {Q : State} (h : Can Q s) : Can Q (State.snapQualify s kind) := by
  unfold State.snapQualify
  repeat' first
    | with_reducible assumption
    | (extract_lets +onlyGivenNames z; rename' z => z')
    | with_reducible apply Can.ite
    | with_reducible exact Can.with_ ‹_›

theorem State.alarm_can (s : State) (a check : Nat) {Q : State} (h : Can Q s) : Can Q (State.alarm s a check) := by
  unfold State.alarm
  repeat' first
    | with_reducible assumption
    | intro _
    | (extract_lets +onlyGivenNames z; refine (fun (_ : Can Q z) => ?_) ?_; (on_goal 2 => (dsimp -zeta only [z]; clear z)); (on_goal 1 => rename' z => z'))
    | with_reducible apply Can.ite
    | with_reducible apply State.setBit_can
    | with_reducible apply State.when_can
    | with_reducible apply State.inc_can
    | with_reducible apply State.raise_can
    | with_reducible apply State.setRef_can
    | with_reducible apply State.setSide_can
    | with_reducible apply State.snapQualify_can

theorem State.tripped_can (s : State) (a check persist : Nat) (trip : Bool) {Q : State} (h : Can Q s) : Can Q (State.tripped s a check persist trip) := by
  unfold State.tripped
  repeat' first
    | with_reducible assumption
    | intro _
    | (extract_lets +onlyGivenNames z; refine (fun (_ : Can Q z) => ?_) ?_; (on_goal 2 => (dsimp -zeta only [z]; clear z)); (on_goal 1 => rename' z => z'))
    | (extract_lets +onlyGivenNames z; rename' z => z')
    | with_reducible apply Can.ite
    | with_reducible apply State.when_can
    | with_reducible apply State.setSide_can
    | with_reducible apply State.alarm_can

theorem State.svTripped_can (s : State) (a check persist : Nat) (keys : List Nat) {Q : State} (h : Can Q s) : Can Q (State.svTripped s a check persist keys) := by
  unfold State.svTripped
  repeat' first
    | with_reducible assumption
    | intro _
    | (extract_lets +onlyGivenNames z; refine (fun (_ : Can Q z) => ?_) ?_; (on_goal 2 => (dsimp -zeta only [z]; clear z)); (on_goal 1 => rename' z => z'))
    | (extract_lets +onlyGivenNames z; rename' z => z')
    | with_reducible apply State.each_can
    | with_reducible apply State.setSide_can
    | with_reducible apply State.exclude_can

theorem State.alarmClear_can (s : State) (a check : Nat) {Q : State} (h : Can Q s) : Can Q (State.alarmClear s a check) := by
  unfold State.alarmClear
  repeat' first
    | with_reducible assumption
    | (extract_lets +onlyGivenNames z; refine (fun (_ : Can Q z) => ?_) ?_; (on_goal 2 => (dsimp -zeta only [z]; clear z)); (on_goal 1 => rename' z => z'))
    | (extract_lets +onlyGivenNames z; rename' z => z')
    | with_reducible apply Can.ite
    | with_reducible apply State.setBit_can
    | with_reducible apply State.raise_can
    | with_reducible apply State.setSide_can

theorem State.exclEnd_can (s : State) (a : Nat) (const : Bool) (key check : Nat) {Q : State} (h : Can Q s) : Can Q (State.exclEnd s a const key check) := by
  unfold State.exclEnd
  repeat' first
    | with_reducible assumption
    | intro _
    | (extract_lets +onlyGivenNames z; refine (fun (_ : Can Q z) => ?_) ?_; (on_goal 2 => (dsimp -zeta only [z]; clear z)); (on_goal 1 => rename' z => z'))
    | with_reducible apply Can.ite
    | with_reducible apply State.when_can
    | with_reducible apply State.setSide_can
    | with_reducible apply State.exclude_can
    | split

theorem State.xcon_can (s : State) (a : Nat) (l : List (Option Int)) {Q : State} (h : Can Q s) : Can Q (State.xcon s a l) := by
  unfold State.xcon
  repeat' first
    | with_reducible assumption
    | (extract_lets +onlyGivenNames z; refine (fun (_ : Can Q z) => ?_) ?_; (on_goal 2 => (dsimp -zeta only [z]; clear z)); (on_goal 1 => rename' z => z'))
    | (extract_lets +onlyGivenNames z; rename' z => z')
    | with_reducible apply Can.ite
    | with_reducible apply State.setSide_can
    | with_reducible apply State.exclude_can
    | with_reducible apply State.alarm_can

theorem State.xant_can (s : State) {Q : State} (h : Can Q s) : Can Q (State.xant s) := by
  unfold State.xant
  repeat' first
    | with_reducible assumption
    | (extract_lets +onlyGivenNames z; rename' z => z')
    | with_reducible apply Can.ite
    | with_reducible apply State.tripped_can
    | split

theorem State.showInhibit_can (s : State) {Q : State} (h : Can Q s) : Can Q (State.showInhibit s) := by
  unfold State.showInhibit
  repeat' first
    | with_reducible assumption
    | intro _
    | with_reducible apply State.setBit_can
    | with_reducible apply State.each_can

theorem State.dirCheck_can (s : State) (l : List (Nat × Nat × Nat × Nat)) {Q : State} (h : Can Q s) : Can Q (State.dirCheck s l) := by
  unfold State.dirCheck
  repeat' first
    | with_reducible assumption
    | (extract_lets +onlyGivenNames z; rename' z => z')
    | with_reducible apply State.tripped_can

theorem State.jumpDiscard_can (s : State) (a : Nat) {Q : State} (h : Can Q s) : Can Q (State.jumpDiscard s a) := by
  unfold State.jumpDiscard
  repeat' first
    | with_reducible assumption
    | intro _
    | (extract_lets +onlyGivenNames z; refine (fun (_ : Can Q z) => ?_) ?_; (on_goal 2 => (dsimp -zeta only [z]; clear z)); (on_goal 1 => rename' z => z'))
    | with_reducible apply State.when_can
    | with_reducible apply State.setSide_can
    | with_reducible apply State.alarm_can

theorem State.showSurvey_can (s : State) (a : Nat) (v : Survey) {Q : State} (h : Can Q s) : Can Q (State.showSurvey s a v) := by
  unfold State.showSurvey
  repeat' first
    | with_reducible assumption
    | (extract_lets +onlyGivenNames z; rename' z => z')
    | with_reducible apply State.wr_can
    | with_reducible apply State.sfW_can

theorem State.surveyEpoch_can (s : State) (a : Nat) (p : Option (Int × Int × Int)) (ionoFree : Bool) {Q : State} (h : Can Q s) : Can Q (State.surveyEpoch s a p ionoFree) := by
  unfold State.surveyEpoch
  repeat' first
    | with_reducible assumption
    | (extract_lets +onlyGivenNames z; rename' z => z')
    | with_reducible apply Can.ite
    | with_reducible apply State.setSide_can
    | with_reducible apply State.showSurvey_can
    | split

theorem State.gnssLatch_can (s : State) {Q : State} (h : Can Q s) : Can Q (State.gnssLatch s) := by
  unfold State.gnssLatch
  repeat' first
    | with_reducible assumption
    | intro _
    | (extract_lets +onlyGivenNames z; refine (fun (_ : Can Q z) => ?_) ?_; (on_goal 2 => (dsimp -zeta only [z]; clear z)); (on_goal 1 => rename' z => z'))
    | (extract_lets +onlyGivenNames z; rename' z => z')
    | with_reducible apply Can.ite
    | with_reducible apply State.each_can
    | with_reducible apply State.setSide_can
    | with_reducible exact Can.with_ ‹_›

theorem State.gnssStepped_can (s : State) (amount : Int) {Q : State} (h : Can Q s) : Can Q (State.gnssStepped s amount) := by
  unfold State.gnssStepped
  repeat' first
    | with_reducible assumption
    | intro _
    | with_reducible apply State.when_can
    | with_reducible apply State.each_can
    | with_reducible apply State.setSide_can

theorem State.takeObs_can (s : State) (a : Nat) (l : List ChanObs) {Q : State} (h : Can Q s) : Can Q (State.takeObs s a l) := by
  unfold State.takeObs
  repeat' first
    | with_reducible assumption
    | intro _
    | with_reducible apply State.each_can
    | with_reducible apply State.setLoop_can

theorem State.putChan_can (s : State) (a : Nat) (e : Epoch) (r : Ranging) {Q : State} (h : Can Q s) : Can Q (State.putChan s a e r) := by
  unfold State.putChan
  repeat' first
    | with_reducible assumption
    | (extract_lets +onlyGivenNames z; refine (fun (_ : Can Q z) => ?_) ?_; (on_goal 2 => (dsimp -zeta only [z]; clear z)); (on_goal 1 => rename' z => z'))
    | (extract_lets +onlyGivenNames z; rename' z => z')
    | with_reducible apply State.wr_can
    | with_reducible apply State.sfW_can

theorem State.runChecks_can (s : State) (a epoch : Nat) (l : List Ranging) (e : Epoch) {Q : State} (h : Can Q s) : Can Q (State.runChecks s a epoch l e) := by
  unfold State.runChecks
  repeat' first
    | with_reducible assumption
    | intro _
    | (extract_lets +onlyGivenNames z; refine (fun (_ : Can Q z) => ?_) ?_; (on_goal 2 => (dsimp -zeta only [z]; clear z)); (on_goal 1 => rename' z => z'))
    | (extract_lets +onlyGivenNames z; rename' z => z')
    | with_reducible apply State.when_can
    | with_reducible apply State.setSide_can
    | with_reducible apply State.tripped_can
    | with_reducible apply State.svTripped_can
    | with_reducible apply State.xcon_can
    | split

theorem State.pairChecks_can (s : State) (l : List (Nat × Nat × Nat × Nat)) {Q : State} (h : Can Q s) : Can Q (State.pairChecks s l) := by
  unfold State.pairChecks
  repeat' first
    | with_reducible assumption
    | with_reducible apply Can.ite
    | with_reducible apply State.xant_can
    | with_reducible apply State.dirCheck_can

theorem State.putSolution_can (s : State) (a : Nat) (e : Epoch) (x : GnssFix) (theta : Int) {Q : State} (h : Can Q s) : Can Q (State.putSolution s a e x theta) := by
  unfold State.putSolution
  repeat' first
    | with_reducible assumption
    | (extract_lets +onlyGivenNames z; rename' z => z')
    | with_reducible apply State.setSide_can

theorem State.solveLatched_can (s : State) (a : Nat) (m : GnssSolution) (la : GnssLatch) {Q : State} (h : Can Q s) : Can Q (State.solveLatched s a m la) := by
  unfold State.solveLatched
  repeat' first
    | with_reducible assumption
    | intro _
    | (extract_lets +onlyGivenNames z; refine (fun (_ : Can Q z) => ?_) ?_; (on_goal 2 => (dsimp -zeta only [z]; clear z)); (on_goal 1 => rename' z => z'))
    | (extract_lets +onlyGivenNames z; rename' z => z')
    | with_reducible apply Can.ite
    | with_reducible apply State.sfW_can
    | with_reducible apply State.when_can
    | with_reducible apply State.each_can
    | with_reducible apply State.inc_can
    | with_reducible apply State.deliver_can
    | with_reducible apply State.setSide_can
    | with_reducible apply State.showInhibit_can
    | with_reducible apply State.jumpDiscard_can
    | with_reducible apply State.surveyEpoch_can
    | with_reducible apply State.takeObs_can
    | with_reducible apply State.putChan_can
    | with_reducible apply State.runChecks_can
    | with_reducible apply State.pairChecks_can
    | with_reducible apply State.putSolution_can
    | split

theorem State.solutionDone_can (s : State) (a : Nat) (m : GnssSolution) {Q : State} (h : Can Q s) : Can Q (State.solutionDone s a m) := by
  unfold State.solutionDone
  repeat' first
    | with_reducible assumption
    | (extract_lets +onlyGivenNames z; refine (fun (_ : Can Q z) => ?_) ?_; (on_goal 2 => (dsimp -zeta only [z]; clear z)); (on_goal 1 => rename' z => z'))
    | with_reducible apply Can.ite
    | with_reducible apply State.allocate_can
    | with_reducible apply State.solveLatched_can
    | split

theorem State.latchTheta_can (s : State) (a : Nat) {Q : State} (h : Can Q s) : Can Q (State.latchTheta s a) := by
  unfold State.latchTheta
  repeat' first
    | with_reducible assumption
    | intro _
    | (extract_lets +onlyGivenNames z; refine (fun (_ : Can Q z) => ?_) ?_; (on_goal 2 => (dsimp -zeta only [z]; clear z)); (on_goal 1 => rename' z => z'))
    | (extract_lets +onlyGivenNames z; rename' z => z')
    | with_reducible apply State.wr_can
    | with_reducible apply State.wr64_can
    | with_reducible apply State.each_can

theorem State.writeHotStart_can (s : State) {Q : State} (h : Can Q s) : Can Q (State.writeHotStart s) := by
  unfold State.writeHotStart
  repeat' first
    | (extract_lets +onlyGivenNames z; rename' z => z')
    | with_reducible exact Can.with_ ‹_›

theorem State.hotStartDue_can (s : State) {Q : State} (h : Can Q s) : Can Q (State.hotStartDue s) := by
  unfold State.hotStartDue
  repeat' first
    | with_reducible assumption
    | (extract_lets +onlyGivenNames z; refine (fun (_ : Can Q z) => ?_) ?_; (on_goal 2 => (dsimp -zeta only [z]; clear z)); (on_goal 1 => rename' z => z'))
    | (extract_lets +onlyGivenNames z; rename' z => z')
    | with_reducible apply Can.ite
    | with_reducible apply State.writeHotStart_can
    | with_reducible exact Can.with_ ‹_›

theorem State.loadHotStart_can (s : State) {Q : State} (h : Can Q s) : Can Q (State.loadHotStart s) := by
  unfold State.loadHotStart
  repeat' first
    | with_reducible assumption
    | intro _
    | (extract_lets +onlyGivenNames z; rename' z => z')
    | with_reducible apply State.each_can
    | with_reducible apply State.setSide_can

theorem State.putPosition_can (s : State) (a : Nat) (p : Int × Int × Int) (sigma : Nat) (fixed : Bool) {Q : State} (h : Can Q s) : Can Q (State.putPosition s a p sigma fixed) := by
  unfold State.putPosition
  repeat' first
    | with_reducible assumption
    | (extract_lets +onlyGivenNames z; refine (fun (_ : Can Q z) => ?_) ?_; (on_goal 2 => (dsimp -zeta only [z]; clear z)); (on_goal 1 => rename' z => z'))
    | with_reducible apply State.wr_can
    | with_reducible apply State.setBit_can
    | with_reducible apply State.setSide_can

theorem State.clearPosition_can (s : State) (a : Nat) {Q : State} (h : Can Q s) : Can Q (State.clearPosition s a) := by
  unfold State.clearPosition
  repeat' first
    | with_reducible assumption
    | with_reducible apply State.wr_can
    | with_reducible apply State.sfW_can

theorem State.surveyReport_can (s : State) (a : Nat) {Q : State} (h : Can Q s) : Can Q (State.surveyReport s a) := by
  unfold State.surveyReport
  repeat' first
    | with_reducible assumption
    | (extract_lets +onlyGivenNames z; refine (fun (_ : Can Q z) => ?_) ?_; (on_goal 2 => (dsimp -zeta only [z]; clear z)); (on_goal 1 => rename' z => z'))
    | with_reducible apply Can.ite
    | with_reducible apply State.setSide_can
    | with_reducible apply State.surveyRecord_can
    | split

theorem State.surveyStart_can (s : State) (a prog buf : Nat) {Q : State} (h : Can Q s) : Can Q (State.surveyStart s a prog buf) := by
  unfold State.surveyStart
  repeat' first
    | with_reducible assumption
    | (extract_lets +onlyGivenNames z; rename' z => z')
    | with_reducible apply State.setSide_can
    | with_reducible apply State.showSurvey_can

theorem State.surveyComplete_can (s : State) (a : Nat) {Q : State} (h : Can Q s) : Can Q (State.surveyComplete s a) := by
  unfold State.surveyComplete
  repeat' first
    | with_reducible assumption
    | with_reducible apply Can.ite
    | with_reducible apply State.endSurvey_can
    | with_reducible apply State.writeHotStart_can
    | with_reducible apply State.putPosition_can
    | split

theorem State.surveyTimeout_can (s : State) (a : Nat) {Q : State} (h : Can Q s) : Can Q (State.surveyTimeout s a) := by
  unfold State.surveyTimeout
  repeat' first
    | with_reducible assumption
    | with_reducible apply Can.ite
    | with_reducible apply State.endSurvey_can
    | split

theorem State.snapWrite_can (s : State) (off : Nat) (d : Bytes) {Q : State} (h : Can Q s) : Can Q (State.snapWrite s off d) :=
  Can.withSnap h (CellList.wf_foldl _ _ _ _ _ h.snap)

theorem State.setSnap_can (s : State) (st : Nat) {Q : State} (h : Can Q s) : Can Q (State.setSnap s st) := by
  unfold State.setSnap
  repeat' first
    | with_reducible assumption
    | with_reducible apply State.sfW_can

theorem State.checkHeader_can (s : State) {Q : State} (h : Can Q s) : Can Q (State.checkHeader s) := by
  unfold State.checkHeader
  repeat' first
    | with_reducible assumption
    | (extract_lets +onlyGivenNames z; rename' z => z')
    | with_reducible apply Can.ite
    | with_reducible apply State.sfW_can
    | with_reducible apply State.setBit_can

theorem State.snapFinish_can (s : State) (trigger ms st : Nat) {Q : State} (h : Can Q s) : Can Q (State.snapFinish s trigger ms st) := by
  unfold State.snapFinish
  repeat' first
    | with_reducible assumption
    | (extract_lets +onlyGivenNames z; refine (fun (_ : Can Q z) => ?_) ?_; (on_goal 2 => (dsimp -zeta only [z]; clear z)); (on_goal 1 => rename' z => z'))
    | (extract_lets +onlyGivenNames z; rename' z => z')
    | with_reducible apply State.sfW_can
    | with_reducible apply State.raise_can
    | with_reducible apply State.snapWrite_can
    | with_reducible apply State.setSnap_can
    | with_reducible apply State.checkHeader_can
    | exact Can.withSnap ‹_› rfl

theorem State.snapArm_can (s : State) {Q : State} (h : Can Q s) : Can Q (State.snapArm s) := by
  unfold State.snapArm
  repeat' first
    | (extract_lets +onlyGivenNames z; rename' z => z')
    | with_reducible apply State.setSnap_can
    | with_reducible exact Can.with_ ‹_›

theorem State.snapKeep_can (s : State) {Q : State} (h : Can Q s) : Can Q (State.snapKeep s) := by
  unfold State.snapKeep
  repeat' first
    | with_reducible assumption
    | (extract_lets +onlyGivenNames z; rename' z => z')
    | with_reducible apply Can.ite
    | with_reducible exact Can.with_ ‹_›

theorem State.snapFrom_can (s : State) (meas : Nat) {Q : State} (h : Can Q s) : Can Q (State.snapFrom s meas) := by
  unfold State.snapFrom
  repeat' first
    | (extract_lets +onlyGivenNames z; rename' z => z')
    | with_reducible exact Can.with_ ‹_›

theorem State.snapTrigger_can (s : State) {Q : State} (h : Can Q s) : Can Q (State.snapTrigger s) := by
  unfold State.snapTrigger
  repeat' first
    | with_reducible assumption
    | (extract_lets +onlyGivenNames z; refine (fun (_ : Can Q z) => ?_) ?_; (on_goal 2 => (dsimp -zeta only [z]; clear z)); (on_goal 1 => rename' z => z'))
    | (extract_lets +onlyGivenNames z; rename' z => z')
    | with_reducible apply Can.ite
    | with_reducible apply State.setSnap_can
    | with_reducible apply State.snapFrom_can
    | with_reducible exact Can.with_ ‹_›
    | split

theorem State.snapCaptureEnd_can (s : State) {Q : State} (h : Can Q s) : Can Q (State.snapCaptureEnd s) := by
  unfold State.snapCaptureEnd
  repeat' first
    | with_reducible assumption
    | with_reducible apply Can.ite
    | with_reducible apply State.snapFinish_can
    | split

theorem State.snapAbort_can (s : State) {Q : State} (h : Can Q s) : Can Q (State.snapAbort s) := by
  unfold State.snapAbort
  repeat' first
    | with_reducible assumption
    | (extract_lets +onlyGivenNames z; refine (fun (_ : Can Q z) => ?_) ?_; (on_goal 2 => (dsimp -zeta only [z]; clear z)); (on_goal 1 => rename' z => z'))
    | (extract_lets +onlyGivenNames z; rename' z => z')
    | with_reducible apply Can.ite
    | with_reducible apply State.snapFinish_can
    | with_reducible apply State.snapFrom_can

theorem State.replayStart_can (s : State) (a : Nat) {Q : State} (h : Can Q s) : Can Q (State.replayStart s a) := by
  unfold State.replayStart
  repeat' first
    | with_reducible assumption
    | (extract_lets +onlyGivenNames z; refine (fun (_ : Can Q z) => ?_) ?_; (on_goal 2 => (dsimp -zeta only [z]; clear z)); (on_goal 1 => rename' z => z'))
    | (extract_lets +onlyGivenNames z; rename' z => z')
    | with_reducible apply State.setBit_can
    | with_reducible apply State.setSide_can
    | with_reducible exact Can.with_ ‹_›

theorem State.replayStop_can (s : State) (a : Nat) {Q : State} (h : Can Q s) : Can Q (State.replayStop s a) := by
  unfold State.replayStop
  repeat' first
    | with_reducible assumption
    | (extract_lets +onlyGivenNames z; refine (fun (_ : Can Q z) => ?_) ?_; (on_goal 2 => (dsimp -zeta only [z]; clear z)); (on_goal 1 => rename' z => z'))
    | (extract_lets +onlyGivenNames z; rename' z => z')
    | with_reducible apply Can.ite
    | with_reducible apply State.setBit_can
    | with_reducible apply State.startSide_can
    | with_reducible exact Can.with_ ‹_›

theorem State.replayDue_can (s : State) (a : Nat) {Q : State} (h : Can Q s) : Can Q (State.replayDue s a) := by
  unfold State.replayDue
  repeat' first
    | with_reducible assumption
    | with_reducible apply Can.ite
    | with_reducible apply State.replayStop_can
    | split

theorem State.biasCurrent_can (s : State) (a ma : Nat) {Q : State} (h : Can Q s) : Can Q (State.biasCurrent s a ma) := by
  unfold State.biasCurrent
  repeat' first
    | with_reducible assumption
    | with_reducible apply Can.ite
    | with_reducible apply State.wr_can
    | with_reducible apply State.raise_can
    | with_reducible apply State.setSide_can

theorem State.biasShort_can (s : State) (a ma : Nat) {Q : State} (h : Can Q s) : Can Q (State.biasShort s a ma) := by
  unfold State.biasShort
  repeat' first
    | with_reducible assumption
    | intro _
    | with_reducible apply State.when_can
    | with_reducible apply State.biasCurrent_can

theorem State.spectrum_can (s : State) (a band : Nat) (o : RfiObs) {Q : State} (h : Can Q s) : Can Q (State.spectrum s a band o) := by
  unfold State.spectrum
  repeat' first
    | with_reducible assumption
    | intro _
    | (extract_lets +onlyGivenNames z; refine (fun (_ : Can Q z) => ?_) ?_; (on_goal 2 => (dsimp -zeta only [z]; clear z)); (on_goal 1 => rename' z => z'))
    | (extract_lets +onlyGivenNames z; rename' z => z')
    | with_reducible apply State.wr_can
    | with_reducible apply State.sfW_can
    | with_reducible apply State.when_can
    | with_reducible apply State.raise_can
    | with_reducible apply State.setSide_can
    | with_reducible apply State.snapQualify_can
    | with_reducible apply State.biasCurrent_can

theorem State.biasRetry_can (s : State) (a ma : Nat) {Q : State} (h : Can Q s) : Can Q (State.biasRetry s a ma) := by
  unfold State.biasRetry
  repeat' first
    | with_reducible assumption
    | with_reducible apply Can.ite
    | with_reducible apply State.biasCurrent_can
    | split

theorem State.leapVote_can (s : State) (key : Nat) (sec : Nat) (offset : Int) {Q : State} (h : Can Q s) : Can Q (State.leapVote s key sec offset) := by
  unfold State.leapVote
  repeat' first
    | with_reducible assumption
    | intro _
    | (extract_lets +onlyGivenNames z; refine (fun (_ : Can Q z) => ?_) ?_; (on_goal 2 => (dsimp -zeta only [z]; clear z)); (on_goal 1 => rename' z => z'))
    | (extract_lets +onlyGivenNames z; rename' z => z')
    | with_reducible apply State.when_can
    | with_reducible apply State.raise_can
    | with_reducible apply State.learnLeap_can
    | with_reducible exact Can.with_ ‹_›

theorem State.learnNav_can (s : State) (a : Nat) (m : NavMessage) {Q : State} (h : Can Q s) : Can Q (State.learnNav s a m) := by
  unfold State.learnNav
  repeat' first
    | with_reducible assumption
    | (extract_lets +onlyGivenNames z; refine (fun (_ : Can Q z) => ?_) ?_; (on_goal 2 => (dsimp -zeta only [z]; clear z)); (on_goal 1 => rename' z => z'))
    | (extract_lets +onlyGivenNames z; rename' z => z')
    | with_reducible apply Can.ite
    | with_reducible apply State.setSide_can
    | with_reducible apply State.leapVote_can
    | split

theorem State.navMessage_can (s : State) (a : Nat) (m : NavMessage) {Q : State} (h : Can Q s) : Can Q (State.navMessage s a m) := by
  unfold State.navMessage
  repeat' first
    | with_reducible assumption
    | intro _
    | (extract_lets +onlyGivenNames z; refine (fun (_ : Can Q z) => ?_) ?_; (on_goal 2 => (dsimp -zeta only [z]; clear z)); (on_goal 1 => rename' z => z'))
    | (extract_lets +onlyGivenNames z; refine (fun (_ : Can Q z.1) => ?_) ?_; (on_goal 2 => (dsimp -zeta only [z]; clear z)); (on_goal 1 => rename' z => z'))
    | (extract_lets +onlyGivenNames z; rename' z => z')
    | with_reducible apply Can.ite
    | with_reducible apply State.when_can
    | with_reducible apply State.inc_can
    | with_reducible apply State.raise_can
    | with_reducible apply State.recordOrDrop_can
    | with_reducible apply State.learnNav_can
    | split

theorem State.kaWake_can (s : State) {Q : State} (h : Can Q s) : Can Q (State.kaWake s) := by
  unfold State.kaWake
  repeat' first
    | with_reducible assumption
    | (extract_lets +onlyGivenNames z; refine (fun (_ : Can Q z) => ?_) ?_; (on_goal 2 => (dsimp -zeta only [z]; clear z)); (on_goal 1 => rename' z => z'))
    | (extract_lets +onlyGivenNames z; rename' z => z')
    | with_reducible apply Can.ite
    | with_reducible apply State.setBit_can
    | with_reducible apply State.setHol_can
    | with_reducible apply State.startSide_can
    | with_reducible exact Can.with_ ‹_›

theorem State.kaWakeEnd_can (s : State) (sky : List SkyObs) {Q : State} (h : Can Q s) : Can Q (State.kaWakeEnd s sky) := by
  unfold State.kaWakeEnd
  repeat' first
    | with_reducible assumption
    | (extract_lets +onlyGivenNames z; refine (fun (_ : Can Q z) => ?_) ?_; (on_goal 2 => (dsimp -zeta only [z]; clear z)); (on_goal 1 => rename' z => z'))
    | (extract_lets +onlyGivenNames z; rename' z => z')
    | with_reducible apply Can.ite
    | with_reducible apply State.setBit_can
    | with_reducible apply State.haltSide_can
    | with_reducible apply State.writeHotStart_can
    | with_reducible exact Can.with_ ‹_›
    | split

theorem State.applyGnsCfg_can (s : State) (old : Nat → Word) {Q : State} (h : Can Q s) : Can Q (State.applyGnsCfg s old) := by
  unfold State.applyGnsCfg
  repeat' first
    | with_reducible assumption
    | intro _
    | (extract_lets +onlyGivenNames z; refine (fun (_ : Can Q z) => ?_) ?_; (on_goal 2 => (dsimp -zeta only [z]; clear z)); (on_goal 1 => rename' z => z'))
    | (extract_lets +onlyGivenNames z; rename' z => z')
    | with_reducible apply Can.ite
    | with_reducible apply State.setBit_can
    | with_reducible apply State.each_can
    | with_reducible apply State.setSide_can
    | with_reducible apply State.biasOn_can
    | with_reducible apply State.stopSide_can

theorem State.gnsResult_can (s : State) (op reason : Nat) {Q : State} (h : Can Q s) : Can Q (State.gnsResult s op reason) := by
  unfold State.gnsResult
  repeat' first
    | with_reducible assumption
    | with_reducible apply State.wr_can
    | with_reducible apply State.raise_can

theorem State.applyGnsCmd_can (s : State) {Q : State} (h : Can Q s) : Can Q (State.applyGnsCmd s) := by
  unfold State.applyGnsCmd
  repeat' first
    | with_reducible assumption
    | (extract_lets +onlyGivenNames z; refine (fun (_ : Can Q z) => ?_) ?_; (on_goal 2 => (dsimp -zeta only [z]; clear z)); (on_goal 1 => rename' z => z'))
    | (extract_lets +onlyGivenNames z; clear_value z; rename' z => z')
    | with_reducible apply State.sfW_can
    | with_reducible apply State.setSide_can
    | with_reducible apply State.endSurvey_can
    | with_reducible apply State.writeHotStart_can
    | with_reducible apply State.putPosition_can
    | with_reducible apply State.clearPosition_can
    | with_reducible apply State.surveyStart_can
    | with_reducible apply State.snapArm_can
    | with_reducible apply State.snapAbort_can
    | with_reducible apply State.replayStart_can
    | with_reducible apply State.replayStop_can
    | with_reducible apply State.gnsResult_can
    | split

theorem State.refuseGnsCmd_can (s : State) (w : Nat → Word) (reason : Nat) {Q : State} (h : Can Q s) : Can Q (State.refuseGnsCmd s w reason) := by
  unfold State.refuseGnsCmd
  repeat' first
    | with_reducible assumption
    | with_reducible apply State.gnsResult_can

theorem State.gnsParityFault_can (s : State) (a : Nat) {Q : State} (h : Can Q s) : Can Q (State.gnsParityFault s a) := by
  unfold State.gnsParityFault
  repeat' first
    | with_reducible assumption
    | (extract_lets +onlyGivenNames z; refine (fun (_ : Can Q z) => ?_) ?_; (on_goal 2 => (dsimp -zeta only [z]; clear z)); (on_goal 1 => rename' z => z'))
    | with_reducible apply Can.ite
    | with_reducible apply State.setBit_can
    | with_reducible apply State.raise_can

theorem State.gnssLoad_can (s : State) (a : Nat) (startOk : Bool) {Q : State} (h : Can Q s) : Can Q (State.gnssLoad s a startOk) := by
  unfold State.gnssLoad
  repeat' first
    | with_reducible assumption
    | (extract_lets +onlyGivenNames z; rename' z => z')
    | with_reducible apply State.journalize_can
    | with_reducible apply State.setSide_can
    | with_reducible apply State.startSide_can

end Sys2Proof.Machine
end

