-- ==== Sys2Proof/Laws/CanonTimeTags.lean ====
section
/-!
SUPPORT. The canonical form of the sparse storage through every operation of Machine/TimeTags.lean.
-/

set_option Elab.async false

namespace Sys2Proof.Machine

theorem State.setChan_can (s : State) (c : Nat) (f : TtuCh → TtuCh) {Q : State} (h : Can Q s) : Can Q (State.setChan s c f) := by
  unfold State.setChan
  repeat' first
    | (extract_lets +onlyGivenNames z; rename' z => z')
    | with_reducible exact Can.with_ ‹_›

theorem State.setProg_can (s : State) (p : Nat) (f : Prog → Prog) {Q : State} (h : Can Q s) : Can Q (State.setProg s p f) := by
  unfold State.setProg
  repeat' first
    | (extract_lets +onlyGivenNames z; rename' z => z')
    | with_reducible exact Can.with_ ‹_›

theorem State.drainFifo_can (s : State) {Q : State} (h : Can Q s) : Can Q (State.drainFifo s) := by
  unfold State.drainFifo
  repeat' first
    | (extract_lets +onlyGivenNames z; rename' z => z')
    | with_reducible exact Can.with_ ‹_›

theorem State.bufferTag_can (s : State) (d : Bytes) {Q : State} (h : Can Q s) : Can Q (State.bufferTag s d) := by
  unfold State.bufferTag
  repeat' first
    | with_reducible assumption
    | (extract_lets +onlyGivenNames z; refine (fun (_ : Can Q z) => ?_) ?_; (on_goal 2 => (dsimp -zeta only [z]; clear z)); (on_goal 1 => rename' z => z'))
    | (extract_lets +onlyGivenNames z; rename' z => z')
    | with_reducible apply Can.ite
    | with_reducible apply State.inc_can
    | with_reducible apply State.raise_can
    | with_reducible apply State.setChan_can
    | with_reducible exact Can.with_ ‹_›
    | split

theorem State.storeTag_can (s : State) (c : Nat) (d : Bytes) {Q : State} (h : Can Q s) : Can Q (State.storeTag s c d) := by
  unfold State.storeTag
  repeat' first
    | with_reducible assumption
    | (extract_lets +onlyGivenNames z; refine (fun (_ : Can Q z) => ?_) ?_; (on_goal 2 => (dsimp -zeta only [z]; clear z)); (on_goal 1 => rename' z => z'))
    | (extract_lets +onlyGivenNames z; rename' z => z')
    | with_reducible apply Can.ite
    | with_reducible apply State.inc_can
    | with_reducible apply State.raise_can
    | with_reducible apply State.setChan_can
    | with_reducible apply State.drainFifo_can
    | with_reducible apply State.bufferTag_can
    | with_reducible exact Can.with_ ‹_›

theorem State.forwardOne_can (s : State) (n source : Nat) (d : Bytes) {Q : State} (h : Can Q s) : Can Q (State.forwardOne s n source d).1 := by
  unfold State.forwardOne
  repeat' first
    | with_reducible assumption
    | with_reducible apply Can.ite1
    | with_reducible apply State.putRecord_can

theorem State.forwardOne_pair (s : State) (n source : Nat) (d : Bytes) {u : State} {x : _} (hq : (State.forwardOne s n source d) = (u, x)) {Q : State} (h : Can Q s) : Can Q u := by
  have k := State.forwardOne_can s n source d h
  rw [hq] at k
  exact k

theorem State.forwardTags_can (s : State) {Q : State} (h : Can Q s) : Can Q (State.forwardTags s) := by
  unfold State.forwardTags
  repeat' first
    | with_reducible assumption
    | intro _
    | (extract_lets +onlyGivenNames z; refine (fun (_ : Can Q z) => ?_) ?_; (on_goal 2 => (dsimp -zeta only [z]; clear z)); (on_goal 1 => rename' z => z'))
    | (extract_lets +onlyGivenNames z; refine (fun (_ : Can Q z.1) => ?_) ?_; (on_goal 2 => (dsimp -zeta only [z]; clear z)); (on_goal 1 => rename' z => z'))
    | (extract_lets +onlyGivenNames z; rename' z => z')
    | with_reducible apply Can.ite
    | with_reducible apply State.setChan_can
    | with_reducible apply State.forwardOne_can
    | with_reducible apply foldl_can
    | with_reducible exact Can.with_ ‹_›

theorem State.forwardMeas_can (s : State) {Q : State} (h : Can Q s) : Can Q (State.forwardMeas s) := by
  unfold State.forwardMeas
  repeat' first
    | with_reducible assumption
    | intro _
    | (extract_lets +onlyGivenNames z; refine (fun (_ : Can Q z) => ?_) ?_; (on_goal 2 => (dsimp -zeta only [z]; clear z)); (on_goal 1 => rename' z => z'))
    | (extract_lets +onlyGivenNames z; refine (fun (_ : Can Q z.1) => ?_) ?_; (on_goal 2 => (dsimp -zeta only [z]; clear z)); (on_goal 1 => rename' z => z'))
    | (extract_lets +onlyGivenNames z; rename' z => z')
    | with_reducible apply Can.ite
    | with_reducible apply State.forwardOne_can
    | with_reducible apply foldl_can
    | with_reducible exact Can.with_ ‹_›

theorem State.closeRecord_can (s : State) (p : Nat) (d : Nat → Bytes) {Q : State} (h : Can Q s) : Can Q (State.closeRecord s p d) := by
  unfold State.closeRecord
  repeat' first
    | with_reducible assumption
    | with_reducible apply State.setProg_can

theorem State.closeMeas_can (s : State) (p : Nat) (m : Meas) (close : Nat) {Q : State} (h : Can Q s) : Can Q (State.closeMeas s p m close) := by
  unfold State.closeMeas
  repeat' first
    | with_reducible assumption
    | (extract_lets +onlyGivenNames z; rename' z => z')
    | with_reducible apply State.closeRecord_can

theorem State.showProg_can (s : State) (p : Nat) {Q : State} (h : Can Q s) : Can Q (State.showProg s p) := by
  unfold State.showProg
  repeat' first
    | with_reducible assumption
    | with_reducible apply State.sfW_can

theorem State.mpAge_can (s : State) (p : Nat) (now : Int) {Q : State} (h : Can Q s) : Can Q (State.mpAge s p now) := by
  unfold State.mpAge
  repeat' first
    | with_reducible assumption
    | intro _
    | (extract_lets +onlyGivenNames z; refine (fun (_ : Can Q z) => ?_) ?_; (on_goal 2 => (dsimp -zeta only [z]; clear z)); (on_goal 1 => rename' z => z'))
    | (extract_lets +onlyGivenNames z; rename' z => z')
    | with_reducible apply State.when_can
    | with_reducible apply State.each_can
    | with_reducible apply State.count_can
    | with_reducible apply State.setProg_can
    | with_reducible apply State.closeMeas_can
    | with_reducible apply State.showProg_can

theorem State.mpStop_can (s : State) (p : Nat) (g : Tag) {Q : State} (h : Can Q s) : Can Q (State.mpStop s p g) := by
  unfold State.mpStop
  repeat' first
    | with_reducible assumption
    | intro _
    | (extract_lets +onlyGivenNames z; refine (fun (_ : Can Q z) => ?_) ?_; (on_goal 2 => (dsimp -zeta only [z]; clear z)); (on_goal 1 => rename' z => z'))
    | (extract_lets +onlyGivenNames z; rename' z => z')
    | with_reducible apply State.when_can
    | with_reducible apply State.each_can
    | with_reducible apply State.count_can
    | with_reducible apply State.setProg_can
    | with_reducible apply State.closeMeas_can

theorem State.mpOpen_can (s : State) (p : Nat) (g : Tag) (calChanged : Bool) {Q : State} (h : Can Q s) : Can Q (State.mpOpen s p g calChanged) := by
  unfold State.mpOpen
  repeat' first
    | with_reducible assumption
    | intro _
    | (extract_lets +onlyGivenNames z; refine (fun (_ : Can Q z) => ?_) ?_; (on_goal 2 => (dsimp -zeta only [z]; clear z)); (on_goal 1 => rename' z => z'))
    | (extract_lets +onlyGivenNames z; rename' z => z')
    | with_reducible apply Can.ite
    | with_reducible apply State.when_can
    | with_reducible apply State.inc_can
    | with_reducible apply State.raise_can
    | with_reducible apply State.setProg_can
    | with_reducible apply State.closeMeas_can

theorem State.mpGate_can (s : State) (p : Nat) (g : Tag) (calChanged : Bool) {Q : State} (h : Can Q s) : Can Q (State.mpGate s p g calChanged) := by
  unfold State.mpGate
  repeat' first
    | with_reducible assumption
    | (extract_lets +onlyGivenNames z; rename' z => z')
    | with_reducible apply State.setProg_can
    | split

theorem State.mpMissing_can (s : State) (p : Nat) (missing : Bool) {Q : State} (h : Can Q s) : Can Q (State.mpMissing s p missing) := by
  unfold State.mpMissing
  repeat' first
    | with_reducible assumption
    | intro _
    | with_reducible apply State.when_can
    | with_reducible apply State.inc_can

theorem State.closeGate_can (s : State) (p : Nat) {Q : State} (h : Can Q s) : Can Q (State.closeGate s p) := by
  unfold State.closeGate
  repeat' first
    | with_reducible assumption
    | (extract_lets +onlyGivenNames z; refine (fun (_ : Can Q z) => ?_) ?_; (on_goal 2 => (dsimp -zeta only [z]; clear z)); (on_goal 1 => rename' z => z'))
    | (extract_lets +onlyGivenNames z; rename' z => z')
    | with_reducible apply State.setProg_can
    | with_reducible apply State.closeRecord_can
    | with_reducible apply State.mpMissing_can

theorem State.closePhase_can (s : State) (p : Nat) {Q : State} (h : Can Q s) : Can Q (State.closePhase s p) := by
  unfold State.closePhase
  repeat' first
    | with_reducible assumption
    | (extract_lets +onlyGivenNames z; refine (fun (_ : Can Q z) => ?_) ?_; (on_goal 2 => (dsimp -zeta only [z]; clear z)); (on_goal 1 => rename' z => z'))
    | (extract_lets +onlyGivenNames z; rename' z => z')
    | with_reducible apply State.setProg_can
    | with_reducible apply State.closeRecord_can
    | with_reducible apply State.mpMissing_can

theorem State.measGateClose_can (s : State) (p : Nat) {Q : State} (h : Can Q s) : Can Q (State.measGateClose s p) := by
  unfold State.measGateClose
  repeat' first
    | with_reducible assumption
    | with_reducible apply Can.ite
    | with_reducible apply State.closeGate_can
    | with_reducible apply State.closePhase_can

theorem State.measClose_can (s : State) (p : Nat) {Q : State} (h : Can Q s) : Can Q (State.measClose s p) := by
  unfold State.measClose
  repeat' first
    | with_reducible assumption
    | with_reducible apply Can.ite
    | with_reducible apply State.mpAge_can

theorem State.mpTag_can (s : State) (p : Nat) (g : Tag) (calChanged : Bool) {Q : State} (h : Can Q s) : Can Q (State.mpTag s p g calChanged) := by
  unfold State.mpTag
  repeat' first
    | with_reducible assumption
    | intro _
    | (extract_lets +onlyGivenNames z; refine (fun (_ : Can Q z) => ?_) ?_; (on_goal 2 => (dsimp -zeta only [z]; clear z)); (on_goal 1 => rename' z => z'))
    | with_reducible apply State.when_can
    | with_reducible apply State.setProg_can
    | with_reducible apply State.showProg_can
    | with_reducible apply State.mpAge_can
    | with_reducible apply State.mpStop_can
    | with_reducible apply State.mpOpen_can
    | with_reducible apply State.mpGate_can
    | split

theorem State.tagReference_can (s : State) (g : Tag) (cycles : Nat) {Q : State} (h : Can Q s) : Can Q (State.tagReference s g cycles) := by
  unfold State.tagReference
  repeat' first
    | with_reducible assumption
    | with_reducible apply Can.ite
    | with_reducible apply State.setRef_can
    | with_reducible apply State.ppsEdge_can
    | with_reducible apply State.cartFault_can

theorem State.tagIt_can (s : State) (c : Nat) (rising : Bool) (ts ms : Int) (cycles : Nat) {Q : State} (h : Can Q s) : Can Q (State.tagIt s c rising ts ms cycles) := by
  unfold State.tagIt
  repeat' first
    | with_reducible assumption
    | intro _
    | (extract_lets +onlyGivenNames z; refine (fun (_ : Can Q z) => ?_) ?_; (on_goal 2 => (dsimp -zeta only [z]; clear z)); (on_goal 1 => rename' z => z'))
    | (extract_lets +onlyGivenNames z; rename' z => z')
    | with_reducible apply State.when_can
    | with_reducible apply State.each_can
    | with_reducible apply State.inc_can
    | with_reducible apply State.setChan_can
    | with_reducible apply State.storeTag_can
    | with_reducible apply State.mpTag_can
    | with_reducible apply State.tagReference_can

theorem State.deadEdge_can (s : State) (c : Nat) {Q : State} (h : Can Q s) : Can Q (State.deadEdge s c) := by
  unfold State.deadEdge
  repeat' first
    | with_reducible assumption
    | with_reducible apply State.inc_can
    | with_reducible apply State.raise_can
    | with_reducible apply State.setChan_can

theorem State.tagEdge_can (s : State) (c : Nat) (rising : Bool) (sub cycles : Nat) {Q : State} (h : Can Q s) : Can Q (State.tagEdge s c rising sub cycles) := by
  unfold State.tagEdge
  repeat' first
    | with_reducible assumption
    | (extract_lets +onlyGivenNames z; refine (fun (_ : Can Q z) => ?_) ?_; (on_goal 2 => (dsimp -zeta only [z]; clear z)); (on_goal 1 => rename' z => z'))
    | (extract_lets +onlyGivenNames z; rename' z => z')
    | with_reducible apply Can.ite
    | with_reducible apply State.setChan_can
    | with_reducible apply State.tagIt_can
    | with_reducible apply State.deadEdge_can
    | split

theorem State.measPost_can (s : State) {Q : State} (h : Can Q s) : Can Q (State.measPost s) := by
  unfold State.measPost
  repeat' first
    | with_reducible assumption
    | intro _
    | (extract_lets +onlyGivenNames z; refine (fun (_ : Can Q z) => ?_) ?_; (on_goal 2 => (dsimp -zeta only [z]; clear z)); (on_goal 1 => rename' z => z'))
    | (extract_lets +onlyGivenNames z; rename' z => z')
    | with_reducible apply Can.ite
    | with_reducible apply State.sfW_can
    | with_reducible apply State.each_can
    | with_reducible apply State.inc_can
    | with_reducible apply State.raise_can
    | with_reducible apply State.setProg_can
    | with_reducible exact Can.with_ ‹_›

theorem State.ttuRates_can (s : State) {Q : State} (h : Can Q s) : Can Q (State.ttuRates s) := by
  unfold State.ttuRates
  repeat' first
    | with_reducible assumption
    | intro _
    | with_reducible apply State.wr_can
    | with_reducible apply State.each_can
    | with_reducible apply State.setChan_can

theorem State.ttuSkews_can (s : State) {Q : State} (h : Can Q s) : Can Q (State.ttuSkews s) := by
  unfold State.ttuSkews
  repeat' first
    | with_reducible assumption
    | intro _
    | with_reducible apply State.wr_can
    | with_reducible apply State.each_can
    | with_reducible apply State.raise_can
    | with_reducible apply State.setChan_can
    | split

theorem State.ttuStepped_can (s : State) (before : Nat) {Q : State} (h : Can Q s) : Can Q (State.ttuStepped s before) := by
  unfold State.ttuStepped
  repeat' first
    | (extract_lets +onlyGivenNames z; rename' z => z')
    | with_reducible exact Can.with_ ‹_›

theorem State.calBurst_can (s : State) (skews : List (Nat × Int)) {Q : State} (h : Can Q s) : Can Q (State.calBurst s skews) := by
  unfold State.calBurst
  repeat' first
    | with_reducible assumption
    | intro _
    | (extract_lets +onlyGivenNames z; refine (fun (_ : Can Q z) => ?_) ?_; (on_goal 2 => (dsimp -zeta only [z]; clear z)); (on_goal 1 => rename' z => z'))
    | (extract_lets +onlyGivenNames z; rename' z => z')
    | with_reducible apply Can.ite
    | with_reducible apply State.each_can
    | with_reducible apply State.setChan_can
    | with_reducible exact Can.with_ ‹_›
    | split

theorem State.showBurst_can (s : State) {Q : State} (h : Can Q s) : Can Q (State.showBurst s) := by
  unfold State.showBurst
  repeat' first
    | with_reducible assumption
    | with_reducible apply State.setBit_can

theorem State.buildTables_can (s : State) {Q : State} (h : Can Q s) : Can Q (State.buildTables s) := by
  unfold State.buildTables
  repeat' first
    | (extract_lets +onlyGivenNames z; rename' z => z')
    | with_reducible apply State.setBit_can
    | with_reducible exact Can.with_ ‹_›

theorem State.armProgs_can (s : State) {Q : State} (h : Can Q s) : Can Q (State.armProgs s) := by
  unfold State.armProgs
  repeat' first
    | with_reducible assumption
    | intro _
    | with_reducible apply State.each_can
    | with_reducible apply State.setProg_can

theorem State.applyTtuCh_can (s : State) (old : Nat → Word) {Q : State} (h : Can Q s) : Can Q (State.applyTtuCh s old) := by
  unfold State.applyTtuCh
  repeat' first
    | with_reducible assumption
    | intro _
    | (extract_lets +onlyGivenNames z; refine (fun (_ : Can Q z) => ?_) ?_; (on_goal 2 => (dsimp -zeta only [z]; clear z)); (on_goal 1 => rename' z => z'))
    | (extract_lets +onlyGivenNames z; rename' z => z')
    | with_reducible apply Can.ite
    | with_reducible apply State.setBit_can
    | with_reducible apply State.when_can
    | with_reducible apply State.each_can
    | with_reducible apply State.requalify_can
    | with_reducible apply State.setChan_can

theorem State.applyTtuProg_can (s : State) (old : Nat → Word) {Q : State} (h : Can Q s) : Can Q (State.applyTtuProg s old) := by
  unfold State.applyTtuProg
  repeat' first
    | with_reducible assumption
    | intro _
    | (extract_lets +onlyGivenNames z; refine (fun (_ : Can Q z) => ?_) ?_; (on_goal 2 => (dsimp -zeta only [z]; clear z)); (on_goal 1 => rename' z => z'))
    | with_reducible apply State.setBit_can
    | with_reducible apply State.when_can
    | with_reducible apply State.each_can
    | with_reducible apply State.setProg_can
    | with_reducible apply State.showProg_can

theorem State.ttuParityFault_can (s : State) (a : Nat) {Q : State} (h : Can Q s) : Can Q (State.ttuParityFault s a) := by
  unfold State.ttuParityFault
  repeat' first
    | with_reducible assumption
    | (extract_lets +onlyGivenNames z; refine (fun (_ : Can Q z) => ?_) ?_; (on_goal 2 => (dsimp -zeta only [z]; clear z)); (on_goal 1 => rename' z => z'))
    | (extract_lets +onlyGivenNames z; rename' z => z')
    | with_reducible apply Can.ite
    | with_reducible apply State.setBit_can
    | with_reducible apply State.raise_can
    | with_reducible apply State.setProg_can
    | with_reducible apply State.showProg_can

end Sys2Proof.Machine
end

