-- ==== Sys2Proof/Laws/CanonUnits.lean ====
section
/-!
SUPPORT. The canonical form of the sparse storage through every operation of Machine/Units.lean.
-/

set_option Elab.async false

namespace Sys2Proof.Machine

theorem State.showUnits_can (s : State) {Q : State} (h : Can Q s) : Can Q (State.showUnits s) := by
  unfold State.showUnits
  repeat' first
    | with_reducible assumption
    | (extract_lets +onlyGivenNames z; refine (fun (_ : Can Q z) => ?_) ?_; (on_goal 2 => (dsimp -zeta only [z]; clear z)); (on_goal 1 => rename' z => z'))
    | with_reducible apply State.sfW_can

theorem State.showSha_can (s : State) {Q : State} (h : Can Q s) : Can Q (State.showSha s) := by
  unfold State.showSha
  repeat' first
    | with_reducible assumption
    | with_reducible apply State.sfW_can
    | with_reducible apply State.showRcp_can

theorem State.ucodeResult_can (s : State) (p op reason : Nat) {Q : State} (h : Can Q s) : Can Q (State.ucodeResult s p op reason) := by
  unfold State.ucodeResult
  repeat' first
    | with_reducible assumption
    | (extract_lets +onlyGivenNames z; rename' z => z')
    | with_reducible apply State.sfW_can

theorem State.setPipe_can (s : State) (p st : Nat) {Q : State} (h : Can Q s) : Can Q (State.setPipe s p st) := by
  unfold State.setPipe
  repeat' first
    | with_reducible assumption
    | with_reducible apply State.sfW_can

theorem State.pipeFenced_can (s : State) (p : Nat) (drained : Bool) {Q : State} (h : Can Q s) : Can Q (State.pipeFenced s p drained) := by
  unfold State.pipeFenced
  repeat' first
    | with_reducible assumption
    | intro _
    | (extract_lets +onlyGivenNames z; refine (fun (_ : Can Q z) => ?_) ?_; (on_goal 2 => (dsimp -zeta only [z]; clear z)); (on_goal 1 => rename' z => z'))
    | with_reducible apply State.when_can
    | with_reducible apply State.showPipes_can
    | with_reducible apply State.moveAway_can
    | with_reducible apply State.losePipe_can
    | with_reducible apply State.ucodeResult_can
    | with_reducible apply State.setPipe_can

theorem State.unitLost_can (s : State) (kind i : Nat) (drained : Bool) {Q : State} (h : Can Q s) : Can Q (State.unitLost s kind i drained) := by
  unfold State.unitLost
  repeat' first
    | with_reducible assumption
    | intro _
    | with_reducible apply State.when_can
    | with_reducible apply State.lose_can
    | with_reducible apply State.fenceBlock_can
    | with_reducible apply State.fenceCore_can
    | with_reducible apply State.showSha_can
    | with_reducible apply State.pipeFenced_can
    | split

theorem State.fenceOne_can (s : State) (src : Source) (kind i cause : Nat) (drained : Bool) {Q : State} (h : Can Q s) : Can Q (State.fenceOne s src kind i cause drained) := by
  unfold State.fenceOne
  repeat' first
    | with_reducible assumption
    | (extract_lets +onlyGivenNames z; refine (fun (_ : Can Q z) => ?_) ?_; (on_goal 2 => (dsimp -zeta only [z]; clear z)); (on_goal 1 => rename' z => z'))
    | with_reducible apply Can.ite
    | with_reducible apply State.setBit_can
    | with_reducible apply State.raise_can
    | with_reducible apply State.logFault_can
    | with_reducible apply State.showUnits_can
    | with_reducible apply State.unitLost_can
    | with_reducible exact Can.with_ ‹_›

theorem State.fenceUnit_can (s : State) (src : Source) (kind i cause : Nat) (drained : Bool) {Q : State} (h : Can Q s) : Can Q (State.fenceUnit s src kind i cause drained) := by
  unfold State.fenceUnit
  repeat' first
    | with_reducible assumption
    | (extract_lets +onlyGivenNames z; refine (fun (_ : Can Q z) => ?_) ?_; (on_goal 2 => (dsimp -zeta only [z]; clear z)); (on_goal 1 => rename' z => z'))
    | with_reducible apply Can.ite
    | with_reducible apply State.fenceOne_can

theorem State.unitBack_can (s : State) (kind i : Nat) {Q : State} (h : Can Q s) : Can Q (State.unitBack s kind i) := by
  unfold State.unitBack
  repeat' first
    | with_reducible assumption
    | intro _
    | with_reducible apply State.when_can
    | with_reducible apply State.showPipes_can
    | with_reducible apply State.requalify_can
    | with_reducible apply State.fenceBlock_can
    | with_reducible apply State.returnCore_can
    | with_reducible apply State.showSha_can
    | with_reducible apply State.setPipe_can
    | split

theorem State.returnOne_can (s : State) (src : Source) (kind i : Nat) {Q : State} (h : Can Q s) : Can Q (State.returnOne s src kind i) := by
  unfold State.returnOne
  repeat' first
    | with_reducible assumption
    | (extract_lets +onlyGivenNames z; refine (fun (_ : Can Q z) => ?_) ?_; (on_goal 2 => (dsimp -zeta only [z]; clear z)); (on_goal 1 => rename' z => z'))
    | with_reducible apply Can.ite
    | with_reducible apply State.setBit_can
    | with_reducible apply State.raise_can
    | with_reducible apply State.logFault_can
    | with_reducible apply State.showUnits_can
    | with_reducible apply State.unitBack_can
    | with_reducible exact Can.with_ ‹_›

theorem State.returnPair_can (s : State) (src : Source) (kind i : Nat) {Q : State} (h : Can Q s) : Can Q (State.returnPair s src kind i) := by
  unfold State.returnPair
  repeat' first
    | with_reducible assumption
    | (extract_lets +onlyGivenNames z; refine (fun (_ : Can Q z) => ?_) ?_; (on_goal 2 => (dsimp -zeta only [z]; clear z)); (on_goal 1 => rename' z => z'))
    | with_reducible apply Can.ite
    | with_reducible apply State.returnOne_can

theorem State.fenceResult_can (s : State) (op kind i st reason : Nat) {Q : State} (h : Can Q s) : Can Q (State.fenceResult s op kind i st reason) := by
  unfold State.fenceResult
  repeat' first
    | with_reducible assumption
    | (extract_lets +onlyGivenNames z; rename' z => z')
    | with_reducible apply State.wr_can
    | with_reducible apply State.raise_can

theorem State.fenceCmd_can (s : State) (src : Source) (v : Word) {Q : State} (h : Can Q s) : Can Q (State.fenceCmd s src v) := by
  unfold State.fenceCmd
  repeat' first
    | with_reducible assumption
    | (extract_lets +onlyGivenNames z; rename' z => z')
    | with_reducible apply Can.ite
    | with_reducible apply State.fenceUnit_can
    | with_reducible apply State.fenceResult_can
    | with_reducible exact Can.with_ ‹_›

theorem State.selftestDone_can (s : State) (pass : Bool) {Q : State} (h : Can Q s) : Can Q (State.selftestDone s pass) := by
  unfold State.selftestDone
  repeat' first
    | with_reducible assumption
    | (extract_lets +onlyGivenNames z; refine (fun (_ : Can Q z) => ?_) ?_; (on_goal 2 => (dsimp -zeta only [z]; clear z)); (on_goal 1 => rename' z => z'))
    | with_reducible apply Can.ite
    | with_reducible apply State.returnPair_can
    | with_reducible apply State.fenceResult_can
    | with_reducible exact Can.with_ ‹_›
    | split

theorem State.drainPipe_can (s : State) (p : Nat) {Q : State} (h : Can Q s) : Can Q (State.drainPipe s p) := by
  unfold State.drainPipe
  repeat' first
    | with_reducible assumption
    | with_reducible apply Can.ite
    | with_reducible apply State.showPipes_can
    | with_reducible apply State.moveAway_can
    | with_reducible apply State.ucodeResult_can
    | with_reducible apply State.setPipe_can

theorem State.drainDone_can (s : State) (p : Nat) {Q : State} (h : Can Q s) : Can Q (State.drainDone s p) := by
  unfold State.drainDone
  repeat' first
    | with_reducible assumption
    | with_reducible apply Can.ite
    | with_reducible apply State.ucodeResult_can
    | with_reducible apply State.fenceUnit_can

theorem State.journalFirmware_can (s : State) (src : Source) (event target index : Nat) (digest : Bytes) {Q : State} (h : Can Q s) : Can Q (State.journalFirmware s src event target index digest) := by
  unfold State.journalFirmware
  repeat' first
    | with_reducible assumption
    | with_reducible apply State.journalize_can

theorem State.loadUcode_can (s : State) (p : Nat) (held : Bool) (x : FwImage) {Q : State} (h : Can Q s) : Can Q (State.loadUcode s p held x) := by
  unfold State.loadUcode
  repeat' first
    | with_reducible assumption
    | intro _
    | (extract_lets +onlyGivenNames z; refine (fun (_ : Can Q z) => ?_) ?_; (on_goal 2 => (dsimp -zeta only [z]; clear z)); (on_goal 1 => rename' z => z'))
    | with_reducible apply State.wr_can
    | with_reducible apply State.each_can
    | with_reducible apply State.journalFirmware_can

theorem State.reloadPipe_can (s : State) (p : Nat) (stage : Bool) {Q : State} (h : Can Q s) : Can Q (State.reloadPipe s p stage) := by
  unfold State.reloadPipe
  repeat' first
    | with_reducible assumption
    | with_reducible apply Can.ite
    | with_reducible apply State.ucodeResult_can
    | with_reducible apply State.setPipe_can
    | with_reducible apply State.loadUcode_can
    | split

theorem State.reloadDone_can (s : State) (p : Nat) (pass : Bool) {Q : State} (h : Can Q s) : Can Q (State.reloadDone s p pass) := by
  unfold State.reloadDone
  repeat' first
    | with_reducible assumption
    | (extract_lets +onlyGivenNames z; refine (fun (_ : Can Q z) => ?_) ?_; (on_goal 2 => (dsimp -zeta only [z]; clear z)); (on_goal 1 => rename' z => z'))
    | with_reducible apply Can.ite
    | with_reducible apply State.inc_can
    | with_reducible apply State.ucodeResult_can
    | with_reducible apply State.setPipe_can
    | with_reducible apply State.loadUcode_can

theorem State.ucodeWrite_can (s : State) (p : Nat) (v : Word) {Q : State} (h : Can Q s) : Can Q (State.ucodeWrite s p v) := by
  unfold State.ucodeWrite
  repeat' first
    | with_reducible assumption
    | intro _
    | (extract_lets +onlyGivenNames z; refine (fun (_ : Can Q z) => ?_) ?_; (on_goal 2 => (dsimp -zeta only [z]; clear z)); (on_goal 1 => rename' z => z'))
    | (extract_lets +onlyGivenNames z; rename' z => z')
    | with_reducible apply State.wr_can
    | with_reducible apply State.when_can
    | with_reducible apply State.drainPipe_can
    | with_reducible apply State.reloadPipe_can

end Sys2Proof.Machine
end

