-- ==== Sys2Proof/Laws/CanonFirmware.lean ====
section
/-!
SUPPORT. The canonical form of the sparse storage through every operation of Machine/Firmware.lean.
-/

set_option Elab.async false

namespace Sys2Proof.Machine

theorem State.setFw_can (s : State) (f : Fw → Fw) {Q : State} (h : Can Q s) : Can Q (State.setFw s f) := by
  unfold State.setFw
  repeat' first
    | with_reducible exact Can.with_ ‹_›

theorem State.fwWrite_can (s : State) (off : Nat) (d : Bytes) {Q : State} (h : Can Q s) : Can Q (State.fwWrite s off d) := by
  unfold State.fwWrite
  repeat' first
    | with_reducible assumption
    | with_reducible apply State.setFw_can

theorem State.regionWrite_can (s : State) (r off : Nat) (d : Bytes) {Q : State} (h : Can Q s) : Can Q (State.regionWrite s r off d) := by
  unfold State.regionWrite
  repeat' first
    | with_reducible assumption
    | intro _
    | with_reducible apply Can.ite
    | with_reducible apply State.when_can
    | with_reducible apply State.snapWrite_can
    | with_reducible apply State.checkHeader_can
    | with_reducible apply State.fwWrite_can

theorem State.setBad_can (s : State) (b : Nat) (bad : Bool) {Q : State} (h : Can Q s) : Can Q (State.setBad s b bad) := by
  unfold State.setBad
  repeat' first
    | with_reducible assumption
    | with_reducible apply State.setBit_can

theorem State.beginInstall_can (s : State) {Q : State} (h : Can Q s) : Can Q (State.beginInstall s) := by
  unfold State.beginInstall
  repeat' first
    | with_reducible assumption
    | with_reducible apply Can.ite
    | with_reducible apply State.setBad_can

theorem State.beginCheck_can (s : State) (o : FwOwner) {Q : State} (h : Can Q s) : Can Q (State.beginCheck s o) := by
  unfold State.beginCheck
  repeat' first
    | with_reducible assumption
    | with_reducible apply State.setFw_can
    | with_reducible apply State.beginInstall_can

theorem State.install_can (s : State) (src : Source) (flashOk : Bool) {Q : State} (h : Can Q s) : Can Q (State.install s src flashOk).2 := by
  unfold State.install
  repeat' first
    | with_reducible assumption
    | (extract_lets +onlyGivenNames z; refine (fun (_ : Can Q z) => ?_) ?_; (on_goal 2 => (dsimp -zeta only [z]; clear z)); (on_goal 1 => rename' z => z'))
    | (extract_lets +onlyGivenNames z; rename' z => z')
    | with_reducible apply Can.ite2
    | with_reducible apply State.setSide_can
    | with_reducible apply State.journalFirmware_can
    | with_reducible apply State.setFw_can
    | with_reducible apply State.setBad_can
    | with_reducible exact Can.with_ ‹_›

theorem State.install_pair (s : State) (src : Source) (flashOk : Bool) {u : State} {x : _} (hq : (State.install s src flashOk) = (x, u)) {Q : State} (h : Can Q s) : Can Q u := by
  have k := State.install_can s src flashOk h
  rw [hq] at k
  exact k

theorem State.endCheck_can (s : State) (src : Source) (flashOk : Bool) {Q : State} (h : Can Q s) : Can Q (State.endCheck s src flashOk).2 := by
  unfold State.endCheck
  repeat' first
    | with_reducible assumption
    | (extract_lets +onlyGivenNames z; refine (fun (_ : Can Q z.2) => ?_) ?_; (on_goal 2 => (dsimp -zeta only [z]; clear z)); (on_goal 1 => rename' z => z'))
    | (extract_lets +onlyGivenNames z; rename' z => z')
    | with_reducible apply Can.ite2
    | with_reducible apply State.journalFirmware_can
    | with_reducible apply State.setFw_can
    | with_reducible apply State.install_can

theorem State.endCheck_pair (s : State) (src : Source) (flashOk : Bool) {u : State} {x : _} (hq : (State.endCheck s src flashOk) = (x, u)) {Q : State} (h : Can Q s) : Can Q u := by
  have k := State.endCheck_can s src flashOk h
  rw [hq] at k
  exact k

theorem State.xfer_can (s : State) (n : Nat) (data : Bytes) (ok : Bool) {Q : State} (h : Can Q s) : Can Q (State.xfer s n data ok) := by
  unfold State.xfer
  repeat' first
    | with_reducible assumption
    | (extract_lets +onlyGivenNames z; refine (fun (_ : Can Q z) => ?_) ?_; (on_goal 2 => (dsimp -zeta only [z]; clear z)); (on_goal 1 => rename' z => z'))
    | (extract_lets +onlyGivenNames z; rename' z => z')
    | with_reducible apply Can.ite
    | with_reducible apply State.hostWrite_can
    | with_reducible apply State.endWork_can
    | with_reducible apply State.regionWrite_can
    | with_reducible apply State.beginCheck_can
    | (with_reducible refine State.startWork_pair _ _ (by assumption) ?_)
    | split

theorem State.xferChecked_can (s : State) (flashOk : Bool) {Q : State} (h : Can Q s) : Can Q (State.xferChecked s flashOk) := by
  unfold State.xferChecked
  repeat' first
    | with_reducible assumption
    | (extract_lets +onlyGivenNames z; refine (fun (_ : Can Q z.2) => ?_) ?_; (on_goal 2 => (dsimp -zeta only [z]; clear z)); (on_goal 1 => rename' z => z'))
    | with_reducible apply State.endWork_can
    | with_reducible apply State.endCheck_can
    | split

end Sys2Proof.Machine
end

