-- ==== Sys2Proof/Laws/CanonPtpSlave.lean ====
section
/-!
SUPPORT. The canonical form of the sparse storage through every operation of Machine/PtpSlave.lean.
-/

set_option Elab.async false

namespace Sys2Proof.Machine

theorem State.setSlave_can (s : State) (n : Nat) (f : PtpSlave → PtpSlave) {Q : State} (h : Can Q s) : Can Q (State.setSlave s n f) := by
  unfold State.setSlave
  repeat' first
    | (extract_lets +onlyGivenNames z; rename' z => z')
    | with_reducible exact Can.with_ ‹_›

theorem State.setSlv_can (s : State) (n st : Nat) {Q : State} (h : Can Q s) : Can Q (State.setSlv s n st) := by
  unfold State.setSlv
  repeat' first
    | with_reducible assumption
    | (extract_lets +onlyGivenNames z; refine (fun (_ : Can Q z) => ?_) ?_; (on_goal 2 => (dsimp -zeta only [z]; clear z)); (on_goal 1 => rename' z => z'))
    | (extract_lets +onlyGivenNames z; rename' z => z')
    | with_reducible apply Can.ite
    | with_reducible apply State.sfW_can
    | with_reducible apply State.raise_can
    | with_reducible apply State.lose_can

theorem State.slaveSignal_can (s : State) (n m : Nat) (tl : Bytes) {Q : State} (h : Can Q s) : Can Q (State.slaveSignal s n m tl) := by
  unfold State.slaveSignal
  repeat' first
    | with_reducible assumption
    | (extract_lets +onlyGivenNames z; rename' z => z')
    | with_reducible apply State.sendGeneral_can
    | with_reducible apply State.setSlave_can

theorem State.requestGrants_can (s : State) (n : Nat) {Q : State} (h : Can Q s) : Can Q (State.requestGrants s n) := by
  unfold State.requestGrants
  repeat' first
    | with_reducible assumption
    | intro _
    | (extract_lets +onlyGivenNames z; refine (fun (_ : Can Q z) => ?_) ?_; (on_goal 2 => (dsimp -zeta only [z]; clear z)); (on_goal 1 => rename' z => z'))
    | (extract_lets +onlyGivenNames z; rename' z => z')
    | with_reducible apply Can.ite
    | with_reducible apply State.each_can
    | with_reducible apply State.setSlave_can
    | with_reducible apply State.slaveSignal_can

theorem State.showMaster_can (s : State) (n m : Nat) (d : Bytes) {Q : State} (h : Can Q s) : Can Q (State.showMaster s n m d) := by
  unfold State.showMaster
  repeat' first
    | with_reducible assumption
    | (extract_lets +onlyGivenNames z; refine (fun (_ : Can Q z) => ?_) ?_; (on_goal 2 => (dsimp -zeta only [z]; clear z)); (on_goal 1 => rename' z => z'))
    | (extract_lets +onlyGivenNames z; rename' z => z')
    | with_reducible apply State.wr_can
    | with_reducible apply State.sfW_can
    | with_reducible apply State.setRef_can

theorem State.chooseMaster_can (s : State) (n : Nat) {Q : State} (h : Can Q s) : Can Q (State.chooseMaster s n) := by
  unfold State.chooseMaster
  repeat' first
    | with_reducible assumption
    | (extract_lets +onlyGivenNames z; refine (fun (_ : Can Q z) => ?_) ?_; (on_goal 2 => (dsimp -zeta only [z]; clear z)); (on_goal 1 => rename' z => z'))
    | (extract_lets +onlyGivenNames z; clear_value z; rename' z => z')
    | with_reducible apply Can.ite
    | with_reducible apply State.wr_can
    | with_reducible apply State.raise_can
    | with_reducible apply State.setSlave_can
    | with_reducible apply State.setSlv_can
    | with_reducible apply State.requestGrants_can
    | with_reducible apply State.showMaster_can
    | split

theorem State.slaveUtc_can (s : State) (n : Nat) (d : Bytes) {Q : State} (h : Can Q s) : Can Q (State.slaveUtc s n d) := by
  unfold State.slaveUtc
  repeat' first
    | with_reducible assumption
    | (extract_lets +onlyGivenNames z; rename' z => z')
    | with_reducible apply Can.ite
    | with_reducible apply State.raise_can
    | with_reducible apply State.learnLeap_can

theorem State.slaveAnnounce_can (s : State) (n : Nat) (sip d : Bytes) {Q : State} (h : Can Q s) : Can Q (State.slaveAnnounce s n sip d) := by
  unfold State.slaveAnnounce
  repeat' first
    | with_reducible assumption
    | (extract_lets +onlyGivenNames z; refine (fun (_ : Can Q z) => ?_) ?_; (on_goal 2 => (dsimp -zeta only [z]; clear z)); (on_goal 1 => rename' z => z'))
    | (extract_lets +onlyGivenNames z; rename' z => z')
    | with_reducible apply Can.ite
    | with_reducible apply State.setSlave_can
    | with_reducible apply State.showMaster_can
    | with_reducible apply State.chooseMaster_can
    | with_reducible apply State.slaveUtc_can
    | split

theorem State.slaveForward_can (s : State) (n : Nat) (fwd : Int) {Q : State} (h : Can Q s) : Can Q (State.slaveForward s n fwd) := by
  unfold State.slaveForward
  repeat' first
    | with_reducible assumption
    | with_reducible apply State.inc_can
    | with_reducible apply State.setSlave_can

theorem State.slaveSync_can (s : State) (n tRx : Nat) (d : Bytes) {Q : State} (h : Can Q s) : Can Q (State.slaveSync s n tRx d) := by
  unfold State.slaveSync
  repeat' first
    | with_reducible assumption
    | (extract_lets +onlyGivenNames z; rename' z => z')
    | with_reducible apply Can.ite
    | with_reducible apply State.setSlave_can
    | with_reducible apply State.slaveForward_can

theorem State.slaveFollowUp_can (s : State) (n : Nat) (d : Bytes) {Q : State} (h : Can Q s) : Can Q (State.slaveFollowUp s n d) := by
  unfold State.slaveFollowUp
  repeat' first
    | with_reducible assumption
    | with_reducible apply Can.ite
    | with_reducible apply State.slaveForward_can
    | split

theorem State.slaveDelayResp_can (s : State) (n : Nat) (d : Bytes) {Q : State} (h : Can Q s) : Can Q (State.slaveDelayResp s n d) := by
  unfold State.slaveDelayResp
  repeat' first
    | with_reducible assumption
    | (extract_lets +onlyGivenNames z; refine (fun (_ : Can Q z) => ?_) ?_; (on_goal 2 => (dsimp -zeta only [z]; clear z)); (on_goal 1 => rename' z => z'))
    | (extract_lets +onlyGivenNames z; rename' z => z')
    | with_reducible apply Can.ite
    | with_reducible apply State.setSlave_can
    | split

theorem State.slaveMessage_can (s : State) {Q : State} (h : Can Q s) : Can Q (State.slaveMessage s) := by
  unfold State.slaveMessage
  repeat' first
    | with_reducible assumption
    | (extract_lets +onlyGivenNames z; rename' z => z')
    | with_reducible apply Can.ite
    | with_reducible apply State.inc_can
    | (with_reducible refine State.takeClaim_some _ _ (by assumption) ?_)
    | with_reducible apply State.slaveAnnounce_can
    | with_reducible apply State.slaveSync_can
    | with_reducible apply State.slaveFollowUp_can
    | with_reducible apply State.slaveDelayResp_can
    | split

theorem State.annTimeout_can (s : State) (n : Nat) {Q : State} (h : Can Q s) : Can Q (State.annTimeout s n) := by
  unfold State.annTimeout
  repeat' first
    | with_reducible assumption
    | with_reducible apply Can.ite
    | with_reducible apply State.raise_can
    | with_reducible apply State.setSlave_can
    | with_reducible apply State.setSlv_can
    | split

theorem State.slaveLapse_can (s : State) (n : Nat) {Q : State} (h : Can Q s) : Can Q (State.slaveLapse s n) := by
  unfold State.slaveLapse
  repeat' first
    | with_reducible assumption
    | (extract_lets +onlyGivenNames z; refine (fun (_ : Can Q z) => ?_) ?_; (on_goal 2 => (dsimp -zeta only [z]; clear z)); (on_goal 1 => rename' z => z'))
    | (extract_lets +onlyGivenNames z; rename' z => z')
    | with_reducible apply Can.ite
    | with_reducible apply State.setSlave_can
    | with_reducible apply State.setSlv_can

theorem State.slaveRenew_can (s : State) (n : Nat) {Q : State} (h : Can Q s) : Can Q (State.slaveRenew s n) := by
  unfold State.slaveRenew
  repeat' first
    | with_reducible assumption
    | with_reducible apply State.requestGrants_can
    | with_reducible apply State.slaveLapse_can

theorem State.slaveGrant_can (s : State) (n m mt dur : Nat) {Q : State} (h : Can Q s) : Can Q (State.slaveGrant s n m mt dur) := by
  unfold State.slaveGrant
  repeat' first
    | with_reducible assumption
    | intro _
    | (extract_lets +onlyGivenNames z; refine (fun (_ : Can Q z) => ?_) ?_; (on_goal 2 => (dsimp -zeta only [z]; clear z)); (on_goal 1 => rename' z => z'))
    | with_reducible apply Can.ite
    | with_reducible apply State.when_can
    | with_reducible apply State.raise_can
    | with_reducible apply State.setSlave_can
    | with_reducible apply State.setSlv_can

theorem State.grantReceived_can (s : State) {Q : State} (h : Can Q s) : Can Q (State.grantReceived s) := by
  unfold State.grantReceived
  repeat' first
    | with_reducible assumption
    | intro _
    | with_reducible apply State.each_can
    | (with_reducible refine State.takeClaim_some _ _ (by assumption) ?_)
    | with_reducible apply State.slaveGrant_can
    | split

theorem State.cancelGrant_can (s : State) (i : Nat) (client port : Bytes) (mt : Nat) {Q : State} (h : Can Q s) : Can Q (State.cancelGrant s i client port mt) := by
  unfold State.cancelGrant
  repeat' first
    | with_reducible assumption
    | with_reducible apply Can.ite
    | with_reducible apply State.inc_can
    | with_reducible apply State.setCtx_can
    | split

theorem State.unicastCancel_can (s : State) {Q : State} (h : Can Q s) : Can Q (State.unicastCancel s) := by
  unfold State.unicastCancel
  repeat' first
    | with_reducible assumption
    | intro _
    | (extract_lets +onlyGivenNames z; refine (fun (_ : Can Q z) => ?_) ?_; (on_goal 2 => (dsimp -zeta only [z]; clear z)); (on_goal 1 => rename' z => z'))
    | (extract_lets +onlyGivenNames z; refine (fun (_ : Can Q z.2) => ?_) ?_; (on_goal 2 => (dsimp -zeta only [z]; clear z)); (on_goal 1 => rename' z => z'))
    | (extract_lets +onlyGivenNames z; rename' z => z')
    | with_reducible apply State.when_can
    | with_reducible apply State.each_can
    | with_reducible apply State.inc_can
    | with_reducible apply State.showCtxs_can
    | with_reducible apply State.armPtp_can
    | with_reducible apply State.sendSignal_can
    | with_reducible apply State.signalSeq_can
    | with_reducible apply State.setSlave_can
    | with_reducible apply State.setSlv_can
    | with_reducible apply State.slaveSignal_can
    | with_reducible apply State.cancelGrant_can
    | (with_reducible refine State.takeClaim_some _ _ (by assumption) ?_)
    | split

theorem State.slaveEvaluate_can (s : State) (n : Nat) {Q : State} (h : Can Q s) : Can Q (State.slaveEvaluate s n) := by
  unfold State.slaveEvaluate
  repeat' first
    | with_reducible assumption
    | (extract_lets +onlyGivenNames z; refine (fun (_ : Can Q z) => ?_) ?_; (on_goal 2 => (dsimp -zeta only [z]; clear z)); (on_goal 1 => rename' z => z'))
    | (extract_lets +onlyGivenNames z; rename' z => z')
    | with_reducible apply Can.ite
    | with_reducible apply State.wr_can
    | with_reducible apply State.deliver_can
    | with_reducible apply State.setSlave_can
    | with_reducible apply State.setSlv_can
    | with_reducible apply State.slaveLapse_can

theorem State.slaveRound_can (s : State) (n lo : Nat) {Q : State} (h : Can Q s) : Can Q (State.slaveRound s n lo) := by
  unfold State.slaveRound
  repeat' first
    | with_reducible assumption
    | (extract_lets +onlyGivenNames z; rename' z => z')
    | with_reducible apply Can.ite
    | with_reducible apply State.bookEvent_can
    | with_reducible apply State.setSlave_can
    | split

theorem State.ptpSync_can (s : State) {Q : State} (h : Can Q s) : Can Q (State.ptpSync s) := by
  unfold State.ptpSync
  repeat' first
    | with_reducible assumption
    | intro _
    | (extract_lets +onlyGivenNames z; rename' z => z')
    | with_reducible apply Can.ite
    | with_reducible apply State.fireDue_can
    | with_reducible apply State.syncRound_can
    | with_reducible apply State.slaveRound_can

theorem State.slaveReset_can (s : State) (n : Nat) {Q : State} (h : Can Q s) : Can Q (State.slaveReset s n) := by
  unfold State.slaveReset
  repeat' first
    | with_reducible assumption
    | (extract_lets +onlyGivenNames z; refine (fun (_ : Can Q z) => ?_) ?_; (on_goal 2 => (dsimp -zeta only [z]; clear z)); (on_goal 1 => rename' z => z'))
    | (extract_lets +onlyGivenNames z; rename' z => z')
    | with_reducible apply State.wr_can
    | with_reducible apply State.sfW_can
    | with_reducible apply State.setSlave_can
    | with_reducible apply State.setSlv_can
    | with_reducible apply State.requestGrants_can

theorem State.ptpStepped_can (s : State) (d : Int) {Q : State} (h : Can Q s) : Can Q (State.ptpStepped s d) := by
  unfold State.ptpStepped
  repeat' first
    | with_reducible assumption
    | intro _
    | (extract_lets +onlyGivenNames z; refine (fun (_ : Can Q z) => ?_) ?_; (on_goal 2 => (dsimp -zeta only [z]; clear z)); (on_goal 1 => rename' z => z'))
    | (extract_lets +onlyGivenNames z; rename' z => z')
    | with_reducible apply State.each_can
    | with_reducible apply State.setSlave_can
    | with_reducible exact Can.with_ ‹_›

theorem State.sendEsmc_can (s : State) (sl : Nat) (event : Bool) {Q : State} (h : Can Q s) : Can Q (State.sendEsmc s sl event) := by
  unfold State.sendEsmc
  repeat' first
    | with_reducible assumption
    | (extract_lets +onlyGivenNames z; rename' z => z')
    | with_reducible apply Can.ite
    | with_reducible apply State.queuePre_can
    | with_reducible exact Can.with_ ‹_›

theorem State.showQl_can (s : State) {Q : State} (h : Can Q s) : Can Q (State.showQl s) := by
  unfold State.showQl
  repeat' first
    | with_reducible assumption
    | (extract_lets +onlyGivenNames z; rename' z => z')
    | with_reducible apply Can.ite
    | with_reducible apply State.wr_can
    | with_reducible apply State.raise_can

theorem State.esmcTick_can (s : State) (second : Bool) {Q : State} (h : Can Q s) : Can Q (State.esmcTick s second) := by
  unfold State.esmcTick
  repeat' first
    | with_reducible assumption
    | intro _
    | (extract_lets +onlyGivenNames z; refine (fun (_ : Can Q z) => ?_) ?_; (on_goal 2 => (dsimp -zeta only [z]; clear z)); (on_goal 1 => rename' z => z'))
    | with_reducible apply Can.ite
    | with_reducible apply State.each_can
    | with_reducible apply State.sendEsmc_can
    | with_reducible apply State.showQl_can
    | split

theorem State.esmcInput_can (s : State) (x : Nat) (b : Bytes) (first : Bool) {Q : State} (h : Can Q s) : Can Q (State.esmcInput s x b first) := by
  unfold State.esmcInput
  repeat' first
    | with_reducible assumption
    | intro _
    | (extract_lets +onlyGivenNames z; refine (fun (_ : Can Q z) => ?_) ?_; (on_goal 2 => (dsimp -zeta only [z]; clear z)); (on_goal 1 => rename' z => z'))
    | (extract_lets +onlyGivenNames z; rename' z => z')
    | with_reducible apply Can.ite
    | with_reducible apply State.when_can
    | with_reducible apply State.inc_can
    | with_reducible apply State.setRef_can
    | with_reducible exact Can.with_ ‹_›

theorem State.esmcReceived_can (s : State) {Q : State} (h : Can Q s) : Can Q (State.esmcReceived s) := by
  unfold State.esmcReceived
  repeat' first
    | with_reducible assumption
    | intro _
    | (extract_lets +onlyGivenNames z; rename' z => z')
    | with_reducible apply Can.ite
    | with_reducible apply State.each_can
    | with_reducible apply State.inc_can
    | with_reducible apply State.esmcInput_can
    | (with_reducible refine State.takeClaim_some _ _ (by assumption) ?_)
    | split

theorem State.ptpLinkDown_can (s : State) (sl : Nat) {Q : State} (h : Can Q s) : Can Q (State.ptpLinkDown s sl) := by
  unfold State.ptpLinkDown
  repeat' first
    | with_reducible assumption
    | intro _
    | (extract_lets +onlyGivenNames z; refine (fun (_ : Can Q z) => ?_) ?_; (on_goal 2 => (dsimp -zeta only [z]; clear z)); (on_goal 1 => rename' z => z'))
    | with_reducible apply Can.ite
    | with_reducible apply State.each_can
    | with_reducible apply State.lose_can
    | with_reducible apply State.slaveReset_can

theorem State.ptpLinkUp_can (s : State) (sl : Nat) {Q : State} (h : Can Q s) : Can Q (State.ptpLinkUp s sl) := by
  unfold State.ptpLinkUp
  repeat' first
    | with_reducible assumption
    | intro _
    | with_reducible apply Can.ite
    | with_reducible apply State.each_can
    | with_reducible apply State.slaveReset_can

theorem State.ptpFrozen_can (s : State) {Q : State} (h : Can Q s) : Can Q (State.ptpFrozen s) := by
  unfold State.ptpFrozen
  repeat' first
    | with_reducible assumption
    | with_reducible apply State.setBit_can

theorem State.ptpParityFault_can (s : State) (a : Nat) {Q : State} (h : Can Q s) : Can Q (State.ptpParityFault s a) := by
  unfold State.ptpParityFault
  repeat' first
    | with_reducible assumption
    | intro _
    | (extract_lets +onlyGivenNames z; refine (fun (_ : Can Q z) => ?_) ?_; (on_goal 2 => (dsimp -zeta only [z]; clear z)); (on_goal 1 => rename' z => z'))
    | with_reducible apply Can.ite
    | with_reducible apply State.each_can
    | with_reducible apply State.raise_can
    | with_reducible apply State.lose_can
    | with_reducible apply State.showDataset_can
    | with_reducible apply State.armPtp_can
    | with_reducible apply State.slaveReset_can
    | with_reducible apply State.ptpFrozen_can

theorem State.applyPtpCfg_can (s : State) (old : Nat → Word) {Q : State} (h : Can Q s) : Can Q (State.applyPtpCfg s old) := by
  unfold State.applyPtpCfg
  repeat' first
    | with_reducible assumption
    | intro _
    | (extract_lets +onlyGivenNames z; refine (fun (_ : Can Q z) => ?_) ?_; (on_goal 2 => (dsimp -zeta only [z]; clear z)); (on_goal 1 => rename' z => z'))
    | (extract_lets +onlyGivenNames z; rename' z => z')
    | with_reducible apply Can.ite
    | with_reducible apply State.each_can
    | with_reducible apply State.setRef_can
    | with_reducible apply State.lose_can
    | with_reducible apply State.showDataset_can
    | with_reducible apply State.showCtxs_can
    | with_reducible apply State.armPtp_can
    | with_reducible apply State.cancelCtx_can
    | with_reducible apply State.slaveReset_can
    | with_reducible apply State.ptpFrozen_can

end Sys2Proof.Machine
end

