-- ==== Sys2Proof/Laws/CanonTailrace.lean ====
section
/-!
SUPPORT. The canonical form of the sparse storage through every operation of Machine/Tailrace.lean.
-/

set_option Elab.async false

namespace Sys2Proof.Machine

theorem State.compose_can (s : State) (sl : Nat) (a : Answer) (tTx : Nat) {Q : State} (h : Can Q s) : Can Q (State.compose s sl a tTx).2 := by
  unfold State.compose
  repeat' first
    | with_reducible assumption
    | (extract_lets +onlyGivenNames z; refine (fun (_ : Can Q z.2) => ?_) ?_; (on_goal 2 => (dsimp -zeta only [z]; clear z)); (on_goal 1 => rename' z => z'))
    | (extract_lets +onlyGivenNames z; rename' z => z')
    | with_reducible apply State.ntsPayload_can
    | split

theorem State.compose_pair (s : State) (sl : Nat) (a : Answer) (tTx : Nat) {u : State} {x : _} (hq : (State.compose s sl a tTx) = (x, u)) {Q : State} (h : Can Q s) : Can Q u := by
  have k := State.compose_can s sl a tTx h
  rw [hq] at k
  exact k

theorem State.stepAdjust_can (s : State) (r : Option Request) {Q : State} (h : Can Q s) : Can Q (State.stepAdjust s r).2 := by
  unfold State.stepAdjust
  repeat' first
    | with_reducible assumption
    | with_reducible apply Can.ite2
    | with_reducible apply State.inc_can
    | split

theorem State.stepAdjust_pair (s : State) (r : Option Request) {u : State} {x : _} (hq : (State.stepAdjust s r) = (x, u)) {Q : State} (h : Can Q s) : Can Q u := by
  have k := State.stepAdjust_can s r h
  rw [hq] at k
  exact k

theorem State.finalise_can (s : State) (sl : Nat) {Q : State} (h : Can Q s) : Can Q (State.finalise s sl) := by
  unfold State.finalise
  repeat' first
    | with_reducible assumption
    | (extract_lets +onlyGivenNames z; refine (fun (_ : Can Q z.2) => ?_) ?_; (on_goal 2 => (dsimp -zeta only [z]; clear z)); (on_goal 1 => rename' z => z'))
    | (extract_lets +onlyGivenNames z; rename' z => z')
    | with_reducible apply State.setLink_can
    | with_reducible apply State.compose_can
    | with_reducible apply State.stepAdjust_can
    | split

theorem State.syncSent_can (s : State) (sl i : Nat) (ctx : Option Nat) (addr : Addressing) (seq tTx : Nat) {Q : State} (h : Can Q s) : Can Q (State.syncSent s sl i ctx addr seq tTx) := by
  unfold State.syncSent
  repeat' first
    | with_reducible assumption
    | (extract_lets +onlyGivenNames z; refine (fun (_ : Can Q z) => ?_) ?_; (on_goal 2 => (dsimp -zeta only [z]; clear z)); (on_goal 1 => rename' z => z'))
    | (extract_lets +onlyGivenNames z; rename' z => z')
    | with_reducible apply Can.ite
    | with_reducible apply State.inc_can
    | with_reducible apply State.sendGeneral_can

theorem State.slotStart_can (s : State) (sl : Nat) {Q : State} (h : Can Q s) : Can Q (State.slotStart s sl) := by
  unfold State.slotStart
  repeat' first
    | with_reducible assumption
    | (extract_lets +onlyGivenNames z; refine (fun (_ : Can Q z) => ?_) ?_; (on_goal 2 => (dsimp -zeta only [z]; clear z)); (on_goal 1 => rename' z => z'))
    | with_reducible apply State.inc_can
    | with_reducible apply State.sampleSent_can
    | with_reducible apply State.setLink_can
    | with_reducible apply State.sendFrame_can
    | with_reducible apply State.setSlave_can
    | with_reducible apply State.syncSent_can
    | split

theorem State.portDown_can (s : State) (sl : Nat) {Q : State} (h : Can Q s) : Can Q (State.portDown s sl) := by
  unfold State.portDown
  repeat' first
    | with_reducible assumption
    | with_reducible apply State.linkDown_can
    | with_reducible apply State.ptpLinkDown_can

theorem State.portUp_can (s : State) (sl rxDyn txDyn : Nat) {Q : State} (h : Can Q s) : Can Q (State.portUp s sl rxDyn txDyn) := by
  unfold State.portUp
  repeat' first
    | with_reducible assumption
    | (extract_lets +onlyGivenNames z; refine (fun (_ : Can Q z) => ?_) ?_; (on_goal 2 => (dsimp -zeta only [z]; clear z)); (on_goal 1 => rename' z => z'))
    | with_reducible apply Can.ite
    | with_reducible apply State.linkComesUp_can
    | with_reducible apply State.ptpLinkUp_can

theorem State.portApplied_can (s : State) (c : Nat) (old : Nat → Word) {Q : State} (h : Can Q s) : Can Q (State.portApplied s c old) := by
  unfold State.portApplied
  repeat' first
    | with_reducible assumption
    | intro _
    | (extract_lets +onlyGivenNames z; refine (fun (_ : Can Q z) => ?_) ?_; (on_goal 2 => (dsimp -zeta only [z]; clear z)); (on_goal 1 => rename' z => z'))
    | with_reducible apply Can.ite
    | with_reducible apply State.each_can
    | with_reducible apply State.applyMacPort_can
    | with_reducible apply State.freeLinkCtxs_can
    | with_reducible apply State.portDown_can
    | with_reducible apply foldl_can

theorem State.squelchSynce_can (s : State) {Q : State} (h : Can Q s) : Can Q (State.squelchSynce s) := by
  unfold State.squelchSynce
  repeat' first
    | with_reducible assumption
    | intro _
    | with_reducible apply Can.ite
    | with_reducible apply State.each_can
    | with_reducible apply State.setLink_can
    | with_reducible apply State.showTransmitters_can
    | with_reducible apply State.portDown_can

theorem State.unsquelchSynce_can (s : State) {Q : State} (h : Can Q s) : Can Q (State.unsquelchSynce s) := by
  unfold State.unsquelchSynce
  repeat' first
    | with_reducible assumption
    | intro _
    | with_reducible apply State.each_can
    | with_reducible apply State.setLink_can
    | with_reducible apply State.showTransmitters_can

end Sys2Proof.Machine
end

