-- ==== Sys2Proof/Laws/CanonOutputs.lean ====
section
/-!
SUPPORT. The canonical form of the sparse storage through every operation of Machine/Outputs.lean.
-/

set_option Elab.async false

namespace Sys2Proof.Machine

theorem State.setOut_can (s : State) (k : Nat) (f : Output → Output) {Q : State} (h : Can Q s) : Can Q (State.setOut s k f) := by
  unfold State.setOut
  repeat' first
    | (extract_lets +onlyGivenNames z; rename' z => z')
    | with_reducible exact Can.with_ ‹_›

theorem State.setWave_can (s : State) (k hz : Nat) {Q : State} (h : Can Q s) : Can Q (State.setWave s k hz) := by
  unfold State.setWave
  repeat' first
    | with_reducible assumption
    | with_reducible apply Can.ite
    | with_reducible apply State.emit_can
    | with_reducible apply State.setOut_can

theorem State.placeEdge_can (s : State) (k base : Nat) {Q : State} (h : Can Q s) : Can Q (State.placeEdge s k base) := by
  unfold State.placeEdge
  repeat' first
    | with_reducible assumption
    | intro _
    | (extract_lets +onlyGivenNames z; refine (fun (_ : Can Q z) => ?_) ?_; (on_goal 2 => (dsimp -zeta only [z]; clear z)); (on_goal 1 => rename' z => z'))
    | (extract_lets +onlyGivenNames z; rename' z => z')
    | with_reducible apply Can.ite
    | with_reducible apply State.when_can
    | with_reducible apply State.emit_can
    | with_reducible apply State.setOut_can
    | with_reducible apply State.setWave_can
    | with_reducible exact Can.with_ ‹_›

theorem State.outEdge_can (s : State) (k : Nat) {Q : State} (h : Can Q s) : Can Q (State.outEdge s k) := by
  unfold State.outEdge
  repeat' first
    | with_reducible assumption
    | with_reducible apply State.fireEntry_can
    | with_reducible apply State.placeEdge_can
    | split

theorem State.pulseEnd_can (s : State) (k : Nat) {Q : State} (h : Can Q s) : Can Q (State.pulseEnd s k) := by
  unfold State.pulseEnd
  repeat' first
    | with_reducible assumption
    | with_reducible apply Can.ite
    | with_reducible apply State.emit_can
    | with_reducible apply State.setOut_can
    | split

theorem State.armOut_can (s : State) (k : Nat) {Q : State} (h : Can Q s) : Can Q (State.armOut s k) := by
  unfold State.armOut
  repeat' first
    | with_reducible assumption
    | intro _
    | with_reducible apply Can.ite
    | with_reducible apply State.when_can
    | with_reducible apply State.calDrop_can
    | with_reducible apply State.calOwn_can
    | with_reducible apply State.setWave_can

theorem State.armOuts_can (s : State) (old : Nat → Word) {Q : State} (h : Can Q s) : Can Q (State.armOuts s old) := by
  unfold State.armOuts
  repeat' first
    | with_reducible assumption
    | intro _
    | with_reducible apply State.when_can
    | with_reducible apply State.each_can
    | with_reducible apply State.setWave_can
    | with_reducible apply State.armOut_can

theorem State.squelchWaves_can (s : State) {Q : State} (h : Can Q s) : Can Q (State.squelchWaves s) := by
  unfold State.squelchWaves
  repeat' first
    | with_reducible assumption
    | intro _
    | with_reducible apply Can.ite
    | with_reducible apply State.each_can
    | with_reducible apply State.setOut_can
    | with_reducible apply State.setWave_can

theorem State.squelchEnds_can (s : State) {Q : State} (h : Can Q s) : Can Q (State.squelchEnds s) := by
  unfold State.squelchEnds
  repeat' first
    | with_reducible assumption
    | intro _
    | with_reducible apply State.when_can
    | with_reducible apply State.unsquelchSynce_can

theorem State.todRx_can (s : State) (text : Bytes) (framing : Bool) {Q : State} (h : Can Q s) : Can Q (State.todRx s text framing) := by
  unfold State.todRx
  repeat' first
    | with_reducible assumption
    | (extract_lets +onlyGivenNames z; refine (fun (_ : Can Q z) => ?_) ?_; (on_goal 2 => (dsimp -zeta only [z]; clear z)); (on_goal 1 => rename' z => z'))
    | (extract_lets +onlyGivenNames z; rename' z => z')
    | with_reducible apply State.sfW_can
    | with_reducible apply State.setBit_can
    | with_reducible apply State.inc_can
    | with_reducible apply State.todValid_can
    | with_reducible exact Can.with_ ‹_›
    | split

theorem State.todOut_can (s : State) {Q : State} (h : Can Q s) : Can Q (State.todOut s) := by
  unfold State.todOut
  repeat' first
    | with_reducible assumption
    | (extract_lets +onlyGivenNames z; rename' z => z')
    | with_reducible apply Can.ite
    | with_reducible apply State.inc_can
    | with_reducible apply State.emit_can
    | split

theorem State.setContact_can (s : State) (c : Nat) (closed : Bool) {Q : State} (h : Can Q s) : Can Q (State.setContact s c closed) := by
  unfold State.setContact
  repeat' first
    | with_reducible assumption
    | with_reducible apply Can.ite
    | with_reducible apply State.setBit_can
    | with_reducible apply State.emit_can

theorem State.setCloseAt_can (s : State) (c : Nat) (e : Option Nat) {Q : State} (h : Can Q s) : Can Q (State.setCloseAt s c e) := by
  unfold State.setCloseAt
  repeat' first
    | (extract_lets +onlyGivenNames z; rename' z => z')
    | with_reducible exact Can.with_ ‹_›

theorem State.examine_can (s : State) (c : Nat) {Q : State} (h : Can Q s) : Can Q (State.examine s c) := by
  unfold State.examine
  repeat' first
    | with_reducible assumption
    | with_reducible apply Can.ite
    | with_reducible apply State.setContact_can
    | with_reducible apply State.setCloseAt_can

theorem State.alarmChange_can (s : State) {Q : State} (h : Can Q s) : Can Q (State.alarmChange s) := by
  unfold State.alarmChange
  repeat' first
    | with_reducible assumption
    | with_reducible apply State.examine_can

theorem State.alarmClose_can (s : State) (c : Nat) {Q : State} (h : Can Q s) : Can Q (State.alarmClose s c) := by
  unfold State.alarmClose
  repeat' first
    | with_reducible assumption
    | with_reducible apply Can.ite
    | with_reducible apply State.setContact_can
    | with_reducible apply State.setCloseAt_can
    | split

theorem State.noSelection_can (s : State) {Q : State} (h : Can Q s) : Can Q (State.noSelection s) := by
  unfold State.noSelection
  repeat' first
    | with_reducible assumption
    | (extract_lets +onlyGivenNames z; rename' z => z')
    | with_reducible apply Can.ite
    | with_reducible apply State.alarmChange_can
    | with_reducible exact Can.with_ ‹_›
    | split

theorem State.undriven_can (s : State) {Q : State} (h : Can Q s) : Can Q (State.undriven s) := by
  unfold State.undriven
  repeat' first
    | with_reducible assumption
    | (extract_lets +onlyGivenNames z; refine (fun (_ : Can Q z) => ?_) ?_; (on_goal 2 => (dsimp -zeta only [z]; clear z)); (on_goal 1 => rename' z => z'))
    | (extract_lets +onlyGivenNames z; rename' z => z')
    | with_reducible apply State.setContact_can
    | with_reducible exact Can.with_ ‹_›

end Sys2Proof.Machine
end

