-- ==== Sys2Proof/Laws/CanonSessions.lean ====
section
/-!
SUPPORT. The canonical form of the sparse storage through every operation of Machine/Sessions.lean.
-/

set_option Elab.async false

namespace Sys2Proof.Machine

theorem State.setSession_can (s : State) (i : Nat) (f : Option Session → Option Session) {Q : State} (h : Can Q s) : Can Q (State.setSession s i f) := by
  unfold State.setSession
  repeat' first
    | (extract_lets +onlyGivenNames z; rename' z => z')
    | with_reducible exact Can.with_ ‹_›

theorem State.journalSession_can (s : State) (i ended cause : Nat) (x : Session) {Q : State} (h : Can Q s) : Can Q (State.journalSession s i ended cause x) := by
  unfold State.journalSession
  repeat' first
    | with_reducible assumption
    | with_reducible apply State.journalBlock_can

theorem State.endSession_can (s : State) (i cause : Nat) {Q : State} (h : Can Q s) : Can Q (State.endSession s i cause) := by
  unfold State.endSession
  repeat' first
    | with_reducible assumption
    | (extract_lets +onlyGivenNames z; refine (fun (_ : Can Q z) => ?_) ?_; (on_goal 2 => (dsimp -zeta only [z]; clear z)); (on_goal 1 => rename' z => z'))
    | (extract_lets +onlyGivenNames z; rename' z => z')
    | with_reducible apply State.journalBlock_can
    | with_reducible apply State.setView_can
    | with_reducible apply State.setSession_can
    | with_reducible apply State.journalSession_can
    | with_reducible exact Can.with_ ‹_›
    | split

theorem State.openSession_can (s : State) (i : Nat) (fingerprint : Bytes) {Q : State} (h : Can Q s) : Can Q (State.openSession s i fingerprint) := by
  unfold State.openSession
  repeat' first
    | with_reducible assumption
    | (extract_lets +onlyGivenNames z; rename' z => z')
    | with_reducible apply State.setView_can
    | with_reducible apply State.setSession_can
    | with_reducible apply State.journalSession_can

theorem State.endSessions_can (s : State) (cause : Nat) {Q : State} (h : Can Q s) : Can Q (State.endSessions s cause) := by
  unfold State.endSessions
  repeat' first
    | with_reducible assumption
    | intro _
    | with_reducible apply State.each_can
    | with_reducible apply State.endSession_can

end Sys2Proof.Machine
end

