-- ==== Sys2Proof/Laws/CanonDomains.lean ====
section
/-!
SUPPORT. The canonical form of the sparse storage through every operation of Machine/Domains.lean.
-/

set_option Elab.async false

namespace Sys2Proof.Machine

theorem State.showSense_can (s : State) (m : PowerSense) {Q : State} (h : Can Q s) : Can Q (State.showSense s m) := by
  unfold State.showSense
  repeat' first
    | with_reducible assumption
    | (extract_lets +onlyGivenNames z; refine (fun (_ : Can Q z) => ?_) ?_; (on_goal 2 => (dsimp -zeta only [z]; clear z)); (on_goal 1 => rename' z => z'))
    | (extract_lets +onlyGivenNames z; rename' z => z')
    | with_reducible apply Can.ite
    | with_reducible apply State.sfW_can
    | with_reducible apply State.setBit_can
    | with_reducible exact Can.with_ ‹_›

theorem State.inputQualified_can (s : State) (i : Nat) {Q : State} (h : Can Q s) : Can Q (State.inputQualified s i) := by
  unfold State.inputQualified
  repeat' first
    | with_reducible assumption
    | with_reducible apply Can.ite
    | with_reducible apply State.setBit_can
    | with_reducible apply State.raise_can

theorem State.inputLost_can (s : State) (i : Nat) {Q : State} (h : Can Q s) : Can Q (State.inputLost s i) := by
  unfold State.inputLost
  repeat' first
    | with_reducible assumption
    | with_reducible apply Can.ite
    | with_reducible apply State.setBit_can
    | with_reducible apply State.inc_can
    | with_reducible apply State.raise_can

theorem State.thermReached_can (s : State) (m : PowerSense) {Q : State} (h : Can Q s) : Can Q (State.thermReached s m) := by
  unfold State.thermReached
  repeat' first
    | with_reducible assumption
    | (extract_lets +onlyGivenNames z; refine (fun (_ : Can Q z) => ?_) ?_; (on_goal 2 => (dsimp -zeta only [z]; clear z)); (on_goal 1 => rename' z => z'))
    | (extract_lets +onlyGivenNames z; rename' z => z')
    | with_reducible apply Can.ite
    | with_reducible apply State.inc_can
    | with_reducible apply State.raise_can
    | with_reducible apply State.showSense_can

theorem State.setDomain_can (s : State) (d : Nat) (on : Bool) {Q : State} (h : Can Q s) : Can Q (State.setDomain s d on) := by
  unfold State.setDomain
  repeat' first
    | with_reducible assumption
    | with_reducible apply State.setBit_can

theorem State.sideOff_can (s : State) (a : Nat) {Q : State} (h : Can Q s) : Can Q (State.sideOff s a) := by
  unfold State.sideOff
  repeat' first
    | with_reducible assumption
    | with_reducible apply State.lose_can
    | with_reducible apply State.stopSide_can

theorem State.domainOff_can (s : State) (d : Nat) {Q : State} (h : Can Q s) : Can Q (State.domainOff s d) := by
  unfold State.domainOff
  repeat' first
    | with_reducible assumption
    | intro _
    | (extract_lets +onlyGivenNames z; refine (fun (_ : Can Q z) => ?_) ?_; (on_goal 2 => (dsimp -zeta only [z]; clear z)); (on_goal 1 => rename' z => z'))
    | (extract_lets +onlyGivenNames z; rename' z => z')
    | with_reducible apply State.setBit_can
    | with_reducible apply State.each_can
    | with_reducible apply State.raise_can
    | with_reducible apply State.lose_can
    | with_reducible apply State.casOff_can
    | with_reducible apply State.dropLanes_can
    | with_reducible apply State.setDomain_can
    | with_reducible apply State.sideOff_can
    | with_reducible exact Can.with_ ‹_›
    | split

theorem State.sideBack_can (s : State) (a : Nat) {Q : State} (h : Can Q s) : Can Q (State.sideBack s a) := by
  unfold State.sideBack
  repeat' first
    | with_reducible assumption
    | with_reducible apply Can.ite
    | with_reducible apply State.setSide_can

theorem State.domainBack_can (s : State) (d : Nat) {Q : State} (h : Can Q s) : Can Q (State.domainBack s d) := by
  unfold State.domainBack
  repeat' first
    | with_reducible assumption
    | (extract_lets +onlyGivenNames z; refine (fun (_ : Can Q z) => ?_) ?_; (on_goal 2 => (dsimp -zeta only [z]; clear z)); (on_goal 1 => rename' z => z'))
    | (extract_lets +onlyGivenNames z; rename' z => z')
    | with_reducible apply State.raise_can
    | with_reducible apply State.choosePosition_can
    | with_reducible apply State.armTick_can
    | with_reducible apply State.buildTables_can
    | with_reducible apply State.armProgs_can
    | with_reducible apply State.setDomain_can
    | with_reducible apply State.sideBack_can
    | with_reducible exact Can.with_ ‹_›
    | split

theorem State.domainTestFailed_can (s : State) (kind i : Nat) {Q : State} (h : Can Q s) : Can Q (State.domainTestFailed s kind i) := by
  unfold State.domainTestFailed
  repeat' first
    | with_reducible assumption
    | with_reducible apply Can.ite
    | with_reducible apply State.fenceUnit_can

theorem State.switchDomains_can (s : State) {Q : State} (h : Can Q s) : Can Q (State.switchDomains s) := by
  unfold State.switchDomains
  repeat' first
    | with_reducible assumption
    | intro _
    | with_reducible apply Can.ite
    | with_reducible apply State.each_can
    | with_reducible apply State.domainOff_can
    | with_reducible apply State.domainBack_can

theorem State.pwrFrozen_can (s : State) {Q : State} (h : Can Q s) : Can Q (State.pwrFrozen s) := by
  unfold State.pwrFrozen
  repeat' first
    | with_reducible assumption
    | (extract_lets +onlyGivenNames z; rename' z => z')
    | with_reducible apply State.setBit_can

theorem State.applyPwrCfg_can (s : State) (old : Nat → Word) {Q : State} (h : Can Q s) : Can Q (State.applyPwrCfg s old) := by
  unfold State.applyPwrCfg
  repeat' first
    | with_reducible assumption
    | with_reducible apply State.armOuts_can
    | with_reducible apply State.alarmChange_can
    | with_reducible apply State.switchDomains_can
    | with_reducible apply State.pwrFrozen_can

theorem State.pwrParityFault_can (s : State) {Q : State} (h : Can Q s) : Can Q (State.pwrParityFault s) := by
  unfold State.pwrParityFault
  repeat' first
    | with_reducible assumption
    | intro _
    | (extract_lets +onlyGivenNames z; refine (fun (_ : Can Q z) => ?_) ?_; (on_goal 2 => (dsimp -zeta only [z]; clear z)); (on_goal 1 => rename' z => z'))
    | with_reducible apply Can.ite
    | with_reducible apply State.each_can
    | with_reducible apply State.raise_can
    | with_reducible apply State.armOut_can
    | with_reducible apply State.alarmChange_can
    | with_reducible apply State.switchDomains_can
    | with_reducible apply State.pwrFrozen_can

theorem State.countAttempt_can (s : State) (n : Nat) {Q : State} (h : Can Q s) : Can Q (State.countAttempt s n) := by
  unfold State.countAttempt
  repeat' first
    | with_reducible assumption
    | (extract_lets +onlyGivenNames z; rename' z => z')
    | with_reducible apply State.sfW_can

theorem State.stepFailed_can (s : State) (n code : Nat) {Q : State} (h : Can Q s) : Can Q (State.stepFailed s n code) := by
  unfold State.stepFailed
  repeat' first
    | with_reducible assumption
    | (extract_lets +onlyGivenNames z; rename' z => z')
    | with_reducible apply State.wr_can
    | with_reducible apply State.sfW_can
    | with_reducible apply State.raise_can

theorem State.stepPassed_can (s : State) (n : Nat) {Q : State} (h : Can Q s) : Can Q (State.stepPassed s n) := by
  unfold State.stepPassed
  repeat' first
    | with_reducible assumption
    | with_reducible apply State.sfW_can

theorem State.flashBootRecord_can (s : State) {Q : State} (h : Can Q s) : Can Q (State.flashBootRecord s) := by
  unfold State.flashBootRecord
  repeat' first
    | (extract_lets +onlyGivenNames z; rename' z => z')
    | with_reducible exact Can.with_ ‹_›

theorem State.runBank_can (s : State) (b : Nat) {Q : State} (h : Can Q s) : Can Q (State.runBank s b) := by
  unfold State.runBank
  repeat' first
    | with_reducible assumption
    | (extract_lets +onlyGivenNames z; refine (fun (_ : Can Q z) => ?_) ?_; (on_goal 2 => (dsimp -zeta only [z]; clear z)); (on_goal 1 => rename' z => z'))
    | (extract_lets +onlyGivenNames z; rename' z => z')
    | with_reducible apply State.sfW_can
    | with_reducible apply State.stepPassed_can
    | with_reducible exact Can.with_ ‹_›

theorem State.bankFails_can (s : State) (b code : Nat) {Q : State} (h : Can Q s) : Can Q (State.bankFails s b code) := by
  unfold State.bankFails
  repeat' first
    | with_reducible assumption
    | with_reducible apply State.setBad_can
    | with_reducible apply State.stepFailed_can

theorem State.bankFallback_can (s : State) (b : Nat) {Q : State} (h : Can Q s) : Can Q (State.bankFallback s b) := by
  unfold State.bankFallback
  repeat' first
    | with_reducible assumption
    | with_reducible apply State.raise_can
    | with_reducible apply State.journalFirmware_can

theorem State.mgmtBegin_can (s : State) (cause : Nat) {Q : State} (h : Can Q s) : Can Q (State.mgmtBegin s cause) := by
  unfold State.mgmtBegin
  repeat' first
    | with_reducible assumption
    | intro _
    | (extract_lets +onlyGivenNames z; refine (fun (_ : Can Q z) => ?_) ?_; (on_goal 2 => (dsimp -zeta only [z]; clear z)); (on_goal 1 => rename' z => z'))
    | (extract_lets +onlyGivenNames z; rename' z => z')
    | with_reducible apply State.sfW_can
    | with_reducible apply State.when_can
    | with_reducible apply State.setBad_can
    | with_reducible apply State.endSessions_can
    | with_reducible exact Can.with_ ‹_›

theorem State.mgmtEnd_can (s : State) (ok : List Bool) {Q : State} (h : Can Q s) : Can Q (State.mgmtEnd s ok) := by
  unfold State.mgmtEnd
  repeat' first
    | with_reducible assumption
    | (extract_lets +onlyGivenNames z; refine (fun (_ : Can Q z) => ?_) ?_; (on_goal 2 => (dsimp -zeta only [z]; clear z)); (on_goal 1 => rename' z => z'))
    | (extract_lets +onlyGivenNames z; rename' z => z')
    | with_reducible apply Can.ite
    | with_reducible apply State.raise_can
    | with_reducible apply State.journalFirmware_can
    | with_reducible apply State.countAttempt_can
    | with_reducible apply State.runBank_can
    | with_reducible apply State.bankFails_can
    | with_reducible apply State.bankFallback_can
    | with_reducible exact Can.with_ ‹_›
    | split

theorem State.applyBootCfg_can (s : State) (old : Nat → Word) {Q : State} (h : Can Q s) : Can Q (State.applyBootCfg s old) := by
  unfold State.applyBootCfg
  repeat' first
    | with_reducible assumption
    | (extract_lets +onlyGivenNames z; refine (fun (_ : Can Q z) => ?_) ?_; (on_goal 2 => (dsimp -zeta only [z]; clear z)); (on_goal 1 => rename' z => z'))
    | (extract_lets +onlyGivenNames z; rename' z => z')
    | with_reducible apply Can.ite
    | with_reducible apply State.setBit_can
    | with_reducible apply State.mgmtBegin_can

theorem State.bootParityFault_can (s : State) {Q : State} (h : Can Q s) : Can Q (State.bootParityFault s) := by
  unfold State.bootParityFault
  repeat' first
    | with_reducible assumption
    | with_reducible apply State.setBit_can
    | with_reducible apply State.raise_can

end Sys2Proof.Machine
end

