-- ==== Sys2Proof/Laws/CanonSluice.lean ====
section
/-!
SUPPORT. The canonical form of the sparse storage through every operation of Machine/Sluice.lean.
-/

set_option Elab.async false

namespace Sys2Proof.Machine

theorem State.applyHook_can (s : State) (g : Nat) (b : Before) (atNs : Nat) {Q : State} (h : Can Q s) : Can Q (State.applyHook s g b atNs) := by
  unfold State.applyHook
  repeat' first
    | with_reducible assumption
    | with_reducible apply State.applyTscCal_can
    | with_reducible apply State.applyTscLeap_can
    | with_reducible apply State.applyTscCtl_can
    | with_reducible apply State.applyTscStep_can
    | with_reducible apply State.applyMacFlow_can
    | with_reducible apply State.applyMacCal_can
    | with_reducible apply State.applyHrcAddr_can
    | with_reducible apply State.applyHrcCfg_can
    | with_reducible apply State.applyHrcMap_can
    | with_reducible apply State.applyHrcQuery_can
    | with_reducible apply State.applyRefCfg_can
    | with_reducible apply State.applySvpProf_can
    | with_reducible apply State.applyNtsCfg_can
    | with_reducible apply State.applyHolCfg_can
    | with_reducible apply State.applyPtpCfg_can
    | with_reducible apply State.portApplied_can
    | with_reducible apply State.applyCmacPort_can
    | with_reducible apply State.applyCmacCal_can
    | with_reducible apply State.applyCasCfg_can
    | with_reducible apply State.applyGnsCfg_can
    | with_reducible apply State.applyGnsCmd_can
    | with_reducible apply State.pkeFrozen_can
    | with_reducible apply State.applyRcpCfg_can
    | with_reducible apply State.applyTtuCh_can
    | with_reducible apply State.applyTtuProg_can
    | with_reducible apply State.applyHifRing_can
    | with_reducible apply State.applyHifCfg_can
    | with_reducible apply State.applyPwrCfg_can
    | with_reducible apply State.applyBootCfg_can
    | with_reducible apply State.applyTalCfg_can
    | with_reducible apply State.applyTalSample_can
    | with_reducible apply State.applyCasOp_can
    | split

theorem State.refuseHook_can (s : State) (g : Nat) (w : Nat → Word) (reason : Nat) {Q : State} (h : Can Q s) : Can Q (State.refuseHook s g w reason) := by
  unfold State.refuseHook
  repeat' first
    | with_reducible assumption
    | with_reducible apply State.refuseTscCal_can
    | with_reducible apply State.refuseGnsCmd_can
    | split

theorem State.showSluice_can (s : State) {Q : State} (h : Can Q s) : Can Q (State.showSluice s) := by
  unfold State.showSluice
  repeat' first
    | with_reducible assumption
    | (extract_lets +onlyGivenNames z; refine (fun (_ : Can Q z) => ?_) ?_; (on_goal 2 => (dsimp -zeta only [z]; clear z)); (on_goal 1 => rename' z => z'))
    | (extract_lets +onlyGivenNames z; rename' z => z')
    | with_reducible apply State.wr_can
    | with_reducible apply State.sfW_can

theorem State.sluEntries_can (s : State) {Q : State} (h : Can Q s) : Can Q (State.sluEntries s) := by
  unfold State.sluEntries
  repeat' first
    | with_reducible assumption
    | intro _
    | (extract_lets +onlyGivenNames z; refine (fun (_ : Can Q z) => ?_) ?_; (on_goal 2 => (dsimp -zeta only [z]; clear z)); (on_goal 1 => rename' z => z'))
    | (extract_lets +onlyGivenNames z; rename' z => z')
    | with_reducible apply State.each_can
    | with_reducible apply State.calFree_can
    | with_reducible apply State.calNew_can

theorem State.sluChanged_can (s : State) {Q : State} (h : Can Q s) : Can Q (State.sluChanged s) := by
  unfold State.sluChanged
  repeat' first
    | with_reducible assumption
    | with_reducible apply State.showSluice_can
    | with_reducible apply State.sluEntries_can

theorem State.setResult_can (s : State) (g result reason : Nat) {Q : State} (h : Can Q s) : Can Q (State.setResult s g result reason) := by
  unfold State.setResult
  repeat' first
    | with_reducible assumption
    | (extract_lets +onlyGivenNames z; rename' z => z')
    | with_reducible apply State.sfW_can

theorem State.commitOutcome_can (s : State) (g : Nat) (src : Source) (result reason : Nat) (changes : List (Nat × Word × Word)) {Q : State} (h : Can Q s) : Can Q (State.commitOutcome s g src result reason changes) := by
  unfold State.commitOutcome
  repeat' first
    | with_reducible assumption
    | (extract_lets +onlyGivenNames z; refine (fun (_ : Can Q z) => ?_) ?_; (on_goal 2 => (dsimp -zeta only [z]; clear z)); (on_goal 1 => rename' z => z'))
    | with_reducible apply Can.ite
    | with_reducible apply State.inc_can
    | with_reducible apply State.raise_can
    | with_reducible apply State.journalBlock_can
    | with_reducible apply State.setResult_can

theorem State.dropPending_can (s : State) (g result : Nat) {Q : State} (h : Can Q s) : Can Q (State.dropPending s g result) := by
  unfold State.dropPending
  repeat' first
    | with_reducible assumption
    | (extract_lets +onlyGivenNames z; refine (fun (_ : Can Q z) => ?_) ?_; (on_goal 2 => (dsimp -zeta only [z]; clear z)); (on_goal 1 => rename' z => z'))
    | with_reducible apply Can.ite
    | with_reducible apply State.setBit_can
    | with_reducible apply State.setGroup_can
    | with_reducible apply State.commitOutcome_can
    | split

theorem State.installWords_can (s : State) (g : Nat) (w : Nat → Word) {Q : State} (h : Can Q s) : Can Q (State.installWords s g w) := by
  unfold State.installWords
  repeat' first
    | with_reducible assumption
    | intro _
    | (extract_lets +onlyGivenNames z; refine (fun (_ : Can Q z) => ?_) ?_; (on_goal 2 => (dsimp -zeta only [z]; clear z)); (on_goal 1 => rename' z => z'))
    | with_reducible apply State.wr_can
    | with_reducible apply State.setBit_can
    | with_reducible apply State.each_can
    | with_reducible apply State.setGroup_can

theorem State.takeHeld_can (s : State) {Q : State} (h : Can Q s) : Can Q (State.takeHeld s) := by
  unfold State.takeHeld
  repeat' first
    | with_reducible assumption
    | intro _
    | (extract_lets +onlyGivenNames z; rename' z => z')
    | with_reducible apply State.each_can
    | with_reducible apply State.applyHook_can
    | with_reducible exact Can.with_ ‹_›

theorem State.takeGroup_can (s : State) (g : Nat) (w : Nat → Word) (atNs : Nat) {Q : State} (h : Can Q s) : Can Q (State.takeGroup s g w atNs) := by
  unfold State.takeGroup
  repeat' first
    | with_reducible assumption
    | (extract_lets +onlyGivenNames z; refine (fun (_ : Can Q z) => ?_) ?_; (on_goal 2 => (dsimp -zeta only [z]; clear z)); (on_goal 1 => rename' z => z'))
    | (extract_lets +onlyGivenNames z; rename' z => z')
    | with_reducible apply Can.ite
    | with_reducible apply State.alarmChange_can
    | with_reducible apply State.applyHook_can
    | with_reducible apply State.installWords_can
    | with_reducible apply State.takeHeld_can
    | with_reducible exact Can.with_ ‹_›

theorem State.reachBoundary_can (s : State) (g : Nat) (atNs : Nat) {Q : State} (h : Can Q s) : Can Q (State.reachBoundary s g atNs) := by
  unfold State.reachBoundary
  repeat' first
    | with_reducible assumption
    | (extract_lets +onlyGivenNames z; refine (fun (_ : Can Q z) => ?_) ?_; (on_goal 2 => (dsimp -zeta only [z]; clear z)); (on_goal 1 => rename' z => z'))
    | (extract_lets +onlyGivenNames z; clear_value z; rename' z => z')
    | with_reducible apply Can.ite
    | with_reducible apply State.setBit_can
    | with_reducible apply State.setGroup_can
    | with_reducible apply State.refuseHook_can
    | with_reducible apply State.sluChanged_can
    | with_reducible apply State.commitOutcome_can
    | with_reducible apply State.takeGroup_can
    | split

theorem State.reachNow_can (s : State) (g : Nat) (atNs : Nat) {Q : State} (h : Can Q s) : Can Q (State.reachNow s g atNs) := by
  unfold State.reachNow
  repeat' first
    | with_reducible assumption
    | (extract_lets +onlyGivenNames z; refine (fun (_ : Can Q z) => ?_) ?_; (on_goal 2 => (dsimp -zeta only [z]; clear z)); (on_goal 1 => rename' z => z'))
    | with_reducible apply Can.ite
    | with_reducible apply State.setBit_can
    | with_reducible apply State.setGroup_can
    | with_reducible apply State.reachBoundary_can

theorem State.addrApply_can (s : State) {Q : State} (h : Can Q s) : Can Q (State.addrApply s) := by
  unfold State.addrApply
  repeat' first
    | with_reducible assumption
    | with_reducible apply Can.ite
    | with_reducible apply State.reachBoundary_can
    | split

theorem State.flowBoundary_can (s : State) (c : Nat) {Q : State} (h : Can Q s) : Can Q (State.flowBoundary s c) := by
  unfold State.flowBoundary
  repeat' first
    | with_reducible assumption
    | (extract_lets +onlyGivenNames z; rename' z => z')
    | with_reducible apply Can.ite
    | with_reducible apply State.reachBoundary_can
    | split

theorem State.settleFlow_can (s : State) {Q : State} (h : Can Q s) : Can Q (State.settleFlow s) := by
  unfold State.settleFlow
  repeat' first
    | with_reducible assumption
    | intro _
    | (extract_lets +onlyGivenNames z; refine (fun (_ : Can Q z) => ?_) ?_; (on_goal 2 => (dsimp -zeta only [z]; clear z)); (on_goal 1 => rename' z => z'))
    | (extract_lets +onlyGivenNames z; rename' z => z')
    | with_reducible apply Can.ite
    | with_reducible apply State.each_can
    | with_reducible apply State.flowAdopt_can
    | with_reducible apply State.flowBoundary_can

theorem State.flowPoint_can (s : State) (sl dir : Nat) {Q : State} (h : Can Q s) : Can Q (State.flowPoint s sl dir) := by
  unfold State.flowPoint
  repeat' first
    | with_reducible assumption
    | with_reducible apply Can.ite
    | with_reducible apply State.flowAdopt_can
    | with_reducible apply State.flowBoundary_can
    | with_reducible apply State.settleFlow_can

theorem State.capture_can (s : State) (g : Nat) {Q : State} (h : Can Q s) : Can Q (State.capture s g) := by
  unfold State.capture
  repeat' first
    | (with_reducible refine Can.withPend ‹_› ?_)
    | with_reducible exact Can.pendRegs ‹_›
    | with_reducible apply WordsOk.foldl

theorem State.sluCommit_can (s : State) (src : Source) (g : Nat) (v : Word) {Q : State} (h : Can Q s) : Can Q (State.sluCommit s src g v) := by
  unfold State.sluCommit
  repeat' first
    | with_reducible assumption
    | (extract_lets +onlyGivenNames z; refine (fun (_ : Can Q z) => ?_) ?_; (on_goal 2 => (dsimp -zeta only [z]; clear z)); (on_goal 1 => rename' z => z'))
    | (extract_lets +onlyGivenNames z; rename' z => z')
    | with_reducible apply Can.ite
    | with_reducible apply State.setGroup_can
    | with_reducible apply State.sluChanged_can
    | with_reducible apply State.setResult_can
    | with_reducible apply State.commitOutcome_can
    | with_reducible apply State.dropPending_can
    | with_reducible apply State.reachNow_can
    | with_reducible apply State.capture_can
    | split

theorem State.sluCancel_can (s : State) (g : Nat) {Q : State} (h : Can Q s) : Can Q (State.sluCancel s g) := by
  unfold State.sluCancel
  repeat' first
    | with_reducible assumption
    | with_reducible apply State.sluChanged_can
    | with_reducible apply State.dropPending_can

theorem State.sluRevert_can (s : State) (g : Nat) {Q : State} (h : Can Q s) : Can Q (State.sluRevert s g) := by
  unfold State.sluRevert
  repeat' first
    | with_reducible assumption
    | (extract_lets +onlyGivenNames z; refine (fun (_ : Can Q z) => ?_) ?_; (on_goal 2 => (dsimp -zeta only [z]; clear z)); (on_goal 1 => rename' z => z'))
    | with_reducible apply State.setGroup_can
    | with_reducible apply State.stageMoved_can
    | with_reducible apply State.sluCancel_can
    | (with_reducible refine Can.withStage ‹_› ?_)
    | with_reducible exact Can.stage ‹_›
    | with_reducible apply WordsOk.foldl

theorem State.commitWrite_can (s : State) (src : Source) (g : Nat) (v : Word) {Q : State} (h : Can Q s) : Can Q (State.commitWrite s src g v) := by
  unfold State.commitWrite
  repeat' first
    | with_reducible assumption
    | with_reducible apply Can.ite
    | with_reducible apply State.sluCommit_can
    | with_reducible apply State.sluCancel_can
    | with_reducible apply State.sluRevert_can
    | split

theorem State.sluFire_can (s : State) (e : CalEntry) {Q : State} (h : Can Q s) : Can Q (State.sluFire s e) := by
  unfold State.sluFire
  repeat' first
    | with_reducible assumption
    | intro _
    | (extract_lets +onlyGivenNames z; refine (fun (_ : Can Q z) => ?_) ?_; (on_goal 2 => (dsimp -zeta only [z]; clear z)); (on_goal 1 => rename' z => z'))
    | (extract_lets +onlyGivenNames z; rename' z => z')
    | with_reducible apply Can.ite
    | with_reducible apply State.each_can
    | with_reducible apply State.ttuSkews_can
    | with_reducible apply State.reachBoundary_can
    | with_reducible apply State.reachNow_can

theorem State.sluApply_can (s : State) {Q : State} (h : Can Q s) : Can Q (State.sluApply s) := by
  unfold State.sluApply
  repeat' first
    | with_reducible assumption
    | intro _
    | with_reducible apply State.fireDue_can
    | with_reducible apply State.sluFire_can

theorem State.windowBoundary_can (s : State) (g atNs : Nat) {Q : State} (h : Can Q s) : Can Q (State.windowBoundary s g atNs) := by
  unfold State.windowBoundary
  repeat' first
    | with_reducible assumption
    | with_reducible apply Can.ite
    | with_reducible apply State.reachBoundary_can
    | split

theorem State.rcpWindow_can (s : State) {Q : State} (h : Can Q s) : Can Q (State.rcpWindow s) := by
  unfold State.rcpWindow
  repeat' first
    | with_reducible assumption
    | intro _
    | (extract_lets +onlyGivenNames z; rename' z => z')
    | with_reducible apply State.fireDue_can
    | with_reducible apply State.closeWindow_can
    | with_reducible apply State.prepareAt_can
    | with_reducible apply State.windowBoundary_can

theorem State.talWindow_can (s : State) {Q : State} (h : Can Q s) : Can Q (State.talWindow s) := by
  unfold State.talWindow
  repeat' first
    | with_reducible assumption
    | intro _
    | (extract_lets +onlyGivenNames z; rename' z => z')
    | with_reducible apply State.fireDue_can
    | with_reducible apply State.closeTally_can
    | with_reducible apply State.windowBoundary_can

theorem State.parityHook_can (s : State) (g a : Nat) {Q : State} (h : Can Q s) : Can Q (State.parityHook s g a) := by
  unfold State.parityHook
  repeat' first
    | with_reducible assumption
    | intro _
    | (extract_lets +onlyGivenNames z; refine (fun (_ : Can Q z) => ?_) ?_; (on_goal 2 => (dsimp -zeta only [z]; clear z)); (on_goal 1 => rename' z => z'))
    | (extract_lets +onlyGivenNames z; rename' z => z')
    | with_reducible apply Can.ite
    | with_reducible apply State.when_can
    | with_reducible apply State.each_can
    | with_reducible apply State.raise_can
    | with_reducible apply State.restartVerify_can
    | with_reducible apply State.macFrozen_can
    | with_reducible apply State.showPipes_can
    | with_reducible apply State.hrcFrozen_can
    | with_reducible apply State.refParityFault_can
    | with_reducible apply State.svpFrozen_can
    | with_reducible apply State.armEpoch_can
    | with_reducible apply State.ntsFrozen_can
    | with_reducible apply State.holParityFault_can
    | with_reducible apply State.tscParityFault_can
    | with_reducible apply State.ptpParityFault_can
    | with_reducible apply State.portDown_can
    | with_reducible apply State.cmacParityFault_can
    | with_reducible apply State.casParityFault_can
    | with_reducible apply State.gnsParityFault_can
    | with_reducible apply State.pkeFrozen_can
    | with_reducible apply State.rcpParityFault_can
    | with_reducible apply State.ttuParityFault_can
    | with_reducible apply State.fenceUnit_can
    | with_reducible apply State.hifParityFault_can
    | with_reducible apply State.pwrParityFault_can
    | with_reducible apply State.bootParityFault_can
    | with_reducible apply State.talParityFault_can
    | with_reducible apply State.settleFlow_can
    | split

theorem State.liveParity_can (s : State) (a : Nat) {Q : State} (h : Can Q s) : Can Q (State.liveParity s a) := by
  unfold State.liveParity
  repeat' first
    | with_reducible assumption
    | intro _
    | (extract_lets +onlyGivenNames z; refine (fun (_ : Can Q z) => ?_) ?_; (on_goal 2 => (dsimp -zeta only [z]; clear z)); (on_goal 1 => rename' z => z'))
    | (extract_lets +onlyGivenNames z; rename' z => z')
    | with_reducible apply Can.ite
    | with_reducible apply State.setBit_can
    | with_reducible apply State.each_can
    | with_reducible apply State.raise_can
    | with_reducible apply State.logFault_can
    | with_reducible apply State.setGroup_can
    | with_reducible apply State.moveBucket_can
    | with_reducible apply State.alarmChange_can
    | with_reducible apply State.parityHook_can
    | split

theorem State.stageFault_can (s : State) (a : Nat) {Q : State} (h : Can Q s) : Can Q (State.stageFault s a) := by
  unfold State.stageFault
  repeat' first
    | with_reducible assumption
    | with_reducible apply Can.ite
    | with_reducible apply State.logFault_can
    | with_reducible apply State.setGroup_can
    | split

theorem State.pendFault_can (s : State) (a : Nat) {Q : State} (h : Can Q s) : Can Q (State.pendFault s a) := by
  unfold State.pendFault
  repeat' first
    | with_reducible assumption
    | with_reducible apply Can.ite
    | with_reducible apply State.logFault_can
    | with_reducible apply State.setGroup_can
    | split

theorem State.parityScrub_can (s : State) (live staging pend : List Nat) {Q : State} (h : Can Q s) : Can Q (State.parityScrub s live staging pend) := by
  unfold State.parityScrub
  repeat' first
    | with_reducible assumption
    | intro _
    | (extract_lets +onlyGivenNames z; rename' z => z')
    | with_reducible apply Can.ite
    | with_reducible apply State.each_can
    | with_reducible apply State.liveParity_can
    | with_reducible apply State.stageFault_can
    | with_reducible apply State.pendFault_can
    | with_reducible exact Can.with_ ‹_›

end Sys2Proof.Machine
end

