-- ==== Sys2Proof/Laws/CanonPower.lean ====
section
/-!
SUPPORT. The canonical form of the sparse storage through every operation of Machine/Power.lean.
-/

set_option Elab.async false

namespace Sys2Proof.Machine

theorem State.detachGroup_can (s : State) (g : Nat) {Q : State} (h : Can Q s) : Can Q (State.detachGroup s g) := by
  unfold State.detachGroup
  repeat' first
    | with_reducible assumption
    | intro _
    | (extract_lets +onlyGivenNames z; refine (fun (_ : Can Q z) => ?_) ?_; (on_goal 2 => (dsimp -zeta only [z]; clear z)); (on_goal 1 => rename' z => z'))
    | (extract_lets +onlyGivenNames z; rename' z => z')
    | with_reducible apply State.wr_can
    | with_reducible apply State.each_can
    | with_reducible apply State.setGroup_can
    | with_reducible apply State.stageMoved_can
    | with_reducible apply State.dropPending_can
    | (with_reducible refine Can.withStage ‹_› ?_)
    | with_reducible exact Can.stage ‹_›
    | with_reducible apply WordsOk.foldl

theorem State.hostDetach_can (s : State) (cause : Nat) {Q : State} (h : Can Q s) : Can Q (State.hostDetach s cause) := by
  unfold State.hostDetach
  repeat' first
    | with_reducible assumption
    | intro _
    | (extract_lets +onlyGivenNames z; refine (fun (_ : Can Q z) => ?_) ?_; (on_goal 2 => (dsimp -zeta only [z]; clear z)); (on_goal 1 => rename' z => z'))
    | (extract_lets +onlyGivenNames z; rename' z => z')
    | with_reducible apply Can.ite
    | with_reducible apply State.sfW_can
    | with_reducible apply State.each_can
    | with_reducible apply State.inc_can
    | with_reducible apply State.raise_can
    | with_reducible apply State.journalize_can
    | with_reducible apply State.setView_can
    | with_reducible apply State.stopRing_can
    | with_reducible apply State.hifFrozen_can
    | with_reducible apply State.sluChanged_can
    | with_reducible apply State.detachGroup_can
    | with_reducible exact Can.with_ ‹_›

theorem State.unitsOff_can (s : State) {Q : State} (h : Can Q s) : Can Q (State.unitsOff s) := by
  have k := State.haltSide_can _ 1 (State.haltSide_can _ 0 (State.undriven_can s h))
  unfold State.unitsOff
  exact ⟨k.regs, k.stage, k.pendRegs, k.totals, k.snap, rfl, rfl, k.pending, k.out⟩

theorem State.domainsOnly_can (s : State) (l : List Nat) {Q : State} (h : Can Q s) : Can Q (State.domainsOnly s l) := by
  unfold State.domainsOnly
  repeat' first
    | with_reducible assumption
    | intro _
    | with_reducible apply State.sfW_can
    | with_reducible apply State.when_can
    | with_reducible apply State.cartUnpowered_can

theorem State.toCistern_can (s : State) {Q : State} (h : Can Q s) : Can Q (State.toCistern s) := by
  unfold State.toCistern
  repeat' first
    | with_reducible assumption
    | intro _
    | (extract_lets +onlyGivenNames z; refine (fun (_ : Can Q z) => ?_) ?_; (on_goal 2 => (dsimp -zeta only [z]; clear z)); (on_goal 1 => rename' z => z'))
    | with_reducible apply State.when_can
    | with_reducible apply State.cisternStamp_can
    | with_reducible apply State.enterHoldover_can
    | with_reducible apply State.endAid_can
    | with_reducible apply State.cisternModels_can

theorem State.mainPowerLost_can (s : State) {Q : State} (h : Can Q s) : Can Q (State.mainPowerLost s) := by
  unfold State.mainPowerLost
  repeat' first
    | with_reducible assumption
    | (extract_lets +onlyGivenNames z; refine (fun (_ : Can Q z) => ?_) ?_; (on_goal 2 => (dsimp -zeta only [z]; clear z)); (on_goal 1 => rename' z => z'))
    | (extract_lets +onlyGivenNames z; rename' z => z')
    | with_reducible apply Can.ite
    | with_reducible apply State.sfW_can
    | with_reducible apply State.inc_can
    | with_reducible apply State.setHol_can
    | with_reducible apply State.cisternModels_can
    | with_reducible apply State.kaEnter_can
    | with_reducible apply State.endSessions_can
    | with_reducible apply State.flashBootRecord_can
    | with_reducible apply State.hostDetach_can
    | with_reducible apply State.unitsOff_can
    | with_reducible apply State.domainsOnly_can
    | with_reducible exact Can.with_ ‹_›

theorem State.kaLost_can (s : State) {Q : State} (h : Can Q s) : Can Q (State.kaLost s) := by
  unfold State.kaLost
  repeat' first
    | with_reducible assumption
    | (extract_lets +onlyGivenNames z; refine (fun (_ : Can Q z) => ?_) ?_; (on_goal 2 => (dsimp -zeta only [z]; clear z)); (on_goal 1 => rename' z => z'))
    | (extract_lets +onlyGivenNames z; rename' z => z')
    | with_reducible apply Can.ite
    | with_reducible apply State.setHol_can
    | with_reducible apply State.haltSide_can
    | with_reducible apply State.domainsOnly_can
    | with_reducible exact Can.with_ ‹_›

theorem State.storeAccepted_can (s : State) {Q : State} (h : Can Q s) : Can Q (State.storeAccepted s) := by
  unfold State.storeAccepted
  repeat' first
    | (extract_lets +onlyGivenNames z; rename' z => z')
    | with_reducible exact Can.with_ ‹_›

theorem State.storeEnds_can (s : State) (flashOk : Bool) {Q : State} (h : Can Q s) : Can Q (State.storeEnds s flashOk) := by
  unfold State.storeEnds
  repeat' first
    | with_reducible assumption
    | (extract_lets +onlyGivenNames z; refine (fun (_ : Can Q z) => ?_) ?_; (on_goal 2 => (dsimp -zeta only [z]; clear z)); (on_goal 1 => rename' z => z'))
    | (extract_lets +onlyGivenNames z; rename' z => z')
    | with_reducible apply Can.ite
    | with_reducible apply State.raise_can
    | with_reducible exact Can.with_ ‹_›
    | split

theorem State.storePositions_can (s : State) {Q : State} (h : Can Q s) : Can Q (State.storePositions s) := by
  unfold State.storePositions
  repeat' first
    | (extract_lets +onlyGivenNames z; rename' z => z')
    | with_reducible exact Can.with_ ‹_›

theorem State.putGroup_can (s : State) (g : Nat) (w : Nat → Word) {Q : State} (h : Can Q s) : Can Q (State.putGroup s g w) := by
  unfold State.putGroup
  repeat' first
    | with_reducible assumption
    | (extract_lets +onlyGivenNames z; refine (fun (_ : Can Q z) => ?_) ?_; (on_goal 2 => (dsimp -zeta only [z]; clear z)); (on_goal 1 => rename' z => z'))
    | with_reducible apply State.takeGroup_can
    | (with_reducible refine Can.withStage ‹_› ?_)
    | with_reducible exact Can.stage ‹_›
    | with_reducible apply WordsOk.foldl

theorem State.resetExpect_can (s : State) {Q : State} (h : Can Q s) : Can Q (State.resetExpect s) := by
  unfold State.resetExpect
  repeat' first
    | (extract_lets +onlyGivenNames z; rename' z => z')
    | with_reducible apply State.wr_can
    | (with_reducible refine Can.withStage ‹_› ?_)
    | with_reducible exact Can.stage ‹_›
    | with_reducible apply WordsOk.set

theorem State.restoreGroups_can {Q : State} (c : ConfigCopy) : ∀ (l done : List Nat) (s : State), Can Q s →
    Can Q (State.restoreGroups s c l done).2.2
  | [], _, _, h => h
  | g :: l, done, s, h => by
    unfold State.restoreGroups
    extract_lets w
    split
    · exact State.commitOutcome_can _ _ _ _ _ _ h
    · exact State.restoreGroups_can c l _ _ (State.commitOutcome_can _ _ _ _ _ _ (State.putGroup_can _ _ _ h))

theorem State.restoreLock_can (s : State) (a : Nat) (v : Word) {Q : State} (h : Can Q s) : Can Q (State.restoreLock s a v) := by
  unfold State.restoreLock
  repeat' first
    | with_reducible assumption
    | intro _
    | with_reducible apply Can.ite
    | with_reducible apply State.lkWrite_can
    | with_reducible apply State.ltBound_can

theorem State.restoreCopy_can (s : State) (c : ConfigCopy) {Q : State} (h : Can Q s) : Can Q (State.restoreCopy s c).2 := by
  unfold State.restoreCopy
  repeat' first
    | with_reducible assumption
    | intro _
    | (extract_lets +onlyGivenNames z; refine (fun (_ : Can Q z) => ?_) ?_; (on_goal 2 => (dsimp -zeta only [z]; clear z)); (on_goal 1 => rename' z => z'))
    | (extract_lets +onlyGivenNames z; rename' z => z')
    | with_reducible apply Can.ite2
    | with_reducible apply State.each_can
    | with_reducible apply State.putPosition_can
    | with_reducible apply State.putGroup_can
    | with_reducible apply State.resetExpect_can
    | with_reducible apply State.restoreGroups_can
    | with_reducible apply State.restoreLock_can
    | split

theorem State.restoreCopy_pair (s : State) (c : ConfigCopy) {u : State} {x : _} (hq : (State.restoreCopy s c) = (x, u)) {Q : State} (h : Can Q s) : Can Q u := by
  have k := State.restoreCopy_can s c h
  rw [hq] at k
  exact k

theorem State.restoreKeys_can (s : State) (bad : List Nat) {Q : State} (h : Can Q s) : Can Q (State.restoreKeys s bad) := by
  unfold State.restoreKeys
  repeat' first
    | with_reducible assumption
    | intro _
    | (extract_lets +onlyGivenNames z; refine (fun (_ : Can Q z) => ?_) ?_; (on_goal 2 => (dsimp -zeta only [z]; clear z)); (on_goal 1 => rename' z => z'))
    | (extract_lets +onlyGivenNames z; clear_value z; rename' z => z')
    | with_reducible apply Can.ite
    | with_reducible apply State.each_can
    | with_reducible apply State.raise_can
    | with_reducible apply State.journalize_can
    | with_reducible apply State.showSlot_can
    | with_reducible apply State.showLt_can
    | with_reducible exact Can.with_ ‹_›
    | split

theorem State.setPoint_can (s : State) (p : Option StartPoint) {Q : State} (h : Can Q s) : Can Q (State.setPoint s p) := by
  unfold State.setPoint
  repeat' first
    | (extract_lets +onlyGivenNames z; rename' z => z')
    | with_reducible exact Can.with_ ‹_›

theorem State.safeHold_can (s : State) (code : Nat) {Q : State} (h : Can Q s) : Can Q (State.safeHold s code) := by
  unfold State.safeHold
  repeat' first
    | with_reducible assumption
    | (extract_lets +onlyGivenNames z; refine (fun (_ : Can Q z) => ?_) ?_; (on_goal 2 => (dsimp -zeta only [z]; clear z)); (on_goal 1 => rename' z => z'))
    | (extract_lets +onlyGivenNames z; rename' z => z')
    | with_reducible apply State.sfW_can
    | with_reducible apply State.unitsOff_can
    | with_reducible apply State.domainsOnly_can
    | with_reducible exact Can.with_ ‹_›

theorem State.startFails_can (s : State) {Q : State} (h : Can Q s) : Can Q (State.startFails s) := by
  unfold State.startFails
  repeat' first
    | with_reducible assumption
    | (extract_lets +onlyGivenNames z; refine (fun (_ : Can Q z) => ?_) ?_; (on_goal 2 => (dsimp -zeta only [z]; clear z)); (on_goal 1 => rename' z => z'))
    | (extract_lets +onlyGivenNames z; rename' z => z')
    | with_reducible apply Can.ite
    | with_reducible apply State.sfW_can
    | with_reducible exact Can.with_ ‹_›

theorem State.holdStart_can (s : State) (code : Nat) {Q : State} (h : Can Q s) : Can Q (State.holdStart s code) := by
  unfold State.holdStart
  repeat' first
    | with_reducible assumption
    | with_reducible apply State.flashBootRecord_can
    | with_reducible apply State.safeHold_can
    | with_reducible apply State.startFails_can

theorem State.enterStep_can (s : State) (n kind : Nat) {Q : State} (h : Can Q s) : Can Q (State.enterStep s n kind) := by
  unfold State.enterStep
  repeat' first
    | with_reducible assumption
    | intro _
    | (extract_lets +onlyGivenNames z; refine (fun (_ : Can Q z) => ?_) ?_; (on_goal 2 => (dsimp -zeta only [z]; clear z)); (on_goal 1 => rename' z => z'))
    | (extract_lets +onlyGivenNames z; rename' z => z')
    | with_reducible apply Can.ite
    | with_reducible apply State.sfW_can
    | with_reducible apply State.each_can
    | with_reducible apply State.raise_can
    | with_reducible apply State.startTraining_can
    | with_reducible apply State.setDomain_can
    | with_reducible apply State.countAttempt_can
    | with_reducible apply State.setPoint_can

theorem State.retryStep_can (s : State) (p : StartPoint) {Q : State} (h : Can Q s) : Can Q (State.retryStep s p) := by
  unfold State.retryStep
  repeat' first
    | with_reducible assumption
    | with_reducible apply State.countAttempt_can
    | with_reducible apply State.setPoint_can

theorem State.freeRun_can (s : State) {Q : State} (h : Can Q s) : Can Q (State.freeRun s) := by
  unfold State.freeRun
  repeat' first
    | with_reducible assumption
    | (extract_lets +onlyGivenNames z; refine (fun (_ : Can Q z) => ?_) ?_; (on_goal 2 => (dsimp -zeta only [z]; clear z)); (on_goal 1 => rename' z => z'))
    | (extract_lets +onlyGivenNames z; refine (fun (_ : Can Q z.2) => ?_) ?_; (on_goal 2 => (dsimp -zeta only [z]; clear z)); (on_goal 1 => rename' z => z'))
    | (extract_lets +onlyGivenNames z; rename' z => z')
    | with_reducible apply State.wr_can
    | with_reducible apply State.draw_can
    | with_reducible exact Can.with_ ‹_›

theorem State.cisternTimescale_can (s : State) (rho mode : Nat) {Q : State} (h : Can Q s) : Can Q (State.cisternTimescale s rho mode) := by
  unfold State.cisternTimescale
  repeat' first
    | with_reducible assumption
    | (extract_lets +onlyGivenNames z; refine (fun (_ : Can Q z) => ?_) ?_; (on_goal 2 => (dsimp -zeta only [z]; clear z)); (on_goal 1 => rename' z => z'))
    | (extract_lets +onlyGivenNames z; rename' z => z')
    | with_reducible apply State.setMode_can
    | with_reducible apply State.setHol_can
    | with_reducible apply State.cisternStamp_can
    | with_reducible apply State.showAnchor_can
    | with_reducible exact Can.with_ ‹_›

theorem State.startCalendar_can (s : State) {Q : State} (h : Can Q s) : Can Q (State.startCalendar s) := by
  unfold State.startCalendar
  repeat' first
    | with_reducible assumption
    | (extract_lets +onlyGivenNames z; refine (fun (_ : Can Q z) => ?_) ?_; (on_goal 2 => (dsimp -zeta only [z]; clear z)); (on_goal 1 => rename' z => z'))
    | (extract_lets +onlyGivenNames z; rename' z => z')
    | with_reducible apply State.calNew_can
    | with_reducible apply State.leapsChanged_can
    | with_reducible apply State.armPtp_can
    | with_reducible apply State.choosePosition_can
    | with_reducible apply State.armTick_can
    | with_reducible apply State.armWindow_can
    | with_reducible apply State.armPoll_can
    | with_reducible apply State.armTally_can
    | with_reducible apply State.sluEntries_can
    | exact Can.withCal ‹_› rfl

theorem State.restoreTime_can (s : State) {Q : State} (h : Can Q s) : Can Q (State.restoreTime s) := by
  unfold State.restoreTime
  repeat' first
    | with_reducible assumption
    | intro _
    | (extract_lets +onlyGivenNames z; refine (fun (_ : Can Q z) => ?_) ?_; (on_goal 2 => (dsimp -zeta only [z]; clear z)); (on_goal 1 => rename' z => z'))
    | (extract_lets +onlyGivenNames z; rename' z => z')
    | with_reducible apply State.when_can
    | with_reducible apply State.raise_can
    | with_reducible apply State.restoreNts_can
    | with_reducible apply State.setHol_can
    | with_reducible apply State.freeRun_can
    | with_reducible apply State.cisternTimescale_can
    | with_reducible apply State.startCalendar_can
    | split

theorem State.restoreModels_can (s : State) (bad : List Nat) {Q : State} (h : Can Q s) : Can Q (State.restoreModels s bad) := by
  unfold State.restoreModels
  repeat' first
    | with_reducible assumption
    | (extract_lets +onlyGivenNames z; refine (fun (_ : Can Q z) => ?_) ?_; (on_goal 2 => (dsimp -zeta only [z]; clear z)); (on_goal 1 => rename' z => z'))
    | (extract_lets +onlyGivenNames z; rename' z => z')
    | with_reducible apply State.setBit_can
    | with_reducible apply State.wr64_can
    | with_reducible apply State.setHol_can
    | with_reducible apply State.putModel_can

theorem State.readCistern_can (s : State) (bad : List Nat) {Q : State} (h : Can Q s) : Can Q (State.readCistern s bad) := by
  unfold State.readCistern
  repeat' first
    | with_reducible assumption
    | intro _
    | (extract_lets +onlyGivenNames z; refine (fun (_ : Can Q z) => ?_) ?_; (on_goal 2 => (dsimp -zeta only [z]; clear z)); (on_goal 1 => rename' z => z'))
    | (extract_lets +onlyGivenNames z; rename' z => z')
    | with_reducible apply State.when_can
    | with_reducible apply State.setHol_can
    | with_reducible apply State.restoreModels_can
    | with_reducible exact Can.with_ ‹_›
    | (with_reducible refine Can.withRegs ‹_› ?_)
    | with_reducible exact Can.regs ‹_›
    | with_reducible apply WordsOk.foldl
    | with_reducible apply WordsOk.filter

theorem State.testUnits_can (s : State) (bad : List Nat) {Q : State} (h : Can Q s) : Can Q (State.testUnits s bad) := by
  unfold State.testUnits
  repeat' first
    | with_reducible assumption
    | intro _
    | (extract_lets +onlyGivenNames z; refine (fun (_ : Can Q z) => ?_) ?_; (on_goal 2 => (dsimp -zeta only [z]; clear z)); (on_goal 1 => rename' z => z'))
    | (extract_lets +onlyGivenNames z; refine (fun (_ : Can Q z.2) => ?_) ?_; (on_goal 2 => (dsimp -zeta only [z]; clear z)); (on_goal 1 => rename' z => z'))
    | (extract_lets +onlyGivenNames z; rename' z => z')
    | with_reducible apply Can.ite
    | with_reducible apply State.wr_can
    | with_reducible apply State.sfW_can
    | with_reducible apply State.each_can
    | with_reducible apply State.draw_can
    | with_reducible apply State.showPipes_can
    | with_reducible apply State.showTrng_can
    | with_reducible apply State.buildTables_can
    | with_reducible apply State.showUnits_can
    | with_reducible apply State.showSha_can
    | with_reducible apply State.fenceUnit_can
    | with_reducible apply State.loadUcode_can
    | with_reducible exact Can.with_ ‹_›

theorem State.enableService_can (s : State) {Q : State} (h : Can Q s) : Can Q (State.enableService s) := by
  unfold State.enableService
  repeat' first
    | with_reducible assumption
    | (extract_lets +onlyGivenNames z; refine (fun (_ : Can Q z) => ?_) ?_; (on_goal 2 => (dsimp -zeta only [z]; clear z)); (on_goal 1 => rename' z => z'))
    | (extract_lets +onlyGivenNames z; rename' z => z')
    | with_reducible apply State.sfW_can
    | with_reducible apply State.raise_can
    | with_reducible apply State.armOuts_can
    | with_reducible apply State.alarmChange_can
    | with_reducible apply State.firstKey_can
    | with_reducible apply State.flashBootRecord_can
    | with_reducible exact Can.with_ ‹_›

theorem State.nextStep_can (s : State) (p : StartPoint) {Q : State} (h : Can Q s) : Can Q (State.nextStep s p) := by
  unfold State.nextStep
  repeat' first
    | with_reducible assumption
    | (extract_lets +onlyGivenNames z; refine (fun (_ : Can Q z) => ?_) ?_; (on_goal 2 => (dsimp -zeta only [z]; clear z)); (on_goal 1 => rename' z => z'))
    | with_reducible apply Can.ite
    | with_reducible apply State.stepPassed_can
    | with_reducible apply State.enterStep_can
    | with_reducible apply State.enableService_can

theorem State.goOn_can (s : State) (p : StartPoint) {Q : State} (h : Can Q s) : Can Q (State.goOn s p) := by
  unfold State.goOn
  repeat' first
    | with_reducible assumption
    | with_reducible apply Can.ite
    | with_reducible apply State.enterStep_can
    | with_reducible apply State.enableService_can

theorem State.tryCopy_can (s : State) (p : StartPoint) (crcOk : Bool) (badKeys : List Nat) {Q : State} (h : Can Q s) : Can Q (State.tryCopy s p crcOk badKeys) := by
  unfold State.tryCopy
  repeat' first
    | with_reducible assumption
    | (extract_lets +onlyGivenNames z; refine (fun (_ : Can Q z.2) => ?_) ?_; (on_goal 2 => (dsimp -zeta only [z]; clear z)); (on_goal 1 => rename' z => z'))
    | (extract_lets +onlyGivenNames z; rename' z => z')
    | with_reducible apply Can.ite
    | with_reducible apply State.sfW_can
    | with_reducible apply State.raise_can
    | with_reducible apply State.stepFailed_can
    | with_reducible apply State.restoreCopy_can
    | with_reducible apply State.restoreKeys_can
    | with_reducible apply State.retryStep_can
    | with_reducible apply State.nextStep_can
    | split

theorem State.attemptFails_can (s : State) (p : StartPoint) (code : Nat) {Q : State} (h : Can Q s) : Can Q (State.attemptFails s p code) := by
  unfold State.attemptFails
  repeat' first
    | with_reducible assumption
    | (extract_lets +onlyGivenNames z; refine (fun (_ : Can Q z) => ?_) ?_; (on_goal 2 => (dsimp -zeta only [z]; clear z)); (on_goal 1 => rename' z => z'))
    | with_reducible apply Can.ite
    | with_reducible apply State.setBit_can
    | with_reducible apply State.raise_can
    | with_reducible apply State.stepFailed_can
    | with_reducible apply State.bankFails_can
    | with_reducible apply State.holdStart_can
    | with_reducible apply State.retryStep_can
    | with_reducible apply State.goOn_can
    | split

theorem State.attemptPasses_can (s : State) (p : StartPoint) (o : StepObs) {Q : State} (h : Can Q s) : Can Q (State.attemptPasses s p o) := by
  unfold State.attemptPasses
  repeat' first
    | with_reducible assumption
    | (extract_lets +onlyGivenNames z; refine (fun (_ : Can Q z) => ?_) ?_; (on_goal 2 => (dsimp -zeta only [z]; clear z)); (on_goal 1 => rename' z => z'))
    | (extract_lets +onlyGivenNames z; rename' z => z')
    | with_reducible apply Can.ite
    | with_reducible apply State.wr_can
    | with_reducible apply State.sfW_can
    | with_reducible apply State.cartPower_can
    | with_reducible apply State.loadHotStart_can
    | with_reducible apply State.pcieUp_can
    | with_reducible apply State.sideBack_can
    | with_reducible apply State.stepFailed_can
    | with_reducible apply State.runBank_can
    | with_reducible apply State.bankFallback_can
    | with_reducible apply State.resetExpect_can
    | with_reducible apply State.restoreTime_can
    | with_reducible apply State.readCistern_can
    | with_reducible apply State.testUnits_can
    | with_reducible apply State.nextStep_can
    | with_reducible apply State.goOn_can
    | with_reducible apply State.tryCopy_can
    | with_reducible exact Can.with_ ‹_›
    | split

theorem State.coldSides_can (s : State) {Q : State} (h : Can Q s) : Can Q (State.coldSides s) := by
  unfold State.coldSides
  repeat' first
    | (extract_lets +onlyGivenNames z; rename' z => z')
    | with_reducible apply State.sideBack_can
    | with_reducible exact Can.with_ ‹_›

theorem State.beforeFailure_can (s : State) (p : StartPoint) (o : StepObs) {Q : State} (h : Can Q s) : Can Q (State.beforeFailure s p o) := by
  unfold State.beforeFailure
  repeat' first
    | with_reducible assumption
    | with_reducible apply State.restoreTime_can
    | with_reducible apply State.readCistern_can
    | with_reducible apply State.testUnits_can
    | with_reducible apply State.coldSides_can
    | split

theorem State.attempt_can (s : State) (o : StepObs) {Q : State} (h : Can Q s) : Can Q (State.attempt s o) := by
  unfold State.attempt
  repeat' first
    | with_reducible assumption
    | (extract_lets +onlyGivenNames z; refine (fun (_ : Can Q z) => ?_) ?_; (on_goal 2 => (dsimp -zeta only [z]; clear z)); (on_goal 1 => rename' z => z'))
    | with_reducible apply Can.ite
    | with_reducible apply State.advance_can
    | with_reducible apply State.tryCopy_can
    | with_reducible apply State.attemptFails_can
    | with_reducible apply State.attemptPasses_can
    | with_reducible apply State.beforeFailure_can
    | split

theorem State.attempts_can (s : State) (l : List StepObs) {Q : State} (h : Can Q s) : Can Q (State.attempts s l) := by
  unfold State.attempts
  repeat' first
    | with_reducible assumption
    | intro _
    | with_reducible apply State.each_can
    | with_reducible apply State.attempt_can

theorem State.cleared_can (s : State) {Q : State} (h : Can Q s) : Can Q (State.cleared s) := by
  unfold State.cleared
  refine State.sfW_can _ _ _ _ _ (Can.ite ?_ ?_)
  · exact ⟨h.regs.filter _, rfl, rfl, rfl, rfl, rfl, rfl, h.pending, h.out⟩
  · exact ⟨h.regs.filter _, rfl, rfl, rfl, rfl, rfl, rfl, h.pending, h.out⟩

theorem State.beginStart_can (s : State) (kind : Nat) {Q : State} (h : Can Q s) : Can Q (State.beginStart s kind) := by
  unfold State.beginStart
  repeat' first
    | with_reducible assumption
    | intro _
    | (extract_lets +onlyGivenNames z; refine (fun (_ : Can Q z) => ?_) ?_; (on_goal 2 => (dsimp -zeta only [z]; clear z)); (on_goal 1 => rename' z => z'))
    | (extract_lets +onlyGivenNames z; rename' z => z')
    | with_reducible apply Can.ite
    | with_reducible apply State.wr_can
    | with_reducible apply State.sfW_can
    | with_reducible apply State.when_can
    | with_reducible apply State.handover_can
    | with_reducible apply State.endSurvey_can
    | with_reducible apply State.undriven_can
    | with_reducible apply State.endSessions_can
    | with_reducible apply State.hostDetach_can
    | with_reducible apply State.domainsOnly_can
    | with_reducible apply State.toCistern_can
    | with_reducible apply State.enterStep_can
    | with_reducible apply State.cleared_can

theorem State.start_can (s : State) (kind : Nat) (l : List StepObs) {Q : State} (h : Can Q s) : Can Q (State.start s kind l) := by
  unfold State.start
  repeat' first
    | with_reducible assumption
    | with_reducible apply State.attempts_can
    | with_reducible apply State.beginStart_can

theorem State.powerStart_can (s : State) (l : List StepObs) {Q : State} (h : Can Q s) : Can Q (State.powerStart s l) := by
  unfold State.powerStart
  repeat' first
    | with_reducible assumption
    | with_reducible apply Can.ite
    | with_reducible apply State.start_can

theorem State.stepTimeout_can (s : State) (l : List StepObs) {Q : State} (h : Can Q s) : Can Q (State.stepTimeout s l) := by
  unfold State.stepTimeout
  repeat' first
    | with_reducible assumption
    | with_reducible apply Can.ite
    | with_reducible apply State.attemptFails_can
    | with_reducible apply State.beforeFailure_can
    | with_reducible apply State.attempts_can
    | split

theorem State.safeHoldRetry_can (s : State) (l : List StepObs) {Q : State} (h : Can Q s) : Can Q (State.safeHoldRetry s l) := by
  unfold State.safeHoldRetry
  repeat' first
    | with_reducible assumption
    | with_reducible apply Can.ite
    | with_reducible apply State.start_can
    | split

theorem State.stabilityReached_can (s : State) {Q : State} (h : Can Q s) : Can Q (State.stabilityReached s) := by
  unfold State.stabilityReached
  repeat' first
    | with_reducible assumption
    | (extract_lets +onlyGivenNames z; refine (fun (_ : Can Q z) => ?_) ?_; (on_goal 2 => (dsimp -zeta only [z]; clear z)); (on_goal 1 => rename' z => z'))
    | (extract_lets +onlyGivenNames z; rename' z => z')
    | with_reducible apply Can.ite
    | with_reducible apply State.sfW_can
    | with_reducible apply State.setBit_can
    | with_reducible apply State.raise_can
    | with_reducible exact Can.with_ ‹_›
    | split

theorem State.fullAccepted_can (s : State) {Q : State} (h : Can Q s) : Can Q (State.fullAccepted s) := by
  unfold State.fullAccepted
  repeat' first
    | (extract_lets +onlyGivenNames z; rename' z => z')
    | with_reducible exact Can.with_ ‹_›

theorem State.fullActs_can (s : State) (l : List StepObs) {Q : State} (h : Can Q s) : Can Q (State.fullActs s l) := by
  unfold State.fullActs
  repeat' first
    | with_reducible assumption
    | with_reducible apply Can.ite
    | with_reducible apply State.start_can
    | split

theorem State.supervisorSilent_can (s : State) (l : List StepObs) {Q : State} (h : Can Q s) : Can Q (State.supervisorSilent s l) := by
  unfold State.supervisorSilent
  repeat' first
    | with_reducible assumption
    | with_reducible apply Can.ite
    | with_reducible apply State.startFails_can
    | with_reducible apply State.start_can

theorem State.thermalHold_can (s : State) (m : PowerSense) {Q : State} (h : Can Q s) : Can Q (State.thermalHold s m) := by
  unfold State.thermalHold
  repeat' first
    | with_reducible assumption
    | (extract_lets +onlyGivenNames z; refine (fun (_ : Can Q z) => ?_) ?_; (on_goal 2 => (dsimp -zeta only [z]; clear z)); (on_goal 1 => rename' z => z'))
    | with_reducible apply Can.ite
    | with_reducible apply State.showSense_can
    | with_reducible apply State.hostDetach_can
    | with_reducible apply State.toCistern_can
    | with_reducible apply State.holdStart_can

theorem State.thermalRecover_can (s : State) (m : PowerSense) (l : List StepObs) {Q : State} (h : Can Q s) : Can Q (State.thermalRecover s m l) := by
  unfold State.thermalRecover
  repeat' first
    | with_reducible assumption
    | (extract_lets +onlyGivenNames z; refine (fun (_ : Can Q z) => ?_) ?_; (on_goal 2 => (dsimp -zeta only [z]; clear z)); (on_goal 1 => rename' z => z'))
    | with_reducible apply Can.ite
    | with_reducible apply State.showSense_can
    | with_reducible apply State.start_can

theorem State.bootClear_can (s : State) {Q : State} (h : Can Q s) : Can Q (State.bootClear s) := by
  unfold State.bootClear
  repeat' first
    | with_reducible assumption
    | intro _
    | (extract_lets +onlyGivenNames z; refine (fun (_ : Can Q z) => ?_) ?_; (on_goal 2 => (dsimp -zeta only [z]; clear z)); (on_goal 1 => rename' z => z'))
    | with_reducible apply State.wr_can
    | with_reducible apply State.sfW_can
    | with_reducible apply State.each_can

theorem State.bootRetrain_can (s : State) {Q : State} (h : Can Q s) : Can Q (State.bootRetrain s) := by
  unfold State.bootRetrain
  repeat' first
    | with_reducible assumption
    | with_reducible apply State.setBit_can

end Sys2Proof.Machine
end

