-- ==== Sys2Proof/Laws/CanonAccess.lean ====
section
/-!
SUPPORT. The canonical form of the sparse storage through every operation of Machine/Access.lean.
-/

set_option Elab.async false

namespace Sys2Proof.Machine

theorem State.clearDistrust_can (s : State) (i : Nat) {Q : State} (h : Can Q s) : Can Q (State.clearDistrust s i) := by
  unfold State.clearDistrust
  repeat' first
    | with_reducible assumption
    | with_reducible apply Can.ite
    | with_reducible apply State.toCandidate_can

theorem State.guardAct_can (s : State) (src : Source) (x : Nat) (v : Word) {Q : State} (h : Can Q s) : Can Q (State.guardAct s src x v) := by
  unfold State.guardAct
  repeat' first
    | with_reducible assumption
    | with_reducible apply Can.ite
    | with_reducible apply State.answerSelected_can
    | with_reducible apply State.ntsCmd_can
    | with_reducible apply State.cartCmd_can
    | with_reducible apply State.abortTag_can
    | with_reducible apply State.rotateNow_can
    | with_reducible apply State.fenceCmd_can
    | with_reducible apply State.mgmtBegin_can
    | with_reducible apply State.storeAccepted_can
    | with_reducible apply State.fullAccepted_can
    | with_reducible apply State.bootClear_can
    | with_reducible apply State.bootRetrain_can
    | with_reducible apply State.clearDistrust_can

theorem State.guardPair_can (s : State) (src : Source) (x : Nat) (v c : Word) {Q : State} (h : Can Q s) : Can Q (State.guardPair s src x v c) := by
  unfold State.guardPair
  repeat' first
    | with_reducible assumption
    | intro _
    | with_reducible apply Can.ite
    | with_reducible apply State.domainFault_can
    | with_reducible apply State.countWrite_can
    | with_reducible apply State.guarded_can
    | with_reducible apply State.guardAct_can

theorem State.cmStore_can (s : State) (a : Nat) (v : Word) {Q : State} (h : Can Q s) : Can Q (State.cmStore s a v) := by
  unfold State.cmStore
  repeat' first
    | with_reducible assumption
    | with_reducible apply State.wr_can

theorem State.stolenWrite_can (s : State) (src : Source) (a : Nat) (v : Word) {Q : State} (h : Can Q s) : Can Q (State.stolenWrite s src a v) := by
  unfold State.stolenWrite
  repeat' first
    | with_reducible assumption
    | (extract_lets +onlyGivenNames z; rename' z => z')
    | with_reducible apply State.setView_can

theorem State.viewWrite_can (s : State) (src : Source) (v : Word) {Q : State} (h : Can Q s) : Can Q (State.viewWrite s src v) := by
  unfold State.viewWrite
  repeat' first
    | with_reducible assumption
    | with_reducible apply Can.ite
    | with_reducible apply State.setView_can

theorem State.cmRv_can (s : State) (src : Source) (a : Nat) (v : Word) {Q : State} (h : Can Q s) : Can Q (State.cmRv s src a v) := by
  unfold State.cmRv
  repeat' first
    | with_reducible assumption
    | (extract_lets +onlyGivenNames z; rename' z => z')
    | with_reducible apply Can.ite
    | with_reducible apply State.wr_can
    | with_reducible apply State.testControl_can

theorem State.cmWrite_can (s : State) (src : Source) (a : Nat) (v : Word) {Q : State} (h : Can Q s) : Can Q (State.cmWrite s src a v) := by
  unfold State.cmWrite
  repeat' first
    | with_reducible assumption
    | (extract_lets +onlyGivenNames z; refine (fun (_ : Can Q z) => ?_) ?_; (on_goal 2 => (dsimp -zeta only [z]; clear z)); (on_goal 1 => rename' z => z'))
    | with_reducible apply Can.ite
    | with_reducible apply State.probeStart_can
    | with_reducible apply State.showCtx_can
    | with_reducible apply State.ucodeWrite_can
    | with_reducible apply State.tallySelect_can
    | with_reducible apply State.sampleSelect_can
    | with_reducible apply State.cmStore_can
    | with_reducible apply State.stolenWrite_can
    | with_reducible apply State.viewWrite_can
    | with_reducible apply State.cmRv_can

theorem State.lockWrite_can (s : State) (src : Source) (a : Nat) (v : Word) {Q : State} (h : Can Q s) : Can Q (State.lockWrite s src a v) := by
  unfold State.lockWrite
  repeat' first
    | with_reducible assumption
    | intro _
    | (extract_lets +onlyGivenNames z; refine (fun (_ : Can Q z) => ?_) ?_; (on_goal 2 => (dsimp -zeta only [z]; clear z)); (on_goal 1 => rename' z => z'))
    | with_reducible apply Can.ite
    | with_reducible apply State.testControl_can
    | with_reducible apply State.lkWrite_can
    | with_reducible apply State.choosePosition_can
    | with_reducible apply State.armTick_can
    | with_reducible apply State.ltBound_can

theorem State.eventWrite_can (s : State) (src : Source) (a : Nat) (v : Word) {Q : State} (h : Can Q s) : Can Q (State.eventWrite s src a v) := by
  unfold State.eventWrite
  repeat' first
    | with_reducible assumption
    | (extract_lets +onlyGivenNames z; refine (fun (_ : Can Q z) => ?_) ?_; (on_goal 2 => (dsimp -zeta only [z]; clear z)); (on_goal 1 => rename' z => z'))
    | (extract_lets +onlyGivenNames z; rename' z => z')
    | with_reducible apply Can.ite
    | with_reducible apply State.wr_can
    | with_reducible apply State.testControl_can
    | with_reducible apply State.sqWrite_can

theorem State.msixWrite_can (s : State) (a : Nat) (v : Word) {Q : State} (h : Can Q s) : Can Q (State.msixWrite s a v) := by
  unfold State.msixWrite
  repeat' first
    | with_reducible assumption
    | (extract_lets +onlyGivenNames z; refine (fun (_ : Can Q z) => ?_) ?_; (on_goal 2 => (dsimp -zeta only [z]; clear z)); (on_goal 1 => rename' z => z'))
    | (extract_lets +onlyGivenNames z; rename' z => z')
    | with_reducible apply Can.ite
    | with_reducible apply State.sendVec_can
    | with_reducible exact Can.with_ ‹_›

theorem State.otherWrite_can (s : State) (src : Source) (a : Nat) (v : Word) {Q : State} (h : Can Q s) : Can Q (State.otherWrite s src a v) := by
  unfold State.otherWrite
  repeat' first
    | with_reducible assumption
    | intro _
    | with_reducible apply Can.ite
    | with_reducible apply State.domainFault_can
    | with_reducible apply State.gdComplement_can
    | with_reducible apply State.guardAct_can
    | with_reducible apply State.msixWrite_can

theorem State.writeWord_can (s : State) (src : Source) (a : Nat) (v : Word) {Q : State} (h : Can Q s) : Can Q (State.writeWord s src a v) := by
  unfold State.writeWord
  repeat' first
    | with_reducible assumption
    | (extract_lets +onlyGivenNames z; refine (fun (_ : Can Q z) => ?_) ?_; (on_goal 2 => (dsimp -zeta only [z]; clear z)); (on_goal 1 => rename' z => z'))
    | with_reducible apply Can.ite
    | with_reducible apply State.domainFault_can
    | with_reducible apply State.testControl_can
    | with_reducible apply State.stageWrite_can
    | with_reducible apply State.countWrite_can
    | with_reducible apply State.gdValue_can
    | with_reducible apply State.commitWrite_can
    | with_reducible apply State.cmWrite_can
    | with_reducible apply State.lockWrite_can
    | with_reducible apply State.eventWrite_can
    | with_reducible apply State.otherWrite_can
    | split

theorem State.writeWords_can (s : State) (src : Source) (l : List (Nat × Word)) {Q : State} (h : Can Q s) : Can Q (State.writeWords s src l) := by
  unfold State.writeWords
  repeat' first
    | with_reducible assumption
    | intro _
    | with_reducible apply State.each_can
    | with_reducible apply State.writeWord_can

theorem State.writeLane_can (s : State) (src : Source) (a be : Nat) (v : Word) {Q : State} (h : Can Q s) : Can Q (State.writeLane s src a be v) := by
  unfold State.writeLane
  repeat' first
    | with_reducible assumption
    | with_reducible apply Can.ite
    | with_reducible apply State.accessFault_can
    | with_reducible apply State.writeWord_can

theorem State.writeLanes_can (s : State) (src : Source) (a : Nat) (l : List (Nat × Word)) {Q : State} (h : Can Q s) :
    Can Q (State.writeLanes s src a l) := by
  induction l generalizing s a with
  | nil => exact h
  | cons x l ih => exact ih _ _ (State.writeLane_can _ _ _ _ _ h)

theorem State.busWrite_can (s : State) (src : Source) (a : Nat) (l : List (Nat × Word)) {Q : State} (h : Can Q s) : Can Q (State.busWrite s src a l) := by
  unfold State.busWrite
  repeat' first
    | with_reducible assumption
    | with_reducible apply Can.ite
    | with_reducible apply State.accessFault_can
    | with_reducible apply State.writeWord_can
    | with_reducible apply State.writeLanes_can
    | split

theorem State.refreshRead_can (s : State) (a : Nat) {Q : State} (h : Can Q s) : Can Q (State.refreshRead s a) := by
  unfold State.refreshRead
  repeat' first
    | with_reducible assumption
    | with_reducible apply Can.ite
    | with_reducible apply State.wr_can
    | with_reducible apply State.setBit_can
    | with_reducible apply State.settleCuts_can
    | with_reducible apply State.settleHeld_can
    | with_reducible apply State.showCells_can
    | with_reducible apply State.settleCycles_can
    | with_reducible apply State.countSeeds_can
    | with_reducible apply State.showBurst_can
    | split

theorem State.latchRead_can (s : State) (a : Nat) {Q : State} (h : Can Q s) : Can Q (State.latchRead s a) := by
  unfold State.latchRead
  repeat' first
    | with_reducible assumption
    | with_reducible apply Can.ite
    | with_reducible apply State.snapshot_can
    | with_reducible apply State.latchOffset_can
    | with_reducible apply State.latchLane_can
    | with_reducible apply State.latchTheta_can
    | with_reducible apply State.latchResult_can

theorem State.readReg_can (s : State) (src : Source) (a : Nat) {Q : State} (h : Can Q s) : Can Q (State.readReg s src a).2 := by
  unfold State.readReg
  repeat' first
    | with_reducible assumption
    | with_reducible apply Can.ite2
    | with_reducible apply State.readWord_can
    | with_reducible apply State.refreshRead_can
    | with_reducible apply State.latchRead_can

theorem State.readReg_pair (s : State) (src : Source) (a : Nat) {u : State} {x : _} (hq : (State.readReg s src a) = (x, u)) {Q : State} (h : Can Q s) : Can Q u := by
  have k := State.readReg_can s src a h
  rw [hq] at k
  exact k

theorem State.readReg64_can (s : State) (src : Source) (a : Nat) {Q : State} (h : Can Q s) : Can Q (State.readReg64 s src a).2 := by
  unfold State.readReg64
  repeat' first
    | with_reducible assumption
    | (extract_lets +onlyGivenNames z; refine (fun (_ : Can Q z.2) => ?_) ?_; (on_goal 2 => (dsimp -zeta only [z]; clear z)); (on_goal 1 => rename' z => z'))
    | with_reducible apply Can.ite2
    | with_reducible apply State.crRead_can
    | with_reducible apply State.refreshRead_can
    | with_reducible apply State.readReg_can

theorem State.readReg64_pair (s : State) (src : Source) (a : Nat) {u : State} {x : _} (hq : (State.readReg64 s src a) = (x, u)) {Q : State} (h : Can Q s) : Can Q u := by
  have k := State.readReg64_can s src a h
  rw [hq] at k
  exact k

theorem State.peek_can (s : State) (src : Source) (a : Nat) {Q : State} (h : Can Q s) : Can Q (State.peek s src a).2 := by
  unfold State.peek
  repeat' first
    | with_reducible assumption
    | with_reducible apply Can.ite2
    | with_reducible apply State.domainFault_can

theorem State.peek_pair (s : State) (src : Source) (a : Nat) {u : State} {x : _} (hq : (State.peek s src a) = (x, u)) {Q : State} (h : Can Q s) : Can Q u := by
  have k := State.peek_can s src a h
  rw [hq] at k
  exact k

theorem State.readLane_can (s : State) (src : Source) (a be : Nat) {Q : State} (h : Can Q s) : Can Q (State.readLane s src a be).2 := by
  unfold State.readLane
  repeat' first
    | with_reducible assumption
    | with_reducible apply Can.ite2
    | with_reducible apply State.accessFault_can
    | with_reducible apply State.readReg_can
    | with_reducible apply State.peek_can

theorem State.readLane_pair (s : State) (src : Source) (a be : Nat) {u : State} {x : _} (hq : (State.readLane s src a be) = (x, u)) {Q : State} (h : Can Q s) : Can Q u := by
  have k := State.readLane_can s src a be h
  rw [hq] at k
  exact k

theorem State.readLanes_can (s : State) (src : Source) (a : Nat) (l : List Nat) {Q : State} (h : Can Q s) :
    Can Q (State.readLanes s src a l).2 := by
  induction l generalizing s a with
  | nil => exact h
  | cons x l ih => exact ih _ _ (State.readLane_can _ _ _ _ h)

theorem State.readLanes_pair (s : State) (src : Source) (a : Nat) (l : List Nat) {u : State} {x : _} (hq : State.readLanes s src a l = (x, u)) {Q : State} (h : Can Q s) : Can Q u := by
  have k := State.readLanes_can s src a l h
  rw [hq] at k
  exact k

theorem State.busReadOf_can (s : State) (src : Source) (a : Nat) (l : List Nat) {Q : State} (h : Can Q s) : Can Q (State.busReadOf s src a l).2 := by
  unfold State.busReadOf
  repeat' first
    | with_reducible assumption
    | (extract_lets +onlyGivenNames z; refine (fun (_ : Can Q z.2) => ?_) ?_; (on_goal 2 => (dsimp -zeta only [z]; clear z)); (on_goal 1 => rename' z => z'))
    | with_reducible apply Can.ite2
    | with_reducible apply State.accessFault_can
    | with_reducible apply State.readReg64_can
    | with_reducible apply State.readLanes_can
    | split

theorem State.busReadOf_pair (s : State) (src : Source) (a : Nat) (l : List Nat) {u : State} {x : _} (hq : (State.busReadOf s src a l) = (x, u)) {Q : State} (h : Can Q s) : Can Q u := by
  have k := State.busReadOf_can s src a l h
  rw [hq] at k
  exact k

theorem State.busRead_can (s : State) (src : Source) (a : Nat) (l : List Nat) {Q : State} (h : Can Q s) : Can Q (State.busRead s src a l) := by
  unfold State.busRead
  repeat' first
    | with_reducible assumption
    | (extract_lets +onlyGivenNames z; refine (fun (_ : Can Q z.2) => ?_) ?_; (on_goal 2 => (dsimp -zeta only [z]; clear z)); (on_goal 1 => rename' z => z'))
    | with_reducible apply Can.ite
    | with_reducible apply State.emit_can
    | with_reducible apply State.busReadOf_can

end Sys2Proof.Machine
end

