-- ==== Sys2Proof/Laws/CanonCelen.lean ====
section
/-!
SUPPORT. The canonical form of the sparse storage through every operation of Machine/Celen.lean.
-/

set_option Elab.async false

namespace Sys2Proof.Machine

theorem State.reply_can (s : State) (i type tag : Nat) (body : Bytes) {Q : State} (h : Can Q s) : Can Q (State.reply s i type tag body) := by
  unfold State.reply
  repeat' first
    | with_reducible assumption
    | with_reducible apply State.emit_can

theorem State.mpError_can (s : State) (i tag code detail : Nat) {Q : State} (h : Can Q s) : Can Q (State.mpError s i tag code detail) := by
  unfold State.mpError
  repeat' first
    | with_reducible assumption
    | with_reducible apply State.reply_can

theorem State.message_can (s : State) (i type : Nat) (m : MpMsg) (f : State → State) {Q : State} (h : Can Q s) (hf : ∀ t, Can Q t → Can Q (f t)) : Can Q (State.message s i type m f) := by
  unfold State.message
  repeat' first
    | with_reducible assumption
    | (extract_lets +onlyGivenNames z; refine (fun (_ : Can Q z) => ?_) ?_; (on_goal 2 => (dsimp -zeta only [z]; clear z)); (on_goal 1 => rename' z => z'))
    | with_reducible apply hf
    | with_reducible apply Can.ite
    | with_reducible apply State.setSession_can
    | with_reducible apply State.mpError_can
    | split

theorem State.sized_can (s : State) (i type n : Nat) (m : MpMsg) (f : State → State) {Q : State} (h : Can Q s) (hf : ∀ t, Can Q t → Can Q (f t)) : Can Q (State.sized s i type n m f) := by
  unfold State.sized
  repeat' first
    | with_reducible assumption
    | intro _
    | with_reducible apply hf
    | with_reducible apply Can.ite
    | with_reducible apply State.mpError_can
    | with_reducible apply State.message_can

theorem State.sessionOpen_can (s : State) (fingerprint : Bytes) (proof : Bool) (issuers : List Bytes) (notBefore notAfter : Int) {Q : State} (h : Can Q s) : Can Q (State.sessionOpen s fingerprint proof issuers notBefore notAfter) := by
  unfold State.sessionOpen
  repeat' first
    | with_reducible assumption
    | (extract_lets +onlyGivenNames z; refine (fun (_ : Can Q z.2) => ?_) ?_; (on_goal 2 => (dsimp -zeta only [z]; clear z)); (on_goal 1 => rename' z => z'))
    | (extract_lets +onlyGivenNames z; rename' z => z')
    | with_reducible apply Can.ite
    | with_reducible apply State.draw_can
    | with_reducible apply State.openSession_can
    | with_reducible apply State.mpError_can
    | split

theorem State.sessionIdle_can (s : State) (i : Nat) {Q : State} (h : Can Q s) : Can Q (State.sessionIdle s i) := by
  unfold State.sessionIdle
  repeat' first
    | with_reducible assumption
    | with_reducible apply Can.ite
    | with_reducible apply State.endSession_can
    | split

theorem State.sessionClosed_can (s : State) (i : Nat) (alert : Bool) {Q : State} (h : Can Q s) : Can Q (State.sessionClosed s i alert) := by
  unfold State.sessionClosed
  repeat' first
    | with_reducible assumption
    | with_reducible apply State.endSession_can

theorem State.hello_can (s : State) (i type : Nat) (m : MpMsg) {Q : State} (h : Can Q s) : Can Q (State.hello s i type m) := by
  unfold State.hello
  repeat' first
    | with_reducible assumption
    | intro _
    | (extract_lets +onlyGivenNames z; refine (fun (_ : Can Q z) => ?_) ?_; (on_goal 2 => (dsimp -zeta only [z]; clear z)); (on_goal 1 => rename' z => z'))
    | with_reducible apply Can.ite
    | with_reducible apply State.setSession_can
    | with_reducible apply State.reply_can
    | with_reducible apply State.message_can
    | with_reducible apply State.sized_can

theorem State.readMasked_can (s : State) (src : Source) (a be_ : Nat) {Q : State} (h : Can Q s) : Can Q (State.readMasked s src a be_).2 := by
  unfold State.readMasked
  repeat' first
    | with_reducible assumption
    | (extract_lets +onlyGivenNames z; refine (fun (_ : Can Q z.2) => ?_) ?_; (on_goal 2 => (dsimp -zeta only [z]; clear z)); (on_goal 1 => rename' z => z'))
    | with_reducible apply Can.ite2
    | with_reducible apply State.draw_can
    | with_reducible apply State.readLane_can

theorem State.readMasked_pair (s : State) (src : Source) (a be_ : Nat) {u : State} {x : _} (hq : (State.readMasked s src a be_) = (x, u)) {Q : State} (h : Can Q s) : Can Q u := by
  have k := State.readMasked_can s src a be_ h
  rw [hq] at k
  exact k

theorem State.readRun_can (s : State) (src : Source) (a be_ n : Nat) {Q : State} (h : Can Q s) : Can Q (State.readRun s src a be_ n).2 := by
  induction n generalizing s a with
  | zero => exact h
  | succ n ih => exact ih _ _ (State.readMasked_can _ _ _ _ h)

theorem State.readRun_pair (s : State) (src : Source) (a be_ n : Nat) {u : State} {x : _} (hq : State.readRun s src a be_ n = (x, u)) {Q : State} (h : Can Q s) : Can Q u := by
  have k := State.readRun_can s src a be_ n h
  rw [hq] at k
  exact k

theorem State.mpRead_can (s : State) (i : Nat) (m : MpMsg) {Q : State} (h : Can Q s) : Can Q (State.mpRead s i m) := by
  unfold State.mpRead
  repeat' first
    | with_reducible assumption
    | intro _
    | (extract_lets +onlyGivenNames z; refine (fun (_ : Can Q z.2) => ?_) ?_; (on_goal 2 => (dsimp -zeta only [z]; clear z)); (on_goal 1 => rename' z => z'))
    | (extract_lets +onlyGivenNames z; rename' z => z')
    | with_reducible apply Can.ite
    | with_reducible apply State.reply_can
    | with_reducible apply State.mpError_can
    | with_reducible apply State.sized_can
    | with_reducible apply State.readRun_can

theorem State.mpWrite_can (s : State) (i : Nat) (m : MpMsg) {Q : State} (h : Can Q s) : Can Q (State.mpWrite s i m) := by
  unfold State.mpWrite
  repeat' first
    | with_reducible assumption
    | intro _
    | (extract_lets +onlyGivenNames z; rename' z => z')
    | with_reducible apply Can.ite
    | with_reducible apply State.writeLanes_can
    | with_reducible apply State.reply_can
    | with_reducible apply State.mpError_can
    | with_reducible apply State.message_can

theorem State.mpRead64_can (s : State) (i : Nat) (m : MpMsg) {Q : State} (h : Can Q s) : Can Q (State.mpRead64 s i m) := by
  unfold State.mpRead64
  repeat' first
    | with_reducible assumption
    | intro _
    | (extract_lets +onlyGivenNames z; refine (fun (_ : Can Q z.2) => ?_) ?_; (on_goal 2 => (dsimp -zeta only [z]; clear z)); (on_goal 1 => rename' z => z'))
    | (extract_lets +onlyGivenNames z; rename' z => z')
    | with_reducible apply Can.ite
    | with_reducible apply State.readReg64_can
    | with_reducible apply State.reply_can
    | with_reducible apply State.mpError_can
    | with_reducible apply State.sized_can

theorem State.mpSubscribe_can (s : State) (i : Nat) (m : MpMsg) {Q : State} (h : Can Q s) : Can Q (State.mpSubscribe s i m) := by
  unfold State.mpSubscribe
  repeat' first
    | with_reducible assumption
    | intro _
    | (extract_lets +onlyGivenNames z; rename' z => z')
    | with_reducible apply Can.ite
    | with_reducible apply State.streamJournal_can
    | with_reducible apply State.setSession_can
    | with_reducible apply State.reply_can
    | with_reducible apply State.mpError_can
    | with_reducible apply State.sized_can

theorem State.mpUnsubscribe_can (s : State) (i : Nat) (m : MpMsg) {Q : State} (h : Can Q s) : Can Q (State.mpUnsubscribe s i m) := by
  unfold State.mpUnsubscribe
  repeat' first
    | with_reducible assumption
    | intro _
    | (extract_lets +onlyGivenNames z; refine (fun (_ : Can Q z) => ?_) ?_; (on_goal 2 => (dsimp -zeta only [z]; clear z)); (on_goal 1 => rename' z => z'))
    | (extract_lets +onlyGivenNames z; rename' z => z')
    | with_reducible apply State.setSession_can
    | with_reducible apply State.reply_can
    | with_reducible apply State.sized_can
    | with_reducible exact Can.with_ ‹_›

theorem State.mpJournal_can (s : State) (i : Nat) (m : MpMsg) {Q : State} (h : Can Q s) : Can Q (State.mpJournal s i m) := by
  unfold State.mpJournal
  repeat' first
    | with_reducible assumption
    | intro _
    | (extract_lets +onlyGivenNames z; rename' z => z')
    | with_reducible apply Can.ite
    | with_reducible apply State.reply_can
    | with_reducible apply State.mpError_can
    | with_reducible apply State.sized_can

theorem State.mpStage_can (s : State) (i : Nat) (m : MpMsg) {Q : State} (h : Can Q s) : Can Q (State.mpStage s i m) := by
  unfold State.mpStage
  repeat' first
    | with_reducible assumption
    | intro _
    | (extract_lets +onlyGivenNames z; refine (fun (_ : Can Q z) => ?_) ?_; (on_goal 2 => (dsimp -zeta only [z]; clear z)); (on_goal 1 => rename' z => z'))
    | (extract_lets +onlyGivenNames z; rename' z => z')
    | with_reducible apply Can.ite
    | with_reducible apply State.regionWrite_can
    | with_reducible apply State.beginCheck_can
    | with_reducible apply State.reply_can
    | with_reducible apply State.mpError_can
    | with_reducible apply State.message_can

theorem State.mpStaged_can (s : State) (flashOk : Bool) {Q : State} (h : Can Q s) : Can Q (State.mpStaged s flashOk) := by
  unfold State.mpStaged
  repeat' first
    | with_reducible assumption
    | (extract_lets +onlyGivenNames z; refine (fun (_ : Can Q z.2) => ?_) ?_; (on_goal 2 => (dsimp -zeta only [z]; clear z)); (on_goal 1 => rename' z => z'))
    | with_reducible apply Can.ite
    | with_reducible apply State.endCheck_can
    | with_reducible apply State.reply_can
    | with_reducible apply State.mpError_can
    | split

theorem State.mpNet_can (s : State) (i : Nat) (m : MpMsg) {Q : State} (h : Can Q s) : Can Q (State.mpNet s i m) := by
  unfold State.mpNet
  repeat' first
    | with_reducible assumption
    | intro _
    | with_reducible apply Can.ite
    | with_reducible apply State.setSession_can
    | with_reducible apply State.reply_can
    | with_reducible apply State.mpError_can
    | with_reducible apply State.sized_can

theorem State.mpTrust_can (s : State) (i : Nat) (m : MpMsg) {Q : State} (h : Can Q s) : Can Q (State.mpTrust s i m) := by
  unfold State.mpTrust
  repeat' first
    | with_reducible assumption
    | intro _
    | (extract_lets +onlyGivenNames z; rename' z => z')
    | with_reducible apply Can.ite
    | with_reducible apply State.journalBlock_can
    | with_reducible apply State.reply_can
    | with_reducible apply State.mpError_can
    | with_reducible apply State.message_can
    | with_reducible exact Can.with_ ‹_›
    | split

theorem State.mpBye_can (s : State) (i : Nat) (m : MpMsg) {Q : State} (h : Can Q s) : Can Q (State.mpBye s i m) := by
  unfold State.mpBye
  repeat' first
    | with_reducible assumption
    | intro _
    | with_reducible apply State.endSession_can
    | with_reducible apply State.reply_can
    | with_reducible apply State.sized_can

end Sys2Proof.Machine
end

