-- ==== Sys2Proof/Laws/CanonSteps.lean ====
section
/-!
SUPPORT. The canonical form of the sparse storage through every operation of Machine/Steps.lean.
-/

set_option Elab.async false

namespace Sys2Proof.Machine

theorem State.earlyClose_can (s : State) (close atNs : Nat) {Q : State} (h : Can Q s) : Can Q (State.earlyClose s close atNs) := by
  unfold State.earlyClose
  repeat' first
    | with_reducible assumption
    | with_reducible apply State.closeWindow_can
    | with_reducible apply State.windowBoundary_can

theorem State.beforeEvaluation_can (s : State) (sec : Nat) {Q : State} (h : Can Q s) : Can Q (State.beforeEvaluation s sec) := by
  unfold State.beforeEvaluation
  repeat' first
    | with_reducible assumption
    | with_reducible apply State.slaveEvaluate_can
    | with_reducible apply State.lanesEvaluate_can
    | with_reducible apply State.gnssReport_can

theorem State.afterTick_can (s : State) (was : Nat) (e : CalEntry) {Q : State} (h : Can Q s) : Can Q (State.afterTick s was e) := by
  unfold State.afterTick
  repeat' first
    | with_reducible assumption
    | intro _
    | (extract_lets +onlyGivenNames z; refine (fun (_ : Can Q z) => ?_) ?_; (on_goal 2 => (dsimp -zeta only [z]; clear z)); (on_goal 1 => rename' z => z'))
    | (extract_lets +onlyGivenNames z; rename' z => z')
    | with_reducible apply State.when_can
    | with_reducible apply State.ntsSecond_can
    | with_reducible apply State.showDataset_can
    | with_reducible apply State.esmcTick_can
    | with_reducible apply State.squelchSynce_can
    | with_reducible apply State.squelchWaves_can
    | with_reducible apply State.squelchEnds_can
    | with_reducible apply State.todOut_can
    | with_reducible apply State.showRcp_can
    | with_reducible apply State.rcpRadius_can
    | with_reducible apply State.measPost_can
    | with_reducible apply State.ttuRates_can
    | with_reducible apply State.earlyClose_can

theorem State.radiusTick_can (s : State) (m : TickMeas) {Q : State} (h : Can Q s) : Can Q (State.radiusTick s m) := by
  unfold State.radiusTick
  repeat' first
    | with_reducible assumption
    | intro _
    | (extract_lets +onlyGivenNames z; refine (fun (_ : Can Q z) => ?_) ?_; (on_goal 2 => (dsimp -zeta only [z]; clear z)); (on_goal 1 => rename' z => z'))
    | with_reducible apply State.when_can
    | with_reducible apply State.fireDue_can
    | with_reducible apply State.tick_can
    | with_reducible apply State.gnssLatch_can
    | with_reducible apply State.snapKeep_can
    | with_reducible apply State.settleFlow_can
    | with_reducible apply State.beforeEvaluation_can
    | with_reducible apply State.afterTick_can
    | split

theorem State.stepNow_can (s : State) (atNs : Nat) (amount : Int) (host : Bool) {Q : State} (h : Can Q s) : Can Q (State.stepNow s atNs amount host) := by
  unfold State.stepNow
  repeat' first
    | with_reducible assumption
    | intro _
    | (extract_lets +onlyGivenNames z; refine (fun (_ : Can Q z) => ?_) ?_; (on_goal 2 => (dsimp -zeta only [z]; clear z)); (on_goal 1 => rename' z => z'))
    | with_reducible apply State.when_can
    | with_reducible apply State.applyStep_can
    | with_reducible apply State.portsStepped_can
    | with_reducible apply State.ptpStepped_can
    | with_reducible apply State.casStepped_can
    | with_reducible apply State.gnssStepped_can
    | with_reducible apply State.ttuStepped_can
    | with_reducible apply State.talStepped_can
    | with_reducible apply State.earlyClose_can

theorem State.tscStep_can (s : State) {Q : State} (h : Can Q s) : Can Q (State.tscStep s) := by
  unfold State.tscStep
  repeat' first
    | with_reducible assumption
    | intro _
    | (extract_lets +onlyGivenNames z; refine (fun (_ : Can Q z.1) => ?_) ?_; (on_goal 2 => (dsimp -zeta only [z]; clear z)); (on_goal 1 => rename' z => z'))
    | (extract_lets +onlyGivenNames z; rename' z => z')
    | with_reducible apply Can.ite
    | with_reducible apply State.fireDue_can
    | with_reducible apply State.stepDecision_can
    | with_reducible apply State.stepNow_can
    | with_reducible exact Can.with_ ‹_›
    | split

theorem State.refLossTimeout_can (s : State) (i : Nat) {Q : State} (h : Can Q s) : Can Q (State.refLossTimeout s i) := by
  unfold State.refLossTimeout
  repeat' first
    | with_reducible assumption
    | intro _
    | with_reducible apply State.when_can
    | with_reducible apply State.lose_can

theorem State.contactChange_can (s : State) (closed : Bool) {Q : State} (h : Can Q s) : Can Q (State.contactChange s closed) := by
  unfold State.contactChange
  repeat' first
    | with_reducible assumption
    | with_reducible apply State.setBit_can
    | with_reducible apply State.showContact_can

theorem State.cartLoss_can (s : State) (opened : Bool) {Q : State} (h : Can Q s) : Can Q (State.cartLoss s opened) := by
  unfold State.cartLoss
  repeat' first
    | with_reducible assumption
    | with_reducible apply Can.ite
    | with_reducible apply State.handover_can
    | with_reducible apply State.cartFault_can

theorem State.cartInsert_can (s : State) {Q : State} (h : Can Q s) : Can Q (State.cartInsert s) := by
  unfold State.cartInsert
  repeat' first
    | with_reducible assumption
    | with_reducible apply Can.ite
    | with_reducible apply State.raise_can
    | with_reducible apply State.cartPower_can

theorem State.cartRemove_can (s : State) {Q : State} (h : Can Q s) : Can Q (State.cartRemove s) := by
  unfold State.cartRemove
  repeat' first
    | with_reducible assumption
    | intro _
    | (extract_lets +onlyGivenNames z; refine (fun (_ : Can Q z) => ?_) ?_; (on_goal 2 => (dsimp -zeta only [z]; clear z)); (on_goal 1 => rename' z => z'))
    | with_reducible apply Can.ite
    | with_reducible apply State.wr_can
    | with_reducible apply State.when_can
    | with_reducible apply State.inc_can
    | with_reducible apply State.raise_can
    | with_reducible apply State.setHol_can
    | with_reducible apply State.handover_can
    | with_reducible apply State.setCart_can
    | with_reducible apply State.setPd2_can
    | with_reducible apply State.cartUnpowered_can

theorem State.cartRead_can (s : State) (code rev serial : Nat) (b : Bytes) {Q : State} (h : Can Q s) : Can Q (State.cartRead s code rev serial b) := by
  unfold State.cartRead
  repeat' first
    | with_reducible assumption
    | with_reducible apply Can.ite
    | with_reducible apply State.cartIdentify_can

theorem State.cartTimeout_can (s : State) (st reason : Nat) {Q : State} (h : Can Q s) : Can Q (State.cartTimeout s st reason) := by
  unfold State.cartTimeout
  repeat' first
    | with_reducible assumption
    | with_reducible apply Can.ite
    | with_reducible apply State.cartFault_can

theorem State.cartStatus_can (s : State) (lock fault : Bool) {Q : State} (h : Can Q s) : Can Q (State.cartStatus s lock fault) := by
  unfold State.cartStatus
  repeat' first
    | with_reducible assumption
    | with_reducible apply Can.ite
    | with_reducible apply State.setCart_can
    | with_reducible apply State.cartFault_can

theorem State.cartMeasured_can (s : State) {Q : State} (h : Can Q s) : Can Q (State.cartMeasured s) := by
  unfold State.cartMeasured
  repeat' first
    | with_reducible assumption
    | with_reducible apply Can.ite
    | with_reducible apply State.raise_can
    | with_reducible apply State.setCart_can

theorem State.cartOvercurrent_can (s : State) {Q : State} (h : Can Q s) : Can Q (State.cartOvercurrent s) := by
  unfold State.cartOvercurrent
  repeat' first
    | with_reducible assumption
    | intro _
    | with_reducible apply State.when_can
    | with_reducible apply State.cartFault_can

theorem State.cartPd2Off_can (s : State) {Q : State} (h : Can Q s) : Can Q (State.cartPd2Off s) := by
  unfold State.cartPd2Off
  repeat' first
    | with_reducible assumption
    | with_reducible apply Can.ite
    | with_reducible apply State.cartReleased_can
    | split

theorem State.modelSampleAt_can (s : State) {Q : State} (h : Can Q s) : Can Q (State.modelSampleAt s) := by
  unfold State.modelSampleAt
  repeat' first
    | with_reducible assumption
    | with_reducible apply Can.ite
    | with_reducible apply State.modelSample_can

theorem State.modelFlash_can (s : State) {Q : State} (h : Can Q s) : Can Q (State.modelFlash s) := by
  unfold State.modelFlash
  repeat' first
    | with_reducible assumption
    | intro _
    | with_reducible apply State.when_can
    | with_reducible apply State.flashModels_can
    | with_reducible apply State.writeModelBlock_can

theorem State.kaSecond_can (s : State) (tempKeeper : Int) (tempCart : Option Int) {Q : State} (h : Can Q s) : Can Q (State.kaSecond s tempKeeper tempCart) := by
  unfold State.kaSecond
  repeat' first
    | with_reducible assumption
    | with_reducible apply Can.ite
    | with_reducible apply State.kaTick_can

theorem State.surveyEnds_can (s : State) (a : Nat) {Q : State} (h : Can Q s) : Can Q (State.surveyEnds s a) := by
  unfold State.surveyEnds
  repeat' first
    | with_reducible assumption
    | (extract_lets +onlyGivenNames z; refine (fun (_ : Can Q z) => ?_) ?_; (on_goal 2 => (dsimp -zeta only [z]; clear z)); (on_goal 1 => rename' z => z'))
    | with_reducible apply Can.ite
    | with_reducible apply State.surveyComplete_can
    | with_reducible apply State.storePositions_can

theorem State.anyUp_can (s : State) (l rxDyn txDyn : Nat) {Q : State} (h : Can Q s) : Can Q (State.anyUp s l rxDyn txDyn) := by
  unfold State.anyUp
  repeat' first
    | with_reducible assumption
    | with_reducible apply Can.ite
    | with_reducible apply State.portUp_can
    | with_reducible apply State.laneComesUp_can

theorem State.anyDown_can (s : State) (l : Nat) (k : LineLock) {Q : State} (h : Can Q s) : Can Q (State.anyDown s l k) := by
  unfold State.anyDown
  refine State.when_can _ _ _ h (fun t h => ?_)
  repeat' first
    | with_reducible assumption
    | with_reducible apply Can.ite
    | with_reducible apply State.portDown_can
    | with_reducible apply State.laneDown_can
    | with_reducible apply State.settleFlow_can

theorem State.anyFinalise_can (s : State) (l : Nat) {Q : State} (h : Can Q s) : Can Q (State.anyFinalise s l) := by
  unfold State.anyFinalise
  repeat' first
    | with_reducible assumption
    | with_reducible apply Can.ite
    | with_reducible apply State.finalise_can
    | with_reducible apply State.finaliseLink_can

theorem State.anyCommit_can (s : State) (l : Nat) {Q : State} (h : Can Q s) : Can Q (State.anyCommit s l) := by
  unfold State.anyCommit
  repeat' first
    | with_reducible assumption
    | with_reducible apply Can.ite
    | with_reducible apply State.commitSlot_can
    | with_reducible apply State.commitLink_can

theorem State.anyStart_can (s : State) (l : Nat) {Q : State} (h : Can Q s) : Can Q (State.anyStart s l) := by
  unfold State.anyStart
  repeat' first
    | with_reducible assumption
    | with_reducible apply Can.ite
    | with_reducible apply State.slotStart_can
    | with_reducible apply State.startLink_can

theorem State.opticIn_can (s : State) (c : Nat) (responded : Bool) (ident pclass : Nat) {Q : State} (h : Can Q s) : Can Q (State.opticIn s c responded ident pclass) := by
  unfold State.opticIn
  repeat' first
    | with_reducible assumption
    | with_reducible apply Can.ite
    | with_reducible apply State.cageInsert_can
    | with_reducible apply State.laneCageInsert_can

theorem State.opticOut_can (s : State) (c : Nat) {Q : State} (h : Can Q s) : Can Q (State.opticOut s c) := by
  unfold State.opticOut
  repeat' first
    | with_reducible assumption
    | intro _
    | with_reducible apply Can.ite
    | with_reducible apply State.each_can
    | with_reducible apply State.cageRemove_can
    | with_reducible apply State.portDown_can
    | with_reducible apply State.laneCageRemove_can
    | with_reducible apply State.settleFlow_can

theorem State.pairPhase_can (s : State) (l : Nat) {Q : State} (h : Can Q s) : Can Q (State.pairPhase s l) := by
  unfold State.pairPhase
  repeat' first
    | with_reducible assumption
    | with_reducible apply Can.ite
    | with_reducible apply State.setPhi_can
    | split

theorem State.linkIn_can (s : State) (l : Nat) (frame : Bytes) (ago fecUncorr : Nat) {Q : State} (h : Can Q s) : Can Q (State.linkIn s l frame ago fecUncorr) := by
  unfold State.linkIn
  repeat' first
    | with_reducible assumption
    | intro _
    | (extract_lets +onlyGivenNames z; refine (fun (_ : Can Q z) => ?_) ?_; (on_goal 2 => (dsimp -zeta only [z]; clear z)); (on_goal 1 => rename' z => z'))
    | with_reducible apply State.when_can
    | with_reducible apply State.laneLink_can
    | with_reducible apply State.pairPhase_can

theorem State.bucketMoved_can (s : State) (b : Nat) {Q : State} (h : Can Q s) : Can Q (State.bucketMoved s b) := by
  unfold State.bucketMoved
  repeat' first
    | with_reducible assumption
    | intro _
    | with_reducible apply State.when_can
    | with_reducible apply State.endMove_can

theorem State.jobCompletes_can (s : State) (c : Nat) (wiped : Bool) {Q : State} (h : Can Q s) : Can Q (State.jobCompletes s c wiped) := by
  unfold State.jobCompletes
  repeat' first
    | with_reducible assumption
    | intro _
    | (extract_lets +onlyGivenNames z; refine (fun (_ : Can Q z) => ?_) ?_; (on_goal 2 => (dsimp -zeta only [z]; clear z)); (on_goal 1 => rename' z => z'))
    | with_reducible apply Can.ite
    | with_reducible apply State.when_can
    | with_reducible apply State.raise_can
    | with_reducible apply State.logFault_can
    | with_reducible apply State.firstKey_can
    | with_reducible apply State.sealSignature_can
    | with_reducible apply State.fenceUnit_can
    | (with_reducible refine State.completeJob_pair _ _ _ (by assumption) ?_)
    | split

theorem State.wipeKey_can (s : State) {Q : State} (h : Can Q s) : Can Q (State.wipeKey s) := by
  unfold State.wipeKey
  repeat' first
    | with_reducible assumption
    | with_reducible apply State.keyWipe_can
    | with_reducible apply State.showLt_can

theorem State.journalFlash_can (s : State) {Q : State} (h : Can Q s) : Can Q (State.journalFlash s) := by
  unfold State.journalFlash
  repeat' first
    | with_reducible assumption
    | (extract_lets +onlyGivenNames z; refine (fun (_ : Can Q z) => ?_) ?_; (on_goal 2 => (dsimp -zeta only [z]; clear z)); (on_goal 1 => rename' z => z'))
    | (extract_lets +onlyGivenNames z; rename' z => z')
    | with_reducible apply Can.ite
    | with_reducible apply State.count_can
    | with_reducible apply State.raise_can
    | with_reducible exact Can.with_ ‹_›

theorem State.serviceResetAt_can (s : State) {Q : State} (h : Can Q s) : Can Q (State.serviceResetAt s) := by
  unfold State.serviceResetAt
  repeat' first
    | with_reducible assumption
    | intro _
    | (extract_lets +onlyGivenNames z; refine (fun (_ : Can Q z) => ?_) ?_; (on_goal 2 => (dsimp -zeta only [z]; clear z)); (on_goal 1 => rename' z => z'))
    | (extract_lets +onlyGivenNames z; rename' z => z')
    | with_reducible apply Can.ite
    | with_reducible apply State.when_can
    | with_reducible apply State.serviceReset_can
    | with_reducible apply State.windowBoundary_can
    | split

theorem State.unitTested_can (s : State) (kind i : Nat) (pass : Bool) {Q : State} (h : Can Q s) : Can Q (State.unitTested s kind i pass) := by
  unfold State.unitTested
  repeat' first
    | with_reducible assumption
    | with_reducible apply Can.ite
    | with_reducible apply State.selftestDone_can
    | with_reducible apply State.domainTestFailed_can

theorem State.guardTimeout_can (s : State) (src : Source) {Q : State} (h : Can Q s) : Can Q (State.guardTimeout s src) := by
  unfold State.guardTimeout
  repeat' first
    | with_reducible assumption
    | with_reducible apply Can.ite
    | with_reducible apply State.guardFault_can
    | with_reducible apply State.closePair_can
    | split

end Sys2Proof.Machine
end

