-- ==== Sys2Proof/Laws/CanonFiring.lean ====
section
/-!
SUPPORT. The canonical form of the sparse storage through every operation of Machine/Firing.lean.
-/

set_option Elab.async false

namespace Sys2Proof.Machine

theorem State.casFire_can (s : State) {Q : State} (h : Can Q s) : Can Q (State.casFire s) := by
  unfold State.casFire
  repeat' first
    | with_reducible assumption
    | with_reducible apply State.barrier_can
    | with_reducible apply State.broadcast_can
    | with_reducible apply State.casSnapshot_can
    | with_reducible apply State.serviceResetAt_can
    | split

theorem State.fireAction_can (s : State) (e : CalEntry) {Q : State} (h : Can Q s) : Can Q (State.fireAction s e) := by
  unfold State.fireAction
  repeat' first
    | with_reducible assumption
    | with_reducible apply Can.ite
    | with_reducible apply State.fireHostEvent_can
    | with_reducible apply State.fireLeap_can
    | with_reducible apply State.ntsEpoch_can
    | with_reducible apply State.ptpSync_can
    | with_reducible apply State.linkTick_can
    | with_reducible apply State.outEdge_can
    | with_reducible apply State.dbPoll_can
    | with_reducible apply State.sluApply_can
    | with_reducible apply State.rcpWindow_can
    | with_reducible apply State.talWindow_can
    | with_reducible apply State.radiusTick_can
    | with_reducible apply State.tscStep_can
    | with_reducible apply State.casFire_can
    | split

theorem State.fireEach_can (s : State) (l : List (Nat × CalEntry)) {Q : State} (h : Can Q s) : Can Q (State.fireEach s l) := by
  unfold State.fireEach
  repeat' first
    | with_reducible assumption
    | intro _
    | with_reducible apply State.when_can
    | with_reducible apply State.each_can
    | with_reducible apply State.fireAction_can

theorem State.dueFirst_can (s : State) {Q : State} (h : Can Q s) : Can Q (State.dueFirst s) := by
  unfold State.dueFirst
  repeat' first
    | with_reducible assumption
    | with_reducible apply State.fireEach_can

theorem State.inOrder_can (s : State) (p : CalEntry → Bool) {Q : State} (h : Can Q s) : Can Q (State.inOrder s p) := by
  unfold State.inOrder
  repeat' first
    | with_reducible assumption
    | with_reducible apply State.fireEach_can
    | split

theorem State.refTimerOver_can (s : State) (i : Nat) {Q : State} (h : Can Q s) : Can Q (State.refTimerOver s i) := by
  unfold State.refTimerOver
  repeat' first
    | with_reducible assumption
    | with_reducible apply State.showTimer_can
    | with_reducible apply State.dueFirst_can

theorem State.prepareOver_can (s : State) {Q : State} (h : Can Q s) : Can Q (State.prepareOver s) := by
  unfold State.prepareOver
  repeat' first
    | with_reducible assumption
    | with_reducible apply State.dueFirst_can

theorem State.writeCmd_can (s : State) (src a : Nat) (v : Word) {Q : State} (h : Can Q s) : Can Q (State.writeCmd s src a v) := by
  unfold State.writeCmd
  repeat' first
    | with_reducible assumption
    | with_reducible apply State.writeWord_can
    | with_reducible apply State.dueFirst_can

theorem State.guardedCmd_can (s : State) (src x : Nat) (v c : Word) {Q : State} (h : Can Q s) : Can Q (State.guardedCmd s src x v c) := by
  unfold State.guardedCmd
  repeat' first
    | with_reducible assumption
    | with_reducible apply State.guardPair_can
    | with_reducible apply State.dueFirst_can

theorem State.groupCommand_can (s : State) (src g x lo n op : Nat) (w : Word) (l : List (Nat × Word)) (v : Word) {Q : State} (h : Can Q s) : Can Q (State.groupCommand s src g x lo n op w l v) := by
  unfold State.groupCommand
  repeat' first
    | with_reducible assumption
    | (extract_lets +onlyGivenNames z; refine (fun (_ : Can Q z) => ?_) ?_; (on_goal 2 => (dsimp -zeta only [z]; clear z)); (on_goal 1 => rename' z => z'))
    | with_reducible apply State.writeWord_can
    | with_reducible apply State.writeWords_can
    | with_reducible apply State.dueFirst_can

end Sys2Proof.Machine
end

