-- ==== Sys2Proof/Laws/CanonCmdAntennas.lean ====
section
/-!
SUPPORT. The canonical form of the sparse storage through every meaning of Machine/CmdAntennas.lean.
-/

set_option Elab.async false

namespace Sys2Proof.Machine

theorem execKaGnssWake_can (dt : Nat) {Q s t : State} (h : Can Q s) (e : execKaGnssWake dt s = .next t) : Can Q t := by
  unfold execKaGnssWake at e
  refine after_can h e ?_
  clear e h
  repeat' first
    | with_reducible assumption
    | intro _
    | with_reducible apply State.kaWake_can

theorem execKaWakeEnd_can (dt : Nat) (sky : List SkyObs) {Q s t : State} (h : Can Q s) (e : execKaWakeEnd dt sky s = .next t) : Can Q t := by
  unfold execKaWakeEnd at e
  refine after_can h e ?_
  clear e h
  repeat' first
    | with_reducible assumption
    | intro _
    | with_reducible apply State.kaWakeEnd_can

theorem execGnssSolutionDone_can (dt : Nat) (side : Nat) (sol : GnssSolution) {Q s t : State} (h : Can Q s) (e : execGnssSolutionDone dt side sol s = .next t) : Can Q t := by
  unfold execGnssSolutionDone at e
  refine afterIf_can h e ?_
  clear e h
  repeat' first
    | with_reducible assumption
    | intro _
    | with_reducible apply State.solutionDone_can

theorem execGnssAlarmClear_can (dt : Nat) (side check : Nat) {Q s t : State} (h : Can Q s) (e : execGnssAlarmClear dt side check s = .next t) : Can Q t := by
  unfold execGnssAlarmClear at e
  refine afterIf_can h e ?_
  clear e h
  repeat' first
    | with_reducible assumption
    | intro _
    | with_reducible apply State.alarmClear_can

theorem execGnssExclEnd_can (dt : Nat) (side : Nat) (constellation : Bool) (key check : Nat) {Q s t : State} (h : Can Q s) (e : execGnssExclEnd dt side constellation key check s = .next t) : Can Q t := by
  unfold execGnssExclEnd at e
  refine afterIf_can h e ?_
  clear e h
  repeat' first
    | with_reducible assumption
    | intro _
    | with_reducible apply State.exclEnd_can

theorem execChannelLossOfLock_can (dt : Nat) (side chan : Nat) {Q s t : State} (h : Can Q s) (e : execChannelLossOfLock dt side chan s = .next t) : Can Q t := by
  unfold execChannelLossOfLock at e
  refine afterIf_can h e ?_
  clear e h
  repeat' first
    | with_reducible assumption
    | intro _
    | with_reducible apply State.lossOfLock_can

theorem execSignalAcquired_can (dt : Nat) (side chan cn0 state : Nat) {Q s t : State} (h : Can Q s) (e : execSignalAcquired dt side chan cn0 state s = .next t) : Can Q t := by
  unfold execSignalAcquired at e
  refine afterIf_can h e ?_
  clear e h
  repeat' first
    | with_reducible assumption
    | intro _
    | with_reducible apply State.signalAcquired_can

theorem execNavRecord_can (dt : Nat) (side : Nat) (msg : NavMessage) {Q s t : State} (h : Can Q s) (e : execNavRecord dt side msg s = .next t) : Can Q t := by
  unfold execNavRecord at e
  refine afterIf_can h e ?_
  clear e h
  repeat' first
    | with_reducible assumption
    | intro _
    | with_reducible apply State.navMessage_can

theorem execHotstartWrite_can (dt : Nat) {Q s t : State} (h : Can Q s) (e : execHotstartWrite dt s = .next t) : Can Q t := by
  unfold execHotstartWrite at e
  refine after_can h e ?_
  clear e h
  repeat' first
    | with_reducible assumption
    | intro _
    | with_reducible apply State.hotStartDue_can

theorem execSurveyStart_can (dt : Nat) (src : Nat) (cmd : Word) (words : List (Nat × Word)) (commit : Word) {Q s t : State} (h : Can Q s) (e : execSurveyStart dt src cmd words commit s = .next t) : Can Q t := by
  unfold execSurveyStart at e
  refine afterIf_can h e ?_
  clear e h
  repeat' first
    | with_reducible assumption
    | intro _
    | with_reducible apply State.groupCommand_can

theorem execSurveyAbort_can (dt : Nat) (src : Nat) (cmd : Word) (words : List (Nat × Word)) (commit : Word) {Q s t : State} (h : Can Q s) (e : execSurveyAbort dt src cmd words commit s = .next t) : Can Q t := by
  unfold execSurveyAbort at e
  refine afterIf_can h e ?_
  clear e h
  repeat' first
    | with_reducible assumption
    | intro _
    | with_reducible apply State.groupCommand_can

theorem execSurveyProgress_can (dt : Nat) (side : Nat) {Q s t : State} (h : Can Q s) (e : execSurveyProgress dt side s = .next t) : Can Q t := by
  unfold execSurveyProgress at e
  refine afterIf_can h e ?_
  clear e h
  repeat' first
    | with_reducible assumption
    | intro _
    | with_reducible apply State.surveyReport_can

theorem execSurveyComplete_can (dt : Nat) (side : Nat) {Q s t : State} (h : Can Q s) (e : execSurveyComplete dt side s = .next t) : Can Q t := by
  unfold execSurveyComplete at e
  refine afterIf_can h e ?_
  clear e h
  repeat' first
    | with_reducible assumption
    | intro _
    | with_reducible apply State.surveyEnds_can

theorem execSurveyTimeout_can (dt : Nat) (side : Nat) {Q s t : State} (h : Can Q s) (e : execSurveyTimeout dt side s = .next t) : Can Q t := by
  unfold execSurveyTimeout at e
  refine afterIf_can h e ?_
  clear e h
  repeat' first
    | with_reducible assumption
    | intro _
    | with_reducible apply State.surveyTimeout_can

theorem execPosFix_can (dt : Nat) (src : Nat) (cmd : Word) (words : List (Nat × Word)) (commit : Word) {Q s t : State} (h : Can Q s) (e : execPosFix dt src cmd words commit s = .next t) : Can Q t := by
  unfold execPosFix at e
  refine afterIf_can h e ?_
  clear e h
  repeat' first
    | with_reducible assumption
    | intro _
    | with_reducible apply State.groupCommand_can

theorem execPosClear_can (dt : Nat) (src : Nat) (cmd : Word) (words : List (Nat × Word)) (commit : Word) {Q s t : State} (h : Can Q s) (e : execPosClear dt src cmd words commit s = .next t) : Can Q t := by
  unfold execPosClear at e
  refine afterIf_can h e ?_
  clear e h
  repeat' first
    | with_reducible assumption
    | intro _
    | with_reducible apply State.groupCommand_can

theorem execSnapArm_can (dt : Nat) (src : Nat) (cmd : Word) (words : List (Nat × Word)) (commit : Word) {Q s t : State} (h : Can Q s) (e : execSnapArm dt src cmd words commit s = .next t) : Can Q t := by
  unfold execSnapArm at e
  refine afterIf_can h e ?_
  clear e h
  repeat' first
    | with_reducible assumption
    | intro _
    | with_reducible apply State.groupCommand_can

theorem execSnapAbort_can (dt : Nat) (src : Nat) (cmd : Word) (words : List (Nat × Word)) (commit : Word) {Q s t : State} (h : Can Q s) (e : execSnapAbort dt src cmd words commit s = .next t) : Can Q t := by
  unfold execSnapAbort at e
  refine afterIf_can h e ?_
  clear e h
  repeat' first
    | with_reducible assumption
    | intro _
    | with_reducible apply State.groupCommand_can

theorem execSnapTrigger_can (dt : Nat) {Q s t : State} (h : Can Q s) (e : execSnapTrigger dt s = .next t) : Can Q t := by
  unfold execSnapTrigger at e
  refine after_can h e ?_
  clear e h
  repeat' first
    | with_reducible assumption
    | intro _
    | with_reducible apply State.snapTrigger_can

theorem execSnapCaptureEnd_can (dt : Nat) {Q s t : State} (h : Can Q s) (e : execSnapCaptureEnd dt s = .next t) : Can Q t := by
  unfold execSnapCaptureEnd at e
  refine after_can h e ?_
  clear e h
  repeat' first
    | with_reducible assumption
    | intro _
    | with_reducible apply State.snapCaptureEnd_can

theorem execReplayStart_can (dt : Nat) (src : Nat) (cmd : Word) (words : List (Nat × Word)) (commit : Word) {Q s t : State} (h : Can Q s) (e : execReplayStart dt src cmd words commit s = .next t) : Can Q t := by
  unfold execReplayStart at e
  refine afterIf_can h e ?_
  clear e h
  repeat' first
    | with_reducible assumption
    | intro _
    | with_reducible apply State.groupCommand_can

theorem execReplayStop_can (dt : Nat) (src : Nat) (cmd : Word) (words : List (Nat × Word)) (commit : Word) {Q s t : State} (h : Can Q s) (e : execReplayStop dt src cmd words commit s = .next t) : Can Q t := by
  unfold execReplayStop at e
  refine afterIf_can h e ?_
  clear e h
  repeat' first
    | with_reducible assumption
    | intro _
    | with_reducible apply State.groupCommand_can

theorem execReplayEnd_can (dt : Nat) (side : Nat) {Q s t : State} (h : Can Q s) (e : execReplayEnd dt side s = .next t) : Can Q t := by
  unfold execReplayEnd at e
  refine afterIf_can h e ?_
  clear e h
  repeat' first
    | with_reducible assumption
    | intro _
    | with_reducible apply State.replayDue_can

theorem execClearExcl_can (dt : Nat) (src : Nat) (cmd : Word) (words : List (Nat × Word)) (commit : Word) {Q s t : State} (h : Can Q s) (e : execClearExcl dt src cmd words commit s = .next t) : Can Q t := by
  unfold execClearExcl at e
  refine afterIf_can h e ?_
  clear e h
  repeat' first
    | with_reducible assumption
    | intro _
    | with_reducible apply State.groupCommand_can

theorem execThetaLoRead_can (dt : Nat) (src side : Nat) {Q s t : State} (h : Can Q s) (e : execThetaLoRead dt src side s = .next t) : Can Q t := by
  unfold execThetaLoRead at e
  refine afterIf_can h e ?_
  clear e h
  repeat' first
    | with_reducible assumption
    | intro _
    | with_reducible apply State.busRead_can

theorem execRfiSpectrum_can (dt : Nat) (side band : Nat) (obs : RfiObs) {Q s t : State} (h : Can Q s) (e : execRfiSpectrum dt side band obs s = .next t) : Can Q t := by
  unfold execRfiSpectrum at e
  refine afterIf_can h e ?_
  clear e h
  repeat' first
    | with_reducible assumption
    | intro _
    | with_reducible apply State.spectrum_can

theorem execBiasShort_can (dt : Nat) (side ma : Nat) {Q s t : State} (h : Can Q s) (e : execBiasShort dt side ma s = .next t) : Can Q t := by
  unfold execBiasShort at e
  refine afterIf_can h e ?_
  clear e h
  repeat' first
    | with_reducible assumption
    | intro _
    | with_reducible apply State.biasShort_can

theorem execBiasRetry_can (dt : Nat) (side ma : Nat) {Q s t : State} (h : Can Q s) (e : execBiasRetry dt side ma s = .next t) : Can Q t := by
  unfold execBiasRetry at e
  refine afterIf_can h e ?_
  clear e h
  repeat' first
    | with_reducible assumption
    | intro _
    | with_reducible apply State.biasRetry_can

theorem execGnssFwLoad_can (dt : Nat) (side : Nat) (startOk : Bool) {Q s t : State} (h : Can Q s) (e : execGnssFwLoad dt side startOk s = .next t) : Can Q t := by
  unfold execGnssFwLoad at e
  refine afterIf_can h e ?_
  clear e h
  repeat' first
    | with_reducible assumption
    | intro _
    | with_reducible apply State.gnssLoad_can

end Sys2Proof.Machine
end

