-- ==== Sys2Proof/Laws/CanonCmdHostQueues.lean ====
section
/-!
SUPPORT. The canonical form of the sparse storage through every meaning of Machine/CmdHostQueues.lean.
-/

set_option Elab.async false

namespace Sys2Proof.Machine

theorem execKick_can (dt : Nat) {Q s t : State} (h : Can Q s) (e : execKick dt s = .next t) : Can Q t := by
  unfold execKick at e
  refine after_can h e ?_
  clear e h
  repeat' first
    | with_reducible assumption
    | intro _
    | with_reducible apply State.kick_can
    | with_reducible apply State.dueFirst_can

theorem execDoorbellReadDone_can (dt : Nat) (words : Option (List DoorbellWord)) {Q s t : State} (h : Can Q s) (e : execDoorbellReadDone dt words s = .next t) : Can Q t := by
  unfold execDoorbellReadDone at e
  refine after_can h e ?_
  clear e h
  repeat' first
    | with_reducible assumption
    | intro _
    | with_reducible apply State.doorbellDone_can

theorem execHostFrameTx_can (dt : Nat) (ring : Nat) (data : Option Bytes) {Q s t : State} (h : Can Q s) (e : execHostFrameTx dt ring data s = .next t) : Can Q t := by
  unfold execHostFrameTx at e
  refine afterIf_can h e ?_
  clear e h
  repeat' first
    | with_reducible assumption
    | intro _
    | with_reducible apply State.hostFrame_can

theorem execHostFrameTimeout_can (dt : Nat) {Q s t : State} (h : Can Q s) (e : execHostFrameTimeout dt s = .next t) : Can Q t := by
  unfold execHostFrameTimeout at e
  refine after_can h e ?_
  clear e h
  repeat' first
    | with_reducible assumption
    | intro _
    | with_reducible apply State.hostFrameTimeout_can

theorem execRecordFlush_can (dt : Nat) (ring : Nat) {Q s t : State} (h : Can Q s) (e : execRecordFlush dt ring s = .next t) : Can Q t := by
  unfold execRecordFlush at e
  refine afterIf_can h e ?_
  clear e h
  repeat' first
    | with_reducible assumption
    | intro _
    | with_reducible apply State.recordFlush_can

theorem execXfer_can (dt : Nat) (ring : Nat) (data : Bytes) (readOk : Bool) (checked : Option Bool) {Q s t : State} (h : Can Q s) (e : execXfer dt ring data readOk checked s = .next t) : Can Q t := by
  unfold execXfer at e
  refine afterIf_can h e ?_
  clear e h
  repeat' first
    | with_reducible assumption
    | intro _
    | with_reducible apply State.xfer_can
    | with_reducible apply State.xferChecked_can
    | split

theorem execVectorTimer_can (dt : Nat) (vector : Nat) {Q s t : State} (h : Can Q s) (e : execVectorTimer dt vector s = .next t) : Can Q t := by
  unfold execVectorTimer at e
  refine afterIf_can h e ?_
  clear e h
  repeat' first
    | with_reducible assumption
    | intro _
    | with_reducible apply State.vectorTimer_can

theorem execBlockEventCoalesce_can (dt : Nat) {Q s t : State} (h : Can Q s) (e : execBlockEventCoalesce dt s = .next t) : Can Q t := by
  unfold execBlockEventCoalesce at e
  refine after_can h e ?_
  clear e h
  repeat' first
    | with_reducible assumption
    | intro _
    | with_reducible apply State.coalesceEnd_can

theorem execRingQuiesced_can (dt : Nat) (ring : Nat) {Q s t : State} (h : Can Q s) (e : execRingQuiesced dt ring s = .next t) : Can Q t := by
  unfold execRingQuiesced at e
  refine afterIf_can h e ?_
  clear e h
  repeat' first
    | with_reducible assumption
    | intro _
    | with_reducible apply State.ringQuiesced_can

theorem execHostDetach_can (dt : Nat) (cause : Nat) {Q s t : State} (h : Can Q s) (e : execHostDetach dt cause s = .next t) : Can Q t := by
  unfold execHostDetach at e
  refine afterIf_can h e ?_
  clear e h
  repeat' first
    | with_reducible assumption
    | intro _
    | with_reducible apply State.hostDetach_can

theorem execPcieLinkUp_can (dt : Nat) (speed width : Nat) {Q s t : State} (h : Can Q s) (e : execPcieLinkUp dt speed width s = .next t) : Can Q t := by
  unfold execPcieLinkUp at e
  refine after_can h e ?_
  clear e h
  repeat' first
    | with_reducible assumption
    | intro _
    | with_reducible apply State.pcieUp_can

theorem execPcieRetrain_can (dt : Nat) {Q s t : State} (h : Can Q s) (e : execPcieRetrain dt s = .next t) : Can Q t := by
  unfold execPcieRetrain at e
  refine after_can h e ?_
  clear e h
  repeat' first
    | with_reducible assumption
    | intro _
    | with_reducible apply State.pcieRetrain_can

theorem execJournalFlashWrite_can (dt : Nat) {Q s t : State} (h : Can Q s) (e : execJournalFlashWrite dt s = .next t) : Can Q t := by
  unfold execJournalFlashWrite at e
  refine after_can h e ?_
  clear e h
  repeat' first
    | with_reducible assumption
    | intro _
    | with_reducible apply State.journalFlash_can

end Sys2Proof.Machine
end

