-- ==== Sys2Proof/Laws/CanonCmdKeyJobs.lean ====
section
/-!
SUPPORT. The canonical form of the sparse storage through every meaning of Machine/CmdKeyJobs.lean.
-/

set_option Elab.async false

namespace Sys2Proof.Machine

theorem execEd25519Sign_can (dt : Nat) (core : Nat) {Q s t : State} (h : Can Q s) (e : execEd25519Sign dt core s = .next t) : Can Q t := by
  unfold execEd25519Sign at e
  refine afterIf_can h e ?_
  clear e h
  repeat' first
    | with_reducible assumption
    | intro _
    | with_reducible apply State.runOp_can

theorem execEd25519Verify_can (dt : Nat) (core : Nat) {Q s t : State} (h : Can Q s) (e : execEd25519Verify dt core s = .next t) : Can Q t := by
  unfold execEd25519Verify at e
  refine afterIf_can h e ?_
  clear e h
  repeat' first
    | with_reducible assumption
    | intro _
    | with_reducible apply State.runOp_can

theorem execEd448Sign_can (dt : Nat) (core : Nat) {Q s t : State} (h : Can Q s) (e : execEd448Sign dt core s = .next t) : Can Q t := by
  unfold execEd448Sign at e
  refine afterIf_can h e ?_
  clear e h
  repeat' first
    | with_reducible assumption
    | intro _
    | with_reducible apply State.runOp_can

theorem execEd448Verify_can (dt : Nat) (core : Nat) {Q s t : State} (h : Can Q s) (e : execEd448Verify dt core s = .next t) : Can Q t := by
  unfold execEd448Verify at e
  refine afterIf_can h e ?_
  clear e h
  repeat' first
    | with_reducible assumption
    | intro _
    | with_reducible apply State.runOp_can

theorem execX25519_can (dt : Nat) (core : Nat) {Q s t : State} (h : Can Q s) (e : execX25519 dt core s = .next t) : Can Q t := by
  unfold execX25519 at e
  refine afterIf_can h e ?_
  clear e h
  repeat' first
    | with_reducible assumption
    | intro _
    | with_reducible apply State.runOp_can

theorem execX448_can (dt : Nat) (core : Nat) {Q s t : State} (h : Can Q s) (e : execX448 dt core s = .next t) : Can Q t := by
  unfold execX448 at e
  refine afterIf_can h e ?_
  clear e h
  repeat' first
    | with_reducible assumption
    | intro _
    | with_reducible apply State.runOp_can

theorem execEcdsaSign_can (dt : Nat) (core : Nat) {Q s t : State} (h : Can Q s) (e : execEcdsaSign dt core s = .next t) : Can Q t := by
  unfold execEcdsaSign at e
  refine afterIf_can h e ?_
  clear e h
  repeat' first
    | with_reducible assumption
    | intro _
    | with_reducible apply State.runOp_can

theorem execEcdsaVerify_can (dt : Nat) (core : Nat) {Q s t : State} (h : Can Q s) (e : execEcdsaVerify dt core s = .next t) : Can Q t := by
  unfold execEcdsaVerify at e
  refine afterIf_can h e ?_
  clear e h
  repeat' first
    | with_reducible assumption
    | intro _
    | with_reducible apply State.runOp_can

theorem execEcdh_can (dt : Nat) (core : Nat) {Q s t : State} (h : Can Q s) (e : execEcdh dt core s = .next t) : Can Q t := by
  unfold execEcdh at e
  refine afterIf_can h e ?_
  clear e h
  repeat' first
    | with_reducible assumption
    | intro _
    | with_reducible apply State.runOp_can

theorem execRsaPrivate_can (dt : Nat) (core : Nat) {Q s t : State} (h : Can Q s) (e : execRsaPrivate dt core s = .next t) : Can Q t := by
  unfold execRsaPrivate at e
  refine afterIf_can h e ?_
  clear e h
  repeat' first
    | with_reducible assumption
    | intro _
    | with_reducible apply State.runOp_can

theorem execRsaPublic_can (dt : Nat) (core : Nat) {Q s t : State} (h : Can Q s) (e : execRsaPublic dt core s = .next t) : Can Q t := by
  unfold execRsaPublic at e
  refine afterIf_can h e ?_
  clear e h
  repeat' first
    | with_reducible assumption
    | intro _
    | with_reducible apply State.runOp_can

theorem execKeygen_can (dt : Nat) (core : Nat) {Q s t : State} (h : Can Q s) (e : execKeygen dt core s = .next t) : Can Q t := by
  unfold execKeygen at e
  refine afterIf_can h e ?_
  clear e h
  repeat' first
    | with_reducible assumption
    | intro _
    | with_reducible apply State.runOp_can

theorem execKeyImport_can (dt : Nat) (core : Nat) {Q s t : State} (h : Can Q s) (e : execKeyImport dt core s = .next t) : Can Q t := by
  unfold execKeyImport at e
  refine afterIf_can h e ?_
  clear e h
  repeat' first
    | with_reducible assumption
    | intro _
    | with_reducible apply State.runOp_can

theorem execKeyWipe_can (dt : Nat) {Q s t : State} (h : Can Q s) (e : execKeyWipe dt s = .next t) : Can Q t := by
  unfold execKeyWipe at e
  refine after_can h e ?_
  clear e h
  repeat' first
    | with_reducible assumption
    | intro _
    | with_reducible apply State.wipeKey_can

theorem execKeyPublic_can (dt : Nat) {Q s t : State} (h : Can Q s) (e : execKeyPublic dt s = .next t) : Can Q t := by
  unfold execKeyPublic at e
  refine after_can h e ?_
  clear e h
  repeat' first
    | with_reducible assumption
    | intro _
    | with_reducible apply State.keyPublic_can

theorem execPkeDispatch_can (dt : Nat) (core : Nat) {Q s t : State} (h : Can Q s) (e : execPkeDispatch dt core s = .next t) : Can Q t := by
  unfold execPkeDispatch at e
  refine afterIf_can h e ?_
  clear e h
  repeat' first
    | with_reducible assumption
    | intro _
    | with_reducible apply State.dispatch_can

theorem execPkeYield_can (dt : Nat) (core : Nat) {Q s t : State} (h : Can Q s) (e : execPkeYield dt core s = .next t) : Can Q t := by
  unfold execPkeYield at e
  refine afterIf_can h e ?_
  clear e h
  repeat' first
    | with_reducible assumption
    | intro _
    | with_reducible apply State.yieldJob_can

theorem execPkeJobAged_can (dt : Nat) {Q s t : State} (h : Can Q s) (e : execPkeJobAged dt s = .next t) : Can Q t := by
  unfold execPkeJobAged at e
  refine after_can h e ?_
  clear e h
  repeat' first
    | with_reducible assumption
    | intro _
    | with_reducible apply State.ageJobs_can

theorem execPkeJobComplete_can (dt : Nat) (core : Nat) (wiped : Bool) {Q s t : State} (h : Can Q s) (e : execPkeJobComplete dt core wiped s = .next t) : Can Q t := by
  unfold execPkeJobComplete at e
  refine afterIf_can h e ?_
  clear e h
  repeat' first
    | with_reducible assumption
    | intro _
    | with_reducible apply State.jobCompletes_can

theorem execPkeAbort_can (dt : Nat) (src : Nat) (tag complement : Word) {Q s t : State} (h : Can Q s) (e : execPkeAbort dt src tag complement s = .next t) : Can Q t := by
  unfold execPkeAbort at e
  refine afterIf_can h e ?_
  clear e h
  repeat' first
    | with_reducible assumption
    | intro _
    | with_reducible apply State.guardedCmd_can

theorem execKeygenProgress_can (dt : Nat) (core phase tested : Nat) {Q s t : State} (h : Can Q s) (e : execKeygenProgress dt core phase tested s = .next t) : Can Q t := by
  unfold execKeygenProgress at e
  refine afterIf_can h e ?_
  clear e h
  repeat' first
    | with_reducible assumption
    | intro _
    | with_reducible apply State.keygenProgress_can

theorem execDrbgReseed_can (dt : Nat) {Q s t : State} (h : Can Q s) (e : execDrbgReseed dt s = .next t) : Can Q t := by
  unfold execDrbgReseed at e
  refine after_can h e ?_
  clear e h
  repeat' first
    | with_reducible assumption
    | intro _
    | with_reducible apply State.countSeeds_can

theorem execTrngSourceFail_can (dt : Nat) (source : Nat) (repetition : Bool) {Q s t : State} (h : Can Q s) (e : execTrngSourceFail dt source repetition s = .next t) : Can Q t := by
  unfold execTrngSourceFail at e
  refine afterIf_can h e ?_
  clear e h
  repeat' first
    | with_reducible assumption
    | intro _
    | with_reducible apply State.sourceFail_can

theorem execTrngSourceRetest_can (dt : Nat) (source : Nat) (pass : Bool) {Q s t : State} (h : Can Q s) (e : execTrngSourceRetest dt source pass s = .next t) : Can Q t := by
  unfold execTrngSourceRetest at e
  refine afterIf_can h e ?_
  clear e h
  repeat' first
    | with_reducible assumption
    | intro _
    | with_reducible apply State.sourceRetest_can

theorem execFence_can (dt : Nat) (src kind unit : Nat) (complement : Word) {Q s t : State} (h : Can Q s) (e : execFence dt src kind unit complement s = .next t) : Can Q t := by
  unfold execFence at e
  refine afterIf_can h e ?_
  clear e h
  repeat' first
    | with_reducible assumption
    | intro _
    | with_reducible apply State.guardedCmd_can

theorem execReturnUnit_can (dt : Nat) (src kind unit : Nat) (complement : Word) {Q s t : State} (h : Can Q s) (e : execReturnUnit dt src kind unit complement s = .next t) : Can Q t := by
  unfold execReturnUnit at e
  refine afterIf_can h e ?_
  clear e h
  repeat' first
    | with_reducible assumption
    | intro _
    | with_reducible apply State.guardedCmd_can

theorem execUnitSelftestDone_can (dt : Nat) (kind unit : Nat) (pass : Bool) {Q s t : State} (h : Can Q s) (e : execUnitSelftestDone dt kind unit pass s = .next t) : Can Q t := by
  unfold execUnitSelftestDone at e
  refine after_can h e ?_
  clear e h
  repeat' first
    | with_reducible assumption
    | intro _
    | with_reducible apply State.unitTested_can

end Sys2Proof.Machine
end

