-- ==== Sys2Proof/Laws/CanonCmdLanes.lean ====
section
/-!
SUPPORT. The canonical form of the sparse storage through every meaning of Machine/CmdLanes.lean.
-/

set_option Elab.async false

namespace Sys2Proof.Machine

theorem execCasLinkTick_can (dt : Nat) {Q s t : State} (h : Can Q s) (e : execCasLinkTick dt s = .next t) : Can Q t := by
  unfold execCasLinkTick at e
  refine after_can h e ?_
  clear e h
  repeat' first
    | with_reducible assumption
    | intro _
    | with_reducible apply State.linkTick_can
    | with_reducible apply State.inOrder_can

theorem execLinkFrameRx_can (dt : Nat) (lane : Nat) (frame : Bytes) (ago fecUncorr : Nat) {Q s t : State} (h : Can Q s) (e : execLinkFrameRx dt lane frame ago fecUncorr s = .next t) : Can Q t := by
  unfold execLinkFrameRx at e
  refine afterIf_can h e ?_
  clear e h
  repeat' first
    | with_reducible assumption
    | intro _
    | with_reducible apply State.linkIn_can

theorem execOpReqRx_can (dt : Nat) (lane : Nat) (frame : Bytes) {Q s t : State} (h : Can Q s) (e : execOpReqRx dt lane frame s = .next t) : Can Q t := by
  unfold execOpReqRx at e
  refine afterIf_can h e ?_
  clear e h
  repeat' first
    | with_reducible assumption
    | intro _
    | with_reducible apply State.opReqRx_can

theorem execOpRx_can (dt : Nat) (lane : Nat) (frame : Bytes) {Q s t : State} (h : Can Q s) (e : execOpRx dt lane frame s = .next t) : Can Q t := by
  unfold execOpRx at e
  refine afterIf_can h e ?_
  clear e h
  repeat' first
    | with_reducible assumption
    | intro _
    | with_reducible apply State.opRx_can

theorem execCasBarrier_can (dt : Nat) {Q s t : State} (h : Can Q s) (e : execCasBarrier dt s = .next t) : Can Q t := by
  unfold execCasBarrier at e
  refine after_can h e ?_
  clear e h
  repeat' first
    | with_reducible assumption
    | intro _
    | with_reducible apply State.barrier_can
    | with_reducible apply State.inOrder_can

theorem execCasBroadcast_can (dt : Nat) {Q s t : State} (h : Can Q s) (e : execCasBroadcast dt s = .next t) : Can Q t := by
  unfold execCasBroadcast at e
  refine after_can h e ?_
  clear e h
  repeat' first
    | with_reducible assumption
    | intro _
    | with_reducible apply State.broadcast_can
    | with_reducible apply State.inOrder_can

theorem execCasSnapshot_can (dt : Nat) {Q s t : State} (h : Can Q s) (e : execCasSnapshot dt s = .next t) : Can Q t := by
  unfold execCasSnapshot at e
  refine after_can h e ?_
  clear e h
  repeat' first
    | with_reducible assumption
    | intro _
    | with_reducible apply State.casSnapshot_can
    | with_reducible apply State.inOrder_can

theorem execServiceReset_can (dt : Nat) {Q s t : State} (h : Can Q s) (e : execServiceReset dt s = .next t) : Can Q t := by
  unfold execServiceReset at e
  refine after_can h e ?_
  clear e h
  repeat' first
    | with_reducible assumption
    | intro _
    | with_reducible apply State.serviceResetAt_can
    | with_reducible apply State.inOrder_can

theorem execResultRx_can (dt : Nat) (lane : Nat) (frame : Bytes) {Q s t : State} (h : Can Q s) (e : execResultRx dt lane frame s = .next t) : Can Q t := by
  unfold execResultRx at e
  refine afterIf_can h e ?_
  clear e h
  repeat' first
    | with_reducible assumption
    | intro _
    | with_reducible apply State.resultRx_can

theorem execResultDeadline_can (dt : Nat) {Q s t : State} (h : Can Q s) (e : execResultDeadline dt s = .next t) : Can Q t := by
  unfold execResultDeadline at e
  refine after_can h e ?_
  clear e h
  repeat' first
    | with_reducible assumption
    | intro _
    | with_reducible apply State.resultDeadline_can

theorem execDoneRx_can (dt : Nat) (lane : Nat) (frame : Bytes) {Q s t : State} (h : Can Q s) (e : execDoneRx dt lane frame s = .next t) : Can Q t := by
  unfold execDoneRx at e
  refine afterIf_can h e ?_
  clear e h
  repeat' first
    | with_reducible assumption
    | intro _
    | with_reducible apply State.doneRx_can

theorem execRequestTimeout_can (dt : Nat) {Q s t : State} (h : Can Q s) (e : execRequestTimeout dt s = .next t) : Can Q t := by
  unfold execRequestTimeout at e
  refine after_can h e ?_
  clear e h
  repeat' first
    | with_reducible assumption
    | intro _
    | with_reducible apply State.requestTimeout_can

theorem execThetaLoLaneRead_can (dt : Nat) (src lane : Nat) {Q s t : State} (h : Can Q s) (e : execThetaLoLaneRead dt src lane s = .next t) : Can Q t := by
  unfold execThetaLoLaneRead at e
  refine afterIf_can h e ?_
  clear e h
  repeat' first
    | with_reducible assumption
    | intro _
    | with_reducible apply State.busRead_can

theorem execOpResult0Read_can (dt : Nat) (src : Nat) {Q s t : State} (h : Can Q s) (e : execOpResult0Read dt src s = .next t) : Can Q t := by
  unfold execOpResult0Read at e
  refine afterIf_can h e ?_
  clear e h
  repeat' first
    | with_reducible assumption
    | intro _
    | with_reducible apply State.busRead_can

theorem execTallySel_can (dt : Nat) (src : Nat) (value : Word) {Q s t : State} (h : Can Q s) (e : execTallySel dt src value s = .next t) : Can Q t := by
  unfold execTallySel at e
  refine afterIf_can h e ?_
  clear e h
  repeat' first
    | with_reducible assumption
    | intro _
    | with_reducible apply State.writeCmd_can

theorem execStolenClear_can (dt : Nat) (src word : Nat) (value : Word) {Q s t : State} (h : Can Q s) (e : execStolenClear dt src word value s = .next t) : Can Q t := by
  unfold execStolenClear at e
  refine afterIf_can h e ?_
  clear e h
  repeat' first
    | with_reducible assumption
    | intro _
    | with_reducible apply State.writeCmd_can

theorem execSampleIndex_can (dt : Nat) (src : Nat) (value : Word) {Q s t : State} (h : Can Q s) (e : execSampleIndex dt src value s = .next t) : Can Q t := by
  unfold execSampleIndex at e
  refine afterIf_can h e ?_
  clear e h
  repeat' first
    | with_reducible assumption
    | intro _
    | with_reducible apply State.writeCmd_can

end Sys2Proof.Machine
end

