-- ==== Sys2Proof/Laws/CanonCmdLinks.lean ====
section
/-!
SUPPORT. The canonical form of the sparse storage through every meaning of Machine/CmdLinks.lean.
-/

set_option Elab.async false

namespace Sys2Proof.Machine

theorem execFrameRx_can (dt : Nat) (link : Nat) (phys : RxPhys) {Q s t : State} (h : Can Q s) (e : execFrameRx dt link phys s = .next t) : Can Q t := by
  unfold execFrameRx at e
  refine afterIf_can h e ?_
  clear e h
  repeat' first
    | with_reducible assumption
    | intro _
    | with_reducible apply State.frameIn_can

theorem execWeirLow_can (dt : Nat) (link occupancy : Nat) {Q s t : State} (h : Can Q s) (e : execWeirLow dt link occupancy s = .next t) : Can Q t := by
  unfold execWeirLow at e
  refine afterIf_can h e ?_
  clear e h
  repeat' first
    | with_reducible assumption
    | intro _
    | with_reducible apply State.weirLow_can

theorem execPauseRefresh_can (dt : Nat) (link : Nat) {Q s t : State} (h : Can Q s) (e : execPauseRefresh dt link s = .next t) : Can Q t := by
  unfold execPauseRefresh at e
  refine afterIf_can h e ?_
  clear e h
  repeat' first
    | with_reducible assumption
    | intro _
    | with_reducible apply State.pauseRefresh_can

theorem execPauseEffect_can (dt : Nat) (link : Nat) {Q s t : State} (h : Can Q s) (e : execPauseEffect dt link s = .next t) : Can Q t := by
  unfold execPauseEffect at e
  refine afterIf_can h e ?_
  clear e h
  repeat' first
    | with_reducible assumption
    | intro _
    | with_reducible apply State.pauseEffect_can

theorem execPauseHoldEnd_can (dt : Nat) (link : Nat) {Q s t : State} (h : Can Q s) (e : execPauseHoldEnd dt link s = .next t) : Can Q t := by
  unfold execPauseHoldEnd at e
  refine afterIf_can h e ?_
  clear e h
  repeat' first
    | with_reducible assumption
    | intro _
    | with_reducible apply State.pauseHoldEnd_can

theorem execPauseOverlimit_can (dt : Nat) (link : Nat) {Q s t : State} (h : Can Q s) (e : execPauseOverlimit dt link s = .next t) : Can Q t := by
  unfold execPauseOverlimit at e
  refine afterIf_can h e ?_
  clear e h
  repeat' first
    | with_reducible assumption
    | intro _
    | with_reducible apply State.pauseOverlimit_can

theorem execLinkUp_can (dt : Nat) (link rxDyn txDyn : Nat) {Q s t : State} (h : Can Q s) (e : execLinkUp dt link rxDyn txDyn s = .next t) : Can Q t := by
  unfold execLinkUp at e
  refine afterIf_can h e ?_
  clear e h
  repeat' first
    | with_reducible assumption
    | intro _
    | with_reducible apply State.anyUp_can

theorem execLinkDown_can (dt : Nat) (link : Nat) (lost : LineLock) {Q s t : State} (h : Can Q s) (e : execLinkDown dt link lost s = .next t) : Can Q t := by
  unfold execLinkDown at e
  refine afterIf_can h e ?_
  clear e h
  repeat' first
    | with_reducible assumption
    | intro _
    | with_reducible apply State.anyDown_can

theorem execCageInsert_can (dt : Nat) (cage : Nat) (responded : Bool) (ident pclass : Nat) {Q s t : State} (h : Can Q s) (e : execCageInsert dt cage responded ident pclass s = .next t) : Can Q t := by
  unfold execCageInsert at e
  refine afterIf_can h e ?_
  clear e h
  repeat' first
    | with_reducible assumption
    | intro _
    | with_reducible apply State.opticIn_can

theorem execCageRemove_can (dt : Nat) (cage : Nat) {Q s t : State} (h : Can Q s) (e : execCageRemove dt cage s = .next t) : Can Q t := by
  unfold execCageRemove at e
  refine afterIf_can h e ?_
  clear e h
  repeat' first
    | with_reducible assumption
    | intro _
    | with_reducible apply State.opticOut_can

theorem execVerifySend_can (dt : Nat) (link : Nat) {Q s t : State} (h : Can Q s) (e : execVerifySend dt link s = .next t) : Can Q t := by
  unfold execVerifySend at e
  refine afterIf_can h e ?_
  clear e h
  repeat' first
    | with_reducible assumption
    | intro _
    | with_reducible apply State.verifySend_can

theorem execVerifyResponse_can (dt : Nat) (link : Nat) {Q s t : State} (h : Can Q s) (e : execVerifyResponse dt link s = .next t) : Can Q t := by
  unfold execVerifyResponse at e
  refine afterIf_can h e ?_
  clear e h
  repeat' first
    | with_reducible assumption
    | intro _
    | with_reducible apply State.verifyResponse_can

theorem execProbeStart_can (dt : Nat) (src link : Nat) {Q s t : State} (h : Can Q s) (e : execProbeStart dt src link s = .next t) : Can Q t := by
  unfold execProbeStart at e
  refine afterIf_can h e ?_
  clear e h
  repeat' first
    | with_reducible assumption
    | intro _
    | with_reducible apply State.writeCmd_can

theorem execProbeReturn_can (dt : Nat) (link nonce captured : Nat) {Q s t : State} (h : Can Q s) (e : execProbeReturn dt link nonce captured s = .next t) : Can Q t := by
  unfold execProbeReturn at e
  refine afterIf_can h e ?_
  clear e h
  repeat' first
    | with_reducible assumption
    | intro _
    | with_reducible apply State.probeReturn_can

theorem execProbeTimeout_can (dt : Nat) (link : Nat) {Q s t : State} (h : Can Q s) (e : execProbeTimeout dt link s = .next t) : Can Q t := by
  unfold execProbeTimeout at e
  refine afterIf_can h e ?_
  clear e h
  repeat' first
    | with_reducible assumption
    | intro _
    | with_reducible apply State.probeTimeout_can

theorem execResponseBook_can (dt : Nat) (link : Nat) {Q s t : State} (h : Can Q s) (e : execResponseBook dt link s = .next t) : Can Q t := by
  unfold execResponseBook at e
  refine afterIf_can h e ?_
  clear e h
  repeat' first
    | with_reducible assumption
    | intro _
    | with_reducible apply State.bookNext_can

theorem execFinalise_can (dt : Nat) (link : Nat) {Q s t : State} (h : Can Q s) (e : execFinalise dt link s = .next t) : Can Q t := by
  unfold execFinalise at e
  refine afterIf_can h e ?_
  clear e h
  repeat' first
    | with_reducible assumption
    | intro _
    | with_reducible apply State.anyFinalise_can

theorem execCommitPoint_can (dt : Nat) (link : Nat) {Q s t : State} (h : Can Q s) (e : execCommitPoint dt link s = .next t) : Can Q t := by
  unfold execCommitPoint at e
  refine afterIf_can h e ?_
  clear e h
  repeat' first
    | with_reducible assumption
    | intro _
    | with_reducible apply State.anyCommit_can

theorem execSlotStart_can (dt : Nat) (link : Nat) {Q s t : State} (h : Can Q s) (e : execSlotStart dt link s = .next t) : Can Q t := by
  unfold execSlotStart at e
  refine afterIf_can h e ?_
  clear e h
  repeat' first
    | with_reducible assumption
    | intro _
    | with_reducible apply State.anyStart_can

theorem execAgeDrop_can (dt : Nat) (link : Nat) {Q s t : State} (h : Can Q s) (e : execAgeDrop dt link s = .next t) : Can Q t := by
  unfold execAgeDrop at e
  refine afterIf_can h e ?_
  clear e h
  repeat' first
    | with_reducible assumption
    | intro _
    | with_reducible apply State.ageDrop_can

theorem execPreemptableFrameSent_can (dt : Nat) (link : Nat) (last : Bool) {Q s t : State} (h : Can Q s) (e : execPreemptableFrameSent dt link last s = .next t) : Can Q t := by
  unfold execPreemptableFrameSent at e
  refine afterIf_can h e ?_
  clear e h
  repeat' first
    | with_reducible assumption
    | intro _
    | with_reducible apply State.sendPreemptable_can

end Sys2Proof.Machine
end

