-- ==== Sys2Proof/Laws/CanonCmdManagement.lean ====
section
/-!
SUPPORT. The canonical form of the sparse storage through every meaning of Machine/CmdManagement.lean.
-/

set_option Elab.async false

namespace Sys2Proof.Machine

theorem execSessionOpen_can (dt : Nat) (fingerprint : Bytes) (proof : Bool) (issuers : List Bytes) (notBefore notAfter : Int) {Q s t : State} (h : Can Q s) (e : execSessionOpen dt fingerprint proof issuers notBefore notAfter s = .next t) : Can Q t := by
  unfold execSessionOpen at e
  refine after_can h e ?_
  clear e h
  repeat' first
    | with_reducible assumption
    | intro _
    | with_reducible apply State.sessionOpen_can

theorem execSessionIdle_can (dt : Nat) (session : Nat) {Q s t : State} (h : Can Q s) (e : execSessionIdle dt session s = .next t) : Can Q t := by
  unfold execSessionIdle at e
  refine afterIf_can h e ?_
  clear e h
  repeat' first
    | with_reducible assumption
    | intro _
    | with_reducible apply State.sessionIdle_can

theorem execSessionClosed_can (dt : Nat) (session : Nat) (alert : Bool) {Q s t : State} (h : Can Q s) (e : execSessionClosed dt session alert s = .next t) : Can Q t := by
  unfold execSessionClosed at e
  refine afterIf_can h e ?_
  clear e h
  repeat' first
    | with_reducible assumption
    | intro _
    | with_reducible apply State.sessionClosed_can

theorem execCelenHello_can (dt : Nat) (session type : Nat) (msg : MpMsg) {Q s t : State} (h : Can Q s) (e : execCelenHello dt session type msg s = .next t) : Can Q t := by
  unfold execCelenHello at e
  refine afterIf_can h e ?_
  clear e h
  repeat' first
    | with_reducible assumption
    | intro _
    | with_reducible apply State.hello_can

theorem execCelenRead_can (dt : Nat) (session : Nat) (msg : MpMsg) {Q s t : State} (h : Can Q s) (e : execCelenRead dt session msg s = .next t) : Can Q t := by
  unfold execCelenRead at e
  refine afterIf_can h e ?_
  clear e h
  repeat' first
    | with_reducible assumption
    | intro _
    | with_reducible apply State.mpRead_can

theorem execCelenWrite_can (dt : Nat) (session : Nat) (msg : MpMsg) {Q s t : State} (h : Can Q s) (e : execCelenWrite dt session msg s = .next t) : Can Q t := by
  unfold execCelenWrite at e
  refine afterIf_can h e ?_
  clear e h
  repeat' first
    | with_reducible assumption
    | intro _
    | with_reducible apply State.mpWrite_can
    | with_reducible apply State.dueFirst_can

theorem execCelenRead64_can (dt : Nat) (session : Nat) (msg : MpMsg) {Q s t : State} (h : Can Q s) (e : execCelenRead64 dt session msg s = .next t) : Can Q t := by
  unfold execCelenRead64 at e
  refine afterIf_can h e ?_
  clear e h
  repeat' first
    | with_reducible assumption
    | intro _
    | with_reducible apply State.mpRead64_can

theorem execCelenSubscribe_can (dt : Nat) (session : Nat) (msg : MpMsg) {Q s t : State} (h : Can Q s) (e : execCelenSubscribe dt session msg s = .next t) : Can Q t := by
  unfold execCelenSubscribe at e
  refine afterIf_can h e ?_
  clear e h
  repeat' first
    | with_reducible assumption
    | intro _
    | with_reducible apply State.mpSubscribe_can

theorem execCelenUnsubscribe_can (dt : Nat) (session : Nat) (msg : MpMsg) {Q s t : State} (h : Can Q s) (e : execCelenUnsubscribe dt session msg s = .next t) : Can Q t := by
  unfold execCelenUnsubscribe at e
  refine afterIf_can h e ?_
  clear e h
  repeat' first
    | with_reducible assumption
    | intro _
    | with_reducible apply State.mpUnsubscribe_can

theorem execJournalRead_can (dt : Nat) (session : Nat) (msg : MpMsg) {Q s t : State} (h : Can Q s) (e : execJournalRead dt session msg s = .next t) : Can Q t := by
  unfold execJournalRead at e
  refine afterIf_can h e ?_
  clear e h
  repeat' first
    | with_reducible assumption
    | intro _
    | with_reducible apply State.mpJournal_can

theorem execCelenStage_can (dt : Nat) (session : Nat) (msg : MpMsg) (checked : Option Bool) {Q s t : State} (h : Can Q s) (e : execCelenStage dt session msg checked s = .next t) : Can Q t := by
  unfold execCelenStage at e
  refine afterIf_can h e ?_
  clear e h
  repeat' first
    | with_reducible assumption
    | intro _
    | with_reducible apply State.mpStage_can
    | with_reducible apply State.mpStaged_can
    | split

theorem execCelenNet_can (dt : Nat) (session : Nat) (msg : MpMsg) {Q s t : State} (h : Can Q s) (e : execCelenNet dt session msg s = .next t) : Can Q t := by
  unfold execCelenNet at e
  refine afterIf_can h e ?_
  clear e h
  repeat' first
    | with_reducible assumption
    | intro _
    | with_reducible apply State.mpNet_can

theorem execCelenTrust_can (dt : Nat) (session : Nat) (msg : MpMsg) {Q s t : State} (h : Can Q s) (e : execCelenTrust dt session msg s = .next t) : Can Q t := by
  unfold execCelenTrust at e
  refine afterIf_can h e ?_
  clear e h
  repeat' first
    | with_reducible assumption
    | intro _
    | with_reducible apply State.mpTrust_can

theorem execCelenBye_can (dt : Nat) (session : Nat) (msg : MpMsg) {Q s t : State} (h : Can Q s) (e : execCelenBye dt session msg s = .next t) : Can Q t := by
  unfold execCelenBye at e
  refine afterIf_can h e ?_
  clear e h
  repeat' first
    | with_reducible assumption
    | intro _
    | with_reducible apply State.mpBye_can

end Sys2Proof.Machine
end

