-- ==== Sys2Proof/Laws/CanonCmdOscillators.lean ====
section
/-!
SUPPORT. The canonical form of the sparse storage through every meaning of Machine/CmdOscillators.lean.
-/

set_option Elab.async false

namespace Sys2Proof.Machine

theorem execCartLoss_can (dt : Nat) (opened : Bool) {Q s t : State} (h : Can Q s) (e : execCartLoss dt opened s = .next t) : Can Q t := by
  unfold execCartLoss at e
  refine after_can h e ?_
  clear e h
  repeat' first
    | with_reducible assumption
    | intro _
    | with_reducible apply State.cartLoss_can

theorem execModelSample_can (dt : Nat) {Q s t : State} (h : Can Q s) (e : execModelSample dt s = .next t) : Can Q t := by
  unfold execModelSample at e
  refine after_can h e ?_
  clear e h
  repeat' first
    | with_reducible assumption
    | intro _
    | with_reducible apply State.modelSampleAt_can

theorem execModelFlashWrite_can (dt : Nat) {Q s t : State} (h : Can Q s) (e : execModelFlashWrite dt s = .next t) : Can Q t := by
  unfold execModelFlashWrite at e
  refine after_can h e ?_
  clear e h
  repeat' first
    | with_reducible assumption
    | intro _
    | with_reducible apply State.modelFlash_can

theorem execCartInsert_can (dt : Nat) {Q s t : State} (h : Can Q s) (e : execCartInsert dt s = .next t) : Can Q t := by
  unfold execCartInsert at e
  refine after_can h e ?_
  clear e h
  repeat' first
    | with_reducible assumption
    | intro _
    | with_reducible apply State.cartInsert_can

theorem execCartRemove_can (dt : Nat) {Q s t : State} (h : Can Q s) (e : execCartRemove dt s = .next t) : Can Q t := by
  unfold execCartRemove at e
  refine after_can h e ?_
  clear e h
  repeat' first
    | with_reducible assumption
    | intro _
    | with_reducible apply State.cartRemove_can

theorem execCartIdentified_can (dt : Nat) (code rev serial : Nat) (block : Bytes) {Q s t : State} (h : Can Q s) (e : execCartIdentified dt code rev serial block s = .next t) : Can Q t := by
  unfold execCartIdentified at e
  refine after_can h e ?_
  clear e h
  repeat' first
    | with_reducible assumption
    | intro _
    | with_reducible apply State.cartRead_can

theorem execCartIdTimeout_can (dt : Nat) {Q s t : State} (h : Can Q s) (e : execCartIdTimeout dt s = .next t) : Can Q t := by
  unfold execCartIdTimeout at e
  refine after_can h e ?_
  clear e h
  repeat' first
    | with_reducible assumption
    | intro _
    | with_reducible apply State.cartTimeout_can

theorem execCartStatusPoll_can (dt : Nat) (lock fault : Bool) {Q s t : State} (h : Can Q s) (e : execCartStatusPoll dt lock fault s = .next t) : Can Q t := by
  unfold execCartStatusPoll at e
  refine after_can h e ?_
  clear e h
  repeat' first
    | with_reducible assumption
    | intro _
    | with_reducible apply State.cartStatus_can

theorem execCartWarmTimeout_can (dt : Nat) {Q s t : State} (h : Can Q s) (e : execCartWarmTimeout dt s = .next t) : Can Q t := by
  unfold execCartWarmTimeout at e
  refine after_can h e ?_
  clear e h
  repeat' first
    | with_reducible assumption
    | intro _
    | with_reducible apply State.cartTimeout_can

theorem execCartMeasDone_can (dt : Nat) {Q s t : State} (h : Can Q s) (e : execCartMeasDone dt s = .next t) : Can Q t := by
  unfold execCartMeasDone at e
  refine after_can h e ?_
  clear e h
  repeat' first
    | with_reducible assumption
    | intro _
    | with_reducible apply State.cartMeasured_can

theorem execCartOvercurrent_can (dt : Nat) {Q s t : State} (h : Can Q s) (e : execCartOvercurrent dt s = .next t) : Can Q t := by
  unfold execCartOvercurrent at e
  refine after_can h e ?_
  clear e h
  repeat' first
    | with_reducible assumption
    | intro _
    | with_reducible apply State.cartOvercurrent_can

theorem execCartRelease_can (dt : Nat) (src : Nat) (complement : Word) {Q s t : State} (h : Can Q s) (e : execCartRelease dt src complement s = .next t) : Can Q t := by
  unfold execCartRelease at e
  refine afterIf_can h e ?_
  clear e h
  repeat' first
    | with_reducible assumption
    | intro _
    | with_reducible apply State.guardedCmd_can

theorem execCartPd2Off_can (dt : Nat) {Q s t : State} (h : Can Q s) (e : execCartPd2Off dt s = .next t) : Can Q t := by
  unfold execCartPd2Off at e
  refine after_can h e ?_
  clear e h
  repeat' first
    | with_reducible assumption
    | intro _
    | with_reducible apply State.cartPd2Off_can

theorem execCartResume_can (dt : Nat) (src : Nat) (complement : Word) {Q s t : State} (h : Can Q s) (e : execCartResume dt src complement s = .next t) : Can Q t := by
  unfold execCartResume at e
  refine afterIf_can h e ?_
  clear e h
  repeat' first
    | with_reducible assumption
    | intro _
    | with_reducible apply State.guardedCmd_can

theorem execCartForget_can (dt : Nat) (src : Nat) (complement : Word) {Q s t : State} (h : Can Q s) (e : execCartForget dt src complement s = .next t) : Can Q t := by
  unfold execCartForget at e
  refine afterIf_can h e ?_
  clear e h
  repeat' first
    | with_reducible assumption
    | intro _
    | with_reducible apply State.guardedCmd_can

theorem execKaTick_can (dt : Nat) (tempKeeper : Int) (tempCart : Option Int) {Q s t : State} (h : Can Q s) (e : execKaTick dt tempKeeper tempCart s = .next t) : Can Q t := by
  unfold execKaTick at e
  refine after_can h e ?_
  clear e h
  repeat' first
    | with_reducible assumption
    | intro _
    | with_reducible apply State.kaSecond_can

theorem execKeeperFault_can (dt : Nat) {Q s t : State} (h : Can Q s) (e : execKeeperFault dt s = .next t) : Can Q t := by
  unfold execKeeperFault at e
  refine after_can h e ?_
  clear e h
  repeat' first
    | with_reducible assumption
    | intro _
    | with_reducible apply State.raise_can

end Sys2Proof.Machine
end

