-- ==== Sys2Proof/Laws/CanonCmdPtpEvents.lean ====
section
/-!
SUPPORT. The canonical form of the sparse storage through every meaning of Machine/CmdPtpEvents.lean.
-/

set_option Elab.async false

namespace Sys2Proof.Machine

theorem execDelayReqRx_can (dt : Nat) {Q s t : State} (h : Can Q s) (e : execDelayReqRx dt s = .next t) : Can Q t := by
  unfold execDelayReqRx at e
  refine after_can h e ?_
  clear e h
  repeat' first
    | with_reducible assumption
    | intro _
    | with_reducible apply State.delayReq_can

theorem execUnicastRequestRx_can (dt : Nat) {Q s t : State} (h : Can Q s) (e : execUnicastRequestRx dt s = .next t) : Can Q t := by
  unfold execUnicastRequestRx at e
  refine after_can h e ?_
  clear e h
  repeat' first
    | with_reducible assumption
    | intro _
    | with_reducible apply State.unicastRequest_can

theorem execUnicastCancelRx_can (dt : Nat) {Q s t : State} (h : Can Q s) (e : execUnicastCancelRx dt s = .next t) : Can Q t := by
  unfold execUnicastCancelRx at e
  refine after_can h e ?_
  clear e h
  repeat' first
    | with_reducible assumption
    | intro _
    | with_reducible apply State.unicastCancel_can

theorem execGrantExpire_can (dt : Nat) {Q s t : State} (h : Can Q s) (e : execGrantExpire dt s = .next t) : Can Q t := by
  unfold execGrantExpire at e
  refine after_can h e ?_
  clear e h
  repeat' first
    | with_reducible assumption
    | intro _
    | with_reducible apply State.grantExpire_can

theorem execSlaveMessageRx_can (dt : Nat) {Q s t : State} (h : Can Q s) (e : execSlaveMessageRx dt s = .next t) : Can Q t := by
  unfold execSlaveMessageRx at e
  refine after_can h e ?_
  clear e h
  repeat' first
    | with_reducible assumption
    | intro _
    | with_reducible apply State.slaveMessage_can

theorem execAnnTimeout_can (dt : Nat) (slave : Nat) {Q s t : State} (h : Can Q s) (e : execAnnTimeout dt slave s = .next t) : Can Q t := by
  unfold execAnnTimeout at e
  refine afterIf_can h e ?_
  clear e h
  repeat' first
    | with_reducible assumption
    | intro _
    | with_reducible apply State.annTimeout_can

theorem execSlaveGrantRenew_can (dt : Nat) (slave : Nat) {Q s t : State} (h : Can Q s) (e : execSlaveGrantRenew dt slave s = .next t) : Can Q t := by
  unfold execSlaveGrantRenew at e
  refine afterIf_can h e ?_
  clear e h
  repeat' first
    | with_reducible assumption
    | intro _
    | with_reducible apply State.slaveRenew_can

theorem execEsmcRx_can (dt : Nat) {Q s t : State} (h : Can Q s) (e : execEsmcRx dt s = .next t) : Can Q t := by
  unfold execEsmcRx at e
  refine after_can h e ?_
  clear e h
  repeat' first
    | with_reducible assumption
    | intro _
    | with_reducible apply State.esmcReceived_can

theorem execGrantUnicastTransmissionRx_can (dt : Nat) {Q s t : State} (h : Can Q s) (e : execGrantUnicastTransmissionRx dt s = .next t) : Can Q t := by
  unfold execGrantUnicastTransmissionRx at e
  refine after_can h e ?_
  clear e h
  repeat' first
    | with_reducible assumption
    | intro _
    | with_reducible apply State.grantReceived_can

end Sys2Proof.Machine
end

