-- ==== Sys2Proof/Laws/CanonCmdReceiptEvents.lean ====
section
/-!
SUPPORT. The canonical form of the sparse storage through every meaning of Machine/CmdReceiptEvents.lean.
-/

set_option Elab.async false

namespace Sys2Proof.Machine

theorem execEtxelRequest_can (dt : Nat) (pipe : Nat) {Q s t : State} (h : Can Q s) (e : execEtxelRequest dt pipe s = .next t) : Can Q t := by
  unfold execEtxelRequest at e
  refine afterIf_can h e ?_
  clear e h
  repeat' first
    | with_reducible assumption
    | intro _
    | with_reducible apply State.etxelRequest_can

theorem execRoughtimeRequest_can (dt : Nat) (pipe : Nat) {Q s t : State} (h : Can Q s) (e : execRoughtimeRequest dt pipe s = .next t) : Can Q t := by
  unfold execRoughtimeRequest at e
  refine afterIf_can h e ?_
  clear e h
  repeat' first
    | with_reducible assumption
    | intro _
    | with_reducible apply State.roughtimeRequest_can

theorem execSealDone_can (dt : Nat) {Q s t : State} (h : Can Q s) (e : execSealDone dt s = .next t) : Can Q t := by
  unfold execSealDone at e
  refine after_can h e ?_
  clear e h
  repeat' first
    | with_reducible assumption
    | intro _
    | with_reducible apply State.sealDone_can

theorem execSealTimeout_can (dt : Nat) {Q s t : State} (h : Can Q s) (e : execSealTimeout dt s = .next t) : Can Q t := by
  unfold execSealTimeout at e
  refine after_can h e ?_
  clear e h
  repeat' first
    | with_reducible assumption
    | intro _
    | with_reducible apply State.sealTimeout_can

theorem execReceiptRelease_can (dt : Nat) {Q s t : State} (h : Can Q s) (e : execReceiptRelease dt s = .next t) : Can Q t := by
  unfold execReceiptRelease at e
  refine after_can h e ?_
  clear e h
  repeat' first
    | with_reducible assumption
    | intro _
    | with_reducible apply State.receiptRelease_can

theorem execOnlineKeyExpire_can (dt : Nat) {Q s t : State} (h : Can Q s) (e : execOnlineKeyExpire dt s = .next t) : Can Q t := by
  unfold execOnlineKeyExpire at e
  refine after_can h e ?_
  clear e h
  repeat' first
    | with_reducible assumption
    | intro _
    | with_reducible apply State.onlineExpire_can

theorem execRcpRotateNow_can (dt : Nat) (src : Nat) (complement : Word) {Q s t : State} (h : Can Q s) (e : execRcpRotateNow dt src complement s = .next t) : Can Q t := by
  unfold execRcpRotateNow at e
  refine afterIf_can h e ?_
  clear e h
  repeat' first
    | with_reducible assumption
    | intro _
    | with_reducible apply State.guardedCmd_can

theorem execLtSlot_can (dt : Nat) (src : Nat) (value : Word) {Q s t : State} (h : Can Q s) (e : execLtSlot dt src value s = .next t) : Can Q t := by
  unfold execLtSlot at e
  refine afterIf_can h e ?_
  clear e h
  repeat' first
    | with_reducible assumption
    | intro _
    | with_reducible apply State.writeCmd_can

end Sys2Proof.Machine
end

