-- ==== Sys2Proof/Laws/CanonCmdReferences.lean ====
section
/-!
SUPPORT. The canonical form of the sparse storage through every meaning of Machine/CmdReferences.lean.
-/

set_option Elab.async false

namespace Sys2Proof.Machine

theorem execQualTimeExpire_can (dt : Nat) (ref : Nat) {Q s t : State} (h : Can Q s) (e : execQualTimeExpire dt ref s = .next t) : Can Q t := by
  unfold execQualTimeExpire at e
  refine afterIf_can h e ?_
  clear e h
  repeat' first
    | with_reducible assumption
    | intro _
    | with_reducible apply State.refTimerOver_can

theorem execWtrExpire_can (dt : Nat) (ref : Nat) {Q s t : State} (h : Can Q s) (e : execWtrExpire dt ref s = .next t) : Can Q t := by
  unfold execWtrExpire at e
  refine afterIf_can h e ?_
  clear e h
  repeat' first
    | with_reducible assumption
    | intro _
    | with_reducible apply State.refTimerOver_can

theorem execDistrustHoldExpire_can (dt : Nat) (ref : Nat) {Q s t : State} (h : Can Q s) (e : execDistrustHoldExpire dt ref s = .next t) : Can Q t := by
  unfold execDistrustHoldExpire at e
  refine afterIf_can h e ?_
  clear e h
  repeat' first
    | with_reducible assumption
    | intro _
    | with_reducible apply State.refTimerOver_can

theorem execPrepareEnd_can (dt : Nat) {Q s t : State} (h : Can Q s) (e : execPrepareEnd dt s = .next t) : Can Q t := by
  unfold execPrepareEnd at e
  refine after_can h e ?_
  clear e h
  repeat' first
    | with_reducible assumption
    | intro _
    | with_reducible apply State.prepareOver_can

theorem execRefLossTimeout_can (dt : Nat) (ref : Nat) {Q s t : State} (h : Can Q s) (e : execRefLossTimeout dt ref s = .next t) : Can Q t := by
  unfold execRefLossTimeout at e
  refine afterIf_can h e ?_
  clear e h
  repeat' first
    | with_reducible assumption
    | intro _
    | with_reducible apply State.refLossTimeout_can

theorem execRefForce_can (dt : Nat) (src : Nat) (value complement : Word) {Q s t : State} (h : Can Q s) (e : execRefForce dt src value complement s = .next t) : Can Q t := by
  unfold execRefForce at e
  refine afterIf_can h e ?_
  clear e h
  repeat' first
    | with_reducible assumption
    | intro _
    | with_reducible apply State.guardedCmd_can

theorem execClearDistrust_can (dt : Nat) (src : Nat) (value complement : Word) {Q s t : State} (h : Can Q s) (e : execClearDistrust dt src value complement s = .next t) : Can Q t := by
  unfold execClearDistrust at e
  refine afterIf_can h e ?_
  clear e h
  repeat' first
    | with_reducible assumption
    | intro _
    | with_reducible apply State.guardedCmd_can

theorem execOffsetLoRead_can (dt : Nat) (src ref : Nat) {Q s t : State} (h : Can Q s) (e : execOffsetLoRead dt src ref s = .next t) : Can Q t := by
  unfold execOffsetLoRead at e
  refine afterIf_can h e ?_
  clear e h
  repeat' first
    | with_reducible assumption
    | intro _
    | with_reducible apply State.busRead_can

theorem execQcontactChange_can (dt : Nat) (closed : Bool) {Q s t : State} (h : Can Q s) (e : execQcontactChange dt closed s = .next t) : Can Q t := by
  unfold execQcontactChange at e
  refine after_can h e ?_
  clear e h
  repeat' first
    | with_reducible assumption
    | intro _
    | with_reducible apply State.contactChange_can

theorem execTodSentenceRx_can (dt : Nat) (text : Bytes) (framing : Bool) {Q s t : State} (h : Can Q s) (e : execTodSentenceRx dt text framing s = .next t) : Can Q t := by
  unfold execTodSentenceRx at e
  refine after_can h e ?_
  clear e h
  repeat' first
    | with_reducible assumption
    | intro _
    | with_reducible apply State.todRx_can

end Sys2Proof.Machine
end

