-- ==== Sys2Proof/Laws/CanonCmdRegister.lean ====
section
/-!
SUPPORT. The canonical form of the sparse storage through every meaning of Machine/CmdRegister.lean.
-/

set_option Elab.async false

namespace Sys2Proof.Machine

theorem execRegisterWrite_can (dt : Nat) (src addr : Nat) (lanes : List (Nat × Word)) {Q s t : State} (h : Can Q s) (e : execRegisterWrite dt src addr lanes s = .next t) : Can Q t := by
  unfold execRegisterWrite at e
  refine afterIf_can h e ?_
  clear e h
  repeat' first
    | with_reducible assumption
    | intro _
    | with_reducible apply State.busWrite_can
    | with_reducible apply State.dueFirst_can

theorem execCrClearingRead_can (dt : Nat) (src addr : Nat) (wide : Bool) {Q s t : State} (h : Can Q s) (e : execCrClearingRead dt src addr wide s = .next t) : Can Q t := by
  unfold execCrClearingRead at e
  refine afterIf_can h e ?_
  clear e h
  repeat' first
    | with_reducible assumption
    | intro _
    | with_reducible apply State.busRead_can

theorem execSqAcknowledge_can (dt : Nat) (src addr : Nat) (value : Word) {Q s t : State} (h : Can Q s) (e : execSqAcknowledge dt src addr value s = .next t) : Can Q t := by
  unfold execSqAcknowledge at e
  refine afterIf_can h e ?_
  clear e h
  repeat' first
    | with_reducible assumption
    | intro _
    | with_reducible apply State.writeCmd_can

theorem execStageWrite_can (dt : Nat) (src addr : Nat) (value : Word) {Q s t : State} (h : Can Q s) (e : execStageWrite dt src addr value s = .next t) : Can Q t := by
  unfold execStageWrite at e
  refine afterIf_can h e ?_
  clear e h
  repeat' first
    | with_reducible assumption
    | intro _
    | with_reducible apply State.writeCmd_can

theorem execLkWrite_can (dt : Nat) (src addr : Nat) (value : Word) {Q s t : State} (h : Can Q s) (e : execLkWrite dt src addr value s = .next t) : Can Q t := by
  unfold execLkWrite at e
  refine afterIf_can h e ?_
  clear e h
  repeat' first
    | with_reducible assumption
    | intro _
    | with_reducible apply State.writeCmd_can

theorem execGuardTimeout_can (dt : Nat) (src : Nat) {Q s t : State} (h : Can Q s) (e : execGuardTimeout dt src s = .next t) : Can Q t := by
  unfold execGuardTimeout at e
  refine afterIf_can h e ?_
  clear e h
  repeat' first
    | with_reducible assumption
    | intro _
    | with_reducible apply State.guardTimeout_can

theorem execSluCommit_can (dt : Nat) (src group : Nat) (value : Word) {Q s t : State} (h : Can Q s) (e : execSluCommit dt src group value s = .next t) : Can Q t := by
  unfold execSluCommit at e
  refine afterIf_can h e ?_
  clear e h
  repeat' first
    | with_reducible assumption
    | intro _
    | with_reducible apply State.writeCmd_can

theorem execSluCancel_can (dt : Nat) (src group : Nat) {Q s t : State} (h : Can Q s) (e : execSluCancel dt src group s = .next t) : Can Q t := by
  unfold execSluCancel at e
  refine afterIf_can h e ?_
  clear e h
  repeat' first
    | with_reducible assumption
    | intro _
    | with_reducible apply State.writeCmd_can

theorem execSluRevert_can (dt : Nat) (src group : Nat) {Q s t : State} (h : Can Q s) (e : execSluRevert dt src group s = .next t) : Can Q t := by
  unfold execSluRevert at e
  refine afterIf_can h e ?_
  clear e h
  repeat' first
    | with_reducible assumption
    | intro _
    | with_reducible apply State.writeCmd_can

theorem execFlowAdopt_can (dt : Nat) (link dir : Nat) {Q s t : State} (h : Can Q s) (e : execFlowAdopt dt link dir s = .next t) : Can Q t := by
  unfold execFlowAdopt at e
  refine afterIf_can h e ?_
  clear e h
  repeat' first
    | with_reducible assumption
    | intro _
    | with_reducible apply State.flowPoint_can

theorem execAddrApply_can (dt : Nat) {Q s t : State} (h : Can Q s) (e : execAddrApply dt s = .next t) : Can Q t := by
  unfold execAddrApply at e
  refine after_can h e ?_
  clear e h
  repeat' first
    | with_reducible assumption
    | intro _
    | with_reducible apply State.addrApply_can

theorem execParityScrub_can (dt : Nat) (live staging pending : List Nat) {Q s t : State} (h : Can Q s) (e : execParityScrub dt live staging pending s = .next t) : Can Q t := by
  unfold execParityScrub at e
  refine after_can h e ?_
  clear e h
  repeat' first
    | with_reducible assumption
    | intro _
    | with_reducible apply State.parityScrub_can

theorem execNowSecLoRead_can (dt : Nat) (src : Nat) {Q s t : State} (h : Can Q s) (e : execNowSecLoRead dt src s = .next t) : Can Q t := by
  unfold execNowSecLoRead at e
  refine afterIf_can h e ?_
  clear e h
  repeat' first
    | with_reducible assumption
    | intro _
    | with_reducible apply State.busRead_can

end Sys2Proof.Machine
end

