-- ==== Sys2Proof/Laws/CanonCmdRequests.lean ====
section
/-!
SUPPORT. The canonical form of the sparse storage through every meaning of Machine/CmdRequests.lean.
-/

set_option Elab.async false

namespace Sys2Proof.Machine

theorem execArpRequest_can (dt : Nat) {Q s t : State} (h : Can Q s) (e : execArpRequest dt s = .next t) : Can Q t := by
  unfold execArpRequest at e
  refine after_can h e ?_
  clear e h
  repeat' first
    | with_reducible assumption
    | intro _
    | with_reducible apply State.answerArp_can

theorem execNeighborSolicitation_can (dt : Nat) {Q s t : State} (h : Can Q s) (e : execNeighborSolicitation dt s = .next t) : Can Q t := by
  unfold execNeighborSolicitation at e
  refine after_can h e ?_
  clear e h
  repeat' first
    | with_reducible assumption
    | intro _
    | with_reducible apply State.answerNd_can

theorem execExceptionFrame_can (dt : Nat) {Q s t : State} (h : Can Q s) (e : execExceptionFrame dt s = .next t) : Can Q t := by
  unfold execExceptionFrame at e
  refine after_can h e ?_
  clear e h
  repeat' first
    | with_reducible assumption
    | intro _
    | with_reducible apply State.exceptionFrame_can

theorem execNtpRequest_can (dt : Nat) (pipe : Nat) {Q s t : State} (h : Can Q s) (e : execNtpRequest dt pipe s = .next t) : Can Q t := by
  unfold execNtpRequest at e
  refine afterIf_can h e ?_
  clear e h
  repeat' first
    | with_reducible assumption
    | intro _
    | with_reducible apply State.ntpRequest_can

theorem execNtsRequest_can (dt : Nat) (pipe : Nat) {Q s t : State} (h : Can Q s) (e : execNtsRequest dt pipe s = .next t) : Can Q t := by
  unfold execNtsRequest at e
  refine afterIf_can h e ?_
  clear e h
  repeat' first
    | with_reducible assumption
    | intro _
    | with_reducible apply State.ntsRequest_can

theorem execBucketMoveDone_can (dt : Nat) (bucket : Nat) {Q s t : State} (h : Can Q s) (e : execBucketMoveDone dt bucket s = .next t) : Can Q t := by
  unfold execBucketMoveDone at e
  refine afterIf_can h e ?_
  clear e h
  repeat' first
    | with_reducible assumption
    | intro _
    | with_reducible apply State.bucketMoved_can

theorem execClientQuery_can (dt : Nat) (src : Nat) (cmd : Word) (words : List (Nat × Word)) (commit : Word) {Q s t : State} (h : Can Q s) (e : execClientQuery dt src cmd words commit s = .next t) : Can Q t := by
  unfold execClientQuery at e
  refine afterIf_can h e ?_
  clear e h
  repeat' first
    | with_reducible assumption
    | intro _
    | with_reducible apply State.groupCommand_can

theorem execNtsRotateNow_can (dt : Nat) (src : Nat) (complement : Word) {Q s t : State} (h : Can Q s) (e : execNtsRotateNow dt src complement s = .next t) : Can Q t := by
  unfold execNtsRotateNow at e
  refine afterIf_can h e ?_
  clear e h
  repeat' first
    | with_reducible assumption
    | intro _
    | with_reducible apply State.guardedCmd_can

theorem execNtsPurge_can (dt : Nat) (src : Nat) (complement : Word) {Q s t : State} (h : Can Q s) (e : execNtsPurge dt src complement s = .next t) : Can Q t := by
  unfold execNtsPurge at e
  refine afterIf_can h e ?_
  clear e h
  repeat' first
    | with_reducible assumption
    | intro _
    | with_reducible apply State.guardedCmd_can

theorem execNtsKeyDrawn_can (dt : Nat) {Q s t : State} (h : Can Q s) (e : execNtsKeyDrawn dt s = .next t) : Can Q t := by
  unfold execNtsKeyDrawn at e
  refine after_can h e ?_
  clear e h
  repeat' first
    | with_reducible assumption
    | intro _
    | with_reducible apply State.ntsKeyDrawn_can

theorem execKeyDeferRetry_can (dt : Nat) {Q s t : State} (h : Can Q s) (e : execKeyDeferRetry dt s = .next t) : Can Q t := by
  unfold execKeyDeferRetry at e
  refine after_can h e ?_
  clear e h
  repeat' first
    | with_reducible assumption
    | intro _
    | with_reducible apply State.keyDeferRetry_can

theorem execMintJob_can (dt : Nat) (mint : Option Bytes) {Q s t : State} (h : Can Q s) (e : execMintJob dt mint s = .next t) : Can Q t := by
  unfold execMintJob at e
  refine after_can h e ?_
  clear e h
  repeat' first
    | with_reducible assumption
    | intro _
    | with_reducible apply State.mintJob_can

theorem execDrain_can (dt : Nat) (src pipe : Nat) {Q s t : State} (h : Can Q s) (e : execDrain dt src pipe s = .next t) : Can Q t := by
  unfold execDrain at e
  refine afterIf_can h e ?_
  clear e h
  repeat' first
    | with_reducible assumption
    | intro _
    | with_reducible apply State.writeCmd_can

theorem execDrainComplete_can (dt : Nat) (pipe : Nat) {Q s t : State} (h : Can Q s) (e : execDrainComplete dt pipe s = .next t) : Can Q t := by
  unfold execDrainComplete at e
  refine afterIf_can h e ?_
  clear e h
  repeat' first
    | with_reducible assumption
    | intro _
    | with_reducible apply State.drainDone_can

theorem execReload_can (dt : Nat) (src pipe : Nat) (held : Bool) {Q s t : State} (h : Can Q s) (e : execReload dt src pipe held s = .next t) : Can Q t := by
  unfold execReload at e
  refine afterIf_can h e ?_
  clear e h
  repeat' first
    | with_reducible assumption
    | intro _
    | with_reducible apply State.writeCmd_can

theorem execReloadComplete_can (dt : Nat) (pipe : Nat) (pass : Bool) {Q s t : State} (h : Can Q s) (e : execReloadComplete dt pipe pass s = .next t) : Can Q t := by
  unfold execReloadComplete at e
  refine afterIf_can h e ?_
  clear e h
  repeat' first
    | with_reducible assumption
    | intro _
    | with_reducible apply State.reloadDone_can

end Sys2Proof.Machine
end

