-- ==== Sys2Proof/Laws/CanonCmdSupplies.lean ====
section
/-!
SUPPORT. The canonical form of the sparse storage through every meaning of Machine/CmdSupplies.lean.
-/

set_option Elab.async false

namespace Sys2Proof.Machine

theorem execInputQualified_can (dt : Nat) (input : Nat) (sense : PowerSense) {Q s t : State} (h : Can Q s) (e : execInputQualified dt input sense s = .next t) : Can Q t := by
  unfold execInputQualified at e
  refine afterIf_can h e ?_
  clear e h
  repeat' first
    | with_reducible assumption
    | intro _
    | with_reducible apply State.showSense_can
    | with_reducible apply State.inputQualified_can

theorem execInputLost_can (dt : Nat) (input : Nat) (sense : PowerSense) {Q s t : State} (h : Can Q s) (e : execInputLost dt input sense s = .next t) : Can Q t := by
  unfold execInputLost at e
  refine afterIf_can h e ?_
  clear e h
  repeat' first
    | with_reducible assumption
    | intro _
    | with_reducible apply State.showSense_can
    | with_reducible apply State.inputLost_can

theorem execMainPowerLost_can (dt : Nat) {Q s t : State} (h : Can Q s) (e : execMainPowerLost dt s = .next t) : Can Q t := by
  unfold execMainPowerLost at e
  refine after_can h e ?_
  clear e h
  repeat' first
    | with_reducible assumption
    | intro _
    | with_reducible apply State.mainPowerLost_can

theorem execKaLost_can (dt : Nat) {Q s t : State} (h : Can Q s) (e : execKaLost dt s = .next t) : Can Q t := by
  unfold execKaLost at e
  refine after_can h e ?_
  clear e h
  repeat' first
    | with_reducible assumption
    | intro _
    | with_reducible apply State.kaLost_can

theorem execPowerStart_can (dt : Nat) (steps : List StepObs) {Q s t : State} (h : Can Q s) (e : execPowerStart dt steps s = .next t) : Can Q t := by
  unfold execPowerStart at e
  refine after_can h e ?_
  clear e h
  repeat' first
    | with_reducible assumption
    | intro _
    | with_reducible apply State.powerStart_can

theorem execStepTimeout_can (dt : Nat) (steps : List StepObs) {Q s t : State} (h : Can Q s) (e : execStepTimeout dt steps s = .next t) : Can Q t := by
  unfold execStepTimeout at e
  refine after_can h e ?_
  clear e h
  repeat' first
    | with_reducible assumption
    | intro _
    | with_reducible apply State.stepTimeout_can

theorem execSafeHoldRetry_can (dt : Nat) (steps : List StepObs) {Q s t : State} (h : Can Q s) (e : execSafeHoldRetry dt steps s = .next t) : Can Q t := by
  unfold execSafeHoldRetry at e
  refine after_can h e ?_
  clear e h
  repeat' first
    | with_reducible assumption
    | intro _
    | with_reducible apply State.safeHoldRetry_can

theorem execStabilityReached_can (dt : Nat) {Q s t : State} (h : Can Q s) (e : execStabilityReached dt s = .next t) : Can Q t := by
  unfold execStabilityReached at e
  refine after_can h e ?_
  clear e h
  repeat' first
    | with_reducible assumption
    | intro _
    | with_reducible apply State.stabilityReached_can

theorem execResetFull_can (dt : Nat) (src : Nat) (complement : Word) (acts : Option (List StepObs)) {Q s t : State} (h : Can Q s) (e : execResetFull dt src complement acts s = .next t) : Can Q t := by
  unfold execResetFull at e
  refine afterIf_can h e ?_
  clear e h
  repeat' first
    | with_reducible assumption
    | intro _
    | with_reducible apply State.fullActs_can
    | with_reducible apply State.guardedCmd_can
    | split

theorem execResetMgmt_can (dt : Nat) (src : Nat) (complement : Word) (ends : Option (List Bool)) {Q s t : State} (h : Can Q s) (e : execResetMgmt dt src complement ends s = .next t) : Can Q t := by
  unfold execResetMgmt at e
  refine afterIf_can h e ?_
  clear e h
  repeat' first
    | with_reducible assumption
    | intro _
    | with_reducible apply State.mgmtEnd_can
    | with_reducible apply State.guardedCmd_can
    | split

theorem execWatchdog_can (dt : Nat) (ends : Option (List Bool)) {Q s t : State} (h : Can Q s) (e : execWatchdog dt ends s = .next t) : Can Q t := by
  unfold execWatchdog at e
  refine after_can h e ?_
  clear e h
  repeat' first
    | with_reducible assumption
    | intro _
    | with_reducible apply State.mgmtBegin_can
    | with_reducible apply State.mgmtEnd_can
    | split

theorem execSupervisorSilent_can (dt : Nat) (steps : List StepObs) {Q s t : State} (h : Can Q s) (e : execSupervisorSilent dt steps s = .next t) : Can Q t := by
  unfold execSupervisorSilent at e
  refine after_can h e ?_
  clear e h
  repeat' first
    | with_reducible assumption
    | intro _
    | with_reducible apply State.supervisorSilent_can

theorem execThermWarn_can (dt : Nat) (sense : PowerSense) {Q s t : State} (h : Can Q s) (e : execThermWarn dt sense s = .next t) : Can Q t := by
  unfold execThermWarn at e
  refine after_can h e ?_
  clear e h
  repeat' first
    | with_reducible assumption
    | intro _
    | with_reducible apply State.thermReached_can

theorem execThermalHold_can (dt : Nat) (sense : PowerSense) {Q s t : State} (h : Can Q s) (e : execThermalHold dt sense s = .next t) : Can Q t := by
  unfold execThermalHold at e
  refine after_can h e ?_
  clear e h
  repeat' first
    | with_reducible assumption
    | intro _
    | with_reducible apply State.thermalHold_can

theorem execThermalRecover_can (dt : Nat) (sense : PowerSense) (steps : List StepObs) {Q s t : State} (h : Can Q s) (e : execThermalRecover dt sense steps s = .next t) : Can Q t := by
  unfold execThermalRecover at e
  refine after_can h e ?_
  clear e h
  repeat' first
    | with_reducible assumption
    | intro _
    | with_reducible apply State.thermalRecover_can

theorem execBootStore_can (dt : Nat) (src : Nat) (complement : Word) (ends : Option Bool) {Q s t : State} (h : Can Q s) (e : execBootStore dt src complement ends s = .next t) : Can Q t := by
  unfold execBootStore at e
  refine afterIf_can h e ?_
  clear e h
  repeat' first
    | with_reducible assumption
    | intro _
    | with_reducible apply State.storeEnds_can
    | with_reducible apply State.guardedCmd_can
    | split

theorem execBootClear_can (dt : Nat) (src : Nat) (complement : Word) {Q s t : State} (h : Can Q s) (e : execBootClear dt src complement s = .next t) : Can Q t := by
  unfold execBootClear at e
  refine afterIf_can h e ?_
  clear e h
  repeat' first
    | with_reducible assumption
    | intro _
    | with_reducible apply State.guardedCmd_can

theorem execBootRetrain_can (dt : Nat) (src : Nat) (complement : Word) {Q s t : State} (h : Can Q s) (e : execBootRetrain dt src complement s = .next t) : Can Q t := by
  unfold execBootRetrain at e
  refine afterIf_can h e ?_
  clear e h
  repeat' first
    | with_reducible assumption
    | intro _
    | with_reducible apply State.guardedCmd_can

theorem execAlarmConditionChange_can (dt : Nat) {Q s t : State} (h : Can Q s) (e : execAlarmConditionChange dt s = .next t) : Can Q t := by
  unfold execAlarmConditionChange at e
  refine after_can h e ?_
  clear e h
  repeat' first
    | with_reducible assumption
    | intro _
    | with_reducible apply State.alarmChange_can

theorem execAlarmCloseTimer_can (dt : Nat) (contact : Nat) {Q s t : State} (h : Can Q s) (e : execAlarmCloseTimer dt contact s = .next t) : Can Q t := by
  unfold execAlarmCloseTimer at e
  refine afterIf_can h e ?_
  clear e h
  repeat' first
    | with_reducible assumption
    | intro _
    | with_reducible apply State.alarmClose_can

theorem execNoSelectionTimer_can (dt : Nat) {Q s t : State} (h : Can Q s) (e : execNoSelectionTimer dt s = .next t) : Can Q t := by
  unfold execNoSelectionTimer at e
  refine after_can h e ?_
  clear e h
  repeat' first
    | with_reducible assumption
    | intro _
    | with_reducible apply State.noSelection_can

end Sys2Proof.Machine
end

