-- ==== Sys2Proof/Laws/CanonCmdTags.lean ====
section
/-!
SUPPORT. The canonical form of the sparse storage through every meaning of Machine/CmdTags.lean.
-/

set_option Elab.async false

namespace Sys2Proof.Machine

theorem execTagEdge_can (dt : Nat) (chan : Nat) (rising : Bool) (sub cycles : Nat) {Q s t : State} (h : Can Q s) (e : execTagEdge dt chan rising sub cycles s = .next t) : Can Q t := by
  unfold execTagEdge at e
  refine afterIf_can h e ?_
  clear e h
  repeat' first
    | with_reducible assumption
    | intro _
    | with_reducible apply State.tagEdge_can

theorem execTagForward_can (dt : Nat) {Q s t : State} (h : Can Q s) (e : execTagForward dt s = .next t) : Can Q t := by
  unfold execTagForward at e
  refine after_can h e ?_
  clear e h
  repeat' first
    | with_reducible assumption
    | intro _
    | with_reducible apply State.forwardTags_can

theorem execMeasClose_can (dt : Nat) (prog : Nat) {Q s t : State} (h : Can Q s) (e : execMeasClose dt prog s = .next t) : Can Q t := by
  unfold execMeasClose at e
  refine afterIf_can h e ?_
  clear e h
  repeat' first
    | with_reducible assumption
    | intro _
    | with_reducible apply State.measClose_can

theorem execMeasGateClose_can (dt : Nat) (prog : Nat) {Q s t : State} (h : Can Q s) (e : execMeasGateClose dt prog s = .next t) : Can Q t := by
  unfold execMeasGateClose at e
  refine afterIf_can h e ?_
  clear e h
  repeat' first
    | with_reducible assumption
    | intro _
    | with_reducible apply State.measGateClose_can

theorem execMeasForward_can (dt : Nat) {Q s t : State} (h : Can Q s) (e : execMeasForward dt s = .next t) : Can Q t := by
  unfold execMeasForward at e
  refine after_can h e ?_
  clear e h
  repeat' first
    | with_reducible assumption
    | intro _
    | with_reducible apply State.forwardMeas_can

theorem execCalBurst_can (dt : Nat) (skews : List (Nat × Int)) {Q s t : State} (h : Can Q s) (e : execCalBurst dt skews s = .next t) : Can Q t := by
  unfold execCalBurst at e
  refine after_can h e ?_
  clear e h
  repeat' first
    | with_reducible assumption
    | intro _
    | with_reducible apply State.calBurst_can

end Sys2Proof.Machine
end

