-- ==== Sys2Proof/Laws/CanonCmdTimescale.lean ====
section
/-!
SUPPORT. The canonical form of the sparse storage through every meaning of Machine/CmdTimescale.lean.
-/

set_option Elab.async false

namespace Sys2Proof.Machine

theorem execHostEvent_can (dt : Nat) {Q s t : State} (h : Can Q s) (e : execHostEvent dt s = .next t) : Can Q t := by
  unfold execHostEvent at e
  refine after_can h e ?_
  clear e h
  repeat' first
    | with_reducible assumption
    | intro _
    | with_reducible apply State.fireHostEvent_can
    | with_reducible apply State.inOrder_can

theorem execSluApply_can (dt : Nat) {Q s t : State} (h : Can Q s) (e : execSluApply dt s = .next t) : Can Q t := by
  unfold execSluApply at e
  refine after_can h e ?_
  clear e h
  repeat' first
    | with_reducible assumption
    | intro _
    | with_reducible apply State.sluApply_can
    | with_reducible apply State.inOrder_can

theorem execOutEdge_can (dt : Nat) (output : Nat) {Q s t : State} (h : Can Q s) (e : execOutEdge dt output s = .next t) : Can Q t := by
  unfold execOutEdge at e
  refine afterIf_can h e ?_
  clear e h
  repeat' first
    | with_reducible assumption
    | intro _
    | with_reducible apply State.outEdge_can
    | with_reducible apply State.inOrder_can

theorem execPulseEnd_can (dt : Nat) (output : Nat) {Q s t : State} (h : Can Q s) (e : execPulseEnd dt output s = .next t) : Can Q t := by
  unfold execPulseEnd at e
  refine afterIf_can h e ?_
  clear e h
  repeat' first
    | with_reducible assumption
    | intro _
    | with_reducible apply State.pulseEnd_can

theorem execPtpSync_can (dt : Nat) {Q s t : State} (h : Can Q s) (e : execPtpSync dt s = .next t) : Can Q t := by
  unfold execPtpSync at e
  refine after_can h e ?_
  clear e h
  repeat' first
    | with_reducible assumption
    | intro _
    | with_reducible apply State.ptpSync_can
    | with_reducible apply State.inOrder_can

theorem execRcpWindow_can (dt : Nat) {Q s t : State} (h : Can Q s) (e : execRcpWindow dt s = .next t) : Can Q t := by
  unfold execRcpWindow at e
  refine after_can h e ?_
  clear e h
  repeat' first
    | with_reducible assumption
    | intro _
    | with_reducible apply State.rcpWindow_can
    | with_reducible apply State.inOrder_can

theorem execTalWindow_can (dt : Nat) {Q s t : State} (h : Can Q s) (e : execTalWindow dt s = .next t) : Can Q t := by
  unfold execTalWindow at e
  refine after_can h e ?_
  clear e h
  repeat' first
    | with_reducible assumption
    | intro _
    | with_reducible apply State.talWindow_can
    | with_reducible apply State.inOrder_can

theorem execNtsEpoch_can (dt : Nat) {Q s t : State} (h : Can Q s) (e : execNtsEpoch dt s = .next t) : Can Q t := by
  unfold execNtsEpoch at e
  refine after_can h e ?_
  clear e h
  repeat' first
    | with_reducible assumption
    | intro _
    | with_reducible apply State.ntsEpoch_can
    | with_reducible apply State.inOrder_can

theorem execLeap_can (dt : Nat) {Q s t : State} (h : Can Q s) (e : execLeap dt s = .next t) : Can Q t := by
  unfold execLeap at e
  refine after_can h e ?_
  clear e h
  repeat' first
    | with_reducible assumption
    | intro _
    | with_reducible apply State.fireLeap_can
    | with_reducible apply State.inOrder_can

theorem execHifDbPoll_can (dt : Nat) {Q s t : State} (h : Can Q s) (e : execHifDbPoll dt s = .next t) : Can Q t := by
  unfold execHifDbPoll at e
  refine after_can h e ?_
  clear e h
  repeat' first
    | with_reducible assumption
    | intro _
    | with_reducible apply State.dbPoll_can
    | with_reducible apply State.inOrder_can

theorem execRadiusTick_can (dt : Nat) (meas : TickMeas) {Q s t : State} (h : Can Q s) (e : execRadiusTick dt meas s = .next t) : Can Q t := by
  unfold execRadiusTick at e
  refine after_can h e ?_
  clear e h
  repeat' first
    | with_reducible assumption
    | intro _
    | with_reducible apply State.radiusTick_can
    | with_reducible apply State.inOrder_can

theorem execTscStep_can (dt : Nat) {Q s t : State} (h : Can Q s) (e : execTscStep dt s = .next t) : Can Q t := by
  unfold execTscStep at e
  refine after_can h e ?_
  clear e h
  repeat' first
    | with_reducible assumption
    | intro _
    | with_reducible apply State.tscStep_can
    | with_reducible apply State.inOrder_can

theorem execStepApprove_can (dt : Nat) (src seq : Nat) (complement : Word) {Q s t : State} (h : Can Q s) (e : execStepApprove dt src seq complement s = .next t) : Can Q t := by
  unfold execStepApprove at e
  refine afterIf_can h e ?_
  clear e h
  repeat' first
    | with_reducible assumption
    | intro _
    | with_reducible apply State.guardedCmd_can

theorem execStepApproveSlew_can (dt : Nat) (src seq : Nat) (complement : Word) {Q s t : State} (h : Can Q s) (e : execStepApproveSlew dt src seq complement s = .next t) : Can Q t := by
  unfold execStepApproveSlew at e
  refine afterIf_can h e ?_
  clear e h
  repeat' first
    | with_reducible assumption
    | intro _
    | with_reducible apply State.guardedCmd_can

theorem execCalCreate_can (dt : Nat) (src : Nat) (cmd : Word) (words : List (Nat × Word)) (commit : Word) {Q s t : State} (h : Can Q s) (e : execCalCreate dt src cmd words commit s = .next t) : Can Q t := by
  unfold execCalCreate at e
  refine afterIf_can h e ?_
  clear e h
  repeat' first
    | with_reducible assumption
    | intro _
    | with_reducible apply State.groupCommand_can

theorem execCalCancel_can (dt : Nat) (src : Nat) (cmd : Word) (words : List (Nat × Word)) (commit : Word) {Q s t : State} (h : Can Q s) (e : execCalCancel dt src cmd words commit s = .next t) : Can Q t := by
  unfold execCalCancel at e
  refine afterIf_can h e ?_
  clear e h
  repeat' first
    | with_reducible assumption
    | intro _
    | with_reducible apply State.groupCommand_can

theorem execCalModify_can (dt : Nat) (src : Nat) (cmd : Word) (words : List (Nat × Word)) (commit : Word) {Q s t : State} (h : Can Q s) (e : execCalModify dt src cmd words commit s = .next t) : Can Q t := by
  unfold execCalModify at e
  refine afterIf_can h e ?_
  clear e h
  repeat' first
    | with_reducible assumption
    | intro _
    | with_reducible apply State.groupCommand_can

theorem execCalNone_can (dt : Nat) (src : Nat) (cmd : Word) (words : List (Nat × Word)) (commit : Word) {Q s t : State} (h : Can Q s) (e : execCalNone dt src cmd words commit s = .next t) : Can Q t := by
  unfold execCalNone at e
  refine afterIf_can h e ?_
  clear e h
  repeat' first
    | with_reducible assumption
    | intro _
    | with_reducible apply State.groupCommand_can

end Sys2Proof.Machine
end

