-- ==== Sys2Proof/Laws/State.lean ====
section
/-!
SUPPORT. One lemma for each field of the state and each elementary update: what the update leaves alone, so that no later proof
unfolds a record update.
-/

set_option Elab.async false

namespace Sys2Proof.Machine

/-! `State.wr` -/

@[simp] theorem State.wr_regs (s : State) (a : Nat) (v : Word) : (s.wr a v).regs = CellList.set resetOf s.regs a v := rfl
@[simp] theorem State.wr_stage (s : State) (a : Nat) (v : Word) : (s.wr a v).stage = s.stage := rfl
@[simp] theorem State.wr_pendRegs (s : State) (a : Nat) (v : Word) : (s.wr a v).pendRegs = s.pendRegs := rfl
@[simp] theorem State.wr_scrubAt (s : State) (a : Nat) (v : Word) : (s.wr a v).scrubAt = s.scrubAt := rfl
@[simp] theorem State.wr_groups (s : State) (a : Nat) (v : Word) : (s.wr a v).groups = s.groups := rfl
@[simp] theorem State.wr_sources (s : State) (a : Nat) (v : Word) : (s.wr a v).sources = s.sources := rfl
@[simp] theorem State.wr_latched (s : State) (a : Nat) (v : Word) : (s.wr a v).latched = s.latched := rfl
@[simp] theorem State.wr_faultRead (s : State) (a : Nat) (v : Word) : (s.wr a v).faultRead = s.faultRead := rfl
@[simp] theorem State.wr_totals (s : State) (a : Nat) (v : Word) : (s.wr a v).totals = s.totals := rfl
@[simp] theorem State.wr_msix (s : State) (a : Nat) (v : Word) : (s.wr a v).msix = s.msix := rfl
@[simp] theorem State.wr_journal (s : State) (a : Nat) (v : Word) : (s.wr a v).journal = s.journal := rfl
@[simp] theorem State.wr_celen (s : State) (a : Nat) (v : Word) : (s.wr a v).celen = s.celen := rfl
@[simp] theorem State.wr_ts (s : State) (a : Nat) (v : Word) : (s.wr a v).ts = s.ts := rfl
@[simp] theorem State.wr_hif (s : State) (a : Nat) (v : Word) : (s.wr a v).hif = s.hif := rfl
@[simp] theorem State.wr_refs (s : State) (a : Nat) (v : Word) : (s.wr a v).refs = s.refs := rfl
@[simp] theorem State.wr_hol (s : State) (a : Nat) (v : Word) : (s.wr a v).hol = s.hol := rfl
@[simp] theorem State.wr_gnss (s : State) (a : Nat) (v : Word) : (s.wr a v).gnss = s.gnss := rfl
@[simp] theorem State.wr_ttu (s : State) (a : Nat) (v : Word) : (s.wr a v).ttu = s.ttu := rfl
@[simp] theorem State.wr_ports (s : State) (a : Nat) (v : Word) : (s.wr a v).ports = s.ports := rfl
@[simp] theorem State.wr_hrc (s : State) (a : Nat) (v : Word) : (s.wr a v).hrc = s.hrc := rfl
@[simp] theorem State.wr_nts (s : State) (a : Nat) (v : Word) : (s.wr a v).nts = s.nts := rfl
@[simp] theorem State.wr_ptp (s : State) (a : Nat) (v : Word) : (s.wr a v).ptp = s.ptp := rfl
@[simp] theorem State.wr_pke (s : State) (a : Nat) (v : Word) : (s.wr a v).pke = s.pke := rfl
@[simp] theorem State.wr_rcp (s : State) (a : Nat) (v : Word) : (s.wr a v).rcp = s.rcp := rfl
@[simp] theorem State.wr_tal (s : State) (a : Nat) (v : Word) : (s.wr a v).tal = s.tal := rfl
@[simp] theorem State.wr_cas (s : State) (a : Nat) (v : Word) : (s.wr a v).cas = s.cas := rfl
@[simp] theorem State.wr_pwr (s : State) (a : Nat) (v : Word) : (s.wr a v).pwr = s.pwr := rfl
@[simp] theorem State.wr_boot (s : State) (a : Nat) (v : Word) : (s.wr a v).boot = s.boot := rfl
@[simp] theorem State.wr_fw (s : State) (a : Nat) (v : Word) : (s.wr a v).fw = s.fw := rfl
@[simp] theorem State.wr_fences (s : State) (a : Nat) (v : Word) : (s.wr a v).fences = s.fences := rfl
@[simp] theorem State.wr_testing (s : State) (a : Nat) (v : Word) : (s.wr a v).testing = s.testing := rfl
@[simp] theorem State.wr_out (s : State) (a : Nat) (v : Word) : (s.wr a v).out = s.out := rfl
@[simp] theorem State.wr_fresh (s : State) (a : Nat) (v : Word) : (s.wr a v).fresh = s.fresh := rfl
@[simp] theorem State.wr_pending (s : State) (a : Nat) (v : Word) : (s.wr a v).pending = s.pending := rfl

/-! `State.sfW` -/

@[simp] theorem State.sfW_regs (s : State) (a lo n v : Nat) : (s.sfW a lo n v).regs = CellList.set resetOf s.regs a (putFld (s.rd a) lo n v) := rfl
@[simp] theorem State.sfW_stage (s : State) (a lo n v : Nat) : (s.sfW a lo n v).stage = s.stage := rfl
@[simp] theorem State.sfW_pendRegs (s : State) (a lo n v : Nat) : (s.sfW a lo n v).pendRegs = s.pendRegs := rfl
@[simp] theorem State.sfW_scrubAt (s : State) (a lo n v : Nat) : (s.sfW a lo n v).scrubAt = s.scrubAt := rfl
@[simp] theorem State.sfW_groups (s : State) (a lo n v : Nat) : (s.sfW a lo n v).groups = s.groups := rfl
@[simp] theorem State.sfW_sources (s : State) (a lo n v : Nat) : (s.sfW a lo n v).sources = s.sources := rfl
@[simp] theorem State.sfW_latched (s : State) (a lo n v : Nat) : (s.sfW a lo n v).latched = s.latched := rfl
@[simp] theorem State.sfW_faultRead (s : State) (a lo n v : Nat) : (s.sfW a lo n v).faultRead = s.faultRead := rfl
@[simp] theorem State.sfW_totals (s : State) (a lo n v : Nat) : (s.sfW a lo n v).totals = s.totals := rfl
@[simp] theorem State.sfW_msix (s : State) (a lo n v : Nat) : (s.sfW a lo n v).msix = s.msix := rfl
@[simp] theorem State.sfW_journal (s : State) (a lo n v : Nat) : (s.sfW a lo n v).journal = s.journal := rfl
@[simp] theorem State.sfW_celen (s : State) (a lo n v : Nat) : (s.sfW a lo n v).celen = s.celen := rfl
@[simp] theorem State.sfW_ts (s : State) (a lo n v : Nat) : (s.sfW a lo n v).ts = s.ts := rfl
@[simp] theorem State.sfW_hif (s : State) (a lo n v : Nat) : (s.sfW a lo n v).hif = s.hif := rfl
@[simp] theorem State.sfW_refs (s : State) (a lo n v : Nat) : (s.sfW a lo n v).refs = s.refs := rfl
@[simp] theorem State.sfW_hol (s : State) (a lo n v : Nat) : (s.sfW a lo n v).hol = s.hol := rfl
@[simp] theorem State.sfW_gnss (s : State) (a lo n v : Nat) : (s.sfW a lo n v).gnss = s.gnss := rfl
@[simp] theorem State.sfW_ttu (s : State) (a lo n v : Nat) : (s.sfW a lo n v).ttu = s.ttu := rfl
@[simp] theorem State.sfW_ports (s : State) (a lo n v : Nat) : (s.sfW a lo n v).ports = s.ports := rfl
@[simp] theorem State.sfW_hrc (s : State) (a lo n v : Nat) : (s.sfW a lo n v).hrc = s.hrc := rfl
@[simp] theorem State.sfW_nts (s : State) (a lo n v : Nat) : (s.sfW a lo n v).nts = s.nts := rfl
@[simp] theorem State.sfW_ptp (s : State) (a lo n v : Nat) : (s.sfW a lo n v).ptp = s.ptp := rfl
@[simp] theorem State.sfW_pke (s : State) (a lo n v : Nat) : (s.sfW a lo n v).pke = s.pke := rfl
@[simp] theorem State.sfW_rcp (s : State) (a lo n v : Nat) : (s.sfW a lo n v).rcp = s.rcp := rfl
@[simp] theorem State.sfW_tal (s : State) (a lo n v : Nat) : (s.sfW a lo n v).tal = s.tal := rfl
@[simp] theorem State.sfW_cas (s : State) (a lo n v : Nat) : (s.sfW a lo n v).cas = s.cas := rfl
@[simp] theorem State.sfW_pwr (s : State) (a lo n v : Nat) : (s.sfW a lo n v).pwr = s.pwr := rfl
@[simp] theorem State.sfW_boot (s : State) (a lo n v : Nat) : (s.sfW a lo n v).boot = s.boot := rfl
@[simp] theorem State.sfW_fw (s : State) (a lo n v : Nat) : (s.sfW a lo n v).fw = s.fw := rfl
@[simp] theorem State.sfW_fences (s : State) (a lo n v : Nat) : (s.sfW a lo n v).fences = s.fences := rfl
@[simp] theorem State.sfW_testing (s : State) (a lo n v : Nat) : (s.sfW a lo n v).testing = s.testing := rfl
@[simp] theorem State.sfW_out (s : State) (a lo n v : Nat) : (s.sfW a lo n v).out = s.out := rfl
@[simp] theorem State.sfW_fresh (s : State) (a lo n v : Nat) : (s.sfW a lo n v).fresh = s.fresh := rfl
@[simp] theorem State.sfW_pending (s : State) (a lo n v : Nat) : (s.sfW a lo n v).pending = s.pending := rfl

/-! `State.setBit` -/

@[simp] theorem State.setBit_regs (s : State) (a i : Nat) (b : Bool) : (s.setBit a i b).regs = CellList.set resetOf s.regs a (putFld (s.rd a) i 1 (b2n b)) := rfl
@[simp] theorem State.setBit_stage (s : State) (a i : Nat) (b : Bool) : (s.setBit a i b).stage = s.stage := rfl
@[simp] theorem State.setBit_pendRegs (s : State) (a i : Nat) (b : Bool) : (s.setBit a i b).pendRegs = s.pendRegs := rfl
@[simp] theorem State.setBit_scrubAt (s : State) (a i : Nat) (b : Bool) : (s.setBit a i b).scrubAt = s.scrubAt := rfl
@[simp] theorem State.setBit_groups (s : State) (a i : Nat) (b : Bool) : (s.setBit a i b).groups = s.groups := rfl
@[simp] theorem State.setBit_sources (s : State) (a i : Nat) (b : Bool) : (s.setBit a i b).sources = s.sources := rfl
@[simp] theorem State.setBit_latched (s : State) (a i : Nat) (b : Bool) : (s.setBit a i b).latched = s.latched := rfl
@[simp] theorem State.setBit_faultRead (s : State) (a i : Nat) (b : Bool) : (s.setBit a i b).faultRead = s.faultRead := rfl
@[simp] theorem State.setBit_totals (s : State) (a i : Nat) (b : Bool) : (s.setBit a i b).totals = s.totals := rfl
@[simp] theorem State.setBit_msix (s : State) (a i : Nat) (b : Bool) : (s.setBit a i b).msix = s.msix := rfl
@[simp] theorem State.setBit_journal (s : State) (a i : Nat) (b : Bool) : (s.setBit a i b).journal = s.journal := rfl
@[simp] theorem State.setBit_celen (s : State) (a i : Nat) (b : Bool) : (s.setBit a i b).celen = s.celen := rfl
@[simp] theorem State.setBit_ts (s : State) (a i : Nat) (b : Bool) : (s.setBit a i b).ts = s.ts := rfl
@[simp] theorem State.setBit_hif (s : State) (a i : Nat) (b : Bool) : (s.setBit a i b).hif = s.hif := rfl
@[simp] theorem State.setBit_refs (s : State) (a i : Nat) (b : Bool) : (s.setBit a i b).refs = s.refs := rfl
@[simp] theorem State.setBit_hol (s : State) (a i : Nat) (b : Bool) : (s.setBit a i b).hol = s.hol := rfl
@[simp] theorem State.setBit_gnss (s : State) (a i : Nat) (b : Bool) : (s.setBit a i b).gnss = s.gnss := rfl
@[simp] theorem State.setBit_ttu (s : State) (a i : Nat) (b : Bool) : (s.setBit a i b).ttu = s.ttu := rfl
@[simp] theorem State.setBit_ports (s : State) (a i : Nat) (b : Bool) : (s.setBit a i b).ports = s.ports := rfl
@[simp] theorem State.setBit_hrc (s : State) (a i : Nat) (b : Bool) : (s.setBit a i b).hrc = s.hrc := rfl
@[simp] theorem State.setBit_nts (s : State) (a i : Nat) (b : Bool) : (s.setBit a i b).nts = s.nts := rfl
@[simp] theorem State.setBit_ptp (s : State) (a i : Nat) (b : Bool) : (s.setBit a i b).ptp = s.ptp := rfl
@[simp] theorem State.setBit_pke (s : State) (a i : Nat) (b : Bool) : (s.setBit a i b).pke = s.pke := rfl
@[simp] theorem State.setBit_rcp (s : State) (a i : Nat) (b : Bool) : (s.setBit a i b).rcp = s.rcp := rfl
@[simp] theorem State.setBit_tal (s : State) (a i : Nat) (b : Bool) : (s.setBit a i b).tal = s.tal := rfl
@[simp] theorem State.setBit_cas (s : State) (a i : Nat) (b : Bool) : (s.setBit a i b).cas = s.cas := rfl
@[simp] theorem State.setBit_pwr (s : State) (a i : Nat) (b : Bool) : (s.setBit a i b).pwr = s.pwr := rfl
@[simp] theorem State.setBit_boot (s : State) (a i : Nat) (b : Bool) : (s.setBit a i b).boot = s.boot := rfl
@[simp] theorem State.setBit_fw (s : State) (a i : Nat) (b : Bool) : (s.setBit a i b).fw = s.fw := rfl
@[simp] theorem State.setBit_fences (s : State) (a i : Nat) (b : Bool) : (s.setBit a i b).fences = s.fences := rfl
@[simp] theorem State.setBit_testing (s : State) (a i : Nat) (b : Bool) : (s.setBit a i b).testing = s.testing := rfl
@[simp] theorem State.setBit_out (s : State) (a i : Nat) (b : Bool) : (s.setBit a i b).out = s.out := rfl
@[simp] theorem State.setBit_fresh (s : State) (a i : Nat) (b : Bool) : (s.setBit a i b).fresh = s.fresh := rfl
@[simp] theorem State.setBit_pending (s : State) (a i : Nat) (b : Bool) : (s.setBit a i b).pending = s.pending := rfl

/-! `State.wr64` -/

@[simp] theorem State.wr64_stage (s : State) (a : Nat) (v : Int) : (s.wr64 a v).stage = s.stage := rfl
@[simp] theorem State.wr64_pendRegs (s : State) (a : Nat) (v : Int) : (s.wr64 a v).pendRegs = s.pendRegs := rfl
@[simp] theorem State.wr64_scrubAt (s : State) (a : Nat) (v : Int) : (s.wr64 a v).scrubAt = s.scrubAt := rfl
@[simp] theorem State.wr64_groups (s : State) (a : Nat) (v : Int) : (s.wr64 a v).groups = s.groups := rfl
@[simp] theorem State.wr64_sources (s : State) (a : Nat) (v : Int) : (s.wr64 a v).sources = s.sources := rfl
@[simp] theorem State.wr64_latched (s : State) (a : Nat) (v : Int) : (s.wr64 a v).latched = s.latched := rfl
@[simp] theorem State.wr64_faultRead (s : State) (a : Nat) (v : Int) : (s.wr64 a v).faultRead = s.faultRead := rfl
@[simp] theorem State.wr64_totals (s : State) (a : Nat) (v : Int) : (s.wr64 a v).totals = s.totals := rfl
@[simp] theorem State.wr64_msix (s : State) (a : Nat) (v : Int) : (s.wr64 a v).msix = s.msix := rfl
@[simp] theorem State.wr64_journal (s : State) (a : Nat) (v : Int) : (s.wr64 a v).journal = s.journal := rfl
@[simp] theorem State.wr64_celen (s : State) (a : Nat) (v : Int) : (s.wr64 a v).celen = s.celen := rfl
@[simp] theorem State.wr64_ts (s : State) (a : Nat) (v : Int) : (s.wr64 a v).ts = s.ts := rfl
@[simp] theorem State.wr64_hif (s : State) (a : Nat) (v : Int) : (s.wr64 a v).hif = s.hif := rfl
@[simp] theorem State.wr64_refs (s : State) (a : Nat) (v : Int) : (s.wr64 a v).refs = s.refs := rfl
@[simp] theorem State.wr64_hol (s : State) (a : Nat) (v : Int) : (s.wr64 a v).hol = s.hol := rfl
@[simp] theorem State.wr64_gnss (s : State) (a : Nat) (v : Int) : (s.wr64 a v).gnss = s.gnss := rfl
@[simp] theorem State.wr64_ttu (s : State) (a : Nat) (v : Int) : (s.wr64 a v).ttu = s.ttu := rfl
@[simp] theorem State.wr64_ports (s : State) (a : Nat) (v : Int) : (s.wr64 a v).ports = s.ports := rfl
@[simp] theorem State.wr64_hrc (s : State) (a : Nat) (v : Int) : (s.wr64 a v).hrc = s.hrc := rfl
@[simp] theorem State.wr64_nts (s : State) (a : Nat) (v : Int) : (s.wr64 a v).nts = s.nts := rfl
@[simp] theorem State.wr64_ptp (s : State) (a : Nat) (v : Int) : (s.wr64 a v).ptp = s.ptp := rfl
@[simp] theorem State.wr64_pke (s : State) (a : Nat) (v : Int) : (s.wr64 a v).pke = s.pke := rfl
@[simp] theorem State.wr64_rcp (s : State) (a : Nat) (v : Int) : (s.wr64 a v).rcp = s.rcp := rfl
@[simp] theorem State.wr64_tal (s : State) (a : Nat) (v : Int) : (s.wr64 a v).tal = s.tal := rfl
@[simp] theorem State.wr64_cas (s : State) (a : Nat) (v : Int) : (s.wr64 a v).cas = s.cas := rfl
@[simp] theorem State.wr64_pwr (s : State) (a : Nat) (v : Int) : (s.wr64 a v).pwr = s.pwr := rfl
@[simp] theorem State.wr64_boot (s : State) (a : Nat) (v : Int) : (s.wr64 a v).boot = s.boot := rfl
@[simp] theorem State.wr64_fw (s : State) (a : Nat) (v : Int) : (s.wr64 a v).fw = s.fw := rfl
@[simp] theorem State.wr64_fences (s : State) (a : Nat) (v : Int) : (s.wr64 a v).fences = s.fences := rfl
@[simp] theorem State.wr64_testing (s : State) (a : Nat) (v : Int) : (s.wr64 a v).testing = s.testing := rfl
@[simp] theorem State.wr64_out (s : State) (a : Nat) (v : Int) : (s.wr64 a v).out = s.out := rfl
@[simp] theorem State.wr64_fresh (s : State) (a : Nat) (v : Int) : (s.wr64 a v).fresh = s.fresh := rfl
@[simp] theorem State.wr64_pending (s : State) (a : Nat) (v : Int) : (s.wr64 a v).pending = s.pending := rfl

/-! `State.wrInstant` -/

@[simp] theorem State.wrInstant_stage (s : State) (x y z n : Nat) : (s.wrInstant x y z n).stage = s.stage := rfl
@[simp] theorem State.wrInstant_pendRegs (s : State) (x y z n : Nat) : (s.wrInstant x y z n).pendRegs = s.pendRegs := rfl
@[simp] theorem State.wrInstant_scrubAt (s : State) (x y z n : Nat) : (s.wrInstant x y z n).scrubAt = s.scrubAt := rfl
@[simp] theorem State.wrInstant_groups (s : State) (x y z n : Nat) : (s.wrInstant x y z n).groups = s.groups := rfl
@[simp] theorem State.wrInstant_sources (s : State) (x y z n : Nat) : (s.wrInstant x y z n).sources = s.sources := rfl
@[simp] theorem State.wrInstant_latched (s : State) (x y z n : Nat) : (s.wrInstant x y z n).latched = s.latched := rfl
@[simp] theorem State.wrInstant_faultRead (s : State) (x y z n : Nat) : (s.wrInstant x y z n).faultRead = s.faultRead := rfl
@[simp] theorem State.wrInstant_totals (s : State) (x y z n : Nat) : (s.wrInstant x y z n).totals = s.totals := rfl
@[simp] theorem State.wrInstant_msix (s : State) (x y z n : Nat) : (s.wrInstant x y z n).msix = s.msix := rfl
@[simp] theorem State.wrInstant_journal (s : State) (x y z n : Nat) : (s.wrInstant x y z n).journal = s.journal := rfl
@[simp] theorem State.wrInstant_celen (s : State) (x y z n : Nat) : (s.wrInstant x y z n).celen = s.celen := rfl
@[simp] theorem State.wrInstant_ts (s : State) (x y z n : Nat) : (s.wrInstant x y z n).ts = s.ts := rfl
@[simp] theorem State.wrInstant_hif (s : State) (x y z n : Nat) : (s.wrInstant x y z n).hif = s.hif := rfl
@[simp] theorem State.wrInstant_refs (s : State) (x y z n : Nat) : (s.wrInstant x y z n).refs = s.refs := rfl
@[simp] theorem State.wrInstant_hol (s : State) (x y z n : Nat) : (s.wrInstant x y z n).hol = s.hol := rfl
@[simp] theorem State.wrInstant_gnss (s : State) (x y z n : Nat) : (s.wrInstant x y z n).gnss = s.gnss := rfl
@[simp] theorem State.wrInstant_ttu (s : State) (x y z n : Nat) : (s.wrInstant x y z n).ttu = s.ttu := rfl
@[simp] theorem State.wrInstant_ports (s : State) (x y z n : Nat) : (s.wrInstant x y z n).ports = s.ports := rfl
@[simp] theorem State.wrInstant_hrc (s : State) (x y z n : Nat) : (s.wrInstant x y z n).hrc = s.hrc := rfl
@[simp] theorem State.wrInstant_nts (s : State) (x y z n : Nat) : (s.wrInstant x y z n).nts = s.nts := rfl
@[simp] theorem State.wrInstant_ptp (s : State) (x y z n : Nat) : (s.wrInstant x y z n).ptp = s.ptp := rfl
@[simp] theorem State.wrInstant_pke (s : State) (x y z n : Nat) : (s.wrInstant x y z n).pke = s.pke := rfl
@[simp] theorem State.wrInstant_rcp (s : State) (x y z n : Nat) : (s.wrInstant x y z n).rcp = s.rcp := rfl
@[simp] theorem State.wrInstant_tal (s : State) (x y z n : Nat) : (s.wrInstant x y z n).tal = s.tal := rfl
@[simp] theorem State.wrInstant_cas (s : State) (x y z n : Nat) : (s.wrInstant x y z n).cas = s.cas := rfl
@[simp] theorem State.wrInstant_pwr (s : State) (x y z n : Nat) : (s.wrInstant x y z n).pwr = s.pwr := rfl
@[simp] theorem State.wrInstant_boot (s : State) (x y z n : Nat) : (s.wrInstant x y z n).boot = s.boot := rfl
@[simp] theorem State.wrInstant_fw (s : State) (x y z n : Nat) : (s.wrInstant x y z n).fw = s.fw := rfl
@[simp] theorem State.wrInstant_fences (s : State) (x y z n : Nat) : (s.wrInstant x y z n).fences = s.fences := rfl
@[simp] theorem State.wrInstant_testing (s : State) (x y z n : Nat) : (s.wrInstant x y z n).testing = s.testing := rfl
@[simp] theorem State.wrInstant_out (s : State) (x y z n : Nat) : (s.wrInstant x y z n).out = s.out := rfl
@[simp] theorem State.wrInstant_fresh (s : State) (x y z n : Nat) : (s.wrInstant x y z n).fresh = s.fresh := rfl
@[simp] theorem State.wrInstant_pending (s : State) (x y z n : Nat) : (s.wrInstant x y z n).pending = s.pending := rfl

/-! `State.raiseBit` -/

@[simp] theorem State.raiseBit_stage (s : State) (a b : Nat) : (s.raiseBit a b).stage = s.stage := rfl
@[simp] theorem State.raiseBit_pendRegs (s : State) (a b : Nat) : (s.raiseBit a b).pendRegs = s.pendRegs := rfl
@[simp] theorem State.raiseBit_scrubAt (s : State) (a b : Nat) : (s.raiseBit a b).scrubAt = s.scrubAt := rfl
@[simp] theorem State.raiseBit_groups (s : State) (a b : Nat) : (s.raiseBit a b).groups = s.groups := rfl
@[simp] theorem State.raiseBit_sources (s : State) (a b : Nat) : (s.raiseBit a b).sources = s.sources := rfl
@[simp] theorem State.raiseBit_latched (s : State) (a b : Nat) : (s.raiseBit a b).latched = s.latched := rfl
@[simp] theorem State.raiseBit_faultRead (s : State) (a b : Nat) : (s.raiseBit a b).faultRead = s.faultRead := rfl
@[simp] theorem State.raiseBit_totals (s : State) (a b : Nat) : (s.raiseBit a b).totals = s.totals := rfl
@[simp] theorem State.raiseBit_msix (s : State) (a b : Nat) : (s.raiseBit a b).msix = s.msix := rfl
@[simp] theorem State.raiseBit_journal (s : State) (a b : Nat) : (s.raiseBit a b).journal = s.journal := rfl
@[simp] theorem State.raiseBit_celen (s : State) (a b : Nat) : (s.raiseBit a b).celen = s.celen := rfl
@[simp] theorem State.raiseBit_ts (s : State) (a b : Nat) : (s.raiseBit a b).ts = s.ts := rfl
@[simp] theorem State.raiseBit_hif (s : State) (a b : Nat) : (s.raiseBit a b).hif = s.hif := rfl
@[simp] theorem State.raiseBit_refs (s : State) (a b : Nat) : (s.raiseBit a b).refs = s.refs := rfl
@[simp] theorem State.raiseBit_hol (s : State) (a b : Nat) : (s.raiseBit a b).hol = s.hol := rfl
@[simp] theorem State.raiseBit_gnss (s : State) (a b : Nat) : (s.raiseBit a b).gnss = s.gnss := rfl
@[simp] theorem State.raiseBit_ttu (s : State) (a b : Nat) : (s.raiseBit a b).ttu = s.ttu := rfl
@[simp] theorem State.raiseBit_ports (s : State) (a b : Nat) : (s.raiseBit a b).ports = s.ports := rfl
@[simp] theorem State.raiseBit_hrc (s : State) (a b : Nat) : (s.raiseBit a b).hrc = s.hrc := rfl
@[simp] theorem State.raiseBit_nts (s : State) (a b : Nat) : (s.raiseBit a b).nts = s.nts := rfl
@[simp] theorem State.raiseBit_ptp (s : State) (a b : Nat) : (s.raiseBit a b).ptp = s.ptp := rfl
@[simp] theorem State.raiseBit_pke (s : State) (a b : Nat) : (s.raiseBit a b).pke = s.pke := rfl
@[simp] theorem State.raiseBit_rcp (s : State) (a b : Nat) : (s.raiseBit a b).rcp = s.rcp := rfl
@[simp] theorem State.raiseBit_tal (s : State) (a b : Nat) : (s.raiseBit a b).tal = s.tal := rfl
@[simp] theorem State.raiseBit_cas (s : State) (a b : Nat) : (s.raiseBit a b).cas = s.cas := rfl
@[simp] theorem State.raiseBit_pwr (s : State) (a b : Nat) : (s.raiseBit a b).pwr = s.pwr := rfl
@[simp] theorem State.raiseBit_boot (s : State) (a b : Nat) : (s.raiseBit a b).boot = s.boot := rfl
@[simp] theorem State.raiseBit_fw (s : State) (a b : Nat) : (s.raiseBit a b).fw = s.fw := rfl
@[simp] theorem State.raiseBit_fences (s : State) (a b : Nat) : (s.raiseBit a b).fences = s.fences := rfl
@[simp] theorem State.raiseBit_testing (s : State) (a b : Nat) : (s.raiseBit a b).testing = s.testing := rfl
@[simp] theorem State.raiseBit_out (s : State) (a b : Nat) : (s.raiseBit a b).out = s.out := rfl
@[simp] theorem State.raiseBit_fresh (s : State) (a b : Nat) : (s.raiseBit a b).fresh = s.fresh := rfl
@[simp] theorem State.raiseBit_pending (s : State) (a b : Nat) : (s.raiseBit a b).pending = s.pending := rfl

/-! `State.emit` -/

@[simp] theorem State.emit_regs (s : State) (e : Emission) : (s.emit e).regs = s.regs := rfl
@[simp] theorem State.emit_stage (s : State) (e : Emission) : (s.emit e).stage = s.stage := rfl
@[simp] theorem State.emit_pendRegs (s : State) (e : Emission) : (s.emit e).pendRegs = s.pendRegs := rfl
@[simp] theorem State.emit_scrubAt (s : State) (e : Emission) : (s.emit e).scrubAt = s.scrubAt := rfl
@[simp] theorem State.emit_groups (s : State) (e : Emission) : (s.emit e).groups = s.groups := rfl
@[simp] theorem State.emit_sources (s : State) (e : Emission) : (s.emit e).sources = s.sources := rfl
@[simp] theorem State.emit_latched (s : State) (e : Emission) : (s.emit e).latched = s.latched := rfl
@[simp] theorem State.emit_faultRead (s : State) (e : Emission) : (s.emit e).faultRead = s.faultRead := rfl
@[simp] theorem State.emit_totals (s : State) (e : Emission) : (s.emit e).totals = s.totals := rfl
@[simp] theorem State.emit_msix (s : State) (e : Emission) : (s.emit e).msix = s.msix := rfl
@[simp] theorem State.emit_journal (s : State) (e : Emission) : (s.emit e).journal = s.journal := rfl
@[simp] theorem State.emit_celen (s : State) (e : Emission) : (s.emit e).celen = s.celen := rfl
@[simp] theorem State.emit_ts (s : State) (e : Emission) : (s.emit e).ts = s.ts := rfl
@[simp] theorem State.emit_hif (s : State) (e : Emission) : (s.emit e).hif = s.hif := rfl
@[simp] theorem State.emit_refs (s : State) (e : Emission) : (s.emit e).refs = s.refs := rfl
@[simp] theorem State.emit_hol (s : State) (e : Emission) : (s.emit e).hol = s.hol := rfl
@[simp] theorem State.emit_gnss (s : State) (e : Emission) : (s.emit e).gnss = s.gnss := rfl
@[simp] theorem State.emit_ttu (s : State) (e : Emission) : (s.emit e).ttu = s.ttu := rfl
@[simp] theorem State.emit_ports (s : State) (e : Emission) : (s.emit e).ports = s.ports := rfl
@[simp] theorem State.emit_hrc (s : State) (e : Emission) : (s.emit e).hrc = s.hrc := rfl
@[simp] theorem State.emit_nts (s : State) (e : Emission) : (s.emit e).nts = s.nts := rfl
@[simp] theorem State.emit_ptp (s : State) (e : Emission) : (s.emit e).ptp = s.ptp := rfl
@[simp] theorem State.emit_pke (s : State) (e : Emission) : (s.emit e).pke = s.pke := rfl
@[simp] theorem State.emit_rcp (s : State) (e : Emission) : (s.emit e).rcp = s.rcp := rfl
@[simp] theorem State.emit_tal (s : State) (e : Emission) : (s.emit e).tal = s.tal := rfl
@[simp] theorem State.emit_cas (s : State) (e : Emission) : (s.emit e).cas = s.cas := rfl
@[simp] theorem State.emit_pwr (s : State) (e : Emission) : (s.emit e).pwr = s.pwr := rfl
@[simp] theorem State.emit_boot (s : State) (e : Emission) : (s.emit e).boot = s.boot := rfl
@[simp] theorem State.emit_fw (s : State) (e : Emission) : (s.emit e).fw = s.fw := rfl
@[simp] theorem State.emit_fences (s : State) (e : Emission) : (s.emit e).fences = s.fences := rfl
@[simp] theorem State.emit_testing (s : State) (e : Emission) : (s.emit e).testing = s.testing := rfl
@[simp] theorem State.emit_out (s : State) (e : Emission) : (s.emit e).out = e :: s.out := rfl
@[simp] theorem State.emit_fresh (s : State) (e : Emission) : (s.emit e).fresh = s.fresh := rfl
@[simp] theorem State.emit_pending (s : State) (e : Emission) : (s.emit e).pending = s.pending := rfl

/-! `State.hostWrite` -/

@[simp] theorem State.hostWrite_regs (s : State) (a : Nat) (d : Bytes) : (s.hostWrite a d).regs = s.regs := rfl
@[simp] theorem State.hostWrite_stage (s : State) (a : Nat) (d : Bytes) : (s.hostWrite a d).stage = s.stage := rfl
@[simp] theorem State.hostWrite_pendRegs (s : State) (a : Nat) (d : Bytes) : (s.hostWrite a d).pendRegs = s.pendRegs := rfl
@[simp] theorem State.hostWrite_scrubAt (s : State) (a : Nat) (d : Bytes) : (s.hostWrite a d).scrubAt = s.scrubAt := rfl
@[simp] theorem State.hostWrite_groups (s : State) (a : Nat) (d : Bytes) : (s.hostWrite a d).groups = s.groups := rfl
@[simp] theorem State.hostWrite_sources (s : State) (a : Nat) (d : Bytes) : (s.hostWrite a d).sources = s.sources := rfl
@[simp] theorem State.hostWrite_latched (s : State) (a : Nat) (d : Bytes) : (s.hostWrite a d).latched = s.latched := rfl
@[simp] theorem State.hostWrite_faultRead (s : State) (a : Nat) (d : Bytes) : (s.hostWrite a d).faultRead = s.faultRead := rfl
@[simp] theorem State.hostWrite_totals (s : State) (a : Nat) (d : Bytes) : (s.hostWrite a d).totals = s.totals := rfl
@[simp] theorem State.hostWrite_msix (s : State) (a : Nat) (d : Bytes) : (s.hostWrite a d).msix = s.msix := rfl
@[simp] theorem State.hostWrite_journal (s : State) (a : Nat) (d : Bytes) : (s.hostWrite a d).journal = s.journal := rfl
@[simp] theorem State.hostWrite_celen (s : State) (a : Nat) (d : Bytes) : (s.hostWrite a d).celen = s.celen := rfl
@[simp] theorem State.hostWrite_ts (s : State) (a : Nat) (d : Bytes) : (s.hostWrite a d).ts = s.ts := rfl
@[simp] theorem State.hostWrite_hif (s : State) (a : Nat) (d : Bytes) : (s.hostWrite a d).hif = s.hif := rfl
@[simp] theorem State.hostWrite_refs (s : State) (a : Nat) (d : Bytes) : (s.hostWrite a d).refs = s.refs := rfl
@[simp] theorem State.hostWrite_hol (s : State) (a : Nat) (d : Bytes) : (s.hostWrite a d).hol = s.hol := rfl
@[simp] theorem State.hostWrite_gnss (s : State) (a : Nat) (d : Bytes) : (s.hostWrite a d).gnss = s.gnss := rfl
@[simp] theorem State.hostWrite_ttu (s : State) (a : Nat) (d : Bytes) : (s.hostWrite a d).ttu = s.ttu := rfl
@[simp] theorem State.hostWrite_ports (s : State) (a : Nat) (d : Bytes) : (s.hostWrite a d).ports = s.ports := rfl
@[simp] theorem State.hostWrite_hrc (s : State) (a : Nat) (d : Bytes) : (s.hostWrite a d).hrc = s.hrc := rfl
@[simp] theorem State.hostWrite_nts (s : State) (a : Nat) (d : Bytes) : (s.hostWrite a d).nts = s.nts := rfl
@[simp] theorem State.hostWrite_ptp (s : State) (a : Nat) (d : Bytes) : (s.hostWrite a d).ptp = s.ptp := rfl
@[simp] theorem State.hostWrite_pke (s : State) (a : Nat) (d : Bytes) : (s.hostWrite a d).pke = s.pke := rfl
@[simp] theorem State.hostWrite_rcp (s : State) (a : Nat) (d : Bytes) : (s.hostWrite a d).rcp = s.rcp := rfl
@[simp] theorem State.hostWrite_tal (s : State) (a : Nat) (d : Bytes) : (s.hostWrite a d).tal = s.tal := rfl
@[simp] theorem State.hostWrite_cas (s : State) (a : Nat) (d : Bytes) : (s.hostWrite a d).cas = s.cas := rfl
@[simp] theorem State.hostWrite_pwr (s : State) (a : Nat) (d : Bytes) : (s.hostWrite a d).pwr = s.pwr := rfl
@[simp] theorem State.hostWrite_boot (s : State) (a : Nat) (d : Bytes) : (s.hostWrite a d).boot = s.boot := rfl
@[simp] theorem State.hostWrite_fw (s : State) (a : Nat) (d : Bytes) : (s.hostWrite a d).fw = s.fw := rfl
@[simp] theorem State.hostWrite_fences (s : State) (a : Nat) (d : Bytes) : (s.hostWrite a d).fences = s.fences := rfl
@[simp] theorem State.hostWrite_testing (s : State) (a : Nat) (d : Bytes) : (s.hostWrite a d).testing = s.testing := rfl
@[simp] theorem State.hostWrite_out (s : State) (a : Nat) (d : Bytes) : (s.hostWrite a d).out = .hostWrite a d :: s.out := rfl
@[simp] theorem State.hostWrite_fresh (s : State) (a : Nat) (d : Bytes) : (s.hostWrite a d).fresh = s.fresh := rfl
@[simp] theorem State.hostWrite_pending (s : State) (a : Nat) (d : Bytes) : (s.hostWrite a d).pending = s.pending := rfl

/-! `State.setRing` -/

@[simp] theorem State.setRing_regs (s : State) (n : Nat) (g : Ring → Ring) : (s.setRing n g).regs = s.regs := rfl
@[simp] theorem State.setRing_stage (s : State) (n : Nat) (g : Ring → Ring) : (s.setRing n g).stage = s.stage := rfl
@[simp] theorem State.setRing_pendRegs (s : State) (n : Nat) (g : Ring → Ring) : (s.setRing n g).pendRegs = s.pendRegs := rfl
@[simp] theorem State.setRing_scrubAt (s : State) (n : Nat) (g : Ring → Ring) : (s.setRing n g).scrubAt = s.scrubAt := rfl
@[simp] theorem State.setRing_groups (s : State) (n : Nat) (g : Ring → Ring) : (s.setRing n g).groups = s.groups := rfl
@[simp] theorem State.setRing_sources (s : State) (n : Nat) (g : Ring → Ring) : (s.setRing n g).sources = s.sources := rfl
@[simp] theorem State.setRing_latched (s : State) (n : Nat) (g : Ring → Ring) : (s.setRing n g).latched = s.latched := rfl
@[simp] theorem State.setRing_faultRead (s : State) (n : Nat) (g : Ring → Ring) : (s.setRing n g).faultRead = s.faultRead := rfl
@[simp] theorem State.setRing_totals (s : State) (n : Nat) (g : Ring → Ring) : (s.setRing n g).totals = s.totals := rfl
@[simp] theorem State.setRing_msix (s : State) (n : Nat) (g : Ring → Ring) : (s.setRing n g).msix = s.msix := rfl
@[simp] theorem State.setRing_journal (s : State) (n : Nat) (g : Ring → Ring) : (s.setRing n g).journal = s.journal := rfl
@[simp] theorem State.setRing_celen (s : State) (n : Nat) (g : Ring → Ring) : (s.setRing n g).celen = s.celen := rfl
@[simp] theorem State.setRing_ts (s : State) (n : Nat) (g : Ring → Ring) : (s.setRing n g).ts = s.ts := rfl
@[simp] theorem State.setRing_hif (s : State) (n : Nat) (g : Ring → Ring) : (s.setRing n g).hif = { s.hif with rings := modAt s.hif.rings n g } := rfl
@[simp] theorem State.setRing_refs (s : State) (n : Nat) (g : Ring → Ring) : (s.setRing n g).refs = s.refs := rfl
@[simp] theorem State.setRing_hol (s : State) (n : Nat) (g : Ring → Ring) : (s.setRing n g).hol = s.hol := rfl
@[simp] theorem State.setRing_gnss (s : State) (n : Nat) (g : Ring → Ring) : (s.setRing n g).gnss = s.gnss := rfl
@[simp] theorem State.setRing_ttu (s : State) (n : Nat) (g : Ring → Ring) : (s.setRing n g).ttu = s.ttu := rfl
@[simp] theorem State.setRing_ports (s : State) (n : Nat) (g : Ring → Ring) : (s.setRing n g).ports = s.ports := rfl
@[simp] theorem State.setRing_hrc (s : State) (n : Nat) (g : Ring → Ring) : (s.setRing n g).hrc = s.hrc := rfl
@[simp] theorem State.setRing_nts (s : State) (n : Nat) (g : Ring → Ring) : (s.setRing n g).nts = s.nts := rfl
@[simp] theorem State.setRing_ptp (s : State) (n : Nat) (g : Ring → Ring) : (s.setRing n g).ptp = s.ptp := rfl
@[simp] theorem State.setRing_pke (s : State) (n : Nat) (g : Ring → Ring) : (s.setRing n g).pke = s.pke := rfl
@[simp] theorem State.setRing_rcp (s : State) (n : Nat) (g : Ring → Ring) : (s.setRing n g).rcp = s.rcp := rfl
@[simp] theorem State.setRing_tal (s : State) (n : Nat) (g : Ring → Ring) : (s.setRing n g).tal = s.tal := rfl
@[simp] theorem State.setRing_cas (s : State) (n : Nat) (g : Ring → Ring) : (s.setRing n g).cas = s.cas := rfl
@[simp] theorem State.setRing_pwr (s : State) (n : Nat) (g : Ring → Ring) : (s.setRing n g).pwr = s.pwr := rfl
@[simp] theorem State.setRing_boot (s : State) (n : Nat) (g : Ring → Ring) : (s.setRing n g).boot = s.boot := rfl
@[simp] theorem State.setRing_fw (s : State) (n : Nat) (g : Ring → Ring) : (s.setRing n g).fw = s.fw := rfl
@[simp] theorem State.setRing_fences (s : State) (n : Nat) (g : Ring → Ring) : (s.setRing n g).fences = s.fences := rfl
@[simp] theorem State.setRing_testing (s : State) (n : Nat) (g : Ring → Ring) : (s.setRing n g).testing = s.testing := rfl
@[simp] theorem State.setRing_out (s : State) (n : Nat) (g : Ring → Ring) : (s.setRing n g).out = s.out := rfl
@[simp] theorem State.setRing_fresh (s : State) (n : Nat) (g : Ring → Ring) : (s.setRing n g).fresh = s.fresh := rfl
@[simp] theorem State.setRing_pending (s : State) (n : Nat) (g : Ring → Ring) : (s.setRing n g).pending = s.pending := rfl

/-! `State.advance` -/

@[simp] theorem State.advance_regs (s : State) (dt : Nat) : (s.advance dt).regs = s.regs := rfl
@[simp] theorem State.advance_stage (s : State) (dt : Nat) : (s.advance dt).stage = s.stage := rfl
@[simp] theorem State.advance_pendRegs (s : State) (dt : Nat) : (s.advance dt).pendRegs = s.pendRegs := rfl
@[simp] theorem State.advance_scrubAt (s : State) (dt : Nat) : (s.advance dt).scrubAt = s.scrubAt := rfl
@[simp] theorem State.advance_groups (s : State) (dt : Nat) : (s.advance dt).groups = s.groups := rfl
@[simp] theorem State.advance_sources (s : State) (dt : Nat) : (s.advance dt).sources = s.sources := rfl
@[simp] theorem State.advance_latched (s : State) (dt : Nat) : (s.advance dt).latched = s.latched := rfl
@[simp] theorem State.advance_faultRead (s : State) (dt : Nat) : (s.advance dt).faultRead = s.faultRead := rfl
@[simp] theorem State.advance_totals (s : State) (dt : Nat) : (s.advance dt).totals = s.totals := rfl
@[simp] theorem State.advance_msix (s : State) (dt : Nat) : (s.advance dt).msix = s.msix := rfl
@[simp] theorem State.advance_journal (s : State) (dt : Nat) : (s.advance dt).journal = s.journal := rfl
@[simp] theorem State.advance_celen (s : State) (dt : Nat) : (s.advance dt).celen = s.celen := rfl
@[simp] theorem State.advance_hif (s : State) (dt : Nat) : (s.advance dt).hif = s.hif := rfl
@[simp] theorem State.advance_refs (s : State) (dt : Nat) : (s.advance dt).refs = s.refs := rfl
@[simp] theorem State.advance_hol (s : State) (dt : Nat) : (s.advance dt).hol = s.hol := rfl
@[simp] theorem State.advance_gnss (s : State) (dt : Nat) : (s.advance dt).gnss = s.gnss := rfl
@[simp] theorem State.advance_ttu (s : State) (dt : Nat) : (s.advance dt).ttu = s.ttu := rfl
@[simp] theorem State.advance_ports (s : State) (dt : Nat) : (s.advance dt).ports = s.ports := rfl
@[simp] theorem State.advance_hrc (s : State) (dt : Nat) : (s.advance dt).hrc = s.hrc := rfl
@[simp] theorem State.advance_nts (s : State) (dt : Nat) : (s.advance dt).nts = s.nts := rfl
@[simp] theorem State.advance_ptp (s : State) (dt : Nat) : (s.advance dt).ptp = s.ptp := rfl
@[simp] theorem State.advance_pke (s : State) (dt : Nat) : (s.advance dt).pke = s.pke := rfl
@[simp] theorem State.advance_rcp (s : State) (dt : Nat) : (s.advance dt).rcp = s.rcp := rfl
@[simp] theorem State.advance_tal (s : State) (dt : Nat) : (s.advance dt).tal = s.tal := rfl
@[simp] theorem State.advance_cas (s : State) (dt : Nat) : (s.advance dt).cas = s.cas := rfl
@[simp] theorem State.advance_pwr (s : State) (dt : Nat) : (s.advance dt).pwr = s.pwr := rfl
@[simp] theorem State.advance_boot (s : State) (dt : Nat) : (s.advance dt).boot = s.boot := rfl
@[simp] theorem State.advance_fw (s : State) (dt : Nat) : (s.advance dt).fw = s.fw := rfl
@[simp] theorem State.advance_fences (s : State) (dt : Nat) : (s.advance dt).fences = s.fences := rfl
@[simp] theorem State.advance_testing (s : State) (dt : Nat) : (s.advance dt).testing = s.testing := rfl
@[simp] theorem State.advance_out (s : State) (dt : Nat) : (s.advance dt).out = s.out := rfl
@[simp] theorem State.advance_fresh (s : State) (dt : Nat) : (s.advance dt).fresh = s.fresh := rfl
@[simp] theorem State.advance_pending (s : State) (dt : Nat) : (s.advance dt).pending = s.pending := rfl

/-! `State.calUsed` -/

@[simp] theorem State.calUsed_stage (s : State)  : (s.calUsed).stage = s.stage := rfl
@[simp] theorem State.calUsed_pendRegs (s : State)  : (s.calUsed).pendRegs = s.pendRegs := rfl
@[simp] theorem State.calUsed_scrubAt (s : State)  : (s.calUsed).scrubAt = s.scrubAt := rfl
@[simp] theorem State.calUsed_groups (s : State)  : (s.calUsed).groups = s.groups := rfl
@[simp] theorem State.calUsed_sources (s : State)  : (s.calUsed).sources = s.sources := rfl
@[simp] theorem State.calUsed_latched (s : State)  : (s.calUsed).latched = s.latched := rfl
@[simp] theorem State.calUsed_faultRead (s : State)  : (s.calUsed).faultRead = s.faultRead := rfl
@[simp] theorem State.calUsed_totals (s : State)  : (s.calUsed).totals = s.totals := rfl
@[simp] theorem State.calUsed_msix (s : State)  : (s.calUsed).msix = s.msix := rfl
@[simp] theorem State.calUsed_journal (s : State)  : (s.calUsed).journal = s.journal := rfl
@[simp] theorem State.calUsed_celen (s : State)  : (s.calUsed).celen = s.celen := rfl
@[simp] theorem State.calUsed_ts (s : State)  : (s.calUsed).ts = s.ts := rfl
@[simp] theorem State.calUsed_hif (s : State)  : (s.calUsed).hif = s.hif := rfl
@[simp] theorem State.calUsed_refs (s : State)  : (s.calUsed).refs = s.refs := rfl
@[simp] theorem State.calUsed_hol (s : State)  : (s.calUsed).hol = s.hol := rfl
@[simp] theorem State.calUsed_gnss (s : State)  : (s.calUsed).gnss = s.gnss := rfl
@[simp] theorem State.calUsed_ttu (s : State)  : (s.calUsed).ttu = s.ttu := rfl
@[simp] theorem State.calUsed_ports (s : State)  : (s.calUsed).ports = s.ports := rfl
@[simp] theorem State.calUsed_hrc (s : State)  : (s.calUsed).hrc = s.hrc := rfl
@[simp] theorem State.calUsed_nts (s : State)  : (s.calUsed).nts = s.nts := rfl
@[simp] theorem State.calUsed_ptp (s : State)  : (s.calUsed).ptp = s.ptp := rfl
@[simp] theorem State.calUsed_pke (s : State)  : (s.calUsed).pke = s.pke := rfl
@[simp] theorem State.calUsed_rcp (s : State)  : (s.calUsed).rcp = s.rcp := rfl
@[simp] theorem State.calUsed_tal (s : State)  : (s.calUsed).tal = s.tal := rfl
@[simp] theorem State.calUsed_cas (s : State)  : (s.calUsed).cas = s.cas := rfl
@[simp] theorem State.calUsed_pwr (s : State)  : (s.calUsed).pwr = s.pwr := rfl
@[simp] theorem State.calUsed_boot (s : State)  : (s.calUsed).boot = s.boot := rfl
@[simp] theorem State.calUsed_fw (s : State)  : (s.calUsed).fw = s.fw := rfl
@[simp] theorem State.calUsed_fences (s : State)  : (s.calUsed).fences = s.fences := rfl
@[simp] theorem State.calUsed_testing (s : State)  : (s.calUsed).testing = s.testing := rfl
@[simp] theorem State.calUsed_out (s : State)  : (s.calUsed).out = s.out := rfl
@[simp] theorem State.calUsed_fresh (s : State)  : (s.calUsed).fresh = s.fresh := rfl
@[simp] theorem State.calUsed_pending (s : State)  : (s.calUsed).pending = s.pending := rfl

/-! `State.calPut` -/

@[simp] theorem State.calPut_stage (s : State) (i : Nat) (e : CalEntry) : (s.calPut i e).stage = s.stage := rfl
@[simp] theorem State.calPut_pendRegs (s : State) (i : Nat) (e : CalEntry) : (s.calPut i e).pendRegs = s.pendRegs := rfl
@[simp] theorem State.calPut_scrubAt (s : State) (i : Nat) (e : CalEntry) : (s.calPut i e).scrubAt = s.scrubAt := rfl
@[simp] theorem State.calPut_groups (s : State) (i : Nat) (e : CalEntry) : (s.calPut i e).groups = s.groups := rfl
@[simp] theorem State.calPut_sources (s : State) (i : Nat) (e : CalEntry) : (s.calPut i e).sources = s.sources := rfl
@[simp] theorem State.calPut_latched (s : State) (i : Nat) (e : CalEntry) : (s.calPut i e).latched = s.latched := rfl
@[simp] theorem State.calPut_faultRead (s : State) (i : Nat) (e : CalEntry) : (s.calPut i e).faultRead = s.faultRead := rfl
@[simp] theorem State.calPut_totals (s : State) (i : Nat) (e : CalEntry) : (s.calPut i e).totals = s.totals := rfl
@[simp] theorem State.calPut_msix (s : State) (i : Nat) (e : CalEntry) : (s.calPut i e).msix = s.msix := rfl
@[simp] theorem State.calPut_journal (s : State) (i : Nat) (e : CalEntry) : (s.calPut i e).journal = s.journal := rfl
@[simp] theorem State.calPut_celen (s : State) (i : Nat) (e : CalEntry) : (s.calPut i e).celen = s.celen := rfl
@[simp] theorem State.calPut_ts (s : State) (i : Nat) (e : CalEntry) : (s.calPut i e).ts = { s.ts with calendar := CellList.insert i e s.ts.calendar } := rfl
@[simp] theorem State.calPut_hif (s : State) (i : Nat) (e : CalEntry) : (s.calPut i e).hif = s.hif := rfl
@[simp] theorem State.calPut_refs (s : State) (i : Nat) (e : CalEntry) : (s.calPut i e).refs = s.refs := rfl
@[simp] theorem State.calPut_hol (s : State) (i : Nat) (e : CalEntry) : (s.calPut i e).hol = s.hol := rfl
@[simp] theorem State.calPut_gnss (s : State) (i : Nat) (e : CalEntry) : (s.calPut i e).gnss = s.gnss := rfl
@[simp] theorem State.calPut_ttu (s : State) (i : Nat) (e : CalEntry) : (s.calPut i e).ttu = s.ttu := rfl
@[simp] theorem State.calPut_ports (s : State) (i : Nat) (e : CalEntry) : (s.calPut i e).ports = s.ports := rfl
@[simp] theorem State.calPut_hrc (s : State) (i : Nat) (e : CalEntry) : (s.calPut i e).hrc = s.hrc := rfl
@[simp] theorem State.calPut_nts (s : State) (i : Nat) (e : CalEntry) : (s.calPut i e).nts = s.nts := rfl
@[simp] theorem State.calPut_ptp (s : State) (i : Nat) (e : CalEntry) : (s.calPut i e).ptp = s.ptp := rfl
@[simp] theorem State.calPut_pke (s : State) (i : Nat) (e : CalEntry) : (s.calPut i e).pke = s.pke := rfl
@[simp] theorem State.calPut_rcp (s : State) (i : Nat) (e : CalEntry) : (s.calPut i e).rcp = s.rcp := rfl
@[simp] theorem State.calPut_tal (s : State) (i : Nat) (e : CalEntry) : (s.calPut i e).tal = s.tal := rfl
@[simp] theorem State.calPut_cas (s : State) (i : Nat) (e : CalEntry) : (s.calPut i e).cas = s.cas := rfl
@[simp] theorem State.calPut_pwr (s : State) (i : Nat) (e : CalEntry) : (s.calPut i e).pwr = s.pwr := rfl
@[simp] theorem State.calPut_boot (s : State) (i : Nat) (e : CalEntry) : (s.calPut i e).boot = s.boot := rfl
@[simp] theorem State.calPut_fw (s : State) (i : Nat) (e : CalEntry) : (s.calPut i e).fw = s.fw := rfl
@[simp] theorem State.calPut_fences (s : State) (i : Nat) (e : CalEntry) : (s.calPut i e).fences = s.fences := rfl
@[simp] theorem State.calPut_testing (s : State) (i : Nat) (e : CalEntry) : (s.calPut i e).testing = s.testing := rfl
@[simp] theorem State.calPut_out (s : State) (i : Nat) (e : CalEntry) : (s.calPut i e).out = s.out := rfl
@[simp] theorem State.calPut_fresh (s : State) (i : Nat) (e : CalEntry) : (s.calPut i e).fresh = s.fresh := rfl
@[simp] theorem State.calPut_pending (s : State) (i : Nat) (e : CalEntry) : (s.calPut i e).pending = s.pending := rfl

/-! `State.calFree` -/

@[simp] theorem State.calFree_stage (s : State) (i : Nat) : (s.calFree i).stage = s.stage := rfl
@[simp] theorem State.calFree_pendRegs (s : State) (i : Nat) : (s.calFree i).pendRegs = s.pendRegs := rfl
@[simp] theorem State.calFree_scrubAt (s : State) (i : Nat) : (s.calFree i).scrubAt = s.scrubAt := rfl
@[simp] theorem State.calFree_groups (s : State) (i : Nat) : (s.calFree i).groups = s.groups := rfl
@[simp] theorem State.calFree_sources (s : State) (i : Nat) : (s.calFree i).sources = s.sources := rfl
@[simp] theorem State.calFree_latched (s : State) (i : Nat) : (s.calFree i).latched = s.latched := rfl
@[simp] theorem State.calFree_faultRead (s : State) (i : Nat) : (s.calFree i).faultRead = s.faultRead := rfl
@[simp] theorem State.calFree_totals (s : State) (i : Nat) : (s.calFree i).totals = s.totals := rfl
@[simp] theorem State.calFree_msix (s : State) (i : Nat) : (s.calFree i).msix = s.msix := rfl
@[simp] theorem State.calFree_journal (s : State) (i : Nat) : (s.calFree i).journal = s.journal := rfl
@[simp] theorem State.calFree_celen (s : State) (i : Nat) : (s.calFree i).celen = s.celen := rfl
@[simp] theorem State.calFree_ts (s : State) (i : Nat) : (s.calFree i).ts = { s.ts with calendar := CellList.erase i s.ts.calendar } := rfl
@[simp] theorem State.calFree_hif (s : State) (i : Nat) : (s.calFree i).hif = s.hif := rfl
@[simp] theorem State.calFree_refs (s : State) (i : Nat) : (s.calFree i).refs = s.refs := rfl
@[simp] theorem State.calFree_hol (s : State) (i : Nat) : (s.calFree i).hol = s.hol := rfl
@[simp] theorem State.calFree_gnss (s : State) (i : Nat) : (s.calFree i).gnss = s.gnss := rfl
@[simp] theorem State.calFree_ttu (s : State) (i : Nat) : (s.calFree i).ttu = s.ttu := rfl
@[simp] theorem State.calFree_ports (s : State) (i : Nat) : (s.calFree i).ports = s.ports := rfl
@[simp] theorem State.calFree_hrc (s : State) (i : Nat) : (s.calFree i).hrc = s.hrc := rfl
@[simp] theorem State.calFree_nts (s : State) (i : Nat) : (s.calFree i).nts = s.nts := rfl
@[simp] theorem State.calFree_ptp (s : State) (i : Nat) : (s.calFree i).ptp = s.ptp := rfl
@[simp] theorem State.calFree_pke (s : State) (i : Nat) : (s.calFree i).pke = s.pke := rfl
@[simp] theorem State.calFree_rcp (s : State) (i : Nat) : (s.calFree i).rcp = s.rcp := rfl
@[simp] theorem State.calFree_tal (s : State) (i : Nat) : (s.calFree i).tal = s.tal := rfl
@[simp] theorem State.calFree_cas (s : State) (i : Nat) : (s.calFree i).cas = s.cas := rfl
@[simp] theorem State.calFree_pwr (s : State) (i : Nat) : (s.calFree i).pwr = s.pwr := rfl
@[simp] theorem State.calFree_boot (s : State) (i : Nat) : (s.calFree i).boot = s.boot := rfl
@[simp] theorem State.calFree_fw (s : State) (i : Nat) : (s.calFree i).fw = s.fw := rfl
@[simp] theorem State.calFree_fences (s : State) (i : Nat) : (s.calFree i).fences = s.fences := rfl
@[simp] theorem State.calFree_testing (s : State) (i : Nat) : (s.calFree i).testing = s.testing := rfl
@[simp] theorem State.calFree_out (s : State) (i : Nat) : (s.calFree i).out = s.out := rfl
@[simp] theorem State.calFree_fresh (s : State) (i : Nat) : (s.calFree i).fresh = s.fresh := rfl
@[simp] theorem State.calFree_pending (s : State) (i : Nat) : (s.calFree i).pending = s.pending := rfl

/-! Time and the register file -/

@[simp] theorem State.advance_ts_ySlew (s : State) (dt : Nat) : (s.advance dt).ts.ySlew = s.ts.ySlew := rfl
@[simp] theorem State.advance_ts_slewRem (s : State) (dt : Nat) : (s.advance dt).ts.slewRem = s.ts.slewRem := rfl
@[simp] theorem State.advance_ts_everLocked (s : State) (dt : Nat) : (s.advance dt).ts.everLocked = s.ts.everLocked := rfl
@[simp] theorem State.advance_ts_step (s : State) (dt : Nat) : (s.advance dt).ts.step = s.ts.step := rfl
@[simp] theorem State.advance_ts_hostStep (s : State) (dt : Nat) : (s.advance dt).ts.hostStep = s.ts.hostStep := rfl
@[simp] theorem State.advance_ts_phiE (s : State) (dt : Nat) : (s.advance dt).ts.phiE = s.ts.phiE := rfl
@[simp] theorem State.advance_ts_rho (s : State) (dt : Nat) : (s.advance dt).ts.rho = s.ts.rho := rfl
@[simp] theorem State.advance_ts_rhoComputed (s : State) (dt : Nat) : (s.advance dt).ts.rhoComputed = s.ts.rhoComputed := rfl
@[simp] theorem State.advance_ts_rhoFine (s : State) (dt : Nat) : (s.advance dt).ts.rhoFine = s.ts.rhoFine := rfl
@[simp] theorem State.advance_ts_rhoSat (s : State) (dt : Nat) : (s.advance dt).ts.rhoSat = s.ts.rhoSat := rfl
@[simp] theorem State.advance_ts_lockSince (s : State) (dt : Nat) : (s.advance dt).ts.lockSince = s.ts.lockSince := rfl
@[simp] theorem State.advance_ts_holdStart (s : State) (dt : Nat) : (s.advance dt).ts.holdStart = s.ts.holdStart := rfl
@[simp] theorem State.advance_ts_measured (s : State) (dt : Nat) : (s.advance dt).ts.measured = s.ts.measured := rfl
@[simp] theorem State.advance_ts_lastEdge (s : State) (dt : Nat) : (s.advance dt).ts.lastEdge = s.ts.lastEdge := rfl
@[simp] theorem State.advance_ts_freqHist (s : State) (dt : Nat) : (s.advance dt).ts.freqHist = s.ts.freqHist := rfl
@[simp] theorem State.advance_ts_calendar (s : State) (dt : Nat) : (s.advance dt).ts.calendar = s.ts.calendar := rfl
@[simp] theorem State.advance_ts_cycles (s : State) (dt : Nat) : (s.advance dt).ts.cycles = s.ts.cycles + dt := rfl
@[simp] theorem State.advance_rd (s : State) (dt : Nat) (a : Nat) : (s.advance dt).rd a = s.rd a := rfl
@[simp] theorem State.emit_rd (s : State) (e : Emission) (x : Nat) : (s.emit e).rd x = s.rd x := rfl
@[simp] theorem State.hostWrite_rd (s : State) (a : Nat) (d : Bytes) (x : Nat) : (s.hostWrite a d).rd x = s.rd x := rfl
@[simp] theorem State.setRing_rd (s : State) (n : Nat) (g : Ring → Ring) (x : Nat) : (s.setRing n g).rd x = s.rd x := rfl
@[simp] theorem State.advance_f (s : State) (dt : Nat) (a lo n : Nat) : (s.advance dt).f a lo n = s.f a lo n := rfl
@[simp] theorem State.emit_f (s : State) (e : Emission) (x lo m : Nat) : (s.emit e).f x lo m = s.f x lo m := rfl
@[simp] theorem State.hostWrite_f (s : State) (a : Nat) (d : Bytes) (x lo m : Nat) : (s.hostWrite a d).f x lo m = s.f x lo m := rfl
@[simp] theorem State.setRing_f (s : State) (n : Nat) (g : Ring → Ring) (x lo m : Nat) : (s.setRing n g).f x lo m = s.f x lo m := rfl
@[simp] theorem State.advance_sf (s : State) (dt : Nat) (a lo n : Nat) : (s.advance dt).sf a lo n = s.sf a lo n := rfl
@[simp] theorem State.emit_sf (s : State) (e : Emission) (x lo m : Nat) : (s.emit e).sf x lo m = s.sf x lo m := rfl
@[simp] theorem State.hostWrite_sf (s : State) (a : Nat) (d : Bytes) (x lo m : Nat) : (s.hostWrite a d).sf x lo m = s.sf x lo m := rfl
@[simp] theorem State.setRing_sf (s : State) (n : Nat) (g : Ring → Ring) (x lo m : Nat) : (s.setRing n g).sf x lo m = s.sf x lo m := rfl
@[simp] theorem State.advance_bit (s : State) (dt : Nat) (a i : Nat) : (s.advance dt).bit a i = s.bit a i := rfl
@[simp] theorem State.emit_bit (s : State) (e : Emission) (x j : Nat) : (s.emit e).bit x j = s.bit x j := rfl
@[simp] theorem State.hostWrite_bit (s : State) (a : Nat) (d : Bytes) (x j : Nat) : (s.hostWrite a d).bit x j = s.bit x j := rfl
@[simp] theorem State.setRing_bit (s : State) (n : Nat) (g : Ring → Ring) (x j : Nat) : (s.setRing n g).bit x j = s.bit x j := rfl
@[simp] theorem State.advance_rd64 (s : State) (dt : Nat) (a : Nat) : (s.advance dt).rd64 a = s.rd64 a := rfl
@[simp] theorem State.emit_rd64 (s : State) (e : Emission) (x : Nat) : (s.emit e).rd64 x = s.rd64 x := rfl
@[simp] theorem State.hostWrite_rd64 (s : State) (a : Nat) (d : Bytes) (x : Nat) : (s.hostWrite a d).rd64 x = s.rd64 x := rfl
@[simp] theorem State.setRing_rd64 (s : State) (n : Nat) (g : Ring → Ring) (x : Nat) : (s.setRing n g).rd64 x = s.rd64 x := rfl
@[simp] theorem State.advance_rdStage (s : State) (dt : Nat) (a : Nat) : (s.advance dt).rdStage a = s.rdStage a := rfl
@[simp] theorem State.wr_rdStage (s : State) (a : Nat) (v : Word) (x : Nat) : (s.wr a v).rdStage x = s.rdStage x := rfl
@[simp] theorem State.sfW_rdStage (s : State) (a lo n v : Nat) (x : Nat) : (s.sfW a lo n v).rdStage x = s.rdStage x := rfl
@[simp] theorem State.setBit_rdStage (s : State) (a i : Nat) (b : Bool) (x : Nat) : (s.setBit a i b).rdStage x = s.rdStage x := rfl
@[simp] theorem State.wr64_rdStage (s : State) (a : Nat) (v : Int) (x : Nat) : (s.wr64 a v).rdStage x = s.rdStage x := rfl
@[simp] theorem State.wrInstant_rdStage (s : State) (x y z n : Nat) (k : Nat) : (s.wrInstant x y z n).rdStage k = s.rdStage k := rfl
@[simp] theorem State.raiseBit_rdStage (s : State) (a b : Nat) (x : Nat) : (s.raiseBit a b).rdStage x = s.rdStage x := rfl
@[simp] theorem State.emit_rdStage (s : State) (e : Emission) (x : Nat) : (s.emit e).rdStage x = s.rdStage x := rfl
@[simp] theorem State.hostWrite_rdStage (s : State) (a : Nat) (d : Bytes) (x : Nat) : (s.hostWrite a d).rdStage x = s.rdStage x := rfl
@[simp] theorem State.setRing_rdStage (s : State) (n : Nat) (g : Ring → Ring) (x : Nat) : (s.setRing n g).rdStage x = s.rdStage x := rfl
@[simp] theorem State.calUsed_rdStage (s : State)  (x : Nat) : (s.calUsed).rdStage x = s.rdStage x := rfl
@[simp] theorem State.calPut_rdStage (s : State) (i : Nat) (e : CalEntry) (x : Nat) : (s.calPut i e).rdStage x = s.rdStage x := rfl
@[simp] theorem State.calFree_rdStage (s : State) (i : Nat) (x : Nat) : (s.calFree i).rdStage x = s.rdStage x := rfl
@[simp] theorem State.advance_rdPend (s : State) (dt : Nat) (a : Nat) : (s.advance dt).rdPend a = s.rdPend a := rfl
@[simp] theorem State.wr_rdPend (s : State) (a : Nat) (v : Word) (x : Nat) : (s.wr a v).rdPend x = s.rdPend x := rfl
@[simp] theorem State.sfW_rdPend (s : State) (a lo n v : Nat) (x : Nat) : (s.sfW a lo n v).rdPend x = s.rdPend x := rfl
@[simp] theorem State.setBit_rdPend (s : State) (a i : Nat) (b : Bool) (x : Nat) : (s.setBit a i b).rdPend x = s.rdPend x := rfl
@[simp] theorem State.wr64_rdPend (s : State) (a : Nat) (v : Int) (x : Nat) : (s.wr64 a v).rdPend x = s.rdPend x := rfl
@[simp] theorem State.wrInstant_rdPend (s : State) (x y z n : Nat) (k : Nat) : (s.wrInstant x y z n).rdPend k = s.rdPend k := rfl
@[simp] theorem State.raiseBit_rdPend (s : State) (a b : Nat) (x : Nat) : (s.raiseBit a b).rdPend x = s.rdPend x := rfl
@[simp] theorem State.emit_rdPend (s : State) (e : Emission) (x : Nat) : (s.emit e).rdPend x = s.rdPend x := rfl
@[simp] theorem State.hostWrite_rdPend (s : State) (a : Nat) (d : Bytes) (x : Nat) : (s.hostWrite a d).rdPend x = s.rdPend x := rfl
@[simp] theorem State.setRing_rdPend (s : State) (n : Nat) (g : Ring → Ring) (x : Nat) : (s.setRing n g).rdPend x = s.rdPend x := rfl
@[simp] theorem State.calUsed_rdPend (s : State)  (x : Nat) : (s.calUsed).rdPend x = s.rdPend x := rfl
@[simp] theorem State.calPut_rdPend (s : State) (i : Nat) (e : CalEntry) (x : Nat) : (s.calPut i e).rdPend x = s.rdPend x := rfl
@[simp] theorem State.calFree_rdPend (s : State) (i : Nat) (x : Nat) : (s.calFree i).rdPend x = s.rdPend x := rfl

/-- What a condition guards happens where it holds. -/
@[simp] theorem State.when_true (s : State) (g : State → State) : s.when true g = g s := rfl

/-- And nowhere else. -/
@[simp] theorem State.when_false (s : State) (g : State → State) : s.when false g = s := rfl

@[simp] theorem State.each_nil {α : Type} (s : State) (g : α → State → State) : s.each [] g = s := rfl

@[simp] theorem State.each_cons {α : Type} (s : State) (x : α) (l : List α) (g : α → State → State) :
    s.each (x :: l) g = (g x s).each l g := rfl

end Sys2Proof.Machine
end

