-- ==== Sys2Proof/Laws/Ops.lean ====
section
/-!
SUPPORT. What the shared operations do to registers: a read after a write, fields of a written word, and for each shared operation
the registers that it may write.
-/

set_option Elab.async false

namespace Sys2Proof.Machine

/-! ### Fields of words -/

theorem bitOf_putFld (w : Word) (lo n v i : Nat) (hi : i < 32) :
    bitOf (putFld w lo n v) i = if lo ≤ i ∧ i < lo + n then v.testBit (i - lo) else bitOf w i := by
  unfold bitOf putFld word
  rw [BitVec.testBit_toNat, BitVec.testBit_toNat]
  simp only [BitVec.getLsbD_or, BitVec.getLsbD_and, BitVec.getLsbD_not, BitVec.getLsbD_shiftLeft, BitVec.getLsbD_ofNat,
    Nat.testBit_two_pow_sub_one]
  by_cases h1 : lo ≤ i
  · by_cases h2 : i < lo + n
    · have : i - lo < n := by omega
      have : i - lo < 32 := by omega
      simp [*, Nat.not_lt.mpr h1]
    · have : ¬ i - lo < n := by omega
      simp [*]
  · have : i < lo := by omega
    simp [*]

/-- A field of a word, bit by bit. -/
theorem testBit_fld (w : Word) (lo n i : Nat) : (fld w lo n).testBit i = (decide (i < n) && w.getLsbD (lo + i)) := by
  unfold fld
  rw [Nat.testBit_mod_two_pow, Nat.testBit_shiftRight, BitVec.testBit_toNat]

theorem fld_lt (w : Word) (lo n : Nat) : fld w lo n < 2 ^ n := Nat.mod_lt _ (Nat.two_pow_pos n)

/-- The field that was put. -/
theorem fld_putFld (w : Word) (lo n v : Nat) (h : lo + n ≤ 32) : fld (putFld w lo n v) lo n = v % 2 ^ n := by
  apply Nat.eq_of_testBit_eq
  intro i
  rw [testBit_fld, Nat.testBit_mod_two_pow]
  by_cases hi : i < n
  · have b := bitOf_putFld w lo n v (lo + i) (by omega)
    unfold bitOf at b
    rw [BitVec.testBit_toNat] at b
    simp [hi, b]
  · simp [hi]

/-- A field apart from the one that was put. -/
theorem fld_putFld_apart (w : Word) (lo n v l m : Nat) (h : l + m ≤ 32) (d : l + m ≤ lo ∨ lo + n ≤ l) :
    fld (putFld w lo n v) l m = fld w l m := by
  apply Nat.eq_of_testBit_eq
  intro i
  rw [testBit_fld, testBit_fld]
  by_cases hi : i < m
  · have b := bitOf_putFld w lo n v (l + i) (by omega)
    unfold bitOf at b
    rw [BitVec.testBit_toNat, BitVec.testBit_toNat, if_neg (by omega)] at b
    rw [b]
  · simp [hi]

theorem bitOf_eq_fld (w : Word) (i : Nat) : bitOf w i = decide (fld w i 1 = 1) := by
  unfold bitOf fld
  rw [Nat.testBit, Nat.and_comm, Nat.and_one_is_mod]
  have := Nat.mod_two_eq_zero_or_one (w.toNat >>> i)
  rcases this with h | h <;> simp [h]

/-! ### Reads after writes -/

/-- A read after a write (R353), in a register file in canonical form. -/
theorem rd_wr (s : State) (a b : Nat) (v : Word) (h : CellList.wf resetOf s.regs = true) :
    (s.wr a v).rd b = if b = a then v else s.rd b := CellList.get_set resetOf s.regs a b v h

/-- A canonical state's register file is in canonical form. -/
theorem regs_of_canonical {s : State} (h : s.canonical = true) : CellList.wf resetOf s.regs = true := by
  simp only [State.canonical, Bool.and_eq_true] at h
  exact h.1.1.1.1.1.1

/-- A field after a field of the same word was set. -/
theorem f_sfW (s : State) (a lo n v l m : Nat) (h : CellList.wf resetOf s.regs = true) :
    (s.sfW a lo n v).f a l m = fld (putFld (s.rd a) lo n v) l m := by
  unfold State.sfW State.f
  rw [rd_wr _ _ _ _ h, if_pos rfl]

/-- A field of another word. -/
theorem f_sfW_ne (s : State) (a b lo n v l m : Nat) (h : CellList.wf resetOf s.regs = true) (d : b ≠ a) :
    (s.sfW a lo n v).f b l m = s.f b l m := by
  unfold State.sfW State.f
  rw [rd_wr _ _ _ _ h, if_neg d]

/-- A bit after a bit of the same word was set. -/
theorem bit_setBit (s : State) (a i j : Nat) (b : Bool) (h : CellList.wf resetOf s.regs = true) (hj : j < 32) :
    (s.setBit a i b).bit a j = if j = i then b else s.bit a j := by
  unfold State.setBit State.sfW State.bit
  rw [rd_wr _ _ _ _ h, if_pos rfl, bitOf_putFld _ _ _ _ _ hj]
  by_cases e : j = i
  · subst e; cases b <;> simp [b2n]
  · rw [if_neg (by omega), if_neg e]

/-! ### The registers that an operation may write -/

/-- From a register file in canonical form an operation leaves one, and every register outside `W` as it was. -/
def RegFrame (W : Nat → Prop) (s t : State) : Prop :=
  CellList.wf resetOf s.regs = true → CellList.wf resetOf t.regs = true ∧ ∀ a, ¬ W a → t.rd a = s.rd a

theorem RegFrame.refl (W : Nat → Prop) (s : State) : RegFrame W s s := fun h => ⟨h, fun _ _ => rfl⟩

/-- An operation that leaves the register file as it is. -/
theorem RegFrame.same {W : Nat → Prop} {s t : State} (h : t.regs = s.regs) : RegFrame W s t :=
  fun k => ⟨h ▸ k, fun a _ => by unfold State.rd; rw [h]⟩

/-- An operation from a state with the same register file. -/
theorem RegFrame.before {W : Nat → Prop} {s s' t : State} (h : RegFrame W s' t) (e : s'.regs = s.regs := by rfl) : RegFrame W s t :=
  fun c => ⟨(h (e ▸ c)).1, fun a n => ((h (e ▸ c)).2 a n).trans (by unfold State.rd; rw [e])⟩

/-- An operation to a state with the same register file. -/
theorem RegFrame.after {W : Nat → Prop} {s t u : State} (h : RegFrame W s t) (e : u.regs = t.regs := by rfl) : RegFrame W s u :=
  fun c => ⟨e ▸ (h c).1, fun a n => (by unfold State.rd; rw [e] : u.rd a = t.rd a).trans ((h c).2 a n)⟩

theorem RegFrame.trans {W : Nat → Prop} {s t u : State} (h : RegFrame W s t) (k : RegFrame W t u) : RegFrame W s u :=
  fun c => ⟨(k (h c).1).1, fun a n => ((k (h c).1).2 a n).trans ((h c).2 a n)⟩

theorem RegFrame.mono {W V : Nat → Prop} {s t : State} (h : RegFrame W s t) (k : ∀ a, W a → V a) : RegFrame V s t :=
  fun c => ⟨(h c).1, fun a n => (h c).2 a (fun w => n (k a w))⟩

theorem RegFrame.wr {W : Nat → Prop} (s : State) (a : Nat) (v : Word) (h : W a) : RegFrame W s (s.wr a v) :=
  fun c => ⟨CellList.wf_set resetOf s.regs a v c, fun b n => by
    rw [rd_wr _ _ _ _ c, if_neg (by rintro rfl; exact n h)]⟩

theorem RegFrame.sfW {W : Nat → Prop} (s : State) (a lo n v : Nat) (h : W a) : RegFrame W s (s.sfW a lo n v) := .wr _ _ _ h

theorem RegFrame.setBit {W : Nat → Prop} (s : State) (a i : Nat) (b : Bool) (h : W a) : RegFrame W s (s.setBit a i b) := .wr _ _ _ h

theorem RegFrame.wr64 {W : Nat → Prop} (s : State) (a : Nat) (v : Int) (h : W a) (k : W (a + 4)) : RegFrame W s (s.wr64 a v) :=
  (RegFrame.wr s a _ h).trans (.wr _ _ _ k)

theorem RegFrame.wrInstant {W : Nat → Prop} (s : State) (x y z n : Nat) (hx : W x) (hy : W y) (hz : W z) :
    RegFrame W s (s.wrInstant x y z n) := ((RegFrame.wr s x _ hx).trans (.wr _ y _ hy)).trans (.wr _ z _ hz)

theorem RegFrame.when {W : Nat → Prop} (s : State) (c : Bool) (g : State → State) (h : RegFrame W s (g s)) :
    RegFrame W s (s.when c g) := by cases c; exacts [.refl W s, h]

theorem RegFrame.each {W : Nat → Prop} {α : Type} (l : List α) (g : α → State → State)
    (h : ∀ x ∈ l, ∀ t, RegFrame W t (g x t)) : ∀ s : State, RegFrame W s (s.each l g) := by
  induction l with
  | nil => exact fun s => .refl W s
  | cons x l ih => exact fun s => (h x List.mem_cons_self s).trans (ih (fun y m => h y (List.mem_cons_of_mem x m)) (g x s))

theorem RegFrame.ite {W : Nat → Prop} {c : Prop} [Decidable c] {s t u : State} (h : c → RegFrame W s t) (k : ¬ c → RegFrame W s u) :
    RegFrame W s (if c then t else u) := by
  by_cases e : c
  · rw [if_pos e]; exact h e
  · rw [if_neg e]; exact k e

/-- One operation more where a condition holds. -/
theorem RegFrame.iteStep {W : Nat → Prop} {c : Prop} [Decidable c] {s t u : State} (h : RegFrame W s t) (k : RegFrame W t u) :
    RegFrame W s (if c then u else t) := .ite (fun _ => h.trans k) (fun _ => h)

/-- Counting writes the counter, and its second word where it is a pair (R361). -/
theorem RegFrame.count {W : Nat → Prop} (s : State) (a n : Nat) (h : W a) (k : (pairRowOf a).isSome = true → W (a + 4)) :
    RegFrame W s (s.count a n) := by
  unfold State.count
  by_cases p : (pairRowOf a).isSome = true
  · rw [if_pos p]
    exact (RegFrame.wr64 _ _ _ h (k p)).before
  · rw [if_neg p]
    exact (RegFrame.wr _ _ _ h).before

theorem RegFrame.inc {W : Nat → Prop} (s : State) (a : Nat) (h : W a) (k : (pairRowOf a).isSome = true → W (a + 4)) :
    RegFrame W s (s.inc a) := .count s a 1 h k

theorem RegFrame.raiseBit {W : Nat → Prop} (s : State) (a b : Nat) (h : W a) : RegFrame W s (s.raiseBit a b) :=
  (RegFrame.sfW s a b 1 1 h).trans (.sfW _ _ _ _ _ h)

/-- A vector's message writes no register (R343). -/
theorem RegFrame.sendVec {W : Nat → Prop} (s : State) (v : Nat) : RegFrame W s (s.sendVec v) := by
  apply RegFrame.same; unfold State.sendVec; split <;> rfl

theorem RegFrame.pendItem {W : Nat → Prop} (s : State) (n : Nat) : RegFrame W s (s.pendItem n) := by
  unfold State.pendItem
  apply RegFrame.ite
  · intro _
    dsimp only
    apply RegFrame.ite
    · intro _; exact (RegFrame.sendVec _ _).before
    · intro _; exact .same rfl
  · intro _; exact .refl W s

theorem RegFrame.bumpPosted {W : Nat → Prop} (s : State) (n : Nat) (h : W (A.hifRingPosted n)) : RegFrame W s (s.bumpPosted n) :=
  (RegFrame.wr _ _ _ h).before

/-- A completion writes POSTED of its ring (R331). -/
theorem RegFrame.postCompletion {W : Nat → Prop} (s : State) (n slot status flags length : Nat) (user : Bytes)
    (h : W (A.hifRingPosted n)) : RegFrame W s (s.postCompletion n slot status flags length user) := by
  unfold State.postCompletion
  exact ((RegFrame.bumpPosted _ _ h).trans (.pendItem _ _)).before

/-- The registers that reporting an event may write (R332, R342). -/
def Reporting (W : Nat → Prop) : Prop := W A.hifEvent ∧ W A.hifEvtDrop ∧ ∀ n, W (A.hifRingPosted n)

theorem RegFrame.evtDropped {W : Nat → Prop} (s : State) (h : Reporting W) : RegFrame W s s.evtDropped := by
  have one : ∀ t : State, RegFrame W t ((t.inc A.hifEvtDrop).raiseBit A.hifEvent 4) := fun t =>
    (RegFrame.inc t _ h.2.1 (fun e => absurd e (by decide +kernel))).trans (.raiseBit _ _ _ h.1)
  unfold State.evtDropped
  apply RegFrame.ite
  · intro _; exact (one s).trans (one _)
  · intro _; exact one s

theorem RegFrame.postEvent {W : Nat → Prop} (s : State) (type flags source stamp : Nat) (body : Bytes) (h : Reporting W) :
    RegFrame W s (s.postEvent type flags source stamp body) := by
  unfold State.postEvent
  split
  · exact .evtDropped s h
  · apply RegFrame.ite
    · intro _; exact .evtDropped s h
    · intro _
      exact ((RegFrame.bumpPosted _ _ (h.2.2 _)).trans (.pendItem _ _)).before

theorem RegFrame.sendEventMsg {W : Nat → Prop} (s : State) (i : Nat) (q : Subscription) (d : Bytes) :
    RegFrame W s (s.sendEventMsg i q d) := .same rfl

theorem RegFrame.blockEvent {W : Nat → Prop} (s : State) (dest reg : Nat) (h : Reporting W) : RegFrame W s (s.blockEvent dest reg) := by
  unfold State.blockEvent
  dsimp only
  apply RegFrame.ite
  · intro _; exact (RegFrame.postEvent _ _ _ _ _ _ h).before
  · intro _
    split
    · exact (RegFrame.sendEventMsg _ _ _ _).before
    · exact .same rfl

theorem RegFrame.noteEvent {W : Nat → Prop} (s : State) (dest reg : Nat) (h : Reporting W) : RegFrame W s (s.noteEvent dest reg) := by
  unfold State.noteEvent
  apply RegFrame.ite
  · intro _; exact .same rfl
  · intro _; exact .blockEvent s dest reg h

/-- An event writes its EVENT register and what reporting it writes (R363, R342). -/
theorem RegFrame.raise {W : Nat → Prop} (s : State) (reg b : Nat) (r : W reg) (h : Reporting W) : RegFrame W s (s.raise reg b) := by
  unfold State.raise
  dsimp only
  apply RegFrame.ite
  · intro _; exact .raiseBit s reg b r
  · intro _
    refine RegFrame.trans (.trans (.raiseBit s reg b r) (t := _) ?_) (.each _ _ ?_ _)
    · apply RegFrame.ite
      · intro _; exact .noteEvent _ _ _ h
      · intro _; exact .refl W _
    · intro i _ t
      split
      · apply RegFrame.ite
        · intro _; exact .noteEvent _ _ _ h
        · intro _; exact .refl W _
      · exact .refl W _

theorem RegFrame.setRing {W : Nat → Prop} (s : State) (n : Nat) (g : Ring → Ring) : RegFrame W s (s.setRing n g) := .same rfl

/-- A dropped item counts in its ring's DROP and may be reported (R339). -/
theorem RegFrame.ringDrop {W : Nat → Prop} (s : State) (n : Nat) (d : W (A.hifRingDrop n)) (d' : (pairRowOf (A.hifRingDrop n)).isSome = true → W (A.hifRingDrop n + 4))
    (h : Reporting W) : RegFrame W s (s.ringDrop n) := by
  unfold State.ringDrop
  dsimp only
  have one : RegFrame W s ((s.inc (A.hifRingDrop n)).setRing n (fun r => { r with dropped := r.dropped + 1 })) :=
    (RegFrame.inc s _ d d').trans (.setRing _ _ _)
  refine RegFrame.trans one ?_
  split <;> first
    | exact (RegFrame.setRing _ _ _).trans (.postEvent _ _ _ _ _ _ h)
    | (apply RegFrame.ite
       · intro _; exact (RegFrame.setRing _ _ _).trans (.postEvent _ _ _ _ _ _ h)
       · intro _; exact .refl W _)

theorem RegFrame.settleBad {W : Nat → Prop} (s : State) (n : Nat) (h : W (A.hifRingPosted n)) : RegFrame W s (s.settleBad n) := by
  unfold State.settleBad
  dsimp only
  apply RegFrame.ite
  · intro _; exact (RegFrame.each _ _ (fun _ _ _ => .postCompletion _ _ _ _ _ _ _ h) _).before
  · intro _; exact .same rfl

theorem RegFrame.flushBuffer {W : Nat → Prop} (s : State) (n : Nat) (h : W (A.hifRingPosted n)) : RegFrame W s (s.flushBuffer n) := by
  unfold State.flushBuffer
  split
  · exact .refl W s
  · exact ((RegFrame.postCompletion _ _ _ _ _ _ _ h).trans (.settleBad _ _ h)).before

theorem RegFrame.makeRoom {W : Nat → Prop} (s : State) (n len : Nat) (h : W (A.hifRingPosted n)) : RegFrame W s (s.makeRoom n len) := by
  unfold State.makeRoom
  split
  · exact .refl W s
  · apply RegFrame.ite
    · intro _; exact .flushBuffer s n h
    · intro _; exact .refl W s

/-- A record writes POSTED of its ring where it fills a buffer (R338). -/
theorem RegFrame.putRecord {W : Nat → Prop} (s : State) (n : Nat) (d : Bytes) (h : W (A.hifRingPosted n)) :
    RegFrame W s (s.putRecord n d).1 := by
  unfold State.putRecord
  refine (RegFrame.makeRoom s n d.length h).trans ?_
  dsimp only
  split
  · exact .refl W _
  · split
    · exact .same rfl
    · exact .refl W _

theorem RegFrame.recordOrDrop {W : Nat → Prop} (s : State) (n source : Nat) (d : Bytes) (x : W (A.hifRingDrop n))
    (x' : (pairRowOf (A.hifRingDrop n)).isSome = true → W (A.hifRingDrop n + 4)) (h : Reporting W) : RegFrame W s (s.recordOrDrop n source d).1 := by
  unfold State.recordOrDrop
  have r := RegFrame.putRecord s n d (h.2.2 n)
  split
  · dsimp only
    split
    · exact r
    · exact r.trans (.ringDrop _ _ x x' h)
  · exact .ringDrop s n x x' h

theorem RegFrame.foldl {W : Nat → Prop} {α : Type} (g : State → α → State) (h : ∀ t x, RegFrame W t (g t x)) :
    ∀ (l : List α) (s : State), RegFrame W s (l.foldl g s)
  | [], s => .refl W s
  | x :: l, s => (h s x).trans (RegFrame.foldl g h l (g s x))

theorem RegFrame.pumpJournal {W : Nat → Prop} (s : State) (h : Reporting W) : RegFrame W s s.pumpJournal := by
  unfold State.pumpJournal
  split
  · exact .refl W s
  · rename_i n _
    apply RegFrame.foldl
    intro t r
    dsimp only
    split
    · have p := RegFrame.putRecord (W := W) t n r.bytes (h.2.2 n)
      split
      · exact p.trans (.same rfl)
      · exact p
    · exact .refl W t

theorem RegFrame.streamJournal {W : Nat → Prop} (s : State) : RegFrame W s s.streamJournal := by
  unfold State.streamJournal
  apply RegFrame.each
  intro i _ t
  dsimp only
  split
  · exact .refl W t
  · rename_i q _
    apply RegFrame.ite
    · intro _
      exact RegFrame.after (t := t.each (t.journal.records.reverse.filter (fun r => decide (q.nextSeq ≤ r.seq)))
        (fun r u => u.emit (.mp i 0x91 q.tag r.bytes))) (.each _ _ (by intro _ _ _; exact .same rfl) t) rfl
    · intro _; exact .refl W t

/-- A journal record writes JOURNAL_SEQ, where it loses records JOURNAL_LOST and GLB.EVENT, and what reporting writes (R387, R389). -/
theorem RegFrame.journalize {W : Nat → Prop} (s : State) (kind : Nat) (src : Source) (addr outcome : Nat) (body : Bytes)
    (q : W A.glbJournalSeq) (l : W A.glbJournalLost) (e : W A.glbEvent) (h : Reporting W) :
    RegFrame W s (s.journalize kind src addr outcome body) := by
  unfold State.journalize
  dsimp only
  refine RegFrame.trans (.trans ?_ (.pumpJournal _ h)) (.streamJournal _)
  apply RegFrame.ite
  · intro _; exact (RegFrame.wr _ _ _ q).before
  · intro _
    exact ((RegFrame.wr _ _ _ q).trans ((RegFrame.count _ _ _ l (fun c => absurd c (by decide +kernel))).trans
      (.raise _ _ _ e h))).before

theorem RegFrame.journalBlock {W : Nat → Prop} (s : State) (kind : Nat) (src : Source) (block addr outcome : Nat) (body : Bytes)
    (q : W A.glbJournalSeq) (l : W A.glbJournalLost) (e : W A.glbEvent) (h : Reporting W) :
    RegFrame W s (s.journalBlock kind src block addr outcome body) := by
  have j := RegFrame.journalize s kind src addr outcome body q l e h
  unfold State.journalBlock
  generalize s.journalize kind src addr outcome body = t at j ⊢
  exact j.after

/-- A fault writes one of the 64 entries of the log, FAULT_SEQ, and what the journal and the reports write (R397 to R399). -/
theorem RegFrame.logFault {W : Nat → Prop} (s : State) (code : Nat) (src : Source) (block addr value access detail : Nat)
    (f : W A.glbFaultSeq) (o : W A.glbFaultOverwrite) (g : ∀ a, 0x1000 ≤ a → a < 0x1800 → W a)
    (q : W A.glbJournalSeq) (l : W A.glbJournalLost) (e : W A.glbEvent) (h : Reporting W) :
    RegFrame W s (s.logFault code src block addr value access detail) := by
  unfold State.logFault
  dsimp only
  refine RegFrame.trans ?_ (.journalBlock _ _ _ _ _ _ _ q l e h)
  refine RegFrame.trans ?_ (.each _ _ ?_ _)
  · refine .iteStep (.trans (.trans ?_ (.each _ _ ?_ _)) ((RegFrame.wr _ _ _ f).trans (.raise _ _ _ e h)))
      (.postEvent _ _ _ _ _ _ h)
    · apply RegFrame.ite
      · intro _; exact (RegFrame.inc _ _ o (fun c => absurd c (by decide +kernel))).trans (.raise _ _ _ e h)
      · intro _; exact .refl W s
    · intro w m t
      have hw : w < 8 := by simp at m; omega
      exact .wr _ _ _ (g _ (by omega) (by omega))
  · intro i _ t
    split
    · apply RegFrame.ite
      · intro _; exact .sendEventMsg _ _ _ _
      · intro _; exact .refl W _
    · exact .refl W _

end Sys2Proof.Machine
end

