-- ==== Sys2Proof/Laws/Slots.lean ====
section
/-!
SUPPORT. Slots of a port: when a search finds one, whatever the phase of the block grid.
-/

set_option Elab.async false

namespace Sys2Proof.Machine

theorem gridStep_pos (s : State) (sl : Nat) : 0 < s.gridStep sl := by
  unfold State.gridStep; split <;> decide

theorem le_gridFrom (s : State) (sl lo : Nat) : lo ≤ s.gridFrom sl lo := by
  unfold State.gridFrom; exact Nat.le_add_right _ _

theorem gridFrom_lt (s : State) (sl lo : Nat) : s.gridFrom sl lo < lo + s.gridStep sl := by
  unfold State.gridFrom; have := Nat.mod_lt ((Config.gridPhase sl (s.lnk sl).lock % s.gridStep sl) + s.gridStep sl - lo % s.gridStep sl) (gridStep_pos s sl)
  simpa using this

/-- With nothing booked, no frame on the line and no markers a search over at least one grid step finds a slot. -/
theorem freeSlot_isSome (s : State) (sl lo hi n : Nat) (all : Bool) (h : s.taken sl all = []) (m : s.hasMarkers sl = false)
    (o : (s.lnk sl).onLine = none) (l : lo + s.gridStep sl ≤ hi) : (s.freeSlot sl lo hi n all).isSome = true := by
  have g := gridFrom_lt s sl lo
  unfold State.freeSlot
  rw [if_neg (by omega)]
  simp [findSlot, h, m, State.preLeaves, o]

/-- A search that ends before it begins finds nothing. -/
theorem freeSlot_none (s : State) (sl lo hi n : Nat) (all : Bool) (h : hi < lo) : s.freeSlot sl lo hi n all = none := by
  have g := le_gridFrom s sl lo
  unfold State.freeSlot
  rw [if_pos (by omega)]

/-- The same for a reserved slot that leaves as it is booked. -/
theorem expressSlot_isSome (s : State) (sl n : Nat) (h : s.taken sl false = []) (m : s.hasMarkers sl = false)
    (o : (s.lnk sl).onLine = none) : (s.expressSlot sl n).1.isSome = true := by
  have w : s.gridStep sl ≤ 2560 := by unfold State.gridStep; split <;> decide
  have g : (s.freeSlot sl (100000 + s.nowPs) (slotReach + (100000 + s.nowPs)) n false).isSome = true :=
    freeSlot_isSome s sl _ _ n false h m o (by unfold slotReach; omega)
  unfold State.expressSlot State.reserve
  split <;> rename_i e
  · simp [e] at g
  · rfl

/-- A found slot, as the search answers it. -/
theorem eq_some_getD {α : Type} (o : Option α) (d : α) (h : o.isSome = true) : o = some (o.getD d) := by
  cases o with
  | none => simp at h
  | some x => rfl

end Sys2Proof.Machine
end

