-- ==== Sys2Proof/Tests/Slice0.lean ====
section
/-!
SUPPORT. Tests: ill-formed commands, the spec's worked examples, single commands, and for each statement of
Certificates/Slice0/Obligations.lean a state and operands that meet the hypotheses of every clause.
-/

set_option Elab.async false
set_option maxRecDepth 100000
set_option linter.unusedVariables false
set_option linter.unusedSimpArgs false

namespace Sys2Proof.Tests

open Sys2Proof Sys2Proof.Machine

/-- The module after reset with every power domain on. -/
def wOn : State := State.reset.wr A.pwrDomState 0xFFFF

/-- Staging words written. -/
def setStage (s : State) (l : List (Nat × Word)) : State :=
  { s with stage := l.foldl (fun m e => CellList.set resetOf m e.1 e.2) s.stage }

/-- A row that no witness needs. -/
def rowNone : RegRow := ⟨0, 0, 0, 0, 0, .ro, 0, 0, 0, 0, false, []⟩


/-- A value is less than 2 ns beyond itself. -/
theorem gap_lt (a b : Int) : a - b < 32000 + (a - b) := by omega

/-- A PTP message of `mt` from port `p` with sequenceId `q`. -/
def ptpMsg (mt f0 : Nat) (p : Bytes) (q : Nat) (body : Bytes) : Bytes :=
  [byte mt, 0x12] ++ be 2 (34 + body.length) ++ [0, 0, byte f0, 0] ++ zeros 12 ++ p ++ be 2 q ++ [0, 0] ++ body

/-- A frame with a payload on an Ethertype. -/
def ethF (t : Nat) (d : Bytes) : Bytes := zeros 12 ++ be 2 t ++ d

/-- The same over UDP from 10.0.0.1. -/
def udpF (d : Bytes) : Bytes :=
  ethF 0x800 ([0x45, 0] ++ be 2 (28 + d.length) ++ [0, 0, 0, 0, 64, 17, 0, 0, 10, 0, 0, 1, 10, 0, 0, 2, 1, 63, 1, 63] ++
    be 2 (8 + d.length) ++ [0, 0] ++ d)

/-- The module with one claimed frame on link 7. -/
def wClaim (k : ClaimKind) (d : Bytes) (s : State) : State := { s with ports := { s.ports with claims := [⟨k, ⟨7, 0, d⟩⟩] } }

/-- Link 7 UP and PTP instance 0 enabled on it over Ethernet. -/
def wInst : State := ((wOn.wr (A.macLinkStatus 7) 1).wr (A.ptpInstCfg 0) 1).wr (A.ptpInstLinks 0) 0xFFFF

/-- Slave instance 1 on link 7, LISTENING, with a CFG word. -/
def wSlv (cfg : Word) (f : PtpSlave → PtpSlave) : State :=
  ((((wOn.wr (A.macLinkStatus 7) 1).wr (A.ptpSlvCfg 1) cfg).wr (A.ptpSlvState 1) 1).wr (A.ptpSlvMaster 1 2) 0xFFFF).wr
    (A.ptpSlvMaster 1 3) 0x0A000001 |>.setSlave 1 f

/-- A REQUEST TLV for Announce at interval 0 and 300 s. -/
def reqTlv : Bytes := [0, 4, 0, 6, 0xB0, 0, 0, 0, 1, 44]

/-- A request record of a kind on link 7. -/
def wReq (k : ReqKind) : Request :=
  ⟨k, ⟨7, 0, []⟩, 0, 0, 0, 0, 0, 0, 15, zeros 16, [0, 0, 0], 0, false, none⟩

/-- A job record: operation, parameter, slot, words, progress address and tag. -/
def jrec (op param slot w prog tag : Nat) : Bytes :=
  [byte op, byte param, 3, byte slot] ++ le 2 w ++ zeros 26 ++ le 8 prog ++ le 4 tag ++ zeros 20

/-- A job as fetched, of no ring. -/
def job (r input : Bytes) : PkeJob := ⟨none, 0, r, input, none, 7, 0, false, false, 0, 0, none, none, 0, 0, 0⟩

/-- Core 15 runs a job. -/
def wCore (j : PkeJob) : State :=
  { wOn with pke := { wOn.pke with cores := modAt wOn.pke.cores 15 (fun _ => ⟨some j, 0, []⟩) } }

/-- A job waits in the queue while every core is free. -/
def wJob (j : PkeJob) (k : KeySlot) : State :=
  { wOn.wr A.pkeStatus 0xFFFF with pke := { wOn.pke with queue := [j], slots := modAt wOn.pke.slots 63 (fun _ => k) } }

/-- P-256's base point. -/
def p256G : Bytes := [4] ++ be 32 (pCurveOf 0x11).gx ++ be 32 (pCurveOf 0x11).gy

/-- A descriptor. -/
def desc (len ctl arg : Nat) : Desc := ⟨0, 4096, len, ctl, [], arg, 0, false⟩

/-- Ring 5 of a type, RUNNING, with one descriptor waiting. -/
def wRing (cfg : Word) (d : Desc) : State :=
  ((wOn.wr (A.hifRingCfg 5) cfg).wr (A.hifRingState 5) 1).setRing 5 (fun r => { r with waiting := [d] })

/-- Session 4 in use. -/
def wSess (f : Session → Session) (s : State) : State :=
  { s with celen := { s.celen with recovery := false, sessions := [none, none, none, some (f ⟨[1], true, none, 0, none⟩)] } }

/-- A message. -/
def mpMsg (b : Bytes) : MpMsg := ⟨0x434C, 1, b.length, 77, b⟩

/-- The sensors of a module at rest. -/
def sense (t : Int) : PowerSense := ⟨2300, 480, 480, 240, 60, t, 250, 300⟩

/-- A Peorel frame of a type for the system whose identity is 1. -/
def peorel (type len : Nat) (rest : Bytes) : Bytes :=
  [1, 0x80, 0xC2, 0, 0, 0x0E] ++ zeros 6 ++ be 2 0x88B6 ++ [1, byte type] ++ be 2 len ++ be 8 1 ++ be 8 9 ++ [0, 0, 0, 0] ++ rest ++ zeros len

/-- The number of two words. -/
theorem rd64_lt (s : State) (a : Nat) : s.rd64 a < 2 ^ 64 := by
  have h1 := (s.rd a).isLt
  have h2 := (s.rd (a + 4)).isLt
  unfold State.rd64
  omega

/-- A requester that a DONE carries comes back. -/
theorem be8_back (n : Nat) (h : n < 2 ^ 64) :
    beAt ((peorel 5 88 (zeros 48 ++ be 8 n ++ be 4 4)).drop 14) 72 8 = n := by
  show ofBe [byte (n >>> 56), byte (n >>> 48), byte (n >>> 40), byte (n >>> 32), byte (n >>> 24), byte (n >>> 16),
    byte (n >>> 8), byte (n >>> 0)] = n
  simp only [ofBe, List.foldl, byte, BitVec.toNat_ofNat, Nat.shiftRight_eq_div_pow]
  omega

/-- Lane 7 UP in system 1. -/
def wLane : State := ((wOn.wr (A.cmacLaneStatus 7) 1).wr A.casSystemIdLo 1).wr A.casCfg 1

/-- An operation held with its entry due. -/
def casOp (op : Nat) : CasOp := ⟨3, op, 0, 9, 4, 0, [1, 2], some 0, [], 0, none, [], false, false⟩

/-- The module with an operation whose entry is due. -/
def wOp (op : Nat) : State :=
  { wLane with cas := { wOn.cas with ops := [casOp op] }, ts := { wOn.ts with calendar := [(3, ownEntry 0x17 0 0 0 1 1)] } }


/-- A command answers a next state. -/
def nexts (c : Instr) (s : State) : Bool := match exec c s with
  | .next _ => true
  | _ => false

theorem of_nexts (c : Instr) (s : State) (h : nexts c s = true) : ∃ t, exec c s = .next t := by
  unfold nexts at h
  split at h
  · exact ⟨_, ‹_›⟩
  · cases h

/-- The hypotheses of a frame of parts are met: the command answers a next state, and the queue is outside the list. -/
theorem framed (l : List (Instr × State × List Part))
    (h : (l.all (fun x => nexts x.1 x.2.1 && !(x.2.2.contains Part.queue))) = true) :
    ∀ x ∈ l, (∃ t, exec x.1 x.2.1 = .next t) ∧ Part.queue ∉ x.2.2 := by
  intro x hx
  have := List.all_eq_true.1 h x hx
  simp only [Bool.and_eq_true, Bool.not_eq_true', List.contains_eq_mem, decide_eq_false_iff_not] at this
  exact ⟨of_nexts _ _ this.1, this.2⟩

/-- The hypotheses of a frame of registers are met: the state is canonical and the command answers a next state. -/
theorem framedRegs (l : List (Instr × State))
    (h : (l.all (fun x => nexts x.1 x.2 && x.2.canonical)) = true) :
    ∀ x ∈ l, x.2.canonical = true ∧ ∃ t, exec x.1 x.2 = .next t := by
  intro x hx
  have := List.all_eq_true.1 h x hx
  simp only [Bool.and_eq_true] at this
  exact ⟨this.2, of_nexts _ _ this.1⟩

/-! ### Ill-formed commands: one for each check of `Instr.wf` -/

theorem test_ill_formed_1 : ∀ c ∈ ([
    .registerWrite 0 5 (A.tscCalCmd) [(15, 7)],
    .crClearingRead 0 5 (A.hifKicks) false,
    .sqAcknowledge 0 5 (A.refEvent) 0x01000001,
    .stageWrite 0 5 (A.refInCfg 13) 0xFFFFFFFF,
    .lkWrite 0 5 (A.rcpLtSlot) 5,
    .guardTimeout 0 5,
    .sluCommit 0 5 33 0,
    .sluCommit 0 1 64 0,
    .sluCancel 0 5 4,
    .sluCancel 0 0 64,
    .sluRevert 0 5 34,
    .sluRevert 0 3 64,
    .flowAdopt 0 8 1,
    .flowAdopt 0 7 2,
    .nowSecLoRead 0 5,
    .outEdge 0 6,
    .pulseEnd 0 4,
    .qualTimeExpire 0 14,
    .wtrExpire 0 14,
    .distrustHoldExpire 0 14,
    .refLossTimeout 0 14,
    .refForce 0 5 12 0xFFFFFFF3,
    .clearDistrust 0 5 (word 12) 0xFFFFFFF3,
    .offsetLoRead 0 5 13,
    .offsetLoRead 0 0 14,
    .stepApprove 0 5 256 0xFFFFFEFF,
    .stepApproveSlew 0 5 0 0xFFFFFDFF,
    .calCreate 0 5 0x00030000 [] 1,
    .calCancel 0 5 0x00030000 [] 1,
    .calModify 0 5 0x00030000 [] 1,
    .calNone 0 5 0x00030000 [] 1,
    .cartRelease 0 5 0xFFFFFFFE,
    .cartResume 0 5 0xFFFFFFFD,
    .cartForget 0 5 0xFFFFFFFC,
    .gnssSolutionDone 0 2 (⟨[], [], (0, 0, 0), []⟩),
    .gnssAlarmClear 0 2 2,
    .gnssExclEnd 0 2 true 2 3,
    .channelLossOfLock 0 2 159,
    .channelLossOfLock 0 1 160,
    .navRecord 0 2 (⟨0, 1, 0, 0, 0, 450, [], true, false, none, none, none⟩),
    .surveyStart 0 5 0x10 [] 1,
    .surveyAbort 0 5 0x10 [] 1,
    .surveyProgress 0 2,
    .surveyComplete 0 2,
    .surveyTimeout 0 2,
    .posFix 0 5 0x10 [] 1,
    .posClear 0 5 0x10 [] 1,
    .snapArm 0 5 0x10 [] 1,
    .snapAbort 0 5 0x10 [] 1,
    .replayStart 0 5 0x10 [] 1] : List Instr), c.wf = false := by
  decide +kernel

theorem test_ill_formed_2 : ∀ c ∈ ([
    .replayStop 0 5 0x10 [] 1,
    .replayEnd 0 2,
    .clearExcl 0 5 0x10 [] 1,
    .thetaLoRead 0 5 1,
    .thetaLoRead 0 0 2,
    .rfiSpectrum 0 2 1 (⟨[(3, 40)], 20, 100, 5, 30⟩),
    .rfiSpectrum 0 1 2 (⟨[(3, 40)], 20, 100, 5, 30⟩),
    .biasShort 0 2 91,
    .biasRetry 0 2 90,
    .gnssFwLoad 0 2 false,
    .tagEdge 0 16 false 3 0,
    .measClose 0 8,
    .measGateClose 0 8,
    .frameRx 0 8 (⟨.unknown, .goesOn, [], 0, true, 1, 1⟩),
    .weirLow 0 8 0,
    .pauseRefresh 0 8,
    .pauseEffect 0 8,
    .pauseHoldEnd 0 8,
    .pauseOverlimit 0 8,
    .linkUp 0 16 65535 3,
    .linkDown 0 16 (.fec),
    .cageInsert 0 4 true 0x11 4,
    .cageRemove 0 4,
    .verifySend 0 8,
    .verifyResponse 0 8,
    .probeStart 0 5 7,
    .probeStart 0 0 8,
    .probeReturn 0 8 5 1000,
    .probeTimeout 0 8,
    .responseBook 0 8,
    .finalise 0 16,
    .commitPoint 0 16,
    .slotStart 0 16,
    .ageDrop 0 8,
    .ntpRequest 0 16,
    .ntsRequest 0 16,
    .bucketMoveDone 0 256,
    .clientQuery 0 5 0 [] 1,
    .ntsRotateNow 0 5 0xFFFFFFFE,
    .ntsPurge 0 5 0xFFFFFFFD,
    .drain 0 5 15,
    .drain 0 0 16,
    .drainComplete 0 16,
    .reload 0 5 0 false,
    .reload 0 0 16 false,
    .reloadComplete 0 16 false,
    .annTimeout 0 2,
    .slaveGrantRenew 0 2,
    .etxelRequest 0 16,
    .roughtimeRequest 0 16] : List Instr), c.wf = false := by
  decide +kernel

theorem test_ill_formed_3 : ∀ c ∈ ([
    .rcpRotateNow 0 5 0xFFFFFFFE,
    .ltSlot 0 5 0x41,
    .ed25519Sign 0 16,
    .ed25519Verify 0 16,
    .ed448Sign 0 16,
    .ed448Verify 0 16,
    .x25519 0 16,
    .x448 0 16,
    .ecdsaSign 0 16,
    .ecdsaVerify 0 16,
    .ecdh 0 16,
    .rsaPrivate 0 16,
    .rsaPublic 0 16,
    .keygen 0 16,
    .keyImport 0 16,
    .pkeDispatch 0 16,
    .pkeYield 0 16,
    .pkeJobComplete 0 16 true,
    .pkeAbort 0 5 9 0xFFFFFFF6,
    .keygenProgress 0 16 3 8,
    .trngSourceFail 0 8 true,
    .trngSourceRetest 0 8 true,
    .fence 0 5 3 15 (~~~(word (1 + 3 * 16 + 15 * 256))),
    .returnUnit 0 5 0 0 (~~~(word 2)),
    .hostFrameTx 0 256 (some (zeros 60)),
    .recordFlush 0 256,
    .xfer 0 256 ([]) true none,
    .vectorTimer 0 64,
    .ringQuiesced 0 256,
    .hostDetach 0 5,
    .sessionIdle 0 0,
    .sessionIdle 0 5,
    .sessionClosed 0 0 true,
    .sessionClosed 0 5 true,
    .celenHello 0 0 1 (mpMsg (zeros 4)),
    .celenHello 0 5 1 (mpMsg (zeros 4)),
    .celenRead 0 0 (mpMsg (be 4 0x8030 ++ [2, 15, 0, 0])),
    .celenRead 0 5 (mpMsg (be 4 0x8030 ++ [2, 15, 0, 0])),
    .celenWrite 0 0 (mpMsg (be 4 A.refCtl ++ [1, 15, 0, 0] ++ be 4 9)),
    .celenWrite 0 5 (mpMsg (be 4 A.refCtl ++ [1, 15, 0, 0] ++ be 4 9)),
    .celenRead64 0 0 (mpMsg (be 4 0x8030)),
    .celenRead64 0 5 (mpMsg (be 4 0x8030)),
    .celenSubscribe 0 0 (mpMsg (be 4 0x1FFFFF ++ [7, 0, 0, 0] ++ zeros 4)),
    .celenSubscribe 0 5 (mpMsg (be 4 0x1FFFFF ++ [7, 0, 0, 0] ++ zeros 4)),
    .celenUnsubscribe 0 0 (mpMsg ([])),
    .celenUnsubscribe 0 5 (mpMsg ([])),
    .journalRead 0 0 (mpMsg (zeros 4 ++ [0, 9, 0, 0])),
    .journalRead 0 5 (mpMsg (zeros 4 ++ [0, 9, 0, 0])),
    .celenStage 0 0 (mpMsg ([1, 0, 0, 0] ++ be 8 0 ++ be 4 64)) none,
    .celenStage 0 5 (mpMsg ([1, 0, 0, 0] ++ be 8 0 ++ be 4 64)) none] : List Instr), c.wf = false := by
  decide +kernel

theorem test_ill_formed_4 : ∀ c ∈ ([
    .celenNet 0 0 (mpMsg (zeros 44)),
    .celenNet 0 5 (mpMsg (zeros 44)),
    .celenTrust 0 0 (mpMsg ([1, 0, 0, 0] ++ [0, 2, 5, 6])),
    .celenTrust 0 5 (mpMsg ([1, 0, 0, 0] ++ [0, 2, 5, 6])),
    .celenBye 0 0 (mpMsg ([])),
    .celenBye 0 5 (mpMsg ([])),
    .inputQualified 0 4 (sense 400),
    .inputLost 0 4 (sense 400),
    .resetFull 0 5 0xFFFFFFFE none,
    .resetMgmt 0 5 0xFFFFFFFD none,
    .bootStore 0 5 0xFFFFFFFE none,
    .bootClear 0 5 0xFFFFFFFD,
    .bootRetrain 0 5 0xFFFFFFFC,
    .alarmCloseTimer 0 2,
    .linkFrameRx 0 8 (peorel 1 156 []) 0 0,
    .opReqRx 0 8 (peorel 2 60 (zeros 4 ++ [1, 0, 0, 0] ++ zeros 4 ++ be 2 5 ++ zeros 6)),
    .opRx 0 8 (peorel 3 60 (be 4 8 ++ zeros 4)),
    .resultRx 0 8 (peorel 4 88 (be 4 3)),
    .doneRx 0 8 (peorel 5 88 (zeros 48 ++ be 8 wOn.serial ++ be 4 4)),
    .thetaLoLaneRead 0 5 7,
    .thetaLoLaneRead 0 4 8,
    .opResult0Read 0 5,
    .tallySel 0 5 0xFFFF0002,
    .stolenClear 0 5 1 0x001F0000,
    .stolenClear 0 4 2 0x001F0000,
    .sampleIndex 0 5 0x0FFF0003,
    .preemptableFrameSent 0 8 false,
    .signalAcquired 0 2 159 320 2,
    .signalAcquired 0 1 160 320 2] : List Instr), c.wf = false := by
  decide +kernel

/-! ### Worked examples of the spec -/

/-- t_rx of the example of chapter 7, in units of 2^-16 ns. -/
def exRx : Nat := (1735689637 * 1000000000 + 250000000) * 65536

/-- R226: root dispersion of 4,050 ps (the example of chapter 7). -/
theorem test_root_dispersion : rootDispersion 4050 = 1 := by decide

/-- R227: the three timestamps of the example of chapter 7. -/
theorem test_ntp_times :
    ntpTime (1735689637 * 65536000000000) (37 * utcDen) = [0xEB, 0x1F, 0x04, 0x00, 0, 0, 0, 0] ∧
    ntpTime exRx (37 * utcDen) = [0xEB, 0x1F, 0x04, 0x00, 0x40, 0, 0, 0] ∧
    ntpTime (exRx + 1799980 * 65536 / 1000) (37 * utcDen) = [0xEB, 0x1F, 0x04, 0x00, 0x40, 0x00, 0x1E, 0x33] := by
  decide +kernel

/-- R52: the radius four hours into holdover (the example of chapter 1), before the 400 ps of RADIUS_FIX. -/
theorem test_hold_radius :
    State.holdRadius { wOn with
      ts := { wOn.ts with meas := 14400000000000 * 2 ^ 48, holdStart := 0 }
      hol := { wOn.hol with
        uY := 15000
        uT := 5000
        uA := 1200
        anchor := some ⟨0, 0, 0, 4050⟩ } } = 416466 := by
  decide +kernel

/-- R173: the stops of the example of chapter 5, in units of 1/16 ps. -/
theorem test_interval_stops :
    (stopOf ⟨0, true, 0, 0, false, 0, 0, false⟩ ⟨1, true, 0, -640000, false, 0, 0, false⟩).interval = -40000 ∧
    (stopOf ⟨0, true, 0, 0, false, 0, 0, false⟩ ⟨1, true, 0, -640000, false, 0, 0, false⟩).neg = true ∧
    (stopOf ⟨0, true, 0, 0, false, 0, 0, false⟩ ⟨1, true, 0, 6, false, 0, 0, false⟩).coincident = true ∧
    (stopOf ⟨0, true, 0, 0, false, 0, 0, false⟩ ⟨1, true, 0, 48000, true, 0, 0, false⟩).interval = 3000 := by
  decide +kernel

/-- R18: the second of 2017-01-01 00:00:00 UTC begins a UTC day under offset 37. -/
theorem test_leap_order : leapOrderOk [⟨1483228837, 37, 0⟩] = true := by decide +kernel

/-- R499: the bandwidth of the example of chapter 18: 30,000 Mbit/s, 30.00 % of 100 Gbit/s. -/
theorem test_occupancy : occupancy 1175000000 12500000 380000000 100000000000 = (30000, 3000) := by decide +kernel

/-! ### Single steps -/

/-- What a command that answers next leaves. -/
def fin (c : Instr) (s : State) : State := match exec c s with
  | .next t => t
  | _ => s

/-- An empty queue idles. -/
theorem test_idle : step State.reset = .next State.reset := rfl

/-- No word spells a command. -/
theorem test_no_word : decodeTableWord 32 5 = none := rfl

/-- R365, R399: a pair whose second word is not the complement is refused with GUARD_FAULT. -/
theorem test_guard_fault :
    (fin (.refForce 0 0 3 0) wOn).rd A.refForce = wOn.rd A.refForce ∧ (fin (.refForce 0 0 3 0) wOn).rd A.glbFaultSeq = 1 := by
  decide +kernel

/-- R80, R365: the pair 3 and its complement forces reference 3. -/
theorem test_force : (fin (.refForce 0 0 3 0xFFFFFFFC) wOn).rd A.refForce = 3 := by decide +kernel

/-- R367: a second write to a latched register is dropped. -/
theorem test_lock :
    (fin (.lkWrite 0 0 A.rcpLtSlot 7) { wOn with latched := [A.rcpLtSlot] }).rd A.rcpLtSlot = wOn.rd A.rcpLtSlot := by
  decide +kernel

/-- R363: an acknowledge with the right SEQ clears the named bits. -/
theorem test_acknowledge :
    (fin (.sqAcknowledge 0 0 A.refEvent 0x05000001) (wOn.wr A.refEvent 0x05000003)).rd A.refEvent = 0x05000002 := by
  decide +kernel

/-- R363: with another SEQ it clears nothing. -/
theorem test_stale_acknowledge :
    (fin (.sqAcknowledge 0 0 A.refEvent 0x04000001) (wOn.wr A.refEvent 0x05000003)).rd A.refEvent = 0x05000003 := by
  decide +kernel

/-- R354: a clearing read leaves the counter at 0. -/
theorem test_clearing_read : (fin (.crClearingRead 0 0 A.hifKicks false) (wOn.wr A.hifKicks 9)).rd A.hifKicks = 0 := by
  decide +kernel

/-- Of a unit that does not exist the model says so. -/
theorem test_no_unit : exec (.registerWrite 0 5 0 []) wOn = .fault .noSuchUnit := rfl


/-! ### Hypotheses that can be met, statement by statement -/

theorem test_register_accesses_complete :
    (∃ (s u : State) (dt src addr g : Nat) (v : Word), s.canonical = true ∧ u = (s.advance dt).dueFirst ∧
      src < 5 ∧
      groupOf addr = some g) ∧
    (∃ (s u : State) (dt src addr g : Nat) (v : Word), s.canonical = true ∧ u = (s.advance dt).dueFirst ∧
      src < 5 ∧
      groupOf addr = some g) ∧
    (∃ (s u : State) (dt src addr : Nat) (r : RegRow), s.canonical = true ∧ u = s.advance dt ∧
      src < 5 ∧
      rowOf addr = some r ∧
      r.kind = .cr ∧
      r.pair = false ∧
      u.domainOn (domainOf addr) = true) ∧
    (∃ (s u : State) (dt src addr : Nat) (r : RegRow) (v : Word), s.canonical = true ∧ u = (s.advance dt).dueFirst ∧
      u.clearSource src ∧
      rowOf addr = some r ∧
      r.kind = .sq ∧
      u.domainOn (domainOf addr) = true ∧
      fld v 24 8 = u.f addr 24 8 ∧
      (v ^^^ u.rd addr) &&& BitVec.ofNat 32 r.rv = 0) ∧
    (∃ (s u : State) (dt src addr : Nat) (r : RegRow) (v : Word), s.canonical = true ∧ u = (s.advance dt).dueFirst ∧
      u.clearSource src ∧
      rowOf addr = some r ∧
      r.kind = .lk ∧
      u.latched.contains addr = false ∧
      u.domainOn (domainOf addr) = true) :=
  ⟨⟨wOn, _, 0, 1, A.tscCalCmd, 1, 7, by decide +kernel, rfl, by decide +kernel⟩,
   ⟨wOn, _, 0, 4, A.refInCfg 13, 4, 0xFFFFFFFF, by decide +kernel, rfl, by decide +kernel⟩,
   ⟨(wOn.wr A.hifKicks 7), _, 0, 0, A.hifKicks, ((rowOf A.hifKicks).getD rowNone), by decide +kernel, rfl, by decide +kernel⟩,
   ⟨(wOn.wr A.refEvent 0x01000003), _, 0, 0, A.refEvent, ((rowOf A.refEvent).getD rowNone), 0x01000001, by decide +kernel, rfl, by decide +kernel⟩,
   ⟨wOn, _, 0, 2, A.rcpLtSlot, ((rowOf A.rcpLtSlot).getD rowNone), 5, by decide +kernel, rfl, by decide +kernel⟩⟩

theorem test_sluice_commands_complete :
    (∃ (s u : State) (dt src g : Nat) (v : Word), s.canonical = true ∧ u = (s.advance dt).dueFirst ∧
      u.clearSource src ∧
      g < 35 ∧
      2 ≤ groupBoundary g ∧
      u.domainOn 15 = true ∧
      u.commitRefusal g (putFld v 0 2 1) = none) ∧
    (∃ (s u : State) (dt src g : Nat) (c : Commit), s.canonical = true ∧ u = (s.advance dt).dueFirst ∧
      u.clearSource src ∧
      g < 35 ∧
      u.domainOn 15 = true ∧
      (u.group g).pend = some c) ∧
    (∃ (s u : State) (dt src g : Nat), s.canonical = true ∧ u = (s.advance dt).dueFirst ∧
      u.clearSource src ∧
      g < 35 ∧
      u.domainOn 15 = true) ∧
    (∃ (s u : State) (dt link dir : Nat), s.canonical = true ∧ u = s.advance dt ∧
      link < 8 ∧
      dir < 2 ∧
      (u.complex (link / 4)).flowWait.contains (2 * (link % 4) + dir) = true ∧
      (u.group 11).pend = none ∧
      (u.group 14).pend = none) ∧
    (∃ (s u : State) (dt : Nat) (c : Commit), s.canonical = true ∧ u = s.advance dt ∧
      (u.group 16).pend = some c ∧
      c.draining = true ∧
      u.genBusy = false ∧
      (u.group 16).pendParity = false ∧
      (u.group 16).stageParity = [] ∧
      checkHrcAddr u.rdPend = none ∧
      u.domainOn 12 = true) ∧
    (∃ (s u : State) (dt a g : Nat), s.canonical = true ∧ u = s.advance dt ∧
      u.scrubAt ≤ u.ts.meas ∧
      groupOf a = some g ∧
      (u.group g).stageParity.contains a = false) ∧
    (∃ (s u : State) (dt src : Nat) (p : OpenPair), s.canonical = true ∧ u = s.advance dt ∧
      src < 5 ∧
      (u.view (srcOf src)).pair = some p ∧
      p.expired u.ts.meas = true) :=
  ⟨⟨wOn, _, 0, 1, 33, 0, by decide +kernel, rfl, by decide +kernel⟩,
   ⟨(wOn.setGroup 4 (fun x => { x with pend := some ⟨none, .host, false⟩ })), _, 0, 0, 4, ⟨none, .host, false⟩, by decide +kernel, rfl, by decide +kernel⟩,
   ⟨wOn, _, 0, 3, 34, by decide +kernel, rfl, by decide +kernel⟩,
   ⟨(wOn.setComplex 1 (fun x => { x with flowWait := [7, 0] })), _, 0, 7, 1, by decide +kernel, rfl, by decide +kernel⟩,
   ⟨(wOn.setGroup 16 (fun x => { x with pend := some ⟨none, .host, true⟩ })), _, 0, ⟨none, .host, true⟩, by decide +kernel, rfl, by decide +kernel⟩,
   ⟨wOn, _, 0, A.refCtl, 4, by decide +kernel, rfl, by decide +kernel⟩,
   ⟨(wOn.setView (.session 4) (fun w => { w with pair := some ⟨A.refForce, 3, 0, 17⟩ })), _, 0, 4, ⟨A.refForce, 3, 0, 17⟩, by decide +kernel, rfl, by decide +kernel⟩⟩

theorem test_latching_reads_complete :
    (∃ (s u : State) (dt src : Nat), s.canonical = true ∧ u = s.advance dt ∧
      src < 5 ∧
      u.domainOn 7 = true) ∧
    (∃ (s u : State) (dt src ref : Nat), s.canonical = true ∧ u = s.advance dt ∧
      src < 5 ∧
      ref < 14 ∧
      u.domainOn 7 = true) ∧
    (∃ (s u : State) (dt src side : Nat), s.canonical = true ∧ u = s.advance dt ∧
      src < 5 ∧
      side < 2 ∧
      u.domainOn 5 = true) ∧
    (∃ (s u : State) (dt src lane n : Nat) (th de : Int), s.canonical = true ∧ u = s.advance dt ∧
      src < 5 ∧
      lane < 8 ∧
      u.domainOn 13 = true ∧
      (u.lane lane).meas = some (th, de, n)) ∧
    (∃ (s u : State) (dt src : Nat), s.canonical = true ∧ u = s.advance dt ∧
      src < 5 ∧
      u.domainOn 13 = true) :=
  ⟨⟨wOn, _, 0, 0, by decide +kernel, rfl, by decide +kernel⟩,
   ⟨wOn, _, 0, 0, 13, by decide +kernel, rfl, by decide +kernel⟩,
   ⟨wOn.setSide 1 (fun x => { x with theta := -7 }), _, 0, 0, 1, by decide +kernel, rfl, by decide +kernel⟩,
   ⟨wOn.setLane 7 (fun x => { x with meas := some (-5, 9, 64) }), _, 0, 4, 7, 64, -5, 9, by decide +kernel, rfl, by decide +kernel⟩,
   ⟨{ wOn with cas := { wOn.cas with result := [1, 2, 3] } }, _, 0, 0, by decide +kernel, rfl, by decide +kernel⟩⟩

theorem test_step_and_force_answers_complete :
    (∃ (s u : State) (dt src seq : Nat) (c : Word) (p : PostedStep), s.canonical = true ∧ u = (s.advance dt).dueFirst ∧
      u.takesPair src A.tscStepApprove (word (seq % 256 + 0x100)) c ∧
      u.ts.step = some p ∧
      p.awaiting = true ∧
      seq % 256 = u.f A.tscStepSeq 0 8 ∧
      u.stepVetoed = false) ∧
    (∃ (s u : State) (dt src seq : Nat) (c : Word) (p : PostedStep), s.canonical = true ∧ u = (s.advance dt).dueFirst ∧
      u.takesPair src A.tscStepApprove (word (seq % 256 + 0x200)) c ∧
      u.ts.step = some p ∧
      p.awaiting = true ∧
      seq % 256 = u.f A.tscStepSeq 0 8) ∧
    (∃ (s u : State) (dt src : Nat) (v c : Word), s.canonical = true ∧ u = (s.advance dt).dueFirst ∧
      u.takesPair src A.refForce v c) ∧
    (∃ (s u : State) (dt src i : Nat) (c : Word), s.canonical = true ∧ u = (s.advance dt).dueFirst ∧
      u.takesPair src A.refClearDistrust (word i) c ∧
      i < 13 ∧
      u.qstate i = 5) :=
  ⟨⟨{ wOn with ts := { wOn.ts with step := some ⟨5000, 2, true, none⟩ } }, _, 0, 0, 256, 0xFFFFFEFF, ⟨5000, 2, true, none⟩, by decide +kernel, rfl, by decide +kernel⟩,
   ⟨{ wOn with ts := { wOn.ts with step := some ⟨5000, 2, true, none⟩ } }, _, 0, 0, 0, 0xFFFFFDFF, ⟨5000, 2, true, none⟩, by decide +kernel, rfl, by decide +kernel⟩,
   ⟨wOn, _, 0, 0, 12, 0xFFFFFFF3, by decide +kernel, rfl, by decide +kernel⟩,
   ⟨(wOn.wr (A.refInState 12) 5), _, 0, 0, 12, 0xFFFFFFF3, by decide +kernel, rfl, by decide +kernel⟩⟩

theorem test_calendar_firings_complete :
    (∃ (s u : State) (dt i : Nat) (e : CalEntry), s.canonical = true ∧ u = (s.advance dt).inOrder (ofAction 0x01) ∧
      dueEntry u.ts.calendar u.nowNs (fun x => decide (x.action = 1)) = some (i, e)) ∧
    (∃ (s u : State) (dt i : Nat) (e : CalEntry), s.canonical = true ∧ u = (s.advance dt).inOrder (ofAction 0x16) ∧
      dueEntry u.ts.calendar u.nowNs (fun x => decide (x.action = 0x16)) = some (i, e)) ∧
    (∃ (s u : State) (dt i : Nat) (e : CalEntry), s.canonical = true ∧ u = (s.advance dt).inOrder (ofAction 0x18) ∧
      dueEntry u.ts.calendar u.nowNs (fun x => decide (x.action = 0x18)) = some (i, e)) ∧
    (∃ (s u : State) (dt i : Nat) (e : CalEntry), s.canonical = true ∧ u = (s.advance dt).inOrder (ofAction 0x15) ∧
      dueEntry u.ts.calendar u.nowNs (fun x => decide (x.action = 0x15)) = some (i, e)) ∧
    (∃ (s u : State) (dt k e : Nat), s.canonical = true ∧ u = s.advance dt ∧
      k < 4 ∧
      (u.outUnit k).pulseEnd = some e ∧
      e ≤ u.ts.meas) :=
  ⟨⟨{ wOn with ts := { wOn.ts with calendar := [(3, ownEntry 1 0 0 0 1 0)] } }, _, 0, 3, ownEntry 1 0 0 0 1 0, by decide +kernel, rfl, by decide +kernel⟩,
   ⟨{ wOn with ts := { wOn.ts with calendar := [(3, ownEntry 0x16 0 0 0 1 0)] } }, _, 0, 3, ownEntry 0x16 0 0 0 1 0, by decide +kernel, rfl, by decide +kernel⟩,
   ⟨{ wOn with ts := { wOn.ts with calendar := [(3, ownEntry 0x18 0 0 0 1 0)] } }, _, 0, 3, ownEntry 0x18 0 0 0 1 0, by decide +kernel, rfl, by decide +kernel⟩,
   ⟨{ wOn with ts := { wOn.ts with calendar := [(3, ownEntry 0x15 0 0 0 1 0)] } }, _, 0, 3, ownEntry 0x15 0 0 0 1 0, by decide +kernel, rfl, by decide +kernel⟩,
   ⟨{ wOn with pwr := { wOn.pwr with outs := modAt wOn.pwr.outs 3 (fun o => { o with pulseEnd := some 0 }) } }, _, 0, 3, 0, by decide +kernel, rfl, by decide +kernel⟩⟩

theorem test_firing_order :
    (∃ (s u : State) (dt i : Nat) (e : CalEntry), s.canonical = true ∧ u = (s.advance dt).inOrder (ofAction 0x10) ∧
      dueEntry u.ts.calendar u.nowNs (fun x => decide (x.action = 0x10)) = some (i, e)) ∧
    (∃ (s u : State) (dt k i : Nat) (e : CalEntry), s.canonical = true ∧ u = (s.advance dt).inOrder (fun e => decide (e.action = 0x11) && decide (e.target = k)) ∧
      k < 6 ∧
      dueEntry u.ts.calendar (10000 + u.nowNs) (fun x => decide (x.action = 0x11) && decide (x.target = k)) = some (i, e)) ∧
    (∃ (s u : State) (dt i : Nat) (e : CalEntry), s.canonical = true ∧ u = (s.advance dt).inOrder (ofAction 0x12) ∧
      dueEntry u.ts.calendar u.nowNs (fun x => decide (x.action = 0x12)) = some (i, e) ∧
      e.target < 128) ∧
    (∃ (s u : State) (dt i : Nat) (e : CalEntry), s.canonical = true ∧ u = (s.advance dt).inOrder (ofAction 0x12) ∧
      dueEntry u.ts.calendar u.nowNs (fun x => decide (x.action = 0x12)) = some (i, e) ∧
      128 ≤ e.target) ∧
    (∃ (s u : State) (dt i : Nat) (e : CalEntry), s.canonical = true ∧ u = (s.advance dt).inOrder (ofAction 0x13) ∧
      dueEntry u.ts.calendar u.nowNs (fun x => decide (x.action = 0x13)) = some (i, e)) ∧
    (∃ (s u : State) (dt i : Nat) (e : CalEntry), s.canonical = true ∧ u = (s.advance dt).inOrder (ofAction 0x14) ∧
      dueEntry u.ts.calendar u.nowNs (fun x => decide (x.action = 0x14)) = some (i, e)) ∧
    (∃ (s u : State) (dt i : Nat) (e : CalEntry) (m : TickMeas), s.canonical = true ∧ u = (s.advance dt).inOrder (ofAction 0x19) ∧
      dueEntry u.ts.calendar u.nowNs (fun x => decide (x.action = 0x19)) = some (i, e) ∧
      evalSecond e = none) ∧
    (∃ (s u : State) (dt i : Nat) (e : CalEntry) (m : TickMeas) (sec : Nat), s.canonical = true ∧ u = (s.advance dt).inOrder (ofAction 0x19) ∧
      dueEntry u.ts.calendar u.nowNs (fun x => decide (x.action = 0x19)) = some (i, e) ∧
      evalSecond e = some sec) ∧
    (∃ (s u : State) (dt i : Nat) (e : CalEntry) (n : Int), s.canonical = true ∧ u = (s.advance dt).inOrder (ofAction 0x1F) ∧
      dueEntry u.ts.calendar u.nowNs (fun x => decide (x.action = 0x1F)) = some (i, e) ∧
      e.target ≠ 0 ∧
      (u.fireEntry i e).ts.hostStep = some n) ∧
    (∃ (s u : State) (dt i : Nat) (e : CalEntry) (c : Commit), s.canonical = true ∧ u = (s.advance dt).inOrder (ofAction 0x10) ∧
      dueEntry u.ts.calendar u.nowNs (fun x => decide (x.action = 0x10)) = some (i, e) ∧
      (∀ g, g < 34 → (u.group g).pend = none) ∧
      (u.group 34).pend = some c ∧
      c.atNs = some e.atNs ∧
      c.draining = false ∧
      u.groupDraining 34 = false ∧
      (u.group 34).pendParity = false ∧
      (u.group 34).stageParity = [] ∧
      checkGroup (u.fireEntry i e) 34 u.rdPend = none) ∧
    (∃ (s u : State) (dt k i : Nat) (e : CalEntry), s.canonical = true ∧ u = (s.advance dt).inOrder (fun e => decide (e.action = 0x11) && decide (e.target = k)) ∧
      k < 4 ∧
      k < u.pwr.outs.length ∧
      dueEntry u.ts.calendar (10000 + u.nowNs) (fun x => decide (x.action = 0x11) && decide (x.target = k)) = some (i, e) ∧
      u.outOn k = true ∧
      (u.fireEntry i e).withheld k = false ∧
      (u.fireEntry i e).tooSoon k ((u.fireEntry i e).measAt ((((e.skipAt.getD e.atNs) : Nat) : Int) * 1000 + u.sf (A.pwrPpsOutOffset k) 0 32)) = false) ∧
    (∃ (s u : State) (dt k i : Nat) (e : CalEntry), s.canonical = true ∧ u = (s.advance dt).inOrder (fun e => decide (e.action = 0x11) && decide (e.target = k)) ∧
      k < 6 ∧
      k < u.pwr.outs.length ∧
      dueEntry u.ts.calendar (10000 + u.nowNs) (fun x => decide (x.action = 0x11) && decide (x.target = k)) = some (i, e) ∧
      u.outOn k = true ∧
      (u.fireEntry i e).withheld k = true) ∧
    (∃ (s u : State) (dt i n : Nat) (e : CalEntry) (m : Nat), s.canonical = true ∧ u = (s.advance dt).inOrder (ofAction 0x12) ∧
      dueEntry u.ts.calendar u.nowNs (fun x => decide (x.action = 0x12)) = some (i, e) ∧
      e.target = 128 + n ∧
      n < 2 ∧
      (u.slave n).chosen = some m ∧
      u.slvOn n = true ∧
      u.linkUp (u.slvLink n) = true ∧
      u.slvUnicast n = false) ∧
    (∃ (s u : State) (dt i : Nat) (e : CalEntry), s.canonical = true ∧ u = (s.advance dt).inOrder (ofAction 0x12) ∧
      dueEntry u.ts.calendar u.nowNs (fun x => decide (x.action = 0x12)) = some (i, e) ∧
      e.target < 128 ∧
      u.linkUp (e.target / 16) = false) ∧
    (∃ (s u : State) (dt i : Nat) (e : CalEntry), s.canonical = true ∧ u = (s.advance dt).inOrder (ofAction 0x13) ∧
      dueEntry u.ts.calendar u.nowNs (fun x => decide (x.action = 0x13)) = some (i, e) ∧
      (u.group 23).pend = none) ∧
    (∃ (s u : State) (dt i : Nat) (e : CalEntry), s.canonical = true ∧ u = (s.advance dt).inOrder (ofAction 0x14) ∧
      dueEntry u.ts.calendar u.nowNs (fun x => decide (x.action = 0x14)) = some (i, e) ∧
      (u.group 29).pend = none) ∧
    (∃ (s u : State) (dt i : Nat) (e : CalEntry) (m : TickMeas), s.canonical = true ∧ u = (s.advance dt).inOrder (ofAction 0x19) ∧
      dueEntry u.ts.calendar u.nowNs (fun x => decide (x.action = 0x19)) = some (i, e) ∧
      evalSecond e = none) ∧
    (∃ (s u : State) (dt i : Nat) (e : CalEntry) (m : TickMeas) (sec : Nat), s.canonical = true ∧ u = (s.advance dt).inOrder (ofAction 0x19) ∧
      dueEntry u.ts.calendar u.nowNs (fun x => decide (x.action = 0x19)) = some (i, e) ∧
      evalSecond e = some sec) ∧
    (∃ (s u : State) (dt i : Nat) (e : CalEntry) (n : Nat), s.canonical = true ∧ u = (s.advance dt).inOrder (ofAction 0x1F) ∧
      dueEntry u.ts.calendar u.nowNs (fun x => decide (x.action = 0x1F)) = some (i, e) ∧
      e.target ≠ 0 ∧
      u.ts.hostStep = some (n : Int)) :=
  ⟨⟨{ wOn with ts := { wOn.ts with calendar := [(3, ownEntry 0x10 0 0 0 1 0)] } }, _, 0, 3, ownEntry 0x10 0 0 0 1 0, by decide +kernel, rfl, by decide +kernel⟩,
   ⟨{ wOn with ts := { wOn.ts with calendar := [(3, ownEntry 0x11 5 0 0 1 0)] } }, _, 0, 5, 3, ownEntry 0x11 5 0 0 1 0, by decide +kernel, rfl, by decide +kernel⟩,
   ⟨{ wOn with ts := { wOn.ts with calendar := [(3, ownEntry 0x12 127 0 0 1 0)] } }, _, 0, 3, ownEntry 0x12 127 0 0 1 0, by decide +kernel, rfl, by decide +kernel⟩,
   ⟨{ wOn with ts := { wOn.ts with calendar := [(3, ownEntry 0x12 128 0 0 1 0)] } }, _, 0, 3, ownEntry 0x12 128 0 0 1 0, by decide +kernel, rfl, by decide +kernel⟩,
   ⟨{ wOn with ts := { wOn.ts with calendar := [(3, ownEntry 0x13 0 0 0 1 0)] } }, _, 0, 3, ownEntry 0x13 0 0 0 1 0, by decide +kernel, rfl, by decide +kernel⟩,
   ⟨{ wOn with ts := { wOn.ts with calendar := [(3, ownEntry 0x14 0 0 0 1 0)] } }, _, 0, 3, ownEntry 0x14 0 0 0 1 0, by decide +kernel, rfl, by decide +kernel⟩,
   ⟨{ wOn with ts := { wOn.ts with acc := 2 ^ 48, calendar := [(3, ownEntry 0x19 0 1 0 1 0)] } }, _, 0, 3, ownEntry 0x19 0 1 0 1 0, ⟨none, none, none, 0, none, true⟩, by decide +kernel, rfl, by decide +kernel⟩,
   ⟨{ wOn with ts := { wOn.ts with calendar := [(3, ownEntry 0x19 0 0 0 1 0)] } }, _, 0, 3, ownEntry 0x19 0 0 0 1 0, ⟨none, none, none, 0, none, true⟩, 0, by decide +kernel, rfl, by decide +kernel⟩,
   ⟨{ wOn with ts := { wOn.ts with hostStep := some 7, calendar := [(3, ownEntry 0x1F 1 0 0 1 0)] } }, _, 0, 3, ownEntry 0x1F 1 0 0 1 0, 7, by decide +kernel, rfl, by decide +kernel⟩,
   ⟨{ ((wOn.wr A.casStatus 2).setGroup 34 (fun x => { x with pend := some ⟨some 0, .host, false⟩ })) with pendRegs := CellList.set resetOf [] A.casOpTSecLo 900, ts := { wOn.ts with calendar := [(3, ownEntry 0x10 1 0 0 1 0)] } }, _, 0, 3, ownEntry 0x10 1 0 0 1 0, ⟨some 0, .host, false⟩, by decide +kernel, rfl, by decide +kernel⟩,
   ⟨{ (wOn.wr (A.pwrPpsOutCfg 2) 1) with pwr := { wOn.pwr with driven := true }, ts := { wOn.ts with calendar := [(3, ownEntry 0x11 2 0 0 1 0)] } }, _, 0, 2, 3, ownEntry 0x11 2 0 0 1 0, by decide +kernel, rfl, by decide +kernel⟩,
   ⟨{ ((((wOn.wr (A.pwrPpsOutCfg 2) 1).wr A.tscState 4).wr A.holCtl 2).wr A.holStatus 0) with pwr := { wOn.pwr with driven := true }, ts := { wOn.ts with calendar := [(3, ownEntry 0x11 2 0 0 1 0)] } }, _, 0, 2, 3, ownEntry 0x11 2 0 0 1 0, by decide +kernel, rfl, by decide +kernel⟩,
   ⟨{ wSlv 0x70001 (fun x => { x with chosen := some 0 }) with ts := { wOn.ts with calendar := [(3, ownEntry 0x12 129 0 0 1 0)] } }, _, 0, 3, 1, ownEntry 0x12 129 0 0 1 0, 0, by decide +kernel, rfl, by decide +kernel⟩,
   ⟨{ wOn with ts := { wOn.ts with calendar := [(3, ownEntry 0x12 127 0 0 1 0)] } }, _, 0, 3, ownEntry 0x12 127 0 0 1 0, by decide +kernel, rfl, by decide +kernel⟩,
   ⟨{ wOn with ts := { wOn.ts with calendar := [(3, ownEntry 0x13 0 0 0 1 0)] } }, _, 0, 3, ownEntry 0x13 0 0 0 1 0, by decide +kernel, rfl, by decide +kernel⟩,
   ⟨{ wOn with ts := { wOn.ts with calendar := [(3, ownEntry 0x14 0 0 0 1 0)] } }, _, 0, 3, ownEntry 0x14 0 0 0 1 0, by decide +kernel, rfl, by decide +kernel⟩,
   ⟨{ wOn with ts := { wOn.ts with acc := 2 ^ 48, calendar := [(3, ownEntry 0x19 0 1 0 1 0)] } }, _, 0, 3, ownEntry 0x19 0 1 0 1 0, ⟨none, none, none, 0, none, true⟩, by decide +kernel, rfl, by decide +kernel⟩,
   ⟨{ wOn with ts := { wOn.ts with calendar := [(3, ownEntry 0x19 0 0 0 1 0)] } }, _, 0, 3, ownEntry 0x19 0 0 0 1 0, ⟨none, none, none, 0, none, true⟩, 0, by decide +kernel, rfl, by decide +kernel⟩,
   ⟨{ wOn with ts := { wOn.ts with hostStep := some 7, calendar := [(3, ownEntry 0x1F 1 0 0 1 0)] } }, _, 0, 3, ownEntry 0x1F 1 0 0 1 0, 7, by decide +kernel, rfl, by decide +kernel⟩⟩

theorem test_calendar_commands_complete :
    (∃ (s u : State) (dt src : Nat) (cmd : Word), s.canonical = true ∧ u = (s.advance dt).dueFirst ∧
      u.takesCommit src 1 (u.commandWords A.tscCalCmd 0 2 1 cmd)) ∧
    (∃ (s u : State) (dt src : Nat) (cmd : Word), s.canonical = true ∧ u = (s.advance dt).dueFirst ∧
      u.takesCommit src 1 (u.commandWords A.tscCalCmd 0 2 2 cmd)) ∧
    (∃ (s u : State) (dt src : Nat) (cmd : Word), s.canonical = true ∧ u = (s.advance dt).dueFirst ∧
      u.takesCommit src 1 (u.commandWords A.tscCalCmd 0 2 3 cmd)) ∧
    (∃ (s u : State) (dt src : Nat) (cmd : Word), s.canonical = true ∧ u = (s.advance dt).dueFirst ∧
      u.takesCommit src 1 (u.commandWords A.tscCalCmd 0 2 0 cmd)) :=
  ⟨⟨(setStage wOn [(A.tscCalW 0, 9), (A.tscCalW 1, 0x10000), (A.tscCalW 6, 1)]), _, 0, 0, 0x00030000, by decide +kernel, rfl, by decide +kernel⟩,
   ⟨{ wOn with ts := { wOn.ts with calendar := [(3, { ownEntry 1 0 5000000000 0 1 0 with host := true })] } }, _, 0, 0, 0x00030000, by decide +kernel, rfl, by decide +kernel⟩,
   ⟨{ setStage wOn [(A.tscCalW 0, 9), (A.tscCalW 1, 0x10000), (A.tscCalW 6, 1)] with ts := { wOn.ts with calendar := [(3, { ownEntry 1 0 5000000000 0 1 0 with host := true })] } }, _, 0, 0, 0x00030000, by decide +kernel, rfl, by decide +kernel⟩,
   ⟨wOn, _, 0, 0, 0x00030000, by decide +kernel, rfl, by decide +kernel⟩⟩

theorem test_reference_timers_complete :
    (∃ (s u : State) (dt ref : Nat), s.canonical = true ∧ u = (s.advance dt).dueFirst ∧
      ref < 14) ∧
    (∃ (s u : State) (dt ref : Nat), s.canonical = true ∧ u = (s.advance dt).dueFirst ∧
      ref < 14) ∧
    (∃ (s u : State) (dt ref : Nat), s.canonical = true ∧ u = (s.advance dt).dueFirst ∧
      ref < 14) ∧
    (∃ (s : State) (ref : Nat), s.canonical = true ∧
      ref < 13 ∧
      s.qstate ref = 1 ∧
      s.unusable ref = false ∧
      s.checkFails ref = false ∧
      s.timerDue ref = true ∧
      s.heldCandidate ref = false ∧
      s.switchPhase ≠ 2 ∧
      (s.refIn ref).qualified = false) ∧
    (∃ (s : State) (ref : Nat), s.canonical = true ∧
      ref < 13 ∧
      s.qstate ref = 1 ∧
      s.unusable ref = false ∧
      s.checkFails ref = false ∧
      s.timerDue ref = true ∧
      s.heldCandidate ref = false ∧
      (s.switchPhase = 2 ∨ (s.refIn ref).qualified = true)) ∧
    (∃ (s : State) (ref : Nat), s.canonical = true ∧
      ref < 13 ∧
      s.qstate ref = 4 ∧
      s.unusable ref = false ∧
      s.checkFails ref = false ∧
      s.timerDue ref = true) ∧
    (∃ (s : State) (ref : Nat) (x : Int), s.canonical = true ∧
      ref < 13 ∧
      ref < s.refs.ins.length ∧
      s.qstate ref = 5 ∧
      (s.refIn ref).resid = some x ∧
      (s.refIn ref).cp = 0 ∧
      (s.refIn ref).cf = 0 ∧
      s.timerDue ref = true ∧
      s.f A.refCusumSpan 0 14 ≤ (s.refIn ref).clean + 1) ∧
    (∃ (s u : State) (dt ref : Nat), s.canonical = true ∧ u = s.advance dt ∧
      ref < 14 ∧
      ref < u.refs.ins.length ∧
      u.lossDue ref = true ∧
      (u.refIn ref).lost = false) ∧
    (∃ (s u : State) (dt : Nat), s.canonical = true ∧ u = (s.advance dt).dueFirst) ∧
    (∃ (s : State) (was : List Nat) (force : Nat), s.canonical = true ∧
      s.switchPhase = 1 ∧
      s.isQual s.target = true ∧
      s.target < 13 ∧
      (s.target = force ∨ s.overtaken was = false) ∧
      s.refs.prepEval < s.refs.evalNo) ∧
    (∃ (s u : State) (dt : Nat) (closed : Bool), s.canonical = true ∧ u = s.advance dt) ∧
    (∃ (s u : State) (dt : Nat) (text : Bytes) (framing : Bool), s.canonical = true ∧ u = s.advance dt ∧
      (framing = true ∨ todParse text = none)) ∧
    (∃ (s u : State) (dt sec q : Nat) (text : Bytes), s.canonical = true ∧ u = s.advance dt ∧
      u.todHeld = false ∧
      todParse text = some (sec, q)) :=
  ⟨⟨{ wOn.wr (A.refInState 12) 1 with refs := { wOn.refs with ins := modAt wOn.refs.ins 12 (fun r => { r with timerEnd := some 0 }) } }, _, 0, 12, by decide +kernel, rfl, by decide +kernel⟩,
   ⟨{ wOn.wr (A.refInState 12) 1 with refs := { wOn.refs with ins := modAt wOn.refs.ins 12 (fun r => { r with timerEnd := some 0 }) } }, _, 0, 12, by decide +kernel, rfl, by decide +kernel⟩,
   ⟨{ wOn.wr (A.refInState 12) 1 with refs := { wOn.refs with ins := modAt wOn.refs.ins 12 (fun r => { r with timerEnd := some 0 }) } }, _, 0, 12, by decide +kernel, rfl, by decide +kernel⟩,
   ⟨{ ((wOn.wr (A.refInState 12) 1).wr (A.refInCfg 12) 1) with refs := { wOn.refs with ins := modAt wOn.refs.ins 12 (fun r => { r with timerEnd := some 0, lost := false }) } }, 12, by decide +kernel, by decide +kernel⟩,
   ⟨{ ((wOn.wr (A.refInState 12) 1).wr (A.refInCfg 12) 1) with refs := { wOn.refs with ins := modAt wOn.refs.ins 12 (fun r => { r with timerEnd := some 0, lost := false, qualified := true }) } }, 12, by decide +kernel, by decide +kernel⟩,
   ⟨{ ((wOn.wr (A.refInState 12) 4).wr (A.refInCfg 12) 1) with refs := { wOn.refs with ins := modAt wOn.refs.ins 12 (fun r => { r with timerEnd := some 0, lost := false }) } }, 12, by decide +kernel, by decide +kernel⟩,
   ⟨(({ wOn.wr (A.refInState 12) 5 with refs := { wOn.refs with ins := modAt wOn.refs.ins 12 (fun r => { r with timerEnd := some 0, resid := some 4 }) } }).wr A.refCusumSpan 1), 12, 4, by decide +kernel, by decide +kernel⟩,
   ⟨{ wOn with ts := { wOn.ts with meas := 3000000000 * 2 ^ 48 }, refs := { wOn.refs with ins := modAt wOn.refs.ins 13 (fun r => { r with lost := false }) } }, _, 0, 13, by decide +kernel, rfl, by decide +kernel⟩,
   ⟨wOn, _, 0, by decide +kernel, rfl⟩,
   ⟨{ ((wOn.wr A.refStatus 0x10CFF).wr (A.refInState 12) 2) with refs := { wOn.refs with evalNo := 1 } }, [], 12, by decide +kernel, by decide +kernel⟩,
   ⟨wOn, _, 0, true, by decide +kernel, rfl⟩,
   ⟨wOn, _, 0, [], false, by decide +kernel, rfl, by decide +kernel⟩,
   ⟨wOn, _, 0, 5, 2, todText 5 37 2 0, by decide +kernel, rfl, by decide +kernel⟩⟩

theorem test_cartridge_commands_complete :
    (∃ (s u : State) (dt : Nat) (opened : Bool), s.canonical = true ∧ u = s.advance dt ∧
      u.cartActive = true) ∧
    (∃ (s u : State) (dt : Nat), s.canonical = true ∧ u = s.advance dt ∧
      u.cartState = 0) ∧
    (∃ (s u : State) (dt : Nat), s.canonical = true ∧ u = s.advance dt ∧
      u.cartState ≠ 0) ∧
    (∃ (s u : State) (dt code rev serial : Nat) (block : Bytes), s.canonical = true ∧ u = s.advance dt ∧
      u.cartState = 1 ∧
      (code = 0x51 ∨ code = 0x41)) ∧
    (∃ (s u : State) (dt code rev serial : Nat) (block : Bytes), s.canonical = true ∧ u = s.advance dt ∧
      u.cartState = 1 ∧
      code ≠ 0x51 ∧
      code ≠ 0x41) ∧
    (∃ (s u : State) (dt : Nat), s.canonical = true ∧ u = s.advance dt ∧
      u.cartState = 1 ∧
      u.cartTimerDue = true) ∧
    (∃ (s u : State) (dt : Nat) (lock : Bool), s.canonical = true ∧ u = s.advance dt ∧
      1 ≤ u.cartState ∧
      u.cartState ≤ 5) ∧
    (∃ (s u : State) (dt : Nat), s.canonical = true ∧ u = s.advance dt ∧
      u.cartState = 2) ∧
    (∃ (s u : State) (dt : Nat), s.canonical = true ∧ u = s.advance dt ∧
      u.cartState = 2 ∧
      u.cartTimerDue = true) ∧
    (∃ (s u : State) (dt : Nat), s.canonical = true ∧ u = s.advance dt ∧
      u.cartState = 3 ∧
      u.cartTimerDue = true) ∧
    (∃ (s u : State) (dt : Nat), s.canonical = true ∧ u = s.advance dt ∧
      1 ≤ u.cartState ∧
      u.cartState ≤ 5) ∧
    (∃ (s u : State) (dt m : Nat), s.canonical = true ∧ u = s.advance dt ∧
      u.hol.pd2OffAt = some m ∧
      m ≤ u.ts.meas) :=
  ⟨⟨wOn.wr A.holStatus 0xB, _, 0, false, by decide +kernel, rfl, by decide +kernel⟩,
   ⟨wOn, _, 0, by decide +kernel, rfl, by decide +kernel⟩,
   ⟨wOn.wr A.holStatus 0xB, _, 0, by decide +kernel, rfl, by decide +kernel⟩,
   ⟨wOn.wr A.holStatus 2, _, 0, 0x41, 1, 99, [], by decide +kernel, rfl, by decide +kernel⟩,
   ⟨wOn.wr A.holStatus 2, _, 0, 0x42, 1, 99, [], by decide +kernel, rfl, by decide +kernel⟩,
   ⟨{ wOn.wr A.holStatus 2 with hol := { wOn.hol with cartTimerEnd := some 0 } }, _, 0, by decide +kernel, rfl, by decide +kernel⟩,
   ⟨wOn.wr A.holStatus 4, _, 0, true, by decide +kernel, rfl, by decide +kernel⟩,
   ⟨wOn.wr A.holStatus 4, _, 0, by decide +kernel, rfl, by decide +kernel⟩,
   ⟨{ wOn.wr A.holStatus 4 with hol := { wOn.hol with cartTimerEnd := some 0 } }, _, 0, by decide +kernel, rfl, by decide +kernel⟩,
   ⟨{ wOn.wr A.holStatus 6 with hol := { wOn.hol with cartTimerEnd := some 0 } }, _, 0, by decide +kernel, rfl, by decide +kernel⟩,
   ⟨wOn.wr A.holStatus 0xA, _, 0, by decide +kernel, rfl, by decide +kernel⟩,
   ⟨{ wOn.wr A.holStatus 8 with hol := { wOn.hol with pd2OffAt := some 0 } }, _, 0, 0, by decide +kernel, rfl, by decide +kernel⟩⟩

theorem test_cartridge_guarded_commands_complete :
    (∃ (s u : State) (dt src : Nat) (c : Word), s.canonical = true ∧ u = (s.advance dt).dueFirst ∧
      u.takesPair src A.holCartCmd 1 c ∧
      u.cartState = 5) ∧
    (∃ (s u : State) (dt src : Nat) (c : Word), s.canonical = true ∧ u = (s.advance dt).dueFirst ∧
      u.takesPair src A.holCartCmd 1 c ∧
      u.cartState ≠ 5) ∧
    (∃ (s u : State) (dt src : Nat) (c : Word), s.canonical = true ∧ u = (s.advance dt).dueFirst ∧
      u.takesPair src A.holCartCmd 2 c) ∧
    (∃ (s u : State) (dt src : Nat) (c : Word), s.canonical = true ∧ u = (s.advance dt).dueFirst ∧
      u.takesPair src A.holCartCmd 3 c) :=
  ⟨⟨wOn.wr A.holStatus 0xB, _, 0, 0, 0xFFFFFFFE, by decide +kernel, rfl, by decide +kernel⟩,
   ⟨wOn.wr A.holStatus 8, _, 0, 4, 0xFFFFFFFE, by decide +kernel, rfl, by decide +kernel⟩,
   ⟨wOn.wr A.holStatus 12, _, 0, 1, 0xFFFFFFFD, by decide +kernel, rfl, by decide +kernel⟩,
   ⟨wOn, _, 0, 0, 0xFFFFFFFC, by decide +kernel, rfl, by decide +kernel⟩⟩

theorem test_oscillator_upkeep_completes :
    (∃ (s u : State) (dt : Nat), s.canonical = true ∧ u = s.advance dt ∧
      u.nowNs / 1000000000 % 1000 = 0 ∧
      u.bit A.holStatus 8 = false) ∧
    (∃ (s u : State) (dt : Nat), s.canonical = true ∧ u = s.advance dt) ∧
    (∃ (s u : State) (dt : Nat) (tk : Int) (tc : Option Int), s.canonical = true ∧ u = s.advance dt ∧
      u.hol.keepAlive = true ∧
      u.boot.at_ = none) ∧
    (∃ (s u : State) (dt r m : Nat) (b : StartPoint) (tk : Int) (tc : Option Int), s.canonical = true ∧ u = s.advance dt ∧
      u.hol.keepAlive = true ∧
      u.boot.at_ = some b ∧
      u.hol.cisternTime = some (r, m)) ∧
    (∃ (s u : State) (dt : Nat), s.canonical = true ∧ u = s.advance dt) :=
  ⟨⟨wOn, _, 0, by decide +kernel, rfl, by decide +kernel⟩,
   ⟨wOn.wr A.holStatus 4, _, 0, by decide +kernel, rfl⟩,
   ⟨{ wOn with hol := { wOn.hol with keepAlive := true }, boot := { wOn.boot with at_ := none } }, _, 0, -5, none, by decide +kernel, rfl, by decide +kernel⟩,
   ⟨{ wOn with hol := { wOn.hol with keepAlive := true, cisternTime := some (5, 2) }, boot := { wOn.boot with at_ := some ⟨5, 0, 0, 0, 0⟩ } }, _, 0, 5, 2, ⟨5, 0, 0, 0, 0⟩, -5, none, by decide +kernel, rfl, by decide +kernel⟩,
   ⟨wOn, _, 0, by decide +kernel, rfl⟩⟩

theorem test_gnss_events_complete :
    (∃ (s u : State) (dt side : Nat) (m : GnssSolution) (h : GnssLatch), s.canonical = true ∧ u = s.advance dt ∧
      side < 2 ∧
      side < u.gnss.sides.length ∧
      u.bit A.gnsStatus side = true ∧
      (u.side side).latch = some h ∧
      u.ts.meas ≤ h.meas + secs 1 / 2) ∧
    (∃ (s u : State) (dt side : Nat) (m : GnssSolution), s.canonical = true ∧ u = s.advance dt ∧
      side < 2 ∧
      u.bit A.gnsStatus side = true ∧
      (u.side side).latch = none) ∧
    (∃ (s u : State) (dt side : Nat) (m : GnssSolution), s.canonical = true ∧ u = s.advance dt ∧
      side < 2 ∧
      u.bit A.gnsStatus side = false) ∧
    (∃ (s u : State) (dt side check : Nat), s.canonical = true ∧ u = s.advance dt ∧
      side < 2 ∧
      (u.side side).alarms.testBit check = true ∧
      (u.side side).lastTrip.getD check 0 + secs (u.f A.gnsAlarmClear 0 17) ≤ u.ts.meas) ∧
    (∃ (s u : State) (dt side key check : Nat) (k : Bool) (e : Exclusion), s.canonical = true ∧ u = s.advance dt ∧
      side < 2 ∧
      (u.side side).excl.find? (fun x => decide (x.const = k) && decide (x.key = key) && decide (x.check = check)) = some e ∧
      e.endAt ≤ u.ts.meas ∧
      u.stillTrips side e = false) ∧
    (∃ (s u : State) (dt side key check : Nat) (k : Bool) (e : Exclusion), s.canonical = true ∧ u = s.advance dt ∧
      side < 2 ∧
      (u.side side).excl.find? (fun x => decide (x.const = k) && decide (x.key = key) && decide (x.check = check)) = some e ∧
      e.endAt ≤ u.ts.meas ∧
      u.stillTrips side e = true) ∧
    (∃ (s u : State) (dt side chan m : Nat), s.canonical = true ∧ u = s.advance dt ∧
      side < 2 ∧
      chan < 160 ∧
      (u.chanLoop side chan).lowSince = some m ∧
      2 ≤ u.chanState side chan ∧
      m + secs 2 ≤ u.ts.meas) ∧
    (∃ (s u : State) (dt side chan cn0 st : Nat), s.canonical = true ∧ u = s.advance dt ∧
      side < 2 ∧
      chan < 160 ∧
      u.bit A.gnsStatus side = true ∧
      u.chanSignal side chan ≠ 0 ∧
      u.chanFenced side chan = false ∧
      2 ≤ st ∧
      st ≤ 4 ∧
      (2 ≤ u.chanState side chan ∨ (if (u.side side).almanac.isSome then 280 else 320) ≤ cn0 ∨ (u.chanLoop side chan).lostAt.any (fun m => decide (u.ts.meas ≤ m + secs 10)) = true)) ∧
    (∃ (s u : State) (dt side : Nat) (m : NavMessage) (g : Signal) (f : Nat × Nat), s.canonical = true ∧ u = s.advance dt ∧
      side < 2 ∧
      side < u.gnss.sides.length ∧
      m.chan < 160 ∧
      signalOf (u.chanSignal side m.chan) = some g ∧
      messageForm m.kind = some f ∧
      g.kinds.contains m.kind = true ∧
      (m.result = 0 ∨ m.result = 2) ∧
      m.ephemeris = true) ∧
    (∃ (s u : State) (dt side : Nat) (m : NavMessage) (g : Signal) (f : Nat × Nat), s.canonical = true ∧ u = s.advance dt ∧
      side < 2 ∧
      side < u.gnss.sides.length ∧
      m.chan < 160 ∧
      signalOf (u.chanSignal side m.chan) = some g ∧
      messageForm m.kind = some f ∧
      g.kinds.contains m.kind = true ∧
      m.result = 1) ∧
    (∃ (s u : State) (dt side : Nat), s.canonical = true ∧ u = s.advance dt ∧
      side < 2 ∧
      u.gnss.hotStartAt ≤ u.ts.meas ∧
      3 ≤ u.f (A.gnsSideStatus side) 0 3) ∧
    (∃ (s u : State) (dt side band : Nat) (o : RfiObs), s.canonical = true ∧ u = s.advance dt ∧
      side < 2 ∧
      band < 2) ∧
    (∃ (s u : State) (dt side ma : Nat), s.canonical = true ∧ u = s.advance dt ∧
      side < 2 ∧
      side < u.gnss.sides.length ∧
      (u.f (A.gnsSideBias side) 0 2 = 1 ∨ u.f (A.gnsSideBias side) 0 2 = 2) ∧
      90 < ma) ∧
    (∃ (s u : State) (dt side ma m : Nat), s.canonical = true ∧ u = s.advance dt ∧
      side < 2 ∧
      side < u.gnss.sides.length ∧
      (u.side side).biasRetry = some m ∧
      m ≤ u.ts.meas ∧
      u.sideEnabled side = true ∧
      u.bit (A.gnsSideAntCfg side) 1 = true ∧
      ma ≤ 90) ∧
    (∃ (s u : State) (dt : Nat), s.canonical = true ∧ u = s.advance dt ∧
      u.hol.keepAlive = true ∧
      u.f A.holKaGnss 0 11 ≠ 0 ∧
      u.hol.kaNext ≤ u.ts.meas ∧
      u.gnss.wake = none ∧
      u.sideEnabled u.wakeSide = true) ∧
    (∃ (s u : State) (dt a e : Nat) (sky : List SkyObs), s.canonical = true ∧ u = s.advance dt ∧
      a < 2 ∧
      u.gnss.wake = some (a, e) ∧
      (u.skyCurrent a sky = true ∨ e ≤ u.ts.meas)) ∧
    (∃ (s u : State) (dt side : Nat) (ok : Bool), s.canonical = true ∧ u = s.advance dt ∧
      side < 2 ∧
      side < u.gnss.sides.length) :=
  ⟨⟨(wOn.wr A.gnsStatus 3).setSide 1 (fun x => { x with latch := some ⟨5, 0, 9⟩ }), _, 0, 1, ⟨[], [], (0, 0, 0), []⟩, ⟨5, 0, 9⟩, by decide +kernel, rfl, by decide +kernel⟩,
   ⟨wOn.wr A.gnsStatus 3, _, 0, 1, ⟨[], [], (0, 0, 0), []⟩, by decide +kernel, rfl, by decide +kernel⟩,
   ⟨wOn, _, 0, 1, ⟨[], [], (0, 0, 0), []⟩, by decide +kernel, rfl, by decide +kernel⟩,
   ⟨((wOn.setSide 0 (fun x => { x with alarms := 6 })).wr A.gnsAlarmClear 0), _, 0, 0, 2, by decide +kernel, rfl, by decide +kernel⟩,
   ⟨wOn.setSide 1 (fun x => { x with excl := [⟨true, 2, 3, 0⟩] }), _, 0, 1, 2, 3, true, ⟨true, 2, 3, 0⟩, by decide +kernel, rfl, by decide +kernel⟩,
   ⟨wOn.setSide 1 (fun x => { x with excl := [⟨false, 2, 3, 0⟩], svPersist := [(1, 2, 30)] }), _, 0, 1, 2, 3, false, ⟨false, 2, 3, 0⟩, by decide +kernel, rfl, by decide +kernel⟩,
   ⟨{ ((wOn.setSide 1 (fun x => { x with loops := [(159, ⟨0, 0, 0, some 0, none⟩)] }))).wr (chanWord 1 159) 0x20000 with ts := { wOn.ts with meas := secs 2 } }, _, 0, 1, 159, 0, by decide +kernel, rfl, by decide +kernel⟩,
   ⟨(wOn.wr A.gnsStatus 3).wr (chanWord 1 159) 1, _, 0, 1, 159, 320, 2, by decide +kernel, rfl, by decide +kernel⟩,
   ⟨wOn.wr (chanWord 0 0) 0x501, _, 0, 0, ⟨0, 1, 0, 0, 0, 450, [], true, false, none, none, none⟩, ⟨0x01, 0, false, 1575420000, false, [0x01]⟩, (300, 1), by decide +kernel, rfl, by decide +kernel⟩,
   ⟨wOn.wr (chanWord 0 0) 0x501, _, 0, 0, ⟨0, 1, 1, 0, 0, 450, [], true, false, none, none, none⟩, ⟨0x01, 0, false, 1575420000, false, [0x01]⟩, (300, 1), by decide +kernel, rfl, by decide +kernel⟩,
   ⟨{ wOn.wr (A.gnsSideStatus 1) 4 with gnss := { wOn.gnss with hotStartAt := 0 } }, _, 0, 1, by decide +kernel, rfl, by decide +kernel⟩,
   ⟨wOn, _, 0, 1, 1, ⟨[(3, 40)], 20, 100, 5, 30⟩, by decide +kernel, rfl, by decide +kernel⟩,
   ⟨wOn.wr (A.gnsSideBias 1) 1, _, 0, 1, 91, by decide +kernel, rfl, by decide +kernel⟩,
   ⟨(wOn.setSide 0 (fun x => { x with biasRetry := some 0 })).wr (A.gnsSideAntCfg 0) 3, _, 0, 0, 90, 0, by decide +kernel, rfl, by decide +kernel⟩,
   ⟨{ (wOn.wr A.holKaGnss 60).wr (A.gnsSideAntCfg 0) 1 with hol := { wOn.hol with keepAlive := true, kaNext := 0 } }, _, 0, by decide +kernel, rfl, by decide +kernel⟩,
   ⟨{ wOn with gnss := { wOn.gnss with wake := some (1, 0) } }, _, 0, 1, 0, [], by decide +kernel, rfl, by decide +kernel⟩,
   ⟨wOn, _, 0, 1, false, by decide +kernel, rfl, by decide +kernel⟩⟩

theorem test_survey_and_snapshot_events_complete :
    (∃ (s u : State) (dt side : Nat) (v : Survey), s.canonical = true ∧ u = s.advance dt ∧
      side < 2 ∧
      side < u.gnss.sides.length ∧
      (u.side side).survey = some v ∧
      v.reportAt ≤ u.ts.meas) ∧
    (∃ (s u : State) (dt side n : Nat) (v : Survey) (p : Int × Int × Int) (sg : Nat), s.canonical = true ∧ u = s.advance dt ∧
      side < 2 ∧
      side < u.gnss.sides.length ∧
      (u.side side).survey = some v ∧
      v.done = some (n, p, sg) ∧
      n ≤ u.nowNs) ∧
    (∃ (s u : State) (dt side : Nat) (v : Survey), s.canonical = true ∧ u = s.advance dt ∧
      side < 2 ∧
      side < u.gnss.sides.length ∧
      (u.side side).survey = some v ∧
      u.f A.gnsSurveyMax 0 21 ≤ u.surveyElapsed v ∧
      v.done = none) ∧
    (∃ (s u : State) (dt : Nat), s.canonical = true ∧ u = s.advance dt ∧
      u.snapState = 1 ∧
      fld u.gnss.snapCfg 4 2 = 0 ∧
      u.gnss.snapAt ≤ u.nowNs) ∧
    (∃ (s u : State) (dt k i m : Nat), s.canonical = true ∧ u = s.advance dt ∧
      u.snapState = 1 ∧
      fld u.gnss.snapCfg 4 2 ≠ 0 ∧
      u.gnss.snapEvent = some (k, i, m)) ∧
    (∃ (s u : State) (dt e : Nat), s.canonical = true ∧ u = s.advance dt ∧
      u.snapState = 2 ∧
      u.gnss.snapEnd = some e ∧
      e ≤ u.ts.meas) ∧
    (∃ (s u : State) (dt side : Nat) (p : Replay), s.canonical = true ∧ u = s.advance dt ∧
      side < 2 ∧
      u.sideReplaying side = true ∧
      u.gnss.replay = some p ∧
      p.endAt ≤ u.ts.meas) :=
  ⟨⟨wOn.setSide 1 (fun x => { x with survey := some ⟨0, 1, 0, 0, 0, 0, 64, 0, 1, false, 0, none⟩ }), _, 0, 1, ⟨0, 1, 0, 0, 0, 0, 64, 0, 1, false, 0, none⟩, by decide +kernel, rfl, by decide +kernel⟩,
   ⟨{ (wOn.setSide 0 (fun x => { x with survey := some ⟨0, 1, 0, 0, 0, 0, 0, 0, 1, false, 0, some (0, (1, 2, 3), 40)⟩ })).wr A.gnsSurveyTime 300 with ts := { wOn.ts with meas := secs 400 } }, _, 0, 0, 0, ⟨0, 1, 0, 0, 0, 0, 0, 0, 1, false, 0, some (0, (1, 2, 3), 40)⟩, (1, 2, 3), 40, by decide +kernel, rfl, by decide +kernel⟩,
   ⟨(wOn.setSide 0 (fun x => { x with survey := some ⟨0, 1, 0, 0, 0, 0, 0, 0, 1, false, 0, none⟩ })).wr A.gnsSurveyMax 0, _, 0, 0, ⟨0, 1, 0, 0, 0, 0, 0, 0, 1, false, 0, none⟩, by decide +kernel, rfl, by decide +kernel⟩,
   ⟨wOn.setSnap 1, _, 0, by decide +kernel, rfl, by decide +kernel⟩,
   ⟨{ wOn.setSnap 1 with gnss := { wOn.gnss with snapCfg := 0x20110, snapEvent := some (1, 5, 9), snapPre := 100 } }, _, 0, 1, 5, 9, by decide +kernel, rfl, by decide +kernel⟩,
   ⟨{ wOn.setSnap 2 with gnss := { wOn.gnss with snapEnd := some 0 } }, _, 0, 0, by decide +kernel, rfl, by decide +kernel⟩,
   ⟨{ wOn.wr (A.gnsSideStatus 1) 0x400 with gnss := { wOn.gnss with replay := some ⟨0, 0, 0⟩ } }, _, 0, 1, ⟨0, 0, 0⟩, by decide +kernel, rfl, by decide +kernel⟩⟩

theorem test_gnss_commands_complete :
    (∃ (s u : State) (dt src : Nat) (cmd : Word), s.canonical = true ∧ u = (s.advance dt).dueFirst ∧
      u.takesCommit src 7 (u.commandWords A.gnsCmd 0 4 1 cmd) ∧
      u.gnss.sides.length = 2) ∧
    (∃ (s u : State) (dt src : Nat) (cmd : Word), s.canonical = true ∧ u = (s.advance dt).dueFirst ∧
      u.takesCommit src 7 (u.commandWords A.gnsCmd 0 4 2 cmd)) ∧
    (∃ (s u : State) (dt src : Nat) (cmd : Word), s.canonical = true ∧ u = (s.advance dt).dueFirst ∧
      u.takesCommit src 7 (u.commandWords A.gnsCmd 0 4 3 cmd)) ∧
    (∃ (s u : State) (dt src : Nat) (cmd : Word), s.canonical = true ∧ u = (s.advance dt).dueFirst ∧
      u.takesCommit src 7 (u.commandWords A.gnsCmd 0 4 4 cmd)) ∧
    (∃ (s u : State) (dt src : Nat) (cmd : Word), s.canonical = true ∧ u = (s.advance dt).dueFirst ∧
      u.takesCommit src 7 (u.commandWords A.gnsCmd 0 4 5 cmd)) ∧
    (∃ (s u : State) (dt src : Nat) (cmd : Word), s.canonical = true ∧ u = (s.advance dt).dueFirst ∧
      u.takesCommit src 7 (u.commandWords A.gnsCmd 0 4 6 cmd) ∧
      (u.snapState = 1 ∨ u.snapState = 2)) ∧
    (∃ (s u : State) (dt src : Nat) (cmd : Word), s.canonical = true ∧ u = (s.advance dt).dueFirst ∧
      u.takesCommit src 7 (u.commandWords A.gnsCmd 0 4 7 cmd)) ∧
    (∃ (s u : State) (dt src : Nat) (cmd : Word), s.canonical = true ∧ u = (s.advance dt).dueFirst ∧
      u.takesCommit src 7 (u.commandWords A.gnsCmd 0 4 8 cmd)) ∧
    (∃ (s u : State) (dt src : Nat) (cmd : Word), s.canonical = true ∧ u = (s.advance dt).dueFirst ∧
      u.takesCommit src 7 (u.commandWords A.gnsCmd 0 4 9 cmd)) :=
  ⟨⟨wOn, _, 0, 0, 0x10, by decide +kernel, rfl, by decide +kernel⟩,
   ⟨wOn.setSide 1 (fun x => { x with survey := some ⟨0, 1, 0, 0, 0, 0, 0, 0, 1, false, 0, none⟩ }), _, 0, 0, 0x10, by decide +kernel, rfl, by decide +kernel⟩,
   ⟨(setStage wOn [(A.gnsFixX, 637000000), (A.gnsFixY, 0), (A.gnsFixZ, 0)]), _, 0, 0, 0x10, by decide +kernel, rfl, by decide +kernel⟩,
   ⟨wOn.wr (A.gnsSideStatus 1) 0x30, _, 0, 0, 0x10, by decide +kernel, rfl, by decide +kernel⟩,
   ⟨(setStage wOn [(A.gnsSnapCfg, 0x11F)]), _, 0, 0, 0x10, by decide +kernel, rfl, by decide +kernel⟩,
   ⟨wOn.setSnap 2, _, 0, 0, 0x10, by decide +kernel, rfl, by decide +kernel⟩,
   ⟨(wOn.wr A.gnsSnapStatus 0xF8).wr A.refStatus 0xCFF, _, 0, 0, 0x10, by decide +kernel, rfl, by decide +kernel⟩,
   ⟨wOn.wr (A.gnsSideStatus 1) 0x400, _, 0, 0, 0x10, by decide +kernel, rfl, by decide +kernel⟩,
   ⟨wOn.setSide 0 (fun x => { x with excl := [⟨true, 2, 3, 7⟩] }), _, 0, 0, 0x10, by decide +kernel, rfl, by decide +kernel⟩⟩

theorem test_time_tag_events_complete :
    (∃ (s u : State) (dt chan sub cyc : Nat) (rising : Bool), s.canonical = true ∧ u = s.advance dt ∧
      chan < 16 ∧
      chan < u.ttu.chans.length ∧
      u.selects chan rising = true ∧
      (u.chan chan).presc = 0 ∧
      (u.chan chan).last = none ∧
      (u.chan chan).burst = none) ∧
    (∃ (s u : State) (dt chan sub cyc : Nat) (rising : Bool) (l : Int), s.canonical = true ∧ u = s.advance dt ∧
      chan < 16 ∧
      u.selects chan rising = true ∧
      (u.chan chan).presc = 0 ∧
      (u.chan chan).last = some l ∧
      (u.chan chan).burst = none ∧
      scale16 u.ts.meas sub - u.tagDelay chan < 32000 + l) ∧
    (∃ (s u : State) (dt : Nat) (d : Bytes) (b : Desc) (l : List Desc), s.canonical = true ∧ u = s.advance dt ∧
      u.ttuFrozen = false ∧
      u.ttu.tags = [d] ∧
      u.recordRing (u.f A.ttuTagCfg 8 8) 1 = true ∧
      (u.ring (u.f A.ttuTagCfg 8 8)).waiting = b :: l ∧
      (u.ring (u.f A.ttuTagCfg 8 8)).fill = 0 ∧
      d.length ≤ b.len ∧
      d.length = 16 ∧
      (u.chan (leAt d 12 1 % 16)).overwritten = false) ∧
    (∃ (s u : State) (dt : Nat) (d : Bytes), s.canonical = true ∧ u = s.advance dt ∧
      u.ttuFrozen = false ∧
      u.ttu.tags = [d] ∧
      u.recordRing (u.f A.ttuTagCfg 8 8) 1 = false) ∧
    (∃ (s u : State) (dt : Nat) (d : Bytes) (b : Desc) (l : List Desc), s.canonical = true ∧ u = s.advance dt ∧
      u.ttuFrozen = false ∧
      u.ttu.measures = [d] ∧
      u.recordRing (u.f A.ttuMeasCfg 8 8) 2 = true ∧
      (u.ring (u.f A.ttuMeasCfg 8 8)).waiting = b :: l ∧
      (u.ring (u.f A.ttuMeasCfg 8 8)).fill = 0 ∧
      d.length ≤ b.len) ∧
    (∃ (s u : State) (dt : Nat) (d : Bytes), s.canonical = true ∧ u = s.advance dt ∧
      u.ttuFrozen = false ∧
      u.ttu.measures = [d] ∧
      u.recordRing (u.f A.ttuMeasCfg 8 8) 2 = false) ∧
    (∃ (s u : State) (dt p : Nat), s.canonical = true ∧ u = s.advance dt ∧
      p < 8 ∧
      u.mpMode p = 1) ∧
    (∃ (s u : State) (dt p : Nat), s.canonical = true ∧ u = s.advance dt ∧
      p < 8 ∧
      p < u.ttu.progs.length ∧
      u.gateDue p = true) ∧
    (∃ (s u : State) (dt c k : Nat) (v : Int), s.canonical = true ∧ u = s.advance dt ∧
      c < 14 ∧
      c < u.ttu.chans.length ∧
      u.bit A.ttuCalCfg 0 = true ∧
      u.ttuFrozen = false ∧
      u.domainOn 6 = true ∧
      u.burstGrid = some k ∧
      u.ttu.calGrid ≠ k ∧
      u.calibrated c = true) ∧
    (∃ (s u : State) (dt : Nat) (l : List (Nat × Int)), s.canonical = true ∧ u = s.advance dt ∧
      u.burstGrid = none) :=
  ⟨⟨wOn.wr (A.ttuChCfg 15) 0x10000, _, 0, 15, 3, 0, false, by decide +kernel, rfl, by decide +kernel⟩,
   ⟨(wOn.wr (A.ttuChCfg 0) 0).setChan 0 (fun x => { x with last := some (scale16 0 0 - (wOn.wr (A.ttuChCfg 0) 0).tagDelay 0) }), _, 0, 0, 0, 0, true, scale16 0 0 - (wOn.wr (A.ttuChCfg 0) 0).tagDelay 0, by decide +kernel, rfl, by decide +kernel, by decide +kernel, by decide +kernel, rfl, by decide +kernel, gap_lt _ _⟩,
   ⟨{ (((wOn.wr A.ttuTagCfg 0x501).wr (A.hifRingCfg 5) 0x10003).wr (A.hifRingState 5) 1).setRing 5 (fun r => { r with waiting := [⟨0, 4096, 2048, 0, [], 0, 0, false⟩] }) with ttu := { wOn.ttu with tags := [zeros 16] } }, _, 0, zeros 16, ⟨0, 4096, 2048, 0, [], 0, 0, false⟩, [], by decide +kernel, rfl, by decide +kernel⟩,
   ⟨{ wOn.wr A.ttuTagCfg 1 with ttu := { wOn.ttu with tags := [zeros 16] } }, _, 0, zeros 16, by decide +kernel, rfl, by decide +kernel⟩,
   ⟨{ (((wOn.wr A.ttuMeasCfg 0x501).wr (A.hifRingCfg 5) 0x20003).wr (A.hifRingState 5) 1).setRing 5 (fun r => { r with waiting := [⟨0, 4096, 2048, 0, [], 0, 0, false⟩] }) with ttu := { wOn.ttu with measures := [zeros 48] } }, _, 0, zeros 48, ⟨0, 4096, 2048, 0, [], 0, 0, false⟩, [], by decide +kernel, rfl, by decide +kernel⟩,
   ⟨{ wOn.wr A.ttuMeasCfg 1 with ttu := { wOn.ttu with measures := [zeros 48] } }, _, 0, zeros 48, by decide +kernel, rfl, by decide +kernel⟩,
   ⟨(wOn.wr (A.ttuMpCtl 7) 1).setProg 7 (fun x => { x with open_ := [⟨⟨0, true, -9000000, 0, false, 1, 1, false⟩, [], false, false, false⟩] }), _, 0, 7, by decide +kernel, rfl, by decide +kernel⟩,
   ⟨{ (wOn.wr (A.ttuMpCtl 0) 2).wr (A.ttuMpPeriod 0) 1 with ts := { wOn.ts with acc := 10 ^ 9 * 2 ^ 48 } }, _, 0, 0, by decide +kernel, rfl, by decide +kernel⟩,
   ⟨{ ((wOn.wr A.ttuCalCfg 3).wr A.ttuCalMask 0x3FFF).wr (A.ttuChCfg 13) 0 with ts := { wOn.ts with acc := 500000000 * 2 ^ 48 } }, _, 0, 13, 1, -51, by decide +kernel, rfl, by decide +kernel⟩,
   ⟨wOn, _, 0, [(0, 99)], by decide +kernel, rfl, by decide +kernel⟩⟩

theorem test_frame_reception_completes :
    (∃ (s u : State) (dt link : Nat) (x : RxPhys), s.canonical = true ∧ u = s.advance dt ∧
      link < 8 ∧
      u.linkUp link = false) ∧
    (∃ (s u : State) (dt link ago : Nat) (d : Bytes) (g : Bool), s.canonical = true ∧ u = s.advance dt ∧
      link < 8 ∧
      link < u.ports.links.length ∧
      u.linkUp link = true ∧
      (u.lnk link).rxExpress = none ∧
      u.cellsHeld link + cellsFor (min (d.length + 4) (u.maxFrame link 0 + 1)) ≤ cellsOf (u.macMode (link / 4)) ∧
      d.length + 4 < 64 ∧
      d.length + 4 ≤ u.maxFrame link 0) ∧
    (∃ (s u : State) (dt link ago : Nat) (d : Bytes) (g : Bool), s.canonical = true ∧ u = s.advance dt ∧
      link < 8 ∧
      link < u.ports.links.length ∧
      u.linkUp link = true ∧
      (u.lnk link).rxExpress = none ∧
      u.cellsHeld link + cellsFor (min (d.length + 4) (u.maxFrame link 0 + 1)) ≤ cellsOf (u.macMode (link / 4)) ∧
      u.maxFrame link 0 < d.length + 4) ∧
    (∃ (s u : State) (dt link ago : Nat) (d : Bytes) (g : Bool), s.canonical = true ∧ u = s.advance dt ∧
      link < 8 ∧
      link < u.ports.links.length ∧
      u.linkUp link = true ∧
      (u.lnk link).rxExpress = none ∧
      cellsOf (u.macMode (link / 4)) < u.cellsHeld link + cellsFor (min (d.length + 4) (u.maxFrame link 0 + 1))) ∧
    (∃ (s u : State) (dt link ago : Nat) (d : Bytes), s.canonical = true ∧ u = s.advance dt ∧
      link < 8 ∧
      link < u.ports.links.length ∧
      u.linkUp link = true ∧
      (u.lnk link).rxExpress = none ∧
      u.cellsHeld link + cellsFor (min (d.length + 4) (u.maxFrame link 0 + 1)) ≤ cellsOf (u.macMode (link / 4)) ∧
      60 ≤ d.length ∧
      d.length + 4 ≤ u.maxFrame link 0) ∧
    (∃ (s u : State) (dt link ago : Nat) (d : Bytes), s.canonical = true ∧ u = s.advance dt ∧
      link < 8 ∧
      link < u.ports.links.length ∧
      u.linkUp link = true ∧
      (u.lnk link).rxExpress = none ∧
      u.cellsHeld link + cellsFor (min (d.length + 4) (u.maxFrame link 0 + 1)) ≤ cellsOf (u.macMode (link / 4)) ∧
      60 ≤ d.length ∧
      d.length + 4 ≤ u.maxFrame link 0 ∧
      (packetOf d).etype = 0x8808 ∧
      beAt (packetOf d).body 0 2 ≠ 1) ∧
    (∃ (s u : State) (dt link ago k : Nat) (d : Bytes), s.canonical = true ∧ u = s.advance dt ∧
      link < 8 ∧
      link < u.ports.links.length ∧
      u.linkUp link = true ∧
      (u.lnk link).rxExpress = none ∧
      u.cellsHeld link + cellsFor (min (d.length + 4) (u.maxFrame link 0 + 1)) ≤ cellsOf (u.macMode (link / 4)) ∧
      60 ≤ d.length ∧
      d.length + 4 ≤ u.maxFrame link 0 ∧
      (packetOf d).etype = 0x0806 ∧
      (packetOf d).ipSumOk = true ∧
      (packetOf d).udpSumOk = true ∧
      beAt (packetOf d).body 6 2 = 1 ∧
      u.atFaulty link (mapped (slice (packetOf d).body 24 4)) (packetOf d).tags = false ∧
      u.matchAddr link (mapped (slice (packetOf d).body 24 4)) (packetOf d).tags = some k ∧
      bitOf (u.hrcWord A.hrcCfg) 0 = true) ∧
    (∃ (s u : State) (dt link ago fc fu : Nat) (e : RxEnd) (d : Bytes) (p : Bool), s.canonical = true ∧ u = s.advance dt ∧
      link < 8 ∧
      u.linkUp link = true) ∧
    (∃ (s u : State) (dt link ago f : Nat) (d : Bytes), s.canonical = true ∧ u = s.advance dt ∧
      link < 8 ∧
      link < u.ports.links.length ∧
      u.linkUp link = true ∧
      (u.lnk link).rxPre = none ∧
      u.cellsHeld link + cellsFor (min d.length (u.maxFrame link 0 + 1)) ≤ cellsOf (u.macMode (link / 4)) ∧
      d.length ≤ u.maxFrame link 0) ∧
    (∃ (s u : State) (dt link ago f n : Nat) (d : Bytes) (e : RxEnd) (x : RxOpen) (p : Bool), s.canonical = true ∧ u = s.advance dt ∧
      link < 8 ∧
      u.linkUp link = true ∧
      (u.lnk link).rxPre = some x ∧
      x.dead = false ∧
      x.phy = false ∧
      64 ≤ x.data.length ∧
      (x.frame ≠ f % 4 ∨ x.frags = 0 ∨ (x.frags - 1) % 4 ≠ n % 4)) :=
  ⟨⟨wOn, _, 0, 7, ⟨.unknown, .goesOn, [], 0, true, 1, 1⟩, by decide +kernel, rfl, by decide +kernel⟩,
   ⟨wOn.wr (A.macLinkStatus 7) 1, _, 0, 7, 0, zeros 59, true, by decide +kernel, rfl, by decide +kernel⟩,
   ⟨wOn.wr (A.macLinkStatus 7) 1, _, 0, 7, 0, zeros 9700, true, by decide +kernel, rfl, by decide +kernel⟩,
   ⟨{ (wOn.wr (A.macLinkStatus 7) 1).wr (A.macStatus 1) 2 with ports := { wOn.ports with claims := List.replicate 4096 ⟨.esmc, ⟨7, 0, zeros 60⟩⟩ } }, _, 0, 7, 0, zeros 60, true, by decide +kernel, rfl, by decide +kernel⟩,
   ⟨wOn.wr (A.macLinkStatus 0) 1, _, 0, 0, 0, zeros 60, by decide +kernel, rfl, by decide +kernel⟩,
   ⟨wOn.wr (A.macLinkStatus 0) 1, _, 0, 0, 0, (zeros 12 ++ [0x88, 0x08, 0, 2] ++ zeros 44), by decide +kernel, rfl, by decide +kernel⟩,
   ⟨((((((wOn.wr (A.macLinkStatus 0) 1).wr (A.hrcAddrIp 3 2) 0xFFFF).wr (A.hrcAddrIp 3 3) 0x0A000001).wr (A.hrcAddrSvc 3) 0x101)).wr A.hrcCfg 3), _, 0, 0, 0, 3, (zeros 12 ++ [0x08, 0x06, 0, 1, 8, 0, 6, 4, 0, 1] ++ zeros 6 ++ zeros 4 ++ zeros 6 ++ [10, 0, 0, 1] ++ zeros 18), by decide +kernel, rfl, by decide +kernel⟩,
   ⟨wOn.wr (A.macLinkStatus 7) 1, _, 0, 7, 0, 0, 0, .goesOn, zeros 60, false, by decide +kernel, rfl, by decide +kernel⟩,
   ⟨wOn.wr (A.macLinkStatus 7) 1, _, 0, 7, 0, 3, zeros 60, by decide +kernel, rfl, by decide +kernel⟩,
   ⟨(wOn.wr (A.macLinkStatus 7) 1).setLink 7 (fun l => { l with rxPre := some ⟨1, 2, 0, zeros 64, false, false⟩ }), _, 0, 7, 0, 1, 0, zeros 60, .frame true, ⟨1, 2, 0, zeros 64, false, false⟩, false, by decide +kernel, rfl, by decide +kernel⟩⟩

theorem test_link_events_complete :
    (∃ (s u : State) (dt link occ : Nat), s.canonical = true ∧ u = s.advance dt ∧
      link < 8 ∧
      u.bit (A.macLinkStatus link) 5 = true ∧
      u.cellsHeld link = occ ∧
      occ ≤ fld (u.flowWord link 0 (A.macLinkWeirLow link)) 0 14) ∧
    (∃ (s u : State) (dt link : Nat), s.canonical = true ∧ u = s.advance dt ∧
      link < 8 ∧
      u.bit (A.macLinkStatus link) 5 = true ∧
      bitOf (u.flowWord link 1 (A.macLinkPauseCfg link)) 0 = true ∧
      u.linkUp link = true ∧
      (u.lnk link).refreshAt ≤ u.ts.meas ∧
      (u.expressSlot link 60).1.isSome = true) ∧
    (∃ (s u : State) (dt link a q : Nat) (l : List (Nat × Nat)), s.canonical = true ∧ u = s.advance dt ∧
      link < 8 ∧
      (u.lnk link).pauseAt = (a, q) :: l ∧
      a ≤ u.nowPs ∧
      (u.lnk link).ignoreUntil ≤ u.nowNs ∧
      q ≠ 0) ∧
    (∃ (s u : State) (dt link a : Nat) (l : List (Nat × Nat)), s.canonical = true ∧ u = s.advance dt ∧
      link < 8 ∧
      (u.lnk link).pauseAt = (a, 0) :: l ∧
      a ≤ u.nowPs ∧
      (u.lnk link).ignoreUntil ≤ u.nowNs) ∧
    (∃ (s u : State) (dt link e : Nat), s.canonical = true ∧ u = s.advance dt ∧
      link < 8 ∧
      (u.lnk link).hold = some e ∧
      e ≤ u.nowPs) ∧
    (∃ (s u : State) (dt link e : Nat), s.canonical = true ∧ u = s.advance dt ∧
      link < 8 ∧
      (u.lnk link).hold = some e ∧
      fld (u.flowWord link 0 (A.macPauseLimit (link / 4))) 0 10 * 1000000000 ≤ ((u.settleHeld link).lnk link).heldPs) ∧
    (∃ (s u : State) (dt link rx tx : Nat), s.canonical = true ∧ u = s.advance dt ∧
      link < 8 ∧
      (u.lnk link).squelched = false ∧
      u.linkAllowed link = true ∧
      u.linkUp link = false) ∧
    (∃ (s u : State) (dt l rx tx : Nat), s.canonical = true ∧ u = s.advance dt ∧
      l < 8 ∧
      u.laneAllowed l = true ∧
      u.laneUp l = false) ∧
    (∃ (s u : State) (dt link : Nat) (lost : LineLock), s.canonical = true ∧ u = s.advance dt ∧
      link < 8 ∧
      u.needsLock link lost = true ∧
      u.linkUp link = true) ∧
    (∃ (s u : State) (dt : Nat) (lost : LineLock) (link : Nat), s.canonical = true ∧ u = s.advance dt ∧
      link < 16 ∧
      u.needsLock link lost = false) ∧
    (∃ (s u : State) (dt l : Nat) (lost : LineLock), s.canonical = true ∧ u = s.advance dt ∧
      l < 8 ∧
      lost ≠ .marker ∧
      u.laneUp l = true) ∧
    (∃ (s u : State) (dt c p : Nat), s.canonical = true ∧ u = s.advance dt ∧
      c < 2 ∧
      1 ≤ p ∧
      p ≤ 4) ∧
    (∃ (s u : State) (dt c i p : Nat), s.canonical = true ∧ u = s.advance dt ∧
      c < 2) ∧
    (∃ (s u : State) (dt c p : Nat), s.canonical = true ∧ u = s.advance dt ∧
      c < 2 ∧
      1 ≤ p ∧
      p ≤ 4) ∧
    (∃ (s u : State) (dt c : Nat), s.canonical = true ∧ u = s.advance dt ∧
      c < 2) ∧
    (∃ (s u : State) (dt c : Nat), s.canonical = true ∧ u = s.advance dt ∧
      c < 2) ∧
    (∃ (s u : State) (dt link : Nat), s.canonical = true ∧ u = s.advance dt ∧
      link < 8 ∧
      link < u.ports.links.length ∧
      u.preempt link = 1 ∧
      (u.lnk link).verifyAt ≤ u.ts.meas ∧
      (u.lnk link).verifySent < 3) ∧
    (∃ (s u : State) (dt link : Nat), s.canonical = true ∧ u = s.advance dt ∧
      link < 8 ∧
      u.preempt link = 1 ∧
      (u.lnk link).verifyAt ≤ u.ts.meas ∧
      3 ≤ (u.lnk link).verifySent) ∧
    (∃ (s u : State) (dt link : Nat), s.canonical = true ∧ u = s.advance dt ∧
      link < 8 ∧
      u.preempt link = 1) ∧
    (∃ (s u : State) (dt src link : Nat), s.canonical = true ∧ u = (s.advance dt).dueFirst ∧
      u.clearSource src ∧
      link < 8 ∧
      link < u.ports.links.length ∧
      u.domainOn 12 = true ∧
      u.linkUp link = true ∧
      (u.lnk link).probe = none ∧
      (u.draw.2.expressSlot link 60).1.isSome = true) ∧
    (∃ (s u : State) (dt link nonce cap tx start : Nat), s.canonical = true ∧ u = s.advance dt ∧
      link < 8 ∧
      (u.lnk link).probe = some (nonce, tx, start) ∧
      u.ts.meas ≤ 1000000 * 2 ^ 48 + start) ∧
    (∃ (s u : State) (dt link nonce tx start : Nat), s.canonical = true ∧ u = s.advance dt ∧
      link < 8 ∧
      (u.lnk link).probe = some (nonce, tx, start) ∧
      1000000 * 2 ^ 48 + start ≤ u.ts.meas) :=
  ⟨⟨wOn.wr (A.macLinkStatus 7) 0x21, _, 0, 7, 0, by decide +kernel, rfl, by decide +kernel⟩,
   ⟨(((wOn.wr (A.macLinkStatus 3) 0x21).wr (A.macPortCfg 0) 0).wr (A.macLinkPauseCfg 3) 0x10001), _, 0, 3, by decide +kernel, rfl, by decide +kernel, by decide +kernel, by decide +kernel, by decide +kernel, by decide +kernel, expressSlot_isSome _ _ _ (by decide +kernel) (by decide +kernel) (by decide +kernel)⟩,
   ⟨wOn.setLink 7 (fun l => { l with pauseAt := [(0, 65535), (9, 0)] }), _, 0, 7, 0, 65535, [(9, 0)], by decide +kernel, rfl, by decide +kernel⟩,
   ⟨wOn.setLink 7 (fun l => { l with pauseAt := [(0, 0)] }), _, 0, 7, 0, [], by decide +kernel, rfl, by decide +kernel⟩,
   ⟨wOn.setLink 0 (fun l => { l with hold := some 0 }), _, 0, 0, 0, by decide +kernel, rfl, by decide +kernel⟩,
   ⟨(wOn.setLink 7 (fun l => { l with hold := some 9 })).wr (A.macPauseLimit 1) 0, _, 0, 7, 9, by decide +kernel, rfl, by decide +kernel⟩,
   ⟨((wOn.wr (A.macPortCfg 1) 0x3E).wr (A.macStatus 1) 2), _, 0, 7, 65535, 3, by decide +kernel, rfl, by decide +kernel⟩,
   ⟨wOn.wr (A.cmacLaneCfg 7) 1, _, 0, 7, 9, 3, by decide +kernel, rfl, by decide +kernel⟩,
   ⟨(wOn.wr (A.macLinkStatus 7) 0x1).setLink 7 (fun l => { l with rxPre := some ⟨0, 0, 0, [], false, false⟩ }), _, 0, 7, .fec, by decide +kernel, rfl, by decide +kernel⟩,
   ⟨wOn.wr (A.macPortCfg 0) 0, _, 0, .marker, 0, by decide +kernel, rfl, by decide +kernel⟩,
   ⟨wOn.wr (A.cmacLaneStatus 7) 7, _, 0, 7, .fec, by decide +kernel, rfl, by decide +kernel⟩,
   ⟨wOn, _, 0, 1, 4, by decide +kernel, rfl, by decide +kernel⟩,
   ⟨wOn, _, 0, 0, 0x11, 4, by decide +kernel, rfl, by decide +kernel⟩,
   ⟨wOn, _, 0, 1, 1, by decide +kernel, rfl, by decide +kernel⟩,
   ⟨wOn, _, 0, 1, by decide +kernel, rfl, by decide +kernel⟩,
   ⟨wOn, _, 0, 0, by decide +kernel, rfl, by decide +kernel⟩,
   ⟨wOn.wr (A.macLinkStatus 7) 0x41, _, 0, 7, by decide +kernel, rfl, by decide +kernel⟩,
   ⟨(wOn.wr (A.macLinkStatus 0) 0x41).setLink 0 (fun l => { l with verifySent := 3 }), _, 0, 0, by decide +kernel, rfl, by decide +kernel⟩,
   ⟨wOn.wr (A.macLinkStatus 7) 0x41, _, 0, 7, by decide +kernel, rfl, by decide +kernel⟩,
   ⟨(wOn.wr (A.macLinkStatus 7) 1).wr (A.macPortCfg 1) 0, _, 0, 0, 7, by decide +kernel, rfl, by decide +kernel, by decide +kernel, by decide +kernel, by decide +kernel, by decide +kernel, by decide +kernel, expressSlot_isSome _ _ _ (by decide +kernel) (by decide +kernel) (by decide +kernel)⟩,
   ⟨wOn.setLink 7 (fun l => { l with probe := some (5, 7, 0) }), _, 0, 7, 5, 1000, 7, 0, by decide +kernel, rfl, by decide +kernel⟩,
   ⟨{ wOn.setLink 7 (fun l => { l with probe := some (5, 7, 0) }) with ts := { wOn.ts with meas := 1000000 * 2 ^ 48 } }, _, 0, 7, 5, 7, 0, by decide +kernel, rfl, by decide +kernel⟩⟩

theorem test_departure_events_complete :
    (∃ (s u : State) (dt link z : Nat) (x : Handed) (l : List Handed), s.canonical = true ∧ u = s.advance dt ∧
      link < 8 ∧
      (u.lnk link).ready = x :: l ∧
      (u.setLink link (fun y => { y with ready := l })).freeSlot link (500000 + x.h) (x.h + u.tailHorizon link) x.len true = some z) ∧
    (∃ (s u : State) (dt link : Nat) (x : Handed) (l : List Handed), s.canonical = true ∧ u = s.advance dt ∧
      link < 8 ∧
      (u.lnk link).ready = x :: l ∧
      (u.setLink link (fun y => { y with ready := l })).freeSlot link (500000 + x.h) (x.h + u.tailHorizon link) x.len true = none) ∧
    (∃ (s u : State) (dt link : Nat) (x : Slot), s.canonical = true ∧ u = s.advance dt ∧
      link < 8 ∧
      earliestSlot (u.lnk link).slots (fun y => y.final.isNone && decide (y.slot ≤ 500000 + u.nowPs)) = some x) ∧
    (∃ (s u : State) (dt link : Nat) (x : Slot), s.canonical = true ∧ u = s.advance dt ∧
      link < 8 ∧
      earliestSlot (u.lnk link).slots (fun y => !y.committed && y.final.isSome && decide (y.slot ≤ 300000 + u.nowPs)) = some x ∧
      u.heldAt link u.nowPs = false) ∧
    (∃ (s u : State) (dt link tx : Nat) (x : Slot) (d : Bytes), s.canonical = true ∧ u = s.advance dt ∧
      link < 8 ∧
      earliestSlot (u.lnk link).slots (fun y => y.committed && decide (y.slot ≤ u.nowPs)) = some x ∧
      x.final = some (d, tx)) ∧
    (∃ (s u : State) (dt link : Nat), s.canonical = true ∧ u = s.advance dt ∧
      link < 8) ∧
    (∃ (s u : State) (dt link : Nat) (last : Bool) (x : PreFrame) (l : List PreFrame), s.canonical = true ∧ u = s.advance dt ∧
      link < 8 ∧
      (u.lnk link).queue = x :: l ∧
      (u.lnk link).onLine = none ∧
      u.linkUp link = true ∧
      u.heldAt link u.nowPs = false ∧
      (u.preCourse link (u.expressTimes link) ⟨x, u.nowPs, decide (u.preempt link = 2), 0⟩).isSome = true) ∧
    (∃ (s u : State) (dt link : Nat) (o : OnLine), s.canonical = true ∧ u = s.advance dt ∧
      link < 8 ∧
      (u.lnk link).onLine = some o ∧
      (u.lineCourse link o).1 ≤ u.nowPs) :=
  ⟨⟨(wOn.wr (A.macPortCfg 1) 0).setLink 7 (fun l => { l with ready := [⟨.fixed ⟨[], [], [], 4, 0x800, [], [], 123, 123, 0, 64⟩ [], none, 60, 0⟩] }), _, 0, 7, (((wOn.wr (A.macPortCfg 1) 0).setLink 7 (fun l => { l with ready := [] })).freeSlot 7 500000 ((wOn).tailHorizon 7) 60 true).getD 0, ⟨.fixed ⟨[], [], [], 4, 0x800, [], [], 123, 123, 0, 64⟩ [], none, 60, 0⟩, [], by decide +kernel, rfl, by decide +kernel, by decide +kernel, eq_some_getD _ _ (freeSlot_isSome _ _ _ _ _ _ (by decide +kernel) (by decide +kernel) (by decide +kernel) (by decide +kernel))⟩,
   ⟨(wOn.setLink 7 (fun l => { l with ready := [⟨.fixed ⟨[], [], [], 4, 0x800, [], [], 123, 123, 0, 64⟩ [], none, 60, 0⟩] })).wr (A.macTailHorizon 1) 0, _, 0, 7, ⟨.fixed ⟨[], [], [], 4, 0x800, [], [], 123, 123, 0, 64⟩ [], none, 60, 0⟩, [], by decide +kernel, rfl, by decide +kernel, by decide +kernel, freeSlot_none _ _ _ _ _ _ (by decide +kernel)⟩,
   ⟨wOn.setLink 7 (fun l => { l with slots := [⟨.fixed ⟨[], [], [], 4, 0x800, [], [], 123, 123, 0, 64⟩ [], none, 60, 5, 5, false, none, false⟩] }), _, 0, 7, ⟨.fixed ⟨[], [], [], 4, 0x800, [], [], 123, 123, 0, 64⟩ [], none, 60, 5, 5, false, none, false⟩, by decide +kernel, rfl, by decide +kernel⟩,
   ⟨wOn.setLink 7 (fun l => { l with slots := [⟨.fixed ⟨[], [], [], 4, 0x800, [], [], 123, 123, 0, 64⟩ [], none, 60, 5, 5, false, (some ([], 9)), false⟩] }), _, 0, 7, ⟨.fixed ⟨[], [], [], 4, 0x800, [], [], 123, 123, 0, 64⟩ [], none, 60, 5, 5, false, (some ([], 9)), false⟩, by decide +kernel, rfl, by decide +kernel⟩,
   ⟨wOn.setLink 7 (fun l => { l with slots := [⟨.fixed ⟨[], [], [], 4, 0x800, [], [], 123, 123, 0, 64⟩ [], none, 60, 0, 0, false, (some ([1], 9)), true⟩] }), _, 0, 7, 9, ⟨.fixed ⟨[], [], [], 4, 0x800, [], [], 123, 123, 0, 64⟩ [], none, 60, 0, 0, false, (some ([1], 9)), true⟩, [1], by decide +kernel, rfl, by decide +kernel⟩,
   ⟨wOn.setLink 7 (fun l => { l with slots := [⟨.fixed ⟨[], [], [], 4, 0x800, [], [], 123, 123, 0, 64⟩ [], none, 60, 0, 0, false, none, false⟩] }), _, 0, 7, by decide +kernel, rfl, by decide +kernel⟩,
   ⟨(wOn.wr (A.macLinkStatus 7) 1).setLink 7 (fun l => { l with queue := [⟨[1, 2], none, none⟩] }), _, 0, 7, false, ⟨[1, 2], none, none⟩, [], by decide +kernel, rfl, by decide +kernel⟩,
   ⟨{ (wOn.wr (A.macLinkStatus 7) 1).setLink 7 (fun l => { l with onLine := some ⟨⟨zeros 60, none, none⟩, 0, false, 0⟩ }) with ts := { wOn.ts with acc := 10 ^ 6 * 2 ^ 48 } }, _, 0, 7, ⟨⟨zeros 60, none, none⟩, 0, false, 0⟩, by decide +kernel, rfl, by decide +kernel⟩⟩

theorem test_request_events_complete :
    (∃ (s u : State) (dt : Nat) (c : Claim), s.canonical = true ∧ u = s.advance dt ∧
      u.ports.claims.find? (fun x => decide (x.kind = .arp)) = some c ∧
      c.frame.sl < u.ports.links.length) ∧
    (∃ (s u : State) (dt : Nat) (c : Claim), s.canonical = true ∧ u = s.advance dt ∧
      u.ports.claims.find? (fun x => decide (x.kind = .nd)) = some c ∧
      c.frame.sl < u.ports.links.length) ∧
    (∃ (s u : State) (dt k : Nat) (c : Claim), s.canonical = true ∧ u = s.advance dt ∧
      u.ports.claims.find? (fun x => match x.kind with | .exc _ => true | _ => false) = some c ∧
      c.kind = .exc k ∧
      u.excRing k = 0xFF ∧
      c.frame.sl < 8) ∧
    (∃ (s u : State) (dt k : Nat) (c : Claim), s.canonical = true ∧ u = s.advance dt ∧
      u.ports.claims.find? (fun x => match x.kind with | .exc _ => true | _ => false) = some c ∧
      c.kind = .exc k ∧
      u.excRing k ≠ 0xFF ∧
      c.frame.sl < 8) ∧
    (∃ (s u : State) (dt p : Nat) (r : Request) (l : List Request), s.canonical = true ∧ u = s.advance dt ∧
      p < 16 ∧
      u.queue p = r :: l ∧
      r.kind = .ntp ∧
      r.pipe < 16 ∧
      r.frame.sl < 8) ∧
    (∃ (s u : State) (dt p : Nat) (r : Request) (l : List Request), s.canonical = true ∧ u = s.advance dt ∧
      p < 16 ∧
      u.queue p = r :: l ∧
      r.kind = .nts ∧
      r.pipe < 16 ∧
      r.frame.sl < 8) ∧
    (∃ (s u : State) (dt b : Nat) (m : BucketMove), s.canonical = true ∧ u = s.advance dt ∧
      b < 256 ∧
      u.hrc.moves.find? (fun x => decide (x.bucket = b)) = some m ∧
      u.moveOver m = true) ∧
    (∃ (s u : State) (dt : Nat) (m : Bytes) (d : Desc), s.canonical = true ∧ u = s.advance dt ∧
      u.bit A.ntsMintCfg 0 = true ∧
      u.ringType (u.f A.ntsMintCfg 8 8) = 5 ∧
      u.ringLive (u.f A.ntsMintCfg 8 8) = true ∧
      (u.startWork (u.f A.ntsMintCfg 8 8)).1 = some d) :=
  ⟨⟨{ wOn with ports := { wOn.ports with claims := [⟨.arp, ⟨7, 0, []⟩⟩] } }, _, 0, ⟨.arp, ⟨7, 0, []⟩⟩, by decide +kernel, rfl, by decide +kernel⟩,
   ⟨{ wOn with ports := { wOn.ports with claims := [⟨.nd, ⟨7, 0, []⟩⟩] } }, _, 0, ⟨.nd, ⟨7, 0, []⟩⟩, by decide +kernel, rfl, by decide +kernel⟩,
   ⟨({ wOn with ports := { wOn.ports with claims := [⟨.exc 7, ⟨7, 0, []⟩⟩] } }).wr A.hrcExcMap1 0xFFFFFFFF, _, 0, 7, ⟨.exc 7, ⟨7, 0, []⟩⟩, by decide +kernel, rfl, by decide +kernel⟩,
   ⟨({ wOn with ports := { wOn.ports with claims := [⟨.exc 0, ⟨7, 0, []⟩⟩] } }).wr A.hrcExcMap0 0, _, 0, 0, ⟨.exc 0, ⟨7, 0, []⟩⟩, by decide +kernel, rfl, by decide +kernel⟩,
   ⟨{ wOn with hrc := { wOn.hrc with queues := modAt wOn.hrc.queues 15 (fun _ => [⟨.ntp, ⟨0, 0, []⟩, 0, 0, 0, 0, 0, 0, 15, zeros 16, [0, 0, 0], 0, false, none⟩]) } }, _, 0, 15, ⟨.ntp, ⟨0, 0, []⟩, 0, 0, 0, 0, 0, 0, 15, zeros 16, [0, 0, 0], 0, false, none⟩, [], by decide +kernel, rfl, by decide +kernel⟩,
   ⟨{ wOn with hrc := { wOn.hrc with queues := modAt wOn.hrc.queues 15 (fun _ => [⟨.nts, ⟨0, 0, []⟩, 0, 0, 0, 0, 0, 0, 15, zeros 16, [0, 0, 0], 0, false, none⟩]) } }, _, 0, 15, ⟨.nts, ⟨0, 0, []⟩, 0, 0, 0, 0, 0, 0, 15, zeros 16, [0, 0, 0], 0, false, none⟩, [], by decide +kernel, rfl, by decide +kernel⟩,
   ⟨{ wOn with hrc := { wOn.hrc with moves := [⟨255, 0, 1, [], 0⟩] } }, _, 0, 255, ⟨255, 0, 1, [], 0⟩, by decide +kernel, rfl, by decide +kernel⟩,
   ⟨{ (((wOn.wr A.ntsMintCfg 0x501).wr (A.hifRingCfg 5) 5).wr (A.hifRingState 5) 1).setRing 5 (fun r => { r with waiting := [⟨0, 4096, 2048, 0, [], 0, 0, false⟩] }) with nts := { wOn.nts with current := true, keys := [(1, zeros 32)] } }, _, 0, ([15, 0, 1] ++ zeros 77 ++ [255, 255, 0, 0]), ⟨0, 4096, 2048, 0, [], 0, 0, false⟩, by decide +kernel, rfl, by decide +kernel⟩⟩

theorem test_request_commands_complete :
    (∃ (s u : State) (dt src : Nat) (cmd : Word), s.canonical = true ∧ u = (s.advance dt).dueFirst ∧
      u.takesCommit src 19 (u.commandWords A.hrcQueryCmd 0 1 1 cmd)) ∧
    (∃ (s u : State) (dt src : Nat) (c : Word), s.canonical = true ∧ u = (s.advance dt).dueFirst ∧
      u.takesPair src A.ntsCmd 1 c) ∧
    (∃ (s u : State) (dt src : Nat) (c : Word), s.canonical = true ∧ u = (s.advance dt).dueFirst ∧
      u.takesPair src A.ntsCmd 2 c) ∧
    (∃ (s u : State) (dt : Nat), s.canonical = true ∧ u = s.advance dt ∧
      u.nts.current = false ∧
      u.entropyOk = true) ∧
    (∃ (s u : State) (dt a : Nat), s.canonical = true ∧ u = s.advance dt ∧
      u.nts.deferred = some a ∧
      a ≤ u.nowNs ∧
      u.nts.current = false ∧
      u.entropyOk = true) ∧
    (∃ (s u : State) (dt a : Nat), s.canonical = true ∧ u = s.advance dt ∧
      u.nts.deferred = some a ∧
      a ≤ u.nowNs ∧
      u.nts.current = true ∧
      u.entropyOk = true) ∧
    (∃ (s u : State) (dt a : Nat), s.canonical = true ∧ u = s.advance dt ∧
      u.nts.deferred = some a ∧
      a ≤ u.nowNs ∧
      u.entropyOk = false) ∧
    (∃ (s u : State) (dt src p : Nat), s.canonical = true ∧ u = (s.advance dt).dueFirst ∧
      u.clearSource src ∧
      p < 16 ∧
      u.domainOn (domainOf (A.svpPipeUcodeCtl p)) = true ∧
      u.pipeState p = 0 ∧
      (u.nextActive p).isSome = true) ∧
    (∃ (s u : State) (dt p : Nat), s.canonical = true ∧ u = s.advance dt ∧
      p < 16 ∧
      u.pipeState p = 1 ∧
      u.pipeBusy p = false ∧
      u.fenced 0 p = false) ∧
    (∃ (s u : State) (dt src p : Nat), s.canonical = true ∧ u = (s.advance dt).dueFirst ∧
      u.clearSource src ∧
      p < 16 ∧
      u.domainOn (domainOf (A.svpPipeUcodeCtl p)) = true ∧
      u.pipeState p = 2) ∧
    (∃ (s u : State) (dt p : Nat) (pass : Bool), s.canonical = true ∧ u = s.advance dt ∧
      p < 16 ∧
      u.pipeState p = 3) :=
  ⟨⟨(setStage wOn [(A.hrcQueryAddr 0, 0x20010DB8)]), _, 0, 0, 0, by decide +kernel, rfl, by decide +kernel⟩,
   ⟨wOn, _, 0, 0, 0xFFFFFFFE, by decide +kernel, rfl, by decide +kernel⟩,
   ⟨{ wOn with nts := { wOn.nts with keys := [(1, zeros 32)], current := true } }, _, 0, 0, 0xFFFFFFFD, by decide +kernel, rfl, by decide +kernel⟩,
   ⟨wOn.wr A.pkeTrngStatus 1, _, 0, by decide +kernel, rfl, by decide +kernel⟩,
   ⟨{ wOn.wr A.pkeTrngStatus 1 with nts := { wOn.nts with deferred := some 0 } }, _, 0, 0, by decide +kernel, rfl, by decide +kernel⟩,
   ⟨{ wOn.wr A.pkeTrngStatus 1 with nts := { wOn.nts with deferred := some 0, current := true, keys := [(1, zeros 32)], lastId := some 1 } }, _, 0, 0, by decide +kernel, rfl, by decide +kernel⟩,
   ⟨{ wOn with nts := { wOn.nts with deferred := some 0 } }, _, 0, 0, by decide +kernel, rfl, by decide +kernel⟩,
   ⟨wOn, _, 0, 0, 15, by decide +kernel, rfl, by decide +kernel⟩,
   ⟨wOn.wr (A.svpPipeStatus 15) 1, _, 0, 15, by decide +kernel, rfl, by decide +kernel⟩,
   ⟨wOn.wr (A.svpPipeStatus 0) 2, _, 0, 0, 0, by decide +kernel, rfl, by decide +kernel⟩,
   ⟨wOn.wr (A.svpPipeStatus 15) 3, _, 0, 15, false, by decide +kernel, rfl, by decide +kernel⟩⟩

theorem test_ptp_messages_complete :
    (∃ (s u : State) (dt : Nat) (c : Claim), s.canonical = true ∧ u = s.advance dt ∧
      u.ports.claims.find? (fun x => decide (x.kind = .ptp) && decide (mType (ptpBytes x.frame) = 1)) = some c ∧
      c.frame.sl < u.ports.links.length ∧
      u.linkUp c.frame.sl = true ∧
      ptpMulticast c.frame = true ∧
      u.ptp.ctxs = [] ∧
      (u.servingInst c.frame.sl (mDomain (ptpBytes c.frame)) (ptpTransport c.frame) true).isSome = true) ∧
    (∃ (s u : State) (dt k : Nat) (c : Claim) (x : PtpCtx) (g : Grant), s.canonical = true ∧ u = s.advance dt ∧
      u.ports.claims.find? (fun x => decide (x.kind = .ptp) && decide (mType (ptpBytes x.frame) = 1)) = some c ∧
      c.frame.sl < u.ports.links.length ∧
      u.linkUp c.frame.sl = true ∧
      u.ptp.ctxs = [(k, x)] ∧
      u.instOn x.inst = true ∧
      x.inst < 16 ∧
      x.client = clientOf (packetOf c.frame.data) ∧
      x.port = mPort (ptpBytes c.frame) ∧
      x.sl = c.frame.sl ∧
      cfgDomain (u.rd (A.ptpInstCfg x.inst)) = mDomain (ptpBytes c.frame) ∧
      x.dresp = some g ∧
      u.measNs < g.exp ∧
      logPeriod g.log ≤ x.credit ∧
      logPeriod g.log ≠ 0) ∧
    (∃ (s u : State) (dt : Nat) (c : Claim), s.canonical = true ∧ u = s.advance dt ∧
      u.ports.claims.find? (fun x => decide (x.kind = .ptp) && decide (mType (ptpBytes x.frame) = 1)) = some c ∧
      ptpMulticast c.frame = false ∧
      u.ptp.ctxs = []) ∧
    (∃ (s u : State) (dt i : Nat) (c : Claim) (e : Nat × Bytes), s.canonical = true ∧ u = s.advance dt ∧
      u.ports.claims.find? (fun x => decide (x.kind = .signal 0)) = some c ∧
      c.frame.sl < u.ports.links.length ∧
      u.linkUp c.frame.sl = true ∧
      u.ucastInst c.frame.sl (mDomain (ptpBytes c.frame)) (ptpTransport c.frame) = some i ∧
      (mTlvs (ptpBytes c.frame)).filter (fun y => decide (y.1 = 4)) = [e] ∧
      u.grantable i (beAt e.2 4 1 / 16) (signed (beAt e.2 5 1) 8) = true ∧
      u.ptp.ctxs = [] ∧
      fld (u.ptpWord A.ptpCfg) 16 14 ≠ 0) ∧
    (∃ (s u : State) (dt i : Nat) (c : Claim) (e : Nat × Bytes), s.canonical = true ∧ u = s.advance dt ∧
      u.ports.claims.find? (fun x => decide (x.kind = .signal 0)) = some c ∧
      c.frame.sl < u.ports.links.length ∧
      u.linkUp c.frame.sl = true ∧
      u.ucastInst c.frame.sl (mDomain (ptpBytes c.frame)) (ptpTransport c.frame) = some i ∧
      (mTlvs (ptpBytes c.frame)).filter (fun y => decide (y.1 = 4)) = [e] ∧
      u.grantable i (beAt e.2 4 1 / 16) (signed (beAt e.2 5 1) 8) = false) ∧
    (∃ (s u : State) (dt i k : Nat) (c : Claim) (x : PtpCtx) (e : Nat × Bytes), s.canonical = true ∧ u = s.advance dt ∧
      u.ports.claims.find? (fun x => decide (x.kind = .signal 1)) = some c ∧
      c.frame.sl < u.ports.links.length ∧
      u.linkUp c.frame.sl = true ∧
      u.slaveOf c.frame = none ∧
      u.ucastInst c.frame.sl (mDomain (ptpBytes c.frame)) (ptpTransport c.frame) = some i ∧
      (mTlvs (ptpBytes c.frame)).filter (fun y => decide (y.1 = 6)) = [e] ∧
      u.ptp.ctxs = [(k, x)] ∧
      x.inst = i ∧
      x.client = clientOf (packetOf c.frame.data) ∧
      x.port = mPort (ptpBytes c.frame) ∧
      (x.held (beAt e.2 4 1 / 16)).isSome = true) ∧
    (∃ (s u : State) (dt n m : Nat) (c : Claim), s.canonical = true ∧ u = s.advance dt ∧
      u.ports.claims.find? (fun x => decide (x.kind = .signal 1)) = some c ∧
      u.slaveOf c.frame = some (n, m) ∧
      (u.slave n).chosen.isSome = true) ∧
    (∃ (s u : State) (dt : Nat), s.canonical = true ∧ u = s.advance dt ∧
      CellList.rising u.ptp.ctxs = true) ∧
    (∃ (s u : State) (dt n m : Nat) (c : Claim), s.canonical = true ∧ u = s.advance dt ∧
      u.ports.claims.find? (fun x => decide (x.kind = .ptp) && decide (mType (ptpBytes x.frame) ≠ 1)) = some c ∧
      [0, 1].find? (fun y => u.slvOn y && decide (u.slvState y ≠ 0) && decide (u.slvLink y = c.frame.sl) && decide (cfgDomain (u.rd (A.ptpSlvCfg y)) = mDomain (ptpBytes c.frame)) && decide (cfgTransport (u.rd (A.ptpSlvCfg y)) = ptpTransport c.frame)) = some n ∧
      n < u.ptp.slaves.length ∧
      mType (ptpBytes c.frame) = 11 ∧
      u.masterSlot n (packetOf c.frame.data).sip (mPort (ptpBytes c.frame)) = some m ∧
      m < (u.slave n).masters.length) ∧
    (∃ (s u : State) (dt n : Nat) (c : Claim), s.canonical = true ∧ u = s.advance dt ∧
      u.ports.claims.find? (fun x => decide (x.kind = .ptp) && decide (mType (ptpBytes x.frame) ≠ 1)) = some c ∧
      [0, 1].find? (fun y => u.slvOn y && decide (u.slvState y ≠ 0) && decide (u.slvLink y = c.frame.sl) && decide (cfgDomain (u.rd (A.ptpSlvCfg y)) = mDomain (ptpBytes c.frame)) && decide (cfgTransport (u.rd (A.ptpSlvCfg y)) = ptpTransport c.frame)) = some n ∧
      n < u.ptp.slaves.length ∧
      mType (ptpBytes c.frame) = 0 ∧
      u.chosenPort n = some (mPort (ptpBytes c.frame)) ∧
      beAt (ptpBytes c.frame) 6 1 / 2 % 2 = 0) ∧
    (∃ (s u : State) (dt n q : Nat) (c : Claim) (t2 k : Int), s.canonical = true ∧ u = s.advance dt ∧
      u.ports.claims.find? (fun x => decide (x.kind = .ptp) && decide (mType (ptpBytes x.frame) ≠ 1)) = some c ∧
      [0, 1].find? (fun y => u.slvOn y && decide (u.slvState y ≠ 0) && decide (u.slvLink y = c.frame.sl) && decide (cfgDomain (u.rd (A.ptpSlvCfg y)) = mDomain (ptpBytes c.frame)) && decide (cfgTransport (u.rd (A.ptpSlvCfg y)) = ptpTransport c.frame)) = some n ∧
      n < u.ptp.slaves.length ∧
      mType (ptpBytes c.frame) = 8 ∧
      u.chosenPort n = some (mPort (ptpBytes c.frame)) ∧
      (u.slave n).pendSync = some (q, t2, k) ∧
      q = mSeq (ptpBytes c.frame)) ∧
    (∃ (s u : State) (dt n : Nat) (c : Claim), s.canonical = true ∧ u = s.advance dt ∧
      u.ports.claims.find? (fun x => decide (x.kind = .ptp) && decide (mType (ptpBytes x.frame) ≠ 1)) = some c ∧
      [0, 1].find? (fun y => u.slvOn y && decide (u.slvState y ≠ 0) && decide (u.slvLink y = c.frame.sl) && decide (cfgDomain (u.rd (A.ptpSlvCfg y)) = mDomain (ptpBytes c.frame)) && decide (cfgTransport (u.rd (A.ptpSlvCfg y)) = ptpTransport c.frame)) = some n ∧
      n < u.ptp.slaves.length ∧
      mType (ptpBytes c.frame) = 9 ∧
      u.chosenPort n = some (mPort (ptpBytes c.frame)) ∧
      slice (ptpBytes c.frame) 44 10 = u.portId (slvPort n)) ∧
    (∃ (s u : State) (dt n m : Nat) (f : Foreign), s.canonical = true ∧ u = s.advance dt ∧
      n < 2 ∧
      (u.slave n).chosen = some m ∧
      (u.slave n).masters.getD m none = some f ∧
      f.last + u.f (A.ptpSlvRates n) 12 4 * logPeriod (u.slvLogAnn n) * 2 ^ 48 ≤ u.ts.meas) ∧
    (∃ (s u : State) (dt n : Nat), s.canonical = true ∧ u = s.advance dt ∧
      n < 2) ∧
    (∃ (s u : State) (dt n r : Nat) (g : SlaveGrant), s.canonical = true ∧ u = s.advance dt ∧
      n < 2 ∧
      (u.slave n).grants = [g] ∧
      u.measNs < g.exp ∧
      g.renewAt = some r ∧
      r ≤ u.measNs ∧
      g.master < 4 ∧
      (g.master, g.mtype) ∈ u.wantedGrants n ∧
      u.slvLink n < u.ports.links.length ∧
      u.linkUp (u.slvLink n) = true) ∧
    (∃ (s u : State) (dt n m : Nat) (c : Claim) (e : Nat × Bytes), s.canonical = true ∧ u = s.advance dt ∧
      u.ports.claims.find? (fun x => decide (x.kind = .signal 2)) = some c ∧
      u.slaveOf c.frame = some (n, m) ∧
      n < u.ptp.slaves.length ∧
      (mTlvs (ptpBytes c.frame)).filter (fun y => decide (y.1 = 5)) = [e] ∧
      beAt e.2 6 4 ≠ 0) ∧
    (∃ (s u : State) (dt n m : Nat) (c : Claim) (e : Nat × Bytes), s.canonical = true ∧ u = s.advance dt ∧
      u.ports.claims.find? (fun x => decide (x.kind = .signal 2)) = some c ∧
      u.slaveOf c.frame = some (n, m) ∧
      (u.slave n).chosen.isSome = true ∧
      (mTlvs (ptpBytes c.frame)).filter (fun y => decide (y.1 = 5)) = [e] ∧
      beAt e.2 6 4 = 0) ∧
    (∃ (s u : State) (dt x : Nat) (c : Claim), s.canonical = true ∧ u = s.advance dt ∧
      u.ports.claims.find? (fun x => decide (x.kind = .esmc)) = some c ∧
      esmcOk (packetOf c.frame.data).body = true ∧
      x < 2 ∧
      x < u.ptp.esmc.length ∧
      u.synceLink x = c.frame.sl ∧
      u.synceLink (1 - x) ≠ c.frame.sl ∧
      (u.ptp.esmc.getD x ⟨0xF, 0xFF, 0, 0, 0⟩).sec ≠ u.nowNs / 1000000000) ∧
    (∃ (s u : State) (dt : Nat) (c : Claim), s.canonical = true ∧ u = s.advance dt ∧
      u.ports.claims.find? (fun x => decide (x.kind = .esmc)) = some c ∧
      esmcOk (packetOf c.frame.data).body = false) :=
  ⟨⟨wClaim .ptp (ethF 0x88F7 (ptpMsg 1 0 (zeros 10) 5 (zeros 10))) wInst, _, 0, ⟨.ptp, ⟨7, 0, ethF 0x88F7 (ptpMsg 1 0 (zeros 10) 5 (zeros 10))⟩⟩, by decide +kernel, rfl, by decide +kernel⟩,
   ⟨{ wClaim .ptp (ethF 0x88F7 (ptpMsg 1 0 (zeros 10) 5 (zeros 10))) wInst with ptp := { wOn.ptp with ctxs := [(4095, ⟨0, 7, ⟨[], [], [], 0, 0, [], [], 0, 0, 0, 0⟩, zeros 16, zeros 10, none, none, some ⟨0, 5⟩, 0, 0, 0, 1000000000, 0⟩)] } }, _, 0, 4095, ⟨.ptp, ⟨7, 0, ethF 0x88F7 (ptpMsg 1 0 (zeros 10) 5 (zeros 10))⟩⟩, ⟨0, 7, ⟨[], [], [], 0, 0, [], [], 0, 0, 0, 0⟩, zeros 16, zeros 10, none, none, some ⟨0, 5⟩, 0, 0, 0, 1000000000, 0⟩, ⟨0, 5⟩, by decide +kernel, rfl, by decide +kernel⟩,
   ⟨wClaim .ptp (udpF (ptpMsg 1 0 (zeros 10) 5 (zeros 10))) wInst, _, 0, ⟨.ptp, ⟨7, 0, udpF (ptpMsg 1 0 (zeros 10) 5 (zeros 10))⟩⟩, by decide +kernel, rfl, by decide +kernel⟩,
   ⟨wClaim (.signal 0) (ethF 0x88F7 (ptpMsg 12 4 (zeros 10) 5 (zeros 10 ++ reqTlv))) (wInst.wr A.ptpCfg 0x10000), _, 0, 0, ⟨.signal 0, ⟨7, 0, ethF 0x88F7 (ptpMsg 12 4 (zeros 10) 5 (zeros 10 ++ reqTlv))⟩⟩, (4, reqTlv), by decide +kernel, rfl, by decide +kernel⟩,
   ⟨wClaim (.signal 0) (ethF 0x88F7 (ptpMsg 12 4 (zeros 10) 5 (zeros 10 ++ [0, 4, 0, 6, 0xB0, 4, 0, 0, 1, 44]))) wInst, _, 0, 0, ⟨.signal 0, ⟨7, 0, ethF 0x88F7 (ptpMsg 12 4 (zeros 10) 5 (zeros 10 ++ [0, 4, 0, 6, 0xB0, 4, 0, 0, 1, 44]))⟩⟩, (4, [0, 4, 0, 6, 0xB0, 4, 0, 0, 1, 44]), by decide +kernel, rfl, by decide +kernel⟩,
   ⟨{ wClaim (.signal 1) (ethF 0x88F7 (ptpMsg 12 4 (zeros 10) 5 (zeros 10 ++ [0, 6, 0, 2, 0x90, 0]))) wInst with ptp := { wOn.ptp with ctxs := [(4095, ⟨0, 7, ⟨[], [], [], 0, 0, [], [], 0, 0, 0, 0⟩, zeros 16, zeros 10, none, none, some ⟨0, 5⟩, 0, 0, 0, 1000000000, 0⟩)] } }, _, 0, 0, 4095, ⟨.signal 1, ⟨7, 0, ethF 0x88F7 (ptpMsg 12 4 (zeros 10) 5 (zeros 10 ++ [0, 6, 0, 2, 0x90, 0]))⟩⟩, ⟨0, 7, ⟨[], [], [], 0, 0, [], [], 0, 0, 0, 0⟩, zeros 16, zeros 10, none, none, some ⟨0, 5⟩, 0, 0, 0, 1000000000, 0⟩, (6, [0, 6, 0, 2, 0x90, 0]), by decide +kernel, rfl, by decide +kernel⟩,
   ⟨wClaim (.signal 1) (udpF (ptpMsg 12 4 (zeros 10) 5 (zeros 10 ++ [0, 6, 0, 2, 0x90, 0]))) (wSlv 0x70049 (fun x => { x with chosen := some 0 })), _, 0, 1, 0, ⟨.signal 1, ⟨7, 0, udpF (ptpMsg 12 4 (zeros 10) 5 (zeros 10 ++ [0, 6, 0, 2, 0x90, 0]))⟩⟩, by decide +kernel, rfl, by decide +kernel⟩,
   ⟨{ wInst with ptp := { wOn.ptp with ctxs := [(4095, ⟨0, 7, ⟨[], [], [], 0, 0, [], [], 0, 0, 0, 0⟩, zeros 16, zeros 10, some ⟨0, 7⟩, none, some ⟨0, 0⟩, 0, 0, 0, 0, 0⟩)] } }, _, 0, by decide +kernel, rfl, by decide +kernel⟩,
   ⟨wClaim .ptp (ethF 0x88F7 (ptpMsg 11 0 (zeros 10) 5 (zeros 30))) (wSlv 0x70001 (id)), _, 0, 1, 0, ⟨.ptp, ⟨7, 0, ethF 0x88F7 (ptpMsg 11 0 (zeros 10) 5 (zeros 30))⟩⟩, by decide +kernel, rfl, by decide +kernel⟩,
   ⟨wClaim .ptp (ethF 0x88F7 (ptpMsg 0 0 (zeros 10) 5 (zeros 10))) (wSlv 0x70001 (fun x => { x with chosen := some 2, masters := [none, none, some ⟨zeros 10, [], 0, none⟩, none] })), _, 0, 1, ⟨.ptp, ⟨7, 0, ethF 0x88F7 (ptpMsg 0 0 (zeros 10) 5 (zeros 10))⟩⟩, by decide +kernel, rfl, by decide +kernel⟩,
   ⟨wClaim .ptp (ethF 0x88F7 (ptpMsg 8 0 (zeros 10) 5 (zeros 10))) (wSlv 0x70001 (fun x => { x with chosen := some 2, masters := [none, none, some ⟨zeros 10, [], 0, none⟩, none], pendSync := some (5, 1, 2) })), _, 0, 1, 5, ⟨.ptp, ⟨7, 0, ethF 0x88F7 (ptpMsg 8 0 (zeros 10) 5 (zeros 10))⟩⟩, 1, 2, by decide +kernel, rfl, by decide +kernel⟩,
   ⟨wClaim .ptp (ethF 0x88F7 (ptpMsg 9 0 (zeros 10) 5 (zeros 10 ++ wOn.portId 10))) (wSlv 0x70001 (fun x => { x with chosen := some 2, masters := [none, none, some ⟨zeros 10, [], 0, none⟩, none], dreqs := [(5, 9), (4, 2)] })), _, 0, 1, ⟨.ptp, ⟨7, 0, ethF 0x88F7 (ptpMsg 9 0 (zeros 10) 5 (zeros 10 ++ wOn.portId 10))⟩⟩, by decide +kernel, rfl, rfl, by decide +kernel, by decide +kernel, by decide +kernel, by decide +kernel, rfl⟩,
   ⟨(wSlv 0x70001 (fun x => { x with chosen := some 2, masters := [none, none, some ⟨zeros 10, [], 0, none⟩, none] })).wr (A.ptpSlvRates 1) 0, _, 0, 1, 2, ⟨zeros 10, [], 0, none⟩, by decide +kernel, rfl, by decide +kernel⟩,
   ⟨wSlv 0x70049 (fun x => { x with grants := [⟨0, 11, 0, none⟩] }), _, 0, 1, by decide +kernel, rfl, by decide +kernel⟩,
   ⟨wSlv 0x70049 (fun x => { x with grants := [⟨0, 11, 7, some 0⟩] }), _, 0, 1, 0, ⟨0, 11, 7, some 0⟩, by decide +kernel, rfl, by decide +kernel⟩,
   ⟨wClaim (.signal 2) (udpF (ptpMsg 12 4 (zeros 10) 5 (zeros 10 ++ [0, 5, 0, 8, 0xB0, 0, 0, 0, 1, 44, 0, 1]))) (wSlv 0x70049 id), _, 0, 1, 0, ⟨.signal 2, ⟨7, 0, udpF (ptpMsg 12 4 (zeros 10) 5 (zeros 10 ++ [0, 5, 0, 8, 0xB0, 0, 0, 0, 1, 44, 0, 1]))⟩⟩, (5, [0, 5, 0, 8, 0xB0, 0, 0, 0, 1, 44, 0, 1]), by decide +kernel, rfl, by decide +kernel⟩,
   ⟨wClaim (.signal 2) (udpF (ptpMsg 12 4 (zeros 10) 5 (zeros 10 ++ [0, 5, 0, 8, 0xB0, 0, 0, 0, 0, 0, 0, 0]))) (wSlv 0x70049 (fun x => { x with chosen := some 0 })), _, 0, 1, 0, ⟨.signal 2, ⟨7, 0, udpF (ptpMsg 12 4 (zeros 10) 5 (zeros 10 ++ [0, 5, 0, 8, 0xB0, 0, 0, 0, 0, 0, 0, 0]))⟩⟩, (5, [0, 5, 0, 8, 0xB0, 0, 0, 0, 0, 0, 0, 0]), by decide +kernel, rfl, by decide +kernel⟩,
   ⟨wClaim .esmc (ethF 0x8809 ([0x0A, 0, 0x19, 0xA7, 0, 1, 0x10, 0, 0, 0, 1, 0, 4, 2] ++ zeros 40)) ({ wOn.wr A.ptpSynceIn 0x700 with ts := { wOn.ts with acc := 10 ^ 9 * 2 ^ 48 } }), _, 0, 1, ⟨.esmc, ⟨7, 0, ethF 0x8809 ([0x0A, 0, 0x19, 0xA7, 0, 1, 0x10, 0, 0, 0, 1, 0, 4, 2] ++ zeros 40)⟩⟩, by decide +kernel, rfl, by decide +kernel⟩,
   ⟨wClaim .esmc (ethF 0x8809 []) wOn, _, 0, ⟨.esmc, ⟨7, 0, ethF 0x8809 []⟩⟩, by decide +kernel, rfl, by decide +kernel⟩⟩

theorem test_receipt_commands_complete :
    (∃ (s u : State) (dt p : Nat) (r : Request) (l : List Request), s.canonical = true ∧ u = s.advance dt ∧
      p < 16 ∧
      p < u.hrc.queues.length ∧
      u.queue p = r :: l ∧
      u.untracked r = false ∧
      profInterval r = 0 ∧
      r.pipe < 16 ∧
      r.frame.sl < 8 ∧
      r.kind = .etxel ∧
      u.admitCheck = none) ∧
    (∃ (s u : State) (dt p : Nat) (r : Request) (l : List Request), s.canonical = true ∧ u = s.advance dt ∧
      p < 16 ∧
      p < u.hrc.queues.length ∧
      u.queue p = r :: l ∧
      u.untracked r = false ∧
      profInterval r = 0 ∧
      r.pipe < 16 ∧
      r.frame.sl < 8 ∧
      r.kind = .roughtime ∧
      u.admitCheck = none) ∧
    (∃ (s u : State) (dt p st : Nat) (r : Request) (l : List Request), s.canonical = true ∧ u = s.advance dt ∧
      p < 16 ∧
      p < u.hrc.queues.length ∧
      u.queue p = r :: l ∧
      u.untracked r = false ∧
      profInterval r = 0 ∧
      r.pipe < 16 ∧
      r.frame.sl < 8 ∧
      r.kind = .etxel ∧
      u.admitCheck = some st ∧
      r.frame.sl < u.ports.links.length ∧
      u.linkUp r.frame.sl = true) ∧
    (∃ (s u : State) (dt : Nat) (w : ClosedWindow), s.canonical = true ∧ u = s.advance dt ∧
      u.rcp.closed.find? (fun x => x.trees.all (fun y => y.done.isSome)) = some w ∧
      u.rcp.queue.length + (windowReleases w).length ≤ 32768) ∧
    (∃ (s u : State) (dt : Nat) (w : ClosedWindow), s.canonical = true ∧ u = s.advance dt ∧
      u.rcp.closed.find? (fun x => decide (1000000 * 2 ^ 48 + x.closedAt ≤ u.ts.meas) && !(x.trees.all (fun y => y.done.isSome))) = some w ∧
      u.rcp.queue.length + (treeLeaves 0 w.leaves).length ≤ 32768) ∧
    (∃ (s u : State) (dt : Nat) (x : Release), s.canonical = true ∧ u = s.advance dt ∧
      u.rcp.queue.find? (fun y => decide (u.rcp.paceAt.getD y.req.frame.sl 0 ≤ u.ts.meas)) = some x ∧
      x.req.frame.sl < u.ports.links.length ∧
      u.linkUp x.req.frame.sl = true) ∧
    (∃ (s u : State) (dt : Nat) (k : OnlineKey), s.canonical = true ∧ u = s.advance dt ∧
      u.rcp.online = some k ∧
      k.maxt < u.stamp) ∧
    (∃ (s u : State) (dt src : Nat) (c : Word), s.canonical = true ∧ u = (s.advance dt).dueFirst ∧
      u.takesPair src A.rcpCmd 1 c) ∧
    (∃ (s u : State) (dt src : Nat) (c : Word), s.canonical = true ∧ u = (s.advance dt).dueFirst ∧
      u.takesPair src A.rcpCmd 1 c ∧
      u.rcpSafe = false ∧
      u.ltKey.isSome = true ∧
      0 < u.coresOn ∧
      u.entropyOk = true) ∧
    (∃ (s u : State) (dt src : Nat) (v : Word), s.canonical = true ∧ u = (s.advance dt).dueFirst ∧
      u.clearSource src ∧
      u.latched.contains A.rcpLtSlot = false ∧
      u.domainOn (domainOf A.rcpLtSlot) = true) :=
  ⟨⟨{ ((wOn.wr A.rcpStatus 0x30).wr A.tscState 2).wr A.rcpWindowUs 1000 with rcp := { wOn.rcp with online := some OnlineKey.absent }, hrc := { wOn.hrc with queues := modAt wOn.hrc.queues 15 (fun _ => [wReq .etxel]) } }, _, 0, 15, wReq .etxel, [], by decide +kernel, rfl, by decide +kernel⟩,
   ⟨{ ((wOn.wr A.rcpStatus 0x30).wr A.tscState 2).wr A.rcpWindowUs 1000 with rcp := { wOn.rcp with online := some OnlineKey.absent }, hrc := { wOn.hrc with queues := modAt wOn.hrc.queues 15 (fun _ => [wReq .roughtime]) } }, _, 0, 15, wReq .roughtime, [], by decide +kernel, rfl, by decide +kernel⟩,
   ⟨{ wOn.wr (A.macLinkStatus 7) 1 with hrc := { wOn.hrc with queues := modAt wOn.hrc.queues 15 (fun _ => [wReq .etxel]) } }, _, 0, 15, 8, wReq .etxel, [], by decide +kernel, rfl, by decide +kernel⟩,
   ⟨{ wOn with rcp := { wOn.rcp with closed := [⟨7, 0, OnlineKey.absent, [⟨wReq .etxel, 0, 0, zeros 32⟩], [⟨0, zeros 104, [], some (zeros 64, 5)⟩]⟩] }, ts := { wOn.ts with meas := 1000000 * 2 ^ 48 } }, _, 0, ⟨7, 0, OnlineKey.absent, [⟨wReq .etxel, 0, 0, zeros 32⟩], [⟨0, zeros 104, [], some (zeros 64, 5)⟩]⟩, by decide +kernel, rfl, by decide +kernel⟩,
   ⟨{ wOn with rcp := { wOn.rcp with closed := [⟨7, 0, OnlineKey.absent, [⟨wReq .etxel, 0, 0, zeros 32⟩], [⟨0, zeros 104, [], none⟩]⟩] }, ts := { wOn.ts with meas := 1000000 * 2 ^ 48 } }, _, 0, ⟨7, 0, OnlineKey.absent, [⟨wReq .etxel, 0, 0, zeros 32⟩], [⟨0, zeros 104, [], none⟩]⟩, by decide +kernel, rfl, by decide +kernel⟩,
   ⟨{ wOn.wr (A.macLinkStatus 7) 1 with rcp := { wOn.rcp with queue := [⟨wReq .etxel, [1, 2], 0⟩] } }, _, 0, ⟨wReq .etxel, [1, 2], 0⟩, by decide +kernel, rfl, by decide +kernel⟩,
   ⟨{ wOn with rcp := { wOn.rcp with online := some OnlineKey.absent }, ts := { wOn.ts with acc := 2 ^ 48 } }, _, 0, OnlineKey.absent, by decide +kernel, rfl, by decide +kernel⟩,
   ⟨wOn, _, 0, 0, 0xFFFFFFFE, by decide +kernel, rfl, by decide +kernel⟩,
   ⟨{ ((wOn.wr A.rcpLtSlot 0x40).wr A.pkeTrngStatus 1).wr A.pkeStatus 0xFFFF with pke := { wOn.pke with slots := modAt wOn.pke.slots 0 (fun _ => ⟨2, 1, 8, false, 8, zeros 32, zeros 32⟩) } }, _, 0, 0, 0xFFFFFFFE, by decide +kernel, rfl, by decide +kernel⟩,
   ⟨wOn, _, 0, 1, 0x41, by decide +kernel, rfl, by decide +kernel⟩⟩

theorem test_key_operations_complete :
    (∃ (s u : State) (dt core : Nat) (j : PkeJob), s.canonical = true ∧ u = s.advance dt ∧
      core < 16 ∧
      (u.core core).running = some j ∧
      j.result = none ∧
      jOp j.rec_ = 1 ∧
      j.invalid = none) ∧
    (∃ (s u : State) (dt core : Nat) (j : PkeJob), s.canonical = true ∧ u = s.advance dt ∧
      core < 16 ∧
      (u.core core).running = some j ∧
      j.result = none ∧
      jOp j.rec_ = 2 ∧
      j.invalid = none) ∧
    (∃ (s u : State) (dt core st d : Nat) (j : PkeJob), s.canonical = true ∧ u = s.advance dt ∧
      core < 16 ∧
      (u.core core).running = some j ∧
      j.result = none ∧
      jOp j.rec_ = 2 ∧
      j.invalid = some (st, d)) ∧
    (∃ (s u : State) (dt core : Nat) (j : PkeJob), s.canonical = true ∧ u = s.advance dt ∧
      core < 16 ∧
      (u.core core).running = some j ∧
      j.result = none ∧
      jOp j.rec_ = 3 ∧
      j.invalid = none) ∧
    (∃ (s u : State) (dt core : Nat) (j : PkeJob), s.canonical = true ∧ u = s.advance dt ∧
      core < 16 ∧
      (u.core core).running = some j ∧
      j.result = none ∧
      jOp j.rec_ = 4 ∧
      j.invalid = none) ∧
    (∃ (s u : State) (dt core st d : Nat) (j : PkeJob), s.canonical = true ∧ u = s.advance dt ∧
      core < 16 ∧
      (u.core core).running = some j ∧
      j.result = none ∧
      jOp j.rec_ = 4 ∧
      j.invalid = some (st, d)) ∧
    (∃ (s u : State) (dt core : Nat) (j : PkeJob), s.canonical = true ∧ u = s.advance dt ∧
      core < 16 ∧
      (u.core core).running = some j ∧
      j.result = none ∧
      jOp j.rec_ = 5 ∧
      j.invalid = none) ∧
    (∃ (s u : State) (dt core st d : Nat) (j : PkeJob), s.canonical = true ∧ u = s.advance dt ∧
      core < 16 ∧
      (u.core core).running = some j ∧
      j.result = none ∧
      jOp j.rec_ = 5 ∧
      j.invalid = some (st, d)) ∧
    (∃ (s u : State) (dt core : Nat) (j : PkeJob), s.canonical = true ∧ u = s.advance dt ∧
      core < 16 ∧
      (u.core core).running = some j ∧
      j.result = none ∧
      jOp j.rec_ = 6 ∧
      j.invalid = none) ∧
    (∃ (s u : State) (dt core st d : Nat) (j : PkeJob), s.canonical = true ∧ u = s.advance dt ∧
      core < 16 ∧
      (u.core core).running = some j ∧
      j.result = none ∧
      jOp j.rec_ = 6 ∧
      j.invalid = some (st, d)) ∧
    (∃ (s u : State) (dt core : Nat) (j : PkeJob), s.canonical = true ∧ u = s.advance dt ∧
      core < 16 ∧
      (u.core core).running = some j ∧
      j.result = none ∧
      jOp j.rec_ = 7 ∧
      j.invalid = none) ∧
    (∃ (s u : State) (dt core st d : Nat) (j : PkeJob), s.canonical = true ∧ u = s.advance dt ∧
      core < 16 ∧
      (u.core core).running = some j ∧
      j.result = none ∧
      jOp j.rec_ = 7 ∧
      j.invalid = some (st, d)) ∧
    (∃ (s u : State) (dt core : Nat) (j : PkeJob), s.canonical = true ∧ u = s.advance dt ∧
      core < 16 ∧
      (u.core core).running = some j ∧
      j.result = none ∧
      jOp j.rec_ = 8 ∧
      j.invalid = none) ∧
    (∃ (s u : State) (dt core st d : Nat) (j : PkeJob), s.canonical = true ∧ u = s.advance dt ∧
      core < 16 ∧
      (u.core core).running = some j ∧
      j.result = none ∧
      jOp j.rec_ = 8 ∧
      j.invalid = some (st, d)) ∧
    (∃ (s u : State) (dt core : Nat) (j : PkeJob), s.canonical = true ∧ u = s.advance dt ∧
      core < 16 ∧
      (u.core core).running = some j ∧
      j.result = none ∧
      jOp j.rec_ = 9 ∧
      j.invalid = none) ∧
    (∃ (s u : State) (dt core st d : Nat) (j : PkeJob), s.canonical = true ∧ u = s.advance dt ∧
      core < 16 ∧
      (u.core core).running = some j ∧
      j.result = none ∧
      jOp j.rec_ = 9 ∧
      j.invalid = some (st, d)) ∧
    (∃ (s u : State) (dt core : Nat) (j : PkeJob), s.canonical = true ∧ u = s.advance dt ∧
      core < 16 ∧
      (u.core core).running = some j ∧
      j.result = none ∧
      jOp j.rec_ = 10 ∧
      j.invalid = none) ∧
    (∃ (s u : State) (dt core st d : Nat) (j : PkeJob), s.canonical = true ∧ u = s.advance dt ∧
      core < 16 ∧
      (u.core core).running = some j ∧
      j.result = none ∧
      jOp j.rec_ = 10 ∧
      j.invalid = some (st, d)) ∧
    (∃ (s u : State) (dt core : Nat) (j : PkeJob), s.canonical = true ∧ u = s.advance dt ∧
      core < 16 ∧
      (u.core core).running = some j ∧
      j.result = none ∧
      jOp j.rec_ = 11 ∧
      j.invalid = none) ∧
    (∃ (s u : State) (dt core st d : Nat) (j : PkeJob), s.canonical = true ∧ u = s.advance dt ∧
      core < 16 ∧
      (u.core core).running = some j ∧
      j.result = none ∧
      jOp j.rec_ = 11 ∧
      j.invalid = some (st, d)) ∧
    (∃ (s u : State) (dt core : Nat) (j : PkeJob), s.canonical = true ∧ u = s.advance dt ∧
      core < 16 ∧
      (u.core core).running = some j ∧
      j.result = none ∧
      jOp j.rec_ = 16 ∧
      u.f A.pkeTrngStatus 0 2 = 1 ∧
      j.invalid = none) ∧
    (∃ (s u : State) (dt core : Nat) (j : PkeJob), s.canonical = true ∧ u = s.advance dt ∧
      core < 16 ∧
      (u.core core).running = some j ∧
      j.result = none ∧
      jOp j.rec_ = 17 ∧
      j.invalid = none) ∧
    (∃ (s u : State) (dt core st d : Nat) (j : PkeJob), s.canonical = true ∧ u = s.advance dt ∧
      core < 16 ∧
      (u.core core).running = some j ∧
      j.result = none ∧
      jOp j.rec_ = 17 ∧
      j.invalid = some (st, d)) ∧
    (∃ (s u : State) (dt core : Nat) (j : PkeJob), s.canonical = true ∧ u = s.advance dt ∧
      core < 16 ∧
      (u.core core).running = some j ∧
      j.result = none ∧
      jOp j.rec_ = 16 ∧
      u.f A.pkeTrngStatus 0 2 ≠ 1) :=
  ⟨⟨(wCore (job (jrec 1 0 0xFF 4 0 0) (zeros 32))), _, 0, 15, job (jrec 1 0 0xFF 4 0 0) (zeros 32), by decide +kernel, rfl, by decide +kernel⟩,
   ⟨(wCore (job (jrec 2 0 0xFF 4 0 0) (le 32 1 ++ le 32 1 ++ zeros 32))), _, 0, 15, job (jrec 2 0 0xFF 4 0 0) (le 32 1 ++ le 32 1 ++ zeros 32), by decide +kernel, rfl, by decide +kernel⟩,
   ⟨wCore (job (jrec 2 0 0xFF 4 0 0) (le 32 (2 ^ 255 - 1) ++ zeros 64)), _, 0, 15, 2, 0, job (jrec 2 0 0xFF 4 0 0) (le 32 (2 ^ 255 - 1) ++ zeros 64), by decide +kernel, rfl, by decide +kernel⟩,
   ⟨(wCore (job (jrec 3 0 0xFF 8 0 0) (zeros 57))), _, 0, 15, job (jrec 3 0 0xFF 8 0 0) (zeros 57), by decide +kernel, rfl, by decide +kernel⟩,
   ⟨(wCore (job (jrec 4 0 0xFF 8 0 0) (le 57 1 ++ le 57 1 ++ zeros 57))), _, 0, 15, job (jrec 4 0 0xFF 8 0 0) (le 57 1 ++ le 57 1 ++ zeros 57), by decide +kernel, rfl, by decide +kernel⟩,
   ⟨wCore (job (jrec 4 0 0xFF 8 0 0) (le 57 (2 ^ 448 - 1) ++ zeros 114)), _, 0, 15, 2, 0, job (jrec 4 0 0xFF 8 0 0) (le 57 (2 ^ 448 - 1) ++ zeros 114), by decide +kernel, rfl, by decide +kernel⟩,
   ⟨(wCore (job (jrec 5 0 0xFF 4 0 0) (le 32 9 ++ le 32 9))), _, 0, 15, job (jrec 5 0 0xFF 4 0 0) (le 32 9 ++ le 32 9), by decide +kernel, rfl, by decide +kernel⟩,
   ⟨wCore (job (jrec 5 0 0xFF 4 0 0) (zeros 64)), _, 0, 15, 2, 0, job (jrec 5 0 0xFF 4 0 0) (zeros 64), by decide +kernel, rfl, by decide +kernel⟩,
   ⟨(wCore (job (jrec 6 0 0xFF 7 0 0) (le 56 5 ++ le 56 5))), _, 0, 15, job (jrec 6 0 0xFF 7 0 0) (le 56 5 ++ le 56 5), by decide +kernel, rfl, by decide +kernel⟩,
   ⟨wCore (job (jrec 6 0 0xFF 7 0 0) (zeros 112)), _, 0, 15, 2, 0, job (jrec 6 0 0xFF 7 0 0) (zeros 112), by decide +kernel, rfl, by decide +kernel⟩,
   ⟨(wCore (job (jrec 7 0x11 0xFF 4 0 0) (be 32 1 ++ zeros 32))), _, 0, 15, job (jrec 7 0x11 0xFF 4 0 0) (be 32 1 ++ zeros 32), by decide +kernel, rfl, by decide +kernel⟩,
   ⟨wCore (job (jrec 7 0x11 0xFF 4 0 0) (zeros 64)), _, 0, 15, 2, 0, job (jrec 7 0x11 0xFF 4 0 0) (zeros 64), by decide +kernel, rfl, by decide +kernel⟩,
   ⟨(wCore (job (jrec 8 0x11 0xFF 4 0 0) (p256G ++ be 32 1 ++ be 32 1 ++ zeros 32))), _, 0, 15, job (jrec 8 0x11 0xFF 4 0 0) (p256G ++ be 32 1 ++ be 32 1 ++ zeros 32), by decide +kernel, rfl, by decide +kernel⟩,
   ⟨wCore (job (jrec 8 0x11 0xFF 4 0 0) (p256G ++ zeros 96)), _, 0, 15, 2, 1, job (jrec 8 0x11 0xFF 4 0 0) (p256G ++ zeros 96), by decide +kernel, rfl, by decide +kernel⟩,
   ⟨(wCore (job (jrec 9 0x11 0xFF 4 0 0) (be 32 1 ++ p256G))), _, 0, 15, job (jrec 9 0x11 0xFF 4 0 0) (be 32 1 ++ p256G), by decide +kernel, rfl, by decide +kernel⟩,
   ⟨wCore (job (jrec 9 0x11 0xFF 4 0 0) (zeros 97)), _, 0, 15, 2, 0, job (jrec 9 0x11 0xFF 4 0 0) (zeros 97), by decide +kernel, rfl, by decide +kernel⟩,
   ⟨(wCore (job (jrec 10 0 0xFF 1 0 0) (RsaKey.bytes ⟨15, 7, 5, 3, 3, 1, 2⟩ 1 ++ be 8 2))), _, 0, 15, job (jrec 10 0 0xFF 1 0 0) (RsaKey.bytes ⟨15, 7, 5, 3, 3, 1, 2⟩ 1 ++ be 8 2), by decide +kernel, rfl, by decide +kernel⟩,
   ⟨wCore (job (jrec 10 0 0xFF 1 0 0) (zeros 44)), _, 0, 15, 2, 0, job (jrec 10 0 0xFF 1 0 0) (zeros 44), by decide +kernel, rfl, by decide +kernel⟩,
   ⟨(wCore (job (jrec 11 0 0xFF 1 0 0) (be 8 15 ++ be 8 7 ++ be 8 2))), _, 0, 15, job (jrec 11 0 0xFF 1 0 0) (be 8 15 ++ be 8 7 ++ be 8 2), by decide +kernel, rfl, by decide +kernel⟩,
   ⟨wCore (job (jrec 11 0 0xFF 1 0 0) (zeros 24)), _, 0, 15, 2, 0, job (jrec 11 0 0xFF 1 0 0) (zeros 24), by decide +kernel, rfl, by decide +kernel⟩,
   ⟨(wCore (job (jrec 16 1 0 4 0 0) [])).wr A.pkeTrngStatus 1, _, 0, 15, job (jrec 16 1 0 4 0 0) [], by decide +kernel, rfl, by decide +kernel⟩,
   ⟨(wCore (job (jrec 17 1 0 4 0 0) (zeros 32))), _, 0, 15, job (jrec 17 1 0 4 0 0) (zeros 32), by decide +kernel, rfl, by decide +kernel⟩,
   ⟨wCore (job (jrec 17 3 0 4 0 0) (zeros 32)), _, 0, 15, 2, 0, job (jrec 17 3 0 4 0 0) (zeros 32), by decide +kernel, rfl, by decide +kernel⟩,
   ⟨(wCore (job (jrec 16 1 0 4 0 0) [])).wr A.pkeTrngStatus 2, _, 0, 15, job (jrec 16 1 0 4 0 0) [], by decide +kernel, rfl, by decide +kernel⟩⟩

theorem test_key_engine_completes :
    (∃ (s u : State) (dt core : Nat) (h : PkeJob), s.canonical = true ∧ u = s.advance dt ∧
      core < 16 ∧
      core < u.pke.cores.length ∧
      u.coreOn core = true ∧
      (u.core core).running = none ∧
      (u.core core).saved = [] ∧
      u.ageJobs.queueHead = some h ∧
      opFills (jOp h.rec_) = false ∧
      jInline h.rec_ = true) ∧
    (∃ (s u : State) (dt core : Nat) (h : PkeJob), s.canonical = true ∧ u = s.advance dt ∧
      core < 16 ∧
      core < u.pke.cores.length ∧
      u.coreOn core = true ∧
      (u.core core).running = none ∧
      (u.core core).saved = [] ∧
      u.ageJobs.queueHead = some h ∧
      opFills (jOp h.rec_) = false ∧
      jInline h.rec_ = false ∧
      (u.slot (jSlot h.rec_)).state = 2 ∧
      keyFits h.rec_ (u.slot (jSlot h.rec_)) = true) ∧
    (∃ (s u : State) (dt core : Nat) (h : PkeJob), s.canonical = true ∧ u = s.advance dt ∧
      core < 16 ∧
      core < u.pke.cores.length ∧
      u.coreOn core = true ∧
      (u.core core).running = none ∧
      (u.core core).saved = [] ∧
      u.ageJobs.queueHead = some h ∧
      jOp h.rec_ = 0x10 ∧
      jSlot h.rec_ < u.pke.slots.length ∧
      (u.slot (jSlot h.rec_)).state = 0) ∧
    (∃ (s u : State) (dt core : Nat) (v : PkeJob) (l : List PkeJob), s.canonical = true ∧ u = s.advance dt ∧
      core < 16 ∧
      u.coreOn core = true ∧
      (u.core core).running = none ∧
      (u.ageJobs.core core).saved = v :: l ∧
      u.ageJobs.queueHead = none) ∧
    (∃ (s u : State) (dt core : Nat) (j h : PkeJob), s.canonical = true ∧ u = s.advance dt ∧
      core < 16 ∧
      (u.core core).running = some j ∧
      u.ageJobs.queueHead = some h ∧
      jLong j.rec_ = false ∧
      jOp j.rec_ ≠ 0x11 ∧
      j.result = none ∧
      jLong h.rec_ = false ∧
      mayYield h j (j.total - (j.spent + u.runCycles core)) (u.core core).saved.length = true ∧
      opFills (jOp h.rec_) = false ∧
      jInline h.rec_ = true) ∧
    (∃ (s u : State) (dt : Nat), s.canonical = true ∧ u = s.advance dt) ∧
    (∃ (s u : State) (dt core st d : Nat) (j : PkeJob) (out : Bytes), s.canonical = true ∧ u = s.advance dt ∧
      core < 16 ∧
      (u.core core).running = some j ∧
      j.result = some (st, d, out) ∧
      j.dueCycles ≤ j.spent + u.runCycles core ∧
      opFills (jOp j.rec_) = false ∧
      j.ring.all (fun x => decide (x.1 < 256)) = true) ∧
    (∃ (s u : State) (dt core d : Nat) (j : PkeJob) (out : Bytes), s.canonical = true ∧ u = s.advance dt ∧
      core < 16 ∧
      (u.core core).running = some j ∧
      j.result = some (0, d, out) ∧
      j.dueCycles ≤ j.spent + u.runCycles core ∧
      opFills (jOp j.rec_) = true ∧
      jSlot j.rec_ < u.pke.slots.length ∧
      j.ring.all (fun x => decide (x.1 < 256)) = true) ∧
    (∃ (s u : State) (dt core st d : Nat) (j : PkeJob) (out : Bytes), s.canonical = true ∧ u = s.advance dt ∧
      core < 16 ∧
      (u.core core).running = some j ∧
      j.result = some (st, d, out) ∧
      j.dueCycles ≤ j.spent + u.runCycles core ∧
      opFills (jOp j.rec_) = false ∧
      j.ring.all (fun x => decide (x.1 < 256)) = true ∧
      (u.core core).saved = []) ∧
    (∃ (s u : State) (dt src : Nat) (v c : Word), s.canonical = true ∧ u = (s.advance dt).dueFirst ∧
      u.takesPair src A.pkeAbort v c ∧
      v ≠ 0 ∧
      u.countJobs (fun j => decide (jTag j.rec_ = v.toNat) && j.ring.isSome) ≠ 0) ∧
    (∃ (s u : State) (dt : Nat) (j : PkeJob), s.canonical = true ∧ u = s.advance dt ∧
      u.slotJob 0x12 = some j) ∧
    (∃ (s u : State) (dt : Nat) (j : PkeJob), s.canonical = true ∧ u = s.advance dt ∧
      u.slotJob 0x13 = some j ∧
      (u.slot (jSlot j.rec_)).state = 2 ∧
      j.ring.all (fun x => decide (x.1 < 256)) = true) ∧
    (∃ (s u : State) (dt core phase tested : Nat) (j : PkeJob), s.canonical = true ∧ u = s.advance dt ∧
      core < 16 ∧
      (u.core core).running = some j ∧
      jOp j.rec_ = 0x10 ∧
      jAlg j.rec_ = 0x21 ∧
      j.result = none ∧
      1 ≤ phase ∧
      phase ≤ 3 ∧
      (j.phase < phase ∨ j.phase = phase ∧ j.progAt + 100 * 1000000 * 2 ^ 48 ≤ u.ts.meas)) ∧
    (∃ (s u : State) (dt : Nat), s.canonical = true ∧ u = s.advance dt ∧
      u.pke.samples.length = 8 ∧
      u.pke.samples.sum < 1024) ∧
    (∃ (s u : State) (dt source : Nat) (rep : Bool), s.canonical = true ∧ u = s.advance dt ∧
      source < 8 ∧
      u.srcState source < 2) ∧
    (∃ (s u : State) (dt source a : Nat), s.canonical = true ∧ u = s.advance dt ∧
      source < 8 ∧
      u.pke.srcRetest.getD source none = some a ∧
      a ≤ u.ts.meas) ∧
    (∃ (s u : State) (dt source a : Nat), s.canonical = true ∧ u = s.advance dt ∧
      source < 8 ∧
      u.pke.srcRetest.getD source none = some a ∧
      a ≤ u.ts.meas) :=
  ⟨⟨wJob (job (jrec 1 0 0xFF 4 0 0) (zeros 32)) KeySlot.empty, _, 0, 15, job (jrec 1 0 0xFF 4 0 0) (zeros 32), by decide +kernel, rfl, by decide +kernel⟩,
   ⟨wJob (job (jrec 1 0 63 4 0 0) []) ⟨2, 1, 1, false, 4, zeros 32, zeros 32⟩, _, 0, 15, job (jrec 1 0 63 4 0 0) [], by decide +kernel, rfl, by decide +kernel⟩,
   ⟨wJob (job (jrec 16 1 63 4 0 0) []) KeySlot.empty, _, 0, 15, job (jrec 16 1 63 4 0 0) [], by decide +kernel, rfl, by decide +kernel⟩,
   ⟨{ wOn.wr A.pkeStatus 0xFFFF with pke := { wOn.pke with cores := modAt wOn.pke.cores 15 (fun _ => ⟨none, 0, [job (jrec 1 0 0xFF 4 0 0) (zeros 32)]⟩) } }, _, 0, 15, job (jrec 1 0 0xFF 4 0 0) (zeros 32), [], by decide +kernel, rfl, by decide +kernel⟩,
   ⟨{ wCore (job (jrec 1 0 0xFF 4 0 0) (zeros 32)) with pke := { (wCore (job (jrec 1 0 0xFF 4 0 0) (zeros 32))).pke with queue := [{ job (jrec 1 0 0xFF 4 0 0) (zeros 32) with urgent := true }] } }, _, 0, 15, job (jrec 1 0 0xFF 4 0 0) (zeros 32), { job (jrec 1 0 0xFF 4 0 0) (zeros 32) with urgent := true }, by decide +kernel, rfl, by decide +kernel⟩,
   ⟨wJob (job (jrec 1 0 0xFF 4 0 0) (zeros 32)) KeySlot.empty, _, 0, by decide +kernel, rfl⟩,
   ⟨{ wCore ({ job (jrec 1 0 0xFF 4 0 0) (zeros 32) with result := some (0, 0, zeros 64) }) with ts := { wOn.ts with cycles := 100000 } }, _, 0, 15, 0, 0, { job (jrec 1 0 0xFF 4 0 0) (zeros 32) with result := some (0, 0, zeros 64) }, zeros 64, by decide +kernel, rfl, by decide +kernel⟩,
   ⟨{ wCore ({ job (jrec 17 1 63 4 0 0) (zeros 32) with result := some (0, 0, zeros 32) }) with ts := { wOn.ts with cycles := 100000 } }, _, 0, 15, 0, { job (jrec 17 1 63 4 0 0) (zeros 32) with result := some (0, 0, zeros 32) }, zeros 32, by decide +kernel, rfl, by decide +kernel⟩,
   ⟨{ wCore ({ job (jrec 1 0 0xFF 4 0 0) (zeros 32) with result := some (0, 0, zeros 64) }) with ts := { wOn.ts with cycles := 100000 } }, _, 0, 15, 0, 0, { job (jrec 1 0 0xFF 4 0 0) (zeros 32) with result := some (0, 0, zeros 64) }, zeros 64, by decide +kernel, rfl, by decide +kernel⟩,
   ⟨{ wCore ({ job (jrec 1 0 0xFF 4 0 9) (zeros 32) with ring := some (5, 0) }) with pke := { (wCore ({ job (jrec 1 0 0xFF 4 0 9) (zeros 32) with ring := some (5, 0) })).pke with queue := [{ job (jrec 1 0 0xFF 4 0 9) (zeros 32) with ring := some (5, 0) }] } }, _, 0, 0, 9, 0xFFFFFFF6, by decide +kernel, rfl, by decide +kernel⟩,
   ⟨wJob (job (jrec 0x12 0 63 0 0 0) []) ⟨2, 1, 1, false, 4, zeros 32, zeros 32⟩, _, 0, job (jrec 0x12 0 63 0 0 0) [], by decide +kernel, rfl, by decide +kernel⟩,
   ⟨wJob (job (jrec 0x13 0 63 0 0 0) []) ⟨2, 1, 1, false, 4, zeros 32, zeros 32⟩, _, 0, job (jrec 0x13 0 63 0 0 0) [], by decide +kernel, rfl, by decide +kernel⟩,
   ⟨wCore (job (jrec 16 0x21 63 32 0 0) []), _, 0, 15, 3, 8, job (jrec 16 0x21 63 32 0 0) [], by decide +kernel, rfl, by decide +kernel⟩,
   ⟨{ wOn.wr A.pkeTrngSrc 0x5555 with ts := { wOn.ts with cycles := 100000 } }, _, 0, by decide +kernel, rfl, by decide +kernel⟩,
   ⟨wOn.wr A.pkeTrngSrc 0x5555, _, 0, 7, true, by decide +kernel, rfl, by decide +kernel⟩,
   ⟨{ wOn.wr A.pkeTrngSrc 0xAAAA with pke := { wOn.pke with srcRetest := modAt wOn.pke.srcRetest 7 (fun _ => some 0) } }, _, 0, 7, 0, by decide +kernel, rfl, by decide +kernel⟩,
   ⟨{ wOn.wr A.pkeTrngSrc 0xAAAA with pke := { wOn.pke with srcRetest := modAt wOn.pke.srcRetest 7 (fun _ => some 0) } }, _, 0, 7, 0, by decide +kernel, rfl, by decide +kernel⟩⟩

theorem test_fence_commands_complete :
    (∃ (s u : State) (dt src kind unit : Nat) (c : Word), s.canonical = true ∧ u = (s.advance dt).dueFirst ∧
      u.takesPair src A.glbFenceCmd (word (1 + kind % 16 * 16 + unit % 32 * 256)) c ∧
      kind < 6 ∧
      unit < unitCount kind ∧
      u.testing = none) ∧
    (∃ (s u : State) (dt src kind unit : Nat) (c : Word), s.canonical = true ∧ u = (s.advance dt).dueFirst ∧
      u.takesPair src A.glbFenceCmd (word (2 + kind % 16 * 16 + unit % 32 * 256)) c ∧
      kind < 6 ∧
      unit < unitCount kind ∧
      u.testing = none ∧
      u.fenced kind unit = true ∧
      u.parityFenced kind unit = false) ∧
    (∃ (s u : State) (dt kind unit : Nat), s.canonical = true ∧ u = s.advance dt ∧
      kind < 6 ∧
      unit < unitCount kind ∧
      u.testing = some (kind, unit) ∧
      u.fenced kind unit = true) ∧
    (∃ (s u : State) (dt kind unit : Nat), s.canonical = true ∧ u = s.advance dt ∧
      kind < 6 ∧
      unit < unitCount kind ∧
      u.testing = some (kind, unit) ∧
      u.fenced kind unit = true) ∧
    (∃ (s u : State) (dt kind unit : Nat), s.canonical = true ∧ u = s.advance dt ∧
      unit < unitCount kind ∧
      u.testing ≠ some (kind, unit) ∧
      u.ts.meas ≤ u.pwr.testUntil ∧
      (kind = 4 ∧ u.domainOn 5 = true ∨ kind = 5 ∧ u.domainOn 6 = true)) :=
  ⟨⟨wOn, _, 0, 0, 3, 15, ~~~(word (1 + 3 * 16 + 15 * 256)), by decide +kernel, rfl, by decide +kernel⟩,
   ⟨wOn.setBit (fenceBit 0 0).1 (fenceBit 0 0).2 true, _, 0, 0, 0, 0, ~~~(word 2), by decide +kernel, rfl, by decide +kernel⟩,
   ⟨{ wOn.setBit (fenceBit 5 15).1 (fenceBit 5 15).2 true with testing := some (5, 15) }, _, 0, 5, 15, by decide +kernel, rfl, by decide +kernel⟩,
   ⟨{ wOn.setBit (fenceBit 2 0).1 (fenceBit 2 0).2 true with testing := some (2, 0) }, _, 0, 2, 0, by decide +kernel, rfl, by decide +kernel⟩,
   ⟨wOn, _, 0, 4, 19, by decide +kernel, rfl, by decide +kernel⟩⟩

theorem test_host_queues_complete :
    (∃ (s u : State) (dt : Nat), s.canonical = true ∧ u = (s.advance dt).dueFirst ∧
      u.hif.dbOutstanding = false ∧
      u.dbWanted = true) ∧
    (∃ (s u : State) (dt : Nat), s.canonical = true ∧ u = (s.advance dt).dueFirst ∧
      u.hif.dbOutstanding = true) ∧
    (∃ (s u : State) (dt : Nat), s.canonical = true ∧ u = s.advance dt ∧
      u.hif.dbOutstanding = true ∧
      u.hif.dbAgain = false) ∧
    (∃ (s u : State) (dt : Nat) (w : DoorbellWord) (x : FetchedDesc), s.canonical = true ∧ u = s.advance dt ∧
      u.hif.dbOutstanding = true ∧
      u.hif.dbAgain = false ∧
      w.ring < u.hif.rings.length ∧
      w.ring < 256 ∧
      w.descs = [x] ∧
      w.readFailed = false ∧
      u.ringType w.ring ≠ 3 ∧
      u.ringType w.ring ≠ 4 ∧
      u.ringType w.ring ≠ 7 ∧
      u.ringState w.ring = 1 ∧
      (w.prod + 2 ^ 32 - w.cons % 2 ^ 32) % 2 ^ 32 ≤ u.ringEntries w.ring ∧
      ((u.ring w.ring).posted + 2 ^ 32 - w.cons % 2 ^ 32) % 2 ^ 32 < 2 ^ 31 ∧
      (w.prod % 2 ^ 32 + 2 ^ 32 - (u.ring w.ring).fetched % 2 ^ 32) % 2 ^ 32 ≠ 0) ∧
    (∃ (s u : State) (dt ring : Nat) (d : Desc) (l : List Desc) (x : Bytes), s.canonical = true ∧ u = s.advance dt ∧
      ring < 256 ∧
      u.ringType ring = 1 ∧
      u.ringState ring = 1 ∧
      (u.ring ring).waiting = d :: l ∧
      d.ctl % 8 < u.ports.links.length ∧
      u.linkExists (d.ctl % 8) = true ∧
      u.linkUp (d.ctl % 8) = true ∧
      max d.len 60 + 4 ≤ u.maxFrame (d.ctl % 8) 1) ∧
    (∃ (s u : State) (dt : Nat), s.canonical = true ∧ u = s.advance dt) ∧
    (∃ (s u : State) (dt ring : Nat) (b : Desc) (l : List Desc), s.canonical = true ∧ u = s.advance dt ∧
      ring < 256 ∧
      ring < u.hif.rings.length ∧
      u.ringType ring = 3 ∧
      u.ringState ring = 1 ∧
      (u.ring ring).waiting = b :: l ∧
      (u.ring ring).fill ≠ 0 ∧
      (u.ring ring).fillSince + u.ringFlush ring * 1000 * 2 ^ 48 ≤ u.ts.meas) ∧
    (∃ (s u : State) (dt ring : Nat) (d : Desc) (l : List Desc) (data : Bytes) (ok : Bool), s.canonical = true ∧ u = s.advance dt ∧
      ring < 256 ∧
      u.ringType ring = 6 ∧
      u.ringLive ring = true ∧
      u.xferRunning ring = false ∧
      (u.ring ring).waiting = d :: l ∧
      regionOk (d.ctl / 2 % 8) d.arg d.len = true ∧
      d.ctl.testBit 0 = false ∧
      (u.startWork ring).2.regionBusy (d.ctl / 2 % 8) false = false) ∧
    (∃ (s u : State) (dt ring : Nat) (d : Desc) (l : List Desc) (data : Bytes), s.canonical = true ∧ u = s.advance dt ∧
      ring < 256 ∧
      u.ringType ring = 6 ∧
      u.ringLive ring = true ∧
      u.xferRunning ring = false ∧
      (u.ring ring).waiting = d :: l ∧
      regionOk (d.ctl / 2 % 8) d.arg d.len = true ∧
      d.ctl.testBit 0 = true ∧
      d.ctl / 2 % 8 = 1 ∧
      u.fw.checking = none ∧
      ((u.startWork ring).2.regionWrite 1 d.arg (slice data 0 d.len)).imageComplete = false) ∧
    (∃ (s u : State) (dt ring n : Nat) (d : Desc) (data : Bytes) (ok flash : Bool), s.canonical = true ∧ u = s.advance dt ∧
      ring < 256 ∧
      u.fw.checking = some (.ring n d)) ∧
    (∃ (s u : State) (dt v : Nat), s.canonical = true ∧ u = s.advance dt ∧
      v < 64 ∧
      v < u.hif.vecs.length ∧
      u.vecTime v ≠ 0 ∧
      (u.hif.vecs.getD v ⟨0, 0, false⟩).items ≠ 0 ∧
      (u.hif.vecs.getD v ⟨0, 0, false⟩).since + u.vecTime v * 1000 * 2 ^ 48 ≤ u.ts.meas ∧
      u.vecMasked v = false) ∧
    (∃ (s u : State) (dt v : Nat), s.canonical = true ∧ u = s.advance dt ∧
      v < 64 ∧
      v < u.hif.vecs.length ∧
      u.vecTime v ≠ 0 ∧
      (u.hif.vecs.getD v ⟨0, 0, false⟩).items ≠ 0 ∧
      (u.hif.vecs.getD v ⟨0, 0, false⟩).since + u.vecTime v * 1000 * 2 ^ 48 ≤ u.ts.meas ∧
      u.vecMasked v = true) ∧
    (∃ (s u : State) (dt : Nat), s.canonical = true ∧ u = s.advance dt) ∧
    (∃ (s u : State) (dt ring : Nat), s.canonical = true ∧ u = s.advance dt ∧
      ring < 256 ∧
      u.ringState ring = 2 ∧
      (u.ring ring).waiting = [] ∧
      (u.ring ring).started = []) ∧
    (∃ (s u : State) (dt cause : Nat), s.canonical = true ∧ u = s.advance dt ∧
      cause < 5 ∧
      u.hif.attached = true) ∧
    (∃ (s u : State) (dt speed width : Nat), s.canonical = true ∧ u = s.advance dt ∧
      speed < 8 ∧
      width < 32) ∧
    (∃ (s u : State) (dt m : Nat), s.canonical = true ∧ u = s.advance dt ∧
      u.hif.trainAt = some m ∧
      u.hif.attached = false ∧
      10 * 1000000000 * 2 ^ 48 + m ≤ u.ts.meas) ∧
    (∃ (s u : State) (dt : Nat), s.canonical = true ∧ u = s.advance dt) :=
  ⟨⟨{ (wOn.wr A.hifDbAddrLo 4096).wr (A.hifRingCfg 255) 8 with hif := { wOn.hif with attached := true } }, _, 0, by decide +kernel, rfl, by decide +kernel⟩,
   ⟨{ wOn with hif := { wOn.hif with dbOutstanding := true } }, _, 0, by decide +kernel, rfl, by decide +kernel⟩,
   ⟨{ wOn with hif := { wOn.hif with dbOutstanding := true } }, _, 0, by decide +kernel, rfl, by decide +kernel⟩,
   ⟨{ (wOn.wr (A.hifRingCfg 255) 9).wr (A.hifRingState 255) 1 with hif := { wOn.hif with dbOutstanding := true, attached := true } }, _, 0, ⟨255, 1, 0, [⟨zeros 32, none, none⟩], false⟩, ⟨zeros 32, none, none⟩, by decide +kernel, rfl, by decide +kernel⟩,
   ⟨(((wRing 9 (desc 60 7 0)).wr (A.macLinkStatus 7) 1).wr (A.macPortCfg 1) 0x3E).wr (A.macStatus 1) 2, _, 0, 5, desc 60 7 0, [], zeros 60, by decide +kernel, rfl, by decide +kernel⟩,
   ⟨{ wOn.setLink 7 (fun l => { l with queue := [⟨zeros 60, some (5, 0, 0), none⟩] }) with ts := { wOn.ts with meas := 100000000 * 2 ^ 48 } }, _, 0, by decide +kernel, rfl⟩,
   ⟨((wRing 3 (desc 4096 0 0)).setRing 5 (fun r => { r with fill := 64 })).wr (A.hifRingFlush 5) 0, _, 0, 5, desc 4096 0 0, [], by decide +kernel, rfl, by decide +kernel⟩,
   ⟨wRing 6 (desc 64 2 0), _, 0, 5, desc 64 2 0, [], [], true, by decide +kernel, rfl, by decide +kernel⟩,
   ⟨wRing 6 (desc 64 3 0), _, 0, 5, desc 64 3 0, [], zeros 64, by decide +kernel, rfl, by decide +kernel⟩,
   ⟨{ wRing 6 (desc 64 3 0) with fw := { wOn.fw with checking := some (.ring 5 (desc 64 3 0)) } }, _, 0, 5, 5, desc 64 3 0, [], true, true, by decide +kernel, rfl, by decide +kernel⟩,
   ⟨{ wOn.wr (A.hifVec 63) 0x10000 with hif := { wOn.hif with vecs := modAt wOn.hif.vecs 63 (fun x => { x with items := 2 }) }, ts := { wOn.ts with meas := 1000 * 2 ^ 48 }, msix := List.replicate 256 0 }, _, 0, 63, by decide +kernel, rfl, by decide +kernel⟩,
   ⟨{ wOn.wr (A.hifVec 63) 0x10000 with hif := { wOn.hif with vecs := modAt wOn.hif.vecs 63 (fun x => { x with items := 2 }) }, ts := { wOn.ts with meas := 1000 * 2 ^ 48 } }, _, 0, 63, by decide +kernel, rfl, by decide +kernel⟩,
   ⟨{ wOn with hif := { wOn.hif with coalesce := [⟨0, A.hifEvent, 0, true⟩] } }, _, 0, by decide +kernel, rfl⟩,
   ⟨wOn.wr (A.hifRingState 255) 2, _, 0, 255, by decide +kernel, rfl, by decide +kernel⟩,
   ⟨{ wRing 9 (desc 60 7 0) with hif := { (wRing 9 (desc 60 7 0)).hif with attached := true } }, _, 0, 4, by decide +kernel, rfl, by decide +kernel⟩,
   ⟨wOn, _, 0, 5, 16, by decide +kernel, rfl, by decide +kernel⟩,
   ⟨{ wOn with hif := { wOn.hif with trainAt := some 0 }, ts := { wOn.ts with meas := 10000000000 * 2 ^ 48 } }, _, 0, 0, by decide +kernel, rfl, by decide +kernel⟩,
   ⟨wOn, _, 0, by decide +kernel, rfl⟩⟩

theorem test_session_messages_complete :
    (∃ (s u : State) (dt i : Nat) (fp : Bytes) (is : List Bytes) (nb na : Int), s.canonical = true ∧ u = s.advance dt ∧
      u.domainOn 15 = true ∧
      u.hol.keepAlive = false ∧
      u.mainPower = true ∧
      (u.celen.trust = [] ∨ is.any (fun c => u.celen.trust.contains c) = true) ∧
      ((1 ≤ u.tscMode ∧ u.tscMode ≤ 3 → nb ≤ u.utcNow ∧ u.utcNow ≤ na)) ∧
      u.celen.sessions.length = 4 ∧
      u.freeSession = some i) ∧
    (∃ (s u : State) (dt i : Nat) (x : Session), s.canonical = true ∧ u = s.advance dt ∧
      1 ≤ i ∧
      i < 5 ∧
      u.session i = some x ∧
      x.lastMsg + secs 300 ≤ u.ts.meas) ∧
    (∃ (s u : State) (dt i : Nat) (alert : Bool), s.canonical = true ∧ u = s.advance dt ∧
      1 ≤ i ∧
      i < 5 ∧
      (u.session i).isSome = true) ∧
    (∃ (s u : State) (dt i : Nat) (x : Session) (m : MpMsg), s.canonical = true ∧ u = s.advance dt ∧
      1 ≤ i ∧
      i < 5 ∧
      u.session i = some x ∧
      m.magic = 0x434C ∧
      m.version = 1 ∧
      m.len = m.body.length ∧
      m.len ≤ 65600 ∧
      m.body.length = 4) ∧
    (∃ (s u : State) (dt i : Nat) (x : Session) (m : MpMsg), s.canonical = true ∧ u = s.advance dt ∧
      1 ≤ i ∧
      i < 5 ∧
      u.session i = some x ∧
      m.magic = 0x434C ∧
      m.version = 1 ∧
      m.len = m.body.length ∧
      m.len ≤ 65600 ∧
      x.hello = true ∧
      m.body.length = 8 ∧
      beAt m.body 5 1 < 16 ∧
      beAt m.body 6 2 = 0 ∧
      u.rangeBad (beAt m.body 0 4) (beAt m.body 4 1) = false) ∧
    (∃ (s u : State) (dt i g : Nat) (x : Session) (m : MpMsg), s.canonical = true ∧ u = (s.advance dt).dueFirst ∧
      1 ≤ i ∧
      i < 5 ∧
      u.session i = some x ∧
      m.magic = 0x434C ∧
      m.version = 1 ∧
      m.len = m.body.length ∧
      m.len ≤ 65600 ∧
      x.hello = true ∧
      u.celen.recovery = false ∧
      m.body.length = 12 ∧
      beAt m.body 4 1 = 1 ∧
      beAt m.body 5 1 = 15 ∧
      beAt m.body 6 2 = 0 ∧
      u.rangeBad (beAt m.body 0 4) 1 = false ∧
      groupOf (beAt m.body 0 4) = some g ∧
      (u.view (.session i)).pair = none) ∧
    (∃ (s u : State) (dt i : Nat) (x : Session) (m : MpMsg), s.canonical = true ∧ u = s.advance dt ∧
      1 ≤ i ∧
      i < 5 ∧
      u.session i = some x ∧
      m.magic = 0x434C ∧
      m.version = 1 ∧
      m.len = m.body.length ∧
      m.len ≤ 65600 ∧
      x.hello = true ∧
      m.body.length = 4 ∧
      (beAt m.body 0 4) % 8 = 0 ∧
      u.rangeBad (beAt m.body 0 4) 2 = false) ∧
    (∃ (s u : State) (dt i : Nat) (x : Session) (m : MpMsg), s.canonical = true ∧ u = s.advance dt ∧
      1 ≤ i ∧
      i < 5 ∧
      u.session i = some x ∧
      m.magic = 0x434C ∧
      m.version = 1 ∧
      m.len = m.body.length ∧
      m.len ≤ 65600 ∧
      x.hello = true ∧
      u.celen.recovery = false ∧
      m.body.length = 12 ∧
      beAt m.body 4 1 < 8 ∧
      beAt m.body 5 3 = 0) ∧
    (∃ (s u : State) (dt i : Nat) (x : Session) (m : MpMsg), s.canonical = true ∧ u = s.advance dt ∧
      1 ≤ i ∧
      i < 5 ∧
      u.session i = some x ∧
      m.magic = 0x434C ∧
      m.version = 1 ∧
      m.len = m.body.length ∧
      m.len ≤ 65600 ∧
      x.hello = true ∧
      u.celen.recovery = false ∧
      m.body.length = 0) ∧
    (∃ (s u : State) (dt i : Nat) (x : Session) (m : MpMsg) (l : List JRecord), s.canonical = true ∧ u = s.advance dt ∧
      1 ≤ i ∧
      i < 5 ∧
      u.session i = some x ∧
      m.magic = 0x434C ∧
      m.version = 1 ∧
      m.len = m.body.length ∧
      m.len ≤ 65600 ∧
      x.hello = true ∧
      m.body.length = 8 ∧
      1 ≤ beAt m.body 4 2 ∧
      beAt m.body 4 2 ≤ 256 ∧
      beAt m.body 6 2 = 0 ∧
      l = (u.journal.records.reverse.filter (fun r => decide (beAt m.body 0 4 ≤ r.seq))).take (beAt m.body 4 2)) ∧
    (∃ (s u : State) (dt i : Nat) (x : Session) (m : MpMsg), s.canonical = true ∧ u = s.advance dt ∧
      1 ≤ i ∧
      i < 5 ∧
      u.session i = some x ∧
      m.magic = 0x434C ∧
      m.version = 1 ∧
      m.len = m.body.length ∧
      m.len ≤ 65600 ∧
      x.hello = true ∧
      u.celen.recovery = false ∧
      16 ≤ m.body.length ∧
      beAt m.body 2 2 = 0 ∧
      (beAt m.body 4 8) % 64 = 0 ∧
      (beAt m.body 12 4) % 64 = 0 ∧
      1 ≤ beAt m.body 12 4 ∧
      beAt m.body 12 4 ≤ 65536 ∧
      regionOk (beAt m.body 0 1) (beAt m.body 4 8) (beAt m.body 12 4) = true ∧
      beAt m.body 1 1 = 0 ∧
      m.body.length = 16 ∧
      u.regionBusy (beAt m.body 0 1) false = false) ∧
    (∃ (s u : State) (dt i : Nat) (x : Session) (m : MpMsg), s.canonical = true ∧ u = s.advance dt ∧
      1 ≤ i ∧
      i < 5 ∧
      u.session i = some x ∧
      m.magic = 0x434C ∧
      m.version = 1 ∧
      m.len = m.body.length ∧
      m.len ≤ 65600 ∧
      x.hello = true ∧
      u.celen.recovery = false ∧
      16 ≤ m.body.length ∧
      beAt m.body 2 2 = 0 ∧
      (beAt m.body 4 8) % 64 = 0 ∧
      (beAt m.body 12 4) % 64 = 0 ∧
      1 ≤ beAt m.body 12 4 ∧
      beAt m.body 12 4 ≤ 65536 ∧
      regionOk (beAt m.body 0 1) (beAt m.body 4 8) (beAt m.body 12 4) = true ∧
      beAt m.body 0 1 = 1 ∧
      beAt m.body 1 1 = 1 ∧
      m.body.length = 16 + beAt m.body 12 4 ∧
      u.fw.checking = none ∧
      (u.regionWrite 1 (beAt m.body 4 8) (m.body.drop 16)).imageComplete = false) ∧
    (∃ (s u : State) (dt i k tag : Nat) (m : MpMsg) (ok : Bool), s.canonical = true ∧ u = s.advance dt ∧
      1 ≤ i ∧
      i < 5 ∧
      u.fw.checking = some (.session k tag)) ∧
    (∃ (s u : State) (dt i : Nat) (x : Session) (m : MpMsg), s.canonical = true ∧ u = s.advance dt ∧
      1 ≤ i ∧
      i < 5 ∧
      u.session i = some x ∧
      m.magic = 0x434C ∧
      m.version = 1 ∧
      m.len = m.body.length ∧
      m.len ≤ 65600 ∧
      x.hello = true ∧
      u.celen.recovery = false ∧
      m.body.length = 44 ∧
      beAt m.body 0 1 < 16 ∧
      beAt m.body 3 1 = 0) ∧
    (∃ (s u : State) (dt i : Nat) (x : Session) (m : MpMsg) (l : List Bytes), s.canonical = true ∧ u = s.advance dt ∧
      1 ≤ i ∧
      i < 5 ∧
      u.session i = some x ∧
      m.magic = 0x434C ∧
      m.version = 1 ∧
      m.len = m.body.length ∧
      m.len ≤ 65600 ∧
      x.hello = true ∧
      u.celen.recovery = false ∧
      4 ≤ m.body.length ∧
      beAt m.body 0 1 ≤ 8 ∧
      beAt m.body 1 3 = 0 ∧
      certList (beAt m.body 0 1) (m.body.drop 4) = some (l, [])) ∧
    (∃ (s u : State) (dt i : Nat) (x : Session) (m : MpMsg), s.canonical = true ∧ u = s.advance dt ∧
      1 ≤ i ∧
      i < 5 ∧
      u.session i = some x ∧
      m.magic = 0x434C ∧
      m.version = 1 ∧
      m.len = m.body.length ∧
      m.len ≤ 65600 ∧
      x.hello = true ∧
      m.body.length = 0) :=
  ⟨⟨wOn.wr A.pwrStatus 1, _, 0, 1, [9], [], 0, 0, by decide +kernel, rfl, by decide +kernel⟩,
   ⟨{ wSess id wOn with ts := { wOn.ts with meas := secs 300 } }, _, 0, 4, ⟨[1], true, none, 0, none⟩, by decide +kernel, rfl, by decide +kernel⟩,
   ⟨wSess id wOn, _, 0, 4, true, by decide +kernel, rfl, by decide +kernel⟩,
   ⟨wSess id wOn, _, 0, 4, ⟨[1], true, none, 0, none⟩, mpMsg (zeros 4), by decide +kernel, rfl, by decide +kernel⟩,
   ⟨wSess id wOn, _, 0, 4, ⟨[1], true, none, 0, none⟩, mpMsg (be 4 0x8030 ++ [2, 15, 0, 0]), by decide +kernel, rfl, by decide +kernel⟩,
   ⟨wSess id wOn, _, 0, 4, 4, ⟨[1], true, none, 0, none⟩, mpMsg (be 4 A.refCtl ++ [1, 15, 0, 0] ++ be 4 9), by decide +kernel, rfl, by decide +kernel⟩,
   ⟨wSess id wOn, _, 0, 4, ⟨[1], true, none, 0, none⟩, mpMsg (be 4 0x8030), by decide +kernel, rfl, by decide +kernel⟩,
   ⟨wSess id wOn, _, 0, 4, ⟨[1], true, none, 0, none⟩, mpMsg (be 4 0x1FFFFF ++ [7, 0, 0, 0] ++ zeros 4), by decide +kernel, rfl, by decide +kernel⟩,
   ⟨wSess id wOn, _, 0, 4, ⟨[1], true, none, 0, none⟩, mpMsg ([]), by decide +kernel, rfl, by decide +kernel⟩,
   ⟨wSess id wOn, _, 0, 4, ⟨[1], true, none, 0, none⟩, mpMsg (zeros 4 ++ [0, 9, 0, 0]), [], by decide +kernel, rfl, by decide +kernel⟩,
   ⟨wSess id wOn, _, 0, 4, ⟨[1], true, none, 0, none⟩, mpMsg ([1, 0, 0, 0] ++ be 8 0 ++ be 4 64), by decide +kernel, rfl, by decide +kernel⟩,
   ⟨wSess id wOn, _, 0, 4, ⟨[1], true, none, 0, none⟩, mpMsg ([1, 1, 0, 0] ++ be 8 64 ++ be 4 64 ++ zeros 64), by decide +kernel, rfl, by decide +kernel⟩,
   ⟨{ wSess id wOn with fw := { wOn.fw with checking := some (.session 4 7) } }, _, 0, 4, 4, 7, mpMsg [], false, by decide +kernel, rfl, by decide +kernel⟩,
   ⟨wSess id wOn, _, 0, 4, ⟨[1], true, none, 0, none⟩, mpMsg (zeros 44), by decide +kernel, rfl, by decide +kernel⟩,
   ⟨wSess id wOn, _, 0, 4, ⟨[1], true, none, 0, none⟩, mpMsg ([1, 0, 0, 0] ++ [0, 2, 5, 6]), [[5, 6]], by decide +kernel, rfl, by decide +kernel⟩,
   ⟨wSess id wOn, _, 0, 4, ⟨[1], true, none, 0, none⟩, mpMsg ([]), by decide +kernel, rfl, by decide +kernel⟩⟩

theorem test_supply_events_complete :
    (∃ (s u : State) (dt i : Nat) (m : PowerSense), s.canonical = true ∧ u = s.advance dt ∧
      i < 4 ∧
      u.bit A.pwrStatus i = false ∧
      (u.showSense m).inputRated i = true) ∧
    (∃ (s u : State) (dt i : Nat) (m : PowerSense), s.canonical = true ∧ u = s.advance dt ∧
      i < 4 ∧
      u.bit A.pwrStatus i = true) ∧
    (∃ (s u : State) (dt : Nat), s.canonical = true ∧ u = s.advance dt ∧
      u.mainPower = false ∧
      u.domainOn 15 = true ∧
      u.hol.keepAlive = false ∧
      u.bit A.pwrStatus 3 = true) ∧
    (∃ (s u : State) (dt : Nat), s.canonical = true ∧ u = s.advance dt ∧
      u.mainPower = false ∧
      u.domainOn 15 = true ∧
      u.hol.keepAlive = false ∧
      u.bit A.pwrStatus 3 = false) ∧
    (∃ (s u : State) (dt : Nat), s.canonical = true ∧ u = s.advance dt ∧
      u.hol.keepAlive = true) ∧
    (∃ (s u : State) (dt : Nat) (m : PowerSense), s.canonical = true ∧ u = s.advance dt ∧
      u.thermWarn ≤ m.tZafel ∧
      u.bit A.pwrStatus 4 = false) ∧
    (∃ (s u : State) (dt : Nat) (m : PowerSense), s.canonical = true ∧ u = s.advance dt ∧
      1150 ≤ m.tZafel ∧
      (u.f A.bootStatus 4 2 = 1 ∨ u.boot.at_.isSome = true)) ∧
    (∃ (s u : State) (dt : Nat), s.canonical = true ∧ u = s.advance dt ∧
      u.pwr.driven = true) ∧
    (∃ (s u : State) (dt c e : Nat), s.canonical = true ∧ u = s.advance dt ∧
      c < 2 ∧
      u.pwr.alarmEnd.getD c none = some e ∧
      e ≤ u.ts.meas ∧
      u.alarmed c = false) ∧
    (∃ (s u : State) (dt m : Nat), s.canonical = true ∧ u = s.advance dt ∧
      u.pwr.noSelAt = some m ∧
      2000000000 * 2 ^ 48 + m ≤ u.ts.meas ∧
      u.sel = 0xFF) :=
  ⟨⟨wOn, _, 0, 3, sense 400, by decide +kernel, rfl, by decide +kernel⟩,
   ⟨wOn.wr A.pwrStatus 0xF, _, 0, 3, sense 400, by decide +kernel, rfl, by decide +kernel⟩,
   ⟨wOn.wr A.pwrStatus 8, _, 0, by decide +kernel, rfl, by decide +kernel⟩,
   ⟨wOn.wr A.pwrStatus 0, _, 0, by decide +kernel, rfl, by decide +kernel⟩,
   ⟨{ wOn with hol := { wOn.hol with keepAlive := true } }, _, 0, by decide +kernel, rfl, by decide +kernel⟩,
   ⟨wOn, _, 0, sense 1300, by decide +kernel, rfl, by decide +kernel⟩,
   ⟨wOn.wr A.bootStatus 0x10, _, 0, sense 1150, by decide +kernel, rfl, by decide +kernel⟩,
   ⟨{ wOn with pwr := { wOn.pwr with driven := true } }, _, 0, by decide +kernel, rfl, by decide +kernel⟩,
   ⟨{ wOn with pwr := { wOn.pwr with driven := true, alarmEnd := [none, some 0] } }.wr A.pwrAlm1Mask 0, _, 0, 1, 0, by decide +kernel, rfl, by decide +kernel⟩,
   ⟨{ wOn with pwr := { wOn.pwr with noSelAt := some 0 }, ts := { wOn.ts with meas := 2000000000 * 2 ^ 48 } }, _, 0, 0, by decide +kernel, rfl, by decide +kernel⟩⟩

theorem test_starts_complete :
    (∃ (s u : State) (dt : Nat), s.canonical = true ∧ u = s.advance dt ∧
      u.mainPower = true ∧
      u.domainOn 7 = false ∧
      u.boot.at_ = none ∧
      u.f A.bootStatus 4 2 ≠ 2) ∧
    (∃ (s u : State) (dt : Nat) (p : StartPoint), s.canonical = true ∧ u = s.advance dt ∧
      u.boot.at_ = some p ∧
      p.since + startLimit p.step * 1000000 * 2 ^ 48 ≤ u.ts.meas ∧
      (p.step = 1 ∨ p.step = 5 ∨ p.step = 6)) ∧
    (∃ (s u : State) (dt : Nat) (p : StartPoint), s.canonical = true ∧ u = s.advance dt ∧
      u.boot.at_ = some p ∧
      p.since + startLimit p.step * 1000000 * 2 ^ 48 ≤ u.ts.meas ∧
      (p.step = 3 ∨ p.step = 8) ∧
      p.failed = 0) ∧
    (∃ (s u : State) (dt : Nat) (p : StartPoint), s.canonical = true ∧ u = s.advance dt ∧
      u.boot.at_ = some p ∧
      p.since + startLimit p.step * 1000000 * 2 ^ 48 ≤ u.ts.meas ∧
      (p.step = 2 ∨ p.step = 7 ∨ p.step = 9 ∨ p.step = 11)) ∧
    (∃ (s u : State) (dt m : Nat), s.canonical = true ∧ u = s.advance dt ∧
      u.boot.retryAt = some m ∧
      m ≤ u.ts.meas ∧
      u.f A.bootStatus 4 2 = 2) ∧
    (∃ (s u : State) (dt m : Nat), s.canonical = true ∧ u = s.advance dt ∧
      u.boot.stableAt = some m ∧
      m ≤ u.ts.meas) ∧
    (∃ (s u : State) (dt src : Nat) (c : Word), s.canonical = true ∧ u = (s.advance dt).dueFirst ∧
      u.takesPair src A.pwrResetCmd 1 c) ∧
    (∃ (s u : State) (dt src m : Nat) (c : Word), s.canonical = true ∧ u = s.advance dt ∧
      src < 5 ∧
      u.pwr.resetAt = some m ∧
      m ≤ u.ts.meas) ∧
    (∃ (s u : State) (dt src : Nat) (c : Word), s.canonical = true ∧ u = (s.advance dt).dueFirst ∧
      u.takesPair src A.pwrResetCmd 2 c) ∧
    (∃ (s u : State) (dt src k : Nat) (c : Word) (ok : List Bool), s.canonical = true ∧ u = s.advance dt ∧
      src < 5 ∧
      u.boot.mgmt = some k ∧
      ok.getD 0 false = true) ∧
    (∃ (s u : State) (dt : Nat), s.canonical = true ∧ u = s.advance dt) ∧
    (∃ (s u : State) (dt k : Nat) (ok : List Bool), s.canonical = true ∧ u = s.advance dt ∧
      u.boot.mgmt = some k ∧
      ok.getD 0 false = true) ∧
    (∃ (s u : State) (dt : Nat), s.canonical = true ∧ u = s.advance dt ∧
      (u.f A.bootStatus 4 2 = 1 ∨ u.boot.at_.isSome = true)) ∧
    (∃ (s u : State) (dt : Nat) (m : PowerSense), s.canonical = true ∧ u = s.advance dt ∧
      u.f A.bootStatus 4 2 = 2 ∧
      u.f A.bootStatus 8 8 = 0xB ∧
      m.tZafel < 950 ∧
      (u.showSense m).pwr.hotAt + secs 60 ≤ u.ts.meas) ∧
    (∃ (s u : State) (dt src : Nat) (c : Word), s.canonical = true ∧ u = (s.advance dt).dueFirst ∧
      u.takesPair src A.bootCmd 1 c) ∧
    (∃ (s u : State) (dt src : Nat) (c : Word) (k : ConfigCopy), s.canonical = true ∧ u = s.advance dt ∧
      src < 5 ∧
      u.boot.storing = some k) ∧
    (∃ (s u : State) (dt src : Nat) (c : Word) (k : ConfigCopy), s.canonical = true ∧ u = s.advance dt ∧
      src < 5 ∧
      u.boot.storing = some k) ∧
    (∃ (s u : State) (dt src : Nat) (c : Word), s.canonical = true ∧ u = (s.advance dt).dueFirst ∧
      u.takesPair src A.bootCmd 2 c) ∧
    (∃ (s u : State) (dt src : Nat) (c : Word), s.canonical = true ∧ u = (s.advance dt).dueFirst ∧
      u.takesPair src A.bootCmd 3 c) :=
  ⟨⟨State.reset.wr A.pwrStatus 1, _, 0, by decide +kernel, rfl, by decide +kernel⟩,
   ⟨{ wOn with boot := { wOn.boot with at_ := some ⟨6, 0, 0, 0, 1⟩ }, ts := { wOn.ts with meas := 10000 * 10 ^ 6 * 2 ^ 48 } }, _, 0, ⟨6, 0, 0, 0, 1⟩, by decide +kernel, rfl, by decide +kernel⟩,
   ⟨{ wOn with boot := { wOn.boot with at_ := some ⟨3, 0, 0, 0, 1⟩ }, ts := { wOn.ts with meas := 10000 * 10 ^ 6 * 2 ^ 48 } }, _, 0, ⟨3, 0, 0, 0, 1⟩, by decide +kernel, rfl, by decide +kernel⟩,
   ⟨{ wOn with boot := { wOn.boot with at_ := some ⟨11, 0, 0, 0, 1⟩ }, ts := { wOn.ts with meas := 10000 * 10 ^ 6 * 2 ^ 48 } }, _, 0, ⟨11, 0, 0, 0, 1⟩, by decide +kernel, rfl, by decide +kernel⟩,
   ⟨{ wOn.wr A.bootStatus 0x20 with boot := { wOn.boot with retryAt := some 0 } }, _, 0, 0, by decide +kernel, rfl, by decide +kernel⟩,
   ⟨{ wOn.wr A.bootRecFlags 0xC0 with boot := { wOn.boot with stableAt := some 0 } }, _, 0, 0, by decide +kernel, rfl, by decide +kernel⟩,
   ⟨wOn, _, 0, 0, 0xFFFFFFFE, by decide +kernel, rfl, by decide +kernel⟩,
   ⟨{ wOn with pwr := { wOn.pwr with resetAt := some 0 } }, _, 0, 0, 0, 0, by decide +kernel, rfl, by decide +kernel⟩,
   ⟨wOn, _, 0, 0, 0xFFFFFFFD, by decide +kernel, rfl, by decide +kernel⟩,
   ⟨{ wOn with boot := { wOn.boot with mgmt := some 0 }, celen := { wOn.celen with recovery := true } }, _, 0, 0, 0, 0, [true], by decide +kernel, rfl, by decide +kernel⟩,
   ⟨wOn, _, 0, by decide +kernel, rfl⟩,
   ⟨{ wOn with boot := { wOn.boot with mgmt := some 0 }, celen := { wOn.celen with recovery := true } }, _, 0, 0, [true], by decide +kernel, rfl, by decide +kernel⟩,
   ⟨wOn.wr A.bootStatus 0x10, _, 0, by decide +kernel, rfl, by decide +kernel⟩,
   ⟨{ wOn.wr A.bootStatus 0xB20 with ts := { wOn.ts with meas := secs 60 } }, _, 0, sense 949, by decide +kernel, rfl, by decide +kernel⟩,
   ⟨wOn, _, 0, 0, 0xFFFFFFFE, by decide +kernel, rfl, by decide +kernel⟩,
   ⟨{ wOn with boot := { wOn.boot with storing := some ⟨[], [], []⟩ } }, _, 0, 0, 0, ⟨[], [], []⟩, by decide +kernel, rfl, by decide +kernel⟩,
   ⟨{ wOn with boot := { wOn.boot with storing := some ⟨[], [], []⟩ } }, _, 0, 0, 0, ⟨[], [], []⟩, by decide +kernel, rfl, by decide +kernel⟩,
   ⟨wOn, _, 0, 0, 0xFFFFFFFD, by decide +kernel, rfl, by decide +kernel⟩,
   ⟨wOn.wr A.bootRecFlags 8, _, 0, 0, 0xFFFFFFFC, by decide +kernel, rfl, by decide +kernel⟩⟩

theorem test_lane_events_complete :
    (∃ (s u : State) (dt i l : Nat) (e : CalEntry), s.canonical = true ∧ u = (s.advance dt).inOrder (fun e => decide (e.action = 0x17) && decide (e.arg % 256 = 0)) ∧
      dueEntry u.ts.calendar u.nowNs (fun x => decide (x.action = 0x17) && decide (x.arg % 256 = 0)) = some (i, e) ∧
      l < 8 ∧
      l < u.cas.lanes.length ∧
      u.laneUp l = true ∧
      u.casOn = true) ∧
    (∃ (s u : State) (dt l : Nat) (x : LinkSlot), s.canonical = true ∧ u = s.advance dt ∧
      l < 8 ∧
      (u.lane l).links.find? (fun x => x.final.isNone && decide (x.slot ≤ 500000 + u.nowPs)) = some x) ∧
    (∃ (s u : State) (dt l : Nat) (x : LinkSlot), s.canonical = true ∧ u = s.advance dt ∧
      l < 8 ∧
      (u.lane l).links.find? (fun x => !x.committed && x.final.isSome && decide (x.slot ≤ 300000 + u.nowPs)) = some x) ∧
    (∃ (s u : State) (dt l tx : Nat) (x : LinkSlot) (d : Bytes), s.canonical = true ∧ u = s.advance dt ∧
      l < 8 ∧
      (u.lane l).links.find? (fun x => x.committed && decide (x.slot ≤ u.nowPs)) = some x ∧
      x.final = some (tx, d)) ∧
    (∃ (s u : State) (dt lane ago fec : Nat) (fr : Bytes), s.canonical = true ∧ u = s.advance dt ∧
      lane < 8 ∧
      u.laneUp lane = true ∧
      beAt fr 12 2 = 0x88B6 ∧
      beAt fr 0 6 = 0x0180C200000E ∧
      beAt (fr.drop 14) 0 1 = 1 ∧
      peorelLength (fr.drop 14) = some (beAt (fr.drop 14) 2 2) ∧
      beAt (fr.drop 14) 2 2 ≤ (fr.drop 14).length ∧
      beAt (fr.drop 14) 4 8 = u.systemId ∧
      beAt (fr.drop 14) 1 1 = 1 ∧
      lane < u.cas.lanes.length) ∧
    (∃ (s u : State) (dt lane ago fec : Nat) (fr : Bytes), s.canonical = true ∧ u = s.advance dt ∧
      lane < 8 ∧
      u.laneUp lane = true ∧
      beAt fr 12 2 ≠ 0x88B6) ∧
    (∃ (s u : State) (dt lane : Nat) (fr : Bytes), s.canonical = true ∧ u = s.advance dt ∧
      lane < 8 ∧
      u.laneUp lane = true ∧
      beAt fr 12 2 = 0x88B6 ∧
      beAt fr 0 6 = 0x0180C200000E ∧
      beAt (fr.drop 14) 0 1 = 1 ∧
      peorelLength (fr.drop 14) = some (beAt (fr.drop 14) 2 2) ∧
      beAt (fr.drop 14) 2 2 ≤ (fr.drop 14).length ∧
      beAt (fr.drop 14) 4 8 = u.systemId ∧
      beAt (fr.drop 14) 1 1 = 2 ∧
      u.casOn = true ∧
      u.position = 2 ∧
      u.nowNs + u.f A.casSubDelay 0 32 + u.casMargin ≤ (opOf (fr.drop 14)).atNs ∧
      (u.cas.ops.filter (fun x => x.issued && !x.sent)).length < 4) ∧
    (∃ (s u : State) (dt lane l : Nat) (fr : Bytes), s.canonical = true ∧ u = s.advance dt ∧
      lane < 8 ∧
      u.laneUp lane = true ∧
      beAt fr 12 2 = 0x88B6 ∧
      beAt fr 0 6 = 0x0180C200000E ∧
      beAt (fr.drop 14) 0 1 = 1 ∧
      peorelLength (fr.drop 14) = some (beAt (fr.drop 14) 2 2) ∧
      beAt (fr.drop 14) 2 2 ≤ (fr.drop 14).length ∧
      beAt (fr.drop 14) 4 8 = u.systemId ∧
      beAt (fr.drop 14) 1 1 = 2 ∧
      u.casOn = true ∧
      u.position ≠ 2 ∧
      u.upLane = some l) ∧
    (∃ (s u : State) (dt lane : Nat) (fr : Bytes), s.canonical = true ∧ u = s.advance dt ∧
      lane < 8 ∧
      u.laneUp lane = true ∧
      beAt fr 12 2 = 0x88B6 ∧
      beAt fr 0 6 = 0x0180C200000E ∧
      beAt (fr.drop 14) 0 1 = 1 ∧
      peorelLength (fr.drop 14) = some (beAt (fr.drop 14) 2 2) ∧
      beAt (fr.drop 14) 2 2 ≤ (fr.drop 14).length ∧
      beAt (fr.drop 14) 4 8 = u.systemId ∧
      beAt (fr.drop 14) 1 1 = 3 ∧
      u.casOn = true ∧
      u.cas.seen.contains (beAt (fr.drop 14) 24 4) = false) ∧
    (∃ (s u : State) (dt i : Nat) (o : CasOp) (e : CalEntry), s.canonical = true ∧ u = (s.advance dt).inOrder isCasOp ∧
      u.nextOp = some o ∧
      u.opEntry o = some (i, e) ∧
      o.op = 1) ∧
    (∃ (s u : State) (dt i : Nat) (o : CasOp) (e : CalEntry), s.canonical = true ∧ u = (s.advance dt).inOrder isCasOp ∧
      u.nextOp = some o ∧
      u.opEntry o = some (i, e) ∧
      o.op = 2) ∧
    (∃ (s u : State) (dt i : Nat) (o : CasOp) (e : CalEntry), s.canonical = true ∧ u = (s.advance dt).inOrder isCasOp ∧
      u.nextOp = some o ∧
      u.opEntry o = some (i, e) ∧
      o.op = 3) ∧
    (∃ (s u : State) (dt i : Nat) (o : CasOp) (e : CalEntry), s.canonical = true ∧ u = (s.advance dt).inOrder isCasOp ∧
      u.nextOp = some o ∧
      u.opEntry o = some (i, e) ∧
      o.op = 4) ∧
    (∃ (s u : State) (dt lane : Nat) (fr : Bytes) (o : CasOp), s.canonical = true ∧ u = s.advance dt ∧
      lane < 8 ∧
      u.laneUp lane = true ∧
      beAt fr 12 2 = 0x88B6 ∧
      beAt fr 0 6 = 0x0180C200000E ∧
      beAt (fr.drop 14) 0 1 = 1 ∧
      peorelLength (fr.drop 14) = some (beAt (fr.drop 14) 2 2) ∧
      beAt (fr.drop 14) 2 2 ≤ (fr.drop 14).length ∧
      beAt (fr.drop 14) 4 8 = u.systemId ∧
      beAt (fr.drop 14) 1 1 = 4 ∧
      u.casOn = true ∧
      u.findOp (beAt (fr.drop 14) 24 4) = some o ∧
      o.lanes.contains lane = true ∧
      o.sent = false ∧
      u.nowNs ≤ u.opDeadline o ∧
      o.results.any (fun x => decide (x.1 = lane)) = false) ∧
    (∃ (s u : State) (dt : Nat) (o : CasOp), s.canonical = true ∧ u = s.advance dt ∧
      o ∈ u.cas.ops ∧
      o.sent = false ∧
      o.own.isSome = true ∧
      u.opDeadline o ≤ u.nowNs) ∧
    (∃ (s u : State) (dt lane : Nat) (fr : Bytes) (q : CasRequest), s.canonical = true ∧ u = s.advance dt ∧
      lane < 8 ∧
      u.laneUp lane = true ∧
      beAt fr 12 2 = 0x88B6 ∧
      beAt fr 0 6 = 0x0180C200000E ∧
      beAt (fr.drop 14) 0 1 = 1 ∧
      peorelLength (fr.drop 14) = some (beAt (fr.drop 14) 2 2) ∧
      beAt (fr.drop 14) 2 2 ≤ (fr.drop 14).length ∧
      beAt (fr.drop 14) 4 8 = u.systemId ∧
      beAt (fr.drop 14) 1 1 = 5 ∧
      u.casOn = true ∧
      u.cas.req = some q ∧
      beAt (fr.drop 14) 72 8 = u.serial ∧
      beAt (fr.drop 14) 80 4 = q.tag) ∧
    (∃ (s u : State) (dt : Nat) (q : CasRequest), s.canonical = true ∧ u = s.advance dt ∧
      u.cas.req = some q ∧
      q.bound = none ∧
      q.op < 256 ∧
      10000000 * 2 ^ 48 + q.madeAt ≤ u.ts.meas) ∧
    (∃ (s u : State) (dt b : Nat) (q : CasRequest), s.canonical = true ∧ u = s.advance dt ∧
      u.cas.req = some q ∧
      q.bound = some b ∧
      q.op < 256 ∧
      q.atNs + u.casGather + 2 * b + 10000000 ≤ u.nowNs) ∧
    (∃ (s u : State) (dt src a : Nat) (v : Word), s.canonical = true ∧ u = (s.advance dt).dueFirst ∧
      u.clearSource src ∧
      u.domainOn 15 = true ∧
      tallySet[fld (cmValue (u.rd A.talTallySel) v) 1 10]? = some a) ∧
    (∃ (s u : State) (dt src w : Nat) (v : Word), s.canonical = true ∧ u = (s.advance dt).dueFirst ∧
      u.clearSource src ∧
      w < 2 ∧
      u.domainOn 15 = true ∧
      src < u.sources.length) ∧
    (∃ (s u : State) (dt src : Nat) (v : Word), s.canonical = true ∧ u = (s.advance dt).dueFirst ∧
      u.clearSource src ∧
      u.domainOn 15 = true) :=
  ⟨⟨{ wLane with ts := { wOn.ts with calendar := [(3, ownEntry 0x17 0 0 0 1 0)] } }, _, 0, 3, 7, ownEntry 0x17 0 0 0 1 0, by decide +kernel, rfl, by decide +kernel⟩,
   ⟨{ wLane with cas := { wOn.cas with lanes := modAt wOn.cas.lanes 7 (fun x => { x with links := [⟨5, 3, none, false⟩] }) } }, _, 0, 7, ⟨5, 3, none, false⟩, by decide +kernel, rfl, by decide +kernel⟩,
   ⟨{ wLane with cas := { wOn.cas with lanes := modAt wOn.cas.lanes 7 (fun x => { x with links := [⟨5, 3, some (7, [1]), false⟩] }) } }, _, 0, 7, ⟨5, 3, some (7, [1]), false⟩, by decide +kernel, rfl, by decide +kernel⟩,
   ⟨{ wLane with cas := { wOn.cas with lanes := modAt wOn.cas.lanes 7 (fun x => { x with links := [⟨0, 3, some (7, [1]), true⟩] }) } }, _, 0, 7, 7, ⟨0, 3, some (7, [1]), true⟩, [1], by decide +kernel, rfl, by decide +kernel⟩,
   ⟨wLane, _, 0, 7, 0, 0, peorel 1 156 [], by decide +kernel, rfl, by decide +kernel⟩,
   ⟨wLane, _, 0, 7, 0, 0, zeros 60, by decide +kernel, rfl, by decide +kernel⟩,
   ⟨wLane.wr A.casStatus 2, _, 0, 7, peorel 2 60 (zeros 4 ++ [1, 0, 0, 0] ++ zeros 4 ++ be 2 5 ++ zeros 6), by decide +kernel, rfl, by decide +kernel⟩,
   ⟨wLane.wr A.casStatus 0x804, _, 0, 7, 0, peorel 2 60 (zeros 4 ++ [1, 0, 0, 0] ++ zeros 4 ++ be 2 5 ++ zeros 6), by decide +kernel, rfl, by decide +kernel⟩,
   ⟨wLane, _, 0, 7, peorel 3 60 (be 4 8 ++ zeros 4), by decide +kernel, rfl, by decide +kernel⟩,
   ⟨wOp 1, _, 0, 3, casOp 1, ownEntry 0x17 0 0 0 1 1, by decide +kernel, rfl, by decide +kernel⟩,
   ⟨wOp 2, _, 0, 3, casOp 2, ownEntry 0x17 0 0 0 1 1, by decide +kernel, rfl, by decide +kernel⟩,
   ⟨wOp 3, _, 0, 3, casOp 3, ownEntry 0x17 0 0 0 1 1, by decide +kernel, rfl, by decide +kernel⟩,
   ⟨wOp 4, _, 0, 3, casOp 4, ownEntry 0x17 0 0 0 1 1, by decide +kernel, rfl, by decide +kernel⟩,
   ⟨{ wLane with cas := { wOn.cas with ops := [{ casOp 1 with lanes := [7] }] } }, _, 0, 7, peorel 4 88 (be 4 3), { casOp 1 with lanes := [7] }, by decide +kernel, rfl, by decide +kernel⟩,
   ⟨{ wLane.wr A.casGather 0 with cas := { wOn.cas with ops := [{ casOp 1 with own := some OpResult.zero }] } }, _, 0, { casOp 1 with own := some OpResult.zero }, by decide +kernel, rfl, by decide +kernel⟩,
   ⟨{ wLane with cas := { wOn.cas with req := some ⟨1, 0, 4, 0, none⟩ } }, _, 0, 7, peorel 5 88 (zeros 48 ++ be 8 wOn.serial ++ be 4 4), ⟨1, 0, 4, 0, none⟩, by decide +kernel, rfl, by and_intros <;> first | exact by rw [show ((({ wLane with cas := { wOn.cas with req := some ⟨1, 0, 4, 0, none⟩ } } : State).advance 0).serial = wOn.serial) from rfl]; exact be8_back _ (rd64_lt _ _) | decide +kernel⟩,
   ⟨{ wLane with cas := { wOn.cas with req := some ⟨1, 0, 4, 0, none⟩ }, ts := { wOn.ts with meas := 10000000 * 2 ^ 48 } }, _, 0, ⟨1, 0, 4, 0, none⟩, by decide +kernel, rfl, by decide +kernel⟩,
   ⟨{ wLane with cas := { wOn.cas with req := some ⟨1, 0, 4, 0, some 5⟩ }, ts := { wOn.ts with acc := 10 ^ 9 * 2 ^ 48 } }, _, 0, 5, ⟨1, 0, 4, 0, some 5⟩, by decide +kernel, rfl, by decide +kernel⟩,
   ⟨wOn, _, 0, 0, ((tallySet[1]?).getD 0), 0xFFFF0002, by decide +kernel, rfl, by decide +kernel⟩,
   ⟨wOn, _, 0, 4, 1, 0x001F0000, by decide +kernel, rfl, by decide +kernel⟩,
   ⟨wOn, _, 0, 2, 0x0FFF0003, by decide +kernel, rfl, by decide +kernel⟩⟩

theorem test_timescale_frames :
    ∀ x ∈ ([(.crClearingRead 0 0 (A.hifKicks) false, (wOn.wr A.hifKicks 7), [.regs, .sources, .faultRead, .totals, .journal, .celen, .hif, .ports, .pke, .out]),
      (.guardTimeout 0 4, (wOn.setView (.session 4) (fun w => { w with pair := some ⟨A.refForce, 3, 0, 17⟩ })), [.regs, .sources, .totals, .journal, .celen, .hif, .out]),
      (.nowSecLoRead 0 0, wOn, [.regs, .sources, .faultRead, .totals, .journal, .celen, .hif, .ports, .pke, .out]),
      (.hostEvent 0, { wOn with ts := { wOn.ts with calendar := [(3, ownEntry 1 0 0 0 1 0)] } }, [.regs, .totals, .celen, .hif, .out, .ts]),
      (.outEdge 0 5, { wOn with ts := { wOn.ts with calendar := [(3, ownEntry 0x11 5 0 0 1 0)] } }, [.regs, .totals, .celen, .hif, .pwr, .out, .ts]),
      (.pulseEnd 0 3, { wOn with pwr := { wOn.pwr with outs := modAt wOn.pwr.outs 3 (fun o => { o with pulseEnd := some 0 }) } }, [.pwr, .out]),
      (.ptpSync 0, { wOn with ts := { wOn.ts with calendar := [(3, ownEntry 0x12 127 0 0 1 0)] } }, [.regs, .totals, .celen, .hif, .ports, .ptp, .tal, .out, .ts]),
      (.ntsEpoch 0, { wOn with ts := { wOn.ts with calendar := [(3, ownEntry 0x15 0 0 0 1 0)] } }, [.regs, .totals, .journal, .celen, .hif, .nts, .out, .fresh, .ts]),
      (.leap 0, { wOn with ts := { wOn.ts with calendar := [(3, ownEntry 0x16 0 0 0 1 0)] } }, [.regs, .totals, .celen, .hif, .out, .ts]),
      (.hifDbPoll 0, { wOn with ts := { wOn.ts with calendar := [(3, ownEntry 0x18 0 0 0 1 0)] } }, [.regs, .totals, .celen, .hif, .out, .ts]),
      (.qualTimeExpire 0 12, { wOn.wr (A.refInState 12) 1 with refs := { wOn.refs with ins := modAt wOn.refs.ins 12 (fun r => { r with timerEnd := some 0 }) } }, [.regs]),
      (.wtrExpire 0 12, { wOn.wr (A.refInState 12) 1 with refs := { wOn.refs with ins := modAt wOn.refs.ins 12 (fun r => { r with timerEnd := some 0 }) } }, [.regs]),
      (.distrustHoldExpire 0 12, { wOn.wr (A.refInState 12) 1 with refs := { wOn.refs with ins := modAt wOn.refs.ins 12 (fun r => { r with timerEnd := some 0 }) } }, [.regs]),
      (.prepareEnd 0, wOn, []),
      (.refLossTimeout 0 13, { wOn with ts := { wOn.ts with meas := 3000000000 * 2 ^ 48 }, refs := { wOn.refs with ins := modAt wOn.refs.ins 13 (fun r => { r with lost := false }) } }, [.regs, .totals, .celen, .hif, .refs, .out]),
      (.offsetLoRead 0 0 13, wOn, [.regs, .sources, .faultRead, .totals, .journal, .celen, .hif, .ports, .pke, .out]),
      (.qcontactChange 0 true, wOn, [.regs, .totals, .celen, .hif, .out]),
      (.todSentenceRx 0 ([]) false, wOn, [.regs, .totals, .refs, .pwr])] : List (Instr × State × List Part)),
      (∃ t, exec x.1 x.2.1 = .next t) ∧ Part.queue ∉ x.2.2 :=
  framed _ (by decide +kernel)


/-- Register 0 is outside the lists of `Obligations.TimescaleRegisterFrames`. -/
theorem test_timescale_register_frames_outside (k : Nat) :
    0 ∉ (faultWords k : List Nat) ∧
    0 ∉ ([span 0x10000 0x14000 k] ++ faultWords k : List Nat) ∧
    0 ∉ ([A.tscEvent, A.tscCalSkipped, A.tscCalLate, A.tscCalUsed] ++ reportWords k : List Nat) ∧
    0 ∉ ([] : List Nat) ∧
    0 ∉ ([span 0x60000 0x68000 k, span 0x78000 0x80000 k, span 0x10000 0x14000 k] ++ journalWords k : List Nat) ∧
    0 ∉ ([A.tscEvent, A.tscCalSkipped, A.tscCalLate, A.tscCalUsed, A.tscLeapCur] ++ reportWords k : List Nat) ∧
    0 ∉ ([A.tscEvent, A.tscCalSkipped, A.tscCalLate, A.tscCalUsed, A.hifDbReads] ++ reportWords k : List Nat) ∧
    0 ∉ ([span 0x14000 0x18000 k] ++ journalWords k : List Nat) ∧
    0 ∉ ([span 0x14000 0x18000 k, span 0x10000 0x14000 k] ++ journalWords k : List Nat) ∧
    0 ∉ ([A.refInEvent 13, A.refInLosCount 13] ++ reportWords k : List Nat) ∧
    0 ∉ ([span 0x14000 0x18000 k] ++ faultWords k : List Nat) ∧
    0 ∉ ([A.refQcontactState, A.refInEvent (k % 16), A.refInState (k % 16), A.refInRhoRef (k % 16)] ++ reportWords k : List Nat) ∧
    0 ∉ ([A.pwrTodBad, A.pwrIoStatus, A.pwrTodRx] : List Nat) := by
  and_intros <;> intro h <;>
    simp only [span, reportWords, ringWords, journalWords, faultWords, List.append_assoc, List.cons_append, List.nil_append, List.mem_cons,
      List.not_mem_nil, or_false, A.glbEvent, A.glbFaultOverwrite, A.glbFaultSeq, A.glbJournalLost, A.glbJournalSeq, A.hifDbReads, A.hifEvent, A.hifEvtDrop, A.hifRingPosted, A.hifRingState, A.pwrIoStatus, A.pwrTodBad, A.pwrTodRx, A.refInEvent, A.refInLosCount, A.refInRhoRef, A.refInState, A.refQcontactState, A.tscCalLate, A.tscCalSkipped, A.tscCalUsed, A.tscEvent, A.tscLeapCur] at h <;> omega
theorem test_timescale_register_frames :
    ∀ x ∈ ([(.guardTimeout 0 4, (wOn.setView (.session 4) (fun w => { w with pair := some ⟨A.refForce, 3, 0, 17⟩ }))),
      (.nowSecLoRead 0 0, wOn),
      (.hostEvent 0, { wOn with ts := { wOn.ts with calendar := [(3, ownEntry 1 0 0 0 1 0)] } }),
      (.outEdge 0 5, { wOn with ts := { wOn.ts with calendar := [(3, ownEntry 0x11 5 0 0 1 0)] } }),
      (.pulseEnd 0 3, { wOn with pwr := { wOn.pwr with outs := modAt wOn.pwr.outs 3 (fun o => { o with pulseEnd := some 0 }) } }),
      (.ntsEpoch 0, { wOn with ts := { wOn.ts with calendar := [(3, ownEntry 0x15 0 0 0 1 0)] } }),
      (.leap 0, { wOn with ts := { wOn.ts with calendar := [(3, ownEntry 0x16 0 0 0 1 0)] } }),
      (.hifDbPoll 0, { wOn with ts := { wOn.ts with calendar := [(3, ownEntry 0x18 0 0 0 1 0)] } }),
      (.qualTimeExpire 0 12, { wOn.wr (A.refInState 12) 1 with refs := { wOn.refs with ins := modAt wOn.refs.ins 12 (fun r => { r with timerEnd := some 0 }) } }),
      (.wtrExpire 0 12, { wOn.wr (A.refInState 12) 1 with refs := { wOn.refs with ins := modAt wOn.refs.ins 12 (fun r => { r with timerEnd := some 0 }) } }),
      (.distrustHoldExpire 0 12, { wOn.wr (A.refInState 12) 1 with refs := { wOn.refs with ins := modAt wOn.refs.ins 12 (fun r => { r with timerEnd := some 0 }) } }),
      (.prepareEnd 0, wOn),
      (.refLossTimeout 0 13, { wOn with ts := { wOn.ts with meas := 3000000000 * 2 ^ 48 }, refs := { wOn.refs with ins := modAt wOn.refs.ins 13 (fun r => { r with lost := false }) } }),
      (.offsetLoRead 0 0 13, wOn),
      (.qcontactChange 0 true, wOn),
      (.todSentenceRx 0 ([]) false, wOn)] : List (Instr × State)),
      x.2.canonical = true ∧ ∃ t, exec x.1 x.2 = .next t :=
  framedRegs _ (by decide +kernel)

theorem test_oscillator_frames :
    ∀ x ∈ ([(.cartLoss 0 false, wOn.wr A.holStatus 0xB, [.regs, .totals, .journal, .celen, .hif, .refs, .hol, .out, .ts]),
      (.modelSample 0, wOn, [.regs, .totals, .celen, .hif, .hol, .out]),
      (.modelFlashWrite 0, wOn.wr A.holStatus 4, [.hol, .out]),
      (.cartInsert 0, wOn, [.regs, .totals, .celen, .hif, .hol, .out]),
      (.cartRemove 0, wOn.wr A.holStatus 0xB, [.regs, .totals, .journal, .celen, .hif, .refs, .hol, .out, .ts]),
      (.cartIdentified 0 0x41 1 99 ([]), wOn.wr A.holStatus 2, [.regs, .totals, .journal, .celen, .hif, .refs, .hol, .out, .ts]),
      (.cartIdTimeout 0, { wOn.wr A.holStatus 2 with hol := { wOn.hol with cartTimerEnd := some 0 } }, [.regs, .totals, .journal, .celen, .hif, .refs, .hol, .out, .ts]),
      (.cartStatusPoll 0 true true, wOn.wr A.holStatus 4, [.regs, .totals, .journal, .celen, .hif, .refs, .hol, .out, .ts]),
      (.cartWarmTimeout 0, { wOn.wr A.holStatus 4 with hol := { wOn.hol with cartTimerEnd := some 0 } }, [.regs, .totals, .journal, .celen, .hif, .refs, .hol, .out, .ts]),
      (.cartMeasDone 0, { wOn.wr A.holStatus 6 with hol := { wOn.hol with cartTimerEnd := some 0 } }, [.regs, .totals, .celen, .hif, .hol, .out]),
      (.cartOvercurrent 0, wOn.wr A.holStatus 0xA, [.regs, .totals, .journal, .celen, .hif, .refs, .hol, .out, .ts]),
      (.cartPd2Off 0, { wOn.wr A.holStatus 8 with hol := { wOn.hol with pd2OffAt := some 0 } }, [.regs, .hol]),
      (.kaTick 0 (-5) none, { wOn with hol := { wOn.hol with keepAlive := true }, boot := { wOn.boot with at_ := none } }, [.regs, .totals, .journal, .celen, .hif, .hol, .out, .ts]),
      (.keeperFault 0, wOn, [.regs, .totals, .celen, .hif, .out]),
      (.kaGnssWake 0, { (wOn.wr A.holKaGnss 60).wr (A.gnsSideAntCfg 0) 1 with hol := { wOn.hol with keepAlive := true, kaNext := 0 } }, [.regs, .hol, .gnss]),
      (.kaWakeEnd 0 ([]), { wOn with gnss := { wOn.gnss with wake := some (1, 0) } }, [.regs, .gnss]),
      (.gnssSolutionDone 0 1 (⟨[], [], (0, 0, 0), []⟩), (wOn.wr A.gnsStatus 3).setSide 1 (fun x => { x with latch := some ⟨5, 0, 9⟩ }), [.regs, .totals, .celen, .hif, .refs, .gnss, .out]),
      (.gnssAlarmClear 0 0 2, ((wOn.setSide 0 (fun x => { x with alarms := 6 })).wr A.gnsAlarmClear 0), [.regs, .totals, .celen, .hif, .gnss, .out]),
      (.gnssExclEnd 0 1 true 2 3, wOn.setSide 1 (fun x => { x with excl := [⟨true, 2, 3, 0⟩] }), [.regs, .totals, .celen, .hif, .gnss, .out]),
      (.channelLossOfLock 0 1 159, { ((wOn.setSide 1 (fun x => { x with loops := [(159, ⟨0, 0, 0, some 0, none⟩)] }))).wr (chanWord 1 159) 0x20000 with ts := { wOn.ts with meas := secs 2 } }, [.regs, .gnss]),
      (.signalAcquired 0 1 159 320 2, (wOn.wr A.gnsStatus 3).wr (chanWord 1 159) 1, [.regs, .gnss]),
      (.navRecord 0 0 (⟨0, 1, 0, 0, 0, 450, [], true, false, none, none, none⟩), wOn.wr (chanWord 0 0) 0x501, [.regs, .totals, .journal, .celen, .hif, .gnss, .out, .ts]),
      (.hotstartWrite 0, { wOn.wr (A.gnsSideStatus 1) 4 with gnss := { wOn.gnss with hotStartAt := 0 } }, [.gnss]),
      (.surveyProgress 0 1, wOn.setSide 1 (fun x => { x with survey := some ⟨0, 1, 0, 0, 0, 0, 64, 0, 1, false, 0, none⟩ }), [.gnss, .out]),
      (.surveyComplete 0 0, { (wOn.setSide 0 (fun x => { x with survey := some ⟨0, 1, 0, 0, 0, 0, 0, 0, 1, false, 0, some (0, (1, 2, 3), 40)⟩ })).wr A.gnsSurveyTime 300 with ts := { wOn.ts with meas := secs 400 } }, [.regs, .totals, .celen, .hif, .gnss, .boot, .out]),
      (.surveyTimeout 0 0, (wOn.setSide 0 (fun x => { x with survey := some ⟨0, 1, 0, 0, 0, 0, 0, 0, 1, false, 0, none⟩ })).wr A.gnsSurveyMax 0, [.regs, .totals, .celen, .hif, .gnss, .out]),
      (.snapTrigger 0, wOn.setSnap 1, [.regs, .gnss]),
      (.snapCaptureEnd 0, { wOn.setSnap 2 with gnss := { wOn.gnss with snapEnd := some 0 } }, [.regs, .totals, .celen, .hif, .gnss, .out]),
      (.replayEnd 0 1, { wOn.wr (A.gnsSideStatus 1) 0x400 with gnss := { wOn.gnss with replay := some ⟨0, 0, 0⟩ } }, [.regs, .gnss]),
      (.thetaLoRead 0 0 1, wOn.setSide 1 (fun x => { x with theta := -7 }), [.regs, .sources, .faultRead, .totals, .journal, .celen, .hif, .ports, .pke, .out]),
      (.rfiSpectrum 0 1 1 (⟨[(3, 40)], 20, 100, 5, 30⟩), wOn, [.regs, .totals, .celen, .hif, .gnss, .out]),
      (.biasShort 0 1 91, wOn.wr (A.gnsSideBias 1) 1, [.regs, .totals, .celen, .hif, .gnss, .out]),
      (.biasRetry 0 0 90, (wOn.setSide 0 (fun x => { x with biasRetry := some 0 })).wr (A.gnsSideAntCfg 0) 3, [.regs, .totals, .celen, .hif, .gnss, .out]),
      (.gnssFwLoad 0 1 false, wOn, [.regs, .totals, .journal, .celen, .hif, .gnss, .out]),
      (.tagEdge 0 15 false 3 0, wOn.wr (A.ttuChCfg 15) 0x10000, [.regs, .totals, .journal, .celen, .hif, .refs, .hol, .ttu, .out, .ts]),
      (.tagForward 0, { (((wOn.wr A.ttuTagCfg 0x501).wr (A.hifRingCfg 5) 0x10003).wr (A.hifRingState 5) 1).setRing 5 (fun r => { r with waiting := [⟨0, 4096, 2048, 0, [], 0, 0, false⟩] }) with ttu := { wOn.ttu with tags := [zeros 16] } }, [.regs, .hif, .ttu, .out]),
      (.measClose 0 7, (wOn.wr (A.ttuMpCtl 7) 1).setProg 7 (fun x => { x with open_ := [⟨⟨0, true, -9000000, 0, false, 1, 1, false⟩, [], false, false, false⟩] }), [.regs, .totals, .ttu]),
      (.measGateClose 0 0, { (wOn.wr (A.ttuMpCtl 0) 2).wr (A.ttuMpPeriod 0) 1 with ts := { wOn.ts with acc := 10 ^ 9 * 2 ^ 48 } }, [.regs, .totals, .ttu]),
      (.measForward 0, { (((wOn.wr A.ttuMeasCfg 0x501).wr (A.hifRingCfg 5) 0x20003).wr (A.hifRingState 5) 1).setRing 5 (fun r => { r with waiting := [⟨0, 4096, 2048, 0, [], 0, 0, false⟩] }) with ttu := { wOn.ttu with measures := [zeros 48] } }, [.regs, .hif, .ttu, .out]),
      (.calBurst 0 [(13, (-51))], { ((wOn.wr A.ttuCalCfg 3).wr A.ttuCalMask 0x3FFF).wr (A.ttuChCfg 13) 0 with ts := { wOn.ts with acc := 500000000 * 2 ^ 48 } }, [.ttu])] : List (Instr × State × List Part)),
      (∃ t, exec x.1 x.2.1 = .next t) ∧ Part.queue ∉ x.2.2 :=
  framed _ (by decide +kernel)


/-- Register 0 is outside the lists of `Obligations.OscillatorRegisterFrames`. -/
theorem test_oscillator_register_frames_outside (k : Nat) :
    0 ∉ ([span 0x18000 0x20000 k, span 0x8000 0xA000 k, span 0x10000 0x14000 k] ++ journalWords k : List Nat) ∧
    0 ∉ ([A.holStatus, A.holEvent, A.holKmodel (k % 16), A.holCmodel (k % 16)] ++ reportWords k : List Nat) ∧
    0 ∉ ([] : List Nat) ∧
    0 ∉ ([A.holEvent, A.pwrDomState, A.holStatus, A.holCartTimer] ++ reportWords k : List Nat) ∧
    0 ∉ ([A.holEvent, A.holStatus, A.holCartTimer] ++ reportWords k : List Nat) ∧
    0 ∉ ([A.holTempCart, A.holCartDiff, A.pwrDomState, A.holStatus, A.holCartTimer] : List Nat) ∧
    0 ∉ ([span 0x18000 0x20000 k, span 0x10000 0x14000 k] ++ journalWords k : List Nat) ∧
    0 ∉ ([A.holEvent] ++ reportWords k : List Nat) ∧
    0 ∉ ([A.pwrDomState, A.gnsStatus, A.gnsSideStatus (k % 2), A.gnsSideBias (k % 2), A.gnsSideChan (k % 2) (k / 2 % 640)] : List Nat) ∧
    0 ∉ ([A.gnsStatus, A.pwrDomState, A.gnsSideBias (k % 2), A.gnsSideChan (k % 2) (k / 2 % 640)] : List Nat) ∧
    0 ∉ ([span 0x20000 0x30000 k] ++ reportWords k : List Nat) ∧
    0 ∉ ([A.gnsSideEvent 0, A.gnsSideStatus 0] ++ reportWords k : List Nat) ∧
    0 ∉ ([A.gnsSideEvent 1, A.gnsSideExclCount 1] ++ reportWords k : List Nat) ∧
    0 ∉ ([A.gnsSideChan 1 (4 * 159), A.gnsSideChan 1 (4 * 159 + 3)] : List Nat) ∧
    0 ∉ ([A.gnsSideChan 1 (4 * 159), A.gnsSideChan 1 (4 * 159 + 1), A.gnsSideChan 1 (4 * 159 + 2), A.gnsSideChan 1 (4 * 159 + 3)] : List Nat) ∧
    0 ∉ ([span 0x20000 0x30000 k, span 0x10000 0x14000 k, span 0x4000 0x8000 k] ++ journalWords k : List Nat) ∧
    0 ∉ ([A.gnsSidePosSigma 0, A.gnsSidePosZ 0, A.gnsSidePosY 0, A.gnsSidePosX 0, A.gnsSideStatus 0, A.gnsSideEvent 0] ++ reportWords k : List Nat) ∧
    0 ∉ ([A.gnsSideStatus 0, A.gnsSideEvent 0] ++ reportWords k : List Nat) ∧
    0 ∉ ([A.gnsSnapStatus, A.gnsStatus] : List Nat) ∧
    0 ∉ ([A.gnsEvent, A.gnsSnapStatus, A.gnsStatus] ++ reportWords k : List Nat) ∧
    0 ∉ ([A.gnsStatus, A.gnsSideStatus 1, A.gnsSideBias 1, A.gnsSideChan 1 (k % 640)] : List Nat) ∧
    0 ∉ ([span 0x20000 0x30000 k] ++ faultWords k : List Nat) ∧
    0 ∉ ([A.gnsSideEvent 1, A.gnsSideBias 1] ++ reportWords k : List Nat) ∧
    0 ∉ ([A.gnsSideEvent 0, A.gnsSideBias 0] ++ reportWords k : List Nat) ∧
    0 ∉ ([A.gnsSideStatus 1, A.gnsStatus, A.gnsSideBias 1, A.gnsSideChan 1 (k % 640)] ++ journalWords k : List Nat) ∧
    0 ∉ ([span 0x30000 0x40000 k, span 0x18000 0x20000 k, span 0x8000 0xA000 k, span 0x14000 0x18000 k, span 0x10000 0x14000 k] ++ journalWords k : List Nat) ∧
    0 ∉ ([A.hifRingPosted (k % 256)] : List Nat) ∧
    0 ∉ ([A.ttuMpStray 7, A.ttuMpStatus 7] : List Nat) ∧
    0 ∉ ([A.ttuMpMissing 0] : List Nat) := by
  and_intros <;> intro h <;>
    simp only [span, reportWords, ringWords, journalWords, faultWords, List.append_assoc, List.cons_append, List.nil_append, List.mem_cons,
      List.not_mem_nil, or_false, A.glbEvent, A.glbFaultOverwrite, A.glbFaultSeq, A.glbJournalLost, A.glbJournalSeq, A.gnsEvent, A.gnsSideBias, A.gnsSideChan, A.gnsSideEvent, A.gnsSideExclCount, A.gnsSidePosSigma, A.gnsSidePosX, A.gnsSidePosY, A.gnsSidePosZ, A.gnsSideStatus, A.gnsSnapStatus, A.gnsStatus, A.hifEvent, A.hifEvtDrop, A.hifRingPosted, A.hifRingState, A.holCartDiff, A.holCartTimer, A.holCmodel, A.holEvent, A.holKmodel, A.holStatus, A.holTempCart, A.pwrDomState, A.ttuMpMissing, A.ttuMpStatus, A.ttuMpStray] at h <;> omega
theorem test_oscillator_register_frames :
    ∀ x ∈ ([(.cartLoss 0 false, wOn.wr A.holStatus 0xB),
      (.modelSample 0, wOn),
      (.modelFlashWrite 0, wOn.wr A.holStatus 4),
      (.cartInsert 0, wOn),
      (.cartRemove 0, wOn.wr A.holStatus 0xB),
      (.cartIdentified 0 0x41 1 99 ([]), wOn.wr A.holStatus 2),
      (.cartIdTimeout 0, { wOn.wr A.holStatus 2 with hol := { wOn.hol with cartTimerEnd := some 0 } }),
      (.cartStatusPoll 0 true true, wOn.wr A.holStatus 4),
      (.cartWarmTimeout 0, { wOn.wr A.holStatus 4 with hol := { wOn.hol with cartTimerEnd := some 0 } }),
      (.cartMeasDone 0, { wOn.wr A.holStatus 6 with hol := { wOn.hol with cartTimerEnd := some 0 } }),
      (.cartOvercurrent 0, wOn.wr A.holStatus 0xA),
      (.cartPd2Off 0, { wOn.wr A.holStatus 8 with hol := { wOn.hol with pd2OffAt := some 0 } }),
      (.kaTick 0 (-5) none, { wOn with hol := { wOn.hol with keepAlive := true }, boot := { wOn.boot with at_ := none } }),
      (.keeperFault 0, wOn),
      (.kaGnssWake 0, { (wOn.wr A.holKaGnss 60).wr (A.gnsSideAntCfg 0) 1 with hol := { wOn.hol with keepAlive := true, kaNext := 0 } }),
      (.kaWakeEnd 0 ([]), { wOn with gnss := { wOn.gnss with wake := some (1, 0) } }),
      (.gnssSolutionDone 0 1 (⟨[], [], (0, 0, 0), []⟩), (wOn.wr A.gnsStatus 3).setSide 1 (fun x => { x with latch := some ⟨5, 0, 9⟩ })),
      (.gnssAlarmClear 0 0 2, ((wOn.setSide 0 (fun x => { x with alarms := 6 })).wr A.gnsAlarmClear 0)),
      (.gnssExclEnd 0 1 true 2 3, wOn.setSide 1 (fun x => { x with excl := [⟨true, 2, 3, 0⟩] })),
      (.channelLossOfLock 0 1 159, { ((wOn.setSide 1 (fun x => { x with loops := [(159, ⟨0, 0, 0, some 0, none⟩)] }))).wr (chanWord 1 159) 0x20000 with ts := { wOn.ts with meas := secs 2 } }),
      (.signalAcquired 0 1 159 320 2, (wOn.wr A.gnsStatus 3).wr (chanWord 1 159) 1),
      (.navRecord 0 0 (⟨0, 1, 0, 0, 0, 450, [], true, false, none, none, none⟩), wOn.wr (chanWord 0 0) 0x501),
      (.hotstartWrite 0, { wOn.wr (A.gnsSideStatus 1) 4 with gnss := { wOn.gnss with hotStartAt := 0 } }),
      (.surveyProgress 0 1, wOn.setSide 1 (fun x => { x with survey := some ⟨0, 1, 0, 0, 0, 0, 64, 0, 1, false, 0, none⟩ })),
      (.surveyComplete 0 0, { (wOn.setSide 0 (fun x => { x with survey := some ⟨0, 1, 0, 0, 0, 0, 0, 0, 1, false, 0, some (0, (1, 2, 3), 40)⟩ })).wr A.gnsSurveyTime 300 with ts := { wOn.ts with meas := secs 400 } }),
      (.surveyTimeout 0 0, (wOn.setSide 0 (fun x => { x with survey := some ⟨0, 1, 0, 0, 0, 0, 0, 0, 1, false, 0, none⟩ })).wr A.gnsSurveyMax 0),
      (.snapTrigger 0, wOn.setSnap 1),
      (.snapCaptureEnd 0, { wOn.setSnap 2 with gnss := { wOn.gnss with snapEnd := some 0 } }),
      (.replayEnd 0 1, { wOn.wr (A.gnsSideStatus 1) 0x400 with gnss := { wOn.gnss with replay := some ⟨0, 0, 0⟩ } }),
      (.thetaLoRead 0 0 1, wOn.setSide 1 (fun x => { x with theta := -7 })),
      (.rfiSpectrum 0 1 1 (⟨[(3, 40)], 20, 100, 5, 30⟩), wOn),
      (.biasShort 0 1 91, wOn.wr (A.gnsSideBias 1) 1),
      (.biasRetry 0 0 90, (wOn.setSide 0 (fun x => { x with biasRetry := some 0 })).wr (A.gnsSideAntCfg 0) 3),
      (.gnssFwLoad 0 1 false, wOn),
      (.tagEdge 0 15 false 3 0, wOn.wr (A.ttuChCfg 15) 0x10000),
      (.tagForward 0, { (((wOn.wr A.ttuTagCfg 0x501).wr (A.hifRingCfg 5) 0x10003).wr (A.hifRingState 5) 1).setRing 5 (fun r => { r with waiting := [⟨0, 4096, 2048, 0, [], 0, 0, false⟩] }) with ttu := { wOn.ttu with tags := [zeros 16] } }),
      (.measClose 0 7, (wOn.wr (A.ttuMpCtl 7) 1).setProg 7 (fun x => { x with open_ := [⟨⟨0, true, -9000000, 0, false, 1, 1, false⟩, [], false, false, false⟩] })),
      (.measGateClose 0 0, { (wOn.wr (A.ttuMpCtl 0) 2).wr (A.ttuMpPeriod 0) 1 with ts := { wOn.ts with acc := 10 ^ 9 * 2 ^ 48 } }),
      (.measForward 0, { (((wOn.wr A.ttuMeasCfg 0x501).wr (A.hifRingCfg 5) 0x20003).wr (A.hifRingState 5) 1).setRing 5 (fun r => { r with waiting := [⟨0, 4096, 2048, 0, [], 0, 0, false⟩] }) with ttu := { wOn.ttu with measures := [zeros 48] } }),
      (.calBurst 0 [(13, (-51))], { ((wOn.wr A.ttuCalCfg 3).wr A.ttuCalMask 0x3FFF).wr (A.ttuChCfg 13) 0 with ts := { wOn.ts with acc := 500000000 * 2 ^ 48 } })] : List (Instr × State)),
      x.2.canonical = true ∧ ∃ t, exec x.1 x.2 = .next t :=
  framedRegs _ (by decide +kernel)

theorem test_link_frames :
    ∀ x ∈ ([(.frameRx 0 7 (⟨.unknown, .goesOn, [], 0, true, 1, 1⟩), wOn, [.regs, .totals, .celen, .hif, .ports, .hrc, .tal, .out]),
      (.weirLow 0 7 0, wOn.wr (A.macLinkStatus 7) 0x21, [.regs, .totals, .celen, .hif, .ports, .tal, .out]),
      (.pauseRefresh 0 3, (((wOn.wr (A.macLinkStatus 3) 0x21).wr (A.macPortCfg 0) 0).wr (A.macLinkPauseCfg 3) 0x10001), [.regs, .totals, .celen, .hif, .ports, .tal, .out]),
      (.pauseEffect 0 7, wOn.setLink 7 (fun l => { l with pauseAt := [(0, 65535), (9, 0)] }), [.regs, .ports]),
      (.pauseHoldEnd 0 0, wOn.setLink 0 (fun l => { l with hold := some 0 }), [.regs, .ports]),
      (.pauseOverlimit 0 7, (wOn.setLink 7 (fun l => { l with hold := some 9 })).wr (A.macPauseLimit 1) 0, [.regs, .totals, .celen, .hif, .ports, .out]),
      (.linkUp 0 7 65535 3, ((wOn.wr (A.macPortCfg 1) 0x3E).wr (A.macStatus 1) 2), [.regs, .totals, .celen, .hif, .refs, .ports, .ptp, .cas, .out]),
      (.cageInsert 0 1 true 0x11 4, wOn, [.regs, .totals, .celen, .hif, .out]),
      (.verifySend 0 7, wOn.wr (A.macLinkStatus 7) 0x41, [.regs, .totals, .celen, .hif, .ports, .out]),
      (.verifyResponse 0 7, wOn.wr (A.macLinkStatus 7) 0x41, [.regs]),
      (.probeReturn 0 7 5 1000, wOn.setLink 7 (fun l => { l with probe := some (5, 7, 0) }), [.regs, .totals, .celen, .hif, .ports, .out]),
      (.probeTimeout 0 7, { wOn.setLink 7 (fun l => { l with probe := some (5, 7, 0) }) with ts := { wOn.ts with meas := 1000000 * 2 ^ 48 } }, [.regs, .ports]),
      (.responseBook 0 7, (wOn.wr (A.macPortCfg 1) 0).setLink 7 (fun l => { l with ready := [⟨.fixed ⟨[], [], [], 4, 0x800, [], [], 123, 123, 0, 64⟩ [], none, 60, 0⟩] }), [.regs, .totals, .celen, .hif, .ports, .tal, .out]),
      (.finalise 0 7, wOn.setLink 7 (fun l => { l with slots := [⟨.fixed ⟨[], [], [], 4, 0x800, [], [], 123, 123, 0, 64⟩ [], none, 60, 5, 5, false, none, false⟩] }), [.regs, .totals, .ports, .cas, .fresh]),
      (.commitPoint 0 7, wOn.setLink 7 (fun l => { l with slots := [⟨.fixed ⟨[], [], [], 4, 0x800, [], [], 123, 123, 0, 64⟩ [], none, 60, 5, 5, false, (some ([], 9)), false⟩] }), [.regs, .totals, .celen, .hif, .ports, .tal, .cas, .out]),
      (.slotStart 0 7, wOn.setLink 7 (fun l => { l with slots := [⟨.fixed ⟨[], [], [], 4, 0x800, [], [], 123, 123, 0, 64⟩ [], none, 60, 0, 0, false, (some ([1], 9)), true⟩] }), [.regs, .totals, .celen, .hif, .ports, .ptp, .tal, .cas, .out]),
      (.ageDrop 0 7, wOn.setLink 7 (fun l => { l with slots := [⟨.fixed ⟨[], [], [], 4, 0x800, [], [], 123, 123, 0, 64⟩ [], none, 60, 0, 0, false, none, false⟩] }), [.regs, .totals, .celen, .hif, .ports, .tal, .out]),
      (.preemptableFrameSent 0 7 false, (wOn.wr (A.macLinkStatus 7) 1).setLink 7 (fun l => { l with queue := [⟨[1, 2], none, none⟩] }), [.regs, .totals, .hif, .ports, .out]),
      (.arpRequest 0, { wOn with ports := { wOn.ports with claims := [⟨.arp, ⟨7, 0, []⟩⟩] } }, [.ports]),
      (.neighborSolicitation 0, { wOn with ports := { wOn.ports with claims := [⟨.nd, ⟨7, 0, []⟩⟩] } }, [.ports]),
      (.exceptionFrame 0, ({ wOn with ports := { wOn.ports with claims := [⟨.exc 7, ⟨7, 0, []⟩⟩] } }).wr A.hrcExcMap1 0xFFFFFFFF, [.regs, .totals, .hif, .ports, .out]),
      (.ntpRequest 0 15, { wOn with hrc := { wOn.hrc with queues := modAt wOn.hrc.queues 15 (fun _ => [⟨.ntp, ⟨0, 0, []⟩, 0, 0, 0, 0, 0, 0, 15, zeros 16, [0, 0, 0], 0, false, none⟩]) } }, [.regs, .totals, .celen, .hif, .ports, .hrc, .tal, .out]),
      (.ntsRequest 0 15, { wOn with hrc := { wOn.hrc with queues := modAt wOn.hrc.queues 15 (fun _ => [⟨.nts, ⟨0, 0, []⟩, 0, 0, 0, 0, 0, 0, 15, zeros 16, [0, 0, 0], 0, false, none⟩]) } }, [.regs, .totals, .celen, .hif, .ports, .hrc, .tal, .out]),
      (.bucketMoveDone 0 255, { wOn with hrc := { wOn.hrc with moves := [⟨255, 0, 1, [], 0⟩] } }, [.regs, .totals, .celen, .hif, .hrc, .tal, .out]),
      (.ntsKeyDrawn 0, wOn.wr A.pkeTrngStatus 1, [.regs, .totals, .celen, .hif, .nts, .out, .fresh]),
      (.keyDeferRetry 0, { wOn.wr A.pkeTrngStatus 1 with nts := { wOn.nts with deferred := some 0 } }, [.regs, .totals, .journal, .celen, .hif, .nts, .out, .fresh]),
      (.mintJob 0 (some (([15, 0, 1] ++ zeros 77 ++ [255, 255, 0, 0]))), { (((wOn.wr A.ntsMintCfg 0x501).wr (A.hifRingCfg 5) 5).wr (A.hifRingState 5) 1).setRing 5 (fun r => { r with waiting := [⟨0, 4096, 2048, 0, [], 0, 0, false⟩] }) with nts := { wOn.nts with current := true, keys := [(1, zeros 32)] } }, [.regs, .totals, .celen, .hif, .out, .fresh]),
      (.drainComplete 0 15, wOn.wr (A.svpPipeStatus 15) 1, [.regs, .totals, .journal, .celen, .hif, .refs, .gnss, .hrc, .pke, .tal, .fences, .out]),
      (.reloadComplete 0 15 false, wOn.wr (A.svpPipeStatus 15) 3, [.regs, .totals, .journal, .celen, .hif, .out])] : List (Instr × State × List Part)),
      (∃ t, exec x.1 x.2.1 = .next t) ∧ Part.queue ∉ x.2.2 :=
  framed _ (by decide +kernel)


/-- Register 0 is outside the lists of `Obligations.LinkRegisterFrames`. -/
theorem test_link_register_frames_outside (k : Nat) :
    0 ∉ ([span 0x40000 0x48000 k, span 0x50000 0x58000 k, span 0x58000 0x60000 k, span 0x68000 0x70000 k, span 0xC000 0x10000 k, span 0x4000 0x8000 k] ++ reportWords k : List Nat) ∧
    0 ∉ ([span 0x40000 0x48000 k, span 0xC000 0x10000 k] ++ reportWords k : List Nat) ∧
    0 ∉ ([A.macLinkStatus 7, A.macLinkPauseHeld 7] : List Nat) ∧
    0 ∉ ([A.macLinkStatus 0, A.macLinkPauseHeld 0] : List Nat) ∧
    0 ∉ ([A.macLinkEvent 7, A.macLinkPauseOverlimit 7, A.macLinkStatus 7, A.macLinkPauseHeld 7] ++ reportWords k : List Nat) ∧
    0 ∉ ([span 0x40000 0x48000 k, span 0x48000 0x50000 k, span 0x68000 0x70000 k, span 0x14000 0x18000 k] ++ reportWords k : List Nat) ∧
    0 ∉ ([A.macEvent 1, A.macStatus 1, A.macCageFault 1, A.macCage 1, A.cmacEvent, A.cmacStatus, A.cmacCageFault, A.cmacCage0, A.cmacCage1] ++ reportWords k : List Nat) ∧
    0 ∉ ([A.macLinkEvent 7, A.macLinkStatus 7] ++ reportWords k : List Nat) ∧
    0 ∉ ([A.macLinkStatus 7] : List Nat) ∧
    0 ∉ ([A.macLinkEvent 7, A.macLinkProbeResult 7, A.macLinkProbeCtl 7] ++ reportWords k : List Nat) ∧
    0 ∉ ([A.macLinkProbeResult 7, A.macLinkProbeCtl 7] : List Nat) ∧
    0 ∉ ([A.svpPipeStepAdj k] : List Nat) ∧
    0 ∉ ([] : List Nat) ∧
    0 ∉ ([A.macLinkUnclaimed k, A.macLinkRxToHost k, A.macLinkRxToHost k + 4, A.hifRingState (k % 256), A.hifRingDrop (k % 256)] ++ reportWords k : List Nat) ∧
    0 ∉ ([span 0x40000 0x48000 k, span 0x50000 0x58000 k, span 0x58000 0x60000 k, span 0xC000 0x10000 k, A.macLinkRxToPipe k, A.macLinkRxToPipe k + 4, A.svpPipeStatus k] ++ reportWords k : List Nat) ∧
    0 ∉ ([A.ntsEvent, A.pkeFeDenied, A.ntsKeyCur, A.ntsStatus, A.ntsKeyPrev (k % 3)] ++ reportWords k : List Nat) ∧
    0 ∉ ([span 0x60000 0x68000 k, span 0x78000 0x80000 k] ++ journalWords k : List Nat) ∧
    0 ∉ ([A.ntsMintJobs, A.ntsMinted, A.ntsMinted + 4, A.ntsEvent, A.ntsMintFail, A.hifRingState (k % 256)] ++ reportWords k : List Nat) ∧
    0 ∉ ([span 0x58000 0x60000 k] ++ journalWords k : List Nat) := by
  and_intros <;> intro h <;>
    simp only [span, reportWords, ringWords, journalWords, faultWords, List.append_assoc, List.cons_append, List.nil_append, List.mem_cons,
      List.not_mem_nil, or_false, A.cmacCage0, A.cmacCage1, A.cmacCageFault, A.cmacEvent, A.cmacStatus, A.glbEvent, A.glbFaultOverwrite, A.glbFaultSeq, A.glbJournalLost, A.glbJournalSeq, A.hifEvent, A.hifEvtDrop, A.hifRingDrop, A.hifRingPosted, A.hifRingState, A.macCage, A.macCageFault, A.macEvent, A.macLinkEvent, A.macLinkPauseHeld, A.macLinkPauseOverlimit, A.macLinkProbeCtl, A.macLinkProbeResult, A.macLinkRxToHost, A.macLinkRxToPipe, A.macLinkStatus, A.macLinkUnclaimed, A.macStatus, A.ntsEvent, A.ntsKeyCur, A.ntsKeyPrev, A.ntsMintFail, A.ntsMintJobs, A.ntsMinted, A.ntsStatus, A.pkeFeDenied, A.svpPipeStatus, A.svpPipeStepAdj] at h <;> omega
theorem test_link_register_frames :
    ∀ x ∈ ([(.frameRx 0 7 (⟨.unknown, .goesOn, [], 0, true, 1, 1⟩), wOn),
      (.weirLow 0 7 0, wOn.wr (A.macLinkStatus 7) 0x21),
      (.pauseRefresh 0 3, (((wOn.wr (A.macLinkStatus 3) 0x21).wr (A.macPortCfg 0) 0).wr (A.macLinkPauseCfg 3) 0x10001)),
      (.pauseEffect 0 7, wOn.setLink 7 (fun l => { l with pauseAt := [(0, 65535), (9, 0)] })),
      (.pauseHoldEnd 0 0, wOn.setLink 0 (fun l => { l with hold := some 0 })),
      (.pauseOverlimit 0 7, (wOn.setLink 7 (fun l => { l with hold := some 9 })).wr (A.macPauseLimit 1) 0),
      (.linkUp 0 7 65535 3, ((wOn.wr (A.macPortCfg 1) 0x3E).wr (A.macStatus 1) 2)),
      (.cageInsert 0 1 true 0x11 4, wOn),
      (.verifySend 0 7, wOn.wr (A.macLinkStatus 7) 0x41),
      (.verifyResponse 0 7, wOn.wr (A.macLinkStatus 7) 0x41),
      (.probeReturn 0 7 5 1000, wOn.setLink 7 (fun l => { l with probe := some (5, 7, 0) })),
      (.probeTimeout 0 7, { wOn.setLink 7 (fun l => { l with probe := some (5, 7, 0) }) with ts := { wOn.ts with meas := 1000000 * 2 ^ 48 } }),
      (.responseBook 0 7, (wOn.wr (A.macPortCfg 1) 0).setLink 7 (fun l => { l with ready := [⟨.fixed ⟨[], [], [], 4, 0x800, [], [], 123, 123, 0, 64⟩ [], none, 60, 0⟩] })),
      (.finalise 0 7, wOn.setLink 7 (fun l => { l with slots := [⟨.fixed ⟨[], [], [], 4, 0x800, [], [], 123, 123, 0, 64⟩ [], none, 60, 5, 5, false, none, false⟩] })),
      (.commitPoint 0 7, wOn.setLink 7 (fun l => { l with slots := [⟨.fixed ⟨[], [], [], 4, 0x800, [], [], 123, 123, 0, 64⟩ [], none, 60, 5, 5, false, (some ([], 9)), false⟩] })),
      (.ageDrop 0 7, wOn.setLink 7 (fun l => { l with slots := [⟨.fixed ⟨[], [], [], 4, 0x800, [], [], 123, 123, 0, 64⟩ [], none, 60, 0, 0, false, none, false⟩] })),
      (.arpRequest 0, { wOn with ports := { wOn.ports with claims := [⟨.arp, ⟨7, 0, []⟩⟩] } }),
      (.neighborSolicitation 0, { wOn with ports := { wOn.ports with claims := [⟨.nd, ⟨7, 0, []⟩⟩] } }),
      (.exceptionFrame 0, ({ wOn with ports := { wOn.ports with claims := [⟨.exc 7, ⟨7, 0, []⟩⟩] } }).wr A.hrcExcMap1 0xFFFFFFFF),
      (.bucketMoveDone 0 255, { wOn with hrc := { wOn.hrc with moves := [⟨255, 0, 1, [], 0⟩] } }),
      (.ntsKeyDrawn 0, wOn.wr A.pkeTrngStatus 1),
      (.keyDeferRetry 0, { wOn.wr A.pkeTrngStatus 1 with nts := { wOn.nts with deferred := some 0 } }),
      (.mintJob 0 (some (([15, 0, 1] ++ zeros 77 ++ [255, 255, 0, 0]))), { (((wOn.wr A.ntsMintCfg 0x501).wr (A.hifRingCfg 5) 5).wr (A.hifRingState 5) 1).setRing 5 (fun r => { r with waiting := [⟨0, 4096, 2048, 0, [], 0, 0, false⟩] }) with nts := { wOn.nts with current := true, keys := [(1, zeros 32)] } }),
      (.reloadComplete 0 15 false, wOn.wr (A.svpPipeStatus 15) 3)] : List (Instr × State)),
      x.2.canonical = true ∧ ∃ t, exec x.1 x.2 = .next t :=
  framedRegs _ (by decide +kernel)

theorem test_protocol_frames :
    ∀ x ∈ ([(.delayReqRx 0, wClaim .ptp (ethF 0x88F7 (ptpMsg 1 0 (zeros 10) 5 (zeros 10))) wInst, [.regs, .totals, .ports, .ptp]),
      (.unicastRequestRx 0, wClaim (.signal 0) (ethF 0x88F7 (ptpMsg 12 4 (zeros 10) 5 (zeros 10 ++ reqTlv))) (wInst.wr A.ptpCfg 0x10000), [.regs, .totals, .celen, .hif, .ports, .ptp, .out, .ts]),
      (.unicastCancelRx 0, { wClaim (.signal 1) (ethF 0x88F7 (ptpMsg 12 4 (zeros 10) 5 (zeros 10 ++ [0, 6, 0, 2, 0x90, 0]))) wInst with ptp := { wOn.ptp with ctxs := [(4095, ⟨0, 7, ⟨[], [], [], 0, 0, [], [], 0, 0, 0, 0⟩, zeros 16, zeros 10, none, none, some ⟨0, 5⟩, 0, 0, 0, 1000000000, 0⟩)] } }, [.regs, .totals, .celen, .hif, .refs, .ports, .ptp, .out, .ts]),
      (.grantExpire 0, { wInst with ptp := { wOn.ptp with ctxs := [(4095, ⟨0, 7, ⟨[], [], [], 0, 0, [], [], 0, 0, 0, 0⟩, zeros 16, zeros 10, some ⟨0, 7⟩, none, some ⟨0, 0⟩, 0, 0, 0, 0, 0⟩)] } }, [.regs, .totals, .ptp, .ts]),
      (.slaveMessageRx 0, wClaim .ptp (ethF 0x88F7 (ptpMsg 11 0 (zeros 10) 5 (zeros 30))) (wSlv 0x70001 (id)), [.regs, .totals, .journal, .celen, .hif, .refs, .ports, .ptp, .out, .ts]),
      (.annTimeout 0 1, (wSlv 0x70001 (fun x => { x with chosen := some 2, masters := [none, none, some ⟨zeros 10, [], 0, none⟩, none] })).wr (A.ptpSlvRates 1) 0, [.regs, .totals, .celen, .hif, .refs, .ptp, .out]),
      (.slaveGrantRenew 0 1, wSlv 0x70049 (fun x => { x with grants := [⟨0, 11, 0, none⟩] }), [.regs, .totals, .celen, .hif, .refs, .ports, .ptp, .out]),
      (.esmcRx 0, wClaim .esmc (ethF 0x8809 ([0x0A, 0, 0x19, 0xA7, 0, 1, 0x10, 0, 0, 0, 1, 0, 4, 2] ++ zeros 40)) ({ wOn.wr A.ptpSynceIn 0x700 with ts := { wOn.ts with acc := 10 ^ 9 * 2 ^ 48 } }), [.regs, .totals, .refs, .ports, .ptp]),
      (.grantUnicastTransmissionRx 0, wClaim (.signal 2) (udpF (ptpMsg 12 4 (zeros 10) 5 (zeros 10 ++ [0, 5, 0, 8, 0xB0, 0, 0, 0, 1, 44, 0, 1]))) (wSlv 0x70049 id), [.regs, .totals, .celen, .hif, .refs, .ports, .ptp, .out]),
      (.etxelRequest 0 15, { ((wOn.wr A.rcpStatus 0x30).wr A.tscState 2).wr A.rcpWindowUs 1000 with rcp := { wOn.rcp with online := some OnlineKey.absent }, hrc := { wOn.hrc with queues := modAt wOn.hrc.queues 15 (fun _ => [wReq .etxel]) } }, [.regs, .totals, .celen, .hif, .ports, .hrc, .rcp, .tal, .out]),
      (.roughtimeRequest 0 15, { ((wOn.wr A.rcpStatus 0x30).wr A.tscState 2).wr A.rcpWindowUs 1000 with rcp := { wOn.rcp with online := some OnlineKey.absent }, hrc := { wOn.hrc with queues := modAt wOn.hrc.queues 15 (fun _ => [wReq .roughtime]) } }, [.regs, .totals, .celen, .hif, .hrc, .rcp, .tal, .out]),
      (.sealDone 0, { wOn with rcp := { wOn.rcp with closed := [⟨7, 0, OnlineKey.absent, [⟨wReq .etxel, 0, 0, zeros 32⟩], [⟨0, zeros 104, [], some (zeros 64, 5)⟩]⟩] }, ts := { wOn.ts with meas := 1000000 * 2 ^ 48 } }, [.regs, .totals, .celen, .hif, .rcp, .tal, .out]),
      (.sealTimeout 0, { wOn with rcp := { wOn.rcp with closed := [⟨7, 0, OnlineKey.absent, [⟨wReq .etxel, 0, 0, zeros 32⟩], [⟨0, zeros 104, [], none⟩]⟩] }, ts := { wOn.ts with meas := 1000000 * 2 ^ 48 } }, [.regs, .totals, .celen, .hif, .pke, .rcp, .tal, .out]),
      (.receiptRelease 0, { wOn.wr (A.macLinkStatus 7) 1 with rcp := { wOn.rcp with queue := [⟨wReq .etxel, [1, 2], 0⟩] } }, [.regs, .totals, .celen, .hif, .ports, .rcp, .tal, .out]),
      (.onlineKeyExpire 0, { wOn with rcp := { wOn.rcp with online := some OnlineKey.absent }, ts := { wOn.ts with acc := 2 ^ 48 } }, [.regs, .totals, .celen, .hif, .rcp, .out]),
      (.ed25519Sign 0 15, (wCore (job (jrec 1 0 0xFF 4 0 0) (zeros 32))), [.regs, .totals, .pke, .fresh]),
      (.ed25519Verify 0 15, (wCore (job (jrec 2 0 0xFF 4 0 0) (le 32 1 ++ le 32 1 ++ zeros 32))), [.regs, .totals, .pke, .fresh]),
      (.ed448Sign 0 15, (wCore (job (jrec 3 0 0xFF 8 0 0) (zeros 57))), [.regs, .totals, .pke, .fresh]),
      (.ed448Verify 0 15, (wCore (job (jrec 4 0 0xFF 8 0 0) (le 57 1 ++ le 57 1 ++ zeros 57))), [.regs, .totals, .pke, .fresh]),
      (.x25519 0 15, (wCore (job (jrec 5 0 0xFF 4 0 0) (le 32 9 ++ le 32 9))), [.regs, .totals, .pke, .fresh]),
      (.x448 0 15, (wCore (job (jrec 6 0 0xFF 7 0 0) (le 56 5 ++ le 56 5))), [.regs, .totals, .pke, .fresh]),
      (.ecdsaSign 0 15, (wCore (job (jrec 7 0x11 0xFF 4 0 0) (be 32 1 ++ zeros 32))), [.regs, .totals, .pke, .fresh]),
      (.ecdsaVerify 0 15, (wCore (job (jrec 8 0x11 0xFF 4 0 0) (p256G ++ be 32 1 ++ be 32 1 ++ zeros 32))), [.regs, .totals, .pke, .fresh]),
      (.ecdh 0 15, (wCore (job (jrec 9 0x11 0xFF 4 0 0) (be 32 1 ++ p256G))), [.regs, .totals, .pke, .fresh]),
      (.rsaPrivate 0 15, (wCore (job (jrec 10 0 0xFF 1 0 0) (RsaKey.bytes ⟨15, 7, 5, 3, 3, 1, 2⟩ 1 ++ be 8 2))), [.regs, .totals, .pke, .fresh]),
      (.rsaPublic 0 15, (wCore (job (jrec 11 0 0xFF 1 0 0) (be 8 15 ++ be 8 7 ++ be 8 2))), [.regs, .totals, .pke, .fresh]),
      (.keygen 0 15, (wCore (job (jrec 16 1 0 4 0 0) [])).wr A.pkeTrngStatus 1, [.regs, .totals, .pke, .fresh]),
      (.keyImport 0 15, (wCore (job (jrec 17 1 0 4 0 0) (zeros 32))), [.regs, .totals, .pke, .fresh]),
      (.keyWipe 0, wJob (job (jrec 0x12 0 63 0 0 0) []) ⟨2, 1, 1, false, 4, zeros 32, zeros 32⟩, [.regs, .totals, .journal, .celen, .hif, .pke, .out]),
      (.keyPublic 0, wJob (job (jrec 0x13 0 63 0 0 0) []) ⟨2, 1, 1, false, 4, zeros 32, zeros 32⟩, [.regs, .totals, .hif, .pke, .out]),
      (.pkeDispatch 0 15, wJob (job (jrec 1 0 0xFF 4 0 0) (zeros 32)) KeySlot.empty, [.regs, .totals, .hif, .pke, .out]),
      (.pkeYield 0 15, { wCore (job (jrec 1 0 0xFF 4 0 0) (zeros 32)) with pke := { (wCore (job (jrec 1 0 0xFF 4 0 0) (zeros 32))).pke with queue := [{ job (jrec 1 0 0xFF 4 0 0) (zeros 32) with urgent := true }] } }, [.regs, .totals, .hif, .pke, .out]),
      (.pkeJobAged 0, wJob (job (jrec 1 0 0xFF 4 0 0) (zeros 32)) KeySlot.empty, [.pke]),
      (.pkeJobComplete 0 15 true, { wCore ({ job (jrec 1 0 0xFF 4 0 0) (zeros 32) with result := some (0, 0, zeros 64) }) with ts := { wOn.ts with cycles := 100000 } }, [.regs, .totals, .journal, .celen, .hif, .refs, .gnss, .hrc, .pke, .rcp, .tal, .fences, .out, .fresh]),
      (.keygenProgress 0 15 3 8, wCore (job (jrec 16 0x21 63 32 0 0) []), [.regs, .pke, .out]),
      (.drbgReseed 0, { wOn.wr A.pkeTrngSrc 0x5555 with ts := { wOn.ts with cycles := 100000 } }, [.regs, .totals, .pke]),
      (.trngSourceFail 0 7 true, wOn.wr A.pkeTrngSrc 0x5555, [.regs, .totals, .journal, .celen, .hif, .pke, .out]),
      (.trngSourceRetest 0 7 true, { wOn.wr A.pkeTrngSrc 0xAAAA with pke := { wOn.pke with srcRetest := modAt wOn.pke.srcRetest 7 (fun _ => some 0) } }, [.regs, .totals, .journal, .celen, .hif, .pke, .out]),
      (.unitSelftestDone 0 5 15 true, { wOn.setBit (fenceBit 5 15).1 (fenceBit 5 15).2 true with testing := some (5, 15) }, [.regs, .totals, .journal, .celen, .hif, .refs, .gnss, .hrc, .pke, .tal, .fences, .testing, .out])] : List (Instr × State × List Part)),
      (∃ t, exec x.1 x.2.1 = .next t) ∧ Part.queue ∉ x.2.2 :=
  framed _ (by decide +kernel)


/-- Register 0 is outside the lists of `Obligations.ProtocolRegisterFrames`. -/
theorem test_protocol_register_frames_outside (k : Nat) :
    0 ∉ ([A.ptpProtoDrop, A.ptpNoGrant, A.ptpDreqExcess] : List Nat) ∧
    0 ∉ ([span 0x68000 0x70000 k, span 0x10000 0x14000 k] ++ reportWords k : List Nat) ∧
    0 ∉ ([span 0x68000 0x70000 k, span 0x10000 0x14000 k, span 0x14000 0x18000 k] ++ reportWords k : List Nat) ∧
    0 ∉ ([A.ptpGrantExpired, A.tscCalUsed, A.ptpCtxUsed, A.ptpInstContexts (k % 16), A.ptpCtxRead (k % 12)] : List Nat) ∧
    0 ∉ ([span 0x68000 0x70000 k, span 0x10000 0x14000 k, span 0x14000 0x18000 k] ++ journalWords k : List Nat) ∧
    0 ∉ ([A.ptpSlvState 1, A.ptpSlvEvent 1, A.refInEvent (k % 16), A.refInLosCount (k % 16)] ++ reportWords k : List Nat) ∧
    0 ∉ ([A.ptpEsmcBad, A.ptpEsmcRx] : List Nat) ∧
    0 ∉ ([A.ptpSlvState (k % 2), A.ptpSlvEvent (k % 2), A.refInEvent (k % 16), A.refInLosCount (k % 16)] ++ reportWords k : List Nat) ∧
    0 ∉ ([span 0x70000 0x78000 k, span 0xC000 0x10000 k, span 0x4000 0x8000 k] ++ reportWords k : List Nat) ∧
    0 ∉ ([span 0x70000 0x78000 k, span 0xC000 0x10000 k, span 0x78000 0x80000 k] ++ reportWords k : List Nat) ∧
    0 ∉ ([A.svpPipeSlots k, A.rcpEtxelOk, A.rcpRtOk, A.macLinkEvent k, A.macLinkLinkDrop k, A.talSampleFiltered, A.talEvent, A.talSampleMissed, A.talSampleSeq, A.talStatus] ++ reportWords k : List Nat) ∧
    0 ∉ ([A.rcpEvent, A.rcpKeyId, A.rcpRotateHi, A.rcpRotateLo, A.rcpStatus, A.rcpOnlinePub (k % 8), A.rcpCert (k % 32)] ++ reportWords k : List Nat) ∧
    0 ∉ ([A.pkeFeDenied, A.pkeCoreStatus 15, A.pkeCoreTag 15, A.pkeQueue, A.pkeStatus] : List Nat) ∧
    0 ∉ ([A.pkeJobsOk, A.pkeJobsOk + 4, A.pkeJobsFail, A.pkeAborted, A.pkeFencedJobs, A.pkeQueue] ++ ringWords k : List Nat) ∧
    0 ∉ ([] : List Nat) ∧
    0 ∉ ([A.pkeCoreStatus 15, A.pkeCoreTag 15, A.pkeQueue, A.pkeStatus] : List Nat) ∧
    0 ∉ ([A.pkeSeeds] : List Nat) ∧
    0 ∉ ([span 0x78000 0x80000 k] ++ journalWords k : List Nat) := by
  and_intros <;> intro h <;>
    simp only [span, reportWords, ringWords, journalWords, faultWords, List.append_assoc, List.cons_append, List.nil_append, List.mem_cons,
      List.not_mem_nil, or_false, A.glbEvent, A.glbFaultOverwrite, A.glbFaultSeq, A.glbJournalLost, A.glbJournalSeq, A.hifEvent, A.hifEvtDrop, A.hifRingPosted, A.hifRingState, A.macLinkEvent, A.macLinkLinkDrop, A.pkeAborted, A.pkeCoreStatus, A.pkeCoreTag, A.pkeFeDenied, A.pkeFencedJobs, A.pkeJobsFail, A.pkeJobsOk, A.pkeQueue, A.pkeSeeds, A.pkeStatus, A.ptpCtxRead, A.ptpCtxUsed, A.ptpDreqExcess, A.ptpEsmcBad, A.ptpEsmcRx, A.ptpGrantExpired, A.ptpInstContexts, A.ptpNoGrant, A.ptpProtoDrop, A.ptpSlvEvent, A.ptpSlvState, A.rcpCert, A.rcpEtxelOk, A.rcpEvent, A.rcpKeyId, A.rcpOnlinePub, A.rcpRotateHi, A.rcpRotateLo, A.rcpRtOk, A.rcpStatus, A.refInEvent, A.refInLosCount, A.svpPipeSlots, A.talEvent, A.talSampleFiltered, A.talSampleMissed, A.talSampleSeq, A.talStatus, A.tscCalUsed] at h <;> omega
theorem test_protocol_register_frames :
    ∀ x ∈ ([(.delayReqRx 0, wClaim .ptp (ethF 0x88F7 (ptpMsg 1 0 (zeros 10) 5 (zeros 10))) wInst),
      (.unicastRequestRx 0, wClaim (.signal 0) (ethF 0x88F7 (ptpMsg 12 4 (zeros 10) 5 (zeros 10 ++ reqTlv))) (wInst.wr A.ptpCfg 0x10000)),
      (.unicastCancelRx 0, { wClaim (.signal 1) (ethF 0x88F7 (ptpMsg 12 4 (zeros 10) 5 (zeros 10 ++ [0, 6, 0, 2, 0x90, 0]))) wInst with ptp := { wOn.ptp with ctxs := [(4095, ⟨0, 7, ⟨[], [], [], 0, 0, [], [], 0, 0, 0, 0⟩, zeros 16, zeros 10, none, none, some ⟨0, 5⟩, 0, 0, 0, 1000000000, 0⟩)] } }),
      (.grantExpire 0, { wInst with ptp := { wOn.ptp with ctxs := [(4095, ⟨0, 7, ⟨[], [], [], 0, 0, [], [], 0, 0, 0, 0⟩, zeros 16, zeros 10, some ⟨0, 7⟩, none, some ⟨0, 0⟩, 0, 0, 0, 0, 0⟩)] } }),
      (.slaveMessageRx 0, wClaim .ptp (ethF 0x88F7 (ptpMsg 11 0 (zeros 10) 5 (zeros 30))) (wSlv 0x70001 (id))),
      (.annTimeout 0 1, (wSlv 0x70001 (fun x => { x with chosen := some 2, masters := [none, none, some ⟨zeros 10, [], 0, none⟩, none] })).wr (A.ptpSlvRates 1) 0),
      (.slaveGrantRenew 0 1, wSlv 0x70049 (fun x => { x with grants := [⟨0, 11, 0, none⟩] })),
      (.esmcRx 0, wClaim .esmc (ethF 0x8809 ([0x0A, 0, 0x19, 0xA7, 0, 1, 0x10, 0, 0, 0, 1, 0, 4, 2] ++ zeros 40)) ({ wOn.wr A.ptpSynceIn 0x700 with ts := { wOn.ts with acc := 10 ^ 9 * 2 ^ 48 } })),
      (.grantUnicastTransmissionRx 0, wClaim (.signal 2) (udpF (ptpMsg 12 4 (zeros 10) 5 (zeros 10 ++ [0, 5, 0, 8, 0xB0, 0, 0, 0, 1, 44, 0, 1]))) (wSlv 0x70049 id)),
      (.sealDone 0, { wOn with rcp := { wOn.rcp with closed := [⟨7, 0, OnlineKey.absent, [⟨wReq .etxel, 0, 0, zeros 32⟩], [⟨0, zeros 104, [], some (zeros 64, 5)⟩]⟩] }, ts := { wOn.ts with meas := 1000000 * 2 ^ 48 } }),
      (.sealTimeout 0, { wOn with rcp := { wOn.rcp with closed := [⟨7, 0, OnlineKey.absent, [⟨wReq .etxel, 0, 0, zeros 32⟩], [⟨0, zeros 104, [], none⟩]⟩] }, ts := { wOn.ts with meas := 1000000 * 2 ^ 48 } }),
      (.receiptRelease 0, { wOn.wr (A.macLinkStatus 7) 1 with rcp := { wOn.rcp with queue := [⟨wReq .etxel, [1, 2], 0⟩] } }),
      (.onlineKeyExpire 0, { wOn with rcp := { wOn.rcp with online := some OnlineKey.absent }, ts := { wOn.ts with acc := 2 ^ 48 } }),
      (.ed25519Sign 0 15, (wCore (job (jrec 1 0 0xFF 4 0 0) (zeros 32)))),
      (.ed25519Verify 0 15, (wCore (job (jrec 2 0 0xFF 4 0 0) (le 32 1 ++ le 32 1 ++ zeros 32)))),
      (.ed448Sign 0 15, (wCore (job (jrec 3 0 0xFF 8 0 0) (zeros 57)))),
      (.ed448Verify 0 15, (wCore (job (jrec 4 0 0xFF 8 0 0) (le 57 1 ++ le 57 1 ++ zeros 57)))),
      (.x25519 0 15, (wCore (job (jrec 5 0 0xFF 4 0 0) (le 32 9 ++ le 32 9)))),
      (.x448 0 15, (wCore (job (jrec 6 0 0xFF 7 0 0) (le 56 5 ++ le 56 5)))),
      (.ecdsaSign 0 15, (wCore (job (jrec 7 0x11 0xFF 4 0 0) (be 32 1 ++ zeros 32)))),
      (.ecdsaVerify 0 15, (wCore (job (jrec 8 0x11 0xFF 4 0 0) (p256G ++ be 32 1 ++ be 32 1 ++ zeros 32)))),
      (.ecdh 0 15, (wCore (job (jrec 9 0x11 0xFF 4 0 0) (be 32 1 ++ p256G)))),
      (.rsaPrivate 0 15, (wCore (job (jrec 10 0 0xFF 1 0 0) (RsaKey.bytes ⟨15, 7, 5, 3, 3, 1, 2⟩ 1 ++ be 8 2)))),
      (.rsaPublic 0 15, (wCore (job (jrec 11 0 0xFF 1 0 0) (be 8 15 ++ be 8 7 ++ be 8 2)))),
      (.keygen 0 15, (wCore (job (jrec 16 1 0 4 0 0) [])).wr A.pkeTrngStatus 1),
      (.keyImport 0 15, (wCore (job (jrec 17 1 0 4 0 0) (zeros 32)))),
      (.keyPublic 0, wJob (job (jrec 0x13 0 63 0 0 0) []) ⟨2, 1, 1, false, 4, zeros 32, zeros 32⟩),
      (.pkeJobAged 0, wJob (job (jrec 1 0 0xFF 4 0 0) (zeros 32)) KeySlot.empty),
      (.keygenProgress 0 15 3 8, wCore (job (jrec 16 0x21 63 32 0 0) [])),
      (.drbgReseed 0, { wOn.wr A.pkeTrngSrc 0x5555 with ts := { wOn.ts with cycles := 100000 } }),
      (.trngSourceFail 0 7 true, wOn.wr A.pkeTrngSrc 0x5555),
      (.trngSourceRetest 0 7 true, { wOn.wr A.pkeTrngSrc 0xAAAA with pke := { wOn.pke with srcRetest := modAt wOn.pke.srcRetest 7 (fun _ => some 0) } })] : List (Instr × State)),
      x.2.canonical = true ∧ ∃ t, exec x.1 x.2 = .next t :=
  framedRegs _ (by decide +kernel)

theorem test_system_frames :
    ∀ x ∈ ([(.kick 0, { (wOn.wr A.hifDbAddrLo 4096).wr (A.hifRingCfg 255) 8 with hif := { wOn.hif with attached := true } }, [.regs, .totals, .hif, .out]),
      (.doorbellReadDone 0 none, { wOn with hif := { wOn.hif with dbOutstanding := true } }, [.regs, .totals, .journal, .celen, .hif, .pke, .out]),
      (.hostFrameTx 0 5 (some (zeros 60)), (((wRing 9 (desc 60 7 0)).wr (A.macLinkStatus 7) 1).wr (A.macPortCfg 1) 0x3E).wr (A.macStatus 1) 2, [.regs, .totals, .hif, .ports, .out]),
      (.hostFrameTimeout 0, { wOn.setLink 7 (fun l => { l with queue := [⟨zeros 60, some (5, 0, 0), none⟩] }) with ts := { wOn.ts with meas := 100000000 * 2 ^ 48 } }, [.regs, .hif, .ports, .out]),
      (.recordFlush 0 5, ((wRing 3 (desc 4096 0 0)).setRing 5 (fun r => { r with fill := 64 })).wr (A.hifRingFlush 5) 0, [.regs, .hif, .out]),
      (.xfer 0 5 ([]) true none, wRing 6 (desc 64 2 0), [.regs, .totals, .journal, .celen, .hif, .gnss, .boot, .fw, .out]),
      (.vectorTimer 0 63, { wOn.wr (A.hifVec 63) 0x10000 with hif := { wOn.hif with vecs := modAt wOn.hif.vecs 63 (fun x => { x with items := 2 }) }, ts := { wOn.ts with meas := 1000 * 2 ^ 48 }, msix := List.replicate 256 0 }, [.hif, .out]),
      (.blockEventCoalesce 0, { wOn with hif := { wOn.hif with coalesce := [⟨0, A.hifEvent, 0, true⟩] } }, [.regs, .totals, .celen, .hif, .out]),
      (.ringQuiesced 0 255, wOn.wr (A.hifRingState 255) 2, [.regs, .totals, .celen, .hif, .out]),
      (.pcieLinkUp 0 5 16, wOn, [.regs, .totals, .celen, .hif, .out]),
      (.pcieRetrain 0, { wOn with hif := { wOn.hif with trainAt := some 0 }, ts := { wOn.ts with meas := 10000000000 * 2 ^ 48 } }, [.hif, .out]),
      (.journalFlashWrite 0, wOn, [.regs, .totals, .journal, .celen, .hif, .out]),
      (.sessionOpen 0 ([9]) true ([]) 0 0, wOn.wr A.pwrStatus 1, [.regs, .sources, .totals, .journal, .celen, .hif, .out, .fresh]),
      (.sessionIdle 0 4, { wSess id wOn with ts := { wOn.ts with meas := secs 300 } }, [.regs, .sources, .totals, .journal, .celen, .hif, .out]),
      (.sessionClosed 0 4 true, wSess id wOn, [.regs, .sources, .totals, .journal, .celen, .hif, .out]),
      (.celenHello 0 4 1 (mpMsg (zeros 4)), wSess id wOn, [.celen, .out]),
      (.celenRead 0 4 (mpMsg (be 4 0x8030 ++ [2, 15, 0, 0])), wSess id wOn, [.regs, .sources, .faultRead, .totals, .journal, .celen, .hif, .ports, .pke, .out, .fresh]),
      (.celenRead64 0 4 (mpMsg (be 4 0x8030)), wSess id wOn, [.regs, .sources, .faultRead, .totals, .journal, .celen, .hif, .ports, .pke, .out]),
      (.celenSubscribe 0 4 (mpMsg (be 4 0x1FFFFF ++ [7, 0, 0, 0] ++ zeros 4)), wSess id wOn, [.celen, .out]),
      (.celenUnsubscribe 0 4 (mpMsg ([])), wSess id wOn, [.celen, .hif, .out]),
      (.journalRead 0 4 (mpMsg (zeros 4 ++ [0, 9, 0, 0])), wSess id wOn, [.celen, .out]),
      (.celenStage 0 4 (mpMsg ([1, 0, 0, 0] ++ be 8 0 ++ be 4 64)) none, wSess id wOn, [.regs, .totals, .journal, .celen, .hif, .gnss, .boot, .fw, .out]),
      (.celenNet 0 4 (mpMsg (zeros 44)), wSess id wOn, [.celen, .out]),
      (.celenTrust 0 4 (mpMsg ([1, 0, 0, 0] ++ [0, 2, 5, 6])), wSess id wOn, [.regs, .totals, .journal, .celen, .hif, .out]),
      (.celenBye 0 4 (mpMsg ([])), wSess id wOn, [.regs, .sources, .totals, .journal, .celen, .hif, .out]),
      (.inputQualified 0 3 (sense 400), wOn, [.regs, .totals, .celen, .hif, .pwr, .out]),
      (.inputLost 0 3 (sense 400), wOn.wr A.pwrStatus 0xF, [.regs, .totals, .celen, .hif, .pwr, .out]),
      (.kaLost 0, { wOn with hol := { wOn.hol with keepAlive := true } }, [.regs, .hol, .gnss, .pwr]),
      (.stabilityReached 0, { wOn.wr A.bootRecFlags 0xC0 with boot := { wOn.boot with stableAt := some 0 } }, [.regs, .totals, .celen, .hif, .boot, .out]),
      (.watchdog 0 none, wOn, [.regs, .sources, .totals, .journal, .celen, .hif, .boot, .out]),
      (.thermWarn 0 (sense 1300), wOn, [.regs, .totals, .celen, .hif, .pwr, .out]),
      (.alarmConditionChange 0, { wOn with pwr := { wOn.pwr with driven := true } }, [.regs, .pwr, .out]),
      (.alarmCloseTimer 0 1, { wOn with pwr := { wOn.pwr with driven := true, alarmEnd := [none, some 0] } }.wr A.pwrAlm1Mask 0, [.regs, .pwr, .out]),
      (.noSelectionTimer 0, { wOn with pwr := { wOn.pwr with noSelAt := some 0 }, ts := { wOn.ts with meas := 2000000000 * 2 ^ 48 } }, [.regs, .pwr, .out]),
      (.casLinkTick 0, { wLane with ts := { wOn.ts with calendar := [(3, ownEntry 0x17 0 0 0 1 0)] } }, [.regs, .totals, .journal, .celen, .hif, .refs, .cas, .out, .ts]),
      (.linkFrameRx 0 7 (peorel 1 156 []) 0 0, wLane, [.regs, .totals, .journal, .celen, .hif, .refs, .cas, .out, .ts]),
      (.opReqRx 0 7 (peorel 2 60 (zeros 4 ++ [1, 0, 0, 0] ++ zeros 4 ++ be 2 5 ++ zeros 6)), wLane.wr A.casStatus 2, [.regs, .totals, .journal, .celen, .hif, .refs, .cas, .out, .ts]),
      (.opRx 0 7 (peorel 3 60 (be 4 8 ++ zeros 4)), wLane, [.regs, .totals, .journal, .celen, .hif, .refs, .cas, .out, .ts]),
      (.casBarrier 0, wOp 1, [.regs, .totals, .celen, .hif, .cas, .out, .ts]),
      (.casBroadcast 0, wOp 2, [.regs, .totals, .celen, .hif, .cas, .out, .ts]),
      (.casSnapshot 0, wOp 3, [.regs, .totals, .celen, .hif, .tal, .cas, .out, .ts]),
      (.resultRx 0 7 (peorel 4 88 (be 4 3)), { wLane with cas := { wOn.cas with ops := [{ casOp 1 with lanes := [7] }] } }, [.regs, .totals, .journal, .celen, .hif, .refs, .cas, .out]),
      (.resultDeadline 0, { wLane.wr A.casGather 0 with cas := { wOn.cas with ops := [{ casOp 1 with own := some OpResult.zero }] } }, [.regs, .totals, .celen, .hif, .cas, .out]),
      (.doneRx 0 7 (peorel 5 88 (zeros 48 ++ be 8 wOn.serial ++ be 4 4)), { wLane with cas := { wOn.cas with req := some ⟨1, 0, 4, 0, none⟩ } }, [.regs, .totals, .journal, .celen, .hif, .refs, .cas, .out]),
      (.requestTimeout 0, { wLane with cas := { wOn.cas with req := some ⟨1, 0, 4, 0, none⟩ }, ts := { wOn.ts with meas := 10000000 * 2 ^ 48 } }, [.regs, .totals, .celen, .hif, .cas, .out, .fresh]),
      (.thetaLoLaneRead 0 4 7, wOn.setLane 7 (fun x => { x with meas := some (-5, 9, 64) }), [.regs, .sources, .faultRead, .totals, .journal, .celen, .hif, .ports, .pke, .out]),
      (.opResult0Read 0 0, { wOn with cas := { wOn.cas with result := [1, 2, 3] } }, [.regs, .sources, .faultRead, .totals, .journal, .celen, .hif, .ports, .pke, .out])] : List (Instr × State × List Part)),
      (∃ t, exec x.1 x.2.1 = .next t) ∧ Part.queue ∉ x.2.2 :=
  framed _ (by decide +kernel)


/-- Register 0 is outside the lists of `Obligations.SystemRegisterFrames`. -/
theorem test_system_register_frames_outside (k : Nat) :
    0 ∉ ([A.hifKicks, A.hifDbReads] : List Nat) ∧
    0 ∉ ([A.macLinkTooLong (k % 8)] ++ ringWords k : List Nat) ∧
    0 ∉ (ringWords k : List Nat) ∧
    0 ∉ ([A.hifRingPosted 5, A.hifRingState 5] : List Nat) ∧
    0 ∉ ([] : List Nat) ∧
    0 ∉ (reportWords k : List Nat) ∧
    0 ∉ ([A.hifRingState 255, A.hifStatus] ++ reportWords k : List Nat) ∧
    0 ∉ ([A.hifStatus] ++ reportWords k : List Nat) ∧
    0 ∉ ([A.glbEvent, A.glbJournalLost] ++ reportWords k : List Nat) ∧
    0 ∉ (journalWords k : List Nat) ∧
    0 ∉ ([A.bootRecFlags, A.gnsSnapStatus] ++ journalWords k : List Nat) ∧
    0 ∉ ([A.pwrPIn, A.pwrVKa, A.pwrVDcb, A.pwrVDca, A.pwrVAc, A.pwrTBoard, A.pwrTInlet, A.pwrTZafel, A.pwrStatus, A.pwrEvent, A.pwrDomState] ++ reportWords k : List Nat) ∧
    0 ∉ ([A.pwrPIn, A.pwrVKa, A.pwrVDcb, A.pwrVDca, A.pwrVAc, A.pwrTBoard, A.pwrTInlet, A.pwrTZafel, A.pwrStatus, A.pwrEvent, A.pwrInputLoss] ++ reportWords k : List Nat) ∧
    0 ∉ ([A.pwrDomState, A.gnsStatus, A.gnsSideBias (k % 2), A.gnsSideChan (k % 2) (k / 2 % 640), A.holTempCart, A.holCartDiff] : List Nat) ∧
    0 ∉ ([A.bootEvent, A.bootStatus, A.bootRecFlags] ++ reportWords k : List Nat) ∧
    0 ∉ ([span 0xA000 0xC000 k, span 0x8000 0xA000 k] ++ journalWords k : List Nat) ∧
    0 ∉ ([A.pwrPIn, A.pwrVKa, A.pwrVDcb, A.pwrVDca, A.pwrVAc, A.pwrTBoard, A.pwrTInlet, A.pwrTZafel, A.pwrStatus, A.pwrEvent, A.pwrThermWarns] ++ reportWords k : List Nat) ∧
    0 ∉ ([A.pwrIoStatus] : List Nat) ∧
    0 ∉ ([span 0x80000 0x90000 k, span 0x48000 0x50000 k, span 0x14000 0x18000 k, span 0x10000 0x14000 k] ++ journalWords k : List Nat) ∧
    0 ∉ ([span 0x80000 0x90000 k, span 0x48000 0x50000 k, span 0x14000 0x18000 k] ++ journalWords k : List Nat) ∧
    0 ∉ ([span 0x80000 0x90000 k, span 0x10000 0x14000 k] ++ reportWords k : List Nat) ∧
    0 ∉ ([span 0x80000 0x90000 k, span 0x10000 0x14000 k, span 0xC000 0x10000 k] ++ reportWords k : List Nat) ∧
    0 ∉ ([A.casStatus, A.casEvent, A.casOpResult 0] ++ reportWords k : List Nat) ∧
    0 ∉ ([A.casEvent, A.casStatus, A.casOpResult 0] ++ reportWords k : List Nat) ∧
    0 ∉ ([span 0x48000 0x50000 k] ++ faultWords k : List Nat) ∧
    0 ∉ ([span 0x80000 0x90000 k] ++ faultWords k : List Nat) := by
  and_intros <;> intro h <;>
    simp only [span, reportWords, ringWords, journalWords, faultWords, List.append_assoc, List.cons_append, List.nil_append, List.mem_cons,
      List.not_mem_nil, or_false, A.bootEvent, A.bootRecFlags, A.bootStatus, A.casEvent, A.casOpResult, A.casStatus, A.glbEvent, A.glbFaultOverwrite, A.glbFaultSeq, A.glbJournalLost, A.glbJournalSeq, A.gnsSideBias, A.gnsSideChan, A.gnsSnapStatus, A.gnsStatus, A.hifDbReads, A.hifEvent, A.hifEvtDrop, A.hifKicks, A.hifRingPosted, A.hifRingState, A.hifStatus, A.holCartDiff, A.holTempCart, A.macLinkTooLong, A.pwrDomState, A.pwrEvent, A.pwrInputLoss, A.pwrIoStatus, A.pwrPIn, A.pwrStatus, A.pwrTBoard, A.pwrTInlet, A.pwrTZafel, A.pwrThermWarns, A.pwrVAc, A.pwrVDca, A.pwrVDcb, A.pwrVKa] at h <;> omega
theorem test_system_register_frames :
    ∀ x ∈ ([(.kick 0, { (wOn.wr A.hifDbAddrLo 4096).wr (A.hifRingCfg 255) 8 with hif := { wOn.hif with attached := true } }),
      (.hostFrameTx 0 5 (some (zeros 60)), (((wRing 9 (desc 60 7 0)).wr (A.macLinkStatus 7) 1).wr (A.macPortCfg 1) 0x3E).wr (A.macStatus 1) 2),
      (.hostFrameTimeout 0, { wOn.setLink 7 (fun l => { l with queue := [⟨zeros 60, some (5, 0, 0), none⟩] }) with ts := { wOn.ts with meas := 100000000 * 2 ^ 48 } }),
      (.recordFlush 0 5, ((wRing 3 (desc 4096 0 0)).setRing 5 (fun r => { r with fill := 64 })).wr (A.hifRingFlush 5) 0),
      (.vectorTimer 0 63, { wOn.wr (A.hifVec 63) 0x10000 with hif := { wOn.hif with vecs := modAt wOn.hif.vecs 63 (fun x => { x with items := 2 }) }, ts := { wOn.ts with meas := 1000 * 2 ^ 48 }, msix := List.replicate 256 0 }),
      (.blockEventCoalesce 0, { wOn with hif := { wOn.hif with coalesce := [⟨0, A.hifEvent, 0, true⟩] } }),
      (.ringQuiesced 0 255, wOn.wr (A.hifRingState 255) 2),
      (.pcieLinkUp 0 5 16, wOn),
      (.pcieRetrain 0, { wOn with hif := { wOn.hif with trainAt := some 0 }, ts := { wOn.ts with meas := 10000000000 * 2 ^ 48 } }),
      (.journalFlashWrite 0, wOn),
      (.sessionOpen 0 ([9]) true ([]) 0 0, wOn.wr A.pwrStatus 1),
      (.sessionIdle 0 4, { wSess id wOn with ts := { wOn.ts with meas := secs 300 } }),
      (.sessionClosed 0 4 true, wSess id wOn),
      (.celenHello 0 4 1 (mpMsg (zeros 4)), wSess id wOn),
      (.celenSubscribe 0 4 (mpMsg (be 4 0x1FFFFF ++ [7, 0, 0, 0] ++ zeros 4)), wSess id wOn),
      (.celenUnsubscribe 0 4 (mpMsg ([])), wSess id wOn),
      (.journalRead 0 4 (mpMsg (zeros 4 ++ [0, 9, 0, 0])), wSess id wOn),
      (.celenStage 0 4 (mpMsg ([1, 0, 0, 0] ++ be 8 0 ++ be 4 64)) none, wSess id wOn),
      (.celenNet 0 4 (mpMsg (zeros 44)), wSess id wOn),
      (.celenTrust 0 4 (mpMsg ([1, 0, 0, 0] ++ [0, 2, 5, 6])), wSess id wOn),
      (.celenBye 0 4 (mpMsg ([])), wSess id wOn),
      (.inputQualified 0 3 (sense 400), wOn),
      (.inputLost 0 3 (sense 400), wOn.wr A.pwrStatus 0xF),
      (.kaLost 0, { wOn with hol := { wOn.hol with keepAlive := true } }),
      (.stabilityReached 0, { wOn.wr A.bootRecFlags 0xC0 with boot := { wOn.boot with stableAt := some 0 } }),
      (.watchdog 0 none, wOn),
      (.thermWarn 0 (sense 1300), wOn),
      (.alarmConditionChange 0, { wOn with pwr := { wOn.pwr with driven := true } }),
      (.alarmCloseTimer 0 1, { wOn with pwr := { wOn.pwr with driven := true, alarmEnd := [none, some 0] } }.wr A.pwrAlm1Mask 0),
      (.noSelectionTimer 0, { wOn with pwr := { wOn.pwr with noSelAt := some 0 }, ts := { wOn.ts with meas := 2000000000 * 2 ^ 48 } }),
      (.casLinkTick 0, { wLane with ts := { wOn.ts with calendar := [(3, ownEntry 0x17 0 0 0 1 0)] } }),
      (.linkFrameRx 0 7 (peorel 1 156 []) 0 0, wLane),
      (.opReqRx 0 7 (peorel 2 60 (zeros 4 ++ [1, 0, 0, 0] ++ zeros 4 ++ be 2 5 ++ zeros 6)), wLane.wr A.casStatus 2),
      (.opRx 0 7 (peorel 3 60 (be 4 8 ++ zeros 4)), wLane),
      (.casBarrier 0, wOp 1),
      (.casBroadcast 0, wOp 2),
      (.casSnapshot 0, wOp 3),
      (.resultRx 0 7 (peorel 4 88 (be 4 3)), { wLane with cas := { wOn.cas with ops := [{ casOp 1 with lanes := [7] }] } }),
      (.resultDeadline 0, { wLane.wr A.casGather 0 with cas := { wOn.cas with ops := [{ casOp 1 with own := some OpResult.zero }] } }),
      (.doneRx 0 7 (peorel 5 88 (zeros 48 ++ be 8 wOn.serial ++ be 4 4)), { wLane with cas := { wOn.cas with req := some ⟨1, 0, 4, 0, none⟩ } }),
      (.requestTimeout 0, { wLane with cas := { wOn.cas with req := some ⟨1, 0, 4, 0, none⟩ }, ts := { wOn.ts with meas := 10000000 * 2 ^ 48 } }),
      (.thetaLoLaneRead 0 4 7, wOn.setLane 7 (fun x => { x with meas := some (-5, 9, 64) })),
      (.opResult0Read 0 0, { wOn with cas := { wOn.cas with result := [1, 2, 3] } })] : List (Instr × State)),
      x.2.canonical = true ∧ ∃ t, exec x.1 x.2 = .next t :=
  framedRegs _ (by decide +kernel)

theorem test_guarded_pairs_refused :
    (∃ (s u : State) (dt src : Nat) (v : Word) (c : Word), s.canonical = true ∧ u = (s.advance dt).dueFirst ∧
      u.clearSource src ∧
      u.domainOn (domainOf A.refForce) = true ∧
      c ≠ ~~~(v)) ∧
    (∃ (s u : State) (dt src : Nat) (v : Word) (c : Word), s.canonical = true ∧ u = (s.advance dt).dueFirst ∧
      u.clearSource src ∧
      u.domainOn (domainOf A.refClearDistrust) = true ∧
      c ≠ ~~~(v)) ∧
    (∃ (s u : State) (dt src seq : Nat) (c : Word), s.canonical = true ∧ u = (s.advance dt).dueFirst ∧
      u.clearSource src ∧
      u.domainOn (domainOf A.tscStepApprove) = true ∧
      c ≠ ~~~(word (seq % 256 + 0x100))) ∧
    (∃ (s u : State) (dt src seq : Nat) (c : Word), s.canonical = true ∧ u = (s.advance dt).dueFirst ∧
      u.clearSource src ∧
      u.domainOn (domainOf A.tscStepApprove) = true ∧
      c ≠ ~~~(word (seq % 256 + 0x200))) ∧
    (∃ (s u : State) (dt src : Nat) (c : Word), s.canonical = true ∧ u = (s.advance dt).dueFirst ∧
      u.clearSource src ∧
      u.domainOn (domainOf A.holCartCmd) = true ∧
      c ≠ ~~~(1 : Word)) ∧
    (∃ (s u : State) (dt src : Nat) (c : Word), s.canonical = true ∧ u = (s.advance dt).dueFirst ∧
      u.clearSource src ∧
      u.domainOn (domainOf A.holCartCmd) = true ∧
      c ≠ ~~~(2 : Word)) ∧
    (∃ (s u : State) (dt src : Nat) (c : Word), s.canonical = true ∧ u = (s.advance dt).dueFirst ∧
      u.clearSource src ∧
      u.domainOn (domainOf A.holCartCmd) = true ∧
      c ≠ ~~~(3 : Word)) ∧
    (∃ (s u : State) (dt src : Nat) (c : Word), s.canonical = true ∧ u = (s.advance dt).dueFirst ∧
      u.clearSource src ∧
      u.domainOn (domainOf A.ntsCmd) = true ∧
      c ≠ ~~~(1 : Word)) ∧
    (∃ (s u : State) (dt src : Nat) (c : Word), s.canonical = true ∧ u = (s.advance dt).dueFirst ∧
      u.clearSource src ∧
      u.domainOn (domainOf A.ntsCmd) = true ∧
      c ≠ ~~~(2 : Word)) ∧
    (∃ (s u : State) (dt src : Nat) (c : Word), s.canonical = true ∧ u = (s.advance dt).dueFirst ∧
      u.clearSource src ∧
      u.domainOn (domainOf A.rcpCmd) = true ∧
      c ≠ ~~~(1 : Word)) ∧
    (∃ (s u : State) (dt src : Nat) (v : Word) (c : Word), s.canonical = true ∧ u = (s.advance dt).dueFirst ∧
      u.clearSource src ∧
      u.domainOn (domainOf A.pkeAbort) = true ∧
      c ≠ ~~~(v)) ∧
    (∃ (s u : State) (dt src : Nat) (c : Word), s.canonical = true ∧ u = (s.advance dt).dueFirst ∧
      u.clearSource src ∧
      u.domainOn (domainOf A.pwrResetCmd) = true ∧
      c ≠ ~~~(1 : Word)) ∧
    (∃ (s u : State) (dt src : Nat) (c : Word), s.canonical = true ∧ u = (s.advance dt).dueFirst ∧
      u.clearSource src ∧
      u.domainOn (domainOf A.pwrResetCmd) = true ∧
      c ≠ ~~~(2 : Word)) ∧
    (∃ (s u : State) (dt src : Nat) (c : Word), s.canonical = true ∧ u = (s.advance dt).dueFirst ∧
      u.clearSource src ∧
      u.domainOn (domainOf A.bootCmd) = true ∧
      c ≠ ~~~(1 : Word)) ∧
    (∃ (s u : State) (dt src : Nat) (c : Word), s.canonical = true ∧ u = (s.advance dt).dueFirst ∧
      u.clearSource src ∧
      u.domainOn (domainOf A.bootCmd) = true ∧
      c ≠ ~~~(2 : Word)) ∧
    (∃ (s u : State) (dt src : Nat) (c : Word), s.canonical = true ∧ u = (s.advance dt).dueFirst ∧
      u.clearSource src ∧
      u.domainOn (domainOf A.bootCmd) = true ∧
      c ≠ ~~~(3 : Word)) :=
  ⟨⟨wOn, _, 0, 4, 3, 0, by decide +kernel, rfl, by decide +kernel⟩,
   ⟨wOn, _, 0, 4, 3, 0, by decide +kernel, rfl, by decide +kernel⟩,
   ⟨wOn, _, 0, 4, 3, 0, by decide +kernel, rfl, by decide +kernel⟩,
   ⟨wOn, _, 0, 4, 3, 0, by decide +kernel, rfl, by decide +kernel⟩,
   ⟨wOn, _, 0, 4, 0, by decide +kernel, rfl, by decide +kernel⟩,
   ⟨wOn, _, 0, 4, 0, by decide +kernel, rfl, by decide +kernel⟩,
   ⟨wOn, _, 0, 4, 0, by decide +kernel, rfl, by decide +kernel⟩,
   ⟨wOn, _, 0, 4, 0, by decide +kernel, rfl, by decide +kernel⟩,
   ⟨wOn, _, 0, 4, 0, by decide +kernel, rfl, by decide +kernel⟩,
   ⟨wOn, _, 0, 4, 0, by decide +kernel, rfl, by decide +kernel⟩,
   ⟨wOn, _, 0, 4, 3, 0, by decide +kernel, rfl, by decide +kernel⟩,
   ⟨wOn, _, 0, 4, 0, by decide +kernel, rfl, by decide +kernel⟩,
   ⟨wOn, _, 0, 4, 0, by decide +kernel, rfl, by decide +kernel⟩,
   ⟨wOn, _, 0, 4, 0, by decide +kernel, rfl, by decide +kernel⟩,
   ⟨wOn, _, 0, 4, 0, by decide +kernel, rfl, by decide +kernel⟩,
   ⟨wOn, _, 0, 4, 0, by decide +kernel, rfl, by decide +kernel⟩⟩

theorem test_refused_accesses :
    (∃ (s u : State) (dt src g r : Nat) (v : Word), s.canonical = true ∧ u = (s.advance dt).dueFirst ∧
      u.clearSource src ∧
      g < 35 ∧
      u.domainOn 15 = true ∧
      u.commitRefusal g (putFld v 0 2 1) = some r) ∧
    (∃ (s u : State) (dt src addr : Nat) (r : RegRow) (v : Word), s.canonical = true ∧ u = (s.advance dt).dueFirst ∧
      u.clearSource src ∧
      rowOf addr = some r ∧
      r.kind = .lk ∧
      u.latched.contains addr = true ∧
      u.domainOn (domainOf addr) = true) ∧
    (∃ (s u : State) (dt src : Nat) (v c : Word), s.canonical = true ∧ u = (s.advance dt).dueFirst ∧
      u.clearSource src ∧
      u.domainOn (domainOf A.refForce) = true ∧
      c = ~~~v ∧
      12 < v.toNat ∧
      v ≠ 0xFF) ∧
    (∃ (s u : State) (dt src addr : Nat) (v : Word), s.canonical = true ∧ u = (s.advance dt).dueFirst ∧
      u.clearSource src ∧
      rowOf addr = none ∧
      (guardedRegs.any (fun x => decide (x + 4 = addr))) = false ∧
      ¬ (0x7800 ≤ addr ∧ addr < 0x7C00)) ∧
    (∃ (s u : State) (dt src addr : Nat) (r : RegRow) (v : Word), s.canonical = true ∧ u = (s.advance dt).dueFirst ∧
      u.clearSource src ∧
      rowOf addr = some r ∧
      (r.kind = .ro ∨ r.kind = .cr) ∧
      u.domainOn (domainOf addr) = true) ∧
    (∃ (s u : State) (dt src addr : Nat) (r : RegRow) (v : Word), s.canonical = true ∧ u = (s.advance dt).dueFirst ∧
      u.clearSource src ∧
      rowOf addr = some r ∧
      r.kind ≠ .st ∧
      r.kind ≠ .cr ∧
      r.kind ≠ .ro ∧
      r.kind ≠ .sq ∧
      u.domainOn (domainOf addr) = false) ∧
    (∃ (s u : State) (dt src addr be : Nat) (r : RegRow) (v : Word), s.canonical = true ∧ u = (s.advance dt).dueFirst ∧
      src < 5 ∧
      rowOf addr = some r ∧
      r.kind ≠ .cr ∧
      r.kind ≠ .ro ∧
      r.kind ≠ .sq ∧
      0 < be ∧
      be < 15) :=
  ⟨⟨wOn, _, 0, 1, 33, 1, 8 + 0x100, by decide +kernel, rfl, by decide +kernel⟩,
   ⟨{ wOn with latched := [A.rcpLtSlot] }, _, 0, 2, A.rcpLtSlot, ((rowOf A.rcpLtSlot).getD rowNone), 5, by decide +kernel, rfl, by decide +kernel⟩,
   ⟨wOn, _, 0, 0, 13, 0xFFFFFFF2, by decide +kernel, rfl, by decide +kernel⟩,
   ⟨wOn, _, 0, 0, 0xF0000, 13, by decide +kernel, rfl, by decide +kernel⟩,
   ⟨wOn, _, 0, 0, A.glbIdent, ((rowOf A.glbIdent).getD rowNone), 13, by decide +kernel, rfl, by decide +kernel⟩,
   ⟨State.reset, _, 0, 0, A.refForce, ((rowOf A.refForce).getD rowNone), 13, by decide +kernel, rfl, by decide +kernel⟩,
   ⟨wOn, _, 0, 0, A.refForce, 14, ((rowOf A.refForce).getD rowNone), 13, by decide +kernel, rfl, by decide +kernel⟩⟩

theorem test_event_registers_1 : ∃ (s : State) (reg b : Nat) (r : RegRow), s.canonical = true ∧ rowOf reg = some r ∧
    r.kind = .sq ∧ b < 16 ∧ reg ≠ A.hifEvent :=
  ⟨wOn, A.refEvent, 15, (rowOf A.refEvent).getD rowNone, by decide +kernel⟩

theorem test_event_registers_2 : ∃ (s u : State) (dt src addr : Nat) (r : RegRow) (v : Word), s.canonical = true ∧
    u = (s.advance dt).dueFirst ∧ u.clearSource src ∧ rowOf addr = some r ∧ r.kind = .sq ∧ u.domainOn (domainOf addr) = true ∧
    (v ^^^ u.rd addr) &&& BitVec.ofNat 32 (r.rv / 2 ^ 16 * 2 ^ 16) = 0 ∧
    (∀ i, i < 16 → r.rv.testBit i = true → bitOf v i = u.bit addr i) ∧ fld v 24 8 = u.f addr 24 8 :=
  ⟨wOn.wr A.refEvent 0x02000003, _, 0, 4, A.refEvent, (rowOf A.refEvent).getD rowNone, 0x02000001, by decide +kernel, rfl,
    by decide +kernel⟩

theorem test_event_registers_3 : ∃ (s u : State) (dt src addr : Nat) (r : RegRow) (v : Word), s.canonical = true ∧
    u = (s.advance dt).dueFirst ∧ u.clearSource src ∧ rowOf addr = some r ∧ r.kind = .sq ∧ u.domainOn (domainOf addr) = true ∧
    (v ^^^ u.rd addr) &&& BitVec.ofNat 32 r.rv = 0 ∧ fld v 24 8 ≠ u.f addr 24 8 ∧ v &&& ~~~(BitVec.ofNat 32 r.rv) &&& 0xFFFF ≠ 0 :=
  ⟨wOn.wr A.refEvent 0x02000003, _, 0, 4, A.refEvent, (rowOf A.refEvent).getD rowNone, 0x01000001, by decide +kernel, rfl,
    by decide +kernel⟩

theorem test_event_registers_4 : ∃ (s u : State) (dt src addr : Nat) (r : RegRow) (v : Word), s.canonical = true ∧
    u = (s.advance dt).dueFirst ∧ u.clearSource src ∧ rowOf addr = some r ∧ r.kind = .sq ∧ u.domainOn (domainOf addr) = true ∧
    (v ^^^ u.rd addr) &&& BitVec.ofNat 32 r.rv = 0 ∧ v &&& ~~~(BitVec.ofNat 32 r.rv) &&& 0xFFFF = 0 :=
  ⟨wOn.wr A.refEvent 0x02000003, _, 0, 4, A.refEvent, (rowOf A.refEvent).getD rowNone, 0x02000000, by decide +kernel, rfl,
    by decide +kernel⟩

theorem test_clearing_reads_1 : ∃ (s u : State) (dt src addr be : Nat) (r : RegRow), s.canonical = true ∧ u = s.advance dt ∧
    src < 5 ∧ rowOf addr = some r ∧ r.kind = .cr ∧ u.domainOn (domainOf addr) = true ∧ r.pair = false ∧ contiguous be = true ∧
    be % 16 ≠ 15 :=
  ⟨wOn.wr A.hifKicks 7, _, 0, 4, A.hifKicks, 12, (rowOf A.hifKicks).getD rowNone, by decide +kernel, rfl, by decide +kernel⟩

theorem test_clearing_reads_2 : ∃ (s u : State) (dt src addr be : Nat) (r : RegRow), s.canonical = true ∧ u = s.advance dt ∧
    src < 5 ∧ rowOf addr = some r ∧ r.kind = .cr ∧ u.domainOn (domainOf addr) = true ∧ r.pair = true ∧ contiguous be = true ∧
    be % 16 ≠ 15 :=
  ⟨wOn.wr A.pkeJobsOk 7, _, 0, 4, A.pkeJobsOk, 12, (rowOf A.pkeJobsOk).getD rowNone, by decide +kernel, rfl, by decide +kernel⟩

theorem test_accumulator_advances_1 : ∃ s : State, 0 ≤ (2 : Int) ^ 48 + s.sf A.tscFreqCorr 0 32 + s.ts.ySlew :=
  ⟨{ wOn.wr A.tscFreqCorr 0x80000000 with ts := { wOn.ts with ySlew := -5 } }, by decide +kernel⟩

theorem test_tally_indices_1 : ∃ (s u : State) (dt src i a : Nat) (v : Word), s.canonical = true ∧ u = (s.advance dt).dueFirst ∧
    u.clearSource src ∧ u.domainOn 15 = true ∧ i = fld (cmValue (u.rd A.talTallySel) v) 1 10 ∧ tallySet[i]? = some a :=
  ⟨wOn, _, 0, 4, 3, (tallySet[3]?).getD 0, 0x00060006, by decide +kernel, rfl, by decide +kernel⟩

theorem test_counter_saturates_1 : ∃ (s : State) (a b : Nat), s.canonical = true ∧ pairRowOf a = none ∧
    (pairRowOf b).isSome = true ∧ inTallySet b = true :=
  ⟨wOn, A.hifKicks, A.pkeJobsOk, by decide +kernel⟩

theorem test_firing_rearms_1 : ∃ (s : State) (i : Nat) (e : CalEntry) (y : Nat × CalEntry), s.canonical = true ∧
    (i, e) ∈ s.ts.calendar ∧ (e.count = 1 ∨ e.period = 0) ∧ y.1 ≠ i :=
  ⟨{ wOn with ts := { wOn.ts with calendar := [(3, ownEntry 1 0 0 0 1 0)] } }, 3, ownEntry 1 0 0 0 1 0, (4, ownEntry 1 0 0 0 1 0),
    by decide +kernel⟩

theorem test_firing_rearms_2 : ∃ (s : State) (i : Nat) (e : CalEntry) (t : Nat), s.canonical = true ∧
    (i, e) ∈ s.ts.calendar ∧ e.count ≠ 1 ∧ e.period ≠ 0 ∧ e.skipAt = some t :=
  ⟨{ wOn with ts := { wOn.ts with calendar := [(3, { ownEntry 1 0 0 5 0 0 with skipAt := some 23 })] } }, 3,
    { ownEntry 1 0 0 5 0 0 with skipAt := some 23 }, 23, by decide +kernel, by decide +kernel, by decide +kernel, by decide +kernel, rfl⟩

theorem test_least_entry_fires_1 : ∃ (l : Cells CalEntry) (now : Nat) (p : CalEntry → Bool) (i : Nat) (e : CalEntry),
    CellList.rising l = true ∧ dueEntry l now p = some (i, e) :=
  ⟨[(2, ownEntry 1 0 7 0 1 0), (3, ownEntry 1 0 5 0 1 0), (9, ownEntry 1 0 5 0 1 0)], 8, fun e => decide (e.action = 1), 3,
    ownEntry 1 0 5 0 1 0, by decide +kernel⟩

theorem test_least_entry_fires_2 : ∃ (l : Cells CalEntry) (now : Nat) (p : CalEntry → Bool) (x : Nat × CalEntry),
    dueEntry l now p = none ∧ x ∈ l ∧ p x.2 = true :=
  ⟨[(2, ownEntry 1 0 7 0 1 0)], 6, fun e => decide (e.action = 1), (2, ownEntry 1 0 7 0 1 0), by decide +kernel⟩

theorem test_answer_headers_1 : ∃ (s : State) (r : Request), 3 ≤ (packetOf r.frame.data).udp.length ∧ s.unserved = true ∧ s.tscMode = 0 :=
  ⟨wOn.wr A.tscState 0, { wReq .ntp with frame := ⟨7, 0, udpF (zeros 48)⟩ }, by decide +kernel⟩

theorem test_answer_headers_2 : ∃ (s : State) (r : Request), 3 ≤ (packetOf r.frame.data).udp.length ∧ s.unserved = true ∧ s.tscMode = 4 :=
  ⟨wOn.wr A.tscState 4, { wReq .ntp with frame := ⟨7, 0, udpF (zeros 48)⟩ }, by decide +kernel⟩

theorem test_answer_headers_3 : ∃ (s : State) (r : Request), 3 ≤ (packetOf r.frame.data).udp.length ∧ s.unserved = false :=
  ⟨wOn.wr A.tscState 2, { wReq .ntp with frame := ⟨7, 0, udpF (zeros 48)⟩ }, by decide +kernel⟩

theorem test_units_that_exist_1 : ∃ (c : Instr) (s : State), c.wf = false ∧ exec c s = .fault .noSuchUnit :=
  ⟨.guardTimeout 0 5, wOn, rfl, rfl⟩

theorem test_step_runs_the_front_1 : ∃ (s : State) (c : Instr) (rest : List Instr), s.pending = c :: rest :=
  ⟨{ wOn with pending := [.pulseEnd 1 0, .leap 2] }, .pulseEnd 1 0, [.leap 2], rfl⟩

theorem test_step_runs_the_front_2 : ∃ s : State, s.pending = [] := ⟨wOn, rfl⟩

theorem test_every_step_keeps_storage_canonical_1 : ∃ s t : State, s.canonical = true ∧ step s = .next t :=
  ⟨{ wOn with pending := [.pulseEnd 1 0] }, _, by decide +kernel, rfl⟩

theorem test_reset_is_canonical_1 : ∃ a : Nat, rowOf a = none := ⟨0xF0000, by decide +kernel⟩

theorem test_refused_access_frames :
    (∃ (s u : State) (dt src : Nat) (v : Word) (c : Word), s.canonical = true ∧ u = (s.advance dt).dueFirst ∧
      u.clearSource src ∧
      u.domainOn (domainOf A.refForce) = true ∧
      c ≠ ~~~(v)) ∧
    (∃ (s u : State) (dt src : Nat) (v : Word) (c : Word), s.canonical = true ∧ u = (s.advance dt).dueFirst ∧
      u.clearSource src ∧
      u.domainOn (domainOf A.refClearDistrust) = true ∧
      c ≠ ~~~(v)) ∧
    (∃ (s u : State) (dt src seq : Nat) (c : Word), s.canonical = true ∧ u = (s.advance dt).dueFirst ∧
      u.clearSource src ∧
      u.domainOn (domainOf A.tscStepApprove) = true ∧
      c ≠ ~~~(word (seq % 256 + 0x100))) ∧
    (∃ (s u : State) (dt src seq : Nat) (c : Word), s.canonical = true ∧ u = (s.advance dt).dueFirst ∧
      u.clearSource src ∧
      u.domainOn (domainOf A.tscStepApprove) = true ∧
      c ≠ ~~~(word (seq % 256 + 0x200))) ∧
    (∃ (s u : State) (dt src : Nat) (c : Word), s.canonical = true ∧ u = (s.advance dt).dueFirst ∧
      u.clearSource src ∧
      u.domainOn (domainOf A.holCartCmd) = true ∧
      c ≠ ~~~(1 : Word)) ∧
    (∃ (s u : State) (dt src : Nat) (c : Word), s.canonical = true ∧ u = (s.advance dt).dueFirst ∧
      u.clearSource src ∧
      u.domainOn (domainOf A.holCartCmd) = true ∧
      c ≠ ~~~(2 : Word)) ∧
    (∃ (s u : State) (dt src : Nat) (c : Word), s.canonical = true ∧ u = (s.advance dt).dueFirst ∧
      u.clearSource src ∧
      u.domainOn (domainOf A.holCartCmd) = true ∧
      c ≠ ~~~(3 : Word)) ∧
    (∃ (s u : State) (dt src : Nat) (c : Word), s.canonical = true ∧ u = (s.advance dt).dueFirst ∧
      u.clearSource src ∧
      u.domainOn (domainOf A.ntsCmd) = true ∧
      c ≠ ~~~(1 : Word)) ∧
    (∃ (s u : State) (dt src : Nat) (c : Word), s.canonical = true ∧ u = (s.advance dt).dueFirst ∧
      u.clearSource src ∧
      u.domainOn (domainOf A.ntsCmd) = true ∧
      c ≠ ~~~(2 : Word)) ∧
    (∃ (s u : State) (dt src : Nat) (c : Word), s.canonical = true ∧ u = (s.advance dt).dueFirst ∧
      u.clearSource src ∧
      u.domainOn (domainOf A.rcpCmd) = true ∧
      c ≠ ~~~(1 : Word)) ∧
    (∃ (s u : State) (dt src : Nat) (v : Word) (c : Word), s.canonical = true ∧ u = (s.advance dt).dueFirst ∧
      u.clearSource src ∧
      u.domainOn (domainOf A.pkeAbort) = true ∧
      c ≠ ~~~(v)) ∧
    (∃ (s u : State) (dt src : Nat) (c : Word), s.canonical = true ∧ u = (s.advance dt).dueFirst ∧
      u.clearSource src ∧
      u.domainOn (domainOf A.pwrResetCmd) = true ∧
      c ≠ ~~~(1 : Word)) ∧
    (∃ (s u : State) (dt src : Nat) (c : Word), s.canonical = true ∧ u = (s.advance dt).dueFirst ∧
      u.clearSource src ∧
      u.domainOn (domainOf A.pwrResetCmd) = true ∧
      c ≠ ~~~(2 : Word)) ∧
    (∃ (s u : State) (dt src : Nat) (c : Word), s.canonical = true ∧ u = (s.advance dt).dueFirst ∧
      u.clearSource src ∧
      u.domainOn (domainOf A.bootCmd) = true ∧
      c ≠ ~~~(1 : Word)) ∧
    (∃ (s u : State) (dt src : Nat) (c : Word), s.canonical = true ∧ u = (s.advance dt).dueFirst ∧
      u.clearSource src ∧
      u.domainOn (domainOf A.bootCmd) = true ∧
      c ≠ ~~~(2 : Word)) ∧
    (∃ (s u : State) (dt src : Nat) (c : Word), s.canonical = true ∧ u = (s.advance dt).dueFirst ∧
      u.clearSource src ∧
      u.domainOn (domainOf A.bootCmd) = true ∧
      c ≠ ~~~(3 : Word)) ∧
    (∃ (s u : State) (dt src g r : Nat) (v : Word), s.canonical = true ∧ u = (s.advance dt).dueFirst ∧
      u.clearSource src ∧
      g < 35 ∧
      u.domainOn 15 = true ∧
      u.commitRefusal g (putFld v 0 2 1) = some r) ∧
    (∃ (s u : State) (dt src addr : Nat) (r : RegRow) (v : Word), s.canonical = true ∧ u = (s.advance dt).dueFirst ∧
      u.clearSource src ∧
      rowOf addr = some r ∧
      r.kind = .lk ∧
      u.latched.contains addr = true ∧
      u.domainOn (domainOf addr) = true) ∧
    (∃ (s u : State) (dt src : Nat) (v c : Word), s.canonical = true ∧ u = (s.advance dt).dueFirst ∧
      u.clearSource src ∧
      u.domainOn (domainOf A.refForce) = true ∧
      c = ~~~v ∧
      12 < v.toNat ∧
      v ≠ 0xFF) ∧
    (∃ (s u : State) (dt src addr : Nat) (r : RegRow) (v : Word), s.canonical = true ∧ u = (s.advance dt).dueFirst ∧
      u.clearSource src ∧
      rowOf addr = some r ∧
      r.kind ≠ .st ∧
      r.kind ≠ .cr ∧
      r.kind ≠ .ro ∧
      r.kind ≠ .sq ∧
      u.domainOn (domainOf addr) = false) ∧
    (∃ (s u : State) (dt src addr be : Nat) (r : RegRow) (v : Word), s.canonical = true ∧ u = (s.advance dt).dueFirst ∧
      src < 5 ∧
      rowOf addr = some r ∧
      r.kind ≠ .cr ∧
      r.kind ≠ .ro ∧
      r.kind ≠ .sq ∧
      0 < be ∧
      be < 15) :=
  ⟨⟨wOn, _, 0, 4, 3, 0, by decide +kernel, rfl, by decide +kernel⟩,
   ⟨wOn, _, 0, 4, 3, 0, by decide +kernel, rfl, by decide +kernel⟩,
   ⟨wOn, _, 0, 4, 3, 0, by decide +kernel, rfl, by decide +kernel⟩,
   ⟨wOn, _, 0, 4, 3, 0, by decide +kernel, rfl, by decide +kernel⟩,
   ⟨wOn, _, 0, 4, 0, by decide +kernel, rfl, by decide +kernel⟩,
   ⟨wOn, _, 0, 4, 0, by decide +kernel, rfl, by decide +kernel⟩,
   ⟨wOn, _, 0, 4, 0, by decide +kernel, rfl, by decide +kernel⟩,
   ⟨wOn, _, 0, 4, 0, by decide +kernel, rfl, by decide +kernel⟩,
   ⟨wOn, _, 0, 4, 0, by decide +kernel, rfl, by decide +kernel⟩,
   ⟨wOn, _, 0, 4, 0, by decide +kernel, rfl, by decide +kernel⟩,
   ⟨wOn, _, 0, 4, 3, 0, by decide +kernel, rfl, by decide +kernel⟩,
   ⟨wOn, _, 0, 4, 0, by decide +kernel, rfl, by decide +kernel⟩,
   ⟨wOn, _, 0, 4, 0, by decide +kernel, rfl, by decide +kernel⟩,
   ⟨wOn, _, 0, 4, 0, by decide +kernel, rfl, by decide +kernel⟩,
   ⟨wOn, _, 0, 4, 0, by decide +kernel, rfl, by decide +kernel⟩,
   ⟨wOn, _, 0, 4, 0, by decide +kernel, rfl, by decide +kernel⟩,
   ⟨wOn, _, 0, 1, 33, 1, 8 + 0x100, by decide +kernel, rfl, by decide +kernel⟩,
   ⟨{ wOn with latched := [A.rcpLtSlot] }, _, 0, 2, A.rcpLtSlot, ((rowOf A.rcpLtSlot).getD rowNone), 5, by decide +kernel, rfl, by decide +kernel⟩,
   ⟨wOn, _, 0, 0, 13, 0xFFFFFFF2, by decide +kernel, rfl, by decide +kernel⟩,
   ⟨State.reset, _, 0, 0, A.refForce, ((rowOf A.refForce).getD rowNone), 13, by decide +kernel, rfl, by decide +kernel⟩,
   ⟨wOn, _, 0, 0, A.refForce, 14, ((rowOf A.refForce).getD rowNone), 13, by decide +kernel, rfl, by decide +kernel⟩⟩

theorem test_register_command_frames :
    (∃ (s u : State) (dt src addr g : Nat) (v : Word), s.canonical = true ∧ u = (s.advance dt).dueFirst ∧
      src < 5 ∧
      groupOf addr = some g) ∧
    (∃ (s u : State) (dt src addr g : Nat) (v : Word), s.canonical = true ∧ u = (s.advance dt).dueFirst ∧
      src < 5 ∧
      groupOf addr = some g) ∧
    (∃ (s u : State) (dt src addr : Nat) (r : RegRow) (v : Word), s.canonical = true ∧ u = (s.advance dt).dueFirst ∧
      u.clearSource src ∧
      rowOf addr = some r ∧
      r.kind = .sq ∧
      u.domainOn (domainOf addr) = true ∧
      fld v 24 8 = u.f addr 24 8 ∧
      (v ^^^ u.rd addr) &&& BitVec.ofNat 32 r.rv = 0) ∧
    (∃ (s u : State) (dt src addr : Nat) (r : RegRow) (v : Word), s.canonical = true ∧ u = (s.advance dt).dueFirst ∧
      u.clearSource src ∧
      rowOf addr = some r ∧
      r.kind = .lk ∧
      u.latched.contains addr = false ∧
      u.domainOn (domainOf addr) = true) ∧
    (∃ (s u : State) (dt src g : Nat) (v : Word), s.canonical = true ∧ u = (s.advance dt).dueFirst ∧
      u.clearSource src ∧
      g < 35 ∧
      2 ≤ groupBoundary g ∧
      u.domainOn 15 = true ∧
      u.commitRefusal g (putFld v 0 2 1) = none) ∧
    (∃ (s u : State) (dt src g : Nat) (c : Commit), s.canonical = true ∧ u = (s.advance dt).dueFirst ∧
      u.clearSource src ∧
      g < 35 ∧
      u.domainOn 15 = true ∧
      (u.group g).pend = some c) ∧
    (∃ (s u : State) (dt src g : Nat), s.canonical = true ∧ u = (s.advance dt).dueFirst ∧
      u.clearSource src ∧
      g < 35 ∧
      u.domainOn 15 = true) ∧
    (∃ (s u : State) (dt a g : Nat), s.canonical = true ∧ u = s.advance dt ∧
      u.scrubAt ≤ u.ts.meas ∧
      groupOf a = some g ∧
      (u.group g).stageParity.contains a = false) ∧
    (∃ (s u : State) (dt src a : Nat) (v : Word), s.canonical = true ∧ u = (s.advance dt).dueFirst ∧
      u.clearSource src ∧
      u.domainOn 15 = true ∧
      tallySet[fld (cmValue (u.rd A.talTallySel) v) 1 10]? = some a) ∧
    (∃ (s u : State) (dt src : Nat) (v : Word), s.canonical = true ∧ u = (s.advance dt).dueFirst ∧
      u.clearSource src ∧
      u.domainOn 15 = true) ∧
    (∃ (s u : State) (dt src w : Nat) (v : Word), s.canonical = true ∧ u = (s.advance dt).dueFirst ∧
      u.clearSource src ∧
      w < 2 ∧
      u.domainOn 15 = true ∧
      src < u.sources.length) ∧
    (∃ (s u : State) (dt src : Nat) (v : Word), s.canonical = true ∧ u = (s.advance dt).dueFirst ∧
      u.clearSource src ∧
      u.latched.contains A.rcpLtSlot = false ∧
      u.domainOn (domainOf A.rcpLtSlot) = true) ∧
    (∃ (s u : State) (dt i g : Nat) (x : Session) (m : MpMsg), s.canonical = true ∧ u = (s.advance dt).dueFirst ∧
      1 ≤ i ∧
      i < 5 ∧
      u.session i = some x ∧
      m.magic = 0x434C ∧
      m.version = 1 ∧
      m.len = m.body.length ∧
      m.len ≤ 65600 ∧
      x.hello = true ∧
      u.celen.recovery = false ∧
      m.body.length = 12 ∧
      beAt m.body 4 1 = 1 ∧
      beAt m.body 5 1 = 15 ∧
      beAt m.body 6 2 = 0 ∧
      u.rangeBad (beAt m.body 0 4) 1 = false ∧
      groupOf (beAt m.body 0 4) = some g ∧
      (u.view (.session i)).pair = none) :=
  ⟨⟨wOn, _, 0, 1, A.tscCalCmd, 1, 7, by decide +kernel, rfl, by decide +kernel⟩,
   ⟨wOn, _, 0, 4, A.refInCfg 13, 4, 0xFFFFFFFF, by decide +kernel, rfl, by decide +kernel⟩,
   ⟨(wOn.wr A.refEvent 0x01000003), _, 0, 0, A.refEvent, ((rowOf A.refEvent).getD rowNone), 0x01000001, by decide +kernel, rfl, by decide +kernel⟩,
   ⟨wOn, _, 0, 2, A.rcpLtSlot, ((rowOf A.rcpLtSlot).getD rowNone), 5, by decide +kernel, rfl, by decide +kernel⟩,
   ⟨wOn, _, 0, 1, 33, 0, by decide +kernel, rfl, by decide +kernel⟩,
   ⟨(wOn.setGroup 4 (fun x => { x with pend := some ⟨none, .host, false⟩ })), _, 0, 0, 4, ⟨none, .host, false⟩, by decide +kernel, rfl, by decide +kernel⟩,
   ⟨wOn, _, 0, 3, 34, by decide +kernel, rfl, by decide +kernel⟩,
   ⟨wOn, _, 0, A.refCtl, 4, by decide +kernel, rfl, by decide +kernel⟩,
   ⟨wOn, _, 0, 0, ((tallySet[1]?).getD 0), 0xFFFF0002, by decide +kernel, rfl, by decide +kernel⟩,
   ⟨wOn, _, 0, 2, 0x0FFF0003, by decide +kernel, rfl, by decide +kernel⟩,
   ⟨wOn, _, 0, 4, 1, 0x001F0000, by decide +kernel, rfl, by decide +kernel⟩,
   ⟨wOn, _, 0, 1, 0x41, by decide +kernel, rfl, by decide +kernel⟩,
   ⟨wSess id wOn, _, 0, 4, 4, ⟨[1], true, none, 0, none⟩, mpMsg (be 4 A.refCtl ++ [1, 15, 0, 0] ++ be 4 9), by decide +kernel, rfl, by decide +kernel⟩⟩

theorem test_guarded_command_frames :
    (∃ (s u : State) (dt src seq : Nat) (c : Word) (p : PostedStep), s.canonical = true ∧ u = (s.advance dt).dueFirst ∧
      u.takesPair src A.tscStepApprove (word (seq % 256 + 0x100)) c ∧
      u.ts.step = some p ∧
      p.awaiting = true ∧
      seq % 256 = u.f A.tscStepSeq 0 8 ∧
      u.stepVetoed = false) ∧
    (∃ (s u : State) (dt src seq : Nat) (c : Word) (p : PostedStep), s.canonical = true ∧ u = (s.advance dt).dueFirst ∧
      u.takesPair src A.tscStepApprove (word (seq % 256 + 0x200)) c ∧
      u.ts.step = some p ∧
      p.awaiting = true ∧
      seq % 256 = u.f A.tscStepSeq 0 8) ∧
    (∃ (s u : State) (dt src : Nat) (v c : Word), s.canonical = true ∧ u = (s.advance dt).dueFirst ∧
      u.takesPair src A.refForce v c) ∧
    (∃ (s u : State) (dt src i : Nat) (c : Word), s.canonical = true ∧ u = (s.advance dt).dueFirst ∧
      u.takesPair src A.refClearDistrust (word i) c ∧
      i < 13 ∧
      u.qstate i = 5) ∧
    (∃ (s u : State) (dt src : Nat) (c : Word), s.canonical = true ∧ u = (s.advance dt).dueFirst ∧
      u.takesPair src A.holCartCmd 1 c ∧
      u.cartState = 5) ∧
    (∃ (s u : State) (dt src : Nat) (c : Word), s.canonical = true ∧ u = (s.advance dt).dueFirst ∧
      u.takesPair src A.holCartCmd 1 c ∧
      u.cartState ≠ 5) ∧
    (∃ (s u : State) (dt src : Nat) (c : Word), s.canonical = true ∧ u = (s.advance dt).dueFirst ∧
      u.takesPair src A.holCartCmd 2 c) ∧
    (∃ (s u : State) (dt src : Nat) (c : Word), s.canonical = true ∧ u = (s.advance dt).dueFirst ∧
      u.takesPair src A.holCartCmd 3 c) ∧
    (∃ (s u : State) (dt src : Nat) (c : Word), s.canonical = true ∧ u = (s.advance dt).dueFirst ∧
      u.takesPair src A.ntsCmd 1 c) ∧
    (∃ (s u : State) (dt src : Nat) (c : Word), s.canonical = true ∧ u = (s.advance dt).dueFirst ∧
      u.takesPair src A.ntsCmd 2 c) ∧
    (∃ (s u : State) (dt src : Nat) (c : Word), s.canonical = true ∧ u = (s.advance dt).dueFirst ∧
      u.takesPair src A.rcpCmd 1 c) ∧
    (∃ (s u : State) (dt src : Nat) (c : Word), s.canonical = true ∧ u = (s.advance dt).dueFirst ∧
      u.takesPair src A.rcpCmd 1 c ∧
      u.rcpSafe = false ∧
      u.ltKey.isSome = true ∧
      0 < u.coresOn ∧
      u.entropyOk = true) ∧
    (∃ (s u : State) (dt src : Nat) (v c : Word), s.canonical = true ∧ u = (s.advance dt).dueFirst ∧
      u.takesPair src A.pkeAbort v c ∧
      v ≠ 0 ∧
      u.countJobs (fun j => decide (jTag j.rec_ = v.toNat) && j.ring.isSome) ≠ 0) ∧
    (∃ (s u : State) (dt src : Nat) (c : Word), s.canonical = true ∧ u = (s.advance dt).dueFirst ∧
      u.takesPair src A.pwrResetCmd 1 c) ∧
    (∃ (s u : State) (dt src : Nat) (c : Word), s.canonical = true ∧ u = (s.advance dt).dueFirst ∧
      u.takesPair src A.pwrResetCmd 2 c) ∧
    (∃ (s u : State) (dt src : Nat) (c : Word), s.canonical = true ∧ u = (s.advance dt).dueFirst ∧
      u.takesPair src A.bootCmd 1 c) ∧
    (∃ (s u : State) (dt src : Nat) (c : Word), s.canonical = true ∧ u = (s.advance dt).dueFirst ∧
      u.takesPair src A.bootCmd 2 c) ∧
    (∃ (s u : State) (dt src : Nat) (c : Word), s.canonical = true ∧ u = (s.advance dt).dueFirst ∧
      u.takesPair src A.bootCmd 3 c) ∧
    (∃ (s u : State) (dt src kind unit : Nat) (c : Word), s.canonical = true ∧ u = (s.advance dt).dueFirst ∧
      u.takesPair src A.glbFenceCmd (word (2 + kind % 16 * 16 + unit % 32 * 256)) c ∧
      kind < 6 ∧
      unit < unitCount kind ∧
      u.testing = none ∧
      u.fenced kind unit = true ∧
      u.parityFenced kind unit = false) :=
  ⟨⟨{ wOn with ts := { wOn.ts with step := some ⟨5000, 2, true, none⟩ } }, _, 0, 0, 256, 0xFFFFFEFF, ⟨5000, 2, true, none⟩, by decide +kernel, rfl, by decide +kernel⟩,
   ⟨{ wOn with ts := { wOn.ts with step := some ⟨5000, 2, true, none⟩ } }, _, 0, 0, 0, 0xFFFFFDFF, ⟨5000, 2, true, none⟩, by decide +kernel, rfl, by decide +kernel⟩,
   ⟨wOn, _, 0, 0, 12, 0xFFFFFFF3, by decide +kernel, rfl, by decide +kernel⟩,
   ⟨(wOn.wr (A.refInState 12) 5), _, 0, 0, 12, 0xFFFFFFF3, by decide +kernel, rfl, by decide +kernel⟩,
   ⟨wOn.wr A.holStatus 0xB, _, 0, 0, 0xFFFFFFFE, by decide +kernel, rfl, by decide +kernel⟩,
   ⟨wOn.wr A.holStatus 8, _, 0, 4, 0xFFFFFFFE, by decide +kernel, rfl, by decide +kernel⟩,
   ⟨wOn.wr A.holStatus 12, _, 0, 1, 0xFFFFFFFD, by decide +kernel, rfl, by decide +kernel⟩,
   ⟨wOn, _, 0, 0, 0xFFFFFFFC, by decide +kernel, rfl, by decide +kernel⟩,
   ⟨wOn, _, 0, 0, 0xFFFFFFFE, by decide +kernel, rfl, by decide +kernel⟩,
   ⟨{ wOn with nts := { wOn.nts with keys := [(1, zeros 32)], current := true } }, _, 0, 0, 0xFFFFFFFD, by decide +kernel, rfl, by decide +kernel⟩,
   ⟨wOn, _, 0, 0, 0xFFFFFFFE, by decide +kernel, rfl, by decide +kernel⟩,
   ⟨{ ((wOn.wr A.rcpLtSlot 0x40).wr A.pkeTrngStatus 1).wr A.pkeStatus 0xFFFF with pke := { wOn.pke with slots := modAt wOn.pke.slots 0 (fun _ => ⟨2, 1, 8, false, 8, zeros 32, zeros 32⟩) } }, _, 0, 0, 0xFFFFFFFE, by decide +kernel, rfl, by decide +kernel⟩,
   ⟨{ wCore ({ job (jrec 1 0 0xFF 4 0 9) (zeros 32) with ring := some (5, 0) }) with pke := { (wCore ({ job (jrec 1 0 0xFF 4 0 9) (zeros 32) with ring := some (5, 0) })).pke with queue := [{ job (jrec 1 0 0xFF 4 0 9) (zeros 32) with ring := some (5, 0) }] } }, _, 0, 0, 9, 0xFFFFFFF6, by decide +kernel, rfl, by decide +kernel⟩,
   ⟨wOn, _, 0, 0, 0xFFFFFFFE, by decide +kernel, rfl, by decide +kernel⟩,
   ⟨wOn, _, 0, 0, 0xFFFFFFFD, by decide +kernel, rfl, by decide +kernel⟩,
   ⟨wOn, _, 0, 0, 0xFFFFFFFE, by decide +kernel, rfl, by decide +kernel⟩,
   ⟨wOn, _, 0, 0, 0xFFFFFFFD, by decide +kernel, rfl, by decide +kernel⟩,
   ⟨wOn.wr A.bootRecFlags 8, _, 0, 0, 0xFFFFFFFC, by decide +kernel, rfl, by decide +kernel⟩,
   ⟨wOn.setBit (fenceBit 0 0).1 (fenceBit 0 0).2 true, _, 0, 0, 0, 0, ~~~(word 2), by decide +kernel, rfl, by decide +kernel⟩⟩

theorem test_group_command_frames :
    (∃ (s u : State) (dt src : Nat) (cmd : Word), s.canonical = true ∧ u = (s.advance dt).dueFirst ∧
      u.takesCommit src 1 (u.commandWords A.tscCalCmd 0 2 1 cmd) ∧
      u.pwr.heldGroups = []) ∧
    (∃ (s u : State) (dt src : Nat) (cmd : Word), s.canonical = true ∧ u = (s.advance dt).dueFirst ∧
      u.takesCommit src 1 (u.commandWords A.tscCalCmd 0 2 2 cmd) ∧
      u.pwr.heldGroups = []) ∧
    (∃ (s u : State) (dt src : Nat) (cmd : Word), s.canonical = true ∧ u = (s.advance dt).dueFirst ∧
      u.takesCommit src 1 (u.commandWords A.tscCalCmd 0 2 3 cmd) ∧
      u.pwr.heldGroups = []) ∧
    (∃ (s u : State) (dt src : Nat) (cmd : Word), s.canonical = true ∧ u = (s.advance dt).dueFirst ∧
      u.takesCommit src 1 (u.commandWords A.tscCalCmd 0 2 0 cmd) ∧
      u.pwr.heldGroups = []) ∧
    (∃ (s u : State) (dt src : Nat) (cmd : Word), s.canonical = true ∧ u = (s.advance dt).dueFirst ∧
      u.takesCommit src 7 (u.commandWords A.gnsCmd 0 4 1 cmd) ∧
      u.gnss.sides.length = 2 ∧
      u.pwr.heldGroups = []) ∧
    (∃ (s u : State) (dt src : Nat) (cmd : Word), s.canonical = true ∧ u = (s.advance dt).dueFirst ∧
      u.takesCommit src 7 (u.commandWords A.gnsCmd 0 4 2 cmd) ∧
      u.pwr.heldGroups = []) ∧
    (∃ (s u : State) (dt src : Nat) (cmd : Word), s.canonical = true ∧ u = (s.advance dt).dueFirst ∧
      u.takesCommit src 7 (u.commandWords A.gnsCmd 0 4 3 cmd) ∧
      u.pwr.heldGroups = []) ∧
    (∃ (s u : State) (dt src : Nat) (cmd : Word), s.canonical = true ∧ u = (s.advance dt).dueFirst ∧
      u.takesCommit src 7 (u.commandWords A.gnsCmd 0 4 4 cmd) ∧
      u.pwr.heldGroups = []) ∧
    (∃ (s u : State) (dt src : Nat) (cmd : Word), s.canonical = true ∧ u = (s.advance dt).dueFirst ∧
      u.takesCommit src 7 (u.commandWords A.gnsCmd 0 4 5 cmd) ∧
      u.pwr.heldGroups = []) ∧
    (∃ (s u : State) (dt src : Nat) (cmd : Word), s.canonical = true ∧ u = (s.advance dt).dueFirst ∧
      u.takesCommit src 7 (u.commandWords A.gnsCmd 0 4 6 cmd) ∧
      (u.snapState = 1 ∨ u.snapState = 2) ∧
      u.pwr.heldGroups = []) ∧
    (∃ (s u : State) (dt src : Nat) (cmd : Word), s.canonical = true ∧ u = (s.advance dt).dueFirst ∧
      u.takesCommit src 7 (u.commandWords A.gnsCmd 0 4 7 cmd) ∧
      u.pwr.heldGroups = []) ∧
    (∃ (s u : State) (dt src : Nat) (cmd : Word), s.canonical = true ∧ u = (s.advance dt).dueFirst ∧
      u.takesCommit src 7 (u.commandWords A.gnsCmd 0 4 8 cmd) ∧
      u.pwr.heldGroups = []) ∧
    (∃ (s u : State) (dt src : Nat) (cmd : Word), s.canonical = true ∧ u = (s.advance dt).dueFirst ∧
      u.takesCommit src 7 (u.commandWords A.gnsCmd 0 4 9 cmd) ∧
      u.pwr.heldGroups = []) ∧
    (∃ (s u : State) (dt src : Nat) (cmd : Word), s.canonical = true ∧ u = (s.advance dt).dueFirst ∧
      u.takesCommit src 19 (u.commandWords A.hrcQueryCmd 0 1 1 cmd) ∧
      u.pwr.heldGroups = []) ∧
    (∃ (s u : State) (dt src p : Nat), s.canonical = true ∧ u = (s.advance dt).dueFirst ∧
      u.clearSource src ∧
      p < 16 ∧
      u.domainOn (domainOf (A.svpPipeUcodeCtl p)) = true ∧
      u.pipeState p = 0 ∧
      (u.nextActive p).isSome = true) ∧
    (∃ (s u : State) (dt src p : Nat), s.canonical = true ∧ u = (s.advance dt).dueFirst ∧
      u.clearSource src ∧
      p < 16 ∧
      u.domainOn (domainOf (A.svpPipeUcodeCtl p)) = true ∧
      u.pipeState p = 2) ∧
    (∃ (s u : State) (dt link : Nat), s.canonical = true ∧ u = s.advance dt ∧
      link < 8 ∧
      u.preempt link = 1) :=
  ⟨⟨(setStage wOn [(A.tscCalW 0, 9), (A.tscCalW 1, 0x10000), (A.tscCalW 6, 1)]), _, 0, 0, 0x00030000, by decide +kernel, rfl, by decide +kernel⟩,
   ⟨{ wOn with ts := { wOn.ts with calendar := [(3, { ownEntry 1 0 5000000000 0 1 0 with host := true })] } }, _, 0, 0, 0x00030000, by decide +kernel, rfl, by decide +kernel⟩,
   ⟨{ setStage wOn [(A.tscCalW 0, 9), (A.tscCalW 1, 0x10000), (A.tscCalW 6, 1)] with ts := { wOn.ts with calendar := [(3, { ownEntry 1 0 5000000000 0 1 0 with host := true })] } }, _, 0, 0, 0x00030000, by decide +kernel, rfl, by decide +kernel⟩,
   ⟨wOn, _, 0, 0, 0x00030000, by decide +kernel, rfl, by decide +kernel⟩,
   ⟨wOn, _, 0, 0, 0x10, by decide +kernel, rfl, by decide +kernel⟩,
   ⟨wOn.setSide 1 (fun x => { x with survey := some ⟨0, 1, 0, 0, 0, 0, 0, 0, 1, false, 0, none⟩ }), _, 0, 0, 0x10, by decide +kernel, rfl, by decide +kernel⟩,
   ⟨(setStage wOn [(A.gnsFixX, 637000000), (A.gnsFixY, 0), (A.gnsFixZ, 0)]), _, 0, 0, 0x10, by decide +kernel, rfl, by decide +kernel⟩,
   ⟨wOn.wr (A.gnsSideStatus 1) 0x30, _, 0, 0, 0x10, by decide +kernel, rfl, by decide +kernel⟩,
   ⟨(setStage wOn [(A.gnsSnapCfg, 0x11F)]), _, 0, 0, 0x10, by decide +kernel, rfl, by decide +kernel⟩,
   ⟨wOn.setSnap 2, _, 0, 0, 0x10, by decide +kernel, rfl, by decide +kernel⟩,
   ⟨(wOn.wr A.gnsSnapStatus 0xF8).wr A.refStatus 0xCFF, _, 0, 0, 0x10, by decide +kernel, rfl, by decide +kernel⟩,
   ⟨wOn.wr (A.gnsSideStatus 1) 0x400, _, 0, 0, 0x10, by decide +kernel, rfl, by decide +kernel⟩,
   ⟨wOn.setSide 0 (fun x => { x with excl := [⟨true, 2, 3, 7⟩] }), _, 0, 0, 0x10, by decide +kernel, rfl, by decide +kernel⟩,
   ⟨(setStage wOn [(A.hrcQueryAddr 0, 0x20010DB8)]), _, 0, 0, 0, by decide +kernel, rfl, by decide +kernel⟩,
   ⟨wOn, _, 0, 0, 15, by decide +kernel, rfl, by decide +kernel⟩,
   ⟨wOn.wr (A.svpPipeStatus 0) 2, _, 0, 0, 0, by decide +kernel, rfl, by decide +kernel⟩,
   ⟨wOn.wr (A.macLinkStatus 7) 0x41, _, 0, 7, by decide +kernel, rfl, by decide +kernel⟩⟩

theorem test_scheduled_step_instant :
    (∃ (s u : State) (dt i : Nat) (e : CalEntry) (p : PostedStep) (th : Int), s.canonical = true ∧ u = (s.advance dt).inOrder (ofAction 0x1F) ∧
      dueEntry u.ts.calendar u.nowNs (fun x => decide (x.action = 0x1F)) = some (i, e) ∧
      e.target = 0 ∧
      u.ts.step = some p ∧
      u.sel = p.ref ∧
      u.qstate p.ref = 3 ∧
      u.ts.measured = some th ∧
      th.natAbs ≤ u.f A.tscStepThreshold 0 32 * 1000) ∧
    (∃ (s u : State) (dt i : Nat) (e : CalEntry) (p : PostedStep), s.canonical = true ∧ u = (s.advance dt).inOrder (ofAction 0x1F) ∧
      dueEntry u.ts.calendar u.nowNs (fun x => decide (x.action = 0x1F)) = some (i, e) ∧
      e.target = 0 ∧
      u.ts.step = some p ∧
      u.sel = p.ref ∧
      u.qstate p.ref = 3 ∧
      u.ts.measured = none) ∧
    (∃ (s u : State) (dt i : Nat) (e : CalEntry) (p : PostedStep) (th : Int), s.canonical = true ∧ u = (s.advance dt).inOrder (ofAction 0x1F) ∧
      dueEntry u.ts.calendar u.nowNs (fun x => decide (x.action = 0x1F)) = some (i, e) ∧
      e.target = 0 ∧
      u.ts.step = some p ∧
      u.sel = p.ref ∧
      u.qstate p.ref = 3 ∧
      u.ts.measured = some th ∧
      u.f A.tscStepThreshold 0 32 * 1000 < th.natAbs ∧
      u.f A.tscStepThreshold 0 32 * 1000 < (th - p.ps).natAbs ∧
      u.tscSafe = false ∧
      u.stepVetoed = false ∧
      u.effPolicy = 1) ∧
    (∃ (s u : State) (dt i : Nat) (e : CalEntry) (p : PostedStep) (th : Int), s.canonical = true ∧ u = (s.advance dt).inOrder (ofAction 0x1F) ∧
      dueEntry u.ts.calendar u.nowNs (fun x => decide (x.action = 0x1F)) = some (i, e) ∧
      e.target = 0 ∧
      u.ts.step = some p ∧
      u.sel = p.ref ∧
      u.qstate p.ref = 3 ∧
      u.ts.measured = some th ∧
      u.f A.tscStepThreshold 0 32 * 1000 < th.natAbs ∧
      u.f A.tscStepThreshold 0 32 * 1000 < (th - p.ps).natAbs ∧
      u.tscSafe = false ∧
      u.stepVetoed = false ∧
      u.effPolicy = 2) ∧
    (∃ (s u : State) (dt i : Nat) (e : CalEntry) (p : PostedStep) (th : Int), s.canonical = true ∧ u = (s.advance dt).inOrder (ofAction 0x1F) ∧
      dueEntry u.ts.calendar u.nowNs (fun x => decide (x.action = 0x1F)) = some (i, e) ∧
      e.target = 0 ∧
      u.ts.step = some p ∧
      u.sel = p.ref ∧
      u.qstate p.ref = 3 ∧
      u.ts.measured = some th ∧
      u.f A.tscStepThreshold 0 32 * 1000 < th.natAbs ∧
      u.f A.tscStepThreshold 0 32 * 1000 < (th - p.ps).natAbs ∧
      u.stepVetoed = true ∧
      u.effPolicy ≠ 3) ∧
    (∃ (s u : State) (dt i : Nat) (e : CalEntry) (p : PostedStep) (th : Int), s.canonical = true ∧ u = (s.advance dt).inOrder (ofAction 0x1F) ∧
      dueEntry u.ts.calendar u.nowNs (fun x => decide (x.action = 0x1F)) = some (i, e) ∧
      e.target = 0 ∧
      u.ts.step = some p ∧
      u.sel = p.ref ∧
      u.qstate p.ref = 3 ∧
      u.ts.measured = some th ∧
      u.f A.tscStepThreshold 0 32 * 1000 < th.natAbs ∧
      (th - p.ps).natAbs ≤ u.f A.tscStepThreshold 0 32 * 1000) :=
  ⟨⟨{ ((wOn.wr A.refStatus 0xFF05).wr (A.refInState 5) 3) with ts := { wOn.ts with step := some ⟨5000000, 5, false, some 0⟩, measured := some (-1000000), calendar := [(3, ownEntry 0x1F 0 0 0 1 0)] } }, _, 0, 3, ownEntry 0x1F 0 0 0 1 0, ⟨5000000, 5, false, some 0⟩, -1000000, by decide +kernel, rfl, by decide +kernel⟩,
   ⟨{ ((wOn.wr A.refStatus 0xFF05).wr (A.refInState 5) 3) with ts := { wOn.ts with step := some ⟨5000000, 5, false, some 0⟩, measured := none, calendar := [(3, ownEntry 0x1F 0 0 0 1 0)] } }, _, 0, 3, ownEntry 0x1F 0 0 0 1 0, ⟨5000000, 5, false, some 0⟩, by decide +kernel, rfl, by decide +kernel⟩,
   ⟨{ ((wOn.wr A.refStatus 0xFF05).wr (A.refInState 5) 3).wr A.tscStepCtl 1 with ts := { wOn.ts with step := some ⟨5000000, 5, false, some 0⟩, measured := some (-6000000), calendar := [(3, ownEntry 0x1F 0 0 0 1 0)] } }, _, 0, 3, ownEntry 0x1F 0 0 0 1 0, ⟨5000000, 5, false, some 0⟩, -6000000, by decide +kernel, rfl, by decide +kernel⟩,
   ⟨{ ((wOn.wr A.refStatus 0xFF05).wr (A.refInState 5) 3).wr A.tscStepCtl 2 with ts := { wOn.ts with step := some ⟨5000000, 5, false, some 0⟩, measured := some 7000000, calendar := [(3, ownEntry 0x1F 0 0 0 1 0)] } }, _, 0, 3, ownEntry 0x1F 0 0 0 1 0, ⟨5000000, 5, false, some 0⟩, 7000000, by decide +kernel, rfl, by decide +kernel⟩,
   ⟨{ { ((wOn.wr A.refStatus 0xFF05).wr (A.refInState 5) 3) with ts := { wOn.ts with step := some ⟨5000000, 5, false, some 0⟩, measured := some 7000000, calendar := [(3, ownEntry 0x1F 0 0 0 1 0)] } } with refs := { wOn.refs with ins := modAt wOn.refs.ins 5 (fun r => { r with resid := some 900000000 }) } }, _, 0, 3, ownEntry 0x1F 0 0 0 1 0, ⟨5000000, 5, false, some 0⟩, 7000000, by decide +kernel, rfl, by decide +kernel⟩,
   ⟨{ ((wOn.wr A.refStatus 0xFF05).wr (A.refInState 5) 3) with ts := { wOn.ts with step := some ⟨5000000, 5, false, some 0⟩, measured := some 6000000, calendar := [(3, ownEntry 0x1F 0 0 0 1 0)] } }, _, 0, 3, ownEntry 0x1F 0 0 0 1 0, ⟨5000000, 5, false, some 0⟩, 6000000, by decide +kernel, rfl, by decide +kernel⟩⟩

/-- Commands that meet the hypotheses of `Obligations.EveryCommandCompletes`. -/
theorem test_every_command_completes_1 : State.reset.canonical = true ∧ ∀ c ∈ ([
    .registerWrite 0 1 (A.tscCalCmd) [(15, 7)],
    .crClearingRead 0 0 (A.hifKicks) false,
    .sqAcknowledge 0 0 (A.refEvent) 0x01000001,
    .stageWrite 0 4 (A.refInCfg 13) 0xFFFFFFFF,
    .lkWrite 0 2 (A.rcpLtSlot) 5,
    .guardTimeout 0 4,
    .sluCommit 0 1 33 0,
    .sluCancel 0 0 4,
    .sluRevert 0 3 34,
    .flowAdopt 0 7 1,
    .addrApply 0,
    .parityScrub 0 [] [(A.refCtl)] [],
    .nowSecLoRead 0 0,
    .hostEvent 0,
    .sluApply 0,
    .outEdge 0 5,
    .pulseEnd 0 3,
    .ptpSync 0,
    .rcpWindow 0,
    .talWindow 0,
    .ntsEpoch 0,
    .leap 0,
    .hifDbPoll 0,
    .radiusTick 0 (⟨none, none, none, 0, none, true⟩),
    .tscStep 0,
    .qualTimeExpire 0 12,
    .wtrExpire 0 12,
    .distrustHoldExpire 0 12,
    .prepareEnd 0,
    .refLossTimeout 0 13,
    .refForce 0 0 12 0xFFFFFFF3,
    .clearDistrust 0 0 (word 12) 0xFFFFFFF3,
    .offsetLoRead 0 0 13,
    .qcontactChange 0 true,
    .todSentenceRx 0 ([]) false,
    .stepApprove 0 0 256 0xFFFFFEFF,
    .stepApproveSlew 0 0 0 0xFFFFFDFF,
    .calCreate 0 0 0x00030000 [] 1,
    .calCancel 0 0 0x00030000 [] 1,
    .calModify 0 0 0x00030000 [] 1,
    .calNone 0 0 0x00030000 [] 1,
    .cartLoss 0 false,
    .modelSample 0,
    .modelFlashWrite 0,
    .cartInsert 0,
    .cartRemove 0,
    .cartIdentified 0 0x41 1 99 ([]),
    .cartIdTimeout 0,
    .cartStatusPoll 0 true true,
    .cartWarmTimeout 0,
    .cartMeasDone 0,
    .cartOvercurrent 0,
    .cartRelease 0 0 0xFFFFFFFE,
    .cartPd2Off 0,
    .cartResume 0 1 0xFFFFFFFD,
    .cartForget 0 0 0xFFFFFFFC,
    .kaTick 0 (-5) none,
    .kaGnssWake 0,
    .kaWakeEnd 0 ([]),
    .gnssSolutionDone 0 1 (⟨[], [], (0, 0, 0), []⟩)] : List Instr), c.wf = true := by
  decide +kernel

/-- Commands that meet the hypotheses of `Obligations.EveryCommandCompletes`. -/
theorem test_every_command_completes_2 : State.reset.canonical = true ∧ ∀ c ∈ ([
    .gnssAlarmClear 0 0 2,
    .gnssExclEnd 0 1 true 2 3,
    .channelLossOfLock 0 1 159,
    .navRecord 0 0 (⟨0, 1, 0, 0, 0, 450, [], true, false, none, none, none⟩),
    .hotstartWrite 0,
    .surveyStart 0 0 0x10 [] 1,
    .surveyAbort 0 0 0x10 [] 1,
    .surveyProgress 0 1,
    .surveyComplete 0 0,
    .surveyTimeout 0 0,
    .posFix 0 0 0x10 [] 1,
    .posClear 0 0 0x10 [] 1,
    .snapArm 0 0 0x10 [] 1,
    .snapAbort 0 0 0x10 [] 1,
    .snapTrigger 0,
    .snapCaptureEnd 0,
    .replayStart 0 0 0x10 [] 1,
    .replayStop 0 0 0x10 [] 1,
    .replayEnd 0 1,
    .clearExcl 0 0 0x10 [] 1,
    .thetaLoRead 0 0 1,
    .rfiSpectrum 0 1 1 (⟨[(3, 40)], 20, 100, 5, 30⟩),
    .biasShort 0 1 91,
    .biasRetry 0 0 90,
    .gnssFwLoad 0 1 false,
    .tagEdge 0 15 false 3 0,
    .tagForward 0,
    .measClose 0 7,
    .measGateClose 0 0,
    .measForward 0,
    .calBurst 0 [(13, (-51))],
    .frameRx 0 7 (⟨.unknown, .goesOn, [], 0, true, 1, 1⟩),
    .weirLow 0 7 0,
    .pauseRefresh 0 3,
    .pauseEffect 0 7,
    .pauseHoldEnd 0 0,
    .pauseOverlimit 0 7,
    .linkUp 0 7 65535 3,
    .linkDown 0 7 (.fec),
    .cageInsert 0 1 true 0x11 4,
    .cageRemove 0 1,
    .verifySend 0 7,
    .verifyResponse 0 7,
    .probeStart 0 0 7,
    .probeReturn 0 7 5 1000,
    .probeTimeout 0 7,
    .responseBook 0 7,
    .finalise 0 7,
    .commitPoint 0 7,
    .slotStart 0 7,
    .ageDrop 0 7,
    .arpRequest 0,
    .neighborSolicitation 0,
    .exceptionFrame 0,
    .ntpRequest 0 15,
    .ntsRequest 0 15,
    .bucketMoveDone 0 255,
    .clientQuery 0 0 0 [] 1,
    .ntsRotateNow 0 0 0xFFFFFFFE,
    .ntsPurge 0 0 0xFFFFFFFD] : List Instr), c.wf = true := by
  decide +kernel

/-- Commands that meet the hypotheses of `Obligations.EveryCommandCompletes`. -/
theorem test_every_command_completes_3 : State.reset.canonical = true ∧ ∀ c ∈ ([
    .ntsKeyDrawn 0,
    .keyDeferRetry 0,
    .mintJob 0 (some (([15, 0, 1] ++ zeros 77 ++ [255, 255, 0, 0]))),
    .drain 0 0 15,
    .drainComplete 0 15,
    .reload 0 0 0 false,
    .reloadComplete 0 15 false,
    .delayReqRx 0,
    .unicastRequestRx 0,
    .unicastCancelRx 0,
    .grantExpire 0,
    .slaveMessageRx 0,
    .annTimeout 0 1,
    .slaveGrantRenew 0 1,
    .esmcRx 0,
    .etxelRequest 0 15,
    .roughtimeRequest 0 15,
    .sealDone 0,
    .sealTimeout 0,
    .receiptRelease 0,
    .onlineKeyExpire 0,
    .rcpRotateNow 0 0 0xFFFFFFFE,
    .ltSlot 0 1 0x41,
    .ed25519Sign 0 15,
    .ed25519Verify 0 15,
    .ed448Sign 0 15,
    .ed448Verify 0 15,
    .x25519 0 15,
    .x448 0 15,
    .ecdsaSign 0 15,
    .ecdsaVerify 0 15,
    .ecdh 0 15,
    .rsaPrivate 0 15,
    .rsaPublic 0 15,
    .keygen 0 15,
    .keyImport 0 15,
    .keyWipe 0,
    .keyPublic 0,
    .pkeDispatch 0 15,
    .pkeYield 0 15,
    .pkeJobAged 0,
    .pkeJobComplete 0 15 true,
    .pkeAbort 0 0 9 0xFFFFFFF6,
    .keygenProgress 0 15 3 8,
    .drbgReseed 0,
    .trngSourceFail 0 7 true,
    .trngSourceRetest 0 7 true,
    .fence 0 0 3 15 (~~~(word (1 + 3 * 16 + 15 * 256))),
    .returnUnit 0 0 0 0 (~~~(word 2)),
    .unitSelftestDone 0 5 15 true,
    .kick 0,
    .doorbellReadDone 0 none,
    .hostFrameTx 0 5 (some (zeros 60)),
    .hostFrameTimeout 0,
    .recordFlush 0 5,
    .xfer 0 5 ([]) true none,
    .vectorTimer 0 63,
    .blockEventCoalesce 0,
    .ringQuiesced 0 255,
    .hostDetach 0 4] : List Instr), c.wf = true := by
  decide +kernel

/-- Commands that meet the hypotheses of `Obligations.EveryCommandCompletes`. -/
theorem test_every_command_completes_4 : State.reset.canonical = true ∧ ∀ c ∈ ([
    .pcieLinkUp 0 5 16,
    .pcieRetrain 0,
    .journalFlashWrite 0,
    .sessionOpen 0 ([9]) true ([]) 0 0,
    .sessionIdle 0 4,
    .sessionClosed 0 4 true,
    .celenHello 0 4 1 (mpMsg (zeros 4)),
    .celenRead 0 4 (mpMsg (be 4 0x8030 ++ [2, 15, 0, 0])),
    .celenWrite 0 4 (mpMsg (be 4 A.refCtl ++ [1, 15, 0, 0] ++ be 4 9)),
    .celenRead64 0 4 (mpMsg (be 4 0x8030)),
    .celenSubscribe 0 4 (mpMsg (be 4 0x1FFFFF ++ [7, 0, 0, 0] ++ zeros 4)),
    .celenUnsubscribe 0 4 (mpMsg ([])),
    .journalRead 0 4 (mpMsg (zeros 4 ++ [0, 9, 0, 0])),
    .celenStage 0 4 (mpMsg ([1, 0, 0, 0] ++ be 8 0 ++ be 4 64)) none,
    .celenNet 0 4 (mpMsg (zeros 44)),
    .celenTrust 0 4 (mpMsg ([1, 0, 0, 0] ++ [0, 2, 5, 6])),
    .celenBye 0 4 (mpMsg ([])),
    .inputQualified 0 3 (sense 400),
    .inputLost 0 3 (sense 400),
    .mainPowerLost 0,
    .kaLost 0,
    .powerStart 0 [],
    .stepTimeout 0 [],
    .safeHoldRetry 0 [],
    .stabilityReached 0,
    .resetFull 0 0 0xFFFFFFFE none,
    .resetMgmt 0 0 0xFFFFFFFD none,
    .watchdog 0 none,
    .supervisorSilent 0 [],
    .thermWarn 0 (sense 1300),
    .thermalHold 0 (sense 1150),
    .thermalRecover 0 (sense 949) [],
    .bootStore 0 0 0xFFFFFFFE none,
    .bootClear 0 0 0xFFFFFFFD,
    .bootRetrain 0 0 0xFFFFFFFC,
    .alarmConditionChange 0,
    .alarmCloseTimer 0 1,
    .noSelectionTimer 0,
    .casLinkTick 0,
    .linkFrameRx 0 7 (peorel 1 156 []) 0 0,
    .opReqRx 0 7 (peorel 2 60 (zeros 4 ++ [1, 0, 0, 0] ++ zeros 4 ++ be 2 5 ++ zeros 6)),
    .opRx 0 7 (peorel 3 60 (be 4 8 ++ zeros 4)),
    .casBarrier 0,
    .casBroadcast 0,
    .casSnapshot 0,
    .serviceReset 0,
    .resultRx 0 7 (peorel 4 88 (be 4 3)),
    .resultDeadline 0,
    .doneRx 0 7 (peorel 5 88 (zeros 48 ++ be 8 wOn.serial ++ be 4 4)),
    .requestTimeout 0,
    .thetaLoLaneRead 0 4 7,
    .opResult0Read 0 0,
    .tallySel 0 0 0xFFFF0002,
    .stolenClear 0 4 1 0x001F0000,
    .sampleIndex 0 2 0x0FFF0003,
    .grantUnicastTransmissionRx 0,
    .preemptableFrameSent 0 7 false,
    .signalAcquired 0 1 159 320 2,
    .keeperFault 0] : List Instr), c.wf = true := by
  decide +kernel

end Sys2Proof.Tests
end

section
/-!
SUPPORT. Every command, whichever it is: it has its effect after the passage of its time exactly where the units it names exist
(`exec_meaning`), and the state it answers keeps the canonical form of the storage (`exec_can`).
-/

namespace Sys2Proof.Machine

/-- The two forms of a command's meaning, by the check `w` it makes of its operands: one that always has its effect after the passage
of its time, and one that stops by name where the check fails. -/
inductive Meaning (s : State) : Bool → Host.Outcome State Fault Refusal → Prop
  | always (dt : Nat) (f : State → State) : Meaning s true (after dt s f)
  | guarded (w : Bool) (dt : Nat) (f : State → State) : Meaning s w (afterIf w dt s f)

theorem Meaning.completes_iff {s : State} {w : Bool} {o : Host.Outcome State Fault Refusal} (m : Meaning s w o) :
    (∃ t, o = .next t) ↔ w = true := by
  cases m with
  | always dt f => simp [after]
  | guarded _ dt f => cases w <;> simp [afterIf]

theorem Meaning.eq_noSuchUnit {s : State} {w : Bool} {o : Host.Outcome State Fault Refusal} (m : Meaning s w o)
    (h : w = false) : o = .fault .noSuchUnit := by
  cases m with
  | always dt f => cases h
  | guarded _ dt f => simp [afterIf, h]

/-- The dispatch has an arm for each command, and the check of that arm is the one `Instr.wf` makes of the command. -/
theorem exec_meaning (c : Instr) (s : State) : Meaning s c.wf (exec c s) := by
  unfold Instr.wf exec
  cases c <;> constructor

/-- The canonical form through the dispatch: each arm answers as the meaning it calls. -/
theorem exec_can {c : Instr} {Q s t : State} (h : Can Q s) (e : exec c s = .next t) : Can Q t := by
  cases c with
  | registerWrite => exact execRegisterWrite_can _ _ _ _ h e
  | crClearingRead => exact execCrClearingRead_can _ _ _ _ h e
  | sqAcknowledge => exact execSqAcknowledge_can _ _ _ _ h e
  | stageWrite => exact execStageWrite_can _ _ _ _ h e
  | lkWrite => exact execLkWrite_can _ _ _ _ h e
  | guardTimeout => exact execGuardTimeout_can _ _ h e
  | sluCommit => exact execSluCommit_can _ _ _ _ h e
  | sluCancel => exact execSluCancel_can _ _ _ h e
  | sluRevert => exact execSluRevert_can _ _ _ h e
  | flowAdopt => exact execFlowAdopt_can _ _ _ h e
  | addrApply => exact execAddrApply_can _ h e
  | parityScrub => exact execParityScrub_can _ _ _ _ h e
  | nowSecLoRead => exact execNowSecLoRead_can _ _ h e
  | hostEvent => exact execHostEvent_can _ h e
  | sluApply => exact execSluApply_can _ h e
  | outEdge => exact execOutEdge_can _ _ h e
  | pulseEnd => exact execPulseEnd_can _ _ h e
  | ptpSync => exact execPtpSync_can _ h e
  | rcpWindow => exact execRcpWindow_can _ h e
  | talWindow => exact execTalWindow_can _ h e
  | ntsEpoch => exact execNtsEpoch_can _ h e
  | leap => exact execLeap_can _ h e
  | hifDbPoll => exact execHifDbPoll_can _ h e
  | radiusTick => exact execRadiusTick_can _ _ h e
  | tscStep => exact execTscStep_can _ h e
  | qualTimeExpire => exact execQualTimeExpire_can _ _ h e
  | wtrExpire => exact execWtrExpire_can _ _ h e
  | distrustHoldExpire => exact execDistrustHoldExpire_can _ _ h e
  | prepareEnd => exact execPrepareEnd_can _ h e
  | refLossTimeout => exact execRefLossTimeout_can _ _ h e
  | refForce => exact execRefForce_can _ _ _ _ h e
  | clearDistrust => exact execClearDistrust_can _ _ _ _ h e
  | offsetLoRead => exact execOffsetLoRead_can _ _ _ h e
  | qcontactChange => exact execQcontactChange_can _ _ h e
  | todSentenceRx => exact execTodSentenceRx_can _ _ _ h e
  | stepApprove => exact execStepApprove_can _ _ _ _ h e
  | stepApproveSlew => exact execStepApproveSlew_can _ _ _ _ h e
  | calCreate => exact execCalCreate_can _ _ _ _ _ h e
  | calCancel => exact execCalCancel_can _ _ _ _ _ h e
  | calModify => exact execCalModify_can _ _ _ _ _ h e
  | calNone => exact execCalNone_can _ _ _ _ _ h e
  | cartLoss => exact execCartLoss_can _ _ h e
  | modelSample => exact execModelSample_can _ h e
  | modelFlashWrite => exact execModelFlashWrite_can _ h e
  | cartInsert => exact execCartInsert_can _ h e
  | cartRemove => exact execCartRemove_can _ h e
  | cartIdentified => exact execCartIdentified_can _ _ _ _ _ h e
  | cartIdTimeout => exact execCartIdTimeout_can _ h e
  | cartStatusPoll => exact execCartStatusPoll_can _ _ _ h e
  | cartWarmTimeout => exact execCartWarmTimeout_can _ h e
  | cartMeasDone => exact execCartMeasDone_can _ h e
  | cartOvercurrent => exact execCartOvercurrent_can _ h e
  | cartRelease => exact execCartRelease_can _ _ _ h e
  | cartPd2Off => exact execCartPd2Off_can _ h e
  | cartResume => exact execCartResume_can _ _ _ h e
  | cartForget => exact execCartForget_can _ _ _ h e
  | kaTick => exact execKaTick_can _ _ _ h e
  | kaGnssWake => exact execKaGnssWake_can _ h e
  | kaWakeEnd => exact execKaWakeEnd_can _ _ h e
  | gnssSolutionDone => exact execGnssSolutionDone_can _ _ _ h e
  | gnssAlarmClear => exact execGnssAlarmClear_can _ _ _ h e
  | gnssExclEnd => exact execGnssExclEnd_can _ _ _ _ _ h e
  | channelLossOfLock => exact execChannelLossOfLock_can _ _ _ h e
  | navRecord => exact execNavRecord_can _ _ _ h e
  | hotstartWrite => exact execHotstartWrite_can _ h e
  | surveyStart => exact execSurveyStart_can _ _ _ _ _ h e
  | surveyAbort => exact execSurveyAbort_can _ _ _ _ _ h e
  | surveyProgress => exact execSurveyProgress_can _ _ h e
  | surveyComplete => exact execSurveyComplete_can _ _ h e
  | surveyTimeout => exact execSurveyTimeout_can _ _ h e
  | posFix => exact execPosFix_can _ _ _ _ _ h e
  | posClear => exact execPosClear_can _ _ _ _ _ h e
  | snapArm => exact execSnapArm_can _ _ _ _ _ h e
  | snapAbort => exact execSnapAbort_can _ _ _ _ _ h e
  | snapTrigger => exact execSnapTrigger_can _ h e
  | snapCaptureEnd => exact execSnapCaptureEnd_can _ h e
  | replayStart => exact execReplayStart_can _ _ _ _ _ h e
  | replayStop => exact execReplayStop_can _ _ _ _ _ h e
  | replayEnd => exact execReplayEnd_can _ _ h e
  | clearExcl => exact execClearExcl_can _ _ _ _ _ h e
  | thetaLoRead => exact execThetaLoRead_can _ _ _ h e
  | rfiSpectrum => exact execRfiSpectrum_can _ _ _ _ h e
  | biasShort => exact execBiasShort_can _ _ _ h e
  | biasRetry => exact execBiasRetry_can _ _ _ h e
  | gnssFwLoad => exact execGnssFwLoad_can _ _ _ h e
  | tagEdge => exact execTagEdge_can _ _ _ _ _ h e
  | tagForward => exact execTagForward_can _ h e
  | measClose => exact execMeasClose_can _ _ h e
  | measGateClose => exact execMeasGateClose_can _ _ h e
  | measForward => exact execMeasForward_can _ h e
  | calBurst => exact execCalBurst_can _ _ h e
  | frameRx => exact execFrameRx_can _ _ _ h e
  | weirLow => exact execWeirLow_can _ _ _ h e
  | pauseRefresh => exact execPauseRefresh_can _ _ h e
  | pauseEffect => exact execPauseEffect_can _ _ h e
  | pauseHoldEnd => exact execPauseHoldEnd_can _ _ h e
  | pauseOverlimit => exact execPauseOverlimit_can _ _ h e
  | linkUp => exact execLinkUp_can _ _ _ _ h e
  | linkDown => exact execLinkDown_can _ _ _ h e
  | cageInsert => exact execCageInsert_can _ _ _ _ _ h e
  | cageRemove => exact execCageRemove_can _ _ h e
  | verifySend => exact execVerifySend_can _ _ h e
  | verifyResponse => exact execVerifyResponse_can _ _ h e
  | probeStart => exact execProbeStart_can _ _ _ h e
  | probeReturn => exact execProbeReturn_can _ _ _ _ h e
  | probeTimeout => exact execProbeTimeout_can _ _ h e
  | responseBook => exact execResponseBook_can _ _ h e
  | finalise => exact execFinalise_can _ _ h e
  | commitPoint => exact execCommitPoint_can _ _ h e
  | slotStart => exact execSlotStart_can _ _ h e
  | ageDrop => exact execAgeDrop_can _ _ h e
  | arpRequest => exact execArpRequest_can _ h e
  | neighborSolicitation => exact execNeighborSolicitation_can _ h e
  | exceptionFrame => exact execExceptionFrame_can _ h e
  | ntpRequest => exact execNtpRequest_can _ _ h e
  | ntsRequest => exact execNtsRequest_can _ _ h e
  | bucketMoveDone => exact execBucketMoveDone_can _ _ h e
  | clientQuery => exact execClientQuery_can _ _ _ _ _ h e
  | ntsRotateNow => exact execNtsRotateNow_can _ _ _ h e
  | ntsPurge => exact execNtsPurge_can _ _ _ h e
  | ntsKeyDrawn => exact execNtsKeyDrawn_can _ h e
  | keyDeferRetry => exact execKeyDeferRetry_can _ h e
  | mintJob => exact execMintJob_can _ _ h e
  | drain => exact execDrain_can _ _ _ h e
  | drainComplete => exact execDrainComplete_can _ _ h e
  | reload => exact execReload_can _ _ _ _ h e
  | reloadComplete => exact execReloadComplete_can _ _ _ h e
  | delayReqRx => exact execDelayReqRx_can _ h e
  | unicastRequestRx => exact execUnicastRequestRx_can _ h e
  | unicastCancelRx => exact execUnicastCancelRx_can _ h e
  | grantExpire => exact execGrantExpire_can _ h e
  | slaveMessageRx => exact execSlaveMessageRx_can _ h e
  | annTimeout => exact execAnnTimeout_can _ _ h e
  | slaveGrantRenew => exact execSlaveGrantRenew_can _ _ h e
  | esmcRx => exact execEsmcRx_can _ h e
  | etxelRequest => exact execEtxelRequest_can _ _ h e
  | roughtimeRequest => exact execRoughtimeRequest_can _ _ h e
  | sealDone => exact execSealDone_can _ h e
  | sealTimeout => exact execSealTimeout_can _ h e
  | receiptRelease => exact execReceiptRelease_can _ h e
  | onlineKeyExpire => exact execOnlineKeyExpire_can _ h e
  | rcpRotateNow => exact execRcpRotateNow_can _ _ _ h e
  | ltSlot => exact execLtSlot_can _ _ _ h e
  | ed25519Sign => exact execEd25519Sign_can _ _ h e
  | ed25519Verify => exact execEd25519Verify_can _ _ h e
  | ed448Sign => exact execEd448Sign_can _ _ h e
  | ed448Verify => exact execEd448Verify_can _ _ h e
  | x25519 => exact execX25519_can _ _ h e
  | x448 => exact execX448_can _ _ h e
  | ecdsaSign => exact execEcdsaSign_can _ _ h e
  | ecdsaVerify => exact execEcdsaVerify_can _ _ h e
  | ecdh => exact execEcdh_can _ _ h e
  | rsaPrivate => exact execRsaPrivate_can _ _ h e
  | rsaPublic => exact execRsaPublic_can _ _ h e
  | keygen => exact execKeygen_can _ _ h e
  | keyImport => exact execKeyImport_can _ _ h e
  | keyWipe => exact execKeyWipe_can _ h e
  | keyPublic => exact execKeyPublic_can _ h e
  | pkeDispatch => exact execPkeDispatch_can _ _ h e
  | pkeYield => exact execPkeYield_can _ _ h e
  | pkeJobAged => exact execPkeJobAged_can _ h e
  | pkeJobComplete => exact execPkeJobComplete_can _ _ _ h e
  | pkeAbort => exact execPkeAbort_can _ _ _ _ h e
  | keygenProgress => exact execKeygenProgress_can _ _ _ _ h e
  | drbgReseed => exact execDrbgReseed_can _ h e
  | trngSourceFail => exact execTrngSourceFail_can _ _ _ h e
  | trngSourceRetest => exact execTrngSourceRetest_can _ _ _ h e
  | fence => exact execFence_can _ _ _ _ _ h e
  | returnUnit => exact execReturnUnit_can _ _ _ _ _ h e
  | unitSelftestDone => exact execUnitSelftestDone_can _ _ _ _ h e
  | kick => exact execKick_can _ h e
  | doorbellReadDone => exact execDoorbellReadDone_can _ _ h e
  | hostFrameTx => exact execHostFrameTx_can _ _ _ h e
  | hostFrameTimeout => exact execHostFrameTimeout_can _ h e
  | recordFlush => exact execRecordFlush_can _ _ h e
  | xfer => exact execXfer_can _ _ _ _ _ h e
  | vectorTimer => exact execVectorTimer_can _ _ h e
  | blockEventCoalesce => exact execBlockEventCoalesce_can _ h e
  | ringQuiesced => exact execRingQuiesced_can _ _ h e
  | hostDetach => exact execHostDetach_can _ _ h e
  | pcieLinkUp => exact execPcieLinkUp_can _ _ _ h e
  | pcieRetrain => exact execPcieRetrain_can _ h e
  | journalFlashWrite => exact execJournalFlashWrite_can _ h e
  | sessionOpen => exact execSessionOpen_can _ _ _ _ _ _ h e
  | sessionIdle => exact execSessionIdle_can _ _ h e
  | sessionClosed => exact execSessionClosed_can _ _ _ h e
  | celenHello => exact execCelenHello_can _ _ _ _ h e
  | celenRead => exact execCelenRead_can _ _ _ h e
  | celenWrite => exact execCelenWrite_can _ _ _ h e
  | celenRead64 => exact execCelenRead64_can _ _ _ h e
  | celenSubscribe => exact execCelenSubscribe_can _ _ _ h e
  | celenUnsubscribe => exact execCelenUnsubscribe_can _ _ _ h e
  | journalRead => exact execJournalRead_can _ _ _ h e
  | celenStage => exact execCelenStage_can _ _ _ _ h e
  | celenNet => exact execCelenNet_can _ _ _ h e
  | celenTrust => exact execCelenTrust_can _ _ _ h e
  | celenBye => exact execCelenBye_can _ _ _ h e
  | inputQualified => exact execInputQualified_can _ _ _ h e
  | inputLost => exact execInputLost_can _ _ _ h e
  | mainPowerLost => exact execMainPowerLost_can _ h e
  | kaLost => exact execKaLost_can _ h e
  | powerStart => exact execPowerStart_can _ _ h e
  | stepTimeout => exact execStepTimeout_can _ _ h e
  | safeHoldRetry => exact execSafeHoldRetry_can _ _ h e
  | stabilityReached => exact execStabilityReached_can _ h e
  | resetFull => exact execResetFull_can _ _ _ _ h e
  | resetMgmt => exact execResetMgmt_can _ _ _ _ h e
  | watchdog => exact execWatchdog_can _ _ h e
  | supervisorSilent => exact execSupervisorSilent_can _ _ h e
  | thermWarn => exact execThermWarn_can _ _ h e
  | thermalHold => exact execThermalHold_can _ _ h e
  | thermalRecover => exact execThermalRecover_can _ _ _ h e
  | bootStore => exact execBootStore_can _ _ _ _ h e
  | bootClear => exact execBootClear_can _ _ _ h e
  | bootRetrain => exact execBootRetrain_can _ _ _ h e
  | alarmConditionChange => exact execAlarmConditionChange_can _ h e
  | alarmCloseTimer => exact execAlarmCloseTimer_can _ _ h e
  | noSelectionTimer => exact execNoSelectionTimer_can _ h e
  | casLinkTick => exact execCasLinkTick_can _ h e
  | linkFrameRx => exact execLinkFrameRx_can _ _ _ _ _ h e
  | opReqRx => exact execOpReqRx_can _ _ _ h e
  | opRx => exact execOpRx_can _ _ _ h e
  | casBarrier => exact execCasBarrier_can _ h e
  | casBroadcast => exact execCasBroadcast_can _ h e
  | casSnapshot => exact execCasSnapshot_can _ h e
  | serviceReset => exact execServiceReset_can _ h e
  | resultRx => exact execResultRx_can _ _ _ h e
  | resultDeadline => exact execResultDeadline_can _ h e
  | doneRx => exact execDoneRx_can _ _ _ h e
  | requestTimeout => exact execRequestTimeout_can _ h e
  | thetaLoLaneRead => exact execThetaLoLaneRead_can _ _ _ h e
  | opResult0Read => exact execOpResult0Read_can _ _ h e
  | tallySel => exact execTallySel_can _ _ _ h e
  | stolenClear => exact execStolenClear_can _ _ _ _ h e
  | sampleIndex => exact execSampleIndex_can _ _ _ h e
  | grantUnicastTransmissionRx => exact execGrantUnicastTransmissionRx_can _ h e
  | preemptableFrameSent => exact execPreemptableFrameSent_can _ _ _ h e
  | signalAcquired => exact execSignalAcquired_can _ _ _ _ _ h e
  | keeperFault => exact execKeeperFault_can _ h e

/-- A command whose units exist completes from every canonical state, and leaves it canonical. -/
theorem completes_canonical {c : Instr} {s : State} (h : s.canonical = true) (w : c.wf = true) :
    Completes c s (fun t => t.canonical = true) := by
  obtain ⟨t, e⟩ := (exec_meaning c s).completes_iff.mpr w
  exact ⟨t, e, (exec_can (Can.start h) e).canonical⟩

/-- Settles O51: every arm of the dispatch checks what `Instr.wf` says, and answers a next state where the check passes. -/
theorem unitsThatExist : Obligations.UnitsThatExist := by
  unfold Obligations.UnitsThatExist
  exact fun c s => ⟨(exec_meaning c s).completes_iff, (exec_meaning c s).eq_noSuchUnit⟩

/-- Settles O60: the hypotheses of each clause on the operands are the check that `Instr.wf` makes of that command. -/
theorem everyCommandCompletes : Obligations.EveryCommandCompletes := by
  unfold Obligations.EveryCommandCompletes
  and_intros
  all_goals
    intros
    exact completes_canonical ‹_› (by simp [Instr.wf, *])

end Sys2Proof.Machine
end

section
/-!
SUPPORT. The accumulator (R20) and the entry of the calendar that fires (R27, R43).
-/

set_option Elab.async false

namespace Sys2Proof.Machine

/-! ### The accumulator (R20) -/

/-- The rate of one fabric cycle is the signed sum of R20 where that is not negative. -/
theorem rate_eq {freq slew : Int} (h : 0 ≤ (2 : Int) ^ 48 + freq + slew) : (rate freq slew : Int) = 2 ^ 48 + (freq + slew) := by
  unfold rate
  rw [Int.toNat_of_nonneg h]
  ring

/-- Two passages of time are one: the rate is that of the registers, which time leaves alone. -/
theorem advance_advance (s : State) (m n : Nat) : (s.advance m).advance n = s.advance (m + n) := by
  unfold State.advance State.sf State.rd
  simp only [State.mk.injEq, Timescale.mk.injEq, true_and, and_true]
  refine ⟨?_, ?_, ?_, ?_⟩ <;> push_cast <;> ring

/-- Settles O45: one cycle adds the signed sum of R20, and passages of time add up. -/
theorem accumulatorAdvances : Obligations.AccumulatorAdvances := by
  unfold Obligations.AccumulatorAdvances
  refine ⟨fun s h => ?_, advance_advance, fun _ _ => ⟨rfl, rfl⟩⟩
  have acc : (s.advance 1).ts.acc = s.ts.acc + 1 * rate (s.sf A.tscFreqCorr 0 32) s.ts.ySlew := rfl
  rw [acc, Nat.cast_add, one_mul, rate_eq h]

/-! ### The entry that fires (R27, R43) -/

/-- What a scan for the first entry of a kind holds after the entries of `l`: one of them that is due and of the kind, no later in
instant than any such entry, and before every such entry of its instant. -/
structure LeastDue (l : Cells CalEntry) (now : Nat) (p : CalEntry → Bool) (b : Nat × CalEntry) : Prop where
  mem : b ∈ l
  kind : p b.2 = true
  due : b.2.due now = true
  least : ∀ x ∈ l, p x.2 = true → x.2.due now = true → b.2.atNs < x.2.atNs ∨ (b.2.atNs = x.2.atNs ∧ b.1 ≤ x.1)

/-- One step of the scan of `dueEntry`. -/
theorem dueEntry_append (l : Cells CalEntry) (e : Nat × CalEntry) (now : Nat) (p : CalEntry → Bool) :
    dueEntry (l ++ [e]) now p = if p e.2 && e.2.due now then
      (match dueEntry l now p with
       | none => some e
       | some b => if e.2.atNs < b.2.atNs then some e else some b) else dueEntry l now p := by
  unfold dueEntry
  rw [List.foldl_append]
  rfl

/-- No entry fires only where none is due. -/
theorem dueEntry_eq_none {l : Cells CalEntry} {now : Nat} {p : CalEntry → Bool} (h : dueEntry l now p = none) :
    ∀ x ∈ l, p x.2 = true → x.2.due now = false := by
  induction l using List.reverseRecOn with
  | nil => simp
  | append_singleton l e ih =>
    rw [dueEntry_append] at h
    by_cases c : (p e.2 && e.2.due now) = true
    · rw [if_pos c] at h
      cases k : dueEntry l now p with
      | none => rw [k] at h; cases h
      | some b => rw [k] at h; dsimp only at h; split at h <;> cases h
    · rw [if_neg c] at h
      intro x m k
      rcases List.mem_append.mp m with m | m
      · exact ih h x m k
      · obtain rfl := List.mem_singleton.mp m
        simpa [k] using c

/-- The entry that fires is the least due one of its kind, in a calendar in the order of its indices. -/
theorem dueEntry_least {l : Cells CalEntry} {now : Nat} {p : CalEntry → Bool} {b : Nat × CalEntry}
    (r : l.Pairwise (fun x y => x.1 < y.1)) (h : dueEntry l now p = some b) : LeastDue l now p b := by
  induction l using List.reverseRecOn generalizing b with
  | nil => cases h
  | append_singleton l e ih =>
    obtain ⟨rl, -, before⟩ := List.pairwise_append.mp r
    rw [dueEntry_append] at h
    by_cases c : (p e.2 && e.2.due now) = true
    · obtain ⟨ke, de⟩ := Bool.and_eq_true_iff.mp c
      rw [if_pos c] at h
      cases k : dueEntry l now p with
      | none =>
        rw [k] at h
        obtain rfl := Option.some.inj h
        refine ⟨by simp, ke, de, fun x m kx dx => ?_⟩
        rcases List.mem_append.mp m with m | m
        · rw [dueEntry_eq_none k x m kx] at dx; cases dx
        · obtain rfl := List.mem_singleton.mp m; exact .inr ⟨rfl, le_rfl⟩
      | some y =>
        obtain ⟨my, ky, dy, ly⟩ := ih rl k
        rw [k] at h
        dsimp only at h
        by_cases lt : e.2.atNs < y.2.atNs
        · rw [if_pos lt] at h
          obtain rfl := Option.some.inj h
          refine ⟨by simp, ke, de, fun x m kx dx => ?_⟩
          rcases List.mem_append.mp m with m | m
          · have := ly x m kx dx; omega
          · obtain rfl := List.mem_singleton.mp m; exact .inr ⟨rfl, le_rfl⟩
        · rw [if_neg lt] at h
          obtain rfl := Option.some.inj h
          refine ⟨List.mem_append_left _ my, ky, dy, fun x m kx dx => ?_⟩
          rcases List.mem_append.mp m with m | m
          · exact ly x m kx dx
          · obtain rfl := List.mem_singleton.mp m
            have := before y my x (by simp)
            omega
    · rw [if_neg c] at h
      obtain ⟨mb, kb, db, lb⟩ := ih rl h
      refine ⟨List.mem_append_left _ mb, kb, db, fun x m kx dx => ?_⟩
      rcases List.mem_append.mp m with m | m
      · exact lb x m kx dx
      · obtain rfl := List.mem_singleton.mp m
        simp [kx, dx] at c

/-- Settles O49: the scan keeps the least due entry of what it has seen. -/
theorem leastEntryFires : Obligations.LeastEntryFires := by
  unfold Obligations.LeastEntryFires
  refine ⟨fun l now p i e r h => ?_, fun l now p h => dueEntry_eq_none h⟩
  obtain ⟨m, k, d, least⟩ := dueEntry_least (of_decide_eq_true r) h
  exact ⟨m, k, d, fun j x => least (j, x)⟩

end Sys2Proof.Machine
end

section
/-!
SUPPORT. Frames of parts: which fields of the state an operation may change, as a relation that composes.
-/

set_option Elab.async false

namespace Sys2Proof.Machine

/-! ### Frames of parts -/

/-- Two states agree on a part to the last bit: the timescale with the passage of time. -/
def Part.eq (s t : State) : Part → Prop
  | .ts => t.ts = s.ts
  | p => p.same s t

/-- An operation leaves every part outside `l` as it was. -/
def PartFrame (l : List Part) (s t : State) : Prop := ∀ p, p ∉ l → p.eq s t

theorem Part.eq_refl (s : State) (p : Part) : p.eq s s := by cases p <;> rfl

theorem Part.eq_trans {s t u : State} {p : Part} (h : p.eq s t) (k : p.eq t u) : p.eq s u := by
  cases p <;> exact Eq.trans k h

/-- An operation without time leaves a part as it was since before time passed. -/
theorem Part.same_of_eq {s t u : State} {p : Part} (h : p.same s t) (k : p.eq t u) : p.same s u := by
  cases p
  case ts =>
    unfold Part.same at h ⊢
    rw [show u.ts = t.ts from k]
    exact h
  all_goals exact Eq.trans k h

theorem Part.same_refl (s : State) (p : Part) : p.same s s := by cases p <;> rfl

/-- The passage of time changes no part. -/
theorem Part.same_advance (s : State) (dt : Nat) (p : Part) : p.same s (s.advance dt) := by cases p <;> rfl

theorem PartFrame.refl (l : List Part) (s : State) : PartFrame l s s := fun p _ => p.eq_refl s

theorem PartFrame.mono {l m : List Part} {s t : State} (h : PartFrame l s t) (k : l ⊆ m := by decide) : PartFrame m s t :=
  fun p n => h p (fun c => n (k c))

theorem PartFrame.trans {l : List Part} {s t u : State} (h : PartFrame l s t) (k : PartFrame l t u) : PartFrame l s u :=
  fun p n => Part.eq_trans (h p n) (k p n)

/-- One operation after the other: what both leave alone. -/
theorem PartFrame.andThen {l m n : List Part} {s t u : State} (h : PartFrame l s t) (k : PartFrame m t u)
    (hl : l ⊆ n := by decide) (hm : m ⊆ n := by decide) : PartFrame n s u := (h.mono hl).trans (k.mono hm)

/-- One operation more, within the parts of those before it. -/
theorem PartFrame.step {l m : List Part} {s t u : State} (h : PartFrame l s t) (k : PartFrame m t u) (hm : m ⊆ l := by decide) :
    PartFrame l s u := h.trans (k.mono hm)

theorem PartFrame.ite {l : List Part} {c : Prop} [Decidable c] {s t u : State} (h : PartFrame l s t) (k : PartFrame l s u) :
    PartFrame l s (if c then t else u) := by split <;> assumption

theorem PartFrame.ite1 {l : List Part} {α : Type} {c : Prop} [Decidable c] {s : State} {t u : State × α} (h : PartFrame l s t.1)
    (k : PartFrame l s u.1) : PartFrame l s (if c then t else u).1 := by split <;> assumption

theorem PartFrame.when {l : List Part} {s : State} {c : Bool} {g : State → State} (h : PartFrame l s (g s)) :
    PartFrame l s (s.when c g) := by cases c; exacts [.refl l s, h]

theorem PartFrame.each {l : List Part} {α : Type} {g : α → State → State} (h : ∀ x t, PartFrame l t (g x t)) :
    ∀ (xs : List α) (s : State), PartFrame l s (s.each xs g)
  | [], s => .refl l s
  | x :: xs, s => (h x s).trans (PartFrame.each h xs (g x s))

theorem PartFrame.foldl {l : List Part} {α : Type} {g : State → α → State} (h : ∀ t x, PartFrame l t (g t x)) :
    ∀ (xs : List α) (s : State), PartFrame l s (xs.foldl g s)
  | [], s => .refl l s
  | x :: xs, s => (h s x).trans (PartFrame.foldl h xs (g s x))

/-! A state with one field changed. -/

theorem PartFrame.regs (s : State) (x : Cells Word) : PartFrame [.regs] s { s with regs := x } := by
  intro p n; cases p <;> simp_all [Part.eq, Part.same]
theorem PartFrame.sources (s : State) (x : List SourceView) : PartFrame [.sources] s { s with sources := x } := by
  intro p n; cases p <;> simp_all [Part.eq, Part.same]
theorem PartFrame.faultRead (s : State) (x : Nat) : PartFrame [.faultRead] s { s with faultRead := x } := by
  intro p n; cases p <;> simp_all [Part.eq, Part.same]
theorem PartFrame.totals (s : State) (x : Cells Nat) : PartFrame [.totals] s { s with totals := x } := by
  intro p n; cases p <;> simp_all [Part.eq, Part.same]
theorem PartFrame.journal (s : State) (x : Journal) : PartFrame [.journal] s { s with journal := x } := by
  intro p n; cases p <;> simp_all [Part.eq, Part.same]
theorem PartFrame.celen (s : State) (x : Celen) : PartFrame [.celen] s { s with celen := x } := by
  intro p n; cases p <;> simp_all [Part.eq, Part.same]
theorem PartFrame.ts (s : State) (x : Timescale) : PartFrame [.ts] s { s with ts := x } := by
  intro p n; cases p <;> simp_all [Part.eq, Part.same]
theorem PartFrame.hif (s : State) (x : Hif) : PartFrame [.hif] s { s with hif := x } := by
  intro p n; cases p <;> simp_all [Part.eq, Part.same]
theorem PartFrame.refs (s : State) (x : Refs) : PartFrame [.refs] s { s with refs := x } := by
  intro p n; cases p <;> simp_all [Part.eq, Part.same]
theorem PartFrame.ports (s : State) (x : Ports) : PartFrame [.ports] s { s with ports := x } := by
  intro p n; cases p <;> simp_all [Part.eq, Part.same]
theorem PartFrame.nts (s : State) (x : Nts) : PartFrame [.nts] s { s with nts := x } := by
  intro p n; cases p <;> simp_all [Part.eq, Part.same]
theorem PartFrame.ptp (s : State) (x : Ptp) : PartFrame [.ptp] s { s with ptp := x } := by
  intro p n; cases p <;> simp_all [Part.eq, Part.same]
theorem PartFrame.pke (s : State) (x : Pke) : PartFrame [.pke] s { s with pke := x } := by
  intro p n; cases p <;> simp_all [Part.eq, Part.same]
theorem PartFrame.tal (s : State) (x : Tal) : PartFrame [.tal] s { s with tal := x } := by
  intro p n; cases p <;> simp_all [Part.eq, Part.same]
theorem PartFrame.pwr (s : State) (x : Pwr) : PartFrame [.pwr] s { s with pwr := x } := by
  intro p n; cases p <;> simp_all [Part.eq, Part.same]
theorem PartFrame.out (s : State) (x : List Emission) : PartFrame [.out] s { s with out := x } := by
  intro p n; cases p <;> simp_all [Part.eq, Part.same]
theorem PartFrame.fresh (s : State) (x : Nat) : PartFrame [.fresh] s { s with fresh := x } := by
  intro p n; cases p <;> simp_all [Part.eq, Part.same]

end Sys2Proof.Machine
end

section
/-!
SUPPORT. The frames of the operations that every unit shares, up to the firing of a calendar entry.
-/

set_option Elab.async false

namespace Sys2Proof.Machine

/-! ### The parts that the shared operations change -/

/-- The parts that reporting an event may change (R332, R342, R385). -/
abbrev reportParts : List Part := [.regs, .totals, .celen, .hif, .out]

/-- The parts that a journal record may change (R387 to R389). -/
abbrev journalParts : List Part := [.regs, .totals, .journal, .celen, .hif, .out]

theorem PartFrame.wr (s : State) (a : Nat) (v : Word) : PartFrame [.regs] s (s.wr a v) := .regs s _

theorem PartFrame.sfW (s : State) (a lo n v : Nat) : PartFrame [.regs] s (s.sfW a lo n v) := .wr s a _

theorem PartFrame.setBit (s : State) (a i : Nat) (b : Bool) : PartFrame [.regs] s (s.setBit a i b) := .wr s a _

theorem PartFrame.wr64 (s : State) (a : Nat) (v : Int) : PartFrame [.regs] s (s.wr64 a v) := (PartFrame.wr s a _).trans (.wr _ _ _)

theorem PartFrame.raiseBit (s : State) (a b : Nat) : PartFrame [.regs] s (s.raiseBit a b) := (PartFrame.wr s a _).trans (.wr _ _ _)

theorem PartFrame.emit (s : State) (e : Emission) : PartFrame [.out] s (s.emit e) := .out s _

theorem PartFrame.hostWrite (s : State) (a : Nat) (d : Bytes) : PartFrame [.out] s (s.hostWrite a d) := .out s _

theorem PartFrame.setRing (s : State) (n : Nat) (g : Ring → Ring) : PartFrame [.hif] s (s.setRing n g) := .hif s _

theorem PartFrame.count (s : State) (a n : Nat) : PartFrame [.regs, .totals] s (s.count a n) := by
  unfold State.count
  exact .ite ((PartFrame.totals s _).andThen (.wr64 _ _ _)) ((PartFrame.totals s _).andThen (.wr _ _ _))

theorem PartFrame.inc (s : State) (a : Nat) : PartFrame [.regs, .totals] s (s.inc a) := .count s a 1

theorem PartFrame.sendVec (s : State) (v : Nat) : PartFrame [.hif, .out] s (s.sendVec v) := by
  unfold State.sendVec
  exact .ite (.mono (.hif s _)) ((PartFrame.hif s _).andThen (.emit _ _))

theorem PartFrame.pendItem (s : State) (n : Nat) : PartFrame [.hif, .out] s (s.pendItem n) := by
  unfold State.pendItem
  exact .ite (.ite ((PartFrame.hif s _).andThen (.sendVec _ _)) (.mono (.hif s _))) (.refl _ s)

theorem PartFrame.bumpPosted (s : State) (n : Nat) : PartFrame [.regs, .hif] s (s.bumpPosted n) :=
  (PartFrame.setRing s n _).andThen (.wr _ _ _)

/-- An entry written to a ring in host memory, POSTED, and the message of the ring's vector (R331, R343). -/
theorem PartFrame.posting (s : State) (a : Nat) (d : Bytes) (n : Nat) :
    PartFrame [.regs, .hif, .out] s (((s.hostWrite a d).bumpPosted n).pendItem n) :=
  .step (.step (.mono (.hostWrite s a d)) (.bumpPosted _ n)) (.pendItem _ n)

theorem PartFrame.postCompletion (s : State) (n slot status flags length : Nat) (user : Bytes) :
    PartFrame [.regs, .hif, .out] s (s.postCompletion n slot status flags length user) := .posting s _ _ n

theorem PartFrame.evtDropped (s : State) : PartFrame [.regs, .totals] s s.evtDropped := by
  have one : ∀ t : State, PartFrame [.regs, .totals] t ((t.inc A.hifEvtDrop).raiseBit A.hifEvent 4) := fun t =>
    (PartFrame.inc t _).andThen (.raiseBit _ _ _)
  unfold State.evtDropped
  exact .ite ((one s).trans (one _)) (one s)

theorem PartFrame.postEvent (s : State) (type flags source stamp : Nat) (body : Bytes) :
    PartFrame [.regs, .totals, .hif, .out] s (s.postEvent type flags source stamp body) := by
  unfold State.postEvent
  split
  · exact .mono (.evtDropped s)
  · exact .ite (.mono (.evtDropped s)) (.mono (.posting s _ _ _))

theorem PartFrame.sendEventMsg (s : State) (i : Nat) (q : Subscription) (d : Bytes) :
    PartFrame [.celen, .out] s (s.sendEventMsg i q d) := (PartFrame.emit s _).andThen (.celen _ _)

theorem PartFrame.blockEvent (s : State) (dest reg : Nat) : PartFrame reportParts s (s.blockEvent dest reg) := by
  unfold State.blockEvent
  refine .ite ((PartFrame.hif s _).andThen (.postEvent _ _ _ _ _ _)) ?_
  split
  · exact (PartFrame.hif s _).andThen (.sendEventMsg _ _ _ _)
  · exact .mono (.hif s _)

theorem PartFrame.noteEvent (s : State) (dest reg : Nat) : PartFrame reportParts s (s.noteEvent dest reg) := by
  unfold State.noteEvent
  exact .ite (.mono (.hif s _)) (.blockEvent s dest reg)

/-- An event reaches the host and the sessions that subscribed to its block. -/
theorem PartFrame.raise (s : State) (reg b : Nat) : PartFrame reportParts s (s.raise reg b) := by
  unfold State.raise
  refine .ite (.mono (.raiseBit s reg b)) ?_
  refine .trans (.trans (.mono (.raiseBit s reg b)) (.ite (.noteEvent _ _ _) (.refl _ _))) (.each (fun i u => ?_) _ _)
  split
  · exact .ite (.noteEvent _ _ _) (.refl _ _)
  · exact .refl _ _

theorem PartFrame.settleBad (s : State) (n : Nat) : PartFrame [.regs, .hif, .out] s (s.settleBad n) := by
  unfold State.settleBad
  exact .ite (.trans (.mono (.setRing s n _)) (.each (fun _ _ => .postCompletion _ _ _ _ _ _ _) _ _))
    (.mono ((PartFrame.setRing s n _).trans (.setRing _ n _)))

theorem PartFrame.flushBuffer (s : State) (n : Nat) : PartFrame [.regs, .hif, .out] s (s.flushBuffer n) := by
  unfold State.flushBuffer
  split
  · exact .refl _ s
  · exact .trans ((PartFrame.setRing s n _).andThen (.postCompletion _ _ _ _ _ _ _)) (.settleBad _ n)

theorem PartFrame.makeRoom (s : State) (n len : Nat) : PartFrame [.regs, .hif, .out] s (s.makeRoom n len) := by
  unfold State.makeRoom
  split
  · exact .refl _ s
  · exact .ite (.flushBuffer s n) (.refl _ s)

theorem PartFrame.putRecord (s : State) (n : Nat) (d : Bytes) : PartFrame [.regs, .hif, .out] s (s.putRecord n d).1 := by
  unfold State.putRecord
  refine .trans (.makeRoom s n d.length) ?_
  dsimp only
  split
  · exact .refl _ _
  · exact .ite1 ((PartFrame.hostWrite _ _ _).andThen (.setRing _ n _)) (.refl _ _)

theorem PartFrame.pumpJournal (s : State) : PartFrame [.regs, .journal, .hif, .out] s s.pumpJournal := by
  unfold State.pumpJournal
  split
  · exact .refl _ s
  · refine .foldl (fun t r => ?_) _ s
    exact .ite (.ite ((PartFrame.putRecord t _ _).andThen (.journal _ _)) (.mono (.putRecord t _ _))) (.refl _ t)

theorem PartFrame.streamJournal (s : State) : PartFrame [.celen, .out] s s.streamJournal := by
  unfold State.streamJournal
  refine .each (fun i t => ?_) _ s
  split
  · exact .refl _ t
  · exact .ite ((PartFrame.each (l := [.out]) (fun _ _ => .emit _ _) _ t).andThen (.celen _ _)) (.refl _ t)

theorem PartFrame.journalize (s : State) (kind : Nat) (src : Source) (addr outcome : Nat) (body : Bytes) :
    PartFrame journalParts s (s.journalize kind src addr outcome body) := by
  unfold State.journalize
  refine .trans (.trans (.trans ((PartFrame.journal s _).andThen (.wr _ _ _)) (.ite (.refl _ _) ?_)) (.mono (.pumpJournal _)))
    (.mono (.streamJournal _))
  exact (PartFrame.count _ _ _).andThen (.raise _ _ _)

theorem PartFrame.journalBlock (s : State) (kind : Nat) (src : Source) (block addr outcome : Nat) (body : Bytes) :
    PartFrame journalParts s (s.journalBlock kind src block addr outcome body) :=
  (PartFrame.journalize s kind src addr outcome body).andThen (.journal _ _)

theorem PartFrame.logFault (s : State) (code : Nat) (src : Source) (block addr value access detail : Nat) :
    PartFrame journalParts s (s.logFault code src block addr value access detail) := by
  unfold State.logFault
  refine .trans (.trans (.trans (.trans (.trans (.ite ?_ (.refl _ s)) (.each (fun _ _ => .mono (.wr _ _ _)) _ _))
    ((PartFrame.wr _ _ _).andThen (.raise _ _ _))) (.ite (.mono (.postEvent _ _ _ _ _ _)) (.refl _ _))) (.each (fun i u => ?_) _ _))
    (.journalBlock _ _ _ _ _ _ _)
  · exact (PartFrame.inc s _).andThen (.raise _ _ _)
  · split
    · exact .ite (.mono (.sendEventMsg _ _ _ _)) (.refl _ u)
    · exact .refl _ u

/-- CAL_USED follows the calendar (R57). -/
theorem PartFrame.calUsed (s : State) : PartFrame [.regs] s s.calUsed := (PartFrame.sfW s _ _ _ _).trans (.sfW _ _ _ _ _)

theorem PartFrame.calPut (s : State) (i : Nat) (e : CalEntry) : PartFrame [.regs, .ts] s (s.calPut i e) :=
  (PartFrame.ts s _).andThen (.calUsed _)

theorem PartFrame.calFree (s : State) (i : Nat) : PartFrame [.regs, .ts] s (s.calFree i) := (PartFrame.ts s _).andThen (.calUsed _)

theorem PartFrame.rearm (s : State) (i : Nat) (e : CalEntry) : PartFrame [.regs, .ts] s (s.rearm i e) := by
  unfold State.rearm
  exact .ite (.calFree s i) (.calPut s i _)

/-- What a firing counts before the entry is re-armed: CAL_SKIPPED and CAL_LATE (R29, R43). -/
def State.noteFiring (s : State) (e : CalEntry) : State :=
  let t := if e.skipAt.isSome then (s.inc A.tscCalSkipped).raise A.tscEvent 7 else s
  if s.isLate e then (t.inc A.tscCalLate).raise A.tscEvent 8 else t

/-- A firing counts, then the entry is re-armed or freed. -/
theorem fireEntry_eq (s : State) (i : Nat) (e : CalEntry) :
    s.fireEntry i e = (s.noteFiring e).rearm i { e with late := s.isLate e, skipped := e.skipAt.isSome } := rfl

theorem PartFrame.noteFiring (s : State) (e : CalEntry) : PartFrame reportParts s (s.noteFiring e) := by
  have skip : PartFrame reportParts s (if e.skipAt.isSome then (s.inc A.tscCalSkipped).raise A.tscEvent 7 else s) :=
    .ite ((PartFrame.inc s _).andThen (.raise _ _ _)) (.refl _ s)
  unfold State.noteFiring
  exact .ite (skip.trans ((PartFrame.inc _ _).andThen (.raise _ _ _))) skip

theorem PartFrame.fireEntry (s : State) (i : Nat) (e : CalEntry) :
    PartFrame [.regs, .totals, .celen, .hif, .out, .ts] s (s.fireEntry i e) := by
  rw [fireEntry_eq]
  exact (PartFrame.noteFiring s e).andThen (.rearm _ i _)

end Sys2Proof.Machine
end

section
/-!
SUPPORT. The calendar after a firing (R28).
-/

set_option Elab.async false

namespace Sys2Proof.Machine

/-! ### The calendar after a firing (R28) -/

theorem CellList.self_mem_insert {β : Type} (a : Nat) (v : β) (l : List (Nat × β)) : (a, v) ∈ CellList.insert a v l := by
  induction l with
  | nil => exact List.mem_singleton_self _
  | cons x t ih =>
    obtain ⟨k, w⟩ := x
    unfold CellList.insert
    split
    · exact List.mem_cons_self
    · split
      · exact List.mem_cons_self
      · exact List.mem_cons_of_mem _ ih

/-- An insertion leaves the entries of other keys. -/
theorem CellList.mem_insert_ne {β : Type} {a : Nat} (v : β) {y : Nat × β} (h : y.1 ≠ a) (l : List (Nat × β)) :
    y ∈ CellList.insert a v l ↔ y ∈ l := by
  have new : y ≠ (a, v) := fun e => h (congrArg Prod.fst e)
  induction l with
  | nil => simp [CellList.insert, new]
  | cons x t ih =>
    obtain ⟨k, w⟩ := x
    unfold CellList.insert
    split
    · simp [new]
    · split
      · rename_i e
        have old : y ≠ (k, w) := fun c => h (by rw [c, e])
        simp [new, old]
      · simp [ih]

/-- A removal leaves the entries of other keys. -/
theorem CellList.mem_erase_ne {β : Type} {a : Nat} {y : Nat × β} (h : y.1 ≠ a) (l : List (Nat × β)) :
    y ∈ CellList.erase a l ↔ y ∈ l := by
  induction l with
  | nil => simp [CellList.erase]
  | cons x t ih =>
    obtain ⟨k, w⟩ := x
    unfold CellList.erase
    split
    · rename_i e
      have old : y ≠ (k, w) := fun c => h (by rw [c, e])
      simp [old]
    · simp [ih]

/-- A removed key is gone from a list with rising keys. -/
theorem CellList.ne_of_mem_erase {β : Type} {a : Nat} {l : List (Nat × β)} (r : l.Pairwise (fun x y => x.1 < y.1))
    {y : Nat × β} (h : y ∈ CellList.erase a l) : y.1 ≠ a := by
  induction l with
  | nil => simp [CellList.erase] at h
  | cons x t ih =>
    obtain ⟨k, w⟩ := x
    obtain ⟨first, rest⟩ := List.pairwise_cons.mp r
    unfold CellList.erase at h
    split at h
    · rename_i e
      have := first y h
      dsimp only at this
      omega
    · rename_i e
      rcases List.mem_cons.mp h with rfl | h
      · exact fun c => e c.symm
      · exact ih rest h

/-- The calendar's entries stand in rising order of their indices in a canonical state. -/
theorem calendar_rising {s : State} (h : s.canonical = true) : s.ts.calendar.Pairwise (fun x y => x.1 < y.1) :=
  of_decide_eq_true (Can.start h).cal

/-- A firing touches the timescale in the calendar alone (R28). -/
theorem fireEntry_ts (s : State) (i : Nat) (e : CalEntry) :
    (s.fireEntry i e).ts = { s.ts with calendar := s.calendarAfter i e } := by
  have noted : (s.noteFiring e).ts = s.ts := PartFrame.noteFiring s e .ts (by decide)
  rw [fireEntry_eq]
  unfold State.rearm State.calendarAfter
  by_cases c : e.count = 1 ∨ e.period = 0
  · rw [if_pos c, if_pos c, State.calFree_ts, noted]
  · rw [if_neg c, if_neg c, State.calPut_ts, noted]
    rfl

theorem fireEntry_calendar (s : State) (i : Nat) (e : CalEntry) : (s.fireEntry i e).ts.calendar = s.calendarAfter i e := by
  rw [fireEntry_ts]

/-- The instant of a re-armed entry is a multiple of its period on: one period, or for a SKIPPED firing the least beyond the step
(R28, R43). -/
theorem next_eq (e : CalEntry) (h : e.period ≠ 0) : ∃ n, e.next = e.atNs + e.period * n ∧ 0 < n ∧
    (e.skipAt = none → n = 1) ∧ (∀ t, e.skipAt = some t → t < e.next ∧ (n = 1 ∨ e.next ≤ t + e.period)) := by
  cases k : e.skipAt with
  | none => exact ⟨1, by simp [CalEntry.next, k]⟩
  | some t =>
    by_cases c : t < e.atNs + e.period
    · have next : e.next = e.atNs + e.period := by simp [CalEntry.next, k, c]
      exact ⟨1, by simp [next], one_pos, fun _ => rfl, fun _ e => Option.some.inj e ▸ ⟨next ▸ c, .inl rfl⟩⟩
    · have next : e.next = e.atNs + e.period * ((t - e.atNs) / e.period + 1) := by simp [CalEntry.next, k, c]
      have below := Nat.mul_div_le (t - e.atNs) e.period
      have above := Nat.lt_mul_div_succ (t - e.atNs) (Nat.pos_of_ne_zero h)
      refine ⟨_, next, Nat.succ_pos _, nofun, fun _ e => Option.some.inj e ▸ ?_⟩
      rw [next, Nat.mul_add]
      rw [Nat.mul_add] at above
      omega

/-- Settles O48: the calendar after a firing is `State.calendarAfter`; the re-armed instant is `next_eq`'s. -/
theorem firingRearms : Obligations.FiringRearms := by
  unfold Obligations.FiringRearms
  simp only [fireEntry_calendar, State.calendarAfter]
  refine ⟨fun s i e h _ last => ?_, fun s i e _ _ many period => ?_, fun s i e y _ _ other => ?_⟩
  · rw [if_pos last]
    exact fun x => CellList.ne_of_mem_erase (calendar_rising h)
  · rw [if_neg (by tauto)]
    obtain ⟨n, next, pos, once, skip⟩ := next_eq e period
    exact ⟨_, n, CellList.self_mem_insert _ _ _, rfl, next, pos, once, skip⟩
  · split
    · exact CellList.mem_erase_ne other _
    · exact CellList.mem_insert_ne _ other _

end Sys2Proof.Machine
end

section
/-!
SUPPORT. The registers that reports, journal records and firings write, with the rings' indices below 256.
-/

set_option Elab.async false

namespace Sys2Proof.Machine

/-! ### The registers that reports and journal records write -/

/-- A register of block HIF below its MSI-X table. -/
def InHif (a : Nat) : Prop := 0x4000 ≤ a ∧ a < 0x7800

/-- A register of block GLB or HIF. -/
def InGlbHif (a : Nat) : Prop := a < 0x2000 ∨ InHif a

/-- A ring has an index below 256, so that its POSTED stands in block HIF. -/
theorem inHif_hifRingPosted {n : Nat} (h : n < 256) : InHif (A.hifRingPosted n) := by
  unfold InHif A.hifRingPosted
  omega

theorem inHif_hifEvent : InHif A.hifEvent := ⟨by decide, by decide⟩

theorem lt_of_find_range {n : Nat} {p : Nat → Bool} {i : Nat} (h : (List.range n).find? p = some i) : i < n :=
  List.mem_range.mp (List.mem_of_find?_eq_some h)

theorem RegFrame.evtDropped_hif (s : State) : RegFrame InHif s s.evtDropped := by
  have one : ∀ t : State, RegFrame InHif t ((t.inc A.hifEvtDrop).raiseBit A.hifEvent 4) := fun t =>
    (RegFrame.inc t _ ⟨by decide, by decide⟩ (fun e => absurd e (by decide +kernel))).trans (.raiseBit _ _ _ inHif_hifEvent)
  unfold State.evtDropped
  exact .ite (fun _ => (one s).trans (one _)) (fun _ => one s)

theorem RegFrame.postEvent_hif (s : State) (type flags source stamp : Nat) (body : Bytes) :
    RegFrame InHif s (s.postEvent type flags source stamp body) := by
  unfold State.postEvent
  split
  · exact .evtDropped_hif s
  · rename_i n e
    exact .ite (fun _ => .evtDropped_hif s)
      (fun _ => ((RegFrame.bumpPosted _ _ (inHif_hifRingPosted (lt_of_find_range e))).trans (.pendItem _ _)).before)

theorem RegFrame.blockEvent_hif (s : State) (dest reg : Nat) : RegFrame InHif s (s.blockEvent dest reg) := by
  unfold State.blockEvent
  refine .ite (fun _ => (RegFrame.postEvent_hif _ _ _ _ _ _).before) (fun _ => ?_)
  split
  · exact (RegFrame.sendEventMsg _ _ _ _).before
  · exact .same rfl

theorem RegFrame.noteEvent_hif (s : State) (dest reg : Nat) : RegFrame InHif s (s.noteEvent dest reg) := by
  unfold State.noteEvent
  exact .ite (fun _ => .same rfl) (fun _ => .blockEvent_hif s dest reg)

/-- An event sets its bit and advances SEQ; reporting it writes registers of HIF alone. -/
theorem RegFrame.raise_hif (s : State) (reg b : Nat) : RegFrame InHif (s.raiseBit reg b) (s.raise reg b) := by
  unfold State.raise
  refine .ite (fun _ => .refl _ _) (fun _ => ?_)
  refine .trans (.ite (fun _ => .noteEvent_hif _ _ _) (fun _ => .refl _ _)) (.each _ _ (fun i _ u => ?_) _)
  split
  · exact .ite (fun _ => .noteEvent_hif _ _ _) (fun _ => .refl _ _)
  · exact .refl _ _

/-- An event writes its own register and registers of HIF. -/
theorem RegFrame.raise_of {W : Nat → Prop} (s : State) (reg b : Nat) (r : W reg) (h : ∀ a, InHif a → W a) :
    RegFrame W s (s.raise reg b) := (RegFrame.raiseBit s reg b r).trans ((RegFrame.raise_hif s reg b).mono h)

theorem RegFrame.pumpJournal_hif (s : State) : RegFrame InHif s s.pumpJournal := by
  unfold State.pumpJournal
  split
  · exact .refl _ s
  · rename_i n e
    refine .foldl _ (fun t r => ?_) _ s
    have put := RegFrame.putRecord t n r.bytes (inHif_hifRingPosted (lt_of_find_range e))
    exact .ite (fun _ => .ite (fun _ => put.after) (fun _ => put)) (fun _ => .refl _ t)

/-- A journal record writes registers of GLB and HIF alone. -/
theorem RegFrame.journalize_glbHif (s : State) (kind : Nat) (src : Source) (addr outcome : Nat) (body : Bytes) :
    RegFrame InGlbHif s (s.journalize kind src addr outcome body) := by
  unfold State.journalize
  refine .trans (.trans (.trans (RegFrame.wr _ A.glbJournalSeq _ (.inl (by decide))).before (.ite (fun _ => .refl _ _) (fun _ => ?_)))
    ((RegFrame.pumpJournal_hif _).mono (fun _ => .inr))) (.streamJournal _)
  exact (RegFrame.count _ _ _ (.inl (by decide)) (fun c => absurd c (by decide +kernel))).trans
    (.raise_of _ _ _ (.inl (by decide)) (fun _ => .inr))

/-- The registers that a firing of a calendar entry writes (R28, R29, R43). -/
def FiringWord (a : Nat) : Prop := InHif a ∨ a ∈ [A.tscEvent, A.tscCalUsed, A.tscCalSkipped, A.tscCalLate]

theorem RegFrame.noteFiring (s : State) (e : CalEntry) : RegFrame FiringWord s (s.noteFiring e) := by
  have counted : ∀ (t : State) (c b : Nat), c ∈ [A.tscCalSkipped, A.tscCalLate] → RegFrame FiringWord t ((t.inc c).raise A.tscEvent b) := by
    intro t c b m
    have counter : FiringWord c := .inr (List.mem_cons_of_mem _ (List.mem_cons_of_mem _ m))
    have single : pairRowOf c = none := by rcases List.mem_pair.mp m with rfl | rfl <;> decide +kernel
    exact (RegFrame.inc t c counter (fun k => by simp [single] at k)).trans (.raise_of _ _ _ (.inr (by decide)) (fun _ => .inl))
  have skip : RegFrame FiringWord s (if e.skipAt.isSome then (s.inc A.tscCalSkipped).raise A.tscEvent 7 else s) :=
    .ite (fun _ => counted s _ _ (by decide)) (fun _ => .refl _ s)
  unfold State.noteFiring
  exact .ite (fun _ => skip.trans (counted _ _ _ (by decide))) (fun _ => skip)

theorem RegFrame.calUsed {W : Nat → Prop} (s : State) (h : W A.tscCalUsed) : RegFrame W s s.calUsed :=
  (RegFrame.sfW s _ _ _ _ h).trans (.sfW _ _ _ _ _ h)

theorem RegFrame.rearm {W : Nat → Prop} (s : State) (i : Nat) (e : CalEntry) (h : W A.tscCalUsed) : RegFrame W s (s.rearm i e) := by
  unfold State.rearm
  exact .ite (fun _ => (RegFrame.calUsed _ h).before) (fun _ => (RegFrame.calUsed _ h).before)

theorem RegFrame.fireEntry (s : State) (i : Nat) (e : CalEntry) : RegFrame FiringWord s (s.fireEntry i e) := by
  rw [fireEntry_eq]
  exact (RegFrame.noteFiring s e).trans (.rearm _ i _ (.inr (by decide)))

/-- An operation from a canonical state leaves a register outside `W` as it was. -/
theorem RegFrame.rd_eq {W : Nat → Prop} {s t : State} (f : RegFrame W s t) (h : s.canonical = true) {a : Nat} (n : ¬ W a) :
    t.rd a = s.rd a := (f (regs_of_canonical h)).2 a n

end Sys2Proof.Machine
end

section
/-!
SUPPORT. The frames of the units' operations that the commands of the timescale and the references call.
-/

set_option Elab.async false

namespace Sys2Proof.Machine

/-! ### The parts that the units change -/

theorem PartFrame.hostEventRecord (s : State) (i : Nat) (e : CalEntry) : PartFrame reportParts s (s.hostEventRecord i e) := by
  unfold State.hostEventRecord
  refine .trans (.mono (.postEvent s _ _ _ _ _)) (.each (fun n u => ?_) _ _)
  split
  · exact .ite (.mono (.sendEventMsg _ _ _ _)) (.refl _ u)
  · exact .refl _ u

theorem PartFrame.fireHostEvent (s : State) : PartFrame [.regs, .totals, .celen, .hif, .out, .ts] s s.fireHostEvent := by
  unfold State.fireHostEvent
  split
  · exact .refl _ s
  · exact (PartFrame.hostEventRecord s _ _).andThen (.fireEntry _ _ _)

/-- A firing with its action changes what both change. -/
theorem PartFrame.fireDue {l : List Part} (s : State) (p : CalEntry → Bool) (f : CalEntry → State → State)
    (h : ∀ e t, PartFrame l t (f e t)) (k : [.regs, .totals, .celen, .hif, .out, .ts] ⊆ l := by decide) : PartFrame l s (s.fireDue p f) := by
  unfold State.fireDue
  split
  · exact .refl _ s
  · exact .trans ((PartFrame.fireEntry s _ _).mono k) (h _ _)

theorem PartFrame.setOut (s : State) (k : Nat) (f : Output → Output) : PartFrame [.pwr] s (s.setOut k f) := .pwr s _

theorem PartFrame.setWave (s : State) (k hz : Nat) : PartFrame [.pwr, .out] s (s.setWave k hz) := by
  unfold State.setWave
  exact .ite (.refl _ s) ((PartFrame.setOut s k _).andThen (.emit _ _))

theorem PartFrame.placeEdge (s : State) (k base : Nat) : PartFrame [.pwr, .out, .ts] s (s.placeEdge k base) := by
  have held : ∀ f : Output → Output, PartFrame [.pwr, .out, .ts] s (s.setOut k f) := fun f => .mono (.setOut s k f)
  unfold State.placeEdge
  refine .ite (.ite ?_ (.ite (.ite (held _) ?_) ?_)) (.refl _ s)
  · exact .trans (held _) (.when (.mono (.setWave _ _ _)))
  · exact .step (.step (.step (held _) (.ts _ _)) (.setOut _ k _)) (.emit _ _)
  · exact .step (.step (.step (held _) (.setOut _ k _)) (.setWave _ _ _)) (.emit _ _)

theorem PartFrame.outEdge (s : State) (k : Nat) : PartFrame [.regs, .totals, .celen, .hif, .pwr, .out, .ts] s (s.outEdge k) := by
  unfold State.outEdge
  split
  · exact .refl _ s
  · exact (PartFrame.fireEntry s _ _).andThen (.placeEdge _ _ _)

theorem PartFrame.pulseEnd (s : State) (k : Nat) : PartFrame [.pwr, .out] s (s.pulseEnd k) := by
  unfold State.pulseEnd
  split
  · exact .refl _ s
  · exact .ite ((PartFrame.setOut s k _).andThen (.emit _ _)) (.refl _ s)

/-! Departure slots and samples (R207 to R213, R501 to R503). -/

/-- The parts that the outcome of a sampled request may change. -/
abbrev sampleParts : List Part := [.regs, .totals, .celen, .hif, .tal, .out]

/-- The parts that booking a departure slot may change. -/
abbrev slotParts : List Part := [.regs, .totals, .celen, .hif, .ports, .tal, .out]

theorem PartFrame.setTal (s : State) (f : Tal → Tal) : PartFrame [.tal] s (s.setTal f) := .tal s _

theorem PartFrame.setLink (s : State) (sl : Nat) (f : Link → Link) : PartFrame [.ports] s (s.setLink sl f) := .ports s _

theorem PartFrame.sampleFinal (s : State) (r : Request) (tx : Option (Nat × Nat × Bool)) (cls : Nat) :
    PartFrame sampleParts s (s.sampleFinal r tx cls) := by
  unfold State.sampleFinal
  split
  · exact .refl _ s
  · refine .ite (.refl _ s) (.ite (.mono (.inc s _)) (.ite ((PartFrame.inc s _).andThen (.raise _ _ _)) ?_))
    exact .step (.trans (.step (.mono (.setTal s _)) (.wr _ _ _)) (.when (.mono (.raise _ _ _)))) (.setBit _ _ _ _)

theorem PartFrame.sampleLost (s : State) (r : Option Request) (detail : Nat) : PartFrame sampleParts s (s.sampleLost r detail) := by
  unfold State.sampleLost State.sampleDrop
  split
  · exact .sampleFinal s _ _ _
  · exact .refl _ s

theorem PartFrame.dropResponses (s : State) (sl reg n : Nat) : PartFrame reportParts s (s.dropResponses sl reg n) := by
  unfold State.dropResponses
  exact .ite (.refl _ s) ((PartFrame.count s reg n).andThen (.raise _ _ _))

theorem PartFrame.reslot (s : State) (sl at_ : Nat) : PartFrame slotParts s (s.reslot sl at_) := by
  unfold State.reslot
  split
  · exact .refl _ s
  · dsimp only
    split
    · exact .step (.step (.mono (.setLink s sl _)) (.dropResponses _ _ _ _)) (.sampleLost _ _ _)
    · exact .step (.step (.step (.mono (.setLink s sl _)) (.setLink _ _ _)) (.inc _ _)) (.raise _ _ _)

theorem PartFrame.reslotAll (s : State) (sl : Nat) (p : Slot → Bool) : PartFrame slotParts s (s.reslotAll sl p) :=
  .each (fun _ t => .reslot t sl _) _ s

theorem PartFrame.reserve (s : State) (sl lo n : Nat) (f : Nat → Link → Link) : PartFrame slotParts s (s.reserve sl lo n f).2 := by
  unfold State.reserve
  split
  · exact .refl _ s
  · exact (PartFrame.setLink s sl _).andThen (.reslotAll _ sl _)

theorem PartFrame.bookEvent (s : State) (sl lo : Nat) (answer : Answer) (addr : Addressing) :
    PartFrame slotParts s (s.bookEvent sl lo answer addr) := .reserve s sl lo _ _

/-! The firing of a PTP entry (R259). -/

/-- The parts that a PTP_SYNC round may change. -/
abbrev roundParts : List Part := [.regs, .totals, .celen, .hif, .ports, .ptp, .tal, .out]

theorem PartFrame.nextSeq (s : State) (inst sl mtype : Nat) : PartFrame [.ptp] s (s.nextSeq inst sl mtype).2 := .ptp s _

theorem PartFrame.setCtx (s : State) (k : Nat) (c : PtpCtx) : PartFrame [.ptp] s (s.setCtx k c) := .ptp s _

theorem PartFrame.setSlave (s : State) (n : Nat) (f : PtpSlave → PtpSlave) : PartFrame [.ptp] s (s.setSlave n f) := .ptp s _

theorem PartFrame.sendGeneral (s : State) (sl : Nat) (a : Addressing) (d : Bytes) (counter : Option Nat) :
    PartFrame [.ports] s (s.sendGeneral sl a d counter) := by
  unfold State.sendGeneral
  exact .ite (.setLink s sl _) (.refl _ s)

theorem PartFrame.bookSync (s : State) (i sl lo : Nat) : PartFrame roundParts s (s.bookSync i sl lo) :=
  (PartFrame.nextSeq s i sl 0).andThen (.bookEvent _ _ _ _ _)

theorem PartFrame.bookCtxSync (s : State) (k : Nat) (c : PtpCtx) (lo : Nat) : PartFrame roundParts s (s.bookCtxSync k c lo) :=
  (PartFrame.setCtx s k _).andThen (.bookEvent _ _ _ _ _)

theorem PartFrame.sendAnnounce (s : State) (i sl : Nat) : PartFrame roundParts s (s.sendAnnounce i sl) :=
  (PartFrame.nextSeq s i sl 11).andThen (.sendGeneral _ _ _ _ _)

theorem PartFrame.sendCtxAnnounce (s : State) (k : Nat) (c : PtpCtx) : PartFrame roundParts s (s.sendCtxAnnounce k c) :=
  (PartFrame.setCtx s k _).andThen (.sendGeneral _ _ _ _ _)

theorem PartFrame.syncRound (s : State) (sl : Nat) (l : Int) (lo : Nat) : PartFrame roundParts s (s.syncRound sl l lo) := by
  unfold State.syncRound
  dsimp only
  refine .ite (.refl _ s) (.trans (.trans (.trans (.each (fun _ u => .bookSync u _ _ _) _ s)
    (.each (fun _ u => .bookCtxSync u _ _ _) _ _)) (.each (fun _ u => .sendAnnounce u _ _) _ _)) (.each (fun e u => ?_) _ _))
  split
  · exact .sendCtxAnnounce u _ _
  · exact .refl _ u

theorem PartFrame.slaveRound (s : State) (n lo : Nat) : PartFrame roundParts s (s.slaveRound n lo) := by
  unfold State.slaveRound
  split
  · exact .refl _ s
  · exact .ite (.refl _ s) ((PartFrame.setSlave s n _).andThen (.bookEvent _ _ _ _ _))

theorem PartFrame.ptpSync (s : State) : PartFrame [.regs, .totals, .celen, .hif, .ports, .ptp, .tal, .out, .ts] s s.ptpSync :=
  .fireDue s _ _ (fun _ t => .ite (.mono (.syncRound t _ _ _)) (.mono (.slaveRound t _ _)))

/-! Leap seconds, doorbell polls, key epochs (R50, R328, R243). -/

theorem PartFrame.refreshLeap (s : State) : PartFrame reportParts s s.refreshLeap := by
  unfold State.refreshLeap
  exact .ite (.refl _ s) ((PartFrame.sfW s _ _ _ _).andThen (.raise _ _ _))

theorem PartFrame.fireLeap (s : State) : PartFrame [.regs, .totals, .celen, .hif, .out, .ts] s s.fireLeap :=
  .fireDue s _ _ (fun _ t => .mono (.refreshLeap t))

theorem PartFrame.triggerRead (s : State) : PartFrame [.regs, .totals, .hif, .out] s s.triggerRead := by
  unfold State.triggerRead
  exact .ite (.mono (.hif s _)) (.ite (.step (.step (.mono (.hif s _)) (.inc _ _)) (.emit _ _)) (.refl _ s))

theorem PartFrame.dbPoll (s : State) : PartFrame [.regs, .totals, .celen, .hif, .out, .ts] s s.dbPoll :=
  .fireDue s _ _ (fun _ t => .mono (.triggerRead t))

/-- The parts that a rotation of the NTS keys may change. -/
abbrev rotateParts : List Part := [.regs, .totals, .journal, .celen, .hif, .nts, .out, .fresh]

theorem PartFrame.nextKeyId (s : State) : PartFrame [.fresh] s s.nextKeyId.2 := by
  unfold State.nextKeyId
  split
  · exact .refl _ s
  · exact .fresh s _

theorem PartFrame.newKey (s : State) : PartFrame [.nts, .fresh] s s.newKey :=
  .andThen (.trans (.nextKeyId s) (.fresh _ _)) (.nts _ _)

theorem PartFrame.showKeys (s : State) : PartFrame [.regs, .nts] s s.showKeys :=
  .andThen (.trans (.trans (.sfW s _ _ _ _) (.wr _ _ _)) (.each (fun _ u => .wr u _ _) _ _)) (.nts _ _)

theorem PartFrame.rotateNts (s : State) (src : Source) : PartFrame rotateParts s (s.rotateNts src) := by
  unfold State.rotateNts
  dsimp only
  refine .ite ?_ (.step (.step (.mono (.nts s _)) (.inc _ _)) (.raise _ _ _))
  exact .step (.step (.step (.step (.step (.mono (.nts s _)) (.newKey _)) (.showKeys _)) (.inc _ _)) (.raise _ _ _)) (.journalize _ _ _ _ _ _)

theorem PartFrame.showRotate (s : State) : PartFrame [.regs] s s.showRotate := by
  unfold State.showRotate
  split <;> exact .trans (.wr s _ _) (.wr _ _ _)

theorem PartFrame.ntsEpoch (s : State) :
    PartFrame [.regs, .totals, .journal, .celen, .hif, .nts, .out, .fresh, .ts] s s.ntsEpoch :=
  .fireDue s _ _ (fun _ t => (PartFrame.rotateNts t _).andThen (.showRotate _))

/-! References and ToD (R60, R72, R445). -/

theorem PartFrame.showTimer (s : State) (i : Nat) : PartFrame [.regs] s (s.showTimer i) := .sfW s _ _ _ _

theorem PartFrame.setRef (s : State) (i : Nat) (f : RefIn → RefIn) : PartFrame [.refs] s (s.setRef i f) := .refs s _

theorem PartFrame.loseIndex (s : State) (i : Nat) : PartFrame [.regs, .totals, .celen, .hif, .refs, .out] s (s.loseIndex i) := by
  unfold State.loseIndex
  exact .ite (.refl _ s) (.step (.step (.mono (.setRef s i _)) (.inc _ _)) (.raise _ _ _))

theorem PartFrame.lose (s : State) (i : Nat) : PartFrame [.regs, .totals, .celen, .hif, .refs, .out] s (s.lose i) :=
  .trans (.loseIndex s i) (.each (fun p _ => .when (.loseIndex _ p)) _ _)

theorem PartFrame.contactChange (s : State) (closed : Bool) : PartFrame reportParts s (s.contactChange closed) := by
  have shown : ∀ (t : State) (fault : Bool), PartFrame reportParts s ((s.setBit A.refQcontactState 0 closed).setBit A.refQcontactState 1 fault) :=
    fun _ _ => (PartFrame.setBit s _ _ _).andThen (.setBit _ _ _ _)
  unfold State.contactChange State.showContact
  exact .ite ((shown s _).trans (.raise _ _ _)) (shown s _)

theorem PartFrame.todRx (s : State) (text : Bytes) (framing : Bool) :
    PartFrame [.regs, .totals, .refs, .pwr] s (s.todRx text framing) := by
  unfold State.todRx
  split
  · exact .mono (.inc s _)
  · exact .step (.step (.step (.step (.step (.mono (.inc s _)) (.sfW _ _ _ _ _)) (.pwr _ _)) (.setBit _ _ _ _)) (.refs _ _)) (.setRef _ _ _)

end Sys2Proof.Machine
end

section
/-!
SUPPORT. The frames of register reads, and of the commands of the timescale, the calendar, the references and the register file.
-/

set_option Elab.async false

namespace Sys2Proof.Machine

/-! ### The parts that an access of the register file changes -/

/-- The parts that a read may change: clearing and latching words, the stolen bits, FAULT_SEQ's mark, and what a fault logs. -/
abbrev readParts : List Part := [.regs, .sources, .faultRead, .totals, .journal, .celen, .hif, .ports, .pke, .out]

theorem PartFrame.ite2 {l : List Part} {α : Type} {c : Prop} [Decidable c] {s : State} {t u : α × State} (h : PartFrame l s t.2)
    (k : PartFrame l s u.2) : PartFrame l s (if c then t else u).2 := by split <;> assumption

theorem PartFrame.setView (s : State) (src : Source) (f : SourceView → SourceView) : PartFrame [.sources] s (s.setView src f) :=
  .sources s _

/-- An expired pair is discarded with a GUARD_FAULT (R365). -/
theorem PartFrame.guardTimeout (s : State) (src : Source) :
    PartFrame [.regs, .sources, .totals, .journal, .celen, .hif, .out] s (s.guardTimeout src) := by
  unfold State.guardTimeout
  split
  · exact .refl _ s
  · exact .ite (.step (.mono (.setView s src _)) (.logFault _ _ _ _ _ _ _ _)) (.refl _ s)

theorem PartFrame.snapshot (s : State) : PartFrame [.regs] s s.snapshot :=
  .trans (.trans (.trans (.trans (.trans (.trans (.trans (.wr s _ _) (.wr _ _ _)) (.wr _ _ _)) (.wr _ _ _)) (.wr _ _ _)) (.wr _ _ _))
    (.wr _ _ _)) (.wr _ _ _)

theorem PartFrame.latchResult (s : State) : PartFrame [.regs] s s.latchResult := .each (fun _ t => .wr t _ _) _ s

theorem PartFrame.latchOffset (s : State) (i : Nat) : PartFrame [.regs] s (s.latchOffset i) :=
  .trans (.trans (.wr64 s _ _) (.wr _ _ _)) (.wr _ _ _)

theorem PartFrame.latchTheta (s : State) (a : Nat) : PartFrame [.regs] s (s.latchTheta a) :=
  .trans (.trans (.trans (.trans (.trans (.trans (.wr64 s _ _) (.wr _ _ _)) (.wr _ _ _)) (.wr _ _ _)) (.wr _ _ _)) (.wr _ _ _))
    (.each (fun _ u => .wr u _ _) _ _)

theorem PartFrame.latchLane (s : State) (l : Nat) : PartFrame [.regs] s (s.latchLane l) := by
  unfold State.latchLane
  split
  · exact .refl _ s
  · exact .trans (.trans (.wr s _ _) (.wr _ _ _)) (.wr _ _ _)

/-- A latching read writes registers alone (R23, R99, R158, R430, R431). -/
theorem PartFrame.latchRead (s : State) (a : Nat) : PartFrame [.regs] s (s.latchRead a) := by
  unfold State.latchRead
  exact .ite (.snapshot s) (.ite (.latchResult s) (.ite (.latchOffset s _) (.ite (.latchTheta s 0) (.ite (.latchTheta s 1)
    (.ite (.latchLane s _) (.refl _ s))))))

theorem PartFrame.showCore (s : State) (c : Nat) : PartFrame [.regs] s (s.showCore c) :=
  .trans (.trans (.trans (.wr s _ _) (.wr _ _ _)) (.sfW _ _ _ _ _)) (.sfW _ _ _ _ _)

theorem PartFrame.setCore (s : State) (c : Nat) (f : PkeCore → PkeCore) : PartFrame [.regs, .pke] s (s.setCore c f) :=
  (PartFrame.pke s _).andThen (.showCore _ c)

theorem PartFrame.settleCycles (s : State) (c : Nat) : PartFrame [.regs, .totals, .pke] s (s.settleCycles c) := by
  unfold State.settleCycles
  split
  · exact .refl _ s
  · exact (PartFrame.count s _ _).andThen (.setCore _ c _)

theorem PartFrame.countSeeds (s : State) : PartFrame [.regs, .totals, .pke] s s.countSeeds := (PartFrame.pke s _).andThen (.count _ _ _)

theorem PartFrame.settleHeld (s : State) (sl : Nat) : PartFrame [.regs, .ports] s (s.settleHeld sl) :=
  (PartFrame.setLink s sl _).andThen (.wr _ _ _)

theorem PartFrame.settleCuts (s : State) (sl : Nat) : PartFrame [.regs, .totals, .ports] s (s.settleCuts sl) := by
  unfold State.settleCuts
  split
  · exact .refl _ s
  · exact (PartFrame.count s _ _).andThen (.setLink _ sl _)

/-- A word that shows its unit as it is at the read. -/
theorem PartFrame.refreshRead (s : State) (a : Nat) : PartFrame [.regs, .totals, .ports, .pke] s (s.refreshRead a) := by
  unfold State.refreshRead
  refine .ite (.mono (.wr s _ _)) (.ite (.mono (.setBit s _ _ _)) (.ite (.mono (.setBit s _ _ _)) (.ite (.mono (.countSeeds s))
    (.ite (.mono (.settleCycles s _)) ?_))))
  split
  · exact .refl _ s
  · exact .ite (.refl _ s) (.ite (.mono (.sfW s _ _ _ _)) (.ite (.mono (.settleHeld s _)) (.mono (.settleCuts s _))))

theorem PartFrame.crRead (s : State) (src : Source) (a : Nat) : PartFrame [.regs, .sources] s (s.crRead src a).2 := by
  unfold State.crRead
  split
  · exact .ite2 (.step (.mono (.ite (.trans (.wr s _ _) (.wr _ _ _)) (.wr s _ _))) (.sources _ _)) (.refl _ s)
  · exact .refl _ s

theorem PartFrame.readWord (s : State) (src : Source) (a : Nat) : PartFrame readParts s (s.readWord src a).2 := by
  unfold State.readWord
  refine .ite2 (.mono (.logFault s _ _ _ _ _ _ _)) (.ite2 (.refl _ s) (.ite2 (.refl _ s) (.ite2 (.refl _ s) ?_)))
  split
  · split
    · exact .refl _ s
    · exact .ite2 (.refl _ s) (.mono (.crRead s src a))
    · exact .refl _ s
    · exact .refl _ s
    · exact .ite (.mono (.faultRead s _)) (.refl _ s)
    · exact .refl _ s
  · exact .ite2 (.refl _ s) (.ite2 (.refl _ s) (.ite2 (.refl _ s) (.refl _ s)))

theorem PartFrame.readReg (s : State) (src : Source) (a : Nat) : PartFrame readParts s (s.readReg src a).2 := by
  unfold State.readReg
  exact .ite2 (.trans (.step (.mono (.latchRead s a)) (.refreshRead _ a)) (.readWord _ src a)) (.readWord s src a)

theorem PartFrame.readReg64 (s : State) (src : Source) (a : Nat) : PartFrame readParts s (s.readReg64 src a).2 := by
  unfold State.readReg64
  exact .ite2 (.step (.mono (.refreshRead s a)) (.crRead _ src a)) (.trans (.readReg s src a) (.readReg _ src (a + 4)))

theorem PartFrame.readLane (s : State) (src : Source) (a be : Nat) : PartFrame readParts s (s.readLane src a be).2 := by
  unfold State.readLane State.peek
  exact .ite2 (.readReg s src a) (.ite2 (.ite2 (.mono (.logFault s _ _ _ _ _ _ _)) (.refl _ s)) (.ite2 (.refl _ s)
    (.mono (.logFault s _ _ _ _ _ _ _))))

theorem PartFrame.readLanes (src : Source) : ∀ (l : List Nat) (s : State) (a : Nat), PartFrame readParts s (s.readLanes src a l).2
  | [], s, _ => .refl _ s
  | b :: l, s, a => (PartFrame.readLane s src a b).trans (PartFrame.readLanes src l _ (a + 4))

theorem PartFrame.busReadOf (s : State) (src : Source) (a : Nat) (l : List Nat) : PartFrame readParts s (s.busReadOf src a l).2 := by
  unfold State.busReadOf
  split
  · exact .ite2 (.readReg64 s src a) (.mono (.logFault s _ _ _ _ _ _ _))
  · exact .readLanes src l s a

/-- A read transaction of a source, and what the host reads (R353). -/
theorem PartFrame.busRead (s : State) (src : Source) (a : Nat) (l : List Nat) : PartFrame readParts s (s.busRead src a l) := by
  unfold State.busRead
  exact .ite (.step (.busReadOf s src a l) (.emit _ _)) (.busReadOf s src a l)

/-! ### Commands -/

/-- What a command answers next is its effect after the passage of time; `true` is the check of one that always completes. -/
theorem eq_of_afterIf {c : Bool} {dt : Nat} {s t : State} {f : State → State} (e : afterIf c dt s f = .next t) : t = f (s.advance dt) := by
  unfold afterIf at e
  split at e
  · exact (Host.Outcome.next.inj e).symm
  · cases e

/-- The parts that the effect of a command leaves alone stay as they were since before time passed. -/
theorem changesOnly_of {c : Instr} {l : List Part} (w : Bool) (dt : Nat) (f : State → State)
    (h : ∀ s, exec c s = afterIf w dt s f) (k : ∀ s, PartFrame l s (f s)) : ChangesOnly c l :=
  fun s _ p e n => Part.same_of_eq (p.same_advance s dt) (eq_of_afterIf ((h s).symm.trans e) ▸ k _ p n)

/-- The same from the state `b` in which the firings that come first have been. -/
theorem changesAfter_of {c : Instr} {l : List Part} (w : Bool) (dt : Nat) (b f : State → State)
    (h : ∀ s, exec c s = afterIf w dt s (fun t => f (b t))) (k : ∀ s, PartFrame l s (f s)) :
    ChangesAfter (fun s => b (s.advance dt)) c l :=
  fun _ _ p e n => Part.same_of_eq (p.same_refl _) (eq_of_afterIf ((h _).symm.trans e) ▸ k _ p n)

/-- A full-width read of a source changes what reads may change. -/
theorem changesOnly_busRead {c : Instr} (w : Bool) (dt src a : Nat) (l : List Nat)
    (h : ∀ s, exec c s = afterIf w dt s (fun t => t.busRead (srcOf src) a l)) : ChangesOnly c readParts :=
  changesOnly_of w dt _ h (fun u => .busRead u _ _ _)

/-- A timer of a reference that is over writes TIMER. -/
theorem changesAfter_refTimerOver {c : Instr} (dt i : Nat)
    (h : ∀ s, exec c s = afterIf (decide (i < 14)) dt s (fun t => t.dueFirst.showTimer i)) :
    ChangesAfter (fun s => (s.advance dt).dueFirst) c [.regs] :=
  changesAfter_of _ dt State.dueFirst _ h (fun u => .showTimer u i)

/-- Settles O31: each command's effect is an operation whose frame is one of the lemmas above. -/
theorem timescaleFrames : Obligations.TimescaleFrames := by
  unfold Obligations.TimescaleFrames
  refine ⟨fun dt src addr wide => ?crClearingRead, fun dt src => ?guardTimeout, fun dt src => ?nowSecLoRead, fun dt => ?hostEvent,
    fun dt k => ?outEdge, fun dt k => ?pulseEnd, fun dt => ?ptpSync, fun dt => ?ntsEpoch, fun dt => ?leap, fun dt => ?hifDbPoll,
    fun dt i => ?qualTimeExpire, fun dt i => ?wtrExpire, fun dt i => ?distrustHoldExpire, fun dt => ?prepareEnd,
    fun dt i => ?refLossTimeout, fun dt src i => ?offsetLoRead, fun dt closed => ?qcontactChange, fun dt text framing => ?todSentenceRx⟩
  case crClearingRead => exact changesOnly_busRead (decide (src < 5)) dt src addr _ (fun _ => rfl)
  case nowSecLoRead => exact changesOnly_busRead (decide (src < 5)) dt src _ _ (fun _ => rfl)
  case offsetLoRead => exact changesOnly_busRead (decide (src < 5) && decide (i < 14)) dt src _ _ (fun _ => rfl)
  case guardTimeout =>
    exact changesOnly_of (decide (src < 5)) dt (fun u => u.guardTimeout (srcOf src)) (fun _ => rfl) (fun u => .guardTimeout u _)
  case hostEvent => exact changesAfter_of true dt (fun u => u.inOrder (ofAction 0x01)) State.fireHostEvent (fun _ => rfl) .fireHostEvent
  case outEdge =>
    exact changesAfter_of (decide (k < 6)) dt (fun u => u.inOrder (fun e => decide (e.action = 0x11) && decide (e.target = k)))
      (fun u => u.outEdge k) (fun _ => rfl) (fun u => .outEdge u k)
  case pulseEnd => exact changesOnly_of (decide (k < 4)) dt (fun u => u.pulseEnd k) (fun _ => rfl) (fun u => .pulseEnd u k)
  case ptpSync => exact changesAfter_of true dt (fun u => u.inOrder (ofAction 0x12)) State.ptpSync (fun _ => rfl) .ptpSync
  case ntsEpoch => exact changesAfter_of true dt (fun u => u.inOrder (ofAction 0x15)) State.ntsEpoch (fun _ => rfl) .ntsEpoch
  case leap => exact changesAfter_of true dt (fun u => u.inOrder (ofAction 0x16)) State.fireLeap (fun _ => rfl) .fireLeap
  case hifDbPoll => exact changesAfter_of true dt (fun u => u.inOrder (ofAction 0x18)) State.dbPoll (fun _ => rfl) .dbPoll
  case qualTimeExpire => exact changesAfter_refTimerOver dt i (fun _ => rfl)
  case wtrExpire => exact changesAfter_refTimerOver dt i (fun _ => rfl)
  case distrustHoldExpire => exact changesAfter_refTimerOver dt i (fun _ => rfl)
  case prepareEnd => exact changesAfter_of true dt State.dueFirst id (fun _ => rfl) (.refl _)
  case refLossTimeout =>
    exact changesOnly_of (decide (i < 14)) dt (fun u => u.refLossTimeout i) (fun _ => rfl) (fun u => .when (.lose u i))
  case qcontactChange => exact changesOnly_of true dt (fun u => u.contactChange closed) (fun _ => rfl) (fun u => .contactChange u closed)
  case todSentenceRx => exact changesOnly_of true dt (fun u => u.todRx text framing) (fun _ => rfl) (fun u => .todRx u text framing)

end Sys2Proof.Machine
end

section
/-!
SUPPORT. O32 refuted: the words that the loss of a paired input writes.
-/

set_option Elab.async false

namespace Sys2Proof.Machine

/-- No edge has reached FREQ-IN 6 within its limit, and PPS-IN 2 is paired with it (field [20,4] of its CFG: R64). -/
def pairedLoss : State :=
  { State.reset.wr (A.refInCfg 2) 0x600000 with
    ts := { State.reset.ts with meas := 3000000000 * 2 ^ 48 }
    refs := { State.reset.refs with
      ins := modAt (modAt State.reset.refs.ins 6 (fun r => { r with lost := false })) 2 (fun r => { r with lost := false }) } }

/-- The events of an input are no word of another's loss, nor of a report. -/
theorem refInEvent_notMem_lossWords (k : Nat) : A.refInEvent 2 ∉ [A.refInEvent 6, A.refInLosCount 6] ++ reportWords k := by
  simp only [reportWords, A.refInEvent, A.refInLosCount, A.hifEvent, A.hifEvtDrop, A.hifRingPosted, List.cons_append,
    List.nil_append, List.mem_cons, List.not_mem_nil, or_false]
  omega

/-- Refutes O32: the loss of a FREQ-IN is the loss of the PPS-IN paired with it too (R64, `State.lose`), which sets LOSS in the
paired input's EVENT; the clause of REF_LOSS_TIMEOUT names the words of the input that was lost alone. -/
theorem not_timescaleRegisterFrames : ¬ Obligations.TimescaleRegisterFrames := by
  unfold Obligations.TimescaleRegisterFrames
  rintro ⟨-, -, -, -, -, -, -, -, -, -, -, -, lossWrites, -⟩
  have canonical : pairedLoss.canonical = true := by decide +kernel
  have written : ((pairedLoss.advance 0).refLossTimeout 6).rd (A.refInEvent 2) ≠ pairedLoss.rd (A.refInEvent 2) := by decide +kernel
  exact written (lossWrites 0 6 pairedLoss _ _ canonical rfl refInEvent_notMem_lossWords)

end Sys2Proof.Machine
end

section
/-!
SUPPORT. O59 refuted: the phase error after an applied step.
-/

set_option Elab.async false

namespace Sys2Proof.Machine

/-- The entry of the calendar that carries a module step due at once. -/
def stepEntry : CalEntry := ownEntry 0x1F 0 0 0 1 0

/-- The instant of a scheduled step whose offset still stands as posted, the loop's phase error being 7 ps. -/
def standingStep : State :=
  { (State.reset.wr A.refStatus 0xFF05).wr (A.refInState 5) 3 with
    ts := { State.reset.ts with
      step := some ⟨5000000, 5, false, some 0⟩, measured := some 6000000, calendar := [(3, stepEntry)], phiE := 7 } }

/-- The step as the model takes it, and as O59's last clause writes it, leave different phase errors. -/
theorem standingStep_phiE :
    ((standingStep.advance 0).inOrder (ofAction 0x1F)).tscStep.ts.phiE ≠
      ((((standingStep.advance 0).inOrder (ofAction 0x1F)).fireEntry 3 stepEntry).clearStep.stepNow
        (stepEntry.skipAt.getD stepEntry.atNs) ((6000000 : Int).tdiv 1000) false).ts.phiE := by decide +kernel

/-- Refutes O59: where the step applies, the model also leaves the loop with the fraction of the offset below 1 ns
(`State.settlePhi` in `State.stepDecision`; notes/assumptions/20); the state that the last clause names keeps the phase error of
before. -/
theorem not_scheduledStepInstant : ¬ Obligations.ScheduledStepInstant := by
  unfold Obligations.ScheduledStepInstant
  rintro ⟨-, -, -, -, -, applies⟩
  have canonical : standingStep.canonical = true := by decide +kernel
  have result := applies standingStep _ 0 3 stepEntry ⟨5000000, 5, false, some 0⟩ 6000000 canonical rfl (by decide +kernel) rfl
    (by decide +kernel) (by decide +kernel) (by decide +kernel) (by decide +kernel) (by decide +kernel) (by decide +kernel)
  exact standingStep_phiE (congrArg (fun t : State => t.ts.phiE) (Host.Outcome.next.inj result))

end Sys2Proof.Machine
end

section
/-!
SUPPORT. O7 refuted: a CANCEL that passes its check at the commit and fails it at the boundary.
-/

set_option Elab.async false

namespace Sys2Proof.Machine

/-- An entry of the host's with the action and the target of the sluice's own entries (0x10 and 1), due in 1000 s. -/
def boundaryEntry : CalEntry := { ownEntry 0x10 1 1000000000000 0 1 0 with host := true }

/-- Every power domain is on, the calendar holds `boundaryEntry` alone and no commit waits. -/
def boundaryListed : State :=
  { State.reset.wr A.pwrDomState 0xFFFF with ts := { State.reset.ts with calendar := [(0, boundaryEntry)] } }

/-- The CANCEL of that entry ends REJECTED. -/
theorem boundaryListed_rejects :
    ((boundaryListed.advance 0).dueFirst.groupCommand 0 1 A.tscCalCmd 0 2 2 0 [] 1).f (A.sluGroupStatus 1) 0 3 = 3 := by
  decide +kernel

/-- Refutes O7: CAL_CANCEL is checked again where it reaches its boundary, after `State.sluEntries` has freed the calendar's entries
of action 0x10 and target 1 that no waiting commit asks for. In a canonical state the entry that CANCEL names can be such a one: it
passes the check at the commit and fails it at the boundary. -/
theorem not_calendarCommandsComplete : ¬ Obligations.CalendarCommandsComplete := by
  unfold Obligations.CalendarCommandsComplete
  rintro ⟨-, cancels, -⟩
  have canonical : boundaryListed.canonical = true := by decide +kernel
  have takes : (boundaryListed.advance 0).dueFirst.takesCommit 0 1
      ((boundaryListed.advance 0).dueFirst.commandWords A.tscCalCmd 0 2 2 0) := by decide +kernel
  obtain ⟨t, next, applied, -⟩ := cancels boundaryListed _ 0 0 0 canonical rfl takes
  obtain rfl := Host.Outcome.next.inj next
  exact absurd (boundaryListed_rejects.symm.trans applied) (by decide)

end Sys2Proof.Machine
end

section
/-!
SUPPORT. O5: the TAI - UTC offset in force, and what a firing and the end of a pulse leave.
-/

set_option Elab.async false

namespace Sys2Proof.Machine

/-! ### The TAI - UTC offset in force (R46 to R48) -/

theorem leapEntries_congr {v w : Nat → Word} {base n : Nat} (h : ∀ a, base ≤ a → a < base + 16 * n → v a = w a) :
    leapEntries v base n = leapEntries w base n := by
  have word : ∀ i ∈ List.range n, v (base + 16 * i) = w (base + 16 * i) ∧ v (base + 16 * i + 4) = w (base + 16 * i + 4) ∧
      v (base + 16 * i + 8) = w (base + 16 * i + 8) := by
    intro i m
    have below := List.mem_range.mp m
    exact ⟨h _ (by omega) (by omega), h _ (by omega) (by omega), h _ (by omega) (by omega)⟩
  unfold leapEntries
  rw [List.filter_congr (fun i m => by rw [(word i m).2.2])]
  refine List.map_congr_left (fun i m => ?_)
  obtain ⟨low, high, ctl⟩ := word i (List.mem_of_mem_filter m)
  rw [low, high, ctl]

/-- The offset in force is read in the words of the leap tables and in STEP_CTL. -/
theorem utcOffset_congr {s t : State} (table : ∀ a, 0x10180 ≤ a → a < 0x10400 → t.rd a = s.rd a)
    (ctl : t.rd A.tscStepCtl = s.rd A.tscStepCtl) (sec : Nat) : t.utcOffset sec = s.utcOffset sec := by
  have host : t.hostLeaps = s.hostLeaps := leapEntries_congr (fun a l h => table a (by unfold A.tscLeapTable at l; omega) h)
  have learnt : t.learntLeaps = s.learntLeaps :=
    leapEntries_congr (fun a l h => table a l (by unfold A.tscLeapLearnt at h; omega))
  have followed : t.bit A.tscStepCtl 2 = s.bit A.tscStepCtl 2 := by rw [State.bit, State.bit, ctl]
  rw [State.utcOffset, State.utcOffset, State.usedLeaps, State.usedLeaps, host, learnt, followed]

/-- A firing leaves the offset in force as it was. -/
theorem fireEntry_utcOffset {s : State} (h : s.canonical = true) (i : Nat) (e : CalEntry) (sec : Nat) :
    (s.fireEntry i e).utcOffset sec = s.utcOffset sec := by
  have kept : ∀ a, 0x10010 ≤ a → a < 0x10500 → (s.fireEntry i e).rd a = s.rd a := fun a low high =>
    (RegFrame.fireEntry s i e).rd_eq h (by
      simp only [FiringWord, InHif, A.tscEvent, A.tscCalUsed, A.tscCalSkipped, A.tscCalLate, List.mem_cons, List.not_mem_nil, or_false]
      omega)
  exact utcOffset_congr (fun a low high => kept a (by omega) (by omega)) (kept _ (by decide) (by decide)) sec

/-! ### Canonical states at a command -/

theorem completes_of {c : Instr} {s t : State} {p : State → Prop} (next : exec c s = .next t) (h : p t) : Completes c s p := ⟨t, next, h⟩

theorem advance_canonical {s : State} (h : s.canonical = true) (dt : Nat) : (s.advance dt).canonical = true :=
  (State.advance_can s dt (Can.start h)).canonical

theorem inOrder_canonical {s : State} (h : s.canonical = true) (dt : Nat) (p : CalEntry → Bool) :
    ((s.advance dt).inOrder p).canonical = true := (State.inOrder_can _ p (State.advance_can s dt (Can.start h))).canonical

theorem dueFirst_canonical {s : State} (h : s.canonical = true) (dt : Nat) : (s.advance dt).dueFirst.canonical = true :=
  (State.dueFirst_can _ (State.advance_can s dt (Can.start h))).canonical

theorem fireEntry_canonical {s : State} (h : s.canonical = true) (i : Nat) (e : CalEntry) : (s.fireEntry i e).canonical = true :=
  (State.fireEntry_can s i e (Can.start h)).canonical

theorem fireEntry_nowNs (s : State) (i : Nat) (e : CalEntry) : (s.fireEntry i e).nowNs = s.nowNs := by
  unfold State.nowNs
  rw [fireEntry_ts]

theorem signed_mod (v n : Nat) : signed (v % 2 ^ n) n = signed v n := by
  unfold signed
  rw [Nat.mod_mod]

/-- A 16-bit field read as signed is the 16-bit two's complement of itself. -/
theorem signed_unsigned_signed (v : Nat) : signed (unsigned (signed v 16) 16) 16 = signed v 16 := by
  unfold unsigned signed
  split <;> split <;> omega

theorem sf_sfW (s : State) (a lo n v : Nat) (h : CellList.wf resetOf s.regs = true) (k : lo + n ≤ 32) :
    (s.sfW a lo n v).sf a lo n = signed v n := by
  unfold State.sfW State.sf sfld
  rw [rd_wr _ _ _ _ h, if_pos rfl, fld_putFld _ _ _ _ k, signed_mod]

/-- LEAP_CUR shows the offset in force (R46). -/
theorem refreshLeap_leapCur {s : State} (h : s.canonical = true) :
    s.refreshLeap.sf A.tscLeapCur 0 16 = signed (unsigned (s.utcOffset (s.nowNs / 1000000000)) 16) 16 := by
  unfold State.refreshLeap
  dsimp only
  split
  next shown => rw [← shown]; exact (signed_unsigned_signed _).symm
  next =>
    have raised : ∀ t : State, RegFrame (fun a => a = A.tscEvent ∨ InHif a) t (t.raise A.tscEvent 5) := fun t =>
      .raise_of t _ _ (.inl rfl) (fun _ => .inr)
    have regs := regs_of_canonical h
    unfold State.sf
    rw [(raised _ (CellList.wf_set resetOf _ _ _ regs)).2 A.tscLeapCur (by unfold InHif; decide)]
    exact sf_sfW s _ 0 16 _ regs (by decide)

theorem refreshLeap_ts (s : State) : s.refreshLeap.ts = s.ts := by
  unfold State.refreshLeap
  dsimp only
  split
  · rfl
  · exact PartFrame.raise _ _ _ .ts (by decide)

/-! ### Firings (R28) and the end of a pulse (R26) -/

/-- A due entry fires with its effect. -/
theorem fireDue_of {s : State} {p : CalEntry → Bool} {i : Nat} {e : CalEntry} (due : dueEntry s.ts.calendar s.nowNs p = some (i, e))
    (f : CalEntry → State → State) : s.fireDue p f = f e (s.fireEntry i e) := by
  unfold State.fireDue
  rw [due]

theorem fireHostEvent_of {s : State} {i : Nat} {e : CalEntry}
    (due : dueEntry s.ts.calendar s.nowNs (fun x => decide (x.action = 1)) = some (i, e)) :
    s.fireHostEvent = (s.hostEventRecord i e).fireEntry i e := by
  unfold State.fireHostEvent
  rw [due]

theorem calendarAfter_congr {s t : State} (h : t.ts = s.ts) (i : Nat) (e : CalEntry) : t.calendarAfter i e = s.calendarAfter i e := by
  unfold State.calendarAfter State.isLate
  rw [h]

theorem getD_modAt {α : Type} (f : α → α) (d : α) : ∀ (l : List α) (i : Nat), i < l.length → (modAt l i f).getD i d = f (l.getD i d)
  | _ :: _, 0, _ => rfl
  | _ :: l, i + 1, h => getD_modAt f d l i (Nat.lt_of_succ_lt_succ h)

theorem pulseEnd_of {s : State} {k e : Nat} (running : (s.outUnit k).pulseEnd = some e) (ended : e ≤ s.ts.meas) :
    s.pulseEnd k = (s.setOut k (fun o => { o with pulseEnd := none })).emit (.edge k (s.nowPs : Int) false) := by
  unfold State.pulseEnd
  rw [running]
  exact if_pos ended

/-- An output with a pulse running is one of the module's. -/
theorem lt_of_pulseEnd {s : State} {k e : Nat} (running : (s.outUnit k).pulseEnd = some e) : k < s.pwr.outs.length := by
  by_contra beyond
  rw [State.outUnit, List.getD_eq_default _ _ (by omega)] at running
  cases running

/-- Settles O5: after a firing the calendar is `State.calendarAfter` (`fireEntry_ts`), and no effect of these actions touches it
again. -/
theorem calendarFiringsComplete : Obligations.CalendarFiringsComplete := by
  unfold Obligations.CalendarFiringsComplete
  refine ⟨fun s u dt i e _ eq due => ?hostEvent, fun s u dt i e canonical eq due => ?leap, fun s u dt i e _ eq due => ?hifDbPoll,
    fun s u dt i e _ eq due => ?ntsEpoch, fun s u dt k e _ eq unit running ended => ?pulseEnd⟩
  case hostEvent =>
    refine completes_of (t := u.fireHostEvent) (eq ▸ rfl) ?_
    rw [fireHostEvent_of due, fireEntry_calendar]
    exact calendarAfter_congr (PartFrame.hostEventRecord u i e .ts (by decide)) i e
  case leap =>
    have start : u.canonical = true := eq ▸ inOrder_canonical canonical dt _
    refine completes_of (t := u.fireLeap) (eq ▸ rfl) ?_
    unfold State.fireLeap
    rw [fireDue_of due, refreshLeap_ts, fireEntry_calendar, refreshLeap_leapCur (fireEntry_canonical start i e), fireEntry_nowNs,
      fireEntry_utcOffset start]
    exact ⟨rfl, rfl⟩
  case hifDbPoll =>
    refine completes_of (t := u.dbPoll) (eq ▸ rfl) ?_
    unfold State.dbPoll
    rw [fireDue_of due, PartFrame.triggerRead _ .ts (by decide), fireEntry_calendar]
  case ntsEpoch =>
    refine completes_of (t := u.ntsEpoch) (eq ▸ rfl) ?_
    unfold State.ntsEpoch
    rw [fireDue_of due, PartFrame.showRotate _ .ts (by decide), PartFrame.rotateNts _ _ .ts (by decide), fireEntry_calendar]
  case pulseEnd =>
    refine completes_of (t := u.pulseEnd k) (eq ▸ if_pos (decide_eq_true unit)) ?_
    rw [pulseEnd_of running ended]
    refine ⟨?_, rfl, rfl⟩
    exact congrArg Output.pulseEnd (getD_modAt _ Output.empty _ k (lt_of_pulseEnd running))

end Sys2Proof.Machine
end

section
/-!
SUPPORT. A guarded pair that is taken (R365): what it leaves to its register's action.
-/

set_option Elab.async false

namespace Sys2Proof.Machine

/-! ### Guarded pairs that are taken (R365) -/

theorem length_modAt {α : Type} (f : α → α) : ∀ (l : List α) (i : Nat), (modAt l i f).length = l.length
  | [], _ => rfl
  | _ :: _, 0 => rfl
  | _ :: l, i + 1 => congrArg (· + 1) (length_modAt f l i)

theorem modAt_modAt {α : Type} (f g : α → α) : ∀ (l : List α) (i : Nat), modAt (modAt l i f) i g = modAt l i (fun x => g (f x))
  | [], _ => rfl
  | _ :: _, 0 => rfl
  | x :: l, i + 1 => congrArg (x :: ·) (modAt_modAt f g l i)

theorem srcOf_index {n : Nat} (h : n < 5) : (srcOf n).index = n := by
  by_cases zero : n = 0
  · rw [srcOf, if_pos zero, zero]; rfl
  · rw [srcOf, if_neg zero]
    exact if_pos (by omega)

/-- The view of a source that the state has, after it was changed. -/
theorem view_setView {s : State} {src : Source} (h : src.index < s.sources.length) (f : SourceView → SourceView) :
    (s.setView src f).view src = f (s.view src) := getD_modAt f SourceView.fresh s.sources src.index h

theorem setView_setView (s : State) (src : Source) (f g : SourceView → SourceView) :
    (s.setView src f).setView src g = s.setView src (fun w => g (f w)) := by
  simp only [State.setView, modAt_modAt]

/-- What a taken pair leaves before its register acts: no open pair, the register's value and its journal record. -/
def State.pairTaken (s : State) (src : Source) (x : Nat) (v : Word) : State :=
  ((s.closePair src).wr x v).journalize 2 src x 0 (le 4 v.toNat)

/-- The first write of a pair opens it. -/
theorem gdValue_of {s : State} {src : Source} (x : Nat) (v : Word) (shut : (s.view src).pair = none) :
    (s.countWrite src).gdValue src x v = s.setView src (fun w => { w with pair := some ⟨x, v, s.ts.meas, 0⟩ }) := by
  have kept : s.countWrite src = s := by unfold State.countWrite; rw [shut]
  unfold State.gdValue
  rw [kept, shut]

/-- The second write of a pair, with the complement of the first, closes it and the register takes the value. -/
theorem gdComplement_of {s : State} {src : Source} {x : Nat} {v : Word} {ok : Word → Bool} (act : Word → State → State)
    (here : src.index < s.sources.length) (good : ok v = true) :
    ((s.setView src (fun w => { w with pair := some ⟨x, v, s.ts.meas, 0⟩ })).countWrite src).gdComplement src x (~~~v) ok act =
      act v (s.pairTaken src x v) := by
  have counted : (s.setView src (fun w => { w with pair := some ⟨x, v, s.ts.meas, 0⟩ })).countWrite src =
      s.setView src (fun w => { w with pair := some ⟨x, v, s.ts.meas, 1⟩ }) := by
    unfold State.countWrite
    rw [view_setView here]
    have young : ¬ (OpenPair.expired ⟨x, v, s.ts.meas, 1⟩ s.ts.meas = true) := by simp [OpenPair.expired]
    exact (if_neg young).trans (setView_setView s src _ _)
  unfold State.gdComplement
  rw [counted, view_setView here]
  dsimp only
  rw [if_neg (by simp), if_neg (by simp), if_neg (by simp [good])]
  unfold State.pairTaken State.closePair
  rw [setView_setView]

/-- A taken pair is its register's action (`State.guardAct`) on `State.pairTaken`. -/
theorem guardPair_of {s : State} {src x : Nat} {v c : Word} (h : s.takesPair src x v c) :
    s.guardPair (srcOf src) x v c = (s.pairTaken (srcOf src) x v).guardAct (srcOf src) x v := by
  obtain ⟨⟨known, listed, shut⟩, on, complement, good⟩ := h
  unfold State.guardPair State.guarded
  rw [if_pos on, gdValue_of x v shut, complement]
  exact gdComplement_of _ (by rw [srcOf_index known]; exact listed) good

theorem PartFrame.pairTaken (s : State) (src : Source) (x : Nat) (v : Word) :
    PartFrame (.sources :: journalParts) s (s.pairTaken src x v) :=
  .step (.step (.mono (.setView s src _)) (.wr _ x v)) (.journalize _ _ _ _ _ _)

/-- A taken pair writes its own register and the words of the journal. -/
theorem RegFrame.pairTaken (s : State) (src : Source) (x : Nat) (v : Word) :
    RegFrame (fun a => a = x ∨ InGlbHif a) s (s.pairTaken src x v) :=
  ((RegFrame.wr (s.closePair src) x v (.inl rfl)).before).trans ((RegFrame.journalize_glbHif _ _ _ _ _ _).mono (fun _ => .inr))

theorem pairTaken_rd {s : State} (h : s.canonical = true) (src : Source) {x : Nat} (v : Word) (out : ¬ InGlbHif x) :
    (s.pairTaken src x v).rd x = v := by
  have regs : CellList.wf resetOf (s.closePair src).regs = true := regs_of_canonical h
  exact ((RegFrame.journalize_glbHif _ _ _ _ _ _ (CellList.wf_set resetOf _ _ _ regs)).2 x out).trans
    ((rd_wr _ _ _ _ regs).trans (if_pos rfl))

theorem pairTaken_ts (s : State) (src : Source) (x : Nat) (v : Word) : (s.pairTaken src x v).ts = s.ts :=
  PartFrame.pairTaken s src x v .ts (by decide)

theorem pairTaken_refs (s : State) (src : Source) (x : Nat) (v : Word) : (s.pairTaken src x v).refs = s.refs :=
  PartFrame.pairTaken s src x v .refs (by decide)

/-- A register of the units beyond HIF that the pair does not name. -/
theorem pairTaken_rd_ne {s : State} (h : s.canonical = true) (src : Source) {x a : Nat} (v : Word) (ne : a ≠ x) (out : ¬ InGlbHif a) :
    (s.pairTaken src x v).rd a = s.rd a := (RegFrame.pairTaken s src x v).rd_eq h (by tauto)

end Sys2Proof.Machine
end

section
/-!
SUPPORT. STEP_APPROVE (R38).
-/

set_option Elab.async false

namespace Sys2Proof.Machine

/-! ### STEP_APPROVE (R38) -/

theorem stepVetoed_congr {s t : State} (refs : t.refs = s.refs) (status : t.rd A.refStatus = s.rd A.refStatus)
    (tol : t.rd A.refTolPhase = s.rd A.refTolPhase) : t.stepVetoed = s.stepVetoed := by
  unfold State.stepVetoed State.refIn State.sel State.f
  rw [refs, status, tol]

/-- While no step is withheld an answer is that of `State.answerStep`; a SLEW always is. -/
theorem answerSelected_of {s : State} {v : Word} (free : fld v 8 2 = 1 → s.stepVetoed = false) : s.answerSelected v = s.answerStep v := by
  unfold State.answerSelected
  refine if_neg ?_
  rintro ⟨approve, -, -, vetoed⟩
  exact absurd (free approve) (by simp [vetoed])

theorem answerStep_of {s : State} {v : Word} {p : PostedStep} (posted : s.ts.step = some p) (awaiting : p.awaiting = true)
    (named : fld v 0 8 = s.f A.tscStepSeq 0 8) :
    s.answerStep v = if fld v 8 2 = 1 then s.scheduleStep 100000000 else s.clearStep.slew p.ps := by
  unfold State.answerStep
  rw [posted]
  exact if_pos (by simp [awaiting, named])

theorem scheduleStep_step (s : State) (ahead : Nat) : (s.scheduleStep ahead).ts.step =
    s.ts.step.map (fun p => { p with awaiting := false, atNs := some (s.secondAfter ahead) }) := rfl

theorem secondAfter_congr {s t : State} (h : t.ts = s.ts) (ahead : Nat) : t.secondAfter ahead = s.secondAfter ahead := by
  unfold State.secondAfter State.nowNs
  rw [h]

/-- The word of STEP_APPROVE: SEQ in bits 7:0, ACTION above. -/
theorem fld_stepApprove (seq action : Nat) (h : action < 4) :
    fld (word (seq % 256 + 0x100 * action)) 0 8 = seq % 256 ∧ fld (word (seq % 256 + 0x100 * action)) 8 2 = action := by
  have value : (word (seq % 256 + 0x100 * action)).toNat = seq % 256 + 0x100 * action := by
    rw [word, BitVec.toNat_ofNat]; omega
  unfold fld
  rw [value, Nat.shiftRight_zero, Nat.shiftRight_eq_div_pow]
  omega

theorem guardAct_stepApprove (s : State) (src : Source) (v : Word) : s.guardAct src A.tscStepApprove v = s.answerSelected v := if_pos rfl

/-- A taken STEP_APPROVE is the answer on the state that the pair leaves, with the timescale, SEQ and the veto as before. -/
theorem stepApprove_of {s : State} (h : s.canonical = true) {src : Nat} {v c : Word} {p : PostedStep}
    (taken : s.takesPair src A.tscStepApprove v c) (posted : s.ts.step = some p) (awaiting : p.awaiting = true)
    (named : fld v 0 8 = s.f A.tscStepSeq 0 8) (free : fld v 8 2 = 1 → s.stepVetoed = false) :
    s.guardPair (srcOf src) A.tscStepApprove v c =
      if fld v 8 2 = 1 then (s.pairTaken (srcOf src) A.tscStepApprove v).scheduleStep 100000000
      else (s.pairTaken (srcOf src) A.tscStepApprove v).clearStep.slew p.ps := by
  have kept : ∀ a ∈ [A.refStatus, A.refTolPhase, A.tscStepSeq], (s.pairTaken (srcOf src) A.tscStepApprove v).rd a = s.rd a := by
    intro a m
    refine pairTaken_rd_ne h (srcOf src) v ?_ ?_
    · revert a; decide
    · unfold InGlbHif InHif; revert a; decide
  have vetoed := stepVetoed_congr (pairTaken_refs s (srcOf src) A.tscStepApprove v) (kept A.refStatus (by decide))
    (kept A.refTolPhase (by decide))
  have seq : (s.pairTaken (srcOf src) A.tscStepApprove v).f A.tscStepSeq 0 8 = s.f A.tscStepSeq 0 8 := by
    rw [State.f, State.f, kept A.tscStepSeq (by decide)]
  rw [guardPair_of taken, guardAct_stepApprove, answerSelected_of (fun approve => vetoed.trans (free approve)),
    answerStep_of ((congrArg Timescale.step (pairTaken_ts _ _ _ _)).trans posted) awaiting (named.trans seq.symm)]

end Sys2Proof.Machine
end

section
/-!
SUPPORT. O4: CLEAR_DISTRUST (R77), FORCE (R95) and STEP_APPROVE (R38).
-/

set_option Elab.async false

namespace Sys2Proof.Machine

/-! ### Fields that an operation keeps -/

/-- A sound register file stays sound, and the field of `n` bits from `lo` of register `a` as it was. -/
def FieldKept (a lo n : Nat) (s t : State) : Prop :=
  CellList.wf resetOf s.regs = true → CellList.wf resetOf t.regs = true ∧ t.f a lo n = s.f a lo n

theorem FieldKept.trans {a lo n : Nat} {s t u : State} (h : FieldKept a lo n s t) (k : FieldKept a lo n t u) : FieldKept a lo n s u :=
  fun c => ⟨(k (h c).1).1, ((k (h c).1).2).trans (h c).2⟩

theorem FieldKept.of_regFrame {W : Nat → Prop} {a lo n : Nat} {s t : State} (h : RegFrame W s t) (out : ¬ W a) : FieldKept a lo n s t :=
  fun c => ⟨(h c).1, congrArg (fun w => fld w lo n) ((h c).2 a out)⟩

theorem FieldKept.setBit {a lo n : Nat} (s : State) (i : Nat) (b : Bool) (k : lo + n ≤ 32) (d : lo + n ≤ i ∨ i + 1 ≤ lo) :
    FieldKept a lo n s (s.setBit a i b) := fun c => ⟨CellList.wf_set resetOf s.regs _ _ c, by
  unfold State.setBit
  rw [f_sfW _ _ _ _ _ _ _ c, fld_putFld_apart _ _ _ _ _ _ k d]
  rfl⟩

/-! ### CLEAR_DISTRUST (R77) -/

/-- What follows a change of a reference's state writes no field of QSTATE. -/
theorem FieldKept.setQ {s : State} {i q : Nat} (stat which : Nat) (new : s.qstate i ≠ q) :
    FieldKept (A.refInState i) 0 3 (s.sfW (A.refInState i) 0 3 q) (s.setQ i q stat which) := by
  have cusum : ∀ t : State, RegFrame (fun a => a = A.refInCusumP i ∨ a = A.refInCusumF i) t
      (if q ≤ 1 then (t.wr (A.refInCusumP i) 0).wr (A.refInCusumF i) 0 else t) := fun t =>
    .ite (fun _ => (RegFrame.wr t _ _ (.inl rfl)).trans (.wr _ _ _ (.inr rfl))) (fun _ => .refl _ t)
  have voter : ∀ t : State, FieldKept (A.refInState i) 0 3 t (t.showVoter i) := fun t => .setBit t 17 _ (by decide) (.inl (by decide))
  have counted : ∀ t : State, RegFrame (fun a => a = A.refStatus ∨ a = A.refInEvent i ∨ InGlbHif a) t
      ((t.showQual).raise (A.refInEvent i) 0) := fun t =>
    (RegFrame.sfW t _ _ _ _ (.inl rfl)).trans (.raise_of _ _ _ (.inr (.inl rfl)) (fun _ k => .inr (.inr (.inr k))))
  unfold State.setQ
  dsimp only
  rw [if_neg new]
  refine .trans (.trans (.trans (.of_regFrame ((cusum _).before) ?_) (voter _)) (.of_regFrame (counted _) ?_))
    (.of_regFrame (.journalize_glbHif _ _ _ _ _ _) ?_)
  all_goals
    unfold A.refInState
    simp only [InGlbHif, InHif, A.refInCusumP, A.refInCusumF, A.refInEvent, A.refStatus]
    omega

/-- A reference that changes its state is in it. -/
theorem qstate_setQ {s : State} (h : CellList.wf resetOf s.regs = true) {i q : Nat} (stat which : Nat) (small : q < 8)
    (new : s.qstate i ≠ q) :
    CellList.wf resetOf (s.setQ i q stat which).regs = true ∧ (s.setQ i q stat which).qstate i = q := by
  obtain ⟨regs, kept⟩ := FieldKept.setQ stat which new (CellList.wf_set resetOf s.regs _ _ h)
  refine ⟨regs, kept.trans ?_⟩
  rw [f_sfW _ _ _ _ _ _ _ h, fld_putFld _ _ _ _ (by decide), Nat.mod_eq_of_lt (show q < 2 ^ 3 from small)]

/-- A reference that is released from DISTRUSTED is CANDIDATE. -/
theorem clearDistrust_qstate {s : State} (h : CellList.wf resetOf s.regs = true) {i : Nat} (known : i < 13) (distrusted : s.qstate i = 5) :
    (s.clearDistrust i).qstate i = 1 := by
  have timer : ∀ t : State, ∀ n, RegFrame (fun a => a = A.refInTimer i) t (t.startTimer i n) := fun t n =>
    (RegFrame.sfW (W := fun a => a = A.refInTimer i) _ _ _ _ _ rfl).before (s' := t.setRef i _)
  obtain ⟨regs, candidate⟩ := qstate_setQ h (i := i) (q := 1) 0 0 (by decide) (by rw [distrusted]; decide)
  unfold State.clearDistrust State.toCandidate
  rw [if_pos ⟨known, distrusted⟩]
  refine (FieldKept.of_regFrame (timer _ _) ?_ regs).2.trans candidate
  unfold A.refInState A.refInTimer
  omega

theorem guardAct_refForce (s : State) (src : Source) (v : Word) : s.guardAct src A.refForce v = s := rfl

theorem guardAct_clearDistrust (s : State) (src : Source) (v : Word) :
    s.guardAct src A.refClearDistrust v = s.clearDistrust v.toNat := rfl

/-- A guarded register's command is its pair in the state in which the entries due have fired. -/
theorem completes_guarded {c : Instr} {s u : State} {dt src x : Nat} {v w : Word} {p : State → Prop}
    (command : exec c s = afterIf (decide (src < 5)) dt s (fun t => t.guardedCmd src x v w)) (eq : u = (s.advance dt).dueFirst)
    (taken : u.takesPair src x v w) (h : p (u.guardPair (srcOf src) x v w)) : Completes c s p :=
  completes_of (command.trans ((if_pos (decide_eq_true taken.1.1)).trans (by rw [eq]; rfl))) h

/-- Settles O4: a taken pair is `State.guardAct` on `State.pairTaken`, which keeps the timescale, the references and their registers. -/
theorem stepAndForceAnswersComplete : Obligations.StepAndForceAnswersComplete := by
  unfold Obligations.StepAndForceAnswersComplete
  refine ⟨fun s u dt src seq c p canonical eq taken posted awaiting named free => ?approve,
    fun s u dt src seq c p canonical eq taken posted awaiting named => ?slew,
    fun s u dt src v c canonical eq taken => ?force, fun s u dt src i c canonical eq taken known distrusted => ?release⟩
  all_goals
    have start : u.canonical = true := eq ▸ dueFirst_canonical canonical dt
    refine completes_guarded rfl eq taken ?_
  case approve =>
    obtain ⟨seqField, action⟩ := fld_stepApprove seq 1 (by decide)
    rw [stepApprove_of start taken posted awaiting (seqField.trans named) (fun _ => free), if_pos action, scheduleStep_step,
      pairTaken_ts, posted, secondAfter_congr (pairTaken_ts _ _ _ _)]
    rfl
  case slew =>
    obtain ⟨seqField, action⟩ := fld_stepApprove seq 2 (by decide)
    have slews : fld (word (seq % 256 + 0x200)) 8 2 ≠ 1 := by rw [action]; decide
    rw [stepApprove_of start taken posted awaiting (seqField.trans named) (fun approve => absurd approve slews), if_neg slews]
    exact ⟨rfl, rfl⟩
  case force =>
    rw [guardPair_of taken, guardAct_refForce]
    exact pairTaken_rd start _ v (by unfold InGlbHif InHif; decide)
  case release =>
    have index : (word i).toNat = i := by rw [word, BitVec.toNat_ofNat]; omega
    have regs := (RegFrame.pairTaken u (srcOf src) A.refClearDistrust (word i) (regs_of_canonical start)).1
    rw [guardPair_of taken, guardAct_clearDistrust, index]
    refine clearDistrust_qstate regs known (Eq.trans ?_ distrusted)
    have kept := pairTaken_rd_ne start (srcOf src) (x := A.refClearDistrust) (a := A.refInState i) (word i)
      (by unfold A.refInState A.refClearDistrust; omega) (by unfold InGlbHif InHif A.refInState; omega)
    rw [State.qstate, State.qstate, State.f, State.f, kept]

end Sys2Proof.Machine
end

section
/-!
SUPPORT. Runs of register writes, and reads of words that stand as their registers are.
-/

set_option Elab.async false

namespace Sys2Proof.Machine

/-! ### A run of register writes -/

/-- Registers written one after the other. -/
def State.wrAll (s : State) (l : List (Nat × Word)) : State := l.foldl (fun t e => t.wr e.1 e.2) s

theorem rd_wrAll_ne {s : State} (h : CellList.wf resetOf s.regs = true) {a : Nat} {l : List (Nat × Word)} (n : a ∉ l.map Prod.fst) :
    (s.wrAll l).rd a = s.rd a := by
  induction l generalizing s with
  | nil => rfl
  | cons e l ih =>
    obtain ⟨first, rest⟩ := not_or.mp (fun c => n (List.mem_cons.mpr c))
    exact (ih (s := s.wr e.1 e.2) (CellList.wf_set resetOf _ _ _ h) rest).trans ((rd_wr _ _ _ _ h).trans (if_neg first))

/-- Of registers that are written once each, every one holds its word. -/
theorem rd_wrAll {s : State} (h : CellList.wf resetOf s.regs = true) {a : Nat} {v : Word} {l : List (Nat × Word)}
    (once : (l.map Prod.fst).Nodup) (m : (a, v) ∈ l) : (s.wrAll l).rd a = v := by
  induction l generalizing s with
  | nil => cases m
  | cons e l ih =>
    obtain ⟨first, rest⟩ := List.nodup_cons.mp once
    have regs : CellList.wf resetOf (s.wr e.1 e.2).regs = true := CellList.wf_set resetOf _ _ _ h
    rcases List.mem_cons.mp m with rfl | m
    · exact (rd_wrAll_ne regs first).trans ((rd_wr _ _ _ _ h).trans (if_pos rfl))
    · exact ih regs rest m

/-! ### Reads of latching words (R23, R99, R158, R430, R431) -/

/-- A read of the word shows its unit as it is at the read (`State.refreshRead`). -/
def refreshes (a : Nat) : Bool :=
  decide (A.tscCalRead 0 ≤ a ∧ a ≤ A.tscCalRead 7) || [A.pwrIoStatus, A.ttuStatus, A.pkeSeeds, A.pkeSeeds + 4].contains a ||
    decide (A.pkeCoreCycles 0 ≤ a ∧ a ≤ A.pkeCoreCycles 15 + 4 ∧ (a - A.pkeCoreCycles 0) % 0x400 < 8) ||
    (List.range 8).any (fun sl => [A.macLinkBufOcc sl, A.macLinkPauseHeld sl, A.macLinkFragTx sl].contains a)

theorem refreshRead_eq {a : Nat} (h : refreshes a = false) (s : State) : s.refreshRead a = s := by
  simp only [refreshes, Bool.or_eq_false_iff, decide_eq_false_iff_not, List.contains_eq_mem, List.mem_cons, List.not_mem_nil, or_false,
    not_or, List.any_eq_false] at h
  obtain ⟨⟨⟨cal, io, ttu, seeds, seedsHi⟩, cycles⟩, links⟩ := h
  have noLink : (List.range 8).find? (fun sl => [A.macLinkBufOcc sl, A.macLinkPauseHeld sl, A.macLinkFragTx sl].contains a) = none :=
    List.find?_eq_none.mpr (fun x m => by simpa using links x m)
  unfold State.refreshRead
  rw [if_neg cal, if_neg io, if_neg ttu, if_neg (by tauto), if_neg cycles, noLink]

/-- A word whose value is its register as it stands: a read-only row, with nothing of the source's view. -/
def readsAsStored (a : Nat) : Bool :=
  (rowOf a).any (fun r => decide (r.kind = .ro)) && !([A.sluView, A.talStolen0, A.talStolen1, A.glbFaultSeq].contains a) && !(refreshes a)

/-- A full-width read of such a word in a domain that is on leaves what the latch leaves. -/
theorem readReg_latch {s : State} {a : Nat} (stored : readsAsStored a = true) (on : s.domainOn (domainOf a) = true)
    (still : (s.latchRead a).domainOn (domainOf a) = true) (src : Source) : (s.readReg src a).2 = s.latchRead a := by
  simp only [readsAsStored, Bool.and_eq_true, Bool.not_eq_true', List.contains_eq_mem, decide_eq_false_iff_not, List.mem_cons,
    List.not_mem_nil, or_false, not_or, Option.any_eq_true, decide_eq_true_eq] at stored
  obtain ⟨⟨⟨r, row, kind⟩, view, low, high, fault⟩, plain⟩ := stored
  unfold State.readReg
  rw [if_pos on, refreshRead_eq plain]
  unfold State.readWord
  rw [if_neg (by simp [still]), if_neg view, if_neg low, if_neg high, row]
  dsimp only
  rw [kind]
  exact if_neg (fun c => fault c.1)

/-- What the host reads leaves the module; every register is as the latch leaves it. -/
theorem busRead_latch {s : State} {a : Nat} (stored : readsAsStored a = true) (on : s.domainOn (domainOf a) = true)
    (still : (s.latchRead a).domainOn (domainOf a) = true) (src : Source) (b : Nat) :
    (s.busRead src a [15]).rd b = (s.latchRead a).rd b := by
  have lane : (s.busReadOf src a [15]).2 = s.latchRead a := readReg_latch stored on still src
  unfold State.busRead
  dsimp only
  split
  · rw [lane]; rfl
  · rw [lane]

end Sys2Proof.Machine
end

section
/-!
SUPPORT. The words that each latching read writes (R23, R99, R158, R430, R431).
-/

set_option Elab.async false

namespace Sys2Proof.Machine

/-- The words of the timescale that a read of NOW_SEC_LO latches (R23). -/
def State.snapWords (s : State) : List (Nat × Word) :=
  let v := tai96 s.stamp
  [(A.tscNowSecLo, word (v >>> 48)), (A.tscNowSecHi, word (v >>> 80)), (A.tscNowNs, word (v >>> 16)),
    (A.tscNowFrac, word (v % 65536)), (A.tscSnapState, s.rd A.tscState), (A.tscSnapRadius, word s.ts.rho),
    (A.tscSnapPhase, sat32 s.ts.phiE), (A.tscSnapSlew, sat32 (s.ts.slewRem / 65536))]

/-- The words of a reference that a read of its OFFSET_LO latches (R99). -/
def State.offsetWords (s : State) (i : Nat) : List (Nat × Word) :=
  let r := s.refIn i
  [(A.refInOffsetLo i, word (unsigned (r.last.getD 0) 64)), (A.refInOffsetLo i + 4, word (unsigned (r.last.getD 0) 64 >>> 32)),
    (A.refInResid i, match r.resid with
      | some x => sat32 x
      | none => 0x80000000),
    (A.refInFresid i, match r.fres with
      | some x => sat32 x
      | none => 0x80000000)]

/-- The word of the satellites and the constellations that a side excludes. -/
def GnssSide.exclWord (x : GnssSide) : Word :=
  word (min (x.excl.filter (fun e => !e.const)).length 255 + (List.range 5).foldl (fun n i => n + b2n (x.excluded true i) * 2 ^ (8 + i)) 0)

/-- The words of a GNSS side that a read of its THETA_LO latches (R158). -/
def State.thetaWords (s : State) (a : Nat) : List (Nat × Word) :=
  let x := s.side a
  [(A.gnsSideThetaLo a, word (unsigned x.theta 64)), (A.gnsSideThetaLo a + 4, word (unsigned x.theta 64 >>> 32)),
    (A.gnsSideBound a, satU32 x.bound), (A.gnsSideTdop a, word (min x.tdop 65535)), (A.gnsSideSvUsed a, word x.svUsed),
    (A.gnsSideAlarm a, word x.alarms), (A.gnsSideExcl a, x.exclWord)] ++
  [0, 1, 2, 3].map (fun j => (A.gnsSideIntersys a j, match x.intersys.getD j none with
    | some v => sat32 v
    | none => 0x80000000))

/-- The words of a Peorel lane that a read of its THETA_LO latches (R430). -/
def laneWords (l : Nat) (theta delta : Int) (n : Nat) : List (Nat × Word) :=
  [(A.cmacLaneThetaHi l, word (unsigned theta 64 / 2 ^ 32)), (A.cmacLaneDelta l, if n = 0 then 0xFFFFFFFF else satU32 delta.toNat),
    (A.cmacLanePairs l, word (min n 64))]

/-- The words of the last answer that a read of OP_RESULT0 latches (R431). -/
def State.resultWords (s : State) : List (Nat × Word) := (List.range 12).map (fun i => (A.casOpResult i, s.cas.result.getD i 0))

theorem latchRead_nowSecLo (s : State) : s.latchRead A.tscNowSecLo = s.wrAll s.snapWords := rfl

theorem latchRead_opResult (s : State) : s.latchRead (A.casOpResult 0) = s.wrAll s.resultWords := rfl

theorem latchRead_offsetLo (s : State) {i : Nat} (h : i < 14) : s.latchRead (A.refInOffsetLo i) = s.wrAll (s.offsetWords i) := by
  have page : (A.refInOffsetLo i - A.refInOffsetLo 0) / 0x100 = i := by unfold A.refInOffsetLo; omega
  have one : (List.range 14).any (fun j => decide (A.refInOffsetLo i = A.refInOffsetLo j)) = true :=
    List.any_eq_true.mpr ⟨i, List.mem_range.mpr h, decide_eq_true rfl⟩
  unfold State.latchRead
  rw [if_neg (by unfold A.refInOffsetLo A.tscNowSecLo; omega), if_neg (by unfold A.refInOffsetLo A.casOpResult; omega), if_pos one, page]
  rfl

theorem latchRead_thetaLo (s : State) {a : Nat} (h : a < 2) : s.latchRead (A.gnsSideThetaLo a) = s.wrAll (s.thetaWords a) := by
  interval_cases a <;> rfl

theorem latchRead_laneThetaLo {s : State} {l n : Nat} {theta delta : Int} (h : l < 8) (measured : (s.lane l).meas = some (theta, delta, n)) :
    s.latchRead (A.cmacLaneThetaLo l) = s.wrAll (laneWords l theta delta n) := by
  have latch : s.latchRead (A.cmacLaneThetaLo l) = s.latchLane l := by interval_cases l <;> rfl
  rw [latch, State.latchLane, measured]
  rfl

/-! Each of these words is written once, and none is DOM_STATE. -/

theorem snapWords_once (s : State) : (s.snapWords.map Prod.fst).Nodup ∧ A.pwrDomState ∉ s.snapWords.map Prod.fst := by
  simp only [State.snapWords, List.map_cons, List.map_nil]
  decide

theorem offsetWords_once (s : State) {i : Nat} (h : i < 14) :
    ((s.offsetWords i).map Prod.fst).Nodup ∧ A.pwrDomState ∉ (s.offsetWords i).map Prod.fst := by
  simp only [State.offsetWords, List.map_cons, List.map_nil]
  revert i
  decide

theorem thetaWords_once (s : State) {a : Nat} (h : a < 2) :
    ((s.thetaWords a).map Prod.fst).Nodup ∧ A.pwrDomState ∉ (s.thetaWords a).map Prod.fst := by
  simp only [State.thetaWords, List.map_cons, List.map_nil, List.cons_append, List.nil_append]
  revert a
  decide

theorem laneWords_once (l n : Nat) (theta delta : Int) (h : l < 8) :
    ((laneWords l theta delta n).map Prod.fst).Nodup ∧ A.pwrDomState ∉ (laneWords l theta delta n).map Prod.fst := by
  simp only [laneWords, List.map_cons, List.map_nil]
  revert l
  decide

theorem resultWords_once (s : State) : (s.resultWords.map Prod.fst).Nodup ∧ A.pwrDomState ∉ s.resultWords.map Prod.fst := by
  have addresses : s.resultWords.map Prod.fst = (List.range 12).map A.casOpResult := by
    simp only [State.resultWords, List.map_map]
    rfl
  rw [addresses]
  decide

/-- The number of satellites excluded stands in the low byte of EXCL, the constellations above it. -/
theorem fld_exclWord (x : GnssSide) : fld x.exclWord 0 8 = min (x.excl.filter (fun e => !e.const)).length 255 := by
  have shifted : (List.range 5).foldl (fun n i => n + b2n (x.excluded true i) * 2 ^ (8 + i)) 0 =
      256 * (b2n (x.excluded true 0) + 2 * b2n (x.excluded true 1) + 4 * b2n (x.excluded true 2) + 8 * b2n (x.excluded true 3) +
        16 * b2n (x.excluded true 4)) := by
    simp only [List.range, List.range.loop, List.foldl_cons, List.foldl_nil]
    ring
  unfold fld GnssSide.exclWord
  rw [shifted, word, BitVec.toNat_ofNat, Nat.shiftRight_zero]
  omega

/-- A latching read completes with the words `l` in their registers, and leaves the timescale as it is. -/
theorem completes_latch {c : Instr} {s u : State} {w : Bool} {dt src a : Nat} {l : List (Nat × Word)} {p : State → Prop}
    (command : exec c s = afterIf w dt s (fun t => t.busRead (srcOf src) a [15])) (known : w = true) (canonical : s.canonical = true)
    (eq : u = s.advance dt) (stored : readsAsStored a = true) (on : u.domainOn (domainOf a) = true)
    (latch : u.latchRead a = u.wrAll l) (once : (l.map Prod.fst).Nodup ∧ A.pwrDomState ∉ l.map Prod.fst)
    (h : ∀ t : State, (∀ e ∈ l, t.rd e.1 = e.2) → t.ts = u.ts → p t) : Completes c s p := by
  have regs : CellList.wf resetOf u.regs = true := regs_of_canonical (eq ▸ advance_canonical canonical dt)
  have still : (u.latchRead a).domainOn (domainOf a) = true := by
    unfold State.domainOn State.bit at on ⊢
    rw [latch, rd_wrAll_ne regs once.2]
    exact on
  refine completes_of (t := u.busRead (srcOf src) a [15]) (command.trans ((if_pos known).trans (by rw [eq]))) (h _ ?_ ?_)
  · intro e m
    rw [busRead_latch stored on still, latch]
    exact rd_wrAll regs once.1 m
  · exact PartFrame.busRead u _ _ _ .ts (by decide)

end Sys2Proof.Machine
end

section
/-!
SUPPORT. O3: the latching reads.
-/

set_option Elab.async false

namespace Sys2Proof.Machine

/-! ### The latching words stand as they are, in their blocks' domains -/

theorem stored_nowSecLo : readsAsStored A.tscNowSecLo = true ∧ domainOf A.tscNowSecLo = 7 := by decide +kernel

theorem stored_opResult : readsAsStored (A.casOpResult 0) = true ∧ domainOf (A.casOpResult 0) = 13 := by decide +kernel

theorem stored_offsetLo : ∀ i < 14, readsAsStored (A.refInOffsetLo i) = true ∧ domainOf (A.refInOffsetLo i) = 7 := by decide +kernel

theorem stored_thetaLo : ∀ a < 2, readsAsStored (A.gnsSideThetaLo a) = true ∧ domainOf (A.gnsSideThetaLo a) = 5 := by decide +kernel

theorem stored_laneThetaLo : ∀ l < 8, readsAsStored (A.cmacLaneThetaLo l) = true ∧ domainOf (A.cmacLaneThetaLo l) = 13 := by
  decide +kernel

/-- Settles O3: each read is its latch (`busRead_latch`), and a latch writes each of its words once. -/
theorem latchingReadsComplete : Obligations.LatchingReadsComplete := by
  unfold Obligations.LatchingReadsComplete
  refine ⟨fun s u dt src canonical eq known on => ?now, fun s u dt src i canonical eq known reference on => ?offset,
    fun s u dt src a canonical eq known side on => ?theta,
    fun s u dt src l n theta delta canonical eq known lane on measured => ?lane, fun s u dt src canonical eq known on => ?result⟩
  case now =>
    obtain ⟨stored, domain⟩ := stored_nowSecLo
    refine completes_latch rfl (decide_eq_true known) canonical eq stored (by rw [domain]; exact on) (latchRead_nowSecLo u)
      (snapWords_once u) (fun t words ts => ?_)
    simp only [State.snapWords, List.forall_mem_cons] at words
    obtain ⟨secLo, secHi, ns, frac, state, radius, phase, slew, -⟩ := words
    exact ⟨secLo, secHi, ns, frac, state, radius, phase, slew, ts⟩
  case offset =>
    obtain ⟨stored, domain⟩ := stored_offsetLo i reference
    refine completes_latch rfl (by simp [known, reference]) canonical eq stored (by rw [domain]; exact on)
      (latchRead_offsetLo u reference) (offsetWords_once u reference) (fun t words _ => ?_)
    simp only [State.offsetWords, List.forall_mem_cons] at words
    obtain ⟨low, high, resid, fresid, -⟩ := words
    exact ⟨low, high, resid, fresid⟩
  case theta =>
    obtain ⟨stored, domain⟩ := stored_thetaLo a side
    refine completes_latch rfl (by simp [known, side]) canonical eq stored (by rw [domain]; exact on)
      (latchRead_thetaLo u side) (thetaWords_once u side) (fun t words _ => ?_)
    simp only [State.thetaWords, List.forall_mem_append, List.forall_mem_cons] at words
    obtain ⟨⟨low, high, bound, tdop, used, alarm, excl, -⟩, intersys⟩ := words
    refine ⟨low, high, bound, tdop, used, alarm, ?_, fun j small => ?_⟩
    · rw [State.f, excl, fld_exclWord]
    · exact intersys _ (List.mem_map_of_mem (List.mem_range (n := 4).mpr small))
  case lane =>
    obtain ⟨stored, domain⟩ := stored_laneThetaLo l lane
    refine completes_latch rfl (by simp [known, lane]) canonical eq stored (by rw [domain]; exact on)
      (latchRead_laneThetaLo lane measured) (laneWords_once l n theta delta lane) (fun t words _ => ?_)
    simp only [laneWords, List.forall_mem_cons] at words
    obtain ⟨high, difference, pairs, -⟩ := words
    exact ⟨high, difference, pairs⟩
  case result =>
    obtain ⟨stored, domain⟩ := stored_opResult
    refine completes_latch rfl (decide_eq_true known) canonical eq stored (by rw [domain]; exact on) (latchRead_opResult u)
      (resultWords_once u) (fun t words _ i small => ?_)
    exact words _ (List.mem_map_of_mem (List.mem_range.mpr small))

end Sys2Proof.Machine
end

section
/-!
SUPPORT. Fields, event bits and counters after one operation, and the reference inputs after a change of one.
-/

set_option Elab.async false

namespace Sys2Proof.Machine

/-! ### Fields that an operation keeps, event bits and counters -/

/-- A write of a field apart from the one that is kept. -/
theorem FieldKept.sfW {a lo n : Nat} (s : State) (l m v : Nat) (k : lo + n ≤ 32) (d : lo + n ≤ l ∨ l + m ≤ lo) :
    FieldKept a lo n s (s.sfW a l m v) :=
  fun c => ⟨CellList.wf_set resetOf s.regs _ _ c, (f_sfW _ _ _ _ _ _ _ c).trans (fld_putFld_apart _ _ _ _ _ _ k d)⟩

theorem FieldKept.refl (a lo n : Nat) (s : State) : FieldKept a lo n s s := fun c => ⟨c, rfl⟩

theorem FieldKept.ite {a lo n : Nat} {c : Prop} [Decidable c] {s t u : State} (h : FieldKept a lo n s t) (k : FieldKept a lo n s u) :
    FieldKept a lo n s (if c then t else u) := by split <;> assumption

/-- What follows leaves the register file as it is. -/
theorem FieldKept.after {a lo n : Nat} {s t u : State} (h : FieldKept a lo n s t) (e : u.regs = t.regs := by rfl) :
    FieldKept a lo n s u := h.trans (.of_regFrame (W := fun _ => False) (.same e) (fun f => f))

/-- A write of another register. -/
theorem FieldKept.wr {a lo n : Nat} (s : State) {b : Nat} (v : Word) (ne : b ≠ a) : FieldKept a lo n s (s.wr b v) :=
  .of_regFrame (RegFrame.wr (W := fun c => c = b) s b v rfl) (fun e => ne e.symm)

/-- An event of another register. -/
theorem FieldKept.raise {a lo n : Nat} (s : State) {reg : Nat} (b : Nat) (ne : reg ≠ a) (out : ¬ InHif a) :
    FieldKept a lo n s (s.raise reg b) :=
  .of_regFrame (RegFrame.raise_of (W := fun c => c = reg ∨ InHif c) s reg b (.inl rfl) (fun _ => .inr))
    (fun m => m.elim (fun e => ne e.symm) out)

/-- A kept field of one bit. -/
theorem FieldKept.bit {a i : Nat} {s t : State} (h : FieldKept a i 1 s t) (c : CellList.wf resetOf s.regs = true) :
    t.bit a i = s.bit a i := by
  rw [State.bit, State.bit, bitOf_eq_fld, bitOf_eq_fld]
  exact congrArg (fun v => decide (v = 1)) (h c).2

theorem bit_of_rd {s t : State} {a : Nat} (h : t.rd a = s.rd a) (i : Nat) : t.bit a i = s.bit a i := congrArg (fun w => bitOf w i) h

theorem f_of_rd {s t : State} {a : Nat} (h : t.rd a = s.rd a) (lo n : Nat) : t.f a lo n = s.f a lo n := congrArg (fun w => fld w lo n) h

/-- An occurrence sets its event bit (R363), whatever is reported of it. -/
theorem raise_bit {s : State} (h : CellList.wf resetOf s.regs = true) {reg b : Nat} (low : b < 24) (out : ¬ InHif reg) :
    (s.raise reg b).bit reg b = true := by
  have set : (s.sfW reg b 1 1).bit reg b = true := (bit_setBit s reg b b true h (by omega)).trans (if_pos rfl)
  have regs : CellList.wf resetOf (s.sfW reg b 1 1).regs = true := CellList.wf_set resetOf _ _ _ h
  have kept : FieldKept reg b 1 (s.sfW reg b 1 1) (s.raise reg b) :=
    .trans (.sfW _ 24 8 _ (by omega) (.inl low)) (.of_regFrame (.raise_hif s reg b) out)
  exact (kept.bit regs).trans set

theorem inc_regs {s : State} (h : CellList.wf resetOf s.regs = true) (a : Nat) : CellList.wf resetOf (s.inc a).regs = true :=
  (RegFrame.inc (W := fun _ => True) s a trivial (fun _ => trivial) h).1

/-- A counter of one word counts an occurrence up to its largest value (R361). -/
theorem inc_rd {s : State} (h : CellList.wf resetOf s.regs = true) {a : Nat} (single : pairRowOf a = none) :
    ((s.inc a).rd a).toNat = min ((s.rd a).toNat + 1) 0xFFFFFFFF := by
  unfold State.inc State.count
  rw [if_neg (by simp [single])]
  refine (congrArg BitVec.toNat ((rd_wr _ a a _ h).trans (if_pos rfl))).trans ?_
  exact (BitVec.toNat_ofNat _ 32).trans (Nat.mod_eq_of_lt (by omega))

/-! ### Reference inputs after a change of one -/

theorem getD_modAt_ne {α : Type} (f : α → α) (d : α) :
    ∀ (l : List α) {i j : Nat}, j ≠ i → (modAt l i f).getD j d = l.getD j d
  | [], _, _, _ => rfl
  | _ :: _, 0, 0, ne => absurd rfl ne
  | _ :: _, 0, _ + 1, _ => rfl
  | _ :: _, _ + 1, 0, _ => rfl
  | _ :: l, _ + 1, _ + 1, ne => getD_modAt_ne f d l (fun e => ne (congrArg (· + 1) e))

theorem refIn_setRef {s : State} {i : Nat} (h : i < s.refs.ins.length) (f : RefIn → RefIn) :
    (s.setRef i f).refIn i = f (s.refIn i) := getD_modAt f RefIn.empty s.refs.ins i h

theorem refIn_setRef_ne (s : State) {i j : Nat} (ne : j ≠ i) (f : RefIn → RefIn) : (s.setRef i f).refIn j = s.refIn j :=
  getD_modAt_ne f RefIn.empty s.refs.ins ne

/-- What holds of every operation of a list holds of all of them in order. -/
theorem each_invariant {α : Type} {P : State → Prop} {g : α → State → State} (step : ∀ x t, P t → P (g x t)) :
    ∀ (l : List α) (s : State), P s → P (s.each l g)
  | [], _, h => h
  | x :: l, s, h => each_invariant step l (g x s) (step x s h)

end Sys2Proof.Machine
end

section
/-!
SUPPORT. Timers and the qualification of references (R62, R75 to R78).
-/

set_option Elab.async false

namespace Sys2Proof.Machine

/-! ### Timers of references -/

/-- The seconds that TIMER shows. -/
def State.secondsLeft (s : State) (i : Nat) : Nat :=
  match (s.refIn i).timerEnd with
  | none => 0
  | some e => ceilDiv (e - s.ts.meas) (secs 1)

theorem showTimer_eq (s : State) (i : Nat) : s.showTimer i = s.sfW (A.refInTimer i) 0 17 (s.secondsLeft i) := rfl

theorem showTimer_timer {s : State} (h : CellList.wf resetOf s.regs = true) (i : Nat) :
    (s.showTimer i).f (A.refInTimer i) 0 17 = s.secondsLeft i % 2 ^ 17 := by
  rw [showTimer_eq, f_sfW _ _ _ _ _ _ _ h, fld_putFld _ _ _ _ (by decide)]

/-- Showing a timer changes TIMER alone. -/
theorem RegFrame.showTimer (s : State) (i : Nat) : RegFrame (fun a => a = A.refInTimer i) s (s.showTimer i) := .sfW _ _ _ _ _ rfl

theorem RegFrame.startTimer (s : State) (i n : Nat) : RegFrame (fun a => a = A.refInTimer i) s (s.startTimer i n) :=
  (RegFrame.showTimer (s.setRef i _) i).before

theorem RegFrame.stopTimer (s : State) (i : Nat) : RegFrame (fun a => a = A.refInTimer i) s (s.stopTimer i) :=
  (RegFrame.showTimer (s.setRef i _) i).before

/-- What writes TIMER alone keeps QSTATE. -/
theorem RegFrame.qstate_of_timer {s t : State} {i : Nat} (f : RegFrame (fun a => a = A.refInTimer i) s t)
    (h : CellList.wf resetOf s.regs = true) : t.qstate i = s.qstate i :=
  f_of_rd ((f h).2 _ (by unfold A.refInState A.refInTimer; omega)) 0 3

/-- No seconds are left of a timer that was stopped. -/
theorem stopTimer_secondsLeft (s : State) (i : Nat) : (s.stopTimer i).secondsLeft i = 0 := by
  have stopped : ((s.stopTimer i).refIn i).timerEnd = none := by
    by_cases h : i < s.refs.ins.length
    · exact congrArg RefIn.timerEnd (refIn_setRef h _)
    · have beyond : (modAt s.refs.ins i (fun r => { r with timerEnd := none })).length ≤ i := by rw [length_modAt]; omega
      exact congrArg RefIn.timerEnd (List.getD_eq_default _ RefIn.empty beyond)
  rw [State.secondsLeft, stopped]

/-- A timer command shows the seconds left, behind the entries that are due. -/
theorem completes_refTimerOver {c : Instr} {s u : State} {dt ref : Nat}
    (command : exec c s = afterIf (decide (ref < 14)) dt s (fun t => t.refTimerOver ref)) (canonical : s.canonical = true)
    (eq : u = (s.advance dt).dueFirst) (unit : ref < 14) :
    Completes c s (fun t => t.f (A.refInTimer ref) 0 17 = u.secondsLeft ref % 2 ^ 17 ∧ t.qstate ref = u.qstate ref ∧ t.refs = u.refs) := by
  have regs : CellList.wf resetOf u.regs = true := regs_of_canonical (eq ▸ dueFirst_canonical canonical dt)
  refine completes_of (t := u.showTimer ref) (command.trans ((if_pos (decide_eq_true unit)).trans (by rw [eq]; rfl))) ?_
  exact ⟨showTimer_timer regs ref, (RegFrame.showTimer u ref).qstate_of_timer regs, rfl⟩

/-! ### The decision of an evaluation (R75) -/

/-- The evaluation shows first whether a pair consumes the reference (R64). -/
def State.markPaired (s : State) (i : Nat) : State := s.setBit (A.refInState i) 16 (s.isPaired i)

section
variable {s : State} (h : CellList.wf resetOf s.regs = true) (i : Nat)
include h

theorem markPaired_regs : CellList.wf resetOf (s.markPaired i).regs = true := CellList.wf_set resetOf _ _ _ h

theorem markPaired_rd {a : Nat} (ne : a ≠ A.refInState i) : (s.markPaired i).rd a = s.rd a :=
  (RegFrame.setBit (W := fun a => a = A.refInState i) s _ 16 _ rfl h).2 a ne

theorem markPaired_qstate : (s.markPaired i).qstate i = s.qstate i := (FieldKept.setBit s 16 _ (by decide) (.inl (by decide)) h).2

theorem markPaired_refMq : (s.markPaired i).refMq i = s.refMq i := (FieldKept.setBit s 16 _ (by decide) (.inl (by decide)) h).2

theorem markPaired_refPair : (s.markPaired i).refPair = s.refPair := by
  funext p
  unfold State.refPair
  rw [f_of_rd (markPaired_rd h i (a := A.refInCfg p) (by unfold A.refInCfg A.refInState; omega))]

theorem markPaired_unusable : (s.markPaired i).unusable i = s.unusable i := by
  have cfg := markPaired_rd h i (a := A.refInCfg i) (by unfold A.refInCfg A.refInState; omega)
  have ctl := markPaired_rd h i (a := A.refCtl) (by unfold A.refCtl A.refInState; omega)
  unfold State.unusable State.isPaired State.pairLost
  rw [bit_of_rd cfg, f_of_rd ctl, markPaired_refMq h, markPaired_refPair h]
  rfl

theorem markPaired_checkFails : (s.markPaired i).checkFails i = s.checkFails i := by
  have kept : ∀ a, a < 0x15000 → (s.markPaired i).rd a = s.rd a := fun a low => markPaired_rd h i (by unfold A.refInState; omega)
  unfold State.checkFails
  rw [f_of_rd (kept A.refTolPhase (by decide)), f_of_rd (kept A.refTolFreq (by decide)), f_of_rd (kept A.refCusumSpan (by decide))]
  rfl

theorem markPaired_heldCandidate : (s.markPaired i).heldCandidate i = s.heldCandidate i := by
  have cfg := markPaired_rd h i (a := A.refInCfg i) (by unfold A.refInCfg A.refInState; omega)
  have mode := markPaired_rd h i (a := A.tscState) (by unfold A.tscState A.refInState; omega)
  unfold State.heldCandidate State.tscMode
  rw [f_of_rd cfg, f_of_rd mode]

theorem markPaired_switchPhase : (s.markPaired i).switchPhase = s.switchPhase :=
  f_of_rd (markPaired_rd h i (by unfold A.refStatus A.refInState; omega)) 16 2

end

theorem markPaired_refIn (s : State) (i : Nat) : (s.markPaired i).refIn i = s.refIn i := rfl

theorem markPaired_timerDue (s : State) (i : Nat) : (s.markPaired i).timerDue i = s.timerDue i := rfl

/-- The decision on a reference other than ToD, with its pair shown. -/
def State.decideQ (s : State) (i : Nat) : State :=
  if s.qstate i = 5 then s
  else if s.unusable i then s.toUnavailable i
  else if s.qstate i = 0 then s.toCandidate i
  else if (s.qstate i = 1 ∨ s.qstate i = 4) ∧ s.checkFails i then s.qualFail i
  else if s.qstate i = 1 ∧ s.timerDue i ∧ !(s.heldCandidate i) then s.qualTimeExpire i
  else if s.qstate i = 4 ∧ s.timerDue i then s.wtrExpire i
  else s

theorem qualify_eq (s : State) {i : Nat} (known : i < 13) : s.qualify i = ((s.markPaired i).decideQ i).showTimer i :=
  if_neg (by omega)

section
variable {s : State} (h : CellList.wf resetOf s.regs = true) {i : Nat}
include h

/-- A reference that becomes QUALIFIED is shown so, with no timer. -/
theorem qualified_shown (new : s.qstate i ≠ 2) :
    (((s.setQ i 2).stopTimer i).showTimer i).qstate i = 2 ∧ (((s.setQ i 2).stopTimer i).showTimer i).f (A.refInTimer i) 0 17 = 0 := by
  obtain ⟨regs, qualified⟩ := qstate_setQ h 0 0 (by decide) new
  have stopped := RegFrame.stopTimer (s.setQ i 2) i
  have regs' := (stopped regs).1
  refine ⟨((RegFrame.showTimer _ i).qstate_of_timer regs').trans ((stopped.qstate_of_timer regs).trans qualified), ?_⟩
  rw [showTimer_timer regs', stopTimer_secondsLeft, Nat.zero_mod]

/-- A reference that must wait again is shown in WAIT_RESTORE. -/
theorem waiting_shown (new : s.qstate i ≠ 4) (n : Nat) : (((s.setQ i 4).startTimer i n).showTimer i).qstate i = 4 := by
  obtain ⟨regs, waiting⟩ := qstate_setQ h 0 0 (by decide) new
  have started := RegFrame.startTimer (s.setQ i 4) i n
  exact ((RegFrame.showTimer _ i).qstate_of_timer (started regs).1).trans ((started.qstate_of_timer regs).trans waiting)

end

section
variable {s : State} {i : Nat} (h : CellList.wf resetOf s.regs = true) (known : i < 13) (usable : s.unusable i = false)
  (passes : s.checkFails i = false) (due : s.timerDue i = true)
include h known usable passes due

/-- A usable CANDIDATE that passes its checks and is not held: the end of its timer decides. -/
theorem qualify_candidate (candidate : s.qstate i = 1) (free : s.heldCandidate i = false) :
    s.qualify i = ((s.markPaired i).qualTimeExpire i).showTimer i := by
  rw [qualify_eq s known, State.decideQ, markPaired_qstate h, markPaired_unusable h, markPaired_checkFails h, markPaired_timerDue,
    markPaired_heldCandidate h]
  simp [candidate, usable, passes, due, free]

/-- The same of a reference in WAIT_RESTORE. -/
theorem qualify_waiting (waiting : s.qstate i = 4) : s.qualify i = ((s.markPaired i).wtrExpire i).showTimer i := by
  rw [qualify_eq s known, State.decideQ, markPaired_qstate h, markPaired_unusable h, markPaired_checkFails h, markPaired_timerDue]
  simp [waiting, usable, passes, due]

/-- The first qualification outside SLEW is at once. -/
theorem qualify_first (candidate : s.qstate i = 1) (free : s.heldCandidate i = false) (steady : s.switchPhase ≠ 2)
    (first : (s.refIn i).qualified = false) : (s.qualify i).qstate i = 2 ∧ (s.qualify i).f (A.refInTimer i) 0 17 = 0 := by
  rw [qualify_candidate h known usable passes due candidate free, State.qualTimeExpire, markPaired_switchPhase h,
    if_pos ⟨steady, by rw [markPaired_refIn, first]; rfl⟩]
  exact qualified_shown (markPaired_regs h i) (by rw [markPaired_qstate h, candidate]; decide)

/-- In SLEW, or after an earlier qualification, the reference waits. -/
theorem qualify_again (candidate : s.qstate i = 1) (free : s.heldCandidate i = false)
    (later : s.switchPhase = 2 ∨ (s.refIn i).qualified = true) : (s.qualify i).qstate i = 4 := by
  rw [qualify_candidate h known usable passes due candidate free, State.qualTimeExpire, markPaired_switchPhase h, if_neg ?_]
  · exact waiting_shown (markPaired_regs h i) (by rw [markPaired_qstate h, candidate]; decide) _
  · rintro ⟨steady, first⟩
    rw [markPaired_refIn] at first
    exact later.elim steady (by simpa using first)

theorem qualify_restored (waiting : s.qstate i = 4) :
    (s.qualify i).qstate i = 2 ∧ (s.qualify i).f (A.refInTimer i) 0 17 = 0 := by
  rw [qualify_waiting h known usable passes due waiting]
  exact qualified_shown (markPaired_regs h i) (by rw [markPaired_qstate h, waiting]; decide)

end

/-- One evaluation more in the run that release needs (R77). -/
def State.oneMoreClean (s : State) (i : Nat) : State := s.setRef i (fun r => { r with clean := r.clean + 1 })

section
variable {s : State} {i : Nat} {x : Int} (listed : i < s.refs.ins.length) (distrusted : s.qstate i = 5)
  (resid : (s.refIn i).resid = some x) (phase : (s.refIn i).cp = 0) (freq : (s.refIn i).cf = 0) (due : s.timerDue i = true)
  (run : s.f A.refCusumSpan 0 14 ≤ (s.refIn i).clean + 1)
include listed distrusted resid phase freq due run

/-- The evaluation that completes the run at the end of the hold releases the reference. -/
theorem cleanRun_complete : s.cleanRun i = (s.oneMoreClean i).toCandidate i := by
  have counted : (s.oneMoreClean i).refIn i = { s.refIn i with clean := (s.refIn i).clean + 1 } := refIn_setRef listed _
  have timer : (s.oneMoreClean i).timerDue i = true := by
    refine Eq.trans ?_ due
    rw [State.timerDue, State.timerDue, counted]
    rfl
  have complete : (s.oneMoreClean i).releaseDue i = true := by
    rw [State.releaseDue, timer, counted]
    exact decide_eq_true run
  unfold State.cleanRun
  rw [if_pos distrusted]
  simp only [resid, phase, freq, Option.isSome_some, decide_true, Bool.and_self, if_true]
  exact if_pos complete

/-- A reference that is released is CANDIDATE (R77). -/
theorem cleanRun_candidate (h : CellList.wf resetOf s.regs = true) (known : i < 13) : (s.cleanRun i).qstate i = 1 := by
  rw [cleanRun_complete listed distrusted resid phase freq due run]
  exact (congrArg (fun u => State.qstate u i) (if_pos ⟨known, distrusted⟩)).symm.trans
    (clearDistrust_qstate (s := s.oneMoreClean i) h known distrusted)

end

end Sys2Proof.Machine
end

section
/-!
SUPPORT. The end of PREPARE (R96): SEL follows the target, and nothing that the new selection sets off changes it.
-/

set_option Elab.async false

namespace Sys2Proof.Machine

/-! ### The registers that an offset of the selected reference writes (R34 to R38, R55) -/

/-- A register of block TSC, or one that reports and journal records write. -/
def InTsc (a : Nat) : Prop := (0x10000 ≤ a ∧ a < 0x14000) ∨ InGlbHif a

theorem RegFrame.raise_tsc (s : State) (b : Nat) : RegFrame InTsc s (s.raise A.tscEvent b) :=
  .raise_of s _ b (.inl (by decide)) (fun _ k => .inr (.inr k))

theorem RegFrame.setMode (s : State) (m : Nat) : RegFrame InTsc s (s.setMode m) := by
  have state : InTsc A.tscState := .inl (by decide)
  unfold State.setMode
  refine .ite (fun _ => .refl _ s) (fun _ => ?_)
  refine .trans (.trans (RegFrame.sfW s _ 0 3 m state) ?_) ((RegFrame.journalize_glbHif _ _ _ _ _ _).mono (fun _ => .inr))
  exact (RegFrame.trans (.sfW _ _ _ _ _ state) (.raise_tsc _ 0)).before

theorem RegFrame.calOwn (s : State) (e : CalEntry) : RegFrame InTsc s (s.calOwn e) := by
  have used : InTsc A.tscCalUsed := .inl (by decide)
  have dropped : RegFrame InTsc s (s.calDrop e.action e.target) := (RegFrame.calUsed _ used).before
  exact dropped.trans (RegFrame.calUsed _ used).before

theorem RegFrame.postStep (s : State) (theta : Int) (ref : Nat) : RegFrame InTsc s (s.postStep theta ref) := by
  have posted : RegFrame InTsc s (((s.sfW A.tscStepSeq 0 8 (s.f A.tscStepSeq 0 8 + 1)).wr64 A.tscStepOffsetLo (roundNs theta)).setBit
      A.tscState 3 true) :=
    .trans (.trans (.sfW _ _ _ _ _ (.inl (by decide))) (.wr64 _ _ _ (.inl (by decide)) (.inl (by decide))))
      (.setBit _ _ _ _ (.inl (by decide)))
  have acquiring : ∀ t : State, RegFrame InTsc t (if t.tscMode = 2 then t.setMode 1 else t) := fun t =>
    .ite (fun _ => .setMode t 1) (fun _ => .refl _ t)
  unfold State.postStep
  dsimp only
  refine .trans (.trans posted.after (acquiring _)) (.ite (fun _ => ?_) (fun _ => .raise_tsc _ 1))
  exact (RegFrame.calOwn _ _).before

/-- Removing an offset writes registers of TSC and what reports write. -/
theorem RegFrame.handleOffset (s : State) (theta : Int) (ref : Nat) : RegFrame InTsc s (s.handleOffset theta ref) := by
  unfold State.handleOffset
  exact .ite (fun _ => .refl _ s) (fun _ => .ite (fun _ => .same rfl) (fun _ => .postStep s theta ref))

/-! ### SEL (R99) -/

/-- An operation keeps SEL. -/
abbrev SelKept (s t : State) : Prop := FieldKept A.refStatus 0 8 s t

theorem not_inHif_refStatus : ¬ InHif A.refStatus := by unfold InHif; decide

/-- An event of block REF (R363). -/
theorem selKept_raise (s : State) (b : Nat) : SelKept s (s.raise A.refEvent b) := .raise s b (by decide) not_inHif_refStatus

theorem selKept_of_tsc {s t : State} (h : RegFrame InTsc s t) : SelKept s t :=
  .of_regFrame h (by unfold InTsc InGlbHif InHif; decide)

theorem selKept_setQ (s : State) (i q : Nat) : SelKept s (s.setQ i q) := by
  have cusum : ∀ t : State, SelKept t (if q ≤ 1 then (t.wr (A.refInCusumP i) 0).wr (A.refInCusumF i) 0 else t) := fun t =>
    .ite (.trans (.wr t 0 (by unfold A.refInCusumP A.refStatus; omega)) (.wr _ 0 (by unfold A.refInCusumF A.refStatus; omega)))
      (.refl _ _ _ t)
  have status : A.refInState i ≠ A.refStatus := by unfold A.refInState A.refStatus; omega
  have changed : SelKept s ((s.sfW (A.refInState i) 0 3 q).setRef i (fun r => r.entering q)) :=
    (FieldKept.wr s _ status).after
  have shown : ∀ t : State, SelKept t ((t.showVoter i).showQual) := fun t =>
    .trans (.wr t _ status) (.sfW _ 18 5 _ (by decide) (.inl (by decide)))
  have event : ∀ t : State, SelKept t (t.raise (A.refInEvent i) 0) := fun t =>
    .raise t 0 (by unfold A.refInEvent A.refStatus; omega) not_inHif_refStatus
  unfold State.setQ
  dsimp only
  refine .ite (.refl _ _ _ s) ?_
  refine .trans (.trans (.trans (.trans changed (cusum _)) (shown _)) (event _)) (.of_regFrame (.journalize_glbHif _ _ _ _ _ _) ?_)
  unfold InGlbHif InHif
  decide

theorem selKept_switchDone (s : State) : SelKept s s.switchDone := by
  have idle : SelKept s s.switchIdle :=
    ((FieldKept.sfW s 8 8 0xFF (by decide) (.inl (by decide))).trans (.sfW _ 16 2 0 (by decide) (.inl (by decide)))).after
  have counted : ∀ t : State, SelKept t (t.inc A.refSwitchCount) := fun t =>
    .of_regFrame (RegFrame.inc (W := fun a => a = A.refSwitchCount) t _ rfl (fun c => absurd c (by decide +kernel))) (by decide)
  exact .trans (.trans idle (counted _)) (selKept_raise _ 2)

theorem selKept_acquire (s : State) : SelKept s s.acquire := by
  have dropped : RegFrame (fun a => 0x18000 ≤ a) s s.dropAnchor :=
    (RegFrame.each _ _ (fun a m t => .wr t a _ (by revert a; decide)) _).before
  exact .trans (.of_regFrame dropped (by decide)) (selKept_of_tsc (.setMode _ 1))

theorem selKept_handleSelected (s : State) (theta : Int) : SelKept s (s.handleSelected theta) := by
  have flagged : ∀ (t : State) (b : Bool), SelKept t (t.setBit (A.refInState s.sel) 20 b) := fun t _ =>
    .wr t _ (by unfold A.refInState A.refStatus; omega)
  unfold State.handleSelected
  refine .ite ((selKept_raise s 9).trans (flagged _ true)).after ?_
  exact (flagged s false).after.trans (selKept_of_tsc (.handleOffset _ theta _))

/-! ### The end of PREPARE -/

/-- What follows a change of SEL keeps it. -/
theorem selKept_setSel {s : State} {i : Nat} (new : s.sel ≠ i) : SelKept (s.sfW A.refStatus 0 8 i) (s.setSel i) := by
  have shown : ∀ t : State, SelKept t ((t.sfW A.tscState 8 8 i).setBit A.tscState 6 (freqRef i)) := fun t =>
    .trans (.wr t _ (by decide)) (.wr _ _ (by decide))
  have phase : ∀ t : State, SelKept t (if phaseRef i then { t with refs := { t.refs with lastPhase := some i } } else t) := fun t =>
    .ite (FieldKept.refl _ _ _ t).after (.refl _ _ _ t)
  unfold State.setSel
  rw [if_neg new]
  dsimp only
  exact ((shown _).trans (phase _)).after.trans (selKept_raise _ 0)

theorem setSel_sel {s : State} (h : CellList.wf resetOf s.regs = true) {i : Nat} (small : i < 256) :
    CellList.wf resetOf (s.setSel i).regs = true ∧ (s.setSel i).sel = i := by
  by_cases same : s.sel = i
  · rw [State.setSel, if_pos same]
    exact ⟨h, same⟩
  · obtain ⟨regs, kept⟩ := selKept_setSel same (CellList.wf_set resetOf _ _ _ h)
    refine ⟨regs, kept.trans ?_⟩
    rw [f_sfW _ _ _ _ _ _ _ h, fld_putFld _ _ _ _ (by decide)]
    exact Nat.mod_eq_of_lt small

/-- The target is SELECTED in place of the reference that was. -/
def State.selectTarget (s : State) : State :=
  ((if s.sel ≠ 0xFF ∧ s.qstate s.sel = 3 then s.setQ s.sel 2 else s).setQ s.target 3).setSel s.target

theorem selectTarget_sel {s : State} (h : CellList.wf resetOf s.regs = true) :
    CellList.wf resetOf s.selectTarget.regs = true ∧ s.selectTarget.sel = s.target := by
  have left : SelKept s (if s.sel ≠ 0xFF ∧ s.qstate s.sel = 3 then s.setQ s.sel 2 else s) := .ite (selKept_setQ s _ 2) (.refl _ _ _ s)
  exact setSel_sel ((left.trans (selKept_setQ _ s.target 3)) h).1 (fld_lt _ 8 8)

theorem selKept_beginSlew {s t : State} (e : t.regs = s.regs := by rfl) : SelKept s (t.sfW A.refStatus 16 2 2) :=
  ((FieldKept.refl _ _ _ s).after e).trans (.sfW t 16 2 2 (by decide) (.inl (by decide)))

theorem selKept_showBuildout (s : State) (b : Int) : SelKept s (s.showBuildout b) := .wr s _ (by decide)

/-- SLEW begins, or the switch to a frequency-only reference completes, with SEL as it is. -/
theorem selKept_endPrepare (s : State) : SelKept s.selectTarget s.endPrepare := by
  unfold State.endPrepare
  refine .ite (.trans ?_ (selKept_handleSelected _ _)) (.trans (.trans selKept_beginSlew (selKept_showBuildout _ 0)) (selKept_switchDone _))
  exact .trans (.trans selKept_beginSlew (selKept_showBuildout _ _)) (.ite (.refl _ _ _ _) (selKept_acquire _))

/-- The target of a switch is the selected reference once PREPARE has ended (R96). -/
theorem endPrepare_sel {s : State} (h : CellList.wf resetOf s.regs = true) : s.endPrepare.sel = s.target := by
  obtain ⟨regs, selected⟩ := selectTarget_sel h
  exact (selKept_endPrepare s regs).2.trans selected

/-- PREPARE has lasted an evaluation interval, and its target is still the choice (R96, R97). -/
theorem switchMachine_endPrepare {s : State} {was : List Nat} {force : Nat} (phase : s.switchPhase = 1)
    (qualified : s.isQual s.target = true) (kept : s.target = force ∨ s.overtaken was = false)
    (lasted : s.refs.prepEval < s.refs.evalNo) : s.switchMachine (some s.target) was force = s.endPrepare := by
  unfold State.switchMachine
  rw [phase]
  simp [qualified, kept, lasted]

end Sys2Proof.Machine
end

section
/-!
SUPPORT. O8: losses of references (R60), the quality contact (R72) and ToD sentences (R445).
-/

set_option Elab.async false

namespace Sys2Proof.Machine

/-! ### Losses (R60) -/

/-- A reference is lost and its LOS is set. -/
def State.LosShown (s : State) (i : Nat) : Prop :=
  CellList.wf resetOf s.regs = true ∧ (s.refIn i).lost = true ∧ s.bit (A.refInEvent i) 2 = true

/-- The loss of an index writes its counter, its EVENT and what reports write. -/
theorem RegFrame.loseIndex (s : State) (i : Nat) : RegFrame
    (fun a => a = A.refInEvent i ∨ a = A.refInLosCount i ∨ a = A.refInLosCount i + 4 ∨ InHif a) s (s.loseIndex i) := by
  unfold State.loseIndex
  refine .ite (fun _ => .refl _ s) (fun _ => ?_)
  exact .trans (RegFrame.inc (s.setRef i _) _ (.inr (.inl rfl)) (fun _ => .inr (.inr (.inl rfl)))).before
    (.raise_of _ _ _ (.inl rfl) (fun _ k => .inr (.inr (.inr k))))

theorem loseIndex_of_lost {s : State} {i : Nat} (lost : (s.refIn i).lost = true) : s.loseIndex i = s := if_pos lost

/-- The input of a reference that is lost; the edges of a FREQ-IN count anew. -/
def State.markLost (s : State) (i : Nat) : State :=
  s.setRef i (fun r => { r with lost := true, edges := 0, firstEdge := none, lastEdge := none })

theorem loseIndex_of_present {s : State} {i : Nat} (present : (s.refIn i).lost = false) :
    s.loseIndex i = ((s.markLost i).inc (A.refInLosCount i)).raise (A.refInEvent i) 2 := if_neg (by simp [present])

/-- Counting and reporting a loss changes no input. -/
theorem loseIndex_refs {s : State} {i : Nat} (present : (s.refIn i).lost = false) : (s.loseIndex i).refs = (s.markLost i).refs := by
  rw [loseIndex_of_present present]
  exact (PartFrame.raise _ _ _ .refs (by decide)).trans (PartFrame.inc _ _ .refs (by decide))

theorem refIn_congr {s t : State} (h : t.refs = s.refs) (i : Nat) : t.refIn i = s.refIn i := by rw [State.refIn, State.refIn, h]

theorem not_inHif_refInEvent (i : Nat) : ¬ InHif (A.refInEvent i) := by
  unfold InHif A.refInEvent
  omega

/-- A present reference that is lost shows it. -/
theorem loseIndex_losShown {s : State} (h : CellList.wf resetOf s.regs = true) {i : Nat} (listed : i < s.refs.ins.length)
    (present : (s.refIn i).lost = false) : (s.loseIndex i).LosShown i := by
  refine ⟨(RegFrame.loseIndex s i h).1, ?_, ?_⟩
  · rw [refIn_congr (loseIndex_refs present), State.markLost, refIn_setRef listed]
  · rw [loseIndex_of_present present]
    exact raise_bit (inc_regs (s := s.markLost i) h _) (by decide) (not_inHif_refInEvent i)

/-- The loss of another index leaves it shown. -/
theorem State.LosShown.loseIndex {s : State} {i : Nat} (h : s.LosShown i) (p : Nat) : (s.loseIndex p).LosShown i := by
  by_cases gone : (s.refIn p).lost = true
  · rwa [loseIndex_of_lost gone]
  · obtain ⟨regs, lost, los⟩ := h
    have other : i ≠ p := by rintro rfl; exact gone lost
    obtain ⟨regs', kept⟩ := RegFrame.loseIndex s p regs
    refine ⟨regs', ?_, ?_⟩
    · rw [refIn_congr (loseIndex_refs (by simpa using gone)), State.markLost, refIn_setRef_ne s other, lost]
    · rw [bit_of_rd (kept (A.refInEvent i) ?_), los]
      unfold InHif A.refInEvent A.refInLosCount
      omega

/-- A reference that is lost shows it, whatever pairs are lost with it (R64). -/
theorem lose_losShown {s : State} (h : CellList.wf resetOf s.regs = true) {i : Nat} (listed : i < s.refs.ins.length)
    (present : (s.refIn i).lost = false) : (s.lose i).LosShown i := by
  refine each_invariant (P := fun t => t.LosShown i) (fun p t shown => ?_) _ _ (loseIndex_losShown h listed present)
  cases paired : decide (t.refPair p = some i)
  · exact shown
  · exact shown.loseIndex p

/-! ### The quality contact (R72) -/

/-- QCONTACT_STATE shows the contact that was accepted. -/
theorem contactChange_closed {s : State} (h : CellList.wf resetOf s.regs = true) (closed : Bool) :
    (s.contactChange closed).bit A.refQcontactState 0 = closed := by
  have shown : (s.setBit A.refQcontactState 0 closed).bit A.refQcontactState 0 = closed :=
    (bit_setBit s _ 0 0 closed h (by decide)).trans (if_pos rfl)
  have fault : ∀ (t : State) (b : Bool), FieldKept A.refQcontactState 0 1 t (t.setBit A.refQcontactState 1 b) := fun t b =>
    .setBit t 1 b (by decide) (.inl (by decide))
  have event : ∀ (t : State) (i : Nat), FieldKept A.refQcontactState 0 1 t (t.raise (A.refInEvent i) 7) := fun t i =>
    .raise t 7 (by unfold A.refInEvent A.refQcontactState; omega) (by unfold InHif; decide)
  have kept : FieldKept A.refQcontactState 0 1 (s.setBit A.refQcontactState 0 closed) (s.contactChange closed) :=
    .ite ((fault _ _).trans (event _ _)) (fault _ _)
  exact (kept.bit (CellList.wf_set resetOf _ _ _ h)).trans shown

/-! ### ToD sentences (R445) -/

/-- A sentence with a framing error, or that is not well formed, counts as bad. -/
theorem todRx_bad (s : State) {text : Bytes} {framing : Bool} (bad : framing = true ∨ todParse text = none) :
    s.todRx text framing = s.inc A.pwrTodBad := by
  have refused : (if framing || s.todHeld then none else todParse text) = none := by
    rcases bad with framed | malformed
    · rw [framed]; rfl
    · rw [malformed, ite_self]
  unfold State.todRx
  rw [refused]

/-- What the connector shows of a valid sentence: the count, the quality, the instant and TOD_ACTIVE (R445, R455). -/
def State.todShown (s : State) (q : Nat) : State :=
  let t := (s.inc A.pwrTodRx).sfW A.pwrIoStatus 8 4 q
  ({ t with pwr := { t.pwr with todAt := some t.ts.meas } }).setBit A.pwrIoStatus 2 true

theorem todRx_valid {s : State} {text : Bytes} {sec q : Nat} (unheld : s.todHeld = false) (parsed : todParse text = some (sec, q)) :
    s.todRx text false = (s.todShown q).todValid sec q := by
  unfold State.todRx
  rw [unheld, parsed]
  rfl

section
variable {s : State} (h : CellList.wf resetOf s.regs = true) (q : Nat)
include h

theorem todShown_count : ((s.todShown q).rd A.pwrTodRx).toNat = min ((s.rd A.pwrTodRx).toNat + 1) 0xFFFFFFFF := by
  have regs := inc_regs h A.pwrTodRx
  have kept : (s.todShown q).rd A.pwrTodRx = (s.inc A.pwrTodRx).rd A.pwrTodRx := calc
    _ = ((s.inc A.pwrTodRx).sfW A.pwrIoStatus 8 4 q).rd A.pwrTodRx :=
      (rd_wr _ _ _ _ (CellList.wf_set resetOf _ _ _ regs)).trans (if_neg (by decide))
    _ = (s.inc A.pwrTodRx).rd A.pwrTodRx := (rd_wr _ _ _ _ regs).trans (if_neg (by decide))
  rw [kept, inc_rd h (by decide +kernel)]

theorem todShown_active : (s.todShown q).bit A.pwrIoStatus 2 = true :=
  (bit_setBit _ _ 2 2 true (CellList.wf_set resetOf _ _ _ (inc_regs h _)) (by decide)).trans (if_pos rfl)

theorem todShown_quality : (s.todShown q).f A.pwrIoStatus 8 4 = q % 16 := by
  have shown : ((s.inc A.pwrTodRx).sfW A.pwrIoStatus 8 4 q).f A.pwrIoStatus 8 4 = q % 16 :=
    (f_sfW _ _ _ _ _ _ _ (inc_regs h _)).trans (fld_putFld _ 8 4 q (by decide))
  have kept : FieldKept A.pwrIoStatus 8 4 ((s.inc A.pwrTodRx).sfW A.pwrIoStatus 8 4 q) (s.todShown q) :=
    (FieldKept.refl _ _ _ _).after.trans (.setBit _ 2 true (by decide) (.inr (by decide)))
  exact (kept (CellList.wf_set resetOf _ _ _ (inc_regs h _))).2.trans shown

end

theorem todShown_todAt (s : State) (q : Nat) : (s.todShown q).pwr.todAt = some s.ts.meas :=
  congrArg (fun x : Timescale => some x.meas) (PartFrame.inc s A.pwrTodRx .ts (by decide))

/-! ### The obligation -/

/-- Settles O8: the timer commands show `State.secondsLeft`, the branch of `State.qualify`, `State.cleanRun` or
`State.switchMachine` that the hypotheses name decides, and losses, the contact and ToD sentences are read back in their words.
Which evaluation ends a timer, and that a timer's command runs the entries due, is the model's reading (log entries 33, 128). -/
theorem referenceTimersComplete : Obligations.ReferenceTimersComplete := by
  unfold Obligations.ReferenceTimersComplete
  refine ⟨fun s u dt ref canonical eq unit => completes_refTimerOver rfl canonical eq unit,
    fun s u dt ref canonical eq unit => completes_refTimerOver rfl canonical eq unit,
    fun s u dt ref canonical eq unit => completes_refTimerOver rfl canonical eq unit,
    fun s ref canonical known candidate usable passes due free steady first => ?first,
    fun s ref canonical known candidate usable passes due free later => ?again,
    fun s ref canonical known waiting usable passes due => ?restored,
    fun s ref x canonical known listed distrusted resid phase freq due run => ?released,
    fun s u dt ref canonical eq unit listed due present => ?lost,
    fun s u dt _ eq => ?prepareEnd,
    fun s was force canonical phase qualified _ kept lasted => ?prepared,
    fun s u dt closed canonical eq => ?contact,
    fun s u dt text framing canonical eq bad => ?bad,
    fun s u dt sec q text canonical eq unheld parsed => ?valid⟩
  case first => exact qualify_first (regs_of_canonical canonical) known usable passes due candidate free steady first
  case again => exact qualify_again (regs_of_canonical canonical) known usable passes due candidate free later
  case restored => exact qualify_restored (regs_of_canonical canonical) known usable passes due waiting
  case released => exact cleanRun_candidate listed distrusted resid phase freq due run (regs_of_canonical canonical) known
  case lost =>
    have regs := regs_of_canonical (eq ▸ advance_canonical canonical dt : u.canonical = true)
    refine completes_of (t := u.refLossTimeout ref) (eq ▸ if_pos (decide_eq_true unit)) ?_
    rw [State.refLossTimeout, due, State.when_true]
    exact (lose_losShown regs listed present).2
  case prepareEnd => rw [eq]; rfl
  case prepared =>
    rw [switchMachine_endPrepare phase qualified kept lasted]
    exact endPrepare_sel (regs_of_canonical canonical)
  case contact =>
    refine completes_of (t := u.contactChange closed) (eq ▸ rfl) ?_
    exact contactChange_closed (regs_of_canonical (eq ▸ advance_canonical canonical dt)) closed
  case bad =>
    refine completes_of (t := u.todRx text framing) (eq ▸ rfl) ?_
    rw [todRx_bad u bad]
    exact inc_rd (regs_of_canonical (eq ▸ advance_canonical canonical dt)) (by decide +kernel)
  case valid =>
    have regs := regs_of_canonical (eq ▸ advance_canonical canonical dt : u.canonical = true)
    refine completes_of (t := u.todRx text false) (eq ▸ rfl) ?_
    rw [todRx_valid unheld parsed]
    exact ⟨todShown_count regs q, todShown_active regs q, todShown_quality regs q, todShown_todAt u q⟩

end Sys2Proof.Machine
end

section
/-!
SUPPORT. O34 refuted: the words of a side that does not exist.
-/

set_option Elab.async false

namespace Sys2Proof.Machine

/-- A keep-alive wake of side 2, which the module does not have, is over; what would be that side's BIAS word holds 1. -/
def strayWake : State :=
  { State.reset.wr (A.gnsSideBias 2) 1 with gnss := { State.reset.gnss with wake := some (2, 0) } }

/-- BIAS of side 2 is none of the words that the clause of KA_WAKE_END names. -/
theorem gnsSideBias_notMem_wakeWords (k : Nat) : A.gnsSideBias 2 ∉
    [A.gnsStatus, A.pwrDomState, A.gnsSideBias (k % 2), A.gnsSideChan (k % 2) (k / 2 % 640)] := by
  simp only [A.gnsStatus, A.pwrDomState, A.gnsSideBias, A.gnsSideChan, List.mem_cons, List.not_mem_nil, or_false]
  omega

/-- Refutes O34: the end of a wake halts the side that the wake names (`State.kaWakeEnd`), and the canonical form lets it name any
number. No command of the module wakes a side 2 (`State.wakeSide`); the clause of KA_WAKE_END is of every canonical state. -/
theorem not_oscillatorRegisterFrames : ¬ Obligations.OscillatorRegisterFrames := by
  unfold Obligations.OscillatorRegisterFrames
  rintro ⟨-, -, -, -, -, -, -, -, -, -, -, -, -, -, -, wakeWrites, -⟩
  have canonical : strayWake.canonical = true := by decide +kernel
  have written : ((strayWake.advance 0).kaWakeEnd []).rd (A.gnsSideBias 2) ≠ strayWake.rd (A.gnsSideBias 2) := by decide +kernel
  exact written (wakeWrites 0 [] strayWake _ _ canonical rfl gnsSideBias_notMem_wakeWords)

end Sys2Proof.Machine
end

section
/-!
SUPPORT. The frames of parts of the oscillators, their models, holdover and the cartridge (R101 to R128).
-/

set_option Elab.async false

namespace Sys2Proof.Machine

/-! ### More single fields of the state -/

theorem PartFrame.hol (s : State) (x : Hol) : PartFrame [.hol] s { s with hol := x } := by
  intro p n; cases p <;> simp_all [Part.eq, Part.same]
theorem PartFrame.gnss (s : State) (x : Gnss) : PartFrame [.gnss] s { s with gnss := x } := by
  intro p n; cases p <;> simp_all [Part.eq, Part.same]
theorem PartFrame.ttu (s : State) (x : Ttu) : PartFrame [.ttu] s { s with ttu := x } := by
  intro p n; cases p <;> simp_all [Part.eq, Part.same]
theorem PartFrame.boot (s : State) (x : Boot) : PartFrame [.boot] s { s with boot := x } := by
  intro p n; cases p <;> simp_all [Part.eq, Part.same]

/-- The timescale and the oscillators, changed at once. -/
theorem PartFrame.ts_hol (s : State) (x : Timescale) (y : Hol) : PartFrame [.hol, .ts] s { s with ts := x, hol := y } :=
  (PartFrame.ts s x).andThen (.hol _ y)
/-- The same with the references. -/
theorem PartFrame.ts_refs_hol (s : State) (x : Timescale) (y : Refs) (z : Hol) :
    PartFrame [.refs, .hol, .ts] s { s with ts := x, refs := y, hol := z } := (PartFrame.ts_hol s x z).andThen (.refs _ y)

theorem PartFrame.setHol (s : State) (f : Hol → Hol) : PartFrame [.hol] s (s.setHol f) := .hol s _

/-- One operation more where a condition holds. -/
theorem PartFrame.stepWhen {l m : List Part} {s t : State} {c : Bool} {g : State → State} (h : PartFrame l s t)
    (k : PartFrame m t (g t)) (hm : m ⊆ l := by decide) : PartFrame l s (t.when c g) := .step h (.when k) hm

/-! ### Samples and fits (R106 to R109) -/

theorem PartFrame.putModel (s : State) (cart : Bool) (p : List Word) : PartFrame [.regs] s (s.putModel cart p) :=
  .each (fun _ t => .wr t _ _) _ s

theorem PartFrame.showValid (s : State) (cart was now : Bool) : PartFrame reportParts s (s.showValid cart was now) :=
  .stepWhen (.stepWhen (.mono (.setBit s _ _ _)) (.raise _ _ _)) (.raise _ _ _)

theorem PartFrame.putFit (s : State) (cart : Bool) (flags : Nat) (w : List Word) : PartFrame reportParts s (s.putFit cart flags w) :=
  .step (.mono (.putModel s cart _)) (.showValid _ _ _ _)

theorem PartFrame.refit (s : State) (cart : Bool) : PartFrame reportParts s (s.refit cart) := by
  unfold State.refit
  dsimp only
  exact .ite (.when (.putFit s cart _ _)) (.ite (.putFit s cart _ _) (.putFit s cart _ _))

/-- Each model is refitted, the cartridge's where one is fitted (R107). -/
theorem PartFrame.refits (s : State) :
    PartFrame reportParts s ((s.refit false).when (decide (s.cartState ≠ 0)) (fun u => u.refit true)) :=
  .stepWhen (.refit s false) (.refit _ true)

theorem PartFrame.newInterval (s : State) : PartFrame [.hol] s s.newInterval := .setHol s _

theorem PartFrame.cisternModels (s : State) : PartFrame [.hol] s s.cisternModels := .setHol s _

theorem PartFrame.modelSample (s : State) : PartFrame (.hol :: reportParts) s s.modelSample := by
  unfold State.modelSample
  refine .ite (.mono (.newInterval s)) ?_
  exact .step (.stepWhen (.step (.mono (.setHol s _)) (.newInterval _)) (.refits _)) (.cisternModels _)

theorem PartFrame.modelSampleAt (s : State) : PartFrame (.hol :: reportParts) s s.modelSampleAt := by
  unfold State.modelSampleAt
  exact .ite (.modelSample s) (.refl _ s)

theorem PartFrame.writeModelBlock (s : State) : PartFrame [.hol, .out] s s.writeModelBlock := (PartFrame.setHol s _).andThen (.emit _ _)

theorem PartFrame.modelFlash (s : State) : PartFrame [.hol, .out] s s.modelFlash :=
  .stepWhen (.mono (.setHol s _)) (.writeModelBlock _)

/-! ### Holdover and its anchor (R21, R52, R110 to R112) -/

/-- The parts that holdover and its anchor may change. -/
abbrev holdParts : List Part := [.regs, .totals, .celen, .hif, .hol, .out, .ts]

theorem PartFrame.setFreq (s : State) (x : Int) : PartFrame reportParts s (s.setFreq x) :=
  .stepWhen (.mono (.wr s _ _)) (.raise _ _ _)

theorem PartFrame.holdSteer (s : State) : PartFrame reportParts s s.holdSteer := by
  unfold State.holdSteer
  split
  · exact .setFreq s _
  · exact .refl _ s

theorem PartFrame.showAnchor (s : State) : PartFrame [.regs] s s.showAnchor :=
  .trans (.trans (.trans (.trans (.trans (.wr s _ _) (.wr _ _ _)) (.wr _ _ _)) (.wr _ _ _)) (.wr _ _ _)) (.wr _ _ _)

theorem PartFrame.startHold (s : State) (a : Anchor) (keepUt : Nat) : PartFrame [.regs, .hol, .ts] s (s.startHold a keepUt) :=
  .step (.step (.mono (.ts_hol s _ _)) (.showAnchor _)) (.setHol _ _)

theorem PartFrame.reanchor (s : State) (inc : Nat) : PartFrame holdParts s (s.reanchor inc) := by
  unfold State.reanchor State.reanchorWith
  split
  · exact .step (.step (.mono (.startHold s _ _)) (.inc _ _)) (.raise _ _ _)
  · exact .refl _ s

theorem PartFrame.tempCheck (s : State) : PartFrame holdParts s s.tempCheck :=
  .stepWhen (.stepWhen (.mono (.setBit s _ _ _)) (.raise _ _ _)) (.reanchor _ _)

/-! ### The cartridge (R103 to R105, R118 to R121) -/

/-- The parts that a handover or a fault of the cartridge may change. -/
abbrev cartParts : List Part := [.regs, .totals, .journal, .celen, .hif, .refs, .hol, .out, .ts]

/-- What a handover changes besides registers: the loop's frequency state, the ticks before a planned one, the anchor (R103). -/
def State.handoverTerms (s : State) (toCart unplanned : Bool) : State :=
  let diff : Int := if s.rd A.holCartDiff = 0x80000000 then 0 else s.sf A.holCartDiff 0 32
  let d := if toCart then -s.cartDiff48 else s.cartDiff48
  let dy := if toCart then diff else -diff
  let t := s.setBit A.holStatus 0 toCart
  { t with
    refs := { t.refs with integ := t.refs.integ + d * integUnit }
    ts := { t.ts with freqHist := if unplanned then t.ts.freqHist
      else t.ts.freqHist.map (fun (h : Nat × Int × Int) => (h.1, h.2.1 + d, h.2.2)) }
    hol := { t.hol with
      anchor := t.hol.anchor.map (fun (a : Anchor) => { a with y := a.y + dy })
      keeperSum := { t.hol.keeperSum with good := false }
      cartSum := { t.hol.cartSum with good := false } } }

/-- The count, the event and the journal record of a handover (R103, R105). -/
def State.noteHandover (s : State) (toCart unplanned : Bool) : State :=
  ((s.inc A.holHandoverCount).raise A.holEvent 3).journalize 8 .module A.holStatus 0
    (le 1 (b2n (!toCart)) ++ le 1 (b2n toCart) ++ [Config.handoverCode unplanned] ++
      le 1 s.cartState)

/-- FREQ_CORR follows the handover, which is then noted. -/
def State.handoverNoted (s : State) (toCart unplanned : Bool) : State :=
  let t := s.handoverTerms toCart unplanned
  (t.setFreq (t.sf A.tscFreqCorr 0 32 + if toCart then -s.cartDiff48 else s.cartDiff48)).noteHandover toCart unplanned

/-- In HOLDOVER and LOST a handover ends with a re-anchoring (R112). -/
theorem handover_eq (s : State) (toCart unplanned : Bool) : s.handover toCart unplanned =
    let t := s.handoverNoted toCart unplanned
    t.when (decide (t.tscMode = 3) || decide (t.tscMode = 4)) (fun u => u.reanchor (if unplanned then 1000 else 200)) := rfl

theorem PartFrame.handoverTerms (s : State) (toCart unplanned : Bool) :
    PartFrame [.regs, .refs, .hol, .ts] s (s.handoverTerms toCart unplanned) :=
  .step (.mono (.setBit s A.holStatus 0 toCart)) (.ts_refs_hol _ _ _ _)

theorem PartFrame.noteHandover (s : State) (toCart unplanned : Bool) : PartFrame journalParts s (s.noteHandover toCart unplanned) :=
  .step (.step (.mono (.inc s _)) (.raise _ _ _)) (.journalize _ _ _ _ _ _)

theorem PartFrame.handover (s : State) (toCart unplanned : Bool) : PartFrame cartParts s (s.handover toCart unplanned) := by
  have noted : PartFrame cartParts s (s.handoverNoted toCart unplanned) :=
    .step (.step (.mono (.handoverTerms s _ _)) (.setFreq _ _)) (.noteHandover _ _ _)
  rw [handover_eq]
  exact .stepWhen noted (.reanchor _ _)

theorem PartFrame.setCart (s : State) (st : Nat) (limit : Option Nat) : PartFrame [.regs, .hol] s (s.setCart st limit) :=
  .step (.step (.mono (.sfW s _ _ _ _)) (.setHol _ _)) (.sfW _ _ _ _ _)

theorem PartFrame.setPd2 (s : State) (on : Bool) : PartFrame [.regs] s (s.setPd2 on) := .setBit s _ _ _

theorem PartFrame.cartUnpowered (s : State) : PartFrame [.regs] s s.cartUnpowered := .trans (.wr s _ _) (.wr _ _ _)

theorem PartFrame.cartFault (s : State) (reason : Nat) : PartFrame cartParts s (s.cartFault reason) := by
  have off : PartFrame cartParts s (s.when s.cartActive (fun t => t.handover false true)) := .when (.handover s _ _)
  exact .step (.step (.step (.step (.step (.step off (.setCart _ 7 none)) (.setPd2 _ false)) (.sfW _ _ _ _ _)) (.cartUnpowered _))
    (.setHol _ _)) (.raise _ _ _)

theorem PartFrame.cartPower (s : State) : PartFrame [.regs, .hol] s s.cartPower := .step (.mono (.setPd2 s true)) (.setCart _ 1 _)

theorem PartFrame.cartIdentify (s : State) (code rev serial : Nat) (b : Bytes) :
    PartFrame cartParts s (s.cartIdentify code rev serial b) := by
  have named : ∀ v, PartFrame cartParts s ((s.wr A.holCartId v).wr64 A.holCartSerialLo serial) := fun v =>
    .step (.mono (.wr s _ v)) (.wr64 _ _ _)
  unfold State.cartIdentify
  refine .ite (.step ?_ (.setCart _ _ _)) ((named _).trans (.cartFault _ _))
  refine .stepWhen (m := reportParts) (.step (named _) (.setHol _ _)) ?_
  exact .ite (.putFit _ _ _ _) (.putFit _ _ _ _)

theorem PartFrame.cartLoss (s : State) (opened : Bool) : PartFrame cartParts s (s.cartLoss opened) := by
  unfold State.cartLoss
  exact .ite (.ite (.handover s _ _) (.cartFault s _)) (.refl _ s)

theorem PartFrame.cartInsert (s : State) : PartFrame (.hol :: reportParts) s s.cartInsert := by
  unfold State.cartInsert
  exact .ite (.step (.mono (.cartPower s)) (.raise _ _ _)) (.refl _ s)

theorem PartFrame.cartRemove (s : State) : PartFrame cartParts s s.cartRemove := by
  have off : PartFrame cartParts s (s.when s.cartActive (fun t => t.handover false true)) := .when (.handover s _ _)
  unfold State.cartRemove
  refine .ite (.refl _ s) ?_
  exact .step (.step (.step (.step (.step (.step (.step off (.setPd2 _ false)) (.setCart _ 0 none)) (.cartUnpowered _)) (.wr _ _ _))
    (.setHol _ _)) (.inc _ _)) (.raise _ _ _)

theorem PartFrame.cartRead (s : State) (code rev serial : Nat) (b : Bytes) : PartFrame cartParts s (s.cartRead code rev serial b) := by
  unfold State.cartRead
  exact .ite (.cartIdentify s _ _ _ _) (.refl _ s)

theorem PartFrame.cartTimeout (s : State) (st reason : Nat) : PartFrame cartParts s (s.cartTimeout st reason) := by
  unfold State.cartTimeout
  exact .ite (.cartFault s _) (.refl _ s)

theorem PartFrame.cartStatus (s : State) (lock fault : Bool) : PartFrame cartParts s (s.cartStatus lock fault) := by
  unfold State.cartStatus
  exact .ite (.refl _ s) (.ite (.cartFault s _) (.ite (.mono (.setCart s _ _)) (.refl _ s)))

theorem PartFrame.cartMeasured (s : State) : PartFrame (.hol :: reportParts) s s.cartMeasured := by
  unfold State.cartMeasured
  exact .ite (.step (.mono (.setCart s _ _)) (.raise _ _ _)) (.refl _ s)

theorem PartFrame.cartOvercurrent (s : State) : PartFrame cartParts s s.cartOvercurrent := .when (.cartFault s _)

theorem PartFrame.cartPd2Off (s : State) : PartFrame [.regs, .hol] s s.cartPd2Off := by
  have released : PartFrame [.regs, .hol] s s.cartReleased :=
    .step (.step (.step (.mono (.setPd2 s false)) (.setCart _ 6 none)) (.cartUnpowered _)) (.setHol _ _)
  unfold State.cartPd2Off
  split
  · exact .ite released (.refl _ s)
  · exact .refl _ s

/-! ### Keep-alive mode (R123 to R125) -/

/-- The parts that a second of keep-alive mode may change. -/
abbrev keepAliveParts : List Part := .journal :: holdParts

theorem PartFrame.journalTsc (s : State) (old new : Nat) (amount : Int) (host : Bool) :
    PartFrame journalParts s (s.journalTsc old new amount host) := .journalize s _ _ _ _ _

theorem PartFrame.setMode (s : State) (m : Nat) : PartFrame (.journal :: .ts :: reportParts) s (s.setMode m) := by
  unfold State.setMode
  refine .ite (.refl _ s) ?_
  exact .step (.step (.step (.step (.mono (.sfW s _ _ _ _)) (.ts _ _)) (.sfW _ _ _ _ _)) (.raise _ _ _)) (.journalTsc _ _ _ _ _)

theorem PartFrame.modeTick (s : State) : PartFrame (.journal :: .ts :: reportParts) s s.modeTick := by
  unfold State.modeTick
  refine .ite (.when (.step (.setMode s 4) (.raise _ _ _))) (.ite (.refl _ s) (.ite (.ite ?_ (.mono (.ts s _))) (.ite (.when (.setMode s 1))
    (.refl _ s))))
  split
  · exact .mono (.ts s _)
  · exact .when (.setMode s 2)

theorem PartFrame.showElapsed (s : State) : PartFrame [.regs] s s.showElapsed := .when (.wr s _ _)

theorem PartFrame.sense (s : State) (m : TickMeas) (second : Bool) : PartFrame [.regs] s (s.sense m second) :=
  .stepWhen (.trans (.trans (.wr s _ _) (.wr _ _ _)) (.setBit _ _ _ _)) (.wr _ _ _)

theorem PartFrame.cisternSecond (s : State) : PartFrame keepAliveParts s s.cisternSecond := by
  unfold State.cisternSecond
  split
  · exact .refl _ s
  · exact .step (.step (.mono (.when (.holdSteer s))) (.ts _ _)) (.setHol _ _)

theorem PartFrame.kaTick (s : State) (tk : Int) (tc : Option Int) : PartFrame keepAliveParts s (s.kaTick tk tc) := by
  unfold State.kaTick
  refine .ite (.cisternSecond s) ?_
  have held : ∀ m c, PartFrame keepAliveParts s ((s.sense m false).when c (fun t => t.tempCheck.holdSteer)) := fun m c =>
    .stepWhen (.mono (.sense s m _)) (.step (.tempCheck _) (.holdSteer _))
  exact .step (.step (.step (.step (held _ _) (.ts _ _)) (.modeTick _)) (.showElapsed _)) (.setHol _ _)

theorem PartFrame.kaSecond (s : State) (tk : Int) (tc : Option Int) : PartFrame keepAliveParts s (s.kaSecond tk tc) := by
  unfold State.kaSecond
  exact .ite (.kaTick s _ _) (.refl _ s)

end Sys2Proof.Machine
end

section
/-!
SUPPORT. The frames of parts of the GNSS sides (R129 to R159).
-/

set_option Elab.async false

namespace Sys2Proof.Machine

/-! ### Channels, starts and wakes (R131 to R134, R152, R153, R488) -/

/-- The parts that an event of a side may change. -/
abbrev sideParts : List Part := .gnss :: reportParts

theorem PartFrame.setSide (s : State) (a : Nat) (f : GnssSide → GnssSide) : PartFrame [.gnss] s (s.setSide a f) := .gnss s _

theorem PartFrame.setLoop (s : State) (a c : Nat) (l : ChanLoop) : PartFrame [.gnss] s (s.setLoop a c l) := .setSide s a _

theorem PartFrame.freeChan (s : State) (a c : Nat) : PartFrame [.regs, .gnss] s (s.freeChan a c) :=
  .step (.step (.step (.step (.mono (.wr s _ _)) (.wr _ _ _)) (.wr _ _ _)) (.wr _ _ _)) (.setLoop _ a c _)

theorem PartFrame.freeChans (s : State) (a : Nat) : PartFrame [.regs, .gnss] s (s.freeChans a) := .each (fun _ t => .freeChan t a _) _ s

theorem PartFrame.takeChan (s : State) (a : Nat) (o : SkyObs) : PartFrame [.regs, .gnss] s (s.takeChan a o) := by
  unfold State.takeChan
  split
  · exact .refl _ s
  · exact .step (.step (.freeChan s a _) (.wr _ _ _)) (.wr _ _ _)

theorem PartFrame.allocate (s : State) (a : Nat) (sky : List SkyObs) : PartFrame [.regs, .gnss] s (s.allocate a sky) :=
  .trans (.each (fun _ u => .freeChan u a _) _ s) (.each (fun _ u => .ite (.refl _ u) (.takeChan u a _)) _ _)

theorem PartFrame.lossOfLock (s : State) (a c : Nat) : PartFrame [.regs, .gnss] s (s.lossOfLock a c) := by
  unfold State.lossOfLock
  split
  · refine .ite (.step (.step (.step (.mono (.sfW s _ _ _ _)) (.sfW _ _ _ _ _)) (.sfW _ _ _ _ _)) (.setLoop _ a c _)) (.refl _ s)
  · exact .refl _ s

theorem PartFrame.signalAcquired (s : State) (a c cn0 st : Nat) : PartFrame [.regs, .gnss] s (s.signalAcquired a c cn0 st) := by
  unfold State.signalAcquired
  exact .ite (.step (.step (.mono (.sfW s _ _ _ _)) (.sfW _ _ _ _ _)) (.setLoop _ a c _)) (.refl _ s)

theorem PartFrame.biasOn (s : State) (a : Nat) (on : Bool) : PartFrame [.regs, .gnss] s (s.biasOn a on) :=
  .step (.mono (.wr s _ _)) (.setSide _ a _)

theorem PartFrame.startSide (s : State) (a : Nat) : PartFrame [.regs, .gnss] s (s.startSide a) :=
  .step (.step (.step (.step (.mono (.setBit s _ _ _)) (.sfW _ _ _ _ _)) (.freeChans _ a)) (.setSide _ a _)) (.biasOn _ a true)

theorem PartFrame.haltSide (s : State) (a : Nat) : PartFrame [.regs, .gnss] s (s.haltSide a) :=
  .step (.step (.mono (.setBit s _ _ _)) (.freeChans _ a)) (.biasOn _ a false)

theorem PartFrame.writeHotStart (s : State) : PartFrame [.gnss] s s.writeHotStart := .gnss s _

theorem PartFrame.hotStartDue (s : State) : PartFrame [.gnss] s s.hotStartDue := by
  unfold State.hotStartDue
  exact .ite (.trans (.writeHotStart s) (.gnss _ _)) (.refl _ s)

theorem PartFrame.kaWake (s : State) : PartFrame [.regs, .hol, .gnss] s s.kaWake := by
  have powered : ∀ t : State, PartFrame [.regs, .hol, .gnss] t
      (((t.setBit A.pwrDomState 3 (s.wakeSide = 0)).setBit A.pwrDomState 4 (s.wakeSide = 1)).setBit A.pwrDomState 5 true) := fun t =>
    .mono (.trans (.trans (.setBit t _ _ _) (.setBit _ _ _ _)) (.setBit _ _ _ _))
  unfold State.kaWake
  refine .ite ?_ (.refl _ s)
  exact .step (.step (.trans (.mono (.setHol s _)) (powered _)) (.gnss _ _)) (.startSide _ _)

theorem PartFrame.kaWakeEnd (s : State) (sky : List SkyObs) : PartFrame [.regs, .gnss] s (s.kaWakeEnd sky) := by
  unfold State.kaWakeEnd
  split
  · refine .ite ?_ (.refl _ s)
    exact .step (.step (.step (.step (.step (.mono (.writeHotStart s)) (.haltSide _ _)) (.gnss _ _)) (.setBit _ _ _ _)) (.setBit _ _ _ _))
      (.setBit _ _ _ _)
  · exact .refl _ s

theorem PartFrame.gnssLoad (s : State) (a : Nat) (startOk : Bool) :
    PartFrame (.gnss :: journalParts) s (s.gnssLoad a startOk) :=
  .step (.step (.mono (.setSide s a _)) (.journalize _ _ _ _ _ _)) (.startSide _ a)

/-! ### Alarms and exclusions (R148 to R150) -/

/-- The parts that a solution with its checks may change. -/
abbrev solutionParts : List Part := [.regs, .totals, .celen, .hif, .refs, .gnss, .out]

theorem PartFrame.exclude (s : State) (a : Nat) (const : Bool) (key check : Nat) : PartFrame sideParts s (s.exclude a const key check) := by
  unfold State.exclude
  exact .ite (.refl _ s) (.step (.step (.mono (.setSide s a _)) (.inc _ _)) (.raise _ _ _))

theorem PartFrame.snapQualify (s : State) (kind : Nat) : PartFrame [.gnss] s (s.snapQualify kind) := by
  unfold State.snapQualify
  exact .ite (.gnss s _) (.refl _ s)

theorem PartFrame.alarm (s : State) (a check : Nat) : PartFrame solutionParts s (s.alarm a check) := by
  have tripped : ∀ f, PartFrame solutionParts s (s.setSide a f) := fun f => .mono (.setSide s a f)
  unfold State.alarm
  refine .ite (tripped _) (.step (.stepWhen ?_ (.setRef _ _ _)) (.snapQualify _ 1))
  exact .step (.step (.step (.step (tripped _) (.setSide _ a _)) (.setBit _ _ _ _)) (.inc _ _)) (.raise _ _ _)

theorem PartFrame.tripped (s : State) (a check persist : Nat) (trip : Bool) :
    PartFrame solutionParts s (s.tripped a check persist trip) := by
  unfold State.tripped
  exact .ite (.stepWhen (.mono (.setSide s a _)) (.alarm _ a check)) (.mono (.setSide s a _))

theorem PartFrame.svTripped (s : State) (a check persist : Nat) (keys : List Nat) :
    PartFrame sideParts s (s.svTripped a check persist keys) :=
  .trans (.mono (.setSide s a _)) (.each (fun _ u => .exclude u a _ _ _) _ _)

theorem PartFrame.alarmClear (s : State) (a check : Nat) : PartFrame sideParts s (s.alarmClear a check) := by
  unfold State.alarmClear
  exact .ite (.step (.step (.mono (.setSide s a _)) (.setBit _ _ _ _)) (.raise _ _ _)) (.refl _ s)

theorem PartFrame.exclEnd (s : State) (a : Nat) (const : Bool) (key check : Nat) : PartFrame sideParts s (s.exclEnd a const key check) := by
  unfold State.exclEnd
  split
  · exact .refl _ s
  · exact .ite (.stepWhen (.mono (.setSide s a _)) (.exclude _ a _ _ _)) (.refl _ s)

theorem PartFrame.xcon (s : State) (a : Nat) (l : List (Option Int)) : PartFrame solutionParts s (s.xcon a l) := by
  have counted : ∀ f, PartFrame solutionParts s (s.setSide a f) := fun f => .mono (.setSide s a f)
  unfold State.xcon
  exact .ite (counted _) (.ite (.step (counted _) (.exclude _ a _ _ _)) (.trans (counted _) (.alarm _ a 1)))

theorem PartFrame.xant (s : State) : PartFrame solutionParts s s.xant := by
  unfold State.xant
  split
  · exact .ite (.trans (.tripped s _ _ _ _) (.tripped _ _ _ _ _)) (.refl _ s)
  · exact .refl _ s

theorem PartFrame.dirCheck (s : State) (l : List (Nat × Nat × Nat × Nat)) : PartFrame solutionParts s (s.dirCheck l) :=
  .trans (.tripped s _ _ _ _) (.tripped _ _ _ _ _)

theorem PartFrame.pairChecks (s : State) (l : List (Nat × Nat × Nat × Nat)) : PartFrame solutionParts s (s.pairChecks l) := by
  unfold State.pairChecks
  exact .ite (.trans (.xant s) (.dirCheck _ l)) (.refl _ s)

theorem PartFrame.jumpDiscard (s : State) (a : Nat) : PartFrame solutionParts s (s.jumpDiscard a) :=
  .stepWhen (.mono (.setSide s a _)) (.alarm _ a 5)

/-! ### Solutions (R139 to R144) -/

theorem PartFrame.takeObs (s : State) (a : Nat) (l : List ChanObs) : PartFrame [.gnss] s (s.takeObs a l) :=
  .each (fun _ t => .setLoop t a _ _) _ s

theorem PartFrame.runChecks (s : State) (a epoch : Nat) (l : List Ranging) (e : Epoch) :
    PartFrame solutionParts s (s.runChecks a epoch l e) := by
  have satellites : ∀ (t : State) (c : Bool) (check persist : Nat) (keys : List Nat),
      PartFrame solutionParts t (t.when c (fun u => u.svTripped a check persist keys)) := fun t _ _ _ _ =>
    .when (.mono (.svTripped t a _ _ _))
  unfold State.runChecks
  extract_lets tol iono x t₁ t₂ t₃ t₄ high now old t₅
  have consistent : PartFrame solutionParts s t₃ := .trans (.trans (satellites s _ _ _ _) (satellites _ _ _ _ _)) (.xcon _ a _)
  have placed : PartFrame solutionParts t₃ t₄ := by
    dsimp only [t₄]
    split
    · exact .tripped t₃ a _ _ _
    · exact .refl _ t₃
  exact .step (.trans (.trans consistent placed) (.tripped _ a _ _ _)) (.setSide _ a _)

theorem PartFrame.showInhibit (s : State) : PartFrame [.regs] s s.showInhibit := .each (fun _ t => .setBit t _ _ _) _ s

theorem PartFrame.putChan (s : State) (a : Nat) (e : Epoch) (r : Ranging) : PartFrame [.regs] s (s.putChan a e r) :=
  .trans (.trans (.trans (.trans (.trans (.sfW s _ _ _ _) (.sfW _ _ _ _ _)) (.sfW _ _ _ _ _)) (.wr _ _ _)) (.wr _ _ _)) (.wr _ _ _)

theorem PartFrame.showSurvey (s : State) (a : Nat) (v : Survey) : PartFrame [.regs] s (s.showSurvey a v) :=
  .trans (.trans (.sfW s _ _ _ _) (.sfW _ _ _ _ _)) (.wr _ _ _)

theorem PartFrame.surveyEpoch (s : State) (a : Nat) (p : Option (Int × Int × Int)) (ionoFree : Bool) :
    PartFrame [.regs, .gnss] s (s.surveyEpoch a p ionoFree) := by
  unfold State.surveyEpoch
  split
  · exact .ite (.refl _ s) (.step (.mono (.setSide s a _)) (.showSurvey _ a _))
  · exact .refl _ s

theorem PartFrame.putSolution (s : State) (a : Nat) (e : Epoch) (x : GnssFix) (theta : Int) :
    PartFrame [.gnss] s (s.putSolution a e x theta) := .setSide s a _

theorem PartFrame.deliver (s : State) (i : Nat) (theta : Int) : PartFrame [.refs] s (s.deliver i theta) := .setRef s i _

theorem PartFrame.solveLatched (s : State) (a : Nat) (m : GnssSolution) (la : GnssLatch) :
    PartFrame solutionParts s (s.solveLatched a m la) := by
  unfold State.solveLatched
  extract_lets t l e theta jump u₁ u₂ u₃ u₄ u₅ u₆
  have taken : PartFrame solutionParts s t := .step (.mono (.setSide s a _)) (.takeObs _ a m.obs)
  have checked : PartFrame solutionParts s u₃ :=
    .trans (.step (.step (.trans taken (.runChecks t a _ l e)) (.setSide _ a _)) (.showInhibit _)) (.pairChecks _ m.dir)
  have shown : PartFrame solutionParts s u₆ :=
    .step (.step (.step (.step checked (.each (fun r v => .putChan v a e r) l _)) (.sfW _ _ _ _ _)) (.sfW _ _ _ _ _))
      (.surveyEpoch _ a _ _)
  refine .ite (.stepWhen (.step shown (.inc _ _)) (.jumpDiscard _ a)) ?_
  split
  · exact .ite shown (.stepWhen (.step (.step shown (.putSolution _ a e _ _)) (.inc _ _)) (.deliver _ a _))
  · exact shown

theorem PartFrame.solutionDone (s : State) (a : Nat) (m : GnssSolution) : PartFrame solutionParts s (s.solutionDone a m) := by
  have allocated : PartFrame solutionParts s (s.allocate a m.sky) := .mono (.allocate s a _)
  unfold State.solutionDone
  refine .ite ?_ (.refl _ s)
  dsimp only
  split
  · exact .ite (.trans allocated (.solveLatched _ a m _)) allocated
  · exact allocated

/-! ### Surveys (R145, R146) -/

theorem PartFrame.surveyRecord (s : State) (a : Nat) (v : Survey) (phase status progress : Nat) :
    PartFrame [.out] s (s.surveyRecord a v phase status progress) :=
  .when (.trans (.when (.hostWrite s _ _)) (.hostWrite _ _ _))

theorem PartFrame.endSurvey (s : State) (a status : Nat) : PartFrame sideParts s (s.endSurvey a status) := by
  unfold State.endSurvey
  split
  · exact .refl _ s
  · exact .step (.step (.step (.mono (.surveyRecord s a _ _ _ _)) (.setSide _ a _)) (.sfW _ _ _ _ _)) (.raise _ _ _)

theorem PartFrame.putPosition (s : State) (a : Nat) (p : Int × Int × Int) (sigma : Nat) (fixed : Bool) :
    PartFrame [.regs, .gnss] s (s.putPosition a p sigma fixed) :=
  .step (.mono (.trans (.trans (.trans (.trans (.trans (.wr s _ _) (.wr _ _ _)) (.wr _ _ _)) (.wr _ _ _)) (.setBit _ _ _ _))
    (.setBit _ _ _ _))) (.setSide _ a _)

theorem PartFrame.surveyReport (s : State) (a : Nat) : PartFrame [.gnss, .out] s (s.surveyReport a) := by
  unfold State.surveyReport
  split
  · exact .refl _ s
  · exact .ite ((PartFrame.surveyRecord s a _ _ _ _).andThen (.setSide _ a _)) (.refl _ s)

theorem PartFrame.surveyComplete (s : State) (a : Nat) : PartFrame sideParts s (s.surveyComplete a) := by
  unfold State.surveyComplete
  split
  · exact .refl _ s
  · split
    · exact .ite (.step (.step (.endSurvey s a 0) (.putPosition _ a _ _ _)) (.writeHotStart _)) (.refl _ s)
    · exact .refl _ s

theorem PartFrame.surveyEnds (s : State) (a : Nat) : PartFrame (.boot :: sideParts) s (s.surveyEnds a) := by
  unfold State.surveyEnds
  exact .ite ((PartFrame.surveyComplete s a).andThen (.boot _ _)) (.mono (.surveyComplete s a))

theorem PartFrame.surveyTimeout (s : State) (a : Nat) : PartFrame sideParts s (s.surveyTimeout a) := by
  unfold State.surveyTimeout
  split
  · exact .refl _ s
  · exact .ite (.endSurvey s a _) (.refl _ s)

/-! ### Snapshots and replay (R154 to R156) -/

theorem PartFrame.setSnap (s : State) (st : Nat) : PartFrame [.regs] s (s.setSnap st) := .trans (.sfW s _ _ _ _) (.sfW _ _ _ _ _)

theorem PartFrame.snapTrigger (s : State) : PartFrame [.regs, .gnss] s s.snapTrigger := by
  have captured : ∀ x, PartFrame [.regs, .gnss] s (({ s with gnss := x } : State).setSnap 2) := fun x =>
    (PartFrame.gnss s x).andThen (.setSnap _ 2)
  unfold State.snapTrigger
  refine .ite (.refl _ s) (.ite (.ite (captured _) (.refl _ s)) ?_)
  split
  · exact captured _
  · exact .refl _ s

theorem PartFrame.checkHeader (s : State) : PartFrame [.regs] s s.checkHeader := by
  unfold State.checkHeader
  exact .ite (.trans (.trans (.setBit s _ _ _) (.sfW _ _ _ _ _)) (.sfW _ _ _ _ _)) (.setBit s _ _ _)

theorem PartFrame.snapFinish (s : State) (trigger ms st : Nat) : PartFrame sideParts s (s.snapFinish trigger ms st) := by
  have written : ∀ x y, PartFrame sideParts s ({ ({ s with gnss := x } : State) with gnss := y } : State) := fun x _ =>
    .mono (.trans (.gnss s x) (.gnss _ _))
  unfold State.snapFinish
  exact .step (.step (.step (.step (.step (written _ _) (.setSnap _ st)) (.sfW _ _ _ _ _)) (.sfW _ _ _ _ _)) (.checkHeader _))
    (.raise _ _ _)

theorem PartFrame.snapCaptureEnd (s : State) : PartFrame sideParts s s.snapCaptureEnd := by
  unfold State.snapCaptureEnd
  split
  · exact .ite (.snapFinish s _ _ _) (.refl _ s)
  · exact .refl _ s

theorem PartFrame.replayDue (s : State) (a : Nat) : PartFrame [.regs, .gnss] s (s.replayDue a) := by
  have stopped : PartFrame [.regs, .gnss] s (s.replayStop a) := by
    unfold State.replayStop
    refine .ite ?_ (.refl _ s)
    exact .trans (.step (.step (.mono (.setBit s _ _ _)) (.setBit _ _ _ _)) (.gnss _ _)) (.startSide _ a)
  unfold State.replayDue
  split
  · exact .ite stopped (.refl _ s)
  · exact .refl _ s

/-! ### Interference and bias (R151, R152) -/

theorem PartFrame.biasCurrent (s : State) (a ma : Nat) : PartFrame sideParts s (s.biasCurrent a ma) := by
  unfold State.biasCurrent
  exact .ite (.step (.step (.mono (.wr s _ _)) (.setSide _ a _)) (.raise _ _ _)) (.step (.mono (.wr s _ _)) (.setSide _ a _))

theorem PartFrame.biasShort (s : State) (a ma : Nat) : PartFrame sideParts s (s.biasShort a ma) := .when (.biasCurrent s a ma)

theorem PartFrame.biasRetry (s : State) (a ma : Nat) : PartFrame sideParts s (s.biasRetry a ma) := by
  unfold State.biasRetry
  split
  · exact .ite (.biasCurrent s a ma) (.refl _ s)
  · exact .refl _ s

theorem PartFrame.spectrum (s : State) (a band : Nat) (o : RfiObs) : PartFrame sideParts s (s.spectrum a band o) := by
  have jamming : ∀ t : State, PartFrame sideParts t ((t.raise (A.gnsSideEvent a) 5).snapQualify 2) := fun t =>
    .step (.mono (.raise t _ _)) (.snapQualify _ 2)
  unfold State.spectrum
  extract_lets thr strong old mine kept fresh now t₀ moved t₁ t₂ rf t₃ jam t₄ t₅
  have noted : PartFrame sideParts s t₁ := .stepWhen (.mono (.setSide s a _)) (.raise _ _ _)
  have seen : PartFrame sideParts s t₃ := .step (.step (.step noted (.sfW _ _ _ _ _)) (.sfW _ _ _ _ _)) (.wr _ _ _)
  have heard : PartFrame sideParts s t₅ := .step (.stepWhen seen (jamming _)) (.setSide _ a _)
  exact .stepWhen heard (.biasCurrent _ a _)

/-! ### Navigation messages (R136 to R138) -/

theorem PartFrame.calDrop (s : State) (action target : Nat) : PartFrame [.regs, .ts] s (s.calDrop action target) :=
  (PartFrame.ts s _).andThen (.calUsed _)

theorem PartFrame.leapsChanged (s : State) : PartFrame (.ts :: reportParts) s s.leapsChanged := by
  have rebuilt : PartFrame [.regs, .ts] s s.rebuildLeaps := .trans (.calDrop s _ _) (.each (fun _ u => .calPut u _ _) _ _)
  exact .step (.mono rebuilt) (.refreshLeap _)

theorem PartFrame.learnLeap (s : State) (sec : Nat) (offset : Int) (source : Nat) :
    PartFrame (.ts :: journalParts) s (s.learnLeap sec offset source) := by
  have listed : ∀ i e, PartFrame [.regs] s (s.putLearnt i e) := fun _ _ => .trans (.trans (.wr s _ _) (.wr _ _ _)) (.wr _ _ _)
  have conflict : ∀ t : State, PartFrame journalParts t t.leapConflict := fun t =>
    .step (.mono (.raise t _ _)) (.journalTsc _ _ _ _ _)
  unfold State.learnLeap
  refine .ite (.step (m := .ts :: reportParts) ?_ (.leapsChanged _)) (.refl _ s)
  exact .stepWhen (.mono (listed _ _)) (conflict _)

/-- The parts that a navigation message may change. -/
abbrev navParts : List Part := .gnss :: .ts :: journalParts

theorem PartFrame.leapVote (s : State) (key sec : Nat) (offset : Int) : PartFrame navParts s (s.leapVote key sec offset) :=
  .stepWhen (.mono (.gnss s _)) (PartFrame.andThen (n := .ts :: journalParts) (.learnLeap _ sec offset 1) (.raise _ _ _))

theorem PartFrame.learnNav (s : State) (a : Nat) (m : NavMessage) : PartFrame navParts s (s.learnNav a m) := by
  have learnt : ∀ f, PartFrame navParts s (s.setSide a f) := fun f => .mono (.setSide s a f)
  unfold State.learnNav
  dsimp only
  split
  · exact .ite (learnt _) (.trans (learnt _) (.leapVote _ _ _ _))
  · exact learnt _

theorem PartFrame.ringDrop (s : State) (n : Nat) : PartFrame [.regs, .totals, .hif, .out] s (s.ringDrop n) := by
  have counted : ∀ f, PartFrame [.regs, .totals, .hif, .out] s ((s.inc (A.hifRingDrop n)).setRing n f) := fun f =>
    .step (.mono (.inc s _)) (.setRing _ n f)
  exact .ite (.step (.step (counted _) (.setRing _ n _)) (.postEvent _ _ _ _ _ _)) (counted _)

theorem PartFrame.recordOrDrop (s : State) (n source : Nat) (d : Bytes) :
    PartFrame [.regs, .totals, .hif, .out] s (s.recordOrDrop n source d).1 := by
  unfold State.recordOrDrop
  exact .ite1 (.ite1 (.mono (.putRecord s n d)) (.trans (.mono (.putRecord s n d)) (.ringDrop _ n))) (.ringDrop s n)

theorem PartFrame.navMessage (s : State) (a : Nat) (m : NavMessage) : PartFrame navParts s (s.navMessage a m) := by
  unfold State.navMessage
  split
  · refine .ite ?_ (.refl _ s)
    extract_lets pass t q
    have learnt : PartFrame navParts s t := .stepWhen (.mono (.when (.inc s _))) (.learnNav _ a m)
    have recorded : PartFrame navParts s q.1 := .step learnt (.recordOrDrop t _ _ _)
    exact .ite (.ite (.step recorded (.inc _ _)) (.step (.step recorded (.inc _ _)) (.raise _ _ _))) learnt
  · exact .refl _ s

end Sys2Proof.Machine
end

section
/-!
SUPPORT. The frames of parts of the time tags (R160 to R182), and O33.
-/

set_option Elab.async false

namespace Sys2Proof.Machine

/-! ### Records and programs (R168 to R177) -/

/-- The parts that a measurement program may change. -/
abbrev progParts : List Part := .ttu :: reportParts

theorem PartFrame.setChan (s : State) (c : Nat) (f : TtuCh → TtuCh) : PartFrame [.ttu] s (s.setChan c f) := .ttu s _

theorem PartFrame.setProg (s : State) (p : Nat) (f : Prog → Prog) : PartFrame [.ttu] s (s.setProg p f) := .ttu s _

theorem PartFrame.drainFifo (s : State) : PartFrame [.ttu] s s.drainFifo := .ttu s _

theorem PartFrame.bufferTag (s : State) (d : Bytes) : PartFrame progParts s (s.bufferTag d) := by
  unfold State.bufferTag
  split
  · exact .ite (.mono (.ttu s _)) (.step (.step (.step (.mono (.ttu s _)) (.setChan _ _ _)) (.inc _ _)) (.raise _ _ _))
  · exact .mono (.ttu s _)

theorem PartFrame.storeTag (s : State) (c : Nat) (d : Bytes) : PartFrame progParts s (s.storeTag c d) := by
  have drained : PartFrame progParts s s.drainFifo := .mono (.drainFifo s)
  unfold State.storeTag
  refine .ite (.step (.step (.step drained (.setChan _ c _)) (.inc _ _)) (.raise _ _ _)) ?_
  exact .step (.trans (.step drained (.ttu _ _)) (.bufferTag _ d)) (.setChan _ c _)

theorem PartFrame.forwardOne (s : State) (n source : Nat) (d : Bytes) : PartFrame [.regs, .hif, .out] s (s.forwardOne n source d).1 := by
  unfold State.forwardOne
  exact .ite1 (.putRecord s n d) (.refl _ s)

theorem PartFrame.forwardTags (s : State) : PartFrame [.regs, .hif, .ttu, .out] s s.forwardTags := by
  unfold State.forwardTags
  refine .ite (.refl _ s) (.foldl (fun t d => ?_) _ s)
  refine .ite ?_ (.refl _ t)
  extract_lets c fl d2 q
  have forwarded : PartFrame [.regs, .hif, .ttu, .out] t q.1 := .mono (.forwardOne t _ _ _)
  exact .ite (.step (.step forwarded (.ttu _ _)) (.setChan _ c _)) forwarded

theorem PartFrame.forwardMeas (s : State) : PartFrame [.regs, .hif, .ttu, .out] s s.forwardMeas := by
  unfold State.forwardMeas
  refine .ite (.refl _ s) (.foldl (fun t d => ?_) _ s)
  have forwarded : ∀ n, PartFrame [.regs, .hif, .ttu, .out] t (t.forwardOne n 2 d).1 := fun n => .mono (.forwardOne t n 2 d)
  exact .ite (.ite (.step (forwarded _) (.ttu _ _)) (forwarded _)) (.refl _ t)

theorem PartFrame.closeRecord (s : State) (p : Nat) (d : Nat → Bytes) : PartFrame [.ttu] s (s.closeRecord p d) := .setProg s p _

theorem PartFrame.closeMeas (s : State) (p : Nat) (m : Meas) (close : Nat) : PartFrame [.ttu] s (s.closeMeas p m close) :=
  .closeRecord s p _

theorem PartFrame.showProg (s : State) (p : Nat) : PartFrame [.regs] s (s.showProg p) := .sfW s _ _ _ _

theorem PartFrame.mpAge (s : State) (p : Nat) (now : Int) : PartFrame [.regs, .totals, .ttu] s (s.mpAge p now) := by
  unfold State.mpAge
  extract_lets x e ended t₁ t₂ old stray t₃
  have closed : PartFrame [.regs, .totals, .ttu] s t₂ := .mono (.trans (.setProg s p _) (.each (fun m u => .closeMeas u p m _) ended _))
  have aged : PartFrame [.regs, .totals, .ttu] s t₃ := .step closed (.setProg t₂ p _)
  exact .step (.stepWhen aged (.count t₃ _ _)) (.showProg _ p)

theorem PartFrame.mpStop (s : State) (p : Nat) (g : Tag) : PartFrame [.regs, .totals, .ttu] s (s.mpStop p g) := by
  unfold State.mpStop
  extract_lets x last inWin excess add now filled t₁ t₂
  have closed : PartFrame [.regs, .totals, .ttu] s t₂ := .mono (.trans (.setProg s p _) (.each (fun m u => .closeMeas u p m 2) filled _))
  exact .stepWhen closed (.count t₂ _ _)

theorem PartFrame.mpOpen (s : State) (p : Nat) (g : Tag) (calChanged : Bool) : PartFrame progParts s (s.mpOpen p g calChanged) := by
  unfold State.mpOpen
  exact .ite (.step (.mono (.inc s _)) (.raise _ _ _)) (.stepWhen (.mono (.setProg s p _)) (.closeMeas _ p _ 2))

theorem PartFrame.mpGate (s : State) (p : Nat) (g : Tag) (calChanged : Bool) : PartFrame [.ttu] s (s.mpGate p g calChanged) := by
  unfold State.mpGate
  dsimp only
  split <;> exact .setProg s p _

theorem PartFrame.mpMissing (s : State) (p : Nat) (missing : Bool) : PartFrame [.regs, .totals] s (s.mpMissing p missing) :=
  .when (.inc s _)

theorem PartFrame.closeGate (s : State) (p : Nat) : PartFrame [.regs, .totals, .ttu] s (s.closeGate p) :=
  .step (.mono (.trans (.closeRecord s p _) (.setProg _ p _))) (.mpMissing _ p _)

theorem PartFrame.closePhase (s : State) (p : Nat) : PartFrame [.regs, .totals, .ttu] s (s.closePhase p) :=
  .step (.mono (.trans (.closeRecord s p _) (.setProg _ p _))) (.mpMissing _ p _)

theorem PartFrame.measGateClose (s : State) (p : Nat) : PartFrame [.regs, .totals, .ttu] s (s.measGateClose p) := by
  unfold State.measGateClose
  exact .ite (.ite (.closeGate s p) (.closePhase s p)) (.refl _ s)

theorem PartFrame.measClose (s : State) (p : Nat) : PartFrame [.regs, .totals, .ttu] s (s.measClose p) := by
  unfold State.measClose
  exact .ite (.mpAge s p _) (.refl _ s)

theorem PartFrame.mpTag (s : State) (p : Nat) (g : Tag) (calChanged : Bool) : PartFrame progParts s (s.mpTag p g calChanged) := by
  unfold State.mpTag
  split
  · extract_lets t₁ t₂
    have stopped : PartFrame progParts s t₂ := .stepWhen (.mono (.mpAge s p _)) (.mpStop t₁ p g)
    exact .step (.stepWhen stopped (.mpOpen t₂ p g _)) (.showProg _ p)
  · exact .when (.mono (.mpGate s p g _))
  · exact .when (.mono (.setProg s p _))
  · exact .refl _ s

/-! ### Tags (R161 to R167) -/

/-- The parts that an edge may change: its channel, the programs, the reference and the cartridge on it. -/
abbrev edgeParts : List Part := .ttu :: cartParts

theorem PartFrame.ppsEdge (s : State) (i : Nat) (ps : Int) :
    PartFrame [.regs, .totals, .celen, .hif, .refs, .out] s (s.ppsEdge i ps) := by
  unfold State.ppsEdge
  split
  · exact .mono (.deliver s i _)
  · exact .lose s i

theorem PartFrame.tagReference (s : State) (g : Tag) (cycles : Nat) : PartFrame edgeParts s (s.tagReference g cycles) := by
  unfold State.tagReference
  exact .ite (.mono (.ppsEdge s _ _)) (.ite (.mono (.setRef s _ _)) (.ite (.mono (.cartFault s _)) (.refl _ s)))

theorem PartFrame.tagIt (s : State) (c : Nat) (rising : Bool) (ts ms : Int) (cycles : Nat) :
    PartFrame edgeParts s (s.tagIt c rising ts ms cycles) := by
  unfold State.tagIt
  extract_lets x g d store t₁ t₂ t₃
  have stored : PartFrame edgeParts s t₂ := .stepWhen (.step (.mono (.setChan s c _)) (.inc _ _)) (.storeTag _ c _)
  have measured : PartFrame edgeParts s t₃ := .step stored (.each (fun p u => .mpTag u p g _) _ t₂)
  exact .trans measured (.tagReference t₃ g cycles)

theorem PartFrame.deadEdge (s : State) (c : Nat) : PartFrame progParts s (s.deadEdge c) :=
  .step (.step (.mono (.setChan s c _)) (.inc _ _)) (.raise _ _ _)

theorem PartFrame.tagEdge (s : State) (c : Nat) (rising : Bool) (sub cycles : Nat) :
    PartFrame edgeParts s (s.tagEdge c rising sub cycles) := by
  unfold State.tagEdge
  refine .ite ?_ (.refl _ s)
  extract_lets x t ms ts
  have scaled : PartFrame edgeParts s t := .mono (.setChan s c _)
  have tagged : PartFrame edgeParts s (t.tagIt c rising ts ms cycles) := .trans scaled (.tagIt t _ _ _ _ _)
  refine .ite scaled ?_
  split
  · exact .ite (.step scaled (.deadEdge t c)) tagged
  · exact tagged

theorem PartFrame.calBurst (s : State) (skews : List (Nat × Int)) : PartFrame [.ttu] s (s.calBurst skews) := by
  unfold State.calBurst
  split
  · exact .ite (.trans (.trans (.ttu s _) (.each (fun c u => .setChan u c _) _ _)) (.each (fun e u => .setChan u _ _) _ _)) (.refl _ s)
  · exact .refl _ s

/-! ### The obligation -/

/-- A command changes at most what the operation that is its effect may change. -/
theorem changesOnly_frame {c : Instr} {l m : List Part} {f : State → State} (w : Bool) (dt : Nat) (frame : ∀ s, PartFrame m s (f s))
    (command : ∀ s, exec c s = afterIf w dt s f := by exact fun _ => rfl) (within : m ⊆ l := by decide) : ChangesOnly c l :=
  changesOnly_of w dt f command (fun s => (frame s).mono within)

/-- Settles O33: each command's effect is an operation whose frame is one of the lemmas above. -/
theorem oscillatorFrames : Obligations.OscillatorFrames := by
  unfold Obligations.OscillatorFrames
  refine ⟨fun dt opened => ?cartLoss, fun dt => ?modelSample, fun dt => ?modelFlashWrite, fun dt => ?cartInsert, fun dt => ?cartRemove,
    fun dt code rev serial block => ?cartIdentified, fun dt => ?cartIdTimeout, fun dt lock fault => ?cartStatusPoll,
    fun dt => ?cartWarmTimeout, fun dt => ?cartMeasDone, fun dt => ?cartOvercurrent, fun dt => ?cartPd2Off, fun dt tk tc => ?kaTick,
    fun dt => ?keeperFault, fun dt => ?kaGnssWake, fun dt sky => ?kaWakeEnd, fun dt a sol => ?gnssSolutionDone,
    fun dt a check => ?gnssAlarmClear, fun dt a const key check => ?gnssExclEnd, fun dt a chan => ?channelLossOfLock,
    fun dt a chan cn0 st => ?signalAcquired, fun dt a msg => ?navRecord, fun dt => ?hotstartWrite, fun dt a => ?surveyProgress,
    fun dt a => ?surveyComplete, fun dt a => ?surveyTimeout, fun dt => ?snapTrigger, fun dt => ?snapCaptureEnd, fun dt a => ?replayEnd,
    fun dt src a => ?thetaLoRead, fun dt a band obs => ?rfiSpectrum, fun dt a ma => ?biasShort, fun dt a ma => ?biasRetry,
    fun dt a startOk => ?gnssFwLoad, fun dt chan rising sub cycles => ?tagEdge, fun dt => ?tagForward, fun dt p => ?measClose,
    fun dt p => ?measGateClose, fun dt => ?measForward, fun dt skews => ?calBurst⟩
  case cartLoss => exact changesOnly_frame true dt (fun u => .cartLoss u opened)
  case modelSample => exact changesOnly_frame true dt .modelSampleAt
  case modelFlashWrite => exact changesOnly_frame true dt .modelFlash
  case cartInsert => exact changesOnly_frame true dt .cartInsert
  case cartRemove => exact changesOnly_frame true dt .cartRemove
  case cartIdentified => exact changesOnly_frame true dt (fun u => .cartRead u code rev serial block)
  case cartIdTimeout => exact changesOnly_frame true dt (fun u => .cartTimeout u 1 0x40)
  case cartStatusPoll => exact changesOnly_frame true dt (fun u => .cartStatus u lock fault)
  case cartWarmTimeout => exact changesOnly_frame true dt (fun u => .cartTimeout u 2 0x42)
  case cartMeasDone => exact changesOnly_frame true dt .cartMeasured
  case cartOvercurrent => exact changesOnly_frame true dt .cartOvercurrent
  case cartPd2Off => exact changesOnly_frame true dt .cartPd2Off
  case kaTick => exact changesOnly_frame true dt (fun u => .kaSecond u tk tc)
  case keeperFault => exact changesOnly_frame true dt (fun u => .raise u A.holEvent 13)
  case kaGnssWake => exact changesOnly_frame true dt .kaWake
  case kaWakeEnd => exact changesOnly_frame true dt (fun u => .kaWakeEnd u sky)
  case gnssSolutionDone => exact changesOnly_frame (decide (a < 2)) dt (fun u => .solutionDone u a sol)
  case gnssAlarmClear => exact changesOnly_frame (decide (a < 2)) dt (fun u => .alarmClear u a check)
  case gnssExclEnd => exact changesOnly_frame (decide (a < 2)) dt (fun u => .exclEnd u a const key check)
  case channelLossOfLock => exact changesOnly_frame (decide (a < 2) && decide (chan < 160)) dt (fun u => .lossOfLock u a chan)
  case signalAcquired => exact changesOnly_frame (decide (a < 2) && decide (chan < 160)) dt (fun u => .signalAcquired u a chan cn0 st)
  case navRecord => exact changesOnly_frame (decide (a < 2)) dt (fun u => .navMessage u a msg)
  case hotstartWrite => exact changesOnly_frame true dt .hotStartDue
  case surveyProgress => exact changesOnly_frame (decide (a < 2)) dt (fun u => .surveyReport u a)
  case surveyComplete => exact changesOnly_frame (decide (a < 2)) dt (fun u => .surveyEnds u a)
  case surveyTimeout => exact changesOnly_frame (decide (a < 2)) dt (fun u => .surveyTimeout u a)
  case snapTrigger => exact changesOnly_frame true dt .snapTrigger
  case snapCaptureEnd => exact changesOnly_frame true dt .snapCaptureEnd
  case replayEnd => exact changesOnly_frame (decide (a < 2)) dt (fun u => .replayDue u a)
  case thetaLoRead => exact changesOnly_busRead (decide (src < 5) && decide (a < 2)) dt src _ _ (fun _ => rfl)
  case rfiSpectrum => exact changesOnly_frame (decide (a < 2) && decide (band < 2)) dt (fun u => .spectrum u a band obs)
  case biasShort => exact changesOnly_frame (decide (a < 2)) dt (fun u => .biasShort u a ma)
  case biasRetry => exact changesOnly_frame (decide (a < 2)) dt (fun u => .biasRetry u a ma)
  case gnssFwLoad => exact changesOnly_frame (decide (a < 2)) dt (fun u => .gnssLoad u a startOk)
  case tagEdge => exact changesOnly_frame (decide (chan < 16)) dt (fun u => .tagEdge u chan rising sub cycles)
  case tagForward => exact changesOnly_frame true dt .forwardTags
  case measClose => exact changesOnly_frame (decide (p < 8)) dt (fun u => .measClose u p)
  case measGateClose => exact changesOnly_frame (decide (p < 8)) dt (fun u => .measGateClose u p)
  case measForward => exact changesOnly_frame true dt .forwardMeas
  case calBurst => exact changesOnly_frame true dt (fun u => .calBurst u skews)

end Sys2Proof.Machine
end

section
/-!
SUPPORT. The registers that holdover, the models and the cartridge write (R52, R103, R106 to R121), and the fields that they keep.
-/

set_option Elab.async false

namespace Sys2Proof.Machine

/-! ### Events -/

/-- An occurrence keeps every other bit of its EVENT below SEQ. -/
theorem FieldKept.raise_other {a i : Nat} (s : State) (b : Nat) (low : i + 1 ≤ 24) (ne : i ≠ b) (out : ¬ InHif a) :
    FieldKept a i 1 s (s.raise a b) :=
  .trans (.trans (.sfW s b 1 1 (low.trans (by decide)) (by omega)) (.sfW _ 24 8 _ (low.trans (by decide)) (.inl low)))
    (.of_regFrame (.raise_hif s a b) out)

/-- An occurrence clears no event. -/
theorem raise_bit_of {s : State} (h : CellList.wf resetOf s.regs = true) {a i b : Nat} (low : i < 24) (out : ¬ InHif a)
    (set : s.bit a i = true) : (s.raise a b).bit a i = true := by
  by_cases same : i = b
  · exact same ▸ raise_bit h (same ▸ low) out
  · exact ((FieldKept.raise_other s b low same out).bit h).trans set

/-- An occurrence advances SEQ by one (R363). -/
theorem raise_seq {s : State} (h : CellList.wf resetOf s.regs = true) {a b : Nat} (out : ¬ InHif a) :
    (s.raise a b).f a 24 8 = (s.f a 24 8 + 1) % 256 := by
  have regs : CellList.wf resetOf (s.sfW a b 1 1).regs = true := CellList.wf_set resetOf _ _ _ h
  have advanced : (s.raiseBit a b).f a 24 8 = (s.f a 24 8 + 1) % 256 :=
    (f_sfW _ a 24 8 _ 24 8 regs).trans (fld_putFld _ 24 8 _ (by decide))
  exact (FieldKept.of_regFrame (lo := 24) (n := 8) (.raise_hif s a b) out (CellList.wf_set resetOf _ _ _ regs)).2.trans advanced

theorem not_inHif_holEvent : ¬ InHif A.holEvent := by unfold InHif; decide

/-! ### Holdover and its anchor -/

/-- The registers that a new anchor writes (R52, R112, R126). -/
def AnchorWord (a : Nat) : Prop := InHif a ∨
  a ∈ [A.holAnchor, A.holRho0, A.holUy, A.holUa, A.holUt, A.holHoElapsed, A.holAnchorCount, A.holEvent]

theorem RegFrame.startHold (s : State) (x : Anchor) (keepUt : Nat) :
    RegFrame (fun a => AnchorWord a ∧ a ≠ A.holEvent) s (s.startHold x keepUt) := by
  have word : ∀ a ∈ [A.holAnchor, A.holRho0, A.holUy, A.holUa, A.holUt, A.holHoElapsed], AnchorWord a ∧ a ≠ A.holEvent := fun a m =>
    ⟨.inr (by revert a; decide), by revert a; decide⟩
  have shown : ∀ t : State, RegFrame (fun a => AnchorWord a ∧ a ≠ A.holEvent) t t.showAnchor := fun t =>
    .trans (.trans (.trans (.trans (.trans (.wr t _ _ (word _ (by decide))) (.wr _ _ _ (word _ (by decide))))
      (.wr _ _ _ (word _ (by decide)))) (.wr _ _ _ (word _ (by decide)))) (.wr _ _ _ (word _ (by decide)))) (.wr _ _ _ (word _ (by decide)))
  exact (shown _).before

/-- The state of a re-anchoring before its event. -/
theorem RegFrame.countAnchor (s : State) (x : Anchor) (keepUt : Nat) :
    RegFrame (fun a => AnchorWord a ∧ a ≠ A.holEvent) s ((s.startHold x keepUt).inc A.holAnchorCount) :=
  .trans (.startHold s x keepUt) (.inc _ _ ⟨.inr (by decide), by decide⟩ (fun c => absurd c (by decide +kernel)))

theorem RegFrame.reanchor (s : State) (inc : Nat) : RegFrame AnchorWord s (s.reanchor inc) := by
  unfold State.reanchor State.reanchorWith
  split
  · exact .trans ((RegFrame.countAnchor s _ _).mono (fun _ => And.left)) (.raise_of _ _ 1 (.inr (by decide)) (fun _ => .inl))
  · exact .refl _ s

/-- A re-anchoring clears no event. -/
theorem reanchor_holEvent {s : State} (h : CellList.wf resetOf s.regs = true) (inc : Nat) {i : Nat} (low : i < 24)
    (set : s.bit A.holEvent i = true) : (s.reanchor inc).bit A.holEvent i = true := by
  unfold State.reanchor State.reanchorWith
  split
  · obtain ⟨regs, kept⟩ := RegFrame.countAnchor s _ _ h
    exact raise_bit_of regs low not_inHif_holEvent ((bit_of_rd (kept A.holEvent (fun m => m.2 rfl)) i).trans set)
  · exact set

theorem RegFrame.setFreq (s : State) (x : Int) : RegFrame InTsc s (s.setFreq x) :=
  .trans (.wr s _ _ (.inl (by decide))) (.when _ _ _ (.raise_tsc _ 10))

/-! ### Handovers (R103 to R105) -/

theorem RegFrame.noteHandover (s : State) (toCart unplanned : Bool) :
    RegFrame (fun a => a = A.holHandoverCount ∨ a = A.holEvent ∨ InGlbHif a) s (s.noteHandover toCart unplanned) :=
  .trans (.trans (.inc s _ (.inl rfl) (fun c => absurd c (by decide +kernel)))
    (.raise_of _ _ 3 (.inr (.inl rfl)) (fun _ k => .inr (.inr (.inr k)))))
    ((RegFrame.journalize_glbHif _ _ _ _ _ _).mono (fun _ k => .inr (.inr k)))

/-- A handover shows HANDOVER. -/
theorem noteHandover_bit {s : State} (h : CellList.wf resetOf s.regs = true) (toCart unplanned : Bool) :
    (s.noteHandover toCart unplanned).bit A.holEvent 3 = true := by
  have counted : CellList.wf resetOf (s.inc A.holHandoverCount).regs = true := inc_regs h _
  have raised : CellList.wf resetOf ((s.inc A.holHandoverCount).raise A.holEvent 3).regs = true :=
    (RegFrame.raise_of (W := fun _ => True) _ _ 3 trivial (fun _ _ => trivial) counted).1
  have recorded : FieldKept A.holEvent 3 1 ((s.inc A.holHandoverCount).raise A.holEvent 3) (s.noteHandover toCart unplanned) :=
    .of_regFrame (.journalize_glbHif _ _ _ _ _ _) (by unfold InGlbHif InHif; decide)
  exact (recorded.bit raised).trans (raise_bit counted (by decide) not_inHif_holEvent)

/-- What follows the new STATUS of a handover writes no STATUS of the block. -/
theorem RegFrame.handoverAfter (s : State) (toCart unplanned : Bool) :
    RegFrame (fun a => a ≠ A.holStatus) (s.handoverTerms toCart unplanned) (s.handover toCart unplanned) := by
  rw [handover_eq]
  have tsc : ¬ InTsc A.holStatus := by unfold InTsc InGlbHif InHif; decide
  have noted : ¬ (A.holStatus = A.holHandoverCount ∨ A.holStatus = A.holEvent ∨ InGlbHif A.holStatus) := by
    unfold InGlbHif InHif; decide
  have anchor : ¬ AnchorWord A.holStatus := by unfold AnchorWord InHif; decide
  refine .trans (.trans ((RegFrame.setFreq _ _).mono (fun a w e => tsc (e ▸ w)))
    ((RegFrame.noteHandover _ toCart unplanned).mono (fun a w e => noted (e ▸ w)))) (.when _ _ _ ?_)
  exact (RegFrame.reanchor _ _).mono (fun a w e => anchor (e ▸ w))

/-- An unplanned loss of the active cartridge: the keeper takes over, and HANDOVER shows (R104, R105). -/
theorem handover_keeper {s : State} (h : CellList.wf resetOf s.regs = true) :
    CellList.wf resetOf (s.handover false true).regs = true ∧ (s.handover false true).cartActive = false ∧
      (s.handover false true).cartState = s.cartState ∧ (s.handover false true).bit A.holEvent 3 = true := by
  have terms : CellList.wf resetOf (s.handoverTerms false true).regs = true := CellList.wf_set resetOf _ _ _ h
  have inactive : (s.handoverTerms false true).cartActive = false := (bit_setBit s A.holStatus 0 0 false h (by decide)).trans (if_pos rfl)
  have state : FieldKept A.holStatus 1 3 s (s.handoverTerms false true) :=
    (FieldKept.setBit s 0 false (by decide) (.inr (by decide))).after
  obtain ⟨regs, kept⟩ := RegFrame.handoverAfter s false true terms
  have status := kept A.holStatus (fun ne => ne rfl)
  refine ⟨regs, (bit_of_rd status 0).trans inactive, (f_of_rd status 1 3).trans (state h).2, ?_⟩
  rw [handover_eq]
  have steered :=
    (RegFrame.setFreq (s.handoverTerms false true) ((s.handoverTerms false true).sf A.tscFreqCorr 0 32 + s.cartDiff48) terms).1
  have noted : (s.handoverNoted false true).bit A.holEvent 3 = true := noteHandover_bit steered false true
  dsimp only
  unfold State.when
  split
  · exact reanchor_holEvent (RegFrame.noteHandover _ false true steered).1 1000 (by decide) noted
  · exact noted

/-! ### States of the cartridge (R118) -/

theorem RegFrame.setCart (s : State) (st : Nat) (limit : Option Nat) :
    RegFrame (fun a => a = A.holStatus ∨ a = A.holCartTimer) s (s.setCart st limit) :=
  .trans ((RegFrame.sfW s _ 1 3 st (.inl rfl)).after) (.sfW _ _ _ _ _ (.inr rfl))

/-- CART_STATE shows the new state. -/
theorem setCart_cartState {s : State} (h : CellList.wf resetOf s.regs = true) {st : Nat} (small : st < 8) (limit : Option Nat) :
    (s.setCart st limit).cartState = st := by
  have set : (s.sfW A.holStatus 1 3 st).f A.holStatus 1 3 = st :=
    (f_sfW s _ _ _ _ _ _ h).trans ((fld_putFld _ 1 3 st (by decide)).trans (Nat.mod_eq_of_lt small))
  have timer : FieldKept A.holStatus 1 3 (s.sfW A.holStatus 1 3 st) (s.setCart st limit) :=
    (FieldKept.refl _ _ _ _).after.trans (.wr _ _ (by decide))
  exact (timer (CellList.wf_set resetOf _ _ _ h)).2.trans set

/-- A state of the cartridge leaves the active oscillator. -/
theorem FieldKept.setCart (s : State) (st : Nat) (limit : Option Nat) : FieldKept A.holStatus 0 1 s (s.setCart st limit) :=
  (FieldKept.sfW s 1 3 st (by decide) (.inl (by decide))).after.trans (.wr _ _ (by decide))

/-- PD2 off or on shows in DOM_STATE. -/
theorem setPd2_bit {s : State} (h : CellList.wf resetOf s.regs = true) (on : Bool) : (s.setPd2 on).bit A.pwrDomState 2 = on :=
  (bit_setBit s _ 2 2 on h (by decide)).trans (if_pos rfl)

theorem RegFrame.cartUnpowered (s : State) : RegFrame (fun a => a = A.holCartDiff ∨ a = A.holTempCart) s s.cartUnpowered :=
  .trans (.wr s _ _ (.inl rfl)) (.wr _ _ _ (.inr rfl))

end Sys2Proof.Machine
end

section
/-!
SUPPORT. What takes the cartridge to its states (R104, R118 to R121), and what they show.
-/

set_option Elab.async false

namespace Sys2Proof.Machine

/-! ### FAULT (R118) -/

/-- A cartridge in FAULT: its state, PD2 off, the reason. -/
def State.faultNamed (s : State) (reason : Nat) : State := ((s.setCart 7 none).setPd2 false).sfW A.holCartFault 0 8 reason

/-- An unpowered cartridge releases nothing any more. -/
def State.cartEnded (s : State) : State := s.cartUnpowered.setHol (fun h => { h with releasing := false, pd2OffAt := none })

theorem cartFault_eq (s : State) (reason : Nat) : s.cartFault reason =
    (((s.when s.cartActive (fun t => t.handover false true)).faultNamed reason).cartEnded).raise A.holEvent 7 := rfl

theorem RegFrame.cartEnded (s : State) : RegFrame (fun a => a = A.holCartDiff ∨ a = A.holTempCart) s s.cartEnded :=
  (RegFrame.cartUnpowered s).trans (.same rfl)

/-- What a cartridge in FAULT shows besides the event: its state, the reason and PD2. -/
def State.Faulted (s : State) (reason : Nat) : Prop :=
  s.cartState = 7 ∧ s.f A.holCartFault 0 8 = reason ∧ s.bit A.pwrDomState 2 = false

theorem faultNamed_faulted {s : State} (h : CellList.wf resetOf s.regs = true) {reason : Nat} (small : reason < 256) :
    CellList.wf resetOf (s.faultNamed reason).regs = true ∧ (s.faultNamed reason).Faulted reason := by
  have entered : CellList.wf resetOf (s.setCart 7 none).regs = true := (RegFrame.setCart s 7 none h).1
  have off : CellList.wf resetOf ((s.setCart 7 none).setPd2 false).regs = true := CellList.wf_set resetOf _ _ _ entered
  have state : FieldKept A.holStatus 1 3 (s.setCart 7 none) (s.faultNamed reason) := .trans (.wr _ _ (by decide)) (.wr _ _ (by decide))
  have power : FieldKept A.pwrDomState 2 1 ((s.setCart 7 none).setPd2 false) (s.faultNamed reason) := .wr _ _ (by decide)
  refine ⟨CellList.wf_set resetOf _ _ _ off, ?_, ?_, ?_⟩
  · exact (state entered).2.trans (setCart_cartState h (by decide) none)
  · exact (f_sfW _ _ _ _ _ _ _ off).trans ((fld_putFld _ 0 8 reason (by decide)).trans (Nat.mod_eq_of_lt small))
  · exact (power.bit off).trans (setPd2_bit entered false)

/-- The end of the cartridge's power and an event change neither its state nor the reason nor PD2. -/
theorem State.Faulted.raised {s : State} {reason : Nat} (shown : s.Faulted reason) (h : CellList.wf resetOf s.regs = true) :
    (s.cartEnded.raise A.holEvent 7).Faulted reason := by
  obtain ⟨state, named, off⟩ := shown
  have kept : ∀ a lo n, a ∉ [A.holCartDiff, A.holTempCart, A.holEvent] → ¬ InHif a →
      FieldKept a lo n s (s.cartEnded.raise A.holEvent 7) := fun a lo n m out =>
    (FieldKept.of_regFrame (.cartEnded s) (fun w => m (by rcases w with rfl | rfl <;> decide))).trans
      (.raise _ 7 (fun e => m (e ▸ by decide)) out)
  exact ⟨(kept A.holStatus 1 3 (by decide) (by unfold InHif; decide) h).2.trans state,
    (kept A.holCartFault 0 8 (by decide) (by unfold InHif; decide) h).2.trans named,
    ((kept A.pwrDomState 2 1 (by decide) (by unfold InHif; decide)).bit h).trans off⟩

/-- Before a fault an active cartridge has handed over to the keeper (R104). -/
theorem keeperFirst {s : State} (h : CellList.wf resetOf s.regs = true) :
    CellList.wf resetOf (s.when s.cartActive (fun t => t.handover false true)).regs = true ∧
      (s.when s.cartActive (fun t => t.handover false true)).cartActive = false ∧
      (s.cartActive = true → (s.when s.cartActive (fun t => t.handover false true)).bit A.holEvent 3 = true) := by
  obtain ⟨regs, inactive, _, noted⟩ := handover_keeper h
  unfold State.when
  split
  next => exact ⟨regs, inactive, fun _ => noted⟩
  next keeper => exact ⟨h, Bool.eq_false_iff.mpr keeper, fun active => absurd active keeper⟩

theorem cartFault_faulted {s : State} (h : CellList.wf resetOf s.regs = true) {reason : Nat} (small : reason < 256) :
    (s.cartFault reason).Faulted reason := by
  obtain ⟨regs, shown⟩ := faultNamed_faulted (keeperFirst h).1 small
  rw [cartFault_eq]
  exact shown.raised regs

theorem cartFault_event {s : State} (h : CellList.wf resetOf s.regs = true) {reason : Nat} (small : reason < 256) :
    (s.cartFault reason).bit A.holEvent 7 = true := by
  rw [cartFault_eq]
  exact raise_bit (RegFrame.cartEnded _ (faultNamed_faulted (keeperFirst h).1 small).1).1 (by decide) not_inHif_holEvent

/-- An active cartridge that faults leaves the keeper active, and HANDOVER shows. -/
theorem cartFault_active {s : State} (h : CellList.wf resetOf s.regs = true) (active : s.cartActive = true) (reason : Nat) :
    (s.cartFault reason).cartActive = false ∧ (s.cartFault reason).bit A.holEvent 3 = true := by
  obtain ⟨regs, inactive, noted⟩ := keeperFirst h
  have named : ∀ t : State, FieldKept A.holStatus 0 1 t (t.faultNamed reason).cartEnded := fun t =>
    .trans (.trans (.trans (.setCart t 7 none) (.wr _ _ (by decide))) (.wr _ _ (by decide))) (.of_regFrame (.cartEnded _) (by decide))
  have event : ∀ t : State, FieldKept A.holEvent 3 1 t (t.faultNamed reason).cartEnded := fun t =>
    .trans (.trans (.trans (.of_regFrame (.setCart t 7 none) (by decide)) (.wr _ _ (by decide))) (.wr _ _ (by decide)))
      (.of_regFrame (.cartEnded _) (by decide))
  rw [cartFault_eq]
  exact ⟨(((named _).trans (.raise _ 7 (by decide) (by unfold InHif; decide))).bit regs).trans inactive,
    raise_bit_of (event _ regs).1 (by decide) not_inHif_holEvent (((event _).bit regs).trans (noted active))⟩

end Sys2Proof.Machine
end

section
/-!
SUPPORT. O9: the cartridge's contacts, its serial interface and its timers (R104, R118 to R121).
-/

set_option Elab.async false

namespace Sys2Proof.Machine

/-! ### Power and the slot (R118) -/

theorem cartPower_shown {s : State} (h : CellList.wf resetOf s.regs = true) :
    CellList.wf resetOf s.cartPower.regs = true ∧ s.cartPower.cartState = 1 ∧ s.cartPower.bit A.pwrDomState 2 = true := by
  have on : CellList.wf resetOf (s.setPd2 true).regs = true := CellList.wf_set resetOf _ _ _ h
  have entered := RegFrame.setCart (s.setPd2 true) 1 (some 2)
  have power : FieldKept A.pwrDomState 2 1 (s.setPd2 true) s.cartPower := .of_regFrame entered (by decide)
  exact ⟨(entered on).1, setCart_cartState on (by decide) _, (power.bit on).trans (setPd2_bit h true)⟩

/-- An empty slot: PD2 off, ABSENT, no identity. -/
def State.slotEmptied (s : State) : State :=
  ((((s.setPd2 false).setCart 0 none).cartUnpowered).wr A.holCartId 0).setHol (fun h => { h with releasing := false, pd2OffAt := none })

theorem cartRemove_eq {s : State} (fitted : s.cartState ≠ 0) : s.cartRemove =
    (((s.when s.cartActive (fun t => t.handover false true)).slotEmptied).inc A.holSwapCount).raise A.holEvent 6 := if_neg fitted

theorem slotEmptied_shown {s : State} (h : CellList.wf resetOf s.regs = true) :
    CellList.wf resetOf s.slotEmptied.regs = true ∧ s.slotEmptied.cartState = 0 ∧ s.slotEmptied.cartActive = s.cartActive ∧
      s.slotEmptied.bit A.pwrDomState 2 = false := by
  have off : CellList.wf resetOf (s.setPd2 false).regs = true := CellList.wf_set resetOf _ _ _ h
  have entered := RegFrame.setCart (s.setPd2 false) 0 none
  have rest : RegFrame (fun a => a ∈ [A.holCartDiff, A.holTempCart, A.holCartId]) ((s.setPd2 false).setCart 0 none) s.slotEmptied :=
    (((RegFrame.cartUnpowered _).mono (fun a w => by rcases w with rfl | rfl <;> decide)).trans (.wr _ A.holCartId 0 (by decide))).trans
      (.same rfl)
  have active : FieldKept A.holStatus 0 1 s s.slotEmptied :=
    ((FieldKept.wr s _ (by decide)).trans (.setCart _ 0 none)).trans (.of_regFrame rest (by decide))
  have power : FieldKept A.pwrDomState 2 1 (s.setPd2 false) s.slotEmptied :=
    (FieldKept.of_regFrame entered (by decide)).trans (.of_regFrame rest (by decide))
  obtain ⟨regs, kept⟩ := rest (entered off).1
  exact ⟨regs, (f_of_rd (kept A.holStatus (by decide)) 1 3).trans (setCart_cartState off (by decide) none), active.bit h,
    (power.bit off).trans (setPd2_bit h false)⟩

/-- REMOVED shows, and a count and an event change nothing that the empty slot shows. -/
theorem cartRemove_shown {s : State} (h : CellList.wf resetOf s.regs = true) (fitted : s.cartState ≠ 0) :
    s.cartRemove.cartState = 0 ∧ s.cartRemove.cartActive = false ∧ s.cartRemove.bit A.pwrDomState 2 = false ∧
      s.cartRemove.bit A.holEvent 6 = true := by
  obtain ⟨first, inactive, _⟩ := keeperFirst h
  obtain ⟨regs, state, active, off⟩ := slotEmptied_shown first
  have noted : ∀ t : State, RegFrame (fun a => a = A.holSwapCount ∨ a = A.holEvent ∨ InHif a) t
      ((t.inc A.holSwapCount).raise A.holEvent 6) := fun t =>
    .trans (.inc t _ (.inl rfl) (fun c => absurd c (by decide +kernel))) (.raise_of _ _ 6 (.inr (.inl rfl)) (fun _ k => .inr (.inr k)))
  obtain ⟨_, kept⟩ := noted (s.when s.cartActive (fun t => t.handover false true)).slotEmptied regs
  have status := kept A.holStatus (by unfold InHif; decide)
  rw [cartRemove_eq fitted]
  exact ⟨(f_of_rd status 1 3).trans state, (bit_of_rd status 0).trans (active.trans inactive),
    (bit_of_rd (kept A.pwrDomState (by unfold InHif; decide)) 2).trans off, raise_bit (inc_regs regs _) (by decide) not_inHif_holEvent⟩

/-! ### Identity and model block (R118, R121) -/

/-- The registers of a written model page, whose page it is and whatever its words are (R107, R126). -/
def ModelWord (a : Nat) : Prop := (0x18100 ≤ a ∧ a < 0x18180) ∨ a = A.holStatus ∨ a = A.holEvent ∨ InHif a

theorem modelWord_range (cart : Bool) {k : Nat} (small : k < 16) : 0x18100 ≤ modelWord cart k ∧ modelWord cart k < 0x18180 := by
  unfold modelWord A.holCmodel A.holKmodel
  split <;> omega

theorem RegFrame.showValid (s : State) (cart was now : Bool) :
    RegFrame (fun a => a = A.holStatus ∨ a = A.holEvent ∨ InHif a) s (s.showValid cart was now) := by
  have event : ∀ (t : State) (c : Bool) (b : Nat), RegFrame (fun a => a = A.holStatus ∨ a = A.holEvent ∨ InHif a) t
      (t.when c (fun u => u.raise A.holEvent b)) := fun t c b => .when t c _ (.raise_of t _ b (.inr (.inl rfl)) (fun _ k => .inr (.inr k)))
  exact .trans (.trans (.setBit s _ _ _ (.inl rfl)) (event _ _ 8)) (event _ _ 9)

theorem RegFrame.putModel (s : State) (cart : Bool) (p : List Word) :
    RegFrame (fun a => 0x18100 ≤ a ∧ a < 0x18180) s (s.putModel cart p) :=
  .each _ _ (fun _ m t => .wr t _ _ (modelWord_range cart (List.mem_range.mp m))) s

theorem RegFrame.putFit (s : State) (cart : Bool) (flags : Nat) (w : List Word) : RegFrame ModelWord s (s.putFit cart flags w) :=
  .trans ((RegFrame.putModel s cart _).mono (fun _ => .inl)) ((RegFrame.showValid _ cart _ _).mono (fun _ => .inr))

/-- The identity is shown and the block kept (R118, R121). -/
def State.identityRead (s : State) (code rev serial : Nat) (b : Bytes) : State :=
  ((s.wr A.holCartId (word (code % 256 + rev % 256 * 256))).wr64 A.holCartSerialLo serial).setHol (fun h => { h with
    modelBlock := b
    cartRing := if decide (s.hol.cistern.serial ≠ serial) then [] else h.cartRing
    cistern := if decide (s.hol.cistern.serial ≠ serial) then
        { h.cistern with cart := List.replicate 16 0, serial := serial, cartRing := [] }
      else h.cistern })

/-- The model of a cartridge that is new to the unit. -/
def State.modelTaken (s : State) (b : Bytes) : State :=
  if s.blockUsable b then s.putFit true 8 (s.takenOver true (blockTerms b)) else s.putFit true 0 (List.replicate 15 0)

theorem cartIdentify_known (s : State) {code : Nat} (known : code = 0x51 ∨ code = 0x41) (rev serial : Nat) (b : Bytes) :
    s.cartIdentify code rev serial b =
      ((s.identityRead code rev serial b).when (decide (s.hol.cistern.serial ≠ serial)) (fun t => t.modelTaken b)).setCart 2
        (some (warmLimit code)) := if_pos known

theorem RegFrame.modelTaken (s : State) (b : Bytes) : RegFrame ModelWord s (s.modelTaken b) :=
  .ite (fun _ => .putFit s _ _ _) (fun _ => .putFit s _ _ _)

theorem modelTaken_hol (s : State) (b : Bytes) : (s.modelTaken b).hol = s.hol := by
  unfold State.modelTaken
  split
  · exact PartFrame.putFit s true 8 _ .hol (by decide)
  · exact PartFrame.putFit s true 0 _ .hol (by decide)

/-- CART_ID shows the code that was read. -/
theorem identityRead_code {s : State} (h : CellList.wf resetOf s.regs = true) {code : Nat} (small : code < 256)
    (rev serial : Nat) (b : Bytes) :
    CellList.wf resetOf (s.identityRead code rev serial b).regs = true ∧ (s.identityRead code rev serial b).f A.holCartId 0 8 = code := by
  have shown : CellList.wf resetOf (s.wr A.holCartId (word (code % 256 + rev % 256 * 256))).regs = true := CellList.wf_set resetOf _ _ _ h
  have read : (s.wr A.holCartId (word (code % 256 + rev % 256 * 256))).f A.holCartId 0 8 = code := by
    unfold State.f
    rw [rd_wr _ _ _ _ h, if_pos rfl]
    unfold fld word
    rw [BitVec.toNat_ofNat, Nat.shiftRight_zero]
    omega
  have kept : FieldKept A.holCartId 0 8 (s.wr A.holCartId (word (code % 256 + rev % 256 * 256))) (s.identityRead code rev serial b) :=
    (FieldKept.of_regFrame (RegFrame.wr64 (W := fun a => a = A.holCartSerialLo ∨ a = A.holCartSerialLo + 4) _ _ _ (.inl rfl) (.inr rfl))
      (by decide)).after
  obtain ⟨regs, same⟩ := kept shown
  exact ⟨regs, same.trans read⟩

theorem cartIdentify_shown {s : State} (h : CellList.wf resetOf s.regs = true) {code : Nat} (known : code = 0x51 ∨ code = 0x41)
    (rev serial : Nat) (b : Bytes) :
    (s.cartIdentify code rev serial b).cartState = 2 ∧ (s.cartIdentify code rev serial b).f A.holCartId 0 8 = code ∧
      (s.cartIdentify code rev serial b).hol.modelBlock = b := by
  obtain ⟨regs, read⟩ := identityRead_code h (by omega : code < 256) rev serial b
  have taken := RegFrame.when (s.identityRead code rev serial b) (decide (s.hol.cistern.serial ≠ serial)) (fun t => t.modelTaken b)
    (.modelTaken _ b)
  have hol : ((s.identityRead code rev serial b).when (decide (s.hol.cistern.serial ≠ serial)) (fun t => t.modelTaken b)).hol =
      (s.identityRead code rev serial b).hol := by
    unfold State.when
    split
    · exact modelTaken_hol _ b
    · rfl
  have kept : FieldKept A.holCartId 0 8 (s.identityRead code rev serial b) (s.cartIdentify code rev serial b) :=
    cartIdentify_known s known rev serial b ▸ (FieldKept.of_regFrame taken (by unfold ModelWord InHif; decide)).trans
      (.of_regFrame (.setCart _ 2 _) (by decide))
  refine ⟨?_, (kept regs).2.trans read, ?_⟩
  · rw [cartIdentify_known s known]
    exact setCart_cartState (taken regs).1 (by decide) _
  · rw [cartIdentify_known s known]
    exact (congrArg Hol.modelBlock hol : _)

/-! ### Status, timers and release (R118 to R120) -/

theorem cartMeasured_shown {s : State} (h : CellList.wf resetOf s.regs = true) (measuring : s.cartState = 3) (due : s.cartTimerDue = true) :
    s.cartMeasured.cartState = 4 ∧ s.cartMeasured.bit A.holEvent 5 = true := by
  have entered := (RegFrame.setCart s 4 none h).1
  have state : FieldKept A.holStatus 1 3 (s.setCart 4 none) ((s.setCart 4 none).raise A.holEvent 5) :=
    .raise _ 5 (by decide) (by unfold InHif; decide)
  unfold State.cartMeasured
  rw [if_pos ⟨measuring, due⟩]
  exact ⟨(state entered).2.trans (setCart_cartState h (by decide) none), raise_bit entered (by decide) not_inHif_holEvent⟩

theorem cartReleased_shown {s : State} (h : CellList.wf resetOf s.regs = true) :
    s.cartReleased.cartState = 6 ∧ s.cartReleased.bit A.pwrDomState 2 = false ∧ s.cartReleased.hol.pd2OffAt = none := by
  have off : CellList.wf resetOf (s.setPd2 false).regs = true := CellList.wf_set resetOf _ _ _ h
  have entered := RegFrame.setCart (s.setPd2 false) 6 none
  have rest : RegFrame (fun a => a = A.holCartDiff ∨ a = A.holTempCart) ((s.setPd2 false).setCart 6 none) s.cartReleased :=
    (RegFrame.cartUnpowered _).trans (.same rfl)
  have power : FieldKept A.pwrDomState 2 1 (s.setPd2 false) s.cartReleased :=
    (FieldKept.of_regFrame entered (by decide)).trans (.of_regFrame rest (by decide))
  exact ⟨(f_of_rd ((rest (entered off).1).2 A.holStatus (by decide)) 1 3).trans (setCart_cartState off (by decide) none),
    (power.bit off).trans (setPd2_bit h false), rfl⟩

theorem cartPowered_iff (s : State) : s.cartPowered = true ↔ 1 ≤ s.cartState ∧ s.cartState ≤ 5 := by
  unfold State.cartPowered
  rw [Bool.and_eq_true, decide_eq_true_iff, decide_eq_true_iff]

theorem cartTimeout_faulted {s : State} (h : CellList.wf resetOf s.regs = true) {st reason : Nat} (small : reason < 256)
    (state : s.cartState = st) (due : s.cartTimerDue = true) : (s.cartTimeout st reason).Faulted reason := by
  unfold State.cartTimeout
  rw [if_pos ⟨state, due⟩]
  exact cartFault_faulted h small

theorem cartStatus_fault {s : State} (powered : s.cartPowered = true) (lock : Bool) : s.cartStatus lock true = s.cartFault 0x44 := by
  unfold State.cartStatus
  rw [if_neg (by simp [powered]), if_pos rfl]

theorem cartStatus_lock {s : State} (warming : s.cartState = 2) :
    s.cartStatus true false = s.setCart 3 (some (s.f A.holCartMeas 0 17)) := by
  have powered : s.cartPowered = true := (cartPowered_iff s).mpr (by omega)
  unfold State.cartStatus
  rw [if_neg (by simp [powered]), if_neg (by decide), if_pos ⟨rfl, warming⟩]

/-- A command that acts once the time has passed. -/
theorem completes_after {c : Instr} {s u : State} {dt : Nat} {p : State → Prop} (f : State → State)
    (command : exec c s = after dt s f)
    (eq : u = s.advance dt) (h : p (f u)) : Completes c s p := completes_of command (eq ▸ h)

/-- Settles O9: a loss or a fault of an active cartridge is a handover to the keeper first; every change of state is `State.setCart`,
and what follows it keeps CART_STATE, the reason and PD2 as they were set. -/
theorem cartridgeCommandsComplete : Obligations.CartridgeCommandsComplete := by
  unfold Obligations.CartridgeCommandsComplete
  refine ⟨fun s u dt opened canonical eq active => completes_after (·.cartLoss opened) rfl eq ?loss,
    fun s u dt canonical eq empty => completes_after State.cartInsert rfl eq ?insert,
    fun s u dt canonical eq fitted => completes_after State.cartRemove rfl eq ?remove,
    fun s u dt code rev serial block canonical eq powering known => completes_after (·.cartRead code rev serial block) rfl eq ?identified,
    fun s u dt code rev serial block canonical eq powering other another =>
      completes_after (·.cartRead code rev serial block) rfl eq ?unknown,
    fun s u dt canonical eq powering due => completes_after (·.cartTimeout 1 0x40) rfl eq ?idTimeout,
    fun s u dt lock canonical eq low high => completes_after (·.cartStatus lock true) rfl eq ?fault,
    fun s u dt canonical eq warming => completes_after (·.cartStatus true false) rfl eq ?lock,
    fun s u dt canonical eq warming due => completes_after (·.cartTimeout 2 0x42) rfl eq ?warmTimeout,
    fun s u dt canonical eq measuring due => completes_after State.cartMeasured rfl eq ?measured,
    fun s u dt canonical eq low high => completes_after State.cartOvercurrent rfl eq ?overcurrent,
    fun s u dt m canonical eq off due => completes_after State.cartPd2Off rfl eq ?pd2Off⟩
  all_goals
    have regs : CellList.wf resetOf u.regs = true := regs_of_canonical (eq ▸ advance_canonical canonical dt)
  case loss =>
    unfold State.cartLoss
    rw [if_pos active]
    cases opened with
    | true =>
      obtain ⟨_, inactive, state, noted⟩ := handover_keeper regs
      rw [if_pos rfl, if_pos rfl]
      exact ⟨inactive, state, noted⟩
    | false =>
      obtain ⟨inactive, noted⟩ := cartFault_active regs active 0x45
      rw [if_neg Bool.false_ne_true, if_neg Bool.false_ne_true]
      exact ⟨inactive, (cartFault_faulted regs (by decide)).1, noted⟩
  case insert =>
    obtain ⟨powered, state, on⟩ := cartPower_shown regs
    have kept : ∀ a lo n, a ≠ A.holEvent → ¬ InHif a → FieldKept a lo n u.cartPower (u.cartPower.raise A.holEvent 4) :=
      fun a lo n ne out => .raise _ 4 (fun e => ne e.symm) out
    rw [State.cartInsert, if_pos empty]
    exact ⟨(kept A.holStatus 1 3 (by decide) (by unfold InHif; decide) powered).2.trans state,
      ((kept A.pwrDomState 2 1 (by decide) (by unfold InHif; decide)).bit powered).trans on,
      raise_bit powered (by decide) not_inHif_holEvent⟩
  case remove => exact cartRemove_shown regs fitted
  case identified =>
    rw [State.cartRead, if_pos powering]
    exact cartIdentify_shown regs known rev serial block
  case unknown =>
    have renamed : CellList.wf resetOf ((u.wr A.holCartId (word (code % 256 + rev % 256 * 256))).wr64 A.holCartSerialLo serial).regs = true :=
      (RegFrame.wr64 (W := fun _ => True) _ A.holCartSerialLo serial trivial trivial (CellList.wf_set resetOf _ _ _ regs)).1
    rw [State.cartRead, if_pos powering, State.cartIdentify, if_neg (not_or.mpr ⟨other, another⟩)]
    exact cartFault_faulted renamed (by decide)
  case idTimeout =>
    obtain ⟨state, named, _⟩ := cartTimeout_faulted regs (reason := 0x40) (by decide) powering due
    exact ⟨state, named⟩
  case fault =>
    obtain ⟨state, named, _⟩ := cartFault_faulted regs (reason := 0x44) (by decide)
    rw [cartStatus_fault ((cartPowered_iff u).mpr ⟨low, high⟩)]
    exact ⟨state, named, cartFault_event regs (by decide)⟩
  case lock =>
    rw [cartStatus_lock warming]
    exact setCart_cartState regs (by decide) _
  case warmTimeout =>
    obtain ⟨state, named, _⟩ := cartTimeout_faulted regs (reason := 0x42) (by decide) warming due
    exact ⟨state, named⟩
  case measured => exact cartMeasured_shown regs measuring due
  case overcurrent =>
    rw [State.cartOvercurrent, State.when, if_pos ((cartPowered_iff u).mpr ⟨low, high⟩)]
    exact cartFault_faulted regs (by decide)
  case pd2Off =>
    have released : u.cartPd2Off = u.cartReleased := by
      unfold State.cartPd2Off
      rw [off]
      exact if_pos due
    rw [released]
    exact cartReleased_shown regs

end Sys2Proof.Machine
end

section
/-!
SUPPORT. O10: RELEASE, RESUME and FORGET (R120), and a model page as it was written (R107, R126).
-/

set_option Elab.async false

namespace Sys2Proof.Machine

/-! ### A written model page -/

theorem putModel_eq (s : State) (cart : Bool) (p : List Word) :
    s.putModel cart p = s.wrAll ((List.range 16).map (fun k => (modelWord cart k, p.getD k 0))) := by
  unfold State.putModel State.each State.wrAll
  rw [List.foldl_map]

theorem modelWord_injective (cart : Bool) : Function.Injective (modelWord cart) := by
  intro k l e
  unfold modelWord A.holCmodel A.holKmodel at e
  split at e <;> omega

/-- Every word of the page is as it was given. -/
theorem putModel_rd {s : State} (h : CellList.wf resetOf s.regs = true) (cart : Bool) (p : List Word) {k : Nat} (small : k < 16) :
    (s.putModel cart p).rd (modelWord cart k) = p.getD k 0 := by
  rw [putModel_eq]
  refine rd_wrAll h ?_ (List.mem_map.mpr ⟨k, List.mem_range.mpr small, rfl⟩)
  rw [List.map_map]
  exact List.nodup_range.map (modelWord_injective cart)

/-- A refitted page: SEQ one on with the flags, then the words given (R126). -/
theorem putFit_rd {s : State} (h : CellList.wf resetOf s.regs = true) (cart : Bool) (flags : Nat) (w : List Word) {k : Nat} (small : k < 16) :
    (s.putFit cart flags w).rd (modelWord cart k) =
      (word ((s.f (modelWord cart 0) 0 8 + 1) % 256 + flags * 256) :: w).getD k 0 := by
  have range := modelWord_range cart small
  have out : ¬ (modelWord cart k = A.holStatus ∨ modelWord cart k = A.holEvent ∨ InHif (modelWord cart k)) := by
    unfold InHif A.holStatus A.holEvent
    omega
  exact ((RegFrame.showValid _ cart _ _ (RegFrame.putModel s cart _ h).1).2 _ out).trans (putModel_rd h cart _ small)

/-! ### The commands -/

theorem guardAct_cartCmd (s : State) (src : Source) (v : Word) : s.guardAct src A.holCartCmd v = s.cartCmd v := rfl

theorem cartCmd_release (s : State) : s.cartCmd 1 = s.cartRelease := rfl

theorem cartCmd_resume (s : State) : s.cartCmd 2 = s.cartPower := rfl

theorem cartCmd_forget (s : State) : s.cartCmd 3 = s.cartForget := rfl

theorem cartRelease_active {s : State} (active : s.cartState = 5) :
    s.cartRelease.hol.releasing = true ∧ s.cartRelease.cartState = 5 := by
  unfold State.cartRelease
  rw [if_pos active]
  exact ⟨rfl, (f_of_rd rfl 1 3).trans active⟩

theorem cartRelease_idle {s : State} (idle : s.cartState ≠ 5) :
    s.cartRelease.hol.pd2OffAt = some (100000000 * 2 ^ 48 + s.ts.meas) ∧ s.cartRelease.hol.modelBlock = s.modelBlockBytes := by
  unfold State.cartRelease
  rw [if_neg idle]
  exact ⟨rfl, rfl⟩

theorem modelBlockBytes_congr {s t : State} (terms : ∀ k, t.rd (A.holCmodel k) = s.rd (A.holCmodel k)) (serial : t.cartSerial = s.cartSerial) :
    t.modelBlockBytes = s.modelBlockBytes := by
  have words : ∀ k, t.f (A.holCmodel (k + 1)) 0 32 = s.f (A.holCmodel (k + 1)) 0 32 := fun k => f_of_rd (terms _) 0 32
  unfold State.modelBlockBytes
  simp only [words, serial]

/-- The pair of CART_CMD leaves the model page, the serial and the state. -/
theorem pairTaken_cart {s : State} (h : s.canonical = true) (src : Source) (v : Word) :
    (s.pairTaken src A.holCartCmd v).modelBlockBytes = s.modelBlockBytes ∧ (s.pairTaken src A.holCartCmd v).cartState = s.cartState := by
  have kept : ∀ a, 0x8000 ≤ a → a ≠ A.holCartCmd → (s.pairTaken src A.holCartCmd v).rd a = s.rd a := fun a high ne =>
    pairTaken_rd_ne h src v ne (by unfold InGlbHif InHif; omega)
  refine ⟨modelBlockBytes_congr (fun k => kept _ ?_ ?_) ?_, f_of_rd (kept A.holStatus (by decide) (by decide)) 1 3⟩
  · unfold A.holCmodel; omega
  · unfold A.holCmodel A.holCartCmd; omega
  · unfold State.cartSerial State.rd64
    rw [kept A.holCartSerialLo (by decide) (by decide), kept (A.holCartSerialLo + 4) (by decide) (by decide)]

theorem cartForget_regs (s : State) : s.cartForget.regs = (s.putFit true 0 (List.replicate 15 0)).regs := by
  unfold State.cartForget State.when
  dsimp only
  split <;> rfl

/-- FORGET leaves the model page its SEQ, one on, and zeros. -/
theorem cartForget_rd {s : State} (h : CellList.wf resetOf s.regs = true) {k : Nat} (small : k < 16) :
    s.cartForget.rd (A.holCmodel k) = (word ((s.f (A.holCmodel 0) 0 8 + 1) % 256) :: List.replicate 15 0).getD k 0 := by
  rw [State.rd, cartForget_regs]
  exact putFit_rd h true 0 (List.replicate 15 0) small

/-- FORGET zeroes the model in the cistern and in flash. -/
theorem cartForget_stores (s : State) : s.cartForget.hol.cistern.cart = List.replicate 16 0 ∧ s.cartForget.hol.flash.cart = List.replicate 16 0 := by
  unfold State.cartForget State.when
  dsimp only
  split <;> exact ⟨rfl, rfl⟩

/-- Settles O10: a taken pair is the command on `State.pairTaken`, which keeps the cartridge's state, model page and serial. -/
theorem cartridgeGuardedCommandsComplete : Obligations.CartridgeGuardedCommandsComplete := by
  unfold Obligations.CartridgeGuardedCommandsComplete
  refine ⟨fun s u dt src c canonical eq taken active => ?waits, fun s u dt src c canonical eq taken idle => ?releases,
    fun s u dt src c canonical eq taken => ?resumes, fun s u dt src c canonical eq taken => ?forgets⟩
  all_goals
    have start : u.canonical = true := eq ▸ dueFirst_canonical canonical dt
    refine completes_guarded rfl eq taken ?_
    rw [guardPair_of taken, guardAct_cartCmd]
  case waits =>
    obtain ⟨_, state⟩ := pairTaken_cart start (srcOf src) 1
    rw [cartCmd_release]
    exact cartRelease_active (state.trans active)
  case releases =>
    obtain ⟨block, state⟩ := pairTaken_cart start (srcOf src) 1
    rw [cartCmd_release, ← block, ← pairTaken_ts u (srcOf src) A.holCartCmd 1]
    exact cartRelease_idle (fun e => idle (state.symm.trans e))
  case resumes =>
    rw [cartCmd_resume]
    exact (cartPower_shown (RegFrame.pairTaken u _ A.holCartCmd 2 (regs_of_canonical start)).1).2
  case forgets =>
    obtain ⟨cistern, flash⟩ := cartForget_stores (u.pairTaken (srcOf src) A.holCartCmd 3)
    have regs := (RegFrame.pairTaken u (srcOf src) A.holCartCmd 3 (regs_of_canonical start)).1
    have seq : (u.pairTaken (srcOf src) A.holCartCmd 3).f (A.holCmodel 0) 0 8 = u.f (A.holCmodel 0) 0 8 :=
      f_of_rd (pairTaken_rd_ne start _ 3 (by decide) (by unfold InGlbHif InHif; decide)) 0 8
    rw [cartCmd_forget]
    refine ⟨(cartForget_rd regs (by decide)).trans ?_, fun k small first => ⟨(cartForget_rd regs small).trans ?_, cistern, flash⟩⟩
    · rw [seq]
      rfl
    · cases k with
      | zero => exact absurd rfl first
      | succ k => rw [List.getD_cons_succ, List.getD_replicate 0 (by omega)]

end Sys2Proof.Machine
end

section
/-!
SUPPORT. O11: samples, model copies, keep-alive seconds and the keeper's fault (R106, R109, R123, R126).
-/

set_option Elab.async false

namespace Sys2Proof.Machine

/-! ### Signed words (R57) -/

/-- A number saturated into 32 bits, read back as signed. -/
theorem sfld_sat32 (x : Int) : sfld (sat32 x) 0 32 = clamp (-2147483647) 2147483647 x := by
  have low : -2147483647 ≤ clamp (-2147483647) 2147483647 x := by unfold clamp; split <;> [skip; split] <;> omega
  have high : clamp (-2147483647) 2147483647 x ≤ 2147483647 := by unfold clamp; split <;> [skip; split] <;> omega
  unfold sat32
  generalize clamp (-2147483647) 2147483647 x = y at low high
  unfold sfld fld signed wordOfInt
  rw [BitVec.toNat_ofInt, Nat.shiftRight_zero]
  split <;> omega

/-! ### Samples and copies (R106, R109) -/

/-- Samples outside the safe state: the rings take the intervals' samples and new intervals start; a refit changes the cistern's copy
alone. -/
theorem modelSample_hol {s : State} (safe : s.bit A.holStatus 8 = false) : ∃ c, s.modelSample.hol = { s.hol with
    keeperRing := ((s.hol.keeperSum.sample (s.nowNs / 1000000000)).toList ++ s.hol.keeperRing).take 768
    cartRing := ((if s.cartPowered then s.hol.cartSum.sample (s.nowNs / 1000000000) else none).toList ++ s.hol.cartRing).take 768
    keeperSum := ⟨0, 0, 0, true⟩, cartSum := ⟨0, 0, 0, true⟩, cistern := c } := by
  have refitted : ∀ (t : State) (c : Bool), (t.when c (fun u => (u.refit false).when (decide (u.cartState ≠ 0)) (fun v => v.refit true))).hol =
      t.hol := fun t c => PartFrame.when (.refits t) .hol (by decide)
  unfold State.modelSample
  rw [if_neg (by simp [safe])]
  dsimp only
  unfold State.cisternModels State.setHol
  dsimp only
  rw [refitted]
  exact ⟨_, rfl⟩

theorem modelFlash_flash (s : State) : s.modelFlash.hol.flash = s.modelStore false := by
  unfold State.modelFlash State.when
  split <;> rfl

/-! ### Keep-alive mode (R123, R124) -/

/-- The registers that a second of keep-alive mode writes after the sensors. -/
def KeepWord (a : Nat) : Prop := InTsc a ∨ AnchorWord a ∨ a = A.holStatus

theorem RegFrame.holdSteer (s : State) : RegFrame InTsc s s.holdSteer := by
  unfold State.holdSteer
  split
  · exact .setFreq s _
  · exact .refl _ s

theorem RegFrame.raise_hol (s : State) (b : Nat) : RegFrame KeepWord s (s.raise A.holEvent b) :=
  .raise_of s _ b (.inr (.inl (.inr (by decide)))) (fun _ k => .inr (.inl (.inl k)))

theorem RegFrame.tempCheck (s : State) : RegFrame KeepWord s s.tempCheck :=
  .trans (.trans (.setBit s A.holStatus 6 _ (.inr (.inr rfl))) (.when _ _ (fun t => t.raise A.holEvent 10) (.raise_hol _ 10)))
    (.when _ _ (fun t => t.reanchor 0) ((RegFrame.reanchor _ 0).mono (fun _ w => .inr (.inl w))))

theorem RegFrame.modeTick (s : State) : RegFrame KeepWord s s.modeTick := by
  have mode : ∀ (t : State) (m : Nat), RegFrame KeepWord t (t.setMode m) := fun t m => (RegFrame.setMode t m).mono (fun _ => .inl)
  unfold State.modeTick
  refine .ite (fun _ => .when _ _ _ ((mode _ 4).trans (.raise_hol _ 2))) (fun _ => .ite (fun _ => .refl _ s) (fun _ => .ite (fun _ => ?_)
    (fun _ => .ite (fun _ => .when _ _ _ (mode _ 1)) (fun _ => .refl _ s))))
  refine .ite (fun _ => ?_) (fun _ => .same rfl)
  split
  · exact .same rfl
  · exact .when _ _ _ (mode _ 2)

theorem RegFrame.showElapsed (s : State) : RegFrame KeepWord s s.showElapsed :=
  .when _ _ _ (.wr _ _ _ (.inr (.inl (.inr (by decide)))))

/-- The sensors and, in HOLDOVER and LOST, the correction of a second of keep-alive mode. -/
def State.kaSteered (s : State) (tempKeeper : Int) (tempCart : Option Int) : State :=
  let t := s.sense ⟨none, none, none, tempKeeper, tempCart, s.bit A.holStatus 7⟩ false
  t.when (decide (t.tscMode = 3) || decide (t.tscMode = 4)) (fun t => t.tempCheck.holdSteer)

/-- The radius of R52 is in force. -/
def State.radiusTaken (s : State) : State :=
  { s with ts := { s.ts with rho := s.computeRadius, rhoComputed := s.computeRadius, rhoFine := s.computeRadius * 65536 } }

theorem kaSecond_held {s : State} (keeping : s.hol.keepAlive = true) (started : s.boot.at_ = none) (tk : Int) (tc : Option Int) :
    s.kaSecond tk tc = (s.kaSteered tk tc).radiusTaken.modeTick.showElapsed.cisternStamp := by
  unfold State.kaSecond State.kaTick
  rw [if_pos (by simp [keeping]), if_neg (by simp [started])]
  rfl

/-- TEMP_KEEPER shows the keeper's temperature (R108). -/
theorem sense_tempKeeper {s : State} (h : CellList.wf resetOf s.regs = true) (m : TickMeas) :
    CellList.wf resetOf (s.sense m false).regs = true ∧ (s.sense m false).rd A.holTempKeeper = sat32 m.tempKeeper := by
  have rest : RegFrame (fun a => a = A.holTempCart ∨ a = A.holStatus) (s.wr A.holTempKeeper (sat32 m.tempKeeper)) (s.sense m false) :=
    .trans (.wr _ _ _ (.inl rfl)) (.setBit _ _ _ _ (.inr rfl))
  obtain ⟨regs, kept⟩ := rest (CellList.wf_set resetOf _ _ _ h)
  exact ⟨regs, (kept A.holTempKeeper (by decide)).trans ((rd_wr s _ _ _ h).trans (if_pos rfl))⟩

theorem RegFrame.kaSteered (s : State) (tk : Int) (tc : Option Int) :
    RegFrame KeepWord (s.sense ⟨none, none, none, tk, tc, s.bit A.holStatus 7⟩ false) (s.kaSteered tk tc) :=
  .when _ _ (fun t => t.tempCheck.holdSteer) ((RegFrame.tempCheck _).trans ((RegFrame.holdSteer _).mono (fun _ => .inl)))

theorem RegFrame.radiusTaken (s : State) : RegFrame KeepWord s s.radiusTaken := .same rfl

theorem cisternStamp_time (s : State) :
    s.cisternStamp.hol.cisternTime = some (s.cisternStamp.ts.rho, s.cisternStamp.tscMode) := rfl

theorem cisternStamp_rd (s : State) (a : Nat) : s.cisternStamp.rd a = s.rd a := rfl

/-- What follows the sensors leaves the keeper's temperature. -/
theorem kaSteered_tempKeeper {s : State} (h : CellList.wf resetOf s.regs = true) (tk : Int) (tc : Option Int) :
    (s.kaSteered tk tc).radiusTaken.modeTick.showElapsed.cisternStamp.sf A.holTempKeeper 0 32 = clamp (-2147483647) 2147483647 tk := by
  obtain ⟨regs, shown⟩ := sense_tempKeeper h ⟨none, none, none, tk, tc, s.bit A.holStatus 7⟩
  have rest : RegFrame KeepWord (s.sense ⟨none, none, none, tk, tc, s.bit A.holStatus 7⟩ false)
      (s.kaSteered tk tc).radiusTaken.modeTick.showElapsed :=
    .trans (.trans (.trans (.kaSteered s tk tc) (.radiusTaken _)) (.modeTick _)) (.showElapsed _)
  have kept := (rest regs).2 A.holTempKeeper (by unfold KeepWord AnchorWord InTsc InGlbHif InHif; decide)
  unfold State.sf
  rw [cisternStamp_rd, kept, shown]
  exact sfld_sat32 tk

theorem kaSecond_cistern {s : State} (keeping : s.hol.keepAlive = true) {b : StartPoint} (starting : s.boot.at_ = some b) (tk : Int)
    (tc : Option Int) : s.kaSecond tk tc = s.cisternSecond := by
  unfold State.kaSecond State.kaTick
  rw [if_pos (by simp [keeping]), if_pos (by simp [starting])]

theorem lostRadius_congr {s t : State} (status : t.rd A.holStatus = s.rd A.holStatus) (limit : t.rd A.holLostRadius = s.rd A.holLostRadius) :
    t.lostRadius = s.lostRadius := by
  unfold State.lostRadius
  rw [bit_of_rd status, f_of_rd limit]

/-- A second of the cistern counter: the radius, and LOST beyond the unit's LOST_RADIUS (R124, R55). -/
theorem cisternSecond_time {s : State} (h : CellList.wf resetOf s.regs = true) {r m : Nat} (stored : s.hol.cisternTime = some (r, m)) :
    s.cisternSecond.hol.cisternTime =
      some (s.cisternSecond.ts.rho, if m = 3 ∧ s.lostRadius < s.cisternSecond.ts.rho then 4 else m) := by
  obtain ⟨_, kept⟩ := RegFrame.when s (decide (m = 3) || decide (m = 4)) (fun t => t.holdSteer) (.holdSteer s) h
  have limit := lostRadius_congr (kept A.holStatus (by unfold InTsc InGlbHif InHif; decide))
    (kept A.holLostRadius (by unfold InTsc InGlbHif InHif; decide))
  rw [← limit]
  unfold State.cisternSecond
  rw [stored]
  rfl

/-- Settles O11: a refit changes registers and reports alone, so the rings and intervals stand as the samples left them; a second of
keep-alive mode ends with the cistern's stamp, and what follows its sensors keeps the keeper's temperature. -/
theorem oscillatorUpkeepCompletes : Obligations.OscillatorUpkeepCompletes := by
  unfold Obligations.OscillatorUpkeepCompletes
  refine ⟨fun s u dt canonical eq boundary free => completes_after State.modelSampleAt rfl eq ?sample,
    fun s u dt canonical eq => completes_after State.modelFlash rfl eq ?copy,
    fun s u dt tk tc canonical eq keeping started => completes_after (·.kaSecond tk tc) rfl eq ?keepAlive,
    fun s u dt r m b tk tc canonical eq keeping starting stored => completes_after (·.kaSecond tk tc) rfl eq ?cistern,
    fun s u dt canonical eq => completes_after (·.raise A.holEvent 13) rfl eq ?fault⟩
  all_goals
    have regs : CellList.wf resetOf u.regs = true := regs_of_canonical (eq ▸ advance_canonical canonical dt)
  case sample =>
    obtain ⟨c, hol⟩ := modelSample_hol free
    rw [State.modelSampleAt, if_pos boundary, hol]
    exact ⟨rfl, rfl, rfl, rfl⟩
  case copy =>
    rw [modelFlash_flash]
    exact ⟨rfl, rfl, rfl⟩
  case keepAlive =>
    rw [kaSecond_held keeping started]
    exact ⟨cisternStamp_time _, kaSteered_tempKeeper regs tk tc⟩
  case cistern =>
    rw [kaSecond_cistern keeping starting]
    exact cisternSecond_time regs stored
  case fault => exact ⟨raise_bit regs (by decide) not_inHif_holEvent, raise_seq regs not_inHif_holEvent⟩

end Sys2Proof.Machine
end

section
/-!
SUPPORT. A state in which a commit of GNS_CMD is applied a second time, as a group held for its power domain (R158, R371).
-/

set_option Elab.async false

namespace Sys2Proof.Machine

/-- Every power domain is on, and GNS_CMD is still listed among the groups applied while their domain was off. -/
def heldCommand : State :=
  { State.reset.wr A.pwrDomState 0xFFFF with pwr := { State.reset.pwr with heldGroups := [7] } }

/-- After CLEAR_EXCL CMD_RESULT shows operation 0. -/
theorem heldCommand_result :
    ((heldCommand.advance 0).dueFirst.groupCommand 0 7 A.gnsCmd 0 4 9 0 [] 1).f A.gnsCmdResult 0 4 = 0 := by
  decide +kernel

/-- Refutes O14: `State.takeGroup` lets the block take up GNS_CMD, after which the live OP reads 0 (R158), and then whatever
`State.takeHeld` finds applied while its domain was off. In a canonical state GNS_CMD itself can be among those although its domain
is on: it is applied a second time, with OP 0, and CMD_RESULT shows operation 0 in place of the one committed. -/
theorem not_gnssCommandsComplete : ¬ Obligations.GnssCommandsComplete := by
  unfold Obligations.GnssCommandsComplete
  rintro ⟨-, -, -, -, -, -, -, -, clears⟩
  have canonical : heldCommand.canonical = true := by decide +kernel
  have takes : (heldCommand.advance 0).dueFirst.takesCommit 0 7
      ((heldCommand.advance 0).dueFirst.commandWords A.gnsCmd 0 4 9 0) := by decide +kernel
  obtain ⟨t, next, -, shown, -⟩ := clears heldCommand _ 0 0 0 canonical rfl takes
  obtain rfl := Host.Outcome.next.inj next
  exact absurd (heldCommand_result.symm.trans shown) (by decide)

end Sys2Proof.Machine
end

section
/-!
SUPPORT. The sides of the GNSS receiver: a side after a change of one, what an operation keeps of it, and its registers.
-/

set_option Elab.async false

namespace Sys2Proof.Machine

/-! ### Sides -/

theorem side_congr {s t : State} (h : t.gnss = s.gnss) (a : Nat) : t.side a = s.side a := by rw [State.side, State.side, h]

theorem side_setSide {s : State} {a : Nat} (listed : a < s.gnss.sides.length) (f : GnssSide → GnssSide) :
    (s.setSide a f).side a = f (s.side a) := getD_modAt f GnssSide.empty s.gnss.sides a listed

theorem setSide_sides_length (s : State) (a : Nat) (f : GnssSide → GnssSide) :
    (s.setSide a f).gnss.sides.length = s.gnss.sides.length := length_modAt f s.gnss.sides a

/-- A side unlike the empty one is one of the receiver's. -/
theorem listed_of_side {s : State} {a : Nat} (h : s.side a ≠ GnssSide.empty) : a < s.gnss.sides.length := by
  by_contra beyond
  exact h (List.getD_eq_default _ _ (by omega))

@[simp] theorem raise_gnss (s : State) (reg b : Nat) : (s.raise reg b).gnss = s.gnss := PartFrame.raise s reg b .gnss (by decide)

@[simp] theorem inc_gnss (s : State) (a : Nat) : (s.inc a).gnss = s.gnss := PartFrame.inc s a .gnss (by decide)

@[simp] theorem raise_ts (s : State) (reg b : Nat) : (s.raise reg b).ts = s.ts := PartFrame.raise s reg b .ts (by decide)

/-! ### What an operation keeps of a side -/

/-- As many sides as before, and `p` of side `a` as it was. -/
def SideKept {α : Type} (p : GnssSide → α) (a : Nat) (s t : State) : Prop :=
  t.gnss.sides.length = s.gnss.sides.length ∧ p (t.side a) = p (s.side a)

section
variable {α : Type} {p : GnssSide → α} {a : Nat}

theorem SideKept.of_gnss {s t : State} (h : t.gnss = s.gnss) : SideKept p a s t :=
  ⟨by rw [h], by rw [side_congr h]⟩

theorem SideKept.refl (s : State) : SideKept p a s s := .of_gnss rfl

/-- An operation that leaves the receiver alone. -/
theorem SideKept.of_partFrame {l : List Part} {s t : State} (h : PartFrame l s t) (out : Part.gnss ∉ l := by decide) :
    SideKept p a s t := .of_gnss (h .gnss out)

theorem SideKept.trans {s t u : State} (h : SideKept p a s t) (k : SideKept p a t u) : SideKept p a s u :=
  ⟨k.1.trans h.1, k.2.trans h.2⟩

theorem SideKept.ite {c : Prop} [Decidable c] {s t u : State} (h : SideKept p a s t) (k : SideKept p a s u) :
    SideKept p a s (if c then t else u) := by split <;> assumption

theorem SideKept.when {s : State} {c : Bool} {g : State → State} (h : SideKept p a s (g s)) : SideKept p a s (s.when c g) := by
  cases c
  · exact .refl s
  · exact h

theorem SideKept.each {β : Type} {g : β → State → State} (h : ∀ x t, SideKept p a t (g x t)) :
    ∀ (l : List β) (s : State), SideKept p a s (s.each l g)
  | [], s => .refl s
  | x :: l, s => (h x s).trans (SideKept.each h l (g x s))

/-- A change of a side that leaves `p` alone. -/
theorem SideKept.setSide (s : State) (b : Nat) {f : GnssSide → GnssSide} (h : ∀ x, p (f x) = p x) :
    SideKept p a s (s.setSide b f) := by
  refine ⟨setSide_sides_length s b f, ?_⟩
  by_cases same : a = b
  · subst same
    by_cases listed : a < s.gnss.sides.length
    · rw [side_setSide listed, h]
    · have beyond : (modAt s.gnss.sides a f).length ≤ a := by rw [length_modAt]; omega
      exact congrArg p ((List.getD_eq_default _ GnssSide.empty beyond).trans (List.getD_eq_default _ _ (by omega)).symm)
  · exact congrArg p (getD_modAt_ne f GnssSide.empty s.gnss.sides same)

theorem SideKept.listed {s t : State} (h : SideKept p a s t) (k : a < s.gnss.sides.length) : a < t.gnss.sides.length := h.1 ▸ k

end

/-- Of the receiver, an operation changes the sides alone. -/
def SidesOnly (s t : State) : Prop := { t.gnss with sides := s.gnss.sides } = s.gnss

theorem SidesOnly.of_gnss {s t : State} (h : t.gnss = s.gnss) : SidesOnly s t := by rw [SidesOnly, h]

theorem SidesOnly.trans {s t u : State} (h : SidesOnly s t) (k : SidesOnly t u) : SidesOnly s u := by
  unfold SidesOnly at h k ⊢
  rw [← k] at h
  exact h

theorem SidesOnly.setSide (s : State) (a : Nat) (f : GnssSide → GnssSide) : SidesOnly s (s.setSide a f) := rfl

theorem SidesOnly.each {β : Type} {g : β → State → State} (h : ∀ x t, SidesOnly t (g x t)) :
    ∀ (l : List β) (s : State), SidesOnly s (s.each l g)
  | [], _ => rfl
  | x :: l, s => (h x s).trans (SidesOnly.each h l (g x s))

/-! ### Registers of a side -/

/-- Beyond block HIF's registers. -/
theorem not_inHif_of_le {a : Nat} (h : 0x7800 ≤ a) : ¬ InHif a := by unfold InHif; omega

theorem not_inHif_gnsStatus : ¬ InHif A.gnsStatus := not_inHif_of_le (by decide)

theorem not_inHif_gnsEvent : ¬ InHif A.gnsEvent := not_inHif_of_le (by decide)

theorem not_inHif_gnsSideStatus (a : Nat) : ¬ InHif (A.gnsSideStatus a) := not_inHif_of_le (by unfold A.gnsSideStatus; omega)

theorem not_inHif_gnsSideEvent (a : Nat) : ¬ InHif (A.gnsSideEvent a) := not_inHif_of_le (by unfold A.gnsSideEvent; omega)

theorem not_inHif_gnsSideBias (a : Nat) : ¬ InHif (A.gnsSideBias a) := not_inHif_of_le (by unfold A.gnsSideBias; omega)

theorem gnsSideEvent_ne_status (a : Nat) : A.gnsSideEvent a ≠ A.gnsSideStatus a := by unfold A.gnsSideEvent A.gnsSideStatus; omega

/-- A counter other than the kept register, its second word included. -/
theorem FieldKept.inc {a lo n : Nat} (s : State) {c : Nat} (ne : c ≠ a) (ne' : c + 4 ≠ a) : FieldKept a lo n s (s.inc c) :=
  .of_regFrame (RegFrame.inc (W := fun x => x = c ∨ x = c + 4) s c (.inl rfl) (fun _ => .inr rfl))
    (fun m => m.elim (fun e => ne e.symm) (fun e => ne' e.symm))

theorem FieldKept.when {a lo n : Nat} {s : State} {c : Bool} {g : State → State} (h : FieldKept a lo n s (g s)) :
    FieldKept a lo n s (s.when c g) := by
  cases c
  · exact .refl a lo n s
  · exact h

/-- A channel's status words of side `a`. -/
def InChans (a x : Nat) : Prop := 0x21200 + 0x1000 * a ≤ x ∧ x < 0x21C00 + 0x1000 * a

/-- The words of a channel without a signal. -/
def State.chanCleared (s : State) (a c : Nat) : State :=
  (((s.wr (chanWord a c) (word (b2n (s.chanFenced a c) * 2 ^ 24))).wr (chanWord a c + 4) 0).wr (chanWord a c + 8) 0).wr
    (chanWord a c + 12) 0

theorem freeChan_eq (s : State) (a c : Nat) : s.freeChan a c = (s.chanCleared a c).setLoop a c ChanLoop.empty := rfl

theorem chanCleared_gnss (s : State) (a c : Nat) : (s.chanCleared a c).gnss = s.gnss := by
  unfold State.chanCleared
  rw [State.wr_gnss, State.wr_gnss, State.wr_gnss, State.wr_gnss]

theorem setLoop_regs (s : State) (a c : Nat) (l : ChanLoop) : (s.setLoop a c l).regs = s.regs := rfl

theorem RegFrame.freeChan (s : State) (a : Nat) {c : Nat} (h : c < 160) : RegFrame (InChans a) s (s.freeChan a c) := by
  have word : ∀ x, chanWord a c ≤ x → x ≤ chanWord a c + 12 → InChans a x := fun x low high => by
    unfold chanWord A.gnsSideChan at low high
    unfold InChans
    omega
  have cleared : RegFrame (InChans a) s (s.chanCleared a c) := by
    refine .trans (.trans (.trans (.wr s _ _ (word _ ?_ ?_)) (.wr _ _ _ (word _ ?_ ?_))) (.wr _ _ _ (word _ ?_ ?_)))
      (.wr _ _ _ (word _ ?_ ?_)) <;> omega
  rw [freeChan_eq]
  exact cleared.after (setLoop_regs _ _ _ _)

theorem RegFrame.freeChans (s : State) (a : Nat) : RegFrame (InChans a) s (s.freeChans a) :=
  .each _ _ (fun _ m t => .freeChan t a (List.mem_range.mp (List.mem_of_mem_filter m))) s

theorem SidesOnly.freeChan (s : State) (a c : Nat) : SidesOnly s (s.freeChan a c) := by
  rw [freeChan_eq]
  exact .trans (.of_gnss (chanCleared_gnss s a c)) (.setSide _ a _)

theorem SidesOnly.freeChans (s : State) (a : Nat) : SidesOnly s (s.freeChans a) := .each (fun c t => .freeChan t a c) _ s

theorem SidesOnly.biasOn (s : State) (a : Nat) (on : Bool) : SidesOnly s (s.biasOn a on) := rfl

/-- Free channels keep of a side what does not speak of their loops. -/
theorem SideKept.freeChans {α : Type} {p : GnssSide → α} (h : ∀ x l, p { x with loops := l } = p x) (s : State) (a b : Nat) :
    SideKept p b s (s.freeChans a) := by
  refine .each (fun c t => ?_) _ s
  rw [freeChan_eq]
  exact .trans (.of_gnss (chanCleared_gnss t a c)) (.setSide _ a (fun x => h x _))

/-! ### The start of a side (R134) -/

/-- The registers that the start and the halt of side `a` write after GNS.STATUS. -/
def StartWord (a x : Nat) : Prop := x = A.gnsSideStatus a ∨ x = A.gnsSideBias a ∨ InChans a x

theorem startWord_ge {a x : Nat} (h : StartWord a x) : 0x21000 ≤ x := by
  unfold StartWord InChans A.gnsSideStatus A.gnsSideBias at h
  omega

theorem RegFrame.biasOn (s : State) (a : Nat) (on : Bool) : RegFrame (fun x => x = A.gnsSideBias a) s (s.biasOn a on) :=
  RegFrame.after (RegFrame.wr s (A.gnsSideBias a) _ rfl)

theorem RegFrame.haltAfter (s : State) (a : Nat) : RegFrame (StartWord a) (s.setBit A.gnsStatus a false) (s.haltSide a) :=
  .trans ((RegFrame.freeChans _ a).mono (fun _ w => .inr (.inr w))) ((RegFrame.biasOn _ a false).mono (fun _ w => .inr (.inl w)))

/-- A start after the side runs and its kind is shown. -/
theorem RegFrame.startAfter (s : State) (a : Nat) :
    RegFrame (fun x => x = A.gnsSideBias a ∨ InChans a x) ((s.setBit A.gnsStatus a true).sfW (A.gnsSideStatus a) 8 2 (s.startKind a))
      (s.startSide a) :=
  .trans ((RegFrame.freeChans _ a).mono (fun _ => .inr)).after ((RegFrame.biasOn _ a true).mono (fun _ => .inl))

/-- A side that starts runs. -/
theorem startSide_runs {s : State} (h : CellList.wf resetOf s.regs = true) {a : Nat} (small : a < 32) :
    (s.startSide a).bit A.gnsStatus a = true := by
  have set : (s.setBit A.gnsStatus a true).bit A.gnsStatus a = true := (bit_setBit s _ a a true h small).trans (if_pos rfl)
  have kind : FieldKept A.gnsStatus a 1 (s.setBit A.gnsStatus a true)
      ((s.setBit A.gnsStatus a true).sfW (A.gnsSideStatus a) 8 2 (s.startKind a)) :=
    .wr _ _ (by unfold A.gnsSideStatus A.gnsStatus; omega)
  have rest := FieldKept.of_regFrame (a := A.gnsStatus) (lo := a) (n := 1) (.startAfter s a)
    (by unfold InChans A.gnsSideBias A.gnsStatus; omega)
  exact ((kind.trans rest).bit (CellList.wf_set resetOf _ _ _ h)).trans set

/-- A start writes no register below the sides' but GNS.STATUS. -/
theorem RegFrame.startSide (s : State) (a : Nat) : RegFrame (fun x => x = A.gnsStatus ∨ 0x21000 ≤ x) s (s.startSide a) := by
  have status : 0x21000 ≤ A.gnsSideStatus a := by unfold A.gnsSideStatus; omega
  refine .trans (.trans (.setBit s A.gnsStatus a true (.inl rfl)) (.sfW _ _ 8 2 (s.startKind a) (.inr status))) ?_
  exact (RegFrame.startAfter s a).mono (fun x w => .inr (startWord_ge (.inr w)))

theorem SidesOnly.startSide (s : State) (a : Nat) : SidesOnly s (s.startSide a) :=
  .trans (t := (s.setBit A.gnsStatus a true).sfW (A.gnsSideStatus a) 8 2 (s.startKind a)) rfl
    (.trans (.freeChans _ a) (.trans (.setSide _ a _) (.biasOn _ a true)))

/-- The halted side does not run. -/
theorem haltSide_stopped {s : State} (h : CellList.wf resetOf s.regs = true) {a : Nat} (small : a < 32) :
    (s.haltSide a).bit A.gnsStatus a = false := by
  have set : (s.setBit A.gnsStatus a false).bit A.gnsStatus a = false := (bit_setBit s _ a a false h small).trans (if_pos rfl)
  have rest := FieldKept.of_regFrame (a := A.gnsStatus) (lo := a) (n := 1) (.haltAfter s a)
    (fun w => absurd (startWord_ge w) (by decide))
  exact (rest.bit (CellList.wf_set resetOf _ _ _ h)).trans set

theorem RegFrame.haltSide (s : State) (a : Nat) : RegFrame (fun x => x = A.gnsStatus ∨ 0x21000 ≤ x) s (s.haltSide a) :=
  .trans (.setBit s _ _ _ (.inl rfl)) ((RegFrame.haltAfter s a).mono (fun _ w => .inr (startWord_ge w)))

theorem SidesOnly.haltSide (s : State) (a : Nat) : SidesOnly s (s.haltSide a) :=
  .trans (t := s.setBit A.gnsStatus a false) rfl (.trans (.freeChans _ a) (.biasOn _ a false))

end Sys2Proof.Machine
end

section
/-!
SUPPORT. O13: surveys, captures and replays (R145, R146, R154 to R156).
-/

set_option Elab.async false

namespace Sys2Proof.Machine

/-! ### Surveys (R145, R146) -/

theorem surveyRecord_gnss (s : State) (a : Nat) (v : Survey) (phase status progress : Nat) :
    (s.surveyRecord a v phase status progress).gnss = s.gnss := PartFrame.surveyRecord s a v phase status progress .gnss (by decide)

theorem surveyRecord_regs (s : State) (a : Nat) (v : Survey) (phase status progress : Nat) :
    (s.surveyRecord a v phase status progress).regs = s.regs := PartFrame.surveyRecord s a v phase status progress .regs (by decide)

/-- The progress record advances SEQ and is due again 60 s on. -/
theorem surveyReport_survey {s : State} {a : Nat} (listed : a < s.gnss.sides.length) {v : Survey} (running : (s.side a).survey = some v)
    (due : v.reportAt ≤ s.ts.meas) :
    ((s.surveyReport a).side a).survey = some { v with seq := v.seq + 1, reportAt := v.reportAt + secs 60 } := by
  unfold State.surveyReport
  rw [running]
  dsimp only
  rw [if_pos due, side_setSide (by rw [surveyRecord_gnss]; exact listed)]

/-- A survey's last record, and the side without it. -/
def State.surveyClosed (s : State) (a : Nat) (v : Survey) (status : Nat) : State :=
  (s.surveyRecord a v 3 status (if status = 0 then 10000 else s.surveyProgress v)).setSide a (fun x => { x with survey := none })

theorem endSurvey_of {s : State} {a : Nat} {v : Survey} (running : (s.side a).survey = some v) (status : Nat) :
    s.endSurvey a status = ((s.surveyClosed a v status).sfW (A.gnsSideStatus a) 6 2 0).raise (A.gnsSideEvent a) 4 := by
  unfold State.endSurvey
  rw [running]
  rfl

/-- What the end of a survey leaves: no survey, the event, POS_VALID as it was. -/
theorem endSurvey_shown {s : State} (h : CellList.wf resetOf s.regs = true) {a : Nat} (listed : a < s.gnss.sides.length) {v : Survey}
    (running : (s.side a).survey = some v) (status : Nat) :
    CellList.wf resetOf (s.endSurvey a status).regs = true ∧ a < (s.endSurvey a status).gnss.sides.length ∧
      ((s.endSurvey a status).side a).survey = none ∧ (s.endSurvey a status).bit (A.gnsSideEvent a) 4 = true ∧
      (s.endSurvey a status).bit (A.gnsSideStatus a) 4 = s.bit (A.gnsSideStatus a) 4 := by
  have recorded : a < (s.surveyRecord a v 3 status (if status = 0 then 10000 else s.surveyProgress v)).gnss.sides.length := by
    rw [surveyRecord_gnss]; exact listed
  have closed : (s.surveyClosed a v status).regs = s.regs := surveyRecord_regs s a v 3 status _
  have regs : CellList.wf resetOf ((s.surveyClosed a v status).sfW (A.gnsSideStatus a) 6 2 0).regs = true :=
    CellList.wf_set resetOf _ _ _ (closed ▸ h)
  have position : FieldKept (A.gnsSideStatus a) 4 1 s (s.endSurvey a status) := by
    rw [endSurvey_of running]
    exact (((FieldKept.refl _ _ _ s).after closed).trans (.sfW _ 6 2 0 (by decide) (.inl (by decide)))).trans
      (.raise _ 4 (gnsSideEvent_ne_status a) (not_inHif_gnsSideStatus a))
  refine ⟨(position h).1, ?_, ?_, ?_, position.bit h⟩
  · rw [endSurvey_of running, raise_gnss]
    exact (setSide_sides_length _ a _).symm ▸ recorded
  · rw [endSurvey_of running, side_congr (raise_gnss _ _ _)]
    exact congrArg GnssSide.survey (side_setSide recorded _)
  · rw [endSurvey_of running]
    exact raise_bit regs (by decide) (not_inHif_gnsSideEvent a)

/-- The words of a position in force. -/
def positionWords (a : Nat) (p : Int × Int × Int) (sigma : Nat) : List (Nat × Word) :=
  [(A.gnsSidePosX a, wordOfInt p.1), (A.gnsSidePosY a, wordOfInt p.2.1), (A.gnsSidePosZ a, wordOfInt p.2.2),
    (A.gnsSidePosSigma a, satU32 sigma)]

theorem putPosition_eq (s : State) (a : Nat) (p : Int × Int × Int) (sigma : Nat) (fixed : Bool) :
    s.putPosition a p sigma fixed = (((s.wrAll (positionWords a p sigma)).setBit (A.gnsSideStatus a) 4 true).setBit (A.gnsSideStatus a) 5
      fixed).setSide a (fun x => { x with posKnown := true }) := rfl

theorem RegFrame.wrAll {W : Nat → Prop} {l : List (Nat × Word)} (h : ∀ e ∈ l, W e.1) (s : State) : RegFrame W s (s.wrAll l) :=
  .each (W := W) l (fun e t => t.wr e.1 e.2) (fun e m t => .wr t _ _ (h e m)) s

/-- A position in force shows in its words and in POS_VALID; the events stay. -/
theorem putPosition_shown {s : State} (h : CellList.wf resetOf s.regs = true) (a : Nat) (p : Int × Int × Int) (sigma : Nat) (fixed : Bool) :
    (s.putPosition a p sigma fixed).bit (A.gnsSideStatus a) 4 = true ∧
      (s.putPosition a p sigma fixed).rd (A.gnsSidePosX a) = wordOfInt p.1 ∧
      (s.putPosition a p sigma fixed).rd (A.gnsSidePosSigma a) = satU32 sigma ∧
      (s.putPosition a p sigma fixed).rd (A.gnsSideEvent a) = s.rd (A.gnsSideEvent a) := by
  have once : ((positionWords a p sigma).map Prod.fst).Nodup := by
    simp [positionWords, A.gnsSidePosX, A.gnsSidePosY, A.gnsSidePosZ, A.gnsSidePosSigma]
  have event : A.gnsSideEvent a ∉ (positionWords a p sigma).map Prod.fst := by
    simp [positionWords, A.gnsSidePosX, A.gnsSidePosY, A.gnsSidePosZ, A.gnsSidePosSigma, A.gnsSideEvent]
  have words : CellList.wf resetOf (s.wrAll (positionWords a p sigma)).regs = true :=
    (RegFrame.wrAll (W := fun _ => True) (fun _ _ => trivial) s h).1
  have flags : RegFrame (fun x => x = A.gnsSideStatus a) (s.wrAll (positionWords a p sigma)) (s.putPosition a p sigma fixed) :=
    (.trans (.setBit _ _ 4 true rfl) (.setBit _ _ 5 fixed rfl) : RegFrame (fun x => x = A.gnsSideStatus a) _ _).after
  have kept := (flags words).2
  have valid : ((s.wrAll (positionWords a p sigma)).setBit (A.gnsSideStatus a) 4 true).bit (A.gnsSideStatus a) 4 = true :=
    (bit_setBit _ _ 4 4 true words (by decide)).trans (if_pos rfl)
  have later : FieldKept (A.gnsSideStatus a) 4 1 ((s.wrAll (positionWords a p sigma)).setBit (A.gnsSideStatus a) 4 true)
      (s.putPosition a p sigma fixed) := (FieldKept.setBit _ 5 fixed (by decide) (.inl (by decide))).after
  refine ⟨(later.bit (CellList.wf_set resetOf _ _ _ words)).trans valid, ?_, ?_, ?_⟩
  · exact (kept _ (by unfold A.gnsSidePosX A.gnsSideStatus; omega)).trans (rd_wrAll h once (by simp [positionWords]))
  · exact (kept _ (by unfold A.gnsSidePosSigma A.gnsSideStatus; omega)).trans (rd_wrAll h once (by simp [positionWords]))
  · exact (kept _ (gnsSideEvent_ne_status a)).trans (rd_wrAll_ne h event)

/-- A survey that met time and accuracy ends at its whole second with its mean in force. -/
theorem surveyComplete_of {s : State} {a n : Nat} {v : Survey} {p : Int × Int × Int} {sigma : Nat}
    (running : (s.side a).survey = some v) (done : v.done = some (n, p, sigma)) (due : n ≤ s.nowNs) :
    s.surveyComplete a = ((s.endSurvey a 0).putPosition a p sigma false).writeHotStart := by
  unfold State.surveyComplete
  rw [running]
  dsimp only
  rw [done]
  exact if_pos due

/-- The stored configuration follows a completed survey; the receiver and the registers are as the survey left them. -/
theorem surveyEnds_kept (s : State) (a : Nat) :
    (s.surveyEnds a).gnss = (s.surveyComplete a).gnss ∧ (s.surveyEnds a).regs = (s.surveyComplete a).regs := by
  unfold State.surveyEnds
  dsimp only
  split <;> exact ⟨rfl, rfl⟩

theorem surveyTimeout_of {s : State} {a : Nat} {v : Survey} (running : (s.side a).survey = some v)
    (elapsed : s.f A.gnsSurveyMax 0 21 ≤ s.surveyElapsed v) (incomplete : v.done = none) : s.surveyTimeout a = s.endSurvey a 0x40 := by
  unfold State.surveyTimeout
  rw [running]
  exact if_pos ⟨elapsed, by rw [incomplete]; rfl⟩

theorem surveyEnds_shown {s : State} (h : CellList.wf resetOf s.regs = true) {a n : Nat} (listed : a < s.gnss.sides.length) {v : Survey}
    {p : Int × Int × Int} {sigma : Nat} (running : (s.side a).survey = some v) (done : v.done = some (n, p, sigma)) (due : n ≤ s.nowNs) :
    ((s.surveyEnds a).side a).survey = none ∧ (s.surveyEnds a).bit (A.gnsSideStatus a) 4 = true ∧
      (s.surveyEnds a).bit (A.gnsSideEvent a) 4 = true ∧ (s.surveyEnds a).rd (A.gnsSidePosX a) = wordOfInt p.1 ∧
      (s.surveyEnds a).rd (A.gnsSidePosSigma a) = satU32 sigma := by
  obtain ⟨regs, still, ended, event, -⟩ := endSurvey_shown h listed running 0
  obtain ⟨valid, x, sig, kept⟩ := putPosition_shown regs a p sigma false
  obtain ⟨gnss, words⟩ := surveyEnds_kept s a
  have shown : ∀ b, (s.surveyEnds a).rd b = ((s.endSurvey a 0).putPosition a p sigma false).rd b := fun b => by
    rw [State.rd, words, surveyComplete_of running done due]
    rfl
  refine ⟨?_, (bit_of_rd (shown _) 4).trans valid, (bit_of_rd ((shown _).trans kept) 4).trans event, (shown _).trans x,
    (shown _).trans sig⟩
  rw [side_congr gnss, surveyComplete_of running done due]
  exact (congrArg GnssSide.survey (side_setSide still _)).trans ended

/-! ### Captures (R154) -/

/-- SNAP_STATE shows the new state. -/
theorem setSnap_snapState {s : State} (h : CellList.wf resetOf s.regs = true) {st : Nat} (small : st < 8) :
    CellList.wf resetOf (s.setSnap st).regs = true ∧ (s.setSnap st).snapState = st := by
  have set : (s.sfW A.gnsStatus 4 3 st).f A.gnsStatus 4 3 = st :=
    (f_sfW s _ _ _ _ _ _ h).trans ((fld_putFld _ 4 3 st (by decide)).trans (Nat.mod_eq_of_lt small))
  obtain ⟨regs, kept⟩ := FieldKept.wr (a := A.gnsStatus) (lo := 4) (n := 3) (s.sfW A.gnsStatus 4 3 st) (b := A.gnsSnapStatus)
    (putFld ((s.sfW A.gnsStatus 4 3 st).rd A.gnsSnapStatus) 0 3 st) (by decide) (CellList.wf_set resetOf _ _ _ h)
  exact ⟨regs, kept.trans set⟩

/-- A capture that starts. -/
theorem snapStarted {s : State} (h : CellList.wf resetOf s.regs = true) (x : Gnss) :
    (({ s with gnss := x } : State).setSnap 2).snapState = 2 ∧ (({ s with gnss := x } : State).setSnap 2).gnss = x :=
  ⟨(setSnap_snapState (s := { s with gnss := x }) h (by decide)).2, rfl⟩

/-- The AT instant starts an armed capture, whose length counts from there. -/
theorem snapTrigger_at {s : State} (armed : s.snapState = 1) (kind : fld s.gnss.snapCfg 4 2 = 0) (due : s.gnss.snapAt ≤ s.nowNs) :
    ∃ x : Gnss, s.snapTrigger = ({ s with gnss := x } : State).setSnap 2 ∧ x.snapSince = s.ts.meas ∧
      x.snapEnd = some (s.ts.meas + msecs (fld s.gnss.snapCfg 8 14)) := by
  unfold State.snapTrigger
  rw [if_neg (by rw [armed]; decide), if_pos kind, if_pos due]
  exact ⟨_, rfl, rfl, rfl⟩

/-- The first qualifying event fixes the end of a circular buffer. -/
theorem snapTrigger_event {s : State} (armed : s.snapState = 1) (kind : fld s.gnss.snapCfg 4 2 ≠ 0) {k i m : Nat}
    (event : s.gnss.snapEvent = some (k, i, m)) :
    ∃ x : Gnss, s.snapTrigger = ({ s with gnss := x } : State).setSnap 2 ∧
      x.snapEnd = some (m + msecs (fld s.gnss.snapCfg 8 14 - s.gnss.snapPre)) := by
  unfold State.snapTrigger
  rw [if_neg (by rw [armed]; decide), if_neg kind, event]
  exact ⟨_, rfl, rfl⟩

theorem RegFrame.checkHeader (s : State) : RegFrame (fun a => a = A.gnsSnapStatus) s s.checkHeader := by
  unfold State.checkHeader
  exact .ite (fun _ => .trans (.trans (.setBit s _ _ _ rfl) (.sfW _ _ _ _ _ rfl)) (.sfW _ _ _ _ _ rfl)) (fun _ => .setBit s _ _ _ rfl)

/-- The region that a finished capture leaves, its header written. -/
def State.snapHeaded (s : State) (header : Bytes) : State :=
  State.snapWrite { s with gnss := { s.gnss with snapBase := s.gnss.snapBase + 1, snapMem := [], snapEnd := none, snapHist := [] } } 0 header

theorem snapHeaded_regs (s : State) (header : Bytes) : (s.snapHeaded header).regs = s.regs := rfl

theorem snapHeaded_snapEnd (s : State) (header : Bytes) : (s.snapHeaded header).gnss.snapEnd = none := rfl

/-- SNAP_STATUS of a finished capture: its streams, its length, its header. -/
def State.snapListed (s : State) (m ms : Nat) : State := ((s.sfW A.gnsSnapStatus 4 4 m).sfW A.gnsSnapStatus 8 14 ms).checkHeader

theorem snapFinish_eq (s : State) (trigger ms st : Nat) :
    ∃ header, s.snapFinish trigger ms st =
      (((s.snapHeaded header).setSnap st).snapListed (fld s.gnss.snapCfg 0 4) ms).raise A.gnsEvent 1 := ⟨_, rfl⟩

theorem RegFrame.snapListed (s : State) (m ms : Nat) : RegFrame (fun a => a = A.gnsSnapStatus) s (s.snapListed m ms) :=
  .trans (.trans (.sfW s _ _ _ _ rfl) (.sfW _ _ _ _ _ rfl)) (.checkHeader _)

theorem snapListed_gnss (s : State) (m ms : Nat) : (s.snapListed m ms).gnss = s.gnss :=
  PartFrame.checkHeader ((s.sfW A.gnsSnapStatus 4 4 m).sfW A.gnsSnapStatus 8 14 ms) .gnss (by decide)

/-- A finished capture shows its state, and no end any more. -/
theorem snapFinish_shown {s : State} (h : CellList.wf resetOf s.regs = true) (trigger ms : Nat) {st : Nat} (small : st < 8) :
    (s.snapFinish trigger ms st).snapState = st ∧ (s.snapFinish trigger ms st).gnss.snapEnd = none ∧
      (s.snapFinish trigger ms st).bit A.gnsEvent 1 = true := by
  obtain ⟨header, finish⟩ := snapFinish_eq s trigger ms st
  rw [finish]
  obtain ⟨regs, shown⟩ := setSnap_snapState (s := s.snapHeaded header) (snapHeaded_regs s header ▸ h) small
  have listed := RegFrame.snapListed ((s.snapHeaded header).setSnap st) (fld s.gnss.snapCfg 0 4) ms
  have kept : FieldKept A.gnsStatus 4 3 ((s.snapHeaded header).setSnap st)
      ((((s.snapHeaded header).setSnap st).snapListed (fld s.gnss.snapCfg 0 4) ms).raise A.gnsEvent 1) :=
    (FieldKept.of_regFrame listed (by decide)).trans (.raise _ 1 (by decide) not_inHif_gnsStatus)
  refine ⟨(kept regs).2.trans shown, ?_, raise_bit (listed regs).1 (by decide) not_inHif_gnsEvent⟩
  rw [raise_gnss, snapListed_gnss]
  exact snapHeaded_snapEnd s header

theorem snapCaptureEnd_of {s : State} (capturing : s.snapState = 2) {e : Nat} (fixed : s.gnss.snapEnd = some e) (due : e ≤ s.ts.meas) :
    ∃ trigger, s.snapCaptureEnd = s.snapFinish trigger (s.snapHeld e) 3 := by
  unfold State.snapCaptureEnd
  rw [fixed]
  exact ⟨_, if_pos ⟨capturing, due⟩⟩

/-! ### The end of a replay (R156) -/

/-- A side without its replay, before it starts from live signals. -/
def State.replayLeft (s : State) (a : Nat) : State :=
  let t := (s.setBit A.gnsStatus (2 + a) false).setBit (A.gnsSideStatus a) 10 false
  { t with gnss := { t.gnss with replay := none } }

theorem replayStop_of {s : State} {a : Nat} (replaying : s.sideReplaying a = true) : s.replayStop a = (s.replayLeft a).startSide a :=
  if_pos replaying

theorem replayDue_of {s : State} (a : Nat) {p : Replay} (playing : s.gnss.replay = some p) (due : p.endAt ≤ s.ts.meas) :
    s.replayDue a = s.replayStop a := by
  unfold State.replayDue
  rw [playing]
  exact if_pos due

/-- A side whose replay has ended runs on live signals. -/
theorem replayStop_shown {s : State} (h : CellList.wf resetOf s.regs = true) {a : Nat} (unit : a < 2) (replaying : s.sideReplaying a = true) :
    (s.replayStop a).sideReplaying a = false ∧ (s.replayStop a).gnss.replay = none ∧ (s.replayStop a).bit A.gnsStatus a = true := by
  have flagged : CellList.wf resetOf (s.setBit A.gnsStatus (2 + a) false).regs = true := CellList.wf_set resetOf _ _ _ h
  have left : CellList.wf resetOf (s.replayLeft a).regs = true := CellList.wf_set resetOf _ _ _ flagged
  have cleared : (s.replayLeft a).sideReplaying a = false := (bit_setBit _ _ 10 10 false flagged (by decide)).trans (if_pos rfl)
  have kind : FieldKept (A.gnsSideStatus a) 10 1 (s.replayLeft a)
      (((s.replayLeft a).setBit A.gnsStatus a true).sfW (A.gnsSideStatus a) 8 2 ((s.replayLeft a).startKind a)) :=
    .trans (.wr _ _ (by unfold A.gnsSideStatus A.gnsStatus; omega)) (.sfW _ 8 2 _ (by decide) (.inr (by decide)))
  have rest := FieldKept.of_regFrame (a := A.gnsSideStatus a) (lo := 10) (n := 1) (.startAfter (s.replayLeft a) a)
    (by unfold InChans A.gnsSideBias A.gnsSideStatus; omega)
  rw [replayStop_of replaying]
  exact ⟨((kind.trans rest).bit left).trans cleared, congrArg Gnss.replay (SidesOnly.startSide (s.replayLeft a) a),
    startSide_runs left (by omega)⟩

/-! ### The obligation -/

/-- A command of a unit that exists acts once the time has passed. -/
theorem completes_afterIf {c : Instr} {s u : State} {w : Bool} {dt : Nat} {p : State → Prop} (f : State → State)
    (command : exec c s = afterIf w dt s f) (known : w = true) (eq : u = s.advance dt) (h : p (f u)) : Completes c s p :=
  completes_of (command.trans ((if_pos known).trans (by rw [eq]))) h

/-- Settles O13: each command is the branch of its operation that the hypotheses name; the end of a survey and of a capture are read
back behind the event that reports them, the end of a replay behind the side's start. -/
theorem surveyAndSnapshotEventsComplete : Obligations.SurveyAndSnapshotEventsComplete := by
  unfold Obligations.SurveyAndSnapshotEventsComplete
  refine ⟨fun s u dt a v canonical eq unit listed running due =>
      completes_afterIf (·.surveyReport a) rfl (decide_eq_true unit) eq ?progress,
    fun s u dt a n v p sg canonical eq unit listed running done due =>
      completes_afterIf (·.surveyEnds a) rfl (decide_eq_true unit) eq ?complete,
    fun s u dt a v canonical eq unit listed running elapsed incomplete =>
      completes_afterIf (·.surveyTimeout a) rfl (decide_eq_true unit) eq ?timeout,
    fun s u dt canonical eq armed kind due => completes_after State.snapTrigger rfl eq ?instant,
    fun s u dt k i m canonical eq armed kind event => completes_after State.snapTrigger rfl eq ?event,
    fun s u dt e canonical eq capturing fixed due => completes_after State.snapCaptureEnd rfl eq ?captured,
    fun s u dt a p canonical eq unit replaying playing due =>
      completes_afterIf (·.replayDue a) rfl (decide_eq_true unit) eq ?replayed⟩
  all_goals
    have regs : CellList.wf resetOf u.regs = true := regs_of_canonical (eq ▸ advance_canonical canonical dt)
  case progress => exact surveyReport_survey listed running due
  case complete => exact surveyEnds_shown regs listed running done due
  case timeout =>
    obtain ⟨-, -, ended, event, position⟩ := endSurvey_shown regs listed running 0x40
    rw [surveyTimeout_of running elapsed incomplete]
    exact ⟨ended, event, position⟩
  case instant =>
    obtain ⟨x, started, since, ends⟩ := snapTrigger_at armed kind due
    obtain ⟨state, gnss⟩ := snapStarted regs x
    rw [started, gnss]
    exact ⟨state, since, ends⟩
  case event =>
    obtain ⟨x, started, ends⟩ := snapTrigger_event armed kind event
    obtain ⟨state, gnss⟩ := snapStarted regs x
    rw [started, gnss]
    exact ⟨state, ends⟩
  case captured =>
    obtain ⟨trigger, finished⟩ := snapCaptureEnd_of capturing fixed due
    rw [finished]
    exact snapFinish_shown regs trigger _ (by decide)
  case replayed =>
    rw [replayDue_of a playing due]
    exact replayStop_shown regs unit replaying

end Sys2Proof.Machine
end

section
/-!
SUPPORT. What a side keeps for the epoch that it solves, through the checks and surveys of R139 to R150.
-/

set_option Elab.async false

namespace Sys2Proof.Machine

/-! ### The latch and the epoch of a side -/

/-- The latch that a side has to solve, and the epoch that it solved last. -/
def GnssSide.timing (x : GnssSide) : Option GnssLatch × Nat := (x.latch, x.epoch)

/-- Side `a` has the latch and the epoch that it had. -/
abbrev TimingKept (a : Nat) (s t : State) : Prop := SideKept GnssSide.timing a s t

/-- What leaves the list of the sides alone. -/
theorem SideKept.of_sides {α : Type} {p : GnssSide → α} {a : Nat} {s t : State} (h : t.gnss.sides = s.gnss.sides) : SideKept p a s t :=
  ⟨congrArg List.length h, congrArg (fun l => p (l.getD a GnssSide.empty)) h⟩

theorem SideKept.inc {α : Type} {p : GnssSide → α} {a : Nat} (s : State) (c : Nat) : SideKept p a s (s.inc c) := .of_gnss (inc_gnss s c)

theorem SideKept.raise {α : Type} {p : GnssSide → α} {a : Nat} (s : State) (reg b : Nat) : SideKept p a s (s.raise reg b) :=
  .of_gnss (raise_gnss s reg b)

section
variable {b : Nat}

/-- A change of a side that speaks neither of its latch nor of its epoch. -/
theorem TimingKept.setSide (s : State) (a : Nat) (f : GnssSide → GnssSide) (h : ∀ x, (f x).timing = x.timing := by intro x; rfl) :
    TimingKept b s (s.setSide a f) := SideKept.setSide s a h

theorem TimingKept.setLoop (s : State) (a c : Nat) (l : ChanLoop) : TimingKept b s (s.setLoop a c l) := .setSide s a _

theorem TimingKept.freeChan (s : State) (a c : Nat) : TimingKept b s (s.freeChan a c) := by
  rw [freeChan_eq]
  exact .trans (.of_gnss (chanCleared_gnss s a c)) (TimingKept.setLoop _ a c _)

theorem TimingKept.takeChan (s : State) (a : Nat) (o : SkyObs) : TimingKept b s (s.takeChan a o) := by
  unfold State.takeChan
  split
  · exact .refl s
  · exact .trans (TimingKept.freeChan s a _) (.of_gnss ((State.wr_gnss _ _ _).trans (State.wr_gnss _ _ _)))

theorem TimingKept.allocate (s : State) (a : Nat) (sky : List SkyObs) : TimingKept b s (s.allocate a sky) :=
  .trans (.each (fun _ t => TimingKept.freeChan t a _) _ s) (.each (fun _ t => .ite (.refl t) (TimingKept.takeChan t a _)) _ _)

theorem TimingKept.takeObs (s : State) (a : Nat) (l : List ChanObs) : TimingKept b s (s.takeObs a l) :=
  .each (fun _ t => TimingKept.setLoop t a _ _) _ s

theorem TimingKept.exclude (s : State) (a : Nat) (const : Bool) (key check : Nat) : TimingKept b s (s.exclude a const key check) := by
  unfold State.exclude
  exact .ite (.refl s) (.trans (.trans (TimingKept.setSide s a _) (.inc _ _)) (.raise _ _ _))

theorem snapQualify_sides (s : State) (kind : Nat) : (s.snapQualify kind).gnss.sides = s.gnss.sides := by
  unfold State.snapQualify
  dsimp only
  split <;> rfl

theorem TimingKept.alarm (s : State) (a check : Nat) : TimingKept b s (s.alarm a check) := by
  have dated : TimingKept b s (s.setSide a (fun x => { x with lastTrip := x.lastTrip.set check s.ts.meas })) :=
    TimingKept.setSide s a _
  unfold State.alarm
  refine .ite dated (.trans (.trans ?_ (.when (.of_partFrame (.setRef _ _ _)))) (.of_sides (snapQualify_sides _ 1)))
  exact .trans (.trans (.trans (.trans dated (TimingKept.setSide _ a _)) (.of_partFrame (.setBit _ _ _ _))) (.inc _ _)) (.raise _ _ _)

theorem TimingKept.tripped (s : State) (a check persist : Nat) (trip : Bool) : TimingKept b s (s.tripped a check persist trip) := by
  unfold State.tripped
  exact .ite (.trans (TimingKept.setSide s a _) (.when (TimingKept.alarm _ a check))) (TimingKept.setSide s a _)

theorem TimingKept.svTripped (s : State) (a check persist : Nat) (keys : List Nat) :
    TimingKept b s (s.svTripped a check persist keys) :=
  .trans (TimingKept.setSide s a _) (.each (fun _ t => TimingKept.exclude t a _ _ _) _ _)

theorem TimingKept.xcon (s : State) (a : Nat) (l : List (Option Int)) : TimingKept b s (s.xcon a l) := by
  unfold State.xcon
  exact .ite (TimingKept.setSide s a _) (.ite (.trans (TimingKept.setSide s a _) (TimingKept.exclude _ a _ _ _))
    (.trans (TimingKept.setSide s a _) (TimingKept.alarm _ a 1)))

theorem TimingKept.pairChecks (s : State) (l : List (Nat × Nat × Nat × Nat)) : TimingKept b s (s.pairChecks l) := by
  have both : ∀ (t : State) (check persist : Nat) (trip : Bool),
      TimingKept b t ((t.tripped 0 check persist trip).tripped 1 check persist trip) := fun t _ _ _ =>
    .trans (TimingKept.tripped t 0 _ _ _) (TimingKept.tripped _ 1 _ _ _)
  have xant : TimingKept b s s.xant := by
    unfold State.xant
    split
    · exact .ite (both s _ _ _) (.refl s)
    · exact .refl s
  unfold State.pairChecks
  exact .ite (.trans xant (both _ _ _ _)) (.refl s)

theorem TimingKept.runChecks (s : State) (a epoch : Nat) (l : List Ranging) (e : Epoch) : TimingKept b s (s.runChecks a epoch l e) := by
  have satellites : ∀ (t : State) (c : Bool) (check persist : Nat) (keys : List Nat),
      TimingKept b t (t.when c (fun u => u.svTripped a check persist keys)) := fun t _ _ _ _ => .when (TimingKept.svTripped t a _ _ _)
  unfold State.runChecks
  extract_lets tol iono x t₁ t₂ t₃ t₄ high now old t₅
  have consistent : TimingKept b s t₃ := .trans (.trans (satellites s _ _ _ _) (satellites _ _ _ _ _)) (TimingKept.xcon _ a _)
  have placed : TimingKept b t₃ t₄ := by
    dsimp only [t₄]
    split
    · exact TimingKept.tripped t₃ a _ _ _
    · exact .refl t₃
  exact .trans (.trans (.trans consistent placed) (TimingKept.tripped _ a _ _ _)) (TimingKept.setSide _ a _)

theorem TimingKept.surveyEpoch (s : State) (a : Nat) (p : Option (Int × Int × Int)) (ionoFree : Bool) :
    TimingKept b s (s.surveyEpoch a p ionoFree) := by
  unfold State.surveyEpoch
  split
  · exact .ite (.refl s) (.trans (TimingKept.setSide s a _) (.of_partFrame (.showSurvey _ a _)))
  · exact .refl s

end

/-! ### The outcome of an epoch -/

/-- The outcome that side `a` shows: SOLN_STATUS and the satellites used stand, and so do its latch and its epoch. -/
structure OutcomeKept (a : Nat) (s t : State) : Prop where
  timing : TimingKept a s t
  status : FieldKept (A.gnsSideStatus a) 12 3 s t
  used : FieldKept (A.gnsSideStatus a) 16 8 s t

namespace OutcomeKept
variable {a : Nat}

theorem refl (s : State) : OutcomeKept a s s := ⟨.refl s, .refl _ _ _ s, .refl _ _ _ s⟩

theorem trans {s t u : State} (h : OutcomeKept a s t) (k : OutcomeKept a t u) : OutcomeKept a s u :=
  ⟨h.timing.trans k.timing, h.status.trans k.status, h.used.trans k.used⟩

theorem ite {c : Prop} [Decidable c] {s t u : State} (h : OutcomeKept a s t) (k : OutcomeKept a s u) :
    OutcomeKept a s (if c then t else u) := by split <;> assumption

theorem when {s : State} {c : Bool} {g : State → State} (h : OutcomeKept a s (g s)) : OutcomeKept a s (s.when c g) := by
  cases c
  · exact .refl s
  · exact h

/-- An operation that writes registers other than the side's STATUS. -/
theorem of_regFrame {W : Nat → Prop} {s t : State} (h : RegFrame W s t) (out : ¬ W (A.gnsSideStatus a)) (k : TimingKept a s t) :
    OutcomeKept a s t := ⟨k, .of_regFrame h out, .of_regFrame h out⟩

/-- An operation that leaves the register file alone. -/
theorem of_timing {s t : State} (k : TimingKept a s t) (e : t.regs = s.regs := by rfl) : OutcomeKept a s t :=
  .of_regFrame (W := fun _ => False) (.same e) (fun f => f) k

theorem setSide (s : State) (f : GnssSide → GnssSide) (h : ∀ x, (f x).timing = x.timing := by intro x; rfl) :
    OutcomeKept a s (s.setSide a f) := .of_timing (.setSide s a f h)

/-- A write of a field of the side's STATUS apart from both. -/
theorem sfW (s : State) (lo n v : Nat) (apart : lo + n ≤ 12) : OutcomeKept a s (s.sfW (A.gnsSideStatus a) lo n v) :=
  ⟨.of_partFrame (.sfW s _ lo n v), .sfW s lo n v (by decide) (.inr apart), .sfW s lo n v (by decide) (.inr (by omega))⟩

theorem inc (s : State) {c : Nat} (ne : c ≠ A.gnsSideStatus a) (ne' : c + 4 ≠ A.gnsSideStatus a) : OutcomeKept a s (s.inc c) :=
  ⟨.inc s c, .inc s ne ne', .inc s ne ne'⟩

theorem raise (s : State) (b : Nat) : OutcomeKept a s (s.raise (A.gnsSideEvent a) b) :=
  ⟨.raise s _ b, .raise s b (gnsSideEvent_ne_status a) (not_inHif_gnsSideStatus a),
    .raise s b (gnsSideEvent_ne_status a) (not_inHif_gnsSideStatus a)⟩

theorem alarm (s : State) (check : Nat) : OutcomeKept a s (s.alarm a check) := by
  have dated : OutcomeKept a s (s.setSide a (fun x => { x with lastTrip := x.lastTrip.set check s.ts.meas })) :=
    .setSide s _
  have noted : ∀ t : State, OutcomeKept a t (t.snapQualify 1) := fun t =>
    .of_timing (.of_sides (snapQualify_sides t 1)) (PartFrame.snapQualify t 1 .regs (by decide))
  have delivered : ∀ (t : State) (f : RefIn → RefIn), OutcomeKept a t (t.setRef a f) := fun t f =>
    .of_timing (.of_partFrame (.setRef t a f))
  unfold State.alarm
  refine .ite dated (.trans (.trans ?_ (.when (delivered _ _))) (noted _))
  refine .trans (.trans (.trans (.trans dated (.setSide _ _)) (.sfW _ 3 1 1 (by decide))) (.inc _ ?_ ?_)) (.raise _ 1)
  all_goals
    unfold A.gnsSideAlarmCount A.gnsSideStatus
    omega

theorem jumpDiscard (s : State) : OutcomeKept a s (s.jumpDiscard a) := by
  unfold State.jumpDiscard
  exact .trans (.setSide s _) (.when (.alarm _ 5))

theorem showSurvey (s : State) (v : Survey) : OutcomeKept a s (s.showSurvey a v) := by
  have others : RegFrame (fun x => x = A.gnsSideSurveyElapsed a ∨ x = A.gnsSideSurveySigma a)
      (s.sfW (A.gnsSideStatus a) 6 2 (if s.surveyElapsed v < s.f A.gnsSurveyTime 0 20 then 1 else 2)) (s.showSurvey a v) :=
    .trans (.sfW _ _ 0 21 _ (.inl rfl)) (.wr _ _ _ (.inr rfl))
  refine .trans (.sfW s 6 2 _ (by decide)) (.of_regFrame others ?_ (.of_partFrame (.trans (.sfW _ _ _ _ _) (.wr _ _ _))))
  unfold A.gnsSideSurveyElapsed A.gnsSideSurveySigma A.gnsSideStatus
  omega

theorem surveyEpoch (s : State) (p : Option (Int × Int × Int)) (ionoFree : Bool) : OutcomeKept a s (s.surveyEpoch a p ionoFree) := by
  unfold State.surveyEpoch
  split
  · exact .ite (.refl s) (.trans (.setSide s _) (.showSurvey _ _))
  · exact .refl s

end OutcomeKept

end Sys2Proof.Machine
end

section
/-!
SUPPORT. What a side shows of the epoch that it solved (R139, R142).
-/

set_option Elab.async false

namespace Sys2Proof.Machine

/-- The side with its latch taken and its loops one epoch on. -/
def State.epochTaken (s : State) (a : Nat) (l : List ChanObs) : State := (s.setSide a (fun x => { x with latch := none })).takeObs a l

/-- The epoch that a latch gives. -/
def State.epochOf (s : State) (a : Nat) (m : GnssSolution) (la : GnssLatch) : Epoch :=
  (s.epochTaken a m.obs).solveEpoch a m.point ((s.epochTaken a m.obs).rangings a la m.obs)

/-- The status that is written first of two stands behind the other. -/
theorem sfW_pair_shown {s : State} (h : CellList.wf resetOf s.regs = true) (x status n : Nat) :
    ((s.sfW x 12 3 status).sfW x 16 8 n).f x 12 3 = status % 8 ∧ ((s.sfW x 12 3 status).sfW x 16 8 n).f x 16 8 = n % 256 := by
  have first : CellList.wf resetOf (s.sfW x 12 3 status).regs = true := CellList.wf_set resetOf _ _ _ h
  have kept : FieldKept x 12 3 (s.sfW x 12 3 status) ((s.sfW x 12 3 status).sfW x 16 8 n) := .sfW _ 16 8 n (by decide) (.inl (by decide))
  exact ⟨(kept first).2.trans ((f_sfW s _ _ _ _ _ _ h).trans (fld_putFld _ 12 3 status (by decide))),
    (f_sfW _ _ _ _ _ _ _ first).trans (fld_putFld _ 16 8 n (by decide))⟩

/-- The end of an epoch: discarded, or delivered with its theta. -/
def State.epochDelivered (s : State) (a : Nat) (e : Epoch) (theta : Option Int) (jump : Bool) : State :=
  if decide (3 < e.outliers) || jump then (s.inc (A.gnsSideDiscardCount a)).when jump (fun v => v.jumpDiscard a)
  else
    match e.fix, theta with
    | some x, some v =>
      if e.status = 0 then s
      else ((s.putSolution a e x v).inc (A.gnsSideSolutionCount a)).when (!(s.sideSilent a)) (fun w => w.deliver a v)
    | _, _ => s

theorem OutcomeKept.epochDelivered {a : Nat} (s : State) (e : Epoch) (theta : Option Int) (jump : Bool) :
    OutcomeKept a s (s.epochDelivered a e theta jump) := by
  have discarded : OutcomeKept a s (s.inc (A.gnsSideDiscardCount a)) :=
    .inc s (by unfold A.gnsSideDiscardCount A.gnsSideStatus; omega) (by unfold A.gnsSideDiscardCount A.gnsSideStatus; omega)
  have counted : ∀ v : State, OutcomeKept a v (v.inc (A.gnsSideSolutionCount a)) := fun v =>
    .inc v (by unfold A.gnsSideSolutionCount A.gnsSideStatus; omega) (by unfold A.gnsSideSolutionCount A.gnsSideStatus; omega)
  have delivered : ∀ (v : State) (θ : Int), OutcomeKept a v (v.deliver a θ) := fun v θ => .of_timing (.of_partFrame (.deliver v a θ))
  unfold State.epochDelivered
  refine .ite (.trans discarded (.when (.jumpDiscard _))) ?_
  split
  · exact .ite (.refl _) (.trans (.trans (.setSide _ _) (counted _)) (.when (delivered _ _)))
  · exact .refl _

/-- A solved epoch: its outcome in STATUS, the latch taken, the epoch noted. -/
theorem solveLatched_shown {s : State} (h : s.canonical = true) {a : Nat} (listed : a < s.gnss.sides.length) (m : GnssSolution) (la : GnssLatch) :
    (s.solveLatched a m la).f (A.gnsSideStatus a) 12 3 = (s.epochOf a m la).status % 8 ∧
      (s.solveLatched a m la).f (A.gnsSideStatus a) 16 8 = (satellites (s.epochOf a m la).entered).length % 256 ∧
      ((s.solveLatched a m la).side a).timing = (none, la.epoch) := by
  unfold State.solveLatched
  extract_lets t l e theta jump u₁ u₂ u₃ u₄ u₅ u₆
  have taken : a < t.gnss.sides.length ∧ (t.side a).latch = none := by
    have cleared := setSide_sides_length s a (fun x => { x with latch := none })
    have solved := TimingKept.takeObs (b := a) (s.setSide a (fun x => { x with latch := none })) a m.obs
    refine ⟨solved.listed (cleared ▸ listed), (congrArg Prod.fst solved.2).trans ?_⟩
    exact congrArg GnssSide.latch (side_setSide listed _)
  have checked : TimingKept a t u₁ := TimingKept.runChecks t a la.epoch l e
  have noted : (u₂.side a).timing = (none, la.epoch) := by
    rw [side_setSide (checked.listed taken.1)]
    exact congrArg (·, la.epoch) ((congrArg Prod.fst checked.2).trans taken.2)
  have regs : CellList.wf resetOf u₄.regs = true := by
    have solved : Can s u₂ :=
      State.setSide_can _ _ _ (State.runChecks_can _ _ _ _ _ (State.takeObs_can _ _ _ (State.setSide_can _ _ _ (Can.start h))))
    have compared : Can s u₃ := State.pairChecks_can _ _ (State.showInhibit_can _ solved)
    exact regs_of_canonical (State.each_can _ _ _ compared (fun r v k => State.putChan_can v a e r k)).canonical
  obtain ⟨status, used⟩ := sfW_pair_shown regs (A.gnsSideStatus a) e.status (satellites e.entered).length
  have before : TimingKept a u₂ u₅ :=
    .trans (.trans (.trans (.of_partFrame (.showInhibit u₂)) (TimingKept.pairChecks _ m.dir))
      (.each (fun r v => .of_partFrame (.putChan v a e r)) l _)) (.of_partFrame (.trans (.sfW _ _ _ _ _) (.sfW _ _ _ _ _)))
  refine (?_ : ∀ v, OutcomeKept a u₅ v → v.f (A.gnsSideStatus a) 12 3 = e.status % 8 ∧
    v.f (A.gnsSideStatus a) 16 8 = (satellites e.entered).length % 256 ∧ (v.side a).timing = (none, la.epoch)) _ ?_
  · intro v kept
    have sound : CellList.wf resetOf u₅.regs = true := CellList.wf_set resetOf _ _ _ (CellList.wf_set resetOf _ _ _ regs)
    exact ⟨(kept.status sound).2.trans status, (kept.used sound).2.trans used, kept.timing.2.trans (before.2.trans noted)⟩
  · exact .trans (.surveyEpoch u₅ _ _) (.epochDelivered u₆ e theta jump)

theorem allocate_latch (s : State) (a : Nat) (sky : List SkyObs) : ((s.allocate a sky).side a).latch = (s.side a).latch :=
  congrArg Prod.fst (TimingKept.allocate (b := a) s a sky).2

/-- A running side with a young latch solves it. -/
theorem solutionDone_solves {s : State} {a : Nat} (running : s.bit A.gnsStatus a = true) {la : GnssLatch}
    (latched : (s.side a).latch = some la) (young : s.ts.meas ≤ la.meas + secs 1 / 2) (m : GnssSolution) :
    s.solutionDone a m = (s.allocate a m.sky).solveLatched a m la := by
  have time : (s.allocate a m.sky).ts = s.ts := PartFrame.allocate s a m.sky .ts (by decide)
  unfold State.solutionDone
  rw [if_pos running]
  dsimp only
  rw [allocate_latch, latched]
  exact if_pos (time ▸ young)

theorem solutionDone_unlatched {s : State} {a : Nat} (running : s.bit A.gnsStatus a = true) (unlatched : (s.side a).latch = none)
    (m : GnssSolution) : s.solutionDone a m = s.allocate a m.sky := by
  unfold State.solutionDone
  rw [if_pos running]
  dsimp only
  rw [allocate_latch, unlatched]

theorem solutionDone_stopped {s : State} {a : Nat} (stopped : s.bit A.gnsStatus a = false) (m : GnssSolution) : s.solutionDone a m = s :=
  if_neg (by rw [stopped]; decide)

end Sys2Proof.Machine
end

section
/-!
SUPPORT. Ends of alarms and exclusions, and what a channel shows (R133, R149, R150).
-/

set_option Elab.async false

namespace Sys2Proof.Machine

/-! ### Alarms (R150) -/

/-- An alarm's end takes its bit from the side's alarms, and is reported. -/
theorem alarmClear_shown {s : State} (h : CellList.wf resetOf s.regs = true) {a check : Nat}
    (active : (s.side a).alarms.testBit check = true)
    (quiet : (s.side a).lastTrip.getD check 0 + secs (s.f A.gnsAlarmClear 0 17) ≤ s.ts.meas) :
    ((s.alarmClear a check).side a).alarms + 2 ^ check = (s.side a).alarms ∧ (s.alarmClear a check).bit (A.gnsSideEvent a) 2 = true := by
  have listed : a < s.gnss.sides.length := listed_of_side fun e => by
    rw [e, show GnssSide.empty.alarms = 0 from rfl, Nat.zero_testBit] at active
    exact absurd active (by decide)
  unfold State.alarmClear
  dsimp only
  rw [if_pos (Bool.and_eq_true_iff.mpr ⟨active, decide_eq_true quiet⟩)]
  refine ⟨?_, raise_bit (CellList.wf_set resetOf _ _ _ h) (by decide) (not_inHif_gnsSideEvent a)⟩
  rw [side_congr (raise_gnss _ _ _)]
  exact (congrArg (fun x => GnssSide.alarms x + 2 ^ check) (side_setSide listed _)).trans (Nat.sub_add_cancel (Nat.ge_two_pow_of_testBit active))

/-! ### Exclusions (R149) -/

/-- The exclusions of a side without those of one satellite or constellation. -/
def GnssSide.readmit (x : GnssSide) (const : Bool) (key : Nat) : GnssSide :=
  { x with excl := x.excl.filter (fun e => !(decide (e.const = const) && decide (e.key = key))) }

theorem readmit_excluded (x : GnssSide) (const : Bool) (key : Nat) : (x.readmit const key).excluded const key = false := by
  unfold GnssSide.excluded GnssSide.readmit
  rw [List.any_filter]
  simp only [Bool.not_and_self, List.any_eq_false, Bool.false_eq_true, not_false_eq_true, implies_true]

theorem exclude_of {s : State} {a key : Nat} {const : Bool} (free : (s.side a).excluded const key = false) (check : Nat) :
    s.exclude a const key check = ((s.setSide a (fun x => { x with
      excl := ⟨const, key, check, s.ts.meas + secs (s.f A.gnsXclHold 0 17)⟩ :: x.excl })).inc (A.gnsSideExclCount a)).raise
        (A.gnsSideEvent a) 3 :=
  if_neg (by rw [free]; decide)

/-- A new exclusion heads the list. -/
theorem exclude_shown {s : State} {a key : Nat} {const : Bool} (listed : a < s.gnss.sides.length)
    (free : (s.side a).excluded const key = false) (check : Nat) :
    ((s.exclude a const key check).side a).excluded const key = true ∧
      ((s.exclude a const key check).side a).excl.head? = some ⟨const, key, check, s.ts.meas + secs (s.f A.gnsXclHold 0 17)⟩ := by
  rw [exclude_of free, side_congr (raise_gnss _ _ _), side_congr (inc_gnss _ _), side_setSide listed]
  exact ⟨by simp [GnssSide.excluded], rfl⟩

/-- An exclusion past its hold is taken away, and made again where its condition stands. -/
theorem exclEnd_of {s : State} {a key check : Nat} {const : Bool} {e : Exclusion}
    (found : (s.side a).excl.find? (fun x => decide (x.const = const) && decide (x.key = key) && decide (x.check = check)) = some e)
    (past : e.endAt ≤ s.ts.meas) :
    s.exclEnd a const key check =
      (s.setSide a (·.readmit const key)).when (s.stillTrips a e) (fun t => t.exclude a const key check) := by
  unfold State.exclEnd
  rw [found]
  exact if_pos past

theorem listed_of_exclusion {s : State} {a : Nat} {p : Exclusion → Bool} {e : Exclusion} (found : (s.side a).excl.find? p = some e) :
    a < s.gnss.sides.length :=
  listed_of_side fun empty => by
    rw [empty] at found
    exact absurd found (by simp [GnssSide.empty])

/-! ### Channels (R133) -/

theorem CellList.get_insert_self {β : Type} (d : Nat → β) (a : Nat) (v : β) : ∀ l, CellList.get d (CellList.insert a v l) a = v
  | [] => if_pos rfl
  | (k, w) :: l => by
    unfold CellList.insert
    split
    · exact if_pos rfl
    · split
      · exact if_pos rfl
      next differ => exact (if_neg differ).trans (CellList.get_insert_self d a v l)

/-- A loop that tracks or tracked something is found where it was put. -/
theorem chanLoop_setLoop {s : State} {a : Nat} (listed : a < s.gnss.sides.length) (c : Nat) {l : ChanLoop} (used : l ≠ ChanLoop.empty) :
    (s.setLoop a c l).chanLoop a c = l := by
  unfold State.chanLoop State.setLoop
  rw [side_setSide listed]
  exact (congrArg (fun m => CellList.get _ m c) (if_neg used)).trans (CellList.get_insert_self _ c l _)

theorem f_setLoop (s : State) (a c : Nat) (l : ChanLoop) (x lo n : Nat) : (s.setLoop a c l).f x lo n = s.f x lo n := rfl

theorem bit_setLoop (s : State) (a c : Nat) (l : ChanLoop) (x i : Nat) : (s.setLoop a c l).bit x i = s.bit x i := rfl

/-- The words of a channel that has lost its signal. -/
def State.chanLost (s : State) (a c : Nat) : State :=
  ((s.sfW (chanWord a c) 16 3 1).sfW (chanWord a c) 19 1 0).sfW (chanWord a c + 12) 0 16 0

theorem lossOfLock_of {s : State} {a c t : Nat} (low : (s.chanLoop a c).lowSince = some t) (locked : 2 ≤ s.chanState a c)
    (past : t + secs 2 ≤ s.ts.meas) :
    s.lossOfLock a c = (s.chanLost a c).setLoop a c { s.chanLoop a c with n := 0, lowSince := none, lostAt := some s.ts.meas } := by
  unfold State.lossOfLock
  rw [low]
  exact if_pos ⟨locked, past⟩

theorem chanLost_shown {s : State} (h : CellList.wf resetOf s.regs = true) (a c : Nat) :
    (s.chanLost a c).chanState a c = 1 ∧ (s.chanLost a c).bit (chanWord a c) 19 = false ∧ (s.chanLost a c).f (chanWord a c + 12) 0 16 = 0 := by
  have first : CellList.wf resetOf (s.sfW (chanWord a c) 16 3 1).regs = true := CellList.wf_set resetOf _ _ _ h
  have second : CellList.wf resetOf ((s.sfW (chanWord a c) 16 3 1).sfW (chanWord a c) 19 1 0).regs = true := CellList.wf_set resetOf _ _ _ first
  have kept : ∀ lo n, FieldKept (chanWord a c) lo n ((s.sfW (chanWord a c) 16 3 1).sfW (chanWord a c) 19 1 0) (s.chanLost a c) :=
    fun _ _ => .wr _ _ (by omega)
  have state : FieldKept (chanWord a c) 16 3 (s.sfW (chanWord a c) 16 3 1) (s.chanLost a c) :=
    .trans (.sfW _ 19 1 0 (by decide) (.inl (by decide))) (kept 16 3)
  refine ⟨(state first).2.trans ((f_sfW s _ _ _ _ _ _ h).trans (fld_putFld _ 16 3 1 (by decide))), ?_, ?_⟩
  · exact ((kept 19 1).bit second).trans ((bit_setBit _ _ 19 19 false first (by decide)).trans (if_pos rfl))
  · exact (f_sfW _ _ _ _ _ _ _ second).trans (fld_putFld _ 0 16 0 (by decide))

/-- A signal within reach: tracked already, above the acquisition threshold, or lost less than 10 s ago. -/
def State.withinReach (s : State) (a c cn0 : Nat) : Prop :=
  2 ≤ s.chanState a c ∨ (if (s.side a).almanac.isSome then 280 else 320) ≤ cn0 ∨
    (s.chanLoop a c).lostAt.any (fun m => decide (s.ts.meas ≤ m + secs 10)) = true

theorem signalAcquired_of {s : State} {a c cn0 st : Nat} (running : s.bit A.gnsStatus a = true) (assigned : s.chanSignal a c ≠ 0)
    (free : s.chanFenced a c = false) (tracks : 2 ≤ st ∧ st ≤ 4) (found : s.withinReach a c cn0) :
    s.signalAcquired a c cn0 st = ((s.sfW (chanWord a c) 16 3 st).sfW (chanWord a c + 4) 0 10 (min cn0 1023)).setLoop a c
      { s.chanLoop a c with lostAt := none } := by
  unfold State.withinReach at found
  unfold State.signalAcquired
  refine if_pos ?_
  obtain ⟨low, high⟩ := tracks
  cases lost : (s.chanLoop a c).lostAt with
  | none =>
    rw [lost] at found
    simpa [running, assigned, free, low, high] using found
  | some m =>
    rw [lost] at found
    simpa [running, assigned, free, low, high] using found.imp_right Or.symm

theorem signalAcquired_shown {s : State} (h : CellList.wf resetOf s.regs = true) (a c cn0 : Nat) {st : Nat} (high : st ≤ 4) :
    ((s.sfW (chanWord a c) 16 3 st).sfW (chanWord a c + 4) 0 10 (min cn0 1023)).chanState a c = st ∧
      ((s.sfW (chanWord a c) 16 3 st).sfW (chanWord a c + 4) 0 10 (min cn0 1023)).f (chanWord a c + 4) 0 10 = min cn0 1023 := by
  have first : CellList.wf resetOf (s.sfW (chanWord a c) 16 3 st).regs = true := CellList.wf_set resetOf _ _ _ h
  have kept : FieldKept (chanWord a c) 16 3 (s.sfW (chanWord a c) 16 3 st)
      ((s.sfW (chanWord a c) 16 3 st).sfW (chanWord a c + 4) 0 10 (min cn0 1023)) := .wr _ _ (by omega)
  constructor
  · exact (kept first).2.trans ((f_sfW s _ _ _ _ _ _ h).trans ((fld_putFld _ 16 3 st (by decide)).trans (Nat.mod_eq_of_lt (by omega))))
  · exact (f_sfW _ _ _ _ _ _ _ first).trans ((fld_putFld _ 0 10 _ (by decide)).trans (Nat.mod_eq_of_lt (by omega)))

end Sys2Proof.Machine
end

section
/-!
SUPPORT. Navigation messages, the hot-start record, spectra, bias and wakes (R135, R136, R151 to R153, R488).
-/

set_option Elab.async false

namespace Sys2Proof.Machine

/-! ### Navigation messages (R136) -/

theorem leapVote_sides (s : State) (key sec : Nat) (offset : Int) : (s.leapVote key sec offset).gnss.sides = s.gnss.sides := by
  have learnt : ∀ (t : State) (c : Bool), (t.when c (fun t => (t.learnLeap sec offset 1).raise A.gnsEvent 3)).gnss = t.gnss := fun t _ =>
    PartFrame.when (l := .ts :: journalParts) (.step (.learnLeap t sec offset 1) (.raise _ _ _)) .gnss (by decide)
  unfold State.leapVote
  extract_lets old new gnss t enough
  exact (congrArg Gnss.sides (learnt t _)).trans rfl

/-- An ephemeris that is learnt is held with its instant. -/
theorem learnNav_ephem (s : State) {a : Nat} (listed : a < s.gnss.sides.length) {m : NavMessage} (decoded : m.ephemeris = true) :
    (satKey (s.chanSignal a m.chan) (s.chanSv a m.chan), s.nowNs / 1000000000) ∈ ((s.learnNav a m).side a).ephem := by
  have voted : ∀ (t : State) (key sec : Nat) (offset : Int), (t.leapVote key sec offset).side a = t.side a := fun t key sec offset =>
    congrArg (fun l => l.getD a GnssSide.empty) (leapVote_sides t key sec offset)
  unfold State.learnNav
  extract_lets g key now t
  have held : (key, now) ∈ (t.side a).ephem := by
    rw [side_setSide listed]
    dsimp only
    rw [if_pos decoded]
    exact List.mem_cons_self
  split
  · split
    · exact held
    · exact (voted t key _ _).symm ▸ held
  · exact held

/-- What a message counts and teaches, before its record. -/
def State.navHeard (s : State) (a : Nat) (m : NavMessage) : State :=
  (s.when (decide (m.result = 1)) (fun t => t.inc A.gnsNavFail)).when (decide (m.result = 0) || decide (m.result = 2)) (fun t => t.learnNav a m)

/-- The record of a message, written to its ring or dropped. -/
def State.navStored (s : State) (n : Nat) (d : Bytes) : State :=
  if (s.recordOrDrop n 0 d).2 then (s.recordOrDrop n 0 d).1.inc A.gnsNavCount
  else ((s.recordOrDrop n 0 d).1.inc A.gnsNavDrop).raise A.gnsEvent 0

theorem navMessage_of {s : State} {a : Nat} {m : NavMessage} {g : Signal} {f : Nat × Nat}
    (signal : signalOf (s.chanSignal a m.chan) = some g) (form : messageForm m.kind = some f) (kind : g.kinds.contains m.kind = true)
    (chan : m.chan < 160) : ∃ c n d, s.navMessage a m = (s.navHeard a m).when c (fun t => t.navStored n d) := by
  unfold State.navMessage
  rw [signal, form]
  exact ⟨_, _, _, if_pos ⟨kind, chan⟩⟩

theorem navStored_gnss (s : State) (n : Nat) (d : Bytes) : (s.navStored n d).gnss = s.gnss := by
  have recorded : (s.recordOrDrop n 0 d).1.gnss = s.gnss := PartFrame.recordOrDrop s n 0 d .gnss (by decide)
  unfold State.navStored
  split
  · exact (inc_gnss _ _).trans recorded
  · exact ((raise_gnss _ _ _).trans (inc_gnss _ _)).trans recorded

/-- A record does not count as a failed message. -/
theorem RegFrame.navStored (s : State) (n : Nat) (d : Bytes) : RegFrame (fun x => x ≠ A.gnsNavFail) s (s.navStored n d) := by
  have reporting : Reporting (fun x => x ≠ A.gnsNavFail) := by
    refine ⟨by decide, by decide, fun k => ?_⟩
    unfold A.hifRingPosted A.gnsNavFail
    omega
  have recorded : RegFrame (fun x => x ≠ A.gnsNavFail) s (s.recordOrDrop n 0 d).1 := by
    refine .recordOrDrop s n 0 d ?_ (fun _ => ?_) reporting
    all_goals
      unfold A.hifRingDrop A.gnsNavFail
      omega
  unfold State.navStored
  refine .ite (fun _ => recorded.trans (.inc _ _ (by decide) (fun _ => by decide))) (fun _ => ?_)
  exact .trans (recorded.trans (.inc _ _ (by decide) (fun pair => absurd pair (by decide +kernel)))) (.raise _ _ _ (by decide) reporting)

/-- A message that passed keeps what it taught, whatever becomes of its record. -/
theorem navMessage_ephem {s : State} {a : Nat} (listed : a < s.gnss.sides.length) {m : NavMessage} {g : Signal} {f : Nat × Nat}
    (signal : signalOf (s.chanSignal a m.chan) = some g) (form : messageForm m.kind = some f) (kind : g.kinds.contains m.kind = true)
    (chan : m.chan < 160) (passed : m.result = 0 ∨ m.result = 2) (decoded : m.ephemeris = true) :
    (satKey (s.chanSignal a m.chan) (s.chanSv a m.chan), s.nowNs / 1000000000) ∈ ((s.navMessage a m).side a).ephem := by
  obtain ⟨c, n, d, message⟩ := navMessage_of signal form kind chan
  have heard : s.navHeard a m = s.learnNav a m := by
    unfold State.navHeard
    obtain ok | ok := passed <;> rw [ok] <;> rfl
  have kept : (s.navMessage a m).gnss = (s.learnNav a m).gnss := by
    rw [message, heard]
    cases c
    · rfl
    · exact navStored_gnss _ n d
  rw [side_congr kept]
  exact learnNav_ephem s listed decoded

/-- A failed message is counted and teaches nothing. -/
theorem navMessage_failed {s : State} (h : CellList.wf resetOf s.regs = true) {a : Nat} {m : NavMessage} {g : Signal} {f : Nat × Nat}
    (signal : signalOf (s.chanSignal a m.chan) = some g) (form : messageForm m.kind = some f) (kind : g.kinds.contains m.kind = true)
    (chan : m.chan < 160) (failed : m.result = 1) :
    ((s.navMessage a m).rd A.gnsNavFail).toNat = min ((s.rd A.gnsNavFail).toNat + 1) 0xFFFFFFFF ∧
      (s.navMessage a m).gnss.sides = s.gnss.sides := by
  obtain ⟨c, n, d, message⟩ := navMessage_of signal form kind chan
  have heard : s.navHeard a m = s.inc A.gnsNavFail := by
    unfold State.navHeard
    rw [failed]
    rfl
  have regs := (RegFrame.inc (W := fun _ => True) s A.gnsNavFail trivial (fun _ => trivial) h).1
  have single : pairRowOf A.gnsNavFail = none := by decide +kernel
  have stored := RegFrame.when (s.inc A.gnsNavFail) c (fun t => t.navStored n d) (.navStored _ n d) regs
  rw [message, heard, stored.2 A.gnsNavFail (fun ne => ne rfl)]
  refine ⟨inc_rd h single, ?_⟩
  cases c
  · exact congrArg Gnss.sides (inc_gnss s A.gnsNavFail)
  · exact congrArg Gnss.sides ((navStored_gnss _ n d).trans (inc_gnss s A.gnsNavFail))

/-! ### The hot-start record (R135) -/

theorem hotStartDue_of {s : State} {a : Nat} (unit : a < 2) (due : s.gnss.hotStartAt ≤ s.ts.meas) (timing : 3 ≤ s.f (A.gnsSideStatus a) 0 3) :
    s.hotStartDue = { s with gnss := { s.gnss with hotStart := some [s.hotSide 0, s.hotSide 1], hotStartAt := s.ts.meas + secs 1800 } } := by
  refine if_pos ⟨due, ?_⟩
  interval_cases a
  · exact .inl timing
  · exact .inr timing

/-! ### Bias (R152) -/

theorem fld_word_low (v : Nat) : fld (word v) 0 2 = v % 4 := by
  unfold fld word
  rw [BitVec.toNat_ofNat, Nat.shiftRight_zero]
  omega

theorem RegFrame.setSide {W : Nat → Prop} (s : State) (a : Nat) (f : GnssSide → GnssSide) : RegFrame W s (s.setSide a f) := .same rfl

/-- The bias off for a SHORT, and its retry. -/
def State.biasShorted (s : State) (a ma : Nat) : State :=
  (s.wr (A.gnsSideBias a) (word (3 + min ma 127 * 2 ^ 8))).setSide a (fun x => { x with biasRetry := some (s.ts.meas + secs 10) })

theorem biasCurrent_high {ma : Nat} (high : 90 < ma) (s : State) (a : Nat) :
    s.biasCurrent a ma = (s.biasShorted a ma).raise (A.gnsSideEvent a) 6 := if_pos high

/-- The registers that a bias current writes. -/
def BiasWord (a x : Nat) : Prop := x = A.gnsSideBias a ∨ x = A.gnsSideEvent a ∨ InHif x

theorem RegFrame.sideEvent (s : State) (a b : Nat) : RegFrame (BiasWord a) s (s.raise (A.gnsSideEvent a) b) :=
  .raise_of s _ b (.inr (.inl rfl)) (fun _ hif => .inr (.inr hif))

theorem RegFrame.biasShorted (s : State) (a ma : Nat) : RegFrame (BiasWord a) s (s.biasShorted a ma) :=
  .trans (.wr s _ _ (.inl rfl)) (.setSide _ a _)

theorem RegFrame.biasCurrent (s : State) (a ma : Nat) : RegFrame (BiasWord a) s (s.biasCurrent a ma) :=
  .ite (fun _ => .trans (.biasShorted s a ma) (.sideEvent _ a 6)) (fun _ => .trans (.wr s _ _ (.inl rfl)) (.setSide _ a _))

/-- Above 90 mA the bias is SHORT, and retried after 10 s. -/
theorem biasCurrent_short {s : State} (h : CellList.wf resetOf s.regs = true) {a ma : Nat} (listed : a < s.gnss.sides.length) (high : 90 < ma) :
    (s.biasCurrent a ma).f (A.gnsSideBias a) 0 2 = 3 ∧ (s.biasCurrent a ma).bit (A.gnsSideEvent a) 6 = true ∧
      ((s.biasCurrent a ma).side a).biasRetry = some (s.ts.meas + secs 10) := by
  have words : CellList.wf resetOf (s.biasShorted a ma).regs = true := (RegFrame.biasShorted s a ma h).1
  have written : (s.biasShorted a ma).f (A.gnsSideBias a) 0 2 = 3 := by
    refine (congrArg (fun w => fld w 0 2) ((rd_wr s _ _ _ h).trans (if_pos rfl))).trans ((fld_word_low _).trans ?_)
    omega
  have apart : A.gnsSideEvent a ≠ A.gnsSideBias a := by unfold A.gnsSideEvent A.gnsSideBias; omega
  rw [biasCurrent_high high]
  refine ⟨(FieldKept.raise _ 6 apart (not_inHif_gnsSideBias a) words).2.trans written, raise_bit words (by decide) (not_inHif_gnsSideEvent a), ?_⟩
  rw [side_congr (raise_gnss _ _ _)]
  exact congrArg GnssSide.biasRetry (side_setSide listed _)

/-- Up to 90 mA the bias is OPEN or OK, and no retry is left. -/
theorem biasCurrent_low {s : State} (h : CellList.wf resetOf s.regs = true) {a ma : Nat} (listed : a < s.gnss.sides.length) (low : ma ≤ 90) :
    (s.biasCurrent a ma).f (A.gnsSideBias a) 0 2 = (if ma < 3 then 2 else 1) ∧ ((s.biasCurrent a ma).side a).biasRetry = none := by
  have still : a < (s.wr (A.gnsSideBias a) (word ((if ma < 3 then 2 else 1) + ma * 2 ^ 8))).gnss.sides.length := listed
  unfold State.biasCurrent
  rw [if_neg (by omega), side_setSide still]
  refine ⟨?_, rfl⟩
  refine (congrArg (fun w => fld w 0 2) ((rd_wr _ _ _ _ h).trans (if_pos rfl))).trans ((fld_word_low _).trans ?_)
  split <;> omega

theorem biasShort_of {s : State} {a ma : Nat} (on : s.f (A.gnsSideBias a) 0 2 = 1 ∨ s.f (A.gnsSideBias a) 0 2 = 2) (high : 90 < ma) :
    s.biasShort a ma = s.biasCurrent a ma := if_pos (by simpa [high] using on)

theorem biasRetry_of {s : State} {a ma m : Nat} (retry : (s.side a).biasRetry = some m) (due : m ≤ s.ts.meas)
    (enabled : s.sideEnabled a = true) (powered : s.bit (A.gnsSideAntCfg a) 1 = true) : s.biasRetry a ma = s.biasCurrent a ma := by
  unfold State.biasRetry
  rw [retry]
  exact if_pos ⟨due, enabled, powered⟩

/-! ### Spectra (R151) -/

/-- A field below bit 8 stands when the byte above it is written. -/
theorem f_sfW_byte {s : State} (h : CellList.wf resetOf s.regs = true) (x : Nat) {lo : Nat} (low : lo ≤ 3) (v w : Nat) :
    ((s.sfW x lo 3 v).sfW x 8 8 w).f x lo 3 = v % 8 := by
  have kept : FieldKept x lo 3 (s.sfW x lo 3 v) ((s.sfW x lo 3 v).sfW x 8 8 w) := .sfW _ 8 8 w (by omega) (.inl (by omega))
  exact (kept (CellList.wf_set resetOf _ _ _ h)).2.trans ((f_sfW s _ _ _ _ _ _ h).trans (fld_putFld _ lo 3 v (by omega)))

/-- A spectrum shows gain and floor of its band, and no more notches than four. -/
theorem spectrum_shown {s : State} (h : CellList.wf resetOf s.regs = true) (a : Nat) {band : Nat} (known : band < 2) (o : RfiObs) :
    (s.spectrum a band o).rd (if band = 0 then A.gnsSideRfL1 a else A.gnsSideRfL5 a) = word (min o.gain 600 + min o.floor 63 * 2 ^ 16) ∧
      (s.spectrum a band o).f (A.gnsSideRfi a) (3 * band) 3 ≤ 4 := by
  have jamming : ∀ t : State, RegFrame (BiasWord a) t ((t.raise (A.gnsSideEvent a) 5).snapQualify 2) := fun t =>
    (RegFrame.sideEvent t a 5).after (PartFrame.snapQualify _ 2 .regs (by decide))
  have bands : (if band = 0 then A.gnsSideRfL1 a else A.gnsSideRfL5 a) = 0x21080 + 0x1000 * a ∨
      (if band = 0 then A.gnsSideRfL1 a else A.gnsSideRfL5 a) = 0x21084 + 0x1000 * a := by
    split
    · exact .inl rfl
    · exact .inr rfl
  unfold State.spectrum
  extract_lets thr strong old mine kept fresh now t₀ moved t₁ t₂ rf t₃ jam t₄ t₅
  have noted : RegFrame (BiasWord a) s t₁ := .trans (.setSide s a _) (.when t₀ moved _ (.sideEvent t₀ a 7))
  have first : CellList.wf resetOf t₁.regs = true := (noted h).1
  have second : CellList.wf resetOf t₂.regs = true := CellList.wf_set resetOf _ _ _ (CellList.wf_set resetOf _ _ _ first)
  have third : CellList.wf resetOf t₃.regs = true := CellList.wf_set resetOf _ _ _ second
  have later : RegFrame (BiasWord a) t₃
      (t₅.when (decide (t₅.f (A.gnsSideBias a) 0 2 = 1) || decide (t₅.f (A.gnsSideBias a) 0 2 = 2)) (fun u => u.biasCurrent a o.biasMa)) :=
    .trans (.trans (.when t₃ _ _ (jamming t₃)) (.setSide t₄ a _)) (.when t₅ _ _ (.biasCurrent t₅ a o.biasMa))
  constructor
  · have out : ¬ BiasWord a rf := by
      unfold BiasWord A.gnsSideBias A.gnsSideEvent InHif
      omega
    exact ((later third).2 rf out).trans ((rd_wr _ _ _ _ second).trans (if_pos rfl))
  · have few : now.length ≤ 4 := List.length_take_le _ _
    have out : ¬ BiasWord a (A.gnsSideRfi a) := by
      unfold BiasWord A.gnsSideBias A.gnsSideEvent A.gnsSideRfi InHif
      omega
    have band_ne : rf ≠ A.gnsSideRfi a := by
      unfold A.gnsSideRfi
      omega
    have shown : FieldKept (A.gnsSideRfi a) (3 * band) 3 t₂ t₃ := .wr t₂ _ band_ne
    have stands := (shown.trans (.of_regFrame later out)) second
    have notches : t₂.f (A.gnsSideRfi a) (3 * band) 3 = now.length % 8 := f_sfW_byte first _ (by omega) _ _
    exact (stands.2.trans notches).trans_le (by omega)

end Sys2Proof.Machine
end

section
/-!
SUPPORT. O12: wakes and firmware images of the sides, and what every event of the receiver does (R133 to R153, R488).
-/

set_option Elab.async false

namespace Sys2Proof.Machine

/-! ### Wakes (R153) -/

theorem SidesOnly.wake {s t : State} (h : SidesOnly s t) : t.gnss.wake = s.gnss.wake := by
  unfold SidesOnly at h
  exact (congrArg Gnss.wake h :)

theorem SidesOnly.hotStart {s t : State} (h : SidesOnly s t) : t.gnss.hotStart = s.gnss.hotStart := by
  unfold SidesOnly at h
  exact (congrArg Gnss.hotStart h :)

/-- The unit with a wake of `w` under way, the next one `d` after this, before its side starts. -/
def State.wakeBegun (s : State) (d w : Nat) : State :=
  let t := s.setHol (fun h => { h with kaNext := h.kaNext + d })
  let t := ((t.setBit A.pwrDomState 3 (s.wakeSide = 0)).setBit A.pwrDomState 4 (s.wakeSide = 1)).setBit A.pwrDomState 5 true
  { t with gnss := { t.gnss with wake := some (s.wakeSide, t.ts.meas + w) } }

theorem wakeBegun_wake (s : State) (d w : Nat) : (s.wakeBegun d w).gnss.wake = some (s.wakeSide, s.ts.meas + w) := rfl

theorem wakeBegun_kaNext (s : State) (d w : Nat) : (s.wakeBegun d w).hol.kaNext = s.hol.kaNext + d := rfl

theorem kaWake_of {s : State} (keeping : s.hol.keepAlive = true) (period : s.f A.holKaGnss 0 11 ≠ 0) (due : s.hol.kaNext ≤ s.ts.meas)
    (idle : s.gnss.wake = none) (enabled : s.sideEnabled s.wakeSide = true) :
    s.kaWake = (s.wakeBegun (secs (60 * s.f A.holKaGnss 0 11)) (secs 120)).startSide s.wakeSide :=
  if_pos ⟨keeping, period, due, by rw [idle]; rfl, enabled⟩

theorem wakeSide_lt (s : State) : s.wakeSide < 2 := by
  unfold State.wakeSide
  split <;> decide

/-- A start writes no power domain. -/
theorem startSide_domain (s : State) (a i : Nat) (h : CellList.wf resetOf s.regs = true) :
    (s.startSide a).bit A.pwrDomState i = s.bit A.pwrDomState i :=
  bit_of_rd ((RegFrame.startSide s a h).2 A.pwrDomState (by decide)) i

/-- A wake runs its side with the GNSS domain on. -/
theorem wakeBegun_shown {s : State} (h : CellList.wf resetOf s.regs = true) (d w : Nat) :
    ((s.wakeBegun d w).startSide s.wakeSide).gnss.wake = some (s.wakeSide, s.ts.meas + w) ∧
      ((s.wakeBegun d w).startSide s.wakeSide).bit A.gnsStatus s.wakeSide = true ∧
      ((s.wakeBegun d w).startSide s.wakeSide).bit A.pwrDomState 5 = true ∧
      ((s.wakeBegun d w).startSide s.wakeSide).hol.kaNext = s.hol.kaNext + d := by
  have side := wakeSide_lt s
  have sides : CellList.wf resetOf ((s.setBit A.pwrDomState 3 (s.wakeSide = 0)).setBit A.pwrDomState 4 (s.wakeSide = 1)).regs = true :=
    CellList.wf_set resetOf _ _ _ (CellList.wf_set resetOf _ _ _ h)
  have regs : CellList.wf resetOf (s.wakeBegun d w).regs = true := CellList.wf_set resetOf _ _ _ sides
  have powered : (s.wakeBegun d w).bit A.pwrDomState 5 = true := (bit_setBit _ _ 5 5 true sides (by decide)).trans (if_pos rfl)
  refine ⟨(SidesOnly.startSide (s.wakeBegun d w) s.wakeSide).wake.trans (wakeBegun_wake s d w), startSide_runs regs (by omega),
    (startSide_domain _ _ 5 regs).trans powered, ?_⟩
  exact (congrArg Hol.kaNext (PartFrame.startSide (s.wakeBegun d w) s.wakeSide .hol (by decide))).trans (wakeBegun_kaNext s d w)

/-- No wake is under way. -/
def State.wakeForgotten (s : State) : State := { s with gnss := { s.gnss with wake := none } }

theorem wakeForgotten_bit (s : State) (x i : Nat) : s.wakeForgotten.bit x i = s.bit x i := rfl

/-- The domains of the receiver off. -/
def State.gnssOff (s : State) : State := ((s.setBit A.pwrDomState 3 false).setBit A.pwrDomState 4 false).setBit A.pwrDomState 5 false

theorem RegFrame.gnssOff (s : State) : RegFrame (fun x => x = A.pwrDomState) s s.gnssOff :=
  .trans (.trans (.setBit s _ _ _ rfl) (.setBit _ _ _ _ rfl)) (.setBit _ _ _ _ rfl)

theorem kaWakeEnd_of {s : State} {a e : Nat} (awake : s.gnss.wake = some (a, e)) {sky : List SkyObs}
    (ended : s.skyCurrent a sky = true ∨ e ≤ s.ts.meas) : s.kaWakeEnd sky = (s.writeHotStart.haltSide a).wakeForgotten.gnssOff := by
  unfold State.kaWakeEnd
  rw [awake]
  exact if_pos ended

/-- The end of a wake halts its side and leaves the receiver without power. -/
theorem wakeEnded_shown {s : State} (h : CellList.wf resetOf s.regs = true) {a : Nat} (unit : a < 2) :
    (s.haltSide a).wakeForgotten.gnssOff.gnss.wake = none ∧ (s.haltSide a).wakeForgotten.gnssOff.bit A.gnsStatus a = false ∧
      (s.haltSide a).wakeForgotten.gnssOff.bit A.pwrDomState 5 = false ∧
      (s.haltSide a).wakeForgotten.gnssOff.gnss.hotStart = s.gnss.hotStart := by
  have halted : CellList.wf resetOf (s.haltSide a).wakeForgotten.regs = true := (RegFrame.haltSide s a h).1
  have domains : CellList.wf resetOf
      (((s.haltSide a).wakeForgotten.setBit A.pwrDomState 3 false).setBit A.pwrDomState 4 false).regs = true :=
    CellList.wf_set resetOf _ _ _ (CellList.wf_set resetOf _ _ _ halted)
  refine ⟨rfl, ?_, ?_, ?_⟩
  · exact (bit_of_rd ((RegFrame.gnssOff _ halted).2 A.gnsStatus (by decide)) a).trans ((wakeForgotten_bit ..).trans (haltSide_stopped h (by omega)))
  · exact (bit_setBit _ _ 5 5 false domains (by decide)).trans (if_pos rfl)
  · exact (SidesOnly.haltSide s a).hotStart

/-! ### Firmware of a side (R488) -/

theorem side_wr (s : State) (x : Nat) (v : Word) (a : Nat) : (s.wr x v).side a = s.side a := rfl

/-- A side that starts loads no firmware, and runs what its slot holds. -/
theorem startSide_shown {s : State} {a : Nat} (listed : a < s.gnss.sides.length) :
    ((s.startSide a).side a).loadingUntil = none ∧ ((s.startSide a).side a).slot = (s.side a).slot := by
  unfold State.startSide State.biasOn
  extract_lets k t
  have freed : SideKept GnssSide.slot a s t :=
    .trans (.of_partFrame (.trans (.setBit s _ _ _) (.sfW _ _ _ _ _))) (.freeChans (fun _ _ => rfl) _ a a)
  have still : a < t.gnss.sides.length := freed.listed listed
  rw [side_setSide (by rw [State.wr_gnss, setSide_sides_length]; exact still), side_wr, side_setSide still]
  exact ⟨rfl, freed.2⟩

/-- The image that a side is to start with. -/
def State.imageOf (s : State) (a : Nat) (ok : Bool) : Bytes := if ok then (s.side a).slot else (s.side a).fallback

/-- The side with an image in its slot. -/
def State.imageTaken (s : State) (a : Nat) (image : Bytes) : State := s.setSide a (fun x => { x with slot := image })

/-- The load of an image noted in the journal. -/
def State.loadNoted (s : State) (a outcome : Nat) (body : Bytes) : State := s.journalize 5 .module (A.gnsSideStatus a) outcome body

theorem loadNoted_gnss (s : State) (a outcome : Nat) (body : Bytes) : (s.loadNoted a outcome body).gnss = s.gnss :=
  PartFrame.journalize s 5 _ _ _ _ .gnss (by decide)

theorem gnssLoad_eq (s : State) (a : Nat) (ok : Bool) :
    ∃ outcome body, s.gnssLoad a ok = ((s.imageTaken a (s.imageOf a ok)).loadNoted a outcome body).startSide a := ⟨_, _, rfl⟩

/-- A loaded side starts with the image whose start check passed. -/
theorem gnssLoad_shown {s : State} (h : CellList.wf resetOf s.regs = true) {a : Nat} (unit : a < 2) (listed : a < s.gnss.sides.length)
    (ok : Bool) :
    ((s.gnssLoad a ok).side a).slot = s.imageOf a ok ∧ (s.gnssLoad a ok).bit A.gnsStatus a = true ∧
      ((s.gnssLoad a ok).side a).loadingUntil = none := by
  obtain ⟨outcome, body, load⟩ := gnssLoad_eq s a ok
  have regs : CellList.wf resetOf (s.imageTaken a (s.imageOf a ok)).regs = true := h
  have noted : CellList.wf resetOf ((s.imageTaken a (s.imageOf a ok)).loadNoted a outcome body).regs = true :=
    (RegFrame.journalize_glbHif (s.imageTaken a (s.imageOf a ok)) 5 .module (A.gnsSideStatus a) outcome body regs).1
  have gnss := loadNoted_gnss (s.imageTaken a (s.imageOf a ok)) a outcome body
  have still : a < ((s.imageTaken a (s.imageOf a ok)).loadNoted a outcome body).gnss.sides.length := by
    rw [gnss]
    exact (setSide_sides_length s a _).symm ▸ listed
  obtain ⟨loaded, slot⟩ := startSide_shown still
  have image : (((s.imageTaken a (s.imageOf a ok)).loadNoted a outcome body).side a).slot = s.imageOf a ok := by
    rw [side_congr gnss]
    exact congrArg GnssSide.slot (side_setSide listed _)
  rw [load]
  exact ⟨slot.trans image, startSide_runs noted (by omega), loaded⟩

/-! ### The obligation -/

theorem exec_afterIf {c : Instr} {s u : State} {w : Bool} {dt : Nat} (f : State → State) (command : exec c s = afterIf w dt s f)
    (known : w = true) (eq : u = s.advance dt) : exec c s = .next (f u) :=
  command.trans ((if_pos known).trans (by rw [eq]))

/-- The latch and the epoch of a side that solves, on the state after its allocation. -/
theorem solutionDone_shown {s : State} (h : s.canonical = true) {a : Nat} (listed : a < s.gnss.sides.length)
    (running : s.bit A.gnsStatus a = true) {la : GnssLatch} (latched : (s.side a).latch = some la)
    (young : s.ts.meas ≤ la.meas + secs 1 / 2) (m : GnssSolution) :
    (s.solutionDone a m).f (A.gnsSideStatus a) 12 3 = ((s.allocate a m.sky).epochOf a m la).status % 8 ∧
      (s.solutionDone a m).f (A.gnsSideStatus a) 16 8 = (satellites ((s.allocate a m.sky).epochOf a m la).entered).length % 256 ∧
      ((s.solutionDone a m).side a).latch = none ∧ ((s.solutionDone a m).side a).epoch = la.epoch := by
  have allocated : (s.allocate a m.sky).canonical = true := (State.allocate_can s a m.sky (Can.start h)).canonical
  rw [solutionDone_solves running latched young]
  obtain ⟨status, used, timing⟩ := solveLatched_shown allocated ((TimingKept.allocate (b := a) s a m.sky).listed listed) m la
  unfold GnssSide.timing at timing
  exact ⟨status, used, Prod.mk.inj timing⟩

/-- Settles O12: each event is the branch of its operation that the hypotheses name; the outcome of an epoch is read back through
the survey, the alarms and the delivery that follow it, and what a start, a record or a journal entry leaves alone stands. -/
theorem gnssEventsComplete : Obligations.GnssEventsComplete := by
  unfold Obligations.GnssEventsComplete
  refine ⟨fun s u dt a m la canonical eq unit listed running latched young =>
      completes_afterIf (·.solutionDone a m) rfl (decide_eq_true unit) eq ?solved,
    fun s u dt a m canonical eq unit running unlatched => ?unlatched,
    fun s u dt a m canonical eq unit stopped => ?stopped,
    fun s u dt a check canonical eq unit active quiet =>
      completes_afterIf (·.alarmClear a check) rfl (decide_eq_true unit) eq ?alarm,
    fun s u dt a key check k e canonical eq unit found past absent =>
      completes_afterIf (·.exclEnd a k key check) rfl (decide_eq_true unit) eq ?readmitted,
    fun s u dt a key check k e canonical eq unit found past trips =>
      completes_afterIf (·.exclEnd a k key check) rfl (decide_eq_true unit) eq ?excluded,
    fun s u dt a c t canonical eq unit chan low locked past =>
      completes_afterIf (·.lossOfLock a c) rfl (by simp [unit, chan]) eq ?lost,
    fun s u dt a c cn0 st canonical eq unit chan running assigned free low high found =>
      completes_afterIf (·.signalAcquired a c cn0 st) rfl (by simp [unit, chan]) eq ?acquired,
    fun s u dt a m g f canonical eq unit listed chan signal form kind passed decoded =>
      completes_afterIf (·.navMessage a m) rfl (decide_eq_true unit) eq (navMessage_ephem listed signal form kind chan passed decoded),
    fun s u dt a m g f canonical eq unit listed chan signal form kind failed =>
      completes_afterIf (·.navMessage a m) rfl (decide_eq_true unit) eq (navMessage_failed ?_ signal form kind chan failed),
    fun s u dt a canonical eq unit due timing => completes_after State.hotStartDue rfl eq ?hot,
    fun s u dt a band o canonical eq unit known =>
      completes_afterIf (·.spectrum a band o) rfl (by simp [unit, known]) eq (spectrum_shown ?_ a known o),
    fun s u dt a ma canonical eq unit listed on high =>
      completes_afterIf (·.biasShort a ma) rfl (decide_eq_true unit) eq ?short,
    fun s u dt a ma m canonical eq unit listed retry due enabled powered low =>
      completes_afterIf (·.biasRetry a ma) rfl (decide_eq_true unit) eq ?retried,
    fun s u dt canonical eq keeping period due idle enabled => completes_after State.kaWake rfl eq ?woken,
    fun s u dt a e sky canonical eq unit awake ended => completes_after (·.kaWakeEnd sky) rfl eq ?asleep,
    fun s u dt a ok canonical eq unit listed =>
      completes_afterIf (·.gnssLoad a ok) rfl (decide_eq_true unit) eq (gnssLoad_shown ?_ unit listed ok)⟩
  all_goals
    have sound : u.canonical = true := eq ▸ advance_canonical canonical dt
    have regs : CellList.wf resetOf u.regs = true := regs_of_canonical sound
  case solved => exact solutionDone_shown sound listed running latched young m
  case unlatched =>
    rw [exec_afterIf (·.solutionDone a m) rfl (decide_eq_true unit) eq, solutionDone_unlatched running unlatched]
  case stopped =>
    rw [exec_afterIf (·.solutionDone a m) rfl (decide_eq_true unit) eq, solutionDone_stopped stopped]
  case alarm => exact alarmClear_shown regs active quiet
  case readmitted =>
    rw [exclEnd_of found past, absent]
    exact (congrArg (fun x => GnssSide.excluded x k key) (side_setSide (listed_of_exclusion found) _)).trans (readmit_excluded _ k key)
  case excluded =>
    have listed := listed_of_exclusion found
    rw [exclEnd_of found past, trips]
    exact exclude_shown ((setSide_sides_length u a _).symm ▸ listed)
      (by rw [side_setSide listed]; exact readmit_excluded _ k key) check
  case lost =>
    obtain ⟨state, unlocked, count⟩ := chanLost_shown regs a c
    rw [lossOfLock_of low locked past]
    refine ⟨(f_setLoop ..).trans state, (bit_setLoop ..).trans unlocked, (f_setLoop ..).trans count, fun listed => ?_⟩
    exact congrArg ChanLoop.lostAt (chanLoop_setLoop listed c (fun same => Option.some_ne_none _ (congrArg ChanLoop.lostAt same)))
  case acquired =>
    rw [signalAcquired_of running assigned free ⟨low, high⟩ found]
    obtain ⟨state, level⟩ := signalAcquired_shown regs a c cn0 high
    exact ⟨(f_setLoop ..).trans state, (f_setLoop ..).trans level⟩
  case hot =>
    rw [hotStartDue_of unit due timing]
    exact ⟨rfl, rfl⟩
  case short =>
    rw [biasShort_of on high]
    exact biasCurrent_short regs listed high
  case retried =>
    rw [biasRetry_of retry due enabled powered]
    exact biasCurrent_low regs listed low
  case woken =>
    rw [kaWake_of keeping period due idle enabled]
    exact wakeBegun_shown regs _ _
  case asleep =>
    rw [kaWakeEnd_of awake ended]
    exact wakeEnded_shown (s := u.writeHotStart) regs unit
  all_goals exact regs

end Sys2Proof.Machine
end

section
/-!
SUPPORT. FLOW_ADOPT while the link is inside a frame (R216), and O2.
-/

set_option Elab.async false

namespace Sys2Proof.Machine

/-- Link 0 is UP, is in the middle of an express frame, and its receive direction has yet to adopt MAC0_FLOW. -/
def midFrame : State :=
  { State.reset.wr (A.macLinkStatus 0) 1 with ports := { State.reset.ports with
      links := modAt State.reset.ports.links 0 (fun l => { l with rxExpress := some ⟨0, 0, 0, [], false, false⟩ })
      complexes := modAt State.reset.ports.complexes 0 (fun c => { c with flowWait := [0] }) } }

theorem midFrame_waits : (((midFrame.advance 0).flowPoint 0 0).complex 0).flowWait.contains 0 = true := by decide +kernel

/-- Refutes O2: a link that is UP adopts its new values between two frames only (R216), so FLOW_ADOPT in the middle of a
frame leaves the direction waiting, while the statement asks that it has adopted them. -/
theorem not_sluiceCommandsComplete : ¬ Obligations.SluiceCommandsComplete := by
  unfold Obligations.SluiceCommandsComplete
  rintro ⟨-, -, -, adopts, -⟩
  have canonical : midFrame.canonical = true := by decide +kernel
  obtain ⟨t, next, adopted⟩ := adopts midFrame _ 0 0 0 canonical rfl (by decide) (by decide) (by decide +kernel)
    (by decide +kernel) (by decide +kernel)
  obtain rfl := Host.Outcome.next.inj next
  exact absurd (midFrame_waits.symm.trans adopted) (by decide)

end Sys2Proof.Machine
end

section
/-!
SUPPORT. An Etxel request that is too short (R283), and O36.
-/

set_option Elab.async false

namespace Sys2Proof.Machine

/-- An IPv4 datagram of 10 bytes to port 7 of 10.0.0.2. -/
def shortRequest : Bytes :=
  padFrame (frameOf ⟨zeros 6, zeros 6, [], 4, 0, mapped [10, 0, 0, 1], mapped [10, 0, 0, 2], 9, 7, 0, 64⟩ (zeros 10))

/-- Link 0 is UP, and address entry 0 serves Etxel for 10.0.0.2 on it, at port 7. -/
def etxelServed : State :=
  ((((State.reset.wr (A.macLinkStatus 0) 1).wr (A.hrcAddrIp 0 2) 0xFFFF).wr (A.hrcAddrIp 0 3) 0x0A000002).wr (A.hrcAddrSvc 0) 0x111).wr
    A.rcpPorts 7

theorem etxelServed_short :
    ((etxelServed.advance 0).frameIn 0 ⟨.express, .frame true, shortRequest, 0, false, 0, 0⟩).rd A.rcpShort ≠ etxelServed.rd A.rcpShort := by
  decide +kernel

theorem rcpShort_notMem (k : Nat) : A.rcpShort ∉ [span 0x40000 0x48000 k, span 0x50000 0x58000 k, span 0x58000 0x60000 k,
    span 0x68000 0x70000 k, span 0xC000 0x10000 k, span 0x4000 0x8000 k] ++ reportWords k := by
  simp only [span, reportWords, A.hifEvent, A.hifEvtDrop, A.hifRingPosted, A.rcpShort, List.cons_append, List.nil_append,
    List.mem_cons, List.not_mem_nil, or_false]
  omega

/-- Refutes O36: a received Etxel request below its least length counts in SHORT of the receipt service (R283), a word
that the statement does not list among those that FRAME_RX writes. -/
theorem not_linkRegisterFrames : ¬ Obligations.LinkRegisterFrames := by
  unfold Obligations.LinkRegisterFrames
  rintro ⟨frameWrites, -⟩
  have canonical : etxelServed.canonical = true := by decide +kernel
  exact etxelServed_short (frameWrites 0 0 _ etxelServed _ _ canonical rfl rcpShort_notMem)

end Sys2Proof.Machine
end

section
/-!
SUPPORT. The frames of parts of rings, pause, weirs, preemption, probes and optics (R186 to R206, R335 to R339).
-/

set_option Elab.async false

namespace Sys2Proof.Machine

/-! ### Fields of the state -/

theorem PartFrame.hrc (s : State) (x : Hrc) : PartFrame [.hrc] s { s with hrc := x } := by
  intro p n; cases p <;> simp_all [Part.eq, Part.same]
theorem PartFrame.cas (s : State) (x : Cas) : PartFrame [.cas] s { s with cas := x } := by
  intro p n; cases p <;> simp_all [Part.eq, Part.same]
theorem PartFrame.fences (s : State) (x : Cells Nat) : PartFrame [.fences] s { s with fences := x } := by
  intro p n; cases p <;> simp_all [Part.eq, Part.same]

/-! ### Rings (R335 to R339) -/

/-- The parts that work on a ring may change. -/
abbrev ringParts : List Part := [.regs, .hif, .out]

theorem PartFrame.showRing (s : State) (n : Nat) : PartFrame [.regs] s (s.showRing n) := .sfW s _ _ _ _

theorem PartFrame.drainRing (s : State) (n : Nat) : PartFrame ringParts s (s.drainRing n) := by
  unfold State.drainRing
  refine .ite ?_ (.mono (.showRing s n))
  exact .step (.trans (.mono (.setRing s n _)) (.each (fun _ u => .postCompletion u n _ _ _ _ _) _ _)) (.showRing _ n)

theorem PartFrame.endWork (s : State) (n slot status length : Nat) : PartFrame ringParts s (s.endWork n slot status length) :=
  .trans (.mono (.setRing s n _)) (.drainRing _ n)

theorem PartFrame.startWork (s : State) (n : Nat) : PartFrame ringParts s (s.startWork n).2 := by
  unfold State.startWork
  split
  · exact .refl _ s
  · exact .trans (.mono (.setRing s n _)) (.settleBad _ n)

theorem PartFrame.giveBuffer (s : State) (n : Nat) (p : Desc × Bytes × Nat) : PartFrame ringParts s (s.giveBuffer n p) :=
  .ite (.postCompletion s n _ _ _ _ _) (.trans (.mono (.hostWrite s _ _)) (.postCompletion _ n _ _ _ _ _))

theorem PartFrame.deliverFrame (s : State) (n cls sl tRxStamp : Nat) (frame : Bytes) :
    PartFrame [.regs, .totals, .hif, .out] s (s.deliverFrame n cls sl tRxStamp frame) := by
  have given : ∀ f l, PartFrame ringParts s ((s.setRing n f).each l (fun p u => u.giveBuffer n p)) := fun f l =>
    .trans (.mono (.setRing s n f)) (.each (fun _ u => .giveBuffer u n _) l _)
  unfold State.deliverFrame
  exact .ite (.mono (.step (.trans (given _ _) (.settleBad _ n)) (.showRing _ n))) (.ringDrop s n)

/-! ### Pause and weirs (R198 to R202) -/

theorem PartFrame.endHold (s : State) (sl : Nat) : PartFrame [.regs, .ports] s (s.endHold sl) :=
  .step (.step (.settleHeld s sl) (.setLink _ sl _)) (.setBit _ _ _ _)

theorem PartFrame.pauseEffect (s : State) (sl : Nat) : PartFrame [.regs, .ports] s (s.pauseEffect sl) := by
  have taken : ∀ f, PartFrame [.regs, .ports] s (s.setLink sl f) := fun f => .mono (.setLink s sl f)
  unfold State.pauseEffect
  split
  · exact .refl _ s
  · refine .ite (.refl _ s) (.ite (taken _) (.ite (.trans (taken _) (.endHold _ sl)) ?_))
    exact .step (.step (.trans (taken _) (.settleHeld _ sl)) (.setLink _ sl _)) (.setBit _ _ _ _)

theorem PartFrame.pauseHoldEnd (s : State) (sl : Nat) : PartFrame [.regs, .ports] s (s.pauseHoldEnd sl) := by
  unfold State.pauseHoldEnd
  split
  · exact .ite (.endHold s sl) (.refl _ s)
  · exact .refl _ s

/-- The parts that a frame's counters and events may change on a link. -/
abbrev linkParts : List Part := .ports :: reportParts

theorem PartFrame.pauseOverlimit (s : State) (sl : Nat) : PartFrame linkParts s (s.pauseOverlimit sl) := by
  have settled : PartFrame linkParts s (s.settleHeld sl) := .mono (.settleHeld s sl)
  exact .ite (.step (.step (.step (.step settled (.endHold _ sl)) (.setLink _ sl _)) (.inc _ _)) (.raise _ _ _)) settled

theorem PartFrame.pauseReceived (s : State) (sl quanta : Nat) : PartFrame [.ports] s (s.pauseReceived sl quanta) :=
  .ite (.setLink s sl _) (.refl _ s)

theorem PartFrame.sendFrame (s : State) (sl tTx : Nat) (d : Bytes) : PartFrame [.regs, .totals, .out] s (s.sendFrame sl tTx d) :=
  .step (.step (.mono (.emit s _)) (.inc _ _)) (.count _ _ _)

theorem PartFrame.expressSlot (s : State) (sl n : Nat) : PartFrame slotParts s (s.expressSlot sl n).2 := .reserve s sl _ n _

/-- The state of a result that has been taken apart. -/
theorem PartFrame.of_pair {l : List Part} {α : Type} {s t : State} {q : α × State} {x : α} (h : PartFrame l s q.2) (eq : q = (x, t)) :
    PartFrame l s t := by rwa [eq] at h

theorem PartFrame.sendPause (s : State) (sl quanta : Nat) : PartFrame slotParts s (s.sendPause sl quanta) := by
  unfold State.sendPause
  refine .ite (.refl _ s) ?_
  split
  case h_1 t eq => exact .of_pair (.expressSlot s sl 60) eq
  case h_2 z t eq =>
    have booked : PartFrame slotParts s t := .of_pair (.expressSlot s sl 60) eq
    exact .step (.step (.step (.step booked (.sendFrame _ sl _ _)) (.emit _ _)) (.inc _ _)) (.setLink _ sl _)

theorem PartFrame.showCells (s : State) (sl : Nat) : PartFrame [.regs] s (s.showCells sl) := .sfW s _ _ _ _

theorem PartFrame.weirHigh (s : State) (sl occ : Nat) : PartFrame slotParts s (s.weirHigh sl occ) :=
  .ite (.trans (.step (.mono (.setBit s _ _ _)) (.raise _ _ _)) (.when (.sendPause _ sl _))) (.refl _ s)

theorem PartFrame.weirLow (s : State) (sl occ : Nat) : PartFrame slotParts s (s.weirLow sl occ) := by
  have shown : PartFrame slotParts s (s.showCells sl) := .mono (.showCells s sl)
  exact .ite (.trans (.step shown (.setBit _ _ _ _)) (.when (.sendPause _ sl 0))) shown

theorem PartFrame.pauseRefresh (s : State) (sl : Nat) : PartFrame slotParts s (s.pauseRefresh sl) :=
  .ite (.sendPause s sl _) (.refl _ s)

/-! ### Preemption and preemptable frames (R203 to R206) -/

theorem PartFrame.restartVerify (s : State) (sl : Nat) : PartFrame [.regs, .ports] s (s.restartVerify sl) :=
  .step (.mono (.sfW s _ _ _ _)) (.setLink _ sl _)

theorem PartFrame.verifySend (s : State) (sl : Nat) : PartFrame linkParts s (s.verifySend sl) :=
  .ite (.ite (.step (.mono (.sfW s _ _ _ _)) (.raise _ _ _)) (.step (.mono (.emit s _)) (.setLink _ sl _))) (.refl _ s)

theorem PartFrame.verifyResponse (s : State) (sl : Nat) : PartFrame [.regs] s (s.verifyResponse sl) :=
  .ite (.sfW s _ _ _ _) (.refl _ s)

theorem PartFrame.queuePre (s : State) (sl : Nat) (d : Bytes) (ring : Option (Nat × Nat × Nat)) (counter : Option Nat) :
    PartFrame [.ports] s (s.queuePre sl d ring counter) := .setLink s sl _

/-- The parts that the end of a preemptable frame may change. -/
abbrev lineParts : List Part := [.regs, .totals, .hif, .ports, .out]

theorem PartFrame.endOnLine (s : State) (sl : Nat) : PartFrame lineParts s (s.endOnLine sl) := by
  unfold State.endOnLine
  split
  · exact .refl _ s
  · refine .ite (.refl _ s) ?_
    extract_lets cut sent counted
    have left : PartFrame lineParts s sent := .step (.step (.mono (.settleCuts s sl)) (.setLink _ sl _)) (.sendFrame cut sl _ _)
    have after : PartFrame lineParts s counted := by
      unfold counted
      split
      · exact .step left (.inc _ _)
      · exact left
    split
    · exact after
    · exact .step (.step after (.inc _ _)) (.endWork _ _ _ _ _)

theorem PartFrame.startOnLine (s : State) (sl : Nat) : PartFrame [.ports] s (s.startOnLine sl) := by
  unfold State.startOnLine
  split
  · exact .refl _ s
  · exact .ite (.setLink s sl _) (.refl _ s)

theorem PartFrame.sendPreemptable (s : State) (sl : Nat) (last : Bool) : PartFrame lineParts s (s.sendPreemptable sl last) :=
  .step (.when (.endOnLine s sl)) (.startOnLine _ sl)

/-! ### Probes and optics (R186, R191) -/

theorem PartFrame.probeReturn (s : State) (sl nonce cap : Nat) : PartFrame linkParts s (s.probeReturn sl nonce cap) := by
  unfold State.probeReturn
  split
  · exact .refl _ s
  · exact .ite (.step (.step (.step (.mono (.setLink s sl _)) (.setBit _ _ _ _)) (.wr _ _ _)) (.raise _ _ _)) (.refl _ s)

theorem PartFrame.probeTimeout (s : State) (sl : Nat) : PartFrame [.regs, .ports] s (s.probeTimeout sl) := by
  unfold State.probeTimeout
  split
  · exact .refl _ s
  · exact .ite (.step (.step (.mono (.setLink s sl _)) (.setBit _ _ _ _)) (.wr _ _ _)) (.refl _ s)

theorem PartFrame.showTransmitters (s : State) (c : Nat) : PartFrame [.regs] s (s.showTransmitters c) := .setBit s _ _ _

theorem PartFrame.showLaneTransmitters (s : State) : PartFrame [.regs] s s.showLaneTransmitters :=
  .trans (.setBit s _ _ _) (.setBit _ _ _ _)

/-- What an optic says of itself, where it answers. -/
theorem PartFrame.identified {s t : State} (h : PartFrame reportParts s t) (c : Prop) [Decidable c] (a x y : Nat) :
    PartFrame reportParts s (if c then (t.sfW a 0 8 x).sfW a 8 3 y else t) :=
  .ite (.step (.step h (.sfW _ _ _ _ _)) (.sfW _ _ _ _ _)) h

theorem PartFrame.cageInsert (s : State) (c : Nat) (responded : Bool) (ident pclass : Nat) :
    PartFrame reportParts s (s.cageInsert c responded ident pclass) := by
  have present : PartFrame reportParts s ((s.setBit (A.macStatus c) 2 true).raise (A.macEvent c) 0) :=
    .step (.mono (.setBit s _ _ _)) (.raise _ _ _)
  exact .stepWhen (.step (.step (.step (.identified (.step present (.wr _ _ _)) _ _ _ _) (.setBit _ _ _ _)) (.setBit _ _ _ _))
    (.showTransmitters _ c)) (.raise _ _ _)

theorem PartFrame.laneCageInsert (s : State) (c : Nat) (responded : Bool) (ident pclass : Nat) :
    PartFrame reportParts s (s.laneCageInsert c responded ident pclass) := by
  have present : PartFrame reportParts s ((s.setBit A.cmacStatus (2 * c) true).raise A.cmacEvent 0) :=
    .step (.mono (.setBit s _ _ _)) (.raise _ _ _)
  exact .stepWhen (.step (.step (.step (.identified (.step present (.sfW _ _ _ _ _)) _ _ _ _) (.setBit _ _ _ _)) (.setBit _ _ _ _))
    (.showLaneTransmitters _)) (.raise _ _ _)

theorem PartFrame.opticIn (s : State) (c : Nat) (responded : Bool) (ident pclass : Nat) :
    PartFrame reportParts s (s.opticIn c responded ident pclass) :=
  .ite (.cageInsert s c responded ident pclass) (.laneCageInsert s (c - 2) responded ident pclass)

end Sys2Proof.Machine
end

section
/-!
SUPPORT. The frames of parts of links that come UP and of departures (R185, R207 to R213).
-/

set_option Elab.async false

namespace Sys2Proof.Machine

/-! ### Links up (R185, R266) -/

/-- The parts that the start of a PTP slave may change. -/
abbrev slaveParts : List Part := [.regs, .totals, .celen, .hif, .refs, .ports, .ptp, .out]

theorem PartFrame.setSlv (s : State) (n st : Nat) : PartFrame [.regs, .totals, .celen, .hif, .refs, .out] s (s.setSlv n st) := by
  have shown : PartFrame [.regs, .totals, .celen, .hif, .refs, .out] s (s.sfW (A.ptpSlvState n) 0 3 st) := .mono (.sfW s _ _ _ _)
  have left : ∀ {t}, PartFrame [.regs, .totals, .celen, .hif, .refs, .out] s t →
      PartFrame [.regs, .totals, .celen, .hif, .refs, .out] s (if st = 3 then t else t.lose (8 + n)) := fun h =>
    .ite h (.step h (.lose _ _))
  exact .ite (.step (left shown) (.raise _ _ _)) (left shown)

theorem PartFrame.slaveSignal (s : State) (n m : Nat) (tl : Bytes) : PartFrame [.ports, .ptp] s (s.slaveSignal n m tl) :=
  .step (.mono (.setSlave s n _)) (.sendGeneral _ _ _ _ _)

theorem PartFrame.requestGrants (s : State) (n : Nat) : PartFrame [.ports, .ptp] s (s.requestGrants n) :=
  .trans (.mono (.setSlave s n _)) (.each (fun m u => .ite (.refl _ u) (.slaveSignal u n m _)) _ _)

theorem PartFrame.slaveReset (s : State) (n : Nat) : PartFrame slaveParts s (s.slaveReset n) :=
  .step (.step (.step (.step (.step (.step (.step (.mono (.setSlave s n _)) (.setSlv _ n _)) (.sfW _ _ _ _ _)) (.wr _ _ _)) (.wr _ _ _))
    (.wr _ _ _)) (.wr _ _ _)) (.requestGrants _ n)

theorem PartFrame.ptpLinkUp (s : State) (sl : Nat) : PartFrame slaveParts s (s.ptpLinkUp sl) :=
  .each (fun n u => .ite (.slaveReset u n) (.refl _ u)) _ s

theorem PartFrame.linkComesUp (s : State) (sl rxDyn txDyn : Nat) : PartFrame linkParts s (s.linkComesUp sl rxDyn txDyn) := by
  refine .ite ?_ (.refl _ s)
  extract_lets wide fec changed status measured locked up
  have delays : PartFrame linkParts s measured := .step (.step (.mono (.sfW s _ _ _ _)) (.sfW status _ _ _ _)) (.sfW _ _ _ _ _)
  have shown : PartFrame linkParts s up := .step (.step (.step delays (.setLink measured sl _)) (.setBit locked _ _ _)) (.raise _ _ _)
  exact .step (.stepWhen shown (.raise up _ _)) (.restartVerify _ sl)

theorem PartFrame.portUp (s : State) (sl rxDyn txDyn : Nat) : PartFrame slaveParts s (s.portUp sl rxDyn txDyn) := by
  have up : PartFrame slaveParts s (s.linkComesUp sl rxDyn txDyn) := .mono (.linkComesUp s sl rxDyn txDyn)
  exact .ite (.refl _ s) (.ite (.trans up (.ptpLinkUp _ sl)) up)

theorem PartFrame.setLane (s : State) (l : Nat) (f : PeorelLane → PeorelLane) : PartFrame [.cas] s (s.setLane l f) := .cas s _

theorem PartFrame.laneComesUp (s : State) (l rxDyn txDyn : Nat) : PartFrame (.cas :: reportParts) s (s.laneComesUp l rxDyn txDyn) := by
  refine .ite ?_ (.refl _ s)
  exact .stepWhen (.step (.step (.step (.step (.step (.mono (.sfW s _ _ _ _)) (.setBit _ _ _ _)) (.sfW _ _ _ _ _)) (.sfW _ _ _ _ _))
    (.setLane _ l _)) (.raise _ _ _)) (.raise _ _ _)

theorem PartFrame.anyUp (s : State) (l rxDyn txDyn : Nat) :
    PartFrame [.regs, .totals, .celen, .hif, .refs, .ports, .ptp, .cas, .out] s (s.anyUp l rxDyn txDyn) :=
  .ite (.mono (.portUp s l rxDyn txDyn)) (.mono (.laneComesUp s (l - 8) rxDyn txDyn))

/-! ### Departure (R208 to R213) -/

theorem PartFrame.bookNext (s : State) (sl : Nat) : PartFrame slotParts s (s.bookNext sl) := by
  unfold State.bookNext
  split
  · exact .refl _ s
  · have taken : ∀ f, PartFrame slotParts s (s.setLink sl f) := fun f => .mono (.setLink s sl f)
    dsimp only
    split
    · exact .step (.step (taken _) (.dropResponses _ _ _ _)) (.sampleLost _ _ _)
    · exact .step (taken _) (.setLink _ sl _)

theorem PartFrame.drawBytes (s : State) (n : Nat) : PartFrame [.fresh] s (s.drawBytes n).2 := .fresh s _

theorem PartFrame.mintCookie (s : State) (c2s s2c : Bytes) : PartFrame [.fresh] s (s.mintCookie c2s s2c).2 := by
  unfold State.mintCookie
  split
  · exact .refl _ s
  · exact .drawBytes s 16

theorem PartFrame.mintCookies (s : State) (c2s s2c : Bytes) (field : Bool) :
    ∀ n, PartFrame [.fresh] s (s.mintCookies c2s s2c field n).2
  | 0 => .refl _ s
  | n + 1 => .trans (PartFrame.mintCookies s c2s s2c field n) (.mintCookie _ c2s s2c)

theorem PartFrame.ntsPayload (s : State) (r : Request) (uid c2s s2c : Bytes) (n : Nat) (kod : Bool) (tTx : Nat) :
    PartFrame [.fresh] s (s.ntsPayload r uid c2s s2c n kod tTx).2 :=
  .trans (.mintCookies s c2s s2c true n) (.drawBytes _ 16)

theorem PartFrame.compose (s : State) (sl : Nat) (a : Answer) (tTx : Nat) : PartFrame [.fresh] s (s.compose sl a tTx).2 := by
  cases a with
  | nts r addr uid c2s s2c n kod => exact .ntsPayload s r uid c2s s2c n kod tTx
  | _ => exact .refl _ s

theorem PartFrame.stepAdjust (s : State) (r : Option Request) : PartFrame [.regs, .totals] s (s.stepAdjust r).2 := by
  unfold State.stepAdjust
  split
  · exact .refl _ s
  · split
    · exact .inc s _
    · exact .refl _ s

/-- The parts that the finalisation of a response may change. -/
abbrev finaliseParts : List Part := [.regs, .totals, .ports, .fresh]

theorem PartFrame.finalise (s : State) (sl : Nat) : PartFrame finaliseParts s (s.finalise sl) := by
  unfold State.finalise
  split
  · exact .refl _ s
  · extract_lets tTx c q
    have composed : PartFrame finaliseParts s c.2 := .mono (.compose s sl _ tTx)
    have adjusted : PartFrame finaliseParts s q.2 := by
      unfold q
      split
      · exact .step composed (.stepAdjust _ _)
      · exact composed
    exact .step adjusted (.setLink _ sl _)

theorem PartFrame.setBooked (s : State) (l z : Nat) (f : LinkSlot → LinkSlot) : PartFrame [.cas] s (s.setBooked l z f) := .setLane s l _

theorem PartFrame.finaliseLink (s : State) (l : Nat) : PartFrame [.cas] s (s.finaliseLink l) := by
  unfold State.finaliseLink
  split
  · exact .refl _ s
  · exact .setBooked s l _ _

theorem PartFrame.anyFinalise (s : State) (l : Nat) : PartFrame [.regs, .totals, .ports, .cas, .fresh] s (s.anyFinalise l) :=
  .ite (.mono (.finalise s l)) (.mono (.finaliseLink s (l - 8)))

theorem PartFrame.commitSlot (s : State) (sl : Nat) : PartFrame slotParts s (s.commitSlot sl) := by
  unfold State.commitSlot
  split
  · exact .refl _ s
  · exact .ite (.reslot s sl _) (.mono (.setLink s sl _))

theorem PartFrame.commitLink (s : State) (l : Nat) : PartFrame [.cas] s (s.commitLink l) := by
  unfold State.commitLink
  split
  · exact .refl _ s
  · exact .setBooked s l _ _

theorem PartFrame.anyCommit (s : State) (l : Nat) :
    PartFrame [.regs, .totals, .celen, .hif, .ports, .tal, .cas, .out] s (s.anyCommit l) :=
  .ite (.mono (.commitSlot s l)) (.mono (.commitLink s (l - 8)))

theorem PartFrame.syncSent (s : State) (sl i : Nat) (ctx : Option Nat) (addr : Addressing) (seq tTx : Nat) :
    PartFrame [.regs, .totals, .ports] s (s.syncSent sl i ctx addr seq tTx) := by
  have counted : PartFrame [.regs, .totals, .ports] s ((s.inc A.ptpTxEvent).inc (A.ptpInstSyncTx i)) := .step (.mono (.inc s _)) (.inc _ _)
  exact .ite (.step counted (.sendGeneral _ _ _ _ _)) counted

theorem PartFrame.sampleSent (s : State) (r : Option Request) (tTx held : Nat) (again : Bool) :
    PartFrame sampleParts s (s.sampleSent r tTx held again) := by
  unfold State.sampleSent
  split
  · exact .sampleFinal s _ _ _
  · exact .refl _ s

theorem PartFrame.slotStart (s : State) (sl : Nat) : PartFrame roundParts s (s.slotStart sl) := by
  unfold State.slotStart
  split
  · exact .refl _ s
  · extract_lets t
    have taken : PartFrame roundParts s t := .mono (.setLink s sl _)
    split
    · exact taken
    · extract_lets u
      have left : PartFrame roundParts s u := .step taken (.sendFrame _ sl _ _)
      split
      · exact .step left (.syncSent _ _ _ _ _ _ _)
      · exact .step (.step (.step left (.inc _ _)) (.inc _ _)) (.setSlave _ _ _)
      · exact .step left (.sampleSent _ _ _ _ _)

theorem PartFrame.startLink (s : State) (l : Nat) : PartFrame [.regs, .totals, .cas, .out] s (s.startLink l) := by
  have set : ∀ f, PartFrame [.regs, .totals, .cas, .out] s (s.setLane l f) := fun f => .mono (.setLane s l f)
  unfold State.startLink
  split
  · exact .refl _ s
  · dsimp only
    split
    · exact set _
    · exact .step (.step (.step (set _) (.setLane _ l _)) (.inc _ _)) (.emit _ _)

theorem PartFrame.anyStart (s : State) (l : Nat) :
    PartFrame [.regs, .totals, .celen, .hif, .ports, .ptp, .tal, .cas, .out] s (s.anyStart l) :=
  .ite (.mono (.slotStart s l)) (.mono (.startLink s (l - 8)))

theorem PartFrame.ageDrop (s : State) (sl : Nat) : PartFrame slotParts s (s.ageDrop sl) :=
  .trans (.step (.mono (.setLink s sl _)) (.dropResponses _ sl _ _)) (.each (fun _ t => .mono (.sampleLost t _ 2)) _ _)

theorem PartFrame.handOver (s : State) (sl : Nat) (answer : Answer) (req : Option Request) (len : Nat) :
    PartFrame slotParts s (s.handOver sl answer req len) :=
  .ite (.mono (.setLink s sl _)) (.step (.when (.mono (.dropResponses s sl _ 1))) (.sampleLost _ _ 3))

end Sys2Proof.Machine
end

section
/-!
SUPPORT. The frames of parts of reception, classification and requests (R192 to R206, R219 to R240).
-/

set_option Elab.async false

namespace Sys2Proof.Machine

/-! ### Pipelines and buckets (R223) -/

/-- The parts that the drop of a request may change. -/
abbrev dropParts : List Part := .hrc :: sampleParts

theorem PartFrame.sampleDrop (s : State) (r : Request) (outcome detail : Nat) : PartFrame sampleParts s (s.sampleDrop r outcome detail) :=
  .sampleFinal s _ _ _

theorem PartFrame.setQueue (s : State) (p : Nat) (f : List Request → List Request) : PartFrame [.regs, .hrc] s (s.setQueue p f) :=
  .step (.mono (.hrc s _)) (.sfW _ _ _ _ _)

theorem PartFrame.showPipes (s : State) : PartFrame [.regs] s s.showPipes :=
  .trans (.trans (.each (fun _ u => .sfW u _ _ _ _) _ s) (.sfW _ _ _ _ _)) (.setBit _ _ _ _)

theorem PartFrame.queueDrop (s : State) : PartFrame reportParts s s.queueDrop := .step (.mono (.inc s _)) (.raise _ _ _)

theorem PartFrame.enqueue (s : State) (p : Nat) (r : Request) : PartFrame dropParts s (s.enqueue p r).1 := by
  unfold State.enqueue
  exact .ite1 (.mono (.setQueue s p _)) (.step (.mono (.queueDrop s)) (.sampleDrop _ r _ _))

theorem PartFrame.handToPipe (s : State) (p : Nat) (r : Request) : PartFrame dropParts s (s.handToPipe p r) :=
  .ite (.step (.enqueue s p r) (.inc _ _)) (.enqueue s p r)

theorem PartFrame.endMove (s : State) (b : Nat) : PartFrame dropParts s (s.endMove b) := by
  unfold State.endMove
  split
  · exact .refl _ s
  · exact .ite (.step (.trans (.mono (.hrc s _)) (.each (fun r u => .handToPipe u _ r) _ _)) (.showPipes _)) (.refl _ s)

theorem PartFrame.bucketMoved (s : State) (b : Nat) : PartFrame dropParts s (s.bucketMoved b) := .when (.endMove s b)

theorem PartFrame.moveBucket (s : State) (b p q : Nat) : PartFrame dropParts s (s.moveBucket b p q) :=
  .ite (.refl _ s) (.step (.trans (.step (.step (.mono (.hrc s _)) (.inc _ _)) (.raise _ _ _)) (.endMove _ b)) (.showPipes _))

theorem PartFrame.moveAway (s : State) (p : Nat) : PartFrame dropParts s (s.moveAway p) := by
  unfold State.moveAway
  split
  · exact .refl _ s
  · exact .each (fun b u => .trans (.mono (.sfW u _ _ _ _)) (.moveBucket _ b p _)) _ s

theorem PartFrame.losePipe (s : State) (p : Nat) : PartFrame dropParts s (s.losePipe p) :=
  .trans (.step (.mono (.setQueue s p _)) (.count _ _ _)) (.each (fun r t => .mono (.sampleDrop t r 9 5)) _ _)

/-! ### The headrace (R219, R224) -/

/-- The parts that a received frame may change. -/
abbrev receiveParts : List Part := .ports :: dropParts

theorem PartFrame.sampleStart (s : State) (kind : ReqKind) (fr : RxFrame) (k : Nat) :
    PartFrame [.regs, .totals, .tal] s (s.sampleStart kind fr k).2 := by
  unfold State.sampleStart
  exact .ite2 (.ite2 (.mono (.setTal s _)) (.step (.mono (.setTal s _)) (.inc _ _))) (.refl _ s)

theorem PartFrame.headDrop (s : State) (kind : ReqKind) (fr : RxFrame) (k counter outcome detail : Nat) :
    PartFrame sampleParts s (s.headDrop kind fr k counter outcome detail) :=
  .step (.step (.mono (.sampleStart s kind fr k)) (.inc _ _)) (.sampleDrop _ _ _ _)

theorem PartFrame.admitRequest (s : State) (kind : ReqKind) (fr : RxFrame) (k : Nat) :
    PartFrame dropParts s (s.admitRequest kind fr k) := by
  unfold State.admitRequest
  extract_lets c src r t
  have started : PartFrame dropParts s t := .mono (.sampleStart s kind fr k)
  split
  · exact .ite (.step started (.hrc t _)) (.step (.step started (.queueDrop t)) (.sampleDrop _ _ _ _))
  · exact .trans started (.handToPipe t _ _)

theorem PartFrame.claim (s : State) (kind : ClaimKind) (fr : RxFrame) : PartFrame [.ports] s (s.claim kind fr) := .ports s _

theorem PartFrame.classifyNtp (s : State) (fr : RxFrame) (p : Packet) (k : Nat) : PartFrame receiveParts s (s.classifyNtp fr p k) := by
  have dropped : ∀ c o d, PartFrame receiveParts s (s.headDrop .ntp fr k c o d) := fun c o d => .mono (.headDrop s .ntp fr k c o d)
  have claimed : ∀ kind, PartFrame receiveParts s (s.claim kind fr) := fun kind => .mono (.claim s kind fr)
  have admitted : ∀ kind, PartFrame receiveParts s (s.admitRequest kind fr k) := fun kind => .mono (.admitRequest s kind fr k)
  exact .ite (dropped _ _ _) (.ite (dropped _ _ _) (.ite (dropped _ _ _) (.ite (claimed _) (.ite (dropped _ _ _) (.ite (claimed _)
    (.ite (admitted _) (admitted _)))))))

theorem PartFrame.classifyEtxel (s : State) (fr : RxFrame) (p : Packet) (k : Nat) : PartFrame dropParts s (s.classifyEtxel fr p k) := by
  have dropped : ∀ c o d, PartFrame dropParts s (s.headDrop .etxel fr k c o d) := fun c o d => .mono (.headDrop s .etxel fr k c o d)
  exact .ite (dropped _ _ _) (.ite (dropped _ _ _) (.ite (dropped _ _ _) (.admitRequest s .etxel fr k)))

theorem PartFrame.classifyRoughtime (s : State) (fr : RxFrame) (p : Packet) (k : Nat) :
    PartFrame dropParts s (s.classifyRoughtime fr p k) := by
  have dropped : ∀ c o d, PartFrame dropParts s (s.headDrop .roughtime fr k c o d) := fun c o d => .mono (.headDrop s .roughtime fr k c o d)
  unfold State.classifyRoughtime
  refine .ite (dropped _ _ _) (.ite (dropped _ _ _) ?_)
  split
  · exact dropped _ _ _
  · exact .ite (dropped _ _ _) (.admitRequest s .roughtime fr k)

/-- A frame that matches an address, where it is classified at all. -/
theorem PartFrame.classifyMatch {s t : State} {fr : RxFrame} {p : Packet} {k : Nat} (h : s.classifyMatch fr p k = some t) :
    PartFrame receiveParts s t := by
  have claimed : ∀ kind, PartFrame receiveParts s (s.claim kind fr) := fun kind => .mono (.claim s kind fr)
  unfold State.classifyMatch at h
  extract_lets at h
  split at h
  · exact Option.some.inj h ▸ claimed _
  split at h
  · exact Option.some.inj h ▸ claimed _
  split at h
  · exact Option.some.inj h ▸ claimed _
  split at h
  · exact Option.some.inj h ▸ .classifyNtp s fr p k
  split at h
  · exact Option.some.inj h ▸ .mono (.classifyEtxel s fr p k)
  split at h
  · exact Option.some.inj h ▸ .mono (.classifyRoughtime s fr p k)
  · nomatch h

theorem PartFrame.classify (s : State) (fr : RxFrame) (p : Packet) : PartFrame receiveParts s (s.classify fr p) := by
  have claimed : ∀ kind, PartFrame receiveParts s (s.claim kind fr) := fun kind => .mono (.claim s kind fr)
  have unclaimed : PartFrame receiveParts s (s.inc (A.macLinkUnclaimed fr.sl)) := .mono (.inc s _)
  unfold State.classify
  dsimp only
  refine .ite unclaimed (.ite (.ite (claimed _) (claimed _)) (.ite (.ite (claimed _) (claimed _))
    (.ite (claimed _) (.ite (claimed _) ?_))))
  split
  case h_1 t eq =>
    split at eq
    · split at eq
      · exact .classifyMatch eq
      · nomatch eq
    · nomatch eq
  case h_2 => exact .ite (claimed _) unclaimed

theorem PartFrame.goodFrame (s : State) (sl cap : Nat) (d : Bytes) : PartFrame receiveParts s (s.goodFrame sl cap d) := by
  have counted : PartFrame receiveParts s ((s.inc (A.macLinkRxFrames sl)).count (A.macLinkRxOctets sl) (d.length + 4)) :=
    .step (.mono (.inc s _)) (.count _ _ _)
  exact .ite (.ite (.step (.step counted (.inc _ _)) (.pauseReceived _ sl _)) (.step counted (.inc _ _)))
    (.ite (.step counted (.inc _ _)) (.ite (.step counted (.inc _ _)) (.ite (.step counted (.probeReturn _ sl _ _))
      (.trans counted (.classify _ _ _)))))

/-! ### Reception (R192 to R194, R206) -/

theorem PartFrame.setRx (s : State) (sl : Nat) (ex : Bool) (r : Option RxOpen) : PartFrame [.ports] s (s.setRx sl ex r) := .setLink s sl _

theorem PartFrame.rxBytes (s : State) (sl : Nat) (ex : Bool) (r : RxOpen) (d : Bytes) (n : Nat) :
    PartFrame slotParts s (s.rxBytes sl ex r d n) := by
  refine .ite (.mono (.setRx s sl ex _)) (.ite (.step (.mono (.inc s _)) (.setRx _ sl ex _)) (.ite ?_ ?_))
  · exact .step (.step (.weirHigh s sl _) (.inc _ _)) (.setRx _ sl ex _)
  · exact .step (.weirHigh s sl _) (.setRx _ sl ex _)

theorem PartFrame.rxFail (s : State) (sl : Nat) (ex : Bool) (reg : Nat) : PartFrame [.regs, .totals, .ports] s (s.rxFail sl ex reg) := by
  unfold State.rxFail
  split
  · exact .refl _ s
  · have closed : PartFrame [.regs, .totals, .ports] s (s.setRx sl ex none) := .mono (.setRx s sl ex _)
    exact .ite closed (.ite (.step closed (.inc _ _)) (.ite (.step closed (.inc _ _)) (.step closed (.inc _ _))))

theorem PartFrame.rxFinish (s : State) (sl : Nat) (ex good : Bool) : PartFrame receiveParts s (s.rxFinish sl ex good) := by
  unfold State.rxFinish
  split
  · exact .refl _ s
  · have closed : PartFrame receiveParts s (s.setRx sl ex none) := .mono (.setRx s sl ex _)
    exact .ite closed (.ite (.step closed (.inc _ _)) (.ite (.step closed (.inc _ _)) (.ite (.trans closed (.goodFrame _ sl _ _))
      (.step closed (.inc _ _)))))

theorem PartFrame.rxPiece (s : State) (sl : Nat) (ex : Bool) (r : RxOpen) (x : RxPhys) : PartFrame receiveParts s (s.rxPiece sl ex r x) := by
  have taken : ∀ r n, PartFrame receiveParts s (s.rxBytes sl ex r x.data n) := fun r n => .mono (.rxBytes s sl ex r x.data n)
  unfold State.rxPiece
  dsimp only
  split
  · exact taken _ _
  · have counted := fun r n => (taken r n).step (PartFrame.inc _ (A.macLinkFragRx sl))
    exact .ite (.trans (taken _ _) (.rxFinish _ sl ex _)) (.ite (counted _ _) (.step (counted _ _) (.rxFail _ sl ex _)))
  · exact .trans (.stepWhen (taken _ _) (.inc _ _)) (.rxFinish _ sl ex _)

theorem PartFrame.rxSmd (s : State) (sl : Nat) (x : RxPhys) : PartFrame receiveParts s (s.rxSmd sl x) := by
  have failed : ∀ ex reg, PartFrame receiveParts s (s.rxFail sl ex reg) := fun ex reg => .mono (.rxFail s sl ex reg)
  unfold State.rxSmd
  dsimp only
  split
  · exact .mono (.inc s _)
  · exact .trans (failed _ _) (.rxPiece _ sl _ _ x)
  · exact .trans (failed _ _) (.rxPiece _ sl _ _ x)
  · split
    · exact .mono (.inc s _)
    · exact .ite (.rxPiece s sl _ _ x) (.step (.mono (.inc s _)) (.rxFail _ sl _ _))
  · split
    · exact .refl _ s
    · exact .rxPiece s sl _ _ x

theorem PartFrame.frameRx (s : State) (sl : Nat) (x : RxPhys) : PartFrame receiveParts s (s.frameRx sl x) :=
  .ite (.refl _ s) (.trans (.step (.mono (.count s _ _)) (.count _ _ _)) (.rxSmd _ sl x))

/-- The claim of a Signaling message for each kind of TLV that it carries. -/
theorem PartFrame.claimed {s t : State} (h : PartFrame receiveParts s t) (c : Prop) [Decidable c] (kind : ClaimKind) (fr : RxFrame) :
    PartFrame receiveParts s (if c then t.claim kind fr else t) := .ite (.step h (.claim t kind fr)) h

theorem PartFrame.ptpIntake (s : State) (fr : RxFrame) : PartFrame receiveParts s (s.ptpIntake fr) := by
  unfold State.ptpIntake
  extract_lets d mt tl t
  have event : PartFrame receiveParts s t := .ite (.mono (.inc s _)) (.refl _ s)
  refine .ite (.mono (.inc s _)) (.ite (.step event (.inc _ _)) (.ite ?_ (.ite ?_ (.step event (.claim t _ fr)))))
  · exact .ite event (.step (.step event (.inc _ _)) (.deliverFrame _ _ _ _ _ _))
  · exact .claimed (.claimed (.claimed event _ _ fr) _ _ fr) _ _ fr

theorem PartFrame.frameIn (s : State) (sl : Nat) (x : RxPhys) : PartFrame receiveParts s (s.frameIn sl x) := by
  have received : PartFrame receiveParts s (s.frameRx sl x) := .frameRx s sl x
  unfold State.frameIn
  dsimp only
  split
  · exact .ite (.trans (.step received (.ports _ _)) (.ptpIntake _ _)) received
  · exact received

/-! ### Claimed frames (R220, R221) -/

theorem PartFrame.takeClaim {s t : State} {p : Claim → Bool} {c : Claim} (h : s.takeClaim p = some (c, t)) : PartFrame [.ports] s t := by
  unfold State.takeClaim at h
  split at h
  · nomatch h
  · obtain ⟨-, rfl⟩ := Prod.mk.inj (Option.some.inj h)
    exact .ports s _

theorem PartFrame.answerArp (s : State) : PartFrame [.ports] s s.answerArp := by
  unfold State.answerArp
  split
  case h_1 => exact .refl _ s
  case h_2 c t eq => exact .trans (.takeClaim eq) (.queuePre t _ _ _ _)

theorem PartFrame.answerNd (s : State) : PartFrame [.ports] s s.answerNd := by
  unfold State.answerNd
  split
  case h_1 => exact .refl _ s
  case h_2 c t eq => exact .trans (.takeClaim eq) (.queuePre t _ _ _ _)

theorem PartFrame.exceptionFrame (s : State) : PartFrame lineParts s s.exceptionFrame := by
  unfold State.exceptionFrame
  split
  case h_1 => exact .refl _ s
  case h_2 c t eq =>
    have taken : PartFrame lineParts s t := .mono (.takeClaim eq)
    exact .ite (.step taken (.inc _ _)) (.step (.step taken (.inc _ _)) (.deliverFrame _ _ _ _ _ _))

/-! ### NTP and NTS requests (R226, R232 to R240) -/

theorem PartFrame.popRequest {s t : State} {p : Nat} {kind : ReqKind} {r : Request} (h : s.popRequest p kind = some (r, t)) :
    PartFrame [.regs, .hrc] s t := by
  unfold State.popRequest at h
  split at h
  · nomatch h
  · split at h
    · obtain ⟨-, rfl⟩ := Prod.mk.inj (Option.some.inj h)
      exact .setQueue s p _
    · nomatch h

theorem PartFrame.setClient (s : State) (i : Nat) (r : ClientRec) : PartFrame [.hrc] s (s.setClient i r) := .hrc s _

theorem PartFrame.chargeUntracked (s : State) (r : Request) : PartFrame [.regs, .totals, .hrc] s (s.chargeUntracked r).1 := by
  unfold State.chargeUntracked
  extract_lets u w now q src t t₁
  have counted : PartFrame [.regs, .totals, .hrc] s t₁ := .step (.mono (.hrc s _)) (.inc t _)
  exact .ite1 (.step counted (.inc _ _)) counted

/-- The parts that the rate policy may change. -/
abbrev chargeParts : List Part := .hrc :: reportParts

theorem PartFrame.charge (s : State) (r : Request) : PartFrame chargeParts s (s.charge r).1 := by
  unfold State.charge
  extract_lets i rec_ now sec live own idle fresh base q nr t t₁
  have charged : PartFrame chargeParts s t₁ := .ite (.step (.mono (.setClient s i nr)) (.inc _ _)) (.mono (.setClient s i nr))
  exact .ite1 (.mono (.chargeUntracked s r)) (.ite1 charged (.ite1 (.step charged (.inc _ _)) (.ite1 charged
    (.step (.step charged (.inc _ _)) (.raise _ _ _)))))

theorem PartFrame.kodOk (s : State) (r : Request) : PartFrame chargeParts s (s.kodOk r).1 := by
  unfold State.kodOk
  exact .ite1 (.step (.step (.mono (.setClient s _ _)) (.inc _ _)) (.raise _ _ _)) (.step (.mono (.inc s _)) (.raise _ _ _))

theorem PartFrame.sendFixed (s : State) (r : Request) (payload : Bytes) : PartFrame slotParts s (s.sendFixed r payload) :=
  .handOver s _ _ _ _

theorem PartFrame.ntpRequest (s : State) (p : Nat) : PartFrame receiveParts s (s.ntpRequest p) := by
  unfold State.ntpRequest
  split
  case h_1 => exact .refl _ s
  case h_2 r t eq =>
    extract_lets u r q
    have popped : PartFrame receiveParts s u := .step (.step (.mono (.popRequest eq)) (.inc _ _)) (.inc _ _)
    have charged : PartFrame receiveParts s q.1 := .step popped (.charge u r)
    have allowed : PartFrame receiveParts s (q.1.kodOk r).1 := .step charged (.kodOk q.1 r)
    refine .ite (.step (.step popped (.inc _ _)) (.sampleDrop _ _ _ _)) (.ite (.step charged (.sampleDrop _ _ _ _)) (.ite ?_ (.ite ?_ ?_)))
    · exact .ite (.step allowed (.sendFixed _ _ _)) (.step allowed (.sampleDrop _ _ _ _))
    · exact .step (.step charged (.inc _ _)) (.sampleDrop _ _ _ _)
    · exact .step (.step charged (.inc _ _)) (.handOver _ _ _ _ _)

theorem PartFrame.ntsFailure (s : State) (r : Request) (counter : Nat) (uid : Bytes) (overRate : Bool) (step : Nat) :
    PartFrame receiveParts s (s.ntsFailure r counter uid overRate step) := by
  unfold State.ntsFailure
  extract_lets i rec_ t t₁
  have counted : PartFrame receiveParts s t₁ := .step (.ite (.mono (.setClient s i _)) (.refl _ s)) (.inc t _)
  exact .ite (.step (.step counted (.inc _ _)) (.sendFixed _ _ _)) (.step counted (.sampleDrop _ _ _ _))

theorem PartFrame.ntsOpen (s : State) (r : Request) (l : List (Nat × Bytes)) (overRate kod : Bool) :
    PartFrame receiveParts s (s.ntsOpen r l overRate kod) := by
  unfold State.ntsOpen
  extract_lets p d field uid auth n t a addr len k
  have counted : PartFrame receiveParts s t := .mono (.count s _ _)
  split
  · exact .trans (.mono (.inc s _)) (.ntsFailure _ r _ _ _ _)
  · exact .trans counted (.ntsFailure t r _ _ _ _)
  · split
    · exact .trans counted (.ntsFailure t r _ _ _ _)
    · have allowed : PartFrame receiveParts s k.1 := .step counted (.kodOk t r)
      refine .ite (.ite (.step allowed (.handOver _ _ _ _ _)) (.step allowed (.sampleDrop _ _ _ _))) ?_
      exact .step (.step counted (.inc _ _)) (.handOver _ _ _ _ _)

theorem PartFrame.ntsRequest (s : State) (p : Nat) : PartFrame receiveParts s (s.ntsRequest p) := by
  unfold State.ntsRequest
  split
  case h_1 => exact .refl _ s
  case h_2 r t eq =>
    extract_lets u r l q
    have popped : PartFrame receiveParts s u := .step (.mono (.popRequest eq)) (.inc _ _)
    have slot : PartFrame receiveParts s (u.inc (A.svpPipeSlots p)) := .step popped (.inc _ _)
    have charged : PartFrame receiveParts s q.1 := .step popped (.charge u r)
    have chargedSlot : PartFrame receiveParts s (q.1.inc (A.svpPipeSlots p)) := .step charged (.inc _ _)
    refine .ite (.step (.step slot (.inc _ _)) (.sampleDrop _ _ _ _)) (.ite (.step (.step slot (.inc _ _)) (.sampleDrop _ _ _ _)) ?_)
    refine .ite (.step chargedSlot (.sampleDrop _ _ _ _)) (.ite (.step (.step chargedSlot (.inc _ _)) (.sampleDrop _ _ _ _)) ?_)
    exact .trans charged (.ntsOpen _ r l _ _)

end Sys2Proof.Machine
end

section
/-!
SUPPORT. The frames of parts of NTS keys, mint jobs and pipelines (R242 to R246, R485 to R487), and O35.
-/

set_option Elab.async false

namespace Sys2Proof.Machine

/-! ### NTS keys and minting (R242 to R246) -/

theorem PartFrame.denyEntropy (s : State) : PartFrame [.regs, .totals] s s.denyEntropy := .inc s _

/-- The parts that a new NTS key may change. -/
abbrev keyParts : List Part := .nts :: .fresh :: reportParts

theorem PartFrame.ntsKeyDrawn (s : State) : PartFrame keyParts s s.ntsKeyDrawn :=
  .ite (.refl _ s) (.ite (.step (.mono (.newKey s)) (.showKeys _)) (.step (.step (.mono (.nts s _)) (.denyEntropy _)) (.raise _ _ _)))

theorem PartFrame.keyDeferRetry (s : State) : PartFrame rotateParts s s.keyDeferRetry :=
  .ite (.ite (.step (.mono (.nts s _)) (.denyEntropy _)) (.ite (.rotateNts s _) (.step (.step (.mono (.nts s _)) (.newKey _)) (.showKeys _))))
    (.refl _ s)

/-- The parts that a mint job may change. -/
abbrev mintParts : List Part := .fresh :: reportParts

theorem PartFrame.mintJob (s : State) (m : Option Bytes) : PartFrame mintParts s (s.mintJob m) := by
  unfold State.mintJob
  extract_lets n
  refine .ite (.refl _ s) ?_
  split
  case h_1 t eq => exact .of_pair (.mono (.startWork s n)) eq
  case h_2 d t eq =>
    have started : PartFrame mintParts s t := .of_pair (.mono (.startWork s n)) eq
    split
    · exact .step started (.endWork t n _ _ _)
    · extract_lets st u v k c w
      have taken : PartFrame mintParts s v := .step (.ite (.step started (.hostWrite t _ _)) started) (.inc u _)
      have sealed : PartFrame mintParts s w := .step (.step (.step taken (.mintCookies v _ _ _ _)) (.hostWrite _ _ _)) (.hostWrite _ _ _)
      exact .ite (.step (.step sealed (.count w _ _)) (.endWork _ n _ _ _)) (.step (.step (.step taken (.inc v _)) (.raise _ _ _)) (.endWork _ n _ _ _))

/-! ### The fence of a pipeline and reloads (R394, R486, R487) -/

theorem PartFrame.ucodeResult (s : State) (p op reason : Nat) : PartFrame [.regs] s (s.ucodeResult p op reason) :=
  .trans (.trans (.sfW s _ _ _ _) (.sfW _ _ _ _ _)) (.sfW _ _ _ _ _)

theorem PartFrame.setPipe (s : State) (p st : Nat) : PartFrame [.regs] s (s.setPipe p st) := .sfW s _ _ _ _

theorem PartFrame.showUnits (s : State) : PartFrame [.regs] s s.showUnits :=
  .trans (.trans (.trans (.trans (.trans (.sfW s _ _ _ _) (.sfW _ _ _ _ _)) (.sfW _ _ _ _ _)) (.sfW _ _ _ _ _)) (.sfW _ _ _ _ _))
    (.sfW _ _ _ _ _)

theorem PartFrame.pipeFenced (s : State) (p : Nat) (drained : Bool) : PartFrame dropParts s (s.pipeFenced p drained) :=
  .step (.trans (.trans (.step (.when (.mono (.ucodeResult s p 1 _))) (.setPipe _ p 2)) (.moveAway _ p)) (.losePipe _ p)) (.showPipes _)

/-- The parts that the fence of a pipeline or of its AES-SIV unit may change. -/
abbrev fenceParts : List Part := .fences :: .journal :: dropParts

/-- A pipeline, kind 0, or an AES-SIV unit, kind 1, is fenced. -/
theorem PartFrame.fenceOne (s : State) (src : Source) (kind i cause : Nat) (drained : Bool) (h : kind < 2 := by decide) :
    PartFrame fenceParts s (s.fenceOne src kind i cause drained) := by
  have lost : ∀ t, PartFrame fenceParts t (t.unitLost kind i drained) := fun t => by
    match kind, h with
    | 0, _ => exact .mono (.pipeFenced t i drained)
    | 1, _ => exact .refl _ t
  have bit : ∀ x, PartFrame fenceParts s { s.setBit (fenceBit kind i).1 (fenceBit kind i).2 true with fences := x } := fun x =>
    .step (.mono (.setBit s _ _ _)) (.fences _ x)
  exact .ite (.refl _ s) (.step (.step (.trans (.step (bit _) (.showUnits _)) (lost _)) (.raise _ _ _)) (.logFault _ _ _ _ _ _ _ _))

theorem PartFrame.drainDone (s : State) (p : Nat) : PartFrame fenceParts s (s.drainDone p) :=
  .ite (.step (.trans (.fenceOne s .module 0 p 5 true) (.fenceOne _ .module 1 p 4 true)) (.ucodeResult _ p 1 0)) (.refl _ s)

theorem PartFrame.journalFirmware (s : State) (src : Source) (event target index : Nat) (digest : Bytes) :
    PartFrame journalParts s (s.journalFirmware src event target index digest) := .journalize s _ _ _ _ _

theorem PartFrame.loadUcode (s : State) (p : Nat) (held : Bool) (x : FwImage) : PartFrame journalParts s (s.loadUcode p held x) :=
  .trans (.mono (.trans (.trans (.wr s _ _) (.wr _ _ _)) (.each (fun _ u => .wr u _ _) _ _))) (.journalFirmware _ _ _ _ _ _)

theorem PartFrame.reloadDone (s : State) (p : Nat) (pass : Bool) : PartFrame journalParts s (s.reloadDone p pass) := by
  have fenced : PartFrame journalParts s ((s.setPipe p 2).inc (A.svpPipeReloads p)) := .step (.mono (.setPipe s p 2)) (.inc _ _)
  exact .ite (.ite (.step fenced (.ucodeResult _ p 2 0)) (.step (.trans fenced (.loadUcode _ p false _)) (.ucodeResult _ p 2 0x43)))
    (.refl _ s)

/-! ### The obligation -/

/-- Settles O35: each command's effect is an operation whose frame is one of the lemmas above. -/
theorem linkFrames : Obligations.LinkFrames := by
  unfold Obligations.LinkFrames
  refine ⟨fun dt l x => ?frameRx, fun dt l n => ?weirLow, fun dt l => ?pauseRefresh, fun dt l => ?pauseEffect,
    fun dt l => ?pauseHoldEnd, fun dt l => ?pauseOverlimit, fun dt l rx tx => ?linkUp, fun dt c r i p => ?cageInsert,
    fun dt l => ?verifySend, fun dt l => ?verifyResponse, fun dt l nonce cap => ?probeReturn, fun dt l => ?probeTimeout,
    fun dt l => ?responseBook, fun dt l => ?finalise, fun dt l => ?commitPoint, fun dt l => ?slotStart, fun dt l => ?ageDrop,
    fun dt l last => ?preemptableFrameSent, fun dt => ?arpRequest, fun dt => ?neighborSolicitation, fun dt => ?exceptionFrame,
    fun dt p => ?ntpRequest, fun dt p => ?ntsRequest, fun dt b => ?bucketMoveDone, fun dt => ?ntsKeyDrawn, fun dt => ?keyDeferRetry,
    fun dt m => ?mintJob, fun dt p => ?drainComplete, fun dt p pass => ?reloadComplete⟩
  case frameRx => exact changesOnly_frame (decide (l < 8)) dt (fun u => .frameIn u l x)
  case weirLow => exact changesOnly_frame (decide (l < 8)) dt (fun u => .weirLow u l n)
  case pauseRefresh => exact changesOnly_frame (decide (l < 8)) dt (fun u => .pauseRefresh u l)
  case pauseEffect => exact changesOnly_frame (decide (l < 8)) dt (fun u => .pauseEffect u l)
  case pauseHoldEnd => exact changesOnly_frame (decide (l < 8)) dt (fun u => .pauseHoldEnd u l)
  case pauseOverlimit => exact changesOnly_frame (decide (l < 8)) dt (fun u => .pauseOverlimit u l)
  case linkUp => exact changesOnly_frame (decide (l < 16)) dt (fun u => .anyUp u l rx tx)
  case cageInsert => exact changesOnly_frame (decide (c < 4)) dt (fun u => .opticIn u c r i p)
  case verifySend => exact changesOnly_frame (decide (l < 8)) dt (fun u => .verifySend u l)
  case verifyResponse => exact changesOnly_frame (decide (l < 8)) dt (fun u => .verifyResponse u l)
  case probeReturn => exact changesOnly_frame (decide (l < 8)) dt (fun u => .probeReturn u l nonce cap)
  case probeTimeout => exact changesOnly_frame (decide (l < 8)) dt (fun u => .probeTimeout u l)
  case responseBook => exact changesOnly_frame (decide (l < 8)) dt (fun u => .bookNext u l)
  case finalise => exact changesOnly_frame (decide (l < 16)) dt (fun u => .anyFinalise u l)
  case commitPoint => exact changesOnly_frame (decide (l < 16)) dt (fun u => .anyCommit u l)
  case slotStart => exact changesOnly_frame (decide (l < 16)) dt (fun u => .anyStart u l)
  case ageDrop => exact changesOnly_frame (decide (l < 8)) dt (fun u => .ageDrop u l)
  case preemptableFrameSent => exact changesOnly_frame (decide (l < 8)) dt (fun u => .sendPreemptable u l last)
  case arpRequest => exact changesOnly_frame true dt .answerArp
  case neighborSolicitation => exact changesOnly_frame true dt .answerNd
  case exceptionFrame => exact changesOnly_frame true dt .exceptionFrame
  case ntpRequest => exact changesOnly_frame (decide (p < 16)) dt (fun u => .ntpRequest u p)
  case ntsRequest => exact changesOnly_frame (decide (p < 16)) dt (fun u => .ntsRequest u p)
  case bucketMoveDone => exact changesOnly_frame (decide (b < 256)) dt (fun u => .bucketMoved u b)
  case ntsKeyDrawn => exact changesOnly_frame true dt .ntsKeyDrawn
  case keyDeferRetry => exact changesOnly_frame true dt .keyDeferRetry
  case mintJob => exact changesOnly_frame true dt (fun u => .mintJob u m)
  case drainComplete => exact changesOnly_frame (decide (p < 16)) dt (fun u => .drainDone u p)
  case reloadComplete => exact changesOnly_frame (decide (p < 16)) dt (fun u => .reloadDone u p pass)

end Sys2Proof.Machine
end

section
/-!
SUPPORT. A link after a change, emissions that grow, and the registers that samples and counters write (R208, R501 to R503).
-/

set_option Elab.async false

namespace Sys2Proof.Machine

/-! ### A link after a change of its own -/

theorem lnk_congr {s t : State} (h : t.ports = s.ports) (sl : Nat) : t.lnk sl = s.lnk sl := by rw [State.lnk, State.lnk, h]

/-- An operation that leaves the ports alone leaves every link as it is. -/
theorem PartFrame.lnk {l : List Part} {s t : State} (h : PartFrame l s t) (sl : Nat) (out : Part.ports ∉ l := by decide) :
    t.lnk sl = s.lnk sl := lnk_congr (h .ports out) sl

theorem lnk_setLink {s : State} {sl : Nat} (listed : sl < s.ports.links.length) (f : Link → Link) : (s.setLink sl f).lnk sl = f (s.lnk sl) :=
  getD_modAt f _ _ _ listed

theorem setLink_links_length (s : State) (sl : Nat) (f : Link → Link) : (s.setLink sl f).ports.links.length = s.ports.links.length :=
  length_modAt f _ _

theorem setLink_regs (s : State) (sl : Nat) (f : Link → Link) : (s.setLink sl f).regs = s.regs := rfl

theorem setLink_setLink (s : State) (sl : Nat) (f g : Link → Link) : (s.setLink sl f).setLink sl g = s.setLink sl (fun l => g (f l)) := by
  unfold State.setLink
  dsimp only
  rw [modAt_modAt]

/-- A link with something in it is one of the module's. -/
theorem listed_of_lnk {s : State} {sl : Nat} (h : s.lnk sl ≠ Link.empty) : sl < s.ports.links.length := by
  by_contra beyond
  exact h (List.getD_eq_default _ _ (by omega))

/-! ### Emissions are never taken back -/

/-- What has been emitted stays emitted. -/
def OutGrows (s t : State) : Prop := s.out ⊆ t.out

theorem OutGrows.of_out {s t : State} (h : t.out = s.out) : OutGrows s t := fun _ m => h ▸ m

theorem OutGrows.refl (s : State) : OutGrows s s := .of_out rfl

theorem OutGrows.of_partFrame {l : List Part} {s t : State} (h : PartFrame l s t) (out : Part.out ∉ l := by decide) : OutGrows s t :=
  .of_out (h .out out)

theorem OutGrows.trans {s t u : State} (h : OutGrows s t) (k : OutGrows t u) : OutGrows s u := fun _ m => k (h m)

/-- An operation to a state with the same emissions. -/
theorem OutGrows.after {s t u : State} (h : OutGrows s t) (e : u.out = t.out := by rfl) : OutGrows s u := .trans h (.of_out e)

/-- An operation from a state with the same emissions. -/
theorem OutGrows.before {s s' t : State} (h : OutGrows s' t) (e : s'.out = s.out := by rfl) : OutGrows s t := .trans (.of_out e) h

theorem OutGrows.ite {c : Prop} [Decidable c] {s t u : State} (h : OutGrows s t) (k : OutGrows s u) : OutGrows s (if c then t else u) := by
  split <;> assumption

theorem OutGrows.when {s : State} {c : Bool} {g : State → State} (h : OutGrows s (g s)) : OutGrows s (s.when c g) := by
  cases c; exacts [.refl s, h]

theorem OutGrows.each {α : Type} {g : α → State → State} (h : ∀ x t, OutGrows t (g x t)) : ∀ (xs : List α) (s : State), OutGrows s (s.each xs g)
  | [], s => .refl s
  | x :: xs, s => (h x s).trans (OutGrows.each h xs (g x s))

theorem OutGrows.emit (s : State) (e : Emission) : OutGrows s (s.emit e) := fun _ m => List.mem_cons_of_mem e m

theorem mem_emit (s : State) (e : Emission) : e ∈ (s.emit e).out := List.mem_cons_self

theorem OutGrows.count (s : State) (a n : Nat) : OutGrows s (s.count a n) := .of_partFrame (.count s a n)

theorem OutGrows.inc (s : State) (a : Nat) : OutGrows s (s.inc a) := .count s a 1

theorem OutGrows.sendVec (s : State) (v : Nat) : OutGrows s (s.sendVec v) := by
  unfold State.sendVec
  exact .ite (.of_out rfl) (.before (.emit _ _))

theorem OutGrows.pendItem (s : State) (n : Nat) : OutGrows s (s.pendItem n) := by
  unfold State.pendItem
  exact .ite (.ite (.before (.sendVec _ _)) (.of_out rfl)) (.refl s)

/-- An entry written to a ring in host memory, POSTED, and the message of the ring's vector (R331, R343). -/
theorem OutGrows.posting (s : State) (a : Nat) (d : Bytes) (n : Nat) : OutGrows s (((s.hostWrite a d).bumpPosted n).pendItem n) :=
  .trans (.trans (.emit s _) (.of_partFrame (.bumpPosted _ n))) (.pendItem _ n)

theorem OutGrows.postCompletion (s : State) (n slot status flags length : Nat) (user : Bytes) :
    OutGrows s (s.postCompletion n slot status flags length user) := .posting s _ _ n

theorem OutGrows.postEvent (s : State) (type flags source stamp : Nat) (body : Bytes) :
    OutGrows s (s.postEvent type flags source stamp body) := by
  unfold State.postEvent
  split
  · exact .of_partFrame (.evtDropped s)
  · exact .ite (.of_partFrame (.evtDropped s)) (.posting s _ _ _)

theorem OutGrows.noteEvent (s : State) (dest reg : Nat) : OutGrows s (s.noteEvent dest reg) := by
  unfold State.noteEvent State.blockEvent
  refine .ite (.of_out rfl) (.ite (.before (.postEvent _ _ _ _ _ _)) ?_)
  split
  · exact .before (.after (.emit _ _))
  · exact .of_out rfl

theorem OutGrows.raise (s : State) (reg b : Nat) : OutGrows s (s.raise reg b) := by
  have bit : OutGrows s (s.raiseBit reg b) := .of_partFrame (.raiseBit s reg b)
  unfold State.raise
  refine .ite bit (.trans (.trans bit (.ite (.noteEvent _ _ _) (.refl _))) (.each (fun i u => ?_) _ _))
  split
  · exact .ite (.noteEvent _ _ _) (.refl _)
  · exact .refl _

theorem OutGrows.sampleFinal (s : State) (r : Request) (tx : Option (Nat × Nat × Bool)) (cls : Nat) : OutGrows s (s.sampleFinal r tx cls) := by
  unfold State.sampleFinal
  split
  · exact .refl s
  · refine .ite (.refl s) (.ite (.inc s _) (.ite (.trans (.inc s _) (.raise _ _ _)) ?_))
    exact .trans (.before (s' := (s.setTal _).wr _ _) (.when (.raise _ _ _))) (.of_partFrame (.setBit _ _ _ _))

theorem OutGrows.sampleSent (s : State) (r : Option Request) (tTx held : Nat) (again : Bool) : OutGrows s (s.sampleSent r tTx held again) := by
  unfold State.sampleSent
  split
  · exact .sampleFinal s _ _ _
  · exact .refl s

theorem OutGrows.endWork (s : State) (n slot status length : Nat) : OutGrows s (s.endWork n slot status length) := by
  unfold State.endWork State.drainRing
  refine .ite ?_ (.of_out rfl)
  exact .trans (.before (s' := (s.setRing n _).setRing n _) (.each (fun _ u => .postCompletion u n _ _ _ _ _) _ _))
    (.of_partFrame (.showRing _ n))

/-- A frame that leaves is emitted, with its FCS and the instant that it carries. -/
theorem mem_sendFrame (s : State) (sl tTx : Nat) (d : Bytes) : Emission.frame sl (stampOfPs tTx) (withFcs d) ∈ (s.sendFrame sl tTx d).out :=
  ((OutGrows.inc (s.emit _) _).trans (.count _ _ _)) (mem_emit s _)

/-! ### The registers that samples and departures write -/

/-- A word of the tally engine, or one that an event's report writes. -/
def InSamples (a : Nat) : Prop := (0xC000 ≤ a ∧ a < 0x10000) ∨ InHif a

theorem RegFrame.sampleFinal (s : State) (r : Request) (tx : Option (Nat × Nat × Bool)) (cls : Nat) :
    RegFrame InSamples s (s.sampleFinal r tx cls) := by
  have own : ∀ a, 0xC000 ≤ a ∧ a < 0x10000 → InSamples a := fun _ => .inl
  have raised : ∀ (t : State) b, RegFrame InSamples t (t.raise A.talEvent b) := fun t b => .raise_of t _ b (own _ (by decide)) (fun _ => .inr)
  unfold State.sampleFinal
  split
  · exact .refl _ s
  · refine .ite (fun _ => .refl _ s) (fun _ => .ite (fun _ => ?_) (fun _ => .ite (fun _ => ?_) (fun _ => ?_)))
    · exact .inc s _ (own _ (by decide)) (fun _ => own _ (by decide))
    · exact .trans (.inc s _ (own _ (by decide)) (fun _ => own _ (by decide))) (raised _ 3)
    · exact .trans (.trans (.before (.wr (s.setTal _) _ _ (own _ (by decide)))) (.when _ _ _ (raised _ 2)))
        (.setBit _ _ _ _ (own _ (by decide)))

theorem RegFrame.sampleLost (s : State) (r : Option Request) (detail : Nat) : RegFrame InSamples s (s.sampleLost r detail) := by
  unfold State.sampleLost State.sampleDrop
  split
  · exact .sampleFinal s _ _ _
  · exact .refl _ s

theorem not_inSamples_of_le {a : Nat} (h : 0x10000 ≤ a) : ¬ InSamples a := by unfold InSamples InHif; omega

/-! ### Counters of one word -/

/-- A counter of one word counts occurrences up to its largest value (R361). -/
theorem count_rd {s : State} (h : CellList.wf resetOf s.regs = true) {a : Nat} (single : pairRowOf a = none) (n : Nat) :
    ((s.count a n).rd a).toNat = min ((s.rd a).toNat + n) 0xFFFFFFFF := by
  unfold State.count
  rw [if_neg (by simp [single])]
  refine (congrArg BitVec.toNat ((rd_wr _ a a _ h).trans (if_pos rfl))).trans ?_
  exact (BitVec.toNat_ofNat _ 32).trans (Nat.mod_eq_of_lt (by omega))

theorem count_regs {s : State} (h : CellList.wf resetOf s.regs = true) (a n : Nat) : CellList.wf resetOf (s.count a n).regs = true :=
  (RegFrame.count (W := fun _ => True) s a n trivial (fun _ => trivial) h).1

/-- The counters of a link that the events of O16 to O18 count in. -/
def linkCounters (sl : Nat) : List Nat := [A.macLinkRunt sl, A.macLinkOversize sl, A.macLinkPhyErr sl, A.macLinkFcsErr sl, A.macLinkFullDrop sl,
  A.macLinkCtrlOther sl, A.macLinkFragRx sl, A.macLinkAssyErr sl, A.macLinkSmdErr sl, A.macLinkTailDrop sl]

theorem linkCounters_single : ∀ sl < 8, ∀ a ∈ linkCounters sl, pairRowOf a = none := by decide +kernel

end Sys2Proof.Machine
end

section
/-!
SUPPORT. Departures and preemptable frames (R205 to R213, R336), and O18.
-/

set_option Elab.async false

namespace Sys2Proof.Machine

/-! ### Booking, finalisation, commitment (R208 to R213) -/

theorem tailHorizon_setLink (s : State) (sl : Nat) (f : Link → Link) (k : Nat) : (s.setLink sl f).tailHorizon k = s.tailHorizon k := rfl

/-- A link from which a response has been handed over to be booked. -/
def Link.bookingDone (l : List Handed) (y : Link) : Link := { y with ready := l }

theorem bookNext_free {s : State} {sl z : Nat} {x : Handed} {l : List Handed} (ready : (s.lnk sl).ready = x :: l)
    (free : (s.setLink sl (Link.bookingDone l)).freeSlot sl (500000 + x.h) (x.h + s.tailHorizon sl) x.len true = some z) :
    s.bookNext sl = s.setLink sl (fun y => { y with ready := l, slots := ⟨x.answer, x.req, x.len, z, z, false, none, false⟩ :: y.slots }) := by
  unfold State.bookNext
  rw [ready]
  dsimp only
  unfold Link.bookingDone at free
  rw [tailHorizon_setLink, free]
  exact setLink_setLink s sl _ _

theorem bookNext_full {s : State} {sl : Nat} {x : Handed} {l : List Handed} (ready : (s.lnk sl).ready = x :: l)
    (full : (s.setLink sl (Link.bookingDone l)).freeSlot sl (500000 + x.h) (x.h + s.tailHorizon sl) x.len true = none) :
    s.bookNext sl = (((s.setLink sl (Link.bookingDone l)).count (A.macLinkTailDrop sl) 1).raise (A.macLinkEvent sl) 8).sampleLost x.req 1 := by
  unfold State.bookNext
  rw [ready]
  dsimp only
  unfold Link.bookingDone at full
  rw [tailHorizon_setLink, full]
  rfl

/-- A link with something ready, booked or on its line is one of the module's. -/
theorem listed_of_ready {s : State} {sl : Nat} {x : Handed} {l : List Handed} (h : (s.lnk sl).ready = x :: l) :
    sl < s.ports.links.length := listed_of_lnk fun e => by rw [e] at h; nomatch h

theorem listed_of_earliest {s : State} {sl : Nat} {p : Slot → Bool} {x : Slot} (h : earliestSlot (s.lnk sl).slots p = some x) :
    sl < s.ports.links.length := listed_of_lnk fun e => by rw [e] at h; nomatch h

theorem bookNext_full_shown {s : State} (h : CellList.wf resetOf s.regs = true) {sl : Nat} (unit : sl < 8) {x : Handed} {l : List Handed}
    (ready : (s.lnk sl).ready = x :: l)
    (full : (s.setLink sl (Link.bookingDone l)).freeSlot sl (500000 + x.h) (x.h + s.tailHorizon sl) x.len true = none) :
    ((s.bookNext sl).lnk sl).ready = l ∧
      ((s.bookNext sl).rd (A.macLinkTailDrop sl)).toNat = min ((s.rd (A.macLinkTailDrop sl)).toNat + 1) 0xFFFFFFFF := by
  have frame : PartFrame reportParts (s.setLink sl (Link.bookingDone l))
      (((s.setLink sl (Link.bookingDone l)).count (A.macLinkTailDrop sl) 1).raise (A.macLinkEvent sl) 8) :=
    .step (.mono (.count _ _ _)) (.raise _ _ _)
  have kept : RegFrame (fun a => a = A.macLinkEvent sl ∨ InSamples a) ((s.setLink sl (Link.bookingDone l)).count (A.macLinkTailDrop sl) 1)
      ((((s.setLink sl (Link.bookingDone l)).count (A.macLinkTailDrop sl) 1).raise (A.macLinkEvent sl) 8).sampleLost x.req 1) :=
    .trans (.raise_of _ _ _ (.inl rfl) (fun _ i => .inr (.inr i))) (.mono (.sampleLost _ _ _) (fun _ => .inr))
  have apart : ¬ (A.macLinkTailDrop sl = A.macLinkEvent sl ∨ InSamples (A.macLinkTailDrop sl)) := by
    unfold InSamples InHif A.macLinkTailDrop A.macLinkEvent; omega
  rw [bookNext_full ready full]
  constructor
  · rw [(PartFrame.sampleLost _ _ _).lnk, frame.lnk, lnk_setLink (listed_of_ready ready)]
    rfl
  · rw [(kept (count_regs (s := s.setLink sl _) h _ _)).2 _ apart]
    exact count_rd (s := s.setLink sl _) h (linkCounters_single sl unit _ (by simp [linkCounters])) 1

/-- The final frame of a slot. -/
theorem finalise_shown {s : State} {sl : Nat} {x : Slot}
    (earliest : earliestSlot (s.lnk sl).slots (fun y => y.final.isNone && decide (y.slot ≤ 500000 + s.nowPs)) = some x) :
    ∀ y ∈ ((s.finalise sl).lnk sl).slots, y.slot = x.slot → y.final.isSome = true := by
  intro y found same
  unfold State.finalise at found
  split at found
  case h_1 none_ => exact absurd (none_.symm.trans earliest) (Option.some_ne_none _).symm
  case h_2 x' some_ =>
  obtain rfl : x' = x := Option.some.inj (some_.symm.trans earliest)
  extract_lets tTx c q at found
  have ports : q.2.ports = s.ports := by
    have composed : c.2.ports = s.ports := PartFrame.compose s sl _ tTx .ports (by decide)
    unfold q
    split
    · exact (PartFrame.stepAdjust c.2 _ .ports (by decide)).trans composed
    · exact composed
  rw [lnk_setLink (ports.symm ▸ listed_of_earliest earliest)] at found
  obtain ⟨z, -, rfl⟩ := List.mem_map.mp found
  by_cases at_ : z.slot = x'.slot
  · rw [if_pos at_]
    rfl
  · rw [if_neg at_] at same
    exact absurd same at_

theorem commitSlot_shown {s : State} {sl : Nat} {x : Slot}
    (earliest : earliestSlot (s.lnk sl).slots (fun y => !y.committed && y.final.isSome && decide (y.slot ≤ 300000 + s.nowPs)) = some x)
    (free : s.heldAt sl s.nowPs = false) : ∀ y ∈ ((s.commitSlot sl).lnk sl).slots, y.slot = x.slot → y.committed = true := by
  unfold State.commitSlot
  rw [earliest]
  dsimp only
  rw [if_neg (by simp [free]), lnk_setLink (listed_of_earliest earliest)]
  intro y found same
  obtain ⟨z, -, rfl⟩ := List.mem_map.mp found
  by_cases at_ : z.slot = x.slot
  · rw [if_pos at_]
  · rw [if_neg at_] at same
    exact absurd same at_

theorem slotStart_sent {s : State} {sl tTx : Nat} {x : Slot} {d : Bytes}
    (earliest : earliestSlot (s.lnk sl).slots (fun y => y.committed && decide (y.slot ≤ s.nowPs)) = some x)
    (final : x.final = some (d, tTx)) : Emission.frame sl (stampOfPs tTx) (withFcs d) ∈ (s.slotStart sl).out := by
  unfold State.slotStart
  rw [earliest]
  dsimp only
  rw [final]
  dsimp only
  have sent := fun f : Link → Link => mem_sendFrame (s.setLink sl f) sl tTx d
  split
  · exact (OutGrows.of_partFrame (.syncSent _ _ _ _ _ _ _)) (sent _)
  · exact (OutGrows.of_partFrame (l := [.regs, .totals, .ptp]) (.step (.step (.mono (.inc _ _)) (.inc _ _)) (.setSlave _ _ _))) (sent _)
  · exact OutGrows.sampleSent _ _ _ _ _ (sent _)

theorem ageDrop_shown (s : State) (sl : Nat) :
    ∀ y ∈ ((s.ageDrop sl).lnk sl).slots, y.committed = true ∨ s.nowPs < y.first + s.slotAge sl := by
  intro y found
  unfold State.ageDrop at found
  extract_lets old gone at found
  have frame : PartFrame sampleParts (s.setLink sl (fun l => { l with slots := l.slots.filter (fun x => !(old x)) }))
      (((s.setLink sl (fun l => { l with slots := l.slots.filter (fun x => !(old x)) })).dropResponses sl (A.macLinkAgeDrop sl)
        gone.length).each gone (fun x t => t.sampleLost x.req 2)) :=
    .trans (.mono (.dropResponses _ _ _ _)) (.each (fun _ t => .sampleLost t _ 2) _ _)
  rw [frame.lnk] at found
  by_cases listed : sl < s.ports.links.length
  · rw [lnk_setLink listed] at found
    have young := (List.mem_filter.mp found).2
    simp only [old, Bool.not_and, Bool.not_not, Bool.or_eq_true, Bool.not_eq_true', decide_eq_false_iff_not, not_le] at young
    exact young
  · have absent : ((s.setLink sl (fun l => { l with slots := l.slots.filter (fun x => !(old x)) })).lnk sl) = Link.empty :=
      List.getD_eq_default _ _ (by rw [setLink_links_length]; omega)
    rw [absent] at found
    nomatch found

/-! ### Preemptable frames (R205, R336) -/

theorem startOnLine_started {s : State} {sl : Nat} {x : PreFrame} {l : List PreFrame} (queue : (s.lnk sl).queue = x :: l)
    (idle : (s.lnk sl).onLine = none) (up : s.linkUp sl = true) (free : s.heldAt sl s.nowPs = false)
    (room : (s.preCourse sl (s.expressTimes sl) ⟨x, s.nowPs, decide (s.preempt sl = 2), 0⟩).isSome = true) :
    s.startOnLine sl = s.setLink sl (fun y => { y with queue := l, onLine := some ⟨x, s.nowPs, decide (s.preempt sl = 2), 0⟩ }) := by
  unfold State.startOnLine
  rw [queue]
  exact if_pos ⟨up, idle, free, room⟩

theorem endOnLine_idle {s : State} {sl : Nat} (idle : (s.lnk sl).onLine = none) : s.endOnLine sl = s := by
  unfold State.endOnLine
  rw [idle]

theorem endOnLine_sent {s : State} {sl : Nat} {o : OnLine} (line : (s.lnk sl).onLine = some o) (gone : (s.lineCourse sl o).1 ≤ s.nowPs) :
    Emission.frame sl (stampOfPs ((o.start : Int) + s.dTx sl).toNat) (withFcs o.frame.data) ∈ (s.endOnLine sl).out := by
  unfold State.endOnLine
  split
  case h_1 none_ => exact absurd (none_.symm.trans line) (Option.some_ne_none _).symm
  case h_2 o' some_ =>
  obtain rfl : o' = o := Option.some.inj (some_.symm.trans line)
  extract_lets last cut sent counted
  rw [if_neg (Nat.not_lt.mpr gone)]
  have left : Emission.frame sl (stampOfPs ((o'.start : Int) + s.dTx sl).toNat) (withFcs o'.frame.data) ∈ sent.out := mem_sendFrame _ _ _ _
  have grown : OutGrows sent counted := by
    unfold counted
    split
    · exact .inc _ _
    · exact .refl _
  split
  · exact grown left
  · exact (grown.trans (.trans (.inc _ _) (.endWork _ _ _ _ _))) left

/-! ### The obligation -/

/-- Settles O18: each command is the branch of its operation that the hypotheses name; what has been emitted stays emitted
(`OutGrows`), and the report of a drop leaves the links as they are. -/
theorem departureEventsComplete : Obligations.DepartureEventsComplete := by
  unfold Obligations.DepartureEventsComplete
  refine ⟨fun s u dt link z x l canonical eq unit ready free => completes_afterIf (·.bookNext link) rfl (decide_eq_true unit) eq ?booked,
    fun s u dt link x l canonical eq unit ready full => completes_afterIf (·.bookNext link) rfl (decide_eq_true unit) eq
      (bookNext_full_shown ?regs unit ready full),
    fun s u dt link x canonical eq unit earliest => completes_afterIf (·.anyFinalise link) rfl (decide_eq_true (by omega)) eq ?final,
    fun s u dt link x canonical eq unit earliest free => completes_afterIf (·.anyCommit link) rfl (decide_eq_true (by omega)) eq ?committed,
    fun s u dt link tx x d canonical eq unit earliest final =>
      completes_afterIf (·.anyStart link) rfl (decide_eq_true (by omega)) eq ?sent,
    fun s u dt link canonical eq unit => completes_afterIf (·.ageDrop link) rfl (decide_eq_true unit) eq (ageDrop_shown u link),
    fun s u dt link last x l canonical eq unit queue idle up free room =>
      completes_afterIf (·.sendPreemptable link last) rfl (decide_eq_true unit) eq ?started,
    fun s u dt link o canonical eq unit line gone =>
      completes_afterIf (·.sendPreemptable link true) rfl (decide_eq_true unit) eq ?ended⟩
  case booked =>
    rw [bookNext_free ready free, lnk_setLink (listed_of_ready ready)]
    exact ⟨rfl, rfl⟩
  case regs => exact regs_of_canonical (eq ▸ advance_canonical canonical dt)
  case final =>
    rw [State.anyFinalise, if_pos unit]
    exact finalise_shown earliest
  case committed =>
    rw [State.anyCommit, if_pos unit]
    exact commitSlot_shown earliest free
  case sent =>
    rw [State.anyStart, if_pos unit]
    exact slotStart_sent earliest final
  case started =>
    have ended : u.when last (fun t => t.endOnLine link) = u := by
      cases last
      · rfl
      · exact endOnLine_idle idle
    rw [State.sendPreemptable, ended, startOnLine_started queue idle up free room,
      lnk_setLink (listed_of_lnk fun e => by rw [e] at queue; nomatch queue)]
    exact ⟨rfl, rfl⟩
  case ended => exact (OutGrows.of_partFrame (.startOnLine _ link)) (endOnLine_sent line gone)

end Sys2Proof.Machine
end

section
/-!
SUPPORT. What pause, weirs and good frames leave of a frame in reception (R192 to R199).
-/

set_option Elab.async false

namespace Sys2Proof.Machine

/-! ### What pause and weirs leave of a frame in reception -/

/-- The words of a link that may be written while it receives a frame, but for the counters that say how the frame ends: STATUS,
EVENT, and the counters of good and of sent frames and of responses. -/
def TrafficWord (sl a : Nat) : Prop :=
  a = A.macLinkStatus sl ∨ a = A.macLinkEvent sl ∨ (A.macLinkRxFrames sl ≤ a ∧ a < A.macLinkRunt sl) ∨
  (A.macLinkPauseRx sl ≤ a ∧ a < A.macLinkCtrlOther sl) ∨ (A.macLinkFragTx sl ≤ a ∧ a < A.macLinkLinkDrop sl) ∨
  (A.macLinkFecUncorrCw sl ≤ a ∧ a < A.macLinkFecUncorrCw sl + 8)

/-- The same, with what a report or a sample writes. -/
def ReceiveWord (sl a : Nat) : Prop := TrafficWord sl a ∨ InSamples a

/-- Pause, weirs and the counting of good frames leave what link `sl` receives, the claims and the complexes as they are. -/
structure ReceiveKept (sl : Nat) (s t : State) : Prop where
  parts : PartFrame slotParts s t
  words : RegFrame (ReceiveWord sl) s t
  claims : t.ports.claims = s.ports.claims
  complexes : t.ports.complexes = s.ports.complexes
  length : t.ports.links.length = s.ports.links.length
  express : (t.lnk sl).rxExpress = (s.lnk sl).rxExpress
  pre : (t.lnk sl).rxPre = (s.lnk sl).rxPre

/-- What a key reads as depends on the default at that key alone. -/
theorem CellList.get_congr {β : Type} {d e : Nat → β} {a : Nat} (h : d a = e a) : ∀ l, CellList.get d l a = CellList.get e l a
  | [] => h
  | (_, v) :: l => congrArg (ite _ v) (CellList.get_congr h l)

/-- A change of a link that leaves a property of it alone. -/
theorem lnk_setLink_kept {α : Type} {p : Link → α} {f : Link → Link} (h : ∀ l, p (f l) = p l) (s : State) (sl : Nat) :
    p ((s.setLink sl f).lnk sl) = p (s.lnk sl) := by
  by_cases listed : sl < s.ports.links.length
  · rw [lnk_setLink listed, h]
  · have beyond : (modAt s.ports.links sl f).length ≤ sl := by rw [length_modAt]; omega
    exact congrArg p ((List.getD_eq_default _ Link.empty beyond).trans (List.getD_eq_default _ _ (by omega)).symm)

/-- The counters of sent frames and of responses, and those of good frames. -/
theorem trafficWord_counter (sl : Nat) : ∀ a ∈ [A.macLinkTxFrames sl, A.macLinkTxOctets sl, A.macLinkPauseTx sl, A.macLinkReslot sl,
    A.macLinkAgeDrop sl, A.macLinkRxFrames sl, A.macLinkRxOctets sl, A.macLinkFecCorrCw sl, A.macLinkFecUncorrCw sl],
    TrafficWord sl a ∧ TrafficWord sl (a + 4) := by
  simp only [List.forall_mem_cons, List.not_mem_nil, TrafficWord, A.macLinkTxFrames, A.macLinkTxOctets, A.macLinkPauseTx, A.macLinkReslot,
    A.macLinkAgeDrop, A.macLinkRxFrames, A.macLinkRxOctets, A.macLinkFecCorrCw, A.macLinkFecUncorrCw, A.macLinkRunt, A.macLinkPauseRx,
    A.macLinkCtrlOther, A.macLinkFragTx, A.macLinkLinkDrop, false_implies, implies_true, and_true]
  omega

theorem not_trafficWord_of_le {sl a : Nat} (unit : sl < 8) (h : 0x50000 ≤ a) : ¬ TrafficWord sl a := by
  simp only [TrafficWord, A.macLinkStatus, A.macLinkEvent, A.macLinkRxFrames, A.macLinkRunt, A.macLinkPauseRx, A.macLinkCtrlOther,
    A.macLinkFragTx, A.macLinkLinkDrop, A.macLinkFecUncorrCw]
  omega

/-- Outside: the words of the complex and of the link's settings, and the counters of how a frame ends. -/
theorem not_trafficWord (sl : Nat) : ∀ a ∈ [A.macStatus (sl / 4), A.macMaxFrame (sl / 4), A.macLinkRxFixed sl, A.macLinkRxDyn sl,
    A.macLinkUserRxDly sl, A.macLinkRunt sl, A.macLinkOversize sl, A.macLinkPhyErr sl, A.macLinkFcsErr sl, A.macLinkFullDrop sl,
    A.macLinkCtrlOther sl, A.macLinkFragRx sl, A.macLinkAssyErr sl, A.macLinkSmdErr sl], ¬ TrafficWord sl a ∧ 0x10000 ≤ a := by
  simp only [List.forall_mem_cons, List.not_mem_nil, TrafficWord, A.macStatus, A.macMaxFrame, A.macLinkRxFixed, A.macLinkRxDyn,
    A.macLinkUserRxDly, A.macLinkOversize, A.macLinkPhyErr, A.macLinkFcsErr, A.macLinkFullDrop, A.macLinkFragRx, A.macLinkAssyErr,
    A.macLinkSmdErr, A.macLinkStatus, A.macLinkEvent, A.macLinkRxFrames, A.macLinkRunt, A.macLinkPauseRx,
    A.macLinkCtrlOther, A.macLinkFragTx, A.macLinkLinkDrop, A.macLinkFecUncorrCw, false_implies, implies_true, and_true]
  omega

namespace ReceiveKept

section
variable {sl : Nat}

/-- An operation that leaves the ports alone. -/
theorem of_parts {l : List Part} {s t : State} (h : PartFrame l s t) (words : RegFrame (ReceiveWord sl) s t) (out : Part.ports ∉ l := by decide)
    (within : l ⊆ slotParts := by decide) : ReceiveKept sl s t where
  parts := h.mono within
  words := words
  claims := congrArg Ports.claims (h .ports out)
  complexes := congrArg Ports.complexes (h .ports out)
  length := congrArg (fun p => p.links.length) (h .ports out)
  express := by rw [h.lnk sl out]
  pre := by rw [h.lnk sl out]

theorem refl (s : State) : ReceiveKept sl s s := .of_parts (.refl [] s) (.refl _ s)

theorem trans {s t u : State} (h : ReceiveKept sl s t) (k : ReceiveKept sl t u) : ReceiveKept sl s u where
  parts := h.parts.trans k.parts
  words := h.words.trans k.words
  claims := k.claims.trans h.claims
  complexes := k.complexes.trans h.complexes
  length := k.length.trans h.length
  express := k.express.trans h.express
  pre := k.pre.trans h.pre

theorem ite {c : Prop} [Decidable c] {s t u : State} (h : ReceiveKept sl s t) (k : ReceiveKept sl s u) :
    ReceiveKept sl s (if c then t else u) := by split <;> assumption

theorem when {s : State} {c : Bool} {g : State → State} (h : ReceiveKept sl s (g s)) : ReceiveKept sl s (s.when c g) := by
  cases c; exacts [.refl s, h]

theorem each {α : Type} {g : α → State → State} (h : ∀ x t, ReceiveKept sl t (g x t)) :
    ∀ (xs : List α) (s : State), ReceiveKept sl s (s.each xs g)
  | [], s => .refl s
  | x :: xs, s => (h x s).trans (ReceiveKept.each h xs (g x s))

/-- A change of the link that is not of what it receives. -/
theorem setLink (s : State) {f : Link → Link} (express : ∀ l, (f l).rxExpress = l.rxExpress := by intro l; rfl)
    (pre : ∀ l, (f l).rxPre = l.rxPre := by intro l; rfl) : ReceiveKept sl s (s.setLink sl f) where
  parts := .mono (.setLink s sl f)
  words := .same rfl
  claims := rfl
  complexes := rfl
  length := setLink_links_length s sl f
  express := lnk_setLink_kept express s sl
  pre := lnk_setLink_kept pre s sl

theorem count (s : State) {a : Nat} (n : Nat) (h : TrafficWord sl a ∧ TrafficWord sl (a + 4)) : ReceiveKept sl s (s.count a n) :=
  .of_parts (.count s a n) (.count s a n (.inl h.1) (fun _ => .inl h.2))

theorem inc (s : State) {a : Nat} (h : TrafficWord sl a ∧ TrafficWord sl (a + 4)) : ReceiveKept sl s (s.inc a) := .count s 1 h

theorem raise (s : State) (b : Nat) : ReceiveKept sl s (s.raise (A.macLinkEvent sl) b) :=
  .of_parts (.raise s _ b) (.raise_of s _ b (.inl (.inr (.inl rfl))) (fun _ h => .inr (.inr h)))

theorem sampleLost (s : State) (r : Option Request) (detail : Nat) : ReceiveKept sl s (s.sampleLost r detail) :=
  .of_parts (.sampleLost s r detail) ((RegFrame.sampleLost s r detail).mono
    (fun _ h => .inr h))

end

end ReceiveKept

namespace ReceiveKept

section
variable {sl : Nat}

theorem dropResponses (s : State) : ReceiveKept sl s (s.dropResponses sl (A.macLinkAgeDrop sl) 1) :=
  .trans (.count s 1 (trafficWord_counter sl _ (by simp))) (.raise _ 8)

theorem reslot (s : State) (at_ : Nat) : ReceiveKept sl s (s.reslot sl at_) := by
  unfold State.reslot
  split
  · exact .refl s
  · dsimp only
    split
    · exact .trans (.trans (.setLink s) (.dropResponses _)) (.sampleLost _ _ 2)
    · exact .trans (.trans (.trans (.setLink s) (.setLink _)) (.inc _ (trafficWord_counter sl _ (by simp)))) (.raise _ 7)

theorem expressSlot (s : State) (n : Nat) : ReceiveKept sl s (s.expressSlot sl n).2 := by
  unfold State.expressSlot State.reserve
  split
  · exact .refl s
  · exact .trans (.setLink s) (.each (fun _ t => .reslot t _) _ _)

theorem emit (s : State) (e : Emission) : ReceiveKept sl s (s.emit e) := .of_parts (.emit s e) (.same rfl)

theorem sendFrame (s : State) (tTx : Nat) (d : Bytes) : ReceiveKept sl s (s.sendFrame sl tTx d) :=
  .trans (.trans (.emit s _) (.inc _ (trafficWord_counter sl _ (by simp)))) (.count _ _ (trafficWord_counter sl _ (by simp)))

theorem sendPause (s : State) (quanta : Nat) : ReceiveKept sl s (s.sendPause sl quanta) := by
  unfold State.sendPause
  refine .ite (.refl s) ?_
  have slot : ReceiveKept sl s (s.expressSlot sl 60).2 := .expressSlot s 60
  split
  case h_1 t eq => rwa [eq] at slot
  case h_2 z t eq =>
    rw [eq] at slot
    exact .trans (.trans (.trans (.trans slot (.sendFrame t _ _)) (.emit _ _)) (.inc _ (trafficWord_counter sl _ (by simp)))) (.setLink _)

theorem weirHigh (s : State) (occ : Nat) : ReceiveKept sl s (s.weirHigh sl occ) := by
  have shown : ReceiveKept sl s (s.setBit (A.macLinkStatus sl) 5 true) := .of_parts (.setBit s _ _ _) (.setBit s _ _ _ (.inl (.inl rfl)))
  exact .ite (.trans (.trans shown (.raise _ 3)) (.when (.sendPause _ _))) (.refl s)

end

/-! #### What reception and classification see -/

section
variable {sl : Nat} {s t : State}

theorem regs (k : ReceiveKept sl s t) (h : CellList.wf resetOf s.regs = true) : CellList.wf resetOf t.regs = true := (k.words h).1

theorem rd (k : ReceiveKept sl s t) (h : CellList.wf resetOf s.regs = true) {a : Nat} (out : ¬ TrafficWord sl a ∧ 0x10000 ≤ a) :
    t.rd a = s.rd a := (k.words h).2 a (fun w => w.elim out.1 (not_inSamples_of_le out.2))

/-- A word of another block. -/
theorem rd_above (k : ReceiveKept sl s t) (h : CellList.wf resetOf s.regs = true) (unit : sl < 8) {a : Nat} (above : 0x50000 ≤ a) :
    t.rd a = s.rd a := k.rd h ⟨not_trafficWord_of_le unit above, by omega⟩

theorem group (k : ReceiveKept sl s t) (g : Nat) : t.group g = s.group g := by
  rw [State.group, State.group, show t.groups = s.groups from k.parts .groups (by decide)]

theorem ts (k : ReceiveKept sl s t) : t.ts = s.ts := k.parts .ts (by decide)

theorem nowPs (k : ReceiveKept sl s t) : t.nowPs = s.nowPs := by rw [State.nowPs, State.nowPs, k.ts]

theorem hrc (k : ReceiveKept sl s t) : t.hrc = s.hrc := k.parts .hrc (by decide)

theorem complex (k : ReceiveKept sl s t) (c : Nat) : t.complex c = s.complex c := by rw [State.complex, State.complex, k.complexes]

theorem macMode (k : ReceiveKept sl s t) (h : CellList.wf resetOf s.regs = true) : t.macMode (sl / 4) = s.macMode (sl / 4) :=
  f_of_rd (k.rd h (not_trafficWord sl _ (by simp))) 0 2

theorem maxFrame (k : ReceiveKept sl s t) (h : CellList.wf resetOf s.regs = true) (dir : Nat) : t.maxFrame sl dir = s.maxFrame sl dir := by
  have word : t.rd (A.macMaxFrame (sl / 4)) = s.rd (A.macMaxFrame (sl / 4)) := k.rd h (not_trafficWord sl _ (by simp))
  unfold State.maxFrame State.flowWord
  simp only [k.group, k.complex]
  split
  · rfl
  · split
    · exact congrArg (fun w => fld w 0 14) (CellList.get_congr word _)
    · rw [word]

theorem cellsHeld (k : ReceiveKept sl s t) (h : CellList.wf resetOf s.regs = true) : t.cellsHeld sl = s.cellsHeld sl := by
  unfold State.cellsHeld State.linkExists
  rw [k.claims, k.hrc, k.macMode h, k.express, k.pre]

theorem rxInstant (k : ReceiveKept sl s t) (h : CellList.wf resetOf s.regs = true) (cap : Nat) : t.rxInstant sl cap = s.rxInstant sl cap := by
  have word : t.rd (A.macLinkUserRxDly sl) = s.rd (A.macLinkUserRxDly sl) := k.rd h (not_trafficWord sl _ (by simp))
  unfold State.rxInstant
  rw [k.complex, k.rd h (not_trafficWord sl (A.macLinkRxFixed sl) (by simp)),
    f_of_rd (k.rd h (not_trafficWord sl (A.macLinkRxDyn sl) (by simp))), word, CellList.get_congr word _]

theorem addrFaulty (k : ReceiveKept sl s t) (i : Nat) : t.addrFaulty i = s.addrFaulty i := by
  unfold State.addrFaulty
  rw [k.group]

theorem addrMatches (k : ReceiveKept sl s t) (h : CellList.wf resetOf s.regs = true) (unit : sl < 8) (i : Nat) (ip : Bytes)
    (tags : List (Nat × Nat)) : t.addrMatches i sl ip tags = s.addrMatches i sl ip tags := by
  have address : t.addrIp i = s.addrIp i :=
    congrArg ipBytes (funext fun j => k.rd_above h unit (by unfold A.hrcAddrIp; omega))
  have svc : t.rd (A.hrcAddrSvc i) = s.rd (A.hrcAddrSvc i) := k.rd_above h unit (by unfold A.hrcAddrSvc; omega)
  unfold State.addrMatches
  rw [address, bit_of_rd svc, bit_of_rd svc, k.rd_above h unit (by unfold A.hrcAddrVlan; omega)]

theorem matchAddr (k : ReceiveKept sl s t) (h : CellList.wf resetOf s.regs = true) (unit : sl < 8) (ip : Bytes)
    (tags : List (Nat × Nat)) : t.matchAddr sl ip tags = s.matchAddr sl ip tags := by
  unfold State.matchAddr
  simp only [k.addrFaulty, k.addrMatches h unit]

theorem atFaulty (k : ReceiveKept sl s t) (h : CellList.wf resetOf s.regs = true) (unit : sl < 8) (ip : Bytes)
    (tags : List (Nat × Nat)) : t.atFaulty sl ip tags = s.atFaulty sl ip tags := by
  unfold State.atFaulty
  simp only [k.addrFaulty, k.addrMatches h unit]

theorem hrcWord (k : ReceiveKept sl s t) (h : CellList.wf resetOf s.regs = true) (unit : sl < 8) {a : Nat} (above : 0x50000 ≤ a) :
    t.hrcWord a = s.hrcWord a := by
  unfold State.hrcWord
  rw [k.group, k.rd_above h unit above]

end

end ReceiveKept

end Sys2Proof.Machine
end

section
/-!
SUPPORT. The reception of a frame (R192 to R194, R206, R219).
-/

set_option Elab.async false

namespace Sys2Proof.Machine

/-! ### A frame as it is received (R192 to R194, R206) -/

/-- A link after a change of the frame that one of its MACs receives. -/
def Link.receives (ex : Bool) (r : Option RxOpen) (l : Link) : Link := if ex then { l with rxExpress := r } else { l with rxPre := r }

theorem setRx_eq (s : State) (sl : Nat) (ex : Bool) (r : Option RxOpen) : s.setRx sl ex r = s.setLink sl (Link.receives ex r) := rfl

theorem setRx_setRx (s : State) (sl : Nat) (ex : Bool) (r x : Option RxOpen) : (s.setRx sl ex r).setRx sl ex x = s.setRx sl ex x := by
  rw [setRx_eq, setRx_eq, setRx_eq, setLink_setLink]
  cases ex <;> rfl

theorem rxOpen_setRx {s : State} {sl : Nat} (listed : sl < s.ports.links.length) (ex : Bool) (r : Option RxOpen) :
    (s.setRx sl ex r).rxOpen sl ex = r := by
  unfold State.rxOpen
  rw [setRx_eq, lnk_setLink listed]
  cases ex <;> rfl

/-- A link whose MAC receives nothing, once more told so. -/
theorem receives_none {ex : Bool} {l : Link} (idle : (if ex then l.rxExpress else l.rxPre) = none) : Link.receives ex none l = l := by
  unfold Link.receives
  cases ex
  · exact (congrArg (fun r => { l with rxPre := r }) idle.symm :)
  · exact (congrArg (fun r => { l with rxExpress := r }) idle.symm :)

theorem modAt_self {α : Type} {f : α → α} (d : α) : ∀ {l : List α} {i : Nat}, f (l.getD i d) = l.getD i d → modAt l i f = l
  | [], _, _ => rfl
  | _ :: l, 0, h => congrArg (· :: l) h
  | x :: l, i + 1, h => congrArg (x :: ·) (modAt_self d (l := l) (i := i) h)

/-- A MAC that receives nothing, once more told so. -/
theorem setRx_none_idle {s : State} {sl : Nat} {ex : Bool} (idle : s.rxOpen sl ex = none) : s.setRx sl ex none = s := by
  rw [setRx_eq]
  unfold State.setLink
  rw [modAt_self Link.empty (receives_none idle)]

theorem rxFail_idle {s : State} {sl : Nat} {ex : Bool} (idle : s.rxOpen sl ex = none) (reg : Nat) : s.rxFail sl ex reg = s := by
  unfold State.rxFail
  rw [idle]

/-- The end of a frame with its FCS, for one that has not been dropped. -/
theorem rxFinish_of {s : State} {sl : Nat} {ex : Bool} {r : RxOpen} (listed : sl < s.ports.links.length) (alive : r.dead = false)
    (clean : r.phy = false) (good : Bool) : (s.setRx sl ex (some r)).rxFinish sl ex good =
      if r.data.length + 4 < 64 then (s.setRx sl ex none).inc (A.macLinkRunt sl)
      else if good then (s.setRx sl ex none).goodFrame sl r.first r.data
      else (s.setRx sl ex none).inc (A.macLinkFcsErr sl) := by
  unfold State.rxFinish
  rw [rxOpen_setRx listed]
  dsimp only
  rw [setRx_setRx, alive, clean]
  rfl

/-- The end of a frame that has been dropped. -/
theorem rxFinish_dead {s : State} {sl : Nat} {ex : Bool} {r : RxOpen} (listed : sl < s.ports.links.length) (dead : r.dead = true)
    (good : Bool) : (s.setRx sl ex (some r)).rxFinish sl ex good = s.setRx sl ex none := by
  unfold State.rxFinish
  rw [rxOpen_setRx listed]
  dsimp only
  rw [setRx_setRx, dead]
  rfl

section
variable {s : State} {sl : Nat} {ex : Bool} {r : RxOpen} {d : Bytes} {n : Nat} (idle : s.rxOpen sl ex = none) (alive : r.dead = false)
include idle alive

theorem rxBytes_full
    (full : cellsOf (s.macMode (sl / 4)) < s.cellsHeld sl + cellsFor (min (r.data.length + n) (s.maxFrame sl 0 + 1))) :
    s.rxBytes sl ex r d n = (s.inc (A.macLinkFullDrop sl)).setRx sl ex (some { r with dead := true }) := by
  unfold State.rxBytes
  rw [setRx_none_idle idle, alive]
  exact (if_neg Bool.false_ne_true).trans (if_pos full)

/-- Bytes that find their cells reach the weir; byte MAX_FRAME + 1 drops the frame, and otherwise they are kept. -/
theorem rxBytes_fits
    (fits : s.cellsHeld sl + cellsFor (min (r.data.length + n) (s.maxFrame sl 0 + 1)) ≤ cellsOf (s.macMode (sl / 4))) :
    ∃ t, ReceiveKept sl s t ∧ s.rxBytes sl ex r d n =
      if s.maxFrame sl 0 < r.data.length + n then (t.inc (A.macLinkOversize sl)).setRx sl ex (some { r with dead := true })
      else t.setRx sl ex (some { r with data := r.data ++ d }) := by
  refine ⟨_, .weirHigh s (s.cellsHeld sl + cellsFor (min (r.data.length + n) (s.maxFrame sl 0 + 1))), ?_⟩
  unfold State.rxBytes
  rw [setRx_none_idle idle, alive]
  exact (if_neg Bool.false_ne_true).trans (if_neg (Nat.not_lt.mpr fits))

end

/-! ### A whole frame on the express MAC -/

/-- A link that is UP takes what it receives, once the FEC codewords are counted. -/
theorem frameRx_up {s : State} {sl : Nat} (up : s.linkUp sl = true) (x : RxPhys) :
    ∃ t, ReceiveKept sl s t ∧ t.ports = s.ports ∧ s.frameRx sl x = t.rxSmd sl x := by
  have counted : ∀ (t : State) a n, (t.count a n).ports = t.ports := fun t a n => PartFrame.count t a n .ports (by decide)
  refine ⟨(s.count (A.macLinkFecCorrCw sl) x.fecCorr).count (A.macLinkFecUncorrCw sl) x.fecUncorr,
    .trans (.count s _ (trafficWord_counter sl _ (by simp))) (.count _ _ (trafficWord_counter sl _ (by simp))),
    (counted _ _ _).trans (counted s _ _), ?_⟩
  unfold State.frameRx
  exact if_neg (by simp [up])

/-- What an idle express MAC does with a whole frame: `t` is the link without it. -/
def State.frameEnded (t : State) (sl cap : Nat) (d : Bytes) (good : Bool) : State :=
  if d.length + 4 < 64 then t.inc (A.macLinkRunt sl)
  else if good then t.goodFrame sl cap d
  else t.inc (A.macLinkFcsErr sl)

section
variable {s : State} {sl : Nat} {d : Bytes} (h : CellList.wf resetOf s.regs = true) (listed : sl < s.ports.links.length)
  (up : s.linkUp sl = true) (idle : (s.lnk sl).rxExpress = none)
include up idle

/-- A whole express frame on an idle link, up to the bytes that it brings. -/
theorem frameRx_whole (ago : Nat) (good : Bool) : ∃ t, ReceiveKept sl s t ∧ t.rxOpen sl true = none ∧
    s.frameRx sl ⟨.express, .frame good, d, ago, false, 0, 0⟩ =
      (t.rxBytes sl true ⟨0, 0, s.nowPs - ago, [], false, false⟩ d (d.length + 4)).rxFinish sl true good := by
  obtain ⟨t, kept, -, eq⟩ := frameRx_up up ⟨.express, .frame good, d, ago, false, 0, 0⟩
  have free : t.rxOpen sl true = none := kept.express.trans idle
  refine ⟨t, kept, free, ?_⟩
  rw [eq]
  unfold State.rxSmd
  dsimp only
  rw [rxFail_idle free, kept.nowPs]
  rfl

include h listed

theorem frameRx_full (ago : Nat) (good : Bool)
    (full : cellsOf (s.macMode (sl / 4)) < s.cellsHeld sl + cellsFor (min (d.length + 4) (s.maxFrame sl 0 + 1))) :
    ∃ t, ReceiveKept sl s t ∧ s.frameRx sl ⟨.express, .frame good, d, ago, false, 0, 0⟩ =
      (t.inc (A.macLinkFullDrop sl)).setRx sl true none := by
  obtain ⟨t, kept, free, eq⟩ := frameRx_whole up idle (d := d) ago good
  rw [← kept.macMode h, ← kept.cellsHeld h, ← kept.maxFrame h] at full
  refine ⟨t, kept, eq.trans ?_⟩
  rw [rxBytes_full free rfl (by simpa using full)]
  refine rxFinish_dead ?_ rfl good
  rw [PartFrame.inc t _ .ports (by decide), kept.length]
  exact listed

/-- The cells are found: an oversized frame counts, and any other comes to its end. -/
theorem frameRx_fits (ago : Nat) (good : Bool)
    (fits : s.cellsHeld sl + cellsFor (min (d.length + 4) (s.maxFrame sl 0 + 1)) ≤ cellsOf (s.macMode (sl / 4))) :
    ∃ t, ReceiveKept sl s t ∧ s.frameRx sl ⟨.express, .frame good, d, ago, false, 0, 0⟩ =
      if s.maxFrame sl 0 < d.length + 4 then t.inc (A.macLinkOversize sl) else t.frameEnded sl (s.nowPs - ago) d good := by
  obtain ⟨t, kept, free, eq⟩ := frameRx_whole up idle (d := d) ago good
  rw [← kept.macMode h, ← kept.cellsHeld h, ← kept.maxFrame h] at fits
  obtain ⟨w, reached, bytes⟩ := rxBytes_fits (d := d) (n := d.length + 4) (r := ⟨0, 0, s.nowPs - ago, [], false, false⟩) free rfl
    (by simpa using fits)
  have whole : ReceiveKept sl s w := kept.trans reached
  have listed' : sl < w.ports.links.length := whole.length ▸ listed
  have gone : ∀ v : State, v.ports = w.ports → v.setRx sl true none = v := fun v same =>
    setRx_none_idle ((congrArg (fun l => l.rxExpress) (lnk_congr same sl)).trans (whole.express.trans idle))
  refine ⟨w, whole, ?_⟩
  rw [eq, bytes, kept.maxFrame h]
  simp only [List.length_nil, List.nil_append, Nat.zero_add]
  split
  · have same : (w.inc (A.macLinkOversize sl)).ports = w.ports := PartFrame.inc w _ .ports (by decide)
    rw [rxFinish_dead (same ▸ listed') rfl, gone _ same]
  · rw [rxFinish_of listed' rfl rfl, gone w rfl]
    rfl

end

/-! ### Good frames (R194, R219) -/

/-- A good frame counts in RX_FRAMES and RX_OCTETS before anything else. -/
theorem goodFrame_counted (s : State) (sl : Nat) (d : Bytes) :
    ReceiveKept sl s ((s.inc (A.macLinkRxFrames sl)).count (A.macLinkRxOctets sl) (d.length + 4)) ∧
      ((s.inc (A.macLinkRxFrames sl)).count (A.macLinkRxOctets sl) (d.length + 4)).ports = s.ports :=
  ⟨.trans (.inc s (trafficWord_counter sl _ (by simp))) (.count _ _ (trafficWord_counter sl _ (by simp))),
    (PartFrame.step (l := [.regs, .totals]) (.inc s _) (.count _ _ _)) .ports (by decide)⟩

/-- A MAC control frame that is no pause. -/
theorem goodFrame_control (s : State) (sl cap : Nat) {d : Bytes} (control : (packetOf d).etype = 0x8808)
    (other : beAt (packetOf d).body 0 2 ≠ 1) : s.goodFrame sl cap d =
      ((s.inc (A.macLinkRxFrames sl)).count (A.macLinkRxOctets sl) (d.length + 4)).inc (A.macLinkCtrlOther sl) := by
  unfold State.goodFrame
  exact (if_pos control).trans (if_neg other)

/-- An ARP frame whose checksums hold goes on to the headrace. -/
theorem goodFrame_arp (s : State) (sl cap : Nat) {d : Bytes} (arp : (packetOf d).etype = 0x0806) (ip : (packetOf d).ipSumOk = true)
    (udp : (packetOf d).udpSumOk = true) : s.goodFrame sl cap d =
      ((s.inc (A.macLinkRxFrames sl)).count (A.macLinkRxOctets sl) (d.length + 4)).classify ⟨sl, s.rxInstant sl cap, d⟩ (packetOf d) := by
  unfold State.goodFrame
  refine (if_neg (by simp [arp])).trans ((if_neg (by simp [ip])).trans ((if_neg (by simp [udp])).trans (if_neg (by simp [arp]))))

/-- An ARP request for a service address is claimed for the ARP engine. -/
theorem classify_arp {s : State} {fr : RxFrame} {p : Packet} {k : Nat} (arp : p.etype = 0x0806) (request : beAt p.body 6 2 = 1)
    (sound : s.atFaulty fr.sl (mapped (slice p.body 24 4)) p.tags = false)
    (served : s.matchAddr fr.sl (mapped (slice p.body 24 4)) p.tags = some k) (enabled : bitOf (s.hrcWord A.hrcCfg) 0 = true) :
    s.classify fr p = s.claim .arp fr := by
  unfold State.classify
  dsimp only
  rw [if_pos arp, if_neg (by simp [sound]), if_pos arp]
  exact if_pos ⟨request, by rw [served]; rfl, enabled⟩

/-! ### The PTP engine's intake -/

/-- A frame that is not claimed for PTP is received as the MAC receives it. -/
theorem frameIn_of {s : State} {sl : Nat} {x : RxPhys} {l : List Claim} (claims : (s.frameRx sl x).ports.claims = s.ports.claims ++ l)
    (other : ∀ c ∈ l, c.kind ≠ .ptp) : s.frameIn sl x = s.frameRx sl x := by
  unfold State.frameIn
  dsimp only
  rw [claims, List.drop_left]
  cases l with
  | nil => rfl
  | cons c l => exact if_neg (other c List.mem_cons_self)

/-- The same for a frame that leaves the claims as they are. -/
theorem frameIn_unclaimed {s : State} {sl : Nat} {x : RxPhys} (claims : (s.frameRx sl x).ports.claims = s.ports.claims) :
    s.frameIn sl x = s.frameRx sl x := frameIn_of (l := []) (claims.trans (List.append_nil _).symm) (fun _ m => nomatch m)

end Sys2Proof.Machine
end

section
/-!
SUPPORT. How a received frame is counted (R192 to R194, R198, R206, R219), and O16.
-/

set_option Elab.async false

namespace Sys2Proof.Machine

/-! ### How a frame ends -/

/-- The counter of how a frame ends, after what pause, weirs and good frames write; `u` has the registers of `t`. -/
theorem ReceiveKept.inc_rd {sl : Nat} {s t u : State} (kept : ReceiveKept sl s t) (h : CellList.wf resetOf s.regs = true) (unit : sl < 8)
    {a : Nat} (ending : a ∈ linkCounters sl) (apart : ¬ TrafficWord sl a ∧ 0x10000 ≤ a) (same : u.regs = t.regs := by rfl) :
    ((u.inc a).rd a).toNat = min ((s.rd a).toNat + 1) 0xFFFFFFFF := by
  have word : u.rd a = s.rd a := Eq.trans (by unfold State.rd; rw [same]) (kept.rd h apart)
  rw [Machine.inc_rd (same ▸ kept.regs h) (linkCounters_single sl unit a ending), word]

theorem inc_ports (s : State) (a : Nat) : (s.inc a).ports = s.ports := PartFrame.inc s a .ports (by decide)

section
variable {s : State} {sl ago : Nat} {d : Bytes} {good : Bool} (h : CellList.wf resetOf s.regs = true) (unit : sl < 8)
  (listed : sl < s.ports.links.length) (up : s.linkUp sl = true) (idle : (s.lnk sl).rxExpress = none)
include h listed up idle

/-- A whole express frame on an idle link that finds its cells and is no longer than MAX_FRAME. -/
theorem frameRx_ended
    (fits : s.cellsHeld sl + cellsFor (min (d.length + 4) (s.maxFrame sl 0 + 1)) ≤ cellsOf (s.macMode (sl / 4)))
    (short : d.length + 4 ≤ s.maxFrame sl 0) :
    ∃ t, ReceiveKept sl s t ∧ s.frameRx sl ⟨.express, .frame good, d, ago, false, 0, 0⟩ = t.frameEnded sl (s.nowPs - ago) d good := by
  obtain ⟨t, kept, eq⟩ := frameRx_fits h listed up idle (d := d) ago good fits
  exact ⟨t, kept, eq.trans (if_neg (Nat.not_lt.mpr short))⟩

include unit

theorem frameIn_runt
    (fits : s.cellsHeld sl + cellsFor (min (d.length + 4) (s.maxFrame sl 0 + 1)) ≤ cellsOf (s.macMode (sl / 4)))
    (runt : d.length + 4 < 64) (short : d.length + 4 ≤ s.maxFrame sl 0) :
    ((s.frameIn sl ⟨.express, .frame good, d, ago, false, 0, 0⟩).rd (A.macLinkRunt sl)).toNat =
        min ((s.rd (A.macLinkRunt sl)).toNat + 1) 0xFFFFFFFF ∧
      ((s.frameIn sl ⟨.express, .frame good, d, ago, false, 0, 0⟩).lnk sl).rxExpress = none := by
  obtain ⟨t, kept, eq⟩ := frameRx_ended h listed up idle (ago := ago) (good := good) fits short
  rw [State.frameEnded, if_pos runt] at eq
  rw [frameIn_unclaimed (by rw [eq, inc_ports, kept.claims]), eq]
  exact ⟨kept.inc_rd h unit (by simp [linkCounters]) (not_trafficWord sl _ (by simp)),
    (congrArg Link.rxExpress (lnk_congr (inc_ports _ _) sl)).trans (kept.express.trans idle)⟩

theorem frameIn_oversize
    (fits : s.cellsHeld sl + cellsFor (min (d.length + 4) (s.maxFrame sl 0 + 1)) ≤ cellsOf (s.macMode (sl / 4)))
    (long : s.maxFrame sl 0 < d.length + 4) :
    ((s.frameIn sl ⟨.express, .frame good, d, ago, false, 0, 0⟩).rd (A.macLinkOversize sl)).toNat =
        min ((s.rd (A.macLinkOversize sl)).toNat + 1) 0xFFFFFFFF ∧
      ((s.frameIn sl ⟨.express, .frame good, d, ago, false, 0, 0⟩).lnk sl).rxExpress = none := by
  obtain ⟨t, kept, eq⟩ := frameRx_fits h listed up idle (d := d) ago good fits
  rw [if_pos long] at eq
  rw [frameIn_unclaimed (by rw [eq, inc_ports, kept.claims]), eq]
  exact ⟨kept.inc_rd h unit (by simp [linkCounters]) (not_trafficWord sl _ (by simp)),
    (congrArg Link.rxExpress (lnk_congr (inc_ports _ _) sl)).trans (kept.express.trans idle)⟩

theorem frameIn_full
    (full : cellsOf (s.macMode (sl / 4)) < s.cellsHeld sl + cellsFor (min (d.length + 4) (s.maxFrame sl 0 + 1))) :
    ((s.frameIn sl ⟨.express, .frame good, d, ago, false, 0, 0⟩).rd (A.macLinkFullDrop sl)).toNat =
      min ((s.rd (A.macLinkFullDrop sl)).toNat + 1) 0xFFFFFFFF := by
  obtain ⟨t, kept, eq⟩ := frameRx_full h listed up idle ago good full
  have claims : ((t.inc (A.macLinkFullDrop sl)).setRx sl true none).ports.claims = s.ports.claims :=
    (congrArg Ports.claims (inc_ports t _)).trans kept.claims
  rw [frameIn_unclaimed (by rw [eq, claims]), eq]
  exact kept.inc_rd h unit (by simp [linkCounters]) (not_trafficWord sl _ (by simp))

theorem frameIn_fcs
    (fits : s.cellsHeld sl + cellsFor (min (d.length + 4) (s.maxFrame sl 0 + 1)) ≤ cellsOf (s.macMode (sl / 4)))
    (long : 60 ≤ d.length) (short : d.length + 4 ≤ s.maxFrame sl 0) :
    ((s.frameIn sl ⟨.express, .frame false, d, ago, false, 0, 0⟩).rd (A.macLinkFcsErr sl)).toNat =
        min ((s.rd (A.macLinkFcsErr sl)).toNat + 1) 0xFFFFFFFF ∧
      (s.frameIn sl ⟨.express, .frame false, d, ago, false, 0, 0⟩).ports.claims = s.ports.claims := by
  obtain ⟨t, kept, eq⟩ := frameRx_ended h listed up idle (ago := ago) (good := false) fits short
  rw [State.frameEnded, if_neg (by omega), if_neg Bool.false_ne_true] at eq
  have claims : (t.inc (A.macLinkFcsErr sl)).ports.claims = s.ports.claims := (congrArg Ports.claims (inc_ports t _)).trans kept.claims
  rw [frameIn_unclaimed (by rw [eq, claims]), eq]
  exact ⟨kept.inc_rd h unit (by simp [linkCounters]) (not_trafficWord sl _ (by simp)), claims⟩

theorem frameIn_control
    (fits : s.cellsHeld sl + cellsFor (min (d.length + 4) (s.maxFrame sl 0 + 1)) ≤ cellsOf (s.macMode (sl / 4)))
    (long : 60 ≤ d.length) (short : d.length + 4 ≤ s.maxFrame sl 0) (control : (packetOf d).etype = 0x8808)
    (other : beAt (packetOf d).body 0 2 ≠ 1) :
    ((s.frameIn sl ⟨.express, .frame true, d, ago, false, 0, 0⟩).rd (A.macLinkCtrlOther sl)).toNat =
        min ((s.rd (A.macLinkCtrlOther sl)).toNat + 1) 0xFFFFFFFF ∧
      (s.frameIn sl ⟨.express, .frame true, d, ago, false, 0, 0⟩).ports.claims = s.ports.claims := by
  obtain ⟨t, kept, eq⟩ := frameRx_ended h listed up idle (ago := ago) (good := true) fits short
  rw [State.frameEnded, if_neg (by omega), if_pos rfl, goodFrame_control _ _ _ control other] at eq
  have counted := kept.trans (goodFrame_counted t sl d).1
  have claims := (congrArg Ports.claims (inc_ports _ (A.macLinkCtrlOther sl))).trans counted.claims
  rw [frameIn_unclaimed (by rw [eq, claims]), eq]
  exact ⟨counted.inc_rd h unit (by simp [linkCounters]) (not_trafficWord sl _ (by simp)), claims⟩

theorem frameIn_arp
    (fits : s.cellsHeld sl + cellsFor (min (d.length + 4) (s.maxFrame sl 0 + 1)) ≤ cellsOf (s.macMode (sl / 4)))
    (long : 60 ≤ d.length) (short : d.length + 4 ≤ s.maxFrame sl 0) (arp : (packetOf d).etype = 0x0806)
    (ip : (packetOf d).ipSumOk = true) (udp : (packetOf d).udpSumOk = true) (request : beAt (packetOf d).body 6 2 = 1)
    (sound : s.atFaulty sl (mapped (slice (packetOf d).body 24 4)) (packetOf d).tags = false) {k : Nat}
    (served : s.matchAddr sl (mapped (slice (packetOf d).body 24 4)) (packetOf d).tags = some k)
    (enabled : bitOf (s.hrcWord A.hrcCfg) 0 = true) :
    (s.frameIn sl ⟨.express, .frame true, d, ago, false, 0, 0⟩).ports.claims =
      s.ports.claims ++ [⟨.arp, ⟨sl, s.rxInstant sl (s.nowPs - ago), d⟩⟩] := by
  obtain ⟨t, kept, eq⟩ := frameRx_ended h listed up idle (ago := ago) (good := true) fits short
  rw [State.frameEnded, if_neg (by omega), if_pos rfl, goodFrame_arp _ _ _ arp ip udp] at eq
  have counted := kept.trans (goodFrame_counted t sl d).1
  generalize (t.inc (A.macLinkRxFrames sl)).count (A.macLinkRxOctets sl) (d.length + 4) = v at eq counted
  have claimed : v.classify ⟨sl, t.rxInstant sl (s.nowPs - ago), d⟩ (packetOf d) = v.claim .arp ⟨sl, t.rxInstant sl (s.nowPs - ago), d⟩ :=
    classify_arp arp request ((counted.atFaulty h unit _ _).trans sound) ((counted.matchAddr h unit _ _).trans served)
      ((congrArg (fun w => bitOf w 0) (counted.hrcWord h unit (by decide))).trans enabled)
  rw [claimed, kept.rxInstant h] at eq
  have claims : (s.frameRx sl ⟨.express, .frame true, d, ago, false, 0, 0⟩).ports.claims =
      s.ports.claims ++ [⟨.arp, ⟨sl, s.rxInstant sl (s.nowPs - ago), d⟩⟩] := by
    rw [eq]
    exact congrArg (· ++ _) counted.claims
  rw [frameIn_of claims (by simp), claims]

end

/-! ### Delimiters and fragments (R206) -/

theorem frameIn_down {s : State} {sl : Nat} (down : s.linkUp sl = false) (x : RxPhys) : s.frameIn sl x = s := by
  have eq : s.frameRx sl x = s := if_pos down
  rw [frameIn_unclaimed (by rw [eq]), eq]

theorem frameIn_unknown {s : State} (h : CellList.wf resetOf s.regs = true) {sl : Nat} (unit : sl < 8) (up : s.linkUp sl = true)
    {x : RxPhys} (unknown : x.smd = .unknown) :
    ((s.frameIn sl x).rd (A.macLinkSmdErr sl)).toNat = min ((s.rd (A.macLinkSmdErr sl)).toNat + 1) 0xFFFFFFFF ∧
      (s.frameIn sl x).ports = s.ports := by
  obtain ⟨t, kept, ports, eq⟩ := frameRx_up up x
  have smd : t.rxSmd sl x = t.inc (A.macLinkSmdErr sl) := by
    unfold State.rxSmd
    rw [unknown]
  have same : (t.inc (A.macLinkSmdErr sl)).ports = s.ports := (inc_ports t _).trans ports
  rw [frameIn_unclaimed (by rw [eq, smd, same]), eq, smd]
  exact ⟨kept.inc_rd h unit (by simp [linkCounters]) (not_trafficWord sl _ (by simp)), same⟩

theorem frameIn_fragment {s : State} (h : CellList.wf resetOf s.regs = true) {sl : Nat} (unit : sl < 8)
    (listed : sl < s.ports.links.length) (up : s.linkUp sl = true) (idle : (s.lnk sl).rxPre = none) {d : Bytes} (f ago : Nat)
    (fits : s.cellsHeld sl + cellsFor (min d.length (s.maxFrame sl 0 + 1)) ≤ cellsOf (s.macMode (sl / 4)))
    (short : d.length ≤ s.maxFrame sl 0) :
    ((s.frameIn sl ⟨.start f, .fragment true, d, ago, false, 0, 0⟩).rd (A.macLinkFragRx sl)).toNat =
        min ((s.rd (A.macLinkFragRx sl)).toNat + 1) 0xFFFFFFFF ∧
      ((s.frameIn sl ⟨.start f, .fragment true, d, ago, false, 0, 0⟩).lnk sl).rxPre = some ⟨f % 4, 1, s.nowPs - ago, d, false, false⟩ := by
  obtain ⟨t, kept, -, eq⟩ := frameRx_up up ⟨.start f, .fragment true, d, ago, false, 0, 0⟩
  have free : t.rxOpen sl false = none := kept.pre.trans idle
  rw [← kept.macMode h, ← kept.cellsHeld h, ← kept.maxFrame h] at fits
  obtain ⟨w, reached, bytes⟩ := rxBytes_fits (d := d) (n := d.length) (r := ⟨f % 4, 1, s.nowPs - ago, [], false, false⟩) free rfl
    (by simpa using fits)
  have whole := kept.trans reached
  rw [if_neg (by simpa [kept.maxFrame h] using short)] at bytes
  have smd : s.frameRx sl ⟨.start f, .fragment true, d, ago, false, 0, 0⟩ =
      (w.setRx sl false (some ⟨f % 4, 1, s.nowPs - ago, d, false, false⟩)).inc (A.macLinkFragRx sl) := by
    rw [eq]
    unfold State.rxSmd
    dsimp only
    rw [rxFail_idle free, kept.nowPs]
    exact congrArg (·.inc (A.macLinkFragRx sl)) bytes
  have claims := (congrArg Ports.claims (inc_ports (w.setRx sl false (some ⟨f % 4, 1, s.nowPs - ago, d, false, false⟩))
    (A.macLinkFragRx sl))).trans whole.claims
  rw [frameIn_unclaimed (by rw [smd, claims]), smd]
  constructor
  · exact whole.inc_rd h unit (a := A.macLinkFragRx sl) (by simp [linkCounters]) (not_trafficWord sl _ (by simp))
  · exact (congrArg Link.rxPre (lnk_congr (inc_ports _ _) sl)).trans (rxOpen_setRx (whole.length ▸ listed) false _)

/-- A continuation out of sequence drops the frame that is being reassembled. -/
theorem frameIn_sequence {s : State} (h : CellList.wf resetOf s.regs = true) {sl : Nat} (unit : sl < 8) (up : s.linkUp sl = true)
    {x : RxOpen} (reassembling : (s.lnk sl).rxPre = some x) (alive : x.dead = false) (clean : x.phy = false) (long : 64 ≤ x.data.length)
    {f n : Nat} (apart : x.frame ≠ f % 4 ∨ x.frags = 0 ∨ (x.frags - 1) % 4 ≠ n % 4) (ago : Nat) (d : Bytes) (e : RxEnd) (p : Bool) :
    ((s.frameIn sl ⟨.cont f n, e, d, ago, p, 0, 0⟩).rd (A.macLinkAssyErr sl)).toNat =
        min ((s.rd (A.macLinkAssyErr sl)).toNat + 1) 0xFFFFFFFF ∧
      ((s.frameIn sl ⟨.cont f n, e, d, ago, p, 0, 0⟩).lnk sl).rxPre = none := by
  have listed : sl < s.ports.links.length := listed_of_lnk fun empty => by rw [empty] at reassembling; nomatch reassembling
  obtain ⟨t, kept, -, eq⟩ := frameRx_up up ⟨.cont f n, e, d, ago, p, 0, 0⟩
  have held : t.rxOpen sl false = some x := kept.pre.trans reassembling
  have ended : t.rxSmd sl ⟨.cont f n, e, d, ago, p, 0, 0⟩ =
      ((t.inc (A.macLinkFragRx sl)).setRx sl false none).inc (A.macLinkAssyErr sl) := by
    have still : (t.inc (A.macLinkFragRx sl)).rxOpen sl false = some x :=
      (congrArg Link.rxPre (lnk_congr (inc_ports _ _) sl)).trans held
    unfold State.rxSmd
    dsimp only
    rw [held]
    dsimp only
    rw [if_neg (by omega)]
    unfold State.rxFail
    rw [still]
    dsimp only
    rw [alive, clean, if_neg Bool.false_ne_true, if_neg (by omega), if_neg Bool.false_ne_true]
  have links : (t.inc (A.macLinkFragRx sl)).ports = t.ports := inc_ports _ _
  have claims : (((t.inc (A.macLinkFragRx sl)).setRx sl false none).inc (A.macLinkAssyErr sl)).ports.claims = s.ports.claims :=
    (congrArg Ports.claims (inc_ports _ _)).trans ((congrArg Ports.claims links).trans kept.claims)
  have apart : (t.inc (A.macLinkFragRx sl)).rd (A.macLinkAssyErr sl) = s.rd (A.macLinkAssyErr sl) := by
    have frame : RegFrame (fun a => a = A.macLinkFragRx sl) t (t.inc (A.macLinkFragRx sl)) :=
      .inc t _ rfl (fun pair => by rw [linkCounters_single sl unit _ (by simp [linkCounters])] at pair; nomatch pair)
    exact ((frame (kept.regs h)).2 _ (by unfold A.macLinkAssyErr A.macLinkFragRx; omega)).trans (kept.rd h (not_trafficWord sl _ (by simp)))
  rw [frameIn_unclaimed (by rw [eq, ended, claims]), eq, ended]
  constructor
  · refine (inc_rd (s := (t.inc (A.macLinkFragRx sl)).setRx sl false none) (inc_regs (kept.regs h) _)
      (linkCounters_single sl unit _ (by simp [linkCounters]))).trans ?_
    exact congrArg (fun w : Word => min (w.toNat + 1) 0xFFFFFFFF) apart
  · exact (congrArg Link.rxPre (lnk_congr (inc_ports _ _) sl)).trans
      (rxOpen_setRx (by rw [links, kept.length]; exact listed) false _)

/-! ### The obligation -/

/-- Settles O16: reception comes down to the frame's one end (`frameRx_fits`, `frameRx_full`), since pause and weirs leave what is
received, the claims and the counters of how a frame ends alone (`ReceiveKept`). -/
theorem frameReceptionCompletes : Obligations.FrameReceptionCompletes := by
  unfold Obligations.FrameReceptionCompletes
  refine ⟨fun s u dt link x canonical eq unit down =>
      completes_afterIf (·.frameIn link x) rfl (decide_eq_true unit) eq (frameIn_down down x),
    fun s u dt link ago d g canonical eq unit listed up idle fits runt short =>
      completes_afterIf (·.frameIn link _) rfl (decide_eq_true unit) eq (frameIn_runt ?_ unit listed up idle fits runt short),
    fun s u dt link ago d g canonical eq unit listed up idle fits long =>
      completes_afterIf (·.frameIn link _) rfl (decide_eq_true unit) eq (frameIn_oversize ?_ unit listed up idle fits long),
    fun s u dt link ago d g canonical eq unit listed up idle full =>
      completes_afterIf (·.frameIn link _) rfl (decide_eq_true unit) eq (frameIn_full ?_ unit listed up idle full),
    fun s u dt link ago d canonical eq unit listed up idle fits long short =>
      completes_afterIf (·.frameIn link _) rfl (decide_eq_true unit) eq (frameIn_fcs ?_ unit listed up idle fits long short),
    fun s u dt link ago d canonical eq unit listed up idle fits long short control other =>
      completes_afterIf (·.frameIn link _) rfl (decide_eq_true unit) eq
        (frameIn_control ?_ unit listed up idle fits long short control other),
    fun s u dt link ago k d canonical eq unit listed up idle fits long short arp ip udp request sound served enabled =>
      completes_afterIf (·.frameIn link _) rfl (decide_eq_true unit) eq
        (frameIn_arp ?_ unit listed up idle fits long short arp ip udp request sound served enabled),
    fun s u dt link ago fc fu e d p canonical eq unit up =>
      completes_afterIf (·.frameIn link _) rfl (decide_eq_true unit) eq (frameIn_unknown ?_ unit up rfl),
    fun s u dt link ago f d canonical eq unit listed up idle fits short =>
      completes_afterIf (·.frameIn link _) rfl (decide_eq_true unit) eq (frameIn_fragment ?_ unit listed up idle f ago fits short),
    fun s u dt link ago f n d e x p canonical eq unit up reassembling alive clean long apart =>
      completes_afterIf (·.frameIn link _) rfl (decide_eq_true unit) eq
        (frameIn_sequence ?_ unit up reassembling alive clean long apart ago d e p)⟩
  all_goals exact regs_of_canonical (eq ▸ advance_canonical canonical dt)

end Sys2Proof.Machine
end

section
/-!
SUPPORT. A link that goes DOWN with a host frame of a ring that does not exist (R185), and O17.
-/

set_option Elab.async false

namespace Sys2Proof.Machine

/-- A ring whose oldest started work has not ended. -/
def workingRing : Ring := { Ring.off with started := [(⟨0, 0, 0, 0, [], 0, 0, false⟩, none)] }

/-- Link 0 is UP, and a host frame of ring 29,312, which is RUNNING, waits in its queue. The state's form puts no bound on
its rings, and POSTED of that ring would stand at the address of link 0's EVENT register. -/
def strayRing : State :=
  { (State.reset.wr (A.macLinkStatus 0) 1).wr (A.hifRingState 29312) 1 with
    hif := { State.reset.hif with rings := List.replicate 29313 workingRing }
    ports := { State.reset.ports with links := modAt State.reset.ports.links 0 (fun l =>
      { l with queue := [⟨[], some (29312, 0, 0), none⟩] }) } }

theorem strayRing_event : ((strayRing.advance 0).anyDown 0 .block).bit (A.macLinkEvent 0) 1 = false := by decide +kernel

/-- Refutes O17: a link that goes DOWN raises its event and then completes the host frames it still had to send (R185).
Among the states that the statement covers is one whose frame names a ring beyond the 256 that exist, and the completion
on that ring writes POSTED = 1 over the event just raised. -/
theorem not_linkEventsComplete : ¬ Obligations.LinkEventsComplete := by
  unfold Obligations.LinkEventsComplete
  rintro ⟨-, -, -, -, -, -, -, -, goesDown, -⟩
  have canonical : strayRing.canonical = true := by decide +kernel
  obtain ⟨t, next, -, -, raised⟩ := goesDown strayRing _ 0 0 .block canonical rfl (by decide) rfl (by decide +kernel)
  obtain rfl := Host.Outcome.next.inj next
  exact absurd (strayRing_event.symm.trans raised) (by decide)

end Sys2Proof.Machine
end

section
/-!
SUPPORT. Counters of two words, claims and moves: what one operation makes of each (R220, R221, R223, R361).
-/

set_option Elab.async false

namespace Sys2Proof.Machine

/-! ### Counters of two words (R361) -/

theorem rd64_of_rd {s t : State} {a : Nat} (low : t.rd a = s.rd a) (high : t.rd (a + 4) = s.rd (a + 4)) : t.rd64 a = s.rd64 a := by
  rw [State.rd64, State.rd64, low, high]

/-- A quantity of 64 bits after it was written. -/
theorem rd64_wr64 {s : State} (h : CellList.wf resetOf s.regs = true) (a : Nat) {n : Nat} (small : n < 2 ^ 64) :
    (s.wr64 a (n : Int)).rd64 a = n := by
  have number : unsigned (n : Int) 64 = n := by unfold unsigned; omega
  have low : (s.wr64 a (n : Int)).rd a = word n := by
    rw [State.wr64, rd_wr _ _ _ _ (CellList.wf_set resetOf _ _ _ h), if_neg (by omega), rd_wr _ _ _ _ h, if_pos rfl, number]
  have high : (s.wr64 a (n : Int)).rd (a + 4) = word (n >>> 32) := by
    rw [State.wr64, rd_wr _ _ _ _ (CellList.wf_set resetOf _ _ _ h), if_pos rfl, number]
  rw [State.rd64, low, high, word, word, BitVec.toNat_ofNat, BitVec.toNat_ofNat, Nat.shiftRight_eq_div_pow]
  omega

/-- A counter of two words counts occurrences up to its largest value. -/
theorem count_rd64 {s : State} (h : CellList.wf resetOf s.regs = true) {a : Nat} (pair : (pairRowOf a).isSome = true) (n : Nat) :
    (s.count a n).rd64 a = min (s.rd64 a + n) (2 ^ 64 - 1) := by
  unfold State.count
  rw [if_pos pair]
  exact rd64_wr64 h a (by omega)

/-! ### Claims (R220, R221) -/

/-- The state without a claim. -/
def State.unclaim (s : State) (c : Claim) : State := { s with ports := { s.ports with claims := s.ports.claims.erase c } }

theorem takeClaim_of_find {s : State} {p : Claim → Bool} {c : Claim} (found : s.ports.claims.find? p = some c) :
    s.takeClaim p = some (c, s.unclaim c) := by
  rw [State.takeClaim, found]
  rfl

theorem queuePre_claims (s : State) (sl : Nat) (d : Bytes) (ring : Option (Nat × Nat × Nat)) (counter : Option Nat) :
    (s.queuePre sl d ring counter).ports.claims = s.ports.claims := rfl

theorem queuePre_length {s : State} {sl : Nat} (listed : sl < s.ports.links.length) (d : Bytes) (ring : Option (Nat × Nat × Nat))
    (counter : Option Nat) : ((s.queuePre sl d ring counter).lnk sl).queue.length = (s.lnk sl).queue.length + 1 := by
  rw [State.queuePre, lnk_setLink listed]
  exact List.length_append

/-- The answer to the oldest claimed ARP request stands on its link's preemptable queue. -/
theorem answerArp_queued {s : State} {c : Claim} (oldest : s.ports.claims.find? (fun x => decide (x.kind = .arp)) = some c)
    (listed : c.frame.sl < s.ports.links.length) :
    s.answerArp.ports.claims = s.ports.claims.erase c ∧
      (s.answerArp.lnk c.frame.sl).queue.length = (s.lnk c.frame.sl).queue.length + 1 := by
  unfold State.answerArp
  rw [takeClaim_of_find oldest]
  exact ⟨queuePre_claims _ _ _ _ _, queuePre_length (s := s.unclaim c) listed _ _ _⟩

/-- The advertisement for the oldest claimed solicitation stands on its link's preemptable queue. -/
theorem answerNd_queued {s : State} {c : Claim} (oldest : s.ports.claims.find? (fun x => decide (x.kind = .nd)) = some c)
    (listed : c.frame.sl < s.ports.links.length) :
    s.answerNd.ports.claims = s.ports.claims.erase c ∧
      (s.answerNd.lnk c.frame.sl).queue.length = (s.lnk c.frame.sl).queue.length + 1 := by
  unfold State.answerNd
  rw [takeClaim_of_find oldest]
  exact ⟨queuePre_claims _ _ _ _ _, queuePre_length (s := s.unclaim c) listed _ _ _⟩

/-! ### Frames of an exception class (R220, R337) -/

/-- A claim of an exception class. -/
def Claim.isException (c : Claim) : Bool :=
  match c.kind with
  | .exc _ => true
  | _ => false

theorem excRing_lt (s : State) (k : Nat) : s.excRing k < 256 := by
  unfold State.excRing
  split
  · exact Nat.mod_lt _ (by decide)
  · decide

theorem inHif_hifRingState {n : Nat} (h : n < 256) : InHif (A.hifRingState n) := by
  unfold InHif A.hifRingState
  omega

theorem inHif_hifRingDrop {n : Nat} (h : n < 256) : InHif (A.hifRingDrop n) ∧ InHif (A.hifRingDrop n + 4) := by
  unfold InHif A.hifRingDrop
  omega

theorem RegFrame.showRing_hif (s : State) {n : Nat} (h : n < 256) : RegFrame InHif s (s.showRing n) := .sfW s _ _ _ _ (inHif_hifRingState h)

theorem RegFrame.ringDrop_hif (s : State) {n : Nat} (h : n < 256) : RegFrame InHif s (s.ringDrop n) := by
  have counted : RegFrame InHif s ((s.inc (A.hifRingDrop n)).setRing n (fun r => { r with dropped := r.dropped + 1 })) :=
    (RegFrame.inc s _ (inHif_hifRingDrop h).1 (fun _ => (inHif_hifRingDrop h).2)).trans (.setRing _ n _)
  unfold State.ringDrop
  extract_lets t due k
  exact .ite (fun _ => counted.trans (.trans (.setRing _ n _) (.postEvent_hif _ _ _ _ _ _))) (fun _ => counted)

theorem RegFrame.giveBuffer (s : State) {n : Nat} (h : n < 256) (p : Desc × Bytes × Nat) : RegFrame InHif s (s.giveBuffer n p) :=
  .ite (fun _ => .postCompletion s n _ _ _ _ _ (inHif_hifRingPosted h))
    (fun _ => (RegFrame.postCompletion (s.hostWrite _ _) n _ _ _ _ _ (inHif_hifRingPosted h)).before)

/-- A frame delivered to one of the 256 rings writes registers of block HIF alone. -/
theorem RegFrame.deliverFrame (s : State) {n : Nat} (h : n < 256) (cls sl stamp : Nat) (frame : Bytes) :
    RegFrame InHif s (s.deliverFrame n cls sl stamp frame) := by
  unfold State.deliverFrame
  refine .ite (fun _ => ?_) (fun _ => .ringDrop_hif s h)
  exact .trans (.trans (.trans (.setRing s n _) (.each _ _ (fun p _ t => .giveBuffer t h p) _))
    (.settleBad _ n (inHif_hifRingPosted h))) (.showRing_hif _ h)

theorem unclaimed_single : ∀ sl < 8, pairRowOf (A.macLinkUnclaimed sl) = none := by decide +kernel

theorem rxToHost_pair : ∀ sl < 8, (pairRowOf (A.macLinkRxToHost sl)).isSome = true := by decide +kernel

theorem exceptionFrame_of {s : State} {c : Claim} {k : Nat}
    (oldest : s.ports.claims.find? Claim.isException = some c) (cls : c.kind = .exc k) :
    s.exceptionFrame = if s.excRing k = 0xFF then (s.unclaim c).inc (A.macLinkUnclaimed c.frame.sl)
      else ((s.unclaim c).inc (A.macLinkRxToHost c.frame.sl)).deliverFrame (s.excRing k) k c.frame.sl (stampOfPs c.frame.tRx)
        c.frame.data := by
  have taken := takeClaim_of_find oldest
  unfold State.exceptionFrame
  split
  case h_1 none => exact absurd (taken.symm.trans none) (by simp)
  case h_2 d t some =>
    obtain ⟨rfl, rfl⟩ := Prod.mk.inj (Option.some.inj (some.symm.trans taken))
    rw [cls]
    rfl

theorem exceptionFrame_unclaimed {s : State} (h : CellList.wf resetOf s.regs = true) {c : Claim} {k : Nat}
    (oldest : s.ports.claims.find? Claim.isException = some c) (cls : c.kind = .exc k)
    (noRing : s.excRing k = 0xFF) (unit : c.frame.sl < 8) :
    s.exceptionFrame.ports.claims = s.ports.claims.erase c ∧
      (s.exceptionFrame.rd (A.macLinkUnclaimed c.frame.sl)).toNat =
        min ((s.rd (A.macLinkUnclaimed c.frame.sl)).toNat + 1) 0xFFFFFFFF := by
  rw [exceptionFrame_of oldest cls, if_pos noRing]
  exact ⟨congrArg Ports.claims (inc_ports (s.unclaim c) _), count_rd (s := s.unclaim c) h (unclaimed_single _ unit) 1⟩

theorem exceptionFrame_delivered {s : State} (h : CellList.wf resetOf s.regs = true) {c : Claim} {k : Nat}
    (oldest : s.ports.claims.find? Claim.isException = some c) (cls : c.kind = .exc k)
    (ring : s.excRing k ≠ 0xFF) (unit : c.frame.sl < 8) :
    s.exceptionFrame.ports.claims = s.ports.claims.erase c ∧
      s.exceptionFrame.rd64 (A.macLinkRxToHost c.frame.sl) = min (s.rd64 (A.macLinkRxToHost c.frame.sl) + 1) (2 ^ 64 - 1) := by
  rw [exceptionFrame_of oldest cls, if_neg ring]
  obtain ⟨-, kept⟩ := RegFrame.deliverFrame ((s.unclaim c).inc (A.macLinkRxToHost c.frame.sl)) (excRing_lt s k) k c.frame.sl
    (stampOfPs c.frame.tRx) c.frame.data (inc_regs (s := s.unclaim c) h _)
  have ports := PartFrame.deliverFrame ((s.unclaim c).inc (A.macLinkRxToHost c.frame.sl)) (s.excRing k) k c.frame.sl
    (stampOfPs c.frame.tRx) c.frame.data .ports (by decide)
  constructor
  · exact congrArg Ports.claims (ports.trans (inc_ports (s.unclaim c) _))
  · refine (rd64_of_rd (kept _ ?_) (kept _ ?_)).trans (count_rd64 (s := s.unclaim c) h (rxToHost_pair _ unit) 1)
    all_goals exact not_inHif_of_le (by unfold A.macLinkRxToHost; omega)

/-! ### Moves of buckets (R223) -/

theorem setQueue_moves (s : State) (p : Nat) (f : List Request → List Request) : (s.setQueue p f).hrc.moves = s.hrc.moves := rfl

theorem handToPipe_moves (s : State) (p : Nat) (r : Request) : (s.handToPipe p r).hrc.moves = s.hrc.moves := by
  have dropped : (s.queueDrop.sampleDrop r 5 0x20).hrc = s.hrc :=
    ((PartFrame.queueDrop s).mono.trans (PartFrame.sampleDrop s.queueDrop r 5 0x20)) .hrc (by decide)
  have queued : (s.enqueue p r).1.hrc.moves = s.hrc.moves := by
    unfold State.enqueue
    split
    · exact setQueue_moves s p _
    · exact congrArg Hrc.moves dropped
  unfold State.handToPipe
  dsimp only
  split
  · exact (congrArg Hrc.moves (PartFrame.inc _ _ .hrc (by decide))).trans queued
  · exact queued

theorem showPipes_moves (s : State) : s.showPipes.hrc.moves = s.hrc.moves :=
  congrArg Hrc.moves (PartFrame.showPipes s .hrc (by decide))

/-- A move that is over leaves the list of moves. -/
theorem endMove_moves {s : State} {b : Nat} {m : BucketMove} (moving : s.hrc.moves.find? (fun x => decide (x.bucket = b)) = some m)
    (settled : s.moveOver m = true) : (s.endMove b).hrc.moves = s.hrc.moves.filter (fun x => decide (x.bucket ≠ b)) := by
  unfold State.endMove
  rw [moving]
  dsimp only
  rw [if_pos settled, showPipes_moves]
  exact each_invariant (P := fun t => t.hrc.moves = s.hrc.moves.filter (fun x => decide (x.bucket ≠ b)))
    (fun r t held => (handToPipe_moves t m.dst r).trans held) m.held _ rfl

theorem bucketMoved_moves {s : State} {b : Nat} {m : BucketMove} (moving : s.hrc.moves.find? (fun x => decide (x.bucket = b)) = some m)
    (settled : s.moveOver m = true) : ∀ x ∈ (s.bucketMoved b).hrc.moves, x.bucket ≠ b := by
  have listed : s.hrc.moves.any (fun x => decide (x.bucket = b) && s.moveOver x) = true :=
    List.any_eq_true.mpr ⟨m, List.mem_of_find?_eq_some moving, by rw [List.find?_some moving, settled]; rfl⟩
  have ended : s.bucketMoved b = s.endMove b := if_pos listed
  intro x held
  rw [ended, endMove_moves moving settled] at held
  exact of_decide_eq_true (List.mem_filter.mp held).2

/-! ### Minting for the host (R246) -/

theorem RegFrame.drainRing_hif (s : State) {n : Nat} (h : n < 256) : RegFrame InHif s (s.drainRing n) := by
  unfold State.drainRing
  refine .ite (fun _ => ?_) (fun _ => .showRing_hif s h)
  exact .trans (.trans (.setRing s n _) (.each _ _ (fun _ _ t => .postCompletion t n _ _ _ _ _ (inHif_hifRingPosted h)) _))
    (.showRing_hif _ h)

theorem RegFrame.endWork_hif (s : State) {n : Nat} (h : n < 256) (slot status length : Nat) :
    RegFrame InHif s (s.endWork n slot status length) := .trans (.setRing s n _) (.drainRing_hif _ h)

theorem RegFrame.startWork_hif (s : State) {n : Nat} (h : n < 256) : RegFrame InHif s (s.startWork n).2 := by
  unfold State.startWork
  split
  · exact .refl _ s
  · exact .trans (.setRing s n _) (.settleBad _ n (inHif_hifRingPosted h))

theorem RegFrame.mintCookies {W : Nat → Prop} (s : State) (c2s s2c : Bytes) (field : Bool) (n : Nat) :
    RegFrame W s (s.mintCookies c2s s2c field n).2 := .same (PartFrame.mintCookies s c2s s2c field n .regs (by decide))

/-- What a mint job may write after it counted itself. -/
abbrev MintWord (a : Nat) : Prop := a ≠ A.ntsMintJobs

theorem mintWord_of_hif {a : Nat} (h : InHif a) : MintWord a := by
  rintro rfl
  exact not_inHif_of_le (by decide) h

theorem ntsMintCfg_ring_lt (s : State) : s.f A.ntsMintCfg 8 8 < 256 := Nat.mod_lt _ (by decide)

/-- A record read for waiting work of the mint ring counts in MINT_JOBS, whatever its outcome. -/
theorem mintJob_counted {s : State} (h : CellList.wf resetOf s.regs = true) (m : Bytes) {d : Desc} (enabled : s.bit A.ntsMintCfg 0 = true)
    (type : s.ringType (s.f A.ntsMintCfg 8 8) = 5) (live : s.ringLive (s.f A.ntsMintCfg 8 8) = true)
    (waiting : (s.startWork (s.f A.ntsMintCfg 8 8)).1 = some d) :
    ((s.mintJob (some m)).rd A.ntsMintJobs).toNat = min ((s.rd A.ntsMintJobs).toNat + 1) 0xFFFFFFFF := by
  have ring := ntsMintCfg_ring_lt s
  unfold State.mintJob
  extract_lets n
  rw [if_neg (by simp [n, enabled, type, live])]
  split
  case h_1 t eq => exact absurd (waiting.symm.trans (congrArg Prod.fst eq)) (by simp)
  case h_2 e t eq =>
    extract_lets u v
    have begun : RegFrame InHif s u := by
      have started : RegFrame InHif s t := by
        have work := RegFrame.startWork_hif s ring
        rwa [show s.startWork (s.f A.ntsMintCfg 8 8) = (some e, t) from eq] at work
      exact .ite (fun _ => started.after) (fun _ => started)
    obtain ⟨regs, kept⟩ := begun h
    have counted : (v.rd A.ntsMintJobs).toNat = min ((s.rd A.ntsMintJobs).toNat + 1) 0xFFFFFFFF :=
      (count_rd regs (by decide +kernel) 1).trans
        (congrArg (fun x : Word => min (x.toNat + 1) 0xFFFFFFFF) (kept A.ntsMintJobs (not_inHif_of_le (by decide))))
    have ended : ∀ {x : State} (status length : Nat), RegFrame MintWord v x → RegFrame MintWord v (x.endWork n e.slot status length) :=
      fun status length before => before.trans ((RegFrame.endWork_hif _ ring _ status length).mono (fun _ => mintWord_of_hif))
    have last : ∀ {x : State}, RegFrame MintWord v x →
        (x.rd A.ntsMintJobs).toNat = min ((s.rd A.ntsMintJobs).toNat + 1) 0xFFFFFFFF := fun after =>
      (congrArg BitVec.toNat ((after (count_regs regs _ _)).2 A.ntsMintJobs (fun ne => ne rfl))).trans counted
    refine last (.ite (fun _ => ended 0 _ ?_) (fun _ => ended _ 0 ?_))
    · exact .trans (RegFrame.mintCookies v _ _ false _).after (.count _ A.ntsMinted _ (by decide) (fun _ => by decide))
    · exact .trans (.inc v A.ntsMintFail (by decide) (fun _ => by decide))
        (.raise_of _ A.ntsEvent 5 (by decide) (fun _ => mintWord_of_hif))

end Sys2Proof.Machine
end

section
/-!
SUPPORT. O19: the requests at the front of a pipeline's queue (R224, R232 to R240), and the obligation.
-/

set_option Elab.async false

namespace Sys2Proof.Machine

/-! ### What serving a request keeps -/

/-- A register other than the counters of requests taken, REQ_NTP and REQ_NTS of every pipeline. -/
def ServeWord (a : Nat) : Prop := ¬ (0x58000 ≤ a ∧ a < 0x60000 ∧ 0x100 ≤ a % 0x400 ∧ a % 0x400 < 0x110)

theorem serveWord_of_samples {a : Nat} (h : InSamples a) : ServeWord a := by
  unfold InSamples InHif at h
  unfold ServeWord
  omega

theorem serveWord_of_hif {a : Nat} (h : InHif a) : ServeWord a := serveWord_of_samples (.inr h)

/-- The counters of a pipeline behind those of the requests it took. -/
def pipeCounters (p : Nat) : List Nat :=
  [A.svpPipeAnswered p, A.svpPipeSlots p, A.svpPipePlainRefused p, A.svpPipeNtsOff p, A.svpPipeNtsMalformed p, A.svpPipeCookieKey p,
    A.svpPipeCookieFail p, A.svpPipeAuthFail p, A.svpPipeNtsnSent p, A.svpPipeSuppressed p, A.svpPipeRateDrop p, A.svpPipeRateAnswer p,
    A.svpPipeKodRate p, A.svpPipeUntracked p, A.svpPipeUntrackedDrop p, A.svpPipeEvict p]

theorem serveWord_counter {a p : Nat} (h : a ∈ pipeCounters p) : ServeWord a ∧ ServeWord (a + 4) := by
  simp only [pipeCounters, List.mem_cons, List.not_mem_nil, or_false] at h
  simp only [A.svpPipeAnswered, A.svpPipeSlots, A.svpPipePlainRefused, A.svpPipeNtsOff, A.svpPipeNtsMalformed, A.svpPipeCookieKey,
    A.svpPipeCookieFail, A.svpPipeAuthFail, A.svpPipeNtsnSent, A.svpPipeSuppressed, A.svpPipeRateDrop, A.svpPipeRateAnswer,
    A.svpPipeKodRate, A.svpPipeUntracked, A.svpPipeUntrackedDrop, A.svpPipeEvict] at h
  unfold ServeWord
  omega

/-- The requests that wait, and the counters of those taken, stay as they were. -/
structure ServeKept (s t : State) : Prop where
  regs : RegFrame ServeWord s t
  queues : t.hrc.queues = s.hrc.queues

theorem ServeKept.refl (s : State) : ServeKept s s := ⟨.refl _ s, rfl⟩

theorem ServeKept.trans {s t u : State} (h : ServeKept s t) (k : ServeKept t u) : ServeKept s u :=
  ⟨h.regs.trans k.regs, k.queues.trans h.queues⟩

theorem ServeKept.ite {c : Prop} [Decidable c] {s t u : State} (h : ServeKept s t) (k : ServeKept s u) :
    ServeKept s (if c then t else u) := by split <;> assumption

/-- A choice between two states that are each paired with an outcome. -/
theorem ServeKept.ite1 {c : Prop} [Decidable c] {α : Type} {s : State} {x y : State × α} (h : ServeKept s x.1) (k : ServeKept s y.1) :
    ServeKept s (if c then x else y).1 := by split <;> assumption

theorem ServeKept.of_partFrame {l : List Part} {s t : State} (regs : RegFrame ServeWord s t) (h : PartFrame l s t)
    (out : Part.hrc ∉ l := by decide) : ServeKept s t := ⟨regs, congrArg Hrc.queues (h .hrc out)⟩

theorem ServeKept.count (s : State) {a p : Nat} (n : Nat) (h : a ∈ pipeCounters p) : ServeKept s (s.count a n) :=
  .of_partFrame (.count s a n (serveWord_counter h).1 (fun _ => (serveWord_counter h).2)) (.count s a n)

theorem ServeKept.inc (s : State) {a p : Nat} (h : a ∈ pipeCounters p) : ServeKept s (s.inc a) := .count s 1 h

theorem ServeKept.raise (s : State) (b : Nat) : ServeKept s (s.raise A.svpEvent b) :=
  .of_partFrame (.raise_of s _ b (by unfold ServeWord; decide) (fun _ => serveWord_of_hif)) (.raise s _ b)

theorem ServeKept.setClient (s : State) (i : Nat) (r : ClientRec) : ServeKept s (s.setClient i r) := ⟨.same rfl, rfl⟩

theorem ServeKept.sampleDrop (s : State) (r : Request) (outcome detail : Nat) : ServeKept s (s.sampleDrop r outcome detail) :=
  .of_partFrame ((RegFrame.sampleFinal s _ none _).mono (fun _ => serveWord_of_samples)) (.sampleDrop s r outcome detail)

theorem serveWord_link (sl : Nat) : ServeWord (A.macLinkLinkDrop sl) ∧ ServeWord (A.macLinkLinkDrop sl + 4) ∧
    ServeWord (A.macLinkEvent sl) := by
  unfold ServeWord A.macLinkLinkDrop A.macLinkEvent
  omega

theorem ServeKept.handOver (s : State) (sl : Nat) (answer : Answer) (req : Option Request) (len : Nat) :
    ServeKept s (s.handOver sl answer req len) := by
  refine .of_partFrame ?_ (.handOver s sl answer req len)
  obtain ⟨drop, drop', event⟩ := serveWord_link sl
  have dropped : RegFrame ServeWord s (s.dropResponses sl (A.macLinkLinkDrop sl) 1) :=
    .ite (fun _ => .refl _ s) (fun _ => .trans (.count s _ 1 drop (fun _ => drop')) (.raise_of _ _ 8 event (fun _ => serveWord_of_hif)))
  exact .ite (fun _ => .same rfl) (fun _ => .trans (.when s _ _ dropped) ((RegFrame.sampleLost _ _ _).mono (fun _ => serveWord_of_samples)))

/-! ### The rate policy (R232 to R234) -/

theorem ServeKept.chargeUntracked (s : State) (r : Request) : ServeKept s (s.chargeUntracked r).1 := by
  unfold State.chargeUntracked
  extract_lets u w now q src t t₁
  have counted : ServeKept s t₁ := .trans (t := t) ⟨.same rfl, rfl⟩ (.inc t (p := r.pipe) (by simp [pipeCounters]))
  exact .ite1 (.trans counted (.inc _ (p := r.pipe) (by simp [pipeCounters]))) counted

theorem ServeKept.charge (s : State) (r : Request) : ServeKept s (s.charge r).1 := by
  unfold State.charge
  extract_lets i rec_ now sec live own idle fresh base q nr t t₁
  have stored : ServeKept s t := .setClient s i nr
  have charged : ServeKept s t₁ := .ite (stored.trans (.inc t (p := r.pipe) (by simp [pipeCounters]))) stored
  refine .ite1 (.chargeUntracked s r) (.ite1 charged (.ite1 ?_ (.ite1 charged ?_)))
  · exact charged.trans (.inc _ (p := r.pipe) (by simp [pipeCounters]))
  · exact (charged.trans (.inc _ (p := r.pipe) (by simp [pipeCounters]))).trans (.raise _ 1)

theorem ServeKept.kodOk (s : State) (r : Request) : ServeKept s (s.kodOk r).1 := by
  unfold State.kodOk
  refine .ite1 ?_ ?_
  · exact ((ServeKept.setClient s _ _).trans (.inc _ (p := r.pipe) (by simp [pipeCounters]))).trans (.raise _ 0)
  · exact (ServeKept.inc s (p := r.pipe) (by simp [pipeCounters])).trans (.raise _ 1)

/-! ### The request at the front (R224) -/

theorem popRequest_front {s : State} {p : Nat} {kind : ReqKind} {r : Request} {l : List Request} (front : s.queue p = r :: l)
    (same : r.kind = kind) : s.popRequest p kind = some (r, s.setQueue p (fun _ => l)) := by
  rw [State.popRequest, front]
  exact if_pos same

theorem queue_setQueue {s : State} {p : Nat} (listed : p < s.hrc.queues.length) (f : List Request → List Request) :
    (s.setQueue p f).queue p = f (s.queue p) := getD_modAt f [] s.hrc.queues p listed

theorem listed_of_queue {s : State} {p : Nat} {r : Request} {l : List Request} (front : s.queue p = r :: l) : p < s.hrc.queues.length := by
  by_contra beyond
  rw [State.queue, List.getD_eq_default _ _ (by omega)] at front
  nomatch front

/-- A request taken from the front and counted, whatever becomes of it after. -/
theorem taken_counted {s t : State} (h : CellList.wf resetOf s.regs = true) {p a : Nat} {r : Request} {l : List Request}
    (front : s.queue p = r :: l) (pair : (pairRowOf a).isSome = true) (own : ¬ ServeWord a ∧ ¬ ServeWord (a + 4))
    (status : a ≠ A.svpPipeStatus p ∧ a + 4 ≠ A.svpPipeStatus p)
    (served : ServeKept ((s.setQueue p (fun _ => l)).inc a) t) :
    t.queue p = l ∧ t.rd64 a = min (s.rd64 a + 1) (2 ^ 64 - 1) := by
  have popped : RegFrame (fun x => x = A.svpPipeStatus p) s (s.setQueue p (fun _ => l)) := .before (.sfW _ _ _ _ _ rfl)
  obtain ⟨regs, kept⟩ := popped h
  obtain ⟨-, after⟩ := served.regs (inc_regs regs a)
  have queues : t.hrc.queues = (s.setQueue p (fun _ => l)).hrc.queues :=
    served.queues.trans (congrArg Hrc.queues (PartFrame.inc _ a .hrc (by decide)))
  constructor
  · exact (congrArg (fun q => q.getD p []) queues).trans (queue_setQueue (listed_of_queue front) _)
  · rw [rd64_of_rd (after a own.1) (after (a + 4) own.2), State.inc, count_rd64 regs pair,
      rd64_of_rd (kept a status.1) (kept (a + 4) status.2)]

theorem svpPipeReqNtp_pair : ∀ p < 16, (pairRowOf (A.svpPipeReqNtp p)).isSome = true := by decide +kernel

theorem svpPipeReqNts_pair : ∀ p < 16, (pairRowOf (A.svpPipeReqNts p)).isSome = true := by decide +kernel

/-- The plain request at the front is taken and counted once, whether it is answered, refused, dropped or held back. -/
theorem ntpRequest_taken {s : State} (h : CellList.wf resetOf s.regs = true) {p : Nat} {r : Request} {l : List Request} (pipe : p < 16)
    (front : s.queue p = r :: l) (kind : r.kind = .ntp) :
    (s.ntpRequest p).queue p = l ∧ (s.ntpRequest p).rd64 (A.svpPipeReqNtp p) = min (s.rd64 (A.svpPipeReqNtp p) + 1) (2 ^ 64 - 1) := by
  refine taken_counted h front (svpPipeReqNtp_pair p pipe) (by unfold ServeWord A.svpPipeReqNtp; omega)
    (by unfold A.svpPipeReqNtp A.svpPipeStatus; omega) ?_
  have popped := popRequest_front front kind
  unfold State.ntpRequest
  split
  case h_1 none => exact absurd (popped.symm.trans none) (by simp)
  next x t taken =>
  obtain ⟨rfl, rfl⟩ := Prod.mk.inj (Option.some.inj (popped.symm.trans taken))
  extract_lets t x q k addr
  have counted : ServeKept ((s.setQueue p (fun _ => l)).inc (A.svpPipeReqNtp p)) t := .inc _ (p := p) (by simp [pipeCounters])
  have charged := counted.trans (.charge t x)
  have allowed := charged.trans (.kodOk q.1 x)
  refine .ite ?refused (.ite ?overRate (.ite (.ite ?kiss ?silent) (.ite ?suppressed ?answered)))
  case refused => exact (counted.trans (.inc _ (p := p) (by simp [pipeCounters]))).trans (.sampleDrop _ _ _ _)
  case overRate => exact charged.trans (.sampleDrop _ _ _ _)
  case kiss => exact allowed.trans (.handOver _ _ _ _ _)
  case silent => exact allowed.trans (.sampleDrop _ _ _ _)
  case suppressed => exact (charged.trans (.inc _ (p := p) (by simp [pipeCounters]))).trans (.sampleDrop _ _ _ _)
  case answered => exact (charged.trans (.inc _ (p := p) (by simp [pipeCounters]))).trans (.handOver _ _ _ _ _)

/-! ### NTS (R238) -/

theorem ServeKept.ntsFailure (s : State) (r : Request) {counter : Nat} (own : counter ∈ pipeCounters r.pipe)
    (uid : Bytes) (overRate : Bool) (step : Nat) : ServeKept s (s.ntsFailure r counter uid overRate step) := by
  unfold State.ntsFailure
  extract_lets i rec_ t t₁
  have stored : ServeKept s t := .ite (.setClient s i _) (.refl s)
  have counted : ServeKept s t₁ := stored.trans (.inc t own)
  refine .ite ?_ (counted.trans (.sampleDrop _ _ _ _))
  exact (counted.trans (.inc _ (p := r.pipe) (by simp [pipeCounters]))).trans (.handOver _ _ _ _ _)

theorem ServeKept.ntsOpen (s : State) (r : Request) (l : List (Nat × Bytes)) (overRate kod : Bool) :
    ServeKept s (s.ntsOpen r l overRate kod) := by
  unfold State.ntsOpen
  extract_lets p d field uid auth n t a addr len k
  have slots : ∀ m, ServeKept s (s.count (A.svpPipeSlots p) m) := fun m => .count s m (p := p) (by simp [pipeCounters])
  split
  case h_1 => exact (slots 1).trans (.ntsFailure _ r (by simp [pipeCounters, p]) _ _ _)
  case h_2 => exact (slots _).trans (.ntsFailure _ r (by simp [pipeCounters, p]) _ _ _)
  case h_3 =>
    split
    case h_1 => exact (slots _).trans (.ntsFailure _ r (by simp [pipeCounters, p]) _ _ _)
    case h_2 =>
      have allowed : ServeKept s k.1 := (slots _).trans (.kodOk t r)
      refine .ite (.ite (allowed.trans (.handOver _ _ _ _ _)) (allowed.trans (.sampleDrop _ _ _ _))) ?_
      exact ((slots _).trans (.inc _ (p := p) (by simp [pipeCounters]))).trans (.handOver _ _ _ _ _)

/-- The NTS request at the front is taken and counted once. -/
theorem ntsRequest_taken {s : State} (h : CellList.wf resetOf s.regs = true) {p : Nat} {r : Request} {l : List Request} (pipe : p < 16)
    (front : s.queue p = r :: l) (kind : r.kind = .nts) :
    (s.ntsRequest p).queue p = l ∧ (s.ntsRequest p).rd64 (A.svpPipeReqNts p) = min (s.rd64 (A.svpPipeReqNts p) + 1) (2 ^ 64 - 1) := by
  refine taken_counted h front (svpPipeReqNts_pair p pipe) (by unfold ServeWord A.svpPipeReqNts; omega)
    (by unfold A.svpPipeReqNts A.svpPipeStatus; omega) ?_
  have popped := popRequest_front front kind
  unfold State.ntsRequest
  split
  case h_1 none => exact absurd (popped.symm.trans none) (by simp)
  next x t taken =>
  obtain ⟨rfl, rfl⟩ := Prod.mk.inj (Option.some.inj (popped.symm.trans taken))
  extract_lets t x fields q c
  have slot : ∀ u, ServeKept u (u.inc (A.svpPipeSlots p)) := fun u => .inc u (p := p) (by simp [pipeCounters])
  have charged : ServeKept t q.1 := .charge t _
  refine .ite ?off (.ite ?malformed (.ite ?overRate (.ite ?suppressed ?opened)))
  case off => exact ((slot t).trans (.inc _ (p := p) (by simp [pipeCounters]))).trans (.sampleDrop _ _ _ _)
  case malformed => exact ((slot t).trans (.inc _ (p := p) (by simp [pipeCounters]))).trans (.sampleDrop _ _ _ _)
  case overRate => exact (charged.trans (slot _)).trans (.sampleDrop _ _ _ _)
  case suppressed => exact ((charged.trans (slot _)).trans (.inc _ (p := p) (by simp [pipeCounters]))).trans (.sampleDrop _ _ _ _)
  case opened => exact charged.trans (.ntsOpen _ x _ _ _)

/-! ### The obligation -/

/-- Settles O19: a claim or a request is taken by one operation, and what follows it leaves the list it was taken from and the
counter that counted it alone (`ServeKept`, `MintWord`, `endMove_moves`). -/
theorem requestEventsComplete : Obligations.RequestEventsComplete := by
  unfold Obligations.RequestEventsComplete
  refine ⟨fun s u dt c canonical eq oldest listed => completes_after (·.answerArp) rfl eq (answerArp_queued oldest listed),
    fun s u dt c canonical eq oldest listed => completes_after (·.answerNd) rfl eq (answerNd_queued oldest listed),
    fun s u dt k c canonical eq oldest cls noRing unit =>
      completes_after (·.exceptionFrame) rfl eq (exceptionFrame_unclaimed ?_ oldest cls noRing unit),
    fun s u dt k c canonical eq oldest cls ring unit =>
      completes_after (·.exceptionFrame) rfl eq (exceptionFrame_delivered ?_ oldest cls ring unit),
    fun s u dt p r l canonical eq pipe front kind _ _ =>
      completes_afterIf (·.ntpRequest p) rfl (by simp [pipe]) eq (ntpRequest_taken ?_ pipe front kind),
    fun s u dt p r l canonical eq pipe front kind _ _ =>
      completes_afterIf (·.ntsRequest p) rfl (by simp [pipe]) eq (ntsRequest_taken ?_ pipe front kind),
    fun s u dt b m canonical eq unit moving settled =>
      completes_afterIf (·.bucketMoved b) rfl (by simp [unit]) eq (bucketMoved_moves moving settled),
    fun s u dt m d canonical eq enabled type live waiting =>
      completes_after (·.mintJob (some m)) rfl eq (mintJob_counted ?_ m enabled type live waiting)⟩
  all_goals exact regs_of_canonical (eq ▸ advance_canonical canonical dt)

end Sys2Proof.Machine
end

section
/-!
SUPPORT. Master keys of NTS: what drawing, rotating and wiping them makes of the keys held (R242 to R244).
-/

set_option Elab.async false

namespace Sys2Proof.Machine

theorem newKey_held (s : State) : s.newKey.nts.current = true ∧ s.newKey.nts.keys ≠ [] :=
  ⟨rfl, by unfold State.newKey; simp [Nat.add_comm 1]⟩

theorem nextKeyId_nts (s : State) : s.nextKeyId.2.nts = s.nts := PartFrame.nextKeyId s .nts (by decide)

theorem newKey_deferred (s : State) : s.newKey.nts.deferred = s.nts.deferred := by
  rw [← nextKeyId_nts s]
  rfl

theorem newKey_rotateAt (s : State) : s.newKey.nts.rotateAt = s.nts.rotateAt := by
  rw [← nextKeyId_nts s]
  rfl

theorem showKeys_nts (s : State) : s.showKeys.nts = { s.nts with mirror := some s.nts.keys } := rfl

@[simp] theorem raise_keepsNts (s : State) (reg b : Nat) : (s.raise reg b).nts = s.nts := PartFrame.raise s reg b .nts (by decide)

@[simp] theorem inc_nts (s : State) (a : Nat) : (s.inc a).nts = s.nts := PartFrame.inc s a .nts (by decide)

@[simp] theorem journalKey_nts (s : State) (src : Source) (engine what reg old new : Nat) :
    (s.journalKey src engine what reg old new).nts = s.nts := PartFrame.journalize s 9 src reg 0 _ .nts (by decide)

/-- The words that show the keys held. -/
def KeyWord (a : Nat) : Prop := a = A.ntsStatus ∨ a = A.ntsKeyCur ∨ ∃ j < 3, a = A.ntsKeyPrev j

theorem not_keyWord_rotations : ¬ KeyWord A.ntsRotations := by
  rintro (status | current | ⟨j, few, previous⟩)
  · exact absurd status (by decide)
  · exact absurd current (by decide)
  · unfold A.ntsRotations A.ntsKeyPrev at previous
    omega

theorem RegFrame.showKeys (s : State) : RegFrame KeyWord s s.showKeys :=
  (RegFrame.trans (.trans (.sfW s _ _ _ _ (.inl rfl)) (.wr _ _ _ (.inr (.inl rfl))))
    (.each _ _ (fun j m t => .wr t _ _ (.inr (.inr ⟨j, by simp at m; omega, rfl⟩))) _)).after

theorem RegFrame.newKey {W : Nat → Prop} (s : State) : RegFrame W s s.newKey := .same (PartFrame.newKey s .regs (by decide))

theorem RegFrame.journalKey (s : State) (src : Source) (engine what reg old new : Nat) :
    RegFrame InGlbHif s (s.journalKey src engine what reg old new) := .journalize_glbHif s 9 src reg 0 _

theorem RegFrame.raise_nts (s : State) (b : Nat) : RegFrame (fun a => a = A.ntsEvent ∨ InHif a) s (s.raise A.ntsEvent b) :=
  .raise_of s _ b (.inl rfl) (fun _ => .inr)

/-! ### Commands and draws (R244) -/

theorem guardAct_ntsCmd (s : State) (src : Source) (v : Word) : s.guardAct src A.ntsCmd v = s.ntsCmd src v := rfl

theorem ntsCmd_purge (s : State) (src : Source) : s.ntsCmd src 2 = s.ntsPurge src := if_neg (by decide)

theorem nextSecond_congr {s t : State} (h : t.ts = s.ts) : t.nextSecond = s.nextSecond := by
  unfold State.nextSecond State.nowNs
  rw [h]

/-- ROTATE_NOW notes the next whole second and its source. -/
theorem ntsRotateNow_noted {s : State} {src : Nat} {c : Word} (taken : s.takesPair src A.ntsCmd 1 c) :
    (s.guardPair (srcOf src) A.ntsCmd 1 c).nts.rotateAt = some (s.nextSecond, srcOf src) := by
  rw [guardPair_of taken, guardAct_ntsCmd, State.ntsCmd, if_pos rfl, ← nextSecond_congr (pairTaken_ts s (srcOf src) A.ntsCmd 1)]

/-- PURGE wipes every key and raises its event. -/
theorem ntsPurge_wiped {s : State} (h : CellList.wf resetOf s.regs = true) (src : Source) :
    (s.ntsPurge src).nts.keys = [] ∧ (s.ntsPurge src).nts.current = false ∧ (s.ntsPurge src).bit A.ntsEvent 1 = true := by
  unfold State.ntsPurge
  extract_lets old before t
  have shown : CellList.wf resetOf t.showKeys.regs = true := (RegFrame.showKeys t h).1
  have raised : (t.showKeys.raise A.ntsEvent 1).bit A.ntsEvent 1 = true := raise_bit shown (by decide) (not_inHif_of_le (by decide))
  obtain ⟨-, kept⟩ := RegFrame.journalKey (t.showKeys.raise A.ntsEvent 1) src 0 1 A.ntsCmd old 0
    (RegFrame.raise_nts t.showKeys 1 shown).1
  refine ⟨?_, ?_, (bit_of_rd (kept A.ntsEvent (by unfold InGlbHif InHif; decide)) 1).trans raised⟩
  · rw [journalKey_nts, raise_keepsNts, showKeys_nts]
  · rw [journalKey_nts, raise_keepsNts, showKeys_nts]

theorem ntsKeyDrawn_held {s : State} (lacking : s.nts.current = false) (entropy : s.entropyOk = true) :
    s.ntsKeyDrawn.nts.current = true ∧ s.ntsKeyDrawn.nts.keys ≠ [] := by
  unfold State.ntsKeyDrawn
  rw [if_neg (by simp [lacking]), if_pos entropy, showKeys_nts]
  exact newKey_held s

/-! ### Deferred draws and rotations (R243, R244) -/

/-- The module without what was asked of its keys. -/
def State.keysAsked (s : State) : State := { s with nts := { s.nts with rotateAt := none, deferred := none } }

section
variable {s : State} {a : Nat} (waiting : s.nts.deferred = some a) (due : a ≤ s.nowNs)
include waiting due

theorem keyDeferRetry_due : s.keyDeferRetry =
    if s.entropyOk = false then { s with nts := { s.nts with deferred := some s.nextSecond } }.denyEntropy
    else if s.nts.current then s.rotateNts .module
    else ({ s with nts := { s.nts with deferred := none } }.newKey).showKeys := by
  unfold State.keyDeferRetry
  rw [waiting]
  exact if_pos (decide_eq_true due)

/-- A draw that was deferred takes place. -/
theorem keyDeferRetry_drawn (lacking : s.nts.current = false) (entropy : s.entropyOk = true) :
    s.keyDeferRetry.nts.deferred = none ∧ s.keyDeferRetry.nts.current = true ∧ s.keyDeferRetry.nts.keys ≠ [] := by
  rw [keyDeferRetry_due waiting due, if_neg (by simp [entropy]), if_neg (by simp [lacking]), showKeys_nts]
  exact ⟨newKey_deferred _, newKey_held _⟩

/-- A rotation that was deferred takes place and counts. -/
theorem keyDeferRetry_rotated (h : CellList.wf resetOf s.regs = true) (held : s.nts.current = true) (entropy : s.entropyOk = true) :
    s.keyDeferRetry.nts.deferred = none ∧ s.keyDeferRetry.nts.rotateAt = none ∧
      (s.keyDeferRetry.rd A.ntsRotations).toNat = min ((s.rd A.ntsRotations).toNat + 1) 0xFFFFFFFF := by
  rw [keyDeferRetry_due waiting due, if_neg (by simp [entropy]), if_pos held]
  unfold State.rotateNts
  rw [if_pos entropy]
  extract_lets old before t u
  have drawn : RegFrame KeyWord s t.showKeys := ((RegFrame.newKey s.keysAsked).before).trans (.showKeys t)
  obtain ⟨regs, shown⟩ := drawn h
  have counted : ((t.showKeys.inc A.ntsRotations).rd A.ntsRotations).toNat = min ((s.rd A.ntsRotations).toNat + 1) 0xFFFFFFFF := by
    rw [inc_rd regs (by decide +kernel), shown A.ntsRotations not_keyWord_rotations]
  have rest : RegFrame (fun a => a = A.ntsEvent ∨ InGlbHif a) (t.showKeys.inc A.ntsRotations)
      (u.journalKey .module 0 0 A.ntsCmd old ((u.nts.keys.map Prod.fst).getD 0 0)) :=
    ((RegFrame.raise_nts _ 0).mono (fun _ w => w.imp_right .inr)).trans ((RegFrame.journalKey u _ _ _ _ _ _).mono (fun _ => .inr))
  have kept := (rest (inc_regs regs _)).2 A.ntsRotations (by unfold InGlbHif InHif; decide)
  have nts : (u.journalKey .module 0 0 A.ntsCmd old ((u.nts.keys.map Prod.fst).getD 0 0)).nts = t.showKeys.nts := by
    rw [journalKey_nts, raise_keepsNts, inc_nts]
  rw [nts, kept]
  exact ⟨newKey_deferred _, newKey_rotateAt _, counted⟩

/-- Without full-entropy output the retry waits for the next whole second, and the denial counts. -/
theorem keyDeferRetry_denied (h : CellList.wf resetOf s.regs = true) (entropy : s.entropyOk = false) :
    s.keyDeferRetry.nts.deferred = some s.nextSecond ∧
      (s.keyDeferRetry.rd A.pkeFeDenied).toNat = min ((s.rd A.pkeFeDenied).toNat + 1) 0xFFFFFFFF := by
  rw [keyDeferRetry_due waiting due, if_pos entropy, State.denyEntropy]
  exact ⟨congrArg Nts.deferred (inc_nts _ _),
    inc_rd (s := { s with nts := { s.nts with deferred := some s.nextSecond } }) h (by decide +kernel)⟩

end

end Sys2Proof.Machine
end

section
/-!
SUPPORT. What the fault log and the journal write, and what the moves of buckets keep of a pipeline (R223, R387, R397).
-/

set_option Elab.async false

namespace Sys2Proof.Machine

/-! ### The fault log and the journal (R387, R397 to R399) -/

/-- The words of GLB and HIF that a fault, its record and their reports write. -/
def LogWord (a : Nat) : Prop :=
  a ∈ [A.glbEvent, A.glbFaultSeq, A.glbFaultOverwrite, A.glbJournalSeq, A.glbJournalLost] ∨ (0x1000 ≤ a ∧ a < 0x1800) ∨ InHif a

theorem logWord_of_hif {a : Nat} (h : InHif a) : LogWord a := .inr (.inr h)

theorem not_logWord_of_le {a : Nat} (h : 0x7800 ≤ a) : ¬ LogWord a := by
  rintro (listed | entry | hif)
  · simp only [List.mem_cons, List.not_mem_nil, or_false, A.glbEvent, A.glbFaultSeq, A.glbFaultOverwrite, A.glbJournalSeq,
      A.glbJournalLost] at listed
    omega
  · omega
  · exact not_inHif_of_le h hif

theorem RegFrame.raise_glb (s : State) (b : Nat) : RegFrame LogWord s (s.raise A.glbEvent b) :=
  .raise_of s _ b (.inl (by decide)) (fun _ => logWord_of_hif)

theorem RegFrame.journalize_log (s : State) (kind : Nat) (src : Source) (addr outcome : Nat) (body : Bytes) :
    RegFrame LogWord s (s.journalize kind src addr outcome body) := by
  unfold State.journalize
  refine .trans (.trans (.trans (RegFrame.wr _ A.glbJournalSeq _ (.inl (by decide))).before (.ite (fun _ => .refl _ _) (fun _ => ?_)))
    ((RegFrame.pumpJournal_hif _).mono (fun _ => logWord_of_hif))) (.streamJournal _)
  exact (RegFrame.count _ _ _ (.inl (by decide)) (fun c => absurd c (by decide +kernel))).trans (.raise_glb _ 4)

theorem RegFrame.journalBlock_log (s : State) (kind : Nat) (src : Source) (block addr outcome : Nat) (body : Bytes) :
    RegFrame LogWord s (s.journalBlock kind src block addr outcome body) := by
  have record := RegFrame.journalize_log s kind src addr outcome body
  unfold State.journalBlock
  generalize s.journalize kind src addr outcome body = t at record ⊢
  exact record.after

theorem RegFrame.logFault_log (s : State) (code : Nat) (src : Source) (block addr value access detail : Nat) :
    RegFrame LogWord s (s.logFault code src block addr value access detail) := by
  unfold State.logFault
  extract_lets seq head entry base old overwritten stored noted posted streamed
  have overwrite : RegFrame LogWord s overwritten := .ite
    (fun _ => .trans (.inc s _ (.inl (by decide)) (fun c => absurd c (by decide +kernel))) (.raise_glb _ 5)) (fun _ => .refl _ s)
  have entered : RegFrame LogWord overwritten stored := .each _ _ (fun w m t => .wr t _ _ (.inr (.inl (by simp at m; omega)))) _
  have numbered : RegFrame LogWord stored noted := .trans (.wr stored _ _ (.inl (by decide))) (.raise_glb _ 0)
  have reported : RegFrame LogWord noted posted := .ite
    (fun _ => (RegFrame.postEvent_hif noted _ _ _ _ _).mono (fun _ => logWord_of_hif)) (fun _ => .refl _ noted)
  have sent : RegFrame LogWord posted streamed := .each _ _ (fun i _ t => by
    split
    · exact .ite (fun _ => .sendEventMsg t _ _ _) (fun _ => .refl _ t)
    · exact .refl _ t) _
  exact ((((overwrite.trans entered).trans numbered).trans reported).trans sent).trans (.journalBlock_log _ _ _ _ _ _ _)

/-- A write to RV bits is logged and journalled (R358). -/
theorem RegFrame.testControl (s : State) (src : Source) (a : Nat) (old v : Word) : RegFrame LogWord s (s.testControl src a old v) := by
  unfold State.testControl
  split
  · exact .refl _ s
  · exact .ite (fun _ => .refl _ s) (fun _ => .trans (.logFault_log s _ _ _ _ _ _ _) (.journalize_log _ _ _ _ _ _))

/-! ### A pipeline's STATE and its fence (R393, R486) -/

theorem FieldKept.each {a lo n : Nat} {α : Type} {g : α → State → State} :
    ∀ (l : List α) (_ : ∀ x ∈ l, ∀ t, FieldKept a lo n t (g x t)) (s : State), FieldKept a lo n s (s.each l g)
  | [], _, s => .refl a lo n s
  | x :: l, h, s => (h x List.mem_cons_self s).trans (FieldKept.each l (fun y m => h y (List.mem_cons_of_mem x m)) (g x s))

/-- STATE of pipeline `p` and its bit of the fence map stay as they were. -/
structure PipeKept (p : Nat) (s t : State) : Prop where
  state : FieldKept (A.svpPipeStatus p) 0 2 s t
  fence : FieldKept A.glbFencePipe p 1 s t

section
variable {p : Nat}

theorem PipeKept.refl (s : State) : PipeKept p s s := ⟨.refl _ _ _ s, .refl _ _ _ s⟩

theorem PipeKept.trans {s t u : State} (h : PipeKept p s t) (k : PipeKept p t u) : PipeKept p s u :=
  ⟨h.state.trans k.state, h.fence.trans k.fence⟩

theorem PipeKept.ite {c : Prop} [Decidable c] {s t u : State} (h : PipeKept p s t) (k : PipeKept p s u) :
    PipeKept p s (if c then t else u) := by split <;> assumption

theorem PipeKept.when (s : State) (c : Bool) {g : State → State} (h : PipeKept p s (g s)) : PipeKept p s (s.when c g) := by
  cases c
  · exact .refl s
  · exact h

theorem PipeKept.each {α : Type} (l : List α) {g : α → State → State} (h : ∀ x ∈ l, ∀ t, PipeKept p t (g x t)) (s : State) :
    PipeKept p s (s.each l g) := ⟨.each l (fun x m t => (h x m t).state) s, .each l (fun x m t => (h x m t).fence) s⟩

theorem PipeKept.same {s t : State} (h : t.regs = s.regs) : PipeKept p s t :=
  ⟨.of_regFrame (W := fun _ => False) (.same h) id, .of_regFrame (W := fun _ => False) (.same h) id⟩

theorem PipeKept.of_regFrame {W : Nat → Prop} {s t : State} (h : RegFrame W s t) (state : ¬ W (A.svpPipeStatus p))
    (fence : ¬ W A.glbFencePipe) : PipeKept p s t := ⟨.of_regFrame h state, .of_regFrame h fence⟩

/-- What is written beyond the STATUS words of the pipelines, and of GLB by faults and records alone. -/
def MoveWord (a : Nat) : Prop := LogWord a ∨ (0x2000 ≤ a ∧ ¬ (0x58000 ≤ a ∧ a % 0x400 = 0))

theorem PipeKept.of_moveWord {s t : State} (h : RegFrame MoveWord s t) : PipeKept p s t := by
  refine .of_regFrame h ?_ ?_
  · rintro (log | beyond)
    · exact not_logWord_of_le (by unfold A.svpPipeStatus; omega) log
    · unfold A.svpPipeStatus at beyond
      omega
  · unfold MoveWord LogWord InHif
    decide

theorem moveWord_of_hif {a : Nat} (h : InHif a) : MoveWord a := .inl (logWord_of_hif h)

theorem moveWord_of_samples {a : Nat} (h : InSamples a) : MoveWord a := by
  rcases h with h | h
  · exact .inr ⟨by omega, by omega⟩
  · exact moveWord_of_hif h

theorem moveWord_hrc {a : Nat} (low : 0x50000 ≤ a) (high : a < 0x58000) : MoveWord a := .inr ⟨by omega, by omega⟩

theorem PipeKept.hrcEvent (s : State) (b : Nat) : PipeKept p s (s.raise A.hrcEvent b) :=
  .of_moveWord (.raise_of s _ b (moveWord_hrc (by decide) (by decide)) (fun _ => moveWord_of_hif))

theorem PipeKept.hrcCount (s : State) {a : Nat} (n : Nat) (low : 0x50000 ≤ a) (high : a + 4 < 0x58000) : PipeKept p s (s.count a n) :=
  .of_moveWord (.count s a n (moveWord_hrc low (by omega)) (fun _ => moveWord_hrc (by omega) high))

theorem PipeKept.hrcField (s : State) {a : Nat} (lo n v : Nat) (low : 0x50000 ≤ a) (high : a < 0x58000) : PipeKept p s (s.sfW a lo n v) :=
  .of_moveWord (.sfW s a lo n v (moveWord_hrc low high))

theorem PipeKept.sampleDrop (s : State) (r : Request) (outcome detail : Nat) : PipeKept p s (s.sampleDrop r outcome detail) :=
  .of_moveWord ((RegFrame.sampleFinal s _ none _).mono (fun _ => moveWord_of_samples))

/-- A field of a STATUS word beside STATE. -/
theorem PipeKept.statusField (s : State) (q lo n v : Nat) (beside : 2 ≤ lo) : PipeKept p s (s.sfW (A.svpPipeStatus q) lo n v) := by
  constructor
  · by_cases same : q = p
    · exact same ▸ .sfW s lo n v (by decide) (.inl beside)
    · exact .wr s _ (by unfold A.svpPipeStatus; omega)
  · exact .wr s _ (by unfold A.svpPipeStatus A.glbFencePipe; omega)

/-! ### Queues and moves (R223) -/

theorem PipeKept.setQueue (s : State) (q : Nat) (f : List Request → List Request) : PipeKept p s (s.setQueue q f) :=
  .trans (t := { s with hrc := { s.hrc with queues := modAt s.hrc.queues q f } }) (.same rfl) (.statusField _ q 8 6 _ (by decide))

theorem PipeKept.handToPipe (s : State) (q : Nat) (r : Request) : PipeKept p s (s.handToPipe q r) := by
  have queued : PipeKept p s (s.enqueue q r).1 := by
    unfold State.enqueue
    split
    · exact .setQueue s q _
    · exact .trans (.trans (.hrcCount s 1 (by decide) (by decide)) (.hrcEvent _ 2)) (.sampleDrop _ _ _ _)
  have counted : ∀ t : State, PipeKept p t (t.inc (A.macLinkRxToPipe r.frame.sl)) := fun t =>
    .of_moveWord (.inc t _ (.inr (by unfold A.macLinkRxToPipe; omega)) (fun _ => .inr (by unfold A.macLinkRxToPipe; omega)))
  exact .ite (queued.trans (counted _)) queued

theorem PipeKept.showPipes (s : State) : PipeKept p s s.showPipes :=
  .trans (.trans (.each _ (fun q _ t => .statusField t q 16 9 _ (by decide)) s) (.hrcField _ 0 16 _ (by decide) (by decide)))
    (.hrcField _ 25 1 _ (by decide) (by decide))

theorem PipeKept.endMove (s : State) (b : Nat) : PipeKept p s (s.endMove b) := by
  unfold State.endMove
  split
  · exact .refl s
  · refine .ite ?_ (.refl s)
    extract_lets x t
    exact .trans (.trans (t := t) (.same rfl) (.each _ (fun r _ u => .handToPipe u _ r) t)) (.showPipes _)

theorem PipeKept.moveBucket (s : State) (b q r : Nat) : PipeKept p s (s.moveBucket b q r) := by
  unfold State.moveBucket
  refine .ite (.refl s) ?_
  extract_lets old m x t
  exact .trans (.trans (.trans (.trans (t := t) (.same rfl) (.hrcCount t 1 (by decide) (by decide))) (.hrcEvent _ 0)) (.endMove _ b))
    (.showPipes _)

theorem PipeKept.moveAway (s : State) (q : Nat) : PipeKept p s (s.moveAway q) := by
  unfold State.moveAway
  split
  · exact .refl s
  · refine .each _ (fun b m t => .trans (.hrcField t _ _ _ ?_ ?_) (.moveBucket _ b q _)) s
    all_goals
      have bound := List.mem_range.mp (List.mem_of_mem_filter m)
      unfold A.hrcBucketMap
      omega

theorem PipeKept.losePipe (s : State) (q : Nat) : PipeKept p s (s.losePipe q) :=
  .trans (.trans (.setQueue s q _) (.hrcCount _ _ (by decide) (by decide))) (.each _ (fun r _ t => .sampleDrop t r _ _) _)

/-! ### Fences (R394, R395) -/

theorem PipeKept.glbEvent (s : State) (b : Nat) : PipeKept p s (s.raise A.glbEvent b) :=
  .of_moveWord ((RegFrame.raise_glb s b).mono (fun _ => .inl))

theorem PipeKept.logFault (s : State) (code : Nat) (src : Source) (block addr value access detail : Nat) :
    PipeKept p s (s.logFault code src block addr value access detail) :=
  .of_moveWord ((RegFrame.logFault_log s _ _ _ _ _ _ _).mono (fun _ => .inl))

/-- The words that count the units in service. -/
theorem PipeKept.showUnits (s : State) : PipeKept p s s.showUnits := by
  have field : ∀ (t : State) (a lo n v : Nat), a < 0x30 → PipeKept p t (t.sfW a lo n v) := fun t a lo n v low =>
    ⟨.wr t _ (by unfold A.svpPipeStatus; omega), .wr t _ (by unfold A.glbFencePipe; omega)⟩
  exact .trans (.trans (.trans (.trans (.trans (field s _ _ _ _ (by decide)) (field _ _ _ _ _ (by decide))) (field _ _ _ _ _ (by decide)))
    (field _ _ _ _ _ (by decide))) (field _ _ _ _ _ (by decide))) (field _ _ _ _ _ (by decide))

/-- What a pipeline's UCODE registers take. -/
theorem PipeKept.ucodeWord (s : State) (q : Nat) {a : Nat} (low : A.svpPipeUcodeCtl q ≤ a) (high : a < A.svpPipeUcodeCtl q + 0x100) (v : Word) :
    PipeKept p s (s.wr a v) := by
  unfold A.svpPipeUcodeCtl at low high
  exact .of_moveWord (.wr s a v (.inr (by omega)))

theorem PipeKept.ucodeResult (s : State) (q op reason : Nat) : PipeKept p s (s.ucodeResult q op reason) := by
  have field : ∀ (t : State) (lo n v : Nat), PipeKept p t (t.sfW (A.svpPipeUcodeResult q) lo n v) := fun t lo n v =>
    .ucodeWord t q (by unfold A.svpPipeUcodeResult A.svpPipeUcodeCtl; omega) (by unfold A.svpPipeUcodeResult A.svpPipeUcodeCtl; omega) _
  exact .trans (.trans (field s _ _ _) (field _ _ _ _)) (field _ _ _ _)

end

end Sys2Proof.Machine
end

section
/-!
SUPPORT. Draining, fencing and reloading a pipeline (R394, R395, R485 to R487).
-/

set_option Elab.async false

namespace Sys2Proof.Machine

/-! ### STATE and UCODE_RESULT -/

theorem setPipe_state {s : State} (h : CellList.wf resetOf s.regs = true) (p st : Nat) : (s.setPipe p st).pipeState p = st % 4 :=
  (f_sfW s _ 0 2 st 0 2 h).trans (fld_putFld _ 0 2 st (by decide))

theorem setPipe_regs {s : State} (h : CellList.wf resetOf s.regs = true) (p st : Nat) : CellList.wf resetOf (s.setPipe p st).regs = true :=
  CellList.wf_set resetOf _ _ _ h

theorem ucodeResult_op {s : State} (h : CellList.wf resetOf s.regs = true) (p op reason : Nat) :
    (s.ucodeResult p op reason).f (A.svpPipeUcodeResult p) 0 2 = op % 4 := by
  have written : (s.sfW (A.svpPipeUcodeResult p) 0 2 op).f (A.svpPipeUcodeResult p) 0 2 = op % 4 :=
    (f_sfW s _ 0 2 op 0 2 h).trans (fld_putFld _ 0 2 op (by decide))
  have rest : FieldKept (A.svpPipeUcodeResult p) 0 2 (s.sfW (A.svpPipeUcodeResult p) 0 2 op) (s.ucodeResult p op reason) :=
    .trans (.sfW _ 8 8 reason (by decide) (.inl (by decide))) (.sfW _ 24 8 _ (by decide) (.inl (by decide)))
  exact (rest (CellList.wf_set resetOf _ _ _ h)).2.trans written

theorem ucodeResult_reason {s : State} (h : CellList.wf resetOf s.regs = true) (p op reason : Nat) :
    (s.ucodeResult p op reason).f (A.svpPipeUcodeResult p) 8 8 = reason % 256 := by
  have regs : CellList.wf resetOf (s.sfW (A.svpPipeUcodeResult p) 0 2 op).regs = true := CellList.wf_set resetOf _ _ _ h
  have written : ((s.sfW (A.svpPipeUcodeResult p) 0 2 op).sfW (A.svpPipeUcodeResult p) 8 8 reason).f (A.svpPipeUcodeResult p) 8 8 =
      reason % 256 := (f_sfW _ _ 8 8 reason 8 8 regs).trans (fld_putFld _ 8 8 reason (by decide))
  have rest : FieldKept (A.svpPipeUcodeResult p) 8 8 ((s.sfW (A.svpPipeUcodeResult p) 0 2 op).sfW (A.svpPipeUcodeResult p) 8 8 reason)
      (s.ucodeResult p op reason) := .sfW _ 24 8 _ (by decide) (.inl (by decide))
  exact (rest (CellList.wf_set resetOf _ _ _ regs)).2.trans written

/-! ### The fence of a drained pipeline (R394, R486) -/

theorem pipeFenced_kept {s : State} (h : CellList.wf resetOf s.regs = true) (p : Nat) (drained : Bool) :
    (s.pipeFenced p drained).pipeState p = 2 ∧ FieldKept A.glbFencePipe p 1 s (s.pipeFenced p drained) := by
  unfold State.pipeFenced
  extract_lets t
  have ended : PipeKept p s t := .when s _ (.ucodeResult s p 1 0x45)
  have rest : PipeKept p (t.setPipe p 2) (((t.setPipe p 2).moveAway p).losePipe p).showPipes :=
    .trans (.trans (.moveAway _ p) (.losePipe _ p)) (.showPipes _)
  have shown : FieldKept A.glbFencePipe p 1 t (t.setPipe p 2) := .wr t _ (by unfold A.svpPipeStatus A.glbFencePipe; omega)
  have regs : CellList.wf resetOf t.regs = true := (ended.state h).1
  exact ⟨(rest.state (setPipe_regs regs p 2)).2.trans (setPipe_state regs p 2), (ended.fence.trans shown).trans rest.fence⟩

theorem fenceOne_pipe {s : State} (h : CellList.wf resetOf s.regs = true) {p : Nat} (unit : p < 16) (inService : s.fenced 0 p = false)
    (src : Source) (cause : Nat) (drained : Bool) :
    CellList.wf resetOf (s.fenceOne src 0 p cause drained).regs = true ∧ (s.fenceOne src 0 p cause drained).pipeState p = 2 ∧
      (s.fenceOne src 0 p cause drained).fenced 0 p = true := by
  unfold State.fenceOne
  rw [if_neg (by simp [inService])]
  extract_lets t u v
  have marked : CellList.wf resetOf t.regs = true := CellList.wf_set resetOf _ _ _ h
  have bit : t.bit A.glbFencePipe p = true := (bit_setBit s A.glbFencePipe p p true h (by omega)).trans (if_pos rfl)
  have units : PipeKept p t u.showUnits := .trans (t := u) (.same rfl) (.showUnits u)
  have regs : CellList.wf resetOf u.showUnits.regs = true := (units.state marked).1
  obtain ⟨state, fence⟩ := pipeFenced_kept regs p drained
  have lost : CellList.wf resetOf (u.showUnits.pipeFenced p drained).regs = true := (fence regs).1
  have rest : PipeKept p (u.showUnits.pipeFenced p drained) (v.logFault 9 src (unitBlock 0) 0 (0 * 256 + p) 0 cause) :=
    .trans (.glbEvent _ 1) (.logFault v _ _ _ _ _ _ _)
  exact ⟨(rest.state lost).1, (rest.state lost).2.trans state, (((units.fence.trans fence).trans rest.fence).bit marked).trans bit⟩

/-- The fence of the partner, an AES-SIV unit. -/
theorem PipeKept.fencePartner {p : Nat} (s : State) (unit : p < 16) (src : Source) (cause : Nat) (drained : Bool) :
    PipeKept p s (s.fenceOne src 1 p cause drained) := by
  unfold State.fenceOne
  refine .ite (.refl s) ?_
  extract_lets t u v
  have marked : PipeKept p s t :=
    ⟨.wr s _ (show A.glbFencePipe ≠ A.svpPipeStatus p by unfold A.svpPipeStatus A.glbFencePipe; omega),
      .setBit s (16 + p) true (by omega) (.inl (by omega))⟩
  exact .trans (.trans (marked.trans (.trans (t := u) (.same rfl) (.showUnits u))) (.glbEvent _ 1)) (.logFault v _ _ _ _ _ _ _)

theorem drainDone_fenced {s : State} (h : CellList.wf resetOf s.regs = true) {p : Nat} (unit : p < 16) (draining : s.pipeState p = 1)
    (idle : s.pipeBusy p = false) (inService : s.fenced 0 p = false) :
    (s.drainDone p).pipeState p = 2 ∧ (s.drainDone p).f (A.svpPipeUcodeResult p) 0 2 = 1 ∧
      (s.drainDone p).f (A.svpPipeUcodeResult p) 8 8 = 0 ∧ (s.drainDone p).fenced 0 p = true := by
  have done : s.drainDone p = ((s.fenceOne .module 0 p 5 true).fenceOne .module 1 p 4 true).ucodeResult p 1 0 :=
    if_pos ⟨draining, idle⟩
  rw [done]
  obtain ⟨regs, state, fence⟩ := fenceOne_pipe h unit inService .module 5 true
  have partner : PipeKept p _ ((s.fenceOne .module 0 p 5 true).fenceOne .module 1 p 4 true) := .fencePartner _ unit .module 4 true
  have rest := partner.trans (.ucodeResult _ p 1 0)
  have both := (partner.state regs).1
  exact ⟨(rest.state regs).2.trans state, ucodeResult_op both p 1 0, ucodeResult_reason both p 1 0, (rest.fence.bit regs).trans fence⟩

/-! ### Loading microcode (R485, R487) -/

theorem RegFrame.journalFirmware (s : State) (src : Source) (event target index : Nat) (digest : Bytes) :
    RegFrame LogWord s (s.journalFirmware src event target index digest) := .journalize_log s 5 src _ event _

theorem PipeKept.loadUcode {p : Nat} (s : State) (held : Bool) (x : FwImage) : PipeKept p s (s.loadUcode p held x) := by
  have named : PipeKept p s ((s.wr (A.svpPipeUcodeBuild p) (word x.build)).wr (A.svpPipeUcodeSrc p) (word (b2n held))) := by
    refine .trans (.ucodeWord s p ?_ ?_ _) (.ucodeWord _ p ?_ ?_ _)
    all_goals simp only [A.svpPipeUcodeBuild, A.svpPipeUcodeSrc, A.svpPipeUcodeCtl]; omega
  have digest : ∀ w ∈ List.range 8, ∀ t, PipeKept p t (t.wr (A.svpPipeUcodeDigest p w) (word (leAt x.digest (4 * w) 4))) := fun w m t => by
    have bound := List.mem_range.mp m
    refine .ucodeWord t p ?_ ?_ _
    all_goals unfold A.svpPipeUcodeDigest A.svpPipeUcodeCtl; omega
  unfold State.loadUcode
  extract_lets t
  exact .trans (named.trans (.each _ digest t)) (.of_moveWord ((RegFrame.journalFirmware _ _ _ _ _ _).mono (fun _ => .inl)))

theorem loadUcode_src {s : State} (h : CellList.wf resetOf s.regs = true) (p : Nat) (x : FwImage) :
    (s.loadUcode p false x).f (A.svpPipeUcodeSrc p) 0 1 = 0 := by
  have regs : CellList.wf resetOf (s.wr (A.svpPipeUcodeBuild p) (word x.build)).regs = true := CellList.wf_set resetOf _ _ _ h
  have live : ((s.wr (A.svpPipeUcodeBuild p) (word x.build)).wr (A.svpPipeUcodeSrc p) (word (b2n false))).f (A.svpPipeUcodeSrc p) 0 1 = 0 :=
    congrArg (fun w => fld w 0 1) ((rd_wr _ _ _ _ regs).trans (if_pos rfl))
  have digest : ∀ w t, FieldKept (A.svpPipeUcodeSrc p) 0 1 t (t.wr (A.svpPipeUcodeDigest p w) (word (leAt x.digest (4 * w) 4))) :=
    fun w t => .wr t _ (by unfold A.svpPipeUcodeDigest A.svpPipeUcodeSrc; omega)
  have record : ∀ t : State, FieldKept (A.svpPipeUcodeSrc p) 0 1 t (t.journalFirmware .module 4 2 p x.digest) := fun t =>
    .of_regFrame (.journalFirmware t _ _ _ _ _) (not_logWord_of_le (by unfold A.svpPipeUcodeSrc; omega))
  exact (((FieldKept.each (List.range 8) (fun w _ t => digest w t) _).trans (record _)) (CellList.wf_set resetOf _ _ _ regs)).2.trans live

theorem reloadPipe_loading {s : State} (h : CellList.wf resetOf s.regs = true) {p : Nat} (fenced : s.pipeState p = 2) :
    (s.reloadPipe p false).pipeState p = 3 ∧ (s.reloadPipe p false).f (A.svpPipeUcodeSrc p) 0 1 = 0 := by
  have taken : s.reloadPipe p false = (s.setPipe p 3).loadUcode p false (s.bankImage s.bankRunning) := if_neg (by simp [fenced])
  have regs := setPipe_regs h p 3
  rw [taken]
  exact ⟨((PipeKept.loadUcode (s.setPipe p 3) false _).state regs).2.trans (setPipe_state h p 3), loadUcode_src regs p _⟩

theorem reloadDone_fenced {s : State} (h : CellList.wf resetOf s.regs = true) {p : Nat} (reloading : s.pipeState p = 3) (pass : Bool) :
    (s.reloadDone p pass).pipeState p = 2 ∧ (s.reloadDone p pass).f (A.svpPipeUcodeResult p) 0 2 = 2 ∧
      (s.reloadDone p pass).f (A.svpPipeUcodeResult p) 8 8 = (if pass = true then 0 else 0x43) := by
  have counted : PipeKept p (s.setPipe p 2) ((s.setPipe p 2).inc (A.svpPipeReloads p)) :=
    .of_moveWord (.inc _ _ (.inr (by unfold A.svpPipeReloads; omega)) (fun _ => .inr (by unfold A.svpPipeReloads; omega)))
  have state := setPipe_state h p 2
  have regs := setPipe_regs h p 2
  unfold State.reloadDone
  rw [if_pos reloading]
  extract_lets t
  cases pass with
  | true =>
    have result := counted.trans (.ucodeResult _ p 2 0)
    have before := (counted.state regs).1
    exact ⟨(result.state regs).2.trans state, ucodeResult_op before p 2 0, ucodeResult_reason before p 2 0⟩
  | false =>
    have loaded := counted.trans (.loadUcode t false (t.bankImage t.bankRunning))
    have result := loaded.trans (.ucodeResult _ p 2 0x43)
    have before := (loaded.state regs).1
    exact ⟨(result.state regs).2.trans state, ucodeResult_op before p 2 0x43, ucodeResult_reason before p 2 0x43⟩

/-! ### UCODE_CTL (R362, R485) -/

theorem svpPipeUcodeCtl_cm : ∀ p < 16, (rowOf (A.svpPipeUcodeCtl p)).map (·.kind) = some .cm := by decide +kernel

theorem countWrite_shut {s : State} {src : Source} (shut : (s.view src).pair = none) : s.countWrite src = s := by
  unfold State.countWrite
  rw [shut]

/-- A write to UCODE_CTL acts on its pipeline. -/
theorem writeWord_ucodeCtl {s : State} {src : Source} (shut : (s.view src).pair = none) {p : Nat} (unit : p < 16)
    (on : s.domainOn (domainOf (A.svpPipeUcodeCtl p)) = true) (v : Word) :
    s.writeWord src (A.svpPipeUcodeCtl p) v = (s.cmRv src (A.svpPipeUcodeCtl p) v).ucodeWrite p v := by
  have acts : s.cmWrite src (A.svpPipeUcodeCtl p) v = (s.cmRv src (A.svpPipeUcodeCtl p) v).ucodeWrite p v := by
    unfold State.cmWrite A.svpPipeUcodeCtl
    simp only [A.sluView, A.talStolen0, A.talStolen1, A.talTallySel, A.talSampleIndex, A.ptpCtxIndex]
    rw [if_neg (by omega), if_neg (by omega), if_neg (by omega), if_neg (by omega), if_neg (by omega), if_pos (by omega),
      show (0x58200 + 0x400 * p - 0x58000) / 0x400 = p by omega]
  obtain ⟨r, row, kind⟩ := Option.map_eq_some_iff.mp (svpPipeUcodeCtl_cm p unit)
  unfold State.writeWord
  rw [countWrite_shut shut, row, ← acts]
  simp [kind, on]

/-- What a write to UCODE_CTL stores before it acts. -/
def CtlWord (p a : Nat) : Prop := a = A.svpPipeUcodeCtl p ∨ LogWord a

theorem RegFrame.cmRv_ctl (s : State) (src : Source) (p : Nat) (v : Word) : RegFrame (CtlWord p) s (s.cmRv src (A.svpPipeUcodeCtl p) v) :=
  .trans (.ite (fun _ => .refl _ s) (fun _ => .wr s _ _ (.inl rfl))) ((RegFrame.testControl _ src _ _ _).mono (fun _ => .inr))

/-- The state in which a write to UCODE_CTL acts. -/
def State.ctlStored (s : State) (src : Source) (p : Nat) (v : Word) : State :=
  (s.cmRv src (A.svpPipeUcodeCtl p) v).wr (A.svpPipeUcodeCtl p)
    (cmValue ((s.cmRv src (A.svpPipeUcodeCtl p) v).rd (A.svpPipeUcodeCtl p)) v &&& 4)

theorem ctlStored_kept {s : State} (h : CellList.wf resetOf s.regs = true) (src : Source) (p : Nat) (v : Word) :
    CellList.wf resetOf (s.ctlStored src p v).regs = true ∧ ∀ q, (s.ctlStored src p v).pipeState q = s.pipeState q := by
  have stored : RegFrame (CtlWord p) s (s.ctlStored src p v) := .trans (.cmRv_ctl s src p v) (.wr _ _ _ (.inl rfl))
  obtain ⟨regs, kept⟩ := stored h
  refine ⟨regs, fun q => f_of_rd (kept _ ?_) 0 2⟩
  rintro (own | log)
  · unfold A.svpPipeStatus A.svpPipeUcodeCtl at own
    omega
  · exact not_logWord_of_le (by unfold A.svpPipeStatus; omega) log

theorem nextActive_congr {s t : State} (h : ∀ q, t.pipeState q = s.pipeState q) (p : Nat) : t.nextActive p = s.nextActive p := by
  unfold State.nextActive
  simp only [h]

theorem drainPipe_draining {s : State} (h : CellList.wf resetOf s.regs = true) {p : Nat} (active : s.pipeState p = 0)
    (other : (s.nextActive p).isSome = true) : (s.drainPipe p).pipeState p = 1 := by
  unfold State.drainPipe
  rw [if_neg (by simpa using Option.isSome_iff_ne_none.mp other), if_neg (by simp [active])]
  have rest : PipeKept p (s.setPipe p 1) ((s.setPipe p 1).moveAway p).showPipes := .trans (.moveAway _ p) (.showPipes _)
  exact (rest.state (setPipe_regs h p 1)).2.trans (setPipe_state h p 1)

/-- DRAIN of an ACTIVE pipeline, with another ACTIVE one that takes its buckets. -/
theorem writeWord_drain {s : State} (h : CellList.wf resetOf s.regs = true) {src : Source} (shut : (s.view src).pair = none) {p : Nat}
    (unit : p < 16) (on : s.domainOn (domainOf (A.svpPipeUcodeCtl p)) = true) (active : s.pipeState p = 0)
    (other : (s.nextActive p).isSome = true) : (s.writeWord src (A.svpPipeUcodeCtl p) 0x10001).pipeState p = 1 := by
  obtain ⟨regs, states⟩ := ctlStored_kept h src p 0x10001
  rw [writeWord_ucodeCtl shut unit on]
  exact drainPipe_draining regs ((states p).trans active) ((congrArg Option.isSome (nextActive_congr states p)).trans other)

/-- A field that the mask names takes the value's bit. -/
theorem cmValue_live (old : Word) : bitOf (cmValue old 0x60002) 2 = false := by
  unfold bitOf cmValue
  simp only [BitVec.toNat_or, BitVec.toNat_and, Nat.testBit_or, Nat.testBit_and]
  simp
  exact ⟨fun _ absent => absurd absent (by decide), by decide⟩

/-- RELOAD of a FENCED pipeline from the bank that runs. -/
theorem writeWord_reload {s : State} (h : CellList.wf resetOf s.regs = true) {src : Source} (shut : (s.view src).pair = none) {p : Nat}
    (unit : p < 16) (on : s.domainOn (domainOf (A.svpPipeUcodeCtl p)) = true) (fenced : s.pipeState p = 2) :
    (s.writeWord src (A.svpPipeUcodeCtl p) 0x60002).pipeState p = 3 ∧
      (s.writeWord src (A.svpPipeUcodeCtl p) 0x60002).f (A.svpPipeUcodeSrc p) 0 1 = 0 := by
  obtain ⟨regs, states⟩ := ctlStored_kept h src p 0x60002
  have acts : (s.cmRv src (A.svpPipeUcodeCtl p) 0x60002).ucodeWrite p 0x60002 = (s.ctlStored src p 0x60002).reloadPipe p
      (bitOf (cmValue ((s.cmRv src (A.svpPipeUcodeCtl p) 0x60002).rd (A.svpPipeUcodeCtl p)) 0x60002) 2) := rfl
  rw [writeWord_ucodeCtl shut unit on, acts, cmValue_live]
  exact reloadPipe_loading regs ((states p).trans fenced)

end Sys2Proof.Machine
end

section
/-!
SUPPORT. The words of HRC under the applications of groups of other blocks (R373): the calendar, TSC, MAC, REF and HOL.
-/

set_option Elab.async false

namespace Sys2Proof.Machine

/-! ### Writes outside block HRC -/

/-- A register of another block than HRC. -/
abbrev OutsideHrc (a : Nat) : Prop := a < 0x50000 ∨ 0x58000 ≤ a

theorem outsideHrc_of_hif {a : Nat} (h : InHif a) : OutsideHrc a := by
  unfold InHif at h
  omega

theorem outsideHrc_of_glbHif {a : Nat} (h : InGlbHif a) : OutsideHrc a := by
  rcases h with h | h
  · exact .inl (by omega)
  · exact outsideHrc_of_hif h

/-- Every word of HRC stays as it was. -/
def HrcKept (s t : State) : Prop := RegFrame OutsideHrc s t

theorem HrcKept.refl (s : State) : HrcKept s s := RegFrame.refl _ s

theorem HrcKept.trans {s t u : State} (h : HrcKept s t) (k : HrcKept t u) : HrcKept s u := RegFrame.trans h k

theorem HrcKept.ite {c : Prop} [Decidable c] {s t u : State} (h : HrcKept s t) (k : HrcKept s u) : HrcKept s (if c then t else u) :=
  RegFrame.ite (fun _ => h) (fun _ => k)

theorem HrcKept.when {s : State} {c : Bool} {g : State → State} (h : HrcKept s (g s)) : HrcKept s (s.when c g) := RegFrame.when s c g h

theorem HrcKept.each {α : Type} {g : α → State → State} {l : List α} (h : ∀ x ∈ l, ∀ t, HrcKept t (g x t)) (s : State) :
    HrcKept s (s.each l g) := RegFrame.each l g h s

/-- A change of the state beside its registers, before an operation or after it. -/
theorem HrcKept.same {s t : State} (h : t.regs = s.regs := by rfl) : HrcKept s t := RegFrame.same h

theorem HrcKept.wr (s : State) {a : Nat} (v : Word) (out : OutsideHrc a) : HrcKept s (s.wr a v) := RegFrame.wr s a v out

theorem HrcKept.sfW (s : State) {a : Nat} (lo n v : Nat) (out : OutsideHrc a) : HrcKept s (s.sfW a lo n v) := .wr s _ out

theorem HrcKept.setBit (s : State) {a : Nat} (i : Nat) (b : Bool) (out : OutsideHrc a) : HrcKept s (s.setBit a i b) := .wr s _ out

theorem HrcKept.event (s : State) {reg : Nat} (b : Nat) (out : OutsideHrc reg) : HrcKept s (s.raise reg b) :=
  RegFrame.raise_of s reg b out (fun _ => outsideHrc_of_hif)

theorem HrcKept.tally (s : State) {a : Nat} (n : Nat) (out : a + 4 < 0x50000 ∨ 0x58000 ≤ a) : HrcKept s (s.count a n) :=
  RegFrame.count s a n (by omega) (fun _ => by omega)

theorem HrcKept.record (s : State) (kind : Nat) (src : Source) (addr outcome : Nat) (body : Bytes) :
    HrcKept s (s.journalize kind src addr outcome body) := (RegFrame.journalize_glbHif s kind src addr outcome body).mono
  (fun _ => outsideHrc_of_glbHif)

/-! ### Calendar and TSC (R28, R59) -/

theorem HrcKept.calUsed (s : State) : HrcKept s s.calUsed := RegFrame.calUsed s (by decide)

theorem HrcKept.calPut (s : State) (i : Nat) (e : CalEntry) : HrcKept s (s.calPut i e) := .trans .same (.calUsed _)

theorem HrcKept.calFree (s : State) (i : Nat) : HrcKept s (s.calFree i) := .trans .same (.calUsed _)

theorem HrcKept.calNew (s : State) (e : CalEntry) : HrcKept s (s.calNew e).2 := .calPut s _ e

theorem HrcKept.calDrop (s : State) (action target : Nat) : HrcKept s (s.calDrop action target) := .trans .same (.calUsed _)

theorem HrcKept.calOwn (s : State) (e : CalEntry) : HrcKept s (s.calOwn e) := .trans (.calDrop s _ _) (.calNew _ e)

theorem HrcKept.calResult (s : State) (i reason : Nat) : HrcKept s (s.calResult i reason) := .wr s _ (by decide)

theorem HrcKept.applyTscCal (s : State) : HrcKept s s.applyTscCal := by
  unfold State.applyTscCal
  exact .ite (.trans (.calNew s _) (.calResult _ _ _)) (.ite (.trans (.calFree s _) (.calResult _ _ _))
    (.ite (.trans (.calPut s _ _) (.calResult _ _ _)) (.calResult s _ _)))

theorem HrcKept.refreshLeap (s : State) : HrcKept s s.refreshLeap := by
  unfold State.refreshLeap
  exact .ite (.refl s) (.trans (.sfW s _ _ _ (by decide)) (.event _ 5 (by decide)))

theorem HrcKept.leapsChanged (s : State) : HrcKept s s.leapsChanged := by
  have rebuilt : HrcKept s s.rebuildLeaps := .trans (.calDrop s _ _) (.each (fun _ _ t => .calNew t _) _)
  exact rebuilt.trans (.refreshLeap _)

theorem HrcKept.journalTsc (s : State) (old new : Nat) (amount : Int) (host : Bool) : HrcKept s (s.journalTsc old new amount host) :=
  .record s 7 .module _ 0 _

theorem HrcKept.leapConflict (s : State) : HrcKept s s.leapConflict := .trans (.event s 6 (by decide)) (.journalTsc _ _ _ _ _)

theorem HrcKept.applyTscLeap (s : State) (old : Nat → Word) : HrcKept s (s.applyTscLeap old) :=
  .trans (.each (fun _ _ t => .leapConflict t) s) (.leapsChanged _)

theorem HrcKept.applyTscCtl (s : State) : HrcKept s s.applyTscCtl := .trans (.leapsChanged s) (.sfW _ _ _ _ (by decide))

theorem HrcKept.applyTscStep (s : State) : HrcKept s s.applyTscStep := by
  unfold State.applyTscStep
  exact .ite (.refl s) (.trans .same (.calOwn _ _))

/-! ### References -/

theorem HrcKept.loseIndex (s : State) {i : Nat} (small : i < 64) : HrcKept s (s.loseIndex i) := by
  refine (RegFrame.loseIndex s i).mono ?_
  rintro a (rfl | rfl | rfl | hif)
  · exact .inl (by unfold A.refInEvent; omega)
  · exact .inl (by unfold A.refInLosCount; omega)
  · exact .inl (by unfold A.refInLosCount; omega)
  · exact outsideHrc_of_hif hif

theorem HrcKept.lose (s : State) {i : Nat} (small : i < 64) : HrcKept s (s.lose i) :=
  .trans (.loseIndex s small) (.each (fun p m t => .when (.loseIndex t (by simp at m; omega))) _)

theorem HrcKept.setQ (s : State) {i : Nat} (small : i < 64) (q stat which : Nat) : HrcKept s (s.setQ i q stat which) := by
  unfold State.setQ
  extract_lets old taken cleared
  have state : OutsideHrc (A.refInState i) := .inl (by unfold A.refInState; omega)
  have put : HrcKept s taken := .trans (.sfW s _ _ _ state) .same
  have shut : HrcKept s cleared := .ite
    (.trans (put.trans (.wr _ _ (.inl (by unfold A.refInCusumP; omega)))) (.wr _ _ (.inl (by unfold A.refInCusumF; omega))))
    put
  have shown : HrcKept cleared (cleared.showVoter i).showQual := .trans (.setBit _ _ _ state) (.sfW _ _ _ _ (by decide))
  exact .ite (.refl s)
    (.trans ((shut.trans shown).trans (.event _ 0 (.inl (by unfold A.refInEvent; omega)))) (.record _ _ _ _ _ _))

theorem HrcKept.toUnavailable (s : State) {i : Nat} (small : i < 64) : HrcKept s (s.toUnavailable i) := by
  have timer : ∀ t : State, HrcKept t (t.stopTimer i) := fun t => (RegFrame.stopTimer t i).mono (by
    rintro _ rfl
    exact .inl (by unfold A.refInTimer; omega))
  exact .ite (.refl s) (.trans (.setQ s small 0 0 0) (timer _))

theorem HrcKept.requalify (s : State) {i : Nat} (small : i < 64) : HrcKept s (s.requalify i) :=
  .trans .same (.toUnavailable _ small)

theorem HrcKept.showContact (s : State) : HrcKept s s.showContact := by
  unfold State.showContact
  extract_lets closed fault was t
  have shown : HrcKept s t := .setBit s _ _ (by decide)
  have index : s.f A.refQcontact 8 4 < 16 := Nat.mod_lt _ (by decide)
  exact .ite (shown.trans (.event t 7 (.inl (by unfold A.refInEvent; omega)))) shown

theorem HrcKept.applyRefCfg (s : State) (old : Nat → Word) : HrcKept s (s.applyRefCfg old) := by
  unfold State.applyRefCfg
  extract_lets t settled u
  have judged : HrcKept s t := .each (fun i m v => .ite
    (.requalify v (by have := List.mem_range.mp m; omega)) (.refl v)) s
  have adapted : HrcKept s u := .ite (judged.trans .same) judged
  exact .trans (adapted.trans (.setBit u _ _ (by decide))) (.showContact _)

/-! ### Oscillators -/

theorem HrcKept.putFit (s : State) (cart : Bool) (flags : Nat) (w : List Word) : HrcKept s (s.putFit cart flags w) := by
  refine (RegFrame.putFit s cart flags w).mono ?_
  rintro a (model | rfl | rfl | hif)
  · exact .inl (by omega)
  · decide
  · decide
  · exact outsideHrc_of_hif hif

theorem HrcKept.refit (s : State) (cart : Bool) : HrcKept s (s.refit cart) := by
  unfold State.refit
  extract_lets l
  exact .ite (.when (.putFit s cart _ _)) (.ite (.putFit s cart _ _) (.putFit s cart _ _))

theorem HrcKept.rejudge (s : State) (cart : Bool) : HrcKept s (s.rejudge cart) := .when (g := (·.refit cart)) (.refit s cart)

theorem HrcKept.applyHolCfg (s : State) : HrcKept s s.applyHolCfg :=
  .trans (.trans (.setBit s _ _ (by decide)) (.rejudge _ false)) (.rejudge _ true)

/-! ### MAC -/

theorem HrcKept.macFrozen (s : State) {c : Nat} (complex : c < 2) : HrcKept s (s.macFrozen c) :=
  .trans (.setBit s _ _ (.inl (by unfold A.macStatus; omega))) (.setBit _ _ _ (.inl (by unfold A.macCage; omega)))

theorem lt_of_mem_linksOf {c sl : Nat} (complex : c < 2) (m : sl ∈ linksOf c) : sl < 8 := by
  simp only [linksOf, List.mem_cons, List.not_mem_nil, or_false] at m
  omega

/-- What a link that does not exist in the mode in force shows. -/
theorem outsideHrc_linkWord {sl a : Nat} (unit : sl < 8)
    (m : a ∈ [A.macLinkStatus sl, A.macLinkRxDyn sl, A.macLinkTxDyn sl, A.macLinkBufOcc sl, A.macLinkPauseHeld sl]) : OutsideHrc a := by
  simp only [List.mem_cons, List.not_mem_nil, or_false, A.macLinkStatus, A.macLinkRxDyn, A.macLinkTxDyn, A.macLinkBufOcc,
    A.macLinkPauseHeld] at m
  omega

theorem HrcKept.applyMacPort (s : State) {c : Nat} (complex : c < 2) : HrcKept s (s.applyMacPort c) := by
  unfold State.applyMacPort
  extract_lets t
  have frozen : HrcKept s t := .trans (.sfW s _ _ _ (.inl (by unfold A.macStatus; omega))) (.macFrozen _ complex)
  refine frozen.trans (.each (fun sl m u => .ite (.refl u) (.each (fun a k v => ?_) u)) t)
  exact .wr v 0 (outsideHrc_linkWord (lt_of_mem_linksOf complex m) k)

theorem HrcKept.applyMacFlow (s : State) {c : Nat} (complex : c < 2) (old : Nat → Word) : HrcKept s (s.applyMacFlow c old) := by
  have done : ∀ t : State, HrcKept t (t.flowDone c) := fun t => .ite
    (.trans .same (.event _ 3 (.inl (by unfold A.macEvent; omega)))) (.refl t)
  exact .trans (.trans .same (.macFrozen _ complex)) (done _)

end Sys2Proof.Machine
end

section
/-!
SUPPORT. The words of HRC under the applications of SVP, NTS and PTP groups.
-/

set_option Elab.async false

namespace Sys2Proof.Machine

/-! ### SVP and NTS -/

theorem HrcKept.applySvpProf (s : State) (old : List Word) : HrcKept s (s.applySvpProf old) :=
  .trans .same (.setBit _ _ _ (by decide))

theorem HrcKept.showRotate (s : State) : HrcKept s s.showRotate := by
  unfold State.showRotate
  split
  · exact .trans (.wr s _ (by decide)) (.wr _ _ (by decide))
  · exact .trans (.wr s _ (by decide)) (.wr _ _ (by decide))

theorem HrcKept.armEpoch (s : State) : HrcKept s s.armEpoch := by
  unfold State.armEpoch
  extract_lets p o t sec
  have dropped : HrcKept s t := .calDrop s _ _
  exact .ite (.trans (dropped.trans (.calNew t _)) (.showRotate _)) (dropped.trans (.showRotate _))

theorem HrcKept.showKeys (s : State) : HrcKept s s.showKeys := by
  refine (RegFrame.showKeys s).mono ?_
  rintro a (rfl | rfl | ⟨j, _, rfl⟩)
  · decide
  · decide
  · exact .inr (by unfold A.ntsKeyPrev; omega)

theorem HrcKept.applyNtsCfg (s : State) : HrcKept s s.applyNtsCfg := by
  unfold State.applyNtsCfg
  extract_lets surplus kept t u
  have wiped : HrcKept s u := .trans (t := t) .same (.each (fun k _ v => .record v 9 .module _ 0 _) t)
  exact .trans (.trans (wiped.trans (.showKeys u)) (.armEpoch _)) (.setBit _ _ _ (by decide))

/-! ### PTP -/

theorem HrcKept.showDataset (s : State) : HrcKept s s.showDataset := by
  unfold State.showDataset
  extract_lets c t
  have shown : HrcKept s t := .ite (.refl s) (.trans (.sfW s _ _ _ (by decide)) (.event _ 0 (by decide)))
  exact shown.trans (.wr t _ (by decide))

theorem HrcKept.showCtxs (s : State) : HrcKept s s.showCtxs :=
  .trans (.trans (.sfW s _ _ _ (by decide)) (.each (fun i _ t => .sfW t _ _ _ (.inr (by unfold A.ptpInstContexts; omega))) _))
    (.each (fun j _ t => .wr t _ (.inr (by unfold A.ptpCtxRead; omega))) _)

theorem HrcKept.armSync (s : State) (target : Nat) (need : Bool) (period : Nat) : HrcKept s (s.armSync target need period) := by
  unfold State.armSync
  exact .ite (.ite (.refl s) (.calNew s _)) (.ite (.calDrop s _ _) (.refl s))

theorem HrcKept.armPtp (s : State) : HrcKept s s.armPtp :=
  .trans (.each (fun _ _ t => .each (fun _ _ u => .armSync u _ _ _) t) s)
    (.each (fun _ _ t => .trans (.ite (.calDrop t _ _) (.refl t)) (.armSync _ _ _ _)) _)

theorem HrcKept.freeLinkCtxs (s : State) (sl : Nat) : HrcKept s (s.freeLinkCtxs sl) :=
  .trans (.trans .same (.showCtxs _)) (.armPtp _)

theorem HrcKept.setSlv (s : State) {n : Nat} (slave : n < 2) (st : Nat) : HrcKept s (s.setSlv n st) := by
  unfold State.setSlv
  extract_lets was t u
  have shown : HrcKept s t := .sfW s _ _ _ (.inr (by unfold A.ptpSlvState; omega))
  have left : HrcKept s u := .ite shown (shown.trans (.lose t (by omega)))
  exact .ite (left.trans (.event u 1 (.inr (by unfold A.ptpSlvEvent; omega)))) left

theorem HrcKept.slaveReset (s : State) {n : Nat} (slave : n < 2) : HrcKept s (s.slaveReset n) := by
  have word : ∀ (t : State) (a : Nat) (v : Word), A.ptpSlvState n ≤ a → HrcKept t (t.wr a v) := fun t a v low =>
    .wr t v (.inr (by unfold A.ptpSlvState at low; omega))
  have lasts : ∀ t : State, HrcKept t (t.requestGrants n) := fun t => .same (PartFrame.requestGrants t n .regs (by decide))
  unfold State.slaveReset
  extract_lets seqs t u v w
  have cleared : HrcKept s u := .trans (t := t) .same (.setSlv t slave _)
  have left : HrcKept u v := word u _ _ (Nat.le_refl _)
  have unnamed : HrcKept v w := .trans (.trans (word v _ _ ?_) (word _ _ _ ?_)) (word _ _ _ ?_)
  · exact .trans (.trans (.trans (cleared.trans left) unnamed) (word w _ _ (by unfold A.ptpSlvState A.ptpSlvUtc; omega))) (lasts _)
  all_goals
    simp only [A.ptpSlvState, A.ptpSlvGmIdLo, A.ptpSlvGmIdHi, A.ptpSlvDelay]
    omega

theorem HrcKept.cancelCtx (s : State) (domain k : Nat) (c : PtpCtx) : HrcKept s (s.cancelCtx domain k c) := by
  unfold State.cancelCtx State.sendSignal
  extract_lets tl held t
  exact .trans (t := t) .same (.same (PartFrame.sendGeneral t _ _ _ _ .regs (by decide)))

theorem HrcKept.applyPtpCfg (s : State) (old : Nat → Word) : HrcKept s (s.applyPtpCfg old) := by
  unfold State.applyPtpCfg
  extract_lets changed t u v
  have cancelled : HrcKept s t := .each (fun e _ x => .cancelCtx x _ _ _) s
  have reset : HrcKept t u := .each (fun n m x => .ite (.slaveReset x (by simp at m; omega)) (.refl x)) t
  have named : HrcKept u v := .each (fun n m x =>
    .ite (.trans .same (.lose _ (by simp at m; omega))) .same) u
  have shown : HrcKept v v.ptpFrozen := .setBit v _ _ (by decide)
  exact .trans (.trans (.trans (((cancelled.trans reset).trans named).trans shown) (.showCtxs _)) (.armPtp _)) (.showDataset _)

/-! ### Ports whose settings are as they were -/

theorem portTouches_live (s : State) (c sl : Nat) : s.portTouches c s.rd sl = false := by
  unfold State.portTouches
  simp

theorem HrcKept.portApplied (s : State) {c : Nat} (complex : c < 2) : HrcKept s (s.portApplied c s.rd) := by
  have untouched : (linksOf c).filter (fun sl => s.portTouches c s.rd sl) = [] := by simp [portTouches_live]
  have applied : HrcKept s ((s.each [] (fun sl u => u.portDown sl)).applyMacPort c) := .applyMacPort s complex
  unfold State.portApplied
  rw [untouched]
  exact .ite applied (applied.trans (RegFrame.foldl _ (fun t sl => HrcKept.freeLinkCtxs t sl) _ _))

theorem HrcKept.applyMacCal (s : State) {c : Nat} (complex : c < 2) : HrcKept s (s.applyMacCal c s.rd) := by
  unfold State.applyMacCal
  extract_lets words t
  refine .trans (.trans (t := t) .same (.macFrozen t complex)) (.each (fun sl _ u => ?_) _)
  rw [if_pos rfl]
  exact .refl u

end Sys2Proof.Machine
end

section
/-!
SUPPORT. The words of HRC under the applications of the cascade's groups (R422).
-/

set_option Elab.async false

namespace Sys2Proof.Machine

/-! ### Lanes and roles -/

/-- A word of one of the eight lanes. -/
theorem outsideHrc_lane {l a : Nat} (lane : l < 8) (low : A.cmacLaneStatus l ≤ a) (high : a < A.cmacLaneStatus l + 0x100) : OutsideHrc a := by
  unfold A.cmacLaneStatus at low high
  omega

section
variable {l : Nat} (lane : l < 8)
include lane

theorem outsideHrc_laneStatus : OutsideHrc (A.cmacLaneStatus l) := outsideHrc_lane lane (Nat.le_refl _) (by omega)

theorem outsideHrc_laneEvent : OutsideHrc (A.cmacLaneEvent l) :=
  outsideHrc_lane lane (by unfold A.cmacLaneStatus A.cmacLaneEvent; omega) (by unfold A.cmacLaneStatus A.cmacLaneEvent; omega)

theorem HrcKept.setRole (s : State) (r : Nat) : HrcKept s (s.setRole l r) :=
  .ite (.refl s) (.trans (.sfW s _ _ _ (outsideHrc_laneStatus lane)) (.event _ 3 (outsideHrc_laneEvent lane)))

theorem HrcKept.dropOffer (s : State) : HrcKept s (s.dropOffer l) := by
  have word : ∀ (t : State) (a : Nat) (v : Word), A.cmacLanePeerLo l ≤ a → a ≤ A.cmacLanePeerInfo l → HrcKept t (t.wr a v) :=
    fun t a v low high => .wr t v (outsideHrc_lane lane (by unfold A.cmacLanePeerLo at low; unfold A.cmacLaneStatus; omega)
      (by unfold A.cmacLanePeerInfo at high; unfold A.cmacLaneStatus; omega))
  unfold State.dropOffer State.wr64
  extract_lets t
  refine .trans (.trans (.trans (t := t) .same (word t _ _ ?_ ?_)) (word _ _ _ ?_ ?_)) (word _ _ _ ?_ ?_)
  all_goals
    simp only [A.cmacLanePeerLo, A.cmacLanePeerInfo]
    omega

end

theorem HrcKept.setCas (s : State) (f : Cas → Cas) : HrcKept s (s.setCas f) := .same

theorem HrcKept.casEvent (s : State) (b : Nat) : HrcKept s (s.raise A.casEvent b) := .event s b (by decide)

theorem HrcKept.showTree (s : State) : HrcKept s s.showTree := by
  unfold State.showTree
  extract_lets c n t u v w p
  have counted : HrcKept s w := .trans (.trans (.trans (.sfW s _ _ _ (by decide)) (.wr t _ (by decide))) (.sfW u _ _ _ (by decide)))
    (.wr v _ (by decide))
  exact .ite counted ((counted.trans (.sfW w _ _ _ (by decide))).trans (.casEvent _ 0))

theorem HrcKept.sendPeorel (s : State) (l type len : Nat) (body : Bytes) : HrcKept s (s.sendPeorel l type len body) := .same

theorem HrcKept.sendOp (s : State) (l type : Nat) (o : CasOp) : HrcKept s (s.sendOp l type o) := .sendPeorel s l type _ _

theorem HrcKept.greetChild (s : State) (l : Nat) : HrcKept s (s.greetChild l) := .each (fun _ _ t => .sendPeorel t l 3 _ _) s

theorem HrcKept.assignRole (s : State) {l : Nat} (lane : l < 8) (n : Nat) : HrcKept s (s.assignRole l n).2 := by
  have taken : ∀ r, HrcKept s (s.setRole l r) := .setRole lane s
  unfold State.assignRole
  split
  · exact taken 1
  · exact .ite ((taken _).trans (.greetChild _ l))
      (.ite (((taken _).trans (.tally _ 1 (by decide))).trans (.casEvent _ 11)) (taken _))

theorem HrcKept.assignRoles (s : State) : HrcKept s s.assignRoles := by
  have each : ∀ (q : List Nat) (p : Nat × State), (∀ l ∈ q, l < 8) → HrcKept p.2 (q.foldl (fun p l => p.2.assignRole l p.1) p).2 := by
    intro q
    induction q with
    | nil => exact fun p _ => .refl p.2
    | cons l q ih =>
      exact fun p lanes => (HrcKept.assignRole p.2 (lanes l List.mem_cons_self) p.1).trans
        (ih _ (fun m k => lanes m (List.mem_cons_of_mem l k)))
  exact (each _ (0, s) (fun l m => List.mem_range.mp m)).trans (.showTree _)

theorem HrcKept.wr64 (s : State) {a : Nat} (v : Int) (out : 0x58000 ≤ a) : HrcKept s (s.wr64 a v) :=
  .trans (.wr s _ (.inr out)) (.wr _ _ (.inr (by omega)))

theorem HrcKept.showRidge (s : State) (ridge prio seq : Nat) (path : List Nat) : HrcKept s (s.showRidge ridge prio seq path) := by
  unfold State.showRidge
  extract_lets t u
  have named : HrcKept s t := .ite (.refl s) (.trans (.trans (.wr64 s _ (by decide)) (.casEvent _ 1)) (.toUnavailable _ (by decide)))
  have shown : HrcKept t u := .trans (.wr t _ (by decide)) (.wr _ _ (by decide))
  have hop : ∀ i ∈ List.range 9, ∀ v : State, HrcKept v (v.wr64 (A.casPath (2 * i)) (path.getD i 0 : Nat)) := fun i _ v =>
    .wr64 v _ (by unfold A.casPath; omega)
  exact (named.trans shown).trans (.trans (.each hop u) .same)

theorem HrcKept.takePlace (s : State) (pos : Nat) (up : Option Nat) (depth : Nat) : HrcKept s (s.takePlace pos up depth) := by
  unfold State.takePlace
  extract_lets moved t u v
  have placed : HrcKept s u := .trans (.trans (.sfW s _ _ _ (by decide)) (.setBit _ _ _ (by decide))) (.sfW t _ _ _ (by decide))
  have held : HrcKept s v := .ite placed ((placed.trans (.sfW u _ _ _ (by decide))).trans (.casEvent _ 0))
  exact .ite ((held.trans (.tally v 1 (by decide))).trans (.casEvent _ 2)) held

theorem HrcKept.casOff (s : State) : HrcKept s s.casOff := by
  unfold State.casOff
  extract_lets t u
  have alone : HrcKept s t := .trans (.takePlace s _ _ _) (.showRidge _ _ _ _ _)
  have idle : HrcKept t u := .each (fun l m v => .trans (.setRole (List.mem_range.mp m) v 0) .same) t
  have shown : ∀ v : State, HrcKept v ((((v.sfW A.casStatus 12 3 0).wr A.casSubCount 0).wr A.casSubDelay 0).wr A.casSubDepth 0) :=
    fun v => .trans (.trans (.trans (.sfW v 12 3 0 (by decide)) (.wr _ 0 (by decide))) (.wr _ 0 (by decide))) (.wr _ 0 (by decide))
  exact (alone.trans idle).trans (shown u)

theorem HrcKept.choosePosition (s : State) (tick : Bool) : HrcKept s (s.choosePosition tick) := by
  have placed : ∀ pos up depth ridge prio seq path, HrcKept s (((s.takePlace pos up depth).showRidge ridge prio seq path).assignRoles) :=
    fun pos up depth ridge prio seq path => .trans (.trans (.takePlace s pos up depth) (.showRidge _ ridge prio seq path)) (.assignRoles _)
  unfold State.choosePosition
  refine .ite (.casOff s) ?_
  extract_lets prio offers own
  split
  · exact placed _ _ _ _ _ _ _
  · refine .ite (placed _ _ _ _ _ _ _) ?_
    split
    · exact .refl s
    · exact placed _ _ _ _ _ _ _

theorem HrcKept.laneDown (s : State) {l : Nat} (lane : l < 8) : HrcKept s (s.laneDown l) := by
  unfold State.laneDown
  extract_lets up t u v w x
  have status : OutsideHrc (A.cmacLaneStatus l) := outsideHrc_laneStatus lane
  have shown : HrcKept s t := .trans (.trans (.sfW s _ _ _ status) (.setBit _ _ _ (by decide))) (.setBit _ _ _ status)
  have counted : HrcKept t u := .trans (.tally t 1 (.inl (by unfold A.cmacLaneLinkDown; omega))) (.event _ 1 (outsideHrc_laneEvent lane))
  have left : HrcKept u x := .trans (.trans (.dropOffer lane u) (.trans (t := w) .same (.refl w))) (.setRole lane w 0)
  have down := (shown.trans counted).trans left
  exact .ite (.ite (down.trans (.choosePosition x false)) (down.trans (.showTree x))) (.refl s)

theorem HrcKept.dropLanes (s : State) : HrcKept s s.dropLanes :=
  .each (fun _ m t => .ite (.laneDown t (List.mem_range.mp m)) (.refl t)) s

/-! ### The groups of the lanes and CAS_CFG -/

theorem HrcKept.casFrozen (s : State) : HrcKept s s.casFrozen := by
  unfold State.casFrozen
  extract_lets bad t
  have frozen : HrcKept s t := .trans (.setBit s _ _ (by decide)) (.setBit _ _ _ (by decide))
  have lanes : HrcKept t (t.each (List.range 8) (fun l u => u.setBit (A.cmacLaneStatus l) 8 (s.laneStruck l || s.laneDark l))) :=
    .each (fun l m u => .setBit u _ _ (outsideHrc_laneStatus (List.mem_range.mp m))) t
  exact (frozen.trans lanes).trans (.trans (.setBit _ _ _ (by decide)) (.setBit _ _ _ (by decide)))

theorem HrcKept.applyCmacPort (s : State) (old : Nat → Word) : HrcKept s (s.applyCmacPort old) :=
  .trans (.each (fun _ m t => .laneDown t (List.mem_range.mp (List.mem_of_mem_filter m))) s) (.casFrozen _)

theorem HrcKept.applyCmacCal (s : State) : HrcKept s s.applyCmacCal := .trans (.each (fun _ _ t => .ite (.refl t) .same) s) (.casFrozen _)

theorem HrcKept.armTick (s : State) : HrcKept s s.armTick := by
  unfold State.armTick
  exact .ite (.ite (.refl s) (.calNew s _)) (.trans .same (.calUsed _))

theorem HrcKept.applyCasCfg (s : State) : HrcKept s s.applyCasCfg := by
  have ticking : HrcKept s s.casFrozen.armTick := .trans (.casFrozen s) (.armTick _)
  exact .ite (.ite (ticking.trans (.choosePosition _ false)) ticking) (ticking.trans (.casOff _))

/-! ### CAS_OP (R422) -/

theorem HrcKept.putResult (s : State) (id op status : Nat) (rest : List Word) : HrcKept s (s.putResult id op status rest) := by
  unfold State.putResult
  extract_lets seq w
  exact .trans (.trans (.trans (t := s.setCas _) .same (.wr _ _ (by decide))) (.setBit _ _ _ (by decide))) (.casEvent _ 5)

theorem HrcKept.floodDone (s : State) (id op status : Nat) (r : OpResult) (requester tag : Nat) :
    HrcKept s (s.floodDone id op status r requester tag) := by
  have here : ∀ t : State, HrcKept t (t.doneHere id op status r requester tag) := fun t =>
    .ite (.refl t) (.trans (.trans (.putResult t id op status _) .same) (.setBit _ _ _ (by decide)))
  exact .trans (.each (fun _ _ t => .same) s) (here _)

theorem HrcKept.showOutstanding (s : State) : HrcKept s s.showOutstanding := .sfW s _ _ _ (by decide)

theorem HrcKept.reportOp (s : State) (o : CasOp) : HrcKept s (s.reportOp o) := by
  unfold State.reportOp
  extract_lets r t
  have shown : HrcKept s t := .trans .same (.showOutstanding _)
  refine .ite (shown.trans (.floodDone t _ _ _ _ _ _)) ?_
  split
  · exact shown.trans (.sendPeorel t _ _ _ _)
  · exact shown

theorem HrcKept.reportIfReady (s : State) (id : Nat) : HrcKept s (s.reportIfReady id) := by
  unfold State.reportIfReady
  split
  · exact .ite (.reportOp s _) (.refl s)
  · exact .refl s

theorem HrcKept.holdOp (s : State) (o : CasOp) : HrcKept s (s.holdOp o) := by
  unfold State.holdOp
  extract_lets lanes t slot x u v
  have listed : HrcKept s u := .trans (.trans (t := t) (.each (fun l _ w => .sendOp w l 3 o) s) (.refl t)) .same
  have entered : HrcKept u v := by
    unfold v
    clear_value slot
    split
    · exact .trans (.calNew u _) (.casEvent _ 3)
    · exact .tally u 1 (by decide)
  exact ((listed.trans entered).trans (.showOutstanding v)).trans (.reportIfReady _ o.id)

theorem HrcKept.issueOp (s : State) (o : CasOp) : HrcKept s (s.issueOp o) := by
  unfold State.issueOp
  extract_lets sub refuse id
  have refusedOps : ∀ t : State, HrcKept t (t.inc A.casOpsRefused) := fun t => .tally t 1 (by decide)
  have issuedOps : ∀ t : State, HrcKept t (t.inc A.casOpsIssued) := fun t => .tally t 1 (by decide)
  have refused : ∀ st, HrcKept s (refuse st) := fun st => .trans (refusedOps s) (.floodDone _ _ _ _ _ _ _)
  exact .ite (refused 0x40) (.ite (refused 0x0C) (.trans (.trans (issuedOps s) .same) (.holdOp _ _)))

theorem HrcKept.requestOp (s : State) (o : CasOp) : HrcKept s (s.requestOp o) := by
  unfold State.requestOp
  refine .ite (.issueOp s o) ?_
  split
  · exact .sendOp s _ 2 o
  · exact .refl s

theorem HrcKept.applyCasOp (s : State) : HrcKept s s.applyCasOp := by
  unfold State.applyCasOp
  extract_lets op tag t
  have asked : HrcKept s t := .trans (.casFrozen s) (.setCas _ _)
  exact .ite (.casFrozen s) ((asked.trans (.setBit t _ _ (by decide))).trans (.requestOp _ _))

end Sys2Proof.Machine
end

section
/-!
SUPPORT. The words of HRC under the applications of the groups of HIF, PKE, RCP and TAL.
-/

set_option Elab.async false

namespace Sys2Proof.Machine

/-! ### Frames used again -/

theorem HrcKept.hif {s t : State} (h : RegFrame InHif s t) : HrcKept s t := h.mono (fun _ => outsideHrc_of_hif)

/-- A job whose ring, when it has one, is one of block HIF's. -/
def RingListed (j : PkeJob) : Prop := ∀ r, j.ring = some r → r.1 < 256

theorem ringListed_of_ofRing {n : Nat} (listed : n < 256) {j : PkeJob} (h : j.ofRing n = true) : RingListed j := by
  intro r e
  simp only [PkeJob.ofRing, e, Option.any_some, decide_eq_true_eq] at h
  omega

/-! ### Slots, cores and jobs -/

theorem HrcKept.showSlot (s : State) (k : Nat) : HrcKept s (s.showSlot k) := .wr s _ (.inr (by unfold A.pkeSlot; omega))

theorem HrcKept.setSlot (s : State) (k : Nat) (x : KeySlot) : HrcKept s (s.setSlot k x) := .trans .same (.showSlot _ k)

theorem outsideHrc_core (c : Nat) : OutsideHrc (A.pkeCoreStatus c) ∧ OutsideHrc (A.pkeCoreTag c) ∧ OutsideHrc (A.pkeCoreWipes c) := by
  refine ⟨.inr ?_, .inr ?_, .inr ?_⟩
  · unfold A.pkeCoreStatus; omega
  · unfold A.pkeCoreTag; omega
  · unfold A.pkeCoreWipes; omega

theorem HrcKept.showCore (s : State) (c : Nat) : HrcKept s (s.showCore c) := by
  obtain ⟨status, tag, -⟩ := outsideHrc_core c
  unfold State.showCore
  extract_lets x run r st t u
  have shown : HrcKept s u := .trans (.wr s _ status) (.wr t _ tag)
  exact shown.trans (.trans (.sfW u _ _ _ (by decide)) (.sfW _ _ _ _ (by decide)))

theorem HrcKept.setCore (s : State) (c : Nat) (f : PkeCore → PkeCore) : HrcKept s (s.setCore c f) := .trans .same (.showCore _ c)

theorem HrcKept.setQueuePke (s : State) (f : List PkeJob → List PkeJob) : HrcKept s (s.setQueuePke f) := by
  have shown : ∀ t : State, HrcKept t (t.sfW A.pkeQueue 0 11 t.pke.queue.length) := fun t => .sfW t 0 11 _ (by decide)
  exact .trans (t := { s with pke := { s.pke with queue := f s.pke.queue } }) .same (shown _)

theorem HrcKept.saveKeys (s : State) : HrcKept s s.saveKeys := .same

theorem HrcKept.fillSlot (s : State) (j : PkeJob) (status : Nat) (priv : Bytes) : HrcKept s (s.fillSlot j status priv) := by
  have filled : ∀ k x, HrcKept s ((s.setSlot k x).raise A.pkeEvent 0) := fun k x => .trans (.setSlot s k x) (.event _ 0 (by decide))
  have journaled : ∀ t : State, ∀ r alg usage, HrcKept t (t.journalKeyOp r alg usage status) := fun t r alg usage => .record t _ _ _ _ _
  unfold State.fillSlot
  extract_lets r k alg w x u t
  have stored : HrcKept s t :=
    .ite (.ite ((filled k x).trans (.saveKeys _)) (filled k x)) (.ite (.setSlot s k _) (.refl s))
  exact stored.trans (journaled t _ _ _)

theorem HrcKept.postCompletion (s : State) {n : Nat} (listed : n < 256) (slot status flags length : Nat) (user : Bytes) :
    HrcKept s (s.postCompletion n slot status flags length user) := .hif (.postCompletion s n _ _ _ _ _ (inHif_hifRingPosted listed))

theorem HrcKept.showRing (s : State) {n : Nat} (listed : n < 256) : HrcKept s (s.showRing n) := .hif (.showRing_hif s listed)

theorem HrcKept.endJob (s : State) {n : Nat} (listed : n < 256) (slot status length : Nat) :
    HrcKept s (s.endJob n slot status length) := by
  unfold State.endJob
  split
  · exact .refl s
  · next x _ =>
    extract_lets t u
    exact .trans (.trans (t := t) .same (.ite (.postCompletion t listed _ _ _ _ _) (.refl t))) (.showRing u listed)

theorem HrcKept.finalProgress (s : State) (j : PkeJob) (status : Nat) : HrcKept s (s.finalProgress j status) := .ite .same (.refl s)

theorem HrcKept.finishJob (s : State) {j : PkeJob} (ring : RingListed j) (status detail : Nat) (out : Bytes) (core cycles : Nat) :
    HrcKept s (s.finishJob j status detail out core cycles) := by
  have counted : ∀ t : State, HrcKept t (t.inc A.pkeJobsOk) ∧ HrcKept t (t.inc A.pkeJobsFail) ∧ HrcKept t (t.inc A.pkeAborted) ∧
      HrcKept t (t.inc A.pkeFencedJobs) := fun t => ⟨.tally t 1 (by decide), .tally t 1 (by decide), .tally t 1 (by decide),
    .tally t 1 (by decide)⟩
  unfold State.finishJob
  extract_lets r t u
  have ended : HrcKept s u := .trans (.ite (counted s).1 (counted s).2.1)
    (.ite (counted t).2.2.1 (.ite (counted t).2.2.2 (.refl t)))
  split
  · exact ended
  · next n d here =>
    extract_lets live v w x y
    have written : HrcKept u y := .trans (.trans (.trans (.ite .same (.refl u)) (.ite .same (.refl v)))
      (.ite (.finalProgress w j status) (.refl w))) (.ite .same (.refl x))
    exact (ended.trans written).trans (.endJob y (ring _ here) _ _ _)

theorem HrcKept.stopJob (s : State) {j : PkeJob} (ring : RingListed j) (status core cycles : Nat) :
    HrcKept s (s.stopJob j status core cycles) := by
  unfold State.stopJob
  exact .trans (.ite (.fillSlot s _ _ _) (.refl s)) (.finishJob _ ring _ _ _ _ _)

theorem HrcKept.wipeCore (s : State) (c : Nat) : HrcKept s (s.wipeCore c) :=
  .trans (.trans (.tally s _ (.inr (by unfold A.pkeCoreCycles; omega))) (.tally _ 1 (.inr (by unfold A.pkeCoreWipes; omega))))
    (.setCore _ c _)

section
variable {p : PkeJob → Bool} (rings : ∀ j, p j = true → RingListed j)
include rings

/-- Jobs that `p` holds of end, wherever they wait. -/
theorem HrcKept.stopJobs (s : State) (l : List PkeJob) (status core : Nat) (cycles : PkeJob → Nat) :
    HrcKept s (s.each (l.filter p) (fun j u => u.stopJob j status core (cycles j))) :=
  .each (fun j m t => .stopJob t (rings j (List.mem_filter.mp m).2) _ _ _) s

theorem HrcKept.stopCore (s : State) (c status : Nat) : HrcKept s (s.stopCore c status p) := by
  unfold State.stopCore
  extract_lets x t hit u
  have freed : HrcKept s t := by
    unfold t
    split
    · next j _ =>
      by_cases h : p j = true
      · rw [if_pos h]
        exact .trans (.wipeCore s c) (.stopJob _ (rings j h) _ _ _)
      · rw [if_neg h]
        exact .refl s
    · exact .refl s
  have kept : HrcKept t u := .ite (.refl t) (.setCore t c _)
  exact (freed.trans kept).trans (.stopJobs rings u _ status c _)

theorem HrcKept.abortJobs (s : State) : HrcKept s (s.abortJobs p) :=
  .trans (.trans (.setQueuePke s _) (.stopJobs rings _ _ 1 0xFF (fun _ => 0))) (.each (fun c _ t => .stopCore rings t c 1) _)

end

theorem HrcKept.pkeFrozen (s : State) : HrcKept s s.pkeFrozen := .setBit s _ _ (by decide)

/-! ### Rings (R346) -/

section
variable {n : Nat} (listed : n < 256)
include listed

theorem outsideHrc_ringState : OutsideHrc (A.hifRingState n) := outsideHrc_of_hif (inHif_hifRingState listed)

theorem HrcKept.setRingState (s : State) (st reason : Nat) : HrcKept s (s.setRingState n st reason) := by
  unfold State.setRingState
  extract_lets t u v
  have shown : HrcKept s u := .trans (.trans (.sfW s _ _ _ (outsideHrc_ringState listed)) (.sfW _ _ _ _ (outsideHrc_ringState listed)))
    (.sfW t _ _ _ (by decide))
  have raised : HrcKept u v := .when (.event u 3 (by decide))
  exact .ite (.refl s) ((shown.trans raised).trans (.hif (.postEvent_hif v _ _ _ _ _)))

theorem HrcKept.quiesce (s : State) : HrcKept s (s.quiesce n) := by
  unfold State.quiesce
  extract_lets t u rest v
  have flushed : HrcKept t u := .ite (.refl t) (.hif (.flushBuffer t n (inHif_hifRingPosted listed)))
  exact (((HrcKept.setRingState listed s 2 0).trans flushed).trans (.trans (t := v) .same (.refl v))).trans
    (.hif (.drainRing_hif v listed))

theorem HrcKept.ringOff (s : State) : HrcKept s (s.ringOff n) :=
  .trans (.trans (.setRingState listed s 0 0) .same) (.showRing _ listed)

theorem HrcKept.ringStart (s : State) : HrcKept s (s.ringStart n) := by
  unfold State.ringStart
  extract_lets t u
  have cleared : HrcKept s u := .trans (t := t) .same
    (.trans (.wr t _ (.inl (by unfold A.hifRingFetched; omega))) (.wr _ _ (.inl (by unfold A.hifRingPosted; omega))))
  exact (cleared.trans (.setRingState listed u 1 0)).trans (.hif (.pumpJournal_hif _))

theorem HrcKept.dropQueued (s : State) (sl status : Nat) : HrcKept s (s.dropQueued sl status (fun r => decide (r.1 = n))) := by
  unfold State.dropQueued
  extract_lets hit t
  refine .trans (t := t) .same (.each (fun x m u => ?_) t)
  have here := (List.mem_filter.mp m).2
  split
  · next k slot _ e =>
    simp only [e, Option.any_some, decide_eq_true_eq] at here
    exact .hif (.endWork_hif u (by omega) _ _ _)
  · exact .refl u

theorem HrcKept.quiesceRing (s : State) : HrcKept s (s.quiesceRing n) := by
  have rings : ∀ j, PkeJob.ofRing n j = true → RingListed j := fun j => ringListed_of_ofRing listed
  unfold State.quiesceRing
  extract_lets t jobs
  have quiet : HrcKept s t := .quiesce listed s
  exact .ite (quiet.trans (.trans (.setQueuePke t _) (.stopJobs rings _ _ 1 0xFF (fun _ => 0))))
    (.ite (quiet.trans (.each (fun sl _ u => .dropQueued listed u sl 1) t)) quiet)

theorem HrcKept.stopRing (s : State) : HrcKept s (s.stopRing n) := by
  have rings : ∀ j, PkeJob.ofRing n j = true → RingListed j := fun j => ringListed_of_ofRing listed
  exact .trans (.trans (.abortJobs rings s) (.each (fun _ _ _ => .same) _)) (.ringOff listed _)

theorem HrcKept.applyRing (s : State) (was : Bool) : HrcKept s (s.applyRing n was) :=
  .ite (.ite (.ringStart listed s) (.refl s)) (.ite (.refl s) (.ite (.ite (.quiesceRing listed s) (.refl s))
    (.ite (.stopRing listed s) (.refl s))))

end

theorem HrcKept.applyHifRing (s : State) (old : Nat → Word) : HrcKept s (s.applyHifRing old) :=
  .each (fun _ m t => .applyRing (List.mem_range.mp m) t _) s

theorem HrcKept.applyHifCfg (s : State) (old : Nat → Word) : HrcKept s (s.applyHifCfg old) := by
  have frozen : HrcKept s s.hifFrozen := .setBit s _ _ (by decide)
  exact .ite frozen (frozen.trans (.calOwn _ _))

/-! ### RCP_CFG (R295) -/

theorem HrcKept.wrBytes (s : State) {a : Nat} (n : Nat) (b : Bytes) (out : 0x58000 ≤ a) : HrcKept s (s.wrBytes a n b) :=
  .each (fun _ _ t => .wr t _ (.inr (by omega))) s

theorem HrcKept.showRcp (s : State) : HrcKept s s.showRcp := by
  unfold State.showRcp
  extract_lets t
  have shown : HrcKept s t := .trans (.sfW s _ _ _ (by decide)) (.setBit _ _ _ (by decide))
  exact (shown.trans (.setBit t _ _ (by decide))).trans (.setBit _ _ _ (by decide))

theorem HrcKept.showOnline (s : State) : HrcKept s s.showOnline := by
  have key : ∀ v pub cert, HrcKept s (((s.wr A.rcpKeyId v).wrBytes (A.rcpOnlinePub 0) 8 pub).wrBytes (A.rcpCert 0) 32 cert) :=
    fun v pub cert => .trans (.trans (.wr s v (by decide)) (.wrBytes _ 8 pub (by decide))) (.wrBytes _ 32 cert (by decide))
  unfold State.showOnline
  extract_lets t
  have shown : HrcKept s t := by
    unfold t
    split <;> exact key _ _ _
  exact shown.trans (.trans (.trans (.wr t _ (by decide)) (.wr _ _ (by decide))) (.showRcp _))

theorem HrcKept.applyRcpCfg (s : State) (old : Nat → Word) (closeNs : Nat) : HrcKept s (s.applyRcpCfg old closeNs) := by
  unfold State.applyRcpCfg
  extract_lets t u
  have armed : HrcKept s t := .ite (.refl s) (.calOwn s _)
  exact (armed.trans (.ite (.refl t) .same)).trans (.showOnline u)

/-! ### TAL (R501, R506) -/

theorem HrcKept.showTal (s : State) : HrcKept s s.showTal := by
  unfold State.showTal
  extract_lets t
  have on : HrcKept s t := .setBit s _ _ (by decide)
  exact (on.trans (.setBit t _ _ (by decide))).trans (.setBit _ _ _ (by decide))

theorem HrcKept.armTally (s : State) (afterNs : Nat) : HrcKept s (s.armTally afterNs) := .ite (.calOwn s _) (.calDrop s _ _)

theorem HrcKept.applyTalCfg (s : State) (old : Nat → Word) (atNs : Nat) : HrcKept s (s.applyTalCfg old atNs) := by
  unfold State.applyTalCfg
  extract_lets t u
  have opened : HrcKept s u := (HrcKept.showTal s).trans (.ite .same (.refl t))
  exact .ite opened (opened.trans (.armTally u atNs))

theorem HrcKept.applyTalSample (s : State) : HrcKept s s.applyTalSample := .trans .same (.showTal _)

end Sys2Proof.Machine
end

section
/-!
SUPPORT. The words of HRC under the applications of the groups of GNSS, TTU and PWR.
-/

set_option Elab.async false

namespace Sys2Proof.Machine

/-! ### The sides of the receiver (R134, R145, R152) -/

theorem HrcKept.surveyRecord (s : State) (a : Nat) (v : Survey) (phase status progress : Nat) :
    HrcKept s (s.surveyRecord a v phase status progress) := by
  have wrote : HrcKept s (s.when (decide (v.buf ≠ 0)) (fun u => u.hostWrite v.buf (u.surveyResult a v))) := .when (g := fun u =>
    u.hostWrite v.buf (u.surveyResult a v)) .same
  exact .when (wrote.trans .same)

section
variable {a : Nat} (side : a < 2)
include side

theorem outsideHrc_startWord {x : Nat} (h : StartWord a x) : OutsideHrc x := by
  unfold StartWord InChans A.gnsSideStatus A.gnsSideBias at h
  omega

theorem outsideHrc_sideStatus : OutsideHrc (A.gnsSideStatus a) := outsideHrc_startWord side (.inl rfl)

theorem HrcKept.haltSide (s : State) : HrcKept s (s.haltSide a) :=
  .trans (.setBit s _ _ (by decide)) ((RegFrame.haltAfter s a).mono (fun _ => outsideHrc_startWord side))

theorem HrcKept.startSide (s : State) : HrcKept s (s.startSide a) :=
  .trans (.trans (.setBit s _ _ (by decide)) (.sfW _ 8 2 (s.startKind a) (outsideHrc_sideStatus side)))
    ((RegFrame.startAfter s a).mono (fun _ w => outsideHrc_startWord side (.inr w)))

theorem HrcKept.biasOn (s : State) (on : Bool) : HrcKept s (s.biasOn a on) :=
  (RegFrame.biasOn s a on).mono (fun _ w => outsideHrc_startWord side (.inr (.inl w)))

theorem HrcKept.endSurvey (s : State) (status : Nat) : HrcKept s (s.endSurvey a status) := by
  unfold State.endSurvey
  split
  · exact .refl s
  · next v _ =>
    extract_lets t
    have recorded : HrcKept s t := .surveyRecord s a v 3 status _
    exact (recorded.trans .same).trans (.trans (.sfW (t.setSide a _) 6 2 0 (outsideHrc_sideStatus side))
      (.event _ 4 (.inl (by unfold A.gnsSideEvent; omega))))

theorem HrcKept.stopSide (s : State) : HrcKept s (s.stopSide a) := .trans (.endSurvey side s 1) (.haltSide side _)

theorem HrcKept.surveyStart (s : State) (prog buf : Nat) : HrcKept s (s.surveyStart a prog buf) := by
  unfold State.surveyStart
  extract_lets v
  have shown : ∀ t : State, HrcKept t (t.showSurvey a v) := fun t => .trans (.trans (.sfW t _ _ _ (outsideHrc_sideStatus side))
    (.sfW _ _ _ _ (.inl (by unfold A.gnsSideSurveyElapsed; omega)))) (.wr _ _ (.inl (by unfold A.gnsSideSurveySigma; omega)))
  exact .trans .same (shown _)

theorem outsideHrc_position : OutsideHrc (A.gnsSidePosX a) ∧ OutsideHrc (A.gnsSidePosY a) ∧ OutsideHrc (A.gnsSidePosZ a) ∧
    OutsideHrc (A.gnsSidePosSigma a) := by
  refine ⟨.inl ?_, .inl ?_, .inl ?_, .inl ?_⟩
  · unfold A.gnsSidePosX; omega
  · unfold A.gnsSidePosY; omega
  · unfold A.gnsSidePosZ; omega
  · unfold A.gnsSidePosSigma; omega

theorem HrcKept.positionWords (s : State) (x y z sigma : Word) :
    HrcKept s ((((s.wr (A.gnsSidePosX a) x).wr (A.gnsSidePosY a) y).wr (A.gnsSidePosZ a) z).wr (A.gnsSidePosSigma a) sigma) := by
  obtain ⟨px, py, pz, sg⟩ := outsideHrc_position side
  exact .trans (.trans (.trans (.wr s x px) (.wr _ y py)) (.wr _ z pz)) (.wr _ sigma sg)

theorem HrcKept.putPosition (s : State) (p : Int × Int × Int) (sigma : Nat) (fixed : Bool) :
    HrcKept s (s.putPosition a p sigma fixed) := by
  unfold State.putPosition
  extract_lets t u
  have flagged : HrcKept t u := .trans (.setBit t _ _ (outsideHrc_sideStatus side)) (.setBit _ _ _ (outsideHrc_sideStatus side))
  exact ((HrcKept.positionWords side s _ _ _ _).trans flagged).trans .same

theorem HrcKept.clearPosition (s : State) : HrcKept s (s.clearPosition a) :=
  .trans (.positionWords side s _ _ _ _) (.sfW _ _ _ _ (outsideHrc_sideStatus side))

theorem HrcKept.replayStart (s : State) : HrcKept s (s.replayStart a) := by
  unfold State.replayStart
  extract_lets h ms t
  have shown : HrcKept s t := .trans (.trans (.setBit s (2 + a) true (a := A.gnsStatus) (by decide))
    (.setBit _ 10 true (outsideHrc_sideStatus side))) .same
  exact shown.trans .same

theorem HrcKept.replayStop (s : State) : HrcKept s (s.replayStop a) := by
  have shown : HrcKept s ((s.setBit A.gnsStatus (2 + a) false).setBit (A.gnsSideStatus a) 10 false) :=
    .trans (.setBit s _ _ (by decide)) (.setBit _ _ _ (outsideHrc_sideStatus side))
  exact .ite ((shown.trans .same).trans (.startSide side _)) (.refl s)

end

/-! ### Snapshots (R154, R155) -/

theorem HrcKept.setSnap (s : State) (st : Nat) : HrcKept s (s.setSnap st) := .trans (.sfW s _ _ _ (by decide)) (.sfW _ _ _ _ (by decide))

theorem HrcKept.snapFinish (s : State) (trigger ms st : Nat) : HrcKept s (s.snapFinish trigger ms st) := by
  have listed : ∀ (t : State) (m : Nat), HrcKept t (t.snapListed m ms) := fun t m => (RegFrame.snapListed t m ms).mono (by
    rintro _ rfl
    decide)
  obtain ⟨header, finish⟩ := snapFinish_eq s trigger ms st
  rw [finish]
  exact .trans (.trans (.trans (.same (snapHeaded_regs s header)) (.setSnap _ st)) (listed _ _)) (.event _ 1 (by decide))

theorem HrcKept.snapAbort (s : State) : HrcKept s s.snapAbort :=
  .ite (.snapFinish s _ _ _) (.ite (.ite (.snapFinish s _ _ _) (.trans .same (.snapFinish _ _ _ _))) (.refl s))

theorem HrcKept.snapArm (s : State) : HrcKept s s.snapArm := .trans .same (.setSnap _ 1)

/-! ### The groups of the receiver (R152, R158) -/

theorem HrcKept.applyGnsCfg (s : State) (old : Nat → Word) : HrcKept s (s.applyGnsCfg old) := by
  unfold State.applyGnsCfg
  extract_lets t
  have thawed : HrcKept s t := .setBit s _ _ (by decide)
  refine thawed.trans (.each (fun a m u => ?_) t)
  have side : a < 2 := by
    simp only [List.mem_cons, List.not_mem_nil, or_false] at m
    omega
  extract_lets v was
  have shown : HrcKept u v := .setBit u _ _ (outsideHrc_sideStatus side)
  have loading : HrcKept v (v.setBit A.gnsStatus a false) := .setBit v a false (by decide)
  exact .ite (shown.trans (loading.trans .same))
    (.ite (shown.trans (.stopSide side v)) (.ite (shown.trans (.biasOn side v _)) shown))

theorem HrcKept.applyGnsCmd (s : State) : HrcKept s s.applyGnsCmd := by
  have side : s.f A.gnsCmd 4 1 < 2 := Nat.mod_lt _ (by decide)
  have answered : ∀ t : State, ∀ op, HrcKept t ((t.gnsResult op 0).sfW A.gnsCmd 0 4 0) := fun t op =>
    .trans (.trans (.wr t _ (by decide)) (.event _ 2 (by decide))) (.sfW _ _ _ _ (by decide))
  unfold State.applyGnsCmd
  extract_lets op a p t
  refine .trans (t := t) ?_ (answered t op)
  unfold t
  clear_value op
  split
  · exact .surveyStart side s _ _
  · exact .endSurvey side s 1
  · exact .trans (.trans (.endSurvey side s 1) (.putPosition side _ _ _ _)) .same
  · exact .clearPosition side s
  · exact .snapArm s
  · exact .snapAbort s
  · exact .replayStart side s
  · exact .replayStop side s
  · exact .same
  · exact .refl s

/-! ### TTU (R164, R165, R180) -/

theorem HrcKept.applyTtuCh (s : State) (old : Nat → Word) : HrcKept s (s.applyTtuCh old) := by
  unfold State.applyTtuCh
  extract_lets m t
  have thawed : HrcKept s t := .setBit s _ _ (by decide)
  refine thawed.trans (.each (fun c k u => ?_) t)
  have listed : c < 16 := List.mem_range.mp k
  extract_lets was now v w
  have restarted : HrcKept u v := .when .same
  have judged : HrcKept v w := .requalify v (by omega)
  refine .ite (restarted.trans (judged.trans (.each (fun p h z => ?_) w))) restarted
  have pair : p < 64 := by
    simp only [List.mem_cons, List.not_mem_nil, or_false] at h
    omega
  exact .ite (.requalify z pair) (.refl z)

theorem HrcKept.applyTtuProg (s : State) (old : Nat → Word) : HrcKept s (s.applyTtuProg old) := by
  have thawed : HrcKept s (s.setBit A.ttuStatus 0 s.ttuFrozen) := .setBit s _ _ (by decide)
  unfold State.applyTtuProg
  refine thawed.trans (.each (fun p m u => ?_) _)
  have status : OutsideHrc (A.ttuMpStatus p) := .inl (by
    have := List.mem_range.mp m
    unfold A.ttuMpStatus
    omega)
  extract_lets v
  have shown : HrcKept u v := .setBit u _ _ status
  exact shown.trans (.when (.trans .same (.sfW _ _ _ _ status)))

/-! ### Outputs and contacts (R439) -/

theorem HrcKept.armOut (s : State) (k : Nat) : HrcKept s (s.armOut k) := by
  have waved : ∀ t : State, HrcKept t (t.setWave k 0) := fun t => .ite (.refl t) .same
  exact .ite (.ite (.refl s) (.calOwn s _)) (.trans (.calDrop s _ _) (.when (waved _)))

theorem HrcKept.armOuts (s : State) (old : Nat → Word) : HrcKept s (s.armOuts old) := by
  have waved : ∀ (t : State) (k : Nat), HrcKept t (t.setWave k 0) := fun t _ => .ite (.refl t) .same
  exact .each (fun k _ t => .trans (.when (waved t k)) (.armOut _ k)) s

theorem HrcKept.setContact (s : State) (c : Nat) (closed : Bool) : HrcKept s (s.setContact c closed) :=
  .ite (.refl s) (.trans (.setBit s c closed (a := A.pwrIoStatus) (by decide)) .same)

theorem HrcKept.examine (s : State) (c : Nat) : HrcKept s (s.examine c) :=
  .ite (.ite (.trans (.setContact s c false) .same) (.ite .same (.refl s))) (.refl s)

theorem HrcKept.alarmChange (s : State) : HrcKept s s.alarmChange := .trans (.examine s 0) (.examine _ 1)

/-! ### Power domains (R463) -/

theorem HrcKept.sideOff (s : State) {a : Nat} (side : a < 2) : HrcKept s (s.sideOff a) := .trans (.stopSide side s) (.lose _ (by omega))

theorem HrcKept.sideBack (s : State) (a : Nat) : HrcKept s (s.sideBack a) := .ite .same (.refl s)

theorem HrcKept.buildTables (s : State) : HrcKept s s.buildTables := .trans .same (.setBit _ 2 true (a := A.ttuStatus) (by decide))

theorem HrcKept.domainOff (s : State) (d : Nat) : HrcKept s (s.domainOff d) := by
  have noted : ∀ t : State, HrcKept t (t.raise A.pwrEvent 3) := fun t => .event t 3 (by decide)
  unfold State.domainOff
  extract_lets t x y u
  have off : HrcKept s t := .setBit s _ _ (by decide)
  refine .trans (off.trans (t := t) ?_) (noted u)
  unfold u
  split
  · exact .sideOff t (by decide)
  · exact .sideOff t (by decide)
  · exact .trans (.sideOff t (by decide)) (.sideOff _ (by decide))
  · have wiped : HrcKept t y := .trans .same (.setBit _ 2 false (a := A.ttuStatus) (by decide))
    refine wiped.trans (.each (fun i m w => .lose w ?_) y)
    simp only [List.mem_cons, List.not_mem_nil, or_false] at m
    omega
  · exact .trans (.trans (.dropLanes t) (.casOff _)) (.lose _ (by decide))
  · exact .refl t

theorem HrcKept.domainBack (s : State) (d : Nat) : HrcKept s (s.domainBack d) := by
  have noted : ∀ t : State, HrcKept t (t.raise A.pwrEvent 3) := fun t => .event t 3 (by decide)
  unfold State.domainBack
  extract_lets t x u v
  have on : HrcKept s u := .trans (t := t) (.setBit s d true (by decide)) .same
  refine .trans (on.trans (t := u) ?_) (noted v)
  unfold v
  split
  · exact .sideBack u 0
  · exact .sideBack u 1
  · exact .trans (.sideBack u 0) (.sideBack _ 1)
  · exact .trans (.buildTables u) (.each (fun _ _ _ => .same) _)
  · exact .trans (.armTick u) (.choosePosition _ false)
  · exact .refl u

theorem HrcKept.switchDomains (s : State) : HrcKept s s.switchDomains :=
  .each (fun d _ t => .ite (.ite (.refl t) (.domainOff t d)) (.ite (.domainBack t d) (.refl t))) s

theorem HrcKept.applyPwrCfg (s : State) (old : Nat → Word) : HrcKept s (s.applyPwrCfg old) := by
  have thawed : HrcKept s s.pwrFrozen := .trans (.setBit s _ _ (by decide)) (.setBit _ _ _ (by decide))
  exact .trans (.trans (thawed.trans (.armOuts _ old)) (.switchDomains _)) (.alarmChange _)

/-- BOOT_CFG as it was switches no bank. -/
theorem HrcKept.applyBootCfg (s : State) : HrcKept s (s.applyBootCfg s.rd) := by
  intro regs
  unfold State.applyBootCfg
  extract_lets t b
  have thawed : HrcKept s t := .setBit s _ _ (by decide)
  have same : fld (s.rd A.bootCfg) 0 1 = b :=
    congrArg (fun w => fld w 0 1) ((rd_wr s A.bootStatus A.bootCfg _ regs).trans (if_neg (by decide))).symm
  rw [if_neg (fun h => h.1 same)]
  exact thawed regs

end Sys2Proof.Machine
end

section
/-!
SUPPORT. A client query that was served stays shown under every application that follows (R374).
-/

set_option Elab.async false

namespace Sys2Proof.Machine

/-- The query command has no GO, and QUERY_DONE is pending. -/
def QueryServed (s : State) : Prop :=
  CellList.wf resetOf s.regs = true ∧ s.bit A.hrcQueryCmd 0 = false ∧ s.bit A.hrcEvent 4 = true

/-- Words that no change of the query command or of an event's bit is among. -/
abbrev BesideQuery (a : Nat) : Prop := a ≠ A.hrcQueryCmd ∧ a ≠ A.hrcEvent

theorem QueryServed.of_regFrame {s t : State} (served : QueryServed s) (h : RegFrame BesideQuery s t) : QueryServed t := by
  obtain ⟨regs, idle, done⟩ := served
  obtain ⟨wf, kept⟩ := h regs
  exact ⟨wf, (bit_of_rd (kept _ (fun k => k.1 rfl)) 0).trans idle, (bit_of_rd (kept _ (fun k => k.2 rfl)) 4).trans done⟩

theorem QueryServed.kept {s t : State} (served : QueryServed s) (h : HrcKept s t) : QueryServed t :=
  served.of_regFrame (h.mono (fun a out => ⟨by rintro rfl; revert out; decide, by rintro rfl; revert out; decide⟩))

theorem not_inHif_hrc {a : Nat} (h : 0x50000 ≤ a) : ¬ InHif a := not_inHif_of_le (by omega)

/-- An occurrence in HRC. -/
theorem QueryServed.event {s : State} (served : QueryServed s) (b : Nat) : QueryServed (s.raise A.hrcEvent b) := by
  obtain ⟨regs, idle, done⟩ := served
  have raised : FieldKept A.hrcQueryCmd 0 1 s (s.raise A.hrcEvent b) := .raise s b (by decide) (not_inHif_hrc (by decide))
  exact ⟨(raised regs).1, (raised.bit regs).trans idle, raise_bit_of regs (by decide) (not_inHif_hrc (by decide)) done⟩

theorem QueryServed.each {α : Type} {g : α → State → State} (h : ∀ x t, QueryServed t → QueryServed (g x t)) :
    ∀ (l : List α) (s : State), QueryServed s → QueryServed (s.each l g)
  | [], _, served => served
  | x :: l, s, served => QueryServed.each h l (g x s) (h x s served)

/-! ### The groups of HRC (R223, R230, R232) -/

theorem RegFrame.hrcFrozen (s : State) : RegFrame BesideQuery s s.hrcFrozen := .setBit s _ _ _ (by decide)

theorem QueryServed.applyHrcAddr {s : State} (served : QueryServed s) : QueryServed s.applyHrcAddr := by
  have idle : QueryServed ({ s with hrc := { s.hrc with gen := s.hrc.gen + 1 } }.setBit A.hrcStatus 24 false) :=
    served.of_regFrame (.trans (.same rfl) (.setBit _ _ _ _ (by decide)))
  exact (idle.event 1).of_regFrame (.hrcFrozen _)

theorem QueryServed.applyHrcCfg {s : State} (served : QueryServed s) : QueryServed (s.applyHrcCfg s.rd) := by
  have same : s.applyHrcCfg s.rd = s.hrcFrozen := congrArg State.hrcFrozen (if_pos rfl)
  exact same ▸ served.of_regFrame (.hrcFrozen s)

theorem RegFrame.showPipes (s : State) : RegFrame BesideQuery s s.showPipes := by
  have bucket : ∀ p ∈ List.range 16, BesideQuery (A.svpPipeStatus p) := fun p _ => by
    simp only [BesideQuery, A.svpPipeStatus, A.hrcQueryCmd, A.hrcEvent]
    omega
  unfold State.showPipes
  extract_lets n t act
  have counted : RegFrame BesideQuery s t := .each _ _ (fun p m u => .sfW u _ 16 9 (n p) (bucket p m)) s
  exact counted.trans (.trans (.sfW t _ 0 16 act (by decide)) (.setBit _ _ 25 _ (by decide)))

theorem QueryServed.applyHrcMap {s : State} (served : QueryServed s) : QueryServed (s.applyHrcMap s.bucketPipe) := by
  have stays : ∀ (l : List Nat) (t : State), t.each l (fun b u => u.moveBucket b (s.bucketPipe b) (s.bucketPipe b)) = t := by
    intro l
    induction l with
    | nil => exact fun t => rfl
    | cons b l ih => exact fun t => (ih _).trans (if_pos rfl)
  unfold State.applyHrcMap
  rw [stays]
  exact served.of_regFrame ((RegFrame.showPipes s).trans (.hrcFrozen _))

theorem QueryServed.applyHrcQuery_idle {s : State} (served : QueryServed s) : QueryServed s.applyHrcQuery := by
  unfold State.applyHrcQuery
  dsimp only
  rw [if_neg (by rw [served.2.1]; decide)]
  exact served.of_regFrame (.hrcFrozen s)

/-! ### Every group that was held (R374) -/

theorem QueryServed.applyHook {s : State} (served : QueryServed s) (g atNs : Nat) : QueryServed (s.applyHook g s.before atNs) := by
  unfold State.applyHook
  split
  · exact served.kept (.applyTscCtl s)
  · exact served.kept (.applyTscCal s)
  · exact served.kept (.applyTscLeap s _)
  · exact served.kept (.applyTscStep s)
  · exact served.kept (.applyRefCfg s _)
  · exact served.kept (.applyHolCfg s)
  · exact served.kept (.applyGnsCfg s _)
  · exact served.kept (.applyGnsCmd s)
  · exact served.kept (.applyTtuCh s _)
  · exact served.kept (.applyTtuProg s _)
  · exact served.kept (.portApplied s (by decide))
  · exact served.kept (.applyMacFlow s (by decide) _)
  · exact served.kept (.applyMacCal s (by decide))
  · exact served.kept (.portApplied s (by decide))
  · exact served.kept (.applyMacFlow s (by decide) _)
  · exact served.kept (.applyMacCal s (by decide))
  · exact served.applyHrcAddr
  · exact served.applyHrcCfg
  · exact served.applyHrcMap
  · exact served.applyHrcQuery_idle
  · exact served.kept (.applySvpProf s _)
  · exact served.kept (.applyNtsCfg s)
  · exact served.kept (.applyPtpCfg s _)
  · exact served.kept (.applyRcpCfg s _ _)
  · exact served.kept (.pkeFrozen s)
  · exact served.kept (.applyHifCfg s _)
  · exact served.kept (.applyHifRing s _)
  · exact served.kept (.applyPwrCfg s _)
  · exact served.kept (.applyBootCfg s)
  · exact served.kept (.applyTalCfg s _ _)
  · exact served.kept (.applyTalSample s)
  · exact served.kept (.applyCmacPort s _)
  · exact served.kept (.applyCmacCal s)
  · exact served.kept (.applyCasCfg s)
  · exact served.kept (.applyCasOp s)
  · exact served

theorem QueryServed.takeHeld {s : State} (served : QueryServed s) : QueryServed s.takeHeld := by
  refine QueryServed.each (fun g u h => ?_) _ s served
  have unlisted : QueryServed { u with pwr := { u.pwr with heldGroups := u.pwr.heldGroups.filter (fun x => decide (x ≠ g)) } } := h
  exact unlisted.applyHook g u.nowNs

end Sys2Proof.Machine
end

section
/-!
SUPPORT. A plain COMMIT of a group whose boundary is NOW: the staged word, the capture, the boundary and what each keeps (R369 to
R375).
-/

set_option Elab.async false

namespace Sys2Proof.Machine

/-! ### Frames of the sluice -/

theorem PartFrame.testControl (s : State) (src : Source) (a : Nat) (old v : Word) : PartFrame journalParts s (s.testControl src a old v) := by
  unfold State.testControl
  split
  · exact .refl _ s
  · exact .ite (.refl _ s) (.trans (.logFault s _ _ _ _ _ _ _) (.journalize _ _ _ _ _ _))

/-- What a change of the pending set writes (R401). -/
def SluWord (a : Nat) : Prop := a = A.sluStatus ∨ a = A.sluPending0 ∨ a = A.sluPending1 ∨ a = A.tscCalUsed

theorem RegFrame.sluChanged (s : State) : RegFrame SluWord s s.sluChanged := by
  have used : SluWord A.tscCalUsed := .inr (.inr (.inr rfl))
  have shown : RegFrame SluWord s s.showSluice := .trans (.trans (.trans (.sfW s _ _ _ _ (.inl rfl)) (.sfW _ _ _ _ _ (.inl rfl)))
    (.wr _ _ _ (.inr (.inl rfl)))) (.wr _ _ _ (.inr (.inr (.inl rfl))))
  have freed : ∀ t i, RegFrame SluWord t (t.calFree i) := fun t i => .before (.calUsed _ used)
  have entered : ∀ t e, RegFrame SluWord t (t.calNew e).2 := fun t e => .before (.calUsed _ used)
  exact shown.trans (.trans (.each _ _ (fun e _ t => freed t e.1) _) (.each _ _ (fun a _ t => entered t _) _))

theorem PartFrame.showSluice (s : State) : PartFrame [.regs] s s.showSluice :=
  .trans (.trans (.trans (.sfW s _ _ _ _) (.sfW _ _ _ _ _)) (.wr _ _ _)) (.wr _ _ _)

theorem PartFrame.sluEntries (s : State) : PartFrame [.regs, .ts] s s.sluEntries := by
  have freed : ∀ (e : Nat × CalEntry) (t : State), PartFrame [.regs, .ts] t (t.calFree e.1) := fun e t => .calFree t e.1
  have entered : ∀ (a : Nat) (t : State), PartFrame [.regs, .ts] t (t.calNew (ownEntry 0x10 1 a 0 1 0)).2 := fun a t => .calPut t _ _
  unfold State.sluEntries
  extract_lets gone t have_
  exact (PartFrame.each freed gone s).trans (.each entered _ t)

theorem PartFrame.sluChanged (s : State) : PartFrame [.regs, .ts] s s.sluChanged := (PartFrame.showSluice s).mono.trans (.sluEntries _)

theorem RegFrame.setResult (s : State) (g result reason : Nat) : RegFrame (· = A.sluGroupStatus g) s (s.setResult g result reason) :=
  .trans (.trans (.sfW s _ _ _ _ rfl) (.sfW _ _ _ _ _ rfl)) (.sfW _ _ _ _ _ rfl)

theorem setResult_result {s : State} (h : CellList.wf resetOf s.regs = true) (g reason : Nat) {result : Nat} (small : result < 8) :
    (s.setResult g result reason).f (A.sluGroupStatus g) 0 3 = result := by
  have shown := (f_sfW_byte h (A.sluGroupStatus g) (lo := 0) (by decide) result reason).trans (Nat.mod_eq_of_lt small)
  have regs : CellList.wf resetOf ((s.sfW (A.sluGroupStatus g) 0 3 result).sfW (A.sluGroupStatus g) 8 8 reason).regs = true :=
    CellList.wf_set resetOf _ _ _ (CellList.wf_set resetOf _ _ _ h)
  exact ((FieldKept.sfW _ 16 8 _ (by decide) (.inl (by decide))) regs).2.trans shown

/-- What an outcome writes beside its group's STATUS. -/
def OutcomeWord (a : Nat) : Prop := a = A.sluEvent ∨ a = A.sluRejects ∨ a = A.sluRejects + 4 ∨ LogWord a

theorem RegFrame.commitOutcome_after (s : State) (g : Nat) (src : Source) (result reason : Nat) (changes : List (Nat × Word × Word)) :
    RegFrame OutcomeWord (s.setResult g result reason) (s.commitOutcome g src result reason changes) := by
  have noted : RegFrame OutcomeWord (s.setResult g result reason) ((s.setResult g result reason).raise A.sluEvent (outcomeEvent result)) :=
    .raise_of _ _ _ (.inl rfl) (fun _ => fun m => .inr (.inr (.inr (logWord_of_hif m))))
  unfold State.commitOutcome
  extract_lets t u
  have counted : RegFrame OutcomeWord t u :=
    .ite (fun _ => .inc t _ (.inr (.inl rfl)) (fun _ => .inr (.inr (.inl rfl)))) (fun _ => .refl _ t)
  exact (noted.trans counted).trans ((RegFrame.journalBlock_log u _ _ _ _ _ _).mono (fun _ m => .inr (.inr (.inr m))))

/-! ### Staging (R369) -/

/-- The state that a staging write leaves before its RV bits are examined. -/
def State.staged (s : State) (g a : Nat) (v : Word) : State :=
  (({ s with stage := CellList.set resetOf s.stage a v }).setGroup g (fun x =>
    { x with stageParity := x.stageParity.filter (fun b => decide (b ≠ a)) })).stageMoved g

theorem PartFrame.stageWrite (s : State) (src : Source) (g a : Nat) (v : Word) :
    PartFrame journalParts (s.staged g a v) (s.stageWrite src g a v) := .testControl _ _ _ _ _

theorem RegFrame.stageWrite (s : State) (src : Source) (g a : Nat) (v : Word) :
    RegFrame (fun x => x = A.sluGroupStatus g ∨ LogWord x) s (s.stageWrite src g a v) :=
  .trans (RegFrame.sfW _ _ _ _ _ (.inl rfl)).before ((RegFrame.testControl (s.staged g a v) src a _ v).mono (fun _ => .inr))

theorem stageWrite_rdStage {s : State} (h : CellList.wf resetOf s.stage = true) (src : Source) (g a : Nat) (v : Word) (b : Nat) :
    (s.stageWrite src g a v).rdStage b = if b = a then v else s.rdStage b := by
  have stage : (s.stageWrite src g a v).stage = CellList.set resetOf s.stage a v := PartFrame.stageWrite s src g a v .stage (by decide)
  rw [State.rdStage, stage]
  exact CellList.get_set resetOf s.stage a b v h

/-- A group that waits for nothing and has no faulty staging word stays so. -/
theorem stageWrite_group {s : State} {g : Nat} (listed : g < s.groups.length) (free : (s.group g).pend = none)
    (sound : (s.group g).stageParity = []) (src : Source) (a : Nat) (v : Word) :
    ((s.stageWrite src g a v).group g).pend = none ∧ ((s.stageWrite src g a v).group g).stageParity = [] ∧
      g < (s.stageWrite src g a v).groups.length := by
  have groups : (s.stageWrite src g a v).groups = (s.staged g a v).groups := PartFrame.stageWrite s src g a v .groups (by decide)
  have moved : (s.staged g a v).group g = { s.group g with stageParity := (s.group g).stageParity.filter (fun b => decide (b ≠ a)) } :=
    getD_modAt _ GroupState.idle s.groups g listed
  have same : (s.stageWrite src g a v).group g = (s.staged g a v).group g := congrArg (fun l => l.getD g GroupState.idle) groups
  refine ⟨?_, ?_, ?_⟩
  · rw [same, moved]
    exact free
  · rw [same, moved]
    exact congrArg (List.filter _) sound
  · rw [groups]
    exact (length_modAt _ s.groups g).symm ▸ listed

theorem writeWord_stage {s : State} {src : Source} (shut : (s.view src).pair = none) {g a : Nat}
    (kind : (rowOf a).map (·.kind) = some .st) (of : groupOf a = some g) (v : Word) : s.writeWord src a v = s.stageWrite src g a v := by
  obtain ⟨r, row, st⟩ := Option.map_eq_some_iff.mp kind
  unfold State.writeWord
  rw [countWrite_shut shut]
  simp only [row, of]
  exact if_pos st

/-! ### COMMIT (R371, R372) -/

/-- GROUP_COMMIT is written only, in domain 15, and has no RV bit in field 0. -/
theorem sluGroupCommit_row : ∀ g < 35, domainOf (A.sluGroupCommit g) = 15 ∧ (rowOf (A.sluGroupCommit g)).map (fun r =>
    (r.kind, decide ((1 : Word) &&& BitVec.ofNat 32 r.rv = resetOf (A.sluGroupCommit g) &&& BitVec.ofNat 32 r.rv))) = some (.wo, true) := by
  decide +kernel

theorem writeWord_commit {s : State} {src : Source} (shut : (s.view src).pair = none) (on : s.domainOn 15 = true) {g : Nat}
    (known : g < 35) : s.writeWord src (A.sluGroupCommit g) 1 = s.sluCommit src g 1 := by
  obtain ⟨domain, row⟩ := sluGroupCommit_row g known
  obtain ⟨r, here, shown⟩ := Option.map_eq_some_iff.mp row
  obtain ⟨kind, plain⟩ := Prod.mk.inj shown
  have quiet : s.testControl src (A.sluGroupCommit g) (resetOf (A.sluGroupCommit g)) 1 = s := by
    unfold State.testControl
    rw [here]
    exact if_pos (of_decide_eq_true plain)
  have group : (A.sluGroupCommit g - 0x2100) / 0x20 = g := by
    unfold A.sluGroupCommit
    omega
  have commits : s.commitWrite src g 1 = s.sluCommit src g 1 := if_neg (by omega)
  unfold State.writeWord
  rw [countWrite_shut shut]
  simp only [here, kind, domain, on, quiet, group, commits]
  rfl

/-- The pending words and the pending commit that a plain COMMIT leaves. -/
def State.committed (s : State) (src : Source) (g : Nat) : State :=
  (s.capture g).setGroup g (fun x => { x with pend := some ⟨none, src, false⟩, pendParity := decide (x.stageParity ≠ []) })

/-- A state in which a plain COMMIT of `g` is pending, its boundary still to come. -/
def State.pendingNow (s : State) (src : Source) (g : Nat) : State := ((s.committed src g).setResult g 1 0).sluChanged

/-- A plain COMMIT of a group that waits for nothing is pending, and then reaches its boundary. -/
theorem sluCommit_now {s : State} {g : Nat} (free : (s.group g).pend = none) (boundary : groupBoundary g = 0) (src : Source) :
    s.sluCommit src g 1 = (s.pendingNow src g).reachNow g (s.pendingNow src g).nowNs := by
  have accepted : s.commitRefusal g 1 = none := rfl
  have kept : s.dropPending g 4 = s := by
    unfold State.dropPending
    rw [free]
  unfold State.sluCommit
  rw [accepted, kept]
  exact if_pos ⟨rfl, .inl boundary⟩

end Sys2Proof.Machine
end

section
/-!
SUPPORT. The application of a commit at its boundary (R373), and of a client query with it.
-/

set_option Elab.async false

namespace Sys2Proof.Machine

/-! ### The captured words (R371) -/

theorem get_captured {w : Nat → Word} : ∀ (l : List Nat) (m : Cells Word), CellList.wf resetOf m = true → ∀ a,
    CellList.get resetOf (l.foldl (fun m b => CellList.set resetOf m b (w b)) m) a = if a ∈ l then w a else CellList.get resetOf m a
  | [], _, _, _ => by simp
  | b :: l, m, h, a => by
    have later := get_captured (w := w) l (CellList.set resetOf m b (w b)) (CellList.wf_set resetOf m b (w b) h) a
    have first := CellList.get_set resetOf m b a (w b) h
    rw [List.foldl_cons, later, first]
    by_cases here : a = b
    · subst here
      simp
    · simp [here]

theorem PartFrame.pendingNow (s : State) (src : Source) (g : Nat) : PartFrame [.regs, .ts] (s.committed src g) (s.pendingNow src g) := by
  have shown : PartFrame [.regs] (s.committed src g) ((s.committed src g).setResult g 1 0) := .trans (.trans (.sfW _ _ _ _ _) (.sfW _ _ _ _ _))
    (.sfW _ _ _ _ _)
  exact shown.mono.trans (.sluChanged _)

theorem RegFrame.pendingNow (s : State) (src : Source) (g : Nat) :
    RegFrame (fun a => a = A.sluGroupStatus g ∨ SluWord a) s (s.pendingNow src g) := by
  have shown := (RegFrame.setResult (s.committed src g) g 1 0).mono (fun a (m : a = _) => Or.inl (b := SluWord a) m)
  exact .trans (.trans (.same rfl) shown) ((RegFrame.sluChanged _).mono (fun _ => .inr))

theorem pendingNow_rdPend {s : State} (h : CellList.wf resetOf s.pendRegs = true) (src : Source) {g a : Nat} (m : a ∈ groupWords g) :
    (s.pendingNow src g).rdPend a = s.rdStage a := by
  have captured : (s.pendingNow src g).pendRegs = (s.capture g).pendRegs := PartFrame.pendingNow s src g .pendRegs (by decide)
  rw [State.rdPend, captured]
  exact (get_captured (groupWords g) s.pendRegs h a).trans (if_pos m)

/-- A commit without a faulty word pends. -/
def GroupState.pending (x : GroupState) (src : Source) : Prop :=
  x.pend = some ⟨none, src, false⟩ ∧ x.pendParity = false ∧ x.stageParity = []

theorem pendingNow_group {s : State} {g : Nat} (listed : g < s.groups.length) (sound : (s.group g).stageParity = []) (src : Source) :
    ((s.pendingNow src g).group g).pending src := by
  have groups : (s.pendingNow src g).groups = (s.committed src g).groups := PartFrame.pendingNow s src g .groups (by decide)
  have same : (s.pendingNow src g).group g = (s.committed src g).group g := congrArg (fun l => l.getD g GroupState.idle) groups
  have held : (s.committed src g).group g =
      { s.group g with pend := some ⟨none, src, false⟩, pendParity := decide ((s.group g).stageParity ≠ []) } :=
    getD_modAt _ GroupState.idle s.groups g listed
  rw [same, held]
  exact ⟨rfl, by simp [sound], sound⟩

/-! ### The boundary (R373) -/

/-- The state in which a group's commit is taken: it pends no longer. -/
def State.unpended (s : State) (g : Nat) : State := s.setGroup g (fun y => { y with pend := none, pendParity := false })

theorem reachBoundary_applied {s : State} {g : Nat} {src : Source} (waiting : (s.group g).pending src)
    (passes : checkGroup s g s.rdPend = none) (other : g ≠ 16) (atNs : Nat) :
    s.reachBoundary g atNs =
      (((s.unpended g).takeGroup g s.rdPend atNs).commitOutcome g src 2 0 (s.changesOf g s.rdPend)).sluChanged := by
  obtain ⟨pend, sound, staged⟩ := waiting
  unfold State.reachBoundary
  simp only [pend, sound, staged, ne_eq, not_true_eq_false, decide_false, Bool.or_self, Bool.false_eq_true, if_false, passes, other]
  rfl

theorem rd_installed {w : Nat → Word} : ∀ (l : List Nat) (s : State), CellList.wf resetOf s.regs = true →
    CellList.wf resetOf (s.each l (fun a u => u.wr a (w a))).regs = true ∧
      ∀ b, (s.each l (fun a u => u.wr a (w a))).rd b = if b ∈ l then w b else s.rd b
  | [], _, h => ⟨h, fun b => by simp [State.each]⟩
  | a :: l, s, h => by
    obtain ⟨regs, later⟩ := rd_installed (w := w) l (s.wr a (w a)) (CellList.wf_set resetOf _ _ _ h)
    refine ⟨regs, fun b => (later b).trans ?_⟩
    rw [rd_wr s a b (w a) h]
    by_cases here : b = a
    · subst here
      simp
    · simp [here]

/-- A live word after an application: the new one where it is the group's, or else the old one. -/
theorem installWords_rd {s : State} (h : CellList.wf resetOf s.regs = true) (g : Nat) (w : Nat → Word) :
    CellList.wf resetOf (s.installWords g w).regs = true ∧
      ∀ b, b ≠ A.sluGroupStatus g → (s.installWords g w).rd b = if b ∈ groupWords g then w b else s.rd b := by
  obtain ⟨regs, words⟩ := rd_installed (w := w) (groupWords g) s h
  have after : RegFrame (fun b => b = A.sluGroupStatus g) (s.each (groupWords g) (fun a u => u.wr a (w a))) (s.installWords g w) :=
    RegFrame.before (.setBit _ _ _ _ rfl)
  exact ⟨(after regs).1, fun b ne => ((after regs).2 b ne).trans (words b)⟩

/-! ### The client query -/

theorem hrcQueryCmd_mem : A.hrcQueryCmd ∈ groupWords 19 := by decide +kernel

theorem pwrDomState_notMem : A.pwrDomState ∉ groupWords 19 := by decide +kernel

theorem groupOf_hrcQueryCmd : groupOf A.hrcQueryCmd = some 19 ∧ (rowOf A.hrcQueryCmd).map (·.kind) = some .st := by decide +kernel

/-- The check of a client query reads the group's own words. -/
theorem checkHrcQuery_congr {w v : Nat → Word} (h : ∀ a ∈ groupWords 19, w a = v a) : checkHrcQuery w = checkHrcQuery v := by
  have rows : rangesOk 19 w = rangesOk 19 v := by
    unfold rangesOk
    rw [Bool.eq_iff_iff]
    simp only [List.all_eq_true]
    refine forall₂_congr (fun r m => forall₂_congr (fun a k => ?_))
    rw [h a (List.mem_append_right _ (List.mem_flatMap.mpr ⟨r, m, k⟩))]
  have address : ∀ j < 4, A.hrcQueryAddr j ∈ groupWords 19 := by decide +kernel
  have ip : ipBytes (fun j => w (A.hrcQueryAddr j)) = ipBytes (fun j => v (A.hrcQueryAddr j)) := by
    simp only [ipBytes]
    rw [h _ (address 0 (by decide)), h _ (address 1 (by decide)), h _ (address 2 (by decide)), h _ (address 3 (by decide))]
  unfold checkHrcQuery
  rw [rows, ip, h _ hrcQueryCmd_mem]

theorem queryDone_served {s : State} (h : CellList.wf resetOf s.regs = true) (idle : s.bit A.hrcQueryCmd 0 = false) :
    QueryServed (s.raise A.hrcEvent 4) := by
  have raised : FieldKept A.hrcQueryCmd 0 1 s (s.raise A.hrcEvent 4) := .raise s 4 (by decide) (not_inHif_hrc (by decide))
  exact ⟨(raised h).1, (raised.bit h).trans idle, raise_bit h (by decide) (not_inHif_hrc (by decide))⟩

/-- A query with GO is answered: GO is cleared and QUERY_DONE pends. -/
theorem applyHrcQuery_served {s : State} (h : CellList.wf resetOf s.regs = true) (go : s.bit A.hrcQueryCmd 0 = true) :
    QueryServed s.applyHrcQuery := by
  unfold State.applyHrcQuery
  extract_lets t key i r found d u
  rw [if_pos go]
  have frozen : CellList.wf resetOf t.regs = true := (RegFrame.hrcFrozen s h).1
  have cleared : (t.setBit A.hrcQueryCmd 0 false).bit A.hrcQueryCmd 0 = false :=
    (bit_setBit t _ 0 0 false frozen (by decide)).trans (if_pos rfl)
  have besides : ∀ j, BesideQuery (A.hrcQueryRec j) := fun j => by
    simp only [BesideQuery, A.hrcQueryRec, A.hrcQueryCmd, A.hrcEvent]
    omega
  have answered : RegFrame BesideQuery (t.setBit A.hrcQueryCmd 0 false)
      (u.each (List.range 16) (fun j v => v.wr (A.hrcQueryRec j) (word (leAt d (4 * j) 4)))) :=
    .trans (.wr _ A.hrcQueryResult _ (by decide)) (.each _ _ (fun j _ v => .wr v _ _ (besides j)) u)
  obtain ⟨regs, kept⟩ := answered (CellList.wf_set resetOf _ _ _ frozen)
  exact queryDone_served regs ((bit_of_rd (kept _ (fun k => k.1 rfl)) 0).trans cleared)

end Sys2Proof.Machine
end

section
/-!
SUPPORT. A committed client query from its first staged word to the outcome (R371, R373).
-/

set_option Elab.async false

namespace Sys2Proof.Machine

/-- An application of HRC_QUERY with GO leaves the query served, whatever else it takes up. -/
theorem takeGroup_query {s : State} (h : CellList.wf resetOf s.regs = true) (on : s.domainOn (groupDomain 19) = true) {w : Nat → Word}
    (go : bitOf (w A.hrcQueryCmd) 0 = true) (atNs : Nat) : QueryServed (s.takeGroup 19 w atNs) := by
  obtain ⟨regs, live⟩ := installWords_rd h 19 w
  have domains : (s.installWords 19 w).rd A.pwrDomState = s.rd A.pwrDomState :=
    (live _ (by decide)).trans (if_neg pwrDomState_notMem)
  have still : (s.installWords 19 w).domainOn (groupDomain 19) = true := (bit_of_rd domains _).trans on
  have asked : (s.installWords 19 w).bit A.hrcQueryCmd 0 = true :=
    (congrArg (fun v => bitOf v 0) ((live _ (by decide)).trans (if_pos hrcQueryCmd_mem))).trans go
  have taken : s.takeGroup 19 w atNs = ((s.installWords 19 w).applyHrcQuery).takeHeld.alarmChange := by
    unfold State.takeGroup
    dsimp only
    rw [if_pos still]
    rfl
  rw [taken]
  exact (applyHrcQuery_served regs asked).takeHeld.kept (.alarmChange _)

theorem outsideHrc_of_log {a : Nat} (m : LogWord a) : OutsideHrc a := by
  by_contra inside
  exact not_logWord_of_le (by omega) m

theorem HrcKept.sluChanged (s : State) : HrcKept s s.sluChanged := (RegFrame.sluChanged s).mono (by
  rintro a (rfl | rfl | rfl | rfl) <;> decide)

theorem not_logWord_groupStatus : ¬ LogWord (A.sluGroupStatus 19) := by
  unfold LogWord InHif
  decide

/-- The outcome APPLIED of a served query shows in its group's STATUS. -/
theorem outcome_served {s : State} (served : QueryServed s) (src : Source) (changes : List (Nat × Word × Word)) :
    ((s.commitOutcome 19 src 2 0 changes).sluChanged).f (A.sluGroupStatus 19) 0 3 = 2 ∧
      QueryServed (s.commitOutcome 19 src 2 0 changes).sluChanged := by
  have noted := RegFrame.commitOutcome_after s 19 src 2 0 changes
  have listed := RegFrame.sluChanged (s.commitOutcome 19 src 2 0 changes)
  have shown := RegFrame.setResult s 19 2 0
  have outcome : FieldKept (A.sluGroupStatus 19) 0 3 (s.setResult 19 2 0) ((s.commitOutcome 19 src 2 0 changes).sluChanged) := by
    refine .trans (.of_regFrame noted ?_) (.of_regFrame listed (by unfold SluWord; decide))
    rintro (own | own | own | log)
    · exact absurd own (by decide)
    · exact absurd own (by decide)
    · exact absurd own (by decide)
    · exact not_logWord_groupStatus log
  have kept : HrcKept s (s.commitOutcome 19 src 2 0 changes) := by
    refine .trans (shown.mono ?_) (noted.mono ?_)
    · rintro _ rfl
      decide
    · rintro a (rfl | rfl | rfl | log)
      · decide
      · decide
      · decide
      · exact outsideHrc_of_log log
  exact ⟨(outcome (shown served.1).1).2.trans (setResult_result served.1 19 0 (by decide)),
    (served.kept kept).kept (.sluChanged _)⟩

theorem stage_of_canonical {s : State} (h : s.canonical = true) :
    CellList.wf resetOf s.stage = true ∧ CellList.wf resetOf s.pendRegs = true := by
  simp only [State.canonical, Bool.and_eq_true] at h
  obtain ⟨⟨⟨⟨⟨⟨-, stage⟩, pend⟩, -⟩, -⟩, -⟩, -⟩ := h
  exact ⟨stage, pend⟩

/-- The commit of a client query whose words pass the check is applied, and the query is served. -/
theorem sluCommit_query {s : State} (h : CellList.wf resetOf s.regs = true) (pendRegs : CellList.wf resetOf s.pendRegs = true)
    (on : s.domainOn (groupDomain 19) = true) (listed : 19 < s.groups.length) (free : (s.group 19).pend = none)
    (sound : (s.group 19).stageParity = []) (passes : checkHrcQuery s.rdStage = none)
    (go : bitOf (s.rdStage A.hrcQueryCmd) 0 = true) (src : Source) :
    (s.sluCommit src 19 1).f (A.sluGroupStatus 19) 0 3 = 2 ∧ QueryServed (s.sluCommit src 19 1) := by
  obtain ⟨regs, live⟩ := RegFrame.pendingNow s src 19 h
  have words : ∀ a ∈ groupWords 19, (s.pendingNow src 19).rdPend a = s.rdStage a := fun a m => pendingNow_rdPend pendRegs src m
  have check : checkGroup (s.pendingNow src 19) 19 (s.pendingNow src 19).rdPend = none := (checkHrcQuery_congr words).trans passes
  have still : (s.pendingNow src 19).domainOn (groupDomain 19) = true := (bit_of_rd (live _ (by unfold SluWord; decide)) _).trans on
  have asked : bitOf ((s.pendingNow src 19).rdPend A.hrcQueryCmd) 0 = true := by rw [words _ hrcQueryCmd_mem]; exact go
  have reached : ∀ atNs, (s.pendingNow src 19).reachNow 19 atNs = (s.pendingNow src 19).reachBoundary 19 atNs := fun _ => rfl
  rw [sluCommit_now free (by decide) src, reached, reachBoundary_applied (pendingNow_group listed sound src) check (by decide)]
  exact outcome_served (takeGroup_query (s := (s.pendingNow src 19).unpended 19) regs still asked _) src _

/-- What a client query without other words writes: its command, staged, and the COMMIT of its group. -/
def State.queryWritten (s : State) (src : Nat) (cmd : Word) : State :=
  (s.writeWord (srcOf src) A.hrcQueryCmd (putFld cmd 0 1 1)).writeWord (srcOf src) (A.sluGroupCommit 19) (putFld 1 0 2 1)

/-- A client query from a source with no pair open (R371): its command word is staged, and the group is committed. -/
theorem queryWritten_served {u : State} (canonical : u.canonical = true) {src : Nat} {cmd : Word}
    (takes : u.takesCommit src 19 (u.commandWords A.hrcQueryCmd 0 1 1 cmd)) :
    (u.queryWritten src cmd).f (A.sluGroupStatus 19) 0 3 = 2 ∧ QueryServed (u.queryWritten src cmd) := by
  obtain ⟨⟨-, -, shut⟩, listed, sluice, on, -, free, sound, -, passes⟩ := takes
  obtain ⟨stage, pendRegs⟩ := stage_of_canonical canonical
  obtain ⟨of, kind⟩ := groupOf_hrcQueryCmd
  have staged : u.writeWord (srcOf src) A.hrcQueryCmd (putFld cmd 0 1 1) = u.stageWrite (srcOf src) 19 A.hrcQueryCmd (putFld cmd 0 1 1) :=
    writeWord_stage shut kind of _
  rw [State.queryWritten, staged]
  have parts := PartFrame.stageWrite u (srcOf src) 19 A.hrcQueryCmd (putFld cmd 0 1 1)
  obtain ⟨regs, live⟩ := RegFrame.stageWrite u (srcOf src) 19 A.hrcQueryCmd (putFld cmd 0 1 1) (regs_of_canonical canonical)
  obtain ⟨still, whole, known⟩ := stageWrite_group listed free sound (srcOf src) A.hrcQueryCmd (putFld cmd 0 1 1)
  have word := stageWrite_rdStage stage (srcOf src) 19 A.hrcQueryCmd (putFld cmd 0 1 1)
  generalize u.stageWrite (srcOf src) 19 A.hrcQueryCmd (putFld cmd 0 1 1) = t at *
  have domains : t.rd A.pwrDomState = u.rd A.pwrDomState := live _ (by unfold LogWord InHif; decide)
  have closed : (t.view (srcOf src)).pair = none := by
    have sources : t.sources = u.sources := parts .sources (by decide)
    rw [State.view, sources]
    exact shut
  have pend : CellList.wf resetOf t.pendRegs = true := by
    have same : t.pendRegs = u.pendRegs := parts .pendRegs (by decide)
    exact same ▸ pendRegs
  have words : t.rdStage = u.commandWords A.hrcQueryCmd 0 1 1 cmd := funext word
  have go : bitOf (t.rdStage A.hrcQueryCmd) 0 = true := by
    rw [word, if_pos rfl, bitOf_eq_fld, fld_putFld _ 0 1 1 (by decide)]
    rfl
  have commits : t.writeWord (srcOf src) (A.sluGroupCommit 19) (putFld 1 0 2 1) = t.sluCommit (srcOf src) 19 1 :=
    writeWord_commit closed ((bit_of_rd domains 15).trans sluice) (by decide)
  rw [commits]
  exact sluCommit_query regs pend ((bit_of_rd domains _).trans on) known still whole (words ▸ passes) go (srcOf src)

end Sys2Proof.Machine
end

section
/-!
SUPPORT. The commands of O20 from the dispatch on.
-/

set_option Elab.async false

namespace Sys2Proof.Machine

/-- A command that is a function of the state in which the entries due have fired. -/
theorem completes_afterDue {c : Instr} {s u : State} {w : Bool} {dt : Nat} {p : State → Prop} (f : State → State)
    (command : exec c s = afterIf w dt s (fun t => f t.dueFirst)) (known : w = true) (eq : u = (s.advance dt).dueFirst) (h : p (f u)) :
    Completes c s p :=
  completes_of (command.trans ((if_pos known).trans (by rw [eq]))) h

/-- Settles O20: a client query is staged, captured and applied at once, and what the domain supervisor still holds leaves its words
alone; the key commands are their own functions; DRAIN and RELOAD are writes to UCODE_CTL, and their ends set the pipeline's STATE
before they report. -/
theorem requestCommandsComplete : Obligations.RequestCommandsComplete := by
  unfold Obligations.RequestCommandsComplete
  refine ⟨fun s u dt src cmd canonical eq takes => ?query, fun s u dt src c canonical eq taken => ?rotates,
    fun s u dt src c canonical eq taken => ?purges, fun s u dt canonical eq lacking entropy => ?draws,
    fun s u dt a canonical eq waiting due lacking entropy => ?redraws, fun s u dt a canonical eq waiting due held entropy => ?rerotates,
    fun s u dt a canonical eq waiting due entropy => ?denied, fun s u dt src p canonical eq clear unit on active other => ?drains,
    fun s u dt p canonical eq unit draining idle inService => ?drained, fun s u dt src p canonical eq clear unit on fenced => ?reloads,
    fun s u dt p pass canonical eq unit reloading => ?reloaded⟩
  case query =>
    obtain ⟨applied, -, served⟩ := queryWritten_served (eq ▸ dueFirst_canonical canonical dt) takes
    exact completes_afterDue (·.queryWritten src cmd) rfl (decide_eq_true takes.1.1) eq ⟨applied, served⟩
  case rotates => exact completes_guarded rfl eq taken (ntsRotateNow_noted taken)
  case purges =>
    refine completes_guarded rfl eq taken ?_
    rw [guardPair_of taken, guardAct_ntsCmd, ntsCmd_purge]
    exact ntsPurge_wiped (RegFrame.pairTaken u _ A.ntsCmd 2 (regs_of_canonical (eq ▸ dueFirst_canonical canonical dt))).1 (srcOf src)
  case draws => exact completes_after (·.ntsKeyDrawn) rfl eq (ntsKeyDrawn_held lacking entropy)
  case redraws => exact completes_after (·.keyDeferRetry) rfl eq (keyDeferRetry_drawn waiting due lacking entropy)
  case rerotates =>
    exact completes_after (·.keyDeferRetry) rfl eq
      (keyDeferRetry_rotated waiting due (regs_of_canonical (eq ▸ advance_canonical canonical dt)) held entropy)
  case denied =>
    exact completes_after (·.keyDeferRetry) rfl eq
      (keyDeferRetry_denied waiting due (regs_of_canonical (eq ▸ advance_canonical canonical dt)) entropy)
  case drains =>
    obtain ⟨known, -, shut⟩ := clear
    exact completes_afterDue (fun t => t.writeWord (srcOf src) (A.svpPipeUcodeCtl p) 0x10001) rfl (by simp [known, unit]) eq
      (writeWord_drain (regs_of_canonical (eq ▸ dueFirst_canonical canonical dt)) shut unit on active other)
  case drained =>
    exact completes_afterIf (·.drainDone p) rfl (decide_eq_true unit) eq
      (drainDone_fenced (regs_of_canonical (eq ▸ advance_canonical canonical dt)) unit draining idle inService)
  case reloads =>
    obtain ⟨known, -, shut⟩ := clear
    exact completes_afterDue (fun t => t.writeWord (srcOf src) (A.svpPipeUcodeCtl p) 0x60002) rfl (by simp [known, unit]) eq
      (writeWord_reload (regs_of_canonical (eq ▸ dueFirst_canonical canonical dt)) shut unit on fenced)
  case reloaded =>
    exact completes_afterIf (·.reloadDone p pass) rfl (decide_eq_true unit) eq
      (reloadDone_fenced (regs_of_canonical (eq ▸ advance_canonical canonical dt)) reloading pass)

end Sys2Proof.Machine
end

section
/-!
SUPPORT. The frames of parts of PTP's contexts, grants and slaves, and of ESMC (R259 to R271).
-/

set_option Elab.async false

namespace Sys2Proof.Machine

/-! ### Contexts and the calendar's entries of PTP (R259, R262) -/

theorem PartFrame.showCtxs (s : State) : PartFrame [.regs] s s.showCtxs :=
  .trans (.trans (.sfW s _ _ _ _) (.each (fun _ u => .sfW u _ _ _ _) _ _)) (.each (fun _ u => .wr u _ _) _ _)

theorem PartFrame.armSync (s : State) (target : Nat) (need : Bool) (period : Nat) : PartFrame [.regs, .ts] s (s.armSync target need period) :=
  .ite (.ite (.refl _ s) (.calPut s _ _)) (.ite (.calDrop s _ _) (.refl _ s))

theorem PartFrame.armPtp (s : State) : PartFrame [.regs, .ts] s s.armPtp :=
  .trans (.each (fun _ u => .each (fun _ v => .armSync v _ _ _) _ u) _ s)
    (.each (fun _ u => .trans (.ite (.calDrop u _ _) (.refl _ u)) (.armSync _ _ _ _)) _ _)

/-- A fold that carries a state beside what it gathers. -/
theorem PartFrame.foldl2 {l : List Part} {α β : Type} {g : β × State → α → β × State} (h : ∀ q x, PartFrame l q.2 (g q x).2) :
    ∀ (xs : List α) (q : β × State), PartFrame l q.2 (xs.foldl g q).2
  | [], q => .refl l q.2
  | x :: xs, q => (h q x).trans (PartFrame.foldl2 h xs (g q x))

/-! ### Grants and Delay_Req (R261 to R263) -/

/-- The parts that the negotiation of grants may change. -/
abbrev grantParts : List Part := .ts :: .ptp :: linkParts

theorem PartFrame.sendSignal (s : State) (sl domain : Nat) (a : Addressing) (target : Bytes) (seq : Nat) (tl : Bytes) :
    PartFrame [.ports] s (s.sendSignal sl domain a target seq tl) := .sendGeneral s sl _ _ none

theorem PartFrame.decideGrant (s : State) (i : Nat) (fr : RxFrame) (tlv : Bytes) :
    PartFrame (.ptp :: reportParts) s (s.decideGrant i fr tlv).2 := by
  unfold State.decideGrant
  extract_lets d p mt log found limit deny dur g k base c c₁ t
  have denied : ∀ u, PartFrame (.ptp :: reportParts) u (deny u).2 := fun u => .step (.mono (.inc u _)) (.raise _ _ _)
  have granted : PartFrame (.ptp :: reportParts) s t := .step (.mono (.setCtx s k _)) (.inc _ _)
  exact .ite2 (denied s) (.ite2 (.trans (.mono (.raise s _ _)) (denied _)) (.ite (.step granted (.raise _ _ _)) granted))

theorem PartFrame.signalSeq (s : State) (i sl : Nat) (client port : Bytes) : PartFrame [.ptp] s (s.signalSeq i sl client port).2 := by
  unfold State.signalSeq
  split
  · exact .setCtx s _ _
  · exact .nextSeq s i sl 12

theorem PartFrame.unicastRequest (s : State) : PartFrame grantParts s s.unicastRequest := by
  unfold State.unicastRequest
  split
  case h_1 => exact .refl _ s
  case h_2 c t eq =>
    have taken : PartFrame grantParts s t := .mono (.takeClaim eq)
    extract_lets d
    split
    · exact .step taken (.inc t _)
    · extract_lets r n
      have decided : PartFrame (.ptp :: reportParts) t r.2 :=
        .foldl2 (β := Bytes) (fun q e => by exact .decideGrant q.2 _ c.frame e.2) _ ([], t)
      exact .step (.step (.step (.step (.step taken decided) (.signalSeq r.2 _ _ _ _)) (.sendSignal n.2 _ _ _ _ _ _)) (.showCtxs _))
        (.armPtp _)

theorem PartFrame.grantExpire (s : State) : PartFrame [.regs, .totals, .ptp, .ts] s s.grantExpire :=
  .step (.step (.each (fun _ u => .ite (.refl _ u) (.step (.mono (.setCtx u _ _)) (.count _ _ _))) _ s) (.showCtxs _)) (.armPtp _)

theorem PartFrame.cancelGrant (s : State) (i : Nat) (client port : Bytes) (mt : Nat) :
    PartFrame [.regs, .totals, .ptp] s (s.cancelGrant i client port mt) := by
  unfold State.cancelGrant
  split
  · exact .refl _ s
  · exact .ite (.step (.mono (.setCtx s _ _)) (.inc _ _)) (.refl _ s)

theorem PartFrame.unicastCancel (s : State) : PartFrame (.refs :: grantParts) s s.unicastCancel := by
  unfold State.unicastCancel
  split
  case h_1 => exact .refl _ s
  case h_2 c t eq =>
    have taken : PartFrame (.refs :: grantParts) s t := .mono (.takeClaim eq)
    dsimp only
    split
    · exact .step (.stepWhen (.step taken (.each (fun _ u => .setSlave u _ _) _ t)) (.setSlv _ _ 2)) (.slaveSignal _ _ _ _)
    · split
      · exact .step taken (.inc t _)
      · exact .step (.step (.step (.step (.step taken (.signalSeq t _ _ _ _)) (.each (fun _ u => .cancelGrant u _ _ _ _) _ _))
          (.sendSignal _ _ _ _ _ _ _)) (.showCtxs _)) (.armPtp _)

/-- The parts that the answer to a Delay_Req may change. -/
abbrev delayParts : List Part := [.regs, .totals, .ports, .ptp]

theorem PartFrame.delayRespUnicast (s : State) (k : Nat) (c : PtpCtx) (g : Grant) (fr : RxFrame) :
    PartFrame delayParts s (s.delayRespUnicast k c g fr) :=
  .ite (.step (.mono (.setCtx s k _)) (.inc _ _)) (.step (.mono (.setCtx s k _)) (.sendGeneral _ _ _ _ _))

/-- A Delay_Req that is answered as a multicast one, where PTP serves its domain, or counted. -/
theorem PartFrame.delayRespServed (s : State) (o : Option Nat) (fr : RxFrame) (counter : Nat) :
    PartFrame delayParts s (match o with
      | some i => s.delayRespMulticast i fr
      | none => s.inc counter) := by
  cases o
  · exact .mono (.inc s _)
  · exact .mono (.sendGeneral s _ _ _ _)

theorem PartFrame.delayReq (s : State) : PartFrame delayParts s s.delayReq := by
  unfold State.delayReq
  split
  case h_1 => exact .refl _ s
  case h_2 c t eq =>
    have taken : PartFrame delayParts s t := .mono (.takeClaim eq)
    have counted : PartFrame delayParts s (t.inc A.ptpNoGrant) := .step taken (.inc t _)
    refine .ite (.trans taken (.delayRespServed t _ _ _)) ?_
    split
    · exact counted
    · split
      · exact .ite (.trans taken (.delayRespServed t _ _ _)) counted
      · exact .ite counted (.trans taken (.delayRespUnicast t _ _ _ _))

/-! ### Slaves (R265 to R268) -/

/-- The parts that a slave's change of state with its measurements may change. -/
abbrev slaveStateParts : List Part := [.regs, .totals, .celen, .hif, .refs, .ptp, .out]

/-- The parts that an Announce of a slave's masters may change. -/
abbrev announceParts : List Part := .ts :: .journal :: slaveParts

theorem PartFrame.showMaster (s : State) (n m : Nat) (d : Bytes) : PartFrame [.regs, .refs] s (s.showMaster n m d) :=
  .step (.mono (.trans (.trans (.trans (.trans (.trans (.trans (.sfW s _ _ _ _) (.sfW _ _ _ _ _)) (.sfW _ _ _ _ _)) (.sfW _ _ _ _ _))
    (.wr _ _ _)) (.wr _ _ _)) (.wr _ _ _))) (.setRef _ _ _)

theorem PartFrame.chooseMaster (s : State) (n : Nat) : PartFrame slaveParts s (s.chooseMaster n) := by
  unfold State.chooseMaster
  refine .ite (.refl _ s) (.ite (.refl _ s) ?_)
  split
  · exact .step (.mono (.setSlave s n _)) (.setSlv _ n 1)
  · extract_lets t u v w
    have chosen : PartFrame slaveParts s v := .step (.step (.step (.mono (.setSlave s n _)) (.setSlv t n 2)) (.raise _ _ _)) (.wr u _ _)
    have shown : PartFrame slaveParts s w := by
      unfold w
      split
      · exact .step chosen (.showMaster v n _ _)
      · exact chosen
    exact .step shown (.requestGrants w n)

theorem PartFrame.slaveUtc (s : State) (n : Nat) (d : Bytes) : PartFrame (.ts :: journalParts) s (s.slaveUtc n d) :=
  .ite (.refl _ s) (.ite (.ite (.refl _ s) (.mono (.raise s _ _)))
    (.ite (.ite (.refl _ s) (.step (.learnLeap s _ _ 2) (.raise _ _ _))) (.refl _ s)))

theorem PartFrame.slaveAnnounce (s : State) (n : Nat) (sip d : Bytes) : PartFrame announceParts s (s.slaveAnnounce n sip d) := by
  unfold State.slaveAnnounce
  split
  · exact .refl _ s
  · extract_lets old f t
    have chosen : PartFrame announceParts s t := .step (.mono (.setSlave s n _)) (.chooseMaster _ n)
    exact .ite (.step (.step chosen (.showMaster t n _ d)) (.slaveUtc _ n d)) chosen

theorem PartFrame.slaveForward (s : State) (n : Nat) (fwd : Int) : PartFrame [.regs, .totals, .ptp] s (s.slaveForward n fwd) :=
  .step (.mono (.setSlave s n _)) (.inc _ _)

theorem PartFrame.slaveSync (s : State) (n tRx : Nat) (d : Bytes) : PartFrame [.regs, .totals, .ptp] s (s.slaveSync n tRx d) :=
  .ite (.slaveForward s n _) (.mono (.setSlave s n _))

theorem PartFrame.slaveFollowUp (s : State) (n : Nat) (d : Bytes) : PartFrame [.regs, .totals, .ptp] s (s.slaveFollowUp n d) := by
  unfold State.slaveFollowUp
  split
  · exact .ite (.slaveForward s n _) (.refl _ s)
  · exact .refl _ s

theorem PartFrame.slaveDelayResp (s : State) (n : Nat) (d : Bytes) : PartFrame [.ptp] s (s.slaveDelayResp n d) := by
  refine .ite ?_ (.refl _ s)
  split
  · exact .refl _ s
  · dsimp only
    split
    · exact .setSlave s n _
    · exact .trans (.setSlave s n _) (.setSlave _ n _)

theorem PartFrame.slaveMessage (s : State) : PartFrame announceParts s s.slaveMessage := by
  unfold State.slaveMessage
  split
  case h_1 => exact .refl _ s
  case h_2 c t eq =>
    have taken : PartFrame announceParts s t := .mono (.takeClaim eq)
    dsimp only
    split
    · exact .step taken (.inc t _)
    · refine .ite (.trans taken (.slaveAnnounce t _ _ _)) (.ite ?_ taken)
      split
      · exact .step taken (.slaveSync t _ _ _)
      · exact .step taken (.slaveFollowUp t _ _)
      · exact .step taken (.slaveDelayResp t _ _)
      · exact taken

theorem PartFrame.annTimeout (s : State) (n : Nat) : PartFrame slaveStateParts s (s.annTimeout n) := by
  unfold State.annTimeout
  split
  · exact .refl _ s
  · split
    · exact .refl _ s
    · exact .ite (.step (.step (.mono (.setSlave s n _)) (.setSlv _ n 1)) (.raise _ _ _)) (.refl _ s)

theorem PartFrame.slaveLapse (s : State) (n : Nat) : PartFrame slaveStateParts s (s.slaveLapse n) := by
  have lapsed : ∀ f, PartFrame slaveStateParts s (s.setSlave n f) := fun f => .mono (.setSlave s n f)
  exact .ite (.refl _ s) (.ite (.step (lapsed _) (.setSlv _ n 2)) (lapsed _))

theorem PartFrame.slaveRenew (s : State) (n : Nat) : PartFrame slaveParts s (s.slaveRenew n) :=
  .step (.mono (.slaveLapse s n)) (.requestGrants _ n)

theorem PartFrame.slaveGrant (s : State) (n m mt dur : Nat) : PartFrame slaveStateParts s (s.slaveGrant n m mt dur) := by
  have dropped : ∀ f, PartFrame slaveStateParts s (s.setSlave n f) := fun f => .mono (.setSlave s n f)
  exact .ite (.stepWhen (.step (dropped _) (.raise _ _ _)) (.setSlv _ n 2)) (.step (dropped _) (.setSlave _ n _))

theorem PartFrame.grantReceived (s : State) : PartFrame slaveParts s s.grantReceived := by
  unfold State.grantReceived
  split
  case h_1 => exact .refl _ s
  case h_2 c t eq =>
    have taken : PartFrame slaveParts s t := .mono (.takeClaim eq)
    split
    · exact taken
    · exact .step taken (.each (fun _ u => .slaveGrant u _ _ _ _) _ t)

/-! ### ESMC (R270, R271) -/

theorem PartFrame.esmcInput (s : State) (x : Nat) (b : Bytes) (first : Bool) :
    PartFrame [.regs, .totals, .refs, .ptp] s (s.esmcInput x b first) :=
  .ite (.refl _ s) (.step (.stepWhen (.mono (.ptp s _)) (.inc _ _)) (.setRef _ _ _))

theorem PartFrame.esmcReceived (s : State) : PartFrame [.regs, .totals, .refs, .ports, .ptp] s s.esmcReceived := by
  unfold State.esmcReceived
  split
  case h_1 => exact .refl _ s
  case h_2 c t eq =>
    have taken : PartFrame [.regs, .totals, .refs, .ports, .ptp] s t := .mono (.takeClaim eq)
    exact .ite (.step taken (.inc t _)) (.step taken (.each (fun _ u => .ite (.esmcInput u _ _ _) (.refl _ u)) _ t))

end Sys2Proof.Machine
end

section
/-!
SUPPORT. The frames of parts of receipts, their windows and the online key (R278 to R293).
-/

set_option Elab.async false

namespace Sys2Proof.Machine

theorem PartFrame.rcp (s : State) (x : Rcp) : PartFrame [.rcp] s { s with rcp := x } := by
  intro p n; cases p <;> simp_all [Part.eq, Part.same]

theorem PartFrame.setRcp (s : State) (f : Rcp → Rcp) : PartFrame [.rcp] s (s.setRcp f) := .rcp s _

/-! ### Keys (R289, R290) -/

theorem PartFrame.wrBytes (s : State) (a n : Nat) (b : Bytes) : PartFrame [.regs] s (s.wrBytes a n b) := .each (fun _ u => .wr u _ _) _ s

theorem PartFrame.showLt (s : State) : PartFrame [.regs] s s.showLt := by
  unfold State.showLt
  split <;> exact .trans (.setBit s _ _ _) (.wrBytes _ _ _ _)

theorem PartFrame.showRcp (s : State) : PartFrame [.regs] s s.showRcp :=
  .trans (.trans (.trans (.sfW s _ _ _ _) (.setBit _ _ _ _)) (.setBit _ _ _ _)) (.setBit _ _ _ _)

theorem PartFrame.showOnline (s : State) : PartFrame [.regs] s s.showOnline := by
  unfold State.showOnline
  extract_lets t
  have shown : PartFrame [.regs] s t := by
    unfold t
    split <;> exact .trans (.trans (.wr s _ _) (.wrBytes _ _ _ _)) (.wrBytes _ _ _ _)
  exact .trans (.trans (.trans shown (.wr _ _ _)) (.wr _ _ _)) (.showRcp _)

theorem PartFrame.prepareKey (s : State) : PartFrame [.regs, .totals, .rcp, .fresh] s s.prepareKey :=
  .ite (.refl _ s) (.ite (.step (.mono (.drawBytes s 32)) (.setRcp _ _)) (.ite (.mono (.denyEntropy s)) (.refl _ s)))

theorem PartFrame.nextOnlineId (s : State) : PartFrame [.fresh] s s.nextOnlineId.2 := by
  unfold State.nextOnlineId
  split
  · exact .refl _ s
  · exact .fresh s _

theorem PartFrame.installKey {s t : State} {mint : Nat} (h : s.installKey mint = some t) : PartFrame [.regs, .rcp, .fresh] s t := by
  unfold State.installKey at h
  split at h
  · obtain rfl := Option.some.inj h
    exact .step (.step (.mono (.nextOnlineId s)) (.setRcp _ _)) (.showOnline _)
  · nomatch h

/-- The parts that an online key may change. -/
abbrev onlineParts : List Part := .rcp :: .fresh :: reportParts

theorem PartFrame.firstKey (s : State) : PartFrame onlineParts s s.firstKey := by
  unfold State.firstKey
  extract_lets t u
  have shown : PartFrame onlineParts s t := .mono (.showLt s)
  have prepared : PartFrame onlineParts s u := .step shown (.prepareKey t)
  refine .ite ?_ (.step shown (.showRcp t))
  split
  case h_1 v eq => exact .step prepared (.installKey eq)
  case h_2 => exact .step (.step prepared (.setRcp u _)) (.raise _ _ _)

theorem PartFrame.onlineExpire (s : State) : PartFrame (.rcp :: reportParts) s s.onlineExpire := by
  unfold State.onlineExpire
  split
  · exact .refl _ s
  · exact .ite (.step (.step (.mono (.setRcp s _)) (.showOnline _)) (.raise _ _ _)) (.refl _ s)

/-! ### Admission (R280 to R285, R292) -/

/-- The parts that the admission of a request whose answer stays in the module may change. -/
abbrev admitParts : List Part := .rcp :: dropParts

theorem PartFrame.admitLeaf (s : State) (r : Request) (tree : Nat) : PartFrame [.regs, .totals, .rcp] s (s.admitLeaf r tree) :=
  .step (.step (.ite (.mono (.inc s _)) (.refl _ s)) (.setRcp _ _)) (.showRcp _)

theorem PartFrame.etxelRequest (s : State) (p : Nat) : PartFrame (.ports :: admitParts) s (s.etxelRequest p) := by
  unfold State.etxelRequest
  split
  case h_1 => exact .refl _ s
  case h_2 r t eq =>
    extract_lets r q k
    have charged : PartFrame (.ports :: admitParts) s q.1 := .step (.step (.mono (.popRequest eq)) (.inc t _)) (.charge _ r)
    have allowed : PartFrame (.ports :: admitParts) s k.1 := .step charged (.kodOk q.1 r)
    refine .ite (.step charged (.sampleDrop _ _ _ _)) (.ite ?_ ?_)
    · exact .ite (.step allowed (.sendFixed _ _ _)) (.step allowed (.sampleDrop _ _ _ _))
    · split
      · exact .step (.step charged (.inc _ _)) (.sendFixed _ _ _)
      · exact .step charged (.admitLeaf _ r 0)

theorem PartFrame.roughtimeRequest (s : State) (p : Nat) : PartFrame admitParts s (s.roughtimeRequest p) := by
  unfold State.roughtimeRequest
  split
  case h_1 => exact .refl _ s
  case h_2 r t eq =>
    extract_lets r q rev
    have charged : PartFrame admitParts s q.1 := .step (.step (.mono (.popRequest eq)) (.inc t _)) (.charge _ r)
    refine .ite (.step charged (.sampleDrop _ _ _ _)) (.ite (.step (.step charged (.kodOk q.1 r)) (.sampleDrop _ _ _ _)) ?_)
    split
    · exact .step (.step charged (.inc _ _)) (.sampleFinal _ _ _ _)
    · exact .step charged (.admitLeaf _ r _)

/-! ### Sealing and release (R281, R282, R293) -/

/-- The parts that the end of a window may change. -/
abbrev sealParts : List Part := .rcp :: sampleParts

theorem PartFrame.sealSignature (s : State) (j : PkeJob) (status : Nat) (sig : Bytes) : PartFrame [.rcp] s (s.sealSignature j status sig) := by
  unfold State.sealSignature
  split
  · exact .refl _ s
  · exact .ite (.refl _ s) (.setRcp s _)

theorem PartFrame.queueRelease (s : State) (x : Release) : PartFrame sealParts s (s.queueRelease x) :=
  .ite (.mono (.setRcp s _)) (.step (.step (.mono (.inc s _)) (.raise _ _ _)) (.sampleDrop _ _ _ _))

theorem PartFrame.logWindow (s : State) (w : ClosedWindow) (x : TreeSig) (sig : Bytes) (doneAt : Nat) :
    PartFrame reportParts s (s.logWindow w x sig doneAt) := by
  have recorded : ∀ d, PartFrame reportParts s (s.recordOrDrop (s.f A.rcpLogCfg 8 8) 3 d).1 := fun d => .mono (.recordOrDrop s _ 3 d)
  exact .ite (.ite (recorded _) (.step (.step (recorded _) (.inc _ _)) (.raise _ _ _))) (.refl _ s)

theorem PartFrame.sealDone (s : State) : PartFrame sealParts s s.sealDone := by
  unfold State.sealDone
  split
  · exact .refl _ s
  · refine .trans (.trans (.step (.mono (.setRcp s _)) (.inc _ _)) (.each (fun x u => ?_) _ _)) (.each (fun _ u => .queueRelease u _) _ _)
    split
    · exact .mono (.logWindow u _ _ _ _)
    · exact .refl _ u

theorem PartFrame.setQueuePke (s : State) (f : List PkeJob → List PkeJob) : PartFrame [.regs, .pke] s (s.setQueuePke f) :=
  .step (.mono (.pke s _)) (.sfW _ _ _ _ _)

theorem PartFrame.sealTimeout (s : State) : PartFrame (.pke :: sealParts) s s.sealTimeout := by
  unfold State.sealTimeout
  split
  · exact .refl _ s
  · exact .step (.step (.step (.step (.step (.mono (.setRcp s _)) (.setQueuePke _ _)) (.inc _ _)) (.raise _ _ _))
      (.each (fun _ u => .sampleFinal u _ _ _) _ _)) (.each (fun _ u => .queueRelease u _) _ _)

theorem PartFrame.receiptRelease (s : State) : PartFrame (.rcp :: slotParts) s s.receiptRelease := by
  unfold State.receiptRelease
  split
  · exact .refl _ s
  · extract_lets sl n pct t u v ns
    have taken : PartFrame (.rcp :: slotParts) s u := .step (.mono (.setRcp s _)) (.inc t _)
    exact .step (.ite (.step taken (.inc u _)) (.ite (.step taken (.inc u _)) taken)) (.sendFixed v _ _)

end Sys2Proof.Machine
end

section
/-!
SUPPORT. The frames of parts of public-key jobs, the key store and the TRNG (R301 to R320).
-/

set_option Elab.async false

namespace Sys2Proof.Machine

/-! ### The key store (R315 to R317) -/

theorem PartFrame.setSlot (s : State) (k : Nat) (x : KeySlot) : PartFrame [.regs, .pke] s (s.setSlot k x) :=
  .step (.mono (.pke s _)) (.wr _ _ _)

theorem PartFrame.saveKeys (s : State) : PartFrame [.pke] s s.saveKeys := .pke s _

theorem PartFrame.journalKeyOp (s : State) (r : Bytes) (alg usage status : Nat) :
    PartFrame journalParts s (s.journalKeyOp r alg usage status) := .journalize s _ _ _ _ _

/-- The parts that the end of a job with its key may change. -/
abbrev keyJobParts : List Part := .pke :: journalParts

theorem PartFrame.fillSlot (s : State) (j : PkeJob) (status : Nat) (priv : Bytes) : PartFrame keyJobParts s (s.fillSlot j status priv) := by
  unfold State.fillSlot
  extract_lets r k alg w x u t
  have filled : PartFrame keyJobParts s u := .step (.mono (.setSlot s k x)) (.raise _ _ _)
  exact .step (.ite (.ite (.step filled (.saveKeys u)) filled) (.ite (.mono (.setSlot s k _)) (.refl _ s))) (.journalKeyOp _ _ _ _ _)

/-! ### The end of a job (R309 to R312) -/

/-- The parts that the completion of a job may change. -/
abbrev completionParts : List Part := [.regs, .totals, .hif, .out]

/-- The parts that a job in the queue or on a core may change. -/
abbrev jobParts : List Part := .pke :: completionParts

theorem PartFrame.endJob (s : State) (n slot status length : Nat) : PartFrame ringParts s (s.endJob n slot status length) := by
  unfold State.endJob
  split
  · exact .refl _ s
  · have ended : ∀ f, PartFrame ringParts s (s.setRing n f) := fun f => .mono (.setRing s n f)
    exact .step (.ite (.trans (ended _) (.postCompletion _ n _ _ _ _ _)) (ended _)) (.showRing _ n)

/-- A write to host memory, where a condition holds. -/
theorem PartFrame.hostWriteIf {s t : State} (h : PartFrame completionParts s t) (c : Prop) [Decidable c] (a : Nat) (d : Bytes) :
    PartFrame completionParts s (if c then t.hostWrite a d else t) := .ite (.step h (.hostWrite t a d)) h

theorem PartFrame.finalProgress (s : State) (j : PkeJob) (status : Nat) : PartFrame [.out] s (s.finalProgress j status) :=
  .ite (.hostWrite s _ _) (.refl _ s)

theorem PartFrame.finishJob (s : State) (j : PkeJob) (status detail : Nat) (out : Bytes) (core cycles : Nat) :
    PartFrame completionParts s (s.finishJob j status detail out core cycles) := by
  unfold State.finishJob
  extract_lets r t t₁
  have ended : PartFrame completionParts s t := .ite (.mono (.inc s _)) (.mono (.inc s _))
  have counted : PartFrame completionParts s t₁ := .ite (.step ended (.inc t _)) (.ite (.step ended (.inc t _)) ended)
  split
  · exact counted
  · extract_lets live wiped written progress reported
    have output : PartFrame completionParts s written := .hostWriteIf (.hostWriteIf counted _ _ _) _ _ _
    exact .step (.hostWriteIf (.ite (.step output (.finalProgress written j status)) output) _ _ _) (.endJob reported _ _ _ _)

theorem PartFrame.wipeCore (s : State) (c : Nat) : PartFrame [.regs, .totals, .pke] s (s.wipeCore c) :=
  .step (.step (.mono (.count s _ _)) (.inc _ _)) (.setCore _ c _)

theorem PartFrame.completeJob (s : State) (c : Nat) (wiped : Bool) : PartFrame keyJobParts s (s.completeJob c wiped).2 := by
  unfold State.completeJob
  split
  · exact .refl _ s
  · split
    · exact .refl _ s
    · refine .ite2 (.refl _ s) ?_
      extract_lets status fills t u shown cyc
      have freed : PartFrame keyJobParts s t := .step (.mono (.wipeCore s c)) (.inc _ _)
      exact .step (.ite (.step freed (.fillSlot t _ status _)) freed) (.finishJob u _ status _ _ _ _)

theorem PartFrame.stopJob (s : State) (j : PkeJob) (status core cycles : Nat) :
    PartFrame keyJobParts s (s.stopJob j status core cycles) :=
  .step (.ite (.fillSlot s j status []) (.refl _ s)) (.finishJob _ j status 0 [] core cycles)

theorem PartFrame.stopCore (s : State) (c status : Nat) (p : PkeJob → Bool) : PartFrame keyJobParts s (s.stopCore c status p) := by
  unfold State.stopCore
  extract_lets x t hit u
  have ended : PartFrame keyJobParts s t := by
    unfold t
    split
    · exact .ite (.trans (.mono (.wipeCore s c)) (.stopJob _ _ status c _)) (.refl _ s)
    · exact .refl _ s
  exact .trans (.ite ended (.step ended (.setCore t c _))) (.each (fun _ v => .stopJob v _ status c _) _ _)

theorem PartFrame.abortJobs (s : State) (p : PkeJob → Bool) : PartFrame keyJobParts s (s.abortJobs p) :=
  .trans (.trans (.mono (.setQueuePke s _)) (.each (fun _ u => .stopJob u _ 1 0xFF 0) _ _)) (.each (fun _ u => .stopCore u _ 1 p) _ _)

/-! ### Slot operations without a core (R316) -/

theorem PartFrame.keyWipe (s : State) : PartFrame keyJobParts s s.keyWipe := by
  unfold State.keyWipe
  split
  · exact .refl _ s
  · extract_lets k x t u v
    have taken : PartFrame keyJobParts s t := .mono (.setQueuePke s _)
    have stopped : PartFrame keyJobParts s u := .ite (.trans taken (.abortJobs t _)) taken
    have wiped : PartFrame keyJobParts s v := .ite stopped (.step (.step (.step stopped (.setSlot u k _)) (.saveKeys _)) (.raise _ _ _))
    exact .step (.step wiped (.journalKeyOp v _ _ _ 0)) (.finishJob _ _ 0 0 [] 0xFF 0)

theorem PartFrame.wipeKey (s : State) : PartFrame keyJobParts s s.wipeKey := .step (.keyWipe s) (.showLt _)

theorem PartFrame.keyPublic (s : State) : PartFrame jobParts s s.keyPublic := by
  unfold State.keyPublic
  split
  · exact .refl _ s
  · have taken : ∀ f, PartFrame jobParts s (s.setQueuePke f) := fun f => .mono (.setQueuePke s f)
    exact .ite (.step (taken _) (.finishJob _ _ 7 0 [] 0xFF 0)) (.step (taken _) (.finishJob _ _ 0 0 _ 0xFF 0))

/-! ### Scheduling and operations (R301 to R308, R314) -/

theorem PartFrame.ageJobs (s : State) : PartFrame [.pke] s s.ageJobs := .pke s _

theorem PartFrame.takeJob (s : State) (j : PkeJob) : PartFrame jobParts s (s.takeJob j).2 := by
  unfold State.takeJob
  extract_lets r t x
  have taken : PartFrame jobParts s t := .mono (.setQueuePke s _)
  have ended : ∀ status, PartFrame jobParts s (t.finishJob j status 0 [] 0xFF 0) := fun status => .step taken (.finishJob t j status 0 [] 0xFF 0)
  exact .ite2 (.ite2 (ended 0x0C) (.ite2 (.step taken (.setSlot t _ _)) taken))
    (.ite2 taken (.ite2 (ended 7) (.ite2 (ended 0x43) taken)))

theorem PartFrame.startJob (s : State) (c : Nat) (j : PkeJob) (delay : Nat) : PartFrame jobParts s (s.startJob c j delay) := by
  unfold State.startJob
  split
  case h_1 t eq => exact .of_pair (.takeJob s j) eq
  case h_2 x t eq => exact .step (.of_pair (.takeJob s j) eq) (.setCore t c _)

theorem PartFrame.dispatch (s : State) (c : Nat) : PartFrame jobParts s (s.dispatch c) := by
  have aged : PartFrame jobParts s s.ageJobs := .mono (.ageJobs s)
  have started : ∀ h, PartFrame jobParts s (s.ageJobs.startJob c h 0) := fun h => .trans aged (.startJob _ c h 0)
  have resumed : ∀ f, PartFrame jobParts s (s.ageJobs.setCore c f) := fun f => .step aged (.setCore _ c f)
  refine .ite aged ?_
  split
  · exact aged
  · exact started _
  · exact resumed _
  · exact .ite (started _) (resumed _)

theorem PartFrame.yieldJob (s : State) (c : Nat) : PartFrame jobParts s (s.yieldJob c) := by
  have aged : PartFrame jobParts s s.ageJobs := .mono (.ageJobs s)
  unfold State.yieldJob
  extract_lets u
  split
  · exact .ite (.trans (.step (.step (.step aged (.count u _ _)) (.setCore _ c _)) (.inc _ _)) (.startJob _ c _ 256)) aged
  · exact aged

theorem PartFrame.runOp (s : State) (op c : Nat) : PartFrame [.regs, .totals, .pke, .fresh] s (s.runOp op c) := by
  unfold State.runOp
  split
  · exact .refl _ s
  · refine .ite (.refl _ s) (.ite (.step (.mono (.inc s _)) (.setCore _ c _)) ?_)
    split
    · exact .mono (.setCore s c _)
    · exact .step (.mono (.fresh s _)) (.setCore _ c _)

theorem PartFrame.keygenProgress (s : State) (c phase tested : Nat) : PartFrame [.regs, .pke, .out] s (s.keygenProgress c phase tested) := by
  have shown : ∀ f, PartFrame [.regs, .pke, .out] s (s.setCore c f) := fun f => .mono (.setCore s c f)
  unfold State.keygenProgress
  split
  · exact .refl _ s
  · exact .ite (.refl _ s) (.ite (.step (shown _) (.hostWrite _ _ _)) (shown _))

/-! ### The TRNG (R318 to R320) -/

theorem PartFrame.keygensStarve (s : State) : PartFrame [.regs, .totals, .pke] s s.keygensStarve := .step (.mono (.pke s _)) (.count _ _ _)

theorem PartFrame.showTrng (s : State) : PartFrame keyJobParts s s.showTrng := by
  have shown : ∀ a b, PartFrame keyJobParts s ((s.sfW A.pkeTrngStatus 0 2 a).sfW A.pkeTrngStatus 2 4 b) := fun a b =>
    .step (.mono (.sfW s _ _ _ a)) (.sfW _ _ _ _ b)
  exact .ite (.step (.step (.step (shown _ _) (.keygensStarve _)) (.raise _ _ _)) (.journalize _ _ _ _ _ _))
    (.ite (.step (shown _ _) (.raise _ _ _)) (shown _ _))

theorem PartFrame.sourceFail (s : State) (i : Nat) (rct : Bool) : PartFrame keyJobParts s (s.sourceFail i rct) := by
  have counted : PartFrame keyJobParts s s.countSeeds := .mono (.countSeeds s)
  exact .ite counted (.trans (.step (.step (.step (.step counted (.pke _ _)) (.sfW _ _ _ _ _)) (.inc _ _)) (.raise _ _ _)) (.showTrng _))

theorem PartFrame.sourceRetest (s : State) (i : Nat) (pass : Bool) : PartFrame keyJobParts s (s.sourceRetest i pass) := by
  unfold State.sourceRetest
  split
  · exact .refl _ s
  · exact .ite (.refl _ s) (.ite (.trans (.step (.step (.mono (.countSeeds s)) (.pke _ _)) (.sfW _ _ _ _ _)) (.showTrng _)) (.mono (.pke s _)))

end Sys2Proof.Machine
end

section
/-!
SUPPORT. The frames of parts of the replicated units' fences and returns (R394 to R396), and O37.
-/

set_option Elab.async false

namespace Sys2Proof.Machine

theorem PartFrame.testing (s : State) (x : Option (Nat × Nat)) : PartFrame [.testing] s { s with testing := x } := by
  intro p n; cases p <;> simp_all [Part.eq, Part.same]

/-! ### Cores, blocks of the GNSS receiver, references -/

theorem PartFrame.fenceCore (s : State) (c : Nat) : PartFrame keyJobParts s (s.fenceCore c) :=
  .step (.step (.step (.stopCore s c 6 _) (.setBit _ _ _ _)) (.showCore _ c)) (.raise _ _ _)

theorem PartFrame.returnCore (s : State) (c : Nat) : PartFrame [.regs] s (s.returnCore c) := .trans (.setBit s _ _ _) (.showCore _ c)

theorem PartFrame.fenceBlock (s : State) (b : Nat) (on : Bool) : PartFrame sideParts s (s.fenceBlock b on) :=
  .stepWhen (.step (.step (.mono (.setBit s _ b on)) (.each (fun _ u => .freeChan u _ _) _ _)) (.sfW _ _ _ _ _)) (.raise _ _ _)

/-- The parts that a change of a reference's qualification may change. -/
abbrev qualParts : List Part := .refs :: journalParts

theorem PartFrame.setQ (s : State) (i q stat which : Nat) : PartFrame qualParts s (s.setQ i q stat which) := by
  unfold State.setQ
  extract_lets old t t₁
  have entered : PartFrame qualParts s t := .step (.mono (.sfW s _ _ _ _)) (.setRef _ i _)
  have cleared : PartFrame qualParts s t₁ := .ite (.step (.step entered (.wr t _ _)) (.wr _ _ _)) entered
  exact .ite (.refl _ s) (.step (.step (.step (.step cleared (.setBit _ _ _ _)) (.sfW _ _ _ _ _)) (.raise _ _ _)) (.journalize _ _ _ _ _ _))

theorem PartFrame.requalify (s : State) (i : Nat) : PartFrame qualParts s (s.requalify i) := by
  have anew : ∀ f, PartFrame qualParts s (s.setRef i f) := fun f => .mono (.setRef s i f)
  exact .ite (anew _) (.step (.step (.trans (anew _) (.setQ _ i 0 0 0)) (.setRef _ i _)) (.showTimer _ i))

/-! ### Fences and returns (R394 to R396) -/

/-- The parts that the fence or the return of a unit may change. -/
abbrev unitParts : List Part := .refs :: .gnss :: .pke :: fenceParts

theorem PartFrame.showSha (s : State) : PartFrame [.regs] s s.showSha := .trans (.sfW s _ _ _ _) (.showRcp _)

theorem PartFrame.unitLost (s : State) (kind i : Nat) (drained : Bool) : PartFrame unitParts s (s.unitLost kind i drained) := by
  unfold State.unitLost
  split
  · exact .mono (.pipeFenced s i drained)
  · exact .refl _ s
  · exact .mono (.showSha s)
  · exact .mono (.fenceCore s i)
  · exact .mono (.fenceBlock s i true)
  · exact .when (.mono (.lose s _))

theorem PartFrame.unitBack (s : State) (kind i : Nat) : PartFrame unitParts s (s.unitBack kind i) := by
  unfold State.unitBack
  split
  · exact .step (.mono (.setPipe s i 0)) (.showPipes _)
  · exact .refl _ s
  · exact .mono (.showSha s)
  · exact .mono (.returnCore s i)
  · exact .mono (.fenceBlock s i false)
  · exact .when (.mono (.requalify s _))

/-- A unit's bit in the fence maps, and its entry among the fences. -/
theorem PartFrame.fenceMarked (s : State) (kind i : Nat) (on : Bool) (x : Cells Nat) :
    PartFrame unitParts s { s.setBit (fenceBit kind i).1 (fenceBit kind i).2 on with fences := x } :=
  .step (.mono (.setBit s _ _ on)) (.fences _ x)

/-- A unit of any kind is fenced. -/
theorem PartFrame.fenceAny (s : State) (src : Source) (kind i cause : Nat) (drained : Bool) :
    PartFrame unitParts s (s.fenceOne src kind i cause drained) :=
  .ite (.refl _ s) (.step (.step (.trans (.step (.fenceMarked s kind i true _) (.showUnits _)) (.unitLost _ kind i drained)) (.raise _ _ _))
    (.logFault _ _ _ _ _ _ _ _))

theorem PartFrame.fenceUnit (s : State) (src : Source) (kind i cause : Nat) (drained : Bool) :
    PartFrame unitParts s (s.fenceUnit src kind i cause drained) := by
  have one : PartFrame unitParts s (s.fenceOne src kind i cause drained) := .fenceAny s src kind i cause drained
  exact .ite (.trans one (.fenceAny _ src 1 i 4 drained)) (.ite (.trans one (.fenceAny _ src 0 i 4 drained)) one)

theorem PartFrame.returnOne (s : State) (src : Source) (kind i : Nat) : PartFrame unitParts s (s.returnOne src kind i) :=
  .ite (.step (.step (.trans (.step (.fenceMarked s kind i false _) (.showUnits _)) (.unitBack _ kind i)) (.raise _ _ _))
    (.logFault _ _ _ _ _ _ _ _)) (.refl _ s)

theorem PartFrame.returnPair (s : State) (src : Source) (kind i : Nat) : PartFrame unitParts s (s.returnPair src kind i) := by
  have one : PartFrame unitParts s (s.returnOne src kind i) := .returnOne s src kind i
  exact .ite (.trans one (.returnOne _ src 1 i)) (.ite (.trans one (.returnOne _ src 0 i)) one)

theorem PartFrame.fenceResult (s : State) (op kind i st reason : Nat) : PartFrame reportParts s (s.fenceResult op kind i st reason) :=
  .step (.mono (.wr s _ _)) (.raise _ _ _)

theorem PartFrame.selftestDone (s : State) (pass : Bool) : PartFrame (.testing :: unitParts) s (s.selftestDone pass) := by
  unfold State.selftestDone
  split
  · exact .refl _ s
  · have ended : PartFrame (.testing :: unitParts) s { s with testing := none } := .mono (.testing s none)
    exact .ite (.step (.step ended (.returnPair _ _ _ _)) (.fenceResult _ _ _ _ _ _)) (.step ended (.fenceResult _ _ _ _ _ _))

theorem PartFrame.unitTested (s : State) (kind i : Nat) (pass : Bool) : PartFrame (.testing :: unitParts) s (s.unitTested kind i pass) :=
  .ite (.selftestDone s pass) (.ite (.refl _ s) (.ite (.mono (.fenceUnit s .module kind i 1 false)) (.refl _ s)))

/-! ### The end of a job on a core (R309) -/

/-- The parts that the end of a job on a core may change: one whose wipe failed fences the core. -/
abbrev jobEndParts : List Part := .rcp :: .fresh :: unitParts

theorem PartFrame.jobCompletes (s : State) (c : Nat) (wiped : Bool) : PartFrame jobEndParts s (s.jobCompletes c wiped) := by
  have ended : ∀ {q}, s.completeJob c wiped = q → PartFrame jobEndParts s q.2 := fun eq => eq ▸ .mono (.completeJob s c wiped)
  unfold State.jobCompletes
  split
  case h_1 t eq => exact ended eq
  case h_2 j st out t eq =>
    extract_lets signed keyed
    have settled : PartFrame jobEndParts s keyed := .stepWhen (.step (ended eq) (.sealSignature t j st out)) (.firstKey signed)
    exact .ite settled (.step (.step (.step settled (.raise keyed _ _)) (.logFault _ _ _ _ _ _ _ _)) (.fenceUnit _ _ _ _ _ _))

/-! ### The obligation -/

/-- An operation of the running job of a core. -/
theorem changesOnly_runOp {c : Instr} (dt core op : Nat)
    (command : ∀ s, exec c s = afterIf (decide (core < 16)) dt s (fun t => t.runOp op core) := by exact fun _ => rfl) :
    ChangesOnly c [.regs, .totals, .pke, .fresh] := changesOnly_frame _ dt (fun u => .runOp u op core) command

/-- Settles O37: each command's effect is an operation whose frame is one of the lemmas above. -/
theorem protocolFrames : Obligations.ProtocolFrames := by
  unfold Obligations.ProtocolFrames
  refine ⟨fun dt => ?delayReqRx, fun dt => ?unicastRequestRx, fun dt => ?unicastCancelRx, fun dt => ?grantExpire,
    fun dt => ?slaveMessageRx, fun dt n => ?annTimeout, fun dt n => ?slaveGrantRenew, fun dt => ?esmcRx,
    fun dt => ?grantUnicastTransmissionRx, fun dt p => ?etxelRequest, fun dt p => ?roughtimeRequest, fun dt => ?sealDone,
    fun dt => ?sealTimeout, fun dt => ?receiptRelease, fun dt => ?onlineKeyExpire, fun dt c => changesOnly_runOp dt c 0x01,
    fun dt c => changesOnly_runOp dt c 0x02, fun dt c => changesOnly_runOp dt c 0x03, fun dt c => changesOnly_runOp dt c 0x04,
    fun dt c => changesOnly_runOp dt c 0x05, fun dt c => changesOnly_runOp dt c 0x06, fun dt c => changesOnly_runOp dt c 0x07,
    fun dt c => changesOnly_runOp dt c 0x08, fun dt c => changesOnly_runOp dt c 0x09, fun dt c => changesOnly_runOp dt c 0x0A,
    fun dt c => changesOnly_runOp dt c 0x0B, fun dt c => changesOnly_runOp dt c 0x10, fun dt c => changesOnly_runOp dt c 0x11,
    fun dt => ?keyWipe, fun dt => ?keyPublic, fun dt c => ?pkeDispatch, fun dt c => ?pkeYield, fun dt => ?pkeJobAged,
    fun dt c wiped => ?pkeJobComplete, fun dt c phase tested => ?keygenProgress, fun dt => ?drbgReseed,
    fun dt i rct => ?trngSourceFail, fun dt i pass => ?trngSourceRetest, fun dt kind i pass => ?unitSelftestDone⟩
  case delayReqRx => exact changesOnly_frame true dt .delayReq
  case unicastRequestRx => exact changesOnly_frame true dt .unicastRequest
  case unicastCancelRx => exact changesOnly_frame true dt .unicastCancel
  case grantExpire => exact changesOnly_frame true dt .grantExpire
  case slaveMessageRx => exact changesOnly_frame true dt .slaveMessage
  case annTimeout => exact changesOnly_frame (decide (n < 2)) dt (fun u => .annTimeout u n)
  case slaveGrantRenew => exact changesOnly_frame (decide (n < 2)) dt (fun u => .slaveRenew u n)
  case esmcRx => exact changesOnly_frame true dt .esmcReceived
  case grantUnicastTransmissionRx => exact changesOnly_frame true dt .grantReceived
  case etxelRequest => exact changesOnly_frame (decide (p < 16)) dt (fun u => .etxelRequest u p)
  case roughtimeRequest => exact changesOnly_frame (decide (p < 16)) dt (fun u => .roughtimeRequest u p)
  case sealDone => exact changesOnly_frame true dt .sealDone
  case sealTimeout => exact changesOnly_frame true dt .sealTimeout
  case receiptRelease => exact changesOnly_frame true dt .receiptRelease
  case onlineKeyExpire => exact changesOnly_frame true dt .onlineExpire
  case keyWipe => exact changesOnly_frame true dt .wipeKey
  case keyPublic => exact changesOnly_frame true dt .keyPublic
  case pkeDispatch => exact changesOnly_frame (decide (c < 16)) dt (fun u => .dispatch u c)
  case pkeYield => exact changesOnly_frame (decide (c < 16)) dt (fun u => .yieldJob u c)
  case pkeJobAged => exact changesOnly_frame true dt .ageJobs
  case pkeJobComplete => exact changesOnly_frame (decide (c < 16)) dt (fun u => .jobCompletes u c wiped)
  case keygenProgress => exact changesOnly_frame (decide (c < 16)) dt (fun u => .keygenProgress u c phase tested)
  case drbgReseed => exact changesOnly_frame true dt .countSeeds
  case trngSourceFail => exact changesOnly_frame (decide (i < 8)) dt (fun u => .sourceFail u i rct)
  case trngSourceRetest => exact changesOnly_frame (decide (i < 8)) dt (fun u => .sourceRetest u i pass)
  case unitSelftestDone => exact changesOnly_frame true dt (fun u => .unitTested u kind i pass)

end Sys2Proof.Machine
end

section
/-!
SUPPORT. A Delay_Req that a client with a context sends to the multicast address over UDP (R261), and O21.
-/

set_option Elab.async false

namespace Sys2Proof.Machine

/-- A Delay_Req of domain 0, from 10.0.0.1 to the PTP group 224.0.1.129, both at port 319. -/
def groupDelayReq : RxFrame :=
  ⟨0, 0, frameOf ⟨zeros 6, zeros 6, [], 4, 0, mapped [10, 0, 0, 1], mapped [224, 0, 1, 129], 319, 319, 0, 64⟩
    ([1, 0x12] ++ be 2 44 ++ zeros 40)⟩

/-- Link 0 is UP, and entry 0 of PTP_INST serves UDP/IPv4 there in unicast alone. The sender of the Delay_Req that waits has a context of
that entry, with a live grant for Delay_Resp and full credit. -/
def unicastClient : State :=
  { ((State.reset.wr (A.macLinkStatus 0) 1).wr (A.ptpInstCfg 0) 9).wr (A.ptpInstLinks 0) 0x100 with
    ports := { State.reset.ports with claims := [⟨.ptp, groupDelayReq⟩] }
    ptp := { State.reset.ptp with ctxs := [(0, ⟨0, 0, ⟨[], [], [], 0, 0, [], [], 0, 0, 0, 0⟩, mapped [10, 0, 0, 1], zeros 10,
      none, none, some ⟨0, 10⟩, 0, 0, 0, 4000000000, 0⟩)] } }

theorem unicastClient_unanswered : (((unicastClient.advance 0).delayReq).lnk 0).queue.length = 0 := by decide +kernel

/-- Refutes O21: the clause of the granted Delay_Req does not ask that the request came to a unicast address. One that its client
sent to the multicast address over UDP is answered as a multicast one (`State.delayReq`), and where no entry of PTP_INST serves
multicast on the link it is dropped: nothing is queued, although grant and credit are there. -/
theorem not_ptpMessagesComplete : ¬ Obligations.PtpMessagesComplete := by
  unfold Obligations.PtpMessagesComplete
  rintro ⟨-, granted, -⟩
  have canonical : unicastClient.canonical = true := by decide +kernel
  obtain ⟨t, next, -, answered⟩ := granted unicastClient _ 0 0 ⟨.ptp, groupDelayReq⟩ _ ⟨0, 10⟩ canonical rfl (by decide +kernel)
    (by decide +kernel) (by decide +kernel) rfl (by decide +kernel) (by decide) (by decide +kernel) (by decide +kernel) rfl
    (by decide +kernel) rfl (by decide +kernel) (by decide) (by decide)
  obtain rfl := Host.Outcome.next.inj next
  exact absurd (unicastClient_unanswered.symm.trans answered) (by decide +kernel)

end Sys2Proof.Machine
end

section
/-!
SUPPORT. The high half of SEEDS (R318, R361), and O38.
-/

set_option Elab.async false

namespace Sys2Proof.Machine

/-- Noise source 0 is HEALTHY, and the low half of SEEDS is full. -/
def fullSeeds : State := (State.reset.wr A.pkeTrngSrc 1).wr A.pkeSeeds 0xFFFFFFFF

/-- After 10,240 cycles the source has given one block more, which the high half of SEEDS counts. -/
theorem fullSeeds_carried : ((fullSeeds.advance 10240).countSeeds).rd (A.pkeSeeds + 4) ≠ fullSeeds.rd (A.pkeSeeds + 4) := by
  decide +kernel

/-- Refutes O38: SEEDS is a pair of counter words (R361), and the clause of DRBG_RESEED names its low half alone. -/
theorem not_protocolRegisterFrames : ¬ Obligations.ProtocolRegisterFrames := by
  unfold Obligations.ProtocolRegisterFrames
  rintro ⟨-, -, -, -, -, -, -, -, -, -, -, -, -, -, -, -, -, -, -, -, -, -, -, -, -, -, -, -, -, seedsWrites, -⟩
  have canonical : fullSeeds.canonical = true := by decide +kernel
  have unlisted : A.pkeSeeds + 4 ∉ [A.pkeSeeds] := by decide
  exact fullSeeds_carried (seedsWrites 10240 fullSeeds _ _ canonical rfl (fun _ => unlisted))

end Sys2Proof.Machine
end

section
/-!
SUPPORT. A receipt request that its pipeline takes within its rate, and its admission or refusal (R278, R283 to R285, R292).
-/

set_option Elab.async false

namespace Sys2Proof.Machine

/-! ### A request within its rate (R232, R234) -/

/-- A word of the pipelines' blocks: their STATUS words and counters. -/
def InPipes (a : Nat) : Prop := 0x58000 ≤ a ∧ a < 0x60000

theorem untracked_congr {s t : State} {r : Request} (table : t.hrc.table = s.hrc.table) (groups : t.groups = s.groups)
    (words : ∀ a ∈ [A.hrcHashSeed, A.hrcStatus, A.hrcClientIdle], t.rd a = s.rd a) : t.untracked r = s.untracked r := by
  unfold State.untracked State.client State.recordIndex State.keyHash State.hrcWord State.group State.f
  rw [table, groups, words A.hrcHashSeed (by decide), words A.hrcStatus (by decide), words A.hrcClientIdle (by decide)]

/-- A tracked request whose profile sets no interval is within its rate; it writes at most the counter of records taken over. -/
theorem charge_within {s : State} {r : Request} (tracked : s.untracked r = false) (free : profInterval r = 0) (pipe : r.pipe < 16) :
    (s.charge r).2 = 0 ∧ RegFrame InPipes s (s.charge r).1 := by
  have evict : InPipes (A.svpPipeEvict r.pipe) ∧ InPipes (A.svpPipeEvict r.pipe + 4) := by unfold InPipes A.svpPipeEvict; omega
  unfold State.charge
  extract_lets i x now sec live own idle fresh base q nr t u
  have known : (live && !own && !idle) = false := by
    rw [← tracked]
    unfold State.untracked
    cases h : live <;> simp_all [live, own, idle, x, i, now]
  have under : q.2 = false := by simp [q, free]
  rw [if_neg (by simp [known]), if_pos under]
  exact ⟨rfl, .trans (t := t) (.same rfl) (.ite (fun _ => .inc t _ evict.1 (fun _ => evict.2)) (fun _ => .refl _ t))⟩

/-- What is left of pipeline `p` once the request at its front is taken and charged (R224, R284). -/
abbrev State.requestCharged (s : State) (p : Nat) (r : Request) (l : List Request) : State :=
  (((s.setQueue p (fun _ => l)).inc (A.svpPipeSlots p)).charge ((s.setQueue p (fun _ => l)).noteTracked r)).1

/-- A request of pipeline `p` that is tracked and free of a rate stands before `l`. -/
structure FreeFront (s : State) (p : Nat) (r : Request) (l : List Request) : Prop where
  regs : CellList.wf resetOf s.regs = true
  unit : p < 16
  front : s.queue p = r :: l
  tracked : s.untracked r = false
  free : profInterval r = 0
  pipe : r.pipe < 16

theorem PartFrame.requestCharged (s : State) (p : Nat) (r : Request) (l : List Request) :
    PartFrame chargeParts s (s.requestCharged p r l) :=
  .step (.step (.mono (.setQueue s p _)) (.inc _ _)) (.charge _ _)

section
variable {s : State} {p : Nat} {r : Request} {l : List Request} (h : FreeFront s p r l)
include h

theorem FreeFront.within :
    (((s.setQueue p (fun _ => l)).inc (A.svpPipeSlots p)).charge ((s.setQueue p (fun _ => l)).noteTracked r)).2 = 0 ∧
      RegFrame InPipes s (s.requestCharged p r l) := by
  have unit := h.unit
  have taken : RegFrame InPipes s ((s.setQueue p (fun _ => l)).inc (A.svpPipeSlots p)) := .trans
    (.before (.sfW _ _ _ _ _ (by unfold InPipes A.svpPipeStatus; omega)))
    (.inc _ _ (by unfold InPipes A.svpPipeSlots; omega) (fun _ => by unfold InPipes A.svpPipeSlots; omega))
  have counted : PartFrame [.regs, .totals] (s.setQueue p (fun _ => l)) ((s.setQueue p (fun _ => l)).inc (A.svpPipeSlots p)) := .inc _ _
  have table : ((s.setQueue p (fun _ => l)).inc (A.svpPipeSlots p)).hrc.table = s.hrc.table :=
    (congrArg (fun h : Hrc => h.table) (counted .hrc (by decide))).trans rfl
  have tracked : ((s.setQueue p (fun _ => l)).inc (A.svpPipeSlots p)).untracked ((s.setQueue p (fun _ => l)).noteTracked r) = false := by
    refine Eq.trans (untracked_congr (r := r) table (counted .groups (by decide)) fun a m => (taken h.regs).2 a ?_) h.tracked
    unfold InPipes
    revert a
    decide
  obtain ⟨within, charged⟩ := charge_within tracked h.free h.pipe
  exact ⟨within, taken.trans charged⟩

theorem FreeFront.regFrame : RegFrame InPipes s (s.requestCharged p r l) := h.within.2

/-- A word beyond the pipelines' blocks. -/
theorem FreeFront.rd {a : Nat} (out : ¬ InPipes a) : (s.requestCharged p r l).rd a = s.rd a := (h.regFrame h.regs).2 a out

theorem FreeFront.queue : (s.requestCharged p r l).queue p = l := by
  have counted : ServeKept (s.setQueue p (fun _ => l)) (s.requestCharged p r l) :=
    .trans (.inc _ (p := p) (by simp [pipeCounters])) (.charge _ _)
  exact (congrArg (fun q => q.getD p []) counted.queues).trans (queue_setQueue (listed_of_queue h.front) _)

end

/-! ### Admission (R278, R292) -/

theorem admitCheck_congr {s t : State} (rcp : t.rcp = s.rcp) (ts : t.ts = s.ts) (groups : t.groups = s.groups)
    (words : ∀ a ∈ [A.rcpStatus, A.rcpWindowUs, A.tscState], t.rd a = s.rd a) : t.admitCheck = s.admitCheck := by
  unfold State.admitCheck State.unserved State.tscMode State.onlineKey State.rcpCap State.rcpSafe State.group State.stamp State.f
  rw [rcp, ts, groups, words A.rcpStatus (by decide), words A.rcpWindowUs (by decide), words A.tscState (by decide)]

theorem FreeFront.admitCheck {s : State} {p : Nat} {r : Request} {l : List Request} (h : FreeFront s p r l) :
    (s.requestCharged p r l).admitCheck = s.admitCheck := by
  have parts := PartFrame.requestCharged s p r l
  refine admitCheck_congr (parts .rcp (by decide)) (parts .ts (by decide)) (parts .groups (by decide)) fun a m => h.rd ?_
  unfold InPipes
  revert a
  decide

theorem showRcp_rcp (s : State) : s.showRcp.rcp = s.rcp := rfl

/-- An admitted request is one leaf more of the open window. -/
theorem admitLeaf_leaves (s : State) (r : Request) (tree : Nat) :
    (s.admitLeaf r tree).rcp.leaves.length = s.rcp.leaves.length + 1 := by
  unfold State.admitLeaf
  extract_lets t at_ d x
  have counted : t.rcp = s.rcp := PartFrame.ite (l := [.regs, .totals]) (.inc s _) (.refl _ s) .rcp (by decide)
  rw [showRcp_rcp, ← counted]
  rfl

theorem admitLeaf_queue (s : State) (r : Request) (tree p : Nat) : (s.admitLeaf r tree).queue p = s.queue p :=
  congrArg (fun h : Hrc => h.queues.getD p []) (PartFrame.admitLeaf s r tree .hrc (by decide))

section
variable {s : State} {p : Nat} {r : Request} {l : List Request} (h : FreeFront s p r l)
include h

theorem FreeFront.admitted (x : Request) (tree : Nat) :
    ((s.requestCharged p r l).admitLeaf x tree).queue p = l ∧
      ((s.requestCharged p r l).admitLeaf x tree).rcp.leaves.length = s.rcp.leaves.length + 1 := by
  have rcp : (s.requestCharged p r l).rcp = s.rcp := PartFrame.requestCharged s p r l .rcp (by decide)
  rw [admitLeaf_queue, admitLeaf_leaves, rcp]
  exact ⟨h.queue, rfl⟩

/-- An Etxel request that nothing speaks against is a leaf of tree 0. -/
theorem etxelRequest_admitted (kind : r.kind = .etxel) (none : s.admitCheck = none) :
    (s.etxelRequest p).queue p = l ∧ (s.etxelRequest p).rcp.leaves.length = s.rcp.leaves.length + 1 := by
  have joins : s.etxelRequest p = (s.requestCharged p r l).admitLeaf ((s.setQueue p (fun _ => l)).noteTracked r) 0 := by
    unfold State.etxelRequest
    rw [popRequest_front h.front kind]
    dsimp only
    rw [if_neg (by simp [h.within.1]), if_neg (by simp [h.within.1]), h.admitCheck, none]
  rw [joins]
  exact h.admitted _ 0

/-- A Roughtime request that nothing speaks against is a leaf of its revision's tree. -/
theorem roughtimeRequest_admitted (kind : r.kind = .roughtime) (none : s.admitCheck = none) :
    (s.roughtimeRequest p).queue p = l ∧ (s.roughtimeRequest p).rcp.leaves.length = s.rcp.leaves.length + 1 := by
  have joins : ∃ tree, s.roughtimeRequest p = (s.requestCharged p r l).admitLeaf ((s.setQueue p (fun _ => l)).noteTracked r) tree := by
    unfold State.roughtimeRequest
    rw [popRequest_front h.front kind]
    dsimp only
    rw [if_neg (by simp [h.within.1]), if_neg (by simp [h.within.1]), h.admitCheck, none]
    exact ⟨_, rfl⟩
  obtain ⟨tree, joins⟩ := joins
  rw [joins]
  exact h.admitted _ tree

end

/-! ### Refusal and hand-over (R282, R285) -/

/-- A response whose link is UP joins the link's ready responses. -/
theorem sendFixed_up {s : State} {r : Request} (up : s.linkUp r.frame.sl = true) (payload : Bytes) :
    ∃ x, s.sendFixed r payload = s.setLink r.frame.sl (fun l => { l with ready := l.ready ++ [x] }) :=
  ⟨_, if_pos up⟩

theorem ready_setLink {s : State} {sl : Nat} (listed : sl < s.ports.links.length) (x : Handed) :
    ((s.setLink sl (fun l => { l with ready := l.ready ++ [x] })).lnk sl).ready.length = (s.lnk sl).ready.length + 1 := by
  rw [lnk_setLink listed]
  exact List.length_append

theorem refusalCounter_of (st : Nat) : refusalCounter st = A.rcpKeyRefused ∨ refusalCounter st = A.rcpUnsync ∨
    refusalCounter st = A.rcpWindowFull := by
  unfold refusalCounter
  split
  · exact .inl rfl
  · split
    · exact .inr (.inl rfl)
    · exact .inr (.inr rfl)

theorem refusalCounter_single (st : Nat) : pairRowOf (refusalCounter st) = none := by
  obtain h | h | h := refusalCounter_of st
  all_goals rw [h]; decide +kernel

theorem refusalCounter_le (st : Nat) : 0x70000 ≤ refusalCounter st := by
  obtain h | h | h := refusalCounter_of st
  all_goals rw [h]; decide

/-- An Etxel request that something speaks against is refused to its client, and the refusal counts. -/
theorem etxelRequest_refused {s : State} {p st : Nat} {r : Request} {l : List Request} (h : FreeFront s p r l) (kind : r.kind = .etxel)
    (refusal : s.admitCheck = some st) (listed : r.frame.sl < s.ports.links.length) (up : s.linkUp r.frame.sl = true)
    (unit : r.frame.sl < 8) :
    (s.etxelRequest p).queue p = l ∧ (s.etxelRequest p).rcp.leaves = s.rcp.leaves ∧
      ((s.etxelRequest p).lnk r.frame.sl).ready.length = (s.lnk r.frame.sl).ready.length + 1 ∧
      ((s.etxelRequest p).rd (refusalCounter st)).toNat = min ((s.rd (refusalCounter st)).toNat + 1) 0xFFFFFFFF := by
  have refuse : s.etxelRequest p = ((s.requestCharged p r l).inc (refusalCounter st)).sendFixed
      (((s.setQueue p (fun _ => l)).noteTracked r).outcome 4 st) (refusalBytes ((s.setQueue p (fun _ => l)).noteTracked r) st) := by
    unfold State.etxelRequest
    rw [popRequest_front h.front kind]
    dsimp only
    rw [if_neg (by simp [h.within.1]), if_neg (by simp [h.within.1]), h.admitCheck, refusal]
  have own : 0x70000 ≤ refusalCounter st := refusalCounter_le st
  have taken := PartFrame.requestCharged s p r l
  have counted := PartFrame.inc (s.requestCharged p r l) (refusalCounter st)
  have regs := (h.regFrame h.regs).1
  have status : ((s.requestCharged p r l).inc (refusalCounter st)).linkUp r.frame.sl = true := by
    have kept := (RegFrame.inc (W := fun a => 0x70000 ≤ a) (s.requestCharged p r l) (refusalCounter st) own (fun _ => by omega) regs).2
    refine (bit_of_rd ((kept _ ?_).trans (h.rd ?_)) 0).trans up
    · unfold A.macLinkStatus; omega
    · unfold InPipes A.macLinkStatus; omega
  have ports : ((s.requestCharged p r l).inc (refusalCounter st)).ports = s.ports :=
    (counted .ports (by decide)).trans (taken .ports (by decide))
  obtain ⟨x, sent⟩ := sendFixed_up (r := ((s.setQueue p (fun _ => l)).noteTracked r).outcome 4 st) status
    (refusalBytes ((s.setQueue p (fun _ => l)).noteTracked r) st)
  rw [refuse, sent]
  refine ⟨?_, ?_, ?_, ?_⟩
  · exact (congrArg (fun q : Hrc => q.queues.getD p []) (counted .hrc (by decide))).trans h.queue
  · exact congrArg (fun q : Rcp => q.leaves) ((counted .rcp (by decide)).trans (taken .rcp (by decide)))
  · exact (ready_setLink (by rw [ports]; exact listed) x).trans (by rw [lnk_congr ports]; rfl)
  · refine (inc_rd regs (refusalCounter_single st)).trans ?_
    rw [h.rd (by unfold InPipes; omega)]

end Sys2Proof.Machine
end

section
/-!
SUPPORT. Windows sealed or abandoned, and the release of their responses (R281, R282, R288, R293).
-/

set_option Elab.async false

namespace Sys2Proof.Machine

/-! ### The release queue (R282) -/

theorem queueRelease_room {s : State} (room : s.rcp.queue.length < 32768) (x : Release) :
    s.queueRelease x = s.setRcp (fun r => { r with queue := r.queue ++ [x] }) := if_pos room

/-- Responses that the release queue has room for join it in their order. -/
theorem queueReleases_room {α : Type} (g : α → Release) : ∀ (l : List α) (s : State), s.rcp.queue.length + l.length ≤ 32768 →
    s.each l (fun x t => t.queueRelease (g x)) = s.setRcp (fun r => { r with queue := r.queue ++ l.map g })
  | [], s, _ => by simp [State.each, State.setRcp]
  | x :: l, s, room => by
    have next := queueReleases_room g l (s.setRcp (fun r => { r with queue := r.queue ++ [g x] }))
      (by simp only [State.setRcp, List.length_append, List.length_cons, List.length_nil] at room ⊢; omega)
    rw [State.each, List.foldl_cons, queueRelease_room (by simp at room; omega)]
    exact next.trans (by simp [State.setRcp])

/-! ### The window log (R293) -/

theorem RegFrame.recordOrDrop_hif (s : State) {n : Nat} (h : n < 256) (source : Nat) (d : Bytes) :
    RegFrame InHif s (s.recordOrDrop n source d).1 := by
  have put := RegFrame.putRecord s n d (inHif_hifRingPosted h)
  unfold State.recordOrDrop
  split
  · dsimp only
    split
    · exact put
    · exact put.trans (.ringDrop_hif _ h)
  · exact .ringDrop_hif s h

/-- The words that a record of the window log may write. -/
def WindowLogWord (a : Nat) : Prop := a = A.rcpLogDrop ∨ a = A.rcpEvent ∨ InHif a

theorem RegFrame.logWindow (s : State) (w : ClosedWindow) (x : TreeSig) (sig : Bytes) (doneAt : Nat) :
    RegFrame WindowLogWord s (s.logWindow w x sig doneAt) := by
  have ring : s.f A.rcpLogCfg 8 8 < 256 := Nat.mod_lt _ (by decide)
  have recorded : ∀ d, RegFrame WindowLogWord s (s.recordOrDrop (s.f A.rcpLogCfg 8 8) 3 d).1 := fun d =>
    (RegFrame.recordOrDrop_hif s ring 3 d).mono (fun _ m => .inr (.inr m))
  unfold State.logWindow
  refine .ite (fun _ => .ite (fun _ => recorded _) (fun _ => ?_)) (fun _ => .refl _ s)
  exact ((recorded _).trans (.inc _ _ (.inl rfl) (fun c => absurd c (by decide +kernel)))).trans
    (.raise_of _ _ 6 (.inr (.inl rfl)) (fun _ m => .inr (.inr m)))

/-! ### SEAL_DONE and SEAL_TIMEOUT (R281) -/

/-- A window is no longer among the closed ones. -/
def State.windowGone (s : State) (w : ClosedWindow) : State :=
  s.setRcp (fun r => { r with closed := r.closed.filter (fun y => decide (y.number ≠ w.number)) })

/-- The log records of a window's signatures. -/
def State.windowLogged (s : State) (w : ClosedWindow) : State :=
  s.each w.trees (fun x u => match x.done with
    | some (sig, at_) => u.logWindow w x sig at_
    | none => u)

theorem PartFrame.windowLogged (s : State) (w : ClosedWindow) : PartFrame reportParts s (s.windowLogged w) := by
  refine .each (fun x u => ?_) _ s
  split
  · exact .logWindow u _ _ _ _
  · exact .refl _ u

theorem RegFrame.windowLogged (s : State) (w : ClosedWindow) : RegFrame WindowLogWord s (s.windowLogged w) := by
  refine .each _ _ (fun x _ u => ?_) s
  split
  · exact .logWindow u _ _ _ _
  · exact .refl _ u

/-- A window whose signatures are complete is sealed: it counts, and its responses are queued. -/
theorem sealDone_sealed {s : State} (h : CellList.wf resetOf s.regs = true) {w : ClosedWindow}
    (complete : s.rcp.closed.find? (fun x => x.trees.all (fun y => y.done.isSome)) = some w)
    (room : s.rcp.queue.length + (windowReleases w).length ≤ 32768) :
    s.sealDone.rcp.closed = s.rcp.closed.filter (fun x => decide (x.number ≠ w.number)) ∧
      s.sealDone.rcp.queue = s.rcp.queue ++ windowReleases w ∧
      (s.sealDone.rd A.rcpWindows).toNat = min ((s.rd A.rcpWindows).toNat + 1) 0xFFFFFFFF := by
  have seals : s.sealDone = (((s.windowGone w).inc A.rcpWindows).windowLogged w).each (windowReleases w) (fun x u => u.queueRelease x) := by
    unfold State.sealDone
    rw [complete]
    rfl
  have rcp : (((s.windowGone w).inc A.rcpWindows).windowLogged w).rcp = (s.windowGone w).rcp :=
    (PartFrame.windowLogged _ w .rcp (by decide)).trans (PartFrame.inc (s.windowGone w) _ .rcp (by decide))
  have counted : (((s.windowGone w).inc A.rcpWindows).rd A.rcpWindows).toNat = min ((s.rd A.rcpWindows).toNat + 1) 0xFFFFFFFF :=
    inc_rd (s := s.windowGone w) h (by decide +kernel)
  have logged := (RegFrame.windowLogged _ w (inc_regs (s := s.windowGone w) h A.rcpWindows)).2 A.rcpWindows
    (by unfold WindowLogWord InHif; decide)
  rw [seals, queueReleases_room (fun x => x) _ _ (by rw [rcp]; exact room), List.map_id']
  exact ⟨congrArg (fun r : Rcp => r.closed) rcp, (congrArg (fun r : Rcp => r.queue ++ windowReleases w) rcp).trans rfl,
    (congrArg BitVec.toNat logged).trans counted⟩

/-- An abandoned window: it and its signature jobs are gone, the failure counts, and its Roughtime leaves are dropped. -/
def State.windowAbandoned (s : State) (w : ClosedWindow) : State :=
  (((((s.windowGone w).setQueuePke (fun q => q.filter (fun j => match j.tree with
      | some (n, _) => decide (n ≠ w.number)
      | none => true))).inc A.rcpSealFail).raise A.rcpEvent 1).each (w.leaves.filter (fun l => decide (l.tree ≠ 0)))
    (fun l u => u.sampleUnlisted l.req 0x42))

theorem windowAbandoned_rcp (s : State) (w : ClosedWindow) : (s.windowAbandoned w).rcp = (s.windowGone w).rcp := by
  have abandoned : PartFrame (.pke :: sampleParts) (s.windowGone w) (s.windowAbandoned w) :=
    .step (.step (.step (.mono (.setQueuePke _ _)) (.inc _ _)) (.raise _ _ _)) (.each (fun _ u => .sampleFinal u _ _ _) _ _)
  exact abandoned .rcp (by decide)

/-- The failure is counted and reported, and what becomes of the leaves leaves that as it is. -/
theorem windowAbandoned_reported {s : State} (h : CellList.wf resetOf s.regs = true) (w : ClosedWindow) :
    (s.windowAbandoned w).bit A.rcpEvent 1 = true ∧
      ((s.windowAbandoned w).rd A.rcpSealFail).toNat = min ((s.rd A.rcpSealFail).toNat + 1) 0xFFFFFFFF := by
  unfold State.windowAbandoned
  generalize eq : (s.windowGone w).setQueuePke _ = t
  have unqueued : RegFrame (· = A.pkeQueue) s t := eq ▸ .trans (t := s.windowGone w) (.same rfl) (.before (.sfW _ _ _ _ _ rfl))
  obtain ⟨regs, kept⟩ := unqueued h
  have counted : ((t.inc A.rcpSealFail).rd A.rcpSealFail).toNat = min ((s.rd A.rcpSealFail).toNat + 1) 0xFFFFFFFF := by
    rw [inc_rd regs (by decide +kernel), kept A.rcpSealFail (by decide)]
  have noted := inc_regs regs A.rcpSealFail
  obtain ⟨raised, beside⟩ := RegFrame.raise_of (W := fun a => a = A.rcpEvent ∨ InHif a) (t.inc A.rcpSealFail) A.rcpEvent 1 (.inl rfl)
    (fun _ => .inr) noted
  have sampled : RegFrame InSamples ((t.inc A.rcpSealFail).raise A.rcpEvent 1)
      (((t.inc A.rcpSealFail).raise A.rcpEvent 1).each (w.leaves.filter (fun l => decide (l.tree ≠ 0)))
        (fun l u => u.sampleUnlisted l.req 0x42)) := .each _ _ (fun _ _ u => .sampleFinal u _ _ _) _
  obtain ⟨-, rest⟩ := sampled raised
  refine ⟨?_, ?_⟩
  · exact (bit_of_rd (rest A.rcpEvent (not_inSamples_of_le (by decide))) 1).trans
      (raise_bit noted (by decide) (not_inHif_of_le (by decide)))
  · rw [rest A.rcpSealFail (not_inSamples_of_le (by decide)), beside A.rcpSealFail (by unfold InHif; decide), counted]

/-- A window not signed in time is abandoned, and its Etxel leaves wait for release as refusals. -/
theorem sealTimeout_abandoned {s : State} (h : CellList.wf resetOf s.regs = true) {w : ClosedWindow}
    (late : s.rcp.closed.find? (fun x =>
      decide (1000000 * 2 ^ 48 + x.closedAt ≤ s.ts.meas) && !(x.trees.all (fun y => y.done.isSome))) = some w)
    (room : s.rcp.queue.length + (treeLeaves 0 w.leaves).length ≤ 32768) :
    s.sealTimeout.rcp.closed = s.rcp.closed.filter (fun x => decide (x.number ≠ w.number)) ∧
      s.sealTimeout.rcp.queue.length = s.rcp.queue.length + (treeLeaves 0 w.leaves).length ∧ s.sealTimeout.bit A.rcpEvent 1 = true ∧
      (s.sealTimeout.rd A.rcpSealFail).toNat = min ((s.rd A.rcpSealFail).toNat + 1) 0xFFFFFFFF := by
  have abandons : s.sealTimeout = (s.windowAbandoned w).each (treeLeaves 0 w.leaves)
      (fun l u => u.queueRelease ⟨l.req.outcome 4 0x42, refusalBytes l.req 0x42, 2⟩) := by
    unfold State.sealTimeout
    rw [late]
    rfl
  have rcp := windowAbandoned_rcp s w
  rw [abandons, queueReleases_room (fun l : Leaf => ⟨l.req.outcome 4 0x42, refusalBytes l.req 0x42, 2⟩) _ _ (by rw [rcp]; exact room)]
  refine ⟨congrArg (fun r : Rcp => r.closed) rcp, ?_, windowAbandoned_reported h w⟩
  refine (List.length_append).trans ?_
  rw [rcp, List.length_map]
  rfl

/-! ### RECEIPT_RELEASE (R282) -/

/-- A word that is no link's STATUS word. -/
def BesideLinkStatus (a : Nat) : Prop := a % 0x400 ≠ 0

/-- The counters of a release stand beside every link's STATUS word. -/
theorem besideLinkStatus_counted (i : Nat) : ∀ a ∈ [A.svpPipeSlots i, A.rcpEtxelOk, A.rcpRtOk],
    BesideLinkStatus a ∧ BesideLinkStatus (a + 4) := by
  simp only [List.mem_cons, List.not_mem_nil, or_false]
  unfold BesideLinkStatus
  rintro a (rfl | rfl | rfl)
  · unfold A.svpPipeSlots
    omega
  · decide
  · decide

/-- The response that is due first leaves the queue, and its link has one ready response more. -/
theorem receiptRelease_released {s : State} (h : CellList.wf resetOf s.regs = true) {x : Release}
    (due : s.rcp.queue.find? (fun y => decide (s.rcp.paceAt.getD y.req.frame.sl 0 ≤ s.ts.meas)) = some x)
    (listed : x.req.frame.sl < s.ports.links.length) (up : s.linkUp x.req.frame.sl = true) :
    s.receiptRelease.rcp.queue = s.rcp.queue.erase x ∧
      (s.receiptRelease.lnk x.req.frame.sl).ready.length = (s.lnk x.req.frame.sl).ready.length + 1 := by
  unfold State.receiptRelease
  split
  case h_1 absent => exact absurd (due.symm.trans absent) (by simp)
  next y first =>
  obtain rfl := Option.some.inj (due.symm.trans first)
  extract_lets sl n pct t u v ns
  have count : ∀ (w : State) a, a ∈ [A.svpPipeSlots x.req.pipe, A.rcpEtxelOk, A.rcpRtOk] → RegFrame BesideLinkStatus w (w.inc a) :=
    fun w a m => .inc w a (besideLinkStatus_counted _ a m).1 (fun _ => (besideLinkStatus_counted _ a m).2)
  have regs : RegFrame BesideLinkStatus t v := .trans (count t _ (by simp))
    (.ite (fun _ => count u _ (by simp)) (fun _ => .ite (fun _ => count u _ (by simp)) (fun _ => .refl _ u)))
  have parts : PartFrame [.regs, .totals] t v :=
    .trans (.inc t _) (.ite (.inc u _) (.ite (.inc u _) (.refl _ u)))
  have ports : v.ports = s.ports := parts .ports (by decide)
  have status : v.linkUp sl = true :=
    (bit_of_rd ((regs h).2 _ (by unfold BesideLinkStatus A.macLinkStatus; omega)) 0).trans up
  obtain ⟨y, sent⟩ := sendFixed_up
    (r := { x.req with sample := x.req.sample.map (fun (g : SampleTag) => { g with latency := ns }) }) status x.payload
  rw [sent]
  exact ⟨congrArg (fun r : Rcp => r.queue) (parts .rcp (by decide)),
    (ready_setLink (by rw [ports]; exact listed) y).trans (by rw [lnk_congr ports])⟩

end Sys2Proof.Machine
end

section
/-!
SUPPORT. Online keys that expire and rotate, the binding of the long-term key (R289, R290, R365, R367), and O22.
-/

set_option Elab.async false

namespace Sys2Proof.Machine

/-! ### What a key's registers show (R290) -/

/-- The words that show the keys of the receipt engine: of RCP all but LT_SLOT, and of PKE. -/
def KeysShown (a : Nat) : Prop := 0x70000 ≤ a ∧ a ≠ A.rcpLtSlot

theorem RegFrame.wrBytes {W : Nat → Prop} (s : State) (a : Nat) {n : Nat} (b : Bytes) (h : ∀ w < n, W (a + 4 * w)) :
    RegFrame W s (s.wrBytes a n b) := .each _ _ (fun w m t => .wr t _ _ (h w (List.mem_range.mp m))) s

theorem RegFrame.showRcp (s : State) : RegFrame (· = A.rcpStatus) s s.showRcp :=
  .trans (.trans (.trans (.sfW s _ _ _ _ rfl) (.setBit _ _ _ _ rfl)) (.setBit _ _ _ _ rfl)) (.setBit _ _ _ _ rfl)

theorem keysShown_status {a : Nat} (h : a = A.rcpStatus) : KeysShown a := h ▸ by unfold KeysShown; decide

theorem keysShown_onlinePub : ∀ w < 8, KeysShown (A.rcpOnlinePub 0 + 4 * w) := by
  unfold KeysShown; decide

theorem keysShown_cert : ∀ w < 32, KeysShown (A.rcpCert 0 + 4 * w) := by
  unfold KeysShown; decide

theorem keysShown_ltPub : ∀ w < 8, KeysShown (A.rcpLtPub 0 + 4 * w) := by
  unfold KeysShown; decide

/-- The online key's own words, before STATUS shows whether there is one. -/
theorem showOnline_of (s : State) : ∃ t, s.showOnline = t.showRcp ∧ RegFrame KeysShown s t := by
  have key : ∀ (v : Word) (pub cert : Bytes), RegFrame KeysShown s
      (((s.wr A.rcpKeyId v).wrBytes (A.rcpOnlinePub 0) 8 pub).wrBytes (A.rcpCert 0) 32 cert) := fun _ _ _ =>
    .trans (.trans (.wr s _ _ (by unfold KeysShown; decide)) (.wrBytes _ _ _ keysShown_onlinePub)) (.wrBytes _ _ _ keysShown_cert)
  unfold State.showOnline
  extract_lets u
  have shown : RegFrame KeysShown s u := by
    unfold u
    split
    · exact key _ _ _
    · exact key _ _ _
  exact ⟨_, rfl, (shown.trans (.wr u _ _ (by unfold KeysShown; decide))).trans (.wr _ _ _ (by unfold KeysShown; decide))⟩

theorem RegFrame.showOnline (s : State) : RegFrame KeysShown s s.showOnline := by
  obtain ⟨t, eq, shown⟩ := showOnline_of s
  rw [eq]
  exact shown.trans ((RegFrame.showRcp t).mono (fun _ => keysShown_status))

/-- KEY of STATUS tells whether there is a current key. -/
theorem showRcp_key {s : State} (h : CellList.wf resetOf s.regs = true) : s.showRcp.bit A.rcpStatus 2 = s.rcp.online.isSome := by
  have cap : CellList.wf resetOf (s.sfW A.rcpStatus 8 14 s.rcpCap).regs = true := CellList.wf_set resetOf _ _ _ h
  unfold State.showRcp
  extract_lets t
  have regs : CellList.wf resetOf t.regs = true := CellList.wf_set resetOf _ _ _ cap
  rw [bit_setBit _ _ _ _ _ (CellList.wf_set resetOf _ _ _ regs) (by decide), if_neg (by decide), bit_setBit _ _ _ _ _ regs (by decide),
    if_neg (by decide)]
  exact (bit_setBit _ _ _ _ _ cap (by decide)).trans (if_pos rfl)

theorem showOnline_rcp (s : State) : s.showOnline.rcp = s.rcp := PartFrame.showOnline s .rcp (by decide)

/-- A key past its MAXT is current no longer. -/
theorem onlineExpire_expired {s : State} (h : CellList.wf resetOf s.regs = true) {k : OnlineKey} (online : s.rcp.online = some k)
    (past : k.maxt < s.stamp) :
    s.onlineExpire.rcp.online = none ∧ s.onlineExpire.bit A.rcpStatus 2 = false ∧ s.onlineExpire.bit A.rcpEvent 4 = true := by
  unfold State.onlineExpire
  rw [online]
  dsimp only
  rw [if_pos past]
  generalize eq : s.setRcp _ = u
  have none : u.rcp.online = none := eq ▸ rfl
  have regs : CellList.wf resetOf u.regs = true := eq ▸ h
  have shown := (RegFrame.showOnline u regs).1
  obtain ⟨t, last, words⟩ := showOnline_of u
  have same : t.rcp = u.rcp := (congrArg State.rcp last).symm.trans (showOnline_rcp u)
  have key : u.showOnline.bit A.rcpStatus 2 = false := by
    rw [last, showRcp_key (words regs).1, same, none]
    rfl
  refine ⟨?_, ?_, raise_bit shown (by decide) (not_inHif_of_le (by decide))⟩
  · rw [PartFrame.raise _ _ _ .rcp (by decide), showOnline_rcp, none]
  · exact ((FieldKept.raise _ 4 (by decide) (not_inHif_of_le (by decide))).bit shown).trans key

/-! ### The next key (R290) -/

theorem prepareKey_rotateNow (s : State) : s.prepareKey.rcp.rotateNow = s.rcp.rotateNow := by
  unfold State.prepareKey
  split
  · rfl
  · split
    · rfl
    · split
      · exact congrArg Rcp.rotateNow (PartFrame.denyEntropy s .rcp (by decide))
      · rfl

/-- With a long-term key, an active core and full-entropy output there is a next key. -/
theorem prepareKey_next {s : State} (lt : s.ltKey.isSome = true) (core : 0 < s.coresOn) (entropy : s.entropyOk = true) :
    s.prepareKey.rcp.next.isSome = true := by
  unfold State.prepareKey
  split
  case isTrue made => exact made
  case isFalse =>
    rw [if_pos ⟨lt, core, entropy⟩]
    rfl

theorem ltKey_congr {s t : State} (pke : t.pke = s.pke) (bound : t.rd A.rcpLtSlot = s.rd A.rcpLtSlot) : t.ltKey = s.ltKey := by
  unfold State.ltKey State.slot State.f State.bit
  rw [pke, bound]

theorem coresOn_congr {s t : State} (status : t.rd A.pkeStatus = s.rd A.pkeStatus) : t.coresOn = s.coresOn :=
  congrArg (fun f => (indices 16 f).length) (funext fun c => bit_of_rd status c)

theorem entropyOk_congr {s t : State} (status : t.rd A.pkeTrngStatus = s.rd A.pkeTrngStatus) : t.entropyOk = s.entropyOk := by
  unfold State.entropyOk State.f
  rw [status]

theorem rcpSafe_congr {s t : State} (groups : t.groups = s.groups) : t.rcpSafe = s.rcpSafe := by
  unfold State.rcpSafe State.group
  rw [groups]

theorem guardAct_rcpCmd (s : State) (src : Source) (v : Word) : s.guardAct src A.rcpCmd v = s.rotateNow src := rfl

/-- ROTATE_NOW is noted. -/
theorem rotateNow_noted (s : State) (src : Source) : (s.rotateNow src).rcp.rotateNow = true := by
  unfold State.rotateNow
  extract_lets t
  split
  · rfl
  · exact prepareKey_rotateNow t

/-- ROTATE_NOW makes the next key where nothing withholds it. -/
theorem rotateNow_next {s : State} (safe : s.rcpSafe = false) (lt : s.ltKey.isSome = true) (core : 0 < s.coresOn)
    (entropy : s.entropyOk = true) (src : Source) : (s.rotateNow src).rcp.next.isSome = true := by
  unfold State.rotateNow
  extract_lets t
  have still : t.rcpSafe = false := (rcpSafe_congr (s := s) rfl).trans safe
  rw [if_neg (by simp [still])]
  exact prepareKey_next (s := t) lt core entropy

/-- A taken ROTATE_NOW finds keys, cores and entropy as they were. -/
theorem guardPair_rotateNow {s : State} (h : s.canonical = true) {src : Nat} {c : Word} (taken : s.takesPair src A.rcpCmd 1 c)
    (safe : s.rcpSafe = false) (lt : s.ltKey.isSome = true) (core : 0 < s.coresOn) (entropy : s.entropyOk = true) :
    (s.guardPair (srcOf src) A.rcpCmd 1 c).rcp.next.isSome = true := by
  have kept : ∀ a ∈ [A.rcpLtSlot, A.pkeStatus, A.pkeTrngStatus], (s.pairTaken (srcOf src) A.rcpCmd 1).rd a = s.rd a := fun a m => by
    refine pairTaken_rd_ne h (srcOf src) 1 ?_ ?_
    · revert a; decide
    · unfold InGlbHif InHif; revert a; decide
  have parts := PartFrame.pairTaken s (srcOf src) A.rcpCmd 1
  rw [guardPair_of taken, guardAct_rcpCmd]
  refine rotateNow_next ((rcpSafe_congr (parts .groups (by decide))).trans safe) ?_ ?_ ?_ _
  · rw [ltKey_congr (parts .pke (by decide)) (kept A.rcpLtSlot (by decide))]; exact lt
  · rw [coresOn_congr (kept A.pkeStatus (by decide))]; exact core
  · rw [entropyOk_congr (kept A.pkeTrngStatus (by decide))]; exact entropy

/-! ### LT_SLOT (R289, R367) -/

/-- What a bound slot and its first key write. -/
def BindingWord (a : Nat) : Prop := KeysShown a ∨ InHif a

theorem RegFrame.showLt (s : State) : RegFrame KeysShown s s.showLt := by
  unfold State.showLt
  split
  all_goals exact .trans (.setBit s _ _ _ (keysShown_status rfl)) (.wrBytes _ _ _ keysShown_ltPub)

theorem RegFrame.prepareKey (s : State) : RegFrame KeysShown s s.prepareKey :=
  .ite (fun _ => .refl _ s) (fun _ => .ite (fun _ => .same rfl) (fun _ => .ite
    (fun _ => .inc s _ (by unfold KeysShown; decide) (fun _ => by unfold KeysShown; decide)) (fun _ => .refl _ s)))

theorem RegFrame.installKey {s t : State} {mint : Nat} (h : s.installKey mint = some t) : RegFrame KeysShown s t := by
  unfold State.installKey at h
  split at h
  · obtain rfl := Option.some.inj h
    have drawn : s.nextOnlineId.2.regs = s.regs := PartFrame.nextOnlineId s .regs (by decide)
    exact .trans (t := s.nextOnlineId.2) (.same drawn) (.before (.showOnline (s.nextOnlineId.2.setRcp _)))
  · nomatch h

theorem RegFrame.firstKey (s : State) : RegFrame BindingWord s s.firstKey := by
  unfold State.firstKey
  extract_lets t u
  have shown : RegFrame BindingWord s t := (RegFrame.showLt s).mono (fun _ => .inl)
  have prepared : RegFrame BindingWord s u := shown.trans ((RegFrame.prepareKey t).mono (fun _ => .inl))
  refine .ite (fun _ => ?_) (fun _ => shown.trans ((RegFrame.showRcp t).mono (fun _ m => .inl (keysShown_status m))))
  split
  case h_1 v eq => exact prepared.trans ((RegFrame.installKey eq).mono (fun _ => .inl))
  case h_2 => exact prepared.trans (.before (.raise_of (u.setRcp _) _ _ (.inl (by unfold KeysShown; decide)) (fun _ => .inr)))

theorem RegFrame.ltBound (s : State) : RegFrame BindingWord s s.ltBound :=
  .trans (.wr s _ _ (.inl (by unfold KeysShown A.pkeSlot A.rcpLtSlot; omega))) (.firstKey _)

theorem PartFrame.ltBound (s : State) : PartFrame onlineParts s s.ltBound := .trans (.mono (.wr s _ _)) (.firstKey _)

theorem rcpLtSlot_lk : (rowOf A.rcpLtSlot).map (·.kind) = some .lk := by decide +kernel

/-- What a first write to LT_SLOT leaves before the key it binds acts: the value, latched, and its record (R367). -/
def State.ltSlotStored (s : State) (src : Source) (v : Word) : State :=
  ((({ s with latched := A.rcpLtSlot :: s.latched }).wr A.rcpLtSlot v).journalize 3 src A.rcpLtSlot 0 (le 4 v.toNat ++ le 1 0)).testControl
    src A.rcpLtSlot (resetOf A.rcpLtSlot) v

theorem ltSlotStored_kept {s : State} (h : CellList.wf resetOf s.regs = true) (src : Source) (v : Word) :
    CellList.wf resetOf (s.ltSlotStored src v).regs = true ∧ (s.ltSlotStored src v).rd A.rcpLtSlot = v ∧
      (s.ltSlotStored src v).latched = A.rcpLtSlot :: s.latched := by
  unfold State.ltSlotStored
  generalize eq : ({ s with latched := A.rcpLtSlot :: s.latched } : State).wr A.rcpLtSlot v = t
  have stored : t.rd A.rcpLtSlot = v :=
    eq ▸ (rd_wr { s with latched := A.rcpLtSlot :: s.latched } A.rcpLtSlot A.rcpLtSlot v h).trans (if_pos rfl)
  have latched : t.latched = A.rcpLtSlot :: s.latched := eq ▸ rfl
  have start : CellList.wf resetOf t.regs = true := eq ▸ CellList.wf_set resetOf _ _ _ h
  have logged := (RegFrame.journalize_log t 3 src A.rcpLtSlot 0 (le 4 v.toNat ++ le 1 0)).trans
    (.testControl _ src A.rcpLtSlot (resetOf A.rcpLtSlot) v)
  have parts := (PartFrame.journalize t 3 src A.rcpLtSlot 0 (le 4 v.toNat ++ le 1 0)).trans
    (.testControl _ src A.rcpLtSlot (resetOf A.rcpLtSlot) v)
  obtain ⟨regs, kept⟩ := logged start
  exact ⟨regs, (kept _ (not_logWord_of_le (by decide))).trans stored, (parts .latched (by decide)).trans latched⟩

/-- The first write to LT_SLOT binds. -/
theorem writeWord_ltSlot {s : State} {src : Source} (shut : (s.view src).pair = none)
    (on : s.domainOn (domainOf A.rcpLtSlot) = true) (free : s.latched.contains A.rcpLtSlot = false) (v : Word) :
    s.writeWord src A.rcpLtSlot v = (s.ltSlotStored src v).ltBound := by
  obtain ⟨r, row, kind⟩ := Option.map_eq_some_iff.mp rcpLtSlot_lk
  have locks : s.writeWord src A.rcpLtSlot v = s.lockWrite src A.rcpLtSlot v := by
    unfold State.writeWord
    rw [countWrite_shut shut, row]
    simp [kind, on]
  rw [locks]
  unfold State.lockWrite State.lkWrite
  exact (if_neg (by rw [free]; decide)).trans (if_pos rfl)

/-- The binding stays as it was written, and latched. -/
theorem writeWord_ltSlot_latched {s : State} (h : CellList.wf resetOf s.regs = true) {src : Source} (shut : (s.view src).pair = none)
    (on : s.domainOn (domainOf A.rcpLtSlot) = true) (free : s.latched.contains A.rcpLtSlot = false) (v : Word) :
    (s.writeWord src A.rcpLtSlot v).rd A.rcpLtSlot = v ∧ (s.writeWord src A.rcpLtSlot v).latched.contains A.rcpLtSlot = true := by
  obtain ⟨regs, stored, latched⟩ := ltSlotStored_kept h src v
  have apart : ¬ BindingWord A.rcpLtSlot := by
    rintro (shown | hif)
    · exact shown.2 rfl
    · exact not_inHif_of_le (by decide) hif
  rw [writeWord_ltSlot shut on free, PartFrame.ltBound _ .latched (by decide), latched, (RegFrame.ltBound _ regs).2 _ apart, stored]
  simp

/-! ### The obligation -/

/-- Settles O22: a request free of a rate is charged without effect on its admission (`FreeFront`); the end of a window queues its
responses at once (`queueReleases_room`); a release finds its link UP, since its counters stand beside every STATUS word of a link;
a taken pair leaves what a new key needs, and what follows a binding leaves LT_SLOT as it was written. -/
theorem receiptCommandsComplete : Obligations.ReceiptCommandsComplete := by
  unfold Obligations.ReceiptCommandsComplete
  refine ⟨fun s u dt p r l canonical eq unit _ front tracked free pipe _ kind nothing => ?admits,
    fun s u dt p r l canonical eq unit _ front tracked free pipe _ kind nothing => ?admitsRoughtime,
    fun s u dt p st r l canonical eq unit _ front tracked free pipe link kind refusal listed up => ?refuses,
    fun s u dt w canonical eq complete room => completes_after (·.sealDone) rfl eq (sealDone_sealed ?_ complete room),
    fun s u dt w canonical eq late room => completes_after (·.sealTimeout) rfl eq (sealTimeout_abandoned ?_ late room),
    fun s u dt x canonical eq due listed up => completes_after (·.receiptRelease) rfl eq (receiptRelease_released ?_ due listed up),
    fun s u dt k canonical eq online past => completes_after (·.onlineExpire) rfl eq (onlineExpire_expired ?_ online past),
    fun s u dt src c canonical eq taken => ?rotates, fun s u dt src c canonical eq taken safe lt core entropy => ?nextKey,
    fun s u dt src v canonical eq clear unlatched on => ?binds⟩
  case admits =>
    have waits : FreeFront u p r l :=
      ⟨regs_of_canonical (eq ▸ advance_canonical canonical dt), unit, front, tracked, free, pipe⟩
    exact completes_afterIf (·.etxelRequest p) rfl (decide_eq_true unit) eq (etxelRequest_admitted waits kind nothing)
  case admitsRoughtime =>
    have waits : FreeFront u p r l :=
      ⟨regs_of_canonical (eq ▸ advance_canonical canonical dt), unit, front, tracked, free, pipe⟩
    exact completes_afterIf (·.roughtimeRequest p) rfl (decide_eq_true unit) eq (roughtimeRequest_admitted waits kind nothing)
  case refuses =>
    have waits : FreeFront u p r l :=
      ⟨regs_of_canonical (eq ▸ advance_canonical canonical dt), unit, front, tracked, free, pipe⟩
    exact completes_afterIf (·.etxelRequest p) rfl (decide_eq_true unit) eq (etxelRequest_refused waits kind refusal listed up link)
  case rotates =>
    refine completes_guarded rfl eq taken ?_
    rw [guardPair_of taken, guardAct_rcpCmd]
    exact rotateNow_noted _ _
  case nextKey =>
    exact completes_guarded rfl eq taken (guardPair_rotateNow (eq ▸ dueFirst_canonical canonical dt) taken safe lt core entropy)
  case binds =>
    obtain ⟨known, -, shut⟩ := clear
    exact completes_afterDue (·.writeWord (srcOf src) A.rcpLtSlot v) rfl (decide_eq_true known) eq
      (writeWord_ltSlot_latched (regs_of_canonical (eq ▸ dueFirst_canonical canonical dt)) shut on unlatched v)
  all_goals exact regs_of_canonical (eq ▸ advance_canonical canonical dt)

end Sys2Proof.Machine
end

section
/-!
SUPPORT. The operations that a core runs: validation and result of its running job (R297, R301, R302, R304, R313, R316), and O23.
-/

set_option Elab.async false

namespace Sys2Proof.Machine

/-! ### A core that is changed -/

/-- The words that show a core: its own page, STATUS and QUEUE. -/
def CoreShown (c a : Nat) : Prop := a = A.pkeCoreStatus c ∨ a = A.pkeCoreTag c ∨ a = A.pkeStatus ∨ a = A.pkeQueue

theorem RegFrame.showCore (s : State) (c : Nat) : RegFrame (CoreShown c) s (s.showCore c) :=
  .trans (.trans (.trans (.wr s _ _ (.inl rfl)) (.wr _ _ _ (.inr (.inl rfl)))) (.sfW _ _ _ _ _ (.inr (.inr (.inl rfl)))))
    (.sfW _ _ _ _ _ (.inr (.inr (.inr rfl))))

theorem RegFrame.setCore (s : State) (c : Nat) (f : PkeCore → PkeCore) : RegFrame (CoreShown c) s (s.setCore c f) :=
  (RegFrame.showCore _ c).before

theorem not_coreShown_feDenied (c : Nat) : ¬ CoreShown c A.pkeFeDenied := by
  unfold CoreShown A.pkeFeDenied A.pkeCoreStatus A.pkeCoreTag A.pkeStatus A.pkeQueue; omega

theorem core_setCore {s : State} {c : Nat} (listed : c < s.pke.cores.length) (f : PkeCore → PkeCore) :
    (s.setCore c f).core c = f (s.core c) :=
  (congrArg (fun p : Pke => p.cores.getD c ⟨none, 0, []⟩) (PartFrame.showCore _ c .pke (by decide))).trans (getD_modAt f _ _ c listed)

/-- A core with a job running is one of the module's. -/
theorem listed_of_running {s : State} {c : Nat} {j : PkeJob} (running : (s.core c).running = some j) : c < s.pke.cores.length := by
  by_contra beyond
  rw [State.core, List.getD_eq_default _ _ (by omega)] at running
  cases running

/-! ### The three ends of an operation's command (R301, R304, R313) -/

/-- A result for the job `j` that runs on core `c`. -/
def State.withResult (s : State) (c : Nat) (j : PkeJob) (v : Nat × Nat × Bytes) : State :=
  s.setCore c (fun x => { x with running := some { j with result := some v } })

theorem withResult_running {s : State} {c : Nat} (listed : c < s.pke.cores.length) (j : PkeJob) (v : Nat × Nat × Bytes) :
    ((s.withResult c j v).core c).running = some { j with result := some v } := congrArg PkeCore.running (core_setCore listed _)

section
variable {s : State} {op c : Nat} {j : PkeJob} (running : (s.core c).running = some j) (pending : j.result = none) (kind : jOp j.rec_ = op)
include running pending kind

/-- KEYGEN without full-entropy output is denied. -/
theorem runOp_denied (keygen : op = 0x10) (entropy : s.f A.pkeTrngStatus 0 2 ≠ 1) :
    s.runOp op c = (s.inc A.pkeFeDenied).withResult c j (0x46, 0, []) := by
  unfold State.runOp
  rw [running]
  dsimp only
  rw [if_neg (by simp [pending, kind]), if_pos ⟨keygen, entropy⟩]
  rfl

/-- The first failing check is the result. -/
theorem runOp_invalid (entropy : op = 0x10 → s.f A.pkeTrngStatus 0 2 = 1) {st d : Nat} (bad : j.invalid = some (st, d)) :
    s.runOp op c = s.withResult c j (st, d, []) := by
  unfold State.runOp
  rw [running]
  dsimp only
  rw [if_neg (by simp [pending, kind]), if_neg (fun h => h.2 (entropy h.1)), bad]
  rfl

/-- A valid job is computed with the next free value. -/
theorem runOp_valid (entropy : op = 0x10 → s.f A.pkeTrngStatus 0 2 = 1) (valid : j.invalid = none) :
    s.runOp op c = s.draw.2.withResult c j ((j.compute s.draw.1).1, 0, (j.compute s.draw.1).2) := by
  unfold State.runOp
  rw [running]
  dsimp only
  rw [if_neg (by simp [pending, kind]), if_neg (fun h => h.2 (entropy h.1)), valid]
  rfl

end

/-! ### The commands -/

/-- The command `i` runs the operation `op` on the core that it names. -/
def RunsOp (i : Nat → Nat → Instr) (op : Nat) : Prop :=
  ∀ dt core s, exec (i dt core) s = afterIf (decide (core < 16)) dt s (fun t => t.runOp op core)

/-- The job with the result that is computed with the next free value. -/
def State.computed (u : State) (j : PkeJob) : PkeJob :=
  { j with result := some ((j.compute (Config.freeValue u.fresh)).1, 0, (j.compute (Config.freeValue u.fresh)).2) }

/-- The result of a valid job, of an operation that needs no entropy or while the TRNG is OK. -/
theorem completes_valid {i : Nat → Nat → Instr} {op : Nat} (command : RunsOp i op) {s u : State} {dt core : Nat} {j : PkeJob}
    (eq : u = s.advance dt) (unit : core < 16) (running : (u.core core).running = some j) (pending : j.result = none)
    (kind : jOp j.rec_ = op) (entropy : op = 0x10 → u.f A.pkeTrngStatus 0 2 = 1) (valid : j.invalid = none) :
    Completes (i dt core) s (fun t => (t.core core).running = some (u.computed j)) := by
  refine completes_afterIf (·.runOp op core) (command dt core s) (decide_eq_true unit) eq ?_
  rw [runOp_valid running pending kind entropy valid]
  exact withResult_running (s := u.draw.2) (listed_of_running running) j _

/-- The results of an operation that needs no entropy, in the shape of O23's clauses. -/
theorem resultOf_valid {i : Nat → Nat → Instr} {op : Nat} (command : RunsOp i op) (other : op ≠ 0x10) :
    ∀ (s u : State) (dt core : Nat) (j : PkeJob), s.canonical = true → u = s.advance dt → core < 16 →
      (u.core core).running = some j → j.result = none → jOp j.rec_ = op → j.invalid = none →
      Completes (i dt core) s (fun t => (t.core core).running = some (u.computed j)) :=
  fun _ _ _ _ _ _ eq unit running pending kind valid =>
    completes_valid command eq unit running pending kind (fun e => absurd e other) valid

/-- The failed validations of such an operation, in the same shape. -/
theorem resultOf_invalid {i : Nat → Nat → Instr} {op : Nat} (command : RunsOp i op) (other : op ≠ 0x10) :
    ∀ (s u : State) (dt core st d : Nat) (j : PkeJob), s.canonical = true → u = s.advance dt → core < 16 →
      (u.core core).running = some j → j.result = none → jOp j.rec_ = op → j.invalid = some (st, d) →
      Completes (i dt core) s (fun t => (t.core core).running = some { j with result := some (st, d, []) }) := by
  intro s u dt core st d j _ eq unit running pending kind bad
  refine completes_afterIf (·.runOp op core) (command dt core s) (decide_eq_true unit) eq ?_
  rw [runOp_invalid running pending kind (fun e => absurd e other) bad]
  exact withResult_running (listed_of_running running) j _

/-- A denied KEYGEN has its status, and the denial counts. -/
theorem runOp_denied_shown {s : State} (h : CellList.wf resetOf s.regs = true) {c : Nat} {j : PkeJob}
    (running : (s.core c).running = some j) (pending : j.result = none) (kind : jOp j.rec_ = 0x10)
    (entropy : s.f A.pkeTrngStatus 0 2 ≠ 1) :
    ((s.runOp 0x10 c).core c).running = some { j with result := some (0x46, 0, []) } ∧
      ((s.runOp 0x10 c).rd A.pkeFeDenied).toNat = min ((s.rd A.pkeFeDenied).toNat + 1) 0xFFFFFFFF := by
  have pke : (s.inc A.pkeFeDenied).pke = s.pke := PartFrame.inc s _ .pke (by decide)
  have kept : ((s.inc A.pkeFeDenied).withResult c j (0x46, 0, [])).rd A.pkeFeDenied = (s.inc A.pkeFeDenied).rd A.pkeFeDenied :=
    (RegFrame.setCore _ c _ (inc_regs h _)).2 _ (not_coreShown_feDenied c)
  rw [runOp_denied running pending kind rfl entropy]
  refine ⟨withResult_running (by rw [pke]; exact listed_of_running running) j _, ?_⟩
  rw [kept]
  exact inc_rd h (by decide +kernel)

/-! ### The obligation -/

/-- Settles O23: every command is `State.runOp` of its own operation, and each clause is one of that operation's three ends. -/
theorem keyOperationsComplete : Obligations.KeyOperationsComplete := by
  unfold Obligations.KeyOperationsComplete
  refine ⟨resultOf_valid (i := .ed25519Sign) (fun _ _ _ => rfl) (by decide),
    resultOf_valid (i := .ed25519Verify) (fun _ _ _ => rfl) (by decide), resultOf_invalid (i := .ed25519Verify) (fun _ _ _ => rfl) (by decide),
    resultOf_valid (i := .ed448Sign) (fun _ _ _ => rfl) (by decide),
    resultOf_valid (i := .ed448Verify) (fun _ _ _ => rfl) (by decide), resultOf_invalid (i := .ed448Verify) (fun _ _ _ => rfl) (by decide),
    resultOf_valid (i := .x25519) (fun _ _ _ => rfl) (by decide), resultOf_invalid (i := .x25519) (fun _ _ _ => rfl) (by decide),
    resultOf_valid (i := .x448) (fun _ _ _ => rfl) (by decide), resultOf_invalid (i := .x448) (fun _ _ _ => rfl) (by decide),
    resultOf_valid (i := .ecdsaSign) (fun _ _ _ => rfl) (by decide), resultOf_invalid (i := .ecdsaSign) (fun _ _ _ => rfl) (by decide),
    resultOf_valid (i := .ecdsaVerify) (fun _ _ _ => rfl) (by decide), resultOf_invalid (i := .ecdsaVerify) (fun _ _ _ => rfl) (by decide),
    resultOf_valid (i := .ecdh) (fun _ _ _ => rfl) (by decide), resultOf_invalid (i := .ecdh) (fun _ _ _ => rfl) (by decide),
    resultOf_valid (i := .rsaPrivate) (fun _ _ _ => rfl) (by decide), resultOf_invalid (i := .rsaPrivate) (fun _ _ _ => rfl) (by decide),
    resultOf_valid (i := .rsaPublic) (fun _ _ _ => rfl) (by decide), resultOf_invalid (i := .rsaPublic) (fun _ _ _ => rfl) (by decide),
    fun s u dt core j canonical eq unit running pending kind entropy valid => ?keygen,
    resultOf_valid (i := .keyImport) (fun _ _ _ => rfl) (by decide), resultOf_invalid (i := .keyImport) (fun _ _ _ => rfl) (by decide),
    fun s u dt core j canonical eq unit running pending kind denied => ?denied⟩
  case keygen => exact completes_valid (i := .keygen) (fun _ _ _ => rfl) eq unit running pending kind (fun _ => entropy) valid
  case denied =>
    have regs : CellList.wf resetOf u.regs = true := regs_of_canonical (eq ▸ advance_canonical canonical dt)
    exact completes_afterIf (·.runOp 0x10 core) rfl (decide_eq_true unit) eq (runOp_denied_shown regs running pending kind denied)

end Sys2Proof.Machine
end

section
/-!
SUPPORT. Frames of parts and of registers in one, and the shared operations with the rings' indices below 256.
-/

set_option Elab.async false

namespace Sys2Proof.Machine

/-! ### The registers that reports, journal records and faults write -/

/-- Reporting an event writes registers of `W` alone (R332, R342). -/
structure Reports (W : Nat → Prop) : Prop where
  hifEvent : W A.hifEvent
  evtDrop : W A.hifEvtDrop
  posted : ∀ n, n < 256 → W (A.hifRingPosted n)

/-- So does a journal record (R387 to R389). -/
structure Journals (W : Nat → Prop) : Prop extends Reports W where
  seq : W A.glbJournalSeq
  lost : W A.glbJournalLost
  glbEvent : W A.glbEvent

/-- And a logged fault (R397 to R399). -/
structure Faults (W : Nat → Prop) : Prop extends Journals W where
  faultSeq : W A.glbFaultSeq
  overwrite : W A.glbFaultOverwrite
  entries : ∀ k, k < 512 → W (0x1000 + 4 * k)

section
variable {W : Nat → Prop}

theorem Reports.evtDropped (h : Reports W) (s : State) : RegFrame W s s.evtDropped := by
  have one : ∀ t : State, RegFrame W t ((t.inc A.hifEvtDrop).raiseBit A.hifEvent 4) := fun t =>
    (RegFrame.inc t _ h.evtDrop (fun e => absurd e (by decide +kernel))).trans (.raiseBit _ _ _ h.hifEvent)
  unfold State.evtDropped
  exact .ite (fun _ => (one s).trans (one _)) (fun _ => one s)

theorem Reports.postEvent (h : Reports W) (s : State) (type flags source stamp : Nat) (body : Bytes) :
    RegFrame W s (s.postEvent type flags source stamp body) := by
  unfold State.postEvent
  split
  · exact h.evtDropped s
  · rename_i n running
    have posted : W (A.hifRingPosted n) := h.posted n (lt_of_find_range running)
    exact .ite (fun _ => h.evtDropped s) (fun _ => ((RegFrame.bumpPosted _ _ posted).trans (.pendItem _ _)).before)

theorem Reports.blockEvent (h : Reports W) (s : State) (dest reg : Nat) : RegFrame W s (s.blockEvent dest reg) := by
  unfold State.blockEvent
  refine .ite (fun _ => (h.postEvent _ _ _ _ _ _).before) (fun _ => ?_)
  split
  · exact (RegFrame.sendEventMsg _ _ _ _).before
  · exact .same rfl

theorem Reports.noteEvent (h : Reports W) (s : State) (dest reg : Nat) : RegFrame W s (s.noteEvent dest reg) := by
  unfold State.noteEvent
  exact .ite (fun _ => .same rfl) (fun _ => h.blockEvent s dest reg)

theorem Reports.raise (h : Reports W) (s : State) (reg b : Nat) (r : W reg) : RegFrame W s (s.raise reg b) := by
  unfold State.raise
  refine .ite (fun _ => .raiseBit s reg b r) (fun _ => ?_)
  refine .trans (.trans (.raiseBit s reg b r) (.ite (fun _ => h.noteEvent _ _ _) (fun _ => .refl _ _))) (.each _ _ (fun i _ u => ?_) _)
  split
  · exact .ite (fun _ => h.noteEvent _ _ _) (fun _ => .refl _ _)
  · exact .refl _ _

theorem Reports.pumpJournal (h : Reports W) (s : State) : RegFrame W s s.pumpJournal := by
  unfold State.pumpJournal
  split
  · exact .refl _ s
  · rename_i n running
    refine .foldl _ (fun t r => ?_) _ s
    have put := RegFrame.putRecord t n r.bytes (h.posted n (lt_of_find_range running))
    exact .ite (fun _ => .ite (fun _ => put.after) (fun _ => put)) (fun _ => .refl _ t)

theorem Journals.journalize (h : Journals W) (s : State) (kind : Nat) (src : Source) (addr outcome : Nat) (body : Bytes) :
    RegFrame W s (s.journalize kind src addr outcome body) := by
  unfold State.journalize
  refine .trans (.trans (.trans (RegFrame.wr _ A.glbJournalSeq _ h.seq).before (.ite (fun _ => .refl _ _) (fun _ => ?_)))
    (h.pumpJournal _)) (.streamJournal _)
  exact (RegFrame.count _ _ _ h.lost (fun c => absurd c (by decide +kernel))).trans (h.raise _ _ _ h.glbEvent)

theorem Journals.journalBlock (h : Journals W) (s : State) (kind : Nat) (src : Source) (block addr outcome : Nat) (body : Bytes) :
    RegFrame W s (s.journalBlock kind src block addr outcome body) := by
  have record := h.journalize s kind src addr outcome body
  unfold State.journalBlock
  generalize s.journalize kind src addr outcome body = t at record ⊢
  exact record.after

theorem Faults.logFault (h : Faults W) (s : State) (code : Nat) (src : Source) (block addr value access detail : Nat) :
    RegFrame W s (s.logFault code src block addr value access detail) := by
  unfold State.logFault
  refine .trans (.trans (.iteStep (.trans (.trans (.ite (fun _ => ?_) (fun _ => .refl _ s)) (.each _ _ (fun w m t => ?_) _))
    ((RegFrame.wr _ _ _ h.faultSeq).trans (h.raise _ _ _ h.glbEvent))) (h.postEvent _ _ _ _ _ _)) (.each _ _ (fun i _ t => ?_) _))
    (h.journalBlock _ _ _ _ _ _ _)
  · exact (RegFrame.inc _ _ h.overwrite (fun c => absurd c (by decide +kernel))).trans (h.raise _ _ _ h.glbEvent)
  · have word : w < 8 := by simp at m; omega
    refine .wr _ _ _ ?_
    rw [show 0x1000 + 0x20 * ((s.f A.glbFaultSeq 0 32 + 1) % 64) + 4 * w = 0x1000 + 4 * (8 * ((s.f A.glbFaultSeq 0 32 + 1) % 64) + w) by omega]
    exact h.entries _ (by omega)
  · split
    · exact .ite (fun _ => .sendEventMsg _ _ _ _) (fun _ => .refl _ _)
    · exact .refl _ _

/-- A firing of a calendar entry counts, reports and re-arms (R28, R29, R43). -/
theorem Reports.fireEntry (h : Reports W) (s : State) (i : Nat) (e : CalEntry)
    (tsc : ∀ a ∈ [A.tscEvent, A.tscCalUsed, A.tscCalSkipped, A.tscCalLate], W a) : RegFrame W s (s.fireEntry i e) := by
  have counted : ∀ (t : State) (c b : Nat), c ∈ [A.tscCalSkipped, A.tscCalLate] → RegFrame W t ((t.inc c).raise A.tscEvent b) := by
    intro t c b m
    have single : pairRowOf c = none := by rcases List.mem_pair.mp m with rfl | rfl <;> decide +kernel
    exact (RegFrame.inc t c (tsc c (List.mem_cons_of_mem _ (List.mem_cons_of_mem _ m))) (fun k => by simp [single] at k)).trans
      (h.raise _ _ _ (tsc _ (by decide)))
  have skip : RegFrame W s (if e.skipAt.isSome then (s.inc A.tscCalSkipped).raise A.tscEvent 7 else s) :=
    .ite (fun _ => counted s _ _ (by decide)) (fun _ => .refl _ s)
  rw [fireEntry_eq]
  unfold State.noteFiring
  exact .trans (.ite (fun _ => skip.trans (counted _ _ _ (by decide))) (fun _ => skip)) (.rearm _ i _ (tsc _ (by decide)))

end

/-! ### Frames of parts and registers -/

/-- An operation leaves every part outside `ps` as it was, and every register outside `W`. -/
structure Frame (ps : List Part) (W : Nat → Prop) (s t : State) : Prop where
  parts : PartFrame ps s t
  words : RegFrame W s t

namespace Frame

variable {ps qs : List Part} {W : Nat → Prop} {s t u : State}

theorem refl (ps : List Part) (W : Nat → Prop) (s : State) : Frame ps W s s := ⟨.refl ps s, .refl W s⟩

theorem mono (h : Frame qs W s t) (within : qs ⊆ ps := by decide) : Frame ps W s t := ⟨h.parts.mono within, h.words⟩

theorem trans (h : Frame ps W s t) (k : Frame ps W t u) : Frame ps W s u := ⟨h.parts.trans k.parts, h.words.trans k.words⟩

/-- One operation more, within the parts of those before it. -/
theorem step (h : Frame ps W s t) (k : Frame qs W t u) (within : qs ⊆ ps := by decide) : Frame ps W s u := h.trans (k.mono within)

theorem ite {c : Prop} [Decidable c] (h : c → Frame ps W s t) (k : ¬ c → Frame ps W s u) : Frame ps W s (if c then t else u) := by
  split
  · exact h ‹_›
  · exact k ‹_›

theorem when {c : Bool} {g : State → State} (h : Frame ps W s (g s)) : Frame ps W s (s.when c g) := by
  cases c
  exacts [.refl ps W s, h]

theorem each {α : Type} {g : α → State → State} {xs : List α} (h : ∀ x ∈ xs, ∀ t, Frame ps W t (g x t)) (s : State) :
    Frame ps W s (s.each xs g) := by
  induction xs generalizing s with
  | nil => exact .refl ps W s
  | cons x xs ih => exact (h x List.mem_cons_self s).trans (ih (fun y m => h y (List.mem_cons_of_mem x m)) (g x s))

/-- An operation on other parts than the registers. -/
theorem unwritten (h : PartFrame ps s t) (apart : Part.regs ∉ ps := by decide) : Frame ps W s t := ⟨h, .same (h .regs apart)⟩

theorem wr (s : State) (a : Nat) (v : Word) (h : W a) : Frame [.regs] W s (s.wr a v) := ⟨.wr s a v, .wr s a v h⟩

theorem sfW (s : State) (a lo n v : Nat) (h : W a) : Frame [.regs] W s (s.sfW a lo n v) := .wr s a _ h

theorem setBit (s : State) (a i : Nat) (b : Bool) (h : W a) : Frame [.regs] W s (s.setBit a i b) := .wr s a _ h

theorem wr64 (s : State) (a : Nat) (v : Int) (h : W a) (k : W (a + 4)) : Frame [.regs] W s (s.wr64 a v) := ⟨.wr64 s a v, .wr64 s a v h k⟩

theorem count (s : State) (a n : Nat) (h : W a) (k : (pairRowOf a).isSome = true → W (a + 4)) :
    Frame [.regs, .totals] W s (s.count a n) := ⟨.count s a n, .count s a n h k⟩

theorem inc (s : State) (a : Nat) (h : W a) (k : (pairRowOf a).isSome = true → W (a + 4)) : Frame [.regs, .totals] W s (s.inc a) :=
  .count s a 1 h k

theorem raise (r : Reports W) (s : State) (reg b : Nat) (h : W reg) : Frame reportParts W s (s.raise reg b) :=
  ⟨.raise s reg b, r.raise s reg b h⟩

theorem postEvent (r : Reports W) (s : State) (type flags source stamp : Nat) (body : Bytes) :
    Frame [.regs, .totals, .hif, .out] W s (s.postEvent type flags source stamp body) := ⟨.postEvent s _ _ _ _ _, r.postEvent s _ _ _ _ _⟩

theorem journalize (j : Journals W) (s : State) (kind : Nat) (src : Source) (addr outcome : Nat) (body : Bytes) :
    Frame journalParts W s (s.journalize kind src addr outcome body) := ⟨.journalize s _ _ _ _ _, j.journalize s _ _ _ _ _⟩

theorem journalBlock (j : Journals W) (s : State) (kind : Nat) (src : Source) (block addr outcome : Nat) (body : Bytes) :
    Frame journalParts W s (s.journalBlock kind src block addr outcome body) :=
  ⟨.journalBlock s _ _ _ _ _ _, j.journalBlock s _ _ _ _ _ _⟩

theorem logFault (f : Faults W) (s : State) (code : Nat) (src : Source) (block addr value access detail : Nat) :
    Frame journalParts W s (s.logFault code src block addr value access detail) :=
  ⟨.logFault s _ _ _ _ _ _ _, f.logFault s _ _ _ _ _ _ _⟩

theorem fireEntry (r : Reports W) (s : State) (i : Nat) (e : CalEntry)
    (tsc : ∀ a ∈ [A.tscEvent, A.tscCalUsed, A.tscCalSkipped, A.tscCalLate], W a) :
    Frame (.ts :: reportParts) W s (s.fireEntry i e) := ⟨(PartFrame.fireEntry s i e).mono, r.fireEntry s i e tsc⟩

end Frame

/-! ### From a frame to what a command changes -/

/-- The registers that a clause names: `l k`, `k` any number. -/
def Named (l : Nat → List Nat) (a : Nat) : Prop := ∃ k, a ∈ l k

theorem not_named {l : Nat → List Nat} {a : Nat} (h : ∀ k, a ∉ l k) : ¬ Named l a := fun ⟨k, m⟩ => h k m

/-- A command with a unit changes at most what the operation that is its effect may change where that unit exists. -/
theorem changesOnly_bounded {c : Instr} {l m : List Part} {f : State → State} {w : Bool} {dt : Nat}
    (frame : w = true → ∀ s, PartFrame m s (f s)) (command : ∀ s, exec c s = afterIf w dt s f := by exact fun _ => rfl)
    (within : m ⊆ l := by decide) : ChangesOnly c l := by
  cases w with
  | true => exact changesOnly_of true dt f command (fun s => (frame rfl s).mono within)
  | false => exact fun s t p e => absurd ((command s).symm.trans e) (by simp [afterIf])

/-- It writes at most the registers that the operation may write. -/
theorem writesOnly_bounded {c : Instr} {l : Nat → List Nat} {f : State → State} {w : Bool} {dt : Nat}
    (frame : w = true → ∀ s, RegFrame (Named l) s (f s)) (command : ∀ s, exec c s = afterIf w dt s f := by exact fun _ => rfl) :
    WritesOnly c l := by
  intro s t a canonical e out
  cases w with
  | true =>
    rw [eq_of_afterIf ((command s).symm.trans e), (frame rfl _).rd_eq (advance_canonical canonical dt) (not_named out)]
    rfl
  | false => exact absurd ((command s).symm.trans e) (by simp [afterIf])

/-- The same of a command whose unit is of no matter. -/
theorem writesOnly_frame {c : Instr} {l : Nat → List Nat} {f : State → State} (w : Bool) (dt : Nat)
    (frame : ∀ s, RegFrame (Named l) s (f s)) (command : ∀ s, exec c s = afterIf w dt s f := by exact fun _ => rfl) :
    WritesOnly c l := writesOnly_bounded (fun _ => frame) command

/-- The same from the state `b` in which the firings that come first have been. -/
theorem writesAfter_frame {c : Instr} {l : Nat → List Nat} {f : State → State} (dt : Nat) (b : State → State)
    (frame : ∀ s, RegFrame (Named l) s (f s)) (fired : ∀ s : State, s.canonical = true → (b (s.advance dt)).canonical = true)
    (command : ∀ s, exec c s = afterIf true dt s (fun t => f (b t)) := by exact fun _ => rfl) :
    WritesAfter (fun s => b (s.advance dt)) c l := by
  intro s t a canonical e out
  rw [eq_of_afterIf ((command s).symm.trans e)]
  exact (frame _).rd_eq (fired s canonical) (not_named out)

end Sys2Proof.Machine
end

section
/-!
SUPPORT. The frames of the cascade's lanes, roles and operations (R403 to R427).
-/

set_option Elab.async false

namespace Sys2Proof.Machine

/-! ### The registers that the cascade writes -/

/-- The outcome of an operation writes registers of `W` alone (R427). -/
structure ResultWords (W : Nat → Prop) : Prop extends Reports W where
  status : W A.casStatus
  event : W A.casEvent
  result : W (A.casOpResult 0)

/-- So does every operation of the cascade. -/
structure CasWords (W : Nat → Prop) : Prop extends Reports W where
  cas : ∀ a, 0x80000 ≤ a → a < 0x90000 → W a

/-- And every frame on a lane: it may move the module in the tree, and take the Peorel reference away. -/
structure LaneWords (W : Nat → Prop) : Prop extends Journals W where
  cas : ∀ a, 0x80000 ≤ a → a < 0x90000 → W a
  cmac : ∀ a, 0x48000 ≤ a → a < 0x50000 → W a
  ref : ∀ a, 0x14000 ≤ a → a < 0x18000 → W a

/-- The words of the timescale that an entry of the calendar writes where it is made, and where it fires. -/
def FiringWords (W : Nat → Prop) : Prop := ∀ a ∈ [A.tscEvent, A.tscCalUsed, A.tscCalSkipped, A.tscCalLate], W a

/-- The parts that an operation of the cascade may change. -/
abbrev casParts : List Part := .cas :: reportParts

/-- The parts that an operation may change where it gets its entry of the calendar. -/
abbrev holdOpParts : List Part := .ts :: casParts

/-- The parts that a frame on a lane may change. -/
abbrev laneParts : List Part := .refs :: .cas :: journalParts

variable {W : Nat → Prop}

theorem CasWords.results (h : CasWords W) : ResultWords W where
  toReports := h.toReports
  status := h.cas _ (by decide) (by decide)
  event := h.cas _ (by decide) (by decide)
  result := h.cas _ (by decide) (by decide)

theorem LaneWords.casWords (h : LaneWords W) : CasWords W := ⟨h.toReports, h.cas⟩

theorem PartFrame.setCas (s : State) (f : Cas → Cas) : PartFrame [.cas] s (s.setCas f) := .cas s _

theorem PartFrame.sendPeorel (s : State) (l type len : Nat) (body : Bytes) : PartFrame [.cas, .out] s (s.sendPeorel l type len body) :=
  .step (.step (.mono (.setLane s l _)) (.setLane _ l _)) (.emit _ _)

theorem PartFrame.sendOp (s : State) (l type : Nat) (o : CasOp) : PartFrame [.cas, .out] s (s.sendOp l type o) := .sendPeorel s l type _ _

theorem PartFrame.sendResult (s : State) (l type id op status : Nat) (r : OpResult) (requester tag : Nat) :
    PartFrame [.cas, .out] s (s.sendResult l type id op status r requester tag) := .sendPeorel s l type _ _

namespace Frame

theorem setLane (s : State) (l : Nat) (f : PeorelLane → PeorelLane) : Frame [.cas] W s (s.setLane l f) := .unwritten (.setLane s l f)

theorem setCas (s : State) (f : Cas → Cas) : Frame [.cas] W s (s.setCas f) := .unwritten (.setCas s f)

/-! ### Results (R426, R427) -/

section
variable (h : ResultWords W)
include h

theorem putResult (s : State) (id op status : Nat) (rest : List Word) : Frame casParts W s (s.putResult id op status rest) := by
  unfold State.putResult
  extract_lets seq w
  exact .step (.step (.step (.mono (.setCas s _)) (.wr _ _ _ h.result)) (.setBit _ _ _ _ h.status)) (.raise h.toReports _ _ _ h.event)

theorem doneHere (s : State) (id op status : Nat) (r : OpResult) (requester tag : Nat) :
    Frame casParts W s (s.doneHere id op status r requester tag) :=
  .ite (fun _ => .refl _ W s) (fun _ => .step (.step (.putResult h s id op status _) (.setCas _ _)) (.setBit _ _ _ _ h.status))

theorem floodDone (s : State) (id op status : Nat) (r : OpResult) (requester tag : Nat) :
    Frame casParts W s (s.floodDone id op status r requester tag) :=
  .trans (.each (fun _ _ t => .mono (.unwritten (.sendResult t _ _ _ _ _ _ _ _))) s) (.doneHere h _ _ _ _ _ _ _)

theorem showOutstanding (s : State) : Frame [.regs] W s s.showOutstanding := .sfW s _ _ _ _ h.status

theorem reportOp (s : State) (o : CasOp) : Frame casParts W s (s.reportOp o) := by
  unfold State.reportOp
  extract_lets r t
  have shown : Frame casParts W s t := .step (.mono (.setCas s _)) (.showOutstanding h _)
  refine .ite (fun _ => shown.trans (.floodDone h t _ _ _ _ _ _)) (fun _ => ?_)
  split
  · exact .step shown (.unwritten (.sendResult t _ _ _ _ _ _ _ _))
  · exact shown

theorem reportIfReady (s : State) (id : Nat) : Frame casParts W s (s.reportIfReady id) := by
  unfold State.reportIfReady
  split
  · exact .ite (fun _ => .reportOp h s _) (fun _ => .refl _ W s)
  · exact .refl _ W s

theorem resultDeadline (s : State) : Frame casParts W s s.resultDeadline := .each (fun _ _ t => .reportOp h t _) s

theorem requestTimeout (s : State) : Frame (.fresh :: casParts) W s s.requestTimeout := by
  unfold State.requestTimeout
  split
  · exact .refl _ W s
  · rename_i q _
    have fails : ∀ st rest, Frame (.fresh :: casParts) W s ((s.drawBytes 44).2.putResult (leAt (s.drawBytes 44).1 0 4) q.op st rest) :=
      fun st rest => .step (.mono (.unwritten (.fresh s _))) (.putResult h _ _ _ st rest)
    split
    · exact .ite (fun _ => fails 0x41 _) (fun _ => .refl _ W s)
    · exact .ite (fun _ => fails 0x42 _) (fun _ => .refl _ W s)

end

/-! ### Operations (R421 to R425) -/

section
variable (h : CasWords W) (tsc : FiringWords W)
include h tsc

theorem holdOp (s : State) (o : CasOp) : Frame holdOpParts W s (s.holdOp o) := by
  unfold State.holdOp
  extract_lets lanes t slot x u v
  have listed : Frame holdOpParts W s u :=
    .step (.each (fun l _ w => .mono (.unwritten (.sendOp w l 3 o))) s : Frame holdOpParts W s t) (.setCas t _)
  have entered : Frame holdOpParts W u v := by
    unfold v
    clear_value slot
    split
    · have put : ∀ (i : Nat) (e : CalEntry), Frame holdOpParts W u (u.calPut i e) := fun i e =>
        ⟨.mono (.calPut u i e), (RegFrame.calUsed _ (tsc _ (by decide))).before⟩
      exact .step (put _ _) (.raise h.toReports _ _ _ h.results.event)
    · exact .mono (.inc u _ (h.cas _ (by decide) (by decide)) (fun _ => h.cas _ (by decide) (by decide)))
  exact .step (.step (listed.trans entered) (.showOutstanding h.results v)) (.reportIfReady h.results _ o.id)

theorem issueOp (s : State) (o : CasOp) : Frame holdOpParts W s (s.issueOp o) := by
  unfold State.issueOp
  extract_lets sub refuse id
  have counted : ∀ a, 0x80000 ≤ a → a + 4 < 0x90000 → Frame holdOpParts W s (s.inc a) := fun a low high =>
    .mono (.inc s a (h.cas a low (by omega)) (fun _ => h.cas _ (by omega) high))
  have refused : ∀ st, Frame holdOpParts W s (refuse st) := fun st =>
    .step (counted A.casOpsRefused (by decide) (by decide)) (.floodDone h.results _ _ _ _ _ _ _)
  exact .ite (fun _ => refused 0x40) (fun _ => .ite (fun _ => refused 0x0C) (fun _ =>
    .trans (.step (counted A.casOpsIssued (by decide) (by decide)) (.setCas _ _)) (.holdOp h tsc _ _)))

theorem requestOp (s : State) (o : CasOp) : Frame holdOpParts W s (s.requestOp o) := by
  unfold State.requestOp
  refine .ite (fun _ => .issueOp h tsc s o) (fun _ => ?_)
  split
  · exact .mono (.unwritten (.sendOp s _ 2 o))
  · exact .refl _ W s

/-- An operation executes: what its action changes, and what the firing and the report change. -/
theorem execOp {ps : List Part} (s : State) (op : Nat) (value : State → Int) (act : CasOp → Nat → State → State)
    (acts : ∀ o at_ t, Frame ps W t (act o at_ t)) (within : holdOpParts ⊆ ps := by decide) : Frame ps W s (s.execOp op value act) := by
  unfold State.execOp
  split
  · exact .refl _ W s
  · split
    · exact .refl _ W s
    · rename_i o _ _ i e _
      refine .ite (fun _ => .refl _ W s) (fun _ => ?_)
      extract_lets t skipped v kind u w
      have fired : Frame holdOpParts W s t := .mono (.fireEntry h.toReports s i e tsc)
      have acted : Frame ps W t u := (acts o _ t).step (.setCas _ _) (fun p m => within (by revert p m; decide))
      have counter : ∀ (a : Nat) (x : State), 0x80000 ≤ a → a + 4 < 0x90000 → Frame holdOpParts W x (x.inc a) := fun a x low high =>
        .mono (.inc x a (h.cas a low (by omega)) (fun _ => h.cas _ (by omega) high))
      have late : Frame holdOpParts W u w := .ite (fun _ => counter _ u (by decide) (by decide)) (fun _ => .refl _ W u)
      have reported : Frame holdOpParts W w (((w.inc A.casOpsExecuted).raise A.casEvent 4).reportIfReady o.id) :=
        .step (.step (counter _ w (by decide) (by decide)) (.raise h.toReports _ _ _ h.results.event)) (.reportIfReady h.results _ _)
      exact ((fired.mono within).trans acted).trans ((late.trans reported).mono within)

theorem barrier (s : State) : Frame holdOpParts W s s.barrier :=
  .execOp h tsc s _ _ _ (fun _ _ t => .mono (.raise h.toReports t _ _ h.results.event))

theorem broadcast (s : State) : Frame holdOpParts W s s.broadcast := by
  refine .execOp h tsc s _ _ _ (fun o _ t => ?_)
  have write : ∀ (u : State) (a : Nat) (v : Word), 0x80000 ≤ a → a < 0x90000 → Frame [.regs] W u (u.wr a v) := fun u a v low high =>
    .wr u a v (h.cas a low high)
  have bytes : Frame [.regs] W t (t.each (List.range 64) (fun w v => v.wr (A.casBcast w) (word (leAt o.data (4 * w) 4)))) :=
    .each (fun w m v => write v _ _ (by unfold A.casBcast; omega) (by have := List.mem_range.mp m; unfold A.casBcast; omega)) t
  exact .step (.mono ((bytes.trans (write _ _ _ (by decide) (by decide))).trans (write _ _ _ (by decide) (by decide))))
    (.raise h.toReports _ _ _ h.results.event)

/-- A SNAPSHOT writes the snapshot words of TSC and the bank of TAL too (R497). -/
theorem casSnapshot (s : State) (tsc' : ∀ a, 0x10000 ≤ a → a < 0x14000 → W a) (tal : ∀ a, 0xC000 ≤ a → a < 0x10000 → W a) :
    Frame (.tal :: holdOpParts) W s s.casSnapshot := by
  refine .execOp h tsc s _ _ _ (fun o at_ t => ?_)
  have latched : Frame [.regs] W t t.snapshot := by
    have write : ∀ (u : State) (a : Nat) (v : Word), 0x10000 ≤ a → a < 0x14000 → Frame [.regs] W u (u.wr a v) := fun u a v low high =>
      .wr u a v (tsc' a low high)
    unfold State.snapshot
    iterate 7 refine .trans ?_ (write _ _ _ (by decide) (by decide))
    exact write _ _ _ (by decide) (by decide)
  have banked : ∀ u : State, Frame (.tal :: reportParts) W u (u.talSnapshot at_) := fun u => by
    unfold State.talSnapshot
    have bank : Frame (.tal :: reportParts) W u (u.setTal (fun x => { x with snap := bankOf u.total })) := .mono (.unwritten (.setTal u _))
    have instant : ∀ v : State, Frame [.regs] W v (v.wrInstant A.talSnapTSecLo A.talSnapTSecHi A.talSnapTNs at_) := fun v =>
      .trans (.trans (.wr v _ _ (tal _ (by decide) (by decide))) (.wr _ _ _ (tal _ (by decide) (by decide))))
        (.wr _ _ _ (tal _ (by decide) (by decide)))
    exact .step (.step (.step bank (instant _)) (.sfW _ _ _ _ _ (tal _ (by decide) (by decide))))
      (.raise h.toReports _ _ _ (tal _ (by decide) (by decide)))
  exact .step (.step (.mono latched) (banked _)) (.raise h.toReports _ _ _ h.results.event)

end

/-! ### Qualification (R75) -/

theorem setQ (j : Journals W) (ref : ∀ a, 0x14000 ≤ a → a < 0x18000 → W a) (s : State) {i : Nat} (input : i < 14) (q stat which : Nat) :
    Frame qualParts W s (s.setQ i q stat which) := by
  refine ⟨.setQ s i q stat which, ?_⟩
  have own : ∀ a, A.refInCfg i ≤ a → a < A.refInCfg i + 0x100 → W a := fun a low high => by
    unfold A.refInCfg at low high
    exact ref a (by omega) (by omega)
  have state : W (A.refInState i) := own _ (by unfold A.refInCfg A.refInState; omega) (by unfold A.refInCfg A.refInState; omega)
  unfold State.setQ
  extract_lets old t u
  have entered : RegFrame W s t := (RegFrame.sfW s _ _ _ _ state).after
  have cleared : RegFrame W t u := .ite (fun _ => .trans (.wr t _ _ (own _ (by unfold A.refInCfg A.refInCusumP; omega)
    (by unfold A.refInCfg A.refInCusumP; omega))) (.wr _ _ _ (own _ (by unfold A.refInCfg A.refInCusumF; omega)
    (by unfold A.refInCfg A.refInCusumF; omega)))) (fun _ => .refl W t)
  have shown : RegFrame W u (u.showVoter i).showQual := .trans (.setBit u _ _ _ state) (.sfW _ _ _ _ _ (ref _ (by decide) (by decide)))
  have event : W (A.refInEvent i) := own _ (by unfold A.refInCfg A.refInEvent; omega) (by unfold A.refInCfg A.refInEvent; omega)
  exact .ite (fun _ => .refl W s) (fun _ => (((entered.trans cleared).trans shown).trans (j.raise _ _ _ event)).trans (j.journalize _ _ _ _ _ _))

theorem toUnavailable (j : Journals W) (ref : ∀ a, 0x14000 ≤ a → a < 0x18000 → W a) (s : State) {i : Nat} (input : i < 14) :
    Frame qualParts W s (s.toUnavailable i) := by
  have timer : W (A.refInTimer i) := by unfold A.refInTimer; exact ref _ (by omega) (by omega)
  refine .ite (fun _ => .refl _ W s) (fun _ => .trans (.setQ j ref s input 0 0 0) (.mono (qs := [.regs, .refs]) ⟨?_, ?_⟩))
  · exact .step (.mono (.setRef _ i _)) (.showTimer _ i)
  · exact (RegFrame.sfW _ _ _ _ _ timer).before

/-! ### Lanes and the tree (R403 to R415) -/

section
variable (h : LaneWords W)
include h

/-- A word of one of the eight lanes. -/
theorem laneWord {l a : Nat} (lane : l < 8) (low : A.cmacLaneStatus l ≤ a) (high : a < A.cmacLaneStatus l + 0x100) : W a := by
  unfold A.cmacLaneStatus at low high
  exact h.cmac a (by omega) (by omega)

theorem casEvent (s : State) (b : Nat) : Frame reportParts W s (s.raise A.casEvent b) := .raise h.toReports s _ b h.casWords.results.event

theorem casCount (s : State) (a n : Nat) (low : 0x80000 ≤ a := by decide) (high : a + 4 < 0x90000 := by decide) :
    Frame [.regs, .totals] W s (s.count a n) := .count s a n (h.cas a low (by omega)) (fun _ => h.cas _ (by omega) high)

/-- A counter of a lane, with its second word where it is a pair. -/
theorem laneCount (s : State) {l : Nat} (lane : l < 8) (a n : Nat) (low : A.cmacLaneStatus l ≤ a)
    (high : a + 4 < A.cmacLaneStatus l + 0x100) : Frame [.regs, .totals] W s (s.count a n) :=
  .count s a n (laneWord h lane low (by omega)) (fun _ => laneWord h lane (by omega) high)

theorem casField (s : State) (a lo n v : Nat) (low : 0x80000 ≤ a := by decide) (high : a < 0x90000 := by decide) :
    Frame [.regs] W s (s.sfW a lo n v) := .sfW s a lo n v (h.cas a low high)

theorem casWord (s : State) (a : Nat) (v : Word) (low : 0x80000 ≤ a := by decide) (high : a < 0x90000 := by decide) :
    Frame [.regs] W s (s.wr a v) := .wr s a v (h.cas a low high)

theorem casPair (s : State) (a : Nat) (v : Int) (low : 0x80000 ≤ a := by decide) (high : a + 4 < 0x90000 := by decide) :
    Frame [.regs] W s (s.wr64 a v) := .wr64 s a v (h.cas a low (by omega)) (h.cas _ (by omega) high)

theorem showTree (s : State) : Frame reportParts W s s.showTree := by
  unfold State.showTree
  extract_lets c n t u v w p
  have counted : Frame [.regs] W s w := .trans (.trans (.trans (.casField h s _ _ _ _) (.casWord h t _ _)) (.casField h u _ _ _ _))
    (.casWord h v _ _)
  exact .ite (fun _ => counted.mono) (fun _ => .step (counted.trans (.casField h w _ _ _ _)).mono (.casEvent h _ 0))

theorem showRidge (s : State) (ridge prio seq : Nat) (path : List Nat) : Frame laneParts W s (s.showRidge ridge prio seq path) := by
  unfold State.showRidge
  extract_lets t u
  have named : Frame laneParts W s t := .ite (fun _ => .refl _ W s) (fun _ =>
    .step (.step (.mono (.casPair h s _ _)) (.casEvent h _ 1)) (.toUnavailable h.toJournals h.ref _ (by decide)))
  have shown : Frame [.regs] W t u := .trans (.casWord h t _ _) (.casWord h _ _ _)
  have hops : Frame [.regs] W u (u.each (List.range 9) (fun i v => v.wr64 (A.casPath (2 * i)) (path.getD i 0 : Nat))) :=
    .each (fun i m v => .casPair h v _ _ (by unfold A.casPath; omega) (by have := List.mem_range.mp m; unfold A.casPath; omega)) u
  exact .step (.step named (shown.trans hops)) (.setCas _ _)

theorem takePlace (s : State) (pos : Nat) (up : Option Nat) (depth : Nat) :
    Frame [.regs, .totals, .celen, .hif, .out] W s (s.takePlace pos up depth) := by
  unfold State.takePlace
  extract_lets moved t u v
  have placed : Frame reportParts W s u := .mono (.trans (.trans (.casField h s _ _ _ _) (.casField h _ _ _ _ _)) (.casField h t _ _ _ _))
  have held : Frame reportParts W s v := .ite (fun _ => placed) (fun _ => .step (.step placed (.casField h u _ _ _ _)) (.casEvent h _ 0))
  exact .ite (fun _ => .step (.step held (.casCount h v _ 1)) (.casEvent h _ 2)) (fun _ => held)

section
variable {l : Nat} (lane : l < 8)
include lane

theorem setRole (s : State) (r : Nat) : Frame reportParts W s (s.setRole l r) :=
  .ite (fun _ => .refl _ W s) (fun _ => .step (.mono (.sfW s _ _ _ _ (laneWord h lane (Nat.le_refl _) (by omega))))
    (.raise h.toReports _ _ _ (laneWord h lane (by unfold A.cmacLaneStatus A.cmacLaneEvent; omega)
      (by unfold A.cmacLaneStatus A.cmacLaneEvent; omega))))

theorem dropOffer (s : State) : Frame [.regs, .cas] W s (s.dropOffer l) := by
  have write : ∀ (t : State) (a : Nat) (v : Word), A.cmacLanePeerLo l ≤ a → a ≤ A.cmacLanePeerInfo l → Frame [.regs] W t (t.wr a v) :=
    fun t a v low high => .wr t a v (laneWord h lane (by unfold A.cmacLanePeerLo at low; unfold A.cmacLaneStatus; omega)
      (by unfold A.cmacLanePeerInfo at high; unfold A.cmacLaneStatus; omega))
  unfold State.dropOffer State.wr64
  refine .step (.step (.step (.mono (.setLane s l _)) (write _ _ _ ?_ ?_)) (write _ _ _ ?_ ?_)) (write _ _ _ ?_ ?_)
  all_goals
    simp only [A.cmacLanePeerLo, A.cmacLanePeerInfo]
    omega

theorem assignRole (s : State) (n : Nat) : Frame casParts W s (s.assignRole l n).2 := by
  have taken : ∀ r, Frame casParts W s (s.setRole l r) := fun r => .mono (.setRole h lane s r)
  have greeted : ∀ t : State, Frame casParts W t (t.greetChild l) := fun t =>
    .each (fun o _ u => .mono (.unwritten (.sendOp u l 3 o))) t
  unfold State.assignRole
  split
  · exact taken 1
  · exact .ite (fun _ => (taken _).trans (greeted _))
      (fun _ => .ite (fun _ => .step (.step (taken _) (.casCount h _ _ 1)) (.casEvent h _ 11)) (fun _ => taken _))

end

theorem assignRoles (s : State) : Frame casParts W s s.assignRoles := by
  have each : ∀ (q : List Nat) (p : Nat × State), (∀ l ∈ q, l < 8) →
      Frame casParts W p.2 (q.foldl (fun p l => p.2.assignRole l p.1) p).2 := by
    intro q
    induction q with
    | nil => exact fun p _ => .refl _ W p.2
    | cons l q ih =>
      exact fun p lanes => (assignRole h (lanes l List.mem_cons_self) p.2 p.1).trans (ih _ (fun m k => lanes m (List.mem_cons_of_mem l k)))
  exact .step (each _ (0, s) (fun l m => List.mem_range.mp m)) (.showTree h _)

theorem casOff (s : State) : Frame laneParts W s s.casOff := by
  unfold State.casOff
  extract_lets t u
  have alone : Frame laneParts W s t := .trans (.mono (.takePlace h s _ _ _)) (.showRidge h _ _ _ _ _)
  have idle : Frame casParts W t u := .each (fun l m v => .step (.mono (.setRole h (List.mem_range.mp m) v 0)) (.setLane _ l _)) t
  have shown : ∀ v : State, Frame [.regs] W v ((((v.sfW A.casStatus 12 3 0).wr A.casSubCount 0).wr A.casSubDelay 0).wr A.casSubDepth 0) :=
    fun v => .trans (.trans (.trans (.casField h v _ _ _ _) (.casWord h _ _ _)) (.casWord h _ _ _)) (.casWord h _ _ _)
  exact .step (.step alone idle) (shown u)

theorem choosePosition (s : State) (tick : Bool) : Frame laneParts W s (s.choosePosition tick) := by
  have placed : ∀ pos up depth ridge prio seq path,
      Frame laneParts W s (((s.takePlace pos up depth).showRidge ridge prio seq path).assignRoles) :=
    fun pos up depth ridge prio seq path =>
      .step (.trans (.mono (.takePlace h s pos up depth)) (.showRidge h _ ridge prio seq path)) (.assignRoles h _)
  unfold State.choosePosition
  refine .ite (fun _ => .casOff h s) (fun _ => ?_)
  extract_lets prio offers own
  split
  · exact placed _ _ _ _ _ _ _
  · refine .ite (fun _ => placed _ _ _ _ _ _ _) (fun _ => ?_)
    split
    · exact .refl _ W s
    · exact placed _ _ _ _ _ _ _

/-! ### Frames on a lane (R405 to R407) -/

section
variable {l : Nat} (lane : l < 8)
include lane

/-- A frame of a foreign system takes its lane's role away, and the module's place where the lane led to its parent. -/
theorem laneIntake (s : State) (frame : Bytes) : Frame laneParts W s (s.laneIntake l frame).2 := by
  have counted : ∀ a, A.cmacLaneBadFrame l ≤ a → a ≤ A.cmacLaneOtherRx l → Frame laneParts W s (s.inc a) := fun a low high =>
    .mono (.laneCount h s lane a 1 (by unfold A.cmacLaneBadFrame at low; unfold A.cmacLaneStatus; omega)
      (by unfold A.cmacLaneOtherRx at high; unfold A.cmacLaneStatus; omega))
  have event : W (A.cmacLaneEvent l) :=
    laneWord h lane (by unfold A.cmacLaneStatus A.cmacLaneEvent; omega) (by unfold A.cmacLaneStatus A.cmacLaneEvent; omega)
  have foreign : Frame laneParts W s ((((s.inc (A.cmacLaneForeign l)).raise (A.cmacLaneEvent l) 4).dropOffer l).setRole l 0) :=
    .step (.step (.step (counted _ (by unfold A.cmacLaneBadFrame A.cmacLaneForeign; omega) (by unfold A.cmacLaneForeign A.cmacLaneOtherRx; omega))
      (.raise h.toReports _ _ _ event)) (.dropOffer h lane _)) (.setRole h lane _ 0)
  unfold State.laneIntake
  split
  · exact .refl _ W s
  · split
    · exact counted _ (by unfold A.cmacLaneBadFrame A.cmacLaneOtherRx; omega) (Nat.le_refl _)
    · dsimp only
      split
      · exact counted _ (Nat.le_refl _) (by unfold A.cmacLaneBadFrame A.cmacLaneOtherRx; omega)
      · split
        · exact .ite (fun _ => foreign.trans (.choosePosition h _ false)) (fun _ => foreign)
        · exact .refl _ W s

theorem showPeer (s : State) (o : PeorelLink) : Frame [.regs] W s (s.showPeer l o) := by
  have write : ∀ (t : State) (a : Nat) (v : Word), A.cmacLanePeerLo l ≤ a → a ≤ A.cmacLanePeerAsym l → Frame [.regs] W t (t.wr a v) :=
    fun t a v low high => .wr t a v (laneWord h lane (by unfold A.cmacLanePeerLo at low; unfold A.cmacLaneStatus; omega)
      (by unfold A.cmacLanePeerAsym at high; unfold A.cmacLaneStatus; omega))
  unfold State.showPeer State.wr64
  refine .trans (.trans (.trans (write _ _ _ ?_ ?_) (write _ _ _ ?_ ?_)) (write _ _ _ ?_ ?_)) (write _ _ _ ?_ ?_)
  all_goals
    simp only [A.cmacLanePeerLo, A.cmacLanePeerInfo, A.cmacLanePeerAsym]
    omega

theorem linkRx (s : State) (d : Bytes) (cap : Nat) : Frame laneParts W s (s.linkRx l d cap) := by
  unfold State.linkRx
  extract_lets o tRx t u v q w
  have counted : Frame laneParts W s t := .step (.mono (.laneCount h s lane _ 1 (by unfold A.cmacLaneStatus A.cmacLaneLinkRx; omega)
    (by unfold A.cmacLaneStatus A.cmacLaneLinkRx; omega))) (.setLane _ l _)
  have shown : Frame laneParts W s u := .step counted (.showPeer h lane t o)
  have agreed : Frame laneParts W s v := .ite (fun _ => shown) (fun _ => .step shown (.setLane u l _))
  have parent : Frame laneParts W s w := by
    have quality : Frame laneParts W v (v.parentQuality o) := .mono (.unwritten (.setRef v 12 _))
    exact .ite (fun _ => agreed.trans (.ite (fun _ => .step quality (.casWord h q _ _)) (fun _ => quality))) (fun _ => agreed)
  exact .ite (fun _ => .step parent (.assignRoles h w)) (fun _ => parent)

theorem laneLink (s : State) (frame : Bytes) (ago fecUncorr : Nat) : Frame laneParts W s (s.laneLink l frame ago fecUncorr) := by
  have counted : Frame laneParts W s (s.count (A.cmacLaneFecUncorrCw l) fecUncorr) :=
    .mono (.laneCount h s lane _ _ (by unfold A.cmacLaneStatus A.cmacLaneFecUncorrCw; omega)
      (by unfold A.cmacLaneStatus A.cmacLaneFecUncorrCw; omega))
  have taken := counted.trans (.laneIntake h lane _ frame)
  unfold State.laneLink
  generalize (s.count (A.cmacLaneFecUncorrCw l) fecUncorr).laneIntake l frame = q at taken ⊢
  obtain ⟨_ | d, t⟩ := q
  · exact taken
  · exact .ite (fun _ => taken.trans (.linkRx h lane t d _)) (fun _ => taken)

theorem linkIn (s : State) (frame : Bytes) (ago fecUncorr : Nat) : Frame (.ts :: laneParts) W s (s.linkIn l frame ago fecUncorr) := by
  have paired : ∀ t : State, Frame [.ts] W t (t.pairPhase l) := fun t => by
    unfold State.pairPhase
    split
    · exact .refl _ W t
    · exact .ite (fun _ => .unwritten (.ts t _)) (fun _ => .refl _ W t)
  unfold State.linkIn
  extract_lets t
  exact .step (.mono (.laneLink h lane s frame ago fecUncorr)) (.when (paired t))

/-- What a frame of an operation does once its lane has taken it in. -/
theorem afterIntake {ps : List Part} (s : State) (frame : Bytes) (f : Bytes → State → State) (acts : ∀ d t, Frame ps W t (f d t))
    (within : laneParts ⊆ ps := by decide) : Frame ps W s (match s.laneIntake l frame with | (none, t) => t | (some d, t) => f d t) := by
  have taken := (laneIntake h lane s frame).mono within
  generalize s.laneIntake l frame = q at taken ⊢
  obtain ⟨_ | d, t⟩ := q
  · exact taken
  · exact taken.trans (acts d t)

theorem opReqRx (tsc : FiringWords W) (s : State) (frame : Bytes) : Frame (.ts :: laneParts) W s (s.opReqRx l frame) :=
  .afterIntake h lane s frame (fun d t => if beAt d 1 1 = 2 ∧ t.casOn = true then t.requestOp (opOf d) else t)
    (fun d t => .ite (fun _ => .mono (.requestOp h.casWords tsc t (opOf d))) (fun _ => .refl _ W t))

theorem opRx (tsc : FiringWords W) (s : State) (frame : Bytes) : Frame (.ts :: laneParts) W s (s.opRx l frame) :=
  .afterIntake h lane s frame _
    (fun d t => .ite (fun _ => .refl _ W t) (fun _ => .step (.mono (.setCas t _)) (.holdOp h.casWords tsc _ (opOf d))))

theorem resultRx (s : State) (frame : Bytes) : Frame laneParts W s (s.resultRx l frame) :=
  .afterIntake h lane s frame _
    (fun d t => .ite (fun _ => .refl _ W t) (fun _ => .step (.mono (.setCas t _)) (.reportIfReady h.casWords.results _ _)))

theorem doneRx (s : State) (frame : Bytes) : Frame laneParts W s (s.doneRx l frame) :=
  .afterIntake h lane s frame _
    (fun d t => .ite (fun _ => .refl _ W t) (fun _ => .mono (.floodDone h.casWords.results t _ _ _ _ _ _)))

theorem laneTick (s : State) : Frame (.cas :: reportParts) W s (s.laneTick l) := by
  unfold State.laneTick
  extract_lets t u
  have event : W (A.cmacLaneEvent l) :=
    laneWord h lane (by unfold A.cmacLaneStatus A.cmacLaneEvent; omega) (by unfold A.cmacLaneStatus A.cmacLaneEvent; omega)
  have old : Frame casParts W s t := .ite (fun _ => .step (.mono (.dropOffer h lane s)) (.raise h.toReports _ _ _ event)) (fun _ => .refl _ W s)
  have missed : Frame [.regs, .totals] W t u := .ite (fun _ => .laneCount h t lane _ 1 (by unfold A.cmacLaneStatus A.cmacLaneLinkMiss; omega)
    (by unfold A.cmacLaneStatus A.cmacLaneLinkMiss; omega)) (fun _ => .refl _ W t)
  exact .step (.step old missed) (.setLane u l _)

end

theorem linkTick (tsc : FiringWords W) (s : State) : Frame (.ts :: laneParts) W s s.linkTick := by
  unfold State.linkTick State.fireDue
  split
  · exact .refl _ W s
  · rename_i i e _
    beta_reduce
    extract_lets u w
    have fired : Frame (.ts :: laneParts) W s (s.fireEntry i e) := .mono (.fireEntry h.toReports s i e tsc)
    have chosen : Frame (.ts :: laneParts) W s u :=
      .step (.step fired (.each (fun l m v => .laneTick h (List.mem_range.mp m) v) _)) (.choosePosition h _ true)
    have booked : ∀ (l : Nat) (v : State), Frame [.cas] W v (v.bookLink l) := fun l v => .unwritten
      (.trans (.trans (.setLane v l _) (.setLane _ l _)) (.setLane _ l _))
    exact .step (.step chosen (.setCas u _)) (.each (fun l _ v => booked l v) w)

end

end Frame

end Sys2Proof.Machine
end

section
/-!
SUPPORT. The frames of host queues, management sessions, supplies and reads (R325 to R347, R381 to R389, R442, R458 to R473).
-/

set_option Elab.async false

namespace Sys2Proof.Machine

variable {W : Nat → Prop}

/-! ### Rings and transfers (R331 to R346) -/

/-- Work on any ring writes registers of `W` alone (R331, R349). -/
structure RingWords (W : Nat → Prop) : Prop where
  posted : ∀ n, W (A.hifRingPosted n)
  state : ∀ n, W (A.hifRingState n)

/-- A transfer into a region, or its check, writes registers of `W` alone (R340, R480). -/
structure StageWords (W : Nat → Prop) : Prop extends Journals W where
  flags : W A.bootRecFlags
  snap : W A.gnsSnapStatus

/-- The parts that a transfer between memory and a region may change. -/
abbrev stageParts : List Part := .gnss :: .boot :: .fw :: journalParts

theorem PartFrame.fw (s : State) (x : Fw) : PartFrame [.fw] s { s with fw := x } := by
  intro p n; cases p <;> simp_all [Part.eq, Part.same]

theorem PartFrame.setFw (s : State) (f : Fw → Fw) : PartFrame [.fw] s (s.setFw f) := .fw s _

namespace Frame

/-- A trigger of a doorbell read (R328). -/
theorem triggerRead (s : State) (reads : W A.hifDbReads) : Frame [.regs, .totals, .hif, .out] W s s.triggerRead := by
  unfold State.triggerRead
  have counted : ∀ x : Hif, Frame [.regs, .totals, .hif, .out] W s (({ s with hif := x }.inc A.hifDbReads).emit .doorbellRead) := fun x =>
    .step (.step (.mono (.unwritten (.hif s x))) (.inc _ _ reads (fun e => absurd e (by decide +kernel)))) (.unwritten (.emit _ _))
  exact .ite (fun _ => .mono (.unwritten (.hif s _))) (fun _ => .ite (fun _ => counted _) (fun _ => .refl _ W s))

theorem kick (s : State) (kicks : W A.hifKicks) (reads : W A.hifDbReads) : Frame [.regs, .totals, .hif, .out] W s s.kick :=
  .step (.mono (.inc s _ kicks (fun e => absurd e (by decide +kernel)))) (.triggerRead _ reads)

section
variable {n : Nat} (posted : W (A.hifRingPosted n)) (state : W (A.hifRingState n))

include posted in
theorem postCompletion (s : State) (slot status flags length : Nat) (user : Bytes) :
    Frame ringParts W s (s.postCompletion n slot status flags length user) :=
  ⟨.postCompletion s _ _ _ _ _ _, .postCompletion s _ _ _ _ _ _ posted⟩

include posted in
theorem settleBad (s : State) : Frame ringParts W s (s.settleBad n) := ⟨.settleBad s n, .settleBad s n posted⟩

include posted in
theorem startWork (s : State) : Frame ringParts W s (s.startWork n).2 := by
  unfold State.startWork
  split
  · exact .refl _ W s
  · exact .trans (.mono (.unwritten (.setRing s n _))) (.settleBad posted _)

include posted in
theorem flushBuffer (s : State) : Frame ringParts W s (s.flushBuffer n) := ⟨.flushBuffer s n, .flushBuffer s n posted⟩

include state in
theorem showRing (s : State) : Frame [.regs] W s (s.showRing n) := .sfW s _ _ _ _ state

include posted state

theorem drainRing (s : State) : Frame ringParts W s (s.drainRing n) := by
  unfold State.drainRing
  refine .ite (fun _ => ?_) (fun _ => .mono (.showRing state s))
  exact .step (.trans (.mono (.unwritten (.setRing s n _))) (.each (fun _ _ u => .postCompletion posted u _ _ _ _ _) _)) (.showRing state _)

theorem endWork (s : State) (slot status length : Nat) : Frame ringParts W s (s.endWork n slot status length) :=
  .trans (.mono (.unwritten (.setRing s n _))) (.drainRing posted state _)

/-- A TX_FRAME descriptor is refused with a completion, or its frame is queued on its link (R336). -/
theorem hostFrame (long : ∀ sl, sl < 8 → W (A.macLinkTooLong sl)) (s : State) (data : Option Bytes) :
    Frame [.regs, .totals, .hif, .ports, .out] W s (s.hostFrame n data) := by
  have started := startWork posted s
  unfold State.hostFrame
  refine .ite (fun _ => .refl _ W s) (fun _ => ?_)
  generalize s.startWork n = q at started ⊢
  obtain ⟨_ | d, t⟩ := q
  · exact .mono started
  · have started : Frame [.regs, .totals, .hif, .ports, .out] W s t := .mono started
    have link : d.ctl % 8 < 8 := Nat.mod_lt _ (by decide)
    have single : ∀ sl < 8, pairRowOf (A.macLinkTooLong sl) = none := by decide +kernel
    have ended : ∀ u slot status length, Frame ringParts W u (u.endWork n slot status length) := .endWork posted state
    have counted : Frame [.regs, .totals] W t (t.inc (A.macLinkTooLong (d.ctl % 8))) :=
      .inc t _ (long _ link) (fun e => by simp [single _ link] at e)
    dsimp only
    refine .ite (fun _ => .step started (ended t _ _ _)) (fun _ => .ite (fun _ => .step (.step started counted) (ended _ _ _ _)) (fun _ => ?_))
    cases data with
    | none => exact .step started (ended t _ _ _)
    | some x => exact .step started (.unwritten (.queuePre t _ _ _ _))

theorem recordFlush (s : State) : Frame ringParts W s (s.recordFlush n) := by
  unfold State.recordFlush
  exact .ite (fun _ => .step (.flushBuffer posted s) (.showRing state _)) (fun _ => .refl _ W s)

omit posted in
theorem setRingState (r : Reports W) (status : W A.hifStatus) (s : State) (st reason : Nat) :
    Frame reportParts W s (s.setRingState n st reason) := by
  unfold State.setRingState
  refine .ite (fun _ => .refl _ W s) (fun _ => ?_)
  extract_lets t u v
  have shown : Frame reportParts W s u := .mono (.trans (.trans (.sfW s _ _ _ _ state) (.sfW _ _ _ _ _ state)) (.sfW t _ _ _ _ status))
  exact .step (.step shown (.when (.raise r u _ _ r.hifEvent))) (.postEvent r v _ _ _ _ _)

omit posted in
theorem ringIdle (r : Reports W) (status : W A.hifStatus) (s : State) : Frame reportParts W s (s.ringIdle n) := by
  unfold State.ringIdle
  exact .ite (fun _ => .setRingState state r status s 0 0) (fun _ => .refl _ W s)

end

/-! ### Host frames that time out (R336) -/

section
variable (h : RingWords W)
include h

theorem ringWork (s : State) (n slot status length : Nat) : Frame ringParts W s (s.endWork n slot status length) :=
  .endWork (h.posted n) (h.state n) s slot status length

theorem dropQueued (s : State) (sl status : Nat) (p : Nat × Nat × Nat → Bool) :
    Frame (.ports :: ringParts) W s (s.dropQueued sl status p) := by
  unfold State.dropQueued
  extract_lets hit t
  refine .trans (.mono (.unwritten (.setLink s sl _))) (.each (fun x _ u => ?_) t)
  split
  · exact .mono (.ringWork h u _ _ _ _)
  · exact .refl _ W u

theorem expireWaiting (s : State) (n : Nat) : Frame ringParts W s (s.expireWaiting n) := by
  unfold State.expireWaiting
  exact .ite (fun _ => .refl _ W s) (fun _ =>
    .trans (.trans (.mono (.unwritten (.setRing s n _))) (.settleBad (h.posted n) _)) (.drainRing (h.posted n) (h.state n) _))

theorem hostFrameTimeout (s : State) : Frame (.ports :: ringParts) W s s.hostFrameTimeout :=
  .step (.each (fun sl _ u => .dropQueued h u sl _ _) s) (.each (fun n _ u => .expireWaiting h u n) _)

end

/-! ### Vectors, coalescing, the link and the journal's flash (R325, R342, R343, R389) -/

theorem vectorTimer (s : State) (v : Nat) : Frame [.hif, .out] W s (s.vectorTimer v) :=
  .ite (fun _ => .unwritten (.sendVec s v)) (fun _ => .refl _ W s)

theorem coalesceEnd (r : Reports W) (s : State) : Frame reportParts W s s.coalesceEnd :=
  .trans (.mono (.unwritten (.hif s _))) (.each (fun c _ u => ⟨.blockEvent u c.dest c.reg, r.blockEvent u c.dest c.reg⟩) _)

theorem pcieUp (r : Reports W) (status : W A.hifStatus) (s : State) (speed width : Nat) : Frame reportParts W s (s.pcieUp speed width) := by
  have attached : ∀ x : Hif, Frame reportParts W s ({ s with hif := x }.emit (.pcieFunction 0x1F3B 0x6160)) := fun x =>
    .step (.mono (.unwritten (.hif s x))) (.unwritten (.emit _ _))
  exact .step (.step (.step (.step (attached _) (.setBit _ _ _ _ status)) (.sfW _ _ _ _ _ status)) (.sfW _ _ _ _ _ status))
    (.raise r _ _ _ r.hifEvent)

theorem pcieRetrain (s : State) : Frame [.hif, .out] W s s.pcieRetrain := by
  have trained : Frame [.hif, .out] W s s.startTraining := .unwritten (.step (.mono (.hif s _)) (.emit _ _))
  unfold State.pcieRetrain
  split
  · exact .refl _ W s
  · exact .ite (fun _ => trained) (fun _ => .refl _ W s)

theorem journalFlash (r : Reports W) (lost : W A.glbJournalLost) (event : W A.glbEvent) (s : State) :
    Frame journalParts W s s.journalFlash := by
  unfold State.journalFlash
  extract_lets all kept gone src t
  have written : Frame journalParts W s t := .mono (.unwritten (.journal s _))
  exact .ite (fun _ => written) (fun _ => .step (.step written (.count t _ _ lost (fun e => absurd e (by decide +kernel)))) (.raise r _ _ _ event))

/-! ### Regions, images and transfers (R340, R479 to R482) -/

section
variable (h : StageWords W)
include h

theorem checkHeader (s : State) : Frame [.regs] W s s.checkHeader := by
  unfold State.checkHeader
  exact .ite (fun _ => .trans (.trans (.setBit s _ _ _ h.snap) (.sfW _ _ _ _ _ h.snap)) (.sfW _ _ _ _ _ h.snap))
    (fun _ => .setBit s _ _ _ h.snap)

theorem regionWrite (s : State) (r off : Nat) (d : Bytes) : Frame [.regs, .gnss, .fw] W s (s.regionWrite r off d) :=
  .ite (fun _ => .trans (.mono (.unwritten (.gnss s _))) (.mono (.when (.checkHeader h _)))) (fun _ => .mono (.unwritten (.setFw s _)))

theorem setBad (s : State) (b : Nat) (bad : Bool) : Frame [.regs] W s (s.setBad b bad) := .setBit s _ _ _ h.flags

theorem beginCheck (s : State) (o : FwOwner) : Frame [.regs, .fw] W s (s.beginCheck o) := by
  unfold State.beginCheck State.beginInstall
  exact .trans (.mono (.unwritten (.setFw s _))) (.ite (fun _ => .mono (.setBad h _ _ true)) (fun _ => .refl _ W _))

theorem journalFirmware (s : State) (src : Source) (event target index : Nat) (digest : Bytes) :
    Frame journalParts W s (s.journalFirmware src event target index digest) := .journalize h.toJournals s _ _ _ _ _

theorem install (s : State) (src : Source) (flashOk : Bool) : Frame stageParts W s (s.install src flashOk).2 := by
  unfold State.install
  extract_lets hd target x b src' t a u
  clear_value target x
  split
  · dsimp only
    exact .step (.mono (.unwritten (.setFw s _))) (.journalFirmware h _ _ _ _ _ _)
  · split
    · exact .refl _ W s
    · split <;> dsimp only
      · exact .step (.step (.mono (.unwritten (.boot s _))) (.setBad h t _ false)) (.journalFirmware h _ _ _ _ _ _)
      · exact .step (.mono (.unwritten (.setSide s _ _))) (.journalFirmware h u _ _ _ _ _)

theorem endCheck (s : State) (src : Source) (flashOk : Bool) : Frame stageParts W s (s.endCheck src flashOk).2 := by
  unfold State.endCheck
  generalize s.imageCheck = outcome
  extract_lets hd c r
  clear_value hd
  have installed : Frame stageParts W s r.2 := by
    unfold r
    split
    · exact .install h s src flashOk
    · dsimp only
      exact .mono (.journalFirmware h s _ _ _ _ _)
  exact .step installed (.unwritten (.setFw _ _))

/-- An XFER completes with an error or its bytes, or waits for the check of an image (R340, R480). -/
theorem xfer (rings : RingWords W) (s : State) (n : Nat) (data : Bytes) (ok : Bool) : Frame stageParts W s (s.xfer n data ok) := by
  have started := startWork (rings.posted n) s
  unfold State.xfer
  refine .ite (fun _ => .refl _ W s) (fun _ => ?_)
  generalize s.startWork n = q at started ⊢
  obtain ⟨_ | d, t⟩ := q
  · exact .mono started
  · have started : Frame stageParts W s t := .mono started
    have ended : ∀ u slot status length, Frame ringParts W u (u.endWork n slot status length) := fun u => .ringWork rings u n
    have written : ∀ r off d, Frame stageParts W s (t.regionWrite r off d) := fun r off d => .step started (.regionWrite h t r off d)
    dsimp only
    refine .ite (fun _ => .step started (ended t _ _ _)) (fun _ => .ite (fun _ => .step started (ended t _ _ _)) (fun _ =>
      .ite (fun _ => .step (.step started (.unwritten (.hostWrite t _ _))) (ended _ _ _ _)) (fun _ =>
      .ite (fun _ => .step (written _ _ _) (ended _ _ _ _)) (fun _ =>
      .ite (fun _ => .step (written _ _ _) (.beginCheck h _ _)) (fun _ => .step (written _ _ _) (ended _ _ _ _))))))

theorem xferChecked (rings : RingWords W) (s : State) (flashOk : Bool) : Frame stageParts W s (s.xferChecked flashOk) := by
  unfold State.xferChecked
  split
  · exact .step (.endCheck h s _ flashOk) (.ringWork rings _ _ _ _ _)
  · exact .refl _ W s

end

end Frame

end Sys2Proof.Machine
end

section
/-!
SUPPORT. The frames of management sessions, supplies, the watchdog, alarms and reads (R353, R381 to R384, R442, R458 to R473).
-/

set_option Elab.async false

namespace Sys2Proof.Machine

variable {W : Nat → Prop}

/-! ### Sessions and their messages (R381 to R384) -/

/-- A session with a message just received (R382). -/
def State.heard (s : State) (i : Nat) : State :=
  s.setSession i (fun o => o.map (fun (y : Session) => { y with lastMsg := s.ts.meas }))

/-- What a client message can come to: nothing without its session, an ERROR, or its meaning (R383, R386). -/
theorem message_cases (s : State) (i type : Nat) (m : MpMsg) (f : State → State) :
    s.message i type m f = s ∨ (∃ code detail, s.message i type m f = (s.heard i).mpError i m.tag code detail) ∨
      s.message i type m f = f (s.heard i) := by
  unfold State.message
  split
  · exact .inl rfl
  · dsimp only
    split
    · exact .inr (.inl ⟨_, _, rfl⟩)
    · split
      · exact .inr (.inl ⟨_, _, rfl⟩)
      · split
        · exact .inr (.inl ⟨_, _, rfl⟩)
        · split
          · exact .inr (.inl ⟨_, _, rfl⟩)
          · split
            · exact .inr (.inl ⟨_, _, rfl⟩)
            · split
              · exact .inr (.inl ⟨_, _, rfl⟩)
              · exact .inr (.inr rfl)

/-- The parts that the answer to a message may change. -/
abbrev replyParts : List Part := [.celen, .out]

/-- The parts that the end of a session may change. -/
abbrev sessionParts : List Part := .sources :: journalParts

/-- The parts that a MGMT reset may change. -/
abbrev mgmtParts : List Part := .boot :: sessionParts

/-- The words of the sensors and of STATUS. -/
def senseWords : List Nat :=
  [A.pwrPIn, A.pwrVKa, A.pwrVDcb, A.pwrVDca, A.pwrVAc, A.pwrTBoard, A.pwrTInlet, A.pwrTZafel, A.pwrStatus]

theorem PartFrame.celen_boot (s : State) (x : Celen) (y : Boot) : PartFrame [.celen, .boot] s { s with celen := x, boot := y } :=
  (PartFrame.celen s x).andThen (.boot _ y)

theorem PartFrame.gnss_pwr (s : State) (x : Gnss) (y : Pwr) : PartFrame [.gnss, .pwr] s { s with gnss := x, pwr := y } :=
  (PartFrame.gnss s x).andThen (.pwr _ y)

theorem PartFrame.setSession (s : State) (i : Nat) (f : Option Session → Option Session) : PartFrame [.celen] s (s.setSession i f) :=
  .celen s _

theorem PartFrame.heard (s : State) (i : Nat) : PartFrame [.celen] s (s.heard i) := .setSession s i _

theorem PartFrame.reply (s : State) (i type tag : Nat) (body : Bytes) : PartFrame [.out] s (s.reply i type tag body) := .emit s _

theorem PartFrame.mpError (s : State) (i tag code detail : Nat) : PartFrame [.out] s (s.mpError i tag code detail) := .emit s _

theorem PartFrame.message {ps : List Part} (s : State) (i type : Nat) (m : MpMsg) (f : State → State) (acts : ∀ t, PartFrame ps t (f t))
    (within : replyParts ⊆ ps := by decide) : PartFrame ps s (s.message i type m f) := by
  have heard : PartFrame ps s (s.heard i) := (PartFrame.heard s i).mono (fun p m => within (by revert p m; decide))
  rcases message_cases s i type m f with e | ⟨code, detail, e⟩ | e <;> rw [e]
  · exact .refl ps s
  · exact heard.step (.mpError _ _ _ _ _) (fun p m => within (by revert p m; decide))
  · exact heard.trans (acts _)

theorem PartFrame.sized {ps : List Part} (s : State) (i type n : Nat) (m : MpMsg) (f : State → State) (acts : ∀ t, PartFrame ps t (f t))
    (within : replyParts ⊆ ps := by decide) : PartFrame ps s (s.sized i type n m f) :=
  .message s i type m _ (fun t => .ite (acts t) ((PartFrame.mpError t _ _ _ _).mono (fun p m => within (by revert p m; decide)))) within

/-! ### Reads by message (R384) -/

/-- The parts that a READ may change: bytes without a stated value are drawn. -/
abbrev readRunParts : List Part := .fresh :: readParts

theorem PartFrame.readMasked (s : State) (src : Source) (a be : Nat) : PartFrame readRunParts s (s.readMasked src a be).2 := by
  have lane : PartFrame readRunParts s (s.readLane src a be).2 := .mono (.readLane s src a be)
  unfold State.readMasked
  exact .ite2 lane (.step lane (.fresh _ _))

theorem PartFrame.readRun (src : Source) (be : Nat) : ∀ (n : Nat) (s : State) (a : Nat), PartFrame readRunParts s (s.readRun src a be n).2
  | 0, s, _ => .refl _ s
  | n + 1, s, a => (PartFrame.readMasked s src a be).trans (PartFrame.readRun src be n _ (a + 4))

theorem PartFrame.mpRead (s : State) (i : Nat) (m : MpMsg) : PartFrame readRunParts s (s.mpRead i m) := by
  refine .sized s i 2 8 m _ (fun t => ?_)
  exact .ite (.mono (.mpError t _ _ _ _)) (.ite (.mono (.mpError t _ _ _ _)) (.ite (.mono (.mpError t _ _ _ _))
    (.step (.readRun _ _ _ t _) (.reply _ _ _ _ _))))

theorem PartFrame.mpRead64 (s : State) (i : Nat) (m : MpMsg) : PartFrame readParts s (s.mpRead64 i m) :=
  .sized s i 4 4 m _ (fun t => .ite (.mono (.mpError t _ _ _ _)) (.step (.readReg64 t _ _) (.reply _ _ _ _ _)))

namespace Frame

theorem mpError (s : State) (i tag code detail : Nat) : Frame replyParts W s (s.mpError i tag code detail) :=
  .mono (.unwritten (.mpError s i tag code detail))

theorem reply (s : State) (i type tag : Nat) (body : Bytes) : Frame replyParts W s (s.reply i type tag body) :=
  .mono (.unwritten (.reply s i type tag body))

theorem setSession (s : State) (i : Nat) (f : Option Session → Option Session) : Frame [.celen] W s (s.setSession i f) :=
  .unwritten (.setSession s i f)

theorem message {ps : List Part} (s : State) (i type : Nat) (m : MpMsg) (f : State → State) (acts : ∀ t, Frame ps W t (f t))
    (within : replyParts ⊆ ps := by decide) : Frame ps W s (s.message i type m f) := by
  refine ⟨.message s i type m f (fun t => (acts t).parts) within, ?_⟩
  rcases message_cases s i type m f with e | ⟨code, detail, e⟩ | e <;> rw [e]
  · exact .refl W s
  · exact .same rfl
  · exact (acts (s.heard i)).words.before

theorem sized {ps : List Part} (s : State) (i type n : Nat) (m : MpMsg) (f : State → State) (acts : ∀ t, Frame ps W t (f t))
    (within : replyParts ⊆ ps := by decide) : Frame ps W s (s.sized i type n m f) :=
  .message s i type m _ (fun t => .ite (fun _ => acts t) (fun _ => (mpError t _ _ _ _).mono within)) within

theorem hello (s : State) (i type : Nat) (m : MpMsg) : Frame replyParts W s (s.hello i type m) :=
  .ite (fun _ => .ite (fun _ => .refl _ W s) (fun _ => .message s i type m _ (fun t => .refl _ W t)))
    (fun _ => .sized s i 1 4 m _ (fun t => .step (.mono (.setSession t i _)) (.reply _ _ _ _ _)))

theorem mpSubscribe (s : State) (i : Nat) (m : MpMsg) : Frame replyParts W s (s.mpSubscribe i m) := by
  refine .sized s i 5 12 m _ (fun t => .ite (fun _ => .mpError t _ _ _ _) (fun _ => .ite (fun _ => .mpError t _ _ _ _) (fun _ => ?_)))
  exact .step (.step (.mono (.setSession t i _)) (.reply _ _ _ _ _)) ⟨.streamJournal _, .streamJournal _⟩

theorem mpUnsubscribe (s : State) (i : Nat) (m : MpMsg) : Frame (.hif :: replyParts) W s (s.mpUnsubscribe i m) :=
  .sized s i 6 0 m _ (fun t => .step (.step (.mono (.setSession t i _)) (.unwritten (.hif _ _))) (.reply _ _ _ _ _))

theorem mpJournal (s : State) (i : Nat) (m : MpMsg) : Frame replyParts W s (s.mpJournal i m) :=
  .sized s i 7 8 m _ (fun t => .ite (fun _ => .mpError t _ _ _ _) (fun _ => .ite (fun _ => .mpError t _ _ _ _) (fun _ => .reply t _ _ _ _)))

theorem mpNet (s : State) (i : Nat) (m : MpMsg) : Frame replyParts W s (s.mpNet i m) :=
  .sized s i 9 44 m _ (fun t => .ite (fun _ => .mpError t _ _ _ _) (fun _ => .ite (fun _ => .mpError t _ _ _ _)
    (fun _ => .step (.mono (.setSession t i _)) (.reply _ _ _ _ _))))

theorem mpStage (h : StageWords W) (s : State) (i : Nat) (m : MpMsg) : Frame stageParts W s (s.mpStage i m) := by
  refine .message s i 8 m _ (fun t => ?_)
  have error : ∀ code detail, Frame stageParts W t (t.mpError i m.tag code detail) := fun code detail => .mono (.mpError t i m.tag code detail)
  have written : ∀ r off d, Frame stageParts W t (t.regionWrite r off d) := fun r off d => .mono (.regionWrite h t r off d)
  extract_lets r dir off len
  iterate 9 refine .ite (fun _ => error _ _) (fun _ => ?_)
  exact .ite (fun _ => .mono (.reply t _ _ _ _)) (fun _ =>
    .ite (fun _ => .step (written _ _ _) (.beginCheck h _ _)) (fun _ => .step (written _ _ _) (.reply _ _ _ _ _)))

theorem mpStaged (h : StageWords W) (s : State) (flashOk : Bool) : Frame stageParts W s (s.mpStaged flashOk) := by
  unfold State.mpStaged
  split
  · rename_i i tag _
    have ended := endCheck h s (.session i) flashOk
    exact .ite (fun _ => .step ended (.reply _ _ _ _ _)) (fun _ => .step ended (.mpError _ _ _ _ _))
  · exact .refl _ W s

section
variable (h : Journals W)
include h

theorem endSession (s : State) (i cause : Nat) : Frame sessionParts W s (s.endSession i cause) := by
  unfold State.endSession
  split
  · exact .refl _ W s
  · rename_i x _
    extract_lets t q u c v
    have closed : Frame sessionParts W s u := .mono (.unwritten (ps := [.celen, .sources, .hif])
      (.step (.step (.mono (.setSession s i _)) (.setView _ _ _)) (.hif t _)))
    have settled : Frame journalParts W u v := by
      unfold v
      split
      · exact .refl _ W u
      · exact .step (.mono (.unwritten (.celen u _))) (.journalBlock h _ _ _ _ _ _ _)
    exact .step (.step closed settled) (.journalBlock h v _ _ _ _ _ _)

theorem openSession (s : State) (i : Nat) (fingerprint : Bytes) : Frame sessionParts W s (s.openSession i fingerprint) :=
  .step (.mono (.unwritten (ps := [.celen, .sources]) (.step (.mono (.setSession s i _)) (.setView _ _ _)))) (.journalBlock h _ _ _ _ _ _ _)

theorem sessionOpen (s : State) (fingerprint : Bytes) (proof : Bool) (issuers : List Bytes) (notBefore notAfter : Int) :
    Frame (.fresh :: sessionParts) W s (s.sessionOpen fingerprint proof issuers notBefore notAfter) := by
  unfold State.sessionOpen
  refine .ite (fun _ => .refl _ W s) (fun _ => ?_)
  split
  · exact .mono (.openSession h s _ _)
  · exact .step (.mono (.unwritten (.fresh s _))) (.mpError _ _ _ _ _)

theorem sessionIdle (s : State) (i : Nat) : Frame sessionParts W s (s.sessionIdle i) := by
  unfold State.sessionIdle
  split
  · exact .refl _ W s
  · exact .ite (fun _ => .endSession h s i 3) (fun _ => .refl _ W s)

theorem mpTrust (s : State) (i : Nat) (m : MpMsg) : Frame journalParts W s (s.mpTrust i m) := by
  refine .message s i 10 m _ (fun t => ?_)
  have error : ∀ code detail, Frame journalParts W t (t.mpError i m.tag code detail) := fun code detail => .mono (.mpError t i m.tag code detail)
  refine .ite (fun _ => error _ _) (fun _ => .ite (fun _ => error _ _) (fun _ => .ite (fun _ => error _ _) (fun _ => ?_)))
  split
  · exact .step (.step (.mono (.unwritten (.celen t _))) (.journalBlock h _ _ _ _ _ _ _)) (.reply _ _ _ _ _)
  · exact error _ _

theorem mpBye (s : State) (i : Nat) (m : MpMsg) : Frame sessionParts W s (s.mpBye i m) :=
  .sized s i 15 0 m _ (fun t => .trans (.mono (.reply t _ _ _ _)) (.endSession h _ i 0))

/-! ### The watchdog's MGMT reset (R468, R472, R473) -/

variable (boot : ∀ a, 0xA000 ≤ a → a < 0xC000 → W a)
include boot

theorem mgmtBegin (s : State) (cause : Nat) : Frame mgmtParts W s (s.mgmtBegin cause) := by
  have ended : Frame mgmtParts W s (s.endSessions 4) := .each (fun i _ t => .mono (.endSession h t i 4)) s
  have status : ∀ t : State, Frame [.regs] W t (t.sfW A.bootStatus 6 2 2) := fun t => .sfW t _ _ _ _ (boot _ (by decide) (by decide))
  have bad : ∀ (t : State) b, Frame [.regs] W t (t.setBad b true) := fun t b => .setBit t _ _ _ (boot _ (by decide) (by decide))
  unfold State.mgmtBegin
  extract_lets t early u
  have marked : Frame mgmtParts W s u := .step (.step ended (status _)) (.when (bad t _))
  exact .step marked (.unwritten (.celen_boot u _ _))

theorem mgmtEnd (pwr : W A.pwrEvent) (s : State) (ok : List Bool) : Frame mgmtParts W s (s.mgmtEnd ok) := by
  have stepWord : ∀ a, a ∈ [A.bootStepCount 2, A.bootStepLastT 2, A.bootEvent, A.bootRecFlags] → W a := fun a m => by
    fin_cases m <;> exact boot _ (by decide) (by decide)
  have event : ∀ (t : State) b, Frame mgmtParts W t (t.raise A.bootEvent b) := fun t b =>
    .mono (.raise h.toReports t _ b (stepWord _ (by decide)))
  have attempt : ∀ t : State, Frame mgmtParts W t (t.countAttempt 3) := fun t => .mono (.sfW t _ _ _ _ (stepWord _ (by decide)))
  have record : ∀ (t : State) src e g x d, Frame mgmtParts W t (t.journalFirmware src e g x d) := fun t src e g x d =>
    .mono (.journalize h t _ _ _ _ _)
  have ran : ∀ (t : State) b, Frame mgmtParts W t (t.runBank b) := fun t b =>
    .step (.mono (.trans (.sfW t _ _ _ _ (stepWord _ (by decide))) (.sfW _ _ _ _ _ (stepWord _ (by decide))))) (.unwritten (.celen _ _))
  have failed : ∀ (t : State) b, Frame mgmtParts W t (t.bankFails b 4) := fun t b =>
    .step (.trans (.mono (.trans (.trans (.sfW t _ _ _ _ (stepWord _ (by decide))) (.sfW _ _ _ _ _ (stepWord _ (by decide))))
      (.wr _ _ _ (stepWord _ (by decide))))) (event _ 1)) (.setBit _ _ _ _ (stepWord _ (by decide)))
  have fallback : ∀ (t : State) b, Frame mgmtParts W t (t.bankFallback b) := fun t b => (event t 3).trans (record _ _ _ _ _ _)
  unfold State.mgmtEnd
  split
  · exact .refl _ W s
  · extract_lets was b0 b1 src t u src' v w
    have counted : Frame mgmtParts W s t := .trans (.mono (.unwritten (.boot s _))) (attempt _)
    have switched : ∀ x d, Frame mgmtParts W u (({ u with boot := x }).journalFirmware .module 2 1 b0 d) := fun x d =>
      .trans (.mono (.unwritten (.boot u x))) (record _ _ _ _ _ _)
    have taken : Frame mgmtParts W t w := by
      refine .ite (fun _ => (ran t b0).trans (.ite (fun _ => switched _ _) (fun _ => .ite (fun _ => fallback u b0) (fun _ => .refl _ W u))))
        (fun _ => ((failed t b0).trans (attempt _)).trans (.ite (fun _ => (ran v b1).trans (fallback _ b1))
          (fun _ => (failed v b1).trans (event _ 6))))
    exact .step (counted.trans taken) (.raise h.toReports w _ _ pwr)

end

/-! ### Supplies and sensors (R458 to R464, R468) -/

section
variable (r : Reports W) (sense : ∀ a ∈ senseWords, W a)
include sense

theorem showSense (s : State) (m : PowerSense) : Frame [.regs, .pwr] W s (s.showSense m) := by
  have field : ∀ (t : State) a n v, a ∈ senseWords → Frame [.regs] W t (t.sfW a 0 n v) := fun t a n v k => .sfW t a 0 n v (sense a k)
  unfold State.showSense
  extract_lets t u v
  have supplies : Frame [.regs] W s t := .trans (.trans (.trans (.trans (field s _ _ _ (by decide)) (field _ _ _ _ (by decide)))
    (field _ _ _ _ (by decide))) (field _ _ _ _ (by decide))) (field _ _ _ _ (by decide))
  have heat : Frame [.regs] W t u := .trans (.trans (field t _ _ _ (by decide)) (field _ _ _ _ (by decide))) (field _ _ _ _ (by decide))
  have shown : Frame [.regs, .pwr] W s v := .mono ((supplies.trans heat).trans (.setBit u _ _ _ (sense _ (by decide))))
  exact .ite (fun _ => shown) (fun _ => .step shown (.unwritten (.pwr v _)))

include r

theorem inputQualified (domains : W A.pwrDomState) (event : W A.pwrEvent) (s : State) (i : Nat) :
    Frame reportParts W s (s.inputQualified i) :=
  .ite (fun _ => .refl _ W s) (fun _ => .step (.mono (.trans (.setBit s _ _ _ (sense _ (by decide))) (.setBit _ _ _ _ domains)))
    (.raise r _ _ _ event))

theorem inputLost (losses : W A.pwrInputLoss) (event : W A.pwrEvent) (s : State) (i : Nat) : Frame reportParts W s (s.inputLost i) :=
  .ite (fun _ => .step (.step (.mono (.setBit s _ _ _ (sense _ (by decide)))) (.inc _ _ losses (fun e => absurd e (by decide +kernel))))
    (.raise r _ _ _ event)) (fun _ => .refl _ W s)

theorem thermReached (warns : W A.pwrThermWarns) (event : W A.pwrEvent) (s : State) (m : PowerSense) :
    Frame (.pwr :: reportParts) W s (s.thermReached m) := by
  have shown : Frame (.pwr :: reportParts) W s (s.showSense m) := .mono (.showSense sense s m)
  exact .ite (fun _ => .step (.step shown (.inc _ _ warns (fun e => absurd e (by decide +kernel)))) (.raise r _ _ _ event)) (fun _ => shown)

end

theorem stabilityReached (r : Reports W) (boot : ∀ a ∈ [A.bootEvent, A.bootStatus, A.bootRecFlags], W a) (s : State) :
    Frame (.boot :: reportParts) W s s.stabilityReached := by
  unfold State.stabilityReached
  split
  · exact .refl _ W s
  · exact .ite (fun _ => .step (.step (.step (.mono (.unwritten (.boot s _))) (.sfW _ _ _ _ _ (boot _ (by decide))))
      (.setBit _ _ _ _ (boot _ (by decide)))) (.raise r _ _ _ (boot _ (by decide)))) (fun _ => .refl _ W s)

/-- A channel without a signal writes its four words (R131). -/
theorem freeChan (s : State) {a c : Nat} (channel : c < 160) (words : ∀ i, i < 640 → W (A.gnsSideChan a i)) :
    Frame [.regs, .gnss] W s (s.freeChan a c) := by
  have write : ∀ (t : State) (k : Nat) (v : Word), k < 4 → Frame [.regs] W t (t.wr (chanWord a c + 4 * k) v) := fun t k v low => by
    rw [show chanWord a c + 4 * k = A.gnsSideChan a (4 * c + k) by unfold chanWord A.gnsSideChan; omega]
    exact .wr t _ v (words _ (by omega))
  exact .step (.mono (.trans (.trans (.trans (write s 0 _ (by decide)) (write _ 1 _ (by decide))) (write _ 2 _ (by decide)))
    (write _ 3 _ (by decide)))) (.unwritten (.setLoop _ a c _))

theorem haltSide (s : State) {a : Nat} (status : W A.gnsStatus) (bias : W (A.gnsSideBias a)) (chans : ∀ i, i < 640 → W (A.gnsSideChan a i)) :
    Frame [.regs, .gnss] W s (s.haltSide a) := by
  have freed : ∀ t : State, Frame [.regs, .gnss] W t (t.freeChans a) := fun t =>
    .each (fun c m u => .freeChan u (List.mem_range.mp (List.mem_of_mem_filter m)) chans) t
  have off : ∀ t : State, Frame [.regs, .gnss] W t (t.biasOn a false) := fun t =>
    .step (.mono (.wr t _ _ bias)) (.unwritten (.setSide _ a _))
  exact .trans (.trans (.mono (.setBit s _ _ _ status)) (freed _)) (off _)

/-- The loss of KA halts the side that a wake would have used (R153, R460). -/
theorem kaLost (domains : W A.pwrDomState) (status : W A.gnsStatus) (bias : ∀ a, a < 2 → W (A.gnsSideBias a))
    (chans : ∀ a, a < 2 → ∀ i, i < 640 → W (A.gnsSideChan a i)) (temp : W A.holTempCart) (diff : W A.holCartDiff) (s : State) :
    Frame [.regs, .hol, .gnss, .pwr] W s s.kaLost := by
  have side : s.wakeSide < 2 := by unfold State.wakeSide; split <;> decide
  unfold State.kaLost
  refine .ite (fun _ => ?_) (fun _ => .refl _ W s)
  extract_lets t
  have halted : Frame [.regs, .hol, .gnss, .pwr] W s t :=
    .step (.mono (.unwritten (.setHol s _))) (.haltSide _ status (bias _ side) (chans _ side))
  have off : ∀ u : State, Frame [.regs] W u (u.domainsOnly [0]) := fun u =>
    .trans (.when (.trans (.wr u _ _ diff) (.wr _ _ _ temp))) (.sfW _ _ _ _ _ domains)
  exact .step (.step halted (.unwritten (.gnss_pwr t _ _))) (off _)

/-! ### Alarm contacts (R442) -/

section
variable (status : W A.pwrIoStatus)
include status

theorem setContact (s : State) (c : Nat) (closed : Bool) : Frame [.regs, .pwr, .out] W s (s.setContact c closed) :=
  .ite (fun _ => .refl _ W s) (fun _ => .step (.mono (.setBit s _ _ _ status)) (.unwritten (.emit _ _)))

theorem contactTimed (s : State) (c : Nat) (closed : Bool) (e : Option Nat) :
    Frame [.regs, .pwr, .out] W s ((s.setContact c closed).setCloseAt c e) := .step (.setContact status s c closed) (.unwritten (.pwr _ _))

omit status in
theorem setCloseAt (s : State) (c : Nat) (e : Option Nat) : Frame [.regs, .pwr, .out] W s (s.setCloseAt c e) := .mono (.unwritten (.pwr s _))

theorem examine (s : State) (c : Nat) : Frame [.regs, .pwr, .out] W s (s.examine c) :=
  .ite (fun _ => .ite (fun _ => .contactTimed status s c false none) (fun _ => .ite (fun _ => .setCloseAt s c _) (fun _ => .refl _ W s)))
    (fun _ => .refl _ W s)

theorem alarmChange (s : State) : Frame [.regs, .pwr, .out] W s s.alarmChange := .trans (.examine status s 0) (.examine status _ 1)

theorem alarmClose (s : State) (c : Nat) : Frame [.regs, .pwr, .out] W s (s.alarmClose c) := by
  unfold State.alarmClose
  split
  · exact .refl _ W s
  · exact .ite (fun _ => .ite (fun _ => .setCloseAt s c none) (fun _ => .contactTimed status s c true none)) (fun _ => .refl _ W s)

theorem noSelection (s : State) : Frame [.regs, .pwr, .out] W s s.noSelection := by
  unfold State.noSelection
  split
  · exact .refl _ W s
  · exact .ite (fun _ => .trans (.mono (.unwritten (.pwr s _))) (.alarmChange status _)) (fun _ => .refl _ W s)

end

end Frame

/-! ### Reads of one word (R353, R430, R431) -/

theorem RegFrame.ite2 {α : Type} {c : Prop} [Decidable c] {s : State} {t u : α × State} (h : RegFrame W s t.2) (k : RegFrame W s u.2) :
    RegFrame W s (if c then t else u).2 := by split <;> assumption

theorem RegFrame.crRead (s : State) (src : Source) (a : Nat) (low : W a) (high : W (a + 4)) : RegFrame W s (s.crRead src a).2 := by
  unfold State.crRead
  split
  · exact .ite2 (RegFrame.after (.ite (fun _ => (RegFrame.wr s _ _ low).trans (.wr _ _ _ high)) (fun _ => .wr s _ _ low))) (.refl W s)
  · exact .refl W s

theorem RegFrame.readWord (f : Faults W) (s : State) (src : Source) (a : Nat) (low : W a) (high : W (a + 4)) :
    RegFrame W s (s.readWord src a).2 := by
  unfold State.readWord
  refine .ite2 (f.logFault s _ _ _ _ _ _ _) (.ite2 (.refl W s) (.ite2 (.refl W s) (.ite2 (.refl W s) ?_)))
  split
  · split
    · exact .refl W s
    · exact .ite2 (.refl W s) (.crRead s src a low high)
    · exact .refl W s
    · exact .refl W s
    · exact .ite (fun _ => .same rfl) (fun _ => .refl W s)
    · exact .refl W s
  · exact .ite2 (.refl W s) (.ite2 (.refl W s) (.ite2 (.refl W s) (.refl W s)))

/-- A full-width read writes what its latch writes, its own word where it clears, and the words of a fault. -/
theorem RegFrame.busRead (f : Faults W) (s : State) (src : Source) {a : Nat} (plain : refreshes a = false) (low : W a) (high : W (a + 4))
    (latch : RegFrame W s (s.latchRead a)) : RegFrame W s (s.busRead src a [15]) := by
  have read : RegFrame W s (s.readReg src a).2 := by
    unfold State.readReg
    rw [refreshRead_eq plain]
    exact .ite2 (latch.trans (.readWord f _ src a low high)) (.readWord f s src a low high)
  exact .ite (fun _ => read.after) (fun _ => read)

theorem RegFrame.latchResult (s : State) (cas : ∀ i, i < 12 → W (A.casOpResult i)) : RegFrame W s (s.latchRead (A.casOpResult 0)) := by
  have latch : s.latchRead (A.casOpResult 0) = s.latchResult := rfl
  rw [latch]
  exact .each _ _ (fun i m t => .wr t _ _ (cas i (List.mem_range.mp m))) s

theorem RegFrame.latchLane (s : State) {l : Nat} (lane : l < 8)
    (cmac : ∀ a ∈ [A.cmacLaneThetaHi l, A.cmacLaneDelta l, A.cmacLanePairs l], W a) : RegFrame W s (s.latchRead (A.cmacLaneThetaLo l)) := by
  have latch : s.latchRead (A.cmacLaneThetaLo l) = s.latchLane l := by interval_cases l <;> rfl
  rw [latch]
  unfold State.latchLane
  split
  · exact .refl W s
  · exact .trans (.trans (.wr s _ _ (cmac _ (by simp))) (.wr _ _ _ (cmac _ (by simp)))) (.wr _ _ _ (cmac _ (by simp)))

end Sys2Proof.Machine
end

section
/-!
SUPPORT. The doorbell reads, and O39: the parts that the commands of host queues, sessions, supplies and lanes change.
-/

set_option Elab.async false

namespace Sys2Proof.Machine

/-! ### Where any register may be written -/

/-- No bound on the registers. -/
abbrev AnyWord (_ : Nat) : Prop := True

theorem Reports.any : Reports AnyWord := ⟨trivial, trivial, fun _ _ => trivial⟩

theorem Journals.any : Journals AnyWord := ⟨.any, trivial, trivial, trivial⟩

theorem RingWords.any : RingWords AnyWord := ⟨fun _ => trivial, fun _ => trivial⟩

theorem StageWords.any : StageWords AnyWord := ⟨.any, trivial, trivial⟩

theorem ResultWords.any : ResultWords AnyWord := ⟨.any, trivial, trivial, trivial⟩

theorem CasWords.any : CasWords AnyWord := ⟨.any, fun _ _ _ => trivial⟩

theorem LaneWords.any : LaneWords AnyWord := ⟨.any, fun _ _ _ => trivial, fun _ _ _ => trivial, fun _ _ _ => trivial⟩

theorem FiringWords.any : FiringWords AnyWord := fun _ _ => trivial

/-! ### Doorbell reads (R327 to R333) -/

theorem PartFrame.queueJob (s : State) (j : PkeJob) : PartFrame [.regs, .pke] s (s.queueJob j) :=
  .trans (.mono (.pke s _)) (.setQueuePke _ _)

theorem PartFrame.fetchJob (s : State) (n : Nat) (d : Desc) (rec_ input : Option Bytes) :
    PartFrame keyJobParts s (s.fetchJob n d rec_ input) := by
  unfold State.fetchJob
  split
  · rename_i r i
    extract_lets j
    split
    · extract_lets t u
      have denied : PartFrame keyJobParts s t := .ite (.mono (.inc s _)) (.refl _ s)
      exact .step (.ite (.step denied (.journalKeyOp t _ _ _ _)) denied) (.finishJob u j _ 0 [] 0xFF 0)
    · exact .mono (.queueJob s j)
  · exact .mono (.endJob s n _ 0x41 0)

theorem PartFrame.fetchDesc (s : State) (n : Nat) (x : FetchedDesc) : PartFrame keyJobParts s (s.fetchDesc n x) := by
  unfold State.fetchDesc
  extract_lets k d t
  have listed : PartFrame keyJobParts s t := .step (.mono (.setRing s n _)) (.wr _ _ _)
  have started := PartFrame.startWork t n
  split
  · generalize t.startWork n = q at started ⊢
    obtain ⟨_ | e, u⟩ := q
    · exact .step listed started
    · exact .ite (.step (.step listed started) (.endJob u n _ 0xB 0)) (.trans (.step listed started) (.fetchJob u n e _ _))
  · exact .step listed (.settleBad t n)

theorem PartFrame.setRingState (s : State) (n st reason : Nat) : PartFrame reportParts s (s.setRingState n st reason) :=
  (Frame.setRingState trivial .any trivial s st reason).parts

theorem PartFrame.ringError (s : State) (n reason : Nat) : PartFrame reportParts s (s.ringError n reason) :=
  .ite (.setRingState s n 3 reason) (.refl _ s)

theorem PartFrame.fetchAll (n : Nat) (failed : Bool) : ∀ (l : List FetchedDesc) (s : State), PartFrame keyJobParts s (s.fetchAll n failed l)
  | [], s => .ite (.mono (.ringError s n 0x42)) (.refl _ s)
  | x :: l, s => .ite ((PartFrame.fetchDesc s n x).trans (PartFrame.fetchAll n failed l _)) (.refl _ s)

theorem PartFrame.doorbellWord (s : State) (w : DoorbellWord) : PartFrame keyJobParts s (s.doorbellWord w) := by
  unfold State.doorbellWord
  extract_lets n used ahead t u
  have fetched : PartFrame keyJobParts s u := .step (.trans (.mono (.setRing s n _)) (.fetchAll n _ _ t)) (.showRing _ n)
  exact .ite (.refl _ s) (.ite (.mono (.ringError s n 0x40)) (.ite (.mono (.ringError s n 0x41))
    (.ite (.step fetched (.pumpJournal u)) (.ite fetched (.step fetched (.drainRing u n))))))

theorem PartFrame.doorbellDone (s : State) (words : Option (List DoorbellWord)) : PartFrame keyJobParts s (s.doorbellDone words) := by
  unfold State.doorbellDone
  extract_lets t again h u
  have read : PartFrame keyJobParts s t := by
    unfold t
    split
    · exact .step (.step (.mono (.inc s _)) (.raise _ _ _)) (.setBit _ _ _ _)
    · exact .trans (.mono (.setBit s _ _ _)) (.each (fun w v => .doorbellWord v w) _ _)
  exact .ite (.refl _ s) (.stepWhen (.step read (.hif t _)) (.triggerRead u))

/-! ### The obligation -/

/-- A command changes at most what the operation that is its effect may change, whatever registers it writes. -/
theorem changesOnly_any {c : Instr} {l m : List Part} {f : State → State} (w : Bool) (dt : Nat) (frame : ∀ s, Frame m AnyWord s (f s))
    (command : ∀ s, exec c s = afterIf w dt s f := by exact fun _ => rfl) (within : m ⊆ l := by decide) : ChangesOnly c l :=
  changesOnly_frame w dt (fun s => (frame s).parts) command within

/-- A command on a lane changes at most what the operation that is its effect may change. -/
theorem changesOnly_lane {c : Instr} {l m : List Part} {f : State → State} {lane dt : Nat}
    (frame : lane < 8 → ∀ s, Frame m AnyWord s (f s))
    (command : ∀ s, exec c s = afterIf (decide (lane < 8)) dt s f := by exact fun _ => rfl) (within : m ⊆ l := by decide) :
    ChangesOnly c l := changesOnly_bounded (fun known s => (frame (of_decide_eq_true known) s).parts) command within

/-- A command of a session changes at most what its message may change. -/
theorem changesOnly_session {c : Instr} {l m : List Part} {f : State → State} {i dt : Nat} (frame : ∀ s, Frame m AnyWord s (f s))
    (command : ∀ s, exec c s = afterIf (decide (1 ≤ i) && decide (i < 5)) dt s f := by exact fun _ => rfl)
    (within : m ⊆ l := by decide) : ChangesOnly c l := changesOnly_frame _ dt (fun s => (frame s).parts) command within

/-- An operation of the cascade at its instant changes at most what it may change once the entries due before it have fired. -/
theorem changesAfter_cas {c : Instr} {l m : List Part} {f : State → State} {dt : Nat} (frame : ∀ s, Frame m AnyWord s (f s))
    (command : ∀ s, exec c s = afterIf true dt s (fun t => f (t.inOrder isCasOp)) := by exact fun _ => rfl)
    (within : m ⊆ l := by decide) : ChangesAfter (fun s => (s.advance dt).inOrder isCasOp) c l :=
  changesAfter_of true dt (fun u => u.inOrder isCasOp) f command (fun s => (frame s).parts.mono within)

/-- Settles O39: each command's effect is an operation whose frame is one of the lemmas above. -/
theorem systemFrames : Obligations.SystemFrames := by
  unfold Obligations.SystemFrames
  refine ⟨fun dt => ?kick, fun dt words => ?doorbellReadDone, fun dt n data => ?hostFrameTx, fun dt => ?hostFrameTimeout,
    fun dt n => ?recordFlush, fun dt n data ok checked => ?xfer, fun dt v => ?vectorTimer, fun dt => ?blockEventCoalesce,
    fun dt n => ?ringQuiesced, fun dt speed width => ?pcieLinkUp, fun dt => ?pcieRetrain, fun dt => ?journalFlashWrite,
    fun dt fp proof issuers nb na => ?sessionOpen, fun dt i => ?sessionIdle, fun dt i alert => ?sessionClosed,
    fun dt i type m => ?celenHello, fun dt i m => ?celenRead, fun dt i m => ?celenRead64, fun dt i m => ?celenSubscribe,
    fun dt i m => ?celenUnsubscribe, fun dt i m => ?journalRead, fun dt i m checked => ?celenStage, fun dt i m => ?celenNet,
    fun dt i m => ?celenTrust, fun dt i m => ?celenBye, fun dt i sense => ?inputQualified, fun dt i sense => ?inputLost,
    fun dt => ?kaLost, fun dt => ?stabilityReached, fun dt ends => ?watchdog, fun dt sense => ?thermWarn,
    fun dt => ?alarmConditionChange, fun dt c => ?alarmCloseTimer, fun dt => ?noSelectionTimer, fun dt => ?casLinkTick,
    fun dt l frame ago fec => ?linkFrameRx, fun dt l frame => ?opReqRx, fun dt l frame => ?opRx, fun dt => ?casBarrier,
    fun dt => ?casBroadcast, fun dt => ?casSnapshot, fun dt l frame => ?resultRx, fun dt => ?resultDeadline,
    fun dt l frame => ?doneRx, fun dt => ?requestTimeout, fun dt src l => ?thetaLoLaneRead, fun dt src => ?opResult0Read⟩
  case kick =>
    exact changesAfter_of true dt State.dueFirst State.kick (fun _ => rfl) (fun s => (Frame.kick (W := AnyWord) s trivial trivial).parts)
  case doorbellReadDone => exact changesOnly_frame true dt (fun s => .doorbellDone s words)
  case hostFrameTx =>
    exact changesOnly_any (decide (n < 256)) dt (fun s => .hostFrame trivial trivial (fun _ _ => trivial) s data)
  case hostFrameTimeout => exact changesOnly_any true dt (fun s => .hostFrameTimeout .any s)
  case recordFlush => exact changesOnly_any (decide (n < 256)) dt (fun s => .recordFlush trivial trivial s)
  case xfer =>
    cases checked with
    | none => exact changesOnly_any (decide (n < 256)) dt (fun s => .xfer .any .any s n data ok)
    | some flashOk => exact changesOnly_any (decide (n < 256)) dt (fun s => .xferChecked .any .any s flashOk)
  case vectorTimer => exact changesOnly_any (decide (v < 64)) dt (fun s => .vectorTimer s v)
  case blockEventCoalesce => exact changesOnly_any true dt (fun s => .coalesceEnd .any s)
  case ringQuiesced => exact changesOnly_any (decide (n < 256)) dt (fun s => .ringIdle trivial .any trivial s)
  case pcieLinkUp => exact changesOnly_any true dt (fun s => .pcieUp .any trivial s speed width)
  case pcieRetrain => exact changesOnly_any true dt (fun s => .pcieRetrain s)
  case journalFlashWrite => exact changesOnly_any true dt (fun s => .journalFlash .any trivial trivial s)
  case sessionOpen => exact changesOnly_any true dt (fun s => .sessionOpen .any s fp proof issuers nb na)
  case sessionIdle => exact changesOnly_session (fun s => .sessionIdle .any s i)
  case sessionClosed => exact changesOnly_session (fun s => .endSession .any s i _)
  case celenHello => exact changesOnly_session (fun s => .hello s i type m)
  case celenRead => exact changesOnly_frame (decide (1 ≤ i) && decide (i < 5)) dt (fun s => .mpRead s i m)
  case celenRead64 => exact changesOnly_frame (decide (1 ≤ i) && decide (i < 5)) dt (fun s => .mpRead64 s i m)
  case celenSubscribe => exact changesOnly_session (fun s => .mpSubscribe s i m)
  case celenUnsubscribe => exact changesOnly_session (fun s => .mpUnsubscribe s i m)
  case journalRead => exact changesOnly_session (fun s => .mpJournal s i m)
  case celenStage =>
    cases checked with
    | none => exact changesOnly_session (fun s => .mpStage .any s i m)
    | some flashOk => exact changesOnly_session (fun s => .mpStaged .any s flashOk)
  case celenNet => exact changesOnly_session (fun s => .mpNet s i m)
  case celenTrust => exact changesOnly_session (fun s => .mpTrust .any s i m)
  case celenBye => exact changesOnly_session (fun s => .mpBye .any s i m)
  case inputQualified =>
    exact changesOnly_any (m := .pwr :: reportParts) (decide (i < 4)) dt (fun s =>
      .step (.mono (.showSense (fun _ _ => trivial) s sense)) (.inputQualified .any (fun _ _ => trivial) trivial trivial _ i))
  case inputLost =>
    exact changesOnly_any (m := .pwr :: reportParts) (decide (i < 4)) dt (fun s =>
      .step (.mono (.showSense (fun _ _ => trivial) s sense)) (.inputLost .any (fun _ _ => trivial) trivial trivial _ i))
  case kaLost =>
    exact changesOnly_any true dt (fun s => .kaLost trivial trivial (fun _ _ => trivial) (fun _ _ _ _ => trivial) trivial trivial s)
  case stabilityReached => exact changesOnly_any true dt (fun s => .stabilityReached .any (fun _ _ => trivial) s)
  case watchdog =>
    cases ends with
    | none => exact changesOnly_any true dt (fun s => .mgmtBegin .any (fun _ _ _ => trivial) s 1)
    | some ok => exact changesOnly_any true dt (fun s => .mgmtEnd .any (fun _ _ _ => trivial) trivial s ok)
  case thermWarn =>
    exact changesOnly_any true dt (fun s => .thermReached .any (fun _ _ => trivial) trivial trivial s sense)
  case alarmConditionChange => exact changesOnly_any true dt (fun s => .alarmChange trivial s)
  case alarmCloseTimer => exact changesOnly_any (decide (c < 2)) dt (fun s => .alarmClose trivial s c)
  case noSelectionTimer => exact changesOnly_any true dt (fun s => .noSelection trivial s)
  case casLinkTick =>
    exact changesAfter_of true dt (fun u => u.inOrder (fun e => decide (e.action = 0x17) && decide (e.arg % 256 = 0))) State.linkTick
      (fun _ => rfl) (fun s => (Frame.linkTick .any .any s).parts.mono)
  case linkFrameRx => exact changesOnly_lane (fun lane s => .linkIn .any lane s frame ago fec)
  case opReqRx => exact changesOnly_lane (fun lane s => .opReqRx .any lane .any s frame)
  case opRx => exact changesOnly_lane (fun lane s => .opRx .any lane .any s frame)
  case casBarrier => exact changesAfter_cas (fun s => .barrier .any .any s)
  case casBroadcast => exact changesAfter_cas (fun s => .broadcast .any .any s)
  case casSnapshot => exact changesAfter_cas (fun s => .casSnapshot .any .any s (fun _ _ _ => trivial) (fun _ _ _ => trivial))
  case resultRx => exact changesOnly_lane (fun lane s => .resultRx .any lane s frame)
  case resultDeadline => exact changesOnly_any true dt (fun s => .resultDeadline .any s)
  case doneRx => exact changesOnly_lane (fun lane s => .doneRx .any lane s frame)
  case requestTimeout => exact changesOnly_any true dt (fun s => .requestTimeout .any s)
  case thetaLoLaneRead => exact changesOnly_busRead (decide (src < 5) && decide (l < 8)) dt src _ _ (fun _ => rfl)
  case opResult0Read => exact changesOnly_busRead (decide (src < 5)) dt src _ _ (fun _ => rfl)

end Sys2Proof.Machine
end

section
/-!
SUPPORT. O40: the registers that the commands of host queues, sessions, supplies and lanes write.
-/

set_option Elab.async false

namespace Sys2Proof.Machine

/-! ### The registers that a clause names -/

section
variable {l : Nat → List Nat}

theorem named_word {a : Nat} (h : ∀ k, a ∈ l k) : Named l a := ⟨0, h 0⟩

theorem named_span {lo hi : Nat} (h : ∀ k, span lo hi k ∈ l k) (a : Nat) (low : lo ≤ a) (high : a < hi) : Named l a := by
  refine ⟨a - lo, ?_⟩
  have covered : span lo hi (a - lo) = a := by
    unfold span
    rw [Nat.mod_eq_of_lt (by omega)]
    omega
  have listed := h (a - lo)
  rwa [covered] at listed

theorem Reports.named (h : ∀ k, reportWords k ⊆ l k) : Reports (Named l) where
  hifEvent := named_word (fun k => h k (by simp))
  evtDrop := named_word (fun k => h k (by simp))
  posted n ring := ⟨n, h n (by simp [Nat.mod_eq_of_lt ring])⟩

theorem Journals.named (h : ∀ k, journalWords k ⊆ l k) : Journals (Named l) where
  toReports := .named (fun k => List.Subset.trans (List.subset_append_right _ _) (h k))
  seq := named_word (fun k => h k (by simp))
  lost := named_word (fun k => h k (by simp))
  glbEvent := named_word (fun k => h k (by simp))

theorem Faults.named (h : ∀ k, faultWords k ⊆ l k) : Faults (Named l) where
  toJournals := .named (fun k => List.Subset.trans (List.subset_append_right _ _) (h k))
  faultSeq := named_word (fun k => h k (by simp))
  overwrite := named_word (fun k => h k (by simp))
  entries k entry := ⟨k, h k (by simp [Nat.mod_eq_of_lt entry])⟩

theorem RingWords.named (h : ∀ k, ringWords k ⊆ l k) : RingWords (Named l) where
  posted n := ⟨n, h n (by simp)⟩
  state n := ⟨n, h n (by simp)⟩

theorem CasWords.named (reports : ∀ k, reportWords k ⊆ l k) (cas : ∀ k, span 0x80000 0x90000 k ∈ l k) : CasWords (Named l) :=
  ⟨.named reports, named_span cas⟩

theorem LaneWords.named (journals : ∀ k, journalWords k ⊆ l k) (cas : ∀ k, span 0x80000 0x90000 k ∈ l k)
    (cmac : ∀ k, span 0x48000 0x50000 k ∈ l k) (ref : ∀ k, span 0x14000 0x18000 k ∈ l k) : LaneWords (Named l) :=
  ⟨.named journals, named_span cas, named_span cmac, named_span ref⟩

theorem FiringWords.named (tsc : ∀ k, span 0x10000 0x14000 k ∈ l k) : FiringWords (Named l) := fun a m =>
  named_span tsc a (by fin_cases m <;> decide) (by fin_cases m <;> decide)

end

/-- The words of a frame on a lane. -/
theorem laneWords_named : LaneWords (Named (fun k => [span 0x80000 0x90000 k, span 0x48000 0x50000 k, span 0x14000 0x18000 k] ++ journalWords k)) :=
  .named (fun _ => List.subset_append_right _ _) (fun _ => by simp) (fun _ => by simp) (fun _ => by simp)

/-- The words of an operation that comes on a lane and gets its entry of the calendar. -/
abbrev entryWords (k : Nat) : List Nat :=
  [span 0x80000 0x90000 k, span 0x48000 0x50000 k, span 0x14000 0x18000 k, span 0x10000 0x14000 k] ++ journalWords k

theorem laneWords_entry : LaneWords (Named entryWords) :=
  .named (fun _ => List.subset_append_right _ _) (fun _ => by simp) (fun _ => by simp) (fun _ => by simp)

theorem firingWords_entry : FiringWords (Named entryWords) := .named (fun _ => by simp)

/-! ### Commands -/

/-- A command writes at most the registers that the operation that is its effect may write. -/
theorem writesOnly_any {c : Instr} {l : Nat → List Nat} {ps : List Part} {f : State → State} (w : Bool) (dt : Nat)
    (frame : ∀ s, Frame ps (Named l) s (f s)) (command : ∀ s, exec c s = afterIf w dt s f := by exact fun _ => rfl) : WritesOnly c l :=
  writesOnly_frame w dt (fun s => (frame s).words) command

/-- So does a command on a lane. -/
theorem writesOnly_lane {c : Instr} {l : Nat → List Nat} {ps : List Part} {f : State → State} {lane dt : Nat}
    (frame : lane < 8 → ∀ s, Frame ps (Named l) s (f s))
    (command : ∀ s, exec c s = afterIf (decide (lane < 8)) dt s f := by exact fun _ => rfl) : WritesOnly c l :=
  writesOnly_bounded (fun known s => (frame (of_decide_eq_true known) s).words) command

/-- And a command of a session. -/
theorem writesOnly_session {c : Instr} {l : Nat → List Nat} {ps : List Part} {f : State → State} {i dt : Nat}
    (frame : ∀ s, Frame ps (Named l) s (f s))
    (command : ∀ s, exec c s = afterIf (decide (1 ≤ i) && decide (i < 5)) dt s f := by exact fun _ => rfl) : WritesOnly c l :=
  writesOnly_any _ dt frame command

/-- An operation of the cascade at its instant, from the state in which the entries due before it have fired. -/
theorem writesAfter_cas {c : Instr} {l : Nat → List Nat} {ps : List Part} {f : State → State} {dt : Nat}
    (frame : ∀ s, Frame ps (Named l) s (f s))
    (command : ∀ s, exec c s = afterIf true dt s (fun t => f (t.inOrder isCasOp)) := by exact fun _ => rfl) :
    WritesAfter (fun s => (s.advance dt).inOrder isCasOp) c l :=
  writesAfter_frame dt (fun u => u.inOrder isCasOp) (fun s => (frame s).words) (fun _ canonical => inOrder_canonical canonical dt _) command

/-- Settles O40: each command's effect is an operation whose frame is one of the lemmas above, and the clause names its registers. -/
theorem systemRegisterFrames : Obligations.SystemRegisterFrames := by
  unfold Obligations.SystemRegisterFrames
  refine ⟨fun dt => ?kick, fun dt n data => ?hostFrameTx, fun dt => ?hostFrameTimeout, fun dt n => ?recordFlush,
    fun dt v => ?vectorTimer, fun dt => ?blockEventCoalesce, fun dt n => ?ringQuiesced, fun dt speed width => ?pcieLinkUp,
    fun dt => ?pcieRetrain, fun dt => ?journalFlashWrite, fun dt fp proof issuers nb na => ?sessionOpen, fun dt i => ?sessionIdle,
    fun dt i alert => ?sessionClosed, fun dt i type m => ?celenHello, fun dt i m => ?celenSubscribe, fun dt i m => ?celenUnsubscribe,
    fun dt i m => ?journalRead, fun dt i m checked => ?celenStage, fun dt i m => ?celenNet, fun dt i m => ?celenTrust,
    fun dt i m => ?celenBye, fun dt i sense => ?inputQualified, fun dt i sense => ?inputLost, fun dt => ?kaLost,
    fun dt => ?stabilityReached, fun dt ends => ?watchdog, fun dt sense => ?thermWarn, fun dt => ?alarmConditionChange,
    fun dt c => ?alarmCloseTimer, fun dt => ?noSelectionTimer, fun dt => ?casLinkTick, fun dt l frame ago fec => ?linkFrameRx,
    fun dt l frame => ?opReqRx, fun dt l frame => ?opRx, fun dt => ?casBarrier, fun dt => ?casBroadcast, fun dt => ?casSnapshot,
    fun dt l frame => ?resultRx, fun dt => ?resultDeadline, fun dt l frame => ?doneRx, fun dt => ?requestTimeout,
    fun dt src l => ?thetaLoLaneRead, fun dt src => ?opResult0Read⟩
  case kick =>
    exact writesAfter_frame dt State.dueFirst (fun s => (Frame.kick s (named_word (by simp)) (named_word (by simp))).words)
      (fun _ canonical => dueFirst_canonical canonical dt)
  case hostFrameTx =>
    have rings : RingWords (Named (fun k => [A.macLinkTooLong (k % 8)] ++ ringWords k)) := .named (fun _ => List.subset_append_right _ _)
    exact writesOnly_any (decide (n < 256)) dt (fun s => .hostFrame (rings.posted n) (rings.state n)
      (fun sl link => ⟨sl, by simp [Nat.mod_eq_of_lt link]⟩) s data)
  case hostFrameTimeout => exact writesOnly_any true dt (fun s => .hostFrameTimeout (.named (fun _ => List.Subset.refl _)) s)
  case recordFlush => exact writesOnly_any (decide (n < 256)) dt (fun s => .recordFlush (n := n) (named_word (by simp)) (named_word (by simp)) s)
  case vectorTimer => exact writesOnly_any (decide (v < 64)) dt (fun s => .vectorTimer s v)
  case blockEventCoalesce => exact writesOnly_any true dt (fun s => .coalesceEnd (.named (fun _ => List.Subset.refl _)) s)
  case ringQuiesced =>
    exact writesOnly_any (decide (n < 256)) dt (fun s => .ringIdle (n := n) (named_word (by simp)) (.named (fun _ => List.subset_append_right _ _))
      (named_word (by simp)) s)
  case pcieLinkUp =>
    exact writesOnly_any true dt (fun s => .pcieUp (.named (fun _ => List.subset_append_right _ _)) (named_word (by simp)) s speed width)
  case pcieRetrain => exact writesOnly_any true dt (fun s => .pcieRetrain s)
  case journalFlashWrite =>
    exact writesOnly_any true dt (fun s => .journalFlash (.named (fun _ => List.subset_append_right _ _)) (named_word (by simp))
      (named_word (by simp)) s)
  case sessionOpen => exact writesOnly_any true dt (fun s => .sessionOpen (.named (fun _ => List.Subset.refl _)) s fp proof issuers nb na)
  case sessionIdle => exact writesOnly_session (fun s => .sessionIdle (.named (fun _ => List.Subset.refl _)) s i)
  case sessionClosed => exact writesOnly_session (fun s => .endSession (.named (fun _ => List.Subset.refl _)) s i _)
  case celenHello => exact writesOnly_session (fun s => .hello s i type m)
  case celenSubscribe => exact writesOnly_session (fun s => .mpSubscribe s i m)
  case celenUnsubscribe => exact writesOnly_session (fun s => .mpUnsubscribe s i m)
  case journalRead => exact writesOnly_session (fun s => .mpJournal s i m)
  case celenStage =>
    have staged : StageWords (Named (fun k => [A.bootRecFlags, A.gnsSnapStatus] ++ journalWords k)) :=
      ⟨.named (fun _ => List.subset_append_right _ _), named_word (by simp), named_word (by simp)⟩
    cases checked with
    | none => exact writesOnly_session (fun s => .mpStage staged s i m)
    | some flashOk => exact writesOnly_session (fun s => .mpStaged staged s flashOk)
  case celenNet => exact writesOnly_session (fun s => .mpNet s i m)
  case celenTrust => exact writesOnly_session (fun s => .mpTrust (.named (fun _ => List.Subset.refl _)) s i m)
  case celenBye => exact writesOnly_session (fun s => .mpBye (.named (fun _ => List.Subset.refl _)) s i m)
  case inputQualified =>
    have sensed : ∀ a ∈ senseWords, Named (fun k => senseWords ++ [A.pwrEvent, A.pwrDomState] ++ reportWords k) a := fun a m =>
      named_word (fun k => by simp [m])
    exact writesOnly_any (ps := .pwr :: reportParts) (decide (i < 4)) dt (fun s => .step (.mono (.showSense sensed s sense))
      (.inputQualified (.named (fun _ => List.subset_append_right _ _)) sensed (named_word (by simp)) (named_word (by simp)) _ i))
  case inputLost =>
    have sensed : ∀ a ∈ senseWords, Named (fun k => senseWords ++ [A.pwrEvent, A.pwrInputLoss] ++ reportWords k) a := fun a m =>
      named_word (fun k => by simp [m])
    exact writesOnly_any (ps := .pwr :: reportParts) (decide (i < 4)) dt (fun s => .step (.mono (.showSense sensed s sense))
      (.inputLost (.named (fun _ => List.subset_append_right _ _)) sensed (named_word (by simp)) (named_word (by simp)) _ i))
  case kaLost =>
    exact writesOnly_any true dt (fun s => .kaLost (named_word (by simp)) (named_word (by simp))
      (fun a side => ⟨a, by simp [Nat.mod_eq_of_lt side]⟩)
      (fun a side i word => ⟨2 * i + a, by
        simp [show (2 * i + a) % 2 = a by omega, show (2 * i + a) / 2 % 640 = i by omega]⟩)
      (named_word (by simp)) (named_word (by simp)) s)
  case stabilityReached =>
    exact writesOnly_any true dt (fun s => .stabilityReached (.named (fun _ => List.subset_append_right _ _))
      (fun a m => named_word (fun _ => List.mem_append_left _ m)) s)
  case watchdog =>
    have journals : Journals (Named (fun k => [span 0xA000 0xC000 k, span 0x8000 0xA000 k] ++ journalWords k)) :=
      .named (fun _ => List.subset_append_right _ _)
    have boot := named_span (l := fun k => [span 0xA000 0xC000 k, span 0x8000 0xA000 k] ++ journalWords k) (lo := 0xA000) (hi := 0xC000)
      (fun _ => by simp)
    have pwr := named_span (l := fun k => [span 0xA000 0xC000 k, span 0x8000 0xA000 k] ++ journalWords k) (lo := 0x8000) (hi := 0xA000)
      (fun _ => by simp)
    cases ends with
    | none => exact writesOnly_any true dt (fun s => .mgmtBegin journals boot s 1)
    | some ok => exact writesOnly_any true dt (fun s => .mgmtEnd journals boot (pwr _ (by decide) (by decide)) s ok)
  case thermWarn =>
    have sensed : ∀ a ∈ senseWords, Named (fun k => senseWords ++ [A.pwrEvent, A.pwrThermWarns] ++ reportWords k) a := fun a m =>
      named_word (fun k => by simp [m])
    exact writesOnly_any true dt (fun s => .thermReached (.named (fun _ => List.subset_append_right _ _)) sensed (named_word (by simp))
      (named_word (by simp)) s sense)
  case alarmConditionChange => exact writesOnly_any true dt (fun s => .alarmChange (named_word (by simp)) s)
  case alarmCloseTimer => exact writesOnly_any (decide (c < 2)) dt (fun s => .alarmClose (named_word (by simp)) s c)
  case noSelectionTimer => exact writesOnly_any true dt (fun s => .noSelection (named_word (by simp)) s)
  case casLinkTick =>
    exact writesAfter_frame dt (fun u => u.inOrder (fun e => decide (e.action = 0x17) && decide (e.arg % 256 = 0)))
      (fun s => (Frame.linkTick laneWords_entry firingWords_entry s).words) (fun _ canonical => inOrder_canonical canonical dt _)
  case linkFrameRx => exact writesOnly_lane (fun lane s => .linkIn laneWords_named lane s frame ago fec)
  case opReqRx => exact writesOnly_lane (fun lane s => .opReqRx laneWords_entry lane firingWords_entry s frame)
  case opRx => exact writesOnly_lane (fun lane s => .opRx laneWords_entry lane firingWords_entry s frame)
  case casBarrier =>
    exact writesAfter_cas (fun s => .barrier (.named (fun _ => List.subset_append_right _ _) (fun _ => by simp)) (.named (fun _ => by simp)) s)
  case casBroadcast =>
    exact writesAfter_cas (fun s => .broadcast (.named (fun _ => List.subset_append_right _ _) (fun _ => by simp)) (.named (fun _ => by simp)) s)
  case casSnapshot =>
    exact writesAfter_cas (fun s => .casSnapshot (.named (fun _ => List.subset_append_right _ _) (fun _ => by simp))
      (.named (fun _ => by simp)) s (named_span (fun _ => by simp)) (named_span (fun _ => by simp)))
  case resultRx => exact writesOnly_lane (fun lane s => .resultRx laneWords_named lane s frame)
  case resultDeadline =>
    exact writesOnly_any true dt (fun s => .resultDeadline ⟨.named (fun _ => List.subset_append_right _ _), named_word (by simp),
      named_word (by simp), named_word (by simp)⟩ s)
  case doneRx => exact writesOnly_lane (fun lane s => .doneRx laneWords_named lane s frame)
  case requestTimeout =>
    exact writesOnly_any true dt (fun s => .requestTimeout ⟨.named (fun _ => List.subset_append_right _ _), named_word (by simp),
      named_word (by simp), named_word (by simp)⟩ s)
  case thetaLoLaneRead =>
    have cmac := named_span (l := fun k => [span 0x48000 0x50000 k] ++ faultWords k) (lo := 0x48000) (hi := 0x50000) (fun _ => by simp)
    have plain : ∀ l < 8, refreshes (A.cmacLaneThetaLo l) = false := by decide +kernel
    refine writesOnly_bounded (w := decide (src < 5) && decide (l < 8)) (f := fun t => t.busRead (srcOf src) (A.cmacLaneThetaLo l) [15])
      (fun known s => ?_)
    have lane : l < 8 := by simp only [Bool.and_eq_true, decide_eq_true_eq] at known; exact known.2
    have words : ∀ base, 0x48440 ≤ base → base < 0x48450 → Named _ (base + 0x100 * l) := fun base low high =>
      cmac _ (by omega) (by omega)
    exact .busRead (.named (fun _ => List.subset_append_right _ _)) s _ (plain l lane) (words 0x48440 (by decide) (by decide))
      (cmac _ (by unfold A.cmacLaneThetaLo; omega) (by unfold A.cmacLaneThetaLo; omega))
      (.latchLane s lane (fun a m => by
        fin_cases m
        · exact words 0x48444 (by decide) (by decide)
        · exact words 0x48448 (by decide) (by decide)
        · exact words 0x4844c (by decide) (by decide)))
  case opResult0Read =>
    have cas := named_span (l := fun k => [span 0x80000 0x90000 k] ++ faultWords k) (lo := 0x80000) (hi := 0x90000) (fun _ => by simp)
    exact writesOnly_frame (decide (src < 5)) dt (fun s => .busRead (.named (fun _ => List.subset_append_right _ _)) s _ (by decide +kernel)
      (cas _ (by decide) (by decide)) (cas _ (by decide) (by decide))
      (.latchResult s (fun i low => cas _ (by unfold A.casOpResult; omega) (by unfold A.casOpResult; omega))))

end Sys2Proof.Machine
end

section
/-!
SUPPORT. What posting, reporting and recording leave of block HIF: its registers beside the rings' counts, and its state.
-/

set_option Elab.async false

namespace Sys2Proof.Machine

/-! ### Registers beside those of a report -/

/-- Reports and records keep a register of block HIF below the rings' counts that is neither EVENT nor EVT_DROP. -/
theorem journals_beside {a : Nat} (low : 0x4000 ≤ a) (high : a < 0x7000) (event : A.hifEvent ≠ a) (drop : A.hifEvtDrop ≠ a) :
    Journals (· ≠ a) where
  hifEvent := event
  evtDrop := drop
  posted n _ := by unfold A.hifRingPosted; omega
  seq := by unfold A.glbJournalSeq; omega
  lost := by unfold A.glbJournalLost; omega
  glbEvent := by unfold A.glbEvent; omega

/-- POSTED of a ring is none of the registers below the rings' counts. -/
theorem hifRingPosted_ne {a : Nat} (high : a < 0x7000) (n : Nat) : A.hifRingPosted n ≠ a := by unfold A.hifRingPosted; omega

/-! ### Lists of operations -/

/-- Where every step keeps an invariant: a property of each index that its own step brings about and every step keeps holds of all of
them in the end. -/
theorem each_establishes {α : Type} {I : State → Prop} {P : α → State → Prop} {g : α → State → State} (inv : ∀ y t, I t → I (g y t))
    (own : ∀ x t, I t → P x (g x t)) (kept : ∀ x y t, I t → P x t → P x (g y t)) (xs : List α) (s : State) (start : I s)
    {x : α} (m : x ∈ xs) :
    P x (s.each xs g) := by
  induction xs generalizing s with
  | nil => exact absurd m List.not_mem_nil
  | cons y ys ih =>
    rcases List.mem_cons.mp m with rfl | later
    · exact (each_invariant (P := fun t => I t ∧ P x t) (fun y t h => ⟨inv y t h.1, kept x y t h.1 h.2⟩) ys _
        ⟨inv x s start, own x s start⟩).2
    · exact ih (g y s) (inv y s start) later

/-! ### The state of block HIF -/

section
variable {α : Type}

/-- An operation leaves what `p` reads of block HIF as it was. -/
def HifKept (p : Hif → α) (s t : State) : Prop := p t.hif = p s.hif

/-- `p` reads nothing that a post changes: POSTED of a ring and the vectors. -/
structure OutsidePosts (p : Hif → α) : Prop where
  posted : ∀ h n k, p { h with rings := modAt h.rings n (fun r => { r with posted := k }) } = p h
  vecs : ∀ h v, p { h with vecs := v } = p h

/-- Nor anything that a report changes: the coalescing windows. -/
structure OutsideReports (p : Hif → α) : Prop extends OutsidePosts p where
  windows : ∀ h c, p { h with coalesce := c } = p h

/-- Nor anything of a ring. -/
structure OutsideRings (p : Hif → α) : Prop extends OutsideReports p where
  rings : ∀ h r, p { h with rings := r } = p h

namespace HifKept

variable {p : Hif → α} {s t u : State}

theorem refl (p : Hif → α) (s : State) : HifKept p s s := rfl

theorem trans (h : HifKept p s t) (k : HifKept p t u) : HifKept p s u := Eq.trans k h

theorem of_parts {ps : List Part} (h : PartFrame ps s t) (apart : Part.hif ∉ ps := by decide) : HifKept p s t := congrArg p (h .hif apart)

/-- An operation on block HIF's state, then another. -/
theorem of_hif {x : Hif} (h : p x = p s.hif) (k : HifKept p { s with hif := x } u) : HifKept p s u := Eq.trans k h

theorem ite {c : Prop} [Decidable c] (h : HifKept p s t) (k : HifKept p s u) : HifKept p s (if c then t else u) := by
  split <;> assumption

theorem each {β : Type} {g : β → State → State} (h : ∀ x t, HifKept p t (g x t)) (xs : List β) (s : State) : HifKept p s (s.each xs g) :=
  each_invariant (P := HifKept p s) (fun x t k => k.trans (h x t)) xs s (.refl p s)

section
variable (o : OutsidePosts p)
include o

theorem sendVec (s : State) (v : Nat) : HifKept p s (s.sendVec v) := .ite (o.vecs s.hif _) (o.vecs s.hif _)

theorem pendItem (s : State) (n : Nat) : HifKept p s (s.pendItem n) := by
  unfold State.pendItem
  exact .ite (.ite (.of_hif (o.vecs s.hif _) (.sendVec o _ _)) (o.vecs s.hif _)) (.refl p s)

theorem bumpPosted (s : State) (n : Nat) : HifKept p s (s.bumpPosted n) := o.posted s.hif n _

/-- An entry written to a ring in host memory, POSTED, and the message of the ring's vector (R331, R343). -/
theorem posting (s : State) (a : Nat) (d : Bytes) (n : Nat) : HifKept p s (((s.hostWrite a d).bumpPosted n).pendItem n) :=
  .trans (.trans (.of_parts (.hostWrite s a d)) (.bumpPosted o _ n)) (.pendItem o _ n)

theorem postCompletion (s : State) (n slot status flags length : Nat) (user : Bytes) :
    HifKept p s (s.postCompletion n slot status flags length user) := .posting o s _ _ n

theorem postEvent (s : State) (type flags source stamp : Nat) (body : Bytes) :
    HifKept p s (s.postEvent type flags source stamp body) := by
  unfold State.postEvent
  split
  · exact .of_parts (.evtDropped s)
  · exact .ite (.of_parts (.evtDropped s)) (.posting o s _ _ _)

end

section
variable (o : OutsideReports p)
include o

theorem blockEvent (s : State) (dest reg : Nat) : HifKept p s (s.blockEvent dest reg) := by
  unfold State.blockEvent
  refine .ite (.of_hif (o.windows s.hif _) (.postEvent o.toOutsidePosts _ _ _ _ _ _)) ?_
  split
  · exact .of_hif (o.windows s.hif _) (.of_parts (.sendEventMsg _ _ _ _))
  · exact o.windows s.hif _

theorem noteEvent (s : State) (dest reg : Nat) : HifKept p s (s.noteEvent dest reg) := .ite (o.windows s.hif _) (.blockEvent o s dest reg)

theorem raise (s : State) (reg b : Nat) : HifKept p s (s.raise reg b) := by
  have bit : HifKept p s (s.raiseBit reg b) := .of_parts (.raiseBit s reg b)
  unfold State.raise
  refine .ite bit ((bit.trans (.ite (.noteEvent o _ 0 reg) (.refl p _))).trans (.each (fun i u => ?_) _ _))
  split
  · exact .ite (.noteEvent o u i reg) (.refl p u)
  · exact .refl p u

end

section
variable (o : OutsideRings p)
include o

theorem setRing (s : State) (n : Nat) (f : Ring → Ring) : HifKept p s (s.setRing n f) := o.rings s.hif _

theorem settleBad (s : State) (n : Nat) : HifKept p s (s.settleBad n) :=
  .ite (.trans (.setRing o s n _) (.each (fun _ u => .postCompletion o.toOutsidePosts u _ _ _ _ _ _) _ _))
    (.trans (.setRing o s n _) (.setRing o _ n _))

theorem drainRing (s : State) (n : Nat) : HifKept p s (s.drainRing n) :=
  .ite (.trans (.trans (.setRing o s n _) (.each (fun x u => .postCompletion o.toOutsidePosts u _ _ _ _ _ _) _ _))
    (.of_parts (.sfW _ _ _ _ _))) (.of_parts (.sfW _ _ _ _ _))

theorem flushBuffer (s : State) (n : Nat) : HifKept p s (s.flushBuffer n) := by
  unfold State.flushBuffer
  split
  · exact .refl p s
  · exact .trans (.trans (.setRing o s n _) (.postCompletion o.toOutsidePosts _ _ _ _ _ _ _)) (.settleBad o _ n)

theorem putRecord (s : State) (n : Nat) (d : Bytes) : HifKept p s (s.putRecord n d).1 := by
  have room : HifKept p s (s.makeRoom n d.length) := by
    unfold State.makeRoom
    split
    · exact .refl p s
    · exact .ite (.flushBuffer o s n) (.refl p s)
  unfold State.putRecord
  extract_lets t
  split
  · exact room
  · split
    · exact room.trans (.trans (.of_parts (.hostWrite t _ _)) (.setRing o _ n _))
    · exact room

theorem pumpJournal (s : State) : HifKept p s s.pumpJournal := by
  unfold State.pumpJournal
  split
  · exact .refl p s
  · rename_i n _
    refine List.foldlRecOn _ _ (.refl p s) (fun t k r _ => k.trans (.ite ?_ (.refl p t)))
    exact .ite (.trans (.putRecord o t n _) rfl) (.putRecord o t n _)

theorem journalize (s : State) (kind : Nat) (src : Source) (addr outcome : Nat) (body : Bytes) :
    HifKept p s (s.journalize kind src addr outcome body) := by
  unfold State.journalize
  have delivered : ∀ t : State, HifKept p t t.pumpJournal.streamJournal := fun t => .trans (.pumpJournal o t) (.of_parts (.streamJournal _))
  have counted : ∀ (t : State) n, HifKept p t ((t.count A.glbJournalLost n).raise A.glbEvent 4) := fun t n =>
    .trans (.of_parts (.count t _ _)) (.raise o.toOutsideReports _ _ _)
  refine Eq.trans (delivered _) ?_
  split
  · rfl
  · exact counted _ _

end
end HifKept

end

/-! ### What is read of a ring -/

section
variable {α : Type}

/-- What `q` reads of ring `n`. -/
abbrev ofRing (n : Nat) (q : Ring → α) (h : Hif) : α := q (h.rings.getD n Ring.off)

/-- A ring after a change of it, as far as a ring that is not there reads the same. -/
theorem ring_setRing {q : Ring → α} {f : Ring → Ring} (absent : q (f Ring.off) = q Ring.off) (s : State) (n : Nat) :
    q ((s.setRing n f).ring n) = q (f (s.ring n)) := by
  by_cases listed : n < s.hif.rings.length
  · exact congrArg q (getD_modAt f Ring.off _ _ listed)
  · have beyond : (modAt s.hif.rings n f).length ≤ n := by rw [length_modAt]; omega
    have before : s.ring n = Ring.off := List.getD_eq_default _ _ (by omega)
    have after : (s.setRing n f).ring n = Ring.off := List.getD_eq_default _ _ beyond
    rw [before, after, absent]

theorem modAt_getD_kept {q : Ring → α} {f : Ring → Ring} (same : ∀ r, q (f r) = q r) (l : List Ring) (n m : Nat) :
    q ((modAt l m f).getD n Ring.off) = q (l.getD n Ring.off) := by
  by_cases own : n = m
  · subst own
    by_cases listed : n < l.length
    · rw [getD_modAt f Ring.off _ _ listed, same]
    · rw [List.getD_eq_default _ _ (by rw [length_modAt]; omega), List.getD_eq_default _ _ (by omega)]
  · rw [getD_modAt_ne f Ring.off l own]

/-- `q` reads neither POSTED nor the started work. -/
structure OutsideWork (q : Ring → α) : Prop where
  posted : ∀ r k, q { r with posted := k } = q r
  started : ∀ r l, q { r with started := l } = q r

variable {q : Ring → α} (o : OutsideWork q) (n : Nat)
include o

theorem OutsideWork.reports : OutsideReports (ofRing n q) where
  posted h m k := modAt_getD_kept (fun r => o.posted r k) h.rings n m
  vecs _ _ := rfl
  windows _ _ := rfl

theorem HifKept.drainWork (s : State) (m : Nat) : HifKept (ofRing n q) s (s.drainRing m) := by
  unfold State.drainRing
  refine .ite (.trans (.trans (t := s.setRing m _) ?_ (.each (fun x u => ?_) _ _)) (.of_parts (.sfW _ _ _ _ _))) (.of_parts (.sfW _ _ _ _ _))
  · exact modAt_getD_kept (fun r => o.started r _) s.hif.rings n m
  · exact .postCompletion (o.reports n).toOutsidePosts u _ _ _ _ _ _

theorem HifKept.endWork (s : State) (m slot status length : Nat) : HifKept (ofRing n q) s (s.endWork m slot status length) :=
  .trans (t := s.setRing m _) (modAt_getD_kept (fun r => o.started r _) s.hif.rings n m) (.drainWork o n _ m)

/-- Bad descriptors that end at once change nothing else of the ring than what waits and what is started. -/
theorem HifKept.settleBad_ofRing (waiting : ∀ r l, q { r with waiting := l } = q r) (s : State) (m : Nat) :
    HifKept (ofRing n q) s (s.settleBad m) := by
  unfold State.settleBad
  extract_lets bad t
  have dropped : HifKept (ofRing n q) s t := modAt_getD_kept (fun r => waiting r _) s.hif.rings n m
  refine .ite (dropped.trans (.each (fun d u => ?_) bad t)) (dropped.trans (modAt_getD_kept (fun r => o.started r _) t.hif.rings n m))
  exact .postCompletion (o.reports n).toOutsidePosts u _ _ _ _ _ _

end

theorem outsideWork_waiting : OutsideWork Ring.waiting := ⟨fun _ _ => rfl, fun _ _ => rfl⟩

theorem outsideWork_fill : OutsideWork Ring.fill := ⟨fun _ _ => rfl, fun _ _ => rfl⟩

/-- The counts that a doorbell word and the fetching set. -/
def Ring.counts (r : Ring) : Nat × Nat × Nat := (r.prod, r.cons, r.fetched)

theorem outsideWork_counts : OutsideWork Ring.counts := ⟨fun _ _ => rfl, fun _ _ => rfl⟩

/-- Whether a host is attached, and the doorbell reads that are outstanding and wanted. -/
def Hif.reads (h : Hif) : Bool × Bool × Bool := (h.attached, h.dbOutstanding, h.dbAgain)

theorem outsideRings_reads : OutsideRings Hif.reads :=
  { posted := fun _ _ _ => rfl, vecs := fun _ _ => rfl, windows := fun _ _ => rfl, rings := fun _ _ => rfl }

theorem outsidePosts_coalesce : OutsidePosts Hif.coalesce := ⟨fun _ _ _ => rfl, fun _ _ => rfl⟩

/-! ### Descriptors that start and that end at once -/

/-- What waits behind bad descriptors at the head. -/
theorem settleBad_waiting (s : State) (n : Nat) : ((s.settleBad n).ring n).waiting = (s.ring n).waiting.dropWhile (fun d => d.bad) := by
  unfold State.settleBad
  extract_lets bad t
  have dropped : (t.ring n).waiting = (s.ring n).waiting.dropWhile (fun d => d.bad) := ring_setRing (q := Ring.waiting) rfl s n
  have posted : HifKept (ofRing n Ring.waiting) t (t.each bad (fun d u => u.postCompletion n d.slot 0xB 0 0 d.user)) :=
    .each (fun d u => .postCompletion (outsideWork_waiting.reports n).toOutsidePosts u _ _ _ _ _ _) bad t
  split
  · exact Eq.trans posted dropped
  · exact (ring_setRing (q := Ring.waiting) rfl t n).trans dropped

/-- On a ring of work the first descriptor starts, and nothing but the ring changes. -/
theorem startWork_of {s : State} {n : Nat} {d : Desc} {l : List Desc} (waits : (s.ring n).waiting = d :: l)
    (work : s.ringType n ≠ 2 ∧ s.ringType n ≠ 3) :
    ∃ h : Hif, s.startWork n = (some d, { s with hif := h }) ∧ ofRing n Ring.waiting h = l.dropWhile (fun y => y.bad) := by
  have started : ∃ t : State, s.startWork n = (some d, t.settleBad n) ∧ (t.ring n).waiting = l ∧ (∃ h : Hif, t = { s with hif := h }) ∧
      t.ringType n = s.ringType n := by
    unfold State.startWork
    rw [waits]
    refine ⟨_, rfl, ?_, ⟨_, rfl⟩, rfl⟩
    rw [ring_setRing (q := Ring.waiting) rfl s n, waits]
    rfl
  obtain ⟨t, eq, rest, ⟨h, only⟩, type⟩ := started
  have settled : ∃ h : Hif, t.settleBad n = { s with hif := h } := by
    unfold State.settleBad
    extract_lets bad u
    have same : u.ringType n = s.ringType n := type
    rw [if_neg (by rw [same]; tauto)]
    exact ⟨_, by unfold u; rw [only]; rfl⟩
  obtain ⟨h', hif⟩ := settled
  refine ⟨h', by rw [eq, hif], ?_⟩
  have settledWaiting := settleBad_waiting t n
  rw [hif, rest] at settledWaiting
  exact settledWaiting

end Sys2Proof.Machine
end

section
/-!
SUPPORT. O26: doorbells and what they announce (R327 to R329, R331).
-/

set_option Elab.async false

namespace Sys2Proof.Machine

/-! ### Doorbells (R327 to R329, R331) -/

/-- A counter of block HIF keeps every register but itself. -/
theorem inc_rd_ne {s : State} (h : CellList.wf resetOf s.regs = true) {a b : Nat} (single : pairRowOf a = none) (ne : b ≠ a) :
    (s.inc a).rd b = s.rd b :=
  (RegFrame.inc (W := (· = a)) s a rfl (fun e => by simp [single] at e) h).2 b ne

/-- A kick counts. -/
theorem kick_counted {s : State} (h : CellList.wf resetOf s.regs = true) :
    (s.kick.rd A.hifKicks).toNat = min ((s.rd A.hifKicks).toNat + 1) 0xFFFFFFFF := by
  have triggered : RegFrame (· ≠ A.hifKicks) (s.inc A.hifKicks) s.kick :=
    (Frame.triggerRead _ (show A.hifDbReads ≠ A.hifKicks by decide)).words
  rw [(triggered (inc_regs h _)).2 A.hifKicks (fun n => n rfl), inc_rd h (by decide +kernel)]

theorem dbWanted_inc {s : State} (h : CellList.wf resetOf s.regs = true) {a : Nat} (single : pairRowOf a = none)
    (lo : A.hifDbAddrLo ≠ a) (hi : A.hifDbAddrHi ≠ a) (cfg : ∀ n, A.hifRingCfg n ≠ a) : (s.inc a).dbWanted = s.dbWanted := by
  have host : (s.inc a).hif = s.hif := PartFrame.inc s a .hif (by decide)
  have rings : (fun n => (s.inc a).bit (A.hifRingCfg n) 3) = fun n => s.bit (A.hifRingCfg n) 3 := by
    funext n
    exact bit_of_rd (inc_rd_ne h single (cfg n)) 3
  have page : (s.inc a).rd64 A.hifDbAddrLo = s.rd64 A.hifDbAddrLo := by
    rw [State.rd64, State.rd64, inc_rd_ne h single lo, inc_rd_ne h single (b := A.hifDbAddrLo + 4) hi]
  rw [State.dbWanted, State.dbWanted, host, rings, page]

theorem kick_reads {s : State} (h : CellList.wf resetOf s.regs = true) (idle : s.hif.dbOutstanding = false) (wanted : s.dbWanted = true) :
    s.kick.hif.dbOutstanding = true ∧ Emission.doorbellRead ∈ s.kick.out := by
  have host : (s.inc A.hifKicks).hif = s.hif := PartFrame.inc s _ .hif (by decide)
  have still : (s.inc A.hifKicks).dbWanted = true :=
    (dbWanted_inc h (by decide +kernel) (by decide) (by decide) (fun n => by unfold A.hifRingCfg A.hifKicks; omega)).trans wanted
  unfold State.kick State.triggerRead
  rw [host, idle, if_neg (by decide), if_pos still]
  exact ⟨congrArg Hif.dbOutstanding (PartFrame.inc _ A.hifDbReads .hif (by decide)), mem_emit _ _⟩

theorem kick_again {s : State} (busy : s.hif.dbOutstanding = true) : s.kick.hif.dbAgain = true ∧ s.kick.out = s.out := by
  have host : (s.inc A.hifKicks).hif = s.hif := PartFrame.inc s _ .hif (by decide)
  unfold State.kick State.triggerRead
  rw [host, if_pos busy]
  exact ⟨rfl, PartFrame.inc s _ .out (by decide)⟩

/-- The end of a doorbell read after its words were taken up. -/
def State.readEnded (s : State) : State := { s with hif := { s.hif with dbOutstanding := false, dbAgain := false } }

/-- A read that no further one waits for ends with its words, or with the fault. -/
theorem doorbellDone_of {s t : State} {words : Option (List DoorbellWord)} (busy : s.hif.dbOutstanding = true)
    (taken : (match words with
      | none => ((s.inc A.hifDbFaults).raise A.hifEvent 2).setBit A.hifStatus 10 true
      | some l => (s.setBit A.hifStatus 10 false).each l (fun w u => u.doorbellWord w)) = t)
    (last : t.hif.dbAgain = false) : s.doorbellDone words = t.readEnded := by
  unfold State.doorbellDone
  rw [if_neg (by simp [busy])]
  extract_lets t' again t''
  have same : t' = t := taken
  have none : again = false := (congrArg (fun v : State => v.hif.dbAgain) same).trans last
  rw [none]
  exact congrArg State.readEnded same

theorem doorbellDone_fault {s : State} (h : CellList.wf resetOf s.regs = true) (busy : s.hif.dbOutstanding = true)
    (once : s.hif.dbAgain = false) : (s.doorbellDone none).hif.dbOutstanding = false ∧ (s.doorbellDone none).bit A.hifStatus 10 = true ∧
      ((s.doorbellDone none).rd A.hifDbFaults).toNat = min ((s.rd A.hifDbFaults).toNat + 1) 0xFFFFFFFF := by
  have raised : RegFrame (· ≠ A.hifDbFaults) (s.inc A.hifDbFaults) ((s.inc A.hifDbFaults).raise A.hifEvent 2) :=
    (journals_beside (a := A.hifDbFaults) (by decide) (by decide) (by decide) (by decide)).raise _ _ _ (by decide)
  have shown : RegFrame (· ≠ A.hifDbFaults) ((s.inc A.hifDbFaults).raise A.hifEvent 2)
      (((s.inc A.hifDbFaults).raise A.hifEvent 2).setBit A.hifStatus 10 true) := .sfW _ _ _ _ _ (by decide)
  have reads : HifKept Hif.reads s (((s.inc A.hifDbFaults).raise A.hifEvent 2).setBit A.hifStatus 10 true) :=
    .trans (.trans (.of_parts (.inc s _)) (.raise outsideRings_reads.toOutsideReports _ _ _)) (.of_parts (.setBit _ _ _ _))
  obtain ⟨regs, counted⟩ := (raised.trans shown) (inc_regs h _)
  rw [doorbellDone_of busy rfl ((congrArg (fun r => r.2.2) reads).trans once)]
  refine ⟨rfl, ?_, ?_⟩
  · exact (bit_setBit _ A.hifStatus 10 10 true (raised (inc_regs h _)).1 (by decide)).trans (if_pos rfl)
  · exact (congrArg BitVec.toNat (counted A.hifDbFaults (fun n => n rfl))).trans (inc_rd h (by decide +kernel))

theorem ring_setRing_listed {s : State} {n : Nat} (listed : n < s.hif.rings.length) (f : Ring → Ring) : (s.setRing n f).ring n = f (s.ring n) :=
  getD_modAt f Ring.off _ _ listed

section
variable {s : State} {n : Nat} (h : CellList.wf resetOf s.regs = true) (jobs : s.ringType n ≠ 4)
include h jobs

/-- A descriptor that is no job is fetched and, where it is bad at the head, ends at once. -/
theorem fetchDesc_of (x : FetchedDesc) : s.fetchDesc n x =
    ((s.setRing n (fun r => { r with fetched := (s.ring n).fetched + 1, waiting := r.waiting ++
      [s.descOf (s.ringType n) ((s.ring n).fetched % s.ringEntries n) x.desc] })).wr (A.hifRingFetched n)
      (word ((s.ring n).fetched + 1))).settleBad n := by
  unfold State.fetchDesc
  extract_lets k d t
  have cfg : RegFrame (· ≠ A.hifRingCfg n) s t := RegFrame.wr _ _ _ (by unfold A.hifRingFetched A.hifRingCfg; omega) |>.before
  have same : t.ringType n = s.ringType n := f_of_rd ((cfg h).2 _ (fun e => e rfl)) 0 3
  rw [if_neg (by rw [same]; exact jobs)]

theorem fetchDesc_counts (listed : n < s.hif.rings.length) (x : FetchedDesc) :
    ((s.fetchDesc n x).ring n).counts = ((s.ring n).prod, (s.ring n).cons, (s.ring n).fetched + 1) := by
  rw [fetchDesc_of h jobs]
  refine Eq.trans (HifKept.settleBad_ofRing outsideWork_counts n (fun _ _ => rfl) _ n) ?_
  exact congrArg Ring.counts (ring_setRing_listed listed _)

theorem fetchDesc_reads (x : FetchedDesc) : HifKept Hif.reads s (s.fetchDesc n x) := by
  rw [fetchDesc_of h jobs]
  exact .trans (.trans (.setRing outsideRings_reads s n _) (.of_parts (.wr _ _ _))) (.settleBad outsideRings_reads _ n)

theorem fetchDesc_cfg (x : FetchedDesc) (a : Nat) (high : a < 0x7000) : RegFrame (· ≠ a) s (s.fetchDesc n x) := by
  rw [fetchDesc_of h jobs]
  exact .trans (RegFrame.wr _ _ _ (by unfold A.hifRingFetched; omega)).before (.settleBad _ n (hifRingPosted_ne high n))

end

/-- The doorbell word of a running ring that announces something, with one descriptor read. -/
structure Announces (s : State) (w : DoorbellWord) (x : FetchedDesc) : Prop where
  unit : w.ring < 256
  one : w.descs = [x]
  sound : w.readFailed = false
  records : s.ringType w.ring ≠ 3
  jobs : s.ringType w.ring ≠ 4
  events : s.ringType w.ring ≠ 7
  running : s.ringState w.ring = 1
  fits : (w.prod + 2 ^ 32 - w.cons % 2 ^ 32) % 2 ^ 32 ≤ s.ringEntries w.ring
  behind : ((s.ring w.ring).posted + 2 ^ 32 - w.cons % 2 ^ 32) % 2 ^ 32 < 2 ^ 31
  unread : (w.prod % 2 ^ 32 + 2 ^ 32 - (s.ring w.ring).fetched % 2 ^ 32) % 2 ^ 32 ≠ 0

/-- The counts of a doorbell word are kept. -/
def State.takeCounts (s : State) (w : DoorbellWord) : State :=
  s.setRing w.ring (fun r => { r with prod := w.prod % 2 ^ 32, cons := w.cons % 2 ^ 32 })

section
variable {s : State} {w : DoorbellWord} {x : FetchedDesc} (h : CellList.wf resetOf s.regs = true) (listed : w.ring < s.hif.rings.length)
  (word : Announces s w x)
include h listed word

/-- One descriptor is fetched, and completions that are ready are posted. -/
theorem doorbellWord_of : s.doorbellWord w = (((s.takeCounts w).fetchDesc w.ring x).showRing w.ring).drainRing w.ring := by
  have kept : (s.takeCounts w).ring w.ring = { s.ring w.ring with prod := w.prod % 2 ^ 32, cons := w.cons % 2 ^ 32 } :=
    ring_setRing_listed listed _
  have live : s.ringLive w.ring = true := by simp [State.ringLive, word.running]
  have room : (s.takeCounts w).mayFetch w.ring = true := by
    have state : (s.takeCounts w).ringState w.ring = 1 := word.running
    have events : (s.takeCounts w).ringType w.ring ≠ 7 := word.events
    have jobs : (s.takeCounts w).ringType w.ring ≠ 4 := word.jobs
    unfold State.mayFetch
    rw [kept]
    simp only [state, events, jobs, word.unread, ne_eq, not_false_eq_true, decide_true, Bool.and_self, Bool.true_or]
  have fetched : (s.takeCounts w).fetchAll w.ring w.readFailed w.descs = (s.takeCounts w).fetchDesc w.ring x := by
    rw [word.one, word.sound, State.fetchAll, if_pos room, State.fetchAll, Bool.false_and, if_neg (by decide)]
  have cfg : RegFrame (· ≠ A.hifRingCfg w.ring) (s.takeCounts w) (((s.takeCounts w).fetchDesc w.ring x).showRing w.ring) := by
    have unit := word.unit
    exact .trans (fetchDesc_cfg (s := s.takeCounts w) h word.jobs x _ (by unfold A.hifRingCfg; omega))
      (.sfW _ _ _ _ _ (by unfold A.hifRingState A.hifRingCfg; omega))
  have type : (((s.takeCounts w).fetchDesc w.ring x).showRing w.ring).ringType w.ring = s.ringType w.ring :=
    f_of_rd ((cfg h).2 _ (fun e => e rfl)) 0 3
  unfold State.doorbellWord
  extract_lets n used ahead t u
  have end_ : u = ((s.takeCounts w).fetchDesc w.ring x).showRing w.ring := congrArg (State.showRing · w.ring) fetched
  rw [live, if_neg (by decide), if_neg (fun c => absurd c.2 (Nat.not_lt.mpr word.fits)), if_neg (Nat.not_le.mpr word.behind), end_,
    if_neg (fun c => word.records (type.symm.trans c.1)),
    if_neg (fun c => word.jobs (type.symm.trans c))]

theorem doorbellWord_counts : ((s.doorbellWord w).ring w.ring).counts = (w.prod % 2 ^ 32, w.cons % 2 ^ 32, (s.ring w.ring).fetched + 1) := by
  have kept : (s.takeCounts w).ring w.ring = { s.ring w.ring with prod := w.prod % 2 ^ 32, cons := w.cons % 2 ^ 32 } :=
    ring_setRing_listed listed _
  have there : w.ring < (s.takeCounts w).hif.rings.length := (length_modAt _ _ _).symm ▸ listed
  have fetched := fetchDesc_counts (s := s.takeCounts w) h word.jobs there x
  rw [kept] at fetched
  rw [doorbellWord_of h listed word]
  exact Eq.trans (HifKept.drainWork outsideWork_counts w.ring _ w.ring) fetched

theorem doorbellWord_reads : HifKept Hif.reads s (s.doorbellWord w) := by
  rw [doorbellWord_of h listed word]
  exact .trans (.trans (.trans (.setRing outsideRings_reads s _ _) (fetchDesc_reads (s := s.takeCounts w) h word.jobs x))
    (.of_parts (.sfW _ _ _ _ _))) (.drainRing outsideRings_reads _ _)

end

/-- A finished read whose word announces something: the ring takes the counts and fetches one descriptor. -/
theorem doorbellDone_word {s : State} (h : CellList.wf resetOf s.regs = true) (busy : s.hif.dbOutstanding = true)
    (once : s.hif.dbAgain = false) {w : DoorbellWord} {x : FetchedDesc} (listed : w.ring < s.hif.rings.length) (word : Announces s w x) :
    ((s.doorbellDone (some [w])).ring w.ring).counts = (w.prod % 2 ^ 32, w.cons % 2 ^ 32, (s.ring w.ring).fetched + 1) ∧
      (s.doorbellDone (some [w])).hif.dbOutstanding = false := by
  have shown : RegFrame (· = A.hifStatus) s (s.setBit A.hifStatus 10 false) := .sfW _ _ _ _ _ rfl
  obtain ⟨regs, kept⟩ := shown h
  have cfg := kept (A.hifRingCfg w.ring) (by unfold A.hifRingCfg A.hifStatus; omega)
  have state := kept (A.hifRingState w.ring) (by unfold A.hifRingState A.hifStatus; omega)
  have type : (s.setBit A.hifStatus 10 false).ringType w.ring = s.ringType w.ring := f_of_rd cfg 0 3
  have entries : (s.setBit A.hifStatus 10 false).ringEntries w.ring = s.ringEntries w.ring := congrArg (fun k => 2 ^ (6 + k)) (f_of_rd cfg 4 4)
  have still : Announces (s.setBit A.hifStatus 10 false) w x :=
    { word with
      records := type ▸ word.records
      jobs := type ▸ word.jobs
      events := type ▸ word.events
      running := (f_of_rd state 0 2).trans word.running
      fits := entries ▸ word.fits }
  have reads := doorbellWord_reads regs listed still
  rw [doorbellDone_of (words := some [w]) busy rfl ((congrArg (fun r => r.2.2) reads).trans once)]
  exact ⟨doorbellWord_counts regs listed still, rfl⟩

end Sys2Proof.Machine
end

section
/-!
SUPPORT. O26: host frames, buffers of records, transfers, vectors, windows, ring states, and the link to the host.
-/

set_option Elab.async false

namespace Sys2Proof.Machine

/-! ### Host frames (R336) -/

section
variable {s : State} {n : Nat} {d : Desc} {l : List Desc}

/-- The frame of the first waiting descriptor stands on its link's preemptable queue. -/
theorem hostFrame_queued (type : s.ringType n = 1) (state : s.ringState n = 1) (waits : (s.ring n).waiting = d :: l)
    (listed : d.ctl % 8 < s.ports.links.length) (there : s.linkExists (d.ctl % 8) = true) (up : s.linkUp (d.ctl % 8) = true)
    (fits : max d.len 60 + 4 ≤ s.maxFrame (d.ctl % 8) 1) (x : Bytes) :
    ((s.hostFrame n (some x)).lnk (d.ctl % 8)).queue.length = (s.lnk (d.ctl % 8)).queue.length + 1 ∧
      ((s.hostFrame n (some x)).ring n).waiting = l.dropWhile (fun y => y.bad) := by
  obtain ⟨h, eq, rest⟩ := startWork_of waits (by omega)
  have links : ({ s with hif := h } : State).linkExists (d.ctl % 8) = true ∧ ({ s with hif := h } : State).linkUp (d.ctl % 8) = true :=
    ⟨there, up⟩
  have short : ¬ ({ s with hif := h } : State).maxFrame (d.ctl % 8) 1 < max d.len 60 + 4 := Nat.not_lt.mpr fits
  unfold State.hostFrame
  rw [if_neg (by omega), eq]
  dsimp only
  rw [if_neg (by simp [links.1, links.2]), if_neg short]
  exact ⟨queuePre_length (s := { s with hif := h }) listed _ _ _, rest⟩

end

/-- Every host frame of link `sl`'s queue was fetched within the last 100 ms. -/
def State.Fresh (s : State) (sl : Nat) : Prop := ∀ x ∈ (s.lnk sl).queue, ∀ r ∈ x.ring.toList, s.ts.meas < frameDeadline r.2.2

theorem dropQueued_lnk (s : State) (sl status : Nat) (p : Nat × Nat × Nat → Bool) (k : Nat) :
    (s.dropQueued sl status p).lnk k = (s.setLink sl (fun l => { l with queue := l.queue.filter (fun x => !(x.ring.any p)) })).lnk k := by
  unfold State.dropQueued
  extract_lets hit t
  have ended : PartFrame ringParts t (t.each hit (fun x u => match x.ring with
      | some (n, slot, _) => u.endWork n slot status 0
      | none => u)) := by
    refine .each (fun x u => ?_) hit t
    split
    · exact .endWork u _ _ _ _
    · exact .refl _ u
  exact ended.lnk k

/-- The frames that stay on a link's queue when some are dropped. -/
theorem dropQueued_queue (s : State) (sl status : Nat) (p : Nat × Nat × Nat → Bool) :
    ((s.dropQueued sl status p).lnk sl).queue = (s.lnk sl).queue.filter (fun x => !(x.ring.any p)) := by
  rw [dropQueued_lnk]
  by_cases listed : sl < s.ports.links.length
  · rw [lnk_setLink listed]
  · have before : s.lnk sl = Link.empty := List.getD_eq_default _ _ (by omega)
    have after : (s.setLink sl (fun l => { l with queue := l.queue.filter (fun x => !(x.ring.any p)) })).lnk sl = Link.empty :=
      List.getD_eq_default _ _ (by rw [setLink_links_length]; omega)
    rw [after, before]
    rfl

theorem dropQueued_meas (s : State) (sl status : Nat) (p : Nat × Nat × Nat → Bool) : (s.dropQueued sl status p).ts = s.ts :=
  (Frame.dropQueued .any s sl status p).parts .ts (by decide)

/-- Dropping what is late leaves every host frame of the queue fresh. -/
theorem dropQueued_fresh (s : State) (sl status : Nat) :
    (s.dropQueued sl status (fun r => decide (frameDeadline r.2.2 ≤ s.ts.meas))).Fresh sl := by
  intro x m r own
  rw [dropQueued_queue] at m
  have stays := (List.mem_filter.mp m).2
  rw [Option.mem_toList] at own
  rw [dropQueued_meas]
  simpa [own] using stays

theorem dropQueued_keeps_fresh {s : State} {sl : Nat} (fresh : s.Fresh sl) (k status : Nat) (p : Nat × Nat × Nat → Bool) :
    (s.dropQueued k status p).Fresh sl := by
  intro x m r own
  rw [dropQueued_meas]
  refine fresh x ?_ r own
  by_cases same : k = sl
  · subst same
    rw [dropQueued_queue] at m
    exact (List.mem_filter.mp m).1
  · rw [dropQueued_lnk] at m
    have other : (s.setLink k (fun l => { l with queue := l.queue.filter (fun x => !(x.ring.any p)) })).lnk sl = s.lnk sl :=
      getD_modAt_ne _ _ _ (fun e => same e.symm)
    rwa [other] at m

theorem hostFrameTimeout_fresh (s : State) : ∀ sl, sl < 8 → ∀ x ∈ (s.hostFrameTimeout.lnk sl).queue, ∀ r ∈ x.ring.toList,
    s.ts.meas < frameDeadline r.2.2 := by
  intro sl unit
  have ts : s.hostFrameTimeout.ts = s.ts := (Frame.hostFrameTimeout .any s).parts .ts (by decide)
  have dropped := each_establishes (I := fun _ => True) (P := fun sl t => t.Fresh sl)
    (g := fun sl u => u.dropQueued sl 0x43 (fun r => decide (frameDeadline r.2.2 ≤ u.ts.meas))) (fun _ _ _ => trivial)
    (fun sl t _ => dropQueued_fresh t sl 0x43) (fun sl k t _ h => dropQueued_keeps_fresh h k _ _) (List.range 8) s trivial
    (List.mem_range.mpr unit)
  have expired : ∀ t : State, PartFrame ringParts t (t.each (List.range 256) (fun n u => u.expireWaiting n)) := fun t =>
    .each (fun n u => (Frame.expireWaiting .any u n).parts) _ t
  have fresh : s.hostFrameTimeout.Fresh sl := by
    unfold State.hostFrameTimeout State.Fresh
    rw [(expired _).lnk sl, expired _ .ts (by decide)]
    exact dropped
  rw [← ts]
  exact fresh

/-! ### Buffers of records (R338) -/

theorem recordFlush_of {s : State} {n : Nat} {b : Desc} {l : List Desc} (type : s.ringType n = 3) (state : s.ringState n = 1)
    (waits : (s.ring n).waiting = b :: l) (filled : (s.ring n).fill ≠ 0)
    (due : (s.ring n).fillSince + s.ringFlush n * 1000 * 2 ^ 48 ≤ s.ts.meas) :
    ((s.recordFlush n).ring n).fill = 0 ∧ ((s.recordFlush n).ring n).waiting = l.dropWhile (fun y => y.bad) := by
  unfold State.recordFlush State.flushBuffer
  rw [if_pos ⟨type, state, filled, due⟩, waits]
  dsimp only
  generalize given : s.setRing n (fun r => { r with waiting := r.waiting.tail, fill := 0, fillSince := 0 }) = t
  have rest : (t.ring n).waiting = l := by
    rw [← given, ring_setRing (q := Ring.waiting) rfl s n, waits]
    rfl
  have empty : (t.ring n).fill = 0 := by rw [← given, ring_setRing (q := Ring.fill) rfl s n]
  have posted : ∀ {α : Type} {q : Ring → α}, OutsideWork q →
      q ((t.postCompletion n b.slot 0 0 (s.ring n).fill b.user).ring n) = q (t.ring n) := fun o =>
    HifKept.postCompletion (o.reports n).toOutsidePosts t n _ _ _ _ _
  refine ⟨?_, ?_⟩
  · exact Eq.trans (HifKept.settleBad_ofRing outsideWork_fill n (fun _ _ => rfl) _ n) ((posted outsideWork_fill).trans empty)
  · refine Eq.trans (settleBad_waiting _ n) ?_
    rw [posted outsideWork_waiting, rest]

/-! ### Transfers (R340, R480) -/

theorem slice_length (b : Bytes) (off k : Nat) : (slice b off k).length = k := by
  unfold slice
  simp

section
variable {s : State} {n : Nat} {d : Desc} {l : List Desc} (type : s.ringType n = 6) (live : s.ringLive n = true)
  (free : s.xferRunning n = false) (waits : (s.ring n).waiting = d :: l) (ok : regionOk (d.ctl / 2 % 8) d.arg d.len = true)
include type live free waits ok

/-- A transfer out of a region writes the region's bytes to host memory. -/
theorem xfer_out (out : d.ctl.testBit 0 = false) (idle : (s.startWork n).2.regionBusy (d.ctl / 2 % 8) false = false) (data : Bytes)
    (read : Bool) : Emission.hostWrite d.addr ((s.startWork n).2.regionRead (d.ctl / 2 % 8) d.arg d.len) ∈ (s.xfer n data read).out ∧
      ((s.xfer n data read).ring n).waiting = l.dropWhile (fun y => y.bad) := by
  obtain ⟨h, eq, rest⟩ := startWork_of waits (by omega)
  rw [eq] at idle ⊢
  dsimp only at idle ⊢
  unfold State.xfer
  rw [if_neg (by simp [type, live, free]), eq]
  dsimp only
  rw [ok, out, idle, if_neg (by decide), if_neg (by decide), if_pos (by decide)]
  exact ⟨OutGrows.endWork _ _ _ _ _ (mem_emit _ _), Eq.trans (HifKept.endWork outsideWork_waiting n _ _ _ _ _) rest⟩

/-- A transfer into FW_STAGE writes its lines, and held microcode is gone. -/
theorem xfer_in (into : d.ctl.testBit 0 = true) (stage : d.ctl / 2 % 8 = 1) (unchecked : s.fw.checking = none) (data : Bytes)
    (part : ((s.startWork n).2.regionWrite 1 d.arg (slice data 0 d.len)).imageComplete = false) :
    (s.xfer n data true).fw.lines = addLines s.fw.lines d.arg d.len ∧ (s.xfer n data true).fw.held = none ∧
      ((s.xfer n data true).ring n).waiting = l.dropWhile (fun y => y.bad) := by
  obtain ⟨h, eq, rest⟩ := startWork_of waits (by omega)
  rw [eq] at part
  dsimp only at part
  have idle : ({ s with hif := h } : State).regionBusy 1 true = false := by simp [State.regionBusy, unchecked]
  unfold State.xfer
  rw [if_neg (by simp [type, live, free]), eq]
  dsimp only
  rw [ok, into, stage, idle, if_neg (by decide), if_neg (by decide), if_neg (by decide), if_neg (by decide),
    if_neg (fun c => by simp [part] at c)]
  have fw : ∀ t : State, (t.endWork n d.slot 0 d.len).fw = t.fw := fun t => PartFrame.endWork t n _ _ _ .fw (by decide)
  rw [fw]
  refine ⟨?_, rfl, Eq.trans (HifKept.endWork outsideWork_waiting n _ _ _ _ _) rest⟩
  exact congrArg (addLines s.fw.lines d.arg) (slice_length data 0 d.len)

end

/-- The end of a check leaves no lines and no check. -/
theorem xferChecked_ended {s : State} {n : Nat} {d : Desc} (checking : s.fw.checking = some (.ring n d)) (flash : Bool) :
    (s.xferChecked flash).fw.checking = none ∧ (s.xferChecked flash).fw.lines = [] := by
  unfold State.xferChecked
  rw [checking]
  have fw : ((s.endCheck .host flash).2.endWork n d.slot (s.endCheck .host flash).1 d.len).fw = (s.endCheck .host flash).2.fw :=
    PartFrame.endWork _ n _ _ _ .fw (by decide)
  dsimp only
  rw [fw]
  exact ⟨rfl, rfl⟩

/-! ### Vectors and windows (R342, R343) -/

section
variable {s : State} {v : Nat} (listed : v < s.hif.vecs.length)
include listed

theorem sendVec_items (masked : s.vecMasked v = false) :
    Emission.msix v ∈ (s.sendVec v).out ∧ ((s.sendVec v).hif.vecs.getD v ⟨0, 0, false⟩).items = 0 := by
  unfold State.sendVec
  rw [if_neg (by simp [masked])]
  exact ⟨mem_emit _ _, congrArg Vec.items (getD_modAt _ _ _ _ listed)⟩

theorem sendVec_masked (masked : s.vecMasked v = true) : ((s.sendVec v).hif.vecs.getD v ⟨0, 0, false⟩).waiting = true ∧
    ((s.sendVec v).hif.vecs.getD v ⟨0, 0, false⟩).items = 0 ∧ (s.sendVec v).out = s.out := by
  unfold State.sendVec
  rw [if_pos masked]
  exact ⟨congrArg Vec.waiting (getD_modAt _ _ _ _ listed), congrArg Vec.items (getD_modAt _ _ _ _ listed), rfl⟩

end

theorem vectorTimer_of {s : State} {v : Nat} (timed : s.vecTime v ≠ 0) (pending : (s.hif.vecs.getD v ⟨0, 0, false⟩).items ≠ 0)
    (due : (s.hif.vecs.getD v ⟨0, 0, false⟩).since + s.vecTime v * 1000 * 2 ^ 48 ≤ s.ts.meas) : s.vectorTimer v = s.sendVec v :=
  if_pos ⟨timed, pending, due⟩

/-- Every coalescing window ends after now. -/
def State.WindowsOpen (s : State) : Prop := ∀ c ∈ s.hif.coalesce, s.ts.meas < c.endAt

theorem blockEvent_windowsOpen {s : State} (opened : s.WindowsOpen) (dest reg : Nat) : (s.blockEvent dest reg).WindowsOpen := by
  have ts : (s.blockEvent dest reg).ts = s.ts := PartFrame.blockEvent s dest reg .ts (by decide)
  have windows : (s.blockEvent dest reg).hif.coalesce = ⟨dest, reg, 100000 * 2 ^ 48 + s.ts.meas, false⟩ :: s.hif.coalesce := by
    unfold State.blockEvent
    dsimp only
    split
    · exact HifKept.postEvent outsidePosts_coalesce _ _ _ _ _ _
    · split
      · exact congrArg Hif.coalesce (PartFrame.sendEventMsg _ _ _ _ .hif (by decide))
      · rfl
  intro c m
  rw [windows] at m
  rw [ts]
  rcases List.mem_cons.mp m with rfl | old
  · exact Nat.lt_add_of_pos_left (by decide)
  · exact opened c old

theorem coalesceEnd_windowsOpen (s : State) : ∀ c ∈ s.coalesceEnd.hif.coalesce, s.ts.meas < c.endAt := by
  have ts : s.coalesceEnd.ts = s.ts := (Frame.coalesceEnd .any s).parts .ts (by decide)
  have opened : s.coalesceEnd.WindowsOpen := by
    unfold State.coalesceEnd
    refine each_invariant (P := State.WindowsOpen) (fun c t h => blockEvent_windowsOpen h _ _) _ _ (fun c m => ?_)
    exact of_decide_eq_true (List.mem_filter.mp m).2
  rw [← ts]
  exact opened

/-! ### Ring states (R346) -/

/-- A field that was set holds what was written. -/
theorem f_sfW_same {s : State} (h : CellList.wf resetOf s.regs = true) (a : Nat) {lo n v : Nat} (k : lo + n ≤ 32) (small : v < 2 ^ n) :
    (s.sfW a lo n v).f a lo n = v := (f_sfW s _ _ _ _ _ _ h).trans ((fld_putFld _ lo n v k).trans (Nat.mod_eq_of_lt small))

/-- A ring is in the state that it is put into, whatever reports it. -/
theorem setRingState_ringState {s : State} (h : CellList.wf resetOf s.regs = true) {n st : Nat} (unit : n < 256) (small : st < 4)
    (reason : Nat) : CellList.wf resetOf (s.setRingState n st reason).regs = true ∧ (s.setRingState n st reason).ringState n = st := by
  have beside : Journals (· ≠ A.hifRingState n) := journals_beside (by unfold A.hifRingState; omega) (by unfold A.hifRingState; omega)
    (by unfold A.hifEvent A.hifRingState; omega) (by unfold A.hifEvtDrop A.hifRingState; omega)
  have status : A.hifStatus ≠ A.hifRingState n := by unfold A.hifStatus A.hifRingState; omega
  have event : A.hifEvent ≠ A.hifRingState n := by unfold A.hifEvent A.hifRingState; omega
  have set : (s.sfW (A.hifRingState n) 0 2 st).f (A.hifRingState n) 0 2 = st := f_sfW_same h _ (by decide) small
  have outside : ∀ {t u : State}, RegFrame (· ≠ A.hifRingState n) t u → FieldKept (A.hifRingState n) 0 2 t u := fun k =>
    .of_regFrame k (fun e => e rfl)
  unfold State.setRingState
  split
  · exact ⟨h, ‹_›⟩
  · suffices told : FieldKept (A.hifRingState n) 0 2 (s.sfW (A.hifRingState n) 0 2 st) _ by
      obtain ⟨regs, kept⟩ := told (CellList.wf_set resetOf _ _ _ h)
      exact ⟨regs, kept.trans set⟩
    refine .trans (.trans (.trans (.sfW _ 8 8 reason (by decide) (.inl (by decide))) (outside (.sfW _ _ _ _ _ status))) (.when ?_))
      (outside (beside.postEvent _ _ _ _ _ _))
    exact outside (beside.raise _ _ _ event)

/-- A quiescing ring without work is OFF. -/
theorem ringIdle_off {s : State} (h : CellList.wf resetOf s.regs = true) {n : Nat} (unit : n < 256) (quiescing : s.ringState n = 2)
    (idle : (s.ring n).waiting = []) (done : (s.ring n).started = []) : (s.ringIdle n).ringState n = 0 := by
  unfold State.ringIdle
  rw [if_pos ⟨quiescing, idle, done⟩]
  exact (setRingState_ringState h unit (by decide) 0).2

/-! ### The link to the host (R325) -/

/-- Reports keep the bits of HIF.EVENT below SEQ but EVT_DROP. -/
theorem FieldKept.noteEvent_hifEvent {i : Nat} (low : i < 24) (other : i ≠ 4) (s : State) (dest reg : Nat) :
    FieldKept A.hifEvent i 1 s (s.noteEvent dest reg) := by
  have one : ∀ t : State, FieldKept A.hifEvent i 1 t ((t.inc A.hifEvtDrop).raiseBit A.hifEvent 4) := fun t =>
    .trans (.inc t (by decide) (by decide)) (.trans (.sfW _ 4 1 1 (by omega) (by omega)) (.sfW _ 24 8 _ (by omega) (.inl (by omega))))
  have dropped : ∀ t : State, FieldKept A.hifEvent i 1 t t.evtDropped := fun t => by
    unfold State.evtDropped
    exact .ite ((one t).trans (one _)) (one t)
  have posted : ∀ (t : State) type flags source stamp body, FieldKept A.hifEvent i 1 t (t.postEvent type flags source stamp body) := by
    intro t type flags source stamp body
    unfold State.postEvent
    split
    · exact dropped t
    · refine .ite (dropped t) (.of_regFrame (W := (· ≠ A.hifEvent)) ?_ (fun e => e rfl))
      exact ((RegFrame.bumpPosted _ _ (hifRingPosted_ne (a := A.hifEvent) (by decide) _)).trans (.pendItem _ _)).before
  have before : ∀ {t u v : State}, FieldKept A.hifEvent i 1 u v → u.regs = t.regs → FieldKept A.hifEvent i 1 t v := fun k e =>
    (FieldKept.refl _ _ _ _).after e |>.trans k
  unfold State.noteEvent State.blockEvent
  refine .ite (.after (.refl _ _ _ s)) (.ite (before (posted _ _ _ _ _ _) rfl) ?_)
  split
  · exact .of_regFrame (W := fun _ => False) (RegFrame.sendEventMsg _ _ _ _).before (fun f => f)
  · exact .after (.refl _ _ _ s)

/-- An occurrence of an event of HIF other than EVT_DROP sets its bit. -/
theorem raise_hifEvent {s : State} (h : CellList.wf resetOf s.regs = true) {b : Nat} (low : b < 24) (other : b ≠ 4) :
    (s.raise A.hifEvent b).bit A.hifEvent b = true := by
  have set : (s.sfW A.hifEvent b 1 1).bit A.hifEvent b = true := (bit_setBit s A.hifEvent b b true h (by omega)).trans (if_pos rfl)
  have seq : FieldKept A.hifEvent b 1 (s.sfW A.hifEvent b 1 1) (s.raiseBit A.hifEvent b) := .sfW _ 24 8 _ (by omega) (.inl low)
  have noted : ∀ (t : State) dest, FieldKept A.hifEvent b 1 t (t.noteEvent dest A.hifEvent) := fun t dest => .noteEvent_hifEvent low other t dest _
  have told : FieldKept A.hifEvent b 1 (s.sfW A.hifEvent b 1 1) (s.raise A.hifEvent b) := by
    unfold State.raise
    refine .ite seq ((seq.trans (.ite (noted _ 0) (.refl _ _ _ _))).trans (.each _ (fun i _ u => ?_) _))
    split
    · exact .ite (noted u i) (.refl _ _ _ u)
    · exact .refl _ _ _ u
  exact (told.bit (CellList.wf_set resetOf _ _ _ h)).trans set

/-- UP, SPEED and WIDTH of HIF.STATUS when they are set one after the other. -/
theorem hifStatus_shown {s : State} (h : CellList.wf resetOf s.regs = true) {speed width : Nat} (speedCode : speed < 8) (lanes : width < 32)
    {t : State} (set : ((s.setBit A.hifStatus 0 true).sfW A.hifStatus 1 3 speed).sfW A.hifStatus 4 5 width = t) :
    CellList.wf resetOf t.regs = true ∧ t.bit A.hifStatus 0 = true ∧ t.f A.hifStatus 1 3 = speed ∧ t.f A.hifStatus 4 5 = width := by
  have up : (s.setBit A.hifStatus 0 true).bit A.hifStatus 0 = true := (bit_setBit s _ 0 0 true h (by decide)).trans (if_pos rfl)
  have regs : CellList.wf resetOf (s.setBit A.hifStatus 0 true).regs = true := CellList.wf_set resetOf _ _ _ h
  generalize s.setBit A.hifStatus 0 true = u at up regs set
  have first := f_sfW_same regs A.hifStatus (lo := 1) (n := 3) (by decide) speedCode
  have still : FieldKept A.hifStatus 0 1 u (u.sfW A.hifStatus 1 3 speed) := .sfW u 1 3 speed (by decide) (.inl (by decide))
  obtain ⟨regs', -⟩ := still regs
  have bit := (still.bit regs).trans up
  generalize u.sfW A.hifStatus 1 3 speed = v at first regs' bit set
  have second := f_sfW_same regs' A.hifStatus (lo := 4) (n := 5) (by decide) lanes
  have kept : ∀ lo n, lo + n ≤ 4 → FieldKept A.hifStatus lo n v (v.sfW A.hifStatus 4 5 width) := fun lo n k =>
    .sfW v 4 5 width (by omega) (.inl k)
  rw [← set]
  exact ⟨(kept 0 1 (by decide) regs').1, ((kept 0 1 (by decide)).bit regs').trans bit, (kept 1 3 (by decide) regs').2.trans first, second⟩

/-- The host is attached at L0, and the event tells it. -/
theorem pcieUp_shown {s : State} (h : CellList.wf resetOf s.regs = true) {speed width : Nat} (speedCode : speed < 8) (lanes : width < 32) :
    (s.pcieUp speed width).hif.attached = true ∧ (s.pcieUp speed width).bit A.hifStatus 0 = true ∧
      (s.pcieUp speed width).f A.hifStatus 1 3 = speed ∧ (s.pcieUp speed width).f A.hifStatus 4 5 = width ∧
      (s.pcieUp speed width).bit A.hifEvent 0 = true := by
  have shown : ∃ t : State, s.pcieUp speed width = t.raise A.hifEvent 0 ∧ t.hif.attached = true ∧ CellList.wf resetOf t.regs = true ∧
      t.bit A.hifStatus 0 = true ∧ t.f A.hifStatus 1 3 = speed ∧ t.f A.hifStatus 4 5 = width :=
    ⟨_, rfl, rfl, hifStatus_shown
      (s := ({ s with hif := { s.hif with attached := true, trainAt := none } } : State).emit (.pcieFunction 0x1F3B 0x6160))
      h speedCode lanes rfl⟩
  obtain ⟨t, eq, attached, regs, up, first, second⟩ := shown
  have kept : (t.raise A.hifEvent 0).rd A.hifStatus = t.rd A.hifStatus :=
    ((journals_beside (a := A.hifStatus) (by decide) (by decide) (by decide) (by decide)).raise t _ _ (by decide) regs).2 _ (fun e => e rfl)
  have host : HifKept Hif.reads t (t.raise A.hifEvent 0) := .raise outsideRings_reads.toOutsideReports t _ _
  rw [eq]
  exact ⟨(congrArg Prod.fst host).trans attached, (bit_of_rd kept 0).trans up, (f_of_rd kept 1 3).trans first, (f_of_rd kept 4 5).trans second,
    raise_hifEvent regs (by decide) (by decide)⟩

theorem pcieRetrain_trains {s : State} {m : Nat} (tried : s.hif.trainAt = some m) (apart : s.hif.attached = false)
    (due : 10 * 1000000000 * 2 ^ 48 + m ≤ s.ts.meas) :
    s.pcieRetrain.hif.trainAt = some s.ts.meas ∧ s.pcieRetrain.out = Emission.pcieTrain :: s.out := by
  unfold State.pcieRetrain
  rw [tried]
  dsimp only
  rw [if_pos ⟨apart, due⟩]
  exact ⟨rfl, rfl⟩

/-! ### The journal in flash (R389) -/

theorem journalFlash_taken (s : State) : s.journalFlash.journal.toFlash = [] ∧
    s.journalFlash.journal.flash = keepWithin (16 * 2 ^ 20) (s.journal.toFlash ++ s.journal.flash) 0 := by
  have told : ∀ (t : State) n, ((t.count A.glbJournalLost n).raise A.glbEvent 4).journal = t.journal := fun t n =>
    (PartFrame.trans (PartFrame.count t A.glbJournalLost n).mono (.raise _ _ _)) .journal (by decide)
  unfold State.journalFlash
  extract_lets all kept lost journal t
  split
  · exact ⟨rfl, rfl⟩
  · rw [told]
    exact ⟨rfl, rfl⟩

end Sys2Proof.Machine
end

section
/-!
SUPPORT. The detach of the host (R347): what ending its jobs and rings, and resetting its words, leave of DETACHES and of a ring's
STATE; O26.
-/

set_option Elab.async false

namespace Sys2Proof.Machine

/-! ### DETACHES and the STATE of a ring -/

/-- Neither DETACHES nor the word with the state of ring `n`. -/
def Apart (n a : Nat) : Prop := a ≠ A.hifDetaches ∧ a ≠ A.hifRingState n

/-- An operation leaves DETACHES and STATE of ring `n` as they were. -/
structure StopKept (n : Nat) (s t : State) : Prop where
  detaches : RegFrame (· ≠ A.hifDetaches) s t
  state : FieldKept (A.hifRingState n) 0 2 s t

namespace StopKept

variable {n : Nat} {s t u : State}

theorem of_apart (h : RegFrame (Apart n) s t) : StopKept n s t := ⟨h.mono (fun _ => And.left), .of_regFrame h (fun a => a.2 rfl)⟩

/-- An operation on other parts than the registers. -/
theorem same (e : t.regs = s.regs := by rfl) : StopKept n s t := .of_apart (.same e)

theorem refl (n : Nat) (s : State) : StopKept n s s := .of_apart (.refl _ s)

theorem trans (h : StopKept n s t) (k : StopKept n t u) : StopKept n s u := ⟨h.detaches.trans k.detaches, h.state.trans k.state⟩

theorem ite {c : Prop} [Decidable c] (h : StopKept n s t) (k : StopKept n s u) : StopKept n s (if c then t else u) := by
  split <;> assumption

theorem each {α : Type} {g : α → State → State} (h : ∀ x t, StopKept n t (g x t)) (xs : List α) (s : State) : StopKept n s (s.each xs g) :=
  each_invariant (P := StopKept n s) (fun x t k => k.trans (h x t)) xs s (.refl n s)

end StopKept

theorem hifRingState_ne_detaches (m : Nat) : A.hifRingState m ≠ A.hifDetaches := by unfold A.hifRingState A.hifDetaches; omega

/-- INFLIGHT of a ring stands beside STATE. -/
theorem StopKept.showRing (n : Nat) (s : State) (m : Nat) : StopKept n s (s.showRing m) := by
  refine ⟨.sfW s _ _ _ _ (hifRingState_ne_detaches m), ?_⟩
  by_cases own : m = n
  · exact own ▸ .sfW s 16 16 _ (by decide) (.inl (by decide))
  · exact .wr s _ (by unfold A.hifRingState; omega)

/-- The jobs and the frames of a ring that stops are gone. -/
def State.ringEmptied (s : State) (m : Nat) : State :=
  (s.abortJobs (PkeJob.ofRing m)).each (List.range 8) (fun sl u => u.setLink sl (fun l => { l with
    queue := l.queue.filter (fun x => !(x.ring.any (fun r => decide (r.1 = m))))
    onLine := l.onLine.map (fun (x : OnLine) =>
      if x.frame.ring.any (fun r => decide (r.1 = m)) then { x with frame := { x.frame with ring := none } } else x) }))

theorem stopRing_eq (s : State) (m : Nat) : s.stopRing m = (s.ringEmptied m).ringOff m := rfl

section
variable {n : Nat} (unit : n < 256)
include unit

theorem apart_of_le {a : Nat} (h : 0x7000 ≤ a) : Apart n a := by
  unfold Apart A.hifDetaches A.hifRingState
  omega

theorem apart_of_lt {a : Nat} (h : a < 0x4050) : Apart n a := by
  unfold Apart A.hifDetaches A.hifRingState
  omega

theorem Journals.apart : Journals (Apart n) where
  hifEvent := apart_of_lt unit (by decide)
  evtDrop := apart_of_lt unit (by decide)
  posted m _ := apart_of_le unit (by unfold A.hifRingPosted; omega)
  seq := apart_of_lt unit (by decide)
  lost := apart_of_lt unit (by decide)
  glbEvent := apart_of_lt unit (by decide)

/-! ### Jobs (R310) -/

theorem RegFrame.setSlot_apart (s : State) (k : Nat) (x : KeySlot) : RegFrame (Apart n) s (s.setSlot k x) :=
  (RegFrame.wr _ _ _ (apart_of_le unit (by unfold A.pkeSlot; omega))).before

theorem RegFrame.fillSlot_apart (s : State) (j : PkeJob) (status : Nat) (priv : Bytes) : RegFrame (Apart n) s (s.fillSlot j status priv) := by
  have filled : ∀ k x, RegFrame (Apart n) s ((s.setSlot k x).raise A.pkeEvent 0) := fun k x =>
    .trans (.setSlot_apart unit s k x) ((Journals.apart unit).raise _ _ _ (apart_of_le unit (by decide)))
  have journaled : ∀ (t : State) r alg usage, RegFrame (Apart n) t (t.journalKeyOp r alg usage status) := fun t r alg usage =>
    (Journals.apart unit).journalize t _ _ _ _ _
  have saved : ∀ t : State, RegFrame (Apart n) t t.saveKeys := fun t => .same rfl
  unfold State.fillSlot
  extract_lets r k alg w x u t
  have stored : RegFrame (Apart n) s t := .ite (fun _ => .ite (fun _ => (filled k x).trans (saved _)) (fun _ => filled k x))
    (fun _ => .ite (fun _ => .setSlot_apart unit s k _) (fun _ => .refl _ s))
  exact stored.trans (journaled t _ _ _)

theorem StopKept.endJob (s : State) (m slot status length : Nat) : StopKept n s (s.endJob m slot status length) := by
  have posted : ∀ (t : State) slot status flags length user, StopKept n t (t.postCompletion m slot status flags length user) :=
    fun t slot status flags length user =>
      .of_apart (.postCompletion t m _ _ _ _ _ (apart_of_le unit (by unfold A.hifRingPosted; omega)))
  unfold State.endJob
  split
  · exact .refl n s
  · extract_lets t u
    exact .trans (.trans (t := t) .same (.ite (posted t _ _ _ _ _) (.refl n t))) (.showRing n u m)

theorem StopKept.finishJob (s : State) (j : PkeJob) (status detail : Nat) (out : Bytes) (core cycles : Nat) :
    StopKept n s (s.finishJob j status detail out core cycles) := by
  have counted : ∀ (t : State) a, 0x7000 ≤ a → StopKept n t (t.inc a) := fun t a high =>
    .of_apart (.inc t a (apart_of_le unit high) (fun _ => apart_of_le unit (by omega)))
  have progress : ∀ t : State, StopKept n t (t.finalProgress j status) := fun t => .ite .same (.refl n t)
  unfold State.finishJob
  extract_lets r t u
  have ended : StopKept n s u := .trans (.ite (counted s _ (by decide)) (counted s _ (by decide)))
    (.ite (counted t _ (by decide)) (.ite (counted t _ (by decide)) (.refl n t)))
  split
  · exact ended
  · extract_lets live v w x y
    have written : StopKept n u y := .trans (.trans (.trans (.ite .same (.refl n u)) (.ite .same (.refl n v)))
      (.ite (progress w) (.refl n w))) (.ite .same (.refl n x))
    exact (ended.trans written).trans (.endJob unit y _ _ _ _)

theorem StopKept.stopJob (s : State) (j : PkeJob) (status core cycles : Nat) : StopKept n s (s.stopJob j status core cycles) :=
  .trans (.ite (.of_apart (.fillSlot_apart unit s _ _ _)) (.refl n s)) (.finishJob unit _ j _ _ _ _ _)

theorem StopKept.setCore (s : State) (c : Nat) (f : PkeCore → PkeCore) : StopKept n s (s.setCore c f) :=
  .of_apart ((RegFrame.setCore s c f).mono (by
    rintro a (rfl | rfl | rfl | rfl)
    · exact apart_of_le unit (by unfold A.pkeCoreStatus; omega)
    · exact apart_of_le unit (by unfold A.pkeCoreTag; omega)
    · exact apart_of_le unit (by decide)
    · exact apart_of_le unit (by decide)))

theorem StopKept.wipeCore (s : State) (c : Nat) : StopKept n s (s.wipeCore c) := by
  have cycles : 0x7000 ≤ A.pkeCoreCycles c := by unfold A.pkeCoreCycles; omega
  have wipes : 0x7000 ≤ A.pkeCoreWipes c := by unfold A.pkeCoreWipes; omega
  exact .trans (.of_apart (.trans (.count s _ _ (apart_of_le unit cycles) (fun _ => apart_of_le unit (by omega)))
    (.inc _ _ (apart_of_le unit wipes) (fun _ => apart_of_le unit (by omega))))) (.setCore unit _ c _)

theorem StopKept.stopCore (s : State) (c status : Nat) (p : PkeJob → Bool) : StopKept n s (s.stopCore c status p) := by
  unfold State.stopCore
  extract_lets x t hit u
  have freed : StopKept n s t := by
    unfold t
    split
    · exact .ite (.trans (.wipeCore unit s c) (.stopJob unit _ _ _ _ _)) (.refl n s)
    · exact .refl n s
  have kept : StopKept n t u := .ite (.refl n t) (.setCore unit t c _)
  exact (freed.trans kept).trans (.each (fun j v => .stopJob unit v j _ _ _) hit u)

theorem StopKept.abortJobs (s : State) (p : PkeJob → Bool) : StopKept n s (s.abortJobs p) := by
  have queued : StopKept n s (s.setQueuePke (fun q => q.filter (fun j => !(p j)))) :=
    .of_apart (RegFrame.sfW _ _ _ _ _ (apart_of_le unit (by decide))).before
  exact .trans (queued.trans (.each (fun j t => .stopJob unit t j _ _ _) _ _)) (.each (fun c t => .stopCore unit t c 1 p) _ _)

/-! ### Rings (R346) -/

/-- Another ring's change of state. -/
theorem StopKept.setRingState (s : State) {m : Nat} (other : m ≠ n) (st reason : Nat) : StopKept n s (s.setRingState m st reason) := by
  have own : Apart n (A.hifRingState m) := ⟨hifRingState_ne_detaches m, by unfold A.hifRingState; omega⟩
  exact .of_apart (Frame.setRingState own (Journals.apart unit).toReports (apart_of_lt unit (by decide)) s st reason).words

theorem StopKept.ringEmptied (s : State) (m : Nat) : StopKept n s (s.ringEmptied m) := by
  unfold State.ringEmptied
  exact .trans (.abortJobs unit s _) (.each (fun _ _ => .same) _ _)

theorem StopKept.stopRing (s : State) {m : Nat} (other : m ≠ n) : StopKept n s (s.stopRing m) := by
  rw [stopRing_eq]
  refine .trans (.ringEmptied unit s m) ?_
  generalize s.ringEmptied m = t
  unfold State.ringOff
  exact .trans (.trans (.setRingState unit t other 0 0) .same) (.showRing n _ m)

/-- A ring that stops is OFF. -/
theorem stopRing_off {s : State} (h : CellList.wf resetOf s.regs = true) : (s.stopRing n).ringState n = 0 := by
  obtain ⟨regs, -⟩ := (StopKept.ringEmptied unit s n).detaches h
  rw [stopRing_eq]
  generalize s.ringEmptied n = t at regs ⊢
  obtain ⟨regs', off⟩ := setRingState_ringState regs unit (st := 0) (by decide) 0
  unfold State.ringOff
  have shown : ∀ u : State, u.regs = (t.setRingState n 0 0).regs → (u.showRing n).ringState n = 0 := fun u e =>
    ((StopKept.trans (StopKept.same e) (.showRing n u n)).state regs').2.trans off
  exact shown _ rfl

end

/-- A ring that stops leaves DETACHES alone. -/
theorem RegFrame.stopRing_detaches (s : State) (m : Nat) : RegFrame (· ≠ A.hifDetaches) s (s.stopRing m) := by
  have beside : Journals (· ≠ A.hifDetaches) := journals_beside (by decide) (by decide) (by decide) (by decide)
  rw [stopRing_eq]
  refine .trans (StopKept.ringEmptied (n := 0) (by decide) s m).detaches ?_
  generalize s.ringEmptied m = t
  have off := (Frame.setRingState (n := m) (hifRingState_ne_detaches m) beside.toReports (show A.hifStatus ≠ A.hifDetaches by decide)
    t 0 0).words
  have shown : ∀ u : State, RegFrame (· ≠ A.hifDetaches) u (u.showRing m) := fun u => .sfW u _ _ _ _ (hifRingState_ne_detaches m)
  have emptied : ∀ (u : State) f, RegFrame (· ≠ A.hifDetaches) u (u.setRing m f) := fun u f => .same rfl
  unfold State.ringOff
  exact off.trans ((emptied _ _).trans (shown _))

/-- One ring of a detach. -/
def State.detachRing (n : Nat) (s : State) : State := if s.ringState n = 0 then s else s.stopRing n

theorem RegFrame.detachRing (s : State) (n : Nat) : RegFrame (· ≠ A.hifDetaches) s (s.detachRing n) :=
  .ite (fun _ => .refl _ s) (fun _ => .stopRing_detaches s n)

/-! ### The detach (R347) -/

/-- The rings in the order in which a detach stops them. -/
def State.detachOrder (s : State) : List Nat :=
  s.eventRing.toList ++ (List.range 256).filter (fun n => !(s.eventRing.toList.contains n))

theorem mem_detachOrder (s : State) {n : Nat} (unit : n < 256) : n ∈ s.detachOrder := by
  unfold State.detachOrder
  by_cases first : n ∈ s.eventRing.toList
  · exact List.mem_append_left _ first
  · exact List.mem_append_right _ (List.mem_filter.mpr ⟨List.mem_range.mpr unit, by simpa using first⟩)

/-- The state in which every ring has stopped. -/
def State.ringsStopped (s : State) : State := s.each s.detachOrder (fun n u => u.detachRing n)

theorem RegFrame.ringsStopped (s : State) : RegFrame (· ≠ A.hifDetaches) s s.ringsStopped :=
  .each s.detachOrder (fun n u => u.detachRing n) (fun n _ t => .detachRing t n) s

theorem ringsStopped_off {s : State} (h : CellList.wf resetOf s.regs = true) {n : Nat} (unit : n < 256) : s.ringsStopped.ringState n = 0 := by
  refine each_establishes (I := fun t => CellList.wf resetOf t.regs = true) (P := fun n t => n < 256 → t.ringState n = 0)
    (fun m t k => (RegFrame.detachRing t m k).1) (fun m t k small => ?_) (fun k m t wf off small => ?_) s.detachOrder s h
    (mem_detachOrder s unit) unit
  · unfold State.detachRing
    split
    · assumption
    · exact stopRing_off small k
  · unfold State.detachRing
    split
    · exact off small
    · by_cases same : m = k
      · exact same ▸ stopRing_off (same ▸ small) wf
      · exact ((StopKept.stopRing small t same).state wf).2.trans (off small)

/-- The words of HIF_CFG and HIF_RING are neither DETACHES nor a ring's state. -/
theorem groupWords_apart : ∀ g ∈ [25, 26], ∀ a ∈ groupWords g, a ≠ 0x4050 ∧ (a % 32 = 0x18 → a < 0x5000) := by decide +kernel

section
variable {n : Nat} (unit : n < 256)
include unit

theorem detachWords_apart {g : Nat} (own : g ∈ [25, 26]) : ∀ a ∈ detachWords g, Apart n a := by
  intro a m
  obtain ⟨detaches, state⟩ := groupWords_apart g own a (List.mem_filter.mp m).1
  unfold Apart A.hifDetaches A.hifRingState
  omega

theorem sluGroupStatus_apart {g : Nat} (own : g ∈ [25, 26]) : Apart n (A.sluGroupStatus g) := by
  refine apart_of_lt unit ?_
  unfold A.sluGroupStatus
  simp at own
  omega

theorem RegFrame.dropPending_apart (s : State) {g : Nat} (own : g ∈ [25, 26]) (result : Nat) : RegFrame (Apart n) s (s.dropPending g result) := by
  have outcome : ∀ (t : State) src changes, RegFrame (Apart n) t (t.commitOutcome g src result 0 changes) := by
    intro t src changes
    have set : RegFrame (Apart n) t (t.setResult g result 0) :=
      (RegFrame.setResult t g result 0).mono (fun a e => e ▸ sluGroupStatus_apart unit own)
    have raised := (Journals.apart unit).raise (t.setResult g result 0) A.sluEvent (outcomeEvent result) (apart_of_lt unit (by decide))
    have counted : ∀ u : State, RegFrame (Apart n) u (if result = 3 then u.inc A.sluRejects else u) := fun u =>
      .ite (fun _ => .inc u _ (apart_of_lt unit (by decide)) (fun _ => apart_of_lt unit (by decide))) (fun _ => .refl _ u)
    unfold State.commitOutcome
    exact .trans ((set.trans raised).trans (counted _)) ((Journals.apart unit).journalBlock _ _ _ _ _ _ _)
  have cleared : ∀ t : State, RegFrame (Apart n) t (if g = 16 then t.setBit A.hrcStatus 24 false else t) := fun t =>
    .ite (fun _ => .sfW t _ _ _ _ (apart_of_le unit (by decide))) (fun _ => .refl _ t)
  have freed : ∀ f, RegFrame (Apart n) s (s.setGroup g f) := fun f => .same rfl
  unfold State.dropPending
  split
  · exact .refl _ s
  · exact .trans ((freed _).trans (cleared _)) (outcome _ _ _)

theorem RegFrame.detachGroup_apart (s : State) {g : Nat} (own : g ∈ [25, 26]) : RegFrame (Apart n) s (s.detachGroup g) := by
  have words : ∀ t : State, RegFrame (Apart n) t (t.each (detachWords g) (fun a u => u.wr a (resetOf a))) := fun t =>
    .each _ _ (fun a m u => .wr u a _ (detachWords_apart unit own a m)) t
  have staged : ∀ (t : State) l f, RegFrame (Apart n) t (({ t with stage := l } : State).setGroup g f) := fun t l f => .same rfl
  have moved : ∀ t : State, RegFrame (Apart n) t (t.stageMoved g) := fun t => .sfW t _ _ _ _ (sluGroupStatus_apart unit own)
  unfold State.detachGroup
  exact .trans (.trans ((RegFrame.dropPending_apart unit s own 5).trans (words _)) (staged _ _ _)) (moved _)

/-- The groups of the host's rings are at reset, and what waited in them is gone. -/
theorem RegFrame.groupsDetached (s : State) : RegFrame (Apart n) s ((s.detachGroup 25).detachGroup 26).sluChanged.hifFrozen := by
  have changed : ∀ t : State, RegFrame (Apart n) t t.sluChanged := fun t => (RegFrame.sluChanged t).mono (by
    rintro a (rfl | rfl | rfl | rfl)
    · exact apart_of_lt unit (by decide)
    · exact apart_of_lt unit (by decide)
    · exact apart_of_lt unit (by decide)
    · exact apart_of_le unit (by decide))
  have frozen : ∀ t : State, RegFrame (Apart n) t t.hifFrozen := fun t => .sfW t _ _ _ _ (apart_of_lt unit (by decide))
  exact .trans (.trans (.trans (.detachGroup_apart unit s (by decide)) (.detachGroup_apart unit _ (by decide))) (changed _)) (frozen _)

end

/-- The host is gone from block HIF, and the source shows nothing of it. -/
def State.hostGone (s : State) : State :=
  (({ s with
    msix := State.reset.msix
    hif := { s.hif with
      attached := false
      vecs := State.reset.hif.vecs
      dbOutstanding := false
      dbAgain := false
      coalesce := s.hif.coalesce.filter (fun c => decide (c.dest ≠ 0))
      trainAt := some s.ts.meas } } : State).setView .host (fun _ => SourceView.fresh)).sfW A.hifStatus 0 9 0

theorem hostGone_reads (s : State) : Hif.reads s.hostGone.hif = (false, false, false) := rfl

theorem detached_of_reads {s : State} (h : Hif.reads s.hif = (false, false, false)) : s.hif.attached = false ∧ s.hif.dbOutstanding = false :=
  ⟨congrArg Prod.fst h, congrArg (fun r => r.2.1) h⟩

/-- What a detach does to the host's groups and to block HIF once its rings have stopped. -/
def State.unhosted (s : State) : State := (((s.detachGroup 25).detachGroup 26).sluChanged.hifFrozen).hostGone

theorem RegFrame.unhosted {n : Nat} (unit : n < 256) (s : State) : RegFrame (Apart n) s s.unhosted := by
  have gone : ∀ t : State, RegFrame (Apart n) t t.hostGone := fun t =>
    (RegFrame.sfW _ _ _ _ _ (apart_of_lt unit (by decide))).before
  exact (RegFrame.groupsDetached unit s).trans (gone _)

theorem unhosted_reads (s : State) : Hif.reads s.unhosted.hif = (false, false, false) := hostGone_reads _

/-- The event, the counter and the journal record of a detach. -/
def State.detachNoted (s : State) (cause : Nat) : State :=
  ((s.raise A.hifEvent 1).inc A.hifDetaches).journalize 0x0A .host A.hifStatus 0 [Config.detachCause cause, Config.detachState]

theorem hostDetach_of {s : State} (attached : s.hif.attached = true) (cause : Nat) :
    s.hostDetach cause = s.ringsStopped.unhosted.detachNoted cause := by
  unfold State.hostDetach State.unhosted State.hostGone State.detachNoted State.ringsStopped State.detachOrder State.detachRing
  rw [if_neg (by simp [attached])]

section
variable {s : State} (h : CellList.wf resetOf s.regs = true) {n : Nat} (unit : n < 256) (cause : Nat)
include h

theorem detachNoted_detaches : ((s.detachNoted cause).rd A.hifDetaches).toNat = min ((s.rd A.hifDetaches).toNat + 1) 0xFFFFFFFF := by
  have beside : Journals (· ≠ A.hifDetaches) := journals_beside (by decide) (by decide) (by decide) (by decide)
  obtain ⟨regs, raised⟩ := beside.raise s A.hifEvent 1 (by decide) h
  have journaled := beside.journalize ((s.raise A.hifEvent 1).inc A.hifDetaches) 0x0A .host A.hifStatus 0
    [Config.detachCause cause, Config.detachState]
  unfold State.detachNoted
  rw [(journaled (inc_regs regs _)).2 _ (fun e => e rfl), inc_rd regs (by decide +kernel), raised _ (fun e => e rfl)]

include unit in
theorem detachNoted_ringState : (s.detachNoted cause).ringState n = s.ringState n := by
  have beside : Journals (· ≠ A.hifRingState n) := journals_beside (by unfold A.hifRingState; omega) (by unfold A.hifRingState; omega)
    (by unfold A.hifEvent A.hifRingState; omega) (by unfold A.hifEvtDrop A.hifRingState; omega)
  have single : pairRowOf A.hifDetaches = none := by decide +kernel
  have raised := beside.raise s A.hifEvent 1 (by unfold A.hifEvent A.hifRingState; omega)
  have counted : RegFrame (· ≠ A.hifRingState n) (s.raise A.hifEvent 1) ((s.raise A.hifEvent 1).inc A.hifDetaches) :=
    .inc _ _ (hifRingState_ne_detaches n).symm (fun e => by simp [single] at e)
  have journaled := beside.journalize ((s.raise A.hifEvent 1).inc A.hifDetaches) 0x0A .host A.hifStatus 0
    [Config.detachCause cause, Config.detachState]
  exact f_of_rd ((((raised.trans counted).trans journaled) h).2 _ (fun e => e rfl)) 0 2

end

theorem detachNoted_reads (s : State) (cause : Nat) : HifKept Hif.reads s (s.detachNoted cause) :=
  .trans (.trans (.raise outsideRings_reads.toOutsideReports s _ _) (.of_parts (.inc _ _))) (.journalize outsideRings_reads _ _ _ _ _ _)

/-- A detach leaves every ring OFF and counts. -/
theorem hostDetach_off {s : State} (h : CellList.wf resetOf s.regs = true) (attached : s.hif.attached = true) (cause : Nat) :
    (s.hostDetach cause).hif.attached = false ∧ ∀ n, n < 256 → (s.hostDetach cause).ringState n = 0 ∧
      ((s.hostDetach cause).rd A.hifDetaches).toNat = min ((s.rd A.hifDetaches).toNat + 1) 0xFFFFFFFF ∧
      (s.hostDetach cause).hif.dbOutstanding = false := by
  obtain ⟨regs, same⟩ := RegFrame.ringsStopped s h
  have detaches := same A.hifDetaches (fun e => e rfl)
  obtain ⟨gone, idle⟩ := detached_of_reads (Eq.trans (detachNoted_reads s.ringsStopped.unhosted cause) (unhosted_reads _))
  rw [hostDetach_of attached]
  refine ⟨gone, fun n unit => ?_⟩
  obtain ⟨regs', kept⟩ := RegFrame.unhosted unit s.ringsStopped regs
  have off := f_of_rd (kept _ (fun e => e.2 rfl)) 0 2
  refine ⟨(detachNoted_ringState regs' unit cause).trans (off.trans (ringsStopped_off h unit)), ?_, idle⟩
  rw [detachNoted_detaches regs', kept _ (fun e => e.1 rfl), detaches]

/-- Settles O26: each command is its operation's branch that the hypotheses name; what follows the effect posts and reports, and leaves
the fields that the clause reads as they are (`HifKept`, `StopKept`). -/
theorem hostQueuesComplete : Obligations.HostQueuesComplete := by
  unfold Obligations.HostQueuesComplete
  refine ⟨fun s u dt canonical eq idle wanted => completes_after (·.dueFirst.kick) rfl (u := s.advance dt) rfl ?kick,
    fun s u dt canonical eq busy => completes_after (·.dueFirst.kick) rfl (u := s.advance dt) rfl ?again,
    fun s u dt canonical eq busy once => completes_after (·.doorbellDone none) rfl eq ?fault,
    fun s u dt w x canonical eq busy once listed unit one sound records jobs events running fits behind unread =>
      completes_after (·.doorbellDone (some [w])) rfl eq ?word,
    fun s u dt ring d l x canonical eq unit type state waits listed there up fits =>
      completes_afterIf (·.hostFrame ring (some x)) rfl (decide_eq_true unit) eq (hostFrame_queued type state waits listed there up fits x),
    fun s u dt canonical eq => completes_after (·.hostFrameTimeout) rfl eq (hostFrameTimeout_fresh u),
    fun s u dt ring b l canonical eq unit listed type state waits filled due =>
      completes_afterIf (·.recordFlush ring) rfl (decide_eq_true unit) eq (recordFlush_of type state waits filled due),
    fun s u dt ring d l data ok canonical eq unit type live free waits span out idle =>
      completes_afterIf (·.xfer ring data ok) rfl (decide_eq_true unit) eq (xfer_out type live free waits span out idle data ok),
    fun s u dt ring d l data canonical eq unit type live free waits span into stage unchecked part =>
      completes_afterIf (·.xfer ring data true) rfl (decide_eq_true unit) eq (xfer_in type live free waits span into stage unchecked data part),
    fun s u dt ring n d data ok flash canonical eq unit checking =>
      completes_afterIf (·.xferChecked flash) rfl (decide_eq_true unit) eq (xferChecked_ended checking flash),
    fun s u dt v canonical eq unit listed timed pending due open_ =>
      completes_afterIf (·.vectorTimer v) rfl (decide_eq_true unit) eq ?sent,
    fun s u dt v canonical eq unit listed timed pending due masked =>
      completes_afterIf (·.vectorTimer v) rfl (decide_eq_true unit) eq ?masked,
    fun s u dt canonical eq => completes_after (·.coalesceEnd) rfl eq (coalesceEnd_windowsOpen u),
    fun s u dt ring canonical eq unit quiescing idle done =>
      completes_afterIf (·.ringQuiesced ring) rfl (decide_eq_true unit) eq (ringIdle_off ?quiesced unit quiescing idle done),
    fun s u dt cause canonical eq known attached =>
      completes_afterIf (·.hostDetach cause) rfl (decide_eq_true known) eq (hostDetach_off ?detach attached cause),
    fun s u dt speed width canonical eq code lanes =>
      completes_after (·.pcieUp speed width) rfl eq (pcieUp_shown ?up code lanes),
    fun s u dt m canonical eq tried apart due => completes_after (·.pcieRetrain) rfl eq (pcieRetrain_trains tried apart due),
    fun s u dt canonical eq => completes_after (·.journalFlash) rfl eq (journalFlash_taken u)⟩
  case kick =>
    have regs := regs_of_canonical (eq ▸ dueFirst_canonical canonical dt)
    rw [← eq]
    obtain ⟨outstanding, emitted⟩ := kick_reads regs idle wanted
    exact ⟨outstanding, emitted, kick_counted regs⟩
  case again =>
    have regs := regs_of_canonical (eq ▸ dueFirst_canonical canonical dt)
    rw [← eq]
    obtain ⟨again, same⟩ := kick_again busy
    exact ⟨again, same, kick_counted regs⟩
  case fault => exact doorbellDone_fault (regs_of_canonical (eq ▸ advance_canonical canonical dt)) busy once
  case word =>
    obtain ⟨counts, ended⟩ := doorbellDone_word (regs_of_canonical (eq ▸ advance_canonical canonical dt)) busy once listed
      ⟨unit, one, sound, records, jobs, events, running, fits, behind, unread⟩
    exact ⟨congrArg Prod.fst counts, congrArg (fun c => c.2.1) counts, congrArg (fun c => c.2.2) counts, ended⟩
  case sent =>
    rw [vectorTimer_of timed pending due]
    exact sendVec_items listed open_
  case masked =>
    rw [vectorTimer_of timed pending due]
    exact sendVec_masked listed masked
  all_goals exact regs_of_canonical (eq ▸ advance_canonical canonical dt)

end Sys2Proof.Machine
end
